-- ==== Sys2Proof/Word.lean ====
section
/-! DEFINITION. The word types: 32-bit registers (R10), bytes, and the 64-bit words of statistics and of the FRC. -/

namespace Sys2Proof

/-- A register word (R10). -/
abbrev Word := BitVec 32
/-- A byte of a frame, message or buffer. -/
abbrev Byte := BitVec 8

end Sys2Proof
end

