-- ==== Sys2Proof/Syntax.lean ====
section
/-! DEFINITION. The commands of the block: one constructor per row of spec/opcode_table.json, in its order. A command that is a
register access carries the master `m` (R8) and what it writes; an event carries what the outside world brings with it. A last operand
written with `:=` may be left out: the command is then the one that brings nothing else of that kind. -/

namespace Sys2Proof

/-- The commands of the 7420. -/
inductive Instr where
  /-- REG_WRITE (R38): A master writes a register that has no row of its own; the write takes effect in the page in issue order, subject to masks, locks and domain power. -/
  | regWrite (m : Nat) (a : Nat) (v : Word) (full : Bool) (core : Nat)
  /-- MULTIWORD_LOW_READ (R54): A read of the low word of a multi-word value holds its high word for that master until released. -/
  | multiwordLowRead (m : Nat) (a : Nat) (full : Bool) (core : Nat) (user : Bool := false)
  /-- WRITE_MASK_WRITE (R36): Master 3 writes GLB_PERM_DATA to set the write mask of the page selected by GLB_PERM_SEL. -/
  | writeMaskWrite (m : Nat) (v : Word)
  /-- FENCE_REQ (R40): A write to GLB_FENCE_REQ issues the writing master's next ticket. -/
  | fenceReq (m : Nat)
  /-- FENCE_RETIRED (R41): A ticket retires once the master's earlier posted writes and TAP commits have taken effect; it is written to GLB_FENCE_DONE and FENCE_SEEN. -/
  | fenceRetired (m : Nat)
  /-- INT_RAW_CLEAR (R58): A W1C write to a page's INT_RAW clears bits and re-evaluates every MSI-X vector, sending another message if its OR is still 1. -/
  | intRawClear (m : Nat) (pg : Nat) (v : Word)
  /-- INT_FORCE (R30): A write to INT_FORCE sets the chosen INT_RAW bits, which pass through enables, roll-up and routes like real conditions. -/
  | intForce (m : Nat) (pg : Nat) (v : Word)
  /-- SOFT_RST (R31): Writing BLK_CTRL.SOFT_RST starts a block reset that settles in-flight operations, idles result slots and restores registers except table seeds. -/
  | softRst (m : Nat) (pg : Nat)
  /-- SOFT_RST_DONE (R31): The block reset completes after in-flight operations settle, and SOFT_RST clears. -/
  | softRstDone (pg : Nat)
  /-- QUIESCE_REQ (R385): BLK_CTRL.QUIESCE_REQ asks a block to complete outstanding accesses. -/
  | quiesceReq (m : Nat) (pg : Nat) (v : Word)
  /-- QUIESCED (R385): A block reports QUIESCED after completing its outstanding accesses, letting a pending gate or power transition proceed. -/
  | quiesced (pg : Nat)
  /-- BLK_LOCK (R34): Writing BLK_LOCK.LOCK makes the page's RWL registers read-only. -/
  | blkLock (m : Nat) (pg : Nat)
  /-- ERR_CAP_REARM (R29): Writing 1 to ERR_CAP0.VALID clears the error capture and re-arms it. -/
  | errCapRearm (m : Nat) (pg : Nat)
  /-- CNT_SNAP (R55): CNT_SNAP.TAKE captures every counter of the page and the FRC through the page's snapshot result slot. -/
  | cntSnap (m : Nat) (pg : Nat)
  /-- CNT_SNAP_ALL (R56): GLB CNT_SNAP with TAKE and ALL captures every page with counters at one instant. -/
  | cntSnapAll (m : Nat)
  /-- SNAP_DONE (R55): A snapshot completes within 2 µs; its slot reads VALID and SNAP_DONE sets. -/
  | snapDone (pg : Nat)
  /-- CNT_SNAP_ACK (R55): CNT_SNAP_ACK with the snapshot's SEQ releases the captured values. -/
  | cntSnapAck (m : Nat) (pg : Nat) (seq : Nat)
  /-- COUNTER_CLR (R476): Writing CLR of an event counter sets its COUNT and SAT to 0, for the item the master's selector names. -/
  | counterClr (m : Nat) (a : Nat)
  /-- RES_ACK (R51): A RES_ACK write by the owner with the slot's SEQ releases a VALID result slot. -/
  | resAck (m : Nat) (a : Nat) (seq : Nat)
  /-- TAP_READ (R475): TAP READ reads the committed entry at TAP_INDEX into the result slot. -/
  | tapRead (m : Nat) (t : Nat)
  /-- TAP_WRITE (R47): TAP WRITE stages TAP_DATA at TAP_INDEX of a direct table. -/
  | tapWrite (m : Nat) (t : Nat)
  /-- TAP_LOOKUP (R475): TAP LOOKUP finds TAP_KEY in the ICT or ADT and returns its index and entry. -/
  | tapLookup (m : Nat) (t : Nat)
  /-- TAP_INSERT (R475): TAP INSERT stages a keyed entry in the ICT or ADT. -/
  | tapInsert (m : Nat) (t : Nat)
  /-- TAP_DELETE (R475): TAP DELETE stages removal of an entry by key or by index. -/
  | tapDelete (m : Nat) (t : Nat)
  /-- TAP_COMMIT (R46): TAP COMMIT queues the master's staged entries for one atomic generation flip. -/
  | tapCommit (m : Nat)
  /-- TAP_COMMIT_DONE (R45): A commit completes, applying all staged entries at once or none with TABLE_FULL or NOT_FOUND, and advances TAP_COMMIT. -/
  | tapCommitDone
  /-- TAP_DISCARD (R48): TAP DISCARD empties the master's staging area. -/
  | tapDiscard (m : Nat)
  /-- TAP_OP_DONE (R46): A non-commit TAP command completes within 200 ns and its slot reads VALID. -/
  | tapOpDone (m : Nat)
  /-- ETH_FRAME_RX (R19): An Ethernet frame arrives on a fabric port and passes reception, parsing, handle formation, routing, policing and Basin admission from its head. -/
  | ethFrameRx (p : Nat) (b : List Byte) (pre : Bool)
  /-- FRAME_VERDICT (R109): When a frame's last byte arrives its verdict from FCS, length, final colour, tag, ECC and data check is known and acted on. -/
  | frameVerdict (p : Nat) (pre : Bool) (fcsOk : Bool) (framing : Bool) (ecc : Nat) (sym : Nat := 0) (corr : Nat := 0) (uncorr : Nat := 0)
  /-- LEARN_COMMIT (R84): The learn request at the queue head is committed: create, refresh, move, or refuse. -/
  | learnCommit
  /-- FREEZE_TICK (R86): Every 10 ms the learning engine decrements FREEZE_LEFT, clears ended freezes and stale LM_VALID. -/
  | freezeTick
  /-- AGE_TICK (R87): LRN_TICK advances and the sweep prunes expired dynamic entries. -/
  | ageTick
  /-- LRN_AGE_WRITE (R87): A write of LRN_AGE.TICK reschedules the next tick advance. -/
  | lrnAgeWrite (m : Nat) (v : Word)
  /-- SEED_WRITE (R69): A write to ICT_SEED or ADT_SEED is taken only while the table is empty, else counted. -/
  | seedWrite (m : Nat) (a : Nat) (v : Word)
  /-- ANCHOR_BATCH (R88): Each PERIOD, or at 64 pending records, ANNOUNCE or WITHDRAW messages are sent to every enabled anchor. -/
  | anchorBatch
  /-- ANCHOR_ANNOUNCE (R90): An accepted ANNOUNCE applies its records through the learn queue under the receive state machine. -/
  | anchorAnnounce (p : Nat) (smac : Nat) (b : List Byte)
  /-- ANCHOR_WITHDRAW (R90): An accepted WITHDRAW deletes remote entries of that origin. -/
  | anchorWithdraw (p : Nat) (smac : Nat) (b : List Byte)
  /-- ANCHOR_SYNC_REQ (R91): A received SYNC_REQ is answered with the full local table and SYNC_END. -/
  | anchorSyncReq (smac : Nat) (b : List Byte)
  /-- ANCHOR_SYNC_DATA (R91): A received SYNC_DATA applies its records. -/
  | anchorSyncData (p : Nat) (smac : Nat) (b : List Byte)
  /-- ANCHOR_SYNC_END (R91): A received SYNC_END sets RX_SEQ and moves the peer to UP. -/
  | anchorSyncEnd (smac : Nat) (b : List Byte)
  /-- ANCHOR_SILENCE_TIMEOUT (R91): An anchor's silence timer expires and the peer goes DOWN. -/
  | anchorSilenceTimeout (k : Nat)
  /-- ANCHOR_DISABLE (R91): Writing an anchor entry's EN to 0 moves it to DOWN. -/
  | anchorDisable (m : Nat) (k : Nat) (v : Word)
  /-- EGRESS_SELECT (R138): When a port's transmitter is free the scheduler picks a class and starts a copy, with insertion and encryption. -/
  | egressSelect (p : Nat) (ecc : Nat := 0)
  /-- TX_COMPLETE (R97): A copy's last byte leaves the port, its reference is released and cells return when REFS reaches 0. -/
  | txComplete (p : Nat)
  /-- PREEMPT (R150): An express frame preempts a preemptable frame at its first permitted point. -/
  | preempt (p : Nat) (sent : Nat)
  /-- RAKE_AUDIT_START (R113): Every PERIOD ms the Rake starts an audit of the free list. -/
  | rakeAuditStart
  /-- RAKE_AUDIT_DONE (R115): An audit completes; suspects of two audits are reclaimed. -/
  | rakeAuditDone (unmarked : List Nat) (doubled : List Nat) (broken : Bool) (beyond : List Nat)
  /-- EDY_RATE_WRITE (R119): A write to EDY_RATE sets N and resets COUNT to 0. -/
  | edyRateWrite (m : Nat) (k : Nat) (v : Word)
  /-- FLOW_SEED_APPLY (R100): A pending BSN_FLOW_SEED takes effect when BSN_FREE next reads 49,152. -/
  | flowSeedApply
  /-- QCFG_WRITE (R105): A BSN_QCFG or BSN_HEADROOM write is taken or ignored under the reservation sum rule. -/
  | qcfgWrite (m : Nat) (a : Nat) (v : Word)
  /-- GAP_MARKER (R126): When PEND > 0 and room allows, the FIFO writes and commits a gap marker. -/
  | gapMarker (r : Nat)
  /-- FIFO_RESET (R127): A pointer copy mismatch resets the ring FIFO and writes a RESET gap marker. -/
  | fifoReset (tx : Bool) (r : Nat) (held : List Nat)
  /-- WEI_APPLY (R136): WEI_CMD.APPLY copies the master's data words into the selected meter. -/
  | weiApply (m : Nat)
  /-- WEI_LOAD (R136): WEI_CMD.LOAD copies the selected meter into the master's data words. -/
  | weiLoad (m : Nat)
  /-- SLU_CHANGE (R147): SLU_CMD.CHANGE copies the administrative configuration as pending and sets its change time. -/
  | sluChange (m : Nat) (p : Nat)
  /-- SLU_CANCEL (R147): SLU_CMD.CANCEL discards the pending configuration. -/
  | sluCancel (m : Nat) (p : Nat)
  /-- SLU_CONFIG_CHANGE (R147): At the change time the pending gate list becomes the operating list. -/
  | sluConfigChange (p : Nat) (sent : Nat)
  /-- GATE_EVENT (R142): A gate control list entry or cycle start takes effect and sets the gate states. -/
  | gateEvent (p : Nat) (sent : Nat)
  /-- SLU_GATE_EN_WRITE (R142): A write of SLU_CTRL.GATE_EN starts or stops gating. -/
  | sluGateEnWrite (m : Nat) (p : Nat) (v : Word)
  /-- SLU_GCL_WRITE (R143): A write of SLU_GCL_D1 stores a list entry and advances INDEX with AUTOINC. -/
  | sluGclWrite (m : Nat) (p : Nat) (v : Word)
  /-- VERIFY_TIMER (R149): Every VERIFY_TIME ms a verify frame is sent; after three unanswered, verification fails. -/
  | verifyTimer (p : Nat)
  /-- VERIFY_RESPOND (R149): A respond frame activates preemption on the port. -/
  | verifyRespond (p : Nat)
  /-- PAUSE_FRAME_RX (R152): A received MAC Control frame is consumed; a valid PAUSE stops or resumes the transmitter. -/
  | pauseFrameRx (p : Nat) (b : List Byte) (fcsOk : Bool)
  /-- PAUSE_EXPIRE (R152): PAUSE_LEFT reaches 0 and the port resumes. -/
  | pauseExpire (p : Nat)
  /-- BUD_REQUEST (R154): REQUEST checks and computes a reservation's bound and admits or refuses it. -/
  | budRequest (m : Nat)
  /-- BUD_QUERY (R154): QUERY runs the checks and bound computation without installing anything. -/
  | budQuery (m : Nat)
  /-- BUD_RELEASE (R162): RELEASE returns a reservation to FREE and moves the handle's envelope meter. -/
  | budRelease (m : Nat)
  /-- BUD_READ (R159): READ returns a reservation's record and state. -/
  | budRead (m : Nat)
  /-- BUD_RECHECK (R160): RECHECK re-checks every reservation of the named port. -/
  | budRecheck (m : Nat)
  /-- BUD_CMD_DONE (R156): A Budget Engine command completes within 200 µs and its slot reads VALID. -/
  | budCmdDone
  /-- BUD_AUTO_RECHECK (R160): A link, rate, preemption, gate, quota, MACsec or class change re-checks every reservation of the port. -/
  | budAutoRecheck (p : Nat)
  /-- BUD_ENABLE (R162): A write of BUD_CFG.EN takes or releases meters 3,072–4,095, refused while reservations exist. -/
  | budEnable (m : Nat) (v : Word)
  /-- PROOF_RX (R168): A PROOF message is received on a head port, checked for nonce and queued for verification. -/
  | proofRx (p : Nat) (b : List Byte)
  /-- HEAD_REQUEST_RX (R171): A head's REQUEST message starts an exchange at most once per second. -/
  | headRequestRx (p : Nat) (b : List Byte)
  /-- PROOF_VERIFIED (R171): The Vault's verification of a PROOF completes; the port is admitted, flagged or blocked. `alarm`: the sensor of a class 1 alarm that fires in it (R321). -/
  | proofVerified (p : Nat) (alarm : Option Nat)
  /-- VERDICT_SIGNED (R169): The VERDICT signature completes and the VERDICT is sent. -/
  | verdictSigned (p : Nat)
  /-- HAD_RESP_TIMEOUT (R171): The response timer expires; a new CHALLENGE is sent or the exchange ends. -/
  | hadRespTimeout (p : Nat)
  /-- HAD_RETRY_TIMEOUT (R171): The retry timer in FLAGGED or BLOCKED starts a new exchange. -/
  | hadRetryTimeout (p : Nat)
  /-- HAD_PERIOD (R171): PERIOD hours in ADMITTED start a re-admission. -/
  | hadPeriod (p : Nat)
  /-- OBSERVED_MINUTE (R173): Each minute in ADMITTED increments OBSERVED_MIN. -/
  | observedMinute (p : Nat)
  /-- LIFE_RECORD_TIMER (R174): Every 60 minutes of ADMITTED the life sum is recomputed and the record written to MRAM. -/
  | lifeRecordTimer (p : Nat)
  /-- HEAD_EN_WRITE (R171): Writing HAD_PORT_CFG.HEAD_EN moves the port to DOWN or OFF. -/
  | headEnWrite (m : Nat) (p : Nat) (v : Word)
  /-- HAD_ENROL (R164): ENROL writes the port's candidate key into the named roster index. -/
  | hadEnrol (m : Nat) (k : Nat) (p : Nat)
  /-- HAD_RETIRE (R164): RETIRE makes the named roster index RETIRED. -/
  | hadRetire (m : Nat) (k : Nat)
  /-- HAD_READ (R163): READ returns a roster entry. -/
  | hadRead (m : Nat) (k : Nat)
  /-- HAD_READMIT (R171): READMIT starts an exchange on the named port. -/
  | hadReadmit (m : Nat) (p : Nat)
  /-- HAD_READ_LIFE (R173): READ_LIFE returns a head's life record. -/
  | hadReadLife (m : Nat) (k : Nat)
  /-- FRE_APPLY (R181): FRE_CMD.APPLY installs a FRER function. -/
  | freApply (m : Nat)
  /-- FRE_LOAD (R181): FRE_CMD.LOAD copies a function into the master's data words. -/
  | freLoad (m : Nat)
  /-- FRE_RESET (R181): FRE_CMD.RESET resets a function's sequence state. -/
  | freReset (m : Nat)
  /-- FRE_RECOVERY_TIMEOUT (R179): A recovery function's RESET_MS timer expires and resets its history. -/
  | freRecoveryTimeout (k : Nat)
  /-- FRE_LATENT_TEST (R176): The latent error test period elapses and latent error detection runs. -/
  | freLatentTest (k : Nat)
  /-- FRE_LATENT_RESET (R176): The latent reset period elapses and latent counters reset. -/
  | freLatentReset (k : Nat)
  /-- FGD_DEADLINE (R187): A view's deadline passes; any open video frame closes and a STALE record is sent. -/
  | fgdDeadline (v : Nat)
  /-- FGD_STALE_REPEAT (R187): In STALE, each FRAME_PERIOD sends another STALE record. -/
  | fgdStaleRepeat (v : Nat)
  /-- FGD_APPLY (R193): FGD_CMD.APPLY installs a view's settings, taking EN transitions at once. -/
  | fgdApply (m : Nat)
  /-- FGD_LOAD (R193): FGD_CMD.LOAD copies a view into the master's words. -/
  | fgdLoad (m : Nat)
  /-- LINK_PCS_UP (R195): The PCS reports link up and the port enters HOLD. -/
  | linkPcsUp (p : Nat)
  /-- LINK_HOLD_EXPIRE (R195): The hold timer expires and the port enters UP. -/
  | linkHoldExpire (p : Nat)
  /-- LINK_PCS_DOWN (R196): The PCS reports link down; the port leaves UP or HOLD and copies on the wire end. -/
  | linkPcsDown (p : Nat)
  /-- TRAIN_TIMEOUT (R195): The training timer expires and training restarts. -/
  | trainTimeout (p : Nat)
  /-- EPT_ENABLE (R195): A write of BLK_CTRL.EN on an EPT page powers or stops the port. -/
  | eptEnable (m : Nat) (p : Nat) (v : Word)
  /-- EPT_CFG_WRITE (R195): A write that changes RATE or MASTER takes the port down. -/
  | eptCfgWrite (m : Nat) (p : Nat) (v : Word)
  /-- RETRAIN (R195): EPT_CMD.RETRAIN takes an UP port down to retrain. -/
  | retrain (m : Nat) (p : Nat)
  /-- EPT_SLEEP (R200): EPT_CMD.SLEEP sends a TC10 sleep request. -/
  | eptSleep (m : Nat) (p : Nat)
  /-- EPT_WAKE (R202): EPT_CMD.WAKE sends a wake on the port. -/
  | eptWake (m : Nat) (p : Nat)
  /-- TC10_SLEEP_REQ_RX (R200): A partner's sleep request is acknowledged or rejected. -/
  | tc10SleepReqRx (p : Nat)
  /-- TC10_SLEEP_AGREED (R200): An agreed sleep moves the port to SLEEP. -/
  | tc10SleepAgreed (p : Nat)
  /-- TC10_SLEEP_TIMEOUT (R200): No acknowledge within 16 ms; the port stays UP and counts TC10_REJ. -/
  | tc10SleepTimeout (p : Nat)
  /-- TC10_WAKE_DETECT (R202): A WUP or WUR is detected; the capture is set, wakes are forwarded and a sleeping port retrains. -/
  | tc10WakeDetect (p : Nat) (wur : Bool)
  /-- SD_ACTIVITY (R203): An SD port's detector reports MDI activity. -/
  | sdActivity (p : Nat)
  /-- PLCA_BEACON_TIMEOUT (R198): A non-coordinator sees no beacon and falls back to CSMA/CD. -/
  | plcaBeaconTimeout (p : Nat)
  /-- PLCA_BEACON_RX (R198): A beacon returns a fallen-back port to PLCA. -/
  | plcaBeaconRx (p : Nat)
  /-- HI_BER (R199): The BASE-R PCS reports hi_ber and HI_BER is raised. -/
  | hiBer (p : Nat)
  /-- HIF_DMA_PORT_WRITE (R208): A write of HIF_CFG.DMA_PORT attaches or releases DMA rings at port 20 or 21. -/
  | hifDmaPortWrite (m : Nat) (v : Word)
  /-- DMA_PORT_STATUS (R197): PCIE_UP or BUS_MASTER changes and the DMA port counts as up or down. -/
  | dmaPortStatus (v : Word) (relax : Bool := false)
  /-- RING_ENABLE (R208): A ring's EN goes to 1, taking BASE, SIZE and VECTOR. -/
  | ringEnable (m : Nat) (tx : Bool) (r : Nat) (v : Word)
  /-- RING_DISABLE (R213): Writing EN = 0 stops a ring after the descriptor in progress. -/
  | ringDisable (m : Nat) (tx : Bool) (r : Nat) (v : Word)
  /-- TX_DB (R208): A transmit doorbell sets a ring's TAIL. -/
  | txDb (t : Nat) (v : Word) (full : Bool)
  /-- RX_DB (R208): A receive doorbell sets a ring's TAIL. -/
  | rxDb (r : Nat) (v : Word) (full : Bool)
  /-- HIF_TX_START (R210): A transmit frame enters port intake once whole or 4,096 bytes are in the FIFO. -/
  | hifTxStart (t : Nat) (lens : List Nat) (eop : Bool) (b : List Byte) (under : Bool) (ready : List Nat := []) (bus : Option Nat := none)
  /-- RX_DESC_COMPLETE (R211): A committed record completes the descriptor at HEAD with its data and status. -/
  | rxDescComplete (r : Nat) (buf : Nat) (addr : Nat := 0)
  /-- DMA_ERROR (R213): A completion error, 50 ms timeout or bus-master loss stops the ring. -/
  | dmaError (tx : Bool) (r : Nat) (err : Nat) (k : Nat)
  /-- MSIX_COAL_TIMER (R216): COAL_TIME expires and the ring sends its MSI-X message. -/
  | msixCoalTimer (tx : Bool) (r : Nat)
  /-- MSIX_UNMASK (R216): Unmasking a vector sends its pending message. -/
  | msixUnmask (reqs : List (Bool × Nat × Nat × BitVec 64)) (func : Bool)
  /-- PCIE_RESET (R215): FLR, hot reset, PERST_N, link down or D3hot disables every ring and resets the ring FIFOs. -/
  | pcieReset
  /-- QSPI_WRITE (R218): A QSPI WRITE transaction performs its word writes after its CRC and length check. -/
  | qspiWrite (b : List Byte)
  /-- QSPI_READ (R217): A QSPI READ transaction returns token, data, STATUS and CRC. -/
  | qspiRead (b : List Byte) (abandoned : Bool)
  /-- QSPI_STATUS (R218): A QSPI STATUS transaction returns and clears the STATUS byte. -/
  | qspiStatus
  /-- IBM_READ (R220): An in-band READ request is authenticated, performed and answered. -/
  | ibmRead (smac : Nat) (vid : Nat) (b : List Byte)
  /-- IBM_WRITE (R220): An in-band WRITE request is authenticated, performed and answered. -/
  | ibmWrite (smac : Nat) (vid : Nat) (b : List Byte)
  /-- IBM_FENCE (R220): An in-band FENCE request issues and awaits a ticket and answers. -/
  | ibmFence (smac : Nat) (vid : Nat) (b : List Byte)
  /-- CAN_FRAME_RX (R227): A CAN frame reaches its end of frame on a channel and, after any check, is offered to stage 2 and the host filters. -/
  | canFrameRx (c : Nat) (b : List Byte)
  /-- CAU_VERDICT (R342): The CAU's authenticator check completes and the frame is offered, marked or dropped. -/
  | cauVerdict
  /-- CAN_COPY_LINKED (R236): A copy linked to a CAN queue is authenticated if required and taken into the transmit list. -/
  | canCopyLinked (c : Nat)
  /-- CAN_ARBITRATION (R237): At an arbitration opportunity the channel offers the copy with the smallest order key. -/
  | canArbitration (c : Nat)
  /-- CAN_TX_SUCCESS (R238): A transmission succeeds and the copy is released. -/
  | canTxSuccess (c : Nat)
  /-- CAN_TX_ERROR (R238): A transmission error retransmits or drops the copy and updates TEC. -/
  | canTxError (c : Nat) (t : Nat) (dataPhase : Bool) (arb : Bool) (keep : Bool)
  /-- CAN_ARB_LOST (R238): Arbitration is lost; the copy competes again. -/
  | canArbLost (c : Nat)
  /-- CAN_BUS_ERROR (R240): A receive-side bus error updates REC and the confinement state. -/
  | canBusError (c : Nat) (t : Nat) (dataPhase : Bool) (id : Nat) (inc : Nat)
  /-- CAN_IDLE_DETECT (R240): 11 consecutive recessive bits end integration or count toward bus-off recovery. -/
  | canIdleDetect (c : Nat)
  /-- CAN_PEX (R240): A protocol exception event returns the channel to INTEGRATING. -/
  | canPex (c : Nat) (id : Nat)
  /-- CAN_BOFF_DELAY (R240): The bus-off delay timer expires and recovery counting begins. -/
  | canBoffDelay (c : Nat)
  /-- TXL_AGED (R239): A copy waiting MAXAGE ms is dropped. -/
  | txlAged (c : Nat)
  /-- RECOVER (R240): CAN_CMD.RECOVER starts bus-off recovery counting. -/
  | recover (m : Nat) (c : Nat)
  /-- TXL_FLUSH (R239): CAN_CMD.TXL_FLUSH drops every copy not on the wire. -/
  | txlFlush (m : Nat) (c : Nat)
  /-- RXQ_POP (R235): CAN_CMD.RXQ_POP removes the oldest queued frame. -/
  | rxqPop (m : Nat) (c : Nat)
  /-- L0_RELEASE (R234): Writing 1 to CAN_L0_STAT.FULL frees a level-0 buffer. -/
  | l0Release (m : Nat) (c : Nat) (k : Nat) (v : Word)
  /-- CAN_ENABLE (R222): Writing BLK_CTRL.EN on a CAN page checks bit timing and leaves or enters CONFIG. -/
  | canEnable (m : Nat) (c : Nat) (v : Word)
  /-- LISTEN_WRITE (R231): A write of CAN_MODE.LISTEN is recorded to take effect at the next bus idle. -/
  | listenWrite (m : Nat) (c : Nat) (v : Word)
  /-- LISTEN_TAKE_EFFECT (R231): Listen-only takes effect at bus idle and flushes the transmit list. -/
  | listenTakeEffect (c : Nat)
  /-- LIN_FRAME_RX (R242): A subscribed LIN response arrives whole and is offered to stage 2. -/
  | linFrameRx (l : Nat) (sof : Nat) (d : List Byte) (st : Nat)
  /-- LIN_RESPONSE_TIMEOUT (R242): A response incomplete after its allowed time counts LIN_NO_RESP. -/
  | linResponseTimeout (l : Nat)
  /-- LIN_COPY_LINKED (R243): A copy for a LIN channel overwrites the publish buffer or is dropped. -/
  | linCopyLinked (l : Nat)
  /-- LIN_HEADER_RX (R243): A responder receives a header and answers from its publish buffer. `f`, `parity`: the six identifier bits and the two parity bits of the protected identifier. -/
  | linHeaderRx (l : Nat) (f : Nat) (sync : Bool) (parity : Nat)
  /-- LIN_SLOT (R244): A commander's schedule slot begins and sends its header and response per TYPE. -/
  | linSlot (l : Nat)
  /-- LIN_SWITCH (R245): LIN_CMD.SWITCH selects the next schedule table at the end of the slot. -/
  | linSwitch (m : Nat) (l : Nat)
  /-- LIN_SLEEP (R247): LIN_CMD.SLEEP sends go-to-sleep and enters SLEEP. -/
  | linSleep (m : Nat) (l : Nat)
  /-- LIN_WAKE (R247): LIN_CMD.WAKE sends a dominant wake pulse and returns to RUN. -/
  | linWake (m : Nat) (l : Nat)
  /-- LIN_GOTOSLEEP_RX (R247): A responder receives go-to-sleep and enters SLEEP. -/
  | linGotosleepRx (l : Nat)
  /-- LIN_INACTIVITY (R247): A responder sees no bus activity for INACT s and sleeps. -/
  | linInactivity (l : Nat)
  /-- LIN_WAKE_RX (R247): A dominant pulse of at least 150 µs wakes a sleeping channel. -/
  | linWakeRx (l : Nat)
  /-- LIN_WAKE_RETRY (R247): A responder with no break within 200 ms sends its wake pulse again. -/
  | linWakeRetry (l : Nat)
  /-- LIN_ENABLE (R245): Writing BLK_CTRL.EN on a LIN page checks the table and starts RUN or stays in CONFIG. -/
  | linEnable (m : Nat) (l : Nat) (v : Word)
  /-- CFL_RX_ITEM (R263): Confluence takes a copy from port 24 and consumes, tunnels or restores it with its on-change evaluations. -/
  | cflRxItem
  /-- CFL_TIMEOUT (R258): An RX_SIG timeout fires and its SOURCEs apply TO_ACT. -/
  | cflTimeout (k : Nat)
  /-- CFL_DEFERRED_TX (R262): A MIN_GAP-deferred on-change transmission is sent at the end of its gap. -/
  | cflDeferredTx (j : Nat)
  /-- CFL_CYCLIC_TX (R261): A due cyclic TX_SIG entry is built and sent. -/
  | cflCyclicTx (j : Nat)
  /-- CFL_TUN_HOLD (R267): HOLD µs after its first message an open NTSCF frame is sent. -/
  | cflTunHold (j : Nat)
  /-- CFL_ITEM_COMPLETE (R263): A work item completes and presents its outputs at port 24. -/
  | cflItemComplete
  /-- CFL_ENABLE (R477): A write of BLK_CTRL.EN on the CFL page starts or stops Confluence after the item in progress. -/
  | cflEnable (m : Nat) (v : Word)
  /-- SYNC_RX (R279): A Sync is accepted on a domain's slave port, the servo error is applied and Syncs are relayed. -/
  | syncRx (port : Nat) (number : Nat) (twoStep : Bool) (seq : Nat) (origin : Nat) (corr : Int) (ingress : Nat) (tlv : List Byte := [])
  /-- FOLLOW_UP_RX (R286): A Follow_Up completes a two-step Sync. -/
  | followUpRx (port : Nat) (number : Nat) (seq : Nat) (origin : Nat) (corr : Int) (tlv : List Byte := [])
  /-- SYNC_TIMEOUT (R281): No Sync is accepted for SYNC_TO intervals; the domain goes to UNSYNC or HOLDOVER. -/
  | syncTimeout (d : Nat)
  /-- GM_SYNC_TIMER (R287): A grandmaster or holdover domain sends a Sync on each master port every interval. -/
  | gmSyncTimer (d : Nat)
  /-- PDELAY_TIMER (R286): A port sends Pdelay_Req every 2^LOG_PDELAY s. -/
  | pdelayTimer (port : Nat)
  /-- PDELAY_REQ_RX (R286): A received Pdelay_Req is answered. -/
  | pdelayReqRx (port : Nat) (seq : Nat) (t2 : Nat) (requester : List Byte)
  /-- PDELAY_RESP_RX (R286): A Pdelay response completes an exchange and updates asCapable. -/
  | pdelayRespRx (port : Nat) (seq : Nat) (t1 : Nat) (t2 : Nat) (t3 : Nat) (t4 : Nat)
  /-- GPTP_OTHER_RX (R285): An Announce or Signaling message is consumed and counted. -/
  | gptpOtherRx (number : Nat)
  /-- DOM_STEP (R281): DOM_CMD.STEP steps, slews or is refused by domain state. -/
  | domStep (m : Nat) (d : Nat)
  /-- DOM_SLEW (R282): DOM_CMD.SLEW starts a slew of Δ. -/
  | domSlew (m : Nat) (d : Nat)
  /-- DOM_SET_RATE (R283): DOM_CMD.SET_RATE sets the base rate unless the native servo drives the domain. -/
  | domSetRate (m : Nat) (d : Nat)
  /-- DOM_UNLOCK (R281): DOM_CMD.UNLOCK returns the domain to UNSYNC. -/
  | domUnlock (m : Nat) (d : Nat)
  /-- SLEW_DONE (R282): The accumulated slew reaches Δ and SR returns to 0. -/
  | slewDone (d : Nat)
  /-- DOM_ENABLE (R281): A write of DOM_CFG.EN starts or stops the domain. -/
  | domEnable (m : Nat) (d : Nat) (v : Word)
  /-- DOM_RATE_MAX_WRITE (R276): A write of DOM_RATE_MAX below |RATE| clamps the rate through set_rate. -/
  | domRateMaxWrite (m : Nat) (d : Nat) (v : Word)
  /-- TIM_FRC_INC_WRITE (R273): A write of TIM_FRC_INC changes the FRC rate from the next tick, clamped to ±200 ppm. -/
  | timFrcIncWrite (m : Nat) (v : Word)
  /-- SRV_OFFSET (R293): A write to SRV_OFFSET runs one compatibility servo update. -/
  | srvOffset (m : Nat) (v : Word)
  /-- HFRC_MEASURE (R292): Every 1,048,576 ns the HFRC deviation is measured and the trim updated. -/
  | hfrcMeasure (cycles : Nat) (lf : Word)
  /-- VLT_INFO (R307): INFO returns a slot's attributes, KCV and public key. -/
  | vltInfo (m : Nat)
  /-- VLT_GENERATE (R308): GENERATE creates a key in the slot's companion and returns its KCV. -/
  | vltGenerate (m : Nat)
  /-- VLT_DERIVE (R310): DERIVE derives a child key into the companion from a parent. -/
  | vltDerive (m : Nat)
  /-- VLT_COMMIT (R309): COMMIT with a matching KCV replaces the main cell and orphans children. -/
  | vltCommit (m : Nat)
  /-- VLT_DISCARD (R307): DISCARD empties a pending companion. -/
  | vltDiscard (m : Nat)
  /-- VLT_REVOKE (R307): REVOKE makes a slot REVOKED, orphans children and purges engine copies. -/
  | vltRevoke (m : Nat)
  /-- VLT_DELETE (R307): DELETE empties a revoked or exhausted slot. -/
  | vltDelete (m : Nat)
  /-- VLT_SIGN (R299): SIGN makes an Ed448 signature, refusing reserved contexts. -/
  | vltSign (m : Nat)
  /-- VLT_VERIFY (R306): VERIFY checks an Ed448 signature. -/
  | vltVerify (m : Nat)
  /-- VLT_HASH (R315): HASH returns SHAKE256 output. -/
  | vltHash (m : Nat)
  /-- VLT_MAC (R306): MAC computes a GMAC or CMAC tag. -/
  | vltMac (m : Nat)
  /-- VLT_ENCRYPT (R316): ENCRYPT performs AES-GCM under the slot's nonce counter. -/
  | vltEncrypt (m : Nat)
  /-- VLT_DECRYPT (R316): DECRYPT performs AES-GCM decryption or returns TAG_FAIL. -/
  | vltDecrypt (m : Nat)
  /-- VLT_RANDOM (R315): RANDOM returns TRNG bytes. -/
  | vltRandom (m : Nat)
  /-- VLT_ATTEST (R319): ATTEST returns the signed attestation report. -/
  | vltAttest (m : Nat)
  /-- AUTH_NONCE (R303): AUTH_NONCE gives the master a fresh 16-byte nonce. -/
  | authNonce (m : Nat)
  /-- NONCE_EXPIRE (R303): An outstanding nonce expires 60 s after issue. -/
  | nonceExpire (m : Nat)
  /-- VLT_CLAIM (R300): CLAIM records the owner key on an unclaimed device. -/
  | vltClaim (m : Nat)
  /-- VLT_TRANSFER (R301): TRANSFER moves or releases ownership. -/
  | vltTransfer (m : Nat)
  /-- TAMPER_CLEAR (R324): An accepted TAMPER_CLEAR envelope clears latches and reopens the Vault. -/
  | tamperClear (m : Nat)
  /-- PAGE_UNLOCK (R304): A PAGE_UNLOCK envelope clears BLK_LOCK of the named page. -/
  | pageUnlock (m : Nat)
  /-- SET_COSIGN (R303): A SET_COSIGN envelope sets or clears COSIGN. -/
  | setCosign (m : Nat)
  /-- UPD_LOCK (R303): An UPD_LOCK envelope sets or clears the owner's update lock. -/
  | updLock (m : Nat)
  /-- WIPE (R303): A WIPE envelope deletes every general slot. -/
  | wipe (m : Nat)
  /-- REINIT (R323): A REINIT envelope leaves ZEROISED and generates a new identity. -/
  | reinit (m : Nat)
  /-- IMPORT (R311): An IMPORT envelope decrypts a key package into a companion. -/
  | importCmd (m : Nat)
  /-- VLT_AUTHORISE_DELEGATED (R302): An accepted envelope with a delegated ACTION is returned to the requester. -/
  | vltAuthoriseDelegated (m : Nat)
  /-- VAULT_OP_DONE (R315): A Vault operation completes and its result slot reads VALID. -/
  | vaultOpDone
  /-- ENGINE_KEY_LOAD (R312): An engine's key request is checked and loaded over the key path or refused. -/
  | engineKeyLoad (cau : Bool) (n : Nat)
  /-- ORPHAN_GRACE_EXPIRE (R310): An orphan's grace expires; it becomes REVOKED and orphans its children. -/
  | orphanGraceExpire (slot : Nat)
  /-- TAMPER_CLASS1 (R320): A glitch, optical or fault-check event is counted and the operation retried. -/
  | tamperClass1 (sensor : Nat)
  /-- TAMPER_CLASS2 (R320): A temperature alarm or glitch escalation locks the Vault. -/
  | tamperClass2
  /-- TAMPER_MESH (R323): A mesh breach while powered zeroises the Vault. -/
  | tamperMesh
  /-- COUNTER_RESERVE (R318): The counter writer appends a reservation record to MRAM, releasing held records and frames. -/
  | counterReserve
  /-- CAU_FV_RECORD (R340): Every 1 s changed CAU receive freshness values are recorded. -/
  | cauFvRecord
  /-- VAULT_STARTUP (R324): The Vault runs start-up stages S1–S3 and enters OPEN, LOCKED or ZEROISED. -/
  | vaultStartup (n : Nat) (identOk : Bool) (ownerOk : Bool := true) (bad : List Nat := [])
  /-- VAULT_S4 (R324): Firmware supplies slot records and the Vault unwraps them. -/
  | vaultS4 (bad : List Nat := [])
  /-- LCE_SA_APPLY (R329): APPLY installs an SA in LOADING and requests its key. -/
  | lceSaApply (m : Nat) (p : Nat)
  /-- LCE_SA_RETIRE (R330): RETIRE returns an SA to FREE. -/
  | lceSaRetire (m : Nat) (p : Nat)
  /-- LCE_SA_LOAD (R330): LOAD copies an SA and its PN into the master's words. -/
  | lceSaLoad (m : Nat) (p : Nat)
  /-- LCE_TX_AN_WRITE (R331): A write of LCE_TX_AN switches the transmit SA at the next frame. -/
  | lceTxAnWrite (m : Nat) (p : Nat) (v : Word)
  /-- CAU_APPLY (R339): APPLY installs a CAU entry and binds its key. -/
  | cauApply (m : Nat)
  /-- CAU_RETIRE (R339): RETIRE returns a CAU entry to FREE. -/
  | cauRetire (m : Nat)
  /-- CAU_LOAD (R339): LOAD copies a CAU entry and its FV into the master's words. -/
  | cauLoad (m : Nat)
  /-- HEARTBEAT_TIMER (R351): Every 250 µs a unit sends a HEARTBEAT and toggles HB_OUT. -/
  | heartbeatTimer
  /-- HEARTBEAT_RX (R352): A HEARTBEAT arrives; twin time, ARB state, GPIO_OUT and config match are updated. -/
  | heartbeatRx (prefer : Bool) (b : List Byte)
  /-- HB_EDGE (R351): A transition on HB_IN counts as a heartbeat arrival. -/
  | hbEdge
  /-- HB_MISSED (R351): A heartbeat period is missed; at the fourth the heartbeat is lost. -/
  | hbMissed
  /-- ARB_CLAIM_TIMER (R353): Every 50 µs the primary pulls ARB low for a claim pulse. -/
  | arbClaimTimer
  /-- ARB_CLAIM_SEEN (R353): A claim pulse is seen on ARB. -/
  | arbClaimSeen
  /-- ARB_PRESENCE_PULSE (R353): 25 µs after a claim the secondary sends its presence pulse. -/
  | arbPresencePulse
  /-- ARB_PRESENCE_SEEN (R353): A presence pulse is seen on ARB. -/
  | arbPresenceSeen
  /-- TAKEOVER (R356): 200 µs without a claim after heartbeat loss, a ready secondary takes over the twin outputs. -/
  | takeover
  /-- TWIN_START_WAIT (R354): 200 µs with no claim and no arrival in STARTING makes a preferred unit primary. -/
  | twinStartWait
  /-- TWIN_START_TIMEOUT (R354): START_WAIT expires in STARTING and a non-preferred unit isolates. -/
  | twinStartTimeout
  /-- DIGEST_SEND (R362): 200 µs after a window ends each unit sends its DIGEST. -/
  | digestSend
  /-- DIGEST_RX (R362): A partner DIGEST arrives and the secondary compares the previous window. -/
  | digestRx (b : List Byte)
  /-- DIVERGE_RX (R363): A received DIVERGE starts the path self-check. -/
  | divergeRx (b : List Byte)
  /-- SELFTEST_DONE (R363): The self-check completes and SELFTEST is sent. -/
  | selftestDone (vectors : Bool)
  /-- SELFTEST_RX (R363): The partner's SELFTEST result decides faulting or role swap. -/
  | selftestRx (b : List Byte)
  /-- SELFTEST_TIMEOUT (R363): A SELFTEST not received within 2 ms counts as failed. -/
  | selftestTimeout
  /-- ROLE_OFFER_RX (R365): A ready secondary accepts a ROLE_OFFER. -/
  | roleOfferRx (b : List Byte)
  /-- ROLE_ACCEPT_RX (R365): The primary records acceptance of its offer. -/
  | roleAcceptRx (b : List Byte)
  /-- ROLE_SWITCH (R365): At AT_WINDOW start roles rotate. -/
  | roleSwitch
  /-- ROTATE_TIMER (R365): ROTATE_H hours as primary, or a 1-minute retry, starts a rotation offer. -/
  | rotateTimer
  /-- TWIN_SYNC_REQ_RX (R364): A primary receiving SYNC_REQ captures and sends its dynamic state. -/
  | twinSyncReqRx (b : List Byte)
  /-- TWIN_SYNC_DATA_RX (R364): A joining secondary receives SYNC_DATA records. -/
  | twinSyncDataRx (b : List Byte)
  /-- TWIN_SYNC_END_RX (R364): SYNC_END applies the records or restarts the join. -/
  | twinSyncEndRx (b : List Byte)
  /-- ATTEST_REQ_RX (R371): A twin ATTEST_REQ is answered with an attestation report. -/
  | attestReqRx (b : List Byte)
  /-- ATTEST_REP_RX (R371): A partner's report is checked against the roster. -/
  | attestRepRx (b : List Byte)
  /-- ROTATE (R365): TWN_CMD.ROTATE starts a rotation. -/
  | rotate (m : Nat)
  /-- FORCE_PRIMARY (R354): TWN_CMD.FORCE_PRIMARY makes an isolated or starting unit primary. -/
  | forcePrimary (m : Nat)
  /-- YIELD (R365): TWN_CMD.YIELD hands the primary role over. -/
  | yield (m : Nat)
  /-- RESYNC (R354): TWN_CMD.RESYNC returns a faulted unit to JOINING. -/
  | resync (m : Nat)
  /-- TWIN_ENABLE (R354): A write of TWN_CFG.EN starts or stops twin operation. -/
  | twinEnable (m : Nat) (v : Word)
  /-- SHADOW_AGE_EXPIRE (R358): A shadow copy unmatched after SHADOW_AGE ms is dropped. -/
  | shadowAgeExpire (c : Nat)
  /-- CFG_DIGEST_RECOMPUTE (R368): Within 1 ms of a relevant change CFG_DIGEST is recomputed and recorded. -/
  | cfgDigestRecompute
  /-- ROSTER_CHECK (R373): Every PERIOD minutes checked nodes are asked for attestation reports. -/
  | rosterCheck
  /-- ROSTER_REPORT (R373): A node's report or its 1 s timeout sets the roster RESULT. -/
  | rosterReport (n : Nat) (rep : List Byte)
  /-- PWR_CMD_DORMANT (R395): AON_PWR_CMD TARGET 1 starts the sleep sequence toward DORMANT. -/
  | pwrCmdDormant (m : Nat)
  /-- PWR_CMD_SELECTIVE (R395): AON_PWR_CMD TARGET 2 starts the sleep sequence toward SELECTIVE. -/
  | pwrCmdSelective (m : Nat)
  /-- PWR_CMD_MGS_ONLY (R378): AON_PWR_CMD TARGET 3 moves to MGS_ONLY. -/
  | pwrCmdMgsOnly (m : Nat)
  /-- PWR_CMD_PARTIAL (R378): AON_PWR_CMD TARGET 4 moves to PARTIAL. -/
  | pwrCmdPartial (m : Nat)
  /-- PWR_CMD_FULL (R378): AON_PWR_CMD TARGET 5 moves to FULL. -/
  | pwrCmdFull (m : Nat)
  /-- TRANS_DONE (R378): A power transition reaches its target. -/
  | transDone
  /-- TRANS_ABORT (R379): A block not quiesced within 1 ms abandons the transition. -/
  | transAbort
  /-- MEMBER_SILENT (R395): A sleep-set member is silent for SILENCE ms. -/
  | memberSilent (k : Nat)
  /-- SLEEP_POINT (R396): Drain, snapshot and sleep record complete with no wake; the sequencer commits. -/
  | sleepPoint
  /-- SLEEP_FAIL (R395): PRE_MAX expires before silence and the sleep fails. -/
  | sleepFail
  /-- INH_RELEASE (R396): INH_DELAY after the Sleep Point INH is released. -/
  | inhRelease
  /-- SWITCHES_OPEN (R396): 0.1 ms after INH release the domain switches open and sleep or wake follows. -/
  | switchesOpen
  /-- WAKE_LATCH (R391): A wake detector fires and sets its latch, aborting a sleep or starting a wake. -/
  | wakeLatch (k : Nat) (n : Nat)
  /-- SW_FRAME_MATCH (R389): A selective-wake decoder matches a frame and latches its source. -/
  | swFrameMatch (c : Nat) (id : Nat) (ide : Bool) (rtr : Bool) (dlc : Nat) (data : List Byte) (n : Nat) (corr : Int)
  /-- SW_DECODE_ERROR (R390): A decoder frame error above ERR_LIMIT latches the source. -/
  | swDecodeError (c : Nat) (fd : Bool) (n : Nat)
  /-- AON_TIMER_EXPIRE (R391): The wake timer expires and latches source 45. -/
  | aonTimerExpire (n : Nat)
  /-- MIN_OFF_END (R394): MIN_OFF after INH release ends and a pending wake asserts INH. -/
  | minOffEnd
  /-- POWER_GOOD (R451): Every present supply reaches power-good and start-up begins. -/
  | powerGood (ddr : Bool := true)
  /-- PG_TIMEOUT (R394): Supplies miss power-good within PG_TIMEOUT; PG_FAIL counts. -/
  | pgTimeout
  /-- XINA_STABLE (R380): XIN_A passes 65,536 cycles; PLLs lock and the FRC starts or resumes. -/
  | xinaStable (n : Nat)
  /-- XINA_START_TIMEOUT (R380): XIN_A not stable within 10 ms raises XINA_FAIL and retries. -/
  | xinaStartTimeout
  /-- XINA_LOST (R381): No XIN_A edge in 96 HFRC cycles stops the PLLs and holds the domains in reset. -/
  | xinaLost
  /-- XINA_RETRY (R381): Every 100 ms the CRU retries XIN_A, running a warm reset on success. -/
  | xinaRetry (ok : Bool) (n : Nat)
  /-- XINB_STABLE (R382): XIN_B passes 16,384 cycles and becomes the sleep clock. -/
  | xinbStable
  /-- PLL_UNLOCK (R384): A PLL loses lock and relocks; its users react. -/
  | pllUnlock (k : Nat)
  /-- PLL_LOCKED (R384): A PLL locks after its domain's power-up. -/
  | pllLocked (k : Nat)
  /-- GATE (R385): CRU_GATE_CTRL.GATE requests or withdraws a page's clock gate. -/
  | gate (m : Nat) (v : Word)
  /-- GATE_CLOSE (R385): Two cycles after QUIESCED the gate closes. -/
  | gateClose (pg : Nat)
  /-- FALSE_WAKE_WINDOW (R393): A latched source unconfirmed within WIN counts a false wake and may be disarmed. -/
  | falseWakeWindow (k : Nat)
  /-- WAKE_COMPLETE (R398): The wake target is reached; WAKE and TRANS_DONE are raised. -/
  | wakeComplete
  /-- CHECKPOINT_RESTORE (R400): The restore engine copies and verifies a checkpoint part, enabling it or taking the cold path. -/
  | checkpointRestore (rest : Bool) (ok : Bool)
  /-- POWER_ON_RESET (R403): VDD_AON rises or falls below threshold; everything resets and the FRC is 0. -/
  | powerOnReset
  /-- BROWNOUT (R403): A main supply leaves power-good while INH is high; all but AON reset. -/
  | brownout (ddr : Bool := false)
  /-- RESET_N (R403): RESET_N low for 1 µs starts a warm reset. -/
  | resetN
  /-- WARM (R403): CRU_RST_CMD.WARM by master 3 starts a warm reset. -/
  | warm (m : Nat)
  /-- BOOT_VERIFY_DONE (R399): The boot ROM verifies the firmware bank and firmware starts the restore. -/
  | bootVerifyDone
  /-- RESTORE_COMPLETE (R415): The journal restore completes and forwarding is enabled. -/
  | restoreComplete (bad : Option Nat := none)
  /-- LOCKSTEP_MISMATCH (R405): A lockstep mismatch or SRAM error restarts the management subsystem. -/
  | lockstepMismatch
  /-- WATCHDOG_EXPIRE (R405): The management watchdog expires and restarts the subsystem. -/
  | watchdogExpire
  /-- MGS_RESTART_DONE (R406): Firmware serves the mailbox again after a restart. -/
  | mgsRestartDone
  /-- INFO (R408): Mailbox INFO returns version, bank, uptime and boot count. -/
  | infoCmd (m : Nat)
  /-- JOURNAL_SAVE (R412): JOURNAL_SAVE records the configuration of a page range. -/
  | journalSave (m : Nat)
  /-- JOURNAL_SYNC (R412): JOURNAL_SYNC completes when every earlier commit is journalled. -/
  | journalSync (m : Nat)
  /-- AUTHORISE (R409): Mailbox AUTHORISE submits a window-bound envelope and performs its delegated action. -/
  | authorise (m : Nat)
  /-- UNBOR_UNLOCK (R429): A delegated UNBOR_UNLOCK grants the monitor a level for MINUTES. -/
  | unborUnlock (m : Nat)
  /-- HEAD_ENROL (R409): A delegated HEAD_ENROL performs HAD ENROL. -/
  | headEnrol (m : Nat)
  /-- HEAD_RETIRE (R409): A delegated HEAD_RETIRE performs HAD RETIRE. -/
  | headRetire (m : Nat)
  /-- ROSTER_ADD (R372): A delegated ROSTER_ADD adds a Reach roster entry. -/
  | rosterAdd (m : Nat)
  /-- ROSTER_REMOVE (R372): A delegated ROSTER_REMOVE removes a roster entry. -/
  | rosterRemove (m : Nat)
  /-- ROSTER_REPLACE (R372): A delegated ROSTER_REPLACE accepts a replacement node digest. -/
  | rosterReplace (m : Nat)
  /-- LOG_CHECKPOINT (R418): LOG_CHECKPOINT returns checkpoint k. -/
  | logCheckpoint (m : Nat)
  /-- LOG_FLUSH (R416): LOG_FLUSH writes pending log records. -/
  | logFlush (m : Nat)
  /-- SEC_ACK (R419): SEC_ACK marks security records exported. -/
  | secAck (m : Nat)
  /-- RESTART (R405): Mailbox RESTART restarts the management subsystem. -/
  | restart (m : Nat)
  /-- MARGIN_RUN (R425): MARGIN_RUN starts a planner run. -/
  | marginRun (m : Nat)
  /-- SET_IDS (R408): SET_IDS journals the PCIe subsystem IDs. -/
  | setIds (m : Nat)
  /-- UNBOR_LOCK (R429): UNBOR_LOCK locks the monitor and clears its write bits. -/
  | unborLock (m : Nat)
  /-- JOURNAL_COMMIT_RECORD (R412): A completed TAP commit is journalled within 10 ms. -/
  | journalCommitRecord (remap : List Nat := [])
  /-- JOURNAL_COMPACT (R414): A full journal half is compacted into the other half and halves switch. -/
  | journalCompact
  /-- EVENT_LOG_WRITE (R416): An event log record is written to its ring and chained. -/
  | eventLogWrite (remap : List Nat := [])
  /-- SUPPRESSED (R416): In the next second one SUPPRESSED record summarises rate-limited records. -/
  | suppressed
  /-- SENSOR_SAMPLE (R420): Every 1 ms sensors are sampled and alarms raised or cleared. -/
  | sensorSample (vals : List Nat)
  /-- BEGIN (R422): UPD BEGIN checks an image header and opens a session. -/
  | begin (m : Nat)
  /-- UPD_WRITE (R421): UPD WRITE copies a chunk into the inactive bank. -/
  | updWrite (m : Nat)
  /-- FINISH (R422): UPD FINISH checks the digest and signatures. -/
  | finish (m : Nat)
  /-- ACTIVATE (R424): UPD ACTIVATE flushes, syncs and restarts from the other bank into trial. -/
  | activate (m : Nat)
  /-- CONFIRM (R424): UPD CONFIRM ends the trial and raises the rollback floor. -/
  | confirm (m : Nat)
  /-- ABORT (R421): UPD ABORT abandons the session. -/
  | abort (m : Nat)
  /-- UPD_TRIAL_EXPIRE (R424): TRIAL × 10 s without CONFIRM falls back to the old bank. -/
  | updTrialExpire
  /-- MARGIN_PERIOD (R425): Every PERIOD_H hours or at wake the planner runs. -/
  | marginPeriod
  /-- MARGIN_RUN_DONE (R426): A planner run completes, setting guard band, AVS target, MRAM pulse and forecast. -/
  | marginRunDone (taps : List Nat) (rx : List Nat) (age : List Nat) (replica : List Nat) (sram : Nat) (eye : List Nat) (wear : List Nat) (loss : Nat) (vmin : Nat) (short : Bool) (pulse : Nat := 0) (months : Nat := 0)
  /-- AVS_STEP (R426): Every 100 µs the AVS target moves 1 mV through AVSBus. -/
  | avsStep
  /-- UNBOR_HELP (R429): The monitor's help command lists commands. -/
  | unborHelp
  /-- UNBOR_INFO (R429): The monitor's info command prints identity and lock state. -/
  | unborInfo
  /-- UNLOCK (R429): The monitor's unlock command unlocks with an envelope or, on E2, without. -/
  | unlock (env : List Byte)
  /-- LOCK (R429): The monitor's lock command relocks it. -/
  | lock
  /-- RD (R429): The monitor's rd command reads words as master 4. -/
  | rd (a : Nat) (n : Option Nat)
  /-- WR (R429): The monitor's wr command writes a word as master 4. -/
  | wr (a : Nat) (v : Word)
  /-- LOG (R429): The monitor's log command prints the newest records. -/
  | log (n : Option Nat)
  /-- SENS (R429): The monitor's sens command prints sensor values. -/
  | sens
  /-- FENCE (R429): The monitor's fence command fences as master 4. -/
  | fence
  /-- UNBOR_EXPIRE (R429): MINUTES elapse and the monitor relocks. -/
  | unborExpire
  /-- PFC_CNT_WRITE (R430): A write to a stopped performance counter presets it. -/
  | pfcCntWrite (m : Nat) (k : Nat) (hi : Bool) (v : Word)
  /-- SVC_WRITE (R440): SVC WRITE stages image bytes into a stopped partition's window. -/
  | svcWrite (m : Nat) (n : Nat)
  /-- SVC_LOAD (R440): SVC LOAD checks an image and starts copying it. -/
  | svcLoad (m : Nat) (n : Nat) (stored : Bool) (k : Nat)
  /-- SVC_LOAD_DONE (R440): The image is copied and the partition's cores are released. -/
  | svcLoadDone (n : Nat)
  /-- SVC_STOP (R442): SVC STOP quiesces and stops a partition. -/
  | svcStop (m : Nat) (n : Nat)
  /-- SVC_RESTART (R442): SVC RESTART reloads and restarts a partition. -/
  | svcRestart (m : Nat) (n : Nat)
  /-- SVC_WDT_EXPIRE (R442): A core watchdog or memory error restarts its partition. -/
  | svcWdtExpire (n : Nat) (memory : Bool)
  /-- SVC_WDT_SERVICE (R442): A core write to its watchdog address services it. -/
  | svcWdtService (c : Nat)
  /-- SVC_AUTOSTART (R441): At SVC domain power-up every AUTOSTART image loads in index order. -/
  | svcAutostart
  /-- SVC_CLAIM_READ (R437): A core's read of SVC_CLAIM grants a free resource to its partition. -/
  | svcClaimRead (c : Nat) (r : Nat)
  /-- SVC_CLAIM_RELEASE (R437): The owner writes 1 to release a claimed resource. -/
  | svcClaimRelease (c : Nat) (r : Nat)
  /-- DDR_READY (R446): LPDDR4X training completes and DDR_READY sets. -/
  | ddrReady (ok : Bool)
  /-- GPIO_EDGE (R469): A filtered enabled edge on a GPIO line sets GPI_EDGE. -/
  | gpioEdge (n : Nat) (level : Bool)
  /-- GPI_OUT_WRITE (R470): A write to GPI_OUT drives lines, ignoring twin-controlled bits on a secondary. -/
  | gpiOutWrite (m : Nat) (v : Word)
  /-- SLEEP_LATCH (R321): While the device is in DORMANT or SELECTIVE, an armed temperature or mesh sensor fires and latches in the always-on domain, so the Vault wakes LOCKED with cause SLEEP_LATCH. -/
  | sleepLatch (mesh : Bool)
  /-- SW_FRAME_DECODED (R390): A selective-wake decoder in SELECTIVE completes a CAN frame that does not match, adjusting AON_SW_ERR up or down and, for a good frame, stepping the HFRC trim toward the CAN-edge correction. -/
  | swFrameDecoded (c : Nat) (corr : Int)
  /-- SD_COLLISION (R198): A collision on a 10BASE-T1S segment aborts a transmission, is counted in EPT_COLL, and after the 16th the frame is dropped and counted in EPT_COLL_DROP. -/
  | sdCollision (p : Nat)
  /-- FOLLOW_UP_TIMEOUT (R286): A two-step Sync whose Follow_Up has not arrived within 2^LOG_SYNC s is dropped and counted in TIM_SYNC_DROP. -/
  | followUpTimeout (d : Nat)
deriving DecidableEq, Repr

end Sys2Proof
end

