-- ==== Sys2Proof/Config.lean ====
section
/-! DEFINITION. What the spec leaves to the part or to standards outside it: constants without a body. Nothing can be proved
about their values, so a claim holds whatever they are. -/

namespace Sys2Proof.Config

/-- GLB_SKU.GRADE of this part: the spec gives two grades (R4) and the reset value is the part's. [DESIGN CHOICE, log entry 3] -/
opaque skuE2 : Bool
/-- GLB_SKU.UNBOR_OFF of this part (R428). [DESIGN CHOICE, log entry 3] -/
opaque unborOff : Bool
/-- BLK_CAP0 and BLK_CAP1 of a page: Table 2-3 names the words and gives no values. [DESIGN CHOICE, log entry 3] -/
opaque blkCap : Nat → Word
/-- The `n`-th draw of `len` bytes of the Vault's TRNG (R296, R303, R315). [DESIGN CHOICE, log entry 4] -/
opaque trng : Nat → Nat → List Byte
/-- U, the 512-bit response of the SRAM PUF after error correction by the helper data (R297). [DESIGN CHOICE, log entry 3] -/
opaque puf : List Byte
/-- The PUF helper data enrolled with the `n`-th draw of the TRNG (R297): its form is the part's. [DESIGN CHOICE, log entry 3] -/
opaque pufHelper : Nat → List Byte
/-- SHAKE256 with the output length in bytes (FIPS 202). [DESIGN CHOICE, log entry 4] -/
opaque shake256 : List Byte → Nat → List Byte
/-- Ed448 public key of a secret (RFC 8032). -/
opaque ed448Pub : List Byte → List Byte
/-- Ed448 signature by a secret, with context, over a message. [DESIGN CHOICE, log entry 4] -/
opaque ed448Sign : List Byte → List Byte → List Byte → List Byte
/-- Ed448 verification: public key, context, message, signature. [DESIGN CHOICE, log entry 4] -/
opaque ed448Verify : List Byte → List Byte → List Byte → List Byte → Bool
/-- X448 public key of a secret (RFC 7748). -/
opaque x448Pub : List Byte → List Byte
/-- X448 shared value of a secret and a peer's public key. -/
opaque x448 : List Byte → List Byte → List Byte
/-- AES-CMAC (RFC 4493) under a key. [DESIGN CHOICE, log entry 4] -/
opaque aesCmac : List Byte → List Byte → List Byte
/-- The AES-GCM key stream applied to a text: key, IV, text. [DESIGN CHOICE, log entry 4] -/
opaque aesGctr : List Byte → List Byte → List Byte → List Byte
/-- The AES-GCM tag: key, IV, additional data, ciphertext. [DESIGN CHOICE, log entry 4] -/
opaque aesGcmTag : List Byte → List Byte → List Byte → List Byte → List Byte
/-- Tarnu's firmware public key, which the boot ROM holds in slot 3 (Table 11-1). [DESIGN CHOICE, log entry 3] -/
opaque tarnuKey : List Byte
/-- The value that an open point of the spec takes at its `n`-th use: nothing constrains it. [DESIGN CHOICE, log entry 5] -/
opaque freeValue : Nat → BitVec 64

/-- The FORMAT that a management firmware version reads and writes for a KIND of journal record (R413): each version declares its own.
[DESIGN CHOICE, log entry 97] [DEDUCED, log entry 97] -/
opaque journalFormat : Nat → Nat → BitVec 16

/-- EPT_SQI of a port at an FRC instant: the signal quality its PHY measures. [DESIGN CHOICE, log entry 3] -/
opaque sqi : Nat → Nat → Nat

end Sys2Proof.Config
end

