-- ==== Sys2Proof/Machine/Bits.lean ====
section
/-! DEFINITION. Bit fields, sign extension, byte order, saturation and the CRC-32C of R67: the small arithmetic every
block uses. -/

namespace Sys2Proof.Machine

/-- Field `[lo + len - 1 : lo]` of a word, as a number. -/
def fld {n : Nat} (w : BitVec n) (lo len : Nat) : Nat := (w.toNat >>> lo) % 2 ^ len

/-- Field `[lo + len - 1 : lo]` of a number. -/
def fldN (v lo len : Nat) : Nat := (v >>> lo) % 2 ^ len

/-- Bit `i` of a word. -/
def bit {n : Nat} (w : BitVec n) (i : Nat) : Bool := w.getLsbD i

/-- The word with field `[lo + len - 1 : lo]` replaced by `v mod 2^len`. -/
def setFld {n : Nat} (w : BitVec n) (lo len v : Nat) : BitVec n :=
  BitVec.ofNat n (w.toNat - fld w lo len * 2 ^ lo + (v % 2 ^ len) * 2 ^ lo)

/-- A truth value as a bit. -/
def b2n (b : Bool) : Nat := if b then 1 else 0

/-- A word from a number. -/
def wd (v : Nat) : Word := BitVec.ofNat 32 v

/-- A signed reading of the low `n` bits of a number. -/
def sext (n v : Nat) : Int :=
  if v % 2 ^ n < 2 ^ (n - 1) then (v % 2 ^ n : Nat) else ((v % 2 ^ n : Nat) : Int) - (2 ^ n : Nat)

/-- The low `n` bits of an integer, two's complement. -/
def unsext (n : Nat) (i : Int) : Nat := (i % ((2 ^ n : Nat) : Int)).toNat

/-- The magnitude of an integer. -/
def absI (i : Int) : Int := (i.natAbs : Nat)

/-- An integer limited to `lo .. hi`. -/
def clampI (lo hi i : Int) : Int := if i < lo then lo else if hi < i then hi else i

/-- A number limited to `lo .. hi`. -/
def clampN (lo hi v : Nat) : Nat := if v < lo then lo else if hi < v then hi else v

/-- Number of ones of a mask. -/
def popcount (v : Nat) : Nat → Nat
  | 0 => 0
  | k + 1 => popcount v k + b2n (v.testBit k)

/-- The indices below `n` whose bit is set, ascending. -/
def onesOf (v n : Nat) : List Nat := (List.range n).filter (fun i => v.testBit i)

/-- Bytes to a number, most significant byte first (R13). -/
def ofBE (l : List Byte) : Nat := l.foldl (fun a b => a * 256 + b.toNat) 0

/-- Bytes to a number, least significant byte first. -/
def ofLE (l : List Byte) : Nat := l.foldr (fun b a => a * 256 + b.toNat) 0

/-- `n` bytes of a number, most significant first (R13). -/
def toBE : Nat → Nat → List Byte
  | 0, _ => []
  | n + 1, v => BitVec.ofNat 8 (v >>> (8 * n)) :: toBE n v

/-- `n` bytes of a number, least significant first. -/
def toLE : Nat → Nat → List Byte
  | 0, _ => []
  | n + 1, v => BitVec.ofNat 8 v :: toLE n (v >>> 8)

/-- `len` bytes of a list from `off`, none when they do not lie wholly inside it. -/
def slice (l : List Byte) (off len : Nat) : Option (List Byte) :=
  if off + len ≤ l.length then some ((l.drop off).take len) else none

/-- A big-endian field of a list; 0 where absent. -/
def beAt (l : List Byte) (off len : Nat) : Nat := ofBE ((l.drop off).take len)

/-- A list cut or padded with zero bytes to `n`. -/
def fit (n : Nat) (l : List Byte) : List Byte := (List.range n).map (fun i => l.getD i 0)

/-- The first 32-bit words of a byte list, byte 4k in [7:0], `n` of them. -/
def wordsOf : Nat → List Byte → List Word
  | 0, _ => []
  | n + 1, l => wd (ofLE (l.take 4)) :: wordsOf n (l.drop 4)

/-- One bit step of CRC-32C. -/
def crcStep (c : Nat) : Nat := if c % 2 = 1 then (c >>> 1) ^^^ 0x82F63B78 else c >>> 1

/-- One byte step of CRC-32C. -/
def crcByte (c b : Nat) : Nat :=
  let c := c ^^^ b
  crcStep (crcStep (crcStep (crcStep (crcStep (crcStep (crcStep (crcStep c)))))))

/-- CRC-32C of R67, no final inversion. -/
def crc32c (seed : Nat) (l : List Byte) : Nat := l.foldl (fun c b => crcByte c b.toNat) seed

/-- One bit step of the Ethernet CRC-32. -/
def fcsStep (c : Nat) : Nat := if c % 2 = 1 then (c >>> 1) ^^^ 0xEDB88320 else c >>> 1

/-- One byte step of the Ethernet CRC-32. -/
def fcsByte (c b : Nat) : Nat :=
  let c := c ^^^ b
  fcsStep (fcsStep (fcsStep (fcsStep (fcsStep (fcsStep (fcsStep (fcsStep c)))))))

/-- The FCS of a frame (IEEE 802.3), in the order sent. -/
def ethFcs (l : List Byte) : List Byte := toLE 4 (0xFFFFFFFF ^^^ l.foldl (fun c b => fcsByte c b.toNat) 0xFFFFFFFF)

/-- Replace element `i` of a list, if it exists. -/
def setAt {α : Type} (l : List α) (i : Nat) (v : α) : List α := l.set i v

/-- Sum of a list of numbers. -/
def sumN (l : List Nat) : Nat := l.foldl (· + ·) 0

/-- The least number of a list of numbers, if any. -/
def minN : List Nat → Option Nat
  | [] => none
  | a :: t => match minN t with | none => some a | some b => some (if b < a then b else a)

end Sys2Proof.Machine
end

