-- ==== Sys2Proof/Machine/RegMap.lean ====
section
/-! DEFINITION. The register pages of Table 2-1 and the register map of every block: each register's offset, access
code, reset value, writable bits and limits, as the register-map and field tables of the spec's chapters give them. -/

namespace Sys2Proof.Machine

/-- The blocks of Table 2-1 (R25). -/
inductive Blk where
  | glb | cru | aon | tap | pfc | twn | hif | gpi | icl | ict | srt | adt | lrn | bsn | rak | edy | egs | wei | slu | bud | had | fgd | fre | ept | can | lin | cfl | tim | dom | srv | vlt | cau | lce | mgs | evl | upd | mgn | svc
deriving DecidableEq, Repr

/-- Access codes of Table 0-8 (R12). `evt` is an event counter word (Table 2-11): read COUNT and SAT, write CLR. `stat` is
the low word of a 64-bit statistics counter, `pair` the low word of a 64-bit value that is no counter. -/
inductive Acc where
  | ro | rw | wo | w1c | rv | rwl | evt | stat | pair
deriving DecidableEq, Repr

/-- A field that stores the nearer limit when it is written outside its range. -/
structure Limit where
  lsb : Nat
  len : Nat
  lo : Int
  hi : Int
  signed : Bool := false
deriving DecidableEq, Repr

/-- One register (or array of registers) of a page. `sel` names the banked selector of R476, if the register shows one item. -/
structure RegDesc where
  off : Nat
  count : Nat
  stride : Nat
  acc : Acc
  reset : Nat
  wmask : Nat
  banked : Bool
  limits : List Limit
  sel : Option (Nat × Nat)
deriving DecidableEq, Repr

/-- One row of Table 2-1: the block, its first page's base, how many pages it has, its type, and its first roll-up bit. -/
structure PageRow where
  blk : Blk
  base : Nat
  count : Nat
  type : Nat
  sum : Nat
deriving DecidableEq, Repr

/-- Table 2-1. LCE pages 16-18 of the list stand for ports 20-22 (`lcePort`). -/
def pageRow : Blk → PageRow
  | .glb => ⟨.glb, 0x0, 1, 0x1, 0⟩
  | .cru => ⟨.cru, 0x1000, 1, 0x2, 1⟩
  | .aon => ⟨.aon, 0x2000, 1, 0x3, 2⟩
  | .tap => ⟨.tap, 0x3000, 1, 0x4, 3⟩
  | .pfc => ⟨.pfc, 0x4000, 1, 0x5, 4⟩
  | .twn => ⟨.twn, 0x5000, 1, 0x6, 5⟩
  | .hif => ⟨.hif, 0x6000, 1, 0x7, 6⟩
  | .gpi => ⟨.gpi, 0x7000, 1, 0x8, 7⟩
  | .icl => ⟨.icl, 0x10000, 1, 0x10, 8⟩
  | .ict => ⟨.ict, 0x11000, 1, 0x11, 9⟩
  | .srt => ⟨.srt, 0x12000, 1, 0x12, 10⟩
  | .adt => ⟨.adt, 0x13000, 1, 0x13, 11⟩
  | .lrn => ⟨.lrn, 0x14000, 1, 0x14, 12⟩
  | .bsn => ⟨.bsn, 0x20000, 1, 0x20, 13⟩
  | .rak => ⟨.rak, 0x21000, 1, 0x21, 14⟩
  | .edy => ⟨.edy, 0x22000, 1, 0x22, 15⟩
  | .egs => ⟨.egs, 0x30000, 26, 0x30, 32⟩
  | .wei => ⟨.wei, 0x50000, 1, 0x40, 16⟩
  | .slu => ⟨.slu, 0x51000, 22, 0x41, 32⟩
  | .bud => ⟨.bud, 0x68000, 1, 0x60, 17⟩
  | .had => ⟨.had, 0x70000, 1, 0x70, 18⟩
  | .fgd => ⟨.fgd, 0x71000, 1, 0x71, 19⟩
  | .fre => ⟨.fre, 0x72000, 1, 0x72, 20⟩
  | .ept => ⟨.ept, 0x80000, 23, 0x80, 64⟩
  | .can => ⟨.can, 0x98000, 24, 0x90, 96⟩
  | .lin => ⟨.lin, 0xB8000, 8, 0xA0, 120⟩
  | .cfl => ⟨.cfl, 0xB0000, 1, 0xB0, 21⟩
  | .tim => ⟨.tim, 0xC0000, 1, 0xC0, 22⟩
  | .dom => ⟨.dom, 0xC1000, 4, 0xC1, 22⟩
  | .srv => ⟨.srv, 0xC8000, 1, 0x0, 22⟩
  | .vlt => ⟨.vlt, 0xD0000, 1, 0xD0, 23⟩
  | .cau => ⟨.cau, 0xD2000, 1, 0xD2, 24⟩
  | .lce => ⟨.lce, 0xE0000, 19, 0xE0, 64⟩
  | .mgs => ⟨.mgs, 0xF0000, 1, 0xF0, 25⟩
  | .evl => ⟨.evl, 0xF1000, 1, 0xF1, 26⟩
  | .upd => ⟨.upd, 0xF2000, 1, 0xF2, 27⟩
  | .mgn => ⟨.mgn, 0xF3000, 1, 0xF3, 28⟩
  | .svc => ⟨.svc, 0x100000, 1, 0x100, 29⟩

/-- Every block, in the order of Table 2-1. -/
def allBlks : List Blk :=
  [.glb, .cru, .aon, .tap, .pfc, .twn, .hif, .gpi, .icl, .ict, .srt, .adt, .lrn, .bsn, .rak, .edy, .egs, .wei, .slu, .bud, .had, .fgd, .fre, .ept, .can, .lin, .cfl, .tim, .dom, .srv, .vlt, .cau, .lce, .mgs, .evl, .upd, .mgn, .svc]

/-- The instance number of the k-th page of a block: LCE pages exist for ports 0-15 and 20-22 only. -/
def instOf (b : Blk) (k : Nat) : Nat :=
  if b = .lce ∧ 16 ≤ k then k + 4 else k

/-- The page base of an instance. -/
def pageBase (b : Blk) (inst : Nat) : Nat := (pageRow b).base + 0x1000 * inst

/-- The block and instance whose page has this page number (R25), by the formulas of Table 2-1. -/
def pageOf (pg : Nat) : Option (Blk × Nat) :=
  if pg < 0x8 then
    [Blk.glb, .cru, .aon, .tap, .pfc, .twn, .hif, .gpi][pg]?.map (·, 0)
  else if 0x10 ≤ pg ∧ pg < 0x15 then
    [Blk.icl, .ict, .srt, .adt, .lrn][pg - 0x10]?.map (·, 0)
  else if 0x20 ≤ pg ∧ pg < 0x23 then
    [Blk.bsn, .rak, .edy][pg - 0x20]?.map (·, 0)
  else if 0x30 ≤ pg ∧ pg < 0x4A then some (.egs, pg - 0x30)
  else if pg = 0x50 then some (.wei, 0)
  else if 0x51 ≤ pg ∧ pg < 0x67 then some (.slu, pg - 0x51)
  else if pg = 0x68 then some (.bud, 0)
  else if pg = 0x70 then some (.had, 0)
  else if pg = 0x71 then some (.fgd, 0)
  else if pg = 0x72 then some (.fre, 0)
  else if 0x80 ≤ pg ∧ pg < 0x97 then some (.ept, pg - 0x80)
  else if 0x98 ≤ pg ∧ pg < 0xB0 then some (.can, pg - 0x98)
  else if pg = 0xB0 then some (.cfl, 0)
  else if 0xB8 ≤ pg ∧ pg < 0xC0 then some (.lin, pg - 0xB8)
  else if pg = 0xC0 then some (.tim, 0)
  else if 0xC1 ≤ pg ∧ pg < 0xC5 then some (.dom, pg - 0xC1)
  else if pg = 0xC8 then some (.srv, 0)
  else if pg = 0xD0 then some (.vlt, 0)
  else if pg = 0xD2 then some (.cau, 0)
  else if 0xE0 ≤ pg ∧ pg < 0xF0 then some (.lce, pg - 0xE0)
  else if pg = 0xF0 then some (.mgs, 0)
  else if pg = 0xF1 then some (.evl, 0)
  else if pg = 0xF2 then some (.upd, 0)
  else if pg = 0xF3 then some (.mgn, 0)
  else if 0xF4 ≤ pg ∧ pg < 0xF7 then some (.lce, pg - 0xE0)
  else if pg = 0x100 then some (.svc, 0)
  else none

/-- The roll-up bit 32 * w + b of a page (Table 2-1). -/
def sumBit (b : Blk) (inst : Nat) : Nat :=
  match b with
  | .dom => 22
  | _ => (pageRow b).sum + inst

/-- The INT_RAW bits a page implements: its own (the owning chapter's list) and, of the common bits of R30, CMD_REJECT on a
page with a result slot or counters, SNAP_DONE on a page with counters, and ERR (log entry 8). [DEDUCED, log entry 8] -/
def intMask : Blk → Nat
  | .glb => 0xE000003F
  | .cru => 0xE000003F
  | .aon => 0xE00001FF
  | .tap => 0xE0000000
  | .pfc => 0xE00000FF
  | .twn => 0xE0000FFF
  | .hif => 0xE000003F
  | .gpi => 0xE0000003
  | .icl => 0xE0000003
  | .ict => 0xE0000001
  | .srt => 0xE000001F
  | .adt => 0xE0000003
  | .lrn => 0xE000003F
  | .bsn => 0xE00000FF
  | .rak => 0xE000000F
  | .edy => 0xE00000FF
  | .egs => 0xE000000F
  | .wei => 0xE0000007
  | .slu => 0xE000000F
  | .bud => 0xE0000007
  | .had => 0xE00003FF
  | .fgd => 0xE000007F
  | .fre => 0xE0000007
  | .ept => 0xE00000FF
  | .can => 0xE0001FFF
  | .lin => 0xE000007F
  | .cfl => 0xE00000FF
  | .tim => 0xE000001F
  | .dom => 0xE00000FF
  | .srv => 0
  | .vlt => 0xE00000FF
  | .cau => 0xE000003F
  | .lce => 0xE000007F
  | .mgs => 0xE000003F
  | .evl => 0xE000000F
  | .upd => 0xE000000F
  | .mgn => 0xE0000007
  | .svc => 0xE000001F

/-- The event counter of refused commands and the other words of the common header (Table 2-3). -/
def hdrRegs : List RegDesc :=
  [ ⟨0x010, 1, 0, .rw, 0, 0x7, false, [], none⟩, ⟨0x018, 1, 0, .w1c, 0, 0xFFFFFFFF, false, [], none⟩,
    ⟨0x01C, 1, 0, .rw, 0, 0xFFFFFFFF, false, [], none⟩, ⟨0x024, 1, 0, .wo, 0, 0, false, [], none⟩,
    ⟨0x030, 1, 0, .w1c, 0, 0x80000000, false, [], none⟩, ⟨0x058, 1, 0, .evt, 0, 0, false, [], none⟩ ]

/-- Register map of GLB. -/
def glbRegs : List RegDesc :=
  [ ⟨0x80, 1, 0x0, .ro, 0x7420B01, 0x0, false, [], none⟩,  -- GLB_CHIP_ID
    ⟨0x84, 1, 0x0, .ro, 0x0, 0x0, false, [], none⟩,  -- GLB_SKU
    ⟨0xC0, 1, 0x0, .wo, 0x0, 0xFFFFFFFF, true, [], none⟩,  -- GLB_FENCE_REQ
    ⟨0xC4, 1, 0x0, .ro, 0x0, 0x0, true, [], none⟩,  -- GLB_FENCE_TICKET
    ⟨0xC8, 1, 0x0, .ro, 0x0, 0x0, true, [], none⟩,  -- GLB_FENCE_DONE
    ⟨0xCC, 1, 0x0, .rw, 0x0, 0x1FFFFFFF, true, [], none⟩,  -- GLB_FENCE_WAIT
    ⟨0x100, 1, 0x0, .rw, 0x0, 0x3FFF, false, [], none⟩,  -- GLB_PERM_SEL
    ⟨0x104, 1, 0x0, .rw, 0x8, 0x1F, false, [], none⟩,  -- GLB_PERM_DATA
    ⟨0x108, 1, 0x0, .ro, 0x0, 0x0, false, [], none⟩,  -- GLB_ACC_CAP0
    ⟨0x10C, 1, 0x0, .ro, 0x0, 0x0, false, [], none⟩,  -- GLB_ACC_CAP1
    ⟨0x110, 1, 0x0, .evt, 0x0, 0x0, false, [], none⟩,  -- GLB_ACC_VIOL_CNT
    ⟨0x200, 4, 0x4, .ro, 0x0, 0x0, false, [], none⟩,  -- GLB_INT_SUM
    ⟨0x400, 128, 0x4, .rw, 0x2, 0x3FF, false, [], none⟩ ]  -- GLB_INT_ROUTE

/-- Register map of CRU. -/
def cruRegs : List RegDesc :=
  [ ⟨0x80, 1, 0x0, .ro, 0x0, 0x0, false, [], none⟩,  -- CRU_CLK_STAT
    ⟨0x84, 1, 0x0, .rwl, 0x200, 0x33FF, false, [], none⟩,  -- CRU_HFRC_TRIM
    ⟨0x88, 1, 0x0, .rw, 0x0, 0x3FFF, false, [], none⟩,  -- CRU_GATE_SEL
    ⟨0x8C, 1, 0x0, .rw, 0x4, 0x1, false, [], none⟩,  -- CRU_GATE_CTRL
    ⟨0x90, 1, 0x0, .wo, 0x0, 0x1, false, [], none⟩,  -- CRU_RST_CMD
    ⟨0x94, 1, 0x0, .w1c, 0x0, 0x3F, false, [], none⟩,  -- CRU_RST_CAUSE
    ⟨0x98, 1, 0x0, .ro, 0x0, 0x0, false, [], none⟩,  -- CRU_TRANS_CAP
    ⟨0xA0, 1, 0x0, .evt, 0x0, 0x0, false, [], none⟩,  -- CRU_GATE_DEFER
    ⟨0xA4, 1, 0x0, .evt, 0x0, 0x0, false, [], none⟩,  -- CRU_GATE_REJ
    ⟨0xA8, 1, 0x0, .evt, 0x0, 0x0, false, [], none⟩,  -- CRU_PLL_UNLOCK
    ⟨0xAC, 1, 0x0, .evt, 0x0, 0x0, false, [], none⟩,  -- CRU_XINA_FAIL
    ⟨0xB0, 1, 0x0, .evt, 0x0, 0x0, false, [], none⟩ ]  -- CRU_TRIM_LIMIT

/-- Register map of AON. -/
def aonRegs : List RegDesc :=
  [ ⟨0x80, 1, 0x0, .ro, 0x0, 0x0, false, [], none⟩,  -- AON_PWR_STAT
    ⟨0x84, 1, 0x0, .wo, 0x0, 0x7, false, [], none⟩,  -- AON_PWR_CMD
    ⟨0x88, 1, 0x0, .rwl, 0x0, 0x3, false, [], none⟩,  -- AON_PART_CFG
    ⟨0x8C, 1, 0x0, .rwl, 0x1F41400, 0xFFFFFF07, false, [⟨8, 8, 1, 255, false⟩, ⟨16, 16, 1, 65535, false⟩], none⟩,  -- AON_NM_CFG
    ⟨0x90, 1, 0x0, .rwl, 0x0, 0x1FFF1FFF, false, [], none⟩,  -- AON_NM_PDU
    ⟨0x94, 1, 0x0, .rwl, 0x0, 0x80007FFF, false, [], none⟩,  -- AON_NM_SIG
    ⟨0x98, 1, 0x0, .rwl, 0x0, 0xFFFFFFFF, false, [], none⟩,  -- AON_NM_SIGVAL
    ⟨0x9C, 1, 0x0, .rwl, 0x0, 0xFFFFFF, false, [], none⟩,  -- AON_SLEEP_SET0
    ⟨0xA0, 1, 0x0, .rwl, 0x0, 0xFFFFF, false, [], none⟩,  -- AON_SLEEP_SET1
    ⟨0xA4, 1, 0x0, .rwl, 0x14000A, 0xFFFFFF, false, [⟨16, 8, 1, 255, false⟩], none⟩,  -- AON_INH_CFG
    ⟨0xA8, 1, 0x0, .rwl, 0x3E8, 0xFFFFF, false, [⟨0, 16, 1, 65535, false⟩], none⟩,  -- AON_FW_CFG
    ⟨0xAC, 1, 0x0, .rwl, 0x0, 0x1, false, [], none⟩,  -- AON_CLK_CFG
    ⟨0xB0, 1, 0x0, .rwl, 0x0, 0xFFFFFF, false, [], none⟩,  -- AON_TIMER
    ⟨0xB4, 1, 0x0, .w1c, 0x0, 0x3F, false, [], none⟩,  -- AON_WAKE_CAUSE
    ⟨0xB8, 1, 0x0, .w1c, 0x0, 0xFFFFFFFF, false, [], none⟩,  -- AON_WAKE_SRC_LO
    ⟨0xBC, 1, 0x0, .w1c, 0x0, 0x7FFF, false, [], none⟩,  -- AON_WAKE_SRC_HI
    ⟨0xC0, 1, 0x0, .ro, 0x0, 0x0, false, [], none⟩,  -- AON_WAKE_FRC_LO
    ⟨0xC4, 1, 0x0, .ro, 0x0, 0x0, false, [], none⟩,  -- AON_WAKE_FRC_HI
    ⟨0xC8, 1, 0x0, .ro, 0x0, 0x0, false, [], none⟩,  -- AON_WAKE_CAP0
    ⟨0xCC, 1, 0x0, .ro, 0x0, 0x0, false, [], none⟩,  -- AON_WAKE_CAP1
    ⟨0xD0, 1, 0x0, .ro, 0x0, 0x0, false, [], none⟩,  -- AON_WAKE_CAP2
    ⟨0xD4, 1, 0x0, .ro, 0x0, 0x0, false, [], none⟩,  -- AON_WAKE_CAP3
    ⟨0xD8, 1, 0x0, .ro, 0x0, 0x0, false, [], none⟩,  -- AON_FW_DIS_LO
    ⟨0xDC, 1, 0x0, .ro, 0x0, 0x0, false, [], none⟩ ] ++  -- AON_FW_DIS_HI
  [ ⟨0xE0, 1, 0x0, .evt, 0x0, 0x0, false, [], none⟩,  -- AON_SLEEP_ABORT
    ⟨0xE4, 1, 0x0, .evt, 0x0, 0x0, false, [], none⟩,  -- AON_SLEEP_FAIL
    ⟨0xE8, 1, 0x0, .evt, 0x0, 0x0, false, [], none⟩,  -- AON_PG_FAIL
    ⟨0xEC, 1, 0x0, .evt, 0x0, 0x0, false, [], none⟩,  -- AON_TRANS_REJ
    ⟨0xF0, 1, 0x0, .evt, 0x0, 0x0, false, [], none⟩,  -- AON_TRANS_ABORT
    ⟨0xF8, 1, 0x0, .stat, 0x0, 0x0, false, [], none⟩,  -- AON_WAKES
    ⟨0x100, 47, 0x4, .rwl, 0x9, 0x1F, false, [], none⟩,  -- AON_WSRC_CFG
    ⟨0x200, 44, 0x4, .evt, 0x0, 0x0, false, [], none⟩,  -- AON_FALSE_WAKE
    ⟨0x300, 24, 0x20, .rwl, 0x0, 0x1FFFFFFF, false, [], none⟩,  -- AON_SW_ID
    ⟨0x304, 24, 0x20, .rwl, 0x1FFFFFFF, 0x1FFFFFFF, false, [], none⟩,  -- AON_SW_MASK
    ⟨0x308, 24, 0x20, .rwl, 0x1F0002, 0x3F01FF, false, [⟨16, 6, 1, 63, false⟩], none⟩,  -- AON_SW_CFG
    ⟨0x30C, 24, 0x20, .rwl, 0x0, 0xFFFFFFFF, false, [], none⟩,  -- AON_SW_DMASK_LO
    ⟨0x310, 24, 0x20, .rwl, 0x0, 0xFFFFFFFF, false, [], none⟩,  -- AON_SW_DMASK_HI
    ⟨0x314, 24, 0x20, .ro, 0x0, 0x0, false, [], none⟩ ]  -- AON_SW_ERR

/-- Register map of TAP. -/
def tapRegs : List RegDesc :=
  [ ⟨0x80, 1, 0x0, .wo, 0x0, 0xF0F, true, [], none⟩,  -- TAP_CMD
    ⟨0x84, 1, 0x0, .rw, 0x0, 0xFFFF, true, [], none⟩,  -- TAP_INDEX
    ⟨0x88, 1, 0x0, .ro, 0x0, 0x0, true, [], none⟩,  -- TAP_STAGE_CNT
    ⟨0xC0, 4, 0x4, .rw, 0x0, 0xFFFFFFFF, true, [], none⟩,  -- TAP_KEY
    ⟨0x100, 16, 0x4, .rw, 0x0, 0xFFFFFFFF, true, [], none⟩,  -- TAP_DATA
    ⟨0x180, 1, 0x0, .pair, 0x0, 0x0, false, [], none⟩,  -- TAP_COMMIT
    ⟨0x200, 1, 0x0, .rv, 0x0, 0x0, true, [], none⟩,  -- TAP_RES_STAT
    ⟨0x204, 1, 0x0, .wo, 0x0, 0xFFFF, true, [], none⟩,  -- TAP_RES_ACK
    ⟨0x208, 1, 0x0, .rv, 0x0, 0x0, true, [], none⟩,  -- TAP_RES_INDEX
    ⟨0x240, 16, 0x4, .rv, 0x0, 0x0, true, [], none⟩ ]  -- TAP_RES_DATA

/-- Register map of PFC. -/
def pfcRegs : List RegDesc :=
  [ ⟨0x80, 1, 0x0, .rw, 0x0, 0x1, false, [], none⟩,  -- PFC_GCTRL
    ⟨0x84, 1, 0x0, .rw, 0x0, 0xFF, false, [], none⟩,  -- PFC_UREAD
    ⟨0x90, 4, 0x8, .rw, 0x0, 0xFFFFFFFF, false, [], none⟩,  -- PFC_RANGE_BASE
    ⟨0x94, 4, 0x8, .rw, 0x0, 0xFFFFFFFF, false, [], none⟩,  -- PFC_RANGE_LIMIT
    ⟨0x100, 64, 0x10, .rw, 0x0, 0x300FF, false, [], none⟩,  -- PFC_SEL
    ⟨0x104, 64, 0x10, .rw, 0x1F07, 0x311F07, false, [], none⟩,  -- PFC_FILT
    ⟨0x108, 64, 0x10, .ro, 0x0, 0x0, false, [], none⟩,  -- PFC_CNT_LO
    ⟨0x10C, 64, 0x10, .ro, 0x0, 0x0, false, [], none⟩ ]  -- PFC_CNT_HI

/-- Register map of TWN. -/
def twnRegs : List RegDesc :=
  [ ⟨0x80, 1, 0x0, .rwl, 0x32181900, 0xFFFFFFFF, false, [⟨16, 8, 5, 100, false⟩, ⟨24, 8, 1, 255, false⟩], none⟩,  -- TWN_CFG
    ⟨0x84, 1, 0x0, .ro, 0x0, 0x0, false, [], none⟩,  -- TWN_STAT
    ⟨0x88, 1, 0x0, .wo, 0x0, 0xF, false, [], none⟩,  -- TWN_CMD
    ⟨0x8C, 1, 0x0, .rwl, 0x0, 0x1FF, false, [], none⟩,  -- TWN_PARTNER
    ⟨0x90, 1, 0x0, .rwl, 0x0, 0xFFFFFF, false, [], none⟩,  -- TWN_BUS_MASK
    ⟨0x94, 1, 0x0, .rwl, 0x0, 0xFF, false, [], none⟩,  -- TWN_LIN_MASK
    ⟨0x98, 1, 0x0, .rwl, 0x0, 0xFFFFFFFF, false, [], none⟩,  -- TWN_GPIO_MASK
    ⟨0xA0, 1, 0x0, .ro, 0x0, 0x0, false, [], none⟩,  -- TWN_OFFSET_LO
    ⟨0xA4, 1, 0x0, .ro, 0x0, 0x0, false, [], none⟩,  -- TWN_OFFSET_HI
    ⟨0xA8, 1, 0x0, .ro, 0x0, 0x0, false, [], none⟩,  -- TWN_LINK_DELAY
    ⟨0xAC, 1, 0x0, .ro, 0x0, 0x0, false, [], none⟩,  -- TWN_LAST_DIV
    ⟨0xB0, 1, 0x0, .ro, 0x0, 0x0, false, [], none⟩,  -- TWN_ROTATE_LEFT
    ⟨0xC0, 1, 0x0, .stat, 0x0, 0x0, false, [], none⟩,  -- TWN_HB_RX
    ⟨0xC8, 1, 0x0, .stat, 0x0, 0x0, false, [], none⟩,  -- TWN_WINDOWS
    ⟨0xD0, 1, 0x0, .stat, 0x0, 0x0, false, [], none⟩,  -- TWN_SUPPRESSED
    ⟨0xD8, 1, 0x0, .stat, 0x0, 0x0, false, [], none⟩,  -- TWN_SHADOW_MATCH
    ⟨0xE0, 1, 0x0, .evt, 0x0, 0x0, false, [], none⟩,  -- TWN_TAKEOVER
    ⟨0xE4, 1, 0x0, .evt, 0x0, 0x0, false, [], none⟩,  -- TWN_ROTATION
    ⟨0xE8, 1, 0x0, .evt, 0x0, 0x0, false, [], none⟩,  -- TWN_DIVERGENCE
    ⟨0xEC, 1, 0x0, .evt, 0x0, 0x0, false, [], none⟩,  -- TWN_STRADDLE
    ⟨0xF0, 1, 0x0, .evt, 0x0, 0x0, false, [], none⟩,  -- TWN_HB_PATH
    ⟨0xF4, 1, 0x0, .evt, 0x0, 0x0, false, [], none⟩,  -- TWN_ISOLATED_CNT
    ⟨0xF8, 1, 0x0, .evt, 0x0, 0x0, false, [], none⟩,  -- TWN_LINK_LOST
    ⟨0xFC, 1, 0x0, .evt, 0x0, 0x0, false, [], none⟩ ] ++  -- TWN_SHADOW_MISS
  [ ⟨0x100, 1, 0x0, .evt, 0x0, 0x0, false, [], none⟩,  -- TWN_CFG_MISMATCH
    ⟨0x104, 1, 0x0, .evt, 0x0, 0x0, false, [], none⟩,  -- TWN_BAD_MSG
    ⟨0x108, 1, 0x0, .evt, 0x0, 0x0, false, [], none⟩,  -- TWN_SELFTEST_FAIL
    ⟨0x140, 1, 0x0, .rw, 0x0, 0x1FF, true, [], none⟩,  -- TWN_RST_SEL
    ⟨0x144, 1, 0x0, .ro, 0x0, 0x0, false, [], (some (0x140, 9))⟩,  -- TWN_RST_STAT
    ⟨0x148, 8, 0x4, .ro, 0x0, 0x0, false, [], (some (0x140, 9))⟩,  -- TWN_RST_DIG
    ⟨0x168, 1, 0x0, .ro, 0x0, 0x0, false, [], (some (0x140, 9))⟩,  -- TWN_RST_LAST_OK
    ⟨0x16C, 1, 0x0, .rwl, 0x3C, 0xFFFF, false, [⟨0, 16, 1, 65535, false⟩], none⟩,  -- TWN_RST_CFG
    ⟨0x170, 1, 0x0, .ro, 0x0, 0x0, false, [], none⟩ ]  -- TWN_RST_COUNT

/-- Register map of HIF. -/
def hifRegs : List RegDesc :=
  [ ⟨0x80, 1, 0x0, .rwl, 0x100, 0x113, false, [], none⟩,  -- HIF_CFG
    ⟨0x84, 1, 0x0, .ro, 0x0, 0x0, false, [], none⟩,  -- HIF_STAT
    ⟨0x88, 1, 0x0, .rwl, 0x0, 0xFF03, false, [], none⟩,  -- HIF_IBM_CFG
    ⟨0x90, 1, 0x0, .evt, 0x0, 0x0, false, [], none⟩,  -- HIF_DB_ERR
    ⟨0x94, 1, 0x0, .evt, 0x0, 0x0, false, [], none⟩,  -- HIF_CFG_REJ
    ⟨0x98, 1, 0x0, .evt, 0x0, 0x0, false, [], none⟩,  -- HIF_DMA_ERR
    ⟨0x9C, 1, 0x0, .evt, 0x0, 0x0, false, [], none⟩,  -- HIF_QSPI_ERR
    ⟨0xA0, 1, 0x0, .evt, 0x0, 0x0, false, [], none⟩,  -- HIF_IBM_AUTH_FAIL
    ⟨0xA4, 1, 0x0, .evt, 0x0, 0x0, false, [], none⟩,  -- HIF_IBM_REPLAY
    ⟨0xB0, 1, 0x0, .stat, 0x0, 0x0, false, [], none⟩,  -- HIF_IBM_OK
    ⟨0x100, 16, 0x20, .rw, 0x0, 0xFFFFFFFF, false, [], none⟩,  -- RXR_BASE_LO
    ⟨0x104, 16, 0x20, .rw, 0x0, 0xFFFFFFFF, false, [], none⟩,  -- RXR_BASE_HI
    ⟨0x108, 16, 0x20, .rw, 0x6, 0xF, false, [⟨0, 4, 6, 15, false⟩], none⟩,  -- RXR_SIZE
    ⟨0x10C, 16, 0x20, .rw, 0x10100, 0xFFFF3F01, false, [⟨16, 8, 1, 255, false⟩], none⟩,  -- RXR_CTRL
    ⟨0x110, 16, 0x20, .ro, 0x0, 0x0, false, [], none⟩,  -- RXR_HEAD
    ⟨0x114, 16, 0x20, .ro, 0x0, 0x0, false, [], none⟩,  -- RXR_TAIL
    ⟨0x118, 16, 0x20, .ro, 0x0, 0x0, false, [], none⟩,  -- RXR_STAT
    ⟨0x300, 16, 0x20, .rw, 0x0, 0xFFFFFFFF, false, [], none⟩,  -- TXR_BASE_LO
    ⟨0x304, 16, 0x20, .rw, 0x0, 0xFFFFFFFF, false, [], none⟩,  -- TXR_BASE_HI
    ⟨0x308, 16, 0x20, .rw, 0x6, 0xF, false, [⟨0, 4, 6, 15, false⟩], none⟩,  -- TXR_SIZE
    ⟨0x30C, 16, 0x20, .rw, 0x10100, 0xFFFF3F0F, false, [⟨16, 8, 1, 255, false⟩], none⟩,  -- TXR_CTRL
    ⟨0x310, 16, 0x20, .ro, 0x0, 0x0, false, [], none⟩,  -- TXR_HEAD
    ⟨0x314, 16, 0x20, .ro, 0x0, 0x0, false, [], none⟩,  -- TXR_TAIL
    ⟨0x318, 16, 0x20, .ro, 0x0, 0x0, false, [], none⟩ ] ++  -- TXR_STAT
  [ ⟨0x600, 16, 0x8, .stat, 0x0, 0x0, false, [], none⟩,  -- RXR_FRAMES
    ⟨0x680, 16, 0x8, .stat, 0x0, 0x0, false, [], none⟩ ]  -- TXR_FRAMES

/-- Register map of GPI. -/
def gpiRegs : List RegDesc :=
  [ ⟨0x80, 1, 0x0, .ro, 0x0, 0x0, false, [], none⟩,  -- GPI_IN
    ⟨0x84, 1, 0x0, .rw, 0x0, 0xFFFFFFFF, false, [], none⟩,  -- GPI_OUT
    ⟨0x88, 1, 0x0, .rwl, 0x0, 0xFFFFFFFF, false, [], none⟩,  -- GPI_OE
    ⟨0x8C, 1, 0x0, .rwl, 0x0, 0xFFFFFFFF, false, [], none⟩,  -- GPI_OD
    ⟨0x90, 1, 0x0, .rwl, 0xFFFFFFFF, 0xFFFFFFFF, false, [], none⟩,  -- GPI_PULL_EN
    ⟨0x94, 1, 0x0, .rwl, 0x0, 0xFFFFFFFF, false, [], none⟩,  -- GPI_PULL_UP
    ⟨0x98, 1, 0x0, .rw, 0x0, 0xFFFFFFFF, false, [], none⟩,  -- GPI_RISE_EN
    ⟨0x9C, 1, 0x0, .rw, 0x0, 0xFFFFFFFF, false, [], none⟩,  -- GPI_FALL_EN
    ⟨0xA0, 1, 0x0, .w1c, 0x0, 0xFFFFFFFF, false, [], none⟩,  -- GPI_EDGE
    ⟨0xA4, 1, 0x0, .rwl, 0x1, 0xFF, false, [], none⟩,  -- GPI_FILT
    ⟨0xA8, 1, 0x0, .evt, 0x0, 0x0, false, [], none⟩ ]  -- GPI_OUT_REJ

/-- Register map of ICL. -/
def iclRegs : List RegDesc :=
  [ ⟨0x80, 1, 0x0, .rwl, 0x0, 0xFFFFFFFF, false, [], none⟩,  -- ICL_DEV_MAC_LO
    ⟨0x84, 1, 0x0, .rwl, 0x0, 0xFFFF, false, [], none⟩,  -- ICL_DEV_MAC_HI
    ⟨0x88, 1, 0x0, .rwl, 0xFAC688, 0xFFFFFF, false, [], none⟩,  -- ICL_PCP_TC
    ⟨0x8C, 1, 0x0, .rwl, 0x0, 0xF, false, [], none⟩,  -- ICL_STEER_DEFAULT
    ⟨0x90, 1, 0x0, .rwl, 0xFFFFFFFF, 0xFFFFFFFF, false, [], none⟩,  -- ICL_XL_AF_MASK
    ⟨0xA0, 1, 0x0, .stat, 0x0, 0x0, false, [], none⟩,  -- ICL_CONSUMED
    ⟨0xA8, 1, 0x0, .stat, 0x0, 0x0, false, [], none⟩,  -- ICL_STEER_DROP
    ⟨0xB0, 1, 0x0, .stat, 0x0, 0x0, false, [], none⟩,  -- ICL_CAN_RTR
    ⟨0x100, 26, 0x4, .rwl, 0x80001, 0xF7FFF, false, [], none⟩,  -- ICL_PORT_CFG
    ⟨0x200, 64, 0x10, .rwl, 0x0, 0x7FFFFFFF, false, [], none⟩,  -- ICL_STEER_MATCH0
    ⟨0x204, 64, 0x10, .rwl, 0x0, 0x80001FFF, false, [], none⟩,  -- ICL_STEER_MATCH1
    ⟨0x208, 64, 0x10, .rwl, 0x0, 0x3FFFFFF, false, [], none⟩,  -- ICL_STEER_PORTS
    ⟨0x20C, 64, 0x10, .rwl, 0x0, 0x10F, false, [], none⟩,  -- ICL_STEER_ACT
    ⟨0x600, 26, 0x8, .stat, 0x0, 0x0, false, [], none⟩ ]  -- ICL_RUNT

/-- Register map of ICT. -/
def ictRegs : List RegDesc :=
  [ ⟨0x80, 1, 0x0, .rwl, 0xFFFFFFFF, 0xFFFFFFFF, false, [], none⟩,  -- ICT_SEED0
    ⟨0x84, 1, 0x0, .rwl, 0x9A3E7D21, 0xFFFFFFFF, false, [], none⟩,  -- ICT_SEED1
    ⟨0x88, 1, 0x0, .rwl, 0x35C8B04E, 0xFFFFFFFF, false, [], none⟩,  -- ICT_SEED2
    ⟨0x8C, 1, 0x0, .rwl, 0xE6D14F87, 0xFFFFFFFF, false, [], none⟩,  -- ICT_SEED3
    ⟨0x90, 1, 0x0, .ro, 0x0, 0x0, false, [], none⟩,  -- ICT_FILL
    ⟨0x94, 1, 0x0, .evt, 0x0, 0x0, false, [], none⟩,  -- ICT_SEED_REJ
    ⟨0xA0, 1, 0x0, .stat, 0x0, 0x0, false, [], none⟩,  -- ICT_HIT
    ⟨0xA8, 1, 0x0, .stat, 0x0, 0x0, false, [], none⟩ ]  -- ICT_MISS

/-- Register map of SRT. -/
def srtRegs : List RegDesc :=
  [ ⟨0x80, 1, 0x0, .stat, 0x0, 0x0, false, [], none⟩,  -- SRT_NO_ROUTE
    ⟨0x90, 1, 0x0, .evt, 0x0, 0x0, false, [], none⟩,  -- SRT_IDENT_CONFLICT
    ⟨0x94, 1, 0x0, .evt, 0x0, 0x0, false, [], none⟩,  -- SRT_SPOOF
    ⟨0x98, 1, 0x0, .evt, 0x0, 0x0, false, [], none⟩,  -- SRT_DUPLICATE
    ⟨0x9C, 1, 0x0, .evt, 0x0, 0x0, false, [], none⟩,  -- SRT_IDENT_DATA_CONFLICT
    ⟨0xA0, 1, 0x0, .evt, 0x0, 0x0, false, [], none⟩,  -- SRT_AUTH_MISSING
    ⟨0xB0, 1, 0x0, .ro, 0x0, 0x0, false, [], none⟩,  -- SRT_LAST_EVT_TS
    ⟨0xB4, 1, 0x0, .ro, 0x0, 0x0, false, [], none⟩ ]  -- SRT_LAST_EVT

/-- Register map of ADT. -/
def adtRegs : List RegDesc :=
  [ ⟨0x80, 1, 0x0, .rwl, 0x7C4109D3, 0xFFFFFFFF, false, [], none⟩,  -- ADT_SEED0
    ⟨0x84, 1, 0x0, .rwl, 0x2E9B58A6, 0xFFFFFFFF, false, [], none⟩,  -- ADT_SEED1
    ⟨0x88, 1, 0x0, .rwl, 0xD0F36C15, 0xFFFFFFFF, false, [], none⟩,  -- ADT_SEED2
    ⟨0x8C, 1, 0x0, .rwl, 0x4B87E2F9, 0xFFFFFFFF, false, [], none⟩,  -- ADT_SEED3
    ⟨0x90, 1, 0x0, .ro, 0x0, 0x0, false, [], none⟩,  -- ADT_FILL
    ⟨0x94, 1, 0x0, .ro, 0x0, 0x0, false, [], none⟩,  -- ADT_STATIC_FILL
    ⟨0x98, 1, 0x0, .evt, 0x0, 0x0, false, [], none⟩,  -- ADT_SEED_REJ
    ⟨0x9C, 1, 0x0, .evt, 0x0, 0x0, false, [], none⟩,  -- ADT_BAD_SMAC
    ⟨0xA0, 1, 0x0, .stat, 0x0, 0x0, false, [], none⟩,  -- ADT_RELOC
    ⟨0xA8, 1, 0x0, .stat, 0x0, 0x0, false, [], none⟩,  -- ADT_LOCAL_FILTER
    ⟨0xB0, 1, 0x0, .stat, 0x0, 0x0, false, [], none⟩,  -- ADT_FLOOD
    ⟨0x100, 26, 0x8, .rwl, 0x7FFFFF, 0x3FFFFFF, false, [], none⟩,  -- ADT_FLOOD_UC
    ⟨0x104, 26, 0x8, .rwl, 0x7FFFFF, 0x3FFFFFF, false, [], none⟩ ]  -- ADT_FLOOD_MC

/-- Register map of LRN. -/
def lrnRegs : List RegDesc :=
  [ ⟨0x80, 1, 0x0, .rwl, 0x12C01, 0xFFFFF, false, [⟨8, 12, 1, 4095, false⟩], none⟩,  -- LRN_AGE
    ⟨0x84, 1, 0x0, .rwl, 0x6414, 0xFFFFFF, false, [⟨8, 16, 1, 65535, false⟩], none⟩,  -- LRN_FLAP
    ⟨0x88, 1, 0x0, .ro, 0x0, 0x0, false, [], none⟩,  -- LRN_TICK
    ⟨0x8C, 1, 0x0, .ro, 0x0, 0x0, false, [], none⟩,  -- LRN_Q_LEVEL
    ⟨0x90, 1, 0x0, .rwl, 0x3C0A0A00, 0xFFFFFF01, false, [⟨8, 8, 1, 255, false⟩, ⟨16, 8, 2, 255, false⟩, ⟨24, 8, 1, 255, false⟩], none⟩,  -- LRN_XCH_CFG
    ⟨0xA0, 1, 0x0, .stat, 0x0, 0x0, false, [], none⟩,  -- LRN_LEARNED
    ⟨0xA8, 1, 0x0, .stat, 0x0, 0x0, false, [], none⟩,  -- LRN_MOVED
    ⟨0xB0, 1, 0x0, .stat, 0x0, 0x0, false, [], none⟩,  -- LRN_PRUNED
    ⟨0xB8, 1, 0x0, .stat, 0x0, 0x0, false, [], none⟩,  -- LRN_REMOTE
    ⟨0xC0, 1, 0x0, .evt, 0x0, 0x0, false, [], none⟩,  -- LRN_Q_OVF
    ⟨0xC4, 1, 0x0, .evt, 0x0, 0x0, false, [], none⟩,  -- LRN_FULL
    ⟨0xC8, 1, 0x0, .evt, 0x0, 0x0, false, [], none⟩,  -- LRN_FLAP_CNT
    ⟨0xCC, 1, 0x0, .evt, 0x0, 0x0, false, [], none⟩,  -- LRN_FROZEN_DROP
    ⟨0xD0, 1, 0x0, .evt, 0x0, 0x0, false, [], none⟩,  -- LRN_STATIC_MOVE
    ⟨0xD4, 1, 0x0, .evt, 0x0, 0x0, false, [], none⟩,  -- LRN_REMOTE_STALE
    ⟨0xD8, 1, 0x0, .evt, 0x0, 0x0, false, [], none⟩,  -- LRN_SEQ_GAP
    ⟨0xDC, 1, 0x0, .evt, 0x0, 0x0, false, [], none⟩,  -- LRN_ANCHOR_REJ
    ⟨0xE0, 1, 0x0, .ro, 0x0, 0x0, false, [], none⟩,  -- LRN_FLAP_CAP0
    ⟨0xE4, 1, 0x0, .ro, 0x0, 0x0, false, [], none⟩,  -- LRN_FLAP_CAP1
    ⟨0xE8, 1, 0x0, .ro, 0x0, 0x0, false, [], none⟩,  -- LRN_FLAP_CAP2
    ⟨0x100, 16, 0x10, .rwl, 0x0, 0x101FF, false, [], none⟩,  -- LRN_ANCHOR_CTRL
    ⟨0x104, 16, 0x10, .rwl, 0x0, 0xFFFFFFFF, false, [], none⟩,  -- LRN_ANCHOR_MAC_LO
    ⟨0x108, 16, 0x10, .rwl, 0x0, 0xFFFF, false, [], none⟩,  -- LRN_ANCHOR_MAC_HI
    ⟨0x10C, 16, 0x10, .ro, 0x0, 0x0, false, [], none⟩ ]  -- LRN_ANCHOR_RX_SEQ

/-- Register map of BSN. -/
def bsnRegs : List RegDesc :=
  [ ⟨0x80, 1, 0x0, .rwl, 0x10800, 0x13FFF, false, [⟨0, 14, 64, 9216, false⟩], none⟩,  -- BSN_CFG
    ⟨0x84, 1, 0x0, .rwl, 0x800, 0xFFFF, false, [⟨0, 16, 1872, 8192, false⟩], none⟩,  -- BSN_HEADROOM
    ⟨0x88, 1, 0x0, .rwl, 0x5D2A91C4, 0xFFFFFFFF, false, [], none⟩,  -- BSN_FLOW_SEED
    ⟨0x8C, 1, 0x0, .ro, 0xC000, 0x0, false, [], none⟩,  -- BSN_FREE
    ⟨0x90, 1, 0x0, .ro, 0xB800, 0x0, false, [], none⟩,  -- BSN_SHARED_FREE
    ⟨0x94, 1, 0x0, .ro, 0x0, 0x0, false, [], none⟩,  -- BSN_RSV_SUM
    ⟨0x98, 1, 0x0, .ro, 0x18000, 0x0, false, [], none⟩,  -- BSN_DESC_FREE
    ⟨0x9C, 1, 0x0, .evt, 0x0, 0x0, false, [], none⟩,  -- BSN_RSV_REJ
    ⟨0xA0, 1, 0x0, .stat, 0x0, 0x0, false, [], none⟩,  -- BSN_CT_COPIES
    ⟨0xA8, 1, 0x0, .stat, 0x0, 0x0, false, [], none⟩,  -- BSN_BAD_SF
    ⟨0xB0, 1, 0x0, .stat, 0x0, 0x0, false, [], none⟩,  -- BSN_REPL_OVF
    ⟨0xB8, 1, 0x0, .stat, 0x0, 0x0, false, [], none⟩,  -- BSN_DESC_EXH
    ⟨0xC0, 1, 0x0, .stat, 0x0, 0x0, false, [], none⟩,  -- BSN_ECC_CORR
    ⟨0xC8, 1, 0x0, .evt, 0x0, 0x0, false, [], none⟩,  -- BSN_ECC_UNCORR
    ⟨0xD0, 1, 0x0, .ro, 0x0, 0x0, false, [], none⟩,  -- BSN_POISON_CAP0
    ⟨0xD4, 1, 0x0, .ro, 0x0, 0x0, false, [], none⟩,  -- BSN_POISON_CAP1
    ⟨0xD8, 1, 0x0, .ro, 0x0, 0x0, false, [], none⟩,  -- BSN_DROP_CAP
    ⟨0x100, 240, 0x4, .rwl, 0x1000, 0xFFFFFFFF, false, [], none⟩,  -- BSN_QCFG
    ⟨0x500, 240, 0x4, .ro, 0x0, 0x0, false, [], none⟩,  -- BSN_QSTAT
    ⟨0x900, 58, 0x10, .stat, 0x0, 0x0, false, [], none⟩,  -- BSN_DROP
    ⟨0x908, 58, 0x10, .stat, 0x0, 0x0, false, [], none⟩,  -- BSN_CT_POISON_TX
    ⟨0xCA0, 26, 0x8, .stat, 0x0, 0x0, false, [], none⟩,  -- BSN_CT_POISON_RX
    ⟨0xD80, 16, 0x10, .ro, 0x0, 0x0, false, [], none⟩,  -- BSN_RXF_PTR
    ⟨0xD84, 16, 0x10, .ro, 0x0, 0x0, false, [], none⟩ ] ++  -- BSN_RXF_CM
  [ ⟨0xD88, 16, 0x10, .evt, 0x0, 0x0, false, [], none⟩,  -- BSN_RXF_GAPS
    ⟨0xD8C, 16, 0x10, .evt, 0x0, 0x0, false, [], none⟩,  -- BSN_RXF_RESET
    ⟨0xE80, 16, 0x8, .ro, 0x0, 0x0, false, [], none⟩,  -- BSN_TXF_PTR
    ⟨0xE84, 16, 0x8, .evt, 0x0, 0x0, false, [], none⟩ ]  -- BSN_TXF_RESET

/-- Register map of RAK. -/
def rakRegs : List RegDesc :=
  [ ⟨0x80, 1, 0x0, .rwl, 0xA01, 0xFF01, false, [⟨8, 8, 5, 255, false⟩], none⟩,  -- RAK_CFG
    ⟨0x84, 1, 0x0, .ro, 0x0, 0x0, false, [], none⟩,  -- RAK_STAT
    ⟨0x88, 1, 0x0, .ro, 0x0, 0x0, false, [], none⟩,  -- RAK_LAST_DUR
    ⟨0x90, 1, 0x0, .stat, 0x0, 0x0, false, [], none⟩,  -- RAK_AUDITS
    ⟨0x98, 1, 0x0, .stat, 0x0, 0x0, false, [], none⟩,  -- RAK_RECLAIMED
    ⟨0xA0, 1, 0x0, .evt, 0x0, 0x0, false, [], none⟩,  -- RAK_DOUBLE
    ⟨0xA4, 1, 0x0, .evt, 0x0, 0x0, false, [], none⟩,  -- RAK_LIST_BREAK
    ⟨0xA8, 1, 0x0, .ro, 0x0, 0x0, false, [], none⟩ ]  -- RAK_LAST_CELL

/-- Register map of EDY. -/
def edyRegs : List RegDesc :=
  [ ⟨0x80, 1, 0x0, .rwl, 0x1F, 0x1F, false, [], none⟩,  -- EDY_MIRROR
    ⟨0x100, 8, 0x20, .rwl, 0x0, 0x1F3F, false, [], none⟩,  -- EDY_CTRL
    ⟨0x104, 8, 0x20, .rwl, 0x0, 0x3FFFFFF, false, [], none⟩,  -- EDY_PORTS
    ⟨0x108, 8, 0x20, .rwl, 0x0, 0xFFFFFFFF, false, [], none⟩,  -- EDY_HRANGE
    ⟨0x10C, 8, 0x20, .rwl, 0x1, 0xFFFF, false, [⟨0, 16, 1, 65535, false⟩], none⟩,  -- EDY_RATE
    ⟨0x110, 8, 0x20, .stat, 0x0, 0x0, false, [], none⟩,  -- EDY_SENT
    ⟨0x118, 8, 0x20, .evt, 0x0, 0x0, false, [], none⟩ ]  -- EDY_LOST

/-- Register map of EGS. -/
def egsRegs : List RegDesc :=
  [ ⟨0x80, 1, 0x0, .rwl, 0xA00, 0xFF1F, false, [⟨8, 8, 1, 128, false⟩], none⟩,  -- EGS_PORT_CFG
    ⟨0x84, 1, 0x0, .ro, 0x0, 0x0, false, [], none⟩,  -- EGS_PORT_STAT
    ⟨0x88, 1, 0x0, .ro, 0x0, 0x0, false, [], none⟩,  -- EGS_PORT_RATE
    ⟨0xA0, 8, 0x4, .rwl, 0x6000000, 0xFFFF000F, false, [⟨16, 16, 64, 65535, false⟩], none⟩,  -- EGS_TC_CFG
    ⟨0xC0, 8, 0x4, .rwl, 0x0, 0x1FFFFFF, false, [], none⟩,  -- EGS_IDLE_SLOPE
    ⟨0xE0, 8, 0x4, .ro, 0x0, 0x0, false, [], none⟩,  -- EGS_CREDIT
    ⟨0x100, 8, 0x10, .stat, 0x0, 0x0, false, [], none⟩,  -- EGS_TX_FRAMES
    ⟨0x108, 8, 0x10, .stat, 0x0, 0x0, false, [], none⟩,  -- EGS_TX_BYTES
    ⟨0x180, 1, 0x0, .stat, 0x0, 0x0, false, [], none⟩,  -- EGS_PAUSE_RX
    ⟨0x188, 1, 0x0, .stat, 0x0, 0x0, false, [], none⟩,  -- EGS_UNRSV_DROP
    ⟨0x190, 1, 0x0, .stat, 0x0, 0x0, false, [], none⟩,  -- EGS_FRAG_TX
    ⟨0x1A0, 1, 0x0, .evt, 0x0, 0x0, false, [], none⟩,  -- EGS_PFC_RX
    ⟨0x1A4, 1, 0x0, .evt, 0x0, 0x0, false, [], none⟩,  -- EGS_VERIFY_FAIL
    ⟨0x1A8, 1, 0x0, .evt, 0x0, 0x0, false, [], none⟩,  -- EGS_CFG_CONFLICT
    ⟨0x1AC, 1, 0x0, .evt, 0x0, 0x0, false, [], none⟩ ]  -- EGS_ASSY_ERR

/-- Register map of WEI. -/
def weiRegs : List RegDesc :=
  [ ⟨0x80, 1, 0x0, .rw, 0x0, 0xFFF, true, [], none⟩,  -- WEI_SEL
    ⟨0x84, 1, 0x0, .wo, 0x0, 0x3, true, [], none⟩,  -- WEI_CMD
    ⟨0x90, 1, 0x0, .rw, 0x0, 0x3FFF003F, true, [], none⟩,  -- WEI_DATA[0]
    ⟨0x94, 1, 0x0, .rw, 0x0, 0x1FFFFFF, true, [], none⟩,  -- WEI_DATA[1]
    ⟨0x98, 1, 0x0, .rw, 0x0, 0x1FFFFFF, true, [], none⟩,  -- WEI_DATA[2]
    ⟨0x9C, 1, 0x0, .rw, 0x0, 0xFFFFFF, true, [], none⟩,  -- WEI_DATA[3]
    ⟨0xA0, 1, 0x0, .rw, 0x0, 0xFFFFFF, true, [], none⟩,  -- WEI_DATA[4]
    ⟨0xB0, 1, 0x0, .ro, 0x0, 0x0, false, [], (some (0x80, 12))⟩,  -- WEI_LEVEL_C
    ⟨0xB4, 1, 0x0, .ro, 0x0, 0x0, false, [], (some (0x80, 12))⟩,  -- WEI_LEVEL_P
    ⟨0xC0, 1, 0x0, .stat, 0x0, 0x0, false, [], (some (0x80, 12))⟩,  -- WEI_GREEN
    ⟨0xC8, 1, 0x0, .stat, 0x0, 0x0, false, [], (some (0x80, 12))⟩,  -- WEI_YELLOW
    ⟨0xD0, 1, 0x0, .stat, 0x0, 0x0, false, [], (some (0x80, 12))⟩,  -- WEI_RED
    ⟨0xE0, 1, 0x0, .stat, 0x0, 0x0, false, [], none⟩,  -- WEI_DROP
    ⟨0xE8, 1, 0x0, .stat, 0x0, 0x0, false, [], none⟩,  -- WEI_LATE_RED
    ⟨0xF0, 1, 0x0, .evt, 0x0, 0x0, false, [], none⟩ ]  -- WEI_REJ

/-- Register map of SLU. -/
def sluRegs : List RegDesc :=
  [ ⟨0x80, 1, 0x0, .rwl, 0x0, 0x7, false, [], none⟩,  -- SLU_CTRL
    ⟨0x84, 1, 0x0, .wo, 0x0, 0x3, false, [], none⟩,  -- SLU_CMD
    ⟨0x88, 1, 0x0, .ro, 0x0, 0x0, false, [], none⟩,  -- SLU_STAT
    ⟨0x90, 1, 0x0, .rwl, 0x0, 0xFFFFFFFF, false, [], none⟩,  -- SLU_ADMIN_BASE_LO
    ⟨0x94, 1, 0x0, .rwl, 0x0, 0xFFFFFFFF, false, [], none⟩,  -- SLU_ADMIN_BASE_HI
    ⟨0x98, 1, 0x0, .rwl, 0xF4240, 0xFFFFFFFF, false, [], none⟩,  -- SLU_ADMIN_CYCLE
    ⟨0x9C, 1, 0x0, .rwl, 0x0, 0xFFFFFFFF, false, [], none⟩,  -- SLU_ADMIN_EXT
    ⟨0xA0, 1, 0x0, .rwl, 0x1, 0x7FF, false, [], none⟩,  -- SLU_ADMIN_LEN
    ⟨0xA4, 1, 0x0, .rwl, 0xFF, 0xFF, false, [], none⟩,  -- SLU_ADMIN_DEF
    ⟨0xB0, 1, 0x0, .pair, 0x0, 0x0, false, [], none⟩,  -- SLU_OPER_BASE
    ⟨0xB8, 1, 0x0, .ro, 0x0, 0x0, false, [], none⟩,  -- SLU_OPER_CYCLE
    ⟨0xBC, 1, 0x0, .ro, 0x0, 0x0, false, [], none⟩,  -- SLU_OPER_EXT
    ⟨0xC0, 1, 0x0, .ro, 0x0, 0x0, false, [], none⟩,  -- SLU_OPER_LEN
    ⟨0xC8, 1, 0x0, .pair, 0x0, 0x0, false, [], none⟩,  -- SLU_CHANGE_TIME
    ⟨0xD0, 1, 0x0, .rw, 0x0, 0x303FF, false, [], none⟩,  -- SLU_GCL_SEL
    ⟨0xD4, 1, 0x0, .rwl, 0xFF, 0xFFFFFFFF, false, [], none⟩,  -- SLU_GCL_D0
    ⟨0xD8, 1, 0x0, .rwl, 0xF4240, 0xFFFFFFFF, false, [], none⟩,  -- SLU_GCL_D1
    ⟨0xE0, 1, 0x0, .evt, 0x0, 0x0, false, [], none⟩,  -- SLU_OVERRUN
    ⟨0xE4, 1, 0x0, .evt, 0x0, 0x0, false, [], none⟩,  -- SLU_TOO_BIG
    ⟨0xE8, 1, 0x0, .evt, 0x0, 0x0, false, [], none⟩,  -- SLU_CFG_ERR
    ⟨0xF0, 1, 0x0, .stat, 0x0, 0x0, false, [], none⟩ ]  -- SLU_CHANGES

/-- Register map of BUD. -/
def budRegs : List RegDesc :=
  [ ⟨0x80, 1, 0x0, .rwl, 0x0, 0x1, false, [], none⟩,  -- BUD_CFG
    ⟨0x84, 1, 0x0, .ro, 0x0, 0x0, false, [], none⟩,  -- BUD_STAT
    ⟨0x88, 1, 0x0, .ro, 0x0, 0x0, false, [], none⟩,  -- BUD_LAST_TIME
    ⟨0x90, 1, 0x0, .stat, 0x0, 0x0, false, [], none⟩,  -- BUD_ADMITTED
    ⟨0x98, 1, 0x0, .stat, 0x0, 0x0, false, [], none⟩,  -- BUD_REFUSED
    ⟨0xA0, 1, 0x0, .evt, 0x0, 0x0, false, [], none⟩,  -- BUD_VIOLATED
    ⟨0xA4, 1, 0x0, .evt, 0x0, 0x0, false, [], none⟩,  -- BUD_CFG_REJ
    ⟨0xA8, 1, 0x0, .ro, 0x0, 0x0, false, [], none⟩,  -- BUD_LOST_IDX
    ⟨0xC0, 1, 0x0, .wo, 0x0, 0xF, true, [], none⟩,  -- BUD_CMD
    ⟨0xC4, 1, 0x0, .rw, 0x0, 0x3FF, true, [], none⟩,  -- BUD_INDEX
    ⟨0x100, 1, 0x0, .rw, 0x0, 0xFFFFFF, true, [], none⟩,  -- BUD_REQ[0]
    ⟨0x104, 1, 0x0, .rw, 0x0, 0xFFFF3FFF, true, [], none⟩,  -- BUD_REQ[1]
    ⟨0x108, 1, 0x0, .rw, 0x0, 0xFFFFFFFF, true, [], none⟩,  -- BUD_REQ[2]
    ⟨0x10C, 1, 0x0, .rw, 0x0, 0xFFFFFFFF, true, [], none⟩,  -- BUD_REQ[3]
    ⟨0x110, 1, 0x0, .rw, 0x0, 0x0, true, [], none⟩,  -- BUD_REQ[4]
    ⟨0x200, 1, 0x0, .rv, 0x0, 0x0, true, [], none⟩,  -- BUD_RES_STAT
    ⟨0x204, 1, 0x0, .wo, 0x0, 0xFFFF, true, [], none⟩,  -- BUD_RES_ACK
    ⟨0x240, 8, 0x4, .rv, 0x0, 0x0, true, [], none⟩ ]  -- BUD_RES_DATA

/-- Register map of HAD. -/
def hadRegs : List RegDesc :=
  [ ⟨0x80, 1, 0x0, .rwl, 0x3141800, 0xFFFFF01, false, [⟨8, 8, 1, 168, false⟩, ⟨16, 8, 1, 255, false⟩, ⟨24, 4, 1, 15, false⟩], none⟩,  -- HAD_CFG
    ⟨0x84, 1, 0x0, .rwl, 0x3C, 0xFF, false, [⟨0, 8, 1, 255, false⟩], none⟩,  -- HAD_CFG1
    ⟨0x88, 1, 0x0, .rwl, 0xDBBA0, 0xFFFFFF, false, [], none⟩,  -- HAD_LIFE_WARN
    ⟨0x8C, 1, 0x0, .rwl, 0x5A7E4210, 0xFFFFFFFF, false, [], none⟩,  -- HAD_GRP_LO
    ⟨0x90, 1, 0x0, .rwl, 0x3, 0xFF, false, [], none⟩,  -- HAD_GRP_HI
    ⟨0xA0, 1, 0x0, .rwl, 0x43D12, 0xFFFFFFFF, false, [], none⟩,  -- HAD_LIFE_W0
    ⟨0xA4, 1, 0x0, .rwl, 0xCB735, 0xFFFFFFFF, false, [], none⟩,  -- HAD_LIFE_W1
    ⟨0xA8, 1, 0x0, .rwl, 0x4C4B40, 0xFFFFFFFF, false, [], none⟩,  -- HAD_LIFE_W2
    ⟨0xAC, 1, 0x0, .rwl, 0x21E89, 0xFFFFFFFF, false, [], none⟩,  -- HAD_LIFE_W3
    ⟨0xC0, 1, 0x0, .stat, 0x0, 0x0, false, [], none⟩,  -- HAD_ADMITS
    ⟨0xC8, 1, 0x0, .evt, 0x0, 0x0, false, [], none⟩,  -- HAD_UNKNOWN
    ⟨0xCC, 1, 0x0, .evt, 0x0, 0x0, false, [], none⟩,  -- HAD_BAD_SIG
    ⟨0xD0, 1, 0x0, .evt, 0x0, 0x0, false, [], none⟩,  -- HAD_NO_RESP
    ⟨0xD4, 1, 0x0, .evt, 0x0, 0x0, false, [], none⟩,  -- HAD_STALE_MSG
    ⟨0xD8, 1, 0x0, .evt, 0x0, 0x0, false, [], none⟩,  -- HAD_BAD_MSG
    ⟨0xDC, 1, 0x0, .evt, 0x0, 0x0, false, [], none⟩,  -- HAD_DUP_KEY
    ⟨0xE0, 1, 0x0, .evt, 0x0, 0x0, false, [], none⟩,  -- HAD_LIFE_ROLLBACK
    ⟨0xE4, 1, 0x0, .evt, 0x0, 0x0, false, [], none⟩,  -- HAD_VAULT_FAIL
    ⟨0xF0, 1, 0x0, .wo, 0x0, 0x73F0F, true, [], none⟩,  -- HAD_CMD
    ⟨0x100, 8, 0x10, .rwl, 0x0, 0x1, false, [], none⟩,  -- HAD_PORT_CFG
    ⟨0x104, 8, 0x10, .ro, 0x8, 0x0, false, [], none⟩,  -- HAD_PORT_STAT
    ⟨0x108, 8, 0x10, .stat, 0x0, 0x0, false, [], none⟩,  -- HAD_GATE_DROP
    ⟨0x180, 8, 0x4, .ro, 0x0, 0x0, false, [], none⟩,  -- HAD_CAND_DIG
    ⟨0x1A0, 1, 0x0, .ro, 0x0, 0x0, false, [], none⟩ ] ++  -- HAD_CAND_PORT
  [ ⟨0x200, 1, 0x0, .rv, 0x0, 0x0, true, [], none⟩,  -- HAD_RES_STAT
    ⟨0x204, 1, 0x0, .wo, 0x0, 0xFFFF, true, [], none⟩,  -- HAD_RES_ACK
    ⟨0x240, 16, 0x4, .rv, 0x0, 0x0, true, [], none⟩ ]  -- HAD_RES_DATA

/-- Register map of FGD. -/
def fgdRegs : List RegDesc :=
  [ ⟨0x80, 1, 0x0, .rwl, 0x0, 0x3, false, [], none⟩,  -- FGD_CFG
    ⟨0x84, 1, 0x0, .rw, 0x0, 0x3F, true, [], none⟩,  -- FGD_SEL
    ⟨0x88, 1, 0x0, .wo, 0x0, 0x3, true, [], none⟩,  -- FGD_CMD
    ⟨0x90, 1, 0x0, .rw, 0xA000800, 0xFFFFFF07, true, [], none⟩,  -- FGD_VCFG0
    ⟨0x94, 1, 0x0, .rw, 0x411B, 0xFFFFF, true, [], none⟩,  -- FGD_VCFG1
    ⟨0x98, 1, 0x0, .rw, 0x9C40, 0xFFFFF, true, [], none⟩,  -- FGD_VCFG2
    ⟨0x9C, 1, 0x0, .rw, 0x0, 0xFFFFF, true, [], none⟩,  -- FGD_VCFG3
    ⟨0xA0, 1, 0x0, .rw, 0x400410, 0x1FFF1FFF, true, [], none⟩,  -- FGD_VCFG4
    ⟨0xA4, 1, 0x0, .rw, 0x0, 0xFFFFFFFF, true, [], none⟩,  -- FGD_VCFG5
    ⟨0xA8, 1, 0x0, .rw, 0x0, 0xFFFFFFFF, true, [], none⟩,  -- FGD_VCFG6
    ⟨0xAC, 1, 0x0, .rw, 0x0, 0xFF, true, [], none⟩,  -- FGD_VCFG7
    ⟨0xC0, 1, 0x0, .stat, 0x0, 0x0, false, [], (some (0x84, 6))⟩,  -- FGD_VIDEO
    ⟨0xC8, 1, 0x0, .stat, 0x0, 0x0, false, [], (some (0x84, 6))⟩,  -- FGD_FRESH
    ⟨0xD0, 1, 0x0, .stat, 0x0, 0x0, false, [], (some (0x84, 6))⟩,  -- FGD_VF_LOST
    ⟨0xD8, 1, 0x0, .stat, 0x0, 0x0, false, [], (some (0x84, 6))⟩,  -- FGD_RSEQ
    ⟨0xE0, 1, 0x0, .ro, 0x0, 0x0, false, [], (some (0x84, 6))⟩,  -- FGD_LAST_STATUS
    ⟨0xE4, 1, 0x0, .ro, 0x0, 0x0, false, [], (some (0x84, 6))⟩,  -- FGD_LAST_AGE
    ⟨0xE8, 1, 0x0, .ro, 0x0, 0x0, false, [], (some (0x84, 6))⟩,  -- FGD_LAST_DIGEST
    ⟨0xF0, 1, 0x0, .evt, 0x0, 0x0, false, [], (some (0x84, 6))⟩,  -- FGD_STALE_EVT
    ⟨0xF4, 1, 0x0, .evt, 0x0, 0x0, false, [], (some (0x84, 6))⟩,  -- FGD_FROZEN_EVT
    ⟨0xF8, 1, 0x0, .evt, 0x0, 0x0, false, [], (some (0x84, 6))⟩,  -- FGD_REPLAY_EVT
    ⟨0xFC, 1, 0x0, .evt, 0x0, 0x0, false, [], (some (0x84, 6))⟩,  -- FGD_AGE_EVT
    ⟨0x100, 1, 0x0, .evt, 0x0, 0x0, false, [], (some (0x84, 6))⟩,  -- FGD_BOUNDARY_EVT
    ⟨0x104, 1, 0x0, .evt, 0x0, 0x0, false, [], (some (0x84, 6))⟩ ] ++  -- FGD_FOREIGN
  [ ⟨0x108, 1, 0x0, .evt, 0x0, 0x0, false, [], none⟩,  -- FGD_NOKEY
    ⟨0x10C, 1, 0x0, .evt, 0x0, 0x0, false, [], none⟩,  -- FGD_REJ
    ⟨0x110, 1, 0x0, .ro, 0x0, 0x0, false, [], none⟩,  -- FGD_EVT_CAP
    ⟨0x400, 64, 0x4, .ro, 0x0, 0x0, false, [], none⟩ ]  -- FGD_VSTAT

/-- Register map of FRE. -/
def freRegs : List RegDesc :=
  [ ⟨0x80, 1, 0x0, .rw, 0x0, 0xFF, true, [], none⟩,  -- FRE_SEL
    ⟨0x84, 1, 0x0, .wo, 0x0, 0x7, true, [], none⟩,  -- FRE_CMD
    ⟨0x90, 1, 0x0, .rw, 0x0, 0xFFFF3F1F, true, [], none⟩,  -- FRE_DATA[0]
    ⟨0x94, 1, 0x0, .rw, 0x0, 0x3FFFFFF, true, [], none⟩,  -- FRE_DATA[1]
    ⟨0x98, 1, 0x0, .rw, 0x0, 0x7FFFFFF, true, [], none⟩,  -- FRE_DATA[2]
    ⟨0x9C, 1, 0x0, .rw, 0x0, 0xFFFF, true, [], none⟩,  -- FRE_DATA[3]
    ⟨0xA0, 1, 0x0, .ro, 0x0, 0x0, false, [], (some (0x80, 8))⟩,  -- FRE_SEQ
    ⟨0xB0, 1, 0x0, .stat, 0x0, 0x0, false, [], (some (0x80, 8))⟩,  -- FRE_PASSED
    ⟨0xB8, 1, 0x0, .stat, 0x0, 0x0, false, [], (some (0x80, 8))⟩,  -- FRE_DISCARDED
    ⟨0xC0, 1, 0x0, .stat, 0x0, 0x0, false, [], (some (0x80, 8))⟩,  -- FRE_OOO
    ⟨0xC8, 1, 0x0, .stat, 0x0, 0x0, false, [], (some (0x80, 8))⟩,  -- FRE_ROGUE
    ⟨0xD0, 1, 0x0, .stat, 0x0, 0x0, false, [], (some (0x80, 8))⟩,  -- FRE_LOST
    ⟨0xD8, 1, 0x0, .stat, 0x0, 0x0, false, [], (some (0x80, 8))⟩,  -- FRE_TAGLESS
    ⟨0xE0, 1, 0x0, .evt, 0x0, 0x0, false, [], (some (0x80, 8))⟩,  -- FRE_RESETS
    ⟨0xE4, 1, 0x0, .evt, 0x0, 0x0, false, [], (some (0x80, 8))⟩,  -- FRE_LATENT
    ⟨0xE8, 1, 0x0, .evt, 0x0, 0x0, false, [], none⟩ ]  -- FRE_REJ

/-- Register map of EPT. -/
def eptRegs : List RegDesc :=
  [ ⟨0x80, 1, 0x0, .rwl, 0x0, 0xFF13, false, [], none⟩,  -- EPT_CFG
    ⟨0x84, 1, 0x0, .ro, 0x0, 0x0, false, [], none⟩,  -- EPT_STAT
    ⟨0x88, 1, 0x0, .wo, 0x0, 0x7, false, [], none⟩,  -- EPT_CMD
    ⟨0x8C, 1, 0x0, .rwl, 0x1E, 0xFF, false, [⟨0, 8, 1, 255, false⟩], none⟩,  -- EPT_TRAIN
    ⟨0x90, 1, 0x0, .rwl, 0x200100, 0xFFFFF01, false, [⟨12, 5, 1, 16, false⟩, ⟨17, 7, 1, 127, false⟩], none⟩,  -- EPT_PLCA
    ⟨0x94, 1, 0x0, .rwl, 0x80, 0xFF, false, [], none⟩,  -- EPT_PLCA_BURST
    ⟨0x98, 1, 0x0, .rwl, 0x6, 0xFF0F, false, [], none⟩,  -- EPT_TC10
    ⟨0x9C, 1, 0x0, .w1c, 0x0, 0x7, false, [], none⟩,  -- EPT_WAKE_CAP
    ⟨0xA0, 1, 0x0, .rwl, 0x0, 0x73, false, [], none⟩,  -- EPT_SERDES
    ⟨0xA4, 1, 0x0, .rwl, 0x3000, 0x3F3F3F, false, [], none⟩,  -- EPT_EQ
    ⟨0xA8, 1, 0x0, .ro, 0x0, 0x0, false, [], none⟩,  -- EPT_SQI
    ⟨0x100, 1, 0x0, .stat, 0x0, 0x0, false, [], none⟩,  -- EPT_RX_FRAMES
    ⟨0x108, 1, 0x0, .stat, 0x0, 0x0, false, [], none⟩,  -- EPT_RX_BYTES
    ⟨0x110, 1, 0x0, .stat, 0x0, 0x0, false, [], none⟩,  -- EPT_RX_UCAST
    ⟨0x118, 1, 0x0, .stat, 0x0, 0x0, false, [], none⟩,  -- EPT_RX_MCAST
    ⟨0x120, 1, 0x0, .stat, 0x0, 0x0, false, [], none⟩,  -- EPT_RX_BCAST
    ⟨0x128, 1, 0x0, .stat, 0x0, 0x0, false, [], none⟩,  -- EPT_RX_FCS_ERR
    ⟨0x130, 1, 0x0, .stat, 0x0, 0x0, false, [], none⟩,  -- EPT_RX_LONG
    ⟨0x138, 1, 0x0, .stat, 0x0, 0x0, false, [], none⟩,  -- EPT_RX_SYMBOL_ERR
    ⟨0x140, 1, 0x0, .stat, 0x0, 0x0, false, [], none⟩,  -- EPT_TX_FRAMES
    ⟨0x148, 1, 0x0, .stat, 0x0, 0x0, false, [], none⟩,  -- EPT_TX_BYTES
    ⟨0x150, 1, 0x0, .stat, 0x0, 0x0, false, [], none⟩,  -- EPT_TX_UCAST
    ⟨0x158, 1, 0x0, .stat, 0x0, 0x0, false, [], none⟩,  -- EPT_TX_MCAST
    ⟨0x160, 1, 0x0, .stat, 0x0, 0x0, false, [], none⟩ ] ++  -- EPT_TX_BCAST
  [ ⟨0x168, 1, 0x0, .stat, 0x0, 0x0, false, [], none⟩,  -- EPT_RX_FEC_CORR
    ⟨0x170, 1, 0x0, .stat, 0x0, 0x0, false, [], none⟩,  -- EPT_RX_FEC_UNCORR
    ⟨0x180, 1, 0x0, .evt, 0x0, 0x0, false, [], none⟩,  -- EPT_LINK_DOWN
    ⟨0x184, 1, 0x0, .evt, 0x0, 0x0, false, [], none⟩,  -- EPT_TRAIN_FAIL
    ⟨0x188, 1, 0x0, .evt, 0x0, 0x0, false, [], none⟩,  -- EPT_TX_LINK_ABORT
    ⟨0x18C, 1, 0x0, .evt, 0x0, 0x0, false, [], none⟩,  -- EPT_TC10_REJ
    ⟨0x190, 1, 0x0, .evt, 0x0, 0x0, false, [], none⟩,  -- EPT_TC10_WAKE
    ⟨0x194, 1, 0x0, .evt, 0x0, 0x0, false, [], none⟩,  -- EPT_PLCA_ERR
    ⟨0x198, 1, 0x0, .evt, 0x0, 0x0, false, [], none⟩,  -- EPT_COLL
    ⟨0x19C, 1, 0x0, .evt, 0x0, 0x0, false, [], none⟩,  -- EPT_COLL_DROP
    ⟨0x1A0, 1, 0x0, .evt, 0x0, 0x0, false, [], none⟩ ]  -- EPT_HI_BER

/-- Register map of CAN. -/
def canRegs : List RegDesc :=
  [ ⟨0x80, 1, 0x0, .rwl, 0x30, 0xFF0F3F, false, [], none⟩,  -- CAN_MODE
    ⟨0x84, 1, 0x0, .rwl, 0xA0A4504, 0xFF7FFF7F, false, [⟨0, 7, 1, 64, false⟩, ⟨8, 8, 2, 255, false⟩, ⟨16, 7, 2, 127, false⟩, ⟨24, 7, 1, 127, false⟩], none⟩,  -- CAN_NBT
    ⟨0x88, 1, 0x0, .rwl, 0xA0A1D02, 0x1F1F3F3F, false, [⟨0, 6, 1, 32, false⟩, ⟨8, 6, 1, 63, false⟩, ⟨16, 5, 1, 31, false⟩, ⟨24, 5, 1, 31, false⟩], none⟩,  -- CAN_DBT
    ⟨0x8C, 1, 0x0, .rwl, 0x4040B01, 0x1F1F3F3F, false, [⟨0, 6, 1, 32, false⟩, ⟨8, 6, 1, 63, false⟩, ⟨16, 5, 1, 31, false⟩, ⟨24, 5, 1, 31, false⟩], none⟩,  -- CAN_XBT
    ⟨0x90, 1, 0x0, .rwl, 0x3C01, 0x7F7F01, false, [], none⟩,  -- CAN_TDC
    ⟨0x94, 1, 0x0, .rwl, 0xC01, 0x7F7F01, false, [], none⟩,  -- CAN_XTDC
    ⟨0x98, 1, 0x0, .rwl, 0xC04, 0x13F3F3F, false, [], none⟩,  -- CAN_PWM
    ⟨0x9C, 1, 0x0, .rwl, 0x0, 0xFF, false, [], none⟩,  -- CAN_TS_COMP
    ⟨0xA0, 1, 0x0, .rwl, 0x0, 0xFFFF, false, [], none⟩,  -- CAN_TXL_CFG
    ⟨0xA4, 1, 0x0, .rwl, 0x0, 0x1FFF0FFF, false, [], none⟩,  -- CAN_L1_CFG
    ⟨0xA8, 1, 0x0, .ro, 0x0, 0x0, false, [], none⟩,  -- CAN_STAT
    ⟨0xAC, 1, 0x0, .wo, 0x0, 0x7, false, [], none⟩,  -- CAN_CMD
    ⟨0xB0, 1, 0x0, .ro, 0x0, 0x0, false, [], none⟩,  -- CAN_LAST_ERR
    ⟨0xB4, 1, 0x0, .ro, 0x0, 0x0, false, [], none⟩,  -- CAN_LAST_ERR_ID
    ⟨0x100, 1, 0x0, .stat, 0x0, 0x0, false, [], none⟩,  -- CAN_RX_FRAMES
    ⟨0x108, 1, 0x0, .stat, 0x0, 0x0, false, [], none⟩,  -- CAN_RX_BYTES
    ⟨0x110, 1, 0x0, .stat, 0x0, 0x0, false, [], none⟩,  -- CAN_RX_RTR
    ⟨0x118, 1, 0x0, .stat, 0x0, 0x0, false, [], none⟩,  -- CAN_TX_FRAMES
    ⟨0x120, 1, 0x0, .stat, 0x0, 0x0, false, [], none⟩,  -- CAN_TX_BYTES
    ⟨0x128, 1, 0x0, .stat, 0x0, 0x0, false, [], none⟩,  -- CAN_TX_ARB_LOST
    ⟨0x130, 1, 0x0, .stat, 0x0, 0x0, false, [], none⟩,  -- CAN_TXL_FULL
    ⟨0x138, 1, 0x0, .stat, 0x0, 0x0, false, [], none⟩,  -- CAN_TXL_AGED
    ⟨0x140, 1, 0x0, .stat, 0x0, 0x0, false, [], none⟩,  -- CAN_TXL_FLUSH
    ⟨0x148, 1, 0x0, .stat, 0x0, 0x0, false, [], none⟩ ] ++  -- CAN_TX_FORM
  [ ⟨0x180, 1, 0x0, .evt, 0x0, 0x0, false, [], none⟩,  -- CAN_BIT_ERR
    ⟨0x184, 1, 0x0, .evt, 0x0, 0x0, false, [], none⟩,  -- CAN_STUFF_ERR
    ⟨0x188, 1, 0x0, .evt, 0x0, 0x0, false, [], none⟩,  -- CAN_FORM_ERR
    ⟨0x18C, 1, 0x0, .evt, 0x0, 0x0, false, [], none⟩,  -- CAN_CRC_ERR
    ⟨0x190, 1, 0x0, .evt, 0x0, 0x0, false, [], none⟩,  -- CAN_ACK_ERR
    ⟨0x194, 1, 0x0, .evt, 0x0, 0x0, false, [], none⟩,  -- CAN_BUS_OFF
    ⟨0x198, 1, 0x0, .evt, 0x0, 0x0, false, [], none⟩,  -- CAN_ID_COLLISION
    ⟨0x19C, 1, 0x0, .evt, 0x0, 0x0, false, [], none⟩,  -- CAN_PEX
    ⟨0x1A0, 1, 0x0, .evt, 0x0, 0x0, false, [], none⟩,  -- CAN_RXQ_OVF
    ⟨0x1A4, 1, 0x0, .evt, 0x0, 0x0, false, [], none⟩,  -- CAN_RETX_ABORT
    ⟨0x1A8, 1, 0x0, .evt, 0x0, 0x0, false, [], none⟩,  -- CAN_CFG_ERR
    ⟨0x1C0, 4, 0x4, .evt, 0x0, 0x0, false, [], none⟩,  -- CAN_L0_LOST
    ⟨0x200, 4, 0x10, .rwl, 0x0, 0x1FFFFFFF, false, [], none⟩,  -- CAN_L0_ID
    ⟨0x204, 4, 0x10, .rwl, 0x1FFFFFFF, 0x1FFFFFFF, false, [], none⟩,  -- CAN_L0_MASK
    ⟨0x208, 4, 0x10, .rwl, 0x0, 0x7F, false, [], none⟩,  -- CAN_L0_CFG
    ⟨0x20C, 4, 0x10, .w1c, 0x0, 0x1, false, [], none⟩,  -- CAN_L0_STAT
    ⟨0x400, 20, 0x4, .ro, 0x0, 0x0, false, [], none⟩,  -- CAN_L0_BUF0
    ⟨0x480, 20, 0x4, .ro, 0x0, 0x0, false, [], none⟩,  -- CAN_L0_BUF1
    ⟨0x500, 20, 0x4, .ro, 0x0, 0x0, false, [], none⟩,  -- CAN_L0_BUF2
    ⟨0x580, 20, 0x4, .ro, 0x0, 0x0, false, [], none⟩,  -- CAN_L0_BUF3
    ⟨0x600, 20, 0x4, .ro, 0x0, 0x0, false, [], none⟩,  -- CAN_RXQ
    ⟨0x650, 1, 0x0, .ro, 0x0, 0x0, false, [], none⟩ ]  -- CAN_RXQ_STAT

/-- Register map of LIN. -/
def linRegs : List RegDesc :=
  [ ⟨0x80, 1, 0x0, .rwl, 0x40D00, 0xF1F01, false, [⟨8, 5, 13, 26, false⟩, ⟨16, 4, 4, 10, false⟩], none⟩,  -- LIN_CFG
    ⟨0x84, 1, 0x0, .rwl, 0x4B00, 0x7FFF, false, [⟨0, 15, 1000, 20000, false⟩], none⟩,  -- LIN_RATE
    ⟨0x88, 1, 0x0, .wo, 0x0, 0x7, false, [], none⟩,  -- LIN_CMD
    ⟨0x8C, 1, 0x0, .ro, 0x0, 0x0, false, [], none⟩,  -- LIN_STAT
    ⟨0x90, 1, 0x0, .rwl, 0x0, 0x3, false, [], none⟩,  -- LIN_SCHED_SEL
    ⟨0x94, 4, 0x4, .rwl, 0x0, 0x7F3F, false, [⟨8, 7, 0, 64, false⟩], none⟩,  -- LIN_TABLE
    ⟨0xA4, 1, 0x0, .rwl, 0x0, 0xF73F, false, [], none⟩,  -- LIN_RESP_ERR
    ⟨0x100, 64, 0x4, .rwl, 0x20, 0x7F, false, [⟨2, 4, 1, 8, false⟩], none⟩,  -- LIN_FRAME
    ⟨0x200, 64, 0x8, .rwl, 0x0, 0xFFFF3F07, false, [], none⟩,  -- LIN_SCHED_LO
    ⟨0x204, 64, 0x8, .rwl, 0x3F3F3F3F, 0x3F3F3F3F, false, [], none⟩,  -- LIN_SCHED_HI
    ⟨0x400, 64, 0x8, .ro, 0x0, 0x0, false, [], none⟩,  -- LIN_PUB_LO
    ⟨0x404, 64, 0x8, .ro, 0x0, 0x0, false, [], none⟩,  -- LIN_PUB_HI
    ⟨0x600, 1, 0x0, .stat, 0x0, 0x0, false, [], none⟩,  -- LIN_RX_FRAMES
    ⟨0x608, 1, 0x0, .stat, 0x0, 0x0, false, [], none⟩,  -- LIN_TX_FRAMES
    ⟨0x610, 1, 0x0, .stat, 0x0, 0x0, false, [], none⟩,  -- LIN_TXFORM_FRAMES
    ⟨0x620, 1, 0x0, .evt, 0x0, 0x0, false, [], none⟩,  -- LIN_CHK_ERR
    ⟨0x624, 1, 0x0, .evt, 0x0, 0x0, false, [], none⟩,  -- LIN_NO_RESP
    ⟨0x628, 1, 0x0, .evt, 0x0, 0x0, false, [], none⟩,  -- LIN_FRAMING
    ⟨0x62C, 1, 0x0, .evt, 0x0, 0x0, false, [], none⟩,  -- LIN_BIT_ERR
    ⟨0x630, 1, 0x0, .evt, 0x0, 0x0, false, [], none⟩,  -- LIN_SYNC_ERR
    ⟨0x634, 1, 0x0, .evt, 0x0, 0x0, false, [], none⟩,  -- LIN_COLLISION
    ⟨0x638, 1, 0x0, .evt, 0x0, 0x0, false, [], none⟩,  -- LIN_NO_DATA
    ⟨0x63C, 1, 0x0, .evt, 0x0, 0x0, false, [], none⟩,  -- LIN_CFG_ERR
    ⟨0x640, 1, 0x0, .evt, 0x0, 0x0, false, [], none⟩ ] ++  -- LIN_WAKE_RX
  [ ⟨0x644, 1, 0x0, .evt, 0x0, 0x0, false, [], none⟩ ]  -- LIN_TX_FORM

/-- Register map of CFL. -/
def cflRegs : List RegDesc :=
  [ ⟨0x80, 1, 0x0, .rwl, 0x57F00, 0xFF7F03, false, [], none⟩,  -- CFL_CFG
    ⟨0x84, 1, 0x0, .ro, 0x0, 0x0, false, [], none⟩,  -- CFL_STAT
    ⟨0x88, 1, 0x0, .rw, 0x0, 0x7FFF, true, [], none⟩,  -- CFL_VAL_SEL
    ⟨0x8C, 1, 0x0, .ro, 0x0, 0x0, false, [], (some (0x88, 15))⟩,  -- CFL_VAL
    ⟨0x90, 1, 0x0, .ro, 0x0, 0x0, false, [], (some (0x88, 15))⟩,  -- CFL_VAL_STAT
    ⟨0x94, 1, 0x0, .ro, 0x0, 0x0, false, [], none⟩,  -- CFL_EVT_CAP
    ⟨0xA0, 1, 0x0, .stat, 0x0, 0x0, false, [], none⟩,  -- CFL_RX_PDU
    ⟨0xA8, 1, 0x0, .stat, 0x0, 0x0, false, [], none⟩,  -- CFL_TX_PDU
    ⟨0xB0, 1, 0x0, .stat, 0x0, 0x0, false, [], none⟩,  -- CFL_OPS
    ⟨0xB8, 1, 0x0, .stat, 0x0, 0x0, false, [], none⟩,  -- CFL_TUN_MSG_TX
    ⟨0xC0, 1, 0x0, .stat, 0x0, 0x0, false, [], none⟩,  -- CFL_TUN_MSG_RX
    ⟨0x100, 1, 0x0, .evt, 0x0, 0x0, false, [], none⟩,  -- CFL_NO_PDU
    ⟨0x104, 1, 0x0, .evt, 0x0, 0x0, false, [], none⟩,  -- CFL_SHORT
    ⟨0x108, 1, 0x0, .evt, 0x0, 0x0, false, [], none⟩,  -- CFL_AUTH_DROP
    ⟨0x10C, 1, 0x0, .evt, 0x0, 0x0, false, [], none⟩,  -- CFL_TIMEOUT
    ⟨0x110, 1, 0x0, .evt, 0x0, 0x0, false, [], none⟩,  -- CFL_RANGE
    ⟨0x114, 1, 0x0, .evt, 0x0, 0x0, false, [], none⟩,  -- CFL_SAT
    ⟨0x118, 1, 0x0, .evt, 0x0, 0x0, false, [], none⟩,  -- CFL_LATE
    ⟨0x11C, 1, 0x0, .evt, 0x0, 0x0, false, [], none⟩,  -- CFL_CFG_ERR
    ⟨0x120, 1, 0x0, .evt, 0x0, 0x0, false, [], none⟩,  -- CFL_TUN_BAD
    ⟨0x124, 1, 0x0, .evt, 0x0, 0x0, false, [], none⟩,  -- CFL_TUN_SEQ
    ⟨0x128, 1, 0x0, .evt, 0x0, 0x0, false, [], none⟩,  -- CFL_TUN_FRAG_ERR
    ⟨0x12C, 1, 0x0, .evt, 0x0, 0x0, false, [], none⟩ ]  -- CFL_TUN_MAP

/-- Register map of TIM. -/
def timRegs : List RegDesc :=
  [ ⟨0x80, 1, 0x0, .rwl, 0x70, 0x77, false, [], none⟩,  -- TIM_CFG
    ⟨0x84, 1, 0x0, .rwl, 0x20000, 0x3FFFF, false, [], none⟩,  -- TIM_FRC_INC
    ⟨0x90, 1, 0x0, .ro, 0x0, 0x0, false, [], none⟩,  -- TIM_FRC_LO
    ⟨0x94, 1, 0x0, .ro, 0x0, 0x0, false, [], none⟩,  -- TIM_FRC_FRAC
    ⟨0x98, 1, 0x0, .ro, 0x0, 0x0, false, [], none⟩,  -- TIM_FRC_HI
    ⟨0xA0, 1, 0x0, .ro, 0x0, 0x0, false, [], none⟩,  -- TIM_HFRC_MEAS
    ⟨0xA4, 1, 0x0, .ro, 0x77359400, 0x0, false, [], none⟩,  -- TIM_LF_PERIOD
    ⟨0xA8, 1, 0x0, .rwl, 0x320, 0xFFFF, false, [⟨0, 16, 1, 65535, false⟩], none⟩,  -- TIM_PDELAY_THRESH
    ⟨0x100, 23, 0x10, .rwl, 0x0, 0x3FF0F01, false, [⟨8, 4, -3, 3, true⟩], none⟩,  -- TIM_PORT_CFG
    ⟨0x104, 23, 0x10, .rwl, 0x0, 0xFFFFFFFF, false, [], none⟩,  -- TIM_PORT_LAT
    ⟨0x108, 23, 0x10, .ro, 0x0, 0x0, false, [], none⟩,  -- TIM_PDELAY
    ⟨0x10C, 23, 0x10, .ro, 0x0, 0x0, false, [], none⟩,  -- TIM_NRR
    ⟨0x280, 1, 0x0, .evt, 0x0, 0x0, false, [], none⟩,  -- TIM_FOREIGN
    ⟨0x284, 1, 0x0, .evt, 0x0, 0x0, false, [], none⟩,  -- TIM_CFG_ERR
    ⟨0x288, 1, 0x0, .evt, 0x0, 0x0, false, [], none⟩,  -- TIM_PDELAY_FAIL
    ⟨0x28C, 1, 0x0, .evt, 0x0, 0x0, false, [], none⟩,  -- TIM_SYNC_DROP
    ⟨0x290, 1, 0x0, .stat, 0x0, 0x0, false, [], none⟩,  -- TIM_RX_MSG
    ⟨0x298, 1, 0x0, .stat, 0x0, 0x0, false, [], none⟩ ]  -- TIM_TX_MSG

/-- Register map of DOM. -/
def domRegs : List RegDesc :=
  [ ⟨0x80, 1, 0x0, .rwl, 0x3D0000, 0xFFFF07, false, [⟨20, 4, 2, 15, false⟩, ⟨16, 4, -7, 0, true⟩], none⟩,  -- DOM_CFG
    ⟨0x84, 1, 0x0, .ro, 0x1F0, 0x0, false, [], none⟩,  -- DOM_STAT
    ⟨0x88, 1, 0x0, .wo, 0x0, 0xF, false, [], none⟩,  -- DOM_CMD
    ⟨0x8C, 1, 0x0, .rw, 0x0, 0xFFFFFFFF, false, [], none⟩,  -- DOM_ADJ_LO
    ⟨0x90, 1, 0x0, .rw, 0x0, 0xFFFFFFFF, false, [], none⟩,  -- DOM_ADJ_HI
    ⟨0xA0, 1, 0x0, .ro, 0x0, 0x0, false, [], none⟩,  -- DOM_TIME_LO
    ⟨0xA4, 1, 0x0, .ro, 0x0, 0x0, false, [], none⟩,  -- DOM_TIME_FRAC
    ⟨0xA8, 1, 0x0, .ro, 0x0, 0x0, false, [], none⟩,  -- DOM_TIME_HI
    ⟨0xB0, 1, 0x0, .ro, 0x0, 0x0, false, [], none⟩,  -- DOM_OFFSET_LO
    ⟨0xB4, 1, 0x0, .ro, 0x0, 0x0, false, [], none⟩,  -- DOM_OFFSET_FRAC
    ⟨0xB8, 1, 0x0, .ro, 0x0, 0x0, false, [], none⟩,  -- DOM_OFFSET_HI
    ⟨0xBC, 1, 0x0, .ro, 0x0, 0x0, false, [], none⟩,  -- DOM_RATE
    ⟨0xC0, 1, 0x0, .pair, 0x0, 0x0, false, [], none⟩,  -- DOM_EPOCH
    ⟨0xC8, 1, 0x0, .rwl, 0x3E8, 0xFFFFFF, false, [⟨0, 24, 10, 10000000, false⟩], none⟩,  -- DOM_JUMP_LIMIT
    ⟨0xCC, 1, 0x0, .rwl, 0x80A0410, 0xFFFFFFF, false, [⟨16, 8, 1, 255, false⟩, ⟨24, 4, 1, 15, false⟩], none⟩,  -- DOM_SERVO
    ⟨0xD0, 1, 0x0, .rwl, 0x68DB9, 0x3FFFFF, false, [⟨0, 22, 1, 2147483, false⟩], none⟩,  -- DOM_RATE_MAX
    ⟨0xD4, 1, 0x0, .rwl, 0x68DB9, 0x3FFFFF, false, [⟨0, 22, 1, 2147483, false⟩], none⟩,  -- DOM_SLEW_RATE
    ⟨0xD8, 1, 0x0, .ro, 0x0, 0x0, false, [], none⟩,  -- DOM_LAST_ERR
    ⟨0xE0, 1, 0x0, .stat, 0x0, 0x0, false, [], none⟩,  -- DOM_SYNC_RX
    ⟨0xE8, 1, 0x0, .stat, 0x0, 0x0, false, [], none⟩,  -- DOM_SYNC_TX
    ⟨0xF0, 1, 0x0, .evt, 0x0, 0x0, false, [], none⟩,  -- DOM_MASTER_JUMP
    ⟨0xF4, 1, 0x0, .evt, 0x0, 0x0, false, [], none⟩,  -- DOM_SYNC_TO
    ⟨0xF8, 1, 0x0, .evt, 0x0, 0x0, false, [], none⟩,  -- DOM_CMD_REJ
    ⟨0xFC, 1, 0x0, .evt, 0x0, 0x0, false, [], none⟩ ]  -- DOM_STEP_CNT

/-- Register map of SRV. -/
def srvRegs : List RegDesc :=
  [ ⟨0x0, 1, 0x0, .rw, 0x2, 0x3, false, [], none⟩,  -- SRV_CTRL
    ⟨0x4, 1, 0x0, .rw, 0x4000, 0xFFFF, false, [], none⟩,  -- SRV_KP
    ⟨0x8, 1, 0x0, .rw, 0x800, 0xFFFF, false, [], none⟩,  -- SRV_KI
    ⟨0xC, 1, 0x0, .rw, 0xC350, 0xFFFFFFFF, false, [], none⟩,  -- SRV_STEP_THR
    ⟨0x10, 1, 0x0, .rw, 0x30D40, 0xFFFFF, false, [], none⟩,  -- SRV_MAXFREQ
    ⟨0x14, 1, 0x0, .wo, 0x0, 0xFFFFFFFF, false, [], none⟩,  -- SRV_OFFSET
    ⟨0x18, 1, 0x0, .ro, 0x0, 0x0, false, [], none⟩,  -- SRV_FREQ
    ⟨0x1C, 1, 0x0, .ro, 0x0, 0x0, false, [], none⟩,  -- SRV_INTEG
    ⟨0x20, 1, 0x0, .ro, 0x0, 0x0, false, [], none⟩,  -- SRV_STAT
    ⟨0x24, 1, 0x0, .w1c, 0x0, 0x3, false, [], none⟩,  -- SRV_INT
    ⟨0x28, 1, 0x0, .rw, 0x0, 0x3, false, [], none⟩ ]  -- SRV_INT_EN

/-- Register map of VLT. -/
def vltRegs : List RegDesc :=
  [ ⟨0x80, 1, 0x0, .ro, 0x0, 0x0, false, [], none⟩,  -- VLT_STAT
    ⟨0x84, 1, 0x0, .rwl, 0xA030A, 0xFF0F3F, false, [⟨0, 6, 0, 60, false⟩, ⟨8, 4, 2, 15, false⟩, ⟨16, 8, 1, 255, false⟩], none⟩,  -- VLT_CFG
    ⟨0x88, 1, 0x0, .ro, 0x0, 0x0, false, [], none⟩,  -- VLT_BOOT_CNT
    ⟨0x8C, 1, 0x0, .ro, 0x0, 0x0, false, [], none⟩,  -- VLT_DSN_LO
    ⟨0x90, 1, 0x0, .ro, 0x0, 0x0, false, [], none⟩,  -- VLT_DSN_HI
    ⟨0x94, 1, 0x0, .ro, 0x0, 0x0, false, [], none⟩,  -- VLT_LATCH
    ⟨0x98, 1, 0x0, .rwl, 0xF000FF00, 0xFFFFFFFF, false, [], none⟩,  -- VLT_WARN
    ⟨0x9C, 1, 0x0, .rwl, 0x0, 0x1FF, false, [], none⟩,  -- VLT_NODE
    ⟨0xA0, 1, 0x0, .evt, 0x0, 0x0, false, [], none⟩,  -- VLT_GLITCH
    ⟨0xA4, 1, 0x0, .evt, 0x0, 0x0, false, [], none⟩,  -- VLT_TAMPER_ABORT
    ⟨0xA8, 1, 0x0, .evt, 0x0, 0x0, false, [], none⟩,  -- VLT_AUTH_FAIL
    ⟨0xAC, 1, 0x0, .evt, 0x0, 0x0, false, [], none⟩,  -- VLT_REFUSED
    ⟨0xB0, 1, 0x0, .evt, 0x0, 0x0, false, [], none⟩,  -- VLT_ORPHANED
    ⟨0xB4, 1, 0x0, .evt, 0x0, 0x0, false, [], none⟩,  -- VLT_KCV_FAIL
    ⟨0xC0, 1, 0x0, .wo, 0x0, 0xFF, true, [], none⟩,  -- VLT_CMD
    ⟨0xC4, 1, 0x0, .rw, 0x0, 0xFFF, true, [], none⟩,  -- VLT_LEN
    ⟨0xD0, 8, 0x4, .rw, 0x0, 0xFFFFFFFF, true, [], none⟩,  -- VLT_ARG
    ⟨0x200, 1, 0x0, .rv, 0x0, 0x0, true, [], none⟩,  -- VLT_RES_STAT
    ⟨0x204, 1, 0x0, .wo, 0x0, 0xFFFF, true, [], none⟩,  -- VLT_RES_ACK
    ⟨0x208, 1, 0x0, .rv, 0x0, 0x0, true, [], none⟩,  -- VLT_RES_LEN
    ⟨0x240, 8, 0x4, .rv, 0x0, 0x0, true, [], none⟩,  -- VLT_RES_DATA
    ⟨0x400, 128, 0x4, .rv, 0x0, 0x0, true, [], none⟩,  -- VLT_RES_BUF
    ⟨0x800, 512, 0x4, .rw, 0x0, 0xFFFFFFFF, true, [], none⟩ ]  -- VLT_BUF

/-- Register map of CAU. -/
def cauRegs : List RegDesc :=
  [ ⟨0x80, 1, 0x0, .rwl, 0xF0000000, 0xFFFFFFFF, false, [], none⟩,  -- CAU_WARN
    ⟨0x84, 1, 0x0, .rw, 0x0, 0x7FF, true, [], none⟩,  -- CAU_SEL
    ⟨0x88, 1, 0x0, .wo, 0x0, 0x7, true, [], none⟩,  -- CAU_CMD
    ⟨0x90, 1, 0x0, .rw, 0x0, 0xFFFF03FF, true, [], none⟩,  -- CAU_DATA[0]
    ⟨0x94, 1, 0x0, .rw, 0x0, 0x1FFFFFFF, true, [], none⟩,  -- CAU_DATA[1]
    ⟨0x98, 1, 0x0, .rw, 0x0, 0xFFFFFFF, true, [], none⟩,  -- CAU_DATA[2]
    ⟨0x9C, 1, 0x0, .rw, 0x0, 0xFF0FFF, true, [], none⟩,  -- CAU_DATA[3]
    ⟨0xA0, 1, 0x0, .rw, 0x0, 0xFFFF, true, [], none⟩,  -- CAU_DATA[4]
    ⟨0xA4, 1, 0x0, .rw, 0x0, 0xFFFFFFFF, true, [], none⟩,  -- CAU_DATA[5]
    ⟨0xB0, 1, 0x0, .ro, 0x0, 0x0, false, [], (some (0x84, 11))⟩,  -- CAU_ESTAT
    ⟨0xB4, 1, 0x0, .ro, 0x0, 0x0, false, [], none⟩,  -- CAU_FILL
    ⟨0xB8, 1, 0x0, .ro, 0x0, 0x0, false, [], none⟩,  -- CAU_LAST_FAIL
    ⟨0xC0, 1, 0x0, .stat, 0x0, 0x0, false, [], none⟩,  -- CAU_RX_OK
    ⟨0xC8, 1, 0x0, .stat, 0x0, 0x0, false, [], none⟩,  -- CAU_RX_FAIL
    ⟨0xD0, 1, 0x0, .stat, 0x0, 0x0, false, [], none⟩,  -- CAU_TX_AUTH
    ⟨0xE0, 1, 0x0, .evt, 0x0, 0x0, false, [], none⟩,  -- CAU_FAIL_MAC
    ⟨0xE4, 1, 0x0, .evt, 0x0, 0x0, false, [], none⟩,  -- CAU_FAIL_FRESH
    ⟨0xE8, 1, 0x0, .evt, 0x0, 0x0, false, [], none⟩,  -- CAU_FAIL_LEN
    ⟨0xEC, 1, 0x0, .evt, 0x0, 0x0, false, [], none⟩,  -- CAU_NOKEY
    ⟨0xF0, 1, 0x0, .evt, 0x0, 0x0, false, [], none⟩,  -- CAU_EXHAUSTED
    ⟨0xF4, 1, 0x0, .evt, 0x0, 0x0, false, [], none⟩,  -- CAU_TX_FORM
    ⟨0xF8, 1, 0x0, .evt, 0x0, 0x0, false, [], none⟩,  -- CAU_TX_FAILED
    ⟨0xFC, 1, 0x0, .evt, 0x0, 0x0, false, [], none⟩ ]  -- CAU_REJ

/-- Register map of LCE. -/
def lceRegs : List RegDesc :=
  [ ⟨0x80, 1, 0x0, .rwl, 0x18, 0xFFFF001F, false, [], none⟩,  -- LCE_PORT_CFG
    ⟨0x84, 1, 0x0, .rwl, 0x0, 0xFFFFFFFF, false, [], none⟩,  -- LCE_REPLAY_WIN
    ⟨0x88, 1, 0x0, .rw, 0x0, 0x3, false, [], none⟩,  -- LCE_TX_AN
    ⟨0x8C, 1, 0x0, .rwl, 0xC0000000, 0xFFFFFFFF, false, [], none⟩,  -- LCE_PN_WARN
    ⟨0x90, 1, 0x0, .rwl, 0xC0000000, 0xFFFFFFFF, false, [], none⟩,  -- LCE_XPN_WARN
    ⟨0x98, 1, 0x0, .rwl, 0x0, 0xFF, false, [], none⟩,  -- LCE_RXSC_EN
    ⟨0xA0, 8, 0x8, .rwl, 0x0, 0xFFFFFFFF, false, [], none⟩,  -- LCE_RXSC_LO
    ⟨0xA4, 8, 0x8, .rwl, 0x0, 0xFFFFFFFF, false, [], none⟩,  -- LCE_RXSC_HI
    ⟨0x100, 1, 0x0, .rw, 0x0, 0x1FF, true, [], none⟩,  -- LCE_SA_SEL
    ⟨0x104, 1, 0x0, .wo, 0x0, 0x7, true, [], none⟩,  -- LCE_SA_CMD
    ⟨0x110, 1, 0x0, .rw, 0x0, 0xFF01FF, true, [], none⟩,  -- LCE_SA_DATA[0]
    ⟨0x114, 1, 0x0, .rw, 0x0, 0xFFFFFFFF, true, [], none⟩,  -- LCE_SA_DATA[1]
    ⟨0x118, 1, 0x0, .rw, 0x0, 0xFFFFFFFF, true, [], none⟩,  -- LCE_SA_DATA[2]
    ⟨0x11C, 1, 0x0, .rw, 0x0, 0xFFFFFFFF, true, [], none⟩,  -- LCE_SA_DATA[3]
    ⟨0x120, 1, 0x0, .rw, 0x0, 0xFFFFFFFF, true, [], none⟩,  -- LCE_SA_DATA[4]
    ⟨0x124, 1, 0x0, .rw, 0x0, 0xFFFFFFFF, true, [], none⟩,  -- LCE_SA_DATA[5]
    ⟨0x128, 1, 0x0, .rw, 0x0, 0xFFFFFFFF, true, [], none⟩,  -- LCE_SA_DATA[6]
    ⟨0x12C, 1, 0x0, .rw, 0x0, 0x0, true, [], none⟩,  -- LCE_SA_DATA[7]
    ⟨0x130, 1, 0x0, .ro, 0x0, 0x0, false, [], (some (0x100, 9))⟩,  -- LCE_SA_STAT
    ⟨0x140, 1, 0x0, .stat, 0x0, 0x0, false, [], (some (0x100, 9))⟩,  -- LCE_SA_OK
    ⟨0x148, 1, 0x0, .stat, 0x0, 0x0, false, [], (some (0x100, 9))⟩,  -- LCE_SA_INVALID
    ⟨0x150, 1, 0x0, .stat, 0x0, 0x0, false, [], (some (0x100, 9))⟩,  -- LCE_SA_LATE
    ⟨0x158, 1, 0x0, .stat, 0x0, 0x0, false, [], (some (0x100, 9))⟩,  -- LCE_SA_TX
    ⟨0x180, 1, 0x0, .stat, 0x0, 0x0, false, [], none⟩,  -- LCE_RX_UNPROT
    ⟨0x188, 1, 0x0, .stat, 0x0, 0x0, false, [], none⟩,  -- LCE_RX_BYPASS
    ⟨0x190, 1, 0x0, .stat, 0x0, 0x0, false, [], none⟩,  -- LCE_TX_BYPASS
    ⟨0x1A0, 1, 0x0, .evt, 0x0, 0x0, false, [], none⟩,  -- LCE_BAD_TAG
    ⟨0x1A4, 1, 0x0, .evt, 0x0, 0x0, false, [], none⟩,  -- LCE_UNKNOWN_SCI
    ⟨0x1A8, 1, 0x0, .evt, 0x0, 0x0, false, [], none⟩,  -- LCE_NOT_USING_SA
    ⟨0x1AC, 1, 0x0, .evt, 0x0, 0x0, false, [], none⟩,  -- LCE_RX_REQUIRED
    ⟨0x1B0, 1, 0x0, .evt, 0x0, 0x0, false, [], none⟩ ] ++  -- LCE_TX_NO_SA
  [ ⟨0x1B4, 1, 0x0, .evt, 0x0, 0x0, false, [], none⟩,  -- LCE_TX_EXHAUSTED
    ⟨0x1B8, 1, 0x0, .evt, 0x0, 0x0, false, [], none⟩,  -- LCE_PN_STALL
    ⟨0x1BC, 1, 0x0, .evt, 0x0, 0x0, false, [], none⟩ ]  -- LCE_REJ

/-- Register map of MGS. -/
def mgsRegs : List RegDesc :=
  [ ⟨0x80, 1, 0x0, .ro, 0x0, 0x0, false, [], none⟩,  -- MGS_STAT
    ⟨0x84, 1, 0x0, .ro, 0x0, 0x0, false, [], none⟩,  -- MGS_FW_VER
    ⟨0x88, 1, 0x0, .ro, 0x0, 0x0, false, [], none⟩,  -- MGS_UPTIME
    ⟨0x8C, 1, 0x0, .rwl, 0x64, 0xFFFF, false, [⟨0, 16, 10, 1000, false⟩], none⟩,  -- MGS_WDT
    ⟨0x90, 1, 0x0, .rwl, 0x640, 0xFFFF, false, [⟨0, 16, 100, 10000, false⟩], none⟩,  -- MGS_VBAT_CFG
    ⟨0xA0, 19, 0x4, .ro, 0x0, 0x0, false, [], none⟩,  -- MGS_SENS
    ⟨0x100, 19, 0x4, .rwl, 0x0, 0xFFFFFFFF, false, [], none⟩,  -- MGS_SENS_THR
    ⟨0x180, 1, 0x0, .evt, 0x0, 0x0, false, [], none⟩,  -- MGS_LOCKSTEP
    ⟨0x184, 1, 0x0, .evt, 0x0, 0x0, false, [], none⟩,  -- MGS_WDT_EXP
    ⟨0x188, 1, 0x0, .evt, 0x0, 0x0, false, [], none⟩,  -- MGS_RESTART
    ⟨0x18C, 1, 0x0, .evt, 0x0, 0x0, false, [], none⟩,  -- MGS_SENS_ALARM
    ⟨0x1C0, 1, 0x0, .wo, 0x0, 0xFF, true, [], none⟩,  -- MGS_CMD
    ⟨0x1D0, 8, 0x4, .rw, 0x0, 0xFFFFFFFF, true, [], none⟩,  -- MGS_ARG
    ⟨0x200, 1, 0x0, .rv, 0x0, 0x0, true, [], none⟩,  -- MGS_RES_STAT
    ⟨0x204, 1, 0x0, .wo, 0x0, 0xFFFF, true, [], none⟩,  -- MGS_RES_ACK
    ⟨0x208, 1, 0x0, .rv, 0x0, 0x0, true, [], none⟩,  -- MGS_RES_LEN
    ⟨0x240, 8, 0x4, .rv, 0x0, 0x0, true, [], none⟩,  -- MGS_RES_DATA
    ⟨0x400, 128, 0x4, .rv, 0x0, 0x0, true, [], none⟩,  -- MGS_RES_BUF
    ⟨0x800, 512, 0x4, .rw, 0x0, 0xFFFFFFFF, true, [], none⟩ ]  -- MGS_BUF

/-- Register map of EVL. -/
def evlRegs : List RegDesc :=
  [ ⟨0x80, 1, 0x0, .rwl, 0x3E8, 0xFFFF, false, [⟨0, 16, 1, 65535, false⟩], none⟩,  -- EVL_CFG
    ⟨0x84, 1, 0x0, .rwl, 0x64CD, 0x7FFF, false, [⟨0, 15, 1, 28672, false⟩], none⟩,  -- EVL_SEC_WARN
    ⟨0x88, 1, 0x0, .ro, 0x0, 0x0, false, [], none⟩,  -- EVL_NEWEST
    ⟨0x8C, 1, 0x0, .ro, 0x0, 0x0, false, [], none⟩,  -- EVL_OLDEST_GEN
    ⟨0x90, 1, 0x0, .ro, 0x0, 0x0, false, [], none⟩,  -- EVL_OLDEST_SEC
    ⟨0x94, 1, 0x0, .ro, 0x0, 0x0, false, [], none⟩,  -- EVL_SEC_ACKED
    ⟨0x98, 1, 0x0, .rw, 0x0, 0xFFFFFFFF, true, [], none⟩,  -- EVL_SEL
    ⟨0x9C, 1, 0x0, .ro, 0x0, 0x0, true, [], none⟩,  -- EVL_REC_STAT
    ⟨0xA0, 8, 0x4, .ro, 0x0, 0x0, true, [], none⟩,  -- EVL_REC
    ⟨0xC0, 1, 0x0, .stat, 0x0, 0x0, false, [], none⟩,  -- EVL_TOTAL
    ⟨0xD0, 1, 0x0, .evt, 0x0, 0x0, false, [], none⟩,  -- EVL_SUPPRESSED
    ⟨0xD4, 1, 0x0, .evt, 0x0, 0x0, false, [], none⟩,  -- EVL_SEC_OVERWRITE
    ⟨0xD8, 1, 0x0, .evt, 0x0, 0x0, false, [], none⟩ ]  -- EVL_CKPT_UNSIGNED

/-- Register map of UPD. -/
def updRegs : List RegDesc :=
  [ ⟨0x80, 1, 0x0, .rwl, 0x1E03, 0xFF07, false, [⟨8, 8, 1, 255, false⟩], none⟩,  -- UPD_CFG
    ⟨0x84, 1, 0x0, .rwl, 0x0, 0x7FFF, false, [], none⟩,  -- UPD_SPEED
    ⟨0x88, 1, 0x0, .rwl, 0x0, 0xFFFFFFFF, false, [], none⟩,  -- UPD_SPEED_MAX
    ⟨0x8C, 1, 0x0, .rwl, 0x4E20, 0xFFFF, false, [], none⟩,  -- UPD_VBAT_MIN
    ⟨0x90, 1, 0x0, .ro, 0x0, 0x0, false, [], none⟩,  -- UPD_STAT
    ⟨0x94, 1, 0x0, .ro, 0x0, 0x0, false, [], none⟩,  -- UPD_FLOOR
    ⟨0x98, 1, 0x0, .ro, 0x0, 0x0, false, [], none⟩,  -- UPD_STAGED_VER
    ⟨0xA0, 1, 0x0, .wo, 0x0, 0xF, true, [], none⟩,  -- UPD_CMD
    ⟨0xA4, 1, 0x0, .rw, 0x0, 0x3FFFFF, true, [], none⟩,  -- UPD_OFFSET
    ⟨0xA8, 1, 0x0, .rw, 0x0, 0xFFF, true, [], none⟩,  -- UPD_LEN
    ⟨0xB0, 1, 0x0, .evt, 0x0, 0x0, false, [], none⟩,  -- UPD_REFUSED
    ⟨0xB4, 1, 0x0, .evt, 0x0, 0x0, false, [], none⟩,  -- UPD_FALLBACK
    ⟨0x200, 1, 0x0, .rv, 0x0, 0x0, true, [], none⟩,  -- UPD_RES_STAT
    ⟨0x204, 1, 0x0, .wo, 0x0, 0xFFFF, true, [], none⟩,  -- UPD_RES_ACK
    ⟨0x240, 4, 0x4, .rv, 0x0, 0x0, true, [], none⟩,  -- UPD_RES_DATA
    ⟨0x800, 512, 0x4, .rw, 0x0, 0xFFFFFFFF, true, [], none⟩ ]  -- UPD_BUF

/-- Register map of MGN. -/
def mgnRegs : List RegDesc :=
  [ ⟨0x80, 1, 0x0, .rwl, 0x14180401, 0xFFFFFF01, false, [⟨8, 8, 1, 24, false⟩, ⟨16, 8, 1, 255, false⟩, ⟨24, 8, 10, 50, false⟩], none⟩,  -- MGN_CFG
    ⟨0x84, 1, 0x0, .ro, 0x0, 0x0, false, [], none⟩,  -- MGN_STAT
    ⟨0x88, 1, 0x0, .ro, 0x2EE, 0x0, false, [], none⟩,  -- MGN_AVS
    ⟨0x8C, 1, 0x0, .ro, 0x14, 0x0, false, [], none⟩,  -- MGN_GUARD
    ⟨0x90, 1, 0x0, .ro, 0x14, 0x0, false, [], none⟩,  -- MGN_MRAM_PULSE
    ⟨0x94, 1, 0x0, .pair, 0x0, 0x0, false, [], none⟩,  -- MGN_LAST_RUN
    ⟨0xA0, 32, 0x4, .ro, 0x0, 0x0, false, [], none⟩,  -- MGN_AGE
    ⟨0x120, 64, 0x4, .ro, 0x0, 0x0, false, [], none⟩,  -- MGN_REPLICA
    ⟨0x220, 1, 0x0, .ro, 0x0, 0x0, false, [], none⟩,  -- MGN_SRAM_MARGIN
    ⟨0x230, 3, 0x4, .ro, 0x0, 0x0, false, [], none⟩,  -- MGN_EYE
    ⟨0x240, 6, 0x4, .ro, 0x0, 0x0, false, [], none⟩,  -- MGN_WEAR
    ⟨0x260, 1, 0x0, .ro, 0xF0, 0x0, false, [], none⟩,  -- MGN_SPARES
    ⟨0x270, 1, 0x0, .stat, 0x0, 0x0, false, [], none⟩ ]  -- MGN_RUNS

/-- Register map of SVC. -/
def svcRegs : List RegDesc :=
  [ ⟨0x80, 1, 0x0, .rwl, 0x0, 0x1FF, false, [], none⟩,  -- SVC_DDR_CFG
    ⟨0x84, 1, 0x0, .ro, 0x0, 0x0, false, [], none⟩,  -- SVC_DDR_STAT
    ⟨0x88, 1, 0x0, .wo, 0x0, 0x713F, true, [], none⟩,  -- SVC_CMD
    ⟨0x8C, 1, 0x0, .rw, 0x0, 0xFFFFFFFF, true, [], none⟩,  -- SVC_OFFSET
    ⟨0x90, 1, 0x0, .rw, 0x0, 0xFFF, true, [], none⟩,  -- SVC_LEN
    ⟨0x94, 1, 0x0, .rwl, 0x0, 0xFFFFFFFF, false, [], none⟩,  -- SVC_RING_MAP
    ⟨0xA0, 4, 0x8, .ro, 0x0, 0x0, false, [], none⟩,  -- SVC_PART_STAT
    ⟨0xA4, 4, 0x8, .ro, 0x0, 0x0, false, [], none⟩,  -- SVC_PART_VER
    ⟨0xC0, 8, 0x4, .ro, 0x0, 0x0, false, [], none⟩,  -- SVC_CLAIM
    ⟨0xE0, 1, 0x0, .evt, 0x0, 0x0, false, [], none⟩,  -- SVC_WDT_EXP
    ⟨0xE4, 1, 0x0, .evt, 0x0, 0x0, false, [], none⟩,  -- SVC_RESTART
    ⟨0xE8, 1, 0x0, .evt, 0x0, 0x0, false, [], none⟩,  -- SVC_LOAD_FAIL
    ⟨0xEC, 1, 0x0, .evt, 0x0, 0x0, false, [], none⟩,  -- SVC_FW_VIOL
    ⟨0xF0, 1, 0x0, .evt, 0x0, 0x0, false, [], none⟩,  -- SVC_MEM_UNCORR
    ⟨0x200, 1, 0x0, .rv, 0x0, 0x0, true, [], none⟩,  -- SVC_RES_STAT
    ⟨0x204, 1, 0x0, .wo, 0x0, 0xFFFF, true, [], none⟩,  -- SVC_RES_ACK
    ⟨0x240, 4, 0x4, .rv, 0x0, 0x0, true, [], none⟩,  -- SVC_RES_DATA
    ⟨0x800, 512, 0x4, .rw, 0x0, 0xFFFFFFFF, true, [], none⟩ ]  -- SVC_BUF

/-- The registers of a block beyond the common header. -/
def blkRegs : Blk → List RegDesc
  | .glb => glbRegs
  | .cru => cruRegs
  | .aon => aonRegs
  | .tap => tapRegs
  | .pfc => pfcRegs
  | .twn => twnRegs
  | .hif => hifRegs
  | .gpi => gpiRegs
  | .icl => iclRegs
  | .ict => ictRegs
  | .srt => srtRegs
  | .adt => adtRegs
  | .lrn => lrnRegs
  | .bsn => bsnRegs
  | .rak => rakRegs
  | .edy => edyRegs
  | .egs => egsRegs
  | .wei => weiRegs
  | .slu => sluRegs
  | .bud => budRegs
  | .had => hadRegs
  | .fgd => fgdRegs
  | .fre => freRegs
  | .ept => eptRegs
  | .can => canRegs
  | .lin => linRegs
  | .cfl => cflRegs
  | .tim => timRegs
  | .dom => domRegs
  | .srv => srvRegs
  | .vlt => vltRegs
  | .cau => cauRegs
  | .lce => lceRegs
  | .mgs => mgsRegs
  | .evl => evlRegs
  | .upd => updRegs
  | .mgn => mgnRegs
  | .svc => svcRegs

/-- The register of a list at an offset, with its index. -/
def findDesc (l : List RegDesc) (off : Nat) : Option (RegDesc × Nat) :=
  match l with
  | [] => none
  | d :: t =>
    let w := if d.acc = .stat ∨ d.acc = .pair then 8 else 4
    if d.off ≤ off ∧ off < d.off + w then some (d, 0)
    else if d.stride ≠ 0 ∧ d.off ≤ off ∧ (off - d.off) / d.stride < d.count ∧ (off - d.off) % d.stride < w then
      some (d, (off - d.off) / d.stride)
    else findDesc t off

/-- The register of a block at a page offset, common header included (the compatibility servo page has none, R26). [DEDUCED, log entry 7] -/
def findReg (b : Blk) (off : Nat) : Option (RegDesc × Nat) :=
  if b ≠ .srv ∧ off < 0x80 then findDesc hdrRegs off else findDesc (blkRegs b) off

end Sys2Proof.Machine

/-! Register addresses by their names in the spec: `p` is the page instance, `k` the array index. -/
namespace Sys2Proof.Reg

abbrev GLB_CHIP_ID : Nat := 0x80
abbrev GLB_SKU : Nat := 0x84
abbrev GLB_FENCE_REQ : Nat := 0xC0
abbrev GLB_FENCE_TICKET : Nat := 0xC4
abbrev GLB_FENCE_DONE : Nat := 0xC8
abbrev GLB_FENCE_WAIT : Nat := 0xCC
abbrev GLB_PERM_SEL : Nat := 0x100
abbrev GLB_PERM_DATA : Nat := 0x104
abbrev GLB_ACC_CAP0 : Nat := 0x108
abbrev GLB_ACC_CAP1 : Nat := 0x10C
abbrev GLB_ACC_VIOL_CNT : Nat := 0x110
abbrev GLB_INT_SUM (k : Nat) : Nat := 0x200 + 0x4 * k
abbrev GLB_INT_ROUTE (k : Nat) : Nat := 0x400 + 0x4 * k
abbrev CRU_CLK_STAT : Nat := 0x1080
abbrev CRU_HFRC_TRIM : Nat := 0x1084
abbrev CRU_GATE_SEL : Nat := 0x1088
abbrev CRU_GATE_CTRL : Nat := 0x108C
abbrev CRU_RST_CMD : Nat := 0x1090
abbrev CRU_RST_CAUSE : Nat := 0x1094
abbrev CRU_TRANS_CAP : Nat := 0x1098
abbrev CRU_GATE_DEFER : Nat := 0x10A0
abbrev CRU_GATE_REJ : Nat := 0x10A4
abbrev CRU_PLL_UNLOCK : Nat := 0x10A8
abbrev CRU_XINA_FAIL : Nat := 0x10AC
abbrev CRU_TRIM_LIMIT : Nat := 0x10B0
abbrev AON_PWR_STAT : Nat := 0x2080
abbrev AON_PWR_CMD : Nat := 0x2084
abbrev AON_PART_CFG : Nat := 0x2088
abbrev AON_NM_CFG : Nat := 0x208C
abbrev AON_NM_PDU : Nat := 0x2090
abbrev AON_NM_SIG : Nat := 0x2094
abbrev AON_NM_SIGVAL : Nat := 0x2098
abbrev AON_SLEEP_SET0 : Nat := 0x209C
abbrev AON_SLEEP_SET1 : Nat := 0x20A0
abbrev AON_INH_CFG : Nat := 0x20A4
abbrev AON_FW_CFG : Nat := 0x20A8
abbrev AON_CLK_CFG : Nat := 0x20AC
abbrev AON_TIMER : Nat := 0x20B0
abbrev AON_WAKE_CAUSE : Nat := 0x20B4
abbrev AON_WAKE_SRC_LO : Nat := 0x20B8
abbrev AON_WAKE_SRC_HI : Nat := 0x20BC
abbrev AON_WAKE_FRC_LO : Nat := 0x20C0
abbrev AON_WAKE_FRC_HI : Nat := 0x20C4
abbrev AON_WAKE_CAP0 : Nat := 0x20C8
abbrev AON_WAKE_CAP1 : Nat := 0x20CC
abbrev AON_WAKE_CAP2 : Nat := 0x20D0
abbrev AON_WAKE_CAP3 : Nat := 0x20D4
abbrev AON_FW_DIS_LO : Nat := 0x20D8
abbrev AON_FW_DIS_HI : Nat := 0x20DC
abbrev AON_SLEEP_ABORT : Nat := 0x20E0
abbrev AON_SLEEP_FAIL : Nat := 0x20E4
abbrev AON_PG_FAIL : Nat := 0x20E8
abbrev AON_TRANS_REJ : Nat := 0x20EC
abbrev AON_TRANS_ABORT : Nat := 0x20F0
abbrev AON_WAKES : Nat := 0x20F8
abbrev AON_WSRC_CFG (k : Nat) : Nat := 0x2100 + 0x4 * k
abbrev AON_FALSE_WAKE (k : Nat) : Nat := 0x2200 + 0x4 * k
abbrev AON_SW_ID (k : Nat) : Nat := 0x2300 + 0x20 * k
abbrev AON_SW_MASK (k : Nat) : Nat := 0x2304 + 0x20 * k
abbrev AON_SW_CFG (k : Nat) : Nat := 0x2308 + 0x20 * k
abbrev AON_SW_DMASK_LO (k : Nat) : Nat := 0x230C + 0x20 * k
abbrev AON_SW_DMASK_HI (k : Nat) : Nat := 0x2310 + 0x20 * k
abbrev AON_SW_ERR (k : Nat) : Nat := 0x2314 + 0x20 * k
abbrev TAP_CMD : Nat := 0x3080
abbrev TAP_INDEX : Nat := 0x3084
abbrev TAP_STAGE_CNT : Nat := 0x3088
abbrev TAP_KEY (k : Nat) : Nat := 0x30C0 + 0x4 * k
abbrev TAP_DATA (k : Nat) : Nat := 0x3100 + 0x4 * k
abbrev TAP_COMMIT : Nat := 0x3180
abbrev TAP_RES_STAT : Nat := 0x3200
abbrev TAP_RES_ACK : Nat := 0x3204
abbrev TAP_RES_INDEX : Nat := 0x3208
abbrev TAP_RES_DATA (k : Nat) : Nat := 0x3240 + 0x4 * k
abbrev PFC_GCTRL : Nat := 0x4080
abbrev PFC_UREAD : Nat := 0x4084
abbrev PFC_RANGE_BASE (k : Nat) : Nat := 0x4090 + 0x8 * k
abbrev PFC_RANGE_LIMIT (k : Nat) : Nat := 0x4094 + 0x8 * k
abbrev PFC_SEL (k : Nat) : Nat := 0x4100 + 0x10 * k
abbrev PFC_FILT (k : Nat) : Nat := 0x4104 + 0x10 * k
abbrev PFC_CNT_LO (k : Nat) : Nat := 0x4108 + 0x10 * k
abbrev PFC_CNT_HI (k : Nat) : Nat := 0x410C + 0x10 * k
abbrev TWN_CFG : Nat := 0x5080
abbrev TWN_STAT : Nat := 0x5084
abbrev TWN_CMD : Nat := 0x5088
abbrev TWN_PARTNER : Nat := 0x508C
abbrev TWN_BUS_MASK : Nat := 0x5090
abbrev TWN_LIN_MASK : Nat := 0x5094
abbrev TWN_GPIO_MASK : Nat := 0x5098
abbrev TWN_OFFSET_LO : Nat := 0x50A0
abbrev TWN_OFFSET_HI : Nat := 0x50A4
abbrev TWN_LINK_DELAY : Nat := 0x50A8
abbrev TWN_LAST_DIV : Nat := 0x50AC
abbrev TWN_ROTATE_LEFT : Nat := 0x50B0
abbrev TWN_HB_RX : Nat := 0x50C0
abbrev TWN_WINDOWS : Nat := 0x50C8
abbrev TWN_SUPPRESSED : Nat := 0x50D0
abbrev TWN_SHADOW_MATCH : Nat := 0x50D8
abbrev TWN_TAKEOVER : Nat := 0x50E0
abbrev TWN_ROTATION : Nat := 0x50E4
abbrev TWN_DIVERGENCE : Nat := 0x50E8
abbrev TWN_STRADDLE : Nat := 0x50EC
abbrev TWN_HB_PATH : Nat := 0x50F0
abbrev TWN_ISOLATED_CNT : Nat := 0x50F4
abbrev TWN_LINK_LOST : Nat := 0x50F8
abbrev TWN_SHADOW_MISS : Nat := 0x50FC
abbrev TWN_CFG_MISMATCH : Nat := 0x5100
abbrev TWN_BAD_MSG : Nat := 0x5104
abbrev TWN_SELFTEST_FAIL : Nat := 0x5108
abbrev TWN_RST_SEL : Nat := 0x5140
abbrev TWN_RST_STAT : Nat := 0x5144
abbrev TWN_RST_DIG (k : Nat) : Nat := 0x5148 + 0x4 * k
abbrev TWN_RST_LAST_OK : Nat := 0x5168
abbrev TWN_RST_CFG : Nat := 0x516C
abbrev TWN_RST_COUNT : Nat := 0x5170
abbrev HIF_CFG : Nat := 0x6080
abbrev HIF_STAT : Nat := 0x6084
abbrev HIF_IBM_CFG : Nat := 0x6088
abbrev HIF_DB_ERR : Nat := 0x6090
abbrev HIF_CFG_REJ : Nat := 0x6094
abbrev HIF_DMA_ERR : Nat := 0x6098
abbrev HIF_QSPI_ERR : Nat := 0x609C
abbrev HIF_IBM_AUTH_FAIL : Nat := 0x60A0
abbrev HIF_IBM_REPLAY : Nat := 0x60A4
abbrev HIF_IBM_OK : Nat := 0x60B0
abbrev RXR_BASE_LO (k : Nat) : Nat := 0x6100 + 0x20 * k
abbrev RXR_BASE_HI (k : Nat) : Nat := 0x6104 + 0x20 * k
abbrev RXR_SIZE (k : Nat) : Nat := 0x6108 + 0x20 * k
abbrev RXR_CTRL (k : Nat) : Nat := 0x610C + 0x20 * k
abbrev RXR_HEAD (k : Nat) : Nat := 0x6110 + 0x20 * k
abbrev RXR_TAIL (k : Nat) : Nat := 0x6114 + 0x20 * k
abbrev RXR_STAT (k : Nat) : Nat := 0x6118 + 0x20 * k
abbrev TXR_BASE_LO (k : Nat) : Nat := 0x6300 + 0x20 * k
abbrev TXR_BASE_HI (k : Nat) : Nat := 0x6304 + 0x20 * k
abbrev TXR_SIZE (k : Nat) : Nat := 0x6308 + 0x20 * k
abbrev TXR_CTRL (k : Nat) : Nat := 0x630C + 0x20 * k
abbrev TXR_HEAD (k : Nat) : Nat := 0x6310 + 0x20 * k
abbrev TXR_TAIL (k : Nat) : Nat := 0x6314 + 0x20 * k
abbrev TXR_STAT (k : Nat) : Nat := 0x6318 + 0x20 * k
abbrev RXR_FRAMES (k : Nat) : Nat := 0x6600 + 0x8 * k
abbrev TXR_FRAMES (k : Nat) : Nat := 0x6680 + 0x8 * k
abbrev GPI_IN : Nat := 0x7080
abbrev GPI_OUT : Nat := 0x7084
abbrev GPI_OE : Nat := 0x7088
abbrev GPI_OD : Nat := 0x708C
abbrev GPI_PULL_EN : Nat := 0x7090
abbrev GPI_PULL_UP : Nat := 0x7094
abbrev GPI_RISE_EN : Nat := 0x7098
abbrev GPI_FALL_EN : Nat := 0x709C
abbrev GPI_EDGE : Nat := 0x70A0
abbrev GPI_FILT : Nat := 0x70A4
abbrev GPI_OUT_REJ : Nat := 0x70A8
abbrev ICL_DEV_MAC_LO : Nat := 0x10080
abbrev ICL_DEV_MAC_HI : Nat := 0x10084
abbrev ICL_PCP_TC : Nat := 0x10088
abbrev ICL_STEER_DEFAULT : Nat := 0x1008C
abbrev ICL_XL_AF_MASK : Nat := 0x10090
abbrev ICL_CONSUMED : Nat := 0x100A0
abbrev ICL_STEER_DROP : Nat := 0x100A8
abbrev ICL_CAN_RTR : Nat := 0x100B0
abbrev ICL_PORT_CFG (k : Nat) : Nat := 0x10100 + 0x4 * k
abbrev ICL_STEER_MATCH0 (k : Nat) : Nat := 0x10200 + 0x10 * k
abbrev ICL_STEER_MATCH1 (k : Nat) : Nat := 0x10204 + 0x10 * k
abbrev ICL_STEER_PORTS (k : Nat) : Nat := 0x10208 + 0x10 * k
abbrev ICL_STEER_ACT (k : Nat) : Nat := 0x1020C + 0x10 * k
abbrev ICL_RUNT (k : Nat) : Nat := 0x10600 + 0x8 * k
abbrev ICT_SEED0 : Nat := 0x11080
abbrev ICT_SEED1 : Nat := 0x11084
abbrev ICT_SEED2 : Nat := 0x11088
abbrev ICT_SEED3 : Nat := 0x1108C
abbrev ICT_FILL : Nat := 0x11090
abbrev ICT_SEED_REJ : Nat := 0x11094
abbrev ICT_HIT : Nat := 0x110A0
abbrev ICT_MISS : Nat := 0x110A8
abbrev SRT_NO_ROUTE : Nat := 0x12080
abbrev SRT_IDENT_CONFLICT : Nat := 0x12090
abbrev SRT_SPOOF : Nat := 0x12094
abbrev SRT_DUPLICATE : Nat := 0x12098
abbrev SRT_IDENT_DATA_CONFLICT : Nat := 0x1209C
abbrev SRT_AUTH_MISSING : Nat := 0x120A0
abbrev SRT_LAST_EVT_TS : Nat := 0x120B0
abbrev SRT_LAST_EVT : Nat := 0x120B4
abbrev ADT_SEED0 : Nat := 0x13080
abbrev ADT_SEED1 : Nat := 0x13084
abbrev ADT_SEED2 : Nat := 0x13088
abbrev ADT_SEED3 : Nat := 0x1308C
abbrev ADT_FILL : Nat := 0x13090
abbrev ADT_STATIC_FILL : Nat := 0x13094
abbrev ADT_SEED_REJ : Nat := 0x13098
abbrev ADT_BAD_SMAC : Nat := 0x1309C
abbrev ADT_RELOC : Nat := 0x130A0
abbrev ADT_LOCAL_FILTER : Nat := 0x130A8
abbrev ADT_FLOOD : Nat := 0x130B0
abbrev ADT_FLOOD_UC (k : Nat) : Nat := 0x13100 + 0x8 * k
abbrev ADT_FLOOD_MC (k : Nat) : Nat := 0x13104 + 0x8 * k
abbrev LRN_AGE : Nat := 0x14080
abbrev LRN_FLAP : Nat := 0x14084
abbrev LRN_TICK : Nat := 0x14088
abbrev LRN_Q_LEVEL : Nat := 0x1408C
abbrev LRN_XCH_CFG : Nat := 0x14090
abbrev LRN_LEARNED : Nat := 0x140A0
abbrev LRN_MOVED : Nat := 0x140A8
abbrev LRN_PRUNED : Nat := 0x140B0
abbrev LRN_REMOTE : Nat := 0x140B8
abbrev LRN_Q_OVF : Nat := 0x140C0
abbrev LRN_FULL : Nat := 0x140C4
abbrev LRN_FLAP_CNT : Nat := 0x140C8
abbrev LRN_FROZEN_DROP : Nat := 0x140CC
abbrev LRN_STATIC_MOVE : Nat := 0x140D0
abbrev LRN_REMOTE_STALE : Nat := 0x140D4
abbrev LRN_SEQ_GAP : Nat := 0x140D8
abbrev LRN_ANCHOR_REJ : Nat := 0x140DC
abbrev LRN_FLAP_CAP0 : Nat := 0x140E0
abbrev LRN_FLAP_CAP1 : Nat := 0x140E4
abbrev LRN_FLAP_CAP2 : Nat := 0x140E8
abbrev LRN_ANCHOR_CTRL (k : Nat) : Nat := 0x14100 + 0x10 * k
abbrev LRN_ANCHOR_MAC_LO (k : Nat) : Nat := 0x14104 + 0x10 * k
abbrev LRN_ANCHOR_MAC_HI (k : Nat) : Nat := 0x14108 + 0x10 * k
abbrev LRN_ANCHOR_RX_SEQ (k : Nat) : Nat := 0x1410C + 0x10 * k
abbrev BSN_CFG : Nat := 0x20080
abbrev BSN_HEADROOM : Nat := 0x20084
abbrev BSN_FLOW_SEED : Nat := 0x20088
abbrev BSN_FREE : Nat := 0x2008C
abbrev BSN_SHARED_FREE : Nat := 0x20090
abbrev BSN_RSV_SUM : Nat := 0x20094
abbrev BSN_DESC_FREE : Nat := 0x20098
abbrev BSN_RSV_REJ : Nat := 0x2009C
abbrev BSN_CT_COPIES : Nat := 0x200A0
abbrev BSN_BAD_SF : Nat := 0x200A8
abbrev BSN_REPL_OVF : Nat := 0x200B0
abbrev BSN_DESC_EXH : Nat := 0x200B8
abbrev BSN_ECC_CORR : Nat := 0x200C0
abbrev BSN_ECC_UNCORR : Nat := 0x200C8
abbrev BSN_POISON_CAP0 : Nat := 0x200D0
abbrev BSN_POISON_CAP1 : Nat := 0x200D4
abbrev BSN_DROP_CAP : Nat := 0x200D8
abbrev BSN_QCFG (k : Nat) : Nat := 0x20100 + 0x4 * k
abbrev BSN_QSTAT (k : Nat) : Nat := 0x20500 + 0x4 * k
abbrev BSN_DROP (k : Nat) : Nat := 0x20900 + 0x10 * k
abbrev BSN_CT_POISON_TX (k : Nat) : Nat := 0x20908 + 0x10 * k
abbrev BSN_CT_POISON_RX (k : Nat) : Nat := 0x20CA0 + 0x8 * k
abbrev BSN_RXF_PTR (k : Nat) : Nat := 0x20D80 + 0x10 * k
abbrev BSN_RXF_CM (k : Nat) : Nat := 0x20D84 + 0x10 * k
abbrev BSN_RXF_GAPS (k : Nat) : Nat := 0x20D88 + 0x10 * k
abbrev BSN_RXF_RESET (k : Nat) : Nat := 0x20D8C + 0x10 * k
abbrev BSN_TXF_PTR (k : Nat) : Nat := 0x20E80 + 0x8 * k
abbrev BSN_TXF_RESET (k : Nat) : Nat := 0x20E84 + 0x8 * k
abbrev RAK_CFG : Nat := 0x21080
abbrev RAK_STAT : Nat := 0x21084
abbrev RAK_LAST_DUR : Nat := 0x21088
abbrev RAK_AUDITS : Nat := 0x21090
abbrev RAK_RECLAIMED : Nat := 0x21098
abbrev RAK_DOUBLE : Nat := 0x210A0
abbrev RAK_LIST_BREAK : Nat := 0x210A4
abbrev RAK_LAST_CELL : Nat := 0x210A8
abbrev EDY_MIRROR : Nat := 0x22080
abbrev EDY_CTRL (k : Nat) : Nat := 0x22100 + 0x20 * k
abbrev EDY_PORTS (k : Nat) : Nat := 0x22104 + 0x20 * k
abbrev EDY_HRANGE (k : Nat) : Nat := 0x22108 + 0x20 * k
abbrev EDY_RATE (k : Nat) : Nat := 0x2210C + 0x20 * k
abbrev EDY_SENT (k : Nat) : Nat := 0x22110 + 0x20 * k
abbrev EDY_LOST (k : Nat) : Nat := 0x22118 + 0x20 * k
abbrev EGS_PORT_CFG (p : Nat) : Nat := 0x30080 + 0x1000 * p
abbrev EGS_PORT_STAT (p : Nat) : Nat := 0x30084 + 0x1000 * p
abbrev EGS_PORT_RATE (p : Nat) : Nat := 0x30088 + 0x1000 * p
abbrev EGS_TC_CFG (p k : Nat) : Nat := 0x300A0 + 0x1000 * p + 0x4 * k
abbrev EGS_IDLE_SLOPE (p k : Nat) : Nat := 0x300C0 + 0x1000 * p + 0x4 * k
abbrev EGS_CREDIT (p k : Nat) : Nat := 0x300E0 + 0x1000 * p + 0x4 * k
abbrev EGS_TX_FRAMES (p k : Nat) : Nat := 0x30100 + 0x1000 * p + 0x10 * k
abbrev EGS_TX_BYTES (p k : Nat) : Nat := 0x30108 + 0x1000 * p + 0x10 * k
abbrev EGS_PAUSE_RX (p : Nat) : Nat := 0x30180 + 0x1000 * p
abbrev EGS_UNRSV_DROP (p : Nat) : Nat := 0x30188 + 0x1000 * p
abbrev EGS_FRAG_TX (p : Nat) : Nat := 0x30190 + 0x1000 * p
abbrev EGS_PFC_RX (p : Nat) : Nat := 0x301A0 + 0x1000 * p
abbrev EGS_VERIFY_FAIL (p : Nat) : Nat := 0x301A4 + 0x1000 * p
abbrev EGS_CFG_CONFLICT (p : Nat) : Nat := 0x301A8 + 0x1000 * p
abbrev EGS_ASSY_ERR (p : Nat) : Nat := 0x301AC + 0x1000 * p
abbrev WEI_SEL : Nat := 0x50080
abbrev WEI_CMD : Nat := 0x50084
abbrev WEI_DATA (k : Nat) : Nat := 0x50090 + 0x4 * k
abbrev WEI_LEVEL_C : Nat := 0x500B0
abbrev WEI_LEVEL_P : Nat := 0x500B4
abbrev WEI_GREEN : Nat := 0x500C0
abbrev WEI_YELLOW : Nat := 0x500C8
abbrev WEI_RED : Nat := 0x500D0
abbrev WEI_DROP : Nat := 0x500E0
abbrev WEI_LATE_RED : Nat := 0x500E8
abbrev WEI_REJ : Nat := 0x500F0
abbrev SLU_CTRL (p : Nat) : Nat := 0x51080 + 0x1000 * p
abbrev SLU_CMD (p : Nat) : Nat := 0x51084 + 0x1000 * p
abbrev SLU_STAT (p : Nat) : Nat := 0x51088 + 0x1000 * p
abbrev SLU_ADMIN_BASE_LO (p : Nat) : Nat := 0x51090 + 0x1000 * p
abbrev SLU_ADMIN_BASE_HI (p : Nat) : Nat := 0x51094 + 0x1000 * p
abbrev SLU_ADMIN_CYCLE (p : Nat) : Nat := 0x51098 + 0x1000 * p
abbrev SLU_ADMIN_EXT (p : Nat) : Nat := 0x5109C + 0x1000 * p
abbrev SLU_ADMIN_LEN (p : Nat) : Nat := 0x510A0 + 0x1000 * p
abbrev SLU_ADMIN_DEF (p : Nat) : Nat := 0x510A4 + 0x1000 * p
abbrev SLU_OPER_BASE (p : Nat) : Nat := 0x510B0 + 0x1000 * p
abbrev SLU_OPER_CYCLE (p : Nat) : Nat := 0x510B8 + 0x1000 * p
abbrev SLU_OPER_EXT (p : Nat) : Nat := 0x510BC + 0x1000 * p
abbrev SLU_OPER_LEN (p : Nat) : Nat := 0x510C0 + 0x1000 * p
abbrev SLU_CHANGE_TIME (p : Nat) : Nat := 0x510C8 + 0x1000 * p
abbrev SLU_GCL_SEL (p : Nat) : Nat := 0x510D0 + 0x1000 * p
abbrev SLU_GCL_D0 (p : Nat) : Nat := 0x510D4 + 0x1000 * p
abbrev SLU_GCL_D1 (p : Nat) : Nat := 0x510D8 + 0x1000 * p
abbrev SLU_OVERRUN (p : Nat) : Nat := 0x510E0 + 0x1000 * p
abbrev SLU_TOO_BIG (p : Nat) : Nat := 0x510E4 + 0x1000 * p
abbrev SLU_CFG_ERR (p : Nat) : Nat := 0x510E8 + 0x1000 * p
abbrev SLU_CHANGES (p : Nat) : Nat := 0x510F0 + 0x1000 * p
abbrev BUD_CFG : Nat := 0x68080
abbrev BUD_STAT : Nat := 0x68084
abbrev BUD_LAST_TIME : Nat := 0x68088
abbrev BUD_ADMITTED : Nat := 0x68090
abbrev BUD_REFUSED : Nat := 0x68098
abbrev BUD_VIOLATED : Nat := 0x680A0
abbrev BUD_CFG_REJ : Nat := 0x680A4
abbrev BUD_LOST_IDX : Nat := 0x680A8
abbrev BUD_CMD : Nat := 0x680C0
abbrev BUD_INDEX : Nat := 0x680C4
abbrev BUD_REQ (k : Nat) : Nat := 0x68100 + 0x4 * k
abbrev BUD_RES_STAT : Nat := 0x68200
abbrev BUD_RES_ACK : Nat := 0x68204
abbrev BUD_RES_DATA (k : Nat) : Nat := 0x68240 + 0x4 * k
abbrev HAD_CFG : Nat := 0x70080
abbrev HAD_CFG1 : Nat := 0x70084
abbrev HAD_LIFE_WARN : Nat := 0x70088
abbrev HAD_GRP_LO : Nat := 0x7008C
abbrev HAD_GRP_HI : Nat := 0x70090
abbrev HAD_LIFE_W0 : Nat := 0x700A0
abbrev HAD_LIFE_W1 : Nat := 0x700A4
abbrev HAD_LIFE_W2 : Nat := 0x700A8
abbrev HAD_LIFE_W3 : Nat := 0x700AC
abbrev HAD_ADMITS : Nat := 0x700C0
abbrev HAD_UNKNOWN : Nat := 0x700C8
abbrev HAD_BAD_SIG : Nat := 0x700CC
abbrev HAD_NO_RESP : Nat := 0x700D0
abbrev HAD_STALE_MSG : Nat := 0x700D4
abbrev HAD_BAD_MSG : Nat := 0x700D8
abbrev HAD_DUP_KEY : Nat := 0x700DC
abbrev HAD_LIFE_ROLLBACK : Nat := 0x700E0
abbrev HAD_VAULT_FAIL : Nat := 0x700E4
abbrev HAD_CMD : Nat := 0x700F0
abbrev HAD_PORT_CFG (k : Nat) : Nat := 0x70100 + 0x10 * k
abbrev HAD_PORT_STAT (k : Nat) : Nat := 0x70104 + 0x10 * k
abbrev HAD_GATE_DROP (k : Nat) : Nat := 0x70108 + 0x10 * k
abbrev HAD_CAND_DIG (k : Nat) : Nat := 0x70180 + 0x4 * k
abbrev HAD_CAND_PORT : Nat := 0x701A0
abbrev HAD_RES_STAT : Nat := 0x70200
abbrev HAD_RES_ACK : Nat := 0x70204
abbrev HAD_RES_DATA (k : Nat) : Nat := 0x70240 + 0x4 * k
abbrev FGD_CFG : Nat := 0x71080
abbrev FGD_SEL : Nat := 0x71084
abbrev FGD_CMD : Nat := 0x71088
abbrev FGD_VCFG0 : Nat := 0x71090
abbrev FGD_VCFG1 : Nat := 0x71094
abbrev FGD_VCFG2 : Nat := 0x71098
abbrev FGD_VCFG3 : Nat := 0x7109C
abbrev FGD_VCFG4 : Nat := 0x710A0
abbrev FGD_VCFG5 : Nat := 0x710A4
abbrev FGD_VCFG6 : Nat := 0x710A8
abbrev FGD_VCFG7 : Nat := 0x710AC
abbrev FGD_VIDEO : Nat := 0x710C0
abbrev FGD_FRESH : Nat := 0x710C8
abbrev FGD_VF_LOST : Nat := 0x710D0
abbrev FGD_RSEQ : Nat := 0x710D8
abbrev FGD_LAST_STATUS : Nat := 0x710E0
abbrev FGD_LAST_AGE : Nat := 0x710E4
abbrev FGD_LAST_DIGEST : Nat := 0x710E8
abbrev FGD_STALE_EVT : Nat := 0x710F0
abbrev FGD_FROZEN_EVT : Nat := 0x710F4
abbrev FGD_REPLAY_EVT : Nat := 0x710F8
abbrev FGD_AGE_EVT : Nat := 0x710FC
abbrev FGD_BOUNDARY_EVT : Nat := 0x71100
abbrev FGD_FOREIGN : Nat := 0x71104
abbrev FGD_NOKEY : Nat := 0x71108
abbrev FGD_REJ : Nat := 0x7110C
abbrev FGD_EVT_CAP : Nat := 0x71110
abbrev FGD_VSTAT (k : Nat) : Nat := 0x71400 + 0x4 * k
abbrev FRE_SEL : Nat := 0x72080
abbrev FRE_CMD : Nat := 0x72084
abbrev FRE_DATA (k : Nat) : Nat := 0x72090 + 0x4 * k
abbrev FRE_SEQ : Nat := 0x720A0
abbrev FRE_PASSED : Nat := 0x720B0
abbrev FRE_DISCARDED : Nat := 0x720B8
abbrev FRE_OOO : Nat := 0x720C0
abbrev FRE_ROGUE : Nat := 0x720C8
abbrev FRE_LOST : Nat := 0x720D0
abbrev FRE_TAGLESS : Nat := 0x720D8
abbrev FRE_RESETS : Nat := 0x720E0
abbrev FRE_LATENT : Nat := 0x720E4
abbrev FRE_REJ : Nat := 0x720E8
abbrev EPT_CFG (p : Nat) : Nat := 0x80080 + 0x1000 * p
abbrev EPT_STAT (p : Nat) : Nat := 0x80084 + 0x1000 * p
abbrev EPT_CMD (p : Nat) : Nat := 0x80088 + 0x1000 * p
abbrev EPT_TRAIN (p : Nat) : Nat := 0x8008C + 0x1000 * p
abbrev EPT_PLCA (p : Nat) : Nat := 0x80090 + 0x1000 * p
abbrev EPT_PLCA_BURST (p : Nat) : Nat := 0x80094 + 0x1000 * p
abbrev EPT_TC10 (p : Nat) : Nat := 0x80098 + 0x1000 * p
abbrev EPT_WAKE_CAP (p : Nat) : Nat := 0x8009C + 0x1000 * p
abbrev EPT_SERDES (p : Nat) : Nat := 0x800A0 + 0x1000 * p
abbrev EPT_EQ (p : Nat) : Nat := 0x800A4 + 0x1000 * p
abbrev EPT_SQI (p : Nat) : Nat := 0x800A8 + 0x1000 * p
abbrev EPT_RX_FRAMES (p : Nat) : Nat := 0x80100 + 0x1000 * p
abbrev EPT_RX_BYTES (p : Nat) : Nat := 0x80108 + 0x1000 * p
abbrev EPT_RX_UCAST (p : Nat) : Nat := 0x80110 + 0x1000 * p
abbrev EPT_RX_MCAST (p : Nat) : Nat := 0x80118 + 0x1000 * p
abbrev EPT_RX_BCAST (p : Nat) : Nat := 0x80120 + 0x1000 * p
abbrev EPT_RX_FCS_ERR (p : Nat) : Nat := 0x80128 + 0x1000 * p
abbrev EPT_RX_LONG (p : Nat) : Nat := 0x80130 + 0x1000 * p
abbrev EPT_RX_SYMBOL_ERR (p : Nat) : Nat := 0x80138 + 0x1000 * p
abbrev EPT_TX_FRAMES (p : Nat) : Nat := 0x80140 + 0x1000 * p
abbrev EPT_TX_BYTES (p : Nat) : Nat := 0x80148 + 0x1000 * p
abbrev EPT_TX_UCAST (p : Nat) : Nat := 0x80150 + 0x1000 * p
abbrev EPT_TX_MCAST (p : Nat) : Nat := 0x80158 + 0x1000 * p
abbrev EPT_TX_BCAST (p : Nat) : Nat := 0x80160 + 0x1000 * p
abbrev EPT_RX_FEC_CORR (p : Nat) : Nat := 0x80168 + 0x1000 * p
abbrev EPT_RX_FEC_UNCORR (p : Nat) : Nat := 0x80170 + 0x1000 * p
abbrev EPT_LINK_DOWN (p : Nat) : Nat := 0x80180 + 0x1000 * p
abbrev EPT_TRAIN_FAIL (p : Nat) : Nat := 0x80184 + 0x1000 * p
abbrev EPT_TX_LINK_ABORT (p : Nat) : Nat := 0x80188 + 0x1000 * p
abbrev EPT_TC10_REJ (p : Nat) : Nat := 0x8018C + 0x1000 * p
abbrev EPT_TC10_WAKE (p : Nat) : Nat := 0x80190 + 0x1000 * p
abbrev EPT_PLCA_ERR (p : Nat) : Nat := 0x80194 + 0x1000 * p
abbrev EPT_COLL (p : Nat) : Nat := 0x80198 + 0x1000 * p
abbrev EPT_COLL_DROP (p : Nat) : Nat := 0x8019C + 0x1000 * p
abbrev EPT_HI_BER (p : Nat) : Nat := 0x801A0 + 0x1000 * p
abbrev CAN_MODE (p : Nat) : Nat := 0x98080 + 0x1000 * p
abbrev CAN_NBT (p : Nat) : Nat := 0x98084 + 0x1000 * p
abbrev CAN_DBT (p : Nat) : Nat := 0x98088 + 0x1000 * p
abbrev CAN_XBT (p : Nat) : Nat := 0x9808C + 0x1000 * p
abbrev CAN_TDC (p : Nat) : Nat := 0x98090 + 0x1000 * p
abbrev CAN_XTDC (p : Nat) : Nat := 0x98094 + 0x1000 * p
abbrev CAN_PWM (p : Nat) : Nat := 0x98098 + 0x1000 * p
abbrev CAN_TS_COMP (p : Nat) : Nat := 0x9809C + 0x1000 * p
abbrev CAN_TXL_CFG (p : Nat) : Nat := 0x980A0 + 0x1000 * p
abbrev CAN_L1_CFG (p : Nat) : Nat := 0x980A4 + 0x1000 * p
abbrev CAN_STAT (p : Nat) : Nat := 0x980A8 + 0x1000 * p
abbrev CAN_CMD (p : Nat) : Nat := 0x980AC + 0x1000 * p
abbrev CAN_LAST_ERR (p : Nat) : Nat := 0x980B0 + 0x1000 * p
abbrev CAN_LAST_ERR_ID (p : Nat) : Nat := 0x980B4 + 0x1000 * p
abbrev CAN_RX_FRAMES (p : Nat) : Nat := 0x98100 + 0x1000 * p
abbrev CAN_RX_BYTES (p : Nat) : Nat := 0x98108 + 0x1000 * p
abbrev CAN_RX_RTR (p : Nat) : Nat := 0x98110 + 0x1000 * p
abbrev CAN_TX_FRAMES (p : Nat) : Nat := 0x98118 + 0x1000 * p
abbrev CAN_TX_BYTES (p : Nat) : Nat := 0x98120 + 0x1000 * p
abbrev CAN_TX_ARB_LOST (p : Nat) : Nat := 0x98128 + 0x1000 * p
abbrev CAN_TXL_FULL (p : Nat) : Nat := 0x98130 + 0x1000 * p
abbrev CAN_TXL_AGED (p : Nat) : Nat := 0x98138 + 0x1000 * p
abbrev CAN_TXL_FLUSH (p : Nat) : Nat := 0x98140 + 0x1000 * p
abbrev CAN_TX_FORM (p : Nat) : Nat := 0x98148 + 0x1000 * p
abbrev CAN_BIT_ERR (p : Nat) : Nat := 0x98180 + 0x1000 * p
abbrev CAN_STUFF_ERR (p : Nat) : Nat := 0x98184 + 0x1000 * p
abbrev CAN_FORM_ERR (p : Nat) : Nat := 0x98188 + 0x1000 * p
abbrev CAN_CRC_ERR (p : Nat) : Nat := 0x9818C + 0x1000 * p
abbrev CAN_ACK_ERR (p : Nat) : Nat := 0x98190 + 0x1000 * p
abbrev CAN_BUS_OFF (p : Nat) : Nat := 0x98194 + 0x1000 * p
abbrev CAN_ID_COLLISION (p : Nat) : Nat := 0x98198 + 0x1000 * p
abbrev CAN_PEX (p : Nat) : Nat := 0x9819C + 0x1000 * p
abbrev CAN_RXQ_OVF (p : Nat) : Nat := 0x981A0 + 0x1000 * p
abbrev CAN_RETX_ABORT (p : Nat) : Nat := 0x981A4 + 0x1000 * p
abbrev CAN_CFG_ERR (p : Nat) : Nat := 0x981A8 + 0x1000 * p
abbrev CAN_L0_LOST (p k : Nat) : Nat := 0x981C0 + 0x1000 * p + 0x4 * k
abbrev CAN_L0_ID (p k : Nat) : Nat := 0x98200 + 0x1000 * p + 0x10 * k
abbrev CAN_L0_MASK (p k : Nat) : Nat := 0x98204 + 0x1000 * p + 0x10 * k
abbrev CAN_L0_CFG (p k : Nat) : Nat := 0x98208 + 0x1000 * p + 0x10 * k
abbrev CAN_L0_STAT (p k : Nat) : Nat := 0x9820C + 0x1000 * p + 0x10 * k
abbrev CAN_L0_BUF0 (p k : Nat) : Nat := 0x98400 + 0x1000 * p + 0x4 * k
abbrev CAN_L0_BUF1 (p k : Nat) : Nat := 0x98480 + 0x1000 * p + 0x4 * k
abbrev CAN_L0_BUF2 (p k : Nat) : Nat := 0x98500 + 0x1000 * p + 0x4 * k
abbrev CAN_L0_BUF3 (p k : Nat) : Nat := 0x98580 + 0x1000 * p + 0x4 * k
abbrev CAN_RXQ (p k : Nat) : Nat := 0x98600 + 0x1000 * p + 0x4 * k
abbrev CAN_RXQ_STAT (p : Nat) : Nat := 0x98650 + 0x1000 * p
abbrev LIN_CFG (p : Nat) : Nat := 0xB8080 + 0x1000 * p
abbrev LIN_RATE (p : Nat) : Nat := 0xB8084 + 0x1000 * p
abbrev LIN_CMD (p : Nat) : Nat := 0xB8088 + 0x1000 * p
abbrev LIN_STAT (p : Nat) : Nat := 0xB808C + 0x1000 * p
abbrev LIN_SCHED_SEL (p : Nat) : Nat := 0xB8090 + 0x1000 * p
abbrev LIN_TABLE (p k : Nat) : Nat := 0xB8094 + 0x1000 * p + 0x4 * k
abbrev LIN_RESP_ERR (p : Nat) : Nat := 0xB80A4 + 0x1000 * p
abbrev LIN_FRAME (p k : Nat) : Nat := 0xB8100 + 0x1000 * p + 0x4 * k
abbrev LIN_SCHED_LO (p k : Nat) : Nat := 0xB8200 + 0x1000 * p + 0x8 * k
abbrev LIN_SCHED_HI (p k : Nat) : Nat := 0xB8204 + 0x1000 * p + 0x8 * k
abbrev LIN_PUB_LO (p k : Nat) : Nat := 0xB8400 + 0x1000 * p + 0x8 * k
abbrev LIN_PUB_HI (p k : Nat) : Nat := 0xB8404 + 0x1000 * p + 0x8 * k
abbrev LIN_RX_FRAMES (p : Nat) : Nat := 0xB8600 + 0x1000 * p
abbrev LIN_TX_FRAMES (p : Nat) : Nat := 0xB8608 + 0x1000 * p
abbrev LIN_TXFORM_FRAMES (p : Nat) : Nat := 0xB8610 + 0x1000 * p
abbrev LIN_CHK_ERR (p : Nat) : Nat := 0xB8620 + 0x1000 * p
abbrev LIN_NO_RESP (p : Nat) : Nat := 0xB8624 + 0x1000 * p
abbrev LIN_FRAMING (p : Nat) : Nat := 0xB8628 + 0x1000 * p
abbrev LIN_BIT_ERR (p : Nat) : Nat := 0xB862C + 0x1000 * p
abbrev LIN_SYNC_ERR (p : Nat) : Nat := 0xB8630 + 0x1000 * p
abbrev LIN_COLLISION (p : Nat) : Nat := 0xB8634 + 0x1000 * p
abbrev LIN_NO_DATA (p : Nat) : Nat := 0xB8638 + 0x1000 * p
abbrev LIN_CFG_ERR (p : Nat) : Nat := 0xB863C + 0x1000 * p
abbrev LIN_WAKE_RX (p : Nat) : Nat := 0xB8640 + 0x1000 * p
abbrev LIN_TX_FORM (p : Nat) : Nat := 0xB8644 + 0x1000 * p
abbrev CFL_CFG : Nat := 0xB0080
abbrev CFL_STAT : Nat := 0xB0084
abbrev CFL_VAL_SEL : Nat := 0xB0088
abbrev CFL_VAL : Nat := 0xB008C
abbrev CFL_VAL_STAT : Nat := 0xB0090
abbrev CFL_EVT_CAP : Nat := 0xB0094
abbrev CFL_RX_PDU : Nat := 0xB00A0
abbrev CFL_TX_PDU : Nat := 0xB00A8
abbrev CFL_OPS : Nat := 0xB00B0
abbrev CFL_TUN_MSG_TX : Nat := 0xB00B8
abbrev CFL_TUN_MSG_RX : Nat := 0xB00C0
abbrev CFL_NO_PDU : Nat := 0xB0100
abbrev CFL_SHORT : Nat := 0xB0104
abbrev CFL_AUTH_DROP : Nat := 0xB0108
abbrev CFL_TIMEOUT : Nat := 0xB010C
abbrev CFL_RANGE : Nat := 0xB0110
abbrev CFL_SAT : Nat := 0xB0114
abbrev CFL_LATE : Nat := 0xB0118
abbrev CFL_CFG_ERR : Nat := 0xB011C
abbrev CFL_TUN_BAD : Nat := 0xB0120
abbrev CFL_TUN_SEQ : Nat := 0xB0124
abbrev CFL_TUN_FRAG_ERR : Nat := 0xB0128
abbrev CFL_TUN_MAP : Nat := 0xB012C
abbrev TIM_CFG : Nat := 0xC0080
abbrev TIM_FRC_INC : Nat := 0xC0084
abbrev TIM_FRC_LO : Nat := 0xC0090
abbrev TIM_FRC_FRAC : Nat := 0xC0094
abbrev TIM_FRC_HI : Nat := 0xC0098
abbrev TIM_HFRC_MEAS : Nat := 0xC00A0
abbrev TIM_LF_PERIOD : Nat := 0xC00A4
abbrev TIM_PDELAY_THRESH : Nat := 0xC00A8
abbrev TIM_PORT_CFG (k : Nat) : Nat := 0xC0100 + 0x10 * k
abbrev TIM_PORT_LAT (k : Nat) : Nat := 0xC0104 + 0x10 * k
abbrev TIM_PDELAY (k : Nat) : Nat := 0xC0108 + 0x10 * k
abbrev TIM_NRR (k : Nat) : Nat := 0xC010C + 0x10 * k
abbrev TIM_FOREIGN : Nat := 0xC0280
abbrev TIM_CFG_ERR : Nat := 0xC0284
abbrev TIM_PDELAY_FAIL : Nat := 0xC0288
abbrev TIM_SYNC_DROP : Nat := 0xC028C
abbrev TIM_RX_MSG : Nat := 0xC0290
abbrev TIM_TX_MSG : Nat := 0xC0298
abbrev DOM_CFG (p : Nat) : Nat := 0xC1080 + 0x1000 * p
abbrev DOM_STAT (p : Nat) : Nat := 0xC1084 + 0x1000 * p
abbrev DOM_CMD (p : Nat) : Nat := 0xC1088 + 0x1000 * p
abbrev DOM_ADJ_LO (p : Nat) : Nat := 0xC108C + 0x1000 * p
abbrev DOM_ADJ_HI (p : Nat) : Nat := 0xC1090 + 0x1000 * p
abbrev DOM_TIME_LO (p : Nat) : Nat := 0xC10A0 + 0x1000 * p
abbrev DOM_TIME_FRAC (p : Nat) : Nat := 0xC10A4 + 0x1000 * p
abbrev DOM_TIME_HI (p : Nat) : Nat := 0xC10A8 + 0x1000 * p
abbrev DOM_OFFSET_LO (p : Nat) : Nat := 0xC10B0 + 0x1000 * p
abbrev DOM_OFFSET_FRAC (p : Nat) : Nat := 0xC10B4 + 0x1000 * p
abbrev DOM_OFFSET_HI (p : Nat) : Nat := 0xC10B8 + 0x1000 * p
abbrev DOM_RATE (p : Nat) : Nat := 0xC10BC + 0x1000 * p
abbrev DOM_EPOCH (p : Nat) : Nat := 0xC10C0 + 0x1000 * p
abbrev DOM_JUMP_LIMIT (p : Nat) : Nat := 0xC10C8 + 0x1000 * p
abbrev DOM_SERVO (p : Nat) : Nat := 0xC10CC + 0x1000 * p
abbrev DOM_RATE_MAX (p : Nat) : Nat := 0xC10D0 + 0x1000 * p
abbrev DOM_SLEW_RATE (p : Nat) : Nat := 0xC10D4 + 0x1000 * p
abbrev DOM_LAST_ERR (p : Nat) : Nat := 0xC10D8 + 0x1000 * p
abbrev DOM_SYNC_RX (p : Nat) : Nat := 0xC10E0 + 0x1000 * p
abbrev DOM_SYNC_TX (p : Nat) : Nat := 0xC10E8 + 0x1000 * p
abbrev DOM_MASTER_JUMP (p : Nat) : Nat := 0xC10F0 + 0x1000 * p
abbrev DOM_SYNC_TO (p : Nat) : Nat := 0xC10F4 + 0x1000 * p
abbrev DOM_CMD_REJ (p : Nat) : Nat := 0xC10F8 + 0x1000 * p
abbrev DOM_STEP_CNT (p : Nat) : Nat := 0xC10FC + 0x1000 * p
abbrev SRV_CTRL : Nat := 0xC8000
abbrev SRV_KP : Nat := 0xC8004
abbrev SRV_KI : Nat := 0xC8008
abbrev SRV_STEP_THR : Nat := 0xC800C
abbrev SRV_MAXFREQ : Nat := 0xC8010
abbrev SRV_OFFSET : Nat := 0xC8014
abbrev SRV_FREQ : Nat := 0xC8018
abbrev SRV_INTEG : Nat := 0xC801C
abbrev SRV_STAT : Nat := 0xC8020
abbrev SRV_INT : Nat := 0xC8024
abbrev SRV_INT_EN : Nat := 0xC8028
abbrev VLT_STAT : Nat := 0xD0080
abbrev VLT_CFG : Nat := 0xD0084
abbrev VLT_BOOT_CNT : Nat := 0xD0088
abbrev VLT_DSN_LO : Nat := 0xD008C
abbrev VLT_DSN_HI : Nat := 0xD0090
abbrev VLT_LATCH : Nat := 0xD0094
abbrev VLT_WARN : Nat := 0xD0098
abbrev VLT_NODE : Nat := 0xD009C
abbrev VLT_GLITCH : Nat := 0xD00A0
abbrev VLT_TAMPER_ABORT : Nat := 0xD00A4
abbrev VLT_AUTH_FAIL : Nat := 0xD00A8
abbrev VLT_REFUSED : Nat := 0xD00AC
abbrev VLT_ORPHANED : Nat := 0xD00B0
abbrev VLT_KCV_FAIL : Nat := 0xD00B4
abbrev VLT_CMD : Nat := 0xD00C0
abbrev VLT_LEN : Nat := 0xD00C4
abbrev VLT_ARG (k : Nat) : Nat := 0xD00D0 + 0x4 * k
abbrev VLT_RES_STAT : Nat := 0xD0200
abbrev VLT_RES_ACK : Nat := 0xD0204
abbrev VLT_RES_LEN : Nat := 0xD0208
abbrev VLT_RES_DATA (k : Nat) : Nat := 0xD0240 + 0x4 * k
abbrev VLT_RES_BUF (k : Nat) : Nat := 0xD0400 + 0x4 * k
abbrev VLT_BUF (k : Nat) : Nat := 0xD0800 + 0x4 * k
abbrev CAU_WARN : Nat := 0xD2080
abbrev CAU_SEL : Nat := 0xD2084
abbrev CAU_CMD : Nat := 0xD2088
abbrev CAU_DATA (k : Nat) : Nat := 0xD2090 + 0x4 * k
abbrev CAU_ESTAT : Nat := 0xD20B0
abbrev CAU_FILL : Nat := 0xD20B4
abbrev CAU_LAST_FAIL : Nat := 0xD20B8
abbrev CAU_RX_OK : Nat := 0xD20C0
abbrev CAU_RX_FAIL : Nat := 0xD20C8
abbrev CAU_TX_AUTH : Nat := 0xD20D0
abbrev CAU_FAIL_MAC : Nat := 0xD20E0
abbrev CAU_FAIL_FRESH : Nat := 0xD20E4
abbrev CAU_FAIL_LEN : Nat := 0xD20E8
abbrev CAU_NOKEY : Nat := 0xD20EC
abbrev CAU_EXHAUSTED : Nat := 0xD20F0
abbrev CAU_TX_FORM : Nat := 0xD20F4
abbrev CAU_TX_FAILED : Nat := 0xD20F8
abbrev CAU_REJ : Nat := 0xD20FC
abbrev LCE_PORT_CFG (p : Nat) : Nat := 0xE0080 + 0x1000 * p
abbrev LCE_REPLAY_WIN (p : Nat) : Nat := 0xE0084 + 0x1000 * p
abbrev LCE_TX_AN (p : Nat) : Nat := 0xE0088 + 0x1000 * p
abbrev LCE_PN_WARN (p : Nat) : Nat := 0xE008C + 0x1000 * p
abbrev LCE_XPN_WARN (p : Nat) : Nat := 0xE0090 + 0x1000 * p
abbrev LCE_RXSC_EN (p : Nat) : Nat := 0xE0098 + 0x1000 * p
abbrev LCE_RXSC_LO (p k : Nat) : Nat := 0xE00A0 + 0x1000 * p + 0x8 * k
abbrev LCE_RXSC_HI (p k : Nat) : Nat := 0xE00A4 + 0x1000 * p + 0x8 * k
abbrev LCE_SA_SEL (p : Nat) : Nat := 0xE0100 + 0x1000 * p
abbrev LCE_SA_CMD (p : Nat) : Nat := 0xE0104 + 0x1000 * p
abbrev LCE_SA_DATA (p k : Nat) : Nat := 0xE0110 + 0x1000 * p + 0x4 * k
abbrev LCE_SA_STAT (p : Nat) : Nat := 0xE0130 + 0x1000 * p
abbrev LCE_SA_OK (p : Nat) : Nat := 0xE0140 + 0x1000 * p
abbrev LCE_SA_INVALID (p : Nat) : Nat := 0xE0148 + 0x1000 * p
abbrev LCE_SA_LATE (p : Nat) : Nat := 0xE0150 + 0x1000 * p
abbrev LCE_SA_TX (p : Nat) : Nat := 0xE0158 + 0x1000 * p
abbrev LCE_RX_UNPROT (p : Nat) : Nat := 0xE0180 + 0x1000 * p
abbrev LCE_RX_BYPASS (p : Nat) : Nat := 0xE0188 + 0x1000 * p
abbrev LCE_TX_BYPASS (p : Nat) : Nat := 0xE0190 + 0x1000 * p
abbrev LCE_BAD_TAG (p : Nat) : Nat := 0xE01A0 + 0x1000 * p
abbrev LCE_UNKNOWN_SCI (p : Nat) : Nat := 0xE01A4 + 0x1000 * p
abbrev LCE_NOT_USING_SA (p : Nat) : Nat := 0xE01A8 + 0x1000 * p
abbrev LCE_RX_REQUIRED (p : Nat) : Nat := 0xE01AC + 0x1000 * p
abbrev LCE_TX_NO_SA (p : Nat) : Nat := 0xE01B0 + 0x1000 * p
abbrev LCE_TX_EXHAUSTED (p : Nat) : Nat := 0xE01B4 + 0x1000 * p
abbrev LCE_PN_STALL (p : Nat) : Nat := 0xE01B8 + 0x1000 * p
abbrev LCE_REJ (p : Nat) : Nat := 0xE01BC + 0x1000 * p
abbrev MGS_STAT : Nat := 0xF0080
abbrev MGS_FW_VER : Nat := 0xF0084
abbrev MGS_UPTIME : Nat := 0xF0088
abbrev MGS_WDT : Nat := 0xF008C
abbrev MGS_VBAT_CFG : Nat := 0xF0090
abbrev MGS_SENS (k : Nat) : Nat := 0xF00A0 + 0x4 * k
abbrev MGS_SENS_THR (k : Nat) : Nat := 0xF0100 + 0x4 * k
abbrev MGS_LOCKSTEP : Nat := 0xF0180
abbrev MGS_WDT_EXP : Nat := 0xF0184
abbrev MGS_RESTART : Nat := 0xF0188
abbrev MGS_SENS_ALARM : Nat := 0xF018C
abbrev MGS_CMD : Nat := 0xF01C0
abbrev MGS_ARG (k : Nat) : Nat := 0xF01D0 + 0x4 * k
abbrev MGS_RES_STAT : Nat := 0xF0200
abbrev MGS_RES_ACK : Nat := 0xF0204
abbrev MGS_RES_LEN : Nat := 0xF0208
abbrev MGS_RES_DATA (k : Nat) : Nat := 0xF0240 + 0x4 * k
abbrev MGS_RES_BUF (k : Nat) : Nat := 0xF0400 + 0x4 * k
abbrev MGS_BUF (k : Nat) : Nat := 0xF0800 + 0x4 * k
abbrev EVL_CFG : Nat := 0xF1080
abbrev EVL_SEC_WARN : Nat := 0xF1084
abbrev EVL_NEWEST : Nat := 0xF1088
abbrev EVL_OLDEST_GEN : Nat := 0xF108C
abbrev EVL_OLDEST_SEC : Nat := 0xF1090
abbrev EVL_SEC_ACKED : Nat := 0xF1094
abbrev EVL_SEL : Nat := 0xF1098
abbrev EVL_REC_STAT : Nat := 0xF109C
abbrev EVL_REC (k : Nat) : Nat := 0xF10A0 + 0x4 * k
abbrev EVL_TOTAL : Nat := 0xF10C0
abbrev EVL_SUPPRESSED : Nat := 0xF10D0
abbrev EVL_SEC_OVERWRITE : Nat := 0xF10D4
abbrev EVL_CKPT_UNSIGNED : Nat := 0xF10D8
abbrev UPD_CFG : Nat := 0xF2080
abbrev UPD_SPEED : Nat := 0xF2084
abbrev UPD_SPEED_MAX : Nat := 0xF2088
abbrev UPD_VBAT_MIN : Nat := 0xF208C
abbrev UPD_STAT : Nat := 0xF2090
abbrev UPD_FLOOR : Nat := 0xF2094
abbrev UPD_STAGED_VER : Nat := 0xF2098
abbrev UPD_CMD : Nat := 0xF20A0
abbrev UPD_OFFSET : Nat := 0xF20A4
abbrev UPD_LEN : Nat := 0xF20A8
abbrev UPD_REFUSED : Nat := 0xF20B0
abbrev UPD_FALLBACK : Nat := 0xF20B4
abbrev UPD_RES_STAT : Nat := 0xF2200
abbrev UPD_RES_ACK : Nat := 0xF2204
abbrev UPD_RES_DATA (k : Nat) : Nat := 0xF2240 + 0x4 * k
abbrev UPD_BUF (k : Nat) : Nat := 0xF2800 + 0x4 * k
abbrev MGN_CFG : Nat := 0xF3080
abbrev MGN_STAT : Nat := 0xF3084
abbrev MGN_AVS : Nat := 0xF3088
abbrev MGN_GUARD : Nat := 0xF308C
abbrev MGN_MRAM_PULSE : Nat := 0xF3090
abbrev MGN_LAST_RUN : Nat := 0xF3094
abbrev MGN_AGE (k : Nat) : Nat := 0xF30A0 + 0x4 * k
abbrev MGN_REPLICA (k : Nat) : Nat := 0xF3120 + 0x4 * k
abbrev MGN_SRAM_MARGIN : Nat := 0xF3220
abbrev MGN_EYE (k : Nat) : Nat := 0xF3230 + 0x4 * k
abbrev MGN_WEAR (k : Nat) : Nat := 0xF3240 + 0x4 * k
abbrev MGN_SPARES : Nat := 0xF3260
abbrev MGN_RUNS : Nat := 0xF3270
abbrev SVC_DDR_CFG : Nat := 0x100080
abbrev SVC_DDR_STAT : Nat := 0x100084
abbrev SVC_CMD : Nat := 0x100088
abbrev SVC_OFFSET : Nat := 0x10008C
abbrev SVC_LEN : Nat := 0x100090
abbrev SVC_RING_MAP : Nat := 0x100094
abbrev SVC_PART_STAT (k : Nat) : Nat := 0x1000A0 + 0x8 * k
abbrev SVC_PART_VER (k : Nat) : Nat := 0x1000A4 + 0x8 * k
abbrev SVC_CLAIM (k : Nat) : Nat := 0x1000C0 + 0x4 * k
abbrev SVC_WDT_EXP : Nat := 0x1000E0
abbrev SVC_RESTART : Nat := 0x1000E4
abbrev SVC_LOAD_FAIL : Nat := 0x1000E8
abbrev SVC_FW_VIOL : Nat := 0x1000EC
abbrev SVC_MEM_UNCORR : Nat := 0x1000F0
abbrev SVC_RES_STAT : Nat := 0x100200
abbrev SVC_RES_ACK : Nat := 0x100204
abbrev SVC_RES_DATA (k : Nat) : Nat := 0x100240 + 0x4 * k
abbrev SVC_BUF (k : Nat) : Nat := 0x100800 + 0x4 * k

/-! The common header (Table 2-3), by page base. -/
abbrev BLK_CTRL (base : Nat) : Nat := base + 0x10
abbrev BLK_STAT (base : Nat) : Nat := base + 0x14
abbrev INT_RAW (base : Nat) : Nat := base + 0x18
abbrev INT_EN (base : Nat) : Nat := base + 0x1C
abbrev INT_STAT (base : Nat) : Nat := base + 0x20
abbrev INT_FORCE (base : Nat) : Nat := base + 0x24
abbrev BLK_LOCK (base : Nat) : Nat := base + 0x28
abbrev FENCE_SEEN (base : Nat) : Nat := base + 0x2C
abbrev ERR_CAP0 (base : Nat) : Nat := base + 0x30
abbrev CNT_SNAP (base : Nat) : Nat := base + 0x40
abbrev CNT_SNAP_DONE (base : Nat) : Nat := base + 0x44
abbrev CNT_SNAP_ACK (base : Nat) : Nat := base + 0x48
abbrev SNAP_FRC_LO (base : Nat) : Nat := base + 0x50
abbrev SNAP_FRC_HI (base : Nat) : Nat := base + 0x54
abbrev CMD_REJ_CNT (base : Nat) : Nat := base + 0x58

end Sys2Proof.Reg

/-! INT_RAW bit numbers by their names in the spec (the common bits are those of R30). -/
namespace Sys2Proof.Irq
abbrev CMD_REJECT : Nat := 31
abbrev SNAP_DONE : Nat := 30
abbrev ERR : Nat := 29
abbrev GLB_FENCE_RETIRED0 : Nat := 0
abbrev GLB_FENCE_RETIRED1 : Nat := 1
abbrev GLB_FENCE_RETIRED2 : Nat := 2
abbrev GLB_FENCE_RETIRED3 : Nat := 3
abbrev GLB_FENCE_RETIRED4 : Nat := 4
abbrev GLB_ACC_VIOL : Nat := 5
abbrev CRU_GATE_DEFER : Nat := 0
abbrev CRU_GATE_REJ : Nat := 1
abbrev CRU_PLL_UNLOCK : Nat := 2
abbrev CRU_XINA_LOST : Nat := 3
abbrev CRU_XINA_FAIL : Nat := 4
abbrev CRU_TRIM_LIMIT : Nat := 5
abbrev AON_WAKE : Nat := 0
abbrev AON_SLEEP_ABORT : Nat := 1
abbrev AON_SLEEP_FAIL : Nat := 2
abbrev AON_FALSE_WAKE : Nat := 3
abbrev AON_FW_DISARM : Nat := 4
abbrev AON_PG_FAIL : Nat := 5
abbrev AON_TRANS_REJ : Nat := 6
abbrev AON_TRANS_DONE : Nat := 7
abbrev AON_TRANS_ABORT : Nat := 8
abbrev PFC_WRAP_G0 : Nat := 0
abbrev PFC_WRAP_G1 : Nat := 1
abbrev PFC_WRAP_G2 : Nat := 2
abbrev PFC_WRAP_G3 : Nat := 3
abbrev PFC_WRAP_G4 : Nat := 4
abbrev PFC_WRAP_G5 : Nat := 5
abbrev PFC_WRAP_G6 : Nat := 6
abbrev PFC_WRAP_G7 : Nat := 7
abbrev TWN_TAKEOVER : Nat := 0
abbrev TWN_PARTNER_LOST : Nat := 1
abbrev TWN_TWIN_ISOLATED : Nat := 2
abbrev TWN_LINK_LOST : Nat := 3
abbrev TWN_DIVERGENCE : Nat := 4
abbrev TWN_SELFTEST_FAIL : Nat := 5
abbrev TWN_ROTATED : Nat := 6
abbrev TWN_HB_PATH : Nat := 7
abbrev TWN_CFG_MISMATCH : Nat := 8
abbrev TWN_READY : Nat := 9
abbrev TWN_ROSTER : Nat := 10
abbrev TWN_TWIN_REFUSED : Nat := 11
abbrev HIF_DMA_ERR : Nat := 0
abbrev HIF_DB_ERR : Nat := 1
abbrev HIF_QSPI_ERR : Nat := 2
abbrev HIF_IBM_AUTH_FAIL : Nat := 3
abbrev HIF_PCIE_DOWN : Nat := 4
abbrev HIF_PCIE_RESET : Nat := 5
abbrev GPI_EDGE : Nat := 0
abbrev GPI_OUT_REJ : Nat := 1
abbrev ICL_RUNT : Nat := 0
abbrev ICL_STEER_DROP : Nat := 1
abbrev ICT_SEED_REJ : Nat := 0
abbrev SRT_SPOOF : Nat := 0
abbrev SRT_IDENT_CONFLICT : Nat := 1
abbrev SRT_AUTH_MISSING : Nat := 2
abbrev SRT_DUPLICATE : Nat := 3
abbrev SRT_IDENT_DATA_CONFLICT : Nat := 4
abbrev ADT_SEED_REJ : Nat := 0
abbrev ADT_BAD_SMAC : Nat := 1
abbrev LRN_FLAP : Nat := 0
abbrev LRN_Q_OVF : Nat := 1
abbrev LRN_LEARN_FULL : Nat := 2
abbrev LRN_SEQ_GAP : Nat := 3
abbrev LRN_PEER_DOWN : Nat := 4
abbrev LRN_ANCHOR_REJ : Nat := 5
abbrev BSN_OVER_QUOTA : Nat := 0
abbrev BSN_POISON : Nat := 1
abbrev BSN_DESC_EXH : Nat := 2
abbrev BSN_REPL_OVF : Nat := 3
abbrev BSN_ECC_UNCORR : Nat := 4
abbrev BSN_RSV_REJ : Nat := 5
abbrev BSN_RXF_GAP : Nat := 6
abbrev BSN_RING_ERR : Nat := 7
abbrev RAK_RECLAIM : Nat := 0
abbrev RAK_DOUBLE : Nat := 1
abbrev RAK_LIST_BREAK : Nat := 2
abbrev RAK_OVERRUN : Nat := 3
abbrev EDY_LOST_0 : Nat := 0
abbrev EDY_LOST_1 : Nat := 1
abbrev EDY_LOST_2 : Nat := 2
abbrev EDY_LOST_3 : Nat := 3
abbrev EDY_LOST_4 : Nat := 4
abbrev EDY_LOST_5 : Nat := 5
abbrev EDY_LOST_6 : Nat := 6
abbrev EDY_LOST_7 : Nat := 7
abbrev EGS_PAUSE_START : Nat := 0
abbrev EGS_VERIFY_FAIL : Nat := 1
abbrev EGS_UNRSV_DROP : Nat := 2
abbrev EGS_CFG_CONFLICT : Nat := 3
abbrev WEI_DROP : Nat := 0
abbrev WEI_LATE_RED : Nat := 1
abbrev WEI_REJ : Nat := 2
abbrev SLU_OVERRUN : Nat := 0
abbrev SLU_TOO_BIG : Nat := 1
abbrev SLU_CFG_ERR : Nat := 2
abbrev SLU_CHANGED : Nat := 3
abbrev BUD_BOUND_LOST : Nat := 0
abbrev BUD_PROV_CLEARED : Nat := 1
abbrev BUD_FULL : Nat := 2
abbrev HAD_ADMITTED : Nat := 0
abbrev HAD_FLAGGED : Nat := 1
abbrev HAD_BLOCKED : Nat := 2
abbrev HAD_UNKNOWN : Nat := 3
abbrev HAD_BAD_SIG : Nat := 4
abbrev HAD_NO_RESP : Nat := 5
abbrev HAD_HEAD_CHANGED : Nat := 6
abbrev HAD_LIFE_WARN : Nat := 7
abbrev HAD_LIFE_END : Nat := 8
abbrev HAD_LIFE_ROLLBACK : Nat := 9
abbrev FGD_STALE : Nat := 0
abbrev FGD_FROZEN : Nat := 1
abbrev FGD_REPLAY : Nat := 2
abbrev FGD_AGE : Nat := 3
abbrev FGD_NOKEY : Nat := 4
abbrev FGD_RSEQ_WARN : Nat := 5
abbrev FGD_LOSS : Nat := 6
abbrev FRE_LATENT : Nat := 0
abbrev FRE_REJ : Nat := 1
abbrev FRE_ROGUE : Nat := 2
abbrev EPT_LINK_UP : Nat := 0
abbrev EPT_LINK_DOWN : Nat := 1
abbrev EPT_TRAIN_FAIL : Nat := 2
abbrev EPT_SLEEP_RX : Nat := 3
abbrev EPT_SLEPT : Nat := 4
abbrev EPT_WAKE : Nat := 5
abbrev EPT_HI_BER : Nat := 6
abbrev EPT_PLCA_ERR : Nat := 7
abbrev CAN_L0_0 : Nat := 0
abbrev CAN_L0_1 : Nat := 1
abbrev CAN_L0_2 : Nat := 2
abbrev CAN_L0_3 : Nat := 3
abbrev CAN_RXQ : Nat := 4
abbrev CAN_RXQ_OVF : Nat := 5
abbrev CAN_ERR_PASSIVE : Nat := 6
abbrev CAN_BUS_OFF : Nat := 7
abbrev CAN_RECOVERED : Nat := 8
abbrev CAN_ID_COLLISION : Nat := 9
abbrev CAN_TXL_FULL : Nat := 10
abbrev CAN_CFG_ERR : Nat := 11
abbrev CAN_PEX : Nat := 12
abbrev LIN_RX : Nat := 0
abbrev LIN_ERR : Nat := 1
abbrev LIN_WAKE_RX : Nat := 2
abbrev LIN_SLEPT : Nat := 3
abbrev LIN_SWITCHED : Nat := 4
abbrev LIN_CFG_ERR : Nat := 5
abbrev LIN_COLLISION : Nat := 6
abbrev CFL_PDU_TIMEOUT : Nat := 0
abbrev CFL_RANGE : Nat := 1
abbrev CFL_SAT : Nat := 2
abbrev CFL_LATE : Nat := 3
abbrev CFL_CFG_ERR : Nat := 4
abbrev CFL_TUN_ERR : Nat := 5
abbrev CFL_AUTH_DROP : Nat := 6
abbrev CFL_RECOVERED : Nat := 7
abbrev TIM_PDELAY_FAIL : Nat := 0
abbrev TIM_CFG_ERR : Nat := 1
abbrev TIM_COMPAT_REFUSED : Nat := 2
abbrev TIM_SRV_INT : Nat := 3
abbrev TIM_FRC_CARRY : Nat := 4
abbrev DOM_LOCKED : Nat := 0
abbrev DOM_UNLOCKED : Nat := 1
abbrev DOM_MASTER_JUMP : Nat := 2
abbrev DOM_SYNC_TIMEOUT : Nat := 3
abbrev DOM_STEPPED : Nat := 4
abbrev DOM_CMD_REJ : Nat := 5
abbrev DOM_RATE_CLAMP : Nat := 6
abbrev DOM_ERR_READY : Nat := 7
abbrev VLT_LOCKED : Nat := 0
abbrev VLT_ZEROISED : Nat := 1
abbrev VLT_GLITCH : Nat := 2
abbrev VLT_ORPHAN : Nat := 3
abbrev VLT_WARN : Nat := 4
abbrev VLT_AUTH_FAIL : Nat := 5
abbrev VLT_OWNER_CHANGED : Nat := 6
abbrev VLT_IDENT_FAIL : Nat := 7
abbrev CAU_FAIL : Nat := 0
abbrev CAU_NOKEY : Nat := 1
abbrev CAU_WARN : Nat := 2
abbrev CAU_EXHAUSTED : Nat := 3
abbrev CAU_TX_FORM : Nat := 4
abbrev CAU_REJ : Nat := 5
abbrev LCE_TAG_FAIL : Nat := 0
abbrev LCE_PN_WARN : Nat := 1
abbrev LCE_PN_EXHAUSTED : Nat := 2
abbrev LCE_TX_NO_SA : Nat := 3
abbrev LCE_KEY_FAIL : Nat := 4
abbrev LCE_PURGED : Nat := 5
abbrev LCE_REJ : Nat := 6
abbrev MGS_RESTARTED : Nat := 0
abbrev MGS_HALTED : Nat := 1
abbrev MGS_SENS_ALARM : Nat := 2
abbrev MGS_JOURNAL_FULL : Nat := 3
abbrev MGS_MRAM_REMAP : Nat := 4
abbrev MGS_UNBOR_UNLOCKED : Nat := 5
abbrev EVL_SEC_WARN : Nat := 0
abbrev EVL_SEC_OVERWRITE : Nat := 1
abbrev EVL_SUPPRESSED : Nat := 2
abbrev EVL_CKPT : Nat := 3
abbrev UPD_REFUSED : Nat := 0
abbrev UPD_ACTIVATED : Nat := 1
abbrev UPD_FALLBACK : Nat := 2
abbrev UPD_CONFIRMED : Nat := 3
abbrev MGN_RUN_DONE : Nat := 0
abbrev MGN_WARN : Nat := 1
abbrev MGN_EXHAUSTED : Nat := 2
abbrev SVC_WDT_EXP : Nat := 0
abbrev SVC_RESTART : Nat := 1
abbrev SVC_HALTED : Nat := 2
abbrev SVC_LOAD_FAIL : Nat := 3
abbrev SVC_FW_VIOL : Nat := 4

end Sys2Proof.Irq
end

