-- ==== Sys2Proof/Machine/Tab.lean ====
section
/-! DEFINITION. Sparse tables in one canonical form: a list of (key, value) pairs with strictly rising keys, no pair holding
what an unlisted key reads as. Registers, forwarding tables and every numbered item of the machine are held this way. -/

namespace Sys2Proof.Machine

/-- A sparse table. -/
abbrev Tab (V : Type) := List (Nat × V)

/-- The value at a key: what an unlisted key reads as is `d`. [DESIGN CHOICE, log entry 19] -/
def Tab.get {V : Type} (d : Nat → V) : Tab V → Nat → V
  | [], k => d k
  | (a, v) :: t, k => if a = k then v else Tab.get d t k

/-- Remove every pair of a key. -/
def Tab.erase {V : Type} : Tab V → Nat → Tab V
  | [], _ => []
  | (a, v) :: t, k => if a = k then Tab.erase t k else (a, v) :: Tab.erase t k

/-- Put a pair in its place. -/
def Tab.put {V : Type} : Tab V → Nat → V → Tab V
  | [], k, x => [(k, x)]
  | (a, v) :: t, k, x =>
    if a = k then (k, x) :: t else if k < a then (k, x) :: (a, v) :: t else (a, v) :: Tab.put t k x

/-- Write a key, keeping the canonical form: writing what an unlisted key reads as removes the pair. -/
def Tab.set {V : Type} [DecidableEq V] (d : Nat → V) (t : Tab V) (k : Nat) (x : V) : Tab V :=
  match t with
  | [] => if x = d k then [] else [(k, x)]
  | p :: r => if x = d k then Tab.erase (p :: r) k else Tab.put (p :: r) k x

/-- Keys strictly rise from above `lo`. -/
def Tab.rising {V : Type} : Nat → Tab V → Bool
  | _, [] => true
  | lo, (a, _) :: t => decide (lo ≤ a) && Tab.rising (a + 1) t

/-- The canonical form. -/
def Tab.wf {V : Type} [DecidableEq V] (d : Nat → V) (t : Tab V) : Bool :=
  Tab.rising 0 t && t.all (fun p => decide (p.2 ≠ d p.1))

/-- Keep the pairs whose key satisfies `p`. -/
def Tab.keep {V : Type} (p : Nat → Bool) (t : Tab V) : Tab V := t.filter (fun x => p x.1)

end Sys2Proof.Machine
end

