-- ==== Sys2Proof/Machine/RegReset.lean ====
section
/-! DEFINITION. What a register that nothing has written reads as: the reset column of the register maps. -/

namespace Sys2Proof.Machine

/-- The page-local reset values that depend on the instance or the index: the EPT fields that apply to a port's kind (Tables 7-1 and 7-6), DOM_CFG.NUMBER,
LCE_PORT_CFG.PORT_ID, AON_WSRC_CFG and MGS_SENS_THR (Table 15-7). [DESIGN CHOICE, log entry 2] -/
def regResetAt (b : Blk) (inst off : Nat) (r : Nat) : Nat :=
  match b with
  | .ept =>
    if off = 0x80 then
      if inst < 8 then r + 2 else if inst < 16 then r + 1 else if inst < 20 then r
      else if inst < 22 then r + 1 else r + 2
    else if off = 0x90 ∨ off = 0x94 then (if 16 ≤ inst ∧ inst < 20 then r else 0)
    else if off = 0x98 then (if 8 ≤ inst ∧ inst < 16 then r else 0)
    else if off = 0xA4 then (if 20 ≤ inst then r else 0)
    else r
  | .dom => if off = 0x80 then r + inst * 0x100 else r
  | .lce => if off = 0x80 then r + (inst + 1) * 0x10000 else r
  | .aon =>
    if off = 0x1B0 then 0xD else if off = 0x1B4 ∨ off = 0x1B8 then 0x5 else r
  | .mgs =>
    if 0x100 ≤ off ∧ off < 0x100 + 19 * 4 then
      let k := (off - 0x100) / 4
      let lo := [0, 0, 0, 0, 0, 0, 0, 0, 650, 760, 855, 1710, 808, 1045, 570, 1710, 3135, 3135, 16000].getD k 0
      let hi := [0, 0, 0, 0, 0, 0, 0, 0, 880, 840, 945, 1890, 892, 1155, 630, 1890, 3465, 3465, 32000].getD k 0
      if k < 8 then (65536 - 180) + 500 * 65536 else lo + hi * 65536
    else r
  | _ => r

/-- The reset value of the register at a key of the register store: the address is its low 26 bits (`bankKey`, `itemKey`). [DESIGN CHOICE, log entry 2; DEDUCED, log entries 63, 82] -/
def regReset (key : Nat) : Word :=
  let a := key % 0x4000000
  match pageOf (a / 0x1000) with
  | none => 0
  | some (b, i) =>
    match findReg b (a % 0x1000) with
    | none => 0
    | some (d, _) => BitVec.ofNat 32 (regResetAt b i (a % 0x1000) d.reset)

end Sys2Proof.Machine
end

