-- ==== Sys2Proof/Machine/StBus.lean ====
section
/-! DEFINITION. State types of the register space, the Table Access Port, the learning engine and the event log's requests. -/

namespace Sys2Proof.Machine

/-- Result codes and data of a command that has completed or is about to (Tables 2-9 and 2-10). -/
structure Result where
  code : Nat
  index : Nat
  len : Nat
  data : List Word
  buf : List Byte
deriving DecidableEq, Repr

/-- A result slot (R49-R52). `held` is the result a BUSY command will publish at its completion. -/
structure Slot where
  valid : Bool
  busy : Bool
  owner : Nat
  seq : Nat
  res : Result
  held : Option Result
deriving DecidableEq, Repr

/-- A slot at reset: IDLE, OWNER 0, SEQ 0, data 0. -/
def Slot.reset : Slot := ⟨false, false, 0, 0, ⟨0, 0, 0, [], []⟩, none⟩

/-- A fence ticket that has not retired: the pages its master wrote since its previous fence, and whether a COMMIT written
before it is still outstanding (R41). -/
structure Ticket where
  num : Nat
  pages : List Nat
  commit : Bool
deriving DecidableEq, Repr

/-- A master's fences. -/
structure Fences where
  waiting : List Ticket
  touched : List Nat
deriving DecidableEq, Repr

def Fences.reset : Fences := ⟨[], []⟩

/-- The high words that a read of a low word holds for a master on a page (R54). -/
structure Hold where
  highs : List (Nat × Word)
deriving DecidableEq, Repr

def Hold.reset : Hold := ⟨[]⟩

/-- A page's counter snapshot (R55, R56): the counter registers and the FRC it captured. -/
structure Snap where
  taken : Bool
  all : Bool
  regs : Tab Word
  frc : Nat
deriving DecidableEq, Repr

def Snap.reset : Snap := ⟨false, false, [], 0⟩

/-- One staged table change of the TAP (R45-R48). -/
inductive Staged where
  | write (table index : Nat) (data : BitVec 512)
  | insert (table : Nat) (key : BitVec 128) (data : BitVec 512)
  | delIndex (table index : Nat)
  | delKey (table : Nat) (key : BitVec 128)
deriving DecidableEq, Repr

/-- A learn request (R83, R90). `origin` is the announcing anchor's node of a remote record. -/
structure LearnReq where
  mac : Nat
  vid : Nat
  port : Nat
  origin : Option Nat
  withdraw : Bool
deriving DecidableEq, Repr

/-- One table write of the ADT update engine (R78): RELOC set at an index, the entry copied to its new index, the old copy invalidated,
RELOC cleared (and the move counted), and the new entry's own write. -/
inductive AdtWrite where
  | mark (src : Nat)
  | copy (src dst : Nat)
  | drop (src : Nat)
  | clear (dst : Nat)
  | put (i : Nat) (entry : BitVec 512)
deriving DecidableEq, Repr

/-- What the learning engine and the anchor exchange hold besides their registers; `moves` are the writes of a placement that the ADT
update engine has still to make, in order. -/
structure LrnSt where
  moves : List AdtWrite
  queue : List LearnReq
  annPend : List (Nat × Nat)
  wdPend : List (Nat × Nat)
  lastAnn : Tab Nat
  txSeq : Tab Nat
  lastAdv : Nat
  nextAdv : Nat
deriving DecidableEq, Repr

def LrnSt.reset : LrnSt := ⟨[], [], [], [], [], [], 0, 1000000000⟩

/-- A request for an event log record (R416): time, TYPE, SOURCE page, payload. -/
structure LogReq where
  time : Nat
  type : Nat
  source : Nat
  payload : List Byte
deriving DecidableEq, Repr

end Sys2Proof.Machine
end

