-- ==== Sys2Proof/Machine/StFwd.lean ====
section
/-! DEFINITION. State types of the frame path: the Basin, the egress ports, Sluices, Weirs, the Budget Engine, FRER, the
Freshness Guard, head admission, the Ethernet ports and the host interface. -/

namespace Sys2Proof.Machine

/-! ### Routes and stored frames (chapters 3 and 4) -/

/-- What stage 4 settles for a frame, and what the frame keeps for its whole passage (R22). `dest` is the destination set
as a mask in the numbering of R70. -/
structure Route where
  dest : Nat
  tc : Nat
  meter : Option Nat
  frer : Option Nat
  view : Option Nat
  pdu : Option Nat
  ct : Bool
  auth : Bool
  minInt : Nat
  owner : Nat
  srt : Bool
deriving DecidableEq, Repr

/-- Where a copy stands: waiting for its verdict, linked to its queue, leaving cut-through or from its queue, released. -/
inductive CopySt where
  | waiting | queued | sending | done
deriving DecidableEq, Repr

/-- A copy of a stored frame (Table 4-1): destination, class, queue, cut-through, the host ring it goes to, the Eddy rule it
belongs to (with the Basin drop reason its metadata shows). -/
structure Copy where
  dest : Nat
  tc : Nat
  q : Nat
  ct : Bool
  st : CopySt
  ring : Nat
  eddy : Option (Nat × Nat)
deriving DecidableEq, Repr

/-- An own Sync whose time fields are inserted at egress (R287, R289): domain, relayed or grandmaster's, the received
preciseOriginTimestamp, the part of correctionField known at queueing (2^-16 ns), and the domain's step count then. -/
structure OwnSync where
  dom : Nat
  relay : Bool
  origin : Nat
  corr : Int
  steps : Nat
deriving DecidableEq, Repr

/-- What a message of the time unit asks for when it leaves its port: nothing but its count, a Sync's time fields, the egress stamp of a
Pdelay_Req, or the Pdelay_Resp_Follow_Up of a Pdelay_Resp (R286-R289). -/
inductive OwnMsg where
  | plain
  | sync (o : OwnSync)
  | delayReq (seq : Nat)
  | delayResp (seq : Nat) (requester : List Byte)
deriving DecidableEq, Repr

/-- A stored frame (Table 4-1) and what later stages need of it: bytes from the DMAC to before the FCS (a bus frame: header
and data), ingress timestamp, handle, route, verdict state and cause, the cells it holds, its fabric path, its copies; the
provisional and final DEI marks and colour; the SA it arrived under and its PN; its FRER number and the recovery function that took it;
what it asks of the time unit when it leaves; the FCS it was received with, where that is not the right one. -/
structure Frame where
  ingress : Nat
  bus : Bool
  bytes : List Byte
  ts : Nat
  handle : Option Nat
  route : Route
  state : Nat
  cause : Nat
  cells : List Nat
  path : Nat
  copies : List Copy
  provMark : Bool
  mark : Bool
  colour : Nat
  preemptable : Bool
  sa : Option (Nat × Nat)
  tagOk : Bool
  seqNo : Option Nat
  taken : Option (Nat × Nat)
  repeated : Bool
  own : Option OwnMsg
  fcs : Option (List Byte)
deriving DecidableEq, Repr

/-- A record of a receive FIFO (Table 4-7): its two header words and its packet's bytes, whether it is committed; of one still open the
data words written, and the time and rate (kbit/s) from which its words fall due. `kind`, in a FIFO of port 23: 1 a bus frame, 2 an Eddy
copy, 3 both (R445). -/
structure RxRec where
  w0 : BitVec 64
  w1 : BitVec 64
  data : List Byte
  committed : Bool
  fid : Nat
  written : Nat
  since : Nat
  rate : Nat
  kind : Nat
deriving DecidableEq, Repr

/-- A host receive FIFO (R123-R127): records, pointers in words and the drops that await a gap marker. -/
structure RxFifo where
  recs : List RxRec
  wr : Nat
  rd : Nat
  cm : Nat
  pend : Nat
deriving DecidableEq, Repr

def RxFifo.reset : RxFifo := ⟨[], 0, 0, 0, 0⟩

/-- A host transmit FIFO: its pointers in words. -/
structure TxFifo where
  wr : Nat
  rd : Nat
deriving DecidableEq, Repr

def TxFifo.reset : TxFifo := ⟨0, 0⟩

/-- A frame being received on a port's express or preemptable MAC: its bytes on the wire before the FCS, and the stored frame it is,
unless a stage has dropped it; of one that a stage has dropped the SA it arrived under and its tag's verdict (R335), and the bytes that a
block inside takes at its end (R62, R151); its ingress stamp. -/
structure Arrival where
  wire : List Byte
  fid : Option Nat
  sa : Option (Nat × Nat)
  tagOk : Bool
  taken : Option (List Byte)
  ts : Nat
deriving DecidableEq, Repr

/-- The Basin (R93-R129): stored frames by number, the next number, the 240 queues as (frame, copy index) lists in link order, the
instants at which the replicator will have finished the frames in its queue, frames being received by port * 2 + preemptable, the
seed in force for flow hashing, the last accepted frame of each handle under R74, and the Rake: an audit in progress (and one
due after it), its start, the cells allocated or freed during it, the suspects of the last completed audit, its duration; the cells that a
failed link record has left unreachable (R94), and whether a poison has been captured since INT_RAW[1] was last written 1 (R111). -/
structure BasinSt where
  frames : Tab (Option Frame)
  nextId : Nat
  queues : Tab (List (Nat × Nat))
  repl : List Nat
  arriving : Tab (Option Arrival)
  seed : Word
  minInt : Tab (Option (Nat × Nat))
  auditOn : Bool
  auditDue : Bool
  auditStart : Nat
  moved : List Nat
  suspects : List Nat
  lastDur : Nat
  rx : Tab RxFifo
  tx : Tab TxFifo
  lost : List Nat
  poisoned : Bool
deriving DecidableEq, Repr

def BasinSt.reset : BasinSt :=
  { frames := [], nextId := 0, queues := [], repl := [], arriving := [], seed := 0x5D2A91C4, minInt := [], auditOn := false,
    auditDue := false, auditStart := 0, moved := [], suspects := [], lastDur := 0, rx := [], tx := [],
    lost := [], poisoned := false }

/-! ### Weirs, egress ports, Sluices, budgets (chapter 5) -/

/-- A Weir meter (Table 5-1): its entry words, token levels in bytes with a 16-bit fraction, time of its last evaluation. -/
structure Meter where
  d0 : Word
  d1 : Word
  d2 : Word
  d3 : Word
  d4 : Word
  tc : Nat
  tp : Nat
  last : Nat
deriving DecidableEq, Repr

def Meter.reset : Meter := ⟨0, 0, 0, 0, 0, 0, 0, 0⟩

/-- A copy on a port's transmitter: its frame and copy index, whether it is preemptable, its bytes on the wire (FCS not
included), its class, and the time its fragment in progress began. [DESIGN CHOICE, log entry 93] -/
structure Tx where
  fid : Nat
  idx : Nat
  pre : Bool
  bytes : List Byte
  tc : Nat
  since : Nat
deriving DecidableEq, Repr

/-- An egress port's scheduler (R137-R152): the frame in progress and the suspended preemptable frame (with the bytes of it sent
in earlier fragments), the DRR deficits and the pointers of the express and preemptable groups, the credits of the classes in
10^-6 bit and the time they were last brought up to date, verify frames sent, Set-And-Hold in force, the start of the pause. -/
structure Egr where
  tx : Option Tx
  susp : Option Tx
  deficit : List Nat
  ptrE : Nat
  ptrP : Nat
  credits : List Int
  creditAt : Nat
  tries : Nat
  hold : Bool
  frag : Nat
  pauseAt : Nat
deriving DecidableEq, Repr

def Egr.reset : Egr := ⟨none, none, List.replicate 8 0, 7, 7, List.replicate 8 0, 0, 0, false, 0, 0⟩

/-- A gate configuration: base, cycle, extension, length and list (Table 5-3, entries as (D0, D1)). -/
structure GateCfg where
  base : Nat
  cycle : Nat
  ext : Nat
  len : Nat
  list : Tab (Word × Word)
deriving DecidableEq, Repr

/-- A gate list entry at reset: the reset values of SLU_GCL_D0 and SLU_GCL_D1. -/
def gclReset : Nat → Word × Word := fun _ => (0xFF, 0xF4240)

/-- A Sluice (R142-R148): the administrative list, the operating configuration, the pending one with its change time, whether
a cycle has started since GATE_EN (and GATE_EN's own domain time), the entry and gates in force. -/
structure Sluice where
  admin : Tab (Word × Word)
  oper : Option GateCfg
  pend : Option (GateCfg × Nat)
  started : Bool
  enAt : Int
  cur : Nat
  gates : Nat
deriving DecidableEq, Repr

def Sluice.reset : Sluice := ⟨[], none, none, false, 0, 0, 0xFF⟩

/-- A reservation (Tables 5-4 and 5-6). `state`: 0 FREE, 1 PROVISIONAL, 2 ACTIVE, 3 VIOLATED. -/
structure Resv where
  state : Nat
  handle : Nat
  port : Nat
  tc : Nat
  maxFrame : Nat
  n : Nat
  interval : Nat
  target : Nat
  bound : Nat
deriving DecidableEq, Repr

def Resv.free : Resv := ⟨0, 0, 0, 0, 0, 0, 0, 0, 0⟩

/-- A Budget Engine command waiting its turn (R156). -/
structure BudCmd where
  m : Nat
  op : Nat
  index : Nat
  r0 : Word
  r1 : Word
  r2 : Word
  r3 : Word
deriving DecidableEq, Repr

/-- What the Budget Engine has to do (R156): a command that waits, the one in progress (its master's slot holds its result), an automatic
re-check of a port. -/
inductive BudWork where
  | cmd (c : BudCmd)
  | running (m : Nat)
  | recheck (p : Nat)
deriving DecidableEq, Repr

/-- The Budget Engine: reservations, commands and automatic re-checks in arrival order, the first of them in progress, and which
draw of the free value the last command's duration is (plus 1; 0 before any). -/
structure BudSt where
  resv : Tab Resv
  work : List BudWork
  timeDraw : Nat
deriving DecidableEq, Repr

def BudSt.reset : BudSt := ⟨[], [], 0⟩

/-! ### FRER, Freshness Guard, heads (chapter 6) -/

/-- A FRER function (Table 6-7): entry words, next generation number or RecovSeqNum, TAKE_ANY, the history (bit i: RecovSeqNum
minus i was taken), and the latent error test's base and count of errors. -/
structure FreFn where
  d0 : Word
  d1 : Word
  d2 : Word
  d3 : Word
  seq : Nat
  takeAny : Bool
  hist : Nat
  latBase : Int
deriving DecidableEq, Repr

/-- A function at reset: FRE_SEQ reads 0, TAKE_ANY included (Table 6-17); the APPLY that enables it resets its sequence state. -/
def FreFn.reset : FreFn := ⟨0, 0, 0, 0, 0, false, 0, 0⟩

/-- An open video frame (R183-R185): its stream, PRES_TIME, END_TIME (domain ns), first and last sequence_num counted, view frames
counted and lost, a repeat seen, the running digest, and the sequence numbers of its frames with a bad verdict. -/
structure Video where
  streamId : Nat
  pres : Option Nat
  endTime : Int
  firstSeq : Nat
  lastSeq : Nat
  frames : Nat
  lost : Nat
  repeated : Bool
  crc : Nat
  bad : List Nat
deriving DecidableEq, Repr

/-- A view frame that passed stage 6 and is not judged yet (R184): its frame number, its route's OWNER, its bytes and ingress timestamp,
whether it passed a recovery function, and its verdict once known. -/
structure ViewFrame where
  fid : Nat
  owner : Nat
  bytes : List Byte
  ts : Nat
  frer : Bool
  verdict : Option Bool
deriving DecidableEq, Repr

/-- A view (Tables 6-9 and 6-16): words W0-W7, an APPLY that waits for the next close, the state (0 OFF, 1 LIVE, 2 STALE), SAME_COUNT,
what the closes remember, its instants, the open video frame, the OWNER of the route its frames came by, its next RSEQ and the end
of the values reserved for it, the records held for a reservation, NOKEY, the RSEQ warning given since the start-up, and the frames in order of arrival whose
judging waits for a verdict. -/
structure View where
  w : List Word
  pendW : Option (List Word)
  state : Nat
  same : Nat
  prevDigest : Option Nat
  prevPres : Option Nat
  expect : Option Nat
  prevStatus : Nat
  lastFresh : Option Int
  deadline : Nat
  next : Nat
  video : Option Video
  owner : Option Nat
  rseq : Nat
  rsvEnd : Nat
  held : List (List Byte)
  nokey : Bool
  warned : Bool
  wait : List ViewFrame
deriving DecidableEq, Repr

/-- The reset words of a view entry (Table 6-16). -/
def viewWords : List Word := [0x0A000800, 0x411B, 0x9C40, 0, 0x00400410, 0, 0, 0]

/-- A view at reset: OFF, RSEQ 0, its first block of 2^24 values reserved. -/
def View.reset : View := ⟨viewWords, none, 0, 0, none, none, none, 0, none, 0, 0, none, none, 0, 0x1000000, [], false, false, []⟩

/-- A head's life record (R173, Table 6-6). -/
structure Life where
  on : Nat
  hot : Nat
  cycles : Nat
  heater : Nat
  onBase : Nat
  observed : Nat
  ppm : Nat
  warned : Bool
  ended : Bool
deriving DecidableEq, Repr

def Life.reset : Life := ⟨0, 0, 0, 0, 0, 0, 0, false, false⟩

/-- A roster entry (Table 6-1). `state`: 0 EMPTY, 1 ENROLLED, 2 RETIRED. `admits` is ADMIT_COUNT with its SAT bit. PRESENT and
KEY_DIGEST are what the port states and the key give. -/
structure Head where
  state : Nat
  key : List Byte
  serial : List Byte
  model : Nat
  lastPort : Nat
  admits : Word
  lastAdmit : Nat
  life : Life
deriving DecidableEq, Repr

def Head.reset : Head := ⟨0, [], List.replicate 16 0, 0, 0, 0, 0, Life.reset⟩

/-- A PROOF (Table 6-4). -/
structure Proof where
  key : List Byte
  nonceH : List Byte
  serial : List Byte
  model : Nat
  on : Nat
  hot : Nat
  cycles : Nat
  heater : Nat
  msg : List Byte
  sig : List Byte
deriving DecidableEq, Repr

/-- A head port (Table 6-6a) besides HAD_PORT_STAT: the last CHALLENGE's NONCE_D and reason, the PROOFs in the Vault, the candidate,
the VERDICTs awaiting signature, whether the link was up since reset, the time of the last REQUEST that counted. -/
structure HeadPort where
  nonce : Option (List Byte)
  reason : Nat
  proofs : List Proof
  cand : Option Proof
  verdicts : List (List Byte)
  wasUp : Bool
  lastReq : Option Nat
deriving DecidableEq, Repr

def HeadPort.reset : HeadPort := ⟨none, 0, [], none, [], false, none⟩

/-- Head admission: the roster, its copy in MRAM with the life records as last written (R163, R173), the ports, and the last candidate's port and key (HAD_CAND_PORT, HAD_CAND_DIG). -/
structure HadSt where
  roster : Tab Head
  saved : Tab Head
  ports : Tab HeadPort
  lastCand : Option (Nat × List Byte)
deriving DecidableEq, Repr

def HadSt.reset : HadSt := ⟨[], [], [], none⟩

/-! ### Ethernet ports and the host interface (chapter 7) -/

/-- A port's link (Tables 7-2 and R198-R202): state (0 DOWN, 1 TRAINING, 2 HOLD, 3 UP, 4 SLEEP), a TC10 handshake in progress,
PLCA fallen back to CSMA/CD, collisions of the frame in progress. -/
structure Ept where
  link : Nat
  shaking : Bool
  fallback : Bool
  coll : Nat
  taps : Word
  planTaps : Word
  rxEq : Nat
deriving DecidableEq, Repr

/-- The taps in force and the planner's before either is set are EPT_EQ's reset value. [DESIGN CHOICE, log entry 37] -/
def Ept.reset : Ept := ⟨0, false, false, 0, 0x3000, 0x3000, 0⟩

/-- A host ring while enabled (R208): the taken base, size and vector, HEAD and TAIL, completions not yet signalled. -/
structure Ring where
  base : Nat
  size : Nat
  vector : Nat
  head : Nat
  tail : Nat
  unsig : Nat
deriving DecidableEq, Repr

def Ring.reset : Ring := ⟨0, 0, 1, 0, 0, 0⟩

/-- MSI-X (R58, R206, R216): the last OR of each vector, vector masks, the function mask, pending bits, and the table's other words:
message address, its high half and message data of vector v at 4 × v, 4 × v + 1 and 4 × v + 2. -/
structure Msix where
  ors : BitVec 64
  mask : BitVec 64
  funcMask : Bool
  pba : BitVec 64
  table : Tab Word
deriving DecidableEq, Repr

/-- Every vector masked, as PCI Express resets it, with address and data 0. [PRESUMED, log entry 40] -/
def Msix.reset : Msix := ⟨0, BitVec.allOnes 64, false, 0, []⟩

/-- An in-band FENCE whose ticket has not retired (R220): its master and ticket, and the request's SMAC, VID and SEQ. -/
structure IbmFence where
  m : Nat
  ticket : Nat
  smac : Nat
  vid : Nat
  seq : Nat
deriving DecidableEq, Repr

/-- The host interface: rings (receive r at r, transmit t at 16 + t), the QSPI STATUS byte, the last accepted in-band SEQ (held in
MRAM, R219), the subsystem IDs (R205), whether an access violation was recorded since the transaction being served began, the in-band
FENCE requests that await their tickets, the transmit ring last served at each priority (R210), and whether the PCIe Device Control
register permits Relaxed Ordering (R212). -/
structure HifSt where
  rings : Tab Ring
  qspi : BitVec 4
  ibmSeq : Nat
  subsys : Nat
  viol : Bool
  ibmWait : List IbmFence
  lastTx : Tab Nat
  relax : Bool
deriving DecidableEq, Repr

/-- Device Control permits Relaxed Ordering, as PCI Express resets it. [PRESUMED, log entry 40] -/
def HifSt.reset : HifSt := ⟨[], 0, 0, 0, false, [], [], true⟩

end Sys2Proof.Machine
end

