-- ==== Sys2Proof/Machine/StBuses.lean ====
section
/-! DEFINITION. State types of the CAN and LIN channels (chapter 8). -/

namespace Sys2Proof.Machine

/-- A copy in a CAN transmit list (R237, R343): its frame and copy index, the bus frame as it is sent, the instant it was linked
(ns) and how often it failed. -/
structure TxlItem where
  fid : Nat
  idx : Nat
  bytes : List Byte
  since : Nat
  fails : Nat
deriving DecidableEq, Repr

/-- A CAN channel (R231-R240): ESTATE (0 CONFIG, 1 INTEGRATING, 2 ACTIVE, 3 PASSIVE, 4 BUS_OFF), error counts, listen-only in
effect, the transmit list in arrival order, the copy on the wire, the receive queue (frames in the buffer form), the frames
that await a CAU verdict, whether the bus-off count has begun and how many occurrences it has, whether EN was written 0
while a frame was on the wire, and whether the delay timer of bus-off runs. -/
structure CanSt where
  estate : Nat
  tec : Nat
  rec_ : Nat
  listen : Bool
  txl : List TxlItem
  wire : Option TxlItem
  rxq : List (List Word)
  counting : Bool
  occ : Nat
  stopping : Bool
  delay : Bool
deriving DecidableEq, Repr

def CanSt.reset : CanSt := ⟨0, 0, 0, false, [], none, [], false, 0, false, false⟩

/-- What a LIN channel's slot in progress sends or expects (R244). -/
inductive LinSlot where
  | none
  | silent
  | send (f : Nat) | expect (f : Nat) (event : Bool) | sleep
deriving DecidableEq, Repr

/-- A LIN channel (R241-R247): state (0 CONFIG, 1 RUN, 2 SLEEP), the entry and table in progress, collision resolution running, the
table it is due to run at the slot's end, and the table and entry to resume at, a SWITCH that waits for the slot's end, the slot in
progress, the next entry to begin, the response_error bit, wake pulses sent, and SLEEP due at the slot's end. -/
structure LinSt where
  state : Nat
  cur : Nat
  table : Nat
  inColl : Bool
  collDue : Option Nat
  resume : Nat × Nat
  switch : Bool
  slot : LinSlot
  next : Nat
  respErr : Bool
  pulses : Nat
  sleepDue : Bool
deriving DecidableEq, Repr

def LinSt.reset : LinSt := ⟨0, 0, 0, false, none, (0, 0), false, .none, 0, false, 0, false⟩

end Sys2Proof.Machine
end

