-- ==== Sys2Proof/Machine/StCfl.lean ====
section
/-! DEFINITION. State types of Confluence (chapter 9). -/

namespace Sys2Proof.Machine

/-- The current value of a SOURCE (R253, R258, R270): stored value, NEVER, TIMED_OUT, SUBST, RANGE, and the instant (ns) AGE
counts from. `fresh` is set once the value has been initialised from the entry's SUBST. -/
structure SrcVal where
  value : Nat
  never : Bool
  timedOut : Bool
  subst : Bool
  range : Bool
  since : Nat
deriving DecidableEq, Repr

/-- A SOURCE at reset: NEVER. While NEVER holds the value reads as the entry's SUBST. -/
def SrcVal.reset : SrcVal := ⟨0, true, false, true, false, 0⟩

/-- An RX_SIG PDU's timeout (R258): the instant it runs from (none: Confluence's last enable), whether it has fired since, and whether the
PDU has timed out and not recovered. -/
structure RxPdu where
  since : Option Int
  fired : Bool
  out : Bool
deriving DecidableEq, Repr

/-- A TX_SIG PDU (R255, R260-R262): alive counter, whether it was ever sent and when, values last sent by PLACE index, when a
deferred transmission is due with the twin time of its cause, the last cyclic millisecond served plus 1, the payload
last sent. -/
structure TxPdu where
  alive : Nat
  sentAt : Option Nat
  lastSent : List (Nat × Int)
  deferred : Option (Nat × Int)
  cycle : Nat
  lastPay : List Byte
deriving DecidableEq, Repr

def TxPdu.reset : TxPdu := ⟨0, none, [], none, 0, []⟩

/-- A TUN_TX entry (R267, R268): sequence_num, the messages of the open NTSCF frame and the instant of its first message. -/
structure TunTx where
  seq : Nat
  msgs : List (List Byte)
  openAt : Nat
deriving DecidableEq, Repr

def TunTx.reset : TunTx := ⟨0, [], 0⟩

/-- A partial XL frame of a TUN_RX entry (R269): its BUS_ID, first message's header bytes, data so far and the sequence_num of
its last fragment. -/
structure XlPart where
  busId : Nat
  head : List Byte
  data : List Byte
  seq : Nat
deriving DecidableEq, Repr

/-- A TUN_RX entry: the last sequence_num and the partial XL frames. -/
structure TunRx where
  lastSeq : Option Nat
  parts : List XlPart
deriving DecidableEq, Repr

def TunRx.reset : TunRx := ⟨none, []⟩

/-- A frame Confluence presents: a bus frame with a target channel, or an Ethernet frame (R265, R266). -/
structure CflOut where
  bus : Bool
  target : Nat
  bytes : List Byte
deriving DecidableEq, Repr

/-- Confluence (R249-R271): SOURCE values, PDU timeouts, outgoing PDUs, tunnels, the work item in progress (its PDU and the
frames it will present), the instants of the last enable, reset and takeover, and the commits that wrote SOURCE entries. -/
structure CflSt where
  src : Tab SrcVal
  rx : Tab RxPdu
  tx : Tab TxPdu
  tun : Tab TunTx
  untun : Tab TunRx
  item : Option (Nat × List CflOut)
  enabledAt : Nat
  resetAt : Nat
  takeover : Option Nat
  srcWritten : Tab Nat
  pduWritten : Tab Nat
deriving DecidableEq, Repr

def CflSt.reset : CflSt := ⟨[], [], [], [], [], none, 0, 0, none, [], []⟩

end Sys2Proof.Machine
end

