-- ==== Sys2Proof/Machine/StVlt.lean ====
section
/-! DEFINITION. State types of the Austauth Vault (chapter 11) and of line authentication (chapter 12). -/

namespace Sys2Proof.Machine

/-- A key cell: attribute word A[63:0] and 64 bytes of key material at most (the public key for a public key). -/
structure Cell where
  attr : BitVec 64
  mat : List Byte
deriving DecidableEq, Repr

/-- An EMPTY cell. -/
def Cell.empty : Cell := ⟨0, []⟩

/-- A key slot (R305-R310): main and companion cell, its last GEN, nonce counter N with the end of the values reserved for it,
and the instant its grace timer ends. -/
structure KeySlot where
  main : Cell
  comp : Cell
  lastGen : Nat
  nonce : Nat
  rsvEnd : Nat
  grace : Option Nat
deriving DecidableEq, Repr

def KeySlot.reset : KeySlot := ⟨Cell.empty, Cell.empty, 0, 0, 0, none⟩

/-- An operation of the Vault in arrival order (R315): its master, OP, the arguments as they stood when it was accepted, the
result of a use that has started, and the alarms it has met. -/
structure VltOp where
  m : Nat
  op : Nat
  args : List Word
  buf : List Byte
  res : Option Result
  alarms : Nat
deriving DecidableEq, Repr

/-- A record of the counter writer's ring (R318): KIND, INDEX, VALUE, CRC. -/
structure CtrRec where
  kind : Nat
  index : Nat
  value : Nat
  crc : Nat
deriving DecidableEq, Repr

/-- A key an engine holds (R312): the slot and GEN it was loaded from and its material. -/
structure EngKey where
  slot : Nat
  gen : Nat
  alg : Nat
  mat : List Byte
deriving DecidableEq, Repr

/-- The Austauth Vault (R296-R324). `vstate`: 0 INIT, 1 OPEN, 2 LOCKED, 3 ZEROISED. `ident`: the DIK and DTK secrets with their
public keys, none when no identity record exists; `enrolled`: first power-up has taken place. `stage`: start-up stages
completed; `stageAlarms`: alarms in the present stage. `glitches`: instants of class 1 events in the window; `glitchTotal`:
class 1 events since first power. `rsvq`: records requested of the counter writer and not yet in MRAM. `draws`: TRNG draws so far (the free value's
argument). `helper`: the PUF helper data in MRAM, empty when none is enrolled; `kPuf`: K_PUF once reconstructed; `scramble`: the
scrambling key of the key SRAM (R297, R313, R323). `found`: what the checks of the wrapped and unwrapped records showed at this
start-up: the identity record, the owner record, the slots whose record fails. -/
structure VltSt where
  vstate : Nat
  claimed : Bool
  cosign : Bool
  updLock : Bool
  epoch : Nat
  boot : Nat
  lockCause : Nat
  sleepLatch : Bool
  latchTemp : Bool
  latchMesh : Bool
  zeroPend : Bool
  ident : Option (List Byte × List Byte × List Byte × List Byte)
  enrolled : Bool
  ownerKey : List Byte
  dsn : List Byte
  slots : Tab KeySlot
  nonces : Tab (Option (List Byte × Nat))
  ops : List VltOp
  ring : List CtrRec
  stage : Nat
  stageAlarms : Nat
  glitches : List Nat
  glitchTotal : Nat
  draws : Nat
  rsvq : List CtrRec
  fwDigest : List Byte
  fwVersion : Nat
  helper : List Byte
  kPuf : List Byte
  scramble : List Byte
  found : Bool × Bool × List Nat
deriving DecidableEq, Repr

def VltSt.reset : VltSt :=
  { vstate := 0, claimed := false, cosign := false, updLock := false, epoch := 0, boot := 0, lockCause := 0,
    sleepLatch := false, latchTemp := false, latchMesh := false, zeroPend := false, ident := none, enrolled := false,
    ownerKey := [], dsn := List.replicate 8 0, slots := [], nonces := [], ops := [], ring := [],
    stage := 0, stageAlarms := 0, glitches := [], glitchTotal := 0, draws := 0, rsvq := [], fwDigest := [],
    fwVersion := 0, helper := [], kPuf := [], scramble := [], found := (true, true, []) }

/-- A secure association (Tables 12-1 and 12-2): STATE (0 FREE, 1 LOADING, 2 ACTIVE, 3 EXHAUSTED, 4 PURGED, 5 KEY_FAIL), port,
words D0-D4, the next PN or lowest acceptable PN, the end of the PNs reserved, WARN, RETIRE waiting for a frame in progress, and the key copy it holds. -/
structure Sa where
  state : Nat
  port : Nat
  d0 : Word
  d1 : Word
  d2 : Word
  d3 : Word
  d4 : Word
  pn : Nat
  rsvEnd : Nat
  warn : Bool
  retire : Bool
  key : Option EngKey
deriving DecidableEq, Repr

def Sa.free : Sa := ⟨0, 0, 0, 0, 0, 0, 0, 0, 0, false, false, none⟩

/-- A CAU entry (Table 12-4, Table 12-8): STATE (0 FREE, 1 ACTIVE, 2 NOKEY, 3 EXHAUSTED), words W0-W4, FV, the end of the
values reserved, the value last recorded, and WARN. Its key binding is LIVE: it is the key of the slot (R312). -/
structure CauEnt where
  state : Nat
  w0 : Word
  w1 : Word
  w2 : Word
  w3 : Word
  w4 : Word
  fv : Nat
  rsvEnd : Nat
  recorded : Nat
  warn : Bool
deriving DecidableEq, Repr

def CauEnt.free : CauEnt := ⟨0, 0, 0, 0, 0, 0, 0, 0, 0, false⟩

/-- Line authentication: the secure associations, the CAU entries, and the received CAN frames that await their verdict, oldest
first, as (channel, bus frame, timestamp). -/
structure AuthSt where
  sas : Tab Sa
  cau : Tab CauEnt
  waiting : List (Nat × List Byte × Nat)
deriving DecidableEq, Repr

def AuthSt.reset : AuthSt := ⟨[], [], []⟩

end Sys2Proof.Machine
end

