-- ==== Sys2Proof/Machine/StTwn.lean ====
section
/-! DEFINITION. State types of the twin unit and the Reach roster (chapter 13). -/

namespace Sys2Proof.Machine

/-- A Reach roster entry (Table 13-4). `result`: 0 unchecked, 1 OK, 2 REPLACED, 3 ABSENT, 4 NOT_OPEN, 5 GRADE. -/
structure RstEnt where
  valid : Bool
  anchor : Bool
  twin : Bool
  check : Bool
  allowE2 : Bool
  digest : List Byte
  result : Nat
  fails : Nat
  lastOk : Nat
deriving DecidableEq, Repr

def RstEnt.empty : RstEnt := ⟨false, false, false, false, false, List.replicate 32 0, 0, 0, 0⟩

/-- The join transfer (R364): SYNC_DATA bodies received so far in order; whether it has been applied. -/
structure SyncSt where
  bodies : List (List Byte)
  done : Bool
deriving DecidableEq, Repr

/-- The twin unit (R347-R373). `state`: 0 OFF, 1 STARTING, 2 JOINING, 3 SECONDARY, 4 PRIMARY, 5 FAULTED, 6 ISOLATED. `offset` is
TWN_OFFSET; `lastHb` the TX_TIME of the last HEARTBEAT and the instant of its receipt; `arrival` the previous arrival or missed
deadline, `arrFrom` the path of that arrival (1 HB_IN, 2 port 22, 0 a deadline); `stepped`: the offset has been set since
JOINING began; `driveAt`: a new primary drives its buses from here; `missed` consecutive missed periods; `lineMiss`, `linkMiss` periods each path delivered nothing; `claimAt`,
`presenceAt` the last ARB pulses seen, `presenceDue` an answer to the claim is due; `hbBack`, `claimBack`: what has returned
since ISOLATED; `partnerPrefer` the partner's PREFER; `win` and `partner` the digests {COUNT, SUM} of each window; `streak` consecutive matching
windows; `done` the last window compared; `div` the window of the DIVERGE being handled with each unit's self-check result;
`primaryMin` the heartbeat periods spent PRIMARY with a READY partner since the last rotation; `offer` AT_WINDOW of an offer sent, `accepted` AT_WINDOW agreed;
`capture` AT_WINDOW of a transfer a joining partner has asked for; `sent` the last window whose DIGEST was sent. -/
structure TwnSt where
  state : Nat
  ready : Bool
  arbOk : Bool
  hbLine : Bool
  hbLink : Bool
  cfgMatch : Bool
  mismatched : Bool
  offset : Int
  linkDelay : Nat
  seq : Nat
  lastHb : Option (Nat × Nat)
  arrival : Option Nat
  arrFrom : Nat
  stepped : Bool
  driveAt : Nat
  missed : Nat
  lost : Bool
  linkLost : Bool
  lineMiss : Nat
  linkMiss : Nat
  lineSeen : Bool
  linkSeen : Bool
  hbOut : Bool
  claiming : Bool
  claimAt : Option Nat
  presenceDue : Bool
  presenceAt : Option Nat
  hbBack : Bool
  claimBack : Bool
  partnerPrefer : Bool
  partnerArb : Bool
  partnerReady : Bool
  win : Tab (Nat × Nat)
  partner : Tab (Option (Nat × Nat))
  streak : Nat
  done : Option Nat
  div : Option Nat
  selfOwn : Option Bool
  selfPartner : Option Bool
  digest : List Byte
  primaryMin : Nat
  offer : Option Nat
  accepted : Option Nat
  capture : Option Nat
  sent : Option Nat
  toFault : Bool
  nonce : Option (List Byte)
  attested : Bool
  sync : SyncSt
  holdCfl : Bool
  roster : Tab RstEnt
  checks : Tab (Option (List Byte))
deriving DecidableEq, Repr

def TwnSt.reset : TwnSt :=
  { state := 0, ready := false, arbOk := false, hbLine := false, hbLink := false, cfgMatch := false, mismatched := false,
    offset := 0, linkDelay := 0, seq := 1, lastHb := none, arrival := none, arrFrom := 0, stepped := false, driveAt := 0, missed := 0, lost := false, linkLost := false,
    lineMiss := 0, linkMiss := 0, lineSeen := false, linkSeen := false, hbOut := false, claiming := false, claimAt := none,
    presenceDue := false, presenceAt := none, hbBack := false, claimBack := false, partnerPrefer := false, partnerArb := false, partnerReady := false, win := [], partner := [], streak := 0,
    done := none, div := none, selfOwn := none, selfPartner := none, digest := List.replicate 8 0, primaryMin := 0,
    offer := none, accepted := none, capture := none, sent := none, toFault := false, nonce := none, attested := false, sync := ⟨[], false⟩,
    holdCfl := false, roster := [], checks := [] }

end Sys2Proof.Machine
end

