-- ==== Sys2Proof/Machine/StSys.lean ====
section
/-! DEFINITION. State types of the time unit (chapter 10), power, clocks and start-up (chapter 14), the management subsystem
(chapter 15), the Service Cluster (chapter 16) and what leaves the device. -/

namespace Sys2Proof.Machine

/-! ### Time (chapter 10) -/

/-- A Sync that waits for its Follow_Up: port, sequenceId, correctionField (2^-16 ns), ingress timestamp, and the domain's step count then. -/
structure SyncWait where
  port : Nat
  seq : Nat
  corr : Int
  ingress : Nat
  steps : Nat
deriving DecidableEq, Repr

/-- A time domain (R276-R284). `state`: 0 OFF, 1 UNSYNC, 2 SETTLING, 3 LOCKED, 4 HOLDOVER. `offset` in 2^-16 ns, `rate`, `base`,
`slew` (SR) and `integ` (I) in 2^-32 units, `epoch` RATE_EPOCH in 2^-16 ns. `delta` ns the slew must apply, `acc` what it has applied in
2^-48 ns up to the last rate change. `last2`: origin time and ingress stamp of the Sync before, for the rate ratio. -/
structure Dom where
  state : Nat
  offset : Int
  rate : Int
  base : Int
  slew : Int
  epoch : Nat
  integ : Int
  lockRun : Nat
  slewing : Bool
  delta : Int
  acc : Int
  last2 : Option (Int × Nat)
  wait : Option SyncWait
  stepped : Nat
deriving DecidableEq, Repr

def Dom.reset : Dom := ⟨0, 0, 0, 0, 0, 0, 0, 0, false, 0, 0, none, none, 0⟩

/-- Link-delay measurement of a port (R286): the Pdelay_Req awaiting its response (sequenceId, its egress stamp), its next
sequenceId, consecutive good and bad exchanges, the responder's and own times of the last exchange; and the Pdelay_Resp that awaits its
Follow_Up (sequenceId, the time it carries, its ingress stamp). -/
structure PdPort where
  req : Option (Nat × Nat)
  seq : Nat
  good : Nat
  bad : Nat
  last : Option (Nat × Nat)
  resp : Option (Nat × Nat × Nat)
deriving DecidableEq, Repr

def PdPort.reset : PdPort := ⟨none, 0, 0, 0, none, none⟩

/-- The time unit: domains, link-delay measurement, sequenceId per port and domain, and the compatibility page's I. -/
structure TimSt where
  doms : Tab Dom
  pd : Tab PdPort
  seqs : Tab Nat
deriving DecidableEq, Repr

def TimSt.reset : TimSt := ⟨[], [], []⟩

/-! ### Power, wake, clocks and start-up (chapter 14) -/

/-- A page's clock gate (R385): GATE, DEFERRED, CLK_ON. -/
structure Gate where
  gate : Bool
  deferred : Bool
  clkOn : Bool
deriving DecidableEq, Repr

def Gate.reset : Gate := ⟨false, false, true⟩

/-- The sleep record of R400: PN of each transmit SA, FV of each CAU entry, RSEQ of each view, and the FRC. -/
structure SleepRec where
  pns : List (Nat × Nat)
  fvs : List (Nat × Nat)
  rseqs : List (Nat × Nat)
  frc : Nat
deriving DecidableEq, Repr

/-- Power (R375-R403). `state`: 0 OFF, 1 DORMANT, 2 SELECTIVE, 3 MGS_ONLY, 4 PARTIAL, 5 FULL. `seq`: 0 AWAKE, 1 PRE_SLEEP,
2 COMMITTED, 3 WAKING, 4 ASLEEP. `inhMin`: MIN_OFF has passed since INH last changed. `silent`: wake sources once silent since
PRE_SLEEP, `quiet` those still silent; `latch`: wake sources latched and not yet copied; `latched`: the first latch of this sleep has been seen, `postPoint`
after the Sleep Point, `decodeErr` by decoder errors. `brownout`: a brown-out record waits for the target state; `por`: the cold
start follows a power-on reset. `deferred`: a sleep waits for the target state. `fwdOn` to `svcOn`: domains powered. `boot`: 0 none,
1 supplies awaited, 2 boot ROM running, 3 firmware verified and restoring, 4 restored; `cold`: the cold path applies. `pgFail`: the
supplies missed PG_TIMEOUT; `ddr`: VDD_DDR and VDDQ were present at the last power-good. `confirm`: sources of the last wake not yet confirmed, `fwRun` their consecutive unconfirmed wakes. `waiting`: pages
whose QUIESCED the transition waits for, of those `asked`. `record`: the sleep record; `lf`: TIM_LF_PERIOD as the FRC stopped;
`carry`: the FRC waits to resume, `carried`: its FRC_CARRY is yet to be raised. `trims`: the last corrections from CAN edges; `replay`: the FRC
at the capture of a wake frame that is to be offered. -/
structure PwrSt where
  state : Nat
  target : Nat
  busy : Bool
  seq : Nat
  inh : Bool
  inhMin : Bool
  silent : List Nat
  quiet : List Nat
  latch : List Nat
  latched : Bool
  postPoint : Bool
  decodeErr : Bool
  brownout : Bool
  por : Bool
  deferred : Option Nat
  sleepTarget : Nat
  fwdOn : Bool
  mgsOn : Bool
  lphyOn : Bool
  mphyOn : Bool
  serdesOn : Bool
  svcOn : Bool
  boot : Nat
  cold : Bool
  pgFail : Bool
  ddr : Bool
  forwarding : Bool
  canPath : Bool
  confirm : List Nat
  fwRun : Tab Nat
  gates : Tab Gate
  waiting : List Nat
  asked : List Nat
  record : Option SleepRec
  lf : Word
  carry : Bool
  carried : Bool
  trims : List Int
  replay : Option Nat
deriving DecidableEq, Repr

/-- Right after power-on reset: supplies awaited, INH high, the cold path toward FULL begun (R378, R399). [DEDUCED, log entry 20] -/
def PwrSt.reset : PwrSt :=
  { state := 3, target := 5, busy := true, seq := 0, inh := true, inhMin := true, silent := [], quiet := [], latch := [], latched := false,
    postPoint := false, decodeErr := false, brownout := false, por := true, deferred := none, sleepTarget := 0, fwdOn := false,
    mgsOn := true, lphyOn := false, mphyOn := false, serdesOn := false, svcOn := false, boot := 1, cold := true, pgFail := false, ddr := true,
    forwarding := false, canPath := false, confirm := [], fwRun := [], gates := [], waiting := [], asked := [], record := none,
    lf := 0x77359400, carry := false, carried := false, trims := [], replay := none }

/-! ### Management (chapter 15) -/

/-- What a page's configuration holds behind its command registers: a Weir meter, a FRER function, a view's entry words, a secure
association, a CAU entry, a Sluice's administrative list. -/
inductive JItem where
  | meter (i : Nat) (m : Meter)
  | fn (i : Nat) (f : FreFn)
  | view (i : Nat) (w : List Word)
  | sa (i : Nat) (a : Sa)
  | cau (i : Nat) (e : CauEnt)
  | gcl (l : Tab (Word × Word))
deriving DecidableEq, Repr

/-- What a record of the configuration journal carries (R411): staged TAP entries, the registers and items of one page, write
masks, a reservation, the counters of a sleep snapshot, the subsystem IDs. -/
inductive JBody where
  | tap (staged : List Staged)
  | regs (page : Nat) (vals : Tab Word) (items : List JItem)
  | masks (vals : Tab Word)
  | resv (index : Nat) (r : Resv)
  | snap (pages : List (Nat × Tab Word))
  | settings (subsys : Nat)
deriving DecidableEq, Repr

/-- A journal record: its KIND, FORMAT, JSEQ, size and body. -/
structure JRec where
  kind : Nat
  format : Nat
  jseq : Nat
  bytes : Nat
  body : JBody
deriving DecidableEq, Repr

/-- An event log record as written (Table 15-4). -/
structure LogRec where
  seq : Nat
  bytes : List Byte
deriving DecidableEq, Repr

/-- An update session (R421-R424): its master, state (1 LOADING, 2 VERIFIED), the image header. -/
structure UpdSess where
  m : Nat
  state : Nat
  header : List Byte
deriving DecidableEq, Repr

/-- The management subsystem (R405-R429). `down`: restarting, since `downAt`; `crashes`: instants of lockstep and watchdog restarts. `commits`: completed TAP
commits not yet journalled; `syncs`: masters' JOURNAL_SYNC with the number of commits each waits for. `logQ`: records
requested and not yet written; `mail` mailbox commands accepted while firmware does not serve (master, OP, arguments, buffer);
`planRun` a planner run in progress, `planning` the masters whose
MARGIN_RUN waits for it; `unborTicket` the fence the monitor waits for; `jhalf` the journal's active half; `ids` the
journalled subsystem IDs; `lastSeq` the SEQ of the last record. `gen`, `sec`: the rings, oldest first. `rateSec`, `rateCount`, `supp`: the rate limit's second, the
records it has taken and those it suppressed. `trial`: the other bank's old version and the session's master while a trial runs. -/
structure MgsSt where
  running : Bool
  down : Bool
  downAt : Nat
  bank : Nat
  confirmed : Bool
  halted : Bool
  unborLevel : Nat
  unborMinutes : Nat
  unborMasks : List Nat
  fwVer : Nat
  crashes : List Nat
  restartedAt : Nat
  journal : List JRec
  jseq : Nat
  jhalf : Bool
  commits : List (List Staged)
  syncs : List (Nat × Nat)
  mail : List (Nat × Nat × List Word × List Byte)
  jfull : Bool
  ids : Nat
  logQ : List LogReq
  logLast : Tab Nat
  gen : List LogRec
  sec : List LogRec
  countGen : Nat
  countSec : Nat
  hGen : List Byte
  hSec : List Byte
  lastSeq : Nat
  acked : Nat
  unacked : Nat
  ckpts : List (List Byte)
  rateSec : Nat
  rateCount : Nat
  supp : Nat
  suppAt : Nat
  alarms : Tab (Option Nat)
  bankA : Tab Byte
  bankB : Tab Byte
  upd : Option UpdSess
  updLast : Nat
  staged : Nat
  trial : Option (Nat × Nat)
  floor : Nat
  spares : Nat
  planRun : Bool
  planning : List Nat
  unborTicket : Nat
  avsGoal : Nat
deriving DecidableEq, Repr

/-- The management state at power-on. [DESIGN CHOICE, log entry 19] -/
def MgsSt.reset : MgsSt :=
  { running := false, down := false, downAt := 0, bank := 0, confirmed := true, halted := false, unborLevel := 0, unborMinutes := 0,
    unborMasks := [], fwVer := 0, crashes := [], restartedAt := 0, journal := [], jseq := 0, jhalf := false, commits := [], syncs := [],
    mail := [], jfull := false, ids := 0, logQ := [], logLast := [], gen := [], sec := [], countGen := 0, countSec := 0,
    hGen := List.replicate 32 0, hSec := List.replicate 32 0, lastSeq := 0, acked := 0, unacked := 0, ckpts := [], rateSec := 0,
    rateCount := 0, supp := 0, suppAt := 0, alarms := [], bankA := [], bankB := [], upd := none, updLast := 0, staged := 0,
    trial := none, floor := 0, spares := 240, planRun := false, planning := [], unborTicket := 0, avsGoal := 750 }

/-! ### Service Cluster (chapter 16) -/

/-- A partition (Table 16-4). `state`: 0 EMPTY, 1 RUNNING, 2 STOPPED, 3 HALTED. `image`: stored image it runs; `loading`: the
partition copies an image, with the master whose slot it completes. -/
structure Part where
  state : Nat
  cores : Nat
  stored : Option Nat
  version : Nat
  base : Nat
  len : Nat
  pages : List (Nat × Nat)
  ways : Nat
  wdt : Nat
  entry : Nat
  restarts : List Nat
  loading : Option Nat
  serviced : List (Nat × Nat)
deriving DecidableEq, Repr

def Part.reset : Part := ⟨0, 0, none, 0, 0, 0, [], 0, 0, 0, [], none, []⟩

/-- What locked PMP entries say of a range of the physical map (R435). -/
structure Pmp where
  base : Nat
  len : Nat
  allow : Bool
deriving DecidableEq, Repr

/-- The Service Cluster: partitions, claims (owner of resource r as partition + 1), cluster memory (SRAM and DRAM bytes by cluster
address), the slots of released resources that wait for their BUSY command, the core whose accesses master 2 presents now, and each
core's locked PMP ranges. -/
structure SvcSt where
  parts : Tab Part
  claims : Tab Nat
  mem : Tab Byte
  release : List Nat
  core : Nat
  pmp : Tab (List Pmp)
deriving DecidableEq, Repr

/-- The service cluster at power-on. [DESIGN CHOICE, log entry 19] -/
def SvcSt.reset : SvcSt := ⟨[], [], [], [], 0, []⟩

/-! ### What leaves the device -/

/-- Effects on the world outside, in the order they occur. `unbor` is an answer of the Unbor monitor: the values and records it prints, and
OK (none) or the code after ERR. `hostDesc` of a ring from 32 on goes to cluster memory; `clusterIrq` is an interrupt source of chapter 16. -/
inductive Output where
  | msix (v addr : Nat) (data : Word)
  | bar4 (off size : Nat) (v : BitVec 64)
  | busRead (m addr : Nat) (v : Word)
  | frameStart (port : Nat) (bytes : List Byte)
  | frameEnd (port : Nat) (poison : Bool)
  | hostDesc (ring index : Nat) (desc data : List Byte) (relaxed : Bool)
  | canTx (ch : Nat) (bytes : List Byte)
  | linTx (ch : Nat) (bytes : List Byte)
  | linHeader (ch id : Nat)
  | linPulse (ch : Nat)
  | qspi (bytes : List Byte)
  | unbor (vals : List Word) (recs : List (List Byte)) (err : Option Nat)
  | avs (mv : Nat)
  | avsRead
  | inh (level : Bool)
  | hbOut (level : Bool)
  | arb (ns : Nat)
  | tc10 (port code : Nat)
  | verify (port : Nat)
  | dmaWrite (master : Nat) (addr : Nat) (bytes : List Byte)
  | coreRead (core addr : Nat) (v : BitVec 64)
  | coreFault (core addr : Nat)
  | clusterIrq (src : Nat)
deriving DecidableEq, Repr

end Sys2Proof.Machine
end

