-- ==== Sys2Proof/Machine/State.lean ====
section
/-! DEFINITION. The state of the block, its reset value, and the reasons a step can stop. -/

namespace Sys2Proof.Machine

/-- Why the machine stops with a fault. -/
inductive Fault where
  /-- Raised by no meaning of this model: every command of the table has an effect under the spec. Safe. -/
  | impossible
deriving DecidableEq, Repr

/-- Why a command has no meaning. -/
inductive Refusal where
  /-- A command whose meaning has not been written, by its mnemonic. Raised by the dispatch only; safe. -/
  | notModelled (mnemonic : String)
deriving DecidableEq, Repr

/-- What a block inside hands to the frame path: a frame at an ingress number with its stamp (a bus frame with its target channel,
R20, R266), a message generated for one egress port and class (R21), or a frame that a block inside consumes: its ingress, stamp, whether
its FCS was right, and its bytes (R62, R151). -/
inductive Inject where
  | frame (ingress target ts : Nat) (bus : Bool) (bytes : List Byte)
  | own (port tc : Nat) (bytes : List Byte) (own : Option OwnMsg)
  | consumed (port ts : Nat) (fcsOk : Bool) (bytes : List Byte)
deriving DecidableEq, Repr

/-- The state of the block. `regs` holds the registers by address (banked copies, selected items and write masks under their
own keys), `slots` the result slots, `fences` the masters' tickets, `holds` and `snaps` held high words and snapshots, `tbl` the
tables of the TAP by table * 65536 + index, `stage` each master's staging area, `commitQ` the masters whose commit is queued,
`frcNs`, `frcFrac` the FRC, `out` what has left the device, `free` the count of free values drawn, `pending` the commands that
wait, first in first out. -/
structure State where
  regs : Tab Word
  slots : Tab Slot
  fences : Tab Fences
  holds : Tab Hold
  snaps : Tab Snap
  tbl : Tab (BitVec 512)
  stage : Tab (List Staged)
  commitQ : List Nat
  commits : BitVec 64
  frcNs : BitVec 64
  frcFrac : BitVec 16
  msix : Msix
  resets : List Nat
  lrn : LrnSt
  bsn : BasinSt
  meters : Tab Meter
  egr : Tab Egr
  slu : Tab Sluice
  bud : BudSt
  fre : Tab FreFn
  fgd : Tab View
  had : HadSt
  ept : Tab Ept
  hif : HifSt
  can : Tab CanSt
  lin : Tab LinSt
  cfl : CflSt
  vlt : VltSt
  auth : AuthSt
  twn : TwnSt
  tim : TimSt
  pwr : PwrSt
  mgs : MgsSt
  svc : SvcSt
  inj : List Inject
  out : List Output
  free : Nat
  pending : List Instr
deriving DecidableEq, Repr

/-- Right after power-on reset: the registers at the values of the register maps, CRU_RST_CAUSE.POR and AON_WAKE_CAUSE.POR set,
every table and FIFO empty, the supplies not yet good, no command waiting. [DESIGN CHOICE, log entries 2, 5, 19; DEDUCED, log entry 20] -/
def State.reset : State :=
  { regs := [(Reg.CRU_RST_CAUSE, 1), (Reg.AON_WAKE_CAUSE, 1)], slots := [], fences := [], holds := [], snaps := [], tbl := [],
    stage := [], commitQ := [], commits := 0, frcNs := 0, frcFrac := 0, msix := Msix.reset, resets := [], lrn := LrnSt.reset,
    bsn := BasinSt.reset, meters := [], egr := [], slu := [], bud := BudSt.reset, fre := [], fgd := [], had := HadSt.reset,
    ept := [], hif := HifSt.reset, can := [], lin := [], cfl := CflSt.reset, vlt := VltSt.reset, auth := AuthSt.reset,
    twn := TwnSt.reset, tim := TimSt.reset, pwr := PwrSt.reset, mgs := MgsSt.reset, svc := SvcSt.reset, inj := [], out := [],
    free := 0, pending := [] }

end Sys2Proof.Machine
end

