-- ==== Sys2Proof/Machine/Ops.lean ====
section
/-! DEFINITION. The named operations over registers, counters, interrupts, the event log, result slots and register
accesses: everything of "Register Pages, Tables, Fences and Result Slots" that more than one command uses. -/

namespace Sys2Proof.Machine

/-! ### Registers -/

/-- A register word. -/
def State.rd (s : State) (a : Nat) : Word := Tab.get regReset s.regs a

/-- Write a register word. -/
def State.wr (s : State) (a : Nat) (v : Word) : State := { s with regs := Tab.set regReset s.regs a v }

/-- A field of a register. -/
def State.rf (s : State) (a lo len : Nat) : Nat := fld (s.rd a) lo len

/-- Write one field of a register. -/
def State.wf (s : State) (a lo len v : Nat) : State := s.wr a (setFld (s.rd a) lo len v)

/-- A bit of a register. -/
def State.rb (s : State) (a i : Nat) : Bool := bit (s.rd a) i

/-- The copy of a banked register that master `m` reads and writes. -/
def bankKey (m a : Nat) : Nat := m * 0x4000000 + a

/-- The copy of a register that belongs to item `n` of a selector (R476). -/
def itemKey (n a : Nat) : Nat := (n + 1) * 0x100000000 + a

/-- A 64-bit value held in two words, low word at `a`. -/
def State.rd64 (s : State) (a : Nat) : Nat := (s.rd a).toNat + (s.rd (a + 4)).toNat * 2 ^ 32

/-- Write a 64-bit value into two words. -/
def State.wr64 (s : State) (a v : Nat) : State := (s.wr a (wd v)).wr (a + 4) (wd (v >>> 32))

/-! ### Counters (R53, Table 2-11) -/

/-- One count of an event counter word: COUNT stops at 0xFFFF and SAT sets on the first event that finds it there. -/
def evtNext (w : Word) : Word :=
  if fld w 0 16 = 0xFFFF then setFld w 16 1 1 else setFld w 0 16 (fld w 0 16 + 1)

/-- Count an event. -/
def State.evt (s : State) (a : Nat) : State := s.wr a (evtNext (s.rd a))

/-- Add to a 64-bit statistics counter, which saturates at 2^64 - 1. -/
def State.stat (s : State) (a n : Nat) : State :=
  s.wr64 a (if s.rd64 a + n < 2 ^ 64 then s.rd64 a + n else 2 ^ 64 - 1)

/-! ### Interrupts (R30, R57, R58) -/

/-- The page base of a register-store key that is a page's INT_RAW word. -/
def rawPage (k : Nat) : Option Nat := if k < 0x1000000 ∧ k % 0x1000 = 0x18 then some (k - 0x18) else none

/-- The roll-up bits that are 1: those with a page whose INT_STAT is not 0. -/
def State.sumBits (s : State) : List Nat :=
  s.regs.filterMap fun (k, v) =>
    match rawPage k with
    | none => none
    | some base =>
      match pageOf (base / 0x1000) with
      | some (b, i) => if b ≠ .srv ∧ (v &&& s.rd (Reg.INT_EN base)) ≠ 0 then some (sumBit b i) else none
      | none => none

/-- The MSI-X vectors whose OR of roll-up bits is 1. -/
def State.msixOrs (s : State) : List Nat :=
  (s.sumBits.filter (fun i => s.rb (Reg.GLB_INT_ROUTE i) 3)).map (fun i => s.rf (Reg.GLB_INT_ROUTE i) 4 6)

/-- INT_N is asserted while any roll-up bit with PIN = 1 is 1 (R57). -/
def State.intN (s : State) : Bool := s.sumBits.any (fun i => s.rb (Reg.GLB_INT_ROUTE i) 0)

/-- Append to what leaves the device. -/
def State.emit (s : State) (o : Output) : State := { s with out := s.out ++ [o] }

/-- Send the message of an MSI-X vector, or set its PBA bit while the vector or the function is masked (R216). [PRESUMED, log entry 40] -/
def State.msixSend (s : State) (v : Nat) : State :=
  if s.msix.funcMask ∨ bit s.msix.mask v then { s with msix := { s.msix with pba := s.msix.pba ||| BitVec.ofNat 64 (2 ^ v) } }
  else
    let w := fun (k : Nat) => Tab.get (fun _ => (0 : Word)) s.msix.table (4 * v + k)
    s.emit (.msix v ((w 0).toNat + (w 1).toNat * 2 ^ 32) (w 2))

/-- The set of vectors whose OR is 1, as one word. -/
def State.msixWord (s : State) : BitVec 64 :=
  s.msixOrs.foldl (fun a v => a ||| BitVec.ofNat 64 (2 ^ v)) 0

/-- Re-evaluate every MSI-X vector: a message for each whose OR went from 0 to 1, and, after a W1C write to an INT_RAW
(`again`), for each whose OR is still 1 (R58). -/
def State.msixEval (s : State) (again : Bool) : State :=
  let now := s.msixWord
  let due := if again then now else now &&& ~~~s.msix.ors
  (onesOf due.toNat 64).foldl State.msixSend { s with msix := { s.msix with ors := now } }

/-- Set INT_RAW bit `i` of the page at `base`. -/
def State.raiseAt (s : State) (base i : Nat) : State :=
  (s.wr (Reg.INT_RAW base) (s.rd (Reg.INT_RAW base) ||| wd (2 ^ i))).msixEval false

/-- Set INT_RAW bit `i` of a block's page. -/
def State.raise (s : State) (b : Blk) (inst i : Nat) : State := s.raiseAt (pageBase b inst) i

/-! ### The event log's requests (R416) -/

/-- Request an event log record. [DEDUCED, log entry 74] -/
def State.logReq (s : State) (type source : Nat) (payload : List Byte) : State :=
  { s with mgs := { s.mgs with logQ := s.mgs.logQ ++ [⟨s.frcNs.toNat, type, source, fit 16 payload⟩] } }

/-- A block-event record for INT_RAW bit `i` of a page, at most one per kind and item `sub` per `gap` ns (0: no limit). [DEDUCED, log entries 74, 81] -/
def State.logEvt (s : State) (b : Blk) (inst i gap : Nat) (sec : Bool) (payload : List Byte) (sub : Nat := 0) : State :=
  let pg := pageBase b inst / 0x1000
  let key := pg * 64 + i + sub * 0x1000000
  let last := Tab.get (fun _ => 0) s.mgs.logLast key
  if gap ≠ 0 ∧ last ≠ 0 ∧ s.frcNs.toNat + 1 < last + gap then s
  else
    ({ s with mgs := { s.mgs with logLast := Tab.set (fun _ => 0) s.mgs.logLast key (s.frcNs.toNat + 1) } }).logReq
      (b2n sec * 0x8000 + i) pg payload

/-- A management-event record of Table 15-5. [DEDUCED, log entry 81] -/
def State.logMgmt (s : State) (code : Nat) (sec : Bool) (payload : List Byte) : State :=
  s.logReq (b2n sec * 0x8000 + 0x2000 + code) 0x3FFF payload

/-! ### Result slots (R49-R52) -/

/-- Slot numbers: one per master for the banked ports, one per page for snapshots. -/
def tapSlot (m : Nat) : Nat := m
def budSlot (m : Nat) : Nat := 8 + m
def hadSlot (m : Nat) : Nat := 16 + m
def vltSlot (m : Nat) : Nat := 24 + m
def mgsSlot (m : Nat) : Nat := 32 + m
def updSlot (m : Nat) : Nat := 40 + m
def svcSlot (m : Nat) : Nat := 48 + m
def snapSlot (pg : Nat) : Nat := 0x100 + pg

/-- A slot. -/
def State.slot (s : State) (i : Nat) : Slot := Tab.get (fun _ => Slot.reset) s.slots i

/-- Replace a slot. -/
def State.setSlot (s : State) (i : Nat) (v : Slot) : State :=
  { s with slots := Tab.set (fun _ => Slot.reset) s.slots i v }

/-- A slot accepts a command only while it reads VALID = 0 and CODE = IDLE (R49). -/
def Slot.idle (t : Slot) : Bool := !t.valid && !t.busy

/-- The SEQ after `n`: 0x0001 to 0xFFFF, then 0x0001 again (R49). -/
def seqNext (n : Nat) : Nat := if n = 0xFFFF then 1 else n + 1

/-- An empty result. -/
def Result.empty : Result := ⟨0, 0, 0, [], []⟩

/-- The slot after it accepts a command of master `m`: BUSY, the next SEQ, data 0 (R49). -/
def Slot.accept (t : Slot) (m : Nat) : Slot := ⟨false, true, m, seqNext t.seq, { Result.empty with code := 1 }, none⟩

/-- The slot with the result its BUSY command will publish. -/
def Slot.hold (t : Slot) (r : Result) : Slot := { t with held := some r }

/-- The slot at completion: VALID with the command's CODE, SEQ and data (R50). -/
def Slot.complete (t : Slot) (r : Result) : Slot := { t with valid := true, busy := false, res := r, held := none }

/-- A released slot: VALID = 0, CODE = IDLE, the same SEQ, data 0 (R51). [DESIGN CHOICE, log entry 86] -/
def Slot.release (t : Slot) : Slot := { t with valid := false, busy := false, res := Result.empty, held := none }

/-- The status word of a slot (Table 2-9). -/
def Slot.stat (t : Slot) : Word := wd (b2n t.valid + t.owner * 2 + t.res.code * 256 + t.seq * 65536)

/-- A refused command: CMD_REJ_CNT counts and CMD_REJECT sets on the slot's page (R52). -/
def State.cmdReject (s : State) (base : Nat) : State := (s.evt (Reg.CMD_REJ_CNT base)).raiseAt base Irq.CMD_REJECT

/-- Offer a command to slot `i` of the page at `base`: refused under R52 unless idle, else accepted under R49 and `k` runs. -/
def State.command (s : State) (i m base : Nat) (k : State → State) : State :=
  if (s.slot i).idle then k (s.setSlot i ((s.slot i).accept m)) else s.cmdReject base

/-- Give a BUSY slot the result it will publish at its completion. -/
def State.holdRes (s : State) (i : Nat) (r : Result) : State := s.setSlot i ((s.slot i).hold r)

/-- Publish a result in a BUSY slot. A slot whose resource a stopped partition has released is acknowledged at once (R438). -/
def State.complete (s : State) (i : Nat) (r : Result) : State :=
  if (s.slot i).busy then
    if s.svc.release.contains i then
      { s.setSlot i (s.slot i).release with svc := { s.svc with release := s.svc.release.filter (fun k => decide (k ≠ i)) } }
    else s.setSlot i ((s.slot i).complete r)
  else s

/-- Publish the held result of a BUSY slot; no effect on a slot that holds none. -/
def State.publish (s : State) (i : Nat) : State :=
  match (s.slot i).held with
  | some r => s.complete i r
  | none => s

/-- A result with only a code. -/
def codeRes (c : Nat) : Result := { Result.empty with code := c }

/-- A result with a code and data words. -/
def dataRes (c : Nat) (d : List Word) : Result := { Result.empty with code := c, data := d }

/-! Result codes of Table 2-10. -/
namespace Code
abbrev idle : Nat := 0
abbrev busy : Nat := 1
abbrev ok : Nat := 2
abbrev badOp : Nat := 3
abbrev badArg : Nat := 4
abbrev denied : Nat := 5
abbrev stageFull : Nat := 0x40
abbrev tableFull : Nat := 0x41
abbrev notFound : Nat := 0x42
abbrev badTable : Nat := 0x43
abbrev badIndex : Nat := 0x44
end Code

/-! ### Accesses (R32-R37) -/

/-- Kinds of access violation (Table 2-6). -/
inductive Viol where
  | denied | locked | partialAccess | unmapped | domainOff | windowWrite
deriving DecidableEq, Repr

/-- GLB_ACC_CAP1[15:12]. -/
def Viol.kind : Viol → Nat
  | .denied => 1 | .locked => 2 | .partialAccess => 3 | .unmapped => 4 | .domainOff => 5 | .windowWrite => 6

/-- Note a violation for the transaction being served (R218, R220). -/
def State.violSet (s : State) : State := { s with hif := { s.hif with viol := true } }

/-- Record an access violation (R37): count it, capture it, raise ACC_VIOL, and ask for a log record, at most one per kind
per 1 ms. [DEDUCED, log entry 10; DESIGN CHOICE, log entry 86] -/
def State.violate (s : State) (k : Viol) (m a : Nat) (write : Bool) : State :=
  let pg := a / 0x1000 % 0x4000
  let s := s.violSet.evt Reg.GLB_ACC_VIOL_CNT
  let s := s.wr Reg.GLB_ACC_CAP0 (wd (m * 2 ^ 29 + pg * 4))
  let s := s.wr Reg.GLB_ACC_CAP1 (wd (a % 0x1000 / 4 * 4 + k.kind * 0x1000 + b2n write * 0x10000))
  let s := s.raise .glb 0 Irq.GLB_ACC_VIOL
  let key := 0x100000 + k.kind
  let last := Tab.get (fun _ => 0) s.mgs.logLast key
  if last ≠ 0 ∧ s.frcNs.toNat + 1 < last + 1000000 then s
  else
    ({ s with mgs := { s.mgs with logLast := Tab.set (fun _ => 0) s.mgs.logLast key (s.frcNs.toNat + 1) } }).logReq
      Irq.GLB_ACC_VIOL 0 (toBE 1 m ++ toBE 2 pg ++ toBE 2 (a % 0x1000) ++ toBE 1 k.kind)

/-- The write mask of a page: bit m lets master m write it (R33). It is kept beside GLB_PERM_DATA, by page number. -/
def State.writeMask (s : State) (pg : Nat) : Word := s.rd (itemKey pg Reg.GLB_PERM_DATA)

/-- A domain's pages are reachable (R35, R376): MGS-domain pages while the MGS domain is powered, the rest while FWD is. -/
def mgsDomain : Blk → Bool
  | .aon | .glb | .cru | .pfc | .gpi | .hif | .vlt | .mgs | .evl | .upd | .mgn | .svc => true
  | _ => false

/-- The block's power domain is on. -/
def State.blkOn (s : State) (b : Blk) : Bool := if mgsDomain b then s.pwr.mgsOn else s.pwr.fwdOn

/-- The table windows of Table 2-2: base, size in bytes. -/
def windows : List (Nat × Nat) :=
  [(0x01000000, 0x100000), (0x01100000, 0x80000), (0x01180000, 0x80000), (0x01200000, 0x80000), (0x01280000, 0x80000),
   (0x01300000, 0xC000)]

/-- The address lies in a table window. -/
def inWindow (a : Nat) : Bool := windows.any (fun (b, n) => decide (b ≤ a ∧ a < b + n))

/-- What stops a write of master `m` to address `a` (R25, R27, R33-R36), if anything does. [DEDUCED, log entry 10] -/
def State.writeViol (s : State) (m a : Nat) (full : Bool) : Option Viol :=
  if !full ∨ a % 4 ≠ 0 then some .partialAccess
  else if inWindow a then some .windowWrite
  else
    match pageOf (a / 0x1000) with
    | none => some .unmapped
    | some (b, _) =>
      if !s.blkOn b then some .domainOff
      else if a = Reg.GLB_PERM_SEL ∨ a = Reg.GLB_PERM_DATA then (if m = 3 then none else some .denied)
      else if !bit (s.writeMask (a / 0x1000)) m then some .denied
      else
        match findReg b (a % 0x1000) with
        | some (d, _) => if d.acc = .rwl ∧ s.rb (Reg.BLK_LOCK (a / 0x1000 * 0x1000)) 0 then some .locked else none
        | none => none

/-- Note that a master wrote a page, for its next fence (R41). [DEDUCED, log entry 14] -/
def State.touch (s : State) (m pg : Nat) : State :=
  let f := Tab.get (fun _ => Fences.reset) s.fences m
  if f.touched.contains pg then s
  else { s with fences := Tab.set (fun _ => Fences.reset) s.fences m { f with touched := f.touched ++ [pg] } }

/-! ### Register writes (R12, R32) -/

/-- Clamp one field to its limits: a write outside stores the nearer limit. -/
def Limit.apply (l : Limit) (w : Word) : Word :=
  if l.signed then setFld w l.lsb l.len (unsext l.len (clampI l.lo l.hi (sext l.len (fld w l.lsb l.len))))
  else setFld w l.lsb l.len (clampN l.lo.toNat l.hi.toNat (fld w l.lsb l.len))

/-- The value a write of `v` leaves in a register that held `old`: its writable bits, each limited field at the nearer limit. -/
def RegDesc.store (d : RegDesc) (old v : Word) : Word :=
  d.limits.foldl (fun w l => l.apply w) ((old &&& ~~~(wd d.wmask)) ||| (v &&& wd d.wmask))

/-- The key a master's write of a register goes to. -/
def RegDesc.key (d : RegDesc) (m a : Nat) : Nat := if d.banked then bankKey m a else a

/-- Store a write of an ordinary register. -/
def State.plainWrite (s : State) (m a : Nat) (v : Word) : State :=
  match pageOf (a / 0x1000) with
  | none => s
  | some (b, _) =>
    match findReg b (a % 0x1000) with
    | none => s
    | some (d, _) => s.wr (d.key m a) (d.store (s.rd (d.key m a)) v)

/-! ### Frames presented by blocks inside (R20, R21) -/

/-- Hand a frame to the frame path at an ingress number, stamped now. [DEDUCED, log entry 25] -/
def State.present (s : State) (ingress target : Nat) (bus : Bool) (bytes : List Byte) : State :=
  { s with inj := s.inj ++ [.frame ingress target s.frcNs.toNat bus bytes] }

/-- Generate a message for one egress port and class (R21). [DEDUCED, log entry 25] -/
def State.sendOwn (s : State) (port tc : Nat) (bytes : List Byte) (own : Option OwnMsg := none) : State :=
  { s with inj := s.inj ++ [.own port tc bytes own] }

/-- ICL_DEV_MAC as a number, first octet in [47:40]. -/
def State.devMac (s : State) : Nat :=
  (s.rd Reg.ICL_DEV_MAC_LO).toNat + s.rf Reg.ICL_DEV_MAC_HI 0 16 * 2 ^ 32

/-- The next free value (a value the spec leaves open), and the state that has drawn it. [DESIGN CHOICE, log entry 5] -/
def State.draw (s : State) : BitVec 64 × State := (Config.freeValue s.free, { s with free := s.free + 1 })

/-! ### Performance counters (R430, R431) -/

/-- Counter `i` counts an event of the given code and class filters. [DEDUCED, log entry 78] -/
def State.perfHit (s : State) (i code : Nat) (master : Option Nat) (addr : Option Nat) : Bool :=
  let f := s.rd (Reg.PFC_FILT i)
  s.rb (Reg.PFC_SEL i) 16 && decide (s.rf (Reg.PFC_SEL i) 0 8 = code) &&
  (match master with | some m => bit f (8 + m) | none => true) &&
  (match addr with
   | some a =>
     !bit f 16 || (decide ((s.rd (Reg.PFC_RANGE_BASE (fld f 20 2))).toNat ≤ a) &&
       decide (a ≤ (s.rd (Reg.PFC_RANGE_LIMIT (fld f 20 2))).toNat))
   | none => true)

/-- Add `n` to performance counter `i`: 48 bits, a wrap sets WRAP and, with IRQ = 1, the group's INT_RAW bit. [DEDUCED, log entry 78] -/
def State.perfAdd (s : State) (n : Nat) (i : Nat) : State :=
  let v := (s.rd (Reg.PFC_CNT_LO i)).toNat + s.rf (Reg.PFC_CNT_HI i) 0 16 * 2 ^ 32 + n
  let s := s.wr (Reg.PFC_CNT_LO i) (wd v)
  let s := s.wf (Reg.PFC_CNT_HI i) 0 16 (v >>> 32)
  if v < 2 ^ 48 then s
  else
    let s := s.wf (Reg.PFC_CNT_HI i) 31 1 1
    if s.rb (Reg.PFC_SEL i) 17 then s.raise .pfc 0 (i / 8) else s

/-- The counters whose PFC_SEL has been written: the others have EN = 0. [DEDUCED, log entry 78] -/
def State.perfList (s : State) : List Nat :=
  s.regs.filterMap fun (k, _) =>
    if 0x4100 ≤ k ∧ k < 0x4500 ∧ k % 0x10 = 0 then some ((k - 0x4100) / 0x10) else none

/-- Count an event on the performance counters that select it. [DEDUCED, log entry 78] -/
def State.perf (s : State) (code n : Nat) (master : Option Nat := none) (addr : Option Nat := none) : State :=
  if s.rb Reg.PFC_GCTRL 0 then s
  else (s.perfList.filter (fun i => s.perfHit i code master addr)).foldl (fun s i => s.perfAdd n i) s

/-! ### The Service Cluster's firewall (R436, R437) -/

/-- The claimed resource (Table 16-7) that a banked or command register belongs to. -/
def resourceOf (a : Nat) : Option Nat :=
  match pageOf (a / 0x1000) with
  | none => none
  | some (b, _) =>
    let banked := match findReg b (a % 0x1000) with | some (d, _) => d.banked | none => false
    let cmds := [Reg.TAP_CMD, Reg.TAP_RES_ACK, Reg.BUD_CMD, Reg.BUD_RES_ACK, Reg.VLT_CMD, Reg.VLT_RES_ACK, Reg.MGS_CMD, Reg.MGS_RES_ACK,
      Reg.UPD_CMD, Reg.UPD_RES_ACK, Reg.GLB_FENCE_REQ, Reg.CAU_CMD]
    if !banked && !cmds.contains a then none
    else match b with
      | .tap => some 0
      | .bud => some 1
      | .vlt => some 2
      | .mgs => some 3
      | .wei => some 4
      | .fre => some 4
      | .fgd => some 4
      | .lce => some 4
      | .upd => some 5
      | .glb => some 6
      | .cau => some 7
      | .cfl => some 7
      | _ => none

/-- The running partition that a core belongs to. -/
def State.partOf (s : State) (core : Nat) : Option (Nat × Part) :=
  s.svc.parts.find? (fun p => decide (p.2.state = 1) && p.2.cores.testBit core)

/-- What bars a write of master 2 to address `a`: 0 nothing, 1 its partition's page ranges (R436), 2 another partition's claim (R437). [DEDUCED, log entry 62] -/
def State.svcBar (s : State) (m a : Nat) : Nat :=
  if m ≠ 2 then 0
  else
    match s.partOf s.svc.core with
    | none => 0
    | some (n, p) =>
      if !p.pages.any (fun (lo, hi) => decide (lo ≤ a / 0x1000) && decide (a / 0x1000 ≤ hi)) then 1
      else
        match resourceOf a with
        | none => 0
        | some r =>
          let o := Tab.get (fun _ => 0) s.svc.claims r
          if o ≠ 0 ∧ o ≠ n + 1 then 2 else 0

/-- A barred write of the cluster: counted, raised and logged. [DEDUCED, log entry 62] -/
def State.fwViol (s : State) : State :=
  let n := match s.partOf s.svc.core with | some (n, _) => n | none => 0
  ((s.evt Reg.SVC_FW_VIOL).raise .svc 0 Irq.SVC_FW_VIOL).logEvt .svc 0 Irq.SVC_FW_VIOL 1000000000 false (toBE 1 n) n

/-- A write of master `m` to address `a`: what stops it is recorded and nothing else happens, or `k` runs (R32-R37, R436, R437). A
narrow or unaligned access is not `full`. [DESIGN CHOICE, log entry 6; DEDUCED, log entry 10] -/
def State.access (s : State) (m a : Nat) (k : State → State) (full : Bool := true) : State :=
  if s.svcBar m a = 1 then (s.fwViol.violate .denied m a true).perf 0x02 1 (some m) (some a)
  else if s.svcBar m a = 2 then s.fwViol
  else
    match s.writeViol m a full with
    | some v => (s.violate v m a true).perf 0x02 1 (some m) (some a)
    | none => k ((s.touch m (a / 0x1000)).perf 0x01 1 (some m) (some a))

/-! ### Domain switch: the block is enabled and its page's domain is on -/

/-- A page's clock gate (R385). -/
def State.gate (s : State) (pg : Nat) : Gate := Tab.get (fun _ => Gate.reset) s.pwr.gates pg

/-- A page's block operates: BLK_CTRL.EN, which reads 1 on GLB, CRU, AON, the MGS mailbox and EVL (Table 2-4), while its clock
runs (R385). [DEDUCED, log entry 17] -/
def State.enabled (s : State) (b : Blk) (inst : Nat) : Bool :=
  match b with
  | .glb | .cru | .aon | .mgs | .evl => true
  | _ => s.rb (Reg.BLK_CTRL (pageBase b inst)) 0 && (s.gate (pageBase b inst / 0x1000)).clkOn

/-- The FRC in nanoseconds. -/
def State.now (s : State) : Nat := s.frcNs.toNat

end Sys2Proof.Machine
end

