-- ==== Sys2Proof/Machine/Tap.lean ====
section
/-! DEFINITION. The tables and the Table Access Port: keys, hashes and placement (R66-R69, R77, R78), staging and commits
(R45-R48, R475). -/

namespace Sys2Proof.Machine

/-! TAP table IDs (Table 2-2). -/
namespace TableId
abbrev srt : Nat := 0
abbrev ict : Nat := 1
abbrev adt : Nat := 2
abbrev sig : Nat := 3
abbrev pdu : Nat := 4
abbrev can : Nat := 5
end TableId

/-- Entries of a table (Table 2-2). -/
def tableSize : Nat → Nat
  | 0 => 65536 | 1 => 8192 | 2 => 16384 | 3 => 32768 | 4 => 8192 | 5 => 3072 | _ => 0

/-- The bits of a PDU entry of each TYPE that Table 9-3 names, word by word; of an entry that is off, the bits it names for any TYPE. [DEDUCED, log entry 85] -/
def pduMask (e : BitVec 512) : List Nat :=
  let rxSig := [0xFFFF001F, 0x07FF7FFF, 0x0FFF0FFF, 0x00FF9FFF] ++ List.replicate 4 0x1FFF1FFF
  let txSig := [0xF, 0x07FF7FFF, 0x0FFF0000, 0xFFFFFF03, 0x1FFFFFFF, 0x13FFF]
  let txEth := [0xFFFFFFFF, 0xFFFFFFFF, 0xFFFF]
  let txBus := [0x1FFFFFFF, 0xFFFF1F3F, 0xFFFFFFFF]
  let tunTx := [0x1F, 0, 0, 0, 0, 0, 0xFFFFFFFF, 0xFFFFFFFF, 0, 0xFFFFFFFF, 0xFFFFFFFF, 0x1FF1F]
  let tunRx := [0xF, 0, 0, 0] ++ List.replicate 8 0xBFBFBFBF ++ [0xFFFFFFFF, 0xFFFFFFFF, 1]
  match fld e 1 3 with
  | 1 => rxSig
  | 2 => txSig ++ (if bit e 176 then txBus else txEth)
  | 3 => tunTx
  | 4 => tunRx
  | _ => (List.range 15).map fun k => rxSig.getD k 0 ||| (txSig ++ txEth).getD k 0 ||| tunTx.getD k 0 ||| tunRx.getD k 0

/-- The bits of a direct table's entry that are no reserved bits (R11, R70, Tables 8-3, 9-1, 9-2, 9-3). [DEDUCED, log entry 85] -/
def tableMask (t : Nat) (e : BitVec 512) : BitVec 512 :=
  match t with
  | 0 => e &&& BitVec.ofNat 512 (2 ^ 122 - 1)
  | 3 =>
    if bit e 1 then e &&& BitVec.ofNat 512 (2 ^ 128 - 1 - 0xE0000000 - 2 ^ 47)
    else e &&& BitVec.ofNat 512 (2 ^ 128 - 1 - 0xFC000000)
  | 4 => e &&& BitVec.ofNat 512 (((pduMask e).foldr (fun w acc => w + 2 ^ 32 * acc) 0))
  | 5 => e &&& BitVec.ofNat 512 (2 ^ 128 - 1 - 0xFFFFFE00 - 7 * 2 ^ 61 - 7 * 2 ^ 93)
  | _ => e

/-- A committed entry of a table. -/
def State.tent (s : State) (t i : Nat) : BitVec 512 := Tab.get (fun _ => 0) s.tbl (t * 65536 + i)

/-- Replace a committed entry. -/
def State.setTent (s : State) (t i : Nat) (e : BitVec 512) : State :=
  { s with tbl := Tab.set (fun _ => 0) s.tbl (t * 65536 + i) e }

/-- The (index, entry) pairs of a table that are not zero. -/
def State.tentries (s : State) (t : Nat) : List (Nat × BitVec 512) :=
  s.tbl.filterMap fun (k, e) => if k / 65536 = t then some (k % 65536, e) else none

/-! ### Keys and hashes (R66, R67) -/

/-- way_hash(key, w, seed): CRC-32C over the key's bytes rotated by 4w. -/
def wayHash (key w seed : Nat) : Nat :=
  crc32c seed ((List.range 16).map fun i => BitVec.ofNat 8 (key >>> (8 * ((i + 4 * w) % 16))))

/-- The ICT index of a key in way w. -/
def State.ictIndex (s : State) (key w : Nat) : Nat := w * 2048 + wayHash key w (s.rd (Reg.ICT_SEED0 + 4 * w)).toNat % 2048

/-- The ADT index of a key in way w. -/
def State.adtIndex (s : State) (key w : Nat) : Nat := w * 4096 + wayHash key w (s.rd (Reg.ADT_SEED0 + 4 * w)).toNat % 4096

/-- The ADT key of an address on a VLAN (R76). -/
def adtKey (mac vid : Nat) : Nat := mac % 2 ^ 48 + vid % 4096 * 2 ^ 48

/-- Fields of an ADT entry (Table 3-8). -/
def adtValid (e : BitVec 512) : Bool := bit e 0
def adtStatic (e : BitVec 512) : Bool := bit e 2
def adtRemote (e : BitVec 512) : Bool := bit e 3
def adtFrozen (e : BitVec 512) : Bool := bit e 4
def adtMcast (e : BitVec 512) : Bool := bit e 5
def adtMac (e : BitVec 512) : Nat := fld e 8 48
def adtVid (e : BitVec 512) : Nat := fld e 56 12
def adtPort (e : BitVec 512) : Nat := fld e 72 5
def adtAge (e : BitVec 512) : Nat := fld e 80 12
def adtOrigin (e : BitVec 512) : Nat := fld e 96 9

/-- The key an ADT entry holds. -/
def adtKeyOf (e : BitVec 512) : Nat := adtKey (adtMac e) (adtVid e)

/-- The index of a key in the ICT. -/
def State.ictFind (s : State) (key : Nat) : Option Nat :=
  ((List.range 4).map (s.ictIndex key)).find? fun i => bit (s.tent 1 i) 128 && decide (fld (s.tent 1 i) 0 128 = key)

/-- The index of a key in the ADT, in the lowest way that holds it (R79). -/
def State.adtFind (s : State) (key : Nat) : Option Nat :=
  ((List.range 4).map (s.adtIndex key)).find? fun i => adtValid (s.tent 2 i) && decide (adtKeyOf (s.tent 2 i) = key)

/-- An ICT key follows Table 3-4 (R66). [DESIGN CHOICE, log entry 92] -/
def ictKeyOk (key : Nat) : Bool :=
  let hi := key >>> 124
  let rest := key % 2 ^ 124
  match hi with
  | 1 => decide (rest = rest % 2 ^ 29 + (fldN rest 64 5) * 2 ^ 64) && decide (fldN rest 64 5 < 24)
  | 2 => decide (rest = rest % 2048 + (fldN rest 32 32) * 2 ^ 32 + (fldN rest 64 5) * 2 ^ 64) && decide (fldN rest 64 5 < 24)
  | 3 | 4 => decide (rest < 2 ^ 60)
  | _ => false

/-! ### ADT placement (R78) -/

/-- One level of the breadth-first search: paths (their last slot first) are expanded in order, each occupant's other ways
ascending. Answers the first path that ends in a free slot, or the next level and the slots seen. -/
def State.adtLevel (s : State) : List (List Nat) → List (List Nat) → List Nat → Option (List Nat) × List (List Nat) × List Nat
  | [], next, seen => (none, next, seen)
  | p :: ps, next, seen =>
    let here := p.headD 0
    let key := adtKeyOf (s.tent 2 here)
    let alts := ((List.range 4).map (s.adtIndex key)).filter (fun i => decide (i ≠ here) && !seen.contains i)
    match alts.find? (fun i => !adtValid (s.tent 2 i)) with
    | some i => (some (i :: p), [], seen)
    | none => s.adtLevel ps (next ++ alts.map (fun i => i :: p)) (seen ++ alts)

/-- The search of at most `n` more moves from a level. -/
def State.adtSearch (s : State) : Nat → List (List Nat) → List Nat → Option (List Nat)
  | 0, _, _ => none
  | n + 1, level, seen =>
    match s.adtLevel level [] seen with
    | (some p, _, _) => some p
    | (none, next, seen) => s.adtSearch n next seen

/-- The path of a placement, its free slot first and the new entry's slot last. -/
def State.adtPath (s : State) (key : Nat) : Option (List Nat) :=
  let cand := (List.range 4).map (s.adtIndex key)
  match cand.find? (fun i => !adtValid (s.tent 2 i)) with
  | some i => some [i]
  | none => s.adtSearch 3 (cand.map fun i => [i]) cand

/-- The RELOC bit of an ADT entry (Table 3-8). -/
def adtReloc (e : BitVec 512) : Bool := bit e 1

/-- The writes of move(src, dst), in order (R78). -/
def moveWrites (src dst : Nat) : List AdtWrite := [.mark src, .copy src dst, .drop src, .clear dst]

/-- The writes of a placement along a path (its free slot first): the moves from the free end backward, then the new entry. -/
def placeWrites (e : BitVec 512) : List Nat → List AdtWrite
  | dst :: src :: t => moveWrites src dst ++ placeWrites e (src :: t)
  | [i] => [.put i e]
  | [] => []

/-- One write of the ADT update engine (R78). -/
def State.adtWrite (s : State) : AdtWrite → State
  | .mark i => s.setTent 2 i (setFld (s.tent 2 i) 1 1 1)
  | .copy i j => s.setTent 2 j (s.tent 2 i)
  | .drop i => s.setTent 2 i (setFld (s.tent 2 i) 0 1 0)
  | .clear j => (s.setTent 2 j (setFld (s.tent 2 j) 1 1 0)).stat Reg.ADT_RELOC 1
  | .put i e => s.setTent 2 i e

/-- The update engine makes the writes it has still to make. It carries out one update at a time, so every other update waits for this. [DESIGN CHOICE, log entry 87] -/
def State.adtFinish (s : State) : State :=
  s.lrn.moves.foldl State.adtWrite { s with lrn := { s.lrn with moves := [] } }

/-- The update engine makes its next write. [DESIGN CHOICE, log entry 87] -/
def State.adtNext (s : State) : State :=
  match s.lrn.moves with
  | [] => s
  | w :: t => { s with lrn := { s.lrn with moves := t } }.adtWrite w

/-- place(key, data) of R78, all its writes made: none when no path exists. [DEDUCED, log entry 11] -/
def State.adtPlace (s : State) (key : Nat) (e : BitVec 512) : Option State :=
  (s.adtPath key).map fun p => (placeWrites e p).foldl State.adtWrite s

/-- place(key, data) of R78 for a learn request: a new entry whose way is free is written at once; a placement that relocates others has
its writes made one by one, and readers see the table between them (R79, R80). [DESIGN CHOICE, log entry 87] -/
def State.adtPlaceSlow (s : State) (key : Nat) (e : BitVec 512) : Option State :=
  (s.adtPath key).map fun p =>
    match p with
    | [i] => s.setTent 2 i e
    | _ => { s with lrn := { s.lrn with moves := placeWrites e p } }

/-- LRN_TICK. -/
def State.tick (s : State) : Nat := s.rf Reg.LRN_TICK 0 12

/-- Note a local dynamic entry that has been deleted, for the anchors' next WITHDRAW (R88); an announcement of it that was
still pending is not sent. -/
def State.noteWithdraw (s : State) (e : BitVec 512) : State :=
  let x := (adtMac e, adtVid e)
  if adtValid e && !adtStatic e && !adtRemote e && s.rb Reg.LRN_XCH_CFG 0 then
    { s with lrn := { s.lrn with annPend := s.lrn.annPend.filter (fun y => decide (y ≠ x)),
                                 lastAnn := Tab.set (fun _ => 0) s.lrn.lastAnn (adtKeyOf e) 0,
                                 wdPend := s.lrn.wdPend.filter (fun y => decide (y ≠ x)) ++ [x] } }
  else s

/-! ### What a commit changes elsewhere -/

/-- The handle's last accepted frame is forgotten when its SRT entry is committed (R74). -/
def State.srtCommitted (s : State) (i : Nat) : State :=
  { s with bsn := { s.bsn with minInt := Tab.set (fun _ => none) s.bsn.minInt i none } }

/-- A committed signal entry: a PLACE's value last sent is forgotten (R260); a SOURCE's AGE counts from here while NEVER (R270). -/
def State.sigCommitted (s : State) (i : Nat) : State :=
  let forget := fun (p : Nat × TxPdu) => (p.1, { p.2 with lastSent := p.2.lastSent.filter (fun q => decide (q.1 ≠ i)) })
  { s with cfl := { s.cfl with tx := (s.cfl.tx.map forget).filter (fun p => decide (p.2 ≠ TxPdu.reset)),
                               srcWritten := Tab.set (fun _ => 0) s.cfl.srcWritten i s.now } }

/-- A committed PDU entry: when it makes the entry VALID, its timeout runs from here (R258). -/
def State.pduCommitted (s : State) (i : Nat) (was : BitVec 512) : State :=
  if bit (s.tent 4 i) 0 && !bit was 0 then
    { s with cfl := { s.cfl with rx := Tab.set (fun _ => ⟨none, false, false⟩) s.cfl.rx i ⟨some (s.now : Int), false, false⟩,
                                 pduWritten := Tab.set (fun _ => 0) s.cfl.pduWritten i s.now } }
  else s

/-! ### Staged entries (R47, R48, R68, R77) -/

/-- The entry a TAP INSERT makes in the ADT (R77). -/
def State.adtInsertEntry (s : State) (key : Nat) (d : BitVec 512) : BitVec 512 :=
  BitVec.ofNat 512 (1 + fld d 2 1 * 4 + fld d 5 1 * 32 + key % 2 ^ 48 * 2 ^ 8 + (fldN key 48 12) * 2 ^ 56 + fld d 72 5 * 2 ^ 72 +
    s.tick * 2 ^ 80 + fld d 128 26 * 2 ^ 128)

/-- The ICT entry of a key at an index (R68). -/
def ictEntry (key idx : Nat) (d : BitVec 512) : BitVec 512 :=
  let h := if bit d 129 then fld d 144 16 else 0xC200 + idx
  BitVec.ofNat 512 (key + 2 ^ 128 + fld d 129 1 * 2 ^ 129 + h * 2 ^ 144)

/-- A write of a direct table's entry at commit, with what it changes elsewhere. -/
def State.directWrite (s : State) (t i : Nat) (e : BitVec 512) : State :=
  let was := s.tent t i
  let s := s.setTent t i (tableMask t e)
  match t with
  | 0 => s.srtCommitted i
  | 3 => s.sigCommitted i
  | 4 => s.pduCommitted i was
  | _ => s

/-- Apply one staged entry: the state with it, or the code under which the commit fails. [DEDUCED, log entry 11] -/
def State.applyStaged (s : State) : Staged → Except Nat State
  | .write t i d => .ok (s.directWrite t i d)
  | .delIndex t i => .ok (s.directWrite t i 0)
  | .insert t k d =>
    if t = 1 then
      match s.ictFind k.toNat with
      | some i => .ok (s.setTent 1 i (ictEntry k.toNat i d))
      | none =>
        match ((List.range 4).map (s.ictIndex k.toNat)).find? (fun i => !bit (s.tent 1 i) 128) with
        | some i => .ok (s.setTent 1 i (ictEntry k.toNat i d))
        | none => .error Code.tableFull
    else
      let e := s.adtInsertEntry k.toNat d
      match s.adtFind k.toNat with
      | some i => .ok (s.setTent 2 i e)
      | none =>
        match s.adtPlace k.toNat e with
        | some s => .ok s
        | none => .error Code.tableFull
  | .delKey t k =>
    match (if t = 1 then s.ictFind k.toNat else s.adtFind k.toNat) with
    | some i => .ok (if t = 1 then s.setTent 1 i 0 else (s.noteWithdraw (s.tent 2 i)).setTent 2 i 0)
    | none => .error Code.notFound

/-- Apply staged entries in staging order from position `pos`: all of them, or the failing position and its code. [DEDUCED, log entry 11] -/
def State.applyAll (s : State) : Nat → List Staged → Except (Nat × Nat) State
  | _, [] => .ok s
  | pos, x :: t =>
    match s.applyStaged x with
    | .ok s => s.applyAll (pos + 1) t
    | .error c => .error (pos, c)

/-! ### Arguments of a staged WRITE or INSERT (R68, R70, R256) -/

/-- The ranges of a PDU entry's fields in use (R256, Table 9-3). -/
def pduOk (e : BitVec 512) : Bool :=
  let len := fld e 80 12
  match fld e 1 3 with
  | 1 => decide (fld e 48 11 ≤ 1024) && decide (len ≤ 2048)
  | 2 =>
    decide (fld e 48 11 ≤ 1024) &&
    (decide (fld e 96 2 = 1) || decide (1 ≤ fld e 112 16)) &&
    (!bit e 152 || (decide (1 ≤ fld e 153 4) && decide (fld e 153 4 ≤ 8))) &&
    (if bit e 176 then
      let fmt := fld e 232 2
      let ch := fld e 224 6
      (match fmt with
        | 0 => decide (len ≤ 8)
        | 1 => decide (len ≤ 8) || [12, 16, 20, 24, 32, 48, 64].contains len
        | 2 => decide (1 ≤ len) && decide (len ≤ 2048)
        | _ => decide (1 ≤ len) && decide (len ≤ 8)) &&
      (if fmt = 3 then decide (50 ≤ ch) && decide (ch ≤ 57) else decide (26 ≤ ch) && decide (ch ≤ 49))
    else decide (1 ≤ len) && decide (len ≤ 1500))
  | 3 => decide (1 ≤ fld e 352 5) && decide (fld e 352 5 ≤ 16)
  | 4 => (List.range 32).all fun b =>
      !bit e (128 + 8 * b + 7) || (decide (26 ≤ fld e (128 + 8 * b) 6) && decide (fld e (128 + 8 * b) 6 ≤ 49))
  | _ => true

/-- A staged WRITE's data are in range. [DEDUCED, log entry 11] -/
def writeOk (t : Nat) (d : BitVec 512) : Bool :=
  match t with
  | 0 => decide (fld d 1 6 < 58) || decide (fld d 1 6 = 63)
  | 4 => pduOk d
  | _ => true

/-- A staged INSERT's key and data are in range (R66, R68, R76). [DEDUCED, log entry 11] -/
def insertOk (t key : Nat) (d : BitVec 512) : Bool :=
  if t = 1 then ictKeyOk key && (!bit d 129 || decide (0xE200 ≤ fld d 144 16))
  else decide (key < 2 ^ 60) && decide (fld d 72 5 ≤ 25)

/-! ### Commands (Tables 2-7 and 2-8) -/

/-- A master's staging area. -/
def State.staging (s : State) (m : Nat) : List Staged := Tab.get (fun _ => []) s.stage m

/-- Replace a master's staging area. -/
def State.setStaging (s : State) (m : Nat) (l : List Staged) : State :=
  { s with stage := Tab.set (fun _ => []) s.stage m l }

/-- The entry as result words. -/
def entryWords (e : BitVec 512) : List Word := (List.range 16).map fun k => wd (fld e (32 * k) 32)

/-- A master's TAP_KEY. -/
def State.tapKey (s : State) (m : Nat) : Nat :=
  sumN ((List.range 4).map fun k => (s.rd (bankKey m (Reg.TAP_KEY k))).toNat * 2 ^ (32 * k))

/-- A master's TAP_DATA. -/
def State.tapData (s : State) (m : Nat) : BitVec 512 :=
  BitVec.ofNat 512 (sumN ((List.range 16).map fun k => (s.rd (bankKey m (Reg.TAP_DATA k))).toNat * 2 ^ (32 * k)))

/-- Stage one more entry: STAGE_FULL at 64, else OK with the new count. [DEDUCED, log entry 11] -/
def State.tapStage (s : State) (m : Nat) (x : Staged) : Result × State :=
  let l := s.staging m
  if 64 ≤ l.length then (codeRes Code.stageFull, s)
  else (dataRes Code.ok [wd (l.length + 1)], s.setStaging m (l ++ [x]))

/-- The table is keyed (R475). -/
def keyed (t : Nat) : Bool := decide (t = 1) || decide (t = 2)

/-- A TAP command other than COMMIT: its result, and the state with what it stages or discards (Table 2-8, R475). [DEDUCED, log entry 11] -/
def State.tapRun (s : State) (m op t : Nat) : Result × State :=
  let i := s.rf (bankKey m Reg.TAP_INDEX) 0 16
  let key := s.tapKey m
  let d := s.tapData m
  let bad := fun (c : Nat) => (codeRes c, s)
  if op = 7 then (dataRes Code.ok [0], s.setStaging m [])
  else if op = 0 ∨ 7 < op then bad Code.badOp
  else if 5 < t then bad Code.badTable
  else match op with
  | 1 =>
    if tableSize t ≤ i then bad Code.badIndex
    else ({ code := Code.ok, index := i, len := 0, data := entryWords (s.tent t i), buf := [] }, s)
  | 2 =>
    if keyed t then bad Code.badOp
    else if tableSize t ≤ i then bad Code.badIndex
    else if !writeOk t d then bad Code.badArg
    else s.tapStage m (.write t i d)
  | 3 =>
    if !keyed t then bad Code.badOp
    else match (if t = 1 then s.ictFind key else s.adtFind key) with
    | some j => ({ code := Code.ok, index := j, len := 0, data := entryWords (s.tent t j), buf := [] }, s)
    | none => bad Code.notFound
  | 4 =>
    if !keyed t then bad Code.badOp
    else if !insertOk t key d then bad Code.badArg
    else s.tapStage m (.insert t (BitVec.ofNat 128 key) d)
  | _ =>
    if keyed t then s.tapStage m (.delKey t (BitVec.ofNat 128 key))
    else if tableSize t ≤ i then bad Code.badIndex
    else s.tapStage m (.delIndex t i)

/-- A write of TAP_CMD: accepted, a COMMIT joins the queue of commits and any other command holds its result until it completes. -/
def State.tapCmd (s : State) (m : Nat) (v : Word) : State :=
  s.command (tapSlot m) m (pageBase .tap 0) fun s =>
    if fld v 0 4 = 6 then { s with commitQ := s.commitQ ++ [m] }
    else
      let (r, s) := s.tapRun m (fld v 0 4) (fld v 8 4)
      s.holdRes (tapSlot m) r

/-- The result of a COMMIT that completes with OK, with the new TAP_COMMIT. -/
def State.commitRes (s : State) (code index applied : Nat) : Result :=
  { code := code, index := index, len := 0, data := [wd applied, wd s.commits.toNat, wd (s.commits.toNat >>> 32)], buf := [] }

/-- The commit at the front of the queue completes (R45, R48); a successful one waits for its journal record (R412). [DESIGN CHOICE, log entry 86] -/
def State.tapCommitDone (s : State) : State :=
  match s.commitQ with
  | [] => s
  | m :: q =>
    let l := s.staging m
    let s := { s with commitQ := q }.adtFinish
    match s.applyAll 0 l with
    | .ok t =>
      let t := (t.setStaging m [])
      let t := { t with commits := t.commits + 1, mgs := { t.mgs with commits := t.mgs.commits ++ [l] } }
      t.complete (tapSlot m) (t.commitRes Code.ok 0 l.length)
    | .error (pos, c) => (s.setStaging m []).complete (tapSlot m) (s.commitRes c pos 0)

/-- A write of a seed: taken only while its table is empty (R69). -/
def State.seedWrite (s : State) (m a : Nat) (v : Word) : State :=
  let t := if a < pageBase .srt 0 then 1 else 2
  if (s.tentries t).isEmpty then s.plainWrite m a v
  else if t = 1 then (s.evt Reg.ICT_SEED_REJ).raise .ict 0 Irq.ICT_SEED_REJ
  else (s.evt Reg.ADT_SEED_REJ).raise .adt 0 Irq.ADT_SEED_REJ

end Sys2Proof.Machine
end

