-- ==== Sys2Proof/Machine/Time.lean ====
section
/-! DEFINITION. Domain time, the servos, link delay and the gPTP messages: the operations of "Time Base, Domains and
Timestamps" that its commands share. -/

namespace Sys2Proof.Machine

/-- A domain. -/
def State.dom (s : State) (d : Nat) : Dom := Tab.get (fun _ => Dom.reset) s.tim.doms d

/-- Replace a domain. -/
def State.setDom (s : State) (d : Nat) (v : Dom) : State :=
  { s with tim := { s.tim with doms := Tab.set (fun _ => Dom.reset) s.tim.doms d v } }

/-- The FRC in units of 2^-16 ns. -/
def State.frc16 (s : State) : Nat := s.frcNs.toNat * 65536 + s.frcFrac.toNat

/-- What the slew in progress has applied at an FRC value in 2^-16 ns, in 2^-48 ns: the integral of (RATE − BASE) × 2^-32 (R282). -/
def Dom.applied (D : Dom) (f16 : Nat) : Int := D.acc + (D.rate - D.base) * ((f16 : Int) - D.epoch)

/-- The accumulated adjustment has reached Δ. -/
def Dom.slewed (D : Dom) (f16 : Nat) : Bool :=
  D.slewing && (if 0 ≤ D.delta then decide (D.delta * 2 ^ 48 ≤ D.applied f16) else decide (D.applied f16 ≤ D.delta * 2 ^ 48))

/-- What (RATE − BASE) would have added past Δ: it never counts, as SR is 0 from the instant of equality on (R282). [DEDUCED, log entry 50] -/
def Dom.beyond (D : Dom) (f16 : Nat) : Int := if D.slewed f16 then D.applied f16 - D.delta * 2 ^ 48 else 0

/-- RATE × (FRC − RATE_EPOCH) × 2^-32 in 2^-16 ns, truncated toward minus infinity (R276). [DEDUCED, log entry 50] -/
def Dom.rateTerm (D : Dom) (f16 : Nat) : Int := (D.rate * ((f16 : Int) - D.epoch) - D.beyond f16) / (2 ^ 32 : Int)

/-- Domain time in 2^-16 ns at an FRC value in 2^-16 ns (R276). [DEDUCED, log entry 50] -/
def State.domTimeAt (s : State) (d f16 : Nat) : Int :=
  (f16 : Int) + (s.dom d).offset + (s.dom d).rateTerm f16

/-- Domain time now, in 2^-16 ns. -/
def State.domTime (s : State) (d : Nat) : Int := s.domTimeAt d s.frc16

/-- DOM_RATE_MAX. -/
def State.rateMax (s : State) (d : Nat) : Int := (s.rf (Reg.DOM_RATE_MAX d) 0 22 : Nat)

/-- set_rate(new_base, new_slew) of R277 on a domain record: fold the rate term, then replace the rate. [DEDUCED, log entry 50] -/
def Dom.setRate (D : Dom) (f16 : Nat) (max newBase newSlew : Int) : Dom :=
  { D with
    offset := D.offset + D.rateTerm f16
    acc := D.applied f16 - D.beyond f16
    epoch := f16
    base := newBase
    slew := newSlew
    rate := clampI (-max) max (newBase + newSlew) }

/-- set_rate of R277, raising RATE_CLAMP when the rate was clamped. -/
def State.setRate2 (s : State) (d : Nat) (newBase newSlew : Int) : State :=
  let D := (s.dom d).setRate s.frc16 (s.rateMax d) newBase newSlew
  let s := s.setDom d D
  if D.rate = newBase + newSlew then s else s.raise .dom d Irq.DOM_RATE_CLAMP

/-- A slew whose accumulated adjustment has reached Δ ends: SR returns to 0 and SLEWING clears (R282). -/
def State.slewSettle (s : State) (d : Nat) : State :=
  if (s.dom d).slewed s.frc16 then
    let s := s.setRate2 d (s.dom d).base 0
    s.setDom d { s.dom d with slewing := false, delta := 0, acc := 0 }
  else s

/-- set_rate(new): the base rate changes and the slew rate in force is kept (R277). -/
def State.setRate (s : State) (d : Nat) (newBase : Int) : State :=
  let s := s.slewSettle d
  s.setRate2 d newBase (s.dom d).slew

/-- DOM_CFG.ROLE = 1: the domain's grandmaster. -/
def State.domGm (s : State) (d : Nat) : Bool := s.rb (Reg.DOM_CFG d) 1

/-- The compatibility page drives this domain. [DEDUCED, log entry 52] -/
def State.domCompat (s : State) (d : Nat) : Bool :=
  s.rb Reg.TIM_CFG 2 && decide (s.rf Reg.TIM_CFG 0 2 = d) && s.rb (Reg.DOM_CFG d) 2

/-- Enter a state of Table 10-1: the exit action of the old state and the entry action of the new one. -/
def State.domEnter (s : State) (d new : Nat) : State :=
  let old := (s.dom d).state
  let s := if old = 3 ∧ new ≠ 3 then s.raise .dom d Irq.DOM_UNLOCKED else s
  let D := s.dom d
  let s := s.setDom d { D with state := new, integ := if new = 1 then 0 else D.integ,
                               lockRun := if new = 2 then 0 else D.lockRun }
  if new = 3 ∧ old ≠ 3 then s.raise .dom d Irq.DOM_LOCKED else s

/-- Step a domain by Δ ns: OFFSET, STEPPED and DOM_STEP_CNT. [DEDUCED, log entry 50] -/
def State.domStep (s : State) (d : Nat) (delta : Int) : State :=
  let D := s.dom d
  let s := s.setDom d { D with offset := D.offset + delta * 65536, stepped := D.stepped + 1 }
  (s.evt (Reg.DOM_STEP_CNT d)).raise .dom d Irq.DOM_STEPPED

/-- Refuse a domain command: count DOM_CMD_REJ and raise CMD_REJ (R283). -/
def State.domRefuse (s : State) (d : Nat) : State := (s.evt (Reg.DOM_CMD_REJ d)).raise .dom d Irq.DOM_CMD_REJ

/-- MASTER_JUMP: raised and counted. -/
def State.domJump (s : State) (d : Nat) : State := (s.evt (Reg.DOM_MASTER_JUMP d)).raise .dom d Irq.DOM_MASTER_JUMP

/-- Start a slew of Δ ns, replacing the part of a slew not yet applied; Δ = 0 ends it (R282). -/
def State.domSlew (s : State) (d : Nat) (delta : Int) : State :=
  let r : Int := (s.rf (Reg.DOM_SLEW_RATE d) 0 22 : Nat)
  let sr := if delta = 0 then 0 else if delta < 0 then -r else r
  let s := s.setRate2 d (s.dom d).base sr
  s.setDom d { s.dom d with slewing := decide (delta ≠ 0), delta := delta, acc := 0 }

/-- DOM_JUMP_LIMIT in ns. -/
def State.jumpLimit (s : State) (d : Nat) : Int := (s.rf (Reg.DOM_JUMP_LIMIT d) 0 24 : Nat)

/-- A step of Δ ns under Table 10-1, from a STEP command or the compatibility servo: step, slew or refusal by state. [DEDUCED, log entry 52] -/
def State.domStepBy (s : State) (d : Nat) (delta : Int) : State :=
  match (s.dom d).state with
  | 1 => (s.domStep d delta).domEnter d (if s.domGm d then 3 else 2)
  | 2 | 4 => s.domRefuse d
  | 3 => if absI delta ≤ s.jumpLimit d then s.domSlew d delta else s.domJump d
  | _ => s

/-- A STEP command: one that LOCKED refuses is a refused command, so it raises CMD_REJ as well (R281, R283). -/
def State.domStepCmd (s : State) (d : Nat) (delta : Int) : State :=
  let t := s.domStepBy d delta
  if (s.dom d).state = 3 ∧ s.jumpLimit d < absI delta then t.raise .dom d Irq.DOM_CMD_REJ else t

/-- native_update(e) of R280. [DEDUCED, log entry 50] -/
def State.nativeUpdate (s : State) (d : Nat) (e : Int) : State :=
  let kp : Int := (s.rf (Reg.DOM_SERVO d) 0 8 : Nat)
  let ki : Int := (s.rf (Reg.DOM_SERVO d) 8 8 : Nat)
  let i := clampI (-(s.rateMax d)) (s.rateMax d) ((s.dom d).integ + e * ki)
  (s.setDom d { s.dom d with integ := i }).setRate d (i + e * kp)

/-- The lock judgement of SETTLING: LOCK_RUN counts errors within LOCK_THR, and LOCK_CNT of them lock the domain. -/
def State.lockJudge (s : State) (d : Nat) (e : Int) : State :=
  let thr : Int := (s.rf (Reg.DOM_SERVO d) 16 8 * 10 : Nat)
  let run := if absI e ≤ thr then (s.dom d).lockRun + 1 else 0
  let s := s.setDom d { s.dom d with lockRun := run }
  if run = s.rf (Reg.DOM_SERVO d) 24 4 then s.domEnter d 3 else s

/-- The rate ratio of the two latest Syncs, minus 1, in 2^-32 units: master times and ingress stamps in 2^-16 ns. -/
def rateRatio (a b : Int × Nat) : Int :=
  let df : Int := (b.2 : Int) - a.2
  if df = 0 then 0 else ((b.1 - a.1 - df) * (2 ^ 32 : Int)) / df

/-- An update of R280, when the native servo drives the domain. -/
def State.domUpdate (s : State) (d : Nat) (native : Bool) (e : Int) : State := if native then s.nativeUpdate d e else s

/-- An error e under Table 10-1: what only the native servo does, it alone does. `here` is the Sync it came from: master time and ingress
stamp. [DEDUCED, log entry 50] -/
def State.domErr (s : State) (d : Nat) (native : Bool) (e : Int) (here : Int × Nat) : State :=
  match (s.dom d).state with
  | 1 => if !native then s else
    let seed := match (s.dom d).last2 with
      | some p => clampI (-(s.rateMax d)) (s.rateMax d) (rateRatio p here)
      | none => 0
    let s := (s.domStep d e).domEnter d 2
    s.setDom d { s.dom d with integ := seed }
  | 2 => if native then (s.nativeUpdate d e).lockJudge d e else s
  | 3 => if absI e ≤ s.jumpLimit d then s.domUpdate d native e else s.domJump d
  | 4 => if absI e ≤ s.jumpLimit d then (s.domUpdate d native e).domEnter d 3 else s.domJump d
  | _ => s

/-! ### gPTP (R285-R287) -/

/-- The role of port p in domain d: 0 disabled, 1 master, 2 slave, 3 passive. -/
def State.ptpRole (s : State) (p d : Nat) : Nat := s.rf (Reg.TIM_PORT_CFG p) (16 + 2 * d) 2

/-- Ports that take part: 0-15 and 20-22. -/
def ptpPorts : List Nat := List.range 16 ++ [20, 21, 22]

/-- The domain's slave port. -/
def State.slavePort (s : State) (d : Nat) : Option Nat := ptpPorts.find? (fun p => decide (s.ptpRole p d = 2))

/-- The port is asCapable. -/
def State.asCapable (s : State) (p : Nat) : Bool := s.rb (Reg.TIM_PDELAY p) 31

/-- meanLinkDelay of a port, ns. -/
def State.linkDelay (s : State) (p : Nat) : Nat := s.rf (Reg.TIM_PDELAY p) 0 24

/-- The enabled domain with this domainNumber. -/
def State.domOf (s : State) (number : Nat) : Option Nat :=
  (List.range 4).find? (fun d => s.rb (Reg.DOM_CFG d) 0 && decide ((s.dom d).state ≠ 0) && decide (s.rf (Reg.DOM_CFG d) 8 8 = number))

/-- The clock identity: the EUI-64 of ICL_DEV_MAC with FF-FE after the third octet (R287). [PRESUMED, log entry 51] -/
def State.clockId (s : State) : List Byte :=
  toBE 3 (s.devMac >>> 24) ++ [0xFF, 0xFE] ++ toBE 3 s.devMac

/-- A gPTP frame of IEEE 802.1AS: header and body; Pdelay messages are those of the Common Mean Link Delay Service. Time fields of an own
Sync are inserted at egress (R289). [PRESUMED, log entry 51] -/
def State.ptpFrame (s : State) (typ number port seq logInt : Nat) (corr : Nat) (body : List Byte) : List Byte :=
  toBE 6 0x0180C200000E ++ toBE 6 s.devMac ++ toBE 2 0x88F7 ++
  toBE 1 ((if typ = 0 then 0x10 else 0x20) + typ) ++ [0x02] ++ toBE 2 (34 + body.length) ++ toBE 1 number ++ [0x00] ++ toBE 2 0 ++ toBE 8 corr ++ toBE 4 0 ++
  s.clockId ++ toBE 2 (port + 1) ++ toBE 2 seq ++ [0x00] ++ toBE 1 logInt ++ body

/-- The Follow_Up information TLV of a Sync that relays none, its fields zero. [PRESUMED, log entry 51] -/
def followUpTlv : List Byte := toBE 2 0x0003 ++ toBE 2 28 ++ toBE 3 0x0080C2 ++ toBE 3 1 ++ List.replicate 22 0

/-- Next sequenceId of a port and message counter `c`, modulo 65,536. -/
def State.ptpSeq (s : State) (p c : Nat) : Nat × State :=
  let n := Tab.get (fun _ => 0) s.tim.seqs (p * 8 + c)
  (n, { s with tim := { s.tim with seqs := Tab.set (fun _ => 0) s.tim.seqs (p * 8 + c) ((n + 1) % 65536) } })

/-- Send a gPTP message: its class is TIM_CFG.PTP_TC (R21). -/
def State.ptpSend (s : State) (port : Nat) (bytes : List Byte) (own : OwnMsg := .plain) : State :=
  s.sendOwn port (s.rf Reg.TIM_CFG 4 3) bytes (some own)

/-- Send a Sync of domain d, with its Follow_Up information TLV, on every asCapable master port (R287). [PRESUMED, log entry 51] -/
def State.syncOut (s : State) (d : Nat) (o : OwnSync) (tlv : List Byte := followUpTlv) : State :=
  (ptpPorts.filter (fun p => decide (s.ptpRole p d = 1) && s.asCapable p)).foldl (fun s p =>
    let (q, s) := s.ptpSeq p d
    s.ptpSend p (s.ptpFrame 0 (s.rf (Reg.DOM_CFG d) 8 8) p q (s.rf (Reg.DOM_CFG d) 16 4 + if s.rb (Reg.DOM_CFG d) 19 then 0xF0 else 0)
      0 (toBE 10 0 ++ tlv)) (.sync o)) s

/-- A Sync that is not accepted: dropped and counted (R286). -/
def State.syncDrop (s : State) : State := s.evt Reg.TIM_SYNC_DROP

/-- Accept a Sync on domain d's slave port p (R279, R287): its error, the servo and the relayed Syncs. `origin` is in ns, `corr`
in 2^-16 ns, `ingress` its stamp in ns, `steps` the domain's step count then, `tlv` its Follow_Up information TLV. The domain time and rate
that correctionField takes are those before the servo's update. [PRESUMED, log entry 51] -/
def State.syncAccept (s : State) (d p origin : Nat) (corr : Int) (ingress steps : Nat) (tlv : List Byte) : State :=
  let s := s.stat (Reg.DOM_SYNC_RX d) 1
  let master : Int := (origin : Int) * 65536 + corr + (s.linkDelay p : Nat) * 65536
  let there := s.domTimeAt d (ingress * 65536)
  let rate := (s.dom d).rate
  let e : Int := (master - there) / 65536
  let s := s.wr (Reg.DOM_LAST_ERR d) (wd (unsext 32 (clampI (-2147483648) 2147483647 e)))
  let here := (master, ingress * 65536)
  let s :=
    if s.domGm d then s
    else (if s.domCompat d then s.raise .dom d Irq.DOM_ERR_READY else s).domErr d (!s.rb (Reg.DOM_CFG d) 2) e here
  let s := s.setDom d { s.dom d with last2 := some here, wait := none }
  if s.domGm d then s
  else
    let ml : Int := (s.linkDelay p : Nat) * 65536
    s.syncOut d { dom := d, relay := true, origin := origin, steps := steps, corr := corr + ml + (ml * rate) / (2 ^ 32 : Int) - there }
      (if tlv.isEmpty then followUpTlv else tlv)

/-- A port's link-delay measurement. -/
def State.pd (s : State) (p : Nat) : PdPort := Tab.get (fun _ => PdPort.reset) s.tim.pd p

/-- Replace a port's link-delay measurement. -/
def State.setPd (s : State) (p : Nat) (v : PdPort) : State :=
  { s with tim := { s.tim with pd := Tab.set (fun _ => PdPort.reset) s.tim.pd p v } }

/-- A Pdelay exchange of port p ended badly (R286). [PRESUMED, log entry 51] -/
def State.pdelayBad (s : State) (p : Nat) : State :=
  let P := s.pd p
  let s := s.setPd p { P with req := none, good := 0, bad := P.bad + 1 }
  if P.bad + 1 = 3 ∧ s.asCapable p then
    ((s.wf (Reg.TIM_PDELAY p) 31 1 0).evt Reg.TIM_PDELAY_FAIL).raise .tim 0 Irq.TIM_PDELAY_FAIL
  else s

/-- A Pdelay exchange of port p ended well, with a mean link delay within the limit. [PRESUMED, log entry 51] -/
def State.pdelayGood (s : State) (p : Nat) : State :=
  let P := s.pd p
  let s := s.setPd p { P with req := none, good := P.good + 1, bad := 0 }
  if P.good + 1 = 3 then s.wf (Reg.TIM_PDELAY p) 31 1 1 else s

/-! ### gPTP messages received (R285-R288) -/

/-- A Sync arrives on port p, stamped `ingress`; a two-step Sync waits for its Follow_Up, and one that still waited is dropped (R279, R286). -/
def State.syncRx (s : State) (p number : Nat) (twoStep : Bool) (seq origin : Nat) (corr : Int) (ingress : Nat) (tlv : List Byte) : State :=
  let s := s.stat Reg.TIM_RX_MSG 1
  match s.domOf number with
  | none => s.evt Reg.TIM_FOREIGN
  | some d =>
    if s.slavePort d = some p ∧ s.asCapable p then
      let s := if (s.dom d).wait.isSome then (s.setDom d { s.dom d with wait := none }).syncDrop else s
      if twoStep then s.setDom d { s.dom d with wait := some ⟨p, seq, corr, ingress, (s.dom d).stepped⟩ }
      else s.syncAccept d p origin corr ingress (s.dom d).stepped tlv
    else s.syncDrop

/-- A Follow_Up arrives on port p: that of the waiting two-step Sync completes it (R286). -/
def State.followUpRx (s : State) (p number seq origin : Nat) (corr : Int) (tlv : List Byte) : State :=
  let s := s.stat Reg.TIM_RX_MSG 1
  match s.domOf number with
  | none => s.evt Reg.TIM_FOREIGN
  | some d =>
    match (s.dom d).wait with
    | some w =>
      if w.port = p ∧ w.seq = seq then
        if s.slavePort d = some p ∧ s.asCapable p then s.syncAccept d p origin (w.corr + corr) w.ingress w.steps tlv
        else (s.setDom d { s.dom d with wait := none }).syncDrop
      else s
    | none => s

/-- The timestamp of a gPTP message, as it carries it. [PRESUMED, log entry 51] -/
def ptpTime (t : Nat) : List Byte := toBE 6 (t / 1000000000) ++ toBE 4 (t % 1000000000)

/-- A Pdelay_Req on port p, stamped t2: answered with Pdelay_Resp, whose egress stamp its Follow_Up will carry (R21, R286, R288). -/
def State.pdelayReqRx (s : State) (p seq t2 : Nat) (requester : List Byte) : State :=
  let s := s.stat Reg.TIM_RX_MSG 1
  if s.rb (Reg.TIM_PORT_CFG p) 0 ∧ p ∈ ptpPorts then
    s.ptpSend p (s.ptpFrame 3 0 p seq 0x7F 0 (ptpTime t2 ++ fit 10 requester)) (.delayResp seq requester)
  else s

/-- The exchange of port p is complete: its four stamps (own request sent, received there, response sent there, received here) give the
neighbour rate ratio, the mean link delay and asCapable (R286). [PRESUMED, log entry 51] -/
def State.pdelayRespRx (s : State) (p seq t1 t2 t3 t4 : Nat) : State :=
  let s := s.stat Reg.TIM_RX_MSG 1
  let P := s.pd p
  match P.req with
  | none => s
  | some (q, _) =>
    if q ≠ seq then s
    else
      let nrr := match P.last with
        | some (a, b) => rateRatio ((a : Int), b) ((t3 : Int), t4)
        | none => sext 32 (s.rd (Reg.TIM_NRR p)).toNat
      let s := s.wr (Reg.TIM_NRR p) (wd (unsext 32 nrr))
      let turn : Int := (t4 : Int) - t1
      let dly := clampI 0 0xFFFFFF ((turn + (turn * nrr) / (2 ^ 32 : Int) - ((t3 : Int) - t2)) / 2)
      let s := s.wf (Reg.TIM_PDELAY p) 0 24 dly.toNat
      let s := s.setPd p { P with last := some (t3, t4) }
      if dly.toNat ≤ s.rf Reg.TIM_PDELAY_THRESH 0 16 then s.pdelayGood p else s.pdelayBad p

/-- An Announce or Signaling message is consumed and counted (R285). -/
def State.gptpOther (s : State) (number : Nat) : State :=
  let s := s.stat Reg.TIM_RX_MSG 1
  if (s.domOf number).isNone then s.evt Reg.TIM_FOREIGN else s

/-- The gPTP message `b`, from its header on, that reached port p whole and was stamped `ts`. A Pdelay_Resp waits for its Follow_Up.
[PRESUMED, log entry 51] [PRESUMED, log entry 51] -/
def State.gptpRx (s : State) (p ts : Nat) (b : List Byte) : State :=
  let number := beAt b 4 1
  let seq := beAt b 30 2
  let corr := sext 64 (beAt b 8 8)
  let time := beAt b 34 6 * 1000000000 + beAt b 40 4
  let tlv := (b.drop 44).take 32
  let mine := decide ((b.drop 44).take 10 = s.clockId ++ toBE 2 (p + 1))
  match beAt b 0 1 % 16 with
  | 0 => s.syncRx p number ((beAt b 6 1).testBit 1) seq time corr ts (if (beAt b 6 1).testBit 1 then [] else tlv)
  | 8 => s.followUpRx p number seq time corr tlv
  | 2 => s.pdelayReqRx p seq ts ((b.drop 20).take 10)
  | 3 => let s := s.stat Reg.TIM_RX_MSG 1; if mine then s.setPd p { s.pd p with resp := some (seq, time, ts) } else s
  | 10 =>
    match (s.pd p).req, (s.pd p).resp with
    | some (_, t1), some (q, t2, t4) =>
      if mine ∧ q = seq then (s.setPd p { s.pd p with resp := none }).pdelayRespRx p seq t1 t2 time t4 else s.stat Reg.TIM_RX_MSG 1
    | _, _ => s.stat Reg.TIM_RX_MSG 1
  | _ => s.gptpOther number

/-- The egress stamp of what leaves port p now (R288). -/
def State.egressStamp (s : State) (p : Nat) : Nat := (s.now + s.rf (Reg.TIM_PORT_LAT p) 16 16) % 2 ^ 64

/-- A message of the time unit leaves port p: it is counted, and its egress stamp goes where it is wanted (R287, R288). -/
def State.ownSent (s : State) (p : Nat) (m : OwnMsg) : State :=
  let s := s.stat Reg.TIM_TX_MSG 1
  match m with
  | .plain => s
  | .sync o => s.stat (Reg.DOM_SYNC_TX o.dom) 1
  | .delayReq q =>
    match (s.pd p).req with
    | some (r, _) => if r = q then s.setPd p { s.pd p with req := some (q, s.egressStamp p) } else s
    | none => s
  | .delayResp q requester => s.ptpSend p (s.ptpFrame 10 0 p q 0x7F 0 (ptpTime (s.egressStamp p) ++ fit 10 requester))

/-! ### Writes of the domain pages -/

/-- EN of a domain changes under Table 10-1. -/
def State.domEnable (s : State) (d : Nat) (was : Bool) : State :=
  let en := s.rb (Reg.DOM_CFG d) 0
  if en = was then s
  else if en then s.domEnter d (if s.domGm d then 3 else 1)
  else s.domEnter d 0

/-- What follows a write of DOM_CFG. -/
def State.domCfgWrite (s : State) (m d : Nat) (v : Word) : State :=
  (s.plainWrite m (Reg.DOM_CFG d) v).domEnable d (s.rb (Reg.DOM_CFG d) 0)

/-- What follows a write of DOM_RATE_MAX: a limit below |RATE| is followed by set_rate(BASE) (R276). -/
def State.domRateMaxWrite (s : State) (m d : Nat) (v : Word) : State :=
  let s := s.plainWrite m (Reg.DOM_RATE_MAX d) v
  if s.rateMax d < absI (s.dom d).rate then s.setRate d (s.dom d).base else s

/-- A write of TIM_FRC_INC: outside ±200 ppm it stores the nearer limit (R273). -/
def State.frcIncWrite (s : State) (v : Word) : State :=
  s.wr Reg.TIM_FRC_INC (wd (clampN 0x1FFE6 0x2001A (fld v 0 18)))

/-- DOM_ADJ as a signed 64-bit Δ. -/
def State.domAdj (s : State) (d : Nat) : Int :=
  sext 64 ((s.rd (Reg.DOM_ADJ_LO d)).toNat + (s.rd (Reg.DOM_ADJ_HI d)).toNat * 2 ^ 32)

/-- SLEW (R282, R283). -/
def State.domSlewCmd (s : State) (d : Nat) : State :=
  match (s.dom d).state with
  | 0 | 1 => s.domRefuse d
  | _ => s.domSlew d (s.domAdj d)

/-- SET_RATE (R283). -/
def State.domSetRateCmd (s : State) (d : Nat) : State :=
  let st := (s.dom d).state
  if !s.domGm d && !s.rb (Reg.DOM_CFG d) 2 && (st = 2 || st = 3 || st = 4) then s.domRefuse d
  else s.setRate d (sext 32 (s.rd (Reg.DOM_ADJ_LO d)).toNat)

/-- UNLOCK (Table 10-1). -/
def State.domUnlockCmd (s : State) (d : Nat) : State := if (s.dom d).state = 0 then s else s.domEnter d 1

/-- A write of DOM_CMD: each bit set performs its command, STEP first. -/
def State.domCmdWrite (s : State) (d : Nat) (v : Word) : State :=
  let s := if bit v 0 then s.domStepCmd d (s.domAdj d) else s
  let s := if bit v 1 then s.domSlewCmd d else s
  let s := if bit v 2 then s.domSetRateCmd d else s
  if bit v 3 then s.domUnlockCmd d else s

/-! ### The compatibility servo page (R293-R295) -/

/-- SRV_INT AND SRV_INT_EN drives TIM common INT_RAW[3]. -/
def State.srvInt (s : State) (i : Nat) : State :=
  let s := s.wr Reg.SRV_INT (s.rd Reg.SRV_INT ||| wd (2 ^ i))
  if s.rd Reg.SRV_INT &&& s.rd Reg.SRV_INT_EN = 0 then s else s.raise .tim 0 Irq.TIM_SRV_INT

/-- Round to the nearest integer, halves upward. -/
def roundDiv (n d : Int) : Int := (2 * n + d) / (2 * d)

/-- srv_update(off) of R293 and the page's registers of R295. [DEDUCED, log entry 52] -/
def State.srvUpdate (s : State) (off : Int) : State :=
  let d := s.rf Reg.TIM_CFG 0 2
  let drives := s.domCompat d
  let ups := (s.rf Reg.SRV_STAT 8 8 + 1) % 256
  let s := s.wf Reg.SRV_STAT 8 8 ups
  let thr : Int := ((s.rd Reg.SRV_STEP_THR).toNat : Nat)
  if s.rb Reg.SRV_CTRL 1 && decide (thr < absI off) then
    let before := s
    let s := if drives then s.domStepBy d off else s
    let refused := drives && match (before.dom d).state with
      | 2 | 4 => true
      | 3 => decide (before.jumpLimit d < absI off)
      | _ => false
    let s := if refused then s.raise .tim 0 Irq.TIM_COMPAT_REFUSED else s
    let s := (s.wr Reg.SRV_INTEG 0).wf Reg.SRV_STAT 0 1 1
    let s := if drives ∧ (before.dom d).state = 2 then s.lockJudge d off else s
    (s.srvInt 1).srvInt 0
  else
    let maxf : Int := (s.rf Reg.SRV_MAXFREQ 0 20 : Nat)
    let kp : Int := (s.rf Reg.SRV_KP 0 16 : Nat)
    let ki : Int := (s.rf Reg.SRV_KI 0 16 : Nat)
    let i0 := sext 32 (s.rd Reg.SRV_INTEG).toNat + (ki * off) / 65536
    let i := clampI (-maxf) maxf i0
    let f0 := (kp * off) / 65536 + i
    let f := clampI (-maxf) maxf f0
    let s := s.wr Reg.SRV_FREQ (wd (unsext 32 f))
    let s := s.wr Reg.SRV_INTEG (wd (unsext 32 i))
    let s := s.wf Reg.SRV_STAT 0 2 (b2n (i ≠ i0 ∨ f ≠ f0) * 2)
    let s := if drives ∧ !s.domGm d then s.setRate d (roundDiv (f * (2 ^ 32 : Int)) 1000000000) else s
    let s := if drives ∧ (s.dom d).state = 2 then s.lockJudge d off else s
    s.srvInt 0

/-- A write of SRV_OFFSET: with EN = 0 it runs nothing (R295). -/
def State.srvOffsetWrite (s : State) (v : Word) : State :=
  if s.rb Reg.SRV_CTRL 0 then s.srvUpdate (sext 32 v.toNat) else s

/-! ### HFRC trim (R292, R383) -/

/-- Move the HFRC trim code by `k` steps, counting a code that reaches an end. [DEDUCED, log entry 52] -/
def State.trimMove (s : State) (k : Int) : State :=
  let c := clampI 0 1023 ((s.rf Reg.CRU_HFRC_TRIM 0 10 : Nat) + k)
  let s := s.wf Reg.CRU_HFRC_TRIM 0 10 c.toNat
  if (c = 0 ∨ c = 1023) ∧ k ≠ 0 then
    ((s.evt Reg.CRU_TRIM_LIMIT).raise .cru 0 Irq.CRU_TRIM_LIMIT).logEvt .cru 0 Irq.CRU_TRIM_LIMIT 1000000000 false (toBE 2 c.toNat)
  else s

/-- The FRC counts: the MGS domain is on, and XIN_A or, once it is lost, the HFRC clocks it (R272, R380, R381). -/
def State.frcRuns (s : State) : Bool := s.pwr.mgsOn && (s.rb Reg.CRU_CLK_STAT 0 || s.rb Reg.CRU_CLK_STAT 8)

/-- One FRC tick, while it counts: TIM_FRC_INC is added (R272). [DESIGN CHOICE, log entry 12] -/
def State.frcTick (s : State) : State :=
  if !s.frcRuns then s
  else
    let f := s.frc16 + (s.rd Reg.TIM_FRC_INC).toNat
    { s with frcNs := BitVec.ofNat 64 (f / 65536), frcFrac := BitVec.ofNat 16 f }

end Sys2Proof.Machine
end

