-- ==== Sys2Proof/Machine/Port.lean ====
section
/-! DEFINITION. What the rest of the frame path reads of a fabric port: its kind, its link, its rate, preemption and pause
(R194-R197, R474), and the fields of an SRT entry (Table 3-6). -/

namespace Sys2Proof.Machine

/-- A port's link state. -/
def State.eport (s : State) (p : Nat) : Ept := Tab.get (fun _ => Ept.reset) s.ept p

/-- Replace a port's link state. -/
def State.setEport (s : State) (p : Nat) (e : Ept) : State := { s with ept := Tab.set (fun _ => Ept.reset) s.ept p e }

/-- The port carries DMA rings, as HIF_CFG.DMA_PORT selects (R23). -/
def State.dmaPort (s : State) (p : Nat) : Bool :=
  (decide (p = 20) && decide (s.rf Reg.HIF_CFG 0 2 = 1)) || (decide (p = 21) && decide (s.rf Reg.HIF_CFG 0 2 = 2))

/-- The rate EPT_CFG.RATE configures, in kbit/s (Table 7-1). -/
def State.cfgRate (s : State) (p : Nat) : Nat :=
  let r := s.rf (Reg.EPT_CFG p) 0 2
  if p < 8 then (if r = 0 then 2500000 else if r = 1 then 5000000 else 10000000)
  else if p < 16 then (if r = 0 then 100000 else 1000000)
  else if p < 20 then 10000
  else if p < 22 then (if r = 0 then 2500000 else if r = 1 then 10000000 else 25000000)
  else 25000000

/-- A port carrying DMA rings counts as up (R197). -/
def State.dmaUp (s : State) : Bool := s.rb Reg.HIF_STAT 0 && s.rb Reg.HIF_STAT 7

/-- The port's copies enter ring FIFOs: one that carries DMA rings, or port 23, whose rings lie in cluster memory (R197, R444). -/
def State.ringed (s : State) (p : Nat) : Bool := s.dmaPort p || decide (p = 23)

/-- The port counts as up (R195, R197, R474). -/
def State.portUp (s : State) (p : Nat) : Bool :=
  decide (23 ≤ p) || (if s.dmaPort p then s.dmaUp else decide ((s.eport p).link = 3))

/-- The rate of a port while up, in kbit/s: the one configured, 25 Gb/s with DMA rings, or an internal port's (R196, R474). -/
def State.upRate (s : State) (p : Nat) : Nat :=
  if p = 25 then 1000000 else if 23 ≤ p then 10000000 else if s.dmaPort p then 25000000 else s.cfgRate p

/-- EGS_PORT_RATE: 0 while down. -/
def State.portRate (s : State) (p : Nat) : Nat := if s.portUp p then s.upRate p else 0

/-- EGS_PORT_STAT.PREEMPT_ACTIVE. -/
def State.preemptActive (s : State) (p : Nat) : Bool := s.rb (Reg.EGS_PORT_STAT p) 4

/-- EGS_PORT_STAT.PAUSED. -/
def State.paused (s : State) (p : Nat) : Bool := s.rb (Reg.EGS_PORT_STAT p) 0

/-- BSN_CFG.MAX_LEN. -/
def State.maxLen (s : State) : Nat := s.rf Reg.BSN_CFG 0 14

/-- Class settings of a port. -/
def State.tcShaped (s : State) (p k : Nat) : Bool := s.rb (Reg.EGS_TC_CFG p k) 0
def State.tcDrr (s : State) (p k : Nat) : Bool := s.rb (Reg.EGS_TC_CFG p k) 1
def State.tcRsv (s : State) (p k : Nat) : Bool := s.rb (Reg.EGS_TC_CFG p k) 2
def State.tcPre (s : State) (p k : Nat) : Bool := s.rb (Reg.EGS_TC_CFG p k) 3
def State.tcQuantum (s : State) (p k : Nat) : Nat := s.rf (Reg.EGS_TC_CFG p k) 16 16

/-- The least fragment: 64 × (ADD_FRAG + 1). -/
def State.minFrag (s : State) (p : Nat) : Nat := 64 * (s.rf (Reg.EGS_PORT_CFG p) 2 2 + 1)

/-- Transmission time in ns of `n` bytes at a rate in kbit/s, rounded up. -/
def txTime (n rate : Nat) : Nat := if rate = 0 then 0 else (n * 8 * 1000000 + rate - 1) / rate

/-- An egress port's scheduler state. -/
def State.eg (s : State) (p : Nat) : Egr := Tab.get (fun _ => Egr.reset) s.egr p

/-- Replace an egress port's scheduler state. -/
def State.setEg (s : State) (p : Nat) (e : Egr) : State := { s with egr := Tab.set (fun _ => Egr.reset) s.egr p e }

/-- A Basin queue: (frame, copy index) in link order. -/
def State.queue (s : State) (q : Nat) : List (Nat × Nat) := Tab.get (fun _ => []) s.bsn.queues q

/-- Replace a Basin queue. -/
def State.setQueue (s : State) (q : Nat) (l : List (Nat × Nat)) : State :=
  { s with bsn := { s.bsn with queues := Tab.set (fun _ => []) s.bsn.queues q l } }

/-- A class served by its shaper: SHAPED without DRR (R139). -/
def State.shaped (s : State) (p k : Nat) : Bool := s.tcShaped p k && !s.tcDrr p k

/-! ### SRT entries (Table 3-6) -/

def srtValid (e : BitVec 512) : Bool := bit e 0
def srtOwner (e : BitVec 512) : Nat := fld e 1 6
def srtDest (e : BitVec 512) : Nat := fld e 7 58
def srtTc (e : BitVec 512) : Nat := fld e 65 3
def srtMeter (e : BitVec 512) : Option Nat := if bit e 68 then some (fld e 69 12) else none
def srtFrer (e : BitVec 512) : Option Nat := if bit e 81 then some (fld e 82 8) else none
def srtView (e : BitVec 512) : Option Nat := if bit e 90 then some (fld e 91 6) else none
def srtPdu (e : BitVec 512) : Option Nat := if bit e 97 then some (fld e 98 13) else none
def srtCt (e : BitVec 512) : Bool := bit e 111
def srtAuth (e : BitVec 512) : Bool := bit e 112
def srtSelf (e : BitVec 512) : Bool := bit e 113
def srtMinInt (e : BitVec 512) : Nat := fld e 114 8

/-- The SRT entry of a handle. -/
def State.srt (s : State) (h : Nat) : BitVec 512 := s.tent 0 h

/-- A re-check of port p is due (R160): it waits for its turn in the Budget Engine. -/
def State.budDue (s : State) (p : Nat) : State :=
  if s.rb Reg.BUD_CFG 0 && s.bud.resv.any (fun (_, r) => decide (r.state ≠ 0) && decide (r.port = p)) && !s.bud.work.contains (.recheck p) then
    { s with bud := { s.bud with work := s.bud.work ++ [.recheck p] } }
  else s

end Sys2Proof.Machine
end

