-- ==== Sys2Proof/Machine/Parse.lean ====
section
/-! DEFINITION. Parsing of Ethernet frames by the Intake classifier (R59, R60, R177). -/

namespace Sys2Proof.Machine

/-- The AVTP fields of Table 3-1. -/
structure AvtpFields where
  subtype : Nat
  sv : Bool
  streamId : Option Nat
  seqNum : Nat
  tv : Bool
  timestamp : Option Nat
deriving DecidableEq, Repr

/-- The IP fields of Table 3-1: the version, the length of its header (IHL of an IPv4 header, in bytes), the protocol or next header, the
source and destination address. -/
structure IpFields where
  version : Nat
  header : Nat
  proto : Nat
  src : Option Nat
  dst : Option Nat
deriving DecidableEq, Repr

/-- What the ICL takes from a frame: addresses, the outer tag (PCP, DEI, VID), the number of VLAN tags, the sequence number of an
R-TAG after them, the EtherType after tags and R-TAG, and where the bytes after it begin; the inner tag, IP, the UDP or TCP ports, AVTP,
and gPTP's messageType and domainNumber (Table 3-1). A field that is absent is none. -/
structure Parsed where
  dmac : Nat
  smac : Nat
  tag : Option (Nat × Bool × Nat)
  tags : Nat
  rtag : Option Nat
  etype : Nat
  off : Nat
  inner : Option (Nat × Bool × Nat)
  ip : Option IpFields
  ports : Option (Nat × Nat)
  avtp : Option AvtpFields
  gptp : Option (Nat × Nat)
deriving DecidableEq, Repr

/-- A VLAN TPID. -/
def isTpid (t : Nat) : Bool := decide (t = 0x8100) || decide (t = 0x88A8)

/-- A field of the parse window: absent unless it lies wholly within the first 64 bytes, and within the frame (R59). -/
def winAt (b : List Byte) (off len : Nat) : Option Nat := if off + len ≤ 64 ∧ off + len ≤ b.length then some (beAt b off len) else none

/-- PCP, DEI and VID of a tag's TCI. -/
def tciOf (v : Nat) : Nat × Bool × Nat := (fldN v 13 3, v.testBit 12, fldN v 0 12)

/-- The IP fields of a frame whose bytes after the EtherType begin at `o`. [PRESUMED, log entry 26] -/
def parseIp (b : List Byte) (etype o : Nat) : Option IpFields :=
  if etype = 0x0800 then
    (winAt b (o + 9) 1).map fun p => ⟨4, beAt b o 1 % 16 * 4, p, winAt b (o + 12) 4, winAt b (o + 16) 4⟩
  else if etype = 0x86DD then (winAt b (o + 6) 1).map fun p => ⟨6, 40, p, winAt b (o + 8) 16, winAt b (o + 24) 16⟩
  else none

/-- The UDP or TCP ports, when they lie within the window. [PRESUMED, log entry 26] -/
def parsePorts (b : List Byte) (o : Nat) (ip : Option IpFields) : Option (Nat × Nat) :=
  match ip with
  | some x => if x.proto = 17 ∨ x.proto = 6 then (winAt b (o + x.header) 4).map fun v => (v / 65536, v % 65536) else none
  | none => none

/-- The AVTP fields of IEEE 1722 at `o`. [PRESUMED, log entry 26] -/
def parseAvtp (b : List Byte) (etype o : Nat) : Option AvtpFields :=
  if etype ≠ 0x22F0 then none
  else
    (winAt b o 4).map fun v =>
      ⟨fldN v 24 8, v.testBit 23, if v.testBit 23 then winAt b (o + 4) 8 else none, fldN v 8 8, v.testBit 16,
       if v.testBit 16 then winAt b (o + 12) 4 else none⟩

/-- gPTP's messageType and domainNumber at `o`. [PRESUMED, log entry 26] -/
def parseGptp (b : List Byte) (etype o : Nat) : Option (Nat × Nat) :=
  if etype ≠ 0x88F7 then none else (winAt b o 5).map fun v => (fldN v 32 4, fldN v 0 8)

/-- Parse a frame. [PRESUMED, log entry 26] -/
def parse (b : List Byte) : Parsed :=
  let n := if isTpid (beAt b 12 2) then (if isTpid (beAt b 16 2) then 2 else 1) else 0
  let tag := if n = 0 then none else some (tciOf (beAt b 14 2))
  let e := 12 + 4 * n
  let r := decide (beAt b e 2 = 0xF1C1)
  let etype := if r then beAt b (e + 6) 2 else beAt b e 2
  let o := if r then e + 8 else e + 2
  let ip := parseIp b etype o
  ⟨beAt b 0 6, beAt b 6 6, tag, n, if r then some (beAt b (e + 4) 2) else none, etype, o,
   if n = 2 then some (tciOf (beAt b 18 2)) else none, ip, parsePorts b o ip, parseAvtp b etype o, parseGptp b etype o⟩

/-- A group address. -/
def isGroup (mac : Nat) : Bool := mac.testBit 40

/-- The VID of a frame on an ingress port (R60). -/
def State.vidOf (s : State) (p : Nat) (x : Parsed) : Nat :=
  match x.tag with
  | some (_, _, v) => if v = 0 then s.rf (Reg.ICL_PORT_CFG p) 0 12 else v
  | none => s.rf (Reg.ICL_PORT_CFG p) 0 12

/-- The PCP of a frame on an ingress port (R60). -/
def State.pcpOf (s : State) (p : Nat) (x : Parsed) : Nat :=
  match x.tag with
  | some (c, _, _) => c
  | none => s.rf (Reg.ICL_PORT_CFG p) 12 3

/-- DEI of the outer tag. -/
def Parsed.dei (x : Parsed) : Bool := match x.tag with | some (_, d, _) => d | none => false

/-- The selector of a frame of EtherType 0x88B5. -/
def Parsed.selector (x : Parsed) (b : List Byte) : Option Nat := if x.etype = 0x88B5 then winAt b x.off 1 else none

/-- The frame with DEI of its outer tag set; an untagged frame is never marked (R134). -/
def markDei (b : List Byte) : List Byte :=
  if isTpid (beAt b 12 2) then b.take 14 ++ [(b.getD 14 0) ||| 0x10] ++ b.drop 15 else b

/-- The frame without its R-TAG. [PRESUMED, log entry 33] -/
def dropRtag (b : List Byte) : List Byte :=
  let x := parse b
  match x.rtag with
  | some _ => b.take (12 + 4 * x.tags) ++ b.drop (18 + 4 * x.tags)
  | none => b

/-- The frame with an R-TAG of sequence number `n`: one it carries keeps its position and takes the number (R178). [PRESUMED, log entry 33] -/
def putRtag (n : Nat) (b : List Byte) : List Byte :=
  let e := 12 + 4 * (parse b).tags
  match (parse b).rtag with
  | some _ => b.take (e + 4) ++ toBE 2 n ++ b.drop (e + 6)
  | none => b.take e ++ toBE 2 0xF1C1 ++ toBE 2 0 ++ toBE 2 n ++ b.drop e

end Sys2Proof.Machine
end

