-- ==== Sys2Proof/Machine/Vlt.lean ====
section
/-! DEFINITION. The Austauth Vault: key cells, the check of a use, orphaning, envelopes, attestation, zeroisation and the
operations of its mailbox (chapter 11), with the key side of line authentication (R312). -/

namespace Sys2Proof.Machine

/-- A string's bytes. -/
def ascii (t : String) : List Byte := t.toList.map (fun c => BitVec.ofNat 8 c.toNat)

/-- SHAKE256 with `n` bytes of output. [DESIGN CHOICE, log entry 4] -/
def shake (msg : List Byte) (n : Nat) : List Byte := fit n (Config.shake256 msg n)

/-- Draw `n` bytes of the TRNG. [DESIGN CHOICE, log entry 4] -/
def State.trng (s : State) (n : Nat) : List Byte × State :=
  (fit n (Config.trng s.vlt.draws n), { s with vlt := { s.vlt with draws := s.vlt.draws + 1 } })

/-! Result codes of Table 11-18. -/
namespace VCode
abbrev tamperAbort : Nat := 0x80
abbrev locked : Nat := 0x81
abbrev zeroised : Nat := 0x82
abbrev badState : Nat := 0x83
abbrev usage : Nat := 0x84
abbrev kcvMismatch : Nat := 0x85
abbrev sigInvalid : Nat := 0x86
abbrev authInvalid : Nat := 0x87
abbrev exhausted : Nat := 0x88
abbrev genExhausted : Nat := 0x89
abbrev orphanRefused : Nat := 0x8A
abbrev parentState : Nat := 0x8B
abbrev fixedSlot : Nat := 0x8C
abbrev claimed : Nat := 0x8D
abbrev tagFail : Nat := 0x8E
end VCode

/-! Operations of the queue that no VLT_CMD asks for: a PROOF's verification and a VERDICT's signature of port `m`, AUTHORISE of master
`m`'s MGS mailbox, and of the Unbor monitor. -/
namespace VOp
abbrev proof : Nat := 0x100
abbrev verdict : Nat := 0x101
abbrev mail : Nat := 0x102
abbrev monitor : Nat := 0x103
end VOp

/-! ### Cells and slots (Tables 11-1 and 11-6) -/

/-- Fields of an attribute word. -/
def Cell.alg (c : Cell) : Nat := fld c.attr 8 4
def Cell.state (c : Cell) : Nat := fld c.attr 12 3
def Cell.strict (c : Cell) : Bool := bit c.attr 15
def Cell.gen (c : Cell) : Nat := fld c.attr 32 16
/-- The cell with another STATE. -/
def Cell.withState (c : Cell) (n : Nat) : Cell := { c with attr := setFld c.attr 12 3 n }

/-- A general key slot. -/
def State.kslot (s : State) (i : Nat) : KeySlot := Tab.get (fun _ => KeySlot.reset) s.vlt.slots i

/-- Replace a general key slot. -/
def State.setKslot (s : State) (i : Nat) (k : KeySlot) : State :=
  { s with vlt := { s.vlt with slots := Tab.set (fun _ => KeySlot.reset) s.vlt.slots i k } }

/-- An attribute word from usage, ALG, STATE, MASTERS, ORIGIN 3 and GEN 1. [DEDUCED, log entry 53] -/
def fixedAttr (usage alg masters : Nat) : BitVec 64 :=
  BitVec.ofNat 64 (usage + alg * 0x100 + 0x1000 + masters * 2 ^ 25 + 3 * 2 ^ 30 + 2 ^ 32)

/-- The main cell of a slot: slots 0-3 hold the DIK, the DTK, the owner key and Tarnu's firmware key (Table 11-1), slots 4-7 are
EMPTY. -/
def State.mainCell (s : State) (i : Nat) : Cell :=
  match i with
  | 0 => match s.vlt.ident with | some (d, _, _, _) => ⟨fixedAttr 1 3 8, d⟩ | none => Cell.empty
  | 1 => match s.vlt.ident with | some (_, _, t, _) => ⟨fixedAttr 0 5 0, t⟩ | none => Cell.empty
  | 2 => if s.vlt.claimed then ⟨fixedAttr 2 4 0x1F, s.vlt.ownerKey⟩ else Cell.empty
  | 3 => ⟨fixedAttr 2 4 0x1F, fit 57 Config.tarnuKey⟩
  | i => if i < 8 then Cell.empty else (s.kslot i).main

/-- The public key of a cell, empty for a symmetric key. -/
def Cell.pub (c : Cell) : List Byte :=
  match c.alg with
  | 3 => fit 57 (Config.ed448Pub c.mat)
  | 4 => c.mat
  | 5 => fit 56 (Config.x448Pub c.mat)
  | _ => []

/-- KCV of R308, its byte 0 in [7:0]. -/
def Cell.kcv (c : Cell) : Word :=
  let m := if c.pub = [] then c.mat else c.pub
  wd (ofLE (shake (ascii "AUV-KCV" ++ toBE 1 c.alg ++ toBE 2 c.gen ++ m) 4))

/-- DIK public key. -/
def State.dikPub (s : State) : List Byte := match s.vlt.ident with | some (_, p, _, _) => p | none => List.replicate 57 0
/-- DTK public key. -/
def State.dtkPub (s : State) : List Byte := match s.vlt.ident with | some (_, _, _, p) => p | none => List.replicate 56 0

/-- A security record of the Vault's page (R325): `i` its INT_RAW bit; 30 and 31, which no bit of the page has, for an accepted envelope and
a COMMIT. [DESIGN CHOICE, log entry 94] -/
def State.vltLog (s : State) (i : Nat) (payload : List Byte) : State := s.logEvt .vlt 0 i 0 true payload

/-- The Vault is OPEN. -/
def State.vltOpen (s : State) : Bool := decide (s.vlt.vstate = 1)

/-- Sign with slot 0 under a context: the Vault's own signatures (R299); all 0 while the Vault is not OPEN. -/
def State.dikSign (s : State) (ctx : String) (msg : List Byte) : List Byte :=
  match s.vlt.ident with
  | some (d, _, _, _) => if s.vltOpen then fit 114 (Config.ed448Sign d (ascii ctx) msg) else List.replicate 114 0
  | none => List.replicate 114 0

/-- The code for a Vault that is not OPEN. -/
def State.closedCode (s : State) : Nat := if s.vlt.vstate = 3 then VCode.zeroised else VCode.locked

/-- Who uses a key: a master, or an engine by its ENG bit (R306). -/
inductive KeyUser where
  | master (m : Nat)
  | engine (bit : Nat)
deriving DecidableEq, Repr

/-- The refusal code of a use of a cell under R306, none when the use is performed. -/
def State.keyRefusal (s : State) (c : Cell) (usage : Nat) (who : KeyUser) (algs : List Nat) : Option Nat :=
  if !s.vltOpen && !(c.alg = 4 && usage = 1) then some s.closedCode
  else if !(c.state = 1 || (c.state = 3 && !c.strict)) then
    some (if c.state = 3 then VCode.orphanRefused else if c.state = 5 then VCode.exhausted else VCode.badState)
  else if !bit c.attr usage then some VCode.usage
  else if !(match who with | .master m => bit c.attr (25 + m) | .engine b => bit c.attr b) then some Code.denied
  else if !algs.contains c.alg then some VCode.usage
  else none

/-- A use refused under R306 counts in VLT_REFUSED. -/
def State.countRefused (s : State) : State := s.evt Reg.VLT_REFUSED

/-! ### Engine copies (R312, R330, R339) -/

/-- A secure association. -/
def State.sa (s : State) (n : Nat) : Sa := Tab.get (fun _ => Sa.free) s.auth.sas n
/-- Replace a secure association. -/
def State.setSa (s : State) (n : Nat) (v : Sa) : State :=
  { s with auth := { s.auth with sas := Tab.set (fun _ => Sa.free) s.auth.sas n v } }
/-- A CAU entry. -/
def State.cauEnt (s : State) (n : Nat) : CauEnt := Tab.get (fun _ => CauEnt.free) s.auth.cau n
/-- Replace a CAU entry. -/
def State.setCau (s : State) (n : Nat) (v : CauEnt) : State :=
  { s with auth := { s.auth with cau := Tab.set (fun _ => CauEnt.free) s.auth.cau n v } }

/-- The key slot a CAU entry names. -/
def CauEnt.slot (e : CauEnt) : Nat := fld e.w0 24 8
def CauEnt.chan (e : CauEnt) : Nat := fld e.w0 1 5
def CauEnt.fmt (e : CauEnt) : Nat := fld e.w0 7 2
def CauEnt.id (e : CauEnt) : Nat := if e.fmt = 2 then fld e.w1 0 11 else fld e.w1 0 29

/-- What an event log record names of CAU entry n (R346): the entry, its channel and identifier. [DEDUCED, log entry 57] -/
def CauEnt.name (e : CauEnt) (n : Nat) : List Byte := toBE 2 n ++ toBE 1 e.chan ++ toBE 4 e.id

/-- An event of CAU entry n: raised, and logged at most once a second for the entry (R346). -/
def State.cauEvent (s : State) (n i : Nat) : State := (s.raise .cau 0 i).logEvt .cau 0 i 1000000000 false ((s.cauEnt n).name n) n

/-- The Vault refuses the key of a CAU entry: ENG_CAU, MAC usage, AES-128 or AES-256 (R339). -/
def State.cauRefused (s : State) (e : CauEnt) : Bool :=
  (s.keyRefusal (s.mainCell e.slot) 3 (.engine 49) [1, 2]).isSome

/-- Bring the LIVE bindings of the CAU into line with what the Vault would allow now: loaded or unloaded (R312, R345). [DEDUCED, log entry 57] -/
def State.liveRefresh (s : State) : State :=
  (s.auth.cau.map Prod.fst).foldl (fun s n =>
    let e := s.cauEnt n
    if e.state = 1 ∧ s.cauRefused e then
      (s.setCau n { e with state := 2 }).cauEvent n Irq.CAU_NOKEY
    else if e.state = 2 ∧ !s.cauRefused e then s.setCau n { e with state := 1 }
    else s) s

/-- Purge the SNAPSHOT copies taken from a slot (R312): an ACTIVE SA is PURGED, an EXHAUSTED one loses its copy. [DEDUCED, log entry 57] -/
def State.purgeSnap (s : State) (p : Nat → Bool) : State :=
  (s.auth.sas.map Prod.fst).foldl (fun s n =>
    let a := s.sa n
    match a.key with
    | some k =>
      if !p k.slot then s
      else if a.state = 2 then
        ((s.setSa n { a with state := 4, key := none }).raise .lce a.port Irq.LCE_PURGED).logEvt .lce a.port Irq.LCE_PURGED 1000000000 false
          (toBE 1 a.port ++ toBE 2 n) n
      else s.setSa n { a with key := none }
    | none => s) s

/-! ### Orphaning (R310) -/

/-- The slots whose main cell names `p` as parent. -/
def State.children (s : State) (p : Nat) : List Nat :=
  (s.vlt.slots.map Prod.fst).filter (fun i =>
    let c := (s.kslot i).main
    bit c.attr 24 && decide (fld c.attr 16 8 = p) && decide (c.state = 1))

/-- Orphan the children of a slot; a STRICT child orphans its own children and its copies are purged. -/
def State.orphan : Nat → State → Nat → State
  | 0, s, _ => s
  | n + 1, s, p =>
    (s.children p).foldl (fun s i =>
      let k := s.kslot i
      let strict := k.main.strict
      let g : Option Nat := if strict then none else some (s.now + s.rf Reg.VLT_CFG 0 6 * 1000000000)
      let s := s.setKslot i { k with main := k.main.withState 3, grace := g }
      let s := ((s.evt Reg.VLT_ORPHANED).raise .vlt 0 Irq.VLT_ORPHAN).logEvt .vlt 0 Irq.VLT_ORPHAN 1000000000 true (toBE 1 i) i
      if strict then ((State.orphan n s i).purgeSnap (fun x => x = i)) else s) s

/-- Orphan the children of a slot. -/
def State.orphanOf (s : State) (p : Nat) : State := State.orphan 256 s p

/-! ### The counter writer's ring (R317, R318) -/

/-- The values of a slot's nonce counter are reserved in blocks before they are used (R317, R318). [DEDUCED, log entry 58] -/
def nonceBlock : Nat := 0x10000

/-- The bytes of a record before its CRC (R318). -/
def ctrBytes (kind index value : Nat) : List Byte := toBE 1 kind ++ [0] ++ toBE 2 index ++ toBE 8 value

/-- A record of the counter writer, its CRC-32C over bytes 0-11 with it (R318). [DEDUCED, log entry 58] -/
def ctrRec (kind index value : Nat) : CtrRec := ⟨kind, index, value, crc32c 0xFFFFFFFF (ctrBytes kind index value)⟩

/-- A record's CRC checks. [DEDUCED, log entry 58] -/
def CtrRec.ok (r : CtrRec) : Bool := decide (r.crc = crc32c 0xFFFFFFFF (ctrBytes r.kind r.index r.value))

/-- The value of the newest record of a kind and index in the counter writer's ring whose CRC checks (R318). -/
def State.ringLast (s : State) (kind i : Nat) : Option Nat :=
  (s.vlt.ring.reverse.find? (fun r => decide (r.kind = kind) && decide (r.index = i) && r.ok)).map (fun r => r.value)

/-- Append a record to the counter writer's ring of 3,072 records (R318). [DEDUCED, log entry 58] -/
def State.ringAppend (s : State) (r : CtrRec) : State :=
  { s with vlt := { s.vlt with ring := (s.vlt.ring ++ [r]).drop (s.vlt.ring.length + 1 - 3072) } }

/-! ### Creation, commit, revocation (R307-R309) -/

/-- Refuse a command that needs an OPEN Vault or a general slot. -/
def State.createGuard (s : State) (i : Nat) : Option Nat :=
  if i < 8 then some VCode.fixedSlot else if !s.vltOpen then some s.closedCode else none

/-- The attribute word of a new companion: fields of the command, STATE PENDING, ORIGIN, GEN, PARENT (R305). -/
def newAttr (cmd : BitVec 64) (origin gen : Nat) (parent : Option Nat) : BitVec 64 :=
  let a := BitVec.ofNat 64 (fld cmd 0 6 + fld cmd 8 4 * 0x100 + fld cmd 15 1 * 0x8000 + fld cmd 25 5 * 2 ^ 25 + fld cmd 48 4 * 2 ^ 48)
  let a := setFld (setFld (setFld a 12 3 2) 30 2 origin) 32 16 gen
  match parent with
  | some p => setFld (setFld a 16 8 p) 24 1 1
  | none => a

/-- Write the companion of a slot and answer its KCV and GEN. -/
def State.create (s : State) (i : Nat) (cmd : BitVec 64) (origin : Nat) (parent : Option Nat) (mat : List Byte) : Result × State :=
  let k := s.kslot i
  let gen := k.lastGen + 1
  let c : Cell := ⟨newAttr cmd origin gen parent, mat⟩
  (dataRes Code.ok [c.kcv, wd gen], s.setKslot i { k with comp := c, lastGen := gen })

/-- GENERATE (R308). -/
def State.vGenerate (s : State) (i : Nat) (cmd : BitVec 64) : Result × State :=
  match s.createGuard i with
  | some c => (codeRes c, s)
  | none =>
    let len := match fld cmd 8 4 with | 1 => 16 | 2 => 32 | 3 => 57 | 5 => 56 | 6 => 64 | _ => 0
    if len = 0 then (codeRes Code.badArg, s)
    else if 65535 ≤ (s.kslot i).lastGen then (codeRes VCode.genExhausted, s)
    else
      let (r, s) := s.trng len
      s.create i cmd 0 none r

/-- DERIVE (R310) by master m, whose MASTERS bit the parent must have (R306). [DEDUCED, log entry 53] -/
def State.vDerive (s : State) (m i p : Nat) (cmd : BitVec 64) (label ctx : List Byte) : Result × State :=
  match s.createGuard i with
  | some c => (codeRes c, s)
  | none =>
    let len := match fld cmd 8 4 with | 1 => 16 | 2 => 32 | 6 => 64 | _ => 0
    if len = 0 ∨ label.length = 0 ∨ 64 < label.length ∨ 1024 < ctx.length then (codeRes Code.badArg, s)
    else
      let P := s.mainCell p
      if P.state ≠ 1 ∨ !bit P.attr 2 then (codeRes VCode.parentState, s)
      else if !bit P.attr (25 + m) then (codeRes Code.denied, s.evt Reg.VLT_REFUSED)
      else if 65535 ≤ (s.kslot i).lastGen then (codeRes VCode.genExhausted, s)
      else
        let mat := shake (ascii "AUV-KDF" ++ fit 64 P.mat ++ toBE 1 label.length ++ label ++ toBE 2 ctx.length ++ ctx ++
          toBE 2 ((s.kslot i).lastGen + 1) ++ toBE 2 P.gen) len
        s.create i cmd 1 (some p) mat

/-- COMMIT (R309). [DESIGN CHOICE, log entry 94] -/
def State.vCommit (s : State) (i : Nat) (kcv : Word) : Result × State :=
  match s.createGuard i with
  | some c => (codeRes c, s)
  | none =>
    let k := s.kslot i
    if k.comp.state ≠ 2 then (codeRes VCode.badState, s)
    else if k.comp.kcv ≠ kcv then (codeRes VCode.kcvMismatch, s.evt Reg.VLT_KCV_FAIL)
    else
      let s := s.orphanOf i
      let k := s.kslot i
      let c := k.comp.withState 1
      let s := s.setKslot i { k with main := c, comp := Cell.empty, nonce := 0, rsvEnd := 0, grace := none }
      let s := if k.rsvEnd = 0 then s else s.ringAppend (ctrRec 5 i 0)
      let s := if s.rf Reg.VLT_WARN 0 16 ≤ c.gen then
          (s.raise .vlt 0 Irq.VLT_WARN).logEvt .vlt 0 Irq.VLT_WARN 1000000000 true (toBE 1 i) i else s
      let s := s.vltLog 31 (toBE 1 i ++ toBE 2 c.gen)
      (dataRes Code.ok [0, wd c.gen], s.liveRefresh)

/-- DISCARD: a PENDING slot, whose main cell is EMPTY, loses its companion (Table 11-7). -/
def State.vDiscard (s : State) (i : Nat) : Result × State :=
  let k := s.kslot i
  if i < 8 then (codeRes VCode.fixedSlot, s)
  else if k.main.state ≠ 0 ∨ k.comp.state ≠ 2 then (codeRes VCode.badState, s)
  else (codeRes Code.ok, s.setKslot i { k with comp := Cell.empty })

/-- REVOKE: orphan the children, purge the engine copies, empty the companion (Table 11-7). -/
def State.vRevoke (s : State) (i : Nat) : Result × State :=
  match s.createGuard i with
  | some c => (codeRes c, s)
  | none =>
    let k := s.kslot i
    if k.main.state ≠ 1 ∧ k.main.state ≠ 3 then (codeRes VCode.badState, s)
    else
      let n := (s.children i).length
      let s := s.orphanOf i
      let k := s.kslot i
      let s := s.setKslot i { k with main := k.main.withState 4, comp := Cell.empty, grace := none }
      (dataRes Code.ok [wd n], (s.purgeSnap (fun x => x = i)).liveRefresh)

/-- DELETE: a REVOKED or EXHAUSTED slot becomes EMPTY; its GEN is kept (Table 11-7). -/
def State.vDelete (s : State) (i : Nat) : Result × State :=
  if i < 8 then (codeRes VCode.fixedSlot, s)
  else
    let k := s.kslot i
    if k.main.state = 4 ∨ k.main.state = 5 then
      (codeRes Code.ok, s.setKslot i { KeySlot.reset with lastGen := k.lastGen })
    else (codeRes VCode.badState, s)

/-- A numbered slot emptied, its GEN kept. -/
def KeySlot.wipe (p : Nat × KeySlot) : Nat × KeySlot := (p.1, { KeySlot.reset with lastGen := p.2.lastGen })

/-- A numbered slot without its companion. -/
def KeySlot.dropComp (p : Nat × KeySlot) : Nat × KeySlot := (p.1, { p.2 with comp := Cell.empty })

/-- Empty every general slot, keeping each GEN; the SNAPSHOT copies run on (R312). -/
def State.wipeSlots (s : State) : State :=
  ({ s with vlt := { s.vlt with slots := s.vlt.slots.map KeySlot.wipe } } : State).liveRefresh

/-! ### Uses of a key (R306, R315, R316) -/

/-- Run `k` if the use is allowed, else answer the refusal and count it. -/
def State.useKey (s : State) (i usage : Nat) (m : Nat) (algs : List Nat) (k : Cell → State → Result × State) : Result × State :=
  match s.keyRefusal (s.mainCell i) usage (.master m) algs with
  | some c => (codeRes c, s.countRefused)
  | none => k (s.mainCell i) s

/-- A result that is bytes in RES_BUF. -/
def bufRes (b : List Byte) : Result := { Result.empty with code := Code.ok, len := b.length, buf := b }

/-- The context is one of the Vault's own (R299). -/
def reservedCtx (c : List Byte) : Bool := c.take 4 = ascii "HAX-" || c.take 4 = ascii "AUV-"

/-- SIGN. -/
def State.vSign (s : State) (m i ctxLen : Nat) (buf : List Byte) : Result × State :=
  if buf.length < ctxLen then (codeRes Code.badArg, s)
  else if reservedCtx (buf.take ctxLen) then (codeRes VCode.usage, s)
  else s.useKey i 0 m [3] fun c s => (bufRes (fit 114 (Config.ed448Sign c.mat (buf.take ctxLen) (buf.drop ctxLen))), s)

/-- OK or SIG_INVALID. -/
def sigRes (ok : Bool) : Result := codeRes (if ok then Code.ok else VCode.sigInvalid)

/-- VERIFY: slot 0xFF takes the key from BUF. -/
def State.vVerify (s : State) (m i ctxLen : Nat) (buf : List Byte) : Result × State :=
  let check := fun (key b : List Byte) =>
    sigRes (Config.ed448Verify key ((b.drop 114).take ctxLen) (b.drop (114 + ctxLen)) (b.take 114))
  if i = 0xFF then
    if buf.length < 171 + ctxLen then (codeRes Code.badArg, s) else (check (buf.take 57) (buf.drop 57), s)
  else if buf.length < 114 + ctxLen then (codeRes Code.badArg, s)
  else s.useKey i 1 m [3, 4] fun c s => (check c.pub buf, s)

/-- HASH. -/
def State.vHash (s : State) (n : Nat) (buf : List Byte) : Result × State :=
  if n = 0 ∨ 512 < n then (codeRes Code.badArg, s) else (bufRes (shake buf n), s)

/-- MAC: GMAC (IV first) or CMAC. -/
def State.vMac (s : State) (m i : Nat) (cmac : Bool) (buf : List Byte) : Result × State :=
  if !cmac && decide (buf.length < 12) then (codeRes Code.badArg, s)
  else s.useKey i 3 m [1, 2] fun c s =>
    (bufRes (fit 16 (if cmac then Config.aesCmac c.mat buf else Config.aesGcmTag c.mat (buf.take 12) (buf.drop 12) [])), s)

/-- ENCRYPT under the slot's nonce counter (R316, R317). -/
def State.vEncrypt (s : State) (m i aadLen : Nat) (buf : List Byte) : Result × State :=
  if buf.length < aadLen ∨ 484 + aadLen < buf.length then (codeRes Code.badArg, s)
  else s.useKey i 4 m [1, 2] fun c s =>
    let k := s.kslot i
    let s := if k.rsvEnd ≤ k.nonce then s.ringAppend (ctrRec 5 i (k.rsvEnd + nonceBlock)) else s
    let rsv := if k.rsvEnd ≤ k.nonce then k.rsvEnd + nonceBlock else k.rsvEnd
    let iv := toBE 1 i ++ [0] ++ toBE 2 c.gen ++ toBE 4 0 ++ toBE 4 k.nonce
    let aad := buf.take aadLen
    let pt := buf.drop aadLen
    let ct := fit pt.length (Config.aesGctr c.mat iv pt)
    let s := s.setKslot i { k with nonce := k.nonce + 1, rsvEnd := rsv }
    let s := if s.rf Reg.VLT_WARN 16 16 * 65536 ≤ k.nonce + 1 then
        (s.raise .vlt 0 Irq.VLT_WARN).logEvt .vlt 0 Irq.VLT_WARN 1000000000 true (toBE 1 i) i else s
    let s := if k.nonce + 1 = 0xFFFFFFFF then
        let s := s.orphanOf i
        let k := s.kslot i
        s.setKslot i { k with main := k.main.withState 5 }
      else s
    (bufRes (iv ++ ct ++ fit 16 (Config.aesGcmTag c.mat iv aad ct)), s)

/-- DECRYPT. -/
def State.vDecrypt (s : State) (m i aadLen : Nat) (buf : List Byte) : Result × State :=
  if buf.length < 28 + aadLen then (codeRes Code.badArg, s)
  else s.useKey i 5 m [1, 2] fun c s =>
    let iv := buf.take 12
    let aad := (buf.drop 12).take aadLen
    let ct := (buf.drop (12 + aadLen)).take (buf.length - 28 - aadLen)
    if fit 16 (Config.aesGcmTag c.mat iv aad ct) = buf.drop (buf.length - 16) then
      (bufRes (fit ct.length (Config.aesGctr c.mat iv ct)), s)
    else (codeRes VCode.tagFail, s)

/-- RANDOM. -/
def State.vRandom (s : State) (n : Nat) : Result × State :=
  if n = 0 ∨ 512 < n then (codeRes Code.badArg, s)
  else
    let (r, s) := s.trng n
    (bufRes r, s)

/-- GLB_SKU.GRADE: 1 SG7420-A2, 2 SG7420-E2 (R2). -/
def skuGrade : Nat := if Config.skuE2 then 2 else 1

/-- The attestation report of Table 11-11 over a verifier's nonce. -/
def State.report (s : State) (nonce : List Byte) : List Byte :=
  let v := s.vlt
  let body := [0x01] ++ toBE 1 v.vstate ++
    toBE 2 (b2n v.claimed + b2n v.cosign * 2 + b2n v.updLock * 4 + b2n v.sleepLatch * 8 + b2n Config.unborOff * 16) ++
    toBE 4 (s.rd Reg.GLB_CHIP_ID).toNat ++ toBE 1 skuGrade ++ toBE 1 v.lockCause ++ toBE 2 (s.rf Reg.VLT_NODE 0 9) ++
    toBE 4 v.boot ++ toBE 2 v.epoch ++ toBE 2 0 ++ fit 57 s.dikPub ++ toBE 3 0 ++ fit 56 s.dtkPub ++
    (if v.claimed then shake v.ownerKey 32 else List.replicate 32 0) ++ fit 32 v.fwDigest ++ toBE 4 v.fwVersion ++
    toBE 4 (clampN 0 0xFFFFFFFF v.glitchTotal) ++ toBE 8 s.now ++ fit 16 nonce
  body ++ s.dikSign "AUV-ATTEST" body

/-- ATTEST (R319). -/
def State.vAttest (s : State) (buf : List Byte) : Result × State :=
  if !s.vltOpen then (codeRes VCode.locked, s) else (bufRes (s.report (buf.take 16)), s)

/-- AUTH_NONCE (R303). -/
def State.vNonce (s : State) (m : Nat) : Result × State :=
  let (r, s) := s.trng 16
  (dataRes Code.ok (wordsOf 4 r), { s with vlt := { s.vlt with nonces := Tab.set (fun _ => none) s.vlt.nonces m (some (r, s.now)) } })

/-- INFO (Table 11-17). -/
def State.vInfo (s : State) (i : Nat) : Result × State :=
  let c := s.mainCell i
  let k := s.kslot i
  let a := if c.state = 0 ∧ k.comp.state = 2 then setFld c.attr 12 3 2 else c.attr
  ({ Result.empty with
      code := Code.ok, len := c.pub.length, buf := c.pub,
      data := [wd a.toNat, wd (a.toNat >>> 32), if c.state = 0 then 0 else c.kcv,
               wd (k.comp.gen + k.comp.state * 65536), wd k.nonce] }, s)

/-! ### Ownership and envelopes (R300-R304) -/

/-- The outstanding nonce of a master. -/
def State.authNonce (s : State) (m : Nat) : Option (List Byte) :=
  (Tab.get (fun _ => none) s.vlt.nonces m).map Prod.fst

/-- A nonce is consumed by its first use, whatever the outcome (R303). [DEDUCED, log entry 54] -/
def State.useNonce (s : State) (m : Nat) (n : List Byte) : State :=
  if s.authNonce m = some n then { s with vlt := { s.vlt with nonces := Tab.set (fun _ => none) s.vlt.nonces m none } } else s

/-- A rejected message: AUTH_INVALID, counted, raised and logged. [DEDUCED, log entry 54] -/
def State.authFail (s : State) : Result × State :=
  (codeRes VCode.authInvalid,
    ((s.evt Reg.VLT_AUTH_FAIL).raise .vlt 0 Irq.VLT_AUTH_FAIL).logEvt .vlt 0 Irq.VLT_AUTH_FAIL 1000000000 true [])

/-- OWNER_EPOCH increments; its warning. -/
def State.epochUp (s : State) : State :=
  let s := { s with vlt := { s.vlt with epoch := s.vlt.epoch + 1 } }
  let s := s.raise .vlt 0 Irq.VLT_OWNER_CHANGED
  if 0xFF00 ≤ s.vlt.epoch then (s.raise .vlt 0 Irq.VLT_WARN).logEvt .vlt 0 Irq.VLT_WARN 1000000000 true [] else s

/-- A CLAIM message of master `m` checks (R300, Table 11-2). [DEDUCED, log entry 54] -/
def State.claimOk (s : State) (m : Nat) (b : List Byte) : Bool :=
  decide (b.length = 197) && decide (b.take 1 = [0x01]) && decide ((b.drop 2).take 8 = s.vlt.dsn) &&
  decide (s.authNonce m = some ((b.drop 10).take 16)) && decide (beAt b 1 1 < 2) &&
  Config.ed448Verify ((b.drop 26).take 57) (ascii "AUV-CLAIM") (b.take 83) (b.drop 83)

/-- CLAIM (R300, Table 11-2). [DEDUCED, log entry 54] -/
def State.vClaim (s : State) (m : Nat) (b : List Byte) : Result × State :=
  let ok := s.claimOk m b
  let s := s.useNonce m ((b.drop 10).take 16)
  if s.vlt.claimed then (codeRes VCode.claimed, s)
  else if 0xFFFF ≤ s.vlt.epoch then (codeRes VCode.exhausted, s)
  else
    if ok then
      let s := { s with vlt := { s.vlt with
        claimed := true, ownerKey := (b.drop 26).take 57, cosign := decide (beAt b 1 1 % 2 = 1) } }
      (codeRes Code.ok, s.epochUp.vltLog Irq.VLT_OWNER_CHANGED (toBE 1 0x12))
    else s.authFail

/-- A TRANSFER message of master `m` checks (R301, Table 11-3). -/
def State.transferOk (s : State) (m : Nat) (b : List Byte) : Bool :=
  s.vlt.claimed && decide (b.take 1 = [0x01]) && decide (beAt b 2 2 = s.vlt.epoch) &&
  decide ((b.drop 4).take 8 = s.vlt.dsn) && decide (s.authNonce m = some ((b.drop 12).take 16)) &&
  Config.ed448Verify s.vlt.ownerKey (ascii "AUV-TRANSFER") (b.take 85) ((b.drop 85).take 114) &&
  ((beAt b 1 1).testBit 1 || Config.ed448Verify ((b.drop 28).take 57) (ascii "AUV-TRANSFER") (b.take 85) ((b.drop 199).take 114))

/-- TRANSFER (R301, Table 11-3). [DEDUCED, log entry 54] -/
def State.vTransfer (s : State) (m : Nat) (b : List Byte) : Result × State :=
  let ok := s.transferOk m b
  let s := s.useNonce m ((b.drop 12).take 16)
  if 0xFFFF ≤ s.vlt.epoch then (codeRes VCode.exhausted, s)
  else
    let flags := beAt b 1 1
    let release := flags.testBit 1
    if ok then
      let s := { s with vlt := { s.vlt with claimed := !release, ownerKey := if release then [] else (b.drop 28).take 57,
                                            cosign := flags.testBit 2, updLock := false } }
      let s := s.epochUp.vltLog Irq.VLT_OWNER_CHANGED (toBE 1 0x13 ++ toBE 1 flags)
      (codeRes Code.ok, if release || flags.testBit 0 then s.wipeSlots else s)
    else s.authFail

/-- IMPORT of a key package (R311, Table 11-8). -/
def State.vImport (s : State) (arg : List Byte) : Result × State :=
  let i := beAt arg 0 1
  let cmd : BitVec 64 := BitVec.ofNat 64 (beAt arg 2 8)
  let len := beAt arg 78 2
  let want := match fld cmd 8 4 with | 1 => 16 | 2 => 32 | 3 => 57 | 4 => 57 | 6 => 64 | _ => 0
  match s.createGuard i with
  | some c => (codeRes c, s)
  | none =>
    if want = 0 ∨ len ≠ want ∨ arg.length ≠ 96 + len then (codeRes Code.badArg, s)
    else if 65535 ≤ (s.kslot i).lastGen then (codeRes VCode.genExhausted, s)
    else
      let eph := (arg.drop 10).take 56
      let dtk := match s.vlt.ident with | some (_, _, t, _) => t | none => []
      let kek := shake (ascii "AUV-IMPORT" ++ fit 56 (Config.x448 dtk eph) ++ eph ++ s.dtkPub) 32
      let iv := (arg.drop 66).take 12
      let ct := (arg.drop 80).take len
      if fit 16 (Config.aesGcmTag kek iv (arg.take 80) ct) = arg.drop (80 + len) then
        s.create i cmd 2 none (fit len (Config.aesGctr kek iv ct))
      else (codeRes VCode.tagFail, s)

/-- K_PUF (R297). -/
def kPufOf : List Byte := shake (ascii "AUV-PUF" ++ fit 64 Config.puf) 32

/-- Generate a new identity (R296): DIK, DTK and the serial number; the PUF is enrolled (Table 11-13). -/
def State.newIdentity (s : State) : State :=
  let (d, s) := s.trng 57
  let (t, s) := s.trng 56
  let dp := fit 57 (Config.ed448Pub d)
  let tp := fit 56 (Config.x448Pub t)
  { s with vlt := { s.vlt with ident := some (d, dp, t, tp), enrolled := true, dsn := (shake dp 32).take 8,
                                helper := Config.pufHelper s.vlt.draws, kPuf := kPufOf } }

/-- REINIT leaves ZEROISED for INIT with a new identity (R323). -/
def State.reinit (s : State) : State :=
  let s := s.newIdentity
  { s with vlt := { s.vlt with vstate := 0, stage := 0, stageAlarms := 0, zeroPend := false } }

/-! ### Locking, zeroisation and start-up (R320-R324) -/

/-- The operation at the front meets an alarm: it is retried once, and a second alarm, or a lock, aborts it (R321). -/
def State.vltAlarm (s : State) (abort : Bool) : State :=
  match s.vlt.ops with
  | [] => s
  | o :: t =>
    if abort ∨ 1 ≤ o.alarms then
      if o.res = some (codeRes VCode.tamperAbort) then s
      else
        let s := s.evt Reg.VLT_TAMPER_ABORT
        { s with vlt := { s.vlt with ops := { o with res := some (codeRes VCode.tamperAbort) } :: t } }
    else { s with vlt := { s.vlt with ops := { o with alarms := o.alarms + 1 } :: t } }

/-- Enter LOCKED with a cause (R322): LIVE bindings unload, SNAPSHOT copies run on. -/
def State.vltLock (s : State) (cause : Nat) : State :=
  let was := s.vlt.vstate
  let s := { s with vlt := { s.vlt with vstate := 2, lockCause := cause } }
  let s := if was = 1 then s.raise .vlt 0 Irq.VLT_LOCKED else s
  (s.vltLog Irq.VLT_LOCKED (toBE 1 cause)).liveRefresh

/-- An alarm during a start-up stage: the stage is retried once, the second leaves the Vault LOCKED (R321). [DEDUCED, log entry 55] -/
def State.vltStageAlarm (s : State) : State :=
  if 1 ≤ s.vlt.stageAlarms then s.vltLock 1
  else { s with vlt := { s.vlt with stageAlarms := s.vlt.stageAlarms + 1 } }

/-- A class 2 event: locks an OPEN Vault (R320). [DEDUCED, log entry 55] -/
def State.tamperClass2 (s : State) : State :=
  match s.vlt.vstate with
  | 0 => s.vltStageAlarm
  | 1 => (s.vltAlarm true).vltLock 3
  | _ => s

/-- Zeroise (R323): every key cell, every engine copy, the identity, the scrambling key, K_PUF and the PUF helper data are gone; the owner
record, serial number and counters stay. [DEDUCED, log entry 55] -/
def State.zeroise (s : State) : State :=
  let s := s.vltAlarm true
  let s := { s with vlt := { s.vlt with
    vstate := 3, ident := none, zeroPend := true, scramble := [], kPuf := [], helper := [] } }
  let s := s.wipeSlots
  let s := s.purgeSnap (fun _ => true)
  (s.raise .vlt 0 Irq.VLT_ZEROISED).vltLog Irq.VLT_ZEROISED []

/-- A record is absent or its tag fails: IDENT_FAIL is raised and logged (R297, R325). -/
def State.identAlarm (s : State) : State := (s.raise .vlt 0 Irq.VLT_IDENT_FAIL).vltLog Irq.VLT_IDENT_FAIL []

/-- Enter ZEROISED from INIT because the identity or owner record is absent or fails (R297). -/
def State.identFail (s : State) : State :=
  let s := { s with vlt := { s.vlt with vstate := 3, ident := none } }
  ((s.identAlarm.raise .vlt 0 Irq.VLT_ZEROISED).vltLog Irq.VLT_ZEROISED []).liveRefresh

/-- A numbered slot as its record is unwrapped: EMPTY when the record fails, its GEN kept; else its nonce counter resumes at the end of what
is reserved (R297, R317, R318). [DEDUCED, log entry 58] -/
def State.slotUnwrap (s : State) (bad : List Nat) (p : Nat × KeySlot) : Nat × KeySlot :=
  if bad.contains p.1 then KeySlot.wipe p
  else
    let n := (s.ringLast 5 p.1).getD 0
    (p.1, { p.2 with nonce := n, rsvEnd := n })

/-- Start-up stage S4: the slots are unwrapped and the Vault is OPEN (R324). A slot whose record fails raises IDENT_FAIL (R297). -/
def State.vltS4 (s : State) (bad : List Nat) : State :=
  let s := { s with vlt := { s.vlt with slots := s.vlt.slots.map (s.slotUnwrap bad) } }
  let s := if bad.isEmpty then s else s.identAlarm
  ({ s with vlt := { s.vlt with stage := 4, stageAlarms := 0, vstate := 1 } } : State).liveRefresh

/-- A start-up stage completes. -/
def State.stageDone (s : State) (n : Nat) : State := { s with vlt := { s.vlt with stage := n, stageAlarms := 0 } }

/-- Stage S1: a pending erasure is completed, the scrambling key drawn, K_PUF reconstructed (R297, R313, R323). [DEDUCED, log entry 55] -/
def State.vltS1 (s : State) : State :=
  let (k, s) := s.trng 32
  let h := if s.vlt.zeroPend then [] else s.vlt.helper
  ({ s with vlt := { s.vlt with
    zeroPend := false, helper := h, scramble := k, kPuf := if h.isEmpty then [] else kPufOf } } : State).stageDone 1

/-- Stage S2: the identity, generated at the first power-up; `ok`: its record checks. [DEDUCED, log entry 55] -/
def State.vltS2 (s : State) (ok : Bool) : State :=
  let s := if s.vlt.ident.isNone ∧ !s.vlt.enrolled then s.newIdentity else s
  if s.vlt.ident.isNone ∨ !ok then s.identFail else s.stageDone 2

/-- Stage S3: the owner record, `ok` when a copy of it checks, and VLT_BOOT_CNT, which counts this start-up, warns and at its end leaves the
Vault LOCKED (R317, Table 11-10). [DEDUCED, log entry 55] -/
def State.vltS3 (s : State) (ok : Bool) : State :=
  if !ok then ({ s with vlt := { s.vlt with claimed := false, ownerKey := [] } } : State).identFail
  else if 0xFFFFFFFF ≤ s.vlt.boot then s.vltLock 4
  else
    let s := ({ s with vlt := { s.vlt with boot := s.vlt.boot + 1 } } : State).stageDone 3
    if 0xFFFF0000 ≤ s.vlt.boot then (s.raise .vlt 0 Irq.VLT_WARN).logEvt .vlt 0 Irq.VLT_WARN 1000000000 true [] else s

/-- The stages not yet completed, up to S`n`; a stage that ends INIT ends them. [DEDUCED, log entry 55] -/
def State.vltStages (s : State) (n : Nat) : State :=
  let run := fun (k : Nat) (f : State → State) (s : State) => if s.vlt.vstate = 0 ∧ s.vlt.stage = k ∧ k < n then f s else s
  let ok := s.vlt.found
  (run 2 (fun s => s.vltS3 ok.2.1) (run 1 (fun s => s.vltS2 ok.1) (run 0 State.vltS1 s)))

/-- A tamper event's security record, by sensor and class (R325). [DEDUCED, log entry 55] -/
def State.tamperLog (s : State) (sensor cls : Nat) : State :=
  s.logEvt .vlt 0 Irq.VLT_GLITCH 0 true (toBE 1 sensor ++ toBE 1 cls)

/-- A class 1 event (R320, R321): counted and logged, the operation in progress or the start-up stage retried once; GLITCH_CNT of
them within GLITCH_WIN seconds make a class 2 event. [DEDUCED, log entry 55] -/
def State.tamperClass1 (s : State) (sensor : Nat) : State :=
  let s := ((s.evt Reg.VLT_GLITCH).raise .vlt 0 Irq.VLT_GLITCH).tamperLog sensor 1
  let win := s.rf Reg.VLT_CFG 16 8 * 1000000000
  let g := (s.vlt.glitches.filter (fun t => decide (s.now < t + win))) ++ [s.now]
  let tot := clampN 0 0xFFFFFFFF (s.vlt.glitchTotal + 1)
  let s := { s with vlt := { s.vlt with glitches := g, glitchTotal := tot } }
  if s.rf Reg.VLT_CFG 8 4 ≤ g.length then ({ s with vlt := { s.vlt with glitches := [] } } : State).tamperClass2
  else if s.vlt.vstate = 0 then s.vltStageAlarm
  else s.vltAlarm false

/-- Start-up stages S1 to S3, `n` of them (Table 11-13). `identOk`, `ownerOk`: the identity record and a copy of the owner record check;
`bad`: slots whose record fails. A sleep latch leaves the Vault LOCKED, and what latched is logged now. On a wake S4 follows S3 at once.
[DEDUCED, log entry 55] [DEDUCED, log entry 55] -/
def State.vltStartup (s : State) (n : Nat) (identOk ownerOk : Bool) (bad : List Nat) : State :=
  if s.vlt.vstate ≠ 0 ∨ 3 ≤ s.vlt.stage ∨ !s.pwr.mgsOn ∨ s.pwr.boot < 2 then s
  else
    let s := { s with vlt := { s.vlt with found := (identOk, ownerOk, bad) } }
    if s.vlt.sleepLatch then
      let s := if s.vlt.latchTemp then s.tamperLog 4 2 else s
      let s := if s.vlt.latchMesh then s.tamperLog 5 3 else s
      s.vltLock 2
    else
      let s := s.vltStages (s.vlt.stage + n)
      if s.vlt.vstate = 0 ∧ s.vlt.stage = 3 ∧ !s.pwr.cold then s.vltS4 bad else s

/-- TAMPER_CLEAR: clear the latches, perform every stage not completed, OPEN (Table 11-13). LOCK_CAUSE keeps the last cause (R319). [DEDUCED, log entry 55] -/
def State.tamperClear (s : State) : State :=
  let s := { s with vlt := { s.vlt with
    vstate := 0, sleepLatch := false, latchTemp := false, latchMesh := false, stageAlarms := 0 } }
  let s := s.vltStages 3
  if s.vlt.vstate ≠ 0 then s
  else if s.vlt.stage = 3 then s.vltS4 s.vlt.found.2.2
  else ({ s with vlt := { s.vlt with vstate := 1 } } : State).liveRefresh

/-! ### Owner envelopes (R302-R304) -/

/-- The Vault state an ACTION requires (Table 11-5): none when it is met, else the code. -/
def State.actionState (s : State) (a : Nat) : Option Nat :=
  let ok : Bool := match a with
    | 1 => decide (s.vlt.vstate = 2)
    | 3 | 4 => decide (s.vlt.vstate = 1 ∨ s.vlt.vstate = 2)
    | 6 => decide (s.vlt.vstate = 3)
    | 2 | 5 | 7 => decide (s.vlt.vstate = 1)
    | _ => true
  if ok then none
  else some (match s.vlt.vstate with | 3 => VCode.zeroised | 1 => VCode.badState | _ => VCode.locked)

/-- An accepted envelope's action. -/
def State.vAction (s : State) (a : Nat) (window : Bool) (arg : List Byte) : Result × State :=
  match a with
  | 1 => (codeRes Code.ok, s.tamperClear)
  | 2 =>
    let pg := beAt arg 0 2
    match pageOf pg with
    | none => (codeRes Code.badArg, s)
    | some (b, _) =>
      if arg.length ≠ 2 then (codeRes Code.badArg, s)
      else (codeRes Code.ok, if b = .srv then s else s.wf (Reg.BLK_LOCK (pg * 0x1000)) 0 1 0)
  | 3 =>
    if arg.length = 1 ∧ beAt arg 0 1 < 2 then
      (codeRes Code.ok, { s with vlt := { s.vlt with cosign := decide (beAt arg 0 1 = 1) } })
    else (codeRes Code.badArg, s)
  | 4 =>
    if arg.length = 1 ∧ beAt arg 0 1 < 2 then
      (codeRes Code.ok, { s with vlt := { s.vlt with updLock := decide (beAt arg 0 1 = 1) } })
    else (codeRes Code.badArg, s)
  | 5 => (codeRes Code.ok, s.wipeSlots)
  | 6 => (codeRes Code.ok, s.reinit)
  | 7 => s.vImport arg
  | a => ({ Result.empty with code := Code.ok, data := [wd (a + b2n window * 256)], len := arg.length, buf := arg }, s)

/-- An owner envelope of master `m` checks (R302, R303, Table 11-4): one with a nonce of zeros rests on its window of start-ups, and
serves only a delegated ACTION or UPD_LOCK. [DEDUCED, log entry 54] -/
def State.envelopeOk (s : State) (m : Nat) (b : List Byte) : Bool :=
  let a := beAt b 1 1
  let argLen := beAt b 36 2
  let nonce := (b.drop 20).take 16
  s.vlt.claimed && decide (b.length = 152 + argLen) && decide (argLen ≤ 1800) && decide (b.take 1 = [0x01]) &&
  decide (beAt b 2 2 = s.vlt.epoch) && decide ((b.drop 4).take 8 = s.vlt.dsn) &&
  decide (beAt b 12 4 ≤ s.vlt.boot) && decide (s.vlt.boot ≤ beAt b 16 4) &&
  Config.ed448Verify s.vlt.ownerKey (ascii "AUV-OWNER") (b.take (38 + argLen)) (b.drop (38 + argLen)) &&
  (if nonce = List.replicate 16 0 then (decide (0x20 ≤ a) && decide (a ≤ 0x3F)) || decide (a = 4) else decide (s.authNonce m = some nonce))

/-- AUTHORISE of an owner envelope by master `m` (R302, Table 11-4); TAMPER_CLEAR of an unclaimed device is rejected (R324). [DEDUCED, log entry 54; DESIGN CHOICE, log entry 94] -/
def State.vAuthorise (s : State) (m : Nat) (b : List Byte) : Result × State :=
  let a := beAt b 1 1
  let nonce := (b.drop 20).take 16
  let ok := s.envelopeOk m b
  let s := s.useNonce m nonce
  if !((decide (0x20 ≤ a) && decide (a ≤ 0x3F)) || (decide (1 ≤ a) && decide (a ≤ 7))) then (codeRes Code.badArg, s)
  else if a = 6 ∧ s.vlt.vstate = 3 ∧ !s.vlt.claimed ∧ m = 3 then (codeRes Code.ok, s.reinit)
  else if a = 1 ∧ s.vlt.vstate ≠ 3 ∧ !s.vlt.claimed then s.authFail
  else
    match s.actionState a with
    | some c => (codeRes c, s)
    | none =>
      let arg := (b.drop 38).take (beAt b 36 2)
      if ok then
        let s := s.vltLog 30 (toBE 1 a)
        s.vAction a (decide (nonce = List.replicate 16 0)) arg
      else s.authFail

/-! ### The mailbox and its operations -/

/-- A use that runs under the key it started with (R309), as against a command that changes the Vault at its completion. [DEDUCED, log entry 53] -/
def vltUses (op : Nat) : Bool := [0x01, 0x08, 0x09, 0x0A, 0x0B, 0x0C, 0x0D, 0x0E, 0x0F, 0x10].contains op

/-- Perform an operation (Table 11-17). [DEDUCED, log entry 53] -/
def State.vltRun (s : State) (o : VltOp) : Result × State :=
  let a0 := o.args.getD 0 0
  let a1 := o.args.getD 1 0
  let slot := fld a0 0 8
  let attr : BitVec 64 := BitVec.ofNat 64 (a1.toNat + (o.args.getD 2 0).toNat * 2 ^ 32)
  match o.op with
  | 0x01 => s.vInfo slot
  | 0x02 => s.vGenerate slot attr
  | 0x03 =>
    let l := fld (o.args.getD 3 0) 0 7
    let c := fld (o.args.getD 3 0) 16 11
    if o.buf.length < l + c then (codeRes Code.badArg, s)
    else s.vDerive o.m slot (fld a0 8 8) attr (o.buf.take l) ((o.buf.drop l).take c)
  | 0x04 => s.vCommit slot a1
  | 0x05 => s.vDiscard slot
  | 0x06 => s.vRevoke slot
  | 0x07 => s.vDelete slot
  | 0x08 => s.vSign o.m slot (fld a0 8 8) o.buf
  | 0x09 => s.vVerify o.m slot (fld a0 8 8) o.buf
  | 0x0A => s.vHash (fld a0 0 10) o.buf
  | 0x0B => s.vMac o.m slot (bit a0 8) o.buf
  | 0x0C => s.vEncrypt o.m slot (fld a1 0 11) o.buf
  | 0x0D => s.vDecrypt o.m slot (fld a1 0 11) o.buf
  | 0x0E => s.vRandom (fld a0 0 10)
  | 0x0F => s.vAttest o.buf
  | 0x10 => s.vNonce o.m
  | 0x11 => s.vAuthorise o.m o.buf
  | 0x12 => s.vClaim o.m o.buf
  | 0x13 => s.vTransfer o.m o.buf
  | _ => (codeRes Code.badOp, s)

/-- Start the operation at the front: a use reads its key now. [DEDUCED, log entry 53] -/
def State.vltStart (s : State) : State :=
  match s.vlt.ops with
  | [] => s
  | o :: t =>
    if o.res.isNone && vltUses o.op then
      let (r, s) := s.vltRun o
      { s with vlt := { s.vlt with ops := { o with res := some r } :: t } }
    else s

/-- A request of the HAD or of the management subsystem joins the queue in the order of its arrival, but before the waiting operations that
`before` holds of (R172, R315). [DEDUCED, log entry 53] -/
def State.vltRequest (s : State) (o : VltOp) (before : VltOp → Bool) : State :=
  match s.vlt.ops with
  | [] => ({ s with vlt := { s.vlt with ops := [o] } } : State).vltStart
  | f :: t =>
    { s with vlt := { s.vlt with ops := f :: (t.takeWhile (fun x => !before x) ++ [o] ++ t.dropWhile (fun x => !before x)) } }

/-- Operations leave the queue, their results discarded; the next one starts. [DEDUCED, log entry 53] -/
def State.vltDrop (s : State) (p : VltOp → Bool) : State :=
  ({ s with vlt := { s.vlt with ops := s.vlt.ops.filter (fun o => !p o) } } : State).vltStart

/-- The operation ended with TAMPER_ABORT. -/
def VltOp.aborted (o : VltOp) : Bool := decide (o.res = some (codeRes VCode.tamperAbort))

/-- The bytes of a banked buffer register array, byte 4k in [7:0]. -/
def State.bankBytes (s : State) (m a n : Nat) : List Byte :=
  ((List.range ((n + 3) / 4)).flatMap (fun k => toLE 4 (s.rd (bankKey m (a + 4 * k))).toNat)).take n

/-- A write of VLT_CMD: offered to the master's slot; accepted, it joins the queue with its arguments as they stand. [DEDUCED, log entry 53] -/
def State.vltCmd (s : State) (m op : Nat) : State :=
  s.command (vltSlot m) m (pageBase .vlt 0) fun s =>
    let o : VltOp := ⟨m, op, (List.range 8).map (fun k => s.rd (bankKey m (Reg.VLT_ARG k))),
      s.bankBytes m (Reg.VLT_BUF 0) (clampN 0 2048 (fld (s.rd (bankKey m Reg.VLT_LEN)) 0 12)), none, 0⟩
    let idle := s.vlt.ops.isEmpty
    let s := { s with vlt := { s.vlt with ops := s.vlt.ops ++ [o] } }
    let s := s.perf 0x50 1 (some m)
    if idle then s.vltStart else s

/-- A write of VLT_CMD by a master, subject to the rules of register writes. -/
def State.vltCmdWrite (s : State) (m op : Nat) : State := s.access m Reg.VLT_CMD fun s => s.vltCmd m op

/-- What a power-down of the MGS domain leaves: companions, nonces and operations are lost, the Vault starts again at INIT. -/
def State.vltPowerDown (s : State) : State :=
  { s with vlt := { s.vlt with
      vstate := 0, stage := 0, stageAlarms := 0, lockCause := 0, nonces := [], ops := [], glitches := [], rsvq := [], kPuf := [], scramble := [],
      found := (true, true, []),
      slots := s.vlt.slots.map KeySlot.dropComp } }

end Sys2Proof.Machine
end

