-- ==== Sys2Proof/Machine/Fgd.lean ====
section
/-! DEFINITION. The Freshness Guard: views, video frames, closes and freshness records (R182-R193). -/

namespace Sys2Proof.Machine

/-- A view. -/
def State.view (s : State) (v : Nat) : View := Tab.get (fun _ => View.reset) s.fgd v

/-- Replace a view. -/
def State.setView (s : State) (v : Nat) (x : View) : State := { s with fgd := Tab.set (fun _ => View.reset) s.fgd v x }

def View.word (x : View) (k : Nat) : Word := x.w.getD k 0
def View.en (x : View) : Bool := bit (x.word 0) 0
def View.subtype (x : View) : Nat := if bit (x.word 0) 1 then 3 else 7
def View.recEn (x : View) : Bool := bit (x.word 0) 2
def View.k (x : View) : Nat := fld (x.word 0) 8 8
def View.lossTol (x : View) : Nat := fld (x.word 0) 16 8
/-- STALE_MARGIN in ns. -/
def View.margin (x : View) : Nat := fld (x.word 0) 24 8 * 100000
/-- FRAME_PERIOD in ns. -/
def View.period (x : View) : Nat := fld (x.word 1) 0 20 * 1000
/-- MAX_AGE in ns. -/
def View.maxAge (x : View) : Nat := fld (x.word 2) 0 20 * 1000
/-- PRES_OFFSET in ns. -/
def View.presOffset (x : View) : Nat := fld (x.word 3) 0 20 * 1000
def View.digStep (x : View) : Nat := fld (x.word 4) 0 8
def View.digLen (x : View) : Nat := fld (x.word 4) 8 5 * 16
def View.digOff (x : View) : Nat := fld (x.word 4) 16 13
def View.slot (x : View) : Nat := fld (x.word 7) 0 8

/-- The words lie in the ranges of Table 6-16. -/
def viewOk (w : List Word) : Bool :=
  let f := fun k lo n => fld (w.getD k 0) lo n
  decide (2 ≤ f 0 8 8) && decide (1 ≤ f 0 24 8) && decide (1000 ≤ f 1 0 20) && decide (f 1 0 20 ≤ 1000000) &&
  decide (1000 ≤ f 2 0 20) && decide (f 2 0 20 ≤ 1000000) && decide (f 3 0 20 ≤ 1000000) && decide (1 ≤ f 4 0 8) &&
  decide (1 ≤ f 4 8 5) && decide (f 4 8 5 ≤ 16)

/-- The domain of FGD_CFG. -/
def State.fgdDom (s : State) : Nat := s.rf Reg.FGD_CFG 0 2

/-- A time of that domain in ns, at an FRC time. -/
def State.fgdTime (s : State) (ns : Nat) : Int := s.domTimeAt s.fgdDom (ns * 65536) / 65536

/-- The domain is not synchronised: it is not LOCKED (R281). -/
def State.fgdUnsync (s : State) : Bool := decide ((s.dom s.fgdDom).state ≠ 3)

/-- The owning ingress of a view: that of its frames' route, else of the SRT entry that names the view. -/
def State.viewOwner (s : State) (v : Nat) : Nat :=
  match (s.view v).owner with
  | some o => o
  | none =>
    match (s.tentries 0).find? (fun x => srtValid x.2 && decide (srtView x.2 = some v)) with
    | some x => srtOwner x.2
    | none => 63

/-- Bits 11 and 12 of STATUS (Table 6-8) and HEAD of a record: from the owning port's HAD_PORT_STAT. -/
def State.headBits (s : State) (v : Nat) : Nat × Nat :=
  let p := s.viewOwner v
  if 8 ≤ p then (0, 0xFF)
  else
    let st := s.rd (Reg.HAD_PORT_STAT p)
    let unproven := s.rb (Reg.HAD_PORT_CFG p) 0 && decide (fld st 0 3 ≠ 3) && decide (fld st 0 3 ≠ 4)
    (b2n unproven * 2048 + b2n (bit st 17) * 4096, if bit st 14 then fld st 8 6 else 0xFF)

/-- Raise an interrupt of a view, capture it, and log it at most once per 1 s (R192). -/
def State.fgdRaise (s : State) (v i : Nat) : State :=
  let s := (s.raise .fgd 0 i).wr Reg.FGD_EVT_CAP (wd (v + i * 256))
  if i = Irq.FGD_STALE ∨ i = Irq.FGD_FROZEN ∨ i = Irq.FGD_REPLAY ∨ i = Irq.FGD_NOKEY then
    s.logEvt .fgd 0 i 1000000000 false (toBE 1 v) v
  else s

/-! ### Records (R188-R191) -/

/-- Values of a view's RSEQ per reservation. [DEDUCED, log entry 32] -/
def rseqBlock : Nat := 0x1000000

/-- The node number (VLT_NODE). -/
def State.node (s : State) : Nat := s.rf Reg.VLT_NODE 0 9

/-- Send one record body with the view's next RSEQ: its tag, its frame at port 25, and the next block's reservation. [DEDUCED, log entries 32, 53] -/
def State.fgdSend (s : State) (v : Nat) (body : List Byte) : State :=
  let x := s.view v
  let c := s.mainCell x.slot
  let b := body.take 6 ++ toBE 2 c.gen ++ toBE 8 x.rseq ++ (body.drop 16).take 40
  let iv := toBE 2 s.node ++ [0] ++ toBE 1 v ++ toBE 8 x.rseq
  let tag := fit 16 (Config.aesGcmTag c.mat iv b [])
  let dmac := (x.word 5).toNat + fld (x.word 6) 0 16 * 2 ^ 32
  let vtag := if bit (x.word 6) 31 then toBE 2 0x8100 ++ toBE 2 (fld (x.word 6) 28 3 * 8192 + fld (x.word 6) 16 12) else []
  let frame := toBE 6 dmac ++ toBE 6 s.devMac ++ vtag ++ toBE 2 0x88B5 ++ b ++ tag
  let s := s.setView v { x with rseq := x.rseq + 1, nokey := false }
  let s := if 2 ^ 63 ≤ x.rseq ∧ !x.warned then (s.setView v { s.view v with warned := true }).fgdRaise v Irq.FGD_RSEQ_WARN else s
  let s := if x.rseq = 0 then s.ringAppend (ctrRec 1 v rseqBlock) else s
  let s := if x.rseq % rseqBlock = 0 then
      { s with vlt := { s.vlt with rsvq := s.vlt.rsvq ++ [ctrRec 1 v ((x.rseq / rseqBlock + 2) * rseqBlock)] } } else s
  s.present 25 0 false frame

/-- A record that is due: sent, held until its RSEQ is reserved, or withheld without a key. -/
def State.fgdRecord (s : State) (v : Nat) (body : List Byte) : State :=
  let x := s.view v
  if !x.recEn ∨ 2 ^ 64 - 1 ≤ x.rseq then s
  else if (s.keyRefusal (s.mainCell x.slot) 3 (.engine 50) [1, 2]).isSome then
    ((s.setView v { x with nokey := true }).countRefused.evt Reg.FGD_NOKEY).fgdRaise v Irq.FGD_NOKEY
  else if x.rsvEnd ≤ x.rseq ∨ !x.held.isEmpty then
    (s.setView v { x with held := x.held ++ [body] }).evt Reg.FGD_NOKEY
  else s.fgdSend v body

/-- The bytes of a record before its tag (Table 6-10); KEY_GEN and RSEQ are filled in when it is sent. -/
def State.fgdBody (s : State) (v typ stream : Nat) (endT : Int) (pres : Nat) (age : Int) (first last frames lost status digest same : Nat) :
    List Byte :=
  toBE 1 4 ++ toBE 1 1 ++ toBE 1 typ ++ toBE 1 v ++ toBE 2 s.node ++ toBE 2 0 ++ toBE 8 0 ++ toBE 8 stream ++
  toBE 8 (unsext 64 endT) ++ toBE 4 pres ++ toBE 4 (unsext 32 age) ++ toBE 1 first ++ toBE 1 last ++ toBE 2 frames ++
  toBE 2 (min lost 0xFFFF) ++ toBE 2 status ++ toBE 4 digest ++ toBE 1 same ++ toBE 1 (s.headBits v).2 ++ toBE 2 0

/-- A record and what FGD_LAST_STATUS and FGD_LAST_AGE show of it. -/
def State.fgdEmit (s : State) (v status : Nat) (age : Int) (body : List Byte) : State :=
  ((s.wr (itemKey v Reg.FGD_LAST_STATUS) (wd status)).wr (itemKey v Reg.FGD_LAST_AGE) (wd (unsext 32 age))).fgdRecord v body

/-- The STALE record (R188). -/
def State.fgdStale (s : State) (v : Nat) : State :=
  let x := s.view v
  let e := s.fgdTime s.now
  let status := 1024 + b2n s.fgdUnsync * 512 + (s.headBits v).1
  let age : Int := match x.lastFresh with
    | some t => clampI (-(2 ^ 31 : Int)) 0x7FFFFFFF (e - t)
    | none => 0x7FFFFFFF
  s.fgdEmit v status age (s.fgdBody v 2 0 e 0 age 0 0 0 0 status 0 x.same)

/-! ### Closes (R185-R187) -/

/-- A signed 32-bit difference of two times (R291). -/
def diff32 (a b : Int) : Int := sext 32 (unsext 32 (a - b))

/-- The settings of an APPLY that waits take effect (R193). [DEDUCED, log entry 32] -/
def View.takePending (x : View) : View :=
  match x.pendW with
  | some w => { x with w := w, pendW := none }
  | none => x

/-- An interrupt of a LIVE close: raised when this close sets a status bit that the close before did not. -/
def State.fgdFirst (s : State) (v status prev b i : Nat) (cnt : Option Nat) : State :=
  if status.testBit b && !prev.testBit b then
    let s := s.fgdRaise v i
    match cnt with
    | some a => s.evt (itemKey v a)
    | none => s
  else s

/-- STATUS bits 1-10 of a closed video frame, and its AGE (R186, Table 6-8). [DEDUCED, log entry 32] -/
def State.fgdStatus (s : State) (x : View) (f : Video) (boundary : Bool) (same : Nat) : Nat × Int :=
  let cap : Int := ((f.pres.getD 0 : Nat) : Int) - (x.presOffset : Int)
  let age := match f.pres with | some _ => diff32 f.endTime cap | none => 0
  let tested := f.pres.isSome
  let back := match f.pres, x.prevPres with
    | some a, some b => decide (diff32 (a : Int) (b : Int) ≤ 0)
    | _, _ => false
  (b2n (x.lossTol < f.lost) * 2 + b2n (tested && decide ((x.maxAge : Int) < age)) * 4 +
   b2n (tested && decide (0 < diff32 f.endTime ((f.pres.getD 0 : Nat) : Int))) * 8 + b2n (f.repeated || back) * 16 +
   b2n (tested && decide (age < -1000000)) * 32 + b2n (!tested) * 64 + b2n boundary * 128 + b2n (x.k ≤ same) * 256 +
   b2n s.fgdUnsync * 512, age)

/-- The open video frame of view v closes: its status, its counts, its record, and the state of Table 6-9. `settle` is false at a
deadline, which takes a waiting APPLY itself. [DEDUCED, log entry 32] -/
def State.fgdClose (s : State) (v : Nat) (boundary settle : Bool) : State :=
  let x := s.view v
  match x.video with
  | none => s
  | some f =>
    let same := if x.prevDigest = some f.crc then min (x.same + 1) 255 else 1
    let (st, age) := s.fgdStatus x f boundary same
    let fresh := decide (st = 0)
    let status := st + b2n fresh + (s.headBits v).1
    let s := s.stat (itemKey v Reg.FGD_VIDEO) 1
    let s := if fresh then s.stat (itemKey v Reg.FGD_FRESH) 1 else s
    let s := if boundary then s.evt (itemKey v Reg.FGD_BOUNDARY_EVT) else s
    let s := s.wr (itemKey v Reg.FGD_LAST_DIGEST) (wd f.crc)
    let s := if x.state = 1 ∧ !fresh then
        (((s.fgdFirst v st x.prevStatus 8 Irq.FGD_FROZEN (some Reg.FGD_FROZEN_EVT)).fgdFirst v st x.prevStatus 4 Irq.FGD_REPLAY
          (some Reg.FGD_REPLAY_EVT)).fgdFirst v st x.prevStatus 2 Irq.FGD_AGE (some Reg.FGD_AGE_EVT)).fgdFirst v st x.prevStatus 1
          Irq.FGD_LOSS none
      else s
    let cap := f.endTime - age
    let y := { x with same := same, prevDigest := some f.crc, prevPres := (match f.pres with | some p => some p | none => x.prevPres),
                      prevStatus := status, lastFresh := if fresh then some cap else x.lastFresh, video := none }
    let s := s.setView v y
    let s := s.fgdEmit v status age (s.fgdBody v 1 f.streamId f.endTime (f.pres.getD 0) age f.firstSeq f.lastSeq f.frames f.lost
      status f.crc same)
    let y := s.view v
    let y := if settle then y.takePending else y
    let y := if fresh then { y with state := 1, deadline := s.now + y.period + y.margin } else y
    s.setView v y

/-! ### Judging view frames (R183-R185) -/

/-- `n` view frames lost. -/
def Video.lose (f : Video) (n : Nat) : Video := { f with lost := f.lost + n }

/-- The AVTP header of a frame: subtype, tv, sequence_num, stream_id, avtp_timestamp, end-of-frame indication (IEEE 1722-2016). -/
structure Avtp where
  subtype : Nat
  tv : Bool
  seq : Nat
  stream : Nat
  ts : Nat
  eof : Bool
deriving DecidableEq, Repr

def avtpOf (b : List Byte) (off : Nat) : Avtp :=
  let at_ := fun (o n : Nat) => (winAt b (off + o) n).getD 0
  ⟨at_ 0 1, (at_ 1 1).testBit 0, at_ 2 1, at_ 4 8, at_ 12 4, (at_ 22 1).testBit 4⟩

/-- A frame is foreign to a view (R182). -/
def View.foreign (x : View) (b : List Byte) (p : Parsed) : Bool :=
  decide (p.etype ≠ 0x22F0) || decide ((avtpOf b p.off).subtype ≠ x.subtype)

/-- A view frame with its verdict (R184): `e` its END_TIME, `frer` when it passed a recovery function. -/
def Video.judge (f : Video) (x : View) (a : Avtp) (good frer : Bool) (e : Int) (sample : List Byte) : Video × Option Nat :=
  let d := match x.expect with | some n => (a.seq + 256 - n) % 256 | none => 0
  let next := some ((a.seq + 1) % 256)
  let f := if good ∧ a.tv ∧ f.pres.isNone then { f with pres := some a.ts } else f
  if !good then
    if d < 128 then ({ f.lose (d + 1) with bad := a.seq :: f.bad }, next) else (f, x.expect)
  else if 128 ≤ d then
    (if frer ∧ f.bad.contains a.seq then f else { f with repeated := true }, x.expect)
  else
    let f := f.lose d
    let crc := if (f.frames + f.lost) % x.digStep = 0 then crc32c f.crc sample else f.crc
    ({ f with crc := crc, frames := f.frames + 1, firstSeq := (if f.frames = 0 then a.seq else f.firstSeq), lastSeq := a.seq,
              endTime := e }, next)

/-- The Guard judges a frame of view v whose verdict is known: `owner` its route's OWNER, `ts` its ingress timestamp (FRC ns). -/
def State.fgdJudge (s : State) (v owner : Nat) (b : List Byte) (ts : Nat) (good frer : Bool) : State :=
  let x := s.view v
  let p := parse b
  if x.state = 0 then s
  else if x.foreign b p then s
  else
    let a := avtpOf b p.off
    let s := s.setView v { x with owner := some owner }
    let split := match x.video with
      | some f => good && a.tv && (match f.pres with | some t => decide (t ≠ a.ts) | none => false)
      | none => false
    let s := if split then s.fgdClose v true true else s
    let x := s.view v
    let e := s.fgdTime ts
    let f := match x.video with
      | some f => f
      | none => ⟨a.stream, none, e, 0, 0, 0, 0, false, 0xFFFFFFFF, []⟩
    let (g, next) := f.judge x a good frer e ((b.drop (p.off + x.digOff)).take x.digLen)
    let s := s.setView v { x with video := some g, expect := next }
    let s := if f.lost < g.lost then s.stat (itemKey v Reg.FGD_VF_LOST) (g.lost - f.lost) else s
    if a.eof && good then s.fgdClose v false true else s

/-- The frames of view v at the front of its order of arrival whose verdicts are known are judged, at most `n` (R184). [DEDUCED, log entry 32] -/
def State.fgdDrain : Nat → State → Nat → State
  | 0, s, _ => s
  | n + 1, s, v =>
    match (s.view v).wait with
    | [] => s
    | w :: t =>
      match w.verdict with
      | none => s
      | some good => State.fgdDrain n ((s.setView v { s.view v with wait := t }).fgdJudge v w.owner w.bytes w.ts good w.frer) v

/-- Frame i of view v has passed stage 6: it is judged in its turn. [DEDUCED, log entry 32] -/
def State.fgdArrive (s : State) (v i owner : Nat) (b : List Byte) (ts : Nat) (frer : Bool) : State :=
  s.setView v { s.view v with wait := (s.view v).wait ++ [⟨i, owner, b, ts, frer, none⟩] }

/-- The verdict of the first frame numbered i that waits for one. [DEDUCED, log entry 32] -/
def ViewFrame.settle (i : Nat) (good : Bool) : List ViewFrame → List ViewFrame
  | [] => []
  | w :: t => if w.fid = i ∧ w.verdict.isNone then { w with verdict := some good } :: t else w :: ViewFrame.settle i good t

/-- The verdict of frame i of view v is known. [DEDUCED, log entry 32] -/
def State.fgdVerdict (s : State) (v i : Nat) (good : Bool) : State :=
  let l := ViewFrame.settle i good (s.view v).wait
  State.fgdDrain l.length (s.setView v { s.view v with wait := l }) v

/-- A view none of whose frames waits for a verdict that cannot come. -/
def View.lost (x : View) : View := { x with wait := x.wait.filter (fun w => w.verdict.isSome) }

/-- Every stored frame is gone: no view waits for a verdict any more. [DEDUCED, log entry 32] -/
def State.fgdLost (s : State) : State := { s with fgd := s.fgd.map (fun (k, x) => (k, x.lost)) }

/-- A frame of view v reaches stage 6: one that is foreign is counted (R182). -/
def State.fgdObserve (s : State) (v : Nat) (b : List Byte) : State :=
  let x := s.view v
  if x.state ≠ 0 ∧ x.foreign b (parse b) then s.evt (itemKey v Reg.FGD_FOREIGN) else s

/-! ### Deadlines and settings (R187, R193) -/

/-- The deadline of a LIVE view. -/
def State.fgdDeadline (s : State) (v : Nat) : State :=
  if (s.view v).state ≠ 1 then s
  else
    let due := (s.view v).deadline
    let s := s.fgdClose v true false
    let s := s.setView v { s.view v with state := 2 }
    let s := ((s.fgdStale v).fgdRaise v Irq.FGD_STALE).evt (itemKey v Reg.FGD_STALE_EVT)
    let x := (s.view v).takePending
    s.setView v { x with next := due + x.period }

/-- `next` of a STALE view is reached. -/
def State.fgdRepeat (s : State) (v : Nat) : State :=
  if (s.view v).state ≠ 2 then s
  else
    let s := s.fgdStale v
    s.setView v { s.view v with next := (s.view v).next + (s.view v).period }

/-- OFF to LIVE (Table 6-9). -/
def View.live (x : View) (now : Nat) : View :=
  { x with state := 1, same := 0, prevDigest := none, prevPres := none, expect := none, prevStatus := 0, lastFresh := none, video := none,
           owner := none, deadline := now + x.period + x.margin }

/-- APPLY of master m (R193). [DEDUCED, log entry 32] -/
def State.fgdApply (s : State) (m : Nat) : State :=
  let v := s.rf (bankKey m Reg.FGD_SEL) 0 6
  let w := (List.range 8).map (fun k => s.rd (bankKey m (Reg.FGD_VCFG0 + 4 * k)))
  let x := s.view v
  let on := bit (w.getD 0 0) 0
  if !viewOk w then s.evt Reg.FGD_REJ
  else if x.state = 0 then
    let x := { x with w := w, pendW := none }
    s.setView v (if on then x.live s.now else x)
  else if !on then s.setView v { x with w := w, pendW := none, state := 0, video := none, held := [] }
  else s.setView v { x with pendW := some w }

/-- LOAD of master m: the settings last applied. -/
def State.fgdLoad (s : State) (m : Nat) : State :=
  let x := s.view (s.rf (bankKey m Reg.FGD_SEL) 0 6)
  let w := match x.pendW with | some w => w | none => x.w
  (List.range 8).foldl (fun s k => s.wr (bankKey m (Reg.FGD_VCFG0 + 4 * k)) (w.getD k 0)) s

/-- A write of FGD_CMD. -/
def State.fgdCmd (s : State) (m : Nat) (v : Word) : State :=
  let s := if bit v 0 then s.fgdApply m else s
  if bit v 1 then s.fgdLoad m else s

/-- The counter writer has reserved a view's next block: the records it held are sent (R190). -/
def State.fgdReserved (s : State) (v value : Nat) : State :=
  let x := s.view v
  let held := x.held
  let s := s.setView v { x with rsvEnd := max x.rsvEnd value, held := [] }
  held.foldl (fun s b => s.fgdRecord v b) s

end Sys2Proof.Machine
end

