-- ==== Sys2Proof/Machine/Had.lean ====
section
/-! DEFINITION. Head admission: the roster, the admission exchange, the gate, life records (R163-R175). -/

namespace Sys2Proof.Machine

/-- A roster entry. -/
def State.head (s : State) (i : Nat) : Head := Tab.get (fun _ => Head.reset) s.had.roster i

/-- Replace a roster entry. -/
def State.setHead (s : State) (i : Nat) (h : Head) : State :=
  { s with had := { s.had with roster := Tab.set (fun _ => Head.reset) s.had.roster i h } }

/-- A head port. -/
def State.hport (s : State) (p : Nat) : HeadPort := Tab.get (fun _ => HeadPort.reset) s.had.ports p

/-- Replace a head port. -/
def State.setHport (s : State) (p : Nat) (h : HeadPort) : State :=
  { s with had := { s.had with ports := Tab.set (fun _ => HeadPort.reset) s.had.ports p h } }

/-- HAD_PORT_STAT.STATE: 0 OFF, 1 DOWN, 2 PROVING, 3 ADMITTED, 4 REPROVING, 5 FLAGGED, 6 BLOCKED. -/
def State.hadState (s : State) (p : Nat) : Nat := s.rf (Reg.HAD_PORT_STAT p) 0 3

/-- Policy BLOCK. -/
def State.hadBlock (s : State) : Bool := s.rb Reg.HAD_CFG 0

/-- The gate of a port (R170). -/
def State.hadGate (s : State) (p : Nat) : Bool :=
  match s.hadState p with
  | 0 | 3 | 4 | 5 => true
  | 1 | 2 => !s.hadBlock
  | _ => false

/-- The head admitted on a port. -/
def State.hadIndex (s : State) (p : Nat) : Option Nat :=
  if s.rb (Reg.HAD_PORT_STAT p) 14 then some (s.rf (Reg.HAD_PORT_STAT p) 8 6) else none

/-- PRESENT of a roster index: ADMITTED or REPROVING on its LAST_PORT. -/
def State.headPresent (s : State) (i : Nat) : Bool :=
  let p := (s.head i).lastPort
  decide (s.hadIndex p = some i) && (decide (s.hadState p = 3) || decide (s.hadState p = 4))

/-- KEY_DIGEST of a key. -/
def keyDigest (k : List Byte) : List Byte := if k.isEmpty then List.replicate 32 0 else shake k 32

/-- A log record of head admission: port, roster index and the first 8 bytes of KEY_DIGEST (R192). -/
def State.hadLog (s : State) (i p idx : Nat) (key : List Byte) : State :=
  s.logEvt .had 0 i 1000000000 false (toBE 1 p ++ toBE 1 idx ++ (keyDigest key).take 8) p

/-- Send a message to the head on port p (R166). -/
def State.hadSend (s : State) (p : Nat) (msg : List Byte) : State :=
  s.present 25 0 false (toBE 1 (s.rf Reg.HAD_GRP_HI 0 8) ++ toBE 4 (s.rd Reg.HAD_GRP_LO).toNat ++ toBE 1 p ++ toBE 6 s.devMac ++
    toBE 2 0x88B5 ++ msg)

/-- The header of a message (Table 6-2). -/
def hadHeader (typ arg len : Nat) : List Byte := toBE 1 1 ++ toBE 1 1 ++ toBE 1 typ ++ toBE 1 arg ++ toBE 2 len

/-! ### The HAD's operations in the Vault (R172, R315) -/

/-- The front of the Vault's queue is the HAD's operation `op` of port p. -/
def VltOp.ofPort (o : VltOp) (op p : Nat) : Bool := decide (o.op = op) && decide (o.m = p)

/-- A PROOF of port p joins the Vault's queue, ahead of every VERDICT that is not being signed. [DEDUCED, log entry 34] -/
def State.proofQueue (s : State) (p : Nat) (r : Proof) : State :=
  (s.setHport p { s.hport p with proofs := (s.hport p).proofs ++ [r] }).vltRequest ⟨p, VOp.proof, [], [], none, 0⟩
    (fun o => decide (o.op = VOp.verdict))

/-- A VERDICT of port p joins the Vault's queue. [DEDUCED, log entry 34] -/
def State.verdictQueue (s : State) (p : Nat) (msg : List Byte) : State :=
  (s.setHport p { s.hport p with verdicts := (s.hport p).verdicts ++ [msg] }).vltRequest ⟨p, VOp.verdict, [], [], none, 0⟩ (fun _ => false)

/-- The exchange of port p is over: its PROOFs leave the Vault's queue, and with `all` its VERDICTs. [DEDUCED, log entry 34] -/
def State.hadDrop (s : State) (p : Nat) (all : Bool) : State :=
  let h := s.hport p
  let s := s.setHport p { h with nonce := none, proofs := [], verdicts := if all then [] else h.verdicts }
  s.vltDrop (fun o => o.ofPort VOp.proof p || (all && o.ofPort VOp.verdict p))

/-! ### States (R171, Table 6-6a) -/

/-- Set STATE and ATTEMPT. -/
def State.hadSet (s : State) (p st attempt : Nat) : State :=
  let r := setFld (setFld (s.rd (Reg.HAD_PORT_STAT p)) 0 3 st) 4 4 attempt
  s.wr (Reg.HAD_PORT_STAT p) r

/-- Forget the head admitted on a port. -/
def State.hadForget (s : State) (p : Nat) : State :=
  s.wr (Reg.HAD_PORT_STAT p) ((s.rd (Reg.HAD_PORT_STAT p)) &&& 0xFF)

/-- Entry of FLAGGED or BLOCKED by policy: any index held is no longer PRESENT. -/
def State.hadFail (s : State) (p : Nat) : State :=
  let b := s.hadBlock
  let s := (s.hadForget p).hadDrop p false
  (s.hadSet p (if b then 6 else 5) 0).raise .had 0 (if b then Irq.HAD_BLOCKED else Irq.HAD_FLAGGED)

/-- Send a CHALLENGE (Table 6-3). -/
def State.hadChallenge (s : State) (p reason attempt : Nat) : State :=
  let (n, s) := s.trng 16
  let s := s.setHport p { s.hport p with nonce := some n, reason := reason }
  s.hadSend p (hadHeader 1 reason 32 ++ n ++ toBE 2 (s.rf Reg.VLT_NODE 0 9) ++ toBE 1 p ++ toBE 1 attempt ++ List.replicate 6 0)

/-- Entry of PROVING (2) or REPROVING (4) with an exchange's first CHALLENGE; without the Vault it fails at once (R172). -/
def State.hadGo (s : State) (p st reason : Nat) : State :=
  if s.vltOpen then (s.hadSet p st 1).hadChallenge p reason 1
  else ((s.hadSet p st 1).evt Reg.HAD_VAULT_FAIL).hadFail p

/-- An exchange starts on a port that is up: PROVING from FLAGGED or BLOCKED, REPROVING from ADMITTED. In DOWN only a link-up starts
one (Table 6-6a). -/
def State.hadStart (s : State) (p reason : Nat) : State :=
  match s.hadState p with
  | 5 | 6 => s.hadGo p 2 reason
  | 3 => s.hadGo p 4 reason
  | _ => s

/-- The key of the head admitted on a port, empty when none is. -/
def State.hadKey (s : State) (p : Nat) : List Byte := match s.hadIndex p with | some i => (s.head i).key | none => []

/-- The response timer expires, or a PROOF is not valid: the next CHALLENGE, or the end of the exchange. -/
def State.hadExpire (s : State) (p : Nat) : State :=
  let st := s.hadState p
  if st = 2 ∨ st = 4 then
    let a := s.rf (Reg.HAD_PORT_STAT p) 4 4
    if a < s.rf Reg.HAD_CFG 24 4 then
      if s.vltOpen then (s.hadSet p st (a + 1)).hadChallenge p (s.hport p).reason (a + 1)
      else (s.evt Reg.HAD_VAULT_FAIL).hadFail p
    else
      let idx := (s.hadIndex p).getD 0xFF
      (((s.evt Reg.HAD_NO_RESP).raise .had 0 Irq.HAD_NO_RESP).hadLog Irq.HAD_NO_RESP p idx (s.hadKey p)).hadFail p
  else s

/-- The port's link comes up: in DOWN an exchange starts, with reason 2 when the link was up before since reset. -/
def State.hadLinkUp (s : State) (p : Nat) : State :=
  let again := (s.hport p).wasUp
  let s := if p < 8 then s.setHport p { s.hport p with wasUp := true } else s
  if s.hadState p = 1 then s.hadGo p 2 (if again then 2 else 0) else s

/-- The port's link goes down: any exchange is abandoned, and no VERDICT is sent. -/
def State.hadLinkDown (s : State) (p : Nat) : State :=
  if s.hadState p = 0 then s else ((s.hadForget p).hadDrop p true).hadSet p 1 0

/-- HAD_PORT_CFG[p].HEAD_EN changes. -/
def State.hadEnable (s : State) (p : Nat) (was : Bool) : State :=
  let en := s.rb (Reg.HAD_PORT_CFG p) 0
  if en = was then s
  else if en then
    let s := s.hadSet p 1 0
    if s.portUp p then s.hadLinkUp p else s
  else ((s.hadForget p).hadDrop p true).hadSet p 0 0

/-- A write of HAD_PORT_CFG[p]. -/
def State.hadPortWrite (s : State) (m p : Nat) (v : Word) : State :=
  (s.plainWrite m (Reg.HAD_PORT_CFG p) v).hadEnable p (s.rb (Reg.HAD_PORT_CFG p) 0)

/-! ### Life records (R173, R174) -/

/-- A record value's increment, saturating. -/
def satAdd (a b : Nat) : Nat := min (a + b) 0xFFFFFFFF

/-- LIFE_PPM of a life record (Table 6-6). [DEDUCED, log entry 34] -/
def State.lifePpm (s : State) (l : Life) : Nat :=
  let w := fun k => (s.rd (Reg.HAD_LIFE_W0 + 4 * k)).toNat
  min ((max l.on (l.onBase + l.observed) * w 0 + l.hot * w 1 + l.cycles * w 2 + l.heater * w 3) / 1000000) 0xFFFFFF

/-- WARN of a life sum. -/
def State.lifeWarn (s : State) (ppm : Nat) : Bool := decide (s.rf Reg.HAD_LIFE_WARN 0 24 ≤ ppm)
/-- END of a life sum. -/
def lifeEnd (ppm : Nat) : Bool := decide (1000000 ≤ ppm)

/-- Recompute the life sum of head i on port p: LIFE_WARN and LIFE_END are raised when each is first reached. -/
def State.lifeUpdate (s : State) (i p : Nat) : State :=
  let h := s.head i
  let ppm := s.lifePpm h.life
  let warn := s.lifeWarn ppm
  let stop := lifeEnd ppm
  let s := s.setHead i { h with life := { h.life with ppm := ppm, warned := h.life.warned || warn, ended := h.life.ended || stop } }
  let s := if warn && !h.life.warned then (s.raise .had 0 Irq.HAD_LIFE_WARN).hadLog Irq.HAD_LIFE_WARN p i h.key else s
  let s := if stop && !h.life.ended then (s.raise .had 0 Irq.HAD_LIFE_END).hadLog Irq.HAD_LIFE_END p i h.key else s
  if s.hadIndex p = some i then
    let r := setFld (setFld (s.rd (Reg.HAD_PORT_STAT p)) 16 1 (b2n warn)) 17 1 (b2n stop)
    s.wr (Reg.HAD_PORT_STAT p) r
  else s

/-- A PROOF's values enter the life record: a value below the one held is not taken (R173). -/
def State.lifeReport (s : State) (i p : Nat) (r : Proof) : State :=
  let h := s.head i
  let l := h.life
  let back := decide (r.on < l.on) || decide (r.hot < l.hot) || decide (r.cycles < l.cycles) || decide (r.heater < l.heater)
  let l := { l with on := max l.on r.on, hot := max l.hot r.hot, cycles := max l.cycles r.cycles, heater := max l.heater r.heater }
  let s := s.setHead i { h with life := l, serial := r.serial, model := r.model }
  let s := if back then
      ((s.evt Reg.HAD_LIFE_ROLLBACK).raise .had 0 Irq.HAD_LIFE_ROLLBACK).hadLog Irq.HAD_LIFE_ROLLBACK p i h.key else s
  s

/-- The management subsystem writes entry i, its life record with it, to MRAM (R163, R173). [DEDUCED, log entry 34] -/
def State.hadSave (s : State) (i : Nat) : State :=
  { s with had := { s.had with saved := Tab.set (fun _ => Head.reset) s.had.saved i (s.head i) } }

/-! ### Outcomes of a PROOF -/

/-- Queue a VERDICT for signature (Table 6-5). -/
def State.hadVerdict (s : State) (p result : Nat) (r : Proof) (idx : Option Nat) : State :=
  let life := match idx with | some i => (s.head i).life | none => Life.reset
  let flags := match idx with | some _ => b2n (s.lifeWarn life.ppm) + b2n (lifeEnd life.ppm) * 2 | none => 0
  let msg := hadHeader 3 result 178 ++ r.nonceH ++ keyDigest r.key ++ toBE 1 (idx.getD 0xFF) ++ toBE 1 flags ++ toBE 4 life.ppm ++
    toBE 2 (s.rf Reg.VLT_NODE 0 9) ++ [0, 0]
  s.verdictQueue p msg

/-- Entry of ADMITTED with head i. -/
def State.hadAdmit (s : State) (p i : Nat) (r : Proof) : State :=
  let h := s.head i
  let moved := decide (h.admits ≠ 0) && decide (h.lastPort ≠ p)
  let s := s.setHead i { h with lastPort := p, admits := evtNext h.admits, lastAdmit := s.now / 1000000000 }
  let st := setFld (setFld (s.rd (Reg.HAD_PORT_STAT p)) 8 6 i) 14 1 1
  let s := (((s.wr (Reg.HAD_PORT_STAT p) st).hadSet p 3 0).stat Reg.HAD_ADMITS 1).raise .had 0 Irq.HAD_ADMITTED
  let s := if moved then s.hadLog 10 p i h.key else s
  let s := s.hadDrop p false
  (((s.lifeReport i p r).lifeUpdate i p).hadSave i).hadVerdict p 1 r (some i)

/-- The index that holds a key, ENROLLED. -/
def State.hadFind (s : State) (key : List Byte) : Option Nat :=
  (s.had.roster.find? (fun x => decide (x.2.state = 1) && decide (x.2.key = key))).map (fun x => x.1)

/-- A valid PROOF without admission: an unknown head, or one present elsewhere, whose life record it still feeds (R173). -/
def State.hadUnknown (s : State) (p : Nat) (r : Proof) (dup : Option Nat) : State :=
  let s := match dup with
    | some i => ((s.lifeReport i p r).evt Reg.HAD_DUP_KEY).hadLog 11 p i r.key
    | none =>
      let s := ((s.evt Reg.HAD_UNKNOWN).raise .had 0 Irq.HAD_UNKNOWN).hadLog Irq.HAD_UNKNOWN p 0xFF r.key
      let s := s.setHport p { s.hport p with cand := some r }
      { s with had := { s.had with lastCand := some (p, r.key) } }
  (s.hadVerdict p (if s.hadBlock then 3 else 2) r dup).hadFail p

/-- The Vault has verified the oldest PROOF of port p, or an alarm aborted it (R168, R171). [DEDUCED, log entry 34] -/
def State.hadProved (s : State) (p : Nat) (aborted : Bool) : State :=
  match (s.hport p).proofs with
  | [] => s
  | r :: q =>
    let s := s.setHport p { s.hport p with proofs := q }
    let st := s.hadState p
    if !(st = 2 || st = 4) then s
    else if !aborted && s.vltOpen && Config.ed448Verify r.key (ascii "HAX-PROOF") r.msg r.sig then
      match s.hadFind r.key with
      | none => s.hadUnknown p r none
      | some i =>
        if st = 2 ∧ s.headPresent i ∧ (s.head i).lastPort ≠ p then s.hadUnknown p r (some i)
        else
          let changed := decide (st = 4) && decide (s.hadIndex p ≠ some i)
          let s := if changed then (s.raise .had 0 Irq.HAD_HEAD_CHANGED).hadLog Irq.HAD_HEAD_CHANGED p i r.key else s
          s.hadAdmit p i r
    else
      let idx := (s.hadIndex p).getD 0xFF
      (((s.evt Reg.HAD_BAD_SIG).raise .had 0 Irq.HAD_BAD_SIG).hadLog Irq.HAD_BAD_SIG p idx r.key).hadExpire p

/-- The oldest VERDICT of port p is signed and sent; an aborted signature sends none (R169). [DEDUCED, log entry 34] -/
def State.hadSends (s : State) (p : Nat) (aborted : Bool) : State :=
  match (s.hport p).verdicts with
  | [] => s
  | v :: q =>
    let s := s.setHport p { s.hport p with verdicts := q }
    if s.vltOpen && !aborted then s.hadSend p (v ++ s.dikSign "HAX-VERDICT" v) else s

/-- The Vault completes the HAD's operation at the front of its queue, if it is `op` of port p, and starts the next (R172, R315). -/
def State.hadOpDone (s : State) (op p : Nat) (k : Bool → State → State) : State :=
  match s.vlt.ops with
  | [] => s
  | o :: t =>
    if o.ofPort op p then (k o.aborted { s with vlt := { s.vlt with ops := t } }).vltStart else s

/-- The Vault's operation in progress is `op` of port p. [DEDUCED, log entry 34] -/
def State.hadRuns (s : State) (op p : Nat) : Bool := s.vlt.ops.head?.any (fun o => o.ofPort op p)

/-- The Vault's operation in progress has met a second alarm, or a lock (R321). [DEDUCED, log entry 34] -/
def State.vltAborted (s : State) : Bool := s.vlt.ops.head?.any VltOp.aborted

/-- PROOF_VERIFIED of port p; `alarm`: the sensor of a class 1 alarm that fires in the verification, which then runs once more or is
aborted (R321). [DEDUCED, log entry 34] -/
def State.hadVerified (s : State) (p : Nat) (alarm : Option Nat) : State :=
  let s := match alarm with
    | some n => if s.hadRuns VOp.proof p then s.tamperClass1 n else s
    | none => s
  if alarm.isSome && !s.vltAborted then s else s.hadOpDone VOp.proof p (fun aborted s => s.hadProved p aborted)

/-- VERDICT_SIGNED of port p. -/
def State.hadSigned (s : State) (p : Nat) : State := s.hadOpDone VOp.verdict p (fun aborted s => s.hadSends p aborted)

/-! ### Messages (R167, R168, R171) -/

/-- A message is malformed for a type of `len` bytes. [DEDUCED, log entry 34] -/
def hadBad (b : List Byte) (typ len : Nat) : Bool :=
  decide (beAt b 1 1 ≠ 1) || decide (beAt b 2 1 ≠ typ) || decide (beAt b 4 2 < len) || decide (b.length < len)

/-- A PROOF arrives on port p: `b` from its SELECTOR. [DEDUCED, log entry 34] -/
def State.hadProof (s : State) (p : Nat) (b : List Byte) : State :=
  if hadBad b 2 254 then s.evt Reg.HAD_BAD_MSG
  else
    let st := s.hadState p
    if !(st = 2 || st = 4) || decide ((s.hport p).nonce ≠ some ((b.drop 6).take 16)) then s.evt Reg.HAD_STALE_MSG
    else
      let r : Proof := ⟨(b.drop 38).take 57, (b.drop 22).take 16, (b.drop 96).take 16, beAt b 112 4, beAt b 116 4, beAt b 120 4,
        beAt b 124 4, beAt b 128 4, b.take 140, (b.drop 140).take 114⟩
      s.proofQueue p r

/-- A REQUEST arrives on port p: at most one a second counts. -/
def State.hadRequest (s : State) (p : Nat) (b : List Byte) : State :=
  if hadBad b 4 6 then s.evt Reg.HAD_BAD_MSG
  else
    let st := s.hadState p
    let soon : Bool := match (s.hport p).lastReq with | some t => decide (s.now < t + 1000000000) | none => false
    if st = 2 ∨ st = 4 ∨ soon then s.evt Reg.HAD_STALE_MSG
    else (s.setHport p { s.hport p with lastReq := some s.now }).hadStart p 4

/-- HAD_CFG.PERIOD hours in ADMITTED have passed. -/
def State.hadPeriod (s : State) (p : Nat) : State := if s.hadState p = 3 then s.hadStart p 1 else s

/-- The retry timer of FLAGGED or BLOCKED: a new exchange, with the reason of the last one. -/
def State.hadRetry (s : State) (p : Nat) : State :=
  if s.hadState p = 5 ∨ s.hadState p = 6 then s.hadStart p (s.hport p).reason else s

/-- A minute in ADMITTED. -/
def State.hadMinute (s : State) (p : Nat) : State :=
  match s.hadIndex p with
  | some i =>
    if s.hadState p = 3 then
      let h := s.head i
      s.setHead i { h with life := { h.life with observed := satAdd h.life.observed 1 } }
    else s
  | none => s

/-- 60 minutes of ADMITTED: the life sum is recomputed, and the record written to MRAM. -/
def State.hadHour (s : State) (p : Nat) : State :=
  match s.hadIndex p with
  | some i => if s.hadState p = 3 then (s.lifeUpdate i p).hadSave i else s
  | none => s

/-! ### Commands (Table 6-14) -/

/-- D14 of READ and D6 of READ_LIFE. -/
def State.lifeWord (s : State) (l : Life) : Word := wd (l.ppm + b2n (s.lifeWarn l.ppm) * 2 ^ 24 + b2n (lifeEnd l.ppm) * 2 ^ 25)

/-- ENROL: index i takes the candidate of port p (R164). [DEDUCED, log entry 34] -/
def State.hadEnrol (s : State) (i p : Nat) : Result × State :=
  if !s.rb (Reg.HAD_PORT_CFG p) 0 then (codeRes 0x83, s)
  else match (s.hport p).cand with
  | none => (codeRes 0x81, s)
  | some r =>
    if (s.head i).state = 1 then (codeRes 0x80, s)
    else if (s.hadFind r.key).isSome then (codeRes 0x82, s)
    else
      let life := { Life.reset with on := r.on, hot := r.hot, cycles := r.cycles, heater := r.heater, onBase := r.on }
      let s := s.setHead i { Head.reset with state := 1, key := r.key, serial := r.serial, model := r.model, life := life }
      let s := s.hadSave i
      let s := if s.hadState p = 5 ∨ s.hadState p = 6 then s.hadStart p 5 else s
      (dataRes Code.ok [wd i], s)

/-- RETIRE: index i becomes RETIRED, and every port that has admitted it proves again. -/
def State.hadRetire (s : State) (i : Nat) : Result × State :=
  let s := (s.setHead i { s.head i with state := 2 }).hadSave i
  (codeRes Code.ok, (List.range 8).foldl (fun s p => if s.hadIndex p = some i ∧ s.hadState p = 3 then s.hadStart p 5 else s) s)

/-- READ. -/
def State.hadRead (s : State) (i : Nat) : Result :=
  let h := s.head i
  dataRes Code.ok ([wd (h.state + h.lastPort * 4 + b2n (s.headPresent i) * 32 + fld h.admits 0 16 * 65536)] ++
    wordsOf 8 (keyDigest h.key) ++ wordsOf 4 h.serial ++ [wd h.model, s.lifeWord h.life, wd h.lastAdmit])

/-- A HAD command runs. -/
def State.hadRun (s : State) (m op i p : Nat) : Result × State :=
  match op with
  | 1 => if m ≠ 3 then (codeRes Code.denied, s) else s.hadEnrol i p
  | 2 => if m ≠ 3 then (codeRes Code.denied, s) else s.hadRetire i
  | 3 => (s.hadRead i, s)
  | 4 => if !s.rb (Reg.HAD_PORT_CFG p) 0 then (codeRes 0x83, s) else (codeRes Code.ok, s.hadStart p 3)
  | 5 =>
    let l := (s.head i).life
    (dataRes Code.ok [wd l.on, wd l.hot, wd l.cycles, wd l.heater, wd l.onBase, wd l.observed, s.lifeWord l], s)
  | _ => (codeRes Code.badOp, s)

/-- A write of HAD_CMD by master m: the command runs and its result is published. -/
def State.hadCmd (s : State) (m : Nat) (v : Word) : State :=
  s.command (hadSlot m) m (pageBase .had 0) fun s =>
    let (r, s) := s.hadRun m (fld v 0 4) (fld v 8 6) (fld v 16 3)
    s.complete (hadSlot m) r

end Sys2Proof.Machine
end

