-- ==== Sys2Proof/Machine/Learn.lean ====
section
/-! DEFINITION. Learning, pruning and the anchor learning exchange (R82-R92). -/

namespace Sys2Proof.Machine

/-- LAST_MOVE, PREV_PORT, FREEZE_LEFT and LM_VALID of an ADT entry (Table 3-8). -/
def adtLastMove (e : BitVec 512) : Nat := fld e 176 32
def adtPrevPort (e : BitVec 512) : Nat := fld e 208 5
def adtFreezeLeft (e : BitVec 512) : Nat := fld e 160 16
def adtLmValid (e : BitVec 512) : Bool := bit e 6

/-! ### Pending announcements (R88) -/

/-- A local entry is due for announcement. [DESIGN CHOICE, log entry 92] -/
def State.announce (s : State) (key : Nat) : State :=
  let x := (key % 2 ^ 48, fldN key 48 12)
  if !s.rb Reg.LRN_XCH_CFG 0 || s.lrn.annPend.contains x then s
  else
    { s with lrn := { s.lrn with annPend := s.lrn.annPend ++ [x], wdPend := s.lrn.wdPend.filter (fun y => decide (y ≠ x)) } }

/-- A local entry has been refreshed: it is announced again at most once per REANNOUNCE ticks. -/
def State.announceAgain (s : State) (key : Nat) : State :=
  match Tab.get (fun _ => 0) s.lrn.lastAnn key with
  | 0 => s.announce key
  | t + 1 => if s.rf Reg.LRN_XCH_CFG 24 8 ≤ (s.tick + 4096 - t) % 4096 then s.announce key else s

/-- The indices that hold an entry's key: its own, and, while a move of it is pending, that of its other copy (R79). -/
def State.adtCopies (s : State) (i : Nat) : List Nat :=
  let e := s.tent 2 i
  if adtReloc e then
    ((List.range 4).map (s.adtIndex (adtKeyOf e))).filter fun j => adtValid (s.tent 2 j) && decide (adtKeyOf (s.tent 2 j) = adtKeyOf e)
  else [i]

/-- Refresh AGE of the entry at index i: with RELOC = 1, of both its copies (R81). -/
def State.adtRefresh (s : State) (i : Nat) : State :=
  let e := s.tent 2 i
  let tick := s.tick
  let s := (s.adtCopies i).foldl (fun s j => s.setTent 2 j (setFld (s.tent 2 j) 80 12 tick)) s
  if adtStatic e || adtRemote e then s else s.announceAgain (adtKeyOf e)

/-! ### Lookups and the queue (R82, R83) -/

/-- A learn request joins the queue of 256, or is dropped and counted. [DEDUCED, log entry 28] -/
def State.learnPush (s : State) (r : LearnReq) : State :=
  if 256 ≤ s.lrn.queue.length then
    ((s.evt Reg.LRN_Q_OVF).raise .lrn 0 Irq.LRN_Q_OVF).logEvt .lrn 0 Irq.LRN_Q_OVF 10000000 false
      (toBE 6 r.mac ++ toBE 2 r.vid ++ toBE 1 r.port)
  else { s with lrn := { s.lrn with queue := s.lrn.queue ++ [r] } }

/-- The source lookup of a frame that passed stage 4 on ingress p (R82). [DEDUCED, log entry 28] -/
def State.learnLook (s : State) (p smac vid : Nat) : State :=
  if !s.rb (Reg.ICL_PORT_CFG p) 19 || isGroup smac then s
  else
    match s.adtFind (adtKey smac vid) with
    | some i => if adtPort (s.tent 2 i) = p then s.adtRefresh i else s.learnPush ⟨smac, vid, p, none, false⟩
    | none => s.learnPush ⟨smac, vid, p, none, false⟩

/-! ### Commits (R84, R85, R90) -/

/-- FRC nanoseconds [31:0]. -/
def State.now32 (s : State) : Nat := s.now % 2 ^ 32

/-- A record of an anchor that took effect is counted. -/
def State.remoteDone (s : State) (r : LearnReq) : State := if r.origin.isSome then s.stat Reg.LRN_REMOTE 1 else s

/-- Create an entry on port q. -/
def State.learnCreate (s : State) (r : LearnReq) : State :=
  let key := adtKey r.mac r.vid
  let rem := match r.origin with | some n => 8 + n * 2 ^ 96 | none => 0
  let e := BitVec.ofNat 512 (1 + rem + r.mac % 2 ^ 48 * 2 ^ 8 + r.vid % 4096 * 2 ^ 56 + r.port * 2 ^ 72 + s.tick * 2 ^ 80 +
    s.now32 * 2 ^ 176 + r.port * 2 ^ 208)
  match s.adtPlaceSlow key e with
  | none => (s.evt Reg.LRN_FULL).raise .lrn 0 Irq.LRN_LEARN_FULL
  | some s =>
    let s := (s.stat Reg.LRN_LEARNED 1).remoteDone r
    if r.origin.isSome then s else s.announce key

/-- A move is a flap (R85). [DEDUCED, log entry 28] -/
def State.isFlap (s : State) (e : BitVec 512) : Bool :=
  let win := s.rf Reg.LRN_FLAP 0 8
  let d := sext 32 (s.now32 + 2 ^ 32 - adtLastMove e)
  decide (win ≠ 0) && adtLmValid e && decide (0 ≤ d) && decide (d < ((win * 100000 : Nat) : Int))

/-- A flap freezes the entry on PREV_PORT. -/
def State.learnFlap (s : State) (i q : Nat) : State :=
  let e := s.tent 2 i
  let p := adtPrevPort e
  let e' := setFld (setFld (setFld (setFld (setFld e 72 5 p) 4 1 1) 160 16 (s.rf Reg.LRN_FLAP 8 16)) 6 1 0) 80 12 s.tick
  let s := ((s.setTent 2 i e').evt Reg.LRN_FLAP_CNT).raise .lrn 0 Irq.LRN_FLAP
  let s := s.wr Reg.LRN_FLAP_CAP0 (wd (adtMac e))
  let s := s.wr Reg.LRN_FLAP_CAP1 (wd (adtMac e / 2 ^ 32 + adtVid e * 65536))
  let s := s.wr Reg.LRN_FLAP_CAP2 (wd (p + adtPort e * 256 + q * 65536))
  s.logEvt .lrn 0 Irq.LRN_FLAP 10000000 false (toBE 6 (adtMac e) ++ toBE 2 (adtVid e) ++ toBE 1 p ++ toBE 1 (adtPort e) ++ toBE 1 q)

/-- Move the entry at index i to the request's port. -/
def State.learnMove (s : State) (i : Nat) (r : LearnReq) : State :=
  let e := s.tent 2 i
  let e' := setFld (setFld (setFld e 208 5 (adtPort e)) 72 5 r.port) 80 12 s.tick
  let e' := setFld (setFld e' 176 32 s.now32) 6 1 1
  let e' := match r.origin with | some n => setFld (setFld e' 3 1 1) 96 9 n | none => setFld e' 3 1 0
  let s := (s.setTent 2 i e').stat Reg.LRN_MOVED 1
  if r.origin.isSome then s else s.announce (adtKeyOf e)

/-- Commit a request against the entry as it stands now. -/
def State.learnOn (s : State) (r : LearnReq) (i : Nat) : State :=
  let e := s.tent 2 i
  if r.origin.isSome ∧ !adtRemote e ∧ (s.tick + 4096 - adtAge e) % 4096 ≤ 1 then s.evt Reg.LRN_REMOTE_STALE
  else if adtPort e = r.port then (s.adtRefresh i).remoteDone r
  else if adtStatic e then s.evt Reg.LRN_STATIC_MOVE
  else if adtFrozen e then s.evt Reg.LRN_FROZEN_DROP
  else if s.isFlap e then s.learnFlap i r.port
  else (s.learnMove i r).remoteDone r

/-- A WITHDRAW record deletes an entry of its origin. -/
def State.learnWithdraw (s : State) (r : LearnReq) : State :=
  match s.adtFind (adtKey r.mac r.vid) with
  | some i =>
    let e := s.tent 2 i
    if adtRemote e ∧ r.origin = some (adtOrigin e) then (s.setTent 2 i 0).remoteDone r else s
  | none => s

/-- LEARN_COMMIT: the request at the queue's head. [DEDUCED, log entry 28] -/
def State.learnCommit (s : State) : State :=
  match s.lrn.queue with
  | [] => s
  | r :: q =>
    let s := { s with lrn := { s.lrn with queue := q } }.adtFinish
    if r.withdraw then s.learnWithdraw r
    else match s.adtFind (adtKey r.mac r.vid) with
    | some i => s.learnOn r i
    | none => s.learnCreate r

/-! ### Freezes and pruning (R86, R87) -/

/-- One entry in the 10 ms pass. -/
def State.freezeOne (s : State) (i : Nat) : State :=
  let e := s.tent 2 i
  let n := adtFreezeLeft e - 1
  let e := if adtFrozen e then (if n = 0 then setFld (setFld e 160 16 0) 4 1 0 else setFld e 160 16 n) else e
  let old := sext 32 (s.now32 + 2 ^ 32 - adtLastMove e)
  let e := if adtLmValid e ∧ 25500000 ≤ old then setFld e 6 1 0 else e
  s.setTent 2 i e

/-- FREEZE_TICK: the 10 ms pass over the table. -/
def State.freezeTick (s : State) : State :=
  let s := s.adtFinish
  ((s.tentries 2).map (fun x => x.1)).foldl State.freezeOne s

/-- Prune one entry, if its age has reached the limit. -/
def State.pruneOne (s : State) (i : Nat) : State :=
  let e := s.tent 2 i
  if adtValid e && !adtStatic e && decide (s.rf Reg.LRN_AGE 8 12 ≤ (s.tick + 4096 - adtAge e) % 4096) then
    ((s.noteWithdraw e).setTent 2 i 0).stat Reg.LRN_PRUNED 1
  else s

/-- LRN_TICK advances and the sweep runs. -/
def State.ageAdvance (s : State) : State :=
  let s := s.adtFinish
  let s := s.wf Reg.LRN_TICK 0 12 (s.tick + 1)
  let s := { s with lrn := { s.lrn with lastAdv := s.now, nextAdv := s.now + s.rf Reg.LRN_AGE 0 8 * 1000000000 } }
  ((s.tentries 2).map (fun x => x.1)).foldl State.pruneOne s

/-- AGE_TICK: no advance while TICK = 0. -/
def State.ageTick (s : State) : State := if s.rf Reg.LRN_AGE 0 8 = 0 then s else s.ageAdvance

/-- A write of LRN_AGE. [DESIGN CHOICE, log entry 92] -/
def State.lrnAgeWrite (s : State) (m : Nat) (v : Word) : State :=
  let was := s.rf Reg.LRN_AGE 0 8
  let s := s.plainWrite m Reg.LRN_AGE v
  let n := s.rf Reg.LRN_AGE 0 8
  if n = 0 ∨ n = was then s
  else if was = 0 then { s with lrn := { s.lrn with lastAdv := s.now, nextAdv := s.now + n * 1000000000 } }
  else if s.lrn.lastAdv + n * 1000000000 < s.now then s.ageAdvance
  else { s with lrn := { s.lrn with nextAdv := s.lrn.lastAdv + n * 1000000000 } }

/-! ### Anchor messages (R88-R91) -/

/-- Anchor i's receive state: 0 DOWN, 1 SYNC, 2 UP. -/
def State.anchorState (s : State) (i : Nat) : Nat := s.rf (Reg.LRN_ANCHOR_CTRL i) 24 2

/-- An anchor's MAC. -/
def State.anchorMac (s : State) (i : Nat) : Nat := (s.rd (Reg.LRN_ANCHOR_MAC_LO i)).toNat + s.rf (Reg.LRN_ANCHOR_MAC_HI i) 0 16 * 2 ^ 32

/-- Enter a receive state; entering DOWN raises PEER_DOWN unless EN = 0. -/
def State.anchorEnter (s : State) (i st : Nat) : State :=
  let s1 := s.wf (Reg.LRN_ANCHOR_CTRL i) 24 2 st
  if st = 0 ∧ s.rb (Reg.LRN_ANCHOR_CTRL i) 16 then
    (s1.raise .lrn 0 Irq.LRN_PEER_DOWN).logEvt .lrn 0 Irq.LRN_PEER_DOWN 10000000 false
      (toBE 1 i ++ toBE 2 (s.rf (Reg.LRN_ANCHOR_CTRL i) 0 9) ++ toBE 6 (s.anchorMac i))
  else s1

/-- Send one message with its records to anchor i (Table 3-9), unless the exchange is disabled. [DEDUCED, log entry 28] -/
def State.anchorSend (s : State) (typ : Nat) (recs : List (Nat × Nat)) (i : Nat) : State :=
  if !s.rb Reg.LRN_XCH_CFG 0 then s
  else
    let q := (Tab.get (fun _ => 0) s.lrn.txSeq i + 1) % 2 ^ 32
    let s := { s with lrn := { s.lrn with txSeq := Tab.set (fun _ => 0) s.lrn.txSeq i q } }
    let body := recs.flatMap (fun x => toBE 6 x.1 ++ toBE 2 x.2)
    s.present 25 0 false (toBE 6 (s.anchorMac i) ++ toBE 6 s.devMac ++ toBE 2 0x88B5 ++ toBE 1 3 ++ toBE 1 1 ++ toBE 1 typ ++
      toBE 1 recs.length ++ toBE 2 (s.rf Reg.VLT_NODE 0 9) ++ toBE 4 q ++ toBE 2 0 ++ body)

/-- Lists of at most 64 records; one empty list for no records when `empty`. [DEDUCED, log entry 28] -/
def batches (empty : Bool) : Nat → List (Nat × Nat) → List (List (Nat × Nat))
  | 0, _ => []
  | n + 1, l => if l.isEmpty then (if empty then [[]] else []) else l.take 64 :: batches false n (l.drop 64)

/-- The enabled anchors. -/
def State.anchors (s : State) : List Nat := (List.range 16).filter (fun i => s.rb (Reg.LRN_ANCHOR_CTRL i) 16)

/-- An address has a local dynamic entry: REMOTE = 0 and STATIC = 0. -/
def State.isLocal (s : State) (x : Nat × Nat) : Bool :=
  match s.adtFind (adtKey x.1 x.2) with
  | some i => !adtStatic (s.tent 2 i) && !adtRemote (s.tent 2 i)
  | none => s.lrn.moves.any fun w => match w with | .put _ e => decide (adtKeyOf e = adtKey x.1 x.2) && !adtRemote e | _ => false

/-- ANCHOR_BATCH: a period ends, or 64 records are pending. [DEDUCED, log entry 28] -/
def State.anchorBatch (s : State) : State :=
  if !s.rb Reg.LRN_XCH_CFG 0 then s
  else
    let ann := s.lrn.annPend.filter s.isLocal
    let wds := s.lrn.wdPend
    let tick := s.tick
    let mark := fun (t : Tab Nat) (x : Nat × Nat) => Tab.set (fun _ => 0) t (adtKey x.1 x.2) (tick + 1)
    let s := { s with lrn := { s.lrn with annPend := [], wdPend := [], lastAnn := ann.foldl mark s.lrn.lastAnn } }
    s.anchors.foldl (fun s i =>
      let s := (batches false (wds.length + 1) wds).foldl (fun s l => s.anchorSend 2 l i) s
      (batches wds.isEmpty (ann.length + 1) ann).foldl (fun s l => s.anchorSend 1 l i) s) s

/-- The local dynamic entries; of one held twice while it is moved, one (R79). -/
def State.localEntries (s : State) : List (Nat × Nat) :=
  (((s.tentries 2).filter (fun x => adtValid x.2 && !adtStatic x.2 && !adtRemote x.2)).map (fun x => (adtMac x.2, adtVid x.2))).eraseDups

/-- Answer a SYNC_REQ: the full table in SYNC_DATA messages, then SYNC_END. -/
def State.anchorFull (s : State) (i : Nat) : State :=
  let l := s.localEntries
  ((batches false (l.length + 1) l).foldl (fun s l => s.anchorSend 4 l i) s).anchorSend 5 [] i

/-- The records of a message: at most COUNT, and only those wholly present. -/
def anchorRecs : Nat → List Byte → List (Nat × Nat)
  | 0, _ => []
  | n + 1, b => if b.length < 8 then [] else (beAt b 0 6, beAt b 6 2 % 4096) :: anchorRecs n (b.drop 8)

/-- The anchor entry a message is accepted for (R89). [DESIGN CHOICE, log entry 92] -/
def State.anchorOf (s : State) (smac : Nat) (b : List Byte) : Option Nat :=
  if s.rb Reg.LRN_XCH_CFG 0 ∧ 12 ≤ b.length ∧ beAt b 3 1 ≤ 64 then
    s.anchors.find? (fun i => decide (s.rf (Reg.LRN_ANCHOR_CTRL i) 0 9 = beAt b 4 2) && decide (s.anchorMac i = smac))
  else none

/-- A message of TYPE `typ` received on port p: dropped when its selector, version or type is another, refused and counted when no
anchor is its sender, else `k` runs for the anchor. [DEDUCED, log entry 28] -/
def State.anchorRx (s : State) (typ smac : Nat) (b : List Byte) (k : Nat → State → State) : State :=
  if beAt b 0 1 ≠ 3 ∨ beAt b 1 1 ≠ 1 ∨ beAt b 2 1 ≠ typ then s
  else
    match s.anchorOf smac b with
    | some i => k i s
    | none => (s.evt Reg.LRN_ANCHOR_REJ).raise .lrn 0 Irq.LRN_ANCHOR_REJ

/-- The records of a message enter the learn queue. -/
def State.anchorApply (s : State) (p : Nat) (withdraw : Bool) (b : List Byte) : State :=
  (anchorRecs (beAt b 3 1) (b.drop 12)).foldl (fun s x => s.learnPush ⟨x.1, x.2, p, some (beAt b 4 2), withdraw⟩) s

/-- A message in DOWN of a type other than SYNC_REQ. -/
def State.anchorHello (s : State) (i : Nat) : State := (s.anchorSend 3 [] i).anchorEnter i 1

/-- ANNOUNCE or WITHDRAW (Table 3-10). -/
def State.anchorData (s : State) (p : Nat) (withdraw : Bool) (b : List Byte) (i : Nat) : State :=
  match s.anchorState i with
  | 0 => s.anchorHello i
  | 1 => s.anchorApply p withdraw b
  | _ =>
    let q := beAt b 6 4
    let s1 := s.anchorApply p withdraw b
    if q = (s.rd (Reg.LRN_ANCHOR_RX_SEQ i)).toNat then s1.wr (Reg.LRN_ANCHOR_RX_SEQ i) (wd (q + 1))
    else
      let s2 := ((s1.evt Reg.LRN_SEQ_GAP).raise .lrn 0 Irq.LRN_SEQ_GAP).logEvt .lrn 0 Irq.LRN_SEQ_GAP 10000000 false
        (toBE 1 i ++ toBE 2 (beAt b 4 2) ++ toBE 1 p ++ toBE 6 (s.anchorMac i))
      (s2.anchorSend 3 [] i).anchorEnter i 1

/-- SYNC_REQ. -/
def State.anchorSyncReq (s : State) (i : Nat) : State :=
  if s.anchorState i = 0 then ((s.anchorFull i).anchorSend 3 [] i).anchorEnter i 1 else s.anchorFull i

/-- SYNC_DATA: its records are applied in SYNC; in UP it is an input that Table 3-10 does not list (R14). -/
def State.anchorSyncData (s : State) (p : Nat) (b : List Byte) (i : Nat) : State :=
  match s.anchorState i with
  | 0 => s.anchorHello i
  | 1 => s.anchorApply p false b
  | _ => s

/-- SYNC_END. -/
def State.anchorSyncEnd (s : State) (b : List Byte) (i : Nat) : State :=
  match s.anchorState i with
  | 0 => s.anchorHello i
  | 1 => (s.wr (Reg.LRN_ANCHOR_RX_SEQ i) (wd (beAt b 6 4 + 1))).anchorEnter i 2
  | _ => s

/-- The silence timer of anchor i expires. -/
def State.anchorSilence (s : State) (i : Nat) : State := if s.anchorState i = 0 then s else s.anchorEnter i 0

/-- A message of the anchor exchange received on port p from MAC address `smac`, `b` from its SELECTOR: Table 3-9's TYPE names it. [DESIGN CHOICE, log entry 90] -/
def State.anchorMsg (s : State) (p smac : Nat) (b : List Byte) : State :=
  match beAt b 2 1 with
  | 1 => s.anchorRx 1 smac b fun i s => s.anchorData p false b i
  | 2 => s.anchorRx 2 smac b fun i s => s.anchorData p true b i
  | 3 => s.anchorRx 3 smac b fun i s => s.anchorSyncReq i
  | 4 => s.anchorRx 4 smac b fun i s => s.anchorSyncData p b i
  | 5 => s.anchorRx 5 smac b fun i s => s.anchorSyncEnd b i
  | _ => s

/-- A write of LRN_ANCHOR_CTRL[i]: EN written 0 moves the peer to DOWN. -/
def State.anchorCtrlWrite (s : State) (m i : Nat) (v : Word) : State :=
  let s := s.plainWrite m (Reg.LRN_ANCHOR_CTRL i) v
  if s.rb (Reg.LRN_ANCHOR_CTRL i) 16 then s else s.anchorEnter i 0

end Sys2Proof.Machine
end

