-- ==== Sys2Proof/Machine/Fre.lean ====
section
/-! DEFINITION. FRER: sequence generation and recovery (R176-R181), with the algorithms of IEEE 802.1CB. -/

namespace Sys2Proof.Machine

/-- A function. -/
def State.freFn (s : State) (i : Nat) : FreFn := Tab.get (fun _ => FreFn.reset) s.fre i

/-- Replace a function. -/
def State.setFre (s : State) (i : Nat) (f : FreFn) : State := { s with fre := Tab.set (fun _ => FreFn.reset) s.fre i f }

def FreFn.en (f : FreFn) : Bool := bit f.d0 0
def FreFn.recovery (f : FreFn) : Bool := bit f.d0 1
def FreFn.isMatch (f : FreFn) : Bool := bit f.d0 2
def FreFn.takeNoSeq (f : FreFn) : Bool := bit f.d0 3
def FreFn.latentEn (f : FreFn) : Bool := bit f.d0 4
def FreFn.histLen (f : FreFn) : Nat := fld f.d0 8 6
def FreFn.tagPorts (f : FreFn) : Nat := fld f.d1 0 26

/-- The sequence state after a reset: number 0 of a generation function; RecovSeqNum 65,535, no history and TAKE_ANY of a recovery
function (IEEE 802.1CB). [PRESUMED, log entry 33] -/
def FreFn.resetSeq (f : FreFn) : FreFn := { f with seq := if f.recovery then 65535 else 0, takeAny := true, hist := 0 }

/-- Reset the sequence state of function i, counting the reset of a recovery function. -/
def State.freReset (s : State) (i : Nat) : State :=
  let f := s.freFn i
  let s := s.setFre i f.resetSeq
  if f.recovery then s.evt (itemKey i Reg.FRE_RESETS) else s

/-- seq - RecovSeqNum as a signed difference. [PRESUMED, log entry 33] -/
def seqDelta (seq recov : Nat) : Int := sext 16 (seq + 65536 - recov)

/-- Advance the history by `n` numbers, the last of them taken; answers the numbers that leave it never received. [PRESUMED, log entry 33] -/
def histShift (len : Nat) : Nat → Nat → Nat × Nat
  | 0, h => (0, h)
  | n + 1, h =>
    let lost := if h.testBit (len - 1) then 0 else 1
    let (l, h) := histShift len n (h * 2 % 2 ^ len + b2n (n = 0))
    (lost + l, h)

/-- Recovery of a frame by its sequence number: does it pass? (R179). [PRESUMED, log entry 33] -/
def State.freRecover (s : State) (i : Nat) (rtag : Option Nat) : Bool × State :=
  let f := s.freFn i
  let pass := fun (s : State) => (true, s.stat (itemKey i Reg.FRE_PASSED) 1)
  match rtag with
  | none => if f.takeNoSeq then pass s else (false, s.stat (itemKey i Reg.FRE_TAGLESS) 1)
  | some q =>
    let d := seqDelta q f.seq
    if f.takeAny then pass (s.setFre i { f with takeAny := false, seq := q, hist := 1 })
    else if f.isMatch then
      if d = 0 then (false, s.stat (itemKey i Reg.FRE_DISCARDED) 1)
      else
        let s := if d = 1 then s else s.stat (itemKey i Reg.FRE_OOO) 1
        pass (s.setFre i { f with seq := q })
    else if (f.histLen : Int) ≤ d ∨ d ≤ -(f.histLen : Int) then
      (false, (s.stat (itemKey i Reg.FRE_ROGUE) 1).raise .fre 0 Irq.FRE_ROGUE)
    else if d ≤ 0 then
      if f.hist.testBit (-d).toNat then (false, s.stat (itemKey i Reg.FRE_DISCARDED) 1)
      else pass ((s.setFre i { f with hist := f.hist ||| 2 ^ (-d).toNat }).stat (itemKey i Reg.FRE_OOO) 1)
    else
      let s := if d = 1 then s else s.stat (itemKey i Reg.FRE_OOO) 1
      let (lost, h) := histShift f.histLen d.toNat f.hist
      pass ((s.setFre i { f with hist := h, seq := q }).stat (itemKey i Reg.FRE_LOST) lost)

/-- Stage 6 of a frame whose route names function i: none when it is discarded, else its sequence number and the mark a bad verdict
clears (R178-R180). [PRESUMED, log entry 33] -/
def State.freStage (s : State) (i : Nat) (rtag : Option Nat) : Option (Option Nat × Option (Nat × Nat)) × State :=
  let f := s.freFn i
  if !f.en then (some (rtag, none), s)
  else if f.recovery then
    match s.freRecover i rtag with
    | (true, s) => (some (rtag, rtag.map (fun q => (i, q))), s)
    | (false, s) => (none, s)
  else (some (some f.seq, none), (s.setFre i { f with seq := (f.seq + 1) % 65536 }).stat (itemKey i Reg.FRE_PASSED) 1)

/-- The mark of a frame with a bad verdict is cleared (R180). -/
def State.freUntake (s : State) (taken : Option (Nat × Nat)) : State :=
  match taken with
  | none => s
  | some (i, q) =>
    let f := s.freFn i
    if !f.en ∨ !f.recovery ∨ f.takeAny then s
    else if f.isMatch then if f.seq = q then s.setFre i { f with seq := (q + 65535) % 65536 } else s
    else
      let d := seqDelta f.seq q
      if 0 ≤ d ∧ d < (f.histLen : Int) ∧ f.hist.testBit d.toNat then s.setFre i { f with hist := f.hist - 2 ^ d.toNat } else s

/-- A copy as port `p` sends it: with or without its R-TAG (R178, R179). -/
def State.freCopy (s : State) (frer : Option Nat) (seq : Option Nat) (p : Nat) (b : List Byte) : List Byte :=
  match frer with
  | none => b
  | some i =>
    let f := s.freFn i
    if !f.en then b
    else if f.tagPorts.testBit p then
      (match seq with
       | some n => if f.recovery then b else putRtag n b
       | none => b)
    else dropRtag b

/-- The fields of an enabled function are in range (Table 6-7). -/
def FreFn.inRange (f : FreFn) : Bool :=
  decide (2 ≤ f.histLen) && decide (f.histLen ≤ 32) && decide (1 ≤ fld f.d0 16 16) && decide (1 ≤ fld f.d2 0 16) &&
  decide (2 ≤ fld f.d2 24 3) && decide (fld f.d2 24 3 ≤ 4) && decide (1 ≤ fld f.d3 0 16)

/-- APPLY of master m (R181). -/
def State.freApply (s : State) (m : Nat) : State :=
  let i := s.rf (bankKey m Reg.FRE_SEL) 0 8
  let d := fun k => s.rd (bankKey m (Reg.FRE_DATA k))
  let old := s.freFn i
  let f : FreFn := { old with d0 := d 0 &&& 0xFFFF3F1F, d1 := d 1 &&& 0x03FFFFFF, d2 := d 2 &&& 0x07FFFFFF, d3 := d 3 &&& 0xFFFF }
  if f.en ∧ !f.inRange then (s.evt Reg.FRE_REJ).raise .fre 0 Irq.FRE_REJ
  else
    let s := s.setFre i f
    if f.recovery ≠ old.recovery ∨ f.isMatch ≠ old.isMatch ∨ (f.en ∧ !old.en) then s.freReset i else s

/-- LOAD of master m. -/
def State.freLoad (s : State) (m : Nat) : State :=
  let f := s.freFn (s.rf (bankKey m Reg.FRE_SEL) 0 8)
  (((s.wr (bankKey m (Reg.FRE_DATA 0)) f.d0).wr (bankKey m (Reg.FRE_DATA 1)) f.d1).wr (bankKey m (Reg.FRE_DATA 2)) f.d2).wr
    (bankKey m (Reg.FRE_DATA 3)) f.d3

/-- A write of FRE_CMD. -/
def State.freCmd (s : State) (m : Nat) (v : Word) : State :=
  let s := if bit v 0 then s.freApply m else s
  let s := if bit v 1 then s.freLoad m else s
  if bit v 2 then s.freReset (s.rf (bankKey m Reg.FRE_SEL) 0 8) else s

/-- RESET_MS passes without a frame: a recovery function resets (R179). -/
def State.freTimeout (s : State) (i : Nat) : State :=
  let f := s.freFn i
  if f.en ∧ f.recovery ∧ !f.takeAny then s.freReset i else s

/-- Passed × (paths - 1) - discarded of a function. -/
def State.freLatentSum (s : State) (i : Nat) : Int :=
  ((s.rd64 (itemKey i Reg.FRE_PASSED) * (fld (s.freFn i).d2 24 3 - 1) : Nat) : Int) - (s.rd64 (itemKey i Reg.FRE_DISCARDED) : Nat)

/-- The latent error test (IEEE 802.1CB). -/
def State.freLatent (s : State) (i : Nat) : State :=
  let f := s.freFn i
  if f.en ∧ f.recovery ∧ f.latentEn ∧ ((fld f.d2 16 8 : Nat) : Int) < absI (f.latBase - s.freLatentSum i) then
    ((s.evt (itemKey i Reg.FRE_LATENT)).raise .fre 0 Irq.FRE_LATENT).logEvt .fre 0 Irq.FRE_LATENT 1000000000 false (toBE 1 i) i
  else s

/-- The latent error reset (IEEE 802.1CB). -/
def State.freLatentReset (s : State) (i : Nat) : State :=
  let f := s.freFn i
  if f.en ∧ f.recovery ∧ f.latentEn then s.setFre i { f with latBase := s.freLatentSum i } else s

end Sys2Proof.Machine
end

