-- ==== Sys2Proof/Machine/Bus.lean ====
section
/-! DEFINITION. The bus frame form (Table 8-2): a 16-byte header of four words, most significant byte first, then the data. -/

namespace Sys2Proof.Machine

/-- Word k of a bus frame's header: 0 SOF_TS, 1 ID, 2 AF, 3 FORM. -/
def busWord (b : List Byte) (k : Nat) : Word := wd (beAt b (4 * k) 4)

def busId (b : List Byte) : Nat := fld (busWord b 1) 0 29
def busAuth (b : List Byte) : Nat := fld (busWord b 1) 30 2
def busAf (b : List Byte) : Nat := (busWord b 2).toNat
def busDlen (b : List Byte) : Nat := fld (busWord b 3) 0 12
def busDlc (b : List Byte) : Nat := fld (busWord b 3) 12 4
/-- FMT: 0 CC, 1 FD, 2 XL, 3 LIN. -/
def busFmt (b : List Byte) : Nat := fld (busWord b 3) 16 2
def busIde (b : List Byte) : Bool := bit (busWord b 3) 18
def busRtr (b : List Byte) : Bool := bit (busWord b 3) 19
/-- The data bytes. -/
def busData (b : List Byte) : List Byte := b.drop 16

/-- A bus frame from its header words and data. -/
def busMk (ts id af form : Word) (data : List Byte) : List Byte :=
  toBE 4 ts.toNat ++ toBE 4 id.toNat ++ toBE 4 af.toNat ++ toBE 4 form.toNat ++ data

/-- The frame with another AUTH value. -/
def busSetAuth (b : List Byte) (a : Nat) : List Byte :=
  busMk (busWord b 0) (setFld (busWord b 1) 30 2 a) (busWord b 2) (busWord b 3) (busData b)

/-- The DLC of a data length of an FD frame (ISO 11898-1), or of a CC frame. -/
def dlcOf (n : Nat) : Nat :=
  if n ≤ 8 then n else if n ≤ 12 then 9 else if n ≤ 16 then 10 else if n ≤ 20 then 11 else if n ≤ 24 then 12
  else if n ≤ 32 then 13 else if n ≤ 48 then 14 else 15

/-- The lengths a format can carry (R256): CC 0-8, FD 0-8, 12, 16, 20, 24, 32, 48, 64, XL 1-2,048, LIN 1-8. -/
def fmtAllows (fmt n : Nat) : Bool :=
  match fmt with
  | 0 => decide (n ≤ 8)
  | 1 => decide (n ≤ 8) || [12, 16, 20, 24, 32, 48, 64].contains n
  | 2 => decide (1 ≤ n) && decide (n ≤ 2048)
  | _ => decide (1 ≤ n) && decide (n ≤ 8)

/-- The frame with other data: DLEN, and for CC and FD the DLC, follow it. -/
def busSetData (b : List Byte) (d : List Byte) : List Byte :=
  let f := setFld (busWord b 3) 0 12 d.length
  let f := if busFmt b < 2 then setFld f 12 4 (dlcOf d.length) else f
  busMk (busWord b 0) (busWord b 1) (busWord b 2) f d

/-- The identifier that distinguishes frames of a channel: XL 11 bits, otherwise 29. -/
def busKeyId (b : List Byte) : Nat := if busFmt b = 2 then busId b % 2048 else busId b

/-- The frame in the register-buffer form: the four header words and up to 64 data bytes, byte 4k in [7:0] of data word k,
FORM.TRUNC set when data beyond 64 bytes is not held (R234). -/
def busBuffer (b : List Byte) : List Word :=
  let f := setFld (busWord b 3) 23 1 (b2n (64 < (busData b).length))
  [busWord b 0, busWord b 1, busWord b 2, f] ++ wordsOf 16 (busData b)

/-- The 64-bit ingress timestamp of a bus frame (R228): the high word is the FRC's, less 1 when SOF_TS exceeds its low word. -/
def State.busStamp (s : State) (sof : Word) : Nat :=
  let hi := s.now / 2 ^ 32
  (if s.now % 2 ^ 32 < sof.toNat then hi + 2 ^ 32 - 1 else hi) % 2 ^ 32 * 2 ^ 32 + sof.toNat

end Sys2Proof.Machine
end

