-- ==== Sys2Proof/Machine/Line.lean ====
section
/-! DEFINITION. Line authentication (chapter 12): MACsec secure associations, the judgement of received frames, protection of
sent ones, and the CAN authentication unit. -/

namespace Sys2Proof.Machine

/-! ### Fields of a secure association (Table 12-1) -/

def Sa.rx (a : Sa) : Bool := bit a.d0 0
def Sa.rxsc (a : Sa) : Nat := fld a.d0 1 3
def Sa.an (a : Sa) : Nat := fld a.d0 4 2
def Sa.xpn (a : Sa) : Bool := bit a.d0 7
def Sa.aes256 (a : Sa) : Bool := bit a.d0 6
def Sa.conf (a : Sa) : Bool := bit a.d0 8
def Sa.slot (a : Sa) : Nat := fld a.d0 16 8

/-- Ports with an LCE: 0-15 and 20-22 (R326). -/
def hasLce (p : Nat) : Bool := decide (p < 16) || (decide (20 ≤ p) && decide (p < 23))

/-- A refused LCE command: counted in LCE_REJ and raised. -/
def State.lceRej (s : State) (p : Nat) : State := (s.evt (Reg.LCE_REJ p)).raise .lce p Irq.LCE_REJ

/-- A record the counter writer is asked for (R318). [DEDUCED, log entry 58] -/
def State.reserve (s : State) (kind index value : Nat) : State :=
  { s with vlt := { s.vlt with rsvq := s.vlt.rsvq ++ [ctrRec kind index value] } }

/-- The pending requests of a counter whose object is new are withdrawn: they were its predecessor's. [DEDUCED, log entry 58] -/
def State.unreserve (s : State) (kind index : Nat) : State :=
  { s with vlt := { s.vlt with rsvq := s.vlt.rsvq.filter (fun r => decide (r.kind ≠ kind) || decide (r.index ≠ index)) } }

/-- Block size of PN reservations (R333). [DEDUCED, log entry 58] -/
def pnBlock : Nat := 0x100000
/-- Block size of CAU transmit freshness reservations (R340). [DEDUCED, log entry 58] -/
def fvBlock : Nat := 0x10000

/-- The end of the block that follows the one `v` lies in. -/
def nextBlockEnd (b v : Nat) : Nat := (v / b + 2) * b

/-- Clear the statistics of SA n, which are kept on the page of its port (R330). -/
def State.saClear (s : State) (n p : Nat) : State :=
  [Reg.LCE_SA_OK p, Reg.LCE_SA_INVALID p, Reg.LCE_SA_LATE p, Reg.LCE_SA_TX p].foldl (fun s a => s.wr64 (itemKey n a) 0) s

/-- APPLY of the data words of master m on port p's page (R329). [DEDUCED, log entry 57] -/
def State.saApply (s : State) (m p : Nat) : State :=
  let n := s.rf (bankKey m (Reg.LCE_SA_SEL p)) 0 9
  let d := fun k => s.rd (bankKey m (Reg.LCE_SA_DATA p k))
  let pn := (d 5).toNat + (d 6).toNat * 2 ^ 32
  let a : Sa := ⟨1, p, d 0, d 1, d 2, d 3, d 4, pn, (pn / pnBlock + 1) * pnBlock, false, false, none⟩
  let clash := s.auth.sas.any (fun (k, b) => decide (k ≠ n) && decide (b.state ≠ 0) && decide (b.port = p) &&
    decide (b.rx = a.rx) && decide (b.an = a.an) && (!a.rx || decide (b.rxsc = a.rxsc)))
  if (s.sa n).state ≠ 0 ∨ pn = 0 ∨ (!a.xpn ∧ d 6 ≠ 0) ∨ clash then s.lceRej p
  else
    let s := s.setSa n a
    if a.rx then s else ((s.unreserve 2 n).ringAppend (ctrRec 2 n a.rsvEnd)).reserve 2 n (nextBlockEnd pnBlock pn)

/-- A frame is being received under SA n. -/
def State.saBusy (s : State) (n : Nat) : Bool :=
  s.bsn.arriving.any (fun x => match x.2 with | some a => (match a.sa with | some (k, _) => decide (k = n) | none => false) | none => false)

/-- SA n is FREE again. [DEDUCED, log entry 57] -/
def State.saFree (s : State) (n : Nat) : State := (s.setSa n Sa.free).saClear n (s.sa n).port

/-- A frame received under an SA has ended: one that RETIRE waits for it to leave is FREE now (R330). [DEDUCED, log entry 57] -/
def State.saEnded (s : State) (sa : Option (Nat × Nat)) : State :=
  match sa with
  | some (n, _) => if (s.sa n).retire ∧ !s.saBusy n then s.saFree n else s
  | none => s

/-- RETIRE: an SA returns to FREE, once the frames in progress under it have ended (R330). -/
def State.saRetire (s : State) (m p : Nat) : State :=
  let n := s.rf (bankKey m (Reg.LCE_SA_SEL p)) 0 9
  if (s.sa n).state ≠ 0 ∧ s.saBusy n then s.setSa n { s.sa n with retire := true } else s.saFree n

/-- LOAD: the SA and its current PN into the master's data words (R330). -/
def State.saLoad (s : State) (m p : Nat) : State :=
  let a := s.sa (s.rf (bankKey m (Reg.LCE_SA_SEL p)) 0 9)
  let put := fun (s : State) (k : Nat) (v : Word) => s.wr (bankKey m (Reg.LCE_SA_DATA p k)) v
  put (put (put (put (put (put (put (put s 0 a.d0) 1 a.d1) 2 a.d2) 3 a.d3) 4 a.d4) 5 (wd a.pn)) 6 (wd (a.pn >>> 32))) 7 0

/-- A write of LCE_SA_CMD: each bit set performs its command. -/
def State.saCmd (s : State) (m p : Nat) (v : Word) : State :=
  let s := if bit v 0 then s.saApply m p else s
  let s := if bit v 1 then s.saRetire m p else s
  if bit v 2 then s.saLoad m p else s

/-- The Vault answers the key request of SA n (R312, R329). [DEDUCED, log entry 57] -/
def State.saKeyLoad (s : State) (n : Nat) : State :=
  let a := s.sa n
  if a.state ≠ 1 then s
  else
    let c := s.mainCell a.slot
    match s.keyRefusal c (if a.rx then 5 else 4) (.engine 48) [if a.aes256 then 2 else 1] with
    | none => s.setSa n { a with state := 2, key := some ⟨a.slot, c.gen, c.alg, c.mat⟩ }
    | some _ =>
      ((s.countRefused.setSa n { a with state := 5 }).raise .lce a.port Irq.LCE_KEY_FAIL).logEvt .lce a.port Irq.LCE_KEY_FAIL
        1000000000 false (toBE 1 a.port ++ toBE 2 n) n

/-- The Vault answers the key request of CAU entry n: ACTIVE when the key is loaded, NOKEY while it is refused (R339). [DEDUCED, log entry 57] -/
def State.cauKeyLoad (s : State) (n : Nat) : State :=
  let e := s.cauEnt n
  if e.state = 2 then
    if s.cauRefused e then s.countRefused.cauEvent n Irq.CAU_NOKEY
    else s.setCau n { e with state := 1 }
  else s

/-! ### MACsec frames (R327, R331-R335) -/

/-- The material of an SA's key copy. -/
def Sa.mat (a : Sa) : List Byte := match a.key with | some k => k.mat | none => []

/-- Bytewise exclusive or. -/
def xorBytes (a b : List Byte) : List Byte := List.zipWith (· ^^^ ·) a b

/-- The GCM IV of a frame under an SA: SCI and PN, or SSCI and PN exclusive-or SALT for the XPN suites. [PRESUMED, log entry 56] -/
def Sa.iv (a : Sa) (sci pn : Nat) : List Byte :=
  if a.xpn then xorBytes (toBE 4 a.d1.toNat ++ toBE 8 pn) (toBE 4 a.d4.toNat ++ toBE 4 a.d3.toNat ++ toBE 4 a.d2.toNat)
  else toBE 8 sci ++ toBE 4 pn

/-- What the LCE makes of a received frame: passed as it is, dropped, or received under an SA with the frame's PN, its plaintext
and whether its tag is good. -/
inductive LceRx where
  | pass
  | drop
  | under (sa pn : Nat) (plain : List Byte) (ok : Bool)
deriving DecidableEq, Repr

/-- A frame bypassed under R328. -/
def State.lceBypass (s : State) (p : Nat) (b : List Byte) : Bool :=
  s.rb (Reg.LCE_PORT_CFG p) 4 && (decide (beAt b 12 2 = 0x888E) || decide (beAt b 0 6 = 0x0180C200000E))

/-- The 64-bit PN of an XPN frame, recovered from the lowest acceptable PN (IEEE 802.1AE-2018). [PRESUMED, log entry 56] -/
def recoverPn (lowest pn : Nat) : Nat :=
  let hi := lowest / 2 ^ 32
  (if lowest.testBit 31 && !pn.testBit 31 then hi + 1 else hi) * 2 ^ 32 + pn

/-- The receive channel's SCI. -/
def State.rxSci (s : State) (p k : Nat) : Nat := (s.rd (Reg.LCE_RXSC_LO p k)).toNat + (s.rd (Reg.LCE_RXSC_HI p k)).toNat * 2 ^ 32

/-- Plaintext and tag check of a frame under an SA: `h` bytes of SecTAG, `sl` the SL field. -/
def Sa.open (a : Sa) (b : List Byte) (sci pn h sl : Nat) (enc : Bool) : List Byte × Bool :=
  let body := b.drop (12 + h)
  let n := if sl = 0 then body.length - 16 else sl
  let data := body.take n
  let icv := (body.drop n).take 16
  let aad := b.take (12 + h)
  let iv := a.iv sci pn
  let whole := decide (n + 16 ≤ body.length)
  if enc then (b.take 12 ++ fit n (Config.aesGctr a.mat iv data), whole && decide (fit 16 (Config.aesGcmTag a.mat iv aad data) = icv))
  else (b.take 12 ++ data, whole && decide (fit 16 (Config.aesGcmTag a.mat iv (aad ++ data) []) = icv))

/-- The receive judgement of Table 12-3 on port p. [PRESUMED, log entry 56] -/
def State.lceRx (s : State) (p : Nat) (b : List Byte) : LceRx × State :=
  if !hasLce p || s.dmaPort p then (.pass, s)
  else if s.lceBypass p b then (.pass, s.stat (Reg.LCE_RX_BYPASS p) 1)
  else if !s.rb (Reg.LCE_PORT_CFG p) 1 then (.pass, s)
  else if beAt b 12 2 ≠ 0x88E5 then
    if s.rb (Reg.LCE_PORT_CFG p) 2 then (.drop, s.evt (Reg.LCE_RX_REQUIRED p)) else (.pass, s.stat (Reg.LCE_RX_UNPROT p) 1)
  else
    let tci := beAt b 14 1
    let sl := beAt b 15 1
    let pn32 := beAt b 16 4
    if tci.testBit 7 ∨ (tci.testBit 6 ∧ tci.testBit 5) ∨ 48 ≤ sl ∨ pn32 = 0 then (.drop, s.evt (Reg.LCE_BAD_TAG p))
    else
      let sci := if tci.testBit 5 then beAt b 20 8 else if tci.testBit 6 then beAt b 6 6 * 65536 + 1 else s.rxSci p 0
      match (List.range 8).find? (fun k => s.rb (Reg.LCE_RXSC_EN p) k && decide (s.rxSci p k = sci)) with
      | none => (.drop, s.evt (Reg.LCE_UNKNOWN_SCI p))
      | some k =>
        match s.auth.sas.find? (fun (_, a) => decide (a.state = 2) && !a.retire && decide (a.port = p) && a.rx && decide (a.rxsc = k) &&
            decide (a.an = tci % 4)) with
        | none => (.drop, s.evt (Reg.LCE_NOT_USING_SA p))
        | some (n, a) =>
          let pn := if a.xpn then recoverPn a.pn pn32 else pn32
          if s.rb (Reg.LCE_PORT_CFG p) 3 ∧ pn + (s.rd (Reg.LCE_REPLAY_WIN p)).toNat < a.pn then
            (.drop, s.stat (itemKey n (Reg.LCE_SA_LATE p)) 1)
          else
            let (pt, ok) := a.open b sci pn (if tci.testBit 5 then 16 else 8) sl (tci.testBit 3)
            (.under n pn pt ok, s)

/-- The tag verdict of a frame received on port p under SA n with this PN (R335). [PRESUMED, log entry 56] -/
def State.lceVerdict (s : State) (p n pn : Nat) (ok : Bool) : State :=
  let a := s.sa n
  if a.state = 0 ∨ a.port ≠ p then s
  else if ok then (s.setSa n { a with pn := pn + 1 }).stat (itemKey n (Reg.LCE_SA_OK p)) 1
  else ((s.stat (itemKey n (Reg.LCE_SA_INVALID p)) 1).raise .lce p Irq.LCE_TAG_FAIL).logEvt .lce p Irq.LCE_TAG_FAIL
    1000000000 false (toBE 1 p ++ toBE 2 n) n

/-- The last PN of an SA's suite. [PRESUMED, log entry 56] -/
def Sa.lastPn (a : Sa) : Nat := if a.xpn then 2 ^ 64 - 1 else 2 ^ 32 - 1

/-- A transmit SA after it has issued its PN: the next PN, its reservation, its warning and its end (R332, R333). [PRESUMED, log entry 56] -/
def State.saIssue (s : State) (p n : Nat) : State :=
  let a := s.sa n
  let next := a.pn + 1
  let s := s.stat (itemKey n (Reg.LCE_SA_TX p)) 1
  let ev := fun (s : State) (i : Nat) => (s.raise .lce p i).logEvt .lce p i 1000000000 false (toBE 1 p ++ toBE 2 n) n
  let high := if a.xpn then decide ((s.rd (Reg.LCE_XPN_WARN p)).toNat ≤ next / 2 ^ 32) else decide ((s.rd (Reg.LCE_PN_WARN p)).toNat ≤ next)
  let last := decide (a.lastPn ≤ a.pn)
  let s := if next % pnBlock = 0 ∧ !last then s.reserve 2 n (nextBlockEnd pnBlock next) else s
  let s := s.setSa n { a with pn := next, warn := a.warn || high, state := if last then 3 else a.state }
  let s := if high && !a.warn then ev s Irq.LCE_PN_WARN else s
  if last then ev s Irq.LCE_PN_EXHAUSTED else s

/-- The transmit SA port p uses: DIR 0 with AN = LCE_TX_AN. -/
def State.txSa (s : State) (p : Nat) : Option (Nat × Sa) :=
  s.auth.sas.find? (fun (_, a) => decide (a.state ≠ 0) && decide (a.port = p) && !a.rx && decide (a.an = s.rf (Reg.LCE_TX_AN p) 0 2))

/-- The protected form of a frame under an SA: SecTAG with SCI, data, ICV (R327). [PRESUMED, log entry 56] -/
def State.protect (s : State) (p : Nat) (a : Sa) (b : List Byte) : List Byte :=
  let sci := s.devMac * 65536 + s.rf (Reg.LCE_PORT_CFG p) 16 16
  let data := b.drop 12
  let tci := 0x20 + (if a.conf then 0x0C else 0) + a.an
  let tag := toBE 2 0x88E5 ++ toBE 1 tci ++ toBE 1 (if data.length < 48 then data.length else 0) ++ toBE 4 a.pn ++ toBE 8 sci
  let aad := b.take 12 ++ tag
  let iv := a.iv sci a.pn
  if a.conf then
    let ct := fit data.length (Config.aesGctr a.mat iv data)
    aad ++ ct ++ fit 16 (Config.aesGcmTag a.mat iv aad ct)
  else aad ++ data ++ fit 16 (Config.aesGcmTag a.mat iv (aad ++ data) [])

/-- Protection of a frame sent on port p (R328, R331-R333): the bytes sent, none when it is dropped at stage 9. [DEDUCED, log entry 57] -/
def State.lceTx (s : State) (p : Nat) (b : List Byte) : Option (List Byte) × State :=
  if !hasLce p || s.dmaPort p || decide (beAt b 12 2 = 0x8808) then (some b, s)
  else if s.lceBypass p b then (some b, s.stat (Reg.LCE_TX_BYPASS p) 1)
  else if !s.rb (Reg.LCE_PORT_CFG p) 0 then (some b, s)
  else
    let noSa := fun (s : State) (sa : List Byte) => ((s.evt (Reg.LCE_TX_NO_SA p)).raise .lce p Irq.LCE_TX_NO_SA).logEvt .lce p
      Irq.LCE_TX_NO_SA 1000000000 false (toBE 1 p ++ sa)
    match s.txSa p with
    | none => (none, noSa s [])
    | some (n, a) =>
      if a.state = 3 then (none, noSa (s.evt (Reg.LCE_TX_EXHAUSTED p)) (toBE 2 n))
      else if a.state ≠ 2 then (none, noSa s (toBE 2 n))
      else if a.rsvEnd ≤ a.pn then (none, s.evt (Reg.LCE_PN_STALL p))
      else (some (s.protect p a b), s.saIssue p n)

/-! ### The CAN authentication unit (R338-R345) -/

def CauEnt.tx (e : CauEnt) : Bool := bit e.w0 0
def CauEnt.ide (e : CauEnt) : Bool := bit e.w0 6
def CauEnt.failAct (e : CauEnt) : Bool := bit e.w0 9
def CauEnt.fvBytes (e : CauEnt) : Nat := fld e.w0 16 3
def CauEnt.macBytes (e : CauEnt) : Nat := fld e.w0 19 5
def CauEnt.dataId (e : CauEnt) : Nat := fld e.w2 0 16
def CauEnt.payLen (e : CauEnt) : Nat := fld e.w2 16 12
def CauEnt.totLen (e : CauEnt) : Nat := fld e.w3 0 12
def CauEnt.pad (e : CauEnt) : Nat := fld e.w3 16 8
def CauEnt.win (e : CauEnt) : Nat := fld e.w4 0 16

/-- A refused CAU command: counted in CAU_REJ and raised. -/
def State.cauRej (s : State) : State := (s.evt Reg.CAU_REJ).raise .cau 0 Irq.CAU_REJ

/-- Two entries name the same identifier of the same channel in the same direction. -/
def CauEnt.same (a b : CauEnt) : Bool :=
  decide (a.tx = b.tx) && decide (a.chan = b.chan) && decide (a.fmt = b.fmt) && decide (a.id = b.id) &&
  (decide (a.fmt = 2) || decide (a.ide = b.ide))

/-- The fields of an entry lie in their ranges and TOTAL_LEN is one its format allows (R339). -/
def CauEnt.ok (e : CauEnt) : Bool :=
  decide (e.chan < 24) && decide (e.fmt < 3) && decide (e.fvBytes ≤ 4) && decide (3 ≤ e.macBytes) && decide (e.macBytes ≤ 16) &&
  decide (e.payLen ≤ 2024) && (e.tx || decide (1 ≤ e.win)) && decide (e.payLen + e.fvBytes + e.macBytes ≤ e.totLen) &&
  fmtAllows e.fmt e.totLen

/-- The freshness value of entry n becomes fv: its warning and its end (R340). -/
def State.cauSetFv (s : State) (n fv : Nat) : State :=
  let e := s.cauEnt n
  let warn := decide ((s.rd Reg.CAU_WARN).toNat ≤ fv)
  let s1 := s.setCau n { e with fv := fv, warn := e.warn || warn, state := if fv = 0xFFFFFFFF then 3 else e.state }
  let s2 := if warn && !e.warn then s1.cauEvent n Irq.CAU_WARN else s1
  if fv = 0xFFFFFFFF then s2.cauEvent n Irq.CAU_EXHAUSTED else s2

/-- APPLY (R339). The key is requested: the entry reads NOKEY until it is loaded. -/
def State.cauApply (s : State) (m : Nat) : State :=
  let n := s.rf (bankKey m Reg.CAU_SEL) 0 11
  let d := fun k => s.rd (bankKey m (Reg.CAU_DATA k))
  let fv := (d 5).toNat
  let e : CauEnt := ⟨2, d 0, d 1, d 2, d 3, d 4, fv, ((fv + 1) / fvBlock + 1) * fvBlock, fv, false⟩
  let clash := s.auth.cau.any (fun (k, b) => decide (k ≠ n) && decide (b.state ≠ 0) && b.same e)
  if (s.cauEnt n).state ≠ 0 ∨ !e.ok ∨ clash then s.cauRej
  else
    let s := s.setCau n e
    let s := if e.tx then ((s.unreserve 3 n).ringAppend (ctrRec 3 n e.rsvEnd)).reserve 3 n (nextBlockEnd fvBlock (fv + 1)) else s.unreserve 4 n
    s.cauSetFv n fv

/-- RETIRE (R339). -/
def State.cauRetire (s : State) (m : Nat) : State := s.setCau (s.rf (bankKey m Reg.CAU_SEL) 0 11) CauEnt.free

/-- LOAD: the entry and its FV into the master's data words. -/
def State.cauLoad (s : State) (m : Nat) : State :=
  let e := s.cauEnt (s.rf (bankKey m Reg.CAU_SEL) 0 11)
  let put := fun (s : State) (k : Nat) (v : Word) => s.wr (bankKey m (Reg.CAU_DATA k)) v
  put (put (put (put (put (put s 0 e.w0) 1 e.w1) 2 e.w2) 3 e.w3) 4 e.w4) 5 (wd e.fv)

/-- A write of CAU_CMD. -/
def State.cauCmd (s : State) (m : Nat) (v : Word) : State :=
  let s := if bit v 0 then s.cauApply m else s
  let s := if bit v 1 then s.cauRetire m else s
  if bit v 2 then s.cauLoad m else s

/-- The entry for a frame on a channel in a direction. -/
def State.cauFind (s : State) (tx : Bool) (ch : Nat) (b : List Byte) : Option (Nat × CauEnt) :=
  s.auth.cau.find? (fun (_, e) => decide (e.state ≠ 0) && decide (e.tx = tx) && decide (e.chan = ch) && decide (e.fmt = busFmt b) &&
    decide (e.id = busKeyId b) && (decide (e.fmt = 2) || decide (e.ide = busIde b)))

/-- reconstruct(tfv, n, last) of R341. -/
def reconstruct (tfv n last : Nat) : Nat :=
  let m := 2 ^ (8 * n)
  let fv := last - last % m + tfv
  if fv ≤ last then fv + m else fv

/-- The authenticator of a payload under an entry and freshness value (R338). -/
def State.cauMac (s : State) (e : CauEnt) (pay : List Byte) (fv : Nat) : List Byte :=
  fit 16 (Config.aesCmac (s.mainCell e.slot).mat (toBE 2 e.dataId ++ pay ++ toBE 4 fv))

/-- The check of R341: the reason it fails (0 none, Table 12-8) and the reconstructed freshness value. -/
def State.cauCheck (s : State) (e : CauEnt) (b : List Byte) : Nat × Nat :=
  let d := busData b
  let tfv := beAt d (e.totLen - e.macBytes - e.fvBytes) e.fvBytes
  let fv := reconstruct tfv e.fvBytes e.fv
  if busDlen b ≠ e.totLen then (1, fv)
  else if e.state ≠ 3 ∧ (fv ≤ e.fv ∨ e.fv + e.win < fv ∨ 0xFFFFFFFF < fv) then (2, fv)
  else if e.state = 2 then (4, fv)
  else if e.state = 3 then (5, fv)
  else if (s.cauMac e (d.take e.payLen) fv).take e.macBytes = d.drop (e.totLen - e.macBytes) then (0, fv)
  else (3, fv)

/-- A failed check: counted under its reason, captured, raised and logged (R342, R346). -/
def State.cauFail (s : State) (n r : Nat) (b : List Byte) : State :=
  let s := s.stat Reg.CAU_RX_FAIL 1
  let s := match r with
    | 1 => s.evt Reg.CAU_FAIL_LEN
    | 2 => s.evt Reg.CAU_FAIL_FRESH
    | 3 => s.evt Reg.CAU_FAIL_MAC
    | 4 => (s.evt Reg.CAU_NOKEY).cauEvent n Irq.CAU_NOKEY
    | _ => (s.evt Reg.CAU_EXHAUSTED).cauEvent n Irq.CAU_EXHAUSTED
  let s := s.wr Reg.CAU_LAST_FAIL (wd (n + r * 0x1000 + fld (busWord b 0) 16 16 * 0x10000))
  s.cauEvent n Irq.CAU_FAIL

/-- The CAU's check of a frame received on a channel (R341, R342): the frame as it is offered, none when it is dropped. -/
def State.cauRx (s : State) (ch : Nat) (b : List Byte) : Option (List Byte) × State :=
  match s.cauFind false ch b with
  | none => (some b, s)
  | some (n, e) =>
    let (r, fv) := s.cauCheck e b
    if r = 0 then (some (busSetAuth b 1), (s.cauSetFv n fv).stat Reg.CAU_RX_OK 1)
    else (if e.failAct then some (busSetAuth b 2) else none, s.cauFail n r b)

/-- The frame of entry e with freshness value fv for a payload (R338). -/
def State.cauBuild (s : State) (e : CauEnt) (b : List Byte) (fv : Nat) : List Byte :=
  let pay := busData b
  let fill := List.replicate (e.totLen - e.fvBytes - e.macBytes - pay.length) (BitVec.ofNat 8 e.pad)
  busSetData b (pay ++ fill ++ toBE e.fvBytes fv ++ (s.cauMac e pay fv).take e.macBytes)

/-- The CAU at a copy linked to a channel's queue (R343, R344): the frame as it is sent, none when the copy is dropped. [DEDUCED, log entry 57] -/
def State.cauTx (s : State) (ch : Nat) (b : List Byte) : Option (List Byte) × State :=
  if busAuth b = 2 then (none, s.evt Reg.CAU_TX_FAILED)
  else
    match s.cauFind true ch b with
    | none => (some b, s)
    | some (n, e) =>
      if busDlen b ≠ e.payLen then (none, (s.evt Reg.CAU_TX_FORM).raise .cau 0 Irq.CAU_TX_FORM)
      else if e.state = 2 then (none, (s.evt Reg.CAU_NOKEY).cauEvent n Irq.CAU_NOKEY)
      else if e.state = 3 then (none, s.evt Reg.CAU_EXHAUSTED)
      else if e.rsvEnd ≤ e.fv + 1 then (none, s.evt Reg.CAU_EXHAUSTED)
      else
        let fv := e.fv + 1
        let s1 := s.cauSetFv n fv
        let s2 := if (fv + 1) % fvBlock = 0 ∧ fv < 0xFFFFFFFF then s1.reserve 3 n (nextBlockEnd fvBlock (fv + 1)) else s1
        (some (s.cauBuild e b fv), s2.stat Reg.CAU_TX_AUTH 1)

/-- CAU_FV_RECORD: each receive value that has changed is recorded (R340). -/
def State.cauRecord (s : State) : State :=
  s.auth.cau.foldl (fun s p =>
    let e := s.cauEnt p.1
    if e.state ≠ 0 ∧ !e.tx ∧ e.fv ≠ e.recorded then (s.setCau p.1 { e with recorded := e.fv }).reserve 4 p.1 e.fv else s) s

end Sys2Proof.Machine
end

