-- ==== Sys2Proof/Machine/Basin.lean ====
section
/-! DEFINITION. The Basin (R93-R112): stored frames and their cells, queues and their charges, admission and release. -/

namespace Sys2Proof.Machine

/-! ### Stored frames -/

/-- A stored frame. -/
def State.frame (s : State) (i : Nat) : Option Frame := Tab.get (fun _ => none) s.bsn.frames i

/-- Replace a stored frame; none removes it. -/
def State.setFrame (s : State) (i : Nat) (f : Option Frame) : State :=
  { s with bsn := { s.bsn with frames := Tab.set (fun _ => none) s.bsn.frames i f } }

/-- The stored frames. -/
def State.stored (s : State) : List Frame := s.bsn.frames.filterMap (fun x => x.2)

/-- L: from the DMAC through the FCS, or the length of a bus frame (R93). [DEDUCED, log entry 21] -/
def Frame.len (f : Frame) : Nat := if f.bus then f.bytes.length else f.bytes.length + 4

/-- The queue of a destination and class (Table 4-2). -/
def queueOf (d tc : Nat) : Nat := if d < 26 then 8 * d + tc else 182 + d

/-- A copy still holds its frame. -/
def Copy.live (c : Copy) : Bool := decide (c.st ≠ .done)

/-! ### Charges (R96, R102, R103) -/

/-- Cells that are neither free nor free to take: those of stored frames, suspects of the Rake, and those a failed link record left
unreachable (R94). -/
def State.heldCells (s : State) : List Nat := s.stored.flatMap (fun f => f.cells) ++ s.bsn.suspects ++ s.bsn.lost

/-- BSN_FREE. [DEDUCED, log entry 35] -/
def State.bsnFree (s : State) : Nat := 49152 - s.heldCells.length

/-- BSN_DESC_FREE. -/
def State.descFree (s : State) : Nat := 98304 - sumN (s.stored.map (fun f => (f.copies.filter Copy.live).length))

/-- USED of a queue. [DEDUCED, log entry 21] -/
def State.used (s : State) (q : Nat) : Nat :=
  sumN ((s.stored.filter (fun f => f.copies.any (fun c => decide (c.q = q) && c.live))).map (fun f => f.cells.length))

def State.quota (s : State) (q : Nat) : Nat := s.rf (Reg.BSN_QCFG q) 0 16
def State.reserved (s : State) (q : Nat) : Nat := s.rf (Reg.BSN_QCFG q) 16 16

/-- The queues whose BSN_QCFG is not at its reset value: the others reserve nothing. -/
def State.setQueues (s : State) : List Nat :=
  s.regs.filterMap fun (k, _) => if 0x20100 ≤ k ∧ k < 0x204C0 then some ((k - 0x20100) / 4) else none

/-- BSN_RSV_SUM. -/
def State.rsvSum (s : State) : Nat := sumN (s.setQueues.map s.reserved)

/-- BSN_HEADROOM. -/
def State.headroom (s : State) : Nat := s.rf Reg.BSN_HEADROOM 0 16

/-- SHARED_FREE. -/
def State.sharedFree (s : State) : Nat :=
  s.bsnFree - s.headroom - sumN (s.setQueues.map (fun q => s.reserved q - s.used q))

/-- OVER_QUOTA of a queue. -/
def State.overQuota (s : State) (q : Nat) : Bool := s.rb (Reg.BSN_QSTAT q) 16

/-- OVER_QUOTA sets when USED exceeds QUOTA and clears when USED falls below it. [DEDUCED, log entry 35] -/
def State.quotaScan (s : State) (q : Nat) : State :=
  if s.quota q < s.used q then
    if s.overQuota q then s
    else ((s.wf (Reg.BSN_QSTAT q) 16 1 1).raise .bsn 0 Irq.BSN_OVER_QUOTA).logEvt .bsn 0 Irq.BSN_OVER_QUOTA 10000000 false (toBE 1 q)
  else if s.used q < s.quota q ∧ s.overQuota q then s.wf (Reg.BSN_QSTAT q) 16 1 0
  else s

/-- The reason of a dropped copy is captured (R102). -/
def State.bsnCap (s : State) (d reason : Nat) (handle : Option Nat) : State :=
  s.wr Reg.BSN_DROP_CAP (wd (d + reason * 256 + (handle.getD 0) * 65536))

/-- A copy for destination d is dropped by the Basin: counted and captured. -/
def State.bsnDrop (s : State) (d reason : Nat) (handle : Option Nat) : State :=
  (s.stat (Reg.BSN_DROP d) 1).bsnCap d reason handle

/-- A firing of Eddy rule i that is not sent is counted (R120). -/
def State.eddyLost (s : State) (i : Nat) : State := (s.evt (Reg.EDY_LOST i)).raise .edy 0 i

/-- A copy for destination d is dropped: an Eddy copy counts in its rule's EDY_LOST in place of BSN_DROP (R120). -/
def State.anyDrop (s : State) (d reason : Nat) (handle : Option Nat) (eddy : Option Nat) : State :=
  match eddy with
  | some i => (s.bsnCap d reason handle).eddyLost i
  | none => s.bsnDrop d reason handle

/-- The admission test of R102, and for a bus frame of `bus` cells R104: 0, or the drop reason. [DEDUCED, log entry 23] -/
def State.admitCode (s : State) (q : Nat) (bus : Option Nat) : Nat :=
  let u := s.used q
  if s.overQuota q then 2
  else if ¬ u < s.reserved q ∧ s.quota q ≤ u then 1
  else if ¬ u < s.reserved q ∧ s.sharedFree = 0 then 3
  else match bus with
    | none => 0
    | some n => if u + n ≤ s.quota q ∨ u + n ≤ s.reserved q then 0 else 1

/-! ### Cells (R93, R99) -/

/-- The lowest free cell of bank b from row r on, among `n` rows. [DESIGN CHOICE, log entry 22] -/
def freeCell (held : List Nat) (b : Nat) : Nat → Nat → Option Nat
  | 0, _ => none
  | n + 1, r => if held.contains (16 * r + b) then freeCell held b n (r + 1) else some (16 * r + b)

/-- The lowest free cell of bank b, or, when it has none, of the next bank that has one. [DESIGN CHOICE, log entry 22] -/
def freeCellNear (held : List Nat) (b : Nat) : Nat → Option Nat
  | 0 => none
  | n + 1 =>
    match freeCell held (b % 16) 3072 0 with
    | some c => some c
    | none => freeCellNear held (b + 1) n

/-- Cells for a frame of `n` cells on path P, from its cell k on. [DESIGN CHOICE, log entry 22] -/
def takeCells (held : List Nat) (path : Nat) : Nat → Nat → List Nat
  | 0, _ => []
  | n + 1, k =>
    match freeCellNear held (path + k) 16 with
    | some c => c :: takeCells (c :: held) path n (k + 1)
    | none => []

/-- The path of a flow (R99). -/
def State.flowPath (s : State) (ingress : Nat) (handle : Option Nat) (b : List Byte) (vid : Nat) : Nat :=
  let key := match handle with
    | some h => toBE 1 ingress ++ toBE 2 h
    | none => toBE 1 ingress ++ b.take 12 ++ toBE 2 vid
  crc32c s.bsn.seed.toNat key % 16

/-- Cells moved while an audit runs (R114). -/
def State.cellsMoved (s : State) (l : List Nat) : State :=
  if s.bsn.auditOn then { s with bsn := { s.bsn with moved := l ++ s.bsn.moved } } else s

/-- Store a frame: its cells are taken, and its number is answered. -/
def State.store (s : State) (f : Frame) (cells : Nat) : Nat × State :=
  let i := s.bsn.nextId
  let c := takeCells s.heldCells f.path cells 0
  let s := ((s.setFrame i (some { f with cells := c })).cellsMoved c).perf 0x32 c.length
  (i, { s with bsn := { s.bsn with nextId := i + 1 } })

/-! ### Release (R97) -/

/-- A frame whose verdict is known and that no copy holds leaves the Basin; one still arriving whose last copy has ended gives its cells
back, and one that never had a copy keeps them until its tail. -/
def State.release (s : State) (i : Nat) : State :=
  match s.frame i with
  | none => s
  | some f =>
    if f.copies.any Copy.live then s
    else if f.state ≠ 0 then (s.setFrame i none).cellsMoved f.cells
    else if f.copies.isEmpty then s
    else (s.setFrame i (some { f with cells := [] })).cellsMoved f.cells

/-- Replace copy k of a frame. -/
def Frame.setCopy (f : Frame) (k : Nat) (c : Copy) : Frame := { f with copies := f.copies.set k c }

/-- Copy k of frame i has been transmitted or dropped. -/
def State.copyDone (s : State) (i k : Nat) : State :=
  match s.frame i with
  | none => s
  | some f =>
    match f.copies[k]? with
    | none => s
    | some c => ((s.setFrame i (some (f.setCopy k { c with st := .done }))).release i).quotaScan c.q

/-- Put copy k of frame i into a state. -/
def State.copySt (s : State) (i k : Nat) (st : CopySt) : State :=
  match s.frame i with
  | none => s
  | some f =>
    match f.copies[k]? with
    | none => s
    | some c => s.setFrame i (some (f.setCopy k { c with st := st }))

/-- Copy k of frame i. -/
def State.copyAt (s : State) (i k : Nat) : Option (Frame × Copy) :=
  match s.frame i with
  | none => none
  | some f => match f.copies[k]? with | none => none | some c => some (f, c)

/-- A stored copy is dropped before or at its queue: counted for its destination, or for the Eddy rule it belongs to (R120). -/
def State.copyDrop (s : State) (i k reason : Nat) : State :=
  match s.copyAt i k with
  | none => s
  | some (f, c) =>
    (s.anyDrop c.dest reason f.handle (c.eddy.map Prod.fst)).copyDone i k

/-! ### Copies made for an Ethernet egress or an Eddy destination -/

/-- The frame with the FCS it was received with, as the Basin counts it. -/
def Frame.whole (f : Frame) : List Byte := if f.bus then f.bytes else f.bytes ++ f.fcs.getD (ethFcs f.bytes)

/-- The Eddy's metadata record (Table 4-5). -/
def Frame.eddyRecord (f : Frame) (rule reason : Nat) : List Byte :=
  let bad := decide (f.state = 2)
  let dropped := decide (reason ≠ 0)
  let ct := f.copies.any (fun c => c.ct)
  toBE 8 f.ts ++ toBE 2 (f.handle.getD 0) ++ toBE 1 f.ingress ++
  toBE 1 (b2n f.handle.isSome + b2n dropped * 2 + b2n ct * 4 + b2n bad * 8 + b2n (decide (128 < f.len)) * 16) ++ toBE 2 f.len ++
  toBE 1 rule ++ toBE 1 (f.route.tc + f.colour * 16) ++ toBE 8 f.route.dest ++ toBE 1 (reason + if bad then f.cause * 16 else 0) ++
  List.replicate 7 0

/-- A mirror copy of R122. -/
def State.isMirror (s : State) (c : Copy) : Bool :=
  match c.eddy with
  | some (r, _) => decide (s.rf (Reg.EDY_CTRL r) 1 2 = 2)
  | none => false

/-- The bytes a copy is made of before egress changes them: the frame, an Eddy record, or a mirror copy. -/
def State.copyBytes (s : State) (f : Frame) (c : Copy) : List Byte :=
  match c.eddy with
  | none => f.bytes
  | some (r, reason) =>
    if c.dest = 25 ∨ c.dest = 23 then f.eddyRecord r reason ++ f.whole.take 128
    else if s.rb (Reg.EDY_CTRL r) 5 ∧ 128 < f.len then f.whole.take 128
    else f.bytes

/-- The length the scheduler counts for a copy: with the FCS of an Ethernet frame. -/
def State.copyLen (s : State) (f : Frame) (c : Copy) : Nat :=
  (s.copyBytes f c).length + if f.bus ∨ (c.eddy.isSome ∧ (c.dest = 25 ∨ c.dest = 23)) then 0 else 4

end Sys2Proof.Machine
end

