-- ==== Sys2Proof/Machine/Rings.lean ====
section
/-! DEFINITION. The ring FIFOs between the Basin and the host interface, and the steering of host copies (R63, R123-R127). -/

namespace Sys2Proof.Machine

/-- A receive FIFO. -/
def State.rxf (s : State) (r : Nat) : RxFifo := Tab.get (fun _ => RxFifo.reset) s.bsn.rx r

/-- Replace a receive FIFO. -/
def State.setRxf (s : State) (r : Nat) (f : RxFifo) : State :=
  { s with bsn := { s.bsn with rx := Tab.set (fun _ => RxFifo.reset) s.bsn.rx r f } }

/-- A transmit FIFO. -/
def State.txf (s : State) (r : Nat) : TxFifo := Tab.get (fun _ => TxFifo.reset) s.bsn.tx r

/-- Replace a transmit FIFO. -/
def State.setTxf (s : State) (r : Nat) (f : TxFifo) : State :=
  { s with bsn := { s.bsn with tx := Tab.set (fun _ => TxFifo.reset) s.bsn.tx r f } }

/-- Words of 8 bytes. -/
def words8 (n : Nat) : Nat := (n + 7) / 8

/-- Words of a record: its header and the data written. -/
def RxRec.words (x : RxRec) : Nat := 2 + x.written

/-- FREE of a receive FIFO. -/
def RxFifo.free (f : RxFifo) : Nat := 2048 - (f.wr + 4096 - f.rd) % 4096

/-- CM: past the committed records from RD on. -/
def RxFifo.recommit (f : RxFifo) : RxFifo :=
  { f with cm := (f.rd + sumN ((f.recs.takeWhile (fun x => x.committed)).map RxRec.words)) % 4096 }

/-- Append a record. -/
def RxFifo.append (f : RxFifo) (x : RxRec) : RxFifo :=
  RxFifo.recommit { f with recs := f.recs ++ [x], wr := (f.wr + x.words) % 4096 }

/-- A gap marker of `n` packets. [DESIGN CHOICE, log entry 27] -/
def gapRec (n : Nat) (afterReset : Bool) : RxRec :=
  ⟨BitVec.ofNat 64 (2 ^ 18 + b2n afterReset * 2 ^ 19 + min n 0xFFFF * 2 ^ 32), 0, [], true, 0, 0, 0, 0, 0⟩

/-- GAP_MARKER of ring r: step 5 of R126. [DESIGN CHOICE, log entry 27] -/
def State.gapMark (s : State) (r : Nat) : State :=
  let f := s.rxf r
  if 0 < f.pend ∧ 2 ≤ f.free then s.setRxf r { f.append (gapRec f.pend false) with pend := 0 } else s

/-- A packet that FIFO r drops is counted. Receive FIFOs 16-23 are those of port 23's rings, for which the BSN page has no counters. [DESIGN CHOICE, log entry 95] -/
def State.rxGap (s : State) (r : Nat) : State := (if r < 16 then s.evt (Reg.BSN_RXF_GAPS r) else s).raise .bsn 0 Irq.BSN_RXF_GAP

/-- A packet is dropped by receive FIFO r. -/
def State.rxDrop (s : State) (r : Nat) : State :=
  let f := s.rxf r
  (s.setRxf r { f with pend := min (f.pend + 1) 0xFFFF }).rxGap r

/-- Header word W0 of a packet's record (Table 4-7). -/
def rxWord0 (len ingress : Nat) (handle : Option Nat) (poisoned auth : Bool) : BitVec 64 :=
  BitVec.ofNat 64 (len + b2n poisoned * 2 ^ 16 + b2n auth * 2 ^ 17 + ingress * 2 ^ 24 + handle.getD 0 * 2 ^ 32 + b2n handle.isSome * 2 ^ 48)

/-- A copy enters receive FIFO r, its record open; false when the FIFO cannot take its header (step 1 of R126). The marker of earlier
drops goes first. `rate`: the kbit/s at which its words fall due. [DESIGN CHOICE, log entry 27] -/
def State.rxStart (s : State) (r fid ts rate kind : Nat) (data : List Byte) : Bool × State :=
  let s := s.gapMark r
  let f := s.rxf r
  if f.free < 4 then (false, s.rxDrop r)
  else (true, s.setRxf r (f.append ⟨0, BitVec.ofNat 64 ts, data, false, fid, 0, s.now, rate, kind⟩))

/-- Data words of an open record that are due at a time: all of them when none is given. [DESIGN CHOICE, log entry 27] -/
def RxRec.due (x : RxRec) (now : Option Nat) : Nat :=
  match now with
  | some t => max x.written (min (words8 x.data.length) ((t - x.since) * x.rate / 64000000))
  | none => words8 x.data.length

/-- The newest copy, whose record is open, is dropped: WR returns to its header (step 3 of R126). -/
def RxFifo.refuse (f : RxFifo) : RxFifo :=
  match f.recs.getLast? with
  | some x =>
    { f with
      recs := f.recs.dropLast
      wr := (f.wr + 4096 - x.words) % 4096
      pend := min (f.pend + 1) 0xFFFF }
  | none => f

/-- The FIFO after the words due of its open record, the newest, are written; false when one is refused, as FREE would fall below 2: the
record goes, WR returns to its header (steps 2 and 3 of R126). [DESIGN CHOICE, log entry 27] -/
def RxFifo.fill (f : RxFifo) (now : Option Nat) : Bool × RxFifo :=
  match f.recs.getLast? with
  | none => (true, f)
  | some x =>
    let n := x.due now - x.written
    if x.committed ∨ n = 0 then (true, f)
    else if f.free < n + 2 then (false, f.refuse)
    else
      (true, { f with
        recs := f.recs.dropLast ++ [{ x with written := x.written + n }]
        wr := (f.wr + n) % 4096 })

/-- The copy whose record FIFO r refuses stops leaving its port. -/
def State.rxStop (s : State) (fid : Nat) : State :=
  let stop := fun (s : State) (p : Nat) =>
    match (s.eg p).tx with
    | some x => if x.fid = fid ∧ s.ringed p then (s.setEg p { s.eg p with tx := none }).copyDone x.fid x.idx else s
    | none => s
  stop (stop (stop s 20) 21) 23

/-- The words of FIFO r that are due are written; a copy that is refused one is dropped (R126). -/
def State.rxFill (s : State) (r : Nat) (now : Option Nat) : State :=
  match (s.rxf r).fill now with
  | (true, f) => s.setRxf r f
  | (false, f) =>
    let fid := match (s.rxf r).recs.getLast? with | some x => x.fid | none => 0
    ((s.setRxf r f).rxGap r).rxStop fid

/-- The port of an open record's copy is lost: the copy is dropped (R126). [DESIGN CHOICE, log entry 27] -/
def State.rxAbort (s : State) (r : Nat) : State :=
  match (s.rxf r).recs.getLast? with
  | some x => if x.committed then s else (s.setRxf r (s.rxf r).refuse).rxGap r
  | none => s

/-- The words due by now are written. -/
def State.rxSync (s : State) (r : Nat) : State := s.rxFill r (some s.now)

/-- The verdict of a copy is known and its last word due: once all are written its record in FIFO r is committed (R124). [DESIGN CHOICE, log entry 27] -/
def State.rxCommit (s : State) (r fid : Nat) (w0 : BitVec 64) : State :=
  let s := s.rxFill r none
  let f := s.rxf r
  let fix := fun (x : RxRec) => if x.fid = fid ∧ !x.committed then { x with w0 := w0, committed := true } else x
  s.setRxf r (RxFifo.recommit { f with recs := f.recs.map fix })

/-- The host interface has taken the front record of FIFO r. -/
def State.rxPop (s : State) (r : Nat) : State :=
  let s := s.rxSync r
  let f := s.rxf r
  match f.recs with
  | [] => s
  | x :: t => s.setRxf r (RxFifo.recommit { f with recs := t, rd := (f.rd + x.words) % 4096 })

/-- Packets a record stands for: one, or a gap marker's COUNT. [DESIGN CHOICE, log entry 27] -/
def RxRec.packets (x : RxRec) : Nat := if bit x.w0 18 then fld x.w0 32 16 else 1

/-- A receive FIFO is reset: everything in it is discarded, and a marker says so (R127). [DESIGN CHOICE, log entry 27] -/
def State.rxReset (s : State) (r : Nat) : State :=
  let f := s.rxf r
  let n := sumN (f.recs.map RxRec.packets) + f.pend
  let s := s.setRxf r (RxFifo.append RxFifo.reset (gapRec n true))
  ((if r < 16 then s.evt (Reg.BSN_RXF_RESET r) else s).raise .bsn 0 Irq.BSN_RING_ERR).logEvt .bsn 0 Irq.BSN_RING_ERR 10000000 false (toBE 1 r)

/-- A transmit FIFO is reset: emptied, the `n` packets it held dropped and counted (R127). [DESIGN CHOICE, log entry 27] -/
def State.txReset (s : State) (r n : Nat) : State :=
  let s := (List.range n).foldl (fun s _ => s.evt (Reg.BSN_TXF_RESET r)) (s.setTxf r TxFifo.reset)
  (s.raise .bsn 0 Irq.BSN_RING_ERR).logEvt .bsn 0 Irq.BSN_RING_ERR 10000000 false (toBE 1 (16 + r))

/-! ### Steering (R63) -/

/-- What steering compares: the ingress, the VID and PCP of R60, the EtherType, the selector and whether the frame is untagged. A bus
frame has no fields. -/
structure SteerKey where
  ingress : Nat
  vid : Nat
  pcp : Nat
  etype : Option Nat
  sel : Option Nat
  untagged : Bool
deriving DecidableEq, Repr

/-- Filter i matches. [DEDUCED, log entry 25] -/
def State.steerHit (s : State) (x : SteerKey) (i : Nat) : Bool :=
  let m0 := s.rd (Reg.ICL_STEER_MATCH0 i)
  let m1 := s.rd (Reg.ICL_STEER_MATCH1 i)
  bit m1 31 && decide (x.ingress < 26) && s.rb (Reg.ICL_STEER_PORTS i) x.ingress &&
  (!bit m1 8 || decide (x.etype = some (fld m0 0 16))) && (!bit m1 9 || (x.etype.isSome && decide (x.vid = fld m0 16 12))) &&
  (!bit m1 10 || (x.etype.isSome && decide (x.pcp = fld m0 28 3))) && (!bit m1 11 || decide (x.sel = some (fld m1 0 8))) &&
  (!bit m1 12 || x.untagged)

/-- The ring of a host copy: none when its filter drops it. -/
def State.steerTo (s : State) (x : SteerKey) : Option Nat :=
  match (List.range 64).find? (s.steerHit x) with
  | none => some (s.rf Reg.ICL_STEER_DEFAULT 0 4)
  | some i => if s.rb (Reg.ICL_STEER_ACT i) 8 then none else some (s.rf (Reg.ICL_STEER_ACT i) 0 4)

/-- The ring of a host copy; a drop by its filter is counted. -/
def State.steer (s : State) (x : SteerKey) : Option Nat × State :=
  match s.steerTo x with
  | none => (none, (s.stat Reg.ICL_STEER_DROP 1).raise .icl 0 Irq.ICL_STEER_DROP)
  | some r => (some r, s)

/-- What steering compares of a stored frame. -/
def State.frameKey (s : State) (f : Frame) : SteerKey :=
  if f.bus then ⟨f.ingress, 0, 0, none, none, true⟩
  else
    let x := parse f.bytes
    ⟨f.ingress, s.vidOf f.ingress x, s.pcpOf f.ingress x, some x.etype, x.selector f.bytes, x.tag.isNone⟩

/-- The ring of a copy that is no host copy yet: queued, perhaps, before its port was selected to carry rings. -/
def noRing : Nat := 16

/-- The head copy of class k of a port with DMA rings was queued before the port carried them, and its ring is not enabled (R197). [DEDUCED, log entry 39] -/
def State.ringWaits (s : State) (p k : Nat) : Bool :=
  s.dmaPort p &&
  match s.queue (8 * p + k) with
  | [] => false
  | (i, c) :: _ =>
    match s.copyAt i c with
    | some (f, x) =>
      decide (x.ring = noRing) &&
      (match s.steerTo (s.frameKey f) with | some r => !s.rb (Reg.RXR_CTRL r) 0 | none => false)
    | none => false

end Sys2Proof.Machine
end

