-- ==== Sys2Proof/Machine/Sluice.lean ====
section
/-! DEFINITION. Sluices: gate control lists over domain time, configuration changes, fits(k) (R142-R148). -/

namespace Sys2Proof.Machine

/-- A port's Sluice. -/
def State.sluice (s : State) (p : Nat) : Sluice := Tab.get (fun _ => Sluice.reset) s.slu p

/-- Replace a port's Sluice. -/
def State.setSluice (s : State) (p : Nat) (v : Sluice) : State := { s with slu := Tab.set (fun _ => Sluice.reset) s.slu p v }

/-- GATE_EN of a port with a Sluice (ports 0-21). -/
def State.gateEn (s : State) (p : Nat) : Bool := decide (p < 22) && s.rb (Reg.SLU_CTRL p) 0

/-- The time of the Sluice's domain, in ns. -/
def State.sluTime (s : State) (p : Nat) : Int := s.domTime (s.rf (Reg.SLU_CTRL p) 1 2) / 65536

/-- The class's gate is open now (R142). -/
def State.gateOpen (s : State) (p k : Nat) : Bool := !s.gateEn p || (s.sluice p).gates.testBit k

/-! ### Credits (R140) -/

/-- The credit of class k after `dt` ns in the present situation, in 10^-6 bit. -/
def State.creditNext (s : State) (p k dt : Nat) : Int :=
  let c := (s.eg p).credits.getD k 0
  let rate := s.portRate p
  let idle := min (s.rf (Reg.EGS_IDLE_SLOPE p k) 0 25) rate
  let up : Int := ((idle * dt : Nat) : Int)
  let sending := match (s.eg p).tx with | some x => decide (x.tc = k) | none => false
  let c' : Int :=
    if !s.shaped p k then c
    else if sending then c + up - ((rate * dt : Nat) : Int)
    else if !s.gateOpen p k || s.paused p then c
    else if !(s.queue (8 * p + k)).isEmpty then c + up
    else if 0 < c then 0
    else min 0 (c + up)
  clampI (-2147483648000000) 2147483647000000 c'

/-- Bring the credits of port p up to now. -/
def State.creditSync (s : State) (p : Nat) : State :=
  let e := s.eg p
  let dt := s.now - e.creditAt
  s.setEg p { e with credits := (List.range 8).map (fun k => s.creditNext p k dt), creditAt := s.now }

/-- EGS_CREDIT in bits, as it stands now. -/
def State.creditBits (s : State) (p k : Nat) : Int := s.creditNext p k (s.now - (s.eg p).creditAt) / 1000000

/-! ### Lists -/

/-- A list entry (Table 5-3). -/
def GateCfg.entry (c : GateCfg) (i : Nat) : Word × Word := Tab.get gclReset c.list i

def gclGates (e : Word × Word) : Nat := fld e.1 0 8
def gclOp (e : Word × Word) : Nat := fld e.1 8 2
def gclInterval (e : Word × Word) : Nat := fld e.2 0 30

/-- The configuration's fields lie in the ranges of Table 5-13. -/
def GateCfg.inRange (c : GateCfg) : Bool :=
  decide (1 ≤ c.len) && decide (c.len ≤ 1024) && decide (1000 ≤ c.cycle) && decide (c.cycle ≤ 1000000000)

/-- The spans of one cycle from entry i at offset `at_`, at most `n` entries: (start, end, index), cut at the cycle's end, the last
one extended to it (R142). -/
def GateCfg.spansFrom (c : GateCfg) : Nat → Nat → Nat → List (Nat × Nat × Nat)
  | 0, _, _ => []
  | n + 1, i, at_ =>
    let stop := at_ + gclInterval (c.entry i)
    if n = 0 ∨ c.cycle ≤ stop then [(at_, c.cycle, i)] else (at_, stop, i) :: c.spansFrom n (i + 1) stop

/-- The spans of one cycle. -/
def GateCfg.spans (c : GateCfg) : List (Nat × Nat × Nat) := c.spansFrom c.len 0 0

/-- The gates of a span. -/
def GateCfg.spanGates (c : GateCfg) (x : Nat × Nat × Nat) : Nat := gclGates (c.entry x.2.2)

/-- Position in the cycle at a domain time. -/
def GateCfg.pos (c : GateCfg) (t : Int) : Nat := ((t - c.base) % (c.cycle : Int)).toNat

/-- The start of the cycle in which a domain time falls. -/
def GateCfg.cycleStart (c : GateCfg) (t : Int) : Int := t - (c.pos t : Int)

/-- The index of the entry in force at a position. -/
def GateCfg.indexAt (c : GateCfg) (pos : Nat) : Nat :=
  match c.spans.find? (fun x => decide (pos < x.2.1)) with
  | some x => x.2.2
  | none => 0

/-- The offset from a position to the next closing of class k, in one list running for ever: none when it never closes. -/
def GateCfg.closing (c : GateCfg) (k pos : Nat) : Option Nat :=
  let shut := c.spans.filter (fun x => !(c.spanGates x).testBit k)
  match shut.find? (fun x => decide (pos ≤ x.1)) with
  | some x => some (x.1 - pos)
  | none =>
    match shut with
    | x :: _ => some (c.cycle - pos + x.1)
    | [] => none

/-- The longest continuous open (or closed) span of class k, taken cyclically: none when the class is always so (R145, R155). -/
def GateCfg.longest (c : GateCfg) (k : Nat) (want : Bool) : Option Nat :=
  let marks := c.spans.map (fun x => (decide ((c.spanGates x).testBit k = want), x.2.1 - x.1))
  if marks.all (fun x => x.1) then none
  else
    let step := fun (a : Nat × Nat) (x : Bool × Nat) =>
      if x.1 then (a.1 + x.2, max a.2 (a.1 + x.2)) else (0, a.2)
    some ((marks ++ marks).foldl step (0, 0)).2

/-- ns of the cycle for which class k's gate is open. -/
def GateCfg.openTime (c : GateCfg) (k : Nat) : Nat :=
  sumN ((c.spans.filter (fun x => (c.spanGates x).testBit k)).map (fun x => x.2.1 - x.1))

/-! ### fits(k) (R144) -/

/-- A pending change holds the operating cycle that starts before it within EXT (R147). -/
def Sluice.held (u : Sluice) (cs : Int) : Bool :=
  match u.pend with
  | some (c, ct) => decide (cs ≤ (ct : Int)) && decide ((ct : Int) - cs ≤ (c.ext : Int)) && decide (cs ≠ (ct : Int))
  | none => false

/-- ns until the closing of class k that list n brings, or its first closing, when the list takes over in `left` ns. -/
def GateCfg.closingAfter (n : GateCfg) (k left : Nat) : Option Nat :=
  if (gclGates (n.entry 0)).testBit k then (n.closing k 0).map (fun d => left + d) else some left

/-- ns from domain time t until the next closing of class k, while list c runs, across a pending change: none when it never closes. -/
def Sluice.closingIn (u : Sluice) (c : GateCfg) (k : Nat) (t : Int) : Option Nat :=
  match u.pend with
  | none => c.closing k (c.pos t)
  | some (n, ct) =>
    let left := ((ct : Int) - t).toNat
    let later := n.closingAfter k left
    if u.held (c.cycleStart t) then later
    else
      match c.closing k (c.pos t) with
      | some d => if d < left ∧ !(decide (c.cycle - c.pos t ≤ d) && u.held (c.cycleStart t + (c.cycle : Int))) then some d else later
      | none => later

/-- The first cycle start since GATE_EN, while it is still to come: until then the gates are SLU_ADMIN_DEF (R147). -/
def Sluice.startsAt (u : Sluice) (c : GateCfg) (t : Int) : Option Int :=
  if u.started ∨ ((c.base : Int) ≤ t ∧ u.enAt ≤ c.cycleStart t) then none
  else if t < (c.base : Int) then some (c.base : Int)
  else some (c.cycleStart t + (c.cycle : Int))

/-- ns from domain time t until the next closing of class k's gate, which is open: at the first cycle start still to come, across cycle
starts, across a pending change at its change time; none when it never closes (R144). [DEDUCED, log entry 30] -/
def Sluice.nextClosing (u : Sluice) (k : Nat) (t : Int) : Option Nat :=
  let change := u.pend.map fun x => (x.2, x.1.closingAfter k ((x.2 : Int) - t).toNat)
  match u.oper with
  | none => match change with | some x => x.2 | none => none
  | some c =>
    match u.startsAt c t, change with
    | none, _ => u.closingIn c k t
    | some f, some (ct, d) =>
      if (ct : Int) ≤ f ∨ u.held f then d
      else if (gclGates (c.entry 0)).testBit k then (u.closingIn c k f).map (fun d => (f - t).toNat + d)
      else some (f - t).toNat
    | some f, none => c.closingAfter k (f - t).toNat

/-- fits(k) for a frame of `n` bytes on port p (R144). -/
def State.fits (s : State) (p k n : Nat) : Bool :=
  !s.gateEn p ||
  (match (s.sluice p).nextClosing k (s.sluTime p) with
   | none => true
   | some d => decide (txTime n (s.portRate p) ≤ d))

/-- A store-and-forward frame whose transmission outlasts every open span of its class (R145). -/
def State.tooBig (s : State) (p k n : Nat) : Bool :=
  s.gateEn p &&
  (match (s.sluice p).oper with
   | none => false
   | some c => match c.longest k true with | none => false | some g => decide (g < txTime n (s.portRate p)))

/-! ### Gate events (R142, R143, R146) -/

/-- The gates and the entry of a Sluice at domain time t: SLU_ADMIN_DEF until the first cycle start since GATE_EN. [DEDUCED, log entry 30] -/
def State.gatesAt (s : State) (p : Nat) (t : Int) : Option (Nat × Nat × Nat) :=
  let u := s.sluice p
  match u.oper with
  | none => none
  | some c =>
    let started := u.started || (decide ((c.base : Int) ≤ t) && decide (u.enAt ≤ c.cycleStart t))
    if !started then none
    else
      let i := if u.held (c.cycleStart t) then (c.spans.getLastD (0, 0, 0)).2.2 else c.indexAt (c.pos t)
      some (i, gclGates (c.entry i), gclOp (c.entry i))

/-- A gate of the frame in progress closes (R146): a preemptable frame with a permitted point left awaits its preemption; any
other frame completes and is counted. `sent` is the bytes of the current fragment on the wire so far. -/
def State.gateOverrun (s : State) (p old new sent : Nat) : State :=
  match (s.eg p).tx with
  | none => s
  | some x =>
    let least := max sent (s.minFrag p)
    let escape := x.pre && s.preemptActive p && decide ((s.eg p).frag + least + 64 ≤ x.bytes.length + 4)
    if old.testBit x.tc && !new.testBit x.tc && !escape then
      (s.evt (Reg.SLU_OVERRUN p)).raise .slu p Irq.SLU_OVERRUN
    else s

/-- Put gates in force. A configuration outside its ranges leaves the gates open to any value. [DEDUCED, log entry 30] -/
def State.gateSet (s : State) (p i gates op sent : Nat) (isStarted : Bool) : State :=
  let s := s.creditSync p
  let u := s.sluice p
  let e := s.eg p
  let hold := if s.preemptActive p then (if op = 1 then true else if op = 2 then false else e.hold) else false
  let s := s.gateOverrun p u.gates gates sent
  (s.setSluice p { u with cur := i, gates := gates, started := isStarted }).setEg p { s.eg p with hold := hold }

/-- The entry in force is taken anew at domain time t. [DEDUCED, log entry 30] -/
def State.gateRefresh (s : State) (p : Nat) (t : Int) (sent : Nat) : State :=
  match s.gatesAt p t with
  | none => s.gateSet p 0 (s.rf (Reg.SLU_ADMIN_DEF p) 0 8) 0 sent false
  | some (i, g, op) =>
    match (s.sluice p).oper with
    | some c =>
      if c.inRange then s.gateSet p i g op sent true
      else
        let (v, s) := s.draw
        s.gateSet p i (fld v 0 8) op sent true
    | none => s

/-- GATE_EVENT. [DEDUCED, log entry 30] -/
def State.gateEvent (s : State) (p sent : Nat) : State := if s.gateEn p then s.gateRefresh p (s.sluTime p) sent else s

/-! ### Configuration (R147) -/

/-- A refused write of the Sluice. -/
def State.sluCfgErr (s : State) (p : Nat) : State := (s.evt (Reg.SLU_CFG_ERR p)).raise .slu p Irq.SLU_CFG_ERR

/-- A change is pending. -/
def State.sluPending (s : State) (p : Nat) : Bool := (s.sluice p).pend.isSome

/-- The administrative configuration. -/
def State.sluAdmin (s : State) (p : Nat) : GateCfg :=
  { base := (s.rd (Reg.SLU_ADMIN_BASE_LO p)).toNat + (s.rd (Reg.SLU_ADMIN_BASE_HI p)).toNat * 2 ^ 32,
    cycle := (s.rd (Reg.SLU_ADMIN_CYCLE p)).toNat, ext := (s.rd (Reg.SLU_ADMIN_EXT p)).toNat,
    len := s.rf (Reg.SLU_ADMIN_LEN p) 0 11, list := (s.sluice p).admin }

/-- CHANGE: the pending configuration and its change time, the first base + n × cycle at least 2 µs away. [DEDUCED, log entry 30] -/
def State.sluChange (s : State) (p : Nat) : State :=
  let c := s.sluAdmin p
  let soon := (s.sluTime p + 2000).toNat
  let ct := if soon ≤ c.base then c.base else c.base + (soon - c.base + c.cycle - 1) / c.cycle * c.cycle
  s.setSluice p { s.sluice p with pend := some (c, ct) }

/-- CANCEL. -/
def State.sluCancel (s : State) (p : Nat) : State := s.setSluice p { s.sluice p with pend := none }

/-- A write of SLU_CMD. -/
def State.sluCmd (s : State) (p : Nat) (v : Word) : State :=
  let s := if bit v 0 then s.sluChange p else s
  if bit v 1 then s.sluCancel p else s

/-- The change time of the pending configuration arrives: it becomes the operating one, and its first entry takes effect. -/
def State.sluTake (s : State) (p sent : Nat) : State :=
  match (s.sluice p).pend with
  | none => s
  | some (c, ct) =>
    let s := s.setSluice p { s.sluice p with oper := some c, pend := none }
    let s := ((s.stat (Reg.SLU_CHANGES p) 1).raise .slu p Irq.SLU_CHANGED).budDue p
    let t := s.sluTime p
    if s.gateEn p then s.gateRefresh p (if t < (ct : Int) then (ct : Int) else t) sent else s

/-- Bytes of the fragment in progress that have left port p by now: its time on the wire at the link rate, less the preamble. [DESIGN CHOICE, log entry 93] -/
def State.sentNow (s : State) (p : Nat) : Nat :=
  match (s.eg p).tx with
  | some x => min (x.bytes.length + 4) ((s.now - x.since) * s.portRate p / 8000000 - 8)
  | none => 0

/-- A write of SLU_CTRL: gating starts or stops, or its domain changes; a write of GATE_EN re-checks the port (R142, R160). [DESIGN CHOICE, log entry 93] -/
def State.sluCtrlWrite (s : State) (m p : Nat) (v : Word) : State :=
  let was := s.gateEn p
  let s := ((s.creditSync p).plainWrite m (Reg.SLU_CTRL p) v).budDue p
  let u := s.sluice p
  if !s.gateEn p then (s.setSluice p { u with gates := 0xFF, cur := 0 }).setEg p { s.eg p with hold := false }
  else if was then s
  else
    let t := s.sluTime p
    let s := if u.started then s else s.setSluice p { u with enAt := t }
    s.gateRefresh p t (s.sentNow p)

/-- A write of an administrative register: ignored while a change is pending. -/
def State.sluAdminWrite (s : State) (m a p : Nat) (v : Word) : State :=
  if s.sluPending p then s.sluCfgErr p else s.plainWrite m a v

/-- The entry SLU_GCL_SEL names of the list it names. -/
def State.gclEntry (s : State) (p : Nat) : Word × Word :=
  let i := s.rf (Reg.SLU_GCL_SEL p) 0 10
  if s.rb (Reg.SLU_GCL_SEL p) 16 then
    match (s.sluice p).oper with
    | some c => c.entry i
    | none => gclReset i
  else Tab.get gclReset (s.sluice p).admin i

/-- A write of SLU_GCL_D0 (`hi` false) or SLU_GCL_D1: the selected administrative entry's word; a write of D1 advances INDEX with
AUTOINC. With LIST = 1, or while a change is pending, it is ignored and counted. -/
def State.gclWrite (s : State) (p : Nat) (hi : Bool) (v : Word) : State :=
  if s.rb (Reg.SLU_GCL_SEL p) 16 ∨ s.sluPending p then s.sluCfgErr p
  else
    let i := s.rf (Reg.SLU_GCL_SEL p) 0 10
    let u := s.sluice p
    let e := Tab.get gclReset u.admin i
    let e := if hi then (e.1, wd (clampN 32 1000000000 (fld v 0 30))) else (v &&& 0x3FF, e.2)
    let s := s.setSluice p { u with admin := Tab.set gclReset u.admin i e }
    if hi ∧ s.rb (Reg.SLU_GCL_SEL p) 17 then s.wf (Reg.SLU_GCL_SEL p) 0 10 (i + 1) else s

end Sys2Proof.Machine
end

