-- ==== Sys2Proof/Machine/Sched.lean ====
section
/-! DEFINITION. The egress scheduler (R137-R152, R474), what stage 9 does to a copy (R290, R327), and the end of a copy. -/

namespace Sys2Proof.Machine

/-! ### Selection (R137-R139, R144) -/

/-- What the scheduler knows of a class's head frame: its length with preamble and gap, and the length fits(k) counts. -/
abbrev Heads := Nat → Option (Nat × Nat)

/-- The class is in the express set of port p. -/
def State.express (s : State) (p k : Nat) : Bool := !(s.preemptActive p && s.tcPre p k)

/-- The class may send now, whatever its queue holds but for the length fits(k) counts. -/
def State.mayServe (s : State) (p k n : Nat) : Bool :=
  s.gateOpen p k && s.fits p k (if s.express p k then n else s.minFrag p + 20) &&
  (!s.shaped p k || decide (0 ≤ (s.eg p).credits.getD k 0)) && (!(s.eg p).hold || !s.tcPre p k)

/-- The class is eligible. -/
def State.eligible (s : State) (p : Nat) (hd : Heads) (k : Nat) : Bool :=
  match hd k with
  | some (_, n) => s.mayServe p k n && !s.ringWaits p k
  | none => false

/-- Deficits and pointer of a group. -/
abbrev Drr := List Nat × Nat

/-- The class a pointer stands at: the pointer's, or the next lower of the group, wrapping to its highest. -/
def drrAt (g : List Nat) (ptr : Nat) : Nat :=
  match g.find? (fun k => decide (k ≤ ptr)) with
  | some k => k
  | none => g.headD 0

/-- The pointer after class k. -/
def drrNext (g : List Nat) (k : Nat) : Nat :=
  match g.find? (fun j => decide (j < k)) with
  | some j => j
  | none => g.headD 0

/-- The rounds of drr_pick. -/
def State.drrLoop (s : State) (p : Nat) (hd : Heads) (g : List Nat) : Nat → Drr → Option Nat × Drr
  | 0, d => (none, d)
  | n + 1, (def_, ptr) =>
    let k := drrAt g ptr
    if !s.eligible p hd k then
      s.drrLoop p hd g n (if (hd k).isNone then def_.set k 0 else def_, drrNext g k)
    else
      let w := match hd k with | some (w, _) => w | none => 0
      if def_.getD k 0 < w then s.drrLoop p hd g n (def_.set k (def_.getD k 0 + s.tcQuantum p k), drrNext g k)
      else (some k, (def_.set k (def_.getD k 0 - w), k))

/-- drr_pick: every quantum is at least 64 bytes, so the rounds that any head frame needs are at most 160. -/
def State.drrPick (s : State) (p : Nat) (hd : Heads) (g : List Nat) (d : Drr) : Option Nat × Drr :=
  if g.any (s.eligible p hd) then s.drrLoop p hd g 2000 d
  else (none, (g.foldl (fun l k => if (hd k).isNone then l.set k 0 else l) d.1, d.2))

/-- pick(set) over the classes of `set` from `k` classes down. -/
def State.pickFrom (s : State) (p : Nat) (hd : Heads) (set : List Nat) : Nat → Drr → Option Nat × Drr
  | 0, d => (none, d)
  | k + 1, d =>
    let g := [7, 6, 5, 4, 3, 2, 1, 0].filter (fun j => set.contains j && s.tcDrr p j)
    if !set.contains k then s.pickFrom p hd set k d
    else if !s.tcDrr p k then (if s.eligible p hd k then (some k, d) else s.pickFrom p hd set k d)
    else if g.headD 0 = k then
      match s.drrPick p hd g d with
      | (some m, d) => (some m, d)
      | (none, d) => s.pickFrom p hd set k d
    else s.pickFrom p hd set k d

/-- pick of the express set, with the deficits it leaves. -/
def State.pickExpress (s : State) (p : Nat) (hd : Heads) : Option Nat × Drr :=
  s.pickFrom p hd ((List.range 8).filter (s.express p)) 8 ((s.eg p).deficit, (s.eg p).ptrE)

/-- pick of the preemptable set. -/
def State.pickPreempt (s : State) (p : Nat) (hd : Heads) : Option Nat × Drr :=
  s.pickFrom p hd ((List.range 8).filter (fun k => !s.express p k)) 8 ((s.eg p).deficit, (s.eg p).ptrP)

/-- The head frames of port p's queues. [DEDUCED, log entry 36] -/
def State.heads (s : State) (p : Nat) : Heads := fun k =>
  match s.queue (8 * p + k) with
  | [] => none
  | (i, c) :: _ =>
    match s.copyAt i c with
    | some (f, x) => some (s.copyLen f x + 20, s.copyLen f x + 20)
    | none => some (84, 84)

/-- Choose a class: the express set first, then the preemptable set unless `only`; the deficits and pointers are kept. [DEDUCED, log entry 36] -/
def State.choose (s : State) (p : Nat) (hd : Heads) (only : Bool) : Option Nat × State :=
  let (k, d) := s.pickExpress p hd
  let s := s.setEg p { s.eg p with deficit := d.1, ptrE := d.2 }
  match k with
  | some k => (some k, s)
  | none =>
    if only then (none, s)
    else
      let (k, d) := s.pickPreempt p hd
      (k, s.setEg p { s.eg p with deficit := d.1, ptrP := d.2 })

/-! ### Insertion by the time unit (R287, R290) -/

/-- The domain time at the egress timestamp point of port p, in 2^-16 ns. -/
def State.egressTime (s : State) (p d : Nat) : Int := s.domTimeAt d (s.frc16 + s.rf (Reg.TIM_PORT_LAT p) 16 16 * 65536)

/-- Replace bytes from an offset. [PRESUMED, log entry 26] -/
def patch (b : List Byte) (off : Nat) (v : List Byte) : List Byte := b.take off ++ v ++ b.drop (off + v.length)

/-- A PTP timestamp of a time in ns: 48-bit seconds and 32-bit nanoseconds. [PRESUMED, log entry 26] -/
def ptpStamp (t : Int) : List Byte := toBE 6 (t.toNat / 1000000000) ++ toBE 4 (t.toNat % 1000000000)

/-- The time unit's own Sync as it leaves: none when its residence spans a step of the domain. [PRESUMED, log entry 26] -/
def State.syncInsert (s : State) (p : Nat) (o : OwnSync) (b : List Byte) : Option (List Byte) :=
  let t := s.egressTime p o.dom
  if o.relay then
    if (s.dom o.dom).stepped ≠ o.steps then none
    else some (patch (patch b 22 (toBE 8 (unsext 64 (o.corr + t)))) 48 (ptpStamp (o.origin : Int)))
  else some (patch b 48 (ptpStamp (t / 65536)))

/-- Sum of the 16-bit words of a byte list. -/
def sum16 : List Byte → Nat
  | a :: b :: t => a.toNat * 256 + b.toNat + sum16 t
  | [a] => a.toNat * 256
  | [] => 0

/-- End-around carry. -/
def fold16 (n : Nat) : Nat := let m := n % 65536 + n / 65536; m % 65536 + m / 65536

/-- A UDP checksum updated for bytes that change (RFC 1624). [PRESUMED, log entry 26] -/
def udpUpdate (old : Nat) (was now : List Byte) : Nat :=
  let inv := sum16 (was.map (fun x => ~~~x))
  let c := 65535 - fold16 (65535 - old + inv + sum16 now)
  if c = 0 then 65535 else c

/-- Where a one-step Sync message lies in a frame leaving port p, and where its UDP checksum, if it has one (R290). -/
def State.syncAt (s : State) (p : Nat) (b : List Byte) : Option (Nat × Option Nat) :=
  let x := parse b
  let isSync := fun (m : Nat) => decide (m < 64) && decide (beAt b m 1 % 16 = 0) && decide (beAt b (m + 1) 1 % 16 = 2) &&
    !(beAt b (m + 6) 1).testBit 1 && decide (m + 44 ≤ b.length)
  let udp := s.rb (Reg.TIM_PORT_CFG p) 25
  if x.etype = 0x88F7 then if s.rb (Reg.TIM_PORT_CFG p) 24 ∧ isSync x.off then some (x.off, none) else none
  else if udp ∧ x.etype = 0x0800 then
    let u := x.off + beAt b x.off 1 % 16 * 4
    if beAt b (x.off + 9) 1 = 17 ∧ beAt b (u + 2) 2 = 319 ∧ isSync (u + 8) then
      some (u + 8, if beAt b (u + 6) 2 = 0 then none else some (u + 6))
    else none
  else if udp ∧ x.etype = 0x86DD then
    let u := x.off + 40
    if beAt b (x.off + 6) 1 = 17 ∧ beAt b (u + 2) 2 = 319 ∧ isSync (u + 8) then some (u + 8, some (u + 6)) else none
  else none

/-- One-step insertion into a Sync sent by port 20, 21 or 23 and leaving port p. [PRESUMED, log entry 26] -/
def State.oneStep (s : State) (p ingress : Nat) (b : List Byte) : List Byte × State :=
  if p < 23 ∧ (ingress = 20 ∨ ingress = 21 ∨ ingress = 23) then
    match s.syncAt p b with
    | none => (b, s)
    | some (m, ck) =>
      match s.domOf (beAt b (m + 4) 1) with
      | none => (b, s.evt Reg.TIM_FOREIGN)
      | some d =>
        let new := ptpStamp (s.egressTime p d / 65536)
        let b1 := match ck with
          | some c => patch b c (toBE 2 (udpUpdate (beAt b c 2) ((b.drop (m + 34)).take 10) new))
          | none => b
        (patch b1 (m + 34) new, s)
  else (b, s)

/-! ### Starting a copy -/

/-- The bytes of a copy as they leave port p, none when stage 9 drops it: DEI, R-TAG, insertion, MACsec. -/
def State.egressBytes (s : State) (p : Nat) (f : Frame) (c : Copy) : Option (List Byte) × State :=
  let b := s.copyBytes f c
  if s.isMirror c ∧ !f.bus then s.lceTx p b
  else if f.bus ∨ c.eddy.isSome then (some b, s)
  else
    let b := if (if c.ct then f.provMark else f.mark) then markDei b else b
    let b := s.freCopy f.route.frer f.seqNo p b
    let b := if c.ct then b.take s.maxLen else b
    match f.own with
    | some (.sync o) =>
      match s.syncInsert p o b with
      | some b => s.lceTx p b
      | none => (none, s.syncDrop)
    | some _ => s.lceTx p b
    | none =>
      let (b, s) := s.oneStep p f.ingress b
      s.lceTx p b

/-- The bytes of earlier fragments of the frame in progress: those of a suspended frame stay while an express frame is sent. [DEDUCED, log entry 36] -/
def State.fragKept (s : State) (p : Nat) : Nat := if (s.eg p).susp.isSome then (s.eg p).frag else 0

/-- A message of the time unit has started to leave port p. -/
def State.sentOwn (s : State) (p : Nat) (f : Frame) : State :=
  match f.own with
  | some m => s.ownSent p m
  | none => s

/-- The FIFO of a copy that leaves port p to a ring: of a port with DMA rings the ring's it was steered to, or the one's steering finds
now (R197); of port 23 its class's (R444). -/
def State.copyRing (s : State) (p : Nat) (f : Frame) (c : Copy) : Option Nat × State :=
  if p = 23 then (some (16 + c.tc), s)
  else if c.ring = noRing then s.steer (s.frameKey f) else (some c.ring, s)

/-- Copy k of frame i starts leaving port p. A copy for a port with rings enters its ring's FIFO. [DEDUCED, log entry 36] -/
def State.txStart (s : State) (p i k : Nat) : State :=
  match s.copyAt i k with
  | none => s
  | some (f, c) =>
    let pre := !s.express p c.tc
    if s.ringed p then
      let b := if c.eddy.isSome ∨ f.bus then s.copyBytes f c
        else s.freCopy f.route.frer f.seqNo p (if (if c.ct then f.provMark else f.mark) then markDei f.bytes else f.bytes)
      let b := if c.ct then b.take s.maxLen else b
      let data := if f.bus ∨ (c.eddy.isSome ∧ !s.isMirror c) then b else b ++ ethFcs b
      let kind := if p = 23 then b2n f.bus + 2 * b2n c.eddy.isSome else 0
      match s.copyRing p f c with
      | (none, s) => s.copyDone i k
      | (some r, s) =>
      let s := s.setFrame i (some (f.setCopy k { c with ring := r }))
      match s.rxStart r i f.ts (if c.ct then s.upRate f.ingress else s.upRate p) kind data with
      | (false, s) => s.copyDone i k
      | (true, s) => ((s.copySt i k .sending).setEg p { s.eg p with tx := some ⟨i, k, pre, data, c.tc, s.now⟩, frag := s.fragKept p }).sentOwn p f
    else
      match s.egressBytes p f c with
      | (none, s) => s.copyDone i k
      | (some b, s) =>
        (((s.copySt i k .sending).setEg p { s.eg p with tx := some ⟨i, k, pre, b, c.tc, s.now⟩, frag := s.fragKept p }).emit (.frameStart p b)).sentOwn
          p f

/-! ### Errors of cells (R94) -/

/-- Cells of frame i after its cell k are unreachable: its link record fails parity (R94). [DESIGN CHOICE, log entry 91] -/
def State.cellsLost (s : State) (i k : Nat) : State :=
  match s.frame i with
  | none => s
  | some f =>
    let s := s.setFrame i (some { f with cells := f.cells.take (k + 1) })
    { s with bsn := { s.bsn with lost := s.bsn.lost ++ f.cells.drop (k + 1) } }

/-- What a read of frame i's cells finds is counted: 1 a corrected error, 2 an uncorrectable one, 3 + k a failed link record of cell k, an
uncorrectable error too; `p` is the port that the log record names. [DESIGN CHOICE, log entry 91] -/
def State.eccCount (s : State) (i p ecc : Nat) : State :=
  if ecc = 0 then s
  else if ecc = 1 then s.stat Reg.BSN_ECC_CORR 1
  else
    let s := ((s.evt Reg.BSN_ECC_UNCORR).raise .bsn 0 Irq.BSN_ECC_UNCORR).logEvt .bsn 0 Irq.BSN_ECC_UNCORR 10000000 false (toBE 1 p)
    if 3 ≤ ecc then s.cellsLost i (ecc - 3) else s

/-- A cut-through copy of a bad frame is poisoned: counted, captured, raised and logged (R110, R111). [DEDUCED, log entry 24] -/
def State.poisonOne (s : State) (f : Frame) (cause : Nat) (c : Copy) : State :=
  if !c.ct || !c.live then s
  else
    let s1 := s.stat (Reg.BSN_CT_POISON_TX c.dest) 1
    let s2 := if s.bsn.poisoned then s1
      else
        { (s1.wr Reg.BSN_POISON_CAP0 (wd (f.ingress + c.dest * 256 + cause * 65536))).wr Reg.BSN_POISON_CAP1
            (wd (f.handle.getD 0 + b2n f.handle.isSome * 65536)) with bsn := { s1.bsn with poisoned := true } }
    (s2.raise .bsn 0 Irq.BSN_POISON).logEvt .bsn 0 Irq.BSN_POISON 10000000 false (toBE 1 f.ingress ++ toBE 1 c.dest ++ toBE 1 cause)

/-- The cut-through copies of a frame that proves bad are poisoned. -/
def State.poisonAll (s : State) (f : Frame) (cause : Nat) : State :=
  let any := f.copies.any (fun c => c.ct && c.live)
  let s := if any ∧ f.ingress < 26 then s.stat (Reg.BSN_CT_POISON_RX f.ingress) 1 else s
  f.copies.foldl (fun s c => s.poisonOne f cause c) s

/-- A queued copy of a frame that a read has found bad is dropped; a sample is still sent. [DESIGN CHOICE, log entry 91] -/
def State.unqueue (s : State) (i k : Nat) : State :=
  match s.copyAt i k with
  | none => s
  | some (_, c) =>
    if (s.queue c.q).contains (i, k) ∧ (c.eddy.isNone ∨ s.isMirror c) then
      let s := if c.dest < 26 then s.creditSync c.dest else s
      ((s.setQueue c.q ((s.queue c.q).filter (fun x => decide (x ≠ (i, k))))).stat Reg.BSN_BAD_SF 1).copyDrop i k 6
    else s

/-- An error found as frame i's cells are read for port p (R94): an uncorrectable one makes the frame bad. [DESIGN CHOICE, log entry 91] -/
def State.readError (s : State) (i p ecc : Nat) : State :=
  let s := s.eccCount i p ecc
  match s.frame i with
  | none => s
  | some f =>
    if ecc < 2 ∨ f.state = 2 then s
    else
      let s := (s.setFrame i (some { f with state := 2, cause := 5 })).poisonAll f 5
      (List.range f.copies.length).foldl (fun s k => s.unqueue i k) s

/-- Take the head copy off class k's queue and start it; `ecc` is what reading its cells finds. [DESIGN CHOICE, log entry 91] -/
def State.txNext (s : State) (p k ecc : Nat) : State :=
  match s.queue (8 * p + k) with
  | [] => s
  | x :: _ =>
    let s := s.readError x.1 p ecc
    match s.queue (8 * p + k) with
    | [] => s
    | y :: t => if y = x then (s.setQueue (8 * p + k) t).txStart p x.1 x.2 else s

/-- Head frames that no open span of their class can hold are dropped (R145). -/
def State.dropTooBig (s : State) (p k : Nat) : Nat → State
  | 0 => s
  | n + 1 =>
    match s.queue (8 * p + k) with
    | [] => s
    | (i, c) :: t =>
      match s.copyAt i c with
      | none => (s.setQueue (8 * p + k) t).dropTooBig p k n
      | some (f, x) =>
        if s.tooBig p k (s.copyLen f x + 20) then
          (((s.setQueue (8 * p + k) t).evt (Reg.SLU_TOO_BIG p)).raise .slu p Irq.SLU_TOO_BIG |>.copyDone i c).dropTooBig p k n
        else s

/-- The suspended frame may resume: its gate is open and no Set-And-Hold is in force. [DEDUCED, log entry 36] -/
def State.mayResume (s : State) (p : Nat) : Bool :=
  match (s.eg p).susp with
  | some x => s.gateOpen p x.tc && !(s.eg p).hold
  | none => false

/-- The suspended frame resumes with a continuation fragment. -/
def State.resume (s : State) (p : Nat) : State :=
  match (s.eg p).susp with
  | some x => (s.setEg p { s.eg p with tx := some { x with since := s.now }, susp := none }).stat (Reg.EGS_FRAG_TX p) 1
  | none => s

/-- The processor behind port 23 or 25 runs (R18), its clocks with PLL_SVC's lock (R443); Confluence behind port 24 is enabled and has no work item in progress (R263). -/
def State.procRuns (s : State) (p : Nat) : Bool :=
  if p = 25 then s.mgs.running && !s.mgs.down
  else if p = 23 then s.rb Reg.CRU_CLK_STAT 5 && s.svc.parts.any (fun x => decide (x.2.state = 1))
  else if p = 24 then s.enabled .cfl 0 && s.cfl.item.isNone && !s.twn.holdCfl
  else true

/-- EGRESS_SELECT on port p; `ecc` is what reading the cells of the copy it starts finds. -/
def State.egressSelect (s : State) (p : Nat) (ecc : Nat := 0) : State :=
  if (s.eg p).tx.isSome || !s.portUp p || !s.procRuns p then s
  else
    let s := s.creditSync p
    let s := (List.range 8).foldl (fun s k => s.dropTooBig p k (s.queue (8 * p + k)).length) s
    if s.paused p then (if s.mayResume p then s.resume p else s)
    else
      match s.choose p (s.heads p) (s.eg p).susp.isSome with
      | (some k, s) => s.txNext p k ecc
      | (none, s) => if s.mayResume p then s.resume p else s

/-! ### The end of a copy (R97, R204) -/

/-- The statistics of a frame sent on a port: its bytes from DMAC through FCS. -/
def State.countTx (s : State) (p : Nat) (b : List Byte) : State :=
  if 23 ≤ p ∨ s.dmaPort p then s
  else
    let s := (s.stat (Reg.EPT_TX_FRAMES p) 1).stat (Reg.EPT_TX_BYTES p) (b.length + 4)
    let d := beAt b 0 6
    s.stat (if d = 0xFFFFFFFFFFFF then Reg.EPT_TX_BCAST p else if isGroup d then Reg.EPT_TX_MCAST p else Reg.EPT_TX_UCAST p) 1

/-- TX_COMPLETE on port p: the last byte of the frame in progress leaves. A cut-through copy does not end before its verdict. -/
def State.txComplete (s : State) (p : Nat) : State :=
  match (s.eg p).tx with
  | none => s
  | some x =>
    match s.copyAt x.fid x.idx with
    | none => s.setEg p { s.eg p with tx := none }
    | some (f, c) =>
      if f.state = 0 then s
      else
        let poison := decide (f.state = 2) && (c.ct || c.eddy.isNone)
        let s := s.creditSync p
        let bare := f.bus ∨ (c.eddy.isSome ∧ !s.isMirror c)
        let n := x.bytes.length + if bare ∨ s.ringed p then 0 else 4
        let s := (s.stat (Reg.EGS_TX_FRAMES p x.tc) 1).stat (Reg.EGS_TX_BYTES p x.tc) n
        let s := s.countTx p x.bytes
        let s := if 16 ≤ p ∧ p < 20 then s.setEport p { s.eport p with coll := 0 } else s
        let s := match c.eddy with | some (r, _) => s.stat (Reg.EDY_SENT r) 1 | none => s
        let s := if s.ringed p then
            (if c.ct then s else s.rxCommit c.ring x.fid (rxWord0 x.bytes.length f.ingress f.handle poison false))
          else s.emit (.frameEnd p poison)
        (s.setEg p { s.eg p with tx := none, frag := s.fragKept p }).copyDone x.fid x.idx

/-- PREEMPT on port p: the preemptable frame in progress, `sent` bytes of whose fragment are out, is suspended when an express class
can be served, a Set-And-Hold is in force or its gate is closed, and the scheduler chooses anew (R146, R150). -/
def State.preempt (s : State) (p sent : Nat) : State :=
  match (s.eg p).tx with
  | none => s
  | some x =>
    let e := s.eg p
    let wanted := (s.pickExpress p (s.heads p)).1.isSome && !s.paused p || e.hold || !s.gateOpen p x.tc
    if x.pre ∧ s.preemptActive p ∧ s.minFrag p ≤ sent ∧ e.frag + sent + 64 ≤ x.bytes.length + 4 ∧ wanted then
      ((s.creditSync p).setEg p { (s.creditSync p).eg p with tx := none, susp := some x, frag := e.frag + sent }).egressSelect p
    else s

/-! ### Linking (R95, R107) -/

/-- Link copy k of frame i to its queue. -/
def State.link (s : State) (i k : Nat) : State :=
  match s.copyAt i k with
  | none => s
  | some (_, c) =>
    let s := if c.dest < 26 then s.creditSync c.dest else s
    (s.copySt i k .queued).setQueue c.q (s.queue c.q ++ [(i, k)])

/-- An egress would serve class k now with a cut-through candidate (R141), and transmits and holds nothing. -/
def State.egressIdle (s : State) (p k : Nat) : Bool :=
  (s.eg p).tx.isNone && (s.eg p).susp.isNone && !s.paused p && (List.range 8).all (fun c => (s.queue (8 * p + c)).isEmpty) &&
  s.mayServe p k (s.maxLen + 20)

/-- Charge a cut-through frame of `n` bytes to its class's deficit as the scheduler's choice would. [DEDUCED, log entry 36] -/
def State.chargeCt (s : State) (p k n : Nat) : State :=
  (s.choose p (fun j => if j = k then some (n + 20, s.maxLen + 20) else none) false).2

end Sys2Proof.Machine
end

