-- ==== Sys2Proof/Machine/Wake.lean ====
section
/-! DEFINITION. The sleep and wake sequencer as the other blocks meet it: its entry, what it stops, what confirms a wake (R388,
R393, R395). -/

namespace Sys2Proof.Machine

/-- Replace the power state. -/
def State.setPwr (s : State) (p : PwrSt) : State := { s with pwr := p }

/-- MODE of wake source k: 3 acts as 1, and 2 as 1 beyond the CAN channels (Table 14-12). -/
def State.wakeMode (s : State) (k : Nat) : Nat :=
  match s.rf (Reg.AON_WSRC_CFG k) 0 2 with
  | 0 => 0
  | 2 => if k < 24 then 2 else 1
  | _ => 1

/-- The device sleeps: DORMANT or SELECTIVE. There the Vault's sensors that Table 11-12 arms latch, the others are off. -/
def State.asleep (s : State) : Bool := decide (s.pwr.state = 1) || decide (s.pwr.state = 2)

/-- Wake source k belongs to the sleep set. -/
def State.inSleepSet (s : State) (k : Nat) : Bool :=
  if k < 24 then s.rb Reg.AON_SLEEP_SET0 k else decide (k < 44) && s.rb Reg.AON_SLEEP_SET1 (k - 24)

/-- The members of the sleep set. -/
def State.sleepSet (s : State) : List Nat := (List.range 44).filter s.inSleepSet

/-- Writing MODE re-arms a source (R393). [DEDUCED, log entry 65] -/
def State.rearm (s : State) (k : Nat) : State :=
  let s := if k < 32 then s.wf Reg.AON_FW_DIS_LO k 1 0 else s.wf Reg.AON_FW_DIS_HI (k - 32) 1 0
  s.setPwr { s.pwr with fwRun := Tab.set (fun _ => 0) s.pwr.fwRun k 0 }

/-- The MODE of sources 32-39 from EPT_TC10.WUP_DET_EN of the GT ports, while those can be read (R388). -/
def State.wupModes (s : State) : State :=
  if !s.pwr.fwdOn then s
  else (List.range 8).foldl (fun s i =>
    (s.wf (Reg.AON_WSRC_CFG (32 + i)) 0 2 (b2n (s.rb (Reg.EPT_TC10 (8 + i)) 1))).rearm (32 + i)) s

/-- The mapped pages whose blocks are enabled, of those that satisfy `p`. -/
def State.enabledPages (s : State) (p : Blk → Nat → Bool) : List Nat :=
  (List.range 0x101).filter fun pg =>
    match pageOf pg with
    | some (b, i) => s.blkOn b && p b i && s.enabled b i
    | none => false

/-- QUIESCE_REQ is asserted to pages by the sequencer. [DEDUCED, log entry 64] -/
def State.askQuiet (s : State) (l : List Nat) : State :=
  let s := l.foldl (fun s pg => s.wf (Reg.BLK_CTRL (pg * 0x1000)) 1 1 1) s
  s.setPwr { s.pwr with asked := l }

/-- QUIESCE_REQ is released on the pages that were asked. [DEDUCED, log entry 64] -/
def State.freeQuiet (s : State) : State :=
  let s := s.pwr.asked.foldl (fun s pg => (s.wf (Reg.BLK_CTRL (pg * 0x1000)) 1 1 0).wf (Reg.BLK_STAT (pg * 0x1000)) 1 1 0) s
  s.setPwr { s.pwr with asked := [], waiting := [] }

/-- Activity on the bus or segment of wake source k: in PRE_SLEEP it is silent no more (R395 step 4). [DEDUCED, log entry 65] -/
def State.heard (s : State) (k : Nat) : State :=
  if s.pwr.seq = 1 ∧ s.pwr.quiet.contains k then s.setPwr { s.pwr with quiet := s.pwr.quiet.filter (fun i => decide (i ≠ k)) } else s

/-- PRE_SLEEP is entered toward a target (R395 step 1, R379): detectors armed, QUIESCE_REQ to the blocks that will lose power. From
here PRE_SLEEP itself holds the TX_SIG transmissions of step 2. [DEDUCED, log entry 65] -/
def State.preSleep (s : State) (target : Nat) : State :=
  let s := s.wupModes
  let s := s.askQuiet (s.enabledPages (fun b _ => decide (b ≠ .aon)))
  (s.wr Reg.AON_WAKE_CAP0 0).setPwr { s.pwr with
    seq := 1, sleepTarget := target, silent := [], quiet := [], latch := [], latched := false, postPoint := false, decodeErr := false, trims := [],
    replay := none, deferred := none }

/-- The sleep that a consumed signal requests (R395): begun, or deferred until the target state is reached. -/
def State.signalSleep (s : State) : State :=
  if s.pwr.seq = 0 ∧ !s.pwr.busy then s.preSleep 2
  else if s.pwr.seq = 0 ∨ s.pwr.seq = 3 then s.setPwr { s.pwr with deferred := some 2 }
  else s

/-- SOURCE i has been consumed with value v. -/
def State.sleepSignal (s : State) (i v : Nat) : State :=
  let c := s.rd Reg.AON_NM_SIG
  if bit c 31 ∧ fld c 0 15 = i ∧ !s.rb Reg.AON_NM_CFG 0 ∧ wd v = s.rd Reg.AON_NM_SIGVAL then s.signalSleep else s

/-- TX_SIG transmissions to a bus channel (0-23 CAN, 24-31 LIN) are stopped (R395 step 2). -/
def State.txStopped (s : State) (ch : Nat) : Bool := (decide (s.pwr.seq = 1) || decide (s.pwr.seq = 2)) && s.inSleepSet ch

/-- Wake source k is confirmed (R393). [DEDUCED, log entry 66] -/
def State.confirmSrc (s : State) (k : Nat) : State :=
  if s.pwr.confirm.contains k then
    s.setPwr { s.pwr with confirm := s.pwr.confirm.filter (fun i => decide (i ≠ k)), fwRun := Tab.set (fun _ => 0) s.pwr.fwRun k 0 }
  else s

end Sys2Proof.Machine
end

