-- ==== Sys2Proof/Machine/Weir.lean ====
section
/-! DEFINITION. Weirs: two-rate three-colour meters and the metering of frames (R130-R136). -/

namespace Sys2Proof.Machine

/-- A meter. -/
def State.meter (s : State) (i : Nat) : Meter := Tab.get (fun _ => Meter.reset) s.meters i

/-- Replace a meter. -/
def State.setMeter (s : State) (i : Nat) (m : Meter) : State := { s with meters := Tab.set (fun _ => Meter.reset) s.meters i m }

def Meter.en (m : Meter) : Bool := bit m.d0 0
def Meter.caware (m : Meter) : Bool := bit m.d0 1
def Meter.yellowAct (m : Meter) : Nat := fld m.d0 2 2
def Meter.redPass (m : Meter) : Bool := bit m.d0 4
def Meter.lenEn (m : Meter) : Bool := bit m.d0 5
def Meter.maxFrame (m : Meter) : Nat := fld m.d0 16 14
def Meter.cir (m : Meter) : Nat := fld m.d1 0 25
def Meter.pir (m : Meter) : Nat := fld m.d2 0 25
def Meter.cbs (m : Meter) : Nat := fld m.d3 0 24
def Meter.pbs (m : Meter) : Nat := fld m.d4 0 24

/-- A level with the tokens of `dt` ns at `rate` kbit/s added, in bytes with a 16-bit fraction, capped (R132). [DEDUCED, log entry 29] -/
def refillLevel (level rate cap dt : Nat) : Nat :=
  min (cap * 65536) (level + rate * 125 * 65536 * dt / 1000000000)

/-- refill(m) at an FRC time. [DEDUCED, log entry 29] -/
def Meter.refill (m : Meter) (now : Nat) : Meter :=
  { m with tc := refillLevel m.tc m.cir m.cbs (now - m.last), tp := refillLevel m.tp m.pir m.pbs (now - m.last), last := now }

/-- colour(m, B, entered_yellow, charge) of R132 on refilled levels: 0 green, 1 yellow, 2 red. [DEDUCED, log entry 29] -/
def Meter.colour (m : Meter) (b : Nat) (yellow charge : Bool) : Nat × Meter :=
  let n := b * 65536
  if m.lenEn ∧ m.maxFrame < b then (2, m)
  else if m.tp < n then (2, m)
  else if (m.caware ∧ yellow) ∨ m.tc < n then
    (1, if charge then { m with tp := m.tp - n } else m)
  else (0, if charge then { m with tp := m.tp - n, tc := m.tc - n } else m)

/-- What a meter does with a frame of a colour (Table 5-2): 0 forward, 1 mark, 2 drop. -/
def Meter.action (m : Meter) (c : Nat) : Nat :=
  match c with
  | 0 => 0
  | 1 => if m.yellowAct = 0 then 0 else if m.yellowAct = 1 then 1 else 2
  | _ => if m.redPass then 0 else 2

/-- The statistics counter of a colour of meter i. -/
def colourCounter (c : Nat) : Nat := if c = 0 then Reg.WEI_GREEN else if c = 1 then Reg.WEI_YELLOW else Reg.WEI_RED

/-- One meter judges a frame: its colour and action; a final colour (`charge`) is counted. A meter with EN = 0 answers green. [DEDUCED, log entry 29] -/
def State.weirOne (s : State) (i b : Nat) (yellow charge : Bool) : (Nat × Nat) × State :=
  let m := s.meter i
  if !m.en then ((0, 0), if charge then s.stat (itemKey i Reg.WEI_GREEN) 1 else s)
  else
    let (c, m') := (m.refill s.now).colour b yellow charge
    let s := s.setMeter i m'
    ((c, m.action c), if charge then s.stat (itemKey i (colourCounter c)) 1 else s)

/-- The meters of a frame together: the worse colour and the more severe action (R135). -/
def State.weirAll (s : State) (b : Nat) (yellow charge : Bool) : List Nat → (Nat × Nat) × State
  | [] => ((0, 0), s)
  | i :: t =>
    let ((c, a), s) := s.weirOne i b yellow charge
    let ((c', a'), s) := s.weirAll b yellow charge t
    ((max c c', max a a'), s)

/-- The envelope meter of a handle: that of its lowest-numbered reservation that is not FREE (R130, R157). -/
def State.envelopeMeter (s : State) (h : Nat) : Option Nat :=
  (s.bud.resv.find? (fun (_, r) => decide (r.state ≠ 0) && decide (r.handle = h))).map (fun p => 3072 + p.1)

/-- The meters of a frame: that of its route and its handle's envelope meter (R130). -/
def State.metersOf (s : State) (route handle : Option Nat) : List Nat :=
  let env := match handle with | some h => s.envelopeMeter h | none => none
  match route, env with
  | some a, some b => if a = b then [a] else [a, b]
  | some a, none => [a]
  | none, some b => [b]
  | none, none => []

/-- The bits of a meter's words that are no reserved bits. -/
def meterMask : List Word := [0x3FFF003F, 0x01FFFFFF, 0x01FFFFFF, 0x00FFFFFF, 0x00FFFFFF]

/-- The meter belongs to the Budget Engine while BUD_CFG.EN = 1. -/
def State.meterOwned (s : State) (i : Nat) : Bool := decide (3072 ≤ i) && s.rb Reg.BUD_CFG 0

/-- The fields of an enabled meter lie in the ranges of Table 5-1. -/
def Meter.inRange (m : Meter) : Bool :=
  decide (64 ≤ m.maxFrame) && decide (m.maxFrame ≤ 9216) && decide (m.cir ≤ 25000000) && decide (m.cir ≤ m.pir) &&
  decide (m.pir ≤ 25000000) && decide (1 ≤ m.cbs) && decide (1 ≤ m.pbs)

/-- New words for meter i: levels start full when EN goes from 0 to 1, and are otherwise kept and clipped (R136). -/
def State.meterSet (s : State) (i : Nat) (d0 d1 d2 d3 d4 : Word) : State :=
  let old := s.meter i
  let m : Meter := ⟨d0, d1, d2, d3, d4, old.tc, old.tp, old.last⟩
  let fresh := m.en && !old.en
  let tc := if fresh then m.cbs * 65536 else min old.tc (m.cbs * 65536)
  let tp := if fresh then m.pbs * 65536 else min old.tp (m.pbs * 65536)
  s.setMeter i { m with tc := tc, tp := tp, last := if fresh then s.now else old.last }

/-- A refused APPLY. -/
def State.weiRej (s : State) : State := (s.evt Reg.WEI_REJ).raise .wei 0 Irq.WEI_REJ

/-- APPLY of master m (R136). -/
def State.weiApply (s : State) (m : Nat) : State :=
  let i := s.rf (bankKey m Reg.WEI_SEL) 0 12
  let d := fun k => s.rd (bankKey m (Reg.WEI_DATA k)) &&& meterMask.getD k 0
  let n : Meter := ⟨d 0, d 1, d 2, d 3, d 4, 0, 0, 0⟩
  if s.meterOwned i ∨ (n.en ∧ !n.inRange) then s.weiRej else s.meterSet i (d 0) (d 1) (d 2) (d 3) (d 4)

/-- LOAD of master m: OWNED reads in D0[6]. -/
def State.weiLoad (s : State) (m : Nat) : State :=
  let i := s.rf (bankKey m Reg.WEI_SEL) 0 12
  let e := s.meter i
  let put := fun (s : State) (k : Nat) (v : Word) => s.wr (bankKey m (Reg.WEI_DATA k)) v
  put (put (put (put (put s 0 (setFld e.d0 6 1 (b2n (s.meterOwned i)))) 1 e.d1) 2 e.d2) 3 e.d3) 4 e.d4

/-- A write of WEI_CMD. -/
def State.weiCmd (s : State) (m : Nat) (v : Word) : State :=
  let s := if bit v 0 then s.weiApply m else s
  if bit v 1 then s.weiLoad m else s

end Sys2Proof.Machine
end

