-- ==== Sys2Proof/Machine/Path.lean ====
section
/-! DEFINITION. The frame path (R17-R22): reception, handles, routes, policing, storage and copies, cut-through, verdicts, and frames
that blocks inside present. -/

namespace Sys2Proof.Machine

/-! ### Stage 3: handles (R64-R66) -/

/-- An ICT lookup, counted. -/
def State.ictLook (s : State) (key : Nat) : Option Nat × State :=
  match s.ictFind key with
  | some i => (some (fld (s.tent 1 i) 144 16), s.stat Reg.ICT_HIT 1)
  | none => (none, s.stat Reg.ICT_MISS 1)

/-- Key of a {MAC, VID} lookup of a type (Table 3-4). -/
def ethKey (typ mac vid : Nat) : Nat := typ * 2 ^ 124 + mac % 2 ^ 48 + vid % 4096 * 2 ^ 48

/-- The handle of an Ethernet frame by its ingress's SID mode. [DEDUCED, log entry 83] -/
def State.ethHandle (s : State) (p : Nat) (x : Parsed) (vid : Nat) : Option Nat × State :=
  match s.rf (Reg.ICL_PORT_CFG p) 16 2 with
  | 0 => (none, s)
  | 1 => s.ictLook (ethKey 3 x.dmac vid)
  | 2 => s.ictLook (ethKey 4 x.smac vid)
  | _ =>
    match s.ictLook (ethKey 3 x.dmac vid) with
    | (some h, s) => (some h, s)
    | (none, s) => s.ictLook (ethKey 4 x.smac vid)

/-- The handle of a bus frame of bus `n` (26-49 CAN, 50-57 LIN). [DEDUCED, log entry 83] -/
def State.busHandle (s : State) (n : Nat) (b : List Byte) : Option Nat × State :=
  if ¬ (if busFmt b = 3 then 50 ≤ n ∧ n < 58 else 26 ≤ n ∧ n < 50) then (none, s)
  else if busFmt b = 3 then (some (0xC000 + (n - 50) * 64 + busId b % 64), s)
  else if busFmt b = 2 then
    s.ictLook (2 * 2 ^ 124 + (n - 26) * 2 ^ 64 + (wd (busAf b) &&& s.rd Reg.ICL_XL_AF_MASK).toNat * 2 ^ 32 + busId b % 2048)
  else if busIde b then s.ictLook (2 ^ 124 + (n - 26) * 2 ^ 64 + busId b)
  else (some ((n - 26) * 2048 + busId b % 2048), s)

/-! ### Stage 4: routes (R70-R76) -/

/-- A frame fails a check of Table 3-7 (`kind` 1 to 5): counted, recorded, raised and logged. -/
def State.srtFail (s : State) (kind h ingress ts : Nat) : State :=
  let c := match kind with
    | 1 => Reg.SRT_SPOOF | 2 => Reg.SRT_IDENT_CONFLICT | 3 => Reg.SRT_AUTH_MISSING | 4 => Reg.SRT_DUPLICATE
    | _ => Reg.SRT_IDENT_DATA_CONFLICT
  let s := ((s.evt c).wr Reg.SRT_LAST_EVT_TS (wd ts)).wr Reg.SRT_LAST_EVT (wd (h + ingress * 65536 + kind * 2 ^ 24))
  let s := s.raise .srt 0 (kind - 1)
  if kind = 1 ∨ kind = 2 ∨ kind = 5 then s.logEvt .srt 0 (kind - 1) 10000000 false (toBE 2 h ++ toBE 1 ingress) else s

/-- Checks 1 to 3 of Table 3-7: the first that fails, or 0. -/
def srtHead (e : BitVec 512) (ingress : Nat) (prot : Bool) : Nat :=
  if srtSelf e ∧ 26 ≤ ingress ∧ ingress < 50 then 1
  else if srtOwner e ≠ 63 ∧ srtOwner e ≠ ingress then 2
  else if srtAuth e ∧ !prot then 3
  else 0

/-- A destination set without the ingress (R71). -/
def without (dest ingress : Nat) : Nat := if dest.testBit ingress then dest - 2 ^ ingress else dest

/-- The route an SRT entry gives a frame. -/
def srtRoute (e : BitVec 512) (ingress : Nat) : Route :=
  ⟨without (srtDest e) ingress, srtTc e, srtMeter e, srtFrer e, srtView e, srtPdu e, srtCt e, srtAuth e, srtMinInt e, srtOwner e, true⟩

/-- A destination set of the ADT with the class of the frame's PCP (R75). -/
def State.adtTo (s : State) (p : Nat) (x : Parsed) (dest : Nat) : Route :=
  ⟨without dest p, s.rf Reg.ICL_PCP_TC (3 * s.pcpOf p x) 3, none, none, none, none, s.rb (Reg.ICL_PORT_CFG p) 18, false, 0, 63, false⟩

/-- ADT forwarding (R76): none when the frame is dropped. -/
def State.adtRoute (s : State) (p : Nat) (x : Parsed) (vid : Nat) : Option Route × State :=
  if isGroup x.smac then (none, (s.evt Reg.ADT_BAD_SMAC).raise .adt 0 Irq.ADT_BAD_SMAC)
  else
    let s := s.perf 0x31 1
    match s.adtFind (adtKey x.dmac vid) with
    | some i =>
      let e := s.tent 2 i
      if adtMcast e then (some (s.adtTo p x (fld e 128 26)), s)
      else if adtPort e = p then (none, s.stat Reg.ADT_LOCAL_FILTER 1)
      else (some (s.adtTo p x (2 ^ adtPort e)), s)
    | none =>
      let m := s.rf (if isGroup x.dmac then Reg.ADT_FLOOD_MC p else Reg.ADT_FLOOD_UC p) 0 26
      (some (s.adtTo p x m), s.stat Reg.ADT_FLOOD 1)

/-- Stage 4 of an Ethernet frame: its route, none when it is dropped. [DEDUCED, log entry 83] -/
def State.ethRoute (s : State) (p ts : Nat) (x : Parsed) (vid : Nat) (h : Option Nat) (prot : Bool) : Option Route × State :=
  match h with
  | some h =>
    let e := s.srt h
    let s := s.perf 0x30 1
    if srtValid e then
      let k := srtHead e p prot
      if k = 0 then (some (srtRoute e p), s) else (none, s.srtFail k h p ts)
    else s.adtRoute p x vid
  | none => s.adtRoute p x vid

/-! ### The MIN_INT check (R74) -/

/-- The digest of a frame's content. -/
def contentDigest (b : List Byte) : Nat := crc32c 0xFFFFFFFF (toBE 2 b.length ++ b)

/-- The check applies to a route. [DEDUCED, log entry 83] -/
def Route.checked (r : Route) : Bool := r.srt && decide (r.minInt ≠ 0) && decide (r.owner ≠ 63)

/-- Checks 4 and 5: 0, or the kind that fails. [DEDUCED, log entry 83] -/
def State.minIntCheck (s : State) (r : Route) (h ts digest : Nat) : Nat :=
  if !r.checked then 0
  else
    match Tab.get (fun _ => none) s.bsn.minInt h with
    | some (t, d) => if ts < t + r.minInt * 100000 then (if d = digest then 4 else 5) else 0
    | none => 0

/-- A frame is accepted for its handle. [DEDUCED, log entry 83] -/
def State.minIntAccept (s : State) (r : Route) (h ts digest : Nat) : State :=
  if r.checked then { s with bsn := { s.bsn with minInt := Tab.set (fun _ => none) s.bsn.minInt h (some (ts, digest)) } } else s

/-! ### Stage 7: copies (R96, R101-R107, R119-R122, R158) -/

/-- The replicator needs one core cycle more for the frame it took last, whose Eddy copy is the first of a further group of four (R101). [DEDUCED, log entry 23] -/
def State.replMore (s : State) : State :=
  match s.bsn.repl.getLast? with
  | some t => { s with bsn := { s.bsn with repl := s.bsn.repl.dropLast ++ [t + 1] } }
  | none => s

/-- The replicator takes a frame of `n` copies, or its queue is full (R101). [DEDUCED, log entry 23] -/
def State.replicate (s : State) (n : Nat) : Bool × State :=
  let l := s.bsn.repl.filter (fun t => decide (s.now < t))
  if 128 ≤ l.length then (false, { s with bsn := { s.bsn with repl := l } })
  else
    let start := max s.now (l.getLastD 0)
    (true, { s with bsn := { s.bsn with repl := l ++ [start + (n + 3) / 4] } })

/-- A copy in a reserved class needs a reservation of its handle (R158). -/
def State.unreserved (s : State) (d tc : Nat) (h : Option Nat) : Bool :=
  decide (d < 26) && s.tcRsv d tc &&
  !s.bud.resv.any (fun (_, r) => decide (r.state ≠ 0) && decide (r.port = d) && decide (r.tc = tc) && decide (h = some r.handle))

/-- A copy wants a descriptor and admission: 0, or the drop reason. [DEDUCED, log entry 23; DESIGN CHOICE, log entry 89] -/
def State.copyAdmit (s : State) (q made : Nat) (bus : Option Nat) : Nat := if s.descFree ≤ made then 4 else s.admitCode q bus

/-- A copy for destination d is dropped at admission (R96, R102); one of an Eddy rule counts in EDY_LOST (R120). -/
def State.admitDrop (s : State) (d reason : Nat) (h eddy : Option Nat) : State :=
  let s := s.anyDrop d reason h eddy
  if reason = 4 then
    ((s.stat Reg.BSN_DESC_EXH 1).raise .bsn 0 Irq.BSN_DESC_EXH).logEvt .bsn 0 Irq.BSN_DESC_EXH 10000000 false (toBE 1 d)
  else s

/-- A copy of a reserved class without a reservation is dropped and counted (R158). -/
def State.unrsvDrop (s : State) (d : Nat) : State := (s.stat (Reg.EGS_UNRSV_DROP d) 1).raise .egs d Irq.EGS_UNRSV_DROP

/-- The copies for a list of (destination, ring): those admitted, in order, and the reason of the last drop. [DEDUCED, log entry 23] -/
def State.admitAll (s : State) (tc : Nat) (h : Option Nat) (bus : Option Nat) :
    List (Nat × Nat) → List Copy → Nat → (List Copy × Nat) × State
  | [], acc, why => ((acc, why), s)
  | (d, ring) :: t, acc, why =>
    if s.unreserved d tc h then
      (s.unrsvDrop d).admitAll tc h bus t acc why
    else
      let q := queueOf d tc
      let r := s.copyAdmit q acc.length bus
      if r = 0 then s.admitAll tc h bus t (acc ++ [⟨d, tc, q, false, .waiting, ring, none⟩]) why
      else (s.admitDrop d r h none).admitAll tc h bus t acc r

/-- The destinations of a frame with the ring of a host copy: one that steering drops is left out. -/
def State.destList (s : State) (key : SteerKey) : List Nat → List (Nat × Nat) × State
  | [] => ([], s)
  | d :: t =>
    if s.dmaPort d then
      match s.steer key with
      | (some r, s) => let (l, s) := s.destList key t; ((d, r) :: l, s)
      | (none, s) => s.destList key t
    else let (l, s) := s.destList key t; ((d, noRing) :: l, s)

/-- The destination of rule i's copy, none when the rule does not fire (R122, Table 4-13). -/
def State.eddyDest (s : State) (i : Nat) : Option Nat :=
  match s.rf (Reg.EDY_CTRL i) 1 2 with
  | 0 => some 25
  | 1 => some 23
  | 2 =>
    let p := s.rf Reg.EDY_MIRROR 0 5
    if p < 16 ∨ (20 ≤ p ∧ p < 23) then some p else none
  | _ => none

/-- A frame matches rule i (R119); a mirror rule ignores SRC and takes accepted frames (R122). [DESIGN CHOICE, log entry 88] -/
def State.eddyMatch (s : State) (i ingress : Nat) (h : Option Nat) (accepted : Bool) : Bool :=
  let c := s.rd (Reg.EDY_CTRL i)
  let hr := s.rd (Reg.EDY_HRANGE i)
  bit c 0 &&
  (if ingress < 26 then s.rb (Reg.EDY_PORTS i) ingress else bit c 12) &&
  (!bit c 11 || (match h with | some x => decide (fld hr 0 16 ≤ x) && decide (x ≤ fld hr 16 16) | none => false)) &&
  (if fld c 1 2 = 2 then accepted else match fld c 3 2 with | 0 => accepted | 1 => !accepted | _ => true)

/-- Rule i can fire on a frame: its destination exists, and the frame did not arrive on its mirror port. [DESIGN CHOICE, log entry 88] -/
def State.eddyFires (s : State) (i ingress : Nat) : Bool :=
  match s.eddyDest i with
  | some d => decide (s.rf (Reg.EDY_CTRL i) 1 2 ≠ 2) || decide (d ≠ ingress)
  | none => false

/-- The rules in ascending order: each that matches counts the frame; the first that fires is answered, later ones are lost. [DESIGN CHOICE, log entry 88] -/
def State.eddyRun (s : State) (ingress : Nat) (h : Option Nat) (accepted : Bool) : List Nat → Option Nat → Option Nat × State
  | [], won => (won, s)
  | i :: t, won =>
    if !s.eddyMatch i ingress h accepted then s.eddyRun ingress h accepted t won
    else
      let n := s.rf (Reg.EDY_RATE i) 16 16 + 1
      if n < s.rf (Reg.EDY_RATE i) 0 16 then (s.wf (Reg.EDY_RATE i) 16 16 n).eddyRun ingress h accepted t won
      else
        let s := s.wf (Reg.EDY_RATE i) 16 16 0
        if !s.eddyFires i ingress then s.eddyRun ingress h accepted t won
        else
          match won with
          | none => s.eddyRun ingress h accepted t (some i)
          | some w => (s.eddyLost i).eddyRun ingress h accepted t (some w)

/-- The Eddy copy of a frame, if a rule fires and its copy is admitted (R120): steered, checked and admitted as any other copy. `why` is the
frame's Basin drop reason. -/
def State.eddyCopy (s : State) (key : SteerKey) (h : Option Nat) (accepted : Bool) (made why : Nat) (bus : Option Nat) :
    Option Copy × State :=
  match s.eddyRun key.ingress h accepted (List.range 8) none with
  | (none, s) => (none, s)
  | (some i, s) =>
    let d := (s.eddyDest i).getD 25
    let tc := s.rf (Reg.EDY_CTRL i) 8 3
    let q := queueOf d tc
    match s.destList key [d] with
    | ([(_, ring)], s) =>
      if s.unreserved d tc h then (none, (s.unrsvDrop d).eddyLost i)
      else
        let r := s.copyAdmit q made bus
        if r = 0 then (some ⟨d, tc, q, false, .waiting, ring, some (i, if accepted then 0 else why)⟩, s)
        else (none, s.admitDrop d r h (some i))
    | (_, s) => (none, s.eddyLost i)

/-- The copy may be forwarded cut-through (Table 4-3). [DEDUCED, log entry 21] -/
def State.ctOk (s : State) (f : Frame) (c : Copy) : Bool :=
  let d := c.dest
  c.eddy.isNone && !f.bus && decide (256 ≤ f.len) && s.rb Reg.BSN_CFG 16 && f.route.ct && decide (f.route.minInt = 0) &&
  !f.preemptable && (decide (d < 16) || (decide (20 ≤ d) && decide (d < 23))) && s.portUp d &&
  (s.dmaPort d || decide (s.upRate d ≤ s.upRate f.ingress)) && s.egressIdle d c.tc

/-- Grant cut-through to copy k of frame i, if it may have it (R107). -/
def State.ctTry (s : State) (i k : Nat) : State :=
  match s.copyAt i k with
  | none => s
  | some (f, c) =>
    let s1 := if c.dest < 26 then s.creditSync c.dest else s
    if s1.ctOk f c then
      let s2 := (s1.chargeCt c.dest c.tc f.len).stat Reg.BSN_CT_COPIES 1
      (s2.setFrame i (some (f.setCopy k { c with ct := true }))).txStart c.dest i k
    else s

/-- The Basin is being reset: what enters it is dropped with FLUSH until the bit clears (R129). [DESIGN CHOICE, log entry 89] -/
def State.basinOff (s : State) : Bool := s.resets.contains 0x20

/-- Stage 7 for a frame whose route is settled: replicator, admission, sampling, storage. Answers its number. A frame that the replicator
drops, or that has no destination, takes no cells. [DEDUCED, log entry 21; DESIGN CHOICE, log entry 89] -/
def State.basinEnter (s : State) (f : Frame) (key : SteerKey) : Nat × State :=
  let n := if f.bus then (f.len + 255) / 256 else (min f.len s.maxLen + 255) / 256
  let bus := if f.bus then some n else none
  let (l, s) := s.destList key (onesOf f.route.dest 58)
  let (ok, s) := if l.isEmpty ∨ s.basinOff then (true, s) else s.replicate l.length
  if s.basinOff then (l.foldl (fun s x => s.bsnDrop x.1 7 f.handle) s).store f 0
  else if !ok then
    let s := ((s.stat Reg.BSN_REPL_OVF 1).raise .bsn 0 Irq.BSN_REPL_OVF).logEvt .bsn 0 Irq.BSN_REPL_OVF 10000000 false (toBE 1 f.ingress)
    let s := l.foldl (fun s x => s.bsnDrop x.1 5 f.handle) s
    let (c, s) := s.eddyRun f.ingress f.handle false (List.range 8) none
    let s := match c with | some i => s.eddyLost i | none => s
    s.store f 0
  else
    let ((cs, why), s) := s.admitAll f.route.tc f.handle bus l [] 0
    let (e, s) := if cs.isEmpty ∧ why = 0 then (none, s) else s.eddyCopy key f.handle (!cs.isEmpty) cs.length why bus
    let s := if e.isSome ∧ l.length % 4 = 0 then s.replMore else s
    let cs := match e with | some c => cs ++ [c] | none => cs
    let (i, s) := s.store { f with copies := cs } (if l.isEmpty then 0 else n)
    (i, cs.foldl (fun s c => s.quotaScan c.q) s)

/-! ### Verdicts (R109-R112) -/

/-- A waiting copy of a bad frame: a sample is still sent, anything else is dropped. [DEDUCED, log entry 24] -/
def State.badCopy (s : State) (i k : Nat) : State :=
  match s.copyAt i k with
  | none => s
  | some (_, c) =>
    if c.st ≠ .waiting then s
    else if c.eddy.isSome ∧ !s.isMirror c then s.link i k
    else (s.stat Reg.BSN_BAD_SF 1).copyDrop i k 6

/-- A waiting copy of a good frame is linked. -/
def State.goodCopy (s : State) (i k : Nat) : State :=
  match s.copyAt i k with
  | none => s
  | some (_, c) => if c.st = .waiting then s.link i k else s

/-- The verdict reaches the copies of frame i: `cause` 0 is good. -/
def State.settleCopies (s : State) (i cause : Nat) : State :=
  match s.frame i with
  | none => s
  | some f =>
    let ks := List.range f.copies.length
    let ring := fun (s : State) (c : Copy) =>
      if c.ct ∧ c.live ∧ s.ringed c.dest then
        s.rxCommit c.ring i (rxWord0 (match (s.eg c.dest).tx with | some x => x.bytes.length | none => f.len) f.ingress f.handle
          (decide (cause ≠ 0)) (decide (cause = 4)))
      else s
    let s := f.copies.foldl ring s
    let s :=
      if cause = 0 then ks.foldl (fun s k => s.goodCopy i k) s
      else
        ks.foldl (fun s k => s.badCopy i k) (s.poisonAll f cause)
    s.release i

/-- The frame's verdict is known (R109): `early` is a cause found at reception (1 FCS, 2 LENGTH, 6 INGRESS_ABORT) or 0. The FCS that was
wrong is a free value. [DEDUCED, log entry 24] -/
def State.judge (s : State) (i early : Nat) (ecc : Bool) : State :=
  match s.frame i with
  | none => s
  | some f =>
    let x := parse f.bytes
    let s := match f.sa with
      | some (n, pn) => if early = 6 then s else s.lceVerdict f.ingress n pn f.tagOk
      | none => s
    let ((c, a), s) := if early = 6 then ((0, 0), s) else s.weirAll f.len x.dei true (s.metersOf f.route.meter (if f.route.srt then f.handle else none))
    let cause := if early ≠ 0 then early else if a = 2 then 3 else if f.sa.isSome ∧ !f.tagOk then 4 else if ecc then 5 else 0
    let s := if cause = 3 then (s.stat Reg.WEI_LATE_RED 1).raise .wei 0 Irq.WEI_LATE_RED else s
    let h := f.handle.getD 0
    let digest := if f.route.checked then contentDigest (f.bytes.drop x.off) else 0
    let k := if cause = 0 then s.minIntCheck f.route h f.ts digest else 0
    let s := if k = 0 then s else s.srtFail k h f.ingress f.ts
    let cause := if k = 0 then cause else 7
    let s := if cause = 0 then s.minIntAccept f.route h f.ts digest else s.freUntake f.taken
    let s := match f.route.view with
      | some v => s.fgdVerdict v i (decide (cause = 0))
      | none => s
    let (r, s) := if early = 1 then s.draw else (0, s)
    let s := s.setFrame i (some { f with
      state := if cause = 0 then 1 else 2
      cause := cause
      mark := decide (a = 1)
      colour := c
      fcs := if early = 1 then some (toBE 4 r.toNat) else none })
    s.settleCopies i cause

/-! ### Ethernet frames from their head (R59-R62, R133) -/

/-- The frame is consumed at stage 2 (Table 3-2). -/
def State.consumed (s : State) (p : Nat) (x : Parsed) (b : List Byte) : Bool :=
  (decide (x.etype = 0x88F7) && decide (p < 23) && decide (x.dmac = 0x0180C200000E)) ||
  (match x.selector b with
   | some 1 => decide (p < 8)
   | some 2 => decide (p = 22)
   | some 3 => decide (x.dmac = s.devMac)
   | _ => false)

/-- Stages 5 to 7 of an Ethernet frame: its number, none when a stage drops it. One without an SRT entry has no meter (R75). -/
def State.ethPolice (s : State) (p ts : Nat) (b : List Byte) (x : Parsed) (vid : Nat) (h : Option Nat) (r : Route) (pre : Bool)
    (sa : Option (Nat × Nat)) (tagOk : Bool) : Option Nat × State :=
  let ((_, a), s) := s.weirAll 64 x.dei false (s.metersOf r.meter (if r.srt then h else none))
  if a = 2 then (none, (s.stat Reg.WEI_DROP 1).raise .wei 0 Irq.WEI_DROP)
  else
    let (t, s) := match r.frer with
      | some i => s.freStage i x.rtag
      | none => (some (none, none), s)
    match t with
    | none => (none, s)
    | some (seq, taken) =>
      let s := match r.view with | some v => s.fgdObserve v b | none => s
      let f : Frame := ⟨p, false, b, ts, h, r, 0, 0, [], s.flowPath p h b vid, [], decide (a = 1), false, 0, pre && s.preemptActive p, sa, tagOk,
        seq, taken, false, none, none⟩
      let key : SteerKey := ⟨p, vid, s.pcpOf p x, some x.etype, x.selector b, x.tag.isNone⟩
      let (i, s) := s.basinEnter f key
      let s := match r.view with | some v => s.fgdArrive v i r.owner b ts taken.isSome | none => s
      let n := match s.frame i with | some f => f.copies.length | none => 0
      (some i, (List.range n).foldl (fun s k => s.ctTry i k) s)

/-- Stages 2 to 7 of an Ethernet frame whose plaintext is `b`: its number, none when a stage drops it, and the bytes that a block inside
takes of a frame it consumes (R62). -/
def State.ethIntake (s : State) (p ts : Nat) (b : List Byte) (pre : Bool) (sa : Option (Nat × Nat)) (tagOk : Bool) :
    (Option Nat × Option (List Byte)) × State :=
  let x := parse b
  if b.length < 60 then ((none, none), (s.stat (Reg.ICL_RUNT p) 1).raise .icl 0 Irq.ICL_RUNT)
  else if s.consumed p x b then ((none, some b), s.stat Reg.ICL_CONSUMED 1)
  else if p < 8 ∧ !s.hadGate p then ((none, none), s.stat (Reg.HAD_GATE_DROP p) 1)
  else
    let vid := s.vidOf p x
    let (h, s) := s.ethHandle p x vid
    match s.ethRoute p ts x vid h sa.isSome with
    | (none, s) => ((none, none), s)
    | (some r, s) =>
      let (i, s) := (s.learnLook p x.smac vid).ethPolice p ts b x vid h r pre sa tagOk
      ((i, none), s)

/-- Stage 1 and on: a frame's bytes on the wire reach port p. A MAC Control frame is consumed at stage 1 (R151). -/
def State.ethHead (s : State) (p ts : Nat) (b : List Byte) (pre : Bool) : Arrival × State :=
  if p < 23 ∧ beAt b 12 2 = 0x8808 then (⟨b, none, none, true, some b, ts⟩, s)
  else
    match s.lceRx p b with
    | (.pass, s) => let ((i, c), s) := s.ethIntake p ts b pre none true; (⟨b, i, none, true, c, ts⟩, s)
    | (.drop, s) => (⟨b, none, none, true, none, ts⟩, s)
    | (.under n pn plain ok, s) => let ((i, c), s) := s.ethIntake p ts plain pre (some (n, pn)) ok; (⟨b, i, some (n, pn), ok, c, ts⟩, s)

/-- The end of a frame that no stage stored: what arrived under an SA has its verdict (R335), and a consumed frame goes to its block,
with whether it is good (R62, R151). [DESIGN CHOICE, log entry 90] -/
def State.endUnstored (s : State) (p : Nat) (a : Arrival) (good : Bool) : State :=
  let s := match a.sa with | some (n, pn) => s.lceVerdict p n pn a.tagOk | none => s
  match a.taken with
  | some b => { s with inj := s.inj ++ [.consumed p a.ts (good && a.tagOk) b] }
  | none => s

/-- The frame being received on a MAC of port p. -/
def State.arrival (s : State) (p : Nat) (pre : Bool) : Option Arrival := Tab.get (fun _ => none) s.bsn.arriving (2 * p + b2n pre)

/-- Replace it. -/
def State.setArrival (s : State) (p : Nat) (pre : Bool) (a : Option Arrival) : State :=
  { s with bsn := { s.bsn with arriving := Tab.set (fun _ => none) s.bsn.arriving (2 * p + b2n pre) a } }

/-- The statistics of a frame received on a port (R204). -/
def State.countRx (s : State) (p : Nat) (b : List Byte) (fcsOk : Bool) : State :=
  if 23 ≤ p ∨ s.dmaPort p then s
  else
    let n := b.length + 4
    let s := (s.stat (Reg.EPT_RX_FRAMES p) 1).stat (Reg.EPT_RX_BYTES p) n
    let d := beAt b 0 6
    let s := s.stat (if d = 0xFFFFFFFFFFFF then Reg.EPT_RX_BCAST p else if isGroup d then Reg.EPT_RX_MCAST p else Reg.EPT_RX_UCAST p) 1
    let s := if fcsOk then s else s.stat (Reg.EPT_RX_FCS_ERR p) 1
    if s.maxLen < n then s.stat (Reg.EPT_RX_LONG p) 1 else s

/-- The FEC in force on port p: 0 none, 1 Clause 74, 2 Clause 108. The value that EPT_SERDES.FEC reserves acts as none. [DEDUCED, log entry 37] -/
def State.fecOf (s : State) (p : Nat) : Nat :=
  let v := s.rf (Reg.EPT_SERDES p) 0 2
  if p = 22 then 2
  else if p < 20 ∨ 22 < p then 0
  else match s.rf (Reg.EPT_CFG p) 0 2 with
    | 0 => 0
    | 1 => if v = 1 then 1 else 0
    | _ => if v = 3 then 0 else v

/-- What the PCS of port p has found since it last reported: symbol or block errors, and the codewords its FEC corrected and could not
correct (Table 7-6). [DEDUCED, log entry 37] -/
def State.pcsErrors (s : State) (p sym corr uncorr : Nat) : State :=
  if 23 ≤ p ∨ s.dmaPort p then s
  else
    let s := s.stat (Reg.EPT_RX_SYMBOL_ERR p) sym
    if s.fecOf p = 0 then s else (s.stat (Reg.EPT_RX_FEC_CORR p) corr).stat (Reg.EPT_RX_FEC_UNCORR p) uncorr

/-- FRAME_VERDICT: the last byte of the frame arriving on a MAC of port p; `ecc` is what its cells show, as State.eccCount takes it.
[DEDUCED, log entry 24] [DEDUCED, log entry 24] -/
def State.verdict (s : State) (p : Nat) (pre fcsOk framing : Bool) (ecc : Nat) : State :=
  match s.arrival p pre with
  | none => s
  | some a =>
    let s := (s.setArrival p pre none).countRx p a.wire fcsOk
    let s := if 16 ≤ p ∧ p < 20 ∧ fcsOk ∧ !framing then s.confirmSrc (24 + p) else s
    let s := if pre ∧ framing then s.evt (Reg.EGS_ASSY_ERR p) else s
    let s := match a.fid with
      | none => s.endUnstored p a (fcsOk && !framing && decide (a.wire.length + 4 ≤ s.maxLen))
      | some i =>
        let long := match s.frame i with | some f => decide (s.maxLen < f.len) | none => false
        (s.eccCount i p ecc).judge i (if !fcsOk then 1 else if framing || long then 2 else 0) (decide (2 ≤ ecc))
    s.saEnded a.sa

/-- The ingress stamp of a frame arriving now on port p (R288). -/
def State.ingressStamp (s : State) (p : Nat) : Nat :=
  if p < 23 then (s.now + 2 ^ 64 - s.rf (Reg.TIM_PORT_LAT p) 0 16) % 2 ^ 64 else s.now

/-- The port receives: it is up, and the forwarding domain runs. -/
def State.receives (s : State) (p : Nat) : Bool := s.pwr.fwdOn && s.portUp p && (decide (23 ≤ p) || s.pwr.forwarding)

/-- ETH_FRAME_RX: a frame reaches port p's express or preemptable MAC. One still arriving there ends with a framing error. [DEDUCED, log entry 36] -/
def State.ethRx (s : State) (p : Nat) (b : List Byte) (pre : Bool) : State :=
  if !s.receives p ∨ s.dmaPort p then s
  else
    let s := (if 16 ≤ p ∧ p < 20 then s.heard (24 + p) else s).verdict p pre true true 0
    let (a, s) := s.ethHead p (s.ingressStamp p) b pre
    s.setArrival p pre (some a)

/-- The link of port p fails: a frame being received there ends with cause INGRESS_ABORT (R196). -/
def State.abortArrival (s : State) (p : Nat) (pre : Bool) : State :=
  match s.arrival p pre with
  | none => s
  | some a =>
    let s := s.setArrival p pre none
    (match a.fid with
      | some i => s.judge i 6 false
      | none => s).saEnded a.sa

/-! ### Bus frames (R64, R65, R72, R104) -/

/-- A complete bus frame of bus `n` enters at an ingress number (R20). [DEDUCED, log entry 25] -/
def State.busEnter (s : State) (ingress n ts : Nat) (b : List Byte) : State :=
  if busFmt b = 0 ∧ busRtr b then s.stat Reg.ICL_CAN_RTR 1
  else
    match s.busHandle n b with
    | (none, s) => s.stat Reg.SRT_NO_ROUTE 1
    | (some h, s) =>
      let s := s.perf 0x30 1
      let e := s.srt h
      let k := srtHead e ingress (decide (busAuth b ≠ 0))
      let r := srtRoute e ingress
      let digest := contentDigest (busData b)
      let k := if k = 0 then s.minIntCheck r h ts digest else k
      if !srtValid e then s.stat Reg.SRT_NO_ROUTE 1
      else if k ≠ 0 then s.srtFail k h ingress ts
      else
        let ((c, a), s) := s.weirAll b.length false true (s.metersOf r.meter (some h))
        if a = 2 then (s.stat Reg.WEI_DROP 1).raise .wei 0 Irq.WEI_DROP
        else
          let s := if busAuth b = 2 then s else s.minIntAccept r h ts digest
          let (t, s) := match r.frer with
            | some i => s.freStage i none
            | none => (some (none, none), s)
          match t with
          | none => s
          | some (seq, taken) =>
            let s := match r.view with
              | some v => if (s.view v).state = 0 then s else s.evt (itemKey v Reg.FGD_FOREIGN)
              | none => s
            let f : Frame := ⟨ingress, true, b, ts, some h, r, 1, 0, [], s.flowPath ingress (some h) b 0, [], false, false, c, false, none, true,
              seq, taken, false, none, none⟩
            let (i, s) := s.basinEnter f ⟨ingress, 0, 0, none, none, true⟩
            s.settleCopies i 0

/-! ### Frames from inside (R20, R21) -/

/-- A message of one egress port and class (R21). [DEDUCED, log entry 25; DESIGN CHOICE, log entry 89] -/
def State.ownEnter (s : State) (p tc : Nat) (b : List Byte) (o : Option OwnMsg) : State :=
  let b := if b.length < 60 then fit 60 b else b
  let x := parse b
  match s.destList ⟨63, 0, 0, some x.etype, x.selector b, true⟩ [p] with
  | ([(_, ring)], s) =>
    let r : Route := ⟨2 ^ p, tc, none, none, none, none, false, false, 0, 63, false⟩
    let f : Frame := ⟨63, false, b, s.now, none, r, 1, 0, [], s.flowPath 63 none b 0, [⟨p, tc, queueOf p tc, false, .waiting, ring, none⟩],
      false, false, 0, false, none, true, none, none, false, o, none⟩
    let why := s.copyAdmit (queueOf p tc) 0 none
    if s.basinOff then s.bsnDrop p 7 none
    else if s.unreserved p tc none then s.unrsvDrop p
    else if why = 0 then
      let (i, s) := s.store f ((f.len + 255) / 256)
      (s.quotaScan (queueOf p tc)).settleCopies i 0
    else s.admitDrop p why none none
  | (_, s) => s

/-- One frame from inside: an Ethernet frame, padded to 60 bytes, is received whole and good. What a block inside consumes is no frame of
the path any more. [DESIGN CHOICE, log entry 18] -/
def State.injectOne (s : State) : Inject → State
  | .frame ingress target ts bus b =>
    if !s.pwr.fwdOn then s
    else if bus then s.busEnter ingress target ts b
    else
      let (a, s) := s.ethHead ingress ts (if b.length < 60 then fit 60 b else b) false
      match a.fid with
      | some i => s.judge i (if s.maxLen < b.length + 4 then 2 else 0) false
      | none => s.endUnstored ingress a (decide (b.length + 4 ≤ s.maxLen))
  | .own p tc b o => if !s.pwr.fwdOn then s else s.ownEnter p tc b o
  | .consumed .. => s

end Sys2Proof.Machine
end

