-- ==== Sys2Proof/Machine/TwinBase.lean ====
section
/-! DEFINITION. What other blocks ask of the twin unit: its role, its time and its output digests (R349, R352, R362). -/

namespace Sys2Proof.Machine

/-- The unit is the secondary of a twin: STARTING, JOINING, SECONDARY, FAULTED or ISOLATED (R349). -/
def State.secondary (s : State) : Bool := [1, 2, 3, 5, 6].contains s.twn.state

/-- The masked buses are not driven: the unit is secondary, or has become primary by a rotation less than 20 µs ago (R349, R365). -/
def State.busShadow (s : State) : Bool := s.secondary || (decide (s.twn.state = 4) && decide (s.now < s.twn.driveAt))

/-- CAN channel c is a shadow channel. -/
def State.canShadow (s : State) (c : Nat) : Bool := s.busShadow && s.rb Reg.TWN_BUS_MASK c

/-- LIN channel l is a shadow channel. -/
def State.linShadow (s : State) (l : Nat) : Bool := s.busShadow && s.rb Reg.TWN_LIN_MASK l

/-- Twin time of an instant of the FRC: FRC plus TWN_OFFSET (R352). -/
def State.twinAt (s : State) (ns : Nat) : Int := (ns : Int) + s.twn.offset

/-- Twin time now. -/
def State.twinNow (s : State) : Int := s.twinAt s.now

/-- The window of an instant in twin time. -/
def windowOf (t : Int) : Nat := (t / 1000000).toNat

/-- Enter an item into the digest of its window (R362). -/
def State.twinItem (s : State) (t : Int) (input : List Byte) : State :=
  if s.twn.state = 0 then s
  else
    let w := windowOf t
    let (n, sum) := Tab.get (fun _ => (0, 0)) s.twn.win w
    { s with twn := { s.twn with win := Tab.set (fun _ => (0, 0)) s.twn.win w (n + 1, (sum + crc32c 0xFFFFFFFF input) % 2 ^ 64) } }

end Sys2Proof.Machine
end

