-- ==== Sys2Proof/Machine/Can.lean ====
section
/-! DEFINITION. The CAN channels (R221-R240, R342, R358): bit timing, error confinement, host buffers and the transmit list. -/

namespace Sys2Proof.Machine

/-- A CAN channel. -/
def State.cch (s : State) (c : Nat) : CanSt := Tab.get (fun _ => CanSt.reset) s.can c

/-- Replace a CAN channel. -/
def State.setCch (s : State) (c : Nat) (v : CanSt) : State := { s with can := Tab.set (fun _ => CanSt.reset) s.can c v }

/-- A channel event: raised, and logged at most once per kind per channel in 1 s (R248). [DEDUCED, log entry 81] -/
def State.canEvent (s : State) (c i id : Nat) : State :=
  let x := s.cch c
  (s.raise .can c i).logEvt .can c i 1000000000 false (toBE 1 c ++ toBE 2 x.tec ++ toBE 2 x.rec_ ++ toBE 4 id)

/-- A configuration error. -/
def State.canCfgErr (s : State) (c : Nat) : State := s.evt (Reg.CAN_CFG_ERR c)

/-! ### Bit timing (R222) -/

/-- BRP and time quanta of a phase. -/
def nbtBrp (w : Word) : Nat := fld w 0 7
def nbtTq (w : Word) : Nat := 1 + fld w 8 8 + fld w 16 7
def dbtBrp (w : Word) : Nat := fld w 0 6
def dbtTq (w : Word) : Nat := 1 + fld w 8 6 + fld w 16 5

/-- A data phase is acceptable: its rate from the nominal rate to `max` bit/s, 5-95 quanta, SJW at most TSEG2. -/
def dataPhaseOk (nbt w : Word) (max : Nat) : Bool :=
  let d := dbtBrp w * dbtTq w
  decide (d ≤ nbtBrp nbt * nbtTq nbt) && decide (160000000 ≤ max * d) && decide (5 ≤ dbtTq w) && decide (dbtTq w ≤ 95) &&
  decide (fld w 24 5 ≤ fld w 16 5)

/-- The settings of channel c are valid. -/
def State.canOk (s : State) (c : Nat) : Bool :=
  let nbt := s.rd (Reg.CAN_NBT c)
  let fd := s.rb (Reg.CAN_MODE c) 0
  let xl := s.rb (Reg.CAN_MODE c) 1
  let n := nbtBrp nbt * nbtTq nbt
  let xbt := s.rd (Reg.CAN_XBT c)
  let pwm := s.rd (Reg.CAN_PWM c)
  decide (10000 * n ≤ 160000000) && decide (160000000 ≤ 1000000 * n) && decide (8 ≤ nbtTq nbt) && decide (nbtTq nbt ≤ 383) &&
  decide (fld nbt 24 7 ≤ fld nbt 16 7) && (!fd || dataPhaseOk nbt (s.rd (Reg.CAN_DBT c)) 8000000) &&
  (!xl || dataPhaseOk nbt xbt 20000000) && (!bit nbt 31 || decide (160000000 ≤ 250000 * n)) &&
  (!bit pwm 24 || (xl && decide (fld pwm 0 6 + fld pwm 8 6 = dbtBrp xbt * dbtTq xbt)))

/-! ### The transmit list (R236-R239) -/

/-- Copies in the list, the one on the wire included. -/
def CanSt.level (x : CanSt) : Nat := x.txl.length + b2n x.wire.isSome

/-- Every copy not on the wire is dropped, each counted in TXL_FLUSH. [DEDUCED, log entry 44] -/
def State.txlFlush (s : State) (c : Nat) : State :=
  let x := s.cch c
  let s := (s.setCch c { x with txl := [] }).stat (Reg.CAN_TXL_FLUSH c) x.txl.length
  x.txl.foldl (fun s i => s.copyDone i.fid i.idx) s

/-- Copies that satisfy `p` leave the list, each counted at statistics word `a`. -/
def State.txlDrop (s : State) (c : Nat) (p : TxlItem → Bool) (count : State → State) : State :=
  let x := s.cch c
  let s := s.setCch c { x with txl := x.txl.filter (fun i => !p i) }
  (x.txl.filter p).foldl (fun s i => (count s).copyDone i.fid i.idx) s

/-- A copy that has waited MAXAGE ms. -/
def State.txlOld (s : State) (c : Nat) (i : TxlItem) : Bool :=
  let m := s.rf (Reg.CAN_TXL_CFG c) 0 16
  decide (m ≠ 0) && decide (i.since + m * 1000000 ≤ s.now)

/-- Aged copies are dropped. -/
def State.txlAge (s : State) (c : Nat) : State := s.txlDrop c (s.txlOld c) (fun s => s.stat (Reg.CAN_TXL_AGED c) 1)

/-- The order key of a copy (R237). [DEDUCED, log entry 44] -/
def orderKey (b : List Byte) : Nat :=
  let id := busId b
  if busFmt b = 2 then id % 2048 * 2 ^ 20 + 2 ^ 18
  else if busIde b then id / 2 ^ 18 * 2 ^ 20 + 2 * 2 ^ 18 + id % 2 ^ 18
  else id % 2048 * 2 ^ 20

/-- The copy to offer: the smallest key, and among equals the longest wait. [DEDUCED, log entry 44] -/
def txlPick : List TxlItem → Option TxlItem
  | [] => none
  | i :: t =>
    match txlPick t with
    | none => some i
    | some j =>
      if orderKey j.bytes < orderKey i.bytes ∨ (orderKey j.bytes = orderKey i.bytes ∧ j.since < i.since) then some j else some i

/-- The channel cannot send a frame of this form (R236). -/
def State.canTxForm (s : State) (c : Nat) (b : List Byte) : Bool :=
  decide (busFmt b = 3) || busRtr b || (decide (busFmt b = 1) && !s.rb (Reg.CAN_MODE c) 0) ||
  (decide (busFmt b = 2) && !s.rb (Reg.CAN_MODE c) 1)

/-- What a copy for a masked CAN channel adds to its window's digest (R368). -/
def canItem (c : Nat) (b : List Byte) : List Byte :=
  toBE 1 c ++ toBE 4 (setFld (busWord b 1) 30 2 0).toNat ++ toBE 4 (setFld (busWord b 3) 23 1 0).toNat ++ busData b

/-- A copy whose frame is settled is taken into the list, or dropped. [DEDUCED, log entry 44] -/
def State.txlTake (s : State) (c i k : Nat) (b : List Byte) : State :=
  let x := s.cch c
  if s.canTxForm c b then (s.stat (Reg.CAN_TX_FORM c) 1).copyDone i k
  else if x.listen then (s.stat (Reg.CAN_TXL_FLUSH c) 1).copyDone i k
  else if 64 ≤ x.level then ((s.stat (Reg.CAN_TXL_FULL c) 1).canEvent c Irq.CAN_TXL_FULL (busId b)).copyDone i k
  else (s.copySt i k .sending).setCch c { x with txl := x.txl ++ [⟨i, k, b, s.now, 0⟩] }

/-- CAN_COPY_LINKED: the oldest copy linked to channel c's queue passes the CAU and reaches the transmit list (R236, R343). [DEDUCED, log entry 44] -/
def State.canLinked (s : State) (c : Nat) : State :=
  match s.queue (208 + c) with
  | [] => s
  | (i, k) :: t =>
    let s := s.setQueue (208 + c) t
    match s.copyAt i k with
    | none => s
    | some (f, _) =>
      if !f.bus then (s.stat (Reg.CAN_TX_FORM c) 1).copyDone i k
      else
        match s.cauTx c f.bytes with
        | (none, s) => s.copyDone i k
        | (some b, s) =>
          let s := if s.rb Reg.TWN_BUS_MASK c then s.twinItem (s.twinAt f.ts) (canItem c b) else s
          s.txlTake c i k b

/-! ### Error confinement (R231, R240) -/

/-- LISTEN takes effect; on entry the list is flushed. -/
def State.canListen (s : State) (c : Nat) : State :=
  let on := s.rb (Reg.CAN_MODE c) 2
  let was := (s.cch c).listen
  let s := s.setCch c { s.cch c with listen := on }
  if on ∧ !was then s.txlFlush c else s

/-- CONFIG is entered: TEC and REC 0, the list flushed. -/
def State.canConfig (s : State) (c : Nat) : State :=
  let s := s.txlFlush c
  s.setCch c { s.cch c with estate := 0, tec := 0, rec_ := 0, counting := false, occ := 0, stopping := false, delay := false, listen := s.rb (Reg.CAN_MODE c) 2 }

/-- BLK_CTRL.EN written 1 in CONFIG: the settings are checked. -/
def State.canStart (s : State) (c : Nat) : State :=
  if (s.cch c).estate ≠ 0 then s
  else if s.canOk c then s.setCch c { s.cch c with estate := 1 }
  else ((s.wf (Reg.BLK_CTRL (pageBase .can c)) 0 1 0).canCfgErr c).canEvent c Irq.CAN_CFG_ERR 0

/-- BLK_CTRL.EN has been written: a frame on the wire completes first. Whether the channel, sending none itself, is receiving one is a free
value. [DESIGN CHOICE, log entry 5; DEDUCED, log entry 44] -/
def State.canEnabled (s : State) (c : Nat) : State :=
  let x := s.cch c
  if s.enabled .can c then s.canStart c
  else if x.estate = 0 then s
  else if x.wire.isSome then s.setCch c { x with stopping := true }
  else if x.estate = 2 ∨ x.estate = 3 then
    let (v, s) := s.draw
    if bit v 0 then s.setCch c { x with stopping := true } else s.canConfig c
  else s.canConfig c

/-- The frame on the wire has ended: a stop that waited for it takes place; EN may have been written 1 again meanwhile. [DEDUCED, log entry 44] -/
def State.canStopped (s : State) (c : Nat) : State :=
  if !(s.cch c).stopping then s
  else
    let s := s.canConfig c
    if s.enabled .can c then s.canStart c else s

/-- The confinement state follows TEC and REC. On entry to BUS_OFF the delay timer starts with BOFF_AUTO = 1, and LISTEN takes effect. [DEDUCED, log entry 44] -/
def State.canConfine (s : State) (c id : Nat) : State :=
  let x := s.cch c
  let hot := decide (127 < x.tec) || decide (127 < x.rec_)
  if x.estate = 2 ∧ hot then (s.setCch c { x with estate := 3 }).canEvent c Irq.CAN_ERR_PASSIVE id
  else if x.estate = 3 ∧ 255 < x.tec then
    let s := s.setCch c { x with estate := 4, counting := false, occ := 0, delay := s.rb (Reg.CAN_MODE c) 5 }
    ((s.evt (Reg.CAN_BUS_OFF c)).canEvent c Irq.CAN_BUS_OFF id).canListen c
  else if x.estate = 3 ∧ !hot then (s.setCch c { x with estate := 2 }).raise .can c Irq.CAN_RECOVERED
  else s

/-- The channel takes part in bus traffic. -/
def CanSt.onBus (x : CanSt) : Bool := decide (x.estate = 2) || decide (x.estate = 3)

/-- TEC and REC are held: listen-only, or a shadow channel. -/
def State.canHeld (s : State) (c : Nat) : Bool := (s.cch c).listen || s.canShadow c

/-- An error of type t (1 bit, 2 stuff, 3 form, 4 CRC, 5 ACK) is counted and captured. -/
def State.canErr (s : State) (c t : Nat) (dataPhase asTx : Bool) (id : Nat) : State :=
  let s := if 1 ≤ t ∧ t ≤ 5 then s.evt (Reg.CAN_BIT_ERR c + 4 * (t - 1)) else s
  (s.wr (Reg.CAN_LAST_ERR c) (wd (t % 8 + b2n dataPhase * 8 + b2n asTx * 16))).wr (Reg.CAN_LAST_ERR_ID c) (wd (id % 2 ^ 29))

/-- CAN_ARBITRATION: the channel offers a copy, which is then on the wire. -/
def State.canArbitrate (s : State) (c : Nat) : State :=
  if !(s.cch c).onBus ∨ (s.cch c).wire.isSome ∨ s.canHeld c ∨ (s.cch c).stopping ∨ !s.pwr.fwdOn then s
  else
    let s := (s.txlAge c).heard c
    let x := s.cch c
    match txlPick x.txl with
    | none => s
    | some i => s.setCch c { x with wire := some i, txl := x.txl.filter (fun j => decide (j ≠ i)) }

/-- The frame as the channel sends it: ESI from its own error state in an FD frame. -/
def CanSt.wireBytes (x : CanSt) (b : List Byte) : List Byte :=
  if busFmt b = 1 then busMk (busWord b 0) (busWord b 1) (busWord b 2) (setFld (busWord b 3) 21 1 (b2n (decide (x.estate = 3)))) (busData b)
  else b

/-- CAN_TX_SUCCESS: the copy on the wire has been sent. -/
def State.canSent (s : State) (c : Nat) : State :=
  let x := s.cch c
  match x.wire with
  | none => s
  | some i =>
    let s := (s.setCch c { x with wire := none, tec := x.tec - 1 }).emit (.canTx c (x.wireBytes i.bytes))
    let s := (s.stat (Reg.CAN_TX_FRAMES c) 1).stat (Reg.CAN_TX_BYTES c) (busData i.bytes).length
    ((s.copyDone i.fid i.idx).canConfine c (busId i.bytes)).canStopped c

/-- The copy on the wire has failed: it competes again, or is dropped under ONE_SHOT or RETX_LIMIT (R238). -/
def State.canRetry (s : State) (c : Nat) (i : TxlItem) : State :=
  let n := i.fails + 1
  let lim := s.rf (Reg.CAN_MODE c) 8 4
  let x := s.cch c
  if s.rb (Reg.CAN_MODE c) 3 ∨ (lim ≠ 0 ∧ lim + 1 ≤ n) then
    ((s.setCch c { x with wire := none }).evt (Reg.CAN_RETX_ABORT c)).copyDone i.fid i.idx
  else s.setCch c { x with wire := none, txl := { i with fails := n } :: x.txl }

/-- CAN_TX_ERROR: an error of type t as transmitter; `arb`: within the arbitration field; `keep`: one of the cases in which
ISO 11898-1 leaves TEC as it is. [PRESUMED, log entry 45] -/
def State.canTxErr (s : State) (c t : Nat) (dataPhase arb keep : Bool) : State :=
  match (s.cch c).wire with
  | none => s
  | some i =>
    let id := busId i.bytes
    let s := s.canErr c t dataPhase true id
    let s := if t = 1 ∧ !arb then (s.evt (Reg.CAN_ID_COLLISION c)).canEvent c Irq.CAN_ID_COLLISION id else s
    let s := s.setCch c { s.cch c with tec := (s.cch c).tec + if keep then 0 else 8 }
    (((s.canRetry c i).canConfine c id)).canStopped c

/-- CAN_ARB_LOST: the copy competes again; no failure is counted. -/
def State.canLost (s : State) (c : Nat) : State :=
  let x := s.cch c
  match x.wire with
  | none => s
  | some i => ((s.setCch c { x with wire := none, txl := i :: x.txl }).stat (Reg.CAN_TX_ARB_LOST c) 1).canStopped c

/-- CAN_BUS_ERROR: an error of type t as receiver, which raises REC by `inc` (ISO 11898-1: 1 or 8). [PRESUMED, log entry 45] -/
def State.canRxErr (s : State) (c t : Nat) (dataPhase : Bool) (id inc : Nat) : State :=
  if !(s.cch c).onBus then s
  else
    let s := (s.heard c).canErr c t dataPhase false id
    (if s.canHeld c then s
     else (s.setCch c { s.cch c with rec_ := min ((s.cch c).rec_ + inc) 255 }).canConfine c id).canStopped c

/-- The wake frame captured on channel c, in the bus frame form, stamped with the FRC at its capture. [DEDUCED, log entry 66] -/
def State.wakeFrame (s : State) (ts : Nat) : List Byte :=
  let c0 := s.rd Reg.AON_WAKE_CAP0
  let dlc := fld c0 8 4
  let n := min dlc 8
  busMk (wd ts) (s.rd Reg.AON_WAKE_CAP1) 0 (wd (n + dlc * 0x1000 + b2n (bit c0 6) * 0x40000))
    ((toLE 4 (s.rd Reg.AON_WAKE_CAP2).toNat ++ toLE 4 (s.rd Reg.AON_WAKE_CAP3).toNat).take n)

/-- Channel c has reached ACTIVE: a captured wake frame with REPLAY = 1 is offered to stage 2 (R392). [DEDUCED, log entry 66] -/
def State.wakeReplay (s : State) (c : Nat) : State :=
  match s.pwr.replay with
  | some ts =>
    if s.rf Reg.AON_WAKE_CAP0 0 6 = c + 32 ∧ s.rb (Reg.AON_WSRC_CFG c) 4 ∧ s.pwr.seq ≠ 1 then
      (s.setPwr { s.pwr with replay := none }).busEnter (26 + c) (26 + c) ts (s.wakeFrame ts)
    else s
  | none => s

/-- CAN_IDLE_DETECT: 11 consecutive recessive bits; no frame is on the wire any more. [PRESUMED, log entry 45] -/
def State.canIdle (s : State) (c : Nat) : State :=
  let x := s.cch c
  if x.estate = 1 then ((s.setCch c { x with estate := 2 }).canConfine c 0).wakeReplay c
  else if x.estate = 4 ∧ x.counting then
    if x.occ + 1 < 128 then s.setCch c { x with occ := x.occ + 1 }
    else (s.setCch c { x with estate := 2, tec := 0, rec_ := 0, counting := false, occ := 0 }).raise .can c Irq.CAN_RECOVERED
  else if x.onBus ∧ x.wire.isNone then s.canStopped c
  else s

/-- CAN_PEX: a protocol exception event; with PEX_EN = 0 it is a form error. [PRESUMED, log entry 45] -/
def State.canPex (s : State) (c id : Nat) : State :=
  if !(s.cch c).onBus then s
  else if !s.rb (Reg.CAN_MODE c) 4 then s.canRxErr c 3 false id 1
  else
    let s := s.canLost c
    if (s.cch c).onBus then ((s.setCch c { s.cch c with estate := 1 }).evt (Reg.CAN_PEX c)).canEvent c Irq.CAN_PEX id else s

/-- The delay timer has expired, or RECOVER is written: recovery counting begins. -/
def State.canRecover (s : State) (c : Nat) : State :=
  let x := s.cch c
  if x.estate = 4 ∧ !x.counting then s.setCch c { x with counting := true, occ := 0, delay := false } else s

/-- CAN_BOFF_DELAY: the delay timer, if it runs, expires. [DEDUCED, log entry 44] -/
def State.canBoffDelay (s : State) (c : Nat) : State := if (s.cch c).delay then s.canRecover c else s

/-! ### Register writes -/

/-- A write of CAN_MODE: FD_EN and XL_EN are fixed outside CONFIG; LISTEN takes effect at once in CONFIG and BUS_OFF. [DEDUCED, log entry 44] -/
def State.canModeWrite (s : State) (m c : Nat) (v : Word) : State :=
  let old := s.rf (Reg.CAN_MODE c) 0 2
  let st := (s.cch c).estate
  let s := if st ≠ 0 ∧ fld v 0 2 ≠ old then (s.plainWrite m (Reg.CAN_MODE c) (setFld v 0 2 old)).canCfgErr c else s.plainWrite m (Reg.CAN_MODE c) v
  if st = 0 ∨ st = 4 then s.canListen c else s

/-- A write of a timing register: ignored and counted outside CONFIG (R222). -/
def State.canTimingWrite (s : State) (m c a : Nat) (v : Word) : State :=
  if (s.cch c).estate = 0 then s.plainWrite m a v else s.canCfgErr c

/-- CAN_CMD written. -/
def State.canCmd (s : State) (c : Nat) (v : Word) : State :=
  let s := if bit v 0 then s.canRecover c else s
  let s := if bit v 1 then s.txlFlush c else s
  if bit v 2 then s.setCch c { s.cch c with rxq := (s.cch c).rxq.drop 1 } else s

/-- A write of CAN_L0_STAT[k]: FULL written 1 frees the buffer. -/
def State.canL0Release (s : State) (c k : Nat) (v : Word) : State := if bit v 0 then s.wr (Reg.CAN_L0_STAT c k) 0 else s

/-! ### Receiving (R227-R235) -/

/-- The conditions level 0 and level 1 share: format, IDE, remote frames. -/
def filterForm (b : List Byte) (fmts : Nat) (ide rtrOk : Bool) : Bool :=
  fmts.testBit (busFmt b) && (decide (busFmt b = 2) || decide (ide = busIde b)) && (!busRtr b || rtrOk)

/-- Level-0 entry k matches. -/
def State.l0Match (s : State) (c k : Nat) (b : List Byte) : Bool :=
  let cfg := s.rd (Reg.CAN_L0_CFG c k)
  let mask := (s.rd (Reg.CAN_L0_MASK c k)).toNat % (if busFmt b = 2 then 2048 else 2 ^ 29)
  bit cfg 0 && filterForm b (fld cfg 2 3) (bit cfg 1) (bit cfg 5) &&
  decide (busId b &&& mask = (s.rd (Reg.CAN_L0_ID c k)).toNat &&& mask)

/-- A filter memory entry matches (Table 8-3). -/
def l1Match (e : BitVec 512) (b : List Byte) : Bool :=
  let m := if busFmt b = 2 then 2048 else 2 ^ 29
  let id := busId b % m
  let id1 := fld e 32 29 % m
  let id2 := fld e 64 29 % m
  filterForm b (fld e 3 3) (bit e 6) (bit e 7) && (!bit e 8 || decide (busFmt b ≠ 2) || decide (busAf b = fld e 96 32)) &&
  (match fld e 0 2 with
   | 1 => decide (id1 ≤ id) && decide (id ≤ id2)
   | 2 => decide (id = id1) || decide (id = id2)
   | 3 => decide (id &&& id2 = id1 &&& id2)
   | _ => false)

/-- Level 1 accepts the frame. -/
def State.l1Accept (s : State) (c : Nat) (b : List Byte) : Bool :=
  let cfg := s.rd (Reg.CAN_L1_CFG c)
  let base := fld cfg 0 12
  match (s.tentries 5).find? (fun (i, e) => decide (base ≤ i) && decide (i < base + fld cfg 16 12) && decide (i < 3072) && l1Match e b) with
  | some (_, e) => bit e 2
  | none => bit cfg 28

/-- Write a list of words from an address. -/
def State.wrWords (s : State) : Nat → List Word → State
  | _, [] => s
  | a, v :: t => (s.wr a v).wrWords (a + 4) t

/-- A frame is placed in level-0 buffer k, or lost (R234). -/
def State.l0Place (s : State) (c k : Nat) (b : List Byte) : State :=
  if s.rb (Reg.CAN_L0_STAT c k) 0 then s.evt (Reg.CAN_L0_LOST c k)
  else ((s.wrWords (Reg.CAN_L0_BUF0 c 0 + 0x80 * k) (busBuffer b)).wr (Reg.CAN_L0_STAT c k) 1).raise .can c k

/-- A frame is placed in the receive queue, or lost (R235). [DEDUCED, log entry 46] -/
def State.rxqPlace (s : State) (c : Nat) (b : List Byte) : State :=
  let x := s.cch c
  if 32 ≤ x.rxq.length then (s.evt (Reg.CAN_RXQ_OVF c)).canEvent c Irq.CAN_RXQ_OVF (busId b)
  else (s.setCch c { x with rxq := x.rxq ++ [busBuffer b] }).raise .can c Irq.CAN_RXQ

/-- The host filters of channel c (R232). -/
def State.canFilter (s : State) (c : Nat) (b : List Byte) : State :=
  match (List.range 4).find? (fun k => s.l0Match c k b) with
  | some k =>
    let then1 := s.rb (Reg.CAN_L0_CFG c k) 6
    let s := s.l0Place c k b
    if then1 ∧ s.l1Accept c b then s.rxqPlace c b else s
  | none => if s.l1Accept c b then s.rxqPlace c b else s

/-- A received frame is offered to the host filters and to stage 2. [DEDUCED, log entry 46] -/
def State.canOffer (s : State) (c ts : Nat) (b : List Byte) : State := (s.canFilter c b).busEnter (26 + c) (26 + c) ts b

/-- A shadow channel sees a frame on its bus: the first listed copy with the same ID, FORM and data was sent by the primary (R358). -/
def State.shadowMatch (s : State) (c : Nat) (b : List Byte) : State :=
  let x := s.cch c
  match x.txl.find? (fun i => decide (canItem c i.bytes = canItem c b)) with
  | some i => ((s.setCch c { x with txl := x.txl.filter (fun j => decide (j ≠ i)) }).stat Reg.TWN_SHADOW_MATCH 1).copyDone i.fid i.idx
  | none => s

/-- REC after a successful reception; above 127 it falls to a value from 119 to 127 that ISO 11898-1 leaves to the node. [PRESUMED, log entry 45] -/
def State.canRecDown (s : State) (c : Nat) : State :=
  let x := s.cch c
  if s.canHeld c ∨ x.rec_ = 0 then s
  else if x.rec_ ≤ 127 then (s.setCch c { x with rec_ := x.rec_ - 1 }).canConfine c 0
  else
    let (v, s) := s.draw
    (s.setCch c { x with rec_ := 119 + v.toNat % 9 }).canConfine c 0

/-- CAN_FRAME_RX: a valid frame reaches its end of frame on channel c, in the bus frame form with its start-of-frame stamp. [DEDUCED, log entry 46] -/
def State.canRx (s : State) (c : Nat) (b : List Byte) : State :=
  if !(s.cch c).onBus ∨ !s.pwr.fwdOn ∨ !s.pwr.canPath then s
  else
    let sof := busWord b 0 - wd (s.rf (Reg.CAN_TS_COMP c) 0 8)
    let b := busMk sof (wd (busId b)) (busWord b 2) (setFld (busWord b 3) 23 1 0) (busData b)
    let s := (s.heard c).confirmSrc c
    let s := (s.stat (Reg.CAN_RX_FRAMES c) 1).stat (Reg.CAN_RX_BYTES c) (busData b).length
    let s := if busRtr b then s.stat (Reg.CAN_RX_RTR c) 1 else s
    let s := s.canRecDown c
    let s := if s.canShadow c then s.shadowMatch c b else s
    let ts := s.busStamp sof
    (if (s.cauFind false c b).isSome then { s with auth := { s.auth with waiting := s.auth.waiting ++ [(c, b, ts)] } }
     else s.canOffer c ts b).canStopped c

/-- CAU_VERDICT: the check of the oldest waiting frame completes (R342). [DEDUCED, log entry 46] -/
def State.cauVerdict (s : State) : State :=
  match s.auth.waiting with
  | [] => s
  | (c, b, ts) :: t =>
    let s := { s with auth := { s.auth with waiting := t } }
    match s.cauRx c b with
    | (some b, s) => s.canOffer c ts b
    | (none, s) => s

end Sys2Proof.Machine
end

