-- ==== Sys2Proof/Machine/Lin.lean ====
section
/-! DEFINITION. The LIN channels (R241-R248): publish buffers, schedule tables, responses, sleep and wake. -/

namespace Sys2Proof.Machine

/-- A LIN channel. -/
def State.lch (s : State) (l : Nat) : LinSt := Tab.get (fun _ => LinSt.reset) s.lin l

/-- Replace a LIN channel. -/
def State.setLch (s : State) (l : Nat) (v : LinSt) : State := { s with lin := Tab.set (fun _ => LinSt.reset) s.lin l v }

/-- A channel event: raised, and logged at most once per kind per channel in 1 s (R248). [DEDUCED, log entry 81] -/
def State.linEvent (s : State) (l i id : Nat) : State := (s.raise .lin l i).logEvt .lin l i 1000000000 false (toBE 1 l ++ toBE 4 0 ++ toBE 4 id)

/-- The channel is a commander. -/
def State.linCommander (s : State) (l : Nat) : Bool := s.rb (Reg.LIN_CFG l) 0

/-- Settings of an identifier (Table 8-10). -/
def State.linDir (s : State) (l f : Nat) : Nat := s.rf (Reg.LIN_FRAME l f) 0 2
def State.linLen (s : State) (l f : Nat) : Nat := s.rf (Reg.LIN_FRAME l f) 2 4
/-- Enhanced checksum; never for 0x3C and 0x3D. -/
def State.linEnh (s : State) (l f : Nat) : Bool := s.rb (Reg.LIN_FRAME l f) 6 && decide (f ≠ 0x3C) && decide (f ≠ 0x3D)

/-- The protected identifier of f: parity bits P0 and P1 above the six bits (R241). [DEDUCED, log entry 47] -/
def linPid (f : Nat) : Nat :=
  let b := fun i => f.testBit i
  f % 64 + b2n (b 0 ^^ b 1 ^^ b 2 ^^ b 4) * 64 + b2n (!(b 1 ^^ b 3 ^^ b 4 ^^ b 5)) * 128
def State.linValid (s : State) (l f : Nat) : Bool := s.rb (Reg.LIN_FRAME l f) 8
def State.linUpdated (s : State) (l f : Nat) : Bool := s.rb (Reg.LIN_FRAME l f) 9

/-! ### Publish buffers (R243) -/

/-- The bytes of a publish buffer. -/
def State.linPub (s : State) (l f : Nat) : List Byte :=
  (toLE 4 (s.rd (Reg.LIN_PUB_LO l f)).toNat ++ toLE 4 (s.rd (Reg.LIN_PUB_HI l f)).toNat).take (s.linLen l f)

/-- Overwrite a publish buffer with the first LEN bytes of `d`, 0xFF where it lacks them. -/
def State.linPublish (s : State) (l f : Nat) (d : List Byte) : State :=
  let n := s.linLen l f
  let b := (d.take n) ++ List.replicate (n - (d.take n).length) 0xFF
  let s := (s.wr (Reg.LIN_PUB_LO l f) (wd (ofLE (b.take 4)))).wr (Reg.LIN_PUB_HI l f) (wd (ofLE (b.drop 4)))
  s.wf (Reg.LIN_FRAME l f) 8 2 3

/-- What a copy for a masked LIN channel adds to its window's digest (R368). -/
def linItem (l : Nat) (b : List Byte) : List Byte := toBE 1 l ++ toBE 4 (busWord b 1).toNat ++ busData b

/-- LIN_COPY_LINKED: the oldest copy of channel l's queue overwrites its publish buffer, or is dropped. [DEDUCED, log entry 47] -/
def State.linLinked (s : State) (l : Nat) : State :=
  match s.queue (232 + l) with
  | [] => s
  | (i, k) :: t =>
    let s := s.setQueue (232 + l) t
    match s.copyAt i k with
    | none => s
    | some (f, _) =>
      let s := if s.rb Reg.TWN_LIN_MASK l ∧ f.bus then s.twinItem (s.twinAt f.ts) (linItem l f.bytes) else s
      let id := busId f.bytes
      let s := if f.bus ∧ busFmt f.bytes = 3 ∧ id < 64 ∧ s.linDir l id = 2 then s.linPublish l id (busData f.bytes)
        else (s.stat (Reg.LIN_TXFORM_FRAMES l) 1).evt (Reg.LIN_TX_FORM l)
      s.copyDone i k

/-! ### Receive errors -/

/-- A receive or bit error: counted at `a`, raised, and kept for response_error. -/
def State.linError (s : State) (l a : Nat) : State :=
  ((s.evt a).raise .lin l Irq.LIN_ERR).setLch l { s.lch l with respErr := true }

/-- The data of published frame f with response_error in its place (R243). -/
def State.linSendData (s : State) (l f : Nat) : List Byte :=
  let r := s.rd (Reg.LIN_RESP_ERR l)
  let d := s.linPub l f
  if bit r 15 ∧ fld r 0 6 = f then
    let k := fld r 8 3
    let m : Byte := BitVec.ofNat 8 (2 ^ fld r 12 3)
    let b := d.getD k 0
    d.set k (if (s.lch l).respErr then b ||| m else b &&& ~~~m)
  else d

/-- The response of f is sent: UPDATED clears, and response_error after its frame. -/
def State.linRespond (s : State) (l f : Nat) : State :=
  let r := s.rd (Reg.LIN_RESP_ERR l)
  let s := (s.emit (.linTx l (s.linSendData l f))).stat (Reg.LIN_TX_FRAMES l) 1
  let s := s.wf (Reg.LIN_FRAME l f) 9 1 0
  s.setLch l { s.lch l with slot := .send f, respErr := (s.lch l).respErr && !(bit r 15 && decide (fld r 0 6 = f)) }

/-! ### Schedule tables (R244-R246) -/

def State.linStart (s : State) (l t : Nat) : Nat := s.rf (Reg.LIN_TABLE l t) 0 6
def State.linCount (s : State) (l t : Nat) : Nat := s.rf (Reg.LIN_TABLE l t) 8 7

/-- The associated identifiers of a sporadic entry, in priority order. -/
def State.linSids (s : State) (l i : Nat) : List Nat :=
  ([0, 8, 16, 24].map (fun o => s.rf (Reg.LIN_SCHED_HI l i) o 6)).filter (fun f => decide (f ≠ 0x3F))

/-- The response length an entry is checked for. -/
def State.linEntryLen (s : State) (l i : Nat) : Nat :=
  match s.rf (Reg.LIN_SCHED_LO l i) 0 3 with
  | 1 | 2 => s.linLen l (s.rf (Reg.LIN_SCHED_LO l i) 8 6)
  | 3 => (s.linSids l i).foldl (fun n f => max n (s.linLen l f)) 0
  | _ => 8

/-- An entry's slot is long enough for its frame. -/
def State.linEntryOk (s : State) (l i : Nat) : Bool :=
  let t := s.rf (Reg.LIN_SCHED_LO l i) 0 3
  decide (t = 0) || decide (t = 7) ||
  decide (14000 * (34 + (s.rf (Reg.LIN_CFG l) 8 5 - 13) + 10 * (s.linEntryLen l i + 1)) ≤
    s.rf (Reg.LIN_SCHED_LO l i) 16 16 * s.rf (Reg.LIN_RATE l) 0 15)

/-- Table t is accepted (R245). [DEDUCED, log entry 47] -/
def State.linTableOk (s : State) (l t : Nat) : Bool := (List.range (s.linCount l t)).all (fun k => s.linEntryOk l ((s.linStart l t + k) % 64))

/-- A refused table. -/
def State.linCfgErr (s : State) (l : Nat) : State := (s.evt (Reg.LIN_CFG_ERR l)).linEvent l Irq.LIN_CFG_ERR 0

/-- The header of f goes out. -/
def State.linHeader (s : State) (l f : Nat) (slot : LinSlot) : State :=
  ((s.heard (24 + l)).emit (.linHeader l (linPid f))).setLch l { s.lch l with slot := slot }

/-- The channel sends identifier 0x3C with 0x00 and seven 0xFF; SLEEP follows at the slot's end. -/
def State.linGoToSleep (s : State) (l : Nat) : State :=
  let s := if s.linShadow l then s else (s.emit (.linHeader l (linPid 0x3C))).emit (.linTx l (0x00 :: List.replicate 7 0xFF))
  s.setLch l { s.lch l with slot := .sleep, sleepDue := true }

/-- A slot for identifier f of type 1 or 4: sent from its buffer, or subscribed. -/
def State.linUncond (s : State) (l f : Nat) : State :=
  if s.linDir l f = 2 then
    if s.linValid l f then (s.emit (.linHeader l (linPid f))).linRespond l f else s.evt (Reg.LIN_NO_DATA l)
  else s.linHeader l f (if s.linDir l f = 1 then .expect f false else .silent)

/-- The slot of entry i begins (Table 8-5). A shadow channel sends nothing. -/
def State.linEntry (s : State) (l i : Nat) : State :=
  let f := s.rf (Reg.LIN_SCHED_LO l i) 8 6
  let t := s.rf (Reg.LIN_SCHED_LO l i) 0 3
  let s := s.setLch l { s.lch l with slot := .silent }
  if t = 6 then s.linGoToSleep l
  else if s.linShadow l then s
  else match t with
    | 1 => s.linUncond l f
    | 2 => s.linHeader l f (.expect f true)
    | 3 => match (s.linSids l i).find? (s.linUpdated l) with
      | some f => (s.emit (.linHeader l (linPid f))).linRespond l f
      | none => s
    | 4 => s.linUncond l 0x3C
    | 5 => s.linHeader l 0x3D (.expect 0x3D false)
    | _ => s

/-- SLEEP is entered. -/
def State.linSleepNow (s : State) (l : Nat) : State :=
  (s.setLch l { s.lch l with state := 2, slot := .none, sleepDue := false, pulses := 0 }).raise .lin l Irq.LIN_SLEPT

/-- What waits for a slot's end: a collision's table, the end of one, a SWITCH. -/
def State.linSlotEnd (s : State) (l : Nat) : State :=
  let x := s.lch l
  let x := match x.collDue with
    | some t => { x with collDue := none, resume := if x.inColl then x.resume else (x.table, x.next), inColl := true, table := t, next := 0 }
    | none => x
  let x := if x.inColl ∧ s.linCount l x.table ≤ x.next then { x with inColl := false, table := x.resume.1, next := x.resume.2 } else x
  let x := if s.linCount l x.table ≤ x.next then { x with next := 0 } else x
  let s := s.setLch l x
  if x.switch ∧ !x.inColl then
    let n := s.rf (Reg.LIN_SCHED_SEL l) 0 2
    let s := s.setLch l { x with switch := false }
    if s.linTableOk l n then (s.setLch l { s.lch l with table := n, next := 0 }).raise .lin l Irq.LIN_SWITCHED else s.linCfgErr l
  else s

/-- LIN_SLOT: the slot in progress ends and the next entry's begins. [DEDUCED, log entry 47] -/
def State.linSlot (s : State) (l : Nat) : State :=
  if (s.lch l).state ≠ 1 ∨ !s.linCommander l ∨ !s.pwr.fwdOn then s
  else if (s.lch l).sleepDue then s.linSleepNow l
  else
    let s := s.linSlotEnd l
    let x := s.lch l
    if s.linCount l x.table = 0 then s.setLch l { x with slot := .none }
    else
      let i := (s.linStart l x.table + x.next) % 64
      (s.setLch l { x with cur := i, next := x.next + 1 }).linEntry l i

/-! ### Responses (R242, R246) -/

/-- A response received in full becomes a bus frame of identifier f. [DEDUCED, log entry 47] -/
def State.linReceive (s : State) (l f sof : Nat) (d : List Byte) : State :=
  let s := ((s.confirmSrc (24 + l)).stat (Reg.LIN_RX_FRAMES l) 1).raise .lin l Irq.LIN_RX
  let s := s.setLch l { s.lch l with slot := .none }
  if !s.pwr.canPath then s
  else
    s.busEnter (50 + l) (50 + l) (s.busStamp (wd sof))
      (busMk (wd sof) (wd f) 0 (wd (s.linLen l f + 3 * 0x10000 + b2n (s.linEnh l f) * 0x40000)) (fit (s.linLen l f) d))

/-- A checksum or framing error in an event-triggered slot: its entry's table resolves the collision. [DEDUCED, log entry 47] -/
def State.linCollision (s : State) (l f : Nat) : State :=
  let s := (s.evt (Reg.LIN_COLLISION l)).linEvent l Irq.LIN_COLLISION f
  s.setLch l { s.lch l with slot := .none, collDue := some (s.rf (Reg.LIN_SCHED_HI l (s.lch l).cur) 0 2) }

/-- LIN_FRAME_RX: the response in progress ends. `st`: 0 correct, 1 wrong checksum, 2 framing error, 3 readback mismatch of a header or
response the channel sends. -/
def State.linRx (s : State) (l sof : Nat) (d : List Byte) (st : Nat) : State :=
  if (s.lch l).state ≠ 1 ∨ !s.pwr.fwdOn then s
  else match (s.lch l).slot with
    | .expect f ev =>
      if st = 0 then s.linReceive l f sof d
      else if st = 3 then
        if s.linCommander l then (s.setLch l { s.lch l with slot := .none }).linError l (Reg.LIN_BIT_ERR l) else s
      else if ev then s.linCollision l f
      else (s.setLch l { s.lch l with slot := .none }).linError l (if st = 1 then Reg.LIN_CHK_ERR l else Reg.LIN_FRAMING l)
    | .send _ => if st = 3 then (s.setLch l { s.lch l with slot := .none }).linError l (Reg.LIN_BIT_ERR l) else s
    | .sleep | .silent => if st = 3 ∧ s.linCommander l ∧ !s.linShadow l then s.linError l (Reg.LIN_BIT_ERR l) else s
    | .none => s

/-- LIN_RESPONSE_TIMEOUT: an expected response is incomplete. -/
def State.linTimeout (s : State) (l : Nat) : State :=
  match (s.lch l).slot with
  | .expect _ _ => (s.setLch l { s.lch l with slot := .none }).linError l (Reg.LIN_NO_RESP l)
  | _ => s

/-- LIN_HEADER_RX: a responder, or a shadow channel, receives a header with protected identifier `pid`; `sync`: the sync field is within
14 %. A wrong parity leaves the header unanswered. [DEDUCED, log entry 47] -/
def State.linHeaderRx (s : State) (l pid : Nat) (sync : Bool) : State :=
  let f := pid % 64
  if (s.lch l).state ≠ 1 ∨ (s.linCommander l ∧ !s.linShadow l) ∨ !s.pwr.fwdOn then s
  else
    let s := (s.heard (24 + l)).setLch l { s.lch l with slot := .silent, pulses := 0 }
    if !sync then s.linError l (Reg.LIN_SYNC_ERR l)
    else if pid ≠ linPid f then s
    else
    let s := s.confirmSrc (24 + l)
    if s.linDir l f = 1 then s.setLch l { s.lch l with slot := .expect f false }
    else if s.linDir l f = 2 ∧ s.linValid l f ∧ !s.linShadow l then s.linRespond l f
    else s

/-! ### States (R247) -/

/-- CONFIG is entered: the publish buffers are cleared. -/
def State.linConfig (s : State) (l : Nat) : State :=
  let s := (List.range 64).foldl (fun s f => ((s.wr (Reg.LIN_PUB_LO l f) 0).wr (Reg.LIN_PUB_HI l f) 0).wf (Reg.LIN_FRAME l f) 8 2 0) s
  s.setLch l LinSt.reset

/-- BLK_CTRL.EN has been written. [DEDUCED, log entry 47] -/
def State.linEnabled (s : State) (l : Nat) : State :=
  if !s.enabled .lin l then (if (s.lch l).state = 0 then s else s.linConfig l)
  else if (s.lch l).state ≠ 0 then s
  else
    let n := s.rf (Reg.LIN_SCHED_SEL l) 0 2
    if !s.linCommander l then s.setLch l { s.lch l with state := 1 }
    else if s.linTableOk l n then s.setLch l { s.lch l with state := 1, table := n, next := 0 }
    else s.linCfgErr l

/-- LIN_CMD.SWITCH: a commander's table changes at the end of the slot in progress. -/
def State.linSwitch (s : State) (l : Nat) : State :=
  if (s.lch l).state ≠ 0 ∧ s.linCommander l then s.setLch l { s.lch l with switch := true } else s

/-- LIN_CMD.SLEEP: a commander ends the slot in progress and sends go-to-sleep. [DEDUCED, log entry 47] -/
def State.linSleep (s : State) (l : Nat) : State := if (s.lch l).state = 1 ∧ s.linCommander l then s.linGoToSleep l else s

/-- LIN_CMD.WAKE: a dominant pulse is sent; a shadow channel sends none. -/
def State.linWake (s : State) (l : Nat) : State :=
  if (s.lch l).state ≠ 2 then s
  else
    let s := s.setLch l { s.lch l with state := 1, pulses := 1 }
    if s.linShadow l then s else s.emit (.linPulse l)

/-- LIN_CMD written. -/
def State.linCmd (s : State) (l : Nat) (v : Word) : State :=
  let s := if bit v 0 then s.linWake l else s
  let s := if bit v 1 then s.linSleep l else s
  if bit v 2 then s.linSwitch l else s

/-- A responder hears go-to-sleep, or nothing for INACT s. -/
def State.linQuiet (s : State) (l : Nat) : State := if (s.lch l).state = 1 ∧ !s.linCommander l then s.linSleepNow l else s

/-- A dominant pulse of at least 150 µs: SLEEP is left, or a SLEEP not yet entered is given up. -/
def State.linWakeRx (s : State) (l : Nat) : State :=
  if (s.lch l).state = 2 then
    ((s.setLch l { s.lch l with state := 1, pulses := 0 }).evt (Reg.LIN_WAKE_RX l)).raise .lin l Irq.LIN_WAKE_RX
  else if (s.lch l).sleepDue then s.setLch l { s.lch l with sleepDue := false, slot := .silent }
  else s

/-- LIN_WAKE_RETRY: a responder whose pulse no break has followed sends it again, three in all. -/
def State.linWakeRetry (s : State) (l : Nat) : State :=
  let n := (s.lch l).pulses
  if (s.lch l).state = 1 ∧ !s.linCommander l ∧ 1 ≤ n ∧ n < 3 then
    let s := s.setLch l { s.lch l with pulses := n + 1 }
    if s.linShadow l then s else s.emit (.linPulse l)
  else s

end Sys2Proof.Machine
end

