-- ==== Sys2Proof/Machine/Journal.lean ====
section
/-! DEFINITION. The configuration journal (R411-R414): appending a record, its live size, compaction, the FORMATs firmware reads. -/

namespace Sys2Proof.Machine

/-- The item a staged table change is the newest record of: a direct table's index, or a keyed table's key. -/
def Staged.item : Staged → Nat
  | .write t i _ | .delIndex t i => t * 65536 + i
  | .insert t k _ | .delKey t k => 2 ^ 140 + t * 2 ^ 130 + k.toNat

/-- Bytes of one staged change in a record's body: its operation, table and index, or with its key; and its data. -/
def Staged.bytes : Staged → Nat
  | .write _ _ _ => 68
  | .insert _ _ _ => 84
  | .delIndex _ _ => 4
  | .delKey _ _ => 20

/-- Bytes of an item of a page's configuration. -/
def JItem.size : JItem → Nat
  | .gcl l => 4 + 12 * l.length
  | .view _ _ => 36
  | _ => 32

/-- Bytes of a body. R411 gives the record's frame and not the layout of its body: each part has the bytes of what it carries. -/
def JBody.size : JBody → Nat
  | .tap l => sumN (l.map Staged.bytes)
  | .regs _ v l => 4 + 8 * v.length + sumN (l.map JItem.size)
  | .masks v => 4 + 8 * v.length
  | .resv _ _ => 24
  | .snap l => sumN (l.map (fun p => 4 + 8 * p.2.length))
  | .settings _ => 4

/-- Bytes of a record: KIND, FORMAT, LENGTH, JSEQ, its body and CRC. -/
def JRec.size (r : JRec) : Nat := 20 + r.body.size

/-- The pages whose configuration is a management setting: MGS, EVL, UPD and MGN (KIND 0x0008). -/
def settingPage (pg : Nat) : Bool := decide (0xF0 ≤ pg) && decide (pg ≤ 0xF3)

/-- The KIND of a body. -/
def JBody.kind : JBody → Nat
  | .tap _ => 1 | .regs p _ _ => if settingPage p then 8 else 2 | .masks _ => 3 | .resv _ _ => 4 | .snap _ => 7 | .settings _ => 8

/-- The item a whole record is the newest of: a page, the write masks, a reservation, the settings. [DEDUCED, log entry 72] -/
def JBody.item : JBody → Option Nat
  | .tap _ => none
  | .regs p _ _ => some (2 ^ 150 + p)
  | .masks _ => some (2 ^ 151)
  | .resv i _ => some (2 ^ 152 + i)
  | .snap _ => some (2 ^ 154)
  | .settings _ => some (2 ^ 153)

/-- An item of a FORMAT: records of different FORMATs stand beside each other (R413). [DEDUCED, log entry 72] -/
def itemOf (format i : Nat) : Nat := format * 2 ^ 160 + i

/-- The staged changes of a commit whose items no later record of its FORMAT names, newest first seen; the items seen grow. [DEDUCED, log entry 72] -/
def liveStaged (format : Nat) (l : List Staged) (seen : List Nat) : List Staged × List Nat :=
  l.foldr (fun x (a : List Staged × List Nat) =>
    if a.2.contains (itemOf format x.item) then a else (x :: a.1, itemOf format x.item :: a.2)) ([], seen)

/-- The newest record of each item and FORMAT, walking from the newest record. -/
def liveFrom : List JRec → List Nat → List JRec
  | [], _ => []
  | r :: t, seen =>
    match r.body with
    | .tap l =>
      let (keep, seen) := liveStaged r.format l seen
      if keep.isEmpty then liveFrom t seen else { r with body := .tap keep } :: liveFrom t seen
    | b =>
      match b.item with
      | some i => if seen.contains (itemOf r.format i) then liveFrom t seen else r :: liveFrom t (itemOf r.format i :: seen)
      | none => r :: liveFrom t seen

/-- The compacted journal, oldest first (R414). [DEDUCED, log entry 72] -/
def journalLive (l : List JRec) : List JRec := (liveFrom l.reverse []).reverse

/-- Bytes of a list of records. -/
def journalBytes (l : List JRec) : Nat := sumN (l.map JRec.size)

/-- The live state's limit, 960 KiB (R414). -/
def journalLimit : Nat := 983040

/-- A change that cannot be journalled: JOURNAL_FULL is raised and logged (R414). -/
def State.journalFull (s : State) (live : Nat) : State :=
  ({ s with mgs := { s.mgs with jfull := true } }.raise .mgs 0 Irq.MGS_JOURNAL_FULL).logMgmt 0x009 false (toBE 4 live)

/-- The FORMAT that the running firmware version declares for a KIND (R413). [DEDUCED, log entry 97] -/
def State.formatOf (s : State) (kind : Nat) : Nat := (Config.journalFormat s.mgs.fwVer kind).toNat

/-- The records that the running firmware reads: those of its own FORMATs. [DEDUCED, log entry 97] -/
def State.ownJournal (s : State) : List JRec := s.mgs.journal.filter (fun r => decide (r.format = s.formatOf r.kind))

/-- The item number that a SETTINGS_RESET record names: a page, a reservation, of a commit its JSEQ. [DEDUCED, log entry 97] -/
def JRec.itemNo (r : JRec) : Nat :=
  match r.body with
  | .regs p _ _ => p
  | .resv i _ => i
  | .tap _ => r.jseq % 2 ^ 32
  | _ => 0

/-- A record of an older FORMAT is not applied: its item takes its reset values, and a SETTINGS_RESET record says so, unless a record of
the firmware's own FORMAT stands beside it (R413). [DEDUCED, log entry 97] -/
def State.settingsReset (s : State) : State :=
  let old := s.mgs.journal.filter (fun r => decide (r.format < s.formatOf r.kind))
  let own := s.ownJournal.filterMap (fun r => r.body.item)
  (old.filter (fun r => match r.body.item with | some i => !own.contains i | none => true)).foldl
    (fun s r => s.logMgmt 0x008 false (toBE 2 r.kind ++ toBE 4 r.itemNo ++ toBE 2 r.format)) s

/-- CONFIRM discards the records of older FORMATs (R413). [DEDUCED, log entry 97] -/
def State.oldFormatsGone (s : State) : State :=
  { s with mgs := { s.mgs with journal := s.mgs.journal.filter (fun r => !decide (r.format < s.formatOf r.kind)) } }

/-- At a restore a record whose CRC fails, and every record after it, is ignored (R411). [DEDUCED, log entry 97] -/
def State.journalCut (s : State) (bad : Option Nat) : State :=
  match bad with
  | none => s
  | some n => { s with mgs := { s.mgs with journal := s.mgs.journal.takeWhile (fun r => decide (r.jseq ≠ n)) } }

/-- Append a record, unless the live state would exceed its limit. [DEDUCED, log entry 72] -/
def State.journalAdd (s : State) (b : JBody) : Bool × State :=
  let r : JRec := ⟨b.kind, s.formatOf b.kind, s.mgs.jseq + 1, 20 + b.size, b⟩
  let l := s.mgs.journal ++ [r]
  let live := journalBytes (journalLive l)
  if journalLimit < live then (false, s.journalFull live)
  else (true, { s with mgs := { s.mgs with journal := l, jseq := s.mgs.jseq + 1, jfull := false } })

end Sys2Proof.Machine
end

