-- ==== Sys2Proof/Machine/Budget.lean ====
section
/-! DEFINITION. The Budget Engine: requests, the bound, envelope meters, reservation states and re-checks (R153-R162). -/

namespace Sys2Proof.Machine

/-- A reservation. -/
def State.resv (s : State) (i : Nat) : Resv := Tab.get (fun _ => Resv.free) s.bud.resv i

/-- Replace a reservation. -/
def State.setResv (s : State) (i : Nat) (r : Resv) : State :=
  { s with bud := { s.bud with resv := Tab.set (fun _ => Resv.free) s.bud.resv i r } }

/-- The reservations of a port that are not FREE, in index order. -/
def State.portResv (s : State) (p : Nat) : List (Nat × Resv) :=
  s.bud.resv.filter (fun (_, r) => decide (r.state ≠ 0) && decide (r.port = p))

/-- The reservations of a handle that are not FREE. -/
def State.handleResv (s : State) (h : Nat) : List (Nat × Resv) :=
  s.bud.resv.filter (fun (_, r) => decide (r.state ≠ 0) && decide (r.handle = h))

/-! ### Fractions -/

/-- A fraction: numerator and denominator. [DEDUCED, log entry 31] -/
abbrev Frac := Int × Nat

def fracAdd (a b : Frac) : Frac := (a.1 * b.2 + b.1 * a.2, a.2 * b.2)
def fracSub (a b : Frac) : Frac := (a.1 * b.2 - b.1 * a.2, a.2 * b.2)
def fracLt (a b : Frac) : Bool := decide (a.1 * b.2 < b.1 * a.2)
def fracMin (a b : Frac) : Frac := if fracLt b a then b else a

/-- ⌈n × 10⁹ / f⌉ for a positive fraction f of bit/s: ns to send n bits. -/
def fracNs (n : Nat) (f : Frac) : Nat := (n * 1000000000 * f.2 + f.1.toNat - 1) / f.1.toNat

/-! ### The bound (R155) -/

/-- Overhead bytes of a frame on a port: 20, and 32 with MACsec protection of transmitted frames. -/
def State.budO (s : State) (p : Nat) : Nat :=
  20 + (if (p < 16 ∨ (20 ≤ p ∧ p < 23)) ∧ s.rb (Reg.LCE_PORT_CFG p) 0 then 32 else 0)

/-- r_i of a reservation, in bit/s. -/
def Resv.rate (r : Resv) (o : Nat) : Frac := ((8 * r.n * (r.maxFrame + o) * 1000000000 : Nat), r.interval)

/-- b_i of a reservation, in bytes. -/
def Resv.burst (r : Resv) (o : Nat) : Nat := r.n * (r.maxFrame + o)

/-- Classes above c. -/
def above (c : Nat) : List Nat := (List.range 8).filter (fun k => decide (c < k))

/-- What a gate list leaves class c: the open time and cycle (the fraction F), and G, the longest closed span. -/
def GateCfg.share (g : GateCfg) (c : Nat) : Nat × Nat × Nat :=
  (g.openTime c, g.cycle, match g.longest c false with | some x => x | none => g.cycle)

/-- The shares the bound counts: without gating F = 1 and G = 0; with it the operating list's, and the pending one's (R155). Before any
list operates the gates are SLU_ADMIN_DEF. -/
def State.shares (s : State) (p c : Nat) : List (Nat × Nat × Nat) :=
  if !s.gateEn p then [(1, 1, 0)]
  else
    let u := s.sluice p
    (match u.oper with
     | some g => [g.share c]
     | none => if (s.rf (Reg.SLU_ADMIN_DEF p) 0 8).testBit c then [(1, 1, 0)] else [(0, 1, 0)]) ++
    (match u.pend with | some (g, _) => [g.share c] | none => [])

/-- The bound of class c on port p over a set of reservations under one share: none when U or V_c is not positive; and whether the
class's reserved rate is within V_c. -/
def State.bound1 (s : State) (p c : Nat) (l : List Resv) (sh : Nat × Nat × Nat) : Option Nat × Bool :=
  let o := s.budO p
  let rate := s.upRate p * 1000
  let cls := fun k => l.filter (fun r => decide (r.tc = k))
  let ac := sumN ((cls c).map (fun r => r.burst o))
  let beta := sumN ((above c).map (fun k => sumN ((cls k).map (fun r => r.burst o))))
  let sumRate := fun (x : List Resv) => x.foldl (fun (a : Frac) r => fracAdd a (r.rate o)) (0, 1)
  let rho := (above c).foldl (fun (a : Frac) k =>
    fracAdd a (if s.shaped p k then (((s.rf (Reg.EGS_IDLE_SLOPE p k) 0 25) * 1000 : Nat), 1) else sumRate (cls k))) (0, 1)
  let u := fracSub ((rate * sh.1 : Nat), sh.2.1) rho
  let v := if s.shaped p c then fracMin u (((s.rf (Reg.EGS_IDLE_SLOPE p c) 0 25) * 1000 : Nat), 1) else u
  let below := (List.range 8).filter (fun k => decide (k < c))
  let blk := if s.preemptActive p ∧ !s.tcPre p c ∧ below.all (s.tcPre p) then 123 + 64 * s.rf (Reg.EGS_PORT_CFG p) 2 2 else s.maxLen
  let mc := (cls c).foldl (fun a r => max a r.maxFrame) 0
  let tGate := if s.gateEn p then sh.2.2 + txTime (mc + o) (s.upRate p) else 0
  let ok := decide (0 < u.1) && !fracLt v (sumRate (cls c))
  if u.1 ≤ 0 ∨ v.1 ≤ 0 then (none, ok)
  else (some (1000 + tGate + fracNs (8 * (blk + o + beta)) u + fracNs (8 * ac) v), ok)

/-- The bound of class c on port p: the larger over the lists that count. [DEDUCED, log entry 31] -/
def State.bound (s : State) (p c : Nat) (l : List Resv) : Option Nat × Bool :=
  (s.shares p c).foldl (fun (a : Option Nat × Bool) sh =>
    let b := s.bound1 p c l sh
    ((match a.1, b.1 with | some x, some y => some (max x y) | _, _ => none), a.2 && b.2)) (some 0, true)

/-- A bound as the registers show it: 0xFFFF_FFFF when there is none. -/
def boundWord (b : Option Nat) : Nat := match b with | some x => min x 0xFFFFFFFF | none => 0xFFFFFFFF

/-! ### The checks (Table 5-5) -/

/-- The class's gate is closed throughout the operating list: check 0x09 names no other. [DEDUCED, log entry 31] -/
def State.keptShut (s : State) (p k : Nat) : Bool := ((s.shares p k).take 1).all (fun x => decide (x.1 = 0))

/-- Checks 0x02, 0x03, 0x09 of a port and class, which a re-check repeats: the reason, or none. -/
def State.portReason (s : State) (p c : Nat) : Option Nat :=
  if !s.tcRsv p c then some 2
  else if s.rb (Reg.EGS_PORT_CFG p) 0 then some 3
  else none

/-- Check 0x09. -/
def State.unbounded (s : State) (p c : Nat) : Bool := (above c).any (fun k => !s.tcRsv p k && !s.keptShut p k)

/-- Check 0x04. -/
def State.routeOk (s : State) (r : Resv) : Bool :=
  let e := s.srt r.handle
  srtValid e && (srtDest e).testBit r.port && decide (srtTc e = r.tc)

/-- Check 0x0B: cells of a class's reservations against RESERVE of its queue. -/
def State.quotaBad (s : State) (p c : Nat) (l : List Resv) : Bool :=
  decide (s.rf (Reg.BSN_QCFG (p * 8 + c)) 16 16 <
    sumN ((l.filter (fun r => decide (r.tc = c))).map (fun r => r.n * ((r.maxFrame + 255) / 256))))

/-- CIR (and PIR) of an envelope meter, in kbit/s (R157). -/
def Resv.cir (r : Resv) : Nat := (8 * r.n * r.maxFrame * 1000000 + r.interval - 1) / r.interval

/-- The lowest free reservation. -/
def State.freeResv (s : State) : Option Nat := (List.range 1024).find? (fun i => decide ((s.resv i).state = 0))

/-- The first reservation of another on the port whose bound would exceed its target with `l` in place: index, handle, bound. -/
def State.otherFails (s : State) (p : Nat) (l : List Resv) : Option (Nat × Nat × Nat) :=
  (s.portResv p).findSome? fun (i, x) =>
    let w := boundWord (s.bound p x.tc l).1
    if w ≤ x.target then none else some (i, x.handle, w)

/-- The outcome of the checks on a request (R154): the refusal reason (0 none), the bound, and what OTHER names. [DEDUCED, log entry 31] -/
def State.budChecks (s : State) (r : Resv) : Nat × Option Nat × Option (Nat × Nat × Nat) :=
  let p := r.port
  let l := (s.portResv p).map (fun x => x.2) ++ [r]
  let (b, ok) := s.bound p r.tc l
  let others := s.handleResv r.handle
  match s.portReason p r.tc with
  | some c => (c, b, none)
  | none =>
    if !s.routeOk r then (4, b, none)
    else if others.any (fun x => decide (x.2.port = p)) then (5, b, none)
    else if others.any (fun x => decide (x.2.maxFrame ≠ r.maxFrame ∨ x.2.n ≠ r.n ∨ x.2.interval ≠ r.interval)) then (6, b, none)
    else if s.freeResv.isNone then (7, b, none)
    else if 25000000 < r.cir ∨ 16777215 < r.n * r.maxFrame then (8, b, none)
    else if s.unbounded p r.tc then (9, b, none)
    else if !ok then (10, b, none)
    else if s.quotaBad p r.tc l then (11, b, none)
    else if r.target < boundWord b then (12, b, none)
    else match s.otherFails p l with
      | some x => (13, b, some x)
      | none => (0, b, none)

/-! ### Envelope meters (R157) -/

/-- The envelope meters of a handle: EN on its lowest-numbered reservation that is not FREE only. -/
def State.envelopes (s : State) (h : Nat) : State :=
  let l := s.handleResv h
  let low := match l with | (i, _) :: _ => i | [] => 1024
  l.foldl (fun s (i, r) =>
    s.meterSet (3072 + i) (wd (b2n (i = low) + 32 + r.maxFrame * 65536)) (wd r.cir) (wd r.cir) (wd (r.n * r.maxFrame))
      (wd (r.n * r.maxFrame))) s

/-- Disable meter i. -/
def State.meterOff (s : State) (i : Nat) : State :=
  let m := s.meter i
  s.meterSet i (setFld m.d0 0 1 0) m.d1 m.d2 m.d3 m.d4

/-- The bounds of every reservation of a port recomputed (R156). -/
def State.rebound (s : State) (p : Nat) : State :=
  let l := s.portResv p
  l.foldl (fun s (i, r) => s.setResv i { s.resv i with bound := boundWord (s.bound p r.tc (l.map (fun x => x.2))).1 }) s

/-- The journal's record of a reservation or a release. -/
def State.journalResv (s : State) (i : Nat) : State := (s.journalAdd (.resv i (s.resv i))).2

/-- Entry of FREE (Table 5-6): the meter is disabled and the record cleared; the handle's next meter takes over. -/
def State.resvFree (s : State) (i : Nat) : State :=
  let r := s.resv i
  ((((s.meterOff (3072 + i)).setResv i Resv.free).envelopes r.handle).rebound r.port).journalResv i

/-! ### Re-checks (R159, R160) -/

/-- A reservation meets its target at a re-check: no check fails, and the bound is within TARGET. -/
def State.meets (s : State) (r : Resv) (l : List Resv) : Bool :=
  let (b, ok) := s.bound r.port r.tc l
  (s.portReason r.port r.tc).isNone && s.routeOk r && decide (r.cir ≤ 25000000) && !s.unbounded r.port r.tc && ok &&
  !s.quotaBad r.port r.tc l && decide (boundWord b ≤ r.target)

/-- Log BOUND_LOST of reservation i, at most once per 10 ms (R162). -/
def State.boundLost (s : State) (i : Nat) : State :=
  (s.raise .bud 0 Irq.BUD_BOUND_LOST).logEvt .bud 0 Irq.BUD_BOUND_LOST 10000000 false (toBE 2 i ++ toBE 2 (s.resv i).handle) i

/-- The re-check of one reservation (Table 5-6). -/
def State.recheck1 (s : State) (up : Bool) (l : List Resv) (i : Nat) : State :=
  let r := s.resv i
  let ok := s.meets r l
  let go := fun (s : State) (n : Nat) => s.setResv i { s.resv i with state := n }
  match r.state, up with
  | 0, _ => s
  | 1, false => s
  | 1, true => if ok then (go s 2).raise .bud 0 Irq.BUD_PROV_CLEARED else (go s 3).boundLost i
  | 2, false => go s 1
  | 2, true =>
    if ok then s
    else (((go s 3).boundLost i).evt Reg.BUD_VIOLATED).wr Reg.BUD_LOST_IDX (wd (i + r.handle * 65536))
  | _, false => go s 1
  | _, true => if ok then go s 2 else s

/-- Every reservation of port p is re-checked. -/
def State.recheckPort (s : State) (p : Nat) : State :=
  let s := s.rebound p
  let l := s.portResv p
  l.foldl (fun s x => s.recheck1 (s.portUp p) (l.map (fun y => y.2)) x.1) s

/-- The port's link goes down: ACTIVE and VIOLATED reservations become PROVISIONAL (Table 5-6). -/
def State.budLinkDown (s : State) (p : Nat) : State :=
  ((s.portResv p).foldl (fun s x => if (s.resv x.1).state = 1 then s else s.setResv x.1 { s.resv x.1 with state := 1 }) s).budDue p

/-- A change that enters the bounds of every port: BSN_CFG.MAX_LEN (R160). -/
def State.budDueAll (s : State) : State := (List.range 26).foldl State.budDue s

/-! ### Commands (Table 5-7) -/

/-- The record of a request: none when a field lies outside its range (R153). -/
def BudCmd.record (c : BudCmd) : Option Resv :=
  let mf := fld c.r1 0 14
  let n := fld c.r1 16 16
  let t := c.r3.toNat
  if mf < 64 ∨ 9216 < mf ∨ n = 0 ∨ c.r2.toNat < 10000 ∨ 1000000000 < c.r2.toNat ∨ 250000 < t then none
  else some ⟨2, fld c.r0 0 16, fld c.r0 16 5, fld c.r0 21 3, mf, n, c.r2.toNat, if t = 0 then 250000 else t, 0⟩

/-- REQUEST or QUERY at its start: the result, and the state with an admitted reservation installed. -/
def State.budRequest (s : State) (c : BudCmd) (query : Bool) : Result × State :=
  match c.record with
  | none => (codeRes Code.badArg, s)
  | some r =>
    let p := r.port
    if (16 ≤ p ∧ p < 20) ∨ 23 ≤ p then
      -- no bound exists through these ports: RES_DATA[1] is left open
      let (v, s) := s.draw
      (dataRes Code.ok [wd (2 + 1 * 256), BitVec.ofNat 32 v.toNat], if query then s else s.stat Reg.BUD_REFUSED 1)
    else
      let (why, b, other) := s.budChecks r
      if why ≠ 0 then
        let more := match other with | some (i, h, ob) => [wd (i + h * 65536), wd ob] | none => []
        let s := if query then s else s.stat Reg.BUD_REFUSED 1
        let s := if why = 7 ∧ !query then s.raise .bud 0 Irq.BUD_FULL else s
        (dataRes Code.ok ([wd (2 + why * 256), wd (boundWord b)] ++ more), s)
      else
        let up := s.portUp p
        let verdict := if up then 0 else 1
        match query, s.freeResv with
        | false, some i =>
          let s := s.setResv i { r with state := if up then 2 else 1, bound := boundWord b }
          let s := (((s.envelopes r.handle).rebound p).stat Reg.BUD_ADMITTED 1).journalResv i
          (dataRes Code.ok [wd (verdict + i * 65536), wd (boundWord b)], s)
        | _, _ => (dataRes Code.ok [wd verdict, wd (boundWord b)], s)

/-- A command runs (Table 5-7). [DEDUCED, log entry 31] -/
def State.budRun (s : State) (c : BudCmd) : Result × State :=
  if !s.rb Reg.BUD_CFG 0 then (codeRes 0x81, s)
  else match c.op with
  | 1 => s.budRequest c false
  | 2 => if (s.resv c.index).state = 0 then (codeRes 0x80, s) else (codeRes Code.ok, s.resvFree c.index)
  | 3 =>
    let r := s.resv c.index
    if r.state = 0 then (dataRes Code.ok [], s)
    else (dataRes Code.ok [wd (r.handle + r.port * 2 ^ 16 + r.tc * 2 ^ 21 + r.state * 2 ^ 24), wd (r.maxFrame + r.n * 65536),
      wd r.interval, wd r.target, wd r.bound, wd (3072 + c.index)], s)
  | 4 =>
    let p := c.index % 32
    let s := s.recheckPort p
    (dataRes Code.ok [wd ((s.portResv p).filter (fun x => decide (x.2.state = 3))).length], s)
  | 5 => s.budRequest c true
  | _ => (codeRes Code.badOp, s)

/-- The work at the front starts, when it is a command: it reads the configuration now, and its result waits for its completion (R156).
[DEDUCED, log entry 31] [DEDUCED, log entry 31] -/
def State.budStart (s : State) : State :=
  match s.bud.work with
  | .cmd c :: q =>
    let (r, s) := { s with bud := { s.bud with work := .running c.m :: q } }.budRun c
    s.holdRes (budSlot c.m) r
  | _ => s

/-- A write of BUD_CMD by master m: accepted, it waits its turn with its arguments (R153, R156). [DEDUCED, log entry 31] -/
def State.budCmd (s : State) (m : Nat) (v : Word) : State :=
  s.command (budSlot m) m (pageBase .bud 0) fun s =>
    let a := fun k => s.rd (bankKey m (Reg.BUD_REQ k))
    let c : BudCmd := ⟨m, fld v 0 4, s.rf (bankKey m Reg.BUD_INDEX) 0 10, a 0, a 1, a 2, a 3⟩
    { s with bud := { s.bud with work := s.bud.work ++ [BudWork.cmd c] } }.budStart

/-- The command in progress completes, and the work behind it starts (R156). How long it took is left open up to 200 µs. [DEDUCED, log entry 31] -/
def State.budDone (s : State) : State :=
  match s.bud.work with
  | .running m :: q =>
    let s := { s with bud := { s.bud with work := q, timeDraw := s.free + 1 }, free := s.free + 1 }
    (s.publish (budSlot m)).budStart
  | _ => s

/-- BUD_LAST_TIME. -/
def State.budLastTime (s : State) : Nat :=
  match s.bud.timeDraw with
  | 0 => 0
  | n + 1 => (Config.freeValue n).toNat % 200001

/-- The automatic re-check of port p, once its turn has come. [DEDUCED, log entry 31] -/
def State.budAuto (s : State) (p : Nat) : State :=
  match s.bud.work with
  | .recheck k :: q => if k = p then ({ s with bud := { s.bud with work := q } }.recheckPort p).budStart else s
  | _ => s

/-- A write of BUD_CFG: EN = 0 is refused while a reservation is not FREE; EN = 1 takes the meters, disabled (R162). -/
def State.budCfgWrite (s : State) (m : Nat) (v : Word) : State :=
  let was := s.rb Reg.BUD_CFG 0
  if was ∧ !bit v 0 ∧ s.bud.resv.any (fun (_, r) => decide (r.state ≠ 0)) then s.evt Reg.BUD_CFG_REJ
  else
    let s := s.plainWrite m Reg.BUD_CFG v
    if !was ∧ bit v 0 then ((s.meters.filter (fun (i, _) => decide (3072 ≤ i))).map (fun x => x.1)).foldl State.meterOff s else s

end Sys2Proof.Machine
end

