-- ==== Sys2Proof/Machine/Egress.lean ====
section
/-! DEFINITION. Verification of preemption and pause at an egress port (R149-R152), what a link-down does to a port's frames (R196),
the writes of the EGS and BSN pages that do more than store (R99, R105, R139, R160), and the Rake (R113-R118). -/

namespace Sys2Proof.Machine

/-! ### Preemption (R149) -/

/-- Preemption becomes active on port p, or ceases to be: the port is re-checked (R160). -/
def State.preemptSet (s : State) (p : Nat) (on : Bool) : State :=
  if s.preemptActive p = on then s
  else
    let s := ((s.creditSync p).wf (Reg.EGS_PORT_STAT p) 4 1 (b2n on)).budDue p
    if on then s else s.setEg p { s.eg p with hold := false }

/-- Verification of port p starts over: off without PREEMPT_EN or link, skipped with VERIFY_DIS, else the first verify frame is sent. [DEDUCED, log entry 36] -/
def State.verifyStart (s : State) (p : Nat) : State :=
  let cfg := s.rd (Reg.EGS_PORT_CFG p)
  if 16 ≤ p ∨ !bit cfg 1 ∨ !s.portUp p then (s.wf (Reg.EGS_PORT_STAT p) 2 2 0).preemptSet p false
  else if bit cfg 4 then (s.wf (Reg.EGS_PORT_STAT p) 2 2 0).preemptSet p true
  else
    let s := (s.wf (Reg.EGS_PORT_STAT p) 2 2 1).preemptSet p false
    (s.setEg p { s.eg p with tries := 1 }).emit (.verify p)

/-- VERIFY_TIME has passed without a respond frame: the next verify frame, or failure after three. -/
def State.verifyTimer (s : State) (p : Nat) : State :=
  if s.rf (Reg.EGS_PORT_STAT p) 2 2 ≠ 1 then s
  else if (s.eg p).tries < 3 then (s.setEg p { s.eg p with tries := (s.eg p).tries + 1 }).emit (.verify p)
  else ((s.wf (Reg.EGS_PORT_STAT p) 2 2 3).evt (Reg.EGS_VERIFY_FAIL p)).raise .egs p Irq.EGS_VERIFY_FAIL

/-- A respond frame arrives during verification: preemption becomes active. -/
def State.verifyRespond (s : State) (p : Nat) : State :=
  if s.rf (Reg.EGS_PORT_STAT p) 2 2 = 1 then (s.wf (Reg.EGS_PORT_STAT p) 2 2 2).preemptSet p true else s

/-! ### Pause (R151, R152) -/

/-- The pause of port p ends. -/
def State.pauseEnd (s : State) (p : Nat) : State :=
  if s.paused p then ((s.creditSync p).wf (Reg.EGS_PORT_STAT p) 0 1 0).wf (Reg.EGS_PORT_STAT p) 16 16 0 else s

/-- A valid PAUSE frame of `n` quanta. [DEDUCED, log entry 36] -/
def State.pauseSet (s : State) (p n : Nat) : State :=
  if n = 0 then s.pauseEnd p
  else
    let s := if s.paused p then s else (s.creditSync p).raise .egs p Irq.EGS_PAUSE_START
    let s := (s.wf (Reg.EGS_PORT_STAT p) 0 1 1).wf (Reg.EGS_PORT_STAT p) 16 16 n
    s.setEg p { s.eg p with pauseAt := s.now }

/-- A MAC Control frame (from its DMAC to before its FCS) that port p consumes at stage 1 (R151, R152). -/
def State.macTake (s : State) (p : Nat) (b : List Byte) (fcsOk : Bool) : State :=
  if beAt b 14 2 = 1 then
    let s := s.stat (Reg.EGS_PAUSE_RX p) 1
    if fcsOk ∧ 64 ≤ b.length + 4 ∧ s.rb (Reg.EGS_PORT_CFG p) 0 then s.pauseSet p (beAt b 16 2) else s
  else s.evt (Reg.EGS_PFC_RX p)

/-- A MAC Control frame received on port p. -/
def State.macControl (s : State) (p : Nat) (b : List Byte) (fcsOk : Bool) : State :=
  if s.receives p then (s.countRx p b fcsOk).macTake p b fcsOk else s

/-! ### A port leaves or enters UP (R196, R160, R166) -/

/-- A copy on port p's transmitter ends where the link failed. -/
def State.txAbort (s : State) (p : Nat) (x : Option Tx) : State :=
  match x with
  | some x =>
    let s := match s.copyAt x.fid x.idx with | some (_, c) => if s.ringed p then s.rxAbort c.ring else s | none => s
    (s.evt (Reg.EPT_TX_LINK_ABORT p)).copyDone x.fid x.idx
  | none => s

/-- Port p has left UP: what is on its wires ends, pause and preemption end, its reservations are VIOLATED, its head is forgotten. -/
def State.portLost (s : State) (p : Nat) : State :=
  let s := s.creditSync p
  let e := s.eg p
  let s := s.setEg p { e with tx := none, susp := none, frag := 0, hold := false }
  let s := s.setEport p { s.eport p with coll := 0 }
  let s := (s.txAbort p e.tx).txAbort p e.susp
  let s := (s.abortArrival p false).abortArrival p true
  let s := (s.wr (Reg.EGS_PORT_STAT p) 0).budLinkDown p
  if p < 8 then s.hadLinkDown p else s

/-- Port p has entered UP. -/
def State.portGained (s : State) (p : Nat) : State :=
  let s := ((s.creditSync p).budDue p).verifyStart p
  if p < 8 then s.hadLinkUp p else s

/-! ### Register writes -/

/-- A write of EGS_PORT_CFG of port p. -/
def State.egsPortWrite (s : State) (m p : Nat) (v : Word) : State :=
  let old := s.rd (Reg.EGS_PORT_CFG p)
  let s := (s.plainWrite m (Reg.EGS_PORT_CFG p) v).budDue p
  let new := s.rd (Reg.EGS_PORT_CFG p)
  let s := if bit old 1 ≠ bit new 1 ∨ (bit new 1 ∧ bit old 4 ≠ bit new 4) then s.verifyStart p else s
  if bit new 0 then s else s.pauseEnd p

/-- A write of EGS_TC_CFG of port p and class k: one that creates SHAPED with DRR is held and counted (R139). -/
def State.egsTcWrite (s : State) (m p k : Nat) (v : Word) : State :=
  let was := s.tcShaped p k && s.tcDrr p k
  let s := ((s.creditSync p).plainWrite m (Reg.EGS_TC_CFG p k) v).budDue p
  if !was ∧ s.tcShaped p k ∧ s.tcDrr p k then (s.evt (Reg.EGS_CFG_CONFLICT p)).raise .egs p Irq.EGS_CFG_CONFLICT else s

/-- A write of EGS_IDLE_SLOPE of port p and class k. -/
def State.egsSlopeWrite (s : State) (m p k : Nat) (v : Word) : State :=
  ((s.creditSync p).plainWrite m (Reg.EGS_IDLE_SLOPE p k) v).budDue p

/-- A write of BSN_CFG: a write of MAX_LEN re-checks every port (R160). -/
def State.bsnCfgWrite (s : State) (m : Nat) (v : Word) : State := (s.plainWrite m Reg.BSN_CFG v).budDueAll

/-- A write ignored under R105. -/
def State.rsvRej (s : State) : State := (s.evt Reg.BSN_RSV_REJ).raise .bsn 0 Irq.BSN_RSV_REJ

/-- A write of BSN_QCFG of queue q (R105, R106, R160). -/
def State.qcfgSet (s : State) (m q : Nat) (v : Word) : State :=
  if fld v 0 16 < fld v 16 16 ∨ 49152 < s.rsvSum - s.reserved q + fld v 16 16 + s.headroom then s.rsvRej
  else
    let s := (s.plainWrite m (Reg.BSN_QCFG q) v).quotaScan q
    if q < 208 then s.budDue (q / 8) else s

/-- A write of BSN_HEADROOM, judged on the value it would store (R105). -/
def State.headroomSet (s : State) (m : Nat) (v : Word) : State :=
  if 49152 < s.rsvSum + clampN 1872 8192 (fld v 0 16) then s.rsvRej else s.plainWrite m Reg.BSN_HEADROOM v

/-- A write of BSN_QCFG or BSN_HEADROOM at address a. -/
def State.qcfgWrite (s : State) (m a : Nat) (v : Word) : State :=
  if a = Reg.BSN_HEADROOM then s.headroomSet m v else s.qcfgSet m ((a - Reg.BSN_QCFG 0) / 4) v

/-- The seed of the flow hash that waits takes effect once no frame is stored (R99). -/
def State.seedApply (s : State) : State :=
  if s.bsnFree = 49152 then { s with bsn := { s.bsn with seed := s.rd Reg.BSN_FLOW_SEED } } else s

/-- A write of BSN_FLOW_SEED. -/
def State.flowSeedWrite (s : State) (m : Nat) (v : Word) : State := (s.plainWrite m Reg.BSN_FLOW_SEED v).seedApply

/-- A write of EDY_RATE of rule i: N is stored, COUNT becomes 0. -/
def State.edyRateWrite (s : State) (m i : Nat) (v : Word) : State := (s.plainWrite m (Reg.EDY_RATE i) v).wf (Reg.EDY_RATE i) 16 16 0

/-! ### The Rake (R113-R118) -/

/-- An audit starts. [DEDUCED, log entry 35] -/
def State.auditStart (s : State) : State :=
  { s with bsn := { s.bsn with auditOn := true, auditDue := false, auditStart := s.now, moved := [] } }

/-- An audit is due: it starts, or, while one still runs, waits for its end with OVERRUN. -/
def State.auditDue (s : State) : State :=
  if !s.rb Reg.RAK_CFG 0 then s
  else if s.bsn.auditOn then { s with bsn := { s.bsn with auditDue := true } }.raise .rak 0 Irq.RAK_OVERRUN
  else s.auditStart

/-- A cell found both free and in a frame. [DEDUCED, log entry 35] -/
def State.rakeDouble (s : State) (c : Nat) : State :=
  if (s.stored.any (fun f => f.cells.contains c)) then
    (((s.evt Reg.RAK_DOUBLE).raise .rak 0 Irq.RAK_DOUBLE).wr Reg.RAK_LAST_CELL (wd (c + 0x10000))).logEvt .rak 0 Irq.RAK_DOUBLE 10000000
      false (toBE 2 c)
  else s

/-- A suspect of two consecutive audits returns to the free list. [DEDUCED, log entry 35] -/
def State.rakeReclaim (s : State) (c : Nat) : State :=
  (((s.stat Reg.RAK_RECLAIMED 1).raise .rak 0 Irq.RAK_RECLAIM).wr Reg.RAK_LAST_CELL (wd c)).logEvt .rak 0 Irq.RAK_RECLAIM 10000000 false
    (toBE 2 c)

/-- The running audit completes: the cells it left unmarked besides those known to be unreachable, those found twice, and whether the free
list was cut and the cells beyond the cut. A cell of a frame, or one that moved during the audit, is no suspect. [DEDUCED, log entry 35] -/
def State.auditDone (s : State) (unmarked doubled : List Nat) (broken : Bool) (beyond : List Nat) : State :=
  if !s.bsn.auditOn then s
  else
    let s := doubled.foldl State.rakeDouble s
    let s := if broken then
        ((s.evt Reg.RAK_LIST_BREAK).raise .rak 0 Irq.RAK_LIST_BREAK).logEvt .rak 0 Irq.RAK_LIST_BREAK 10000000 false (toBE 2 (beyond.headD 0))
      else s
    let used := s.stored.flatMap (fun f => f.cells)
    let found := (unmarked ++ s.bsn.lost ++ if broken then beyond else []).eraseDups.filter
      (fun c => decide (c < 49152) && !used.contains c && !s.bsn.moved.contains c)
    let back := found.filter (fun c => s.bsn.suspects.contains c)
    let s := back.foldl State.rakeReclaim s
    let s := s.stat Reg.RAK_AUDITS 1
    let left := found.filter (fun c => !back.contains c)
    let again := s.bsn.auditDue
    let s := { s with bsn := { s.bsn with
      auditOn := false
      auditDue := false
      moved := []
      suspects := left
      lost := s.bsn.lost.filter (fun c => !found.contains c)
      lastDur := min ((s.now - s.bsn.auditStart) / 1000) 0xFFFF } }
    if again then s.auditStart else s

end Sys2Proof.Machine
end

