-- ==== Sys2Proof/Machine/Ept.lean ====
section
/-! DEFINITION. The link state machine of an Ethernet port, its TC10 handshakes and 10BASE-T1S (R194-R203). -/

namespace Sys2Proof.Machine

/-- A GT port, which has TC10; an SD port, which has PLCA. -/
def isGt (p : Nat) : Bool := decide (8 ≤ p) && decide (p < 16)
def isSd (p : Nat) : Bool := decide (16 ≤ p) && decide (p < 20)

/-- The link state of a port. -/
def State.lstate (s : State) (p : Nat) : Nat := (s.eport p).link

/-- The domain of the port's PHY or lane is powered (Table 14-1). -/
def State.phyOn (s : State) (p : Nat) : Bool := if p < 8 then s.pwr.mphyOn else if p < 20 then s.pwr.lphyOn else s.pwr.serdesOn

/-- The port's PHY or lane may run: EN, no DMA rings, and its domain powered. -/
def State.laneOn (s : State) (p : Nat) : Bool := s.enabled .ept p && !s.dmaPort p && s.pwr.fwdOn && s.phyOn p

/-- Port p enters TRAINING: the transmit taps of a SerDes lane apply, those of EPT_EQ with EQ_MANUAL = 1, else the margin planner's (R199, R426). [DEDUCED, log entry 37] -/
def State.trainEnter (s : State) (p : Nat) : State :=
  let e := s.eport p
  let taps := if 20 ≤ p then (if s.rb (Reg.EPT_SERDES p) 6 then s.rd (Reg.EPT_EQ p) else e.planTaps) else e.taps
  s.setEport p { e with link := 1, taps := taps }

/-- A port in DOWN that may run starts training. [DEDUCED, log entry 37] -/
def State.train (s : State) (p : Nat) : State := if s.lstate p = 0 ∧ s.laneOn p then s.trainEnter p else s

/-- The port enters DOWN: what is on its wire ends when it leaves UP; `quiet` for an entry from a reset, from SLEEP or from OFF. [DEDUCED, log entry 37] -/
def State.linkDrop (s : State) (p : Nat) (quiet : Bool) : State :=
  let was := s.lstate p
  if was = 0 then s
  else
    let s := (s.creditSync p).setEport p { s.eport p with link := 0, shaking := false }
    let s := if was = 3 then s.portLost p else s
    if quiet ∨ was = 4 then s else (s.evt (Reg.EPT_LINK_DOWN p)).raise .ept p Irq.EPT_LINK_DOWN

/-- The port goes DOWN and, if it may, trains again. -/
def State.linkRestart (s : State) (p : Nat) : State := (s.linkDrop p false).train p

/-- The port enters UP, which confirms a GT port's wake. -/
def State.linkEnterUp (s : State) (p : Nat) : State :=
  let s := if isGt p then s.confirmSrc (24 + p) else s
  (((s.creditSync p).setEport p { s.eport p with link := 3 }).raise .ept p Irq.EPT_LINK_UP).portGained p

/-- The PCS reports link up. With LINK_HOLD = 0 HOLD is left at once. -/
def State.pcsUp (s : State) (p : Nat) : State :=
  if s.lstate p ≠ 1 then s
  else if s.rf (Reg.EPT_CFG p) 8 8 = 0 then s.linkEnterUp p
  else s.setEport p { s.eport p with link := 2 }

/-- The hold timer expires. -/
def State.holdExpire (s : State) (p : Nat) : State := if s.lstate p = 2 then s.linkEnterUp p else s

/-- The PCS reports link down. -/
def State.pcsDown (s : State) (p : Nat) : State :=
  if s.lstate p = 2 then s.trainEnter p else if s.lstate p = 3 then s.linkRestart p else s

/-- The training timer expires: training starts again. -/
def State.trainTimeout (s : State) (p : Nat) : State :=
  if s.lstate p = 1 then ((s.trainEnter p).evt (Reg.EPT_TRAIN_FAIL p)).raise .ept p Irq.EPT_TRAIN_FAIL else s

/-- BLK_CTRL.EN of the port's page has been written. -/
def State.eptEnabled (s : State) (p : Nat) : State := if s.enabled .ept p then s.train p else s.linkDrop p false

/-- EPT_CFG.RATE as a write stores it: a value the port's kind does not list stores the kind's reset value (Table 7-1). [DEDUCED, log entry 37] -/
def rateStored (p r : Nat) : Nat :=
  if p < 8 then (if r < 3 then r else 2) else if p < 16 then (if r < 2 then r else 1)
  else if p < 20 then 0 else if p < 22 then (if r < 3 then r else 1) else 2

/-- A write of EPT_CFG: one that changes RATE or MASTER takes an UP port down. MASTER is a field of T1 ports. -/
def State.eptCfgWrite (s : State) (m p : Nat) (v : Word) : State :=
  let old := s.rd (Reg.EPT_CFG p)
  let v := setFld v 0 2 (rateStored p (fld v 0 2))
  let v := if p < 16 then v else setFld v 4 1 0
  let s := (s.creditSync p).plainWrite m (Reg.EPT_CFG p) v
  let new := s.rd (Reg.EPT_CFG p)
  let s := if fld old 0 2 = fld new 0 2 then s else s.budDue p
  if s.lstate p = 3 ∧ fld old 0 5 ≠ fld new 0 5 then s.linkRestart p else s

/-- A write of another EPT register: fields that do not apply to the port's kind ignore it. -/
def State.eptWrite (s : State) (m p a : Nat) (v : Word) : State :=
  let off := a % 0x1000
  if (off = 0x90 ∨ off = 0x94) ∧ !isSd p then s
  else if off = 0x98 ∧ !isGt p then s
  else if (off = 0xA0 ∨ off = 0xA4) ∧ p < 20 then s
  else
    let s := s.plainWrite m a v
    if off = 0x90 ∧ !s.rb (Reg.EPT_PLCA p) 0 then s.setEport p { s.eport p with fallback := false } else s

/-- A port in SLEEP leaves it for DOWN and retrains. -/
def State.leaveSleep (s : State) (p : Nat) : State := if s.lstate p = 4 then (s.linkDrop p true).train p else s

/-- A wake is sent on GT port p: WUP (code 1) in SLEEP, WUR (code 2) in UP (R202). -/
def State.wakeSend (s : State) (p : Nat) : State :=
  if !isGt p then s
  else if s.lstate p = 4 then (s.emit (.tc10 p 1)).leaveSleep p
  else if s.lstate p = 3 then s.emit (.tc10 p 2)
  else s

/-- EPT_CMD.SLEEP: a sleep request (code 3) is sent; during a handshake it aborts it (R200, R201). [DEDUCED, log entry 37] -/
def State.sleepSend (s : State) (p : Nat) : State :=
  if !isGt p ∨ s.lstate p ≠ 3 then s
  else if (s.eport p).shaking then s.setEport p { s.eport p with shaking := false }
  else (s.setEport p { s.eport p with shaking := true }).emit (.tc10 p 3)

/-- A partner's sleep request: acknowledged (code 4), or counted (R200). -/
def State.sleepReq (s : State) (p : Nat) : State :=
  if !isGt p ∨ s.lstate p ≠ 3 then s
  else
    let s := s.raise .ept p Irq.EPT_SLEEP_RX
    if s.rb (Reg.EPT_TC10 p) 0 ∧ (List.range 8).all (fun k => (s.queue (8 * p + k)).isEmpty) ∧
        !(s.portResv p).any (fun (_, r) => decide (r.state = 2)) then
      (s.setEport p { s.eport p with shaking := true }).emit (.tc10 p 4)
    else s.evt (Reg.EPT_TC10_REJ p)

/-- The sleep is agreed: the port enters SLEEP (R200). -/
def State.sleepAgreed (s : State) (p : Nat) : State :=
  if isGt p ∧ s.lstate p = 3 ∧ (s.eport p).shaking then
    (((s.creditSync p).setEport p { s.eport p with link := 4, shaking := false }).portLost p).raise .ept p Irq.EPT_SLEPT
  else s

/-- No acknowledge within 16 ms. -/
def State.sleepTimeout (s : State) (p : Nat) : State :=
  if isGt p ∧ s.lstate p = 3 ∧ (s.eport p).shaking then
    (s.setEport p { s.eport p with shaking := false }).evt (Reg.EPT_TC10_REJ p)
  else s

/-- A WUP or WUR is seen on GT port p: a handshake is aborted, a detection is reported and forwarded, a sleeping port wakes. [DEDUCED, log entry 37] -/
def State.wakeSeen (s : State) (p : Nat) (wur : Bool) : State :=
  if !isGt p then s
  else
    let shook := (s.eport p).shaking
    let s := s.setEport p { s.eport p with shaking := false }
    let on := s.rb (Reg.EPT_TC10 p) (if wur then 2 else 1) &&
      (if wur then decide (s.lstate p = 3) else decide (s.lstate p = 4) || !s.laneOn p || shook)
    if !on then s
    else
      let s := s.wr (Reg.EPT_WAKE_CAP p) (s.rd (Reg.EPT_WAKE_CAP p) ||| (if wur then 2 else 1))
      let s := (s.raise .ept p Irq.EPT_WAKE).evt (Reg.EPT_TC10_WAKE p)
      let s := if s.rb (Reg.EPT_TC10 p) 3 then
          (onesOf (s.rf (Reg.EPT_TC10 p) 8 8) 8).foldl (fun s i => s.wakeSend (8 + i)) s else s
      s.leaveSleep p

/-- EPT_CMD written. [DEDUCED, log entry 37] -/
def State.eptCmd (s : State) (p : Nat) (v : Word) : State :=
  let s := if bit v 0 ∧ s.lstate p = 3 then s.linkRestart p else s
  let s := if bit v 1 then s.sleepSend p else s
  if bit v 2 then s.wakeSend p else s

/-- Activity on the MDI of an SD port (R203). -/
def State.sdActivity (s : State) (p : Nat) : State :=
  if isSd p then (s.heard (24 + p)).wr (Reg.EPT_WAKE_CAP p) (s.rd (Reg.EPT_WAKE_CAP p) ||| 4) else s

/-- EPT_STAT.PLCA_ACTIVE. -/
def State.plcaActive (s : State) (p : Nat) : Bool :=
  isSd p && s.rb (Reg.EPT_PLCA p) 0 && decide (s.lstate p = 3) && !(s.eport p).fallback

/-- No beacon: a non-coordinator falls back to CSMA/CD (R198). [DEDUCED, log entry 38] -/
def State.beaconLost (s : State) (p : Nat) : State :=
  if s.plcaActive p ∧ s.rf (Reg.EPT_PLCA p) 8 4 ≠ 0 then
    ((s.setEport p { s.eport p with fallback := true }).evt (Reg.EPT_PLCA_ERR p)).raise .ept p Irq.EPT_PLCA_ERR
  else s

/-- A beacon returns the port to PLCA. [DEDUCED, log entry 38] -/
def State.beaconSeen (s : State) (p : Nat) : State := if isSd p then s.setEport p { s.eport p with fallback := false } else s

/-- A collision aborts the transmission of SD port p, which starts again; the 16th drops its frame (R198). [DEDUCED, log entry 38] -/
def State.collision (s : State) (p : Nat) : State :=
  match (s.eg p).tx with
  | none => s
  | some x =>
    if !isSd p then s
    else
      let s := s.evt (Reg.EPT_COLL p)
      let n := (s.eport p).coll + 1
      if n < 16 then (s.setEport p { s.eport p with coll := n }).emit (.frameStart p x.bytes)
      else
        let s := (s.evt (Reg.EPT_COLL_DROP p)).setEport p { s.eport p with coll := 0 }
        let s := s.creditSync p
        (s.setEg p { s.eg p with tx := none, frag := 0 }).copyDone x.fid x.idx

/-- The BASE-R PCS of an HX or TW port reports hi_ber (R199). -/
def State.hiBer (s : State) (p : Nat) : State :=
  if 20 ≤ p ∧ p < 23 ∧ s.rf (Reg.EPT_CFG p) 0 2 ≠ 0 then (s.evt (Reg.EPT_HI_BER p)).raise .ept p Irq.EPT_HI_BER else s

end Sys2Proof.Machine
end

