-- ==== Sys2Proof/Machine/ClusterMem.lean ====
section
/-! DEFINITION. The Service Cluster's physical map (R433), its memory (R446), its partitions and their locked PMP ranges (R435). -/

namespace Sys2Proof.Machine

/-! ### Memory (Table 16-1, R446) -/

/-- A partition. -/
def State.part (s : State) (n : Nat) : Part := Tab.get (fun _ => Part.reset) s.svc.parts n

/-- Replace a partition. -/
def State.setPart (s : State) (n : Nat) (p : Part) : State :=
  { s with svc := { s.svc with parts := Tab.set (fun _ => Part.reset) s.svc.parts n p } }

/-- Bytes of DRAM present: SIZE, less an eighth with ECC, once trained. -/
def State.dramSize (s : State) : Nat :=
  let z := s.rf Reg.SVC_DDR_CFG 4 3
  let n := if z = 0 ∨ 4 < z then 0 else 2 ^ (28 + z)
  let n := if z = 4 then 2 ^ 32 else n
  if s.rb Reg.SVC_DDR_STAT 0 then (if s.rb Reg.SVC_DDR_CFG 8 then n - n / 8 else n) else 0

/-- A range lies wholly in SRAM or in present DRAM; neither is there while the domain is off. -/
def State.memIn (s : State) (base n : Nat) : Bool :=
  s.pwr.svcOn &&
  ((decide (0x08000000 ≤ base) && decide (base + n ≤ 0x08400000)) || (decide (0x80000000 ≤ base) && decide (base + n ≤ 0x80000000 + s.dramSize)))

/-- `n` bytes of a table of bytes from `a`. -/
def bytesFrom (t : Tab Byte) (a n : Nat) : List Byte := (List.range n).map (fun i => Tab.get (fun _ => 0) t (a + i))

/-- Store bytes from `a`. -/
def putBytes (t : Tab Byte) (a : Nat) : List Byte → Tab Byte
  | [] => t
  | b :: l => putBytes (Tab.set (fun _ => 0) t a b) (a + 1) l

/-- The base of a partition's window: that of its image; SRAM's for a partition that has had none. [DEDUCED, log entry 62] -/
def Part.window (p : Part) : Nat := if p.len = 0 then 0x08000000 else p.base

/-! ### The physical map (Table 16-1) -/

/-- What a cluster address maps. -/
inductive Region where
  | timer
  | memory
  | irqs
  | regs (x : Nat)
  | rings (off : Nat)
  | counter (i : Nat)
deriving DecidableEq, Repr

/-- The local I/O ranges of Table 16-1: base and size. -/
def ioRanges : List (Nat × Nat) :=
  [(0x02000000, 0x10000), (0x0C000000, 0x4000000), (0x10000000, 0x4000000), (0x18000000, 0x10000), (0x18010000, 0x200)]

/-- A core's address in the map of Table 16-1; another address raises an access fault. [DESIGN CHOICE, log entry 96] -/
def State.regionOf (s : State) (a : Nat) : Option Region :=
  if 0x02000000 ≤ a ∧ a < 0x02010000 then some .timer
  else if 0x0C000000 ≤ a ∧ a < 0x10000000 then some .irqs
  else if 0x10000000 ≤ a ∧ a < 0x14000000 then some (.regs (a - 0x10000000))
  else if 0x18000000 ≤ a ∧ a < 0x18010000 then some (.rings (a - 0x18000000))
  else if 0x18010000 ≤ a ∧ a < 0x18010200 then some (.counter ((a - 0x18010000) / 8))
  else if s.memIn a 4 then some .memory
  else none

/-- The cluster's timebase: mtime, at 100 MHz. -/
def State.mtime (s : State) : Nat := s.now / 10

/-! ### Isolation (R435, R444) -/

/-- Two ranges overlap. -/
def overlaps (a n b m : Nat) : Bool := decide (a < b + m) && decide (b < a + n)

/-- What the loader locks in entries 0-5 of each core of partition n: its window and the local I/O ranges granted, the windows of every other
running partition denied. [DESIGN CHOICE, log entry 96] -/
def State.pmpFor (s : State) (n : Nat) : List Pmp :=
  let p := s.part n
  let others := s.svc.parts.filter (fun x => decide (x.1 ≠ n) && decide (x.2.state = 1))
  ⟨p.base, p.len, true⟩ :: ioRanges.map (fun r => ⟨r.1, r.2, true⟩) ++ others.map (fun x => ⟨x.2.base, x.2.len, false⟩)

/-- The locked entries of the cores of a set. -/
def State.pmpSet (s : State) (cores : Nat) (l : List Pmp) : State :=
  { s with svc := { s.svc with pmp := (onesOf cores 4).foldl (fun t c => Tab.set (fun _ => ([] : List Pmp)) t c l) s.svc.pmp } }

/-- The locked entries let core c at an address; what they do not name is left to entries 6-15, which the image sets. [DESIGN CHOICE, log entry 96] -/
def State.pmpLets (s : State) (c a : Nat) : Bool :=
  match (Tab.get (fun _ => ([] : List Pmp)) s.svc.pmp c).find? (fun e => overlaps e.base e.len a 4) with
  | some e => e.allow
  | none => true

/-- The partition that SVC_RING_MAP gives port 23's ring n (32-39 receive, 48-55 transmit) to. -/
def State.ringPart (s : State) (n : Nat) : Nat := s.rf Reg.SVC_RING_MAP (2 * (if n < 48 then n - 32 else n - 40)) 2

/-- The numbers of port 23's rings. -/
def clusterRings : List Nat := (List.range 8).map (· + 32) ++ (List.range 8).map (· + 48)

end Sys2Proof.Machine
end

