-- ==== Sys2Proof/Machine/Hif.lean ====
section
/-! DEFINITION. The PCIe host interface: DMA port, rings, doorbells, descriptors and MSI-X (R197, R205-R216). -/

namespace Sys2Proof.Machine

/-! ### Rings -/

/-- Ring number of receive ring r (r) and transmit ring t (16 + t) of the host; r or t from 16 on is one of port 23's rings, numbered from
32 on. [DESIGN CHOICE, log entry 95] -/
def ringNo (tx : Bool) (r : Nat) : Nat := if r < 16 then (if tx then 16 + r else r) else if tx then 32 + r else 16 + r

/-- A ring's registers' offset from those of receive ring 0. Port 23's ring registers have the layout of the HIF page's at the cluster's local
base (R444), and stand in the register store from there on. [DESIGN CHOICE, log entry 95] -/
def ringOff (n : Nat) : Nat := n / 32 * 0x18000000 + n % 32 * 0x20

/-- A register-store key is one of port 23's ring registers. [DESIGN CHOICE, log entry 95] -/
def clusterKey (k : Nat) : Bool := decide (k / 0x4000000 = 6)

/-- A ring. -/
def State.ring (s : State) (n : Nat) : Ring := Tab.get (fun _ => Ring.reset) s.hif.rings n

/-- Replace a ring. -/
def State.setRing (s : State) (n : Nat) (r : Ring) : State :=
  { s with hif := { s.hif with rings := Tab.set (fun _ => Ring.reset) s.hif.rings n r } }

/-- The ring's control register. -/
def ringCtrl (n : Nat) : Nat := Reg.RXR_CTRL 0 + ringOff n

/-- The ring is enabled. -/
def State.ringOn (s : State) (n : Nat) : Bool := s.rb (ringCtrl n) 0

/-- Some ring is enabled. -/
def State.anyRing (s : State) : Bool := (List.range 32).any s.ringOn

/-- Descriptors the 7420 owns: from HEAD to TAIL - 1. -/
def Ring.owned (r : Ring) : Nat := if r.size = 0 then 0 else (r.tail + r.size - r.head) % r.size

/-- A ring sends its message for the completions not yet signalled; a ring of port 23 interrupts the cluster, receive rings at 129-136 and
transmit rings at 137-144. [DESIGN CHOICE, log entry 95] -/
def State.ringSignal (s : State) (n : Nat) : State :=
  let r := s.ring n
  if r.unsig = 0 then s
  else
    let s := s.setRing n { r with unsig := 0 }
    if n < 32 then s.msixSend r.vector else s.emit (.clusterIrq (if n < 48 then 97 + n else 89 + n))

/-- Bytes stored at a cluster address, if memory is there. -/
def State.memPut (s : State) (a : Nat) (b : List Byte) : State :=
  if s.memIn a b.length then { s with svc := { s.svc with mem := putBytes s.svc.mem a b } } else s

/-- A completed descriptor, its data written with Relaxed Ordering where RO_EN and Device Control allow it (R212): HEAD advances; the message goes out when COAL_CNT is reached or COAL_TIME is 0 (R216). -/
def State.ringComplete (s : State) (n : Nat) (desc data : List Byte) : State :=
  let r := s.ring n
  let s := s.emit (.hostDesc n r.head desc data (decide (n < 32) && s.rb Reg.HIF_CFG 4 && s.hif.relax))
  let s := if n < 32 then s else s.memPut (r.base + 32 * r.head + 16) desc
  let s := s.setRing n { r with head := (r.head + 1) % r.size, unsig := r.unsig + 1 }
  if s.rf (ringCtrl n) 24 8 = 0 ∨ s.rf (ringCtrl n) 16 8 ≤ r.unsig + 1 then s.ringSignal n else s

/-- Store a write of one of ring n's registers; port 23's have the HIF page's layout. -/
def State.ringStore (s : State) (m n a : Nat) (v : Word) : State :=
  if n < 32 then s.plainWrite m a v
  else match findReg .hif (a % 0x1000) with
    | some (d, _) => s.wr a (d.store (s.rd a) v)
    | none => s

/-- A write of RXR_CTRL or TXR_CTRL: EN from 0 to 1 takes BASE, SIZE and VECTOR, with HEAD and TAIL 0 (R208). [DEDUCED, log entry 39] -/
def State.ringCtrlWrite (s : State) (m n : Nat) (v : Word) : State :=
  let was := s.ringOn n
  let s := s.ringStore m n (ringCtrl n) v
  if was ∨ !s.ringOn n then s
  else
    let off := ringOff n
    let s := s.wr (Reg.RXR_STAT 0 + off) 0
    s.setRing n ⟨s.rd64 (Reg.RXR_BASE_LO 0 + off) / 64 * 64, 2 ^ s.rf (Reg.RXR_SIZE 0 + off) 0 4, s.rf (ringCtrl n) 8 6, 0, 0, (s.ring n).unsig⟩

/-- The ring whose BASE or SIZE lies at HIF page offset `off`. -/
def ringAt (off : Nat) : Option Nat :=
  if 0x100 ≤ off ∧ off < 0x500 ∧ off % 0x20 < 0xC then some ((off - 0x100) / 0x20) else none

/-- A write of a ring's BASE or SIZE, ignored and counted while the ring is enabled (R208). -/
def State.ringCfgWrite (s : State) (m n a : Nat) (v : Word) : State :=
  if s.ringOn n then s.evt Reg.HIF_CFG_REJ else s.ringStore m n a v

/-- A doorbell write that is ignored: counted, INT_RAW[1] raised (R206, R208). -/
def State.dbErr (s : State) : State := (s.evt Reg.HIF_DB_ERR).raise .hif 0 Irq.HIF_DB_ERR

/-- A doorbell write, an access by master 0 to the HIF page: the write mask and the page's domain stop it as they stop a write of a
register (R33, R35, R206-R208). [DEDUCED, log entry 39] -/
def State.doorbell (s : State) (n : Nat) (v : Word) (full : Bool) : State :=
  if !full then s.evt Reg.HIF_DB_ERR
  else
    s.access 0 (pageBase .hif 0) fun s =>
      if s.ringOn n ∧ fld v 0 16 < (s.ring n).size then s.setRing n { s.ring n with tail := fld v 0 16 } else s.dbErr

/-- A ring stops with an error (R213). -/
def State.ringStop (s : State) (n err : Nat) : State :=
  if s.ringOn n then
    (((s.wf (ringCtrl n) 0 1 0).wf (Reg.RXR_STAT 0 + ringOff n) 0 4 err).evt Reg.HIF_DMA_ERR).raise .hif 0 Irq.HIF_DMA_ERR
  else s

/-! ### Transmit (R209, R210) -/

/-- Bytes 16-31 of a completed transmit descriptor. -/
def txDesc (ts status : Nat) : List Byte := toLE 8 ts ++ List.replicate 6 0 ++ toLE 2 status

/-- Complete `k` descriptors of transmit ring t with one STATUS, DONE set; the last carries the TIMESTAMP. [DEDUCED, log entry 39] -/
def State.txFinish (s : State) (t ts status : Nat) : Nat → State
  | 0 => s
  | 1 => s.ringComplete (ringNo true t) (txDesc ts (1 + status)) []
  | k + 2 => (s.ringComplete (ringNo true t) (txDesc 0 (1 + status)) []).txFinish t ts status (k + 1)

/-- Complete the descriptors of a frame that never entered intake: the spec states no TIMESTAMP for it. -/
def State.txUnsent (s : State) (t status k : Nat) : State :=
  let (x, s) := s.draw
  s.txFinish t x.toNat status k

/-- The port that carries DMA rings. -/
def State.ringPort (s : State) : Option Nat := if s.dmaPort 20 then some 20 else if s.dmaPort 21 then some 21 else none

/-- The words of `n` bytes pass through transmit FIFO t. -/
def State.txThrough (s : State) (t n : Nat) : State :=
  let f := s.txf t
  s.setTxf t ⟨(f.wr + words8 n) % 2048, (f.rd + words8 n) % 2048⟩

/-- A frame of transmit ring t enters the intake of the DMA port, or of port 23; `under`: its FIFO runs dry before its end. -/
def State.txEnter (s : State) (t p k : Nat) (b : List Byte) (under : Bool) : State :=
  let ts := s.now
  let s := if t < 16 then (s.stat (Reg.TXR_FRAMES t) 1).txThrough t b.length else s
  let b := if b.length < 60 then fit 60 b else b
  let (a, s) := s.ethHead p ts b false
  let s := s.setArrival p false (some a)
  let s := if under then s.abortArrival p false else s.verdict p false true false 0
  s.txFinish t ts (if under then 16 else 0) k

/-- TXR_CTRL.PRIO of transmit ring t. -/
def State.txPrio (s : State) (t : Nat) : Nat := s.rf (ringCtrl (ringNo true t)) 1 3

/-- A priority of the host's transmit rings, or of port 23's. -/
def State.txLevel (s : State) (t : Nat) : Nat := t / 16 * 8 + s.txPrio t

/-- How far transmit ring t stands behind the ring last served at its priority; before any was served, ring 0 is first. [DEDUCED, log entry 39] -/
def State.txAfter (s : State) (t : Nat) : Nat := (t + 15 - Tab.get (fun _ => 15) s.hif.lastTx (s.txLevel t)) % 16

/-- It is transmit ring t's turn among the rings that have a frame ready: highest PRIO first, round robin within a priority (R210). [DEDUCED, log entry 39] -/
def State.txTurn (s : State) (t : Nat) (ready : List Nat) : Bool :=
  ready.all fun u =>
    decide (u = t) || decide (u / 16 ≠ t / 16) || !s.ringOn (ringNo true u) || decide (s.txPrio u < s.txPrio t) ||
      (decide (s.txPrio u = s.txPrio t) && decide (s.txAfter t < s.txAfter u))

/-- Transmit ring t has been served. -/
def State.txServed (s : State) (t : Nat) : State :=
  { s with hif := { s.hif with lastTx := Tab.set (fun _ => 15) s.hif.lastTx (s.txLevel t) t } }

/-- A bus frame of transmit ring t of port 23 enters at ingress 23 for its target, with neither padding nor FCS (R445). [DESIGN CHOICE, log entry 95] -/
def State.txBus (s : State) (t target k : Nat) (b : List Byte) (under : Bool) : State :=
  let ts := s.now
  let s := if under then s else s.busEnter 23 target ts b
  s.txFinish t ts (if under then 16 else 0) k

/-- HIF_TX_START: the descriptors fetched for a frame of transmit ring t (their LENs, and whether the last has EOP), its data, and the
rings that have a frame ready; `bus`: FLAGS[1] of a descriptor of port 23 is set, and its target. [DEDUCED, log entry 39] -/
def State.hifTx (s : State) (t : Nat) (lens : List Nat) (eop : Bool) (b : List Byte) (under : Bool) (ready : List Nat) (bus : Option Nat) : State :=
  let n := ringNo true t
  let bus := if t < 16 then none else bus
  if !s.ringOn n ∨ lens.isEmpty ∨ (s.ring n).owned < lens.length then s
  else if 5 ≤ lens.length ∨ lens.any (fun l => decide (l = 0) || decide (9216 < l)) then s.txUnsent t 4 lens.length
  else if !eop then s
  else if s.maxLen < (if bus.isSome then sumN lens else max 60 (sumN lens) + 4) then s.txUnsent t 2 lens.length
  else
    match if t < 16 then s.ringPort else some 23 with
    | none => s
    | some p =>
      if !s.receives p ∨ !s.txTurn t ready then s
      else
        match bus with
        | some target => (s.txServed t).txBus t target lens.length (b.take (sumN lens)) under
        | none => (s.txServed t).txEnter t p lens.length (b.take (sumN lens)) under

/-- The frames that a reset transmit FIFO held, as descriptor counts, complete with DROPPED (R210). -/
def State.txDropped (s : State) (t : Nat) (held : List Nat) : State :=
  held.foldl (fun s k => if s.ringOn (ringNo true t) ∧ k ≤ (s.ring (ringNo true t)).owned then s.txUnsent t 32 k else s) s

/-! ### Receive (R211) -/

/-- Bytes 16-31 of a completed receive descriptor. -/
def rxDesc (x : RxRec) (trunc : Bool) : List Byte :=
  let gap := bit x.w0 18
  toLE 8 x.w1.toNat ++ toLE 2 (if gap then 0 else fld x.w0 0 16) ++ toLE 2 (fld x.w0 32 16) ++ toLE 1 (fld x.w0 24 8) ++ toLE 1 0 ++
  toLE 2 (1 + fld x.w0 16 1 * 2 + fld x.w0 17 1 * 4 + b2n gap * 8 + fld x.w0 19 1 * 16 + b2n trunc * 32 + fld x.w0 48 1 * 64 + x.kind * 128)

/-- The data of a record as the host gets them: a poisoned copy ends with its inverted FCS. -/
def RxRec.hostData (x : RxRec) : List Byte :=
  let n := x.data.length - 4
  if bit x.w0 16 then x.data.take n ++ (x.data.drop n).map (fun b => ~~~b) else x.data

/-- RX_DESC_COMPLETE: the front record of FIFO r completes the descriptor at HEAD, whose BUF_LEN is `buf` and whose BUF_ADDR is `addr`. [DESIGN CHOICE, log entry 95] -/
def State.rxComplete (s : State) (r buf addr : Nat) : State :=
  let n := ringNo false r
  match (s.rxf r).recs with
  | [] => s
  | x :: _ =>
    if !x.committed ∨ !s.ringOn n ∨ (s.ring n).owned = 0 then s
    else if buf < 64 then s.ringStop n 4
    else
      let gap := bit x.w0 18
      let long := !gap && decide (buf < x.data.length)
      let s := if gap ∨ 16 ≤ r then s else s.stat (Reg.RXR_FRAMES r) 1
      let s := if n < 32 then s else s.memPut addr (x.hostData.take buf)
      (s.rxPop r).ringComplete n (rxDesc x long) (x.hostData.take buf)

/-- DMA_ERROR: a completion error (1), a timeout (2) or the loss of bus mastering (3) stops a ring; the `k` descriptors of a transmit
frame whose data it was complete with DMA_ERR. -/
def State.dmaError (s : State) (tx : Bool) (r err k : Nat) : State :=
  let n := ringNo tx r
  if !s.ringOn n then s
  else
    let s := if tx ∧ k ≤ (s.ring n).owned then s.txUnsent r 8 k else s
    s.ringStop n err

/-! ### The link to the host (R197, R213, R215) -/

/-- A receive FIFO is reset by a PCIe reset: what it held is discarded, and marked if it was anything. -/
def State.rxQuiet (s : State) (r : Nat) : State :=
  let f := s.rxf r
  let n := sumN (f.recs.map RxRec.packets) + f.pend
  s.setRxf r (if n = 0 then RxFifo.reset else RxFifo.reset.append (gapRec n true))

/-- What the host's rings hold is lost; port 23's rings are the cluster's. -/
def State.hostRingsOff (s : State) : State :=
  { s with hif := { s.hif with rings := Tab.keep (fun n => decide (32 ≤ n)) s.hif.rings, lastTx := Tab.keep (fun k => decide (8 ≤ k)) s.hif.lastTx } }

/-- The registers of every ring of the host return to their reset values. -/
def State.ringRegsReset (s : State) : State :=
  { s.hostRingsOff with
    regs := Tab.keep (fun k => !(decide (Reg.RXR_BASE_LO 0 ≤ k) && decide (k < Reg.RXR_FRAMES 0))) s.regs }

/-- A PCIe reset, link down or entry to D3hot (R215). The journalled subsystem IDs apply (R408). [PRESUMED, log entry 40] -/
def State.pcieReset (s : State) : State :=
  let s := (List.range 16).foldl State.rxQuiet s.ringRegsReset
  let s := { s with bsn := { s.bsn with tx := [] } }
  let s := { s with hif := { s.hif with subsys := s.mgs.ids } }
  s.raise .hif 0 Irq.HIF_PCIE_RESET

/-- The DMA port's status has changed from `was`: a link-up or link-down for the Budget Engine (R197). -/
def State.dmaStatus (s : State) (was : Bool) : State :=
  match s.ringPort with
  | none => s
  | some p => if was = s.dmaUp then s else if was then s.budLinkDown p else s.budDue p

/-- DMA_PORT_STATUS: HIF_STAT takes a new value, and `relax` is what Device Control says of Relaxed Ordering. -/
def State.hifStatus (s : State) (v : Word) (relax : Bool) : State :=
  let was := s.dmaUp
  let s := { s with hif := { s.hif with relax := relax } }
  let old := s.rd Reg.HIF_STAT
  let s := match s.ringPort with | some p => s.creditSync p | none => s
  let s := s.wr Reg.HIF_STAT (wd (fld v 0 9))
  let s := if bit old 0 ∧ !bit v 0 then s.raise .hif 0 Irq.HIF_PCIE_DOWN else s
  let s := if bit old 7 ∧ !bit v 7 then (List.range 32).foldl (fun s n => s.ringStop n 3) s else s
  let s := if (bit old 0 ∧ !bit v 0) ∨ (!bit old 8 ∧ bit v 8) then s.pcieReset else s
  s.dmaStatus was

/-- A write of HIF_CFG: while a ring is enabled its DMA_PORT is ignored and the write counted; else the port it names loses its lane
and the port it releases may train (R195, R208). [DEDUCED, log entry 39] -/
def State.hifCfgWrite (s : State) (m : Nat) (v : Word) : State :=
  let old := s.rf Reg.HIF_CFG 0 2
  if s.anyRing then (s.plainWrite m Reg.HIF_CFG (setFld v 0 2 old)).evt Reg.HIF_CFG_REJ
  else
    let from_ := s.ringPort
    let toPort := if fld v 0 2 = 1 then some 20 else if fld v 0 2 = 2 then some 21 else none
    if from_ = toPort then s.plainWrite m Reg.HIF_CFG v
    else
      let s := match from_ with | some p => s.portLost p | none => s
      let s := match toPort with | some p => s.linkDrop p false | none => s
      let s := s.plainWrite m Reg.HIF_CFG v
      let s := match from_ with | some p => s.train p | none => s
      match toPort with
      | some p => if s.dmaUp then s.budDue p else s
      | none => s

/-! ### MSI-X masks (R216) -/

/-- The pending vectors that neither their own mask nor the function's holds back are sent. -/
def State.msixFlush (s : State) : State :=
  if s.msix.funcMask then s
  else
    let due := s.msix.pba &&& ~~~s.msix.mask
    let s := { s with msix := { s.msix with pba := s.msix.pba &&& s.msix.mask } }
    (onesOf due.toNat 64).foldl State.msixSend s

/-- Word k of the MSI-X table, as it reads: address, address high, data, and Vector Control with the mask in bit 0. [PRESUMED, log entry 40] -/
def State.msixRead (s : State) (k : Nat) : Word :=
  if k % 4 = 3 then wd (b2n (bit s.msix.mask (k / 4))) else Tab.get (fun _ => (0 : Word)) s.msix.table k

/-- Word k of the MSI-X table is written. [PRESUMED, log entry 40] -/
def State.msixWrite (s : State) (k : Nat) (v : Word) : State :=
  if k % 4 = 3 then
    let b := BitVec.ofNat 64 (2 ^ (k / 4))
    { s with msix := { s.msix with mask := if bit v 0 then s.msix.mask ||| b else s.msix.mask &&& ~~~b } }
  else { s with msix := { s.msix with table := Tab.set (fun _ => (0 : Word)) s.msix.table k v } }

/-- The 32-bit words of BAR4 as they read: the MSI-X table at 0x1000, the PBA at 0x1800, 0 elsewhere, the doorbells included (R206). [PRESUMED, log entry 40] -/
def State.bar4Word (s : State) (off : Nat) : Word :=
  if 0x1000 ≤ off ∧ off < 0x1400 then s.msixRead ((off - 0x1000) / 4)
  else if off = 0x1800 then wd (s.msix.pba.toNat % 2 ^ 32)
  else if off = 0x1804 then wd (s.msix.pba.toNat / 2 ^ 32)
  else 0

/-- An aligned DWORD or QWORD. -/
def aligned (off size : Nat) : Bool := (decide (size = 4) || decide (size = 8)) && decide (off % size = 0)

/-- A host request to the MSI-X table, the PBA or the doorbells of BAR4: a write, or a read with its completion. An aligned DWORD or QWORD write of the
table takes effect as one change; the PBA is read only; a doorbell request that is no single dword is ignored and counted. [PRESUMED, log entry 40] -/
def State.bar4 (s : State) (x : Bool × Nat × Nat × BitVec 64) : State :=
  let (write, off, size, v) := x
  if off < 0x200 then
    let s := if size = 4 ∧ off % 4 = 0 then s else s.evt Reg.HIF_DB_ERR
    if !write then s.emit (.bar4 off size 0)
    else if size = 4 ∧ off % 8 = 0 then s.doorbell (if off < 0x100 then 16 + off / 8 else (off - 0x100) / 8) (v.truncate 32) true
    else s
  else if !aligned off size then s
  else if !write then
    s.emit (.bar4 off size (BitVec.ofNat 64 ((s.bar4Word off).toNat + if size = 8 then (s.bar4Word (off + 4)).toNat * 2 ^ 32 else 0)))
  else if 0x1000 ≤ off ∧ off + size ≤ 0x1400 then
    let k := (off - 0x1000) / 4
    let s := s.msixWrite k (v.truncate 32)
    (if size = 8 then s.msixWrite (k + 1) (BitVec.ofNat 32 (v.toNat / 2 ^ 32)) else s).msixFlush
  else s

/-- The host's requests to BAR4, in order, and then the function mask. [PRESUMED, log entry 40] -/
def State.msixMask (s : State) (reqs : List (Bool × Nat × Nat × BitVec 64)) (func : Bool) : State :=
  let s := reqs.foldl State.bar4 s
  { s with msix := { s.msix with funcMask := func } }.msixFlush

/-! ### Configuration space (R205, R296) -/

/-- What the function's configuration space says of the device. [PRESUMED, log entry 40] -/
structure PcieId where
  vendor : Nat
  device : Nat
  revision : Nat
  classCode : Nat
  subsys : Nat
  serial : Nat
  maxPayload : Nat
  maxRead : Nat
  width : Nat
  gen : Nat
deriving DecidableEq, Repr

/-- The identity and capabilities the configuration space shows: the Device Serial Number capability shows the DSN (R296). [PRESUMED, log entry 40] -/
def State.pcieId (s : State) : PcieId :=
  ⟨0x1D2B, 0x7420, 0xB1, 0x028000, s.hif.subsys, beAt s.vlt.dsn 0 8, 256, 512, 4, 4⟩

/-- The register-space address of offset x of a base address register (Table 7-3), none for the doorbells' and beyond its size. -/
def barAddr (bar x : Nat) : Option Nat :=
  if bar = 0 then (if x < 0x4000000 then some x else none)
  else if bar = 2 then (if x < 0x400000 then some (0x1000000 + x) else none)
  else none

end Sys2Proof.Machine
end

