-- ==== Sys2Proof/Machine/Regs.lean ====
section
/-! DEFINITION. Fences, counter snapshots, result acknowledgements and interrupt writes (R29-R31, R34, R40-R42, R51, R54-R58,
R476). -/

namespace Sys2Proof.Machine

/-! ### Fences (R40-R42) -/

/-- A master's fences. -/
def State.fence (s : State) (m : Nat) : Fences := Tab.get (fun _ => Fences.reset) s.fences m

/-- Replace a master's fences. -/
def State.setFence (s : State) (m : Nat) (f : Fences) : State := { s with fences := Tab.set (fun _ => Fences.reset) s.fences m f }

/-- The ticket after `n`: 29 bits, 0x1FFF_FFFF is followed by 1 (R40). -/
def nextTicket (n : Nat) : Nat := if n = 0x1FFFFFFF then 1 else n + 1

/-- A write of GLB_FENCE_REQ: the master's next ticket covers the pages it wrote since its previous fence (R40, R41). [DEDUCED, log entry 14] -/
def State.fenceReq (s : State) (m : Nat) : State :=
  let n := nextTicket (s.rf (bankKey m Reg.GLB_FENCE_TICKET) 0 29)
  let f := s.fence m
  let s := s.wr (bankKey m Reg.GLB_FENCE_TICKET) (wd n)
  s.setFence m ⟨f.waiting ++ [⟨n, f.touched, s.commitQ.contains m⟩], []⟩

/-- The oldest ticket of a master retires, unless a TAP COMMIT written before it is outstanding (R41). [DEDUCED, log entry 14] -/
def State.fenceRetire (s : State) (m : Nat) : State :=
  let f := s.fence m
  match f.waiting with
  | [] => s
  | t :: q =>
    if t.commit then s
    else
      let s := s.setFence m { f with waiting := q }
      let s := s.wr (bankKey m Reg.GLB_FENCE_DONE) (wd t.num)
      let s := t.pages.foldl (fun s pg => s.wr (Reg.FENCE_SEEN (pg * 0x1000)) (wd (m * 2 ^ 29 + t.num))) s
      if s.rf (bankKey m Reg.GLB_FENCE_WAIT) 0 29 = t.num then s.raise .glb 0 m else s

/-- A master's COMMIT has completed: no waiting ticket of it waits for a COMMIT any more. [DEDUCED, log entry 14] -/
def State.fenceCommitDone (s : State) (m : Nat) : State :=
  let f := s.fence m
  let done := fun (t : Ticket) => { t with commit := false }
  s.setFence m { f with waiting := f.waiting.map done }

/-- The commit at the front of the queue completes, and its master's tickets may retire. -/
def State.tapCommitFinish (s : State) : State :=
  match s.commitQ with
  | [] => s
  | m :: _ => s.tapCommitDone.fenceCommitDone m

/-! ### Snapshots (R55, R56) -/

/-- A register holds a counter of R53. [DESIGN CHOICE, log entry 86] -/
def RegDesc.counter (d : RegDesc) : Bool := decide (d.acc = .evt) || decide (d.acc = .stat)

/-- A key of the register store holds a counter of page `pg`, for whatever item. -/
def counterKey (pg k : Nat) : Bool :=
  let a := k % 0x4000000
  decide (a / 0x1000 = pg) &&
  match pageOf pg with
  | some (b, _) =>
    (match findReg b (a % 0x1000) with
     | some (d, _) => d.counter || (decide (b = .pfc) && decide (0x100 ≤ a % 0x1000) && decide (8 ≤ a % 16))
     | none => false)
  | none => false

/-- The counters of a page as they stand: those of every item (R476), FGD_RSEQ of every view and VLT_BOOT_CNT included. -/
def State.capture (s : State) (pg : Nat) : Tab Word :=
  let c := Tab.keep (counterKey pg) s.regs
  if pg = 0xD0 then Tab.set regReset c Reg.VLT_BOOT_CNT (wd s.vlt.boot)
  else if pg = 0x71 then
    s.fgd.foldl (fun (t : Tab Word) p =>
      Tab.set regReset (Tab.set regReset t (itemKey p.1 Reg.FGD_RSEQ) (wd p.2.rseq)) (itemKey p.1 (Reg.FGD_RSEQ + 4)) (wd (p.2.rseq >>> 32))) c
  else c

/-- A page's snapshot. -/
def State.snap (s : State) (pg : Nat) : Snap := Tab.get (fun _ => Snap.reset) s.snaps pg

/-- Replace a page's snapshot. -/
def State.setSnap (s : State) (pg : Nat) (v : Snap) : State := { s with snaps := Tab.set (fun _ => Snap.reset) s.snaps pg v }

/-- Capture a page now. [DEDUCED, log entry 15] -/
def State.takeSnap (s : State) (all : Bool) (pg : Nat) : State := s.setSnap pg ⟨true, all, s.capture pg, s.now⟩

/-- The pages that have counters: every page with a common header (CMD_REJ_CNT). -/
def snapPages : List Nat :=
  (List.range 0x101).filter fun pg => match pageOf pg with | some (b, _) => decide (b ≠ .srv) | none => false

/-- TAKE on one page (R55). -/
def State.snapTake (s : State) (m pg : Nat) : State :=
  s.command (snapSlot pg) m (pg * 0x1000) fun s => (s.takeSnap false pg).holdRes (snapSlot pg) (codeRes Code.ok)

/-- TAKE with ALL on the GLB page: refused while any page's snapshot is held (R56). [DEDUCED, log entry 15] -/
def State.snapTakeAll (s : State) (m : Nat) : State :=
  if snapPages.any (fun pg => !(s.slot (snapSlot pg)).idle) then s.cmdReject (pageBase .glb 0)
  else
    let t := ((s.slot (snapSlot 0)).accept m).hold (codeRes Code.ok)
    let r := s
    snapPages.foldl (fun s pg => (s.setSnap pg ⟨true, true, r.capture pg, r.now⟩).setSlot (snapSlot pg) t) s

/-- A write of CNT_SNAP. -/
def State.cntSnap (s : State) (m pg : Nat) (v : Word) : State :=
  if !bit v 0 then s else if pg = 0 ∧ bit v 1 then s.snapTakeAll m else s.snapTake m pg

/-- A snapshot completes: its slot reads VALID and SNAP_DONE sets; an ALL snapshot completes on every page at once. [DEDUCED, log entry 15] -/
def State.snapDone (s : State) (pg : Nat) : State :=
  if (s.slot (snapSlot pg)).busy then
    (if (s.snap pg).all then snapPages else [pg]).foldl
      (fun s pg => (s.publish (snapSlot pg)).raiseAt (pg * 0x1000) Irq.SNAP_DONE) s
  else s

/-! ### Acknowledgements (R51) -/

/-- A RES_ACK write to slot i: released by its OWNER with its SEQ while VALID; `k` runs on the release. A write by another master
while the slot holds a command is recorded as DENIED. -/
def State.resAck (s : State) (i m a : Nat) (v : Word) (k : State → State := id) : State :=
  let t := s.slot i
  if t.idle then s
  else if t.owner ≠ m then s.violate .denied m a true
  else if t.valid ∧ fld v 0 16 = t.seq then k (s.setSlot i t.release)
  else s

/-- A write of CNT_SNAP_ACK: a page-level write for an ALL snapshot is ignored, recorded as DENIED when a master other than OWNER makes it
(R51), and GLB's releases every page (R56). [DEDUCED, log entry 15] -/
def State.snapAck (s : State) (m pg : Nat) (v : Word) : State :=
  let a := Reg.CNT_SNAP_ACK (pg * 0x1000)
  if (s.snap pg).all then
    if pg ≠ 0 then (if (s.slot (snapSlot pg)).idle ∨ (s.slot (snapSlot pg)).owner = m then s else s.violate .denied m a true)
    else s.resAck (snapSlot 0) m a v fun s =>
      snapPages.foldl (fun s pg => (s.setSnap pg Snap.reset).setSlot (snapSlot pg) (s.slot (snapSlot pg)).release) s
  else s.resAck (snapSlot pg) m a v fun s => s.setSnap pg Snap.reset

/-- The slot a RES_ACK register releases for a master. -/
def ackSlot (m a : Nat) : Option Nat :=
  if a = Reg.TAP_RES_ACK then some (tapSlot m)
  else if a = Reg.BUD_RES_ACK then some (budSlot m)
  else if a = Reg.HAD_RES_ACK then some (hadSlot m)
  else if a = Reg.VLT_RES_ACK then some (vltSlot m)
  else if a = Reg.MGS_RES_ACK then some (mgsSlot m)
  else if a = Reg.UPD_RES_ACK then some (updSlot m)
  else if a = Reg.SVC_RES_ACK then some (svcSlot m)
  else none

/-! ### Counters and interrupts (R29, R30, R58, R476) -/

/-- The item a master's selector names for a register, if the register shows one (R476). -/
def State.selItem (s : State) (m base : Nat) (d : RegDesc) : Option Nat :=
  d.sel.map fun (off, len) => s.rf (bankKey m (base + off)) 0 len

/-- The register-store key of a master's access to a register: its own copy, its selected item, or the register itself. -/
def State.regKey (s : State) (m a : Nat) (d : RegDesc) : Nat :=
  if d.banked then bankKey m a
  else match s.selItem m (a / 0x1000 * 0x1000) d with
  | some n => itemKey n a
  | none => a

/-- A write to an event counter: CLR sets COUNT and SAT to 0, for the selected item. -/
def State.evtWrite (s : State) (m a : Nat) (d : RegDesc) (v : Word) : State :=
  if bit v 31 then s.wr (s.regKey m a d) 0 else s

/-- CLR of the event counter at an address; another register is left unchanged. -/
def State.counterClr (s : State) (m a : Nat) : State :=
  match pageOf (a / 0x1000) with
  | none => s
  | some (b, _) =>
    match findReg b (a % 0x1000) with
    | some (d, _) => if d.acc = .evt then s.evtWrite m a d 0x80000000 else s
    | none => s

/-- INT_RAW bits that stay 1 while their condition holds: a CAN channel's RXQ (R235), the compatibility page's SRV_INT (R295). [DEDUCED, log entry 46] -/
def State.levelRaise (s : State) (pg : Nat) : State :=
  match pageOf pg with
  | some (.can, c) =>
    if (Tab.get (fun _ => CanSt.reset) s.can c).rxq.isEmpty then s
    else s.wr (Reg.INT_RAW (pg * 0x1000)) (s.rd (Reg.INT_RAW (pg * 0x1000)) ||| wd (2 ^ Irq.CAN_RXQ))
  | some (.tim, _) => if s.rd Reg.SRV_INT &&& s.rd Reg.SRV_INT_EN = 0 then s else s.wf (Reg.INT_RAW (pg * 0x1000)) Irq.TIM_SRV_INT 1 1
  | _ => s

/-- A W1C write to a page's INT_RAW: the bits clear, and every MSI-X vector is evaluated again (R58); the next poison after a write of 1
to that bit is captured (R111). -/
def State.intClear (s : State) (pg : Nat) (v : Word) : State :=
  let a := Reg.INT_RAW (pg * 0x1000)
  let s := if pg = 0x20 ∧ bit v Irq.BSN_POISON then { s with bsn := { s.bsn with poisoned := false } } else s
  ((s.wr a (s.rd a &&& ~~~v)).levelRaise pg).msixEval true

/-- A write to INT_FORCE: the INT_RAW bits the page has are set (R30). [DEDUCED, log entry 8] -/
def State.intForce (s : State) (pg : Nat) (v : Word) : State :=
  match pageOf pg with
  | some (b, _) =>
    (s.wr (Reg.INT_RAW (pg * 0x1000)) (s.rd (Reg.INT_RAW (pg * 0x1000)) ||| (v &&& wd (intMask b)))).msixEval false
  | none => s

/-- A write to BLK_LOCK: writing 1 sets LOCK (R34). -/
def State.blkLock (s : State) (pg : Nat) (v : Word) : State :=
  if bit v 0 then s.wf (Reg.BLK_LOCK (pg * 0x1000)) 0 1 1 else s

/-- A W1C write to ERR_CAP0: the capture clears and is armed again (R29). -/
def State.errRearm (s : State) (pg : Nat) (v : Word) : State :=
  if bit v 31 then
    [0, 1, 2, 3].foldl (fun s k => s.wr (Reg.ERR_CAP0 (pg * 0x1000) + 4 * k) 0) s
  else s

/-- A write of a write mask: the page GLB_PERM_SEL names (R36). -/
def State.maskWrite (s : State) (v : Word) : State :=
  s.wr (itemKey (s.rf Reg.GLB_PERM_SEL 0 14) Reg.GLB_PERM_DATA) (v &&& 0x1F)

end Sys2Proof.Machine
end

