-- ==== Sys2Proof/Machine/Svc.lean ====
section
/-! DEFINITION. The Service Cluster (chapter 16): its memory, images, partitions, watchdogs and claims. -/

namespace Sys2Proof.Machine

/-! ### Images (Table 16-2) -/

/-- A service image. -/
structure SvcImg where
  hdr : List Byte
  body : List Byte
  sig : List Byte
deriving DecidableEq, Repr

/-- Read an image at an offset of a table of bytes. -/
def readImg (t : Tab Byte) (a : Nat) : SvcImg :=
  let h := bytesFrom t a 256
  let n := beAt h 40 4
  ⟨h, bytesFrom t (a + 256) n, bytesFrom t (a + 256 + n) 114⟩

def SvcImg.word (x : SvcImg) (off : Nat) : Nat := beAt x.hdr off 4
def SvcImg.cores (x : SvcImg) : Nat := beAt x.hdr 16 1 % 16
def SvcImg.base (x : SvcImg) : Nat := beAt x.hdr 24 8
def SvcImg.len (x : SvcImg) : Nat := beAt x.hdr 32 8
def SvcImg.autostart (x : SvcImg) : Bool := (beAt x.hdr 6 2).testBit 0
def SvcImg.version (x : SvcImg) : Nat := x.word 12

/-- Its page ranges: one with first > last is unused. -/
def SvcImg.pages (x : SvcImg) : List (Nat × Nat) :=
  ((List.range 8).map (fun i => (beAt x.hdr (48 + 4 * i) 2, beAt x.hdr (50 + 4 * i) 2))).filter (fun r => decide (r.1 ≤ r.2))

/-- The partition an image runs in: the lowest core of its set. -/
def SvcImg.part (x : SvcImg) : Nat := ((List.range 4).find? (fun c => x.cores.testBit c)).getD 0

/-- The bank the management firmware runs from. -/
def State.runBank (s : State) : Tab Byte := if s.mgs.bank = 0 then s.mgs.bankA else s.mgs.bankB

/-- Where the stored images begin in the bank, and how many there are. -/
def State.imgDir (s : State) : Option (Nat × Nat) :=
  let b := s.runBank
  let n := beAt (bytesFrom b 24 4) 0 4
  let d := bytesFrom b (256 + n - 16) 16
  let c := beAt d 4 4
  if 16 ≤ n ∧ beAt d 0 4 = 0x53564344 ∧ 1 ≤ c ∧ c ≤ 8 ∧ beAt d 12 4 = 0 then some (256 + beAt d 8 4, c) else none

/-- The bank offset of the k-th image from `a`: each starts on a 4-byte boundary after the one before. -/
def imgAt (b : Tab Byte) : Nat → Nat → Nat
  | 0, a => a
  | k + 1, a => imgAt b k ((a + 256 + beAt (bytesFrom b (a + 40) 4) 0 4 + 114 + 3) / 4 * 4)

/-- Stored image k. -/
def State.storedImg (s : State) (k : Nat) : Option SvcImg :=
  match s.imgDir with
  | some (a, c) => if k < c then some (readImg s.runBank (imgAt s.runBank k a)) else none
  | none => none

/-- The image staged in partition n's window. -/
def State.stagedImg (s : State) (n : Nat) : SvcImg := readImg s.svc.mem (s.part n).window

/-- The first load check that fails (Table 16-3), 0 when none does. -/
def State.loadCheck (s : State) (x : SvcImg) : Nat :=
  let others := s.svc.parts.filter (fun p => decide (p.1 ≠ x.part))
  let held := fun (p : Nat × Part) => (decide (p.2.state = 1) || decide (p.2.state = 3) || p.2.loading.isSome) && decide (p.2.cores &&& x.cores ≠ 0)
  if x.word 0 ≠ 0x53564331 ∨ beAt x.hdr 4 2 ≠ 1 ∨ beAt x.hdr 8 3 ≠ fld (s.rd Reg.GLB_CHIP_ID) 8 24 ∨ x.cores = 0 then 0x80
  else if s.svc.parts.any held then 0x81
  else if !s.memIn x.base x.len ∨ others.any (fun p => decide (p.2.state ≠ 0) && overlaps x.base x.len p.2.base p.2.len) then 0x82
  else if !s.vlt.claimed then 0x83
  else if shake x.body 64 ≠ (x.hdr.drop 80).take 64 then 0x84
  else if !Config.ed448Verify s.vlt.ownerKey (ascii "SSN-SVC-OWNER") x.hdr x.sig then 0x85
  else 0

/-- A checked image is copied into its window, the rest of which is zeroed; its cores are released when SVC_LOAD_DONE comes. `m` is
the master whose slot that completes, 8 for none. [DEDUCED, log entry 62] -/
def State.loadStart (s : State) (m : Nat) (stored : Option Nat) (x : SvcImg) : State :=
  let p := s.part x.part
  let mem := Tab.keep (fun a => !(decide (x.base ≤ a) && decide (a < x.base + x.len))) s.svc.mem
  let s := { s with svc := { s.svc with mem := putBytes mem x.base x.body } }
  s.setPart x.part { p with
    cores := x.cores, stored := stored, version := x.version, base := x.base, len := x.len, pages := x.pages, ways := beAt x.hdr 18 2,
    wdt := x.word 20, entry := x.word 44, loading := some m, serviced := [] }

/-- Log of the Service Cluster: partition and a code. -/
def State.svcLog (s : State) (i n code : Nat) : State := s.logEvt .svc 0 i 0 false (toBE 1 n ++ toBE 1 code)

/-- A load that no command asked for fails: counted, raised and logged (R441). -/
def State.loadFail (s : State) (n code : Nat) : State := ((s.evt Reg.SVC_LOAD_FAIL).raise .svc 0 Irq.SVC_LOAD_FAIL).svcLog Irq.SVC_LOAD_FAIL n code

/-- Load an image; `refused` says what a refusal does. -/
def State.loadImg (s : State) (m : Nat) (stored : Option Nat) (x : SvcImg) (refused : State → Nat → State) : State :=
  let c := s.loadCheck x
  if c = 0 then s.loadStart m stored x else refused s c

/-- SVC_LOAD_DONE: the image is copied and partition n's cores are released, their PMP entries locked: RUNNING, its watchdogs started. [DEDUCED, log entry 62] -/
def State.loadDone (s : State) (n : Nat) : State :=
  let p := s.part n
  match p.loading with
  | none => s
  | some m =>
    let s := s.pmpSet p.cores (s.pmpFor n)
    let s := s.setPart n { p with state := 1, loading := none, serviced := (onesOf p.cores 4).map (fun c => (c, s.now)) }
    if m < 5 then s.complete (svcSlot m) (dataRes Code.ok [wd p.version]) else s

/-! ### Stopping (R438, R442) -/

/-- The result slots of a claimed resource that belong to master 2. -/
def claimSlots (r : Nat) : List Nat :=
  match r with
  | 0 => [tapSlot 2] | 1 => [budSlot 2] | 2 => [vltSlot 2] | 3 => [mgsSlot 2] | 5 => [updSlot 2] | _ => []

/-- The cluster acknowledges a slot: now if VALID, at its completion if BUSY. -/
def State.slotLetGo (s : State) (i : Nat) : State :=
  let t := s.slot i
  if t.valid then s.setSlot i t.release
  else if t.busy then { s with svc := { s.svc with release := if s.svc.release.contains i then s.svc.release else s.svc.release ++ [i] } }
  else s

/-- A resource is released. -/
def State.unclaim (s : State) (r : Nat) : State :=
  (claimSlots r).foldl State.slotLetGo { s with svc := { s.svc with claims := Tab.set (fun _ => 0) s.svc.claims r 0 } }

/-- The rings of partition n are disabled. [DEDUCED, log entry 62] -/
def State.ringsStop (s : State) (n : Nat) : State :=
  (clusterRings.filter (fun k => decide (s.ringPart k = n))).foldl (fun s k => if s.ringOn k then s.wf (ringCtrl k) 0 1 0 else s) s

/-- Partition n's cores are reset, their PMP entries with them, its claims released and its rings disabled; it enters `st`. [DEDUCED, log entry 62] -/
def State.partStop (s : State) (n st : Nat) : State :=
  let s := (s.ringsStop n).pmpSet (s.part n).cores []
  let mine := (List.range 8).filter (fun r => decide (Tab.get (fun _ => 0) s.svc.claims r = n + 1))
  (mine.foldl State.unclaim s).setPart n { s.part n with state := st, loading := none, serviced := [] }

/-- The stored image of partition n is loaded again; a staged one leaves it STOPPED. -/
def State.reload (s : State) (m n : Nat) : State :=
  let done := fun (s : State) (c : Nat) => if m < 5 then s.complete (svcSlot m) (codeRes c) else s
  match (s.part n).stored with
  | none => done (s.setPart n { s.part n with state := 2 }) Code.ok
  | some k =>
    match s.storedImg k with
    | none => done (s.loadFail n 0x86) 0x86
    | some x => s.loadImg m (some k) x (fun s c => done (s.loadFail n c) c)

/-- A RUNNING partition restarts: stopped, counted, raised, logged with its cause (1 command, 2 watchdog, 3 memory error, 4 PLL_SVC), loaded
again. [DEDUCED, log entry 62] -/
def State.partRestart (s : State) (m n cause : Nat) : State :=
  (((((s.partStop n 2).evt Reg.SVC_RESTART).raise .svc 0 Irq.SVC_RESTART).svcLog Irq.SVC_RESTART n cause)).reload m n

/-- A watchdog or memory-error restart: the third within 60 s halts the partition. -/
def State.partTrip (s : State) (n cause : Nat) : State :=
  let p := s.part n
  let near := p.restarts.filter (fun t => decide (s.now < t + 60000000000))
  if 2 ≤ near.length then
    let s := (((s.partStop n 3).raise .svc 0 Irq.SVC_HALTED).svcLog Irq.SVC_HALTED n cause)
    s.setPart n { s.part n with restarts := [] }
  else (s.setPart n { p with restarts := near ++ [s.now] }).partRestart 8 n cause

/-- SVC_WDT_EXPIRE: a core watchdog of partition n expires, or its window has an uncorrectable memory error. -/
def State.svcTrip (s : State) (n : Nat) (memory : Bool) : State :=
  if (s.part n).state ≠ 1 then s
  else if memory then (s.evt Reg.SVC_MEM_UNCORR).partTrip n 3
  else if (s.part n).wdt = 0 then s
  else ((s.evt Reg.SVC_WDT_EXP).raise .svc 0 Irq.SVC_WDT_EXP).partTrip n 2

/-- SVC_WDT_SERVICE: core c writes its watchdog's address. -/
def State.wdtService (s : State) (c : Nat) : State :=
  match s.partOf c with
  | none => s
  | some (n, p) => s.setPart n { p with serviced := (c, s.now) :: p.serviced.filter (fun x => decide (x.1 ≠ c)) }

/-- PLL_SVC has locked again: every RUNNING partition restarts, not counting toward HALTED (R443). [DEDUCED, log entry 62] -/
def State.svcRelock (s : State) : State :=
  ((List.range 4).filter (fun n => decide ((s.part n).state = 1))).foldl (fun s n => s.partRestart 8 n 4) s

/-- The SVC domain goes off: every partition EMPTY, its memory lost, its claims released. [DEDUCED, log entry 62] -/
def State.svcOff (s : State) : State :=
  let s := (List.range 8).foldl (fun s r => if Tab.get (fun _ => 0) s.svc.claims r = 0 then s else s.unclaim r) s
  let s := { s with
    svc := { s.svc with parts := [], mem := [], pmp := [] }, pwr := { s.pwr with svcOn := false }, regs := Tab.keep (fun k => !clusterKey k) s.regs,
    hif := { s.hif with rings := Tab.keep (fun n => decide (n < 32)) s.hif.rings, lastTx := Tab.keep (fun k => decide (k < 8)) s.hif.lastTx } }
  s.wr Reg.SVC_DDR_STAT 0

/-- SVC_AUTOSTART: every stored image with AUTOSTART is loaded, in index order. -/
def State.autostart (s : State) : State :=
  (List.range 8).foldl (fun s k =>
    match s.storedImg k with
    | some x => if x.autostart then s.loadImg 8 (some k) x (fun s c => s.loadFail x.part c) else s
    | none => s) s

/-! ### Commands (Tables 16-3 and 16-5) -/

/-- A command of the SVC page: DENIED to master 4. -/
def State.svcCmdOn (s : State) (m : Nat) (k : State → State) : State :=
  s.command (svcSlot m) m (pageBase .svc 0) fun s => if 3 < m then s.complete (svcSlot m) (codeRes Code.denied) else k s

/-- WRITE: SVC_LEN bytes of SVC_BUF to SVC_OFFSET of an EMPTY or STOPPED partition's window. [DEDUCED, log entry 62] -/
def State.svcWrite (s : State) (m n : Nat) : State :=
  s.svcCmdOn m fun s =>
    let p := s.part n
    let len := s.rf (bankKey m Reg.SVC_LEN) 0 12
    let a := p.window + (s.rd (bankKey m Reg.SVC_OFFSET)).toNat / 4 * 4
    if len < 4 ∨ 2048 < len ∨ len % 4 ≠ 0 then s.complete (svcSlot m) (codeRes Code.badArg)
    else if (p.state ≠ 0 ∧ p.state ≠ 2) ∨ p.loading.isSome ∨ !s.memIn a len then s.complete (svcSlot m) (codeRes 0x82)
    else
      let b := s.bankBytes m (Reg.SVC_BUF 0) len
      ({ s with svc := { s.svc with mem := putBytes s.svc.mem a b } }).complete (svcSlot m) (dataRes Code.ok [wd len])

/-- LOAD: a stored image, or the one staged in partition n's window. -/
def State.svcLoad (s : State) (m n : Nat) (stored : Option Nat) : State :=
  s.svcCmdOn m fun s =>
    let refuse := fun (s : State) (c : Nat) => s.complete (svcSlot m) (codeRes c)
    match stored with
    | none => s.loadImg m none (s.stagedImg n) refuse
    | some k => match s.storedImg k with
      | none => refuse s 0x86
      | some x => s.loadImg m (some k) x refuse

/-- STOP. -/
def State.svcStop (s : State) (m n : Nat) : State :=
  s.svcCmdOn m fun s => (if (s.part n).state = 1 then s.partStop n 2 else s).complete (svcSlot m) (codeRes Code.ok)

/-- RESTART of a RUNNING or HALTED partition. -/
def State.svcRestart (s : State) (m n : Nat) : State :=
  s.svcCmdOn m fun s =>
    if (s.part n).state = 1 then s.partRestart m n 1
    else if (s.part n).state = 3 then s.setPart n { s.part n with state := 2 } |>.reload m n
    else s.complete (svcSlot m) (codeRes Code.ok)

/-- A write of SVC_CMD. -/
def State.svcCmd (s : State) (m : Nat) (v : Word) : State :=
  let n := fld v 4 2
  match fld v 0 4 with
  | 1 => s.svcWrite m n
  | 2 => s.svcLoad m n (if bit v 8 then some (fld v 12 3) else none)
  | 3 => s.svcStop m n
  | 4 => s.svcRestart m n
  | _ => s.svcCmdOn m fun s => s.complete (svcSlot m) (codeRes Code.badOp)

/-! ### Claims (R437) -/

/-- SVC_CLAIM_READ: a read of SVC_CLAIM[r] by core c grants a free resource to its partition. -/
def State.claimRead (s : State) (c r : Nat) : State :=
  let s := { s with svc := { s.svc with core := c } }
  match s.partOf c with
  | none => s
  | some (n, _) =>
    if Tab.get (fun _ => 0) s.svc.claims r = 0 then { s with svc := { s.svc with claims := Tab.set (fun _ => 0) s.svc.claims r (n + 1) } } else s

/-- SVC_CLAIM_RELEASE: core c's partition, if it owns resource r, releases it. -/
def State.claimRelease (s : State) (c r : Nat) : State :=
  let s := { s with svc := { s.svc with core := c } }
  match s.partOf c with
  | none => s
  | some (n, _) =>
    if Tab.get (fun _ => 0) s.svc.claims r = n + 1 then { s with svc := { s.svc with claims := Tab.set (fun _ => 0) s.svc.claims r 0 } } else s

/-- DDR_READY: training ends, well or not. [DEDUCED, log entry 63] -/
def State.ddrReady (s : State) (ok : Bool) : State :=
  if s.pwr.svcOn ∧ s.rb Reg.SVC_DDR_CFG 0 then s.wr Reg.SVC_DDR_STAT (if ok then 1 else 2) else s

/-- A write of SVC_DDR_CFG is ignored while DDR_READY. [DEDUCED, log entry 63] -/
def State.ddrCfgWrite (s : State) (m : Nat) (v : Word) : State :=
  if s.rb Reg.SVC_DDR_STAT 0 then s else s.plainWrite m Reg.SVC_DDR_CFG v

end Sys2Proof.Machine
end

