-- ==== Sys2Proof/Machine/Cfl.lean ====
section
/-! DEFINITION. Confluence (R249-R271): signals and PDUs. -/

namespace Sys2Proof.Machine

/-- Add `n` counts to an event counter. [DEDUCED, log entry 81] -/
def State.evtN (s : State) (a n : Nat) : State :=
  let w := s.rd a
  if n = 0 then s
  else if fld w 0 16 + n ≤ 0xFFFF then s.wr a (setFld w 0 16 (fld w 0 16 + n))
  else s.wr a (setFld (setFld w 0 16 0xFFFF) 16 1 1)

/-- A Confluence event: captured, raised and, for the kinds of R271, logged at most once per kind per 1 s. [DEDUCED, log entry 81] -/
def State.cflEvent (s : State) (kind index : Nat) (isSignal : Bool) : State :=
  let s := (s.wr Reg.CFL_EVT_CAP (wd (index % 0x8000 + b2n isSignal * 0x8000 + kind * 0x10000))).raise .cfl 0 kind
  if [0, 4, 5, 6].contains kind then s.logEvt .cfl 0 kind 1000000000 false (toBE 2 index ++ toBE 1 (b2n isSignal)) else s

/-- A configuration error met at a signal or PDU. -/
def State.cflCfgErr (s : State) (index : Nat) (isSignal : Bool) : State := (s.evt Reg.CFL_CFG_ERR).cflEvent Irq.CFL_CFG_ERR index isSignal

/-! ### Signals (R251-R254) -/

def sigSource (e : BitVec 512) : Bool := bit e 0 && !bit e 1
def sigPlace (e : BitVec 512) : Bool := bit e 0 && bit e 1
def sigStart (e : BitVec 512) : Nat := fld e 2 14
def sigLen (e : BitVec 512) : Nat := fld e 16 5 + 1
def sigBig (e : BitVec 512) : Bool := bit e 21
def sigSigned (e : BitVec 512) : Bool := bit e 22

/-- The walk of R252: the payload bit position of each bit of a field, as (bit of the value, position). -/
def bitWalkBE : Nat → Nat → List (Nat × Nat)
  | 0, _ => []
  | n + 1, p => (n, p) :: bitWalkBE n (if p % 8 = 0 then p + 15 else p - 1)
def bitWalk (start len : Nat) (big : Bool) : List (Nat × Nat) :=
  if big then bitWalkBE len start else (List.range len).map (fun i => (i, start + i))

/-- Bit b of a payload; 0 beyond its end. -/
def payBit (b : List Byte) (p : Nat) : Nat := fldN (b.getD (p / 8) 0).toNat (p % 8) 1

/-- field(payload, START, LEN, ORDER). -/
def payField (b : List Byte) (start len : Nat) (big : Bool) : Nat := sumN ((bitWalk start len big).map (fun (i, p) => payBit b p * 2 ^ i))

/-- Write bit p of a payload. -/
def paySet (b : List Byte) (p v : Nat) : List Byte :=
  match b[p / 8]? with
  | none => b
  | some x => b.set (p / 8) (setFld x (p % 8) 1 v)

/-- Write a field by the same walk. -/
def payPut (b : List Byte) (start len : Nat) (big : Bool) (v : Nat) : List Byte :=
  (bitWalk start len big).foldl (fun b (i, p) => paySet b p (fldN v i 1)) b

/-- A 32-bit value as the SOURCE reads it. -/
def sigValue (e : BitVec 512) (v : Nat) : Int := if sigSigned e then sext 32 v else (v : Int)

/-- The current value of SOURCE i. -/
def State.src (s : State) (i : Nat) : SrcVal := Tab.get (fun _ => SrcVal.reset) s.cfl.src i

/-- Replace it. -/
def State.setSrc (s : State) (i : Nat) (v : SrcVal) : State :=
  { s with cfl := { s.cfl with src := Tab.set (fun _ => SrcVal.reset) s.cfl.src i v } }

/-- The stored value of SOURCE i, whose entry is e: SUBST while NEVER. -/
def State.srcStored (s : State) (i : Nat) (e : BitVec 512) : Nat := if (s.src i).never then fld e 96 32 else (s.src i).value

/-- One extraction: SOURCE i reads its field (R253). -/
def State.srcTake (s : State) (i : Nat) (e : BitVec 512) (pay : List Byte) : State :=
  let raw := payField pay (sigStart e) (sigLen e) (sigBig e)
  let r : Int := if sigSigned e then sext (sigLen e) raw else (raw : Int)
  let lo := sigValue e (fld e 32 32)
  let hi := sigValue e (fld e 64 32)
  let act := fld e 23 2
  let bad := decide (act ≠ 0) && (decide (r < lo) || decide (hi < r))
  let old := s.src i
  let v : Nat :=
    if !bad then unsext 32 r
    else if act = 1 then s.srcStored i e
    else if act = 2 then unsext 32 (if r < lo then lo else hi)
    else fld e 96 32
  let subst := bad && (decide (act = 3) || (decide (act = 1) && old.subst))
  let s := (s.setSrc i ⟨v, false, false, subst, bad, s.now⟩).sleepSignal i v
  if bad then (s.evt Reg.CFL_RANGE).cflEvent Irq.CFL_RANGE i true else s

/-- Work operations of Confluence: CFL_OPS and the performance event of that name. -/
def State.cflOps (s : State) (n : Nat) : State := (s.stat Reg.CFL_OPS n).perf 0x33 n

/-- A signal list from FIRST, COUNT entries. -/
def pduList (e : BitVec 512) : List Nat := (List.range (fld e 48 11)).map (fun k => fld e 32 15 + k)

/-- Every SOURCE of a PDU takes its field. -/
def State.srcTakeAll (s : State) (e : BitVec 512) (pay : List Byte) : State :=
  (pduList e).foldl (fun s i =>
    let g := s.tent 3 i
    if sigSource g then (s.cflOps 1).srcTake i g pay else s.cflCfgErr i true) s

/-- The output of PLACE g before saturation, none when its SRC is not a VALID SOURCE (R254). -/
def State.placeOut (s : State) (g : BitVec 512) : Option Int :=
  let j := fld g 32 15
  let e := s.tent 3 j
  if sigSource e then some ((sigValue e (s.srcStored j e) * sext 32 (fld g 64 32)) / ((2 ^ fld g 24 5 : Nat) : Int) + sext 32 (fld g 96 32))
  else none

/-- The range a PLACE's field holds. -/
def placeLo (g : BitVec 512) : Int := if sigSigned g then -((2 ^ (sigLen g - 1) : Nat) : Int) else 0
def placeHi (g : BitVec 512) : Int := if sigSigned g then ((2 ^ (sigLen g - 1) : Nat) : Int) - 1 else ((2 ^ sigLen g : Nat) : Int) - 1

/-! ### PDUs (R255, R256, R260-R262) -/

def State.pduEnt (s : State) (i : Nat) : BitVec 512 := s.tent 4 i
def pduValid (e : BitVec 512) : Bool := bit e 0
def pduType (e : BitVec 512) : Nat := fld e 1 3
def pduLen (e : BitVec 512) : Nat := fld e 80 12
def pduMode (e : BitVec 512) : Nat := if fld e 96 2 = 3 then 0 else fld e 96 2
def pduGap (e : BitVec 512) : Nat := fld e 104 8 * 100000
def isTxSig (e : BitVec 512) : Bool := pduValid e && decide (pduType e = 2)
def isRxSig (e : BitVec 512) : Bool := pduValid e && decide (pduType e = 1)

/-- An outgoing PDU's state. -/
def State.txp (s : State) (i : Nat) : TxPdu := Tab.get (fun _ => TxPdu.reset) s.cfl.tx i

/-- Replace it. -/
def State.setTxp (s : State) (i : Nat) (v : TxPdu) : State :=
  { s with cfl := { s.cfl with tx := Tab.set (fun _ => TxPdu.reset) s.cfl.tx i v } }

/-- One PLACE of a payload being built: the payload, the values written so far, and the counts it causes; one whose SRC is not a VALID
SOURCE contributes FILL bits (R254, R255). -/
def State.placeOne (fill : Byte) (a : (List Byte × List (Nat × Int)) × State) (i : Nat) : (List Byte × List (Nat × Int)) × State :=
  let ((b, l), s) := a
  let g := s.tent 3 i
  if !sigPlace g then ((b, l), s.cflCfgErr i true)
  else
    let s := s.cflOps 1
    match s.placeOut g with
    | none =>
      let w := payField (List.replicate b.length fill) (sigStart g) (sigLen g) (sigBig g)
      ((payPut b (sigStart g) (sigLen g) (sigBig g) w, l), s.cflCfgErr i true)
    | some v =>
      let c := clampI (placeLo g) (placeHi g) v
      let s := if c = v then s else (s.evt Reg.CFL_SAT).cflEvent Irq.CFL_SAT i true
      ((payPut b (sigStart g) (sigLen g) (sigBig g) (unsext (sigLen g) c), l ++ [(i, c)]), s)

/-- Build the payload of TX_SIG entry j: FILL, the PLACEs in index order, the alive counter. -/
def State.pduBuild (s : State) (j : Nat) (e : BitVec 512) : (List Byte × List (Nat × Int)) × State :=
  let ((b, l), s) := (pduList e).foldl (State.placeOne (BitVec.ofNat 8 (fld e 144 8)))
    ((List.replicate (pduLen e) (BitVec.ofNat 8 (fld e 144 8)), []), s)
  let n := fld e 153 4
  ((if bit e 152 then payPut b (fld e 160 14) n false ((s.txp j).alive % 2 ^ n) else b, l), s)

/-- An on-change PDU is triggered by the values `l` that its PLACEs yield, or by a PLACE with no value last sent (R260). [DEDUCED, log entry 48] -/
def State.triggered (s : State) (j : Nat) (l : List (Nat × Int)) : Bool :=
  (s.txp j).sentAt.isNone ||
  (pduList (s.pduEnt j)).any (fun i =>
    let g := s.tent 3 i
    let of := fun (l : List (Nat × Int)) => (l.find? (fun q => decide (q.1 = i))).map (fun q => q.2)
    sigPlace g && bit g 23 &&
    (match of (s.txp j).lastSent, of l with
     | none, _ => true
     | some w, some v => decide (v ≠ w) && decide ((fld g 48 16 : Int) ≤ absI (v - w))
     | some _, none => false))

/-- The frame of TX_SIG entry e with payload b (R265, R266). -/
def State.pduFrame (s : State) (e : BitVec 512) (b : List Byte) : CflOut :=
  if bit e 176 then
    let fmt := fld e 232 2
    let id := if fmt = 2 then fld e 192 11 + fld e 248 8 * 0x10000 else if fmt = 3 then fld e 192 6
      else if bit e 234 then fld e 192 29 else fld e 192 11
    let form := b.length + (if fmt < 2 then dlcOf b.length * 0x1000 else 0) + fmt * 0x10000 + (if fmt ≠ 2 then b2n (bit e 234) * 0x40000 else 0) +
      (if fmt = 1 then b2n (bit e 235) * 0x100000 else 0) +
      (if fmt = 2 then b2n (bit e 236) * 0x400000 + fld e 240 8 * 0x1000000 else 0)
    ⟨true, fld e 224 6, busMk 0 (wd id) (if fmt = 2 then wd (fld e 256 32) else 0) (wd form) b⟩
  else
    let mac := fld e 192 32 + fld e 224 16 * 2 ^ 32
    let tag := if bit e 255 then toBE 2 0x8100 ++ toBE 2 (fld e 252 3 * 0x2000 + fld e 240 12) else []
    ⟨false, 0, toBE 6 mac ++ toBE 6 s.devMac ++ tag ++ toBE 2 (fld e 256 16) ++ b⟩

/-- Transmit TX_SIG entry j with the payload built: the frame joins the item's outputs; a secondary of a twin suppresses it (R255,
R349, R362). -/
def State.pduOut (s : State) (j : Nat) (b : List Byte) (l : List (Nat × Int)) (cause : Int) : List CflOut × State :=
  let e := s.pduEnt j
  let x := s.txp j
  let keep := x.lastSent.filter (fun q => !(l.any (fun r => decide (r.1 = q.1))))
  let s := s.setTxp j { x with alive := (x.alive + 1) % 256, sentAt := some s.now, lastSent := keep ++ l, deferred := none, lastPay := b }
  let s := s.twinItem cause (toBE 2 j ++ b)
  if s.secondary then ([], s.stat Reg.TWN_SUPPRESSED 1) else ([s.pduFrame e b], s.stat Reg.CFL_TX_PDU 1)

/-- The transmissions of TX_SIG entry j are stopped while the network goes to sleep (R395 step 2). -/
def State.pduStopped (s : State) (j : Nat) : Bool :=
  let e := s.pduEnt j
  bit e 176 && s.txStopped (fld e 224 6 - 26)

/-- Transmit TX_SIG entry j, unless its transmissions are stopped. -/
def State.pduEmit (s : State) (j : Nat) (b : List Byte) (l : List (Nat × Int)) (cause : Int) : List CflOut × State :=
  if s.pduStopped j then ([], s) else s.pduOut j b l cause

/-- Build and transmit TX_SIG entry j. [DEDUCED, log entry 48] -/
def State.pduSend (s : State) (j : Nat) (cause : Int) : List CflOut × State :=
  if s.pduStopped j then ([], s)
  else
    let ((b, l), s) := s.pduBuild j (s.pduEnt j)
    s.pduOut j b l cause

/-- One on-change evaluation of TX_SIG entry j (R260, R262). -/
def State.pduEval (s : State) (j : Nat) (cause : Int) : List CflOut × State :=
  let e := s.pduEnt j
  if !isTxSig e then ([], s.cflCfgErr j false)
  else if pduMode e = 0 then ([], s)
  else
    let ((b, l), s) := s.pduBuild j e
    if !s.triggered j l then ([], s)
    else
      let x := s.txp j
      match x.sentAt with
      | some t =>
        if s.now < t + pduGap e then
          ([], s.setTxp j { x with deferred := match x.deferred with | some d => some d | none => some (t + pduGap e, cause) })
        else s.pduEmit j b l cause
      | none => s.pduEmit j b l cause

/-- The dependents of an RX_SIG PDU are evaluated in order. -/
def State.pduDeps (s : State) (e : BitVec 512) (cause : Int) : List CflOut × State :=
  (onesOf (fld e 112 8) 8).foldl (fun (a : List CflOut × State) k =>
    let (o, s) := a.2.pduEval (fld e (128 + 32 * (k / 2) + 16 * (k % 2)) 13) cause
    (a.1 ++ o, s)) ([], s)

/-! ### Received PDUs (R257-R259) -/

/-- The timeout of RX_SIG PDU i. -/
def State.rxp (s : State) (i : Nat) : RxPdu := Tab.get (fun _ => ⟨none, false, false⟩) s.cfl.rx i

/-- Replace it. -/
def State.setRxp (s : State) (i : Nat) (v : RxPdu) : State :=
  { s with cfl := { s.cfl with rx := Tab.set (fun _ => ⟨none, false, false⟩) s.cfl.rx i v } }

/-- RX_SIG PDU i takes a payload: its SOURCEs, its timeout, its dependents. -/
def State.pduConsume (s : State) (i : Nat) (e : BitVec 512) (pay : List Byte) (cause : Int) : List CflOut × State :=
  if pay.length < pduLen e then ([], s.evt Reg.CFL_SHORT)
  else
    let s := (s.stat Reg.CFL_RX_PDU 1).srcTakeAll e pay
    let s := if (s.rxp i).out then s.cflEvent Irq.CFL_RECOVERED i false else s
    (s.setRxp i ⟨some (s.now : Int), false, false⟩).pduDeps e cause

/-- A SOURCE of a PDU whose timeout fires. -/
def State.srcTimeout (s : State) (i : Nat) : State :=
  let g := s.tent 3 i
  if !sigSource g then s
  else
    let x := s.src i
    s.setSrc i (if bit g 25 then { x with timedOut := true, value := fld g 96 32, subst := true } else { x with timedOut := true })

/-- An instant at or after t at which an FRC millisecond begins. [DEDUCED, log entry 48] -/
def msUp (t : Int) : Int := (t + 999999) / 1000000 * 1000000

/-- The instant from which the timeout of RX_SIG PDU i runs. -/
def State.rxFrom (s : State) (i : Nat) : Int :=
  match (s.rxp i).since with
  | some t => t
  | none => (s.cfl.enabledAt : Int)

/-- The FRC millisecond in which the timeout of RX_SIG PDU i fires (R258); one that would fire within the grace of a takeover fires at its
end (R259). [DEDUCED, log entry 48] -/
def State.rxDueAt (s : State) (i : Nat) : Int :=
  let d := msUp (s.rxFrom i + ((fld (s.pduEnt i) 16 16 * 1000000 : Nat) : Int))
  match s.cfl.takeover with
  | some t =>
    let g := ((t + s.rf Reg.CFL_CFG 16 8 * 1000000 : Nat) : Int)
    if (t : Int) ≤ d ∧ d < g then msUp g else d
  | none => d

/-- The timeout of RX_SIG PDU i is due and has not fired. -/
def State.rxPending (s : State) (i : Nat) : Bool :=
  isRxSig (s.pduEnt i) && decide (fld (s.pduEnt i) 16 16 ≠ 0) && !(s.rxp i).fired && decide (s.rxDueAt i ≤ (s.now : Int))

/-- Confluence can start a work item: enabled, none in progress, not held by a join of the twin (R263, R364). -/
def State.cflFree (s : State) : Bool := s.enabled .cfl 0 && s.pwr.fwdOn && s.cfl.item.isNone && !s.twn.holdCfl

/-- A work item of PDU i starts: its outputs are presented when it completes. [DEDUCED, log entry 48] -/
def State.cflStart (s : State) (i : Nat) (x : List CflOut × State) : State :=
  let t := x.2
  if s.cfl.item.isNone then { t with cfl := { t.cfl with item := some (i, x.1) } } else s

/-! ### Order of service (R263) -/

/-- A received copy waits that port 24's scheduler can give Confluence now, or is being transferred: it is served first. -/
def State.copiesWait (s : State) : Bool := (s.eg 24).tx.isSome || (List.range 8).any (s.eligible 24 (s.heads 24))

/-- The instants at which the timeouts and deferred transmissions that wait arose. -/
def State.arisen (s : State) : List Int :=
  ((s.tentries 4).filter (fun p => s.rxPending p.1)).map (fun p => s.rxDueAt p.1) ++
  (s.cfl.tx.filterMap (fun p => p.2.deferred.map (fun d => (d.1 : Int)))).filter (fun t => decide (t ≤ (s.now : Int)))

/-- Confluence may serve what arose at an instant: no copy waits, and nothing that arose earlier. [DEDUCED, log entry 48] -/
def State.mayServeAt (s : State) (t : Int) : Bool := s.cflFree && !s.copiesWait && s.arisen.all (fun u => decide (t ≤ u))

/-- CFL_TIMEOUT: the timeout of RX_SIG PDU i fires. [DEDUCED, log entry 48] -/
def State.cflTimeout (s : State) (i : Nat) : State :=
  let e := s.pduEnt i
  if !s.rxPending i ∨ !s.mayServeAt (s.rxDueAt i) then s
  else
    let t := (s.setRxp i { s.rxp i with fired := true, out := true }).evt Reg.CFL_TIMEOUT
    let t := (pduList e).foldl State.srcTimeout (t.cflEvent Irq.CFL_PDU_TIMEOUT i false)
    s.cflStart i (t.pduDeps e t.twinNow)

/-- CFL_DEFERRED_TX: the deferred transmission of TX_SIG entry j. -/
def State.cflDeferred (s : State) (j : Nat) : State :=
  match (s.txp j).deferred with
  | none => s
  | some (t, cause) =>
    if s.now < t ∨ !s.mayServeAt (t : Int) then s
    else if isTxSig (s.pduEnt j) then s.cflStart j (s.pduSend j cause)
    else s.setTxp j { s.txp j with deferred := none }

/-- The time by which cyclic instants count: twin time in a twin, FRC time otherwise (R261, R359). -/
def State.cflTime (s : State) (ns : Nat) : Int := if s.twn.state = 0 then (ns : Int) else s.twinAt ns

/-- The latest cyclic instant of TX_SIG entry j, in ms, and the unserved ones before it; none while it has been served (R261). [DEDUCED, log entry 48] -/
def State.cycDue (s : State) (j : Nat) : Option (Nat × Nat) :=
  let e := s.pduEnt j
  let per := fld e 112 16
  let ms := windowOf (s.cflTime s.now)
  if !isTxSig e ∨ pduMode e = 1 ∨ per = 0 ∨ ms < fld e 128 16 % per then none
  else
    let m := ms - (ms + per - fld e 128 16 % per) % per
    let from_ := max (s.txp j).cycle
      (max (windowOf (s.cflTime s.cfl.enabledAt)) (windowOf (s.cflTime (Tab.get (fun _ => 0) s.cfl.pduWritten j))))
    if m < from_ then none else some (m, (m - from_) / per)

/-- A cyclic entry below j is due, which is served before it (R263). [DEDUCED, log entry 48] -/
def State.cycBefore (s : State) (j : Nat) : Bool := (s.tentries 4).any (fun p => decide (p.1 < j) && (s.cycDue p.1).isSome)

/-- CFL_CYCLIC_TX: the cyclic instants of TX_SIG entry j not served yet, with one transmission. It counts as late if it is more than 1 ms
after the first of them, and every later one counts too (R263). -/
def State.cflCyclic (s : State) (j : Nat) : State :=
  match s.cycDue j with
  | none => s
  | some (m, missed) =>
    if !s.cflFree ∨ s.copiesWait ∨ !s.arisen.isEmpty ∨ s.cycBefore j then s
    else
      let first := m - missed * fld (s.pduEnt j) 112 16
      let late := missed + b2n (decide ((first : Int) * 1000000 + 1000000 < s.cflTime s.now))
      let t := s.setTxp j { s.txp j with cycle := m + 1 }
      let t := if late = 0 then t else (t.evtN Reg.CFL_LATE late).cflEvent Irq.CFL_LATE j false
      s.cflStart j (t.pduSend j ((m : Int) * 1000000))

end Sys2Proof.Machine
end

