-- ==== Sys2Proof/Machine/CflTun.lean ====
section
/-! DEFINITION. Confluence's tunnels (R267-R269), the taking of a copy from port 24, and the completion of a work item (R249, R250,
R263, R266). -/

namespace Sys2Proof.Machine

/-! ### Gathering (R267, R268) -/

/-- A TUN_TX entry's state. -/
def State.tun (s : State) (j : Nat) : TunTx := Tab.get (fun _ => TunTx.reset) s.cfl.tun j

/-- Replace it. -/
def State.setTun (s : State) (j : Nat) (v : TunTx) : State :=
  { s with cfl := { s.cfl with tun := Tab.set (fun _ => TunTx.reset) s.cfl.tun j v } }

/-- ACF bytes an NTSCF frame can hold. -/
def State.acfLimit (s : State) : Nat := min 2044 (s.maxLen - 34)

/-- Zero bytes to a whole quadlet. [PRESUMED, log entry 49] -/
def quadPad (n : Nat) : Nat := (4 - n % 4) % 4

/-- The NTSCF frame of TUN_TX entry e with sequence number `seq` around ACF bytes. [PRESUMED, log entry 49] -/
def State.ntscf (s : State) (e : BitVec 512) (seq : Nat) (acf : List Byte) : CflOut :=
  let mac := fld e 192 32 + fld e 224 16 * 2 ^ 32
  let tag := if bit e 255 then toBE 2 0x8100 ++ toBE 2 (fld e 252 3 * 0x2000 + fld e 240 12) else []
  ⟨false, 0, toBE 6 mac ++ toBE 6 s.devMac ++ tag ++ toBE 2 0x22F0 ++ toBE 1 0x82 ++ toBE 2 (0x8000 + acf.length) ++ toBE 1 seq ++
    toBE 4 (fld e 288 32) ++ toBE 4 (fld e 320 32) ++ acf⟩

/-- An NTSCF frame of entry j goes out. -/
def State.tunEmit (s : State) (j : Nat) (acf : List Byte) : List CflOut × State :=
  let x := s.tun j
  ([s.ntscf (s.pduEnt j) x.seq acf], s.setTun j { x with seq := (x.seq + 1) % 256 })

/-- The open NTSCF frame of entry j, if there is one, is sent. -/
def State.tunFlush (s : State) (j : Nat) : List CflOut × State :=
  let x := s.tun j
  if x.msgs.isEmpty then ([], s) else (s.setTun j { x with msgs := [] }).tunEmit j x.msgs.flatten

/-- The time of domain CFL_CFG.DOMAIN at a frame's start. -/
def State.tunStamp (s : State) (ts : Nat) : Nat := unsext 64 (s.domTimeAt (s.rf Reg.CFL_CFG 0 2) (ts * 65536) / 65536)

/-- The ACF CAN or CAN Brief message of a CC or FD frame from channel c (IEEE 1722-2016). [PRESUMED, log entry 49] -/
def State.acfCan (s : State) (brief : Bool) (c ts : Nat) (b : List Byte) : List Byte :=
  let d := busData b
  let pad := quadPad d.length
  let quads := (if brief then 8 else 16) / 4 + (d.length + pad) / 4
  let typ := if brief then 2 else 1
  let f := busWord b 3
  let flags := pad * 64 + b2n (!brief) * 32 + b2n (busRtr b) * 16 + b2n (busIde b) * 8 + b2n (bit f 20) * 4 + b2n (decide (busFmt b = 1)) * 2 +
    b2n (bit f 21)
  toBE 2 (typ * 512 + quads) ++ toBE 1 flags ++ toBE 1 c ++ (if brief then [] else toBE 8 (s.tunStamp ts)) ++ toBE 4 (busId b) ++ d ++
  List.replicate pad 0

/-- The XL tunnel message of the data from `off`, `n` bytes, of a frame from channel c (Table 9-4). [PRESUMED, log entry 49] -/
def State.acfXl (s : State) (frag c ts : Nat) (b : List Byte) (off n : Nat) : List Byte :=
  let d := ((busData b).drop off).take n
  let pad := quadPad d.length
  toBE 2 (s.rf Reg.CFL_CFG 8 7 * 512 + 6 + (d.length + pad) / 4) ++ toBE 1 (frag * 64 + fld (busWord b 3) 22 1 * 32 + c) ++
  toBE 1 (fld (busWord b 3) 24 8) ++ toBE 8 (s.tunStamp ts) ++ toBE 2 (busId b % 2048) ++ toBE 1 (fld (busWord b 1) 16 8) ++ toBE 1 0 ++
  toBE 4 (busAf b) ++ toBE 2 (busData b).length ++ toBE 2 off ++ d ++ List.replicate pad 0

/-- The fragments of an XL frame, each in its own NTSCF frame, `per` data bytes in each but the last. -/
def State.xlFrags (s : State) (j c ts per : Nat) (b : List Byte) : Nat → Nat → List CflOut × State
  | 0, _ => ([], s)
  | k + 1, off =>
    let left := (busData b).length - off
    let last := decide (left ≤ per)
    let frag := if off = 0 then 1 else if last then 3 else 2
    let (o, s) := (s.stat Reg.CFL_TUN_MSG_TX 1).tunEmit j (s.acfXl frag c ts b off (if last then left else per))
    if last then (o, s)
    else
      let (o2, s) := s.xlFrags j c ts per b k (off + per)
      (o ++ o2, s)

/-- A bus frame is gathered into TUN_TX entry j. -/
def State.tunTake (s : State) (j : Nat) (f : Frame) : List CflOut × State :=
  let e := s.pduEnt j
  if !pduValid e ∨ pduType e ≠ 3 ∨ !f.bus ∨ busFmt f.bytes = 3 ∨ f.ingress < 26 ∨ 50 ≤ f.ingress then ([], s.cflCfgErr j false)
  else
    let s := s.cflOps 4
    let c := f.ingress - 26
    let msg := if busFmt f.bytes = 2 then s.acfXl 0 c f.ts f.bytes 0 (busData f.bytes).length else s.acfCan (bit e 368) c f.ts f.bytes
    if busFmt f.bytes = 2 ∧ s.acfLimit < msg.length then
      let (o, s) := s.tunFlush j
      let (o2, s) := s.xlFrags j c f.ts (max 4 ((s.acfLimit - 24) / 4 * 4)) f.bytes 600 0
      (o ++ o2, s)
    else
      let held := ((s.tun j).msgs.map List.length).foldl (· + ·) 0
      let (o, s) := if s.acfLimit < held + msg.length then s.tunFlush j else ([], s)
      let x := s.tun j
      let s := s.stat Reg.CFL_TUN_MSG_TX 1
      let s := s.setTun j { x with msgs := x.msgs ++ [msg], openAt := if x.msgs.isEmpty then s.now else x.openAt }
      if fld e 352 5 ≤ x.msgs.length + 1 ∨ fld e 360 8 = 0 then
        let (o2, s) := s.tunFlush j
        (o ++ o2, s)
      else (o, s)

/-! ### Restoring (R269) -/

/-- A TUN_RX entry's state. -/
def State.untun (s : State) (j : Nat) : TunRx := Tab.get (fun _ => TunRx.reset) s.cfl.untun j

/-- Replace it. -/
def State.setUntun (s : State) (j : Nat) (v : TunRx) : State :=
  { s with cfl := { s.cfl with untun := Tab.set (fun _ => TunRx.reset) s.cfl.untun j v } }

/-- The channel that MAP[b] of entry e names. -/
def tunMap (e : BitVec 512) (b : Nat) : Option Nat := if bit e (128 + 8 * b + 7) then some (fld e (128 + 8 * b) 6) else none

/-- A restored frame. -/
def restored (target : Nat) (b : List Byte) : CflOut := ⟨true, target, b⟩

/-- An ACF CAN (`brief`: CAN Brief) message restored; none when its lengths do not fit. [PRESUMED, log entry 49] -/
def restoreCan (brief : Bool) (target : Nat) (m : List Byte) : Option CflOut :=
  let h := if brief then 8 else 16
  let fl := beAt m 2 1
  let pad := fl / 64
  let n := m.length - h - pad
  let fd := fl.testBit 1
  if m.length < h + pad ∨ (if fd then 64 else 8) < n then none
  else
    let ide := fl.testBit 3
    let form := n + dlcOf n * 0x1000 + b2n fd * 0x10000 + b2n ide * 0x40000 + b2n (fl.testBit 4) * 0x80000 + b2n (fd && fl.testBit 2) * 0x100000
    some (restored target (busMk 0 (wd (beAt m (h - 4) 4 % 2 ^ 29)) 0 (wd form) ((m.drop h).take n)))

/-- The bus frame of an XL message's header with its data. -/
def restoreXl (target : Nat) (m : List Byte) (d : List Byte) : CflOut :=
  restored target (busMk 0 (wd (beAt m 12 2 % 2048 + beAt m 14 1 * 0x10000)) (wd (beAt m 16 4))
    (wd (d.length + 2 * 0x10000 + fldN (beAt m 2 1) 5 1 * 0x400000 + beAt m 3 1 * 0x1000000)) d)

/-- A partial frame of entry j is discarded with the fragment that does not continue it. -/
def State.fragErr (s : State) (j bus : Nat) : State :=
  let x := s.untun j
  ((s.setUntun j { x with parts := x.parts.filter (fun q => decide (q.busId ≠ bus)) }).evt Reg.CFL_TUN_FRAG_ERR).cflEvent Irq.CFL_TUN_ERR j false

/-- One XL tunnel message of entry j in the frame with sequence number `seq`. -/
def State.xlTake (s : State) (j target seq : Nat) (m : List Byte) : List CflOut × State :=
  let bus := beAt m 2 1 % 32
  let frag := beAt m 2 1 / 64
  let dlen := beAt m 20 2 % 4096
  let off := beAt m 22 2
  let d := m.drop 24
  let x := s.untun j
  let rest := x.parts.filter (fun q => decide (q.busId ≠ bus))
  if frag = 0 then (if dlen ≤ d.length then ([restoreXl target m (d.take dlen)], s) else ([], s.evt Reg.CFL_TUN_BAD))
  else if frag = 1 then
    if off = 0 then ([], s.setUntun j { x with parts := rest ++ [⟨bus, m.take 24, d, seq⟩] }) else ([], s.fragErr j bus)
  else
    match x.parts.find? (fun q => decide (q.busId = bus)) with
    | none => ([], s.fragErr j bus)
    | some q =>
      let d := if frag = 3 then d.take (dlen - off) else d
      if off ≠ q.data.length ∨ seq ≠ (q.seq + 1) % 256 ∨ (frag = 3 ∧ q.data.length + d.length ≠ dlen) then ([], s.fragErr j bus)
      else if frag = 2 then ([], s.setUntun j { x with parts := rest ++ [{ q with data := q.data ++ d, seq := seq }] })
      else ([restoreXl target q.head (q.data ++ d)], s.setUntun j { x with parts := rest })

/-- The ACF messages of a frame, in order. -/
def State.acfAll (s : State) (j : Nat) (e : BitVec 512) (seq : Nat) : Nat → List Byte → List CflOut × State
  | 0, _ => ([], s)
  | k + 1, b =>
    let n := 4 * (beAt b 0 2 % 512)
    if n < 8 ∨ b.length < n then ([], s)
    else
      let m := b.take n
      let typ := beAt b 0 2 / 512
      let isCan := decide (typ = 1) || decide (typ = 2)
      let xl := decide (typ = s.rf Reg.CFL_CFG 8 7) && decide (24 ≤ n)
      let (o, s) :=
        if !isCan && !xl then ([], s)
        else
          match tunMap e (if isCan then beAt m 3 1 % 32 else beAt m 2 1 % 32) with
          | none => ([], s.evt Reg.CFL_TUN_MAP)
          | some t =>
            let s := (s.cflOps 4).stat Reg.CFL_TUN_MSG_RX 1
            if isCan then
              match restoreCan (decide (typ = 2)) t m with
              | some o => ([o], s)
              | none => ([], s.evt Reg.CFL_TUN_BAD)
            else s.xlTake j t seq m
      let (o2, s) := s.acfAll j e seq k (b.drop n)
      (o ++ o2, s)

/-- TUN_RX entry j takes an NTSCF frame. [PRESUMED, log entry 49] -/
def State.untunTake (s : State) (j : Nat) (f : Frame) : List CflOut × State :=
  let e := s.pduEnt j
  let x := parse f.bytes
  let a := f.bytes.drop x.off
  if f.bus ∨ beAt a 0 1 ≠ 0x82 then ([], s.evt Reg.CFL_TUN_BAD)
  else if bit e 448 ∧ (beAt a 4 4 ≠ fld e 384 32 ∨ beAt a 8 4 ≠ fld e 416 32) then ([], s.evt Reg.CFL_TUN_BAD)
  else
    let seq := beAt a 3 1
    let u := s.untun j
    let s := match u.lastSeq with
      | some n => if seq = (n + 1) % 256 then s else s.evt Reg.CFL_TUN_SEQ
      | none => s
    (s.setUntun j { u with lastSeq := some seq }).acfAll j e seq 256 ((a.drop 12).take (beAt a 1 2 % 2048))

/-! ### Taking a copy (R249, R250, R257) -/

/-- What Confluence does with a copy: an AUTH of 2 drops it whatever its PDU type (R250). [DEDUCED, log entry 48] -/
def State.cflCopy (s : State) (f : Frame) (i : Nat) : List CflOut × State :=
  let e := s.pduEnt i
  let t := pduType e
  let authDrop := (s.evt Reg.CFL_AUTH_DROP).cflEvent Irq.CFL_AUTH_DROP i false
  if f.bus ∧ busAuth f.bytes = 2 then ([], authDrop)
  else if !pduValid e ∨ (t ≠ 1 ∧ t ≠ 3 ∧ t ≠ 4) then ([], s.evt Reg.CFL_NO_PDU)
  else if f.bus ∧ bit e 4 ∧ t ≠ 4 ∧ busAuth f.bytes ≠ 1 then ([], authDrop)
  else if t = 3 then s.tunTake i f
  else if t = 4 then s.untunTake i f
  else
    let pay := (if f.bus then busData f.bytes else f.bytes.drop (parse f.bytes).off).drop (fld e 64 12)
    let (o, s) := s.pduConsume i e pay (s.twinAt f.ts)
    if bit e 111 then
      let (o2, s) := s.tunTake (fld e 96 13) f
      (o ++ o2, s)
    else (o, s)

/-- CFL_RX_ITEM: the copy on port 24's transmitter, or the one its scheduler now chooses, is taken. [DEDUCED, log entry 48] -/
def State.cflRx (s : State) : State :=
  if !s.cflFree then s
  else
    let s := if (s.eg 24).tx.isSome then s else s.egressSelect 24
    match (s.eg 24).tx with
    | none => s
    | some x =>
      match s.copyAt x.fid x.idx with
      | none => s.txComplete 24
      | some (f, c) =>
        let s := s.txComplete 24
        let pdu := if c.eddy.isSome then none else f.route.pdu
        match pdu with
        | none => s.cflStart 0 ([], s.evt Reg.CFL_NO_PDU)
        | some i => s.cflStart i (s.cflCopy f i)

/-! ### Outputs -/

/-- A frame is presented at port 24; a bus frame's SOF_TS is the FRC now (R265, R266). -/
def State.cflPresent (s : State) (o : CflOut) : State :=
  s.present 24 o.target o.bus (if o.bus then toBE 4 (s.now % 2 ^ 32) ++ o.bytes.drop 4 else o.bytes)

/-- CFL_ITEM_COMPLETE: the item in progress completes and presents its outputs. [DEDUCED, log entry 48] -/
def State.cflDone (s : State) : State :=
  match s.cfl.item with
  | none => s
  | some (_, l) => l.foldl State.cflPresent { s with cfl := { s.cfl with item := none } }

/-- CFL_TUN_HOLD: HOLD µs have passed for the open frame of entry j. -/
def State.cflHold (s : State) (j : Nat) : State :=
  if !s.enabled .cfl 0 ∨ !s.pwr.fwdOn then s
  else
    let (o, s) := s.tunFlush j
    o.foldl State.cflPresent s

/-- BLK_CTRL.EN has gone from 0 to 1: the RX_SIG timeouts run from here (R258). -/
def State.cflEnabled (s : State) (was : Bool) : State :=
  if s.enabled .cfl 0 ∧ !was then
    { s with cfl := { s.cfl with enabledAt := s.now, rx := (s.cfl.rx.filter (fun p => p.2.out)).map (fun p => (p.1, { p.2 with since := none, fired := false })) } }
  else s

/-- SOFT_RST of the CFL page, once a work item in progress has completed (R477). -/
def State.cflReset (s : State) : State :=
  let s := s.cflDone
  { s with cfl := { CflSt.reset with resetAt := s.now, srcWritten := s.cfl.srcWritten, pduWritten := s.cfl.pduWritten } }

end Sys2Proof.Machine
end

