-- ==== Sys2Proof/Machine/Twin.lean ====
section
/-! DEFINITION. The twin unit (R347-R368, R371): its messages, heartbeats, ARB wire, states, takeover and rotation, the output
comparison with its self-check, and pairing. -/

namespace Sys2Proof.Machine

/-- Change the twin unit's state. -/
def State.setTwn (s : State) (t : TwnSt) : State := { s with twn := t }

/-! ### Messages (R350, Tables 13-1 and 13-2) -/

/-- Send a twin message on port 22 in class 7. The spec gives its frame's EtherType and selector, not its DMAC: a free value. -/
def State.twinSend (s : State) (typ : Nat) (body : List Byte) : State :=
  let (d, s) := s.draw
  let role := if s.twn.state = 0 then 0 else if s.twn.state = 4 then 1 else 2
  let msg := toBE 1 2 ++ toBE 1 1 ++ toBE 1 typ ++ toBE 1 role ++ toBE 2 s.node ++ toBE 4 s.twn.seq ++ toBE 2 0 ++ body
  (s.setTwn { s.twn with seq := (s.twn.seq + 1) % 2 ^ 32 }).sendOwn 22 7
    (toBE 6 (d.toNat % 2 ^ 48) ++ toBE 6 s.devMac ++ toBE 2 0x88B5 ++ msg)

/-- The node number of the partner. -/
def State.partner (s : State) : Nat := s.rf Reg.TWN_PARTNER 0 9

/-- Receive a message of TYPE `typ` and length `len`: dropped and counted under R350, without effect in OFF, or `k` runs. [DEDUCED, log entry 59] -/
def State.twinRx (s : State) (typ len : Nat) (b : List Byte) (k : State → State) : State :=
  let t := beAt b 2 1
  if s.twn.state = 0 then s
  else if beAt b 1 1 ≠ 1 ∨ t = 0 ∨ 10 < t ∨ b.length < (if t = typ then len else 12) ∨ beAt b 4 2 % 512 ≠ s.partner then s.evt Reg.TWN_BAD_MSG
  else if t = typ then k s
  else s

/-- Raise bit i of the page and ask for its log record, at most one per `gap` ns (R374). [DEDUCED, log entry 81] -/
def State.twinEvent (s : State) (i gap : Nat) : State := (s.raise .twn 0 i).logEvt .twn 0 i gap false (toBE 2 s.node ++ toBE 2 s.partner)

/-! ### States (R354, Table 13-3) -/

/-- PREFER. -/
def State.prefer (s : State) : Bool := s.rb Reg.TWN_CFG 1

/-- This unit wins against its partner: a higher PREFER, or an equal one and the lower node number. -/
def State.twinWins (s : State) : Bool :=
  if s.prefer = s.twn.partnerPrefer then decide (s.node < s.partner) else s.prefer

/-- Entry of ISOLATED. -/
def State.twinIsolate (s : State) : State :=
  (s.setTwn { s.twn with
      state := 6, ready := false, claiming := false, hbBack := false, claimBack := false, holdCfl := false,
      presenceDue := false, accepted := none, offer := none }).evt Reg.TWN_ISOLATED_CNT

/-- TWIN_ISOLATED is raised and ISOLATED entered. -/
def State.twinIsolated (s : State) : State := (s.twinEvent Irq.TWN_TWIN_ISOLATED 0).twinIsolate

/-- Entry of PRIMARY: claim on ARB and drive the twin outputs. -/
def State.twinPrimary (s : State) : State :=
  s.setTwn { s.twn with
      state := 4, ready := false, claiming := true, presenceDue := false, streak := 0, linkLost := false,
      sync := ⟨[], false⟩, holdCfl := false, primaryMin := 0, accepted := none, offer := none, toFault := false }

/-- Entry of SECONDARY: comparison starts. [DEDUCED, log entry 61] -/
def State.twinSecondary (s : State) : State :=
  s.setTwn { s.twn with
      state := 3, ready := false, claiming := false, streak := 0, done := none, accepted := none, offer := none,
      toFault := false, holdCfl := false }

/-- Entry of JOINING: READY 0, an ATTEST_REQ with a fresh nonce. The SYNC_REQ follows its check (R364, R371). -/
def State.twinJoin (s : State) : State :=
  let (n, s) := s.trng 16
  (s.setTwn { s.twn with
      state := 2, ready := false, claiming := false, streak := 0, linkLost := false, stepped := false,
      nonce := some n, attested := false, sync := ⟨[], false⟩, holdCfl := false, div := none, selfOwn := none,
      selfPartner := none }).twinSend 9 n

/-- Entry of FAULTED. -/
def State.twinFault (s : State) : State :=
  ((s.setTwn { s.twn with state := 5, ready := false, claiming := false, accepted := none, offer := none, toFault := false }).evt
    Reg.TWN_SELFTEST_FAIL).twinEvent Irq.TWN_SELFTEST_FAIL 0

/-- A write of TWN_CFG: EN written 1 starts heartbeats in STARTING, EN written 0 returns to OFF. -/
def State.twinCfgWrite (s : State) (m : Nat) (v : Word) : State :=
  let s := s.plainWrite m Reg.TWN_CFG v
  let en := s.rb Reg.TWN_CFG 0
  let t := { TwnSt.reset with
      seq := s.twn.seq, offset := s.twn.offset, linkDelay := s.twn.linkDelay, digest := s.twn.digest,
      hbOut := s.twn.hbOut, roster := s.twn.roster, checks := s.twn.checks }
  if en ∧ s.twn.state = 0 then s.setTwn { t with state := 1 }
  else if !en ∧ s.twn.state ≠ 0 then s.setTwn t
  else s

/-! ### The ARB wire (R353) -/

/-- The sender has seen the partner's pulses within the last 1 ms. -/
def State.arbSeen (s : State) : Bool :=
  let near := fun (o : Option Nat) => match o with | some t => decide (s.now ≤ t + 1000000) | none => false
  near s.twn.claimAt || near s.twn.presenceAt

/-- ARB_OK: both report ARB_SEEN; held while heartbeats are lost. -/
def State.arbUpdate (s : State) : State :=
  if s.twn.lost then s else s.setTwn { s.twn with arbOk := s.arbSeen && s.twn.partnerArb }

/-- ARB_CLAIM_TIMER: a claim pulse of 5 µs while claiming. -/
def State.arbClaim (s : State) : State := if s.twn.claiming then s.emit (.arb 5000) else s

/-- ARB_CLAIM_SEEN: a claim pulse not this unit's own. -/
def State.arbClaimSeen (s : State) : State :=
  if s.twn.state = 0 then s
  else
    let s := s.setTwn { s.twn with claimAt := some s.now, presenceDue := s.secondary, claimBack := true }
    if s.twn.state = 1 then s.twinJoin
    else if s.twn.state = 3 ∧ s.twn.lost ∧ !s.twn.linkLost then
      ((s.setTwn { s.twn with ready := false, linkLost := true }).evt Reg.TWN_LINK_LOST).twinEvent Irq.TWN_LINK_LOST 1000000000
    else if s.twn.state = 4 ∧ s.twn.lost ∧ !s.twinWins then s.twinIsolated
    else if s.twn.state = 6 ∧ s.twn.hbBack then s.twinJoin
    else s

/-- ARB_PRESENCE_PULSE: the answer to a claim, a pulse of 1 µs. -/
def State.arbPresence (s : State) : State :=
  if s.twn.presenceDue then (s.setTwn { s.twn with presenceDue := false }).emit (.arb 1000) else s

/-- ARB_PRESENCE_SEEN. -/
def State.arbPresenceSeen (s : State) : State := if s.twn.state = 0 then s else s.setTwn { s.twn with presenceAt := some s.now }

/-! ### Heartbeats (R351, R352, R361, R367) -/

/-- One path's account at a heartbeat period: silent for the fourth time while the other path delivers. [DEDUCED, log entry 59] -/
def State.pathSilent (s : State) (miss other : Nat) : State :=
  if miss = 4 ∧ other < 4 then (s.evt Reg.TWN_HB_PATH).twinEvent Irq.TWN_HB_PATH 1000000000 else s

/-- HEARTBEAT_TIMER: the HEARTBEAT is sent and HB_OUT toggled; each path's silence and the time as primary are counted. [DEDUCED, log entry 59] -/
def State.hbSend (s : State) : State :=
  if s.twn.state = 0 then s
  else
    let t := s.twn
    let seen := fun (x : Bool) (n : Nat) => if x then 0 else min (n + 1) 5
    let a := seen t.lineSeen t.lineMiss
    let b := seen t.linkSeen t.linkMiss
    let s := (s.setTwn { t with
        lineMiss := a, linkMiss := b, lineSeen := false, linkSeen := false, hbLine := t.hbLine && decide (a < 4),
        hbLink := t.hbLink && decide (b < 4), hbOut := !t.hbOut,
        primaryMin := if t.state = 4 ∧ t.partnerReady then t.primaryMin + 1 else t.primaryMin }).arbUpdate
    let s := if t.hbLine ∨ t.hbLink then (s.pathSilent a b).pathSilent b a else s
    let (x, s) := s.draw
    let echo := match t.lastHb with
      | some (tx, at_) => toBE 8 tx ++ toBE 4 ((s.now - at_) % 2 ^ 32)
      | none => toBE 8 x.toNat ++ toBE 4 (x.toNat % 2 ^ 32)
    (s.twinSend 1 (toBE 1 t.state ++ toBE 1 (b2n t.ready + b2n s.arbSeen * 2 + b2n t.cfgMatch * 4) ++ toBE 2 0 ++
      toBE 8 (unsext 64 s.twinNow) ++ echo ++ toBE 4 (s.rd Reg.GPI_OUT).toNat ++ fit 8 t.digest)).emit (.hbOut s.twn.hbOut)

/-- A heartbeat arrives on a path: arrivals on both paths within 50 µs count as one. [DEDUCED, log entry 59] -/
def State.hbArrive (s : State) (line : Bool) : State :=
  let t := s.twn
  let from_ := if line then 1 else 2
  let merge := decide (t.arrFrom ≠ 0) && decide (t.arrFrom ≠ from_) &&
    (match t.arrival with | some a => decide (s.now ≤ a + 50000) | none => false)
  let s := s.setTwn { t with
    arrival := if merge then t.arrival else some s.now, arrFrom := if merge then t.arrFrom else from_, missed := 0, lost := false,
    lineSeen := t.lineSeen || line, linkSeen := t.linkSeen || !line, hbLine := t.hbLine || line, hbLink := t.hbLink || !line,
    hbBack := t.hbBack || t.lost || t.arrival.isNone }
  if s.twn.state = 3 ∧ s.twn.linkLost then s.twinJoin
  else if s.twn.state = 6 ∧ s.twn.hbBack ∧ s.twn.claimBack then s.twinJoin
  else s

/-- HB_EDGE: a transition on HB_IN. -/
def State.hbEdge (s : State) : State := if s.twn.state = 0 then s else s.hbArrive true

/-- The heartbeat is lost: its fourth consecutive missed period (Table 13-3). -/
def State.hbLost (s : State) : State :=
  let s := s.setTwn { s.twn with lost := true }
  if s.twn.state = 4 then s.twinEvent Irq.TWN_PARTNER_LOST 1000000000
  else if s.twn.state = 3 ∧ (!s.twn.arbOk ∨ (!s.twn.ready ∧ !s.rb Reg.TWN_CFG 2)) then s.twinIsolated
  else s

/-- HB_MISSED: 250 µs + HB_TOL have passed since the previous arrival or missed deadline. -/
def State.hbMissed (s : State) : State :=
  match s.twn.arrival with
  | none => s
  | some a =>
    if s.twn.state = 0 ∨ s.twn.lost ∨ s.now < a + 250000 + s.rf Reg.TWN_CFG 16 8 * 1000 then s
    else
      let s := s.setTwn { s.twn with arrival := some (a + 250000 + s.rf Reg.TWN_CFG 16 8 * 1000), arrFrom := 0, missed := s.twn.missed + 1 }
      if s.twn.missed = 4 then s.hbLost else s

/-- The secondary's offset and link delay from a HEARTBEAT of the primary: set in one step at JOINING, then slewed by at most 1 µs. [DEDUCED, log entry 59] -/
def State.twinTime (s : State) (tx echo hold : Nat) : State :=
  let d := (s.twinNow - sext 64 echo - (hold : Int)) / 2
  let e := sext 64 tx + d - s.twinNow
  let t := s.twn
  let step := if t.state = 2 ∧ !t.stepped then e else clampI (-1000) 1000 e
  s.setTwn { t with linkDelay := clampN 0 0xFFFF d.toNat, offset := t.offset + step, stepped := true }

/-- The digests of the twin-relevant configuration are compared: CFG_MATCH, and a mismatch that begins is raised and counted. [DEDUCED, log entry 59] -/
def State.cfgCompare (s : State) (d : List Byte) : State :=
  let ok := decide (d = fit 8 s.twn.digest)
  let new := !ok && !s.twn.mismatched
  let s := s.setTwn { s.twn with cfgMatch := ok, mismatched := !ok }
  if new then (s.evt Reg.TWN_CFG_MISMATCH).twinEvent Irq.TWN_CFG_MISMATCH 1000000000 else s

/-- The masked lines of a secondary follow the primary's GPIO_OUT (R361, R470). -/
def State.gpioFollow (s : State) (g : Nat) : State :=
  let m := s.rd Reg.TWN_GPIO_MASK
  s.wr Reg.GPI_OUT ((s.rd Reg.GPI_OUT &&& ~~~m) ||| (wd g &&& m))

/-- HEARTBEAT_RX. The message does not carry the partner's PREFER, which R354 compares: it comes as an operand. [DEDUCED, log entry 59] -/
def State.hbRx (s : State) (prefer : Bool) (b : List Byte) : State :=
  s.twinRx 1 48 b fun s =>
    let s := (s.stat Reg.TWN_HB_RX 1).hbArrive false
    let f := beAt b 13 1
    let primary := decide (beAt b 3 1 = 1)
    let s := s.setTwn { s.twn with lastHb := some (beAt b 16 8, s.now), partnerPrefer := prefer, partnerReady := f.testBit 0, partnerArb := f.testBit 1 }
    let s := s.arbUpdate
    let s := if primary ∧ s.secondary then
        (s.twinTime (beAt b 16 8) (beAt b 24 8) (beAt b 32 4)).gpioFollow (beAt b 36 4) else s
    let s := s.cfgCompare ((b.drop 40).take 8)
    if s.twn.state = 1 ∧ beAt b 12 1 = 1 ∧ s.twinWins then s.twinPrimary else s

/-- 200 µs have passed since the missed deadline at which the heartbeat was lost. [DEDUCED, log entry 59] -/
def State.lossAged (s : State) : Bool := match s.twn.arrival with | some a => decide (a + 200000 ≤ s.now) | none => true

/-- TAKEOVER: 200 µs without a claim after the loss (R355, R356). [DEDUCED, log entry 59] -/
def State.takeover (s : State) : State :=
  let t := s.twn
  if t.state = 3 ∧ t.lost ∧ !t.linkLost ∧ s.lossAged ∧ t.arbOk ∧ (t.ready ∨ s.rb Reg.TWN_CFG 2) then
    let s := ((s.twinPrimary.evt Reg.TWN_TAKEOVER).twinEvent Irq.TWN_TAKEOVER 0)
    { s with cfl := { s.cfl with takeover := some s.now } }
  else s

/-- TWIN_START_WAIT: 200 µs in STARTING with no claim and no arrival, PREFER = 1. -/
def State.twinStartWait (s : State) : State :=
  let quiet : Bool := match s.twn.arrival with | some a => decide (a + 200000 ≤ s.now) | none => true
  if s.twn.state = 1 ∧ s.prefer ∧ quiet then s.twinPrimary else s

/-- TWIN_START_TIMEOUT: START_WAIT ms in STARTING, PREFER = 0. -/
def State.twinStartTimeout (s : State) : State := if s.twn.state = 1 ∧ !s.prefer then s.twinIsolated else s

/-! ### The configuration digest (R367, R368) -/

/-- The 4 bytes of a register. -/
def State.regBytes (s : State) (a : Nat) : List Byte := toBE 4 (s.rd a).toNat

/-- A table entry: its table ID, its index and `n` words from the lowest. -/
def entryBytes (t i : Nat) (words : List Word) : List Byte := toBE 1 t ++ toBE 4 i ++ (words.map (fun w => toBE 4 w.toNat)).flatten

/-- The first n words of an entry. -/
def firstWords (e : BitVec 512) (n : Nat) : List Word := (entryWords e).take n

/-- The masked CAN and LIN channels. -/
def State.maskedCan (s : State) : List Nat := onesOf (s.rd Reg.TWN_BUS_MASK).toNat 24
def State.maskedLin (s : State) : List Nat := onesOf (s.rd Reg.TWN_LIN_MASK).toNat 8

/-- The settings of a masked LIN channel. LIN_FRAME enters without its status bits. -/
def State.linSettings (s : State) (l : Nat) : List Byte :=
  s.regBytes (Reg.LIN_CFG l) ++ s.regBytes (Reg.LIN_RATE l) ++ s.regBytes (Reg.LIN_SCHED_SEL l) ++
  ((List.range 4).map (fun k => s.regBytes (Reg.LIN_TABLE l k))).flatten ++
  ((List.range 64).map (fun f => toBE 4 (s.rf (Reg.LIN_FRAME l f) 0 7))).flatten ++
  ((List.range 64).map (fun i => s.regBytes (Reg.LIN_SCHED_LO l i) ++ s.regBytes (Reg.LIN_SCHED_HI l i))).flatten

/-- The twin-relevant SRT entries: VALID, with a destination at port 24 or a masked channel. -/
def State.twinSrt (s : State) (e : BitVec 512) : Bool :=
  let m := 2 ^ 24 + (s.rd Reg.TWN_BUS_MASK).toNat % 2 ^ 24 * 2 ^ 26 + (s.rd Reg.TWN_LIN_MASK).toNat % 2 ^ 8 * 2 ^ 50
  srtValid e && decide (srtDest e &&& m ≠ 0)

/-- CFG_DIGEST. [DEDUCED, log entry 60] -/
def State.cfgDigest (s : State) : List Byte :=
  let regs := fun (l : List Nat) => (l.map s.regBytes).flatten
  let tab := fun (t n : Nat) (p : BitVec 512 → Bool) =>
    (((s.tentries t).filter (fun x => p x.2)).map (fun x => entryBytes t x.1 (firstWords x.2 n))).flatten
  let cau := s.auth.cau.filter (fun x => decide (x.2.state ≠ 0) && x.2.tx && s.rb Reg.TWN_BUS_MASK x.2.chan)
  shake (ascii "TWN-CFG" ++ regs [Reg.TWN_BUS_MASK, Reg.TWN_LIN_MASK, Reg.TWN_GPIO_MASK] ++
    (s.maskedCan.map (fun c => regs [Reg.CAN_MODE c, Reg.CAN_NBT c, Reg.CAN_DBT c, Reg.CAN_XBT c, Reg.CAN_PWM c])).flatten ++
    (s.maskedLin.map s.linSettings).flatten ++
    tab 3 4 (fun e => bit e 0) ++ tab 4 16 pduValid ++
    (cau.map (fun x => entryBytes 6 x.1 [x.2.w0, x.2.w1, x.2.w2, x.2.w3, x.2.w4])).flatten ++
    tab 0 4 s.twinSrt) 8

/-- CFG_DIGEST_RECOMPUTE: the digest is recorded as that of the last commit. -/
def State.cfgRecord (s : State) : State := s.setTwn { s.twn with digest := s.cfgDigest }

/-! ### The output comparison (R362, R363) -/

/-- This unit's and the partner's digest of a window. -/
def State.ownWin (s : State) (w : Nat) : Nat × Nat := Tab.get (fun _ => (0, 0)) s.twn.win w
def State.partnerWin (s : State) (w : Nat) : Option (Nat × Nat) := Tab.get (fun _ => none) s.twn.partner w

/-- Digests add component-wise. -/
def winAdd (a b : Nat × Nat) : Nat × Nat := (a.1 + b.1, (a.2 + b.2) % 2 ^ 64)

/-- DIGEST_SEND: the digest of the last window that ended at least 200 µs ago, once. [DEDUCED, log entry 60] -/
def State.digestSend (s : State) : State :=
  let w := windowOf (s.twinNow - 200000) - 1
  if s.twn.state = 0 ∨ windowOf (s.twinNow - 200000) = 0 ∨ s.twn.sent = some w then s
  else
    let (n, sum) := s.ownWin w
    let s := (s.twinSend 2 (toBE 8 w ++ toBE 4 n ++ toBE 8 sum)).stat Reg.TWN_WINDOWS 1
    s.setTwn { s.twn with win := Tab.keep (fun k => decide (w ≤ k + 8)) s.twn.win, sent := some w }

/-- A window matches: the sixteenth in a row makes the secondary READY. -/
def State.winMatch (s : State) (done : Nat) : State :=
  let n := s.twn.streak + 1
  let s := s.setTwn { s.twn with streak := n, done := some done }
  if 16 ≤ n ∧ !s.twn.ready then (s.setTwn { s.twn with ready := true }).raise .twn 0 Irq.TWN_READY else s

/-- A self-check starts over window w, unless one runs or the configurations differ (R363, R367). -/
def State.selfStart (s : State) (w : Nat) : State :=
  if s.twn.cfgMatch ∧ s.twn.div.isNone then s.setTwn { s.twn with div := some w, selfOwn := none, selfPartner := none } else s

/-- compare(w): the pair rule absorbs an item that fell on different sides of the boundary. -/
def State.winCompare (s : State) (w : Nat) : State :=
  match s.partnerWin w, s.partnerWin (w + 1) with
  | some a, some b =>
    if a = s.ownWin w then s.winMatch w
    else if winAdd a b = winAdd (s.ownWin w) (s.ownWin (w + 1)) then (s.evt Reg.TWN_STRADDLE).winMatch (w + 1)
    else
      let s := s.setTwn { s.twn with streak := 0, done := some w }
      ((((s.twinSend 3 (toBE 8 w)).evt Reg.TWN_DIVERGENCE).wr Reg.TWN_LAST_DIV (wd w)).twinEvent Irq.TWN_DIVERGENCE 0).selfStart w
  | _, _ => s.setTwn { s.twn with streak := 0 }

/-- DIGEST_RX: the secondary compares the window before the one received. [DEDUCED, log entry 60] -/
def State.digestRx (s : State) (b : List Byte) : State :=
  s.twinRx 2 32 b fun s =>
    let w := beAt b 12 8
    let tab := Tab.keep (fun k => decide (w ≤ k + 8)) (Tab.set (fun _ => none) s.twn.partner w (some (beAt b 20 4, beAt b 24 8)))
    let s := s.setTwn { s.twn with partner := tab }
    let fresh : Bool := match s.twn.done with | some d => decide (d < w - 1) | none => true
    if s.twn.state = 3 ∧ 0 < w ∧ fresh then s.winCompare (w - 1) else s

/-- DIVERGE_RX: the self-check starts. [DEDUCED, log entry 60] -/
def State.divergeRx (s : State) (b : List Byte) : State :=
  s.twinRx 3 20 b fun s => (s.wr Reg.TWN_LAST_DIV (wd (beAt b 12 8))).selfStart (beAt b 12 8)

/-- The outcome of a divergence, once both results are known (R363): `own` and `other` are this unit's and its partner's. [DEDUCED, log entry 60] -/
def State.selfOutcome (s : State) (own other : Bool) : State :=
  let s := s.setTwn { s.twn with div := none, selfOwn := none, selfPartner := none }
  let next := windowOf s.twinNow + 1
  if s.twn.state = 4 then
    if own ∧ other then s.logEvt .twn 0 Irq.TWN_DIVERGENCE 0 false (toBE 2 s.node ++ toBE 2 s.partner)
    else if !own ∧ other then s.setTwn { s.twn with accepted := some next, toFault := true }
    else s
  else if s.twn.state = 3 then
    if own ∧ other then s.twinJoin
    else if own then s.setTwn { s.twn with accepted := some next }
    else s.twinFault
  else s

/-- Decide if both results are known. -/
def State.selfDecide (s : State) : State :=
  match s.twn.selfOwn, s.twn.selfPartner with
  | some a, some b => s.selfOutcome a b
  | _, _ => s

/-- SELFTEST_DONE: the fixed vectors passed or not; the table check compares the digest recomputed with the one recorded. -/
def State.selfDone (s : State) (vectors : Bool) : State :=
  match s.twn.div with
  | none => s
  | some w =>
    if s.twn.selfOwn.isSome then s
    else
      let d := s.cfgDigest
      let ok := vectors && decide (d = s.twn.digest)
      let s := s.twinSend 4 (toBE 8 w ++ toBE 1 (b2n (!ok)) ++ toBE 3 0 ++ d)
      (s.setTwn { s.twn with selfOwn := some ok }).selfDecide

/-- SELFTEST_RX. -/
def State.selfRx (s : State) (b : List Byte) : State :=
  s.twinRx 4 32 b fun s =>
    if s.twn.div = some (beAt b 12 8) then (s.setTwn { s.twn with selfPartner := some (decide (beAt b 20 1 = 0)) }).selfDecide else s

/-- SELFTEST_TIMEOUT: 2 ms after the DIVERGE a result that is missing counts as failed. -/
def State.selfTimeout (s : State) : State :=
  if s.twn.div.isSome then s.selfOutcome (s.twn.selfOwn.getD false) (s.twn.selfPartner.getD false) else s

/-! ### Rotation (R365) -/

/-- An offer to rotate 16 windows ahead. [DEDUCED, log entry 60] -/
def State.roleOffer (s : State) : State :=
  if s.twn.state = 4 then
    let w := windowOf s.twinNow + 16
    (s.setTwn { s.twn with offer := some w }).twinSend 5 (toBE 1 1 ++ toBE 3 0 ++ toBE 8 w)
  else s

/-- A rotation is due: ROTATE_H hours have been spent PRIMARY with a READY partner, or an offer was made 1 minute ago and not accepted. [DEDUCED, log entry 60] -/
def State.rotateDue (s : State) : Bool :=
  let h := s.rf Reg.TWN_CFG 8 8
  (decide (h ≠ 0) && decide (h * 14400000 ≤ s.twn.primaryMin) && s.twn.offer.isNone && s.twn.accepted.isNone) ||
  (match s.twn.offer with | some w => decide (w + 59984 ≤ windowOf s.twinNow) | none => false)

/-- ROTATE_TIMER: a rotation that is due is offered to a READY partner. [DEDUCED, log entry 60] -/
def State.rotateTimer (s : State) : State := if s.twn.partnerReady ∧ s.rotateDue then s.roleOffer else s

/-- ROLE_OFFER_RX: a READY secondary accepts. -/
def State.roleOfferRx (s : State) (b : List Byte) : State :=
  s.twinRx 5 24 b fun s =>
    if beAt b 12 1 = 1 ∧ s.twn.state = 3 ∧ s.twn.ready then
      (s.setTwn { s.twn with accepted := some (beAt b 16 8) }).twinSend 5 (toBE 1 2 ++ toBE 3 0 ++ toBE 8 (beAt b 16 8))
    else s

/-- ROLE_ACCEPT_RX: the primary's offer is accepted. -/
def State.roleAcceptRx (s : State) (b : List Byte) : State :=
  s.twinRx 5 24 b fun s =>
    if beAt b 12 1 = 2 ∧ s.twn.state = 4 ∧ s.twn.offer = some (beAt b 16 8) then
      s.setTwn { s.twn with accepted := s.twn.offer, offer := none }
    else s

/-- ROLE_SWITCH: AT_WINDOW of an accepted rotation begins; the new primary drives its buses 20 µs after it. -/
def State.roleSwitch (s : State) : State :=
  let w := s.twn.accepted.getD 0
  if s.twn.accepted.isNone ∨ windowOf s.twinNow < w then s
  else if s.twn.state = 4 then
    let fault := s.twn.toFault
    let s := (s.twinSecondary.evt Reg.TWN_ROTATION).twinEvent Irq.TWN_ROTATED 0
    if fault then s.twinFault else s
  else if s.twn.state = 3 then
    let s := (s.twinPrimary.evt Reg.TWN_ROTATION).twinEvent Irq.TWN_ROTATED 0
    s.setTwn { s.twn with driveAt := ((w : Int) * 1000000 + 20000 - s.twn.offset).toNat }
  else s

/-- FORCE_PRIMARY, accepted in STARTING and ISOLATED. -/
def State.forcePrimary (s : State) : State := if s.twn.state = 1 ∨ s.twn.state = 6 then s.twinPrimary else s

/-- RESYNC of a FAULTED unit. -/
def State.resync (s : State) : State := if s.twn.state = 5 then s.twinJoin else s

/-- A write of TWN_CMD, its bits in ascending order. -/
def State.twinCmd (s : State) (v : Word) : State :=
  let s := if bit v 0 then s.roleOffer else s
  let s := if bit v 1 then s.forcePrimary else s
  let s := if bit v 2 then s.roleOffer else s
  if bit v 3 then s.resync else s

/-! ### Shadow channels (R358) -/

/-- SHADOW_AGE_EXPIRE: copies of shadow channel c unmatched for SHADOW_AGE ms are dropped. [DEDUCED, log entry 82] -/
def State.shadowAge (s : State) (c : Nat) : State :=
  let a := s.rf Reg.TWN_CFG 3 5
  let ns := (if a = 0 then 10 else a) * 1000000
  if s.canShadow c then s.txlDrop c (fun i => decide (i.since + ns ≤ s.now)) (fun s => s.evt Reg.TWN_SHADOW_MISS) else s

/-! ### Joining (R364, R371) -/

/-- ATTEST_REQ_RX: answered with the attestation report over its nonce. -/
def State.attestReqRx (s : State) (b : List Byte) : State :=
  s.twinRx 9 28 b fun s => if s.vltOpen then s.twinSend 10 (s.report ((b.drop 12).take 16)) else s

/-- An attestation report verifies and carries the nonce (R319). -/
def reportOk (rep nonce : List Byte) : Bool :=
  decide (346 ≤ rep.length) && decide ((rep.drop 216).take 16 = nonce) &&
  Config.ed448Verify ((rep.drop 20).take 57) (ascii "AUV-ATTEST") (rep.take 232) ((rep.drop 232).take 114)

/-- The digest of a report's DIK_PUB. -/
def reportDigest (rep : List Byte) : List Byte := shake ((rep.drop 20).take 57) 32

/-- A roster entry. -/
def State.rst (s : State) (n : Nat) : RstEnt := Tab.get (fun _ => RstEnt.empty) s.twn.roster n

/-- Replace a roster entry. -/
def State.setRst (s : State) (n : Nat) (e : RstEnt) : State :=
  s.setTwn { s.twn with roster := Tab.set (fun _ => RstEnt.empty) s.twn.roster n e }

/-- A joining secondary that has applied SYNC_END and whose partner is attested is SECONDARY. [DEDUCED, log entry 61] -/
def State.joinDone (s : State) : State := if s.twn.attested ∧ s.twn.sync.done then s.twinSecondary else s

/-- ATTEST_REP_RX: the partner's report is checked against the roster; a failure refuses the pairing. [DEDUCED, log entry 61] -/
def State.attestRepRx (s : State) (b : List Byte) : State :=
  s.twinRx 10 358 b fun s =>
    match s.twn.nonce with
    | none => s
    | some n =>
      if s.twn.state ≠ 2 then s
      else
        let rep := (b.drop 12).take 346
        let e := s.rst s.partner
        let s := s.setTwn { s.twn with nonce := none }
        if reportOk rep n ∧ e.valid ∧ e.twin ∧ e.digest = reportDigest rep then
          ((s.setTwn { s.twn with attested := true }).twinSend 6 []).joinDone
        else (s.twinEvent Irq.TWN_TWIN_REFUSED 0).twinIsolate

end Sys2Proof.Machine
end

