-- ==== Sys2Proof/Machine/TwinSync.lean ====
section
/-! DEFINITION. The transfer of the primary's dynamic state to a joining secondary (R364, Table 13-8) and the Reach roster
(R372-R374). -/

namespace Sys2Proof.Machine

/-! ### Records -/

/-- The record of SOURCE i. -/
def State.srcRec (s : State) (i : Nat) (e : BitVec 512) : List Byte :=
  let x := s.src i
  toBE 4 (s.srcStored i e) ++ toBE 1 (b2n x.never + b2n x.timedOut * 2 + b2n x.subst * 4 + b2n x.range * 8) ++ toBE 3 0

/-- The ms that remain of RX_SIG PDU i's timeout, 0xFFFF when it is not running. -/
def State.rxLeft (s : State) (i : Nat) (e : BitVec 512) : Nat :=
  let t := fld e 16 16
  if t = 0 ∨ (s.rxp i).fired then 0xFFFF
  else ((s.rxFrom i + ((t * 1000000 : Nat) : Int) - (s.now : Int) + 999999) / 1000000).toNat

/-- The record of TX_SIG PDU j. -/
def State.txRec (s : State) (j : Nat) : List Byte :=
  let x := s.txp j
  toBE 1 x.alive ++ toBE 1 0 ++ toBE 2 x.lastPay.length ++ x.lastPay ++ List.replicate ((4 - x.lastPay.length % 4) % 4) 0

/-- The record of LIN buffer f of channel l. -/
def State.pubRec (s : State) (l f : Nat) : List Byte :=
  toBE 1 (b2n (s.linValid l f) + b2n (s.linUpdated l f) * 2) ++ toBE 3 0 ++ toLE 4 (s.rd (Reg.LIN_PUB_LO l f)).toNat ++
    toLE 4 (s.rd (Reg.LIN_PUB_HI l f)).toNat

/-- What there is to transfer, KIND by KIND in ascending index: (KIND, index, record). -/
def State.syncRecs (s : State) : List (Nat × Nat × List Byte) :=
  (((s.tentries 3).filter (fun p => sigSource p.2)).map (fun p => (1, p.1, s.srcRec p.1 p.2))) ++
  (((s.tentries 4).filter (fun p => isRxSig p.2)).map (fun p => (2, p.1, toBE 2 (s.rxLeft p.1 p.2) ++ toBE 2 0))) ++
  (((s.tentries 4).filter (fun p => isTxSig p.2 && (s.txp p.1).sentAt.isSome)).map (fun p => (3, p.1, s.txRec p.1))) ++
  ((s.auth.cau.filter (fun p => decide (p.2.state ≠ 0))).map (fun p => (4, p.1, toBE 4 p.2.fv))) ++
  (s.maskedLin.map (fun l => (((List.range 64).filter (s.linValid l)).map (fun f => (5, l * 64 + f, s.pubRec l f))))).flatten

/-- A message being filled: KIND, FIRST, the records so far, newest first. -/
structure SyncMsg where
  kind : Nat
  first : Nat
  recs : List (List Byte)
deriving DecidableEq, Repr

/-- Its body from offset 12. -/
def SyncMsg.body (x : SyncMsg) : List Byte :=
  toBE 1 x.kind ++ toBE 1 0 ++ toBE 2 x.recs.length ++ toBE 4 x.first ++ x.recs.reverse.flatten

/-- A record joins the message: the same KIND, the next index, at most 1,480 bytes of records. -/
def SyncMsg.takes (x : SyncMsg) (kind i : Nat) (r : List Byte) : Bool :=
  decide (x.kind = kind) && decide (i = x.first + x.recs.length) && decide (sumN (x.recs.map List.length) + r.length ≤ 1480)

/-- The bodies of the messages that carry a list of records. -/
def syncBodies : List (Nat × Nat × List Byte) → Option SyncMsg → List (List Byte)
  | [], none => []
  | [], some m => [m.body]
  | (k, i, r) :: t, none => syncBodies t (some ⟨k, i, [r]⟩)
  | (k, i, r) :: t, some m =>
    if m.takes k i r then syncBodies t (some { m with recs := r :: m.recs }) else m.body :: syncBodies t (some ⟨k, i, [r]⟩)

/-- The DIGEST of SYNC_END. -/
def syncDigest (bodies : List (List Byte)) : List Byte := shake (ascii "TWN-SYNC" ++ bodies.flatten) 8

/-- TWIN_SYNC_REQ_RX: the primary's dynamic state is to be captured at the start of the next window. [DEDUCED, log entry 61] -/
def State.syncReqRx (s : State) (b : List Byte) : State :=
  s.twinRx 6 12 b fun s =>
    if s.twn.state = 4 ∧ s.twn.capture.isNone then s.setTwn { s.twn with capture := some (windowOf s.twinNow + 1) } else s

/-- AT_WINDOW of a transfer that was asked for has begun, and no work item is in progress: the primary's state is captured and sent. [DESIGN CHOICE, log entry 12; DEDUCED, log entry 61] -/
def State.syncCapture (s : State) : State :=
  match s.twn.capture with
  | none => s
  | some w =>
    if s.twn.state ≠ 4 then s.setTwn { s.twn with capture := none }
    else if windowOf s.twinNow < w ∨ s.cfl.item.isSome then s
    else
      let s := s.setTwn { s.twn with capture := none }
      let recs := s.syncRecs
      let bodies := syncBodies recs none
      (bodies.foldl (fun s x => s.twinSend 7 x) s).twinSend 8 (toBE 8 w ++ toBE 4 recs.length ++ syncDigest bodies)

/-! ### Applying (R364) -/

/-- Bytes of one record of a KIND at the front of a list. -/
def recLen (kind : Nat) (b : List Byte) : Nat :=
  match kind with
  | 1 => 8 | 2 => 4 | 3 => 4 + (beAt b 2 2 + 3) / 4 * 4 | 4 => 4 | 5 => 12 | _ => 0

/-- The records of a body: `n` of them. -/
def splitRecs (kind : Nat) : Nat → List Byte → List (List Byte)
  | 0, _ => []
  | n + 1, b => b.take (recLen kind b) :: splitRecs kind n (b.drop (recLen kind b))

/-- The length of a SYNC_DATA message: 20 bytes and its records. -/
def syncLen (b : List Byte) : Nat :=
  20 + sumN ((splitRecs (beAt b 12 1) (beAt b 14 2) (b.drop 20)).map List.length)

/-- The records are all there. -/
def syncWhole (b : List Byte) : Bool :=
  (splitRecs (beAt b 12 1) (beAt b 14 2) (b.drop 20)).all (fun r => decide (r.length = recLen (beAt b 12 1) r))

/-- The values a payload gives the PLACEs of TX_SIG entry e. -/
def State.placeValues (s : State) (e : BitVec 512) (pay : List Byte) : List (Nat × Int) :=
  (pduList e).filterMap fun i =>
    let g := s.tent 3 i
    if sigPlace g then
      let v := payField pay (sigStart g) (sigLen g) (sigBig g)
      some (i, if sigSigned g then sext (sigLen g) v else (v : Int))
    else none

/-- Apply one record. [DEDUCED, log entry 61] -/
def State.syncApply (s : State) (kind i : Nat) (r : List Byte) : State :=
  match kind with
  | 1 =>
    let f := beAt r 4 1
    s.setSrc i ⟨beAt r 0 4, f.testBit 0, f.testBit 1, f.testBit 2, f.testBit 3, s.now⟩
  | 2 =>
    let left := beAt r 0 2
    let t := fld (s.pduEnt i) 16 16
    if left = 0xFFFF then s.setRxp i ⟨some (s.now : Int), decide (t ≠ 0), decide (t ≠ 0)⟩
    else s.setRxp i ⟨some ((s.now : Int) + ((left * 1000000 : Nat) : Int) - ((t * 1000000 : Nat) : Int)), false, false⟩
  | 3 =>
    let pay := (r.drop 4).take (beAt r 2 2)
    s.setTxp i { s.txp i with
      alive := beAt r 0 1, sentAt := some s.now, lastSent := s.placeValues (s.pduEnt i) pay, deferred := none, lastPay := pay }
  | 4 =>
    let e := s.cauEnt i
    let fv := beAt r 0 4
    if e.state = 0 then s
    else
      let s := s.cauSetFv i fv
      if e.tx ∧ e.rsvEnd ≤ fv + 1 then s.reserve 3 i (nextBlockEnd fvBlock (fv + 1)) else s
  | 5 =>
    let l := i / 64
    let f := i % 64
    let s := (s.wr (Reg.LIN_PUB_LO l f) (wd (ofLE ((r.drop 4).take 4)))).wr (Reg.LIN_PUB_HI l f) (wd (ofLE ((r.drop 8).take 4)))
    if l < 8 then s.wf (Reg.LIN_FRAME l f) 8 2 (beAt r 0 1 % 4) else s
  | _ => s

/-- Apply the records of a body, from FIRST. -/
def State.syncBody (s : State) (b : List Byte) : State :=
  ((splitRecs (beAt b 0 1) (beAt b 2 2) (b.drop 8)).foldl
    (fun (a : Nat × State) r => (a.1 + 1, a.2.syncApply (beAt b 0 1) a.1 r)) (beAt b 4 4, s)).2

/-- TWIN_SYNC_DATA_RX: a joining secondary keeps the records; Confluence takes nothing until SYNC_END. -/
def State.syncDataRx (s : State) (b : List Byte) : State :=
  s.twinRx 7 20 b fun s =>
    if !syncWhole b then s.evt Reg.TWN_BAD_MSG
    else if s.twn.state = 2 then
      s.setTwn { s.twn with holdCfl := true, sync := ⟨s.twn.sync.bodies ++ [(b.take (syncLen b)).drop 12], false⟩ }
    else s

/-- TWIN_SYNC_END_RX: the records are applied if their digest matches, else the join restarts. [DEDUCED, log entry 61] -/
def State.syncEndRx (s : State) (b : List Byte) : State :=
  s.twinRx 8 32 b fun s =>
    if s.twn.state ≠ 2 then s
    else if (b.drop 24).take 8 = syncDigest s.twn.sync.bodies then
      let s := s.twn.sync.bodies.foldl State.syncBody s
      (s.setTwn { s.twn with holdCfl := false, sync := ⟨[], true⟩ }).joinDone
    else s.twinJoin

/-! ### The Reach roster (R372-R374) -/

/-- The management subsystem works: running, not restarting, not halted. -/
def State.mgsUp (s : State) : Bool := s.mgs.running && !s.mgs.down && !s.mgs.halted

/-- ROSTER_CHECK: each VALID entry with CHECK is asked for its report with a fresh nonce. The in-band frames that carry it are left out: the
spec gives neither their addresses nor their key. [DEDUCED, log entry 61] -/
def State.rosterCheck (s : State) : State :=
  if !s.mgsUp then s
  else (s.twn.roster.filter (fun p => p.2.valid && p.2.check)).foldl (fun s p =>
    let (n, s) := s.trng 16
    s.setTwn { s.twn with checks := Tab.set (fun _ => none) s.twn.checks p.1 (some n) }) s

/-- The RESULT and FAILS of an entry become known; a change of RESULT raises ROSTER and is logged. -/
def State.rosterSet (s : State) (n : Nat) (e : RstEnt) : State :=
  let was := (s.rst n).result
  let s := (s.setRst n e).setTwn { (s.setRst n e).twn with checks := Tab.set (fun _ => none) s.twn.checks n none }
  if e.result = was then s
  else (s.raise .twn 0 Irq.TWN_ROSTER).logEvt .twn 0 Irq.TWN_ROSTER 0 false (toBE 2 n ++ toBE 1 e.result) n

/-- ROSTER_REPORT: node n's report, or an empty list when 1 s has passed without a verified one. [DEDUCED, log entry 61] -/
def State.rosterReport (s : State) (n : Nat) (rep : List Byte) : State :=
  match Tab.get (fun _ => none) s.twn.checks n with
  | none => s
  | some nonce =>
    let e := s.rst n
    if !s.mgsUp then s
    else if rep.isEmpty then
      let f := min (e.fails + 1) 255
      s.rosterSet n { e with fails := f, result := if 3 ≤ f then 3 else e.result }
    else if !reportOk rep nonce then s
    else if reportDigest rep ≠ e.digest then s.rosterSet n { e with result := 2 }
    else if beAt rep 1 1 ≠ 1 then s.rosterSet n { e with result := 4 }
    else if beAt rep 8 1 = 2 ∧ !e.allowE2 then s.rosterSet n { e with result := 5 }
    else s.rosterSet n { e with result := 1, fails := 0, lastOk := s.now / 1000000000 % 2 ^ 32 }

/-- ROSTER_ADD: none when it is refused. -/
def State.rosterAdd (s : State) (arg : List Byte) : Option State :=
  let n := beAt arg 0 2
  let f := beAt arg 2 1
  if arg.length < 35 ∨ 511 < n ∨ 16 ≤ f ∨ (s.rst n).valid then none
  else some (s.setRst n ⟨true, f.testBit 0, f.testBit 1, f.testBit 2, f.testBit 3, (arg.drop 3).take 32, 0, 0, 0⟩)

/-- ROSTER_REMOVE. -/
def State.rosterRemove (s : State) (arg : List Byte) : Option State :=
  let n := beAt arg 0 2
  if arg.length < 2 ∨ 511 < n ∨ !(s.rst n).valid then none else some (s.setRst n RstEnt.empty)

/-- ROSTER_REPLACE: RESULT unchecked, FAILS 0. -/
def State.rosterReplace (s : State) (arg : List Byte) : Option State :=
  let n := beAt arg 0 2
  if arg.length < 34 ∨ 511 < n ∨ !(s.rst n).valid then none
  else some (s.setRst n { s.rst n with digest := (arg.drop 2).take 32, result := 0, fails := 0 })

/-! ### The counter writer (R318) -/

/-- COUNTER_RESERVE: the oldest record requested is in MRAM, and what waited for it goes on (R190, R317, R333, R340). -/
def State.counterReserve (s : State) : State :=
  match s.vlt.rsvq with
  | [] => s
  | r :: q =>
    let s := { s with vlt := { s.vlt with rsvq := q } }.ringAppend r
    match r.kind with
    | 1 => s.fgdReserved r.index r.value
    | 2 => let a := s.sa r.index; if a.state = 0 then s else s.setSa r.index { a with rsvEnd := max a.rsvEnd r.value }
    | 3 => let e := s.cauEnt r.index; if e.state = 0 then s else s.setCau r.index { e with rsvEnd := max e.rsvEnd r.value }
    | _ => s

end Sys2Proof.Machine
end

