-- ==== Sys2Proof/Machine/Reset.lean ====
section
/-! DEFINITION. Block resets (R31, R129, R162, R190, R284, R477) and quiescing (R385). -/

namespace Sys2Proof.Machine

/-! ### The Basin (R129) -/

/-- What a port's transmitter holds ends with the poison tail. -/
def State.flushPort (s : State) (p : Nat) : State :=
  let e := s.eg p
  let cut := fun (s : State) (x : Option Tx) =>
    match x with
    | none => s
    | some x =>
      match s.copyAt x.fid x.idx with
      | some (f, c) => (s.poisonOne f 6 { c with ct := true }).emit (.frameEnd p true)
      | none => s.emit (.frameEnd p true)
  let s := if s.dmaPort p ∨ 23 ≤ p then s else cut (cut s e.tx) e.susp
  (s.setEg p { e with tx := none, susp := none, frag := 0 }).setEport p { s.eport p with coll := 0 }

/-- The copies of a stored frame that are dropped with reason FLUSH: those not being sent. -/
def State.flushFrame (s : State) (f : Frame) : State :=
  f.copies.foldl (fun s c => if c.live && decide (c.st ≠ .sending) then s.anyDrop c.dest 7 f.handle (c.eddy.map Prod.fst) else s) s

/-- A CAN transmit list: every copy but the one on the wire is dropped with reason FLUSH. -/
def State.flushTxl (s : State) (c : Nat) : State :=
  let x := s.cch c
  x.txl.foldl (fun s _ => s.bsnDrop (26 + c) 7 none) (s.setCch c { x with txl := [] })

/-- Every stored frame is dropped, and the free list rebuilt. -/
def State.basinDrop (s : State) : State :=
  let s := s.stored.foldl State.flushFrame s
  let s := (List.range 24).foldl State.flushTxl s
  let s := (List.range 26).foldl State.flushPort s
  { s.fgdLost with bsn := { s.bsn with
      frames := [], queues := [], repl := [], suspects := [], lost := [], moved := [], auditOn := false, auditDue := false,
      arriving := (s.bsn.arriving.map (fun (k, a) => (k, a.map (fun a => { a with fid := none })))) } }

/-- SOFT_RST of the BSN page: everything is dropped, every FIFO reset with a marker where it loses something, the seed its reset value. [DESIGN CHOICE, log entry 27] -/
def State.basinReset (s : State) : State :=
  let s := s.basinDrop
  let s := (List.range 24).foldl
    (fun s r => if (s.rxf r).recs.isEmpty ∧ (s.rxf r).pend = 0 then s.setRxf r RxFifo.reset else s.rxReset r) s
  { s with bsn := { s.bsn with tx := [], seed := 0x5D2A91C4, poisoned := false } }

/-! ### The state of each block (R31) -/

/-- Every commit in flight completes, then the staging of every master is discarded and TAP_COMMIT counts from 0 again. -/
def State.tapSettle (s : State) : State :=
  { s.commitQ.foldl (fun s _ => s.tapCommitFinish) s with stage := [], commits := 0 }

/-- The state of a block besides its registers and slots returns to its reset state; what is in flight is settled first. [DEDUCED, log entry 16] -/
def State.blockReset (s : State) (b : Blk) (i : Nat) : State :=
  match b with
  | .tap => s.tapSettle
  | .glb => { s with fences := [], holds := [] }
  | .cru => { s with pwr := { s.pwr with gates := [] } }
  | .srt => { s with bsn := { s.bsn with minInt := [] } }
  | .lrn => { s.adtFinish with lrn := { LrnSt.reset with lastAdv := s.now, nextAdv := s.now + 1000000000 } }
  | .bsn => s.basinReset
  | .rak =>
    { s with bsn := { s.bsn with
      auditOn := false, auditDue := false, moved := [], suspects := [], lost := s.bsn.lost ++ s.bsn.suspects, lastDur := 0 } }
  | .egs => let e := s.eg i; (s.setEg i { Egr.reset with tx := e.tx, susp := e.susp, frag := e.frag, creditAt := s.now }).budDue i
  | .wei => { s with meters := Tab.keep (fun k => decide (3072 ≤ k)) s.meters }
  | .slu => (s.setSluice i Sluice.reset).budDue i
  | .bud =>
    let s := (List.range 1024).foldl (fun s k => if (s.resv k).state = 0 then s else s.resvFree k) s
    { s with bud := { s.bud with work := [] } }
  | .had => ({ s with had := { s.had with ports := [], lastCand := none } } : State).vltDrop
      (fun o => decide (o.op = VOp.proof) || decide (o.op = VOp.verdict))
  | .fgd => { s with fgd := s.fgd.map (fun (k, v) => (k, { View.reset with rseq := v.rseq, rsvEnd := v.rsvEnd, warned := v.warned, wait := v.wait })) }
  | .fre => { s with fre := [] }
  | .ept => (s.linkDrop i true).setEport i Ept.reset
  | .can =>
    let x := s.cch i
    let s := s.txlFlush i
    let s := match x.wire with | some w => s.copyDone w.fid w.idx | none => s
    { s.setCch i CanSt.reset with auth := { s.auth with waiting := s.auth.waiting.filter (fun w => decide (w.1 ≠ i)) } }
  | .lin => s.setLch i LinSt.reset
  | .cfl => s.cflReset
  | .tim => { s with tim := { s.tim with pd := [], seqs := [], doms := s.tim.doms.map (fun (k, d) => (k, { d with wait := none })) } }
  | .dom => s.setDom i { Dom.reset with stepped := (s.dom i).stepped + 1 }
  | .vlt => s.vltDrop (fun o => decide (o.op < 0x100))
  | .cau => { s with auth := { s.auth with cau := [] } }
  | .lce => { s.budDue i with auth := { s.auth with sas := s.auth.sas.filter (fun p => decide (p.2.port ≠ i)) } }
  | .mgs => { s with mgs := { s.mgs with syncs := [], planning := [], mail := s.mgs.mail.filter (fun x => decide (0x100 ≤ x.2.1)) } }.vltDrop
      (fun o => decide (o.op = VOp.mail))
  | .upd => { s with mgs := { s.mgs with upd := none, mail := s.mgs.mail.filter (fun x => decide (x.2.1 < 0x100)) } }
  | .mgn => { s with mgs := { s.mgs with avsGoal := 750 } }
  | .svc =>
    let s := (List.range 4).foldl (fun s n => if (s.part n).state = 1 then s.partStop n 0 else s) s
    { s with svc := { s.svc with parts := [], claims := [], release := [], pmp := [] } }
  | .hif =>
    let s := match s.ringPort with | some p => s.portLost p | none => s
    { s.hostRingsOff with hif := { s.hostRingsOff.hif with qspi := 0 } }
  | .twn => s.setTwn { TwnSt.reset with roster := s.twn.roster, digest := s.twn.digest, offset := 0 }
  | _ => s

/-- Registers that keep their value through SOFT_RST: the seeds (R31), TIM_FRC_INC (R284), and what the device reports of the world
outside. [DEDUCED, log entry 16] -/
def keptRegs : List Nat :=
  [Reg.ICT_SEED0, Reg.ICT_SEED0 + 4, Reg.ICT_SEED0 + 8, Reg.ICT_SEED0 + 12, Reg.ADT_SEED0, Reg.ADT_SEED0 + 4, Reg.ADT_SEED0 + 8,
   Reg.ADT_SEED0 + 12, Reg.TIM_FRC_INC, Reg.HIF_STAT, Reg.CRU_CLK_STAT, Reg.CRU_RST_CAUSE, Reg.GPI_IN]

/-- A key of the register store belongs to page `pg` and does not keep its value. [DEDUCED, log entry 16] -/
def resetKey (pg k : Nat) : Bool := decide (k % 0x4000000 / 0x1000 = pg) && !clusterKey k && !keptRegs.contains (k % 0x4000000)

/-- The registers of a page return to their reset values. [DEDUCED, log entry 16] -/
def State.regsReset (s : State) (pg : Nat) : State := { s with regs := Tab.keep (fun k => !resetKey pg k) s.regs }

/-- The first of the eight result slots of a block. -/
def slotBase (b : Blk) : Option Nat :=
  match b with
  | .tap => some (tapSlot 0)
  | .bud => some (budSlot 0)
  | .had => some (hadSlot 0)
  | .vlt => some (vltSlot 0)
  | .mgs => some (mgsSlot 0)
  | .upd => some (updSlot 0)
  | .svc => some (svcSlot 0)
  | _ => none

/-- Every slot of the page returns to idle, SEQ 0 included. [DESIGN CHOICE, log entry 86] -/
def State.slotsReset (s : State) (b : Blk) (pg : Nat) : State :=
  let s := (s.setSlot (snapSlot pg) Slot.reset).setSnap pg Snap.reset
  match slotBase b with
  | some n =>
    let s := (List.range 8).foldl (fun s m => s.setSlot (n + m) Slot.reset) s
    { s with svc := { s.svc with release := s.svc.release.filter (fun k => decide (k < n ∨ n + 8 ≤ k)) } }
  | none => s

/-- A page's block is reset: state, slots, registers. A reset of the HIF page releases the port that carries DMA rings (R195). [DEDUCED, log entry 16] -/
def State.pageReset (s : State) (pg : Nat) : State :=
  match pageOf pg with
  | none => s
  | some (b, i) =>
    let t := (((s.blockReset b i).slotsReset b pg).regsReset pg).msixEval false
    match b, s.ringPort with
    | .hif, some p => t.train p
    | _, _ => t

/-- Writing BLK_CTRL.SOFT_RST: the reset takes place, and the bit reads 1 until it is settled. [DEDUCED, log entry 16] -/
def State.softRst (s : State) (pg : Nat) : State :=
  let s := (s.pageReset pg).wf (Reg.BLK_CTRL (pg * 0x1000)) 2 1 1
  { s with resets := if s.resets.contains pg then s.resets else s.resets ++ [pg] }

/-- SOFT_RST_DONE: the bit clears. -/
def State.softRstDone (s : State) (pg : Nat) : State :=
  if s.resets.contains pg then
    { s.wf (Reg.BLK_CTRL (pg * 0x1000)) 2 1 0 with resets := s.resets.filter (fun k => decide (k ≠ pg)) }
  else s

/-! ### Quiescing (R379, R385) -/

/-- QUIESCE_REQ of a page is written: withdrawn, QUIESCED falls. [DEDUCED, log entry 17] -/
def State.quiesceSet (s : State) (pg : Nat) (on : Bool) : State :=
  let s := s.wf (Reg.BLK_CTRL (pg * 0x1000)) 1 1 (b2n on)
  if on then s else s.wf (Reg.BLK_STAT (pg * 0x1000)) 1 1 0

/-- QUIESCED: the block asked has no outstanding accesses. A transition that waited for it waits no more. [DEDUCED, log entry 17] -/
def State.quiesced (s : State) (pg : Nat) : State :=
  if s.rb (Reg.BLK_CTRL (pg * 0x1000)) 1 then
    let s := s.wf (Reg.BLK_STAT (pg * 0x1000)) 1 1 1
    { s with pwr := { s.pwr with waiting := s.pwr.waiting.filter (fun k => decide (k ≠ pg)) } }
  else s

end Sys2Proof.Machine
end

