-- ==== Sys2Proof/Machine/CfgWrite.lean ====
section
/-! DEFINITION. What a write of a configuration register does (chapters 2 to 17): the effect each register's own rule gives it,
or the plain store of R32. -/

namespace Sys2Proof.Machine

/-! ### BLK_CTRL (Table 2-4) -/

/-- What follows when a block that did (`was`) or did not operate operates or not (R195, R222, R245, R258). [DEDUCED, log entry 17] -/
def State.enChanged (s : State) (b : Blk) (i : Nat) (was : Bool) : State :=
  if s.enabled b i = was then s
  else
    match b with
    | .ept => s.eptEnabled i
    | .can => s.canEnabled i
    | .lin => s.linEnabled i
    | .cfl => s.cflEnabled was
    | _ => s

/-- A write of BLK_CTRL.EN: without effect where it reads 1. EN written 1 again lets a LIN channel that a refused table left in CONFIG try anew
(R247). -/
def State.enWrite (s : State) (b : Blk) (i : Nat) (on : Bool) : State :=
  match b with
  | .glb | .cru | .aon | .mgs | .evl => s
  | .lin => let s := s.wf (Reg.BLK_CTRL (pageBase b i)) 0 1 (b2n on); s.linEnabled i
  | _ => (s.wf (Reg.BLK_CTRL (pageBase b i)) 0 1 (b2n on)).enChanged b i (s.enabled b i)

/-- A write of BLK_CTRL: SOFT_RST resets the page; else EN and QUIESCE_REQ take their bits. -/
def State.blkCtrlWrite (s : State) (pg : Nat) (v : Word) : State :=
  match pageOf pg with
  | none => s
  | some (b, i) =>
    if bit v 2 then s.softRst pg
    else
      let s := s.enWrite b i (bit v 0)
      if s.rb (Reg.BLK_CTRL (pg * 0x1000)) 1 = bit v 1 then s else s.quiesceSet pg (bit v 1)

/-! ### Clock gates (R385, R386) -/

/-- Replace a page's gate. -/
def State.setGate (s : State) (pg : Nat) (g : Gate) : State :=
  { s with pwr := { s.pwr with gates := Tab.set (fun _ => Gate.reset) s.pwr.gates pg g } }

/-- A page whose clock is never gated. [DEDUCED, log entry 70] -/
def gateFixed : Blk → Bool
  | .glb | .cru | .aon | .tap | .tim | .vlt | .mgs | .evl | .hif => true
  | _ => false

/-- A gate request that is refused. [DEDUCED, log entry 70] -/
def State.gateRej (s : State) : State := (s.evt Reg.CRU_GATE_REJ).raise .cru 0 Irq.CRU_GATE_REJ

/-- GATE = 1: QUIESCE_REQ is asserted, unless the request is refused. [DEDUCED, log entry 70] -/
def State.gateAsk (s : State) (pg : Nat) : State :=
  match pageOf pg with
  | none => s.gateRej
  | some (b, i) =>
    if gateFixed b ∨ s.enabled b i ∨ !s.blkOn b then s.gateRej
    else (s.setGate pg ⟨true, false, true⟩).quiesceSet pg true

/-- GATE = 0: the request is withdrawn or the clock restarts, and QUIESCE_REQ is released. [DEDUCED, log entry 17] -/
def State.gateFree (s : State) (pg : Nat) : State :=
  match pageOf pg with
  | none => s
  | some (b, i) => ((s.setGate pg Gate.reset).quiesceSet pg false).enChanged b i (s.enabled b i)

/-- A write of CRU_GATE_CTRL for the page CRU_GATE_SEL names. [DEDUCED, log entry 70] -/
def State.gateWrite (s : State) (v : Word) : State :=
  let pg := s.rf Reg.CRU_GATE_SEL 0 14
  if bit v 0 = (s.gate pg).gate then s else if bit v 0 then s.gateAsk pg else s.gateFree pg

/-- GATE_CLOSE: a quiesced block's gate closes; one that has not quiesced in its 64 cycles leaves the request pending (R385). [DEDUCED, log entry 70] -/
def State.gateClose (s : State) (pg : Nat) : State :=
  let g := s.gate pg
  if !g.gate ∨ !g.clkOn then s
  else if s.rb (Reg.BLK_STAT (pg * 0x1000)) 1 then s.setGate pg ⟨true, false, false⟩
  else if g.deferred then s
  else
    (((s.setGate pg ⟨true, true, true⟩).evt Reg.CRU_GATE_DEFER).raise .cru 0 Irq.CRU_GATE_DEFER).logEvt .cru 0 Irq.CRU_GATE_DEFER
      1000000000 false (toBE 2 pg) pg

/-! ### Single registers -/

/-- A write of AON_WSRC_CFG[k] re-arms the source (R393). -/
def State.wsrcWrite (s : State) (m k : Nat) (v : Word) : State := (s.plainWrite m (Reg.AON_WSRC_CFG k) v).rearm k

/-- A write of AON_CLK_CFG: a crystal that is disabled is judged anew when it is enabled again (R382). -/
def State.clkCfgWrite (s : State) (m : Nat) (v : Word) : State :=
  let s := s.plainWrite m Reg.AON_CLK_CFG v
  if bit v 0 then s else s.wf Reg.CRU_CLK_STAT 1 1 0

/-- A write of PFC_CNT_LO (`hi` false) or PFC_CNT_HI of counter i: a preset while EN = 0, with WRAP cleared by a 1; ignored while
EN = 1 (R430). [DEDUCED, log entry 78] -/
def State.pfcWrite (s : State) (i : Nat) (hi : Bool) (v : Word) : State :=
  if s.rb (Reg.PFC_SEL i) 16 then s
  else if hi then
    let s := s.wf (Reg.PFC_CNT_HI i) 0 16 (fld v 0 16)
    if bit v 31 then s.wf (Reg.PFC_CNT_HI i) 31 1 0 else s
  else s.wr (Reg.PFC_CNT_LO i) v

/-- The lines that the partner's GPIO_OUT drives (R470). [DEDUCED, log entry 79] -/
def State.gpioHeld (s : State) : Word :=
  if s.rb Reg.TWN_CFG 0 ∧ s.secondary then s.rd Reg.TWN_GPIO_MASK else 0

/-- A write of GPI_OUT: held lines keep their bit, and a write that would change one is counted (R469, R470). [DEDUCED, log entry 79] -/
def State.gpioWrite (s : State) (v : Word) : State :=
  let h := s.gpioHeld
  let old := s.rd Reg.GPI_OUT
  let s := s.wr Reg.GPI_OUT ((old &&& h) ||| (v &&& ~~~h))
  if (old ^^^ v) &&& h = 0 then s else (s.evt Reg.GPI_OUT_REJ).raise .gpi 0 Irq.GPI_OUT_REJ

/-- GPIO_EDGE: line n's filtered level becomes `level`; a change in a direction that is enabled sets GPI_EDGE (R469). [DEDUCED, log entry 79] -/
def State.gpioEdge (s : State) (n : Nat) (level : Bool) : State :=
  if !s.pwr.mgsOn ∨ s.rb Reg.GPI_IN n = level then s
  else
    let s := s.wf Reg.GPI_IN n 1 (b2n level)
    if s.rb (if level then Reg.GPI_RISE_EN else Reg.GPI_FALL_EN) n then (s.wf Reg.GPI_EDGE n 1 1).raise .gpi 0 Irq.GPI_EDGE else s

/-- A second slave port of a domain in a value of TIM_PORT_CFG[p] (R286). [DEDUCED, log entry 52] -/
def State.secondSlave (s : State) (p : Nat) (v : Word) : Bool :=
  (List.range 4).any fun d =>
    decide (fld v (16 + 2 * d) 2 = 2) && (match s.slavePort d with | some q => decide (q ≠ p) | none => false)

/-- A write of TIM_PORT_CFG[p]. [DEDUCED, log entry 52] -/
def State.ptpCfgWrite (s : State) (m p : Nat) (v : Word) : State :=
  if s.secondSlave p v then (s.evt Reg.TIM_CFG_ERR).raise .tim 0 Irq.TIM_CFG_ERR else s.plainWrite m (Reg.TIM_PORT_CFG p) v

/-- TIM INT_RAW[3] follows SRV_INT AND SRV_INT_EN (R295). -/
def State.srvLevel (s : State) : State :=
  let a := Reg.INT_RAW (pageBase .tim 0)
  (s.wf a Irq.TIM_SRV_INT 1 (b2n (decide (s.rd Reg.SRV_INT &&& s.rd Reg.SRV_INT_EN ≠ 0)))).msixEval false

/-- A write of CAN_MODE's page register: timing registers are fixed outside CONFIG (R222). -/
def State.canWrite (s : State) (m c a : Nat) (v : Word) : State :=
  let off := a % 0x1000
  if off = 0x80 then s.canModeWrite m c v
  else if 0x84 ≤ off ∧ off ≤ 0x98 then s.canTimingWrite m c a v
  else s.plainWrite m a v

/-- A write of an EGS register. -/
def State.egsWrite (s : State) (m p a : Nat) (v : Word) : State :=
  let off := a % 0x1000
  if off = 0x80 then s.egsPortWrite m p v
  else if 0xA0 ≤ off ∧ off < 0xC0 then s.egsTcWrite m p ((off - 0xA0) / 4) v
  else if 0xC0 ≤ off ∧ off < 0xE0 then s.egsSlopeWrite m p ((off - 0xC0) / 4) v
  else s.plainWrite m a v

/-- A write of a SLU register. -/
def State.sluWrite (s : State) (m p a : Nat) (v : Word) : State :=
  let off := a % 0x1000
  if off = 0x80 then s.sluCtrlWrite m p v
  else if 0x90 ≤ off ∧ off < 0xA8 then s.sluAdminWrite m a p v
  else if off = 0xD4 then s.gclWrite p false v
  else if off = 0xD8 then s.gclWrite p true v
  else s.plainWrite m a v

/-- A write of a BSN register. -/
def State.bsnWrite (s : State) (m a : Nat) (v : Word) : State :=
  let off := a % 0x1000
  if off = 0x80 then s.bsnCfgWrite m v
  else if off = 0x84 ∨ 0x100 ≤ off ∧ off < 0x4C0 then s.qcfgWrite m a v
  else if off = 0x88 then s.flowSeedWrite m v
  else s.plainWrite m a v

/-- A write of a HIF register. -/
def State.hifWrite (s : State) (m a : Nat) (v : Word) : State :=
  let off := a % 0x1000
  if off = 0x80 then s.hifCfgWrite m v
  else if 0x100 ≤ off ∧ off < 0x500 ∧ off % 0x20 = 0xC then s.ringCtrlWrite m ((off - 0x100) / 0x20) v
  else
    match ringAt off with
    | some n => s.ringCfgWrite m n a v
    | none => s.plainWrite m a v

/-- A write of LCE_PORT_CFG of port p: a change of transmit protection makes a re-check of the port due (R160). -/
def State.lceCfgWrite (s : State) (m p : Nat) (v : Word) : State :=
  let t := s.plainWrite m (Reg.LCE_PORT_CFG p) v
  if t.rb (Reg.LCE_PORT_CFG p) 0 = s.rb (Reg.LCE_PORT_CFG p) 0 then t else t.budDue p

/-! ### Every configuration register -/

/-- A write of a register of block b, instance i, beyond the common header. [DESIGN CHOICE, log entry 6] -/
def State.ownWrite (s : State) (b : Blk) (i m a : Nat) (v : Word) : State :=
  let off := a % 0x1000
  match b with
  | .glb =>
    if a = Reg.GLB_PERM_DATA then s.maskWrite v
    else if 0x400 ≤ off then (s.plainWrite m a v).msixEval false
    else s.plainWrite m a v
  | .cru => if a = Reg.CRU_GATE_CTRL then s.gateWrite v else s.plainWrite m a v
  | .aon => if 0x100 ≤ off ∧ off < 0x1BC then s.wsrcWrite m ((off - 0x100) / 4) v
    else if a = Reg.AON_CLK_CFG then s.clkCfgWrite m v else s.plainWrite m a v
  | .pfc => if 0x100 ≤ off ∧ off < 0x500 ∧ 8 ≤ off % 0x10 then s.pfcWrite ((off - 0x100) / 0x10) (decide (12 ≤ off % 0x10)) v else s.plainWrite m a v
  | .twn => if a = Reg.TWN_CFG then s.twinCfgWrite m v else s.plainWrite m a v
  | .hif => s.hifWrite m a v
  | .gpi => if a = Reg.GPI_OUT then s.gpioWrite v else s.plainWrite m a v
  | .ict => s.seedWrite m a v
  | .adt => if off < 0x90 then s.seedWrite m a v else s.plainWrite m a v
  | .lrn =>
    if a = Reg.LRN_AGE then s.lrnAgeWrite m v
    else if 0x100 ≤ off ∧ off < 0x200 ∧ off % 0x10 = 0 then s.anchorCtrlWrite m ((off - 0x100) / 0x10) v
    else s.plainWrite m a v
  | .bsn => s.bsnWrite m a v
  | .edy => if 0x100 ≤ off ∧ off < 0x200 ∧ off % 0x20 = 0xC then s.edyRateWrite m ((off - 0x100) / 0x20) v else s.plainWrite m a v
  | .egs => s.egsWrite m i a v
  | .slu => s.sluWrite m i a v
  | .bud => if a = Reg.BUD_CFG then s.budCfgWrite m v else s.plainWrite m a v
  | .had => if 0x100 ≤ off ∧ off < 0x180 ∧ off % 0x10 = 0 then s.hadPortWrite m ((off - 0x100) / 0x10) v else s.plainWrite m a v
  | .ept => if off = 0x80 then s.eptCfgWrite m i v else s.eptWrite m i a v
  | .can => s.canWrite m i a v
  | .tim =>
    if a = Reg.TIM_FRC_INC then s.frcIncWrite v
    else if 0x100 ≤ off ∧ off < 0x270 ∧ off % 0x10 = 0 then s.ptpCfgWrite m ((off - 0x100) / 0x10) v
    else s.plainWrite m a v
  | .dom =>
    if off = 0x80 then s.domCfgWrite m i v
    else if off = 0xD0 then s.domRateMaxWrite m i v
    else s.plainWrite m a v
  | .srv => if a = Reg.SRV_INT_EN then (s.plainWrite m a v).srvLevel else s.plainWrite m a v
  | .lce => if off = 0x80 then s.lceCfgWrite m i v else s.plainWrite m a v
  | .svc => if a = Reg.SVC_DDR_CFG then s.ddrCfgWrite m v else s.plainWrite m a v
  | _ => s.plainWrite m a v

/-- A write of a configuration register (RW or RWL) by master m, once no rule stops it. [DESIGN CHOICE, log entry 6] -/
def State.cfgWrite (s : State) (m a : Nat) (v : Word) : State :=
  match pageOf (a / 0x1000) with
  | none => s
  | some (b, i) =>
    if b ≠ .srv ∧ a % 0x1000 < 0x80 then
      if a % 0x1000 = 0x10 then s.blkCtrlWrite (a / 0x1000) v
      else if a % 0x1000 = 0x1C then (s.plainWrite m a (v &&& wd (intMask b))).msixEval false
      else s
    else s.ownWrite b i m a v

end Sys2Proof.Machine
end

