-- ==== Sys2Proof/Machine/Evl.lean ====
section
/-! DEFINITION. The event log (R37, R416-R419): records, rings, hash chains, checkpoints. -/

namespace Sys2Proof.Machine

/-- Records the general ring holds: 3 MiB of 32 bytes (Table 15-3). -/
def genSize : Nat := 98304
/-- Records the security ring holds (R419). -/
def secSize : Nat := 28672

/-- A record as written (Table 15-4). -/
def LogReq.bytes (r : LogReq) (seq : Nat) : List Byte :=
  toBE 8 r.time ++ toBE 2 r.type ++ toBE 2 r.source ++ toBE 4 seq ++ fit 16 r.payload

/-- TYPE.SEC. -/
def LogReq.sec (r : LogReq) : Bool := r.type.testBit 15

/-- A SNAPSHOT record, which the rate limit exempts (R416). -/
def LogReq.snapshot (r : LogReq) : Bool := decide (r.type = 0x2010)

/-- Replace the management subsystem's state. -/
def State.setMgs (s : State) (v : MgsSt) : State := { s with mgs := v }

/-- The head of a chain after a record (R417). -/
def chain (h r : List Byte) : List Byte := shake (ascii "EVL-CHAIN" ++ h ++ r) 32

/-- A checkpoint's first 116 bytes (Table 15-6). -/
def State.ckptBody (s : State) : List Byte :=
  [0x01, 0, 0, 0] ++ toBE 4 s.mgs.lastSeq ++ toBE 8 s.mgs.countGen ++ toBE 8 s.mgs.countSec ++ s.mgs.hGen ++ s.mgs.hSec ++
  toBE 8 s.now ++ toBE 4 s.vlt.boot ++ toBE 4 s.mgs.fwVer ++ fit 8 s.vlt.dsn ++ toBE 2 (s.rf Reg.VLT_NODE 0 9) ++ [0, 0]

/-- Write a checkpoint: unsigned while the Vault is not OPEN (R418). The area holds the newest 512. -/
def State.checkpoint (s : State) : State :=
  let b := s.ckptBody
  let sig := if s.vltOpen then s.dikSign "EVL-CHECKPOINT" b else List.replicate 114 0
  let s := if s.vltOpen then s else s.evt Reg.EVL_CKPT_UNSIGNED
  (s.setMgs { s.mgs with ckpts := (s.mgs.ckpts ++ [fit 256 (b ++ sig)]).drop (s.mgs.ckpts.length + 1 - 512) }).raise .evl 0 Irq.EVL_CKPT

/-- Take a record into the general ring, which overwrites its oldest. [DEDUCED, log entry 74] -/
def State.genWrite (s : State) (r : LogRec) : State :=
  let m := s.mgs
  s.setMgs { m with gen := (m.gen ++ [r]).drop (m.gen.length + 1 - genSize), countGen := m.countGen + 1, hGen := chain m.hGen r.bytes }

/-- Take a record into the security ring (R419): a full ring overwrites its oldest record, acknowledged or not. [DEDUCED, log entry 74] -/
def State.secWrite (s : State) (r : LogRec) : State :=
  let m := s.mgs
  let full := decide (secSize ≤ m.sec.length)
  let lost := full && decide (m.sec.length ≤ m.unacked)
  let s := s.setMgs { m with
    sec := (m.sec ++ [r]).drop (m.sec.length + 1 - secSize), countSec := m.countSec + 1, hSec := chain m.hSec r.bytes,
    unacked := if lost then m.unacked else m.unacked + 1 }
  let s := if lost then (s.evt Reg.EVL_SEC_OVERWRITE).raise .evl 0 Irq.EVL_SEC_OVERWRITE else s
  if !lost ∧ m.unacked + 1 = s.rf Reg.EVL_SEC_WARN 0 15 then s.raise .evl 0 Irq.EVL_SEC_WARN else s

/-- A record is written: it takes the next SEQ, and every 4,096th is followed by a checkpoint (R418). -/
def State.logWrite (s : State) (r : LogReq) : State :=
  let n := (s.mgs.lastSeq + 1) % 2 ^ 32
  let e : LogRec := ⟨n, r.bytes n⟩
  let s := s.setMgs { s.mgs with lastSeq := n }
  let s := (if r.sec then s.secWrite e else s.genWrite e).stat Reg.EVL_TOTAL 1
  if (s.mgs.countGen + s.mgs.countSec) % 4096 = 0 then s.checkpoint else s

/-- The general ring's rate limit in the present second of FRC time (R416): the state with its second current. -/
def State.rateNow (s : State) : State :=
  let t := s.now / 1000000000
  if s.mgs.rateSec = t then s else s.setMgs { s.mgs with rateSec := t, rateCount := 0 }

/-- A request is written, or suppressed when the second has its RATE_MAX records. [DEDUCED, log entry 74] -/
def State.logTake (s : State) (r : LogReq) : State :=
  if r.sec ∨ r.snapshot then s.logWrite r
  else
    let s := s.rateNow
    if s.mgs.rateCount < s.rf Reg.EVL_CFG 0 16 then (s.setMgs { s.mgs with rateCount := s.mgs.rateCount + 1 }).logWrite r
    else ((s.setMgs { s.mgs with supp := s.mgs.supp + 1, suppAt := s.mgs.rateSec }).evt Reg.EVL_SUPPRESSED).raise .evl 0 Irq.EVL_SUPPRESSED

/-- EVENT_LOG_WRITE: the oldest request is written, while firmware works. [DEDUCED, log entry 74] -/
def State.logFront (s : State) : State :=
  match s.mgs.logQ with
  | [] => s
  | r :: q => if s.mgsUp then (s.setMgs { s.mgs with logQ := q }).logTake r else s

/-- Every request is written. -/
def State.logFlush (s : State) : State :=
  let q := s.mgs.logQ
  q.foldl State.logTake (s.setMgs { s.mgs with logQ := [] })

/-- SUPPRESSED: in a later second, one record of how many were suppressed (R416). [DEDUCED, log entry 74] -/
def State.suppressed (s : State) : State :=
  if s.mgsUp ∧ 0 < s.mgs.supp ∧ s.mgs.suppAt < s.now / 1000000000 then
    let r : LogReq := ⟨s.now, 0x2011, 0x3FFF, toBE 4 s.mgs.supp⟩
    (s.setMgs { s.mgs with supp := 0 }).logTake r
  else s

/-- SEC_ACK of records up to SEQ `n`: those of the ring at most 2^31 behind it are acknowledged (R419). -/
def State.secAck (s : State) (n : Nat) : State :=
  let upto := fun (r : LogRec) => decide ((n + 2 ^ 32 - r.seq) % 2 ^ 32 < 2 ^ 31)
  let k := (s.mgs.sec.filter upto).length
  let left := s.mgs.sec.length - k
  s.setMgs { s.mgs with acked := n, unacked := min s.mgs.unacked left }

/-- The words of a page's captured counters, in address order, as the SNAPSHOT record hashes them. [DESIGN CHOICE, log entry 75] -/
def snapBytes (t : Tab Word) : List Byte := t.flatMap (fun p => toBE 8 p.1 ++ toBE 4 p.2.toNat)

/-- A SNAPSHOT record of each page's capture. [DESIGN CHOICE, log entry 75] -/
def State.snapLog (s : State) : State :=
  snapPages.foldl (fun s pg => s.logReq 0x2010 pg ((shake (snapBytes (s.snap pg).regs) 32).take 16)) s

/-- Checkpoint k, 0 the newest. -/
def State.ckptAt (s : State) (k : Nat) : Option (List Byte) := s.mgs.ckpts.reverse[k]?

/-- The record with a SEQ, in either ring. -/
def State.recAt (s : State) (n : Nat) : Option (LogRec × Bool) :=
  match s.mgs.gen.find? (fun r => decide (r.seq = n)) with
  | some r => some (r, false)
  | none => (s.mgs.sec.find? (fun r => decide (r.seq = n))).map (fun r => (r, true))

end Sys2Proof.Machine
end

