-- ==== Sys2Proof/Machine/Restore.lean ====
section
/-! DEFINITION. What the configuration journal records of a page, and its restore (R377, R400, R411-R415). -/

namespace Sys2Proof.Machine

/-! ### Recording -/

/-- A register-store key holds configuration of page `pg`: its RWL and RW registers, no banked ones, no write masks (R411). -/
def cfgKey (pg k : Nat) : Bool :=
  decide (k < 0x4000000) && decide (k / 0x1000 = pg) && decide (k ≠ Reg.GLB_PERM_SEL) && decide (k ≠ Reg.GLB_PERM_DATA) &&
  match pageOf pg with
  | some (b, _) =>
    (match findReg b (k % 0x1000) with
     | some (d, _) => (decide (d.acc = .rw) || decide (d.acc = .rwl)) && !d.banked
     | none => false)
  | none => false

/-- The items a page's block holds behind its command registers. [DEDUCED, log entry 72] -/
def State.pageItems (s : State) (b : Blk) (i : Nat) : List JItem :=
  match b with
  | .wei => (s.meters.filter (fun p => decide (p.1 < 3072))).map (fun p => .meter p.1 { p.2 with tc := 0, tp := 0, last := 0 })
  | .fre => s.fre.map (fun p => .fn p.1 p.2)
  | .fgd => s.fgd.map (fun p => .view p.1 (match p.2.pendW with | some w => w | none => p.2.w))
  | .lce => (s.auth.sas.filter (fun p => decide (p.2.port = i))).map (fun p => .sa p.1 p.2)
  | .cau => s.auth.cau.map (fun p => .cau p.1 p.2)
  | .slu => if (s.sluice i).admin.isEmpty then [] else [.gcl (s.sluice i).admin]
  | _ => []

/-- The journal's record of a page's configuration (KIND 0x0002, or 0x0008 for a page of settings). [DEDUCED, log entry 72] -/
def State.pageRecord (s : State) (pg : Nat) : JBody :=
  match pageOf pg with
  | some (b, i) => .regs pg (Tab.keep (cfgKey pg) s.regs) (s.pageItems b i)
  | none => .regs pg [] []

/-- The write masks, by their keys in the register store (KIND 0x0003). -/
def State.maskVals (s : State) : Tab Word :=
  Tab.keep (fun k => decide (k % 0x4000000 = Reg.GLB_PERM_DATA) && decide (0x100000000 ≤ k)) s.regs

/-- The mapped pages of a range whose domains are on. -/
def State.pagesOn (s : State) (lo hi : Nat) : List Nat :=
  (List.range 0x101).filter fun pg =>
    decide (lo ≤ pg) && decide (pg ≤ hi) && (match pageOf pg with | some (b, _) => s.blkOn b | none => false)

/-- One more record of a range; JOURNAL_FULL stays with a range of which a record did not fit. [DEDUCED, log entry 72] -/
def State.saveAdd (s : State) (b : JBody) : State :=
  let t := (s.journalAdd b).2
  { t with mgs := { t.mgs with jfull := s.mgs.jfull || t.mgs.jfull } }

/-- The pages of a range are recorded, and the write masks with the GLB page (R412). [DEDUCED, log entry 72] -/
def State.saveRange (s : State) (lo hi : Nat) : State :=
  let s := { s with mgs := { s.mgs with jfull := false } }
  let s := (s.pagesOn lo hi).foldl (fun s pg => s.saveAdd (s.pageRecord pg)) s
  if lo = 0 then s.saveAdd (.masks s.maskVals) else s

/-- The commit journalled longest ago waits no more: its record is appended, and what waited for it completes (R412, R414). -/
def State.commitRecord (s : State) : State :=
  match s.mgs.commits with
  | [] => s
  | l :: q =>
    if !s.mgsUp then s
    else
      let s := ((s.setMgs { s.mgs with commits := q }).journalAdd (.tap l)).2
      let res := if s.mgs.jfull then codeRes 0x81 else dataRes Code.ok [wd s.mgs.jseq, wd (s.mgs.jseq >>> 32)]
      let due := s.mgs.syncs.filter (fun x => decide (x.2 ≤ 1))
      let left := (s.mgs.syncs.filter (fun x => decide (1 < x.2))).map (fun x => (x.1, x.2 - 1))
      due.foldl (fun s x => s.complete (mgsSlot x.1) res) (s.setMgs { s.mgs with syncs := left })

/-- JOURNAL_COMPACT: the newest record of each item into the other half, which becomes the active one (R414). [DEDUCED, log entry 72] -/
def State.compact (s : State) : State :=
  if s.mgsUp then s.setMgs { s.mgs with journal := journalLive s.mgs.journal, jhalf := !s.mgs.jhalf } else s

/-! ### Resuming the security counters (R190, R333, R340, R400) -/

/-- A value of the sleep record. -/
def recVal (l : List (Nat × Nat)) (i : Nat) : Option Nat := (l.find? (fun p => decide (p.1 = i))).map Prod.snd

/-- A transmit value after a start-up: the sleep record's on a wake, else the start of the first block not yet reserved; with the
end of what is reserved. [DEDUCED, log entry 58] -/
def resumeTx (ring slept : Option Nat) (v blk : Nat) : Nat × Nat :=
  let e := ring.getD (nextBlockEnd blk v - blk)
  match slept with
  | some x => (x, e)
  | none => (max v e, max v e)

/-- A secure association of the journal is LOADING; a transmit SA resumes its PN (R333); one whose PNs are used up is EXHAUSTED (R332). [DEDUCED, log entry 73] -/
def State.saRestore (s : State) (n : Nat) (a : Sa) : State :=
  let a := { a with state := if a.state = 0 then 0 else 1, warn := false, retire := false, key := none }
  if a.rx ∨ a.state = 0 then s.setSa n a
  else
    let slept := match s.pwr.record with | some r => recVal r.pns n | none => none
    let (pn, e) := resumeTx (s.ringLast 2 n) slept a.pn pnBlock
    if a.lastPn < pn then s.setSa n { a with pn := pn, rsvEnd := e, state := 3 }
    else (s.setSa n { a with pn := pn, rsvEnd := e }).reserve 2 n (nextBlockEnd pnBlock pn)

/-- A CAU entry of the journal waits for its key; its FV resumes (R340). [DEDUCED, log entry 73] -/
def State.cauRestore (s : State) (n : Nat) (x : CauEnt) : State :=
  let x := { x with state := if x.state = 0 then 0 else 2, warn := false }
  let slept := match s.pwr.record with | some r => recVal r.fvs n | none => none
  if x.state = 0 then s.setCau n x
  else if x.tx then
    let (fv, e) := resumeTx (s.ringLast 3 n) slept x.fv fvBlock
    -- the entry issues FV + 1 next
    let fv := if slept.isSome then fv else fv - 1
    let s := s.setCau n { x with fv := fv, rsvEnd := e, recorded := fv }
    s.reserve 3 n (nextBlockEnd fvBlock (fv + 1))
  else
    let fv := match slept with | some v => v | none => max x.fv ((s.ringLast 4 n).getD 0)
    s.setCau n { x with fv := fv, recorded := fv }

/-- A view at a start-up of its domain: OFF, its RSEQ at the end of its last reserved block, or the sleep record's on a wake. -/
def State.viewStart (s : State) (v : Nat) : State :=
  match s.ringLast 1 v with
  | none => s
  | some e =>
    match s.pwr.record with
    | some r => s.setView v { View.reset with rseq := (recVal r.rseqs v).getD e, rsvEnd := e }
    | none => (s.setView v { View.reset with rseq := e, rsvEnd := e }).reserve 1 v (e + rseqBlock)

/-- An item of a page's record is installed. -/
def State.itemRestore (s : State) (p : Nat) : JItem → State
  | .meter i m => s.setMeter i m
  | .fn i f => (s.setFre i f).freReset i
  | .view i w =>
    let x := { s.view i with w := w, pendW := none }
    s.setView i (if bit (w.getD 0 0) 0 then x.live s.now else x)
  | .sa i a => s.saRestore i a
  | .cau i e => s.cauRestore i e
  | .gcl l => s.setSluice p { s.sluice p with admin := l }

/-! ### The restore (R415) -/

/-- A page's record is applied: its items, then its registers, BLK_CTRL last. [DEDUCED, log entry 73] -/
def State.pageRestore (s : State) (pg : Nat) (vals : Tab Word) (items : List JItem) : State :=
  match pageOf pg with
  | none => s
  | some (b, i) =>
    if !s.blkOn b then s
    else
      let s := items.foldl (fun s x => s.itemRestore i x) s
      let ctl := Reg.BLK_CTRL (pg * 0x1000)
      let s := (vals.filter (fun p => decide (p.1 ≠ ctl))).foldl (fun s p => s.cfgWrite 3 p.1 p.2) s
      match vals.find? (fun p => decide (p.1 = ctl)) with
      | some (_, v) => s.cfgWrite 3 ctl (v &&& 1)
      | none => s

/-- The newest record of a page, if the journal has one. -/
def State.pageSaved (s : State) (pg : Nat) : Option (Tab Word × List JItem) :=
  s.ownJournal.reverse.findSome? fun r =>
    match r.body with
    | .regs p v l => if p = pg then some (v, l) else none
    | _ => none

/-- What a page without a record of its own is restored to: the journalled defaults of the TWN page, ROTATE_H 24 and HB_TOL 25 (Table 13-7). [DEDUCED, log entry 73] -/
def pageDefault (pg : Nat) : Tab Word := if pg = 5 then [(Reg.TWN_CFG, 0x32191800)] else []

/-- The pages of a list are restored, ascending. [DEDUCED, log entry 73] -/
def State.pagesRestore (s : State) (l : List Nat) : State :=
  l.foldl (fun s pg =>
    match s.pageSaved pg with
    | some (v, x) => s.pageRestore pg v x
    | none => if (pageDefault pg).isEmpty then s else s.pageRestore pg (pageDefault pg) []) s

/-- The TAP commits of the journal, in order, of the changes that satisfy `p`: one that can no longer be applied is passed over. [DEDUCED, log entry 73] -/
def State.tapRestore (s : State) (p : Staged → Bool) : State :=
  s.ownJournal.foldl (fun s r =>
    match r.body with
    | .tap l => (l.filter p).foldl (fun s x => match s.applyStaged x with | .ok t => t | .error _ => s) s
    | _ => s) s

/-- The reservations of the journal, the newest record of each, then re-checked (R162). -/
def State.resvRestore (s : State) : State :=
  let s := (journalLive s.ownJournal).foldl (fun s r =>
    match r.body with
    | .resv i x => s.setResv i (if x.state = 0 then x else { x with state := 1 })
    | _ => s) s
  let l := (List.range 1024).filter (fun i => decide ((s.resv i).state ≠ 0))
  let s := l.foldl (fun s i => s.envelopes (s.resv i).handle) s
  let ports := (List.range 26).filter (fun p => l.any (fun i => decide ((s.resv i).port = p)))
  ports.foldl State.recheckPort s

/-- The write masks of the journal (R36, R415). -/
def State.masksRestore (s : State) : State :=
  match s.ownJournal.reverse.findSome? (fun r => match r.body with | .masks v => some v | _ => none) with
  | some v => v.foldl (fun s p => s.wr p.1 p.2) s
  | none => s

/-- The subsystem IDs of the journal. -/
def State.idsRestore (s : State) : State :=
  match s.ownJournal.reverse.findSome? (fun r => match r.body with | .settings v => some v | _ => none) with
  | some v => { s with mgs := { s.mgs with ids := v }, hif := { s.hif with subsys := v } }
  | none => s

/-- Mapped pages of a domain, ascending. -/
def domPages (mgs : Bool) : List Nat :=
  (List.range 0x101).filter fun pg => match pageOf pg with | some (b, _) => mgsDomain b == mgs | none => false

/-- What the management subsystem restores of the MGS domain: write masks, its pages, settings. The AON page keeps its registers
except after a power-on reset. [DEDUCED, log entry 73] -/
def State.mgsRestore (s : State) (aon : Bool) : State :=
  let l := (domPages true).filter (fun pg => aon || decide (pg ≠ 2))
  let s := (s.settingsReset.masksRestore.pagesRestore (l.filter (fun pg => !settingPage pg)))
  (s.pagesRestore (l.filter settingPage)).idsRestore

/-- A page of the CAN path (R400): CAN, LIN and the CAU. -/
def canPathPage (pg : Nat) : Bool :=
  match pageOf pg with
  | some (b, _) => decide (b = .can) || decide (b = .lin) || decide (b = .cau)
  | none => false

/-- A table change of the CAN path: SRT entries 0x0000-0xC1FF, the CAN filter memory, the signal and PDU tables. -/
def Staged.canPath : Staged → Bool
  | .write t i _ | .delIndex t i => (decide (t = TableId.srt) && decide (i < 0xC200)) || (decide (TableId.sig ≤ t) && decide (t ≤ TableId.can))
  | _ => false

/-- The CAN path is restored: its table changes, then its pages. [DEDUCED, log entry 73] -/
def State.canRestore (s : State) : State := (s.tapRestore Staged.canPath).pagesRestore ((domPages false).filter canPathPage)

/-- What is restored of the FWD domain besides the CAN path: its pages in ascending order, the TAP commits, the reservations. [DEDUCED, log entry 73] -/
def State.restRestore (s : State) : State :=
  ((s.pagesRestore ((domPages false).filter (fun pg => !canPathPage pg))).tapRestore (fun x => !x.canPath)).resvRestore

/-- What is restored of the FWD domain at a cold start or from MGS_ONLY (R415). -/
def State.fwdRestore (s : State) : State := ((s.pagesRestore (domPages false)).tapRestore (fun _ => true)).resvRestore

/-- The journal at a cold start, in R415's order: write masks, pages in ascending number, TAP commits, reservations, management settings.
Vault records and rosters are state of their own. The AON page keeps its registers except after a power-on reset. [DEDUCED, log entry 73] -/
def State.coldRestore (s : State) (aon : Bool) : State :=
  let l := (List.range 0x101).filter (fun pg => (pageOf pg).isSome && (aon || decide (pg ≠ 2)))
  let s := s.settingsReset.masksRestore.pagesRestore (l.filter (fun pg => !settingPage pg))
  let s := if s.pwr.fwdOn then (s.tapRestore (fun _ => true)).resvRestore else s
  (s.pagesRestore (l.filter settingPage)).idsRestore

end Sys2Proof.Machine
end

