-- ==== Sys2Proof/Machine/Mgs.lean ====
section
/-! DEFINITION. The management subsystem: restarts (R405-R407), the mailbox (R408, R409), the Unbor monitor's level (R429), update
(R421-R424), sensors (R420) and the margin planner (R425-R427). -/

namespace Sys2Proof.Machine

/-! ### The Unbor monitor's level (R429) -/

/-- The pages whose write masks LEVEL 2 opens: all but the VLT mailbox, UPD and the MGS mailbox. -/
def unborPages : List Nat :=
  (List.range 0x101).filter fun pg =>
    match pageOf pg with
    | some (b, _) => decide (b ≠ .vlt) && decide (b ≠ .upd) && decide (b ≠ .mgs)
    | none => false

/-- Bit 4 of a page's write mask. -/
def State.maskBit4 (s : State) (pg : Nat) (on : Bool) : State := s.wf (itemKey pg Reg.GLB_PERM_DATA) 4 1 (b2n on)

/-- The bits that LEVEL 2 set are cleared, and the monitor is locked. -/
def State.unborClear (s : State) : State :=
  let s := s.mgs.unborMasks.foldl (fun s pg => s.maskBit4 pg false) s
  s.setMgs { s.mgs with unborLevel := 0, unborMinutes := 0, unborMasks := [], unborTicket := 0 }

/-- The monitor is locked: logged if it was not. -/
def State.unborLock (s : State) : State :=
  if s.mgs.unborLevel = 0 then s
  else s.unborClear.logMgmt 0x00F true (toBE 1 s.mgs.unborLevel ++ toBE 2 s.mgs.unborMinutes)

/-- The monitor is granted a level for MINUTES. -/
def State.unborGrant (s : State) (level minutes : Nat) : State :=
  let s := s.unborClear
  let l := if level = 2 then unborPages.filter (fun pg => !bit (s.writeMask pg) 4) else []
  let s := l.foldl (fun s pg => s.maskBit4 pg true) s
  let s := s.setMgs { s.mgs with unborLevel := level, unborMinutes := minutes, unborMasks := l }
  (s.raise .mgs 0 Irq.MGS_UNBOR_UNLOCKED).logMgmt 0x00E true (toBE 1 level ++ toBE 2 minutes)

/-! ### Restarts (R405-R407, R424) -/

/-- A bank's contents. -/
def State.bankTab (s : State) (k : Nat) : Tab Byte := if k = 0 then s.mgs.bankA else s.mgs.bankB

/-- A field of a bank's image header (Table 15-8). -/
def State.bankField (s : State) (k off : Nat) : Nat := beAt (bytesFrom (s.bankTab k) off 4) 0 4

/-- The trial ends with the old bank (R424). [DEDUCED, log entry 76] -/
def State.fallback (s : State) : State :=
  match s.mgs.trial with
  | none => s
  | some (_, m) =>
    let bad := s.mgs.fwVer
    let s := s.setMgs { s.mgs with bank := 1 - s.mgs.bank, trial := none, confirmed := true }
    ((s.evt Reg.UPD_FALLBACK).raise .upd 0 Irq.UPD_FALLBACK).logMgmt 0x007 true (toBE 1 0 ++ toBE 4 bad ++ toBE 1 m)

/-- A restart of the management cores alone: BUSY mailbox commands complete with RESTARTED, an update session is abandoned, the
monitor relocks, and a trial falls back. `cause` is that of Table 15-5; 4 is an activation. [DEDUCED, log entry 71] -/
def State.mgsRestart (s : State) (cause : Nat) : State :=
  let s := ((s.evt Reg.MGS_RESTART).raise .mgs 0 Irq.MGS_RESTARTED).logMgmt 0x002 false (toBE 1 cause)
  let s := (List.range 5).foldl (fun s m => if (s.slot (mgsSlot m)).busy then s.complete (mgsSlot m) (codeRes 0x80) else s) s
  let s := s.unborLock.vltDrop (fun o => decide (VOp.mail ≤ o.op))
  let keep := fun (x : Nat × Nat × List Word × List Byte) => decide (0x100 ≤ x.2.1)
  let s := s.setMgs { s.mgs with down := true, downAt := s.now, mail := s.mgs.mail.filter keep, syncs := [], planRun := false, planning := [], upd := none }
  if cause = 4 then s else s.fallback

/-- A lockstep mismatch or SRAM error (cause 1), or the watchdog (cause 2): the third within 60 s halts the subsystem. [DEDUCED, log entry 71] -/
def State.mgsCrash (s : State) (cause : Nat) : State :=
  if !s.mgsUp then s
  else
    let s := s.evt (if cause = 1 then Reg.MGS_LOCKSTEP else Reg.MGS_WDT_EXP)
    let l := (s.mgs.crashes.filter (fun t => decide (s.now < t + 60000000000))) ++ [s.now]
    let s := (s.setMgs { s.mgs with crashes := l }).mgsRestart cause
    if 3 ≤ l.length then (s.setMgs { s.mgs with halted := true }).raise .mgs 0 Irq.MGS_HALTED else s

/-! ### Sensors (R420) -/

/-- The domain of sensor k's supply is on. -/
def State.sensOn (s : State) (k : Nat) : Bool :=
  match k with
  | 10 | 11 => s.pwr.lphyOn || s.pwr.mphyOn
  | 12 => s.pwr.serdesOn
  | 13 | 14 => s.pwr.svcOn && s.pwr.ddr
  | _ => true

/-- A value outside a sensor's thresholds; temperatures are signed. -/
def sensBad (k v : Nat) (thr : Word) : Bool :=
  if k < 8 then decide (sext 16 v < sext 16 (fld thr 0 16)) || decide (sext 16 (fld thr 16 16) < sext 16 v)
  else decide (v < fld thr 0 16) || decide (fld thr 16 16 < v)

/-- One sensor is sampled. [DEDUCED, log entry 77] -/
def State.sensOne (s : State) (k v : Nat) : State :=
  let v := if !s.sensOn k then 0 else if k = 18 then min (v * s.rf Reg.MGS_VBAT_CFG 0 16 / 100) 0xFFFF else v % 0x10000
  let s := s.wr (Reg.MGS_SENS k) (wd v)
  let was := Tab.get (fun _ => none) s.mgs.alarms k
  let put := fun (s : State) (x : Option Nat) => s.setMgs { s.mgs with alarms := Tab.set (fun _ => none) s.mgs.alarms k x }
  if s.sensOn k ∧ sensBad k v (s.rd (Reg.MGS_SENS_THR k)) then
    let s := put s (some s.now)
    if was.isSome then s
    else ((s.evt Reg.MGS_SENS_ALARM).raise .mgs 0 Irq.MGS_SENS_ALARM).logMgmt 0x00A false (toBE 1 k ++ toBE 2 v)
  else
    match was with
    | some t => if t + 100000000 ≤ s.now then put s none else s
    | none => s

/-- SENSOR_SAMPLE: every sensor is sampled; `vals` are the readings, VBAT_SENSE's that of the ADC. [DEDUCED, log entry 77] -/
def State.sensorSample (s : State) (vals : List Nat) : State :=
  if s.mgsUp then (List.range 19).foldl (fun s k => s.sensOne k (vals.getD k 0)) s else s

/-! ### The margin planner (R425-R427) -/

/-- A run starts (R425). [DEDUCED, log entry 77] -/
def State.planStart (s : State) : State := s.setMgs { s.mgs with planRun := true }

/-- MRAM sectors that failed verification twice or have reached their write count are remapped to spares, each logged; with fewer than 16 left a
warning is raised (R410). [DEDUCED, log entry 98] -/
def State.mramRemap (s : State) (sectors : List Nat) : State :=
  if !s.mgsUp then s
  else sectors.foldl (fun s k =>
    let n := s.mgs.spares - 1
    let s := ((s.setMgs { s.mgs with spares := n }).raise .mgs 0 Irq.MGS_MRAM_REMAP).logMgmt 0x00D false (toBE 2 k)
    if n < 16 then (s.raise .mgn 0 Irq.MGN_WARN).logMgmt 0x00B false (toBE 2 (s.rf Reg.MGN_STAT 16 16) ++ toBE 1 n) else s) s

/-- MARGIN_PERIOD, and every wake. -/
def State.marginPeriod (s : State) : State := if s.mgsUp ∧ s.rb Reg.MGN_CFG 0 then s.planStart else s

/-- What a run has found: the readings of its inputs (ageing monitors, path replicas, SRAM margin, eyes, MRAM wear), the slack loss
projected in mV, the least VDD_CORE with positive slack in mV, whether a replica has less than the guard band at 860 mV, the write
pulse in ns and the forecast in months; and the transmit taps (as EPT_EQ lays them out) and receive settings for the lanes of ports
20-22. [DEDUCED, log entry 77] -/
structure Plan where
  taps : List Nat
  rx : List Nat
  age : List Nat
  replica : List Nat
  sram : Nat
  eye : List Nat
  wear : List Nat
  loss : Nat
  vmin : Nat
  short : Bool
  pulse : Nat
  months : Nat
deriving DecidableEq, Repr

/-- Write a list of readings into consecutive registers. -/
def State.putRegs (s : State) (a : Nat) (l : List Nat) (n w : Nat) : State :=
  (List.range n).foldl (fun s k => s.wr (a + 4 * k) (wd (l.getD k 0 % 2 ^ w))) s

/-- The planner sets the equalisation of ports 20-22 with EQ_MANUAL = 0: receive settings in place, transmit taps for the next TRAINING
entry (R199, R426). [DEDUCED, log entries 37, 77] -/
def State.planEq (s : State) (p : Plan) : State :=
  [20, 21, 22].foldl (fun s n =>
    if s.rb (Reg.EPT_SERDES n) 6 then s
    else s.setEport n { s.eport n with planTaps := wd (p.taps.getD (n - 20) 0), rxEq := p.rx.getD (n - 20) 0 }) s

/-- MARGIN_RUN_DONE, with the one Voltage read of a run (R450). [DEDUCED, log entry 77] -/
def State.planDone (s : State) (p : Plan) : State :=
  if !s.mgs.planRun then s
  else
    let s := (s.emit .avsRead).putRegs (Reg.MGN_AGE 0) p.age 32 16
    let s := s.putRegs (Reg.MGN_REPLICA 0) p.replica 64 16
    let s := (s.wr Reg.MGN_SRAM_MARGIN (wd (p.sram % 256))).putRegs (Reg.MGN_EYE 0) p.eye 3 16
    let s := s.putRegs (Reg.MGN_WEAR 0) p.wear 6 32
    let g := min (s.rf Reg.MGN_CFG 24 8 + p.loss) 255
    let goal := clampN 680 860 (p.vmin + g)
    let months := min p.months 0xFFFF
    let s := (s.wr Reg.MGN_GUARD (wd g)).wr Reg.MGN_MRAM_PULSE (wd (clampN 10 40 p.pulse))
    let s := ((s.wf Reg.MGN_STAT 16 16 months).wr64 Reg.MGN_LAST_RUN s.now).stat Reg.MGN_RUNS 1
    let s := (s.planEq p).raise .mgn 0 Irq.MGN_RUN_DONE
    let s := if months ≤ s.rf Reg.MGN_CFG 16 8 then
        (s.raise .mgn 0 Irq.MGN_WARN).logMgmt 0x00B false (toBE 2 months ++ toBE 1 s.mgs.spares) else s
    let s := if goal = 860 ∧ p.short then (s.raise .mgn 0 Irq.MGN_EXHAUSTED).logMgmt 0x00C false (toBE 2 goal) else s
    let l := s.mgs.planning
    let s := s.setMgs { s.mgs with planRun := false, planning := [], avsGoal := goal }
    l.foldl (fun s m => s.complete (mgsSlot m) (dataRes Code.ok [wd months])) s

/-- A die temperature reads above 115 °C. [DEDUCED, log entry 77] -/
def State.tooHot (s : State) : Bool := (List.range 8).any (fun k => decide (460 < sext 16 (s.rf (Reg.MGS_SENS k) 0 16)))

/-- AVS_STEP: the target moves 1 mV toward the planner's, by a Voltage write; not down while it is too hot (R426, R450). [DEDUCED, log entry 77] -/
def State.avsStep (s : State) : State :=
  let v := s.rf Reg.MGN_AVS 0 10
  let n := if v < s.mgs.avsGoal then v + 1 else if s.mgs.avsGoal < v ∧ !s.tooHot then v - 1 else v
  if n = v then s else (s.wf Reg.MGN_AVS 0 10 n).emit (.avs n)

/-! ### Update (R421-R424) -/

/-- The session's master: of a session, or of the trial that follows it. -/
def State.updMaster (s : State) : Option Nat :=
  match s.mgs.upd, s.mgs.trial with
  | some u, _ => some u.m
  | none, some (_, m) => some m
  | none, none => none

/-- The vehicle is moving (R423). -/
def State.moving (s : State) : Bool :=
  if !s.rb Reg.UPD_CFG 0 then false
  else
    let i := s.rf Reg.UPD_SPEED 0 15
    let e := s.tent TableId.sig i
    let valid := s.pwr.fwdOn && sigSource e
    let stale := !valid || (s.src i).never || (s.src i).timedOut
    let v := if valid then s.srcStored i e else 0
    let lim := s.rd Reg.UPD_SPEED_MAX
    let above := if sigSigned e then decide (sext 32 lim.toNat < sext 32 v) else decide (lim.toNat < v)
    (stale && !s.rb Reg.UPD_CFG 2) || above

/-- A refused update command: its code is kept, counted, raised and logged. [DEDUCED, log entry 76] -/
def State.updRefuse (s : State) (m code ver : Nat) : Result × State :=
  let s := s.setMgs { s.mgs with updLast := code }
  (codeRes code, ((s.evt Reg.UPD_REFUSED).raise .upd 0 Irq.UPD_REFUSED).logMgmt 0x004 true (toBE 1 code ++ toBE 4 ver ++ toBE 1 m))

/-- Checks 7 to 9: the code of the first that fails, 0 when none does. -/
def State.updGuards (s : State) : Nat :=
  if s.vlt.updLock then 0x86
  else if s.moving then 0x87
  else if s.rb Reg.UPD_CFG 1 ∧ s.rf (Reg.MGS_SENS 18) 0 16 < s.rf Reg.UPD_VBAT_MIN 0 16 then 0x88
  else 0

/-- Checks 1 to 9 of a header. -/
def State.updHeader (s : State) (h : List Byte) : Nat :=
  let ver := beAt h 12 4
  let len := beAt h 24 4
  if beAt h 0 4 ≠ 0x53494C37 ∨ beAt h 4 2 ≠ 1 ∨ ver < beAt h 20 4 then 0x80
  else if len < 4 ∨ 4193820 < len ∨ len % 4 ≠ 0 then 0x81
  else if beAt h 8 3 ≠ (s.rd Reg.GLB_CHIP_ID).toNat / 256 then 0x82
  else if ver < s.mgs.floor then 0x83
  else if s.mgs.fwVer < beAt h 16 4 then 0x84
  else if s.vlt.cosign ∧ !(beAt h 6 2).testBit 0 then 0x85
  else s.updGuards

/-- Replace the bank not in use. -/
def State.setSpareBank (s : State) (t : Tab Byte) : State :=
  if s.mgs.bank = 0 then s.setMgs { s.mgs with bankB := t } else s.setMgs { s.mgs with bankA := t }

/-- BEGIN. [DEDUCED, log entry 76] -/
def State.updBegin (s : State) (m : Nat) (buf : List Byte) : Result × State :=
  let h := buf.take 256
  let ver := beAt h 12 4
  if s.updMaster.isSome then (codeRes 0x8C, s)
  else
    let c := s.updHeader h
    if c ≠ 0 then s.updRefuse m c ver
    else
      let s := s.setMgs { s.mgs with upd := some ⟨m, 1, h⟩, staged := ver }
      (dataRes Code.ok [wd ver], s.logMgmt 0x003 true (toBE 1 2 ++ toBE 4 ver ++ toBE 1 m))

/-- WRITE. [DEDUCED, log entry 76] -/
def State.updWrite (s : State) (off len : Nat) (buf : List Byte) : Result × State :=
  if off % 4 ≠ 0 ∨ len % 4 ≠ 0 ∨ len < 4 ∨ 2048 < len ∨ 0x400000 < off + len then (codeRes Code.badArg, s)
  else (dataRes Code.ok [wd len], s.setSpareBank (putBytes (s.bankTab (1 - s.mgs.bank)) off (buf.take len)))

/-- The first of checks 10 to 12 that a staged image fails, 0 when none does. -/
def State.updSigns (s : State) (h : List Byte) : Nat :=
  let t := s.bankTab (1 - s.mgs.bank)
  let len := beAt h 24 4
  if shake (bytesFrom t 256 len) 64 ≠ (h.drop 32).take 64 then 0x89
  else if !Config.ed448Verify Config.tarnuKey (ascii "SSN-FW-TARNU") h (bytesFrom t (256 + len) 114) then 0x8A
  else if (beAt h 6 2).testBit 0 ∧
      (!s.vlt.claimed ∨ !Config.ed448Verify s.vlt.ownerKey (ascii "SSN-FW-OWNER") h (bytesFrom t (256 + len + 114) 114)) then 0x8B
  else 0

/-- FINISH: the header that BEGIN checked heads the staged image. [DEDUCED, log entry 76] -/
def State.updFinish (s : State) (u : UpdSess) : Result × State :=
  let c := s.updSigns u.header
  let ver := beAt u.header 12 4
  if c ≠ 0 then s.updRefuse u.m c ver
  else
    let s := s.setSpareBank (putBytes (s.bankTab (1 - s.mgs.bank)) 0 u.header)
    (dataRes Code.ok [wd ver], s.setMgs { s.mgs with upd := some { u with state := 2 } })

/-- Every commit that waits is journalled. -/
def State.journalSyncAll (s : State) : State := s.mgs.commits.foldl (fun s _ => s.commitRecord) s

/-- ACTIVATE, once its slot's result is given: log flushed, journal synced, checkpoint written, restart from the other bank. [DEDUCED, log entry 76] -/
def State.updActivate (s : State) (m ver : Nat) : State :=
  let s := (s.raise .upd 0 Irq.UPD_ACTIVATED).logMgmt 0x005 true (toBE 1 2 ++ toBE 4 ver ++ toBE 1 m)
  let s := s.logFlush.journalSyncAll.checkpoint
  let old := s.mgs.fwVer
  let s := s.mgsRestart 4
  s.setMgs { s.mgs with bank := 1 - s.mgs.bank, trial := some (old, m), confirmed := false }

/-- CONFIRM: the trial ends, the floor rises and records of older FORMATs go. [DEDUCED, log entry 76] -/
def State.updConfirm (s : State) (m : Nat) : Result × State :=
  let ver := s.mgs.fwVer
  let s := s.setMgs { s.mgs with trial := none, confirmed := true, floor := max s.mgs.floor (s.bankField s.mgs.bank 20) }
  let s := s.oldFormatsGone
  (dataRes Code.ok [wd ver], (s.raise .upd 0 Irq.UPD_CONFIRMED).logMgmt 0x006 true (toBE 1 2 ++ toBE 4 ver ++ toBE 1 m))

/-- An update command: its result, and whether it activates. -/
def State.updOp (s : State) (m op off len : Nat) (buf : List Byte) : Result × State × Bool :=
  let no := fun (r : Result × State) => (r.1, r.2, false)
  if op = 0 ∨ 6 < op then (codeRes Code.badOp, s, false)
  else if 3 < m then (codeRes Code.denied, s, false)
  else if op = 4 ∧ s.mgs.trial.isSome then (codeRes 0x8E, s, false)
  else
    match s.updMaster with
    | some o =>
      if o ≠ m then (codeRes 0x8D, s, false)
      else
        match s.mgs.upd with
        | none => if op = 5 then no (s.updConfirm m) else (codeRes 0x8C, s, false)
        | some u =>
          if op = 2 ∧ u.state = 1 then no (s.updWrite off len buf)
          else if op = 3 ∧ u.state = 1 then no (s.updFinish u)
          else if op = 4 ∧ u.state = 2 then
            let c := s.updGuards
            let ver := beAt u.header 12 4
            if c ≠ 0 then no (s.updRefuse m c ver) else (dataRes Code.ok [wd ver], s, true)
          else if op = 6 then (dataRes Code.ok [wd (beAt u.header 12 4)], s.setMgs { s.mgs with upd := none }, false)
          else (codeRes 0x8C, s, false)
    | none => if op = 1 then no (s.updBegin m buf) else (codeRes 0x8C, s, false)

/-- An update command runs and its slot completes. -/
def State.updRun (s : State) (m op off len : Nat) (buf : List Byte) : State :=
  let ver := match s.mgs.upd with | some u => beAt u.header 12 4 | none => 0
  let (r, s, act) := s.updOp m op off len buf
  let s := s.complete (updSlot m) r
  if act then s.updActivate m ver else s

/-- A write of UPD_CMD: run now, or once firmware serves again. -/
def State.updCmd (s : State) (m op : Nat) : State :=
  s.command (updSlot m) m (pageBase .upd 0) fun s =>
    let off := s.rd (bankKey m Reg.UPD_OFFSET)
    let len := s.rd (bankKey m Reg.UPD_LEN)
    let buf := s.bankBytes m (Reg.UPD_BUF 0) 2048
    if s.mgsUp then s.updRun m op off.toNat len.toNat buf
    else s.setMgs { s.mgs with mail := s.mgs.mail ++ [(m, 0x100 + op, [off, len], buf)] }

/-- UPD_TRIAL_EXPIRE. [DEDUCED, log entry 76] -/
def State.trialExpire (s : State) : State := if s.mgs.trial.isSome then s.mgsRestart 5 else s

/-! ### The mailbox (R408, R409) -/

/-- A delegated action (Table 15-2): none when it is performed, else the target's code. -/
def State.delegated (s : State) (a : Nat) (arg : List Byte) : Option Nat × State :=
  let had := fun (r : Result × State) => if r.1.code = Code.ok then (none, r.2) else (some r.1.code, r.2)
  let roster := fun (r : Option State) => match r with | some t => (none, t) | none => (some Code.badArg, s)
  match a with
  | 0x20 =>
    let lv := beAt arg 0 1
    let mi := beAt arg 1 2
    if arg.length ≠ 3 ∨ lv = 0 ∨ 2 < lv ∨ mi = 0 ∨ 1440 < mi then (some Code.badArg, s) else (none, s.unborGrant lv mi)
  | 0x21 =>
    if !s.pwr.fwdOn ∨ arg.length ≠ 2 ∨ 63 < beAt arg 0 1 ∨ 7 < beAt arg 1 1 then (some Code.badArg, s)
    else had (s.hadRun 3 1 (beAt arg 0 1) (beAt arg 1 1))
  | 0x22 => if !s.pwr.fwdOn ∨ arg.length ≠ 1 ∨ 63 < beAt arg 0 1 then (some Code.badArg, s) else had (s.hadRun 3 2 (beAt arg 0 1) 0)
  | 0x30 => roster (s.rosterAdd arg)
  | 0x31 => roster (s.rosterRemove arg)
  | 0x32 => roster (s.rosterReplace arg)
  | _ => (some Code.badArg, s)

/-- The actions AUTHORISE performs. -/
def delegable (a : Nat) : Bool := [0x20, 0x21, 0x22, 0x30, 0x31, 0x32].contains a

/-- AUTHORISE takes an envelope: its ACTION is delegated and it is bound to a window. [DEDUCED, log entry 71] -/
def authTakes (b : List Byte) : Bool := delegable (beAt b 1 1) && decide ((b.drop 20).take 16 = List.replicate 16 0)

/-- The Vault has come to an envelope that the management subsystem submitted as master 3; accepted, its action is performed and a DELEGATED
record written (R409). `aborted`: tamper events aborted the operation. [DEDUCED, log entry 71] -/
def State.authorise (s : State) (b : List Byte) (aborted : Bool) : Result × State :=
  if aborted then (codeRes VCode.tamperAbort, s)
  else
    let a := beAt b 1 1
    let (r, s) := s.vAuthorise 3 b
    if r.code ≠ Code.ok then (codeRes r.code, s)
    else
      let s := s.logMgmt 0x012 true (toBE 1 a ++ r.buf.take 15)
      match s.delegated a r.buf with
      | (none, s) => (codeRes Code.ok, s)
      | (some c, s) => (dataRes 0x83 [0, wd c], s)

/-- The highest master that may issue a mailbox command; none for an unknown OP (Table 15-1). [DEDUCED, log entry 71] -/
def mgsMasters (op : Nat) : Option Nat :=
  if op = 1 ∨ op = 5 ∨ op = 0xB then some 4 else if 2 ≤ op ∧ op ≤ 0xA then some 3 else none

/-- A command that answers at once: AUTHORISE only where it takes no such envelope. -/
def State.mgsAnswer (s : State) (op : Nat) (args : List Word) : Result × State :=
  let a0 := args.getD 0 0
  let seq := fun (s : State) => if s.mgs.jfull then codeRes 0x81 else dataRes Code.ok [wd s.mgs.jseq, wd (s.mgs.jseq >>> 32)]
  match op with
  | 1 =>
    (dataRes Code.ok [wd s.mgs.fwVer, wd (s.mgs.bank + b2n s.mgs.confirmed * 2), wd ((s.now - s.mgs.restartedAt) / 1000000000),
      wd s.vlt.boot], s)
  | 2 =>
    let lo := fld a0 0 14
    let hi := fld (args.getD 1 0) 0 14
    if hi < lo then (codeRes Code.badArg, s)
    else
      let s := s.saveRange lo hi
      (seq s, s)
  | 3 => (seq s, s)
  | 4 => (codeRes 0x82, s)
  | 5 => (match s.ckptAt (fld a0 0 9) with | some b => bufRes b | none => codeRes 0x84, s)
  | 6 =>
    let s := s.logFlush
    (dataRes Code.ok [wd s.mgs.lastSeq], s)
  | 7 => (codeRes Code.ok, s.secAck a0.toNat)
  | 0xA =>
    let (ok, s) := s.journalAdd (.settings a0.toNat)
    if ok then (codeRes Code.ok, s.setMgs { s.mgs with ids := a0.toNat }) else (codeRes 0x81, s)
  | 0xB => (codeRes Code.ok, s.unborLock)
  | _ => (codeRes Code.badOp, s)

/-- A mailbox command of master m runs. JOURNAL_SYNC waits for the commits not yet journalled, MARGIN_RUN for its run, AUTHORISE for the Vault (R315). [DEDUCED, log entry 71] -/
def State.mgsRun (s : State) (m op : Nat) (args : List Word) (buf : List Byte) : State :=
  match mgsMasters op with
  | none => s.complete (mgsSlot m) (codeRes Code.badOp)
  | some top =>
    if top < m then s.complete (mgsSlot m) (codeRes Code.denied)
    else if op = 8 then s.mgsRestart 3
    else if op = 9 then (s.setMgs { s.mgs with planning := s.mgs.planning ++ [m] }).planStart
    else if op = 4 ∧ authTakes (buf.take (fld (args.getD 0 0) 0 12)) then
      s.vltRequest ⟨m, VOp.mail, [], buf.take (fld (args.getD 0 0) 0 12), none, 0⟩ (fun _ => false)
    else if op = 3 ∧ !s.mgs.commits.isEmpty then s.setMgs { s.mgs with syncs := s.mgs.syncs ++ [(m, s.mgs.commits.length)] }
    else
      let (r, s) := s.mgsAnswer op args
      s.complete (mgsSlot m) r

/-- A write of MGS_CMD: run now, or once firmware serves the mailbox. [DEDUCED, log entry 71] -/
def State.mgsCmd (s : State) (m op : Nat) : State :=
  s.command (mgsSlot m) m (pageBase .mgs 0) fun s =>
    let args := (List.range 8).map (fun k => s.rd (bankKey m (Reg.MGS_ARG k)))
    let buf := s.bankBytes m (Reg.MGS_BUF 0) 2048
    if s.mgsUp then s.mgsRun m op args buf else s.setMgs { s.mgs with mail := s.mgs.mail ++ [(m, op, args, buf)] }

/-- Firmware serves the mailbox: the commands that wait run in order, unless one restarts it again. [DEDUCED, log entry 71] -/
def State.mailServe (s : State) : State :=
  let l := s.mgs.mail
  l.foldl (fun s x =>
    if s.mgsUp then
      if 0x100 ≤ x.2.1 then s.updRun x.1 (x.2.1 - 0x100) (x.2.2.1.getD 0 0).toNat (x.2.2.1.getD 1 0).toNat x.2.2.2
      else s.mgsRun x.1 x.2.1 x.2.2.1 x.2.2.2
    else if 0x100 ≤ x.2.1 then s.setMgs { s.mgs with mail := s.mgs.mail ++ [x] }
    else s) (s.setMgs { s.mgs with mail := [] })

/-- The boot ROM has measured the firmware of the bank in use (R319). -/
def State.fwMeasured (s : State) : State :=
  { s with vlt := { s.vlt with
      fwDigest := shake (bytesFrom (s.bankTab s.mgs.bank) 256 (s.bankField s.mgs.bank 24)) 32, fwVersion := s.bankField s.mgs.bank 12 } }

/-- A request raised during the restart that is in progress, by a block. [DEDUCED, log entry 74] -/
def State.raisedDown (s : State) (r : LogReq) : Bool := decide (s.mgs.downAt ≤ r.time) && decide (r.type / 0x2000 % 4 = 0)

/-- Firmware serves again: of the events that blocks raised during the restart, those are logged whose INT_RAW bit still holds them, each bit
once (R406). [DEDUCED, log entry 74] -/
def State.logHeld (s : State) : State :=
  let put := fun (l : List LogReq) (r : LogReq) =>
    if !s.raisedDown r then l ++ [r]
    else if !s.rb (Reg.INT_RAW (r.source * 0x1000)) (r.type % 32) || l.any (fun q => s.raisedDown q && decide (q.type = r.type) && decide (q.source = r.source))
    then l
    else l ++ [r]
  s.setMgs { s.mgs with logQ := s.mgs.logQ.foldl put [] }

/-- MGS_RESTART_DONE: firmware of the bank in use serves again (R406). -/
def State.mgsRestarted (s : State) : State :=
  if s.mgs.down ∧ !s.mgs.halted then
    let s := s.logHeld
    (s.setMgs { s.mgs with down := false, restartedAt := s.now, fwVer := s.bankField s.mgs.bank 12 }).fwMeasured.mailServe
  else s

/-- A mailbox command of master m, subject to the rules of register writes. -/
def State.mgsWrite (s : State) (m op : Nat) : State := s.access m Reg.MGS_CMD fun s => s.mgsCmd m op

/-- AUTHORISE of the envelope in master m's MGS_BUF, when it asks for action `a`; another envelope is another row's command. -/
def State.mgsAuth (s : State) (m a : Nat) : State := if s.rf (bankKey m (Reg.MGS_BUF 0)) 8 8 = a then s.mgsWrite m 4 else s

/-- An update command of master m, subject to the rules of register writes. -/
def State.updWriteCmd (s : State) (m op : Nat) : State := s.access m Reg.UPD_CMD fun s => s.updCmd m op

end Sys2Proof.Machine
end

