-- ==== Sys2Proof/Machine/Power.lean ====
section
/-! DEFINITION. Power states, transitions, sleep, wake, start-up and resets (chapter 14). -/

namespace Sys2Proof.Machine

/-! ### Domains (R375-R377, R379) -/

/-- The switched domains beside MGS: 0 FWD, 1 LPHY, 2 MPHY, 3 SERDES, 4 SVC. -/
def State.domOn (s : State) (d : Nat) : Bool :=
  match d with
  | 0 => s.pwr.fwdOn | 1 => s.pwr.lphyOn | 2 => s.pwr.mphyOn | 3 => s.pwr.serdesOn | _ => s.pwr.svcOn

/-- A domain is on in state t (Table 14-2). -/
def State.domWant (s : State) (t d : Nat) : Bool :=
  decide (t = 5) || (decide (t = 4) &&
    match d with
    | 0 | 1 => true | 2 => false | 3 => s.rb Reg.AON_PART_CFG 0 | _ => s.rb Reg.AON_PART_CFG 1)

/-- The ports whose PHYs or lanes a domain holds. -/
def phyPorts : Nat → List Nat
  | 1 => (List.range 12).map (· + 8) | 2 => List.range 8 | 3 => [20, 21, 22] | _ => []

/-- A page's block loses power with domain d: a port's page stands for its PHY, the SVC page for the cluster. -/
def inDomain (d : Nat) (b : Blk) (i : Nat) : Bool :=
  match d with
  | 0 => !mgsDomain b
  | 4 => decide (b = .svc)
  | _ => decide (b = .ept) && (phyPorts d).contains i

/-- Fields of the power state. -/
def PwrSt.setDom (p : PwrSt) (d : Nat) (on : Bool) : PwrSt :=
  match d with
  | 0 => { p with fwdOn := on }
  | 1 => { p with lphyOn := on }
  | 2 => { p with mphyOn := on }
  | 3 => { p with serdesOn := on }
  | _ => { p with svcOn := on }

/-- The copies queued for a port are dropped with reason FLUSH (R379). [DEDUCED, log entry 68] -/
def State.queueFlush (s : State) (p : Nat) : State :=
  (List.range 8).foldl (fun s k =>
    let l := s.queue (8 * p + k)
    l.foldl (fun s x => s.copyDrop x.1 x.2 7) (s.setQueue (8 * p + k) [])) s

/-- A PHY or lane domain goes off. The PCIe endpoint lies in SERDES. [DEDUCED, log entry 68] -/
def State.phyOff (s : State) (d : Nat) : State :=
  let s := if d = 3 then s.hifStatus 0 true else s
  let s := (phyPorts d).foldl (fun s p => if s.dmaPort p then s else (s.queueFlush p).linkDrop p false) s
  let s := if d = 1 then s.wf Reg.CRU_CLK_STAT 7 1 0 else if d = 3 then s.wf Reg.CRU_CLK_STAT 6 1 0 else s
  s.setPwr (s.pwr.setDom d false)

/-- A register-store key belongs to a page of the FWD domain. [DEDUCED, log entry 68] -/
def fwdKey (k : Nat) : Bool :=
  match pageOf (k % 0x4000000 / 0x1000) with
  | some (b, _) => !mgsDomain b
  | none => false

/-- A page number of the FWD domain. -/
def fwdPage (pg : Nat) : Bool := fwdKey (pg * 0x1000)

/-- Every block of the FWD domain starts from its reset values (R377). The rosters lie in MRAM. [DEDUCED, log entry 68] -/
def State.fwdReset (s : State) : State :=
  let keepSlot := fun (k : Nat) => decide (24 ≤ k) && !(decide (0x100 ≤ k) && fwdPage (k - 0x100))
  let noCommit := fun (t : Ticket) => { t with commit := false }
  { s with
    regs := Tab.keep (fun k => !fwdKey k) s.regs, slots := Tab.keep keepSlot s.slots, snaps := Tab.keep (fun pg => !fwdPage pg) s.snaps,
    fences := s.fences.map (fun p => (p.1, { p.2 with waiting := p.2.waiting.map noCommit })), tbl := [], stage := [], commitQ := [],
    commits := 0, resets := s.resets.filter (fun pg => !fwdPage pg), lrn := { LrnSt.reset with lastAdv := s.now, nextAdv := s.now + 1000000000 },
    bsn := BasinSt.reset, meters := [], egr := [], slu := [], bud := BudSt.reset, fre := [], fgd := [],
    had := { HadSt.reset with roster := s.had.saved, saved := s.had.saved }, ept := [], can := [], lin := [], cfl := { CflSt.reset with resetAt := s.now },
    auth := AuthSt.reset, twn := { TwnSt.reset with roster := s.twn.roster }, tim := TimSt.reset, inj := [],
    svc := { s.svc with release := s.svc.release.filter (fun i => decide (24 ≤ i)) },
    pwr := { s.pwr with gates := Tab.keep (fun pg => !fwdPage pg) s.pwr.gates } }

/-- The FWD domain goes off: stored frames are dropped with reason FLUSH, links end, everything is lost. [DEDUCED, log entry 68] -/
def State.fwdOff (s : State) : State :=
  if !s.pwr.fwdOn then s
  else
    let s := s.basinDrop
    let s := (List.range 23).foldl (fun s p => s.linkDrop p true) s
    let lf := s.rd Reg.TIM_LF_PERIOD
    let s := s.fwdReset
    (s.setPwr { s.pwr with fwdOn := false, forwarding := false, canPath := false, lf := lf }).msixEval false

/-- The FWD domain powers up: reset values, the views' record sequences resumed (R190), a carry of the FRC reported (R275). -/
def State.fwdUp (s : State) : State :=
  let s := s.fwdReset
  let s := s.setPwr { s.pwr with fwdOn := true }
  let s := (List.range 64).foldl State.viewStart s
  if s.pwr.carried then (s.setPwr { s.pwr with carried := false }).raise .tim 0 Irq.TIM_FRC_CARRY else s

/-- The configuration has been restored: forwarding is enabled, and the sleep record is spent. -/
def State.forwardOn (s : State) : State := s.setPwr { s.pwr with canPath := true, forwarding := true, record := none }

/-- The domains that state t lacks go off: ports and channels first (R379). [DEDUCED, log entry 68] -/
def State.domsDown (s : State) (t : Nat) : State :=
  let s := if s.pwr.svcOn ∧ !s.domWant t 4 then s.svcOff.wf Reg.CRU_CLK_STAT 5 1 0 else s
  let s := [3, 2, 1].foldl (fun s d => if s.domOn d && !s.domWant t d then s.phyOff d else s) s
  if s.domWant t 0 then s else s.fwdOff

/-- The domains that state t adds come up; FWD, if it was off, from its reset values. -/
def State.domsUp (s : State) (t : Nat) : State :=
  let was := s.pwr.fwdOn
  let p := [1, 2, 3, 4].foldl (fun (p : PwrSt) d => if s.domWant t d then p.setDom d true else p) s.pwr
  let s := s.setPwr p
  if s.domWant t 0 && !was then s.fwdUp else (List.range 23).foldl (fun s p => s.train p) s

/-- Every domain of state t and no other is on; a FWD domain that comes up is restored and forwards. -/
def State.domsSet (s : State) (t : Nat) : State :=
  let was := s.pwr.fwdOn
  let s := (s.domsDown t).domsUp t
  if s.pwr.fwdOn ∧ !was then s.fwdRestore.forwardOn else s

/-! ### The MGS domain and MRAM -/

/-- What MRAM holds of the management subsystem (Table 15-3), the running version included. [DEDUCED, log entry 69] -/
def MgsSt.mram (m : MgsSt) : MgsSt :=
  { MgsSt.reset with
    bank := m.bank, confirmed := m.confirmed, fwVer := m.fwVer, journal := m.journal, jseq := m.jseq, jhalf := m.jhalf, jfull := m.jfull,
    ids := m.ids, gen := m.gen, sec := m.sec, countGen := m.countGen, countSec := m.countSec, hGen := m.hGen, hSec := m.hSec,
    lastSeq := m.lastSeq, acked := m.acked, unacked := m.unacked, ckpts := m.ckpts, bankA := m.bankA, bankB := m.bankB, trial := m.trial,
    floor := m.floor, spares := m.spares }

/-- A register-store key keeps its value when the MGS domain is reset: the AON page's, the oscillators' status, the HFRC trim. [DEDUCED, log entry 68] -/
def mgsKept (k : Nat) : Bool :=
  fwdKey k || decide (k / 0x1000 = 2) || decide (k = Reg.CRU_CLK_STAT) || decide (k = Reg.CRU_HFRC_TRIM)

/-- The MGS domain is reset with a cause of CRU_RST_CAUSE (bit mask), once every other domain is off. [DEDUCED, log entry 68] -/
def State.mgsReset (s : State) (cause : Nat) : State :=
  let s := s.vltPowerDown
  let s := { s with
    regs := Tab.keep mgsKept s.regs, slots := [], snaps := [], fences := [], holds := [], resets := [], msix := Msix.reset,
    hif := { HifSt.reset with ibmSeq := s.hif.ibmSeq, subsys := s.mgs.ids }, mgs := s.mgs.mram, svc := SvcSt.reset,
    pwr := { s.pwr with gates := [], asked := [], waiting := [] } }
  s.wr Reg.CRU_RST_CAUSE (wd cause)

/-- XIN_A and every PLL stop: XINA_OK, the locks and FRC_ON_HFRC clear. -/
def State.clocksOff (s : State) : State := s.wr Reg.CRU_CLK_STAT (s.rd Reg.CRU_CLK_STAT &&& 0x2)

/-! ### Event log records (R404) -/

/-- A record of an AON event. [DESIGN CHOICE, log entry 67] -/
def State.aonLog (s : State) (i : Nat) (payload : List Byte) : State := s.logReq i 2 payload

/-- The sources of AON_WAKE_SRC and the cause. [DESIGN CHOICE, log entry 67] -/
def State.wakeInfo (s : State) : List Byte :=
  toBE 6 (s.rd64 Reg.AON_WAKE_SRC_LO) ++ toBE 1 (s.rd Reg.AON_WAKE_CAUSE).toNat

/-- A wake or brown-out record, with its AON_WAKE_FRC time. [DESIGN CHOICE, log entry 67] -/
def State.wakeLog (s : State) : State :=
  { s with mgs := { s.mgs with logQ := s.mgs.logQ ++ [⟨s.rd64 Reg.AON_WAKE_FRC_LO, Irq.AON_WAKE, 2, fit 16 s.wakeInfo⟩] } }

/-! ### Entering and leaving PRE_SLEEP (R395-R397) -/

/-- TX_SIG entry j is sent once, whatever is stopped. -/
def State.pduOnce (s : State) (j : Nat) : State :=
  if !isTxSig (s.pduEnt j) ∨ !s.enabled .cfl 0 ∨ !s.pwr.fwdOn then s
  else
    let ((b, l), s) := s.pduBuild j (s.pduEnt j)
    let (o, s) := s.pduOut j b l s.twinNow
    o.foldl State.cflPresent s

/-- LIN channels and GT ports of the sleep set. -/
def State.setLins (s : State) : List Nat := onesOf (s.rf Reg.AON_SLEEP_SET1 0 8) 8
def State.setGts (s : State) : List Nat := (onesOf (s.rf Reg.AON_SLEEP_SET1 8 8) 8).map (· + 8)

/-- The sleep sequence starts; the network master sends its sleep commands (R395 steps 1-3). [DEDUCED, log entry 65] -/
def State.sleepStart (s : State) (target : Nat) : State :=
  let s := s.preSleep target
  if !s.rb Reg.AON_NM_CFG 0 ∨ !s.pwr.fwdOn then s
  else
    let s := if s.rb Reg.AON_NM_CFG 1 then s.pduOnce (s.rf Reg.AON_NM_PDU 0 13) else s
    let s := s.setLins.foldl State.linSleep s
    s.setGts.foldl (fun s p => s.eptCmd p 2) s

/-- A sleep that waited for the target state starts. -/
def State.deferredSleep (s : State) : State :=
  match s.pwr.deferred with
  | some t => s.sleepStart t
  | none => s

/-- The sequencer returns to AWAKE: QUIESCE_REQ released, TX_SIG resumed, the wake frames sent (R397). -/
def State.sleepUndo (s : State) : State :=
  let s := s.freeQuiet
  let s := s.setPwr { s.pwr with seq := 0, latch := [], silent := [], quiet := [] }
  let s := if s.rb Reg.AON_NM_CFG 2 then s.pduOnce (s.rf Reg.AON_NM_PDU 16 13) else s
  let s := s.setLins.foldl State.linWake s
  s.setGts.foldl (fun s p => if s.lstate p = 4 then s.eptCmd p 4 else s) s

/-- A wake before the Sleep Point, by the sources latched, aborts the sleep. [DEDUCED, log entry 65] -/
def State.sleepAbort (s : State) : State :=
  let n := sumN (s.pwr.latch.map (fun k => 2 ^ k))
  let s := s.wr64 Reg.AON_WAKE_SRC_LO (s.rd64 Reg.AON_WAKE_SRC_LO ||| n)
  let s := s.sleepUndo
  ((s.evt Reg.AON_SLEEP_ABORT).raise .aon 0 Irq.AON_SLEEP_ABORT).aonLog Irq.AON_SLEEP_ABORT (toBE 6 n)

/-- A GT port is silent in SLEEP or DOWN; wake source k is one of a GT port. -/
def State.gtSilent (s : State) (k : Nat) : Bool := decide (s.lstate (k - 24) = 4) || decide (s.lstate (k - 24) = 0)
def gtSource (k : Nat) : Bool := decide (32 ≤ k) && decide (k < 40)

/-- Add to a list what it does not hold. -/
def addNew (k : Nat) (l : List Nat) : List Nat := if l.contains k then l else l ++ [k]

/-- MEMBER_SILENT: a member of the sleep set has been silent for SILENCE ms. [DEDUCED, log entry 65] -/
def State.memberSilent (s : State) (k : Nat) : State :=
  if s.pwr.seq ≠ 1 ∨ !s.inSleepSet k ∨ (gtSource k ∧ !s.gtSilent k) then s
  else s.setPwr { s.pwr with silent := addNew k s.pwr.silent, quiet := addNew k s.pwr.quiet }

/-- Every member of the sleep set is silent now. [DEDUCED, log entry 65] -/
def State.allSilent (s : State) : Bool := s.sleepSet.all (fun k => if gtSource k then s.gtSilent k else s.pwr.quiet.contains k)

/-- The sleep record (R400). With the FWD domain off the one of the last sleep still holds. -/
def State.sleepRecord (s : State) : Option SleepRec :=
  if s.pwr.fwdOn then
    some ⟨(s.auth.sas.filter (fun p => !p.2.rx && decide (p.2.state ≠ 0))).map (fun p => (p.1, p.2.pn)),
      s.auth.cau.map (fun p => (p.1, p.2.fv)), s.fgd.map (fun p => (p.1, p.2.rseq)), s.now⟩
  else s.pwr.record

/-- Steps 6 and 7 of R395: the GLB ALL snapshot goes to the event log and the journal, and the log is closed with a checkpoint (R418). -/
def State.sleepSave (s : State) : State :=
  let free := snapPages.all (fun pg => (s.slot (snapSlot pg)).idle)
  let s := s.snapTakeAll 3
  if !s.mgsUp then s
  else
    let s := if free then ((s.snapLog).journalAdd (.snap (snapPages.map (fun pg => (pg, (s.snap pg).regs))))).2 else s
    (s.journalSyncAll.logFlush).checkpoint

/-- SLEEP_POINT: with every member silent and no wake latched the sequencer commits (R396). From MGS_ONLY there is no Basin to drain. -/
def State.sleepPoint (s : State) : State :=
  if s.pwr.seq ≠ 1 ∨ !s.allSilent ∨ !s.pwr.latch.isEmpty then s
  else
    let s := if s.pwr.fwdOn then s.basinDrop else s
    let s := s.sleepSave
    s.setPwr { s.pwr with seq := 2, busy := true, target := s.pwr.sleepTarget, record := s.sleepRecord }

/-- SLEEP_FAIL: PRE_MAX has expired while a member is not silent. [DEDUCED, log entry 65] -/
def State.sleepFail (s : State) : State :=
  if s.pwr.seq ≠ 1 ∨ s.allSilent then s
  else ((s.sleepUndo.evt Reg.AON_SLEEP_FAIL).raise .aon 0 Irq.AON_SLEEP_FAIL).aonLog Irq.AON_SLEEP_FAIL []

/-! ### Waking (R391, R394, R398) -/

/-- The state a source's TARGET names. -/
def State.wakeTarget (s : State) (k : Nat) : Nat :=
  match s.rf (Reg.AON_WSRC_CFG k) 2 2 with
  | 1 => 3 | 3 => 5 | _ => 4

/-- A source is added to AON_WAKE_SRC and, of 0-43, to those that must be confirmed. [DEDUCED, log entry 66] -/
def State.wakeAdd (s : State) (k : Nat) : State :=
  let s := s.wr64 Reg.AON_WAKE_SRC_LO (s.rd64 Reg.AON_WAKE_SRC_LO ||| 2 ^ k)
  if k < 44 ∧ !s.pwr.confirm.contains k then s.setPwr { s.pwr with confirm := s.pwr.confirm ++ [k] } else s

/-- INH is asserted: the latches are copied and the wake goes toward the highest TARGET among them. -/
def State.inhUp (s : State) : State :=
  let l := s.pwr.latch
  let t := l.foldl (fun n k => max n (s.wakeTarget k)) 3
  let s := s.wr Reg.AON_WAKE_CAUSE (wd (2 + b2n s.pwr.postPoint * 4 + b2n s.pwr.decodeErr * 8))
  let s := l.foldl State.wakeAdd ((s.wr64 Reg.AON_WAKE_SRC_LO 0).setPwr { s.pwr with confirm := [] })
  (s.stat Reg.AON_WAKES 1).setPwr { s.pwr with
    inh := true, inhMin := decide (s.rf Reg.AON_INH_CFG 8 8 = 0), latch := [], target := t, busy := true, boot := 1, cold := false, por := false, pgFail := false } |>.emit (.inh true)

/-- WAKING is entered: INH rises at once, or at the end of MIN_OFF. [DEDUCED, log entry 66] -/
def State.wakeStart (s : State) : State :=
  let s := s.setPwr { s.pwr with seq := 3, busy := true }
  if s.pwr.inhMin then s.inhUp else s

/-- The FRC now; while it stands, as carried over `n` cycles of the sleep clock since it stopped (R275). [DEDUCED, log entry 66] -/
def State.frcAfter (s : State) (n : Nat) : Nat := if s.frcRuns then s.now else s.now + (n * s.pwr.lf.toNat + 65535) / 65536

/-- Wake source k latches, `n` sleep-clock cycles after the FRC stopped; `err`: by decoder errors. [DEDUCED, log entry 66] -/
def State.latchSet (s : State) (k n : Nat) (err : Bool) : State :=
  let s := if s.pwr.latched then s else (s.wr64 Reg.AON_WAKE_FRC_LO (s.frcAfter n)).setPwr { s.pwr with latched := true }
  let s := if err then s.setPwr { s.pwr with decodeErr := true } else s
  let put := fun (s : State) => s.setPwr { s.pwr with latch := if s.pwr.latch.contains k then s.pwr.latch else s.pwr.latch ++ [k] }
  match s.pwr.seq with
  | 1 => (put s).sleepAbort
  | 2 => (put s).setPwr { (put s).pwr with postPoint := true }
  | 3 => if s.pwr.inh then (if err then s.wf Reg.AON_WAKE_CAUSE 3 1 1 else s).wakeAdd k else put s
  | 4 => (put s).wakeStart
  | _ => s

/-- The activity detector of source k is armed (Table 14-6, R388); before the Sleep Point it also needs what R397 asks. [DEDUCED, log entry 65] -/
def State.armed (s : State) (k : Nat) : Bool :=
  let m := s.wakeMode k
  decide (k < 47) && decide (s.pwr.seq ≠ 0) && (decide (44 ≤ k) || s.inSleepSet k) && decide (m ≠ 0) &&
  !(decide (m = 2) && decide (s.pwr.sleepTarget = 2)) && (decide (k ≠ 45) || decide (s.rf Reg.AON_TIMER 0 24 ≠ 0)) &&
  (decide (s.pwr.seq ≠ 1) || (decide (k ≠ 45) && ((decide (32 ≤ k) && decide (k < 40)) || decide (44 ≤ k) || s.pwr.silent.contains k)))

/-- WAKE_LATCH. [DEDUCED, log entry 66] -/
def State.wakeLatch (s : State) (k n : Nat) : State := if s.armed k then s.latchSet k n false else s

/-- The selective decoder of channel c runs. -/
def State.decoderOn (s : State) (c : Nat) : Bool :=
  decide (s.pwr.seq ≠ 0) && decide (s.pwr.sleepTarget = 2) && decide (c < 24) && s.inSleepSet c && decide (s.wakeMode c = 2)

/-- A CAN frame matches channel c's decoder (R389). -/
def State.swMatch (s : State) (c id : Nat) (ide : Bool) (dlc : Nat) (data : List Byte) : Bool :=
  let cfg := s.rd (Reg.AON_SW_CFG c)
  let m := s.rd (Reg.AON_SW_MASK c)
  let mask := toLE 4 (s.rd (Reg.AON_SW_DMASK_LO c)).toNat ++ toLE 4 (s.rd (Reg.AON_SW_DMASK_HI c)).toNat
  decide (wd id &&& m = s.rd (Reg.AON_SW_ID c) &&& m) && decide (ide = bit cfg 2) &&
  (!bit cfg 3 || (decide (dlc = fld cfg 4 4) && (data.zip mask).any (fun p => decide (p.1 &&& p.2 ≠ 0))))

/-- A valid frame lowers a decoder's error count. -/
def State.swGood (s : State) (c : Nat) : State :=
  let n := s.rf (Reg.AON_SW_ERR c) 0 6
  s.wf (Reg.AON_SW_ERR c) 0 6 (n - 1)

/-- The sum of the two middle values of a list: its sign is the median's. -/
def median2 (l : List Int) : Int :=
  let t := l.mergeSort (fun a b => decide (a ≤ b))
  t.getD ((l.length - 1) / 2) 0 + t.getD (l.length / 2) 0

/-- In SELECTIVE, a frame without error moves the HFRC trim at most one step toward the median of the last 8 corrections (in ppb;
half a step, 0.01 %, is within reach of none) (R383). -/
def State.swTrim (s : State) (corr : Int) : State :=
  if s.pwr.state ≠ 2 ∨ s.frcRuns ∨ (s.rf Reg.CRU_HFRC_TRIM 12 2 ≠ 0 ∧ s.rf Reg.CRU_HFRC_TRIM 12 2 ≠ 3) then s
  else
    let l := (s.pwr.trims ++ [corr]).drop (s.pwr.trims.length + 1 - 8)
    let m := median2 l
    let s := s.setPwr { s.pwr with trims := l }
    s.trimMove (if 200000 < m then 1 else if m < -200000 then -1 else 0)

/-- SW_FRAME_MATCH: a frame without error at its CRC delimiter; one that matches latches its source and the first is captured (R389,
R392). -/
def State.swFrame (s : State) (c id : Nat) (ide rtr : Bool) (dlc : Nat) (data : List Byte) (n : Nat) (corr : Int) : State :=
  if !s.decoderOn c then s
  else
    let s := ((s.heard c).swGood c).swTrim corr
    if rtr ∨ !s.swMatch c id ide dlc data then s
    else
      let s := if s.pwr.seq = 1 ∨ s.rb Reg.AON_WAKE_CAP0 5 then s
        else
          let s := (s.wr Reg.AON_WAKE_CAP0 (wd (c + 32 + b2n ide * 64 + dlc % 16 * 256))).wr Reg.AON_WAKE_CAP1 (wd (id % 2 ^ 29))
          let s := (s.wr Reg.AON_WAKE_CAP2 (wd (ofLE ((fit 8 data).take 4)))).wr Reg.AON_WAKE_CAP3 (wd (ofLE ((fit 8 data).drop 4)))
          s.setPwr { s.pwr with replay := some (s.frcAfter n) }
      s.latchSet c n false

/-- SW_DECODE_ERROR: a frame in error; an FD or XL frame is one unless FD_TOL (R389, R390). -/
def State.swError (s : State) (c : Nat) (fd : Bool) (n : Nat) : State :=
  if !s.decoderOn c ∨ (fd ∧ s.rb (Reg.AON_SW_CFG c) 8) then s
  else
    let s := s.heard c
    let e := s.rf (Reg.AON_SW_ERR c) 0 6 + 1
    let s := s.wf (Reg.AON_SW_ERR c) 0 6 (min e 63)
    if s.rf (Reg.AON_SW_CFG c) 16 6 < e then s.latchSet c n true else s

/-- SW_FRAME_DECODED: a frame without error that does not match. -/
def State.swDecoded (s : State) (c : Nat) (corr : Int) : State := if s.decoderOn c then ((s.heard c).swGood c).swTrim corr else s

/-! ### Sleep's hardware sequence (R396, R398) -/

/-- INH_RELEASE: never less than MIN_OFF after INH was asserted. -/
def State.inhDown (s : State) : State :=
  if s.pwr.seq ≠ 2 ∨ !s.pwr.inh ∨ !s.pwr.inhMin then s
  else (s.setPwr { s.pwr with inh := false, inhMin := decide (s.rf Reg.AON_INH_CFG 8 8 = 0) }).emit (.inh false)

/-- Every domain but AON goes off. -/
def State.allOff (s : State) (cause : Nat) : State :=
  let s := if s.pwr.svcOn then s.svcOff else s
  let s := s.fwdOff
  let s := (s.mgsReset cause).clocksOff
  s.setPwr { s.pwr with mgsOn := false, lphyOn := false, mphyOn := false, serdesOn := false, svcOn := false, carry := true }

/-- SWITCHES_OPEN: sleep is in force, or a latched wake starts at once. -/
def State.switchesOpen (s : State) : State :=
  if s.pwr.seq ≠ 2 ∨ s.pwr.inh then s
  else
    let s := s.allOff 0x20
    let s := s.setPwr { s.pwr with state := s.pwr.sleepTarget, seq := 4 }
    if s.pwr.latch.isEmpty then
      if s.pwr.sleepTarget = 2 then (List.range 24).foldl (fun s c => s.wr (Reg.AON_SW_ERR c) 0) s else s
    else s.wakeStart

/-- MIN_OFF_END: MIN_OFF has passed since INH last changed; a wake that waits for it asserts INH (R394). -/
def State.minOffEnd (s : State) : State :=
  let s := s.setPwr { s.pwr with inhMin := true }
  if s.pwr.seq = 3 ∧ !s.pwr.inh then s.inhUp else s

/-! ### Start-up (R380, R382, R394, R399-R402) -/

/-- POWER_GOOD: the MGS domain is up; the boot ROM and Vault stage S1 start. `ddr`: VDD_DDR and VDDQ are present (R451). -/
def State.powerGood (s : State) (ddr : Bool) : State :=
  if !s.pwr.inh ∨ s.pwr.boot ≠ 1 then s
  else
    let late := s.pwr.pgFail
    let s := s.setPwr { s.pwr with mgsOn := true, boot := 2, pgFail := false, ddr := ddr, state := 3 }
    if late then (s.raise .aon 0 Irq.AON_PG_FAIL).aonLog Irq.AON_PG_FAIL [] else s

/-- PG_TIMEOUT of a wake. -/
def State.pgTimeout (s : State) : State :=
  if s.pwr.seq ≠ 3 ∨ !s.pwr.inh ∨ s.pwr.boot ≠ 1 ∨ s.pwr.pgFail then s
  else (s.evt Reg.AON_PG_FAIL).setPwr { (s.evt Reg.AON_PG_FAIL).pwr with pgFail := true }

/-- XIN_A and PLL_CORE are good: the FRC starts or resumes, `n` sleep-clock cycles after it stopped; on a wake the domains of the
target come up for the restore engine. -/
def State.xinaGood (s : State) (n : Nat) : State :=
  if !s.pwr.mgsOn ∨ s.pwr.boot < 2 ∨ s.frcRuns then s
  else
    let f := s.frcAfter n
    let s := if s.pwr.carry then ({ s with frcNs := BitVec.ofNat 64 f } : State).setPwr { s.pwr with carry := false, carried := true } else s
    let s := (s.wf Reg.CRU_CLK_STAT 0 1 1).wf Reg.CRU_CLK_STAT 4 1 1
    if s.pwr.seq = 3 ∧ !s.pwr.cold then s.domsUp s.pwr.target else s

/-- XINA_START_TIMEOUT. -/
def State.xinaTimeout (s : State) : State :=
  if !s.pwr.mgsOn ∨ s.pwr.boot < 2 ∨ s.frcRuns then s
  else ((s.evt Reg.CRU_XINA_FAIL).raise .cru 0 Irq.CRU_XINA_FAIL).logReq Irq.CRU_XINA_FAIL 1 []

/-- XIN_A, or PLL_CORE, is lost: the FRC counts HFRC time, every other PLL stops, the domains beside MGS are held in reset (R381). [DEDUCED, log entry 69] -/
def State.xinaLost (s : State) : State :=
  if !s.pwr.mgsOn ∨ !s.rb Reg.CRU_CLK_STAT 0 then s
  else
    let s := s.freeQuiet
    let s := (s.domsDown 3).wr Reg.CRU_CLK_STAT (s.rd Reg.CRU_CLK_STAT &&& 0x2 ||| 0x100)
    let s := s.setPwr { s.pwr with state := 3, target := 3, busy := decide (s.pwr.seq = 2), seq := if s.pwr.seq = 2 then 2 else 0 }
    (s.raise .cru 0 Irq.CRU_XINA_LOST).logReq Irq.CRU_XINA_LOST 1 []

/-- A warm reset: every domain but AON; the FRC keeps running and the cold path follows from t3. [DEDUCED, log entry 69] -/
def State.warmReset (s : State) (cause : Nat) : State :=
  if !s.pwr.mgsOn then s
  else
    let t := if s.pwr.seq = 3 then s.pwr.target else 5
    let s := (s.domsDown 3).mgsReset cause
    (s.setPwr { s.pwr with
      state := 3, target := t, busy := true, seq := if s.pwr.seq = 1 then 0 else s.pwr.seq, boot := if s.pwr.boot < 2 then s.pwr.boot else 2, cold := true, por := false,
      record := none, latch := if s.pwr.seq = 1 then [] else s.pwr.latch }).msixEval false

/-- XINA_RETRY: after a loss a good retry ends in a warm reset; after a failed start it is the start. -/
def State.xinaRetry (s : State) (ok : Bool) (n : Nat) : State :=
  if !ok then s
  else if s.pwr.mgsOn ∧ s.rb Reg.CRU_CLK_STAT 8 then
    (s.wr Reg.CRU_CLK_STAT (s.rd Reg.CRU_CLK_STAT &&& 0x2 ||| 0x11)).warmReset 0x10
  else s.xinaGood n

/-- XINB_STABLE. -/
def State.xinbStable (s : State) : State := if s.rb Reg.AON_CLK_CFG 0 then s.wf Reg.CRU_CLK_STAT 1 1 1 else s

/-- PLL_UNLOCK of PLL k: 0 CORE, 1 SVC, 2 SERDES, 3 PHY (R384). -/
def State.pllUnlock (s : State) (k : Nat) : State :=
  if 3 < k ∨ !s.rb Reg.CRU_CLK_STAT (4 + k) then s
  else
    let s := ((s.wf Reg.CRU_CLK_STAT (4 + k) 1 0).evt Reg.CRU_PLL_UNLOCK).raise .cru 0 Irq.CRU_PLL_UNLOCK
    let s := s.logEvt .cru 0 Irq.CRU_PLL_UNLOCK 1000000000 false (toBE 1 k) k
    match k with
    | 0 => s.xinaLost
    | 2 => (phyPorts 3).foldl State.pcsDown s
    | 3 => (List.range 16).foldl State.pcsDown s
    | _ => s

/-- PLL_LOCKED: the Service Cluster's partitions restart when PLL_SVC relocks (R443). -/
def State.pllLocked (s : State) (k : Nat) : State :=
  let on : Bool := match k with | 0 => true | 1 => s.pwr.svcOn | 2 => s.pwr.serdesOn | 3 => s.pwr.lphyOn | _ => false
  if !on ∨ !s.pwr.mgsOn ∨ !s.rb Reg.CRU_CLK_STAT 0 ∨ s.rb Reg.CRU_CLK_STAT (4 + k) then s
  else
    let s := s.wf Reg.CRU_CLK_STAT (4 + k) 1 1
    if k = 1 then s.svcRelock else s

/-- BOOT_VERIFY_DONE: the firmware of the bank in use runs (Table 14-8 step 5); on a wake it restores its own domain. A trial has
ended with the restart (R424). [DEDUCED, log entry 69] -/
def State.bootDone (s : State) : State :=
  if s.pwr.boot ≠ 2 ∨ !s.pwr.mgsOn ∨ !s.rb Reg.CRU_CLK_STAT 0 ∨ s.mgs.running then s
  else
    let s := s.fallback
    let ver := s.bankField s.mgs.bank 12
    let s := (s.setMgs { s.mgs with running := true, fwVer := ver, restartedAt := s.now }).fwMeasured
    let s := s.logMgmt 0x001 false (toBE 1 (s.rd Reg.CRU_RST_CAUSE).toNat ++ toBE 1 s.mgs.bank ++ toBE 4 ver)
    let s := s.setPwr { s.pwr with boot := if s.pwr.cold then 3 else 4 }
    let s := if s.pwr.cold then s else s.mgsRestore false
    s.mailServe

/-- A brown-out's record, once its target state is reached. [DESIGN CHOICE, log entry 67] -/
def State.brownLog (s : State) : State :=
  if s.pwr.brownout then (s.setPwr { s.pwr with brownout := false }).wakeLog else s

/-- A power-on or brown-out start, a warm reset or a transition has reached state t. -/
def State.reached (s : State) (t : Nat) : State :=
  let s := (s.setPwr { s.pwr with state := t, busy := false }).raise .aon 0 Irq.AON_TRANS_DONE
  s.brownLog.deferredSleep

/-- RESTORE_COMPLETE: the journal is restored at a cold start and forwarding is enabled (R415); `bad`: the JSEQ of the first record whose CRC
fails. -/
def State.restoreDone (s : State) (bad : Option Nat) : State :=
  if s.pwr.boot ≠ 3 ∨ !s.mgsUp ∨ !s.rb Reg.CRU_CLK_STAT 0 then s
  else
    let s := s.journalCut bad
    let s := ((s.domsDown s.pwr.target).domsUp s.pwr.target).coldRestore s.pwr.por
    let s := if s.pwr.fwdOn then s.forwardOn else s
    let s := s.setPwr { s.pwr with boot := 4, cold := false, por := false }
    if s.pwr.seq = 0 then s.reached s.pwr.target else s

/-- CHECKPOINT_RESTORE of part 0 (the CAN path) or 1: enabled when its digest matches, else the cold path (R400). -/
def State.ckptRestore (s : State) (part : Nat) (ok : Bool) : State :=
  if s.pwr.seq ≠ 3 ∨ !s.pwr.fwdOn ∨ s.pwr.cold ∨ s.pwr.forwarding then s
  else if !ok then
    let s := s.wf Reg.AON_WAKE_CAUSE 5 1 1
    let s := (s.domsDown 3).aonLog Irq.AON_WAKE s.wakeInfo
    s.setPwr { s.pwr with cold := true, boot := if s.mgs.running then 3 else 2, record := none }
  else if part = 0 then (if s.pwr.canPath then s else (s.canRestore).setPwr { s.canRestore.pwr with canPath := true })
  else if s.pwr.canPath then s.restRestore.forwardOn
  else s

/-- WAKE_COMPLETE: the wake's target is reached (Table 14-7), and the margin planner runs (R425). -/
def State.wakeComplete (s : State) : State :=
  if s.pwr.seq ≠ 3 ∨ !s.pwr.mgsOn ∨ !s.rb Reg.CRU_CLK_STAT 0 ∨ (s.pwr.target ≠ 3 ∧ !s.pwr.forwarding) then s
  else
    let s := (s.setPwr { s.pwr with seq := 0 }).raise .aon 0 Irq.AON_WAKE
    (s.wakeLog.reached s.pwr.target).marginPeriod

/-- FALSE_WAKE_WINDOW: WIN ms after the target state was reached source k is not confirmed (R393). [DEDUCED, log entry 66] -/
def State.falseWake (s : State) (k : Nat) : State :=
  if s.pwr.seq = 3 ∨ !s.pwr.confirm.contains k then s
  else
    let s := s.setPwr { s.pwr with confirm := s.pwr.confirm.filter (fun i => decide (i ≠ k)) }
    let s := ((s.evt (Reg.AON_FALSE_WAKE k)).raise .aon 0 Irq.AON_FALSE_WAKE).logEvt .aon 0 Irq.AON_FALSE_WAKE 1000000000 false (toBE 1 k) k
    let n := Tab.get (fun _ => 0) s.pwr.fwRun k + 1
    let lim := s.rf Reg.AON_FW_CFG 16 4
    let s := s.setPwr { s.pwr with fwRun := Tab.set (fun _ => 0) s.pwr.fwRun k n }
    if lim = 0 ∨ n < lim then s
    else
      let s := s.wf (Reg.AON_WSRC_CFG k) 0 2 0
      let s := if k < 32 then s.wf Reg.AON_FW_DIS_LO k 1 1 else s.wf Reg.AON_FW_DIS_HI (k - 32) 1 1
      (s.raise .aon 0 Irq.AON_FW_DISARM).aonLog Irq.AON_FW_DISARM (toBE 1 k)

/-! ### Commands and transitions (R378, R379) -/

/-- A refused AON_PWR_CMD. -/
def State.transRej (s : State) : State := (s.evt Reg.AON_TRANS_REJ).raise .aon 0 Irq.AON_TRANS_REJ

/-- A transition to awake state t begins: the blocks that will lose power are asked to quiesce. [DEDUCED, log entry 64] -/
def State.transStart (s : State) (t : Nat) : State :=
  let off := fun (b : Blk) (i : Nat) => (List.range 5).any (fun d => s.domOn d && !s.domWant t d && inDomain d b i)
  let l := s.enabledPages off
  let s := s.askQuiet l
  s.setPwr { s.pwr with target := t, busy := true, waiting := l.filter (fun pg => !s.rb (Reg.BLK_STAT (pg * 0x1000)) 1) }

/-- TRANS_DONE: every block asked has quiesced, and the domains are switched. Going up needs XIN_A (R380). [DEDUCED, log entry 64] -/
def State.transDone (s : State) : State :=
  let t := s.pwr.target
  if !s.pwr.busy ∨ s.pwr.seq ≠ 0 ∨ s.pwr.cold ∨ !s.pwr.waiting.isEmpty ∨ !s.rb Reg.CRU_CLK_STAT 0 then s
  else ((s.freeQuiet).domsSet t).reached t

/-- TRANS_ABORT: a block has not quiesced within 1 ms, and the state is kept. [DEDUCED, log entry 64] -/
def State.transAbort (s : State) : State :=
  match s.pwr.waiting with
  | [] => s
  | pg :: _ =>
    if !s.pwr.busy ∨ s.pwr.seq ≠ 0 then s
    else
      let s := (s.wr Reg.CRU_TRANS_CAP (wd pg)).freeQuiet
      let s := s.setPwr { s.pwr with busy := false, target := s.pwr.state }
      (((s.evt Reg.AON_TRANS_ABORT).raise .aon 0 Irq.AON_TRANS_ABORT).aonLog Irq.AON_TRANS_ABORT (toBE 2 pg)).deferredSleep

/-- A sleep command (Table 14-7). [DEDUCED, log entry 64] -/
def State.sleepCmd (s : State) (t : Nat) : State :=
  match s.pwr.seq with
  | 0 => if s.pwr.busy then s.transRej else s.sleepStart t
  | 1 => s
  | 3 => s.setPwr { s.pwr with deferred := some t }
  | _ => s.transRej

/-- A write of AON_PWR_CMD.TARGET. [DEDUCED, log entry 64] -/
def State.pwrCmd (s : State) (t : Nat) : State :=
  if t = 1 ∨ t = 2 then s.sleepCmd t
  else if t = 0 ∨ 5 < t then s.transRej
  else if s.pwr.seq = 1 then
    let s := s.sleepAbort
    if s.pwr.state = t then s else s.transStart t
  else if s.pwr.busy ∨ s.pwr.seq ≠ 0 ∨ s.pwr.state = t then s.transRej
  else s.transStart t

/-- AON_PWR_CMD by master m. -/
def State.pwrWrite (s : State) (m t : Nat) : State := s.access m Reg.AON_PWR_CMD fun s => s.pwrCmd t

/-! ### Resets (R403) -/

/-- Power-on reset: everything but MRAM; the FRC is 0. [DEDUCED, log entry 69] -/
def State.powerOn (s : State) : State :=
  let v := s.vltPowerDown.vlt
  { State.reset with
    vlt := { v with sleepLatch := false, latchTemp := false, latchMesh := false, zeroPend := false },
    mgs := s.mgs.mram, had := { HadSt.reset with roster := s.had.saved, saved := s.had.saved }, twn := { TwnSt.reset with roster := s.twn.roster },
    hif := { HifSt.reset with ibmSeq := s.hif.ibmSeq, subsys := s.mgs.ids }, out := s.out, free := s.free, pending := s.pending }

/-- BROWNOUT: a main supply leaves power-good while INH is high; `ddr`: it is VDD_DDR or VDDQ, which are ignored where absent (R451). [DEDUCED, log entry 69] -/
def State.brownOut (s : State) (ddr : Bool) : State :=
  if (ddr ∧ !s.pwr.ddr) ∨ !s.pwr.inh ∨ !s.pwr.mgsOn ∨ s.pwr.boot < 2 then s
  else
    let p := s.pwr
    let s := (s.wf Reg.AON_WAKE_CAUSE 4 1 1).allOff 0x8
    s.setPwr { s.pwr with
      state := 3, target := if p.seq = 3 then p.target else 5, busy := true, seq := if p.seq = 1 then 0 else p.seq, boot := 1, cold := true,
      por := false, record := none, brownout := true, latch := if p.seq = 1 then [] else p.latch }

/-- CRU_RST_CMD.WARM: of master 3 only. -/
def State.warmCmd (s : State) (m : Nat) : State :=
  if m = 3 then s.warmReset 0x4 else s.violate .denied m Reg.CRU_RST_CMD true

end Sys2Proof.Machine
end

