-- ==== Sys2Proof/Machine/RegWrite.lean ====
section
/-! DEFINITION. A write of any register by any master (R12, R25-R39): the register's access code and its own rule decide what
it does. -/

namespace Sys2Proof.Machine

/-- A write of a result slot's RES_ACK register (R51). -/
def State.ackWrite (s : State) (m a : Nat) (v : Word) : State :=
  match ackSlot m a with
  | some i => s.resAck i m a v
  | none => s

/-- A write of a write-only register: the command or acknowledgement it stands for. [DESIGN CHOICE, log entry 6] -/
def State.cmdWrite (s : State) (b : Blk) (i m a : Nat) (v : Word) : State :=
  let s := if (ackSlot m a).isSome then s.ackWrite m a v else s
  match b with
  | .glb => if a = Reg.GLB_FENCE_REQ then s.fenceReq m else s
  | .cru => if a = Reg.CRU_RST_CMD ∧ bit v 0 then s.warmCmd m else s
  | .aon => if a = Reg.AON_PWR_CMD then s.pwrCmd (fld v 0 3) else s
  | .tap => if a = Reg.TAP_CMD then s.tapCmd m v else s
  | .twn => if a = Reg.TWN_CMD then s.twinCmd v else s
  | .wei => if a = Reg.WEI_CMD then s.weiCmd m v else s
  | .slu => if a = Reg.SLU_CMD i then s.sluCmd i v else s
  | .bud => if a = Reg.BUD_CMD then s.budCmd m v else s
  | .had => if a = Reg.HAD_CMD then s.hadCmd m v else s
  | .fgd => if a = Reg.FGD_CMD then s.fgdCmd m v else s
  | .fre => if a = Reg.FRE_CMD then s.freCmd m v else s
  | .ept => if a = Reg.EPT_CMD i then s.eptCmd i v else s
  | .can => if a = Reg.CAN_CMD i then s.canCmd i v else s
  | .lin => if a = Reg.LIN_CMD i then s.linCmd i v else s
  | .dom => if a = Reg.DOM_CMD i then s.domCmdWrite i v else s
  | .srv => if a = Reg.SRV_OFFSET then s.srvOffsetWrite v else s
  | .vlt => if a = Reg.VLT_CMD then s.vltCmd m (fld v 0 8) else s
  | .cau => if a = Reg.CAU_CMD then s.cauCmd m v else s
  | .lce => if a = Reg.LCE_SA_CMD i then s.saCmd m i v else s
  | .mgs => if a = Reg.MGS_CMD then s.mgsCmd m (fld v 0 8) else s
  | .upd => if a = Reg.UPD_CMD then s.updCmd m (fld v 0 4) else s
  | .svc => if a = Reg.SVC_CMD then s.svcCmd m v else s
  | _ => s

/-- A write of a W1C register: the bits written 1 clear. A CAN L0 buffer is released with its bit (R227); the compatibility
page's level follows SRV_INT (R295). -/
def State.w1cWrite (s : State) (b : Blk) (i a : Nat) (d : RegDesc) (v : Word) : State :=
  match b with
  | .can => s.canL0Release i ((a % 0x1000 - 0x20C) / 0x10) v
  | .srv => (s.wr a (s.rd a &&& ~~~(v &&& wd d.wmask))).srvLevel
  | _ => s.wr a (s.rd a &&& ~~~(v &&& wd d.wmask))

/-- A write of a word of the common header (Table 2-3). -/
def State.hdrWrite (s : State) (m a : Nat) (v : Word) : State :=
  let pg := a / 0x1000
  match a % 0x1000 with
  | 0x010 => s.cfgWrite m a v
  | 0x018 => s.intClear pg v
  | 0x01C => s.cfgWrite m a v
  | 0x024 => s.intForce pg v
  | 0x028 => s.blkLock pg v
  | 0x030 => s.errRearm pg v
  | 0x040 => s.cntSnap m pg v
  | 0x048 => s.snapAck m pg v
  | 0x058 => if bit v 31 then s.wr a 0 else s
  | _ => s

/-- A write of a register that a performance counter's preset (R430) or a claim's release (R437) makes writable although its map
says RO. -/
def State.roWrite (s : State) (b : Blk) (m a : Nat) (v : Word) : State :=
  match b with
  | .pfc => s.cfgWrite m a v
  | .svc =>
    if Reg.SVC_CLAIM 0 ≤ a ∧ a ≤ Reg.SVC_CLAIM 7 ∧ m = 2 ∧ bit v 0 then s.claimRelease s.svc.core ((a - Reg.SVC_CLAIM 0) / 4) else s
  | _ => s

/-- A write of a register of a page, once no rule stops it. -/
def State.storeWrite (s : State) (m a : Nat) (v : Word) : State :=
  match pageOf (a / 0x1000) with
  | none => s
  | some (b, i) =>
    if b ≠ .srv ∧ a % 0x1000 < 0x80 then s.hdrWrite m a v
    else
      match findReg b (a % 0x1000) with
      | none => s
      | some (d, _) =>
        match d.acc with
        | .rw => s.cfgWrite m a v
        | .rwl => s.cfgWrite m a v
        | .wo => s.cmdWrite b i m a v
        | .w1c => s.w1cWrite b i a d v
        | .evt => s.evtWrite m a d v
        | .ro => s.roWrite b m a v
        | .rv => s
        | .stat => s
        | .pair => s

/-- The core whose access master 2 presents. -/
def State.asCore (s : State) (m core : Nat) : State := if m = 2 then { s with svc := { s.svc with core := core } } else s

/-- A write of `v` to address `a` by master `m`; `core` is the Service Cluster's core when m = 2. [DESIGN CHOICE, log entry 6] -/
def State.regWrite (s : State) (m a : Nat) (v : Word) (full : Bool) (core : Nat) : State :=
  (s.asCore m core).access m a (fun s => s.storeWrite m a v) full

end Sys2Proof.Machine
end

