-- ==== Sys2Proof/Machine/Views.lean ====
section
/-! DEFINITION. What every register reads (chapters 2 to 17): the register store, and the fields that show the state of a block as it
stands; the table windows (R27, R28), held high words (R54), captured counters (R55, R56, R476) and the reads of a master. -/

namespace Sys2Proof.Machine

/-- A word of one-bit fields, bit 0 first. -/
def bitsWord : List Bool → Nat
  | [] => 0
  | b :: t => b2n b + 2 * bitsWord t

/-- Low and high word of a 64-bit value, by the address bit that tells them apart. -/
def half (hi : Bool) (v : Nat) : Word := if hi then wd (v >>> 32) else wd v

/-- An array index at a page offset: the registers start at `base`, `stride` bytes apart. -/
def idx (off base stride : Nat) : Nat := (off - base) / stride

/-! ### The common header (Table 2-3) -/

/-- BLK_CTRL.EN reads 1 on GLB, CRU, AON, MGS and EVL (Table 2-4). -/
def enFixed : Blk → Bool
  | .glb | .cru | .aon | .mgs | .evl => true
  | _ => false

/-- A header word of the page of block b, instance i. [DESIGN CHOICE, log entry 3] -/
def State.hdrView (s : State) (b : Blk) (i off : Nat) : Word :=
  let base := pageBase b i
  let pg := base / 0x1000
  match off with
  | 0x000 => wd ((pageRow b).type * 65536 + i)
  | 0x004 => 0x100
  | 0x008 => Config.blkCap (2 * pg)
  | 0x00C => Config.blkCap (2 * pg + 1)
  | 0x010 => if enFixed b then setFld (s.rd (base + 0x10)) 0 1 1 else s.rd (base + 0x10)
  | 0x014 => wd (bitsWord [s.enabled b i, s.rb (base + 0x14) 1, (s.gate pg).clkOn, s.rb (base + 0x30) 31])
  | 0x020 => s.rd (base + 0x18) &&& s.rd (base + 0x1C)
  | 0x024 => 0
  | 0x040 => 0
  | 0x044 => (s.slot (snapSlot pg)).stat
  | 0x048 => 0
  | 0x050 => if (s.slot (snapSlot pg)).valid then wd (s.snap pg).frc else 0
  | 0x054 => if (s.slot (snapSlot pg)).valid then wd ((s.snap pg).frc >>> 32) else 0
  | _ => s.rd (base + off)

/-! ### Registers that show a block's state -/

/-- A word of a result slot's window: status at 0x200, INDEX or LEN at 0x208, data at 0x240, output bytes at 0x400 (R50). -/
def State.slotView (s : State) (b : Blk) (m off : Nat) : Word :=
  match slotBase b with
  | none => 0
  | some n =>
    let t := s.slot (n + m)
    if off = 0x200 then t.stat
    else if off = 0x208 then wd (if b = .tap then t.res.index else t.res.len)
    else if 0x240 ≤ off ∧ off < 0x400 then t.res.data.getD (idx off 0x240 4) 0
    else if 0x400 ≤ off ∧ off < 0x600 then wd (ofLE ((t.res.buf.drop (off - 0x400)).take 4))
    else 0

/-- GLB: the fused grade and the roll-up words. [DESIGN CHOICE, log entry 3] -/
def State.glbView (s : State) (off : Nat) : Option Word :=
  if off = 0x84 then some (wd (skuGrade + b2n Config.unborOff * 256))
  else if 0x200 ≤ off ∧ off < 0x210 then
    some (wd (s.sumBits.foldl (fun v k => if k / 32 = idx off 0x200 4 then v ||| 2 ^ (k % 32) else v) 0))
  else none

/-- CRU_HFRC_TRIM.IN_USE: 1 while XIN_A runs, 2 from CAN edges in SELECTIVE, 0 with neither or while CODE is held (R383). -/
def State.trimSource (s : State) : Nat :=
  let src := s.rf Reg.CRU_HFRC_TRIM 12 2
  if src = 2 then 0 else if s.rb Reg.CRU_CLK_STAT 0 then 1 else if s.pwr.state = 2 ∧ src ≠ 1 then 2 else 0

/-- CRU: the sleep clock's source and the selected page's gate. -/
def State.cruView (s : State) (off : Nat) : Option Word :=
  if off = 0x80 then some (setFld (s.rd Reg.CRU_CLK_STAT) 2 1 (b2n (s.rb Reg.AON_CLK_CFG 0 && s.rb Reg.CRU_CLK_STAT 1)))
  else if off = 0x84 then some (setFld (s.rd Reg.CRU_HFRC_TRIM) 16 2 s.trimSource)
  else if off = 0x8C then
    let g := s.gate (s.rf Reg.CRU_GATE_SEL 0 14)
    some (wd (bitsWord [g.gate, g.deferred, g.clkOn]))
  else none

/-- AON_PWR_STAT. -/
def State.pwrStat (s : State) : Word :=
  let p := s.pwr
  let target := if p.seq = 1 then p.sleepTarget else if p.busy then p.target else p.state
  wd (p.state + target * 16 + b2n p.busy * 128 + p.seq % 4 * 256 +
    b2n (s.rb Reg.AON_CLK_CFG 0 && s.rb Reg.CRU_CLK_STAT 1) * 1024)

/-- TAP: entries staged and commits completed. -/
def State.tapView (s : State) (m off : Nat) : Option Word :=
  if off = 0x88 then some (wd (s.staging m).length)
  else if off = 0x180 ∨ off = 0x184 then some (half (decide (off = 0x184)) s.commits.toNat)
  else none

/-- TWN: state, twin offset, roster. [DEDUCED, log entry 80] -/
def State.twnView (s : State) (m off : Nat) : Option Word :=
  let t := s.twn
  let e := Tab.get (fun _ => RstEnt.empty) t.roster (s.rf (bankKey m Reg.TWN_RST_SEL) 0 9)
  if off = 0x84 then some (wd (t.state + 8 * bitsWord [t.ready, t.arbOk, t.hbLine, t.hbLink, t.cfgMatch]))
  else if off = 0xA0 ∨ off = 0xA4 then some (half (decide (off = 0xA4)) (unsext 64 t.offset))
  else if off = 0xA8 then some (wd t.linkDelay)
  else if off = 0xB0 then
    let periods := s.rf Reg.TWN_CFG 8 8 * 14400000 - t.primaryMin
    some (wd (if s.rf Reg.TWN_CFG 8 8 = 0 then 0 else (periods + 239999) / 240000))
  else if off = 0x144 then
    some (wd (bitsWord [e.valid, e.anchor, e.twin, e.check, e.allowE2] + e.result * 256 + e.fails * 65536))
  else if 0x148 ≤ off ∧ off < 0x168 then some (wd (ofLE ((e.digest.drop (off - 0x148)).take 4)))
  else if off = 0x168 then some (wd e.lastOk)
  else if off = 0x170 then some (wd (t.roster.filter (fun x => x.2.valid)).length)
  else none

/-- HIF: HEAD and TAIL of the rings. -/
def State.hifView (s : State) (off : Nat) : Option Word :=
  if 0x100 ≤ off ∧ off < 0x500 ∧ (off % 0x20 = 0x10 ∨ off % 0x20 = 0x14) then
    let r := s.ring (idx off 0x100 0x20)
    some (wd (if off % 0x20 = 0x10 then r.head else r.tail))
  else none

/-- LRN: the learn queue. -/
def State.lrnView (s : State) (off : Nat) : Option Word := if off = 0x8C then some (wd s.lrn.queue.length) else none

/-- BSN: what is free, the queues' charges, the FIFO pointers with the words due by now. -/
def State.bsnView (s : State) (off : Nat) : Option Word :=
  if off = 0x8C then some (wd s.bsnFree)
  else if off = 0x90 then some (wd s.sharedFree)
  else if off = 0x94 then some (wd s.rsvSum)
  else if off = 0x98 then some (wd s.descFree)
  else if 0x500 ≤ off ∧ off < 0x8C0 then
    let q := idx off 0x500 4
    some (setFld (s.rd (Reg.BSN_QSTAT q)) 0 16 (s.used q))
  else if 0xD80 ≤ off ∧ off < 0xE80 ∧ off % 0x10 = 0 then
    let f := ((s.rxf (idx off 0xD80 0x10)).fill (some s.now)).2
    some (wd (f.wr + f.rd * 65536))
  else if 0xD80 ≤ off ∧ off < 0xE80 ∧ off % 0x10 = 4 then
    let f := ((s.rxf (idx off 0xD80 0x10)).fill (some s.now)).2
    some (wd (f.cm + f.pend * 65536))
  else if 0xE80 ≤ off ∧ off < 0xF00 ∧ off % 8 = 0 then
    let f := s.txf (idx off 0xE80 8)
    some (wd (f.wr + f.rd * 65536))
  else none

/-- RAK: the audit. -/
def State.rakView (s : State) (off : Nat) : Option Word :=
  if off = 0x84 then some (wd (b2n s.bsn.auditOn + s.bsn.suspects.length * 65536))
  else if off = 0x88 then some (wd (clampN 0 0xFFFF s.bsn.lastDur))
  else none

/-- WEI: the selected meter's levels, brought up to now. [DEDUCED, log entry 80] -/
def State.weiView (s : State) (m off : Nat) : Option Word :=
  let x := (s.meter (s.rf (bankKey m Reg.WEI_SEL) 0 12)).refill s.now
  if off = 0xB0 then some (wd (x.tc / 65536)) else if off = 0xB4 then some (wd (x.tp / 65536)) else none

/-- EGS: what the transmitter does, its rate, the credits. [DEDUCED, log entry 80] -/
def State.egsView (s : State) (p off : Nat) : Option Word :=
  if off = 0x84 then
    let gone := (s.now - (s.eg p).pauseAt) * s.portRate p / 512000000
    let left := if s.paused p then s.rf (Reg.EGS_PORT_STAT p) 16 16 - gone else 0
    some (setFld (setFld (s.rd (Reg.EGS_PORT_STAT p)) 1 1 (b2n (s.eg p).tx.isSome)) 16 16 left)
  else if off = 0x88 then some (wd (s.portRate p))
  else if 0xE0 ≤ off ∧ off < 0x100 then some (wd (unsext 32 (s.creditBits p (idx off 0xE0 4))))
  else none

/-- SLU: the lists. [DEDUCED, log entry 30] -/
def State.sluView (s : State) (p off : Nat) : Option Word :=
  let u := s.sluice p
  let o := match u.oper with | some c => c | none => ⟨0, 0, 0, 0, []⟩
  if off = 0x88 then some (wd (b2n u.started + 2 * b2n u.pend.isSome + u.cur * 4 +
    (if s.gateEn p then u.gates else 0) * 65536))
  else if off = 0xB0 ∨ off = 0xB4 then some (half (decide (off = 0xB4)) o.base)
  else if off = 0xB8 then some (wd o.cycle)
  else if off = 0xBC then some (wd o.ext)
  else if off = 0xC0 then some (wd o.len)
  else if off = 0xC8 ∨ off = 0xCC then some (half (decide (off = 0xCC)) (match u.pend with | some (_, t) => t | none => 0))
  else if off = 0xD4 then some (s.gclEntry p).1
  else if off = 0xD8 then some (s.gclEntry p).2
  else none

/-- BUD: the reservations. -/
def State.budView (s : State) (off : Nat) : Option Word :=
  let n := fun (f : Resv → Bool) => (s.bud.resv.filter (fun x => f x.2)).length
  if off = 0x84 then
    some (wd (n (fun r => decide (r.state ≠ 0)) + b2n (s.bud.work.any (fun w => match w with | .recheck _ => false | _ => true)) * 2048 + n (fun r => decide (r.state = 3)) * 65536))
  else if off = 0x88 then some (wd s.budLastTime)
  else none

/-- HAD: the gates and the last candidate. -/
def State.hadView (s : State) (off : Nat) : Option Word :=
  if 0x104 ≤ off ∧ off < 0x180 ∧ off % 0x10 = 4 then
    let p := idx off 0x100 0x10
    some (setFld (s.rd (Reg.HAD_PORT_STAT p)) 3 1 (b2n (s.hadGate p)))
  else if 0x180 ≤ off ∧ off < 0x1A0 then
    some (match s.had.lastCand with
      | some (_, k) => wd (ofLE (((keyDigest k).drop (off - 0x180)).take 4))
      | none => 0)
  else if off = 0x1A0 then some (match s.had.lastCand with | some (p, _) => wd (p + 256) | none => 0)
  else none

/-- FGD: the state of every view, and the next RSEQ of the selected one. -/
def State.fgdView (s : State) (m off : Nat) : Option Word :=
  if off = 0xD8 ∨ off = 0xDC then some (half (decide (off = 0xDC)) (s.view (s.rf (bankKey m Reg.FGD_SEL) 0 6)).rseq)
  else if 0x400 ≤ off ∧ off < 0x500 then
    let x := s.view (idx off 0x400 4)
    some (wd (x.state + 4 * b2n (x.prevStatus.testBit 8) + 8 * b2n (x.prevStatus.testBit 0) + x.same * 256 + b2n x.nokey * 65536))
  else none

/-- FRE: the selected function's sequence state. -/
def State.freView (s : State) (m off : Nat) : Option Word :=
  if off = 0xA0 then
    let f := s.freFn (s.rf (bankKey m Reg.FRE_SEL) 0 8)
    some (wd (f.seq + b2n f.takeAny * 65536))
  else none

/-- EPT: the link, and the signal quality of an MG or GT port while it is up. [DESIGN CHOICE, log entry 3] -/
def State.eptView (s : State) (p off : Nat) : Option Word :=
  if off = 0x84 then some (wd (s.lstate p + b2n (decide (s.lstate p = 3)) * 8 + b2n (isSd p && s.plcaActive p) * 16))
  else if off = 0xA8 then some (if p < 16 ∧ s.lstate p = 3 then wd (Config.sqi p s.now % 8) else 0)
  else none

/-- CAN: confinement, the transmit list, the receive queue. -/
def State.canView (s : State) (c off : Nat) : Option Word :=
  let x := s.cch c
  if off = 0xA8 then
    some (wd (x.estate + b2n x.wire.isSome * 8 + clampN 0 255 x.tec * 256 + clampN 0 128 x.rec_ * 65536 + x.level * 2 ^ 24))
  else if 0x600 ≤ off ∧ off < 0x650 then some ((x.rxq.headD []).getD (idx off 0x600 4) 0)
  else if off = 0x650 then some (wd x.rxq.length)
  else none

/-- LIN: the schedule. -/
def State.linView (s : State) (l off : Nat) : Option Word :=
  let x := s.lch l
  if off = 0x8C then some (wd (x.state + x.cur * 4 + x.table * 256 + b2n x.inColl * 1024)) else none

/-- CFL: the work item and the selected SOURCE (R270). -/
def State.cflView (s : State) (m off : Nat) : Option Word :=
  let i := s.rf (bankKey m Reg.CFL_VAL_SEL) 0 15
  let e := s.tent 3 i
  let x := s.src i
  if off = 0x84 then some (match s.cfl.item with | some (j, _) => wd (1 + 2 * j) | none => 0)
  else if off = 0x8C then some (if sigSource e then wd (s.srcStored i e) else 0)
  else if off = 0x90 then
    let from_ := if x.never then max s.cfl.resetAt (Tab.get (fun _ => 0) s.cfl.srcWritten i) else x.since
    some (if sigSource e then
      wd (bitsWord [x.never, x.timedOut, x.subst, x.range] + clampN 0 0xFFFF ((s.now - from_) / 1000000) * 65536) else 0)
  else none

/-- TIM: the FRC. -/
def State.timView (s : State) (off : Nat) : Option Word :=
  if off = 0x90 then some (wd s.frcNs.toNat)
  else if off = 0x94 then some (wd s.frcFrac.toNat)
  else if off = 0x98 then some (wd (s.frcNs.toNat >>> 32))
  else none

/-- A time in 2^-16 ns as its LO, FRAC and HI words. -/
def timeWord (k : Nat) (t : Int) : Word :=
  let n := unsext 80 t
  if k = 0 then wd (n >>> 16) else if k = 1 then wd (n % 65536) else wd (n >>> 48)

/-- DOM: the domain. -/
def State.domView (s : State) (d off : Nat) : Option Word :=
  let x := s.dom d
  if off = 0x84 then
    some (wd (x.state + b2n (decide (x.state = 3)) * 8 + (s.slavePort d).getD 31 * 16 + clampN 0 15 x.lockRun * 4096 +
      b2n x.slewing * 65536))
  else if 0xA0 ≤ off ∧ off < 0xAC then some (timeWord (idx off 0xA0 4) (s.domTime d))
  else if 0xB0 ≤ off ∧ off < 0xBC then some (timeWord (idx off 0xB0 4) x.offset)
  else if off = 0xBC then some (wd (unsext 32 x.rate))
  else if off = 0xC0 ∨ off = 0xC4 then some (half (decide (off = 0xC4)) (x.epoch / 65536))
  else none

/-- VLT: the Vault's state. -/
def State.vltView (s : State) (off : Nat) : Option Word :=
  let v := s.vlt
  if off = 0x80 then
    some (wd (v.vstate + 8 * bitsWord [v.claimed, v.cosign, v.updLock, v.sleepLatch] + v.lockCause * 256 + v.epoch * 65536))
  else if off = 0x88 then some (wd v.boot)
  else if off = 0x8C then some (wd (beAt v.dsn 4 4))
  else if off = 0x90 then some (wd (beAt v.dsn 0 4))
  else if off = 0x94 then some (wd (bitsWord [v.latchTemp, v.latchMesh, v.zeroPend]))
  else none

/-- CAU: the selected entry. -/
def State.cauView (s : State) (m off : Nat) : Option Word :=
  let e := s.cauEnt (s.rf (bankKey m Reg.CAU_SEL) 0 11)
  if off = 0xB0 then some (wd (e.state + b2n e.warn * 4))
  else if off = 0xB4 then some (wd (s.auth.cau.filter (fun x => decide (x.2.state ≠ 0))).length)
  else none

/-- LCE: the selected SA. -/
def State.lceView (s : State) (m p off : Nat) : Option Word :=
  if off = 0x130 then
    let a := s.sa (s.rf (bankKey m (Reg.LCE_SA_SEL p)) 0 9)
    some (wd (a.state + b2n a.warn * 8 + a.port * 16))
  else none

/-- MGS: the firmware. -/
def State.mgsView (s : State) (off : Nat) : Option Word :=
  let g := s.mgs
  if off = 0x80 then some (wd (bitsWord [g.running && !g.down, decide (g.bank = 1), g.running && g.confirmed, g.halted] + g.unborLevel * 16))
  else if off = 0x84 then some (wd g.fwVer)
  else if off = 0x88 then some (wd (if g.running then (s.now - g.restartedAt) / 1000000000 else 0))
  else none

/-- EVL: the rings and the record EVL_SEL names. [DEDUCED, log entry 80] -/
def State.evlView (s : State) (m off : Nat) : Option Word :=
  let g := s.mgs
  let n := (s.rd (bankKey m Reg.EVL_SEL)).toNat
  let ready := g.running && decide (n ≠ 0)
  let r := if ready then s.recAt n else none
  if off = 0x88 then some (wd g.lastSeq)
  else if off = 0x8C then some (match g.gen with | x :: _ => wd x.seq | [] => 0)
  else if off = 0x90 then some (match g.sec with | x :: _ => wd x.seq | [] => 0)
  else if off = 0x94 then some (wd g.acked)
  else if off = 0x9C then some (wd (b2n ready + (match r with | some (_, sec) => 2 + 4 * b2n sec | none => 0)))
  else if 0xA0 ≤ off ∧ off < 0xC0 then
    some (match r with | some (x, _) => wd (ofLE ((x.bytes.drop (off - 0xA0)).take 4)) | none => 0)
  else none

/-- UPD: the session. -/
def State.updView (s : State) (off : Nat) : Option Word :=
  let g := s.mgs
  let st := match g.upd with | some u => u.state | none => if g.trial.isSome then 3 else 0
  if off = 0x90 then
    some (wd (st + b2n g.trial.isSome * 8 + g.updLast * 256 + s.updMaster.getD 0 * 65536))
  else if off = 0x94 then some (wd g.floor)
  else if off = 0x98 then some (wd g.staged)
  else none

/-- MGN: whether a run is in progress, and the spare sectors. -/
def State.mgnView (s : State) (off : Nat) : Option Word :=
  if off = 0x84 then some (setFld (s.rd (pageBase .mgn 0 + 0x84)) 0 1 (b2n s.mgs.planRun))
  else if off = 0x260 then some (wd s.mgs.spares)
  else none

/-- SVC: partitions and claims; GRANTED is what the reading core's partition sees. -/
def State.svcView (s : State) (m off : Nat) : Option Word :=
  if 0xA0 ≤ off ∧ off < 0xC0 then
    let p := s.part (idx off 0xA0 8)
    some (if off % 8 = 0 then wd (p.state + p.cores * 16 + b2n p.stored.isSome * 256) else wd p.version)
  else if 0xC0 ≤ off ∧ off < 0xE0 then
    let o := Tab.get (fun _ => 0) s.svc.claims (idx off 0xC0 4)
    let mine := match s.partOf s.svc.core with | some (n, _) => decide (m = 2) && decide (o = n + 1) | none => false
    some (wd (b2n mine + o * 16))
  else none

/-- ICT and ADT: valid entries. -/
def State.tabView (s : State) (b : Blk) (off : Nat) : Option Word :=
  match b with
  | .ict => if off = 0x90 then some (wd (s.tentries 1).length) else none
  | .adt =>
    if off = 0x90 then some (wd ((s.tentries 2).filter (fun x => adtValid x.2)).length)
    else if off = 0x94 then some (wd ((s.tentries 2).filter (fun x => adtValid x.2 && adtStatic x.2)).length)
    else none
  | _ => none

/-- The fields of a block's registers that show its state to master m. [DEDUCED, log entry 80] -/
def State.liveView (s : State) (b : Blk) (i m off : Nat) : Option Word :=
  match b with
  | .glb => s.glbView off
  | .cru => s.cruView off
  | .aon => if off = 0x80 then some s.pwrStat else none
  | .tap => s.tapView m off
  | .twn => s.twnView m off
  | .hif => s.hifView off
  | .ict => s.tabView b off
  | .adt => s.tabView b off
  | .lrn => s.lrnView off
  | .bsn => s.bsnView off
  | .rak => s.rakView off
  | .wei => s.weiView m off
  | .egs => s.egsView i off
  | .slu => s.sluView i off
  | .bud => s.budView off
  | .had => s.hadView off
  | .fgd => s.fgdView m off
  | .fre => s.freView m off
  | .ept => s.eptView i off
  | .can => s.canView i off
  | .lin => s.linView i off
  | .cfl => s.cflView m off
  | .tim => s.timView off
  | .dom => s.domView i off
  | .vlt => s.vltView off
  | .cau => s.cauView m off
  | .lce => s.lceView m i off
  | .mgs => s.mgsView off
  | .evl => s.evlView m off
  | .upd => s.updView off
  | .mgn => s.mgnView off
  | .svc => s.svcView m off
  | _ => none

/-! ### Reading a register -/

/-- A register that R55 freezes: a counter, or a performance counter's word. [DEDUCED, log entry 9] -/
def frozen (b : Blk) (d : RegDesc) (off : Nat) : Bool :=
  d.counter || (decide (b = .pfc) && decide (0x100 ≤ off) && decide (8 ≤ off % 16)) || (decide (b = .vlt) && decide (off = 0x88)) ||
  (decide (b = .fgd) && (decide (off = 0xD8) || decide (off = 0xDC)))

/-- A register beyond the common header. [DEDUCED, log entry 80] -/
def State.ownRead (s : State) (b : Blk) (i m a : Nat) (d : RegDesc) : Word :=
  let off := a % 0x1000
  if d.acc = .wo then 0
  else if d.acc = .rv then s.slotView b m off
  else if a = Reg.GLB_PERM_DATA then s.writeMask (s.rf Reg.GLB_PERM_SEL 0 14)
  else if frozen b d off ∧ (s.slot (snapSlot (a / 0x1000))).valid then
    Tab.get regReset (s.snap (a / 0x1000)).regs (s.regKey m a d)
  else
    match s.liveView b i m off with
    | some v => v
    | none => s.rd (s.regKey m a d)

/-- An entry word of a table window (R27): bits beyond the entry's width read 0. [DEDUCED, log entry 10] -/
def State.windowRead (s : State) (a : Nat) : Word :=
  let at_ := fun (base stride t : Nat) =>
    let n := (a - base) / stride
    wd (fld (tableMask t (s.tent t n)) (32 * ((a - base) % stride / 4)) 32)
  if a < 0x01100000 then at_ 0x01000000 16 0
  else if a < 0x01180000 then at_ 0x01100000 32 2
  else if a < 0x01200000 then at_ 0x01180000 64 1
  else if a < 0x01280000 then at_ 0x01200000 16 3
  else if a < 0x01300000 then at_ 0x01280000 64 4
  else at_ 0x01300000 16 5

/-- What the word at an address reads as now, for master m, holds apart: 0 where no register is (R25). [DEDUCED, log entry 80] -/
def State.wordAt (s : State) (m a : Nat) : Word :=
  if inWindow a then s.windowRead a
  else
    match pageOf (a / 0x1000) with
    | none => 0
    | some (b, i) =>
      let off := a % 0x1000
      if b ≠ .srv ∧ off < 0x80 then
        if off = 0x58 ∧ (s.slot (snapSlot (a / 0x1000))).valid then Tab.get regReset (s.snap (a / 0x1000)).regs a
        else s.hdrView b i off
      else
        match findReg b off with
        | none => 0
        | some (d, _) => s.ownRead b i m a d

/-! ### Multi-word values (R54) -/

/-- The high word of a statistics counter or of a 64-bit value read only, by its low word's offset. -/
def statTwo (b : Blk) (off : Nat) : List Nat :=
  match findReg b off with
  | some (d, k) => if (d.acc = .stat ∨ d.acc = .pair) ∧ off = d.off + k * d.stride then [off + 4] else []
  | none => []

/-- The other words of a multi-word value whose low word lies at this offset, the highest last. [DEDUCED, log entry 9] -/
def heldWords (b : Blk) (off : Nat) : List Nat :=
  if b ≠ .srv ∧ off < 0x80 then (if off = 0x50 then [0x54] else [])
  else
    let three := [off + 4, off + 8]
    let two := [off + 4]
    match b, off with
    | .tim, 0x90 => three
    | .dom, 0xA0 => three
    | .dom, 0xB0 => three
    | .twn, 0xA0 => two
    | .aon, 0xB8 => two
    | .aon, 0xC0 => two
    | .aon, 0xD8 => two
    | .vlt, 0x8C => two
    | .cfl, 0x8C => two
    | .icl, 0x80 => two
    | .had, 0x8C => two
    | .slu, 0x90 => two
    | .dom, 0x8C => two
    | .hif, _ => if 0x100 ≤ off ∧ off < 0x500 ∧ off % 0x20 = 0 then two else statTwo b off
    | .lrn, _ => if 0x100 ≤ off ∧ off < 0x200 ∧ off % 0x10 = 4 then two else statTwo b off
    | .lce, _ => if 0xA0 ≤ off ∧ off < 0xE0 ∧ off % 8 = 0 then two else statTwo b off
    | .aon, _ => if 0x300 ≤ off ∧ off < 0x600 ∧ off % 0x20 = 0xC then two else []
    | .pfc, _ => if 0x100 ≤ off ∧ off < 0x500 ∧ off % 16 = 8 then two else []
    | .lin, _ => if 0x200 ≤ off ∧ off < 0x600 ∧ off % 8 = 0 then two else statTwo b off
    | _, _ => statTwo b off

/-- The key of a master's hold on a page. [DEDUCED, log entry 9] -/
def holdKey (m a : Nat) : Nat := m * 0x4000 + a / 0x1000 % 0x4000

/-- The words a master holds on the page of an address. -/
def State.hold (s : State) (m a : Nat) : Hold := Tab.get (fun _ => Hold.reset) s.holds (holdKey m a)

/-- Replace a hold. -/
def State.setHold (s : State) (m a : Nat) (h : Hold) : State :=
  { s with holds := Tab.set (fun _ => Hold.reset) s.holds (holdKey m a) h }

/-- A read of a mapped word: the held value and, if it is the highest word held, the release; else the word itself, and a low word
holds its others. [DEDUCED, log entry 9] -/
def State.heldRead (s : State) (m a : Nat) : Word × State :=
  let h := s.hold m a
  match h.highs.find? (fun x => decide (x.1 = a)) with
  | some (_, v) => (v, if h.highs.getLast?.map (fun x => x.1) = some a then s.setHold m a Hold.reset else s)
  | none =>
    let v := s.wordAt m a
    match pageOf (a / 0x1000) with
    | none => (v, s)
    | some (b, _) =>
      let l := heldWords b (a % 0x1000)
      if l.isEmpty then (v, s)
      else
        let base := a / 0x1000 * 0x1000
        (v, s.setHold m a ⟨l.map (fun o => (base + o, s.wordAt m (base + o)))⟩)

/-! ### A master's read -/

/-- What stops a read (R32, R35): it returns 0 and is recorded. [DEDUCED, log entry 10] -/
def State.readViol (s : State) (a : Nat) (full : Bool) : Option Viol :=
  if !full ∨ a % 4 ≠ 0 then some .partialAccess
  else if inWindow a then (if s.pwr.fwdOn then none else some .domainOff)
  else
    match pageOf (a / 0x1000) with
    | none => none
    | some (b, _) => if s.blkOn b then none else some .domainOff

/-- A core's read of SVC_CLAIM grants a free resource (R437). -/
def State.claimOnRead (s : State) (m a : Nat) : State :=
  if m = 2 ∧ Reg.SVC_CLAIM 0 ≤ a ∧ a ≤ Reg.SVC_CLAIM 7 then s.claimRead s.svc.core ((a - Reg.SVC_CLAIM 0) / 4) else s

/-- A read of address `a` by master `m`: its value and what it leaves; `core` is the Service Cluster's core when m = 2. [DEDUCED, log entry 9] -/
def State.regRead (s : State) (m a : Nat) (full : Bool) (core : Nat) : Word × State :=
  let s := s.asCore m core
  match s.readViol a full with
  | some v => (0, (s.violate v m a false).perf 0x02 1 (some m) (some a))
  | none => (s.claimOnRead m a |>.perf 0x00 1 (some m) (some a)).heldRead m a

/-- A read whose value goes to the master. -/
def State.busRead (s : State) (m a : Nat) (full : Bool) (core : Nat) : State :=
  let (v, s) := s.regRead m a full core
  s.emit (.busRead m a v)

end Sys2Proof.Machine
end

