-- ==== Sys2Proof/Machine/Access.lean ====
section
/-! DEFINITION. The masters that reach the register space by messages: the QSPI target (R217, R218), in-band management (R219, R220)
and the Unbor monitor (R428, R429). -/

namespace Sys2Proof.Machine

/-! ### Many words -/

/-- Note that no violation has been recorded yet. -/
def State.violClear (s : State) : State := { s with hif := { s.hif with viol := false } }

/-- Read words at ascending addresses as master m: the words in order (R54, R220). -/
def State.readWords (s : State) (m a : Nat) : Nat → List Word × State
  | 0 => ([], s)
  | n + 1 =>
    let (v, s) := s.regRead m a true 0
    let (l, s) := s.readWords m (a + 4) n
    (v :: l, s)

/-- Write words at ascending addresses as master m. -/
def State.writeWords (s : State) (m a : Nat) : List Word → State
  | [] => s
  | v :: l => (s.regWrite m a v true 0).writeWords m (a + 4) l

/-- The words of a byte string sent most significant byte first. -/
def wordsBE : Nat → List Byte → List Word
  | 0, _ => []
  | n + 1, l => wd (beAt l 0 4) :: wordsBE n (l.drop 4)

/-- Words sent most significant byte first. -/
def bytesBE (l : List Word) : List Byte := l.flatMap (fun w => toBE 4 w.toNat)

/-! ### The QSPI target (R217, R218) -/

/-- One bit step of CRC-16 with polynomial 0x1021. -/
def crc16Step (c : Nat) : Nat := if c.testBit 15 then (c * 2 % 65536) ^^^ 0x1021 else c * 2 % 65536

/-- One byte step. -/
def crc16Byte (c b : Nat) : Nat :=
  let c := c ^^^ (b * 256)
  crc16Step (crc16Step (crc16Step (crc16Step (crc16Step (crc16Step (crc16Step (crc16Step c)))))))

/-- The CRC of Table 7-7: initial value 0xFFFF, no reflection, no final inversion (R217). -/
def crc16 (l : List Byte) : Nat := l.foldl (fun c b => crc16Byte c b.toNat) 0xFFFF

/-- The last two bytes are the CRC over those before them. -/
def crc16Ok (l : List Byte) : Bool := decide (beAt l (l.length - 2) 2 = crc16 (l.take (l.length - 2)))

/-- The target serves: the register space is powered and HIF_CFG.QSPI_EN = 1. -/
def State.qspiOn (s : State) : Bool := s.pwr.mgsOn && s.rb Reg.HIF_CFG 8

/-- Set a bit of the STATUS byte: 0 CRC_ERR, 1 FORMAT, 2 ACC_VIOL, 3 ABANDONED. -/
def State.qspiSet (s : State) (i : Nat) : State :=
  { s with hif := { s.hif with qspi := s.hif.qspi ||| BitVec.ofNat 4 (2 ^ i) } }

/-- A transaction that is not performed: its STATUS bit, HIF_QSPI_ERR, INT_RAW[2]. -/
def State.qspiErr (s : State) (i : Nat) : State := ((s.qspiSet i).evt Reg.HIF_QSPI_ERR).raise .hif 0 Irq.HIF_QSPI_ERR

/-- A violation among the accesses of a transaction sets STATUS.ACC_VIOL. -/
def State.qspiNote (s : State) : State := if s.hif.viol then s.qspiSet 2 else s

/-- The word count of a transaction: N - 1 is its sixth byte; 0 when it is not 1-64. [DEDUCED, log entry 41] -/
def qspiCount (b : List Byte) : Nat := if beAt b 5 1 < 64 then beAt b 5 1 + 1 else 0

/-- QSPI WRITE: the bytes the host sent in one low period of QSPI_CS_N. [DEDUCED, log entry 41] -/
def State.qspiWrite (s : State) (b : List Byte) : State :=
  let n := qspiCount b
  if !s.qspiOn ∨ beAt b 0 1 ≠ 2 then s
  else if n = 0 ∨ b.length ≠ 8 + 4 * n then s.qspiErr 1
  else if !crc16Ok b then s.qspiErr 0
  else (s.violClear.writeWords 1 (beAt b 1 4) (wordsBE n (b.drop 6))).qspiNote

/-- QSPI READ: the request's bytes. The target answers with the token, the words, STATUS and the CRC; a request whose CRC fails gets the
token 0xA5 and no data; a host that gave up before the token has abandoned the transaction. [DEDUCED, log entry 41] -/
def State.qspiRead (s : State) (b : List Byte) (abandoned : Bool) : State :=
  let n := qspiCount b
  if !s.qspiOn ∨ beAt b 0 1 ≠ 0xB then s
  else if abandoned then s.qspiSet 3
  else if n = 0 ∨ b.length ≠ 8 then s.qspiErr 1
  else if !crc16Ok b then (s.qspiErr 0).emit (.qspi [0xA5])
  else
    let (l, s) := s.violClear.readWords 1 (beAt b 1 4) n
    let s := s.qspiNote
    let r := [0x5A] ++ bytesBE l ++ toBE 1 s.hif.qspi.toNat
    s.emit (.qspi (r ++ toBE 2 (crc16 r)))

/-- QSPI STATUS: the byte is returned and cleared. [DEDUCED, log entry 41] -/
def State.qspiStatus (s : State) : State :=
  if !s.qspiOn then s
  else { s.emit (.qspi (toBE 1 s.hif.qspi.toNat)) with hif := { s.hif with qspi := 0 } }

/-! ### In-band management (R219, R220, Table 7-8) -/

/-- A dropped request. -/
def State.ibmDrop (s : State) (replay : Bool) : State :=
  if replay then s.evt Reg.HIF_IBM_REPLAY else (s.evt Reg.HIF_IBM_AUTH_FAIL).raise .hif 0 Irq.HIF_IBM_AUTH_FAIL

/-- The master requests act as. -/
def State.ibmMaster (s : State) : Nat := s.rf Reg.HIF_IBM_CFG 1 1

/-- The TAG of a message, none when the Vault refuses the key (R219). -/
def State.ibmTag (s : State) (response : Bool) (node seq : Nat) (msg : List Byte) : Option (List Byte) × State :=
  let iv := toBE 2 node ++ toBE 1 (b2n response) ++ [0x05] ++ toBE 8 seq
  let (r, s) := s.vMac 3 (s.rf Reg.HIF_IBM_CFG 8 8) false (iv ++ msg)
  if r.code = Code.ok then (some (fit 16 r.buf), s) else (none, s)

/-- The response leaves port 25 for the request's SMAC on its VID; the PCP of its tag is a free value. [DEDUCED, log entry 42] -/
def State.ibmAnswer (s : State) (typ smac vid seq addr status : Nat) (data : List Word) : State :=
  let msg := [0x05, 0x01] ++ toBE 1 (0x80 + typ) ++ toBE 1 data.length ++ toBE 2 s.node ++ toBE 8 seq ++ toBE 4 addr ++ toBE 1 status ++ [0] ++
    bytesBE data
  match s.ibmTag true s.node seq msg with
  | (none, s) => s
  | (some t, s) =>
    let (x, s) := s.draw
    s.present 25 0 false (toBE 6 smac ++ toBE 6 s.devMac ++ toBE 2 0x8100 ++ toBE 2 (fld x 0 3 * 8192 + vid) ++ toBE 2 0x88B5 ++ msg ++ t)

/-- The checks of R219 on a request: none when it is dropped, else the message without its tag. [DEDUCED, log entry 42] -/
def State.ibmCheck (s : State) (b : List Byte) : Option (List Byte) × State :=
  let n := beAt b 3 1
  let typ := beAt b 2 1
  let seq := beAt b 6 8
  let msg := b.take (20 + 4 * n)
  if !s.rb Reg.HIF_IBM_CFG 0 ∨ beAt b 4 2 % 512 ≠ s.node ∨ beAt b 1 1 ≠ 1 ∨ typ = 0 ∨ 3 < typ ∨ 16 < n ∨ b.length < 36 + 4 * n then
    (none, s.ibmDrop false)
  else
    match s.ibmTag false (beAt b 4 2) seq msg with
    | (none, s) => (none, s.ibmDrop false)
    | (some t, s) =>
      if (b.drop (20 + 4 * n)).take 16 ≠ t then (none, s.ibmDrop false)
      else if seq ≤ s.hif.ibmSeq then (none, s.ibmDrop true)
      else (some msg, { s with hif := { s.hif with ibmSeq := seq } })

/-- An accepted request is performed: READ, WRITE or FENCE. A FENCE answers when its ticket retires. [DEDUCED, log entry 42] -/
def State.ibmPerform (s : State) (smac vid : Nat) (b : List Byte) : State :=
  let s := (s.stat Reg.HIF_IBM_OK 1).violClear
  let n := beAt b 3 1
  let seq := beAt b 6 8
  let a := beAt b 14 4
  let m := s.ibmMaster
  match beAt b 2 1 with
  | 1 =>
    let (l, s) := s.readWords m a n
    s.ibmAnswer 1 smac vid seq a (b2n s.hif.viol) l
  | 2 =>
    let s := s.writeWords m a (wordsBE n (b.drop 20))
    s.ibmAnswer 2 smac vid seq a (b2n s.hif.viol) []
  | _ =>
    if n ≠ 0 then s.ibmAnswer 3 smac vid seq a 2 []
    else
      let s := s.regWrite m Reg.GLB_FENCE_REQ 0 true 0
      if s.hif.viol then s.ibmAnswer 3 smac vid seq a 1 []
      else
        let f : IbmFence := ⟨m, s.rf (bankKey m Reg.GLB_FENCE_TICKET) 0 29, smac, vid, seq⟩
        { s with hif := { s.hif with ibmWait := s.hif.ibmWait ++ [f] } }

/-- A request reaches port 25 while firmware serves it: `typ` is the row's request type; a message of another request type is not this
row's. While the management subsystem does not serve, the request waits at port 25 (R220). -/
def State.ibmRx (s : State) (typ smac vid : Nat) (b : List Byte) : State :=
  let t := beAt b 2 1
  if !s.mgsUp ∨ beAt b 0 1 ≠ 5 ∨ (1 ≤ t ∧ t ≤ 3 ∧ t ≠ typ) then s
  else
    match s.ibmCheck b with
    | (none, s) => s
    | (some msg, s) => s.ibmPerform smac vid msg

/-- The in-band FENCE requests of master m whose ticket is `n` are answered with it. [DEDUCED, log entry 42] -/
def State.ibmFenced (s : State) (m n : Nat) : State :=
  let due := fun (f : IbmFence) => decide (f.m = m) && decide (f.ticket = n)
  let l := s.hif.ibmWait.filter due
  let s := { s with hif := { s.hif with ibmWait := s.hif.ibmWait.filter (fun f => !due f) } }
  l.foldl (fun s f => if s.mgsUp then s.ibmAnswer 3 f.smac f.vid f.seq 0 0 [wd n] else s) s

/-! ### The Unbor monitor (R428, R429) -/

/-- The monitor runs: firmware serves and the fuse is not blown. -/
def State.unborOn (s : State) : Bool := s.mgsUp && !Config.unborOff

/-- An answer that ends in OK. [DEDUCED, log entry 43] -/
def State.unborOk (s : State) (vals : List Word) (recs : List (List Byte) := []) : State := s.emit (.unbor vals recs none)

/-- An answer that ends in ERR: the code is the Vault's or the mailbox's where one is given, else a free value. [DEDUCED, log entry 43] -/
def State.unborErr (s : State) : State :=
  let (x, s) := s.draw
  s.emit (.unbor [] [] (some (fld x 0 8)))

/-- A command that needs a level: a locked monitor answers nothing, one at a lower level answers ERR. [DEDUCED, log entry 43] -/
def State.unborAt (s : State) (level : Nat) (k : State → State) : State :=
  if !s.unborOn ∨ s.mgs.unborLevel = 0 then s else if s.mgs.unborLevel < level then s.unborErr else k s

/-- help. -/
def State.unborHelp (s : State) : State := if s.unborOn then s.unborOk [] else s

/-- info: GLB_CHIP_ID, grade, serial number, boot count, version, lock state. -/
def State.unborInfo (s : State) : State :=
  if s.unborOn then
    s.unborOk [s.rd Reg.GLB_CHIP_ID, wd skuGrade, wd (beAt s.vlt.dsn 0 4), wd (beAt s.vlt.dsn 4 4), wd s.vlt.boot, wd s.mgs.fwVer,
      wd s.mgs.unborLevel]
  else s

/-- unlock: an owner envelope with ACTION UNBOR_UNLOCK; without one, SG7420-E2 grants LEVEL 2 for 1,440 minutes. [DEDUCED, log entry 43] -/
def State.unborUnlock (s : State) (env : List Byte) : State :=
  if !s.unborOn then s
  else if env.isEmpty then (if Config.skuE2 then (s.unborGrant 2 1440).unborOk [] else s.unborErr)
  else if 2044 < env.length ∨ beAt env 1 1 ≠ 0x20 then s.unborErr
  else
    if authTakes env then s.vltRequest ⟨4, VOp.monitor, [], env, none, 0⟩ (fun _ => false) else s.emit (.unbor [] [] (some 0x82))

/-- The Vault has come to an unlock's envelope: the monitor answers. [DEDUCED, log entry 43] -/
def State.unborUnlocked (s : State) (env : List Byte) (aborted : Bool) : State :=
  let (r, s) := s.authorise env aborted
  if r.code = Code.ok then s.unborOk [] else s.emit (.unbor [] [] (some r.code))

/-- The count a command names, or a free one. -/
def State.unborCount (s : State) (n : Option Nat) : Nat × State :=
  match n with
  | some n => (n, s)
  | none =>
    let (x, s) := s.draw
    (fld x 0 6 + 1, s)

/-- rd addr [n]. [DEDUCED, log entry 43] -/
def State.unborRd (s : State) (a : Nat) (n : Option Nat) : State :=
  s.unborAt 1 fun s =>
    let (n, s) := s.unborCount n
    if n = 0 ∨ 64 < n then s.unborErr
    else
      let (l, s) := s.readWords 4 a n
      s.unborOk l

/-- wr addr value: a write that the rules of register writes stop answers ERR. [DEDUCED, log entry 43] -/
def State.unborWr (s : State) (a : Nat) (v : Word) : State :=
  s.unborAt 2 fun s =>
    let s := s.violClear.regWrite 4 a v true 0
    if s.hif.viol then s.unborErr else s.unborOk []

/-- log [n]: the newest n records. [DEDUCED, log entry 43] -/
def State.unborLog (s : State) (n : Option Nat) : State :=
  s.unborAt 1 fun s =>
    let (n, s) := s.unborCount n
    let all := s.mgs.gen ++ s.mgs.sec
    let newer := fun (r : LogRec) => (all.filter (fun q => decide (r.seq < q.seq))).length
    s.unborOk [] ((all.filter (fun r => decide (newer r < n))).map (fun r => r.bytes))

/-- sens: the values of Table 15-7. -/
def State.unborSens (s : State) : State :=
  s.unborAt 1 fun s => s.unborOk ((List.range 19).map (fun k => s.rd (Reg.MGS_SENS k)))

/-- lock. -/
def State.unborLockCmd (s : State) : State := s.unborAt 1 fun s => s.unborLock.unborOk []

/-- fence: answered when its ticket retires. -/
def State.unborFence (s : State) : State :=
  s.unborAt 2 fun s =>
    let s := s.violClear.regWrite 4 Reg.GLB_FENCE_REQ 0 true 0
    if s.hif.viol then s.unborErr
    else s.setMgs { s.mgs with unborTicket := s.rf (bankKey 4 Reg.GLB_FENCE_TICKET) 0 29 }

/-- MINUTES elapse: the monitor relocks. -/
def State.unborExpire (s : State) : State := s.unborLock

/-- The monitor's fence has retired. -/
def State.unborFenced (s : State) (m n : Nat) : State :=
  if m = 4 ∧ s.mgs.unborTicket = n ∧ n ≠ 0 then (s.setMgs { s.mgs with unborTicket := 0 }).unborOk [wd n] else s

/-! ### A fence retires -/

/-- FENCE_RETIRED of master m, with the answers that wait for it. -/
def State.fenceRetired (s : State) (m : Nat) : State :=
  match (s.fence m).waiting with
  | [] => s
  | t :: _ => if t.commit then s else ((s.fenceRetire m).ibmFenced m t.num).unborFenced m t.num

end Sys2Proof.Machine
end

