-- ==== Sys2Proof/Machine/CoreBus.lean ====
section
/-! DEFINITION. What the Service Cluster's cores reach at their own addresses (R432-R435, R444). -/

namespace Sys2Proof.Machine

/-! ### Port 23's rings (R444) -/

/-- Core c touches ring n's registers: only its ring's partition may, another core's access raises an access fault. -/
def State.ringTouch (s : State) (c n a : Nat) (k : State → State) : State :=
  match s.partOf c with
  | none => s
  | some (p, _) => if s.ringPart n = p then k s else s.emit (.coreFault c a)

/-- The ring whose registers lie at a local offset, and the register's. -/
def ringLocal (off : Nat) : Option (Nat × Nat) :=
  if 0x100 ≤ off ∧ off < 0x200 then some (32 + (off - 0x100) / 0x20, off % 0x20)
  else if 0x300 ≤ off ∧ off < 0x400 then some (48 + (off - 0x300) / 0x20, off % 0x20)
  else none

/-- A write of register `r` of port 23's ring n. [DESIGN CHOICE, log entry 95] -/
def State.ringRegWrite (s : State) (n r : Nat) (v : Word) : State :=
  if r = 0xC then s.ringCtrlWrite 2 n v
  else if r < 0xC then s.ringCfgWrite 2 n (Reg.RXR_BASE_LO 0 + ringOff n + r) v
  else s

/-- A doorbell of port 23 (Table 7-12 at the local base): ring n's TAIL. -/
def State.coreDoorbell (s : State) (n : Nat) (v : Word) (full : Bool) : State :=
  let a := 0x18001000 + if n < 48 then 0x100 + 8 * (n - 32) else 8 * (n - 48)
  s.ringTouch s.svc.core n a fun s =>
    if full ∧ s.ringOn n ∧ fld v 0 16 < (s.ring n).size then s.setRing n { s.ring n with tail := fld v 0 16 } else s.dbErr

/-- A doorbell of ring n: the host's, an access by master 0, or one of port 23's, an access by the core that master 2 presents. -/
def State.anyDoorbell (s : State) (n : Nat) (v : Word) (full : Bool) : State :=
  if n < 32 then s.doorbell n v full else s.coreDoorbell n v full

/-- A write of a ring's control register: the host's by master m in the register space, port 23's by the core that master 2 presents. -/
def State.anyRingCtrl (s : State) (m n : Nat) (v : Word) : State :=
  if n < 32 then s.access m (ringCtrl n) fun s => s.ringCtrlWrite m n v
  else if m = 2 then s.ringTouch s.svc.core n (0x18000000 + 0x100 + ringOff n % 0x18000000 + 0xC) fun s => s.ringCtrlWrite m n v
  else s

/-! ### Stores and loads -/

/-- A 32-bit store by core c of a running partition at cluster address a. The timer's and the interrupt controller's registers are the
cores' own, and no state of this model. [DESIGN CHOICE, log entry 96] -/
def State.coreStore (s : State) (c a : Nat) (v : Word) (full : Bool) : State :=
  let s := s.asCore 2 c
  match s.partOf c, s.regionOf a with
  | none, _ => s
  | _, none => s.emit (.coreFault c a)
  | some _, some r =>
    if !s.pmpLets c a then s.emit (.coreFault c a)
    else match r with
      | .regs x => s.regWrite 2 x v full c
      | .memory => s.memPut a (toLE 4 v.toNat)
      | .timer => if 0x02008000 ≤ a ∧ a < 0x02008020 then s.wdtService ((a - 0x02008000) / 8) else s
      | .rings off =>
        (match ringLocal off with
        | some (n, r) => s.ringTouch c n a fun s => s.ringRegWrite n r v
        | none => s)
      | .irqs | .counter _ => s

/-- Counter i through the mapping of Table 16-1: 48 bits. M-mode and S-mode always get the count; U-mode gets 0 unless PFC_UREAD has its
group's bit (R432). [DESIGN CHOICE, log entry 96] -/
def State.counterMap (s : State) (i : Nat) (user : Bool) : BitVec 64 :=
  if user ∧ !s.rb Reg.PFC_UREAD (i / 8) then 0
  else BitVec.ofNat 64 ((s.wordAt 2 (Reg.PFC_CNT_LO i)).toNat + fld (s.wordAt 2 (Reg.PFC_CNT_HI i)) 0 16 * 2 ^ 32)

/-- A load by core c of a running partition at cluster address a, in U-mode or above it. What the timer's and the interrupt controller's
registers hold is a free value. [DESIGN CHOICE, log entries 5, 96] -/
def State.coreLoad (s : State) (c a : Nat) (user full : Bool) : State :=
  let s := s.asCore 2 c
  match s.partOf c, s.regionOf a with
  | none, _ => s
  | _, none => s.emit (.coreFault c a)
  | some _, some r =>
    if !s.pmpLets c a then s.emit (.coreFault c a)
    else match r with
      | .regs x => s.busRead 2 x full c
      | .memory => s.emit (.coreRead c a (BitVec.ofNat 64 (ofLE (bytesFrom s.svc.mem a 4))))
      | .counter i => s.emit (.coreRead c a (s.counterMap i user))
      | .rings off =>
        (match ringLocal off with
        | some (n, r) => s.ringTouch c n a fun s =>
            s.emit (.coreRead c a (BitVec.ofNat 64 (if r = 0x10 then (s.ring n).head else if r = 0x14 then (s.ring n).tail
              else (s.rd (Reg.RXR_BASE_LO 0 + ringOff n + r)).toNat)))
        | none => s.emit (.coreRead c a 0))
      | .timer | .irqs =>
        let (x, s) := s.draw
        s.emit (.coreRead c a x)

/-- REG_WRITE: master 2's addresses from 0x400_0000 on are a core's own. [DESIGN CHOICE, log entry 96] -/
def State.anyWrite (s : State) (m a : Nat) (v : Word) (full : Bool) (core : Nat) : State :=
  if m = 2 ∧ 0x4000000 ≤ a then s.coreStore core a v full else s.regWrite m a v full core

/-- A read: master 2's addresses from 0x400_0000 on are a core's own. [DESIGN CHOICE, log entry 96] -/
def State.anyRead (s : State) (m a : Nat) (full : Bool) (core : Nat) (user : Bool) : State :=
  if m = 2 ∧ 0x4000000 ≤ a then s.coreLoad core a user full else s.busRead m a full core

/-- Interrupt source i + 1 of the cluster: roll-up bit i is 1 and routed to it. -/
def State.clusterLine (s : State) (i : Nat) : Bool := s.sumBits.contains i && s.rb (Reg.GLB_INT_ROUTE i) 2

end Sys2Proof.Machine
end

