-- ==== Sys2Proof/Machine/Settle.lean ====
section
/-! DEFINITION. The frames that blocks inside consume (R62, R151), and the end of a command: what it presented passes the frame path. -/

namespace Sys2Proof.Machine

/-- A message of the twin unit, `b` from its SELECTOR: Table 13-1's TYPE names it. The HEARTBEAT's message does not carry PREFER: what was
known of the partner's stays. [DESIGN CHOICE, log entry 90] -/
def State.twinMsg (s : State) (b : List Byte) : State :=
  match beAt b 2 1 with
  | 2 => s.digestRx b
  | 3 => s.divergeRx b
  | 4 => s.selfRx b
  | 5 => if beAt b 12 1 = 1 then s.roleOfferRx b else s.roleAcceptRx b
  | 6 => s.syncReqRx b
  | 7 => s.syncDataRx b
  | 8 => s.syncEndRx b
  | 9 => s.attestReqRx b
  | 10 => s.attestRepRx b
  | _ => s.hbRx s.twn.partnerPrefer b

/-- A message of head admission on port p, `b` from its SELECTOR: a PROOF or a REQUEST, and any other is a bad message (R167). [DESIGN CHOICE, log entry 90] -/
def State.hadMsg (s : State) (p : Nat) (b : List Byte) : State := if beAt b 2 1 = 4 then s.hadRequest p b else s.hadProof p b

/-- A frame consumed at port p reaches the block that Table 3-2 names for it, or, at stage 1, the port (R62, R151); a bad one reaches only
the port. [DESIGN CHOICE, log entry 90] -/
def State.deliver (s : State) (p ts : Nat) (good : Bool) (b : List Byte) : State :=
  let x := parse b
  let m := b.drop x.off
  if beAt b 12 2 = 0x8808 then s.macTake p b good
  else if !good then s
  else if x.etype = 0x88F7 then s.gptpRx p ts m
  else
    match x.selector b with
    | some 1 => s.hadMsg p m
    | some 2 => s.twinMsg m
    | some 3 => s.anchorMsg p x.smac m
    | _ => s

/-- One thing that a block inside presented, or consumes. [DESIGN CHOICE, log entries 18, 90] -/
def State.settleOne (s : State) : Inject → State
  | .consumed p ts good b => s.deliver p ts good b
  | x => s.injectOne x

/-- Pass on what blocks inside have presented, and what that makes them present, for at most `n` rounds. [DESIGN CHOICE, log entry 18] -/
def State.settleFrom : Nat → State → State
  | 0, s => s
  | n + 1, s =>
    match s.inj with
    | [] => s
    | l => State.settleFrom n (l.foldl State.settleOne { s with inj := [] })

/-- The end of a command: what it presented passes the frame path. [DESIGN CHOICE, log entry 18] -/
def State.settle (s : State) : State := State.settleFrom 8 s

abbrev Out := Host.Outcome State Fault Refusal

/-- The outcome of a command that may present frames. [DESIGN CHOICE, log entry 18] -/
def settled (s : State) : Out := .next s.settle

/-- A tick while no command waits: the address table's engine makes one write of those it still owes (R79-R81), the FRC counts (R272), and
a transfer to a joining secondary that falls due is made (R364). [DESIGN CHOICE, log entries 12, 87] -/
def State.idle (s : State) : State := s.adtNext.frcTick.syncCapture.settle

end Sys2Proof.Machine
end

