-- ==== Sys2Proof/Machine/TimeCmd.lean ====
section
/-! DEFINITION. The commands of the time unit (chapter 10). -/

namespace Sys2Proof.Machine

/-- SYNC_RX: a Sync arrives on port p; a two-step Sync waits for its Follow_Up (R279, R286, R287). -/
def execSyncRx (p : Nat) (number : Nat) (twoStep : Bool) (seq : Nat) (origin : Nat) (corr : Int) (ingress : Nat) (s : State) (tlv : List Byte := []) : Out :=
  settled (s.syncRx p number twoStep seq origin corr ingress tlv)

/-- FOLLOW_UP_RX: the Follow_Up of a waiting two-step Sync (R286). -/
def execFollowUpRx (p : Nat) (number : Nat) (seq : Nat) (origin : Nat) (corr : Int) (s : State) (tlv : List Byte := []) : Out :=
  settled (s.followUpRx p number seq origin corr tlv)

/-- FOLLOW_UP_TIMEOUT: the waiting two-step Sync of domain d is dropped (R286). -/
def execFollowUpTimeout (d : Nat) (s : State) : Out :=
  .next <| match (s.dom d).wait with
  | some _ => (s.setDom d { s.dom d with wait := none }).syncDrop
  | none => s

/-- SYNC_TIMEOUT of domain d (R281, Table 10-1). -/
def execSyncTimeout (d : Nat) (s : State) : Out :=
  .next <|
    let goTo := fun (s : State) (n : Nat) =>
      ((s.evt (Reg.DOM_SYNC_TO d)).raise .dom d Irq.DOM_SYNC_TIMEOUT).domEnter d n
    if s.domGm d then s
    else match (s.dom d).state with
    | 2 => goTo s 1
    | 3 => goTo s 4
    | _ => s

/-- GM_SYNC_TIMER of domain d: a grandmaster, or a domain in HOLDOVER, sends its Syncs (R287). -/
def execGmSyncTimer (d : Nat) (s : State) : Out :=
  settled <|
    let st := (s.dom d).state
    if st = 4 ∨ (s.domGm d ∧ st ≠ 0) then
      s.syncOut d { dom := d, relay := false, origin := 0, corr := 0, steps := (s.dom d).stepped }
    else s

/-- PDELAY_TIMER of port p: a request without a response has failed; the next Pdelay_Req is sent (R286). -/
def execPdelayTimer (p : Nat) (s : State) : Out :=
  settled <|
    if s.rb (Reg.TIM_PORT_CFG p) 0 ∧ p ∈ ptpPorts then
      let s := if (s.pd p).req.isSome then s.pdelayBad p else s
      let P := s.pd p
      let s := s.setPd p { P with req := some (P.seq, s.egressStamp p), resp := none, seq := (P.seq + 1) % 65536 }
      s.ptpSend p (s.ptpFrame 2 0 p P.seq (s.rf (Reg.TIM_PORT_CFG p) 8 4 + if s.rb (Reg.TIM_PORT_CFG p) 11 then 0xF0 else 0) 0
        (List.replicate 20 0)) (.delayReq P.seq)
    else s

/-- PDELAY_REQ_RX on port p: answered with Pdelay_Resp and Pdelay_Resp_Follow_Up (R21, R286). `t2` is the request's ingress stamp. -/
def execPdelayReqRx (p seq t2 : Nat) (requester : List Byte) (s : State) : Out := settled (s.pdelayReqRx p seq t2 requester)

/-- PDELAY_RESP_RX on port p (R286). -/
def execPdelayRespRx (p seq t1 t2 t3 t4 : Nat) (s : State) : Out := .next (s.pdelayRespRx p seq t1 t2 t3 t4)

/-- GPTP_OTHER_RX: an Announce or Signaling message is consumed and counted (R285). -/
def execGptpOtherRx (number : Nat) (s : State) : Out := .next (s.gptpOther number)

/-- DOM_STEP (R281, Table 10-1). -/
def execDomStep (m d : Nat) (s : State) : Out := .next (s.access m (Reg.DOM_CMD d) fun s => s.domCmdWrite d 1)

/-- DOM_SLEW (R282). -/
def execDomSlew (m d : Nat) (s : State) : Out := .next (s.access m (Reg.DOM_CMD d) fun s => s.domCmdWrite d 2)

/-- DOM_SET_RATE (R283). -/
def execDomSetRate (m d : Nat) (s : State) : Out := .next (s.access m (Reg.DOM_CMD d) fun s => s.domCmdWrite d 4)

/-- DOM_UNLOCK (R281). -/
def execDomUnlock (m d : Nat) (s : State) : Out := .next (s.access m (Reg.DOM_CMD d) fun s => s.domCmdWrite d 8)

/-- SLEW_DONE of domain d: the accumulated adjustment equals Δ exactly; SR returns to 0 and SLEWING clears. A slew that has not applied
Δ yet goes on (R282). -/
def execSlewDone (d : Nat) (s : State) : Out := .next (s.slewSettle d)

/-- DOM_ENABLE: a write of DOM_CFG (R281, Table 10-1). -/
def execDomEnable (m d : Nat) (v : Word) (s : State) : Out :=
  .next (s.access m (Reg.DOM_CFG d) fun s => s.domCfgWrite m d v)

/-- DOM_RATE_MAX_WRITE (R276). -/
def execDomRateMaxWrite (m d : Nat) (v : Word) (s : State) : Out :=
  .next (s.access m (Reg.DOM_RATE_MAX d) fun s => s.domRateMaxWrite m d v)

/-- TIM_FRC_INC_WRITE (R273). -/
def execTimFrcIncWrite (m : Nat) (v : Word) (s : State) : Out :=
  .next (s.access m Reg.TIM_FRC_INC fun s => s.frcIncWrite v)

/-- SRV_OFFSET (R293). -/
def execSrvOffset (m : Nat) (v : Word) (s : State) : Out :=
  .next (s.access m Reg.SRV_OFFSET fun s => s.srvOffsetWrite v)

/-- HFRC_MEASURE: the HFRC cycles counted in 1,048,576 ns and the sleep clock's period (R292); while XIN_A runs the CRU trims by
one step toward 96 MHz unless SRC holds the code (R383). -/
def execHfrcMeasure (cycles : Nat) (lf : Word) (s : State) : Out :=
  .next <|
    let ppb : Int := ((cycles : Int) * 1000000000000) / (1048576 * 96) - 1000000000
    let s := (s.wr Reg.TIM_HFRC_MEAS (wd (unsext 32 (clampI (-2147483648) 2147483647 ppb)))).wr Reg.TIM_LF_PERIOD lf
    if s.rb Reg.CRU_CLK_STAT 0 ∧ s.rf Reg.CRU_HFRC_TRIM 12 2 ≠ 2 then
      s.trimMove (if 100000 < ppb then -1 else if ppb < -100000 then 1 else 0)
    else s

end Sys2Proof.Machine
end

