-- ==== Sys2Proof/Machine/RegsCmd.lean ====
section
/-! DEFINITION. The commands of the common page header, the fences and the Table Access Port (chapter 2). -/

namespace Sys2Proof.Machine

/-- An access to a register of the common page header: the compatibility servo page has none (R26). [DEDUCED, log entry 7] -/
def State.hdrAccess (s : State) (m a : Nat) (k : State → State) : State :=
  if a / 0x1000 = pageBase .srv 0 / 0x1000 then s else s.access m a k

/-- WRITE_MASK_WRITE: master m writes GLB_PERM_DATA (R36). -/
def execWriteMaskWrite (m : Nat) (v : Word) (s : State) : Out :=
  .next (s.access m Reg.GLB_PERM_DATA fun s => s.maskWrite v)

/-- FENCE_REQ (R40). -/
def execFenceReq (m : Nat) (s : State) : Out := .next (s.access m Reg.GLB_FENCE_REQ fun s => s.fenceReq m)

/-- INT_RAW_CLEAR on page pg (R58). -/
def execIntRawClear (m pg : Nat) (v : Word) (s : State) : Out :=
  .next (s.hdrAccess m (Reg.INT_RAW (pg * 0x1000)) fun s => s.intClear pg v)

/-- INT_FORCE on page pg (R30). -/
def execIntForce (m pg : Nat) (v : Word) (s : State) : Out :=
  .next (s.hdrAccess m (Reg.INT_FORCE (pg * 0x1000)) fun s => s.intForce pg v)

/-- BLK_LOCK on page pg (R34). -/
def execBlkLock (m pg : Nat) (s : State) : Out :=
  .next (s.hdrAccess m (Reg.BLK_LOCK (pg * 0x1000)) fun s => s.blkLock pg 1)

/-- ERR_CAP_REARM on page pg (R29). -/
def execErrCapRearm (m pg : Nat) (s : State) : Out :=
  .next (s.hdrAccess m (Reg.ERR_CAP0 (pg * 0x1000)) fun s => s.errRearm pg 0x80000000)

/-- CNT_SNAP: TAKE on page pg (R55). -/
def execCntSnap (m pg : Nat) (s : State) : Out :=
  .next (s.hdrAccess m (Reg.CNT_SNAP (pg * 0x1000)) fun s => s.cntSnap m pg 1)

/-- CNT_SNAP_ALL: TAKE with ALL on the GLB page (R56). -/
def execCntSnapAll (m : Nat) (s : State) : Out := .next (s.access m (Reg.CNT_SNAP 0) fun s => s.cntSnap m 0 3)

/-- SNAP_DONE on page pg (R55). -/
def execSnapDone (pg : Nat) (s : State) : Out := .next (s.snapDone pg)

/-- CNT_SNAP_ACK on page pg (R55). -/
def execCntSnapAck (m pg seq : Nat) (s : State) : Out :=
  .next (s.hdrAccess m (Reg.CNT_SNAP_ACK (pg * 0x1000)) fun s => s.snapAck m pg (wd seq))

/-- COUNTER_CLR of the event counter at address a (R476). -/
def execCounterClr (m a : Nat) (s : State) : Out := .next (s.access m a fun s => s.counterClr m a)

/-- RES_ACK of the slot whose RES_ACK register lies at address a (R51). -/
def execResAck (m a seq : Nat) (s : State) : Out :=
  .next (s.access m a fun s =>
    match ackSlot m a with
    | some i => s.resAck i m a (wd seq)
    | none => s)

/-- A write of TAP_CMD with an OP and TABLE. -/
def State.tapWrite (s : State) (m op t : Nat) : State := s.access m Reg.TAP_CMD fun s => s.tapCmd m (wd (op + t * 0x100))

/-- TAP_READ of TAP_INDEX (R475). -/
def execTapRead (m t : Nat) (s : State) : Out := .next (s.tapWrite m 1 t)
/-- TAP_WRITE (R47). -/
def execTapWrite (m t : Nat) (s : State) : Out := .next (s.tapWrite m 2 t)
/-- TAP_LOOKUP (R475). -/
def execTapLookup (m t : Nat) (s : State) : Out := .next (s.tapWrite m 3 t)
/-- TAP_INSERT (R475). -/
def execTapInsert (m t : Nat) (s : State) : Out := .next (s.tapWrite m 4 t)
/-- TAP_DELETE (R475). -/
def execTapDelete (m t : Nat) (s : State) : Out := .next (s.tapWrite m 5 t)
/-- TAP_COMMIT (R46). -/
def execTapCommit (m : Nat) (s : State) : Out := .next (s.tapWrite m 6 0)
/-- TAP_DISCARD (R48). -/
def execTapDiscard (m : Nat) (s : State) : Out := .next (s.tapWrite m 7 0)
/-- TAP_COMMIT_DONE: the commit at the front completes (R45). -/
def execTapCommitDone (s : State) : Out := .next s.tapCommitFinish
/-- TAP_OP_DONE: master m's command other than COMMIT completes (R46). -/
def execTapOpDone (m : Nat) (s : State) : Out := .next (s.publish (tapSlot m))

/-- SEED_WRITE at an ICT_SEED or ADT_SEED address (R69). -/
def execSeedWrite (m a : Nat) (v : Word) (s : State) : Out :=
  .next (s.access m a fun s => if (Reg.ICT_SEED0 ≤ a ∧ a ≤ Reg.ICT_SEED3) ∨ (Reg.ADT_SEED0 ≤ a ∧ a ≤ Reg.ADT_SEED3) then s.seedWrite m a v else s)

end Sys2Proof.Machine
end

