-- ==== Sys2Proof/Machine/AccessCmd.lean ====
section
/-! DEFINITION. The commands of the masters that reach the register space by messages (chapters 2, 7 and 15). -/

namespace Sys2Proof.Machine

/-- FENCE_RETIRED (R41): A ticket retires once the master's earlier posted writes and TAP commits have taken effect; it is written to GLB_FENCE_DONE and FENCE_SEEN. -/
def execFenceRetired (m : Nat) (s : State) : Out := settled (s.fenceRetired m)
/-- MULTIWORD_LOW_READ (R54): A read of the low word of a multi-word value holds its high word for that master until released. -/
def execMultiwordLowRead (m : Nat) (a : Nat) (full : Bool) (core : Nat) (s : State) (user : Bool := false) : Out := .next (s.anyRead m a full core user)
/-- QSPI_WRITE (R218): A QSPI WRITE transaction performs its word writes after its CRC and length check. -/
def execQspiWrite (b : List Byte) (s : State) : Out := settled (s.qspiWrite b)
/-- QSPI_READ (R217): A QSPI READ transaction returns token, data, STATUS and CRC. -/
def execQspiRead (b : List Byte) (abandoned : Bool) (s : State) : Out := .next (s.qspiRead b abandoned)
/-- QSPI_STATUS (R218): A QSPI STATUS transaction returns and clears the STATUS byte. -/
def execQspiStatus (s : State) : Out := .next s.qspiStatus
/-- IBM_READ (R220): an in-band READ request is authenticated, performed and answered. -/
def execIbmRead (smac : Nat) (vid : Nat) (b : List Byte) (s : State) : Out := settled (s.ibmRx 1 smac vid b)
/-- IBM_WRITE (R220): an in-band WRITE request is authenticated, performed and answered. -/
def execIbmWrite (smac : Nat) (vid : Nat) (b : List Byte) (s : State) : Out := settled (s.ibmRx 2 smac vid b)
/-- IBM_FENCE (R220): an in-band FENCE request issues and awaits a ticket and answers. -/
def execIbmFence (smac : Nat) (vid : Nat) (b : List Byte) (s : State) : Out := settled (s.ibmRx 3 smac vid b)
/-- UNBOR_HELP (R429): the monitor's help command lists commands. -/
def execUnborHelp (s : State) : Out := .next s.unborHelp
/-- UNBOR_INFO (R429): the monitor's info command prints identity and lock state. -/
def execUnborInfo (s : State) : Out := .next s.unborInfo
/-- UNLOCK (R429): the monitor's unlock command unlocks with an envelope or, on E2, without. -/
def execUnlock (env : List Byte) (s : State) : Out := .next (s.unborUnlock env)
/-- LOCK (R429): the monitor's lock command relocks it. -/
def execLock (s : State) : Out := .next s.unborLockCmd
/-- RD (R429): the monitor's rd command reads words as master 4. -/
def execRd (a : Nat) (n : Option Nat) (s : State) : Out := .next (s.unborRd a n)
/-- WR (R429): the monitor's wr command writes a word as master 4. -/
def execWr (a : Nat) (v : Word) (s : State) : Out := settled (s.unborWr a v)
/-- LOG (R429): the monitor's log command prints the newest records. -/
def execLog (n : Option Nat) (s : State) : Out := .next (s.unborLog n)
/-- SENS (R429): the monitor's sens command prints sensor values. -/
def execSens (s : State) : Out := .next s.unborSens
/-- FENCE (R429): the monitor's fence command fences as master 4. -/
def execFence (s : State) : Out := .next s.unborFence
/-- UNBOR_EXPIRE (R429): MINUTES elapse and the monitor relocks. -/
def execUnborExpire (s : State) : Out := .next s.unborExpire

end Sys2Proof.Machine
end

