-- ==== Sys2Proof/Machine/BusCmd.lean ====
section
/-! DEFINITION. The commands of the CAN and LIN channels (chapter 8). -/

namespace Sys2Proof.Machine

/-- CAN_FRAME_RX on channel c (R227). -/
def execCanFrameRx (c : Nat) (b : List Byte) (s : State) : Out := settled (s.canRx c b)
/-- CAU_VERDICT (R342). -/
def execCauVerdict (s : State) : Out := settled s.cauVerdict
/-- CAN_COPY_LINKED on channel c (R236). -/
def execCanCopyLinked (c : Nat) (s : State) : Out := .next (s.canLinked c)
/-- CAN_ARBITRATION on channel c (R237). -/
def execCanArbitration (c : Nat) (s : State) : Out := .next (s.canArbitrate c)
/-- CAN_TX_SUCCESS on channel c (R238). -/
def execCanTxSuccess (c : Nat) (s : State) : Out := .next (s.canSent c)
/-- CAN_TX_ERROR on channel c (R230, R238, R240). -/
def execCanTxError (c t : Nat) (dataPhase arb keep : Bool) (s : State) : Out := .next (s.canTxErr c t dataPhase arb keep)
/-- CAN_ARB_LOST on channel c (R238). -/
def execCanArbLost (c : Nat) (s : State) : Out := .next (s.canLost c)
/-- CAN_BUS_ERROR on channel c (R240). -/
def execCanBusError (c t : Nat) (dataPhase : Bool) (id inc : Nat) (s : State) : Out := .next (s.canRxErr c t dataPhase id inc)
/-- CAN_IDLE_DETECT on channel c (R240). -/
def execCanIdleDetect (c : Nat) (s : State) : Out := .next (s.canIdle c)
/-- CAN_PEX on channel c (R240). -/
def execCanPex (c id : Nat) (s : State) : Out := .next (s.canPex c id)
/-- CAN_BOFF_DELAY on channel c (R240). -/
def execCanBoffDelay (c : Nat) (s : State) : Out := .next (s.canBoffDelay c)
/-- TXL_AGED on channel c (R239). -/
def execTxlAged (c : Nat) (s : State) : Out := .next (s.txlAge c)
/-- RECOVER on channel c (R240). -/
def execRecover (m c : Nat) (s : State) : Out := .next (s.access m (Reg.CAN_CMD c) fun s => s.canCmd c 1)
/-- TXL_FLUSH on channel c (R239). -/
def execTxlFlush (m c : Nat) (s : State) : Out := .next (s.access m (Reg.CAN_CMD c) fun s => s.canCmd c 2)
/-- RXQ_POP on channel c (R235). -/
def execRxqPop (m c : Nat) (s : State) : Out := .next (s.access m (Reg.CAN_CMD c) fun s => s.canCmd c 4)
/-- L0_RELEASE of buffer k of channel c (R234). -/
def execL0Release (m c k : Nat) (v : Word) (s : State) : Out := .next (s.access m (Reg.CAN_L0_STAT c k) fun s => s.canL0Release c k v)
/-- LISTEN_WRITE: a write of CAN_MODE of channel c (R222, R231). -/
def execListenWrite (m c : Nat) (v : Word) (s : State) : Out := .next (s.access m (Reg.CAN_MODE c) fun s => s.canModeWrite m c v)
/-- LISTEN_TAKE_EFFECT on channel c (R231). -/
def execListenTakeEffect (c : Nat) (s : State) : Out := .next (s.canListen c)

/-- LIN_FRAME_RX on channel l (R242, R246). -/
def execLinFrameRx (l sof : Nat) (d : List Byte) (st : Nat) (s : State) : Out := settled (s.linRx l sof d st)
/-- LIN_RESPONSE_TIMEOUT on channel l (R242). -/
def execLinResponseTimeout (l : Nat) (s : State) : Out := .next (s.linTimeout l)
/-- LIN_COPY_LINKED on channel l (R243). -/
def execLinCopyLinked (l : Nat) (s : State) : Out := .next (s.linLinked l)
/-- LIN_HEADER_RX on channel l (R243). -/
def execLinHeaderRx (l f : Nat) (sync : Bool) (parity : Nat) (s : State) : Out := .next (s.linHeaderRx l (f % 64 + parity * 64) sync)
/-- LIN_SLOT on channel l (R244). -/
def execLinSlot (l : Nat) (s : State) : Out := .next (s.linSlot l)
/-- LIN_SWITCH on channel l (R245). -/
def execLinSwitch (m l : Nat) (s : State) : Out := .next (s.access m (Reg.LIN_CMD l) fun s => s.linCmd l 4)
/-- LIN_SLEEP on channel l (R247). -/
def execLinSleep (m l : Nat) (s : State) : Out := .next (s.access m (Reg.LIN_CMD l) fun s => s.linCmd l 2)
/-- LIN_WAKE on channel l (R247). -/
def execLinWake (m l : Nat) (s : State) : Out := .next (s.access m (Reg.LIN_CMD l) fun s => s.linCmd l 1)
/-- LIN_GOTOSLEEP_RX on channel l (R247). -/
def execLinGotosleepRx (l : Nat) (s : State) : Out := .next (s.linQuiet l)
/-- LIN_INACTIVITY on channel l (R247). -/
def execLinInactivity (l : Nat) (s : State) : Out := .next (s.linQuiet l)
/-- LIN_WAKE_RX on channel l (R247). -/
def execLinWakeRx (l : Nat) (s : State) : Out := .next (s.linWakeRx l)
/-- LIN_WAKE_RETRY on channel l (R247). -/
def execLinWakeRetry (l : Nat) (s : State) : Out := .next (s.linWakeRetry l)

end Sys2Proof.Machine
end

