-- ==== Sys2Proof/Machine/ClusterCmd.lean ====
section
/-! DEFINITION. The commands of the Service Cluster (chapter 16). -/

namespace Sys2Proof.Machine

/-- SVC_WRITE (R440): SVC WRITE stages image bytes into a stopped partition's window. -/
def execSvcWrite (m : Nat) (n : Nat) (s : State) : Out := .next (s.access m Reg.SVC_CMD fun s => s.svcWrite m n)
/-- SVC_LOAD (R440): SVC LOAD checks an image and starts copying it. -/
def execSvcLoad (m : Nat) (n : Nat) (stored : Bool) (k : Nat) (s : State) : Out := .next (s.access m Reg.SVC_CMD fun s => s.svcLoad m n (if stored then some k else none))
/-- SVC_LOAD_DONE (R440): the image is copied and the partition's cores are released. -/
def execSvcLoadDone (n : Nat) (s : State) : Out := .next (s.loadDone n)
/-- SVC_STOP (R442): SVC STOP quiesces and stops a partition. -/
def execSvcStop (m : Nat) (n : Nat) (s : State) : Out := .next (s.access m Reg.SVC_CMD fun s => s.svcStop m n)
/-- SVC_RESTART (R442): SVC RESTART reloads and restarts a partition. -/
def execSvcRestart (m : Nat) (n : Nat) (s : State) : Out := .next (s.access m Reg.SVC_CMD fun s => s.svcRestart m n)
/-- SVC_WDT_EXPIRE (R442): A core watchdog or memory error restarts its partition. -/
def execSvcWdtExpire (n : Nat) (memory : Bool) (s : State) : Out := .next (s.svcTrip n memory)
/-- SVC_WDT_SERVICE (R442): A core write to its watchdog address services it. -/
def execSvcWdtService (c : Nat) (s : State) : Out := .next (s.wdtService c)
/-- SVC_AUTOSTART (R441): at SVC domain power-up every AUTOSTART image loads in index order. -/
def execSvcAutostart (s : State) : Out := .next s.autostart
/-- SVC_CLAIM_READ (R437): A core's read of SVC_CLAIM grants a free resource to its partition. -/
def execSvcClaimRead (c : Nat) (r : Nat) (s : State) : Out := .next (s.claimRead c r)
/-- SVC_CLAIM_RELEASE (R437): the owner writes 1 to release a claimed resource. -/
def execSvcClaimRelease (c : Nat) (r : Nat) (s : State) : Out := .next (s.claimRelease c r)
/-- DDR_READY (R446): LPDDR4X training completes and DDR_READY sets. -/
def execDdrReady (ok : Bool) (s : State) : Out := .next (s.ddrReady ok)

end Sys2Proof.Machine
end

