-- ==== Sys2Proof/Machine/FwdCmd.lean ====
section
/-! DEFINITION. The commands of the intake, the learning engine, the Basin and the egress ports (chapters 3 to 5). -/

namespace Sys2Proof.Machine

/-- ETH_FRAME_RX: a frame arrives on the express or the preemptable MAC of port p (R19, R22). -/
def execEthFrameRx (p : Nat) (b : List Byte) (pre : Bool) (s : State) : Out := settled (s.ethRx p b pre)
/-- FRAME_VERDICT: the last byte of the frame arriving on port p (R109). `ecc`: 1 a corrected, 2 an uncorrectable cell error, 3 + k the link
record of its cell k fails parity (R94). `sym`, `corr`, `uncorr`: what the port's PCS found while it arrived (R204). -/
def execFrameVerdict (p : Nat) (pre : Bool) (fcsOk : Bool) (framing : Bool) (ecc : Nat) (s : State) (sym : Nat := 0) (corr : Nat := 0) (uncorr : Nat := 0) : Out :=
  settled ((s.pcsErrors p sym corr uncorr).verdict p pre fcsOk framing ecc)

/-- LEARN_COMMIT: the oldest learn request is carried out (R83-R85, R90). -/
def execLearnCommit (s : State) : Out := .next s.learnCommit
/-- FREEZE_TICK: the 10 ms pass over frozen entries (R86). -/
def execFreezeTick (s : State) : Out := .next s.freezeTick
/-- AGE_TICK: the pruning sweep (R87). -/
def execAgeTick (s : State) : Out := .next s.ageTick
/-- LRN_AGE_WRITE (R87). -/
def execLrnAgeWrite (m : Nat) (v : Word) (s : State) : Out := .next (s.access m Reg.LRN_AGE fun s => s.lrnAgeWrite m v)
/-- ANCHOR_BATCH: what has been learned is sent to the anchors (R88). -/
def execAnchorBatch (s : State) : Out := settled s.anchorBatch
/-- ANCHOR_ANNOUNCE received on port p from MAC address `smac` (R89-R91). -/
def execAnchorAnnounce (p smac : Nat) (b : List Byte) (s : State) : Out :=
  settled (s.anchorRx 1 smac b fun i s => s.anchorData p false b i)
/-- ANCHOR_WITHDRAW received (R89-R91). -/
def execAnchorWithdraw (p smac : Nat) (b : List Byte) (s : State) : Out :=
  settled (s.anchorRx 2 smac b fun i s => s.anchorData p true b i)
/-- ANCHOR_SYNC_REQ received (R88, R91). -/
def execAnchorSyncReq (smac : Nat) (b : List Byte) (s : State) : Out := settled (s.anchorRx 3 smac b fun i s => s.anchorSyncReq i)
/-- ANCHOR_SYNC_DATA received (R90, R91). -/
def execAnchorSyncData (p smac : Nat) (b : List Byte) (s : State) : Out :=
  settled (s.anchorRx 4 smac b fun i s => s.anchorSyncData p b i)
/-- ANCHOR_SYNC_END received (R91). -/
def execAnchorSyncEnd (smac : Nat) (b : List Byte) (s : State) : Out := settled (s.anchorRx 5 smac b fun i s => s.anchorSyncEnd b i)
/-- ANCHOR_SILENCE_TIMEOUT: nothing from anchor i for 3 s (R91, Table 3-10). -/
def execAnchorSilenceTimeout (i : Nat) (s : State) : Out := .next (s.anchorSilence i)
/-- ANCHOR_DISABLE: a write of LRN_ANCHOR_CTRL of anchor i (R91, Table 3-10). -/
def execAnchorDisable (m i : Nat) (v : Word) (s : State) : Out :=
  settled (s.access m (Reg.LRN_ANCHOR_CTRL i) fun s => s.anchorCtrlWrite m i v)

/-- EGRESS_SELECT on port p (R138). `ecc`: what reading the cells of the copy it starts finds (R94), as FRAME_VERDICT codes it. -/
def execEgressSelect (p : Nat) (s : State) (ecc : Nat := 0) : Out := settled (s.egressSelect p ecc)
/-- TX_COMPLETE on port p (R97). A copy on port 24 ends when Confluence takes it (R263). -/
def execTxComplete (p : Nat) (s : State) : Out := .next (if p = 24 then s else s.txComplete p)
/-- PREEMPT on port p, `sent` bytes of the fragment sent (R150). -/
def execPreempt (p sent : Nat) (s : State) : Out := settled (s.preempt p sent)
/-- VERIFY_TIMER of port p (R149). -/
def execVerifyTimer (p : Nat) (s : State) : Out := .next (s.verifyTimer p)
/-- VERIFY_RESPOND on port p (R149). -/
def execVerifyRespond (p : Nat) (s : State) : Out := .next (s.verifyRespond p)
/-- PAUSE_FRAME_RX on port p (R151, R152). -/
def execPauseFrameRx (p : Nat) (b : List Byte) (fcsOk : Bool) (s : State) : Out := .next (s.macControl p b fcsOk)
/-- PAUSE_EXPIRE on port p (R152). -/
def execPauseExpire (p : Nat) (s : State) : Out := .next (s.pauseEnd p)

/-- RAKE_AUDIT_START (R113, R118). -/
def execRakeAuditStart (s : State) : Out := .next s.auditDue
/-- RAKE_AUDIT_DONE (R114, R115-R118). -/
def execRakeAuditDone (unmarked doubled : List Nat) (broken : Bool) (beyond : List Nat) (s : State) : Out :=
  .next (s.auditDone unmarked doubled broken beyond)
/-- EDY_RATE_WRITE of rule k (R119). -/
def execEdyRateWrite (m k : Nat) (v : Word) (s : State) : Out := .next (s.access m (Reg.EDY_RATE k) fun s => s.edyRateWrite m k v)
/-- FLOW_SEED_APPLY (R99, R100). -/
def execFlowSeedApply (s : State) : Out := .next s.seedApply
/-- QCFG_WRITE: a write of BSN_QCFG or BSN_HEADROOM at address a (R105). -/
def execQcfgWrite (m a : Nat) (v : Word) (s : State) : Out := .next (s.access m a fun s => s.qcfgWrite m a v)
/-- GAP_MARKER of receive FIFO r (R126). -/
def execGapMarker (r : Nat) (s : State) : Out := .next (s.gapMark r)
/-- FIFO_RESET: the pointer check of receive or transmit FIFO r fails (R127). `held`: the descriptors of each frame a transmit FIFO
held. -/
def execFifoReset (tx : Bool) (r : Nat) (held : List Nat) (s : State) : Out :=
  .next (if tx then (s.txReset r held.length).txDropped r held else s.rxReset r)

end Sys2Proof.Machine
end

