-- ==== Sys2Proof/Machine/GuardCmd.lean ====
section
/-! DEFINITION. The commands of the Weirs, the Sluices, the Budget Engine, FRER, the Freshness Guard and head admission
(chapters 5 and 6). -/

namespace Sys2Proof.Machine

/-- WEI_APPLY of master m (R136). -/
def execWeiApply (m : Nat) (s : State) : Out := .next (s.access m Reg.WEI_CMD fun s => s.weiCmd m 1)
/-- WEI_LOAD of master m (R136). -/
def execWeiLoad (m : Nat) (s : State) : Out := .next (s.access m Reg.WEI_CMD fun s => s.weiCmd m 2)

/-- SLU_CHANGE on port p (R147). -/
def execSluChange (m p : Nat) (s : State) : Out := .next (s.access m (Reg.SLU_CMD p) fun s => s.sluCmd p 1)
/-- SLU_CANCEL on port p (R147). -/
def execSluCancel (m p : Nat) (s : State) : Out := .next (s.access m (Reg.SLU_CMD p) fun s => s.sluCmd p 2)
/-- SLU_CONFIG_CHANGE: the change time of port p's pending list arrives, `sent` bytes of the fragment in progress sent (R147). -/
def execSluConfigChange (p sent : Nat) (s : State) : Out := .next (s.sluTake p sent)
/-- GATE_EVENT on port p (R142). -/
def execGateEvent (p sent : Nat) (s : State) : Out := .next (s.gateEvent p sent)
/-- SLU_GATE_EN_WRITE: a write of SLU_CTRL on port p (R142). -/
def execSluGateEnWrite (m p : Nat) (v : Word) (s : State) : Out :=
  .next (s.access m (Reg.SLU_CTRL p) fun s => s.sluCtrlWrite m p v)
/-- SLU_GCL_WRITE: a write of SLU_GCL_D1 on port p (R143). -/
def execSluGclWrite (m p : Nat) (v : Word) (s : State) : Out := .next (s.access m (Reg.SLU_GCL_D1 p) fun s => s.gclWrite p true v)

/-- BUD_REQUEST (R154). -/
def execBudRequest (m : Nat) (s : State) : Out := .next (s.access m Reg.BUD_CMD fun s => s.budCmd m 1)
/-- BUD_QUERY (R154). -/
def execBudQuery (m : Nat) (s : State) : Out := .next (s.access m Reg.BUD_CMD fun s => s.budCmd m 5)
/-- BUD_RELEASE (R162). -/
def execBudRelease (m : Nat) (s : State) : Out := .next (s.access m Reg.BUD_CMD fun s => s.budCmd m 2)
/-- BUD_READ (R159). -/
def execBudRead (m : Nat) (s : State) : Out := .next (s.access m Reg.BUD_CMD fun s => s.budCmd m 3)
/-- BUD_RECHECK (R160). -/
def execBudRecheck (m : Nat) (s : State) : Out := .next (s.access m Reg.BUD_CMD fun s => s.budCmd m 4)
/-- BUD_CMD_DONE: the oldest command completes (R156). -/
def execBudCmdDone (s : State) : Out := .next s.budDone
/-- BUD_AUTO_RECHECK of port p (R160). -/
def execBudAutoRecheck (p : Nat) (s : State) : Out := .next (s.budAuto p)
/-- BUD_ENABLE: a write of BUD_CFG (R162). -/
def execBudEnable (m : Nat) (v : Word) (s : State) : Out := .next (s.access m Reg.BUD_CFG fun s => s.budCfgWrite m v)

/-- FRE_APPLY of master m (R181). -/
def execFreApply (m : Nat) (s : State) : Out := .next (s.access m Reg.FRE_CMD fun s => s.freCmd m 1)
/-- FRE_LOAD of master m (R181). -/
def execFreLoad (m : Nat) (s : State) : Out := .next (s.access m Reg.FRE_CMD fun s => s.freCmd m 2)
/-- FRE_RESET of master m (R181). -/
def execFreReset (m : Nat) (s : State) : Out := .next (s.access m Reg.FRE_CMD fun s => s.freCmd m 4)
/-- FRE_RECOVERY_TIMEOUT of function i (R179). -/
def execFreRecoveryTimeout (i : Nat) (s : State) : Out := .next (s.freTimeout i)
/-- FRE_LATENT_TEST of function i (R176). -/
def execFreLatentTest (i : Nat) (s : State) : Out := .next (s.freLatent i)
/-- FRE_LATENT_RESET of function i (R176). -/
def execFreLatentReset (i : Nat) (s : State) : Out := .next (s.freLatentReset i)

/-- FGD_DEADLINE of view v (R187). -/
def execFgdDeadline (v : Nat) (s : State) : Out := settled (s.fgdDeadline v)
/-- FGD_STALE_REPEAT of view v (R187). -/
def execFgdStaleRepeat (v : Nat) (s : State) : Out := settled (s.fgdRepeat v)
/-- FGD_APPLY of master m (R193). -/
def execFgdApply (m : Nat) (s : State) : Out := .next (s.access m Reg.FGD_CMD fun s => s.fgdCmd m 1)
/-- FGD_LOAD of master m (R193). -/
def execFgdLoad (m : Nat) (s : State) : Out := .next (s.access m Reg.FGD_CMD fun s => s.fgdCmd m 2)

/-- PROOF_RX on head port p (R168). -/
def execProofRx (p : Nat) (b : List Byte) (s : State) : Out := settled (s.hadProof p b)
/-- HEAD_REQUEST_RX on head port p (R171). -/
def execHeadRequestRx (p : Nat) (b : List Byte) (s : State) : Out := settled (s.hadRequest p b)
/-- PROOF_VERIFIED: the Vault completes the verification of port p's oldest PROOF, once it is at the front of its queue (R171, R172). -/
def execProofVerified (p : Nat) (alarm : Option Nat) (s : State) : Out := settled (s.hadVerified p alarm)
/-- VERDICT_SIGNED: the oldest VERDICT of port p is signed and sent (R169). -/
def execVerdictSigned (p : Nat) (s : State) : Out := settled (s.hadSigned p)
/-- HAD_RESP_TIMEOUT of port p (R171). -/
def execHadRespTimeout (p : Nat) (s : State) : Out := settled (s.hadExpire p)
/-- HAD_RETRY_TIMEOUT of port p (R171). -/
def execHadRetryTimeout (p : Nat) (s : State) : Out := settled (s.hadRetry p)
/-- HAD_PERIOD of port p (R171). -/
def execHadPeriod (p : Nat) (s : State) : Out := settled (s.hadPeriod p)
/-- OBSERVED_MINUTE: one minute of ADMITTED on port p (R173). -/
def execObservedMinute (p : Nat) (s : State) : Out := .next (s.hadMinute p)
/-- LIFE_RECORD_TIMER: 60 minutes of ADMITTED on port p (R174). -/
def execLifeRecordTimer (p : Nat) (s : State) : Out := .next (s.hadHour p)
/-- HEAD_EN_WRITE: a write of HAD_PORT_CFG[p] (R171). -/
def execHeadEnWrite (m p : Nat) (v : Word) (s : State) : Out :=
  settled (s.access m (Reg.HAD_PORT_CFG p) fun s => s.hadPortWrite m p v)
/-- HAD_ENROL of port p's candidate into index i (R164). -/
def execHadEnrol (m i p : Nat) (s : State) : Out :=
  settled (s.access m Reg.HAD_CMD fun s => s.hadCmd m (wd (1 + i * 256 + p * 65536)))
/-- HAD_RETIRE of index i (R164). -/
def execHadRetire (m i : Nat) (s : State) : Out := settled (s.access m Reg.HAD_CMD fun s => s.hadCmd m (wd (2 + i * 256)))
/-- HAD_READ of index i (R163). -/
def execHadRead (m i : Nat) (s : State) : Out := .next (s.access m Reg.HAD_CMD fun s => s.hadCmd m (wd (3 + i * 256)))
/-- HAD_READMIT of port p (R171). -/
def execHadReadmit (m p : Nat) (s : State) : Out := settled (s.access m Reg.HAD_CMD fun s => s.hadCmd m (wd (4 + p * 65536)))
/-- HAD_READ_LIFE of index i (R173). -/
def execHadReadLife (m i : Nat) (s : State) : Out := .next (s.access m Reg.HAD_CMD fun s => s.hadCmd m (wd (5 + i * 256)))

end Sys2Proof.Machine
end

