-- ==== Sys2Proof/Machine/HostCmd.lean ====
section
/-! DEFINITION. The commands of the Ethernet ports and the PCIe host interface (chapter 7). -/

namespace Sys2Proof.Machine

/-- LINK_PCS_UP on port p (R195). -/
def execLinkPcsUp (p : Nat) (s : State) : Out := settled (s.pcsUp p)
/-- LINK_HOLD_EXPIRE on port p (R195). -/
def execLinkHoldExpire (p : Nat) (s : State) : Out := settled (s.holdExpire p)
/-- LINK_PCS_DOWN on port p (R195, R196). -/
def execLinkPcsDown (p : Nat) (s : State) : Out := settled (s.pcsDown p)
/-- TRAIN_TIMEOUT on port p (R195). -/
def execTrainTimeout (p : Nat) (s : State) : Out := .next (s.trainTimeout p)
/-- EPT_CFG_WRITE on port p (R194, R195). -/
def execEptCfgWrite (m p : Nat) (v : Word) (s : State) : Out := settled (s.access m (Reg.EPT_CFG p) fun s => s.eptCfgWrite m p v)
/-- RETRAIN on port p (R195). -/
def execRetrain (m p : Nat) (s : State) : Out := settled (s.access m (Reg.EPT_CMD p) fun s => s.eptCmd p 1)
/-- EPT_SLEEP on port p (R200, R201). -/
def execEptSleep (m p : Nat) (s : State) : Out := .next (s.access m (Reg.EPT_CMD p) fun s => s.eptCmd p 2)
/-- EPT_WAKE on port p (R202). -/
def execEptWake (m p : Nat) (s : State) : Out := .next (s.access m (Reg.EPT_CMD p) fun s => s.eptCmd p 4)
/-- TC10_SLEEP_REQ_RX on port p (R200). -/
def execTc10SleepReqRx (p : Nat) (s : State) : Out := .next (s.sleepReq p)
/-- TC10_SLEEP_AGREED on port p (R200). -/
def execTc10SleepAgreed (p : Nat) (s : State) : Out := settled (s.sleepAgreed p)
/-- TC10_SLEEP_TIMEOUT on port p (R200). -/
def execTc10SleepTimeout (p : Nat) (s : State) : Out := .next (s.sleepTimeout p)
/-- TC10_WAKE_DETECT on port p: a WUR, or a WUP (R201, R202). -/
def execTc10WakeDetect (p : Nat) (wur : Bool) (s : State) : Out := .next (s.wakeSeen p wur)
/-- SD_ACTIVITY on port p (R203). -/
def execSdActivity (p : Nat) (s : State) : Out := .next (s.sdActivity p)
/-- PLCA_BEACON_TIMEOUT on port p (R198). -/
def execPlcaBeaconTimeout (p : Nat) (s : State) : Out := .next (s.beaconLost p)
/-- PLCA_BEACON_RX on port p (R198). -/
def execPlcaBeaconRx (p : Nat) (s : State) : Out := .next (s.beaconSeen p)
/-- SD_COLLISION on port p (R198). -/
def execSdCollision (p : Nat) (s : State) : Out := .next (s.collision p)
/-- HI_BER on port p (R199). -/
def execHiBer (p : Nat) (s : State) : Out := .next (s.hiBer p)

/-- HIF_DMA_PORT_WRITE: a write of HIF_CFG (R195, R208). -/
def execHifDmaPortWrite (m : Nat) (v : Word) (s : State) : Out := settled (s.access m Reg.HIF_CFG fun s => s.hifCfgWrite m v)
/-- DMA_PORT_STATUS: HIF_STAT becomes `v`, and Device Control permits Relaxed Ordering or not (R197, R212, R213). -/
def execDmaPortStatus (v : Word) (s : State) (relax : Bool := false) : Out := .next (s.hifStatus v relax)
/-- RING_ENABLE: a write of a ring's control register with EN = 1 (R208). -/
def execRingEnable (m : Nat) (tx : Bool) (r : Nat) (v : Word) (s : State) : Out :=
  .next (s.anyRingCtrl m (ringNo tx r) (setFld v 0 1 1))
/-- RING_DISABLE: a write of a ring's control register with EN = 0 (R213). -/
def execRingDisable (m : Nat) (tx : Bool) (r : Nat) (v : Word) (s : State) : Out :=
  .next (s.anyRingCtrl m (ringNo tx r) (setFld v 0 1 0))
/-- TX_DB of transmit ring t (R206-R208). -/
def execTxDb (t : Nat) (v : Word) (full : Bool) (s : State) : Out := .next (s.anyDoorbell (ringNo true t) v full)
/-- RX_DB of receive ring r (R206-R208). -/
def execRxDb (r : Nat) (v : Word) (full : Bool) (s : State) : Out := .next (s.anyDoorbell (ringNo false r) v full)
/-- HIF_TX_START of transmit ring t (R209, R210). -/
def execHifTxStart (t : Nat) (lens : List Nat) (eop : Bool) (b : List Byte) (under : Bool) (s : State) (ready : List Nat := []) (bus : Option Nat := none) : Out :=
  settled (s.hifTx t lens eop b under ready bus)
/-- RX_DESC_COMPLETE of receive ring r, whose next descriptor has BUF_LEN `buf` and BUF_ADDR `addr` (R211, R212). -/
def execRxDescComplete (r : Nat) (buf : Nat) (s : State) (addr : Nat := 0) : Out := .next (s.rxComplete r buf addr)
/-- DMA_ERROR of a ring (R213). -/
def execDmaError (tx : Bool) (r err k : Nat) (s : State) : Out := .next (s.dmaError tx r err k)
/-- MSIX_COAL_TIMER of a ring (R216). -/
def execMsixCoalTimer (tx : Bool) (r : Nat) (s : State) : Out := .next (s.ringSignal (ringNo tx r))
/-- MSIX_UNMASK: the host's requests to the MSI-X table, and the function mask (R206, R216). -/
def execMsixUnmask (reqs : List (Bool × Nat × Nat × BitVec 64)) (func : Bool) (s : State) : Out := .next (s.msixMask reqs func)
/-- PCIE_RESET (R215). -/
def execPcieReset (s : State) : Out := .next s.pcieReset

end Sys2Proof.Machine
end

