-- ==== Sys2Proof/Machine/MgmtCmd.lean ====
section
/-! DEFINITION. The commands of the management subsystem: restarts, mailbox, journal, event log, sensors, update and margins (chapter 15). -/

namespace Sys2Proof.Machine

/-- LOCKSTEP_MISMATCH (R405): A lockstep mismatch or SRAM error restarts the management subsystem. -/
def execLockstepMismatch (s : State) : Out := .next (s.mgsCrash 1)
/-- WATCHDOG_EXPIRE (R405): the management watchdog expires and restarts the subsystem. -/
def execWatchdogExpire (s : State) : Out := .next (s.mgsCrash 2)
/-- MGS_RESTART_DONE (R406): firmware serves the mailbox again after a restart. -/
def execMgsRestartDone (s : State) : Out := settled s.mgsRestarted
/-- INFO (R408): mailbox INFO returns version, bank, uptime and boot count. -/
def execInfo (m : Nat) (s : State) : Out := .next (s.mgsWrite m 1)
/-- JOURNAL_SAVE (R412): JOURNAL_SAVE records the configuration of a page range. -/
def execJournalSave (m : Nat) (s : State) : Out := .next (s.mgsWrite m 2)
/-- JOURNAL_SYNC (R412): JOURNAL_SYNC completes when every earlier commit is journalled. -/
def execJournalSync (m : Nat) (s : State) : Out := .next (s.mgsWrite m 3)
/-- AUTHORISE (R409): mailbox AUTHORISE submits a window-bound envelope and performs its delegated action. -/
def execAuthorise (m : Nat) (s : State) : Out := settled (s.mgsWrite m 4)
/-- UNBOR_UNLOCK (R429): A delegated UNBOR_UNLOCK grants the monitor a level for MINUTES. -/
def execUnborUnlock (m : Nat) (s : State) : Out := .next (s.mgsAuth m 0x20)
/-- HEAD_ENROL (R409): A delegated HEAD_ENROL performs HAD ENROL. -/
def execHeadEnrol (m : Nat) (s : State) : Out := settled (s.mgsAuth m 0x21)
/-- HEAD_RETIRE (R409): A delegated HEAD_RETIRE performs HAD RETIRE. -/
def execHeadRetire (m : Nat) (s : State) : Out := settled (s.mgsAuth m 0x22)
/-- ROSTER_ADD (R372): A delegated ROSTER_ADD adds a Reach roster entry. -/
def execRosterAdd (m : Nat) (s : State) : Out := .next (s.mgsAuth m 0x30)
/-- ROSTER_REMOVE (R372): A delegated ROSTER_REMOVE removes a roster entry. -/
def execRosterRemove (m : Nat) (s : State) : Out := .next (s.mgsAuth m 0x31)
/-- ROSTER_REPLACE (R372): A delegated ROSTER_REPLACE accepts a replacement node digest. -/
def execRosterReplace (m : Nat) (s : State) : Out := .next (s.mgsAuth m 0x32)
/-- LOG_CHECKPOINT (R418): LOG_CHECKPOINT returns checkpoint k. -/
def execLogCheckpoint (m : Nat) (s : State) : Out := .next (s.mgsWrite m 5)
/-- LOG_FLUSH (R416): LOG_FLUSH writes pending log records. -/
def execLogFlush (m : Nat) (s : State) : Out := .next (s.mgsWrite m 6)
/-- SEC_ACK (R419): SEC_ACK marks security records exported. -/
def execSecAck (m : Nat) (s : State) : Out := .next (s.mgsWrite m 7)
/-- RESTART (R405): mailbox RESTART restarts the management subsystem. -/
def execRestart (m : Nat) (s : State) : Out := .next (s.mgsWrite m 8)
/-- MARGIN_RUN (R425): MARGIN_RUN starts a planner run. -/
def execMarginRun (m : Nat) (s : State) : Out := .next (s.mgsWrite m 9)
/-- SET_IDS (R408): SET_IDS journals the PCIe subsystem IDs. -/
def execSetIds (m : Nat) (s : State) : Out := .next (s.mgsWrite m 0xA)
/-- UNBOR_LOCK (R429): UNBOR_LOCK locks the monitor and clears its write bits. -/
def execUnborLock (m : Nat) (s : State) : Out := .next (s.mgsWrite m 0xB)
/-- JOURNAL_COMMIT_RECORD (R410, R412): A completed TAP commit is journalled within 10 ms; `remap`: the sectors the write has remapped. [DEDUCED, log entry 98] -/
def execJournalCommitRecord (s : State) (remap : List Nat := []) : Out := .next (s.commitRecord.mramRemap remap)
/-- JOURNAL_COMPACT (R414): A full journal half is compacted into the other half and halves switch. -/
def execJournalCompact (s : State) : Out := .next s.compact
/-- EVENT_LOG_WRITE (R410, R416): an event log record is written to its ring and chained; `remap`: the sectors the write has remapped. [DEDUCED, log entry 98] -/
def execEventLogWrite (s : State) (remap : List Nat := []) : Out := .next (s.logFront.mramRemap remap)
/-- SUPPRESSED (R416): in the next second one SUPPRESSED record summarises rate-limited records. -/
def execSuppressed (s : State) : Out := .next s.suppressed
/-- SENSOR_SAMPLE (R420): every 1 ms sensors are sampled and alarms raised or cleared. -/
def execSensorSample (vals : List Nat) (s : State) : Out := .next (s.sensorSample vals)
/-- BEGIN (R422): UPD BEGIN checks an image header and opens a session. -/
def execBegin (m : Nat) (s : State) : Out := .next (s.updWriteCmd m 1)
/-- UPD_WRITE (R421): UPD WRITE copies a chunk into the inactive bank. -/
def execUpdWrite (m : Nat) (s : State) : Out := .next (s.updWriteCmd m 2)
/-- FINISH (R422): UPD FINISH checks the digest and signatures. -/
def execFinish (m : Nat) (s : State) : Out := .next (s.updWriteCmd m 3)
/-- ACTIVATE (R424): UPD ACTIVATE flushes, syncs and restarts from the other bank into trial. -/
def execActivate (m : Nat) (s : State) : Out := .next (s.updWriteCmd m 4)
/-- CONFIRM (R424): UPD CONFIRM ends the trial and raises the rollback floor. -/
def execConfirm (m : Nat) (s : State) : Out := .next (s.updWriteCmd m 5)
/-- ABORT (R421): UPD ABORT abandons the session. -/
def execAbort (m : Nat) (s : State) : Out := .next (s.updWriteCmd m 6)
/-- UPD_TRIAL_EXPIRE (R424): TRIAL × 10 s without CONFIRM falls back to the old bank. -/
def execUpdTrialExpire (s : State) : Out := .next s.trialExpire
/-- MARGIN_PERIOD (R425): every PERIOD_H hours or at wake the planner runs. -/
def execMarginPeriod (s : State) : Out := .next s.marginPeriod
/-- MARGIN_RUN_DONE (R426): A planner run completes, setting guard band, AVS target, MRAM pulse and forecast. -/
def execMarginRunDone (taps : List Nat) (rx : List Nat) (age : List Nat) (replica : List Nat) (sram : Nat) (eye : List Nat) (wear : List Nat) (loss : Nat) (vmin : Nat) (short : Bool) (s : State) (pulse : Nat := 0) (months : Nat := 0) : Out := .next (s.planDone ⟨taps, rx, age, replica, sram, eye, wear, loss, vmin, short, pulse, months⟩)
/-- AVS_STEP (R426): every 100 µs the AVS target moves 1 mV through AVSBus. -/
def execAvsStep (s : State) : Out := .next s.avsStep
/-- PFC_CNT_WRITE (R430): A write to a stopped performance counter presets it. -/
def execPfcCntWrite (m : Nat) (i : Nat) (hi : Bool) (v : Word) (s : State) : Out := .next (s.access m (if hi then Reg.PFC_CNT_HI i else Reg.PFC_CNT_LO i) fun s => s.pfcWrite i hi v)
/-- GPIO_EDGE (R469): A filtered enabled edge on a GPIO line sets GPI_EDGE. -/
def execGpioEdge (n : Nat) (level : Bool) (s : State) : Out := .next (s.gpioEdge n level)
/-- GPI_OUT_WRITE (R470): A write to GPI_OUT drives lines, ignoring twin-controlled bits on a secondary. -/
def execGpiOutWrite (m : Nat) (v : Word) (s : State) : Out := .next (s.access m Reg.GPI_OUT fun s => s.gpioWrite v)

end Sys2Proof.Machine
end

