-- ==== Sys2Proof/Machine/PageCmd.lean ====
section
/-! DEFINITION. The commands of BLK_CTRL and every write of a register (chapters 2, 7, 8, 9, 14). -/

namespace Sys2Proof.Machine

/-- REG_WRITE (R38): A master writes a register that has no row of its own; the write takes effect in the page in issue order, subject to masks, locks and domain power. -/
def execRegWrite (m : Nat) (a : Nat) (v : Word) (full : Bool) (core : Nat) (s : State) : Out := settled (s.anyWrite m a v full core)
/-- SOFT_RST (R31): writing BLK_CTRL.SOFT_RST starts a block reset that settles in-flight operations, idles result slots and restores registers except table seeds. -/
def execSoftRst (m : Nat) (pg : Nat) (s : State) : Out := settled (s.hdrAccess m (Reg.BLK_CTRL (pg * 0x1000)) fun s => s.blkCtrlWrite pg 4)
/-- SOFT_RST_DONE (R31): the block reset completes after in-flight operations settle, and SOFT_RST clears. -/
def execSoftRstDone (pg : Nat) (s : State) : Out := .next (s.softRstDone pg)
/-- QUIESCE_REQ (R385): BLK_CTRL.QUIESCE_REQ asks a block to complete outstanding accesses. -/
def execQuiesceReq (m : Nat) (pg : Nat) (v : Word) (s : State) : Out := settled (s.hdrAccess m (Reg.BLK_CTRL (pg * 0x1000)) fun s => s.blkCtrlWrite pg v)
/-- QUIESCED (R385): A block reports QUIESCED after completing its outstanding accesses, letting a pending gate or power transition proceed. -/
def execQuiesced (pg : Nat) (s : State) : Out := .next (s.quiesced pg)
/-- EPT_ENABLE (R195): A write of BLK_CTRL.EN on an EPT page powers or stops the port. -/
def execEptEnable (m : Nat) (p : Nat) (v : Word) (s : State) : Out := settled (s.access m (Reg.BLK_CTRL (pageBase .ept p)) fun s => s.blkCtrlWrite (pageBase .ept p / 0x1000) v)
/-- CAN_ENABLE (R222): writing BLK_CTRL.EN on a CAN page checks bit timing and leaves or enters CONFIG. -/
def execCanEnable (m : Nat) (c : Nat) (v : Word) (s : State) : Out := settled (s.access m (Reg.BLK_CTRL (pageBase .can c)) fun s => s.blkCtrlWrite (pageBase .can c / 0x1000) v)
/-- LIN_ENABLE (R245): writing BLK_CTRL.EN on a LIN page checks the table and starts RUN or stays in CONFIG. -/
def execLinEnable (m : Nat) (l : Nat) (v : Word) (s : State) : Out := settled (s.access m (Reg.BLK_CTRL (pageBase .lin l)) fun s => s.blkCtrlWrite (pageBase .lin l / 0x1000) v)
/-- CFL_ENABLE (R477): A write of BLK_CTRL.EN on the CFL page starts or stops Confluence after the item in progress. -/
def execCflEnable (m : Nat) (v : Word) (s : State) : Out := settled (s.access m (Reg.BLK_CTRL (pageBase .cfl 0)) fun s => s.blkCtrlWrite (pageBase .cfl 0 / 0x1000) v)

end Sys2Proof.Machine
end

