-- ==== Sys2Proof/Machine/Pins.lean ====
section
/-! DEFINITION. The states of the signal pins that chapter 17 gives (R388, R456, R457, R469, R470), as views of State. -/

namespace Sys2Proof.Machine

/-- The pins of Table 17-8. -/
inductive Pin where
  | canTxd (c : Nat)
  | canRxd (c : Nat)
  | canStb (c : Nat)
  | linTxd (l : Nat)
  | linRxd (l : Nat)
  | linEn (l : Nat)
  | inh
  | gpio (n : Nat)
  | intN
  | arb
  | hbOut
  | qspiIo
  | uartTxd
deriving DecidableEq, Repr

/-- What a pin does: `driven` by its block as the block's own rules say, `detector` the AON detector's input. -/
inductive PinState where
  | high
  | low
  | released
  | highZ
  | input
  | pullUp
  | pullDown
  | detector
  | unpowered
  | driven
deriving DecidableEq, Repr

/-- The restore has enabled channel c's, or l's, block. -/
def State.canPinOn (s : State) (c : Nat) : Bool := s.pwr.canPath && s.enabled .can c
def State.linPinOn (s : State) (l : Nat) : Bool := s.pwr.canPath && s.enabled .lin l

/-- A level. -/
def PinState.level (b : Bool) : PinState := if b then .high else .low

/-- A GPIO line by its GPI registers; a line of TWN_GPIO_MASK under TWN_CFG.EN is open-drain whatever they hold (R469, R470). -/
def State.gpioPin (s : State) (n : Nat) : PinState :=
  let twin := s.rb Reg.TWN_CFG 0 && s.rb Reg.TWN_GPIO_MASK n
  let out := s.rb Reg.GPI_OUT n
  if !twin && !s.rb Reg.GPI_OE n then
    if !s.rb Reg.GPI_PULL_EN n then .input else if s.rb Reg.GPI_PULL_UP n then .pullUp else .pullDown
  else if twin || s.rb Reg.GPI_OD n then (if out then .released else .low)
  else .level out

/-- Table 17-8: a pin's state in reset, awake and asleep. In sleep CANc_STB is low for MODE 2, which takes effect in SELECTIVE only (R388). -/
def State.pin (s : State) (p : Pin) : PinState :=
  match p with
  | .canTxd c => if s.asleep || !s.canPinOn c then .high else .driven
  | .linTxd l => if s.asleep || !s.linPinOn l then .high else .driven
  | .canRxd c => if s.asleep then .detector else if s.canPinOn c then .input else .pullUp
  | .linRxd l => if s.asleep then .detector else if s.linPinOn l then .input else .pullUp
  | .canStb c => if s.asleep then .level (!(decide (s.pwr.state = 2) && decide (s.wakeMode c = 2))) else .level (!s.canPinOn c)
  | .linEn l => .level (!s.asleep && s.linPinOn l)
  | .inh => .level s.pwr.inh
  | .gpio n => if s.asleep then .unpowered else s.gpioPin n
  | .intN => if s.asleep then .unpowered else if s.intN then .low else .released
  | .arb => if s.asleep then .unpowered else if s.rb Reg.TWN_CFG 0 then .driven else .released
  | .hbOut => if s.asleep then .unpowered else if s.rb Reg.TWN_CFG 0 then .driven else .low
  | .qspiIo => if s.asleep then .unpowered else .highZ
  | .uartTxd => if s.asleep then .unpowered else if s.mgsUp && !Config.unborOff then .driven else .high

end Sys2Proof.Machine
end

