-- ==== Sys2Proof/Machine/PowerCmd.lean ====
section
/-! DEFINITION. The commands of power, wake, clocks, start-up and resets (chapter 14). -/

namespace Sys2Proof.Machine

/-- PWR_CMD_DORMANT (R395): AON_PWR_CMD TARGET 1 starts the sleep sequence toward DORMANT. -/
def execPwrCmdDormant (m : Nat) (s : State) : Out := settled (s.pwrWrite m 1)
/-- PWR_CMD_SELECTIVE (R395): AON_PWR_CMD TARGET 2 starts the sleep sequence toward SELECTIVE. -/
def execPwrCmdSelective (m : Nat) (s : State) : Out := settled (s.pwrWrite m 2)
/-- PWR_CMD_MGS_ONLY (R378): AON_PWR_CMD TARGET 3 moves to MGS_ONLY. -/
def execPwrCmdMgsOnly (m : Nat) (s : State) : Out := settled (s.pwrWrite m 3)
/-- PWR_CMD_PARTIAL (R378): AON_PWR_CMD TARGET 4 moves to PARTIAL. -/
def execPwrCmdPartial (m : Nat) (s : State) : Out := settled (s.pwrWrite m 4)
/-- PWR_CMD_FULL (R378): AON_PWR_CMD TARGET 5 moves to FULL. -/
def execPwrCmdFull (m : Nat) (s : State) : Out := settled (s.pwrWrite m 5)
/-- TRANS_DONE (R378): A power transition reaches its target. -/
def execTransDone (s : State) : Out := settled s.transDone
/-- TRANS_ABORT (R379): A block not quiesced within 1 ms abandons the transition. -/
def execTransAbort (s : State) : Out := settled s.transAbort
/-- MEMBER_SILENT (R395): A sleep-set member is silent for SILENCE ms. -/
def execMemberSilent (k : Nat) (s : State) : Out := .next (s.memberSilent k)
/-- SLEEP_POINT (R396): drain, snapshot and sleep record complete with no wake; the sequencer commits. -/
def execSleepPoint (s : State) : Out := .next s.sleepPoint
/-- SLEEP_FAIL (R395): PRE_MAX expires before silence and the sleep fails. -/
def execSleepFail (s : State) : Out := settled s.sleepFail
/-- INH_RELEASE (R396): INH_DELAY after the Sleep Point INH is released. -/
def execInhRelease (s : State) : Out := .next s.inhDown
/-- SWITCHES_OPEN (R396): 0.1 ms after INH release the domain switches open and sleep or wake follows. -/
def execSwitchesOpen (s : State) : Out := .next s.switchesOpen
/-- WAKE_LATCH (R391): A wake detector fires and sets its latch, aborting a sleep or starting a wake. -/
def execWakeLatch (k : Nat) (n : Nat) (s : State) : Out := settled (s.wakeLatch k n)
/-- SW_FRAME_MATCH (R389): A selective-wake decoder matches a frame and latches its source. -/
def execSwFrameMatch (c : Nat) (id : Nat) (ide : Bool) (rtr : Bool) (dlc : Nat) (data : List Byte) (n : Nat) (corr : Int) (s : State) : Out := settled (s.swFrame c id ide rtr dlc data n corr)
/-- SW_DECODE_ERROR (R390): A decoder frame error above ERR_LIMIT latches the source. -/
def execSwDecodeError (c : Nat) (fd : Bool) (n : Nat) (s : State) : Out := settled (s.swError c fd n)
/-- SW_FRAME_DECODED (R390): A selective-wake decoder in SELECTIVE completes a CAN frame that does not match, adjusting AON_SW_ERR up or down and, for a good frame, stepping the HFRC trim toward the CAN-edge correction. -/
def execSwFrameDecoded (c : Nat) (corr : Int) (s : State) : Out := .next (s.swDecoded c corr)
/-- AON_TIMER_EXPIRE (R391): the wake timer expires and latches source 45. -/
def execAonTimerExpire (n : Nat) (s : State) : Out := .next (s.wakeLatch 45 n)
/-- MIN_OFF_END (R394): MIN_OFF after INH release ends and a pending wake asserts INH. -/
def execMinOffEnd (s : State) : Out := .next s.minOffEnd
/-- POWER_GOOD (R451): every present supply reaches power-good and start-up begins. -/
def execPowerGood (s : State) (ddr : Bool := true) : Out := .next (s.powerGood ddr)
/-- PG_TIMEOUT (R394): supplies miss power-good within PG_TIMEOUT; PG_FAIL counts. -/
def execPgTimeout (s : State) : Out := .next s.pgTimeout
/-- XINA_STABLE (R380): XIN_A passes 65,536 cycles; PLLs lock and the FRC starts or resumes. -/
def execXinaStable (n : Nat) (s : State) : Out := .next (s.xinaGood n)
/-- XINA_START_TIMEOUT (R380): XIN_A not stable within 10 ms raises XINA_FAIL and retries. -/
def execXinaStartTimeout (s : State) : Out := .next s.xinaTimeout
/-- XINA_LOST (R381): no XIN_A edge in 96 HFRC cycles stops the PLLs and holds the domains in reset. -/
def execXinaLost (s : State) : Out := .next s.xinaLost
/-- XINA_RETRY (R381): every 100 ms the CRU retries XIN_A, running a warm reset on success. -/
def execXinaRetry (ok : Bool) (n : Nat) (s : State) : Out := .next (s.xinaRetry ok n)
/-- XINB_STABLE (R382): XIN_B passes 16,384 cycles and becomes the sleep clock. -/
def execXinbStable (s : State) : Out := .next s.xinbStable
/-- PLL_UNLOCK (R384): A PLL loses lock and relocks; its users react. -/
def execPllUnlock (k : Nat) (s : State) : Out := .next (s.pllUnlock k)
/-- PLL_LOCKED (R384): A PLL locks after its domain's power-up. -/
def execPllLocked (k : Nat) (s : State) : Out := .next (s.pllLocked k)
/-- GATE (R385): CRU_GATE_CTRL.GATE requests or withdraws a page's clock gate. -/
def execGate (m : Nat) (v : Word) (s : State) : Out := settled (s.access m Reg.CRU_GATE_CTRL fun s => s.gateWrite v)
/-- GATE_CLOSE (R385): two cycles after QUIESCED the gate closes. -/
def execGateClose (pg : Nat) (s : State) : Out := .next (s.gateClose pg)
/-- FALSE_WAKE_WINDOW (R393): A latched source unconfirmed within WIN counts a false wake and may be disarmed. -/
def execFalseWakeWindow (k : Nat) (s : State) : Out := .next (s.falseWake k)
/-- WAKE_COMPLETE (R398): the wake target is reached; WAKE and TRANS_DONE are raised. -/
def execWakeComplete (s : State) : Out := settled s.wakeComplete
/-- CHECKPOINT_RESTORE (R400): the restore engine copies and verifies a checkpoint part, enabling it or taking the cold path. -/
def execCheckpointRestore (rest : Bool) (ok : Bool) (s : State) : Out := settled (s.ckptRestore (b2n rest) ok)
/-- POWER_ON_RESET (R403): VDD_AON rises or falls below threshold; everything resets and the FRC is 0. -/
def execPowerOnReset (s : State) : Out := .next s.powerOn
/-- BROWNOUT (R403): A main supply leaves power-good while INH is high; all but AON reset. -/
def execBrownout (s : State) (ddr : Bool := false) : Out := .next (s.brownOut ddr)
/-- RESET_N (R403): RESET_N low for 1 µs starts a warm reset. -/
def execResetN (s : State) : Out := .next (s.warmReset 0x2)
/-- WARM (R403): CRU_RST_CMD.WARM by master 3 starts a warm reset. -/
def execWarm (m : Nat) (s : State) : Out := .next (s.access m Reg.CRU_RST_CMD fun s => s.warmCmd m)
/-- BOOT_VERIFY_DONE (R399): the boot ROM verifies the firmware bank and firmware starts the restore. -/
def execBootVerifyDone (s : State) : Out := settled s.bootDone
/-- RESTORE_COMPLETE (R415): the journal restore completes and forwarding is enabled. -/
def execRestoreComplete (s : State) (bad : Option Nat := none) : Out := settled (s.restoreDone bad)

end Sys2Proof.Machine
end

