-- ==== Sys2Proof/Machine/SignalCmd.lean ====
section
/-! DEFINITION. The commands of Confluence (chapter 9). -/

namespace Sys2Proof.Machine

/-- CFL_RX_ITEM (R263). -/
def execCflRxItem (s : State) : Out := .next s.cflRx
/-- CFL_TIMEOUT of RX_SIG PDU i (R258). -/
def execCflTimeout (i : Nat) (s : State) : Out := .next (s.cflTimeout i)
/-- CFL_DEFERRED_TX of TX_SIG entry j (R262). -/
def execCflDeferredTx (j : Nat) (s : State) : Out := .next (s.cflDeferred j)
/-- CFL_CYCLIC_TX of TX_SIG entry j (R261). -/
def execCflCyclicTx (j : Nat) (s : State) : Out := .next (s.cflCyclic j)
/-- CFL_TUN_HOLD of TUN_TX entry j (R267). -/
def execCflTunHold (j : Nat) (s : State) : Out := settled (s.cflHold j)
/-- CFL_ITEM_COMPLETE (R263). -/
def execCflItemComplete (s : State) : Out := settled s.cflDone.syncCapture

end Sys2Proof.Machine
end

