-- ==== Sys2Proof/Machine/TwinCmd.lean ====
section
/-! DEFINITION. The commands of the twin unit, the Reach roster (chapter 13) and the counter writer (R318). -/

namespace Sys2Proof.Machine

/-- COUNTER_RESERVE (R318): the counter writer appends a reservation record to MRAM, releasing held records and frames. [DEDUCED, log entry 58] -/
def execCounterReserve (s : State) : Out := settled s.counterReserve
/-- HEARTBEAT_TIMER (R351): every 250 µs a unit sends a HEARTBEAT and toggles HB_OUT. -/
def execHeartbeatTimer (s : State) : Out := settled s.hbSend
/-- HEARTBEAT_RX (R352): A HEARTBEAT arrives; twin time, ARB state, GPIO_OUT and config match are updated. -/
def execHeartbeatRx (prefer : Bool) (b : List Byte) (s : State) : Out := settled (s.hbRx prefer b)
/-- HB_EDGE (R351): A transition on HB_IN counts as a heartbeat arrival. -/
def execHbEdge (s : State) : Out := settled s.hbEdge
/-- HB_MISSED (R351): A heartbeat period is missed; at the fourth the heartbeat is lost. -/
def execHbMissed (s : State) : Out := .next s.hbMissed
/-- ARB_CLAIM_TIMER (R353): every 50 µs the primary pulls ARB low for a claim pulse. -/
def execArbClaimTimer (s : State) : Out := .next s.arbClaim
/-- ARB_CLAIM_SEEN (R353): A claim pulse is seen on ARB. -/
def execArbClaimSeen (s : State) : Out := settled s.arbClaimSeen
/-- ARB_PRESENCE_PULSE (R353): 25 µs after a claim the secondary sends its presence pulse. -/
def execArbPresencePulse (s : State) : Out := .next s.arbPresence
/-- ARB_PRESENCE_SEEN (R353): A presence pulse is seen on ARB. -/
def execArbPresenceSeen (s : State) : Out := .next s.arbPresenceSeen
/-- TAKEOVER (R356): 200 µs without a claim after heartbeat loss, a ready secondary takes over the twin outputs. -/
def execTakeover (s : State) : Out := .next s.takeover
/-- TWIN_START_WAIT (R354): 200 µs with no claim and no arrival in STARTING makes a preferred unit primary. -/
def execTwinStartWait (s : State) : Out := .next s.twinStartWait
/-- TWIN_START_TIMEOUT (R354): START_WAIT expires in STARTING and a non-preferred unit isolates. -/
def execTwinStartTimeout (s : State) : Out := .next s.twinStartTimeout
/-- DIGEST_SEND (R362): 200 µs after a window ends each unit sends its DIGEST. -/
def execDigestSend (s : State) : Out := settled s.digestSend
/-- DIGEST_RX (R362): A partner DIGEST arrives and the secondary compares the previous window. -/
def execDigestRx (b : List Byte) (s : State) : Out := settled (s.digestRx b)
/-- DIVERGE_RX (R363): A received DIVERGE starts the path self-check. -/
def execDivergeRx (b : List Byte) (s : State) : Out := .next (s.divergeRx b)
/-- SELFTEST_DONE (R363): the self-check completes and SELFTEST is sent. -/
def execSelftestDone (vectors : Bool) (s : State) : Out := settled (s.selfDone vectors)
/-- SELFTEST_RX (R363): the partner's SELFTEST result decides faulting or role swap. -/
def execSelftestRx (b : List Byte) (s : State) : Out := settled (s.selfRx b)
/-- SELFTEST_TIMEOUT (R363): A SELFTEST not received within 2 ms counts as failed. -/
def execSelftestTimeout (s : State) : Out := settled s.selfTimeout
/-- ROLE_OFFER_RX (R365): A ready secondary accepts a ROLE_OFFER. -/
def execRoleOfferRx (b : List Byte) (s : State) : Out := settled (s.roleOfferRx b)
/-- ROLE_ACCEPT_RX (R365): the primary records acceptance of its offer. -/
def execRoleAcceptRx (b : List Byte) (s : State) : Out := .next (s.roleAcceptRx b)
/-- ROLE_SWITCH (R365): at AT_WINDOW start roles rotate. -/
def execRoleSwitch (s : State) : Out := .next s.roleSwitch
/-- ROTATE_TIMER (R365): ROTATE_H hours as primary, or a 1-minute retry, starts a rotation offer. -/
def execRotateTimer (s : State) : Out := settled s.rotateTimer
/-- TWIN_SYNC_REQ_RX (R364): A primary receiving SYNC_REQ captures and sends its dynamic state. -/
def execTwinSyncReqRx (b : List Byte) (s : State) : Out := settled (s.syncReqRx b)
/-- TWIN_SYNC_DATA_RX (R364): A joining secondary receives SYNC_DATA records. -/
def execTwinSyncDataRx (b : List Byte) (s : State) : Out := .next (s.syncDataRx b)
/-- TWIN_SYNC_END_RX (R364): SYNC_END applies the records or restarts the join. -/
def execTwinSyncEndRx (b : List Byte) (s : State) : Out := settled (s.syncEndRx b)
/-- ATTEST_REQ_RX (R371): A twin ATTEST_REQ is answered with an attestation report. -/
def execAttestReqRx (b : List Byte) (s : State) : Out := settled (s.attestReqRx b)
/-- ATTEST_REP_RX (R371): A partner's report is checked against the roster. -/
def execAttestRepRx (b : List Byte) (s : State) : Out := settled (s.attestRepRx b)
/-- ROTATE (R365): TWN_CMD.ROTATE starts a rotation. -/
def execRotate (m : Nat) (s : State) : Out := settled (s.access m Reg.TWN_CMD fun s => s.twinCmd 1)
/-- FORCE_PRIMARY (R354): TWN_CMD.FORCE_PRIMARY makes an isolated or starting unit primary. -/
def execForcePrimary (m : Nat) (s : State) : Out := settled (s.access m Reg.TWN_CMD fun s => s.twinCmd 2)
/-- YIELD (R365): TWN_CMD.YIELD hands the primary role over. -/
def execYield (m : Nat) (s : State) : Out := settled (s.access m Reg.TWN_CMD fun s => s.twinCmd 4)
/-- RESYNC (R354): TWN_CMD.RESYNC returns a faulted unit to JOINING. -/
def execResync (m : Nat) (s : State) : Out := settled (s.access m Reg.TWN_CMD fun s => s.twinCmd 8)
/-- TWIN_ENABLE (R354): A write of TWN_CFG.EN starts or stops twin operation. -/
def execTwinEnable (m : Nat) (v : Word) (s : State) : Out := .next (s.access m Reg.TWN_CFG fun s => s.twinCfgWrite m v)
/-- SHADOW_AGE_EXPIRE (R358): A shadow copy unmatched after SHADOW_AGE ms is dropped. -/
def execShadowAgeExpire (c : Nat) (s : State) : Out := .next (s.shadowAge c)
/-- CFG_DIGEST_RECOMPUTE (R368): within 1 ms of a relevant change CFG_DIGEST is recomputed and recorded. -/
def execCfgDigestRecompute (s : State) : Out := .next s.cfgRecord
/-- ROSTER_CHECK (R373): every PERIOD minutes checked nodes are asked for attestation reports. -/
def execRosterCheck (s : State) : Out := .next s.rosterCheck
/-- ROSTER_REPORT (R373): A node's report or its 1 s timeout sets the roster RESULT. -/
def execRosterReport (n : Nat) (rep : List Byte) (s : State) : Out := .next (s.rosterReport n rep)

end Sys2Proof.Machine
end

