-- ==== Sys2Proof/Machine/VltCmd.lean ====
section
/-! DEFINITION. The commands of the Austauth Vault (chapter 11) and of line authentication (chapter 12). -/

namespace Sys2Proof.Machine

/-- The ACTION byte of the envelope a master holds in its VLT_BUF. -/
def State.bufAction (s : State) (m : Nat) : Nat := s.rf (bankKey m (Reg.VLT_BUF 0)) 8 8

/-- AUTHORISE of an envelope whose ACTION satisfies `p`; the row of another ACTION is not this command. [DEDUCED, log entry 54] -/
def State.vltAuthRow (s : State) (m : Nat) (p : Nat → Bool) : State :=
  if p (s.bufAction m) then s.vltCmdWrite m 0x11 else s

/-- VLT_INFO: master m writes VLT_CMD with OP INFO (R307). -/
def execVltInfo (m : Nat) (s : State) : Out := .next (s.vltCmdWrite m 0x01)

/-- VLT_GENERATE: master m writes VLT_CMD with OP GENERATE (R308). -/
def execVltGenerate (m : Nat) (s : State) : Out := .next (s.vltCmdWrite m 0x02)

/-- VLT_DERIVE: master m writes VLT_CMD with OP DERIVE (R310). -/
def execVltDerive (m : Nat) (s : State) : Out := .next (s.vltCmdWrite m 0x03)

/-- VLT_COMMIT: master m writes VLT_CMD with OP COMMIT (R309). -/
def execVltCommit (m : Nat) (s : State) : Out := .next (s.vltCmdWrite m 0x04)

/-- VLT_DISCARD: master m writes VLT_CMD with OP DISCARD (R307). -/
def execVltDiscard (m : Nat) (s : State) : Out := .next (s.vltCmdWrite m 0x05)

/-- VLT_REVOKE: master m writes VLT_CMD with OP REVOKE (R307). -/
def execVltRevoke (m : Nat) (s : State) : Out := .next (s.vltCmdWrite m 0x06)

/-- VLT_DELETE: master m writes VLT_CMD with OP DELETE (R307). -/
def execVltDelete (m : Nat) (s : State) : Out := .next (s.vltCmdWrite m 0x07)

/-- VLT_SIGN: master m writes VLT_CMD with OP SIGN (R299). -/
def execVltSign (m : Nat) (s : State) : Out := .next (s.vltCmdWrite m 0x08)

/-- VLT_VERIFY: master m writes VLT_CMD with OP VERIFY (R306). -/
def execVltVerify (m : Nat) (s : State) : Out := .next (s.vltCmdWrite m 0x09)

/-- VLT_HASH: master m writes VLT_CMD with OP HASH (R315). -/
def execVltHash (m : Nat) (s : State) : Out := .next (s.vltCmdWrite m 0x0A)

/-- VLT_MAC: master m writes VLT_CMD with OP MAC (R306). -/
def execVltMac (m : Nat) (s : State) : Out := .next (s.vltCmdWrite m 0x0B)

/-- VLT_ENCRYPT: master m writes VLT_CMD with OP ENCRYPT (R316). -/
def execVltEncrypt (m : Nat) (s : State) : Out := .next (s.vltCmdWrite m 0x0C)

/-- VLT_DECRYPT: master m writes VLT_CMD with OP DECRYPT (R316). -/
def execVltDecrypt (m : Nat) (s : State) : Out := .next (s.vltCmdWrite m 0x0D)

/-- VLT_RANDOM: master m writes VLT_CMD with OP RANDOM (R315). -/
def execVltRandom (m : Nat) (s : State) : Out := .next (s.vltCmdWrite m 0x0E)

/-- VLT_ATTEST: master m writes VLT_CMD with OP ATTEST (R319). -/
def execVltAttest (m : Nat) (s : State) : Out := .next (s.vltCmdWrite m 0x0F)

/-- AUTH_NONCE (R303). -/
def execAuthNonce (m : Nat) (s : State) : Out := .next (s.vltCmdWrite m 0x10)

/-- VLT_CLAIM (R300). -/
def execVltClaim (m : Nat) (s : State) : Out := .next (s.vltCmdWrite m 0x12)

/-- VLT_TRANSFER (R301). -/
def execVltTransfer (m : Nat) (s : State) : Out := .next (s.vltCmdWrite m 0x13)

/-- TAMPER_CLEAR (R324): AUTHORISE by master m of the envelope in its VLT_BUF, whose ACTION is this row's. -/
def execTamperClear (m : Nat) (s : State) : Out := .next (s.vltAuthRow m (fun a => decide (a = 1)))

/-- PAGE_UNLOCK (R304): AUTHORISE by master m of the envelope in its VLT_BUF, whose ACTION is this row's. -/
def execPageUnlock (m : Nat) (s : State) : Out := .next (s.vltAuthRow m (fun a => decide (a = 2)))

/-- SET_COSIGN (R303): AUTHORISE by master m of the envelope in its VLT_BUF, whose ACTION is this row's. -/
def execSetCosign (m : Nat) (s : State) : Out := .next (s.vltAuthRow m (fun a => decide (a = 3)))

/-- UPD_LOCK (R303): AUTHORISE by master m of the envelope in its VLT_BUF, whose ACTION is this row's. -/
def execUpdLock (m : Nat) (s : State) : Out := .next (s.vltAuthRow m (fun a => decide (a = 4)))

/-- WIPE (R303): AUTHORISE by master m of the envelope in its VLT_BUF, whose ACTION is this row's. -/
def execWipe (m : Nat) (s : State) : Out := .next (s.vltAuthRow m (fun a => decide (a = 5)))

/-- REINIT (R323): AUTHORISE by master m of the envelope in its VLT_BUF, whose ACTION is this row's. -/
def execReinit (m : Nat) (s : State) : Out := .next (s.vltAuthRow m (fun a => decide (a = 6)))

/-- IMPORT (R311): AUTHORISE by master m of the envelope in its VLT_BUF, whose ACTION is this row's. -/
def execImport (m : Nat) (s : State) : Out := .next (s.vltAuthRow m (fun a => decide (a = 7)))

/-- VLT_AUTHORISE_DELEGATED (R302): AUTHORISE by master m of the envelope in its VLT_BUF, whose ACTION is this row's. -/
def execVltAuthoriseDelegated (m : Nat) (s : State) : Out := .next (s.vltAuthRow m (fun a => decide (0x20 ≤ a ∧ a ≤ 0x3F)))

/-- NONCE_EXPIRE: an outstanding nonce of master m expires 60 s after its issue (R303). -/
def execNonceExpire (m : Nat) (s : State) : Out :=
  .next { s with vlt := { s.vlt with nonces := Tab.set (fun _ => none) s.vlt.nonces m none } }

/-- A command of a master at the front of the queue completes. -/
def State.vltComplete (s : State) (o : VltOp) : State :=
  let (r, s) := match o.res with
    | some r => (r, s)
    | none => s.vltRun o
  s.complete (vltSlot o.m) r

/-- Complete the operation at the front of the Vault's queue and start the next: a master's command, or an envelope of the management
subsystem. An operation of the HAD completes by PROOF_VERIFIED or VERDICT_SIGNED. [DEDUCED, log entry 53] -/
def State.vaultOpDone (s : State) : State :=
  match s.vlt.ops with
  | [] => s
  | o :: t =>
    if o.op = VOp.proof ∨ o.op = VOp.verdict then s
    else
      let s := { s with vlt := { s.vlt with ops := t } }
      let s :=
        if o.op = VOp.mail then
          let (r, s) := s.authorise o.buf o.aborted
          s.complete (mgsSlot o.m) r
        else if o.op = VOp.monitor then s.unborUnlocked o.buf o.aborted
        else s.vltComplete o
      s.liveRefresh.vltStart

/-- VAULT_OP_DONE (R315). -/
def execVaultOpDone (s : State) : Out := .next s.vaultOpDone

/-- ENGINE_KEY_LOAD: the key request of SA n (cau = false) or of CAU entry n is answered (R312). -/
def execEngineKeyLoad (cau : Bool) (n : Nat) (s : State) : Out := .next (if cau then s.cauKeyLoad n else s.saKeyLoad n)

/-- ORPHAN_GRACE_EXPIRE: the grace of an orphaned slot ends (R310, Table 11-7). -/
def State.graceExpire (s : State) (i : Nat) : State :=
  if (s.kslot i).main.state = 3 ∧ (s.kslot i).grace.isSome then
    let s := s.orphanOf i
    let k := s.kslot i
    ((s.setKslot i { k with main := k.main.withState 4, grace := none }).purgeSnap (fun x => decide (x = i))).liveRefresh
  else s

/-- ORPHAN_GRACE_EXPIRE of slot `slot` (R310). -/
def execOrphanGraceExpire (slot : Nat) (s : State) : Out := .next (s.graceExpire slot)

/-- TAMPER_CLASS1: a glitch, optical or fault-check event of a sensor (R320, R321); asleep, those sensors are not armed. -/
def execTamperClass1 (sensor : Nat) (s : State) : Out := .next (if s.asleep then s else s.tamperClass1 sensor)

/-- A sensor latches in the always-on domain (R321). [DEDUCED, log entry 55] -/
def State.sensorLatch (s : State) (mesh : Bool) : State :=
  { s with vlt := { s.vlt with sleepLatch := true, latchMesh := s.vlt.latchMesh || mesh, latchTemp := s.vlt.latchTemp || !mesh } }

/-- TAMPER_CLASS2: a temperature alarm (R320); asleep, it latches (Table 11-12). -/
def execTamperClass2 (s : State) : Out := .next (if s.asleep then s.sensorLatch false else (s.tamperLog 4 2).tamperClass2)

/-- TAMPER_MESH: a mesh breach zeroises while powered (R323), and latches asleep (Table 11-12). -/
def execTamperMesh (s : State) : Out := .next (if s.asleep then s.sensorLatch true else (s.tamperLog 5 3).zeroise)

/-- SLEEP_LATCH: an armed sensor fires in DORMANT or SELECTIVE and latches in the always-on domain (R321). [DEDUCED, log entry 55] -/
def execSleepLatch (mesh : Bool) (s : State) : Out := .next (if s.asleep then s.sensorLatch mesh else s)

/-- VAULT_STARTUP: the next `n` of the stages S1 to S3 (R324); `bad`: slots whose record fails, on a wake. -/
def execVaultStartup (n : Nat) (identOk : Bool) (s : State) (ownerOk : Bool := true) (bad : List Nat := []) : Out := .next (s.vltStartup n identOk ownerOk bad)

/-- VAULT_S4: firmware supplies the slot records, of which those of the slots `bad` fail their tag (R297, R324). -/
def execVaultS4 (s : State) (bad : List Nat := []) : Out := .next (if s.vlt.vstate = 0 ∧ s.vlt.stage = 3 then s.vltS4 bad else s)

/-! ### Line authentication -/

/-- LCE_SA_APPLY on port p's page (R329). -/
def execLceSaApply (m p : Nat) (s : State) : Out :=
  .next (if hasLce p then s.access m (Reg.LCE_SA_CMD p) fun s => s.saCmd m p 1 else s)

/-- LCE_SA_RETIRE (R330). -/
def execLceSaRetire (m p : Nat) (s : State) : Out :=
  .next (if hasLce p then s.access m (Reg.LCE_SA_CMD p) fun s => s.saCmd m p 2 else s)

/-- LCE_SA_LOAD (R330). -/
def execLceSaLoad (m p : Nat) (s : State) : Out :=
  .next (if hasLce p then s.access m (Reg.LCE_SA_CMD p) fun s => s.saCmd m p 4 else s)

/-- LCE_TX_AN_WRITE: the transmit SA of the next frame (R331). -/
def execLceTxAnWrite (m p : Nat) (v : Word) (s : State) : Out :=
  .next (if hasLce p then s.access m (Reg.LCE_TX_AN p) fun s => s.plainWrite m (Reg.LCE_TX_AN p) v else s)

/-- CAU_APPLY (R339). -/
def execCauApply (m : Nat) (s : State) : Out := .next (s.access m Reg.CAU_CMD fun s => s.cauCmd m 1)

/-- CAU_RETIRE (R339). -/
def execCauRetire (m : Nat) (s : State) : Out := .next (s.access m Reg.CAU_CMD fun s => s.cauCmd m 2)

/-- CAU_LOAD (R339). -/
def execCauLoad (m : Nat) (s : State) : Out := .next (s.access m Reg.CAU_CMD fun s => s.cauCmd m 4)

/-- CAU_FV_RECORD (R340). -/
def execCauFvRecord (s : State) : Out := .next s.cauRecord

end Sys2Proof.Machine
end

