-- ==== Sys2Proof/Machine/Dispatch.lean ====
section
/-! DEFINITION. One arm per command: a direct call of its meaning. -/

namespace Sys2Proof.Machine

def exec (i : Instr) (s : State) : Host.Outcome State Fault Refusal :=
  match i with
  | .regWrite m a v full core => Sys2Proof.Machine.execRegWrite m a v full core s
  | .multiwordLowRead m a full core user => Sys2Proof.Machine.execMultiwordLowRead m a full core s user
  | .writeMaskWrite m v => Sys2Proof.Machine.execWriteMaskWrite m v s
  | .fenceReq m => Sys2Proof.Machine.execFenceReq m s
  | .fenceRetired m => Sys2Proof.Machine.execFenceRetired m s
  | .intRawClear m pg v => Sys2Proof.Machine.execIntRawClear m pg v s
  | .intForce m pg v => Sys2Proof.Machine.execIntForce m pg v s
  | .softRst m pg => Sys2Proof.Machine.execSoftRst m pg s
  | .softRstDone pg => Sys2Proof.Machine.execSoftRstDone pg s
  | .quiesceReq m pg v => Sys2Proof.Machine.execQuiesceReq m pg v s
  | .quiesced pg => Sys2Proof.Machine.execQuiesced pg s
  | .blkLock m pg => Sys2Proof.Machine.execBlkLock m pg s
  | .errCapRearm m pg => Sys2Proof.Machine.execErrCapRearm m pg s
  | .cntSnap m pg => Sys2Proof.Machine.execCntSnap m pg s
  | .cntSnapAll m => Sys2Proof.Machine.execCntSnapAll m s
  | .snapDone pg => Sys2Proof.Machine.execSnapDone pg s
  | .cntSnapAck m pg seq => Sys2Proof.Machine.execCntSnapAck m pg seq s
  | .counterClr m a => Sys2Proof.Machine.execCounterClr m a s
  | .resAck m a seq => Sys2Proof.Machine.execResAck m a seq s
  | .tapRead m t => Sys2Proof.Machine.execTapRead m t s
  | .tapWrite m t => Sys2Proof.Machine.execTapWrite m t s
  | .tapLookup m t => Sys2Proof.Machine.execTapLookup m t s
  | .tapInsert m t => Sys2Proof.Machine.execTapInsert m t s
  | .tapDelete m t => Sys2Proof.Machine.execTapDelete m t s
  | .tapCommit m => Sys2Proof.Machine.execTapCommit m s
  | .tapCommitDone => Sys2Proof.Machine.execTapCommitDone s
  | .tapDiscard m => Sys2Proof.Machine.execTapDiscard m s
  | .tapOpDone m => Sys2Proof.Machine.execTapOpDone m s
  | .ethFrameRx p b pre => Sys2Proof.Machine.execEthFrameRx p b pre s
  | .frameVerdict p pre fcsOk framing ecc sym corr uncorr => Sys2Proof.Machine.execFrameVerdict p pre fcsOk framing ecc s sym corr uncorr
  | .learnCommit => Sys2Proof.Machine.execLearnCommit s
  | .freezeTick => Sys2Proof.Machine.execFreezeTick s
  | .ageTick => Sys2Proof.Machine.execAgeTick s
  | .lrnAgeWrite m v => Sys2Proof.Machine.execLrnAgeWrite m v s
  | .seedWrite m a v => Sys2Proof.Machine.execSeedWrite m a v s
  | .anchorBatch => Sys2Proof.Machine.execAnchorBatch s
  | .anchorAnnounce p smac b => Sys2Proof.Machine.execAnchorAnnounce p smac b s
  | .anchorWithdraw p smac b => Sys2Proof.Machine.execAnchorWithdraw p smac b s
  | .anchorSyncReq smac b => Sys2Proof.Machine.execAnchorSyncReq smac b s
  | .anchorSyncData p smac b => Sys2Proof.Machine.execAnchorSyncData p smac b s
  | .anchorSyncEnd smac b => Sys2Proof.Machine.execAnchorSyncEnd smac b s
  | .anchorSilenceTimeout k => Sys2Proof.Machine.execAnchorSilenceTimeout k s
  | .anchorDisable m k v => Sys2Proof.Machine.execAnchorDisable m k v s
  | .egressSelect p ecc => Sys2Proof.Machine.execEgressSelect p s ecc
  | .txComplete p => Sys2Proof.Machine.execTxComplete p s
  | .preempt p sent => Sys2Proof.Machine.execPreempt p sent s
  | .rakeAuditStart => Sys2Proof.Machine.execRakeAuditStart s
  | .rakeAuditDone unmarked doubled broken beyond => Sys2Proof.Machine.execRakeAuditDone unmarked doubled broken beyond s
  | .edyRateWrite m k v => Sys2Proof.Machine.execEdyRateWrite m k v s
  | .flowSeedApply => Sys2Proof.Machine.execFlowSeedApply s
  | .qcfgWrite m a v => Sys2Proof.Machine.execQcfgWrite m a v s
  | .gapMarker r => Sys2Proof.Machine.execGapMarker r s
  | .fifoReset tx r held => Sys2Proof.Machine.execFifoReset tx r held s
  | .weiApply m => Sys2Proof.Machine.execWeiApply m s
  | .weiLoad m => Sys2Proof.Machine.execWeiLoad m s
  | .sluChange m p => Sys2Proof.Machine.execSluChange m p s
  | .sluCancel m p => Sys2Proof.Machine.execSluCancel m p s
  | .sluConfigChange p sent => Sys2Proof.Machine.execSluConfigChange p sent s
  | .gateEvent p sent => Sys2Proof.Machine.execGateEvent p sent s
  | .sluGateEnWrite m p v => Sys2Proof.Machine.execSluGateEnWrite m p v s
  | .sluGclWrite m p v => Sys2Proof.Machine.execSluGclWrite m p v s
  | .verifyTimer p => Sys2Proof.Machine.execVerifyTimer p s
  | .verifyRespond p => Sys2Proof.Machine.execVerifyRespond p s
  | .pauseFrameRx p b fcsOk => Sys2Proof.Machine.execPauseFrameRx p b fcsOk s
  | .pauseExpire p => Sys2Proof.Machine.execPauseExpire p s
  | .budRequest m => Sys2Proof.Machine.execBudRequest m s
  | .budQuery m => Sys2Proof.Machine.execBudQuery m s
  | .budRelease m => Sys2Proof.Machine.execBudRelease m s
  | .budRead m => Sys2Proof.Machine.execBudRead m s
  | .budRecheck m => Sys2Proof.Machine.execBudRecheck m s
  | .budCmdDone => Sys2Proof.Machine.execBudCmdDone s
  | .budAutoRecheck p => Sys2Proof.Machine.execBudAutoRecheck p s
  | .budEnable m v => Sys2Proof.Machine.execBudEnable m v s
  | .proofRx p b => Sys2Proof.Machine.execProofRx p b s
  | .headRequestRx p b => Sys2Proof.Machine.execHeadRequestRx p b s
  | .proofVerified p alarm => Sys2Proof.Machine.execProofVerified p alarm s
  | .verdictSigned p => Sys2Proof.Machine.execVerdictSigned p s
  | .hadRespTimeout p => Sys2Proof.Machine.execHadRespTimeout p s
  | .hadRetryTimeout p => Sys2Proof.Machine.execHadRetryTimeout p s
  | .hadPeriod p => Sys2Proof.Machine.execHadPeriod p s
  | .observedMinute p => Sys2Proof.Machine.execObservedMinute p s
  | .lifeRecordTimer p => Sys2Proof.Machine.execLifeRecordTimer p s
  | .headEnWrite m p v => Sys2Proof.Machine.execHeadEnWrite m p v s
  | .hadEnrol m k p => Sys2Proof.Machine.execHadEnrol m k p s
  | .hadRetire m k => Sys2Proof.Machine.execHadRetire m k s
  | .hadRead m k => Sys2Proof.Machine.execHadRead m k s
  | .hadReadmit m p => Sys2Proof.Machine.execHadReadmit m p s
  | .hadReadLife m k => Sys2Proof.Machine.execHadReadLife m k s
  | .freApply m => Sys2Proof.Machine.execFreApply m s
  | .freLoad m => Sys2Proof.Machine.execFreLoad m s
  | .freReset m => Sys2Proof.Machine.execFreReset m s
  | .freRecoveryTimeout k => Sys2Proof.Machine.execFreRecoveryTimeout k s
  | .freLatentTest k => Sys2Proof.Machine.execFreLatentTest k s
  | .freLatentReset k => Sys2Proof.Machine.execFreLatentReset k s
  | .fgdDeadline v => Sys2Proof.Machine.execFgdDeadline v s
  | .fgdStaleRepeat v => Sys2Proof.Machine.execFgdStaleRepeat v s
  | .fgdApply m => Sys2Proof.Machine.execFgdApply m s
  | .fgdLoad m => Sys2Proof.Machine.execFgdLoad m s
  | .linkPcsUp p => Sys2Proof.Machine.execLinkPcsUp p s
  | .linkHoldExpire p => Sys2Proof.Machine.execLinkHoldExpire p s
  | .linkPcsDown p => Sys2Proof.Machine.execLinkPcsDown p s
  | .trainTimeout p => Sys2Proof.Machine.execTrainTimeout p s
  | .eptEnable m p v => Sys2Proof.Machine.execEptEnable m p v s
  | .eptCfgWrite m p v => Sys2Proof.Machine.execEptCfgWrite m p v s
  | .retrain m p => Sys2Proof.Machine.execRetrain m p s
  | .eptSleep m p => Sys2Proof.Machine.execEptSleep m p s
  | .eptWake m p => Sys2Proof.Machine.execEptWake m p s
  | .tc10SleepReqRx p => Sys2Proof.Machine.execTc10SleepReqRx p s
  | .tc10SleepAgreed p => Sys2Proof.Machine.execTc10SleepAgreed p s
  | .tc10SleepTimeout p => Sys2Proof.Machine.execTc10SleepTimeout p s
  | .tc10WakeDetect p wur => Sys2Proof.Machine.execTc10WakeDetect p wur s
  | .sdActivity p => Sys2Proof.Machine.execSdActivity p s
  | .plcaBeaconTimeout p => Sys2Proof.Machine.execPlcaBeaconTimeout p s
  | .plcaBeaconRx p => Sys2Proof.Machine.execPlcaBeaconRx p s
  | .hiBer p => Sys2Proof.Machine.execHiBer p s
  | .hifDmaPortWrite m v => Sys2Proof.Machine.execHifDmaPortWrite m v s
  | .dmaPortStatus v relax => Sys2Proof.Machine.execDmaPortStatus v s relax
  | .ringEnable m tx r v => Sys2Proof.Machine.execRingEnable m tx r v s
  | .ringDisable m tx r v => Sys2Proof.Machine.execRingDisable m tx r v s
  | .txDb t v full => Sys2Proof.Machine.execTxDb t v full s
  | .rxDb r v full => Sys2Proof.Machine.execRxDb r v full s
  | .hifTxStart t lens eop b under ready bus => Sys2Proof.Machine.execHifTxStart t lens eop b under s ready bus
  | .rxDescComplete r buf addr => Sys2Proof.Machine.execRxDescComplete r buf s addr
  | .dmaError tx r err k => Sys2Proof.Machine.execDmaError tx r err k s
  | .msixCoalTimer tx r => Sys2Proof.Machine.execMsixCoalTimer tx r s
  | .msixUnmask reqs func => Sys2Proof.Machine.execMsixUnmask reqs func s
  | .pcieReset => Sys2Proof.Machine.execPcieReset s
  | .qspiWrite b => Sys2Proof.Machine.execQspiWrite b s
  | .qspiRead b abandoned => Sys2Proof.Machine.execQspiRead b abandoned s
  | .qspiStatus => Sys2Proof.Machine.execQspiStatus s
  | .ibmRead smac vid b => Sys2Proof.Machine.execIbmRead smac vid b s
  | .ibmWrite smac vid b => Sys2Proof.Machine.execIbmWrite smac vid b s
  | .ibmFence smac vid b => Sys2Proof.Machine.execIbmFence smac vid b s
  | .canFrameRx c b => Sys2Proof.Machine.execCanFrameRx c b s
  | .cauVerdict => Sys2Proof.Machine.execCauVerdict s
  | .canCopyLinked c => Sys2Proof.Machine.execCanCopyLinked c s
  | .canArbitration c => Sys2Proof.Machine.execCanArbitration c s
  | .canTxSuccess c => Sys2Proof.Machine.execCanTxSuccess c s
  | .canTxError c t dataPhase arb keep => Sys2Proof.Machine.execCanTxError c t dataPhase arb keep s
  | .canArbLost c => Sys2Proof.Machine.execCanArbLost c s
  | .canBusError c t dataPhase id inc => Sys2Proof.Machine.execCanBusError c t dataPhase id inc s
  | .canIdleDetect c => Sys2Proof.Machine.execCanIdleDetect c s
  | .canPex c id => Sys2Proof.Machine.execCanPex c id s
  | .canBoffDelay c => Sys2Proof.Machine.execCanBoffDelay c s
  | .txlAged c => Sys2Proof.Machine.execTxlAged c s
  | .recover m c => Sys2Proof.Machine.execRecover m c s
  | .txlFlush m c => Sys2Proof.Machine.execTxlFlush m c s
  | .rxqPop m c => Sys2Proof.Machine.execRxqPop m c s
  | .l0Release m c k v => Sys2Proof.Machine.execL0Release m c k v s
  | .canEnable m c v => Sys2Proof.Machine.execCanEnable m c v s
  | .listenWrite m c v => Sys2Proof.Machine.execListenWrite m c v s
  | .listenTakeEffect c => Sys2Proof.Machine.execListenTakeEffect c s
  | .linFrameRx l sof d st => Sys2Proof.Machine.execLinFrameRx l sof d st s
  | .linResponseTimeout l => Sys2Proof.Machine.execLinResponseTimeout l s
  | .linCopyLinked l => Sys2Proof.Machine.execLinCopyLinked l s
  | .linHeaderRx l f sync parity => Sys2Proof.Machine.execLinHeaderRx l f sync parity s
  | .linSlot l => Sys2Proof.Machine.execLinSlot l s
  | .linSwitch m l => Sys2Proof.Machine.execLinSwitch m l s
  | .linSleep m l => Sys2Proof.Machine.execLinSleep m l s
  | .linWake m l => Sys2Proof.Machine.execLinWake m l s
  | .linGotosleepRx l => Sys2Proof.Machine.execLinGotosleepRx l s
  | .linInactivity l => Sys2Proof.Machine.execLinInactivity l s
  | .linWakeRx l => Sys2Proof.Machine.execLinWakeRx l s
  | .linWakeRetry l => Sys2Proof.Machine.execLinWakeRetry l s
  | .linEnable m l v => Sys2Proof.Machine.execLinEnable m l v s
  | .cflRxItem => Sys2Proof.Machine.execCflRxItem s
  | .cflTimeout k => Sys2Proof.Machine.execCflTimeout k s
  | .cflDeferredTx j => Sys2Proof.Machine.execCflDeferredTx j s
  | .cflCyclicTx j => Sys2Proof.Machine.execCflCyclicTx j s
  | .cflTunHold j => Sys2Proof.Machine.execCflTunHold j s
  | .cflItemComplete => Sys2Proof.Machine.execCflItemComplete s
  | .cflEnable m v => Sys2Proof.Machine.execCflEnable m v s
  | .syncRx port number twoStep seq origin corr ingress tlv => Sys2Proof.Machine.execSyncRx port number twoStep seq origin corr ingress s tlv
  | .followUpRx port number seq origin corr tlv => Sys2Proof.Machine.execFollowUpRx port number seq origin corr s tlv
  | .syncTimeout d => Sys2Proof.Machine.execSyncTimeout d s
  | .gmSyncTimer d => Sys2Proof.Machine.execGmSyncTimer d s
  | .pdelayTimer port => Sys2Proof.Machine.execPdelayTimer port s
  | .pdelayReqRx port seq t2 requester => Sys2Proof.Machine.execPdelayReqRx port seq t2 requester s
  | .pdelayRespRx port seq t1 t2 t3 t4 => Sys2Proof.Machine.execPdelayRespRx port seq t1 t2 t3 t4 s
  | .gptpOtherRx number => Sys2Proof.Machine.execGptpOtherRx number s
  | .domStep m d => Sys2Proof.Machine.execDomStep m d s
  | .domSlew m d => Sys2Proof.Machine.execDomSlew m d s
  | .domSetRate m d => Sys2Proof.Machine.execDomSetRate m d s
  | .domUnlock m d => Sys2Proof.Machine.execDomUnlock m d s
  | .slewDone d => Sys2Proof.Machine.execSlewDone d s
  | .domEnable m d v => Sys2Proof.Machine.execDomEnable m d v s
  | .domRateMaxWrite m d v => Sys2Proof.Machine.execDomRateMaxWrite m d v s
  | .timFrcIncWrite m v => Sys2Proof.Machine.execTimFrcIncWrite m v s
  | .srvOffset m v => Sys2Proof.Machine.execSrvOffset m v s
  | .hfrcMeasure cycles lf => Sys2Proof.Machine.execHfrcMeasure cycles lf s
  | .vltInfo m => Sys2Proof.Machine.execVltInfo m s
  | .vltGenerate m => Sys2Proof.Machine.execVltGenerate m s
  | .vltDerive m => Sys2Proof.Machine.execVltDerive m s
  | .vltCommit m => Sys2Proof.Machine.execVltCommit m s
  | .vltDiscard m => Sys2Proof.Machine.execVltDiscard m s
  | .vltRevoke m => Sys2Proof.Machine.execVltRevoke m s
  | .vltDelete m => Sys2Proof.Machine.execVltDelete m s
  | .vltSign m => Sys2Proof.Machine.execVltSign m s
  | .vltVerify m => Sys2Proof.Machine.execVltVerify m s
  | .vltHash m => Sys2Proof.Machine.execVltHash m s
  | .vltMac m => Sys2Proof.Machine.execVltMac m s
  | .vltEncrypt m => Sys2Proof.Machine.execVltEncrypt m s
  | .vltDecrypt m => Sys2Proof.Machine.execVltDecrypt m s
  | .vltRandom m => Sys2Proof.Machine.execVltRandom m s
  | .vltAttest m => Sys2Proof.Machine.execVltAttest m s
  | .authNonce m => Sys2Proof.Machine.execAuthNonce m s
  | .nonceExpire m => Sys2Proof.Machine.execNonceExpire m s
  | .vltClaim m => Sys2Proof.Machine.execVltClaim m s
  | .vltTransfer m => Sys2Proof.Machine.execVltTransfer m s
  | .tamperClear m => Sys2Proof.Machine.execTamperClear m s
  | .pageUnlock m => Sys2Proof.Machine.execPageUnlock m s
  | .setCosign m => Sys2Proof.Machine.execSetCosign m s
  | .updLock m => Sys2Proof.Machine.execUpdLock m s
  | .wipe m => Sys2Proof.Machine.execWipe m s
  | .reinit m => Sys2Proof.Machine.execReinit m s
  | .importCmd m => Sys2Proof.Machine.execImport m s
  | .vltAuthoriseDelegated m => Sys2Proof.Machine.execVltAuthoriseDelegated m s
  | .vaultOpDone => Sys2Proof.Machine.execVaultOpDone s
  | .engineKeyLoad cau n => Sys2Proof.Machine.execEngineKeyLoad cau n s
  | .orphanGraceExpire slot => Sys2Proof.Machine.execOrphanGraceExpire slot s
  | .tamperClass1 sensor => Sys2Proof.Machine.execTamperClass1 sensor s
  | .tamperClass2 => Sys2Proof.Machine.execTamperClass2 s
  | .tamperMesh => Sys2Proof.Machine.execTamperMesh s
  | .counterReserve => Sys2Proof.Machine.execCounterReserve s
  | .cauFvRecord => Sys2Proof.Machine.execCauFvRecord s
  | .vaultStartup n identOk ownerOk bad => Sys2Proof.Machine.execVaultStartup n identOk s ownerOk bad
  | .vaultS4 bad => Sys2Proof.Machine.execVaultS4 s bad
  | .lceSaApply m p => Sys2Proof.Machine.execLceSaApply m p s
  | .lceSaRetire m p => Sys2Proof.Machine.execLceSaRetire m p s
  | .lceSaLoad m p => Sys2Proof.Machine.execLceSaLoad m p s
  | .lceTxAnWrite m p v => Sys2Proof.Machine.execLceTxAnWrite m p v s
  | .cauApply m => Sys2Proof.Machine.execCauApply m s
  | .cauRetire m => Sys2Proof.Machine.execCauRetire m s
  | .cauLoad m => Sys2Proof.Machine.execCauLoad m s
  | .heartbeatTimer => Sys2Proof.Machine.execHeartbeatTimer s
  | .heartbeatRx prefer b => Sys2Proof.Machine.execHeartbeatRx prefer b s
  | .hbEdge => Sys2Proof.Machine.execHbEdge s
  | .hbMissed => Sys2Proof.Machine.execHbMissed s
  | .arbClaimTimer => Sys2Proof.Machine.execArbClaimTimer s
  | .arbClaimSeen => Sys2Proof.Machine.execArbClaimSeen s
  | .arbPresencePulse => Sys2Proof.Machine.execArbPresencePulse s
  | .arbPresenceSeen => Sys2Proof.Machine.execArbPresenceSeen s
  | .takeover => Sys2Proof.Machine.execTakeover s
  | .twinStartWait => Sys2Proof.Machine.execTwinStartWait s
  | .twinStartTimeout => Sys2Proof.Machine.execTwinStartTimeout s
  | .digestSend => Sys2Proof.Machine.execDigestSend s
  | .digestRx b => Sys2Proof.Machine.execDigestRx b s
  | .divergeRx b => Sys2Proof.Machine.execDivergeRx b s
  | .selftestDone vectors => Sys2Proof.Machine.execSelftestDone vectors s
  | .selftestRx b => Sys2Proof.Machine.execSelftestRx b s
  | .selftestTimeout => Sys2Proof.Machine.execSelftestTimeout s
  | .roleOfferRx b => Sys2Proof.Machine.execRoleOfferRx b s
  | .roleAcceptRx b => Sys2Proof.Machine.execRoleAcceptRx b s
  | .roleSwitch => Sys2Proof.Machine.execRoleSwitch s
  | .rotateTimer => Sys2Proof.Machine.execRotateTimer s
  | .twinSyncReqRx b => Sys2Proof.Machine.execTwinSyncReqRx b s
  | .twinSyncDataRx b => Sys2Proof.Machine.execTwinSyncDataRx b s
  | .twinSyncEndRx b => Sys2Proof.Machine.execTwinSyncEndRx b s
  | .attestReqRx b => Sys2Proof.Machine.execAttestReqRx b s
  | .attestRepRx b => Sys2Proof.Machine.execAttestRepRx b s
  | .rotate m => Sys2Proof.Machine.execRotate m s
  | .forcePrimary m => Sys2Proof.Machine.execForcePrimary m s
  | .yield m => Sys2Proof.Machine.execYield m s
  | .resync m => Sys2Proof.Machine.execResync m s
  | .twinEnable m v => Sys2Proof.Machine.execTwinEnable m v s
  | .shadowAgeExpire c => Sys2Proof.Machine.execShadowAgeExpire c s
  | .cfgDigestRecompute => Sys2Proof.Machine.execCfgDigestRecompute s
  | .rosterCheck => Sys2Proof.Machine.execRosterCheck s
  | .rosterReport n rep => Sys2Proof.Machine.execRosterReport n rep s
  | .pwrCmdDormant m => Sys2Proof.Machine.execPwrCmdDormant m s
  | .pwrCmdSelective m => Sys2Proof.Machine.execPwrCmdSelective m s
  | .pwrCmdMgsOnly m => Sys2Proof.Machine.execPwrCmdMgsOnly m s
  | .pwrCmdPartial m => Sys2Proof.Machine.execPwrCmdPartial m s
  | .pwrCmdFull m => Sys2Proof.Machine.execPwrCmdFull m s
  | .transDone => Sys2Proof.Machine.execTransDone s
  | .transAbort => Sys2Proof.Machine.execTransAbort s
  | .memberSilent k => Sys2Proof.Machine.execMemberSilent k s
  | .sleepPoint => Sys2Proof.Machine.execSleepPoint s
  | .sleepFail => Sys2Proof.Machine.execSleepFail s
  | .inhRelease => Sys2Proof.Machine.execInhRelease s
  | .switchesOpen => Sys2Proof.Machine.execSwitchesOpen s
  | .wakeLatch k n => Sys2Proof.Machine.execWakeLatch k n s
  | .swFrameMatch c id ide rtr dlc data n corr => Sys2Proof.Machine.execSwFrameMatch c id ide rtr dlc data n corr s
  | .swDecodeError c fd n => Sys2Proof.Machine.execSwDecodeError c fd n s
  | .aonTimerExpire n => Sys2Proof.Machine.execAonTimerExpire n s
  | .minOffEnd => Sys2Proof.Machine.execMinOffEnd s
  | .powerGood ddr => Sys2Proof.Machine.execPowerGood s ddr
  | .pgTimeout => Sys2Proof.Machine.execPgTimeout s
  | .xinaStable n => Sys2Proof.Machine.execXinaStable n s
  | .xinaStartTimeout => Sys2Proof.Machine.execXinaStartTimeout s
  | .xinaLost => Sys2Proof.Machine.execXinaLost s
  | .xinaRetry ok n => Sys2Proof.Machine.execXinaRetry ok n s
  | .xinbStable => Sys2Proof.Machine.execXinbStable s
  | .pllUnlock k => Sys2Proof.Machine.execPllUnlock k s
  | .pllLocked k => Sys2Proof.Machine.execPllLocked k s
  | .gate m v => Sys2Proof.Machine.execGate m v s
  | .gateClose pg => Sys2Proof.Machine.execGateClose pg s
  | .falseWakeWindow k => Sys2Proof.Machine.execFalseWakeWindow k s
  | .wakeComplete => Sys2Proof.Machine.execWakeComplete s
  | .checkpointRestore rest ok => Sys2Proof.Machine.execCheckpointRestore rest ok s
  | .powerOnReset => Sys2Proof.Machine.execPowerOnReset s
  | .brownout ddr => Sys2Proof.Machine.execBrownout s ddr
  | .resetN => Sys2Proof.Machine.execResetN s
  | .warm m => Sys2Proof.Machine.execWarm m s
  | .bootVerifyDone => Sys2Proof.Machine.execBootVerifyDone s
  | .restoreComplete bad => Sys2Proof.Machine.execRestoreComplete s bad
  | .lockstepMismatch => Sys2Proof.Machine.execLockstepMismatch s
  | .watchdogExpire => Sys2Proof.Machine.execWatchdogExpire s
  | .mgsRestartDone => Sys2Proof.Machine.execMgsRestartDone s
  | .infoCmd m => Sys2Proof.Machine.execInfo m s
  | .journalSave m => Sys2Proof.Machine.execJournalSave m s
  | .journalSync m => Sys2Proof.Machine.execJournalSync m s
  | .authorise m => Sys2Proof.Machine.execAuthorise m s
  | .unborUnlock m => Sys2Proof.Machine.execUnborUnlock m s
  | .headEnrol m => Sys2Proof.Machine.execHeadEnrol m s
  | .headRetire m => Sys2Proof.Machine.execHeadRetire m s
  | .rosterAdd m => Sys2Proof.Machine.execRosterAdd m s
  | .rosterRemove m => Sys2Proof.Machine.execRosterRemove m s
  | .rosterReplace m => Sys2Proof.Machine.execRosterReplace m s
  | .logCheckpoint m => Sys2Proof.Machine.execLogCheckpoint m s
  | .logFlush m => Sys2Proof.Machine.execLogFlush m s
  | .secAck m => Sys2Proof.Machine.execSecAck m s
  | .restart m => Sys2Proof.Machine.execRestart m s
  | .marginRun m => Sys2Proof.Machine.execMarginRun m s
  | .setIds m => Sys2Proof.Machine.execSetIds m s
  | .unborLock m => Sys2Proof.Machine.execUnborLock m s
  | .journalCommitRecord remap => Sys2Proof.Machine.execJournalCommitRecord s remap
  | .journalCompact => Sys2Proof.Machine.execJournalCompact s
  | .eventLogWrite remap => Sys2Proof.Machine.execEventLogWrite s remap
  | .suppressed => Sys2Proof.Machine.execSuppressed s
  | .sensorSample vals => Sys2Proof.Machine.execSensorSample vals s
  | .begin m => Sys2Proof.Machine.execBegin m s
  | .updWrite m => Sys2Proof.Machine.execUpdWrite m s
  | .finish m => Sys2Proof.Machine.execFinish m s
  | .activate m => Sys2Proof.Machine.execActivate m s
  | .confirm m => Sys2Proof.Machine.execConfirm m s
  | .abort m => Sys2Proof.Machine.execAbort m s
  | .updTrialExpire => Sys2Proof.Machine.execUpdTrialExpire s
  | .marginPeriod => Sys2Proof.Machine.execMarginPeriod s
  | .marginRunDone taps rx age replica sram eye wear loss vmin short pulse months => Sys2Proof.Machine.execMarginRunDone taps rx age replica sram eye wear loss vmin short s pulse months
  | .avsStep => Sys2Proof.Machine.execAvsStep s
  | .unborHelp => Sys2Proof.Machine.execUnborHelp s
  | .unborInfo => Sys2Proof.Machine.execUnborInfo s
  | .unlock env => Sys2Proof.Machine.execUnlock env s
  | .lock => Sys2Proof.Machine.execLock s
  | .rd a n => Sys2Proof.Machine.execRd a n s
  | .wr a v => Sys2Proof.Machine.execWr a v s
  | .log n => Sys2Proof.Machine.execLog n s
  | .sens => Sys2Proof.Machine.execSens s
  | .fence => Sys2Proof.Machine.execFence s
  | .unborExpire => Sys2Proof.Machine.execUnborExpire s
  | .pfcCntWrite m k hi v => Sys2Proof.Machine.execPfcCntWrite m k hi v s
  | .svcWrite m n => Sys2Proof.Machine.execSvcWrite m n s
  | .svcLoad m n stored k => Sys2Proof.Machine.execSvcLoad m n stored k s
  | .svcLoadDone n => Sys2Proof.Machine.execSvcLoadDone n s
  | .svcStop m n => Sys2Proof.Machine.execSvcStop m n s
  | .svcRestart m n => Sys2Proof.Machine.execSvcRestart m n s
  | .svcWdtExpire n memory => Sys2Proof.Machine.execSvcWdtExpire n memory s
  | .svcWdtService c => Sys2Proof.Machine.execSvcWdtService c s
  | .svcAutostart => Sys2Proof.Machine.execSvcAutostart s
  | .svcClaimRead c r => Sys2Proof.Machine.execSvcClaimRead c r s
  | .svcClaimRelease c r => Sys2Proof.Machine.execSvcClaimRelease c r s
  | .ddrReady ok => Sys2Proof.Machine.execDdrReady ok s
  | .gpioEdge n level => Sys2Proof.Machine.execGpioEdge n level s
  | .gpiOutWrite m v => Sys2Proof.Machine.execGpiOutWrite m v s
  | .sleepLatch mesh => Sys2Proof.Machine.execSleepLatch mesh s
  | .swFrameDecoded c corr => Sys2Proof.Machine.execSwFrameDecoded c corr s
  | .sdCollision p => Sys2Proof.Machine.execSdCollision p s
  | .followUpTimeout d => Sys2Proof.Machine.execFollowUpTimeout d s

end Sys2Proof.Machine
end

