-- ==== Sys2Proof/Safety.lean ====
section
/-! DEFINITION. The terms of the claims: the areas of the state, what two states share, the canonical form, what never goes back. -/

namespace Sys2Proof.Machine

/-- The areas of the state: one for each of its fields. -/
inductive Area where
  | regs | slots | fences | holds | snaps | tbl | stage | commitQ | commits | frcNs | frcFrac | msix | resets | lrn | bsn | meters
  | egr | slu | bud | fre | fgd | had | ept | hif | can | lin | cfl | vlt | auth | twn | tim | pwr | mgs | svc | inj | out | free
  | pending
deriving DecidableEq, Repr

/-- Two states hold the same in an area. -/
def Area.same (a : Area) (s t : State) : Prop :=
  match a with
  | .regs => s.regs = t.regs
  | .slots => s.slots = t.slots
  | .fences => s.fences = t.fences
  | .holds => s.holds = t.holds
  | .snaps => s.snaps = t.snaps
  | .tbl => s.tbl = t.tbl
  | .stage => s.stage = t.stage
  | .commitQ => s.commitQ = t.commitQ
  | .commits => s.commits = t.commits
  | .frcNs => s.frcNs = t.frcNs
  | .frcFrac => s.frcFrac = t.frcFrac
  | .msix => s.msix = t.msix
  | .resets => s.resets = t.resets
  | .lrn => s.lrn = t.lrn
  | .bsn => s.bsn = t.bsn
  | .meters => s.meters = t.meters
  | .egr => s.egr = t.egr
  | .slu => s.slu = t.slu
  | .bud => s.bud = t.bud
  | .fre => s.fre = t.fre
  | .fgd => s.fgd = t.fgd
  | .had => s.had = t.had
  | .ept => s.ept = t.ept
  | .hif => s.hif = t.hif
  | .can => s.can = t.can
  | .lin => s.lin = t.lin
  | .cfl => s.cfl = t.cfl
  | .vlt => s.vlt = t.vlt
  | .auth => s.auth = t.auth
  | .twn => s.twn = t.twn
  | .tim => s.tim = t.tim
  | .pwr => s.pwr = t.pwr
  | .mgs => s.mgs = t.mgs
  | .svc => s.svc = t.svc
  | .inj => s.inj = t.inj
  | .out => s.out = t.out
  | .free => s.free = t.free
  | .pending => s.pending = t.pending

/-- Every area but those listed is the same in both states. -/
def sameBut (w : List Area) (s t : State) : Prop := ∀ a : Area, a ∉ w → a.same s t

/-- The canonical form: the registers and the forwarding tables list rising addresses, and none that reads as an unlisted one does. -/
structure State.Inv (s : State) : Prop where
  regs : Tab.wf regReset s.regs = true
  tbl : Tab.wf (fun _ => 0) s.tbl = true

/-- What the management subsystem keeps in MRAM never goes back: the rollback floor (R424), the records written to each ring of the event
log (R416, R418), the journal's JSEQ (R411). -/
structure MgsOn (a b : MgsSt) : Prop where
  floor : a.floor ≤ b.floor
  gen : a.countGen ≤ b.countGen
  sec : a.countSec ≤ b.countSec
  jseq : a.jseq ≤ b.jseq

/-- The last GEN of key slot `i`. -/
def VltSt.lastGen (v : VltSt) (i : Nat) : Nat := (Tab.get (fun _ => KeySlot.reset) v.slots i).lastGen

/-- What the Vault keeps in MRAM never goes back: the EPOCH (R301) and every slot's last GEN (R307, R308). -/
structure VltOn (a b : VltSt) : Prop where
  epoch : a.epoch ≤ b.epoch
  gen : ∀ i, a.lastGen i ≤ b.lastGen i

/-- Nothing stops a whole-word write of address `a` by master `m` (R25, R32-R36, R436, R437). -/
def State.admits (s : State) (m a : Nat) : Bool := decide (s.svcBar m a = 0) && (s.writeViol m a true).isNone

/-- What a write that nothing stops does before the register's own effect: the page is noted for the master's next fence (R41), and
the performance counters that select the write count it (R430). -/
def State.noted (s : State) (m a : Nat) : State := (s.touch m (a / 0x1000)).perf 0x01 1 (some m) (some a)

/-- Command `c` completes at `s`: exec answers a next state, and `P` holds of it. -/
def Completes (c : Instr) (s : State) (P : State → Prop) : Prop := ∃ t, exec c s = .next t ∧ P t

/-- No use of a key waits in the Vault's queue: what leaves the queue starts nothing (R315). -/
def State.vltCalm (s : State) : Bool := s.vlt.ops.all fun o => o.res.isSome || !vltUses o.op

/-- The operation in front of the Vault's queue is port p's `op` for head admission, not aborted (R172). -/
def State.hadFront (s : State) (op p : Nat) : Bool := match s.vlt.ops with | o :: _ => o.ofPort op p && !o.aborted | [] => false

/-- The transmit taps that apply when port p enters TRAINING: a SerDes lane's are EPT_EQ's with EQ_MANUAL = 1, else the planner's (R199). -/
def State.tapsNext (s : State) (p : Nat) : Word :=
  if p < 20 then (s.eport p).taps else if s.rb (Reg.EPT_SERDES p) 6 then s.rd (Reg.EPT_EQ p) else (s.eport p).planTaps

/-- The message of an MSI-X vector: its table entry's address and data (R216). -/
def State.msixOut (s : State) (v : Nat) : Output :=
  .msix v ((s.msixRead (4 * v)).toNat + (s.msixRead (4 * v + 1)).toNat * 2 ^ 32) (s.msixRead (4 * v + 2))

/-- The core that master 2 presents belongs to the partition that owns ring n of port 23 (R444). -/
def State.ringMine (s : State) (n : Nat) : Bool := (s.partOf s.svc.core).any fun x => decide (s.ringPart n = x.1)

/-- A message of the gateway's own (R21). -/
def Inject.isOwn : Inject → Bool
  | .own .. => true
  | .frame .. => false
  | .consumed .. => false

/-- The next state `t` of a command that has made `u` of the state and presented what `u.inj` lists: the frame path has passed it on, and
touches no area but those of its stages. Where nothing is presented `t` is `u`. Where it is no more than messages of the gateway's own,
`t` is `u` but for the areas in which such a message is queued, counted and sent. -/
def passed (u t : State) : Prop :=
  t = u.settle ∧ (u.inj = [] → t = u) ∧
  sameBut [.regs, .tbl, .msix, .lrn, .bsn, .meters, .egr, .fre, .fgd, .had, .cfl, .vlt, .auth, .twn, .tim, .mgs, .inj, .out, .free] u t ∧
  (u.inj.all Inject.isOwn = true → t.inj = [] ∧ sameBut [.regs, .msix, .bsn, .egr, .mgs, .inj, .out] u t)

/-- Command `c` completes at `s`: exec answers a next state, the frame path's of a state `u` of which `P` holds. -/
def Presents (c : Instr) (s : State) (P : State → Prop) : Prop := Completes c s fun t => ∃ u, P u ∧ passed u t

/-- What a write of `v` leaves in the register at address `a` when it held `old`: its writable bits, each limited field at the nearer
limit (R12). -/
def written (a : Nat) (old v : Word) : Word :=
  match pageOf (a / 0x1000) with
  | none => old
  | some (b, _) =>
    match findReg b (a % 0x1000) with
    | none => old
    | some (d, _) => d.store old v

/-- The registers other than those listed hold what they held; the page of the performance counters, which count accesses and events
on their own (R430), is left aside. -/
def regsBut (ks : List Nat) (s t : State) : Prop := ∀ k, k ∉ ks → (k < 0x4000 ∨ 0x5000 ≤ k) → t.rd k = s.rd k

/-- The commands offered to a result slot (R49-R52): the slot, the master, the base of the slot's page and the register written. -/
def slotCommand (c : Instr) : Option (Nat × Nat × Nat × Nat) :=
  match c with
  | .tapRead m _ | .tapWrite m _ | .tapLookup m _ | .tapInsert m _ | .tapDelete m _ | .tapCommit m | .tapDiscard m =>
    some (tapSlot m, m, pageBase .tap 0, Reg.TAP_CMD)
  | .budRequest m | .budQuery m | .budRelease m | .budRead m | .budRecheck m =>
    some (budSlot m, m, pageBase .bud 0, Reg.BUD_CMD)
  | .hadEnrol m _ _ | .hadRetire m _ | .hadRead m _ | .hadReadmit m _ | .hadReadLife m _ =>
    some (hadSlot m, m, pageBase .had 0, Reg.HAD_CMD)
  | .vltInfo m | .vltGenerate m | .vltDerive m | .vltCommit m | .vltDiscard m | .vltRevoke m | .vltDelete m | .vltSign m
  | .vltVerify m | .vltHash m | .vltMac m | .vltEncrypt m | .vltDecrypt m | .vltRandom m | .vltAttest m | .authNonce m
  | .vltClaim m | .vltTransfer m | .tamperClear m | .pageUnlock m | .setCosign m | .updLock m | .wipe m | .reinit m
  | .importCmd m | .vltAuthoriseDelegated m =>
    some (vltSlot m, m, pageBase .vlt 0, Reg.VLT_CMD)
  | .infoCmd m | .journalSave m | .journalSync m | .authorise m | .unborUnlock m | .headEnrol m | .headRetire m
  | .rosterAdd m | .rosterRemove m | .rosterReplace m | .logCheckpoint m | .logFlush m | .secAck m | .restart m
  | .marginRun m | .setIds m | .unborLock m =>
    some (mgsSlot m, m, pageBase .mgs 0, Reg.MGS_CMD)
  | .begin m | .updWrite m | .finish m | .activate m | .confirm m | .abort m =>
    some (updSlot m, m, pageBase .upd 0, Reg.UPD_CMD)
  | .svcWrite m _ | .svcLoad m _ _ _ | .svcStop m _ | .svcRestart m _ =>
    some (svcSlot m, m, pageBase .svc 0, Reg.SVC_CMD)
  | _ => none

/-- The envelope in the master's buffer asks for the action the command names; true of a command that needs no envelope of its own. -/
def envelopeFits (c : Instr) (s : State) : Bool :=
  match c with
  | .tamperClear m => decide (s.bufAction m = 1)
  | .pageUnlock m => decide (s.bufAction m = 2)
  | .setCosign m => decide (s.bufAction m = 3)
  | .updLock m => decide (s.bufAction m = 4)
  | .wipe m => decide (s.bufAction m = 5)
  | .reinit m => decide (s.bufAction m = 6)
  | .importCmd m => decide (s.bufAction m = 7)
  | .vltAuthoriseDelegated m => decide (0x20 ≤ s.bufAction m ∧ s.bufAction m ≤ 0x3F)
  | .unborUnlock m => decide (s.rf (bankKey m (Reg.MGS_BUF 0)) 8 8 = 0x20)
  | .headEnrol m => decide (s.rf (bankKey m (Reg.MGS_BUF 0)) 8 8 = 0x21)
  | .headRetire m => decide (s.rf (bankKey m (Reg.MGS_BUF 0)) 8 8 = 0x22)
  | .rosterAdd m => decide (s.rf (bankKey m (Reg.MGS_BUF 0)) 8 8 = 0x30)
  | .rosterRemove m => decide (s.rf (bankKey m (Reg.MGS_BUF 0)) 8 8 = 0x31)
  | .rosterReplace m => decide (s.rf (bankKey m (Reg.MGS_BUF 0)) 8 8 = 0x32)
  | _ => true

/-- An in-band request of a type passes the checks of R219: enabled, addressed to this node, well formed, newer than the last one
accepted, and its TAG is the one the key gives. -/
def State.ibmAccepts (s : State) (typ : Nat) (b : List Byte) : Prop :=
  s.mgsUp = true ∧ s.rb Reg.HIF_IBM_CFG 0 = true ∧ beAt b 0 1 = 5 ∧ beAt b 1 1 = 1 ∧ beAt b 2 1 = typ ∧ beAt b 4 2 % 512 = s.node ∧
  beAt b 3 1 ≤ 16 ∧ 36 + 4 * beAt b 3 1 ≤ b.length ∧ s.hif.ibmSeq < beAt b 6 8 ∧
  (s.ibmTag false (beAt b 4 2) (beAt b 6 8) (b.take (20 + 4 * beAt b 3 1))).1 = some ((b.drop (20 + 4 * beAt b 3 1)).take 16)

/-- Master `m`'s read of word `a` is served, of a word that its earlier reads do not hold and that is no part of a longer value; no
performance counter counts. -/
abbrev State.plainRead (s : State) (m a : Nat) : Prop :=
  m ≠ 2 ∧ s.readViol a true = none ∧ (s.hold m a).highs = [] ∧ s.perfList = [] ∧
  ((pageOf (a / 0x1000)).all fun p => (heldWords p.1 (a % 0x1000)).isEmpty) = true

/-- The register at `a` is an ordinary one, stored as written, of a page whose writes do nothing more. -/
def plainReg (a : Nat) : Bool :=
  match pageOf (a / 0x1000) with
  | none => false
  | some (b, _) =>
    [Blk.icl, .srt, .rak, .vlt, .cau, .upd, .evl].contains b && decide (0x80 ≤ a % 0x1000) &&
    (match findReg b (a % 0x1000) with | some (d, _) => (decide (d.acc = .rw) || decide (d.acc = .rwl)) && !d.banked | none => false)

/-- A received CAN frame in the form in which it is offered (R226, R228): SOF_TS less the delay, AUTH 0, TRUNC 0. -/
def State.canSeen (s : State) (c : Nat) (b : List Byte) : List Byte :=
  busMk (busWord b 0 - wd (s.rf (Reg.CAN_TS_COMP c) 0 8)) (wd (busId b)) (busWord b 2) (setFld (busWord b 3) 23 1 0) (busData b)

/-- The channel sends: it takes part in bus traffic, drives the bus, stops not, and its domain is on. -/
abbrev State.canSends (s : State) (c : Nat) : Prop :=
  (s.cch c).onBus = true ∧ s.canHeld c = false ∧ (s.cch c).stopping = false ∧ s.pwr.fwdOn = true

/-- No copy of the list is taken before `i`: none has a smaller key, and none of an equal key has waited longer (R237). -/
abbrev firstInOrder (l : List TxlItem) (i : TxlItem) : Prop :=
  i ∈ l ∧ ∀ j ∈ l, orderKey i.bytes < orderKey j.bytes ∨ (orderKey i.bytes = orderKey j.bytes ∧ i.since ≤ j.since)

/-- The command of the Budget Engine that master `m`'s write of OP makes of its argument registers (Table 5-7). -/
def State.budWants (s : State) (m op : Nat) : BudCmd :=
  ⟨m, op, s.rf (bankKey m Reg.BUD_INDEX) 0 10, s.rd (bankKey m (Reg.BUD_REQ 0)), s.rd (bankKey m (Reg.BUD_REQ 1)),
    s.rd (bankKey m (Reg.BUD_REQ 2)), s.rd (bankKey m (Reg.BUD_REQ 3))⟩

/-- The work is a command that has not started. -/
def BudWork.isCmd : BudWork → Bool
  | .cmd _ => true
  | .running _ => false
  | .recheck _ => false

/-- Master `m`'s write of BUD_CMD takes its slot, and no work of the Budget Engine is ahead of it. -/
abbrev State.budFree (s : State) (m : Nat) : Prop :=
  s.admits m Reg.BUD_CMD = true ∧ (s.slot (budSlot m)).idle = true ∧ s.bud.work = []

/-- The state in which that command then starts. -/
def State.budAt (s : State) (m : Nat) : State :=
  let u := (s.noted m Reg.BUD_CMD).setSlot (budSlot m) ((s.slot (budSlot m)).accept m)
  { u with bud := { u.bud with work := [.running m] } }

/-- The operation that a command puts into the Vault's queue: its master and its OP (Table 11-17). -/
def vaultOp (c : Instr) : Option (Nat × Nat) :=
  match c with
  | .vltInfo m => some (m, 0x01)
  | .vltGenerate m => some (m, 0x02)
  | .vltDerive m => some (m, 0x03)
  | .vltCommit m => some (m, 0x04)
  | .vltDiscard m => some (m, 0x05)
  | .vltRevoke m => some (m, 0x06)
  | .vltDelete m => some (m, 0x07)
  | .vltSign m => some (m, 0x08)
  | .vltVerify m => some (m, 0x09)
  | .vltHash m => some (m, 0x0A)
  | .vltMac m => some (m, 0x0B)
  | .vltEncrypt m => some (m, 0x0C)
  | .vltDecrypt m => some (m, 0x0D)
  | .vltRandom m => some (m, 0x0E)
  | .vltAttest m => some (m, 0x0F)
  | .authNonce m => some (m, 0x10)
  | .tamperClear m | .pageUnlock m | .setCosign m | .updLock m | .wipe m | .reinit m | .importCmd m | .vltAuthoriseDelegated m => some (m, 0x11)
  | .vltClaim m => some (m, 0x12)
  | .vltTransfer m => some (m, 0x13)
  | _ => none

/-- The Vault's queue holds one operation that has not started, with argument word ARG0 `a0`, ARG1 `a1` and bytes `b`, of a slot that
waits for it. -/
abbrev State.vaultAtOp (s : State) (m op : Nat) (args : List Word) (b : List Byte) : Prop :=
  s.vlt.ops = [⟨m, op, args, b, none, 0⟩] ∧ (s.slot (vltSlot m)).busy = true ∧ s.svc.release = []

/-- A twin message of TYPE `typ` and `len` bytes at least that the unit does not drop (R350): of this version, from its partner. -/
abbrev State.twinTakes (s : State) (typ len : Nat) (b : List Byte) : Prop :=
  s.twn.state ≠ 0 ∧ beAt b 1 1 = 1 ∧ beAt b 2 1 = typ ∧ 1 ≤ typ ∧ typ ≤ 10 ∧ len ≤ b.length ∧ beAt b 4 2 % 512 = s.partner

/-- Beside what `s` waits to present, `u` presents one twin message, on port 22 in class 7: its TYPE and its body. -/
abbrev twinSends (s u : State) (typ : Nat) (body : List Byte) : Prop :=
  (u.inj.drop s.inj.length).map (fun x =>
    match x with
    | .own p k b _ => (p, k, (b.drop 14).take 3, b.drop 26)
    | _ => (0, 0, [], [])) = [(22, 7, [2, 1, BitVec.ofNat 8 typ], body)]


/-- A slot of master `m` takes a command and completes it at once: nothing stops the write at `a`, the slot is idle, no partition has let go of
it, and no frame waits to be presented. -/
abbrev State.serves (s : State) (m a i : Nat) : Prop :=
  s.admits m a = true ∧ (s.slot i).idle = true ∧ s.svc.release = [] ∧ s.inj = []

/-- The management firmware serves master `m`'s mailbox command. -/
abbrev State.mailReady (s : State) (m : Nat) : Prop := s.serves m Reg.MGS_CMD (mgsSlot m) ∧ s.mgsUp = true

/-- Slot `i` when the command it has just taken from `m` completes with `r`. -/
def State.answers (s : State) (m i : Nat) (r : Result) : Slot := ((s.slot i).accept m).complete r

/-- The envelope in master `m`'s MGS_BUF, of the length in MGS_ARG0, and its ARG bytes. -/
def State.mailEnvelope (s : State) (m : Nat) : List Byte := (s.bankBytes m (Reg.MGS_BUF 0) 2048).take (fld (s.rd (bankKey m (Reg.MGS_ARG 0))) 0 12)

/-- `t` puts the envelope in master `m`'s MGS_BUF into the Vault's queue, whose answer the mailbox slot waits for, and does nothing else. -/
abbrev submitsMail (s : State) (m : Nat) (t : State) : Prop :=
  t.slot (mgsSlot m) = (s.slot (mgsSlot m)).accept m ∧ t.vlt = { s.vlt with ops := s.vlt.ops ++ [⟨m, VOp.mail, [], s.mailEnvelope m, none, 0⟩] } ∧
  t.mgs = s.mgs ∧ t.had = s.had ∧ t.twn = s.twn ∧ regsBut [] s t

/-- The ARG bytes of an envelope (Table 11-3). -/
def envelopeArg (b : List Byte) : List Byte := (b.drop 38).take (beAt b 36 2)

/-- The Vault has come to the window-bound envelope `b` that the mailbox submitted for master `m`: its ACTION is `a`, with `n` ARG bytes. -/
abbrev State.mailAt (s : State) (m a n : Nat) (b : List Byte) : Prop :=
  s.vlt.ops = [⟨m, VOp.mail, [], b, none, 0⟩] ∧ (s.slot (mgsSlot m)).busy = true ∧ s.svc.release = [] ∧ beAt b 1 1 = a ∧
  (b.drop 20).take 16 = List.replicate 16 0 ∧ (envelopeArg b).length = n

/-- The slot of the mailbox command whose envelope the Vault has judged, with its result `r`; AUTH_INVALID where it did not check. -/
def State.mailGets (s : State) (m : Nat) (b : List Byte) (r : Result) : Slot :=
  (s.slot (mgsSlot m)).complete (if s.envelopeOk 3 b then r else codeRes VCode.authInvalid)

/-- The records of an accepted envelope of ACTION `a` (R325, R409): the Vault's, and DELEGATED with the first ARG bytes `l`. -/
def acceptedLogs (a : Nat) (l : List Byte) : List (Nat × List Byte) := [(0x801E, fit 16 (toBE 1 a)), (0xA012, fit 16 (toBE 1 a ++ l))]

/-- The event log requests that `t` adds to those of `s`: their TYPEs, first bytes of payload. -/
def logsSince (s t : State) : List (Nat × List Byte) := (t.mgs.logQ.drop s.mgs.logQ.length).map (fun r => (r.type, r.payload))


/-- `t` answers master 4's mailbox command DENIED and does nothing else. -/
abbrev deniesMail (s t : State) : Prop :=
  t.slot (mgsSlot 4) = s.answers 4 (mgsSlot 4) (codeRes Code.denied) ∧ t.mgs = s.mgs ∧ regsBut [] s t


/-- `t` answers master 4's command of the SVC page DENIED and does nothing else. -/
abbrev deniesSvc (s t : State) : Prop :=
  t.svc = s.svc ∧ t.slot (svcSlot 4) = s.answers 4 (svcSlot 4) (codeRes Code.denied) ∧ regsBut [] s t


/-- These outputs are interrupt messages. -/
def onlyMsix (l : List Output) : Bool := l.all fun o => match o with | .msix .. => true | _ => false

/-- The areas that each command can change: every other area of the state stays as it was. -/
def footprint (c : Instr) : List Area :=
  match c with
  | .regWrite .. | .softRst .. | .quiesceReq .. | .eptEnable .. | .qspiWrite .. | .ibmRead .. | .ibmWrite .. | .ibmFence ..
  | .canEnable .. | .linEnable .. | .cflEnable .. | .transDone | .switchesOpen | .checkpointRestore .. | .brownout .. | .resetN | .warm ..
  | .bootVerifyDone | .restoreComplete .. | .wr .. | .fence =>
    [.regs, .slots, .fences, .holds, .snaps, .tbl, .stage, .commitQ, .commits, .msix, .resets, .lrn, .bsn, .meters, .egr, .slu, .bud,
      .fre, .fgd, .had, .ept, .hif, .can, .lin, .cfl, .vlt, .auth, .twn, .tim, .pwr, .mgs, .svc, .inj, .out, .free]
  | .multiwordLowRead .. | .rd .. =>
    [.regs, .holds, .msix, .hif, .mgs, .svc, .out, .free]
  | .writeMaskWrite .. | .fenceReq .. | .intForce .. | .blkLock .. | .errCapRearm .. | .counterClr .. | .seedWrite .. | .edyRateWrite ..
  | .ringEnable .. | .ringDisable .. | .txDb .. | .rxDb .. | .msixUnmask .. | .l0Release .. | .timFrcIncWrite .. | .lceTxAnWrite ..
  | .pfcCntWrite .. | .gpiOutWrite .. =>
    [.regs, .fences, .msix, .hif, .mgs, .out]
  | .fenceRetired .. | .anchorDisable .. | .headEnWrite .. | .rotate .. | .forcePrimary .. | .yield .. | .resync .. =>
    [.regs, .fences, .tbl, .msix, .lrn, .bsn, .meters, .egr, .fre, .fgd, .had, .hif, .cfl, .vlt, .auth, .twn, .tim, .mgs, .inj, .out,
      .free]
  | .intRawClear .. =>
    [.regs, .fences, .msix, .bsn, .hif, .mgs, .out]
  | .softRstDone .. =>
    [.regs, .resets]
  | .quiesced .. | .sdActivity .. | .pgTimeout =>
    [.regs, .pwr]
  | .cntSnap .. | .cntSnapAll .. | .cntSnapAck .. =>
    [.regs, .slots, .fences, .snaps, .msix, .hif, .mgs, .out]
  | .snapDone .. =>
    [.regs, .slots, .msix, .svc, .out]
  | .resAck .. =>
    [.regs, .slots, .fences, .msix, .hif, .mgs, .out]
  | .tapRead .. | .tapWrite .. | .tapLookup .. | .tapInsert .. | .tapDelete .. | .tapCommit .. | .tapDiscard .. =>
    [.regs, .slots, .fences, .stage, .commitQ, .msix, .hif, .mgs, .out]
  | .tapCommitDone =>
    [.regs, .slots, .fences, .tbl, .stage, .commitQ, .commits, .lrn, .bsn, .cfl, .mgs, .svc]
  | .tapOpDone .. | .svcLoadDone .. =>
    [.slots, .svc]
  | .ethFrameRx .. | .frameVerdict .. =>
    [.regs, .tbl, .msix, .lrn, .bsn, .meters, .egr, .fre, .fgd, .had, .cfl, .vlt, .auth, .twn, .tim, .pwr, .mgs, .inj, .out, .free]
  | .learnCommit =>
    [.regs, .tbl, .msix, .lrn, .mgs, .out]
  | .freezeTick | .ageTick =>
    [.regs, .tbl, .lrn]
  | .lrnAgeWrite .. =>
    [.regs, .fences, .tbl, .msix, .lrn, .hif, .mgs, .out]
  | .anchorBatch | .anchorAnnounce .. | .anchorWithdraw .. | .anchorSyncReq .. | .anchorSyncData .. | .anchorSyncEnd .. | .egressSelect ..
  | .preempt .. | .proofRx .. | .headRequestRx .. | .proofVerified .. | .verdictSigned .. | .hadRespTimeout .. | .hadRetryTimeout ..
  | .hadPeriod .. | .fgdDeadline .. | .fgdStaleRepeat .. | .cflTunHold .. | .cflItemComplete | .syncRx .. | .followUpRx ..
  | .gmSyncTimer .. | .pdelayTimer .. | .pdelayReqRx .. | .counterReserve | .heartbeatTimer | .heartbeatRx .. | .hbEdge | .arbClaimSeen
  | .digestSend | .digestRx .. | .selftestDone .. | .selftestRx .. | .selftestTimeout | .roleOfferRx .. | .rotateTimer | .twinSyncReqRx ..
  | .twinSyncEndRx .. | .attestReqRx .. | .attestRepRx .. =>
    [.regs, .tbl, .msix, .lrn, .bsn, .meters, .egr, .fre, .fgd, .had, .cfl, .vlt, .auth, .twn, .tim, .mgs, .inj, .out, .free]
  | .anchorSilenceTimeout .. | .freLatentTest .. | .hfrcMeasure .. | .xinaStartTimeout | .eventLogWrite .. | .suppressed
  | .sensorSample .. =>
    [.regs, .msix, .mgs, .out]
  | .txComplete .. | .sdCollision .. =>
    [.regs, .msix, .bsn, .egr, .ept, .mgs, .out]
  | .rakeAuditStart =>
    [.regs, .msix, .bsn, .out]
  | .rakeAuditDone .. =>
    [.regs, .msix, .bsn, .mgs, .out]
  | .flowSeedApply | .gapMarker .. =>
    [.bsn]
  | .qcfgWrite .. =>
    [.regs, .fences, .msix, .bud, .hif, .mgs, .out]
  | .fifoReset .. =>
    [.regs, .msix, .bsn, .hif, .mgs, .svc, .out, .free]
  | .weiApply .. | .weiLoad .. | .budEnable .. =>
    [.regs, .fences, .msix, .meters, .hif, .mgs, .out]
  | .sluChange .. | .sluCancel .. | .sluGclWrite .. =>
    [.regs, .fences, .msix, .slu, .hif, .mgs, .out]
  | .sluConfigChange .. =>
    [.regs, .msix, .egr, .slu, .bud, .out, .free]
  | .gateEvent .. =>
    [.regs, .msix, .egr, .slu, .out, .free]
  | .sluGateEnWrite .. =>
    [.regs, .fences, .msix, .egr, .slu, .bud, .hif, .mgs, .out, .free]
  | .verifyTimer .. | .pauseFrameRx .. =>
    [.regs, .msix, .egr, .out]
  | .verifyRespond .. =>
    [.regs, .egr, .bud]
  | .pauseExpire .. =>
    [.regs, .egr]
  | .budRequest .. | .budQuery .. | .budRelease .. | .budRead .. | .budRecheck .. =>
    [.regs, .slots, .fences, .msix, .meters, .bud, .hif, .mgs, .out, .free]
  | .budCmdDone =>
    [.regs, .slots, .msix, .meters, .bud, .mgs, .svc, .out, .free]
  | .budAutoRecheck .. =>
    [.regs, .slots, .msix, .meters, .bud, .mgs, .out, .free]
  | .observedMinute .. =>
    [.had]
  | .lifeRecordTimer .. =>
    [.regs, .msix, .had, .mgs, .out]
  | .hadEnrol .. | .hadRetire .. | .hadReadmit .. | .authorise .. | .headEnrol .. | .headRetire .. =>
    [.regs, .slots, .fences, .tbl, .msix, .lrn, .bsn, .meters, .egr, .fre, .fgd, .had, .hif, .cfl, .vlt, .auth, .twn, .tim, .mgs, .svc,
      .inj, .out, .free]
  | .hadRead .. | .hadReadLife .. =>
    [.regs, .slots, .fences, .msix, .had, .hif, .vlt, .auth, .mgs, .svc, .inj, .out]
  | .freApply .. | .freLoad .. | .freReset .. =>
    [.regs, .fences, .msix, .fre, .hif, .mgs, .out]
  | .freRecoveryTimeout .. =>
    [.regs, .fre]
  | .freLatentReset .. =>
    [.fre]
  | .fgdApply .. | .fgdLoad .. =>
    [.regs, .fences, .msix, .fgd, .hif, .mgs, .out]
  | .linkPcsUp .. | .linkHoldExpire .. =>
    [.regs, .tbl, .msix, .lrn, .bsn, .meters, .egr, .bud, .fre, .fgd, .had, .ept, .cfl, .vlt, .auth, .twn, .tim, .pwr, .mgs, .inj, .out,
      .free]
  | .linkPcsDown .. | .tc10SleepAgreed .. =>
    [.regs, .tbl, .msix, .lrn, .bsn, .meters, .egr, .bud, .fre, .fgd, .had, .ept, .cfl, .vlt, .auth, .twn, .tim, .mgs, .inj, .out, .free]
  | .trainTimeout .. | .tc10SleepReqRx .. | .plcaBeaconTimeout .. =>
    [.regs, .msix, .ept, .out]
  | .eptCfgWrite .. | .retrain .. | .hifDmaPortWrite .. =>
    [.regs, .fences, .tbl, .msix, .lrn, .bsn, .meters, .egr, .bud, .fre, .fgd, .had, .ept, .hif, .cfl, .vlt, .auth, .twn, .tim, .mgs,
      .inj, .out, .free]
  | .eptSleep .. | .eptWake .. =>
    [.regs, .fences, .msix, .bsn, .meters, .egr, .bud, .fre, .fgd, .had, .ept, .hif, .vlt, .auth, .mgs, .inj, .out, .free]
  | .tc10SleepTimeout .. =>
    [.regs, .ept]
  | .tc10WakeDetect .. =>
    [.regs, .msix, .bsn, .meters, .egr, .bud, .fre, .fgd, .had, .ept, .vlt, .auth, .mgs, .inj, .out, .free]
  | .plcaBeaconRx .. =>
    [.ept]
  | .hiBer .. | .gpioEdge .. =>
    [.regs, .msix, .out]
  | .dmaPortStatus .. =>
    [.regs, .msix, .bsn, .egr, .bud, .hif, .out]
  | .hifTxStart .. =>
    [.regs, .tbl, .msix, .lrn, .bsn, .meters, .egr, .fre, .fgd, .had, .hif, .cfl, .vlt, .auth, .twn, .tim, .pwr, .mgs, .svc, .inj, .out,
      .free]
  | .rxDescComplete .. =>
    [.regs, .msix, .bsn, .egr, .hif, .mgs, .svc, .out]
  | .dmaError .. =>
    [.regs, .msix, .hif, .svc, .out, .free]
  | .msixCoalTimer .. =>
    [.msix, .hif, .out]
  | .pcieReset =>
    [.regs, .msix, .bsn, .hif, .out]
  | .qspiRead .. =>
    [.regs, .holds, .msix, .hif, .mgs, .svc, .out]
  | .qspiStatus =>
    [.hif, .out]
  | .canFrameRx .. =>
    [.regs, .tbl, .msix, .lrn, .bsn, .meters, .egr, .fre, .fgd, .had, .can, .cfl, .vlt, .auth, .twn, .tim, .pwr, .mgs, .inj, .out, .free]
  | .cauVerdict =>
    [.regs, .tbl, .msix, .lrn, .bsn, .meters, .egr, .fre, .fgd, .had, .can, .cfl, .vlt, .auth, .twn, .tim, .mgs, .inj, .out, .free]
  | .canCopyLinked .. =>
    [.regs, .msix, .bsn, .can, .vlt, .auth, .twn, .mgs, .out]
  | .canArbitration .. | .canBusError .. | .canPex .. =>
    [.regs, .msix, .bsn, .can, .pwr, .mgs, .out]
  | .canTxSuccess .. | .canTxError .. | .canArbLost .. | .txlAged .. | .listenTakeEffect .. | .shadowAgeExpire .. =>
    [.regs, .msix, .bsn, .can, .mgs, .out]
  | .canIdleDetect .. =>
    [.regs, .msix, .bsn, .meters, .egr, .fre, .can, .pwr, .mgs, .out]
  | .canBoffDelay .. =>
    [.can]
  | .recover .. | .txlFlush .. | .rxqPop .. | .listenWrite .. =>
    [.regs, .fences, .msix, .bsn, .hif, .can, .mgs, .out]
  | .linFrameRx .. =>
    [.regs, .tbl, .msix, .lrn, .bsn, .meters, .egr, .fre, .fgd, .had, .lin, .cfl, .vlt, .auth, .twn, .tim, .pwr, .mgs, .inj, .out, .free]
  | .linResponseTimeout .. | .linGotosleepRx .. | .linInactivity .. | .linWakeRx .. =>
    [.regs, .msix, .lin, .out]
  | .linCopyLinked .. =>
    [.regs, .msix, .bsn, .twn, .mgs, .out]
  | .linHeaderRx .. =>
    [.regs, .msix, .lin, .pwr, .out]
  | .linSlot .. =>
    [.regs, .msix, .lin, .pwr, .mgs, .out]
  | .linSwitch .. | .linSleep .. | .linWake .. =>
    [.regs, .fences, .msix, .hif, .lin, .mgs, .out]
  | .linWakeRetry .. =>
    [.lin, .out]
  | .cflRxItem =>
    [.regs, .msix, .bsn, .egr, .ept, .cfl, .vlt, .auth, .twn, .tim, .pwr, .mgs, .inj, .out]
  | .cflTimeout .. | .cflDeferredTx .. | .cflCyclicTx .. | .takeover =>
    [.regs, .msix, .cfl, .twn, .mgs, .out]
  | .syncTimeout .. | .pdelayRespRx .. | .slewDone .. =>
    [.regs, .msix, .tim, .out]
  | .gptpOtherRx .. | .xinbStable | .ddrReady .. =>
    [.regs]
  | .domStep .. | .domSlew .. | .domSetRate .. | .domUnlock .. | .domEnable .. | .domRateMaxWrite .. | .srvOffset .. =>
    [.regs, .fences, .msix, .hif, .tim, .mgs, .out]
  | .vltInfo .. | .vltGenerate .. | .vltDerive .. | .vltCommit .. | .vltDiscard .. | .vltRevoke .. | .vltDelete .. | .vltSign ..
  | .vltVerify .. | .vltHash .. | .vltMac .. | .vltEncrypt .. | .vltDecrypt .. | .vltRandom .. | .vltAttest .. | .authNonce ..
  | .vltClaim .. | .vltTransfer .. | .tamperClear .. | .pageUnlock .. | .setCosign .. | .updLock .. | .wipe .. | .reinit ..
  | .importCmd .. | .vltAuthoriseDelegated .. =>
    [.regs, .slots, .fences, .msix, .hif, .vlt, .auth, .mgs, .out]
  | .nonceExpire .. | .sleepLatch .. =>
    [.vlt]
  | .vaultOpDone =>
    [.regs, .slots, .msix, .had, .vlt, .auth, .twn, .mgs, .svc, .inj, .out]
  | .engineKeyLoad .. =>
    [.regs, .msix, .auth, .mgs, .out]
  | .orphanGraceExpire .. | .tamperClass1 .. | .tamperClass2 | .tamperMesh | .vaultStartup .. | .vaultS4 .. =>
    [.regs, .msix, .vlt, .auth, .mgs, .out]
  | .cauFvRecord =>
    [.vlt, .auth]
  | .lceSaApply .. | .lceSaRetire .. | .lceSaLoad .. | .cauApply .. | .cauRetire .. | .cauLoad .. =>
    [.regs, .fences, .msix, .hif, .vlt, .auth, .mgs, .out]
  | .hbMissed | .twinStartTimeout | .roleSwitch | .rosterReport .. =>
    [.regs, .msix, .twn, .mgs, .out]
  | .arbClaimTimer | .unborHelp | .unborInfo =>
    [.out]
  | .arbPresencePulse =>
    [.twn, .out]
  | .arbPresenceSeen | .twinStartWait | .cfgDigestRecompute =>
    [.twn]
  | .divergeRx .. | .roleAcceptRx .. | .twinSyncDataRx .. =>
    [.regs, .twn]
  | .twinEnable .. =>
    [.regs, .fences, .msix, .hif, .twn, .mgs, .out]
  | .rosterCheck =>
    [.vlt, .twn]
  | .pwrCmdDormant .. | .pwrCmdSelective .. | .pwrCmdMgsOnly .. | .pwrCmdPartial .. | .pwrCmdFull .. =>
    [.regs, .fences, .tbl, .msix, .lrn, .bsn, .meters, .egr, .bud, .fre, .fgd, .had, .ept, .hif, .lin, .cfl, .vlt, .auth, .twn, .tim,
      .pwr, .mgs, .inj, .out, .free]
  | .transAbort | .sleepFail | .wakeLatch .. | .swFrameMatch .. | .swDecodeError .. | .wakeComplete =>
    [.regs, .tbl, .msix, .lrn, .bsn, .meters, .egr, .bud, .fre, .fgd, .had, .ept, .lin, .cfl, .vlt, .auth, .twn, .tim, .pwr, .mgs, .inj,
      .out, .free]
  | .memberSilent .. =>
    [.pwr]
  | .sleepPoint =>
    [.regs, .slots, .snaps, .msix, .bsn, .egr, .fgd, .ept, .can, .pwr, .mgs, .svc, .out]
  | .inhRelease =>
    [.pwr, .out]
  | .aonTimerExpire .. =>
    [.regs, .msix, .bsn, .meters, .egr, .bud, .fre, .fgd, .had, .ept, .lin, .cfl, .vlt, .auth, .twn, .pwr, .mgs, .inj, .out, .free]
  | .minOffEnd =>
    [.regs, .pwr, .out]
  | .powerGood .. | .gateClose .. | .falseWakeWindow .. | .swFrameDecoded .. =>
    [.regs, .msix, .pwr, .mgs, .out]
  | .xinaStable .. =>
    [.regs, .slots, .fences, .snaps, .tbl, .stage, .commitQ, .commits, .frcNs, .msix, .resets, .lrn, .bsn, .meters, .egr, .slu, .bud,
      .fre, .fgd, .had, .ept, .can, .lin, .cfl, .vlt, .auth, .twn, .tim, .pwr, .svc, .inj, .out]
  | .xinaLost | .pllUnlock .. =>
    [.regs, .slots, .fences, .snaps, .tbl, .stage, .commitQ, .commits, .msix, .resets, .lrn, .bsn, .meters, .egr, .slu, .bud, .fre, .fgd,
      .had, .ept, .hif, .can, .lin, .cfl, .vlt, .auth, .twn, .tim, .pwr, .mgs, .svc, .inj, .out, .free]
  | .xinaRetry .. =>
    [.regs, .slots, .fences, .holds, .snaps, .tbl, .stage, .commitQ, .commits, .frcNs, .msix, .resets, .lrn, .bsn, .meters, .egr, .slu,
      .bud, .fre, .fgd, .had, .ept, .hif, .can, .lin, .cfl, .vlt, .auth, .twn, .tim, .pwr, .mgs, .svc, .inj, .out, .free]
  | .pllLocked .. | .journalCommitRecord .. | .svcWdtExpire .. =>
    [.regs, .slots, .msix, .mgs, .svc, .out]
  | .gate .. =>
    [.regs, .fences, .tbl, .msix, .lrn, .bsn, .meters, .egr, .bud, .fre, .fgd, .had, .ept, .hif, .can, .lin, .cfl, .vlt, .auth, .twn,
      .tim, .pwr, .mgs, .inj, .out, .free]
  | .powerOnReset =>
    [.regs, .slots, .fences, .holds, .snaps, .tbl, .stage, .commitQ, .commits, .frcNs, .frcFrac, .msix, .resets, .lrn, .bsn, .meters,
      .egr, .slu, .bud, .fre, .fgd, .had, .ept, .hif, .can, .lin, .cfl, .vlt, .auth, .twn, .tim, .pwr, .mgs, .svc, .inj, .out, .free]
  | .lockstepMismatch | .watchdogExpire | .updTrialExpire =>
    [.regs, .slots, .msix, .vlt, .auth, .mgs, .svc, .out]
  | .mgsRestartDone =>
    [.regs, .slots, .tbl, .msix, .lrn, .bsn, .meters, .egr, .fre, .fgd, .had, .cfl, .vlt, .auth, .twn, .tim, .mgs, .svc, .inj, .out,
      .free]
  | .infoCmd .. | .journalSave .. | .journalSync .. | .unborUnlock .. | .rosterAdd .. | .rosterRemove .. | .rosterReplace ..
  | .logCheckpoint .. | .logFlush .. | .secAck .. | .restart .. | .marginRun .. | .setIds .. | .unborLock .. | .begin .. | .updWrite ..
  | .finish .. | .activate .. | .confirm .. | .abort .. =>
    [.regs, .slots, .fences, .msix, .hif, .vlt, .auth, .mgs, .svc, .out]
  | .journalCompact | .marginPeriod =>
    [.mgs]
  | .marginRunDone .. =>
    [.regs, .slots, .msix, .ept, .mgs, .svc, .out]
  | .avsStep =>
    [.regs, .out]
  | .unlock .. =>
    [.regs, .msix, .vlt, .auth, .mgs, .out, .free]
  | .lock =>
    [.regs, .mgs, .out, .free]
  | .log .. | .sens =>
    [.out, .free]
  | .unborExpire =>
    [.regs, .mgs]
  | .svcWrite .. | .svcLoad .. | .svcStop .. | .svcRestart .. =>
    [.regs, .slots, .fences, .msix, .hif, .mgs, .svc, .out]
  | .svcWdtService .. | .svcClaimRead .. | .svcClaimRelease .. =>
    [.svc]
  | .svcAutostart =>
    [.regs, .msix, .mgs, .svc, .out]
  | .followUpTimeout .. =>
    [.regs, .tim]

end Sys2Proof.Machine
end

