-- ==== Sys2Proof/Certificates/Slice0/Obligations.lean ====
section
/-! DEFINITION. What the model states of the block, for the provers: one definition for each statement. -/

section

open Sys2Proof Sys2Proof.Machine

/-- A step takes the command at the front of the queue and gives it its effect, with the queue's rest. On an empty queue the FRC ticks once if
it runs (R272) and nothing else changes: that step is the model's choice (log entry 12), no rule of the spec. -/
def Obligations.StepTakesTheFrontCommand : Prop :=
  (∀ c q s, s.pending = c :: q → step s = exec c { s with pending := q }) ∧
  (∀ s, s.pending = [] → s.frcRuns = true → s.frc16 + (s.rd Reg.TIM_FRC_INC).toNat < 2 ^ 80 →
    ∃ t, step s = .next t ∧ t.frc16 = s.frc16 + (s.rd Reg.TIM_FRC_INC).toNat ∧ sameBut [.frcNs, .frcFrac] s t) ∧
  (∀ s, s.pending = [] → s.frcRuns = false → step s = .next s)

/-- After reset the queue is empty, the tables and slots are empty, the FRC is 0, registers hold the values their maps give, and the state has
the canonical form. The choices of the model in log entries 2, 19, 20, 63, 82 enter here; for those no rule is cited. -/
def Obligations.ResetHoldsTheTabledValues : Prop :=
  State.reset.Inv ∧ State.reset.pending = [] ∧ State.reset.frc16 = 0 ∧ (∀ t i, State.reset.tent t i = 0) ∧
  (∀ i, (State.reset.slot i).idle = true ∧ (State.reset.slot i).seq = 0 ∧ (State.reset.slot i).owner = 0) ∧
  State.reset.rd Reg.MGN_AVS = 0x2EE ∧ State.reset.rd Reg.MGN_CFG = 0x14180401 ∧ State.reset.rd Reg.EVL_CFG = 0x3E8 ∧
  State.reset.rd Reg.EVL_SEC_WARN = 0x64CD ∧ State.reset.rd Reg.UPD_CFG = 0x1E03 ∧ State.reset.rd Reg.MGS_WDT = 0x64 ∧
  State.reset.rd Reg.GPI_PULL_EN = 0xFFFFFFFF ∧ State.reset.rd Reg.TWN_CFG = 0x32181900 ∧ State.reset.rd Reg.SVC_DDR_CFG = 0 ∧
  (∀ i, i < 64 → State.reset.rd (Reg.PFC_FILT i) = 0x1F07)

/-- Every command completes, whatever the state; it changes no area of the state but those of its footprint, and never the queue; and what has
left the device stays as it left. The choices of the model in log entries 1, 13 enter here; for those no rule is cited. -/
def Obligations.EveryCommandCompletesInItsFootprint : Prop :=
  ∀ c s, Area.pending ∉ footprint c ∧ ∃ t, exec c s = .next t ∧ sameBut (footprint c) s t ∧ s.out <+: t.out

/-- From every state in canonical form a step answers a next state in canonical form: the registers and the tables list rising addresses, and
none that holds what an unlisted one reads as. -/
def Obligations.EveryStepKeepsTheCanonicalForm : Prop := ∀ s : State, s.Inv → ∃ t, step s = .next t ∧ t.Inv

/-- R307, R411, R417-R419, R424. What MRAM keeps never goes back in a step: the rollback floor, JSEQ, the numbers of records written to the
log's rings, the owner EPOCH and every key slot's last GEN. -/
def Obligations.PersistentCountersNeverFall : Prop :=
  ∀ s t, step s = .next t →
    s.mgs.floor ≤ t.mgs.floor ∧ s.mgs.jseq ≤ t.mgs.jseq ∧ s.mgs.countGen ≤ t.mgs.countGen ∧ s.mgs.countSec ≤ t.mgs.countSec ∧
    s.vlt.epoch ≤ t.vlt.epoch ∧ ∀ i, (s.kslot i).lastGen ≤ (t.kslot i).lastGen

/-- R26, R29, R30, R34, R36, R53, R58. The register writes of the page headers and of the write masks, where nothing stops them: the write
mask of the selected page, BLK_LOCK set, the error capture freed, interrupt bits set and cleared, a counter cleared; the compatibility
servo's page has no header. The choices of the model in log entries 7, 8 enter here; for those no rule is cited. Each clause concludes
that exec answers the next state described, for every state and operands that meet its hypotheses. -/
def Obligations.HeaderWritesTakeEffect : Prop :=
  (∀ m v s, s.admits m Reg.GLB_PERM_DATA = true →
    Completes (.writeMaskWrite m v) s fun t =>
      t.writeMask (s.rf Reg.GLB_PERM_SEL 0 14) = v &&& 0x1F ∧ regsBut [itemKey (s.rf Reg.GLB_PERM_SEL 0 14) Reg.GLB_PERM_DATA] s t) ∧
  (∀ m pg s, pg ≠ 0xC8 → s.admits m (Reg.BLK_LOCK (pg * 0x1000)) = true →
    Completes (.blkLock m pg) s fun t =>
      t.rb (Reg.BLK_LOCK (pg * 0x1000)) 0 = true ∧ regsBut [Reg.BLK_LOCK (pg * 0x1000)] s t) ∧
  (∀ m pg s, pg ≠ 0xC8 → s.admits m (Reg.ERR_CAP0 (pg * 0x1000)) = true →
    Completes (.errCapRearm m pg) s fun t =>
      (∀ k, k < 4 → t.rd (Reg.ERR_CAP0 (pg * 0x1000) + 4 * k) = 0) ∧
      regsBut [Reg.ERR_CAP0 (pg * 0x1000), Reg.ERR_CAP0 (pg * 0x1000) + 4, Reg.ERR_CAP0 (pg * 0x1000) + 8,
        Reg.ERR_CAP0 (pg * 0x1000) + 12] s t) ∧
  (∀ m pg v s b i, pg ≠ 4 → pg ≠ 0xC8 → pageOf pg = some (b, i) → s.admits m (Reg.INT_FORCE (pg * 0x1000)) = true →
    Completes (.intForce m pg v) s fun t =>
      t.rd (Reg.INT_RAW (pg * 0x1000)) = s.rd (Reg.INT_RAW (pg * 0x1000)) ||| (v &&& wd (intMask b)) ∧
      regsBut [Reg.INT_RAW (pg * 0x1000)] s t) ∧
  (∀ m pg v s b i, pg ≠ 4 → pg ≠ 0xC8 → pageOf pg = some (b, i) → s.admits m (Reg.INT_RAW (pg * 0x1000)) = true →
    Completes (.intRawClear m pg v) s fun t =>
      (b ≠ .can → b ≠ .tim → t.rd (Reg.INT_RAW (pg * 0x1000)) = s.rd (Reg.INT_RAW (pg * 0x1000)) &&& ~~~v) ∧
      (b = .can → t.rd (Reg.INT_RAW (pg * 0x1000)) =
        (s.rd (Reg.INT_RAW (pg * 0x1000)) &&& ~~~v) ||| (if (s.cch i).rxq.isEmpty then 0 else wd (2 ^ Irq.CAN_RXQ))) ∧
      (b = .tim → ∀ j, j < 32 → j ≠ Irq.TIM_SRV_INT →
        t.rb (Reg.INT_RAW (pg * 0x1000)) j = (s.rb (Reg.INT_RAW (pg * 0x1000)) j && !bit v j)) ∧
      regsBut [Reg.INT_RAW (pg * 0x1000)] s t) ∧
  (∀ m v s,
    (Completes (.blkLock m 0xC8) s fun t => t = s) ∧ (Completes (.errCapRearm m 0xC8) s fun t => t = s) ∧
    (Completes (.intForce m 0xC8 v) s fun t => t = s) ∧ (Completes (.intRawClear m 0xC8 v) s fun t => t = s)) ∧
  (∀ m a s b i d k, pageOf (a / 0x1000) = some (b, i) → findReg b (a % 0x1000) = some (d, k) → d.acc = .evt → b ≠ .pfc →
    s.admits m a = true →
    Completes (.counterClr m a) s fun t => t.rd (s.regKey m a d) = 0 ∧ regsBut [s.regKey m a d] s t)

/-- R40. A write to GLB_FENCE_REQ that nothing stops issues the writing master's next ticket and makes it readable in the master's
GLB_FENCE_TICKET. Each clause concludes that exec answers the next state described, for every state and operands that meet its hypotheses. -/
def Obligations.FenceRequestIssuesNextTicket : Prop :=
  (∀ m s, s.admits m Reg.GLB_FENCE_REQ = true →
    Completes (.fenceReq m) s fun t =>
      t.rd (bankKey m Reg.GLB_FENCE_TICKET) = wd (nextTicket (s.rf (bankKey m Reg.GLB_FENCE_TICKET) 0 29)) ∧
      t.wordAt m Reg.GLB_FENCE_TICKET = t.rd (bankKey m Reg.GLB_FENCE_TICKET) ∧
      (t.fence m).waiting = (s.fence m).waiting ++
        [⟨nextTicket (s.rf (bankKey m Reg.GLB_FENCE_TICKET) 0 29), ((s.noted m Reg.GLB_FENCE_REQ).fence m).touched, s.commitQ.contains m⟩] ∧
      regsBut [bankKey m Reg.GLB_FENCE_TICKET] s t) ∧
  (∀ n, n < 0x1FFFFFFF → nextTicket n = n + 1) ∧ nextTicket 0x1FFFFFFF = 1 ∧
  (∀ m, m < 5 → State.reset.rf (bankKey m Reg.GLB_FENCE_TICKET) 0 29 = 0)

/-- R41. The oldest ticket of a master retires once no COMMIT written before it is outstanding: it is written to the master's GLB_FENCE_DONE
and to FENCE_SEEN of every page it covers, and the tickets behind it keep their order. The choices of the model in log entry 14 enter
here; for that no rule is cited. Each clause concludes that exec answers the next state described, for every state and operands that meet
its hypotheses. -/
def Obligations.FenceTicketRetires : Prop :=
  ∀ m s k q, (s.fence m).waiting = k :: q → k.commit = false → s.inj = [] → s.hif.ibmWait = [] → s.mgs.unborTicket = 0 → m < 5 →
    (∀ pg, pg ∈ k.pages → pg < 0x101) →
    Completes (.fenceRetired m) s fun t =>
      t.rd (bankKey m Reg.GLB_FENCE_DONE) = wd k.num ∧
      (∀ pg, pg ∈ k.pages → t.rd (Reg.FENCE_SEEN (pg * 0x1000)) = wd (m * 2 ^ 29 + k.num)) ∧
      (t.fence m).waiting = q ∧
      (s.rf (bankKey m Reg.GLB_FENCE_WAIT) 0 29 = k.num → t.rb (Reg.INT_RAW 0) m = true) ∧
      regsBut ([bankKey m Reg.GLB_FENCE_DONE, Reg.INT_RAW 0] ++ k.pages.map (fun pg => Reg.FENCE_SEEN (pg * 0x1000))) s t

/-- R31, R385. A block reset returns a page's registers to their reset values, but those R31, R284 and the log keep, and reads 1 in SOFT_RST
until SOFT_RST_DONE; the QUIESCE_REQ and QUIESCED bits; the blocks listed have nothing in flight that a reset would count or send. The
choices of the model in log entries 16, 17 enter here; for those no rule is cited. Each clause concludes that exec answers the next state
described, for every state and operands that meet its hypotheses. -/
def Obligations.BlockResetAndQuiesceBits : Prop :=
  (∀ m pg s b i, pageOf pg = some (b, i) → pg ≠ 0xC8 → s.inj = [] →
    b ∈ [Blk.gpi, .icl, .ict, .srt, .adt, .edy, .wei, .fre, .tim, .cau, .upd, .mgn, .pfc] →
    s.admits m (Reg.BLK_CTRL (pg * 0x1000)) = true →
    Completes (.softRst m pg) s fun t =>
      (∀ k, resetKey pg k = true → k ≠ Reg.BLK_CTRL (pg * 0x1000) → t.rd k = regReset k) ∧
      (∀ k, resetKey pg k = false → (k < 0x4000 ∨ 0x5000 ≤ k) → t.rd k = s.rd k) ∧
      t.rb (Reg.BLK_CTRL (pg * 0x1000)) 2 = true ∧ pg ∈ t.resets ∧
      (b = .wei → t.meters = Tab.keep (fun k => decide (3072 ≤ k)) s.meters) ∧ (b = .fre → t.fre = []) ∧ t.tbl = s.tbl) ∧
  (∀ pg s, pg ∈ s.resets → pg ≠ 0x20 →
    Completes (.softRstDone pg) s fun t =>
      t.rb (Reg.BLK_CTRL (pg * 0x1000)) 2 = false ∧ pg ∉ t.resets ∧ regsBut [Reg.BLK_CTRL (pg * 0x1000)] s t) ∧
  (∀ m pg v s b i, pageOf pg = some (b, i) → s.inj = [] → bit v 2 = false → pg ≠ 4 →
    b ∈ [Blk.gpi, .icl, .ict, .srt, .adt, .edy, .wei, .fre, .tim, .dom, .cau, .lce, .upd, .mgn, .bud, .fgd, .twn, .had, .lrn, .bsn, .rak,
      .egs, .slu, .tap, .hif, .svc, .vlt] →
    s.admits m (Reg.BLK_CTRL (pg * 0x1000)) = true →
    Completes (.quiesceReq m pg v) s fun t =>
      t.rb (Reg.BLK_CTRL (pg * 0x1000)) 0 = bit v 0 ∧ t.rb (Reg.BLK_CTRL (pg * 0x1000)) 1 = bit v 1 ∧
      (bit v 1 = false → s.rb (Reg.BLK_CTRL (pg * 0x1000)) 1 = true → t.rb (Reg.BLK_STAT (pg * 0x1000)) 1 = false) ∧
      regsBut [Reg.BLK_CTRL (pg * 0x1000), Reg.BLK_STAT (pg * 0x1000)] s t) ∧
  (∀ pg s, s.rb (Reg.BLK_CTRL (pg * 0x1000)) 1 = true →
    Completes (.quiesced pg) s fun t =>
      t.rb (Reg.BLK_STAT (pg * 0x1000)) 1 = true ∧ pg ∉ t.pwr.waiting ∧ regsBut [Reg.BLK_STAT (pg * 0x1000)] s t)

/-- R55, R56. Counter snapshots: TAKE captures the page's counters and the FRC and leaves the registers as they are; SNAP_DONE makes the
snapshot readable; CNT_SNAP_ACK by the owner with its SEQ releases it; TAKE with ALL does the same on every page that has counters. The
choices of the model in log entry 15 enter here; for that no rule is cited. Each clause concludes that exec answers the next state
described, for every state and operands that meet its hypotheses. -/
def Obligations.SnapshotsCaptureAndRelease : Prop :=
  (∀ m pg s, pg ≠ 0xC8 → pg < 0x101 → s.admits m (Reg.CNT_SNAP (pg * 0x1000)) = true → (s.slot (snapSlot pg)).idle = true →
    Completes (.cntSnap m pg) s fun t =>
      t.snap pg = ⟨true, false, (s.noted m (Reg.CNT_SNAP (pg * 0x1000))).capture pg, s.now⟩ ∧
      t.slot (snapSlot pg) = ((s.slot (snapSlot pg)).accept m).hold (codeRes Code.ok) ∧ regsBut [] s t) ∧
  (∀ m s, s.admits m (Reg.CNT_SNAP 0) = true → (∀ pg, pg ∈ snapPages → (s.slot (snapSlot pg)).idle = true) →
    Completes (.cntSnapAll m) s fun t =>
      (∀ pg, pg ∈ snapPages → t.snap pg = ⟨true, true, (s.noted m (Reg.CNT_SNAP 0)).capture pg, s.now⟩ ∧ (t.slot (snapSlot pg)).busy = true) ∧
      regsBut [] s t) ∧
  (∀ pg s, (s.slot (snapSlot pg)).busy = true → (s.slot (snapSlot pg)).held = some (codeRes Code.ok) → (s.snap pg).all = false →
    s.svc.release = [] →
    Completes (.snapDone pg) s fun t =>
      t.slot (snapSlot pg) = (s.slot (snapSlot pg)).complete (codeRes Code.ok) ∧ t.snap pg = s.snap pg ∧
      t.rb (Reg.INT_RAW (pg * 0x1000)) Irq.SNAP_DONE = true ∧ regsBut [Reg.INT_RAW (pg * 0x1000)] s t) ∧
  (∀ m pg s, pg ≠ 0xC8 → pg < 0x101 → s.admits m (Reg.CNT_SNAP_ACK (pg * 0x1000)) = true → (s.slot (snapSlot pg)).valid = true →
    (s.slot (snapSlot pg)).owner = m → (s.slot (snapSlot pg)).seq < 0x10000 → (s.slot (snapSlot pg)).idle = false → (s.snap pg).all = false →
    Completes (.cntSnapAck m pg (s.slot (snapSlot pg)).seq) s fun t =>
      t.snap pg = Snap.reset ∧ t.slot (snapSlot pg) = (s.slot (snapSlot pg)).release ∧ regsBut [] s t) ∧
  (∀ p s, (s.slot (snapSlot p)).busy = true → (s.snap p).all = true → s.svc.release = [] →
    (∀ pg ∈ snapPages, (s.slot (snapSlot pg)).busy = true ∧ (s.slot (snapSlot pg)).held = some (codeRes Code.ok)) →
    Completes (.snapDone p) s fun t =>
      ∀ pg ∈ snapPages, (t.slot (snapSlot pg)).valid = true ∧ t.rb (Reg.INT_RAW (pg * 0x1000)) Irq.SNAP_DONE = true) ∧
  (∀ m s, s.admits m (Reg.CNT_SNAP_ACK 0) = true → (s.slot (snapSlot 0)).valid = true → (s.slot (snapSlot 0)).owner = m →
    (s.slot (snapSlot 0)).seq < 0x10000 → (s.snap 0).all = true →
    Completes (.cntSnapAck m 0 (s.slot (snapSlot 0)).seq) s fun t =>
      ∀ pg ∈ snapPages, t.snap pg = Snap.reset ∧ (t.slot (snapSlot pg)).idle = true) ∧
  (∀ m pg seq s, pg ≠ 0xC8 → pg ≠ 0 → s.admits m (Reg.CNT_SNAP_ACK (pg * 0x1000)) = true → (s.snap pg).all = true →
    Completes (.cntSnapAck m pg seq) s fun t => t.snaps = s.snaps ∧ t.slots = s.slots ∧
      ((s.slot (snapSlot pg)).owner = m → regsBut [] s t) ∧
      ((s.slot (snapSlot pg)).owner ≠ m → (s.slot (snapSlot pg)).idle = false →
        t.rd Reg.GLB_ACC_VIOL_CNT = evtNext (s.rd Reg.GLB_ACC_VIOL_CNT) ∧
        t.rd Reg.GLB_ACC_CAP0 = wd (m * 2 ^ 29 + pg % 0x4000 * 4)))

/-- R51. RES_ACK by the owner with the SEQ of a VALID slot releases it: it reads VALID = 0, CODE = IDLE, the same SEQ and data 0. Any other
write is ignored; one by a master other than the OWNER while the slot holds a command is recorded as DENIED, one to an idle slot never.
Each clause concludes that exec answers the next state described, for every state and operands that meet its hypotheses. -/
def Obligations.ResultAcknowledged : Prop :=
  (∀ i, (State.reset.slot i).idle = true ∧ (State.reset.slot i).owner = 0 ∧ (State.reset.slot i).seq = 0) ∧
  (∀ m a seq i s, ackSlot m a = some i → s.admits m a = true →
    Completes (.resAck m a seq) s fun t =>
      ((s.slot i).owner = m → (s.slot i).valid = true → seq % 0x10000 = (s.slot i).seq →
        t.slot i = ⟨false, false, m, (s.slot i).seq, ⟨Code.idle, 0, 0, [], []⟩, none⟩ ∧ (∀ j, j ≠ i → t.slot j = s.slot j) ∧ regsBut [] s t) ∧
      ((s.slot i).owner = m → ((s.slot i).valid = false ∨ seq % 0x10000 ≠ (s.slot i).seq) → t.slots = s.slots ∧ regsBut [] s t) ∧
      ((s.slot i).owner ≠ m → (s.slot i).idle = false → t.slots = s.slots ∧
        t.rd Reg.GLB_ACC_VIOL_CNT = evtNext (s.rd Reg.GLB_ACC_VIOL_CNT) ∧
        t.rd Reg.GLB_ACC_CAP0 = wd (m * 2 ^ 29 + a / 0x1000 % 0x4000 * 4) ∧
        t.rd Reg.GLB_ACC_CAP1 = wd (a % 0x1000 / 4 * 4 + 0x1000 + 0x10000)) ∧
      ((s.slot i).idle = true → t.slots = s.slots ∧ regsBut [] s t))

/-- R52. A command to a slot that is BUSY, or VALID and not released, is refused: the held result is unchanged, CMD_REJ_CNT counts, and
INT_RAW[31] CMD_REJECT sets on the slot's page. Each clause concludes that exec answers the next state described, for every state and
operands that meet its hypotheses. -/
def Obligations.CommandToSlotInUseRefused : Prop :=
  (∀ c s i m base a, slotCommand c = some (i, m, base, a) → envelopeFits c s = true → s.admits m a = true → s.inj = [] →
    (s.slot i).idle = false →
    Completes c s fun t =>
      t.slots = s.slots ∧ t.rd (Reg.CMD_REJ_CNT base) = evtNext (s.rd (Reg.CMD_REJ_CNT base)) ∧
      t.rb (Reg.INT_RAW base) Irq.CMD_REJECT = true ∧ regsBut [Reg.CMD_REJ_CNT base, Reg.INT_RAW base] s t) ∧
  (∀ m pg s, pg ≠ 0xC8 → s.admits m (Reg.CNT_SNAP (pg * 0x1000)) = true → (s.slot (snapSlot pg)).idle = false →
    Completes (.cntSnap m pg) s fun t =>
      t.slots = s.slots ∧ t.rd (Reg.CMD_REJ_CNT (pg * 0x1000)) =
        evtNext ((s.noted m (Reg.CNT_SNAP (pg * 0x1000))).rd (Reg.CMD_REJ_CNT (pg * 0x1000))) ∧
      t.rb (Reg.INT_RAW (pg * 0x1000)) Irq.CMD_REJECT = true ∧ regsBut [Reg.CMD_REJ_CNT (pg * 0x1000), Reg.INT_RAW (pg * 0x1000)] s t)

/-- R49. A slot that is idle accepts a command: it assigns the next SEQ and reads VALID = 0, CODE = BUSY and data 0 until the command
completes. The mailbox and the update page complete a command at once while firmware serves, the HAD and the SVC page always; there the
slot is read here while firmware does not serve. The choices of the model in log entry 71 enter here; for that no rule is cited. Each
clause concludes that exec answers the next state described, for every state and operands that meet its hypotheses. -/
def Obligations.CommandToIdleSlotAccepted : Prop :=
  (∀ c s i m base a, slotCommand c = some (i, m, base, a) → envelopeFits c s = true → s.admits m a = true → s.inj = [] →
    (s.slot i).idle = true → m < 8 →
    (i < 16 ∨ (24 ≤ i ∧ i < 32) ∨ (32 ≤ i ∧ i < 48 ∧ s.mgsUp = false)) →
    Completes c s fun t =>
      (t.slot i).valid = false ∧ (t.slot i).busy = true ∧ (t.slot i).owner = m ∧ (t.slot i).seq = seqNext (s.slot i).seq ∧
      (t.slot i).res = ⟨Code.busy, 0, 0, [], []⟩) ∧
  (∀ n, n < 0xFFFF → seqNext n = n + 1) ∧ seqNext 0xFFFF = 1

/-- R47, R475. A TAP command of an idle slot holds the result it will publish: READ and LOOKUP the committed entry, a WRITE, INSERT or DELETE
in range the new count of staged entries, which grows by that one entry, DISCARD none staged; nothing staged shows in a table. R45, R48. A
COMMIT waits its turn; when it completes, either every staged entry takes effect, in staging order, and TAP_COMMIT is one greater, or none
does and the failing entry's position and code are reported; nothing stays staged. The choices of the model in log entry 11 enter here;
for that no rule is cited. Each clause concludes that exec answers the next state described, for every state and operands that meet its
hypotheses. -/
def Obligations.TapStagesAndCommits : Prop :=
  ((∀ m t s, s.admits m Reg.TAP_CMD = true → (s.slot (tapSlot m)).idle = true → t < 6 →
    s.rf (bankKey m Reg.TAP_INDEX) 0 16 < tableSize t →
    Completes (.tapRead m t) s fun u =>
      u.slot (tapSlot m) = ((s.slot (tapSlot m)).accept m).hold ⟨Code.ok, s.rf (bankKey m Reg.TAP_INDEX) 0 16, 0,
        entryWords (s.tent t (s.rf (bankKey m Reg.TAP_INDEX) 0 16)), []⟩ ∧ u.tbl = s.tbl ∧ u.stage = s.stage ∧ regsBut [] s u) ∧
  (∀ m t s, s.admits m Reg.TAP_CMD = true → (s.slot (tapSlot m)).idle = true → t < 6 → keyed t = false →
    s.rf (bankKey m Reg.TAP_INDEX) 0 16 < tableSize t → writeOk t (s.tapData m) = true → (s.staging m).length < 64 →
    Completes (.tapWrite m t) s fun u =>
      u.staging m = s.staging m ++ [.write t (s.rf (bankKey m Reg.TAP_INDEX) 0 16) (s.tapData m)] ∧
      u.slot (tapSlot m) = ((s.slot (tapSlot m)).accept m).hold (dataRes Code.ok [wd ((s.staging m).length + 1)]) ∧ u.tbl = s.tbl ∧
      regsBut [] s u) ∧
  (∀ m t s j, s.admits m Reg.TAP_CMD = true → (s.slot (tapSlot m)).idle = true → keyed t = true →
    (if t = 1 then s.ictFind (s.tapKey m) else s.adtFind (s.tapKey m)) = some j →
    Completes (.tapLookup m t) s fun u =>
      u.slot (tapSlot m) = ((s.slot (tapSlot m)).accept m).hold ⟨Code.ok, j, 0, entryWords (s.tent t j), []⟩ ∧ u.tbl = s.tbl ∧
      u.stage = s.stage ∧ regsBut [] s u) ∧
  (∀ m t s, s.admits m Reg.TAP_CMD = true → (s.slot (tapSlot m)).idle = true → keyed t = true →
    insertOk t (s.tapKey m) (s.tapData m) = true → (s.staging m).length < 64 →
    Completes (.tapInsert m t) s fun u =>
      u.staging m = s.staging m ++ [.insert t (BitVec.ofNat 128 (s.tapKey m)) (s.tapData m)] ∧
      u.slot (tapSlot m) = ((s.slot (tapSlot m)).accept m).hold (dataRes Code.ok [wd ((s.staging m).length + 1)]) ∧ u.tbl = s.tbl ∧
      regsBut [] s u) ∧
  (∀ m t s, s.admits m Reg.TAP_CMD = true → (s.slot (tapSlot m)).idle = true → t < 6 →
    (keyed t = false → s.rf (bankKey m Reg.TAP_INDEX) 0 16 < tableSize t) → (s.staging m).length < 64 →
    Completes (.tapDelete m t) s fun u =>
      u.staging m = s.staging m ++
        [if keyed t then .delKey t (BitVec.ofNat 128 (s.tapKey m)) else .delIndex t (s.rf (bankKey m Reg.TAP_INDEX) 0 16)] ∧
      u.slot (tapSlot m) = ((s.slot (tapSlot m)).accept m).hold (dataRes Code.ok [wd ((s.staging m).length + 1)]) ∧ u.tbl = s.tbl ∧
      regsBut [] s u) ∧
  (∀ m s, s.admits m Reg.TAP_CMD = true → (s.slot (tapSlot m)).idle = true →
    Completes (.tapDiscard m) s fun u =>
      u.staging m = [] ∧ u.slot (tapSlot m) = ((s.slot (tapSlot m)).accept m).hold (dataRes Code.ok [0]) ∧ u.tbl = s.tbl ∧ regsBut [] s u) ∧
  (∀ m s r, (s.slot (tapSlot m)).busy = true → (s.slot (tapSlot m)).held = some r → s.svc.release = [] →
    Completes (.tapOpDone m) s fun u => u.slot (tapSlot m) = (s.slot (tapSlot m)).complete r ∧ u.tbl = s.tbl ∧ regsBut [] s u)) ∧
  ((∀ m s, s.admits m Reg.TAP_CMD = true → (s.slot (tapSlot m)).idle = true →
    Completes (.tapCommit m) s fun u =>
      u.commitQ = s.commitQ ++ [m] ∧ u.slot (tapSlot m) = (s.slot (tapSlot m)).accept m ∧ u.tbl = s.tbl ∧ u.stage = s.stage ∧ regsBut [] s u) ∧
  (∀ m q s, s.commitQ = m :: q → s.lrn.moves = [] → (s.slot (tapSlot m)).busy = true → s.svc.release = [] →
    Completes .tapCommitDone s fun u =>
      u.commitQ = q ∧ u.staging m = [] ∧
      (∀ r ∈ (State.applyAll { s with commitQ := q } 0 (s.staging m)).toOption,
        u.tbl = r.tbl ∧ u.commits = s.commits + 1 ∧ (u.slot (tapSlot m)).res.code = Code.ok) ∧
      (∀ k c, State.applyAll { s with commitQ := q } 0 (s.staging m) = .error (k, c) →
        u.tbl = s.tbl ∧ u.regs = s.regs ∧ u.commits = s.commits ∧ (u.slot (tapSlot m)).res.code = c ∧ (u.slot (tapSlot m)).res.index = k)))

/-- R12, R54. A write of an ordinary register stores its writable bits, a limited field at the nearer limit; a read of the low word of a
multi-word value answers it and holds the high words as they are for that master. R69. A write of a hash seed is taken while its table is
empty; else it is counted and changes nothing. The choices of the model in log entries 6, 9 enter here; for those no rule is cited. Each
clause concludes that exec answers the next state described, for every state and operands that meet its hypotheses. -/
def Obligations.RegistersAndSeedsAreWritten : Prop :=
  ((∀ m a v core s b i d k, pageOf (a / 0x1000) = some (b, i) → b ∈ [Blk.icl, .srt, .rak, .vlt, .cau, .upd, .evl] → 0x80 ≤ a % 0x1000 →
    findReg b (a % 0x1000) = some (d, k) → (d.acc = .rw ∨ d.acc = .rwl) → s.inj = [] → (s.asCore m core).admits m a = true →
    Completes (.regWrite m a v true core) s fun t =>
      t.rd (d.key m a) = d.store (s.rd (d.key m a)) v ∧ regsBut [d.key m a] s t) ∧
  (∀ m a core user s b i, s.readViol a true = none → inWindow a = false → pageOf (a / 0x1000) = some (b, i) →
    heldWords b (a % 0x1000) ≠ [] → (s.hold m a).highs = [] → s.perfList = [] →
    Completes (.multiwordLowRead m a true core user) s fun t =>
      t.out = s.out ++ [.busRead m a (s.wordAt m a)] ∧
      (t.hold m a).highs = (heldWords b (a % 0x1000)).map (fun o => (a / 0x1000 * 0x1000 + o, s.wordAt m (a / 0x1000 * 0x1000 + o))) ∧
      t.regs = s.regs)) ∧
  (∀ m a v s, ((Reg.ICT_SEED0 ≤ a ∧ a ≤ Reg.ICT_SEED3) ∨ (Reg.ADT_SEED0 ≤ a ∧ a ≤ Reg.ADT_SEED3)) → s.admits m a = true →
    Completes (.seedWrite m a v) s fun t =>
      if (s.tentries (if a < pageBase .srt 0 then 1 else 2)).isEmpty then t.rd a = v ∧ regsBut [a] s t
      else t.rd a = s.rd a ∧
        (a < pageBase .srt 0 → t.rd Reg.ICT_SEED_REJ = evtNext (s.rd Reg.ICT_SEED_REJ) ∧
          regsBut [Reg.ICT_SEED_REJ, Reg.INT_RAW (pageBase .ict 0)] s t) ∧
        (pageBase .srt 0 ≤ a → t.rd Reg.ADT_SEED_REJ = evtNext (s.rd Reg.ADT_SEED_REJ) ∧
          regsBut [Reg.ADT_SEED_REJ, Reg.INT_RAW (pageBase .adt 0)] s t))

/-- What stops a write is recorded (R37), and the write has no other effect: R32 for a narrow or unaligned one, R25 and R27 for an address
outside the pages or in a table window, R35 for a page without power, R33 for a master without permission. The choices of the model in log
entry 10 enter here; for that no rule is cited. Each clause concludes that exec answers the next state described, for every state and
operands that meet its hypotheses. -/
def Obligations.StoppedWriteIsOnlyRecorded : Prop :=
  ∀ m a v full core s k, (m = 2 → a < 0x4000000) → (s.asCore m core).svcBar m a = 0 → (s.asCore m core).writeViol m a full = some k → s.inj = [] →
    Completes (.regWrite m a v full core) s fun t =>
      t.rd Reg.GLB_ACC_VIOL_CNT = evtNext (s.rd Reg.GLB_ACC_VIOL_CNT) ∧
      t.rd Reg.GLB_ACC_CAP0 = wd (m * 2 ^ 29 + a / 0x1000 % 0x4000 * 4) ∧
      t.rd Reg.GLB_ACC_CAP1 = wd (a % 0x1000 / 4 * 4 + k.kind * 0x1000 + 0x10000) ∧
      t.rb (Reg.INT_RAW 0) Irq.GLB_ACC_VIOL = true ∧
      regsBut [Reg.GLB_ACC_VIOL_CNT, Reg.GLB_ACC_CAP0, Reg.GLB_ACC_CAP1, Reg.INT_RAW 0] s t ∧
      sameBut [.regs, .msix, .hif, .mgs, .svc, .out] s t

/-- R34 and R36. A write to an RWL register of a locked page is ignored and recorded as LOCKED; GLB_PERM_SEL and GLB_PERM_DATA are written by
master 3, whatever the masks say, and by no other master. Each clause concludes that exec answers the next state described, for every
state and operands that meet its hypotheses. -/
def Obligations.LockedPagesAndWriteMasksKept : Prop :=
  (∀ m a v core s b i d k, (s.asCore m core).svcBar m a = 0 → s.inj = [] → a % 4 = 0 → inWindow a = false → pageOf (a / 0x1000) = some (b, i) → s.blkOn b = true →
    a ≠ Reg.GLB_PERM_SEL → a ≠ Reg.GLB_PERM_DATA → bit (s.writeMask (a / 0x1000)) m = true → findReg b (a % 0x1000) = some (d, k) →
    d.acc = .rwl → s.rb (Reg.BLK_LOCK (a / 0x1000 * 0x1000)) 0 = true →
    Completes (.regWrite m a v true core) s fun t =>
      t.rd (d.key m a) = s.rd (d.key m a) ∧ t.rd Reg.GLB_ACC_CAP0 = wd (m * 2 ^ 29 + a / 0x1000 % 0x4000 * 4) ∧
      t.rd Reg.GLB_ACC_CAP1 = wd (a % 0x1000 / 4 * 4 + 0x2000 + 0x10000)) ∧
  (∀ m v core s, m ≠ 3 → m ≠ 2 → s.inj = [] → s.pwr.mgsOn = true →
    (Completes (.regWrite m Reg.GLB_PERM_SEL v true core) s fun t =>
      t.rd Reg.GLB_PERM_SEL = s.rd Reg.GLB_PERM_SEL ∧ t.rd Reg.GLB_ACC_CAP1 = wd (Reg.GLB_PERM_SEL + 0x1000 + 0x10000)) ∧
    (Completes (.writeMaskWrite m v) s fun t =>
      (∀ pg, t.writeMask pg = s.writeMask pg) ∧ t.rd Reg.GLB_ACC_CAP1 = wd (Reg.GLB_PERM_DATA + 0x1000 + 0x10000))) ∧
  (∀ v core s, s.inj = [] →
    (Completes (.regWrite 2 Reg.GLB_PERM_SEL v true core) s fun t => t.rd Reg.GLB_PERM_SEL = s.rd Reg.GLB_PERM_SEL) ∧
    (Completes (.writeMaskWrite 2 v) s fun t => ∀ pg, t.writeMask pg = s.writeMask pg)) ∧
  (∀ v core s, s.inj = [] → s.pwr.mgsOn = true →
    (Completes (.regWrite 3 Reg.GLB_PERM_SEL v true core) s fun t => t.rf Reg.GLB_PERM_SEL 0 14 = fld v 0 14) ∧
    (Completes (.writeMaskWrite 3 v) s fun t => t.writeMask (s.rf Reg.GLB_PERM_SEL 0 14) = v &&& 0x1F))

/-- R78-R81, R83-R85, R90. LEARN_COMMIT takes the oldest request off the queue, once no relocation is under way. An entry that stands on the
request's port has its AGE refreshed, in both copies while it is being moved (RELOC); one elsewhere moves, unless it is static (counted),
frozen (counted) or the move is a flap (it freezes on PREV_PORT); an address not yet in the table is entered at once in a free way of its
own, or after the moves that free one, which an idle tick makes one write at a time. R86, R87. FREEZE_TICK counts a frozen entry's
FREEZE_LEFT down by one and frees the entry at 0; AGE_TICK, while TICK is not 0, advances LRN_TICK and deletes every valid dynamic entry
whose age has reached LIMIT, and no other; a write of LRN_AGE stores its value and, from TICK = 0 on, starts the period anew. The choices
of the model in log entries 13, 28 enter here; for those no rule is cited. Each clause concludes that exec answers the next state
described, for every state and operands that meet its hypotheses. -/
def Obligations.AddressesAreLearnedAndAge : Prop :=
  ((∀ s r q i, s.lrn.queue = r :: q → s.lrn.moves = [] → r.withdraw = false → r.origin = none → r.port < 32 →
    s.adtFind (adtKey r.mac r.vid) = some i →
    (adtPort (s.tent 2 i) = r.port → adtReloc (s.tent 2 i) = false →
      Completes .learnCommit s fun t =>
        t.lrn.queue = q ∧ t.tent 2 i = setFld (s.tent 2 i) 80 12 s.tick ∧ (∀ j, j ≠ i → t.tent 2 j = s.tent 2 j) ∧ t.regs = s.regs) ∧
    (adtPort (s.tent 2 i) ≠ r.port → adtStatic (s.tent 2 i) = true →
      Completes .learnCommit s fun t =>
        t.lrn.queue = q ∧ t.tbl = s.tbl ∧ t.rd Reg.LRN_STATIC_MOVE = evtNext (s.rd Reg.LRN_STATIC_MOVE) ∧ regsBut [Reg.LRN_STATIC_MOVE] s t) ∧
    (adtPort (s.tent 2 i) ≠ r.port → adtStatic (s.tent 2 i) = false → adtFrozen (s.tent 2 i) = true →
      Completes .learnCommit s fun t =>
        t.lrn.queue = q ∧ t.tbl = s.tbl ∧ t.rd Reg.LRN_FROZEN_DROP = evtNext (s.rd Reg.LRN_FROZEN_DROP) ∧ regsBut [Reg.LRN_FROZEN_DROP] s t) ∧
    (adtPort (s.tent 2 i) ≠ r.port → adtStatic (s.tent 2 i) = false → adtFrozen (s.tent 2 i) = false →
      (s.isFlap (s.tent 2 i) = true → Completes .learnCommit s fun t =>
        t.lrn.queue = q ∧ adtPort (t.tent 2 i) = adtPrevPort (s.tent 2 i) ∧ adtFrozen (t.tent 2 i) = true ∧
        adtFreezeLeft (t.tent 2 i) = s.rf Reg.LRN_FLAP 8 16 ∧ adtLmValid (t.tent 2 i) = false ∧ (∀ j, j ≠ i → t.tent 2 j = s.tent 2 j) ∧
        t.rd Reg.LRN_FLAP_CNT = evtNext (s.rd Reg.LRN_FLAP_CNT) ∧ t.rb (Reg.INT_RAW (pageBase .lrn 0)) Irq.LRN_FLAP = true) ∧
      (s.isFlap (s.tent 2 i) = false → Completes .learnCommit s fun t =>
        t.lrn.queue = q ∧ adtPort (t.tent 2 i) = r.port ∧ adtPrevPort (t.tent 2 i) = adtPort (s.tent 2 i) ∧ adtAge (t.tent 2 i) = s.tick ∧
        adtLastMove (t.tent 2 i) = s.now32 ∧ adtLmValid (t.tent 2 i) = true ∧ adtRemote (t.tent 2 i) = false ∧
        (∀ j, j ≠ i → t.tent 2 j = s.tent 2 j) ∧
        t.rd64 Reg.LRN_MOVED = (s.stat Reg.LRN_MOVED 1).rd64 Reg.LRN_MOVED ∧ regsBut [Reg.LRN_MOVED, Reg.LRN_MOVED + 4] s t))) ∧
  (∀ s r q i j, s.lrn.queue = r :: q → s.lrn.moves = [] → r.withdraw = false → r.origin = none → r.port < 32 →
    s.adtFind (adtKey r.mac r.vid) = some i → adtPort (s.tent 2 i) = r.port → adtReloc (s.tent 2 i) = true →
    j ∈ (List.range 4).map (s.adtIndex (adtKey r.mac r.vid)) → adtValid (s.tent 2 j) = true → adtKeyOf (s.tent 2 j) = adtKey r.mac r.vid →
    Completes .learnCommit s fun t => t.lrn.queue = q ∧ t.tent 2 j = setFld (s.tent 2 j) 80 12 s.tick ∧ t.regs = s.regs) ∧
  (∀ s r q p e, s.lrn.queue = r :: q → s.lrn.moves = [] → r.withdraw = false → r.origin = none → r.port < 32 → r.mac < 2 ^ 48 → r.vid < 4096 →
    s.adtFind (adtKey r.mac r.vid) = none → s.adtPath (adtKey r.mac r.vid) = some p →
    e = BitVec.ofNat 512 (1 + r.mac * 2 ^ 8 + r.vid * 2 ^ 56 +
      r.port * 2 ^ 72 + s.tick * 2 ^ 80 + s.now32 * 2 ^ 176 + r.port * 2 ^ 208) →
    Completes .learnCommit s fun t =>
      t.lrn.queue = q ∧ t.rd64 Reg.LRN_LEARNED = (s.stat Reg.LRN_LEARNED 1).rd64 Reg.LRN_LEARNED ∧
      (p.length = 1 → t.tent 2 (p.headD 0) = e ∧ (∀ j, j ≠ p.headD 0 → t.tent 2 j = s.tent 2 j) ∧ t.lrn.moves = []) ∧
      (2 ≤ p.length → t.tbl = s.tbl ∧ t.lrn.moves = placeWrites e p)) ∧
  (∀ s w l, s.pending = [] → s.inj = [] → s.lrn.moves = w :: l → s.twn.capture = none →
    ∃ t, step s = .next t ∧ t.lrn.moves = l ∧ t.tbl = (s.adtWrite w).tbl)) ∧
  ((∀ s i, s.Inv → i < 65536 → s.lrn.moves = [] →
    Completes .freezeTick s fun t =>
      (adtFrozen (s.tent 2 i) = true → adtFreezeLeft (s.tent 2 i) ≤ 1 → adtFrozen (t.tent 2 i) = false ∧ adtFreezeLeft (t.tent 2 i) = 0) ∧
      (adtFrozen (s.tent 2 i) = true → 1 < adtFreezeLeft (s.tent 2 i) →
        adtFrozen (t.tent 2 i) = true ∧ adtFreezeLeft (t.tent 2 i) = adtFreezeLeft (s.tent 2 i) - 1) ∧
      (adtFrozen (s.tent 2 i) = false → adtFrozen (t.tent 2 i) = false ∧ adtFreezeLeft (t.tent 2 i) = adtFreezeLeft (s.tent 2 i)) ∧
      adtPort (t.tent 2 i) = adtPort (s.tent 2 i) ∧ adtAge (t.tent 2 i) = adtAge (s.tent 2 i) ∧ t.tent 0 i = s.tent 0 i ∧
      t.tent 1 i = s.tent 1 i) ∧
  (∀ s, s.Inv → s.rf Reg.LRN_AGE 0 8 ≠ 0 → s.lrn.moves = [] →
    Completes .ageTick s fun t =>
      t.tick = (s.tick + 1) % 4096 ∧
      (∀ i, i < 65536 → t.tent 2 i =
        if adtValid (s.tent 2 i) && !adtStatic (s.tent 2 i) && decide (s.rf Reg.LRN_AGE 8 12 ≤ (t.tick + 4096 - adtAge (s.tent 2 i)) % 4096)
        then 0 else s.tent 2 i) ∧
      regsBut [Reg.LRN_TICK, Reg.LRN_PRUNED, Reg.LRN_PRUNED + 4] s t) ∧
  (∀ s, s.rf Reg.LRN_AGE 0 8 = 0 → Completes .ageTick s fun t => t = s) ∧
  (∀ m v s, s.admits m Reg.LRN_AGE = true → fld v 0 8 = 0 ∨ fld v 0 8 = s.rf Reg.LRN_AGE 0 8 →
    Completes (.lrnAgeWrite m v) s fun t =>
      t.rf Reg.LRN_AGE 0 8 = fld v 0 8 ∧ t.rf Reg.LRN_AGE 8 12 = max 1 (fld v 8 12) ∧ t.tbl = s.tbl ∧ t.lrn = s.lrn ∧ regsBut [Reg.LRN_AGE] s t) ∧
  (∀ m v s, s.admits m Reg.LRN_AGE = true → fld v 0 8 ≠ 0 → s.rf Reg.LRN_AGE 0 8 = 0 →
    Completes (.lrnAgeWrite m v) s fun t =>
      t.rf Reg.LRN_AGE 0 8 = fld v 0 8 ∧ t.rf Reg.LRN_AGE 8 12 = max 1 (fld v 8 12) ∧ t.tbl = s.tbl ∧ t.lrn.lastAdv = s.now ∧
      t.lrn.nextAdv = s.now + fld v 0 8 * 1000000000 ∧ regsBut [Reg.LRN_AGE] s t))

/-- R88-R91, Tables 3-9 and 3-10. The anchor exchange: a batch sends what is pending to every enabled anchor; ANNOUNCE, WITHDRAW and SYNC_DATA
put their records in the learn queue (SYNC_DATA in SYNC alone), a message in DOWN starts a synchronisation instead; SYNC_REQ is answered
with the whole local table and a SYNC_END; SYNC_END brings the peer UP; silence or EN = 0 brings it DOWN. The choices of the model in log
entry 28 enter here; for that no rule is cited. Each clause concludes that exec answers the next state described, for every state and
operands that meet its hypotheses. -/
def Obligations.AnchorExchangeFollowsItsTable : Prop :=
  (∀ s i, s.rb Reg.LRN_XCH_CFG 0 = true → s.anchors = [i] → s.lrn.wdPend = [] → s.lrn.annPend.length ≤ 64 →
    Presents .anchorBatch s fun u =>
      u.lrn.annPend = [] ∧ u.lrn.wdPend = [] ∧ u.inj.length = s.inj.length + 1 ∧ u.regs = s.regs ∧ u.tbl = s.tbl ∧ u.lrn.queue = s.lrn.queue) ∧
  (∀ s p smac b i w, s.anchorOf smac b = some i → beAt b 0 1 = 3 → beAt b 1 1 = 1 → beAt b 2 1 = (if w then 2 else 1) → i < 16 →
    (s.anchorState i = 0 → s.rb (Reg.LRN_ANCHOR_CTRL i) 16 = true →
      Presents (if w then .anchorWithdraw p smac b else .anchorAnnounce p smac b) s fun u =>
        u.anchorState i = 1 ∧ u.inj.length = s.inj.length + 1 ∧ u.lrn.queue = s.lrn.queue ∧ regsBut [Reg.LRN_ANCHOR_CTRL i] s u) ∧
    (s.anchorState i = 1 ∨ (2 ≤ s.anchorState i ∧ beAt b 6 4 = (s.rd (Reg.LRN_ANCHOR_RX_SEQ i)).toNat) →
      s.lrn.queue.length + (anchorRecs (beAt b 3 1) (b.drop 12)).length ≤ 256 →
      Presents (if w then .anchorWithdraw p smac b else .anchorAnnounce p smac b) s fun u =>
        u.lrn.queue = s.lrn.queue ++ (anchorRecs (beAt b 3 1) (b.drop 12)).map (fun x => ⟨x.1, x.2, p, some (beAt b 4 2), w⟩) ∧
        u.inj = s.inj ∧ (2 ≤ s.anchorState i → u.rd (Reg.LRN_ANCHOR_RX_SEQ i) = s.rd (Reg.LRN_ANCHOR_RX_SEQ i) + 1) ∧
        regsBut [Reg.LRN_ANCHOR_RX_SEQ i] s u)) ∧
  (∀ s smac b i, s.anchorOf smac b = some i → beAt b 0 1 = 3 → beAt b 1 1 = 1 → beAt b 2 1 = 3 → s.anchorState i ≠ 0 →
    Presents (.anchorSyncReq smac b) s fun u =>
      u.inj.length = s.inj.length + (s.localEntries.length + 63) / 64 + 1 ∧ u.regs = s.regs ∧ u.lrn.queue = s.lrn.queue) ∧
  (∀ s p smac b i, s.anchorOf smac b = some i → beAt b 0 1 = 3 → beAt b 1 1 = 1 → beAt b 2 1 = 4 → s.anchorState i = 1 →
    s.lrn.queue.length + (anchorRecs (beAt b 3 1) (b.drop 12)).length ≤ 256 →
    Presents (.anchorSyncData p smac b) s fun u =>
      u.lrn.queue = s.lrn.queue ++ (anchorRecs (beAt b 3 1) (b.drop 12)).map (fun x => ⟨x.1, x.2, p, some (beAt b 4 2), false⟩) ∧
      u.inj = s.inj ∧ u.regs = s.regs) ∧
  (∀ s p smac b i, s.anchorOf smac b = some i → beAt b 0 1 = 3 → beAt b 1 1 = 1 → beAt b 2 1 = 4 → 2 ≤ s.anchorState i →
    Presents (.anchorSyncData p smac b) s fun u => u = s) ∧
  (∀ s smac b i, s.anchorOf smac b = some i → beAt b 0 1 = 3 → beAt b 1 1 = 1 → beAt b 2 1 = 5 → i < 16 → s.anchorState i = 1 →
    Presents (.anchorSyncEnd smac b) s fun u =>
      u.anchorState i = 2 ∧ u.rd (Reg.LRN_ANCHOR_RX_SEQ i) = wd (beAt b 6 4 + 1) ∧ u.inj = s.inj ∧
      regsBut [Reg.LRN_ANCHOR_CTRL i, Reg.LRN_ANCHOR_RX_SEQ i] s u) ∧
  (∀ s i, i < 16 → s.anchorState i ≠ 0 →
    Completes (.anchorSilenceTimeout i) s fun t =>
      t.anchorState i = 0 ∧
      (s.rb (Reg.LRN_ANCHOR_CTRL i) 16 = true → t.rb (Reg.INT_RAW (pageBase .lrn 0)) Irq.LRN_PEER_DOWN = true) ∧
      regsBut [Reg.LRN_ANCHOR_CTRL i, Reg.INT_RAW (pageBase .lrn 0)] s t) ∧
  (∀ m i v s, i < 16 → s.inj = [] → s.admits m (Reg.LRN_ANCHOR_CTRL i) = true →
    Completes (.anchorDisable m i v) s fun t =>
      t.rb (Reg.LRN_ANCHOR_CTRL i) 16 = bit v 16 ∧ t.rf (Reg.LRN_ANCHOR_CTRL i) 0 9 = fld v 0 9 ∧
      t.anchorState i = (if bit v 16 then s.anchorState i else 0) ∧ regsBut [Reg.LRN_ANCHOR_CTRL i] s t)

/-- R76. A frame forwarded by the ADT: a unicast destination found on another port goes to that port alone, one found on its own ingress is
filtered and counted, one not found is flooded to the ingress's mask without the ingress, and a group source address drops the frame,
counted. -/
def Obligations.AddressTableForwards : Prop :=
  (∀ (s : State) p b vid i, isGroup (parse b).smac = false → s.adtFind (adtKey (parse b).dmac vid) = some i → adtMcast (s.tent 2 i) = false →
    (adtPort (s.tent 2 i) ≠ p → (s.adtRoute p (parse b) vid).1.map Route.dest = some (2 ^ adtPort (s.tent 2 i))) ∧
    (adtPort (s.tent 2 i) = p → (s.adtRoute p (parse b) vid).1 = none ∧
      (s.adtRoute p (parse b) vid).2.rd64 Reg.ADT_LOCAL_FILTER = (s.stat Reg.ADT_LOCAL_FILTER 1).rd64 Reg.ADT_LOCAL_FILTER)) ∧
  (∀ (s : State) p b vid q, isGroup (parse b).smac = false → s.adtFind (adtKey (parse b).dmac vid) = none → p < 26 →
    (s.adtRoute p (parse b) vid).1.map (fun r => r.dest.testBit q) =
      some (decide (q ≠ p) && (s.rf (if isGroup (parse b).dmac then Reg.ADT_FLOOD_MC p else Reg.ADT_FLOOD_UC p) 0 26).testBit q)) ∧
  (∀ (s : State) p b vid, isGroup (parse b).smac = true →
    (s.adtRoute p (parse b) vid).1 = none ∧ (s.adtRoute p (parse b) vid).2.rd Reg.ADT_BAD_SMAC = evtNext (s.rd Reg.ADT_BAD_SMAC) ∧
    (s.adtRoute p (parse b) vid).2.rb (Reg.INT_RAW (pageBase .adt 0)) Irq.ADT_BAD_SMAC = true)

/-- R19, R22, R109-R112, R204. ETH_FRAME_RX on a port that receives begins the frame's reception on its MAC; FRAME_VERDICT ends it and counts
it at the port; a consumed frame goes to its block. With a good verdict and nothing more to check, the frame's copy is linked at the end
of its queue; with a bad FCS a copy that waited is dropped, and the frame leaves the Basin. The choices of the model in log entries 21,
24, 36 enter here; for those no rule is cited. Each clause concludes that exec answers the next state described, for every state and
operands that meet its hypotheses. -/
def Obligations.FramesAreReceivedAndJudged : Prop :=
  (∀ p b pre s, s.receives p = true → s.dmaPort p = false → s.arrival p pre = none →
    Presents (.ethFrameRx p b pre) s fun u =>
      u.arrival p pre = some ((if 16 ≤ p ∧ p < 20 then s.heard (24 + p) else s).ethHead p (s.ingressStamp p) b pre).1) ∧
  (∀ p b pre s, s.receives p = false → s.inj = [] → Completes (.ethFrameRx p b pre) s fun t => t = s) ∧
  (∀ p pre fcsOk framing ecc sym corr uncorr s a, s.arrival p pre = some a → a.fid = none → a.taken = none → p < 23 → s.dmaPort p = false →
    s.inj = [] →
    Completes (.frameVerdict p pre fcsOk framing ecc sym corr uncorr) s fun t =>
      t.rd64 (Reg.EPT_RX_SYMBOL_ERR p) = (s.stat (Reg.EPT_RX_SYMBOL_ERR p) sym).rd64 (Reg.EPT_RX_SYMBOL_ERR p) ∧
      t.arrival p pre = none ∧ t.rd64 (Reg.EPT_RX_FRAMES p) = (s.stat (Reg.EPT_RX_FRAMES p) 1).rd64 (Reg.EPT_RX_FRAMES p) ∧
      t.rd64 (Reg.EPT_RX_BYTES p) = (s.stat (Reg.EPT_RX_BYTES p) (a.wire.length + 4)).rd64 (Reg.EPT_RX_BYTES p) ∧
      t.rd64 (Reg.EPT_RX_FCS_ERR p) =
        (if fcsOk then s.rd64 (Reg.EPT_RX_FCS_ERR p) else (s.stat (Reg.EPT_RX_FCS_ERR p) 1).rd64 (Reg.EPT_RX_FCS_ERR p)) ∧
      t.bsn.frames = s.bsn.frames ∧ t.bsn.queues = s.bsn.queues) ∧
  (∀ p pre fcsOk framing ecc sym corr uncorr s a b, s.arrival p pre = some a → a.fid = none → a.sa = none → a.taken = some b → p < 23 →
    Presents (.frameVerdict p pre fcsOk framing ecc sym corr uncorr) s fun u =>
      u.arrival p pre = none ∧
      u.inj = s.inj ++ [.consumed p a.ts (fcsOk && !framing && decide (a.wire.length + 4 ≤ s.maxLen) && a.tagOk) b]) ∧
  (∀ p s a i f c, s.arrival p false = some a → a.fid = some i → a.sa = none → s.frame i = some f → p < 16 → s.inj = [] → f.copies = [c] →
    c.st = .waiting → c.ct = false → c.eddy = none → c.dest < 26 → f.bus = false → f.sa = none → f.state = 0 → f.len ≤ s.maxLen →
    s.metersOf f.route.meter (if f.route.srt then f.handle else none) = [] → f.route.checked = false → f.route.view = none → f.taken = none →
    Completes (.frameVerdict p false true false 0 0 0 0) s fun t =>
      t.arrival p false = none ∧ t.queue c.q = s.queue c.q ++ [(i, 0)] ∧
      t.frame i = some { f with state := 1, cause := 0, mark := false, colour := (s.weirAll f.len (parse f.bytes).dei true []).1.1, fcs := none,
                                copies := [{ c with st := .queued }] }) ∧
  (∀ p s a i f c, s.arrival p false = some a → a.fid = some i → a.sa = none → s.frame i = some f → p < 16 → s.inj = [] → f.copies = [c] →
    c.st = .waiting → c.ct = false → c.eddy = none → c.dest < 58 → f.bus = false → f.sa = none → f.state = 0 →
    s.metersOf f.route.meter (if f.route.srt then f.handle else none) = [] → f.route.checked = false → f.route.view = none → f.taken = none →
    Completes (.frameVerdict p false false false 0 0 0 0) s fun t =>
      t.arrival p false = none ∧ t.frame i = none ∧ t.bsn.queues = s.bsn.queues ∧
      t.rd64 Reg.BSN_BAD_SF = (s.stat Reg.BSN_BAD_SF 1).rd64 Reg.BSN_BAD_SF ∧
      t.rd64 (Reg.BSN_DROP c.dest) = (s.stat (Reg.BSN_DROP c.dest) 1).rd64 (Reg.BSN_DROP c.dest))

/-- R97, R138, R150. EGRESS_SELECT on a port that is up and idle takes the head copy of the one class that has frames and may be served;
TX_COMPLETE ends the frame in progress once its verdict is known, counts it and frees what its last copy held; a preemptable frame in
progress, enough of whose fragment is sent and enough of which remains, is suspended, with the bytes sent added. A copy on port 24 ends
when Confluence takes it. The choices of the model in log entry 36 enter here; for that no rule is cited. Each clause concludes that exec
answers the next state described, for every state and operands that meet its hypotheses. -/
def Obligations.EgressSelectsSendsAndPreempts : Prop :=
  (∀ p k s i c f x q, p < 26 → k < 8 → (s.eg p).tx = none → (s.eg p).susp = none → s.portUp p = true → s.procRuns p = true →
    s.paused p = false → s.ringed p = false → s.inj = [] → s.queue (8 * p + k) = (i, c) :: q → (∀ j, j < 8 → j ≠ k → s.queue (8 * p + j) = []) →
    s.copyAt i c = some (f, x) → f.bus = true → f.own = none → s.gateOpen p k = true → s.tooBig p k (s.copyLen f x + 20) = false →
    s.fits p k (if s.express p k then s.copyLen f x + 20 else s.minFrag p + 20) = true → s.tcShaped p k = false → s.tcDrr p k = false →
    ((s.eg p).hold = false ∨ s.tcPre p k = false) →
    Completes (.egressSelect p 0) s fun t =>
      t.queue (8 * p + k) = q ∧ (t.eg p).tx = some ⟨i, c, !s.express p k, s.copyBytes f x, x.tc, s.now⟩ ∧
      (t.copyAt i c).map (fun y => y.2.st) = some .sending ∧ t.out = s.out ++ [.frameStart p (s.copyBytes f x)] ∧ t.regs = s.regs) ∧
  (∀ p ecc s, (s.eg p).tx ≠ none → s.inj = [] → Completes (.egressSelect p ecc) s fun t => t = s) ∧
  (∀ p s x f c, p < 26 → p ≠ 24 → (s.eg p).tx = some x → s.copyAt x.fid x.idx = some (f, c) → f.state ≠ 0 → x.tc < 8 →
    Completes (.txComplete p) s fun t =>
      (t.eg p).tx = none ∧
      t.rd64 (Reg.EGS_TX_FRAMES p x.tc) = (s.stat (Reg.EGS_TX_FRAMES p x.tc) 1).rd64 (Reg.EGS_TX_FRAMES p x.tc) ∧
      (f.copies = [c] → t.frame x.fid = none) ∧
      (f.copies.length ≠ 1 → (t.copyAt x.fid x.idx).all (fun y => decide (y.2.st = .done)) = true)) ∧
  (∀ p s x f c, (s.eg p).tx = some x → s.copyAt x.fid x.idx = some (f, c) → f.state = 0 → Completes (.txComplete p) s fun t => t = s) ∧
  (∀ s, Completes (.txComplete 24) s fun t => t = s) ∧
  (∀ p sent s x, p < 16 → (s.eg p).tx = some x → x.pre = true → s.preemptActive p = true → s.minFrag p ≤ sent →
    (s.eg p).frag + sent + 64 ≤ x.bytes.length + 4 → (s.eg p).hold = true →
    Presents (.preempt p sent) s fun u =>
      (u.eg p).susp = some x ∧ (u.eg p).frag = (s.eg p).frag + sent ∧ (u.eg p).tx.all (fun y => !y.pre) = true) ∧
  (∀ p sent s x, (s.eg p).tx = some x → (x.pre = false ∨ sent < s.minFrag p ∨ x.bytes.length + 4 < (s.eg p).frag + sent + 64) → s.inj = [] →
    Completes (.preempt p sent) s fun t => t = s)

/-- R149, R151, R152. Verification of preemption and pause: a verify frame is sent again up to three times, then verification has failed; a
respond frame makes preemption active; a valid PAUSE frame pauses a port with PAUSE_EN for its quanta, and the pause ends when they have
passed. The choices of the model in log entry 36 enter here; for that no rule is cited. Each clause concludes that exec answers the next
state described, for every state and operands that meet its hypotheses. -/
def Obligations.VerificationAndPause : Prop :=
  (∀ p s, p < 16 → s.rf (Reg.EGS_PORT_STAT p) 2 2 = 1 → (s.eg p).tries < 3 →
    Completes (.verifyTimer p) s fun t =>
      (t.eg p).tries = (s.eg p).tries + 1 ∧ t.out = s.out ++ [.verify p] ∧ t.regs = s.regs) ∧
  (∀ p s, p < 16 → s.rf (Reg.EGS_PORT_STAT p) 2 2 = 1 → 3 ≤ (s.eg p).tries →
    Completes (.verifyTimer p) s fun t =>
      t.rf (Reg.EGS_PORT_STAT p) 2 2 = 3 ∧ t.rd (Reg.EGS_VERIFY_FAIL p) = evtNext (s.rd (Reg.EGS_VERIFY_FAIL p)) ∧
      t.rb (Reg.INT_RAW (pageBase .egs p)) Irq.EGS_VERIFY_FAIL = true ∧ t.preemptActive p = s.preemptActive p ∧
      regsBut [Reg.EGS_PORT_STAT p, Reg.EGS_VERIFY_FAIL p, Reg.INT_RAW (pageBase .egs p)] s t) ∧
  (∀ p s, p < 16 → s.rf (Reg.EGS_PORT_STAT p) 2 2 = 1 →
    Completes (.verifyRespond p) s fun t =>
      t.rf (Reg.EGS_PORT_STAT p) 2 2 = 2 ∧ t.preemptActive p = true ∧ regsBut [Reg.EGS_PORT_STAT p] s t) ∧
  (∀ p b s, p < 23 → s.receives p = true → s.dmaPort p = false → beAt b 14 2 = 1 → beAt b 16 2 ≠ 0 → 64 ≤ b.length + 4 →
    s.rb (Reg.EGS_PORT_CFG p) 0 = true →
    Completes (.pauseFrameRx p b true) s fun t =>
      t.paused p = true ∧ t.rf (Reg.EGS_PORT_STAT p) 16 16 = beAt b 16 2 ∧ (t.eg p).pauseAt = s.now ∧
      t.rd64 (Reg.EGS_PAUSE_RX p) = (s.stat (Reg.EGS_PAUSE_RX p) 1).rd64 (Reg.EGS_PAUSE_RX p) ∧
      (s.paused p = false → t.rb (Reg.INT_RAW (pageBase .egs p)) Irq.EGS_PAUSE_START = true)) ∧
  (∀ p b ok s, p < 23 → s.receives p = true → beAt b 14 2 ≠ 1 →
    Completes (.pauseFrameRx p b ok) s fun t =>
      t.rd (Reg.EGS_PFC_RX p) = evtNext (s.rd (Reg.EGS_PFC_RX p)) ∧ t.rd (Reg.EGS_PORT_STAT p) = s.rd (Reg.EGS_PORT_STAT p) ∧ t.egr = s.egr) ∧
  (∀ p s, p < 23 → s.paused p = true →
    Completes (.pauseExpire p) s fun t =>
      t.paused p = false ∧ t.rf (Reg.EGS_PORT_STAT p) 16 16 = 0 ∧ t.preemptActive p = s.preemptActive p ∧ regsBut [Reg.EGS_PORT_STAT p] s t)

/-- R113-R118. The Rake: RAKE_AUDIT_START begins an audit, or notes one that is due while another runs, with OVERRUN; at its end a cell left
unmarked, or that a failed link record has cut off (R94), that is in no frame and has not moved becomes a suspect, and one that was a
suspect of the audit before is reclaimed. R105, R119, R99, R126, R127. Settings of the Basin and the Eddy, and the ring FIFOs: a queue's
QUOTA and RESERVE are stored where RESERVE is within QUOTA and all reserves fit, else the write is counted and ignored; a sampling rate is
stored and its count restarted; the flow seed takes effect once no frame is stored; a gap marker joins a receive FIFO that owes one; a
FIFO whose pointers fail is emptied, a receive FIFO with a marker that says so. The choices of the model in log entries 27, 35 enter here;
for those no rule is cited. Each clause concludes that exec answers the next state described, for every state and operands that meet its
hypotheses. -/
def Obligations.BasinIsAuditedAndSet : Prop :=
  ((∀ s, s.rb Reg.RAK_CFG 0 = true → s.bsn.auditOn = false →
    Completes .rakeAuditStart s fun t =>
      t.bsn = { s.bsn with auditOn := true, auditDue := false, auditStart := s.now, moved := [] } ∧ t.regs = s.regs) ∧
  (∀ s, s.rb Reg.RAK_CFG 0 = true → s.bsn.auditOn = true →
    Completes .rakeAuditStart s fun t =>
      t.bsn = { s.bsn with auditDue := true } ∧ t.rb (Reg.INT_RAW (pageBase .rak 0)) Irq.RAK_OVERRUN = true ∧
      regsBut [Reg.INT_RAW (pageBase .rak 0)] s t) ∧
  (∀ s c u b, u ++ s.bsn.lost = [c] → s.bsn.auditOn = true → s.bsn.auditDue = false → c < 49152 → (∀ f, f ∈ s.stored → f.cells.contains c = false) →
    s.bsn.moved.contains c = false →
    Completes (.rakeAuditDone u [] false b) s fun t =>
      t.bsn.auditOn = false ∧ t.bsn.moved = [] ∧ t.bsn.lost = [] ∧ t.bsn.frames = s.bsn.frames ∧
      t.rd64 Reg.RAK_AUDITS = (s.stat Reg.RAK_AUDITS 1).rd64 Reg.RAK_AUDITS ∧
      (s.bsn.suspects.contains c = false → t.bsn.suspects = [c] ∧ t.rd64 Reg.RAK_RECLAIMED = s.rd64 Reg.RAK_RECLAIMED) ∧
      (s.bsn.suspects.contains c = true → t.bsn.suspects = [] ∧ t.rd Reg.RAK_LAST_CELL = wd c ∧
        t.rd64 Reg.RAK_RECLAIMED = (s.stat Reg.RAK_RECLAIMED 1).rd64 Reg.RAK_RECLAIMED ∧
        t.rb (Reg.INT_RAW (pageBase .rak 0)) Irq.RAK_RECLAIM = true))) ∧
  ((∀ m q v s, q < 240 → s.admits m (Reg.BSN_QCFG q) = true → fld v 16 16 ≤ fld v 0 16 →
    s.rsvSum - s.reserved q + fld v 16 16 + s.headroom ≤ 49152 →
    Completes (.qcfgWrite m (Reg.BSN_QCFG q) v) s fun t =>
      t.rd (Reg.BSN_QCFG q) = v ∧ regsBut [Reg.BSN_QCFG q, Reg.BSN_QSTAT q, Reg.INT_RAW (pageBase .bsn 0)] s t) ∧
  (∀ m q v s, q < 240 → s.admits m (Reg.BSN_QCFG q) = true →
    fld v 0 16 < fld v 16 16 ∨ 49152 < s.rsvSum - s.reserved q + fld v 16 16 + s.headroom →
    Completes (.qcfgWrite m (Reg.BSN_QCFG q) v) s fun t =>
      t.rd Reg.BSN_RSV_REJ = evtNext (s.rd Reg.BSN_RSV_REJ) ∧ t.rb (Reg.INT_RAW (pageBase .bsn 0)) Irq.BSN_RSV_REJ = true ∧
      regsBut [Reg.BSN_RSV_REJ, Reg.INT_RAW (pageBase .bsn 0)] s t) ∧
  (∀ m k v s, k < 8 → s.admits m (Reg.EDY_RATE k) = true →
    Completes (.edyRateWrite m k v) s fun t =>
      t.rf (Reg.EDY_RATE k) 0 16 = max 1 (fld v 0 16) ∧ t.rf (Reg.EDY_RATE k) 16 16 = 0 ∧ regsBut [Reg.EDY_RATE k] s t) ∧
  (∀ s, Completes .flowSeedApply s fun t =>
    t.bsn.seed = (if s.bsnFree = 49152 then s.rd Reg.BSN_FLOW_SEED else s.bsn.seed) ∧ t.bsn.frames = s.bsn.frames ∧
    t.bsn.queues = s.bsn.queues ∧ t.regs = s.regs) ∧
  (∀ r s, r < 16 → 0 < (s.rxf r).pend → 2 ≤ (s.rxf r).free →
    Completes (.gapMarker r) s fun t =>
      (t.rxf r).recs = (s.rxf r).recs ++ [gapRec (s.rxf r).pend false] ∧ (t.rxf r).pend = 0 ∧
      (t.rxf r).wr = ((s.rxf r).wr + 2) % 4096 ∧ (t.rxf r).rd = (s.rxf r).rd ∧ (∀ j, j ≠ r → t.rxf j = s.rxf j) ∧ t.regs = s.regs) ∧
  (∀ r l s, r < 16 →
    Completes (.fifoReset false r l) s fun t =>
      (t.rxf r).recs = [gapRec (sumN ((s.rxf r).recs.map RxRec.packets) + (s.rxf r).pend) true] ∧ (t.rxf r).wr = 2 ∧ (t.rxf r).rd = 0 ∧
      (t.rxf r).pend = 0 ∧ (∀ j, j ≠ r → t.rxf j = s.rxf j) ∧
      t.rd (Reg.BSN_RXF_RESET r) = evtNext (s.rd (Reg.BSN_RXF_RESET r)) ∧
      t.rb (Reg.INT_RAW (pageBase .bsn 0)) Irq.BSN_RING_ERR = true ∧
      regsBut [Reg.BSN_RXF_RESET r, Reg.INT_RAW (pageBase .bsn 0)] s t) ∧
  (∀ r k s, r < 16 → s.ringOn (16 + r) = false →
    Completes (.fifoReset true r [k]) s fun t =>
      t.txf r = TxFifo.reset ∧ (∀ j, j ≠ r → t.txf j = s.txf j) ∧
      t.rd (Reg.BSN_TXF_RESET r) = evtNext (s.rd (Reg.BSN_TXF_RESET r)) ∧
      t.rb (Reg.INT_RAW (pageBase .bsn 0)) Irq.BSN_RING_ERR = true ∧
      regsBut [Reg.BSN_TXF_RESET r, Reg.INT_RAW (pageBase .bsn 0)] s t))

/-- R130-R136. WEI_APPLY gives the selected meter the words of the master's data registers, its levels full when EN goes from 0 to 1 and else
kept within the new sizes; a meter the Budget Engine owns, or an enabled one out of range, is refused and counted. WEI_LOAD reads the
meter back. R132. A charged colour takes the frame's bytes from both levels when green, from the peak level alone when yellow, and from
neither when red; a frame above MAX_FRAME of a meter with LEN_EN is red; refilling never takes a level above its bucket. The choices of
the model in log entry 29 enter here; for that no rule is cited. Each clause concludes that exec answers the next state described, for
every state and operands that meet its hypotheses. -/
def Obligations.WeirMetersRun : Prop :=
  ((∀ m s d0 d1 d2 d3 d4, s.admits m Reg.WEI_CMD = true →
    d0 = s.rd (bankKey m (Reg.WEI_DATA 0)) &&& 0x3FFF003F → d1 = s.rd (bankKey m (Reg.WEI_DATA 1)) &&& 0x01FFFFFF →
    d2 = s.rd (bankKey m (Reg.WEI_DATA 2)) &&& 0x01FFFFFF → d3 = s.rd (bankKey m (Reg.WEI_DATA 3)) &&& 0x00FFFFFF →
    d4 = s.rd (bankKey m (Reg.WEI_DATA 4)) &&& 0x00FFFFFF →
    (s.meterOwned (s.rf (bankKey m Reg.WEI_SEL) 0 12) = false → bit d0 0 = true → (⟨d0, d1, d2, d3, d4, 0, 0, 0⟩ : Meter).inRange = true →
      (s.meter (s.rf (bankKey m Reg.WEI_SEL) 0 12)).en = false →
      Completes (.weiApply m) s fun t =>
        t.meter (s.rf (bankKey m Reg.WEI_SEL) 0 12) = ⟨d0, d1, d2, d3, d4, fld d3 0 24 * 65536, fld d4 0 24 * 65536, s.now⟩ ∧
        (∀ i, i ≠ s.rf (bankKey m Reg.WEI_SEL) 0 12 → t.meter i = s.meter i) ∧ regsBut [] s t) ∧
    (s.meterOwned (s.rf (bankKey m Reg.WEI_SEL) 0 12) = false → bit d0 0 = false →
      Completes (.weiApply m) s fun t =>
        (t.meter (s.rf (bankKey m Reg.WEI_SEL) 0 12)).en = false ∧ (t.meter (s.rf (bankKey m Reg.WEI_SEL) 0 12)).d1 = d1 ∧
        (t.meter (s.rf (bankKey m Reg.WEI_SEL) 0 12)).tc = min (s.meter (s.rf (bankKey m Reg.WEI_SEL) 0 12)).tc (fld d3 0 24 * 65536) ∧
        (∀ i, i ≠ s.rf (bankKey m Reg.WEI_SEL) 0 12 → t.meter i = s.meter i) ∧ regsBut [] s t) ∧
    (s.meterOwned (s.rf (bankKey m Reg.WEI_SEL) 0 12) = true ∨ (bit d0 0 = true ∧ (⟨d0, d1, d2, d3, d4, 0, 0, 0⟩ : Meter).inRange = false) →
      Completes (.weiApply m) s fun t =>
        t.meters = s.meters ∧ t.rd Reg.WEI_REJ = evtNext (s.rd Reg.WEI_REJ) ∧ t.rb (Reg.INT_RAW (pageBase .wei 0)) Irq.WEI_REJ = true ∧
        regsBut [Reg.WEI_REJ, Reg.INT_RAW (pageBase .wei 0)] s t)) ∧
  (∀ m s e, s.admits m Reg.WEI_CMD = true → e = s.meter (s.rf (bankKey m Reg.WEI_SEL) 0 12) →
    Completes (.weiLoad m) s fun t =>
      t.rd (bankKey m (Reg.WEI_DATA 0)) = setFld e.d0 6 1 (b2n (s.meterOwned (s.rf (bankKey m Reg.WEI_SEL) 0 12))) ∧
      t.rd (bankKey m (Reg.WEI_DATA 1)) = e.d1 ∧ t.rd (bankKey m (Reg.WEI_DATA 2)) = e.d2 ∧ t.rd (bankKey m (Reg.WEI_DATA 3)) = e.d3 ∧
      t.rd (bankKey m (Reg.WEI_DATA 4)) = e.d4 ∧ t.meters = s.meters ∧
      regsBut ((List.range 5).map (fun k => bankKey m (Reg.WEI_DATA k))) s t)) ∧
  ((∀ (x : Meter) b y, ((x.colour b y true).1 = 0 →
      (x.colour b y true).2.tc + b * 65536 = x.tc ∧ (x.colour b y true).2.tp + b * 65536 = x.tp ∧ (x.caware = true → y = false)) ∧
    ((x.colour b y true).1 = 1 → (x.colour b y true).2.tc = x.tc ∧ (x.colour b y true).2.tp + b * 65536 = x.tp) ∧
    ((x.colour b y true).1 = 2 → (x.colour b y true).2 = x) ∧ (x.colour b y true).1 ≤ 2 ∧
    (x.lenEn = true → x.maxFrame < b → (x.colour b y true).1 = 2)) ∧
  (∀ (x : Meter) now, (x.refill now).tc ≤ x.cbs * 65536 ∧ (x.refill now).tp ≤ x.pbs * 65536))

/-- R142, R143, R147. SLU_CHANGE keeps the administrative list as pending, with a change time of the list's own cycle at least 2 µs away;
SLU_CANCEL drops it; at the change time it operates; a gate event puts the gates of the entry in force; GATE_EN = 0 opens every gate; a
write of SLU_GCL_D1 stores the selected entry's interval, unless a change is pending. The choices of the model in log entry 30 enter here;
for that no rule is cited. Each clause concludes that exec answers the next state described, for every state and operands that meet its
hypotheses. -/
def Obligations.SluiceListsChangeAndGate : Prop :=
  (∀ m p s, p < 22 → s.admits m (Reg.SLU_CMD p) = true → 0 < (s.sluAdmin p).cycle →
    Completes (.sluChange m p) s fun t =>
      (t.sluice p).pend.map (fun x => x.1) = some (s.sluAdmin p) ∧
      (t.sluice p).pend.any (fun x => decide ((s.sluAdmin p).base ≤ x.2) && decide (s.sluTime p + 2000 ≤ (x.2 : Int)) &&
        decide ((x.2 - (s.sluAdmin p).base) % (s.sluAdmin p).cycle = 0)) = true ∧
      (t.sluice p).oper = (s.sluice p).oper ∧ (t.sluice p).gates = (s.sluice p).gates ∧ regsBut [] s t) ∧
  (∀ m p s, p < 22 → s.admits m (Reg.SLU_CMD p) = true →
    Completes (.sluCancel m p) s fun t => t.sluice p = { s.sluice p with pend := none } ∧ (∀ q, q ≠ p → t.sluice q = s.sluice q) ∧ regsBut [] s t) ∧
  (∀ p n s c ct, p < 22 → (s.sluice p).pend = some (c, ct) → s.gateEn p = false →
    Completes (.sluConfigChange p n) s fun t =>
      t.sluice p = { s.sluice p with oper := some c, pend := none } ∧
      t.rd64 (Reg.SLU_CHANGES p) = (s.stat (Reg.SLU_CHANGES p) 1).rd64 (Reg.SLU_CHANGES p) ∧
      t.rb (Reg.INT_RAW (pageBase .slu p)) Irq.SLU_CHANGED = true ∧
      regsBut [Reg.SLU_CHANGES p, Reg.SLU_CHANGES p + 4, Reg.INT_RAW (pageBase .slu p)] s t) ∧
  (∀ p n s c, p < 22 → s.gateEn p = true → (s.sluice p).oper = some c → (s.sluice p).started = true → (s.sluice p).pend = none →
    c.inRange = true →
    Completes (.gateEvent p n) s fun t =>
      (t.sluice p).gates = gclGates (c.entry (c.indexAt (c.pos (s.sluTime p)))) ∧ (t.sluice p).cur = c.indexAt (c.pos (s.sluTime p)) ∧
      (t.sluice p).oper = some c ∧ regsBut [Reg.SLU_OVERRUN p, Reg.INT_RAW (pageBase .slu p)] s t) ∧
  (∀ m p v s, p < 22 → s.admits m (Reg.SLU_CTRL p) = true → bit v 0 = false →
    Completes (.sluGateEnWrite m p v) s fun t =>
      t.rd (Reg.SLU_CTRL p) = v &&& 7 ∧ (t.sluice p).gates = 0xFF ∧ (t.eg p).hold = false ∧ (∀ k, t.gateOpen p k = true) ∧
      regsBut [Reg.SLU_CTRL p] s t) ∧
  (∀ m p v s, p < 22 → s.admits m (Reg.SLU_CTRL p) = true → bit v 0 = true → s.gateEn p = false → (s.sluice p).oper = none →
    Completes (.sluGateEnWrite m p v) s fun t =>
      t.rd (Reg.SLU_CTRL p) = v &&& 7 ∧ t.gateEn p = true ∧ (t.sluice p).gates = s.rf (Reg.SLU_ADMIN_DEF p) 0 8) ∧
  (∀ m p v s, p < 22 → s.admits m (Reg.SLU_GCL_D1 p) = true → s.rb (Reg.SLU_GCL_SEL p) 16 = false → (s.sluice p).pend = none →
    Completes (.sluGclWrite m p v) s fun t =>
      (t.sluAdmin p).entry (s.rf (Reg.SLU_GCL_SEL p) 0 10) =
        (((s.sluAdmin p).entry (s.rf (Reg.SLU_GCL_SEL p) 0 10)).1, wd (max 32 (min 1000000000 (fld v 0 30)))) ∧
      (t.sluice p).oper = (s.sluice p).oper ∧
      t.rf (Reg.SLU_GCL_SEL p) 0 10 = (s.rf (Reg.SLU_GCL_SEL p) 0 10 + b2n (s.rb (Reg.SLU_GCL_SEL p) 17)) % 1024 ∧
      regsBut [Reg.SLU_GCL_SEL p] s t) ∧
  (∀ m p v s, p < 22 → s.admits m (Reg.SLU_GCL_D1 p) = true → (s.rb (Reg.SLU_GCL_SEL p) 16 = true ∨ (s.sluice p).pend.isSome = true) →
    Completes (.sluGclWrite m p v) s fun t =>
      t.slu = s.slu ∧ t.rd (Reg.SLU_CFG_ERR p) = evtNext (s.rd (Reg.SLU_CFG_ERR p)) ∧
      regsBut [Reg.SLU_CFG_ERR p, Reg.INT_RAW (pageBase .slu p)] s t)

/-- R153-R162. Commands of the Budget Engine wait in arrival order, with their arguments, behind the re-checks and commands before them. The
one at the front starts, reading the configuration as it then is, and holds its result until BUD_CMD_DONE publishes it, which starts the
next: a command while EN = 0 with DISABLED, a READ with the reservation, a RELEASE with the record cleared and its meter disabled, a
REQUEST that no check refuses with a reservation, one that a check refuses with the reason and nothing reserved, a QUERY as a REQUEST but
that nothing is reserved. A re-check that is due runs; a write of EN = 1 takes the envelope meters, and EN = 0 is refused while anything
is reserved. The choices of the model in log entry 31 enter here; for that no rule is cited. Each clause concludes that exec answers the
next state described, for every state and operands that meet its hypotheses. -/
def Obligations.BudgetCommandsRunInOrder : Prop :=
  (∀ m s c op, s.admits m Reg.BUD_CMD = true → (s.slot (budSlot m)).idle = true → s.bud.work ≠ [] →
    s.bud.work.head?.any BudWork.isCmd = false →
    (c, op) ∈ [(Instr.budRequest m, 1), (.budRelease m, 2), (.budRead m, 3), (.budRecheck m, 4), (.budQuery m, 5)] →
    Completes c s fun t =>
      t.bud.work = s.bud.work ++ [.cmd (s.budWants m op)] ∧ t.slot (budSlot m) = (s.slot (budSlot m)).accept m ∧
      t.bud.resv = s.bud.resv ∧ regsBut [] s t) ∧
  (∀ m s c op, s.budFree m → s.rb Reg.BUD_CFG 0 = false →
    (c, op) ∈ [(Instr.budRequest m, 1), (.budRelease m, 2), (.budRead m, 3), (.budRecheck m, 4), (.budQuery m, 5)] →
    Completes c s fun t =>
      t.bud.work = [.running m] ∧ t.slot (budSlot m) = ((s.slot (budSlot m)).accept m).hold (codeRes 0x81) ∧ t.bud.resv = s.bud.resv ∧
      regsBut [] s t) ∧
  (∀ m s x, s.budFree m → s.rb Reg.BUD_CFG 0 = true → x = s.resv (s.rf (bankKey m Reg.BUD_INDEX) 0 10) → x.state ≠ 0 →
    (Completes (.budRead m) s fun t =>
      t.bud.work = [.running m] ∧ t.bud.resv = s.bud.resv ∧ regsBut [] s t ∧
      t.slot (budSlot m) = ((s.slot (budSlot m)).accept m).hold (dataRes Code.ok
        [wd (x.handle + x.port * 2 ^ 16 + x.tc * 2 ^ 21 + x.state * 2 ^ 24), wd (x.maxFrame + x.n * 65536), wd x.interval, wd x.target,
         wd x.bound, wd (3072 + s.rf (bankKey m Reg.BUD_INDEX) 0 10)])) ∧
    (Completes (.budRelease m) s fun t =>
      t.slot (budSlot m) = ((s.slot (budSlot m)).accept m).hold (codeRes Code.ok) ∧
      (t.resv (s.rf (bankKey m Reg.BUD_INDEX) 0 10)).state = 0 ∧ (t.meter (3072 + s.rf (bankKey m Reg.BUD_INDEX) 0 10)).en = false)) ∧
  (∀ m s p, s.budFree m → s.rb Reg.BUD_CFG 0 = true → p = s.rf (bankKey m Reg.BUD_INDEX) 0 10 % 32 → s.portUp p = false →
    Completes (.budRecheck m) s fun t =>
      t.slot (budSlot m) = ((s.slot (budSlot m)).accept m).hold (dataRes Code.ok [0]) ∧
      (∀ i, (s.resv i).port = p → (s.resv i).state = 2 ∨ (s.resv i).state = 3 → (t.resv i).state = 1) ∧
      (∀ i, (s.resv i).port ≠ p → t.resv i = s.resv i)) ∧
  (∀ m s c op, s.budFree m → s.rb Reg.BUD_CFG 0 = true → (c, op) ∈ [(Instr.budRequest m, 1), (.budQuery m, 5)] →
    (s.budWants m op).record = none →
    Completes c s fun t =>
      t.slot (budSlot m) = ((s.slot (budSlot m)).accept m).hold (codeRes Code.badArg) ∧ t.bud.resv = s.bud.resv ∧ regsBut [] s t) ∧
  (∀ m s c op r, s.budFree m → s.rb Reg.BUD_CFG 0 = true → (c, op) ∈ [(Instr.budRequest m, 1), (.budQuery m, 5)] →
    (s.budWants m op).record = some r → ((16 ≤ r.port ∧ r.port < 20) ∨ 23 ≤ r.port) →
    Completes c s fun t =>
      (t.slot (budSlot m)).held.map (fun x => (x.code, x.data.head?)) = some (Code.ok, some (wd 258)) ∧ t.bud.resv = s.bud.resv) ∧
  (∀ m s c op r, s.budFree m → s.rb Reg.BUD_CFG 0 = true → (c, op) ∈ [(Instr.budRequest m, 1), (.budQuery m, 5)] →
    (s.budWants m op).record = some r → (r.port < 16 ∨ (20 ≤ r.port ∧ r.port < 23)) → ((s.budAt m).budChecks r).1 ≠ 0 →
    Completes c s fun t =>
      (t.slot (budSlot m)).held.map (fun x => (x.code, x.data.head?)) = some (Code.ok, some (wd (2 + ((s.budAt m).budChecks r).1 * 256))) ∧
      t.bud.resv = s.bud.resv ∧
      t.rd64 Reg.BUD_REFUSED = (if op = 1 then (s.stat Reg.BUD_REFUSED 1).rd64 Reg.BUD_REFUSED else s.rd64 Reg.BUD_REFUSED)) ∧
  (∀ m s c op r i, s.budFree m → s.rb Reg.BUD_CFG 0 = true → (c, op) ∈ [(Instr.budRequest m, 1), (.budQuery m, 5)] →
    (s.budWants m op).record = some r → (r.port < 16 ∨ (20 ≤ r.port ∧ r.port < 23)) → ((s.budAt m).budChecks r).1 = 0 →
    s.freeResv = some i →
    Completes c s fun t =>
      (t.slot (budSlot m)).held.map (fun x => (x.code, x.data.head?)) =
        some (Code.ok, some (wd ((if s.portUp r.port then 0 else 1) + if op = 1 then i * 65536 else 0))) ∧
      (op = 5 → t.bud.resv = s.bud.resv) ∧
      (op = 1 → (t.resv i).state = (if s.portUp r.port then 2 else 1) ∧ (t.resv i).handle = r.handle ∧ (t.resv i).port = r.port ∧
        t.rd64 Reg.BUD_ADMITTED = (s.stat Reg.BUD_ADMITTED 1).rd64 Reg.BUD_ADMITTED)) ∧
  (∀ s m q r, s.bud.work = .running m :: q → (s.slot (budSlot m)).busy = true → (s.slot (budSlot m)).held = some r → s.svc.release = [] →
    q.head?.any BudWork.isCmd = false →
    Completes .budCmdDone s fun t =>
      t.bud.work = q ∧ t.slot (budSlot m) = (s.slot (budSlot m)).complete r ∧ t.bud.resv = s.bud.resv ∧ t.regs = s.regs) ∧
  (∀ s m c q r, s.bud.work = .running m :: .cmd c :: q → (s.slot (budSlot m)).busy = true → (s.slot (budSlot m)).held = some r →
    s.svc.release = [] → s.rb Reg.BUD_CFG 0 = false → c.m ≠ m →
    Completes .budCmdDone s fun t =>
      t.bud.work = .running c.m :: q ∧ t.slot (budSlot m) = (s.slot (budSlot m)).complete r ∧
      t.slot (budSlot c.m) = (s.slot (budSlot c.m)).hold (codeRes 0x81) ∧ t.bud.resv = s.bud.resv ∧ t.regs = s.regs) ∧
  (∀ p s q, s.bud.work = .recheck p :: q → q.head?.any BudWork.isCmd = false → s.portUp p = false →
    Completes (.budAutoRecheck p) s fun t =>
      t.bud.work = q ∧
      (∀ i, (s.resv i).port = p → (s.resv i).state = 2 ∨ (s.resv i).state = 3 → (t.resv i).state = 1) ∧
      (∀ i, (s.resv i).port ≠ p → t.resv i = s.resv i)) ∧
  (∀ m v s, s.admits m Reg.BUD_CFG = true → s.rb Reg.BUD_CFG 0 = false → bit v 0 = true →
    Completes (.budEnable m v) s fun t =>
      t.rb Reg.BUD_CFG 0 = true ∧ (∀ i, 3072 ≤ i → (t.meter i).en = false) ∧ (∀ i, i < 3072 → t.meter i = s.meter i) ∧
      regsBut [Reg.BUD_CFG] s t) ∧
  (∀ m v s, s.admits m Reg.BUD_CFG = true → s.rb Reg.BUD_CFG 0 = true → bit v 0 = false →
    s.bud.resv.any (fun x => decide (x.2.state ≠ 0)) = true →
    Completes (.budEnable m v) s fun t =>
      t.rd Reg.BUD_CFG_REJ = evtNext (s.rd Reg.BUD_CFG_REJ) ∧ t.meters = s.meters ∧ regsBut [Reg.BUD_CFG_REJ] s t)

/-- R176-R181. FRE_APPLY gives the selected function its words and, when it is enabled or changes its kind, resets its sequence state; an
enabled function out of range is refused and counted. FRE_LOAD reads it back, FRE_RESET and the recovery timeout reset it; the latent
error test counts when its difference is exceeded, and its reset takes the present sum as base. R179. A recovery function passes each
sequence number once: after it has taken a number, the same number is discarded. The choices of the model in log entry 33 enter here; for
that no rule is cited. Each clause concludes that exec answers the next state described, for every state and operands that meet its
hypotheses. -/
def Obligations.RecoveryFunctionsRun : Prop :=
  ((∀ m s f, s.admits m Reg.FRE_CMD = true →
    f = { s.freFn (s.rf (bankKey m Reg.FRE_SEL) 0 8) with
          d0 := s.rd (bankKey m (Reg.FRE_DATA 0)) &&& 0xFFFF3F1F, d1 := s.rd (bankKey m (Reg.FRE_DATA 1)) &&& 0x03FFFFFF,
          d2 := s.rd (bankKey m (Reg.FRE_DATA 2)) &&& 0x07FFFFFF, d3 := s.rd (bankKey m (Reg.FRE_DATA 3)) &&& 0xFFFF } →
    (f.en = true → f.inRange = true → (s.freFn (s.rf (bankKey m Reg.FRE_SEL) 0 8)).en = false →
      Completes (.freApply m) s fun t =>
        t.freFn (s.rf (bankKey m Reg.FRE_SEL) 0 8) = f.resetSeq ∧ regsBut [itemKey (s.rf (bankKey m Reg.FRE_SEL) 0 8) Reg.FRE_RESETS] s t) ∧
    (f.en = true → f.inRange = false → Completes (.freApply m) s fun t =>
      t.fre = s.fre ∧ t.rd Reg.FRE_REJ = evtNext (s.rd Reg.FRE_REJ) ∧ regsBut [Reg.FRE_REJ, Reg.INT_RAW (pageBase .fre 0)] s t)) ∧
  (∀ m s, s.admits m Reg.FRE_CMD = true →
    Completes (.freLoad m) s fun t =>
      t.rd (bankKey m (Reg.FRE_DATA 0)) = (s.freFn (s.rf (bankKey m Reg.FRE_SEL) 0 8)).d0 ∧
      t.rd (bankKey m (Reg.FRE_DATA 1)) = (s.freFn (s.rf (bankKey m Reg.FRE_SEL) 0 8)).d1 ∧
      t.rd (bankKey m (Reg.FRE_DATA 2)) = (s.freFn (s.rf (bankKey m Reg.FRE_SEL) 0 8)).d2 ∧
      t.rd (bankKey m (Reg.FRE_DATA 3)) = (s.freFn (s.rf (bankKey m Reg.FRE_SEL) 0 8)).d3 ∧ t.fre = s.fre ∧
      regsBut ((List.range 4).map (fun k => bankKey m (Reg.FRE_DATA k))) s t) ∧
  (∀ m s, s.admits m Reg.FRE_CMD = true →
    Completes (.freReset m) s fun t =>
      t.freFn (s.rf (bankKey m Reg.FRE_SEL) 0 8) = (s.freFn (s.rf (bankKey m Reg.FRE_SEL) 0 8)).resetSeq ∧
      (∀ j, j ≠ s.rf (bankKey m Reg.FRE_SEL) 0 8 → t.freFn j = s.freFn j) ∧
      regsBut [itemKey (s.rf (bankKey m Reg.FRE_SEL) 0 8) Reg.FRE_RESETS] s t) ∧
  (∀ i s, (s.freFn i).en = true → (s.freFn i).recovery = true → (s.freFn i).takeAny = false →
    Completes (.freRecoveryTimeout i) s fun t =>
      t.freFn i = (s.freFn i).resetSeq ∧ (t.freFn i).takeAny = true ∧
      t.rd (itemKey i Reg.FRE_RESETS) = evtNext (s.rd (itemKey i Reg.FRE_RESETS)) ∧ regsBut [itemKey i Reg.FRE_RESETS] s t) ∧
  (∀ i s, (s.freFn i).en = true → (s.freFn i).recovery = true → (s.freFn i).latentEn = true →
    Completes (.freLatentTest i) s fun t =>
      t.fre = s.fre ∧
      (((fld (s.freFn i).d2 16 8 : Nat) : Int) < absI ((s.freFn i).latBase - s.freLatentSum i) →
        t.rd (itemKey i Reg.FRE_LATENT) = evtNext (s.rd (itemKey i Reg.FRE_LATENT)) ∧
        t.rb (Reg.INT_RAW (pageBase .fre 0)) Irq.FRE_LATENT = true) ∧
      (absI ((s.freFn i).latBase - s.freLatentSum i) ≤ ((fld (s.freFn i).d2 16 8 : Nat) : Int) → t = s)) ∧
  (∀ i s, (s.freFn i).en = true → (s.freFn i).recovery = true → (s.freFn i).latentEn = true →
    Completes (.freLatentReset i) s fun t => (t.freFn i).latBase = s.freLatentSum i ∧ (t.freFn i).hist = (s.freFn i).hist ∧ t.regs = s.regs)) ∧
  (∀ (s : State) i q, q < 65536 → (s.freFn i).en = true → (s.freFn i).recovery = true → 2 ≤ (s.freFn i).histLen →
    (s.freRecover i (some q)).1 = true → ((s.freRecover i (some q)).2.freRecover i (some q)).1 = false)

/-- R182-R193, Table 6-9. FGD_APPLY brings an OFF view LIVE with the master's words, switches a view OFF, or keeps the words until the open
video frame closes; words out of range are refused and counted. FGD_LOAD reads them back. A deadline without a video frame makes a LIVE
view STALE, counted, and a STALE view repeats its record every FRAME_PERIOD. The choices of the model in log entry 32 enter here; for that
no rule is cited. Each clause concludes that exec answers the next state described, for every state and operands that meet its hypotheses. -/
def Obligations.FreshnessViewsFollowTheirTable : Prop :=
  (∀ m s w v, s.admits m Reg.FGD_CMD = true → w = (List.range 8).map (fun k => s.rd (bankKey m (Reg.FGD_VCFG0 + 4 * k))) →
    v = s.rf (bankKey m Reg.FGD_SEL) 0 6 →
    (viewOk w = true → bit (w.getD 0 0) 0 = true → (s.view v).state = 0 →
      Completes (.fgdApply m) s fun t =>
        (t.view v).state = 1 ∧ (t.view v).w = w ∧ (t.view v).deadline = s.now + (t.view v).period + (t.view v).margin ∧
        (t.view v).rseq = (s.view v).rseq ∧ (∀ j, j ≠ v → t.view j = s.view j) ∧ regsBut [] s t) ∧
    (viewOk w = true → bit (w.getD 0 0) 0 = true → (s.view v).state ≠ 0 →
      Completes (.fgdApply m) s fun t =>
        t.view v = { s.view v with pendW := some w } ∧ (∀ j, j ≠ v → t.view j = s.view j) ∧ regsBut [] s t) ∧
    (viewOk w = true → bit (w.getD 0 0) 0 = false →
      Completes (.fgdApply m) s fun t =>
        (t.view v).state = 0 ∧ (t.view v).w = w ∧ (t.view v).rseq = (s.view v).rseq ∧ (∀ j, j ≠ v → t.view j = s.view j) ∧ regsBut [] s t) ∧
    (viewOk w = false →
      Completes (.fgdApply m) s fun t =>
        t.fgd = s.fgd ∧ t.rd Reg.FGD_REJ = evtNext (s.rd Reg.FGD_REJ) ∧ regsBut [Reg.FGD_REJ] s t)) ∧
  (∀ m s v, s.admits m Reg.FGD_CMD = true → v = s.rf (bankKey m Reg.FGD_SEL) 0 6 → (s.view v).pendW = none →
    Completes (.fgdLoad m) s fun t =>
      (∀ k, k < 8 → t.rd (bankKey m (Reg.FGD_VCFG0 + 4 * k)) = (s.view v).w.getD k 0) ∧ t.fgd = s.fgd ∧
      regsBut ((List.range 8).map (fun k => bankKey m (Reg.FGD_VCFG0 + 4 * k))) s t) ∧
  (∀ v s, v < 64 → (s.view v).state = 1 → (s.view v).video = none → (s.view v).pendW = none →
    Presents (.fgdDeadline v) s fun u =>
      (u.view v).state = 2 ∧ (u.view v).next = (s.view v).deadline + (s.view v).period ∧ (u.view v).lastFresh = (s.view v).lastFresh ∧
      u.rd (itemKey v Reg.FGD_STALE_EVT) = evtNext (s.rd (itemKey v Reg.FGD_STALE_EVT)) ∧
      bit (u.rd (itemKey v Reg.FGD_LAST_STATUS)) 10 = true ∧ u.rb (Reg.INT_RAW (pageBase .fgd 0)) Irq.FGD_STALE = true) ∧
  (∀ v s, v < 64 → (s.view v).state ≠ 1 → s.inj = [] → Completes (.fgdDeadline v) s fun t => t = s) ∧
  (∀ v s, v < 64 → (s.view v).state = 2 →
    Presents (.fgdStaleRepeat v) s fun u =>
      (u.view v).state = 2 ∧ (u.view v).next = (s.view v).next + (s.view v).period ∧
      u.rd (itemKey v Reg.FGD_STALE_EVT) = s.rd (itemKey v Reg.FGD_STALE_EVT) ∧ bit (u.rd (itemKey v Reg.FGD_LAST_STATUS)) 10 = true)

/-- R163-R171, Tables 6-2 to 6-6a. The admission exchange: a PROOF for the challenge in force goes to the Vault, another is counted stale, a
malformed one bad; a REQUEST, a period, a retry or a READMIT starts an exchange; a challenge unanswered is repeated, and after the last
attempt the port is FLAGGED or BLOCKED by policy; a verified PROOF of an enrolled key admits its head; a signed VERDICT is sent; HEAD_EN
brings the port to DOWN and its absence to OFF. The choices of the model in log entry 34 enter here; for that no rule is cited. Each
clause concludes that exec answers the next state described, for every state and operands that meet its hypotheses. -/
def Obligations.AdmissionExchangeFollowsItsTable : Prop :=
  (∀ p b s, p < 8 → s.inj = [] →
    (hadBad b 2 254 = false → s.hadState p = 2 ∨ s.hadState p = 4 → (s.hport p).nonce = some ((b.drop 6).take 16) →
      Completes (.proofRx p b) s fun t =>
        (t.hport p).proofs.length = (s.hport p).proofs.length + 1 ∧ (t.hport p).proofs.take (s.hport p).proofs.length = (s.hport p).proofs ∧
        ((t.hport p).proofs.getLast?.map Proof.key) = some ((b.drop 38).take 57) ∧
        t.vlt.ops.any (fun o => o.ofPort VOp.proof p) = true ∧ t.regs = s.regs) ∧
    (hadBad b 2 254 = false → (s.hport p).nonce ≠ some ((b.drop 6).take 16) →
      Completes (.proofRx p b) s fun t =>
        t.had = s.had ∧ t.rd Reg.HAD_STALE_MSG = evtNext (s.rd Reg.HAD_STALE_MSG) ∧ regsBut [Reg.HAD_STALE_MSG] s t) ∧
    (hadBad b 2 254 = true →
      Completes (.proofRx p b) s fun t =>
        t.had = s.had ∧ t.rd Reg.HAD_BAD_MSG = evtNext (s.rd Reg.HAD_BAD_MSG) ∧ regsBut [Reg.HAD_BAD_MSG] s t)) ∧
  (∀ p b s, p < 8 → hadBad b 4 6 = false → s.hadState p = 3 → (s.hport p).lastReq = none → s.vltOpen = true →
    Presents (.headRequestRx p b) s fun u =>
      u.hadState p = 4 ∧ u.rf (Reg.HAD_PORT_STAT p) 4 4 = 1 ∧ (u.hport p).lastReq = some s.now ∧ (u.hport p).reason = 4 ∧
      u.inj.length = s.inj.length + 1 ∧ u.hadIndex p = s.hadIndex p ∧ regsBut [Reg.HAD_PORT_STAT p] s u) ∧
  (∀ p s, p < 8 → s.hadState p = 3 → s.vltOpen = true →
    Presents (.hadPeriod p) s fun u =>
      u.hadState p = 4 ∧ (u.hport p).reason = 1 ∧ u.inj.length = s.inj.length + 1 ∧ regsBut [Reg.HAD_PORT_STAT p] s u) ∧
  (∀ p s, p < 8 → s.hadState p = 5 ∨ s.hadState p = 6 → s.vltOpen = true →
    Presents (.hadRetryTimeout p) s fun u =>
      u.hadState p = 2 ∧ (u.hport p).reason = (s.hport p).reason ∧ u.inj.length = s.inj.length + 1 ∧ regsBut [Reg.HAD_PORT_STAT p] s u) ∧
  (∀ p s, p < 8 → s.hadState p = 2 ∨ s.hadState p = 4 → s.vltOpen = true → s.rf (Reg.HAD_PORT_STAT p) 4 4 < s.rf Reg.HAD_CFG 24 4 →
    Presents (.hadRespTimeout p) s fun u =>
      u.hadState p = s.hadState p ∧ u.rf (Reg.HAD_PORT_STAT p) 4 4 = s.rf (Reg.HAD_PORT_STAT p) 4 4 + 1 ∧
      u.inj.length = s.inj.length + 1 ∧ regsBut [Reg.HAD_PORT_STAT p] s u) ∧
  (∀ p s, p < 8 → s.inj = [] → s.vltCalm = true → s.hadState p = 2 ∨ s.hadState p = 4 → s.rf Reg.HAD_CFG 24 4 ≤ s.rf (Reg.HAD_PORT_STAT p) 4 4 →
    Completes (.hadRespTimeout p) s fun t =>
      t.hadState p = (if s.hadBlock then 6 else 5) ∧ t.hadIndex p = none ∧ (t.hport p).nonce = none ∧
      t.rd Reg.HAD_NO_RESP = evtNext (s.rd Reg.HAD_NO_RESP) ∧
      regsBut [Reg.HAD_PORT_STAT p, Reg.HAD_NO_RESP, Reg.INT_RAW (pageBase .had 0)] s t) ∧
  (∀ p s r q i, p < 8 → s.inj = [] → s.vltCalm = true → s.hadFront VOp.proof p = true → (s.hport p).proofs = r :: q → s.hadState p = 2 → s.vltOpen = true → s.hadFind r.key = some i →
    i < 64 → s.headPresent i = false → s.rf (Reg.HAD_PORT_STAT p) 4 4 = s.rf Reg.HAD_CFG 24 4 →
    Completes (.proofVerified p none) s fun t =>
      t.hadState p = (if Config.ed448Verify r.key (ascii "HAX-PROOF") r.msg r.sig then 3 else if s.hadBlock then 6 else 5) ∧
      t.hadIndex p = (if Config.ed448Verify r.key (ascii "HAX-PROOF") r.msg r.sig then some i else none) ∧
      (Config.ed448Verify r.key (ascii "HAX-PROOF") r.msg r.sig = true →
        (t.head i).lastPort = p ∧ (t.head i).admits = evtNext (s.head i).admits ∧
        (t.hport p).verdicts.length = (s.hport p).verdicts.length + 1 ∧ (t.had.saved.any (fun x => decide (x.1 = i))) = true)) ∧
  (∀ p s, s.inj = [] → s.hadFront VOp.proof p = false → (s.vlt.ops.head?.map VltOp.aborted).getD false = false →
    Completes (.proofVerified p none) s fun t => t = s) ∧
  (∀ p s v q, p < 8 → s.vltCalm = true → s.hadFront VOp.verdict p = true → (s.hport p).verdicts = v :: q → s.vltOpen = true →
    Presents (.verdictSigned p) s fun u => (u.hport p).verdicts = q ∧ u.vlt.ops = s.vlt.ops.tail ∧ u.inj.length = s.inj.length + 1 ∧ u.regs = s.regs) ∧
  (∀ m p v s, p < 8 → s.inj = [] → s.vltCalm = true → s.admits m (Reg.HAD_PORT_CFG p) = true → s.portUp p = false → bit v 0 ≠ s.rb (Reg.HAD_PORT_CFG p) 0 →
    Completes (.headEnWrite m p v) s fun t =>
      t.rb (Reg.HAD_PORT_CFG p) 0 = bit v 0 ∧ t.hadState p = b2n (bit v 0) ∧ (bit v 0 = false → t.hadIndex p = none) ∧
      regsBut [Reg.HAD_PORT_CFG p, Reg.HAD_PORT_STAT p] s t) ∧
  (∀ p n s o q, p < 8 → n < 256 → s.inj = [] → s.vlt.vstate = 1 → s.vlt.ops = o :: q → o.ofPort VOp.proof p = true → o.alarms = 0 → o.res = none →
    s.vlt.glitches = [] → 2 ≤ s.rf Reg.VLT_CFG 8 4 →
    Completes (.proofVerified p (some n)) s fun t =>
      t.vlt.ops = { o with alarms := 1 } :: q ∧ t.had = s.had ∧ t.rd Reg.VLT_GLITCH = evtNext (s.rd Reg.VLT_GLITCH) ∧
      t.rb (Reg.INT_RAW (pageBase .vlt 0)) Irq.VLT_GLITCH = true)

/-- R163, R164, R173, R174, Table 6-14. Roster and life records: ENROL takes a port's candidate into a free index, RETIRE ends an entry, both
for master 3 only; READ and READ_LIFE answer the entry; READMIT starts an exchange; a minute of ADMITTED is counted in the head's life
record, and every hour its life sum is computed anew. The choices of the model in log entry 34 enter here; for that no rule is cited. Each
clause concludes that exec answers the next state described, for every state and operands that meet its hypotheses. -/
def Obligations.RosterCommandsAndLifeRecords : Prop :=
  (∀ m i p s, s.admits m Reg.HAD_CMD = true → (s.slot (hadSlot m)).idle = true → s.svc.release = [] → s.inj = [] → i < 64 → p < 8 → m < 8 →
    (m = 3 → s.rb (Reg.HAD_PORT_CFG p) 0 = true → (s.head i).state ≠ 1 → s.hadState p < 5 →
      (s.hport p).cand.any (fun r => (s.hadFind r.key).isNone) = true →
      Completes (.hadEnrol m i p) s fun t =>
        (t.head i).state = 1 ∧ some (t.head i).key = (s.hport p).cand.map Proof.key ∧
        t.had.saved = Tab.set (fun _ => Head.reset) s.had.saved i (t.head i) ∧
        (t.slot (hadSlot m)).res = dataRes Code.ok [wd i] ∧ (t.slot (hadSlot m)).valid = true ∧
        (∀ j, j ≠ i → t.head j = s.head j) ∧ regsBut [] s t) ∧
    (m ≠ 3 → Completes (.hadEnrol m i p) s fun t =>
        (t.slot (hadSlot m)).res = codeRes Code.denied ∧ t.had = s.had ∧ regsBut [] s t) ∧
    (m = 3 → (List.range 8).all (fun q => !(decide (s.hadIndex q = some i) && decide (s.hadState q = 3))) = true →
      Completes (.hadRetire m i) s fun t =>
        (t.head i).state = 2 ∧ t.had.saved = Tab.set (fun _ => Head.reset) s.had.saved i (t.head i) ∧
        (t.slot (hadSlot m)).res = codeRes Code.ok ∧ (∀ j, j ≠ i → t.head j = s.head j) ∧ regsBut [] s t) ∧
    (m ≠ 3 → Completes (.hadRetire m i) s fun t =>
        (t.slot (hadSlot m)).res = codeRes Code.denied ∧ t.had = s.had ∧ regsBut [] s t) ∧
    (Completes (.hadRead m i) s fun t =>
      (t.slot (hadSlot m)).valid = true ∧ (t.slot (hadSlot m)).res.code = Code.ok ∧
      (t.slot (hadSlot m)).res.data.head? = some (wd ((s.head i).state + (s.head i).lastPort * 4 + b2n (s.headPresent i) * 32 +
        fld (s.head i).admits 0 16 * 65536)) ∧ (t.slot (hadSlot m)).res.data.length = 16 ∧ t.had = s.had ∧ regsBut [] s t) ∧
    (Completes (.hadReadLife m i) s fun t =>
      (t.slot (hadSlot m)).res = dataRes Code.ok [wd (s.head i).life.on, wd (s.head i).life.hot, wd (s.head i).life.cycles,
        wd (s.head i).life.heater, wd (s.head i).life.onBase, wd (s.head i).life.observed, s.lifeWord (s.head i).life] ∧
      t.had = s.had ∧ regsBut [] s t)) ∧
  (∀ m p s, s.admits m Reg.HAD_CMD = true → (s.slot (hadSlot m)).idle = true → s.svc.release = [] → p < 8 → m < 8 →
    s.rb (Reg.HAD_PORT_CFG p) 0 = true → s.hadState p = 3 → s.vltOpen = true →
    Presents (.hadReadmit m p) s fun u =>
      u.hadState p = 4 ∧ (u.hport p).reason = 3 ∧ (u.slot (hadSlot m)).res = codeRes Code.ok ∧ u.inj.length = s.inj.length + 1 ∧
      regsBut [Reg.HAD_PORT_STAT p] s u) ∧
  (∀ p s i, p < 8 → s.hadState p = 3 → s.hadIndex p = some i →
    Completes (.observedMinute p) s fun t =>
      (t.head i).life = { (s.head i).life with observed := min ((s.head i).life.observed + 1) 0xFFFFFFFF } ∧
      (∀ j, j ≠ i → t.head j = s.head j) ∧ t.regs = s.regs) ∧
  (∀ p s i, p < 8 → s.hadState p = 3 → s.hadIndex p = some i →
    Completes (.lifeRecordTimer p) s fun t =>
      (t.head i).life.ppm = s.lifePpm (s.head i).life ∧ t.had.saved = Tab.set (fun _ => Head.reset) s.had.saved i (t.head i) ∧ (t.head i).life.on = (s.head i).life.on ∧
      t.rb (Reg.HAD_PORT_STAT p) 16 = s.lifeWarn (s.lifePpm (s.head i).life) ∧
      t.rb (Reg.HAD_PORT_STAT p) 17 = decide (1000000 ≤ s.lifePpm (s.head i).life) ∧ t.hadState p = 3 ∧
      regsBut [Reg.HAD_PORT_STAT p, Reg.INT_RAW (pageBase .had 0)] s t)

/-- R194-R197, R204, Table 7-2. The link of an Ethernet port: link-up from training waits LINK_HOLD in HOLD and enters UP; link-down, a
RETRAIN or a change of RATE takes it DOWN, counted, and a port that may run trains again; a training timeout is counted. The choices of
the model in log entry 37 enter here; for that no rule is cited. Each clause concludes that exec answers the next state described, for
every state and operands that meet its hypotheses. -/
def Obligations.LinksFollowTheirStateMachine : Prop :=
  (∀ p s, p < 23 → s.lstate p = 1 → s.rf (Reg.EPT_CFG p) 8 8 ≠ 0 → s.inj = [] →
    Completes (.linkPcsUp p) s fun t => t.lstate p = 2 ∧ (∀ q, q ≠ p → t.eport q = s.eport q) ∧ t.regs = s.regs) ∧
  (∀ p s, p < 23 → s.lstate p = 1 → s.rf (Reg.EPT_CFG p) 8 8 = 0 →
    Presents (.linkPcsUp p) s fun u => u.lstate p = 3 ∧ u.rb (Reg.INT_RAW (pageBase .ept p)) Irq.EPT_LINK_UP = true) ∧
  (∀ p s, p < 23 → s.lstate p = 2 →
    Presents (.linkHoldExpire p) s fun u =>
      u.lstate p = 3 ∧ u.rb (Reg.INT_RAW (pageBase .ept p)) Irq.EPT_LINK_UP = true ∧ (∀ q, q ≠ p → u.eport q = s.eport q)) ∧
  (∀ p s, p < 23 → s.lstate p = 2 → s.inj = [] →
    Completes (.linkPcsDown p) s fun t => t.lstate p = 1 ∧ (t.eport p).taps = s.tapsNext p ∧ (∀ q, q ≠ p → t.eport q = s.eport q) ∧ t.regs = s.regs) ∧
  (∀ p s, p < 23 → s.lstate p = 3 →
    Presents (.linkPcsDown p) s fun u =>
      u.lstate p = (if s.laneOn p then 1 else 0) ∧ (s.laneOn p = true → (u.eport p).taps = s.tapsNext p) ∧
      u.rd (Reg.EPT_LINK_DOWN p) = evtNext (s.rd (Reg.EPT_LINK_DOWN p)) ∧ u.rb (Reg.INT_RAW (pageBase .ept p)) Irq.EPT_LINK_DOWN = true ∧ (u.eg p).tx = none ∧ (u.eg p).susp = none ∧
      u.arrival p false = none ∧ u.arrival p true = none ∧ u.preemptActive p = false ∧ u.paused p = false) ∧
  (∀ p s, p < 23 → s.lstate p = 1 →
    Completes (.trainTimeout p) s fun t =>
      t.rd (Reg.EPT_TRAIN_FAIL p) = evtNext (s.rd (Reg.EPT_TRAIN_FAIL p)) ∧ t.eport p = { s.eport p with taps := s.tapsNext p } ∧
      (∀ q, q ≠ p → t.eport q = s.eport q) ∧
      t.rb (Reg.INT_RAW (pageBase .ept p)) Irq.EPT_TRAIN_FAIL = true ∧
      regsBut [Reg.EPT_TRAIN_FAIL p, Reg.INT_RAW (pageBase .ept p)] s t) ∧
  (∀ m p v s, p < 23 → s.inj = [] → s.admits m (Reg.EPT_CFG p) = true → s.lstate p ≠ 3 →
    Completes (.eptCfgWrite m p v) s fun t =>
      t.rf (Reg.EPT_CFG p) 0 2 = rateStored p (fld v 0 2) ∧ t.rf (Reg.EPT_CFG p) 8 8 = fld v 8 8 ∧
      (p < 16 → t.rb (Reg.EPT_CFG p) 4 = bit v 4) ∧ t.ept = s.ept ∧ regsBut [Reg.EPT_CFG p] s t) ∧
  (∀ m p v s, p < 23 → s.admits m (Reg.EPT_CFG p) = true → s.lstate p = 3 → rateStored p (fld v 0 2) ≠ s.rf (Reg.EPT_CFG p) 0 2 →
    Presents (.eptCfgWrite m p v) s fun u =>
      u.rf (Reg.EPT_CFG p) 0 2 = rateStored p (fld v 0 2) ∧ u.lstate p = (if s.laneOn p then 1 else 0) ∧
      u.rd (Reg.EPT_LINK_DOWN p) = evtNext (s.rd (Reg.EPT_LINK_DOWN p))) ∧
  (∀ m p s, p < 23 → s.admits m (Reg.EPT_CMD p) = true → s.lstate p = 3 →
    Presents (.retrain m p) s fun u =>
      u.lstate p = (if s.laneOn p then 1 else 0) ∧ u.rd (Reg.EPT_LINK_DOWN p) = evtNext (s.rd (Reg.EPT_LINK_DOWN p))) ∧
  (∀ p s, 20 ≤ p → p < 23 → s.rf (Reg.EPT_CFG p) 0 2 ≠ 0 →
    Completes (.hiBer p) s fun t =>
      t.rd (Reg.EPT_HI_BER p) = evtNext (s.rd (Reg.EPT_HI_BER p)) ∧ t.ept = s.ept ∧
      regsBut [Reg.EPT_HI_BER p, Reg.INT_RAW (pageBase .ept p)] s t)

/-- R198, R203. 10BASE-T1S: activity is captured; a lost beacon takes a non-coordinator to CSMA/CD, counted, and a beacon returns it; a
collision starts the transmission again, counted, and the 16th drops the frame. R200-R202. TC10 on the GT ports: SLEEP sends a sleep
request, one from the partner is acknowledged while nothing stands against it and else counted; the agreed sleep puts the port in SLEEP;
no acknowledge ends the handshake, counted; WAKE sends a WUP in SLEEP, which the port leaves, and a WUR in UP; a detected wake is captured
and counted. The choices of the model in log entries 37, 38 enter here; for those no rule is cited. Each clause concludes that exec
answers the next state described, for every state and operands that meet its hypotheses. -/
def Obligations.MultidropAndSleepHandshakes : Prop :=
  ((∀ p s, 16 ≤ p → p < 20 →
    Completes (.sdActivity p) s fun t => t.rd (Reg.EPT_WAKE_CAP p) = s.rd (Reg.EPT_WAKE_CAP p) ||| 4 ∧ regsBut [Reg.EPT_WAKE_CAP p] s t) ∧
  (∀ p s, 16 ≤ p → p < 20 → s.plcaActive p = true → s.rf (Reg.EPT_PLCA p) 8 4 ≠ 0 →
    Completes (.plcaBeaconTimeout p) s fun t =>
      t.plcaActive p = false ∧ (t.eport p).fallback = true ∧ t.lstate p = s.lstate p ∧
      t.rd (Reg.EPT_PLCA_ERR p) = evtNext (s.rd (Reg.EPT_PLCA_ERR p)) ∧
      t.rb (Reg.INT_RAW (pageBase .ept p)) Irq.EPT_PLCA_ERR = true ∧ regsBut [Reg.EPT_PLCA_ERR p, Reg.INT_RAW (pageBase .ept p)] s t) ∧
  (∀ p s, 16 ≤ p → p < 20 →
    Completes (.plcaBeaconRx p) s fun t => t.eport p = { s.eport p with fallback := false } ∧ (∀ q, q ≠ p → t.eport q = s.eport q) ∧ t.regs = s.regs) ∧
  (∀ p s x, 16 ≤ p → p < 20 → (s.eg p).tx = some x → (s.eport p).coll < 15 →
    Completes (.sdCollision p) s fun t =>
      (t.eport p).coll = (s.eport p).coll + 1 ∧ t.out = s.out ++ [.frameStart p x.bytes] ∧ t.egr = s.egr ∧
      t.rd (Reg.EPT_COLL p) = evtNext (s.rd (Reg.EPT_COLL p)) ∧ regsBut [Reg.EPT_COLL p] s t) ∧
  (∀ p s x, 16 ≤ p → p < 20 → (s.eg p).tx = some x → (s.eport p).coll = 15 →
    Completes (.sdCollision p) s fun t =>
      (t.eport p).coll = 0 ∧ (t.eg p).tx = none ∧ t.rd (Reg.EPT_COLL p) = evtNext (s.rd (Reg.EPT_COLL p)) ∧
      t.rd (Reg.EPT_COLL_DROP p) = evtNext (s.rd (Reg.EPT_COLL_DROP p)))) ∧
  ((∀ m p s, 8 ≤ p → p < 16 → s.admits m (Reg.EPT_CMD p) = true → s.lstate p = 3 → (s.eport p).shaking = false →
    Completes (.eptSleep m p) s fun t =>
      t.eport p = { s.eport p with shaking := true } ∧ Output.tc10 p 3 ∈ t.out ∧ (∀ q, q ≠ p → t.eport q = s.eport q) ∧ regsBut [] s t) ∧
  (∀ p s, 8 ≤ p → p < 16 → s.lstate p = 3 → s.rb (Reg.EPT_TC10 p) 0 = true → (∀ k, k < 8 → s.queue (8 * p + k) = []) →
    s.portResv p = [] →
    Completes (.tc10SleepReqRx p) s fun t =>
      t.eport p = { s.eport p with shaking := true } ∧ Output.tc10 p 4 ∈ t.out ∧
      t.rb (Reg.INT_RAW (pageBase .ept p)) Irq.EPT_SLEEP_RX = true ∧ regsBut [Reg.INT_RAW (pageBase .ept p)] s t) ∧
  (∀ p s, 8 ≤ p → p < 16 → s.lstate p = 3 → s.rb (Reg.EPT_TC10 p) 0 = false →
    Completes (.tc10SleepReqRx p) s fun t =>
      t.ept = s.ept ∧ t.rd (Reg.EPT_TC10_REJ p) = evtNext (s.rd (Reg.EPT_TC10_REJ p)) ∧
      regsBut [Reg.EPT_TC10_REJ p, Reg.INT_RAW (pageBase .ept p)] s t) ∧
  (∀ p s, 8 ≤ p → p < 16 → s.lstate p = 3 → (s.eport p).shaking = true →
    Presents (.tc10SleepAgreed p) s fun u =>
      u.lstate p = 4 ∧ (u.eport p).shaking = false ∧ u.rb (Reg.INT_RAW (pageBase .ept p)) Irq.EPT_SLEPT = true ∧ (u.eg p).tx = none ∧
      u.rd (Reg.EPT_LINK_DOWN p) = s.rd (Reg.EPT_LINK_DOWN p)) ∧
  (∀ p s, 8 ≤ p → p < 16 → s.lstate p = 3 → (s.eport p).shaking = true →
    Completes (.tc10SleepTimeout p) s fun t =>
      t.lstate p = 3 ∧ (t.eport p).shaking = false ∧ t.rd (Reg.EPT_TC10_REJ p) = evtNext (s.rd (Reg.EPT_TC10_REJ p)) ∧
      regsBut [Reg.EPT_TC10_REJ p] s t) ∧
  (∀ m p s, 8 ≤ p → p < 16 → s.admits m (Reg.EPT_CMD p) = true → s.lstate p = 4 →
    Completes (.eptWake m p) s fun t =>
      t.lstate p = (if s.laneOn p then 1 else 0) ∧ Output.tc10 p 1 ∈ t.out ∧ regsBut [] s t) ∧
  (∀ m p s, 8 ≤ p → p < 16 → s.admits m (Reg.EPT_CMD p) = true → s.lstate p = 3 →
    Completes (.eptWake m p) s fun t => t.ept = s.ept ∧ Output.tc10 p 2 ∈ t.out ∧ regsBut [] s t) ∧
  (∀ p wur s, 8 ≤ p → p < 16 → s.lstate p = (if wur then 3 else 4) → s.rb (Reg.EPT_TC10 p) (if wur then 2 else 1) = true →
    s.rb (Reg.EPT_TC10 p) 3 = false →
    Completes (.tc10WakeDetect p wur) s fun t =>
      t.rb (Reg.EPT_WAKE_CAP p) (if wur then 1 else 0) = true ∧ t.rd (Reg.EPT_TC10_WAKE p) = evtNext (s.rd (Reg.EPT_TC10_WAKE p)) ∧
      t.lstate p = (if wur then 3 else if s.laneOn p then 1 else 0) ∧ (t.eport p).shaking = false ∧
      t.rb (Reg.INT_RAW (pageBase .ept p)) Irq.EPT_WAKE = true ∧
      regsBut [Reg.EPT_WAKE_CAP p, Reg.EPT_TC10_WAKE p, Reg.INT_RAW (pageBase .ept p)] s t))

/-- R197, R208, R213. HIF_CFG: while a ring is enabled a change of DMA_PORT is counted and not made; otherwise DMA_PORT moves the lane.
RING_ENABLE of a ring takes its BASE, SIZE and VECTOR with HEAD and TAIL 0, RING_DISABLE stops it; the loss of bus mastering stops every
ring with its error. R206-R212, R216. A doorbell write of a value below the size moves TAIL of an enabled ring, any other is counted; a
transmit frame is counted and completes its descriptors, a chain of more than four completes them without a frame; the record at the front
of a receive FIFO completes the descriptor at HEAD, a buffer below 64 bytes stops the ring; a ring's message goes out, or waits while
masked. Port 23's rings (R444, R445) do the same through the cluster's memory, without the host's counters. The choices of the model in
log entries 39, 40, 95 enter here; for those no rule is cited. Each clause concludes that exec answers the next state described, for every
state and operands that meet its hypotheses. -/
def Obligations.HostRingsRun : Prop :=
  ((∀ m v s, s.inj = [] → s.admits m Reg.HIF_CFG = true → fld v 0 2 ≠ s.rf Reg.HIF_CFG 0 2 → s.anyRing = true →
    Completes (.hifDmaPortWrite m v) s fun t =>
      t.rf Reg.HIF_CFG 0 2 = s.rf Reg.HIF_CFG 0 2 ∧ t.rb Reg.HIF_CFG 4 = bit v 4 ∧ t.rb Reg.HIF_CFG 8 = bit v 8 ∧
      t.rd Reg.HIF_CFG_REJ = evtNext (s.rd Reg.HIF_CFG_REJ) ∧ t.ept = s.ept ∧ regsBut [Reg.HIF_CFG, Reg.HIF_CFG_REJ] s t) ∧
  (∀ m v s, s.admits m Reg.HIF_CFG = true → s.rf Reg.HIF_CFG 0 2 = 0 → fld v 0 2 = 1 → s.anyRing = false →
    Presents (.hifDmaPortWrite m v) s fun u =>
      u.rf Reg.HIF_CFG 0 2 = 1 ∧ u.dmaPort 20 = true ∧ u.lstate 20 = 0 ∧ u.rd Reg.HIF_CFG_REJ = s.rd Reg.HIF_CFG_REJ) ∧
  (∀ v relax s, s.rb Reg.HIF_STAT 0 = false → s.rb Reg.HIF_STAT 7 = false → bit v 8 = false →
    Completes (.dmaPortStatus v relax) s fun t =>
      t.rd Reg.HIF_STAT = wd (fld v 0 9) ∧ t.hif = { s.hif with relax := relax } ∧ (∀ n, t.ringOn n = s.ringOn n) ∧ regsBut [Reg.HIF_STAT] s t) ∧
  (∀ v relax s, s.rb Reg.HIF_STAT 7 = true → bit v 7 = false → bit v 0 = s.rb Reg.HIF_STAT 0 → bit v 8 = s.rb Reg.HIF_STAT 8 →
    Completes (.dmaPortStatus v relax) s fun t =>
      t.rd Reg.HIF_STAT = wd (fld v 0 9) ∧ (∀ n, n < 32 → t.ringOn n = false) ∧
      (∀ n, n < 32 → s.ringOn n = true → t.rf (Reg.RXR_STAT 0 + ringOff n) 0 4 = 3)) ∧
  (∀ m tx r v s, r < 16 → s.admits m (ringCtrl (ringNo tx r)) = true → s.ringOn (ringNo tx r) = false →
    Completes (.ringEnable m tx r v) s fun t =>
      t.ringOn (ringNo tx r) = true ∧
      t.ring (ringNo tx r) = ⟨s.rd64 (Reg.RXR_BASE_LO 0 + ringOff (ringNo tx r)) / 64 * 64,
        2 ^ s.rf (Reg.RXR_SIZE 0 + ringOff (ringNo tx r)) 0 4, fld v 8 6, 0, 0, (s.ring (ringNo tx r)).unsig⟩ ∧
      (∀ n, n ≠ ringNo tx r → t.ring n = s.ring n) ∧
      regsBut [ringCtrl (ringNo tx r), Reg.RXR_STAT 0 + ringOff (ringNo tx r)] s t) ∧
  (∀ m tx r v s, r < 16 → s.admits m (ringCtrl (ringNo tx r)) = true →
    Completes (.ringDisable m tx r v) s fun t =>
      t.ringOn (ringNo tx r) = false ∧ t.hif.rings = s.hif.rings ∧ regsBut [ringCtrl (ringNo tx r)] s t) ∧
  (∀ tx r v s, 16 ≤ r → r < 24 → s.ringMine (ringNo tx r) = true → s.ringOn (ringNo tx r) = false →
    Completes (.ringEnable 2 tx r v) s fun t =>
      t.ringOn (ringNo tx r) = true ∧
      t.ring (ringNo tx r) = ⟨s.rd64 (Reg.RXR_BASE_LO 0 + ringOff (ringNo tx r)) / 64 * 64,
        2 ^ s.rf (Reg.RXR_SIZE 0 + ringOff (ringNo tx r)) 0 4, fld v 8 6, 0, 0, (s.ring (ringNo tx r)).unsig⟩ ∧
      (∀ n, n ≠ ringNo tx r → t.ring n = s.ring n) ∧
      regsBut [ringCtrl (ringNo tx r), Reg.RXR_STAT 0 + ringOff (ringNo tx r)] s t) ∧
  (∀ tx r v s, 16 ≤ r → r < 24 → s.ringMine (ringNo tx r) = true →
    Completes (.ringDisable 2 tx r v) s fun t =>
      t.ringOn (ringNo tx r) = false ∧ t.hif.rings = s.hif.rings ∧ regsBut [ringCtrl (ringNo tx r)] s t) ∧
  (∀ tx r err k s, r < 24 → err < 16 → s.ringOn (ringNo tx r) = true →
    Completes (.dmaError tx r err k) s fun t =>
      t.ringOn (ringNo tx r) = false ∧ t.rf (Reg.RXR_STAT 0 + ringOff (ringNo tx r)) 0 4 = err ∧
      t.rd Reg.HIF_DMA_ERR = evtNext (s.rd Reg.HIF_DMA_ERR) ∧ t.rb (Reg.INT_RAW (pageBase .hif 0)) Irq.HIF_DMA_ERR = true ∧
      regsBut [ringCtrl (ringNo tx r), Reg.RXR_STAT 0 + ringOff (ringNo tx r), Reg.HIF_DMA_ERR, Reg.INT_RAW (pageBase .hif 0)] s t) ∧
  (∀ s, Completes .pcieReset s fun t =>
    (∀ n, n < 32 → t.ringOn n = false ∧ t.ring n = Ring.reset ∧ t.rd (ringCtrl n) = 0x10100) ∧
    (∀ r, r < 16 → t.txf r = TxFifo.reset) ∧ (∀ r, r < 16 → (s.rxf r).recs = [] → (s.rxf r).pend = 0 → t.rxf r = RxFifo.reset) ∧
    t.rb (Reg.INT_RAW (pageBase .hif 0)) Irq.HIF_PCIE_RESET = true ∧
    (∀ r, r < 16 → t.rd64 (Reg.RXR_FRAMES r) = s.rd64 (Reg.RXR_FRAMES r)) ∧ t.rd Reg.HIF_CFG = s.rd Reg.HIF_CFG)) ∧
  ((∀ t v s, t < 16 → s.admits 0 (pageBase .hif 0) = true → s.ringOn (16 + t) = true → fld v 0 16 < (s.ring (16 + t)).size →
    Completes (.txDb t v true) s fun u =>
      u.ring (16 + t) = { s.ring (16 + t) with tail := fld v 0 16 } ∧ (∀ n, n ≠ 16 + t → u.ring n = s.ring n) ∧ regsBut [] s u) ∧
  (∀ r v s, r < 16 → s.admits 0 (pageBase .hif 0) = true → s.ringOn r = true → fld v 0 16 < (s.ring r).size →
    Completes (.rxDb r v true) s fun u =>
      u.ring r = { s.ring r with tail := fld v 0 16 } ∧ (∀ n, n ≠ r → u.ring n = s.ring n) ∧ regsBut [] s u) ∧
  (∀ r v full s, r < 16 → s.admits 0 (pageBase .hif 0) = true → (full = false ∨ s.ringOn r = false ∨ (s.ring r).size ≤ fld v 0 16) →
    Completes (.rxDb r v full) s fun u =>
      u.hif.rings = s.hif.rings ∧ u.rd Reg.HIF_DB_ERR = evtNext (s.rd Reg.HIF_DB_ERR) ∧
      regsBut [Reg.HIF_DB_ERR, Reg.INT_RAW (pageBase .hif 0)] s u) ∧
  (∀ r v s, r < 16 → s.admits 0 (pageBase .hif 0) = false →
    Completes (.rxDb r v true) s fun u => u.hif.rings = s.hif.rings ∧ u.rd Reg.HIF_DB_ERR = s.rd Reg.HIF_DB_ERR ∧ u.bsn = s.bsn) ∧
  (∀ r v s, 16 ≤ r → r < 24 → s.ringMine (16 + r) = true → s.ringMine (32 + r) = true → fld v 0 16 < (s.ring (16 + r)).size → fld v 0 16 < (s.ring (32 + r)).size →
    (s.ringOn (16 + r) = true → Completes (.rxDb r v true) s fun u =>
      u.ring (16 + r) = { s.ring (16 + r) with tail := fld v 0 16 } ∧ (∀ n, n ≠ 16 + r → u.ring n = s.ring n) ∧ regsBut [] s u) ∧
    (s.ringOn (32 + r) = true → Completes (.txDb r v true) s fun u =>
      u.ring (32 + r) = { s.ring (32 + r) with tail := fld v 0 16 } ∧ (∀ n, n ≠ 32 + r → u.ring n = s.ring n) ∧ regsBut [] s u)) ∧
  (∀ t lens b s p ready bus, t < 16 → s.txTurn t ready = true → s.ringOn (16 + t) = true → lens ≠ [] → lens.length ≤ 4 → lens.length ≤ (s.ring (16 + t)).owned →
    0 < (s.ring (16 + t)).size → lens.all (fun l => decide (0 < l) && decide (l ≤ 9216)) = true →
    max 60 (sumN lens) + 4 ≤ s.maxLen → s.ringPort = some p → s.receives p = true →
    Presents (.hifTxStart t lens true b false ready bus) s fun u =>
      (u.ring (16 + t)).head = ((s.ring (16 + t)).head + lens.length) % (s.ring (16 + t)).size ∧
      (u.ring (16 + t)).tail = (s.ring (16 + t)).tail ∧
      u.rd64 (Reg.TXR_FRAMES t) = (s.stat (Reg.TXR_FRAMES t) 1).rd64 (Reg.TXR_FRAMES t)) ∧
  (∀ t lens b s ready bus, 16 ≤ t → t < 24 → s.txTurn t ready = true → s.ringOn (32 + t) = true → lens ≠ [] → lens.length ≤ 4 →
    lens.length ≤ (s.ring (32 + t)).owned → 0 < (s.ring (32 + t)).size → lens.all (fun l => decide (0 < l) && decide (l ≤ 9216)) = true →
    max 60 (sumN lens) + 4 ≤ s.maxLen → s.receives 23 = true →
    Presents (.hifTxStart t lens true b false ready bus) s fun u =>
      (u.ring (32 + t)).head = ((s.ring (32 + t)).head + lens.length) % (s.ring (32 + t)).size ∧ (u.ring (32 + t)).tail = (s.ring (32 + t)).tail ∧
      Tab.get (fun _ => 15) u.hif.lastTx (s.txLevel t) = t) ∧
  (∀ t lens eop b under s ready bus, t < 24 → s.ringOn (ringNo true t) = true → 5 ≤ lens.length → lens.length ≤ (s.ring (ringNo true t)).owned →
    0 < (s.ring (ringNo true t)).size → s.inj = [] →
    Completes (.hifTxStart t lens eop b under ready bus) s fun u =>
      (u.ring (ringNo true t)).head = ((s.ring (ringNo true t)).head + lens.length) % (s.ring (ringNo true t)).size ∧ u.bsn = s.bsn ∧ u.regs = s.regs) ∧
  (∀ r buf addr s x l, r < 16 → (s.rxf r).recs = x :: l → x.committed = true → s.ringOn r = true → (s.ring r).owned ≠ 0 → 64 ≤ buf →
    bit x.w0 18 = false →
    Completes (.rxDescComplete r buf addr) s fun t =>
      (t.rxf r).recs = l ∧ (t.ring r).head = ((s.ring r).head + 1) % (s.ring r).size ∧
      Output.hostDesc r (s.ring r).head (rxDesc x (decide (buf < x.data.length))) (x.hostData.take buf)
        (s.rb Reg.HIF_CFG 4 && s.hif.relax) ∈ t.out ∧
      t.rd64 (Reg.RXR_FRAMES r) = (s.stat (Reg.RXR_FRAMES r) 1).rd64 (Reg.RXR_FRAMES r) ∧
      regsBut [Reg.RXR_FRAMES r, Reg.RXR_FRAMES r + 4] s t) ∧
  (∀ r buf addr s x l, 16 ≤ r → r < 24 → (s.rxf r).recs = x :: l → x.committed = true → s.ringOn (16 + r) = true →
    (s.ring (16 + r)).owned ≠ 0 → 64 ≤ buf →
    Completes (.rxDescComplete r buf addr) s fun t =>
      (t.rxf r).recs = l ∧ (t.ring (16 + r)).head = ((s.ring (16 + r)).head + 1) % (s.ring (16 + r)).size ∧
      t.svc.mem = ((s.memPut addr (x.hostData.take buf)).memPut ((s.ring (16 + r)).base + 32 * (s.ring (16 + r)).head + 16)
        (rxDesc x (!bit x.w0 18 && decide (buf < x.data.length)))).svc.mem ∧ regsBut [] s t) ∧
  (∀ r buf addr s x l, r < 24 → (s.rxf r).recs = x :: l → x.committed = true → s.ringOn (ringNo false r) = true →
    (s.ring (ringNo false r)).owned ≠ 0 → buf < 64 →
    Completes (.rxDescComplete r buf addr) s fun t =>
      t.bsn = s.bsn ∧ t.ringOn (ringNo false r) = false ∧ t.rf (Reg.RXR_STAT 0 + ringOff (ringNo false r)) 0 4 = 4 ∧
      t.ring (ringNo false r) = s.ring (ringNo false r) ∧
      t.rd Reg.HIF_DMA_ERR = evtNext (s.rd Reg.HIF_DMA_ERR)) ∧
  (∀ tx r s, r < 16 → (s.ring (ringNo tx r)).unsig ≠ 0 → (s.ring (ringNo tx r)).vector < 64 →
    Completes (.msixCoalTimer tx r) s fun t =>
      t.ring (ringNo tx r) = { s.ring (ringNo tx r) with unsig := 0 } ∧ t.regs = s.regs ∧
      (s.msix.funcMask = false → bit s.msix.mask (s.ring (ringNo tx r)).vector = false →
        t.out = s.out ++ [s.msixOut (s.ring (ringNo tx r)).vector] ∧ t.msix = s.msix) ∧
      (s.msix.funcMask = true ∨ bit s.msix.mask (s.ring (ringNo tx r)).vector = true →
        t.out = s.out ∧ t.msix = { s.msix with pba := s.msix.pba ||| BitVec.ofNat 64 (2 ^ (s.ring (ringNo tx r)).vector) })) ∧
  (∀ tx r s, 16 ≤ r → r < 24 → (s.ring (ringNo tx r)).unsig ≠ 0 →
    Completes (.msixCoalTimer tx r) s fun t =>
      t.ring (ringNo tx r) = { s.ring (ringNo tx r) with unsig := 0 } ∧ t.regs = s.regs ∧ t.msix = s.msix ∧
      t.out = s.out ++ [.clusterIrq ((if tx then 121 else 113) + r)]) ∧
  (∀ s, Completes (.msixUnmask [] true) s fun t => t.msix = { s.msix with funcMask := true } ∧ t.out = s.out ∧ t.regs = s.regs) ∧
  (∀ s, Completes (.msixUnmask [] false) s fun t =>
    t.msix = { s.msix with funcMask := false, pba := s.msix.pba &&& s.msix.mask } ∧
    t.out = s.out ++ (onesOf (s.msix.pba &&& ~~~s.msix.mask).toNat 64).map s.msixOut ∧ t.regs = s.regs) ∧
  (∀ k v func s, k < 256 → Completes (.msixUnmask [(true, 0x1000 + 4 * k, 4, v)] func) s fun t =>
    t.msixRead k = (if k % 4 = 3 then wd (b2n (bit v 0)) else v.truncate 32) ∧ (∀ j, j ≠ k → t.msixRead j = s.msixRead j) ∧ t.regs = s.regs) ∧
  (∀ off v func s, 0x1000 ≤ off → off < 0x1808 → off % 4 = 0 →
    Completes (.msixUnmask [(false, off, 4, v)] func) s fun t => Output.bar4 off 4 (BitVec.ofNat 64 (s.bar4Word off).toNat) ∈ t.out ∧ t.regs = s.regs))

/-- R217, R218, Table 7-7. The QSPI target: a WRITE of good format and CRC writes its words at ascending addresses as master 1, one whose CRC
fails is not performed, and counted; a READ answers the token, the words, STATUS and the CRC; STATUS answers and clears its byte. The
choices of the model in log entry 41 enter here; for that no rule is cited. Each clause concludes that exec answers the next state
described, for every state and operands that meet its hypotheses. -/
def Obligations.QspiTransactionsServed : Prop :=
  (∀ (s : State) a l b, s.qspiOn = true → a < 2 ^ 32 → 1 ≤ l.length → l.length ≤ 64 →
    b = [0x02] ++ toBE 4 a ++ toBE 1 (l.length - 1) ++ bytesBE l →
    Presents (.qspiWrite (b ++ toBE 2 (crc16 b))) s fun u => u = (s.violClear.writeWords 1 a l).qspiNote) ∧
  (∀ (s : State) a v b, s.qspiOn = true → s.inj = [] → a < 2 ^ 32 → plainReg a = true → s.admits 1 a = true →
    b = [0x02] ++ toBE 4 a ++ [0] ++ bytesBE [v] →
    Completes (.qspiWrite (b ++ toBE 2 (crc16 b))) s fun t =>
      t.rd a = written a (s.rd a) v ∧ t.hif.qspi = s.hif.qspi ∧ regsBut [a] s t) ∧
  (∀ (s : State) a l b c, s.qspiOn = true → s.inj = [] → a < 2 ^ 32 → 1 ≤ l.length → l.length ≤ 64 →
    b = [0x02] ++ toBE 4 a ++ toBE 1 (l.length - 1) ++ bytesBE l → c < 65536 → c ≠ crc16 b →
    Completes (.qspiWrite (b ++ toBE 2 c)) s fun t =>
      t.rd Reg.HIF_QSPI_ERR = evtNext (s.rd Reg.HIF_QSPI_ERR) ∧ bit t.hif.qspi 0 = true ∧
      regsBut [Reg.HIF_QSPI_ERR, Reg.INT_RAW (pageBase .hif 0)] s t) ∧
  (∀ (s : State) a b r, s.qspiOn = true → a < 2 ^ 32 → s.plainRead 1 a → b = [0x0B] ++ toBE 4 a ++ [0] →
    r = [0x5A] ++ toBE 4 (s.wordAt 1 a).toNat ++ toBE 1 s.hif.qspi.toNat →
    Completes (.qspiRead (b ++ toBE 2 (crc16 b)) false) s fun t => t.out = s.out ++ [.qspi (r ++ toBE 2 (crc16 r))] ∧ t.regs = s.regs) ∧
  (∀ (s : State), s.qspiOn = true →
    Completes .qspiStatus s fun t => t.out = s.out ++ [.qspi (toBE 1 s.hif.qspi.toNat)] ∧ t.hif = { s.hif with qspi := 0 } ∧ t.regs = s.regs)

/-- R219, R220, Table 7-8. In-band management: an authenticated request newer than the last is accepted and counted, and its sequence number
kept; a READ is answered, a WRITE writes its word as the configured master, a FENCE waits with its ticket; a request of another sequence
number is dropped as a replay, one that fails a check as unauthenticated. The choices of the model in log entry 42 enter here; for that no
rule is cited. Each clause concludes that exec answers the next state described, for every state and operands that meet its hypotheses. -/
def Obligations.InBandRequestsAuthenticated : Prop :=
  (∀ (s : State) smac vid b, s.ibmAccepts 1 b → beAt b 3 1 = 1 → s.plainRead s.ibmMaster (beAt b 14 4) →
    Presents (.ibmRead smac vid b) s fun u =>
      u.hif.ibmSeq = beAt b 6 8 ∧ u.rd64 Reg.HIF_IBM_OK = (s.stat Reg.HIF_IBM_OK 1).rd64 Reg.HIF_IBM_OK ∧
      u.inj.length = s.inj.length + 1 ∧ u.hif.ibmWait = s.hif.ibmWait) ∧
  (∀ (s : State) smac vid b, s.ibmAccepts 2 b → beAt b 3 1 = 1 → plainReg (beAt b 14 4) = true → s.admits s.ibmMaster (beAt b 14 4) = true →
    Presents (.ibmWrite smac vid b) s fun u =>
      u.hif.ibmSeq = beAt b 6 8 ∧ u.rd64 Reg.HIF_IBM_OK = (s.stat Reg.HIF_IBM_OK 1).rd64 Reg.HIF_IBM_OK ∧
      u.rd (beAt b 14 4) = written (beAt b 14 4) (s.rd (beAt b 14 4)) (wd (beAt b 20 4))) ∧
  (∀ (s : State) smac vid b, s.ibmAccepts 3 b → beAt b 3 1 = 0 → s.admits s.ibmMaster Reg.GLB_FENCE_REQ = true →
    Presents (.ibmFence smac vid b) s fun u =>
      u.hif.ibmSeq = beAt b 6 8 ∧ u.rd64 Reg.HIF_IBM_OK = (s.stat Reg.HIF_IBM_OK 1).rd64 Reg.HIF_IBM_OK ∧
      u.hif.ibmWait = s.hif.ibmWait ++
        [⟨s.ibmMaster, nextTicket (s.rf (bankKey s.ibmMaster Reg.GLB_FENCE_TICKET) 0 29), smac, vid, beAt b 6 8⟩] ∧ u.inj = s.inj) ∧
  (∀ (s : State) smac vid b, s.mgsUp = true → s.inj = [] → beAt b 0 1 = 5 → beAt b 2 1 = 1 → s.rb Reg.HIF_IBM_CFG 0 = false →
    Completes (.ibmRead smac vid b) s fun t =>
      t.rd Reg.HIF_IBM_AUTH_FAIL = evtNext (s.rd Reg.HIF_IBM_AUTH_FAIL) ∧ t.hif = s.hif ∧
      regsBut [Reg.HIF_IBM_AUTH_FAIL, Reg.INT_RAW (pageBase .hif 0)] s t)

/-- R428, R429. The Unbor monitor, while its fuse leaves it on: help and info at every level, rd, log and sens from level 1, wr and fence at
level 2 as master 4; unlock without an envelope grants level 2 on grade E2 alone; lock and the end of its minutes return it to level 0.
The choices of the model in log entry 43 enter here; for that no rule is cited. Each clause concludes that exec answers the next state
described, for every state and operands that meet its hypotheses. -/
def Obligations.UnborMonitorServesByLevel : Prop :=
  (∀ (s : State), s.mgsUp = true → Completes .unborHelp s fun t => t.out = s.out ++ (if Config.unborOff then [] else [.unbor [] [] none]) ∧ t.regs = s.regs) ∧
  (∀ (s : State), s.mgsUp = true →
    Completes .unborInfo s fun t => t.out = s.out ++ (if Config.unborOff then [] else [.unbor [s.rd Reg.GLB_CHIP_ID, wd skuGrade,
      wd (beAt s.vlt.dsn 0 4), wd (beAt s.vlt.dsn 4 4), wd s.vlt.boot, wd s.mgs.fwVer, wd s.mgs.unborLevel] [] none]) ∧ t.regs = s.regs) ∧
  (∀ (s : State), s.mgsUp = true → s.mgs.unborLevel = 0 →
    Completes (.unlock []) s fun t =>
      t.mgs.unborLevel = (if !Config.unborOff && Config.skuE2 then 2 else 0) ∧
      (Config.unborOff = false → Config.skuE2 = false → t.out = s.out ++ [.unbor [] [] (some (fld (Config.freeValue s.free) 0 8))])) ∧
  (∀ (s : State), s.mgsUp = true → 1 ≤ s.mgs.unborLevel →
    Completes .lock s fun t =>
      t.mgs.unborLevel = (if Config.unborOff then s.mgs.unborLevel else 0) ∧ (Config.unborOff = false → Output.unbor [] [] none ∈ t.out)) ∧
  (∀ (s : State) a, s.mgsUp = true → 1 ≤ s.mgs.unborLevel → s.plainRead 4 a →
    Completes (.rd a (some 1)) s fun t => t.out = s.out ++ (if Config.unborOff then [] else [.unbor [s.wordAt 4 a] [] none]) ∧ t.regs = s.regs) ∧
  (∀ (s : State) a v, s.mgsUp = true → s.mgs.unborLevel = 2 → s.inj = [] → plainReg a = true → s.admits 4 a = true →
    Completes (.wr a v) s fun t =>
      t.rd a = (if Config.unborOff then s.rd a else written a (s.rd a) v) ∧ regsBut [a] s t ∧
      (Config.unborOff = false → Output.unbor [] [] none ∈ t.out)) ∧
  (∀ (s : State) n, s.mgsUp = true → 1 ≤ s.mgs.unborLevel → (s.mgs.gen ++ s.mgs.sec).length < n →
    Completes (.log (some n)) s fun t =>
      t.out = s.out ++ (if Config.unborOff then [] else [.unbor [] ((s.mgs.gen ++ s.mgs.sec).map (fun r => r.bytes)) none]) ∧ t.regs = s.regs) ∧
  (∀ (s : State), s.mgsUp = true → 1 ≤ s.mgs.unborLevel →
    Completes .sens s fun t =>
      t.out = s.out ++ (if Config.unborOff then [] else [.unbor ((List.range 19).map (fun k => s.rd (Reg.MGS_SENS k))) [] none]) ∧
      t.regs = s.regs) ∧
  (∀ (s : State), s.mgsUp = true → s.mgs.unborLevel = 2 → s.admits 4 Reg.GLB_FENCE_REQ = true →
    Completes .fence s fun t =>
      t.mgs.unborTicket = (if Config.unborOff then s.mgs.unborTicket else nextTicket (s.rf (bankKey 4 Reg.GLB_FENCE_TICKET) 0 29)) ∧
      regsBut [bankKey 4 Reg.GLB_FENCE_TICKET] s t) ∧
  (∀ (s : State), Completes .unborExpire s fun t => t.mgs.unborLevel = 0 ∧ t.mgs.running = s.mgs.running) ∧
  (∀ (s : State) a v, s.mgsUp = true → s.mgs.unborLevel = 0 → s.inj = [] → Completes (.wr a v) s fun t => t = s)

/-- R227, R231, R232, R235, R240, R342. A valid frame on a channel that takes part in bus traffic lowers REC and, where no authenticator entry
applies, reaches the filters: what level 1 accepts goes to the receive queue; where one applies, the frame waits for its verdict, which
CAU_VERDICT gives to the oldest. R232, R234, R235. The host filters on a frame: the first enabled level-0 entry that matches holds it in
its empty buffer, and level 1 is asked only with THEN_L1 or where none matches; a full buffer and a full queue lose the frame, counted.
The choices of the model in log entry 46 enter here; for that no rule is cited. Each clause concludes that exec answers the next state
described, for every state and operands that meet its hypotheses. -/
def Obligations.CanFramesAreReceivedAndFiltered : Prop :=
  ((∀ c b s, c < 24 → s.pwr.fwdOn = true → s.pwr.canPath = true → (s.cch c).estate = 2 → (s.cch c).tec ≤ 127 → 1 ≤ (s.cch c).rec_ →
    (s.cch c).rec_ ≤ 127 → s.canHeld c = false → s.cauFind false c (s.canSeen c b) = none →
    (∀ k, k < 4 → s.l0Match c k (s.canSeen c b) = false) → s.l1Accept c (s.canSeen c b) = true → (s.cch c).rxq.length < 32 →
    Presents (.canFrameRx c b) s fun u =>
      u.cch c = { s.cch c with rec_ := (s.cch c).rec_ - 1, rxq := (s.cch c).rxq ++ [busBuffer (s.canSeen c b)] } ∧
      (∀ d, d ≠ c → u.cch d = s.cch d)) ∧
  (∀ c b s, c < 24 → s.pwr.fwdOn = true → s.pwr.canPath = true → (s.cch c).estate = 2 → (s.cch c).rec_ = 0 →
    (s.cauFind false c (s.canSeen c b)).isSome = true → s.canShadow c = false →
    Presents (.canFrameRx c b) s fun u =>
      u.can = s.can ∧ u.auth = { s.auth with waiting := s.auth.waiting ++ [(c, s.canSeen c b, s.busStamp (busWord (s.canSeen c b) 0))] }) ∧
  (∀ c b s, s.inj = [] → (s.cch c).onBus = false → Completes (.canFrameRx c b) s fun t => t = s) ∧
  (∀ c b ts l s, s.auth.waiting = (c, b, ts) :: l → Presents .cauVerdict s fun u => u.auth.waiting = l) ∧
  (∀ m c s, c < 24 → s.admits m (Reg.CAN_CMD c) = true →
    Completes (.rxqPop m c) s fun t => t.cch c = { s.cch c with rxq := (s.cch c).rxq.drop 1 } ∧ (∀ d, d ≠ c → t.cch d = s.cch d) ∧ regsBut [] s t) ∧
  (∀ m c k v s, c < 24 → k < 4 → s.admits m (Reg.CAN_L0_STAT c k) = true → bit v 0 = true →
    Completes (.l0Release m c k v) s fun t => t.rb (Reg.CAN_L0_STAT c k) 0 = false ∧ t.can = s.can ∧ regsBut [Reg.CAN_L0_STAT c k] s t) ∧
  (∀ m c k v s, c < 24 → k < 4 → s.admits m (Reg.CAN_L0_STAT c k) = true → bit v 0 = false →
    Completes (.l0Release m c k v) s fun t => t.can = s.can ∧ regsBut [] s t)) ∧
  ((∀ c k b (s : State), c < 24 → k < 4 → s.l0Match c k b = true → (∀ j, j < k → s.l0Match c j b = false) → s.rb (Reg.CAN_L0_CFG c k) 6 = false →
    s.rb (Reg.CAN_L0_STAT c k) 0 = false →
    (s.canFilter c b).rb (Reg.CAN_L0_STAT c k) 0 = true ∧ (s.canFilter c b).rd (Reg.CAN_L0_BUF0 c 0 + 0x80 * k + 4) = busWord b 1 ∧
    (s.canFilter c b).rd (Reg.CAN_L0_BUF0 c 0 + 0x80 * k + 16) = (wordsOf 16 (busData b)).getD 0 0 ∧
    (s.canFilter c b).rb (Reg.INT_RAW (pageBase .can c)) k = true ∧ (s.canFilter c b).can = s.can) ∧
  (∀ c k b (s : State), c < 24 → k < 4 → s.l0Match c k b = true → (∀ j, j < k → s.l0Match c j b = false) → s.rb (Reg.CAN_L0_CFG c k) 6 = false →
    s.rb (Reg.CAN_L0_STAT c k) 0 = true →
    (s.canFilter c b).rd (Reg.CAN_L0_LOST c k) = evtNext (s.rd (Reg.CAN_L0_LOST c k)) ∧ regsBut [Reg.CAN_L0_LOST c k] s (s.canFilter c b) ∧
    (s.canFilter c b).can = s.can) ∧
  (∀ c k b (s : State), c < 24 → k < 4 → s.l0Match c k b = true → (∀ j, j < k → s.l0Match c j b = false) → s.rb (Reg.CAN_L0_CFG c k) 6 = true →
    s.l1Accept c b = true → (s.cch c).rxq.length < 32 →
    (s.canFilter c b).cch c = { s.cch c with rxq := (s.cch c).rxq ++ [busBuffer b] } ∧
    (s.canFilter c b).rb (Reg.INT_RAW (pageBase .can c)) Irq.CAN_RXQ = true) ∧
  (∀ c b (s : State), c < 24 → (∀ k, k < 4 → s.l0Match c k b = false) → s.l1Accept c b = false → s.canFilter c b = s) ∧
  (∀ c b (s : State), c < 24 → (∀ k, k < 4 → s.l0Match c k b = false) → s.l1Accept c b = true → 32 ≤ (s.cch c).rxq.length →
    (s.canFilter c b).can = s.can ∧ (s.canFilter c b).rd (Reg.CAN_RXQ_OVF c) = evtNext (s.rd (Reg.CAN_RXQ_OVF c))))

/-- R230, R236-R240. The transmit list: a linked copy joins it; an arbitration opportunity takes the first copy in order; success counts and
ends it; an error raises TEC by 8 and lets it compete again, or ends it under ONE_SHOT; a lost arbitration is no failure; copies of age
MAXAGE leave, and TXL_FLUSH drops all but the one on the wire. The choices of the model in log entry 44 enter here; for that no rule is
cited. Each clause concludes that exec answers the next state described, for every state and operands that meet its hypotheses. -/
def Obligations.CanTransmitListSends : Prop :=
  (∀ c i k l f cp s, c < 24 → s.queue (208 + c) = (i, k) :: l → s.copyAt i k = some (f, cp) → f.bus = true → busAuth f.bytes ≠ 2 →
    s.cauFind true c f.bytes = none → s.rb Reg.TWN_BUS_MASK c = false → s.canTxForm c f.bytes = false → (s.cch c).listen = false →
    (s.cch c).level < 64 →
    Completes (.canCopyLinked c) s fun t =>
      t.queue (208 + c) = l ∧ t.cch c = { s.cch c with txl := (s.cch c).txl ++ [⟨i, k, f.bytes, s.now, 0⟩] } ∧
      (∀ d, d ≠ c → t.cch d = s.cch d) ∧ (t.copyAt i k).map (fun x => x.2.st) = some .sending ∧ t.regs = s.regs) ∧
  (∀ c i k l f cp s, c < 24 → s.queue (208 + c) = (i, k) :: l → s.copyAt i k = some (f, cp) → f.bus = true → busAuth f.bytes ≠ 2 →
    s.cauFind true c f.bytes = none → s.rb Reg.TWN_BUS_MASK c = false → s.canTxForm c f.bytes = true →
    Completes (.canCopyLinked c) s fun t =>
      t.queue (208 + c) = l ∧ t.can = s.can ∧ t.rd64 (Reg.CAN_TX_FORM c) = (s.stat (Reg.CAN_TX_FORM c) 1).rd64 (Reg.CAN_TX_FORM c)) ∧
  (∀ c s, s.canSends c → (s.cch c).wire = none → (∀ j ∈ (s.cch c).txl, s.txlOld c j = false) → (s.cch c).txl ≠ [] →
    Completes (.canArbitration c) s fun t =>
      ∃ i ∈ (s.cch c).txl, firstInOrder (s.cch c).txl i ∧
        t = s.setCch c { s.cch c with wire := some i, txl := (s.cch c).txl.filter (fun j => decide (j ≠ i)) }) ∧
  (∀ c i s, c < 24 → (s.cch c).wire = some i → (s.cch c).estate = 2 → (s.cch c).tec ≤ 128 → (s.cch c).rec_ ≤ 127 → (s.cch c).stopping = false →
    Completes (.canTxSuccess c) s fun t =>
      t.cch c = { s.cch c with wire := none, tec := (s.cch c).tec - 1 } ∧ (∀ d, d ≠ c → t.cch d = s.cch d) ∧
      t.out = s.out ++ [.canTx c ((s.cch c).wireBytes i.bytes)] ∧
      t.rd64 (Reg.CAN_TX_FRAMES c) = (s.stat (Reg.CAN_TX_FRAMES c) 1).rd64 (Reg.CAN_TX_FRAMES c)) ∧
  (∀ c ty dp arb i s, c < 24 → (s.cch c).wire = some i → (s.cch c).estate = 2 → (s.cch c).tec ≤ 119 → (s.cch c).rec_ ≤ 127 →
    (s.cch c).stopping = false → 2 ≤ ty → ty ≤ 5 → s.rb (Reg.CAN_MODE c) 3 = false → s.rf (Reg.CAN_MODE c) 8 4 = 0 →
    Completes (.canTxError c ty dp arb false) s fun t =>
      t.cch c = { s.cch c with wire := none, tec := (s.cch c).tec + 8, txl := { i with fails := i.fails + 1 } :: (s.cch c).txl } ∧
      t.rd (Reg.CAN_BIT_ERR c + 4 * (ty - 1)) = evtNext (s.rd (Reg.CAN_BIT_ERR c + 4 * (ty - 1))) ∧
      t.rd (Reg.CAN_LAST_ERR c) = wd (ty + b2n dp * 8 + 16) ∧ t.rd (Reg.CAN_LAST_ERR_ID c) = wd (busId i.bytes) ∧
      regsBut [Reg.CAN_BIT_ERR c + 4 * (ty - 1), Reg.CAN_LAST_ERR c, Reg.CAN_LAST_ERR_ID c] s t) ∧
  (∀ c dp i s, c < 24 → (s.cch c).wire = some i → (s.cch c).estate = 2 → (s.cch c).tec ≤ 119 → (s.cch c).rec_ ≤ 127 →
    (s.cch c).stopping = false → s.rb (Reg.CAN_MODE c) 3 = true →
    Completes (.canTxError c 1 dp false false) s fun t =>
      t.cch c = { s.cch c with wire := none, tec := (s.cch c).tec + 8 } ∧ t.rd (Reg.CAN_ID_COLLISION c) = evtNext (s.rd (Reg.CAN_ID_COLLISION c)) ∧
      t.rd (Reg.CAN_RETX_ABORT c) = evtNext (s.rd (Reg.CAN_RETX_ABORT c))) ∧
  (∀ c i s, c < 24 → (s.cch c).wire = some i → (s.cch c).stopping = false →
    Completes (.canArbLost c) s fun t =>
      t.cch c = { s.cch c with wire := none, txl := i :: (s.cch c).txl } ∧
      t.rd64 (Reg.CAN_TX_ARB_LOST c) = (s.stat (Reg.CAN_TX_ARB_LOST c) 1).rd64 (Reg.CAN_TX_ARB_LOST c) ∧
      regsBut [Reg.CAN_TX_ARB_LOST c, Reg.CAN_TX_ARB_LOST c + 4] s t) ∧
  (∀ c s, c < 24 →
    Completes (.txlAged c) s fun t =>
      t.cch c = { s.cch c with txl := (s.cch c).txl.filter (fun i => !s.txlOld c i) } ∧ (∀ d, d ≠ c → t.cch d = s.cch d)) ∧
  (∀ m c s, c < 24 → s.admits m (Reg.CAN_CMD c) = true →
    Completes (.txlFlush m c) s fun t => t.cch c = { s.cch c with txl := [] } ∧ (∀ d, d ≠ c → t.cch d = s.cch d))

/-- R222, R231, R240. Error confinement: an error as receiver raises REC; past 127 the channel is PASSIVE; 11 recessive bits make an
integrating channel ACTIVE, and the 128th time one that recovers from bus-off; a protocol exception makes it integrate again; RECOVER and
the delay timer start the count. LISTEN takes effect at once in CONFIG and BUS_OFF and else at bus idle, on entry flushing the list. The
choices of the model in log entries 44, 45 enter here; for those no rule is cited. Each clause concludes that exec answers the next state
described, for every state and operands that meet its hypotheses. -/
def Obligations.CanErrorConfinement : Prop :=
  (∀ c ty dp id inc s, c < 24 → (s.cch c).estate = 2 → 1 ≤ ty → ty ≤ 5 → id < 2 ^ 29 → (s.cch c).tec ≤ 127 → (s.cch c).rec_ + inc ≤ 127 →
    s.canHeld c = false →
    Completes (.canBusError c ty dp id inc) s fun t =>
      t.cch c = { s.cch c with rec_ := (s.cch c).rec_ + inc } ∧ (∀ d, d ≠ c → t.cch d = s.cch d) ∧
      t.rd (Reg.CAN_BIT_ERR c + 4 * (ty - 1)) = evtNext (s.rd (Reg.CAN_BIT_ERR c + 4 * (ty - 1))) ∧
      t.rd (Reg.CAN_LAST_ERR c) = wd (ty + b2n dp * 8) ∧ t.rd (Reg.CAN_LAST_ERR_ID c) = wd id ∧
      regsBut [Reg.CAN_BIT_ERR c + 4 * (ty - 1), Reg.CAN_LAST_ERR c, Reg.CAN_LAST_ERR_ID c] s t) ∧
  (∀ c ty dp id inc s, c < 24 → (s.cch c).estate = 2 → 127 < (s.cch c).rec_ + inc → s.canHeld c = false →
    Completes (.canBusError c ty dp id inc) s fun t =>
      t.cch c = { s.cch c with rec_ := min ((s.cch c).rec_ + inc) 255, estate := 3 } ∧
      t.rb (Reg.INT_RAW (pageBase .can c)) Irq.CAN_ERR_PASSIVE = true) ∧
  (∀ c s, (s.cch c).estate = 1 →
    Completes (.canIdleDetect c) s fun t =>
      (t.cch c).estate = (if 127 < (s.cch c).tec ∨ 127 < (s.cch c).rec_ then 3 else 2) ∧ (∀ d, d ≠ c → t.cch d = s.cch d)) ∧
  (∀ c s, (s.cch c).estate = 4 → (s.cch c).counting = true → (s.cch c).occ < 127 →
    Completes (.canIdleDetect c) s fun t => t = s.setCch c { s.cch c with occ := (s.cch c).occ + 1 }) ∧
  (∀ c s, c < 24 → (s.cch c).estate = 4 → (s.cch c).counting = true → (s.cch c).occ = 127 →
    Completes (.canIdleDetect c) s fun t =>
      t.cch c = { s.cch c with estate := 2, tec := 0, rec_ := 0, counting := false, occ := 0 } ∧
      t.rb (Reg.INT_RAW (pageBase .can c)) Irq.CAN_RECOVERED = true ∧ regsBut [Reg.INT_RAW (pageBase .can c)] s t) ∧
  (∀ c id s, c < 24 → (s.cch c).onBus = true → s.rb (Reg.CAN_MODE c) 4 = true → (s.cch c).wire = none →
    Completes (.canPex c id) s fun t =>
      t.cch c = { s.cch c with estate := 1 } ∧ t.rd (Reg.CAN_PEX c) = evtNext (s.rd (Reg.CAN_PEX c)) ∧
      t.rb (Reg.INT_RAW (pageBase .can c)) Irq.CAN_PEX = true) ∧
  (∀ c s, (s.cch c).estate = 4 → (s.cch c).counting = false → (s.cch c).delay = true →
    Completes (.canBoffDelay c) s fun t => t = s.setCch c { s.cch c with counting := true, occ := 0, delay := false }) ∧
  (∀ c s, (s.cch c).delay = false → Completes (.canBoffDelay c) s fun t => t = s) ∧
  (∀ m c s, c < 24 → s.admits m (Reg.CAN_CMD c) = true → (s.cch c).estate = 4 → (s.cch c).counting = false →
    Completes (.recover m c) s fun t =>
      t.cch c = { s.cch c with counting := true, occ := 0, delay := false } ∧ (∀ d, d ≠ c → t.cch d = s.cch d) ∧ regsBut [] s t) ∧
  (∀ m c v s, c < 24 → s.admits m (Reg.CAN_MODE c) = true → (s.cch c).estate ≠ 0 → (s.cch c).estate ≠ 4 → fld v 0 2 ≠ s.rf (Reg.CAN_MODE c) 0 2 →
    Completes (.listenWrite m c v) s fun t =>
      t.rf (Reg.CAN_MODE c) 0 2 = s.rf (Reg.CAN_MODE c) 0 2 ∧ t.rb (Reg.CAN_MODE c) 2 = bit v 2 ∧ t.rf (Reg.CAN_MODE c) 8 4 = fld v 8 4 ∧
      t.rd (Reg.CAN_CFG_ERR c) = evtNext (s.rd (Reg.CAN_CFG_ERR c)) ∧ t.can = s.can ∧ regsBut [Reg.CAN_MODE c, Reg.CAN_CFG_ERR c] s t) ∧
  (∀ m c v s, c < 24 → s.admits m (Reg.CAN_MODE c) = true → ((s.cch c).estate = 0 ∨ (s.cch c).estate = 4 ∧ fld v 0 2 = s.rf (Reg.CAN_MODE c) 0 2) →
    Completes (.listenWrite m c v) s fun t =>
      t.rf (Reg.CAN_MODE c) 0 3 = fld v 0 3 ∧ (t.cch c).listen = bit v 2 ∧
      (bit v 2 = true → (s.cch c).listen = false → (t.cch c).txl = [])) ∧
  (∀ c s, c < 24 → Completes (.listenTakeEffect c) s fun t =>
      (t.cch c).listen = s.rb (Reg.CAN_MODE c) 2 ∧ (t.cch c).estate = (s.cch c).estate ∧
      (t.cch c).txl = (if s.rb (Reg.CAN_MODE c) 2 = true ∧ (s.cch c).listen = false then [] else (s.cch c).txl) ∧
      (∀ d, d ≠ c → t.cch d = s.cch d)) ∧
  (∀ c dp i s, c < 24 → (s.cch c).wire = some i → (s.cch c).estate = 3 → 247 < (s.cch c).tec → (s.cch c).stopping = false →
    Completes (.canTxError c 2 dp false false) s fun t =>
      (t.cch c).estate = 4 ∧ (t.cch c).wire = none ∧ (t.cch c).delay = s.rb (Reg.CAN_MODE c) 5 ∧ (t.cch c).listen = s.rb (Reg.CAN_MODE c) 2 ∧
      (t.cch c).counting = false ∧ t.rd (Reg.CAN_BUS_OFF c) = evtNext (s.rd (Reg.CAN_BUS_OFF c)) ∧
      t.rb (Reg.INT_RAW (pageBase .can c)) Irq.CAN_BUS_OFF = true ∧ (∀ d, d ≠ c → t.cch d = s.cch d))

/-- R242-R247. LIN: a response received in full raises RX and ends its slot, one that is wrong or missing is counted; a linked copy overwrites
the publish buffer; a slot's entry sends its header and response; a table that is accepted takes over at a SWITCH; SLEEP sends
go-to-sleep, entered at the slot's end; a wake pulse leads back to RUN. The choices of the model in log entry 47 enter here; for that no
rule is cited. Each clause concludes that exec answers the next state described, for every state and operands that meet its hypotheses. -/
def Obligations.LinChannelsFollowTheirTables : Prop :=
  (∀ l sof d f ev s, l < 8 → (s.lch l).state = 1 → s.pwr.fwdOn = true → (s.lch l).slot = .expect f ev →
    Presents (.linFrameRx l sof d 0) s fun u =>
      u.lch l = { s.lch l with slot := .none } ∧ (∀ j, j ≠ l → u.lch j = s.lch j)) ∧
  (∀ l sof d st f s, l < 8 → (s.lch l).state = 1 → s.pwr.fwdOn = true → (s.lch l).slot = .expect f false → st = 1 ∨ st = 2 → s.inj = [] →
    Completes (.linFrameRx l sof d st) s fun t =>
      t.lch l = { s.lch l with slot := .none, respErr := true } ∧
      t.rd (if st = 1 then Reg.LIN_CHK_ERR l else Reg.LIN_FRAMING l) = evtNext (s.rd (if st = 1 then Reg.LIN_CHK_ERR l else Reg.LIN_FRAMING l)) ∧
      t.rb (Reg.INT_RAW (pageBase .lin l)) Irq.LIN_ERR = true) ∧
  (∀ l sof d s, l < 8 → (s.lch l).state = 1 → s.pwr.fwdOn = true → s.linCommander l = true → s.linShadow l = false → (s.lch l).slot ≠ .none → s.inj = [] →
    Completes (.linFrameRx l sof d 3) s fun t =>
      (t.lch l).respErr = true ∧ t.rd (Reg.LIN_BIT_ERR l) = evtNext (s.rd (Reg.LIN_BIT_ERR l)) ∧
      t.rb (Reg.INT_RAW (pageBase .lin l)) Irq.LIN_ERR = true) ∧
  (∀ l f ev s, l < 8 → (s.lch l).slot = .expect f ev →
    Completes (.linResponseTimeout l) s fun t =>
      t.lch l = { s.lch l with slot := .none, respErr := true } ∧ t.rd (Reg.LIN_NO_RESP l) = evtNext (s.rd (Reg.LIN_NO_RESP l)) ∧
      regsBut [Reg.LIN_NO_RESP l, Reg.INT_RAW (pageBase .lin l)] s t) ∧
  (∀ l i k q f cp s, l < 8 → s.queue (232 + l) = (i, k) :: q → s.copyAt i k = some (f, cp) → f.bus = true → busFmt f.bytes = 3 →
    busId f.bytes < 64 → s.linDir l (busId f.bytes) = 2 → s.rb Reg.TWN_LIN_MASK l = false →
    Completes (.linCopyLinked l) s fun t =>
      t.queue (232 + l) = q ∧ t.linValid l (busId f.bytes) = true ∧ t.linUpdated l (busId f.bytes) = true ∧
      (∀ n, n < s.linLen l (busId f.bytes) → n < 8 → (t.linPub l (busId f.bytes)).getD n 0 = (busData f.bytes).getD n 0xFF) ∧ t.lin = s.lin) ∧
  (∀ l f s, l < 8 → f < 64 → (s.lch l).state = 1 → s.linCommander l = false → s.pwr.fwdOn = true → s.linDir l f = 2 → s.linValid l f = true →
    s.linShadow l = false →
    Completes (.linHeaderRx l f true (linPid f / 64)) s fun t =>
      t.out = s.out ++ [.linTx l (s.linSendData l f)] ∧ (t.lch l).slot = .send f ∧ t.linUpdated l f = false ∧ t.linValid l f = true) ∧
  (∀ l f b s, l < 8 → f < 64 → (s.lch l).state = 1 → s.linCommander l = false → s.pwr.fwdOn = true → f + b * 64 ≠ linPid f →
    Completes (.linHeaderRx l f true b) s fun t => t.out = s.out ∧ t.lch l = { s.lch l with slot := .silent, pulses := 0 } ∧ t.regs = s.regs) ∧
  (∀ l f b s, l < 8 → (s.lch l).state = 1 → s.linCommander l = false → s.pwr.fwdOn = true →
    Completes (.linHeaderRx l f false b) s fun t =>
      t.rd (Reg.LIN_SYNC_ERR l) = evtNext (s.rd (Reg.LIN_SYNC_ERR l)) ∧ onlyMsix (t.out.drop s.out.length) = true ∧ (t.lch l).respErr = true) ∧
  (∀ l i s, l < 8 → (s.lch l).state = 1 → s.linCommander l = true → s.pwr.fwdOn = true → s.linShadow l = false → (s.lch l).sleepDue = false →
    (s.lch l).collDue = none → (s.lch l).inColl = false → (s.lch l).switch = false → (s.lch l).next < s.linCount l (s.lch l).table →
    i = (s.linStart l (s.lch l).table + (s.lch l).next) % 64 → s.rf (Reg.LIN_SCHED_LO l i) 0 3 = 1 → s.linDir l (s.rf (Reg.LIN_SCHED_LO l i) 8 6) = 1 →
    Completes (.linSlot l) s fun t =>
      t.out = s.out ++ [.linHeader l (linPid (s.rf (Reg.LIN_SCHED_LO l i) 8 6))] ∧
      t.lch l = { s.lch l with cur := i, next := (s.lch l).next + 1, slot := .expect (s.rf (Reg.LIN_SCHED_LO l i) 8 6) false } ∧ t.regs = s.regs) ∧
  (∀ l s, l < 8 → (s.lch l).state = 1 → s.linCommander l = true → s.pwr.fwdOn = true → (s.lch l).sleepDue = true →
    Completes (.linSlot l) s fun t => (t.lch l).state = 2 ∧ (t.lch l).slot = .none ∧ t.rb (Reg.INT_RAW (pageBase .lin l)) Irq.LIN_SLEPT = true) ∧
  (∀ m l s, l < 8 → s.admits m (Reg.LIN_CMD l) = true → (s.lch l).state ≠ 0 → s.linCommander l = true →
    Completes (.linSwitch m l) s fun t =>
      t.lch l = { s.lch l with switch := true } ∧ (∀ j, j ≠ l → t.lch j = s.lch j) ∧ regsBut [] s t) ∧
  (∀ m l s, l < 8 → s.admits m (Reg.LIN_CMD l) = true → (s.lch l).state = 1 → s.linCommander l = true → s.linShadow l = false →
    Completes (.linSleep m l) s fun t =>
      t.lch l = { s.lch l with slot := .sleep, sleepDue := true } ∧
      Output.linHeader l (linPid 0x3C) ∈ t.out ∧ Output.linTx l (0x00 :: List.replicate 7 0xFF) ∈ t.out ∧ regsBut [] s t) ∧
  (∀ m l s, l < 8 → s.admits m (Reg.LIN_CMD l) = true → (s.lch l).state = 2 → s.linShadow l = false →
    Completes (.linWake m l) s fun t =>
      t.lch l = { s.lch l with state := 1, pulses := 1 } ∧ Output.linPulse l ∈ t.out ∧ regsBut [] s t) ∧
  (∀ l s, l < 8 → (s.lch l).state = 1 → s.linCommander l = false →
    Completes (.linGotosleepRx l) s fun t => (t.lch l).state = 2 ∧ t.rb (Reg.INT_RAW (pageBase .lin l)) Irq.LIN_SLEPT = true) ∧
  (∀ l s, l < 8 → (s.lch l).state = 1 → s.linCommander l = false →
    Completes (.linInactivity l) s fun t => (t.lch l).state = 2 ∧ t.rb (Reg.INT_RAW (pageBase .lin l)) Irq.LIN_SLEPT = true) ∧
  (∀ l s, l < 8 → (s.lch l).state = 2 →
    Completes (.linWakeRx l) s fun t =>
      t.lch l = { s.lch l with state := 1, pulses := 0 } ∧ t.rd (Reg.LIN_WAKE_RX l) = evtNext (s.rd (Reg.LIN_WAKE_RX l)) ∧
      t.rb (Reg.INT_RAW (pageBase .lin l)) Irq.LIN_WAKE_RX = true) ∧
  (∀ l s, l < 8 → (s.lch l).state = 1 → s.linCommander l = false → 1 ≤ (s.lch l).pulses → (s.lch l).pulses < 3 → s.linShadow l = false →
    Completes (.linWakeRetry l) s fun t =>
      t.lch l = { s.lch l with pulses := (s.lch l).pulses + 1 } ∧ t.out = s.out ++ [.linPulse l] ∧ t.regs = s.regs)

/-- R249, R250, R258-R266. Work items: a copy taken from port 24, a timeout, a deferred and a cyclic transmission start an item of their PDU
when Confluence is free, and the item's frames are presented at port 24 when it completes; a tunnel frame held HOLD µs is sent. The
choices of the model in log entry 48 enter here; for that no rule is cited. Each clause concludes that exec answers the next state
described, for every state and operands that meet its hypotheses. -/
def Obligations.ConfluenceRunsWorkItems : Prop :=
  (∀ x f c i s, s.cflFree = true → (s.eg 24).tx = some x → s.copyAt x.fid x.idx = some (f, c) → f.state ≠ 0 → c.eddy = none → f.route.pdu = some i →
    Completes .cflRxItem s fun t => (t.eg 24).tx = none ∧ (t.cfl.item.map fun y => y.1) = some i) ∧
  (∀ s, s.cflFree = false → Completes .cflRxItem s fun t => t = s) ∧
  (∀ i s, s.rxPending i = true → s.mayServeAt (s.rxDueAt i) = true →
    Completes (.cflTimeout i) s fun t =>
      t.rxp i = { s.rxp i with fired := true, out := true } ∧ t.rd Reg.CFL_TIMEOUT = evtNext (s.rd Reg.CFL_TIMEOUT) ∧
      t.rb (Reg.INT_RAW (pageBase .cfl 0)) Irq.CFL_PDU_TIMEOUT = true ∧ (t.cfl.item.map fun y => y.1) = some i) ∧
  (∀ j d s, (s.txp j).deferred = some d → d.1 ≤ s.now → s.mayServeAt d.1 = true → isTxSig (s.pduEnt j) = true → s.pduStopped j = false →
    Completes (.cflDeferredTx j) s fun t =>
      (t.txp j).deferred = none ∧ (t.txp j).sentAt = some s.now ∧ (t.txp j).alive = ((s.txp j).alive + 1) % 256 ∧
      (∀ k, k ≠ j → t.txp k = s.txp k) ∧ (t.cfl.item.map fun y => y.1) = some j) ∧
  (∀ j m k s, s.cycDue j = some (m, k) → s.cflFree = true → s.copiesWait = false → s.arisen = [] → s.cycBefore j = false → s.pduStopped j = false →
    Completes (.cflCyclicTx j) s fun t =>
      (t.txp j).cycle = m + 1 ∧ (t.txp j).sentAt = some s.now ∧ (t.txp j).deferred = none ∧ (∀ k, k ≠ j → t.txp k = s.txp k) ∧
      t.rf Reg.CFL_LATE 0 16 = min (s.rf Reg.CFL_LATE 0 16 + k +
        b2n (decide (((m - k * fld (s.pduEnt j) 112 16 : Nat) : Int) * 1000000 + 1000000 < s.cflTime s.now))) 0xFFFF ∧
      (t.cfl.item.map fun y => y.1) = some j) ∧
  (∀ j m (s : State), isTxSig (s.pduEnt j) = true → pduMode (s.pduEnt j) ≠ 1 → fld (s.pduEnt j) 112 16 ≠ 0 → s.twn.state = 0 →
    fld (s.pduEnt j) 128 16 % fld (s.pduEnt j) 112 16 ≤ s.now / 1000000 →
    m = s.now / 1000000 - (s.now / 1000000 + fld (s.pduEnt j) 112 16 - fld (s.pduEnt j) 128 16 % fld (s.pduEnt j) 112 16) % fld (s.pduEnt j) 112 16 →
    (s.txp j).cycle ≤ m → s.cfl.enabledAt / 1000000 ≤ m → Tab.get (fun _ => 0) s.cfl.pduWritten j / 1000000 ≤ m →
    (s.cycDue j).map (fun x => x.1) = some m) ∧
  (∀ j s, s.enabled .cfl 0 = true → s.pwr.fwdOn = true → (s.tun j).msgs ≠ [] →
    Presents (.cflTunHold j) s fun u =>
      u.tun j = { s.tun j with msgs := [], seq := ((s.tun j).seq + 1) % 256 } ∧
      u.inj = s.inj ++ [.frame 24 0 s.now false (s.ntscf (s.pduEnt j) (s.tun j).seq (s.tun j).msgs.flatten).bytes] ∧
      sameBut [.cfl, .inj] s u) ∧
  (∀ i l s, s.cfl.item = some (i, l) →
    Presents .cflItemComplete s fun u =>
      u.cfl = { s.cfl with item := none } ∧
      u.inj = s.inj ++ l.map (fun o => .frame 24 o.target s.now o.bus (if o.bus then toBE 4 (s.now % 2 ^ 32) ++ o.bytes.drop 4 else o.bytes)) ∧
      sameBut [.cfl, .inj] s u)

/-- R252, R253. A SOURCE takes its field: a value in range is stored; one out of range is counted and, by its action, leaves the stored value,
is clamped to the nearer limit, or is replaced by SUBST. A field that is put into a payload reads back as it was put. -/
def Obligations.SignalsTakeAndPutTheirFields : Prop :=
  (∀ i e pay (s : State) (r : Int),
    r = (if sigSigned e then sext (sigLen e) (payField pay (sigStart e) (sigLen e) (sigBig e)) else (payField pay (sigStart e) (sigLen e) (sigBig e) : Int)) →
    (fld e 23 2 = 0 ∨ (sigValue e (fld e 32 32) ≤ r ∧ r ≤ sigValue e (fld e 64 32))) →
    (s.srcTake i e pay).src i = ⟨unsext 32 r, false, false, false, false, s.now⟩ ∧ (∀ j, j ≠ i → (s.srcTake i e pay).src j = s.src j)) ∧
  (∀ i e pay (s : State) (r : Int),
    r = (if sigSigned e then sext (sigLen e) (payField pay (sigStart e) (sigLen e) (sigBig e)) else (payField pay (sigStart e) (sigLen e) (sigBig e) : Int)) →
    (r < sigValue e (fld e 32 32) ∨ sigValue e (fld e 64 32) < r) →
    (fld e 23 2 = 1 → (s.srcTake i e pay).src i = ⟨s.srcStored i e, false, false, (s.src i).subst, true, s.now⟩) ∧
    (fld e 23 2 = 2 → (s.srcTake i e pay).src i =
      ⟨unsext 32 (if r < sigValue e (fld e 32 32) then sigValue e (fld e 32 32) else sigValue e (fld e 64 32)), false, false, false, true, s.now⟩) ∧
    (fld e 23 2 = 3 → (s.srcTake i e pay).src i = ⟨fld e 96 32, false, false, true, true, s.now⟩) ∧
    (fld e 23 2 ≠ 0 → (s.srcTake i e pay).rd Reg.CFL_RANGE = evtNext (s.rd Reg.CFL_RANGE))) ∧
  (∀ b start len big v, (∀ q ∈ bitWalk start len big, q.2 / 8 < b.length) → payField (payPut b start len big v) start len big = v % 2 ^ len)

/-- R195, R222, R245, R477. BLK_CTRL.EN of a port, a channel and Confluence: a port that may run starts training, one that is disabled goes
DOWN; a CAN channel leaves CONFIG only with valid settings, and a LIN channel only with an accepted table, else EN or the state stays;
Confluence's timeouts run from its enable. The choices of the model in log entries 17, 18 enter here; for those no rule is cited. Each
clause concludes that exec answers the next state described, for every state and operands that meet its hypotheses. -/
def Obligations.BlocksStartAndStopAtTheirEnable : Prop :=
  (∀ m p v s, p < 23 → s.admits m (Reg.BLK_CTRL (pageBase .ept p)) = true → bit v 2 = false → bit v 0 = true →
    s.rb (Reg.BLK_CTRL (pageBase .ept p)) 0 = false → (s.gate (pageBase .ept p / 0x1000)).clkOn = true → s.dmaPort p = false →
    s.pwr.fwdOn = true → s.phyOn p = true → s.lstate p = 0 →
    Presents (.eptEnable m p v) s fun u => u.rb (Reg.BLK_CTRL (pageBase .ept p)) 0 = true ∧ u.lstate p = 1 ∧ (∀ q, q ≠ p → u.eport q = s.eport q)) ∧
  (∀ m p v s, p < 23 → s.admits m (Reg.BLK_CTRL (pageBase .ept p)) = true → bit v 2 = false → bit v 0 = false → s.enabled .ept p = true →
    s.lstate p = 3 →
    Presents (.eptEnable m p v) s fun u =>
      u.rb (Reg.BLK_CTRL (pageBase .ept p)) 0 = false ∧ u.lstate p = 0 ∧ u.rd (Reg.EPT_LINK_DOWN p) = evtNext (s.rd (Reg.EPT_LINK_DOWN p)) ∧
      (u.eg p).tx = none) ∧
  (∀ m c v s, c < 24 → s.admits m (Reg.BLK_CTRL (pageBase .can c)) = true → bit v 2 = false → bit v 0 = true →
    (s.gate (pageBase .can c / 0x1000)).clkOn = true → s.rb (Reg.BLK_CTRL (pageBase .can c)) 0 = false → (s.cch c).estate = 0 → s.canOk c = true →
    Presents (.canEnable m c v) s fun u =>
      u.rb (Reg.BLK_CTRL (pageBase .can c)) 0 = true ∧ u.cch c = { s.cch c with estate := 1 } ∧ (∀ d, d ≠ c → u.cch d = s.cch d)) ∧
  (∀ m c v s, c < 24 → s.admits m (Reg.BLK_CTRL (pageBase .can c)) = true → bit v 2 = false → bit v 0 = true →
    (s.gate (pageBase .can c / 0x1000)).clkOn = true → s.rb (Reg.BLK_CTRL (pageBase .can c)) 0 = false → (s.cch c).estate = 0 → s.canOk c = false →
    Presents (.canEnable m c v) s fun u =>
      u.rb (Reg.BLK_CTRL (pageBase .can c)) 0 = false ∧ u.can = s.can ∧ u.rd (Reg.CAN_CFG_ERR c) = evtNext (s.rd (Reg.CAN_CFG_ERR c)) ∧
      u.rb (Reg.INT_RAW (pageBase .can c)) Irq.CAN_CFG_ERR = true) ∧
  (∀ m c v s, c < 24 → s.admits m (Reg.BLK_CTRL (pageBase .can c)) = true → bit v 2 = false → bit v 0 = false → s.enabled .can c = true →
    (s.cch c).estate ≠ 0 → (s.cch c).wire.isSome = true →
    Presents (.canEnable m c v) s fun u =>
      u.rb (Reg.BLK_CTRL (pageBase .can c)) 0 = false ∧ u.cch c = { s.cch c with stopping := true }) ∧
  (∀ m c v s, c < 24 → s.admits m (Reg.BLK_CTRL (pageBase .can c)) = true → bit v 2 = false → bit v 0 = false → s.enabled .can c = true →
    (s.cch c).estate ≠ 0 → (s.cch c).wire = none →
    Presents (.canEnable m c v) s fun u =>
      u.rb (Reg.BLK_CTRL (pageBase .can c)) 0 = false ∧ (∀ d, d ≠ c → u.cch d = s.cch d) ∧
      (u.cch c = { s.cch c with estate := 0, tec := 0, rec_ := 0, txl := [], counting := false, occ := 0, stopping := false, delay := false, listen := s.rb (Reg.CAN_MODE c) 2 } ∨
        (s.cch c).onBus = true ∧ u.cch c = { s.cch c with stopping := true })) ∧
  (∀ m l v s, l < 8 → s.admits m (Reg.BLK_CTRL (pageBase .lin l)) = true → bit v 2 = false → bit v 0 = true →
    (s.gate (pageBase .lin l / 0x1000)).clkOn = true → s.rb (Reg.BLK_CTRL (pageBase .lin l)) 0 = false → (s.lch l).state = 0 →
    s.linCommander l = true →
    Presents (.linEnable m l v) s fun u =>
      u.lch l = (if s.linTableOk l (s.rf (Reg.LIN_SCHED_SEL l) 0 2)
        then { s.lch l with state := 1, table := s.rf (Reg.LIN_SCHED_SEL l) 0 2, next := 0 } else s.lch l)) ∧
  (∀ m l v s, l < 8 → s.admits m (Reg.BLK_CTRL (pageBase .lin l)) = true → bit v 2 = false → bit v 0 = false → s.enabled .lin l = true →
    (s.lch l).state ≠ 0 →
    Presents (.linEnable m l v) s fun u => u.lch l = LinSt.reset ∧ (∀ f, f < 64 → u.linValid l f = false)) ∧
  (∀ m v s, s.admits m (Reg.BLK_CTRL (pageBase .cfl 0)) = true → bit v 2 = false → bit v 0 = true →
    (s.gate (pageBase .cfl 0 / 0x1000)).clkOn = true → s.rb (Reg.BLK_CTRL (pageBase .cfl 0)) 0 = false →
    Presents (.cflEnable m v) s fun u =>
      u.enabled .cfl 0 = true ∧ u.cfl.enabledAt = s.now ∧ u.cfl.item = s.cfl.item ∧ u.cfl.src = s.cfl.src) ∧
  (∀ m v s, s.admits m (Reg.BLK_CTRL (pageBase .cfl 0)) = true → bit v 2 = false → bit v 0 = false → s.enabled .cfl 0 = true →
    Presents (.cflEnable m v) s fun u => u.enabled .cfl 0 = false ∧ u.cfl = s.cfl)

/-- R276, R277, R281-R283, R292, R293. Commands of the time unit: a change of rate keeps the domain time; STEP steps an unlocked domain, slews
a locked one and is refused while settling; SLEW and SET_RATE set the rate, UNLOCK and DOM_CFG.EN the state; the adjustment of a slew is
exact at its end; a lower limit clamps the rate; TIM_FRC_INC stays within 200 ppm; the compatibility page's servo runs at SRV_OFFSET. The
choices of the model in log entries 50, 52 enter here; for those no rule is cited. Each clause concludes that exec answers the next state
described, for every state and operands that meet its hypotheses. -/
def Obligations.DomainCommandsSteerTime : Prop :=
  (∀ d (s : State) b sl, (s.setRate2 d b sl).domTime d = s.domTime d ∧
    ((s.setRate2 d b sl).dom d).rate = clampI (-(s.rateMax d)) (s.rateMax d) (b + sl) ∧ ((s.setRate2 d b sl).dom d).base = b) ∧
  (∀ m d s, d < 4 → s.admits m (Reg.DOM_CMD d) = true → (s.dom d).state = 1 →
    Completes (.domStep m d) s fun t =>
      (t.dom d).offset = (s.dom d).offset + s.domAdj d * 65536 ∧ (t.dom d).state = (if s.domGm d then 3 else 2) ∧
      t.rd (Reg.DOM_STEP_CNT d) = evtNext (s.rd (Reg.DOM_STEP_CNT d)) ∧ (∀ e, e ≠ d → t.dom e = s.dom e) ∧
      regsBut [Reg.DOM_STEP_CNT d, Reg.INT_RAW (pageBase .dom d)] s t) ∧
  (∀ m d s, d < 4 → s.admits m (Reg.DOM_CMD d) = true → ((s.dom d).state = 2 ∨ (s.dom d).state = 4) →
    Completes (.domStep m d) s fun t =>
      t.tim = s.tim ∧ t.rd (Reg.DOM_CMD_REJ d) = evtNext (s.rd (Reg.DOM_CMD_REJ d)) ∧
      t.rb (Reg.INT_RAW (pageBase .dom d)) Irq.DOM_CMD_REJ = true ∧ regsBut [Reg.DOM_CMD_REJ d, Reg.INT_RAW (pageBase .dom d)] s t) ∧
  (∀ m d s, d < 4 → s.admits m (Reg.DOM_CMD d) = true → (s.dom d).state = 3 → absI (s.domAdj d) ≤ s.jumpLimit d →
    Completes (.domStep m d) s fun t =>
      (t.dom d).slewing = decide (s.domAdj d ≠ 0) ∧ (t.dom d).delta = s.domAdj d ∧ (t.dom d).state = 3 ∧ t.domTime d = s.domTime d) ∧
  (∀ m d s, d < 4 → s.admits m (Reg.DOM_CMD d) = true → 2 ≤ (s.dom d).state →
    Completes (.domSlew m d) s fun t =>
      (t.dom d).slewing = decide (s.domAdj d ≠ 0) ∧ (t.dom d).delta = s.domAdj d ∧ (t.dom d).acc = 0 ∧ t.domTime d = s.domTime d ∧
      (t.dom d).slew = (if s.domAdj d = 0 then 0 else if s.domAdj d < 0 then -(s.rf (Reg.DOM_SLEW_RATE d) 0 22 : Int) else (s.rf (Reg.DOM_SLEW_RATE d) 0 22 : Int))) ∧
  (∀ m d s, d < 4 → s.admits m (Reg.DOM_CMD d) = true → s.domGm d = true →
    Completes (.domSetRate m d) s fun t =>
      (t.dom d).base = sext 32 (s.rd (Reg.DOM_ADJ_LO d)).toNat ∧ (t.dom d).slew = (s.dom d).slew ∧ t.domTime d = s.domTime d) ∧
  (∀ m d s, d < 4 → s.admits m (Reg.DOM_CMD d) = true → (s.dom d).state ≠ 0 →
    Completes (.domUnlock m d) s fun t => t.dom d = { s.dom d with state := 1, integ := 0 } ∧ (∀ e, e ≠ d → t.dom e = s.dom e)) ∧
  (∀ d s, (s.dom d).slewed s.frc16 = true →
    Completes (.slewDone d) s fun t =>
      (t.dom d).slewing = false ∧ (t.dom d).slew = 0 ∧ (t.dom d).base = (s.dom d).base ∧ t.domTime d = s.domTime d ∧
      t.domTime d = (s.frc16 : Int) + (s.dom d).offset +
        ((s.dom d).base * ((s.frc16 : Int) - (s.dom d).epoch) + (s.dom d).delta * 2 ^ 48 - (s.dom d).acc) / 2 ^ 32) ∧
  (∀ d s, (s.dom d).slewed s.frc16 = false → Completes (.slewDone d) s fun t => t = s) ∧
  (∀ m d s, d < 4 → s.admits m (Reg.DOM_CMD d) = true → (s.dom d).state = 3 → s.jumpLimit d < absI (s.domAdj d) →
    Completes (.domStep m d) s fun t =>
      t.tim = s.tim ∧ t.rd (Reg.DOM_MASTER_JUMP d) = evtNext (s.rd (Reg.DOM_MASTER_JUMP d)) ∧
      t.rb (Reg.INT_RAW (pageBase .dom d)) Irq.DOM_MASTER_JUMP = true ∧ t.rb (Reg.INT_RAW (pageBase .dom d)) Irq.DOM_CMD_REJ = true ∧
      regsBut [Reg.DOM_MASTER_JUMP d, Reg.INT_RAW (pageBase .dom d)] s t) ∧
  (∀ m d v s, d < 4 → s.admits m (Reg.DOM_CFG d) = true → s.rb (Reg.DOM_CFG d) 0 = false → bit v 0 = true →
    Completes (.domEnable m d v) s fun t =>
      (t.dom d).state = (if bit v 1 then 3 else 1) ∧ t.rf (Reg.DOM_CFG d) 0 3 = fld v 0 3 ∧ t.rf (Reg.DOM_CFG d) 8 8 = fld v 8 8) ∧
  (∀ m d v s, d < 4 → s.admits m (Reg.DOM_CFG d) = true → s.rb (Reg.DOM_CFG d) 0 = true → bit v 0 = false →
    Completes (.domEnable m d v) s fun t => (t.dom d).state = 0 ∧ t.rb (Reg.DOM_CFG d) 0 = false) ∧
  (∀ m d v s, d < 4 → s.admits m (Reg.DOM_RATE_MAX d) = true →
    Completes (.domRateMaxWrite m d v) s fun t =>
      t.rateMax d = ((fld (written (Reg.DOM_RATE_MAX d) (s.rd (Reg.DOM_RATE_MAX d)) v) 0 22 : Nat) : Int) ∧ t.domTime d = s.domTime d ∧
      (t.rateMax d < absI (s.dom d).rate → (t.dom d).rate = clampI (-(t.rateMax d)) (t.rateMax d) ((s.dom d).base + (s.dom d).slew)) ∧
      (absI (s.dom d).rate ≤ t.rateMax d → t.tim = s.tim)) ∧
  (∀ m v s, s.admits m Reg.TIM_FRC_INC = true →
    Completes (.timFrcIncWrite m v) s fun t =>
      t.rd Reg.TIM_FRC_INC = wd (clampN 0x1FFE6 0x2001A (fld v 0 18)) ∧ t.frcNs = s.frcNs ∧ regsBut [Reg.TIM_FRC_INC] s t) ∧
  (∀ m v s, s.admits m Reg.SRV_OFFSET = true → s.rb Reg.SRV_CTRL 0 = true → s.rb Reg.SRV_CTRL 1 = false →
    Completes (.srvOffset m v) s fun t =>
      sext 32 (t.rd Reg.SRV_INTEG).toNat = clampI (-(s.rf Reg.SRV_MAXFREQ 0 20 : Int)) (s.rf Reg.SRV_MAXFREQ 0 20 : Int)
        (sext 32 (s.rd Reg.SRV_INTEG).toNat + ((s.rf Reg.SRV_KI 0 16 : Int) * sext 32 v.toNat) / 65536) ∧
      sext 32 (t.rd Reg.SRV_FREQ).toNat = clampI (-(s.rf Reg.SRV_MAXFREQ 0 20 : Int)) (s.rf Reg.SRV_MAXFREQ 0 20 : Int)
        (((s.rf Reg.SRV_KP 0 16 : Int) * sext 32 v.toNat) / 65536 + sext 32 (t.rd Reg.SRV_INTEG).toNat) ∧
      t.rf Reg.SRV_STAT 8 8 = (s.rf Reg.SRV_STAT 8 8 + 1) % 256) ∧
  (∀ m v s, s.admits m Reg.SRV_OFFSET = true → s.rb Reg.SRV_CTRL 0 = false → Completes (.srvOffset m v) s fun t => t.tim = s.tim ∧ regsBut [] s t) ∧
  (∀ cycles lf s, s.rb Reg.CRU_CLK_STAT 0 = false →
    Completes (.hfrcMeasure cycles lf) s fun t =>
      t.rd Reg.TIM_LF_PERIOD = lf ∧
      t.rd Reg.TIM_HFRC_MEAS = wd (unsext 32 (clampI (-2147483648) 2147483647 (((cycles : Int) * 1000000000000) / (1048576 * 96) - 1000000000))) ∧
      regsBut [Reg.TIM_HFRC_MEAS, Reg.TIM_LF_PERIOD] s t) ∧
  (∀ (cycles : Nat) lf s, s.rb Reg.CRU_CLK_STAT 0 = true → s.rf Reg.CRU_HFRC_TRIM 12 2 ≠ 2 → s.rf Reg.CRU_HFRC_TRIM 0 10 < 1022 →
    ((cycles : Int) * 1000000000000) / (1048576 * 96) - 1000000000 < -100000 →
    Completes (.hfrcMeasure cycles lf) s fun t => t.rf Reg.CRU_HFRC_TRIM 0 10 = s.rf Reg.CRU_HFRC_TRIM 0 10 + 1)

/-- R279, R281, R285-R287. gPTP messages: a Sync on the slave port is accepted, a two-step one with its Follow_Up, else dropped and counted;
the loss of Syncs unlocks or enters HOLDOVER; a grandmaster sends its Syncs; a Pdelay request is sent, answered, and measured. The choices
of the model in log entry 51 enter here; for that no rule is cited. Each clause concludes that exec answers the next state described, for
every state and operands that meet its hypotheses. -/
def Obligations.TimeMessagesAreServed : Prop :=
  (∀ p n d seq origin corr ing tlv s, s.domOf n = some d → s.slavePort d = some p → s.asCapable p = true → (s.dom d).wait = none → s.inj = [] →
    Completes (.syncRx p n true seq origin corr ing tlv) s fun t =>
      t.dom d = { s.dom d with wait := some ⟨p, seq, corr, ing, (s.dom d).stepped⟩ } ∧ (∀ e, e ≠ d → t.dom e = s.dom e) ∧
      t.rd64 Reg.TIM_RX_MSG = (s.stat Reg.TIM_RX_MSG 1).rd64 Reg.TIM_RX_MSG ∧ regsBut [Reg.TIM_RX_MSG, Reg.TIM_RX_MSG + 4] s t) ∧
  (∀ p n d w seq origin corr ing tlv s, s.domOf n = some d → s.slavePort d = some p → s.asCapable p = true → (s.dom d).wait = some w → s.inj = [] →
    Completes (.syncRx p n true seq origin corr ing tlv) s fun t =>
      t.dom d = { s.dom d with wait := some ⟨p, seq, corr, ing, (s.dom d).stepped⟩ } ∧ t.rd Reg.TIM_SYNC_DROP = evtNext (s.rd Reg.TIM_SYNC_DROP)) ∧
  (∀ p n d two seq origin corr ing tlv s, d < 4 → s.domOf n = some d → ¬ (s.slavePort d = some p ∧ s.asCapable p = true) → s.inj = [] →
    Completes (.syncRx p n two seq origin corr ing tlv) s fun t =>
      t.tim = s.tim ∧ t.rd Reg.TIM_SYNC_DROP = evtNext (s.rd Reg.TIM_SYNC_DROP)) ∧
  (∀ p n two seq origin corr ing tlv s, s.domOf n = none → s.inj = [] →
    Completes (.syncRx p n two seq origin corr ing tlv) s fun t =>
      t.tim = s.tim ∧ t.rd Reg.TIM_FOREIGN = evtNext (s.rd Reg.TIM_FOREIGN)) ∧
  (∀ p n d seq origin corr ing tlv s, d < 4 → s.domOf n = some d → s.slavePort d = some p → s.asCapable p = true → s.domGm d = false →
    s.rb (Reg.DOM_CFG d) 2 = false → (s.dom d).state = 1 →
    Presents (.syncRx p n false seq origin corr ing tlv) s fun u =>
      (u.dom d).state = 2 ∧
      (u.dom d).offset = (s.dom d).offset +
        (((origin : Int) * 65536 + corr + (s.linkDelay p : Int) * 65536 - s.domTimeAt d (ing * 65536)) / 65536) * 65536 ∧
      (u.dom d).last2 = some ((origin : Int) * 65536 + corr + (s.linkDelay p : Int) * 65536, ing * 65536) ∧
      u.rd64 (Reg.DOM_SYNC_RX d) = (s.stat (Reg.DOM_SYNC_RX d) 1).rd64 (Reg.DOM_SYNC_RX d)) ∧
  (∀ p n d seq origin corr tlv w s, d < 4 → s.domOf n = some d → (s.dom d).wait = some w → w.port = p → w.seq = seq → s.slavePort d = some p →
    s.asCapable p = true →
    Presents (.followUpRx p n seq origin corr tlv) s fun u =>
      (u.dom d).wait = none ∧
      (u.dom d).last2 = some ((origin : Int) * 65536 + (w.corr + corr) + (s.linkDelay p : Int) * 65536, w.ingress * 65536) ∧
      u.rd64 (Reg.DOM_SYNC_RX d) = (s.stat (Reg.DOM_SYNC_RX d) 1).rd64 (Reg.DOM_SYNC_RX d)) ∧
  (∀ d w s, (s.dom d).wait = some w →
    Completes (.followUpTimeout d) s fun t =>
      t.dom d = { s.dom d with wait := none } ∧ t.rd Reg.TIM_SYNC_DROP = evtNext (s.rd Reg.TIM_SYNC_DROP) ∧
      (∀ e, e ≠ d → t.dom e = s.dom e) ∧ regsBut [Reg.TIM_SYNC_DROP] s t) ∧
  (∀ d s, d < 4 → s.domGm d = false → ((s.dom d).state = 2 ∨ (s.dom d).state = 3) →
    Completes (.syncTimeout d) s fun t =>
      (t.dom d).state = (if (s.dom d).state = 2 then 1 else 4) ∧ t.rd (Reg.DOM_SYNC_TO d) = evtNext (s.rd (Reg.DOM_SYNC_TO d)) ∧
      t.rb (Reg.INT_RAW (pageBase .dom d)) Irq.DOM_SYNC_TIMEOUT = true ∧ (t.dom d).offset = (s.dom d).offset ∧
      regsBut [Reg.DOM_SYNC_TO d, Reg.INT_RAW (pageBase .dom d)] s t) ∧
  (∀ d p s, s.domGm d = true → (s.dom d).state ≠ 0 → (ptpPorts.filter (fun q => decide (s.ptpRole q d = 1) && s.asCapable q)) = [p] →
    Presents (.gmSyncTimer d) s fun u =>
      u.inj.length = s.inj.length + 1 ∧ u.regs = s.regs ∧
      (u.inj.getLast?.bind fun x => match x with | .own q k _ o => some (q, k, o) | .frame .. => none | .consumed .. => none) =
        some (p, s.rf Reg.TIM_CFG 4 3, some (.sync { dom := d, relay := false, origin := 0, corr := 0, steps := (s.dom d).stepped }))) ∧
  (∀ p s, p ∈ ptpPorts → s.rb (Reg.TIM_PORT_CFG p) 0 = true → (s.pd p).req = none →
    Presents (.pdelayTimer p) s fun u =>
      u.pd p = { s.pd p with req := some ((s.pd p).seq, s.egressStamp p), resp := none, seq := ((s.pd p).seq + 1) % 65536 } ∧
      u.inj.length = s.inj.length + 1 ∧ u.regs = s.regs) ∧
  (∀ p seq t2 r s, p ∈ ptpPorts → s.rb (Reg.TIM_PORT_CFG p) 0 = true →
    Presents (.pdelayReqRx p seq t2 r) s fun u =>
      u.inj.length = s.inj.length + 1 ∧ u.tim = s.tim ∧
      (u.inj.getLast?.bind fun x => match x with | .own q k _ o => some (q, k, o) | .frame .. => none | .consumed .. => none) =
        some (p, s.rf Reg.TIM_CFG 4 3, some (.delayResp seq r))) ∧
  (∀ p seq t0 t1 t2 t3 t4 s, p < 24 → (s.pd p).req = some (seq, t0) → (s.pd p).last = none → t2 ≤ t3 →
    Completes (.pdelayRespRx p seq t1 t2 t3 t4) s fun t =>
      t.linkDelay p = (clampI 0 0xFFFFFF (((t4 : Int) - t1 + (((t4 : Int) - t1) * sext 32 (s.rd (Reg.TIM_NRR p)).toNat) / (2 ^ 32 : Int) -
        ((t3 : Int) - t2)) / 2)).toNat ∧
      (t.pd p).req = none ∧ (t.pd p).last = some (t3, t4) ∧
      (t.pd p).good = (if t.linkDelay p ≤ s.rf Reg.TIM_PDELAY_THRESH 0 16 then (s.pd p).good + 1 else 0)) ∧
  (∀ n s, s.domOf n = none →
    Completes (.gptpOtherRx n) s fun t =>
      t.rd Reg.TIM_FOREIGN = evtNext (s.rd Reg.TIM_FOREIGN) ∧ t.rd64 Reg.TIM_RX_MSG = (s.stat Reg.TIM_RX_MSG 1).rd64 Reg.TIM_RX_MSG ∧ t.tim = s.tim) ∧
  (∀ n s, (s.domOf n).isSome = true →
    Completes (.gptpOtherRx n) s fun t =>
      t.rd64 Reg.TIM_RX_MSG = (s.stat Reg.TIM_RX_MSG 1).rd64 Reg.TIM_RX_MSG ∧ regsBut [Reg.TIM_RX_MSG, Reg.TIM_RX_MSG + 4] s t)

/-- R299-R303, R307-R310, R315, R316, Table 11-17. The Vault's commands (INFO, GENERATE, DERIVE, COMMIT, DISCARD, REVOKE, DELETE, SIGN,
VERIFY, HASH, MAC, ENCRYPT, DECRYPT, RANDOM, ATTEST, AUTH_NONCE, AUTHORISE under each of its actions, CLAIM, TRANSFER) join its queue with
their arguments as they stand. The operation in front completes with its result: GENERATE makes a companion of the next GEN, COMMIT makes
it the main cell if its check value is given, REVOKE and DELETE end a key, CLAIM takes the owner key of a message that checks, an envelope
acts once if it checks. The choices of the model in log entries 53, 54 enter here; for those no rule is cited. Each clause concludes that
exec answers the next state described, for every state and operands that meet its hypotheses. -/
def Obligations.VaultOperationsRunInOrder : Prop :=
  (∀ c m op s, vaultOp c = some (m, op) → envelopeFits c s = true → s.admits m Reg.VLT_CMD = true → (s.slot (vltSlot m)).idle = true →
    s.vlt.ops ≠ [] → s.inj = [] →
    Completes c s fun t =>
      t.vlt.ops = s.vlt.ops ++ [⟨m, op, (List.range 8).map (fun k => s.rd (bankKey m (Reg.VLT_ARG k))),
        s.bankBytes m (Reg.VLT_BUF 0) (clampN 0 2048 (fld (s.rd (bankKey m Reg.VLT_LEN)) 0 12)), none, 0⟩] ∧
      t.slot (vltSlot m) = (s.slot (vltSlot m)).accept m ∧ regsBut [] s t) ∧
  (∀ c m op s, vaultOp c = some (m, op) → envelopeFits c s = true → s.admits m Reg.VLT_CMD = true → (s.slot (vltSlot m)).idle = true →
    s.vlt.ops = [] → s.inj = [] →
    Completes c s fun t =>
      t.vlt.ops.map (fun o => (o.m, o.op, o.args, o.buf)) = [(m, op, (List.range 8).map (fun k => s.rd (bankKey m (Reg.VLT_ARG k))),
        s.bankBytes m (Reg.VLT_BUF 0) (clampN 0 2048 (fld (s.rd (bankKey m Reg.VLT_LEN)) 0 12)))] ∧
      t.slot (vltSlot m) = (s.slot (vltSlot m)).accept m) ∧
  (∀ o l r s, s.vlt.ops = o :: l → o.res = some r → o.op < 0x100 → (s.slot (vltSlot o.m)).busy = true → s.svc.release = [] →
    Completes .vaultOpDone s fun t => t.slot (vltSlot o.m) = (s.slot (vltSlot o.m)).complete r ∧ t.vlt.ops.length = l.length) ∧
  (∀ m a0 a1 a2 i s, s.vaultAtOp m 0x02 [a0, a1, a2] [] → i = fld a0 0 8 → 8 ≤ i → s.vltOpen = true → fld a1 8 4 = 2 →
    (s.kslot i).lastGen < 65535 →
    Completes .vaultOpDone s fun t =>
      t.vlt.ops = [] ∧ (t.kslot i).lastGen = (s.kslot i).lastGen + 1 ∧ (t.kslot i).comp.state = 2 ∧
      (t.kslot i).comp.gen = (s.kslot i).lastGen + 1 ∧ (t.kslot i).comp.mat = fit 32 (Config.trng s.vlt.draws 32) ∧
      (t.kslot i).main = (s.kslot i).main ∧ (∀ j, j ≠ i → t.kslot j = s.kslot j) ∧
      (t.slot (vltSlot m)).res.code = Code.ok) ∧
  (∀ m a0 a1 a2 i s, s.vaultAtOp m 0x02 [a0, a1, a2] [] → i = fld a0 0 8 → i < 8 →
    Completes .vaultOpDone s fun t => t.vlt.slots = s.vlt.slots ∧ (t.slot (vltSlot m)).res.code = VCode.fixedSlot) ∧
  (∀ m a0 a1 i s, s.vaultAtOp m 0x04 [a0, a1] [] → i = fld a0 0 8 → 8 ≤ i → s.vltOpen = true → (s.kslot i).comp.state = 2 →
    Completes .vaultOpDone s fun t =>
      (a1 = (s.kslot i).comp.kcv → (t.kslot i).main.mat = (s.kslot i).comp.mat ∧ (t.kslot i).main.state = 1 ∧
        (t.kslot i).comp = Cell.empty ∧ (t.kslot i).nonce = 0) ∧
      (a1 ≠ (s.kslot i).comp.kcv → t.kslot i = s.kslot i ∧ (t.slot (vltSlot m)).res.code = VCode.kcvMismatch ∧
        t.rd Reg.VLT_KCV_FAIL = evtNext (s.rd Reg.VLT_KCV_FAIL))) ∧
  (∀ m a0 i s, s.vaultAtOp m 0x06 [a0] [] → i = fld a0 0 8 → 8 ≤ i → s.vltOpen = true →
    ((s.kslot i).main.state = 1 ∨ (s.kslot i).main.state = 3) →
    Completes .vaultOpDone s fun t =>
      (t.kslot i).main.state = 4 ∧ (t.kslot i).comp = Cell.empty ∧ (t.kslot i).lastGen = (s.kslot i).lastGen ∧
      (t.slot (vltSlot m)).res.code = Code.ok) ∧
  (∀ m a0 i s, s.vaultAtOp m 0x07 [a0] [] → i = fld a0 0 8 → 8 ≤ i →
    Completes .vaultOpDone s fun t =>
      if (s.kslot i).main.state = 4 ∨ (s.kslot i).main.state = 5 then t.kslot i = { KeySlot.reset with lastGen := (s.kslot i).lastGen }
      else t.kslot i = s.kslot i ∧ (t.slot (vltSlot m)).res.code = VCode.badState) ∧
  (∀ m a0 b i s, s.vaultAtOp m 0x08 [a0] b → i = fld a0 0 8 → fld a0 8 8 ≤ b.length → reservedCtx (b.take (fld a0 8 8)) = true →
    Completes .vaultOpDone s fun t => (t.slot (vltSlot m)).res.code = VCode.usage ∧ t.vlt.slots = s.vlt.slots) ∧
  (∀ m b s, s.vaultAtOp m 0x12 [] b → s.vlt.claimed = false → s.vlt.epoch < 0xFFFF →
    Completes .vaultOpDone s fun t =>
      t.vlt.claimed = s.claimOk m b ∧ (s.claimOk m b = true → t.vlt.ownerKey = (b.drop 26).take 57 ∧ t.vlt.epoch = s.vlt.epoch + 1) ∧
      (s.claimOk m b = false → t.vlt.ownerKey = s.vlt.ownerKey ∧ t.vlt.epoch = s.vlt.epoch ∧
        (t.slot (vltSlot m)).res.code = VCode.authInvalid ∧ t.rd Reg.VLT_AUTH_FAIL = evtNext (s.rd Reg.VLT_AUTH_FAIL)) ∧
      (s.authNonce m = some ((b.drop 10).take 16) → t.authNonce m = none)) ∧
  (∀ m b s, s.vaultAtOp m 0x11 [] b → beAt b 1 1 = 3 → (s.vlt.vstate = 1 ∨ s.vlt.vstate = 2) →
    Completes .vaultOpDone s fun t =>
      t.vlt.cosign = (if s.envelopeOk m b = true ∧ beAt b 36 2 = 1 ∧ beAt (b.drop 38) 0 1 < 2 then decide (beAt (b.drop 38) 0 1 = 1) else s.vlt.cosign) ∧
      (s.envelopeOk m b = false → (t.slot (vltSlot m)).res.code = VCode.authInvalid) ∧
      (s.authNonce m = some ((b.drop 20).take 16) → t.authNonce m = none)) ∧
  (∀ m b s, s.vaultAtOp m 0x12 [] b → s.authNonce m = some ((b.drop 10).take 16) → Completes .vaultOpDone s fun t => t.authNonce m = none) ∧
  (∀ m b s, s.vaultAtOp m 0x13 [] b → s.authNonce m = some ((b.drop 12).take 16) → Completes .vaultOpDone s fun t => t.authNonce m = none) ∧
  (∀ m b s, s.vaultAtOp m 0x11 [] b → s.authNonce m = some ((b.drop 20).take 16) → Completes .vaultOpDone s fun t => t.authNonce m = none) ∧
  (∀ (s : State) w arg, (s.vAction 5 w arg).1.code = Code.ok ∧ ∀ i, ((s.vAction 5 w arg).2.kslot i) = { KeySlot.reset with lastGen := (s.kslot i).lastGen })

/-- R303, R310, R320-R324. A nonce expires; an orphan whose grace ends is revoked; a class 1 event is counted and at the limit locks an OPEN
Vault, as a class 2 event does; a mesh breach zeroises; an alarm while asleep is latched and keeps the Vault locked at its start; a start
counts the boot and opens the Vault after its slots. The choices of the model in log entries 54, 55 enter here; for those no rule is
cited. Each clause concludes that exec answers the next state described, for every state and operands that meet its hypotheses. -/
def Obligations.VaultGuardsItself : Prop :=
  (∀ m s, Completes (.nonceExpire m) s fun t => t.authNonce m = none ∧ (∀ k, k ≠ m → t.authNonce k = s.authNonce k) ∧ sameBut [.vlt] s t) ∧
  (∀ i s, (s.kslot i).main.state = 3 → (s.kslot i).grace.isSome = true →
    Completes (.orphanGraceExpire i) s fun t => (t.kslot i).main.state = 4 ∧ (t.kslot i).grace = none) ∧
  (∀ i s, (s.kslot i).main.state ≠ 3 → Completes (.orphanGraceExpire i) s fun t => t = s) ∧
  (∀ n s, s.asleep = false → s.vlt.vstate = 1 → s.vlt.ops = [] → s.vlt.glitches = [] → 2 ≤ s.rf Reg.VLT_CFG 8 4 →
    Completes (.tamperClass1 n) s fun t =>
      t.vlt.vstate = 1 ∧ t.vlt.glitches = [s.now] ∧ t.rd Reg.VLT_GLITCH = evtNext (s.rd Reg.VLT_GLITCH) ∧
      t.rb (Reg.INT_RAW (pageBase .vlt 0)) Irq.VLT_GLITCH = true) ∧
  (∀ n s, s.asleep = false → s.vlt.vstate = 1 → s.rf Reg.VLT_CFG 8 4 ≤ 1 →
    Completes (.tamperClass1 n) s fun t => t.vlt.vstate = 2 ∧ t.vlt.lockCause = 3 ∧ t.vlt.slots = s.vlt.slots) ∧
  (∀ s, s.asleep = false → s.vlt.vstate = 1 →
    Completes .tamperClass2 s fun t =>
      t.vlt.vstate = 2 ∧ t.vlt.lockCause = 3 ∧ t.vlt.slots = s.vlt.slots ∧ t.rb (Reg.INT_RAW (pageBase .vlt 0)) Irq.VLT_LOCKED = true) ∧
  (∀ s, s.asleep = false → Completes .tamperMesh s fun t =>
      t.vlt.vstate = 3 ∧ t.vlt.ident = none ∧ t.vlt.scramble = [] ∧ t.vlt.kPuf = [] ∧ t.vlt.helper = [] ∧
      (∀ p ∈ t.auth.sas, p.2.key = none) ∧ t.vlt.zeroPend = true ∧ (∀ i, (t.kslot i).main = Cell.empty ∧ (t.kslot i).comp = Cell.empty) ∧
      t.vlt.epoch = s.vlt.epoch ∧ t.vlt.ownerKey = s.vlt.ownerKey ∧ t.rb (Reg.INT_RAW (pageBase .vlt 0)) Irq.VLT_ZEROISED = true) ∧
  (∀ n s, s.asleep = true → Completes (.tamperClass1 n) s fun t => t = s) ∧
  (∀ mesh s, s.asleep = true →
    Completes (if mesh then .tamperMesh else .tamperClass2) s fun t =>
      t.vlt = { s.vlt with sleepLatch := true, latchMesh := s.vlt.latchMesh || mesh, latchTemp := s.vlt.latchTemp || !mesh } ∧ sameBut [.vlt] s t) ∧
  (∀ mesh s, s.asleep = true →
    Completes (.sleepLatch mesh) s fun t =>
      t.vlt = { s.vlt with sleepLatch := true, latchMesh := s.vlt.latchMesh || mesh, latchTemp := s.vlt.latchTemp || !mesh } ∧ sameBut [.vlt] s t) ∧
  (∀ n a b bad s, s.vlt.vstate = 0 → s.vlt.stage < 3 → s.pwr.mgsOn = true → 2 ≤ s.pwr.boot → s.vlt.sleepLatch = true →
    Completes (.vaultStartup n a b bad) s fun t => t.vlt.vstate = 2 ∧ t.vlt.lockCause = 2 ∧ t.vlt.stage = s.vlt.stage) ∧
  (∀ a b bad s, s.vlt.vstate = 0 → s.vlt.stage = 0 → s.pwr.mgsOn = true → 2 ≤ s.pwr.boot → s.vlt.sleepLatch = false →
    Completes (.vaultStartup 1 a b bad) s fun t =>
      t.vlt.stage = 1 ∧ t.vlt.vstate = 0 ∧ t.vlt.zeroPend = false ∧ t.vlt.boot = s.vlt.boot ∧ t.vlt.ident = s.vlt.ident ∧
      t.vlt.scramble = fit 32 (Config.trng s.vlt.draws 32) ∧ t.vlt.found = (a, b, bad)) ∧
  (∀ bad s, s.vlt.vstate = 0 → s.vlt.stage = 0 → s.pwr.mgsOn = true → 2 ≤ s.pwr.boot → s.vlt.sleepLatch = false → s.vlt.ident.isSome = true →
    s.vlt.boot < 0xFFFFFFFF →
    Completes (.vaultStartup 3 true true bad) s fun t =>
      t.vlt.boot = s.vlt.boot + 1 ∧ t.vlt.stage = (if s.pwr.cold then 3 else 4) ∧ t.vlt.vstate = (if s.pwr.cold then 0 else 1) ∧
      (0xFFFF0000 ≤ t.vlt.boot → t.rb (Reg.INT_RAW (pageBase .vlt 0)) Irq.VLT_WARN = true)) ∧
  (∀ b bad s, s.vlt.vstate = 0 → s.vlt.stage = 0 → s.pwr.mgsOn = true → 2 ≤ s.pwr.boot → s.vlt.sleepLatch = false → s.vlt.ident.isSome = true →
    Completes (.vaultStartup 2 false b bad) s fun t =>
      t.vlt.vstate = 3 ∧ t.vlt.ident = none ∧ t.rb (Reg.INT_RAW (pageBase .vlt 0)) Irq.VLT_IDENT_FAIL = true) ∧
  (∀ a bad s, s.vlt.vstate = 0 → s.vlt.stage = 2 → s.pwr.mgsOn = true → 2 ≤ s.pwr.boot → s.vlt.sleepLatch = false →
    s.vlt.boot = 0xFFFFFFFF →
    Completes (.vaultStartup 1 a true bad) s fun t => t.vlt.vstate = 2 ∧ t.vlt.lockCause = 4 ∧ t.vlt.boot = s.vlt.boot) ∧
  (∀ bad s, s.vlt.vstate = 0 → s.vlt.stage = 3 →
    Completes (.vaultS4 bad) s fun t =>
      t.vlt.vstate = 1 ∧ t.vlt.stage = 4 ∧ t.vlt.slots = s.vlt.slots.map (s.slotUnwrap bad) ∧
      (∀ i, bad.contains i = true → (t.kslot i).main = Cell.empty ∧ (t.kslot i).comp = Cell.empty) ∧
      (∀ i, bad.contains i = false → (t.kslot i).main = (s.kslot i).main ∧ (t.kslot i).comp = (s.kslot i).comp) ∧
      (∀ i, (t.kslot i).lastGen = (s.kslot i).lastGen) ∧
      (bad.isEmpty = false → t.rb (Reg.INT_RAW (pageBase .vlt 0)) Irq.VLT_IDENT_FAIL = true))

/-- R312, R318, R329-R331, R333, R339, R340. APPLY sets up a free association or entry and asks for its key, else it is refused and counted;
the answer makes it ACTIVE or counts a refusal; RETIRE frees it, LOAD reads it back; a reservation extends what may be sent; changed
receive values are recorded. The choices of the model in log entries 57, 58 enter here; for those no rule is cited. Each clause concludes
that exec answers the next state described, for every state and operands that meet its hypotheses. -/
def Obligations.LineKeysAndCountersAreManaged : Prop :=
  (∀ m p n s, hasLce p = true → s.admits m (Reg.LCE_SA_CMD p) = true → n = s.rf (bankKey m (Reg.LCE_SA_SEL p)) 0 9 → (s.sa n).state = 0 →
    s.auth.sas = [] → s.rd (bankKey m (Reg.LCE_SA_DATA p 5)) ≠ 0 → s.rd (bankKey m (Reg.LCE_SA_DATA p 6)) = 0 →
    Completes (.lceSaApply m p) s fun t =>
      (t.sa n).state = 1 ∧ (t.sa n).port = p ∧ (t.sa n).d0 = s.rd (bankKey m (Reg.LCE_SA_DATA p 0)) ∧
      (t.sa n).d4 = s.rd (bankKey m (Reg.LCE_SA_DATA p 4)) ∧ (t.sa n).pn = (s.rd (bankKey m (Reg.LCE_SA_DATA p 5))).toNat ∧
      (bit (s.rd (bankKey m (Reg.LCE_SA_DATA p 0))) 0 = false →
        t.vlt.rsvq.getLast? = some (ctrRec 2 n (nextBlockEnd pnBlock (t.sa n).pn)) ∧ t.vlt.ring.getLast? = some (ctrRec 2 n (t.sa n).rsvEnd) ∧
        (t.sa n).pn < (t.sa n).rsvEnd) ∧ regsBut [] s t) ∧
  (∀ m p n s, hasLce p = true → s.admits m (Reg.LCE_SA_CMD p) = true → n = s.rf (bankKey m (Reg.LCE_SA_SEL p)) 0 9 → (s.sa n).state ≠ 0 →
    Completes (.lceSaApply m p) s fun t =>
      t.auth = s.auth ∧ t.vlt = s.vlt ∧ t.rd (Reg.LCE_REJ p) = evtNext (s.rd (Reg.LCE_REJ p)) ∧
      regsBut [Reg.LCE_REJ p, Reg.INT_RAW (pageBase .lce p)] s t) ∧
  (∀ m p n s, hasLce p = true → s.admits m (Reg.LCE_SA_CMD p) = true → n = s.rf (bankKey m (Reg.LCE_SA_SEL p)) 0 9 →
    Completes (.lceSaRetire m p) s fun t =>
      t.sa n = (if (s.sa n).state ≠ 0 ∧ s.saBusy n = true then { s.sa n with retire := true } else Sa.free) ∧
      (∀ k, k ≠ n → t.sa k = s.sa k) ∧ t.vlt = s.vlt) ∧
  (∀ m p n s, m < 8 → hasLce p = true → s.admits m (Reg.LCE_SA_CMD p) = true → n = s.rf (bankKey m (Reg.LCE_SA_SEL p)) 0 9 →
    Completes (.lceSaLoad m p) s fun t =>
      t.rd (bankKey m (Reg.LCE_SA_DATA p 0)) = (s.sa n).d0 ∧ t.rd (bankKey m (Reg.LCE_SA_DATA p 4)) = (s.sa n).d4 ∧
      t.rd (bankKey m (Reg.LCE_SA_DATA p 5)) = wd (s.sa n).pn ∧ t.auth = s.auth) ∧
  (∀ m p v s, hasLce p = true → s.admits m (Reg.LCE_TX_AN p) = true →
    Completes (.lceTxAnWrite m p v) s fun t =>
      t.rd (Reg.LCE_TX_AN p) = written (Reg.LCE_TX_AN p) (s.rd (Reg.LCE_TX_AN p)) v ∧ t.auth = s.auth ∧ regsBut [Reg.LCE_TX_AN p] s t) ∧
  (∀ m n s, s.admits m Reg.CAU_CMD = true → n = s.rf (bankKey m Reg.CAU_SEL) 0 11 → (s.cauEnt n).state = 0 → s.auth.cau = [] →
    (CauEnt.ok ⟨2, s.rd (bankKey m (Reg.CAU_DATA 0)), s.rd (bankKey m (Reg.CAU_DATA 1)), s.rd (bankKey m (Reg.CAU_DATA 2)),
      s.rd (bankKey m (Reg.CAU_DATA 3)), s.rd (bankKey m (Reg.CAU_DATA 4)), 0, 0, 0, false⟩) = true →
    Completes (.cauApply m) s fun t =>
      (t.cauEnt n).state = 2 ∧ (t.cauEnt n).w0 = s.rd (bankKey m (Reg.CAU_DATA 0)) ∧ (t.cauEnt n).w4 = s.rd (bankKey m (Reg.CAU_DATA 4)) ∧
      (t.cauEnt n).fv = (s.rd (bankKey m (Reg.CAU_DATA 5))).toNat ∧ regsBut [] s t) ∧
  (∀ m n s, s.admits m Reg.CAU_CMD = true → n = s.rf (bankKey m Reg.CAU_SEL) 0 11 → (s.cauEnt n).state ≠ 0 →
    Completes (.cauApply m) s fun t =>
      t.auth = s.auth ∧ t.rd Reg.CAU_REJ = evtNext (s.rd Reg.CAU_REJ) ∧ regsBut [Reg.CAU_REJ, Reg.INT_RAW (pageBase .cau 0)] s t) ∧
  (∀ m n s, s.admits m Reg.CAU_CMD = true → n = s.rf (bankKey m Reg.CAU_SEL) 0 11 →
    Completes (.cauRetire m) s fun t => t.cauEnt n = CauEnt.free ∧ (∀ k, k ≠ n → t.cauEnt k = s.cauEnt k) ∧ t.vlt = s.vlt ∧ regsBut [] s t) ∧
  (∀ m n s, m < 8 → s.admits m Reg.CAU_CMD = true → n = s.rf (bankKey m Reg.CAU_SEL) 0 11 →
    Completes (.cauLoad m) s fun t =>
      t.rd (bankKey m (Reg.CAU_DATA 0)) = (s.cauEnt n).w0 ∧ t.rd (bankKey m (Reg.CAU_DATA 5)) = wd (s.cauEnt n).fv ∧ t.auth = s.auth) ∧
  (∀ n s, (s.sa n).state = 1 →
    Completes (.engineKeyLoad false n) s fun t =>
      match s.keyRefusal (s.mainCell (s.sa n).slot) (if (s.sa n).rx then 5 else 4) (.engine 48) [if (s.sa n).aes256 then 2 else 1] with
      | none => (t.sa n).state = 2 ∧ ((t.sa n).key.map fun k => (k.slot, k.mat)) = some ((s.sa n).slot, (s.mainCell (s.sa n).slot).mat)
      | some _ => (t.sa n).state = 5 ∧ t.rd Reg.VLT_REFUSED = evtNext (s.rd Reg.VLT_REFUSED)) ∧
  (∀ n s, (s.cauEnt n).state = 2 →
    Completes (.engineKeyLoad true n) s fun t =>
      (t.cauEnt n).state = (if s.cauRefused (s.cauEnt n) then 2 else 1) ∧ (∀ k, k ≠ n → t.cauEnt k = s.cauEnt k)) ∧
  (∀ i v x q (s : State), s.vlt.rsvq = ⟨2, i, v, x⟩ :: q → (s.sa i).state ≠ 0 →
    Presents .counterReserve s fun u =>
      u.vlt.rsvq = q ∧ u.sa i = { s.sa i with rsvEnd := max (s.sa i).rsvEnd v } ∧ u.vlt.ring = (s.vlt.ring ++ [(⟨2, i, v, x⟩ : CtrRec)]).drop (s.vlt.ring.length + 1 - 3072) ∧
      regsBut [] s u) ∧
  (∀ i v x q (s : State), s.vlt.rsvq = ⟨3, i, v, x⟩ :: q → (s.cauEnt i).state ≠ 0 →
    Presents .counterReserve s fun u =>
      u.vlt.rsvq = q ∧ u.cauEnt i = { s.cauEnt i with rsvEnd := max (s.cauEnt i).rsvEnd v } ∧ regsBut [] s u) ∧
  (∀ n e s, s.auth.cau = [(n, e)] → e.state ≠ 0 → e.tx = false → e.fv ≠ e.recorded →
    Completes .cauFvRecord s fun t =>
      t.cauEnt n = { e with recorded := e.fv } ∧ t.vlt.rsvq = s.vlt.rsvq ++ [ctrRec 4 n e.fv] ∧ regsBut [] s t)

/-- R351, R353-R356, R358, R365, R367, Table 13-3. The twin's states: heartbeats and claims that arrive are noted, a fourth missed period is
the loss of the heartbeat; a ready secondary that sees no claim takes over; a unit that starts alone becomes primary when preferred and
else isolates; an agreed rotation swaps the roles; the commands of TWN_CMD and EN act in the states that take them. The choices of the
model in log entries 59, 60 enter here; for those no rule is cited. Each clause concludes that exec answers the next state described, for
every state and operands that meet its hypotheses. -/
def Obligations.TwinStatesFollowTheirTable : Prop :=
  (∀ s, s.twn.state = 4 →
    Presents .hbEdge s fun u =>
      u.twn.missed = 0 ∧ u.twn.lost = false ∧ u.twn.hbLine = true ∧ u.twn.lineSeen = true ∧ u.twn.state = 4 ∧ sameBut [.twn] s u) ∧
  (∀ a s, s.twn.state = 4 → s.twn.arrival = some a → a + 250000 + s.rf Reg.TWN_CFG 16 8 * 1000 ≤ s.now → s.twn.lost = false → s.twn.missed < 3 →
    Completes .hbMissed s fun t =>
      t.twn.missed = s.twn.missed + 1 ∧ t.twn.arrival = some (a + 250000 + s.rf Reg.TWN_CFG 16 8 * 1000) ∧ t.twn.lost = false ∧ sameBut [.twn] s t) ∧
  (∀ a s, s.twn.state = 4 → s.twn.arrival = some a → a + 250000 + s.rf Reg.TWN_CFG 16 8 * 1000 ≤ s.now → s.twn.lost = false → s.twn.missed = 3 →
    Completes .hbMissed s fun t =>
      t.twn.lost = true ∧ t.twn.state = 4 ∧ t.rb (Reg.INT_RAW (pageBase .twn 0)) Irq.TWN_PARTNER_LOST = true) ∧
  (∀ a s, s.twn.arrival = some a → s.now < a + 250000 + s.rf Reg.TWN_CFG 16 8 * 1000 → Completes .hbMissed s fun t => t = s) ∧
  (∀ s, Completes .arbClaimTimer s fun t => t.out = s.out ++ (if s.twn.claiming then [Output.arb 5000] else []) ∧ sameBut [.out] s t) ∧
  (∀ s, s.twn.state = 3 → s.twn.lost = false → s.inj = [] →
    Completes .arbClaimSeen s fun t =>
      t.twn = { s.twn with claimAt := some s.now, presenceDue := true, claimBack := true } ∧ sameBut [.twn] s t) ∧
  (∀ s, s.twn.state = 4 → s.twn.lost = true → s.twinWins = false → s.inj = [] →
    Completes .arbClaimSeen s fun t =>
      t.twn.state = 6 ∧ t.twn.claiming = false ∧ t.rd Reg.TWN_ISOLATED_CNT = evtNext (s.rd Reg.TWN_ISOLATED_CNT)) ∧
  (∀ s, s.twn.presenceDue = true →
    Completes .arbPresencePulse s fun t => t.out = s.out ++ [.arb 1000] ∧ t.twn = { s.twn with presenceDue := false } ∧ t.regs = s.regs) ∧
  (∀ s, s.twn.state ≠ 0 → Completes .arbPresenceSeen s fun t => t.twn = { s.twn with presenceAt := some s.now } ∧ sameBut [.twn] s t) ∧
  (∀ s, s.twn.state = 3 → s.twn.lost = true → s.twn.linkLost = false → s.lossAged = true → s.twn.arbOk = true →
    (s.twn.ready = true ∨ s.rb Reg.TWN_CFG 2 = true) →
    Completes .takeover s fun t =>
      t.twn.state = 4 ∧ t.twn.claiming = true ∧ t.rd Reg.TWN_TAKEOVER = evtNext (s.rd Reg.TWN_TAKEOVER) ∧ t.cfl.takeover = some s.now ∧
      t.busShadow = decide (s.now < s.twn.driveAt)) ∧
  (∀ s, s.twn.state = 3 → (s.twn.lost = false ∨ s.twn.linkLost = true ∨ s.lossAged = false ∨ s.twn.arbOk = false) → Completes .takeover s fun t => t = s) ∧
  (∀ s, s.twn.state = 1 → s.prefer = true → s.twn.arrival = none →
    Completes .twinStartWait s fun t => t.twn.state = 4 ∧ t.twn.claiming = true ∧ sameBut [.twn] s t) ∧
  (∀ s, s.twn.state = 1 → s.prefer = false →
    Completes .twinStartTimeout s fun t =>
      t.twn.state = 6 ∧ t.twn.claiming = false ∧ t.rb (Reg.INT_RAW (pageBase .twn 0)) Irq.TWN_TWIN_ISOLATED = true) ∧
  (∀ w s, s.twn.accepted = some w → windowOf s.twinNow < w → Completes .roleSwitch s fun t => t = s) ∧
  (∀ w s, s.twn.accepted = some w → w ≤ windowOf s.twinNow → s.twn.state = 4 → s.twn.toFault = false →
    Completes .roleSwitch s fun t =>
      t.twn.state = 3 ∧ t.twn.claiming = false ∧ t.twn.accepted = none ∧ t.rd Reg.TWN_ROTATION = evtNext (s.rd Reg.TWN_ROTATION)) ∧
  (∀ w s, s.twn.accepted = some w → w ≤ windowOf s.twinNow → s.twn.state = 3 →
    Completes .roleSwitch s fun t =>
      t.twn.state = 4 ∧ t.twn.claiming = true ∧ t.twn.driveAt = ((w : Int) * 1000000 + 20000 - s.twn.offset).toNat ∧ t.rd Reg.TWN_ROTATION = evtNext (s.rd Reg.TWN_ROTATION)) ∧
  (∀ m s, s.admits m Reg.TWN_CMD = true → (s.twn.state = 1 ∨ s.twn.state = 6) →
    Presents (.forcePrimary m) s fun u => u.twn.state = 4 ∧ u.twn.claiming = true ∧ regsBut [] s u) ∧
  (∀ m s, s.admits m Reg.TWN_CMD = true → s.twn.state = 5 →
    Presents (.resync m) s fun u => u.twn.state = 2 ∧ u.twn.ready = false ∧ (∃ n, u.twn.nonce = some n ∧ twinSends s u 9 n)) ∧
  (∀ m v s, s.admits m Reg.TWN_CFG = true → s.twn.state = 0 → bit v 0 = true →
    Completes (.twinEnable m v) s fun t =>
      t.twn.state = 1 ∧ t.rb Reg.TWN_CFG 0 = true ∧ t.twn.roster = s.twn.roster ∧ t.twn.offset = s.twn.offset ∧ regsBut [Reg.TWN_CFG] s t) ∧
  (∀ m v s, s.admits m Reg.TWN_CFG = true → s.twn.state ≠ 0 → bit v 0 = false →
    Completes (.twinEnable m v) s fun t => t.twn.state = 0 ∧ t.secondary = false ∧ t.twn.roster = s.twn.roster) ∧
  (∀ c s, s.canShadow c = true →
    Completes (.shadowAgeExpire c) s fun t =>
      t.cch c = { s.cch c with txl := (s.cch c).txl.filter (fun i =>
        !decide (i.since + (if s.rf Reg.TWN_CFG 3 5 = 0 then 10 else s.rf Reg.TWN_CFG 3 5) * 1000000 ≤ s.now)) } ∧
      (∀ d, d ≠ c → t.cch d = s.cch d)) ∧
  (∀ s, Completes .cfgDigestRecompute s fun t => t.twn = { s.twn with digest := s.cfgDigest } ∧ sameBut [.twn] s t)

/-- R350-R352, R361-R365, R371. The twin's messages: HEARTBEAT, DIGEST, DIVERGE, SELFTEST, ROLE, SYNC and ATTEST are sent and received as
their rules say; a message of another node, version or length is dropped and counted. The choices of the model in log entries 59, 60, 61
enter here; for those no rule is cited. Each clause concludes that exec answers the next state described, for every state and operands
that meet its hypotheses. -/
def Obligations.TwinMessagesAreExchanged : Prop :=
  (∀ s, s.twn.state ≠ 0 →
    Presents .heartbeatTimer s fun u =>
      u.inj.length = s.inj.length + 1 ∧ u.twn.hbOut = !s.twn.hbOut ∧ Output.hbOut (!s.twn.hbOut) ∈ u.out ∧
      u.twn.seq = (s.twn.seq + 1) % 2 ^ 32 ∧ u.twn.state = s.twn.state) ∧
  (∀ p b s, s.twinTakes 1 48 b → s.twn.state = 3 → s.twn.linkLost = false → s.twn.stepped = true → beAt b 3 1 = 1 →
    Presents (.heartbeatRx p b) s fun u =>
      u.twn.lastHb = some (beAt b 16 8, s.now) ∧ u.twn.lost = false ∧ u.twn.missed = 0 ∧ u.twn.partnerPrefer = p ∧
      absI (u.twn.offset - s.twn.offset) ≤ 1000 ∧ u.twn.cfgMatch = decide ((b.drop 40).take 8 = fit 8 s.twn.digest) ∧
      u.rd Reg.GPI_OUT = ((s.rd Reg.GPI_OUT &&& ~~~s.rd Reg.TWN_GPIO_MASK) ||| (wd (beAt b 36 4) &&& s.rd Reg.TWN_GPIO_MASK)) ∧
      u.rd64 Reg.TWN_HB_RX = (s.stat Reg.TWN_HB_RX 1).rd64 Reg.TWN_HB_RX) ∧
  (∀ p b s, s.twn.state ≠ 0 → s.inj = [] → (beAt b 1 1 ≠ 1 ∨ beAt b 4 2 % 512 ≠ s.partner ∨ b.length < 12) →
    Completes (.heartbeatRx p b) s fun t =>
      t.twn = s.twn ∧ t.rd Reg.TWN_BAD_MSG = evtNext (s.rd Reg.TWN_BAD_MSG) ∧ regsBut [Reg.TWN_BAD_MSG] s t) ∧
  (∀ w s, s.twn.state ≠ 0 → w + 1 = windowOf (s.twinNow - 200000) → s.twn.sent ≠ some w →
    Presents .digestSend s fun u =>
      twinSends s u 2 (toBE 8 w ++ toBE 4 (s.ownWin w).1 ++ toBE 8 (s.ownWin w).2) ∧
      u.twn.sent = some w ∧ u.rd64 Reg.TWN_WINDOWS = (s.stat Reg.TWN_WINDOWS 1).rd64 Reg.TWN_WINDOWS) ∧
  (∀ w s, w + 1 = windowOf (s.twinNow - 200000) → s.twn.sent = some w → s.inj = [] → Completes .digestSend s fun t => t = s) ∧
  (∀ b w a n sum s, s.twinTakes 2 32 b → beAt b 12 8 = w → beAt b 20 4 = n → beAt b 24 8 = sum → s.twn.state = 3 → 0 < w → s.twn.done = none → s.partnerWin (w - 1) = some a →
    a = s.ownWin (w - 1) → s.twn.ready = true →
    Presents (.digestRx b) s fun u =>
      u.partnerWin w = some (n, sum) ∧ u.twn.streak = s.twn.streak + 1 ∧ u.twn.done = some (w - 1) ∧ u.inj = s.inj ∧ u.regs = s.regs) ∧
  (∀ b w a c s, s.twinTakes 2 32 b → beAt b 12 8 = w → c = (beAt b 20 4, beAt b 24 8) → s.twn.state = 3 → 0 < w → s.twn.done = none →
    s.partnerWin (w - 1) = some a → a ≠ s.ownWin (w - 1) → winAdd a c ≠ winAdd (s.ownWin (w - 1)) (s.ownWin w) →
    Presents (.digestRx b) s fun u =>
      u.twn.streak = 0 ∧ u.rd Reg.TWN_DIVERGENCE = evtNext (s.rd Reg.TWN_DIVERGENCE) ∧ u.rd Reg.TWN_LAST_DIV = wd (w - 1) ∧
      twinSends s u 3 (toBE 8 (w - 1))) ∧
  (∀ b s, s.twinTakes 3 20 b → s.twn.cfgMatch = true → s.twn.div = none →
    Completes (.divergeRx b) s fun t =>
      t.twn.div = some (beAt b 12 8) ∧ t.twn.selfOwn = none ∧ t.rd Reg.TWN_LAST_DIV = wd (beAt b 12 8) ∧ regsBut [Reg.TWN_LAST_DIV] s t) ∧
  (∀ v w s, s.twn.div = some w → s.twn.selfOwn = none → s.twn.selfPartner = none →
    Presents (.selftestDone v) s fun u =>
      u.twn.selfOwn = some (v && decide (s.cfgDigest = s.twn.digest)) ∧ u.twn.div = some w ∧
      twinSends s u 4 (toBE 8 w ++ toBE 1 (b2n (!(v && decide (s.cfgDigest = s.twn.digest)))) ++ toBE 3 0 ++ s.cfgDigest)) ∧
  (∀ b s, s.twinTakes 4 32 b → s.twn.div = some (beAt b 12 8) → s.twn.selfOwn = none →
    Presents (.selftestRx b) s fun u => u.twn.selfPartner = some (decide (beAt b 20 1 = 0)) ∧ u.twn.div = s.twn.div ∧ u.regs = s.regs) ∧
  (∀ b s, s.twinTakes 4 32 b → s.twn.state = 3 → s.twn.div = some (beAt b 12 8) → s.twn.selfOwn = some false →
    Presents (.selftestRx b) s fun u =>
      u.twn.state = 5 ∧ u.twn.div = none ∧ u.rd Reg.TWN_SELFTEST_FAIL = evtNext (s.rd Reg.TWN_SELFTEST_FAIL)) ∧
  (∀ w s, s.twn.div = some w → s.twn.state = 4 → s.twn.selfOwn = none → s.twn.selfPartner = some true →
    Presents .selftestTimeout s fun u => u.twn.div = none ∧ u.twn.toFault = true ∧ u.twn.accepted = some (windowOf s.twinNow + 1)) ∧
  (∀ b s, s.twinTakes 5 24 b → beAt b 12 1 = 1 → s.twn.state = 3 → s.twn.ready = true →
    Presents (.roleOfferRx b) s fun u =>
      u.twn.accepted = some (beAt b 16 8) ∧ twinSends s u 5 (toBE 1 2 ++ toBE 3 0 ++ toBE 8 (beAt b 16 8))) ∧
  (∀ b s, s.twinTakes 5 24 b → beAt b 12 1 = 2 → s.twn.state = 4 → s.twn.offer = some (beAt b 16 8) →
    Completes (.roleAcceptRx b) s fun t => t.twn = { s.twn with accepted := some (beAt b 16 8), offer := none } ∧ sameBut [.twn] s t) ∧
  (∀ s, s.twn.partnerReady = true → s.rotateDue = true → s.twn.state = 4 →
    Presents .rotateTimer s fun u =>
      u.twn.offer = some (windowOf s.twinNow + 16) ∧ twinSends s u 5 (toBE 1 1 ++ toBE 3 0 ++ toBE 8 (windowOf s.twinNow + 16))) ∧
  (∀ m s, s.admits m Reg.TWN_CMD = true → s.twn.state = 4 →
    Presents (.rotate m) s fun u =>
      u.twn.offer = some (windowOf s.twinNow + 16) ∧ twinSends s u 5 (toBE 1 1 ++ toBE 3 0 ++ toBE 8 (windowOf s.twinNow + 16))) ∧
  (∀ m s, s.admits m Reg.TWN_CMD = true → s.twn.state = 4 →
    Presents (.yield m) s fun u =>
      u.twn.offer = some (windowOf s.twinNow + 16) ∧ twinSends s u 5 (toBE 1 1 ++ toBE 3 0 ++ toBE 8 (windowOf s.twinNow + 16))) ∧
  (∀ b s, s.twinTakes 6 12 b → s.twn.state = 4 → s.twn.capture = none →
    Presents (.twinSyncReqRx b) s fun u => u.twn = { s.twn with capture := some (windowOf s.twinNow + 1) } ∧ u.inj = s.inj) ∧
  (∀ w (s : State), s.twn.capture = some w → s.twn.state = 4 → w ≤ windowOf s.twinNow → s.cfl.item = none →
    s.syncCapture.inj.length = s.inj.length + (syncBodies s.syncRecs none).length + 1 ∧ s.syncCapture.twn.capture = none ∧ s.syncCapture.regs = s.regs) ∧
  (∀ b s, s.twinTakes 7 20 b → s.twn.state = 2 → syncWhole b = true →
    Completes (.twinSyncDataRx b) s fun t =>
      t.twn = { s.twn with holdCfl := true, sync := ⟨s.twn.sync.bodies ++ [(b.take (syncLen b)).drop 12], false⟩ } ∧ sameBut [.twn] s t) ∧
  (∀ b s, s.twinTakes 8 32 b → s.twn.state = 2 → s.twn.attested = true →
    Presents (.twinSyncEndRx b) s fun u =>
      ((b.drop 24).take 8 = syncDigest s.twn.sync.bodies → u.twn.state = 3 ∧ u.twn.holdCfl = false ∧ u.inj = s.inj) ∧
      ((b.drop 24).take 8 ≠ syncDigest s.twn.sync.bodies → u.twn.state = 2 ∧ u.twn.sync = ⟨[], false⟩ ∧ u.inj.length = s.inj.length + 1)) ∧
  (∀ b s, s.twinTakes 9 28 b → s.vltOpen = true →
    Presents (.attestReqRx b) s fun u => twinSends s u 10 (s.report ((b.drop 12).take 16))) ∧
  (∀ b n s, s.twinTakes 10 358 b → s.twn.state = 2 → s.twn.nonce = some n →
    Presents (.attestRepRx b) s fun u =>
      u.twn.nonce = none ∧
      (if reportOk ((b.drop 12).take 346) n = true ∧ (s.rst s.partner).valid = true ∧ (s.rst s.partner).twin = true ∧
          (s.rst s.partner).digest = reportDigest ((b.drop 12).take 346)
        then u.twn.attested = true ∧ twinSends s u 6 [] else u.twn.state = 6 ∧ u.inj = s.inj))

/-- R378, R379, R389-R398, R400. AON_PWR_CMD begins a transition or a sleep, or is refused and counted; a transition ends at its target; a
sleep waits for its members, passes the Sleep Point, releases INH and opens the switches, unless a wake or a failure ends it; an armed
detector latches its source, and the wake restores its checkpoint, ends at its target and is confirmed or counted as false. The choices of
the model in log entries 64, 65, 66 enter here; for those no rule is cited. Each clause concludes that exec answers the next state
described, for every state and operands that meet its hypotheses. -/
def Obligations.PowerSequencerSleepsAndWakes : Prop :=
  (∀ m s, s.admits m Reg.AON_PWR_CMD = true → s.pwr.seq = 0 → s.pwr.busy = false → s.rb Reg.AON_NM_CFG 0 = false →
    Presents (.pwrCmdDormant m) s fun u => u.pwr.seq = 1 ∧ u.pwr.sleepTarget = 1 ∧ u.pwr.silent = [] ∧ u.pwr.latch = [] ∧ u.pwr.state = s.pwr.state) ∧
  (∀ m s, s.admits m Reg.AON_PWR_CMD = true → s.pwr.seq = 0 → s.pwr.busy = false → s.rb Reg.AON_NM_CFG 0 = false →
    Presents (.pwrCmdSelective m) s fun u => u.pwr.seq = 1 ∧ u.pwr.sleepTarget = 2 ∧ u.pwr.silent = [] ∧ u.pwr.state = s.pwr.state) ∧
  (∀ m s, s.admits m Reg.AON_PWR_CMD = true → s.pwr.seq = 0 → s.pwr.busy = true → s.inj = [] →
    Completes (.pwrCmdSelective m) s fun t =>
      t.pwr = s.pwr ∧ t.rd Reg.AON_TRANS_REJ = evtNext (s.rd Reg.AON_TRANS_REJ) ∧
      regsBut [Reg.AON_TRANS_REJ, Reg.INT_RAW (pageBase .aon 0)] s t) ∧
  (∀ m s, s.admits m Reg.AON_PWR_CMD = true → s.pwr.seq = 0 → s.pwr.busy = false → s.pwr.state ≠ 3 →
    Presents (.pwrCmdMgsOnly m) s fun u => u.pwr.target = 3 ∧ u.pwr.busy = true ∧ u.pwr.state = s.pwr.state ∧ u.pwr.fwdOn = s.pwr.fwdOn) ∧
  (∀ m s, s.admits m Reg.AON_PWR_CMD = true → s.pwr.seq = 0 → s.pwr.busy = false → s.pwr.state ≠ 4 →
    Presents (.pwrCmdPartial m) s fun u => u.pwr.target = 4 ∧ u.pwr.busy = true ∧ u.pwr.state = s.pwr.state) ∧
  (∀ m s, s.admits m Reg.AON_PWR_CMD = true → s.pwr.seq = 0 → s.pwr.busy = false → s.pwr.state ≠ 5 →
    Presents (.pwrCmdFull m) s fun u => u.pwr.target = 5 ∧ u.pwr.busy = true ∧ u.pwr.state = s.pwr.state) ∧
  (∀ s, s.pwr.busy = true → s.pwr.seq = 0 → s.pwr.cold = false → s.pwr.waiting = [] → s.rb Reg.CRU_CLK_STAT 0 = true →
    Presents .transDone s fun u =>
      u.pwr.state = s.pwr.target ∧ u.pwr.busy = false ∧
      (s.pwr.target = 3 → s.pwr.fwdOn = true → u.pwr.fwdOn = false ∧ u.pwr.forwarding = false ∧ u.ept = [] ∧ u.can = [])) ∧
  (∀ pg l s, s.pwr.waiting = pg :: l → s.pwr.busy = true → s.pwr.seq = 0 → s.pwr.deferred = none →
    Presents .transAbort s fun u =>
      u.pwr.busy = false ∧ u.pwr.target = s.pwr.state ∧ u.pwr.waiting = [] ∧ u.rd Reg.CRU_TRANS_CAP = wd pg ∧
      u.rd Reg.AON_TRANS_ABORT = evtNext (s.rd Reg.AON_TRANS_ABORT)) ∧
  (∀ k s, s.pwr.seq = 1 → s.inSleepSet k = true → (gtSource k = false ∨ s.gtSilent k = true) →
    Completes (.memberSilent k) s fun t =>
      k ∈ t.pwr.silent ∧ k ∈ t.pwr.quiet ∧ (∀ j, j ∈ s.pwr.silent → j ∈ t.pwr.silent) ∧ (∀ j, j ∈ t.pwr.quiet → j = k ∨ j ∈ s.pwr.quiet) ∧
      t.pwr = { s.pwr with silent := t.pwr.silent, quiet := t.pwr.quiet } ∧ sameBut [.pwr] s t) ∧
  (∀ s, s.pwr.seq = 1 → s.allSilent = true → s.pwr.latch = [] →
    Completes .sleepPoint s fun t => t.pwr.seq = 2 ∧ t.pwr.busy = true ∧ t.pwr.target = s.pwr.sleepTarget) ∧
  (∀ s, s.pwr.seq = 1 → s.allSilent = false → Completes .sleepPoint s fun t => t = s) ∧
  (∀ s, s.pwr.seq = 1 → s.allSilent = false →
    Presents .sleepFail s fun u => u.pwr.seq = 0 ∧ u.pwr.asked = [] ∧ u.rd Reg.AON_SLEEP_FAIL = evtNext (s.rd Reg.AON_SLEEP_FAIL)) ∧
  (∀ s, s.pwr.seq = 2 → s.pwr.inh = true → s.pwr.inhMin = false → Completes .inhRelease s fun t => t = s) ∧
  (∀ s, s.pwr.seq = 2 → s.pwr.inh = true → s.pwr.inhMin = true →
    Completes .inhRelease s fun t =>
      t.pwr = { s.pwr with inh := false, inhMin := decide (s.rf Reg.AON_INH_CFG 8 8 = 0) } ∧ t.out = s.out ++ [.inh false] ∧ t.regs = s.regs) ∧
  (∀ s, s.pwr.seq = 2 → s.pwr.inh = false →
    Completes .switchesOpen s fun t =>
      t.pwr.state = s.pwr.sleepTarget ∧ t.pwr.mgsOn = false ∧ t.pwr.fwdOn = false ∧ t.pwr.svcOn = false ∧
      t.pwr.seq = (if s.pwr.latch = [] then 4 else 3)) ∧
  (∀ s, s.pwr.inh = false → s.pwr.seq = 4 → Completes .minOffEnd s fun t => t.pwr = { s.pwr with inhMin := true } ∧ sameBut [.pwr] s t) ∧
  (∀ s, s.pwr.inh = false → s.pwr.seq = 3 →
    Completes .minOffEnd s fun t =>
      t.pwr.inh = true ∧ t.pwr.boot = 1 ∧ t.pwr.latch = [] ∧ t.pwr.target = s.pwr.latch.foldl (fun n k => max n (s.wakeTarget k)) 3 ∧
      t.out = s.out ++ [.inh true] ∧ t.rd64 Reg.AON_WAKES = (s.stat Reg.AON_WAKES 1).rd64 Reg.AON_WAKES) ∧
  (∀ k n s, s.armed k = true → s.pwr.seq = 4 → s.pwr.inhMin = false → k ∉ s.pwr.latch →
    Presents (.wakeLatch k n) s fun u =>
      u.pwr.seq = 3 ∧ u.pwr.latch = s.pwr.latch ++ [k] ∧ u.pwr.inh = s.pwr.inh ∧
      (s.pwr.latched = false → u.rd64 Reg.AON_WAKE_FRC_LO = s.frcAfter n % 2 ^ 64)) ∧
  (∀ k n s, s.armed k = true → s.pwr.seq = 1 →
    Presents (.wakeLatch k n) s fun u => u.pwr.seq = 0 ∧ u.rd Reg.AON_SLEEP_ABORT = evtNext (s.rd Reg.AON_SLEEP_ABORT)) ∧
  (∀ k n s, s.armed k = false → s.inj = [] → Completes (.wakeLatch k n) s fun t => t = s) ∧
  (∀ n s, s.armed 45 = true → s.pwr.seq = 4 → s.pwr.inhMin = false →
    Completes (.aonTimerExpire n) s fun t => t.pwr.seq = 3 ∧ 45 ∈ t.pwr.latch) ∧
  (∀ c id ide dlc d n corr s, s.decoderOn c = true → s.swMatch c id ide dlc d = true → s.pwr.seq = 4 → s.pwr.inhMin = false → s.pwr.state = 1 →
    s.rb Reg.AON_WAKE_CAP0 5 = false →
    Presents (.swFrameMatch c id ide false dlc d n corr) s fun u =>
      u.pwr.seq = 3 ∧ c ∈ u.pwr.latch ∧ u.rd Reg.AON_WAKE_CAP1 = wd (id % 2 ^ 29) ∧ u.rf (Reg.AON_SW_ERR c) 0 6 = s.rf (Reg.AON_SW_ERR c) 0 6 - 1) ∧
  (∀ c id ide dlc d n corr s, s.decoderOn c = true → s.swMatch c id ide dlc d = false →
    Presents (.swFrameMatch c id ide false dlc d n corr) s fun u =>
      u.pwr.latch = s.pwr.latch ∧ u.rf (Reg.AON_SW_ERR c) 0 6 = s.rf (Reg.AON_SW_ERR c) 0 6 - 1) ∧
  (∀ c fd n s, s.decoderOn c = true → fd = false → s.rf (Reg.AON_SW_ERR c) 0 6 + 1 ≤ s.rf (Reg.AON_SW_CFG c) 16 6 → s.inj = [] →
    Completes (.swDecodeError c fd n) s fun t =>
      t.rf (Reg.AON_SW_ERR c) 0 6 = min (s.rf (Reg.AON_SW_ERR c) 0 6 + 1) 63 ∧ t.pwr = s.pwr ∧ regsBut [Reg.AON_SW_ERR c] s t) ∧
  (∀ c fd n s, s.decoderOn c = true → fd = false → s.rf (Reg.AON_SW_CFG c) 16 6 < s.rf (Reg.AON_SW_ERR c) 0 6 + 1 → s.pwr.seq = 4 → s.pwr.inhMin = false →
    Presents (.swDecodeError c fd n) s fun u => u.pwr.seq = 3 ∧ c ∈ u.pwr.latch ∧ u.pwr.decodeErr = true) ∧
  (∀ c corr s, s.decoderOn c = true →
    Completes (.swFrameDecoded c corr) s fun t => t.rf (Reg.AON_SW_ERR c) 0 6 = s.rf (Reg.AON_SW_ERR c) 0 6 - 1 ∧ t.pwr.latch = s.pwr.latch) ∧
  (∀ k s, k < 44 → s.pwr.seq ≠ 3 → k ∈ s.pwr.confirm → s.rf Reg.AON_FW_CFG 16 4 = 1 →
    Completes (.falseWakeWindow k) s fun t =>
      k ∉ t.pwr.confirm ∧ t.rd (Reg.AON_FALSE_WAKE k) = evtNext (s.rd (Reg.AON_FALSE_WAKE k)) ∧ t.rf (Reg.AON_WSRC_CFG k) 0 2 = 0) ∧
  (∀ s, s.pwr.seq = 3 → s.pwr.mgsOn = true → s.rb Reg.CRU_CLK_STAT 0 = true → (s.pwr.target = 3 ∨ s.pwr.forwarding = true) →
    Presents .wakeComplete s fun u =>
      u.pwr.state = s.pwr.target ∧ u.pwr.busy = false ∧
      (s.pwr.deferred = none → u.pwr.seq = 0 ∧ u.rb (Reg.INT_RAW (pageBase .aon 0)) Irq.AON_WAKE = true)) ∧
  (∀ s, s.pwr.seq = 3 → s.pwr.fwdOn = true → s.pwr.cold = false → s.pwr.forwarding = false → s.pwr.canPath = false →
    Presents (.checkpointRestore false true) s fun u => u.pwr.canPath = true) ∧
  (∀ s, s.pwr.seq = 3 → s.pwr.fwdOn = true → s.pwr.cold = false → s.pwr.forwarding = false → s.pwr.canPath = true →
    Presents (.checkpointRestore true true) s fun u => u.pwr.forwarding = true ∧ u.pwr.record = none) ∧
  (∀ p s, s.pwr.seq = 3 → s.pwr.fwdOn = true → s.pwr.cold = false → s.pwr.forwarding = false →
    Presents (.checkpointRestore p false) s fun u => u.pwr.cold = true ∧ u.pwr.fwdOn = false ∧ u.rb Reg.AON_WAKE_CAUSE 5 = true)

/-- R380-R385, R394, R399, R403, R415, R451. Supplies, clocks, gates and resets: power-good starts the MGS domain, the crystals and PLLs
report their state, their loss puts the device on the HFRC with only MGS on; a gate closes once its block is quiesced; each reset leaves
what its row says, its cause, and the cold path; firmware starts and the restore ends the cold path. The choices of the model in log
entries 20, 68, 69, 70 enter here; for those no rule is cited. Each clause concludes that exec answers the next state described, for every
state and operands that meet its hypotheses. -/
def Obligations.ClocksResetsAndStartUp : Prop :=
  (∀ ddr s, s.pwr.inh = true → s.pwr.boot = 1 →
    Completes (.powerGood ddr) s fun t => t.pwr = { s.pwr with mgsOn := true, boot := 2, pgFail := false, ddr := ddr, state := 3 }) ∧
  (∀ s, s.pwr.seq = 3 → s.pwr.inh = true → s.pwr.boot = 1 → s.pwr.pgFail = false →
    Completes .pgTimeout s fun t =>
      t.pwr = { s.pwr with pgFail := true } ∧ t.rd Reg.AON_PG_FAIL = evtNext (s.rd Reg.AON_PG_FAIL) ∧ regsBut [Reg.AON_PG_FAIL] s t) ∧
  (∀ n s, s.pwr.mgsOn = true → 2 ≤ s.pwr.boot → s.rb Reg.CRU_CLK_STAT 0 = false → s.rb Reg.CRU_CLK_STAT 8 = false → s.pwr.seq ≠ 3 →
    Completes (.xinaStable n) s fun t =>
      t.rb Reg.CRU_CLK_STAT 0 = true ∧ t.rb Reg.CRU_CLK_STAT 4 = true ∧ t.frcRuns = true ∧
      t.frcNs = (if s.pwr.carry then BitVec.ofNat 64 (s.frcAfter n) else s.frcNs) ∧ regsBut [Reg.CRU_CLK_STAT] s t) ∧
  (∀ s, s.pwr.mgsOn = true → 2 ≤ s.pwr.boot → s.frcRuns = false →
    Completes .xinaStartTimeout s fun t =>
      t.rd Reg.CRU_XINA_FAIL = evtNext (s.rd Reg.CRU_XINA_FAIL) ∧ t.rb (Reg.INT_RAW (pageBase .cru 0)) Irq.CRU_XINA_FAIL = true ∧ t.pwr = s.pwr) ∧
  (∀ s, s.pwr.mgsOn = true → s.rb Reg.CRU_CLK_STAT 0 = true →
    Completes .xinaLost s fun t =>
      t.rb Reg.CRU_CLK_STAT 0 = false ∧ t.rb Reg.CRU_CLK_STAT 8 = true ∧ t.pwr.state = 3 ∧ t.pwr.fwdOn = false ∧
      t.rb (Reg.INT_RAW (pageBase .cru 0)) Irq.CRU_XINA_LOST = true) ∧
  (∀ n s, s.pwr.mgsOn = true → s.rb Reg.CRU_CLK_STAT 8 = true →
    Completes (.xinaRetry true n) s fun t => t.rd Reg.CRU_RST_CAUSE = 0x10 ∧ t.rb Reg.CRU_CLK_STAT 0 = true ∧ t.rb Reg.CRU_CLK_STAT 8 = false ∧ t.pwr.state = 3) ∧
  (∀ n s, Completes (.xinaRetry false n) s fun t => t = s) ∧
  (∀ s, s.rb Reg.AON_CLK_CFG 0 = true →
    Completes .xinbStable s fun t => t.rb Reg.CRU_CLK_STAT 1 = true ∧ t.rb Reg.CRU_CLK_STAT 0 = s.rb Reg.CRU_CLK_STAT 0 ∧ regsBut [Reg.CRU_CLK_STAT] s t) ∧
  (∀ s, s.rb Reg.CRU_CLK_STAT 5 = true →
    Completes (.pllUnlock 1) s fun t =>
      t.rb Reg.CRU_CLK_STAT 5 = false ∧ t.rd Reg.CRU_PLL_UNLOCK = evtNext (s.rd Reg.CRU_PLL_UNLOCK) ∧ t.pwr = s.pwr) ∧
  (∀ s, s.pwr.mgsOn = true → s.rb Reg.CRU_CLK_STAT 0 = true → s.pwr.serdesOn = true → s.rb Reg.CRU_CLK_STAT 6 = false →
    Completes (.pllLocked 2) s fun t => t.rb Reg.CRU_CLK_STAT 6 = true ∧ t.pwr = s.pwr ∧ regsBut [Reg.CRU_CLK_STAT] s t) ∧
  (∀ m v pg b i s, s.admits m Reg.CRU_GATE_CTRL = true → pg = s.rf Reg.CRU_GATE_SEL 0 14 → pageOf pg = some (b, i) → gateFixed b = false →
    s.enabled b i = false → s.blkOn b = true → (s.gate pg).gate = false → bit v 0 = true →
    Presents (.gate m v) s fun u => u.gate pg = ⟨true, false, true⟩ ∧ u.rb (Reg.BLK_CTRL (pg * 0x1000)) 1 = true) ∧
  (∀ m v pg b i s, s.admits m Reg.CRU_GATE_CTRL = true → pg = s.rf Reg.CRU_GATE_SEL 0 14 → pageOf pg = some (b, i) →
    (gateFixed b = true ∨ s.enabled b i = true) → (s.gate pg).gate = false → bit v 0 = true → s.inj = [] →
    Completes (.gate m v) s fun t => t.pwr = s.pwr ∧ t.rd Reg.CRU_GATE_REJ = evtNext (s.rd Reg.CRU_GATE_REJ)) ∧
  (∀ pg s, (s.gate pg).gate = true → (s.gate pg).clkOn = true → s.rb (Reg.BLK_STAT (pg * 0x1000)) 1 = true →
    Completes (.gateClose pg) s fun t => t.gate pg = ⟨true, false, false⟩ ∧ (∀ q, q ≠ pg → t.gate q = s.gate q) ∧ sameBut [.pwr] s t) ∧
  (∀ pg s, (s.gate pg).gate = true → (s.gate pg).clkOn = true → (s.gate pg).deferred = false → s.rb (Reg.BLK_STAT (pg * 0x1000)) 1 = false →
    Completes (.gateClose pg) s fun t => t.gate pg = ⟨true, true, true⟩ ∧ t.rd Reg.CRU_GATE_DEFER = evtNext (s.rd Reg.CRU_GATE_DEFER)) ∧
  (∀ s, Completes .powerOnReset s fun t =>
      t.pwr = PwrSt.reset ∧ t.regs = State.reset.regs ∧ t.frcNs = 0 ∧ t.tbl = [] ∧ t.mgs.journal = s.mgs.journal ∧ t.mgs.floor = s.mgs.floor ∧
      t.vlt.epoch = s.vlt.epoch ∧ (∀ i, (t.kslot i).main = (s.kslot i).main ∧ (t.kslot i).comp = Cell.empty) ∧ t.had.roster = s.had.saved) ∧
  (∀ s, s.pwr.ddr = false → Completes (.brownout true) s fun t => t = s) ∧
  (∀ ddr s, (ddr = false ∨ s.pwr.ddr = true) → s.pwr.inh = true → s.pwr.mgsOn = true → 2 ≤ s.pwr.boot →
    Completes (.brownout ddr) s fun t =>
      t.pwr.state = 3 ∧ t.pwr.boot = 1 ∧ t.pwr.cold = true ∧ t.pwr.fwdOn = false ∧ t.rd Reg.CRU_RST_CAUSE = 0x8 ∧
      t.rb Reg.AON_WAKE_CAUSE 4 = true ∧ t.mgs.running = false) ∧
  (∀ s, s.pwr.mgsOn = true →
    Completes .resetN s fun t =>
      t.pwr.state = 3 ∧ t.pwr.cold = true ∧ t.pwr.fwdOn = false ∧ t.rd Reg.CRU_RST_CAUSE = 0x2 ∧ t.mgs.running = false ∧ t.frcNs = s.frcNs ∧
      t.mgs.journal = s.mgs.journal) ∧
  (∀ s, s.admits 3 Reg.CRU_RST_CMD = true → s.pwr.mgsOn = true →
    Completes (.warm 3) s fun t => t.pwr.state = 3 ∧ t.pwr.cold = true ∧ t.rd Reg.CRU_RST_CAUSE = 0x4 ∧ t.frcNs = s.frcNs) ∧
  (∀ m s, m ≠ 3 → s.admits m Reg.CRU_RST_CMD = true → Completes (.warm m) s fun t => t.pwr = s.pwr ∧ t.frcNs = s.frcNs) ∧
  (∀ s, s.pwr.boot = 2 → s.pwr.mgsOn = true → s.rb Reg.CRU_CLK_STAT 0 = true → s.mgs.running = false → s.pwr.cold = true → s.mgs.mail = [] →
    Presents .bootVerifyDone s fun u => u.mgs.running = true ∧ u.pwr.boot = 3 ∧ u.mgs.restartedAt = s.now) ∧
  (∀ bad s, s.pwr.boot = 3 → s.mgsUp = true → s.rb Reg.CRU_CLK_STAT 0 = true →
    Presents (.restoreComplete bad) s fun u => u.pwr.boot = 4 ∧ u.pwr.cold = false ∧ u.pwr.por = false)

/-- R408, R409, R411, R412, R414, R418, R419, R429. A mailbox command that firmware serves: its effect and its result, DENIED for a master
that Table 15-1 does not list; while firmware does not serve it waits. The choices of the model in log entries 71, 72 enter here; for
those no rule is cited. Each clause concludes that exec answers the next state described, for every state and operands that meet its
hypotheses. -/
def Obligations.ManagementMailboxServes : Prop :=
  (∀ m s, s.mailReady m → m ≤ 4 →
    Completes (.infoCmd m) s fun t =>
      t.slot (mgsSlot m) = s.answers m (mgsSlot m) (dataRes Code.ok [wd s.mgs.fwVer, wd (s.mgs.bank + b2n s.mgs.confirmed * 2),
        wd ((s.now - s.mgs.restartedAt) / 1000000000), wd s.vlt.boot]) ∧ t.mgs = s.mgs ∧ regsBut [] s t) ∧
  (∀ m lo hi s, s.mailReady m → m ≤ 3 → lo = fld (s.rd (bankKey m (Reg.MGS_ARG 0))) 0 14 → hi = fld (s.rd (bankKey m (Reg.MGS_ARG 1))) 0 14 →
    0 < lo → lo ≤ hi → s.perfList = [] →
    Completes (.journalSave m) s fun t =>
      t.mgs.journal.take s.mgs.journal.length = s.mgs.journal ∧
      (∀ r ∈ t.mgs.journal.drop s.mgs.journal.length, r.body ∈ (s.pagesOn lo hi).map s.pageRecord) ∧
      (if t.mgs.jfull then t.slot (mgsSlot m) = s.answers m (mgsSlot m) (codeRes 0x81)
       else (t.mgs.journal.drop s.mgs.journal.length).map JRec.body = (s.pagesOn lo hi).map s.pageRecord ∧
        t.slot (mgsSlot m) = s.answers m (mgsSlot m) (dataRes Code.ok [wd t.mgs.jseq, wd (t.mgs.jseq >>> 32)]))) ∧
  (∀ m s, s.mailReady m → m ≤ 3 → s.mgs.jfull = false →
    Completes (.journalSync m) s fun t =>
      t.mgs.journal = s.mgs.journal ∧ t.mgs.commits = s.mgs.commits ∧
      (if s.mgs.commits = [] then
        t.slot (mgsSlot m) = s.answers m (mgsSlot m) (dataRes Code.ok [wd s.mgs.jseq, wd (s.mgs.jseq >>> 32)]) ∧ t.mgs = s.mgs
       else t.slot (mgsSlot m) = (s.slot (mgsSlot m)).accept m ∧ t.mgs.syncs = s.mgs.syncs ++ [(m, s.mgs.commits.length)]) ∧ regsBut [] s t) ∧
  (∀ m s, s.mailReady m → m ≤ 3 → delegable (beAt (s.mailEnvelope m) 1 1) = false →
    Completes (.authorise m) s fun t =>
      t.slot (mgsSlot m) = s.answers m (mgsSlot m) (codeRes 0x82) ∧ t.mgs = s.mgs ∧ t.vlt = s.vlt ∧ regsBut [] s t) ∧
  (∀ m k s, s.mailReady m → m ≤ 4 → k = fld (s.rd (bankKey m (Reg.MGS_ARG 0))) 0 9 →
    Completes (.logCheckpoint m) s fun t =>
      (k < s.mgs.ckpts.length → t.slot (mgsSlot m) = s.answers m (mgsSlot m) (bufRes (s.mgs.ckpts.reverse.getD k []))) ∧
      (s.mgs.ckpts.length ≤ k → t.slot (mgsSlot m) = s.answers m (mgsSlot m) (codeRes 0x84)) ∧ t.mgs = s.mgs ∧ regsBut [] s t) ∧
  (∀ m s, s.mailReady m → m ≤ 3 →
    Completes (.logFlush m) s fun t =>
      t.mgs.logQ = [] ∧ t.slot (mgsSlot m) = s.answers m (mgsSlot m) (dataRes Code.ok [wd t.mgs.lastSeq])) ∧
  (∀ m s, s.mailReady m → m ≤ 3 →
    Completes (.secAck m) s fun t =>
      t.mgs.acked = (s.rd (bankKey m (Reg.MGS_ARG 0))).toNat ∧ t.mgs.unacked ≤ s.mgs.unacked ∧ t.mgs.sec = s.mgs.sec ∧
      ((∀ r ∈ s.mgs.sec, (t.mgs.acked + 2 ^ 32 - r.seq) % 2 ^ 32 < 2 ^ 31) → t.mgs.unacked = 0) ∧
      t.slot (mgsSlot m) = s.answers m (mgsSlot m) (codeRes Code.ok) ∧ regsBut [] s t) ∧
  (∀ m s, s.mailReady m → m ≤ 3 → s.mgs.trial = none →
    Completes (.restart m) s fun t =>
      t.slot (mgsSlot m) = s.answers m (mgsSlot m) (codeRes 0x80) ∧ t.mgs.down = true ∧ t.mgs.upd = none ∧ t.mgs.bank = s.mgs.bank ∧
      t.rd Reg.MGS_RESTART = evtNext (s.rd Reg.MGS_RESTART) ∧ (logsSince s t).head? = some (0x2002, fit 16 (toBE 1 3))) ∧
  (∀ m s, s.mailReady m → m ≤ 3 →
    Completes (.marginRun m) s fun t =>
      t.slot (mgsSlot m) = (s.slot (mgsSlot m)).accept m ∧ t.mgs = { s.mgs with planRun := true, planning := s.mgs.planning ++ [m] } ∧
      regsBut [] s t) ∧
  (∀ m x s, s.mailReady m → m ≤ 3 → x = (s.rd (bankKey m (Reg.MGS_ARG 0))).toNat →
    journalBytes (journalLive (s.mgs.journal ++ [⟨8, s.formatOf 8, s.mgs.jseq + 1, 24, .settings x⟩])) ≤ journalLimit →
    Completes (.setIds m) s fun t =>
      t.mgs.ids = x ∧ t.mgs.journal = s.mgs.journal ++ [⟨8, s.formatOf 8, s.mgs.jseq + 1, 24, .settings x⟩] ∧ t.mgs.jseq = s.mgs.jseq + 1 ∧
      t.slot (mgsSlot m) = s.answers m (mgsSlot m) (codeRes Code.ok) ∧ regsBut [] s t) ∧
  (∀ m s, s.mailReady m → m ≤ 4 →
    Completes (.unborLock m) s fun t =>
      t.mgs.unborLevel = 0 ∧ (s.mgs.unborLevel ≠ 0 → (∀ pg ∈ s.mgs.unborMasks, bit (t.writeMask pg) 4 = false) ∧
        (logsSince s t).map Prod.fst = [0xA00F]) ∧ t.slot (mgsSlot m) = s.answers m (mgsSlot m) (codeRes Code.ok)) ∧
  (∀ s, s.mailReady 4 →
    Completes (.journalSave 4) s (deniesMail s) ∧ Completes (.journalSync 4) s (deniesMail s) ∧ Completes (.authorise 4) s (deniesMail s) ∧
    Completes (.logFlush 4) s (deniesMail s) ∧ Completes (.secAck 4) s (deniesMail s) ∧ Completes (.restart 4) s (deniesMail s) ∧
    Completes (.marginRun 4) s (deniesMail s) ∧ Completes (.setIds 4) s (deniesMail s)) ∧
  (∀ m s, s.serves m Reg.MGS_CMD (mgsSlot m) → s.mgsUp = false →
    Completes (.secAck m) s fun t =>
      t.slot (mgsSlot m) = (s.slot (mgsSlot m)).accept m ∧ t.mgs.acked = s.mgs.acked ∧ t.mgs.mail.length = s.mgs.mail.length + 1)

/-- R409, R372, R429. A mailbox row submits the envelope to the Vault as master 3's, and its slot waits. The delegated action is performed if
and only if the window-bound envelope checks: the monitor gets a level for its minutes, with bit 4 in the write masks that LEVEL 2 opens;
a HAD command runs as master 3's; a roster entry is added, removed or given a new digest. An accepted envelope is logged as DELEGATED;
another completes with AUTH_INVALID and does nothing. The choices of the model in log entries 43, 54, 94 enter here; for those no rule is
cited. Each clause concludes that exec answers the next state described, for every state and operands that meet its hypotheses. -/
def Obligations.DelegatedActionsNeedTheirEnvelope : Prop :=
  (∀ m a s, s.mailReady m → m ≤ 3 → s.rf (bankKey m (Reg.MGS_BUF 0)) 8 8 = a → authTakes (s.mailEnvelope m) = true →
    Completes (.authorise m) s (submitsMail s m) ∧
    (a = 0x20 → Completes (.unborUnlock m) s (submitsMail s m)) ∧
    (a = 0x21 → Completes (.headEnrol m) s (submitsMail s m)) ∧
    (a = 0x22 → Completes (.headRetire m) s (submitsMail s m)) ∧
    (a = 0x30 → Completes (.rosterAdd m) s (submitsMail s m)) ∧
    (a = 0x31 → Completes (.rosterRemove m) s (submitsMail s m)) ∧
    (a = 0x32 → Completes (.rosterReplace m) s (submitsMail s m))) ∧
  (∀ m b lv mi s, s.mailAt m 0x20 3 b → lv = beAt (envelopeArg b) 0 1 → mi = beAt (envelopeArg b) 1 2 →
    1 ≤ lv → lv ≤ 2 → 1 ≤ mi → mi ≤ 1440 → s.mgs.unborMasks = [] →
    Completes .vaultOpDone s fun t =>
      t.vlt.ops = [] ∧ t.slot (mgsSlot m) = s.mailGets m b (codeRes Code.ok) ∧
      if s.envelopeOk 3 b then
        t.mgs.unborLevel = lv ∧ t.mgs.unborMinutes = mi ∧ (lv = 2 → ∀ pg ∈ unborPages, bit (t.writeMask pg) 4 = true) ∧
        (∀ pg, pg ∉ unborPages → t.writeMask pg = s.writeMask pg) ∧
        logsSince s t = acceptedLogs 0x20 (envelopeArg b) ++ [(0xA00E, fit 16 (toBE 1 lv ++ toBE 2 mi))]
      else t.mgs.unborLevel = s.mgs.unborLevel) ∧
  (∀ m b i p s, s.mailAt m 0x21 2 b → i = beAt (envelopeArg b) 0 1 → p = beAt (envelopeArg b) 1 1 →
    i < 64 → p < 8 → s.pwr.fwdOn = true → s.rb (Reg.HAD_PORT_CFG p) 0 = true → (s.head i).state ≠ 1 → s.hadState p < 5 →
    (s.hport p).cand.any (fun r => (s.hadFind r.key).isNone) = true →
    Completes .vaultOpDone s fun t =>
      t.slot (mgsSlot m) = s.mailGets m b (codeRes Code.ok) ∧
      if s.envelopeOk 3 b then
        (t.head i).state = 1 ∧ some (t.head i).key = (s.hport p).cand.map Proof.key ∧ (∀ j, j ≠ i → t.head j = s.head j) ∧
        logsSince s t = acceptedLogs 0x21 (envelopeArg b)
      else t.had = s.had) ∧
  (∀ m b i p s, s.mailAt m 0x21 2 b → i = beAt (envelopeArg b) 0 1 → p = beAt (envelopeArg b) 1 1 →
    i < 64 → p < 8 → s.pwr.fwdOn = true → s.rb (Reg.HAD_PORT_CFG p) 0 = true → (s.hport p).cand = none →
    Completes .vaultOpDone s fun t => t.had = s.had ∧ t.slot (mgsSlot m) = s.mailGets m b (dataRes 0x83 [0, 0x81])) ∧
  (∀ m b i s, s.mailAt m 0x22 1 b → i = beAt (envelopeArg b) 0 1 → i < 64 → s.pwr.fwdOn = true →
    (List.range 8).all (fun q => !(decide (s.hadIndex q = some i) && decide (s.hadState q = 3))) = true →
    Completes .vaultOpDone s fun t =>
      t.slot (mgsSlot m) = s.mailGets m b (codeRes Code.ok) ∧
      if s.envelopeOk 3 b then
        (t.head i).state = 2 ∧ (∀ j, j ≠ i → t.head j = s.head j) ∧ logsSince s t = acceptedLogs 0x22 (envelopeArg b)
      else t.had = s.had) ∧
  (∀ m b n f s, s.mailAt m 0x30 35 b → n = beAt (envelopeArg b) 0 2 → f = beAt (envelopeArg b) 2 1 →
    n < 512 → f < 16 → (s.rst n).valid = false →
    Completes .vaultOpDone s fun t =>
      t.slot (mgsSlot m) = s.mailGets m b (codeRes Code.ok) ∧
      if s.envelopeOk 3 b then
        t.rst n = ⟨true, f.testBit 0, f.testBit 1, f.testBit 2, f.testBit 3, (envelopeArg b).drop 3, 0, 0, 0⟩ ∧
        (∀ j, j ≠ n → t.rst j = s.rst j) ∧ logsSince s t = acceptedLogs 0x30 ((envelopeArg b).take 15)
      else t.twn = s.twn) ∧
  (∀ m b n s, s.mailAt m 0x31 2 b → n = beAt (envelopeArg b) 0 2 → n < 512 →
    Completes .vaultOpDone s fun t =>
      t.slot (mgsSlot m) = s.mailGets m b (if (s.rst n).valid then codeRes Code.ok else dataRes 0x83 [0, wd Code.badArg]) ∧
      if s.envelopeOk 3 b then (t.rst n).valid = false ∧ (∀ j, j ≠ n → t.rst j = s.rst j)
      else t.twn = s.twn) ∧
  (∀ m b n s, s.mailAt m 0x32 34 b → n = beAt (envelopeArg b) 0 2 → n < 512 → (s.rst n).valid = true →
    Completes .vaultOpDone s fun t =>
      t.slot (mgsSlot m) = s.mailGets m b (codeRes Code.ok) ∧
      if s.envelopeOk 3 b then
        t.rst n = { s.rst n with digest := (envelopeArg b).drop 2, result := 0, fails := 0 } ∧ (∀ j, j ≠ n → t.rst j = s.rst j)
      else t.twn = s.twn)

/-- R405-R407, R424, R429. A lockstep mismatch, an SRAM error or the watchdog restarts the management cores alone: counted and logged with its
cause, the BUSY mailbox commands end with RESTARTED, the update session is abandoned, the monitor relocks, a trial falls back to the old
bank; the third within 60 s halts the subsystem. Firmware of the bank in use then serves again; of the events that blocks raised
meanwhile, those whose INT_RAW bit still stands are kept for the log, each bit once (the model's reading: log entry 74). The choices of
the model in log entries 71, 74 enter here; for those no rule is cited. Each clause concludes that exec answers the next state described,
for every state and operands that meet its hypotheses. -/
def Obligations.ManagementRestarts : Prop :=
  (∀ s, s.mgsUp = true → s.mgs.crashes = [] → s.mgs.trial = none → s.svc.release = [] →
    Completes .lockstepMismatch s fun t =>
      t.mgs.down = true ∧ t.mgs.crashes = [s.now] ∧ t.mgs.upd = none ∧ t.mgs.unborLevel = 0 ∧ t.mgs.halted = false ∧
      t.rd Reg.MGS_LOCKSTEP = evtNext (s.rd Reg.MGS_LOCKSTEP) ∧ t.rd Reg.MGS_RESTART = evtNext (s.rd Reg.MGS_RESTART) ∧
      (logsSince s t).head? = some (0x2002, fit 16 (toBE 1 1)) ∧
      (∀ m, m < 5 → t.slot (mgsSlot m) =
        if (s.slot (mgsSlot m)).busy then (s.slot (mgsSlot m)).complete (codeRes 0x80) else s.slot (mgsSlot m)) ∧
      t.mgs.journal = s.mgs.journal ∧ t.pwr = s.pwr ∧ t.tbl = s.tbl ∧ t.bsn = s.bsn ∧ t.fgd = s.fgd ∧
      (∀ o ∈ t.vlt.ops, o.op < VOp.mail) ∧ (s.vlt.ops = [] → t.vlt = s.vlt)) ∧
  (∀ a b s, s.mgsUp = true → s.mgs.crashes = [a, b] → s.now < a + 60000000000 → s.now < b + 60000000000 →
    Completes .watchdogExpire s fun t =>
      t.mgs.down = true ∧ t.mgs.halted = true ∧ t.rd Reg.MGS_WDT_EXP = evtNext (s.rd Reg.MGS_WDT_EXP) ∧
      t.rb (Reg.INT_RAW (pageBase .mgs 0)) Irq.MGS_HALTED = true ∧ (logsSince s t).head? = some (0x2002, fit 16 (toBE 1 2))) ∧
  (∀ a b s, s.mgsUp = true → s.mgs.crashes = [a, b] → a + 60000000000 ≤ s.now →
    Completes .watchdogExpire s fun t => t.mgs.down = true ∧ t.mgs.halted = s.mgs.halted) ∧
  (∀ old m s, s.mgsUp = true → s.mgs.trial = some (old, m) → s.mgs.bank < 2 →
    Completes .watchdogExpire s fun t =>
      t.mgs.trial = none ∧ t.mgs.bank = 1 - s.mgs.bank ∧ t.mgs.confirmed = true ∧ t.mgs.floor = s.mgs.floor ∧
      t.rd Reg.UPD_FALLBACK = evtNext (s.rd Reg.UPD_FALLBACK) ∧ t.rb (Reg.INT_RAW (pageBase .upd 0)) Irq.UPD_FALLBACK = true ∧
      0xA007 ∈ (logsSince s t).map Prod.fst) ∧
  (∀ s, s.mgs.down = true → s.mgs.halted = false → s.mgs.running = true → s.mgs.mail = [] → s.inj = [] →
    Completes .mgsRestartDone s fun t =>
      t.mgs = { s.mgs with down := false, restartedAt := s.now, fwVer := s.bankField s.mgs.bank 12, logQ := t.mgs.logQ } ∧
      (∀ r ∈ t.mgs.logQ, r ∈ s.mgs.logQ ∧ (s.raisedDown r = true → s.rb (Reg.INT_RAW (r.source * 0x1000)) (r.type % 32) = true)) ∧
      (∀ r ∈ s.mgs.logQ, s.raisedDown r = false → r ∈ t.mgs.logQ) ∧
      (∀ r ∈ s.mgs.logQ, s.rb (Reg.INT_RAW (r.source * 0x1000)) (r.type % 32) = true →
        ∃ q ∈ t.mgs.logQ, q.type = r.type ∧ q.source = r.source) ∧ t.vlt.fwVersion = t.mgs.fwVer ∧
      t.vlt.fwDigest = shake (bytesFrom (s.bankTab s.mgs.bank) 256 (s.bankField s.mgs.bank 24)) 32 ∧ t.vlt.vstate = s.vlt.vstate ∧
      sameBut [.mgs, .vlt] s t) ∧
  (∀ s, s.mgs.halted = true → s.inj = [] → Completes .mgsRestartDone s fun t => t = s)

/-- R410-R414, R416-R419. Journal: each completed commit is appended in order while the live state fits, and compaction keeps the newest
record of each item. Event log: the oldest request gets the next SEQ, goes to the ring of its SEC bit and extends that ring's chain; over
the second's limit it is suppressed and counted, security records never; every 4,096th record brings a checkpoint. A sector that a write
has remapped takes a spare and is logged. The choices of the model in log entries 72, 74, 97, 98 enter here; for those no rule is cited.
Each clause concludes that exec answers the next state described, for every state and operands that meet its hypotheses. -/
def Obligations.JournalAndEventLogRecord : Prop :=
  (∀ l q remap s, s.mgs.commits = l :: q → s.mgsUp = true →
    Completes (.journalCommitRecord remap) s fun t =>
      t.mgs.commits = q ∧ t.tbl = s.tbl ∧
      (if journalBytes (journalLive (s.mgs.journal ++ [⟨1, s.formatOf 1, s.mgs.jseq + 1, 20 + (JBody.tap l).size, .tap l⟩])) ≤ journalLimit then
        t.mgs.journal = s.mgs.journal ++ [⟨1, s.formatOf 1, s.mgs.jseq + 1, 20 + (JBody.tap l).size, .tap l⟩] ∧ t.mgs.jseq = s.mgs.jseq + 1 ∧
        t.mgs.jfull = false ∧ (remap = [] → regsBut [] s t)
       else t.mgs.journal = s.mgs.journal ∧ t.mgs.jfull = true ∧ t.rb (Reg.INT_RAW (pageBase .mgs 0)) Irq.MGS_JOURNAL_FULL = true ∧
        ((logsSince s t).map Prod.fst).head? = some 0x2009)) ∧
  (∀ m l q remap s, s.mgs.commits = l :: q → s.mgsUp = true → s.mgs.syncs = [(m, 1)] → (s.slot (mgsSlot m)).busy = true → s.svc.release = [] →
    Completes (.journalCommitRecord remap) s fun t =>
      t.mgs.syncs = [] ∧ t.slot (mgsSlot m) = (s.slot (mgsSlot m)).complete
        (if t.mgs.jfull then codeRes 0x81 else dataRes Code.ok [wd t.mgs.jseq, wd (t.mgs.jseq >>> 32)])) ∧
  (∀ m n l q remap s, s.mgs.commits = l :: q → s.mgsUp = true → s.mgs.syncs = [(m, n)] → 2 ≤ n →
    Completes (.journalCommitRecord remap) s fun t => t.mgs.syncs = [(m, n - 1)] ∧ t.slot (mgsSlot m) = s.slot (mgsSlot m)) ∧
  (∀ remap s, s.mgsUp = true → remap ≠ [] →
    (Completes (.journalCommitRecord remap) s fun t =>
      t.mgs.spares = s.mgs.spares - remap.length ∧ t.rb (Reg.INT_RAW (pageBase .mgs 0)) Irq.MGS_MRAM_REMAP = true ∧
      (∀ k ∈ remap, (0x200D, fit 16 (toBE 2 k)) ∈ logsSince s t) ∧
      (s.mgs.spares - remap.length < 16 → t.rb (Reg.INT_RAW (pageBase .mgn 0)) Irq.MGN_WARN = true)) ∧
    Completes (.eventLogWrite remap) s fun t =>
      t.mgs.spares = s.mgs.spares - remap.length ∧ t.rb (Reg.INT_RAW (pageBase .mgs 0)) Irq.MGS_MRAM_REMAP = true) ∧
  (∀ s, s.mgsUp = true →
    Completes .journalCompact s fun t =>
      t.mgs = { s.mgs with journal := journalLive s.mgs.journal, jhalf := !s.mgs.jhalf } ∧ sameBut [.mgs] s t) ∧
  (∀ r q n remap s, s.mgs.logQ = r :: q → s.mgsUp = true → r.sec = true → s.mgs.sec.length < secSize → n = (s.mgs.lastSeq + 1) % 2 ^ 32 →
    s.mgs.unacked ≤ s.mgs.sec.length →
    Completes (.eventLogWrite remap) s fun t =>
      t.mgs.logQ.take q.length = q ∧ (remap = [] → t.mgs.logQ = q) ∧ t.mgs.lastSeq = n ∧ t.mgs.sec = s.mgs.sec ++ [⟨n, r.bytes n⟩] ∧ t.mgs.countSec = s.mgs.countSec + 1 ∧
      t.mgs.hSec = shake (ascii "EVL-CHAIN" ++ s.mgs.hSec ++ r.bytes n) 32 ∧ t.mgs.unacked = s.mgs.unacked + 1 ∧
      t.mgs.gen = s.mgs.gen ∧ t.mgs.hGen = s.mgs.hGen ∧ t.mgs.countGen = s.mgs.countGen) ∧
  (∀ r q n remap s, s.mgs.logQ = r :: q → s.mgsUp = true → r.sec = true → s.mgs.sec.length = secSize → n = (s.mgs.lastSeq + 1) % 2 ^ 32 →
    s.mgs.unacked = secSize →
    Completes (.eventLogWrite remap) s fun t =>
      t.mgs.sec = s.mgs.sec.drop 1 ++ [⟨n, r.bytes n⟩] ∧ t.rd Reg.EVL_SEC_OVERWRITE = evtNext (s.rd Reg.EVL_SEC_OVERWRITE) ∧
      t.rb (Reg.INT_RAW (pageBase .evl 0)) Irq.EVL_SEC_OVERWRITE = true) ∧
  (∀ r q n remap s, s.mgs.logQ = r :: q → s.mgsUp = true → r.sec = false → r.snapshot = false → s.mgs.gen.length < genSize →
    s.mgs.rateSec = s.now / 1000000000 → s.mgs.rateCount < s.rf Reg.EVL_CFG 0 16 → n = (s.mgs.lastSeq + 1) % 2 ^ 32 →
    Completes (.eventLogWrite remap) s fun t =>
      t.mgs.logQ.take q.length = q ∧ (remap = [] → t.mgs.logQ = q) ∧ t.mgs.lastSeq = n ∧ t.mgs.gen = s.mgs.gen ++ [⟨n, r.bytes n⟩] ∧ t.mgs.countGen = s.mgs.countGen + 1 ∧
      t.mgs.hGen = shake (ascii "EVL-CHAIN" ++ s.mgs.hGen ++ r.bytes n) 32 ∧ t.mgs.rateCount = s.mgs.rateCount + 1 ∧
      t.mgs.sec = s.mgs.sec ∧ t.mgs.hSec = s.mgs.hSec ∧ t.rd64 Reg.EVL_TOTAL = (s.stat Reg.EVL_TOTAL 1).rd64 Reg.EVL_TOTAL) ∧
  (∀ r q remap s, s.mgs.logQ = r :: q → s.mgsUp = true → r.sec = false → r.snapshot = false → s.mgs.rateSec = s.now / 1000000000 →
    s.rf Reg.EVL_CFG 0 16 ≤ s.mgs.rateCount →
    Completes (.eventLogWrite remap) s fun t =>
      t.mgs.logQ.take q.length = q ∧ (remap = [] → t.mgs.logQ = q) ∧ t.mgs.gen = s.mgs.gen ∧ t.mgs.lastSeq = s.mgs.lastSeq ∧ t.mgs.supp = s.mgs.supp + 1 ∧
      t.rd Reg.EVL_SUPPRESSED = evtNext (s.rd Reg.EVL_SUPPRESSED)) ∧
  (∀ r q remap s, s.mgs.logQ = r :: q → s.mgsUp = true → r.sec = true → (s.mgs.countGen + s.mgs.countSec + 1) % 4096 = 0 →
    Completes (.eventLogWrite remap) s fun t =>
      t.mgs.ckpts.getLast? = some (fit 256 (t.ckptBody ++ (if s.vltOpen then t.dikSign "EVL-CHECKPOINT" t.ckptBody else List.replicate 114 0))) ∧
      t.rb (Reg.INT_RAW (pageBase .evl 0)) Irq.EVL_CKPT = true ∧
      (s.vltOpen = false → t.rd Reg.EVL_CKPT_UNSIGNED = evtNext (s.rd Reg.EVL_CKPT_UNSIGNED))) ∧
  (∀ s, s.mgsUp = true → 0 < s.mgs.supp → s.mgs.suppAt < s.now / 1000000000 → s.mgs.rateSec ≠ s.now / 1000000000 → 0 < s.rf Reg.EVL_CFG 0 16 →
    s.mgs.gen.length < genSize →
    Completes .suppressed s fun t =>
      t.mgs.supp = 0 ∧ t.mgs.gen.length = s.mgs.gen.length + 1 ∧
      t.mgs.gen.getLast?.map LogRec.bytes = some ((⟨s.now, 0x2011, 0x3FFF, toBE 4 s.mgs.supp⟩ : LogReq).bytes t.mgs.lastSeq)) ∧
  (∀ s, (s.mgs.supp = 0 ∨ s.now / 1000000000 ≤ s.mgs.suppAt) → Completes .suppressed s fun t => t = s)

/-- R421-R424, Table 15-9. One update session at a time: BEGIN opens it when its header passes the checks, WRITE fills the bank not in use,
FINISH verifies the image, ACTIVATE restarts from it in trial, CONFIRM ends the trial and raises the floor, ABORT ends the session; a
command out of order, of another master or during a trial is refused with its code; the trial's end without CONFIRM restores the old bank.
The choices of the model in log entry 76 enter here; for that no rule is cited. Each clause concludes that exec answers the next state
described, for every state and operands that meet its hypotheses. -/
def Obligations.UpdateSessionRuns : Prop :=
  (∀ m h s, s.serves m Reg.UPD_CMD (updSlot m) → s.mgsUp = true → m ≤ 3 → s.mgs.upd = none → s.mgs.trial = none →
    h = s.bankBytes m (Reg.UPD_BUF 0) 256 →
    Completes (.begin m) s fun t =>
      if s.updHeader h = 0 then
        t.mgs.upd = some ⟨m, 1, h⟩ ∧ t.mgs.staged = beAt h 12 4 ∧ logsSince s t = [(0xA003, fit 16 (toBE 1 2 ++ toBE 4 (beAt h 12 4) ++ toBE 1 m))] ∧
        t.slot (updSlot m) = s.answers m (updSlot m) (dataRes Code.ok [wd (beAt h 12 4)]) ∧ regsBut [] s t
      else
        t.mgs.upd = none ∧ t.mgs.updLast = s.updHeader h ∧ t.rd Reg.UPD_REFUSED = evtNext (s.rd Reg.UPD_REFUSED) ∧
        t.rb (Reg.INT_RAW (pageBase .upd 0)) Irq.UPD_REFUSED = true ∧
        logsSince s t = [(0xA004, fit 16 (toBE 1 (s.updHeader h) ++ toBE 4 (beAt h 12 4) ++ toBE 1 m))] ∧
        t.slot (updSlot m) = s.answers m (updSlot m) (codeRes (s.updHeader h))) ∧
  (∀ (h : List Byte) (s : State), (s.updHeader h = 0 ↔
      beAt h 0 4 = 0x53494C37 ∧ beAt h 4 2 = 1 ∧ beAt h 20 4 ≤ beAt h 12 4 ∧ 4 ≤ beAt h 24 4 ∧ beAt h 24 4 ≤ 4193820 ∧ beAt h 24 4 % 4 = 0 ∧
      beAt h 8 3 = (s.rd Reg.GLB_CHIP_ID).toNat / 256 ∧ s.mgs.floor ≤ beAt h 12 4 ∧ beAt h 16 4 ≤ s.mgs.fwVer ∧
      (s.vlt.cosign = true → (beAt h 6 2).testBit 0 = true) ∧ s.vlt.updLock = false ∧ s.moving = false ∧
      (s.rb Reg.UPD_CFG 1 = true → s.rf Reg.UPD_VBAT_MIN 0 16 ≤ s.rf (Reg.MGS_SENS 18) 0 16)) ∧
    (s.rb Reg.UPD_CFG 0 = false → s.moving = false)) ∧
  (∀ m off len h s, s.serves m Reg.UPD_CMD (updSlot m) → s.mgsUp = true → m ≤ 3 → s.mgs.upd = some ⟨m, 1, h⟩ → s.mgs.trial = none →
    off = (s.rd (bankKey m Reg.UPD_OFFSET)).toNat → len = (s.rd (bankKey m Reg.UPD_LEN)).toNat → off % 4 = 0 → len % 4 = 0 → 4 ≤ len →
    len ≤ 2048 → off + len ≤ 0x400000 → s.mgs.bank < 2 →
    Completes (.updWrite m) s fun t =>
      t.bankTab (1 - s.mgs.bank) = putBytes (s.bankTab (1 - s.mgs.bank)) off (s.bankBytes m (Reg.UPD_BUF 0) len) ∧
      t.bankTab s.mgs.bank = s.bankTab s.mgs.bank ∧ t.mgs.upd = s.mgs.upd ∧
      t.slot (updSlot m) = s.answers m (updSlot m) (dataRes Code.ok [wd len]) ∧ regsBut [] s t) ∧
  (∀ m h s, s.serves m Reg.UPD_CMD (updSlot m) → s.mgsUp = true → m ≤ 3 → s.mgs.upd = some ⟨m, 1, h⟩ → s.mgs.trial = none →
    Completes (.finish m) s fun t =>
      if s.updSigns h = 0 then
        t.mgs.upd = some ⟨m, 2, h⟩ ∧ t.slot (updSlot m) = s.answers m (updSlot m) (dataRes Code.ok [wd (beAt h 12 4)]) ∧ regsBut [] s t
      else
        t.mgs.upd = s.mgs.upd ∧ t.mgs.updLast = s.updSigns h ∧ t.rd Reg.UPD_REFUSED = evtNext (s.rd Reg.UPD_REFUSED) ∧
        t.slot (updSlot m) = s.answers m (updSlot m) (codeRes (s.updSigns h))) ∧
  (∀ m h s, s.serves m Reg.UPD_CMD (updSlot m) → s.mgsUp = true → m ≤ 3 → s.mgs.upd = some ⟨m, 2, h⟩ → s.mgs.trial = none →
    s.updGuards = 0 → s.mgs.commits = [] → s.mgs.bank < 2 →
    Completes (.activate m) s fun t =>
      t.mgs.bank = 1 - s.mgs.bank ∧ t.mgs.trial = some (s.mgs.fwVer, m) ∧ t.mgs.confirmed = false ∧ t.mgs.down = true ∧ t.mgs.upd = none ∧
      t.mgs.logQ.map LogReq.type = [0x2002] ++ (if s.mgs.unborLevel = 0 then [] else [0xA00F]) ∧ t.mgs.floor = s.mgs.floor ∧
      t.rb (Reg.INT_RAW (pageBase .upd 0)) Irq.UPD_ACTIVATED = true ∧ t.rd Reg.MGS_RESTART = evtNext (s.rd Reg.MGS_RESTART) ∧
      t.slot (updSlot m) = s.answers m (updSlot m) (dataRes Code.ok [wd (beAt h 12 4)])) ∧
  (∀ m h s, s.serves m Reg.UPD_CMD (updSlot m) → s.mgsUp = true → m ≤ 3 → s.mgs.upd = some ⟨m, 2, h⟩ → s.mgs.trial = none → s.updGuards ≠ 0 →
    Completes (.activate m) s fun t =>
      t.mgs.bank = s.mgs.bank ∧ t.mgs.upd = s.mgs.upd ∧ t.mgs.trial = none ∧ t.mgs.updLast = s.updGuards ∧
      t.slot (updSlot m) = s.answers m (updSlot m) (codeRes s.updGuards)) ∧
  (∀ m x s, s.serves m Reg.UPD_CMD (updSlot m) → s.mgsUp = true → m ≤ 3 → s.mgs.trial = some x →
    Completes (.activate m) s fun t => t.mgs = s.mgs ∧ t.slot (updSlot m) = s.answers m (updSlot m) (codeRes 0x8E) ∧ regsBut [] s t) ∧
  (∀ m old s, s.serves m Reg.UPD_CMD (updSlot m) → s.mgsUp = true → m ≤ 3 → s.mgs.upd = none → s.mgs.trial = some (old, m) →
    Completes (.confirm m) s fun t =>
      t.mgs.trial = none ∧ t.mgs.confirmed = true ∧ t.mgs.floor = max s.mgs.floor (s.bankField s.mgs.bank 20) ∧ t.mgs.bank = s.mgs.bank ∧
      t.rb (Reg.INT_RAW (pageBase .upd 0)) Irq.UPD_CONFIRMED = true ∧ (logsSince s t).map Prod.fst = [0xA006] ∧
      t.slot (updSlot m) = s.answers m (updSlot m) (dataRes Code.ok [wd s.mgs.fwVer]) ∧ regsBut [Reg.INT_RAW (pageBase .upd 0)] s t) ∧
  (∀ m u s, s.serves m Reg.UPD_CMD (updSlot m) → s.mgsUp = true → m ≤ 3 → s.mgs.upd = some u → u.m = m →
    Completes (.abort m) s fun t =>
      t.mgs = { s.mgs with upd := none } ∧ (t.slot (updSlot m)).res.code = Code.ok ∧ regsBut [] s t) ∧
  (∀ m u s, s.serves m Reg.UPD_CMD (updSlot m) → s.mgsUp = true → m ≤ 3 → s.mgs.upd = some u → u.m ≠ m → s.mgs.trial = none →
    (Completes (.begin m) s fun t => t.mgs = s.mgs ∧ t.slot (updSlot m) = s.answers m (updSlot m) (codeRes 0x8D)) ∧
    (Completes (.updWrite m) s fun t => t.mgs = s.mgs ∧ t.slot (updSlot m) = s.answers m (updSlot m) (codeRes 0x8D)) ∧
    (Completes (.finish m) s fun t => t.mgs = s.mgs ∧ t.slot (updSlot m) = s.answers m (updSlot m) (codeRes 0x8D)) ∧
    (Completes (.activate m) s fun t => t.mgs = s.mgs ∧ t.slot (updSlot m) = s.answers m (updSlot m) (codeRes 0x8D)) ∧
    (Completes (.abort m) s fun t => t.mgs = s.mgs ∧ t.slot (updSlot m) = s.answers m (updSlot m) (codeRes 0x8D))) ∧
  (∀ m s, s.serves m Reg.UPD_CMD (updSlot m) → s.mgsUp = true → m ≤ 3 → s.mgs.upd = none → s.mgs.trial = none →
    (Completes (.updWrite m) s fun t => t.mgs = s.mgs ∧ t.slot (updSlot m) = s.answers m (updSlot m) (codeRes 0x8C)) ∧
    (Completes (.finish m) s fun t => t.mgs = s.mgs ∧ t.slot (updSlot m) = s.answers m (updSlot m) (codeRes 0x8C)) ∧
    (Completes (.activate m) s fun t => t.mgs = s.mgs ∧ t.slot (updSlot m) = s.answers m (updSlot m) (codeRes 0x8C)) ∧
    (Completes (.confirm m) s fun t => t.mgs = s.mgs ∧ t.slot (updSlot m) = s.answers m (updSlot m) (codeRes 0x8C))) ∧
  (∀ old m s, s.mgs.trial = some (old, m) → s.mgs.bank < 2 →
    Completes .updTrialExpire s fun t =>
      t.mgs.trial = none ∧ t.mgs.bank = 1 - s.mgs.bank ∧ t.mgs.down = true ∧ t.mgs.floor = s.mgs.floor ∧
      t.rd Reg.UPD_FALLBACK = evtNext (s.rd Reg.UPD_FALLBACK)) ∧
  (∀ s, s.mgs.trial = none → Completes .updTrialExpire s fun t => t = s)

/-- R373, R420, R425-R427, R430, R469, R470. Sensors are stored each sample, an alarm begins outside the thresholds and ends after 100 ms
inside; a planner run sets guard band, target, pulse and forecast, and warns; the core voltage moves 1 mV a step; a stopped performance
counter is preset; a GPIO edge in an enabled direction is captured, and GPI_OUT drives the lines it may; the roster's checks are judged.
The choices of the model in log entries 61, 77, 78, 79 enter here; for those no rule is cited. Each clause concludes that exec answers the
next state described, for every state and operands that meet its hypotheses. -/
def Obligations.SensorsMarginsCountersAndLines : Prop :=
  (∀ k v vals s, s.mgsUp = true → k < 18 → s.sensOn k = true → vals[k]? = some v →
    Completes (.sensorSample vals) s fun t =>
      t.rd (Reg.MGS_SENS k) = wd (v % 0x10000) ∧
      (sensBad k (v % 0x10000) (s.rd (Reg.MGS_SENS_THR k)) = true → Tab.get (fun _ => none) t.mgs.alarms k = some s.now ∧
        (Tab.get (fun _ => none) s.mgs.alarms k = none → t.rb (Reg.INT_RAW (pageBase .mgs 0)) Irq.MGS_SENS_ALARM = true ∧
          (s.rd Reg.MGS_SENS_ALARM = 0 → t.rd Reg.MGS_SENS_ALARM ≠ 0) ∧
          (0x200A, fit 16 (toBE 1 k ++ toBE 2 (v % 0x10000))) ∈ logsSince s t)) ∧
      (sensBad k (v % 0x10000) (s.rd (Reg.MGS_SENS_THR k)) = false →
        Tab.get (fun _ => none) t.mgs.alarms k = (Tab.get (fun _ => none) s.mgs.alarms k).filter (fun a => decide (s.now < a + 100000000)))) ∧
  (∀ k vals s, s.mgsUp = true → k < 19 → s.sensOn k = false →
    Completes (.sensorSample vals) s fun t =>
      t.rd (Reg.MGS_SENS k) = 0 ∧ (Tab.get (fun _ => none) s.mgs.alarms k = none → Tab.get (fun _ => none) t.mgs.alarms k = none)) ∧
  (∀ v vals s, s.mgsUp = true → vals[18]? = some v →
    Completes (.sensorSample vals) s fun t => t.rd (Reg.MGS_SENS 18) = wd (min (v * s.rf Reg.MGS_VBAT_CFG 0 16 / 100) 0xFFFF)) ∧
  (∀ s, s.mgsUp = true → s.rb Reg.MGN_CFG 0 = true →
    Completes .marginPeriod s fun t => t.mgs = { s.mgs with planRun := true } ∧ sameBut [.mgs] s t) ∧
  (∀ s, s.rb Reg.MGN_CFG 0 = false → Completes .marginPeriod s fun t => t = s) ∧
  (∀ taps rx age rep sram eye wear loss vmin short pulse months g s, s.mgs.planRun = true → s.mgs.planning = [] →
    g = min (s.rf Reg.MGN_CFG 24 8 + loss) 255 →
    Completes (.marginRunDone taps rx age rep sram eye wear loss vmin short pulse months) s fun t =>
      t.rd Reg.MGN_GUARD = wd g ∧ t.mgs.avsGoal = clampN 680 860 (vmin + g) ∧ t.rd Reg.MGN_MRAM_PULSE = wd (clampN 10 40 pulse) ∧
      t.rf Reg.MGN_STAT 16 16 = min months 0xFFFF ∧ t.rd64 Reg.MGN_LAST_RUN = s.now ∧ t.mgs.planRun = false ∧
      (∀ k, k < 32 → t.rd (Reg.MGN_AGE k) = wd (age.getD k 0 % 2 ^ 16)) ∧ (∀ k, k < 64 → t.rd (Reg.MGN_REPLICA k) = wd (rep.getD k 0 % 2 ^ 16)) ∧
      t.rb (Reg.INT_RAW (pageBase .mgn 0)) Irq.MGN_RUN_DONE = true ∧ t.rd Reg.MGN_AVS = s.rd Reg.MGN_AVS ∧ .avsRead ∈ t.out ∧
      (∀ n, 20 ≤ n → n ≤ 22 → (s.rb (Reg.EPT_SERDES n) 6 = false → (t.eport n).planTaps = wd (taps.getD (n - 20) 0) ∧ (t.eport n).rxEq = rx.getD (n - 20) 0) ∧
        (s.rb (Reg.EPT_SERDES n) 6 = true → t.eport n = s.eport n)) ∧
      (0x200B ∈ (logsSince s t).map Prod.fst ↔ min months 0xFFFF ≤ s.rf Reg.MGN_CFG 16 8) ∧
      (0x200C ∈ (logsSince s t).map Prod.fst ↔ clampN 680 860 (vmin + g) = 860 ∧ short = true)) ∧
  (∀ m months s, s.mgs.planRun = true → s.mgs.planning = [m] → (s.slot (mgsSlot m)).busy = true → s.svc.release = [] → months ≤ 0xFFFF →
    Completes (.marginRunDone [] [] [] [] 0 [] [] 0 700 false 20 months) s fun t =>
      t.mgs.planning = [] ∧ t.slot (mgsSlot m) = (s.slot (mgsSlot m)).complete (dataRes Code.ok [wd months])) ∧
  (∀ s, s.rf Reg.MGN_AVS 0 10 < s.mgs.avsGoal → s.mgs.avsGoal ≤ 860 →
    Completes .avsStep s fun t =>
      t.rf Reg.MGN_AVS 0 10 = s.rf Reg.MGN_AVS 0 10 + 1 ∧ t.out = s.out ++ [.avs (s.rf Reg.MGN_AVS 0 10 + 1)] ∧ regsBut [Reg.MGN_AVS] s t) ∧
  (∀ s, s.mgs.avsGoal < s.rf Reg.MGN_AVS 0 10 →
    Completes .avsStep s fun t =>
      if s.tooHot then t = s
      else t.rf Reg.MGN_AVS 0 10 = s.rf Reg.MGN_AVS 0 10 - 1 ∧ t.out = s.out ++ [.avs (s.rf Reg.MGN_AVS 0 10 - 1)] ∧ regsBut [Reg.MGN_AVS] s t) ∧
  (∀ s, s.mgs.avsGoal = s.rf Reg.MGN_AVS 0 10 → Completes .avsStep s fun t => t = s) ∧
  (∀ m i v s, s.admits m (Reg.PFC_CNT_LO i) = true → i < 64 → s.rb (Reg.PFC_SEL i) 16 = false → s.perfList = [] →
    Completes (.pfcCntWrite m i false v) s fun t => t.rd (Reg.PFC_CNT_LO i) = v ∧ t.rd (Reg.PFC_CNT_HI i) = s.rd (Reg.PFC_CNT_HI i) ∧ regsBut [] s t) ∧
  (∀ m i v s, s.admits m (Reg.PFC_CNT_HI i) = true → i < 64 → s.rb (Reg.PFC_SEL i) 16 = false → s.perfList = [] →
    Completes (.pfcCntWrite m i true v) s fun t =>
      t.rf (Reg.PFC_CNT_HI i) 0 16 = fld v 0 16 ∧ t.rb (Reg.PFC_CNT_HI i) 31 = (s.rb (Reg.PFC_CNT_HI i) 31 && !bit v 31) ∧
      t.rd (Reg.PFC_CNT_LO i) = s.rd (Reg.PFC_CNT_LO i) ∧ regsBut [] s t) ∧
  (∀ n s, n < 32 → s.pwr.mgsOn = true → s.rb Reg.GPI_IN n = false →
    Completes (.gpioEdge n true) s fun t =>
      t.rb Reg.GPI_IN n = true ∧ t.rb Reg.GPI_EDGE n = (s.rb Reg.GPI_EDGE n || s.rb Reg.GPI_RISE_EN n) ∧
      (s.rb Reg.GPI_RISE_EN n = true → t.rb (Reg.INT_RAW (pageBase .gpi 0)) Irq.GPI_EDGE = true) ∧
      regsBut [Reg.GPI_IN, Reg.GPI_EDGE, Reg.INT_RAW (pageBase .gpi 0)] s t) ∧
  (∀ n s, n < 32 → s.pwr.mgsOn = true → s.rb Reg.GPI_IN n = true →
    Completes (.gpioEdge n false) s fun t =>
      t.rb Reg.GPI_IN n = false ∧ t.rb Reg.GPI_EDGE n = (s.rb Reg.GPI_EDGE n || s.rb Reg.GPI_FALL_EN n) ∧
      regsBut [Reg.GPI_IN, Reg.GPI_EDGE, Reg.INT_RAW (pageBase .gpi 0)] s t) ∧
  (∀ m v s, s.admits m Reg.GPI_OUT = true → s.gpioHeld = 0 → Completes (.gpiOutWrite m v) s fun t => t.rd Reg.GPI_OUT = v ∧ regsBut [Reg.GPI_OUT] s t) ∧
  (∀ m v s, s.admits m Reg.GPI_OUT = true → (s.rd Reg.GPI_OUT ^^^ v) &&& s.gpioHeld ≠ 0 →
    Completes (.gpiOutWrite m v) s fun t =>
      t.rd Reg.GPI_OUT = (s.rd Reg.GPI_OUT &&& s.gpioHeld) ||| (v &&& ~~~s.gpioHeld) ∧ t.rd Reg.GPI_OUT_REJ = evtNext (s.rd Reg.GPI_OUT_REJ) ∧
      t.rb (Reg.INT_RAW (pageBase .gpi 0)) Irq.GPI_OUT_REJ = true) ∧
  (∀ n s, s.mgsUp = true → s.twn.roster.map Prod.fst = [n] → (s.rst n).valid = true → (s.rst n).check = true →
    Completes .rosterCheck s fun t =>
      Tab.get (fun _ => none) t.twn.checks n = some (fit 16 (Config.trng s.vlt.draws 16)) ∧ t.twn.roster = s.twn.roster ∧
      t.vlt.draws = s.vlt.draws + 1 ∧ regsBut [] s t) ∧
  (∀ n nonce s, s.mgsUp = true → Tab.get (fun _ => none) s.twn.checks n = some nonce →
    Completes (.rosterReport n []) s fun t =>
      (t.rst n).fails = min ((s.rst n).fails + 1) 255 ∧ (t.rst n).result = (if 2 ≤ (s.rst n).fails then 3 else (s.rst n).result) ∧
      (∀ j, j ≠ n → t.rst j = s.rst j) ∧ Tab.get (fun _ => none) t.twn.checks n = none ∧
      ((t.rst n).result ≠ (s.rst n).result → t.rb (Reg.INT_RAW (pageBase .twn 0)) Irq.TWN_ROSTER = true)) ∧
  (∀ n nonce rep s, s.mgsUp = true → Tab.get (fun _ => none) s.twn.checks n = some nonce → rep ≠ [] →
    Completes (.rosterReport n rep) s fun t =>
      (reportOk rep nonce = false → t = s) ∧
      (reportOk rep nonce = true → (t.rst n).result =
        (if reportDigest rep ≠ (s.rst n).digest then 2 else if beAt rep 1 1 ≠ 1 then 4 else if beAt rep 8 1 = 2 ∧ (s.rst n).allowE2 = false then 5 else 1)) ∧
      (reportOk rep nonce = true → (t.rst n).result = 1 → (t.rst n).fails = 0))

/-- R437, R438, R440-R443, R446, Tables 16-3 and 16-4. WRITE stages bytes in a stopped partition's window; LOAD checks an image in the order
of Table 16-3 and copies it, and its partition runs when the copy is done; STOP and RESTART; a watchdog or memory error restarts the
partition and the third within 60 s halts it; autostart loads the stored images; a claim is granted once and released by its owner. R432,
R433, R435, R444: the loader locks the PMP entries of a partition's cores, and a core reaches memory, counters and rings only as its map
and entries let it. The choices of the model in log entries 62, 63, 95, 96 enter here; for those no rule is cited. Each clause concludes
that exec answers the next state described, for every state and operands that meet its hypotheses. -/
def Obligations.ServiceClusterRunsPartitions : Prop :=
  (∀ m n len a s, s.serves m Reg.SVC_CMD (svcSlot m) → m ≤ 3 → n < 4 → len = s.rf (bankKey m Reg.SVC_LEN) 0 12 → 4 ≤ len → len ≤ 2048 → len % 4 = 0 →
    a = (s.part n).window + (s.rd (bankKey m Reg.SVC_OFFSET)).toNat / 4 * 4 → ((s.part n).state = 0 ∨ (s.part n).state = 2) →
    (s.part n).loading = none → s.memIn a len = true →
    Completes (.svcWrite m n) s fun t =>
      t.svc.mem = putBytes s.svc.mem a (s.bankBytes m (Reg.SVC_BUF 0) len) ∧ t.svc.parts = s.svc.parts ∧
      t.slot (svcSlot m) = s.answers m (svcSlot m) (dataRes Code.ok [wd len]) ∧ regsBut [] s t) ∧
  (∀ m n s, s.serves m Reg.SVC_CMD (svcSlot m) → m ≤ 3 → n < 4 → 4 ≤ s.rf (bankKey m Reg.SVC_LEN) 0 12 → s.rf (bankKey m Reg.SVC_LEN) 0 12 ≤ 2048 →
    s.rf (bankKey m Reg.SVC_LEN) 0 12 % 4 = 0 → ((s.part n).state = 1 ∨ (s.part n).state = 3) →
    Completes (.svcWrite m n) s fun t =>
      t.svc = s.svc ∧ t.slot (svcSlot m) = s.answers m (svcSlot m) (codeRes 0x82) ∧ regsBut [] s t) ∧
  (∀ m n stored k x s, s.serves m Reg.SVC_CMD (svcSlot m) → m ≤ 3 → n < 4 → (if stored then s.storedImg k else some (s.stagedImg n)) = some x →
    x.part < 4 →
    Completes (.svcLoad m n stored k) s fun t =>
      if s.loadCheck x = 0 then
        (t.part x.part).loading = some m ∧ (t.part x.part).state = (s.part x.part).state ∧ (t.part x.part).cores = x.cores ∧
        (t.part x.part).version = x.version ∧ (t.part x.part).base = x.base ∧ (t.part x.part).len = x.len ∧ (t.part x.part).pages = x.pages ∧
        (t.part x.part).stored = (if stored then some k else none) ∧
        (∀ i, i < x.body.length → Tab.get (fun _ => 0) t.svc.mem (x.base + i) = x.body.getD i 0) ∧
        (∀ i, x.body.length ≤ i → i < x.len → Tab.get (fun _ => 0) t.svc.mem (x.base + i) = 0) ∧
        t.slot (svcSlot m) = (s.slot (svcSlot m)).accept m ∧ regsBut [] s t
      else t.svc = s.svc ∧ t.slot (svcSlot m) = s.answers m (svcSlot m) (codeRes (s.loadCheck x)) ∧ regsBut [] s t) ∧
  (∀ m n k s, s.serves m Reg.SVC_CMD (svcSlot m) → m ≤ 3 → s.storedImg k = none →
    Completes (.svcLoad m n true k) s fun t =>
      t.svc = s.svc ∧ t.slot (svcSlot m) = s.answers m (svcSlot m) (codeRes 0x86) ∧ regsBut [] s t) ∧
  (∀ (x : SvcImg) (s : State), s.loadCheck x = 0 ↔
      x.word 0 = 0x53564331 ∧ beAt x.hdr 4 2 = 1 ∧ beAt x.hdr 8 3 = fld (s.rd Reg.GLB_CHIP_ID) 8 24 ∧ x.cores ≠ 0 ∧
      (∀ p ∈ s.svc.parts, (p.2.state = 1 ∨ p.2.state = 3 ∨ p.2.loading.isSome = true) → p.2.cores &&& x.cores = 0) ∧
      s.memIn x.base x.len = true ∧
      (∀ p ∈ s.svc.parts, p.1 ≠ x.part → p.2.state ≠ 0 → overlaps x.base x.len p.2.base p.2.len = false) ∧ s.vlt.claimed = true ∧
      shake x.body 64 = (x.hdr.drop 80).take 64 ∧ Config.ed448Verify s.vlt.ownerKey (ascii "SSN-SVC-OWNER") x.hdr x.sig = true) ∧
  (∀ n m s, (s.part n).loading = some m → (s.part n).state ≠ 1 → s.svc.release = [] →
    (m < 5 → (s.slot (svcSlot m)).busy = true) →
    Completes (.svcLoadDone n) s fun t =>
      (t.part n).state = 1 ∧ (t.part n).loading = none ∧ (t.part n).version = (s.part n).version ∧ (∀ j, j ≠ n → t.part j = s.part j) ∧
      (m < 5 → t.slot (svcSlot m) = (s.slot (svcSlot m)).complete (dataRes Code.ok [wd (s.part n).version])) ∧ t.svc.mem = s.svc.mem ∧
      (∀ c, c < 4 → Tab.get (fun _ => []) t.svc.pmp c =
        if (s.part n).cores.testBit c then s.pmpFor n else Tab.get (fun _ => []) s.svc.pmp c)) ∧
  (∀ n s, (s.part n).loading = none → Completes (.svcLoadDone n) s fun t => t = s) ∧
  (∀ m n s, s.serves m Reg.SVC_CMD (svcSlot m) → m ≤ 3 → (s.part n).state = 1 → s.svc.claims = [] →
    Completes (.svcStop m n) s fun t =>
      (t.part n).state = 2 ∧ (t.part n).loading = none ∧ (∀ j, j ≠ n → t.part j = s.part j) ∧ t.svc.mem = s.svc.mem ∧
      (∀ c, c < 4 → (s.part n).cores.testBit c = true → Tab.get (fun _ => []) t.svc.pmp c = []) ∧
      (∀ k ∈ clusterRings, s.ringPart k = n → t.ringOn k = false) ∧
      t.slot (svcSlot m) = s.answers m (svcSlot m) (codeRes Code.ok) ∧ regsBut (clusterRings.map ringCtrl) s t) ∧
  (∀ m n r s, s.serves m Reg.SVC_CMD (svcSlot m) → m ≤ 3 → m ≠ 2 → (s.part n).state = 1 → s.svc.claims = [(r, n + 1)] → r = 0 →
    Completes (.svcStop m n) s fun t =>
      Tab.get (fun _ => 0) t.svc.claims r = 0 ∧
      ((s.slot (tapSlot 2)).valid = true → t.slot (tapSlot 2) = (s.slot (tapSlot 2)).release) ∧
      ((s.slot (tapSlot 2)).valid = false → (s.slot (tapSlot 2)).busy = true → tapSlot 2 ∈ t.svc.release)) ∧
  (∀ m n s, s.serves m Reg.SVC_CMD (svcSlot m) → m ≤ 3 → (s.part n).state = 1 → (s.part n).stored = none → s.svc.claims = [] →
    Completes (.svcRestart m n) s fun t =>
      (t.part n).state = 2 ∧ t.rd Reg.SVC_RESTART = evtNext (s.rd Reg.SVC_RESTART) ∧
      t.rb (Reg.INT_RAW (pageBase .svc 0)) Irq.SVC_RESTART = true ∧ (logsSince s t).head?.map Prod.snd = some (fit 16 (toBE 1 n ++ toBE 1 1)) ∧
      t.slot (svcSlot m) = s.answers m (svcSlot m) (codeRes Code.ok)) ∧
  (∀ m n k x s, s.serves m Reg.SVC_CMD (svcSlot m) → m ≤ 3 → (s.part n).state = 3 → (s.part n).stored = some k → s.storedImg k = some x →
    x.part = n →
    Completes (.svcRestart m n) s fun t =>
      if (s.setPart n { s.part n with state := 2 }).loadCheck x = 0 then (t.part n).loading = some m ∧ (t.part n).cores = x.cores
      else (t.part n).state = 2 ∧ t.rd Reg.SVC_LOAD_FAIL = evtNext (s.rd Reg.SVC_LOAD_FAIL) ∧
        t.slot (svcSlot m) = s.answers m (svcSlot m) (codeRes ((s.setPart n { s.part n with state := 2 }).loadCheck x))) ∧
  (∀ n stored k s, s.serves 4 Reg.SVC_CMD (svcSlot 4) →
    Completes (.svcWrite 4 n) s (deniesSvc s) ∧ Completes (.svcLoad 4 n stored k) s (deniesSvc s) ∧
    Completes (.svcStop 4 n) s (deniesSvc s) ∧ Completes (.svcRestart 4 n) s (deniesSvc s)) ∧
  (∀ n s, (s.part n).state = 1 → (s.part n).wdt ≠ 0 → (s.part n).restarts = [] → (s.part n).stored = none → s.svc.claims = [] →
    Completes (.svcWdtExpire n false) s fun t =>
      (t.part n).state = 2 ∧ (t.part n).restarts = [s.now] ∧ t.rd Reg.SVC_WDT_EXP = evtNext (s.rd Reg.SVC_WDT_EXP) ∧
      t.rd Reg.SVC_RESTART = evtNext (s.rd Reg.SVC_RESTART) ∧ t.slots = s.slots) ∧
  (∀ n mem a b s, (s.part n).state = 1 → (s.part n).wdt ≠ 0 → (s.part n).restarts = [a, b] → s.now < a + 60000000000 → s.now < b + 60000000000 →
    s.svc.claims = [] →
    Completes (.svcWdtExpire n mem) s fun t =>
      (t.part n).state = 3 ∧ t.rb (Reg.INT_RAW (pageBase .svc 0)) Irq.SVC_HALTED = true ∧ t.rd Reg.SVC_RESTART = s.rd Reg.SVC_RESTART) ∧
  (∀ n s, (s.part n).state = 1 → (s.part n).restarts = [] → (s.part n).stored = none → s.svc.claims = [] →
    Completes (.svcWdtExpire n true) s fun t => (t.part n).state = 2 ∧ t.rd Reg.SVC_MEM_UNCORR = evtNext (s.rd Reg.SVC_MEM_UNCORR)) ∧
  (∀ n mem s, (s.part n).state ≠ 1 → Completes (.svcWdtExpire n mem) s fun t => t = s) ∧
  (∀ c n p s, s.partOf c = some (n, p) →
    Completes (.svcWdtService c) s fun t =>
      (c, s.now) ∈ (t.part n).serviced ∧ (t.part n).state = p.state ∧ (∀ j, j ≠ n → t.part j = s.part j) ∧ sameBut [.svc] s t) ∧
  (∀ s, (∀ k, k < 8 → s.storedImg k = none) → Completes .svcAutostart s fun t => t = s) ∧
  (∀ x s, s.storedImg 0 = some x → x.autostart = true → x.part < 4 → (∀ k, k ≠ 0 → s.storedImg k = none) →
    Completes .svcAutostart s fun t =>
      if s.loadCheck x = 0 then (t.part x.part).loading = some 8 ∧ (t.part x.part).cores = x.cores ∧ regsBut [] s t
      else t.svc = s.svc ∧ t.rd Reg.SVC_LOAD_FAIL = evtNext (s.rd Reg.SVC_LOAD_FAIL) ∧
        t.rb (Reg.INT_RAW (pageBase .svc 0)) Irq.SVC_LOAD_FAIL = true) ∧
  (∀ c r n p s, s.partOf c = some (n, p) →
    Completes (.svcClaimRead c r) s fun t =>
      Tab.get (fun _ => 0) t.svc.claims r = (if Tab.get (fun _ => 0) s.svc.claims r = 0 then n + 1 else Tab.get (fun _ => 0) s.svc.claims r) ∧
      (∀ j, j ≠ r → Tab.get (fun _ => 0) t.svc.claims j = Tab.get (fun _ => 0) s.svc.claims j) ∧ sameBut [.svc] s t) ∧
  (∀ c r n p s, s.partOf c = some (n, p) →
    Completes (.svcClaimRelease c r) s fun t =>
      Tab.get (fun _ => 0) t.svc.claims r =
        (if Tab.get (fun _ => 0) s.svc.claims r = n + 1 then 0 else Tab.get (fun _ => 0) s.svc.claims r) ∧
      (∀ j, j ≠ r → Tab.get (fun _ => 0) t.svc.claims j = Tab.get (fun _ => 0) s.svc.claims j) ∧ sameBut [.svc] s t) ∧
  (∀ ok s, s.pwr.svcOn = true → s.rb Reg.SVC_DDR_CFG 0 = true →
    Completes (.ddrReady ok) s fun t =>
      t.rb Reg.SVC_DDR_STAT 0 = ok ∧ t.rb Reg.SVC_DDR_STAT 1 = !ok ∧ regsBut [Reg.SVC_DDR_STAT] s t ∧ sameBut [.regs] s t) ∧
  (∀ ok s, (s.pwr.svcOn = false ∨ s.rb Reg.SVC_DDR_CFG 0 = false) → Completes (.ddrReady ok) s fun t => t = s) ∧
  (∀ c a user full v n p s, s.partOf c = some (n, p) → 0x4000000 ≤ a → (s.regionOf a = none ∨ s.pmpLets c a = false) →
    (Completes (.multiwordLowRead 2 a full c user) s fun t => t.out = s.out ++ [.coreFault c a] ∧ t.svc.mem = s.svc.mem ∧ regsBut [] s t) ∧
    (s.inj = [] → Completes (.regWrite 2 a v full c) s fun t => t.out = s.out ++ [.coreFault c a] ∧ t.svc.mem = s.svc.mem ∧ regsBut [] s t)) ∧
  (∀ c a user full v n p s, s.partOf c = some (n, p) → 0x4000000 ≤ a → s.regionOf a = some .memory → s.pmpLets c a = true →
    (Completes (.multiwordLowRead 2 a full c user) s fun t =>
      t.out = s.out ++ [.coreRead c a (BitVec.ofNat 64 (ofLE (bytesFrom s.svc.mem a 4)))] ∧ t.svc.mem = s.svc.mem ∧ regsBut [] s t) ∧
    (s.inj = [] → Completes (.regWrite 2 a v full c) s fun t => t.svc.mem = (s.memPut a (toLE 4 v.toNat)).svc.mem ∧ t.out = s.out ∧ regsBut [] s t)) ∧
  (∀ c i a user full n p s, s.partOf c = some (n, p) → i < 64 → a = 0x18010000 + 8 * i → s.pmpLets c a = true →
    Completes (.multiwordLowRead 2 a full c user) s fun t =>
      t.out = s.out ++ [.coreRead c a (if user && !s.rb Reg.PFC_UREAD (i / 8) then 0 else s.counterMap i false)] ∧ regsBut [] s t) ∧
  (∀ r v full n p s, 16 ≤ r → r < 24 → s.partOf s.svc.core = some (n, p) → s.ringPart (16 + r) ≠ n →
    Completes (.rxDb r v full) s fun t => t.hif = s.hif ∧ t.out = s.out ++ [.coreFault s.svc.core (0x18001100 + 8 * (r - 16))] ∧ regsBut [] s t)

end
end

