-- ==== Sys2Proof/Laws/Tab.lean ====
section
/-! SUPPORT. Sparse tables: a read after a write, and every operation keeps the canonical form. -/

set_option Elab.async false

namespace Sys2Proof.Machine

variable {V : Type}

theorem Tab.get_put_same (d : Nat → V) (t : Tab V) (k : Nat) (x : V) : Tab.get d (Tab.put t k x) k = x := by
  induction t with
  | nil => simp [Tab.put, Tab.get]
  | cons p t ih =>
    obtain ⟨a, v⟩ := p
    unfold Tab.put
    split
    · simp [Tab.get]
    · split
      · simp [Tab.get]
      · simp [Tab.get, *]

theorem Tab.get_put_ne (d : Nat → V) (t : Tab V) {k j : Nat} (x : V) (h : k ≠ j) : Tab.get d (Tab.put t k x) j = Tab.get d t j := by
  induction t with
  | nil => simp [Tab.put, Tab.get, h]
  | cons p t ih =>
    obtain ⟨a, v⟩ := p
    unfold Tab.put
    split
    · subst_vars; simp [Tab.get, h]
    · split
      · simp [Tab.get, h]
      · simp [Tab.get, ih]

theorem Tab.rising_mono {lo hi : Nat} (h : lo ≤ hi) : ∀ {t : Tab V}, Tab.rising hi t = true → Tab.rising lo t = true
  | [], _ => rfl
  | (a, v) :: t, k => by
    simp only [Tab.rising, Bool.and_eq_true, decide_eq_true_eq] at *
    exact ⟨Nat.le_trans h k.1, k.2⟩

/-- A key below every listed one reads as unlisted. -/
theorem Tab.get_low (d : Nat → V) : ∀ {t : Tab V} {lo k : Nat}, Tab.rising lo t = true → k < lo → Tab.get d t k = d k
  | [], _, _, _, _ => rfl
  | (a, v) :: t, lo, k, h, hk => by
    simp only [Tab.rising, Bool.and_eq_true, decide_eq_true_eq] at h
    have : a ≠ k := by omega
    simp only [Tab.get, this, if_false]
    exact Tab.get_low d h.2 (by omega)

theorem Tab.rising_put {k : Nat} {x : V} : ∀ {t : Tab V} {lo : Nat}, Tab.rising lo t = true → lo ≤ k → Tab.rising lo (Tab.put t k x) = true
  | [], lo, _, hk => by simp [Tab.put, Tab.rising, hk]
  | (a, v) :: t, lo, h, hk => by
    simp only [Tab.rising, Bool.and_eq_true, decide_eq_true_eq] at h
    unfold Tab.put
    split
    · subst_vars; simp [Tab.rising, h.2, hk]
    · split
      · simp only [Tab.rising, Bool.and_eq_true, decide_eq_true_eq]
        exact ⟨hk, by omega, h.2⟩
      · simp only [Tab.rising, Bool.and_eq_true, decide_eq_true_eq]
        exact ⟨h.1, Tab.rising_put h.2 (by omega)⟩

theorem Tab.rising_keep (p : Nat × V → Bool) : ∀ {t : Tab V} {lo : Nat}, Tab.rising lo t = true → Tab.rising lo (t.filter p) = true
  | [], _, _ => rfl
  | (a, v) :: t, lo, h => by
    simp only [Tab.rising, Bool.and_eq_true, decide_eq_true_eq] at h
    rw [List.filter_cons]
    split
    · simp only [Tab.rising, Bool.and_eq_true, decide_eq_true_eq]
      exact ⟨h.1, Tab.rising_keep p h.2⟩
    · exact Tab.rising_keep p (Tab.rising_mono (by omega) h.2)

theorem Tab.erase_sub {k : Nat} : ∀ {t : Tab V} {p : Nat × V}, p ∈ Tab.erase t k → p ∈ t
  | [], _, h => h
  | (a, v) :: t, p, h => by
    unfold Tab.erase at h
    split at h
    · exact List.mem_cons_of_mem _ (Tab.erase_sub h)
    · cases h with
      | head => exact List.mem_cons_self
      | tail _ h => exact List.mem_cons_of_mem _ (Tab.erase_sub h)

theorem Tab.rising_erase {k : Nat} : ∀ {t : Tab V} {lo : Nat}, Tab.rising lo t = true → Tab.rising lo (Tab.erase t k) = true
  | [], _, _ => rfl
  | (a, v) :: t, lo, h => by
    simp only [Tab.rising, Bool.and_eq_true, decide_eq_true_eq] at h
    unfold Tab.erase
    split
    · exact Tab.rising_mono (by omega) (Tab.rising_erase h.2)
    · simp only [Tab.rising, Bool.and_eq_true, decide_eq_true_eq]
      exact ⟨h.1, Tab.rising_erase h.2⟩

theorem Tab.put_sub {k : Nat} {x : V} : ∀ {t : Tab V} {p : Nat × V}, p ∈ Tab.put t k x → p = (k, x) ∨ p ∈ t
  | [], p, h => by simpa [Tab.put] using h
  | (a, v) :: t, p, h => by
    unfold Tab.put at h
    split at h
    · simp only [List.mem_cons] at h ⊢
      rcases h with h | h
      · exact .inl h
      · exact .inr (.inr h)
    · split at h
      · simpa using h
      · simp only [List.mem_cons] at h
        rcases h with h | h
        · exact .inr (by simp [h])
        · rcases Tab.put_sub h with h | h
          · exact .inl h
          · exact .inr (List.mem_cons_of_mem _ h)

theorem Tab.get_erase_ne (d : Nat → V) (t : Tab V) {k j : Nat} (h : k ≠ j) : Tab.get d (Tab.erase t k) j = Tab.get d t j := by
  induction t with
  | nil => rfl
  | cons p t ih =>
    obtain ⟨a, v⟩ := p
    unfold Tab.erase
    split
    · subst_vars; simp [Tab.get, h, ih]
    · simp [Tab.get, ih]

/-- A removed key reads as unlisted. -/
theorem Tab.get_erase_same (d : Nat → V) (t : Tab V) (k : Nat) : Tab.get d (Tab.erase t k) k = d k := by
  induction t with
  | nil => rfl
  | cons p t ih =>
    obtain ⟨a, v⟩ := p
    unfold Tab.erase
    split
    · exact ih
    · simp [Tab.get, *]

variable [DecidableEq V]

theorem Tab.wf_iff (d : Nat → V) (t : Tab V) : Tab.wf d t = true ↔ Tab.rising 0 t = true ∧ ∀ p ∈ t, p.2 ≠ d p.1 := by
  simp [Tab.wf, List.all_eq_true]

theorem Tab.set_eq (d : Nat → V) (t : Tab V) (k : Nat) (x : V) :
    Tab.set d t k x = if x = d k then Tab.erase t k else Tab.put t k x := by
  cases t <;> rfl

theorem Tab.wf_set (d : Nat → V) {t : Tab V} (k : Nat) (x : V) (h : Tab.wf d t = true) : Tab.wf d (Tab.set d t k x) = true := by
  rw [Tab.wf_iff] at *
  rw [Tab.set_eq]
  split
  · exact ⟨Tab.rising_erase h.1, fun p hp => h.2 p (Tab.erase_sub hp)⟩
  · refine ⟨Tab.rising_put h.1 (Nat.zero_le _), fun p hp => ?_⟩
    rcases Tab.put_sub hp with rfl | hp
    · assumption
    · exact h.2 p hp

theorem Tab.wf_filter (d : Nat → V) {t : Tab V} (p : Nat × V → Bool) (h : Tab.wf d t = true) : Tab.wf d (t.filter p) = true := by
  rw [Tab.wf_iff] at *
  exact ⟨Tab.rising_keep p h.1, fun q hq => h.2 q (List.mem_filter.mp hq).1⟩

theorem Tab.wf_keep (d : Nat → V) {t : Tab V} (p : Nat → Bool) (h : Tab.wf d t = true) : Tab.wf d (Tab.keep p t) = true :=
  Tab.wf_filter d _ h

/-- A read of another key is unchanged by a write. -/
theorem Tab.get_set_ne (d : Nat → V) (t : Tab V) {k j : Nat} (x : V) (h : k ≠ j) : Tab.get d (Tab.set d t k x) j = Tab.get d t j := by
  rw [Tab.set_eq]
  split
  · exact Tab.get_erase_ne d t h
  · exact Tab.get_put_ne d t x h

/-- A read after a write of the same key gives the value written. -/
theorem Tab.get_set_same (d : Nat → V) (t : Tab V) (k : Nat) (x : V) : Tab.get d (Tab.set d t k x) k = x := by
  rw [Tab.set_eq]
  split
  · rw [Tab.get_erase_same]; simp [*]
  · exact Tab.get_put_same d t k x

/-- A read after a write. -/
theorem Tab.get_set (d : Nat → V) (t : Tab V) (k j : Nat) (x : V) :
    Tab.get d (Tab.set d t k x) j = if k = j then x else Tab.get d t j := by
  split
  · next h => subst h; exact Tab.get_set_same d t k x
  · next h => exact Tab.get_set_ne d t x h

end Sys2Proof.Machine
end

