-- ==== Sys2Proof/Laws/Chg.lean ====
section
/-! SUPPORT. One relation for everything an operation can do to the areas of the state, and the rules by which it is composed. -/

set_option Elab.async false

namespace Sys2Proof.Machine

/-- The areas `a` are among `w`. -/
structure Within (a w : List Area) : Prop where
  ok : a.all (fun x => w.contains x) = true

theorem Within.up {a b w : List Area} (h : Within b w) (hab : a.all (fun x => b.contains x) = true := by rfl) : Within a w := by
  obtain ⟨h⟩ := h
  constructor
  simp only [List.all_eq_true, List.contains_iff_mem] at *
  exact fun x hx => h x (hab x hx)

theorem Within.mem {a w : List Area} (h : Within a w) {x : Area} (hx : a.contains x = true := by rfl) : x ∈ w := by
  obtain ⟨h⟩ := h
  simp only [List.all_eq_true, List.contains_iff_mem] at *
  exact h x hx

theorem Within.self (w : List Area) (h : w.all (fun x => w.contains x) = true := by rfl) : Within w w := ⟨h⟩

/-- From `s` to `t` nothing outside `w` has changed, the canonical form is kept, and nothing has gone back. -/
structure Chg (w : List Area) (s t : State) : Prop where
  same : sameBut w s t
  inv : s.Inv → t.Inv
  mgs : MgsOn s.mgs t.mgs
  vlt : VltOn s.vlt t.vlt
  out : s.out <+: t.out
  free : s.free ≤ t.free

theorem MgsOn.refl (a : MgsSt) : MgsOn a a := ⟨Nat.le_refl _, Nat.le_refl _, Nat.le_refl _, Nat.le_refl _⟩

theorem MgsOn.trans {a b c : MgsSt} (h : MgsOn a b) (k : MgsOn b c) : MgsOn a c :=
  ⟨Nat.le_trans h.floor k.floor, Nat.le_trans h.gen k.gen, Nat.le_trans h.sec k.sec, Nat.le_trans h.jseq k.jseq⟩

theorem VltOn.refl (a : VltSt) : VltOn a a := ⟨Nat.le_refl _, fun _ => Nat.le_refl _⟩

theorem VltOn.trans {a b c : VltSt} (h : VltOn a b) (k : VltOn b c) : VltOn a c :=
  ⟨Nat.le_trans h.epoch k.epoch, fun i => Nat.le_trans (h.gen i) (k.gen i)⟩

theorem Area.same_refl (a : Area) (s : State) : a.same s s := by cases a <;> rfl

theorem Area.same_trans {a : Area} {s t u : State} (h : a.same s t) (k : a.same t u) : a.same s u := by
  cases a <;> exact Eq.trans h k

theorem Chg.refl {w : List Area} (s : State) : Chg w s s :=
  ⟨fun a _ => a.same_refl s, id, .refl _, .refl _, List.prefix_refl _, Nat.le_refl _⟩

theorem Chg.trans {w : List Area} {s t u : State} (h : Chg w s t) (k : Chg w t u) : Chg w s u :=
  ⟨fun a ha => Area.same_trans (h.same a ha) (k.same a ha), fun i => k.inv (h.inv i), h.mgs.trans k.mgs, h.vlt.trans k.vlt,
    h.out.trans k.out, Nat.le_trans h.free k.free⟩

/-- A change of each slot that keeps its GEN. -/
theorem lastGen_map (f : Nat × KeySlot → Nat × KeySlot) (h1 : ∀ p, (f p).1 = p.1) (h2 : ∀ p, (f p).2.lastGen = p.2.lastGen)
    (t : Tab KeySlot) (i : Nat) :
    (Tab.get (fun _ => KeySlot.reset) (t.map f) i).lastGen = (Tab.get (fun _ => KeySlot.reset) t i).lastGen := by
  induction t with
  | nil => rfl
  | cons p t ih =>
    have e : f p = (p.1, (f p).2) := Prod.ext (h1 p) rfl
    rw [List.map_cons, e]
    simp only [Tab.get]
    split
    · exact h2 p
    · exact ih

/-- The same of an operation that answers a value with the state. -/
def Chg2 {β : Type} (w : List Area) (s : State) (p : β × State) : Prop := Chg w s p.2

section Rules

variable {w : List Area} {s0 s t : State} {α β : Type}

/-! ### Composition -/

theorem Chg.ite {c : Prop} [Decidable c] {a b : State} (h : Chg w s0 a) (k : Chg w s0 b) : Chg w s0 (if c then a else b) := by
  split <;> assumption
theorem Chg.ite2 {c : Prop} [Decidable c] {a b : β × State} (h : Chg2 w s0 a) (k : Chg2 w s0 b) :
    Chg2 w s0 (if c then a else b) := by split <;> assumption
theorem Chg.foldl {f : State → α → State} {l : List α} (k : ∀ s x, Chg w s0 s → Chg w s0 (f s x)) {s : State} (h : Chg w s0 s) :
    Chg w s0 (l.foldl f s) := by
  induction l generalizing s with
  | nil => exact h
  | cons x l ih => exact ih (k s x h)
theorem Chg.foldl2 {f : β × State → α → β × State} {l : List α} (k : ∀ p x, Chg2 w s0 p → Chg2 w s0 (f p x))
    {p : β × State} (h : Chg2 w s0 p) : Chg2 w s0 (l.foldl f p) := by
  induction l generalizing p with
  | nil => exact h
  | cons x l ih => exact ih (k p x h)
theorem Chg.pair {a : β} (h : Chg w s0 s) : Chg2 w s0 (a, s) := h
theorem Chg2.snd {p : β × State} (h : Chg2 w s0 p) : Chg w s0 p.2 := h
theorem Chg2.of {a : β} {p : β × State} (h : Chg2 w s0 p) (e : p = (a, t)) : Chg w s0 t := by subst e; exact h

/-! ### Updates of one area -/

theorem Chg.upd_slots (hm : Area.slots ∈ w) (h : Chg w s0 s) (v) : Chg w s0 { s with slots := v } :=
  ⟨fun a ha => by have := h.same a ha; cases a <;> first | exact this | exact absurd hm ha, fun i => ⟨(h.inv i).1, (h.inv i).2⟩, h.mgs, h.vlt, h.out, h.free⟩
theorem Chg.upd_fences (hm : Area.fences ∈ w) (h : Chg w s0 s) (v) : Chg w s0 { s with fences := v } :=
  ⟨fun a ha => by have := h.same a ha; cases a <;> first | exact this | exact absurd hm ha, fun i => ⟨(h.inv i).1, (h.inv i).2⟩, h.mgs, h.vlt, h.out, h.free⟩
theorem Chg.upd_holds (hm : Area.holds ∈ w) (h : Chg w s0 s) (v) : Chg w s0 { s with holds := v } :=
  ⟨fun a ha => by have := h.same a ha; cases a <;> first | exact this | exact absurd hm ha, fun i => ⟨(h.inv i).1, (h.inv i).2⟩, h.mgs, h.vlt, h.out, h.free⟩
theorem Chg.upd_snaps (hm : Area.snaps ∈ w) (h : Chg w s0 s) (v) : Chg w s0 { s with snaps := v } :=
  ⟨fun a ha => by have := h.same a ha; cases a <;> first | exact this | exact absurd hm ha, fun i => ⟨(h.inv i).1, (h.inv i).2⟩, h.mgs, h.vlt, h.out, h.free⟩
theorem Chg.upd_stage (hm : Area.stage ∈ w) (h : Chg w s0 s) (v) : Chg w s0 { s with stage := v } :=
  ⟨fun a ha => by have := h.same a ha; cases a <;> first | exact this | exact absurd hm ha, fun i => ⟨(h.inv i).1, (h.inv i).2⟩, h.mgs, h.vlt, h.out, h.free⟩
theorem Chg.upd_commitQ (hm : Area.commitQ ∈ w) (h : Chg w s0 s) (v) : Chg w s0 { s with commitQ := v } :=
  ⟨fun a ha => by have := h.same a ha; cases a <;> first | exact this | exact absurd hm ha, fun i => ⟨(h.inv i).1, (h.inv i).2⟩, h.mgs, h.vlt, h.out, h.free⟩
theorem Chg.upd_commits (hm : Area.commits ∈ w) (h : Chg w s0 s) (v) : Chg w s0 { s with commits := v } :=
  ⟨fun a ha => by have := h.same a ha; cases a <;> first | exact this | exact absurd hm ha, fun i => ⟨(h.inv i).1, (h.inv i).2⟩, h.mgs, h.vlt, h.out, h.free⟩
theorem Chg.upd_frcNs (hm : Area.frcNs ∈ w) (h : Chg w s0 s) (v) : Chg w s0 { s with frcNs := v } :=
  ⟨fun a ha => by have := h.same a ha; cases a <;> first | exact this | exact absurd hm ha, fun i => ⟨(h.inv i).1, (h.inv i).2⟩, h.mgs, h.vlt, h.out, h.free⟩
theorem Chg.upd_frcFrac (hm : Area.frcFrac ∈ w) (h : Chg w s0 s) (v) : Chg w s0 { s with frcFrac := v } :=
  ⟨fun a ha => by have := h.same a ha; cases a <;> first | exact this | exact absurd hm ha, fun i => ⟨(h.inv i).1, (h.inv i).2⟩, h.mgs, h.vlt, h.out, h.free⟩
theorem Chg.upd_msix (hm : Area.msix ∈ w) (h : Chg w s0 s) (v) : Chg w s0 { s with msix := v } :=
  ⟨fun a ha => by have := h.same a ha; cases a <;> first | exact this | exact absurd hm ha, fun i => ⟨(h.inv i).1, (h.inv i).2⟩, h.mgs, h.vlt, h.out, h.free⟩
theorem Chg.upd_resets (hm : Area.resets ∈ w) (h : Chg w s0 s) (v) : Chg w s0 { s with resets := v } :=
  ⟨fun a ha => by have := h.same a ha; cases a <;> first | exact this | exact absurd hm ha, fun i => ⟨(h.inv i).1, (h.inv i).2⟩, h.mgs, h.vlt, h.out, h.free⟩
theorem Chg.upd_lrn (hm : Area.lrn ∈ w) (h : Chg w s0 s) (v) : Chg w s0 { s with lrn := v } :=
  ⟨fun a ha => by have := h.same a ha; cases a <;> first | exact this | exact absurd hm ha, fun i => ⟨(h.inv i).1, (h.inv i).2⟩, h.mgs, h.vlt, h.out, h.free⟩
theorem Chg.upd_bsn (hm : Area.bsn ∈ w) (h : Chg w s0 s) (v) : Chg w s0 { s with bsn := v } :=
  ⟨fun a ha => by have := h.same a ha; cases a <;> first | exact this | exact absurd hm ha, fun i => ⟨(h.inv i).1, (h.inv i).2⟩, h.mgs, h.vlt, h.out, h.free⟩
theorem Chg.upd_meters (hm : Area.meters ∈ w) (h : Chg w s0 s) (v) : Chg w s0 { s with meters := v } :=
  ⟨fun a ha => by have := h.same a ha; cases a <;> first | exact this | exact absurd hm ha, fun i => ⟨(h.inv i).1, (h.inv i).2⟩, h.mgs, h.vlt, h.out, h.free⟩
theorem Chg.upd_egr (hm : Area.egr ∈ w) (h : Chg w s0 s) (v) : Chg w s0 { s with egr := v } :=
  ⟨fun a ha => by have := h.same a ha; cases a <;> first | exact this | exact absurd hm ha, fun i => ⟨(h.inv i).1, (h.inv i).2⟩, h.mgs, h.vlt, h.out, h.free⟩
theorem Chg.upd_slu (hm : Area.slu ∈ w) (h : Chg w s0 s) (v) : Chg w s0 { s with slu := v } :=
  ⟨fun a ha => by have := h.same a ha; cases a <;> first | exact this | exact absurd hm ha, fun i => ⟨(h.inv i).1, (h.inv i).2⟩, h.mgs, h.vlt, h.out, h.free⟩
theorem Chg.upd_bud (hm : Area.bud ∈ w) (h : Chg w s0 s) (v) : Chg w s0 { s with bud := v } :=
  ⟨fun a ha => by have := h.same a ha; cases a <;> first | exact this | exact absurd hm ha, fun i => ⟨(h.inv i).1, (h.inv i).2⟩, h.mgs, h.vlt, h.out, h.free⟩
theorem Chg.upd_fre (hm : Area.fre ∈ w) (h : Chg w s0 s) (v) : Chg w s0 { s with fre := v } :=
  ⟨fun a ha => by have := h.same a ha; cases a <;> first | exact this | exact absurd hm ha, fun i => ⟨(h.inv i).1, (h.inv i).2⟩, h.mgs, h.vlt, h.out, h.free⟩
theorem Chg.upd_fgd (hm : Area.fgd ∈ w) (h : Chg w s0 s) (v) : Chg w s0 { s with fgd := v } :=
  ⟨fun a ha => by have := h.same a ha; cases a <;> first | exact this | exact absurd hm ha, fun i => ⟨(h.inv i).1, (h.inv i).2⟩, h.mgs, h.vlt, h.out, h.free⟩
theorem Chg.upd_had (hm : Area.had ∈ w) (h : Chg w s0 s) (v) : Chg w s0 { s with had := v } :=
  ⟨fun a ha => by have := h.same a ha; cases a <;> first | exact this | exact absurd hm ha, fun i => ⟨(h.inv i).1, (h.inv i).2⟩, h.mgs, h.vlt, h.out, h.free⟩
theorem Chg.upd_ept (hm : Area.ept ∈ w) (h : Chg w s0 s) (v) : Chg w s0 { s with ept := v } :=
  ⟨fun a ha => by have := h.same a ha; cases a <;> first | exact this | exact absurd hm ha, fun i => ⟨(h.inv i).1, (h.inv i).2⟩, h.mgs, h.vlt, h.out, h.free⟩
theorem Chg.upd_hif (hm : Area.hif ∈ w) (h : Chg w s0 s) (v) : Chg w s0 { s with hif := v } :=
  ⟨fun a ha => by have := h.same a ha; cases a <;> first | exact this | exact absurd hm ha, fun i => ⟨(h.inv i).1, (h.inv i).2⟩, h.mgs, h.vlt, h.out, h.free⟩
theorem Chg.upd_can (hm : Area.can ∈ w) (h : Chg w s0 s) (v) : Chg w s0 { s with can := v } :=
  ⟨fun a ha => by have := h.same a ha; cases a <;> first | exact this | exact absurd hm ha, fun i => ⟨(h.inv i).1, (h.inv i).2⟩, h.mgs, h.vlt, h.out, h.free⟩
theorem Chg.upd_lin (hm : Area.lin ∈ w) (h : Chg w s0 s) (v) : Chg w s0 { s with lin := v } :=
  ⟨fun a ha => by have := h.same a ha; cases a <;> first | exact this | exact absurd hm ha, fun i => ⟨(h.inv i).1, (h.inv i).2⟩, h.mgs, h.vlt, h.out, h.free⟩
theorem Chg.upd_cfl (hm : Area.cfl ∈ w) (h : Chg w s0 s) (v) : Chg w s0 { s with cfl := v } :=
  ⟨fun a ha => by have := h.same a ha; cases a <;> first | exact this | exact absurd hm ha, fun i => ⟨(h.inv i).1, (h.inv i).2⟩, h.mgs, h.vlt, h.out, h.free⟩
theorem Chg.upd_auth (hm : Area.auth ∈ w) (h : Chg w s0 s) (v) : Chg w s0 { s with auth := v } :=
  ⟨fun a ha => by have := h.same a ha; cases a <;> first | exact this | exact absurd hm ha, fun i => ⟨(h.inv i).1, (h.inv i).2⟩, h.mgs, h.vlt, h.out, h.free⟩
theorem Chg.upd_twn (hm : Area.twn ∈ w) (h : Chg w s0 s) (v) : Chg w s0 { s with twn := v } :=
  ⟨fun a ha => by have := h.same a ha; cases a <;> first | exact this | exact absurd hm ha, fun i => ⟨(h.inv i).1, (h.inv i).2⟩, h.mgs, h.vlt, h.out, h.free⟩
theorem Chg.upd_tim (hm : Area.tim ∈ w) (h : Chg w s0 s) (v) : Chg w s0 { s with tim := v } :=
  ⟨fun a ha => by have := h.same a ha; cases a <;> first | exact this | exact absurd hm ha, fun i => ⟨(h.inv i).1, (h.inv i).2⟩, h.mgs, h.vlt, h.out, h.free⟩
theorem Chg.upd_pwr (hm : Area.pwr ∈ w) (h : Chg w s0 s) (v) : Chg w s0 { s with pwr := v } :=
  ⟨fun a ha => by have := h.same a ha; cases a <;> first | exact this | exact absurd hm ha, fun i => ⟨(h.inv i).1, (h.inv i).2⟩, h.mgs, h.vlt, h.out, h.free⟩
theorem Chg.upd_svc (hm : Area.svc ∈ w) (h : Chg w s0 s) (v) : Chg w s0 { s with svc := v } :=
  ⟨fun a ha => by have := h.same a ha; cases a <;> first | exact this | exact absurd hm ha, fun i => ⟨(h.inv i).1, (h.inv i).2⟩, h.mgs, h.vlt, h.out, h.free⟩
theorem Chg.upd_inj (hm : Area.inj ∈ w) (h : Chg w s0 s) (v) : Chg w s0 { s with inj := v } :=
  ⟨fun a ha => by have := h.same a ha; cases a <;> first | exact this | exact absurd hm ha, fun i => ⟨(h.inv i).1, (h.inv i).2⟩, h.mgs, h.vlt, h.out, h.free⟩
theorem Chg.upd_regs (hm : Area.regs ∈ w) (h : Chg w s0 s) {v} (hv : Tab.wf regReset s.regs = true → Tab.wf regReset v = true) : Chg w s0 { s with regs := v } :=
  ⟨fun a ha => by have := h.same a ha; cases a <;> first | exact this | exact absurd hm ha, fun i => ⟨hv (h.inv i).1, (h.inv i).2⟩, h.mgs, h.vlt, h.out, h.free⟩
theorem Chg.upd_tbl (hm : Area.tbl ∈ w) (h : Chg w s0 s) {v} (hv : Tab.wf (fun _ => 0) s.tbl = true → Tab.wf (fun _ => 0) v = true) : Chg w s0 { s with tbl := v } :=
  ⟨fun a ha => by have := h.same a ha; cases a <;> first | exact this | exact absurd hm ha, fun i => ⟨(h.inv i).1, hv (h.inv i).2⟩, h.mgs, h.vlt, h.out, h.free⟩
theorem Chg.upd_mgs (hm : Area.mgs ∈ w) (h : Chg w s0 s) {v} (hv : MgsOn s.mgs v) : Chg w s0 { s with mgs := v } :=
  ⟨fun a ha => by have := h.same a ha; cases a <;> first | exact this | exact absurd hm ha, fun i => ⟨(h.inv i).1, (h.inv i).2⟩, h.mgs.trans hv, h.vlt, h.out, h.free⟩
theorem Chg.upd_vlt (hm : Area.vlt ∈ w) (h : Chg w s0 s) {v} (hv : VltOn s.vlt v) : Chg w s0 { s with vlt := v } :=
  ⟨fun a ha => by have := h.same a ha; cases a <;> first | exact this | exact absurd hm ha, fun i => ⟨(h.inv i).1, (h.inv i).2⟩, h.mgs, h.vlt.trans hv, h.out, h.free⟩
theorem Chg.upd_out (hm : Area.out ∈ w) (h : Chg w s0 s) {v} (hv : s.out <+: v) : Chg w s0 { s with out := v } :=
  ⟨fun a ha => by have := h.same a ha; cases a <;> first | exact this | exact absurd hm ha, fun i => ⟨(h.inv i).1, (h.inv i).2⟩, h.mgs, h.vlt, h.out.trans hv, h.free⟩
theorem Chg.upd_free (hm : Area.free ∈ w) (h : Chg w s0 s) {v} (hv : s.free ≤ v) : Chg w s0 { s with free := v } :=
  ⟨fun a ha => by have := h.same a ha; cases a <;> first | exact this | exact absurd hm ha, fun i => ⟨(h.inv i).1, (h.inv i).2⟩, h.mgs, h.vlt, h.out, Nat.le_trans h.free hv⟩

end Rules

end Sys2Proof.Machine
end

