-- ==== Sys2Proof/Laws/ChgBase.lean ====
section
/-! SUPPORT. What the operations of the register pages, the TAP, time and the ports can change: one lemma each. -/

set_option Elab.async false

namespace Sys2Proof.Machine

variable {w : List Area} {s0 s : State}

theorem State.wr_chg {a : Nat} {v : Word} (hw : Within [.regs] w) (hs : Chg w s0 s) : Chg w s0 (State.wr s a v) := by
  unfold State.wr
  exact Chg.upd_regs hw.mem hs (Tab.wf_set _ _ _)

theorem State.wf_chg {a : Nat} {lo : Nat} {len : Nat} {v : Nat} (hw : Within [.regs] w) (hs : Chg w s0 s) : Chg w s0 (State.wf s a lo len v) := by
  unfold State.wf
  exact State.wr_chg hw.up hs

theorem State.wr64_chg {a : Nat} {v : Nat} (hw : Within [.regs] w) (hs : Chg w s0 s) : Chg w s0 (State.wr64 s a v) := by
  unfold State.wr64
  exact State.wr_chg hw.up (State.wr_chg hw.up hs)

theorem State.evt_chg {a : Nat} (hw : Within [.regs] w) (hs : Chg w s0 s) : Chg w s0 (State.evt s a) := by
  unfold State.evt
  exact State.wr_chg hw.up hs

theorem State.stat_chg {a : Nat} {n : Nat} (hw : Within [.regs] w) (hs : Chg w s0 s) : Chg w s0 (State.stat s a n) := by
  unfold State.stat
  exact State.wr64_chg hw.up hs

theorem State.emit_chg {o : Output} (hw : Within [.out] w) (hs : Chg w s0 s) : Chg w s0 (State.emit s o) := by
  unfold State.emit
  exact Chg.upd_out hw.mem hs (List.prefix_append _ _)

theorem State.msixSend_chg {v : Nat} (hw : Within [.msix, .out] w) (hs : Chg w s0 s) : Chg w s0 (State.msixSend s v) := by
  unfold State.msixSend
  refine Chg.ite ?_ ?_
  · exact Chg.upd_msix hw.mem hs _
  · extract_lets -underBinder -merge +onlyGivenNames w1
    exact State.emit_chg hw.up hs

theorem State.msixEval_chg {again : Bool} (hw : Within [.msix, .out] w) (hs : Chg w s0 s) : Chg w s0 (State.msixEval s again) := by
  unfold State.msixEval
  extract_lets -underBinder -merge +onlyGivenNames now1 due2
  exact Chg.foldl (fun t4 _ h3 => State.msixSend_chg hw.up h3) (Chg.upd_msix hw.mem hs _)

theorem State.raiseAt_chg {base : Nat} {i : Nat} (hw : Within [.regs, .msix, .out] w) (hs : Chg w s0 s) : Chg w s0 (State.raiseAt s base i) := by
  unfold State.raiseAt
  exact State.msixEval_chg hw.up (State.wr_chg hw.up hs)

theorem State.raise_chg {b : Blk} {inst : Nat} {i : Nat} (hw : Within [.regs, .msix, .out] w) (hs : Chg w s0 s) : Chg w s0 (State.raise s b inst i) := by
  unfold State.raise
  exact State.raiseAt_chg hw.up hs

theorem State.logReq_chg {type : Nat} {source : Nat} {payload : List Byte} (hw : Within [.mgs] w) (hs : Chg w s0 s) : Chg w s0 (State.logReq s type source payload) := by
  unfold State.logReq
  exact Chg.upd_mgs hw.mem hs ⟨Nat.le_refl _, Nat.le_refl _, Nat.le_refl _, Nat.le_refl _⟩

theorem State.logEvt_chg {b : Blk} {inst : Nat} {i : Nat} {gap : Nat} {sec : Bool} {payload : List Byte} {sub : Nat} (hw : Within [.mgs] w) (hs : Chg w s0 s) : Chg w s0 (State.logEvt s b inst i gap sec payload sub) := by
  unfold State.logEvt
  extract_lets -underBinder -merge +onlyGivenNames pg1 key2 last3
  exact Chg.ite (hs) (State.logReq_chg hw.up (Chg.upd_mgs hw.mem hs ⟨Nat.le_refl _, Nat.le_refl _, Nat.le_refl _, Nat.le_refl _⟩))

theorem State.logMgmt_chg {code : Nat} {sec : Bool} {payload : List Byte} (hw : Within [.mgs] w) (hs : Chg w s0 s) : Chg w s0 (State.logMgmt s code sec payload) := by
  unfold State.logMgmt
  exact State.logReq_chg hw.up hs

theorem State.setSlot_chg {i : Nat} {v : Slot} (hw : Within [.slots] w) (hs : Chg w s0 s) : Chg w s0 (State.setSlot s i v) := by
  unfold State.setSlot
  exact Chg.upd_slots hw.mem hs _

theorem State.cmdReject_chg {base : Nat} (hw : Within [.regs, .msix, .out] w) (hs : Chg w s0 s) : Chg w s0 (State.cmdReject s base) := by
  unfold State.cmdReject
  exact State.raiseAt_chg hw.up (State.evt_chg hw.up hs)

theorem State.command_chg {i : Nat} {m : Nat} {base : Nat} {k : State → State} (hw : Within [.regs, .slots, .msix, .out] w) (hs : Chg w s0 s) (hk : ∀ t0, Chg w s0 t0 → Chg w s0 (k t0)) : Chg w s0 (State.command s i m base k) := by
  unfold State.command
  exact Chg.ite (hk _ (State.setSlot_chg hw.up hs)) (State.cmdReject_chg hw.up hs)

theorem State.holdRes_chg {i : Nat} {r : Result} (hw : Within [.slots] w) (hs : Chg w s0 s) : Chg w s0 (State.holdRes s i r) := by
  unfold State.holdRes
  exact State.setSlot_chg hw.up hs

theorem State.complete_chg {i : Nat} {r : Result} (hw : Within [.slots, .svc] w) (hs : Chg w s0 s) : Chg w s0 (State.complete s i r) := by
  unfold State.complete
  refine Chg.ite ?_ ?_
  · refine Chg.ite ?_ ?_
    · extract_lets -underBinder -merge +onlyGivenNames src1
      have h2 : Chg w s0 src1 := State.setSlot_chg hw.up hs
      exact Chg.upd_svc hw.mem h2 _
    · exact State.setSlot_chg hw.up hs
  · exact hs

theorem State.publish_chg {i : Nat} (hw : Within [.slots, .svc] w) (hs : Chg w s0 s) : Chg w s0 (State.publish s i) := by
  unfold State.publish
  split
  · exact State.complete_chg hw.up hs
  · exact hs

theorem State.violSet_chg (hw : Within [.hif] w) (hs : Chg w s0 s) : Chg w s0 (State.violSet s) := by
  unfold State.violSet
  exact Chg.upd_hif hw.mem hs _

theorem State.violate_chg {k : Viol} {m : Nat} {a : Nat} {write : Bool} (hw : Within [.regs, .msix, .hif, .mgs, .out] w) (hs : Chg w s0 s) : Chg w s0 (State.violate s k m a write) := by
  unfold State.violate
  extract_lets -underBinder -merge +onlyGivenNames pg1 s2 s4 s6 s8 key10 last11
  have h3 : Chg w s0 s2 := State.evt_chg hw.up (State.violSet_chg hw.up hs)
  have h5 : Chg w s0 s4 := State.wr_chg hw.up h3
  have h7 : Chg w s0 s6 := State.wr_chg hw.up h5
  have h9 : Chg w s0 s8 := State.raise_chg hw.up h7
  exact Chg.ite (h9) (State.logReq_chg hw.up (Chg.upd_mgs hw.mem h9 ⟨Nat.le_refl _, Nat.le_refl _, Nat.le_refl _, Nat.le_refl _⟩))

theorem State.touch_chg {m : Nat} {pg : Nat} (hw : Within [.fences] w) (hs : Chg w s0 s) : Chg w s0 (State.touch s m pg) := by
  unfold State.touch
  extract_lets -underBinder -merge +onlyGivenNames f1
  exact Chg.ite (hs) (Chg.upd_fences hw.mem hs _)

theorem State.plainWrite_chg {m : Nat} {a : Nat} {v : Word} (hw : Within [.regs] w) (hs : Chg w s0 s) : Chg w s0 (State.plainWrite s m a v) := by
  unfold State.plainWrite
  split
  · exact hs
  · split
    · exact hs
    · exact State.wr_chg hw.up hs

theorem State.present_chg {ingress : Nat} {target : Nat} {bus : Bool} {bytes : List Byte} (hw : Within [.inj] w) (hs : Chg w s0 s) : Chg w s0 (State.present s ingress target bus bytes) := by
  unfold State.present
  exact Chg.upd_inj hw.mem hs _

theorem State.sendOwn_chg {port : Nat} {tc : Nat} {bytes : List Byte} {own : Option OwnMsg} (hw : Within [.inj] w) (hs : Chg w s0 s) : Chg w s0 (State.sendOwn s port tc bytes own) := by
  unfold State.sendOwn
  exact Chg.upd_inj hw.mem hs _

theorem State.draw_chg (hw : Within [.free] w) (hs : Chg w s0 s) : Chg2 w s0 (State.draw s) := by
  unfold State.draw
  exact Chg.pair (Chg.upd_free hw.mem hs (Nat.le_succ _))

theorem State.perfAdd_chg {n : Nat} {i : Nat} (hw : Within [.regs, .msix, .out] w) (hs : Chg w s0 s) : Chg w s0 (State.perfAdd s n i) := by
  unfold State.perfAdd
  extract_lets -underBinder -merge +onlyGivenNames v1 s2 s4
  have h3 : Chg w s0 s2 := State.wr_chg hw.up hs
  have h5 : Chg w s0 s4 := State.wf_chg hw.up h3
  refine Chg.ite ?_ ?_
  · exact h5
  · extract_lets -underBinder -merge +onlyGivenNames s6
    have h7 : Chg w s0 s6 := State.wf_chg hw.up h5
    exact Chg.ite (State.raise_chg hw.up h7) (h7)

theorem State.perf_chg {code : Nat} {n : Nat} {master : Option Nat} {addr : Option Nat} (hw : Within [.regs, .msix, .out] w) (hs : Chg w s0 s) : Chg w s0 (State.perf s code n master addr) := by
  unfold State.perf
  exact Chg.ite (hs) (Chg.foldl (fun t2 _ h1 => State.perfAdd_chg hw.up h1) (hs))

theorem State.fwViol_chg (hw : Within [.regs, .msix, .mgs, .out] w) (hs : Chg w s0 s) : Chg w s0 (State.fwViol s) := by
  unfold State.fwViol
  extract_lets -underBinder -merge +onlyGivenNames n1
  exact State.logEvt_chg hw.up (State.raise_chg hw.up (State.evt_chg hw.up hs))

theorem State.access_chg {m : Nat} {a : Nat} {k : State → State} {full : Bool} (hw : Within [.regs, .fences, .msix, .hif, .mgs, .out] w) (hs : Chg w s0 s) (hk : ∀ t0, Chg w s0 t0 → Chg w s0 (k t0)) : Chg w s0 (State.access s m a k full) := by
  unfold State.access
  refine Chg.ite ?_ ?_
  · exact State.perf_chg hw.up (State.violate_chg hw.up (State.fwViol_chg hw.up hs))
  · refine Chg.ite ?_ ?_
    · exact State.fwViol_chg hw.up hs
    · split
      · exact State.perf_chg hw.up (State.violate_chg hw.up hs)
      · exact hk _ (State.perf_chg hw.up (State.touch_chg hw.up hs))

theorem State.setTent_chg {t : Nat} {i : Nat} {e : BitVec 512} (hw : Within [.tbl] w) (hs : Chg w s0 s) : Chg w s0 (State.setTent s t i e) := by
  unfold State.setTent
  exact Chg.upd_tbl hw.mem hs (Tab.wf_set _ _ _)

theorem State.adtWrite_chg {a : AdtWrite} (hw : Within [.regs, .tbl] w) (hs : Chg w s0 s) : Chg w s0 (State.adtWrite s a) := by
  unfold State.adtWrite
  split
  · exact State.setTent_chg hw.up hs
  · exact State.setTent_chg hw.up hs
  · exact State.setTent_chg hw.up hs
  · exact State.stat_chg hw.up (State.setTent_chg hw.up hs)
  · exact State.setTent_chg hw.up hs

theorem State.adtFinish_chg (hw : Within [.regs, .tbl, .lrn] w) (hs : Chg w s0 s) : Chg w s0 (State.adtFinish s) := by
  unfold State.adtFinish
  exact Chg.foldl (fun t2 _ h1 => State.adtWrite_chg hw.up h1) (Chg.upd_lrn hw.mem hs _)

theorem State.adtNext_chg (hw : Within [.regs, .tbl, .lrn] w) (hs : Chg w s0 s) : Chg w s0 (State.adtNext s) := by
  unfold State.adtNext
  split
  · exact hs
  · exact State.adtWrite_chg hw.up (Chg.upd_lrn hw.mem hs _)

theorem State.adtPlace_chg {key : Nat} {e : BitVec 512} (hw : Within [.regs, .tbl] w) (hs : Chg w s0 s) : ∀ t, State.adtPlace s key e = some t → Chg w s0 t := by
  intro t ht
  unfold State.adtPlace at ht
  obtain ⟨p, _, rfl⟩ := Option.map_eq_some_iff.mp ht
  exact Chg.foldl (fun t2 _ h1 => State.adtWrite_chg hw.up h1) hs

theorem State.adtPlaceSlow_chg {key : Nat} {e : BitVec 512} (hw : Within [.tbl, .lrn] w) (hs : Chg w s0 s) : ∀ t, State.adtPlaceSlow s key e = some t → Chg w s0 t := by
  intro t ht
  unfold State.adtPlaceSlow at ht
  obtain ⟨p, _, rfl⟩ := Option.map_eq_some_iff.mp ht
  split
  · exact State.setTent_chg hw.up hs
  · exact Chg.upd_lrn hw.mem hs _

theorem State.noteWithdraw_chg {e : BitVec 512} (hw : Within [.lrn] w) (hs : Chg w s0 s) : Chg w s0 (State.noteWithdraw s e) := by
  unfold State.noteWithdraw
  extract_lets -underBinder -merge +onlyGivenNames x1
  exact Chg.ite (Chg.upd_lrn hw.mem hs _) (hs)

theorem State.srtCommitted_chg {i : Nat} (hw : Within [.bsn] w) (hs : Chg w s0 s) : Chg w s0 (State.srtCommitted s i) := by
  unfold State.srtCommitted
  exact Chg.upd_bsn hw.mem hs _

theorem State.sigCommitted_chg {i : Nat} (hw : Within [.cfl] w) (hs : Chg w s0 s) : Chg w s0 (State.sigCommitted s i) := by
  unfold State.sigCommitted
  extract_lets -underBinder -merge +onlyGivenNames forget1
  exact Chg.upd_cfl hw.mem hs _

theorem State.pduCommitted_chg {i : Nat} {was : BitVec 512} (hw : Within [.cfl] w) (hs : Chg w s0 s) : Chg w s0 (State.pduCommitted s i was) := by
  unfold State.pduCommitted
  exact Chg.ite (Chg.upd_cfl hw.mem hs _) (hs)

theorem State.directWrite_chg {t : Nat} {i : Nat} {e : BitVec 512} (hw : Within [.tbl, .bsn, .cfl] w) (hs : Chg w s0 s) : Chg w s0 (State.directWrite s t i e) := by
  unfold State.directWrite
  extract_lets -underBinder -merge +onlyGivenNames was1 s2
  have h3 : Chg w s0 s2 := State.setTent_chg hw.up hs
  split
  · exact State.srtCommitted_chg hw.up h3
  · exact State.sigCommitted_chg hw.up h3
  · exact State.pduCommitted_chg hw.up h3
  · exact h3

theorem State.applyStaged_chg {a : Staged} (hw : Within [.regs, .tbl, .lrn, .bsn, .cfl] w) (hs : Chg w s0 s) : ∀ t, State.applyStaged s a = .ok t → Chg w s0 t := by
  intro t ht
  unfold State.applyStaged at ht
  split at ht
  · cases ht; exact State.directWrite_chg hw.up hs
  · cases ht; exact State.directWrite_chg hw.up hs
  · split at ht
    · split at ht
      · cases ht; exact State.setTent_chg hw.up hs
      · split at ht
        · cases ht; exact State.setTent_chg hw.up hs
        · cases ht
    · extract_lets e at ht
      split at ht
      · cases ht; exact State.setTent_chg hw.up hs
      · split at ht
        · rename_i u hu
          cases ht; exact State.adtPlace_chg hw.up hs _ hu
        · cases ht
  · split at ht
    · cases ht
      exact Chg.ite (State.setTent_chg hw.up hs) (State.setTent_chg hw.up (State.noteWithdraw_chg hw.up hs))
    · cases ht

theorem State.applyAll_chg {a : Nat} {a2 : List Staged} (hw : Within [.regs, .tbl, .lrn, .bsn, .cfl] w) (hs : Chg w s0 s) : ∀ t, State.applyAll s a a2 = .ok t → Chg w s0 t := by
  induction a2 generalizing s a with
  | nil => intro t ht; unfold State.applyAll at ht; cases ht; exact hs
  | cons x l ih =>
    intro t ht
    unfold State.applyAll at ht
    split at ht
    · rename_i u hu
      exact ih (State.applyStaged_chg hw.up hs _ hu) t ht
    · cases ht

theorem State.setStaging_chg {m : Nat} {l : List Staged} (hw : Within [.stage] w) (hs : Chg w s0 s) : Chg w s0 (State.setStaging s m l) := by
  unfold State.setStaging
  exact Chg.upd_stage hw.mem hs _

theorem State.tapStage_chg {m : Nat} {x : Staged} (hw : Within [.stage] w) (hs : Chg w s0 s) : Chg2 w s0 (State.tapStage s m x) := by
  unfold State.tapStage
  extract_lets -underBinder -merge +onlyGivenNames l1
  exact Chg.ite2 (Chg.pair hs) (Chg.pair (State.setStaging_chg hw.up hs))

theorem State.tapRun_chg {m : Nat} {op : Nat} {t : Nat} (hw : Within [.stage] w) (hs : Chg w s0 s) : Chg2 w s0 (State.tapRun s m op t) := by
  unfold State.tapRun
  extract_lets -underBinder -merge +onlyGivenNames i1 key2 d3 bad4
  have h5 : ∀ z6, Chg2 w s0 (bad4 z6) := by
    intro z6
    unfold bad4
    exact Chg.pair hs
  refine Chg.ite2 ?_ ?_
  · exact Chg.pair (State.setStaging_chg hw.up hs)
  · refine Chg.ite2 ?_ ?_
    · exact h5 _
    · refine Chg.ite2 ?_ ?_
      · exact h5 _
      · split
        · exact Chg.ite2 (h5 _) (Chg.pair hs)
        · exact Chg.ite2 (h5 _) (Chg.ite2 (h5 _) (Chg.ite2 (h5 _) (State.tapStage_chg hw.up hs)))
        · refine Chg.ite2 ?_ ?_
          · exact h5 _
          · split
            · exact Chg.pair hs
            · exact h5 _
        · exact Chg.ite2 (h5 _) (Chg.ite2 (h5 _) (State.tapStage_chg hw.up hs))
        · exact Chg.ite2 (State.tapStage_chg hw.up hs) (Chg.ite2 (h5 _) (State.tapStage_chg hw.up hs))

theorem State.tapCmd_chg {m : Nat} {v : Word} (hw : Within [.regs, .slots, .stage, .commitQ, .msix, .out] w) (hs : Chg w s0 s) : Chg w s0 (State.tapCmd s m v) := by
  unfold State.tapCmd
  refine State.command_chg hw.up (hs) (fun x5 h6 => ?_)
  · refine Chg.ite ?_ ?_
    · exact Chg.upd_commitQ hw.mem h6 _
    · split
      · rename_i y7 y8 e10
        have h9 := Chg2.of (State.tapRun_chg hw.up h6) e10
        exact State.holdRes_chg hw.up h9

theorem State.tapCommitDone_chg (hw : Within [.regs, .slots, .tbl, .stage, .commitQ, .commits, .lrn, .bsn, .cfl, .mgs, .svc] w) (hs : Chg w s0 s) : Chg w s0 (State.tapCommitDone s) := by
  unfold State.tapCommitDone
  split
  · exact hs
  · extract_lets -underBinder -merge +onlyGivenNames l1 s2
    have h3 : Chg w s0 s2 := State.adtFinish_chg hw.up (Chg.upd_commitQ hw.mem hs _)
    split
    · rename_i y4 e6
      have h5 := State.applyAll_chg hw.up (h3) _ e6
      extract_lets -underBinder -merge +onlyGivenNames t7 src9 t10
      have h8 : Chg w s0 t7 := State.setStaging_chg hw.up h5
      have h11 : Chg w s0 t10 := (show ∀ v0 v1, (MgsOn t7.mgs v1) → Chg w s0 { t7 with commits := v0, mgs := v1 } from fun v0 v1 c1 => Chg.upd_mgs hw.mem (Chg.upd_commits hw.mem h8 v0) c1) _ _ ⟨Nat.le_refl _, Nat.le_refl _, Nat.le_refl _, Nat.le_refl _⟩
      exact State.complete_chg hw.up h11
    · exact State.complete_chg hw.up (State.setStaging_chg hw.up h3)

theorem State.seedWrite_chg {m : Nat} {a : Nat} {v : Word} (hw : Within [.regs, .msix, .out] w) (hs : Chg w s0 s) : Chg w s0 (State.seedWrite s m a v) := by
  unfold State.seedWrite
  extract_lets -underBinder -merge +onlyGivenNames t1
  exact Chg.ite (State.plainWrite_chg hw.up hs) (Chg.ite (State.raise_chg hw.up (State.evt_chg hw.up hs)) (State.raise_chg hw.up (State.evt_chg hw.up hs)))

theorem State.setDom_chg {d : Nat} {v : Dom} (hw : Within [.tim] w) (hs : Chg w s0 s) : Chg w s0 (State.setDom s d v) := by
  unfold State.setDom
  exact Chg.upd_tim hw.mem hs _

theorem State.setRate2_chg {d : Nat} {newBase : Int} {newSlew : Int} (hw : Within [.regs, .msix, .tim, .out] w) (hs : Chg w s0 s) : Chg w s0 (State.setRate2 s d newBase newSlew) := by
  unfold State.setRate2
  extract_lets -underBinder -merge +onlyGivenNames D1 s2
  have h3 : Chg w s0 s2 := State.setDom_chg hw.up hs
  exact Chg.ite (h3) (State.raise_chg hw.up h3)

theorem State.slewSettle_chg {d : Nat} (hw : Within [.regs, .msix, .tim, .out] w) (hs : Chg w s0 s) : Chg w s0 (State.slewSettle s d) := by
  unfold State.slewSettle
  refine Chg.ite ?_ ?_
  · extract_lets -underBinder -merge +onlyGivenNames s1
    have h2 : Chg w s0 s1 := State.setRate2_chg hw.up hs
    exact State.setDom_chg hw.up h2
  · exact hs

theorem State.setRate_chg {d : Nat} {newBase : Int} (hw : Within [.regs, .msix, .tim, .out] w) (hs : Chg w s0 s) : Chg w s0 (State.setRate s d newBase) := by
  unfold State.setRate
  extract_lets -underBinder -merge +onlyGivenNames s1
  have h2 : Chg w s0 s1 := State.slewSettle_chg hw.up hs
  exact State.setRate2_chg hw.up h2

theorem State.domEnter_chg {d : Nat} {new : Nat} (hw : Within [.regs, .msix, .tim, .out] w) (hs : Chg w s0 s) : Chg w s0 (State.domEnter s d new) := by
  unfold State.domEnter
  extract_lets -underBinder -merge +onlyGivenNames old1 s2 D4 s5
  have h3 : Chg w s0 s2 := Chg.ite (State.raise_chg hw.up hs) (hs)
  have h6 : Chg w s0 s5 := State.setDom_chg hw.up h3
  exact Chg.ite (State.raise_chg hw.up h6) (h6)

theorem State.domStep_chg {d : Nat} {delta : Int} (hw : Within [.regs, .msix, .tim, .out] w) (hs : Chg w s0 s) : Chg w s0 (State.domStep s d delta) := by
  unfold State.domStep
  extract_lets -underBinder -merge +onlyGivenNames D1 s2
  have h3 : Chg w s0 s2 := State.setDom_chg hw.up hs
  exact State.raise_chg hw.up (State.evt_chg hw.up h3)

theorem State.domRefuse_chg {d : Nat} (hw : Within [.regs, .msix, .out] w) (hs : Chg w s0 s) : Chg w s0 (State.domRefuse s d) := by
  unfold State.domRefuse
  exact State.raise_chg hw.up (State.evt_chg hw.up hs)

theorem State.domJump_chg {d : Nat} (hw : Within [.regs, .msix, .out] w) (hs : Chg w s0 s) : Chg w s0 (State.domJump s d) := by
  unfold State.domJump
  exact State.raise_chg hw.up (State.evt_chg hw.up hs)

theorem State.domSlew_chg {d : Nat} {delta : Int} (hw : Within [.regs, .msix, .tim, .out] w) (hs : Chg w s0 s) : Chg w s0 (State.domSlew s d delta) := by
  unfold State.domSlew
  extract_lets -underBinder -merge +onlyGivenNames r1 sr2 s3
  have h4 : Chg w s0 s3 := State.setRate2_chg hw.up hs
  exact State.setDom_chg hw.up h4

theorem State.domStepBy_chg {d : Nat} {delta : Int} (hw : Within [.regs, .msix, .tim, .out] w) (hs : Chg w s0 s) : Chg w s0 (State.domStepBy s d delta) := by
  unfold State.domStepBy
  split
  · exact State.domEnter_chg hw.up (State.domStep_chg hw.up hs)
  · exact State.domRefuse_chg hw.up hs
  · exact State.domRefuse_chg hw.up hs
  · exact Chg.ite (State.domSlew_chg hw.up hs) (State.domJump_chg hw.up hs)
  · exact hs

theorem State.domStepCmd_chg {d : Nat} {delta : Int} (hw : Within [.regs, .msix, .tim, .out] w) (hs : Chg w s0 s) : Chg w s0 (State.domStepCmd s d delta) := by
  unfold State.domStepCmd
  extract_lets -underBinder -merge +onlyGivenNames t1
  have h2 : Chg w s0 t1 := State.domStepBy_chg hw.up hs
  exact Chg.ite (State.raise_chg hw.up h2) (h2)

theorem State.nativeUpdate_chg {d : Nat} {e : Int} (hw : Within [.regs, .msix, .tim, .out] w) (hs : Chg w s0 s) : Chg w s0 (State.nativeUpdate s d e) := by
  unfold State.nativeUpdate
  extract_lets -underBinder -merge +onlyGivenNames kp1 ki2 i3
  exact State.setRate_chg hw.up (State.setDom_chg hw.up hs)

theorem State.lockJudge_chg {d : Nat} {e : Int} (hw : Within [.regs, .msix, .tim, .out] w) (hs : Chg w s0 s) : Chg w s0 (State.lockJudge s d e) := by
  unfold State.lockJudge
  extract_lets -underBinder -merge +onlyGivenNames thr1 run2 src3 s4
  have h5 : Chg w s0 s4 := State.setDom_chg hw.up hs
  exact Chg.ite (State.domEnter_chg hw.up h5) (h5)

theorem State.domUpdate_chg {d : Nat} {native : Bool} {e : Int} (hw : Within [.regs, .msix, .tim, .out] w) (hs : Chg w s0 s) : Chg w s0 (State.domUpdate s d native e) := by
  unfold State.domUpdate
  exact Chg.ite (State.nativeUpdate_chg hw.up hs) (hs)

theorem State.domErr_chg {d : Nat} {native : Bool} {e : Int} {here : Int × Nat} (hw : Within [.regs, .msix, .tim, .out] w) (hs : Chg w s0 s) : Chg w s0 (State.domErr s d native e here) := by
  unfold State.domErr
  split
  · refine Chg.ite ?_ ?_
    · exact hs
    · extract_lets -underBinder -merge +onlyGivenNames seed1 s2
      have h3 : Chg w s0 s2 := State.domEnter_chg hw.up (State.domStep_chg hw.up hs)
      exact State.setDom_chg hw.up h3
  · exact Chg.ite (State.lockJudge_chg hw.up (State.nativeUpdate_chg hw.up hs)) (hs)
  · exact Chg.ite (State.domUpdate_chg hw.up hs) (State.domJump_chg hw.up hs)
  · exact Chg.ite (State.domEnter_chg hw.up (State.domUpdate_chg hw.up hs)) (State.domJump_chg hw.up hs)
  · exact hs

theorem State.ptpSeq_chg {p : Nat} {c : Nat} (hw : Within [.tim] w) (hs : Chg w s0 s) : Chg2 w s0 (State.ptpSeq s p c) := by
  unfold State.ptpSeq
  extract_lets -underBinder -merge +onlyGivenNames n1
  exact Chg.pair (Chg.upd_tim hw.mem hs _)

theorem State.ptpSend_chg {port : Nat} {bytes : List Byte} {own : OwnMsg} (hw : Within [.inj] w) (hs : Chg w s0 s) : Chg w s0 (State.ptpSend s port bytes own) := by
  unfold State.ptpSend
  exact State.sendOwn_chg hw.up hs

theorem State.syncOut_chg {d : Nat} {o : OwnSync} {tlv : List Byte} (hw : Within [.tim, .inj] w) (hs : Chg w s0 s) : Chg w s0 (State.syncOut s d o tlv) := by
  unfold State.syncOut
  refine Chg.foldl (fun s4 x9 h3 => ?_) (hs)
  split
  · rename_i y5 y6 e8
    have h7 := Chg2.of (State.ptpSeq_chg hw.up h3) e8
    exact State.ptpSend_chg hw.up h7

theorem State.syncDrop_chg (hw : Within [.regs] w) (hs : Chg w s0 s) : Chg w s0 (State.syncDrop s) := by
  unfold State.syncDrop
  exact State.evt_chg hw.up hs

theorem State.syncAccept_chg {d : Nat} {p : Nat} {origin : Nat} {corr : Int} {ingress : Nat} {steps : Nat} {tlv : List Byte} (hw : Within [.regs, .msix, .tim, .inj, .out] w) (hs : Chg w s0 s) : Chg w s0 (State.syncAccept s d p origin corr ingress steps tlv) := by
  unfold State.syncAccept
  extract_lets -underBinder -merge +onlyGivenNames s1 master3 there4 rate5 e6 s7 here9 s10 src12 s13
  have h2 : Chg w s0 s1 := State.stat_chg hw.up hs
  have h8 : Chg w s0 s7 := State.wr_chg hw.up h2
  have h11 : Chg w s0 s10 := Chg.ite (h8) (State.domErr_chg hw.up (Chg.ite (State.raise_chg hw.up h8) (h8)))
  have h14 : Chg w s0 s13 := State.setDom_chg hw.up h11
  refine Chg.ite ?_ ?_
  · exact h14
  · extract_lets -underBinder -merge +onlyGivenNames ml15
    exact State.syncOut_chg hw.up h14

theorem State.setPd_chg {p : Nat} {v : PdPort} (hw : Within [.tim] w) (hs : Chg w s0 s) : Chg w s0 (State.setPd s p v) := by
  unfold State.setPd
  exact Chg.upd_tim hw.mem hs _

theorem State.pdelayBad_chg {p : Nat} (hw : Within [.regs, .msix, .tim, .out] w) (hs : Chg w s0 s) : Chg w s0 (State.pdelayBad s p) := by
  unfold State.pdelayBad
  extract_lets -underBinder -merge +onlyGivenNames P1 s2
  have h3 : Chg w s0 s2 := State.setPd_chg hw.up hs
  exact Chg.ite (State.raise_chg hw.up (State.evt_chg hw.up (State.wf_chg hw.up h3))) (h3)

theorem State.pdelayGood_chg {p : Nat} (hw : Within [.regs, .tim] w) (hs : Chg w s0 s) : Chg w s0 (State.pdelayGood s p) := by
  unfold State.pdelayGood
  extract_lets -underBinder -merge +onlyGivenNames P1 s2
  have h3 : Chg w s0 s2 := State.setPd_chg hw.up hs
  exact Chg.ite (State.wf_chg hw.up h3) (h3)

theorem State.syncRx_chg {p : Nat} {number : Nat} {twoStep : Bool} {seq : Nat} {origin : Nat} {corr : Int} {ingress : Nat} {tlv : List Byte} (hw : Within [.regs, .msix, .tim, .inj, .out] w) (hs : Chg w s0 s) : Chg w s0 (State.syncRx s p number twoStep seq origin corr ingress tlv) := by
  unfold State.syncRx
  extract_lets -underBinder -merge +onlyGivenNames s1
  have h2 : Chg w s0 s1 := State.stat_chg hw.up hs
  split
  · exact State.evt_chg hw.up h2
  · refine Chg.ite ?_ ?_
    · extract_lets -underBinder -merge +onlyGivenNames src3 s4
      have h5 : Chg w s0 s4 := Chg.ite (State.syncDrop_chg hw.up (State.setDom_chg hw.up h2)) (h2)
      exact Chg.ite (State.setDom_chg hw.up h5) (State.syncAccept_chg hw.up h5)
    · exact State.syncDrop_chg hw.up h2

theorem State.followUpRx_chg {p : Nat} {number : Nat} {seq : Nat} {origin : Nat} {corr : Int} {tlv : List Byte} (hw : Within [.regs, .msix, .tim, .inj, .out] w) (hs : Chg w s0 s) : Chg w s0 (State.followUpRx s p number seq origin corr tlv) := by
  unfold State.followUpRx
  extract_lets -underBinder -merge +onlyGivenNames s1
  have h2 : Chg w s0 s1 := State.stat_chg hw.up hs
  split
  · exact State.evt_chg hw.up h2
  · split
    · exact Chg.ite (Chg.ite (State.syncAccept_chg hw.up h2) (State.syncDrop_chg hw.up (State.setDom_chg hw.up h2))) (h2)
    · exact h2

theorem State.pdelayReqRx_chg {p : Nat} {seq : Nat} {t2 : Nat} {requester : List Byte} (hw : Within [.regs, .inj] w) (hs : Chg w s0 s) : Chg w s0 (State.pdelayReqRx s p seq t2 requester) := by
  unfold State.pdelayReqRx
  extract_lets -underBinder -merge +onlyGivenNames s1
  have h2 : Chg w s0 s1 := State.stat_chg hw.up hs
  exact Chg.ite (State.ptpSend_chg hw.up h2) (h2)

theorem State.pdelayRespRx_chg {p : Nat} {seq : Nat} {t1 : Nat} {t2 : Nat} {t3 : Nat} {t4 : Nat} (hw : Within [.regs, .msix, .tim, .out] w) (hs : Chg w s0 s) : Chg w s0 (State.pdelayRespRx s p seq t1 t2 t3 t4) := by
  unfold State.pdelayRespRx
  extract_lets -underBinder -merge +onlyGivenNames s1 P3
  have h2 : Chg w s0 s1 := State.stat_chg hw.up hs
  split
  · exact h2
  · refine Chg.ite ?_ ?_
    · exact h2
    · extract_lets -underBinder -merge +onlyGivenNames nrr4 s5 turn7 dly8 s9 s11
      have h6 : Chg w s0 s5 := State.wr_chg hw.up h2
      have h10 : Chg w s0 s9 := State.wf_chg hw.up h6
      have h12 : Chg w s0 s11 := State.setPd_chg hw.up h10
      exact Chg.ite (State.pdelayGood_chg hw.up h12) (State.pdelayBad_chg hw.up h12)

theorem State.gptpOther_chg {number : Nat} (hw : Within [.regs] w) (hs : Chg w s0 s) : Chg w s0 (State.gptpOther s number) := by
  unfold State.gptpOther
  extract_lets -underBinder -merge +onlyGivenNames s1
  have h2 : Chg w s0 s1 := State.stat_chg hw.up hs
  exact Chg.ite (State.evt_chg hw.up h2) (h2)

theorem State.gptpRx_chg {p : Nat} {ts : Nat} {b : List Byte} (hw : Within [.regs, .msix, .tim, .inj, .out] w) (hs : Chg w s0 s) : Chg w s0 (State.gptpRx s p ts b) := by
  unfold State.gptpRx
  extract_lets -underBinder -merge +onlyGivenNames number1 seq2 corr3 time4 tlv5 mine6
  split
  · exact State.syncRx_chg hw.up hs
  · exact State.followUpRx_chg hw.up hs
  · exact State.pdelayReqRx_chg hw.up hs
  · extract_lets -underBinder -merge +onlyGivenNames s7
    have h8 : Chg w s0 s7 := State.stat_chg hw.up hs
    exact Chg.ite (State.setPd_chg hw.up h8) (h8)
  · split
    · exact Chg.ite (State.pdelayRespRx_chg hw.up (State.setPd_chg hw.up hs)) (State.stat_chg hw.up hs)
    · exact State.stat_chg hw.up hs
  · exact State.gptpOther_chg hw.up hs

theorem State.ownSent_chg {p : Nat} {m : OwnMsg} (hw : Within [.regs, .tim, .inj] w) (hs : Chg w s0 s) : Chg w s0 (State.ownSent s p m) := by
  unfold State.ownSent
  extract_lets -underBinder -merge +onlyGivenNames s1
  have h2 : Chg w s0 s1 := State.stat_chg hw.up hs
  split
  · exact h2
  · exact State.stat_chg hw.up h2
  · split
    · exact Chg.ite (State.setPd_chg hw.up h2) (h2)
    · exact h2
  · exact State.ptpSend_chg hw.up h2

theorem State.domEnable_chg {d : Nat} {was : Bool} (hw : Within [.regs, .msix, .tim, .out] w) (hs : Chg w s0 s) : Chg w s0 (State.domEnable s d was) := by
  unfold State.domEnable
  extract_lets -underBinder -merge +onlyGivenNames en1
  exact Chg.ite (hs) (Chg.ite (State.domEnter_chg hw.up hs) (State.domEnter_chg hw.up hs))

theorem State.domCfgWrite_chg {m : Nat} {d : Nat} {v : Word} (hw : Within [.regs, .msix, .tim, .out] w) (hs : Chg w s0 s) : Chg w s0 (State.domCfgWrite s m d v) := by
  unfold State.domCfgWrite
  exact State.domEnable_chg hw.up (State.plainWrite_chg hw.up hs)

theorem State.domRateMaxWrite_chg {m : Nat} {d : Nat} {v : Word} (hw : Within [.regs, .msix, .tim, .out] w) (hs : Chg w s0 s) : Chg w s0 (State.domRateMaxWrite s m d v) := by
  unfold State.domRateMaxWrite
  extract_lets -underBinder -merge +onlyGivenNames s1
  have h2 : Chg w s0 s1 := State.plainWrite_chg hw.up hs
  exact Chg.ite (State.setRate_chg hw.up h2) (h2)

theorem State.frcIncWrite_chg {v : Word} (hw : Within [.regs] w) (hs : Chg w s0 s) : Chg w s0 (State.frcIncWrite s v) := by
  unfold State.frcIncWrite
  exact State.wr_chg hw.up hs

theorem State.domSlewCmd_chg {d : Nat} (hw : Within [.regs, .msix, .tim, .out] w) (hs : Chg w s0 s) : Chg w s0 (State.domSlewCmd s d) := by
  unfold State.domSlewCmd
  split
  · exact State.domRefuse_chg hw.up hs
  · exact State.domRefuse_chg hw.up hs
  · exact State.domSlew_chg hw.up hs

theorem State.domSetRateCmd_chg {d : Nat} (hw : Within [.regs, .msix, .tim, .out] w) (hs : Chg w s0 s) : Chg w s0 (State.domSetRateCmd s d) := by
  unfold State.domSetRateCmd
  extract_lets -underBinder -merge +onlyGivenNames st1
  exact Chg.ite (State.domRefuse_chg hw.up hs) (State.setRate_chg hw.up hs)

theorem State.domUnlockCmd_chg {d : Nat} (hw : Within [.regs, .msix, .tim, .out] w) (hs : Chg w s0 s) : Chg w s0 (State.domUnlockCmd s d) := by
  unfold State.domUnlockCmd
  exact Chg.ite (hs) (State.domEnter_chg hw.up hs)

theorem State.domCmdWrite_chg {d : Nat} {v : Word} (hw : Within [.regs, .msix, .tim, .out] w) (hs : Chg w s0 s) : Chg w s0 (State.domCmdWrite s d v) := by
  unfold State.domCmdWrite
  extract_lets -underBinder -merge +onlyGivenNames s1 s3 s5
  have h2 : Chg w s0 s1 := Chg.ite (State.domStepCmd_chg hw.up hs) (hs)
  have h4 : Chg w s0 s3 := Chg.ite (State.domSlewCmd_chg hw.up h2) (h2)
  have h6 : Chg w s0 s5 := Chg.ite (State.domSetRateCmd_chg hw.up h4) (h4)
  exact Chg.ite (State.domUnlockCmd_chg hw.up h6) (h6)

theorem State.srvInt_chg {i : Nat} (hw : Within [.regs, .msix, .out] w) (hs : Chg w s0 s) : Chg w s0 (State.srvInt s i) := by
  unfold State.srvInt
  extract_lets -underBinder -merge +onlyGivenNames s1
  have h2 : Chg w s0 s1 := State.wr_chg hw.up hs
  exact Chg.ite (h2) (State.raise_chg hw.up h2)

theorem State.srvUpdate_chg {off : Int} (hw : Within [.regs, .msix, .tim, .out] w) (hs : Chg w s0 s) : Chg w s0 (State.srvUpdate s off) := by
  unfold State.srvUpdate
  extract_lets -underBinder -merge +onlyGivenNames d1 drives2 ups3 s4 thr6
  have h5 : Chg w s0 s4 := State.wf_chg hw.up hs
  refine Chg.ite ?_ ?_
  · extract_lets -underBinder -merge +onlyGivenNames before7 s9 refused11 s12 s14 s16
    have h8 : Chg w s0 before7 := h5
    have h10 : Chg w s0 s9 := Chg.ite (State.domStepBy_chg hw.up h5) (h5)
    have h13 : Chg w s0 s12 := Chg.ite (State.raise_chg hw.up h10) (h10)
    have h15 : Chg w s0 s14 := State.wf_chg hw.up (State.wr_chg hw.up h13)
    have h17 : Chg w s0 s16 := Chg.ite (State.lockJudge_chg hw.up h15) (h15)
    exact State.srvInt_chg hw.up (State.srvInt_chg hw.up h17)
  · extract_lets -underBinder -merge +onlyGivenNames maxf18 kp19 ki20 i021 i22 f023 f24 s25 s27 s29 s31 s33
    have h26 : Chg w s0 s25 := State.wr_chg hw.up h5
    have h28 : Chg w s0 s27 := State.wr_chg hw.up h26
    have h30 : Chg w s0 s29 := State.wf_chg hw.up h28
    have h32 : Chg w s0 s31 := Chg.ite (State.setRate_chg hw.up h30) (h30)
    have h34 : Chg w s0 s33 := Chg.ite (State.lockJudge_chg hw.up h32) (h32)
    exact State.srvInt_chg hw.up h34

theorem State.srvOffsetWrite_chg {v : Word} (hw : Within [.regs, .msix, .tim, .out] w) (hs : Chg w s0 s) : Chg w s0 (State.srvOffsetWrite s v) := by
  unfold State.srvOffsetWrite
  exact Chg.ite (State.srvUpdate_chg hw.up hs) (hs)

theorem State.trimMove_chg {k : Int} (hw : Within [.regs, .msix, .mgs, .out] w) (hs : Chg w s0 s) : Chg w s0 (State.trimMove s k) := by
  unfold State.trimMove
  extract_lets -underBinder -merge +onlyGivenNames c1 s2
  have h3 : Chg w s0 s2 := State.wf_chg hw.up hs
  exact Chg.ite (State.logEvt_chg hw.up (State.raise_chg hw.up (State.evt_chg hw.up h3))) (h3)

theorem State.frcTick_chg (hw : Within [.frcNs, .frcFrac] w) (hs : Chg w s0 s) : Chg w s0 (State.frcTick s) := by
  unfold State.frcTick
  refine Chg.ite ?_ ?_
  · exact hs
  · extract_lets -underBinder -merge +onlyGivenNames f1
    exact (show ∀ v0 v1, Chg w s0 { s with frcNs := v0, frcFrac := v1 } from fun v0 v1 => Chg.upd_frcFrac hw.mem (Chg.upd_frcNs hw.mem hs v0) v1) _ _

theorem State.setEport_chg {p : Nat} {e : Ept} (hw : Within [.ept] w) (hs : Chg w s0 s) : Chg w s0 (State.setEport s p e) := by
  unfold State.setEport
  exact Chg.upd_ept hw.mem hs _

theorem State.setEg_chg {p : Nat} {e : Egr} (hw : Within [.egr] w) (hs : Chg w s0 s) : Chg w s0 (State.setEg s p e) := by
  unfold State.setEg
  exact Chg.upd_egr hw.mem hs _

theorem State.setQueue_chg {q : Nat} {l : List (Nat × Nat)} (hw : Within [.bsn] w) (hs : Chg w s0 s) : Chg w s0 (State.setQueue s q l) := by
  unfold State.setQueue
  exact Chg.upd_bsn hw.mem hs _

theorem State.budDue_chg {p : Nat} (hw : Within [.bud] w) (hs : Chg w s0 s) : Chg w s0 (State.budDue s p) := by
  unfold State.budDue
  exact Chg.ite (Chg.upd_bud hw.mem hs _) (hs)

end Sys2Proof.Machine
end

