-- ==== Sys2Proof/Laws/Ops.lean ====
section
/-! SUPPORT. What each shared operation of Machine/Ops.lean leaves unchanged, one lemma for each area. -/

set_option Elab.async false

namespace Sys2Proof.Machine

/-! `wf` writes regs at most. -/

@[simp] theorem State.wf_slots (s : State) (a : Nat) (lo : Nat) (len : Nat) (v : Nat) : (s.wf a lo len v).slots = s.slots := ((State.wf_chg (Within.self _) (Chg.refl s)).same .slots (by decide)).symm
@[simp] theorem State.wf_fences (s : State) (a : Nat) (lo : Nat) (len : Nat) (v : Nat) : (s.wf a lo len v).fences = s.fences := ((State.wf_chg (Within.self _) (Chg.refl s)).same .fences (by decide)).symm
@[simp] theorem State.wf_holds (s : State) (a : Nat) (lo : Nat) (len : Nat) (v : Nat) : (s.wf a lo len v).holds = s.holds := ((State.wf_chg (Within.self _) (Chg.refl s)).same .holds (by decide)).symm
@[simp] theorem State.wf_snaps (s : State) (a : Nat) (lo : Nat) (len : Nat) (v : Nat) : (s.wf a lo len v).snaps = s.snaps := ((State.wf_chg (Within.self _) (Chg.refl s)).same .snaps (by decide)).symm
@[simp] theorem State.wf_tbl (s : State) (a : Nat) (lo : Nat) (len : Nat) (v : Nat) : (s.wf a lo len v).tbl = s.tbl := ((State.wf_chg (Within.self _) (Chg.refl s)).same .tbl (by decide)).symm
@[simp] theorem State.wf_stage (s : State) (a : Nat) (lo : Nat) (len : Nat) (v : Nat) : (s.wf a lo len v).stage = s.stage := ((State.wf_chg (Within.self _) (Chg.refl s)).same .stage (by decide)).symm
@[simp] theorem State.wf_commitQ (s : State) (a : Nat) (lo : Nat) (len : Nat) (v : Nat) : (s.wf a lo len v).commitQ = s.commitQ := ((State.wf_chg (Within.self _) (Chg.refl s)).same .commitQ (by decide)).symm
@[simp] theorem State.wf_commits (s : State) (a : Nat) (lo : Nat) (len : Nat) (v : Nat) : (s.wf a lo len v).commits = s.commits := ((State.wf_chg (Within.self _) (Chg.refl s)).same .commits (by decide)).symm
@[simp] theorem State.wf_frcNs (s : State) (a : Nat) (lo : Nat) (len : Nat) (v : Nat) : (s.wf a lo len v).frcNs = s.frcNs := ((State.wf_chg (Within.self _) (Chg.refl s)).same .frcNs (by decide)).symm
@[simp] theorem State.wf_frcFrac (s : State) (a : Nat) (lo : Nat) (len : Nat) (v : Nat) : (s.wf a lo len v).frcFrac = s.frcFrac := ((State.wf_chg (Within.self _) (Chg.refl s)).same .frcFrac (by decide)).symm
@[simp] theorem State.wf_msix (s : State) (a : Nat) (lo : Nat) (len : Nat) (v : Nat) : (s.wf a lo len v).msix = s.msix := ((State.wf_chg (Within.self _) (Chg.refl s)).same .msix (by decide)).symm
@[simp] theorem State.wf_resets (s : State) (a : Nat) (lo : Nat) (len : Nat) (v : Nat) : (s.wf a lo len v).resets = s.resets := ((State.wf_chg (Within.self _) (Chg.refl s)).same .resets (by decide)).symm
@[simp] theorem State.wf_lrn (s : State) (a : Nat) (lo : Nat) (len : Nat) (v : Nat) : (s.wf a lo len v).lrn = s.lrn := ((State.wf_chg (Within.self _) (Chg.refl s)).same .lrn (by decide)).symm
@[simp] theorem State.wf_bsn (s : State) (a : Nat) (lo : Nat) (len : Nat) (v : Nat) : (s.wf a lo len v).bsn = s.bsn := ((State.wf_chg (Within.self _) (Chg.refl s)).same .bsn (by decide)).symm
@[simp] theorem State.wf_meters (s : State) (a : Nat) (lo : Nat) (len : Nat) (v : Nat) : (s.wf a lo len v).meters = s.meters := ((State.wf_chg (Within.self _) (Chg.refl s)).same .meters (by decide)).symm
@[simp] theorem State.wf_egr (s : State) (a : Nat) (lo : Nat) (len : Nat) (v : Nat) : (s.wf a lo len v).egr = s.egr := ((State.wf_chg (Within.self _) (Chg.refl s)).same .egr (by decide)).symm
@[simp] theorem State.wf_slu (s : State) (a : Nat) (lo : Nat) (len : Nat) (v : Nat) : (s.wf a lo len v).slu = s.slu := ((State.wf_chg (Within.self _) (Chg.refl s)).same .slu (by decide)).symm
@[simp] theorem State.wf_bud (s : State) (a : Nat) (lo : Nat) (len : Nat) (v : Nat) : (s.wf a lo len v).bud = s.bud := ((State.wf_chg (Within.self _) (Chg.refl s)).same .bud (by decide)).symm
@[simp] theorem State.wf_fre (s : State) (a : Nat) (lo : Nat) (len : Nat) (v : Nat) : (s.wf a lo len v).fre = s.fre := ((State.wf_chg (Within.self _) (Chg.refl s)).same .fre (by decide)).symm
@[simp] theorem State.wf_fgd (s : State) (a : Nat) (lo : Nat) (len : Nat) (v : Nat) : (s.wf a lo len v).fgd = s.fgd := ((State.wf_chg (Within.self _) (Chg.refl s)).same .fgd (by decide)).symm
@[simp] theorem State.wf_had (s : State) (a : Nat) (lo : Nat) (len : Nat) (v : Nat) : (s.wf a lo len v).had = s.had := ((State.wf_chg (Within.self _) (Chg.refl s)).same .had (by decide)).symm
@[simp] theorem State.wf_ept (s : State) (a : Nat) (lo : Nat) (len : Nat) (v : Nat) : (s.wf a lo len v).ept = s.ept := ((State.wf_chg (Within.self _) (Chg.refl s)).same .ept (by decide)).symm
@[simp] theorem State.wf_hif (s : State) (a : Nat) (lo : Nat) (len : Nat) (v : Nat) : (s.wf a lo len v).hif = s.hif := ((State.wf_chg (Within.self _) (Chg.refl s)).same .hif (by decide)).symm
@[simp] theorem State.wf_can (s : State) (a : Nat) (lo : Nat) (len : Nat) (v : Nat) : (s.wf a lo len v).can = s.can := ((State.wf_chg (Within.self _) (Chg.refl s)).same .can (by decide)).symm
@[simp] theorem State.wf_lin (s : State) (a : Nat) (lo : Nat) (len : Nat) (v : Nat) : (s.wf a lo len v).lin = s.lin := ((State.wf_chg (Within.self _) (Chg.refl s)).same .lin (by decide)).symm
@[simp] theorem State.wf_cfl (s : State) (a : Nat) (lo : Nat) (len : Nat) (v : Nat) : (s.wf a lo len v).cfl = s.cfl := ((State.wf_chg (Within.self _) (Chg.refl s)).same .cfl (by decide)).symm
@[simp] theorem State.wf_vlt (s : State) (a : Nat) (lo : Nat) (len : Nat) (v : Nat) : (s.wf a lo len v).vlt = s.vlt := ((State.wf_chg (Within.self _) (Chg.refl s)).same .vlt (by decide)).symm
@[simp] theorem State.wf_auth (s : State) (a : Nat) (lo : Nat) (len : Nat) (v : Nat) : (s.wf a lo len v).auth = s.auth := ((State.wf_chg (Within.self _) (Chg.refl s)).same .auth (by decide)).symm
@[simp] theorem State.wf_twn (s : State) (a : Nat) (lo : Nat) (len : Nat) (v : Nat) : (s.wf a lo len v).twn = s.twn := ((State.wf_chg (Within.self _) (Chg.refl s)).same .twn (by decide)).symm
@[simp] theorem State.wf_tim (s : State) (a : Nat) (lo : Nat) (len : Nat) (v : Nat) : (s.wf a lo len v).tim = s.tim := ((State.wf_chg (Within.self _) (Chg.refl s)).same .tim (by decide)).symm
@[simp] theorem State.wf_pwr (s : State) (a : Nat) (lo : Nat) (len : Nat) (v : Nat) : (s.wf a lo len v).pwr = s.pwr := ((State.wf_chg (Within.self _) (Chg.refl s)).same .pwr (by decide)).symm
@[simp] theorem State.wf_mgs (s : State) (a : Nat) (lo : Nat) (len : Nat) (v : Nat) : (s.wf a lo len v).mgs = s.mgs := ((State.wf_chg (Within.self _) (Chg.refl s)).same .mgs (by decide)).symm
@[simp] theorem State.wf_svc (s : State) (a : Nat) (lo : Nat) (len : Nat) (v : Nat) : (s.wf a lo len v).svc = s.svc := ((State.wf_chg (Within.self _) (Chg.refl s)).same .svc (by decide)).symm
@[simp] theorem State.wf_inj (s : State) (a : Nat) (lo : Nat) (len : Nat) (v : Nat) : (s.wf a lo len v).inj = s.inj := ((State.wf_chg (Within.self _) (Chg.refl s)).same .inj (by decide)).symm
@[simp] theorem State.wf_out (s : State) (a : Nat) (lo : Nat) (len : Nat) (v : Nat) : (s.wf a lo len v).out = s.out := ((State.wf_chg (Within.self _) (Chg.refl s)).same .out (by decide)).symm
@[simp] theorem State.wf_free (s : State) (a : Nat) (lo : Nat) (len : Nat) (v : Nat) : (s.wf a lo len v).free = s.free := ((State.wf_chg (Within.self _) (Chg.refl s)).same .free (by decide)).symm
@[simp] theorem State.wf_pending (s : State) (a : Nat) (lo : Nat) (len : Nat) (v : Nat) : (s.wf a lo len v).pending = s.pending := ((State.wf_chg (Within.self _) (Chg.refl s)).same .pending (by decide)).symm

/-! `wr64` writes regs at most. -/

@[simp] theorem State.wr64_slots (s : State) (a : Nat) (v : Nat) : (s.wr64 a v).slots = s.slots := ((State.wr64_chg (Within.self _) (Chg.refl s)).same .slots (by decide)).symm
@[simp] theorem State.wr64_fences (s : State) (a : Nat) (v : Nat) : (s.wr64 a v).fences = s.fences := ((State.wr64_chg (Within.self _) (Chg.refl s)).same .fences (by decide)).symm
@[simp] theorem State.wr64_holds (s : State) (a : Nat) (v : Nat) : (s.wr64 a v).holds = s.holds := ((State.wr64_chg (Within.self _) (Chg.refl s)).same .holds (by decide)).symm
@[simp] theorem State.wr64_snaps (s : State) (a : Nat) (v : Nat) : (s.wr64 a v).snaps = s.snaps := ((State.wr64_chg (Within.self _) (Chg.refl s)).same .snaps (by decide)).symm
@[simp] theorem State.wr64_tbl (s : State) (a : Nat) (v : Nat) : (s.wr64 a v).tbl = s.tbl := ((State.wr64_chg (Within.self _) (Chg.refl s)).same .tbl (by decide)).symm
@[simp] theorem State.wr64_stage (s : State) (a : Nat) (v : Nat) : (s.wr64 a v).stage = s.stage := ((State.wr64_chg (Within.self _) (Chg.refl s)).same .stage (by decide)).symm
@[simp] theorem State.wr64_commitQ (s : State) (a : Nat) (v : Nat) : (s.wr64 a v).commitQ = s.commitQ := ((State.wr64_chg (Within.self _) (Chg.refl s)).same .commitQ (by decide)).symm
@[simp] theorem State.wr64_commits (s : State) (a : Nat) (v : Nat) : (s.wr64 a v).commits = s.commits := ((State.wr64_chg (Within.self _) (Chg.refl s)).same .commits (by decide)).symm
@[simp] theorem State.wr64_frcNs (s : State) (a : Nat) (v : Nat) : (s.wr64 a v).frcNs = s.frcNs := ((State.wr64_chg (Within.self _) (Chg.refl s)).same .frcNs (by decide)).symm
@[simp] theorem State.wr64_frcFrac (s : State) (a : Nat) (v : Nat) : (s.wr64 a v).frcFrac = s.frcFrac := ((State.wr64_chg (Within.self _) (Chg.refl s)).same .frcFrac (by decide)).symm
@[simp] theorem State.wr64_msix (s : State) (a : Nat) (v : Nat) : (s.wr64 a v).msix = s.msix := ((State.wr64_chg (Within.self _) (Chg.refl s)).same .msix (by decide)).symm
@[simp] theorem State.wr64_resets (s : State) (a : Nat) (v : Nat) : (s.wr64 a v).resets = s.resets := ((State.wr64_chg (Within.self _) (Chg.refl s)).same .resets (by decide)).symm
@[simp] theorem State.wr64_lrn (s : State) (a : Nat) (v : Nat) : (s.wr64 a v).lrn = s.lrn := ((State.wr64_chg (Within.self _) (Chg.refl s)).same .lrn (by decide)).symm
@[simp] theorem State.wr64_bsn (s : State) (a : Nat) (v : Nat) : (s.wr64 a v).bsn = s.bsn := ((State.wr64_chg (Within.self _) (Chg.refl s)).same .bsn (by decide)).symm
@[simp] theorem State.wr64_meters (s : State) (a : Nat) (v : Nat) : (s.wr64 a v).meters = s.meters := ((State.wr64_chg (Within.self _) (Chg.refl s)).same .meters (by decide)).symm
@[simp] theorem State.wr64_egr (s : State) (a : Nat) (v : Nat) : (s.wr64 a v).egr = s.egr := ((State.wr64_chg (Within.self _) (Chg.refl s)).same .egr (by decide)).symm
@[simp] theorem State.wr64_slu (s : State) (a : Nat) (v : Nat) : (s.wr64 a v).slu = s.slu := ((State.wr64_chg (Within.self _) (Chg.refl s)).same .slu (by decide)).symm
@[simp] theorem State.wr64_bud (s : State) (a : Nat) (v : Nat) : (s.wr64 a v).bud = s.bud := ((State.wr64_chg (Within.self _) (Chg.refl s)).same .bud (by decide)).symm
@[simp] theorem State.wr64_fre (s : State) (a : Nat) (v : Nat) : (s.wr64 a v).fre = s.fre := ((State.wr64_chg (Within.self _) (Chg.refl s)).same .fre (by decide)).symm
@[simp] theorem State.wr64_fgd (s : State) (a : Nat) (v : Nat) : (s.wr64 a v).fgd = s.fgd := ((State.wr64_chg (Within.self _) (Chg.refl s)).same .fgd (by decide)).symm
@[simp] theorem State.wr64_had (s : State) (a : Nat) (v : Nat) : (s.wr64 a v).had = s.had := ((State.wr64_chg (Within.self _) (Chg.refl s)).same .had (by decide)).symm
@[simp] theorem State.wr64_ept (s : State) (a : Nat) (v : Nat) : (s.wr64 a v).ept = s.ept := ((State.wr64_chg (Within.self _) (Chg.refl s)).same .ept (by decide)).symm
@[simp] theorem State.wr64_hif (s : State) (a : Nat) (v : Nat) : (s.wr64 a v).hif = s.hif := ((State.wr64_chg (Within.self _) (Chg.refl s)).same .hif (by decide)).symm
@[simp] theorem State.wr64_can (s : State) (a : Nat) (v : Nat) : (s.wr64 a v).can = s.can := ((State.wr64_chg (Within.self _) (Chg.refl s)).same .can (by decide)).symm
@[simp] theorem State.wr64_lin (s : State) (a : Nat) (v : Nat) : (s.wr64 a v).lin = s.lin := ((State.wr64_chg (Within.self _) (Chg.refl s)).same .lin (by decide)).symm
@[simp] theorem State.wr64_cfl (s : State) (a : Nat) (v : Nat) : (s.wr64 a v).cfl = s.cfl := ((State.wr64_chg (Within.self _) (Chg.refl s)).same .cfl (by decide)).symm
@[simp] theorem State.wr64_vlt (s : State) (a : Nat) (v : Nat) : (s.wr64 a v).vlt = s.vlt := ((State.wr64_chg (Within.self _) (Chg.refl s)).same .vlt (by decide)).symm
@[simp] theorem State.wr64_auth (s : State) (a : Nat) (v : Nat) : (s.wr64 a v).auth = s.auth := ((State.wr64_chg (Within.self _) (Chg.refl s)).same .auth (by decide)).symm
@[simp] theorem State.wr64_twn (s : State) (a : Nat) (v : Nat) : (s.wr64 a v).twn = s.twn := ((State.wr64_chg (Within.self _) (Chg.refl s)).same .twn (by decide)).symm
@[simp] theorem State.wr64_tim (s : State) (a : Nat) (v : Nat) : (s.wr64 a v).tim = s.tim := ((State.wr64_chg (Within.self _) (Chg.refl s)).same .tim (by decide)).symm
@[simp] theorem State.wr64_pwr (s : State) (a : Nat) (v : Nat) : (s.wr64 a v).pwr = s.pwr := ((State.wr64_chg (Within.self _) (Chg.refl s)).same .pwr (by decide)).symm
@[simp] theorem State.wr64_mgs (s : State) (a : Nat) (v : Nat) : (s.wr64 a v).mgs = s.mgs := ((State.wr64_chg (Within.self _) (Chg.refl s)).same .mgs (by decide)).symm
@[simp] theorem State.wr64_svc (s : State) (a : Nat) (v : Nat) : (s.wr64 a v).svc = s.svc := ((State.wr64_chg (Within.self _) (Chg.refl s)).same .svc (by decide)).symm
@[simp] theorem State.wr64_inj (s : State) (a : Nat) (v : Nat) : (s.wr64 a v).inj = s.inj := ((State.wr64_chg (Within.self _) (Chg.refl s)).same .inj (by decide)).symm
@[simp] theorem State.wr64_out (s : State) (a : Nat) (v : Nat) : (s.wr64 a v).out = s.out := ((State.wr64_chg (Within.self _) (Chg.refl s)).same .out (by decide)).symm
@[simp] theorem State.wr64_free (s : State) (a : Nat) (v : Nat) : (s.wr64 a v).free = s.free := ((State.wr64_chg (Within.self _) (Chg.refl s)).same .free (by decide)).symm
@[simp] theorem State.wr64_pending (s : State) (a : Nat) (v : Nat) : (s.wr64 a v).pending = s.pending := ((State.wr64_chg (Within.self _) (Chg.refl s)).same .pending (by decide)).symm

/-! `evt` writes regs at most. -/

@[simp] theorem State.evt_slots (s : State) (a : Nat) : (s.evt a).slots = s.slots := ((State.evt_chg (Within.self _) (Chg.refl s)).same .slots (by decide)).symm
@[simp] theorem State.evt_fences (s : State) (a : Nat) : (s.evt a).fences = s.fences := ((State.evt_chg (Within.self _) (Chg.refl s)).same .fences (by decide)).symm
@[simp] theorem State.evt_holds (s : State) (a : Nat) : (s.evt a).holds = s.holds := ((State.evt_chg (Within.self _) (Chg.refl s)).same .holds (by decide)).symm
@[simp] theorem State.evt_snaps (s : State) (a : Nat) : (s.evt a).snaps = s.snaps := ((State.evt_chg (Within.self _) (Chg.refl s)).same .snaps (by decide)).symm
@[simp] theorem State.evt_tbl (s : State) (a : Nat) : (s.evt a).tbl = s.tbl := ((State.evt_chg (Within.self _) (Chg.refl s)).same .tbl (by decide)).symm
@[simp] theorem State.evt_stage (s : State) (a : Nat) : (s.evt a).stage = s.stage := ((State.evt_chg (Within.self _) (Chg.refl s)).same .stage (by decide)).symm
@[simp] theorem State.evt_commitQ (s : State) (a : Nat) : (s.evt a).commitQ = s.commitQ := ((State.evt_chg (Within.self _) (Chg.refl s)).same .commitQ (by decide)).symm
@[simp] theorem State.evt_commits (s : State) (a : Nat) : (s.evt a).commits = s.commits := ((State.evt_chg (Within.self _) (Chg.refl s)).same .commits (by decide)).symm
@[simp] theorem State.evt_frcNs (s : State) (a : Nat) : (s.evt a).frcNs = s.frcNs := ((State.evt_chg (Within.self _) (Chg.refl s)).same .frcNs (by decide)).symm
@[simp] theorem State.evt_frcFrac (s : State) (a : Nat) : (s.evt a).frcFrac = s.frcFrac := ((State.evt_chg (Within.self _) (Chg.refl s)).same .frcFrac (by decide)).symm
@[simp] theorem State.evt_msix (s : State) (a : Nat) : (s.evt a).msix = s.msix := ((State.evt_chg (Within.self _) (Chg.refl s)).same .msix (by decide)).symm
@[simp] theorem State.evt_resets (s : State) (a : Nat) : (s.evt a).resets = s.resets := ((State.evt_chg (Within.self _) (Chg.refl s)).same .resets (by decide)).symm
@[simp] theorem State.evt_lrn (s : State) (a : Nat) : (s.evt a).lrn = s.lrn := ((State.evt_chg (Within.self _) (Chg.refl s)).same .lrn (by decide)).symm
@[simp] theorem State.evt_bsn (s : State) (a : Nat) : (s.evt a).bsn = s.bsn := ((State.evt_chg (Within.self _) (Chg.refl s)).same .bsn (by decide)).symm
@[simp] theorem State.evt_meters (s : State) (a : Nat) : (s.evt a).meters = s.meters := ((State.evt_chg (Within.self _) (Chg.refl s)).same .meters (by decide)).symm
@[simp] theorem State.evt_egr (s : State) (a : Nat) : (s.evt a).egr = s.egr := ((State.evt_chg (Within.self _) (Chg.refl s)).same .egr (by decide)).symm
@[simp] theorem State.evt_slu (s : State) (a : Nat) : (s.evt a).slu = s.slu := ((State.evt_chg (Within.self _) (Chg.refl s)).same .slu (by decide)).symm
@[simp] theorem State.evt_bud (s : State) (a : Nat) : (s.evt a).bud = s.bud := ((State.evt_chg (Within.self _) (Chg.refl s)).same .bud (by decide)).symm
@[simp] theorem State.evt_fre (s : State) (a : Nat) : (s.evt a).fre = s.fre := ((State.evt_chg (Within.self _) (Chg.refl s)).same .fre (by decide)).symm
@[simp] theorem State.evt_fgd (s : State) (a : Nat) : (s.evt a).fgd = s.fgd := ((State.evt_chg (Within.self _) (Chg.refl s)).same .fgd (by decide)).symm
@[simp] theorem State.evt_had (s : State) (a : Nat) : (s.evt a).had = s.had := ((State.evt_chg (Within.self _) (Chg.refl s)).same .had (by decide)).symm
@[simp] theorem State.evt_ept (s : State) (a : Nat) : (s.evt a).ept = s.ept := ((State.evt_chg (Within.self _) (Chg.refl s)).same .ept (by decide)).symm
@[simp] theorem State.evt_hif (s : State) (a : Nat) : (s.evt a).hif = s.hif := ((State.evt_chg (Within.self _) (Chg.refl s)).same .hif (by decide)).symm
@[simp] theorem State.evt_can (s : State) (a : Nat) : (s.evt a).can = s.can := ((State.evt_chg (Within.self _) (Chg.refl s)).same .can (by decide)).symm
@[simp] theorem State.evt_lin (s : State) (a : Nat) : (s.evt a).lin = s.lin := ((State.evt_chg (Within.self _) (Chg.refl s)).same .lin (by decide)).symm
@[simp] theorem State.evt_cfl (s : State) (a : Nat) : (s.evt a).cfl = s.cfl := ((State.evt_chg (Within.self _) (Chg.refl s)).same .cfl (by decide)).symm
@[simp] theorem State.evt_vlt (s : State) (a : Nat) : (s.evt a).vlt = s.vlt := ((State.evt_chg (Within.self _) (Chg.refl s)).same .vlt (by decide)).symm
@[simp] theorem State.evt_auth (s : State) (a : Nat) : (s.evt a).auth = s.auth := ((State.evt_chg (Within.self _) (Chg.refl s)).same .auth (by decide)).symm
@[simp] theorem State.evt_twn (s : State) (a : Nat) : (s.evt a).twn = s.twn := ((State.evt_chg (Within.self _) (Chg.refl s)).same .twn (by decide)).symm
@[simp] theorem State.evt_tim (s : State) (a : Nat) : (s.evt a).tim = s.tim := ((State.evt_chg (Within.self _) (Chg.refl s)).same .tim (by decide)).symm
@[simp] theorem State.evt_pwr (s : State) (a : Nat) : (s.evt a).pwr = s.pwr := ((State.evt_chg (Within.self _) (Chg.refl s)).same .pwr (by decide)).symm
@[simp] theorem State.evt_mgs (s : State) (a : Nat) : (s.evt a).mgs = s.mgs := ((State.evt_chg (Within.self _) (Chg.refl s)).same .mgs (by decide)).symm
@[simp] theorem State.evt_svc (s : State) (a : Nat) : (s.evt a).svc = s.svc := ((State.evt_chg (Within.self _) (Chg.refl s)).same .svc (by decide)).symm
@[simp] theorem State.evt_inj (s : State) (a : Nat) : (s.evt a).inj = s.inj := ((State.evt_chg (Within.self _) (Chg.refl s)).same .inj (by decide)).symm
@[simp] theorem State.evt_out (s : State) (a : Nat) : (s.evt a).out = s.out := ((State.evt_chg (Within.self _) (Chg.refl s)).same .out (by decide)).symm
@[simp] theorem State.evt_free (s : State) (a : Nat) : (s.evt a).free = s.free := ((State.evt_chg (Within.self _) (Chg.refl s)).same .free (by decide)).symm
@[simp] theorem State.evt_pending (s : State) (a : Nat) : (s.evt a).pending = s.pending := ((State.evt_chg (Within.self _) (Chg.refl s)).same .pending (by decide)).symm

/-! `stat` writes regs at most. -/

@[simp] theorem State.stat_slots (s : State) (a : Nat) (n : Nat) : (s.stat a n).slots = s.slots := ((State.stat_chg (Within.self _) (Chg.refl s)).same .slots (by decide)).symm
@[simp] theorem State.stat_fences (s : State) (a : Nat) (n : Nat) : (s.stat a n).fences = s.fences := ((State.stat_chg (Within.self _) (Chg.refl s)).same .fences (by decide)).symm
@[simp] theorem State.stat_holds (s : State) (a : Nat) (n : Nat) : (s.stat a n).holds = s.holds := ((State.stat_chg (Within.self _) (Chg.refl s)).same .holds (by decide)).symm
@[simp] theorem State.stat_snaps (s : State) (a : Nat) (n : Nat) : (s.stat a n).snaps = s.snaps := ((State.stat_chg (Within.self _) (Chg.refl s)).same .snaps (by decide)).symm
@[simp] theorem State.stat_tbl (s : State) (a : Nat) (n : Nat) : (s.stat a n).tbl = s.tbl := ((State.stat_chg (Within.self _) (Chg.refl s)).same .tbl (by decide)).symm
@[simp] theorem State.stat_stage (s : State) (a : Nat) (n : Nat) : (s.stat a n).stage = s.stage := ((State.stat_chg (Within.self _) (Chg.refl s)).same .stage (by decide)).symm
@[simp] theorem State.stat_commitQ (s : State) (a : Nat) (n : Nat) : (s.stat a n).commitQ = s.commitQ := ((State.stat_chg (Within.self _) (Chg.refl s)).same .commitQ (by decide)).symm
@[simp] theorem State.stat_commits (s : State) (a : Nat) (n : Nat) : (s.stat a n).commits = s.commits := ((State.stat_chg (Within.self _) (Chg.refl s)).same .commits (by decide)).symm
@[simp] theorem State.stat_frcNs (s : State) (a : Nat) (n : Nat) : (s.stat a n).frcNs = s.frcNs := ((State.stat_chg (Within.self _) (Chg.refl s)).same .frcNs (by decide)).symm
@[simp] theorem State.stat_frcFrac (s : State) (a : Nat) (n : Nat) : (s.stat a n).frcFrac = s.frcFrac := ((State.stat_chg (Within.self _) (Chg.refl s)).same .frcFrac (by decide)).symm
@[simp] theorem State.stat_msix (s : State) (a : Nat) (n : Nat) : (s.stat a n).msix = s.msix := ((State.stat_chg (Within.self _) (Chg.refl s)).same .msix (by decide)).symm
@[simp] theorem State.stat_resets (s : State) (a : Nat) (n : Nat) : (s.stat a n).resets = s.resets := ((State.stat_chg (Within.self _) (Chg.refl s)).same .resets (by decide)).symm
@[simp] theorem State.stat_lrn (s : State) (a : Nat) (n : Nat) : (s.stat a n).lrn = s.lrn := ((State.stat_chg (Within.self _) (Chg.refl s)).same .lrn (by decide)).symm
@[simp] theorem State.stat_bsn (s : State) (a : Nat) (n : Nat) : (s.stat a n).bsn = s.bsn := ((State.stat_chg (Within.self _) (Chg.refl s)).same .bsn (by decide)).symm
@[simp] theorem State.stat_meters (s : State) (a : Nat) (n : Nat) : (s.stat a n).meters = s.meters := ((State.stat_chg (Within.self _) (Chg.refl s)).same .meters (by decide)).symm
@[simp] theorem State.stat_egr (s : State) (a : Nat) (n : Nat) : (s.stat a n).egr = s.egr := ((State.stat_chg (Within.self _) (Chg.refl s)).same .egr (by decide)).symm
@[simp] theorem State.stat_slu (s : State) (a : Nat) (n : Nat) : (s.stat a n).slu = s.slu := ((State.stat_chg (Within.self _) (Chg.refl s)).same .slu (by decide)).symm
@[simp] theorem State.stat_bud (s : State) (a : Nat) (n : Nat) : (s.stat a n).bud = s.bud := ((State.stat_chg (Within.self _) (Chg.refl s)).same .bud (by decide)).symm
@[simp] theorem State.stat_fre (s : State) (a : Nat) (n : Nat) : (s.stat a n).fre = s.fre := ((State.stat_chg (Within.self _) (Chg.refl s)).same .fre (by decide)).symm
@[simp] theorem State.stat_fgd (s : State) (a : Nat) (n : Nat) : (s.stat a n).fgd = s.fgd := ((State.stat_chg (Within.self _) (Chg.refl s)).same .fgd (by decide)).symm
@[simp] theorem State.stat_had (s : State) (a : Nat) (n : Nat) : (s.stat a n).had = s.had := ((State.stat_chg (Within.self _) (Chg.refl s)).same .had (by decide)).symm
@[simp] theorem State.stat_ept (s : State) (a : Nat) (n : Nat) : (s.stat a n).ept = s.ept := ((State.stat_chg (Within.self _) (Chg.refl s)).same .ept (by decide)).symm
@[simp] theorem State.stat_hif (s : State) (a : Nat) (n : Nat) : (s.stat a n).hif = s.hif := ((State.stat_chg (Within.self _) (Chg.refl s)).same .hif (by decide)).symm
@[simp] theorem State.stat_can (s : State) (a : Nat) (n : Nat) : (s.stat a n).can = s.can := ((State.stat_chg (Within.self _) (Chg.refl s)).same .can (by decide)).symm
@[simp] theorem State.stat_lin (s : State) (a : Nat) (n : Nat) : (s.stat a n).lin = s.lin := ((State.stat_chg (Within.self _) (Chg.refl s)).same .lin (by decide)).symm
@[simp] theorem State.stat_cfl (s : State) (a : Nat) (n : Nat) : (s.stat a n).cfl = s.cfl := ((State.stat_chg (Within.self _) (Chg.refl s)).same .cfl (by decide)).symm
@[simp] theorem State.stat_vlt (s : State) (a : Nat) (n : Nat) : (s.stat a n).vlt = s.vlt := ((State.stat_chg (Within.self _) (Chg.refl s)).same .vlt (by decide)).symm
@[simp] theorem State.stat_auth (s : State) (a : Nat) (n : Nat) : (s.stat a n).auth = s.auth := ((State.stat_chg (Within.self _) (Chg.refl s)).same .auth (by decide)).symm
@[simp] theorem State.stat_twn (s : State) (a : Nat) (n : Nat) : (s.stat a n).twn = s.twn := ((State.stat_chg (Within.self _) (Chg.refl s)).same .twn (by decide)).symm
@[simp] theorem State.stat_tim (s : State) (a : Nat) (n : Nat) : (s.stat a n).tim = s.tim := ((State.stat_chg (Within.self _) (Chg.refl s)).same .tim (by decide)).symm
@[simp] theorem State.stat_pwr (s : State) (a : Nat) (n : Nat) : (s.stat a n).pwr = s.pwr := ((State.stat_chg (Within.self _) (Chg.refl s)).same .pwr (by decide)).symm
@[simp] theorem State.stat_mgs (s : State) (a : Nat) (n : Nat) : (s.stat a n).mgs = s.mgs := ((State.stat_chg (Within.self _) (Chg.refl s)).same .mgs (by decide)).symm
@[simp] theorem State.stat_svc (s : State) (a : Nat) (n : Nat) : (s.stat a n).svc = s.svc := ((State.stat_chg (Within.self _) (Chg.refl s)).same .svc (by decide)).symm
@[simp] theorem State.stat_inj (s : State) (a : Nat) (n : Nat) : (s.stat a n).inj = s.inj := ((State.stat_chg (Within.self _) (Chg.refl s)).same .inj (by decide)).symm
@[simp] theorem State.stat_out (s : State) (a : Nat) (n : Nat) : (s.stat a n).out = s.out := ((State.stat_chg (Within.self _) (Chg.refl s)).same .out (by decide)).symm
@[simp] theorem State.stat_free (s : State) (a : Nat) (n : Nat) : (s.stat a n).free = s.free := ((State.stat_chg (Within.self _) (Chg.refl s)).same .free (by decide)).symm
@[simp] theorem State.stat_pending (s : State) (a : Nat) (n : Nat) : (s.stat a n).pending = s.pending := ((State.stat_chg (Within.self _) (Chg.refl s)).same .pending (by decide)).symm

/-! `msixSend` writes msix, out at most. -/

@[simp] theorem State.msixSend_regs (s : State) (v : Nat) : (s.msixSend v).regs = s.regs := ((State.msixSend_chg (Within.self _) (Chg.refl s)).same .regs (by decide)).symm
@[simp] theorem State.msixSend_slots (s : State) (v : Nat) : (s.msixSend v).slots = s.slots := ((State.msixSend_chg (Within.self _) (Chg.refl s)).same .slots (by decide)).symm
@[simp] theorem State.msixSend_fences (s : State) (v : Nat) : (s.msixSend v).fences = s.fences := ((State.msixSend_chg (Within.self _) (Chg.refl s)).same .fences (by decide)).symm
@[simp] theorem State.msixSend_holds (s : State) (v : Nat) : (s.msixSend v).holds = s.holds := ((State.msixSend_chg (Within.self _) (Chg.refl s)).same .holds (by decide)).symm
@[simp] theorem State.msixSend_snaps (s : State) (v : Nat) : (s.msixSend v).snaps = s.snaps := ((State.msixSend_chg (Within.self _) (Chg.refl s)).same .snaps (by decide)).symm
@[simp] theorem State.msixSend_tbl (s : State) (v : Nat) : (s.msixSend v).tbl = s.tbl := ((State.msixSend_chg (Within.self _) (Chg.refl s)).same .tbl (by decide)).symm
@[simp] theorem State.msixSend_stage (s : State) (v : Nat) : (s.msixSend v).stage = s.stage := ((State.msixSend_chg (Within.self _) (Chg.refl s)).same .stage (by decide)).symm
@[simp] theorem State.msixSend_commitQ (s : State) (v : Nat) : (s.msixSend v).commitQ = s.commitQ := ((State.msixSend_chg (Within.self _) (Chg.refl s)).same .commitQ (by decide)).symm
@[simp] theorem State.msixSend_commits (s : State) (v : Nat) : (s.msixSend v).commits = s.commits := ((State.msixSend_chg (Within.self _) (Chg.refl s)).same .commits (by decide)).symm
@[simp] theorem State.msixSend_frcNs (s : State) (v : Nat) : (s.msixSend v).frcNs = s.frcNs := ((State.msixSend_chg (Within.self _) (Chg.refl s)).same .frcNs (by decide)).symm
@[simp] theorem State.msixSend_frcFrac (s : State) (v : Nat) : (s.msixSend v).frcFrac = s.frcFrac := ((State.msixSend_chg (Within.self _) (Chg.refl s)).same .frcFrac (by decide)).symm
@[simp] theorem State.msixSend_resets (s : State) (v : Nat) : (s.msixSend v).resets = s.resets := ((State.msixSend_chg (Within.self _) (Chg.refl s)).same .resets (by decide)).symm
@[simp] theorem State.msixSend_lrn (s : State) (v : Nat) : (s.msixSend v).lrn = s.lrn := ((State.msixSend_chg (Within.self _) (Chg.refl s)).same .lrn (by decide)).symm
@[simp] theorem State.msixSend_bsn (s : State) (v : Nat) : (s.msixSend v).bsn = s.bsn := ((State.msixSend_chg (Within.self _) (Chg.refl s)).same .bsn (by decide)).symm
@[simp] theorem State.msixSend_meters (s : State) (v : Nat) : (s.msixSend v).meters = s.meters := ((State.msixSend_chg (Within.self _) (Chg.refl s)).same .meters (by decide)).symm
@[simp] theorem State.msixSend_egr (s : State) (v : Nat) : (s.msixSend v).egr = s.egr := ((State.msixSend_chg (Within.self _) (Chg.refl s)).same .egr (by decide)).symm
@[simp] theorem State.msixSend_slu (s : State) (v : Nat) : (s.msixSend v).slu = s.slu := ((State.msixSend_chg (Within.self _) (Chg.refl s)).same .slu (by decide)).symm
@[simp] theorem State.msixSend_bud (s : State) (v : Nat) : (s.msixSend v).bud = s.bud := ((State.msixSend_chg (Within.self _) (Chg.refl s)).same .bud (by decide)).symm
@[simp] theorem State.msixSend_fre (s : State) (v : Nat) : (s.msixSend v).fre = s.fre := ((State.msixSend_chg (Within.self _) (Chg.refl s)).same .fre (by decide)).symm
@[simp] theorem State.msixSend_fgd (s : State) (v : Nat) : (s.msixSend v).fgd = s.fgd := ((State.msixSend_chg (Within.self _) (Chg.refl s)).same .fgd (by decide)).symm
@[simp] theorem State.msixSend_had (s : State) (v : Nat) : (s.msixSend v).had = s.had := ((State.msixSend_chg (Within.self _) (Chg.refl s)).same .had (by decide)).symm
@[simp] theorem State.msixSend_ept (s : State) (v : Nat) : (s.msixSend v).ept = s.ept := ((State.msixSend_chg (Within.self _) (Chg.refl s)).same .ept (by decide)).symm
@[simp] theorem State.msixSend_hif (s : State) (v : Nat) : (s.msixSend v).hif = s.hif := ((State.msixSend_chg (Within.self _) (Chg.refl s)).same .hif (by decide)).symm
@[simp] theorem State.msixSend_can (s : State) (v : Nat) : (s.msixSend v).can = s.can := ((State.msixSend_chg (Within.self _) (Chg.refl s)).same .can (by decide)).symm
@[simp] theorem State.msixSend_lin (s : State) (v : Nat) : (s.msixSend v).lin = s.lin := ((State.msixSend_chg (Within.self _) (Chg.refl s)).same .lin (by decide)).symm
@[simp] theorem State.msixSend_cfl (s : State) (v : Nat) : (s.msixSend v).cfl = s.cfl := ((State.msixSend_chg (Within.self _) (Chg.refl s)).same .cfl (by decide)).symm
@[simp] theorem State.msixSend_vlt (s : State) (v : Nat) : (s.msixSend v).vlt = s.vlt := ((State.msixSend_chg (Within.self _) (Chg.refl s)).same .vlt (by decide)).symm
@[simp] theorem State.msixSend_auth (s : State) (v : Nat) : (s.msixSend v).auth = s.auth := ((State.msixSend_chg (Within.self _) (Chg.refl s)).same .auth (by decide)).symm
@[simp] theorem State.msixSend_twn (s : State) (v : Nat) : (s.msixSend v).twn = s.twn := ((State.msixSend_chg (Within.self _) (Chg.refl s)).same .twn (by decide)).symm
@[simp] theorem State.msixSend_tim (s : State) (v : Nat) : (s.msixSend v).tim = s.tim := ((State.msixSend_chg (Within.self _) (Chg.refl s)).same .tim (by decide)).symm
@[simp] theorem State.msixSend_pwr (s : State) (v : Nat) : (s.msixSend v).pwr = s.pwr := ((State.msixSend_chg (Within.self _) (Chg.refl s)).same .pwr (by decide)).symm
@[simp] theorem State.msixSend_mgs (s : State) (v : Nat) : (s.msixSend v).mgs = s.mgs := ((State.msixSend_chg (Within.self _) (Chg.refl s)).same .mgs (by decide)).symm
@[simp] theorem State.msixSend_svc (s : State) (v : Nat) : (s.msixSend v).svc = s.svc := ((State.msixSend_chg (Within.self _) (Chg.refl s)).same .svc (by decide)).symm
@[simp] theorem State.msixSend_inj (s : State) (v : Nat) : (s.msixSend v).inj = s.inj := ((State.msixSend_chg (Within.self _) (Chg.refl s)).same .inj (by decide)).symm
@[simp] theorem State.msixSend_free (s : State) (v : Nat) : (s.msixSend v).free = s.free := ((State.msixSend_chg (Within.self _) (Chg.refl s)).same .free (by decide)).symm
@[simp] theorem State.msixSend_pending (s : State) (v : Nat) : (s.msixSend v).pending = s.pending := ((State.msixSend_chg (Within.self _) (Chg.refl s)).same .pending (by decide)).symm

/-! `msixEval` writes msix, out at most. -/

@[simp] theorem State.msixEval_regs (s : State) (again : Bool) : (s.msixEval again).regs = s.regs := ((State.msixEval_chg (Within.self _) (Chg.refl s)).same .regs (by decide)).symm
@[simp] theorem State.msixEval_slots (s : State) (again : Bool) : (s.msixEval again).slots = s.slots := ((State.msixEval_chg (Within.self _) (Chg.refl s)).same .slots (by decide)).symm
@[simp] theorem State.msixEval_fences (s : State) (again : Bool) : (s.msixEval again).fences = s.fences := ((State.msixEval_chg (Within.self _) (Chg.refl s)).same .fences (by decide)).symm
@[simp] theorem State.msixEval_holds (s : State) (again : Bool) : (s.msixEval again).holds = s.holds := ((State.msixEval_chg (Within.self _) (Chg.refl s)).same .holds (by decide)).symm
@[simp] theorem State.msixEval_snaps (s : State) (again : Bool) : (s.msixEval again).snaps = s.snaps := ((State.msixEval_chg (Within.self _) (Chg.refl s)).same .snaps (by decide)).symm
@[simp] theorem State.msixEval_tbl (s : State) (again : Bool) : (s.msixEval again).tbl = s.tbl := ((State.msixEval_chg (Within.self _) (Chg.refl s)).same .tbl (by decide)).symm
@[simp] theorem State.msixEval_stage (s : State) (again : Bool) : (s.msixEval again).stage = s.stage := ((State.msixEval_chg (Within.self _) (Chg.refl s)).same .stage (by decide)).symm
@[simp] theorem State.msixEval_commitQ (s : State) (again : Bool) : (s.msixEval again).commitQ = s.commitQ := ((State.msixEval_chg (Within.self _) (Chg.refl s)).same .commitQ (by decide)).symm
@[simp] theorem State.msixEval_commits (s : State) (again : Bool) : (s.msixEval again).commits = s.commits := ((State.msixEval_chg (Within.self _) (Chg.refl s)).same .commits (by decide)).symm
@[simp] theorem State.msixEval_frcNs (s : State) (again : Bool) : (s.msixEval again).frcNs = s.frcNs := ((State.msixEval_chg (Within.self _) (Chg.refl s)).same .frcNs (by decide)).symm
@[simp] theorem State.msixEval_frcFrac (s : State) (again : Bool) : (s.msixEval again).frcFrac = s.frcFrac := ((State.msixEval_chg (Within.self _) (Chg.refl s)).same .frcFrac (by decide)).symm
@[simp] theorem State.msixEval_resets (s : State) (again : Bool) : (s.msixEval again).resets = s.resets := ((State.msixEval_chg (Within.self _) (Chg.refl s)).same .resets (by decide)).symm
@[simp] theorem State.msixEval_lrn (s : State) (again : Bool) : (s.msixEval again).lrn = s.lrn := ((State.msixEval_chg (Within.self _) (Chg.refl s)).same .lrn (by decide)).symm
@[simp] theorem State.msixEval_bsn (s : State) (again : Bool) : (s.msixEval again).bsn = s.bsn := ((State.msixEval_chg (Within.self _) (Chg.refl s)).same .bsn (by decide)).symm
@[simp] theorem State.msixEval_meters (s : State) (again : Bool) : (s.msixEval again).meters = s.meters := ((State.msixEval_chg (Within.self _) (Chg.refl s)).same .meters (by decide)).symm
@[simp] theorem State.msixEval_egr (s : State) (again : Bool) : (s.msixEval again).egr = s.egr := ((State.msixEval_chg (Within.self _) (Chg.refl s)).same .egr (by decide)).symm
@[simp] theorem State.msixEval_slu (s : State) (again : Bool) : (s.msixEval again).slu = s.slu := ((State.msixEval_chg (Within.self _) (Chg.refl s)).same .slu (by decide)).symm
@[simp] theorem State.msixEval_bud (s : State) (again : Bool) : (s.msixEval again).bud = s.bud := ((State.msixEval_chg (Within.self _) (Chg.refl s)).same .bud (by decide)).symm
@[simp] theorem State.msixEval_fre (s : State) (again : Bool) : (s.msixEval again).fre = s.fre := ((State.msixEval_chg (Within.self _) (Chg.refl s)).same .fre (by decide)).symm
@[simp] theorem State.msixEval_fgd (s : State) (again : Bool) : (s.msixEval again).fgd = s.fgd := ((State.msixEval_chg (Within.self _) (Chg.refl s)).same .fgd (by decide)).symm
@[simp] theorem State.msixEval_had (s : State) (again : Bool) : (s.msixEval again).had = s.had := ((State.msixEval_chg (Within.self _) (Chg.refl s)).same .had (by decide)).symm
@[simp] theorem State.msixEval_ept (s : State) (again : Bool) : (s.msixEval again).ept = s.ept := ((State.msixEval_chg (Within.self _) (Chg.refl s)).same .ept (by decide)).symm
@[simp] theorem State.msixEval_hif (s : State) (again : Bool) : (s.msixEval again).hif = s.hif := ((State.msixEval_chg (Within.self _) (Chg.refl s)).same .hif (by decide)).symm
@[simp] theorem State.msixEval_can (s : State) (again : Bool) : (s.msixEval again).can = s.can := ((State.msixEval_chg (Within.self _) (Chg.refl s)).same .can (by decide)).symm
@[simp] theorem State.msixEval_lin (s : State) (again : Bool) : (s.msixEval again).lin = s.lin := ((State.msixEval_chg (Within.self _) (Chg.refl s)).same .lin (by decide)).symm
@[simp] theorem State.msixEval_cfl (s : State) (again : Bool) : (s.msixEval again).cfl = s.cfl := ((State.msixEval_chg (Within.self _) (Chg.refl s)).same .cfl (by decide)).symm
@[simp] theorem State.msixEval_vlt (s : State) (again : Bool) : (s.msixEval again).vlt = s.vlt := ((State.msixEval_chg (Within.self _) (Chg.refl s)).same .vlt (by decide)).symm
@[simp] theorem State.msixEval_auth (s : State) (again : Bool) : (s.msixEval again).auth = s.auth := ((State.msixEval_chg (Within.self _) (Chg.refl s)).same .auth (by decide)).symm
@[simp] theorem State.msixEval_twn (s : State) (again : Bool) : (s.msixEval again).twn = s.twn := ((State.msixEval_chg (Within.self _) (Chg.refl s)).same .twn (by decide)).symm
@[simp] theorem State.msixEval_tim (s : State) (again : Bool) : (s.msixEval again).tim = s.tim := ((State.msixEval_chg (Within.self _) (Chg.refl s)).same .tim (by decide)).symm
@[simp] theorem State.msixEval_pwr (s : State) (again : Bool) : (s.msixEval again).pwr = s.pwr := ((State.msixEval_chg (Within.self _) (Chg.refl s)).same .pwr (by decide)).symm
@[simp] theorem State.msixEval_mgs (s : State) (again : Bool) : (s.msixEval again).mgs = s.mgs := ((State.msixEval_chg (Within.self _) (Chg.refl s)).same .mgs (by decide)).symm
@[simp] theorem State.msixEval_svc (s : State) (again : Bool) : (s.msixEval again).svc = s.svc := ((State.msixEval_chg (Within.self _) (Chg.refl s)).same .svc (by decide)).symm
@[simp] theorem State.msixEval_inj (s : State) (again : Bool) : (s.msixEval again).inj = s.inj := ((State.msixEval_chg (Within.self _) (Chg.refl s)).same .inj (by decide)).symm
@[simp] theorem State.msixEval_free (s : State) (again : Bool) : (s.msixEval again).free = s.free := ((State.msixEval_chg (Within.self _) (Chg.refl s)).same .free (by decide)).symm
@[simp] theorem State.msixEval_pending (s : State) (again : Bool) : (s.msixEval again).pending = s.pending := ((State.msixEval_chg (Within.self _) (Chg.refl s)).same .pending (by decide)).symm

/-! `raiseAt` writes regs, msix, out at most. -/

@[simp] theorem State.raiseAt_slots (s : State) (base : Nat) (i : Nat) : (s.raiseAt base i).slots = s.slots := ((State.raiseAt_chg (Within.self _) (Chg.refl s)).same .slots (by decide)).symm
@[simp] theorem State.raiseAt_fences (s : State) (base : Nat) (i : Nat) : (s.raiseAt base i).fences = s.fences := ((State.raiseAt_chg (Within.self _) (Chg.refl s)).same .fences (by decide)).symm
@[simp] theorem State.raiseAt_holds (s : State) (base : Nat) (i : Nat) : (s.raiseAt base i).holds = s.holds := ((State.raiseAt_chg (Within.self _) (Chg.refl s)).same .holds (by decide)).symm
@[simp] theorem State.raiseAt_snaps (s : State) (base : Nat) (i : Nat) : (s.raiseAt base i).snaps = s.snaps := ((State.raiseAt_chg (Within.self _) (Chg.refl s)).same .snaps (by decide)).symm
@[simp] theorem State.raiseAt_tbl (s : State) (base : Nat) (i : Nat) : (s.raiseAt base i).tbl = s.tbl := ((State.raiseAt_chg (Within.self _) (Chg.refl s)).same .tbl (by decide)).symm
@[simp] theorem State.raiseAt_stage (s : State) (base : Nat) (i : Nat) : (s.raiseAt base i).stage = s.stage := ((State.raiseAt_chg (Within.self _) (Chg.refl s)).same .stage (by decide)).symm
@[simp] theorem State.raiseAt_commitQ (s : State) (base : Nat) (i : Nat) : (s.raiseAt base i).commitQ = s.commitQ := ((State.raiseAt_chg (Within.self _) (Chg.refl s)).same .commitQ (by decide)).symm
@[simp] theorem State.raiseAt_commits (s : State) (base : Nat) (i : Nat) : (s.raiseAt base i).commits = s.commits := ((State.raiseAt_chg (Within.self _) (Chg.refl s)).same .commits (by decide)).symm
@[simp] theorem State.raiseAt_frcNs (s : State) (base : Nat) (i : Nat) : (s.raiseAt base i).frcNs = s.frcNs := ((State.raiseAt_chg (Within.self _) (Chg.refl s)).same .frcNs (by decide)).symm
@[simp] theorem State.raiseAt_frcFrac (s : State) (base : Nat) (i : Nat) : (s.raiseAt base i).frcFrac = s.frcFrac := ((State.raiseAt_chg (Within.self _) (Chg.refl s)).same .frcFrac (by decide)).symm
@[simp] theorem State.raiseAt_resets (s : State) (base : Nat) (i : Nat) : (s.raiseAt base i).resets = s.resets := ((State.raiseAt_chg (Within.self _) (Chg.refl s)).same .resets (by decide)).symm
@[simp] theorem State.raiseAt_lrn (s : State) (base : Nat) (i : Nat) : (s.raiseAt base i).lrn = s.lrn := ((State.raiseAt_chg (Within.self _) (Chg.refl s)).same .lrn (by decide)).symm
@[simp] theorem State.raiseAt_bsn (s : State) (base : Nat) (i : Nat) : (s.raiseAt base i).bsn = s.bsn := ((State.raiseAt_chg (Within.self _) (Chg.refl s)).same .bsn (by decide)).symm
@[simp] theorem State.raiseAt_meters (s : State) (base : Nat) (i : Nat) : (s.raiseAt base i).meters = s.meters := ((State.raiseAt_chg (Within.self _) (Chg.refl s)).same .meters (by decide)).symm
@[simp] theorem State.raiseAt_egr (s : State) (base : Nat) (i : Nat) : (s.raiseAt base i).egr = s.egr := ((State.raiseAt_chg (Within.self _) (Chg.refl s)).same .egr (by decide)).symm
@[simp] theorem State.raiseAt_slu (s : State) (base : Nat) (i : Nat) : (s.raiseAt base i).slu = s.slu := ((State.raiseAt_chg (Within.self _) (Chg.refl s)).same .slu (by decide)).symm
@[simp] theorem State.raiseAt_bud (s : State) (base : Nat) (i : Nat) : (s.raiseAt base i).bud = s.bud := ((State.raiseAt_chg (Within.self _) (Chg.refl s)).same .bud (by decide)).symm
@[simp] theorem State.raiseAt_fre (s : State) (base : Nat) (i : Nat) : (s.raiseAt base i).fre = s.fre := ((State.raiseAt_chg (Within.self _) (Chg.refl s)).same .fre (by decide)).symm
@[simp] theorem State.raiseAt_fgd (s : State) (base : Nat) (i : Nat) : (s.raiseAt base i).fgd = s.fgd := ((State.raiseAt_chg (Within.self _) (Chg.refl s)).same .fgd (by decide)).symm
@[simp] theorem State.raiseAt_had (s : State) (base : Nat) (i : Nat) : (s.raiseAt base i).had = s.had := ((State.raiseAt_chg (Within.self _) (Chg.refl s)).same .had (by decide)).symm
@[simp] theorem State.raiseAt_ept (s : State) (base : Nat) (i : Nat) : (s.raiseAt base i).ept = s.ept := ((State.raiseAt_chg (Within.self _) (Chg.refl s)).same .ept (by decide)).symm
@[simp] theorem State.raiseAt_hif (s : State) (base : Nat) (i : Nat) : (s.raiseAt base i).hif = s.hif := ((State.raiseAt_chg (Within.self _) (Chg.refl s)).same .hif (by decide)).symm
@[simp] theorem State.raiseAt_can (s : State) (base : Nat) (i : Nat) : (s.raiseAt base i).can = s.can := ((State.raiseAt_chg (Within.self _) (Chg.refl s)).same .can (by decide)).symm
@[simp] theorem State.raiseAt_lin (s : State) (base : Nat) (i : Nat) : (s.raiseAt base i).lin = s.lin := ((State.raiseAt_chg (Within.self _) (Chg.refl s)).same .lin (by decide)).symm
@[simp] theorem State.raiseAt_cfl (s : State) (base : Nat) (i : Nat) : (s.raiseAt base i).cfl = s.cfl := ((State.raiseAt_chg (Within.self _) (Chg.refl s)).same .cfl (by decide)).symm
@[simp] theorem State.raiseAt_vlt (s : State) (base : Nat) (i : Nat) : (s.raiseAt base i).vlt = s.vlt := ((State.raiseAt_chg (Within.self _) (Chg.refl s)).same .vlt (by decide)).symm
@[simp] theorem State.raiseAt_auth (s : State) (base : Nat) (i : Nat) : (s.raiseAt base i).auth = s.auth := ((State.raiseAt_chg (Within.self _) (Chg.refl s)).same .auth (by decide)).symm
@[simp] theorem State.raiseAt_twn (s : State) (base : Nat) (i : Nat) : (s.raiseAt base i).twn = s.twn := ((State.raiseAt_chg (Within.self _) (Chg.refl s)).same .twn (by decide)).symm
@[simp] theorem State.raiseAt_tim (s : State) (base : Nat) (i : Nat) : (s.raiseAt base i).tim = s.tim := ((State.raiseAt_chg (Within.self _) (Chg.refl s)).same .tim (by decide)).symm
@[simp] theorem State.raiseAt_pwr (s : State) (base : Nat) (i : Nat) : (s.raiseAt base i).pwr = s.pwr := ((State.raiseAt_chg (Within.self _) (Chg.refl s)).same .pwr (by decide)).symm
@[simp] theorem State.raiseAt_mgs (s : State) (base : Nat) (i : Nat) : (s.raiseAt base i).mgs = s.mgs := ((State.raiseAt_chg (Within.self _) (Chg.refl s)).same .mgs (by decide)).symm
@[simp] theorem State.raiseAt_svc (s : State) (base : Nat) (i : Nat) : (s.raiseAt base i).svc = s.svc := ((State.raiseAt_chg (Within.self _) (Chg.refl s)).same .svc (by decide)).symm
@[simp] theorem State.raiseAt_inj (s : State) (base : Nat) (i : Nat) : (s.raiseAt base i).inj = s.inj := ((State.raiseAt_chg (Within.self _) (Chg.refl s)).same .inj (by decide)).symm
@[simp] theorem State.raiseAt_free (s : State) (base : Nat) (i : Nat) : (s.raiseAt base i).free = s.free := ((State.raiseAt_chg (Within.self _) (Chg.refl s)).same .free (by decide)).symm
@[simp] theorem State.raiseAt_pending (s : State) (base : Nat) (i : Nat) : (s.raiseAt base i).pending = s.pending := ((State.raiseAt_chg (Within.self _) (Chg.refl s)).same .pending (by decide)).symm

/-! `raise` writes regs, msix, out at most. -/

@[simp] theorem State.raise_slots (s : State) (b : Blk) (inst : Nat) (i : Nat) : (s.raise b inst i).slots = s.slots := ((State.raise_chg (Within.self _) (Chg.refl s)).same .slots (by decide)).symm
@[simp] theorem State.raise_fences (s : State) (b : Blk) (inst : Nat) (i : Nat) : (s.raise b inst i).fences = s.fences := ((State.raise_chg (Within.self _) (Chg.refl s)).same .fences (by decide)).symm
@[simp] theorem State.raise_holds (s : State) (b : Blk) (inst : Nat) (i : Nat) : (s.raise b inst i).holds = s.holds := ((State.raise_chg (Within.self _) (Chg.refl s)).same .holds (by decide)).symm
@[simp] theorem State.raise_snaps (s : State) (b : Blk) (inst : Nat) (i : Nat) : (s.raise b inst i).snaps = s.snaps := ((State.raise_chg (Within.self _) (Chg.refl s)).same .snaps (by decide)).symm
@[simp] theorem State.raise_tbl (s : State) (b : Blk) (inst : Nat) (i : Nat) : (s.raise b inst i).tbl = s.tbl := ((State.raise_chg (Within.self _) (Chg.refl s)).same .tbl (by decide)).symm
@[simp] theorem State.raise_stage (s : State) (b : Blk) (inst : Nat) (i : Nat) : (s.raise b inst i).stage = s.stage := ((State.raise_chg (Within.self _) (Chg.refl s)).same .stage (by decide)).symm
@[simp] theorem State.raise_commitQ (s : State) (b : Blk) (inst : Nat) (i : Nat) : (s.raise b inst i).commitQ = s.commitQ := ((State.raise_chg (Within.self _) (Chg.refl s)).same .commitQ (by decide)).symm
@[simp] theorem State.raise_commits (s : State) (b : Blk) (inst : Nat) (i : Nat) : (s.raise b inst i).commits = s.commits := ((State.raise_chg (Within.self _) (Chg.refl s)).same .commits (by decide)).symm
@[simp] theorem State.raise_frcNs (s : State) (b : Blk) (inst : Nat) (i : Nat) : (s.raise b inst i).frcNs = s.frcNs := ((State.raise_chg (Within.self _) (Chg.refl s)).same .frcNs (by decide)).symm
@[simp] theorem State.raise_frcFrac (s : State) (b : Blk) (inst : Nat) (i : Nat) : (s.raise b inst i).frcFrac = s.frcFrac := ((State.raise_chg (Within.self _) (Chg.refl s)).same .frcFrac (by decide)).symm
@[simp] theorem State.raise_resets (s : State) (b : Blk) (inst : Nat) (i : Nat) : (s.raise b inst i).resets = s.resets := ((State.raise_chg (Within.self _) (Chg.refl s)).same .resets (by decide)).symm
@[simp] theorem State.raise_lrn (s : State) (b : Blk) (inst : Nat) (i : Nat) : (s.raise b inst i).lrn = s.lrn := ((State.raise_chg (Within.self _) (Chg.refl s)).same .lrn (by decide)).symm
@[simp] theorem State.raise_bsn (s : State) (b : Blk) (inst : Nat) (i : Nat) : (s.raise b inst i).bsn = s.bsn := ((State.raise_chg (Within.self _) (Chg.refl s)).same .bsn (by decide)).symm
@[simp] theorem State.raise_meters (s : State) (b : Blk) (inst : Nat) (i : Nat) : (s.raise b inst i).meters = s.meters := ((State.raise_chg (Within.self _) (Chg.refl s)).same .meters (by decide)).symm
@[simp] theorem State.raise_egr (s : State) (b : Blk) (inst : Nat) (i : Nat) : (s.raise b inst i).egr = s.egr := ((State.raise_chg (Within.self _) (Chg.refl s)).same .egr (by decide)).symm
@[simp] theorem State.raise_slu (s : State) (b : Blk) (inst : Nat) (i : Nat) : (s.raise b inst i).slu = s.slu := ((State.raise_chg (Within.self _) (Chg.refl s)).same .slu (by decide)).symm
@[simp] theorem State.raise_bud (s : State) (b : Blk) (inst : Nat) (i : Nat) : (s.raise b inst i).bud = s.bud := ((State.raise_chg (Within.self _) (Chg.refl s)).same .bud (by decide)).symm
@[simp] theorem State.raise_fre (s : State) (b : Blk) (inst : Nat) (i : Nat) : (s.raise b inst i).fre = s.fre := ((State.raise_chg (Within.self _) (Chg.refl s)).same .fre (by decide)).symm
@[simp] theorem State.raise_fgd (s : State) (b : Blk) (inst : Nat) (i : Nat) : (s.raise b inst i).fgd = s.fgd := ((State.raise_chg (Within.self _) (Chg.refl s)).same .fgd (by decide)).symm
@[simp] theorem State.raise_had (s : State) (b : Blk) (inst : Nat) (i : Nat) : (s.raise b inst i).had = s.had := ((State.raise_chg (Within.self _) (Chg.refl s)).same .had (by decide)).symm
@[simp] theorem State.raise_ept (s : State) (b : Blk) (inst : Nat) (i : Nat) : (s.raise b inst i).ept = s.ept := ((State.raise_chg (Within.self _) (Chg.refl s)).same .ept (by decide)).symm
@[simp] theorem State.raise_hif (s : State) (b : Blk) (inst : Nat) (i : Nat) : (s.raise b inst i).hif = s.hif := ((State.raise_chg (Within.self _) (Chg.refl s)).same .hif (by decide)).symm
@[simp] theorem State.raise_can (s : State) (b : Blk) (inst : Nat) (i : Nat) : (s.raise b inst i).can = s.can := ((State.raise_chg (Within.self _) (Chg.refl s)).same .can (by decide)).symm
@[simp] theorem State.raise_lin (s : State) (b : Blk) (inst : Nat) (i : Nat) : (s.raise b inst i).lin = s.lin := ((State.raise_chg (Within.self _) (Chg.refl s)).same .lin (by decide)).symm
@[simp] theorem State.raise_cfl (s : State) (b : Blk) (inst : Nat) (i : Nat) : (s.raise b inst i).cfl = s.cfl := ((State.raise_chg (Within.self _) (Chg.refl s)).same .cfl (by decide)).symm
@[simp] theorem State.raise_vlt (s : State) (b : Blk) (inst : Nat) (i : Nat) : (s.raise b inst i).vlt = s.vlt := ((State.raise_chg (Within.self _) (Chg.refl s)).same .vlt (by decide)).symm
@[simp] theorem State.raise_auth (s : State) (b : Blk) (inst : Nat) (i : Nat) : (s.raise b inst i).auth = s.auth := ((State.raise_chg (Within.self _) (Chg.refl s)).same .auth (by decide)).symm
@[simp] theorem State.raise_twn (s : State) (b : Blk) (inst : Nat) (i : Nat) : (s.raise b inst i).twn = s.twn := ((State.raise_chg (Within.self _) (Chg.refl s)).same .twn (by decide)).symm
@[simp] theorem State.raise_tim (s : State) (b : Blk) (inst : Nat) (i : Nat) : (s.raise b inst i).tim = s.tim := ((State.raise_chg (Within.self _) (Chg.refl s)).same .tim (by decide)).symm
@[simp] theorem State.raise_pwr (s : State) (b : Blk) (inst : Nat) (i : Nat) : (s.raise b inst i).pwr = s.pwr := ((State.raise_chg (Within.self _) (Chg.refl s)).same .pwr (by decide)).symm
@[simp] theorem State.raise_mgs (s : State) (b : Blk) (inst : Nat) (i : Nat) : (s.raise b inst i).mgs = s.mgs := ((State.raise_chg (Within.self _) (Chg.refl s)).same .mgs (by decide)).symm
@[simp] theorem State.raise_svc (s : State) (b : Blk) (inst : Nat) (i : Nat) : (s.raise b inst i).svc = s.svc := ((State.raise_chg (Within.self _) (Chg.refl s)).same .svc (by decide)).symm
@[simp] theorem State.raise_inj (s : State) (b : Blk) (inst : Nat) (i : Nat) : (s.raise b inst i).inj = s.inj := ((State.raise_chg (Within.self _) (Chg.refl s)).same .inj (by decide)).symm
@[simp] theorem State.raise_free (s : State) (b : Blk) (inst : Nat) (i : Nat) : (s.raise b inst i).free = s.free := ((State.raise_chg (Within.self _) (Chg.refl s)).same .free (by decide)).symm
@[simp] theorem State.raise_pending (s : State) (b : Blk) (inst : Nat) (i : Nat) : (s.raise b inst i).pending = s.pending := ((State.raise_chg (Within.self _) (Chg.refl s)).same .pending (by decide)).symm

/-! `logEvt` writes mgs at most. -/

@[simp] theorem State.logEvt_regs (s : State) (b : Blk) (inst : Nat) (i : Nat) (gap : Nat) (sec : Bool) (payload : List Byte) (sub : Nat) : (s.logEvt b inst i gap sec payload sub).regs = s.regs := ((State.logEvt_chg (Within.self _) (Chg.refl s)).same .regs (by decide)).symm
@[simp] theorem State.logEvt_slots (s : State) (b : Blk) (inst : Nat) (i : Nat) (gap : Nat) (sec : Bool) (payload : List Byte) (sub : Nat) : (s.logEvt b inst i gap sec payload sub).slots = s.slots := ((State.logEvt_chg (Within.self _) (Chg.refl s)).same .slots (by decide)).symm
@[simp] theorem State.logEvt_fences (s : State) (b : Blk) (inst : Nat) (i : Nat) (gap : Nat) (sec : Bool) (payload : List Byte) (sub : Nat) : (s.logEvt b inst i gap sec payload sub).fences = s.fences := ((State.logEvt_chg (Within.self _) (Chg.refl s)).same .fences (by decide)).symm
@[simp] theorem State.logEvt_holds (s : State) (b : Blk) (inst : Nat) (i : Nat) (gap : Nat) (sec : Bool) (payload : List Byte) (sub : Nat) : (s.logEvt b inst i gap sec payload sub).holds = s.holds := ((State.logEvt_chg (Within.self _) (Chg.refl s)).same .holds (by decide)).symm
@[simp] theorem State.logEvt_snaps (s : State) (b : Blk) (inst : Nat) (i : Nat) (gap : Nat) (sec : Bool) (payload : List Byte) (sub : Nat) : (s.logEvt b inst i gap sec payload sub).snaps = s.snaps := ((State.logEvt_chg (Within.self _) (Chg.refl s)).same .snaps (by decide)).symm
@[simp] theorem State.logEvt_tbl (s : State) (b : Blk) (inst : Nat) (i : Nat) (gap : Nat) (sec : Bool) (payload : List Byte) (sub : Nat) : (s.logEvt b inst i gap sec payload sub).tbl = s.tbl := ((State.logEvt_chg (Within.self _) (Chg.refl s)).same .tbl (by decide)).symm
@[simp] theorem State.logEvt_stage (s : State) (b : Blk) (inst : Nat) (i : Nat) (gap : Nat) (sec : Bool) (payload : List Byte) (sub : Nat) : (s.logEvt b inst i gap sec payload sub).stage = s.stage := ((State.logEvt_chg (Within.self _) (Chg.refl s)).same .stage (by decide)).symm
@[simp] theorem State.logEvt_commitQ (s : State) (b : Blk) (inst : Nat) (i : Nat) (gap : Nat) (sec : Bool) (payload : List Byte) (sub : Nat) : (s.logEvt b inst i gap sec payload sub).commitQ = s.commitQ := ((State.logEvt_chg (Within.self _) (Chg.refl s)).same .commitQ (by decide)).symm
@[simp] theorem State.logEvt_commits (s : State) (b : Blk) (inst : Nat) (i : Nat) (gap : Nat) (sec : Bool) (payload : List Byte) (sub : Nat) : (s.logEvt b inst i gap sec payload sub).commits = s.commits := ((State.logEvt_chg (Within.self _) (Chg.refl s)).same .commits (by decide)).symm
@[simp] theorem State.logEvt_frcNs (s : State) (b : Blk) (inst : Nat) (i : Nat) (gap : Nat) (sec : Bool) (payload : List Byte) (sub : Nat) : (s.logEvt b inst i gap sec payload sub).frcNs = s.frcNs := ((State.logEvt_chg (Within.self _) (Chg.refl s)).same .frcNs (by decide)).symm
@[simp] theorem State.logEvt_frcFrac (s : State) (b : Blk) (inst : Nat) (i : Nat) (gap : Nat) (sec : Bool) (payload : List Byte) (sub : Nat) : (s.logEvt b inst i gap sec payload sub).frcFrac = s.frcFrac := ((State.logEvt_chg (Within.self _) (Chg.refl s)).same .frcFrac (by decide)).symm
@[simp] theorem State.logEvt_msix (s : State) (b : Blk) (inst : Nat) (i : Nat) (gap : Nat) (sec : Bool) (payload : List Byte) (sub : Nat) : (s.logEvt b inst i gap sec payload sub).msix = s.msix := ((State.logEvt_chg (Within.self _) (Chg.refl s)).same .msix (by decide)).symm
@[simp] theorem State.logEvt_resets (s : State) (b : Blk) (inst : Nat) (i : Nat) (gap : Nat) (sec : Bool) (payload : List Byte) (sub : Nat) : (s.logEvt b inst i gap sec payload sub).resets = s.resets := ((State.logEvt_chg (Within.self _) (Chg.refl s)).same .resets (by decide)).symm
@[simp] theorem State.logEvt_lrn (s : State) (b : Blk) (inst : Nat) (i : Nat) (gap : Nat) (sec : Bool) (payload : List Byte) (sub : Nat) : (s.logEvt b inst i gap sec payload sub).lrn = s.lrn := ((State.logEvt_chg (Within.self _) (Chg.refl s)).same .lrn (by decide)).symm
@[simp] theorem State.logEvt_bsn (s : State) (b : Blk) (inst : Nat) (i : Nat) (gap : Nat) (sec : Bool) (payload : List Byte) (sub : Nat) : (s.logEvt b inst i gap sec payload sub).bsn = s.bsn := ((State.logEvt_chg (Within.self _) (Chg.refl s)).same .bsn (by decide)).symm
@[simp] theorem State.logEvt_meters (s : State) (b : Blk) (inst : Nat) (i : Nat) (gap : Nat) (sec : Bool) (payload : List Byte) (sub : Nat) : (s.logEvt b inst i gap sec payload sub).meters = s.meters := ((State.logEvt_chg (Within.self _) (Chg.refl s)).same .meters (by decide)).symm
@[simp] theorem State.logEvt_egr (s : State) (b : Blk) (inst : Nat) (i : Nat) (gap : Nat) (sec : Bool) (payload : List Byte) (sub : Nat) : (s.logEvt b inst i gap sec payload sub).egr = s.egr := ((State.logEvt_chg (Within.self _) (Chg.refl s)).same .egr (by decide)).symm
@[simp] theorem State.logEvt_slu (s : State) (b : Blk) (inst : Nat) (i : Nat) (gap : Nat) (sec : Bool) (payload : List Byte) (sub : Nat) : (s.logEvt b inst i gap sec payload sub).slu = s.slu := ((State.logEvt_chg (Within.self _) (Chg.refl s)).same .slu (by decide)).symm
@[simp] theorem State.logEvt_bud (s : State) (b : Blk) (inst : Nat) (i : Nat) (gap : Nat) (sec : Bool) (payload : List Byte) (sub : Nat) : (s.logEvt b inst i gap sec payload sub).bud = s.bud := ((State.logEvt_chg (Within.self _) (Chg.refl s)).same .bud (by decide)).symm
@[simp] theorem State.logEvt_fre (s : State) (b : Blk) (inst : Nat) (i : Nat) (gap : Nat) (sec : Bool) (payload : List Byte) (sub : Nat) : (s.logEvt b inst i gap sec payload sub).fre = s.fre := ((State.logEvt_chg (Within.self _) (Chg.refl s)).same .fre (by decide)).symm
@[simp] theorem State.logEvt_fgd (s : State) (b : Blk) (inst : Nat) (i : Nat) (gap : Nat) (sec : Bool) (payload : List Byte) (sub : Nat) : (s.logEvt b inst i gap sec payload sub).fgd = s.fgd := ((State.logEvt_chg (Within.self _) (Chg.refl s)).same .fgd (by decide)).symm
@[simp] theorem State.logEvt_had (s : State) (b : Blk) (inst : Nat) (i : Nat) (gap : Nat) (sec : Bool) (payload : List Byte) (sub : Nat) : (s.logEvt b inst i gap sec payload sub).had = s.had := ((State.logEvt_chg (Within.self _) (Chg.refl s)).same .had (by decide)).symm
@[simp] theorem State.logEvt_ept (s : State) (b : Blk) (inst : Nat) (i : Nat) (gap : Nat) (sec : Bool) (payload : List Byte) (sub : Nat) : (s.logEvt b inst i gap sec payload sub).ept = s.ept := ((State.logEvt_chg (Within.self _) (Chg.refl s)).same .ept (by decide)).symm
@[simp] theorem State.logEvt_hif (s : State) (b : Blk) (inst : Nat) (i : Nat) (gap : Nat) (sec : Bool) (payload : List Byte) (sub : Nat) : (s.logEvt b inst i gap sec payload sub).hif = s.hif := ((State.logEvt_chg (Within.self _) (Chg.refl s)).same .hif (by decide)).symm
@[simp] theorem State.logEvt_can (s : State) (b : Blk) (inst : Nat) (i : Nat) (gap : Nat) (sec : Bool) (payload : List Byte) (sub : Nat) : (s.logEvt b inst i gap sec payload sub).can = s.can := ((State.logEvt_chg (Within.self _) (Chg.refl s)).same .can (by decide)).symm
@[simp] theorem State.logEvt_lin (s : State) (b : Blk) (inst : Nat) (i : Nat) (gap : Nat) (sec : Bool) (payload : List Byte) (sub : Nat) : (s.logEvt b inst i gap sec payload sub).lin = s.lin := ((State.logEvt_chg (Within.self _) (Chg.refl s)).same .lin (by decide)).symm
@[simp] theorem State.logEvt_cfl (s : State) (b : Blk) (inst : Nat) (i : Nat) (gap : Nat) (sec : Bool) (payload : List Byte) (sub : Nat) : (s.logEvt b inst i gap sec payload sub).cfl = s.cfl := ((State.logEvt_chg (Within.self _) (Chg.refl s)).same .cfl (by decide)).symm
@[simp] theorem State.logEvt_vlt (s : State) (b : Blk) (inst : Nat) (i : Nat) (gap : Nat) (sec : Bool) (payload : List Byte) (sub : Nat) : (s.logEvt b inst i gap sec payload sub).vlt = s.vlt := ((State.logEvt_chg (Within.self _) (Chg.refl s)).same .vlt (by decide)).symm
@[simp] theorem State.logEvt_auth (s : State) (b : Blk) (inst : Nat) (i : Nat) (gap : Nat) (sec : Bool) (payload : List Byte) (sub : Nat) : (s.logEvt b inst i gap sec payload sub).auth = s.auth := ((State.logEvt_chg (Within.self _) (Chg.refl s)).same .auth (by decide)).symm
@[simp] theorem State.logEvt_twn (s : State) (b : Blk) (inst : Nat) (i : Nat) (gap : Nat) (sec : Bool) (payload : List Byte) (sub : Nat) : (s.logEvt b inst i gap sec payload sub).twn = s.twn := ((State.logEvt_chg (Within.self _) (Chg.refl s)).same .twn (by decide)).symm
@[simp] theorem State.logEvt_tim (s : State) (b : Blk) (inst : Nat) (i : Nat) (gap : Nat) (sec : Bool) (payload : List Byte) (sub : Nat) : (s.logEvt b inst i gap sec payload sub).tim = s.tim := ((State.logEvt_chg (Within.self _) (Chg.refl s)).same .tim (by decide)).symm
@[simp] theorem State.logEvt_pwr (s : State) (b : Blk) (inst : Nat) (i : Nat) (gap : Nat) (sec : Bool) (payload : List Byte) (sub : Nat) : (s.logEvt b inst i gap sec payload sub).pwr = s.pwr := ((State.logEvt_chg (Within.self _) (Chg.refl s)).same .pwr (by decide)).symm
@[simp] theorem State.logEvt_svc (s : State) (b : Blk) (inst : Nat) (i : Nat) (gap : Nat) (sec : Bool) (payload : List Byte) (sub : Nat) : (s.logEvt b inst i gap sec payload sub).svc = s.svc := ((State.logEvt_chg (Within.self _) (Chg.refl s)).same .svc (by decide)).symm
@[simp] theorem State.logEvt_inj (s : State) (b : Blk) (inst : Nat) (i : Nat) (gap : Nat) (sec : Bool) (payload : List Byte) (sub : Nat) : (s.logEvt b inst i gap sec payload sub).inj = s.inj := ((State.logEvt_chg (Within.self _) (Chg.refl s)).same .inj (by decide)).symm
@[simp] theorem State.logEvt_out (s : State) (b : Blk) (inst : Nat) (i : Nat) (gap : Nat) (sec : Bool) (payload : List Byte) (sub : Nat) : (s.logEvt b inst i gap sec payload sub).out = s.out := ((State.logEvt_chg (Within.self _) (Chg.refl s)).same .out (by decide)).symm
@[simp] theorem State.logEvt_free (s : State) (b : Blk) (inst : Nat) (i : Nat) (gap : Nat) (sec : Bool) (payload : List Byte) (sub : Nat) : (s.logEvt b inst i gap sec payload sub).free = s.free := ((State.logEvt_chg (Within.self _) (Chg.refl s)).same .free (by decide)).symm
@[simp] theorem State.logEvt_pending (s : State) (b : Blk) (inst : Nat) (i : Nat) (gap : Nat) (sec : Bool) (payload : List Byte) (sub : Nat) : (s.logEvt b inst i gap sec payload sub).pending = s.pending := ((State.logEvt_chg (Within.self _) (Chg.refl s)).same .pending (by decide)).symm

/-! `logMgmt` writes mgs at most. -/

@[simp] theorem State.logMgmt_regs (s : State) (code : Nat) (sec : Bool) (payload : List Byte) : (s.logMgmt code sec payload).regs = s.regs := ((State.logMgmt_chg (Within.self _) (Chg.refl s)).same .regs (by decide)).symm
@[simp] theorem State.logMgmt_slots (s : State) (code : Nat) (sec : Bool) (payload : List Byte) : (s.logMgmt code sec payload).slots = s.slots := ((State.logMgmt_chg (Within.self _) (Chg.refl s)).same .slots (by decide)).symm
@[simp] theorem State.logMgmt_fences (s : State) (code : Nat) (sec : Bool) (payload : List Byte) : (s.logMgmt code sec payload).fences = s.fences := ((State.logMgmt_chg (Within.self _) (Chg.refl s)).same .fences (by decide)).symm
@[simp] theorem State.logMgmt_holds (s : State) (code : Nat) (sec : Bool) (payload : List Byte) : (s.logMgmt code sec payload).holds = s.holds := ((State.logMgmt_chg (Within.self _) (Chg.refl s)).same .holds (by decide)).symm
@[simp] theorem State.logMgmt_snaps (s : State) (code : Nat) (sec : Bool) (payload : List Byte) : (s.logMgmt code sec payload).snaps = s.snaps := ((State.logMgmt_chg (Within.self _) (Chg.refl s)).same .snaps (by decide)).symm
@[simp] theorem State.logMgmt_tbl (s : State) (code : Nat) (sec : Bool) (payload : List Byte) : (s.logMgmt code sec payload).tbl = s.tbl := ((State.logMgmt_chg (Within.self _) (Chg.refl s)).same .tbl (by decide)).symm
@[simp] theorem State.logMgmt_stage (s : State) (code : Nat) (sec : Bool) (payload : List Byte) : (s.logMgmt code sec payload).stage = s.stage := ((State.logMgmt_chg (Within.self _) (Chg.refl s)).same .stage (by decide)).symm
@[simp] theorem State.logMgmt_commitQ (s : State) (code : Nat) (sec : Bool) (payload : List Byte) : (s.logMgmt code sec payload).commitQ = s.commitQ := ((State.logMgmt_chg (Within.self _) (Chg.refl s)).same .commitQ (by decide)).symm
@[simp] theorem State.logMgmt_commits (s : State) (code : Nat) (sec : Bool) (payload : List Byte) : (s.logMgmt code sec payload).commits = s.commits := ((State.logMgmt_chg (Within.self _) (Chg.refl s)).same .commits (by decide)).symm
@[simp] theorem State.logMgmt_frcNs (s : State) (code : Nat) (sec : Bool) (payload : List Byte) : (s.logMgmt code sec payload).frcNs = s.frcNs := ((State.logMgmt_chg (Within.self _) (Chg.refl s)).same .frcNs (by decide)).symm
@[simp] theorem State.logMgmt_frcFrac (s : State) (code : Nat) (sec : Bool) (payload : List Byte) : (s.logMgmt code sec payload).frcFrac = s.frcFrac := ((State.logMgmt_chg (Within.self _) (Chg.refl s)).same .frcFrac (by decide)).symm
@[simp] theorem State.logMgmt_msix (s : State) (code : Nat) (sec : Bool) (payload : List Byte) : (s.logMgmt code sec payload).msix = s.msix := ((State.logMgmt_chg (Within.self _) (Chg.refl s)).same .msix (by decide)).symm
@[simp] theorem State.logMgmt_resets (s : State) (code : Nat) (sec : Bool) (payload : List Byte) : (s.logMgmt code sec payload).resets = s.resets := ((State.logMgmt_chg (Within.self _) (Chg.refl s)).same .resets (by decide)).symm
@[simp] theorem State.logMgmt_lrn (s : State) (code : Nat) (sec : Bool) (payload : List Byte) : (s.logMgmt code sec payload).lrn = s.lrn := ((State.logMgmt_chg (Within.self _) (Chg.refl s)).same .lrn (by decide)).symm
@[simp] theorem State.logMgmt_bsn (s : State) (code : Nat) (sec : Bool) (payload : List Byte) : (s.logMgmt code sec payload).bsn = s.bsn := ((State.logMgmt_chg (Within.self _) (Chg.refl s)).same .bsn (by decide)).symm
@[simp] theorem State.logMgmt_meters (s : State) (code : Nat) (sec : Bool) (payload : List Byte) : (s.logMgmt code sec payload).meters = s.meters := ((State.logMgmt_chg (Within.self _) (Chg.refl s)).same .meters (by decide)).symm
@[simp] theorem State.logMgmt_egr (s : State) (code : Nat) (sec : Bool) (payload : List Byte) : (s.logMgmt code sec payload).egr = s.egr := ((State.logMgmt_chg (Within.self _) (Chg.refl s)).same .egr (by decide)).symm
@[simp] theorem State.logMgmt_slu (s : State) (code : Nat) (sec : Bool) (payload : List Byte) : (s.logMgmt code sec payload).slu = s.slu := ((State.logMgmt_chg (Within.self _) (Chg.refl s)).same .slu (by decide)).symm
@[simp] theorem State.logMgmt_bud (s : State) (code : Nat) (sec : Bool) (payload : List Byte) : (s.logMgmt code sec payload).bud = s.bud := ((State.logMgmt_chg (Within.self _) (Chg.refl s)).same .bud (by decide)).symm
@[simp] theorem State.logMgmt_fre (s : State) (code : Nat) (sec : Bool) (payload : List Byte) : (s.logMgmt code sec payload).fre = s.fre := ((State.logMgmt_chg (Within.self _) (Chg.refl s)).same .fre (by decide)).symm
@[simp] theorem State.logMgmt_fgd (s : State) (code : Nat) (sec : Bool) (payload : List Byte) : (s.logMgmt code sec payload).fgd = s.fgd := ((State.logMgmt_chg (Within.self _) (Chg.refl s)).same .fgd (by decide)).symm
@[simp] theorem State.logMgmt_had (s : State) (code : Nat) (sec : Bool) (payload : List Byte) : (s.logMgmt code sec payload).had = s.had := ((State.logMgmt_chg (Within.self _) (Chg.refl s)).same .had (by decide)).symm
@[simp] theorem State.logMgmt_ept (s : State) (code : Nat) (sec : Bool) (payload : List Byte) : (s.logMgmt code sec payload).ept = s.ept := ((State.logMgmt_chg (Within.self _) (Chg.refl s)).same .ept (by decide)).symm
@[simp] theorem State.logMgmt_hif (s : State) (code : Nat) (sec : Bool) (payload : List Byte) : (s.logMgmt code sec payload).hif = s.hif := ((State.logMgmt_chg (Within.self _) (Chg.refl s)).same .hif (by decide)).symm
@[simp] theorem State.logMgmt_can (s : State) (code : Nat) (sec : Bool) (payload : List Byte) : (s.logMgmt code sec payload).can = s.can := ((State.logMgmt_chg (Within.self _) (Chg.refl s)).same .can (by decide)).symm
@[simp] theorem State.logMgmt_lin (s : State) (code : Nat) (sec : Bool) (payload : List Byte) : (s.logMgmt code sec payload).lin = s.lin := ((State.logMgmt_chg (Within.self _) (Chg.refl s)).same .lin (by decide)).symm
@[simp] theorem State.logMgmt_cfl (s : State) (code : Nat) (sec : Bool) (payload : List Byte) : (s.logMgmt code sec payload).cfl = s.cfl := ((State.logMgmt_chg (Within.self _) (Chg.refl s)).same .cfl (by decide)).symm
@[simp] theorem State.logMgmt_vlt (s : State) (code : Nat) (sec : Bool) (payload : List Byte) : (s.logMgmt code sec payload).vlt = s.vlt := ((State.logMgmt_chg (Within.self _) (Chg.refl s)).same .vlt (by decide)).symm
@[simp] theorem State.logMgmt_auth (s : State) (code : Nat) (sec : Bool) (payload : List Byte) : (s.logMgmt code sec payload).auth = s.auth := ((State.logMgmt_chg (Within.self _) (Chg.refl s)).same .auth (by decide)).symm
@[simp] theorem State.logMgmt_twn (s : State) (code : Nat) (sec : Bool) (payload : List Byte) : (s.logMgmt code sec payload).twn = s.twn := ((State.logMgmt_chg (Within.self _) (Chg.refl s)).same .twn (by decide)).symm
@[simp] theorem State.logMgmt_tim (s : State) (code : Nat) (sec : Bool) (payload : List Byte) : (s.logMgmt code sec payload).tim = s.tim := ((State.logMgmt_chg (Within.self _) (Chg.refl s)).same .tim (by decide)).symm
@[simp] theorem State.logMgmt_pwr (s : State) (code : Nat) (sec : Bool) (payload : List Byte) : (s.logMgmt code sec payload).pwr = s.pwr := ((State.logMgmt_chg (Within.self _) (Chg.refl s)).same .pwr (by decide)).symm
@[simp] theorem State.logMgmt_svc (s : State) (code : Nat) (sec : Bool) (payload : List Byte) : (s.logMgmt code sec payload).svc = s.svc := ((State.logMgmt_chg (Within.self _) (Chg.refl s)).same .svc (by decide)).symm
@[simp] theorem State.logMgmt_inj (s : State) (code : Nat) (sec : Bool) (payload : List Byte) : (s.logMgmt code sec payload).inj = s.inj := ((State.logMgmt_chg (Within.self _) (Chg.refl s)).same .inj (by decide)).symm
@[simp] theorem State.logMgmt_out (s : State) (code : Nat) (sec : Bool) (payload : List Byte) : (s.logMgmt code sec payload).out = s.out := ((State.logMgmt_chg (Within.self _) (Chg.refl s)).same .out (by decide)).symm
@[simp] theorem State.logMgmt_free (s : State) (code : Nat) (sec : Bool) (payload : List Byte) : (s.logMgmt code sec payload).free = s.free := ((State.logMgmt_chg (Within.self _) (Chg.refl s)).same .free (by decide)).symm
@[simp] theorem State.logMgmt_pending (s : State) (code : Nat) (sec : Bool) (payload : List Byte) : (s.logMgmt code sec payload).pending = s.pending := ((State.logMgmt_chg (Within.self _) (Chg.refl s)).same .pending (by decide)).symm

/-! `cmdReject` writes regs, msix, out at most. -/

@[simp] theorem State.cmdReject_slots (s : State) (base : Nat) : (s.cmdReject base).slots = s.slots := ((State.cmdReject_chg (Within.self _) (Chg.refl s)).same .slots (by decide)).symm
@[simp] theorem State.cmdReject_fences (s : State) (base : Nat) : (s.cmdReject base).fences = s.fences := ((State.cmdReject_chg (Within.self _) (Chg.refl s)).same .fences (by decide)).symm
@[simp] theorem State.cmdReject_holds (s : State) (base : Nat) : (s.cmdReject base).holds = s.holds := ((State.cmdReject_chg (Within.self _) (Chg.refl s)).same .holds (by decide)).symm
@[simp] theorem State.cmdReject_snaps (s : State) (base : Nat) : (s.cmdReject base).snaps = s.snaps := ((State.cmdReject_chg (Within.self _) (Chg.refl s)).same .snaps (by decide)).symm
@[simp] theorem State.cmdReject_tbl (s : State) (base : Nat) : (s.cmdReject base).tbl = s.tbl := ((State.cmdReject_chg (Within.self _) (Chg.refl s)).same .tbl (by decide)).symm
@[simp] theorem State.cmdReject_stage (s : State) (base : Nat) : (s.cmdReject base).stage = s.stage := ((State.cmdReject_chg (Within.self _) (Chg.refl s)).same .stage (by decide)).symm
@[simp] theorem State.cmdReject_commitQ (s : State) (base : Nat) : (s.cmdReject base).commitQ = s.commitQ := ((State.cmdReject_chg (Within.self _) (Chg.refl s)).same .commitQ (by decide)).symm
@[simp] theorem State.cmdReject_commits (s : State) (base : Nat) : (s.cmdReject base).commits = s.commits := ((State.cmdReject_chg (Within.self _) (Chg.refl s)).same .commits (by decide)).symm
@[simp] theorem State.cmdReject_frcNs (s : State) (base : Nat) : (s.cmdReject base).frcNs = s.frcNs := ((State.cmdReject_chg (Within.self _) (Chg.refl s)).same .frcNs (by decide)).symm
@[simp] theorem State.cmdReject_frcFrac (s : State) (base : Nat) : (s.cmdReject base).frcFrac = s.frcFrac := ((State.cmdReject_chg (Within.self _) (Chg.refl s)).same .frcFrac (by decide)).symm
@[simp] theorem State.cmdReject_resets (s : State) (base : Nat) : (s.cmdReject base).resets = s.resets := ((State.cmdReject_chg (Within.self _) (Chg.refl s)).same .resets (by decide)).symm
@[simp] theorem State.cmdReject_lrn (s : State) (base : Nat) : (s.cmdReject base).lrn = s.lrn := ((State.cmdReject_chg (Within.self _) (Chg.refl s)).same .lrn (by decide)).symm
@[simp] theorem State.cmdReject_bsn (s : State) (base : Nat) : (s.cmdReject base).bsn = s.bsn := ((State.cmdReject_chg (Within.self _) (Chg.refl s)).same .bsn (by decide)).symm
@[simp] theorem State.cmdReject_meters (s : State) (base : Nat) : (s.cmdReject base).meters = s.meters := ((State.cmdReject_chg (Within.self _) (Chg.refl s)).same .meters (by decide)).symm
@[simp] theorem State.cmdReject_egr (s : State) (base : Nat) : (s.cmdReject base).egr = s.egr := ((State.cmdReject_chg (Within.self _) (Chg.refl s)).same .egr (by decide)).symm
@[simp] theorem State.cmdReject_slu (s : State) (base : Nat) : (s.cmdReject base).slu = s.slu := ((State.cmdReject_chg (Within.self _) (Chg.refl s)).same .slu (by decide)).symm
@[simp] theorem State.cmdReject_bud (s : State) (base : Nat) : (s.cmdReject base).bud = s.bud := ((State.cmdReject_chg (Within.self _) (Chg.refl s)).same .bud (by decide)).symm
@[simp] theorem State.cmdReject_fre (s : State) (base : Nat) : (s.cmdReject base).fre = s.fre := ((State.cmdReject_chg (Within.self _) (Chg.refl s)).same .fre (by decide)).symm
@[simp] theorem State.cmdReject_fgd (s : State) (base : Nat) : (s.cmdReject base).fgd = s.fgd := ((State.cmdReject_chg (Within.self _) (Chg.refl s)).same .fgd (by decide)).symm
@[simp] theorem State.cmdReject_had (s : State) (base : Nat) : (s.cmdReject base).had = s.had := ((State.cmdReject_chg (Within.self _) (Chg.refl s)).same .had (by decide)).symm
@[simp] theorem State.cmdReject_ept (s : State) (base : Nat) : (s.cmdReject base).ept = s.ept := ((State.cmdReject_chg (Within.self _) (Chg.refl s)).same .ept (by decide)).symm
@[simp] theorem State.cmdReject_hif (s : State) (base : Nat) : (s.cmdReject base).hif = s.hif := ((State.cmdReject_chg (Within.self _) (Chg.refl s)).same .hif (by decide)).symm
@[simp] theorem State.cmdReject_can (s : State) (base : Nat) : (s.cmdReject base).can = s.can := ((State.cmdReject_chg (Within.self _) (Chg.refl s)).same .can (by decide)).symm
@[simp] theorem State.cmdReject_lin (s : State) (base : Nat) : (s.cmdReject base).lin = s.lin := ((State.cmdReject_chg (Within.self _) (Chg.refl s)).same .lin (by decide)).symm
@[simp] theorem State.cmdReject_cfl (s : State) (base : Nat) : (s.cmdReject base).cfl = s.cfl := ((State.cmdReject_chg (Within.self _) (Chg.refl s)).same .cfl (by decide)).symm
@[simp] theorem State.cmdReject_vlt (s : State) (base : Nat) : (s.cmdReject base).vlt = s.vlt := ((State.cmdReject_chg (Within.self _) (Chg.refl s)).same .vlt (by decide)).symm
@[simp] theorem State.cmdReject_auth (s : State) (base : Nat) : (s.cmdReject base).auth = s.auth := ((State.cmdReject_chg (Within.self _) (Chg.refl s)).same .auth (by decide)).symm
@[simp] theorem State.cmdReject_twn (s : State) (base : Nat) : (s.cmdReject base).twn = s.twn := ((State.cmdReject_chg (Within.self _) (Chg.refl s)).same .twn (by decide)).symm
@[simp] theorem State.cmdReject_tim (s : State) (base : Nat) : (s.cmdReject base).tim = s.tim := ((State.cmdReject_chg (Within.self _) (Chg.refl s)).same .tim (by decide)).symm
@[simp] theorem State.cmdReject_pwr (s : State) (base : Nat) : (s.cmdReject base).pwr = s.pwr := ((State.cmdReject_chg (Within.self _) (Chg.refl s)).same .pwr (by decide)).symm
@[simp] theorem State.cmdReject_mgs (s : State) (base : Nat) : (s.cmdReject base).mgs = s.mgs := ((State.cmdReject_chg (Within.self _) (Chg.refl s)).same .mgs (by decide)).symm
@[simp] theorem State.cmdReject_svc (s : State) (base : Nat) : (s.cmdReject base).svc = s.svc := ((State.cmdReject_chg (Within.self _) (Chg.refl s)).same .svc (by decide)).symm
@[simp] theorem State.cmdReject_inj (s : State) (base : Nat) : (s.cmdReject base).inj = s.inj := ((State.cmdReject_chg (Within.self _) (Chg.refl s)).same .inj (by decide)).symm
@[simp] theorem State.cmdReject_free (s : State) (base : Nat) : (s.cmdReject base).free = s.free := ((State.cmdReject_chg (Within.self _) (Chg.refl s)).same .free (by decide)).symm
@[simp] theorem State.cmdReject_pending (s : State) (base : Nat) : (s.cmdReject base).pending = s.pending := ((State.cmdReject_chg (Within.self _) (Chg.refl s)).same .pending (by decide)).symm

/-! `holdRes` writes slots at most. -/

@[simp] theorem State.holdRes_regs (s : State) (i : Nat) (r : Result) : (s.holdRes i r).regs = s.regs := ((State.holdRes_chg (Within.self _) (Chg.refl s)).same .regs (by decide)).symm
@[simp] theorem State.holdRes_fences (s : State) (i : Nat) (r : Result) : (s.holdRes i r).fences = s.fences := ((State.holdRes_chg (Within.self _) (Chg.refl s)).same .fences (by decide)).symm
@[simp] theorem State.holdRes_holds (s : State) (i : Nat) (r : Result) : (s.holdRes i r).holds = s.holds := ((State.holdRes_chg (Within.self _) (Chg.refl s)).same .holds (by decide)).symm
@[simp] theorem State.holdRes_snaps (s : State) (i : Nat) (r : Result) : (s.holdRes i r).snaps = s.snaps := ((State.holdRes_chg (Within.self _) (Chg.refl s)).same .snaps (by decide)).symm
@[simp] theorem State.holdRes_tbl (s : State) (i : Nat) (r : Result) : (s.holdRes i r).tbl = s.tbl := ((State.holdRes_chg (Within.self _) (Chg.refl s)).same .tbl (by decide)).symm
@[simp] theorem State.holdRes_stage (s : State) (i : Nat) (r : Result) : (s.holdRes i r).stage = s.stage := ((State.holdRes_chg (Within.self _) (Chg.refl s)).same .stage (by decide)).symm
@[simp] theorem State.holdRes_commitQ (s : State) (i : Nat) (r : Result) : (s.holdRes i r).commitQ = s.commitQ := ((State.holdRes_chg (Within.self _) (Chg.refl s)).same .commitQ (by decide)).symm
@[simp] theorem State.holdRes_commits (s : State) (i : Nat) (r : Result) : (s.holdRes i r).commits = s.commits := ((State.holdRes_chg (Within.self _) (Chg.refl s)).same .commits (by decide)).symm
@[simp] theorem State.holdRes_frcNs (s : State) (i : Nat) (r : Result) : (s.holdRes i r).frcNs = s.frcNs := ((State.holdRes_chg (Within.self _) (Chg.refl s)).same .frcNs (by decide)).symm
@[simp] theorem State.holdRes_frcFrac (s : State) (i : Nat) (r : Result) : (s.holdRes i r).frcFrac = s.frcFrac := ((State.holdRes_chg (Within.self _) (Chg.refl s)).same .frcFrac (by decide)).symm
@[simp] theorem State.holdRes_msix (s : State) (i : Nat) (r : Result) : (s.holdRes i r).msix = s.msix := ((State.holdRes_chg (Within.self _) (Chg.refl s)).same .msix (by decide)).symm
@[simp] theorem State.holdRes_resets (s : State) (i : Nat) (r : Result) : (s.holdRes i r).resets = s.resets := ((State.holdRes_chg (Within.self _) (Chg.refl s)).same .resets (by decide)).symm
@[simp] theorem State.holdRes_lrn (s : State) (i : Nat) (r : Result) : (s.holdRes i r).lrn = s.lrn := ((State.holdRes_chg (Within.self _) (Chg.refl s)).same .lrn (by decide)).symm
@[simp] theorem State.holdRes_bsn (s : State) (i : Nat) (r : Result) : (s.holdRes i r).bsn = s.bsn := ((State.holdRes_chg (Within.self _) (Chg.refl s)).same .bsn (by decide)).symm
@[simp] theorem State.holdRes_meters (s : State) (i : Nat) (r : Result) : (s.holdRes i r).meters = s.meters := ((State.holdRes_chg (Within.self _) (Chg.refl s)).same .meters (by decide)).symm
@[simp] theorem State.holdRes_egr (s : State) (i : Nat) (r : Result) : (s.holdRes i r).egr = s.egr := ((State.holdRes_chg (Within.self _) (Chg.refl s)).same .egr (by decide)).symm
@[simp] theorem State.holdRes_slu (s : State) (i : Nat) (r : Result) : (s.holdRes i r).slu = s.slu := ((State.holdRes_chg (Within.self _) (Chg.refl s)).same .slu (by decide)).symm
@[simp] theorem State.holdRes_bud (s : State) (i : Nat) (r : Result) : (s.holdRes i r).bud = s.bud := ((State.holdRes_chg (Within.self _) (Chg.refl s)).same .bud (by decide)).symm
@[simp] theorem State.holdRes_fre (s : State) (i : Nat) (r : Result) : (s.holdRes i r).fre = s.fre := ((State.holdRes_chg (Within.self _) (Chg.refl s)).same .fre (by decide)).symm
@[simp] theorem State.holdRes_fgd (s : State) (i : Nat) (r : Result) : (s.holdRes i r).fgd = s.fgd := ((State.holdRes_chg (Within.self _) (Chg.refl s)).same .fgd (by decide)).symm
@[simp] theorem State.holdRes_had (s : State) (i : Nat) (r : Result) : (s.holdRes i r).had = s.had := ((State.holdRes_chg (Within.self _) (Chg.refl s)).same .had (by decide)).symm
@[simp] theorem State.holdRes_ept (s : State) (i : Nat) (r : Result) : (s.holdRes i r).ept = s.ept := ((State.holdRes_chg (Within.self _) (Chg.refl s)).same .ept (by decide)).symm
@[simp] theorem State.holdRes_hif (s : State) (i : Nat) (r : Result) : (s.holdRes i r).hif = s.hif := ((State.holdRes_chg (Within.self _) (Chg.refl s)).same .hif (by decide)).symm
@[simp] theorem State.holdRes_can (s : State) (i : Nat) (r : Result) : (s.holdRes i r).can = s.can := ((State.holdRes_chg (Within.self _) (Chg.refl s)).same .can (by decide)).symm
@[simp] theorem State.holdRes_lin (s : State) (i : Nat) (r : Result) : (s.holdRes i r).lin = s.lin := ((State.holdRes_chg (Within.self _) (Chg.refl s)).same .lin (by decide)).symm
@[simp] theorem State.holdRes_cfl (s : State) (i : Nat) (r : Result) : (s.holdRes i r).cfl = s.cfl := ((State.holdRes_chg (Within.self _) (Chg.refl s)).same .cfl (by decide)).symm
@[simp] theorem State.holdRes_vlt (s : State) (i : Nat) (r : Result) : (s.holdRes i r).vlt = s.vlt := ((State.holdRes_chg (Within.self _) (Chg.refl s)).same .vlt (by decide)).symm
@[simp] theorem State.holdRes_auth (s : State) (i : Nat) (r : Result) : (s.holdRes i r).auth = s.auth := ((State.holdRes_chg (Within.self _) (Chg.refl s)).same .auth (by decide)).symm
@[simp] theorem State.holdRes_twn (s : State) (i : Nat) (r : Result) : (s.holdRes i r).twn = s.twn := ((State.holdRes_chg (Within.self _) (Chg.refl s)).same .twn (by decide)).symm
@[simp] theorem State.holdRes_tim (s : State) (i : Nat) (r : Result) : (s.holdRes i r).tim = s.tim := ((State.holdRes_chg (Within.self _) (Chg.refl s)).same .tim (by decide)).symm
@[simp] theorem State.holdRes_pwr (s : State) (i : Nat) (r : Result) : (s.holdRes i r).pwr = s.pwr := ((State.holdRes_chg (Within.self _) (Chg.refl s)).same .pwr (by decide)).symm
@[simp] theorem State.holdRes_mgs (s : State) (i : Nat) (r : Result) : (s.holdRes i r).mgs = s.mgs := ((State.holdRes_chg (Within.self _) (Chg.refl s)).same .mgs (by decide)).symm
@[simp] theorem State.holdRes_svc (s : State) (i : Nat) (r : Result) : (s.holdRes i r).svc = s.svc := ((State.holdRes_chg (Within.self _) (Chg.refl s)).same .svc (by decide)).symm
@[simp] theorem State.holdRes_inj (s : State) (i : Nat) (r : Result) : (s.holdRes i r).inj = s.inj := ((State.holdRes_chg (Within.self _) (Chg.refl s)).same .inj (by decide)).symm
@[simp] theorem State.holdRes_out (s : State) (i : Nat) (r : Result) : (s.holdRes i r).out = s.out := ((State.holdRes_chg (Within.self _) (Chg.refl s)).same .out (by decide)).symm
@[simp] theorem State.holdRes_free (s : State) (i : Nat) (r : Result) : (s.holdRes i r).free = s.free := ((State.holdRes_chg (Within.self _) (Chg.refl s)).same .free (by decide)).symm
@[simp] theorem State.holdRes_pending (s : State) (i : Nat) (r : Result) : (s.holdRes i r).pending = s.pending := ((State.holdRes_chg (Within.self _) (Chg.refl s)).same .pending (by decide)).symm

/-! `complete` writes slots, svc at most. -/

@[simp] theorem State.complete_regs (s : State) (i : Nat) (r : Result) : (s.complete i r).regs = s.regs := ((State.complete_chg (Within.self _) (Chg.refl s)).same .regs (by decide)).symm
@[simp] theorem State.complete_fences (s : State) (i : Nat) (r : Result) : (s.complete i r).fences = s.fences := ((State.complete_chg (Within.self _) (Chg.refl s)).same .fences (by decide)).symm
@[simp] theorem State.complete_holds (s : State) (i : Nat) (r : Result) : (s.complete i r).holds = s.holds := ((State.complete_chg (Within.self _) (Chg.refl s)).same .holds (by decide)).symm
@[simp] theorem State.complete_snaps (s : State) (i : Nat) (r : Result) : (s.complete i r).snaps = s.snaps := ((State.complete_chg (Within.self _) (Chg.refl s)).same .snaps (by decide)).symm
@[simp] theorem State.complete_tbl (s : State) (i : Nat) (r : Result) : (s.complete i r).tbl = s.tbl := ((State.complete_chg (Within.self _) (Chg.refl s)).same .tbl (by decide)).symm
@[simp] theorem State.complete_stage (s : State) (i : Nat) (r : Result) : (s.complete i r).stage = s.stage := ((State.complete_chg (Within.self _) (Chg.refl s)).same .stage (by decide)).symm
@[simp] theorem State.complete_commitQ (s : State) (i : Nat) (r : Result) : (s.complete i r).commitQ = s.commitQ := ((State.complete_chg (Within.self _) (Chg.refl s)).same .commitQ (by decide)).symm
@[simp] theorem State.complete_commits (s : State) (i : Nat) (r : Result) : (s.complete i r).commits = s.commits := ((State.complete_chg (Within.self _) (Chg.refl s)).same .commits (by decide)).symm
@[simp] theorem State.complete_frcNs (s : State) (i : Nat) (r : Result) : (s.complete i r).frcNs = s.frcNs := ((State.complete_chg (Within.self _) (Chg.refl s)).same .frcNs (by decide)).symm
@[simp] theorem State.complete_frcFrac (s : State) (i : Nat) (r : Result) : (s.complete i r).frcFrac = s.frcFrac := ((State.complete_chg (Within.self _) (Chg.refl s)).same .frcFrac (by decide)).symm
@[simp] theorem State.complete_msix (s : State) (i : Nat) (r : Result) : (s.complete i r).msix = s.msix := ((State.complete_chg (Within.self _) (Chg.refl s)).same .msix (by decide)).symm
@[simp] theorem State.complete_resets (s : State) (i : Nat) (r : Result) : (s.complete i r).resets = s.resets := ((State.complete_chg (Within.self _) (Chg.refl s)).same .resets (by decide)).symm
@[simp] theorem State.complete_lrn (s : State) (i : Nat) (r : Result) : (s.complete i r).lrn = s.lrn := ((State.complete_chg (Within.self _) (Chg.refl s)).same .lrn (by decide)).symm
@[simp] theorem State.complete_bsn (s : State) (i : Nat) (r : Result) : (s.complete i r).bsn = s.bsn := ((State.complete_chg (Within.self _) (Chg.refl s)).same .bsn (by decide)).symm
@[simp] theorem State.complete_meters (s : State) (i : Nat) (r : Result) : (s.complete i r).meters = s.meters := ((State.complete_chg (Within.self _) (Chg.refl s)).same .meters (by decide)).symm
@[simp] theorem State.complete_egr (s : State) (i : Nat) (r : Result) : (s.complete i r).egr = s.egr := ((State.complete_chg (Within.self _) (Chg.refl s)).same .egr (by decide)).symm
@[simp] theorem State.complete_slu (s : State) (i : Nat) (r : Result) : (s.complete i r).slu = s.slu := ((State.complete_chg (Within.self _) (Chg.refl s)).same .slu (by decide)).symm
@[simp] theorem State.complete_bud (s : State) (i : Nat) (r : Result) : (s.complete i r).bud = s.bud := ((State.complete_chg (Within.self _) (Chg.refl s)).same .bud (by decide)).symm
@[simp] theorem State.complete_fre (s : State) (i : Nat) (r : Result) : (s.complete i r).fre = s.fre := ((State.complete_chg (Within.self _) (Chg.refl s)).same .fre (by decide)).symm
@[simp] theorem State.complete_fgd (s : State) (i : Nat) (r : Result) : (s.complete i r).fgd = s.fgd := ((State.complete_chg (Within.self _) (Chg.refl s)).same .fgd (by decide)).symm
@[simp] theorem State.complete_had (s : State) (i : Nat) (r : Result) : (s.complete i r).had = s.had := ((State.complete_chg (Within.self _) (Chg.refl s)).same .had (by decide)).symm
@[simp] theorem State.complete_ept (s : State) (i : Nat) (r : Result) : (s.complete i r).ept = s.ept := ((State.complete_chg (Within.self _) (Chg.refl s)).same .ept (by decide)).symm
@[simp] theorem State.complete_hif (s : State) (i : Nat) (r : Result) : (s.complete i r).hif = s.hif := ((State.complete_chg (Within.self _) (Chg.refl s)).same .hif (by decide)).symm
@[simp] theorem State.complete_can (s : State) (i : Nat) (r : Result) : (s.complete i r).can = s.can := ((State.complete_chg (Within.self _) (Chg.refl s)).same .can (by decide)).symm
@[simp] theorem State.complete_lin (s : State) (i : Nat) (r : Result) : (s.complete i r).lin = s.lin := ((State.complete_chg (Within.self _) (Chg.refl s)).same .lin (by decide)).symm
@[simp] theorem State.complete_cfl (s : State) (i : Nat) (r : Result) : (s.complete i r).cfl = s.cfl := ((State.complete_chg (Within.self _) (Chg.refl s)).same .cfl (by decide)).symm
@[simp] theorem State.complete_vlt (s : State) (i : Nat) (r : Result) : (s.complete i r).vlt = s.vlt := ((State.complete_chg (Within.self _) (Chg.refl s)).same .vlt (by decide)).symm
@[simp] theorem State.complete_auth (s : State) (i : Nat) (r : Result) : (s.complete i r).auth = s.auth := ((State.complete_chg (Within.self _) (Chg.refl s)).same .auth (by decide)).symm
@[simp] theorem State.complete_twn (s : State) (i : Nat) (r : Result) : (s.complete i r).twn = s.twn := ((State.complete_chg (Within.self _) (Chg.refl s)).same .twn (by decide)).symm
@[simp] theorem State.complete_tim (s : State) (i : Nat) (r : Result) : (s.complete i r).tim = s.tim := ((State.complete_chg (Within.self _) (Chg.refl s)).same .tim (by decide)).symm
@[simp] theorem State.complete_pwr (s : State) (i : Nat) (r : Result) : (s.complete i r).pwr = s.pwr := ((State.complete_chg (Within.self _) (Chg.refl s)).same .pwr (by decide)).symm
@[simp] theorem State.complete_mgs (s : State) (i : Nat) (r : Result) : (s.complete i r).mgs = s.mgs := ((State.complete_chg (Within.self _) (Chg.refl s)).same .mgs (by decide)).symm
@[simp] theorem State.complete_inj (s : State) (i : Nat) (r : Result) : (s.complete i r).inj = s.inj := ((State.complete_chg (Within.self _) (Chg.refl s)).same .inj (by decide)).symm
@[simp] theorem State.complete_out (s : State) (i : Nat) (r : Result) : (s.complete i r).out = s.out := ((State.complete_chg (Within.self _) (Chg.refl s)).same .out (by decide)).symm
@[simp] theorem State.complete_free (s : State) (i : Nat) (r : Result) : (s.complete i r).free = s.free := ((State.complete_chg (Within.self _) (Chg.refl s)).same .free (by decide)).symm
@[simp] theorem State.complete_pending (s : State) (i : Nat) (r : Result) : (s.complete i r).pending = s.pending := ((State.complete_chg (Within.self _) (Chg.refl s)).same .pending (by decide)).symm

/-! `publish` writes slots, svc at most. -/

@[simp] theorem State.publish_regs (s : State) (i : Nat) : (s.publish i).regs = s.regs := ((State.publish_chg (Within.self _) (Chg.refl s)).same .regs (by decide)).symm
@[simp] theorem State.publish_fences (s : State) (i : Nat) : (s.publish i).fences = s.fences := ((State.publish_chg (Within.self _) (Chg.refl s)).same .fences (by decide)).symm
@[simp] theorem State.publish_holds (s : State) (i : Nat) : (s.publish i).holds = s.holds := ((State.publish_chg (Within.self _) (Chg.refl s)).same .holds (by decide)).symm
@[simp] theorem State.publish_snaps (s : State) (i : Nat) : (s.publish i).snaps = s.snaps := ((State.publish_chg (Within.self _) (Chg.refl s)).same .snaps (by decide)).symm
@[simp] theorem State.publish_tbl (s : State) (i : Nat) : (s.publish i).tbl = s.tbl := ((State.publish_chg (Within.self _) (Chg.refl s)).same .tbl (by decide)).symm
@[simp] theorem State.publish_stage (s : State) (i : Nat) : (s.publish i).stage = s.stage := ((State.publish_chg (Within.self _) (Chg.refl s)).same .stage (by decide)).symm
@[simp] theorem State.publish_commitQ (s : State) (i : Nat) : (s.publish i).commitQ = s.commitQ := ((State.publish_chg (Within.self _) (Chg.refl s)).same .commitQ (by decide)).symm
@[simp] theorem State.publish_commits (s : State) (i : Nat) : (s.publish i).commits = s.commits := ((State.publish_chg (Within.self _) (Chg.refl s)).same .commits (by decide)).symm
@[simp] theorem State.publish_frcNs (s : State) (i : Nat) : (s.publish i).frcNs = s.frcNs := ((State.publish_chg (Within.self _) (Chg.refl s)).same .frcNs (by decide)).symm
@[simp] theorem State.publish_frcFrac (s : State) (i : Nat) : (s.publish i).frcFrac = s.frcFrac := ((State.publish_chg (Within.self _) (Chg.refl s)).same .frcFrac (by decide)).symm
@[simp] theorem State.publish_msix (s : State) (i : Nat) : (s.publish i).msix = s.msix := ((State.publish_chg (Within.self _) (Chg.refl s)).same .msix (by decide)).symm
@[simp] theorem State.publish_resets (s : State) (i : Nat) : (s.publish i).resets = s.resets := ((State.publish_chg (Within.self _) (Chg.refl s)).same .resets (by decide)).symm
@[simp] theorem State.publish_lrn (s : State) (i : Nat) : (s.publish i).lrn = s.lrn := ((State.publish_chg (Within.self _) (Chg.refl s)).same .lrn (by decide)).symm
@[simp] theorem State.publish_bsn (s : State) (i : Nat) : (s.publish i).bsn = s.bsn := ((State.publish_chg (Within.self _) (Chg.refl s)).same .bsn (by decide)).symm
@[simp] theorem State.publish_meters (s : State) (i : Nat) : (s.publish i).meters = s.meters := ((State.publish_chg (Within.self _) (Chg.refl s)).same .meters (by decide)).symm
@[simp] theorem State.publish_egr (s : State) (i : Nat) : (s.publish i).egr = s.egr := ((State.publish_chg (Within.self _) (Chg.refl s)).same .egr (by decide)).symm
@[simp] theorem State.publish_slu (s : State) (i : Nat) : (s.publish i).slu = s.slu := ((State.publish_chg (Within.self _) (Chg.refl s)).same .slu (by decide)).symm
@[simp] theorem State.publish_bud (s : State) (i : Nat) : (s.publish i).bud = s.bud := ((State.publish_chg (Within.self _) (Chg.refl s)).same .bud (by decide)).symm
@[simp] theorem State.publish_fre (s : State) (i : Nat) : (s.publish i).fre = s.fre := ((State.publish_chg (Within.self _) (Chg.refl s)).same .fre (by decide)).symm
@[simp] theorem State.publish_fgd (s : State) (i : Nat) : (s.publish i).fgd = s.fgd := ((State.publish_chg (Within.self _) (Chg.refl s)).same .fgd (by decide)).symm
@[simp] theorem State.publish_had (s : State) (i : Nat) : (s.publish i).had = s.had := ((State.publish_chg (Within.self _) (Chg.refl s)).same .had (by decide)).symm
@[simp] theorem State.publish_ept (s : State) (i : Nat) : (s.publish i).ept = s.ept := ((State.publish_chg (Within.self _) (Chg.refl s)).same .ept (by decide)).symm
@[simp] theorem State.publish_hif (s : State) (i : Nat) : (s.publish i).hif = s.hif := ((State.publish_chg (Within.self _) (Chg.refl s)).same .hif (by decide)).symm
@[simp] theorem State.publish_can (s : State) (i : Nat) : (s.publish i).can = s.can := ((State.publish_chg (Within.self _) (Chg.refl s)).same .can (by decide)).symm
@[simp] theorem State.publish_lin (s : State) (i : Nat) : (s.publish i).lin = s.lin := ((State.publish_chg (Within.self _) (Chg.refl s)).same .lin (by decide)).symm
@[simp] theorem State.publish_cfl (s : State) (i : Nat) : (s.publish i).cfl = s.cfl := ((State.publish_chg (Within.self _) (Chg.refl s)).same .cfl (by decide)).symm
@[simp] theorem State.publish_vlt (s : State) (i : Nat) : (s.publish i).vlt = s.vlt := ((State.publish_chg (Within.self _) (Chg.refl s)).same .vlt (by decide)).symm
@[simp] theorem State.publish_auth (s : State) (i : Nat) : (s.publish i).auth = s.auth := ((State.publish_chg (Within.self _) (Chg.refl s)).same .auth (by decide)).symm
@[simp] theorem State.publish_twn (s : State) (i : Nat) : (s.publish i).twn = s.twn := ((State.publish_chg (Within.self _) (Chg.refl s)).same .twn (by decide)).symm
@[simp] theorem State.publish_tim (s : State) (i : Nat) : (s.publish i).tim = s.tim := ((State.publish_chg (Within.self _) (Chg.refl s)).same .tim (by decide)).symm
@[simp] theorem State.publish_pwr (s : State) (i : Nat) : (s.publish i).pwr = s.pwr := ((State.publish_chg (Within.self _) (Chg.refl s)).same .pwr (by decide)).symm
@[simp] theorem State.publish_mgs (s : State) (i : Nat) : (s.publish i).mgs = s.mgs := ((State.publish_chg (Within.self _) (Chg.refl s)).same .mgs (by decide)).symm
@[simp] theorem State.publish_inj (s : State) (i : Nat) : (s.publish i).inj = s.inj := ((State.publish_chg (Within.self _) (Chg.refl s)).same .inj (by decide)).symm
@[simp] theorem State.publish_out (s : State) (i : Nat) : (s.publish i).out = s.out := ((State.publish_chg (Within.self _) (Chg.refl s)).same .out (by decide)).symm
@[simp] theorem State.publish_free (s : State) (i : Nat) : (s.publish i).free = s.free := ((State.publish_chg (Within.self _) (Chg.refl s)).same .free (by decide)).symm
@[simp] theorem State.publish_pending (s : State) (i : Nat) : (s.publish i).pending = s.pending := ((State.publish_chg (Within.self _) (Chg.refl s)).same .pending (by decide)).symm

/-! `violate` writes regs, msix, hif, mgs, out at most. -/

@[simp] theorem State.violate_slots (s : State) (k : Viol) (m : Nat) (a : Nat) (write : Bool) : (s.violate k m a write).slots = s.slots := ((State.violate_chg (Within.self _) (Chg.refl s)).same .slots (by decide)).symm
@[simp] theorem State.violate_fences (s : State) (k : Viol) (m : Nat) (a : Nat) (write : Bool) : (s.violate k m a write).fences = s.fences := ((State.violate_chg (Within.self _) (Chg.refl s)).same .fences (by decide)).symm
@[simp] theorem State.violate_holds (s : State) (k : Viol) (m : Nat) (a : Nat) (write : Bool) : (s.violate k m a write).holds = s.holds := ((State.violate_chg (Within.self _) (Chg.refl s)).same .holds (by decide)).symm
@[simp] theorem State.violate_snaps (s : State) (k : Viol) (m : Nat) (a : Nat) (write : Bool) : (s.violate k m a write).snaps = s.snaps := ((State.violate_chg (Within.self _) (Chg.refl s)).same .snaps (by decide)).symm
@[simp] theorem State.violate_tbl (s : State) (k : Viol) (m : Nat) (a : Nat) (write : Bool) : (s.violate k m a write).tbl = s.tbl := ((State.violate_chg (Within.self _) (Chg.refl s)).same .tbl (by decide)).symm
@[simp] theorem State.violate_stage (s : State) (k : Viol) (m : Nat) (a : Nat) (write : Bool) : (s.violate k m a write).stage = s.stage := ((State.violate_chg (Within.self _) (Chg.refl s)).same .stage (by decide)).symm
@[simp] theorem State.violate_commitQ (s : State) (k : Viol) (m : Nat) (a : Nat) (write : Bool) : (s.violate k m a write).commitQ = s.commitQ := ((State.violate_chg (Within.self _) (Chg.refl s)).same .commitQ (by decide)).symm
@[simp] theorem State.violate_commits (s : State) (k : Viol) (m : Nat) (a : Nat) (write : Bool) : (s.violate k m a write).commits = s.commits := ((State.violate_chg (Within.self _) (Chg.refl s)).same .commits (by decide)).symm
@[simp] theorem State.violate_frcNs (s : State) (k : Viol) (m : Nat) (a : Nat) (write : Bool) : (s.violate k m a write).frcNs = s.frcNs := ((State.violate_chg (Within.self _) (Chg.refl s)).same .frcNs (by decide)).symm
@[simp] theorem State.violate_frcFrac (s : State) (k : Viol) (m : Nat) (a : Nat) (write : Bool) : (s.violate k m a write).frcFrac = s.frcFrac := ((State.violate_chg (Within.self _) (Chg.refl s)).same .frcFrac (by decide)).symm
@[simp] theorem State.violate_resets (s : State) (k : Viol) (m : Nat) (a : Nat) (write : Bool) : (s.violate k m a write).resets = s.resets := ((State.violate_chg (Within.self _) (Chg.refl s)).same .resets (by decide)).symm
@[simp] theorem State.violate_lrn (s : State) (k : Viol) (m : Nat) (a : Nat) (write : Bool) : (s.violate k m a write).lrn = s.lrn := ((State.violate_chg (Within.self _) (Chg.refl s)).same .lrn (by decide)).symm
@[simp] theorem State.violate_bsn (s : State) (k : Viol) (m : Nat) (a : Nat) (write : Bool) : (s.violate k m a write).bsn = s.bsn := ((State.violate_chg (Within.self _) (Chg.refl s)).same .bsn (by decide)).symm
@[simp] theorem State.violate_meters (s : State) (k : Viol) (m : Nat) (a : Nat) (write : Bool) : (s.violate k m a write).meters = s.meters := ((State.violate_chg (Within.self _) (Chg.refl s)).same .meters (by decide)).symm
@[simp] theorem State.violate_egr (s : State) (k : Viol) (m : Nat) (a : Nat) (write : Bool) : (s.violate k m a write).egr = s.egr := ((State.violate_chg (Within.self _) (Chg.refl s)).same .egr (by decide)).symm
@[simp] theorem State.violate_slu (s : State) (k : Viol) (m : Nat) (a : Nat) (write : Bool) : (s.violate k m a write).slu = s.slu := ((State.violate_chg (Within.self _) (Chg.refl s)).same .slu (by decide)).symm
@[simp] theorem State.violate_bud (s : State) (k : Viol) (m : Nat) (a : Nat) (write : Bool) : (s.violate k m a write).bud = s.bud := ((State.violate_chg (Within.self _) (Chg.refl s)).same .bud (by decide)).symm
@[simp] theorem State.violate_fre (s : State) (k : Viol) (m : Nat) (a : Nat) (write : Bool) : (s.violate k m a write).fre = s.fre := ((State.violate_chg (Within.self _) (Chg.refl s)).same .fre (by decide)).symm
@[simp] theorem State.violate_fgd (s : State) (k : Viol) (m : Nat) (a : Nat) (write : Bool) : (s.violate k m a write).fgd = s.fgd := ((State.violate_chg (Within.self _) (Chg.refl s)).same .fgd (by decide)).symm
@[simp] theorem State.violate_had (s : State) (k : Viol) (m : Nat) (a : Nat) (write : Bool) : (s.violate k m a write).had = s.had := ((State.violate_chg (Within.self _) (Chg.refl s)).same .had (by decide)).symm
@[simp] theorem State.violate_ept (s : State) (k : Viol) (m : Nat) (a : Nat) (write : Bool) : (s.violate k m a write).ept = s.ept := ((State.violate_chg (Within.self _) (Chg.refl s)).same .ept (by decide)).symm
@[simp] theorem State.violate_can (s : State) (k : Viol) (m : Nat) (a : Nat) (write : Bool) : (s.violate k m a write).can = s.can := ((State.violate_chg (Within.self _) (Chg.refl s)).same .can (by decide)).symm
@[simp] theorem State.violate_lin (s : State) (k : Viol) (m : Nat) (a : Nat) (write : Bool) : (s.violate k m a write).lin = s.lin := ((State.violate_chg (Within.self _) (Chg.refl s)).same .lin (by decide)).symm
@[simp] theorem State.violate_cfl (s : State) (k : Viol) (m : Nat) (a : Nat) (write : Bool) : (s.violate k m a write).cfl = s.cfl := ((State.violate_chg (Within.self _) (Chg.refl s)).same .cfl (by decide)).symm
@[simp] theorem State.violate_vlt (s : State) (k : Viol) (m : Nat) (a : Nat) (write : Bool) : (s.violate k m a write).vlt = s.vlt := ((State.violate_chg (Within.self _) (Chg.refl s)).same .vlt (by decide)).symm
@[simp] theorem State.violate_auth (s : State) (k : Viol) (m : Nat) (a : Nat) (write : Bool) : (s.violate k m a write).auth = s.auth := ((State.violate_chg (Within.self _) (Chg.refl s)).same .auth (by decide)).symm
@[simp] theorem State.violate_twn (s : State) (k : Viol) (m : Nat) (a : Nat) (write : Bool) : (s.violate k m a write).twn = s.twn := ((State.violate_chg (Within.self _) (Chg.refl s)).same .twn (by decide)).symm
@[simp] theorem State.violate_tim (s : State) (k : Viol) (m : Nat) (a : Nat) (write : Bool) : (s.violate k m a write).tim = s.tim := ((State.violate_chg (Within.self _) (Chg.refl s)).same .tim (by decide)).symm
@[simp] theorem State.violate_pwr (s : State) (k : Viol) (m : Nat) (a : Nat) (write : Bool) : (s.violate k m a write).pwr = s.pwr := ((State.violate_chg (Within.self _) (Chg.refl s)).same .pwr (by decide)).symm
@[simp] theorem State.violate_svc (s : State) (k : Viol) (m : Nat) (a : Nat) (write : Bool) : (s.violate k m a write).svc = s.svc := ((State.violate_chg (Within.self _) (Chg.refl s)).same .svc (by decide)).symm
@[simp] theorem State.violate_inj (s : State) (k : Viol) (m : Nat) (a : Nat) (write : Bool) : (s.violate k m a write).inj = s.inj := ((State.violate_chg (Within.self _) (Chg.refl s)).same .inj (by decide)).symm
@[simp] theorem State.violate_free (s : State) (k : Viol) (m : Nat) (a : Nat) (write : Bool) : (s.violate k m a write).free = s.free := ((State.violate_chg (Within.self _) (Chg.refl s)).same .free (by decide)).symm
@[simp] theorem State.violate_pending (s : State) (k : Viol) (m : Nat) (a : Nat) (write : Bool) : (s.violate k m a write).pending = s.pending := ((State.violate_chg (Within.self _) (Chg.refl s)).same .pending (by decide)).symm

/-! `touch` writes fences at most. -/

@[simp] theorem State.touch_regs (s : State) (m : Nat) (pg : Nat) : (s.touch m pg).regs = s.regs := ((State.touch_chg (Within.self _) (Chg.refl s)).same .regs (by decide)).symm
@[simp] theorem State.touch_slots (s : State) (m : Nat) (pg : Nat) : (s.touch m pg).slots = s.slots := ((State.touch_chg (Within.self _) (Chg.refl s)).same .slots (by decide)).symm
@[simp] theorem State.touch_holds (s : State) (m : Nat) (pg : Nat) : (s.touch m pg).holds = s.holds := ((State.touch_chg (Within.self _) (Chg.refl s)).same .holds (by decide)).symm
@[simp] theorem State.touch_snaps (s : State) (m : Nat) (pg : Nat) : (s.touch m pg).snaps = s.snaps := ((State.touch_chg (Within.self _) (Chg.refl s)).same .snaps (by decide)).symm
@[simp] theorem State.touch_tbl (s : State) (m : Nat) (pg : Nat) : (s.touch m pg).tbl = s.tbl := ((State.touch_chg (Within.self _) (Chg.refl s)).same .tbl (by decide)).symm
@[simp] theorem State.touch_stage (s : State) (m : Nat) (pg : Nat) : (s.touch m pg).stage = s.stage := ((State.touch_chg (Within.self _) (Chg.refl s)).same .stage (by decide)).symm
@[simp] theorem State.touch_commitQ (s : State) (m : Nat) (pg : Nat) : (s.touch m pg).commitQ = s.commitQ := ((State.touch_chg (Within.self _) (Chg.refl s)).same .commitQ (by decide)).symm
@[simp] theorem State.touch_commits (s : State) (m : Nat) (pg : Nat) : (s.touch m pg).commits = s.commits := ((State.touch_chg (Within.self _) (Chg.refl s)).same .commits (by decide)).symm
@[simp] theorem State.touch_frcNs (s : State) (m : Nat) (pg : Nat) : (s.touch m pg).frcNs = s.frcNs := ((State.touch_chg (Within.self _) (Chg.refl s)).same .frcNs (by decide)).symm
@[simp] theorem State.touch_frcFrac (s : State) (m : Nat) (pg : Nat) : (s.touch m pg).frcFrac = s.frcFrac := ((State.touch_chg (Within.self _) (Chg.refl s)).same .frcFrac (by decide)).symm
@[simp] theorem State.touch_msix (s : State) (m : Nat) (pg : Nat) : (s.touch m pg).msix = s.msix := ((State.touch_chg (Within.self _) (Chg.refl s)).same .msix (by decide)).symm
@[simp] theorem State.touch_resets (s : State) (m : Nat) (pg : Nat) : (s.touch m pg).resets = s.resets := ((State.touch_chg (Within.self _) (Chg.refl s)).same .resets (by decide)).symm
@[simp] theorem State.touch_lrn (s : State) (m : Nat) (pg : Nat) : (s.touch m pg).lrn = s.lrn := ((State.touch_chg (Within.self _) (Chg.refl s)).same .lrn (by decide)).symm
@[simp] theorem State.touch_bsn (s : State) (m : Nat) (pg : Nat) : (s.touch m pg).bsn = s.bsn := ((State.touch_chg (Within.self _) (Chg.refl s)).same .bsn (by decide)).symm
@[simp] theorem State.touch_meters (s : State) (m : Nat) (pg : Nat) : (s.touch m pg).meters = s.meters := ((State.touch_chg (Within.self _) (Chg.refl s)).same .meters (by decide)).symm
@[simp] theorem State.touch_egr (s : State) (m : Nat) (pg : Nat) : (s.touch m pg).egr = s.egr := ((State.touch_chg (Within.self _) (Chg.refl s)).same .egr (by decide)).symm
@[simp] theorem State.touch_slu (s : State) (m : Nat) (pg : Nat) : (s.touch m pg).slu = s.slu := ((State.touch_chg (Within.self _) (Chg.refl s)).same .slu (by decide)).symm
@[simp] theorem State.touch_bud (s : State) (m : Nat) (pg : Nat) : (s.touch m pg).bud = s.bud := ((State.touch_chg (Within.self _) (Chg.refl s)).same .bud (by decide)).symm
@[simp] theorem State.touch_fre (s : State) (m : Nat) (pg : Nat) : (s.touch m pg).fre = s.fre := ((State.touch_chg (Within.self _) (Chg.refl s)).same .fre (by decide)).symm
@[simp] theorem State.touch_fgd (s : State) (m : Nat) (pg : Nat) : (s.touch m pg).fgd = s.fgd := ((State.touch_chg (Within.self _) (Chg.refl s)).same .fgd (by decide)).symm
@[simp] theorem State.touch_had (s : State) (m : Nat) (pg : Nat) : (s.touch m pg).had = s.had := ((State.touch_chg (Within.self _) (Chg.refl s)).same .had (by decide)).symm
@[simp] theorem State.touch_ept (s : State) (m : Nat) (pg : Nat) : (s.touch m pg).ept = s.ept := ((State.touch_chg (Within.self _) (Chg.refl s)).same .ept (by decide)).symm
@[simp] theorem State.touch_hif (s : State) (m : Nat) (pg : Nat) : (s.touch m pg).hif = s.hif := ((State.touch_chg (Within.self _) (Chg.refl s)).same .hif (by decide)).symm
@[simp] theorem State.touch_can (s : State) (m : Nat) (pg : Nat) : (s.touch m pg).can = s.can := ((State.touch_chg (Within.self _) (Chg.refl s)).same .can (by decide)).symm
@[simp] theorem State.touch_lin (s : State) (m : Nat) (pg : Nat) : (s.touch m pg).lin = s.lin := ((State.touch_chg (Within.self _) (Chg.refl s)).same .lin (by decide)).symm
@[simp] theorem State.touch_cfl (s : State) (m : Nat) (pg : Nat) : (s.touch m pg).cfl = s.cfl := ((State.touch_chg (Within.self _) (Chg.refl s)).same .cfl (by decide)).symm
@[simp] theorem State.touch_vlt (s : State) (m : Nat) (pg : Nat) : (s.touch m pg).vlt = s.vlt := ((State.touch_chg (Within.self _) (Chg.refl s)).same .vlt (by decide)).symm
@[simp] theorem State.touch_auth (s : State) (m : Nat) (pg : Nat) : (s.touch m pg).auth = s.auth := ((State.touch_chg (Within.self _) (Chg.refl s)).same .auth (by decide)).symm
@[simp] theorem State.touch_twn (s : State) (m : Nat) (pg : Nat) : (s.touch m pg).twn = s.twn := ((State.touch_chg (Within.self _) (Chg.refl s)).same .twn (by decide)).symm
@[simp] theorem State.touch_tim (s : State) (m : Nat) (pg : Nat) : (s.touch m pg).tim = s.tim := ((State.touch_chg (Within.self _) (Chg.refl s)).same .tim (by decide)).symm
@[simp] theorem State.touch_pwr (s : State) (m : Nat) (pg : Nat) : (s.touch m pg).pwr = s.pwr := ((State.touch_chg (Within.self _) (Chg.refl s)).same .pwr (by decide)).symm
@[simp] theorem State.touch_mgs (s : State) (m : Nat) (pg : Nat) : (s.touch m pg).mgs = s.mgs := ((State.touch_chg (Within.self _) (Chg.refl s)).same .mgs (by decide)).symm
@[simp] theorem State.touch_svc (s : State) (m : Nat) (pg : Nat) : (s.touch m pg).svc = s.svc := ((State.touch_chg (Within.self _) (Chg.refl s)).same .svc (by decide)).symm
@[simp] theorem State.touch_inj (s : State) (m : Nat) (pg : Nat) : (s.touch m pg).inj = s.inj := ((State.touch_chg (Within.self _) (Chg.refl s)).same .inj (by decide)).symm
@[simp] theorem State.touch_out (s : State) (m : Nat) (pg : Nat) : (s.touch m pg).out = s.out := ((State.touch_chg (Within.self _) (Chg.refl s)).same .out (by decide)).symm
@[simp] theorem State.touch_free (s : State) (m : Nat) (pg : Nat) : (s.touch m pg).free = s.free := ((State.touch_chg (Within.self _) (Chg.refl s)).same .free (by decide)).symm
@[simp] theorem State.touch_pending (s : State) (m : Nat) (pg : Nat) : (s.touch m pg).pending = s.pending := ((State.touch_chg (Within.self _) (Chg.refl s)).same .pending (by decide)).symm

/-! `perfAdd` writes regs, msix, out at most. -/

@[simp] theorem State.perfAdd_slots (s : State) (n : Nat) (i : Nat) : (s.perfAdd n i).slots = s.slots := ((State.perfAdd_chg (Within.self _) (Chg.refl s)).same .slots (by decide)).symm
@[simp] theorem State.perfAdd_fences (s : State) (n : Nat) (i : Nat) : (s.perfAdd n i).fences = s.fences := ((State.perfAdd_chg (Within.self _) (Chg.refl s)).same .fences (by decide)).symm
@[simp] theorem State.perfAdd_holds (s : State) (n : Nat) (i : Nat) : (s.perfAdd n i).holds = s.holds := ((State.perfAdd_chg (Within.self _) (Chg.refl s)).same .holds (by decide)).symm
@[simp] theorem State.perfAdd_snaps (s : State) (n : Nat) (i : Nat) : (s.perfAdd n i).snaps = s.snaps := ((State.perfAdd_chg (Within.self _) (Chg.refl s)).same .snaps (by decide)).symm
@[simp] theorem State.perfAdd_tbl (s : State) (n : Nat) (i : Nat) : (s.perfAdd n i).tbl = s.tbl := ((State.perfAdd_chg (Within.self _) (Chg.refl s)).same .tbl (by decide)).symm
@[simp] theorem State.perfAdd_stage (s : State) (n : Nat) (i : Nat) : (s.perfAdd n i).stage = s.stage := ((State.perfAdd_chg (Within.self _) (Chg.refl s)).same .stage (by decide)).symm
@[simp] theorem State.perfAdd_commitQ (s : State) (n : Nat) (i : Nat) : (s.perfAdd n i).commitQ = s.commitQ := ((State.perfAdd_chg (Within.self _) (Chg.refl s)).same .commitQ (by decide)).symm
@[simp] theorem State.perfAdd_commits (s : State) (n : Nat) (i : Nat) : (s.perfAdd n i).commits = s.commits := ((State.perfAdd_chg (Within.self _) (Chg.refl s)).same .commits (by decide)).symm
@[simp] theorem State.perfAdd_frcNs (s : State) (n : Nat) (i : Nat) : (s.perfAdd n i).frcNs = s.frcNs := ((State.perfAdd_chg (Within.self _) (Chg.refl s)).same .frcNs (by decide)).symm
@[simp] theorem State.perfAdd_frcFrac (s : State) (n : Nat) (i : Nat) : (s.perfAdd n i).frcFrac = s.frcFrac := ((State.perfAdd_chg (Within.self _) (Chg.refl s)).same .frcFrac (by decide)).symm
@[simp] theorem State.perfAdd_resets (s : State) (n : Nat) (i : Nat) : (s.perfAdd n i).resets = s.resets := ((State.perfAdd_chg (Within.self _) (Chg.refl s)).same .resets (by decide)).symm
@[simp] theorem State.perfAdd_lrn (s : State) (n : Nat) (i : Nat) : (s.perfAdd n i).lrn = s.lrn := ((State.perfAdd_chg (Within.self _) (Chg.refl s)).same .lrn (by decide)).symm
@[simp] theorem State.perfAdd_bsn (s : State) (n : Nat) (i : Nat) : (s.perfAdd n i).bsn = s.bsn := ((State.perfAdd_chg (Within.self _) (Chg.refl s)).same .bsn (by decide)).symm
@[simp] theorem State.perfAdd_meters (s : State) (n : Nat) (i : Nat) : (s.perfAdd n i).meters = s.meters := ((State.perfAdd_chg (Within.self _) (Chg.refl s)).same .meters (by decide)).symm
@[simp] theorem State.perfAdd_egr (s : State) (n : Nat) (i : Nat) : (s.perfAdd n i).egr = s.egr := ((State.perfAdd_chg (Within.self _) (Chg.refl s)).same .egr (by decide)).symm
@[simp] theorem State.perfAdd_slu (s : State) (n : Nat) (i : Nat) : (s.perfAdd n i).slu = s.slu := ((State.perfAdd_chg (Within.self _) (Chg.refl s)).same .slu (by decide)).symm
@[simp] theorem State.perfAdd_bud (s : State) (n : Nat) (i : Nat) : (s.perfAdd n i).bud = s.bud := ((State.perfAdd_chg (Within.self _) (Chg.refl s)).same .bud (by decide)).symm
@[simp] theorem State.perfAdd_fre (s : State) (n : Nat) (i : Nat) : (s.perfAdd n i).fre = s.fre := ((State.perfAdd_chg (Within.self _) (Chg.refl s)).same .fre (by decide)).symm
@[simp] theorem State.perfAdd_fgd (s : State) (n : Nat) (i : Nat) : (s.perfAdd n i).fgd = s.fgd := ((State.perfAdd_chg (Within.self _) (Chg.refl s)).same .fgd (by decide)).symm
@[simp] theorem State.perfAdd_had (s : State) (n : Nat) (i : Nat) : (s.perfAdd n i).had = s.had := ((State.perfAdd_chg (Within.self _) (Chg.refl s)).same .had (by decide)).symm
@[simp] theorem State.perfAdd_ept (s : State) (n : Nat) (i : Nat) : (s.perfAdd n i).ept = s.ept := ((State.perfAdd_chg (Within.self _) (Chg.refl s)).same .ept (by decide)).symm
@[simp] theorem State.perfAdd_hif (s : State) (n : Nat) (i : Nat) : (s.perfAdd n i).hif = s.hif := ((State.perfAdd_chg (Within.self _) (Chg.refl s)).same .hif (by decide)).symm
@[simp] theorem State.perfAdd_can (s : State) (n : Nat) (i : Nat) : (s.perfAdd n i).can = s.can := ((State.perfAdd_chg (Within.self _) (Chg.refl s)).same .can (by decide)).symm
@[simp] theorem State.perfAdd_lin (s : State) (n : Nat) (i : Nat) : (s.perfAdd n i).lin = s.lin := ((State.perfAdd_chg (Within.self _) (Chg.refl s)).same .lin (by decide)).symm
@[simp] theorem State.perfAdd_cfl (s : State) (n : Nat) (i : Nat) : (s.perfAdd n i).cfl = s.cfl := ((State.perfAdd_chg (Within.self _) (Chg.refl s)).same .cfl (by decide)).symm
@[simp] theorem State.perfAdd_vlt (s : State) (n : Nat) (i : Nat) : (s.perfAdd n i).vlt = s.vlt := ((State.perfAdd_chg (Within.self _) (Chg.refl s)).same .vlt (by decide)).symm
@[simp] theorem State.perfAdd_auth (s : State) (n : Nat) (i : Nat) : (s.perfAdd n i).auth = s.auth := ((State.perfAdd_chg (Within.self _) (Chg.refl s)).same .auth (by decide)).symm
@[simp] theorem State.perfAdd_twn (s : State) (n : Nat) (i : Nat) : (s.perfAdd n i).twn = s.twn := ((State.perfAdd_chg (Within.self _) (Chg.refl s)).same .twn (by decide)).symm
@[simp] theorem State.perfAdd_tim (s : State) (n : Nat) (i : Nat) : (s.perfAdd n i).tim = s.tim := ((State.perfAdd_chg (Within.self _) (Chg.refl s)).same .tim (by decide)).symm
@[simp] theorem State.perfAdd_pwr (s : State) (n : Nat) (i : Nat) : (s.perfAdd n i).pwr = s.pwr := ((State.perfAdd_chg (Within.self _) (Chg.refl s)).same .pwr (by decide)).symm
@[simp] theorem State.perfAdd_mgs (s : State) (n : Nat) (i : Nat) : (s.perfAdd n i).mgs = s.mgs := ((State.perfAdd_chg (Within.self _) (Chg.refl s)).same .mgs (by decide)).symm
@[simp] theorem State.perfAdd_svc (s : State) (n : Nat) (i : Nat) : (s.perfAdd n i).svc = s.svc := ((State.perfAdd_chg (Within.self _) (Chg.refl s)).same .svc (by decide)).symm
@[simp] theorem State.perfAdd_inj (s : State) (n : Nat) (i : Nat) : (s.perfAdd n i).inj = s.inj := ((State.perfAdd_chg (Within.self _) (Chg.refl s)).same .inj (by decide)).symm
@[simp] theorem State.perfAdd_free (s : State) (n : Nat) (i : Nat) : (s.perfAdd n i).free = s.free := ((State.perfAdd_chg (Within.self _) (Chg.refl s)).same .free (by decide)).symm
@[simp] theorem State.perfAdd_pending (s : State) (n : Nat) (i : Nat) : (s.perfAdd n i).pending = s.pending := ((State.perfAdd_chg (Within.self _) (Chg.refl s)).same .pending (by decide)).symm

/-! `perf` writes regs, msix, out at most. -/

@[simp] theorem State.perf_slots (s : State) (code : Nat) (n : Nat) (master : Option Nat) (addr : Option Nat) : (s.perf code n master addr).slots = s.slots := ((State.perf_chg (Within.self _) (Chg.refl s)).same .slots (by decide)).symm
@[simp] theorem State.perf_fences (s : State) (code : Nat) (n : Nat) (master : Option Nat) (addr : Option Nat) : (s.perf code n master addr).fences = s.fences := ((State.perf_chg (Within.self _) (Chg.refl s)).same .fences (by decide)).symm
@[simp] theorem State.perf_holds (s : State) (code : Nat) (n : Nat) (master : Option Nat) (addr : Option Nat) : (s.perf code n master addr).holds = s.holds := ((State.perf_chg (Within.self _) (Chg.refl s)).same .holds (by decide)).symm
@[simp] theorem State.perf_snaps (s : State) (code : Nat) (n : Nat) (master : Option Nat) (addr : Option Nat) : (s.perf code n master addr).snaps = s.snaps := ((State.perf_chg (Within.self _) (Chg.refl s)).same .snaps (by decide)).symm
@[simp] theorem State.perf_tbl (s : State) (code : Nat) (n : Nat) (master : Option Nat) (addr : Option Nat) : (s.perf code n master addr).tbl = s.tbl := ((State.perf_chg (Within.self _) (Chg.refl s)).same .tbl (by decide)).symm
@[simp] theorem State.perf_stage (s : State) (code : Nat) (n : Nat) (master : Option Nat) (addr : Option Nat) : (s.perf code n master addr).stage = s.stage := ((State.perf_chg (Within.self _) (Chg.refl s)).same .stage (by decide)).symm
@[simp] theorem State.perf_commitQ (s : State) (code : Nat) (n : Nat) (master : Option Nat) (addr : Option Nat) : (s.perf code n master addr).commitQ = s.commitQ := ((State.perf_chg (Within.self _) (Chg.refl s)).same .commitQ (by decide)).symm
@[simp] theorem State.perf_commits (s : State) (code : Nat) (n : Nat) (master : Option Nat) (addr : Option Nat) : (s.perf code n master addr).commits = s.commits := ((State.perf_chg (Within.self _) (Chg.refl s)).same .commits (by decide)).symm
@[simp] theorem State.perf_frcNs (s : State) (code : Nat) (n : Nat) (master : Option Nat) (addr : Option Nat) : (s.perf code n master addr).frcNs = s.frcNs := ((State.perf_chg (Within.self _) (Chg.refl s)).same .frcNs (by decide)).symm
@[simp] theorem State.perf_frcFrac (s : State) (code : Nat) (n : Nat) (master : Option Nat) (addr : Option Nat) : (s.perf code n master addr).frcFrac = s.frcFrac := ((State.perf_chg (Within.self _) (Chg.refl s)).same .frcFrac (by decide)).symm
@[simp] theorem State.perf_resets (s : State) (code : Nat) (n : Nat) (master : Option Nat) (addr : Option Nat) : (s.perf code n master addr).resets = s.resets := ((State.perf_chg (Within.self _) (Chg.refl s)).same .resets (by decide)).symm
@[simp] theorem State.perf_lrn (s : State) (code : Nat) (n : Nat) (master : Option Nat) (addr : Option Nat) : (s.perf code n master addr).lrn = s.lrn := ((State.perf_chg (Within.self _) (Chg.refl s)).same .lrn (by decide)).symm
@[simp] theorem State.perf_bsn (s : State) (code : Nat) (n : Nat) (master : Option Nat) (addr : Option Nat) : (s.perf code n master addr).bsn = s.bsn := ((State.perf_chg (Within.self _) (Chg.refl s)).same .bsn (by decide)).symm
@[simp] theorem State.perf_meters (s : State) (code : Nat) (n : Nat) (master : Option Nat) (addr : Option Nat) : (s.perf code n master addr).meters = s.meters := ((State.perf_chg (Within.self _) (Chg.refl s)).same .meters (by decide)).symm
@[simp] theorem State.perf_egr (s : State) (code : Nat) (n : Nat) (master : Option Nat) (addr : Option Nat) : (s.perf code n master addr).egr = s.egr := ((State.perf_chg (Within.self _) (Chg.refl s)).same .egr (by decide)).symm
@[simp] theorem State.perf_slu (s : State) (code : Nat) (n : Nat) (master : Option Nat) (addr : Option Nat) : (s.perf code n master addr).slu = s.slu := ((State.perf_chg (Within.self _) (Chg.refl s)).same .slu (by decide)).symm
@[simp] theorem State.perf_bud (s : State) (code : Nat) (n : Nat) (master : Option Nat) (addr : Option Nat) : (s.perf code n master addr).bud = s.bud := ((State.perf_chg (Within.self _) (Chg.refl s)).same .bud (by decide)).symm
@[simp] theorem State.perf_fre (s : State) (code : Nat) (n : Nat) (master : Option Nat) (addr : Option Nat) : (s.perf code n master addr).fre = s.fre := ((State.perf_chg (Within.self _) (Chg.refl s)).same .fre (by decide)).symm
@[simp] theorem State.perf_fgd (s : State) (code : Nat) (n : Nat) (master : Option Nat) (addr : Option Nat) : (s.perf code n master addr).fgd = s.fgd := ((State.perf_chg (Within.self _) (Chg.refl s)).same .fgd (by decide)).symm
@[simp] theorem State.perf_had (s : State) (code : Nat) (n : Nat) (master : Option Nat) (addr : Option Nat) : (s.perf code n master addr).had = s.had := ((State.perf_chg (Within.self _) (Chg.refl s)).same .had (by decide)).symm
@[simp] theorem State.perf_ept (s : State) (code : Nat) (n : Nat) (master : Option Nat) (addr : Option Nat) : (s.perf code n master addr).ept = s.ept := ((State.perf_chg (Within.self _) (Chg.refl s)).same .ept (by decide)).symm
@[simp] theorem State.perf_hif (s : State) (code : Nat) (n : Nat) (master : Option Nat) (addr : Option Nat) : (s.perf code n master addr).hif = s.hif := ((State.perf_chg (Within.self _) (Chg.refl s)).same .hif (by decide)).symm
@[simp] theorem State.perf_can (s : State) (code : Nat) (n : Nat) (master : Option Nat) (addr : Option Nat) : (s.perf code n master addr).can = s.can := ((State.perf_chg (Within.self _) (Chg.refl s)).same .can (by decide)).symm
@[simp] theorem State.perf_lin (s : State) (code : Nat) (n : Nat) (master : Option Nat) (addr : Option Nat) : (s.perf code n master addr).lin = s.lin := ((State.perf_chg (Within.self _) (Chg.refl s)).same .lin (by decide)).symm
@[simp] theorem State.perf_cfl (s : State) (code : Nat) (n : Nat) (master : Option Nat) (addr : Option Nat) : (s.perf code n master addr).cfl = s.cfl := ((State.perf_chg (Within.self _) (Chg.refl s)).same .cfl (by decide)).symm
@[simp] theorem State.perf_vlt (s : State) (code : Nat) (n : Nat) (master : Option Nat) (addr : Option Nat) : (s.perf code n master addr).vlt = s.vlt := ((State.perf_chg (Within.self _) (Chg.refl s)).same .vlt (by decide)).symm
@[simp] theorem State.perf_auth (s : State) (code : Nat) (n : Nat) (master : Option Nat) (addr : Option Nat) : (s.perf code n master addr).auth = s.auth := ((State.perf_chg (Within.self _) (Chg.refl s)).same .auth (by decide)).symm
@[simp] theorem State.perf_twn (s : State) (code : Nat) (n : Nat) (master : Option Nat) (addr : Option Nat) : (s.perf code n master addr).twn = s.twn := ((State.perf_chg (Within.self _) (Chg.refl s)).same .twn (by decide)).symm
@[simp] theorem State.perf_tim (s : State) (code : Nat) (n : Nat) (master : Option Nat) (addr : Option Nat) : (s.perf code n master addr).tim = s.tim := ((State.perf_chg (Within.self _) (Chg.refl s)).same .tim (by decide)).symm
@[simp] theorem State.perf_pwr (s : State) (code : Nat) (n : Nat) (master : Option Nat) (addr : Option Nat) : (s.perf code n master addr).pwr = s.pwr := ((State.perf_chg (Within.self _) (Chg.refl s)).same .pwr (by decide)).symm
@[simp] theorem State.perf_mgs (s : State) (code : Nat) (n : Nat) (master : Option Nat) (addr : Option Nat) : (s.perf code n master addr).mgs = s.mgs := ((State.perf_chg (Within.self _) (Chg.refl s)).same .mgs (by decide)).symm
@[simp] theorem State.perf_svc (s : State) (code : Nat) (n : Nat) (master : Option Nat) (addr : Option Nat) : (s.perf code n master addr).svc = s.svc := ((State.perf_chg (Within.self _) (Chg.refl s)).same .svc (by decide)).symm
@[simp] theorem State.perf_inj (s : State) (code : Nat) (n : Nat) (master : Option Nat) (addr : Option Nat) : (s.perf code n master addr).inj = s.inj := ((State.perf_chg (Within.self _) (Chg.refl s)).same .inj (by decide)).symm
@[simp] theorem State.perf_free (s : State) (code : Nat) (n : Nat) (master : Option Nat) (addr : Option Nat) : (s.perf code n master addr).free = s.free := ((State.perf_chg (Within.self _) (Chg.refl s)).same .free (by decide)).symm
@[simp] theorem State.perf_pending (s : State) (code : Nat) (n : Nat) (master : Option Nat) (addr : Option Nat) : (s.perf code n master addr).pending = s.pending := ((State.perf_chg (Within.self _) (Chg.refl s)).same .pending (by decide)).symm

end Sys2Proof.Machine
end

