-- ==== Sys2Proof/Laws/State.lean ====
section
/-! SUPPORT. Beside the state: what each update of it leaves unchanged, one lemma for each area. -/

set_option Elab.async false

namespace Sys2Proof.Machine

/-! `wr` writes regs. -/

@[simp] theorem State.wr_slots (s : State) (a : Nat) (v : Word) : (s.wr a v).slots = s.slots := rfl
@[simp] theorem State.wr_fences (s : State) (a : Nat) (v : Word) : (s.wr a v).fences = s.fences := rfl
@[simp] theorem State.wr_holds (s : State) (a : Nat) (v : Word) : (s.wr a v).holds = s.holds := rfl
@[simp] theorem State.wr_snaps (s : State) (a : Nat) (v : Word) : (s.wr a v).snaps = s.snaps := rfl
@[simp] theorem State.wr_tbl (s : State) (a : Nat) (v : Word) : (s.wr a v).tbl = s.tbl := rfl
@[simp] theorem State.wr_stage (s : State) (a : Nat) (v : Word) : (s.wr a v).stage = s.stage := rfl
@[simp] theorem State.wr_commitQ (s : State) (a : Nat) (v : Word) : (s.wr a v).commitQ = s.commitQ := rfl
@[simp] theorem State.wr_commits (s : State) (a : Nat) (v : Word) : (s.wr a v).commits = s.commits := rfl
@[simp] theorem State.wr_frcNs (s : State) (a : Nat) (v : Word) : (s.wr a v).frcNs = s.frcNs := rfl
@[simp] theorem State.wr_frcFrac (s : State) (a : Nat) (v : Word) : (s.wr a v).frcFrac = s.frcFrac := rfl
@[simp] theorem State.wr_msix (s : State) (a : Nat) (v : Word) : (s.wr a v).msix = s.msix := rfl
@[simp] theorem State.wr_resets (s : State) (a : Nat) (v : Word) : (s.wr a v).resets = s.resets := rfl
@[simp] theorem State.wr_lrn (s : State) (a : Nat) (v : Word) : (s.wr a v).lrn = s.lrn := rfl
@[simp] theorem State.wr_bsn (s : State) (a : Nat) (v : Word) : (s.wr a v).bsn = s.bsn := rfl
@[simp] theorem State.wr_meters (s : State) (a : Nat) (v : Word) : (s.wr a v).meters = s.meters := rfl
@[simp] theorem State.wr_egr (s : State) (a : Nat) (v : Word) : (s.wr a v).egr = s.egr := rfl
@[simp] theorem State.wr_slu (s : State) (a : Nat) (v : Word) : (s.wr a v).slu = s.slu := rfl
@[simp] theorem State.wr_bud (s : State) (a : Nat) (v : Word) : (s.wr a v).bud = s.bud := rfl
@[simp] theorem State.wr_fre (s : State) (a : Nat) (v : Word) : (s.wr a v).fre = s.fre := rfl
@[simp] theorem State.wr_fgd (s : State) (a : Nat) (v : Word) : (s.wr a v).fgd = s.fgd := rfl
@[simp] theorem State.wr_had (s : State) (a : Nat) (v : Word) : (s.wr a v).had = s.had := rfl
@[simp] theorem State.wr_ept (s : State) (a : Nat) (v : Word) : (s.wr a v).ept = s.ept := rfl
@[simp] theorem State.wr_hif (s : State) (a : Nat) (v : Word) : (s.wr a v).hif = s.hif := rfl
@[simp] theorem State.wr_can (s : State) (a : Nat) (v : Word) : (s.wr a v).can = s.can := rfl
@[simp] theorem State.wr_lin (s : State) (a : Nat) (v : Word) : (s.wr a v).lin = s.lin := rfl
@[simp] theorem State.wr_cfl (s : State) (a : Nat) (v : Word) : (s.wr a v).cfl = s.cfl := rfl
@[simp] theorem State.wr_vlt (s : State) (a : Nat) (v : Word) : (s.wr a v).vlt = s.vlt := rfl
@[simp] theorem State.wr_auth (s : State) (a : Nat) (v : Word) : (s.wr a v).auth = s.auth := rfl
@[simp] theorem State.wr_twn (s : State) (a : Nat) (v : Word) : (s.wr a v).twn = s.twn := rfl
@[simp] theorem State.wr_tim (s : State) (a : Nat) (v : Word) : (s.wr a v).tim = s.tim := rfl
@[simp] theorem State.wr_pwr (s : State) (a : Nat) (v : Word) : (s.wr a v).pwr = s.pwr := rfl
@[simp] theorem State.wr_mgs (s : State) (a : Nat) (v : Word) : (s.wr a v).mgs = s.mgs := rfl
@[simp] theorem State.wr_svc (s : State) (a : Nat) (v : Word) : (s.wr a v).svc = s.svc := rfl
@[simp] theorem State.wr_inj (s : State) (a : Nat) (v : Word) : (s.wr a v).inj = s.inj := rfl
@[simp] theorem State.wr_out (s : State) (a : Nat) (v : Word) : (s.wr a v).out = s.out := rfl
@[simp] theorem State.wr_free (s : State) (a : Nat) (v : Word) : (s.wr a v).free = s.free := rfl
@[simp] theorem State.wr_pending (s : State) (a : Nat) (v : Word) : (s.wr a v).pending = s.pending := rfl

/-! `emit` writes out. -/

@[simp] theorem State.emit_regs (s : State) (o : Output) : (s.emit o).regs = s.regs := rfl
@[simp] theorem State.emit_slots (s : State) (o : Output) : (s.emit o).slots = s.slots := rfl
@[simp] theorem State.emit_fences (s : State) (o : Output) : (s.emit o).fences = s.fences := rfl
@[simp] theorem State.emit_holds (s : State) (o : Output) : (s.emit o).holds = s.holds := rfl
@[simp] theorem State.emit_snaps (s : State) (o : Output) : (s.emit o).snaps = s.snaps := rfl
@[simp] theorem State.emit_tbl (s : State) (o : Output) : (s.emit o).tbl = s.tbl := rfl
@[simp] theorem State.emit_stage (s : State) (o : Output) : (s.emit o).stage = s.stage := rfl
@[simp] theorem State.emit_commitQ (s : State) (o : Output) : (s.emit o).commitQ = s.commitQ := rfl
@[simp] theorem State.emit_commits (s : State) (o : Output) : (s.emit o).commits = s.commits := rfl
@[simp] theorem State.emit_frcNs (s : State) (o : Output) : (s.emit o).frcNs = s.frcNs := rfl
@[simp] theorem State.emit_frcFrac (s : State) (o : Output) : (s.emit o).frcFrac = s.frcFrac := rfl
@[simp] theorem State.emit_msix (s : State) (o : Output) : (s.emit o).msix = s.msix := rfl
@[simp] theorem State.emit_resets (s : State) (o : Output) : (s.emit o).resets = s.resets := rfl
@[simp] theorem State.emit_lrn (s : State) (o : Output) : (s.emit o).lrn = s.lrn := rfl
@[simp] theorem State.emit_bsn (s : State) (o : Output) : (s.emit o).bsn = s.bsn := rfl
@[simp] theorem State.emit_meters (s : State) (o : Output) : (s.emit o).meters = s.meters := rfl
@[simp] theorem State.emit_egr (s : State) (o : Output) : (s.emit o).egr = s.egr := rfl
@[simp] theorem State.emit_slu (s : State) (o : Output) : (s.emit o).slu = s.slu := rfl
@[simp] theorem State.emit_bud (s : State) (o : Output) : (s.emit o).bud = s.bud := rfl
@[simp] theorem State.emit_fre (s : State) (o : Output) : (s.emit o).fre = s.fre := rfl
@[simp] theorem State.emit_fgd (s : State) (o : Output) : (s.emit o).fgd = s.fgd := rfl
@[simp] theorem State.emit_had (s : State) (o : Output) : (s.emit o).had = s.had := rfl
@[simp] theorem State.emit_ept (s : State) (o : Output) : (s.emit o).ept = s.ept := rfl
@[simp] theorem State.emit_hif (s : State) (o : Output) : (s.emit o).hif = s.hif := rfl
@[simp] theorem State.emit_can (s : State) (o : Output) : (s.emit o).can = s.can := rfl
@[simp] theorem State.emit_lin (s : State) (o : Output) : (s.emit o).lin = s.lin := rfl
@[simp] theorem State.emit_cfl (s : State) (o : Output) : (s.emit o).cfl = s.cfl := rfl
@[simp] theorem State.emit_vlt (s : State) (o : Output) : (s.emit o).vlt = s.vlt := rfl
@[simp] theorem State.emit_auth (s : State) (o : Output) : (s.emit o).auth = s.auth := rfl
@[simp] theorem State.emit_twn (s : State) (o : Output) : (s.emit o).twn = s.twn := rfl
@[simp] theorem State.emit_tim (s : State) (o : Output) : (s.emit o).tim = s.tim := rfl
@[simp] theorem State.emit_pwr (s : State) (o : Output) : (s.emit o).pwr = s.pwr := rfl
@[simp] theorem State.emit_mgs (s : State) (o : Output) : (s.emit o).mgs = s.mgs := rfl
@[simp] theorem State.emit_svc (s : State) (o : Output) : (s.emit o).svc = s.svc := rfl
@[simp] theorem State.emit_inj (s : State) (o : Output) : (s.emit o).inj = s.inj := rfl
@[simp] theorem State.emit_free (s : State) (o : Output) : (s.emit o).free = s.free := rfl
@[simp] theorem State.emit_pending (s : State) (o : Output) : (s.emit o).pending = s.pending := rfl

/-! `logReq` writes mgs. -/

@[simp] theorem State.logReq_regs (s : State) (type : Nat) (source : Nat) (payload : List Byte) : (s.logReq type source payload).regs = s.regs := rfl
@[simp] theorem State.logReq_slots (s : State) (type : Nat) (source : Nat) (payload : List Byte) : (s.logReq type source payload).slots = s.slots := rfl
@[simp] theorem State.logReq_fences (s : State) (type : Nat) (source : Nat) (payload : List Byte) : (s.logReq type source payload).fences = s.fences := rfl
@[simp] theorem State.logReq_holds (s : State) (type : Nat) (source : Nat) (payload : List Byte) : (s.logReq type source payload).holds = s.holds := rfl
@[simp] theorem State.logReq_snaps (s : State) (type : Nat) (source : Nat) (payload : List Byte) : (s.logReq type source payload).snaps = s.snaps := rfl
@[simp] theorem State.logReq_tbl (s : State) (type : Nat) (source : Nat) (payload : List Byte) : (s.logReq type source payload).tbl = s.tbl := rfl
@[simp] theorem State.logReq_stage (s : State) (type : Nat) (source : Nat) (payload : List Byte) : (s.logReq type source payload).stage = s.stage := rfl
@[simp] theorem State.logReq_commitQ (s : State) (type : Nat) (source : Nat) (payload : List Byte) : (s.logReq type source payload).commitQ = s.commitQ := rfl
@[simp] theorem State.logReq_commits (s : State) (type : Nat) (source : Nat) (payload : List Byte) : (s.logReq type source payload).commits = s.commits := rfl
@[simp] theorem State.logReq_frcNs (s : State) (type : Nat) (source : Nat) (payload : List Byte) : (s.logReq type source payload).frcNs = s.frcNs := rfl
@[simp] theorem State.logReq_frcFrac (s : State) (type : Nat) (source : Nat) (payload : List Byte) : (s.logReq type source payload).frcFrac = s.frcFrac := rfl
@[simp] theorem State.logReq_msix (s : State) (type : Nat) (source : Nat) (payload : List Byte) : (s.logReq type source payload).msix = s.msix := rfl
@[simp] theorem State.logReq_resets (s : State) (type : Nat) (source : Nat) (payload : List Byte) : (s.logReq type source payload).resets = s.resets := rfl
@[simp] theorem State.logReq_lrn (s : State) (type : Nat) (source : Nat) (payload : List Byte) : (s.logReq type source payload).lrn = s.lrn := rfl
@[simp] theorem State.logReq_bsn (s : State) (type : Nat) (source : Nat) (payload : List Byte) : (s.logReq type source payload).bsn = s.bsn := rfl
@[simp] theorem State.logReq_meters (s : State) (type : Nat) (source : Nat) (payload : List Byte) : (s.logReq type source payload).meters = s.meters := rfl
@[simp] theorem State.logReq_egr (s : State) (type : Nat) (source : Nat) (payload : List Byte) : (s.logReq type source payload).egr = s.egr := rfl
@[simp] theorem State.logReq_slu (s : State) (type : Nat) (source : Nat) (payload : List Byte) : (s.logReq type source payload).slu = s.slu := rfl
@[simp] theorem State.logReq_bud (s : State) (type : Nat) (source : Nat) (payload : List Byte) : (s.logReq type source payload).bud = s.bud := rfl
@[simp] theorem State.logReq_fre (s : State) (type : Nat) (source : Nat) (payload : List Byte) : (s.logReq type source payload).fre = s.fre := rfl
@[simp] theorem State.logReq_fgd (s : State) (type : Nat) (source : Nat) (payload : List Byte) : (s.logReq type source payload).fgd = s.fgd := rfl
@[simp] theorem State.logReq_had (s : State) (type : Nat) (source : Nat) (payload : List Byte) : (s.logReq type source payload).had = s.had := rfl
@[simp] theorem State.logReq_ept (s : State) (type : Nat) (source : Nat) (payload : List Byte) : (s.logReq type source payload).ept = s.ept := rfl
@[simp] theorem State.logReq_hif (s : State) (type : Nat) (source : Nat) (payload : List Byte) : (s.logReq type source payload).hif = s.hif := rfl
@[simp] theorem State.logReq_can (s : State) (type : Nat) (source : Nat) (payload : List Byte) : (s.logReq type source payload).can = s.can := rfl
@[simp] theorem State.logReq_lin (s : State) (type : Nat) (source : Nat) (payload : List Byte) : (s.logReq type source payload).lin = s.lin := rfl
@[simp] theorem State.logReq_cfl (s : State) (type : Nat) (source : Nat) (payload : List Byte) : (s.logReq type source payload).cfl = s.cfl := rfl
@[simp] theorem State.logReq_vlt (s : State) (type : Nat) (source : Nat) (payload : List Byte) : (s.logReq type source payload).vlt = s.vlt := rfl
@[simp] theorem State.logReq_auth (s : State) (type : Nat) (source : Nat) (payload : List Byte) : (s.logReq type source payload).auth = s.auth := rfl
@[simp] theorem State.logReq_twn (s : State) (type : Nat) (source : Nat) (payload : List Byte) : (s.logReq type source payload).twn = s.twn := rfl
@[simp] theorem State.logReq_tim (s : State) (type : Nat) (source : Nat) (payload : List Byte) : (s.logReq type source payload).tim = s.tim := rfl
@[simp] theorem State.logReq_pwr (s : State) (type : Nat) (source : Nat) (payload : List Byte) : (s.logReq type source payload).pwr = s.pwr := rfl
@[simp] theorem State.logReq_svc (s : State) (type : Nat) (source : Nat) (payload : List Byte) : (s.logReq type source payload).svc = s.svc := rfl
@[simp] theorem State.logReq_inj (s : State) (type : Nat) (source : Nat) (payload : List Byte) : (s.logReq type source payload).inj = s.inj := rfl
@[simp] theorem State.logReq_out (s : State) (type : Nat) (source : Nat) (payload : List Byte) : (s.logReq type source payload).out = s.out := rfl
@[simp] theorem State.logReq_free (s : State) (type : Nat) (source : Nat) (payload : List Byte) : (s.logReq type source payload).free = s.free := rfl
@[simp] theorem State.logReq_pending (s : State) (type : Nat) (source : Nat) (payload : List Byte) : (s.logReq type source payload).pending = s.pending := rfl

/-! `setSlot` writes slots. -/

@[simp] theorem State.setSlot_regs (s : State) (i : Nat) (v : Slot) : (s.setSlot i v).regs = s.regs := rfl
@[simp] theorem State.setSlot_fences (s : State) (i : Nat) (v : Slot) : (s.setSlot i v).fences = s.fences := rfl
@[simp] theorem State.setSlot_holds (s : State) (i : Nat) (v : Slot) : (s.setSlot i v).holds = s.holds := rfl
@[simp] theorem State.setSlot_snaps (s : State) (i : Nat) (v : Slot) : (s.setSlot i v).snaps = s.snaps := rfl
@[simp] theorem State.setSlot_tbl (s : State) (i : Nat) (v : Slot) : (s.setSlot i v).tbl = s.tbl := rfl
@[simp] theorem State.setSlot_stage (s : State) (i : Nat) (v : Slot) : (s.setSlot i v).stage = s.stage := rfl
@[simp] theorem State.setSlot_commitQ (s : State) (i : Nat) (v : Slot) : (s.setSlot i v).commitQ = s.commitQ := rfl
@[simp] theorem State.setSlot_commits (s : State) (i : Nat) (v : Slot) : (s.setSlot i v).commits = s.commits := rfl
@[simp] theorem State.setSlot_frcNs (s : State) (i : Nat) (v : Slot) : (s.setSlot i v).frcNs = s.frcNs := rfl
@[simp] theorem State.setSlot_frcFrac (s : State) (i : Nat) (v : Slot) : (s.setSlot i v).frcFrac = s.frcFrac := rfl
@[simp] theorem State.setSlot_msix (s : State) (i : Nat) (v : Slot) : (s.setSlot i v).msix = s.msix := rfl
@[simp] theorem State.setSlot_resets (s : State) (i : Nat) (v : Slot) : (s.setSlot i v).resets = s.resets := rfl
@[simp] theorem State.setSlot_lrn (s : State) (i : Nat) (v : Slot) : (s.setSlot i v).lrn = s.lrn := rfl
@[simp] theorem State.setSlot_bsn (s : State) (i : Nat) (v : Slot) : (s.setSlot i v).bsn = s.bsn := rfl
@[simp] theorem State.setSlot_meters (s : State) (i : Nat) (v : Slot) : (s.setSlot i v).meters = s.meters := rfl
@[simp] theorem State.setSlot_egr (s : State) (i : Nat) (v : Slot) : (s.setSlot i v).egr = s.egr := rfl
@[simp] theorem State.setSlot_slu (s : State) (i : Nat) (v : Slot) : (s.setSlot i v).slu = s.slu := rfl
@[simp] theorem State.setSlot_bud (s : State) (i : Nat) (v : Slot) : (s.setSlot i v).bud = s.bud := rfl
@[simp] theorem State.setSlot_fre (s : State) (i : Nat) (v : Slot) : (s.setSlot i v).fre = s.fre := rfl
@[simp] theorem State.setSlot_fgd (s : State) (i : Nat) (v : Slot) : (s.setSlot i v).fgd = s.fgd := rfl
@[simp] theorem State.setSlot_had (s : State) (i : Nat) (v : Slot) : (s.setSlot i v).had = s.had := rfl
@[simp] theorem State.setSlot_ept (s : State) (i : Nat) (v : Slot) : (s.setSlot i v).ept = s.ept := rfl
@[simp] theorem State.setSlot_hif (s : State) (i : Nat) (v : Slot) : (s.setSlot i v).hif = s.hif := rfl
@[simp] theorem State.setSlot_can (s : State) (i : Nat) (v : Slot) : (s.setSlot i v).can = s.can := rfl
@[simp] theorem State.setSlot_lin (s : State) (i : Nat) (v : Slot) : (s.setSlot i v).lin = s.lin := rfl
@[simp] theorem State.setSlot_cfl (s : State) (i : Nat) (v : Slot) : (s.setSlot i v).cfl = s.cfl := rfl
@[simp] theorem State.setSlot_vlt (s : State) (i : Nat) (v : Slot) : (s.setSlot i v).vlt = s.vlt := rfl
@[simp] theorem State.setSlot_auth (s : State) (i : Nat) (v : Slot) : (s.setSlot i v).auth = s.auth := rfl
@[simp] theorem State.setSlot_twn (s : State) (i : Nat) (v : Slot) : (s.setSlot i v).twn = s.twn := rfl
@[simp] theorem State.setSlot_tim (s : State) (i : Nat) (v : Slot) : (s.setSlot i v).tim = s.tim := rfl
@[simp] theorem State.setSlot_pwr (s : State) (i : Nat) (v : Slot) : (s.setSlot i v).pwr = s.pwr := rfl
@[simp] theorem State.setSlot_mgs (s : State) (i : Nat) (v : Slot) : (s.setSlot i v).mgs = s.mgs := rfl
@[simp] theorem State.setSlot_svc (s : State) (i : Nat) (v : Slot) : (s.setSlot i v).svc = s.svc := rfl
@[simp] theorem State.setSlot_inj (s : State) (i : Nat) (v : Slot) : (s.setSlot i v).inj = s.inj := rfl
@[simp] theorem State.setSlot_out (s : State) (i : Nat) (v : Slot) : (s.setSlot i v).out = s.out := rfl
@[simp] theorem State.setSlot_free (s : State) (i : Nat) (v : Slot) : (s.setSlot i v).free = s.free := rfl
@[simp] theorem State.setSlot_pending (s : State) (i : Nat) (v : Slot) : (s.setSlot i v).pending = s.pending := rfl

/-! `violSet` writes hif. -/

@[simp] theorem State.violSet_regs (s : State) : (s.violSet).regs = s.regs := rfl
@[simp] theorem State.violSet_slots (s : State) : (s.violSet).slots = s.slots := rfl
@[simp] theorem State.violSet_fences (s : State) : (s.violSet).fences = s.fences := rfl
@[simp] theorem State.violSet_holds (s : State) : (s.violSet).holds = s.holds := rfl
@[simp] theorem State.violSet_snaps (s : State) : (s.violSet).snaps = s.snaps := rfl
@[simp] theorem State.violSet_tbl (s : State) : (s.violSet).tbl = s.tbl := rfl
@[simp] theorem State.violSet_stage (s : State) : (s.violSet).stage = s.stage := rfl
@[simp] theorem State.violSet_commitQ (s : State) : (s.violSet).commitQ = s.commitQ := rfl
@[simp] theorem State.violSet_commits (s : State) : (s.violSet).commits = s.commits := rfl
@[simp] theorem State.violSet_frcNs (s : State) : (s.violSet).frcNs = s.frcNs := rfl
@[simp] theorem State.violSet_frcFrac (s : State) : (s.violSet).frcFrac = s.frcFrac := rfl
@[simp] theorem State.violSet_msix (s : State) : (s.violSet).msix = s.msix := rfl
@[simp] theorem State.violSet_resets (s : State) : (s.violSet).resets = s.resets := rfl
@[simp] theorem State.violSet_lrn (s : State) : (s.violSet).lrn = s.lrn := rfl
@[simp] theorem State.violSet_bsn (s : State) : (s.violSet).bsn = s.bsn := rfl
@[simp] theorem State.violSet_meters (s : State) : (s.violSet).meters = s.meters := rfl
@[simp] theorem State.violSet_egr (s : State) : (s.violSet).egr = s.egr := rfl
@[simp] theorem State.violSet_slu (s : State) : (s.violSet).slu = s.slu := rfl
@[simp] theorem State.violSet_bud (s : State) : (s.violSet).bud = s.bud := rfl
@[simp] theorem State.violSet_fre (s : State) : (s.violSet).fre = s.fre := rfl
@[simp] theorem State.violSet_fgd (s : State) : (s.violSet).fgd = s.fgd := rfl
@[simp] theorem State.violSet_had (s : State) : (s.violSet).had = s.had := rfl
@[simp] theorem State.violSet_ept (s : State) : (s.violSet).ept = s.ept := rfl
@[simp] theorem State.violSet_can (s : State) : (s.violSet).can = s.can := rfl
@[simp] theorem State.violSet_lin (s : State) : (s.violSet).lin = s.lin := rfl
@[simp] theorem State.violSet_cfl (s : State) : (s.violSet).cfl = s.cfl := rfl
@[simp] theorem State.violSet_vlt (s : State) : (s.violSet).vlt = s.vlt := rfl
@[simp] theorem State.violSet_auth (s : State) : (s.violSet).auth = s.auth := rfl
@[simp] theorem State.violSet_twn (s : State) : (s.violSet).twn = s.twn := rfl
@[simp] theorem State.violSet_tim (s : State) : (s.violSet).tim = s.tim := rfl
@[simp] theorem State.violSet_pwr (s : State) : (s.violSet).pwr = s.pwr := rfl
@[simp] theorem State.violSet_mgs (s : State) : (s.violSet).mgs = s.mgs := rfl
@[simp] theorem State.violSet_svc (s : State) : (s.violSet).svc = s.svc := rfl
@[simp] theorem State.violSet_inj (s : State) : (s.violSet).inj = s.inj := rfl
@[simp] theorem State.violSet_out (s : State) : (s.violSet).out = s.out := rfl
@[simp] theorem State.violSet_free (s : State) : (s.violSet).free = s.free := rfl
@[simp] theorem State.violSet_pending (s : State) : (s.violSet).pending = s.pending := rfl

/-! `present` writes inj. -/

@[simp] theorem State.present_regs (s : State) (ingress : Nat) (target : Nat) (bus : Bool) (bytes : List Byte) : (s.present ingress target bus bytes).regs = s.regs := rfl
@[simp] theorem State.present_slots (s : State) (ingress : Nat) (target : Nat) (bus : Bool) (bytes : List Byte) : (s.present ingress target bus bytes).slots = s.slots := rfl
@[simp] theorem State.present_fences (s : State) (ingress : Nat) (target : Nat) (bus : Bool) (bytes : List Byte) : (s.present ingress target bus bytes).fences = s.fences := rfl
@[simp] theorem State.present_holds (s : State) (ingress : Nat) (target : Nat) (bus : Bool) (bytes : List Byte) : (s.present ingress target bus bytes).holds = s.holds := rfl
@[simp] theorem State.present_snaps (s : State) (ingress : Nat) (target : Nat) (bus : Bool) (bytes : List Byte) : (s.present ingress target bus bytes).snaps = s.snaps := rfl
@[simp] theorem State.present_tbl (s : State) (ingress : Nat) (target : Nat) (bus : Bool) (bytes : List Byte) : (s.present ingress target bus bytes).tbl = s.tbl := rfl
@[simp] theorem State.present_stage (s : State) (ingress : Nat) (target : Nat) (bus : Bool) (bytes : List Byte) : (s.present ingress target bus bytes).stage = s.stage := rfl
@[simp] theorem State.present_commitQ (s : State) (ingress : Nat) (target : Nat) (bus : Bool) (bytes : List Byte) : (s.present ingress target bus bytes).commitQ = s.commitQ := rfl
@[simp] theorem State.present_commits (s : State) (ingress : Nat) (target : Nat) (bus : Bool) (bytes : List Byte) : (s.present ingress target bus bytes).commits = s.commits := rfl
@[simp] theorem State.present_frcNs (s : State) (ingress : Nat) (target : Nat) (bus : Bool) (bytes : List Byte) : (s.present ingress target bus bytes).frcNs = s.frcNs := rfl
@[simp] theorem State.present_frcFrac (s : State) (ingress : Nat) (target : Nat) (bus : Bool) (bytes : List Byte) : (s.present ingress target bus bytes).frcFrac = s.frcFrac := rfl
@[simp] theorem State.present_msix (s : State) (ingress : Nat) (target : Nat) (bus : Bool) (bytes : List Byte) : (s.present ingress target bus bytes).msix = s.msix := rfl
@[simp] theorem State.present_resets (s : State) (ingress : Nat) (target : Nat) (bus : Bool) (bytes : List Byte) : (s.present ingress target bus bytes).resets = s.resets := rfl
@[simp] theorem State.present_lrn (s : State) (ingress : Nat) (target : Nat) (bus : Bool) (bytes : List Byte) : (s.present ingress target bus bytes).lrn = s.lrn := rfl
@[simp] theorem State.present_bsn (s : State) (ingress : Nat) (target : Nat) (bus : Bool) (bytes : List Byte) : (s.present ingress target bus bytes).bsn = s.bsn := rfl
@[simp] theorem State.present_meters (s : State) (ingress : Nat) (target : Nat) (bus : Bool) (bytes : List Byte) : (s.present ingress target bus bytes).meters = s.meters := rfl
@[simp] theorem State.present_egr (s : State) (ingress : Nat) (target : Nat) (bus : Bool) (bytes : List Byte) : (s.present ingress target bus bytes).egr = s.egr := rfl
@[simp] theorem State.present_slu (s : State) (ingress : Nat) (target : Nat) (bus : Bool) (bytes : List Byte) : (s.present ingress target bus bytes).slu = s.slu := rfl
@[simp] theorem State.present_bud (s : State) (ingress : Nat) (target : Nat) (bus : Bool) (bytes : List Byte) : (s.present ingress target bus bytes).bud = s.bud := rfl
@[simp] theorem State.present_fre (s : State) (ingress : Nat) (target : Nat) (bus : Bool) (bytes : List Byte) : (s.present ingress target bus bytes).fre = s.fre := rfl
@[simp] theorem State.present_fgd (s : State) (ingress : Nat) (target : Nat) (bus : Bool) (bytes : List Byte) : (s.present ingress target bus bytes).fgd = s.fgd := rfl
@[simp] theorem State.present_had (s : State) (ingress : Nat) (target : Nat) (bus : Bool) (bytes : List Byte) : (s.present ingress target bus bytes).had = s.had := rfl
@[simp] theorem State.present_ept (s : State) (ingress : Nat) (target : Nat) (bus : Bool) (bytes : List Byte) : (s.present ingress target bus bytes).ept = s.ept := rfl
@[simp] theorem State.present_hif (s : State) (ingress : Nat) (target : Nat) (bus : Bool) (bytes : List Byte) : (s.present ingress target bus bytes).hif = s.hif := rfl
@[simp] theorem State.present_can (s : State) (ingress : Nat) (target : Nat) (bus : Bool) (bytes : List Byte) : (s.present ingress target bus bytes).can = s.can := rfl
@[simp] theorem State.present_lin (s : State) (ingress : Nat) (target : Nat) (bus : Bool) (bytes : List Byte) : (s.present ingress target bus bytes).lin = s.lin := rfl
@[simp] theorem State.present_cfl (s : State) (ingress : Nat) (target : Nat) (bus : Bool) (bytes : List Byte) : (s.present ingress target bus bytes).cfl = s.cfl := rfl
@[simp] theorem State.present_vlt (s : State) (ingress : Nat) (target : Nat) (bus : Bool) (bytes : List Byte) : (s.present ingress target bus bytes).vlt = s.vlt := rfl
@[simp] theorem State.present_auth (s : State) (ingress : Nat) (target : Nat) (bus : Bool) (bytes : List Byte) : (s.present ingress target bus bytes).auth = s.auth := rfl
@[simp] theorem State.present_twn (s : State) (ingress : Nat) (target : Nat) (bus : Bool) (bytes : List Byte) : (s.present ingress target bus bytes).twn = s.twn := rfl
@[simp] theorem State.present_tim (s : State) (ingress : Nat) (target : Nat) (bus : Bool) (bytes : List Byte) : (s.present ingress target bus bytes).tim = s.tim := rfl
@[simp] theorem State.present_pwr (s : State) (ingress : Nat) (target : Nat) (bus : Bool) (bytes : List Byte) : (s.present ingress target bus bytes).pwr = s.pwr := rfl
@[simp] theorem State.present_mgs (s : State) (ingress : Nat) (target : Nat) (bus : Bool) (bytes : List Byte) : (s.present ingress target bus bytes).mgs = s.mgs := rfl
@[simp] theorem State.present_svc (s : State) (ingress : Nat) (target : Nat) (bus : Bool) (bytes : List Byte) : (s.present ingress target bus bytes).svc = s.svc := rfl
@[simp] theorem State.present_out (s : State) (ingress : Nat) (target : Nat) (bus : Bool) (bytes : List Byte) : (s.present ingress target bus bytes).out = s.out := rfl
@[simp] theorem State.present_free (s : State) (ingress : Nat) (target : Nat) (bus : Bool) (bytes : List Byte) : (s.present ingress target bus bytes).free = s.free := rfl
@[simp] theorem State.present_pending (s : State) (ingress : Nat) (target : Nat) (bus : Bool) (bytes : List Byte) : (s.present ingress target bus bytes).pending = s.pending := rfl

/-! `sendOwn` writes inj. -/

@[simp] theorem State.sendOwn_regs (s : State) (port : Nat) (tc : Nat) (bytes : List Byte) (own : Option OwnMsg) : (s.sendOwn port tc bytes own).regs = s.regs := rfl
@[simp] theorem State.sendOwn_slots (s : State) (port : Nat) (tc : Nat) (bytes : List Byte) (own : Option OwnMsg) : (s.sendOwn port tc bytes own).slots = s.slots := rfl
@[simp] theorem State.sendOwn_fences (s : State) (port : Nat) (tc : Nat) (bytes : List Byte) (own : Option OwnMsg) : (s.sendOwn port tc bytes own).fences = s.fences := rfl
@[simp] theorem State.sendOwn_holds (s : State) (port : Nat) (tc : Nat) (bytes : List Byte) (own : Option OwnMsg) : (s.sendOwn port tc bytes own).holds = s.holds := rfl
@[simp] theorem State.sendOwn_snaps (s : State) (port : Nat) (tc : Nat) (bytes : List Byte) (own : Option OwnMsg) : (s.sendOwn port tc bytes own).snaps = s.snaps := rfl
@[simp] theorem State.sendOwn_tbl (s : State) (port : Nat) (tc : Nat) (bytes : List Byte) (own : Option OwnMsg) : (s.sendOwn port tc bytes own).tbl = s.tbl := rfl
@[simp] theorem State.sendOwn_stage (s : State) (port : Nat) (tc : Nat) (bytes : List Byte) (own : Option OwnMsg) : (s.sendOwn port tc bytes own).stage = s.stage := rfl
@[simp] theorem State.sendOwn_commitQ (s : State) (port : Nat) (tc : Nat) (bytes : List Byte) (own : Option OwnMsg) : (s.sendOwn port tc bytes own).commitQ = s.commitQ := rfl
@[simp] theorem State.sendOwn_commits (s : State) (port : Nat) (tc : Nat) (bytes : List Byte) (own : Option OwnMsg) : (s.sendOwn port tc bytes own).commits = s.commits := rfl
@[simp] theorem State.sendOwn_frcNs (s : State) (port : Nat) (tc : Nat) (bytes : List Byte) (own : Option OwnMsg) : (s.sendOwn port tc bytes own).frcNs = s.frcNs := rfl
@[simp] theorem State.sendOwn_frcFrac (s : State) (port : Nat) (tc : Nat) (bytes : List Byte) (own : Option OwnMsg) : (s.sendOwn port tc bytes own).frcFrac = s.frcFrac := rfl
@[simp] theorem State.sendOwn_msix (s : State) (port : Nat) (tc : Nat) (bytes : List Byte) (own : Option OwnMsg) : (s.sendOwn port tc bytes own).msix = s.msix := rfl
@[simp] theorem State.sendOwn_resets (s : State) (port : Nat) (tc : Nat) (bytes : List Byte) (own : Option OwnMsg) : (s.sendOwn port tc bytes own).resets = s.resets := rfl
@[simp] theorem State.sendOwn_lrn (s : State) (port : Nat) (tc : Nat) (bytes : List Byte) (own : Option OwnMsg) : (s.sendOwn port tc bytes own).lrn = s.lrn := rfl
@[simp] theorem State.sendOwn_bsn (s : State) (port : Nat) (tc : Nat) (bytes : List Byte) (own : Option OwnMsg) : (s.sendOwn port tc bytes own).bsn = s.bsn := rfl
@[simp] theorem State.sendOwn_meters (s : State) (port : Nat) (tc : Nat) (bytes : List Byte) (own : Option OwnMsg) : (s.sendOwn port tc bytes own).meters = s.meters := rfl
@[simp] theorem State.sendOwn_egr (s : State) (port : Nat) (tc : Nat) (bytes : List Byte) (own : Option OwnMsg) : (s.sendOwn port tc bytes own).egr = s.egr := rfl
@[simp] theorem State.sendOwn_slu (s : State) (port : Nat) (tc : Nat) (bytes : List Byte) (own : Option OwnMsg) : (s.sendOwn port tc bytes own).slu = s.slu := rfl
@[simp] theorem State.sendOwn_bud (s : State) (port : Nat) (tc : Nat) (bytes : List Byte) (own : Option OwnMsg) : (s.sendOwn port tc bytes own).bud = s.bud := rfl
@[simp] theorem State.sendOwn_fre (s : State) (port : Nat) (tc : Nat) (bytes : List Byte) (own : Option OwnMsg) : (s.sendOwn port tc bytes own).fre = s.fre := rfl
@[simp] theorem State.sendOwn_fgd (s : State) (port : Nat) (tc : Nat) (bytes : List Byte) (own : Option OwnMsg) : (s.sendOwn port tc bytes own).fgd = s.fgd := rfl
@[simp] theorem State.sendOwn_had (s : State) (port : Nat) (tc : Nat) (bytes : List Byte) (own : Option OwnMsg) : (s.sendOwn port tc bytes own).had = s.had := rfl
@[simp] theorem State.sendOwn_ept (s : State) (port : Nat) (tc : Nat) (bytes : List Byte) (own : Option OwnMsg) : (s.sendOwn port tc bytes own).ept = s.ept := rfl
@[simp] theorem State.sendOwn_hif (s : State) (port : Nat) (tc : Nat) (bytes : List Byte) (own : Option OwnMsg) : (s.sendOwn port tc bytes own).hif = s.hif := rfl
@[simp] theorem State.sendOwn_can (s : State) (port : Nat) (tc : Nat) (bytes : List Byte) (own : Option OwnMsg) : (s.sendOwn port tc bytes own).can = s.can := rfl
@[simp] theorem State.sendOwn_lin (s : State) (port : Nat) (tc : Nat) (bytes : List Byte) (own : Option OwnMsg) : (s.sendOwn port tc bytes own).lin = s.lin := rfl
@[simp] theorem State.sendOwn_cfl (s : State) (port : Nat) (tc : Nat) (bytes : List Byte) (own : Option OwnMsg) : (s.sendOwn port tc bytes own).cfl = s.cfl := rfl
@[simp] theorem State.sendOwn_vlt (s : State) (port : Nat) (tc : Nat) (bytes : List Byte) (own : Option OwnMsg) : (s.sendOwn port tc bytes own).vlt = s.vlt := rfl
@[simp] theorem State.sendOwn_auth (s : State) (port : Nat) (tc : Nat) (bytes : List Byte) (own : Option OwnMsg) : (s.sendOwn port tc bytes own).auth = s.auth := rfl
@[simp] theorem State.sendOwn_twn (s : State) (port : Nat) (tc : Nat) (bytes : List Byte) (own : Option OwnMsg) : (s.sendOwn port tc bytes own).twn = s.twn := rfl
@[simp] theorem State.sendOwn_tim (s : State) (port : Nat) (tc : Nat) (bytes : List Byte) (own : Option OwnMsg) : (s.sendOwn port tc bytes own).tim = s.tim := rfl
@[simp] theorem State.sendOwn_pwr (s : State) (port : Nat) (tc : Nat) (bytes : List Byte) (own : Option OwnMsg) : (s.sendOwn port tc bytes own).pwr = s.pwr := rfl
@[simp] theorem State.sendOwn_mgs (s : State) (port : Nat) (tc : Nat) (bytes : List Byte) (own : Option OwnMsg) : (s.sendOwn port tc bytes own).mgs = s.mgs := rfl
@[simp] theorem State.sendOwn_svc (s : State) (port : Nat) (tc : Nat) (bytes : List Byte) (own : Option OwnMsg) : (s.sendOwn port tc bytes own).svc = s.svc := rfl
@[simp] theorem State.sendOwn_out (s : State) (port : Nat) (tc : Nat) (bytes : List Byte) (own : Option OwnMsg) : (s.sendOwn port tc bytes own).out = s.out := rfl
@[simp] theorem State.sendOwn_free (s : State) (port : Nat) (tc : Nat) (bytes : List Byte) (own : Option OwnMsg) : (s.sendOwn port tc bytes own).free = s.free := rfl
@[simp] theorem State.sendOwn_pending (s : State) (port : Nat) (tc : Nat) (bytes : List Byte) (own : Option OwnMsg) : (s.sendOwn port tc bytes own).pending = s.pending := rfl

/-! `setTent` writes tbl. -/

@[simp] theorem State.setTent_regs (s : State) (t : Nat) (i : Nat) (e : BitVec 512) : (s.setTent t i e).regs = s.regs := rfl
@[simp] theorem State.setTent_slots (s : State) (t : Nat) (i : Nat) (e : BitVec 512) : (s.setTent t i e).slots = s.slots := rfl
@[simp] theorem State.setTent_fences (s : State) (t : Nat) (i : Nat) (e : BitVec 512) : (s.setTent t i e).fences = s.fences := rfl
@[simp] theorem State.setTent_holds (s : State) (t : Nat) (i : Nat) (e : BitVec 512) : (s.setTent t i e).holds = s.holds := rfl
@[simp] theorem State.setTent_snaps (s : State) (t : Nat) (i : Nat) (e : BitVec 512) : (s.setTent t i e).snaps = s.snaps := rfl
@[simp] theorem State.setTent_stage (s : State) (t : Nat) (i : Nat) (e : BitVec 512) : (s.setTent t i e).stage = s.stage := rfl
@[simp] theorem State.setTent_commitQ (s : State) (t : Nat) (i : Nat) (e : BitVec 512) : (s.setTent t i e).commitQ = s.commitQ := rfl
@[simp] theorem State.setTent_commits (s : State) (t : Nat) (i : Nat) (e : BitVec 512) : (s.setTent t i e).commits = s.commits := rfl
@[simp] theorem State.setTent_frcNs (s : State) (t : Nat) (i : Nat) (e : BitVec 512) : (s.setTent t i e).frcNs = s.frcNs := rfl
@[simp] theorem State.setTent_frcFrac (s : State) (t : Nat) (i : Nat) (e : BitVec 512) : (s.setTent t i e).frcFrac = s.frcFrac := rfl
@[simp] theorem State.setTent_msix (s : State) (t : Nat) (i : Nat) (e : BitVec 512) : (s.setTent t i e).msix = s.msix := rfl
@[simp] theorem State.setTent_resets (s : State) (t : Nat) (i : Nat) (e : BitVec 512) : (s.setTent t i e).resets = s.resets := rfl
@[simp] theorem State.setTent_lrn (s : State) (t : Nat) (i : Nat) (e : BitVec 512) : (s.setTent t i e).lrn = s.lrn := rfl
@[simp] theorem State.setTent_bsn (s : State) (t : Nat) (i : Nat) (e : BitVec 512) : (s.setTent t i e).bsn = s.bsn := rfl
@[simp] theorem State.setTent_meters (s : State) (t : Nat) (i : Nat) (e : BitVec 512) : (s.setTent t i e).meters = s.meters := rfl
@[simp] theorem State.setTent_egr (s : State) (t : Nat) (i : Nat) (e : BitVec 512) : (s.setTent t i e).egr = s.egr := rfl
@[simp] theorem State.setTent_slu (s : State) (t : Nat) (i : Nat) (e : BitVec 512) : (s.setTent t i e).slu = s.slu := rfl
@[simp] theorem State.setTent_bud (s : State) (t : Nat) (i : Nat) (e : BitVec 512) : (s.setTent t i e).bud = s.bud := rfl
@[simp] theorem State.setTent_fre (s : State) (t : Nat) (i : Nat) (e : BitVec 512) : (s.setTent t i e).fre = s.fre := rfl
@[simp] theorem State.setTent_fgd (s : State) (t : Nat) (i : Nat) (e : BitVec 512) : (s.setTent t i e).fgd = s.fgd := rfl
@[simp] theorem State.setTent_had (s : State) (t : Nat) (i : Nat) (e : BitVec 512) : (s.setTent t i e).had = s.had := rfl
@[simp] theorem State.setTent_ept (s : State) (t : Nat) (i : Nat) (e : BitVec 512) : (s.setTent t i e).ept = s.ept := rfl
@[simp] theorem State.setTent_hif (s : State) (t : Nat) (i : Nat) (e : BitVec 512) : (s.setTent t i e).hif = s.hif := rfl
@[simp] theorem State.setTent_can (s : State) (t : Nat) (i : Nat) (e : BitVec 512) : (s.setTent t i e).can = s.can := rfl
@[simp] theorem State.setTent_lin (s : State) (t : Nat) (i : Nat) (e : BitVec 512) : (s.setTent t i e).lin = s.lin := rfl
@[simp] theorem State.setTent_cfl (s : State) (t : Nat) (i : Nat) (e : BitVec 512) : (s.setTent t i e).cfl = s.cfl := rfl
@[simp] theorem State.setTent_vlt (s : State) (t : Nat) (i : Nat) (e : BitVec 512) : (s.setTent t i e).vlt = s.vlt := rfl
@[simp] theorem State.setTent_auth (s : State) (t : Nat) (i : Nat) (e : BitVec 512) : (s.setTent t i e).auth = s.auth := rfl
@[simp] theorem State.setTent_twn (s : State) (t : Nat) (i : Nat) (e : BitVec 512) : (s.setTent t i e).twn = s.twn := rfl
@[simp] theorem State.setTent_tim (s : State) (t : Nat) (i : Nat) (e : BitVec 512) : (s.setTent t i e).tim = s.tim := rfl
@[simp] theorem State.setTent_pwr (s : State) (t : Nat) (i : Nat) (e : BitVec 512) : (s.setTent t i e).pwr = s.pwr := rfl
@[simp] theorem State.setTent_mgs (s : State) (t : Nat) (i : Nat) (e : BitVec 512) : (s.setTent t i e).mgs = s.mgs := rfl
@[simp] theorem State.setTent_svc (s : State) (t : Nat) (i : Nat) (e : BitVec 512) : (s.setTent t i e).svc = s.svc := rfl
@[simp] theorem State.setTent_inj (s : State) (t : Nat) (i : Nat) (e : BitVec 512) : (s.setTent t i e).inj = s.inj := rfl
@[simp] theorem State.setTent_out (s : State) (t : Nat) (i : Nat) (e : BitVec 512) : (s.setTent t i e).out = s.out := rfl
@[simp] theorem State.setTent_free (s : State) (t : Nat) (i : Nat) (e : BitVec 512) : (s.setTent t i e).free = s.free := rfl
@[simp] theorem State.setTent_pending (s : State) (t : Nat) (i : Nat) (e : BitVec 512) : (s.setTent t i e).pending = s.pending := rfl

/-! `setStaging` writes stage. -/

@[simp] theorem State.setStaging_regs (s : State) (m : Nat) (l : List Staged) : (s.setStaging m l).regs = s.regs := rfl
@[simp] theorem State.setStaging_slots (s : State) (m : Nat) (l : List Staged) : (s.setStaging m l).slots = s.slots := rfl
@[simp] theorem State.setStaging_fences (s : State) (m : Nat) (l : List Staged) : (s.setStaging m l).fences = s.fences := rfl
@[simp] theorem State.setStaging_holds (s : State) (m : Nat) (l : List Staged) : (s.setStaging m l).holds = s.holds := rfl
@[simp] theorem State.setStaging_snaps (s : State) (m : Nat) (l : List Staged) : (s.setStaging m l).snaps = s.snaps := rfl
@[simp] theorem State.setStaging_tbl (s : State) (m : Nat) (l : List Staged) : (s.setStaging m l).tbl = s.tbl := rfl
@[simp] theorem State.setStaging_commitQ (s : State) (m : Nat) (l : List Staged) : (s.setStaging m l).commitQ = s.commitQ := rfl
@[simp] theorem State.setStaging_commits (s : State) (m : Nat) (l : List Staged) : (s.setStaging m l).commits = s.commits := rfl
@[simp] theorem State.setStaging_frcNs (s : State) (m : Nat) (l : List Staged) : (s.setStaging m l).frcNs = s.frcNs := rfl
@[simp] theorem State.setStaging_frcFrac (s : State) (m : Nat) (l : List Staged) : (s.setStaging m l).frcFrac = s.frcFrac := rfl
@[simp] theorem State.setStaging_msix (s : State) (m : Nat) (l : List Staged) : (s.setStaging m l).msix = s.msix := rfl
@[simp] theorem State.setStaging_resets (s : State) (m : Nat) (l : List Staged) : (s.setStaging m l).resets = s.resets := rfl
@[simp] theorem State.setStaging_lrn (s : State) (m : Nat) (l : List Staged) : (s.setStaging m l).lrn = s.lrn := rfl
@[simp] theorem State.setStaging_bsn (s : State) (m : Nat) (l : List Staged) : (s.setStaging m l).bsn = s.bsn := rfl
@[simp] theorem State.setStaging_meters (s : State) (m : Nat) (l : List Staged) : (s.setStaging m l).meters = s.meters := rfl
@[simp] theorem State.setStaging_egr (s : State) (m : Nat) (l : List Staged) : (s.setStaging m l).egr = s.egr := rfl
@[simp] theorem State.setStaging_slu (s : State) (m : Nat) (l : List Staged) : (s.setStaging m l).slu = s.slu := rfl
@[simp] theorem State.setStaging_bud (s : State) (m : Nat) (l : List Staged) : (s.setStaging m l).bud = s.bud := rfl
@[simp] theorem State.setStaging_fre (s : State) (m : Nat) (l : List Staged) : (s.setStaging m l).fre = s.fre := rfl
@[simp] theorem State.setStaging_fgd (s : State) (m : Nat) (l : List Staged) : (s.setStaging m l).fgd = s.fgd := rfl
@[simp] theorem State.setStaging_had (s : State) (m : Nat) (l : List Staged) : (s.setStaging m l).had = s.had := rfl
@[simp] theorem State.setStaging_ept (s : State) (m : Nat) (l : List Staged) : (s.setStaging m l).ept = s.ept := rfl
@[simp] theorem State.setStaging_hif (s : State) (m : Nat) (l : List Staged) : (s.setStaging m l).hif = s.hif := rfl
@[simp] theorem State.setStaging_can (s : State) (m : Nat) (l : List Staged) : (s.setStaging m l).can = s.can := rfl
@[simp] theorem State.setStaging_lin (s : State) (m : Nat) (l : List Staged) : (s.setStaging m l).lin = s.lin := rfl
@[simp] theorem State.setStaging_cfl (s : State) (m : Nat) (l : List Staged) : (s.setStaging m l).cfl = s.cfl := rfl
@[simp] theorem State.setStaging_vlt (s : State) (m : Nat) (l : List Staged) : (s.setStaging m l).vlt = s.vlt := rfl
@[simp] theorem State.setStaging_auth (s : State) (m : Nat) (l : List Staged) : (s.setStaging m l).auth = s.auth := rfl
@[simp] theorem State.setStaging_twn (s : State) (m : Nat) (l : List Staged) : (s.setStaging m l).twn = s.twn := rfl
@[simp] theorem State.setStaging_tim (s : State) (m : Nat) (l : List Staged) : (s.setStaging m l).tim = s.tim := rfl
@[simp] theorem State.setStaging_pwr (s : State) (m : Nat) (l : List Staged) : (s.setStaging m l).pwr = s.pwr := rfl
@[simp] theorem State.setStaging_mgs (s : State) (m : Nat) (l : List Staged) : (s.setStaging m l).mgs = s.mgs := rfl
@[simp] theorem State.setStaging_svc (s : State) (m : Nat) (l : List Staged) : (s.setStaging m l).svc = s.svc := rfl
@[simp] theorem State.setStaging_inj (s : State) (m : Nat) (l : List Staged) : (s.setStaging m l).inj = s.inj := rfl
@[simp] theorem State.setStaging_out (s : State) (m : Nat) (l : List Staged) : (s.setStaging m l).out = s.out := rfl
@[simp] theorem State.setStaging_free (s : State) (m : Nat) (l : List Staged) : (s.setStaging m l).free = s.free := rfl
@[simp] theorem State.setStaging_pending (s : State) (m : Nat) (l : List Staged) : (s.setStaging m l).pending = s.pending := rfl

/-! `setDom` writes tim. -/

@[simp] theorem State.setDom_regs (s : State) (d : Nat) (v : Dom) : (s.setDom d v).regs = s.regs := rfl
@[simp] theorem State.setDom_slots (s : State) (d : Nat) (v : Dom) : (s.setDom d v).slots = s.slots := rfl
@[simp] theorem State.setDom_fences (s : State) (d : Nat) (v : Dom) : (s.setDom d v).fences = s.fences := rfl
@[simp] theorem State.setDom_holds (s : State) (d : Nat) (v : Dom) : (s.setDom d v).holds = s.holds := rfl
@[simp] theorem State.setDom_snaps (s : State) (d : Nat) (v : Dom) : (s.setDom d v).snaps = s.snaps := rfl
@[simp] theorem State.setDom_tbl (s : State) (d : Nat) (v : Dom) : (s.setDom d v).tbl = s.tbl := rfl
@[simp] theorem State.setDom_stage (s : State) (d : Nat) (v : Dom) : (s.setDom d v).stage = s.stage := rfl
@[simp] theorem State.setDom_commitQ (s : State) (d : Nat) (v : Dom) : (s.setDom d v).commitQ = s.commitQ := rfl
@[simp] theorem State.setDom_commits (s : State) (d : Nat) (v : Dom) : (s.setDom d v).commits = s.commits := rfl
@[simp] theorem State.setDom_frcNs (s : State) (d : Nat) (v : Dom) : (s.setDom d v).frcNs = s.frcNs := rfl
@[simp] theorem State.setDom_frcFrac (s : State) (d : Nat) (v : Dom) : (s.setDom d v).frcFrac = s.frcFrac := rfl
@[simp] theorem State.setDom_msix (s : State) (d : Nat) (v : Dom) : (s.setDom d v).msix = s.msix := rfl
@[simp] theorem State.setDom_resets (s : State) (d : Nat) (v : Dom) : (s.setDom d v).resets = s.resets := rfl
@[simp] theorem State.setDom_lrn (s : State) (d : Nat) (v : Dom) : (s.setDom d v).lrn = s.lrn := rfl
@[simp] theorem State.setDom_bsn (s : State) (d : Nat) (v : Dom) : (s.setDom d v).bsn = s.bsn := rfl
@[simp] theorem State.setDom_meters (s : State) (d : Nat) (v : Dom) : (s.setDom d v).meters = s.meters := rfl
@[simp] theorem State.setDom_egr (s : State) (d : Nat) (v : Dom) : (s.setDom d v).egr = s.egr := rfl
@[simp] theorem State.setDom_slu (s : State) (d : Nat) (v : Dom) : (s.setDom d v).slu = s.slu := rfl
@[simp] theorem State.setDom_bud (s : State) (d : Nat) (v : Dom) : (s.setDom d v).bud = s.bud := rfl
@[simp] theorem State.setDom_fre (s : State) (d : Nat) (v : Dom) : (s.setDom d v).fre = s.fre := rfl
@[simp] theorem State.setDom_fgd (s : State) (d : Nat) (v : Dom) : (s.setDom d v).fgd = s.fgd := rfl
@[simp] theorem State.setDom_had (s : State) (d : Nat) (v : Dom) : (s.setDom d v).had = s.had := rfl
@[simp] theorem State.setDom_ept (s : State) (d : Nat) (v : Dom) : (s.setDom d v).ept = s.ept := rfl
@[simp] theorem State.setDom_hif (s : State) (d : Nat) (v : Dom) : (s.setDom d v).hif = s.hif := rfl
@[simp] theorem State.setDom_can (s : State) (d : Nat) (v : Dom) : (s.setDom d v).can = s.can := rfl
@[simp] theorem State.setDom_lin (s : State) (d : Nat) (v : Dom) : (s.setDom d v).lin = s.lin := rfl
@[simp] theorem State.setDom_cfl (s : State) (d : Nat) (v : Dom) : (s.setDom d v).cfl = s.cfl := rfl
@[simp] theorem State.setDom_vlt (s : State) (d : Nat) (v : Dom) : (s.setDom d v).vlt = s.vlt := rfl
@[simp] theorem State.setDom_auth (s : State) (d : Nat) (v : Dom) : (s.setDom d v).auth = s.auth := rfl
@[simp] theorem State.setDom_twn (s : State) (d : Nat) (v : Dom) : (s.setDom d v).twn = s.twn := rfl
@[simp] theorem State.setDom_pwr (s : State) (d : Nat) (v : Dom) : (s.setDom d v).pwr = s.pwr := rfl
@[simp] theorem State.setDom_mgs (s : State) (d : Nat) (v : Dom) : (s.setDom d v).mgs = s.mgs := rfl
@[simp] theorem State.setDom_svc (s : State) (d : Nat) (v : Dom) : (s.setDom d v).svc = s.svc := rfl
@[simp] theorem State.setDom_inj (s : State) (d : Nat) (v : Dom) : (s.setDom d v).inj = s.inj := rfl
@[simp] theorem State.setDom_out (s : State) (d : Nat) (v : Dom) : (s.setDom d v).out = s.out := rfl
@[simp] theorem State.setDom_free (s : State) (d : Nat) (v : Dom) : (s.setDom d v).free = s.free := rfl
@[simp] theorem State.setDom_pending (s : State) (d : Nat) (v : Dom) : (s.setDom d v).pending = s.pending := rfl

/-! `setPd` writes tim. -/

@[simp] theorem State.setPd_regs (s : State) (p : Nat) (v : PdPort) : (s.setPd p v).regs = s.regs := rfl
@[simp] theorem State.setPd_slots (s : State) (p : Nat) (v : PdPort) : (s.setPd p v).slots = s.slots := rfl
@[simp] theorem State.setPd_fences (s : State) (p : Nat) (v : PdPort) : (s.setPd p v).fences = s.fences := rfl
@[simp] theorem State.setPd_holds (s : State) (p : Nat) (v : PdPort) : (s.setPd p v).holds = s.holds := rfl
@[simp] theorem State.setPd_snaps (s : State) (p : Nat) (v : PdPort) : (s.setPd p v).snaps = s.snaps := rfl
@[simp] theorem State.setPd_tbl (s : State) (p : Nat) (v : PdPort) : (s.setPd p v).tbl = s.tbl := rfl
@[simp] theorem State.setPd_stage (s : State) (p : Nat) (v : PdPort) : (s.setPd p v).stage = s.stage := rfl
@[simp] theorem State.setPd_commitQ (s : State) (p : Nat) (v : PdPort) : (s.setPd p v).commitQ = s.commitQ := rfl
@[simp] theorem State.setPd_commits (s : State) (p : Nat) (v : PdPort) : (s.setPd p v).commits = s.commits := rfl
@[simp] theorem State.setPd_frcNs (s : State) (p : Nat) (v : PdPort) : (s.setPd p v).frcNs = s.frcNs := rfl
@[simp] theorem State.setPd_frcFrac (s : State) (p : Nat) (v : PdPort) : (s.setPd p v).frcFrac = s.frcFrac := rfl
@[simp] theorem State.setPd_msix (s : State) (p : Nat) (v : PdPort) : (s.setPd p v).msix = s.msix := rfl
@[simp] theorem State.setPd_resets (s : State) (p : Nat) (v : PdPort) : (s.setPd p v).resets = s.resets := rfl
@[simp] theorem State.setPd_lrn (s : State) (p : Nat) (v : PdPort) : (s.setPd p v).lrn = s.lrn := rfl
@[simp] theorem State.setPd_bsn (s : State) (p : Nat) (v : PdPort) : (s.setPd p v).bsn = s.bsn := rfl
@[simp] theorem State.setPd_meters (s : State) (p : Nat) (v : PdPort) : (s.setPd p v).meters = s.meters := rfl
@[simp] theorem State.setPd_egr (s : State) (p : Nat) (v : PdPort) : (s.setPd p v).egr = s.egr := rfl
@[simp] theorem State.setPd_slu (s : State) (p : Nat) (v : PdPort) : (s.setPd p v).slu = s.slu := rfl
@[simp] theorem State.setPd_bud (s : State) (p : Nat) (v : PdPort) : (s.setPd p v).bud = s.bud := rfl
@[simp] theorem State.setPd_fre (s : State) (p : Nat) (v : PdPort) : (s.setPd p v).fre = s.fre := rfl
@[simp] theorem State.setPd_fgd (s : State) (p : Nat) (v : PdPort) : (s.setPd p v).fgd = s.fgd := rfl
@[simp] theorem State.setPd_had (s : State) (p : Nat) (v : PdPort) : (s.setPd p v).had = s.had := rfl
@[simp] theorem State.setPd_ept (s : State) (p : Nat) (v : PdPort) : (s.setPd p v).ept = s.ept := rfl
@[simp] theorem State.setPd_hif (s : State) (p : Nat) (v : PdPort) : (s.setPd p v).hif = s.hif := rfl
@[simp] theorem State.setPd_can (s : State) (p : Nat) (v : PdPort) : (s.setPd p v).can = s.can := rfl
@[simp] theorem State.setPd_lin (s : State) (p : Nat) (v : PdPort) : (s.setPd p v).lin = s.lin := rfl
@[simp] theorem State.setPd_cfl (s : State) (p : Nat) (v : PdPort) : (s.setPd p v).cfl = s.cfl := rfl
@[simp] theorem State.setPd_vlt (s : State) (p : Nat) (v : PdPort) : (s.setPd p v).vlt = s.vlt := rfl
@[simp] theorem State.setPd_auth (s : State) (p : Nat) (v : PdPort) : (s.setPd p v).auth = s.auth := rfl
@[simp] theorem State.setPd_twn (s : State) (p : Nat) (v : PdPort) : (s.setPd p v).twn = s.twn := rfl
@[simp] theorem State.setPd_pwr (s : State) (p : Nat) (v : PdPort) : (s.setPd p v).pwr = s.pwr := rfl
@[simp] theorem State.setPd_mgs (s : State) (p : Nat) (v : PdPort) : (s.setPd p v).mgs = s.mgs := rfl
@[simp] theorem State.setPd_svc (s : State) (p : Nat) (v : PdPort) : (s.setPd p v).svc = s.svc := rfl
@[simp] theorem State.setPd_inj (s : State) (p : Nat) (v : PdPort) : (s.setPd p v).inj = s.inj := rfl
@[simp] theorem State.setPd_out (s : State) (p : Nat) (v : PdPort) : (s.setPd p v).out = s.out := rfl
@[simp] theorem State.setPd_free (s : State) (p : Nat) (v : PdPort) : (s.setPd p v).free = s.free := rfl
@[simp] theorem State.setPd_pending (s : State) (p : Nat) (v : PdPort) : (s.setPd p v).pending = s.pending := rfl

/-! `setEport` writes ept. -/

@[simp] theorem State.setEport_regs (s : State) (p : Nat) (e : Ept) : (s.setEport p e).regs = s.regs := rfl
@[simp] theorem State.setEport_slots (s : State) (p : Nat) (e : Ept) : (s.setEport p e).slots = s.slots := rfl
@[simp] theorem State.setEport_fences (s : State) (p : Nat) (e : Ept) : (s.setEport p e).fences = s.fences := rfl
@[simp] theorem State.setEport_holds (s : State) (p : Nat) (e : Ept) : (s.setEport p e).holds = s.holds := rfl
@[simp] theorem State.setEport_snaps (s : State) (p : Nat) (e : Ept) : (s.setEport p e).snaps = s.snaps := rfl
@[simp] theorem State.setEport_tbl (s : State) (p : Nat) (e : Ept) : (s.setEport p e).tbl = s.tbl := rfl
@[simp] theorem State.setEport_stage (s : State) (p : Nat) (e : Ept) : (s.setEport p e).stage = s.stage := rfl
@[simp] theorem State.setEport_commitQ (s : State) (p : Nat) (e : Ept) : (s.setEport p e).commitQ = s.commitQ := rfl
@[simp] theorem State.setEport_commits (s : State) (p : Nat) (e : Ept) : (s.setEport p e).commits = s.commits := rfl
@[simp] theorem State.setEport_frcNs (s : State) (p : Nat) (e : Ept) : (s.setEport p e).frcNs = s.frcNs := rfl
@[simp] theorem State.setEport_frcFrac (s : State) (p : Nat) (e : Ept) : (s.setEport p e).frcFrac = s.frcFrac := rfl
@[simp] theorem State.setEport_msix (s : State) (p : Nat) (e : Ept) : (s.setEport p e).msix = s.msix := rfl
@[simp] theorem State.setEport_resets (s : State) (p : Nat) (e : Ept) : (s.setEport p e).resets = s.resets := rfl
@[simp] theorem State.setEport_lrn (s : State) (p : Nat) (e : Ept) : (s.setEport p e).lrn = s.lrn := rfl
@[simp] theorem State.setEport_bsn (s : State) (p : Nat) (e : Ept) : (s.setEport p e).bsn = s.bsn := rfl
@[simp] theorem State.setEport_meters (s : State) (p : Nat) (e : Ept) : (s.setEport p e).meters = s.meters := rfl
@[simp] theorem State.setEport_egr (s : State) (p : Nat) (e : Ept) : (s.setEport p e).egr = s.egr := rfl
@[simp] theorem State.setEport_slu (s : State) (p : Nat) (e : Ept) : (s.setEport p e).slu = s.slu := rfl
@[simp] theorem State.setEport_bud (s : State) (p : Nat) (e : Ept) : (s.setEport p e).bud = s.bud := rfl
@[simp] theorem State.setEport_fre (s : State) (p : Nat) (e : Ept) : (s.setEport p e).fre = s.fre := rfl
@[simp] theorem State.setEport_fgd (s : State) (p : Nat) (e : Ept) : (s.setEport p e).fgd = s.fgd := rfl
@[simp] theorem State.setEport_had (s : State) (p : Nat) (e : Ept) : (s.setEport p e).had = s.had := rfl
@[simp] theorem State.setEport_hif (s : State) (p : Nat) (e : Ept) : (s.setEport p e).hif = s.hif := rfl
@[simp] theorem State.setEport_can (s : State) (p : Nat) (e : Ept) : (s.setEport p e).can = s.can := rfl
@[simp] theorem State.setEport_lin (s : State) (p : Nat) (e : Ept) : (s.setEport p e).lin = s.lin := rfl
@[simp] theorem State.setEport_cfl (s : State) (p : Nat) (e : Ept) : (s.setEport p e).cfl = s.cfl := rfl
@[simp] theorem State.setEport_vlt (s : State) (p : Nat) (e : Ept) : (s.setEport p e).vlt = s.vlt := rfl
@[simp] theorem State.setEport_auth (s : State) (p : Nat) (e : Ept) : (s.setEport p e).auth = s.auth := rfl
@[simp] theorem State.setEport_twn (s : State) (p : Nat) (e : Ept) : (s.setEport p e).twn = s.twn := rfl
@[simp] theorem State.setEport_tim (s : State) (p : Nat) (e : Ept) : (s.setEport p e).tim = s.tim := rfl
@[simp] theorem State.setEport_pwr (s : State) (p : Nat) (e : Ept) : (s.setEport p e).pwr = s.pwr := rfl
@[simp] theorem State.setEport_mgs (s : State) (p : Nat) (e : Ept) : (s.setEport p e).mgs = s.mgs := rfl
@[simp] theorem State.setEport_svc (s : State) (p : Nat) (e : Ept) : (s.setEport p e).svc = s.svc := rfl
@[simp] theorem State.setEport_inj (s : State) (p : Nat) (e : Ept) : (s.setEport p e).inj = s.inj := rfl
@[simp] theorem State.setEport_out (s : State) (p : Nat) (e : Ept) : (s.setEport p e).out = s.out := rfl
@[simp] theorem State.setEport_free (s : State) (p : Nat) (e : Ept) : (s.setEport p e).free = s.free := rfl
@[simp] theorem State.setEport_pending (s : State) (p : Nat) (e : Ept) : (s.setEport p e).pending = s.pending := rfl

/-! `setEg` writes egr. -/

@[simp] theorem State.setEg_regs (s : State) (p : Nat) (e : Egr) : (s.setEg p e).regs = s.regs := rfl
@[simp] theorem State.setEg_slots (s : State) (p : Nat) (e : Egr) : (s.setEg p e).slots = s.slots := rfl
@[simp] theorem State.setEg_fences (s : State) (p : Nat) (e : Egr) : (s.setEg p e).fences = s.fences := rfl
@[simp] theorem State.setEg_holds (s : State) (p : Nat) (e : Egr) : (s.setEg p e).holds = s.holds := rfl
@[simp] theorem State.setEg_snaps (s : State) (p : Nat) (e : Egr) : (s.setEg p e).snaps = s.snaps := rfl
@[simp] theorem State.setEg_tbl (s : State) (p : Nat) (e : Egr) : (s.setEg p e).tbl = s.tbl := rfl
@[simp] theorem State.setEg_stage (s : State) (p : Nat) (e : Egr) : (s.setEg p e).stage = s.stage := rfl
@[simp] theorem State.setEg_commitQ (s : State) (p : Nat) (e : Egr) : (s.setEg p e).commitQ = s.commitQ := rfl
@[simp] theorem State.setEg_commits (s : State) (p : Nat) (e : Egr) : (s.setEg p e).commits = s.commits := rfl
@[simp] theorem State.setEg_frcNs (s : State) (p : Nat) (e : Egr) : (s.setEg p e).frcNs = s.frcNs := rfl
@[simp] theorem State.setEg_frcFrac (s : State) (p : Nat) (e : Egr) : (s.setEg p e).frcFrac = s.frcFrac := rfl
@[simp] theorem State.setEg_msix (s : State) (p : Nat) (e : Egr) : (s.setEg p e).msix = s.msix := rfl
@[simp] theorem State.setEg_resets (s : State) (p : Nat) (e : Egr) : (s.setEg p e).resets = s.resets := rfl
@[simp] theorem State.setEg_lrn (s : State) (p : Nat) (e : Egr) : (s.setEg p e).lrn = s.lrn := rfl
@[simp] theorem State.setEg_bsn (s : State) (p : Nat) (e : Egr) : (s.setEg p e).bsn = s.bsn := rfl
@[simp] theorem State.setEg_meters (s : State) (p : Nat) (e : Egr) : (s.setEg p e).meters = s.meters := rfl
@[simp] theorem State.setEg_slu (s : State) (p : Nat) (e : Egr) : (s.setEg p e).slu = s.slu := rfl
@[simp] theorem State.setEg_bud (s : State) (p : Nat) (e : Egr) : (s.setEg p e).bud = s.bud := rfl
@[simp] theorem State.setEg_fre (s : State) (p : Nat) (e : Egr) : (s.setEg p e).fre = s.fre := rfl
@[simp] theorem State.setEg_fgd (s : State) (p : Nat) (e : Egr) : (s.setEg p e).fgd = s.fgd := rfl
@[simp] theorem State.setEg_had (s : State) (p : Nat) (e : Egr) : (s.setEg p e).had = s.had := rfl
@[simp] theorem State.setEg_ept (s : State) (p : Nat) (e : Egr) : (s.setEg p e).ept = s.ept := rfl
@[simp] theorem State.setEg_hif (s : State) (p : Nat) (e : Egr) : (s.setEg p e).hif = s.hif := rfl
@[simp] theorem State.setEg_can (s : State) (p : Nat) (e : Egr) : (s.setEg p e).can = s.can := rfl
@[simp] theorem State.setEg_lin (s : State) (p : Nat) (e : Egr) : (s.setEg p e).lin = s.lin := rfl
@[simp] theorem State.setEg_cfl (s : State) (p : Nat) (e : Egr) : (s.setEg p e).cfl = s.cfl := rfl
@[simp] theorem State.setEg_vlt (s : State) (p : Nat) (e : Egr) : (s.setEg p e).vlt = s.vlt := rfl
@[simp] theorem State.setEg_auth (s : State) (p : Nat) (e : Egr) : (s.setEg p e).auth = s.auth := rfl
@[simp] theorem State.setEg_twn (s : State) (p : Nat) (e : Egr) : (s.setEg p e).twn = s.twn := rfl
@[simp] theorem State.setEg_tim (s : State) (p : Nat) (e : Egr) : (s.setEg p e).tim = s.tim := rfl
@[simp] theorem State.setEg_pwr (s : State) (p : Nat) (e : Egr) : (s.setEg p e).pwr = s.pwr := rfl
@[simp] theorem State.setEg_mgs (s : State) (p : Nat) (e : Egr) : (s.setEg p e).mgs = s.mgs := rfl
@[simp] theorem State.setEg_svc (s : State) (p : Nat) (e : Egr) : (s.setEg p e).svc = s.svc := rfl
@[simp] theorem State.setEg_inj (s : State) (p : Nat) (e : Egr) : (s.setEg p e).inj = s.inj := rfl
@[simp] theorem State.setEg_out (s : State) (p : Nat) (e : Egr) : (s.setEg p e).out = s.out := rfl
@[simp] theorem State.setEg_free (s : State) (p : Nat) (e : Egr) : (s.setEg p e).free = s.free := rfl
@[simp] theorem State.setEg_pending (s : State) (p : Nat) (e : Egr) : (s.setEg p e).pending = s.pending := rfl

/-! `setQueue` writes bsn. -/

@[simp] theorem State.setQueue_regs (s : State) (q : Nat) (l : List (Nat × Nat)) : (s.setQueue q l).regs = s.regs := rfl
@[simp] theorem State.setQueue_slots (s : State) (q : Nat) (l : List (Nat × Nat)) : (s.setQueue q l).slots = s.slots := rfl
@[simp] theorem State.setQueue_fences (s : State) (q : Nat) (l : List (Nat × Nat)) : (s.setQueue q l).fences = s.fences := rfl
@[simp] theorem State.setQueue_holds (s : State) (q : Nat) (l : List (Nat × Nat)) : (s.setQueue q l).holds = s.holds := rfl
@[simp] theorem State.setQueue_snaps (s : State) (q : Nat) (l : List (Nat × Nat)) : (s.setQueue q l).snaps = s.snaps := rfl
@[simp] theorem State.setQueue_tbl (s : State) (q : Nat) (l : List (Nat × Nat)) : (s.setQueue q l).tbl = s.tbl := rfl
@[simp] theorem State.setQueue_stage (s : State) (q : Nat) (l : List (Nat × Nat)) : (s.setQueue q l).stage = s.stage := rfl
@[simp] theorem State.setQueue_commitQ (s : State) (q : Nat) (l : List (Nat × Nat)) : (s.setQueue q l).commitQ = s.commitQ := rfl
@[simp] theorem State.setQueue_commits (s : State) (q : Nat) (l : List (Nat × Nat)) : (s.setQueue q l).commits = s.commits := rfl
@[simp] theorem State.setQueue_frcNs (s : State) (q : Nat) (l : List (Nat × Nat)) : (s.setQueue q l).frcNs = s.frcNs := rfl
@[simp] theorem State.setQueue_frcFrac (s : State) (q : Nat) (l : List (Nat × Nat)) : (s.setQueue q l).frcFrac = s.frcFrac := rfl
@[simp] theorem State.setQueue_msix (s : State) (q : Nat) (l : List (Nat × Nat)) : (s.setQueue q l).msix = s.msix := rfl
@[simp] theorem State.setQueue_resets (s : State) (q : Nat) (l : List (Nat × Nat)) : (s.setQueue q l).resets = s.resets := rfl
@[simp] theorem State.setQueue_lrn (s : State) (q : Nat) (l : List (Nat × Nat)) : (s.setQueue q l).lrn = s.lrn := rfl
@[simp] theorem State.setQueue_meters (s : State) (q : Nat) (l : List (Nat × Nat)) : (s.setQueue q l).meters = s.meters := rfl
@[simp] theorem State.setQueue_egr (s : State) (q : Nat) (l : List (Nat × Nat)) : (s.setQueue q l).egr = s.egr := rfl
@[simp] theorem State.setQueue_slu (s : State) (q : Nat) (l : List (Nat × Nat)) : (s.setQueue q l).slu = s.slu := rfl
@[simp] theorem State.setQueue_bud (s : State) (q : Nat) (l : List (Nat × Nat)) : (s.setQueue q l).bud = s.bud := rfl
@[simp] theorem State.setQueue_fre (s : State) (q : Nat) (l : List (Nat × Nat)) : (s.setQueue q l).fre = s.fre := rfl
@[simp] theorem State.setQueue_fgd (s : State) (q : Nat) (l : List (Nat × Nat)) : (s.setQueue q l).fgd = s.fgd := rfl
@[simp] theorem State.setQueue_had (s : State) (q : Nat) (l : List (Nat × Nat)) : (s.setQueue q l).had = s.had := rfl
@[simp] theorem State.setQueue_ept (s : State) (q : Nat) (l : List (Nat × Nat)) : (s.setQueue q l).ept = s.ept := rfl
@[simp] theorem State.setQueue_hif (s : State) (q : Nat) (l : List (Nat × Nat)) : (s.setQueue q l).hif = s.hif := rfl
@[simp] theorem State.setQueue_can (s : State) (q : Nat) (l : List (Nat × Nat)) : (s.setQueue q l).can = s.can := rfl
@[simp] theorem State.setQueue_lin (s : State) (q : Nat) (l : List (Nat × Nat)) : (s.setQueue q l).lin = s.lin := rfl
@[simp] theorem State.setQueue_cfl (s : State) (q : Nat) (l : List (Nat × Nat)) : (s.setQueue q l).cfl = s.cfl := rfl
@[simp] theorem State.setQueue_vlt (s : State) (q : Nat) (l : List (Nat × Nat)) : (s.setQueue q l).vlt = s.vlt := rfl
@[simp] theorem State.setQueue_auth (s : State) (q : Nat) (l : List (Nat × Nat)) : (s.setQueue q l).auth = s.auth := rfl
@[simp] theorem State.setQueue_twn (s : State) (q : Nat) (l : List (Nat × Nat)) : (s.setQueue q l).twn = s.twn := rfl
@[simp] theorem State.setQueue_tim (s : State) (q : Nat) (l : List (Nat × Nat)) : (s.setQueue q l).tim = s.tim := rfl
@[simp] theorem State.setQueue_pwr (s : State) (q : Nat) (l : List (Nat × Nat)) : (s.setQueue q l).pwr = s.pwr := rfl
@[simp] theorem State.setQueue_mgs (s : State) (q : Nat) (l : List (Nat × Nat)) : (s.setQueue q l).mgs = s.mgs := rfl
@[simp] theorem State.setQueue_svc (s : State) (q : Nat) (l : List (Nat × Nat)) : (s.setQueue q l).svc = s.svc := rfl
@[simp] theorem State.setQueue_inj (s : State) (q : Nat) (l : List (Nat × Nat)) : (s.setQueue q l).inj = s.inj := rfl
@[simp] theorem State.setQueue_out (s : State) (q : Nat) (l : List (Nat × Nat)) : (s.setQueue q l).out = s.out := rfl
@[simp] theorem State.setQueue_free (s : State) (q : Nat) (l : List (Nat × Nat)) : (s.setQueue q l).free = s.free := rfl
@[simp] theorem State.setQueue_pending (s : State) (q : Nat) (l : List (Nat × Nat)) : (s.setQueue q l).pending = s.pending := rfl

/-! `setFrame` writes bsn. -/

@[simp] theorem State.setFrame_regs (s : State) (i : Nat) (f : Option Frame) : (s.setFrame i f).regs = s.regs := rfl
@[simp] theorem State.setFrame_slots (s : State) (i : Nat) (f : Option Frame) : (s.setFrame i f).slots = s.slots := rfl
@[simp] theorem State.setFrame_fences (s : State) (i : Nat) (f : Option Frame) : (s.setFrame i f).fences = s.fences := rfl
@[simp] theorem State.setFrame_holds (s : State) (i : Nat) (f : Option Frame) : (s.setFrame i f).holds = s.holds := rfl
@[simp] theorem State.setFrame_snaps (s : State) (i : Nat) (f : Option Frame) : (s.setFrame i f).snaps = s.snaps := rfl
@[simp] theorem State.setFrame_tbl (s : State) (i : Nat) (f : Option Frame) : (s.setFrame i f).tbl = s.tbl := rfl
@[simp] theorem State.setFrame_stage (s : State) (i : Nat) (f : Option Frame) : (s.setFrame i f).stage = s.stage := rfl
@[simp] theorem State.setFrame_commitQ (s : State) (i : Nat) (f : Option Frame) : (s.setFrame i f).commitQ = s.commitQ := rfl
@[simp] theorem State.setFrame_commits (s : State) (i : Nat) (f : Option Frame) : (s.setFrame i f).commits = s.commits := rfl
@[simp] theorem State.setFrame_frcNs (s : State) (i : Nat) (f : Option Frame) : (s.setFrame i f).frcNs = s.frcNs := rfl
@[simp] theorem State.setFrame_frcFrac (s : State) (i : Nat) (f : Option Frame) : (s.setFrame i f).frcFrac = s.frcFrac := rfl
@[simp] theorem State.setFrame_msix (s : State) (i : Nat) (f : Option Frame) : (s.setFrame i f).msix = s.msix := rfl
@[simp] theorem State.setFrame_resets (s : State) (i : Nat) (f : Option Frame) : (s.setFrame i f).resets = s.resets := rfl
@[simp] theorem State.setFrame_lrn (s : State) (i : Nat) (f : Option Frame) : (s.setFrame i f).lrn = s.lrn := rfl
@[simp] theorem State.setFrame_meters (s : State) (i : Nat) (f : Option Frame) : (s.setFrame i f).meters = s.meters := rfl
@[simp] theorem State.setFrame_egr (s : State) (i : Nat) (f : Option Frame) : (s.setFrame i f).egr = s.egr := rfl
@[simp] theorem State.setFrame_slu (s : State) (i : Nat) (f : Option Frame) : (s.setFrame i f).slu = s.slu := rfl
@[simp] theorem State.setFrame_bud (s : State) (i : Nat) (f : Option Frame) : (s.setFrame i f).bud = s.bud := rfl
@[simp] theorem State.setFrame_fre (s : State) (i : Nat) (f : Option Frame) : (s.setFrame i f).fre = s.fre := rfl
@[simp] theorem State.setFrame_fgd (s : State) (i : Nat) (f : Option Frame) : (s.setFrame i f).fgd = s.fgd := rfl
@[simp] theorem State.setFrame_had (s : State) (i : Nat) (f : Option Frame) : (s.setFrame i f).had = s.had := rfl
@[simp] theorem State.setFrame_ept (s : State) (i : Nat) (f : Option Frame) : (s.setFrame i f).ept = s.ept := rfl
@[simp] theorem State.setFrame_hif (s : State) (i : Nat) (f : Option Frame) : (s.setFrame i f).hif = s.hif := rfl
@[simp] theorem State.setFrame_can (s : State) (i : Nat) (f : Option Frame) : (s.setFrame i f).can = s.can := rfl
@[simp] theorem State.setFrame_lin (s : State) (i : Nat) (f : Option Frame) : (s.setFrame i f).lin = s.lin := rfl
@[simp] theorem State.setFrame_cfl (s : State) (i : Nat) (f : Option Frame) : (s.setFrame i f).cfl = s.cfl := rfl
@[simp] theorem State.setFrame_vlt (s : State) (i : Nat) (f : Option Frame) : (s.setFrame i f).vlt = s.vlt := rfl
@[simp] theorem State.setFrame_auth (s : State) (i : Nat) (f : Option Frame) : (s.setFrame i f).auth = s.auth := rfl
@[simp] theorem State.setFrame_twn (s : State) (i : Nat) (f : Option Frame) : (s.setFrame i f).twn = s.twn := rfl
@[simp] theorem State.setFrame_tim (s : State) (i : Nat) (f : Option Frame) : (s.setFrame i f).tim = s.tim := rfl
@[simp] theorem State.setFrame_pwr (s : State) (i : Nat) (f : Option Frame) : (s.setFrame i f).pwr = s.pwr := rfl
@[simp] theorem State.setFrame_mgs (s : State) (i : Nat) (f : Option Frame) : (s.setFrame i f).mgs = s.mgs := rfl
@[simp] theorem State.setFrame_svc (s : State) (i : Nat) (f : Option Frame) : (s.setFrame i f).svc = s.svc := rfl
@[simp] theorem State.setFrame_inj (s : State) (i : Nat) (f : Option Frame) : (s.setFrame i f).inj = s.inj := rfl
@[simp] theorem State.setFrame_out (s : State) (i : Nat) (f : Option Frame) : (s.setFrame i f).out = s.out := rfl
@[simp] theorem State.setFrame_free (s : State) (i : Nat) (f : Option Frame) : (s.setFrame i f).free = s.free := rfl
@[simp] theorem State.setFrame_pending (s : State) (i : Nat) (f : Option Frame) : (s.setFrame i f).pending = s.pending := rfl

/-! `setRxf` writes bsn. -/

@[simp] theorem State.setRxf_regs (s : State) (r : Nat) (f : RxFifo) : (s.setRxf r f).regs = s.regs := rfl
@[simp] theorem State.setRxf_slots (s : State) (r : Nat) (f : RxFifo) : (s.setRxf r f).slots = s.slots := rfl
@[simp] theorem State.setRxf_fences (s : State) (r : Nat) (f : RxFifo) : (s.setRxf r f).fences = s.fences := rfl
@[simp] theorem State.setRxf_holds (s : State) (r : Nat) (f : RxFifo) : (s.setRxf r f).holds = s.holds := rfl
@[simp] theorem State.setRxf_snaps (s : State) (r : Nat) (f : RxFifo) : (s.setRxf r f).snaps = s.snaps := rfl
@[simp] theorem State.setRxf_tbl (s : State) (r : Nat) (f : RxFifo) : (s.setRxf r f).tbl = s.tbl := rfl
@[simp] theorem State.setRxf_stage (s : State) (r : Nat) (f : RxFifo) : (s.setRxf r f).stage = s.stage := rfl
@[simp] theorem State.setRxf_commitQ (s : State) (r : Nat) (f : RxFifo) : (s.setRxf r f).commitQ = s.commitQ := rfl
@[simp] theorem State.setRxf_commits (s : State) (r : Nat) (f : RxFifo) : (s.setRxf r f).commits = s.commits := rfl
@[simp] theorem State.setRxf_frcNs (s : State) (r : Nat) (f : RxFifo) : (s.setRxf r f).frcNs = s.frcNs := rfl
@[simp] theorem State.setRxf_frcFrac (s : State) (r : Nat) (f : RxFifo) : (s.setRxf r f).frcFrac = s.frcFrac := rfl
@[simp] theorem State.setRxf_msix (s : State) (r : Nat) (f : RxFifo) : (s.setRxf r f).msix = s.msix := rfl
@[simp] theorem State.setRxf_resets (s : State) (r : Nat) (f : RxFifo) : (s.setRxf r f).resets = s.resets := rfl
@[simp] theorem State.setRxf_lrn (s : State) (r : Nat) (f : RxFifo) : (s.setRxf r f).lrn = s.lrn := rfl
@[simp] theorem State.setRxf_meters (s : State) (r : Nat) (f : RxFifo) : (s.setRxf r f).meters = s.meters := rfl
@[simp] theorem State.setRxf_egr (s : State) (r : Nat) (f : RxFifo) : (s.setRxf r f).egr = s.egr := rfl
@[simp] theorem State.setRxf_slu (s : State) (r : Nat) (f : RxFifo) : (s.setRxf r f).slu = s.slu := rfl
@[simp] theorem State.setRxf_bud (s : State) (r : Nat) (f : RxFifo) : (s.setRxf r f).bud = s.bud := rfl
@[simp] theorem State.setRxf_fre (s : State) (r : Nat) (f : RxFifo) : (s.setRxf r f).fre = s.fre := rfl
@[simp] theorem State.setRxf_fgd (s : State) (r : Nat) (f : RxFifo) : (s.setRxf r f).fgd = s.fgd := rfl
@[simp] theorem State.setRxf_had (s : State) (r : Nat) (f : RxFifo) : (s.setRxf r f).had = s.had := rfl
@[simp] theorem State.setRxf_ept (s : State) (r : Nat) (f : RxFifo) : (s.setRxf r f).ept = s.ept := rfl
@[simp] theorem State.setRxf_hif (s : State) (r : Nat) (f : RxFifo) : (s.setRxf r f).hif = s.hif := rfl
@[simp] theorem State.setRxf_can (s : State) (r : Nat) (f : RxFifo) : (s.setRxf r f).can = s.can := rfl
@[simp] theorem State.setRxf_lin (s : State) (r : Nat) (f : RxFifo) : (s.setRxf r f).lin = s.lin := rfl
@[simp] theorem State.setRxf_cfl (s : State) (r : Nat) (f : RxFifo) : (s.setRxf r f).cfl = s.cfl := rfl
@[simp] theorem State.setRxf_vlt (s : State) (r : Nat) (f : RxFifo) : (s.setRxf r f).vlt = s.vlt := rfl
@[simp] theorem State.setRxf_auth (s : State) (r : Nat) (f : RxFifo) : (s.setRxf r f).auth = s.auth := rfl
@[simp] theorem State.setRxf_twn (s : State) (r : Nat) (f : RxFifo) : (s.setRxf r f).twn = s.twn := rfl
@[simp] theorem State.setRxf_tim (s : State) (r : Nat) (f : RxFifo) : (s.setRxf r f).tim = s.tim := rfl
@[simp] theorem State.setRxf_pwr (s : State) (r : Nat) (f : RxFifo) : (s.setRxf r f).pwr = s.pwr := rfl
@[simp] theorem State.setRxf_mgs (s : State) (r : Nat) (f : RxFifo) : (s.setRxf r f).mgs = s.mgs := rfl
@[simp] theorem State.setRxf_svc (s : State) (r : Nat) (f : RxFifo) : (s.setRxf r f).svc = s.svc := rfl
@[simp] theorem State.setRxf_inj (s : State) (r : Nat) (f : RxFifo) : (s.setRxf r f).inj = s.inj := rfl
@[simp] theorem State.setRxf_out (s : State) (r : Nat) (f : RxFifo) : (s.setRxf r f).out = s.out := rfl
@[simp] theorem State.setRxf_free (s : State) (r : Nat) (f : RxFifo) : (s.setRxf r f).free = s.free := rfl
@[simp] theorem State.setRxf_pending (s : State) (r : Nat) (f : RxFifo) : (s.setRxf r f).pending = s.pending := rfl

/-! `setTxf` writes bsn. -/

@[simp] theorem State.setTxf_regs (s : State) (r : Nat) (f : TxFifo) : (s.setTxf r f).regs = s.regs := rfl
@[simp] theorem State.setTxf_slots (s : State) (r : Nat) (f : TxFifo) : (s.setTxf r f).slots = s.slots := rfl
@[simp] theorem State.setTxf_fences (s : State) (r : Nat) (f : TxFifo) : (s.setTxf r f).fences = s.fences := rfl
@[simp] theorem State.setTxf_holds (s : State) (r : Nat) (f : TxFifo) : (s.setTxf r f).holds = s.holds := rfl
@[simp] theorem State.setTxf_snaps (s : State) (r : Nat) (f : TxFifo) : (s.setTxf r f).snaps = s.snaps := rfl
@[simp] theorem State.setTxf_tbl (s : State) (r : Nat) (f : TxFifo) : (s.setTxf r f).tbl = s.tbl := rfl
@[simp] theorem State.setTxf_stage (s : State) (r : Nat) (f : TxFifo) : (s.setTxf r f).stage = s.stage := rfl
@[simp] theorem State.setTxf_commitQ (s : State) (r : Nat) (f : TxFifo) : (s.setTxf r f).commitQ = s.commitQ := rfl
@[simp] theorem State.setTxf_commits (s : State) (r : Nat) (f : TxFifo) : (s.setTxf r f).commits = s.commits := rfl
@[simp] theorem State.setTxf_frcNs (s : State) (r : Nat) (f : TxFifo) : (s.setTxf r f).frcNs = s.frcNs := rfl
@[simp] theorem State.setTxf_frcFrac (s : State) (r : Nat) (f : TxFifo) : (s.setTxf r f).frcFrac = s.frcFrac := rfl
@[simp] theorem State.setTxf_msix (s : State) (r : Nat) (f : TxFifo) : (s.setTxf r f).msix = s.msix := rfl
@[simp] theorem State.setTxf_resets (s : State) (r : Nat) (f : TxFifo) : (s.setTxf r f).resets = s.resets := rfl
@[simp] theorem State.setTxf_lrn (s : State) (r : Nat) (f : TxFifo) : (s.setTxf r f).lrn = s.lrn := rfl
@[simp] theorem State.setTxf_meters (s : State) (r : Nat) (f : TxFifo) : (s.setTxf r f).meters = s.meters := rfl
@[simp] theorem State.setTxf_egr (s : State) (r : Nat) (f : TxFifo) : (s.setTxf r f).egr = s.egr := rfl
@[simp] theorem State.setTxf_slu (s : State) (r : Nat) (f : TxFifo) : (s.setTxf r f).slu = s.slu := rfl
@[simp] theorem State.setTxf_bud (s : State) (r : Nat) (f : TxFifo) : (s.setTxf r f).bud = s.bud := rfl
@[simp] theorem State.setTxf_fre (s : State) (r : Nat) (f : TxFifo) : (s.setTxf r f).fre = s.fre := rfl
@[simp] theorem State.setTxf_fgd (s : State) (r : Nat) (f : TxFifo) : (s.setTxf r f).fgd = s.fgd := rfl
@[simp] theorem State.setTxf_had (s : State) (r : Nat) (f : TxFifo) : (s.setTxf r f).had = s.had := rfl
@[simp] theorem State.setTxf_ept (s : State) (r : Nat) (f : TxFifo) : (s.setTxf r f).ept = s.ept := rfl
@[simp] theorem State.setTxf_hif (s : State) (r : Nat) (f : TxFifo) : (s.setTxf r f).hif = s.hif := rfl
@[simp] theorem State.setTxf_can (s : State) (r : Nat) (f : TxFifo) : (s.setTxf r f).can = s.can := rfl
@[simp] theorem State.setTxf_lin (s : State) (r : Nat) (f : TxFifo) : (s.setTxf r f).lin = s.lin := rfl
@[simp] theorem State.setTxf_cfl (s : State) (r : Nat) (f : TxFifo) : (s.setTxf r f).cfl = s.cfl := rfl
@[simp] theorem State.setTxf_vlt (s : State) (r : Nat) (f : TxFifo) : (s.setTxf r f).vlt = s.vlt := rfl
@[simp] theorem State.setTxf_auth (s : State) (r : Nat) (f : TxFifo) : (s.setTxf r f).auth = s.auth := rfl
@[simp] theorem State.setTxf_twn (s : State) (r : Nat) (f : TxFifo) : (s.setTxf r f).twn = s.twn := rfl
@[simp] theorem State.setTxf_tim (s : State) (r : Nat) (f : TxFifo) : (s.setTxf r f).tim = s.tim := rfl
@[simp] theorem State.setTxf_pwr (s : State) (r : Nat) (f : TxFifo) : (s.setTxf r f).pwr = s.pwr := rfl
@[simp] theorem State.setTxf_mgs (s : State) (r : Nat) (f : TxFifo) : (s.setTxf r f).mgs = s.mgs := rfl
@[simp] theorem State.setTxf_svc (s : State) (r : Nat) (f : TxFifo) : (s.setTxf r f).svc = s.svc := rfl
@[simp] theorem State.setTxf_inj (s : State) (r : Nat) (f : TxFifo) : (s.setTxf r f).inj = s.inj := rfl
@[simp] theorem State.setTxf_out (s : State) (r : Nat) (f : TxFifo) : (s.setTxf r f).out = s.out := rfl
@[simp] theorem State.setTxf_free (s : State) (r : Nat) (f : TxFifo) : (s.setTxf r f).free = s.free := rfl
@[simp] theorem State.setTxf_pending (s : State) (r : Nat) (f : TxFifo) : (s.setTxf r f).pending = s.pending := rfl

/-! `setSluice` writes slu. -/

@[simp] theorem State.setSluice_regs (s : State) (p : Nat) (v : Sluice) : (s.setSluice p v).regs = s.regs := rfl
@[simp] theorem State.setSluice_slots (s : State) (p : Nat) (v : Sluice) : (s.setSluice p v).slots = s.slots := rfl
@[simp] theorem State.setSluice_fences (s : State) (p : Nat) (v : Sluice) : (s.setSluice p v).fences = s.fences := rfl
@[simp] theorem State.setSluice_holds (s : State) (p : Nat) (v : Sluice) : (s.setSluice p v).holds = s.holds := rfl
@[simp] theorem State.setSluice_snaps (s : State) (p : Nat) (v : Sluice) : (s.setSluice p v).snaps = s.snaps := rfl
@[simp] theorem State.setSluice_tbl (s : State) (p : Nat) (v : Sluice) : (s.setSluice p v).tbl = s.tbl := rfl
@[simp] theorem State.setSluice_stage (s : State) (p : Nat) (v : Sluice) : (s.setSluice p v).stage = s.stage := rfl
@[simp] theorem State.setSluice_commitQ (s : State) (p : Nat) (v : Sluice) : (s.setSluice p v).commitQ = s.commitQ := rfl
@[simp] theorem State.setSluice_commits (s : State) (p : Nat) (v : Sluice) : (s.setSluice p v).commits = s.commits := rfl
@[simp] theorem State.setSluice_frcNs (s : State) (p : Nat) (v : Sluice) : (s.setSluice p v).frcNs = s.frcNs := rfl
@[simp] theorem State.setSluice_frcFrac (s : State) (p : Nat) (v : Sluice) : (s.setSluice p v).frcFrac = s.frcFrac := rfl
@[simp] theorem State.setSluice_msix (s : State) (p : Nat) (v : Sluice) : (s.setSluice p v).msix = s.msix := rfl
@[simp] theorem State.setSluice_resets (s : State) (p : Nat) (v : Sluice) : (s.setSluice p v).resets = s.resets := rfl
@[simp] theorem State.setSluice_lrn (s : State) (p : Nat) (v : Sluice) : (s.setSluice p v).lrn = s.lrn := rfl
@[simp] theorem State.setSluice_bsn (s : State) (p : Nat) (v : Sluice) : (s.setSluice p v).bsn = s.bsn := rfl
@[simp] theorem State.setSluice_meters (s : State) (p : Nat) (v : Sluice) : (s.setSluice p v).meters = s.meters := rfl
@[simp] theorem State.setSluice_egr (s : State) (p : Nat) (v : Sluice) : (s.setSluice p v).egr = s.egr := rfl
@[simp] theorem State.setSluice_bud (s : State) (p : Nat) (v : Sluice) : (s.setSluice p v).bud = s.bud := rfl
@[simp] theorem State.setSluice_fre (s : State) (p : Nat) (v : Sluice) : (s.setSluice p v).fre = s.fre := rfl
@[simp] theorem State.setSluice_fgd (s : State) (p : Nat) (v : Sluice) : (s.setSluice p v).fgd = s.fgd := rfl
@[simp] theorem State.setSluice_had (s : State) (p : Nat) (v : Sluice) : (s.setSluice p v).had = s.had := rfl
@[simp] theorem State.setSluice_ept (s : State) (p : Nat) (v : Sluice) : (s.setSluice p v).ept = s.ept := rfl
@[simp] theorem State.setSluice_hif (s : State) (p : Nat) (v : Sluice) : (s.setSluice p v).hif = s.hif := rfl
@[simp] theorem State.setSluice_can (s : State) (p : Nat) (v : Sluice) : (s.setSluice p v).can = s.can := rfl
@[simp] theorem State.setSluice_lin (s : State) (p : Nat) (v : Sluice) : (s.setSluice p v).lin = s.lin := rfl
@[simp] theorem State.setSluice_cfl (s : State) (p : Nat) (v : Sluice) : (s.setSluice p v).cfl = s.cfl := rfl
@[simp] theorem State.setSluice_vlt (s : State) (p : Nat) (v : Sluice) : (s.setSluice p v).vlt = s.vlt := rfl
@[simp] theorem State.setSluice_auth (s : State) (p : Nat) (v : Sluice) : (s.setSluice p v).auth = s.auth := rfl
@[simp] theorem State.setSluice_twn (s : State) (p : Nat) (v : Sluice) : (s.setSluice p v).twn = s.twn := rfl
@[simp] theorem State.setSluice_tim (s : State) (p : Nat) (v : Sluice) : (s.setSluice p v).tim = s.tim := rfl
@[simp] theorem State.setSluice_pwr (s : State) (p : Nat) (v : Sluice) : (s.setSluice p v).pwr = s.pwr := rfl
@[simp] theorem State.setSluice_mgs (s : State) (p : Nat) (v : Sluice) : (s.setSluice p v).mgs = s.mgs := rfl
@[simp] theorem State.setSluice_svc (s : State) (p : Nat) (v : Sluice) : (s.setSluice p v).svc = s.svc := rfl
@[simp] theorem State.setSluice_inj (s : State) (p : Nat) (v : Sluice) : (s.setSluice p v).inj = s.inj := rfl
@[simp] theorem State.setSluice_out (s : State) (p : Nat) (v : Sluice) : (s.setSluice p v).out = s.out := rfl
@[simp] theorem State.setSluice_free (s : State) (p : Nat) (v : Sluice) : (s.setSluice p v).free = s.free := rfl
@[simp] theorem State.setSluice_pending (s : State) (p : Nat) (v : Sluice) : (s.setSluice p v).pending = s.pending := rfl

/-! `setFre` writes fre. -/

@[simp] theorem State.setFre_regs (s : State) (i : Nat) (f : FreFn) : (s.setFre i f).regs = s.regs := rfl
@[simp] theorem State.setFre_slots (s : State) (i : Nat) (f : FreFn) : (s.setFre i f).slots = s.slots := rfl
@[simp] theorem State.setFre_fences (s : State) (i : Nat) (f : FreFn) : (s.setFre i f).fences = s.fences := rfl
@[simp] theorem State.setFre_holds (s : State) (i : Nat) (f : FreFn) : (s.setFre i f).holds = s.holds := rfl
@[simp] theorem State.setFre_snaps (s : State) (i : Nat) (f : FreFn) : (s.setFre i f).snaps = s.snaps := rfl
@[simp] theorem State.setFre_tbl (s : State) (i : Nat) (f : FreFn) : (s.setFre i f).tbl = s.tbl := rfl
@[simp] theorem State.setFre_stage (s : State) (i : Nat) (f : FreFn) : (s.setFre i f).stage = s.stage := rfl
@[simp] theorem State.setFre_commitQ (s : State) (i : Nat) (f : FreFn) : (s.setFre i f).commitQ = s.commitQ := rfl
@[simp] theorem State.setFre_commits (s : State) (i : Nat) (f : FreFn) : (s.setFre i f).commits = s.commits := rfl
@[simp] theorem State.setFre_frcNs (s : State) (i : Nat) (f : FreFn) : (s.setFre i f).frcNs = s.frcNs := rfl
@[simp] theorem State.setFre_frcFrac (s : State) (i : Nat) (f : FreFn) : (s.setFre i f).frcFrac = s.frcFrac := rfl
@[simp] theorem State.setFre_msix (s : State) (i : Nat) (f : FreFn) : (s.setFre i f).msix = s.msix := rfl
@[simp] theorem State.setFre_resets (s : State) (i : Nat) (f : FreFn) : (s.setFre i f).resets = s.resets := rfl
@[simp] theorem State.setFre_lrn (s : State) (i : Nat) (f : FreFn) : (s.setFre i f).lrn = s.lrn := rfl
@[simp] theorem State.setFre_bsn (s : State) (i : Nat) (f : FreFn) : (s.setFre i f).bsn = s.bsn := rfl
@[simp] theorem State.setFre_meters (s : State) (i : Nat) (f : FreFn) : (s.setFre i f).meters = s.meters := rfl
@[simp] theorem State.setFre_egr (s : State) (i : Nat) (f : FreFn) : (s.setFre i f).egr = s.egr := rfl
@[simp] theorem State.setFre_slu (s : State) (i : Nat) (f : FreFn) : (s.setFre i f).slu = s.slu := rfl
@[simp] theorem State.setFre_bud (s : State) (i : Nat) (f : FreFn) : (s.setFre i f).bud = s.bud := rfl
@[simp] theorem State.setFre_fgd (s : State) (i : Nat) (f : FreFn) : (s.setFre i f).fgd = s.fgd := rfl
@[simp] theorem State.setFre_had (s : State) (i : Nat) (f : FreFn) : (s.setFre i f).had = s.had := rfl
@[simp] theorem State.setFre_ept (s : State) (i : Nat) (f : FreFn) : (s.setFre i f).ept = s.ept := rfl
@[simp] theorem State.setFre_hif (s : State) (i : Nat) (f : FreFn) : (s.setFre i f).hif = s.hif := rfl
@[simp] theorem State.setFre_can (s : State) (i : Nat) (f : FreFn) : (s.setFre i f).can = s.can := rfl
@[simp] theorem State.setFre_lin (s : State) (i : Nat) (f : FreFn) : (s.setFre i f).lin = s.lin := rfl
@[simp] theorem State.setFre_cfl (s : State) (i : Nat) (f : FreFn) : (s.setFre i f).cfl = s.cfl := rfl
@[simp] theorem State.setFre_vlt (s : State) (i : Nat) (f : FreFn) : (s.setFre i f).vlt = s.vlt := rfl
@[simp] theorem State.setFre_auth (s : State) (i : Nat) (f : FreFn) : (s.setFre i f).auth = s.auth := rfl
@[simp] theorem State.setFre_twn (s : State) (i : Nat) (f : FreFn) : (s.setFre i f).twn = s.twn := rfl
@[simp] theorem State.setFre_tim (s : State) (i : Nat) (f : FreFn) : (s.setFre i f).tim = s.tim := rfl
@[simp] theorem State.setFre_pwr (s : State) (i : Nat) (f : FreFn) : (s.setFre i f).pwr = s.pwr := rfl
@[simp] theorem State.setFre_mgs (s : State) (i : Nat) (f : FreFn) : (s.setFre i f).mgs = s.mgs := rfl
@[simp] theorem State.setFre_svc (s : State) (i : Nat) (f : FreFn) : (s.setFre i f).svc = s.svc := rfl
@[simp] theorem State.setFre_inj (s : State) (i : Nat) (f : FreFn) : (s.setFre i f).inj = s.inj := rfl
@[simp] theorem State.setFre_out (s : State) (i : Nat) (f : FreFn) : (s.setFre i f).out = s.out := rfl
@[simp] theorem State.setFre_free (s : State) (i : Nat) (f : FreFn) : (s.setFre i f).free = s.free := rfl
@[simp] theorem State.setFre_pending (s : State) (i : Nat) (f : FreFn) : (s.setFre i f).pending = s.pending := rfl

/-! `setKslot` writes vlt. -/

@[simp] theorem State.setKslot_regs (s : State) (i : Nat) (k : KeySlot) : (s.setKslot i k).regs = s.regs := rfl
@[simp] theorem State.setKslot_slots (s : State) (i : Nat) (k : KeySlot) : (s.setKslot i k).slots = s.slots := rfl
@[simp] theorem State.setKslot_fences (s : State) (i : Nat) (k : KeySlot) : (s.setKslot i k).fences = s.fences := rfl
@[simp] theorem State.setKslot_holds (s : State) (i : Nat) (k : KeySlot) : (s.setKslot i k).holds = s.holds := rfl
@[simp] theorem State.setKslot_snaps (s : State) (i : Nat) (k : KeySlot) : (s.setKslot i k).snaps = s.snaps := rfl
@[simp] theorem State.setKslot_tbl (s : State) (i : Nat) (k : KeySlot) : (s.setKslot i k).tbl = s.tbl := rfl
@[simp] theorem State.setKslot_stage (s : State) (i : Nat) (k : KeySlot) : (s.setKslot i k).stage = s.stage := rfl
@[simp] theorem State.setKslot_commitQ (s : State) (i : Nat) (k : KeySlot) : (s.setKslot i k).commitQ = s.commitQ := rfl
@[simp] theorem State.setKslot_commits (s : State) (i : Nat) (k : KeySlot) : (s.setKslot i k).commits = s.commits := rfl
@[simp] theorem State.setKslot_frcNs (s : State) (i : Nat) (k : KeySlot) : (s.setKslot i k).frcNs = s.frcNs := rfl
@[simp] theorem State.setKslot_frcFrac (s : State) (i : Nat) (k : KeySlot) : (s.setKslot i k).frcFrac = s.frcFrac := rfl
@[simp] theorem State.setKslot_msix (s : State) (i : Nat) (k : KeySlot) : (s.setKslot i k).msix = s.msix := rfl
@[simp] theorem State.setKslot_resets (s : State) (i : Nat) (k : KeySlot) : (s.setKslot i k).resets = s.resets := rfl
@[simp] theorem State.setKslot_lrn (s : State) (i : Nat) (k : KeySlot) : (s.setKslot i k).lrn = s.lrn := rfl
@[simp] theorem State.setKslot_bsn (s : State) (i : Nat) (k : KeySlot) : (s.setKslot i k).bsn = s.bsn := rfl
@[simp] theorem State.setKslot_meters (s : State) (i : Nat) (k : KeySlot) : (s.setKslot i k).meters = s.meters := rfl
@[simp] theorem State.setKslot_egr (s : State) (i : Nat) (k : KeySlot) : (s.setKslot i k).egr = s.egr := rfl
@[simp] theorem State.setKslot_slu (s : State) (i : Nat) (k : KeySlot) : (s.setKslot i k).slu = s.slu := rfl
@[simp] theorem State.setKslot_bud (s : State) (i : Nat) (k : KeySlot) : (s.setKslot i k).bud = s.bud := rfl
@[simp] theorem State.setKslot_fre (s : State) (i : Nat) (k : KeySlot) : (s.setKslot i k).fre = s.fre := rfl
@[simp] theorem State.setKslot_fgd (s : State) (i : Nat) (k : KeySlot) : (s.setKslot i k).fgd = s.fgd := rfl
@[simp] theorem State.setKslot_had (s : State) (i : Nat) (k : KeySlot) : (s.setKslot i k).had = s.had := rfl
@[simp] theorem State.setKslot_ept (s : State) (i : Nat) (k : KeySlot) : (s.setKslot i k).ept = s.ept := rfl
@[simp] theorem State.setKslot_hif (s : State) (i : Nat) (k : KeySlot) : (s.setKslot i k).hif = s.hif := rfl
@[simp] theorem State.setKslot_can (s : State) (i : Nat) (k : KeySlot) : (s.setKslot i k).can = s.can := rfl
@[simp] theorem State.setKslot_lin (s : State) (i : Nat) (k : KeySlot) : (s.setKslot i k).lin = s.lin := rfl
@[simp] theorem State.setKslot_cfl (s : State) (i : Nat) (k : KeySlot) : (s.setKslot i k).cfl = s.cfl := rfl
@[simp] theorem State.setKslot_auth (s : State) (i : Nat) (k : KeySlot) : (s.setKslot i k).auth = s.auth := rfl
@[simp] theorem State.setKslot_twn (s : State) (i : Nat) (k : KeySlot) : (s.setKslot i k).twn = s.twn := rfl
@[simp] theorem State.setKslot_tim (s : State) (i : Nat) (k : KeySlot) : (s.setKslot i k).tim = s.tim := rfl
@[simp] theorem State.setKslot_pwr (s : State) (i : Nat) (k : KeySlot) : (s.setKslot i k).pwr = s.pwr := rfl
@[simp] theorem State.setKslot_mgs (s : State) (i : Nat) (k : KeySlot) : (s.setKslot i k).mgs = s.mgs := rfl
@[simp] theorem State.setKslot_svc (s : State) (i : Nat) (k : KeySlot) : (s.setKslot i k).svc = s.svc := rfl
@[simp] theorem State.setKslot_inj (s : State) (i : Nat) (k : KeySlot) : (s.setKslot i k).inj = s.inj := rfl
@[simp] theorem State.setKslot_out (s : State) (i : Nat) (k : KeySlot) : (s.setKslot i k).out = s.out := rfl
@[simp] theorem State.setKslot_free (s : State) (i : Nat) (k : KeySlot) : (s.setKslot i k).free = s.free := rfl
@[simp] theorem State.setKslot_pending (s : State) (i : Nat) (k : KeySlot) : (s.setKslot i k).pending = s.pending := rfl

/-! `setSa` writes auth. -/

@[simp] theorem State.setSa_regs (s : State) (n : Nat) (v : Sa) : (s.setSa n v).regs = s.regs := rfl
@[simp] theorem State.setSa_slots (s : State) (n : Nat) (v : Sa) : (s.setSa n v).slots = s.slots := rfl
@[simp] theorem State.setSa_fences (s : State) (n : Nat) (v : Sa) : (s.setSa n v).fences = s.fences := rfl
@[simp] theorem State.setSa_holds (s : State) (n : Nat) (v : Sa) : (s.setSa n v).holds = s.holds := rfl
@[simp] theorem State.setSa_snaps (s : State) (n : Nat) (v : Sa) : (s.setSa n v).snaps = s.snaps := rfl
@[simp] theorem State.setSa_tbl (s : State) (n : Nat) (v : Sa) : (s.setSa n v).tbl = s.tbl := rfl
@[simp] theorem State.setSa_stage (s : State) (n : Nat) (v : Sa) : (s.setSa n v).stage = s.stage := rfl
@[simp] theorem State.setSa_commitQ (s : State) (n : Nat) (v : Sa) : (s.setSa n v).commitQ = s.commitQ := rfl
@[simp] theorem State.setSa_commits (s : State) (n : Nat) (v : Sa) : (s.setSa n v).commits = s.commits := rfl
@[simp] theorem State.setSa_frcNs (s : State) (n : Nat) (v : Sa) : (s.setSa n v).frcNs = s.frcNs := rfl
@[simp] theorem State.setSa_frcFrac (s : State) (n : Nat) (v : Sa) : (s.setSa n v).frcFrac = s.frcFrac := rfl
@[simp] theorem State.setSa_msix (s : State) (n : Nat) (v : Sa) : (s.setSa n v).msix = s.msix := rfl
@[simp] theorem State.setSa_resets (s : State) (n : Nat) (v : Sa) : (s.setSa n v).resets = s.resets := rfl
@[simp] theorem State.setSa_lrn (s : State) (n : Nat) (v : Sa) : (s.setSa n v).lrn = s.lrn := rfl
@[simp] theorem State.setSa_bsn (s : State) (n : Nat) (v : Sa) : (s.setSa n v).bsn = s.bsn := rfl
@[simp] theorem State.setSa_meters (s : State) (n : Nat) (v : Sa) : (s.setSa n v).meters = s.meters := rfl
@[simp] theorem State.setSa_egr (s : State) (n : Nat) (v : Sa) : (s.setSa n v).egr = s.egr := rfl
@[simp] theorem State.setSa_slu (s : State) (n : Nat) (v : Sa) : (s.setSa n v).slu = s.slu := rfl
@[simp] theorem State.setSa_bud (s : State) (n : Nat) (v : Sa) : (s.setSa n v).bud = s.bud := rfl
@[simp] theorem State.setSa_fre (s : State) (n : Nat) (v : Sa) : (s.setSa n v).fre = s.fre := rfl
@[simp] theorem State.setSa_fgd (s : State) (n : Nat) (v : Sa) : (s.setSa n v).fgd = s.fgd := rfl
@[simp] theorem State.setSa_had (s : State) (n : Nat) (v : Sa) : (s.setSa n v).had = s.had := rfl
@[simp] theorem State.setSa_ept (s : State) (n : Nat) (v : Sa) : (s.setSa n v).ept = s.ept := rfl
@[simp] theorem State.setSa_hif (s : State) (n : Nat) (v : Sa) : (s.setSa n v).hif = s.hif := rfl
@[simp] theorem State.setSa_can (s : State) (n : Nat) (v : Sa) : (s.setSa n v).can = s.can := rfl
@[simp] theorem State.setSa_lin (s : State) (n : Nat) (v : Sa) : (s.setSa n v).lin = s.lin := rfl
@[simp] theorem State.setSa_cfl (s : State) (n : Nat) (v : Sa) : (s.setSa n v).cfl = s.cfl := rfl
@[simp] theorem State.setSa_vlt (s : State) (n : Nat) (v : Sa) : (s.setSa n v).vlt = s.vlt := rfl
@[simp] theorem State.setSa_twn (s : State) (n : Nat) (v : Sa) : (s.setSa n v).twn = s.twn := rfl
@[simp] theorem State.setSa_tim (s : State) (n : Nat) (v : Sa) : (s.setSa n v).tim = s.tim := rfl
@[simp] theorem State.setSa_pwr (s : State) (n : Nat) (v : Sa) : (s.setSa n v).pwr = s.pwr := rfl
@[simp] theorem State.setSa_mgs (s : State) (n : Nat) (v : Sa) : (s.setSa n v).mgs = s.mgs := rfl
@[simp] theorem State.setSa_svc (s : State) (n : Nat) (v : Sa) : (s.setSa n v).svc = s.svc := rfl
@[simp] theorem State.setSa_inj (s : State) (n : Nat) (v : Sa) : (s.setSa n v).inj = s.inj := rfl
@[simp] theorem State.setSa_out (s : State) (n : Nat) (v : Sa) : (s.setSa n v).out = s.out := rfl
@[simp] theorem State.setSa_free (s : State) (n : Nat) (v : Sa) : (s.setSa n v).free = s.free := rfl
@[simp] theorem State.setSa_pending (s : State) (n : Nat) (v : Sa) : (s.setSa n v).pending = s.pending := rfl

/-! `setCau` writes auth. -/

@[simp] theorem State.setCau_regs (s : State) (n : Nat) (v : CauEnt) : (s.setCau n v).regs = s.regs := rfl
@[simp] theorem State.setCau_slots (s : State) (n : Nat) (v : CauEnt) : (s.setCau n v).slots = s.slots := rfl
@[simp] theorem State.setCau_fences (s : State) (n : Nat) (v : CauEnt) : (s.setCau n v).fences = s.fences := rfl
@[simp] theorem State.setCau_holds (s : State) (n : Nat) (v : CauEnt) : (s.setCau n v).holds = s.holds := rfl
@[simp] theorem State.setCau_snaps (s : State) (n : Nat) (v : CauEnt) : (s.setCau n v).snaps = s.snaps := rfl
@[simp] theorem State.setCau_tbl (s : State) (n : Nat) (v : CauEnt) : (s.setCau n v).tbl = s.tbl := rfl
@[simp] theorem State.setCau_stage (s : State) (n : Nat) (v : CauEnt) : (s.setCau n v).stage = s.stage := rfl
@[simp] theorem State.setCau_commitQ (s : State) (n : Nat) (v : CauEnt) : (s.setCau n v).commitQ = s.commitQ := rfl
@[simp] theorem State.setCau_commits (s : State) (n : Nat) (v : CauEnt) : (s.setCau n v).commits = s.commits := rfl
@[simp] theorem State.setCau_frcNs (s : State) (n : Nat) (v : CauEnt) : (s.setCau n v).frcNs = s.frcNs := rfl
@[simp] theorem State.setCau_frcFrac (s : State) (n : Nat) (v : CauEnt) : (s.setCau n v).frcFrac = s.frcFrac := rfl
@[simp] theorem State.setCau_msix (s : State) (n : Nat) (v : CauEnt) : (s.setCau n v).msix = s.msix := rfl
@[simp] theorem State.setCau_resets (s : State) (n : Nat) (v : CauEnt) : (s.setCau n v).resets = s.resets := rfl
@[simp] theorem State.setCau_lrn (s : State) (n : Nat) (v : CauEnt) : (s.setCau n v).lrn = s.lrn := rfl
@[simp] theorem State.setCau_bsn (s : State) (n : Nat) (v : CauEnt) : (s.setCau n v).bsn = s.bsn := rfl
@[simp] theorem State.setCau_meters (s : State) (n : Nat) (v : CauEnt) : (s.setCau n v).meters = s.meters := rfl
@[simp] theorem State.setCau_egr (s : State) (n : Nat) (v : CauEnt) : (s.setCau n v).egr = s.egr := rfl
@[simp] theorem State.setCau_slu (s : State) (n : Nat) (v : CauEnt) : (s.setCau n v).slu = s.slu := rfl
@[simp] theorem State.setCau_bud (s : State) (n : Nat) (v : CauEnt) : (s.setCau n v).bud = s.bud := rfl
@[simp] theorem State.setCau_fre (s : State) (n : Nat) (v : CauEnt) : (s.setCau n v).fre = s.fre := rfl
@[simp] theorem State.setCau_fgd (s : State) (n : Nat) (v : CauEnt) : (s.setCau n v).fgd = s.fgd := rfl
@[simp] theorem State.setCau_had (s : State) (n : Nat) (v : CauEnt) : (s.setCau n v).had = s.had := rfl
@[simp] theorem State.setCau_ept (s : State) (n : Nat) (v : CauEnt) : (s.setCau n v).ept = s.ept := rfl
@[simp] theorem State.setCau_hif (s : State) (n : Nat) (v : CauEnt) : (s.setCau n v).hif = s.hif := rfl
@[simp] theorem State.setCau_can (s : State) (n : Nat) (v : CauEnt) : (s.setCau n v).can = s.can := rfl
@[simp] theorem State.setCau_lin (s : State) (n : Nat) (v : CauEnt) : (s.setCau n v).lin = s.lin := rfl
@[simp] theorem State.setCau_cfl (s : State) (n : Nat) (v : CauEnt) : (s.setCau n v).cfl = s.cfl := rfl
@[simp] theorem State.setCau_vlt (s : State) (n : Nat) (v : CauEnt) : (s.setCau n v).vlt = s.vlt := rfl
@[simp] theorem State.setCau_twn (s : State) (n : Nat) (v : CauEnt) : (s.setCau n v).twn = s.twn := rfl
@[simp] theorem State.setCau_tim (s : State) (n : Nat) (v : CauEnt) : (s.setCau n v).tim = s.tim := rfl
@[simp] theorem State.setCau_pwr (s : State) (n : Nat) (v : CauEnt) : (s.setCau n v).pwr = s.pwr := rfl
@[simp] theorem State.setCau_mgs (s : State) (n : Nat) (v : CauEnt) : (s.setCau n v).mgs = s.mgs := rfl
@[simp] theorem State.setCau_svc (s : State) (n : Nat) (v : CauEnt) : (s.setCau n v).svc = s.svc := rfl
@[simp] theorem State.setCau_inj (s : State) (n : Nat) (v : CauEnt) : (s.setCau n v).inj = s.inj := rfl
@[simp] theorem State.setCau_out (s : State) (n : Nat) (v : CauEnt) : (s.setCau n v).out = s.out := rfl
@[simp] theorem State.setCau_free (s : State) (n : Nat) (v : CauEnt) : (s.setCau n v).free = s.free := rfl
@[simp] theorem State.setCau_pending (s : State) (n : Nat) (v : CauEnt) : (s.setCau n v).pending = s.pending := rfl

/-! `setMeter` writes meters. -/

@[simp] theorem State.setMeter_regs (s : State) (i : Nat) (m : Meter) : (s.setMeter i m).regs = s.regs := rfl
@[simp] theorem State.setMeter_slots (s : State) (i : Nat) (m : Meter) : (s.setMeter i m).slots = s.slots := rfl
@[simp] theorem State.setMeter_fences (s : State) (i : Nat) (m : Meter) : (s.setMeter i m).fences = s.fences := rfl
@[simp] theorem State.setMeter_holds (s : State) (i : Nat) (m : Meter) : (s.setMeter i m).holds = s.holds := rfl
@[simp] theorem State.setMeter_snaps (s : State) (i : Nat) (m : Meter) : (s.setMeter i m).snaps = s.snaps := rfl
@[simp] theorem State.setMeter_tbl (s : State) (i : Nat) (m : Meter) : (s.setMeter i m).tbl = s.tbl := rfl
@[simp] theorem State.setMeter_stage (s : State) (i : Nat) (m : Meter) : (s.setMeter i m).stage = s.stage := rfl
@[simp] theorem State.setMeter_commitQ (s : State) (i : Nat) (m : Meter) : (s.setMeter i m).commitQ = s.commitQ := rfl
@[simp] theorem State.setMeter_commits (s : State) (i : Nat) (m : Meter) : (s.setMeter i m).commits = s.commits := rfl
@[simp] theorem State.setMeter_frcNs (s : State) (i : Nat) (m : Meter) : (s.setMeter i m).frcNs = s.frcNs := rfl
@[simp] theorem State.setMeter_frcFrac (s : State) (i : Nat) (m : Meter) : (s.setMeter i m).frcFrac = s.frcFrac := rfl
@[simp] theorem State.setMeter_msix (s : State) (i : Nat) (m : Meter) : (s.setMeter i m).msix = s.msix := rfl
@[simp] theorem State.setMeter_resets (s : State) (i : Nat) (m : Meter) : (s.setMeter i m).resets = s.resets := rfl
@[simp] theorem State.setMeter_lrn (s : State) (i : Nat) (m : Meter) : (s.setMeter i m).lrn = s.lrn := rfl
@[simp] theorem State.setMeter_bsn (s : State) (i : Nat) (m : Meter) : (s.setMeter i m).bsn = s.bsn := rfl
@[simp] theorem State.setMeter_egr (s : State) (i : Nat) (m : Meter) : (s.setMeter i m).egr = s.egr := rfl
@[simp] theorem State.setMeter_slu (s : State) (i : Nat) (m : Meter) : (s.setMeter i m).slu = s.slu := rfl
@[simp] theorem State.setMeter_bud (s : State) (i : Nat) (m : Meter) : (s.setMeter i m).bud = s.bud := rfl
@[simp] theorem State.setMeter_fre (s : State) (i : Nat) (m : Meter) : (s.setMeter i m).fre = s.fre := rfl
@[simp] theorem State.setMeter_fgd (s : State) (i : Nat) (m : Meter) : (s.setMeter i m).fgd = s.fgd := rfl
@[simp] theorem State.setMeter_had (s : State) (i : Nat) (m : Meter) : (s.setMeter i m).had = s.had := rfl
@[simp] theorem State.setMeter_ept (s : State) (i : Nat) (m : Meter) : (s.setMeter i m).ept = s.ept := rfl
@[simp] theorem State.setMeter_hif (s : State) (i : Nat) (m : Meter) : (s.setMeter i m).hif = s.hif := rfl
@[simp] theorem State.setMeter_can (s : State) (i : Nat) (m : Meter) : (s.setMeter i m).can = s.can := rfl
@[simp] theorem State.setMeter_lin (s : State) (i : Nat) (m : Meter) : (s.setMeter i m).lin = s.lin := rfl
@[simp] theorem State.setMeter_cfl (s : State) (i : Nat) (m : Meter) : (s.setMeter i m).cfl = s.cfl := rfl
@[simp] theorem State.setMeter_vlt (s : State) (i : Nat) (m : Meter) : (s.setMeter i m).vlt = s.vlt := rfl
@[simp] theorem State.setMeter_auth (s : State) (i : Nat) (m : Meter) : (s.setMeter i m).auth = s.auth := rfl
@[simp] theorem State.setMeter_twn (s : State) (i : Nat) (m : Meter) : (s.setMeter i m).twn = s.twn := rfl
@[simp] theorem State.setMeter_tim (s : State) (i : Nat) (m : Meter) : (s.setMeter i m).tim = s.tim := rfl
@[simp] theorem State.setMeter_pwr (s : State) (i : Nat) (m : Meter) : (s.setMeter i m).pwr = s.pwr := rfl
@[simp] theorem State.setMeter_mgs (s : State) (i : Nat) (m : Meter) : (s.setMeter i m).mgs = s.mgs := rfl
@[simp] theorem State.setMeter_svc (s : State) (i : Nat) (m : Meter) : (s.setMeter i m).svc = s.svc := rfl
@[simp] theorem State.setMeter_inj (s : State) (i : Nat) (m : Meter) : (s.setMeter i m).inj = s.inj := rfl
@[simp] theorem State.setMeter_out (s : State) (i : Nat) (m : Meter) : (s.setMeter i m).out = s.out := rfl
@[simp] theorem State.setMeter_free (s : State) (i : Nat) (m : Meter) : (s.setMeter i m).free = s.free := rfl
@[simp] theorem State.setMeter_pending (s : State) (i : Nat) (m : Meter) : (s.setMeter i m).pending = s.pending := rfl

/-! `setView` writes fgd. -/

@[simp] theorem State.setView_regs (s : State) (v : Nat) (x : View) : (s.setView v x).regs = s.regs := rfl
@[simp] theorem State.setView_slots (s : State) (v : Nat) (x : View) : (s.setView v x).slots = s.slots := rfl
@[simp] theorem State.setView_fences (s : State) (v : Nat) (x : View) : (s.setView v x).fences = s.fences := rfl
@[simp] theorem State.setView_holds (s : State) (v : Nat) (x : View) : (s.setView v x).holds = s.holds := rfl
@[simp] theorem State.setView_snaps (s : State) (v : Nat) (x : View) : (s.setView v x).snaps = s.snaps := rfl
@[simp] theorem State.setView_tbl (s : State) (v : Nat) (x : View) : (s.setView v x).tbl = s.tbl := rfl
@[simp] theorem State.setView_stage (s : State) (v : Nat) (x : View) : (s.setView v x).stage = s.stage := rfl
@[simp] theorem State.setView_commitQ (s : State) (v : Nat) (x : View) : (s.setView v x).commitQ = s.commitQ := rfl
@[simp] theorem State.setView_commits (s : State) (v : Nat) (x : View) : (s.setView v x).commits = s.commits := rfl
@[simp] theorem State.setView_frcNs (s : State) (v : Nat) (x : View) : (s.setView v x).frcNs = s.frcNs := rfl
@[simp] theorem State.setView_frcFrac (s : State) (v : Nat) (x : View) : (s.setView v x).frcFrac = s.frcFrac := rfl
@[simp] theorem State.setView_msix (s : State) (v : Nat) (x : View) : (s.setView v x).msix = s.msix := rfl
@[simp] theorem State.setView_resets (s : State) (v : Nat) (x : View) : (s.setView v x).resets = s.resets := rfl
@[simp] theorem State.setView_lrn (s : State) (v : Nat) (x : View) : (s.setView v x).lrn = s.lrn := rfl
@[simp] theorem State.setView_bsn (s : State) (v : Nat) (x : View) : (s.setView v x).bsn = s.bsn := rfl
@[simp] theorem State.setView_meters (s : State) (v : Nat) (x : View) : (s.setView v x).meters = s.meters := rfl
@[simp] theorem State.setView_egr (s : State) (v : Nat) (x : View) : (s.setView v x).egr = s.egr := rfl
@[simp] theorem State.setView_slu (s : State) (v : Nat) (x : View) : (s.setView v x).slu = s.slu := rfl
@[simp] theorem State.setView_bud (s : State) (v : Nat) (x : View) : (s.setView v x).bud = s.bud := rfl
@[simp] theorem State.setView_fre (s : State) (v : Nat) (x : View) : (s.setView v x).fre = s.fre := rfl
@[simp] theorem State.setView_had (s : State) (v : Nat) (x : View) : (s.setView v x).had = s.had := rfl
@[simp] theorem State.setView_ept (s : State) (v : Nat) (x : View) : (s.setView v x).ept = s.ept := rfl
@[simp] theorem State.setView_hif (s : State) (v : Nat) (x : View) : (s.setView v x).hif = s.hif := rfl
@[simp] theorem State.setView_can (s : State) (v : Nat) (x : View) : (s.setView v x).can = s.can := rfl
@[simp] theorem State.setView_lin (s : State) (v : Nat) (x : View) : (s.setView v x).lin = s.lin := rfl
@[simp] theorem State.setView_cfl (s : State) (v : Nat) (x : View) : (s.setView v x).cfl = s.cfl := rfl
@[simp] theorem State.setView_vlt (s : State) (v : Nat) (x : View) : (s.setView v x).vlt = s.vlt := rfl
@[simp] theorem State.setView_auth (s : State) (v : Nat) (x : View) : (s.setView v x).auth = s.auth := rfl
@[simp] theorem State.setView_twn (s : State) (v : Nat) (x : View) : (s.setView v x).twn = s.twn := rfl
@[simp] theorem State.setView_tim (s : State) (v : Nat) (x : View) : (s.setView v x).tim = s.tim := rfl
@[simp] theorem State.setView_pwr (s : State) (v : Nat) (x : View) : (s.setView v x).pwr = s.pwr := rfl
@[simp] theorem State.setView_mgs (s : State) (v : Nat) (x : View) : (s.setView v x).mgs = s.mgs := rfl
@[simp] theorem State.setView_svc (s : State) (v : Nat) (x : View) : (s.setView v x).svc = s.svc := rfl
@[simp] theorem State.setView_inj (s : State) (v : Nat) (x : View) : (s.setView v x).inj = s.inj := rfl
@[simp] theorem State.setView_out (s : State) (v : Nat) (x : View) : (s.setView v x).out = s.out := rfl
@[simp] theorem State.setView_free (s : State) (v : Nat) (x : View) : (s.setView v x).free = s.free := rfl
@[simp] theorem State.setView_pending (s : State) (v : Nat) (x : View) : (s.setView v x).pending = s.pending := rfl

/-! `setHead` writes had. -/

@[simp] theorem State.setHead_regs (s : State) (i : Nat) (h : Head) : (s.setHead i h).regs = s.regs := rfl
@[simp] theorem State.setHead_slots (s : State) (i : Nat) (h : Head) : (s.setHead i h).slots = s.slots := rfl
@[simp] theorem State.setHead_fences (s : State) (i : Nat) (h : Head) : (s.setHead i h).fences = s.fences := rfl
@[simp] theorem State.setHead_holds (s : State) (i : Nat) (h : Head) : (s.setHead i h).holds = s.holds := rfl
@[simp] theorem State.setHead_snaps (s : State) (i : Nat) (h : Head) : (s.setHead i h).snaps = s.snaps := rfl
@[simp] theorem State.setHead_tbl (s : State) (i : Nat) (h : Head) : (s.setHead i h).tbl = s.tbl := rfl
@[simp] theorem State.setHead_stage (s : State) (i : Nat) (h : Head) : (s.setHead i h).stage = s.stage := rfl
@[simp] theorem State.setHead_commitQ (s : State) (i : Nat) (h : Head) : (s.setHead i h).commitQ = s.commitQ := rfl
@[simp] theorem State.setHead_commits (s : State) (i : Nat) (h : Head) : (s.setHead i h).commits = s.commits := rfl
@[simp] theorem State.setHead_frcNs (s : State) (i : Nat) (h : Head) : (s.setHead i h).frcNs = s.frcNs := rfl
@[simp] theorem State.setHead_frcFrac (s : State) (i : Nat) (h : Head) : (s.setHead i h).frcFrac = s.frcFrac := rfl
@[simp] theorem State.setHead_msix (s : State) (i : Nat) (h : Head) : (s.setHead i h).msix = s.msix := rfl
@[simp] theorem State.setHead_resets (s : State) (i : Nat) (h : Head) : (s.setHead i h).resets = s.resets := rfl
@[simp] theorem State.setHead_lrn (s : State) (i : Nat) (h : Head) : (s.setHead i h).lrn = s.lrn := rfl
@[simp] theorem State.setHead_bsn (s : State) (i : Nat) (h : Head) : (s.setHead i h).bsn = s.bsn := rfl
@[simp] theorem State.setHead_meters (s : State) (i : Nat) (h : Head) : (s.setHead i h).meters = s.meters := rfl
@[simp] theorem State.setHead_egr (s : State) (i : Nat) (h : Head) : (s.setHead i h).egr = s.egr := rfl
@[simp] theorem State.setHead_slu (s : State) (i : Nat) (h : Head) : (s.setHead i h).slu = s.slu := rfl
@[simp] theorem State.setHead_bud (s : State) (i : Nat) (h : Head) : (s.setHead i h).bud = s.bud := rfl
@[simp] theorem State.setHead_fre (s : State) (i : Nat) (h : Head) : (s.setHead i h).fre = s.fre := rfl
@[simp] theorem State.setHead_fgd (s : State) (i : Nat) (h : Head) : (s.setHead i h).fgd = s.fgd := rfl
@[simp] theorem State.setHead_ept (s : State) (i : Nat) (h : Head) : (s.setHead i h).ept = s.ept := rfl
@[simp] theorem State.setHead_hif (s : State) (i : Nat) (h : Head) : (s.setHead i h).hif = s.hif := rfl
@[simp] theorem State.setHead_can (s : State) (i : Nat) (h : Head) : (s.setHead i h).can = s.can := rfl
@[simp] theorem State.setHead_lin (s : State) (i : Nat) (h : Head) : (s.setHead i h).lin = s.lin := rfl
@[simp] theorem State.setHead_cfl (s : State) (i : Nat) (h : Head) : (s.setHead i h).cfl = s.cfl := rfl
@[simp] theorem State.setHead_vlt (s : State) (i : Nat) (h : Head) : (s.setHead i h).vlt = s.vlt := rfl
@[simp] theorem State.setHead_auth (s : State) (i : Nat) (h : Head) : (s.setHead i h).auth = s.auth := rfl
@[simp] theorem State.setHead_twn (s : State) (i : Nat) (h : Head) : (s.setHead i h).twn = s.twn := rfl
@[simp] theorem State.setHead_tim (s : State) (i : Nat) (h : Head) : (s.setHead i h).tim = s.tim := rfl
@[simp] theorem State.setHead_pwr (s : State) (i : Nat) (h : Head) : (s.setHead i h).pwr = s.pwr := rfl
@[simp] theorem State.setHead_mgs (s : State) (i : Nat) (h : Head) : (s.setHead i h).mgs = s.mgs := rfl
@[simp] theorem State.setHead_svc (s : State) (i : Nat) (h : Head) : (s.setHead i h).svc = s.svc := rfl
@[simp] theorem State.setHead_inj (s : State) (i : Nat) (h : Head) : (s.setHead i h).inj = s.inj := rfl
@[simp] theorem State.setHead_out (s : State) (i : Nat) (h : Head) : (s.setHead i h).out = s.out := rfl
@[simp] theorem State.setHead_free (s : State) (i : Nat) (h : Head) : (s.setHead i h).free = s.free := rfl
@[simp] theorem State.setHead_pending (s : State) (i : Nat) (h : Head) : (s.setHead i h).pending = s.pending := rfl

/-! `setHport` writes had. -/

@[simp] theorem State.setHport_regs (s : State) (p : Nat) (h : HeadPort) : (s.setHport p h).regs = s.regs := rfl
@[simp] theorem State.setHport_slots (s : State) (p : Nat) (h : HeadPort) : (s.setHport p h).slots = s.slots := rfl
@[simp] theorem State.setHport_fences (s : State) (p : Nat) (h : HeadPort) : (s.setHport p h).fences = s.fences := rfl
@[simp] theorem State.setHport_holds (s : State) (p : Nat) (h : HeadPort) : (s.setHport p h).holds = s.holds := rfl
@[simp] theorem State.setHport_snaps (s : State) (p : Nat) (h : HeadPort) : (s.setHport p h).snaps = s.snaps := rfl
@[simp] theorem State.setHport_tbl (s : State) (p : Nat) (h : HeadPort) : (s.setHport p h).tbl = s.tbl := rfl
@[simp] theorem State.setHport_stage (s : State) (p : Nat) (h : HeadPort) : (s.setHport p h).stage = s.stage := rfl
@[simp] theorem State.setHport_commitQ (s : State) (p : Nat) (h : HeadPort) : (s.setHport p h).commitQ = s.commitQ := rfl
@[simp] theorem State.setHport_commits (s : State) (p : Nat) (h : HeadPort) : (s.setHport p h).commits = s.commits := rfl
@[simp] theorem State.setHport_frcNs (s : State) (p : Nat) (h : HeadPort) : (s.setHport p h).frcNs = s.frcNs := rfl
@[simp] theorem State.setHport_frcFrac (s : State) (p : Nat) (h : HeadPort) : (s.setHport p h).frcFrac = s.frcFrac := rfl
@[simp] theorem State.setHport_msix (s : State) (p : Nat) (h : HeadPort) : (s.setHport p h).msix = s.msix := rfl
@[simp] theorem State.setHport_resets (s : State) (p : Nat) (h : HeadPort) : (s.setHport p h).resets = s.resets := rfl
@[simp] theorem State.setHport_lrn (s : State) (p : Nat) (h : HeadPort) : (s.setHport p h).lrn = s.lrn := rfl
@[simp] theorem State.setHport_bsn (s : State) (p : Nat) (h : HeadPort) : (s.setHport p h).bsn = s.bsn := rfl
@[simp] theorem State.setHport_meters (s : State) (p : Nat) (h : HeadPort) : (s.setHport p h).meters = s.meters := rfl
@[simp] theorem State.setHport_egr (s : State) (p : Nat) (h : HeadPort) : (s.setHport p h).egr = s.egr := rfl
@[simp] theorem State.setHport_slu (s : State) (p : Nat) (h : HeadPort) : (s.setHport p h).slu = s.slu := rfl
@[simp] theorem State.setHport_bud (s : State) (p : Nat) (h : HeadPort) : (s.setHport p h).bud = s.bud := rfl
@[simp] theorem State.setHport_fre (s : State) (p : Nat) (h : HeadPort) : (s.setHport p h).fre = s.fre := rfl
@[simp] theorem State.setHport_fgd (s : State) (p : Nat) (h : HeadPort) : (s.setHport p h).fgd = s.fgd := rfl
@[simp] theorem State.setHport_ept (s : State) (p : Nat) (h : HeadPort) : (s.setHport p h).ept = s.ept := rfl
@[simp] theorem State.setHport_hif (s : State) (p : Nat) (h : HeadPort) : (s.setHport p h).hif = s.hif := rfl
@[simp] theorem State.setHport_can (s : State) (p : Nat) (h : HeadPort) : (s.setHport p h).can = s.can := rfl
@[simp] theorem State.setHport_lin (s : State) (p : Nat) (h : HeadPort) : (s.setHport p h).lin = s.lin := rfl
@[simp] theorem State.setHport_cfl (s : State) (p : Nat) (h : HeadPort) : (s.setHport p h).cfl = s.cfl := rfl
@[simp] theorem State.setHport_vlt (s : State) (p : Nat) (h : HeadPort) : (s.setHport p h).vlt = s.vlt := rfl
@[simp] theorem State.setHport_auth (s : State) (p : Nat) (h : HeadPort) : (s.setHport p h).auth = s.auth := rfl
@[simp] theorem State.setHport_twn (s : State) (p : Nat) (h : HeadPort) : (s.setHport p h).twn = s.twn := rfl
@[simp] theorem State.setHport_tim (s : State) (p : Nat) (h : HeadPort) : (s.setHport p h).tim = s.tim := rfl
@[simp] theorem State.setHport_pwr (s : State) (p : Nat) (h : HeadPort) : (s.setHport p h).pwr = s.pwr := rfl
@[simp] theorem State.setHport_mgs (s : State) (p : Nat) (h : HeadPort) : (s.setHport p h).mgs = s.mgs := rfl
@[simp] theorem State.setHport_svc (s : State) (p : Nat) (h : HeadPort) : (s.setHport p h).svc = s.svc := rfl
@[simp] theorem State.setHport_inj (s : State) (p : Nat) (h : HeadPort) : (s.setHport p h).inj = s.inj := rfl
@[simp] theorem State.setHport_out (s : State) (p : Nat) (h : HeadPort) : (s.setHport p h).out = s.out := rfl
@[simp] theorem State.setHport_free (s : State) (p : Nat) (h : HeadPort) : (s.setHport p h).free = s.free := rfl
@[simp] theorem State.setHport_pending (s : State) (p : Nat) (h : HeadPort) : (s.setHport p h).pending = s.pending := rfl

/-! `setPwr` writes pwr. -/

@[simp] theorem State.setPwr_regs (s : State) (p : PwrSt) : (s.setPwr p).regs = s.regs := rfl
@[simp] theorem State.setPwr_slots (s : State) (p : PwrSt) : (s.setPwr p).slots = s.slots := rfl
@[simp] theorem State.setPwr_fences (s : State) (p : PwrSt) : (s.setPwr p).fences = s.fences := rfl
@[simp] theorem State.setPwr_holds (s : State) (p : PwrSt) : (s.setPwr p).holds = s.holds := rfl
@[simp] theorem State.setPwr_snaps (s : State) (p : PwrSt) : (s.setPwr p).snaps = s.snaps := rfl
@[simp] theorem State.setPwr_tbl (s : State) (p : PwrSt) : (s.setPwr p).tbl = s.tbl := rfl
@[simp] theorem State.setPwr_stage (s : State) (p : PwrSt) : (s.setPwr p).stage = s.stage := rfl
@[simp] theorem State.setPwr_commitQ (s : State) (p : PwrSt) : (s.setPwr p).commitQ = s.commitQ := rfl
@[simp] theorem State.setPwr_commits (s : State) (p : PwrSt) : (s.setPwr p).commits = s.commits := rfl
@[simp] theorem State.setPwr_frcNs (s : State) (p : PwrSt) : (s.setPwr p).frcNs = s.frcNs := rfl
@[simp] theorem State.setPwr_frcFrac (s : State) (p : PwrSt) : (s.setPwr p).frcFrac = s.frcFrac := rfl
@[simp] theorem State.setPwr_msix (s : State) (p : PwrSt) : (s.setPwr p).msix = s.msix := rfl
@[simp] theorem State.setPwr_resets (s : State) (p : PwrSt) : (s.setPwr p).resets = s.resets := rfl
@[simp] theorem State.setPwr_lrn (s : State) (p : PwrSt) : (s.setPwr p).lrn = s.lrn := rfl
@[simp] theorem State.setPwr_bsn (s : State) (p : PwrSt) : (s.setPwr p).bsn = s.bsn := rfl
@[simp] theorem State.setPwr_meters (s : State) (p : PwrSt) : (s.setPwr p).meters = s.meters := rfl
@[simp] theorem State.setPwr_egr (s : State) (p : PwrSt) : (s.setPwr p).egr = s.egr := rfl
@[simp] theorem State.setPwr_slu (s : State) (p : PwrSt) : (s.setPwr p).slu = s.slu := rfl
@[simp] theorem State.setPwr_bud (s : State) (p : PwrSt) : (s.setPwr p).bud = s.bud := rfl
@[simp] theorem State.setPwr_fre (s : State) (p : PwrSt) : (s.setPwr p).fre = s.fre := rfl
@[simp] theorem State.setPwr_fgd (s : State) (p : PwrSt) : (s.setPwr p).fgd = s.fgd := rfl
@[simp] theorem State.setPwr_had (s : State) (p : PwrSt) : (s.setPwr p).had = s.had := rfl
@[simp] theorem State.setPwr_ept (s : State) (p : PwrSt) : (s.setPwr p).ept = s.ept := rfl
@[simp] theorem State.setPwr_hif (s : State) (p : PwrSt) : (s.setPwr p).hif = s.hif := rfl
@[simp] theorem State.setPwr_can (s : State) (p : PwrSt) : (s.setPwr p).can = s.can := rfl
@[simp] theorem State.setPwr_lin (s : State) (p : PwrSt) : (s.setPwr p).lin = s.lin := rfl
@[simp] theorem State.setPwr_cfl (s : State) (p : PwrSt) : (s.setPwr p).cfl = s.cfl := rfl
@[simp] theorem State.setPwr_vlt (s : State) (p : PwrSt) : (s.setPwr p).vlt = s.vlt := rfl
@[simp] theorem State.setPwr_auth (s : State) (p : PwrSt) : (s.setPwr p).auth = s.auth := rfl
@[simp] theorem State.setPwr_twn (s : State) (p : PwrSt) : (s.setPwr p).twn = s.twn := rfl
@[simp] theorem State.setPwr_tim (s : State) (p : PwrSt) : (s.setPwr p).tim = s.tim := rfl
@[simp] theorem State.setPwr_mgs (s : State) (p : PwrSt) : (s.setPwr p).mgs = s.mgs := rfl
@[simp] theorem State.setPwr_svc (s : State) (p : PwrSt) : (s.setPwr p).svc = s.svc := rfl
@[simp] theorem State.setPwr_inj (s : State) (p : PwrSt) : (s.setPwr p).inj = s.inj := rfl
@[simp] theorem State.setPwr_out (s : State) (p : PwrSt) : (s.setPwr p).out = s.out := rfl
@[simp] theorem State.setPwr_free (s : State) (p : PwrSt) : (s.setPwr p).free = s.free := rfl
@[simp] theorem State.setPwr_pending (s : State) (p : PwrSt) : (s.setPwr p).pending = s.pending := rfl

/-! `setArrival` writes bsn. -/

@[simp] theorem State.setArrival_regs (s : State) (p : Nat) (pre : Bool) (a : Option Arrival) : (s.setArrival p pre a).regs = s.regs := rfl
@[simp] theorem State.setArrival_slots (s : State) (p : Nat) (pre : Bool) (a : Option Arrival) : (s.setArrival p pre a).slots = s.slots := rfl
@[simp] theorem State.setArrival_fences (s : State) (p : Nat) (pre : Bool) (a : Option Arrival) : (s.setArrival p pre a).fences = s.fences := rfl
@[simp] theorem State.setArrival_holds (s : State) (p : Nat) (pre : Bool) (a : Option Arrival) : (s.setArrival p pre a).holds = s.holds := rfl
@[simp] theorem State.setArrival_snaps (s : State) (p : Nat) (pre : Bool) (a : Option Arrival) : (s.setArrival p pre a).snaps = s.snaps := rfl
@[simp] theorem State.setArrival_tbl (s : State) (p : Nat) (pre : Bool) (a : Option Arrival) : (s.setArrival p pre a).tbl = s.tbl := rfl
@[simp] theorem State.setArrival_stage (s : State) (p : Nat) (pre : Bool) (a : Option Arrival) : (s.setArrival p pre a).stage = s.stage := rfl
@[simp] theorem State.setArrival_commitQ (s : State) (p : Nat) (pre : Bool) (a : Option Arrival) : (s.setArrival p pre a).commitQ = s.commitQ := rfl
@[simp] theorem State.setArrival_commits (s : State) (p : Nat) (pre : Bool) (a : Option Arrival) : (s.setArrival p pre a).commits = s.commits := rfl
@[simp] theorem State.setArrival_frcNs (s : State) (p : Nat) (pre : Bool) (a : Option Arrival) : (s.setArrival p pre a).frcNs = s.frcNs := rfl
@[simp] theorem State.setArrival_frcFrac (s : State) (p : Nat) (pre : Bool) (a : Option Arrival) : (s.setArrival p pre a).frcFrac = s.frcFrac := rfl
@[simp] theorem State.setArrival_msix (s : State) (p : Nat) (pre : Bool) (a : Option Arrival) : (s.setArrival p pre a).msix = s.msix := rfl
@[simp] theorem State.setArrival_resets (s : State) (p : Nat) (pre : Bool) (a : Option Arrival) : (s.setArrival p pre a).resets = s.resets := rfl
@[simp] theorem State.setArrival_lrn (s : State) (p : Nat) (pre : Bool) (a : Option Arrival) : (s.setArrival p pre a).lrn = s.lrn := rfl
@[simp] theorem State.setArrival_meters (s : State) (p : Nat) (pre : Bool) (a : Option Arrival) : (s.setArrival p pre a).meters = s.meters := rfl
@[simp] theorem State.setArrival_egr (s : State) (p : Nat) (pre : Bool) (a : Option Arrival) : (s.setArrival p pre a).egr = s.egr := rfl
@[simp] theorem State.setArrival_slu (s : State) (p : Nat) (pre : Bool) (a : Option Arrival) : (s.setArrival p pre a).slu = s.slu := rfl
@[simp] theorem State.setArrival_bud (s : State) (p : Nat) (pre : Bool) (a : Option Arrival) : (s.setArrival p pre a).bud = s.bud := rfl
@[simp] theorem State.setArrival_fre (s : State) (p : Nat) (pre : Bool) (a : Option Arrival) : (s.setArrival p pre a).fre = s.fre := rfl
@[simp] theorem State.setArrival_fgd (s : State) (p : Nat) (pre : Bool) (a : Option Arrival) : (s.setArrival p pre a).fgd = s.fgd := rfl
@[simp] theorem State.setArrival_had (s : State) (p : Nat) (pre : Bool) (a : Option Arrival) : (s.setArrival p pre a).had = s.had := rfl
@[simp] theorem State.setArrival_ept (s : State) (p : Nat) (pre : Bool) (a : Option Arrival) : (s.setArrival p pre a).ept = s.ept := rfl
@[simp] theorem State.setArrival_hif (s : State) (p : Nat) (pre : Bool) (a : Option Arrival) : (s.setArrival p pre a).hif = s.hif := rfl
@[simp] theorem State.setArrival_can (s : State) (p : Nat) (pre : Bool) (a : Option Arrival) : (s.setArrival p pre a).can = s.can := rfl
@[simp] theorem State.setArrival_lin (s : State) (p : Nat) (pre : Bool) (a : Option Arrival) : (s.setArrival p pre a).lin = s.lin := rfl
@[simp] theorem State.setArrival_cfl (s : State) (p : Nat) (pre : Bool) (a : Option Arrival) : (s.setArrival p pre a).cfl = s.cfl := rfl
@[simp] theorem State.setArrival_vlt (s : State) (p : Nat) (pre : Bool) (a : Option Arrival) : (s.setArrival p pre a).vlt = s.vlt := rfl
@[simp] theorem State.setArrival_auth (s : State) (p : Nat) (pre : Bool) (a : Option Arrival) : (s.setArrival p pre a).auth = s.auth := rfl
@[simp] theorem State.setArrival_twn (s : State) (p : Nat) (pre : Bool) (a : Option Arrival) : (s.setArrival p pre a).twn = s.twn := rfl
@[simp] theorem State.setArrival_tim (s : State) (p : Nat) (pre : Bool) (a : Option Arrival) : (s.setArrival p pre a).tim = s.tim := rfl
@[simp] theorem State.setArrival_pwr (s : State) (p : Nat) (pre : Bool) (a : Option Arrival) : (s.setArrival p pre a).pwr = s.pwr := rfl
@[simp] theorem State.setArrival_mgs (s : State) (p : Nat) (pre : Bool) (a : Option Arrival) : (s.setArrival p pre a).mgs = s.mgs := rfl
@[simp] theorem State.setArrival_svc (s : State) (p : Nat) (pre : Bool) (a : Option Arrival) : (s.setArrival p pre a).svc = s.svc := rfl
@[simp] theorem State.setArrival_inj (s : State) (p : Nat) (pre : Bool) (a : Option Arrival) : (s.setArrival p pre a).inj = s.inj := rfl
@[simp] theorem State.setArrival_out (s : State) (p : Nat) (pre : Bool) (a : Option Arrival) : (s.setArrival p pre a).out = s.out := rfl
@[simp] theorem State.setArrival_free (s : State) (p : Nat) (pre : Bool) (a : Option Arrival) : (s.setArrival p pre a).free = s.free := rfl
@[simp] theorem State.setArrival_pending (s : State) (p : Nat) (pre : Bool) (a : Option Arrival) : (s.setArrival p pre a).pending = s.pending := rfl

/-! `setSrc` writes cfl. -/

@[simp] theorem State.setSrc_regs (s : State) (i : Nat) (v : SrcVal) : (s.setSrc i v).regs = s.regs := rfl
@[simp] theorem State.setSrc_slots (s : State) (i : Nat) (v : SrcVal) : (s.setSrc i v).slots = s.slots := rfl
@[simp] theorem State.setSrc_fences (s : State) (i : Nat) (v : SrcVal) : (s.setSrc i v).fences = s.fences := rfl
@[simp] theorem State.setSrc_holds (s : State) (i : Nat) (v : SrcVal) : (s.setSrc i v).holds = s.holds := rfl
@[simp] theorem State.setSrc_snaps (s : State) (i : Nat) (v : SrcVal) : (s.setSrc i v).snaps = s.snaps := rfl
@[simp] theorem State.setSrc_tbl (s : State) (i : Nat) (v : SrcVal) : (s.setSrc i v).tbl = s.tbl := rfl
@[simp] theorem State.setSrc_stage (s : State) (i : Nat) (v : SrcVal) : (s.setSrc i v).stage = s.stage := rfl
@[simp] theorem State.setSrc_commitQ (s : State) (i : Nat) (v : SrcVal) : (s.setSrc i v).commitQ = s.commitQ := rfl
@[simp] theorem State.setSrc_commits (s : State) (i : Nat) (v : SrcVal) : (s.setSrc i v).commits = s.commits := rfl
@[simp] theorem State.setSrc_frcNs (s : State) (i : Nat) (v : SrcVal) : (s.setSrc i v).frcNs = s.frcNs := rfl
@[simp] theorem State.setSrc_frcFrac (s : State) (i : Nat) (v : SrcVal) : (s.setSrc i v).frcFrac = s.frcFrac := rfl
@[simp] theorem State.setSrc_msix (s : State) (i : Nat) (v : SrcVal) : (s.setSrc i v).msix = s.msix := rfl
@[simp] theorem State.setSrc_resets (s : State) (i : Nat) (v : SrcVal) : (s.setSrc i v).resets = s.resets := rfl
@[simp] theorem State.setSrc_lrn (s : State) (i : Nat) (v : SrcVal) : (s.setSrc i v).lrn = s.lrn := rfl
@[simp] theorem State.setSrc_bsn (s : State) (i : Nat) (v : SrcVal) : (s.setSrc i v).bsn = s.bsn := rfl
@[simp] theorem State.setSrc_meters (s : State) (i : Nat) (v : SrcVal) : (s.setSrc i v).meters = s.meters := rfl
@[simp] theorem State.setSrc_egr (s : State) (i : Nat) (v : SrcVal) : (s.setSrc i v).egr = s.egr := rfl
@[simp] theorem State.setSrc_slu (s : State) (i : Nat) (v : SrcVal) : (s.setSrc i v).slu = s.slu := rfl
@[simp] theorem State.setSrc_bud (s : State) (i : Nat) (v : SrcVal) : (s.setSrc i v).bud = s.bud := rfl
@[simp] theorem State.setSrc_fre (s : State) (i : Nat) (v : SrcVal) : (s.setSrc i v).fre = s.fre := rfl
@[simp] theorem State.setSrc_fgd (s : State) (i : Nat) (v : SrcVal) : (s.setSrc i v).fgd = s.fgd := rfl
@[simp] theorem State.setSrc_had (s : State) (i : Nat) (v : SrcVal) : (s.setSrc i v).had = s.had := rfl
@[simp] theorem State.setSrc_ept (s : State) (i : Nat) (v : SrcVal) : (s.setSrc i v).ept = s.ept := rfl
@[simp] theorem State.setSrc_hif (s : State) (i : Nat) (v : SrcVal) : (s.setSrc i v).hif = s.hif := rfl
@[simp] theorem State.setSrc_can (s : State) (i : Nat) (v : SrcVal) : (s.setSrc i v).can = s.can := rfl
@[simp] theorem State.setSrc_lin (s : State) (i : Nat) (v : SrcVal) : (s.setSrc i v).lin = s.lin := rfl
@[simp] theorem State.setSrc_vlt (s : State) (i : Nat) (v : SrcVal) : (s.setSrc i v).vlt = s.vlt := rfl
@[simp] theorem State.setSrc_auth (s : State) (i : Nat) (v : SrcVal) : (s.setSrc i v).auth = s.auth := rfl
@[simp] theorem State.setSrc_twn (s : State) (i : Nat) (v : SrcVal) : (s.setSrc i v).twn = s.twn := rfl
@[simp] theorem State.setSrc_tim (s : State) (i : Nat) (v : SrcVal) : (s.setSrc i v).tim = s.tim := rfl
@[simp] theorem State.setSrc_pwr (s : State) (i : Nat) (v : SrcVal) : (s.setSrc i v).pwr = s.pwr := rfl
@[simp] theorem State.setSrc_mgs (s : State) (i : Nat) (v : SrcVal) : (s.setSrc i v).mgs = s.mgs := rfl
@[simp] theorem State.setSrc_svc (s : State) (i : Nat) (v : SrcVal) : (s.setSrc i v).svc = s.svc := rfl
@[simp] theorem State.setSrc_inj (s : State) (i : Nat) (v : SrcVal) : (s.setSrc i v).inj = s.inj := rfl
@[simp] theorem State.setSrc_out (s : State) (i : Nat) (v : SrcVal) : (s.setSrc i v).out = s.out := rfl
@[simp] theorem State.setSrc_free (s : State) (i : Nat) (v : SrcVal) : (s.setSrc i v).free = s.free := rfl
@[simp] theorem State.setSrc_pending (s : State) (i : Nat) (v : SrcVal) : (s.setSrc i v).pending = s.pending := rfl

/-! `setTxp` writes cfl. -/

@[simp] theorem State.setTxp_regs (s : State) (i : Nat) (v : TxPdu) : (s.setTxp i v).regs = s.regs := rfl
@[simp] theorem State.setTxp_slots (s : State) (i : Nat) (v : TxPdu) : (s.setTxp i v).slots = s.slots := rfl
@[simp] theorem State.setTxp_fences (s : State) (i : Nat) (v : TxPdu) : (s.setTxp i v).fences = s.fences := rfl
@[simp] theorem State.setTxp_holds (s : State) (i : Nat) (v : TxPdu) : (s.setTxp i v).holds = s.holds := rfl
@[simp] theorem State.setTxp_snaps (s : State) (i : Nat) (v : TxPdu) : (s.setTxp i v).snaps = s.snaps := rfl
@[simp] theorem State.setTxp_tbl (s : State) (i : Nat) (v : TxPdu) : (s.setTxp i v).tbl = s.tbl := rfl
@[simp] theorem State.setTxp_stage (s : State) (i : Nat) (v : TxPdu) : (s.setTxp i v).stage = s.stage := rfl
@[simp] theorem State.setTxp_commitQ (s : State) (i : Nat) (v : TxPdu) : (s.setTxp i v).commitQ = s.commitQ := rfl
@[simp] theorem State.setTxp_commits (s : State) (i : Nat) (v : TxPdu) : (s.setTxp i v).commits = s.commits := rfl
@[simp] theorem State.setTxp_frcNs (s : State) (i : Nat) (v : TxPdu) : (s.setTxp i v).frcNs = s.frcNs := rfl
@[simp] theorem State.setTxp_frcFrac (s : State) (i : Nat) (v : TxPdu) : (s.setTxp i v).frcFrac = s.frcFrac := rfl
@[simp] theorem State.setTxp_msix (s : State) (i : Nat) (v : TxPdu) : (s.setTxp i v).msix = s.msix := rfl
@[simp] theorem State.setTxp_resets (s : State) (i : Nat) (v : TxPdu) : (s.setTxp i v).resets = s.resets := rfl
@[simp] theorem State.setTxp_lrn (s : State) (i : Nat) (v : TxPdu) : (s.setTxp i v).lrn = s.lrn := rfl
@[simp] theorem State.setTxp_bsn (s : State) (i : Nat) (v : TxPdu) : (s.setTxp i v).bsn = s.bsn := rfl
@[simp] theorem State.setTxp_meters (s : State) (i : Nat) (v : TxPdu) : (s.setTxp i v).meters = s.meters := rfl
@[simp] theorem State.setTxp_egr (s : State) (i : Nat) (v : TxPdu) : (s.setTxp i v).egr = s.egr := rfl
@[simp] theorem State.setTxp_slu (s : State) (i : Nat) (v : TxPdu) : (s.setTxp i v).slu = s.slu := rfl
@[simp] theorem State.setTxp_bud (s : State) (i : Nat) (v : TxPdu) : (s.setTxp i v).bud = s.bud := rfl
@[simp] theorem State.setTxp_fre (s : State) (i : Nat) (v : TxPdu) : (s.setTxp i v).fre = s.fre := rfl
@[simp] theorem State.setTxp_fgd (s : State) (i : Nat) (v : TxPdu) : (s.setTxp i v).fgd = s.fgd := rfl
@[simp] theorem State.setTxp_had (s : State) (i : Nat) (v : TxPdu) : (s.setTxp i v).had = s.had := rfl
@[simp] theorem State.setTxp_ept (s : State) (i : Nat) (v : TxPdu) : (s.setTxp i v).ept = s.ept := rfl
@[simp] theorem State.setTxp_hif (s : State) (i : Nat) (v : TxPdu) : (s.setTxp i v).hif = s.hif := rfl
@[simp] theorem State.setTxp_can (s : State) (i : Nat) (v : TxPdu) : (s.setTxp i v).can = s.can := rfl
@[simp] theorem State.setTxp_lin (s : State) (i : Nat) (v : TxPdu) : (s.setTxp i v).lin = s.lin := rfl
@[simp] theorem State.setTxp_vlt (s : State) (i : Nat) (v : TxPdu) : (s.setTxp i v).vlt = s.vlt := rfl
@[simp] theorem State.setTxp_auth (s : State) (i : Nat) (v : TxPdu) : (s.setTxp i v).auth = s.auth := rfl
@[simp] theorem State.setTxp_twn (s : State) (i : Nat) (v : TxPdu) : (s.setTxp i v).twn = s.twn := rfl
@[simp] theorem State.setTxp_tim (s : State) (i : Nat) (v : TxPdu) : (s.setTxp i v).tim = s.tim := rfl
@[simp] theorem State.setTxp_pwr (s : State) (i : Nat) (v : TxPdu) : (s.setTxp i v).pwr = s.pwr := rfl
@[simp] theorem State.setTxp_mgs (s : State) (i : Nat) (v : TxPdu) : (s.setTxp i v).mgs = s.mgs := rfl
@[simp] theorem State.setTxp_svc (s : State) (i : Nat) (v : TxPdu) : (s.setTxp i v).svc = s.svc := rfl
@[simp] theorem State.setTxp_inj (s : State) (i : Nat) (v : TxPdu) : (s.setTxp i v).inj = s.inj := rfl
@[simp] theorem State.setTxp_out (s : State) (i : Nat) (v : TxPdu) : (s.setTxp i v).out = s.out := rfl
@[simp] theorem State.setTxp_free (s : State) (i : Nat) (v : TxPdu) : (s.setTxp i v).free = s.free := rfl
@[simp] theorem State.setTxp_pending (s : State) (i : Nat) (v : TxPdu) : (s.setTxp i v).pending = s.pending := rfl

/-! `setRxp` writes cfl. -/

@[simp] theorem State.setRxp_regs (s : State) (i : Nat) (v : RxPdu) : (s.setRxp i v).regs = s.regs := rfl
@[simp] theorem State.setRxp_slots (s : State) (i : Nat) (v : RxPdu) : (s.setRxp i v).slots = s.slots := rfl
@[simp] theorem State.setRxp_fences (s : State) (i : Nat) (v : RxPdu) : (s.setRxp i v).fences = s.fences := rfl
@[simp] theorem State.setRxp_holds (s : State) (i : Nat) (v : RxPdu) : (s.setRxp i v).holds = s.holds := rfl
@[simp] theorem State.setRxp_snaps (s : State) (i : Nat) (v : RxPdu) : (s.setRxp i v).snaps = s.snaps := rfl
@[simp] theorem State.setRxp_tbl (s : State) (i : Nat) (v : RxPdu) : (s.setRxp i v).tbl = s.tbl := rfl
@[simp] theorem State.setRxp_stage (s : State) (i : Nat) (v : RxPdu) : (s.setRxp i v).stage = s.stage := rfl
@[simp] theorem State.setRxp_commitQ (s : State) (i : Nat) (v : RxPdu) : (s.setRxp i v).commitQ = s.commitQ := rfl
@[simp] theorem State.setRxp_commits (s : State) (i : Nat) (v : RxPdu) : (s.setRxp i v).commits = s.commits := rfl
@[simp] theorem State.setRxp_frcNs (s : State) (i : Nat) (v : RxPdu) : (s.setRxp i v).frcNs = s.frcNs := rfl
@[simp] theorem State.setRxp_frcFrac (s : State) (i : Nat) (v : RxPdu) : (s.setRxp i v).frcFrac = s.frcFrac := rfl
@[simp] theorem State.setRxp_msix (s : State) (i : Nat) (v : RxPdu) : (s.setRxp i v).msix = s.msix := rfl
@[simp] theorem State.setRxp_resets (s : State) (i : Nat) (v : RxPdu) : (s.setRxp i v).resets = s.resets := rfl
@[simp] theorem State.setRxp_lrn (s : State) (i : Nat) (v : RxPdu) : (s.setRxp i v).lrn = s.lrn := rfl
@[simp] theorem State.setRxp_bsn (s : State) (i : Nat) (v : RxPdu) : (s.setRxp i v).bsn = s.bsn := rfl
@[simp] theorem State.setRxp_meters (s : State) (i : Nat) (v : RxPdu) : (s.setRxp i v).meters = s.meters := rfl
@[simp] theorem State.setRxp_egr (s : State) (i : Nat) (v : RxPdu) : (s.setRxp i v).egr = s.egr := rfl
@[simp] theorem State.setRxp_slu (s : State) (i : Nat) (v : RxPdu) : (s.setRxp i v).slu = s.slu := rfl
@[simp] theorem State.setRxp_bud (s : State) (i : Nat) (v : RxPdu) : (s.setRxp i v).bud = s.bud := rfl
@[simp] theorem State.setRxp_fre (s : State) (i : Nat) (v : RxPdu) : (s.setRxp i v).fre = s.fre := rfl
@[simp] theorem State.setRxp_fgd (s : State) (i : Nat) (v : RxPdu) : (s.setRxp i v).fgd = s.fgd := rfl
@[simp] theorem State.setRxp_had (s : State) (i : Nat) (v : RxPdu) : (s.setRxp i v).had = s.had := rfl
@[simp] theorem State.setRxp_ept (s : State) (i : Nat) (v : RxPdu) : (s.setRxp i v).ept = s.ept := rfl
@[simp] theorem State.setRxp_hif (s : State) (i : Nat) (v : RxPdu) : (s.setRxp i v).hif = s.hif := rfl
@[simp] theorem State.setRxp_can (s : State) (i : Nat) (v : RxPdu) : (s.setRxp i v).can = s.can := rfl
@[simp] theorem State.setRxp_lin (s : State) (i : Nat) (v : RxPdu) : (s.setRxp i v).lin = s.lin := rfl
@[simp] theorem State.setRxp_vlt (s : State) (i : Nat) (v : RxPdu) : (s.setRxp i v).vlt = s.vlt := rfl
@[simp] theorem State.setRxp_auth (s : State) (i : Nat) (v : RxPdu) : (s.setRxp i v).auth = s.auth := rfl
@[simp] theorem State.setRxp_twn (s : State) (i : Nat) (v : RxPdu) : (s.setRxp i v).twn = s.twn := rfl
@[simp] theorem State.setRxp_tim (s : State) (i : Nat) (v : RxPdu) : (s.setRxp i v).tim = s.tim := rfl
@[simp] theorem State.setRxp_pwr (s : State) (i : Nat) (v : RxPdu) : (s.setRxp i v).pwr = s.pwr := rfl
@[simp] theorem State.setRxp_mgs (s : State) (i : Nat) (v : RxPdu) : (s.setRxp i v).mgs = s.mgs := rfl
@[simp] theorem State.setRxp_svc (s : State) (i : Nat) (v : RxPdu) : (s.setRxp i v).svc = s.svc := rfl
@[simp] theorem State.setRxp_inj (s : State) (i : Nat) (v : RxPdu) : (s.setRxp i v).inj = s.inj := rfl
@[simp] theorem State.setRxp_out (s : State) (i : Nat) (v : RxPdu) : (s.setRxp i v).out = s.out := rfl
@[simp] theorem State.setRxp_free (s : State) (i : Nat) (v : RxPdu) : (s.setRxp i v).free = s.free := rfl
@[simp] theorem State.setRxp_pending (s : State) (i : Nat) (v : RxPdu) : (s.setRxp i v).pending = s.pending := rfl

/-! `setTun` writes cfl. -/

@[simp] theorem State.setTun_regs (s : State) (j : Nat) (v : TunTx) : (s.setTun j v).regs = s.regs := rfl
@[simp] theorem State.setTun_slots (s : State) (j : Nat) (v : TunTx) : (s.setTun j v).slots = s.slots := rfl
@[simp] theorem State.setTun_fences (s : State) (j : Nat) (v : TunTx) : (s.setTun j v).fences = s.fences := rfl
@[simp] theorem State.setTun_holds (s : State) (j : Nat) (v : TunTx) : (s.setTun j v).holds = s.holds := rfl
@[simp] theorem State.setTun_snaps (s : State) (j : Nat) (v : TunTx) : (s.setTun j v).snaps = s.snaps := rfl
@[simp] theorem State.setTun_tbl (s : State) (j : Nat) (v : TunTx) : (s.setTun j v).tbl = s.tbl := rfl
@[simp] theorem State.setTun_stage (s : State) (j : Nat) (v : TunTx) : (s.setTun j v).stage = s.stage := rfl
@[simp] theorem State.setTun_commitQ (s : State) (j : Nat) (v : TunTx) : (s.setTun j v).commitQ = s.commitQ := rfl
@[simp] theorem State.setTun_commits (s : State) (j : Nat) (v : TunTx) : (s.setTun j v).commits = s.commits := rfl
@[simp] theorem State.setTun_frcNs (s : State) (j : Nat) (v : TunTx) : (s.setTun j v).frcNs = s.frcNs := rfl
@[simp] theorem State.setTun_frcFrac (s : State) (j : Nat) (v : TunTx) : (s.setTun j v).frcFrac = s.frcFrac := rfl
@[simp] theorem State.setTun_msix (s : State) (j : Nat) (v : TunTx) : (s.setTun j v).msix = s.msix := rfl
@[simp] theorem State.setTun_resets (s : State) (j : Nat) (v : TunTx) : (s.setTun j v).resets = s.resets := rfl
@[simp] theorem State.setTun_lrn (s : State) (j : Nat) (v : TunTx) : (s.setTun j v).lrn = s.lrn := rfl
@[simp] theorem State.setTun_bsn (s : State) (j : Nat) (v : TunTx) : (s.setTun j v).bsn = s.bsn := rfl
@[simp] theorem State.setTun_meters (s : State) (j : Nat) (v : TunTx) : (s.setTun j v).meters = s.meters := rfl
@[simp] theorem State.setTun_egr (s : State) (j : Nat) (v : TunTx) : (s.setTun j v).egr = s.egr := rfl
@[simp] theorem State.setTun_slu (s : State) (j : Nat) (v : TunTx) : (s.setTun j v).slu = s.slu := rfl
@[simp] theorem State.setTun_bud (s : State) (j : Nat) (v : TunTx) : (s.setTun j v).bud = s.bud := rfl
@[simp] theorem State.setTun_fre (s : State) (j : Nat) (v : TunTx) : (s.setTun j v).fre = s.fre := rfl
@[simp] theorem State.setTun_fgd (s : State) (j : Nat) (v : TunTx) : (s.setTun j v).fgd = s.fgd := rfl
@[simp] theorem State.setTun_had (s : State) (j : Nat) (v : TunTx) : (s.setTun j v).had = s.had := rfl
@[simp] theorem State.setTun_ept (s : State) (j : Nat) (v : TunTx) : (s.setTun j v).ept = s.ept := rfl
@[simp] theorem State.setTun_hif (s : State) (j : Nat) (v : TunTx) : (s.setTun j v).hif = s.hif := rfl
@[simp] theorem State.setTun_can (s : State) (j : Nat) (v : TunTx) : (s.setTun j v).can = s.can := rfl
@[simp] theorem State.setTun_lin (s : State) (j : Nat) (v : TunTx) : (s.setTun j v).lin = s.lin := rfl
@[simp] theorem State.setTun_vlt (s : State) (j : Nat) (v : TunTx) : (s.setTun j v).vlt = s.vlt := rfl
@[simp] theorem State.setTun_auth (s : State) (j : Nat) (v : TunTx) : (s.setTun j v).auth = s.auth := rfl
@[simp] theorem State.setTun_twn (s : State) (j : Nat) (v : TunTx) : (s.setTun j v).twn = s.twn := rfl
@[simp] theorem State.setTun_tim (s : State) (j : Nat) (v : TunTx) : (s.setTun j v).tim = s.tim := rfl
@[simp] theorem State.setTun_pwr (s : State) (j : Nat) (v : TunTx) : (s.setTun j v).pwr = s.pwr := rfl
@[simp] theorem State.setTun_mgs (s : State) (j : Nat) (v : TunTx) : (s.setTun j v).mgs = s.mgs := rfl
@[simp] theorem State.setTun_svc (s : State) (j : Nat) (v : TunTx) : (s.setTun j v).svc = s.svc := rfl
@[simp] theorem State.setTun_inj (s : State) (j : Nat) (v : TunTx) : (s.setTun j v).inj = s.inj := rfl
@[simp] theorem State.setTun_out (s : State) (j : Nat) (v : TunTx) : (s.setTun j v).out = s.out := rfl
@[simp] theorem State.setTun_free (s : State) (j : Nat) (v : TunTx) : (s.setTun j v).free = s.free := rfl
@[simp] theorem State.setTun_pending (s : State) (j : Nat) (v : TunTx) : (s.setTun j v).pending = s.pending := rfl

/-! `setUntun` writes cfl. -/

@[simp] theorem State.setUntun_regs (s : State) (j : Nat) (v : TunRx) : (s.setUntun j v).regs = s.regs := rfl
@[simp] theorem State.setUntun_slots (s : State) (j : Nat) (v : TunRx) : (s.setUntun j v).slots = s.slots := rfl
@[simp] theorem State.setUntun_fences (s : State) (j : Nat) (v : TunRx) : (s.setUntun j v).fences = s.fences := rfl
@[simp] theorem State.setUntun_holds (s : State) (j : Nat) (v : TunRx) : (s.setUntun j v).holds = s.holds := rfl
@[simp] theorem State.setUntun_snaps (s : State) (j : Nat) (v : TunRx) : (s.setUntun j v).snaps = s.snaps := rfl
@[simp] theorem State.setUntun_tbl (s : State) (j : Nat) (v : TunRx) : (s.setUntun j v).tbl = s.tbl := rfl
@[simp] theorem State.setUntun_stage (s : State) (j : Nat) (v : TunRx) : (s.setUntun j v).stage = s.stage := rfl
@[simp] theorem State.setUntun_commitQ (s : State) (j : Nat) (v : TunRx) : (s.setUntun j v).commitQ = s.commitQ := rfl
@[simp] theorem State.setUntun_commits (s : State) (j : Nat) (v : TunRx) : (s.setUntun j v).commits = s.commits := rfl
@[simp] theorem State.setUntun_frcNs (s : State) (j : Nat) (v : TunRx) : (s.setUntun j v).frcNs = s.frcNs := rfl
@[simp] theorem State.setUntun_frcFrac (s : State) (j : Nat) (v : TunRx) : (s.setUntun j v).frcFrac = s.frcFrac := rfl
@[simp] theorem State.setUntun_msix (s : State) (j : Nat) (v : TunRx) : (s.setUntun j v).msix = s.msix := rfl
@[simp] theorem State.setUntun_resets (s : State) (j : Nat) (v : TunRx) : (s.setUntun j v).resets = s.resets := rfl
@[simp] theorem State.setUntun_lrn (s : State) (j : Nat) (v : TunRx) : (s.setUntun j v).lrn = s.lrn := rfl
@[simp] theorem State.setUntun_bsn (s : State) (j : Nat) (v : TunRx) : (s.setUntun j v).bsn = s.bsn := rfl
@[simp] theorem State.setUntun_meters (s : State) (j : Nat) (v : TunRx) : (s.setUntun j v).meters = s.meters := rfl
@[simp] theorem State.setUntun_egr (s : State) (j : Nat) (v : TunRx) : (s.setUntun j v).egr = s.egr := rfl
@[simp] theorem State.setUntun_slu (s : State) (j : Nat) (v : TunRx) : (s.setUntun j v).slu = s.slu := rfl
@[simp] theorem State.setUntun_bud (s : State) (j : Nat) (v : TunRx) : (s.setUntun j v).bud = s.bud := rfl
@[simp] theorem State.setUntun_fre (s : State) (j : Nat) (v : TunRx) : (s.setUntun j v).fre = s.fre := rfl
@[simp] theorem State.setUntun_fgd (s : State) (j : Nat) (v : TunRx) : (s.setUntun j v).fgd = s.fgd := rfl
@[simp] theorem State.setUntun_had (s : State) (j : Nat) (v : TunRx) : (s.setUntun j v).had = s.had := rfl
@[simp] theorem State.setUntun_ept (s : State) (j : Nat) (v : TunRx) : (s.setUntun j v).ept = s.ept := rfl
@[simp] theorem State.setUntun_hif (s : State) (j : Nat) (v : TunRx) : (s.setUntun j v).hif = s.hif := rfl
@[simp] theorem State.setUntun_can (s : State) (j : Nat) (v : TunRx) : (s.setUntun j v).can = s.can := rfl
@[simp] theorem State.setUntun_lin (s : State) (j : Nat) (v : TunRx) : (s.setUntun j v).lin = s.lin := rfl
@[simp] theorem State.setUntun_vlt (s : State) (j : Nat) (v : TunRx) : (s.setUntun j v).vlt = s.vlt := rfl
@[simp] theorem State.setUntun_auth (s : State) (j : Nat) (v : TunRx) : (s.setUntun j v).auth = s.auth := rfl
@[simp] theorem State.setUntun_twn (s : State) (j : Nat) (v : TunRx) : (s.setUntun j v).twn = s.twn := rfl
@[simp] theorem State.setUntun_tim (s : State) (j : Nat) (v : TunRx) : (s.setUntun j v).tim = s.tim := rfl
@[simp] theorem State.setUntun_pwr (s : State) (j : Nat) (v : TunRx) : (s.setUntun j v).pwr = s.pwr := rfl
@[simp] theorem State.setUntun_mgs (s : State) (j : Nat) (v : TunRx) : (s.setUntun j v).mgs = s.mgs := rfl
@[simp] theorem State.setUntun_svc (s : State) (j : Nat) (v : TunRx) : (s.setUntun j v).svc = s.svc := rfl
@[simp] theorem State.setUntun_inj (s : State) (j : Nat) (v : TunRx) : (s.setUntun j v).inj = s.inj := rfl
@[simp] theorem State.setUntun_out (s : State) (j : Nat) (v : TunRx) : (s.setUntun j v).out = s.out := rfl
@[simp] theorem State.setUntun_free (s : State) (j : Nat) (v : TunRx) : (s.setUntun j v).free = s.free := rfl
@[simp] theorem State.setUntun_pending (s : State) (j : Nat) (v : TunRx) : (s.setUntun j v).pending = s.pending := rfl

/-! `setCch` writes can. -/

@[simp] theorem State.setCch_regs (s : State) (c : Nat) (v : CanSt) : (s.setCch c v).regs = s.regs := rfl
@[simp] theorem State.setCch_slots (s : State) (c : Nat) (v : CanSt) : (s.setCch c v).slots = s.slots := rfl
@[simp] theorem State.setCch_fences (s : State) (c : Nat) (v : CanSt) : (s.setCch c v).fences = s.fences := rfl
@[simp] theorem State.setCch_holds (s : State) (c : Nat) (v : CanSt) : (s.setCch c v).holds = s.holds := rfl
@[simp] theorem State.setCch_snaps (s : State) (c : Nat) (v : CanSt) : (s.setCch c v).snaps = s.snaps := rfl
@[simp] theorem State.setCch_tbl (s : State) (c : Nat) (v : CanSt) : (s.setCch c v).tbl = s.tbl := rfl
@[simp] theorem State.setCch_stage (s : State) (c : Nat) (v : CanSt) : (s.setCch c v).stage = s.stage := rfl
@[simp] theorem State.setCch_commitQ (s : State) (c : Nat) (v : CanSt) : (s.setCch c v).commitQ = s.commitQ := rfl
@[simp] theorem State.setCch_commits (s : State) (c : Nat) (v : CanSt) : (s.setCch c v).commits = s.commits := rfl
@[simp] theorem State.setCch_frcNs (s : State) (c : Nat) (v : CanSt) : (s.setCch c v).frcNs = s.frcNs := rfl
@[simp] theorem State.setCch_frcFrac (s : State) (c : Nat) (v : CanSt) : (s.setCch c v).frcFrac = s.frcFrac := rfl
@[simp] theorem State.setCch_msix (s : State) (c : Nat) (v : CanSt) : (s.setCch c v).msix = s.msix := rfl
@[simp] theorem State.setCch_resets (s : State) (c : Nat) (v : CanSt) : (s.setCch c v).resets = s.resets := rfl
@[simp] theorem State.setCch_lrn (s : State) (c : Nat) (v : CanSt) : (s.setCch c v).lrn = s.lrn := rfl
@[simp] theorem State.setCch_bsn (s : State) (c : Nat) (v : CanSt) : (s.setCch c v).bsn = s.bsn := rfl
@[simp] theorem State.setCch_meters (s : State) (c : Nat) (v : CanSt) : (s.setCch c v).meters = s.meters := rfl
@[simp] theorem State.setCch_egr (s : State) (c : Nat) (v : CanSt) : (s.setCch c v).egr = s.egr := rfl
@[simp] theorem State.setCch_slu (s : State) (c : Nat) (v : CanSt) : (s.setCch c v).slu = s.slu := rfl
@[simp] theorem State.setCch_bud (s : State) (c : Nat) (v : CanSt) : (s.setCch c v).bud = s.bud := rfl
@[simp] theorem State.setCch_fre (s : State) (c : Nat) (v : CanSt) : (s.setCch c v).fre = s.fre := rfl
@[simp] theorem State.setCch_fgd (s : State) (c : Nat) (v : CanSt) : (s.setCch c v).fgd = s.fgd := rfl
@[simp] theorem State.setCch_had (s : State) (c : Nat) (v : CanSt) : (s.setCch c v).had = s.had := rfl
@[simp] theorem State.setCch_ept (s : State) (c : Nat) (v : CanSt) : (s.setCch c v).ept = s.ept := rfl
@[simp] theorem State.setCch_hif (s : State) (c : Nat) (v : CanSt) : (s.setCch c v).hif = s.hif := rfl
@[simp] theorem State.setCch_lin (s : State) (c : Nat) (v : CanSt) : (s.setCch c v).lin = s.lin := rfl
@[simp] theorem State.setCch_cfl (s : State) (c : Nat) (v : CanSt) : (s.setCch c v).cfl = s.cfl := rfl
@[simp] theorem State.setCch_vlt (s : State) (c : Nat) (v : CanSt) : (s.setCch c v).vlt = s.vlt := rfl
@[simp] theorem State.setCch_auth (s : State) (c : Nat) (v : CanSt) : (s.setCch c v).auth = s.auth := rfl
@[simp] theorem State.setCch_twn (s : State) (c : Nat) (v : CanSt) : (s.setCch c v).twn = s.twn := rfl
@[simp] theorem State.setCch_tim (s : State) (c : Nat) (v : CanSt) : (s.setCch c v).tim = s.tim := rfl
@[simp] theorem State.setCch_pwr (s : State) (c : Nat) (v : CanSt) : (s.setCch c v).pwr = s.pwr := rfl
@[simp] theorem State.setCch_mgs (s : State) (c : Nat) (v : CanSt) : (s.setCch c v).mgs = s.mgs := rfl
@[simp] theorem State.setCch_svc (s : State) (c : Nat) (v : CanSt) : (s.setCch c v).svc = s.svc := rfl
@[simp] theorem State.setCch_inj (s : State) (c : Nat) (v : CanSt) : (s.setCch c v).inj = s.inj := rfl
@[simp] theorem State.setCch_out (s : State) (c : Nat) (v : CanSt) : (s.setCch c v).out = s.out := rfl
@[simp] theorem State.setCch_free (s : State) (c : Nat) (v : CanSt) : (s.setCch c v).free = s.free := rfl
@[simp] theorem State.setCch_pending (s : State) (c : Nat) (v : CanSt) : (s.setCch c v).pending = s.pending := rfl

/-! `setLch` writes lin. -/

@[simp] theorem State.setLch_regs (s : State) (l : Nat) (v : LinSt) : (s.setLch l v).regs = s.regs := rfl
@[simp] theorem State.setLch_slots (s : State) (l : Nat) (v : LinSt) : (s.setLch l v).slots = s.slots := rfl
@[simp] theorem State.setLch_fences (s : State) (l : Nat) (v : LinSt) : (s.setLch l v).fences = s.fences := rfl
@[simp] theorem State.setLch_holds (s : State) (l : Nat) (v : LinSt) : (s.setLch l v).holds = s.holds := rfl
@[simp] theorem State.setLch_snaps (s : State) (l : Nat) (v : LinSt) : (s.setLch l v).snaps = s.snaps := rfl
@[simp] theorem State.setLch_tbl (s : State) (l : Nat) (v : LinSt) : (s.setLch l v).tbl = s.tbl := rfl
@[simp] theorem State.setLch_stage (s : State) (l : Nat) (v : LinSt) : (s.setLch l v).stage = s.stage := rfl
@[simp] theorem State.setLch_commitQ (s : State) (l : Nat) (v : LinSt) : (s.setLch l v).commitQ = s.commitQ := rfl
@[simp] theorem State.setLch_commits (s : State) (l : Nat) (v : LinSt) : (s.setLch l v).commits = s.commits := rfl
@[simp] theorem State.setLch_frcNs (s : State) (l : Nat) (v : LinSt) : (s.setLch l v).frcNs = s.frcNs := rfl
@[simp] theorem State.setLch_frcFrac (s : State) (l : Nat) (v : LinSt) : (s.setLch l v).frcFrac = s.frcFrac := rfl
@[simp] theorem State.setLch_msix (s : State) (l : Nat) (v : LinSt) : (s.setLch l v).msix = s.msix := rfl
@[simp] theorem State.setLch_resets (s : State) (l : Nat) (v : LinSt) : (s.setLch l v).resets = s.resets := rfl
@[simp] theorem State.setLch_lrn (s : State) (l : Nat) (v : LinSt) : (s.setLch l v).lrn = s.lrn := rfl
@[simp] theorem State.setLch_bsn (s : State) (l : Nat) (v : LinSt) : (s.setLch l v).bsn = s.bsn := rfl
@[simp] theorem State.setLch_meters (s : State) (l : Nat) (v : LinSt) : (s.setLch l v).meters = s.meters := rfl
@[simp] theorem State.setLch_egr (s : State) (l : Nat) (v : LinSt) : (s.setLch l v).egr = s.egr := rfl
@[simp] theorem State.setLch_slu (s : State) (l : Nat) (v : LinSt) : (s.setLch l v).slu = s.slu := rfl
@[simp] theorem State.setLch_bud (s : State) (l : Nat) (v : LinSt) : (s.setLch l v).bud = s.bud := rfl
@[simp] theorem State.setLch_fre (s : State) (l : Nat) (v : LinSt) : (s.setLch l v).fre = s.fre := rfl
@[simp] theorem State.setLch_fgd (s : State) (l : Nat) (v : LinSt) : (s.setLch l v).fgd = s.fgd := rfl
@[simp] theorem State.setLch_had (s : State) (l : Nat) (v : LinSt) : (s.setLch l v).had = s.had := rfl
@[simp] theorem State.setLch_ept (s : State) (l : Nat) (v : LinSt) : (s.setLch l v).ept = s.ept := rfl
@[simp] theorem State.setLch_hif (s : State) (l : Nat) (v : LinSt) : (s.setLch l v).hif = s.hif := rfl
@[simp] theorem State.setLch_can (s : State) (l : Nat) (v : LinSt) : (s.setLch l v).can = s.can := rfl
@[simp] theorem State.setLch_cfl (s : State) (l : Nat) (v : LinSt) : (s.setLch l v).cfl = s.cfl := rfl
@[simp] theorem State.setLch_vlt (s : State) (l : Nat) (v : LinSt) : (s.setLch l v).vlt = s.vlt := rfl
@[simp] theorem State.setLch_auth (s : State) (l : Nat) (v : LinSt) : (s.setLch l v).auth = s.auth := rfl
@[simp] theorem State.setLch_twn (s : State) (l : Nat) (v : LinSt) : (s.setLch l v).twn = s.twn := rfl
@[simp] theorem State.setLch_tim (s : State) (l : Nat) (v : LinSt) : (s.setLch l v).tim = s.tim := rfl
@[simp] theorem State.setLch_pwr (s : State) (l : Nat) (v : LinSt) : (s.setLch l v).pwr = s.pwr := rfl
@[simp] theorem State.setLch_mgs (s : State) (l : Nat) (v : LinSt) : (s.setLch l v).mgs = s.mgs := rfl
@[simp] theorem State.setLch_svc (s : State) (l : Nat) (v : LinSt) : (s.setLch l v).svc = s.svc := rfl
@[simp] theorem State.setLch_inj (s : State) (l : Nat) (v : LinSt) : (s.setLch l v).inj = s.inj := rfl
@[simp] theorem State.setLch_out (s : State) (l : Nat) (v : LinSt) : (s.setLch l v).out = s.out := rfl
@[simp] theorem State.setLch_free (s : State) (l : Nat) (v : LinSt) : (s.setLch l v).free = s.free := rfl
@[simp] theorem State.setLch_pending (s : State) (l : Nat) (v : LinSt) : (s.setLch l v).pending = s.pending := rfl

/-! `setTwn` writes twn. -/

@[simp] theorem State.setTwn_regs (s : State) (t : TwnSt) : (s.setTwn t).regs = s.regs := rfl
@[simp] theorem State.setTwn_slots (s : State) (t : TwnSt) : (s.setTwn t).slots = s.slots := rfl
@[simp] theorem State.setTwn_fences (s : State) (t : TwnSt) : (s.setTwn t).fences = s.fences := rfl
@[simp] theorem State.setTwn_holds (s : State) (t : TwnSt) : (s.setTwn t).holds = s.holds := rfl
@[simp] theorem State.setTwn_snaps (s : State) (t : TwnSt) : (s.setTwn t).snaps = s.snaps := rfl
@[simp] theorem State.setTwn_tbl (s : State) (t : TwnSt) : (s.setTwn t).tbl = s.tbl := rfl
@[simp] theorem State.setTwn_stage (s : State) (t : TwnSt) : (s.setTwn t).stage = s.stage := rfl
@[simp] theorem State.setTwn_commitQ (s : State) (t : TwnSt) : (s.setTwn t).commitQ = s.commitQ := rfl
@[simp] theorem State.setTwn_commits (s : State) (t : TwnSt) : (s.setTwn t).commits = s.commits := rfl
@[simp] theorem State.setTwn_frcNs (s : State) (t : TwnSt) : (s.setTwn t).frcNs = s.frcNs := rfl
@[simp] theorem State.setTwn_frcFrac (s : State) (t : TwnSt) : (s.setTwn t).frcFrac = s.frcFrac := rfl
@[simp] theorem State.setTwn_msix (s : State) (t : TwnSt) : (s.setTwn t).msix = s.msix := rfl
@[simp] theorem State.setTwn_resets (s : State) (t : TwnSt) : (s.setTwn t).resets = s.resets := rfl
@[simp] theorem State.setTwn_lrn (s : State) (t : TwnSt) : (s.setTwn t).lrn = s.lrn := rfl
@[simp] theorem State.setTwn_bsn (s : State) (t : TwnSt) : (s.setTwn t).bsn = s.bsn := rfl
@[simp] theorem State.setTwn_meters (s : State) (t : TwnSt) : (s.setTwn t).meters = s.meters := rfl
@[simp] theorem State.setTwn_egr (s : State) (t : TwnSt) : (s.setTwn t).egr = s.egr := rfl
@[simp] theorem State.setTwn_slu (s : State) (t : TwnSt) : (s.setTwn t).slu = s.slu := rfl
@[simp] theorem State.setTwn_bud (s : State) (t : TwnSt) : (s.setTwn t).bud = s.bud := rfl
@[simp] theorem State.setTwn_fre (s : State) (t : TwnSt) : (s.setTwn t).fre = s.fre := rfl
@[simp] theorem State.setTwn_fgd (s : State) (t : TwnSt) : (s.setTwn t).fgd = s.fgd := rfl
@[simp] theorem State.setTwn_had (s : State) (t : TwnSt) : (s.setTwn t).had = s.had := rfl
@[simp] theorem State.setTwn_ept (s : State) (t : TwnSt) : (s.setTwn t).ept = s.ept := rfl
@[simp] theorem State.setTwn_hif (s : State) (t : TwnSt) : (s.setTwn t).hif = s.hif := rfl
@[simp] theorem State.setTwn_can (s : State) (t : TwnSt) : (s.setTwn t).can = s.can := rfl
@[simp] theorem State.setTwn_lin (s : State) (t : TwnSt) : (s.setTwn t).lin = s.lin := rfl
@[simp] theorem State.setTwn_cfl (s : State) (t : TwnSt) : (s.setTwn t).cfl = s.cfl := rfl
@[simp] theorem State.setTwn_vlt (s : State) (t : TwnSt) : (s.setTwn t).vlt = s.vlt := rfl
@[simp] theorem State.setTwn_auth (s : State) (t : TwnSt) : (s.setTwn t).auth = s.auth := rfl
@[simp] theorem State.setTwn_tim (s : State) (t : TwnSt) : (s.setTwn t).tim = s.tim := rfl
@[simp] theorem State.setTwn_pwr (s : State) (t : TwnSt) : (s.setTwn t).pwr = s.pwr := rfl
@[simp] theorem State.setTwn_mgs (s : State) (t : TwnSt) : (s.setTwn t).mgs = s.mgs := rfl
@[simp] theorem State.setTwn_svc (s : State) (t : TwnSt) : (s.setTwn t).svc = s.svc := rfl
@[simp] theorem State.setTwn_inj (s : State) (t : TwnSt) : (s.setTwn t).inj = s.inj := rfl
@[simp] theorem State.setTwn_out (s : State) (t : TwnSt) : (s.setTwn t).out = s.out := rfl
@[simp] theorem State.setTwn_free (s : State) (t : TwnSt) : (s.setTwn t).free = s.free := rfl
@[simp] theorem State.setTwn_pending (s : State) (t : TwnSt) : (s.setTwn t).pending = s.pending := rfl

/-! `setResv` writes bud. -/

@[simp] theorem State.setResv_regs (s : State) (i : Nat) (r : Resv) : (s.setResv i r).regs = s.regs := rfl
@[simp] theorem State.setResv_slots (s : State) (i : Nat) (r : Resv) : (s.setResv i r).slots = s.slots := rfl
@[simp] theorem State.setResv_fences (s : State) (i : Nat) (r : Resv) : (s.setResv i r).fences = s.fences := rfl
@[simp] theorem State.setResv_holds (s : State) (i : Nat) (r : Resv) : (s.setResv i r).holds = s.holds := rfl
@[simp] theorem State.setResv_snaps (s : State) (i : Nat) (r : Resv) : (s.setResv i r).snaps = s.snaps := rfl
@[simp] theorem State.setResv_tbl (s : State) (i : Nat) (r : Resv) : (s.setResv i r).tbl = s.tbl := rfl
@[simp] theorem State.setResv_stage (s : State) (i : Nat) (r : Resv) : (s.setResv i r).stage = s.stage := rfl
@[simp] theorem State.setResv_commitQ (s : State) (i : Nat) (r : Resv) : (s.setResv i r).commitQ = s.commitQ := rfl
@[simp] theorem State.setResv_commits (s : State) (i : Nat) (r : Resv) : (s.setResv i r).commits = s.commits := rfl
@[simp] theorem State.setResv_frcNs (s : State) (i : Nat) (r : Resv) : (s.setResv i r).frcNs = s.frcNs := rfl
@[simp] theorem State.setResv_frcFrac (s : State) (i : Nat) (r : Resv) : (s.setResv i r).frcFrac = s.frcFrac := rfl
@[simp] theorem State.setResv_msix (s : State) (i : Nat) (r : Resv) : (s.setResv i r).msix = s.msix := rfl
@[simp] theorem State.setResv_resets (s : State) (i : Nat) (r : Resv) : (s.setResv i r).resets = s.resets := rfl
@[simp] theorem State.setResv_lrn (s : State) (i : Nat) (r : Resv) : (s.setResv i r).lrn = s.lrn := rfl
@[simp] theorem State.setResv_bsn (s : State) (i : Nat) (r : Resv) : (s.setResv i r).bsn = s.bsn := rfl
@[simp] theorem State.setResv_meters (s : State) (i : Nat) (r : Resv) : (s.setResv i r).meters = s.meters := rfl
@[simp] theorem State.setResv_egr (s : State) (i : Nat) (r : Resv) : (s.setResv i r).egr = s.egr := rfl
@[simp] theorem State.setResv_slu (s : State) (i : Nat) (r : Resv) : (s.setResv i r).slu = s.slu := rfl
@[simp] theorem State.setResv_fre (s : State) (i : Nat) (r : Resv) : (s.setResv i r).fre = s.fre := rfl
@[simp] theorem State.setResv_fgd (s : State) (i : Nat) (r : Resv) : (s.setResv i r).fgd = s.fgd := rfl
@[simp] theorem State.setResv_had (s : State) (i : Nat) (r : Resv) : (s.setResv i r).had = s.had := rfl
@[simp] theorem State.setResv_ept (s : State) (i : Nat) (r : Resv) : (s.setResv i r).ept = s.ept := rfl
@[simp] theorem State.setResv_hif (s : State) (i : Nat) (r : Resv) : (s.setResv i r).hif = s.hif := rfl
@[simp] theorem State.setResv_can (s : State) (i : Nat) (r : Resv) : (s.setResv i r).can = s.can := rfl
@[simp] theorem State.setResv_lin (s : State) (i : Nat) (r : Resv) : (s.setResv i r).lin = s.lin := rfl
@[simp] theorem State.setResv_cfl (s : State) (i : Nat) (r : Resv) : (s.setResv i r).cfl = s.cfl := rfl
@[simp] theorem State.setResv_vlt (s : State) (i : Nat) (r : Resv) : (s.setResv i r).vlt = s.vlt := rfl
@[simp] theorem State.setResv_auth (s : State) (i : Nat) (r : Resv) : (s.setResv i r).auth = s.auth := rfl
@[simp] theorem State.setResv_twn (s : State) (i : Nat) (r : Resv) : (s.setResv i r).twn = s.twn := rfl
@[simp] theorem State.setResv_tim (s : State) (i : Nat) (r : Resv) : (s.setResv i r).tim = s.tim := rfl
@[simp] theorem State.setResv_pwr (s : State) (i : Nat) (r : Resv) : (s.setResv i r).pwr = s.pwr := rfl
@[simp] theorem State.setResv_mgs (s : State) (i : Nat) (r : Resv) : (s.setResv i r).mgs = s.mgs := rfl
@[simp] theorem State.setResv_svc (s : State) (i : Nat) (r : Resv) : (s.setResv i r).svc = s.svc := rfl
@[simp] theorem State.setResv_inj (s : State) (i : Nat) (r : Resv) : (s.setResv i r).inj = s.inj := rfl
@[simp] theorem State.setResv_out (s : State) (i : Nat) (r : Resv) : (s.setResv i r).out = s.out := rfl
@[simp] theorem State.setResv_free (s : State) (i : Nat) (r : Resv) : (s.setResv i r).free = s.free := rfl
@[simp] theorem State.setResv_pending (s : State) (i : Nat) (r : Resv) : (s.setResv i r).pending = s.pending := rfl

/-! `setRing` writes hif. -/

@[simp] theorem State.setRing_regs (s : State) (n : Nat) (r : Ring) : (s.setRing n r).regs = s.regs := rfl
@[simp] theorem State.setRing_slots (s : State) (n : Nat) (r : Ring) : (s.setRing n r).slots = s.slots := rfl
@[simp] theorem State.setRing_fences (s : State) (n : Nat) (r : Ring) : (s.setRing n r).fences = s.fences := rfl
@[simp] theorem State.setRing_holds (s : State) (n : Nat) (r : Ring) : (s.setRing n r).holds = s.holds := rfl
@[simp] theorem State.setRing_snaps (s : State) (n : Nat) (r : Ring) : (s.setRing n r).snaps = s.snaps := rfl
@[simp] theorem State.setRing_tbl (s : State) (n : Nat) (r : Ring) : (s.setRing n r).tbl = s.tbl := rfl
@[simp] theorem State.setRing_stage (s : State) (n : Nat) (r : Ring) : (s.setRing n r).stage = s.stage := rfl
@[simp] theorem State.setRing_commitQ (s : State) (n : Nat) (r : Ring) : (s.setRing n r).commitQ = s.commitQ := rfl
@[simp] theorem State.setRing_commits (s : State) (n : Nat) (r : Ring) : (s.setRing n r).commits = s.commits := rfl
@[simp] theorem State.setRing_frcNs (s : State) (n : Nat) (r : Ring) : (s.setRing n r).frcNs = s.frcNs := rfl
@[simp] theorem State.setRing_frcFrac (s : State) (n : Nat) (r : Ring) : (s.setRing n r).frcFrac = s.frcFrac := rfl
@[simp] theorem State.setRing_msix (s : State) (n : Nat) (r : Ring) : (s.setRing n r).msix = s.msix := rfl
@[simp] theorem State.setRing_resets (s : State) (n : Nat) (r : Ring) : (s.setRing n r).resets = s.resets := rfl
@[simp] theorem State.setRing_lrn (s : State) (n : Nat) (r : Ring) : (s.setRing n r).lrn = s.lrn := rfl
@[simp] theorem State.setRing_bsn (s : State) (n : Nat) (r : Ring) : (s.setRing n r).bsn = s.bsn := rfl
@[simp] theorem State.setRing_meters (s : State) (n : Nat) (r : Ring) : (s.setRing n r).meters = s.meters := rfl
@[simp] theorem State.setRing_egr (s : State) (n : Nat) (r : Ring) : (s.setRing n r).egr = s.egr := rfl
@[simp] theorem State.setRing_slu (s : State) (n : Nat) (r : Ring) : (s.setRing n r).slu = s.slu := rfl
@[simp] theorem State.setRing_bud (s : State) (n : Nat) (r : Ring) : (s.setRing n r).bud = s.bud := rfl
@[simp] theorem State.setRing_fre (s : State) (n : Nat) (r : Ring) : (s.setRing n r).fre = s.fre := rfl
@[simp] theorem State.setRing_fgd (s : State) (n : Nat) (r : Ring) : (s.setRing n r).fgd = s.fgd := rfl
@[simp] theorem State.setRing_had (s : State) (n : Nat) (r : Ring) : (s.setRing n r).had = s.had := rfl
@[simp] theorem State.setRing_ept (s : State) (n : Nat) (r : Ring) : (s.setRing n r).ept = s.ept := rfl
@[simp] theorem State.setRing_can (s : State) (n : Nat) (r : Ring) : (s.setRing n r).can = s.can := rfl
@[simp] theorem State.setRing_lin (s : State) (n : Nat) (r : Ring) : (s.setRing n r).lin = s.lin := rfl
@[simp] theorem State.setRing_cfl (s : State) (n : Nat) (r : Ring) : (s.setRing n r).cfl = s.cfl := rfl
@[simp] theorem State.setRing_vlt (s : State) (n : Nat) (r : Ring) : (s.setRing n r).vlt = s.vlt := rfl
@[simp] theorem State.setRing_auth (s : State) (n : Nat) (r : Ring) : (s.setRing n r).auth = s.auth := rfl
@[simp] theorem State.setRing_twn (s : State) (n : Nat) (r : Ring) : (s.setRing n r).twn = s.twn := rfl
@[simp] theorem State.setRing_tim (s : State) (n : Nat) (r : Ring) : (s.setRing n r).tim = s.tim := rfl
@[simp] theorem State.setRing_pwr (s : State) (n : Nat) (r : Ring) : (s.setRing n r).pwr = s.pwr := rfl
@[simp] theorem State.setRing_mgs (s : State) (n : Nat) (r : Ring) : (s.setRing n r).mgs = s.mgs := rfl
@[simp] theorem State.setRing_svc (s : State) (n : Nat) (r : Ring) : (s.setRing n r).svc = s.svc := rfl
@[simp] theorem State.setRing_inj (s : State) (n : Nat) (r : Ring) : (s.setRing n r).inj = s.inj := rfl
@[simp] theorem State.setRing_out (s : State) (n : Nat) (r : Ring) : (s.setRing n r).out = s.out := rfl
@[simp] theorem State.setRing_free (s : State) (n : Nat) (r : Ring) : (s.setRing n r).free = s.free := rfl
@[simp] theorem State.setRing_pending (s : State) (n : Nat) (r : Ring) : (s.setRing n r).pending = s.pending := rfl

/-! `setPart` writes svc. -/

@[simp] theorem State.setPart_regs (s : State) (n : Nat) (p : Part) : (s.setPart n p).regs = s.regs := rfl
@[simp] theorem State.setPart_slots (s : State) (n : Nat) (p : Part) : (s.setPart n p).slots = s.slots := rfl
@[simp] theorem State.setPart_fences (s : State) (n : Nat) (p : Part) : (s.setPart n p).fences = s.fences := rfl
@[simp] theorem State.setPart_holds (s : State) (n : Nat) (p : Part) : (s.setPart n p).holds = s.holds := rfl
@[simp] theorem State.setPart_snaps (s : State) (n : Nat) (p : Part) : (s.setPart n p).snaps = s.snaps := rfl
@[simp] theorem State.setPart_tbl (s : State) (n : Nat) (p : Part) : (s.setPart n p).tbl = s.tbl := rfl
@[simp] theorem State.setPart_stage (s : State) (n : Nat) (p : Part) : (s.setPart n p).stage = s.stage := rfl
@[simp] theorem State.setPart_commitQ (s : State) (n : Nat) (p : Part) : (s.setPart n p).commitQ = s.commitQ := rfl
@[simp] theorem State.setPart_commits (s : State) (n : Nat) (p : Part) : (s.setPart n p).commits = s.commits := rfl
@[simp] theorem State.setPart_frcNs (s : State) (n : Nat) (p : Part) : (s.setPart n p).frcNs = s.frcNs := rfl
@[simp] theorem State.setPart_frcFrac (s : State) (n : Nat) (p : Part) : (s.setPart n p).frcFrac = s.frcFrac := rfl
@[simp] theorem State.setPart_msix (s : State) (n : Nat) (p : Part) : (s.setPart n p).msix = s.msix := rfl
@[simp] theorem State.setPart_resets (s : State) (n : Nat) (p : Part) : (s.setPart n p).resets = s.resets := rfl
@[simp] theorem State.setPart_lrn (s : State) (n : Nat) (p : Part) : (s.setPart n p).lrn = s.lrn := rfl
@[simp] theorem State.setPart_bsn (s : State) (n : Nat) (p : Part) : (s.setPart n p).bsn = s.bsn := rfl
@[simp] theorem State.setPart_meters (s : State) (n : Nat) (p : Part) : (s.setPart n p).meters = s.meters := rfl
@[simp] theorem State.setPart_egr (s : State) (n : Nat) (p : Part) : (s.setPart n p).egr = s.egr := rfl
@[simp] theorem State.setPart_slu (s : State) (n : Nat) (p : Part) : (s.setPart n p).slu = s.slu := rfl
@[simp] theorem State.setPart_bud (s : State) (n : Nat) (p : Part) : (s.setPart n p).bud = s.bud := rfl
@[simp] theorem State.setPart_fre (s : State) (n : Nat) (p : Part) : (s.setPart n p).fre = s.fre := rfl
@[simp] theorem State.setPart_fgd (s : State) (n : Nat) (p : Part) : (s.setPart n p).fgd = s.fgd := rfl
@[simp] theorem State.setPart_had (s : State) (n : Nat) (p : Part) : (s.setPart n p).had = s.had := rfl
@[simp] theorem State.setPart_ept (s : State) (n : Nat) (p : Part) : (s.setPart n p).ept = s.ept := rfl
@[simp] theorem State.setPart_hif (s : State) (n : Nat) (p : Part) : (s.setPart n p).hif = s.hif := rfl
@[simp] theorem State.setPart_can (s : State) (n : Nat) (p : Part) : (s.setPart n p).can = s.can := rfl
@[simp] theorem State.setPart_lin (s : State) (n : Nat) (p : Part) : (s.setPart n p).lin = s.lin := rfl
@[simp] theorem State.setPart_cfl (s : State) (n : Nat) (p : Part) : (s.setPart n p).cfl = s.cfl := rfl
@[simp] theorem State.setPart_vlt (s : State) (n : Nat) (p : Part) : (s.setPart n p).vlt = s.vlt := rfl
@[simp] theorem State.setPart_auth (s : State) (n : Nat) (p : Part) : (s.setPart n p).auth = s.auth := rfl
@[simp] theorem State.setPart_twn (s : State) (n : Nat) (p : Part) : (s.setPart n p).twn = s.twn := rfl
@[simp] theorem State.setPart_tim (s : State) (n : Nat) (p : Part) : (s.setPart n p).tim = s.tim := rfl
@[simp] theorem State.setPart_pwr (s : State) (n : Nat) (p : Part) : (s.setPart n p).pwr = s.pwr := rfl
@[simp] theorem State.setPart_mgs (s : State) (n : Nat) (p : Part) : (s.setPart n p).mgs = s.mgs := rfl
@[simp] theorem State.setPart_inj (s : State) (n : Nat) (p : Part) : (s.setPart n p).inj = s.inj := rfl
@[simp] theorem State.setPart_out (s : State) (n : Nat) (p : Part) : (s.setPart n p).out = s.out := rfl
@[simp] theorem State.setPart_free (s : State) (n : Nat) (p : Part) : (s.setPart n p).free = s.free := rfl
@[simp] theorem State.setPart_pending (s : State) (n : Nat) (p : Part) : (s.setPart n p).pending = s.pending := rfl

/-! `setFence` writes fences. -/

@[simp] theorem State.setFence_regs (s : State) (m : Nat) (f : Fences) : (s.setFence m f).regs = s.regs := rfl
@[simp] theorem State.setFence_slots (s : State) (m : Nat) (f : Fences) : (s.setFence m f).slots = s.slots := rfl
@[simp] theorem State.setFence_holds (s : State) (m : Nat) (f : Fences) : (s.setFence m f).holds = s.holds := rfl
@[simp] theorem State.setFence_snaps (s : State) (m : Nat) (f : Fences) : (s.setFence m f).snaps = s.snaps := rfl
@[simp] theorem State.setFence_tbl (s : State) (m : Nat) (f : Fences) : (s.setFence m f).tbl = s.tbl := rfl
@[simp] theorem State.setFence_stage (s : State) (m : Nat) (f : Fences) : (s.setFence m f).stage = s.stage := rfl
@[simp] theorem State.setFence_commitQ (s : State) (m : Nat) (f : Fences) : (s.setFence m f).commitQ = s.commitQ := rfl
@[simp] theorem State.setFence_commits (s : State) (m : Nat) (f : Fences) : (s.setFence m f).commits = s.commits := rfl
@[simp] theorem State.setFence_frcNs (s : State) (m : Nat) (f : Fences) : (s.setFence m f).frcNs = s.frcNs := rfl
@[simp] theorem State.setFence_frcFrac (s : State) (m : Nat) (f : Fences) : (s.setFence m f).frcFrac = s.frcFrac := rfl
@[simp] theorem State.setFence_msix (s : State) (m : Nat) (f : Fences) : (s.setFence m f).msix = s.msix := rfl
@[simp] theorem State.setFence_resets (s : State) (m : Nat) (f : Fences) : (s.setFence m f).resets = s.resets := rfl
@[simp] theorem State.setFence_lrn (s : State) (m : Nat) (f : Fences) : (s.setFence m f).lrn = s.lrn := rfl
@[simp] theorem State.setFence_bsn (s : State) (m : Nat) (f : Fences) : (s.setFence m f).bsn = s.bsn := rfl
@[simp] theorem State.setFence_meters (s : State) (m : Nat) (f : Fences) : (s.setFence m f).meters = s.meters := rfl
@[simp] theorem State.setFence_egr (s : State) (m : Nat) (f : Fences) : (s.setFence m f).egr = s.egr := rfl
@[simp] theorem State.setFence_slu (s : State) (m : Nat) (f : Fences) : (s.setFence m f).slu = s.slu := rfl
@[simp] theorem State.setFence_bud (s : State) (m : Nat) (f : Fences) : (s.setFence m f).bud = s.bud := rfl
@[simp] theorem State.setFence_fre (s : State) (m : Nat) (f : Fences) : (s.setFence m f).fre = s.fre := rfl
@[simp] theorem State.setFence_fgd (s : State) (m : Nat) (f : Fences) : (s.setFence m f).fgd = s.fgd := rfl
@[simp] theorem State.setFence_had (s : State) (m : Nat) (f : Fences) : (s.setFence m f).had = s.had := rfl
@[simp] theorem State.setFence_ept (s : State) (m : Nat) (f : Fences) : (s.setFence m f).ept = s.ept := rfl
@[simp] theorem State.setFence_hif (s : State) (m : Nat) (f : Fences) : (s.setFence m f).hif = s.hif := rfl
@[simp] theorem State.setFence_can (s : State) (m : Nat) (f : Fences) : (s.setFence m f).can = s.can := rfl
@[simp] theorem State.setFence_lin (s : State) (m : Nat) (f : Fences) : (s.setFence m f).lin = s.lin := rfl
@[simp] theorem State.setFence_cfl (s : State) (m : Nat) (f : Fences) : (s.setFence m f).cfl = s.cfl := rfl
@[simp] theorem State.setFence_vlt (s : State) (m : Nat) (f : Fences) : (s.setFence m f).vlt = s.vlt := rfl
@[simp] theorem State.setFence_auth (s : State) (m : Nat) (f : Fences) : (s.setFence m f).auth = s.auth := rfl
@[simp] theorem State.setFence_twn (s : State) (m : Nat) (f : Fences) : (s.setFence m f).twn = s.twn := rfl
@[simp] theorem State.setFence_tim (s : State) (m : Nat) (f : Fences) : (s.setFence m f).tim = s.tim := rfl
@[simp] theorem State.setFence_pwr (s : State) (m : Nat) (f : Fences) : (s.setFence m f).pwr = s.pwr := rfl
@[simp] theorem State.setFence_mgs (s : State) (m : Nat) (f : Fences) : (s.setFence m f).mgs = s.mgs := rfl
@[simp] theorem State.setFence_svc (s : State) (m : Nat) (f : Fences) : (s.setFence m f).svc = s.svc := rfl
@[simp] theorem State.setFence_inj (s : State) (m : Nat) (f : Fences) : (s.setFence m f).inj = s.inj := rfl
@[simp] theorem State.setFence_out (s : State) (m : Nat) (f : Fences) : (s.setFence m f).out = s.out := rfl
@[simp] theorem State.setFence_free (s : State) (m : Nat) (f : Fences) : (s.setFence m f).free = s.free := rfl
@[simp] theorem State.setFence_pending (s : State) (m : Nat) (f : Fences) : (s.setFence m f).pending = s.pending := rfl

/-! `setSnap` writes snaps. -/

@[simp] theorem State.setSnap_regs (s : State) (pg : Nat) (v : Snap) : (s.setSnap pg v).regs = s.regs := rfl
@[simp] theorem State.setSnap_slots (s : State) (pg : Nat) (v : Snap) : (s.setSnap pg v).slots = s.slots := rfl
@[simp] theorem State.setSnap_fences (s : State) (pg : Nat) (v : Snap) : (s.setSnap pg v).fences = s.fences := rfl
@[simp] theorem State.setSnap_holds (s : State) (pg : Nat) (v : Snap) : (s.setSnap pg v).holds = s.holds := rfl
@[simp] theorem State.setSnap_tbl (s : State) (pg : Nat) (v : Snap) : (s.setSnap pg v).tbl = s.tbl := rfl
@[simp] theorem State.setSnap_stage (s : State) (pg : Nat) (v : Snap) : (s.setSnap pg v).stage = s.stage := rfl
@[simp] theorem State.setSnap_commitQ (s : State) (pg : Nat) (v : Snap) : (s.setSnap pg v).commitQ = s.commitQ := rfl
@[simp] theorem State.setSnap_commits (s : State) (pg : Nat) (v : Snap) : (s.setSnap pg v).commits = s.commits := rfl
@[simp] theorem State.setSnap_frcNs (s : State) (pg : Nat) (v : Snap) : (s.setSnap pg v).frcNs = s.frcNs := rfl
@[simp] theorem State.setSnap_frcFrac (s : State) (pg : Nat) (v : Snap) : (s.setSnap pg v).frcFrac = s.frcFrac := rfl
@[simp] theorem State.setSnap_msix (s : State) (pg : Nat) (v : Snap) : (s.setSnap pg v).msix = s.msix := rfl
@[simp] theorem State.setSnap_resets (s : State) (pg : Nat) (v : Snap) : (s.setSnap pg v).resets = s.resets := rfl
@[simp] theorem State.setSnap_lrn (s : State) (pg : Nat) (v : Snap) : (s.setSnap pg v).lrn = s.lrn := rfl
@[simp] theorem State.setSnap_bsn (s : State) (pg : Nat) (v : Snap) : (s.setSnap pg v).bsn = s.bsn := rfl
@[simp] theorem State.setSnap_meters (s : State) (pg : Nat) (v : Snap) : (s.setSnap pg v).meters = s.meters := rfl
@[simp] theorem State.setSnap_egr (s : State) (pg : Nat) (v : Snap) : (s.setSnap pg v).egr = s.egr := rfl
@[simp] theorem State.setSnap_slu (s : State) (pg : Nat) (v : Snap) : (s.setSnap pg v).slu = s.slu := rfl
@[simp] theorem State.setSnap_bud (s : State) (pg : Nat) (v : Snap) : (s.setSnap pg v).bud = s.bud := rfl
@[simp] theorem State.setSnap_fre (s : State) (pg : Nat) (v : Snap) : (s.setSnap pg v).fre = s.fre := rfl
@[simp] theorem State.setSnap_fgd (s : State) (pg : Nat) (v : Snap) : (s.setSnap pg v).fgd = s.fgd := rfl
@[simp] theorem State.setSnap_had (s : State) (pg : Nat) (v : Snap) : (s.setSnap pg v).had = s.had := rfl
@[simp] theorem State.setSnap_ept (s : State) (pg : Nat) (v : Snap) : (s.setSnap pg v).ept = s.ept := rfl
@[simp] theorem State.setSnap_hif (s : State) (pg : Nat) (v : Snap) : (s.setSnap pg v).hif = s.hif := rfl
@[simp] theorem State.setSnap_can (s : State) (pg : Nat) (v : Snap) : (s.setSnap pg v).can = s.can := rfl
@[simp] theorem State.setSnap_lin (s : State) (pg : Nat) (v : Snap) : (s.setSnap pg v).lin = s.lin := rfl
@[simp] theorem State.setSnap_cfl (s : State) (pg : Nat) (v : Snap) : (s.setSnap pg v).cfl = s.cfl := rfl
@[simp] theorem State.setSnap_vlt (s : State) (pg : Nat) (v : Snap) : (s.setSnap pg v).vlt = s.vlt := rfl
@[simp] theorem State.setSnap_auth (s : State) (pg : Nat) (v : Snap) : (s.setSnap pg v).auth = s.auth := rfl
@[simp] theorem State.setSnap_twn (s : State) (pg : Nat) (v : Snap) : (s.setSnap pg v).twn = s.twn := rfl
@[simp] theorem State.setSnap_tim (s : State) (pg : Nat) (v : Snap) : (s.setSnap pg v).tim = s.tim := rfl
@[simp] theorem State.setSnap_pwr (s : State) (pg : Nat) (v : Snap) : (s.setSnap pg v).pwr = s.pwr := rfl
@[simp] theorem State.setSnap_mgs (s : State) (pg : Nat) (v : Snap) : (s.setSnap pg v).mgs = s.mgs := rfl
@[simp] theorem State.setSnap_svc (s : State) (pg : Nat) (v : Snap) : (s.setSnap pg v).svc = s.svc := rfl
@[simp] theorem State.setSnap_inj (s : State) (pg : Nat) (v : Snap) : (s.setSnap pg v).inj = s.inj := rfl
@[simp] theorem State.setSnap_out (s : State) (pg : Nat) (v : Snap) : (s.setSnap pg v).out = s.out := rfl
@[simp] theorem State.setSnap_free (s : State) (pg : Nat) (v : Snap) : (s.setSnap pg v).free = s.free := rfl
@[simp] theorem State.setSnap_pending (s : State) (pg : Nat) (v : Snap) : (s.setSnap pg v).pending = s.pending := rfl

/-! `setGate` writes pwr. -/

@[simp] theorem State.setGate_regs (s : State) (pg : Nat) (g : Gate) : (s.setGate pg g).regs = s.regs := rfl
@[simp] theorem State.setGate_slots (s : State) (pg : Nat) (g : Gate) : (s.setGate pg g).slots = s.slots := rfl
@[simp] theorem State.setGate_fences (s : State) (pg : Nat) (g : Gate) : (s.setGate pg g).fences = s.fences := rfl
@[simp] theorem State.setGate_holds (s : State) (pg : Nat) (g : Gate) : (s.setGate pg g).holds = s.holds := rfl
@[simp] theorem State.setGate_snaps (s : State) (pg : Nat) (g : Gate) : (s.setGate pg g).snaps = s.snaps := rfl
@[simp] theorem State.setGate_tbl (s : State) (pg : Nat) (g : Gate) : (s.setGate pg g).tbl = s.tbl := rfl
@[simp] theorem State.setGate_stage (s : State) (pg : Nat) (g : Gate) : (s.setGate pg g).stage = s.stage := rfl
@[simp] theorem State.setGate_commitQ (s : State) (pg : Nat) (g : Gate) : (s.setGate pg g).commitQ = s.commitQ := rfl
@[simp] theorem State.setGate_commits (s : State) (pg : Nat) (g : Gate) : (s.setGate pg g).commits = s.commits := rfl
@[simp] theorem State.setGate_frcNs (s : State) (pg : Nat) (g : Gate) : (s.setGate pg g).frcNs = s.frcNs := rfl
@[simp] theorem State.setGate_frcFrac (s : State) (pg : Nat) (g : Gate) : (s.setGate pg g).frcFrac = s.frcFrac := rfl
@[simp] theorem State.setGate_msix (s : State) (pg : Nat) (g : Gate) : (s.setGate pg g).msix = s.msix := rfl
@[simp] theorem State.setGate_resets (s : State) (pg : Nat) (g : Gate) : (s.setGate pg g).resets = s.resets := rfl
@[simp] theorem State.setGate_lrn (s : State) (pg : Nat) (g : Gate) : (s.setGate pg g).lrn = s.lrn := rfl
@[simp] theorem State.setGate_bsn (s : State) (pg : Nat) (g : Gate) : (s.setGate pg g).bsn = s.bsn := rfl
@[simp] theorem State.setGate_meters (s : State) (pg : Nat) (g : Gate) : (s.setGate pg g).meters = s.meters := rfl
@[simp] theorem State.setGate_egr (s : State) (pg : Nat) (g : Gate) : (s.setGate pg g).egr = s.egr := rfl
@[simp] theorem State.setGate_slu (s : State) (pg : Nat) (g : Gate) : (s.setGate pg g).slu = s.slu := rfl
@[simp] theorem State.setGate_bud (s : State) (pg : Nat) (g : Gate) : (s.setGate pg g).bud = s.bud := rfl
@[simp] theorem State.setGate_fre (s : State) (pg : Nat) (g : Gate) : (s.setGate pg g).fre = s.fre := rfl
@[simp] theorem State.setGate_fgd (s : State) (pg : Nat) (g : Gate) : (s.setGate pg g).fgd = s.fgd := rfl
@[simp] theorem State.setGate_had (s : State) (pg : Nat) (g : Gate) : (s.setGate pg g).had = s.had := rfl
@[simp] theorem State.setGate_ept (s : State) (pg : Nat) (g : Gate) : (s.setGate pg g).ept = s.ept := rfl
@[simp] theorem State.setGate_hif (s : State) (pg : Nat) (g : Gate) : (s.setGate pg g).hif = s.hif := rfl
@[simp] theorem State.setGate_can (s : State) (pg : Nat) (g : Gate) : (s.setGate pg g).can = s.can := rfl
@[simp] theorem State.setGate_lin (s : State) (pg : Nat) (g : Gate) : (s.setGate pg g).lin = s.lin := rfl
@[simp] theorem State.setGate_cfl (s : State) (pg : Nat) (g : Gate) : (s.setGate pg g).cfl = s.cfl := rfl
@[simp] theorem State.setGate_vlt (s : State) (pg : Nat) (g : Gate) : (s.setGate pg g).vlt = s.vlt := rfl
@[simp] theorem State.setGate_auth (s : State) (pg : Nat) (g : Gate) : (s.setGate pg g).auth = s.auth := rfl
@[simp] theorem State.setGate_twn (s : State) (pg : Nat) (g : Gate) : (s.setGate pg g).twn = s.twn := rfl
@[simp] theorem State.setGate_tim (s : State) (pg : Nat) (g : Gate) : (s.setGate pg g).tim = s.tim := rfl
@[simp] theorem State.setGate_mgs (s : State) (pg : Nat) (g : Gate) : (s.setGate pg g).mgs = s.mgs := rfl
@[simp] theorem State.setGate_svc (s : State) (pg : Nat) (g : Gate) : (s.setGate pg g).svc = s.svc := rfl
@[simp] theorem State.setGate_inj (s : State) (pg : Nat) (g : Gate) : (s.setGate pg g).inj = s.inj := rfl
@[simp] theorem State.setGate_out (s : State) (pg : Nat) (g : Gate) : (s.setGate pg g).out = s.out := rfl
@[simp] theorem State.setGate_free (s : State) (pg : Nat) (g : Gate) : (s.setGate pg g).free = s.free := rfl
@[simp] theorem State.setGate_pending (s : State) (pg : Nat) (g : Gate) : (s.setGate pg g).pending = s.pending := rfl

/-! `setMgs` writes mgs. -/

@[simp] theorem State.setMgs_regs (s : State) (v : MgsSt) : (s.setMgs v).regs = s.regs := rfl
@[simp] theorem State.setMgs_slots (s : State) (v : MgsSt) : (s.setMgs v).slots = s.slots := rfl
@[simp] theorem State.setMgs_fences (s : State) (v : MgsSt) : (s.setMgs v).fences = s.fences := rfl
@[simp] theorem State.setMgs_holds (s : State) (v : MgsSt) : (s.setMgs v).holds = s.holds := rfl
@[simp] theorem State.setMgs_snaps (s : State) (v : MgsSt) : (s.setMgs v).snaps = s.snaps := rfl
@[simp] theorem State.setMgs_tbl (s : State) (v : MgsSt) : (s.setMgs v).tbl = s.tbl := rfl
@[simp] theorem State.setMgs_stage (s : State) (v : MgsSt) : (s.setMgs v).stage = s.stage := rfl
@[simp] theorem State.setMgs_commitQ (s : State) (v : MgsSt) : (s.setMgs v).commitQ = s.commitQ := rfl
@[simp] theorem State.setMgs_commits (s : State) (v : MgsSt) : (s.setMgs v).commits = s.commits := rfl
@[simp] theorem State.setMgs_frcNs (s : State) (v : MgsSt) : (s.setMgs v).frcNs = s.frcNs := rfl
@[simp] theorem State.setMgs_frcFrac (s : State) (v : MgsSt) : (s.setMgs v).frcFrac = s.frcFrac := rfl
@[simp] theorem State.setMgs_msix (s : State) (v : MgsSt) : (s.setMgs v).msix = s.msix := rfl
@[simp] theorem State.setMgs_resets (s : State) (v : MgsSt) : (s.setMgs v).resets = s.resets := rfl
@[simp] theorem State.setMgs_lrn (s : State) (v : MgsSt) : (s.setMgs v).lrn = s.lrn := rfl
@[simp] theorem State.setMgs_bsn (s : State) (v : MgsSt) : (s.setMgs v).bsn = s.bsn := rfl
@[simp] theorem State.setMgs_meters (s : State) (v : MgsSt) : (s.setMgs v).meters = s.meters := rfl
@[simp] theorem State.setMgs_egr (s : State) (v : MgsSt) : (s.setMgs v).egr = s.egr := rfl
@[simp] theorem State.setMgs_slu (s : State) (v : MgsSt) : (s.setMgs v).slu = s.slu := rfl
@[simp] theorem State.setMgs_bud (s : State) (v : MgsSt) : (s.setMgs v).bud = s.bud := rfl
@[simp] theorem State.setMgs_fre (s : State) (v : MgsSt) : (s.setMgs v).fre = s.fre := rfl
@[simp] theorem State.setMgs_fgd (s : State) (v : MgsSt) : (s.setMgs v).fgd = s.fgd := rfl
@[simp] theorem State.setMgs_had (s : State) (v : MgsSt) : (s.setMgs v).had = s.had := rfl
@[simp] theorem State.setMgs_ept (s : State) (v : MgsSt) : (s.setMgs v).ept = s.ept := rfl
@[simp] theorem State.setMgs_hif (s : State) (v : MgsSt) : (s.setMgs v).hif = s.hif := rfl
@[simp] theorem State.setMgs_can (s : State) (v : MgsSt) : (s.setMgs v).can = s.can := rfl
@[simp] theorem State.setMgs_lin (s : State) (v : MgsSt) : (s.setMgs v).lin = s.lin := rfl
@[simp] theorem State.setMgs_cfl (s : State) (v : MgsSt) : (s.setMgs v).cfl = s.cfl := rfl
@[simp] theorem State.setMgs_vlt (s : State) (v : MgsSt) : (s.setMgs v).vlt = s.vlt := rfl
@[simp] theorem State.setMgs_auth (s : State) (v : MgsSt) : (s.setMgs v).auth = s.auth := rfl
@[simp] theorem State.setMgs_twn (s : State) (v : MgsSt) : (s.setMgs v).twn = s.twn := rfl
@[simp] theorem State.setMgs_tim (s : State) (v : MgsSt) : (s.setMgs v).tim = s.tim := rfl
@[simp] theorem State.setMgs_pwr (s : State) (v : MgsSt) : (s.setMgs v).pwr = s.pwr := rfl
@[simp] theorem State.setMgs_svc (s : State) (v : MgsSt) : (s.setMgs v).svc = s.svc := rfl
@[simp] theorem State.setMgs_inj (s : State) (v : MgsSt) : (s.setMgs v).inj = s.inj := rfl
@[simp] theorem State.setMgs_out (s : State) (v : MgsSt) : (s.setMgs v).out = s.out := rfl
@[simp] theorem State.setMgs_free (s : State) (v : MgsSt) : (s.setMgs v).free = s.free := rfl
@[simp] theorem State.setMgs_pending (s : State) (v : MgsSt) : (s.setMgs v).pending = s.pending := rfl

/-! `setHold` writes holds. -/

@[simp] theorem State.setHold_regs (s : State) (m : Nat) (a : Nat) (h : Hold) : (s.setHold m a h).regs = s.regs := rfl
@[simp] theorem State.setHold_slots (s : State) (m : Nat) (a : Nat) (h : Hold) : (s.setHold m a h).slots = s.slots := rfl
@[simp] theorem State.setHold_fences (s : State) (m : Nat) (a : Nat) (h : Hold) : (s.setHold m a h).fences = s.fences := rfl
@[simp] theorem State.setHold_snaps (s : State) (m : Nat) (a : Nat) (h : Hold) : (s.setHold m a h).snaps = s.snaps := rfl
@[simp] theorem State.setHold_tbl (s : State) (m : Nat) (a : Nat) (h : Hold) : (s.setHold m a h).tbl = s.tbl := rfl
@[simp] theorem State.setHold_stage (s : State) (m : Nat) (a : Nat) (h : Hold) : (s.setHold m a h).stage = s.stage := rfl
@[simp] theorem State.setHold_commitQ (s : State) (m : Nat) (a : Nat) (h : Hold) : (s.setHold m a h).commitQ = s.commitQ := rfl
@[simp] theorem State.setHold_commits (s : State) (m : Nat) (a : Nat) (h : Hold) : (s.setHold m a h).commits = s.commits := rfl
@[simp] theorem State.setHold_frcNs (s : State) (m : Nat) (a : Nat) (h : Hold) : (s.setHold m a h).frcNs = s.frcNs := rfl
@[simp] theorem State.setHold_frcFrac (s : State) (m : Nat) (a : Nat) (h : Hold) : (s.setHold m a h).frcFrac = s.frcFrac := rfl
@[simp] theorem State.setHold_msix (s : State) (m : Nat) (a : Nat) (h : Hold) : (s.setHold m a h).msix = s.msix := rfl
@[simp] theorem State.setHold_resets (s : State) (m : Nat) (a : Nat) (h : Hold) : (s.setHold m a h).resets = s.resets := rfl
@[simp] theorem State.setHold_lrn (s : State) (m : Nat) (a : Nat) (h : Hold) : (s.setHold m a h).lrn = s.lrn := rfl
@[simp] theorem State.setHold_bsn (s : State) (m : Nat) (a : Nat) (h : Hold) : (s.setHold m a h).bsn = s.bsn := rfl
@[simp] theorem State.setHold_meters (s : State) (m : Nat) (a : Nat) (h : Hold) : (s.setHold m a h).meters = s.meters := rfl
@[simp] theorem State.setHold_egr (s : State) (m : Nat) (a : Nat) (h : Hold) : (s.setHold m a h).egr = s.egr := rfl
@[simp] theorem State.setHold_slu (s : State) (m : Nat) (a : Nat) (h : Hold) : (s.setHold m a h).slu = s.slu := rfl
@[simp] theorem State.setHold_bud (s : State) (m : Nat) (a : Nat) (h : Hold) : (s.setHold m a h).bud = s.bud := rfl
@[simp] theorem State.setHold_fre (s : State) (m : Nat) (a : Nat) (h : Hold) : (s.setHold m a h).fre = s.fre := rfl
@[simp] theorem State.setHold_fgd (s : State) (m : Nat) (a : Nat) (h : Hold) : (s.setHold m a h).fgd = s.fgd := rfl
@[simp] theorem State.setHold_had (s : State) (m : Nat) (a : Nat) (h : Hold) : (s.setHold m a h).had = s.had := rfl
@[simp] theorem State.setHold_ept (s : State) (m : Nat) (a : Nat) (h : Hold) : (s.setHold m a h).ept = s.ept := rfl
@[simp] theorem State.setHold_hif (s : State) (m : Nat) (a : Nat) (h : Hold) : (s.setHold m a h).hif = s.hif := rfl
@[simp] theorem State.setHold_can (s : State) (m : Nat) (a : Nat) (h : Hold) : (s.setHold m a h).can = s.can := rfl
@[simp] theorem State.setHold_lin (s : State) (m : Nat) (a : Nat) (h : Hold) : (s.setHold m a h).lin = s.lin := rfl
@[simp] theorem State.setHold_cfl (s : State) (m : Nat) (a : Nat) (h : Hold) : (s.setHold m a h).cfl = s.cfl := rfl
@[simp] theorem State.setHold_vlt (s : State) (m : Nat) (a : Nat) (h : Hold) : (s.setHold m a h).vlt = s.vlt := rfl
@[simp] theorem State.setHold_auth (s : State) (m : Nat) (a : Nat) (h : Hold) : (s.setHold m a h).auth = s.auth := rfl
@[simp] theorem State.setHold_twn (s : State) (m : Nat) (a : Nat) (h : Hold) : (s.setHold m a h).twn = s.twn := rfl
@[simp] theorem State.setHold_tim (s : State) (m : Nat) (a : Nat) (h : Hold) : (s.setHold m a h).tim = s.tim := rfl
@[simp] theorem State.setHold_pwr (s : State) (m : Nat) (a : Nat) (h : Hold) : (s.setHold m a h).pwr = s.pwr := rfl
@[simp] theorem State.setHold_mgs (s : State) (m : Nat) (a : Nat) (h : Hold) : (s.setHold m a h).mgs = s.mgs := rfl
@[simp] theorem State.setHold_svc (s : State) (m : Nat) (a : Nat) (h : Hold) : (s.setHold m a h).svc = s.svc := rfl
@[simp] theorem State.setHold_inj (s : State) (m : Nat) (a : Nat) (h : Hold) : (s.setHold m a h).inj = s.inj := rfl
@[simp] theorem State.setHold_out (s : State) (m : Nat) (a : Nat) (h : Hold) : (s.setHold m a h).out = s.out := rfl
@[simp] theorem State.setHold_free (s : State) (m : Nat) (a : Nat) (h : Hold) : (s.setHold m a h).free = s.free := rfl
@[simp] theorem State.setHold_pending (s : State) (m : Nat) (a : Nat) (h : Hold) : (s.setHold m a h).pending = s.pending := rfl

end Sys2Proof.Machine
end

