-- ==== Sys2Proof/Laws/Read.lean ====
section
/-! SUPPORT. What a register, a slot and a field of the state read after each shared operation. -/

set_option Elab.async false

namespace Sys2Proof.Machine

/-! ### Registers -/

@[simp] theorem State.wr_regs (s : State) (a : Nat) (v : Word) : (s.wr a v).regs = Tab.set regReset s.regs a v := rfl

theorem State.rd_congr {s t : State} (h : s.regs = t.regs) (a : Nat) : s.rd a = t.rd a := by unfold State.rd; rw [h]

theorem State.rd_wr (s : State) (a b : Nat) (v : Word) : (s.wr a v).rd b = if a = b then v else s.rd b := Tab.get_set _ _ _ _ _

@[simp] theorem State.rd_wr_same (s : State) (a : Nat) (v : Word) : (s.wr a v).rd a = v := Tab.get_set_same _ _ _ _

theorem State.rd_wr_ne (s : State) {a b : Nat} (v : Word) (h : a ≠ b) : (s.wr a v).rd b = s.rd b := Tab.get_set_ne _ _ _ h

theorem State.rd_wf (s : State) (a lo len v b : Nat) : (s.wf a lo len v).rd b = if a = b then setFld (s.rd b) lo len v else s.rd b := by
  unfold State.wf
  rw [State.rd_wr]
  split
  · next h => rw [h]
  · rfl

theorem State.rd_evt (s : State) (a b : Nat) : (s.evt a).rd b = if a = b then evtNext (s.rd b) else s.rd b := by
  unfold State.evt
  rw [State.rd_wr]
  split
  · next h => rw [h]
  · rfl

theorem State.rd_msixEval (s : State) (x : Bool) (b : Nat) : (s.msixEval x).rd b = s.rd b := State.rd_congr (by simp) b

/-- Setting a bit of a page's INT_RAW changes no other register. -/
theorem State.rd_raiseAt (s : State) (base i b : Nat) :
    (s.raiseAt base i).rd b = if Reg.INT_RAW base = b then s.rd b ||| wd (2 ^ i) else s.rd b := by
  unfold State.raiseAt
  rw [State.rd_msixEval, State.rd_wr]
  split
  · next h => rw [h]
  · rfl

theorem State.rd_raise (s : State) (b : Blk) (inst i a : Nat) :
    (s.raise b inst i).rd a = if Reg.INT_RAW (pageBase b inst) = a then s.rd a ||| wd (2 ^ i) else s.rd a :=
  State.rd_raiseAt s _ i a

@[simp] theorem State.rd_emit (s : State) (o : Output) (a : Nat) : (s.emit o).rd a = s.rd a := rfl
@[simp] theorem State.rd_logReq (s : State) (ty so : Nat) (p : List Byte) (a : Nat) : (s.logReq ty so p).rd a = s.rd a := rfl
@[simp] theorem State.rd_setSlot (s : State) (i : Nat) (v : Slot) (a : Nat) : (s.setSlot i v).rd a = s.rd a := rfl
@[simp] theorem State.rd_violSet (s : State) (a : Nat) : s.violSet.rd a = s.rd a := rfl
@[simp] theorem State.rd_logEvt (s : State) (b : Blk) (i n g : Nat) (c : Bool) (p : List Byte) (u a : Nat) :
    (s.logEvt b i n g c p u).rd a = s.rd a := State.rd_congr (by simp) a
@[simp] theorem State.rd_logMgmt (s : State) (n : Nat) (c : Bool) (p : List Byte) (a : Nat) : (s.logMgmt n c p).rd a = s.rd a := rfl
@[simp] theorem State.rd_touch (s : State) (m pg a : Nat) : (s.touch m pg).rd a = s.rd a := State.rd_congr (by simp) a
@[simp] theorem State.rd_holdRes (s : State) (i : Nat) (r : Result) (a : Nat) : (s.holdRes i r).rd a = s.rd a := rfl

/-- A 64-bit statistics counter holds the sum, which stops at 2^64 - 1 (R53). -/
theorem State.rd64_stat (s : State) (a n : Nat) : (s.stat a n).rd64 a = if s.rd64 a + n < 2 ^ 64 then s.rd64 a + n else 2 ^ 64 - 1 := by
  unfold State.stat State.wr64 State.rd64
  rw [State.rd_wr_ne _ _ (by omega), State.rd_wr_same, State.rd_wr_same]
  simp only [wd, BitVec.toNat_ofNat]
  split <;> rw [Nat.shiftRight_eq_div_pow] <;> omega

/-! ### Performance counters (R430): their own page at most -/

/-- Two states whose registers agree outside the page of the performance counters. -/
def pfcOnly (s t : State) : Prop := ∀ k, k < 0x4000 ∨ 0x5000 ≤ k → t.rd k = s.rd k

theorem State.perfAdd_rd (s : State) (n i : Nat) (hi : i < 64) : pfcOnly s (s.perfAdd n i) := by
  intro k hk
  have e1 : Reg.PFC_CNT_LO i ≠ k := by unfold Reg.PFC_CNT_LO; omega
  have e2 : Reg.PFC_CNT_HI i ≠ k := by unfold Reg.PFC_CNT_HI; omega
  have e3 : Reg.INT_RAW (pageBase .pfc 0) ≠ k := by
    have : Reg.INT_RAW (pageBase .pfc 0) = 0x4018 := by decide
    omega
  unfold State.perfAdd
  extract_lets v s1 s2 s3
  have h2 : s2.rd k = s.rd k := by
    show (s1.wf _ _ _ _).rd k = _
    rw [State.rd_wf, if_neg e2]
    exact State.rd_wr_ne _ _ e1
  split
  · exact h2
  · have h3 : s3.rd k = s.rd k := by
      show (s2.wf _ _ _ _).rd k = _
      rw [State.rd_wf, if_neg e2, h2]
    split
    · rw [State.rd_raise, if_neg e3, h3]
    · exact h3

theorem State.perfList_lt (s : State) : ∀ i ∈ s.perfList, i < 64 := by
  intro i hi
  unfold State.perfList at hi
  rw [List.mem_filterMap] at hi
  obtain ⟨⟨k, v⟩, -, h⟩ := hi
  simp only at h
  split at h
  · cases h; omega
  · cases h

/-- Counting an event on the performance counters changes no register outside their page. -/
theorem State.rd_perf (s : State) (code n : Nat) (m a : Option Nat) {k : Nat} (hk : k < 0x4000 ∨ 0x5000 ≤ k) :
    (s.perf code n m a).rd k = s.rd k := by
  unfold State.perf
  split
  · rfl
  · have hl : ∀ i ∈ s.perfList.filter (fun i => s.perfHit i code m a), i < 64 :=
      fun i hi => s.perfList_lt i (List.mem_filter.mp hi).1
    generalize s.perfList.filter (fun i => s.perfHit i code m a) = l at hl
    have : ∀ (l : List Nat) (t : State), (∀ i ∈ l, i < 64) → (l.foldl (fun s i => s.perfAdd n i) t).rd k = t.rd k := by
      intro l
      induction l with
      | nil => intro t _; rfl
      | cons i l ih =>
        intro t ht
        rw [List.foldl_cons, ih _ (fun j hj => ht j (List.mem_cons_of_mem _ hj))]
        exact State.perfAdd_rd t n i (ht i List.mem_cons_self) k hk
    exact this l s hl

/-- An admitted write leaves every register outside the performance counters' page as it was, until the register's own effect. -/
theorem State.rd_noted (s : State) (m a : Nat) {k : Nat} (hk : k < 0x4000 ∨ 0x5000 ≤ k) : (s.noted m a).rd k = s.rd k := by
  unfold State.noted
  rw [State.rd_perf _ _ _ _ _ hk, State.rd_touch]

/-! ### Slots -/

@[simp] theorem State.slot_setSlot (s : State) (i j : Nat) (v : Slot) : (s.setSlot i v).slot j = if i = j then v else s.slot j :=
  Tab.get_set _ _ _ _ _

theorem State.slot_congr {s t : State} (h : s.slots = t.slots) (i : Nat) : s.slot i = t.slot i := by unfold State.slot; rw [h]

/-! ### Accesses and commands -/

/-- An admitted write performs the register's effect (R32-R37). -/
theorem State.access_ok {s : State} {m a : Nat} (h : s.admits m a = true) (k : State → State) : s.access m a k = k (s.noted m a) := by
  simp only [State.admits, Bool.and_eq_true, decide_eq_true_eq, Option.isNone_iff_eq_none] at h
  unfold State.access
  rw [if_neg (by omega), if_neg (by omega), h.2]
  rfl

/-- A write that a rule of access stops is recorded, and has no other effect (R37). -/
theorem State.access_stop {s : State} {m a : Nat} {v : Viol} (h0 : s.svcBar m a = 0) (h : s.writeViol m a true = some v) (k : State → State) :
    s.access m a k = (s.violate v m a true).perf 0x02 1 (some m) (some a) := by
  unfold State.access
  rw [if_neg (by omega), if_neg (by omega), h]

/-- A command offered to an idle slot is accepted and runs (R49). -/
theorem State.command_idle {s : State} {i : Nat} (h : (s.slot i).idle = true) (m base : Nat) (k : State → State) :
    s.command i m base k = k (s.setSlot i ((s.slot i).accept m)) := by unfold State.command; rw [if_pos h]

/-- A command offered to a slot in use is refused and counted (R52). -/
theorem State.command_busy {s : State} {i : Nat} (h : (s.slot i).idle = false) (m base : Nat) (k : State → State) :
    s.command i m base k = s.cmdReject base := by unfold State.command; rw [if_neg (by simp [h])]

/-! ### What a command does at its end -/

/-- With no frame waiting inside, nothing is passed on. -/
theorem State.settle_nil {s : State} (h : s.inj = []) : s.settle = s := by
  unfold State.settle State.settleFrom
  rw [h]

/-- A header access that nothing stops performs its effect. -/
theorem State.hdrAccess_ok {s : State} {m a : Nat} (hp : a / 0x1000 ≠ 0xC8) (h : s.admits m a = true) (k : State → State) :
    s.hdrAccess m a k = k (s.noted m a) := by
  unfold State.hdrAccess
  rw [if_neg (by rw [show pageBase .srv 0 / 0x1000 = 0xC8 from by decide]; exact hp), State.access_ok h]

/-! ### The areas that an admitted write leaves as they were -/

@[simp] theorem State.noted_slots (s : State) (m a : Nat) : (s.noted m a).slots = s.slots := by simp [State.noted]
@[simp] theorem State.noted_holds (s : State) (m a : Nat) : (s.noted m a).holds = s.holds := by simp [State.noted]
@[simp] theorem State.noted_snaps (s : State) (m a : Nat) : (s.noted m a).snaps = s.snaps := by simp [State.noted]
@[simp] theorem State.noted_tbl (s : State) (m a : Nat) : (s.noted m a).tbl = s.tbl := by simp [State.noted]
@[simp] theorem State.noted_stage (s : State) (m a : Nat) : (s.noted m a).stage = s.stage := by simp [State.noted]
@[simp] theorem State.noted_commitQ (s : State) (m a : Nat) : (s.noted m a).commitQ = s.commitQ := by simp [State.noted]
@[simp] theorem State.noted_commits (s : State) (m a : Nat) : (s.noted m a).commits = s.commits := by simp [State.noted]
@[simp] theorem State.noted_frcNs (s : State) (m a : Nat) : (s.noted m a).frcNs = s.frcNs := by simp [State.noted]
@[simp] theorem State.noted_frcFrac (s : State) (m a : Nat) : (s.noted m a).frcFrac = s.frcFrac := by simp [State.noted]
@[simp] theorem State.noted_resets (s : State) (m a : Nat) : (s.noted m a).resets = s.resets := by simp [State.noted]
@[simp] theorem State.noted_lrn (s : State) (m a : Nat) : (s.noted m a).lrn = s.lrn := by simp [State.noted]
@[simp] theorem State.noted_bsn (s : State) (m a : Nat) : (s.noted m a).bsn = s.bsn := by simp [State.noted]
@[simp] theorem State.noted_meters (s : State) (m a : Nat) : (s.noted m a).meters = s.meters := by simp [State.noted]
@[simp] theorem State.noted_egr (s : State) (m a : Nat) : (s.noted m a).egr = s.egr := by simp [State.noted]
@[simp] theorem State.noted_slu (s : State) (m a : Nat) : (s.noted m a).slu = s.slu := by simp [State.noted]
@[simp] theorem State.noted_bud (s : State) (m a : Nat) : (s.noted m a).bud = s.bud := by simp [State.noted]
@[simp] theorem State.noted_fre (s : State) (m a : Nat) : (s.noted m a).fre = s.fre := by simp [State.noted]
@[simp] theorem State.noted_fgd (s : State) (m a : Nat) : (s.noted m a).fgd = s.fgd := by simp [State.noted]
@[simp] theorem State.noted_had (s : State) (m a : Nat) : (s.noted m a).had = s.had := by simp [State.noted]
@[simp] theorem State.noted_ept (s : State) (m a : Nat) : (s.noted m a).ept = s.ept := by simp [State.noted]
@[simp] theorem State.noted_hif (s : State) (m a : Nat) : (s.noted m a).hif = s.hif := by simp [State.noted]
@[simp] theorem State.noted_can (s : State) (m a : Nat) : (s.noted m a).can = s.can := by simp [State.noted]
@[simp] theorem State.noted_lin (s : State) (m a : Nat) : (s.noted m a).lin = s.lin := by simp [State.noted]
@[simp] theorem State.noted_cfl (s : State) (m a : Nat) : (s.noted m a).cfl = s.cfl := by simp [State.noted]
@[simp] theorem State.noted_vlt (s : State) (m a : Nat) : (s.noted m a).vlt = s.vlt := by simp [State.noted]
@[simp] theorem State.noted_auth (s : State) (m a : Nat) : (s.noted m a).auth = s.auth := by simp [State.noted]
@[simp] theorem State.noted_twn (s : State) (m a : Nat) : (s.noted m a).twn = s.twn := by simp [State.noted]
@[simp] theorem State.noted_tim (s : State) (m a : Nat) : (s.noted m a).tim = s.tim := by simp [State.noted]
@[simp] theorem State.noted_pwr (s : State) (m a : Nat) : (s.noted m a).pwr = s.pwr := by simp [State.noted]
@[simp] theorem State.noted_mgs (s : State) (m a : Nat) : (s.noted m a).mgs = s.mgs := by simp [State.noted]
@[simp] theorem State.noted_svc (s : State) (m a : Nat) : (s.noted m a).svc = s.svc := by simp [State.noted]
@[simp] theorem State.noted_inj (s : State) (m a : Nat) : (s.noted m a).inj = s.inj := by simp [State.noted]
@[simp] theorem State.noted_free (s : State) (m a : Nat) : (s.noted m a).free = s.free := by simp [State.noted]
@[simp] theorem State.noted_pending (s : State) (m a : Nat) : (s.noted m a).pending = s.pending := by simp [State.noted]

@[simp] theorem State.slot_noted (s : State) (m a i : Nat) : (s.noted m a).slot i = s.slot i := State.slot_congr (by simp) i

end Sys2Proof.Machine
end

