-- ==== Sys2Proof/Laws/Bits.lean ====
section
/-! SUPPORT. What a field or a bit of a word reads after one of its fields has been written. -/

set_option Elab.async false

namespace Sys2Proof.Machine

variable {n : Nat}

theorem setFld_toNat (w : BitVec n) {lo len : Nat} (v : Nat) (h : lo + len ≤ n) :
    (setFld w lo len v).toNat = w.toNat % 2 ^ lo + 2 ^ lo * (v % 2 ^ len + 2 ^ len * (w.toNat / 2 ^ lo / 2 ^ len)) := by
  unfold setFld fld
  rw [Nat.shiftRight_eq_div_pow, BitVec.toNat_ofNat]
  have hw := w.isLt
  generalize w.toNat = W at hw ⊢
  have h1 := Nat.div_add_mod W (2 ^ lo)
  have h2 := Nat.div_add_mod (W / 2 ^ lo) (2 ^ len)
  have hv : v % 2 ^ len < 2 ^ len := Nat.mod_lt _ (Nat.two_pow_pos _)
  have hr : W % 2 ^ lo < 2 ^ lo := Nat.mod_lt _ (Nat.two_pow_pos _)
  generalize W % 2 ^ lo = r at *
  generalize hq : W / 2 ^ lo = q at *
  generalize q % 2 ^ len = f at *
  have hb : q / 2 ^ len < 2 ^ (n - lo - len) := by
    rw [Nat.div_lt_iff_lt_mul (Nat.two_pow_pos _), ← hq, Nat.div_lt_iff_lt_mul (Nat.two_pow_pos _), ← Nat.pow_add, ← Nat.pow_add,
      show n - lo - len + len + lo = n from by omega]
    exact hw
  generalize q / 2 ^ len = b at *
  generalize v % 2 ^ len = u at *
  have e : W - f * 2 ^ lo + u * 2 ^ lo = r + 2 ^ lo * (u + 2 ^ len * b) := by
    have : W = 2 ^ lo * (2 ^ len * b) + 2 ^ lo * f + r := by rw [← Nat.mul_add, h2]; omega
    rw [Nat.mul_comm f, Nat.mul_comm u, Nat.mul_add]
    omega
  rw [e]
  apply Nat.mod_eq_of_lt
  have h3 : u + 2 ^ len * b < 2 ^ (n - lo) := by
    have : 2 ^ len * (b + 1) ≤ 2 ^ len * 2 ^ (n - lo - len) := Nat.mul_le_mul_left _ hb
    rw [← Nat.pow_add, show len + (n - lo - len) = n - lo from by omega, Nat.mul_add] at this
    omega
  have h4 : 2 ^ lo * (u + 2 ^ len * b + 1) ≤ 2 ^ lo * 2 ^ (n - lo) := Nat.mul_le_mul_left _ h3
  rw [← Nat.pow_add, show lo + (n - lo) = n from by omega, Nat.mul_add] at h4
  omega

theorem fld_setFld_same (w : BitVec n) {lo len : Nat} (v : Nat) (h : lo + len ≤ n) : fld (setFld w lo len v) lo len = v % 2 ^ len := by
  unfold fld
  rw [setFld_toNat w v h, Nat.shiftRight_eq_div_pow, Nat.add_mul_div_left _ _ (Nat.two_pow_pos _),
    Nat.div_eq_of_lt (Nat.mod_lt _ (Nat.two_pow_pos _)), Nat.zero_add, Nat.add_mul_mod_self_left, Nat.mod_mod]

theorem bit_setFld_ne (w : BitVec n) {lo len : Nat} (v : Nat) (h : lo + len ≤ n) {j : Nat} (hj : j < lo ∨ lo + len ≤ j) :
    bit (setFld w lo len v) j = bit w j := by
  show (setFld w lo len v).toNat.testBit j = w.toNat.testBit j
  rw [setFld_toNat w v h]
  rcases hj with hj | hj
  · rw [Nat.add_comm, Nat.testBit_two_pow_mul_add _ (Nat.mod_lt _ (Nat.two_pow_pos _)), if_pos hj, Nat.testBit_mod_two_pow]
    simp [hj]
  · rw [Nat.add_comm, Nat.testBit_two_pow_mul_add _ (Nat.mod_lt _ (Nat.two_pow_pos _)), if_neg (by omega), Nat.add_comm (v % _),
      Nat.testBit_two_pow_mul_add _ (Nat.mod_lt _ (Nat.two_pow_pos _)), if_neg (by omega), Nat.testBit_div_two_pow,
      Nat.testBit_div_two_pow]
    congr 1
    omega

theorem bit_setFld_same (w : BitVec n) {i : Nat} (v : Nat) (h : i < n) : bit (setFld w i 1 v) i = decide (v % 2 = 1) := by
  have e := fld_setFld_same w (lo := i) (len := 1) v h
  unfold fld at e
  show (setFld w i 1 v).toNat.testBit i = _
  rw [Nat.testBit_eq_decide_div_mod_eq, ← Nat.shiftRight_eq_div_pow, show (2 : Nat) = 2 ^ 1 from rfl, e]

/-- Fields that do not overlap. -/
theorem fld_setFld_ne (w : BitVec n) {lo len lo' len' : Nat} (v : Nat) (h : lo + len ≤ n) (hd : lo' + len' ≤ lo ∨ lo + len ≤ lo') :
    fld (setFld w lo len v) lo' len' = fld w lo' len' := by
  apply Nat.eq_of_testBit_eq
  intro j
  unfold fld
  rw [Nat.testBit_mod_two_pow, Nat.testBit_mod_two_pow, Nat.testBit_shiftRight, Nat.testBit_shiftRight]
  by_cases hj : j < len'
  · have := bit_setFld_ne w v h (j := lo' + j) (by omega)
    exact congrArg (decide (j < len') && ·) this
  · simp [hj]

/-! ### The same of a register -/

theorem State.rf_wr (s : State) (a b : Nat) (v : Word) (lo len : Nat) :
    (s.wr a v).rf b lo len = if a = b then fld v lo len else s.rf b lo len := by
  unfold State.rf
  rw [State.rd_wr]
  split <;> rfl

theorem State.rb_wr (s : State) (a b : Nat) (v : Word) (i : Nat) : (s.wr a v).rb b i = if a = b then bit v i else s.rb b i := by
  unfold State.rb
  rw [State.rd_wr]
  split <;> rfl

theorem State.rd_wf_ne (s : State) {a b : Nat} (lo len v : Nat) (h : a ≠ b) : (s.wf a lo len v).rd b = s.rd b := by
  rw [State.rd_wf, if_neg h]

theorem State.rd_wf_same (s : State) (a lo len v : Nat) : (s.wf a lo len v).rd a = setFld (s.rd a) lo len v := by
  rw [State.rd_wf, if_pos rfl]

theorem State.rf_wf_same (s : State) (a : Nat) {lo len : Nat} (v : Nat) (h : lo + len ≤ 32) : (s.wf a lo len v).rf a lo len = v % 2 ^ len := by
  unfold State.rf
  rw [State.rd_wf_same, fld_setFld_same _ _ h]

theorem State.rb_wf_same (s : State) (a : Nat) {i : Nat} (v : Nat) (h : i < 32) : (s.wf a i 1 v).rb a i = decide (v % 2 = 1) := by
  unfold State.rb
  rw [State.rd_wf_same, bit_setFld_same _ _ h]

theorem State.rb_wf_other (s : State) (a : Nat) {lo len j : Nat} (v : Nat) (h : lo + len ≤ 32) (hj : j < lo ∨ lo + len ≤ j) :
    (s.wf a lo len v).rb a j = s.rb a j := by
  unfold State.rb
  rw [State.rd_wf_same, bit_setFld_ne _ _ h hj]

theorem State.rf_wf_other (s : State) (a : Nat) {lo len lo' len' : Nat} (v : Nat) (h : lo + len ≤ 32)
    (hd : lo' + len' ≤ lo ∨ lo + len ≤ lo') : (s.wf a lo len v).rf a lo' len' = s.rf a lo' len' := by
  unfold State.rf
  rw [State.rd_wf_same, fld_setFld_ne _ _ h hd]

theorem State.rb_noted (s : State) (m a : Nat) {k : Nat} (i : Nat) (hk : k < 0x4000 ∨ 0x5000 ≤ k) : (s.noted m a).rb k i = s.rb k i := by
  unfold State.rb
  rw [State.rd_noted _ _ _ hk]

theorem State.rf_noted (s : State) (m a : Nat) {k : Nat} (lo len : Nat) (hk : k < 0x4000 ∨ 0x5000 ≤ k) :
    (s.noted m a).rf k lo len = s.rf k lo len := by
  unfold State.rf
  rw [State.rd_noted _ _ _ hk]

/-- A bit set by an interrupt or an OR reads 1. -/
theorem bit_or_pow (w : Word) {i : Nat} (h : i < 32) : bit (w ||| wd (2 ^ i)) i = true := by
  show (w ||| BitVec.ofNat 32 (2 ^ i)).getLsbD i = true
  rw [BitVec.getLsbD_or, BitVec.getLsbD_ofNat, Nat.testBit_two_pow_self]
  simp [h]

/-- A raised interrupt bit reads 1. -/
theorem State.rb_raise (s : State) (b : Blk) (inst : Nat) {i : Nat} (h : i < 32) : (s.raise b inst i).rb (Reg.INT_RAW (pageBase b inst)) i = true := by
  unfold State.rb
  rw [State.rd_raise, if_pos rfl, bit_or_pow _ h]

end Sys2Proof.Machine
end

