-- ==== Sys2Proof/Laws/ChgBasin.lean ====
section
/-! SUPPORT. What the operations of the Basin, its rings, the Sluices and FRER can change: one lemma each. -/

set_option Elab.async false

namespace Sys2Proof.Machine

variable {w : List Area} {s0 s : State}

theorem State.setFrame_chg {i : Nat} {f : Option Frame} (hw : Within [.bsn] w) (hs : Chg w s0 s) : Chg w s0 (State.setFrame s i f) := by
  unfold State.setFrame
  exact Chg.upd_bsn hw.mem hs _

theorem State.quotaScan_chg {q : Nat} (hw : Within [.regs, .msix, .mgs, .out] w) (hs : Chg w s0 s) : Chg w s0 (State.quotaScan s q) := by
  unfold State.quotaScan
  exact Chg.ite (Chg.ite (hs) (State.logEvt_chg hw.up (State.raise_chg hw.up (State.wf_chg hw.up hs)))) (Chg.ite (State.wf_chg hw.up hs) (hs))

theorem State.bsnCap_chg {d : Nat} {reason : Nat} {handle : Option Nat} (hw : Within [.regs] w) (hs : Chg w s0 s) : Chg w s0 (State.bsnCap s d reason handle) := by
  unfold State.bsnCap
  exact State.wr_chg hw.up hs

theorem State.bsnDrop_chg {d : Nat} {reason : Nat} {handle : Option Nat} (hw : Within [.regs] w) (hs : Chg w s0 s) : Chg w s0 (State.bsnDrop s d reason handle) := by
  unfold State.bsnDrop
  exact State.bsnCap_chg hw.up (State.stat_chg hw.up hs)

theorem State.eddyLost_chg {i : Nat} (hw : Within [.regs, .msix, .out] w) (hs : Chg w s0 s) : Chg w s0 (State.eddyLost s i) := by
  unfold State.eddyLost
  exact State.raise_chg hw.up (State.evt_chg hw.up hs)

theorem State.anyDrop_chg {d : Nat} {reason : Nat} {handle : Option Nat} {eddy : Option Nat} (hw : Within [.regs, .msix, .out] w) (hs : Chg w s0 s) : Chg w s0 (State.anyDrop s d reason handle eddy) := by
  unfold State.anyDrop
  split
  · exact State.eddyLost_chg hw.up (State.bsnCap_chg hw.up hs)
  · exact State.bsnDrop_chg hw.up hs

theorem State.cellsMoved_chg {l : List Nat} (hw : Within [.bsn] w) (hs : Chg w s0 s) : Chg w s0 (State.cellsMoved s l) := by
  unfold State.cellsMoved
  exact Chg.ite (Chg.upd_bsn hw.mem hs _) (hs)

theorem State.store_chg {f : Frame} {cells : Nat} (hw : Within [.regs, .msix, .bsn, .out] w) (hs : Chg w s0 s) : Chg2 w s0 (State.store s f cells) := by
  unfold State.store
  extract_lets -underBinder -merge +onlyGivenNames i1 c2 s3
  have h4 : Chg w s0 s3 := State.perf_chg hw.up (State.cellsMoved_chg hw.up (State.setFrame_chg hw.up hs))
  exact Chg.pair (Chg.upd_bsn hw.mem h4 _)

theorem State.release_chg {i : Nat} (hw : Within [.bsn] w) (hs : Chg w s0 s) : Chg w s0 (State.release s i) := by
  unfold State.release
  split
  · exact hs
  · exact Chg.ite (hs) (Chg.ite (State.cellsMoved_chg hw.up (State.setFrame_chg hw.up hs)) (Chg.ite (hs) (State.cellsMoved_chg hw.up (State.setFrame_chg hw.up hs))))

theorem State.copyDone_chg {i : Nat} {k : Nat} (hw : Within [.regs, .msix, .bsn, .mgs, .out] w) (hs : Chg w s0 s) : Chg w s0 (State.copyDone s i k) := by
  unfold State.copyDone
  split
  · exact hs
  · split
    · exact hs
    · exact State.quotaScan_chg hw.up (State.release_chg hw.up (State.setFrame_chg hw.up hs))

theorem State.copySt_chg {i : Nat} {k : Nat} {st : CopySt} (hw : Within [.bsn] w) (hs : Chg w s0 s) : Chg w s0 (State.copySt s i k st) := by
  unfold State.copySt
  split
  · exact hs
  · split
    · exact hs
    · exact State.setFrame_chg hw.up hs

theorem State.copyDrop_chg {i : Nat} {k : Nat} {reason : Nat} (hw : Within [.regs, .msix, .bsn, .mgs, .out] w) (hs : Chg w s0 s) : Chg w s0 (State.copyDrop s i k reason) := by
  unfold State.copyDrop
  split
  · exact hs
  · exact State.copyDone_chg hw.up (State.anyDrop_chg hw.up hs)

theorem State.setRxf_chg {r : Nat} {f : RxFifo} (hw : Within [.bsn] w) (hs : Chg w s0 s) : Chg w s0 (State.setRxf s r f) := by
  unfold State.setRxf
  exact Chg.upd_bsn hw.mem hs _

theorem State.setTxf_chg {r : Nat} {f : TxFifo} (hw : Within [.bsn] w) (hs : Chg w s0 s) : Chg w s0 (State.setTxf s r f) := by
  unfold State.setTxf
  exact Chg.upd_bsn hw.mem hs _

theorem State.gapMark_chg {r : Nat} (hw : Within [.bsn] w) (hs : Chg w s0 s) : Chg w s0 (State.gapMark s r) := by
  unfold State.gapMark
  extract_lets -underBinder -merge +onlyGivenNames f1
  exact Chg.ite (State.setRxf_chg hw.up hs) (hs)

theorem State.rxGap_chg {r : Nat} (hw : Within [.regs, .msix, .out] w) (hs : Chg w s0 s) : Chg w s0 (State.rxGap s r) := by
  unfold State.rxGap
  exact State.raise_chg hw.up (Chg.ite (State.evt_chg hw.up hs) (hs))

theorem State.rxDrop_chg {r : Nat} (hw : Within [.regs, .msix, .bsn, .out] w) (hs : Chg w s0 s) : Chg w s0 (State.rxDrop s r) := by
  unfold State.rxDrop
  extract_lets -underBinder -merge +onlyGivenNames f1
  exact State.rxGap_chg hw.up (State.setRxf_chg hw.up hs)

theorem State.rxStart_chg {r : Nat} {fid : Nat} {ts : Nat} {rate : Nat} {kind : Nat} {data : List Byte} (hw : Within [.regs, .msix, .bsn, .out] w) (hs : Chg w s0 s) : Chg2 w s0 (State.rxStart s r fid ts rate kind data) := by
  unfold State.rxStart
  extract_lets -underBinder -merge +onlyGivenNames s1 f3
  have h2 : Chg w s0 s1 := State.gapMark_chg hw.up hs
  exact Chg.ite2 (Chg.pair (State.rxDrop_chg hw.up h2)) (Chg.pair (State.setRxf_chg hw.up h2))

theorem State.rxStop_chg {fid : Nat} (hw : Within [.regs, .msix, .bsn, .egr, .mgs, .out] w) (hs : Chg w s0 s) : Chg w s0 (State.rxStop s fid) := by
  unfold State.rxStop
  extract_lets -underBinder -merge +onlyGivenNames stop1
  have h2 : ∀ z3 z5, Chg w s0 z3 → Chg w s0 (stop1 z3 z5) := by
    intro z3 z5 h4
    unfold stop1
    split
    · exact Chg.ite (State.copyDone_chg hw.up (State.setEg_chg hw.up h4)) (h4)
    · exact h4
  exact h2 _ _ (h2 _ _ (h2 _ _ (hs)))

theorem State.rxFill_chg {r : Nat} {now : Option Nat} (hw : Within [.regs, .msix, .bsn, .egr, .mgs, .out] w) (hs : Chg w s0 s) : Chg w s0 (State.rxFill s r now) := by
  unfold State.rxFill
  split
  · exact State.setRxf_chg hw.up hs
  · extract_lets -underBinder -merge +onlyGivenNames fid1
    exact State.rxStop_chg hw.up (State.rxGap_chg hw.up (State.setRxf_chg hw.up hs))

theorem State.rxAbort_chg {r : Nat} (hw : Within [.regs, .msix, .bsn, .out] w) (hs : Chg w s0 s) : Chg w s0 (State.rxAbort s r) := by
  unfold State.rxAbort
  split
  · exact Chg.ite (hs) (State.rxGap_chg hw.up (State.setRxf_chg hw.up hs))
  · exact hs

theorem State.rxSync_chg {r : Nat} (hw : Within [.regs, .msix, .bsn, .egr, .mgs, .out] w) (hs : Chg w s0 s) : Chg w s0 (State.rxSync s r) := by
  unfold State.rxSync
  exact State.rxFill_chg hw.up hs

theorem State.rxCommit_chg {r : Nat} {fid : Nat} {w0 : BitVec 64} (hw : Within [.regs, .msix, .bsn, .egr, .mgs, .out] w) (hs : Chg w s0 s) : Chg w s0 (State.rxCommit s r fid w0) := by
  unfold State.rxCommit
  extract_lets -underBinder -merge +onlyGivenNames s1 f3 fix4
  have h2 : Chg w s0 s1 := State.rxFill_chg hw.up hs
  exact State.setRxf_chg hw.up h2

theorem State.rxPop_chg {r : Nat} (hw : Within [.regs, .msix, .bsn, .egr, .mgs, .out] w) (hs : Chg w s0 s) : Chg w s0 (State.rxPop s r) := by
  unfold State.rxPop
  extract_lets -underBinder -merge +onlyGivenNames s1 f3
  have h2 : Chg w s0 s1 := State.rxSync_chg hw.up hs
  split
  · exact h2
  · exact State.setRxf_chg hw.up h2

theorem State.rxReset_chg {r : Nat} (hw : Within [.regs, .msix, .bsn, .mgs, .out] w) (hs : Chg w s0 s) : Chg w s0 (State.rxReset s r) := by
  unfold State.rxReset
  extract_lets -underBinder -merge +onlyGivenNames f1 n2 s3
  have h4 : Chg w s0 s3 := State.setRxf_chg hw.up hs
  exact State.logEvt_chg hw.up (State.raise_chg hw.up (Chg.ite (State.evt_chg hw.up h4) (h4)))

theorem State.txReset_chg {r : Nat} {n : Nat} (hw : Within [.regs, .msix, .bsn, .mgs, .out] w) (hs : Chg w s0 s) : Chg w s0 (State.txReset s r n) := by
  unfold State.txReset
  extract_lets -underBinder -merge +onlyGivenNames s1
  have h2 : Chg w s0 s1 := Chg.foldl (fun t4 _ h3 => State.evt_chg hw.up h3) (State.setTxf_chg hw.up hs)
  exact State.logEvt_chg hw.up (State.raise_chg hw.up h2)

theorem State.steer_chg {x : SteerKey} (hw : Within [.regs, .msix, .out] w) (hs : Chg w s0 s) : Chg2 w s0 (State.steer s x) := by
  unfold State.steer
  split
  · exact Chg.pair (State.raise_chg hw.up (State.stat_chg hw.up hs))
  · exact Chg.pair hs

theorem State.setSluice_chg {p : Nat} {v : Sluice} (hw : Within [.slu] w) (hs : Chg w s0 s) : Chg w s0 (State.setSluice s p v) := by
  unfold State.setSluice
  exact Chg.upd_slu hw.mem hs _

theorem State.creditSync_chg {p : Nat} (hw : Within [.egr] w) (hs : Chg w s0 s) : Chg w s0 (State.creditSync s p) := by
  unfold State.creditSync
  extract_lets -underBinder -merge +onlyGivenNames e1 dt2
  exact State.setEg_chg hw.up hs

theorem State.gateOverrun_chg {p : Nat} {old : Nat} {new : Nat} {sent : Nat} (hw : Within [.regs, .msix, .out] w) (hs : Chg w s0 s) : Chg w s0 (State.gateOverrun s p old new sent) := by
  unfold State.gateOverrun
  split
  · exact hs
  · extract_lets -underBinder -merge +onlyGivenNames least1 escape2
    exact Chg.ite (State.raise_chg hw.up (State.evt_chg hw.up hs)) (hs)

theorem State.gateSet_chg {p : Nat} {i : Nat} {gates : Nat} {op : Nat} {sent : Nat} {isStarted : Bool} (hw : Within [.regs, .msix, .egr, .slu, .out] w) (hs : Chg w s0 s) : Chg w s0 (State.gateSet s p i gates op sent isStarted) := by
  unfold State.gateSet
  extract_lets -underBinder -merge +onlyGivenNames s1 u3 e4 hold5 s6
  have h2 : Chg w s0 s1 := State.creditSync_chg hw.up hs
  have h7 : Chg w s0 s6 := State.gateOverrun_chg hw.up h2
  exact State.setEg_chg hw.up (State.setSluice_chg hw.up h7)

theorem State.gateRefresh_chg {p : Nat} {t : Int} {sent : Nat} (hw : Within [.regs, .msix, .egr, .slu, .out, .free] w) (hs : Chg w s0 s) : Chg w s0 (State.gateRefresh s p t sent) := by
  unfold State.gateRefresh
  split
  · exact State.gateSet_chg hw.up hs
  · split
    · refine Chg.ite ?_ ?_
      · exact State.gateSet_chg hw.up hs
      · split
        · rename_i y1 y2 e4
          have h3 := Chg2.of (State.draw_chg hw.up hs) e4
          exact State.gateSet_chg hw.up h3
    · exact hs

theorem State.gateEvent_chg {p : Nat} {sent : Nat} (hw : Within [.regs, .msix, .egr, .slu, .out, .free] w) (hs : Chg w s0 s) : Chg w s0 (State.gateEvent s p sent) := by
  unfold State.gateEvent
  exact Chg.ite (State.gateRefresh_chg hw.up hs) (hs)

theorem State.sluCfgErr_chg {p : Nat} (hw : Within [.regs, .msix, .out] w) (hs : Chg w s0 s) : Chg w s0 (State.sluCfgErr s p) := by
  unfold State.sluCfgErr
  exact State.raise_chg hw.up (State.evt_chg hw.up hs)

theorem State.sluChange_chg {p : Nat} (hw : Within [.slu] w) (hs : Chg w s0 s) : Chg w s0 (State.sluChange s p) := by
  unfold State.sluChange
  extract_lets -underBinder -merge +onlyGivenNames c1 soon2 ct3
  exact State.setSluice_chg hw.up hs

theorem State.sluCancel_chg {p : Nat} (hw : Within [.slu] w) (hs : Chg w s0 s) : Chg w s0 (State.sluCancel s p) := by
  unfold State.sluCancel
  exact State.setSluice_chg hw.up hs

theorem State.sluCmd_chg {p : Nat} {v : Word} (hw : Within [.slu] w) (hs : Chg w s0 s) : Chg w s0 (State.sluCmd s p v) := by
  unfold State.sluCmd
  extract_lets -underBinder -merge +onlyGivenNames s1
  have h2 : Chg w s0 s1 := Chg.ite (State.sluChange_chg hw.up hs) (hs)
  exact Chg.ite (State.sluCancel_chg hw.up h2) (h2)

theorem State.sluTake_chg {p : Nat} {sent : Nat} (hw : Within [.regs, .msix, .egr, .slu, .bud, .out, .free] w) (hs : Chg w s0 s) : Chg w s0 (State.sluTake s p sent) := by
  unfold State.sluTake
  split
  · exact hs
  · extract_lets -underBinder -merge +onlyGivenNames src1 s2 s4 t6
    have h3 : Chg w s0 s2 := State.setSluice_chg hw.up hs
    have h5 : Chg w s0 s4 := State.budDue_chg hw.up (State.raise_chg hw.up (State.stat_chg hw.up h3))
    exact Chg.ite (State.gateRefresh_chg hw.up h5) (h5)

theorem State.sluCtrlWrite_chg {m : Nat} {p : Nat} {v : Word} (hw : Within [.regs, .msix, .egr, .slu, .bud, .out, .free] w) (hs : Chg w s0 s) : Chg w s0 (State.sluCtrlWrite s m p v) := by
  unfold State.sluCtrlWrite
  extract_lets -underBinder -merge +onlyGivenNames was1 s2 u4
  have h3 : Chg w s0 s2 := State.budDue_chg hw.up (State.plainWrite_chg hw.up (State.creditSync_chg hw.up hs))
  refine Chg.ite ?_ ?_
  · exact State.setEg_chg hw.up (State.setSluice_chg hw.up h3)
  · refine Chg.ite ?_ ?_
    · exact h3
    · extract_lets -underBinder -merge +onlyGivenNames t5 s6
      have h7 : Chg w s0 s6 := Chg.ite (h3) (State.setSluice_chg hw.up h3)
      exact State.gateRefresh_chg hw.up h7

theorem State.sluAdminWrite_chg {m : Nat} {a : Nat} {p : Nat} {v : Word} (hw : Within [.regs, .msix, .out] w) (hs : Chg w s0 s) : Chg w s0 (State.sluAdminWrite s m a p v) := by
  unfold State.sluAdminWrite
  exact Chg.ite (State.sluCfgErr_chg hw.up hs) (State.plainWrite_chg hw.up hs)

theorem State.gclWrite_chg {p : Nat} {hi : Bool} {v : Word} (hw : Within [.regs, .msix, .slu, .out] w) (hs : Chg w s0 s) : Chg w s0 (State.gclWrite s p hi v) := by
  unfold State.gclWrite
  refine Chg.ite ?_ ?_
  · exact State.sluCfgErr_chg hw.up hs
  · extract_lets -underBinder -merge +onlyGivenNames i1 u2 e3 e4 s5
    have h6 : Chg w s0 s5 := State.setSluice_chg hw.up hs
    exact Chg.ite (State.wf_chg hw.up h6) (h6)

theorem State.setFre_chg {i : Nat} {f : FreFn} (hw : Within [.fre] w) (hs : Chg w s0 s) : Chg w s0 (State.setFre s i f) := by
  unfold State.setFre
  exact Chg.upd_fre hw.mem hs _

theorem State.freReset_chg {i : Nat} (hw : Within [.regs, .fre] w) (hs : Chg w s0 s) : Chg w s0 (State.freReset s i) := by
  unfold State.freReset
  extract_lets -underBinder -merge +onlyGivenNames f1 s2
  have h3 : Chg w s0 s2 := State.setFre_chg hw.up hs
  exact Chg.ite (State.evt_chg hw.up h3) (h3)

theorem State.freRecover_chg {i : Nat} {rtag : Option Nat} (hw : Within [.regs, .msix, .fre, .out] w) (hs : Chg w s0 s) : Chg2 w s0 (State.freRecover s i rtag) := by
  unfold State.freRecover
  extract_lets -underBinder -merge +onlyGivenNames f1 pass2
  have h3 : ∀ z4, Chg w s0 z4 → Chg2 w s0 (pass2 z4) := by
    intro z4 h5
    unfold pass2
    exact Chg.pair (State.stat_chg hw.up h5)
  split
  · exact Chg.ite2 (h3 _ (hs)) (Chg.pair (State.stat_chg hw.up hs))
  · extract_lets -underBinder -merge +onlyGivenNames d6
    refine Chg.ite2 ?_ ?_
    · exact h3 _ (State.setFre_chg hw.up hs)
    · refine Chg.ite2 ?_ ?_
      · refine Chg.ite2 ?_ ?_
        · exact Chg.pair (State.stat_chg hw.up hs)
        · extract_lets -underBinder -merge +onlyGivenNames s7
          have h8 : Chg w s0 s7 := Chg.ite (hs) (State.stat_chg hw.up hs)
          exact h3 _ (State.setFre_chg hw.up h8)
      · refine Chg.ite2 ?_ ?_
        · exact Chg.pair (State.raise_chg hw.up (State.stat_chg hw.up hs))
        · refine Chg.ite2 ?_ ?_
          · exact Chg.ite2 (Chg.pair (State.stat_chg hw.up hs)) (h3 _ (State.stat_chg hw.up (State.setFre_chg hw.up hs)))
          · extract_lets -underBinder -merge +onlyGivenNames s9
            have h10 : Chg w s0 s9 := Chg.ite (hs) (State.stat_chg hw.up hs)
            split
            · exact h3 _ (State.stat_chg hw.up (State.setFre_chg hw.up h10))

theorem State.freStage_chg {i : Nat} {rtag : Option Nat} (hw : Within [.regs, .msix, .fre, .out] w) (hs : Chg w s0 s) : Chg2 w s0 (State.freStage s i rtag) := by
  unfold State.freStage
  extract_lets -underBinder -merge +onlyGivenNames f1
  refine Chg.ite2 ?_ ?_
  · exact Chg.pair hs
  · refine Chg.ite2 ?_ ?_
    · split
      · rename_i y2 e4
        have h3 := Chg2.of (State.freRecover_chg hw.up hs) e4
        exact Chg.pair h3
      · rename_i y5 e7
        have h6 := Chg2.of (State.freRecover_chg hw.up hs) e7
        exact Chg.pair h6
    · exact Chg.pair (State.stat_chg hw.up (State.setFre_chg hw.up hs))

theorem State.freUntake_chg {taken : Option (Nat × Nat)} (hw : Within [.fre] w) (hs : Chg w s0 s) : Chg w s0 (State.freUntake s taken) := by
  unfold State.freUntake
  split
  · exact hs
  · extract_lets -underBinder -merge +onlyGivenNames f1
    refine Chg.ite ?_ ?_
    · exact hs
    · refine Chg.ite ?_ ?_
      · exact Chg.ite (State.setFre_chg hw.up hs) (hs)
      · extract_lets -underBinder -merge +onlyGivenNames d2
        exact Chg.ite (State.setFre_chg hw.up hs) (hs)

theorem State.freApply_chg {m : Nat} (hw : Within [.regs, .msix, .fre, .out] w) (hs : Chg w s0 s) : Chg w s0 (State.freApply s m) := by
  unfold State.freApply
  extract_lets -underBinder -merge +onlyGivenNames i1 d2 old3 f4
  refine Chg.ite ?_ ?_
  · exact State.raise_chg hw.up (State.evt_chg hw.up hs)
  · extract_lets -underBinder -merge +onlyGivenNames s5
    have h6 : Chg w s0 s5 := State.setFre_chg hw.up hs
    exact Chg.ite (State.freReset_chg hw.up h6) (h6)

theorem State.freLoad_chg {m : Nat} (hw : Within [.regs] w) (hs : Chg w s0 s) : Chg w s0 (State.freLoad s m) := by
  unfold State.freLoad
  extract_lets -underBinder -merge +onlyGivenNames f1
  exact State.wr_chg hw.up (State.wr_chg hw.up (State.wr_chg hw.up (State.wr_chg hw.up hs)))

theorem State.freCmd_chg {m : Nat} {v : Word} (hw : Within [.regs, .msix, .fre, .out] w) (hs : Chg w s0 s) : Chg w s0 (State.freCmd s m v) := by
  unfold State.freCmd
  extract_lets -underBinder -merge +onlyGivenNames s1 s3
  have h2 : Chg w s0 s1 := Chg.ite (State.freApply_chg hw.up hs) (hs)
  have h4 : Chg w s0 s3 := Chg.ite (State.freLoad_chg hw.up h2) (h2)
  exact Chg.ite (State.freReset_chg hw.up h4) (h4)

theorem State.freTimeout_chg {i : Nat} (hw : Within [.regs, .fre] w) (hs : Chg w s0 s) : Chg w s0 (State.freTimeout s i) := by
  unfold State.freTimeout
  extract_lets -underBinder -merge +onlyGivenNames f1
  exact Chg.ite (State.freReset_chg hw.up hs) (hs)

theorem State.freLatent_chg {i : Nat} (hw : Within [.regs, .msix, .mgs, .out] w) (hs : Chg w s0 s) : Chg w s0 (State.freLatent s i) := by
  unfold State.freLatent
  extract_lets -underBinder -merge +onlyGivenNames f1
  exact Chg.ite (State.logEvt_chg hw.up (State.raise_chg hw.up (State.evt_chg hw.up hs))) (hs)

theorem State.freLatentReset_chg {i : Nat} (hw : Within [.fre] w) (hs : Chg w s0 s) : Chg w s0 (State.freLatentReset s i) := by
  unfold State.freLatentReset
  extract_lets -underBinder -merge +onlyGivenNames f1
  exact Chg.ite (State.setFre_chg hw.up hs) (hs)

end Sys2Proof.Machine
end

