-- ==== Sys2Proof/Laws/ChgVlt.lean ====
section
/-! SUPPORT. What the operations of the Vault and line authentication can change: one lemma each. -/

set_option Elab.async false

namespace Sys2Proof.Machine

variable {w : List Area} {s0 s : State}

theorem State.trng_chg {n : Nat} (hw : Within [.vlt] w) (hs : Chg w s0 s) : Chg2 w s0 (State.trng s n) := by
  unfold State.trng
  exact Chg.pair (Chg.upd_vlt hw.mem hs ⟨Nat.le_refl _, fun _ => Nat.le_refl _⟩)

theorem State.setKslot_chg {i : Nat} {k : KeySlot} (hw : Within [.vlt] w) (hs : Chg w s0 s) (hk : (s.kslot i).lastGen ≤ k.lastGen) : Chg w s0 (State.setKslot s i k) := by
  unfold State.setKslot
  refine Chg.upd_vlt hw.mem hs ⟨Nat.le_refl _, fun j => ?_⟩
  show _ ≤ (Tab.get (fun _ => KeySlot.reset) (Tab.set (fun _ => KeySlot.reset) s.vlt.slots i k) j).lastGen
  rw [Tab.get_set]
  split
  · subst_vars; exact hk
  · exact Nat.le_refl _

theorem State.vltLog_chg {i : Nat} {payload : List Byte} (hw : Within [.mgs] w) (hs : Chg w s0 s) : Chg w s0 (State.vltLog s i payload) := by
  unfold State.vltLog
  exact State.logEvt_chg hw.up hs

theorem State.countRefused_chg (hw : Within [.regs] w) (hs : Chg w s0 s) : Chg w s0 (State.countRefused s) := by
  unfold State.countRefused
  exact State.evt_chg hw.up hs

theorem State.setSa_chg {n : Nat} {v : Sa} (hw : Within [.auth] w) (hs : Chg w s0 s) : Chg w s0 (State.setSa s n v) := by
  unfold State.setSa
  exact Chg.upd_auth hw.mem hs _

theorem State.setCau_chg {n : Nat} {v : CauEnt} (hw : Within [.auth] w) (hs : Chg w s0 s) : Chg w s0 (State.setCau s n v) := by
  unfold State.setCau
  exact Chg.upd_auth hw.mem hs _

theorem State.cauEvent_chg {n : Nat} {i : Nat} (hw : Within [.regs, .msix, .mgs, .out] w) (hs : Chg w s0 s) : Chg w s0 (State.cauEvent s n i) := by
  unfold State.cauEvent
  exact State.logEvt_chg hw.up (State.raise_chg hw.up hs)

theorem State.liveRefresh_chg (hw : Within [.regs, .msix, .auth, .mgs, .out] w) (hs : Chg w s0 s) : Chg w s0 (State.liveRefresh s) := by
  unfold State.liveRefresh
  refine Chg.foldl (fun s4 x6 h3 => ?_) (hs)
  extract_lets -underBinder -merge +onlyGivenNames e5
  exact Chg.ite (State.cauEvent_chg hw.up (State.setCau_chg hw.up h3)) (Chg.ite (State.setCau_chg hw.up h3) (h3))

theorem State.purgeSnap_chg {p : Nat → Bool} (hw : Within [.regs, .msix, .auth, .mgs, .out] w) (hs : Chg w s0 s) : Chg w s0 (State.purgeSnap s p) := by
  unfold State.purgeSnap
  refine Chg.foldl (fun s4 x6 h3 => ?_) (hs)
  extract_lets -underBinder -merge +onlyGivenNames a5
  split
  · exact Chg.ite (h3) (Chg.ite (State.logEvt_chg hw.up (State.raise_chg hw.up (State.setSa_chg hw.up h3))) (State.setSa_chg hw.up h3))
  · exact h3

theorem State.orphan_chg {a : Nat} {a1 : State} {a2 : Nat} (hw : Within [.regs, .msix, .vlt, .auth, .mgs, .out] w) (ha1 : Chg w s0 a1) : Chg w s0 (State.orphan a a1 a2) := by
  unfold State.orphan
  split
  · exact ha1
  · refine Chg.foldl (fun s4 x12 h3 => ?_) (ha1)
    extract_lets -underBinder -merge +onlyGivenNames k5 strict6 g7 s8 s10
    have h9 : Chg w s0 s8 := State.setKslot_chg hw.up h3 (Nat.le_refl _)
    have h11 : Chg w s0 s10 := State.logEvt_chg hw.up (State.raise_chg hw.up (State.evt_chg hw.up h9))
    exact Chg.ite (State.purgeSnap_chg hw.up (State.orphan_chg hw.up h11)) (h11)

theorem State.orphanOf_chg {p : Nat} (hw : Within [.regs, .msix, .vlt, .auth, .mgs, .out] w) (hs : Chg w s0 s) : Chg w s0 (State.orphanOf s p) := by
  unfold State.orphanOf
  exact State.orphan_chg hw.up hs

theorem State.ringAppend_chg {r : CtrRec} (hw : Within [.vlt] w) (hs : Chg w s0 s) : Chg w s0 (State.ringAppend s r) := by
  unfold State.ringAppend
  exact Chg.upd_vlt hw.mem hs ⟨by dsimp only; exact Nat.le_refl _, fun i => by unfold VltSt.lastGen; dsimp only; exact Nat.le_refl _⟩

theorem State.create_chg {i : Nat} {cmd : BitVec 64} {origin : Nat} {parent : Option Nat} {mat : List Byte} (hw : Within [.vlt] w) (hs : Chg w s0 s) : Chg2 w s0 (State.create s i cmd origin parent mat) := by
  unfold State.create
  exact State.setKslot_chg hw.up hs (Nat.le_succ _)

theorem State.vGenerate_chg {i : Nat} {cmd : BitVec 64} (hw : Within [.vlt] w) (hs : Chg w s0 s) : Chg2 w s0 (State.vGenerate s i cmd) := by
  unfold State.vGenerate
  split
  · exact Chg.pair hs
  · extract_lets -underBinder -merge +onlyGivenNames len1
    refine Chg.ite2 ?_ ?_
    · exact Chg.pair hs
    · refine Chg.ite2 ?_ ?_
      · exact Chg.pair hs
      · split
        · rename_i y2 y3 e5
          have h4 := Chg2.of (State.trng_chg hw.up hs) e5
          exact State.create_chg hw.up h4

theorem State.vDerive_chg {m : Nat} {i : Nat} {p : Nat} {cmd : BitVec 64} {label : List Byte} {ctx : List Byte} (hw : Within [.regs, .vlt] w) (hs : Chg w s0 s) : Chg2 w s0 (State.vDerive s m i p cmd label ctx) := by
  unfold State.vDerive
  split
  · exact Chg.pair hs
  · extract_lets -underBinder -merge +onlyGivenNames len1
    refine Chg.ite2 ?_ ?_
    · exact Chg.pair hs
    · extract_lets -underBinder -merge +onlyGivenNames P2
      refine Chg.ite2 ?_ ?_
      · exact Chg.pair hs
      · refine Chg.ite2 ?_ ?_
        · exact Chg.pair (State.evt_chg hw.up hs)
        · refine Chg.ite2 ?_ ?_
          · exact Chg.pair hs
          · extract_lets -underBinder -merge +onlyGivenNames mat3
            exact State.create_chg hw.up hs

theorem State.vCommit_chg {i : Nat} {kcv : Word} (hw : Within [.regs, .msix, .vlt, .auth, .mgs, .out] w) (hs : Chg w s0 s) : Chg2 w s0 (State.vCommit s i kcv) := by
  unfold State.vCommit
  split
  · exact Chg.pair hs
  · extract_lets -underBinder -merge +onlyGivenNames k1
    refine Chg.ite2 ?_ ?_
    · exact Chg.pair hs
    · refine Chg.ite2 ?_ ?_
      · exact Chg.pair (State.evt_chg hw.up hs)
      · extract_lets -underBinder -merge +onlyGivenNames s2 k4 c5 s6 s8 s10 s12
        have h3 : Chg w s0 s2 := State.orphanOf_chg hw.up hs
        have h7 : Chg w s0 s6 := State.setKslot_chg hw.up h3 (Nat.le_refl _)
        have h9 : Chg w s0 s8 := Chg.ite (h7) (State.ringAppend_chg hw.up h7)
        have h11 : Chg w s0 s10 := Chg.ite (State.logEvt_chg hw.up (State.raise_chg hw.up h9)) (h9)
        have h13 : Chg w s0 s12 := State.vltLog_chg hw.up h11
        exact Chg.pair (State.liveRefresh_chg hw.up h13)

theorem State.vDiscard_chg {i : Nat} (hw : Within [.vlt] w) (hs : Chg w s0 s) : Chg2 w s0 (State.vDiscard s i) := by
  unfold State.vDiscard
  extract_lets -underBinder -merge +onlyGivenNames k1
  exact Chg.ite2 (Chg.pair hs) (Chg.ite2 (Chg.pair hs) (Chg.pair (State.setKslot_chg hw.up hs (Nat.le_refl _))))

theorem State.vRevoke_chg {i : Nat} (hw : Within [.regs, .msix, .vlt, .auth, .mgs, .out] w) (hs : Chg w s0 s) : Chg2 w s0 (State.vRevoke s i) := by
  unfold State.vRevoke
  split
  · exact Chg.pair hs
  · extract_lets -underBinder -merge +onlyGivenNames k1
    refine Chg.ite2 ?_ ?_
    · exact Chg.pair hs
    · extract_lets -underBinder -merge +onlyGivenNames n2 s3 k5 s6
      have h4 : Chg w s0 s3 := State.orphanOf_chg hw.up hs
      have h7 : Chg w s0 s6 := State.setKslot_chg hw.up h4 (Nat.le_refl _)
      exact Chg.pair (State.liveRefresh_chg hw.up (State.purgeSnap_chg hw.up h7))

theorem State.vDelete_chg {i : Nat} (hw : Within [.vlt] w) (hs : Chg w s0 s) : Chg2 w s0 (State.vDelete s i) := by
  unfold State.vDelete
  refine Chg.ite2 ?_ ?_
  · exact Chg.pair hs
  · extract_lets -underBinder -merge +onlyGivenNames k1
    exact Chg.ite2 (Chg.pair (State.setKslot_chg hw.up hs (Nat.le_refl _))) (Chg.pair hs)

theorem State.wipeSlots_chg (hw : Within [.regs, .msix, .vlt, .auth, .mgs, .out] w) (hs : Chg w s0 s) : Chg w s0 (State.wipeSlots s) := by
  unfold State.wipeSlots
  exact State.liveRefresh_chg hw.up (Chg.upd_vlt hw.mem hs
    ⟨Nat.le_refl _, fun i => Nat.le_of_eq (lastGen_map KeySlot.wipe (fun _ => rfl) (fun _ => rfl) _ i).symm⟩)

theorem State.useKey_chg {i : Nat} {usage : Nat} {m : Nat} {algs : List Nat} {k : Cell → State → Result × State} (hw : Within [.regs] w) (hs : Chg w s0 s) (hk : ∀ t0 t1, Chg w s0 t1 → Chg2 w s0 (k t0 t1)) : Chg2 w s0 (State.useKey s i usage m algs k) := by
  unfold State.useKey
  split
  · exact Chg.pair (State.countRefused_chg hw.up hs)
  · exact hk _ _ (hs)

theorem State.vSign_chg {m : Nat} {i : Nat} {ctxLen : Nat} {buf : List Byte} (hw : Within [.regs] w) (hs : Chg w s0 s) : Chg2 w s0 (State.vSign s m i ctxLen buf) := by
  unfold State.vSign
  exact Chg.ite2 (Chg.pair hs) (Chg.ite2 (Chg.pair hs) (State.useKey_chg hw.up hs (fun x1 x2 h3 => Chg.pair h3)))

theorem State.vVerify_chg {m : Nat} {i : Nat} {ctxLen : Nat} {buf : List Byte} (hw : Within [.regs] w) (hs : Chg w s0 s) : Chg2 w s0 (State.vVerify s m i ctxLen buf) := by
  unfold State.vVerify
  extract_lets -underBinder -merge +onlyGivenNames check1
  exact Chg.ite2 (Chg.ite2 (Chg.pair hs) (Chg.pair hs)) (Chg.ite2 (Chg.pair hs) (State.useKey_chg hw.up hs (fun x2 x3 h4 => Chg.pair h4)))

theorem State.vHash_chg {n : Nat} {buf : List Byte} (_hw : Within [] w) (hs : Chg w s0 s) : Chg2 w s0 (State.vHash s n buf) := by
  unfold State.vHash
  exact Chg.ite2 (Chg.pair hs) (Chg.pair hs)

theorem State.vMac_chg {m : Nat} {i : Nat} {cmac : Bool} {buf : List Byte} (hw : Within [.regs] w) (hs : Chg w s0 s) : Chg2 w s0 (State.vMac s m i cmac buf) := by
  unfold State.vMac
  exact Chg.ite2 (Chg.pair hs) (State.useKey_chg hw.up hs (fun x1 x2 h3 => Chg.pair h3))

theorem State.vEncrypt_chg {m : Nat} {i : Nat} {aadLen : Nat} {buf : List Byte} (hw : Within [.regs, .msix, .vlt, .auth, .mgs, .out] w) (hs : Chg w s0 s) : Chg2 w s0 (State.vEncrypt s m i aadLen buf) := by
  unfold State.vEncrypt
  refine Chg.ite2 hs ?_
  refine State.useKey_chg hw.up hs (fun x10 x11 h12 => ?_)
  extract_lets -underBinder -merge +onlyGivenNames k13 s14 rsv16 iv17 aad18 pt19 ct20 s21 s23 s25 k27 s28
  have h15 : Chg w s0 s14 := Chg.ite (State.ringAppend_chg hw.up h12) h12
  have e : s14.kslot i = k13 := by unfold s14 k13 State.kslot State.ringAppend; split <;> dsimp only
  have h22 : Chg w s0 s21 := State.setKslot_chg hw.up h15 (Nat.le_of_eq (by rw [e]))
  have h24 : Chg w s0 s23 := Chg.ite (State.logEvt_chg hw.up (State.raise_chg hw.up h22)) h22
  have h26 : Chg w s0 s25 := State.orphanOf_chg hw.up h24
  have h29 : Chg w s0 s28 := Chg.ite (State.setKslot_chg hw.up h26 (Nat.le_refl _)) h24
  exact h29

theorem State.vDecrypt_chg {m : Nat} {i : Nat} {aadLen : Nat} {buf : List Byte} (hw : Within [.regs] w) (hs : Chg w s0 s) : Chg2 w s0 (State.vDecrypt s m i aadLen buf) := by
  unfold State.vDecrypt
  refine Chg.ite2 ?_ ?_
  · exact Chg.pair hs
  · refine State.useKey_chg hw.up (hs) (fun x10 x11 h12 => ?_)
    · extract_lets -underBinder -merge +onlyGivenNames iv13 aad14 ct15
      exact Chg.ite2 (Chg.pair h12) (Chg.pair h12)

theorem State.vRandom_chg {n : Nat} (hw : Within [.vlt] w) (hs : Chg w s0 s) : Chg2 w s0 (State.vRandom s n) := by
  unfold State.vRandom
  refine Chg.ite2 ?_ ?_
  · exact Chg.pair hs
  · split
    · rename_i y1 y2 e4
      have h3 := Chg2.of (State.trng_chg hw.up hs) e4
      exact Chg.pair h3

theorem State.vAttest_chg {buf : List Byte} (_hw : Within [] w) (hs : Chg w s0 s) : Chg2 w s0 (State.vAttest s buf) := by
  unfold State.vAttest
  exact Chg.ite2 (Chg.pair hs) (Chg.pair hs)

theorem State.vNonce_chg {m : Nat} (hw : Within [.vlt] w) (hs : Chg w s0 s) : Chg2 w s0 (State.vNonce s m) := by
  unfold State.vNonce
  split
  · rename_i y1 y2 e4
    have h3 := Chg2.of (State.trng_chg hw.up hs) e4
    exact Chg.pair (Chg.upd_vlt hw.mem h3 ⟨Nat.le_refl _, fun _ => Nat.le_refl _⟩)

theorem State.vInfo_chg {i : Nat} (_hw : Within [] w) (hs : Chg w s0 s) : Chg2 w s0 (State.vInfo s i) := by
  unfold State.vInfo
  extract_lets -underBinder -merge +onlyGivenNames c1 k2 a3
  exact Chg.pair hs

theorem State.useNonce_chg {m : Nat} {n : List Byte} (hw : Within [.vlt] w) (hs : Chg w s0 s) : Chg w s0 (State.useNonce s m n) := by
  unfold State.useNonce
  exact Chg.ite (Chg.upd_vlt hw.mem hs ⟨Nat.le_refl _, fun _ => Nat.le_refl _⟩) (hs)

theorem State.authFail_chg (hw : Within [.regs, .msix, .mgs, .out] w) (hs : Chg w s0 s) : Chg2 w s0 (State.authFail s) := by
  unfold State.authFail
  exact Chg.pair (State.logEvt_chg hw.up (State.raise_chg hw.up (State.evt_chg hw.up hs)))

theorem State.epochUp_chg (hw : Within [.regs, .msix, .vlt, .mgs, .out] w) (hs : Chg w s0 s) : Chg w s0 (State.epochUp s) := by
  unfold State.epochUp
  extract_lets -underBinder -merge +onlyGivenNames src1 s2 s4
  have h3 : Chg w s0 s2 := Chg.upd_vlt hw.mem hs ⟨Nat.le_succ _, fun _ => Nat.le_refl _⟩
  have h5 : Chg w s0 s4 := State.raise_chg hw.up h3
  exact Chg.ite (State.logEvt_chg hw.up (State.raise_chg hw.up h5)) (h5)

theorem State.vClaim_chg {m : Nat} {b : List Byte} (hw : Within [.regs, .msix, .vlt, .mgs, .out] w) (hs : Chg w s0 s) : Chg2 w s0 (State.vClaim s m b) := by
  unfold State.vClaim
  extract_lets -underBinder -merge +onlyGivenNames ok1 s2
  have h3 : Chg w s0 s2 := State.useNonce_chg hw.up hs
  refine Chg.ite2 ?_ ?_
  · exact Chg.pair h3
  · refine Chg.ite2 ?_ ?_
    · exact Chg.pair h3
    · refine Chg.ite2 ?_ ?_
      · extract_lets -underBinder -merge +onlyGivenNames src4 s5
        have h6 : Chg w s0 s5 := Chg.upd_vlt hw.mem h3 ⟨Nat.le_refl _, fun _ => Nat.le_refl _⟩
        exact Chg.pair (State.vltLog_chg hw.up (State.epochUp_chg hw.up h6))
      · exact State.authFail_chg hw.up h3

theorem State.vTransfer_chg {m : Nat} {b : List Byte} (hw : Within [.regs, .msix, .vlt, .auth, .mgs, .out] w) (hs : Chg w s0 s) : Chg2 w s0 (State.vTransfer s m b) := by
  unfold State.vTransfer
  extract_lets -underBinder -merge +onlyGivenNames ok1 s2
  have h3 : Chg w s0 s2 := State.useNonce_chg hw.up hs
  refine Chg.ite2 ?_ ?_
  · exact Chg.pair h3
  · extract_lets -underBinder -merge +onlyGivenNames flags4 release5
    refine Chg.ite2 ?_ ?_
    · extract_lets -underBinder -merge +onlyGivenNames src6 s7 s9
      have h8 : Chg w s0 s7 := Chg.upd_vlt hw.mem h3 ⟨Nat.le_refl _, fun _ => Nat.le_refl _⟩
      have h10 : Chg w s0 s9 := State.vltLog_chg hw.up (State.epochUp_chg hw.up h8)
      exact Chg.pair (Chg.ite (State.wipeSlots_chg hw.up h10) (h10))
    · exact State.authFail_chg hw.up h3

theorem State.vImport_chg {arg : List Byte} (hw : Within [.vlt] w) (hs : Chg w s0 s) : Chg2 w s0 (State.vImport s arg) := by
  unfold State.vImport
  extract_lets -underBinder -merge +onlyGivenNames i1 cmd2 len3 want4
  split
  · exact Chg.pair hs
  · refine Chg.ite2 ?_ ?_
    · exact Chg.pair hs
    · refine Chg.ite2 ?_ ?_
      · exact Chg.pair hs
      · extract_lets -underBinder -merge +onlyGivenNames eph5 dtk6 kek7 iv8 ct9
        exact Chg.ite2 (State.create_chg hw.up hs) (Chg.pair hs)

theorem State.newIdentity_chg (hw : Within [.vlt] w) (hs : Chg w s0 s) : Chg w s0 (State.newIdentity s) := by
  unfold State.newIdentity
  split
  · rename_i y1 y2 e4
    have h3 := Chg2.of (State.trng_chg hw.up hs) e4
    split
    · rename_i y5 y6 e8
      have h7 := Chg2.of (State.trng_chg hw.up h3) e8
      extract_lets -underBinder -merge +onlyGivenNames dp9 tp10
      exact Chg.upd_vlt hw.mem h7 ⟨Nat.le_refl _, fun _ => Nat.le_refl _⟩

theorem State.reinit_chg (hw : Within [.vlt] w) (hs : Chg w s0 s) : Chg w s0 (State.reinit s) := by
  unfold State.reinit
  extract_lets -underBinder -merge +onlyGivenNames s1
  have h2 : Chg w s0 s1 := State.newIdentity_chg hw.up hs
  exact Chg.upd_vlt hw.mem h2 ⟨Nat.le_refl _, fun _ => Nat.le_refl _⟩

theorem State.vltAlarm_chg {abort : Bool} (hw : Within [.regs, .vlt] w) (hs : Chg w s0 s) : Chg w s0 (State.vltAlarm s abort) := by
  unfold State.vltAlarm
  split
  · exact hs
  · refine Chg.ite ?_ ?_
    · refine Chg.ite ?_ ?_
      · exact hs
      · extract_lets -underBinder -merge +onlyGivenNames s1
        have h2 : Chg w s0 s1 := State.evt_chg hw.up hs
        exact Chg.upd_vlt hw.mem h2 ⟨Nat.le_refl _, fun _ => Nat.le_refl _⟩
    · exact Chg.upd_vlt hw.mem hs ⟨Nat.le_refl _, fun _ => Nat.le_refl _⟩

theorem State.vltLock_chg {cause : Nat} (hw : Within [.regs, .msix, .vlt, .auth, .mgs, .out] w) (hs : Chg w s0 s) : Chg w s0 (State.vltLock s cause) := by
  unfold State.vltLock
  extract_lets -underBinder -merge +onlyGivenNames was1 src2 s3 s5
  have h4 : Chg w s0 s3 := Chg.upd_vlt hw.mem hs ⟨Nat.le_refl _, fun _ => Nat.le_refl _⟩
  have h6 : Chg w s0 s5 := Chg.ite (State.raise_chg hw.up h4) (h4)
  exact State.liveRefresh_chg hw.up (State.vltLog_chg hw.up h6)

theorem State.vltStageAlarm_chg (hw : Within [.regs, .msix, .vlt, .auth, .mgs, .out] w) (hs : Chg w s0 s) : Chg w s0 (State.vltStageAlarm s) := by
  unfold State.vltStageAlarm
  exact Chg.ite (State.vltLock_chg hw.up hs) (Chg.upd_vlt hw.mem hs ⟨Nat.le_refl _, fun _ => Nat.le_refl _⟩)

theorem State.tamperClass2_chg (hw : Within [.regs, .msix, .vlt, .auth, .mgs, .out] w) (hs : Chg w s0 s) : Chg w s0 (State.tamperClass2 s) := by
  unfold State.tamperClass2
  split
  · exact State.vltStageAlarm_chg hw.up hs
  · exact State.vltLock_chg hw.up (State.vltAlarm_chg hw.up hs)
  · exact hs

theorem State.zeroise_chg (hw : Within [.regs, .msix, .vlt, .auth, .mgs, .out] w) (hs : Chg w s0 s) : Chg w s0 (State.zeroise s) := by
  unfold State.zeroise
  extract_lets -underBinder -merge +onlyGivenNames s1 src3 s4 s6 s8
  have h2 : Chg w s0 s1 := State.vltAlarm_chg hw.up hs
  have h5 : Chg w s0 s4 := Chg.upd_vlt hw.mem h2 ⟨Nat.le_refl _, fun _ => Nat.le_refl _⟩
  have h7 : Chg w s0 s6 := State.wipeSlots_chg hw.up h5
  have h9 : Chg w s0 s8 := State.purgeSnap_chg hw.up h7
  exact State.vltLog_chg hw.up (State.raise_chg hw.up h9)

theorem State.identAlarm_chg (hw : Within [.regs, .msix, .mgs, .out] w) (hs : Chg w s0 s) : Chg w s0 (State.identAlarm s) := by
  unfold State.identAlarm
  exact State.vltLog_chg hw.up (State.raise_chg hw.up hs)

theorem State.identFail_chg (hw : Within [.regs, .msix, .vlt, .auth, .mgs, .out] w) (hs : Chg w s0 s) : Chg w s0 (State.identFail s) := by
  unfold State.identFail
  extract_lets -underBinder -merge +onlyGivenNames src1 s2
  have h3 : Chg w s0 s2 := Chg.upd_vlt hw.mem hs ⟨Nat.le_refl _, fun _ => Nat.le_refl _⟩
  exact State.liveRefresh_chg hw.up (State.vltLog_chg hw.up (State.raise_chg hw.up (State.identAlarm_chg hw.up h3)))

theorem State.vltS4_chg {bad : List Nat} (hw : Within [.regs, .msix, .vlt, .auth, .mgs, .out] w) (hs : Chg w s0 s) : Chg w s0 (State.vltS4 s bad) := by
  unfold State.vltS4
  extract_lets -underBinder -merge +onlyGivenNames src1 s2 s4
  have h3 : Chg w s0 s2 := Chg.upd_vlt hw.mem hs ⟨Nat.le_refl _, fun i => Nat.le_of_eq (lastGen_map (s.slotUnwrap bad)
    (fun p => by unfold State.slotUnwrap; split <;> rfl) (fun p => by unfold State.slotUnwrap; split <;> rfl) _ i).symm⟩
  have h5 : Chg w s0 s4 := Chg.ite (h3) (State.identAlarm_chg hw.up h3)
  exact State.liveRefresh_chg hw.up (Chg.upd_vlt hw.mem h5 ⟨Nat.le_refl _, fun _ => Nat.le_refl _⟩)

theorem State.stageDone_chg {n : Nat} (hw : Within [.vlt] w) (hs : Chg w s0 s) : Chg w s0 (State.stageDone s n) := by
  unfold State.stageDone
  exact Chg.upd_vlt hw.mem hs ⟨Nat.le_refl _, fun _ => Nat.le_refl _⟩

theorem State.vltS1_chg (hw : Within [.vlt] w) (hs : Chg w s0 s) : Chg w s0 (State.vltS1 s) := by
  unfold State.vltS1
  split
  · rename_i y1 y2 e4
    have h3 := Chg2.of (State.trng_chg hw.up hs) e4
    extract_lets -underBinder -merge +onlyGivenNames h5
    exact State.stageDone_chg hw.up (Chg.upd_vlt hw.mem h3 ⟨Nat.le_refl _, fun _ => Nat.le_refl _⟩)

theorem State.vltS2_chg {ok : Bool} (hw : Within [.regs, .msix, .vlt, .auth, .mgs, .out] w) (hs : Chg w s0 s) : Chg w s0 (State.vltS2 s ok) := by
  unfold State.vltS2
  extract_lets -underBinder -merge +onlyGivenNames s1
  have h2 : Chg w s0 s1 := Chg.ite (State.newIdentity_chg hw.up hs) (hs)
  exact Chg.ite (State.identFail_chg hw.up h2) (State.stageDone_chg hw.up h2)

theorem State.vltS3_chg {ok : Bool} (hw : Within [.regs, .msix, .vlt, .auth, .mgs, .out] w) (hs : Chg w s0 s) : Chg w s0 (State.vltS3 s ok) := by
  unfold State.vltS3
  refine Chg.ite ?_ ?_
  · exact State.identFail_chg hw.up (Chg.upd_vlt hw.mem hs ⟨Nat.le_refl _, fun _ => Nat.le_refl _⟩)
  · refine Chg.ite ?_ ?_
    · exact State.vltLock_chg hw.up hs
    · extract_lets -underBinder -merge +onlyGivenNames src1 s2
      have h3 : Chg w s0 s2 := State.stageDone_chg hw.up (Chg.upd_vlt hw.mem hs ⟨Nat.le_refl _, fun _ => Nat.le_refl _⟩)
      exact Chg.ite (State.logEvt_chg hw.up (State.raise_chg hw.up h3)) (h3)

theorem State.vltStages_chg {n : Nat} (hw : Within [.regs, .msix, .vlt, .auth, .mgs, .out] w) (hs : Chg w s0 s) : Chg w s0 (State.vltStages s n) := by
  unfold State.vltStages
  extract_lets run ok
  have h : ∀ i f t, (∀ u, Chg w s0 u → Chg w s0 (f u)) → Chg w s0 t → Chg w s0 (run i f t) := fun i f t hf ht => Chg.ite (hf t ht) ht
  exact h _ _ _ (fun _ => State.vltS3_chg hw.up) (h _ _ _ (fun _ => State.vltS2_chg hw.up) (h _ _ _ (fun _ => State.vltS1_chg hw.up) hs))

theorem State.tamperLog_chg {sensor : Nat} {cls : Nat} (hw : Within [.mgs] w) (hs : Chg w s0 s) : Chg w s0 (State.tamperLog s sensor cls) := by
  unfold State.tamperLog
  exact State.logEvt_chg hw.up hs

theorem State.tamperClass1_chg {sensor : Nat} (hw : Within [.regs, .msix, .vlt, .auth, .mgs, .out] w) (hs : Chg w s0 s) : Chg w s0 (State.tamperClass1 s sensor) := by
  unfold State.tamperClass1
  extract_lets -underBinder -merge +onlyGivenNames s1 win3 g4 tot5 src6 s7
  have h2 : Chg w s0 s1 := State.tamperLog_chg hw.up (State.raise_chg hw.up (State.evt_chg hw.up hs))
  have h8 : Chg w s0 s7 := Chg.upd_vlt hw.mem h2 ⟨Nat.le_refl _, fun _ => Nat.le_refl _⟩
  exact Chg.ite (State.tamperClass2_chg hw.up (Chg.upd_vlt hw.mem h8 ⟨Nat.le_refl _, fun _ => Nat.le_refl _⟩)) (Chg.ite (State.vltStageAlarm_chg hw.up h8) (State.vltAlarm_chg hw.up h8))

theorem State.vltStartup_chg {n : Nat} {identOk : Bool} {ownerOk : Bool} {bad : List Nat} (hw : Within [.regs, .msix, .vlt, .auth, .mgs, .out] w) (hs : Chg w s0 s) : Chg w s0 (State.vltStartup s n identOk ownerOk bad) := by
  unfold State.vltStartup
  refine Chg.ite ?_ ?_
  · exact hs
  · extract_lets -underBinder -merge +onlyGivenNames src1 s2
    have h3 : Chg w s0 s2 := Chg.upd_vlt hw.mem hs ⟨Nat.le_refl _, fun _ => Nat.le_refl _⟩
    refine Chg.ite ?_ ?_
    · extract_lets -underBinder -merge +onlyGivenNames s4 s6
      have h5 : Chg w s0 s4 := Chg.ite (State.tamperLog_chg hw.up h3) (h3)
      have h7 : Chg w s0 s6 := Chg.ite (State.tamperLog_chg hw.up h5) (h5)
      exact State.vltLock_chg hw.up h7
    · extract_lets -underBinder -merge +onlyGivenNames s8
      have h9 : Chg w s0 s8 := State.vltStages_chg hw.up h3
      exact Chg.ite (State.vltS4_chg hw.up h9) (h9)

theorem State.tamperClear_chg (hw : Within [.regs, .msix, .vlt, .auth, .mgs, .out] w) (hs : Chg w s0 s) : Chg w s0 (State.tamperClear s) := by
  unfold State.tamperClear
  extract_lets -underBinder -merge +onlyGivenNames src1 s2 s4
  have h3 : Chg w s0 s2 := Chg.upd_vlt hw.mem hs ⟨Nat.le_refl _, fun _ => Nat.le_refl _⟩
  have h5 : Chg w s0 s4 := State.vltStages_chg hw.up h3
  exact Chg.ite (h5) (Chg.ite (State.vltS4_chg hw.up h5) (State.liveRefresh_chg hw.up (Chg.upd_vlt hw.mem h5 ⟨Nat.le_refl _, fun _ => Nat.le_refl _⟩)))

theorem State.vAction_chg {a : Nat} {window : Bool} {arg : List Byte} (hw : Within [.regs, .msix, .vlt, .auth, .mgs, .out] w) (hs : Chg w s0 s) : Chg2 w s0 (State.vAction s a window arg) := by
  unfold State.vAction
  split
  · exact Chg.pair (State.tamperClear_chg hw.up hs)
  · extract_lets -underBinder -merge +onlyGivenNames pg1
    split
    · exact Chg.pair hs
    · exact Chg.ite2 (Chg.pair hs) (Chg.pair (Chg.ite (hs) (State.wf_chg hw.up hs)))
  · exact Chg.ite2 (Chg.pair (Chg.upd_vlt hw.mem hs ⟨Nat.le_refl _, fun _ => Nat.le_refl _⟩)) (Chg.pair hs)
  · exact Chg.ite2 (Chg.pair (Chg.upd_vlt hw.mem hs ⟨Nat.le_refl _, fun _ => Nat.le_refl _⟩)) (Chg.pair hs)
  · exact Chg.pair (State.wipeSlots_chg hw.up hs)
  · exact Chg.pair (State.reinit_chg hw.up hs)
  · exact State.vImport_chg hw.up hs
  · exact Chg.pair hs

theorem State.vAuthorise_chg {m : Nat} {b : List Byte} (hw : Within [.regs, .msix, .vlt, .auth, .mgs, .out] w) (hs : Chg w s0 s) : Chg2 w s0 (State.vAuthorise s m b) := by
  unfold State.vAuthorise
  extract_lets -underBinder -merge +onlyGivenNames a1 nonce2 ok3 s4
  have h5 : Chg w s0 s4 := State.useNonce_chg hw.up hs
  refine Chg.ite2 ?_ ?_
  · exact Chg.pair h5
  · refine Chg.ite2 ?_ ?_
    · exact Chg.pair (State.reinit_chg hw.up h5)
    · refine Chg.ite2 ?_ ?_
      · exact State.authFail_chg hw.up h5
      · split
        · exact Chg.pair h5
        · extract_lets -underBinder -merge +onlyGivenNames arg6
          refine Chg.ite2 ?_ ?_
          · extract_lets -underBinder -merge +onlyGivenNames s7
            have h8 : Chg w s0 s7 := State.vltLog_chg hw.up h5
            exact State.vAction_chg hw.up h8
          · exact State.authFail_chg hw.up h5

theorem State.vltRun_chg {o : VltOp} (hw : Within [.regs, .msix, .vlt, .auth, .mgs, .out] w) (hs : Chg w s0 s) : Chg2 w s0 (State.vltRun s o) := by
  unfold State.vltRun
  extract_lets -underBinder -merge +onlyGivenNames a01 a12 slot3 attr4
  split
  · exact State.vInfo_chg hw.up hs
  · exact State.vGenerate_chg hw.up hs
  · extract_lets -underBinder -merge +onlyGivenNames l5 c6
    exact Chg.ite2 (Chg.pair hs) (State.vDerive_chg hw.up hs)
  · exact State.vCommit_chg hw.up hs
  · exact State.vDiscard_chg hw.up hs
  · exact State.vRevoke_chg hw.up hs
  · exact State.vDelete_chg hw.up hs
  · exact State.vSign_chg hw.up hs
  · exact State.vVerify_chg hw.up hs
  · exact State.vHash_chg hw.up hs
  · exact State.vMac_chg hw.up hs
  · exact State.vEncrypt_chg hw.up hs
  · exact State.vDecrypt_chg hw.up hs
  · exact State.vRandom_chg hw.up hs
  · exact State.vAttest_chg hw.up hs
  · exact State.vNonce_chg hw.up hs
  · exact State.vAuthorise_chg hw.up hs
  · exact State.vClaim_chg hw.up hs
  · exact State.vTransfer_chg hw.up hs
  · exact Chg.pair hs

theorem State.vltStart_chg (hw : Within [.regs, .msix, .vlt, .auth, .mgs, .out] w) (hs : Chg w s0 s) : Chg w s0 (State.vltStart s) := by
  unfold State.vltStart
  split
  · exact hs
  · refine Chg.ite ?_ ?_
    · split
      · rename_i y1 y2 e4
        have h3 := Chg2.of (State.vltRun_chg hw.up hs) e4
        exact Chg.upd_vlt hw.mem h3 ⟨Nat.le_refl _, fun _ => Nat.le_refl _⟩
    · exact hs

theorem State.vltRequest_chg {o : VltOp} {before : VltOp → Bool} (hw : Within [.regs, .msix, .vlt, .auth, .mgs, .out] w) (hs : Chg w s0 s) : Chg w s0 (State.vltRequest s o before) := by
  unfold State.vltRequest
  split
  · exact State.vltStart_chg hw.up (Chg.upd_vlt hw.mem hs ⟨Nat.le_refl _, fun _ => Nat.le_refl _⟩)
  · exact Chg.upd_vlt hw.mem hs ⟨Nat.le_refl _, fun _ => Nat.le_refl _⟩

theorem State.vltDrop_chg {p : VltOp → Bool} (hw : Within [.regs, .msix, .vlt, .auth, .mgs, .out] w) (hs : Chg w s0 s) : Chg w s0 (State.vltDrop s p) := by
  unfold State.vltDrop
  exact State.vltStart_chg hw.up (Chg.upd_vlt hw.mem hs ⟨Nat.le_refl _, fun _ => Nat.le_refl _⟩)

theorem State.vltCmd_chg {m : Nat} {op : Nat} (hw : Within [.regs, .slots, .msix, .vlt, .auth, .mgs, .out] w) (hs : Chg w s0 s) : Chg w s0 (State.vltCmd s m op) := by
  unfold State.vltCmd
  refine State.command_chg hw.up (hs) (fun x5 h6 => ?_)
  · extract_lets -underBinder -merge +onlyGivenNames o7 idle8 src9 s10 s12
    have h11 : Chg w s0 s10 := Chg.upd_vlt hw.mem h6 ⟨Nat.le_refl _, fun _ => Nat.le_refl _⟩
    have h13 : Chg w s0 s12 := State.perf_chg hw.up h11
    exact Chg.ite (State.vltStart_chg hw.up h13) (h13)

theorem State.vltCmdWrite_chg {m : Nat} {op : Nat} (hw : Within [.regs, .slots, .fences, .msix, .hif, .vlt, .auth, .mgs, .out] w) (hs : Chg w s0 s) : Chg w s0 (State.vltCmdWrite s m op) := by
  unfold State.vltCmdWrite
  exact State.access_chg hw.up hs (fun x1 h2 => State.vltCmd_chg hw.up h2)

theorem State.vltPowerDown_chg (hw : Within [.vlt] w) (hs : Chg w s0 s) : Chg w s0 (State.vltPowerDown s) := by
  unfold State.vltPowerDown
  exact Chg.upd_vlt hw.mem hs ⟨Nat.le_refl _, fun i => Nat.le_of_eq (lastGen_map KeySlot.dropComp (fun _ => rfl) (fun _ => rfl) _ i).symm⟩

theorem State.lceRej_chg {p : Nat} (hw : Within [.regs, .msix, .out] w) (hs : Chg w s0 s) : Chg w s0 (State.lceRej s p) := by
  unfold State.lceRej
  exact State.raise_chg hw.up (State.evt_chg hw.up hs)

theorem State.reserve_chg {kind : Nat} {index : Nat} {value : Nat} (hw : Within [.vlt] w) (hs : Chg w s0 s) : Chg w s0 (State.reserve s kind index value) := by
  unfold State.reserve
  exact Chg.upd_vlt hw.mem hs ⟨Nat.le_refl _, fun _ => Nat.le_refl _⟩

theorem State.unreserve_chg {kind : Nat} {index : Nat} (hw : Within [.vlt] w) (hs : Chg w s0 s) : Chg w s0 (State.unreserve s kind index) := by
  unfold State.unreserve
  exact Chg.upd_vlt hw.mem hs ⟨Nat.le_refl _, fun _ => Nat.le_refl _⟩

theorem State.saClear_chg {n : Nat} {p : Nat} (hw : Within [.regs] w) (hs : Chg w s0 s) : Chg w s0 (State.saClear s n p) := by
  unfold State.saClear
  exact Chg.foldl (fun t2 _ h1 => State.wr64_chg hw.up h1) (hs)

theorem State.saApply_chg {m : Nat} {p : Nat} (hw : Within [.regs, .msix, .vlt, .auth, .out] w) (hs : Chg w s0 s) : Chg w s0 (State.saApply s m p) := by
  unfold State.saApply
  extract_lets -underBinder -merge +onlyGivenNames n1 d2 pn3 a4 clash5
  refine Chg.ite ?_ ?_
  · exact State.lceRej_chg hw.up hs
  · extract_lets -underBinder -merge +onlyGivenNames s6
    have h7 : Chg w s0 s6 := State.setSa_chg hw.up hs
    exact Chg.ite (h7) (State.reserve_chg hw.up (State.ringAppend_chg hw.up (State.unreserve_chg hw.up h7)))

theorem State.saFree_chg {n : Nat} (hw : Within [.regs, .auth] w) (hs : Chg w s0 s) : Chg w s0 (State.saFree s n) := by
  unfold State.saFree
  exact State.saClear_chg hw.up (State.setSa_chg hw.up hs)

theorem State.saEnded_chg {sa : Option (Nat × Nat)} (hw : Within [.regs, .auth] w) (hs : Chg w s0 s) : Chg w s0 (State.saEnded s sa) := by
  unfold State.saEnded
  split
  · exact Chg.ite (State.saFree_chg hw.up hs) (hs)
  · exact hs

theorem State.saRetire_chg {m : Nat} {p : Nat} (hw : Within [.regs, .auth] w) (hs : Chg w s0 s) : Chg w s0 (State.saRetire s m p) := by
  unfold State.saRetire
  extract_lets -underBinder -merge +onlyGivenNames n1
  exact Chg.ite (State.setSa_chg hw.up hs) (State.saFree_chg hw.up hs)

theorem State.saLoad_chg {m : Nat} {p : Nat} (hw : Within [.regs] w) (hs : Chg w s0 s) : Chg w s0 (State.saLoad s m p) := by
  unfold State.saLoad
  extract_lets -underBinder -merge +onlyGivenNames a1 put2
  have h3 : ∀ z4 z6 z7, Chg w s0 z4 → Chg w s0 (put2 z4 z6 z7) := by
    intro z4 z6 z7 h5
    unfold put2
    exact State.wr_chg hw.up h5
  exact h3 _ _ _ (h3 _ _ _ (h3 _ _ _ (h3 _ _ _ (h3 _ _ _ (h3 _ _ _ (h3 _ _ _ (h3 _ _ _ (hs))))))))

theorem State.saCmd_chg {m : Nat} {p : Nat} {v : Word} (hw : Within [.regs, .msix, .vlt, .auth, .out] w) (hs : Chg w s0 s) : Chg w s0 (State.saCmd s m p v) := by
  unfold State.saCmd
  extract_lets -underBinder -merge +onlyGivenNames s1 s3
  have h2 : Chg w s0 s1 := Chg.ite (State.saApply_chg hw.up hs) (hs)
  have h4 : Chg w s0 s3 := Chg.ite (State.saRetire_chg hw.up h2) (h2)
  exact Chg.ite (State.saLoad_chg hw.up h4) (h4)

theorem State.saKeyLoad_chg {n : Nat} (hw : Within [.regs, .msix, .auth, .mgs, .out] w) (hs : Chg w s0 s) : Chg w s0 (State.saKeyLoad s n) := by
  unfold State.saKeyLoad
  extract_lets -underBinder -merge +onlyGivenNames a1
  refine Chg.ite ?_ ?_
  · exact hs
  · extract_lets -underBinder -merge +onlyGivenNames c2
    split
    · exact State.setSa_chg hw.up hs
    · exact State.logEvt_chg hw.up (State.raise_chg hw.up (State.setSa_chg hw.up (State.countRefused_chg hw.up hs)))

theorem State.cauKeyLoad_chg {n : Nat} (hw : Within [.regs, .msix, .auth, .mgs, .out] w) (hs : Chg w s0 s) : Chg w s0 (State.cauKeyLoad s n) := by
  unfold State.cauKeyLoad
  extract_lets -underBinder -merge +onlyGivenNames e1
  exact Chg.ite (Chg.ite (State.cauEvent_chg hw.up (State.countRefused_chg hw.up hs)) (State.setCau_chg hw.up hs)) (hs)

theorem State.lceRx_chg {p : Nat} {b : List Byte} (hw : Within [.regs] w) (hs : Chg w s0 s) : Chg2 w s0 (State.lceRx s p b) := by
  unfold State.lceRx
  refine Chg.ite2 ?_ ?_
  · exact Chg.pair hs
  · refine Chg.ite2 ?_ ?_
    · exact Chg.pair (State.stat_chg hw.up hs)
    · refine Chg.ite2 ?_ ?_
      · exact Chg.pair hs
      · refine Chg.ite2 ?_ ?_
        · exact Chg.ite2 (Chg.pair (State.evt_chg hw.up hs)) (Chg.pair (State.stat_chg hw.up hs))
        · extract_lets -underBinder -merge +onlyGivenNames tci1 sl2 pn323
          refine Chg.ite2 ?_ ?_
          · exact Chg.pair (State.evt_chg hw.up hs)
          · extract_lets -underBinder -merge +onlyGivenNames sci4
            split
            · exact Chg.pair (State.evt_chg hw.up hs)
            · split
              · exact Chg.pair (State.evt_chg hw.up hs)
              · extract_lets -underBinder -merge +onlyGivenNames pn5
                refine Chg.ite2 ?_ ?_
                · exact Chg.pair (State.stat_chg hw.up hs)
                · split
                  · exact Chg.pair hs

theorem State.lceVerdict_chg {p : Nat} {n : Nat} {pn : Nat} {ok : Bool} (hw : Within [.regs, .msix, .auth, .mgs, .out] w) (hs : Chg w s0 s) : Chg w s0 (State.lceVerdict s p n pn ok) := by
  unfold State.lceVerdict
  extract_lets -underBinder -merge +onlyGivenNames a1
  exact Chg.ite (hs) (Chg.ite (State.stat_chg hw.up (State.setSa_chg hw.up hs)) (State.logEvt_chg hw.up (State.raise_chg hw.up (State.stat_chg hw.up hs))))

theorem State.saIssue_chg {p : Nat} {n : Nat} (hw : Within [.regs, .msix, .vlt, .auth, .mgs, .out] w) (hs : Chg w s0 s) : Chg w s0 (State.saIssue s p n) := by
  unfold State.saIssue
  extract_lets -underBinder -merge +onlyGivenNames a1 next2 s3 ev5 high10 last11 s12 s14 s16
  have h4 : Chg w s0 s3 := State.stat_chg hw.up hs
  have h6 : ∀ z7 z9, Chg w s0 z7 → Chg w s0 (ev5 z7 z9) := by
    intro z7 z9 h8
    unfold ev5
    exact State.logEvt_chg hw.up (State.raise_chg hw.up h8)
  have h13 : Chg w s0 s12 := Chg.ite (State.reserve_chg hw.up h4) (h4)
  have h15 : Chg w s0 s14 := State.setSa_chg hw.up h13
  have h17 : Chg w s0 s16 := Chg.ite (h6 _ _ (h15)) (h15)
  exact Chg.ite (h6 _ _ (h17)) (h17)

theorem State.lceTx_chg {p : Nat} {b : List Byte} (hw : Within [.regs, .msix, .vlt, .auth, .mgs, .out] w) (hs : Chg w s0 s) : Chg2 w s0 (State.lceTx s p b) := by
  unfold State.lceTx
  refine Chg.ite2 ?_ ?_
  · exact Chg.pair hs
  · refine Chg.ite2 ?_ ?_
    · exact Chg.pair (State.stat_chg hw.up hs)
    · refine Chg.ite2 ?_ ?_
      · exact Chg.pair hs
      · extract_lets -underBinder -merge +onlyGivenNames noSa1
        have h2 : ∀ z3 z5, Chg w s0 z3 → Chg w s0 (noSa1 z3 z5) := by
          intro z3 z5 h4
          unfold noSa1
          exact State.logEvt_chg hw.up (State.raise_chg hw.up (State.evt_chg hw.up h4))
        split
        · exact Chg.pair (h2 _ _ (hs))
        · exact Chg.ite2 (Chg.pair (h2 _ _ (State.evt_chg hw.up hs))) (Chg.ite2 (Chg.pair (h2 _ _ (hs))) (Chg.ite2 (Chg.pair (State.evt_chg hw.up hs)) (Chg.pair (State.saIssue_chg hw.up hs))))

theorem State.cauRej_chg (hw : Within [.regs, .msix, .out] w) (hs : Chg w s0 s) : Chg w s0 (State.cauRej s) := by
  unfold State.cauRej
  exact State.raise_chg hw.up (State.evt_chg hw.up hs)

theorem State.cauSetFv_chg {n : Nat} {fv : Nat} (hw : Within [.regs, .msix, .auth, .mgs, .out] w) (hs : Chg w s0 s) : Chg w s0 (State.cauSetFv s n fv) := by
  unfold State.cauSetFv
  extract_lets -underBinder -merge +onlyGivenNames e1 warn2 s13 s25
  have h4 : Chg w s0 s13 := State.setCau_chg hw.up hs
  have h6 : Chg w s0 s25 := Chg.ite (State.cauEvent_chg hw.up h4) (h4)
  exact Chg.ite (State.cauEvent_chg hw.up h6) (h6)

theorem State.cauApply_chg {m : Nat} (hw : Within [.regs, .msix, .vlt, .auth, .mgs, .out] w) (hs : Chg w s0 s) : Chg w s0 (State.cauApply s m) := by
  unfold State.cauApply
  extract_lets -underBinder -merge +onlyGivenNames n1 d2 fv3 e4 clash5
  refine Chg.ite ?_ ?_
  · exact State.cauRej_chg hw.up hs
  · extract_lets -underBinder -merge +onlyGivenNames s6 s8
    have h7 : Chg w s0 s6 := State.setCau_chg hw.up hs
    have h9 : Chg w s0 s8 := Chg.ite (State.reserve_chg hw.up (State.ringAppend_chg hw.up (State.unreserve_chg hw.up h7))) (State.unreserve_chg hw.up h7)
    exact State.cauSetFv_chg hw.up h9

theorem State.cauRetire_chg {m : Nat} (hw : Within [.auth] w) (hs : Chg w s0 s) : Chg w s0 (State.cauRetire s m) := by
  unfold State.cauRetire
  exact State.setCau_chg hw.up hs

theorem State.cauLoad_chg {m : Nat} (hw : Within [.regs] w) (hs : Chg w s0 s) : Chg w s0 (State.cauLoad s m) := by
  unfold State.cauLoad
  extract_lets -underBinder -merge +onlyGivenNames e1 put2
  have h3 : ∀ z4 z6 z7, Chg w s0 z4 → Chg w s0 (put2 z4 z6 z7) := by
    intro z4 z6 z7 h5
    unfold put2
    exact State.wr_chg hw.up h5
  exact h3 _ _ _ (h3 _ _ _ (h3 _ _ _ (h3 _ _ _ (h3 _ _ _ (h3 _ _ _ (hs))))))

theorem State.cauCmd_chg {m : Nat} {v : Word} (hw : Within [.regs, .msix, .vlt, .auth, .mgs, .out] w) (hs : Chg w s0 s) : Chg w s0 (State.cauCmd s m v) := by
  unfold State.cauCmd
  extract_lets -underBinder -merge +onlyGivenNames s1 s3
  have h2 : Chg w s0 s1 := Chg.ite (State.cauApply_chg hw.up hs) (hs)
  have h4 : Chg w s0 s3 := Chg.ite (State.cauRetire_chg hw.up h2) (h2)
  exact Chg.ite (State.cauLoad_chg hw.up h4) (h4)

theorem State.cauFail_chg {n : Nat} {r : Nat} {b : List Byte} (hw : Within [.regs, .msix, .mgs, .out] w) (hs : Chg w s0 s) : Chg w s0 (State.cauFail s n r b) := by
  unfold State.cauFail
  extract_lets -underBinder -merge +onlyGivenNames s1 s3 s5
  have h2 : Chg w s0 s1 := State.stat_chg hw.up hs
  have h4 : Chg w s0 s3 := by
    unfold s3
    split
    · exact State.evt_chg hw.up h2
    · exact State.evt_chg hw.up h2
    · exact State.evt_chg hw.up h2
    · exact State.cauEvent_chg hw.up (State.evt_chg hw.up h2)
    · exact State.cauEvent_chg hw.up (State.evt_chg hw.up h2)
  have h6 : Chg w s0 s5 := State.wr_chg hw.up h4
  exact State.cauEvent_chg hw.up h6

theorem State.cauRx_chg {ch : Nat} {b : List Byte} (hw : Within [.regs, .msix, .auth, .mgs, .out] w) (hs : Chg w s0 s) : Chg2 w s0 (State.cauRx s ch b) := by
  unfold State.cauRx
  split
  · exact Chg.pair hs
  · split
    · exact Chg.ite2 (Chg.pair (State.stat_chg hw.up (State.cauSetFv_chg hw.up hs))) (Chg.pair (State.cauFail_chg hw.up hs))

theorem State.cauTx_chg {ch : Nat} {b : List Byte} (hw : Within [.regs, .msix, .vlt, .auth, .mgs, .out] w) (hs : Chg w s0 s) : Chg2 w s0 (State.cauTx s ch b) := by
  unfold State.cauTx
  refine Chg.ite2 ?_ ?_
  · exact Chg.pair (State.evt_chg hw.up hs)
  · split
    · exact Chg.pair hs
    · refine Chg.ite2 ?_ ?_
      · exact Chg.pair (State.raise_chg hw.up (State.evt_chg hw.up hs))
      · refine Chg.ite2 ?_ ?_
        · exact Chg.pair (State.cauEvent_chg hw.up (State.evt_chg hw.up hs))
        · refine Chg.ite2 ?_ ?_
          · exact Chg.pair (State.evt_chg hw.up hs)
          · refine Chg.ite2 ?_ ?_
            · exact Chg.pair (State.evt_chg hw.up hs)
            · extract_lets -underBinder -merge +onlyGivenNames fv1 s12 s24
              have h3 : Chg w s0 s12 := State.cauSetFv_chg hw.up hs
              have h5 : Chg w s0 s24 := Chg.ite (State.reserve_chg hw.up h3) (h3)
              exact Chg.pair (State.stat_chg hw.up h5)

theorem State.cauRecord_chg (hw : Within [.vlt, .auth] w) (hs : Chg w s0 s) : Chg w s0 (State.cauRecord s) := by
  unfold State.cauRecord
  refine Chg.foldl (fun s4 x6 h3 => ?_) (hs)
  extract_lets -underBinder -merge +onlyGivenNames e5
  exact Chg.ite (State.reserve_chg hw.up (State.setCau_chg hw.up h3)) (h3)

end Sys2Proof.Machine
end

