-- ==== Sys2Proof/Laws/ChgFwd.lean ====
section
/-! SUPPORT. What the operations of the scheduler, learning, the Weirs, the Freshness Guard and head admission can change: one lemma each. -/

set_option Elab.async false

namespace Sys2Proof.Machine

variable {w : List Area} {s0 s : State}

theorem State.choose_chg {p : Nat} {hd : Heads} {only : Bool} (hw : Within [.egr] w) (hs : Chg w s0 s) : Chg2 w s0 (State.choose s p hd only) := by
  unfold State.choose
  split
  · extract_lets -underBinder -merge +onlyGivenNames src1 s2
    have h3 : Chg w s0 s2 := State.setEg_chg hw.up hs
    split
    · exact Chg.pair h3
    · refine Chg.ite2 ?_ ?_
      · exact Chg.pair h3
      · split
        · exact Chg.pair (State.setEg_chg hw.up h3)

theorem State.oneStep_chg {p : Nat} {ingress : Nat} {b : List Byte} (hw : Within [.regs] w) (hs : Chg w s0 s) : Chg2 w s0 (State.oneStep s p ingress b) := by
  unfold State.oneStep
  refine Chg.ite2 ?_ ?_
  · split
    · exact Chg.pair hs
    · split
      · exact Chg.pair (State.evt_chg hw.up hs)
      · extract_lets -underBinder -merge +onlyGivenNames new1 b12
        exact Chg.pair hs
  · exact Chg.pair hs

theorem State.egressBytes_chg {p : Nat} {f : Frame} {c : Copy} (hw : Within [.regs, .msix, .vlt, .auth, .mgs, .out] w) (hs : Chg w s0 s) : Chg2 w s0 (State.egressBytes s p f c) := by
  unfold State.egressBytes
  extract_lets -underBinder -merge +onlyGivenNames b1
  refine Chg.ite2 ?_ ?_
  · exact State.lceTx_chg hw.up hs
  · refine Chg.ite2 ?_ ?_
    · exact Chg.pair hs
    · extract_lets -underBinder -merge +onlyGivenNames b2 b3 b4
      split
      · split
        · exact State.lceTx_chg hw.up hs
        · exact Chg.pair (State.syncDrop_chg hw.up hs)
      · exact State.lceTx_chg hw.up hs
      · split
        · rename_i y5 y6 e8
          have h7 := Chg2.of (State.oneStep_chg hw.up hs) e8
          exact State.lceTx_chg hw.up h7

theorem State.sentOwn_chg {p : Nat} {f : Frame} (hw : Within [.regs, .tim, .inj] w) (hs : Chg w s0 s) : Chg w s0 (State.sentOwn s p f) := by
  unfold State.sentOwn
  split
  · exact State.ownSent_chg hw.up hs
  · exact hs

theorem State.copyRing_chg {p : Nat} {f : Frame} {c : Copy} (hw : Within [.regs, .msix, .out] w) (hs : Chg w s0 s) : Chg2 w s0 (State.copyRing s p f c) := by
  unfold State.copyRing
  exact Chg.ite2 (Chg.pair hs) (Chg.ite2 (State.steer_chg hw.up hs) (Chg.pair hs))

theorem State.txStart_chg {p : Nat} {i : Nat} {k : Nat} (hw : Within [.regs, .msix, .bsn, .egr, .vlt, .auth, .tim, .mgs, .inj, .out] w) (hs : Chg w s0 s) : Chg w s0 (State.txStart s p i k) := by
  unfold State.txStart
  split
  · exact hs
  · extract_lets -underBinder -merge +onlyGivenNames pre1
    refine Chg.ite ?_ ?_
    · extract_lets -underBinder -merge +onlyGivenNames b2 b3 data4 kind5
      split
      · rename_i y6 e8
        have h7 := Chg2.of (State.copyRing_chg hw.up hs) e8
        exact State.copyDone_chg hw.up h7
      · rename_i y9 y10 e12
        have h11 := Chg2.of (State.copyRing_chg hw.up hs) e12
        extract_lets -underBinder -merge +onlyGivenNames s13
        have h14 : Chg w s0 s13 := State.setFrame_chg hw.up h11
        split
        · rename_i y15 e17
          have h16 := Chg2.of (State.rxStart_chg hw.up h14) e17
          exact State.copyDone_chg hw.up h16
        · rename_i y18 e20
          have h19 := Chg2.of (State.rxStart_chg hw.up h14) e20
          exact State.sentOwn_chg hw.up (State.setEg_chg hw.up (State.copySt_chg hw.up h19))
    · split
      · rename_i y21 e23
        have h22 := Chg2.of (State.egressBytes_chg hw.up hs) e23
        exact State.copyDone_chg hw.up h22
      · rename_i y24 y25 e27
        have h26 := Chg2.of (State.egressBytes_chg hw.up hs) e27
        exact State.sentOwn_chg hw.up (State.emit_chg hw.up (State.setEg_chg hw.up (State.copySt_chg hw.up h26)))

theorem State.cellsLost_chg {i : Nat} {k : Nat} (hw : Within [.bsn] w) (hs : Chg w s0 s) : Chg w s0 (State.cellsLost s i k) := by
  unfold State.cellsLost
  split
  · exact hs
  · extract_lets -underBinder -merge +onlyGivenNames s1
    have h2 : Chg w s0 s1 := State.setFrame_chg hw.up hs
    exact Chg.upd_bsn hw.mem h2 _

theorem State.eccCount_chg {i : Nat} {p : Nat} {ecc : Nat} (hw : Within [.regs, .msix, .bsn, .mgs, .out] w) (hs : Chg w s0 s) : Chg w s0 (State.eccCount s i p ecc) := by
  unfold State.eccCount
  refine Chg.ite ?_ ?_
  · exact hs
  · refine Chg.ite ?_ ?_
    · exact State.stat_chg hw.up hs
    · extract_lets -underBinder -merge +onlyGivenNames s1
      have h2 : Chg w s0 s1 := State.logEvt_chg hw.up (State.raise_chg hw.up (State.evt_chg hw.up hs))
      exact Chg.ite (State.cellsLost_chg hw.up h2) (h2)

theorem State.poisonOne_chg {f : Frame} {cause : Nat} {c : Copy} (hw : Within [.regs, .msix, .bsn, .mgs, .out] w) (hs : Chg w s0 s) : Chg w s0 (State.poisonOne s f cause c) := by
  unfold State.poisonOne
  refine Chg.ite ?_ ?_
  · exact hs
  · extract_lets -underBinder -merge +onlyGivenNames s11 src3 src5 s26
    have h2 : Chg w s0 s11 := State.stat_chg hw.up hs
    have h4 : Chg w s0 src3 := State.wr_chg hw.up (State.wr_chg hw.up h2)
    have h7 : Chg w s0 s26 := Chg.ite (h2) (Chg.upd_bsn hw.mem h4 _)
    exact State.logEvt_chg hw.up (State.raise_chg hw.up h7)

theorem State.poisonAll_chg {f : Frame} {cause : Nat} (hw : Within [.regs, .msix, .bsn, .mgs, .out] w) (hs : Chg w s0 s) : Chg w s0 (State.poisonAll s f cause) := by
  unfold State.poisonAll
  extract_lets -underBinder -merge +onlyGivenNames any1 s2
  have h3 : Chg w s0 s2 := Chg.ite (State.stat_chg hw.up hs) (hs)
  exact Chg.foldl (fun t5 _ h4 => State.poisonOne_chg hw.up h4) (h3)

theorem State.unqueue_chg {i : Nat} {k : Nat} (hw : Within [.regs, .msix, .bsn, .egr, .mgs, .out] w) (hs : Chg w s0 s) : Chg w s0 (State.unqueue s i k) := by
  unfold State.unqueue
  split
  · exact hs
  · refine Chg.ite ?_ ?_
    · extract_lets -underBinder -merge +onlyGivenNames s1
      have h2 : Chg w s0 s1 := Chg.ite (State.creditSync_chg hw.up hs) (hs)
      exact State.copyDrop_chg hw.up (State.stat_chg hw.up (State.setQueue_chg hw.up h2))
    · exact hs

theorem State.readError_chg {i : Nat} {p : Nat} {ecc : Nat} (hw : Within [.regs, .msix, .bsn, .egr, .mgs, .out] w) (hs : Chg w s0 s) : Chg w s0 (State.readError s i p ecc) := by
  unfold State.readError
  extract_lets -underBinder -merge +onlyGivenNames s1
  have h2 : Chg w s0 s1 := State.eccCount_chg hw.up hs
  split
  · exact h2
  · refine Chg.ite ?_ ?_
    · exact h2
    · extract_lets -underBinder -merge +onlyGivenNames s3
      have h4 : Chg w s0 s3 := State.poisonAll_chg hw.up (State.setFrame_chg hw.up h2)
      exact Chg.foldl (fun t6 _ h5 => State.unqueue_chg hw.up h5) (h4)

theorem State.txNext_chg {p : Nat} {k : Nat} {ecc : Nat} (hw : Within [.regs, .msix, .bsn, .egr, .vlt, .auth, .tim, .mgs, .inj, .out] w) (hs : Chg w s0 s) : Chg w s0 (State.txNext s p k ecc) := by
  unfold State.txNext
  split
  · exact hs
  · extract_lets -underBinder -merge +onlyGivenNames s1
    have h2 : Chg w s0 s1 := State.readError_chg hw.up hs
    split
    · exact h2
    · exact Chg.ite (State.txStart_chg hw.up (State.setQueue_chg hw.up h2)) (h2)

theorem State.dropTooBig_chg {s : State} {p : Nat} {k : Nat} {a : Nat} (hw : Within [.regs, .msix, .bsn, .mgs, .out] w) (hs : Chg w s0 s) : Chg w s0 (State.dropTooBig s p k a) := by
  unfold State.dropTooBig
  split
  · exact hs
  · split
    · exact hs
    · split
      · exact State.dropTooBig_chg hw.up (State.setQueue_chg hw.up hs)
      · exact Chg.ite (State.dropTooBig_chg hw.up (State.copyDone_chg hw.up (State.raise_chg hw.up (State.evt_chg hw.up (State.setQueue_chg hw.up hs))))) (hs)

theorem State.resume_chg {p : Nat} (hw : Within [.regs, .egr] w) (hs : Chg w s0 s) : Chg w s0 (State.resume s p) := by
  unfold State.resume
  split
  · exact State.stat_chg hw.up (State.setEg_chg hw.up hs)
  · exact hs

theorem State.egressSelect_chg {p : Nat} {ecc : Nat} (hw : Within [.regs, .msix, .bsn, .egr, .vlt, .auth, .tim, .mgs, .inj, .out] w) (hs : Chg w s0 s) : Chg w s0 (State.egressSelect s p ecc) := by
  unfold State.egressSelect
  refine Chg.ite ?_ ?_
  · exact hs
  · extract_lets -underBinder -merge +onlyGivenNames s1 s3
    have h2 : Chg w s0 s1 := State.creditSync_chg hw.up hs
    have h4 : Chg w s0 s3 := Chg.foldl (fun t6 _ h5 => State.dropTooBig_chg hw.up h5) (h2)
    refine Chg.ite ?_ ?_
    · exact Chg.ite (State.resume_chg hw.up h4) (h4)
    · split
      · rename_i y7 y8 e10
        have h9 := Chg2.of (State.choose_chg hw.up h4) e10
        exact State.txNext_chg hw.up h9
      · rename_i y11 e13
        have h12 := Chg2.of (State.choose_chg hw.up h4) e13
        exact Chg.ite (State.resume_chg hw.up h12) (h12)

theorem State.countTx_chg {p : Nat} {b : List Byte} (hw : Within [.regs] w) (hs : Chg w s0 s) : Chg w s0 (State.countTx s p b) := by
  unfold State.countTx
  refine Chg.ite ?_ ?_
  · exact hs
  · extract_lets -underBinder -merge +onlyGivenNames s1 d3
    have h2 : Chg w s0 s1 := State.stat_chg hw.up (State.stat_chg hw.up hs)
    exact State.stat_chg hw.up h2

theorem State.txComplete_chg {p : Nat} (hw : Within [.regs, .msix, .bsn, .egr, .ept, .mgs, .out] w) (hs : Chg w s0 s) : Chg w s0 (State.txComplete s p) := by
  unfold State.txComplete
  split
  · exact hs
  · split
    · exact State.setEg_chg hw.up hs
    · refine Chg.ite ?_ ?_
      · exact hs
      · extract_lets -underBinder -merge +onlyGivenNames poison1 s2 bare4 n5 s6 s8 src10 s11 s13 s15
        have h3 : Chg w s0 s2 := State.creditSync_chg hw.up hs
        have h7 : Chg w s0 s6 := State.stat_chg hw.up (State.stat_chg hw.up h3)
        have h9 : Chg w s0 s8 := State.countTx_chg hw.up h7
        have h12 : Chg w s0 s11 := Chg.ite (State.setEport_chg hw.up h9) (h9)
        have h14 : Chg w s0 s13 := by
          unfold s13
          split
          · exact State.stat_chg hw.up h12
          · exact h12
        have h16 : Chg w s0 s15 := Chg.ite (Chg.ite (h14) (State.rxCommit_chg hw.up h14)) (State.emit_chg hw.up h14)
        exact State.copyDone_chg hw.up (State.setEg_chg hw.up h16)

theorem State.preempt_chg {p : Nat} {sent : Nat} (hw : Within [.regs, .msix, .bsn, .egr, .vlt, .auth, .tim, .mgs, .inj, .out] w) (hs : Chg w s0 s) : Chg w s0 (State.preempt s p sent) := by
  unfold State.preempt
  split
  · exact hs
  · extract_lets -underBinder -merge +onlyGivenNames e1 wanted2
    exact Chg.ite (State.egressSelect_chg hw.up (State.setEg_chg hw.up (State.creditSync_chg hw.up hs))) (hs)

theorem State.link_chg {i : Nat} {k : Nat} (hw : Within [.bsn, .egr] w) (hs : Chg w s0 s) : Chg w s0 (State.link s i k) := by
  unfold State.link
  split
  · exact hs
  · extract_lets -underBinder -merge +onlyGivenNames s1
    have h2 : Chg w s0 s1 := Chg.ite (State.creditSync_chg hw.up hs) (hs)
    exact State.setQueue_chg hw.up (State.copySt_chg hw.up h2)

theorem State.chargeCt_chg {p : Nat} {k : Nat} {n : Nat} (hw : Within [.egr] w) (hs : Chg w s0 s) : Chg w s0 (State.chargeCt s p k n) := by
  unfold State.chargeCt
  exact Chg2.snd (State.choose_chg hw.up hs)

theorem State.announce_chg {key : Nat} (hw : Within [.lrn] w) (hs : Chg w s0 s) : Chg w s0 (State.announce s key) := by
  unfold State.announce
  extract_lets -underBinder -merge +onlyGivenNames x1
  exact Chg.ite (hs) (Chg.upd_lrn hw.mem hs _)

theorem State.announceAgain_chg {key : Nat} (hw : Within [.lrn] w) (hs : Chg w s0 s) : Chg w s0 (State.announceAgain s key) := by
  unfold State.announceAgain
  split
  · exact State.announce_chg hw.up hs
  · exact Chg.ite (State.announce_chg hw.up hs) (hs)

theorem State.adtRefresh_chg {i : Nat} (hw : Within [.tbl, .lrn] w) (hs : Chg w s0 s) : Chg w s0 (State.adtRefresh s i) := by
  unfold State.adtRefresh
  extract_lets -underBinder -merge +onlyGivenNames e1 tick2 s3
  have h4 : Chg w s0 s3 := Chg.foldl (fun t6 _ h5 => State.setTent_chg hw.up h5) (hs)
  exact Chg.ite (h4) (State.announceAgain_chg hw.up h4)

theorem State.learnPush_chg {r : LearnReq} (hw : Within [.regs, .msix, .lrn, .mgs, .out] w) (hs : Chg w s0 s) : Chg w s0 (State.learnPush s r) := by
  unfold State.learnPush
  exact Chg.ite (State.logEvt_chg hw.up (State.raise_chg hw.up (State.evt_chg hw.up hs))) (Chg.upd_lrn hw.mem hs _)

theorem State.learnLook_chg {p : Nat} {smac : Nat} {vid : Nat} (hw : Within [.regs, .tbl, .msix, .lrn, .mgs, .out] w) (hs : Chg w s0 s) : Chg w s0 (State.learnLook s p smac vid) := by
  unfold State.learnLook
  refine Chg.ite ?_ ?_
  · exact hs
  · split
    · exact Chg.ite (State.adtRefresh_chg hw.up hs) (State.learnPush_chg hw.up hs)
    · exact State.learnPush_chg hw.up hs

theorem State.remoteDone_chg {r : LearnReq} (hw : Within [.regs] w) (hs : Chg w s0 s) : Chg w s0 (State.remoteDone s r) := by
  unfold State.remoteDone
  exact Chg.ite (State.stat_chg hw.up hs) (hs)

theorem State.learnCreate_chg {r : LearnReq} (hw : Within [.regs, .tbl, .msix, .lrn, .out] w) (hs : Chg w s0 s) : Chg w s0 (State.learnCreate s r) := by
  unfold State.learnCreate
  extract_lets -underBinder -merge +onlyGivenNames key1 rem2 e3
  split
  · exact State.raise_chg hw.up (State.evt_chg hw.up hs)
  · rename_i y4 e6
    have h5 := State.adtPlaceSlow_chg hw.up (hs) _ e6
    extract_lets -underBinder -merge +onlyGivenNames s7
    have h8 : Chg w s0 s7 := State.remoteDone_chg hw.up (State.stat_chg hw.up h5)
    exact Chg.ite (h8) (State.announce_chg hw.up h8)

theorem State.learnFlap_chg {i : Nat} {q : Nat} (hw : Within [.regs, .tbl, .msix, .mgs, .out] w) (hs : Chg w s0 s) : Chg w s0 (State.learnFlap s i q) := by
  unfold State.learnFlap
  extract_lets -underBinder -merge +onlyGivenNames e1 p2 e3 s4 s6 s8 s10
  have h5 : Chg w s0 s4 := State.raise_chg hw.up (State.evt_chg hw.up (State.setTent_chg hw.up hs))
  have h7 : Chg w s0 s6 := State.wr_chg hw.up h5
  have h9 : Chg w s0 s8 := State.wr_chg hw.up h7
  have h11 : Chg w s0 s10 := State.wr_chg hw.up h9
  exact State.logEvt_chg hw.up h11

theorem State.learnMove_chg {i : Nat} {r : LearnReq} (hw : Within [.regs, .tbl, .lrn] w) (hs : Chg w s0 s) : Chg w s0 (State.learnMove s i r) := by
  unfold State.learnMove
  extract_lets -underBinder -merge +onlyGivenNames e1 e2 e3 e4 s5
  have h6 : Chg w s0 s5 := State.stat_chg hw.up (State.setTent_chg hw.up hs)
  exact Chg.ite (h6) (State.announce_chg hw.up h6)

theorem State.learnOn_chg {r : LearnReq} {i : Nat} (hw : Within [.regs, .tbl, .msix, .lrn, .mgs, .out] w) (hs : Chg w s0 s) : Chg w s0 (State.learnOn s r i) := by
  unfold State.learnOn
  extract_lets -underBinder -merge +onlyGivenNames e1
  exact Chg.ite (State.evt_chg hw.up hs) (Chg.ite (State.remoteDone_chg hw.up (State.adtRefresh_chg hw.up hs)) (Chg.ite (State.evt_chg hw.up hs) (Chg.ite (State.evt_chg hw.up hs) (Chg.ite (State.learnFlap_chg hw.up hs) (State.remoteDone_chg hw.up (State.learnMove_chg hw.up hs))))))

theorem State.learnWithdraw_chg {r : LearnReq} (hw : Within [.regs, .tbl] w) (hs : Chg w s0 s) : Chg w s0 (State.learnWithdraw s r) := by
  unfold State.learnWithdraw
  split
  · extract_lets -underBinder -merge +onlyGivenNames e1
    exact Chg.ite (State.remoteDone_chg hw.up (State.setTent_chg hw.up hs)) (hs)
  · exact hs

theorem State.learnCommit_chg (hw : Within [.regs, .tbl, .msix, .lrn, .mgs, .out] w) (hs : Chg w s0 s) : Chg w s0 (State.learnCommit s) := by
  unfold State.learnCommit
  split
  · exact hs
  · extract_lets -underBinder -merge +onlyGivenNames src1 s2
    have h3 : Chg w s0 s2 := State.adtFinish_chg hw.up (Chg.upd_lrn hw.mem hs _)
    refine Chg.ite ?_ ?_
    · exact State.learnWithdraw_chg hw.up h3
    · split
      · exact State.learnOn_chg hw.up h3
      · exact State.learnCreate_chg hw.up h3

theorem State.freezeOne_chg {i : Nat} (hw : Within [.tbl] w) (hs : Chg w s0 s) : Chg w s0 (State.freezeOne s i) := by
  unfold State.freezeOne
  extract_lets -underBinder -merge +onlyGivenNames e1 n2 e3 old4 e5
  exact State.setTent_chg hw.up hs

theorem State.freezeTick_chg (hw : Within [.regs, .tbl, .lrn] w) (hs : Chg w s0 s) : Chg w s0 (State.freezeTick s) := by
  unfold State.freezeTick
  extract_lets -underBinder -merge +onlyGivenNames s1
  have h2 : Chg w s0 s1 := State.adtFinish_chg hw.up hs
  exact Chg.foldl (fun t4 _ h3 => State.freezeOne_chg hw.up h3) (h2)

theorem State.pruneOne_chg {i : Nat} (hw : Within [.regs, .tbl, .lrn] w) (hs : Chg w s0 s) : Chg w s0 (State.pruneOne s i) := by
  unfold State.pruneOne
  extract_lets -underBinder -merge +onlyGivenNames e1
  exact Chg.ite (State.stat_chg hw.up (State.setTent_chg hw.up (State.noteWithdraw_chg hw.up hs))) (hs)

theorem State.ageAdvance_chg (hw : Within [.regs, .tbl, .lrn] w) (hs : Chg w s0 s) : Chg w s0 (State.ageAdvance s) := by
  unfold State.ageAdvance
  extract_lets -underBinder -merge +onlyGivenNames s1 s3 src5 s6
  have h2 : Chg w s0 s1 := State.adtFinish_chg hw.up hs
  have h4 : Chg w s0 s3 := State.wf_chg hw.up h2
  have h7 : Chg w s0 s6 := Chg.upd_lrn hw.mem h4 _
  exact Chg.foldl (fun t9 _ h8 => State.pruneOne_chg hw.up h8) (h7)

theorem State.ageTick_chg (hw : Within [.regs, .tbl, .lrn] w) (hs : Chg w s0 s) : Chg w s0 (State.ageTick s) := by
  unfold State.ageTick
  exact Chg.ite (hs) (State.ageAdvance_chg hw.up hs)

theorem State.lrnAgeWrite_chg {m : Nat} {v : Word} (hw : Within [.regs, .tbl, .lrn] w) (hs : Chg w s0 s) : Chg w s0 (State.lrnAgeWrite s m v) := by
  unfold State.lrnAgeWrite
  extract_lets -underBinder -merge +onlyGivenNames was1 s2 n4
  have h3 : Chg w s0 s2 := State.plainWrite_chg hw.up hs
  exact Chg.ite (h3) (Chg.ite (Chg.upd_lrn hw.mem h3 _) (Chg.ite (State.ageAdvance_chg hw.up h3) (Chg.upd_lrn hw.mem h3 _)))

theorem State.anchorEnter_chg {i : Nat} {st : Nat} (hw : Within [.regs, .msix, .mgs, .out] w) (hs : Chg w s0 s) : Chg w s0 (State.anchorEnter s i st) := by
  unfold State.anchorEnter
  extract_lets -underBinder -merge +onlyGivenNames s11
  have h2 : Chg w s0 s11 := State.wf_chg hw.up hs
  exact Chg.ite (State.logEvt_chg hw.up (State.raise_chg hw.up h2)) (h2)

theorem State.anchorSend_chg {typ : Nat} {recs : List (Nat × Nat)} {i : Nat} (hw : Within [.lrn, .inj] w) (hs : Chg w s0 s) : Chg w s0 (State.anchorSend s typ recs i) := by
  unfold State.anchorSend
  refine Chg.ite ?_ ?_
  · exact hs
  · extract_lets -underBinder -merge +onlyGivenNames q1 src2 s3 body5
    have h4 : Chg w s0 s3 := Chg.upd_lrn hw.mem hs _
    exact State.present_chg hw.up h4

theorem State.anchorBatch_chg (hw : Within [.lrn, .inj] w) (hs : Chg w s0 s) : Chg w s0 (State.anchorBatch s) := by
  unfold State.anchorBatch
  refine Chg.ite ?_ ?_
  · exact hs
  · extract_lets -underBinder -merge +onlyGivenNames ann1 wds2 tick3 mark4 src5 s6
    have h7 : Chg w s0 s6 := Chg.upd_lrn hw.mem hs _
    refine Chg.foldl (fun s11 x18 h10 => ?_) (h7)
    extract_lets -underBinder -merge +onlyGivenNames s12
    have h13 : Chg w s0 s12 := Chg.foldl (fun t15 _ h14 => State.anchorSend_chg hw.up h14) (h10)
    exact Chg.foldl (fun t17 _ h16 => State.anchorSend_chg hw.up h16) (h13)

theorem State.anchorFull_chg {i : Nat} (hw : Within [.lrn, .inj] w) (hs : Chg w s0 s) : Chg w s0 (State.anchorFull s i) := by
  unfold State.anchorFull
  extract_lets -underBinder -merge +onlyGivenNames l1
  exact State.anchorSend_chg hw.up (Chg.foldl (fun t3 _ h2 => State.anchorSend_chg hw.up h2) (hs))

theorem State.anchorRx_chg {typ : Nat} {smac : Nat} {b : List Byte} {k : Nat → State → State} (hw : Within [.regs, .msix, .out] w) (hs : Chg w s0 s) (hk : ∀ t0 t1, Chg w s0 t1 → Chg w s0 (k t0 t1)) : Chg w s0 (State.anchorRx s typ smac b k) := by
  unfold State.anchorRx
  refine Chg.ite ?_ ?_
  · exact hs
  · split
    · exact hk _ _ (hs)
    · exact State.raise_chg hw.up (State.evt_chg hw.up hs)

theorem State.anchorApply_chg {p : Nat} {withdraw : Bool} {b : List Byte} (hw : Within [.regs, .msix, .lrn, .mgs, .out] w) (hs : Chg w s0 s) : Chg w s0 (State.anchorApply s p withdraw b) := by
  unfold State.anchorApply
  exact Chg.foldl (fun t2 _ h1 => State.learnPush_chg hw.up h1) (hs)

theorem State.anchorHello_chg {i : Nat} (hw : Within [.regs, .msix, .lrn, .mgs, .inj, .out] w) (hs : Chg w s0 s) : Chg w s0 (State.anchorHello s i) := by
  unfold State.anchorHello
  exact State.anchorEnter_chg hw.up (State.anchorSend_chg hw.up hs)

theorem State.anchorData_chg {p : Nat} {withdraw : Bool} {b : List Byte} {i : Nat} (hw : Within [.regs, .msix, .lrn, .mgs, .inj, .out] w) (hs : Chg w s0 s) : Chg w s0 (State.anchorData s p withdraw b i) := by
  unfold State.anchorData
  split
  · exact State.anchorHello_chg hw.up hs
  · exact State.anchorApply_chg hw.up hs
  · extract_lets -underBinder -merge +onlyGivenNames q1 s12
    have h3 : Chg w s0 s12 := State.anchorApply_chg hw.up hs
    refine Chg.ite ?_ ?_
    · exact State.wr_chg hw.up h3
    · extract_lets -underBinder -merge +onlyGivenNames s24
      have h5 : Chg w s0 s24 := State.logEvt_chg hw.up (State.raise_chg hw.up (State.evt_chg hw.up h3))
      exact State.anchorEnter_chg hw.up (State.anchorSend_chg hw.up h5)

theorem State.anchorSyncReq_chg {i : Nat} (hw : Within [.regs, .msix, .lrn, .mgs, .inj, .out] w) (hs : Chg w s0 s) : Chg w s0 (State.anchorSyncReq s i) := by
  unfold State.anchorSyncReq
  exact Chg.ite (State.anchorEnter_chg hw.up (State.anchorSend_chg hw.up (State.anchorFull_chg hw.up hs))) (State.anchorFull_chg hw.up hs)

theorem State.anchorSyncData_chg {p : Nat} {b : List Byte} {i : Nat} (hw : Within [.regs, .msix, .lrn, .mgs, .inj, .out] w) (hs : Chg w s0 s) : Chg w s0 (State.anchorSyncData s p b i) := by
  unfold State.anchorSyncData
  split
  · exact State.anchorHello_chg hw.up hs
  · exact State.anchorApply_chg hw.up hs
  · exact hs

theorem State.anchorSyncEnd_chg {b : List Byte} {i : Nat} (hw : Within [.regs, .msix, .lrn, .mgs, .inj, .out] w) (hs : Chg w s0 s) : Chg w s0 (State.anchorSyncEnd s b i) := by
  unfold State.anchorSyncEnd
  split
  · exact State.anchorHello_chg hw.up hs
  · exact State.anchorEnter_chg hw.up (State.wr_chg hw.up hs)
  · exact hs

theorem State.anchorSilence_chg {i : Nat} (hw : Within [.regs, .msix, .mgs, .out] w) (hs : Chg w s0 s) : Chg w s0 (State.anchorSilence s i) := by
  unfold State.anchorSilence
  exact Chg.ite (hs) (State.anchorEnter_chg hw.up hs)

theorem State.anchorMsg_chg {p : Nat} {smac : Nat} {b : List Byte} (hw : Within [.regs, .msix, .lrn, .mgs, .inj, .out] w) (hs : Chg w s0 s) : Chg w s0 (State.anchorMsg s p smac b) := by
  unfold State.anchorMsg
  split
  · exact State.anchorRx_chg hw.up hs (fun x1 x2 h3 => State.anchorData_chg hw.up h3)
  · exact State.anchorRx_chg hw.up hs (fun x4 x5 h6 => State.anchorData_chg hw.up h6)
  · exact State.anchorRx_chg hw.up hs (fun x7 x8 h9 => State.anchorSyncReq_chg hw.up h9)
  · exact State.anchorRx_chg hw.up hs (fun x10 x11 h12 => State.anchorSyncData_chg hw.up h12)
  · exact State.anchorRx_chg hw.up hs (fun x13 x14 h15 => State.anchorSyncEnd_chg hw.up h15)
  · exact hs

theorem State.anchorCtrlWrite_chg {m : Nat} {i : Nat} {v : Word} (hw : Within [.regs, .msix, .mgs, .out] w) (hs : Chg w s0 s) : Chg w s0 (State.anchorCtrlWrite s m i v) := by
  unfold State.anchorCtrlWrite
  extract_lets -underBinder -merge +onlyGivenNames s1
  have h2 : Chg w s0 s1 := State.plainWrite_chg hw.up hs
  exact Chg.ite (h2) (State.anchorEnter_chg hw.up h2)

theorem State.setMeter_chg {i : Nat} {m : Meter} (hw : Within [.meters] w) (hs : Chg w s0 s) : Chg w s0 (State.setMeter s i m) := by
  unfold State.setMeter
  exact Chg.upd_meters hw.mem hs _

theorem State.weirOne_chg {i : Nat} {b : Nat} {yellow : Bool} {charge : Bool} (hw : Within [.regs, .meters] w) (hs : Chg w s0 s) : Chg2 w s0 (State.weirOne s i b yellow charge) := by
  unfold State.weirOne
  extract_lets -underBinder -merge +onlyGivenNames m1
  refine Chg.ite2 ?_ ?_
  · exact Chg.pair (Chg.ite (State.stat_chg hw.up hs) (hs))
  · split
    · extract_lets -underBinder -merge +onlyGivenNames s2
      have h3 : Chg w s0 s2 := State.setMeter_chg hw.up hs
      exact Chg.pair (Chg.ite (State.stat_chg hw.up h3) (h3))

theorem State.weirAll_chg {s : State} {b : Nat} {yellow : Bool} {charge : Bool} {a : List Nat} (hw : Within [.regs, .meters] w) (hs : Chg w s0 s) : Chg2 w s0 (State.weirAll s b yellow charge a) := by
  unfold State.weirAll
  split
  · exact Chg.pair hs
  · split
    · rename_i y1 y2 y3 e5
      have h4 := Chg2.of (State.weirOne_chg hw.up hs) e5
      split
      · rename_i y6 y7 y8 e10
        have h9 := Chg2.of (State.weirAll_chg hw.up h4) e10
        exact Chg.pair h9

theorem State.meterSet_chg {i : Nat} {d0 : Word} {d1 : Word} {d2 : Word} {d3 : Word} {d4 : Word} (hw : Within [.meters] w) (hs : Chg w s0 s) : Chg w s0 (State.meterSet s i d0 d1 d2 d3 d4) := by
  unfold State.meterSet
  extract_lets -underBinder -merge +onlyGivenNames old1 m2 fresh3 tc4 tp5
  exact State.setMeter_chg hw.up hs

theorem State.weiRej_chg (hw : Within [.regs, .msix, .out] w) (hs : Chg w s0 s) : Chg w s0 (State.weiRej s) := by
  unfold State.weiRej
  exact State.raise_chg hw.up (State.evt_chg hw.up hs)

theorem State.weiApply_chg {m : Nat} (hw : Within [.regs, .msix, .meters, .out] w) (hs : Chg w s0 s) : Chg w s0 (State.weiApply s m) := by
  unfold State.weiApply
  extract_lets -underBinder -merge +onlyGivenNames i1 d2 n3
  exact Chg.ite (State.weiRej_chg hw.up hs) (State.meterSet_chg hw.up hs)

theorem State.weiLoad_chg {m : Nat} (hw : Within [.regs] w) (hs : Chg w s0 s) : Chg w s0 (State.weiLoad s m) := by
  unfold State.weiLoad
  extract_lets -underBinder -merge +onlyGivenNames i1 e2 put3
  have h4 : ∀ z5 z7 z8, Chg w s0 z5 → Chg w s0 (put3 z5 z7 z8) := by
    intro z5 z7 z8 h6
    unfold put3
    exact State.wr_chg hw.up h6
  exact h4 _ _ _ (h4 _ _ _ (h4 _ _ _ (h4 _ _ _ (h4 _ _ _ (hs)))))

theorem State.weiCmd_chg {m : Nat} {v : Word} (hw : Within [.regs, .msix, .meters, .out] w) (hs : Chg w s0 s) : Chg w s0 (State.weiCmd s m v) := by
  unfold State.weiCmd
  extract_lets -underBinder -merge +onlyGivenNames s1
  have h2 : Chg w s0 s1 := Chg.ite (State.weiApply_chg hw.up hs) (hs)
  exact Chg.ite (State.weiLoad_chg hw.up h2) (h2)

theorem State.setView_chg {v : Nat} {x : View} (hw : Within [.fgd] w) (hs : Chg w s0 s) : Chg w s0 (State.setView s v x) := by
  unfold State.setView
  exact Chg.upd_fgd hw.mem hs _

theorem State.fgdRaise_chg {v : Nat} {i : Nat} (hw : Within [.regs, .msix, .mgs, .out] w) (hs : Chg w s0 s) : Chg w s0 (State.fgdRaise s v i) := by
  unfold State.fgdRaise
  extract_lets -underBinder -merge +onlyGivenNames s1
  have h2 : Chg w s0 s1 := State.wr_chg hw.up (State.raise_chg hw.up hs)
  exact Chg.ite (State.logEvt_chg hw.up h2) (h2)

theorem State.fgdSend_chg {v : Nat} {body : List Byte} (hw : Within [.regs, .msix, .fgd, .vlt, .mgs, .inj, .out] w) (hs : Chg w s0 s) : Chg w s0 (State.fgdSend s v body) := by
  unfold State.fgdSend
  extract_lets -underBinder -merge +onlyGivenNames x1 c2 b3 iv4 tag5 dmac6 vtag7 frame8 s9 src11 s12 s14 src16 s17
  have h10 : Chg w s0 s9 := State.setView_chg hw.up hs
  have h13 : Chg w s0 s12 := Chg.ite (State.fgdRaise_chg hw.up (State.setView_chg hw.up h10)) (h10)
  have h15 : Chg w s0 s14 := Chg.ite (State.ringAppend_chg hw.up h13) (h13)
  have h18 : Chg w s0 s17 := Chg.ite (Chg.upd_vlt hw.mem h15 ⟨Nat.le_refl _, fun _ => Nat.le_refl _⟩) (h15)
  exact State.present_chg hw.up h18

theorem State.fgdRecord_chg {v : Nat} {body : List Byte} (hw : Within [.regs, .msix, .fgd, .vlt, .mgs, .inj, .out] w) (hs : Chg w s0 s) : Chg w s0 (State.fgdRecord s v body) := by
  unfold State.fgdRecord
  extract_lets -underBinder -merge +onlyGivenNames x1
  exact Chg.ite (hs) (Chg.ite (State.fgdRaise_chg hw.up (State.evt_chg hw.up (State.countRefused_chg hw.up (State.setView_chg hw.up hs)))) (Chg.ite (State.evt_chg hw.up (State.setView_chg hw.up hs)) (State.fgdSend_chg hw.up hs)))

theorem State.fgdEmit_chg {v : Nat} {status : Nat} {age : Int} {body : List Byte} (hw : Within [.regs, .msix, .fgd, .vlt, .mgs, .inj, .out] w) (hs : Chg w s0 s) : Chg w s0 (State.fgdEmit s v status age body) := by
  unfold State.fgdEmit
  exact State.fgdRecord_chg hw.up (State.wr_chg hw.up (State.wr_chg hw.up hs))

theorem State.fgdStale_chg {v : Nat} (hw : Within [.regs, .msix, .fgd, .vlt, .mgs, .inj, .out] w) (hs : Chg w s0 s) : Chg w s0 (State.fgdStale s v) := by
  unfold State.fgdStale
  extract_lets -underBinder -merge +onlyGivenNames x1 e2 status3 age4
  exact State.fgdEmit_chg hw.up hs

theorem State.fgdFirst_chg {v : Nat} {status : Nat} {prev : Nat} {b : Nat} {i : Nat} {cnt : Option Nat} (hw : Within [.regs, .msix, .mgs, .out] w) (hs : Chg w s0 s) : Chg w s0 (State.fgdFirst s v status prev b i cnt) := by
  unfold State.fgdFirst
  refine Chg.ite ?_ ?_
  · extract_lets -underBinder -merge +onlyGivenNames s1
    have h2 : Chg w s0 s1 := State.fgdRaise_chg hw.up hs
    split
    · exact State.evt_chg hw.up h2
    · exact h2
  · exact hs

theorem State.fgdClose_chg {v : Nat} {boundary : Bool} {settle : Bool} (hw : Within [.regs, .msix, .fgd, .vlt, .mgs, .inj, .out] w) (hs : Chg w s0 s) : Chg w s0 (State.fgdClose s v boundary settle) := by
  unfold State.fgdClose
  extract_lets -underBinder -merge +onlyGivenNames x1
  split
  · exact hs
  · extract_lets -underBinder -merge +onlyGivenNames same2
    split
    · extract_lets -underBinder -merge +onlyGivenNames fresh3 status4 s5 s7 s9 s11 s13 cap15 y16 s17 s19 y21 y22 y23
      have h6 : Chg w s0 s5 := State.stat_chg hw.up hs
      have h8 : Chg w s0 s7 := Chg.ite (State.stat_chg hw.up h6) (h6)
      have h10 : Chg w s0 s9 := Chg.ite (State.evt_chg hw.up h8) (h8)
      have h12 : Chg w s0 s11 := State.wr_chg hw.up h10
      have h14 : Chg w s0 s13 := Chg.ite (State.fgdFirst_chg hw.up (State.fgdFirst_chg hw.up (State.fgdFirst_chg hw.up (State.fgdFirst_chg hw.up h12)))) (h12)
      have h18 : Chg w s0 s17 := State.setView_chg hw.up h14
      have h20 : Chg w s0 s19 := State.fgdEmit_chg hw.up h18
      exact State.setView_chg hw.up h20

theorem State.fgdJudge_chg {v : Nat} {owner : Nat} {b : List Byte} {ts : Nat} {good : Bool} {frer : Bool} (hw : Within [.regs, .msix, .fgd, .vlt, .mgs, .inj, .out] w) (hs : Chg w s0 s) : Chg w s0 (State.fgdJudge s v owner b ts good frer) := by
  unfold State.fgdJudge
  extract_lets -underBinder -merge +onlyGivenNames x1 p2
  refine Chg.ite ?_ ?_
  · exact hs
  · refine Chg.ite ?_ ?_
    · exact hs
    · extract_lets -underBinder -merge +onlyGivenNames a3 s4 split6 s7 x9 e10 f11
      have h5 : Chg w s0 s4 := State.setView_chg hw.up hs
      have h8 : Chg w s0 s7 := Chg.ite (State.fgdClose_chg hw.up h5) (h5)
      split
      · extract_lets -underBinder -merge +onlyGivenNames s12 s14
        have h13 : Chg w s0 s12 := State.setView_chg hw.up h8
        have h15 : Chg w s0 s14 := Chg.ite (State.stat_chg hw.up h13) (h13)
        exact Chg.ite (State.fgdClose_chg hw.up h15) (h15)

theorem State.fgdDrain_chg {a : Nat} {a1 : State} {a2 : Nat} (hw : Within [.regs, .msix, .fgd, .vlt, .mgs, .inj, .out] w) (ha1 : Chg w s0 a1) : Chg w s0 (State.fgdDrain a a1 a2) := by
  unfold State.fgdDrain
  split
  · exact ha1
  · split
    · exact ha1
    · split
      · exact ha1
      · exact State.fgdDrain_chg hw.up (State.fgdJudge_chg hw.up (State.setView_chg hw.up ha1))

theorem State.fgdArrive_chg {v : Nat} {i : Nat} {owner : Nat} {b : List Byte} {ts : Nat} {frer : Bool} (hw : Within [.fgd] w) (hs : Chg w s0 s) : Chg w s0 (State.fgdArrive s v i owner b ts frer) := by
  unfold State.fgdArrive
  exact State.setView_chg hw.up hs

theorem State.fgdVerdict_chg {v : Nat} {i : Nat} {good : Bool} (hw : Within [.regs, .msix, .fgd, .vlt, .mgs, .inj, .out] w) (hs : Chg w s0 s) : Chg w s0 (State.fgdVerdict s v i good) := by
  unfold State.fgdVerdict
  extract_lets -underBinder -merge +onlyGivenNames l1
  exact State.fgdDrain_chg hw.up (State.setView_chg hw.up hs)

theorem State.fgdLost_chg (hw : Within [.fgd] w) (hs : Chg w s0 s) : Chg w s0 (State.fgdLost s) := by
  unfold State.fgdLost
  exact Chg.upd_fgd hw.mem hs _

theorem State.fgdObserve_chg {v : Nat} {b : List Byte} (hw : Within [.regs] w) (hs : Chg w s0 s) : Chg w s0 (State.fgdObserve s v b) := by
  unfold State.fgdObserve
  extract_lets -underBinder -merge +onlyGivenNames x1
  exact Chg.ite (State.evt_chg hw.up hs) (hs)

theorem State.fgdDeadline_chg {v : Nat} (hw : Within [.regs, .msix, .fgd, .vlt, .mgs, .inj, .out] w) (hs : Chg w s0 s) : Chg w s0 (State.fgdDeadline s v) := by
  unfold State.fgdDeadline
  refine Chg.ite ?_ ?_
  · exact hs
  · extract_lets -underBinder -merge +onlyGivenNames due1 s2 src4 s5 s7 x9
    have h3 : Chg w s0 s2 := State.fgdClose_chg hw.up hs
    have h6 : Chg w s0 s5 := State.setView_chg hw.up h3
    have h8 : Chg w s0 s7 := State.evt_chg hw.up (State.fgdRaise_chg hw.up (State.fgdStale_chg hw.up h6))
    exact State.setView_chg hw.up h8

theorem State.fgdRepeat_chg {v : Nat} (hw : Within [.regs, .msix, .fgd, .vlt, .mgs, .inj, .out] w) (hs : Chg w s0 s) : Chg w s0 (State.fgdRepeat s v) := by
  unfold State.fgdRepeat
  refine Chg.ite ?_ ?_
  · exact hs
  · extract_lets -underBinder -merge +onlyGivenNames s1
    have h2 : Chg w s0 s1 := State.fgdStale_chg hw.up hs
    exact State.setView_chg hw.up h2

theorem State.fgdApply_chg {m : Nat} (hw : Within [.regs, .fgd] w) (hs : Chg w s0 s) : Chg w s0 (State.fgdApply s m) := by
  unfold State.fgdApply
  extract_lets -underBinder -merge +onlyGivenNames v1 w2 x3 on4
  refine Chg.ite ?_ ?_
  · exact State.evt_chg hw.up hs
  · refine Chg.ite ?_ ?_
    · extract_lets -underBinder -merge +onlyGivenNames x5
      exact State.setView_chg hw.up hs
    · exact Chg.ite (State.setView_chg hw.up hs) (State.setView_chg hw.up hs)

theorem State.fgdLoad_chg {m : Nat} (hw : Within [.regs] w) (hs : Chg w s0 s) : Chg w s0 (State.fgdLoad s m) := by
  unfold State.fgdLoad
  extract_lets -underBinder -merge +onlyGivenNames x1 w2
  exact Chg.foldl (fun t4 _ h3 => State.wr_chg hw.up h3) (hs)

theorem State.fgdCmd_chg {m : Nat} {v : Word} (hw : Within [.regs, .fgd] w) (hs : Chg w s0 s) : Chg w s0 (State.fgdCmd s m v) := by
  unfold State.fgdCmd
  extract_lets -underBinder -merge +onlyGivenNames s1
  have h2 : Chg w s0 s1 := Chg.ite (State.fgdApply_chg hw.up hs) (hs)
  exact Chg.ite (State.fgdLoad_chg hw.up h2) (h2)

theorem State.fgdReserved_chg {v : Nat} {value : Nat} (hw : Within [.regs, .msix, .fgd, .vlt, .mgs, .inj, .out] w) (hs : Chg w s0 s) : Chg w s0 (State.fgdReserved s v value) := by
  unfold State.fgdReserved
  extract_lets -underBinder -merge +onlyGivenNames x1 held2 s3
  have h4 : Chg w s0 s3 := State.setView_chg hw.up hs
  exact Chg.foldl (fun t6 _ h5 => State.fgdRecord_chg hw.up h5) (h4)

theorem State.setHead_chg {i : Nat} {h : Head} (hw : Within [.had] w) (hs : Chg w s0 s) : Chg w s0 (State.setHead s i h) := by
  unfold State.setHead
  exact Chg.upd_had hw.mem hs _

theorem State.setHport_chg {p : Nat} {h : HeadPort} (hw : Within [.had] w) (hs : Chg w s0 s) : Chg w s0 (State.setHport s p h) := by
  unfold State.setHport
  exact Chg.upd_had hw.mem hs _

theorem State.hadLog_chg {i : Nat} {p : Nat} {idx : Nat} {key : List Byte} (hw : Within [.mgs] w) (hs : Chg w s0 s) : Chg w s0 (State.hadLog s i p idx key) := by
  unfold State.hadLog
  exact State.logEvt_chg hw.up hs

theorem State.hadSend_chg {p : Nat} {msg : List Byte} (hw : Within [.inj] w) (hs : Chg w s0 s) : Chg w s0 (State.hadSend s p msg) := by
  unfold State.hadSend
  exact State.present_chg hw.up hs

theorem State.proofQueue_chg {p : Nat} {r : Proof} (hw : Within [.regs, .msix, .had, .vlt, .auth, .mgs, .out] w) (hs : Chg w s0 s) : Chg w s0 (State.proofQueue s p r) := by
  unfold State.proofQueue
  exact State.vltRequest_chg hw.up (State.setHport_chg hw.up hs)

theorem State.verdictQueue_chg {p : Nat} {msg : List Byte} (hw : Within [.regs, .msix, .had, .vlt, .auth, .mgs, .out] w) (hs : Chg w s0 s) : Chg w s0 (State.verdictQueue s p msg) := by
  unfold State.verdictQueue
  exact State.vltRequest_chg hw.up (State.setHport_chg hw.up hs)

theorem State.hadDrop_chg {p : Nat} {all : Bool} (hw : Within [.regs, .msix, .had, .vlt, .auth, .mgs, .out] w) (hs : Chg w s0 s) : Chg w s0 (State.hadDrop s p all) := by
  unfold State.hadDrop
  extract_lets -underBinder -merge +onlyGivenNames h1 s2
  have h3 : Chg w s0 s2 := State.setHport_chg hw.up hs
  exact State.vltDrop_chg hw.up h3

theorem State.hadSet_chg {p : Nat} {st : Nat} {attempt : Nat} (hw : Within [.regs] w) (hs : Chg w s0 s) : Chg w s0 (State.hadSet s p st attempt) := by
  unfold State.hadSet
  extract_lets -underBinder -merge +onlyGivenNames r1
  exact State.wr_chg hw.up hs

theorem State.hadForget_chg {p : Nat} (hw : Within [.regs] w) (hs : Chg w s0 s) : Chg w s0 (State.hadForget s p) := by
  unfold State.hadForget
  exact State.wr_chg hw.up hs

theorem State.hadFail_chg {p : Nat} (hw : Within [.regs, .msix, .had, .vlt, .auth, .mgs, .out] w) (hs : Chg w s0 s) : Chg w s0 (State.hadFail s p) := by
  unfold State.hadFail
  extract_lets -underBinder -merge +onlyGivenNames b1 s2
  have h3 : Chg w s0 s2 := State.hadDrop_chg hw.up (State.hadForget_chg hw.up hs)
  exact State.raise_chg hw.up (State.hadSet_chg hw.up h3)

theorem State.hadChallenge_chg {p : Nat} {reason : Nat} {attempt : Nat} (hw : Within [.had, .vlt, .inj] w) (hs : Chg w s0 s) : Chg w s0 (State.hadChallenge s p reason attempt) := by
  unfold State.hadChallenge
  split
  · rename_i y1 y2 e4
    have h3 := Chg2.of (State.trng_chg hw.up hs) e4
    extract_lets -underBinder -merge +onlyGivenNames src5 s6
    have h7 : Chg w s0 s6 := State.setHport_chg hw.up h3
    exact State.hadSend_chg hw.up h7

theorem State.hadGo_chg {p : Nat} {st : Nat} {reason : Nat} (hw : Within [.regs, .msix, .had, .vlt, .auth, .mgs, .inj, .out] w) (hs : Chg w s0 s) : Chg w s0 (State.hadGo s p st reason) := by
  unfold State.hadGo
  exact Chg.ite (State.hadChallenge_chg hw.up (State.hadSet_chg hw.up hs)) (State.hadFail_chg hw.up (State.evt_chg hw.up (State.hadSet_chg hw.up hs)))

theorem State.hadStart_chg {p : Nat} {reason : Nat} (hw : Within [.regs, .msix, .had, .vlt, .auth, .mgs, .inj, .out] w) (hs : Chg w s0 s) : Chg w s0 (State.hadStart s p reason) := by
  unfold State.hadStart
  split
  · exact State.hadGo_chg hw.up hs
  · exact State.hadGo_chg hw.up hs
  · exact State.hadGo_chg hw.up hs
  · exact hs

theorem State.hadExpire_chg {p : Nat} (hw : Within [.regs, .msix, .had, .vlt, .auth, .mgs, .inj, .out] w) (hs : Chg w s0 s) : Chg w s0 (State.hadExpire s p) := by
  unfold State.hadExpire
  extract_lets -underBinder -merge +onlyGivenNames st1
  refine Chg.ite ?_ ?_
  · extract_lets -underBinder -merge +onlyGivenNames a2
    refine Chg.ite ?_ ?_
    · exact Chg.ite (State.hadChallenge_chg hw.up (State.hadSet_chg hw.up hs)) (State.hadFail_chg hw.up (State.evt_chg hw.up hs))
    · extract_lets -underBinder -merge +onlyGivenNames idx3
      exact State.hadFail_chg hw.up (State.hadLog_chg hw.up (State.raise_chg hw.up (State.evt_chg hw.up hs)))
  · exact hs

theorem State.hadLinkUp_chg {p : Nat} (hw : Within [.regs, .msix, .had, .vlt, .auth, .mgs, .inj, .out] w) (hs : Chg w s0 s) : Chg w s0 (State.hadLinkUp s p) := by
  unfold State.hadLinkUp
  extract_lets -underBinder -merge +onlyGivenNames again1 src2 s3
  have h4 : Chg w s0 s3 := Chg.ite (State.setHport_chg hw.up hs) (hs)
  exact Chg.ite (State.hadGo_chg hw.up h4) (h4)

theorem State.hadLinkDown_chg {p : Nat} (hw : Within [.regs, .msix, .had, .vlt, .auth, .mgs, .out] w) (hs : Chg w s0 s) : Chg w s0 (State.hadLinkDown s p) := by
  unfold State.hadLinkDown
  exact Chg.ite (hs) (State.hadSet_chg hw.up (State.hadDrop_chg hw.up (State.hadForget_chg hw.up hs)))

theorem State.hadEnable_chg {p : Nat} {was : Bool} (hw : Within [.regs, .msix, .had, .vlt, .auth, .mgs, .inj, .out] w) (hs : Chg w s0 s) : Chg w s0 (State.hadEnable s p was) := by
  unfold State.hadEnable
  extract_lets -underBinder -merge +onlyGivenNames en1
  refine Chg.ite ?_ ?_
  · exact hs
  · refine Chg.ite ?_ ?_
    · extract_lets -underBinder -merge +onlyGivenNames s2
      have h3 : Chg w s0 s2 := State.hadSet_chg hw.up hs
      exact Chg.ite (State.hadLinkUp_chg hw.up h3) (h3)
    · exact State.hadSet_chg hw.up (State.hadDrop_chg hw.up (State.hadForget_chg hw.up hs))

theorem State.hadPortWrite_chg {m : Nat} {p : Nat} {v : Word} (hw : Within [.regs, .msix, .had, .vlt, .auth, .mgs, .inj, .out] w) (hs : Chg w s0 s) : Chg w s0 (State.hadPortWrite s m p v) := by
  unfold State.hadPortWrite
  exact State.hadEnable_chg hw.up (State.plainWrite_chg hw.up hs)

theorem State.lifeUpdate_chg {i : Nat} {p : Nat} (hw : Within [.regs, .msix, .had, .mgs, .out] w) (hs : Chg w s0 s) : Chg w s0 (State.lifeUpdate s i p) := by
  unfold State.lifeUpdate
  extract_lets -underBinder -merge +onlyGivenNames h1 ppm2 warn3 stop4 src5 s6 s8 s10
  have h7 : Chg w s0 s6 := State.setHead_chg hw.up hs
  have h9 : Chg w s0 s8 := Chg.ite (State.hadLog_chg hw.up (State.raise_chg hw.up h7)) (h7)
  have h11 : Chg w s0 s10 := Chg.ite (State.hadLog_chg hw.up (State.raise_chg hw.up h9)) (h9)
  refine Chg.ite ?_ ?_
  · extract_lets -underBinder -merge +onlyGivenNames r12
    exact State.wr_chg hw.up h11
  · exact h11

theorem State.lifeReport_chg {i : Nat} {p : Nat} {r : Proof} (hw : Within [.regs, .msix, .had, .mgs, .out] w) (hs : Chg w s0 s) : Chg w s0 (State.lifeReport s i p r) := by
  unfold State.lifeReport
  extract_lets -underBinder -merge +onlyGivenNames h1 l2 back3 l4 s5 s7
  have h6 : Chg w s0 s5 := State.setHead_chg hw.up hs
  have h8 : Chg w s0 s7 := Chg.ite (State.hadLog_chg hw.up (State.raise_chg hw.up (State.evt_chg hw.up h6))) (h6)
  exact h8

theorem State.hadSave_chg {i : Nat} (hw : Within [.had] w) (hs : Chg w s0 s) : Chg w s0 (State.hadSave s i) := by
  unfold State.hadSave
  exact Chg.upd_had hw.mem hs _

theorem State.hadVerdict_chg {p : Nat} {result : Nat} {r : Proof} {idx : Option Nat} (hw : Within [.regs, .msix, .had, .vlt, .auth, .mgs, .out] w) (hs : Chg w s0 s) : Chg w s0 (State.hadVerdict s p result r idx) := by
  unfold State.hadVerdict
  extract_lets -underBinder -merge +onlyGivenNames life1 flags2 msg3
  exact State.verdictQueue_chg hw.up hs

theorem State.hadAdmit_chg {p : Nat} {i : Nat} {r : Proof} (hw : Within [.regs, .msix, .had, .vlt, .auth, .mgs, .out] w) (hs : Chg w s0 s) : Chg w s0 (State.hadAdmit s p i r) := by
  unfold State.hadAdmit
  extract_lets -underBinder -merge +onlyGivenNames h1 moved2 s3 st5 s6 s8 s10
  have h4 : Chg w s0 s3 := State.setHead_chg hw.up hs
  have h7 : Chg w s0 s6 := State.raise_chg hw.up (State.stat_chg hw.up (State.hadSet_chg hw.up (State.wr_chg hw.up h4)))
  have h9 : Chg w s0 s8 := Chg.ite (State.hadLog_chg hw.up h7) (h7)
  have h11 : Chg w s0 s10 := State.hadDrop_chg hw.up h9
  exact State.hadVerdict_chg hw.up (State.hadSave_chg hw.up (State.lifeUpdate_chg hw.up (State.lifeReport_chg hw.up h11)))

theorem State.hadUnknown_chg {p : Nat} {r : Proof} {dup : Option Nat} (hw : Within [.regs, .msix, .had, .vlt, .auth, .mgs, .out] w) (hs : Chg w s0 s) : Chg w s0 (State.hadUnknown s p r dup) := by
  unfold State.hadUnknown
  extract_lets -underBinder -merge +onlyGivenNames s1
  have h2 : Chg w s0 s1 := by
    unfold s1
    split
    · exact State.hadLog_chg hw.up (State.evt_chg hw.up (State.lifeReport_chg hw.up hs))
    · extract_lets -underBinder -merge +onlyGivenNames s3 src5 s6
      have h4 : Chg w s0 s3 := State.hadLog_chg hw.up (State.raise_chg hw.up (State.evt_chg hw.up hs))
      have h7 : Chg w s0 s6 := State.setHport_chg hw.up h4
      exact Chg.upd_had hw.mem h7 _
  exact State.hadFail_chg hw.up (State.hadVerdict_chg hw.up h2)

theorem State.hadProved_chg {p : Nat} {aborted : Bool} (hw : Within [.regs, .msix, .had, .vlt, .auth, .mgs, .inj, .out] w) (hs : Chg w s0 s) : Chg w s0 (State.hadProved s p aborted) := by
  unfold State.hadProved
  split
  · exact hs
  · extract_lets -underBinder -merge +onlyGivenNames src1 s2 st4
    have h3 : Chg w s0 s2 := State.setHport_chg hw.up hs
    refine Chg.ite ?_ ?_
    · exact h3
    · refine Chg.ite ?_ ?_
      · split
        · exact State.hadUnknown_chg hw.up h3
        · refine Chg.ite ?_ ?_
          · exact State.hadUnknown_chg hw.up h3
          · extract_lets -underBinder -merge +onlyGivenNames changed5 s6
            have h7 : Chg w s0 s6 := Chg.ite (State.hadLog_chg hw.up (State.raise_chg hw.up h3)) (h3)
            exact State.hadAdmit_chg hw.up h7
      · extract_lets -underBinder -merge +onlyGivenNames idx8
        exact State.hadExpire_chg hw.up (State.hadLog_chg hw.up (State.raise_chg hw.up (State.evt_chg hw.up h3)))

theorem State.hadSends_chg {p : Nat} {aborted : Bool} (hw : Within [.had, .inj] w) (hs : Chg w s0 s) : Chg w s0 (State.hadSends s p aborted) := by
  unfold State.hadSends
  split
  · exact hs
  · extract_lets -underBinder -merge +onlyGivenNames src1 s2
    have h3 : Chg w s0 s2 := State.setHport_chg hw.up hs
    exact Chg.ite (State.hadSend_chg hw.up h3) (h3)

theorem State.hadOpDone_chg {op : Nat} {p : Nat} {k : Bool → State → State} (hw : Within [.regs, .msix, .vlt, .auth, .mgs, .out] w) (hs : Chg w s0 s) (hk : ∀ t0 t1, Chg w s0 t1 → Chg w s0 (k t0 t1)) : Chg w s0 (State.hadOpDone s op p k) := by
  unfold State.hadOpDone
  split
  · exact hs
  · exact Chg.ite (State.vltStart_chg hw.up (hk _ _ (Chg.upd_vlt hw.mem hs ⟨Nat.le_refl _, fun _ => Nat.le_refl _⟩))) (hs)

theorem State.hadVerified_chg {p : Nat} {alarm : Option Nat} (hw : Within [.regs, .msix, .had, .vlt, .auth, .mgs, .inj, .out] w) (hs : Chg w s0 s) : Chg w s0 (State.hadVerified s p alarm) := by
  unfold State.hadVerified
  extract_lets -underBinder -merge +onlyGivenNames s1
  have h2 : Chg w s0 s1 := by
    unfold s1
    split
    · exact Chg.ite (State.tamperClass1_chg hw.up hs) (hs)
    · exact hs
  exact Chg.ite (h2) (State.hadOpDone_chg hw.up h2 (fun x3 x4 h5 => State.hadProved_chg hw.up h5))

theorem State.hadSigned_chg {p : Nat} (hw : Within [.regs, .msix, .had, .vlt, .auth, .mgs, .inj, .out] w) (hs : Chg w s0 s) : Chg w s0 (State.hadSigned s p) := by
  unfold State.hadSigned
  exact State.hadOpDone_chg hw.up hs (fun x1 x2 h3 => State.hadSends_chg hw.up h3)

theorem State.hadProof_chg {p : Nat} {b : List Byte} (hw : Within [.regs, .msix, .had, .vlt, .auth, .mgs, .out] w) (hs : Chg w s0 s) : Chg w s0 (State.hadProof s p b) := by
  unfold State.hadProof
  refine Chg.ite ?_ ?_
  · exact State.evt_chg hw.up hs
  · extract_lets -underBinder -merge +onlyGivenNames st1
    refine Chg.ite ?_ ?_
    · exact State.evt_chg hw.up hs
    · extract_lets -underBinder -merge +onlyGivenNames r2
      exact State.proofQueue_chg hw.up hs

theorem State.hadRequest_chg {p : Nat} {b : List Byte} (hw : Within [.regs, .msix, .had, .vlt, .auth, .mgs, .inj, .out] w) (hs : Chg w s0 s) : Chg w s0 (State.hadRequest s p b) := by
  unfold State.hadRequest
  refine Chg.ite ?_ ?_
  · exact State.evt_chg hw.up hs
  · extract_lets -underBinder -merge +onlyGivenNames st1 soon2
    exact Chg.ite (State.evt_chg hw.up hs) (State.hadStart_chg hw.up (State.setHport_chg hw.up hs))

theorem State.hadPeriod_chg {p : Nat} (hw : Within [.regs, .msix, .had, .vlt, .auth, .mgs, .inj, .out] w) (hs : Chg w s0 s) : Chg w s0 (State.hadPeriod s p) := by
  unfold State.hadPeriod
  exact Chg.ite (State.hadStart_chg hw.up hs) (hs)

theorem State.hadRetry_chg {p : Nat} (hw : Within [.regs, .msix, .had, .vlt, .auth, .mgs, .inj, .out] w) (hs : Chg w s0 s) : Chg w s0 (State.hadRetry s p) := by
  unfold State.hadRetry
  exact Chg.ite (State.hadStart_chg hw.up hs) (hs)

theorem State.hadMinute_chg {p : Nat} (hw : Within [.had] w) (hs : Chg w s0 s) : Chg w s0 (State.hadMinute s p) := by
  unfold State.hadMinute
  split
  · refine Chg.ite ?_ ?_
    · extract_lets -underBinder -merge +onlyGivenNames h1
      exact State.setHead_chg hw.up hs
    · exact hs
  · exact hs

theorem State.hadHour_chg {p : Nat} (hw : Within [.regs, .msix, .had, .mgs, .out] w) (hs : Chg w s0 s) : Chg w s0 (State.hadHour s p) := by
  unfold State.hadHour
  split
  · exact Chg.ite (State.hadSave_chg hw.up (State.lifeUpdate_chg hw.up hs)) (hs)
  · exact hs

theorem State.hadEnrol_chg {i : Nat} {p : Nat} (hw : Within [.regs, .msix, .had, .vlt, .auth, .mgs, .inj, .out] w) (hs : Chg w s0 s) : Chg2 w s0 (State.hadEnrol s i p) := by
  unfold State.hadEnrol
  refine Chg.ite2 ?_ ?_
  · exact Chg.pair hs
  · split
    · exact Chg.pair hs
    · refine Chg.ite2 ?_ ?_
      · exact Chg.pair hs
      · refine Chg.ite2 ?_ ?_
        · exact Chg.pair hs
        · extract_lets -underBinder -merge +onlyGivenNames src1 life2 src3 s4 s6 s8
          have h5 : Chg w s0 s4 := State.setHead_chg hw.up hs
          have h7 : Chg w s0 s6 := State.hadSave_chg hw.up h5
          have h9 : Chg w s0 s8 := Chg.ite (State.hadStart_chg hw.up h7) (h7)
          exact Chg.pair h9

theorem State.hadRetire_chg {i : Nat} (hw : Within [.regs, .msix, .had, .vlt, .auth, .mgs, .inj, .out] w) (hs : Chg w s0 s) : Chg2 w s0 (State.hadRetire s i) := by
  unfold State.hadRetire
  extract_lets -underBinder -merge +onlyGivenNames src1 s2
  have h3 : Chg w s0 s2 := State.hadSave_chg hw.up (State.setHead_chg hw.up hs)
  exact Chg.pair (Chg.foldl (fun t5 _ h4 => Chg.ite (State.hadStart_chg hw.up h4) (h4)) (h3))

theorem State.hadRun_chg {m : Nat} {op : Nat} {i : Nat} {p : Nat} (hw : Within [.regs, .msix, .had, .vlt, .auth, .mgs, .inj, .out] w) (hs : Chg w s0 s) : Chg2 w s0 (State.hadRun s m op i p) := by
  unfold State.hadRun
  split
  · exact Chg.ite2 (Chg.pair hs) (State.hadEnrol_chg hw.up hs)
  · exact Chg.ite2 (Chg.pair hs) (State.hadRetire_chg hw.up hs)
  · exact Chg.pair hs
  · exact Chg.ite2 (Chg.pair hs) (Chg.pair (State.hadStart_chg hw.up hs))
  · extract_lets -underBinder -merge +onlyGivenNames l1
    exact Chg.pair hs
  · exact Chg.pair hs

theorem State.hadCmd_chg {m : Nat} {v : Word} (hw : Within [.regs, .slots, .msix, .had, .vlt, .auth, .mgs, .svc, .inj, .out] w) (hs : Chg w s0 s) : Chg w s0 (State.hadCmd s m v) := by
  unfold State.hadCmd
  refine State.command_chg hw.up (hs) (fun x5 h6 => ?_)
  · split
    · rename_i y7 y8 e10
      have h9 := Chg2.of (State.hadRun_chg hw.up h6) e10
      exact State.complete_chg hw.up h9

theorem State.setPwr_chg {p : PwrSt} (hw : Within [.pwr] w) (hs : Chg w s0 s) : Chg w s0 (State.setPwr s p) := by
  unfold State.setPwr
  exact Chg.upd_pwr hw.mem hs _

theorem State.rearm_chg {k : Nat} (hw : Within [.regs, .pwr] w) (hs : Chg w s0 s) : Chg w s0 (State.rearm s k) := by
  unfold State.rearm
  extract_lets -underBinder -merge +onlyGivenNames s1
  have h2 : Chg w s0 s1 := Chg.ite (State.wf_chg hw.up hs) (State.wf_chg hw.up hs)
  exact State.setPwr_chg hw.up h2

theorem State.wupModes_chg (hw : Within [.regs, .pwr] w) (hs : Chg w s0 s) : Chg w s0 (State.wupModes s) := by
  unfold State.wupModes
  exact Chg.ite (hs) (Chg.foldl (fun t2 _ h1 => State.rearm_chg hw.up (State.wf_chg hw.up h1)) (hs))

theorem State.askQuiet_chg {l : List Nat} (hw : Within [.regs, .pwr] w) (hs : Chg w s0 s) : Chg w s0 (State.askQuiet s l) := by
  unfold State.askQuiet
  extract_lets -underBinder -merge +onlyGivenNames s1
  have h2 : Chg w s0 s1 := Chg.foldl (fun t4 _ h3 => State.wf_chg hw.up h3) (hs)
  exact State.setPwr_chg hw.up h2

theorem State.freeQuiet_chg (hw : Within [.regs, .pwr] w) (hs : Chg w s0 s) : Chg w s0 (State.freeQuiet s) := by
  unfold State.freeQuiet
  extract_lets -underBinder -merge +onlyGivenNames s1
  have h2 : Chg w s0 s1 := Chg.foldl (fun t4 _ h3 => State.wf_chg hw.up (State.wf_chg hw.up h3)) (hs)
  exact State.setPwr_chg hw.up h2

theorem State.heard_chg {k : Nat} (hw : Within [.pwr] w) (hs : Chg w s0 s) : Chg w s0 (State.heard s k) := by
  unfold State.heard
  exact Chg.ite (State.setPwr_chg hw.up hs) (hs)

theorem State.preSleep_chg {target : Nat} (hw : Within [.regs, .pwr] w) (hs : Chg w s0 s) : Chg w s0 (State.preSleep s target) := by
  unfold State.preSleep
  extract_lets -underBinder -merge +onlyGivenNames s1 s3
  have h2 : Chg w s0 s1 := State.wupModes_chg hw.up hs
  have h4 : Chg w s0 s3 := State.askQuiet_chg hw.up h2
  exact State.setPwr_chg hw.up (State.wr_chg hw.up h4)

theorem State.signalSleep_chg (hw : Within [.regs, .pwr] w) (hs : Chg w s0 s) : Chg w s0 (State.signalSleep s) := by
  unfold State.signalSleep
  exact Chg.ite (State.preSleep_chg hw.up hs) (Chg.ite (State.setPwr_chg hw.up hs) (hs))

theorem State.sleepSignal_chg {i : Nat} {v : Nat} (hw : Within [.regs, .pwr] w) (hs : Chg w s0 s) : Chg w s0 (State.sleepSignal s i v) := by
  unfold State.sleepSignal
  extract_lets -underBinder -merge +onlyGivenNames c1
  exact Chg.ite (State.signalSleep_chg hw.up hs) (hs)

theorem State.confirmSrc_chg {k : Nat} (hw : Within [.pwr] w) (hs : Chg w s0 s) : Chg w s0 (State.confirmSrc s k) := by
  unfold State.confirmSrc
  exact Chg.ite (State.setPwr_chg hw.up hs) (hs)

end Sys2Proof.Machine
end

