-- ==== Sys2Proof/Laws/ChgPath.lean ====
section
/-! SUPPORT. What the operations of the frame path can change: one lemma each. -/

set_option Elab.async false

namespace Sys2Proof.Machine

variable {w : List Area} {s0 s : State}

theorem State.ictLook_chg {key : Nat} (hw : Within [.regs] w) (hs : Chg w s0 s) : Chg2 w s0 (State.ictLook s key) := by
  unfold State.ictLook
  split
  · exact Chg.pair (State.stat_chg hw.up hs)
  · exact Chg.pair (State.stat_chg hw.up hs)

theorem State.ethHandle_chg {p : Nat} {x : Parsed} {vid : Nat} (hw : Within [.regs] w) (hs : Chg w s0 s) : Chg2 w s0 (State.ethHandle s p x vid) := by
  unfold State.ethHandle
  split
  · exact Chg.pair hs
  · exact State.ictLook_chg hw.up hs
  · exact State.ictLook_chg hw.up hs
  · split
    · rename_i y1 y2 e4
      have h3 := Chg2.of (State.ictLook_chg hw.up hs) e4
      exact Chg.pair h3
    · rename_i y5 e7
      have h6 := Chg2.of (State.ictLook_chg hw.up hs) e7
      exact State.ictLook_chg hw.up h6

theorem State.busHandle_chg {n : Nat} {b : List Byte} (hw : Within [.regs] w) (hs : Chg w s0 s) : Chg2 w s0 (State.busHandle s n b) := by
  unfold State.busHandle
  exact Chg.ite2 (Chg.pair hs) (Chg.ite2 (Chg.pair hs) (Chg.ite2 (State.ictLook_chg hw.up hs) (Chg.ite2 (State.ictLook_chg hw.up hs) (Chg.pair hs))))

theorem State.srtFail_chg {kind : Nat} {h : Nat} {ingress : Nat} {ts : Nat} (hw : Within [.regs, .msix, .mgs, .out] w) (hs : Chg w s0 s) : Chg w s0 (State.srtFail s kind h ingress ts) := by
  unfold State.srtFail
  extract_lets -underBinder -merge +onlyGivenNames c1 s2 s4
  have h3 : Chg w s0 s2 := State.wr_chg hw.up (State.wr_chg hw.up (State.evt_chg hw.up hs))
  have h5 : Chg w s0 s4 := State.raise_chg hw.up h3
  exact Chg.ite (State.logEvt_chg hw.up h5) (h5)

theorem State.adtRoute_chg {p : Nat} {x : Parsed} {vid : Nat} (hw : Within [.regs, .msix, .out] w) (hs : Chg w s0 s) : Chg2 w s0 (State.adtRoute s p x vid) := by
  unfold State.adtRoute
  refine Chg.ite2 ?_ ?_
  · exact Chg.pair (State.raise_chg hw.up (State.evt_chg hw.up hs))
  · extract_lets -underBinder -merge +onlyGivenNames s1
    have h2 : Chg w s0 s1 := State.perf_chg hw.up hs
    split
    · extract_lets -underBinder -merge +onlyGivenNames e3
      exact Chg.ite2 (Chg.pair h2) (Chg.ite2 (Chg.pair (State.stat_chg hw.up h2)) (Chg.pair h2))
    · extract_lets -underBinder -merge +onlyGivenNames m4
      exact Chg.pair (State.stat_chg hw.up h2)

theorem State.ethRoute_chg {p : Nat} {ts : Nat} {x : Parsed} {vid : Nat} {h : Option Nat} {prot : Bool} (hw : Within [.regs, .msix, .mgs, .out] w) (hs : Chg w s0 s) : Chg2 w s0 (State.ethRoute s p ts x vid h prot) := by
  unfold State.ethRoute
  split
  · extract_lets -underBinder -merge +onlyGivenNames e1 s2
    have h3 : Chg w s0 s2 := State.perf_chg hw.up hs
    refine Chg.ite2 ?_ ?_
    · extract_lets -underBinder -merge +onlyGivenNames k4
      exact Chg.ite2 (Chg.pair h3) (Chg.pair (State.srtFail_chg hw.up h3))
    · exact State.adtRoute_chg hw.up h3
  · exact State.adtRoute_chg hw.up hs

theorem State.minIntAccept_chg {r : Route} {h : Nat} {ts : Nat} {digest : Nat} (hw : Within [.bsn] w) (hs : Chg w s0 s) : Chg w s0 (State.minIntAccept s r h ts digest) := by
  unfold State.minIntAccept
  exact Chg.ite (Chg.upd_bsn hw.mem hs _) (hs)

theorem State.replMore_chg (hw : Within [.bsn] w) (hs : Chg w s0 s) : Chg w s0 (State.replMore s) := by
  unfold State.replMore
  split
  · exact Chg.upd_bsn hw.mem hs _
  · exact hs

theorem State.replicate_chg {n : Nat} (hw : Within [.bsn] w) (hs : Chg w s0 s) : Chg2 w s0 (State.replicate s n) := by
  unfold State.replicate
  extract_lets -underBinder -merge +onlyGivenNames l1
  refine Chg.ite2 ?_ ?_
  · exact Chg.pair (Chg.upd_bsn hw.mem hs _)
  · extract_lets -underBinder -merge +onlyGivenNames start2
    exact Chg.pair (Chg.upd_bsn hw.mem hs _)

theorem State.admitDrop_chg {d : Nat} {reason : Nat} {h : Option Nat} {eddy : Option Nat} (hw : Within [.regs, .msix, .mgs, .out] w) (hs : Chg w s0 s) : Chg w s0 (State.admitDrop s d reason h eddy) := by
  unfold State.admitDrop
  extract_lets -underBinder -merge +onlyGivenNames s1
  have h2 : Chg w s0 s1 := State.anyDrop_chg hw.up hs
  exact Chg.ite (State.logEvt_chg hw.up (State.raise_chg hw.up (State.stat_chg hw.up h2))) (h2)

theorem State.unrsvDrop_chg {d : Nat} (hw : Within [.regs, .msix, .out] w) (hs : Chg w s0 s) : Chg w s0 (State.unrsvDrop s d) := by
  unfold State.unrsvDrop
  exact State.raise_chg hw.up (State.stat_chg hw.up hs)

theorem State.admitAll_chg {s : State} {tc : Nat} {h : Option Nat} {bus : Option Nat} {a : List (Nat × Nat)} {a5 : List Copy} {a6 : Nat} (hw : Within [.regs, .msix, .mgs, .out] w) (hs : Chg w s0 s) : Chg2 w s0 (State.admitAll s tc h bus a a5 a6) := by
  unfold State.admitAll
  split
  · exact Chg.pair hs
  · refine Chg.ite2 ?_ ?_
    · exact State.admitAll_chg hw.up (State.unrsvDrop_chg hw.up hs)
    · extract_lets -underBinder -merge +onlyGivenNames q1 r2
      exact Chg.ite2 (State.admitAll_chg hw.up hs) (State.admitAll_chg hw.up (State.admitDrop_chg hw.up hs))

theorem State.destList_chg {s : State} {key : SteerKey} {a : List Nat} (hw : Within [.regs, .msix, .out] w) (hs : Chg w s0 s) : Chg2 w s0 (State.destList s key a) := by
  unfold State.destList
  split
  · exact Chg.pair hs
  · refine Chg.ite2 ?_ ?_
    · split
      · rename_i y1 y2 e4
        have h3 := Chg2.of (State.steer_chg hw.up hs) e4
        split
        · rename_i y5 y6 e8
          have h7 := Chg2.of (State.destList_chg hw.up h3) e8
          exact Chg.pair h7
      · rename_i y9 e11
        have h10 := Chg2.of (State.steer_chg hw.up hs) e11
        exact State.destList_chg hw.up h10
    · split
      · rename_i y12 y13 e15
        have h14 := Chg2.of (State.destList_chg hw.up hs) e15
        exact Chg.pair h14

theorem State.eddyRun_chg {s : State} {ingress : Nat} {h : Option Nat} {accepted : Bool} {a : List Nat} {a5 : Option Nat} (hw : Within [.regs, .msix, .out] w) (hs : Chg w s0 s) : Chg2 w s0 (State.eddyRun s ingress h accepted a a5) := by
  unfold State.eddyRun
  split
  · exact Chg.pair hs
  · refine Chg.ite2 ?_ ?_
    · exact State.eddyRun_chg hw.up hs
    · extract_lets -underBinder -merge +onlyGivenNames n1
      refine Chg.ite2 ?_ ?_
      · exact State.eddyRun_chg hw.up (State.wf_chg hw.up hs)
      · extract_lets -underBinder -merge +onlyGivenNames s2
        have h3 : Chg w s0 s2 := State.wf_chg hw.up hs
        refine Chg.ite2 ?_ ?_
        · exact State.eddyRun_chg hw.up h3
        · split
          · exact State.eddyRun_chg hw.up h3
          · exact State.eddyRun_chg hw.up (State.eddyLost_chg hw.up h3)

theorem State.eddyCopy_chg {key : SteerKey} {h : Option Nat} {accepted : Bool} {made : Nat} {why : Nat} {bus : Option Nat} (hw : Within [.regs, .msix, .mgs, .out] w) (hs : Chg w s0 s) : Chg2 w s0 (State.eddyCopy s key h accepted made why bus) := by
  unfold State.eddyCopy
  split
  · rename_i y1 e3
    have h2 := Chg2.of (State.eddyRun_chg hw.up hs) e3
    exact Chg.pair h2
  · rename_i y4 y5 e7
    have h6 := Chg2.of (State.eddyRun_chg hw.up hs) e7
    extract_lets -underBinder -merge +onlyGivenNames d8 tc9 q10
    split
    · rename_i y11 y12 y13 e15
      have h14 := Chg2.of (State.destList_chg hw.up h6) e15
      refine Chg.ite2 ?_ ?_
      · exact Chg.pair (State.eddyLost_chg hw.up (State.unrsvDrop_chg hw.up h14))
      · extract_lets -underBinder -merge +onlyGivenNames r16
        exact Chg.ite2 (Chg.pair h14) (Chg.pair (State.admitDrop_chg hw.up h14))
    · rename_i y17 y18 e20
      have h19 := Chg2.of (State.destList_chg hw.up h6) e20
      exact Chg.pair (State.eddyLost_chg hw.up h19)

theorem State.ctTry_chg {i : Nat} {k : Nat} (hw : Within [.regs, .msix, .bsn, .egr, .vlt, .auth, .tim, .mgs, .inj, .out] w) (hs : Chg w s0 s) : Chg w s0 (State.ctTry s i k) := by
  unfold State.ctTry
  split
  · exact hs
  · extract_lets -underBinder -merge +onlyGivenNames s11
    have h2 : Chg w s0 s11 := Chg.ite (State.creditSync_chg hw.up hs) (hs)
    refine Chg.ite ?_ ?_
    · extract_lets -underBinder -merge +onlyGivenNames s23
      have h4 : Chg w s0 s23 := State.stat_chg hw.up (State.chargeCt_chg hw.up h2)
      exact State.txStart_chg hw.up (State.setFrame_chg hw.up h4)
    · exact hs

theorem State.basinEnter_chg {f : Frame} {key : SteerKey} (hw : Within [.regs, .msix, .bsn, .mgs, .out] w) (hs : Chg w s0 s) : Chg2 w s0 (State.basinEnter s f key) := by
  unfold State.basinEnter
  extract_lets -underBinder -merge +onlyGivenNames n1 bus2
  split
  · rename_i y3 y4 e6
    have h5 := Chg2.of (State.destList_chg hw.up hs) e6
    split
    · rename_i y7 y8 e10
      have h9 := Chg2.of (Chg.ite2 (Chg.pair h5) (State.replicate_chg hw.up h5)) e10
      refine Chg.ite2 ?_ ?_
      · exact State.store_chg hw.up (Chg.foldl (fun t14 _ h13 => State.bsnDrop_chg hw.up h13) (h9))
      · refine Chg.ite2 ?_ ?_
        · extract_lets -underBinder -merge +onlyGivenNames s15 s17
          have h16 : Chg w s0 s15 := State.logEvt_chg hw.up (State.raise_chg hw.up (State.stat_chg hw.up h9))
          have h18 : Chg w s0 s17 := Chg.foldl (fun t20 _ h19 => State.bsnDrop_chg hw.up h19) (h16)
          split
          · rename_i y21 y22 e24
            have h23 := Chg2.of (State.eddyRun_chg hw.up h18) e24
            extract_lets -underBinder -merge +onlyGivenNames s25
            have h26 : Chg w s0 s25 := by
              unfold s25
              split
              · exact State.eddyLost_chg hw.up h23
              · exact h23
            exact State.store_chg hw.up h26
        · split
          · rename_i y27 y28 y29 e31
            have h30 := Chg2.of (State.admitAll_chg hw.up h9) e31
            split
            · rename_i y32 y33 e35
              have h34 := Chg2.of (Chg.ite2 (Chg.pair h30) (State.eddyCopy_chg hw.up h30)) e35
              extract_lets -underBinder -merge +onlyGivenNames s36 cs38
              have h37 : Chg w s0 s36 := Chg.ite (State.replMore_chg hw.up h34) (h34)
              split
              · rename_i y39 y40 e42
                have h41 := Chg2.of (State.store_chg hw.up h37) e42
                exact Chg.pair (Chg.foldl (fun t44 _ h43 => State.quotaScan_chg hw.up h43) (h41))

theorem State.badCopy_chg {i : Nat} {k : Nat} (hw : Within [.regs, .msix, .bsn, .egr, .mgs, .out] w) (hs : Chg w s0 s) : Chg w s0 (State.badCopy s i k) := by
  unfold State.badCopy
  split
  · exact hs
  · exact Chg.ite (hs) (Chg.ite (State.link_chg hw.up hs) (State.copyDrop_chg hw.up (State.stat_chg hw.up hs)))

theorem State.goodCopy_chg {i : Nat} {k : Nat} (hw : Within [.bsn, .egr] w) (hs : Chg w s0 s) : Chg w s0 (State.goodCopy s i k) := by
  unfold State.goodCopy
  split
  · exact hs
  · exact Chg.ite (State.link_chg hw.up hs) (hs)

theorem State.settleCopies_chg {i : Nat} {cause : Nat} (hw : Within [.regs, .msix, .bsn, .egr, .mgs, .out] w) (hs : Chg w s0 s) : Chg w s0 (State.settleCopies s i cause) := by
  unfold State.settleCopies
  split
  · exact hs
  · extract_lets -underBinder -merge +onlyGivenNames ks1 ring2 s7 s11
    have h3 : ∀ z4 z6, Chg w s0 z4 → Chg w s0 (ring2 z4 z6) := by
      intro z4 z6 h5
      unfold ring2
      exact Chg.ite (State.rxCommit_chg hw.up h5) (h5)
    have h8 : Chg w s0 s7 := Chg.foldl (fun t10 _ h9 => h3 _ _ (h9)) (hs)
    have h12 : Chg w s0 s11 := Chg.ite (Chg.foldl (fun t14 _ h13 => State.goodCopy_chg hw.up h13) (h8)) (Chg.foldl (fun t16 _ h15 => State.badCopy_chg hw.up h15) (State.poisonAll_chg hw.up h8))
    exact State.release_chg hw.up h12

theorem State.judge_chg {i : Nat} {early : Nat} {ecc : Bool} (hw : Within [.regs, .msix, .bsn, .meters, .egr, .fre, .fgd, .vlt, .auth, .mgs, .inj, .out, .free] w) (hs : Chg w s0 s) : Chg w s0 (State.judge s i early ecc) := by
  unfold State.judge
  split
  · exact hs
  · extract_lets -underBinder -merge +onlyGivenNames x1 s2
    have h3 : Chg w s0 s2 := by
      unfold s2
      split
      · exact Chg.ite (hs) (State.lceVerdict_chg hw.up hs)
      · exact hs
    split
    · rename_i y4 y5 y6 e8
      have h7 := Chg2.of (Chg.ite2 (Chg.pair h3) (State.weirAll_chg hw.up h3)) e8
      extract_lets -underBinder -merge +onlyGivenNames cause9 s10 h12 digest13 k14 s15 cause17 s18 s20
      have h11 : Chg w s0 s10 := Chg.ite (State.raise_chg hw.up (State.stat_chg hw.up h7)) (h7)
      have h16 : Chg w s0 s15 := Chg.ite (h11) (State.srtFail_chg hw.up h11)
      have h19 : Chg w s0 s18 := Chg.ite (State.minIntAccept_chg hw.up h16) (State.freUntake_chg hw.up h16)
      have h21 : Chg w s0 s20 := by
        unfold s20
        split
        · exact State.fgdVerdict_chg hw.up h19
        · exact h19
      split
      · rename_i y22 y23 e25
        have h24 := Chg2.of (Chg.ite2 (State.draw_chg hw.up h21) (Chg.pair h21)) e25
        extract_lets -underBinder -merge +onlyGivenNames s26
        have h27 : Chg w s0 s26 := State.setFrame_chg hw.up h24
        exact State.settleCopies_chg hw.up h27

theorem State.ethPolice_chg {p : Nat} {ts : Nat} {b : List Byte} {x : Parsed} {vid : Nat} {h : Option Nat} {r : Route} {pre : Bool} {sa : Option (Nat × Nat)} {tagOk : Bool} (hw : Within [.regs, .msix, .bsn, .meters, .egr, .fre, .fgd, .vlt, .auth, .tim, .mgs, .inj, .out] w) (hs : Chg w s0 s) : Chg2 w s0 (State.ethPolice s p ts b x vid h r pre sa tagOk) := by
  unfold State.ethPolice
  split
  · rename_i y1 y2 y3 e5
    have h4 := Chg2.of (State.weirAll_chg hw.up hs) e5
    refine Chg.ite2 ?_ ?_
    · exact Chg.pair (State.raise_chg hw.up (State.stat_chg hw.up h4))
    · split
      · rename_i y6 y7 e9
        have h8 := Chg2.of (w := w) (s0 := s0) (h := by
          split
          · exact State.freStage_chg hw.up h4
          · exact Chg.pair h4
          ) e9
        split
        · exact Chg.pair h8
        · extract_lets -underBinder -merge +onlyGivenNames s10 f12 key13
          have h11 : Chg w s0 s10 := by
            unfold s10
            split
            · exact State.fgdObserve_chg hw.up h8
            · exact h8
          split
          · rename_i y14 y15 e17
            have h16 := Chg2.of (State.basinEnter_chg hw.up h11) e17
            extract_lets -underBinder -merge +onlyGivenNames s18 n20
            have h19 : Chg w s0 s18 := by
              unfold s18
              split
              · exact State.fgdArrive_chg hw.up h16
              · exact h16
            exact Chg.pair (Chg.foldl (fun t22 _ h21 => State.ctTry_chg hw.up h21) (h19))

theorem State.ethIntake_chg {p : Nat} {ts : Nat} {b : List Byte} {pre : Bool} {sa : Option (Nat × Nat)} {tagOk : Bool} (hw : Within [.regs, .tbl, .msix, .lrn, .bsn, .meters, .egr, .fre, .fgd, .vlt, .auth, .tim, .mgs, .inj, .out] w) (hs : Chg w s0 s) : Chg2 w s0 (State.ethIntake s p ts b pre sa tagOk) := by
  unfold State.ethIntake
  extract_lets -underBinder -merge +onlyGivenNames x1
  refine Chg.ite2 ?_ ?_
  · exact Chg.pair (State.raise_chg hw.up (State.stat_chg hw.up hs))
  · refine Chg.ite2 ?_ ?_
    · exact Chg.pair (State.stat_chg hw.up hs)
    · refine Chg.ite2 ?_ ?_
      · exact Chg.pair (State.stat_chg hw.up hs)
      · extract_lets -underBinder -merge +onlyGivenNames vid2
        split
        · rename_i y3 y4 e6
          have h5 := Chg2.of (State.ethHandle_chg hw.up hs) e6
          split
          · rename_i y7 e9
            have h8 := Chg2.of (State.ethRoute_chg hw.up h5) e9
            exact Chg.pair h8
          · rename_i y10 y11 e13
            have h12 := Chg2.of (State.ethRoute_chg hw.up h5) e13
            split
            · rename_i y14 y15 e17
              have h16 := Chg2.of (State.ethPolice_chg hw.up (State.learnLook_chg hw.up h12)) e17
              exact Chg.pair h16

theorem State.ethHead_chg {p : Nat} {ts : Nat} {b : List Byte} {pre : Bool} (hw : Within [.regs, .tbl, .msix, .lrn, .bsn, .meters, .egr, .fre, .fgd, .vlt, .auth, .tim, .mgs, .inj, .out] w) (hs : Chg w s0 s) : Chg2 w s0 (State.ethHead s p ts b pre) := by
  unfold State.ethHead
  refine Chg.ite2 ?_ ?_
  · exact Chg.pair hs
  · split
    · rename_i y1 e3
      have h2 := Chg2.of (State.lceRx_chg hw.up hs) e3
      split
      · rename_i y4 y5 y6 e8
        have h7 := Chg2.of (State.ethIntake_chg hw.up h2) e8
        exact Chg.pair h7
    · rename_i y9 e11
      have h10 := Chg2.of (State.lceRx_chg hw.up hs) e11
      exact Chg.pair h10
    · rename_i y12 y13 y14 y15 y16 e18
      have h17 := Chg2.of (State.lceRx_chg hw.up hs) e18
      split
      · rename_i y19 y20 y21 e23
        have h22 := Chg2.of (State.ethIntake_chg hw.up h17) e23
        exact Chg.pair h22

theorem State.endUnstored_chg {p : Nat} {a : Arrival} {good : Bool} (hw : Within [.regs, .msix, .auth, .mgs, .inj, .out] w) (hs : Chg w s0 s) : Chg w s0 (State.endUnstored s p a good) := by
  unfold State.endUnstored
  extract_lets -underBinder -merge +onlyGivenNames s1
  have h2 : Chg w s0 s1 := by
    unfold s1
    split
    · exact State.lceVerdict_chg hw.up hs
    · exact hs
  split
  · exact Chg.upd_inj hw.mem h2 _
  · exact h2

theorem State.setArrival_chg {p : Nat} {pre : Bool} {a : Option Arrival} (hw : Within [.bsn] w) (hs : Chg w s0 s) : Chg w s0 (State.setArrival s p pre a) := by
  unfold State.setArrival
  exact Chg.upd_bsn hw.mem hs _

theorem State.countRx_chg {p : Nat} {b : List Byte} {fcsOk : Bool} (hw : Within [.regs] w) (hs : Chg w s0 s) : Chg w s0 (State.countRx s p b fcsOk) := by
  unfold State.countRx
  refine Chg.ite ?_ ?_
  · exact hs
  · extract_lets -underBinder -merge +onlyGivenNames n1 s2 d4 s5 s7
    have h3 : Chg w s0 s2 := State.stat_chg hw.up (State.stat_chg hw.up hs)
    have h6 : Chg w s0 s5 := State.stat_chg hw.up h3
    have h8 : Chg w s0 s7 := Chg.ite (h6) (State.stat_chg hw.up h6)
    exact Chg.ite (State.stat_chg hw.up h8) (h8)

theorem State.pcsErrors_chg {p : Nat} {sym : Nat} {corr : Nat} {uncorr : Nat} (hw : Within [.regs] w) (hs : Chg w s0 s) : Chg w s0 (State.pcsErrors s p sym corr uncorr) := by
  unfold State.pcsErrors
  refine Chg.ite ?_ ?_
  · exact hs
  · extract_lets -underBinder -merge +onlyGivenNames s1
    have h2 : Chg w s0 s1 := State.stat_chg hw.up hs
    exact Chg.ite (h2) (State.stat_chg hw.up (State.stat_chg hw.up h2))

theorem State.verdict_chg {p : Nat} {pre : Bool} {fcsOk : Bool} {framing : Bool} {ecc : Nat} (hw : Within [.regs, .msix, .bsn, .meters, .egr, .fre, .fgd, .vlt, .auth, .pwr, .mgs, .inj, .out, .free] w) (hs : Chg w s0 s) : Chg w s0 (State.verdict s p pre fcsOk framing ecc) := by
  unfold State.verdict
  split
  · exact hs
  · extract_lets -underBinder -merge +onlyGivenNames s1 s3 s5 s7
    have h2 : Chg w s0 s1 := State.countRx_chg hw.up (State.setArrival_chg hw.up hs)
    have h4 : Chg w s0 s3 := Chg.ite (State.confirmSrc_chg hw.up h2) (h2)
    have h6 : Chg w s0 s5 := Chg.ite (State.evt_chg hw.up h4) (h4)
    have h8 : Chg w s0 s7 := by
      unfold s7
      split
      · exact State.endUnstored_chg hw.up h6
      · extract_lets -underBinder -merge +onlyGivenNames long9
        exact State.judge_chg hw.up (State.eccCount_chg hw.up h6)
    exact State.saEnded_chg hw.up h8

theorem State.ethRx_chg {p : Nat} {b : List Byte} {pre : Bool} (hw : Within [.regs, .tbl, .msix, .lrn, .bsn, .meters, .egr, .fre, .fgd, .vlt, .auth, .tim, .pwr, .mgs, .inj, .out, .free] w) (hs : Chg w s0 s) : Chg w s0 (State.ethRx s p b pre) := by
  unfold State.ethRx
  refine Chg.ite ?_ ?_
  · exact hs
  · extract_lets -underBinder -merge +onlyGivenNames s1
    have h2 : Chg w s0 s1 := State.verdict_chg hw.up (Chg.ite (State.heard_chg hw.up hs) (hs))
    split
    · rename_i y3 y4 e6
      have h5 := Chg2.of (State.ethHead_chg hw.up h2) e6
      exact State.setArrival_chg hw.up h5

theorem State.abortArrival_chg {p : Nat} {pre : Bool} (hw : Within [.regs, .msix, .bsn, .meters, .egr, .fre, .fgd, .vlt, .auth, .mgs, .inj, .out, .free] w) (hs : Chg w s0 s) : Chg w s0 (State.abortArrival s p pre) := by
  unfold State.abortArrival
  split
  · exact hs
  · extract_lets -underBinder -merge +onlyGivenNames s1
    have h2 : Chg w s0 s1 := State.setArrival_chg hw.up hs
    refine State.saEnded_chg hw.up ?_
    · split
      · exact State.judge_chg hw.up h2
      · exact h2

theorem State.busEnter_chg {ingress : Nat} {n : Nat} {ts : Nat} {b : List Byte} (hw : Within [.regs, .msix, .bsn, .meters, .egr, .fre, .mgs, .out] w) (hs : Chg w s0 s) : Chg w s0 (State.busEnter s ingress n ts b) := by
  unfold State.busEnter
  refine Chg.ite ?_ ?_
  · exact State.stat_chg hw.up hs
  · split
    · rename_i y1 e3
      have h2 := Chg2.of (State.busHandle_chg hw.up hs) e3
      exact State.stat_chg hw.up h2
    · rename_i y4 y5 e7
      have h6 := Chg2.of (State.busHandle_chg hw.up hs) e7
      extract_lets -underBinder -merge +onlyGivenNames s8 e10 k11 r12 digest13 k14
      have h9 : Chg w s0 s8 := State.perf_chg hw.up h6
      refine Chg.ite ?_ ?_
      · exact State.stat_chg hw.up h9
      · refine Chg.ite ?_ ?_
        · exact State.srtFail_chg hw.up h9
        · split
          · rename_i y15 y16 y17 e19
            have h18 := Chg2.of (State.weirAll_chg hw.up h9) e19
            refine Chg.ite ?_ ?_
            · exact State.raise_chg hw.up (State.stat_chg hw.up h18)
            · extract_lets -underBinder -merge +onlyGivenNames s20
              have h21 : Chg w s0 s20 := Chg.ite (h18) (State.minIntAccept_chg hw.up h18)
              split
              · rename_i y22 y23 e25
                have h24 := Chg2.of (w := w) (s0 := s0) (h := by
                  split
                  · exact State.freStage_chg hw.up h21
                  · exact Chg.pair h21
                  ) e25
                split
                · exact h24
                · extract_lets -underBinder -merge +onlyGivenNames s26 f28
                  have h27 : Chg w s0 s26 := by
                    unfold s26
                    split
                    · exact Chg.ite (h24) (State.evt_chg hw.up h24)
                    · exact h24
                  split
                  · rename_i y29 y30 e32
                    have h31 := Chg2.of (State.basinEnter_chg hw.up h27) e32
                    exact State.settleCopies_chg hw.up h31

theorem State.ownEnter_chg {p : Nat} {tc : Nat} {b : List Byte} {o : Option OwnMsg} (hw : Within [.regs, .msix, .bsn, .egr, .mgs, .out] w) (hs : Chg w s0 s) : Chg w s0 (State.ownEnter s p tc b o) := by
  unfold State.ownEnter
  extract_lets -underBinder -merge +onlyGivenNames b1 x2
  split
  · rename_i y3 y4 y5 e7
    have h6 := Chg2.of (State.destList_chg hw.up hs) e7
    extract_lets -underBinder -merge +onlyGivenNames r8 f9 why10
    refine Chg.ite ?_ ?_
    · exact State.bsnDrop_chg hw.up h6
    · refine Chg.ite ?_ ?_
      · exact State.unrsvDrop_chg hw.up h6
      · refine Chg.ite ?_ ?_
        · split
          · rename_i y11 y12 e14
            have h13 := Chg2.of (State.store_chg hw.up h6) e14
            exact State.settleCopies_chg hw.up (State.quotaScan_chg hw.up h13)
        · exact State.admitDrop_chg hw.up h6
  · rename_i y15 y16 e18
    have h17 := Chg2.of (State.destList_chg hw.up hs) e18
    exact h17

theorem State.injectOne_chg {a : Inject} (hw : Within [.regs, .tbl, .msix, .lrn, .bsn, .meters, .egr, .fre, .fgd, .vlt, .auth, .tim, .mgs, .inj, .out, .free] w) (hs : Chg w s0 s) : Chg w s0 (State.injectOne s a) := by
  unfold State.injectOne
  split
  · refine Chg.ite ?_ ?_
    · exact hs
    · refine Chg.ite ?_ ?_
      · exact State.busEnter_chg hw.up hs
      · split
        · rename_i y1 y2 e4
          have h3 := Chg2.of (State.ethHead_chg hw.up hs) e4
          split
          · exact State.judge_chg hw.up h3
          · exact State.endUnstored_chg hw.up h3
  · exact Chg.ite (hs) (State.ownEnter_chg hw.up hs)
  · exact hs

end Sys2Proof.Machine
end

