-- ==== Sys2Proof/Laws/ChgBus.lean ====
section
/-! SUPPORT. What the operations of Confluence and the buses can change: one lemma each. -/

set_option Elab.async false

namespace Sys2Proof.Machine

variable {w : List Area} {s0 s : State}

theorem State.twinItem_chg {t : Int} {input : List Byte} (hw : Within [.twn] w) (hs : Chg w s0 s) : Chg w s0 (State.twinItem s t input) := by
  unfold State.twinItem
  refine Chg.ite ?_ ?_
  · exact hs
  · extract_lets -underBinder -merge +onlyGivenNames w1
    split
    · exact Chg.upd_twn hw.mem hs _

theorem State.evtN_chg {a : Nat} {n : Nat} (hw : Within [.regs] w) (hs : Chg w s0 s) : Chg w s0 (State.evtN s a n) := by
  unfold State.evtN
  extract_lets -underBinder -merge +onlyGivenNames w1
  exact Chg.ite (hs) (Chg.ite (State.wr_chg hw.up hs) (State.wr_chg hw.up hs))

theorem State.cflEvent_chg {kind : Nat} {index : Nat} {isSignal : Bool} (hw : Within [.regs, .msix, .mgs, .out] w) (hs : Chg w s0 s) : Chg w s0 (State.cflEvent s kind index isSignal) := by
  unfold State.cflEvent
  extract_lets -underBinder -merge +onlyGivenNames s1
  have h2 : Chg w s0 s1 := State.raise_chg hw.up (State.wr_chg hw.up hs)
  exact Chg.ite (State.logEvt_chg hw.up h2) (h2)

theorem State.cflCfgErr_chg {index : Nat} {isSignal : Bool} (hw : Within [.regs, .msix, .mgs, .out] w) (hs : Chg w s0 s) : Chg w s0 (State.cflCfgErr s index isSignal) := by
  unfold State.cflCfgErr
  exact State.cflEvent_chg hw.up (State.evt_chg hw.up hs)

theorem State.setSrc_chg {i : Nat} {v : SrcVal} (hw : Within [.cfl] w) (hs : Chg w s0 s) : Chg w s0 (State.setSrc s i v) := by
  unfold State.setSrc
  exact Chg.upd_cfl hw.mem hs _

theorem State.srcTake_chg {i : Nat} {e : BitVec 512} {pay : List Byte} (hw : Within [.regs, .msix, .cfl, .pwr, .mgs, .out] w) (hs : Chg w s0 s) : Chg w s0 (State.srcTake s i e pay) := by
  unfold State.srcTake
  extract_lets -underBinder -merge +onlyGivenNames raw1 r2 lo3 hi4 act5 bad6 old7 v8 subst9 s10
  have h11 : Chg w s0 s10 := State.sleepSignal_chg hw.up (State.setSrc_chg hw.up hs)
  exact Chg.ite (State.cflEvent_chg hw.up (State.evt_chg hw.up h11)) (h11)

theorem State.cflOps_chg {n : Nat} (hw : Within [.regs, .msix, .out] w) (hs : Chg w s0 s) : Chg w s0 (State.cflOps s n) := by
  unfold State.cflOps
  exact State.perf_chg hw.up (State.stat_chg hw.up hs)

theorem State.srcTakeAll_chg {e : BitVec 512} {pay : List Byte} (hw : Within [.regs, .msix, .cfl, .pwr, .mgs, .out] w) (hs : Chg w s0 s) : Chg w s0 (State.srcTakeAll s e pay) := by
  unfold State.srcTakeAll
  refine Chg.foldl (fun s4 x6 h3 => ?_) (hs)
  extract_lets -underBinder -merge +onlyGivenNames g5
  exact Chg.ite (State.srcTake_chg hw.up (State.cflOps_chg hw.up h3)) (State.cflCfgErr_chg hw.up h3)

theorem State.setTxp_chg {i : Nat} {v : TxPdu} (hw : Within [.cfl] w) (hs : Chg w s0 s) : Chg w s0 (State.setTxp s i v) := by
  unfold State.setTxp
  exact Chg.upd_cfl hw.mem hs _

theorem State.placeOne_chg {fill : Byte} {a : (List Byte × List (Nat × Int)) × State} {i : Nat} (hw : Within [.regs, .msix, .mgs, .out] w) (ha : Chg2 w s0 a) : Chg2 w s0 (State.placeOne fill a i) := by
  unfold State.placeOne
  split
  · extract_lets -underBinder -merge +onlyGivenNames g6
    refine Chg.ite2 ?_ ?_
    · exact Chg.pair (State.cflCfgErr_chg hw.up ha)
    · extract_lets -underBinder -merge +onlyGivenNames s7
      have h8 : Chg w s0 s7 := State.cflOps_chg hw.up ha
      split
      · extract_lets -underBinder -merge +onlyGivenNames w9
        exact Chg.pair (State.cflCfgErr_chg hw.up h8)
      · extract_lets -underBinder -merge +onlyGivenNames c10 s11
        have h12 : Chg w s0 s11 := Chg.ite (h8) (State.cflEvent_chg hw.up (State.evt_chg hw.up h8))
        exact Chg.pair h12

theorem State.pduBuild_chg {j : Nat} {e : BitVec 512} (hw : Within [.regs, .msix, .mgs, .out] w) (hs : Chg w s0 s) : Chg2 w s0 (State.pduBuild s j e) := by
  unfold State.pduBuild
  split
  · rename_i y1 y2 y3 e5
    have h4 := Chg2.of (Chg.foldl2 (fun t7 _ h6 => State.placeOne_chg hw.up h6) (Chg.pair hs)) e5
    extract_lets -underBinder -merge +onlyGivenNames n8
    exact Chg.pair h4

theorem State.pduOut_chg {j : Nat} {b : List Byte} {l : List (Nat × Int)} {cause : Int} (hw : Within [.regs, .cfl, .twn] w) (hs : Chg w s0 s) : Chg2 w s0 (State.pduOut s j b l cause) := by
  unfold State.pduOut
  extract_lets -underBinder -merge +onlyGivenNames e1 x2 keep3 s4 s6
  have h5 : Chg w s0 s4 := State.setTxp_chg hw.up hs
  have h7 : Chg w s0 s6 := State.twinItem_chg hw.up h5
  exact Chg.ite2 (Chg.pair (State.stat_chg hw.up h7)) (Chg.pair (State.stat_chg hw.up h7))

theorem State.pduEmit_chg {j : Nat} {b : List Byte} {l : List (Nat × Int)} {cause : Int} (hw : Within [.regs, .cfl, .twn] w) (hs : Chg w s0 s) : Chg2 w s0 (State.pduEmit s j b l cause) := by
  unfold State.pduEmit
  exact Chg.ite2 (Chg.pair hs) (State.pduOut_chg hw.up hs)

theorem State.pduSend_chg {j : Nat} {cause : Int} (hw : Within [.regs, .msix, .cfl, .twn, .mgs, .out] w) (hs : Chg w s0 s) : Chg2 w s0 (State.pduSend s j cause) := by
  unfold State.pduSend
  refine Chg.ite2 ?_ ?_
  · exact Chg.pair hs
  · split
    · rename_i y1 y2 y3 e5
      have h4 := Chg2.of (State.pduBuild_chg hw.up hs) e5
      exact State.pduOut_chg hw.up h4

theorem State.pduEval_chg {j : Nat} {cause : Int} (hw : Within [.regs, .msix, .cfl, .twn, .mgs, .out] w) (hs : Chg w s0 s) : Chg2 w s0 (State.pduEval s j cause) := by
  unfold State.pduEval
  extract_lets -underBinder -merge +onlyGivenNames e1
  refine Chg.ite2 ?_ ?_
  · exact Chg.pair (State.cflCfgErr_chg hw.up hs)
  · refine Chg.ite2 ?_ ?_
    · exact Chg.pair hs
    · split
      · rename_i y2 y3 y4 e6
        have h5 := Chg2.of (State.pduBuild_chg hw.up hs) e6
        refine Chg.ite2 ?_ ?_
        · exact Chg.pair h5
        · extract_lets -underBinder -merge +onlyGivenNames x7
          split
          · exact Chg.ite2 (Chg.pair (State.setTxp_chg hw.up h5)) (State.pduEmit_chg hw.up h5)
          · exact State.pduEmit_chg hw.up h5

theorem State.pduDeps_chg {e : BitVec 512} {cause : Int} (hw : Within [.regs, .msix, .cfl, .twn, .mgs, .out] w) (hs : Chg w s0 s) : Chg2 w s0 (State.pduDeps s e cause) := by
  unfold State.pduDeps
  refine Chg.foldl2 (fun s4 x9 h3 => ?_) (Chg.pair hs)
  split
  · rename_i y5 y6 e8
    have h7 := Chg2.of (State.pduEval_chg hw.up (Chg2.snd (h3))) e8
    exact Chg.pair h7

theorem State.setRxp_chg {i : Nat} {v : RxPdu} (hw : Within [.cfl] w) (hs : Chg w s0 s) : Chg w s0 (State.setRxp s i v) := by
  unfold State.setRxp
  exact Chg.upd_cfl hw.mem hs _

theorem State.pduConsume_chg {i : Nat} {e : BitVec 512} {pay : List Byte} {cause : Int} (hw : Within [.regs, .msix, .cfl, .twn, .pwr, .mgs, .out] w) (hs : Chg w s0 s) : Chg2 w s0 (State.pduConsume s i e pay cause) := by
  unfold State.pduConsume
  refine Chg.ite2 ?_ ?_
  · exact Chg.pair (State.evt_chg hw.up hs)
  · extract_lets -underBinder -merge +onlyGivenNames s1 s3
    have h2 : Chg w s0 s1 := State.srcTakeAll_chg hw.up (State.stat_chg hw.up hs)
    have h4 : Chg w s0 s3 := Chg.ite (State.cflEvent_chg hw.up h2) (h2)
    exact State.pduDeps_chg hw.up (State.setRxp_chg hw.up h4)

theorem State.srcTimeout_chg {i : Nat} (hw : Within [.cfl] w) (hs : Chg w s0 s) : Chg w s0 (State.srcTimeout s i) := by
  unfold State.srcTimeout
  extract_lets -underBinder -merge +onlyGivenNames g1
  refine Chg.ite ?_ ?_
  · exact hs
  · extract_lets -underBinder -merge +onlyGivenNames x2
    exact State.setSrc_chg hw.up hs

theorem State.cflStart_chg {i : Nat} {x : List CflOut × State} (hw : Within [.cfl] w) (hs : Chg w s0 s) (hx : Chg2 w s0 x) : Chg w s0 (State.cflStart s i x) := by
  unfold State.cflStart
  extract_lets -underBinder -merge +onlyGivenNames t1
  have h2 : Chg w s0 t1 := Chg2.snd (hx)
  exact Chg.ite (Chg.upd_cfl hw.mem h2 _) (hs)

theorem State.cflTimeout_chg {i : Nat} (hw : Within [.regs, .msix, .cfl, .twn, .mgs, .out] w) (hs : Chg w s0 s) : Chg w s0 (State.cflTimeout s i) := by
  unfold State.cflTimeout
  extract_lets -underBinder -merge +onlyGivenNames e1
  refine Chg.ite ?_ ?_
  · exact hs
  · extract_lets -underBinder -merge +onlyGivenNames src2 t3 t5
    have h4 : Chg w s0 t3 := State.evt_chg hw.up (State.setRxp_chg hw.up hs)
    have h6 : Chg w s0 t5 := Chg.foldl (fun t8 _ h7 => State.srcTimeout_chg hw.up h7) (State.cflEvent_chg hw.up h4)
    exact State.cflStart_chg hw.up hs (State.pduDeps_chg hw.up h6)

theorem State.cflDeferred_chg {j : Nat} (hw : Within [.regs, .msix, .cfl, .twn, .mgs, .out] w) (hs : Chg w s0 s) : Chg w s0 (State.cflDeferred s j) := by
  unfold State.cflDeferred
  split
  · exact hs
  · exact Chg.ite (hs) (Chg.ite (State.cflStart_chg hw.up hs (State.pduSend_chg hw.up hs)) (State.setTxp_chg hw.up hs))

theorem State.cflCyclic_chg {j : Nat} (hw : Within [.regs, .msix, .cfl, .twn, .mgs, .out] w) (hs : Chg w s0 s) : Chg w s0 (State.cflCyclic s j) := by
  unfold State.cflCyclic
  split
  · exact hs
  · refine Chg.ite ?_ ?_
    · exact hs
    · extract_lets -underBinder -merge +onlyGivenNames first1 late2 src3 t4 t6
      have h5 : Chg w s0 t4 := State.setTxp_chg hw.up hs
      have h7 : Chg w s0 t6 := Chg.ite (h5) (State.cflEvent_chg hw.up (State.evtN_chg hw.up h5))
      exact State.cflStart_chg hw.up hs (State.pduSend_chg hw.up h7)

theorem State.setTun_chg {j : Nat} {v : TunTx} (hw : Within [.cfl] w) (hs : Chg w s0 s) : Chg w s0 (State.setTun s j v) := by
  unfold State.setTun
  exact Chg.upd_cfl hw.mem hs _

theorem State.tunEmit_chg {j : Nat} {acf : List Byte} (hw : Within [.cfl] w) (hs : Chg w s0 s) : Chg2 w s0 (State.tunEmit s j acf) := by
  unfold State.tunEmit
  extract_lets -underBinder -merge +onlyGivenNames x1
  exact Chg.pair (State.setTun_chg hw.up hs)

theorem State.tunFlush_chg {j : Nat} (hw : Within [.cfl] w) (hs : Chg w s0 s) : Chg2 w s0 (State.tunFlush s j) := by
  unfold State.tunFlush
  extract_lets -underBinder -merge +onlyGivenNames x1
  exact Chg.ite2 (Chg.pair hs) (State.tunEmit_chg hw.up (State.setTun_chg hw.up hs))

theorem State.xlFrags_chg {s : State} {j : Nat} {c : Nat} {ts : Nat} {per : Nat} {b : List Byte} {a : Nat} {a7 : Nat} (hw : Within [.regs, .cfl] w) (hs : Chg w s0 s) : Chg2 w s0 (State.xlFrags s j c ts per b a a7) := by
  unfold State.xlFrags
  split
  · exact Chg.pair hs
  · extract_lets -underBinder -merge +onlyGivenNames left1 last2 frag3
    split
    · rename_i y4 y5 e7
      have h6 := Chg2.of (State.tunEmit_chg hw.up (State.stat_chg hw.up hs)) e7
      refine Chg.ite2 ?_ ?_
      · exact Chg.pair h6
      · split
        · rename_i y8 y9 e11
          have h10 := Chg2.of (State.xlFrags_chg hw.up h6) e11
          exact Chg.pair h10

theorem State.tunTake_chg {j : Nat} {f : Frame} (hw : Within [.regs, .msix, .cfl, .mgs, .out] w) (hs : Chg w s0 s) : Chg2 w s0 (State.tunTake s j f) := by
  unfold State.tunTake
  extract_lets -underBinder -merge +onlyGivenNames e1
  refine Chg.ite2 ?_ ?_
  · exact Chg.pair (State.cflCfgErr_chg hw.up hs)
  · extract_lets -underBinder -merge +onlyGivenNames s2 c4 msg5
    have h3 : Chg w s0 s2 := State.cflOps_chg hw.up hs
    refine Chg.ite2 ?_ ?_
    · split
      · rename_i y6 y7 e9
        have h8 := Chg2.of (State.tunFlush_chg hw.up h3) e9
        split
        · rename_i y10 y11 e13
          have h12 := Chg2.of (State.xlFrags_chg hw.up h8) e13
          exact Chg.pair h12
    · extract_lets -underBinder -merge +onlyGivenNames held14
      split
      · rename_i y15 y16 e18
        have h17 := Chg2.of (Chg.ite2 (State.tunFlush_chg hw.up h3) (Chg.pair h3)) e18
        extract_lets -underBinder -merge +onlyGivenNames x19 s20 s22
        have h21 : Chg w s0 s20 := State.stat_chg hw.up h17
        have h23 : Chg w s0 s22 := State.setTun_chg hw.up h21
        refine Chg.ite2 ?_ ?_
        · split
          · rename_i y24 y25 e27
            have h26 := Chg2.of (State.tunFlush_chg hw.up h23) e27
            exact Chg.pair h26
        · exact Chg.pair h23

theorem State.setUntun_chg {j : Nat} {v : TunRx} (hw : Within [.cfl] w) (hs : Chg w s0 s) : Chg w s0 (State.setUntun s j v) := by
  unfold State.setUntun
  exact Chg.upd_cfl hw.mem hs _

theorem State.fragErr_chg {j : Nat} {bus : Nat} (hw : Within [.regs, .msix, .cfl, .mgs, .out] w) (hs : Chg w s0 s) : Chg w s0 (State.fragErr s j bus) := by
  unfold State.fragErr
  extract_lets -underBinder -merge +onlyGivenNames x1
  exact State.cflEvent_chg hw.up (State.evt_chg hw.up (State.setUntun_chg hw.up hs))

theorem State.xlTake_chg {j : Nat} {target : Nat} {seq : Nat} {m : List Byte} (hw : Within [.regs, .msix, .cfl, .mgs, .out] w) (hs : Chg w s0 s) : Chg2 w s0 (State.xlTake s j target seq m) := by
  unfold State.xlTake
  extract_lets -underBinder -merge +onlyGivenNames bus1 frag2 dlen3 off4 d5 x6 rest7
  refine Chg.ite2 ?_ ?_
  · exact Chg.ite2 (Chg.pair hs) (Chg.pair (State.evt_chg hw.up hs))
  · refine Chg.ite2 ?_ ?_
    · exact Chg.ite2 (Chg.pair (State.setUntun_chg hw.up hs)) (Chg.pair (State.fragErr_chg hw.up hs))
    · split
      · exact Chg.pair (State.fragErr_chg hw.up hs)
      · extract_lets -underBinder -merge +onlyGivenNames d8
        exact Chg.ite2 (Chg.pair (State.fragErr_chg hw.up hs)) (Chg.ite2 (Chg.pair (State.setUntun_chg hw.up hs)) (Chg.pair (State.setUntun_chg hw.up hs)))

theorem State.acfAll_chg {s : State} {j : Nat} {e : BitVec 512} {seq : Nat} {a : Nat} {a5 : List Byte} (hw : Within [.regs, .msix, .cfl, .mgs, .out] w) (hs : Chg w s0 s) : Chg2 w s0 (State.acfAll s j e seq a a5) := by
  unfold State.acfAll
  split
  · exact Chg.pair hs
  · extract_lets -underBinder -merge +onlyGivenNames n1
    refine Chg.ite2 ?_ ?_
    · exact Chg.pair hs
    · extract_lets -underBinder -merge +onlyGivenNames m2 typ3 isCan4 xl5
      split
      · rename_i y6 y7 e9
        have h8 := Chg2.of (w := w) (s0 := s0) (h := by
          refine Chg.ite2 ?_ ?_
          · exact Chg.pair hs
          · split
            · exact Chg.pair (State.evt_chg hw.up hs)
            · extract_lets -underBinder -merge +onlyGivenNames s10
              have h11 : Chg w s0 s10 := State.stat_chg hw.up (State.cflOps_chg hw.up hs)
              refine Chg.ite2 ?_ ?_
              · split
                · exact Chg.pair h11
                · exact Chg.pair (State.evt_chg hw.up h11)
              · exact State.xlTake_chg hw.up h11
          ) e9
        split
        · rename_i y12 y13 e15
          have h14 := Chg2.of (State.acfAll_chg hw.up h8) e15
          exact Chg.pair h14

theorem State.untunTake_chg {j : Nat} {f : Frame} (hw : Within [.regs, .msix, .cfl, .mgs, .out] w) (hs : Chg w s0 s) : Chg2 w s0 (State.untunTake s j f) := by
  unfold State.untunTake
  extract_lets -underBinder -merge +onlyGivenNames e1 x2 a3
  refine Chg.ite2 ?_ ?_
  · exact Chg.pair (State.evt_chg hw.up hs)
  · refine Chg.ite2 ?_ ?_
    · exact Chg.pair (State.evt_chg hw.up hs)
    · extract_lets -underBinder -merge +onlyGivenNames seq4 u5 s6
      have h7 : Chg w s0 s6 := by
        unfold s6
        split
        · exact Chg.ite (hs) (State.evt_chg hw.up hs)
        · exact hs
      exact State.acfAll_chg hw.up (State.setUntun_chg hw.up h7)

theorem State.cflCopy_chg {f : Frame} {i : Nat} (hw : Within [.regs, .msix, .cfl, .twn, .pwr, .mgs, .out] w) (hs : Chg w s0 s) : Chg2 w s0 (State.cflCopy s f i) := by
  unfold State.cflCopy
  extract_lets -underBinder -merge +onlyGivenNames e1 t2 authDrop3
  have h4 : Chg w s0 authDrop3 := State.cflEvent_chg hw.up (State.evt_chg hw.up hs)
  refine Chg.ite2 ?_ ?_
  · exact Chg.pair h4
  · refine Chg.ite2 ?_ ?_
    · exact Chg.pair (State.evt_chg hw.up hs)
    · refine Chg.ite2 ?_ ?_
      · exact Chg.pair h4
      · refine Chg.ite2 ?_ ?_
        · exact State.tunTake_chg hw.up hs
        · refine Chg.ite2 ?_ ?_
          · exact State.untunTake_chg hw.up hs
          · extract_lets -underBinder -merge +onlyGivenNames pay5
            split
            · rename_i y6 y7 e9
              have h8 := Chg2.of (State.pduConsume_chg hw.up hs) e9
              refine Chg.ite2 ?_ ?_
              · split
                · rename_i y10 y11 e13
                  have h12 := Chg2.of (State.tunTake_chg hw.up h8) e13
                  exact Chg.pair h12
              · exact Chg.pair h8

theorem State.cflRx_chg (hw : Within [.regs, .msix, .bsn, .egr, .ept, .cfl, .vlt, .auth, .twn, .tim, .pwr, .mgs, .inj, .out] w) (hs : Chg w s0 s) : Chg w s0 (State.cflRx s) := by
  unfold State.cflRx
  refine Chg.ite ?_ ?_
  · exact hs
  · extract_lets -underBinder -merge +onlyGivenNames s1
    have h2 : Chg w s0 s1 := Chg.ite (hs) (State.egressSelect_chg hw.up hs)
    split
    · exact h2
    · split
      · exact State.txComplete_chg hw.up h2
      · extract_lets -underBinder -merge +onlyGivenNames s3 pdu5
        have h4 : Chg w s0 s3 := State.txComplete_chg hw.up h2
        clear_value pdu5
        split
        · exact State.cflStart_chg hw.up h4 (Chg.pair (State.evt_chg hw.up h4))
        · exact State.cflStart_chg hw.up h4 (State.cflCopy_chg hw.up h4)

theorem State.cflPresent_chg {o : CflOut} (hw : Within [.inj] w) (hs : Chg w s0 s) : Chg w s0 (State.cflPresent s o) := by
  unfold State.cflPresent
  exact State.present_chg hw.up hs

theorem State.cflDone_chg (hw : Within [.cfl, .inj] w) (hs : Chg w s0 s) : Chg w s0 (State.cflDone s) := by
  unfold State.cflDone
  split
  · exact hs
  · exact Chg.foldl (fun t2 _ h1 => State.cflPresent_chg hw.up h1) (Chg.upd_cfl hw.mem hs _)

theorem State.cflHold_chg {j : Nat} (hw : Within [.cfl, .inj] w) (hs : Chg w s0 s) : Chg w s0 (State.cflHold s j) := by
  unfold State.cflHold
  refine Chg.ite ?_ ?_
  · exact hs
  · split
    · rename_i y1 y2 e4
      have h3 := Chg2.of (State.tunFlush_chg hw.up hs) e4
      exact Chg.foldl (fun t6 _ h5 => State.cflPresent_chg hw.up h5) (h3)

theorem State.cflEnabled_chg {was : Bool} (hw : Within [.cfl] w) (hs : Chg w s0 s) : Chg w s0 (State.cflEnabled s was) := by
  unfold State.cflEnabled
  exact Chg.ite (Chg.upd_cfl hw.mem hs _) (hs)

theorem State.cflReset_chg (hw : Within [.cfl, .inj] w) (hs : Chg w s0 s) : Chg w s0 (State.cflReset s) := by
  unfold State.cflReset
  extract_lets -underBinder -merge +onlyGivenNames s1
  have h2 : Chg w s0 s1 := State.cflDone_chg hw.up hs
  exact Chg.upd_cfl hw.mem h2 _

theorem State.setCch_chg {c : Nat} {v : CanSt} (hw : Within [.can] w) (hs : Chg w s0 s) : Chg w s0 (State.setCch s c v) := by
  unfold State.setCch
  exact Chg.upd_can hw.mem hs _

theorem State.canEvent_chg {c : Nat} {i : Nat} {id : Nat} (hw : Within [.regs, .msix, .mgs, .out] w) (hs : Chg w s0 s) : Chg w s0 (State.canEvent s c i id) := by
  unfold State.canEvent
  extract_lets -underBinder -merge +onlyGivenNames x1
  exact State.logEvt_chg hw.up (State.raise_chg hw.up hs)

theorem State.canCfgErr_chg {c : Nat} (hw : Within [.regs] w) (hs : Chg w s0 s) : Chg w s0 (State.canCfgErr s c) := by
  unfold State.canCfgErr
  exact State.evt_chg hw.up hs

theorem State.txlFlush_chg {c : Nat} (hw : Within [.regs, .msix, .bsn, .can, .mgs, .out] w) (hs : Chg w s0 s) : Chg w s0 (State.txlFlush s c) := by
  unfold State.txlFlush
  extract_lets -underBinder -merge +onlyGivenNames x1 s2
  have h3 : Chg w s0 s2 := State.stat_chg hw.up (State.setCch_chg hw.up hs)
  exact Chg.foldl (fun t5 _ h4 => State.copyDone_chg hw.up h4) (h3)

theorem State.txlDrop_chg {c : Nat} {p : TxlItem → Bool} {count : State → State} (hw : Within [.regs, .msix, .bsn, .can, .mgs, .out] w) (hs : Chg w s0 s) (hcount : ∀ t0, Chg w s0 t0 → Chg w s0 (count t0)) : Chg w s0 (State.txlDrop s c p count) := by
  unfold State.txlDrop
  extract_lets -underBinder -merge +onlyGivenNames x1 s2
  have h3 : Chg w s0 s2 := State.setCch_chg hw.up hs
  exact Chg.foldl (fun t5 _ h4 => State.copyDone_chg hw.up (hcount _ (h4))) (h3)

theorem State.txlAge_chg {c : Nat} (hw : Within [.regs, .msix, .bsn, .can, .mgs, .out] w) (hs : Chg w s0 s) : Chg w s0 (State.txlAge s c) := by
  unfold State.txlAge
  exact State.txlDrop_chg hw.up hs (fun x1 h2 => State.stat_chg hw.up h2)

theorem State.txlTake_chg {c : Nat} {i : Nat} {k : Nat} {b : List Byte} (hw : Within [.regs, .msix, .bsn, .can, .mgs, .out] w) (hs : Chg w s0 s) : Chg w s0 (State.txlTake s c i k b) := by
  unfold State.txlTake
  extract_lets -underBinder -merge +onlyGivenNames x1
  exact Chg.ite (State.copyDone_chg hw.up (State.stat_chg hw.up hs)) (Chg.ite (State.copyDone_chg hw.up (State.stat_chg hw.up hs)) (Chg.ite (State.copyDone_chg hw.up (State.canEvent_chg hw.up (State.stat_chg hw.up hs))) (State.setCch_chg hw.up (State.copySt_chg hw.up hs))))

theorem State.canLinked_chg {c : Nat} (hw : Within [.regs, .msix, .bsn, .can, .vlt, .auth, .twn, .mgs, .out] w) (hs : Chg w s0 s) : Chg w s0 (State.canLinked s c) := by
  unfold State.canLinked
  split
  · exact hs
  · extract_lets -underBinder -merge +onlyGivenNames s1
    have h2 : Chg w s0 s1 := State.setQueue_chg hw.up hs
    split
    · exact h2
    · refine Chg.ite ?_ ?_
      · exact State.copyDone_chg hw.up (State.stat_chg hw.up h2)
      · split
        · rename_i y3 e5
          have h4 := Chg2.of (State.cauTx_chg hw.up h2) e5
          exact State.copyDone_chg hw.up h4
        · rename_i y6 y7 e9
          have h8 := Chg2.of (State.cauTx_chg hw.up h2) e9
          extract_lets -underBinder -merge +onlyGivenNames s10
          have h11 : Chg w s0 s10 := Chg.ite (State.twinItem_chg hw.up h8) (h8)
          exact State.txlTake_chg hw.up h11

theorem State.canListen_chg {c : Nat} (hw : Within [.regs, .msix, .bsn, .can, .mgs, .out] w) (hs : Chg w s0 s) : Chg w s0 (State.canListen s c) := by
  unfold State.canListen
  extract_lets -underBinder -merge +onlyGivenNames on1 was2 src3 s4
  have h5 : Chg w s0 s4 := State.setCch_chg hw.up hs
  exact Chg.ite (State.txlFlush_chg hw.up h5) (h5)

theorem State.canConfig_chg {c : Nat} (hw : Within [.regs, .msix, .bsn, .can, .mgs, .out] w) (hs : Chg w s0 s) : Chg w s0 (State.canConfig s c) := by
  unfold State.canConfig
  extract_lets -underBinder -merge +onlyGivenNames s1
  have h2 : Chg w s0 s1 := State.txlFlush_chg hw.up hs
  exact State.setCch_chg hw.up h2

theorem State.canStart_chg {c : Nat} (hw : Within [.regs, .msix, .can, .mgs, .out] w) (hs : Chg w s0 s) : Chg w s0 (State.canStart s c) := by
  unfold State.canStart
  exact Chg.ite (hs) (Chg.ite (State.setCch_chg hw.up hs) (State.canEvent_chg hw.up (State.canCfgErr_chg hw.up (State.wf_chg hw.up hs))))

theorem State.canEnabled_chg {c : Nat} (hw : Within [.regs, .msix, .bsn, .can, .mgs, .out, .free] w) (hs : Chg w s0 s) : Chg w s0 (State.canEnabled s c) := by
  unfold State.canEnabled
  extract_lets -underBinder -merge +onlyGivenNames x1
  refine Chg.ite ?_ ?_
  · exact State.canStart_chg hw.up hs
  · refine Chg.ite ?_ ?_
    · exact hs
    · refine Chg.ite ?_ ?_
      · exact State.setCch_chg hw.up hs
      · refine Chg.ite ?_ ?_
        · split
          · rename_i y2 y3 e5
            have h4 := Chg2.of (State.draw_chg hw.up hs) e5
            exact Chg.ite (State.setCch_chg hw.up h4) (State.canConfig_chg hw.up h4)
        · exact State.canConfig_chg hw.up hs

theorem State.canStopped_chg {c : Nat} (hw : Within [.regs, .msix, .bsn, .can, .mgs, .out] w) (hs : Chg w s0 s) : Chg w s0 (State.canStopped s c) := by
  unfold State.canStopped
  refine Chg.ite ?_ ?_
  · exact hs
  · extract_lets -underBinder -merge +onlyGivenNames s1
    have h2 : Chg w s0 s1 := State.canConfig_chg hw.up hs
    exact Chg.ite (State.canStart_chg hw.up h2) (h2)

theorem State.canConfine_chg {c : Nat} {id : Nat} (hw : Within [.regs, .msix, .bsn, .can, .mgs, .out] w) (hs : Chg w s0 s) : Chg w s0 (State.canConfine s c id) := by
  unfold State.canConfine
  extract_lets -underBinder -merge +onlyGivenNames x1 hot2
  refine Chg.ite ?_ ?_
  · exact State.canEvent_chg hw.up (State.setCch_chg hw.up hs)
  · refine Chg.ite ?_ ?_
    · extract_lets -underBinder -merge +onlyGivenNames s3
      have h4 : Chg w s0 s3 := State.setCch_chg hw.up hs
      exact State.canListen_chg hw.up (State.canEvent_chg hw.up (State.evt_chg hw.up h4))
    · exact Chg.ite (State.raise_chg hw.up (State.setCch_chg hw.up hs)) (hs)

theorem State.canErr_chg {c : Nat} {t : Nat} {dataPhase : Bool} {asTx : Bool} {id : Nat} (hw : Within [.regs] w) (hs : Chg w s0 s) : Chg w s0 (State.canErr s c t dataPhase asTx id) := by
  unfold State.canErr
  extract_lets -underBinder -merge +onlyGivenNames s1
  have h2 : Chg w s0 s1 := Chg.ite (State.evt_chg hw.up hs) (hs)
  exact State.wr_chg hw.up (State.wr_chg hw.up h2)

theorem State.canArbitrate_chg {c : Nat} (hw : Within [.regs, .msix, .bsn, .can, .pwr, .mgs, .out] w) (hs : Chg w s0 s) : Chg w s0 (State.canArbitrate s c) := by
  unfold State.canArbitrate
  refine Chg.ite ?_ ?_
  · exact hs
  · extract_lets -underBinder -merge +onlyGivenNames s1 x3
    have h2 : Chg w s0 s1 := State.heard_chg hw.up (State.txlAge_chg hw.up hs)
    split
    · exact h2
    · exact State.setCch_chg hw.up h2

theorem State.canSent_chg {c : Nat} (hw : Within [.regs, .msix, .bsn, .can, .mgs, .out] w) (hs : Chg w s0 s) : Chg w s0 (State.canSent s c) := by
  unfold State.canSent
  extract_lets -underBinder -merge +onlyGivenNames x1
  split
  · exact hs
  · extract_lets -underBinder -merge +onlyGivenNames s2 s4
    have h3 : Chg w s0 s2 := State.emit_chg hw.up (State.setCch_chg hw.up hs)
    have h5 : Chg w s0 s4 := State.stat_chg hw.up (State.stat_chg hw.up h3)
    exact State.canStopped_chg hw.up (State.canConfine_chg hw.up (State.copyDone_chg hw.up h5))

theorem State.canRetry_chg {c : Nat} {i : TxlItem} (hw : Within [.regs, .msix, .bsn, .can, .mgs, .out] w) (hs : Chg w s0 s) : Chg w s0 (State.canRetry s c i) := by
  unfold State.canRetry
  extract_lets -underBinder -merge +onlyGivenNames n1 lim2 x3
  exact Chg.ite (State.copyDone_chg hw.up (State.evt_chg hw.up (State.setCch_chg hw.up hs))) (State.setCch_chg hw.up hs)

theorem State.canTxErr_chg {c : Nat} {t : Nat} {dataPhase : Bool} {arb : Bool} {keep : Bool} (hw : Within [.regs, .msix, .bsn, .can, .mgs, .out] w) (hs : Chg w s0 s) : Chg w s0 (State.canTxErr s c t dataPhase arb keep) := by
  unfold State.canTxErr
  split
  · exact hs
  · extract_lets -underBinder -merge +onlyGivenNames id1 s2 s4 src6 s7
    have h3 : Chg w s0 s2 := State.canErr_chg hw.up hs
    have h5 : Chg w s0 s4 := Chg.ite (State.canEvent_chg hw.up (State.evt_chg hw.up h3)) (h3)
    have h8 : Chg w s0 s7 := State.setCch_chg hw.up h5
    exact State.canStopped_chg hw.up (State.canConfine_chg hw.up (State.canRetry_chg hw.up h8))

theorem State.canLost_chg {c : Nat} (hw : Within [.regs, .msix, .bsn, .can, .mgs, .out] w) (hs : Chg w s0 s) : Chg w s0 (State.canLost s c) := by
  unfold State.canLost
  extract_lets -underBinder -merge +onlyGivenNames x1
  split
  · exact hs
  · exact State.canStopped_chg hw.up (State.stat_chg hw.up (State.setCch_chg hw.up hs))

theorem State.canRxErr_chg {c : Nat} {t : Nat} {dataPhase : Bool} {id : Nat} {inc : Nat} (hw : Within [.regs, .msix, .bsn, .can, .pwr, .mgs, .out] w) (hs : Chg w s0 s) : Chg w s0 (State.canRxErr s c t dataPhase id inc) := by
  unfold State.canRxErr
  refine Chg.ite ?_ ?_
  · exact hs
  · extract_lets -underBinder -merge +onlyGivenNames s1
    have h2 : Chg w s0 s1 := State.canErr_chg hw.up (State.heard_chg hw.up hs)
    exact State.canStopped_chg hw.up (Chg.ite (h2) (State.canConfine_chg hw.up (State.setCch_chg hw.up h2)))

theorem State.wakeReplay_chg {c : Nat} (hw : Within [.regs, .msix, .bsn, .meters, .egr, .fre, .pwr, .mgs, .out] w) (hs : Chg w s0 s) : Chg w s0 (State.wakeReplay s c) := by
  unfold State.wakeReplay
  split
  · exact Chg.ite (State.busEnter_chg hw.up (State.setPwr_chg hw.up hs)) (hs)
  · exact hs

theorem State.canIdle_chg {c : Nat} (hw : Within [.regs, .msix, .bsn, .meters, .egr, .fre, .can, .pwr, .mgs, .out] w) (hs : Chg w s0 s) : Chg w s0 (State.canIdle s c) := by
  unfold State.canIdle
  extract_lets -underBinder -merge +onlyGivenNames x1
  exact Chg.ite (State.wakeReplay_chg hw.up (State.canConfine_chg hw.up (State.setCch_chg hw.up hs))) (Chg.ite (Chg.ite (State.setCch_chg hw.up hs) (State.raise_chg hw.up (State.setCch_chg hw.up hs))) (Chg.ite (State.canStopped_chg hw.up hs) (hs)))

theorem State.canPex_chg {c : Nat} {id : Nat} (hw : Within [.regs, .msix, .bsn, .can, .pwr, .mgs, .out] w) (hs : Chg w s0 s) : Chg w s0 (State.canPex s c id) := by
  unfold State.canPex
  refine Chg.ite ?_ ?_
  · exact hs
  · refine Chg.ite ?_ ?_
    · exact State.canRxErr_chg hw.up hs
    · extract_lets -underBinder -merge +onlyGivenNames s1
      have h2 : Chg w s0 s1 := State.canLost_chg hw.up hs
      exact Chg.ite (State.canEvent_chg hw.up (State.evt_chg hw.up (State.setCch_chg hw.up h2))) (h2)

theorem State.canRecover_chg {c : Nat} (hw : Within [.can] w) (hs : Chg w s0 s) : Chg w s0 (State.canRecover s c) := by
  unfold State.canRecover
  extract_lets -underBinder -merge +onlyGivenNames x1
  exact Chg.ite (State.setCch_chg hw.up hs) (hs)

theorem State.canBoffDelay_chg {c : Nat} (hw : Within [.can] w) (hs : Chg w s0 s) : Chg w s0 (State.canBoffDelay s c) := by
  unfold State.canBoffDelay
  exact Chg.ite (State.canRecover_chg hw.up hs) (hs)

theorem State.canModeWrite_chg {m : Nat} {c : Nat} {v : Word} (hw : Within [.regs, .msix, .bsn, .can, .mgs, .out] w) (hs : Chg w s0 s) : Chg w s0 (State.canModeWrite s m c v) := by
  unfold State.canModeWrite
  extract_lets -underBinder -merge +onlyGivenNames old1 st2 s3
  have h4 : Chg w s0 s3 := Chg.ite (State.canCfgErr_chg hw.up (State.plainWrite_chg hw.up hs)) (State.plainWrite_chg hw.up hs)
  exact Chg.ite (State.canListen_chg hw.up h4) (h4)

theorem State.canTimingWrite_chg {m : Nat} {c : Nat} {a : Nat} {v : Word} (hw : Within [.regs] w) (hs : Chg w s0 s) : Chg w s0 (State.canTimingWrite s m c a v) := by
  unfold State.canTimingWrite
  exact Chg.ite (State.plainWrite_chg hw.up hs) (State.canCfgErr_chg hw.up hs)

theorem State.canCmd_chg {c : Nat} {v : Word} (hw : Within [.regs, .msix, .bsn, .can, .mgs, .out] w) (hs : Chg w s0 s) : Chg w s0 (State.canCmd s c v) := by
  unfold State.canCmd
  extract_lets -underBinder -merge +onlyGivenNames s1 s3
  have h2 : Chg w s0 s1 := Chg.ite (State.canRecover_chg hw.up hs) (hs)
  have h4 : Chg w s0 s3 := Chg.ite (State.txlFlush_chg hw.up h2) (h2)
  exact Chg.ite (State.setCch_chg hw.up h4) (h4)

theorem State.canL0Release_chg {c : Nat} {k : Nat} {v : Word} (hw : Within [.regs] w) (hs : Chg w s0 s) : Chg w s0 (State.canL0Release s c k v) := by
  unfold State.canL0Release
  exact Chg.ite (State.wr_chg hw.up hs) (hs)

theorem State.wrWords_chg {s : State} {a : Nat} {a2 : List Word} (hw : Within [.regs] w) (hs : Chg w s0 s) : Chg w s0 (State.wrWords s a a2) := by
  unfold State.wrWords
  split
  · exact hs
  · exact State.wrWords_chg hw.up (State.wr_chg hw.up hs)

theorem State.l0Place_chg {c : Nat} {k : Nat} {b : List Byte} (hw : Within [.regs, .msix, .out] w) (hs : Chg w s0 s) : Chg w s0 (State.l0Place s c k b) := by
  unfold State.l0Place
  exact Chg.ite (State.evt_chg hw.up hs) (State.raise_chg hw.up (State.wr_chg hw.up (State.wrWords_chg hw.up hs)))

theorem State.rxqPlace_chg {c : Nat} {b : List Byte} (hw : Within [.regs, .msix, .can, .mgs, .out] w) (hs : Chg w s0 s) : Chg w s0 (State.rxqPlace s c b) := by
  unfold State.rxqPlace
  extract_lets -underBinder -merge +onlyGivenNames x1
  exact Chg.ite (State.canEvent_chg hw.up (State.evt_chg hw.up hs)) (State.raise_chg hw.up (State.setCch_chg hw.up hs))

theorem State.canFilter_chg {c : Nat} {b : List Byte} (hw : Within [.regs, .msix, .can, .mgs, .out] w) (hs : Chg w s0 s) : Chg w s0 (State.canFilter s c b) := by
  unfold State.canFilter
  split
  · extract_lets -underBinder -merge +onlyGivenNames then11 s2
    have h3 : Chg w s0 s2 := State.l0Place_chg hw.up hs
    exact Chg.ite (State.rxqPlace_chg hw.up h3) (h3)
  · exact Chg.ite (State.rxqPlace_chg hw.up hs) (hs)

theorem State.canOffer_chg {c : Nat} {ts : Nat} {b : List Byte} (hw : Within [.regs, .msix, .bsn, .meters, .egr, .fre, .can, .mgs, .out] w) (hs : Chg w s0 s) : Chg w s0 (State.canOffer s c ts b) := by
  unfold State.canOffer
  exact State.busEnter_chg hw.up (State.canFilter_chg hw.up hs)

theorem State.shadowMatch_chg {c : Nat} {b : List Byte} (hw : Within [.regs, .msix, .bsn, .can, .mgs, .out] w) (hs : Chg w s0 s) : Chg w s0 (State.shadowMatch s c b) := by
  unfold State.shadowMatch
  extract_lets -underBinder -merge +onlyGivenNames x1
  split
  · exact State.copyDone_chg hw.up (State.stat_chg hw.up (State.setCch_chg hw.up hs))
  · exact hs

theorem State.canRecDown_chg {c : Nat} (hw : Within [.regs, .msix, .bsn, .can, .mgs, .out, .free] w) (hs : Chg w s0 s) : Chg w s0 (State.canRecDown s c) := by
  unfold State.canRecDown
  extract_lets -underBinder -merge +onlyGivenNames x1
  refine Chg.ite ?_ ?_
  · exact hs
  · refine Chg.ite ?_ ?_
    · exact State.canConfine_chg hw.up (State.setCch_chg hw.up hs)
    · split
      · rename_i y2 y3 e5
        have h4 := Chg2.of (State.draw_chg hw.up hs) e5
        exact State.canConfine_chg hw.up (State.setCch_chg hw.up h4)

theorem State.canRx_chg {c : Nat} {b : List Byte} (hw : Within [.regs, .msix, .bsn, .meters, .egr, .fre, .can, .auth, .pwr, .mgs, .out, .free] w) (hs : Chg w s0 s) : Chg w s0 (State.canRx s c b) := by
  unfold State.canRx
  refine Chg.ite ?_ ?_
  · exact hs
  · extract_lets -underBinder -merge +onlyGivenNames sof1 b2 s3 s5 s7 s9 s11 ts13
    have h4 : Chg w s0 s3 := State.confirmSrc_chg hw.up (State.heard_chg hw.up hs)
    have h6 : Chg w s0 s5 := State.stat_chg hw.up (State.stat_chg hw.up h4)
    have h8 : Chg w s0 s7 := Chg.ite (State.stat_chg hw.up h6) (h6)
    have h10 : Chg w s0 s9 := State.canRecDown_chg hw.up h8
    have h12 : Chg w s0 s11 := Chg.ite (State.shadowMatch_chg hw.up h10) (h10)
    exact State.canStopped_chg hw.up (Chg.ite (Chg.upd_auth hw.mem h12 _) (State.canOffer_chg hw.up h12))

theorem State.cauVerdict_chg (hw : Within [.regs, .msix, .bsn, .meters, .egr, .fre, .can, .auth, .mgs, .out] w) (hs : Chg w s0 s) : Chg w s0 (State.cauVerdict s) := by
  unfold State.cauVerdict
  split
  · exact hs
  · extract_lets -underBinder -merge +onlyGivenNames src1 s2
    have h3 : Chg w s0 s2 := Chg.upd_auth hw.mem hs _
    split
    · rename_i y4 y5 e7
      have h6 := Chg2.of (State.cauRx_chg hw.up h3) e7
      exact State.canOffer_chg hw.up h6
    · rename_i y8 e10
      have h9 := Chg2.of (State.cauRx_chg hw.up h3) e10
      exact h9

theorem State.setLch_chg {l : Nat} {v : LinSt} (hw : Within [.lin] w) (hs : Chg w s0 s) : Chg w s0 (State.setLch s l v) := by
  unfold State.setLch
  exact Chg.upd_lin hw.mem hs _

theorem State.linEvent_chg {l : Nat} {i : Nat} {id : Nat} (hw : Within [.regs, .msix, .mgs, .out] w) (hs : Chg w s0 s) : Chg w s0 (State.linEvent s l i id) := by
  unfold State.linEvent
  exact State.logEvt_chg hw.up (State.raise_chg hw.up hs)

theorem State.linPublish_chg {l : Nat} {f : Nat} {d : List Byte} (hw : Within [.regs] w) (hs : Chg w s0 s) : Chg w s0 (State.linPublish s l f d) := by
  unfold State.linPublish
  extract_lets -underBinder -merge +onlyGivenNames n1 b2 s3
  have h4 : Chg w s0 s3 := State.wr_chg hw.up (State.wr_chg hw.up hs)
  exact State.wf_chg hw.up h4

theorem State.linLinked_chg {l : Nat} (hw : Within [.regs, .msix, .bsn, .twn, .mgs, .out] w) (hs : Chg w s0 s) : Chg w s0 (State.linLinked s l) := by
  unfold State.linLinked
  split
  · exact hs
  · extract_lets -underBinder -merge +onlyGivenNames s1
    have h2 : Chg w s0 s1 := State.setQueue_chg hw.up hs
    split
    · exact h2
    · extract_lets -underBinder -merge +onlyGivenNames s3 id5 s6
      have h4 : Chg w s0 s3 := Chg.ite (State.twinItem_chg hw.up h2) (h2)
      have h7 : Chg w s0 s6 := Chg.ite (State.linPublish_chg hw.up h4) (State.evt_chg hw.up (State.stat_chg hw.up h4))
      exact State.copyDone_chg hw.up h7

theorem State.linError_chg {l : Nat} {a : Nat} (hw : Within [.regs, .msix, .lin, .out] w) (hs : Chg w s0 s) : Chg w s0 (State.linError s l a) := by
  unfold State.linError
  exact State.setLch_chg hw.up (State.raise_chg hw.up (State.evt_chg hw.up hs))

theorem State.linRespond_chg {l : Nat} {f : Nat} (hw : Within [.regs, .lin, .out] w) (hs : Chg w s0 s) : Chg w s0 (State.linRespond s l f) := by
  unfold State.linRespond
  extract_lets -underBinder -merge +onlyGivenNames r1 s2 s4
  have h3 : Chg w s0 s2 := State.stat_chg hw.up (State.emit_chg hw.up hs)
  have h5 : Chg w s0 s4 := State.wf_chg hw.up h3
  exact State.setLch_chg hw.up h5

theorem State.linCfgErr_chg {l : Nat} (hw : Within [.regs, .msix, .mgs, .out] w) (hs : Chg w s0 s) : Chg w s0 (State.linCfgErr s l) := by
  unfold State.linCfgErr
  exact State.linEvent_chg hw.up (State.evt_chg hw.up hs)

theorem State.linHeader_chg {l : Nat} {f : Nat} {slot : LinSlot} (hw : Within [.lin, .pwr, .out] w) (hs : Chg w s0 s) : Chg w s0 (State.linHeader s l f slot) := by
  unfold State.linHeader
  exact State.setLch_chg hw.up (State.emit_chg hw.up (State.heard_chg hw.up hs))

theorem State.linGoToSleep_chg {l : Nat} (hw : Within [.lin, .out] w) (hs : Chg w s0 s) : Chg w s0 (State.linGoToSleep s l) := by
  unfold State.linGoToSleep
  extract_lets -underBinder -merge +onlyGivenNames s1
  have h2 : Chg w s0 s1 := Chg.ite (hs) (State.emit_chg hw.up (State.emit_chg hw.up hs))
  exact State.setLch_chg hw.up h2

theorem State.linUncond_chg {l : Nat} {f : Nat} (hw : Within [.regs, .lin, .pwr, .out] w) (hs : Chg w s0 s) : Chg w s0 (State.linUncond s l f) := by
  unfold State.linUncond
  exact Chg.ite (Chg.ite (State.linRespond_chg hw.up (State.emit_chg hw.up hs)) (State.evt_chg hw.up hs)) (State.linHeader_chg hw.up hs)

theorem State.linEntry_chg {l : Nat} {i : Nat} (hw : Within [.regs, .lin, .pwr, .out] w) (hs : Chg w s0 s) : Chg w s0 (State.linEntry s l i) := by
  unfold State.linEntry
  extract_lets -underBinder -merge +onlyGivenNames f1 t2 src3 s4
  have h5 : Chg w s0 s4 := State.setLch_chg hw.up hs
  refine Chg.ite ?_ ?_
  · exact State.linGoToSleep_chg hw.up h5
  · refine Chg.ite ?_ ?_
    · exact h5
    · clear_value t2
      split
      · exact State.linUncond_chg hw.up h5
      · exact State.linHeader_chg hw.up h5
      · split
        · exact State.linRespond_chg hw.up (State.emit_chg hw.up h5)
        · exact h5
      · exact State.linUncond_chg hw.up h5
      · exact State.linHeader_chg hw.up h5
      · exact h5

theorem State.linSleepNow_chg {l : Nat} (hw : Within [.regs, .msix, .lin, .out] w) (hs : Chg w s0 s) : Chg w s0 (State.linSleepNow s l) := by
  unfold State.linSleepNow
  exact State.raise_chg hw.up (State.setLch_chg hw.up hs)

theorem State.linSlotEnd_chg {l : Nat} (hw : Within [.regs, .msix, .lin, .mgs, .out] w) (hs : Chg w s0 s) : Chg w s0 (State.linSlotEnd s l) := by
  unfold State.linSlotEnd
  extract_lets -underBinder -merge +onlyGivenNames x1 x2 x3 x4 s5
  have h6 : Chg w s0 s5 := State.setLch_chg hw.up hs
  refine Chg.ite ?_ ?_
  · extract_lets -underBinder -merge +onlyGivenNames n7 s8
    have h9 : Chg w s0 s8 := State.setLch_chg hw.up h6
    exact Chg.ite (State.raise_chg hw.up (State.setLch_chg hw.up h9)) (State.linCfgErr_chg hw.up h9)
  · exact h6

theorem State.linSlot_chg {l : Nat} (hw : Within [.regs, .msix, .lin, .pwr, .mgs, .out] w) (hs : Chg w s0 s) : Chg w s0 (State.linSlot s l) := by
  unfold State.linSlot
  refine Chg.ite ?_ ?_
  · exact hs
  · refine Chg.ite ?_ ?_
    · exact State.linSleepNow_chg hw.up hs
    · extract_lets -underBinder -merge +onlyGivenNames s1 x3
      have h2 : Chg w s0 s1 := State.linSlotEnd_chg hw.up hs
      refine Chg.ite ?_ ?_
      · exact State.setLch_chg hw.up h2
      · extract_lets -underBinder -merge +onlyGivenNames i4
        exact State.linEntry_chg hw.up (State.setLch_chg hw.up h2)

theorem State.linReceive_chg {l : Nat} {f : Nat} {sof : Nat} {d : List Byte} (hw : Within [.regs, .msix, .bsn, .meters, .egr, .fre, .lin, .pwr, .mgs, .out] w) (hs : Chg w s0 s) : Chg w s0 (State.linReceive s l f sof d) := by
  unfold State.linReceive
  extract_lets -underBinder -merge +onlyGivenNames s1 src3 s4
  have h2 : Chg w s0 s1 := State.raise_chg hw.up (State.stat_chg hw.up (State.confirmSrc_chg hw.up hs))
  have h5 : Chg w s0 s4 := State.setLch_chg hw.up h2
  exact Chg.ite (h5) (State.busEnter_chg hw.up h5)

theorem State.linCollision_chg {l : Nat} {f : Nat} (hw : Within [.regs, .msix, .lin, .mgs, .out] w) (hs : Chg w s0 s) : Chg w s0 (State.linCollision s l f) := by
  unfold State.linCollision
  extract_lets -underBinder -merge +onlyGivenNames s1
  have h2 : Chg w s0 s1 := State.linEvent_chg hw.up (State.evt_chg hw.up hs)
  exact State.setLch_chg hw.up h2

theorem State.linRx_chg {l : Nat} {sof : Nat} {d : List Byte} {st : Nat} (hw : Within [.regs, .msix, .bsn, .meters, .egr, .fre, .lin, .pwr, .mgs, .out] w) (hs : Chg w s0 s) : Chg w s0 (State.linRx s l sof d st) := by
  unfold State.linRx
  refine Chg.ite ?_ ?_
  · exact hs
  · split
    · exact Chg.ite (State.linReceive_chg hw.up hs) (Chg.ite (Chg.ite (State.linError_chg hw.up (State.setLch_chg hw.up hs)) (hs)) (Chg.ite (State.linCollision_chg hw.up hs) (State.linError_chg hw.up (State.setLch_chg hw.up hs))))
    · exact Chg.ite (State.linError_chg hw.up (State.setLch_chg hw.up hs)) (hs)
    · exact Chg.ite (State.linError_chg hw.up hs) (hs)
    · exact Chg.ite (State.linError_chg hw.up hs) (hs)
    · exact hs

theorem State.linTimeout_chg {l : Nat} (hw : Within [.regs, .msix, .lin, .out] w) (hs : Chg w s0 s) : Chg w s0 (State.linTimeout s l) := by
  unfold State.linTimeout
  split
  · exact State.linError_chg hw.up (State.setLch_chg hw.up hs)
  · exact hs

theorem State.linHeaderRx_chg {l : Nat} {pid : Nat} {sync : Bool} (hw : Within [.regs, .msix, .lin, .pwr, .out] w) (hs : Chg w s0 s) : Chg w s0 (State.linHeaderRx s l pid sync) := by
  unfold State.linHeaderRx
  extract_lets -underBinder -merge +onlyGivenNames f1
  refine Chg.ite ?_ ?_
  · exact hs
  · extract_lets -underBinder -merge +onlyGivenNames src2 s3
    have h4 : Chg w s0 s3 := State.setLch_chg hw.up (State.heard_chg hw.up hs)
    refine Chg.ite ?_ ?_
    · exact State.linError_chg hw.up h4
    · refine Chg.ite ?_ ?_
      · exact h4
      · extract_lets -underBinder -merge +onlyGivenNames s5
        have h6 : Chg w s0 s5 := State.confirmSrc_chg hw.up h4
        exact Chg.ite (State.setLch_chg hw.up h6) (Chg.ite (State.linRespond_chg hw.up h6) (h6))

theorem State.linConfig_chg {l : Nat} (hw : Within [.regs, .lin] w) (hs : Chg w s0 s) : Chg w s0 (State.linConfig s l) := by
  unfold State.linConfig
  extract_lets -underBinder -merge +onlyGivenNames s1
  have h2 : Chg w s0 s1 := Chg.foldl (fun t4 _ h3 => State.wf_chg hw.up (State.wr_chg hw.up (State.wr_chg hw.up h3))) (hs)
  exact State.setLch_chg hw.up h2

theorem State.linEnabled_chg {l : Nat} (hw : Within [.regs, .msix, .lin, .mgs, .out] w) (hs : Chg w s0 s) : Chg w s0 (State.linEnabled s l) := by
  unfold State.linEnabled
  refine Chg.ite ?_ ?_
  · exact Chg.ite (hs) (State.linConfig_chg hw.up hs)
  · refine Chg.ite ?_ ?_
    · exact hs
    · extract_lets -underBinder -merge +onlyGivenNames n1
      exact Chg.ite (State.setLch_chg hw.up hs) (Chg.ite (State.setLch_chg hw.up hs) (State.linCfgErr_chg hw.up hs))

theorem State.linSwitch_chg {l : Nat} (hw : Within [.lin] w) (hs : Chg w s0 s) : Chg w s0 (State.linSwitch s l) := by
  unfold State.linSwitch
  exact Chg.ite (State.setLch_chg hw.up hs) (hs)

theorem State.linSleep_chg {l : Nat} (hw : Within [.lin, .out] w) (hs : Chg w s0 s) : Chg w s0 (State.linSleep s l) := by
  unfold State.linSleep
  exact Chg.ite (State.linGoToSleep_chg hw.up hs) (hs)

theorem State.linWake_chg {l : Nat} (hw : Within [.lin, .out] w) (hs : Chg w s0 s) : Chg w s0 (State.linWake s l) := by
  unfold State.linWake
  refine Chg.ite ?_ ?_
  · exact hs
  · extract_lets -underBinder -merge +onlyGivenNames src1 s2
    have h3 : Chg w s0 s2 := State.setLch_chg hw.up hs
    exact Chg.ite (h3) (State.emit_chg hw.up h3)

theorem State.linCmd_chg {l : Nat} {v : Word} (hw : Within [.lin, .out] w) (hs : Chg w s0 s) : Chg w s0 (State.linCmd s l v) := by
  unfold State.linCmd
  extract_lets -underBinder -merge +onlyGivenNames s1 s3
  have h2 : Chg w s0 s1 := Chg.ite (State.linWake_chg hw.up hs) (hs)
  have h4 : Chg w s0 s3 := Chg.ite (State.linSleep_chg hw.up h2) (h2)
  exact Chg.ite (State.linSwitch_chg hw.up h4) (h4)

theorem State.linQuiet_chg {l : Nat} (hw : Within [.regs, .msix, .lin, .out] w) (hs : Chg w s0 s) : Chg w s0 (State.linQuiet s l) := by
  unfold State.linQuiet
  exact Chg.ite (State.linSleepNow_chg hw.up hs) (hs)

theorem State.linWakeRx_chg {l : Nat} (hw : Within [.regs, .msix, .lin, .out] w) (hs : Chg w s0 s) : Chg w s0 (State.linWakeRx s l) := by
  unfold State.linWakeRx
  exact Chg.ite (State.raise_chg hw.up (State.evt_chg hw.up (State.setLch_chg hw.up hs))) (Chg.ite (State.setLch_chg hw.up hs) (hs))

theorem State.linWakeRetry_chg {l : Nat} (hw : Within [.lin, .out] w) (hs : Chg w s0 s) : Chg w s0 (State.linWakeRetry s l) := by
  unfold State.linWakeRetry
  extract_lets -underBinder -merge +onlyGivenNames n1
  refine Chg.ite ?_ ?_
  · extract_lets -underBinder -merge +onlyGivenNames src2 s3
    have h4 : Chg w s0 s3 := State.setLch_chg hw.up hs
    exact Chg.ite (h4) (State.emit_chg hw.up h4)
  · exact hs

end Sys2Proof.Machine
end

