-- ==== Sys2Proof/Laws/ChgTwin.lean ====
section
/-! SUPPORT. What the operations of the twin unit, the journal and the Budget Engine can change: one lemma each. -/

set_option Elab.async false

namespace Sys2Proof.Machine

variable {w : List Area} {s0 s : State}

theorem State.setTwn_chg {t : TwnSt} (hw : Within [.twn] w) (hs : Chg w s0 s) : Chg w s0 (State.setTwn s t) := by
  unfold State.setTwn
  exact Chg.upd_twn hw.mem hs _

theorem State.twinSend_chg {typ : Nat} {body : List Byte} (hw : Within [.twn, .inj, .free] w) (hs : Chg w s0 s) : Chg w s0 (State.twinSend s typ body) := by
  unfold State.twinSend
  split
  · rename_i y1 y2 e4
    have h3 := Chg2.of (State.draw_chg hw.up hs) e4
    extract_lets -underBinder -merge +onlyGivenNames role5 msg6
    exact State.sendOwn_chg hw.up (State.setTwn_chg hw.up h3)

theorem State.twinRx_chg {typ : Nat} {len : Nat} {b : List Byte} {k : State → State} (hw : Within [.regs] w) (hs : Chg w s0 s) (hk : ∀ t0, Chg w s0 t0 → Chg w s0 (k t0)) : Chg w s0 (State.twinRx s typ len b k) := by
  unfold State.twinRx
  extract_lets -underBinder -merge +onlyGivenNames t1
  exact Chg.ite (hs) (Chg.ite (State.evt_chg hw.up hs) (Chg.ite (hk _ (hs)) (hs)))

theorem State.twinEvent_chg {i : Nat} {gap : Nat} (hw : Within [.regs, .msix, .mgs, .out] w) (hs : Chg w s0 s) : Chg w s0 (State.twinEvent s i gap) := by
  unfold State.twinEvent
  exact State.logEvt_chg hw.up (State.raise_chg hw.up hs)

theorem State.twinIsolate_chg (hw : Within [.regs, .twn] w) (hs : Chg w s0 s) : Chg w s0 (State.twinIsolate s) := by
  unfold State.twinIsolate
  exact State.evt_chg hw.up (State.setTwn_chg hw.up hs)

theorem State.twinIsolated_chg (hw : Within [.regs, .msix, .twn, .mgs, .out] w) (hs : Chg w s0 s) : Chg w s0 (State.twinIsolated s) := by
  unfold State.twinIsolated
  exact State.twinIsolate_chg hw.up (State.twinEvent_chg hw.up hs)

theorem State.twinPrimary_chg (hw : Within [.twn] w) (hs : Chg w s0 s) : Chg w s0 (State.twinPrimary s) := by
  unfold State.twinPrimary
  exact State.setTwn_chg hw.up hs

theorem State.twinSecondary_chg (hw : Within [.twn] w) (hs : Chg w s0 s) : Chg w s0 (State.twinSecondary s) := by
  unfold State.twinSecondary
  exact State.setTwn_chg hw.up hs

theorem State.twinJoin_chg (hw : Within [.vlt, .twn, .inj, .free] w) (hs : Chg w s0 s) : Chg w s0 (State.twinJoin s) := by
  unfold State.twinJoin
  split
  · rename_i y1 y2 e4
    have h3 := Chg2.of (State.trng_chg hw.up hs) e4
    exact State.twinSend_chg hw.up (State.setTwn_chg hw.up h3)

theorem State.twinFault_chg (hw : Within [.regs, .msix, .twn, .mgs, .out] w) (hs : Chg w s0 s) : Chg w s0 (State.twinFault s) := by
  unfold State.twinFault
  exact State.twinEvent_chg hw.up (State.evt_chg hw.up (State.setTwn_chg hw.up hs))

theorem State.twinCfgWrite_chg {m : Nat} {v : Word} (hw : Within [.regs, .twn] w) (hs : Chg w s0 s) : Chg w s0 (State.twinCfgWrite s m v) := by
  unfold State.twinCfgWrite
  extract_lets -underBinder -merge +onlyGivenNames s1 en3 src4 t5
  have h2 : Chg w s0 s1 := State.plainWrite_chg hw.up hs
  exact Chg.ite (State.setTwn_chg hw.up h2) (Chg.ite (State.setTwn_chg hw.up h2) (h2))

theorem State.arbUpdate_chg (hw : Within [.twn] w) (hs : Chg w s0 s) : Chg w s0 (State.arbUpdate s) := by
  unfold State.arbUpdate
  exact Chg.ite (hs) (State.setTwn_chg hw.up hs)

theorem State.arbClaim_chg (hw : Within [.out] w) (hs : Chg w s0 s) : Chg w s0 (State.arbClaim s) := by
  unfold State.arbClaim
  exact Chg.ite (State.emit_chg hw.up hs) (hs)

theorem State.arbClaimSeen_chg (hw : Within [.regs, .msix, .vlt, .twn, .mgs, .inj, .out, .free] w) (hs : Chg w s0 s) : Chg w s0 (State.arbClaimSeen s) := by
  unfold State.arbClaimSeen
  refine Chg.ite ?_ ?_
  · exact hs
  · extract_lets -underBinder -merge +onlyGivenNames src1 s2
    have h3 : Chg w s0 s2 := State.setTwn_chg hw.up hs
    exact Chg.ite (State.twinJoin_chg hw.up h3) (Chg.ite (State.twinEvent_chg hw.up (State.evt_chg hw.up (State.setTwn_chg hw.up h3))) (Chg.ite (State.twinIsolated_chg hw.up h3) (Chg.ite (State.twinJoin_chg hw.up h3) (h3))))

theorem State.arbPresence_chg (hw : Within [.twn, .out] w) (hs : Chg w s0 s) : Chg w s0 (State.arbPresence s) := by
  unfold State.arbPresence
  exact Chg.ite (State.emit_chg hw.up (State.setTwn_chg hw.up hs)) (hs)

theorem State.arbPresenceSeen_chg (hw : Within [.twn] w) (hs : Chg w s0 s) : Chg w s0 (State.arbPresenceSeen s) := by
  unfold State.arbPresenceSeen
  exact Chg.ite (hs) (State.setTwn_chg hw.up hs)

theorem State.pathSilent_chg {miss : Nat} {other : Nat} (hw : Within [.regs, .msix, .mgs, .out] w) (hs : Chg w s0 s) : Chg w s0 (State.pathSilent s miss other) := by
  unfold State.pathSilent
  exact Chg.ite (State.twinEvent_chg hw.up (State.evt_chg hw.up hs)) (hs)

theorem State.hbSend_chg (hw : Within [.regs, .msix, .twn, .mgs, .inj, .out, .free] w) (hs : Chg w s0 s) : Chg w s0 (State.hbSend s) := by
  unfold State.hbSend
  refine Chg.ite ?_ ?_
  · exact hs
  · extract_lets -underBinder -merge +onlyGivenNames t1 seen2 a3 b4 s5 s7
    have h6 : Chg w s0 s5 := State.arbUpdate_chg hw.up (State.setTwn_chg hw.up hs)
    have h8 : Chg w s0 s7 := Chg.ite (State.pathSilent_chg hw.up (State.pathSilent_chg hw.up h6)) (h6)
    split
    · rename_i y9 y10 e12
      have h11 := Chg2.of (State.draw_chg hw.up h8) e12
      extract_lets -underBinder -merge +onlyGivenNames echo13
      exact State.emit_chg hw.up (State.twinSend_chg hw.up h11)

theorem State.hbArrive_chg {line : Bool} (hw : Within [.vlt, .twn, .inj, .free] w) (hs : Chg w s0 s) : Chg w s0 (State.hbArrive s line) := by
  unfold State.hbArrive
  extract_lets -underBinder -merge +onlyGivenNames t1 from2 merge3 s4
  have h5 : Chg w s0 s4 := State.setTwn_chg hw.up hs
  exact Chg.ite (State.twinJoin_chg hw.up h5) (Chg.ite (State.twinJoin_chg hw.up h5) (h5))

theorem State.hbEdge_chg (hw : Within [.vlt, .twn, .inj, .free] w) (hs : Chg w s0 s) : Chg w s0 (State.hbEdge s) := by
  unfold State.hbEdge
  exact Chg.ite (hs) (State.hbArrive_chg hw.up hs)

theorem State.hbLost_chg (hw : Within [.regs, .msix, .twn, .mgs, .out] w) (hs : Chg w s0 s) : Chg w s0 (State.hbLost s) := by
  unfold State.hbLost
  extract_lets -underBinder -merge +onlyGivenNames src1 s2
  have h3 : Chg w s0 s2 := State.setTwn_chg hw.up hs
  exact Chg.ite (State.twinEvent_chg hw.up h3) (Chg.ite (State.twinIsolated_chg hw.up h3) (h3))

theorem State.hbMissed_chg (hw : Within [.regs, .msix, .twn, .mgs, .out] w) (hs : Chg w s0 s) : Chg w s0 (State.hbMissed s) := by
  unfold State.hbMissed
  split
  · exact hs
  · refine Chg.ite ?_ ?_
    · exact hs
    · extract_lets -underBinder -merge +onlyGivenNames src1 s2
      have h3 : Chg w s0 s2 := State.setTwn_chg hw.up hs
      exact Chg.ite (State.hbLost_chg hw.up h3) (h3)

theorem State.twinTime_chg {tx : Nat} {echo : Nat} {hold : Nat} (hw : Within [.twn] w) (hs : Chg w s0 s) : Chg w s0 (State.twinTime s tx echo hold) := by
  unfold State.twinTime
  extract_lets -underBinder -merge +onlyGivenNames d1 e2 t3 step4
  exact State.setTwn_chg hw.up hs

theorem State.cfgCompare_chg {d : List Byte} (hw : Within [.regs, .msix, .twn, .mgs, .out] w) (hs : Chg w s0 s) : Chg w s0 (State.cfgCompare s d) := by
  unfold State.cfgCompare
  extract_lets -underBinder -merge +onlyGivenNames ok1 new2 src3 s4
  have h5 : Chg w s0 s4 := State.setTwn_chg hw.up hs
  exact Chg.ite (State.twinEvent_chg hw.up (State.evt_chg hw.up h5)) (h5)

theorem State.gpioFollow_chg {g : Nat} (hw : Within [.regs] w) (hs : Chg w s0 s) : Chg w s0 (State.gpioFollow s g) := by
  unfold State.gpioFollow
  extract_lets -underBinder -merge +onlyGivenNames m1
  exact State.wr_chg hw.up hs

theorem State.hbRx_chg {prefer : Bool} {b : List Byte} (hw : Within [.regs, .msix, .vlt, .twn, .mgs, .inj, .out, .free] w) (hs : Chg w s0 s) : Chg w s0 (State.hbRx s prefer b) := by
  unfold State.hbRx
  refine State.twinRx_chg hw.up (hs) (fun x5 h6 => ?_)
  · extract_lets -underBinder -merge +onlyGivenNames s7 f9 primary10 src11 s12 s14 s16 s18
    have h8 : Chg w s0 s7 := State.hbArrive_chg hw.up (State.stat_chg hw.up h6)
    have h13 : Chg w s0 s12 := State.setTwn_chg hw.up h8
    have h15 : Chg w s0 s14 := State.arbUpdate_chg hw.up h13
    have h17 : Chg w s0 s16 := Chg.ite (State.gpioFollow_chg hw.up (State.twinTime_chg hw.up h15)) (h15)
    have h19 : Chg w s0 s18 := State.cfgCompare_chg hw.up h17
    exact Chg.ite (State.twinPrimary_chg hw.up h19) (h19)

theorem State.takeover_chg (hw : Within [.regs, .msix, .cfl, .twn, .mgs, .out] w) (hs : Chg w s0 s) : Chg w s0 (State.takeover s) := by
  unfold State.takeover
  extract_lets -underBinder -merge +onlyGivenNames t1
  refine Chg.ite ?_ ?_
  · extract_lets -underBinder -merge +onlyGivenNames s2
    have h3 : Chg w s0 s2 := State.twinEvent_chg hw.up (State.evt_chg hw.up (State.twinPrimary_chg hw.up hs))
    exact Chg.upd_cfl hw.mem h3 _
  · exact hs

theorem State.twinStartWait_chg (hw : Within [.twn] w) (hs : Chg w s0 s) : Chg w s0 (State.twinStartWait s) := by
  unfold State.twinStartWait
  extract_lets -underBinder -merge +onlyGivenNames quiet1
  exact Chg.ite (State.twinPrimary_chg hw.up hs) (hs)

theorem State.twinStartTimeout_chg (hw : Within [.regs, .msix, .twn, .mgs, .out] w) (hs : Chg w s0 s) : Chg w s0 (State.twinStartTimeout s) := by
  unfold State.twinStartTimeout
  exact Chg.ite (State.twinIsolated_chg hw.up hs) (hs)

theorem State.cfgRecord_chg (hw : Within [.twn] w) (hs : Chg w s0 s) : Chg w s0 (State.cfgRecord s) := by
  unfold State.cfgRecord
  exact State.setTwn_chg hw.up hs

theorem State.digestSend_chg (hw : Within [.regs, .twn, .inj, .free] w) (hs : Chg w s0 s) : Chg w s0 (State.digestSend s) := by
  unfold State.digestSend
  extract_lets -underBinder -merge +onlyGivenNames w1
  refine Chg.ite ?_ ?_
  · exact hs
  · split
    · extract_lets -underBinder -merge +onlyGivenNames s2
      have h3 : Chg w s0 s2 := State.stat_chg hw.up (State.twinSend_chg hw.up hs)
      exact State.setTwn_chg hw.up h3

theorem State.winMatch_chg {done : Nat} (hw : Within [.regs, .msix, .twn, .out] w) (hs : Chg w s0 s) : Chg w s0 (State.winMatch s done) := by
  unfold State.winMatch
  extract_lets -underBinder -merge +onlyGivenNames n1 src2 s3
  have h4 : Chg w s0 s3 := State.setTwn_chg hw.up hs
  exact Chg.ite (State.raise_chg hw.up (State.setTwn_chg hw.up h4)) (h4)

theorem State.selfStart_chg {w1 : Nat} (hw : Within [.twn] w) (hs : Chg w s0 s) : Chg w s0 (State.selfStart s w1) := by
  unfold State.selfStart
  exact Chg.ite (State.setTwn_chg hw.up hs) (hs)

theorem State.winCompare_chg {w1 : Nat} (hw : Within [.regs, .msix, .twn, .mgs, .inj, .out, .free] w) (hs : Chg w s0 s) : Chg w s0 (State.winCompare s w1) := by
  unfold State.winCompare
  split
  · refine Chg.ite ?_ ?_
    · exact State.winMatch_chg hw.up hs
    · refine Chg.ite ?_ ?_
      · exact State.winMatch_chg hw.up (State.evt_chg hw.up hs)
      · extract_lets -underBinder -merge +onlyGivenNames src1 s2
        have h3 : Chg w s0 s2 := State.setTwn_chg hw.up hs
        exact State.selfStart_chg hw.up (State.twinEvent_chg hw.up (State.wr_chg hw.up (State.evt_chg hw.up (State.twinSend_chg hw.up h3))))
  · exact State.setTwn_chg hw.up hs

theorem State.digestRx_chg {b : List Byte} (hw : Within [.regs, .msix, .twn, .mgs, .inj, .out, .free] w) (hs : Chg w s0 s) : Chg w s0 (State.digestRx s b) := by
  unfold State.digestRx
  refine State.twinRx_chg hw.up (hs) (fun x5 h6 => ?_)
  · extract_lets -underBinder -merge +onlyGivenNames w7 tab8 src9 s10 fresh12
    have h11 : Chg w s0 s10 := State.setTwn_chg hw.up h6
    exact Chg.ite (State.winCompare_chg hw.up h11) (h11)

theorem State.divergeRx_chg {b : List Byte} (hw : Within [.regs, .twn] w) (hs : Chg w s0 s) : Chg w s0 (State.divergeRx s b) := by
  unfold State.divergeRx
  exact State.twinRx_chg hw.up hs (fun x1 h2 => State.selfStart_chg hw.up (State.wr_chg hw.up h2))

theorem State.selfOutcome_chg {own : Bool} {other : Bool} (hw : Within [.regs, .msix, .vlt, .twn, .mgs, .inj, .out, .free] w) (hs : Chg w s0 s) : Chg w s0 (State.selfOutcome s own other) := by
  unfold State.selfOutcome
  extract_lets -underBinder -merge +onlyGivenNames src1 s2 next4
  have h3 : Chg w s0 s2 := State.setTwn_chg hw.up hs
  exact Chg.ite (Chg.ite (State.logEvt_chg hw.up h3) (Chg.ite (State.setTwn_chg hw.up h3) (h3))) (Chg.ite (Chg.ite (State.twinJoin_chg hw.up h3) (Chg.ite (State.setTwn_chg hw.up h3) (State.twinFault_chg hw.up h3))) (h3))

theorem State.selfDecide_chg (hw : Within [.regs, .msix, .vlt, .twn, .mgs, .inj, .out, .free] w) (hs : Chg w s0 s) : Chg w s0 (State.selfDecide s) := by
  unfold State.selfDecide
  split
  · exact State.selfOutcome_chg hw.up hs
  · exact hs

theorem State.selfDone_chg {vectors : Bool} (hw : Within [.regs, .msix, .vlt, .twn, .mgs, .inj, .out, .free] w) (hs : Chg w s0 s) : Chg w s0 (State.selfDone s vectors) := by
  unfold State.selfDone
  split
  · exact hs
  · refine Chg.ite ?_ ?_
    · exact hs
    · extract_lets -underBinder -merge +onlyGivenNames d1 ok2 s3
      have h4 : Chg w s0 s3 := State.twinSend_chg hw.up hs
      exact State.selfDecide_chg hw.up (State.setTwn_chg hw.up h4)

theorem State.selfRx_chg {b : List Byte} (hw : Within [.regs, .msix, .vlt, .twn, .mgs, .inj, .out, .free] w) (hs : Chg w s0 s) : Chg w s0 (State.selfRx s b) := by
  unfold State.selfRx
  exact State.twinRx_chg hw.up hs (fun x1 h2 => Chg.ite (State.selfDecide_chg hw.up (State.setTwn_chg hw.up h2)) (h2))

theorem State.selfTimeout_chg (hw : Within [.regs, .msix, .vlt, .twn, .mgs, .inj, .out, .free] w) (hs : Chg w s0 s) : Chg w s0 (State.selfTimeout s) := by
  unfold State.selfTimeout
  exact Chg.ite (State.selfOutcome_chg hw.up hs) (hs)

theorem State.roleOffer_chg (hw : Within [.twn, .inj, .free] w) (hs : Chg w s0 s) : Chg w s0 (State.roleOffer s) := by
  unfold State.roleOffer
  refine Chg.ite ?_ ?_
  · extract_lets -underBinder -merge +onlyGivenNames w1
    exact State.twinSend_chg hw.up (State.setTwn_chg hw.up hs)
  · exact hs

theorem State.rotateTimer_chg (hw : Within [.twn, .inj, .free] w) (hs : Chg w s0 s) : Chg w s0 (State.rotateTimer s) := by
  unfold State.rotateTimer
  exact Chg.ite (State.roleOffer_chg hw.up hs) (hs)

theorem State.roleOfferRx_chg {b : List Byte} (hw : Within [.regs, .twn, .inj, .free] w) (hs : Chg w s0 s) : Chg w s0 (State.roleOfferRx s b) := by
  unfold State.roleOfferRx
  exact State.twinRx_chg hw.up hs (fun x1 h2 => Chg.ite (State.twinSend_chg hw.up (State.setTwn_chg hw.up h2)) (h2))

theorem State.roleAcceptRx_chg {b : List Byte} (hw : Within [.regs, .twn] w) (hs : Chg w s0 s) : Chg w s0 (State.roleAcceptRx s b) := by
  unfold State.roleAcceptRx
  exact State.twinRx_chg hw.up hs (fun x1 h2 => Chg.ite (State.setTwn_chg hw.up h2) (h2))

theorem State.roleSwitch_chg (hw : Within [.regs, .msix, .twn, .mgs, .out] w) (hs : Chg w s0 s) : Chg w s0 (State.roleSwitch s) := by
  unfold State.roleSwitch
  extract_lets -underBinder -merge +onlyGivenNames w1
  refine Chg.ite ?_ ?_
  · exact hs
  · refine Chg.ite ?_ ?_
    · extract_lets -underBinder -merge +onlyGivenNames fault2 s3
      have h4 : Chg w s0 s3 := State.twinEvent_chg hw.up (State.evt_chg hw.up (State.twinSecondary_chg hw.up hs))
      exact Chg.ite (State.twinFault_chg hw.up h4) (h4)
    · refine Chg.ite ?_ ?_
      · extract_lets -underBinder -merge +onlyGivenNames s5
        have h6 : Chg w s0 s5 := State.twinEvent_chg hw.up (State.evt_chg hw.up (State.twinPrimary_chg hw.up hs))
        exact State.setTwn_chg hw.up h6
      · exact hs

theorem State.forcePrimary_chg (hw : Within [.twn] w) (hs : Chg w s0 s) : Chg w s0 (State.forcePrimary s) := by
  unfold State.forcePrimary
  exact Chg.ite (State.twinPrimary_chg hw.up hs) (hs)

theorem State.resync_chg (hw : Within [.vlt, .twn, .inj, .free] w) (hs : Chg w s0 s) : Chg w s0 (State.resync s) := by
  unfold State.resync
  exact Chg.ite (State.twinJoin_chg hw.up hs) (hs)

theorem State.twinCmd_chg {v : Word} (hw : Within [.vlt, .twn, .inj, .free] w) (hs : Chg w s0 s) : Chg w s0 (State.twinCmd s v) := by
  unfold State.twinCmd
  extract_lets -underBinder -merge +onlyGivenNames s1 s3 s5
  have h2 : Chg w s0 s1 := Chg.ite (State.roleOffer_chg hw.up hs) (hs)
  have h4 : Chg w s0 s3 := Chg.ite (State.forcePrimary_chg hw.up h2) (h2)
  have h6 : Chg w s0 s5 := Chg.ite (State.roleOffer_chg hw.up h4) (h4)
  exact Chg.ite (State.resync_chg hw.up h6) (h6)

theorem State.shadowAge_chg {c : Nat} (hw : Within [.regs, .msix, .bsn, .can, .mgs, .out] w) (hs : Chg w s0 s) : Chg w s0 (State.shadowAge s c) := by
  unfold State.shadowAge
  extract_lets -underBinder -merge +onlyGivenNames a1 ns2
  exact Chg.ite (State.txlDrop_chg hw.up hs (fun x3 h4 => State.evt_chg hw.up h4)) (hs)

theorem State.attestReqRx_chg {b : List Byte} (hw : Within [.regs, .twn, .inj, .free] w) (hs : Chg w s0 s) : Chg w s0 (State.attestReqRx s b) := by
  unfold State.attestReqRx
  exact State.twinRx_chg hw.up hs (fun x1 h2 => Chg.ite (State.twinSend_chg hw.up h2) (h2))

theorem State.setRst_chg {n : Nat} {e : RstEnt} (hw : Within [.twn] w) (hs : Chg w s0 s) : Chg w s0 (State.setRst s n e) := by
  unfold State.setRst
  exact State.setTwn_chg hw.up hs

theorem State.joinDone_chg (hw : Within [.twn] w) (hs : Chg w s0 s) : Chg w s0 (State.joinDone s) := by
  unfold State.joinDone
  exact Chg.ite (State.twinSecondary_chg hw.up hs) (hs)

theorem State.attestRepRx_chg {b : List Byte} (hw : Within [.regs, .msix, .twn, .mgs, .inj, .out, .free] w) (hs : Chg w s0 s) : Chg w s0 (State.attestRepRx s b) := by
  unfold State.attestRepRx
  refine State.twinRx_chg hw.up (hs) (fun x5 h6 => ?_)
  · split
    · exact h6
    · refine Chg.ite ?_ ?_
      · exact h6
      · extract_lets -underBinder -merge +onlyGivenNames rep7 e8 src9 s10
        have h11 : Chg w s0 s10 := State.setTwn_chg hw.up h6
        exact Chg.ite (State.joinDone_chg hw.up (State.twinSend_chg hw.up (State.setTwn_chg hw.up h11))) (State.twinIsolate_chg hw.up (State.twinEvent_chg hw.up h11))

theorem State.syncReqRx_chg {b : List Byte} (hw : Within [.regs, .twn] w) (hs : Chg w s0 s) : Chg w s0 (State.syncReqRx s b) := by
  unfold State.syncReqRx
  exact State.twinRx_chg hw.up hs (fun x1 h2 => Chg.ite (State.setTwn_chg hw.up h2) (h2))

theorem State.syncCapture_chg (hw : Within [.twn, .inj, .free] w) (hs : Chg w s0 s) : Chg w s0 (State.syncCapture s) := by
  unfold State.syncCapture
  split
  · exact hs
  · refine Chg.ite ?_ ?_
    · exact State.setTwn_chg hw.up hs
    · refine Chg.ite ?_ ?_
      · exact hs
      · extract_lets -underBinder -merge +onlyGivenNames src1 s2 recs4 bodies5
        have h3 : Chg w s0 s2 := State.setTwn_chg hw.up hs
        exact State.twinSend_chg hw.up (Chg.foldl (fun t7 _ h6 => State.twinSend_chg hw.up h6) (h3))

theorem State.syncApply_chg {kind : Nat} {i : Nat} {r : List Byte} (hw : Within [.regs, .msix, .cfl, .vlt, .auth, .mgs, .out] w) (hs : Chg w s0 s) : Chg w s0 (State.syncApply s kind i r) := by
  unfold State.syncApply
  split
  · extract_lets -underBinder -merge +onlyGivenNames f1
    exact State.setSrc_chg hw.up hs
  · extract_lets -underBinder -merge +onlyGivenNames left2 t3
    exact Chg.ite (State.setRxp_chg hw.up hs) (State.setRxp_chg hw.up hs)
  · extract_lets -underBinder -merge +onlyGivenNames pay4
    exact State.setTxp_chg hw.up hs
  · extract_lets -underBinder -merge +onlyGivenNames e5 fv6
    refine Chg.ite ?_ ?_
    · exact hs
    · extract_lets -underBinder -merge +onlyGivenNames s7
      have h8 : Chg w s0 s7 := State.cauSetFv_chg hw.up hs
      exact Chg.ite (State.reserve_chg hw.up h8) (h8)
  · extract_lets -underBinder -merge +onlyGivenNames l9 f10 s11
    have h12 : Chg w s0 s11 := State.wr_chg hw.up (State.wr_chg hw.up hs)
    exact Chg.ite (State.wf_chg hw.up h12) (h12)
  · exact hs

theorem State.syncBody_chg {b : List Byte} (hw : Within [.regs, .msix, .cfl, .vlt, .auth, .mgs, .out] w) (hs : Chg w s0 s) : Chg w s0 (State.syncBody s b) := by
  unfold State.syncBody
  exact Chg2.snd (Chg.foldl2 (fun t2 _ h1 => Chg.pair (State.syncApply_chg hw.up (Chg2.snd (h1)))) (Chg.pair hs))

theorem State.syncDataRx_chg {b : List Byte} (hw : Within [.regs, .twn] w) (hs : Chg w s0 s) : Chg w s0 (State.syncDataRx s b) := by
  unfold State.syncDataRx
  exact State.twinRx_chg hw.up hs (fun x1 h2 => Chg.ite (State.evt_chg hw.up h2) (Chg.ite (State.setTwn_chg hw.up h2) (h2)))

theorem State.syncEndRx_chg {b : List Byte} (hw : Within [.regs, .msix, .cfl, .vlt, .auth, .twn, .mgs, .inj, .out, .free] w) (hs : Chg w s0 s) : Chg w s0 (State.syncEndRx s b) := by
  unfold State.syncEndRx
  refine State.twinRx_chg hw.up (hs) (fun x5 h6 => ?_)
  · refine Chg.ite ?_ ?_
    · exact h6
    · refine Chg.ite ?_ ?_
      · extract_lets -underBinder -merge +onlyGivenNames s7
        have h8 : Chg w s0 s7 := Chg.foldl (fun t10 _ h9 => State.syncBody_chg hw.up h9) (h6)
        exact State.joinDone_chg hw.up (State.setTwn_chg hw.up h8)
      · exact State.twinJoin_chg hw.up h6

theorem State.rosterCheck_chg (hw : Within [.vlt, .twn] w) (hs : Chg w s0 s) : Chg w s0 (State.rosterCheck s) := by
  unfold State.rosterCheck
  refine Chg.ite ?_ ?_
  · exact hs
  · refine Chg.foldl (fun s6 x11 h5 => ?_) (hs)
    split
    · rename_i y7 y8 e10
      have h9 := Chg2.of (State.trng_chg hw.up h5) e10
      exact State.setTwn_chg hw.up h9

theorem State.rosterSet_chg {n : Nat} {e : RstEnt} (hw : Within [.regs, .msix, .twn, .mgs, .out] w) (hs : Chg w s0 s) : Chg w s0 (State.rosterSet s n e) := by
  unfold State.rosterSet
  extract_lets -underBinder -merge +onlyGivenNames was1 src2 s3
  have h4 : Chg w s0 s3 := State.setTwn_chg hw.up (State.setRst_chg hw.up hs)
  exact Chg.ite (h4) (State.logEvt_chg hw.up (State.raise_chg hw.up h4))

theorem State.rosterReport_chg {n : Nat} {rep : List Byte} (hw : Within [.regs, .msix, .twn, .mgs, .out] w) (hs : Chg w s0 s) : Chg w s0 (State.rosterReport s n rep) := by
  unfold State.rosterReport
  split
  · exact hs
  · extract_lets -underBinder -merge +onlyGivenNames e1
    refine Chg.ite ?_ ?_
    · exact hs
    · refine Chg.ite ?_ ?_
      · extract_lets -underBinder -merge +onlyGivenNames f2
        exact State.rosterSet_chg hw.up hs
      · exact Chg.ite (hs) (Chg.ite (State.rosterSet_chg hw.up hs) (Chg.ite (State.rosterSet_chg hw.up hs) (Chg.ite (State.rosterSet_chg hw.up hs) (State.rosterSet_chg hw.up hs))))

theorem State.rosterAdd_chg {arg : List Byte} (hw : Within [.twn] w) (hs : Chg w s0 s) : ∀ t, State.rosterAdd s arg = some t → Chg w s0 t := by
  intro t ht
  unfold State.rosterAdd at ht
  extract_lets n f at ht
  split at ht
  · cases ht
  · cases ht; exact State.setRst_chg hw.up hs

theorem State.rosterRemove_chg {arg : List Byte} (hw : Within [.twn] w) (hs : Chg w s0 s) : ∀ t, State.rosterRemove s arg = some t → Chg w s0 t := by
  intro t ht
  unfold State.rosterRemove at ht
  extract_lets n at ht
  split at ht
  · cases ht
  · cases ht; exact State.setRst_chg hw.up hs

theorem State.rosterReplace_chg {arg : List Byte} (hw : Within [.twn] w) (hs : Chg w s0 s) : ∀ t, State.rosterReplace s arg = some t → Chg w s0 t := by
  intro t ht
  unfold State.rosterReplace at ht
  extract_lets n at ht
  split at ht
  · cases ht
  · cases ht; exact State.setRst_chg hw.up hs

theorem State.counterReserve_chg (hw : Within [.regs, .msix, .fgd, .vlt, .auth, .mgs, .inj, .out] w) (hs : Chg w s0 s) : Chg w s0 (State.counterReserve s) := by
  unfold State.counterReserve
  split
  · exact hs
  · extract_lets -underBinder -merge +onlyGivenNames src1 s2
    have h3 : Chg w s0 s2 := State.ringAppend_chg hw.up (Chg.upd_vlt hw.mem hs ⟨Nat.le_refl _, fun _ => Nat.le_refl _⟩)
    split
    · exact State.fgdReserved_chg hw.up h3
    · extract_lets -underBinder -merge +onlyGivenNames a4
      exact Chg.ite (h3) (State.setSa_chg hw.up h3)
    · extract_lets -underBinder -merge +onlyGivenNames e5
      exact Chg.ite (h3) (State.setCau_chg hw.up h3)
    · exact h3

theorem State.journalFull_chg {live : Nat} (hw : Within [.regs, .msix, .mgs, .out] w) (hs : Chg w s0 s) : Chg w s0 (State.journalFull s live) := by
  unfold State.journalFull
  exact State.logMgmt_chg hw.up (State.raise_chg hw.up (Chg.upd_mgs hw.mem hs ⟨Nat.le_refl _, Nat.le_refl _, Nat.le_refl _, Nat.le_refl _⟩))

theorem State.settingsReset_chg (hw : Within [.mgs] w) (hs : Chg w s0 s) : Chg w s0 (State.settingsReset s) := by
  unfold State.settingsReset
  extract_lets -underBinder -merge +onlyGivenNames old1 own2
  exact Chg.foldl (fun t4 _ h3 => State.logMgmt_chg hw.up h3) (hs)

theorem State.oldFormatsGone_chg (hw : Within [.mgs] w) (hs : Chg w s0 s) : Chg w s0 (State.oldFormatsGone s) := by
  unfold State.oldFormatsGone
  exact Chg.upd_mgs hw.mem hs ⟨Nat.le_refl _, Nat.le_refl _, Nat.le_refl _, Nat.le_refl _⟩

theorem State.journalCut_chg {bad : Option Nat} (hw : Within [.mgs] w) (hs : Chg w s0 s) : Chg w s0 (State.journalCut s bad) := by
  unfold State.journalCut
  split
  · exact hs
  · exact Chg.upd_mgs hw.mem hs ⟨Nat.le_refl _, Nat.le_refl _, Nat.le_refl _, Nat.le_refl _⟩

theorem State.journalAdd_chg {b : JBody} (hw : Within [.regs, .msix, .mgs, .out] w) (hs : Chg w s0 s) : Chg2 w s0 (State.journalAdd s b) := by
  unfold State.journalAdd
  extract_lets -underBinder -merge +onlyGivenNames r1 l2 live3
  exact Chg.ite2 (Chg.pair (State.journalFull_chg hw.up hs)) (Chg.pair (Chg.upd_mgs hw.mem hs ⟨Nat.le_refl _, Nat.le_refl _, Nat.le_refl _, Nat.le_succ _⟩))

theorem State.setResv_chg {i : Nat} {r : Resv} (hw : Within [.bud] w) (hs : Chg w s0 s) : Chg w s0 (State.setResv s i r) := by
  unfold State.setResv
  exact Chg.upd_bud hw.mem hs _

theorem State.envelopes_chg {h : Nat} (hw : Within [.meters] w) (hs : Chg w s0 s) : Chg w s0 (State.envelopes s h) := by
  unfold State.envelopes
  extract_lets -underBinder -merge +onlyGivenNames l1 low2
  refine Chg.foldl (fun s6 x7 h5 => ?_) (hs)
  split
  · exact State.meterSet_chg hw.up h5

theorem State.meterOff_chg {i : Nat} (hw : Within [.meters] w) (hs : Chg w s0 s) : Chg w s0 (State.meterOff s i) := by
  unfold State.meterOff
  extract_lets -underBinder -merge +onlyGivenNames m1
  exact State.meterSet_chg hw.up hs

theorem State.rebound_chg {p : Nat} (hw : Within [.bud] w) (hs : Chg w s0 s) : Chg w s0 (State.rebound s p) := by
  unfold State.rebound
  extract_lets -underBinder -merge +onlyGivenNames l1
  refine Chg.foldl (fun s5 x6 h4 => ?_) (hs)
  split
  · exact State.setResv_chg hw.up h4

theorem State.journalResv_chg {i : Nat} (hw : Within [.regs, .msix, .mgs, .out] w) (hs : Chg w s0 s) : Chg w s0 (State.journalResv s i) := by
  unfold State.journalResv
  exact Chg2.snd (State.journalAdd_chg hw.up hs)

theorem State.resvFree_chg {i : Nat} (hw : Within [.regs, .msix, .meters, .bud, .mgs, .out] w) (hs : Chg w s0 s) : Chg w s0 (State.resvFree s i) := by
  unfold State.resvFree
  extract_lets -underBinder -merge +onlyGivenNames r1
  exact State.journalResv_chg hw.up (State.rebound_chg hw.up (State.envelopes_chg hw.up (State.setResv_chg hw.up (State.meterOff_chg hw.up hs))))

theorem State.boundLost_chg {i : Nat} (hw : Within [.regs, .msix, .mgs, .out] w) (hs : Chg w s0 s) : Chg w s0 (State.boundLost s i) := by
  unfold State.boundLost
  exact State.logEvt_chg hw.up (State.raise_chg hw.up hs)

theorem State.recheck1_chg {up : Bool} {l : List Resv} {i : Nat} (hw : Within [.regs, .msix, .bud, .mgs, .out] w) (hs : Chg w s0 s) : Chg w s0 (State.recheck1 s up l i) := by
  unfold State.recheck1
  extract_lets -underBinder -merge +onlyGivenNames r1 ok2 go3
  have h4 : ∀ z5 z7, Chg w s0 z5 → Chg w s0 (go3 z5 z7) := by
    intro z5 z7 h6
    unfold go3
    exact State.setResv_chg hw.up h6
  split
  · exact hs
  · exact hs
  · exact Chg.ite (State.raise_chg hw.up (h4 _ _ (hs))) (State.boundLost_chg hw.up (h4 _ _ (hs)))
  · exact h4 _ _ (hs)
  · exact Chg.ite (hs) (State.wr_chg hw.up (State.evt_chg hw.up (State.boundLost_chg hw.up (h4 _ _ (hs)))))
  · exact h4 _ _ (hs)
  · exact Chg.ite (h4 _ _ (hs)) (hs)

theorem State.recheckPort_chg {p : Nat} (hw : Within [.regs, .msix, .bud, .mgs, .out] w) (hs : Chg w s0 s) : Chg w s0 (State.recheckPort s p) := by
  unfold State.recheckPort
  extract_lets -underBinder -merge +onlyGivenNames s1 l3
  have h2 : Chg w s0 s1 := State.rebound_chg hw.up hs
  exact Chg.foldl (fun t5 _ h4 => State.recheck1_chg hw.up h4) (h2)

theorem State.budLinkDown_chg {p : Nat} (hw : Within [.bud] w) (hs : Chg w s0 s) : Chg w s0 (State.budLinkDown s p) := by
  unfold State.budLinkDown
  exact State.budDue_chg hw.up (Chg.foldl (fun t2 _ h1 => Chg.ite (h1) (State.setResv_chg hw.up h1)) (hs))

theorem State.budDueAll_chg (hw : Within [.bud] w) (hs : Chg w s0 s) : Chg w s0 (State.budDueAll s) := by
  unfold State.budDueAll
  exact Chg.foldl (fun t2 _ h1 => State.budDue_chg hw.up h1) (hs)

theorem State.budRequest_chg {c : BudCmd} {query : Bool} (hw : Within [.regs, .msix, .meters, .bud, .mgs, .out, .free] w) (hs : Chg w s0 s) : Chg2 w s0 (State.budRequest s c query) := by
  unfold State.budRequest
  split
  · exact Chg.pair hs
  · extract_lets -underBinder -merge +onlyGivenNames p1
    refine Chg.ite2 ?_ ?_
    · split
      · rename_i y2 y3 e5
        have h4 := Chg2.of (State.draw_chg hw.up hs) e5
        exact Chg.pair (Chg.ite (h4) (State.stat_chg hw.up h4))
    · split
      · refine Chg.ite2 ?_ ?_
        · extract_lets -underBinder -merge +onlyGivenNames more6 s7 s9
          have h8 : Chg w s0 s7 := Chg.ite (hs) (State.stat_chg hw.up hs)
          have h10 : Chg w s0 s9 := Chg.ite (State.raise_chg hw.up h8) (h8)
          exact Chg.pair h10
        · extract_lets -underBinder -merge +onlyGivenNames up11 verdict12
          split
          · extract_lets -underBinder -merge +onlyGivenNames s13 s15
            have h14 : Chg w s0 s13 := State.setResv_chg hw.up hs
            have h16 : Chg w s0 s15 := State.journalResv_chg hw.up (State.stat_chg hw.up (State.rebound_chg hw.up (State.envelopes_chg hw.up h14)))
            exact Chg.pair h16
          · exact Chg.pair hs

theorem State.budRun_chg {c : BudCmd} (hw : Within [.regs, .msix, .meters, .bud, .mgs, .out, .free] w) (hs : Chg w s0 s) : Chg2 w s0 (State.budRun s c) := by
  unfold State.budRun
  refine Chg.ite2 ?_ ?_
  · exact Chg.pair hs
  · split
    · exact State.budRequest_chg hw.up hs
    · exact Chg.ite2 (Chg.pair hs) (Chg.pair (State.resvFree_chg hw.up hs))
    · extract_lets -underBinder -merge +onlyGivenNames r1
      exact Chg.ite2 (Chg.pair hs) (Chg.pair hs)
    · extract_lets -underBinder -merge +onlyGivenNames p2 s3
      have h4 : Chg w s0 s3 := State.recheckPort_chg hw.up hs
      exact Chg.pair h4
    · exact State.budRequest_chg hw.up hs
    · exact Chg.pair hs

theorem State.budStart_chg (hw : Within [.regs, .slots, .msix, .meters, .bud, .mgs, .out, .free] w) (hs : Chg w s0 s) : Chg w s0 (State.budStart s) := by
  unfold State.budStart
  split
  · split
    · rename_i y1 y2 e4
      have h3 := Chg2.of (State.budRun_chg hw.up (Chg.upd_bud hw.mem hs _)) e4
      exact State.holdRes_chg hw.up h3
  · exact hs

theorem State.budCmd_chg {m : Nat} {v : Word} (hw : Within [.regs, .slots, .msix, .meters, .bud, .mgs, .out, .free] w) (hs : Chg w s0 s) : Chg w s0 (State.budCmd s m v) := by
  unfold State.budCmd
  refine State.command_chg hw.up (hs) (fun x5 h6 => ?_)
  · extract_lets -underBinder -merge +onlyGivenNames a7 c8
    exact State.budStart_chg hw.up (Chg.upd_bud hw.mem h6 _)

theorem State.budDone_chg (hw : Within [.regs, .slots, .msix, .meters, .bud, .mgs, .svc, .out, .free] w) (hs : Chg w s0 s) : Chg w s0 (State.budDone s) := by
  unfold State.budDone
  split
  · extract_lets -underBinder -merge +onlyGivenNames src1 s2
    have h3 : Chg w s0 s2 := (show ∀ v0 v1, (s.free ≤ v1) → Chg w s0 { s with bud := v0, free := v1 } from fun v0 v1 c1 => Chg.upd_free hw.mem (Chg.upd_bud hw.mem hs v0) c1) _ _ (Nat.le_succ _)
    exact State.budStart_chg hw.up (State.publish_chg hw.up h3)
  · exact hs

theorem State.budAuto_chg {p : Nat} (hw : Within [.regs, .slots, .msix, .meters, .bud, .mgs, .out, .free] w) (hs : Chg w s0 s) : Chg w s0 (State.budAuto s p) := by
  unfold State.budAuto
  split
  · exact Chg.ite (State.budStart_chg hw.up (State.recheckPort_chg hw.up (Chg.upd_bud hw.mem hs _))) (hs)
  · exact hs

theorem State.budCfgWrite_chg {m : Nat} {v : Word} (hw : Within [.regs, .meters] w) (hs : Chg w s0 s) : Chg w s0 (State.budCfgWrite s m v) := by
  unfold State.budCfgWrite
  extract_lets -underBinder -merge +onlyGivenNames was1
  refine Chg.ite ?_ ?_
  · exact State.evt_chg hw.up hs
  · extract_lets -underBinder -merge +onlyGivenNames s2
    have h3 : Chg w s0 s2 := State.plainWrite_chg hw.up hs
    exact Chg.ite (Chg.foldl (fun t5 _ h4 => State.meterOff_chg hw.up h4) (h3)) (h3)

end Sys2Proof.Machine
end

