-- ==== Sys2Proof/Laws/ChgHost.lean ====
section
/-! SUPPORT. What the operations of the egress ports, the host interface and the Service Cluster can change: one lemma each. -/

set_option Elab.async false

namespace Sys2Proof.Machine

variable {w : List Area} {s0 s : State}

theorem State.setPart_chg {n : Nat} {p : Part} (hw : Within [.svc] w) (hs : Chg w s0 s) : Chg w s0 (State.setPart s n p) := by
  unfold State.setPart
  exact Chg.upd_svc hw.mem hs _

theorem State.pmpSet_chg {cores : Nat} {l : List Pmp} (hw : Within [.svc] w) (hs : Chg w s0 s) : Chg w s0 (State.pmpSet s cores l) := by
  unfold State.pmpSet
  exact Chg.upd_svc hw.mem hs _

theorem State.preemptSet_chg {p : Nat} {on : Bool} (hw : Within [.regs, .egr, .bud] w) (hs : Chg w s0 s) : Chg w s0 (State.preemptSet s p on) := by
  unfold State.preemptSet
  refine Chg.ite ?_ ?_
  · exact hs
  · extract_lets -underBinder -merge +onlyGivenNames s1
    have h2 : Chg w s0 s1 := State.budDue_chg hw.up (State.wf_chg hw.up (State.creditSync_chg hw.up hs))
    exact Chg.ite (h2) (State.setEg_chg hw.up h2)

theorem State.verifyStart_chg {p : Nat} (hw : Within [.regs, .egr, .bud, .out] w) (hs : Chg w s0 s) : Chg w s0 (State.verifyStart s p) := by
  unfold State.verifyStart
  extract_lets -underBinder -merge +onlyGivenNames cfg1
  refine Chg.ite ?_ ?_
  · exact State.preemptSet_chg hw.up (State.wf_chg hw.up hs)
  · refine Chg.ite ?_ ?_
    · exact State.preemptSet_chg hw.up (State.wf_chg hw.up hs)
    · extract_lets -underBinder -merge +onlyGivenNames s2
      have h3 : Chg w s0 s2 := State.preemptSet_chg hw.up (State.wf_chg hw.up hs)
      exact State.emit_chg hw.up (State.setEg_chg hw.up h3)

theorem State.verifyTimer_chg {p : Nat} (hw : Within [.regs, .msix, .egr, .out] w) (hs : Chg w s0 s) : Chg w s0 (State.verifyTimer s p) := by
  unfold State.verifyTimer
  exact Chg.ite (hs) (Chg.ite (State.emit_chg hw.up (State.setEg_chg hw.up hs)) (State.raise_chg hw.up (State.evt_chg hw.up (State.wf_chg hw.up hs))))

theorem State.verifyRespond_chg {p : Nat} (hw : Within [.regs, .egr, .bud] w) (hs : Chg w s0 s) : Chg w s0 (State.verifyRespond s p) := by
  unfold State.verifyRespond
  exact Chg.ite (State.preemptSet_chg hw.up (State.wf_chg hw.up hs)) (hs)

theorem State.pauseEnd_chg {p : Nat} (hw : Within [.regs, .egr] w) (hs : Chg w s0 s) : Chg w s0 (State.pauseEnd s p) := by
  unfold State.pauseEnd
  exact Chg.ite (State.wf_chg hw.up (State.wf_chg hw.up (State.creditSync_chg hw.up hs))) (hs)

theorem State.pauseSet_chg {p : Nat} {n : Nat} (hw : Within [.regs, .msix, .egr, .out] w) (hs : Chg w s0 s) : Chg w s0 (State.pauseSet s p n) := by
  unfold State.pauseSet
  refine Chg.ite ?_ ?_
  · exact State.pauseEnd_chg hw.up hs
  · extract_lets -underBinder -merge +onlyGivenNames s1 s3
    have h2 : Chg w s0 s1 := Chg.ite (hs) (State.raise_chg hw.up (State.creditSync_chg hw.up hs))
    have h4 : Chg w s0 s3 := State.wf_chg hw.up (State.wf_chg hw.up h2)
    exact State.setEg_chg hw.up h4

theorem State.macTake_chg {p : Nat} {b : List Byte} {fcsOk : Bool} (hw : Within [.regs, .msix, .egr, .out] w) (hs : Chg w s0 s) : Chg w s0 (State.macTake s p b fcsOk) := by
  unfold State.macTake
  refine Chg.ite ?_ ?_
  · extract_lets -underBinder -merge +onlyGivenNames s1
    have h2 : Chg w s0 s1 := State.stat_chg hw.up hs
    exact Chg.ite (State.pauseSet_chg hw.up h2) (h2)
  · exact State.evt_chg hw.up hs

theorem State.macControl_chg {p : Nat} {b : List Byte} {fcsOk : Bool} (hw : Within [.regs, .msix, .egr, .out] w) (hs : Chg w s0 s) : Chg w s0 (State.macControl s p b fcsOk) := by
  unfold State.macControl
  exact Chg.ite (State.macTake_chg hw.up (State.countRx_chg hw.up hs)) (hs)

theorem State.txAbort_chg {p : Nat} {x : Option Tx} (hw : Within [.regs, .msix, .bsn, .mgs, .out] w) (hs : Chg w s0 s) : Chg w s0 (State.txAbort s p x) := by
  unfold State.txAbort
  split
  · extract_lets -underBinder -merge +onlyGivenNames s1
    have h2 : Chg w s0 s1 := by
      unfold s1
      split
      · exact Chg.ite (State.rxAbort_chg hw.up hs) (hs)
      · exact hs
    exact State.copyDone_chg hw.up (State.evt_chg hw.up h2)
  · exact hs

theorem State.portLost_chg {p : Nat} (hw : Within [.regs, .msix, .bsn, .meters, .egr, .bud, .fre, .fgd, .had, .ept, .vlt, .auth, .mgs, .inj, .out, .free] w) (hs : Chg w s0 s) : Chg w s0 (State.portLost s p) := by
  unfold State.portLost
  extract_lets -underBinder -merge +onlyGivenNames s1 e3 s4 src6 s7 s9 s11 s13
  have h2 : Chg w s0 s1 := State.creditSync_chg hw.up hs
  have h5 : Chg w s0 s4 := State.setEg_chg hw.up h2
  have h8 : Chg w s0 s7 := State.setEport_chg hw.up h5
  have h10 : Chg w s0 s9 := State.txAbort_chg hw.up (State.txAbort_chg hw.up h8)
  have h12 : Chg w s0 s11 := State.abortArrival_chg hw.up (State.abortArrival_chg hw.up h10)
  have h14 : Chg w s0 s13 := State.budLinkDown_chg hw.up (State.wr_chg hw.up h12)
  exact Chg.ite (State.hadLinkDown_chg hw.up h14) (h14)

theorem State.portGained_chg {p : Nat} (hw : Within [.regs, .msix, .egr, .bud, .had, .vlt, .auth, .mgs, .inj, .out] w) (hs : Chg w s0 s) : Chg w s0 (State.portGained s p) := by
  unfold State.portGained
  extract_lets -underBinder -merge +onlyGivenNames s1
  have h2 : Chg w s0 s1 := State.verifyStart_chg hw.up (State.budDue_chg hw.up (State.creditSync_chg hw.up hs))
  exact Chg.ite (State.hadLinkUp_chg hw.up h2) (h2)

theorem State.egsPortWrite_chg {m : Nat} {p : Nat} {v : Word} (hw : Within [.regs, .egr, .bud, .out] w) (hs : Chg w s0 s) : Chg w s0 (State.egsPortWrite s m p v) := by
  unfold State.egsPortWrite
  extract_lets -underBinder -merge +onlyGivenNames old1 s2 new4 s5
  have h3 : Chg w s0 s2 := State.budDue_chg hw.up (State.plainWrite_chg hw.up hs)
  have h6 : Chg w s0 s5 := Chg.ite (State.verifyStart_chg hw.up h3) (h3)
  exact Chg.ite (h6) (State.pauseEnd_chg hw.up h6)

theorem State.egsTcWrite_chg {m : Nat} {p : Nat} {k : Nat} {v : Word} (hw : Within [.regs, .msix, .egr, .bud, .out] w) (hs : Chg w s0 s) : Chg w s0 (State.egsTcWrite s m p k v) := by
  unfold State.egsTcWrite
  extract_lets -underBinder -merge +onlyGivenNames was1 s2
  have h3 : Chg w s0 s2 := State.budDue_chg hw.up (State.plainWrite_chg hw.up (State.creditSync_chg hw.up hs))
  exact Chg.ite (State.raise_chg hw.up (State.evt_chg hw.up h3)) (h3)

theorem State.egsSlopeWrite_chg {m : Nat} {p : Nat} {k : Nat} {v : Word} (hw : Within [.regs, .egr, .bud] w) (hs : Chg w s0 s) : Chg w s0 (State.egsSlopeWrite s m p k v) := by
  unfold State.egsSlopeWrite
  exact State.budDue_chg hw.up (State.plainWrite_chg hw.up (State.creditSync_chg hw.up hs))

theorem State.bsnCfgWrite_chg {m : Nat} {v : Word} (hw : Within [.regs, .bud] w) (hs : Chg w s0 s) : Chg w s0 (State.bsnCfgWrite s m v) := by
  unfold State.bsnCfgWrite
  exact State.budDueAll_chg hw.up (State.plainWrite_chg hw.up hs)

theorem State.rsvRej_chg (hw : Within [.regs, .msix, .out] w) (hs : Chg w s0 s) : Chg w s0 (State.rsvRej s) := by
  unfold State.rsvRej
  exact State.raise_chg hw.up (State.evt_chg hw.up hs)

theorem State.qcfgSet_chg {m : Nat} {q : Nat} {v : Word} (hw : Within [.regs, .msix, .bud, .mgs, .out] w) (hs : Chg w s0 s) : Chg w s0 (State.qcfgSet s m q v) := by
  unfold State.qcfgSet
  refine Chg.ite ?_ ?_
  · exact State.rsvRej_chg hw.up hs
  · extract_lets -underBinder -merge +onlyGivenNames s1
    have h2 : Chg w s0 s1 := State.quotaScan_chg hw.up (State.plainWrite_chg hw.up hs)
    exact Chg.ite (State.budDue_chg hw.up h2) (h2)

theorem State.headroomSet_chg {m : Nat} {v : Word} (hw : Within [.regs, .msix, .out] w) (hs : Chg w s0 s) : Chg w s0 (State.headroomSet s m v) := by
  unfold State.headroomSet
  exact Chg.ite (State.rsvRej_chg hw.up hs) (State.plainWrite_chg hw.up hs)

theorem State.qcfgWrite_chg {m : Nat} {a : Nat} {v : Word} (hw : Within [.regs, .msix, .bud, .mgs, .out] w) (hs : Chg w s0 s) : Chg w s0 (State.qcfgWrite s m a v) := by
  unfold State.qcfgWrite
  exact Chg.ite (State.headroomSet_chg hw.up hs) (State.qcfgSet_chg hw.up hs)

theorem State.seedApply_chg (hw : Within [.bsn] w) (hs : Chg w s0 s) : Chg w s0 (State.seedApply s) := by
  unfold State.seedApply
  exact Chg.ite (Chg.upd_bsn hw.mem hs _) (hs)

theorem State.flowSeedWrite_chg {m : Nat} {v : Word} (hw : Within [.regs, .bsn] w) (hs : Chg w s0 s) : Chg w s0 (State.flowSeedWrite s m v) := by
  unfold State.flowSeedWrite
  exact State.seedApply_chg hw.up (State.plainWrite_chg hw.up hs)

theorem State.edyRateWrite_chg {m : Nat} {i : Nat} {v : Word} (hw : Within [.regs] w) (hs : Chg w s0 s) : Chg w s0 (State.edyRateWrite s m i v) := by
  unfold State.edyRateWrite
  exact State.wf_chg hw.up (State.plainWrite_chg hw.up hs)

theorem State.auditStart_chg (hw : Within [.bsn] w) (hs : Chg w s0 s) : Chg w s0 (State.auditStart s) := by
  unfold State.auditStart
  exact Chg.upd_bsn hw.mem hs _

theorem State.auditDue_chg (hw : Within [.regs, .msix, .bsn, .out] w) (hs : Chg w s0 s) : Chg w s0 (State.auditDue s) := by
  unfold State.auditDue
  exact Chg.ite (hs) (Chg.ite (State.raise_chg hw.up (Chg.upd_bsn hw.mem hs _)) (State.auditStart_chg hw.up hs))

theorem State.rakeDouble_chg {c : Nat} (hw : Within [.regs, .msix, .mgs, .out] w) (hs : Chg w s0 s) : Chg w s0 (State.rakeDouble s c) := by
  unfold State.rakeDouble
  exact Chg.ite (State.logEvt_chg hw.up (State.wr_chg hw.up (State.raise_chg hw.up (State.evt_chg hw.up hs)))) (hs)

theorem State.rakeReclaim_chg {c : Nat} (hw : Within [.regs, .msix, .mgs, .out] w) (hs : Chg w s0 s) : Chg w s0 (State.rakeReclaim s c) := by
  unfold State.rakeReclaim
  exact State.logEvt_chg hw.up (State.wr_chg hw.up (State.raise_chg hw.up (State.stat_chg hw.up hs)))

theorem State.auditDone_chg {unmarked : List Nat} {doubled : List Nat} {broken : Bool} {beyond : List Nat} (hw : Within [.regs, .msix, .bsn, .mgs, .out] w) (hs : Chg w s0 s) : Chg w s0 (State.auditDone s unmarked doubled broken beyond) := by
  unfold State.auditDone
  refine Chg.ite ?_ ?_
  · exact hs
  · extract_lets -underBinder -merge +onlyGivenNames s1 s5 used7 found8 back9 s10 s14 left16 again17 src18 s19
    have h2 : Chg w s0 s1 := Chg.foldl (fun t4 _ h3 => State.rakeDouble_chg hw.up h3) (hs)
    have h6 : Chg w s0 s5 := Chg.ite (State.logEvt_chg hw.up (State.raise_chg hw.up (State.evt_chg hw.up h2))) (h2)
    have h11 : Chg w s0 s10 := Chg.foldl (fun t13 _ h12 => State.rakeReclaim_chg hw.up h12) (h6)
    have h15 : Chg w s0 s14 := State.stat_chg hw.up h11
    have h20 : Chg w s0 s19 := Chg.upd_bsn hw.mem h15 _
    exact Chg.ite (State.auditStart_chg hw.up h20) (h20)

theorem State.trainEnter_chg {p : Nat} (hw : Within [.ept] w) (hs : Chg w s0 s) : Chg w s0 (State.trainEnter s p) := by
  unfold State.trainEnter
  extract_lets -underBinder -merge +onlyGivenNames e1 taps2
  exact State.setEport_chg hw.up hs

theorem State.train_chg {p : Nat} (hw : Within [.ept] w) (hs : Chg w s0 s) : Chg w s0 (State.train s p) := by
  unfold State.train
  exact Chg.ite (State.trainEnter_chg hw.up hs) (hs)

theorem State.linkDrop_chg {p : Nat} {quiet : Bool} (hw : Within [.regs, .msix, .bsn, .meters, .egr, .bud, .fre, .fgd, .had, .ept, .vlt, .auth, .mgs, .inj, .out, .free] w) (hs : Chg w s0 s) : Chg w s0 (State.linkDrop s p quiet) := by
  unfold State.linkDrop
  extract_lets -underBinder -merge +onlyGivenNames was1
  refine Chg.ite ?_ ?_
  · exact hs
  · extract_lets -underBinder -merge +onlyGivenNames src2 s3 s5
    have h4 : Chg w s0 s3 := State.setEport_chg hw.up (State.creditSync_chg hw.up hs)
    have h6 : Chg w s0 s5 := Chg.ite (State.portLost_chg hw.up h4) (h4)
    exact Chg.ite (h6) (State.raise_chg hw.up (State.evt_chg hw.up h6))

theorem State.linkRestart_chg {p : Nat} (hw : Within [.regs, .msix, .bsn, .meters, .egr, .bud, .fre, .fgd, .had, .ept, .vlt, .auth, .mgs, .inj, .out, .free] w) (hs : Chg w s0 s) : Chg w s0 (State.linkRestart s p) := by
  unfold State.linkRestart
  exact State.train_chg hw.up (State.linkDrop_chg hw.up hs)

theorem State.linkEnterUp_chg {p : Nat} (hw : Within [.regs, .msix, .egr, .bud, .had, .ept, .vlt, .auth, .pwr, .mgs, .inj, .out] w) (hs : Chg w s0 s) : Chg w s0 (State.linkEnterUp s p) := by
  unfold State.linkEnterUp
  extract_lets -underBinder -merge +onlyGivenNames s1
  have h2 : Chg w s0 s1 := Chg.ite (State.confirmSrc_chg hw.up hs) (hs)
  exact State.portGained_chg hw.up (State.raise_chg hw.up (State.setEport_chg hw.up (State.creditSync_chg hw.up h2)))

theorem State.pcsUp_chg {p : Nat} (hw : Within [.regs, .msix, .egr, .bud, .had, .ept, .vlt, .auth, .pwr, .mgs, .inj, .out] w) (hs : Chg w s0 s) : Chg w s0 (State.pcsUp s p) := by
  unfold State.pcsUp
  exact Chg.ite (hs) (Chg.ite (State.linkEnterUp_chg hw.up hs) (State.setEport_chg hw.up hs))

theorem State.holdExpire_chg {p : Nat} (hw : Within [.regs, .msix, .egr, .bud, .had, .ept, .vlt, .auth, .pwr, .mgs, .inj, .out] w) (hs : Chg w s0 s) : Chg w s0 (State.holdExpire s p) := by
  unfold State.holdExpire
  exact Chg.ite (State.linkEnterUp_chg hw.up hs) (hs)

theorem State.pcsDown_chg {p : Nat} (hw : Within [.regs, .msix, .bsn, .meters, .egr, .bud, .fre, .fgd, .had, .ept, .vlt, .auth, .mgs, .inj, .out, .free] w) (hs : Chg w s0 s) : Chg w s0 (State.pcsDown s p) := by
  unfold State.pcsDown
  exact Chg.ite (State.trainEnter_chg hw.up hs) (Chg.ite (State.linkRestart_chg hw.up hs) (hs))

theorem State.trainTimeout_chg {p : Nat} (hw : Within [.regs, .msix, .ept, .out] w) (hs : Chg w s0 s) : Chg w s0 (State.trainTimeout s p) := by
  unfold State.trainTimeout
  exact Chg.ite (State.raise_chg hw.up (State.evt_chg hw.up (State.trainEnter_chg hw.up hs))) (hs)

theorem State.eptEnabled_chg {p : Nat} (hw : Within [.regs, .msix, .bsn, .meters, .egr, .bud, .fre, .fgd, .had, .ept, .vlt, .auth, .mgs, .inj, .out, .free] w) (hs : Chg w s0 s) : Chg w s0 (State.eptEnabled s p) := by
  unfold State.eptEnabled
  exact Chg.ite (State.train_chg hw.up hs) (State.linkDrop_chg hw.up hs)

theorem State.eptCfgWrite_chg {m : Nat} {p : Nat} {v : Word} (hw : Within [.regs, .msix, .bsn, .meters, .egr, .bud, .fre, .fgd, .had, .ept, .vlt, .auth, .mgs, .inj, .out, .free] w) (hs : Chg w s0 s) : Chg w s0 (State.eptCfgWrite s m p v) := by
  unfold State.eptCfgWrite
  extract_lets -underBinder -merge +onlyGivenNames old1 v2 v3 s4 new6 s7
  have h5 : Chg w s0 s4 := State.plainWrite_chg hw.up (State.creditSync_chg hw.up hs)
  have h8 : Chg w s0 s7 := Chg.ite (h5) (State.budDue_chg hw.up h5)
  exact Chg.ite (State.linkRestart_chg hw.up h8) (h8)

theorem State.eptWrite_chg {m : Nat} {p : Nat} {a : Nat} {v : Word} (hw : Within [.regs, .ept] w) (hs : Chg w s0 s) : Chg w s0 (State.eptWrite s m p a v) := by
  unfold State.eptWrite
  extract_lets -underBinder -merge +onlyGivenNames off1
  refine Chg.ite ?_ ?_
  · exact hs
  · refine Chg.ite ?_ ?_
    · exact hs
    · refine Chg.ite ?_ ?_
      · exact hs
      · extract_lets -underBinder -merge +onlyGivenNames s2
        have h3 : Chg w s0 s2 := State.plainWrite_chg hw.up hs
        exact Chg.ite (State.setEport_chg hw.up h3) (h3)

theorem State.leaveSleep_chg {p : Nat} (hw : Within [.regs, .msix, .bsn, .meters, .egr, .bud, .fre, .fgd, .had, .ept, .vlt, .auth, .mgs, .inj, .out, .free] w) (hs : Chg w s0 s) : Chg w s0 (State.leaveSleep s p) := by
  unfold State.leaveSleep
  exact Chg.ite (State.train_chg hw.up (State.linkDrop_chg hw.up hs)) (hs)

theorem State.wakeSend_chg {p : Nat} (hw : Within [.regs, .msix, .bsn, .meters, .egr, .bud, .fre, .fgd, .had, .ept, .vlt, .auth, .mgs, .inj, .out, .free] w) (hs : Chg w s0 s) : Chg w s0 (State.wakeSend s p) := by
  unfold State.wakeSend
  exact Chg.ite (hs) (Chg.ite (State.leaveSleep_chg hw.up (State.emit_chg hw.up hs)) (Chg.ite (State.emit_chg hw.up hs) (hs)))

theorem State.sleepSend_chg {p : Nat} (hw : Within [.ept, .out] w) (hs : Chg w s0 s) : Chg w s0 (State.sleepSend s p) := by
  unfold State.sleepSend
  exact Chg.ite (hs) (Chg.ite (State.setEport_chg hw.up hs) (State.emit_chg hw.up (State.setEport_chg hw.up hs)))

theorem State.sleepReq_chg {p : Nat} (hw : Within [.regs, .msix, .ept, .out] w) (hs : Chg w s0 s) : Chg w s0 (State.sleepReq s p) := by
  unfold State.sleepReq
  refine Chg.ite ?_ ?_
  · exact hs
  · extract_lets -underBinder -merge +onlyGivenNames s1
    have h2 : Chg w s0 s1 := State.raise_chg hw.up hs
    exact Chg.ite (State.emit_chg hw.up (State.setEport_chg hw.up h2)) (State.evt_chg hw.up h2)

theorem State.sleepAgreed_chg {p : Nat} (hw : Within [.regs, .msix, .bsn, .meters, .egr, .bud, .fre, .fgd, .had, .ept, .vlt, .auth, .mgs, .inj, .out, .free] w) (hs : Chg w s0 s) : Chg w s0 (State.sleepAgreed s p) := by
  unfold State.sleepAgreed
  exact Chg.ite (State.raise_chg hw.up (State.portLost_chg hw.up (State.setEport_chg hw.up (State.creditSync_chg hw.up hs)))) (hs)

theorem State.sleepTimeout_chg {p : Nat} (hw : Within [.regs, .ept] w) (hs : Chg w s0 s) : Chg w s0 (State.sleepTimeout s p) := by
  unfold State.sleepTimeout
  exact Chg.ite (State.evt_chg hw.up (State.setEport_chg hw.up hs)) (hs)

theorem State.wakeSeen_chg {p : Nat} {wur : Bool} (hw : Within [.regs, .msix, .bsn, .meters, .egr, .bud, .fre, .fgd, .had, .ept, .vlt, .auth, .mgs, .inj, .out, .free] w) (hs : Chg w s0 s) : Chg w s0 (State.wakeSeen s p wur) := by
  unfold State.wakeSeen
  refine Chg.ite ?_ ?_
  · exact hs
  · extract_lets -underBinder -merge +onlyGivenNames shook1 src2 s3 on5
    have h4 : Chg w s0 s3 := State.setEport_chg hw.up hs
    refine Chg.ite ?_ ?_
    · exact h4
    · extract_lets -underBinder -merge +onlyGivenNames s6 s8 s10
      have h7 : Chg w s0 s6 := State.wr_chg hw.up h4
      have h9 : Chg w s0 s8 := State.evt_chg hw.up (State.raise_chg hw.up h7)
      have h11 : Chg w s0 s10 := Chg.ite (Chg.foldl (fun t13 _ h12 => State.wakeSend_chg hw.up h12) (h9)) (h9)
      exact State.leaveSleep_chg hw.up h11

theorem State.eptCmd_chg {p : Nat} {v : Word} (hw : Within [.regs, .msix, .bsn, .meters, .egr, .bud, .fre, .fgd, .had, .ept, .vlt, .auth, .mgs, .inj, .out, .free] w) (hs : Chg w s0 s) : Chg w s0 (State.eptCmd s p v) := by
  unfold State.eptCmd
  extract_lets -underBinder -merge +onlyGivenNames s1 s3
  have h2 : Chg w s0 s1 := Chg.ite (State.linkRestart_chg hw.up hs) (hs)
  have h4 : Chg w s0 s3 := Chg.ite (State.sleepSend_chg hw.up h2) (h2)
  exact Chg.ite (State.wakeSend_chg hw.up h4) (h4)

theorem State.sdActivity_chg {p : Nat} (hw : Within [.regs, .pwr] w) (hs : Chg w s0 s) : Chg w s0 (State.sdActivity s p) := by
  unfold State.sdActivity
  exact Chg.ite (State.wr_chg hw.up (State.heard_chg hw.up hs)) (hs)

theorem State.beaconLost_chg {p : Nat} (hw : Within [.regs, .msix, .ept, .out] w) (hs : Chg w s0 s) : Chg w s0 (State.beaconLost s p) := by
  unfold State.beaconLost
  exact Chg.ite (State.raise_chg hw.up (State.evt_chg hw.up (State.setEport_chg hw.up hs))) (hs)

theorem State.beaconSeen_chg {p : Nat} (hw : Within [.ept] w) (hs : Chg w s0 s) : Chg w s0 (State.beaconSeen s p) := by
  unfold State.beaconSeen
  exact Chg.ite (State.setEport_chg hw.up hs) (hs)

theorem State.collision_chg {p : Nat} (hw : Within [.regs, .msix, .bsn, .egr, .ept, .mgs, .out] w) (hs : Chg w s0 s) : Chg w s0 (State.collision s p) := by
  unfold State.collision
  split
  · exact hs
  · refine Chg.ite ?_ ?_
    · exact hs
    · extract_lets -underBinder -merge +onlyGivenNames s1 n3
      have h2 : Chg w s0 s1 := State.evt_chg hw.up hs
      refine Chg.ite ?_ ?_
      · exact State.emit_chg hw.up (State.setEport_chg hw.up h2)
      · extract_lets -underBinder -merge +onlyGivenNames src4 s5 s7
        have h6 : Chg w s0 s5 := State.setEport_chg hw.up (State.evt_chg hw.up h2)
        have h8 : Chg w s0 s7 := State.creditSync_chg hw.up h6
        exact State.copyDone_chg hw.up (State.setEg_chg hw.up h8)

theorem State.hiBer_chg {p : Nat} (hw : Within [.regs, .msix, .out] w) (hs : Chg w s0 s) : Chg w s0 (State.hiBer s p) := by
  unfold State.hiBer
  exact Chg.ite (State.raise_chg hw.up (State.evt_chg hw.up hs)) (hs)

theorem State.setRing_chg {n : Nat} {r : Ring} (hw : Within [.hif] w) (hs : Chg w s0 s) : Chg w s0 (State.setRing s n r) := by
  unfold State.setRing
  exact Chg.upd_hif hw.mem hs _

theorem State.ringSignal_chg {n : Nat} (hw : Within [.msix, .hif, .out] w) (hs : Chg w s0 s) : Chg w s0 (State.ringSignal s n) := by
  unfold State.ringSignal
  extract_lets -underBinder -merge +onlyGivenNames r1
  refine Chg.ite ?_ ?_
  · exact hs
  · extract_lets -underBinder -merge +onlyGivenNames s2
    have h3 : Chg w s0 s2 := State.setRing_chg hw.up hs
    exact Chg.ite (State.msixSend_chg hw.up h3) (State.emit_chg hw.up h3)

theorem State.memPut_chg {a : Nat} {b : List Byte} (hw : Within [.svc] w) (hs : Chg w s0 s) : Chg w s0 (State.memPut s a b) := by
  unfold State.memPut
  exact Chg.ite (Chg.upd_svc hw.mem hs _) (hs)

theorem State.ringComplete_chg {n : Nat} {desc : List Byte} {data : List Byte} (hw : Within [.msix, .hif, .svc, .out] w) (hs : Chg w s0 s) : Chg w s0 (State.ringComplete s n desc data) := by
  unfold State.ringComplete
  extract_lets -underBinder -merge +onlyGivenNames r1 s2 s4 s6
  have h3 : Chg w s0 s2 := State.emit_chg hw.up hs
  have h5 : Chg w s0 s4 := Chg.ite (h3) (State.memPut_chg hw.up h3)
  have h7 : Chg w s0 s6 := State.setRing_chg hw.up h5
  exact Chg.ite (State.ringSignal_chg hw.up h7) (h7)

theorem State.ringStore_chg {m : Nat} {n : Nat} {a : Nat} {v : Word} (hw : Within [.regs] w) (hs : Chg w s0 s) : Chg w s0 (State.ringStore s m n a v) := by
  unfold State.ringStore
  refine Chg.ite ?_ ?_
  · exact State.plainWrite_chg hw.up hs
  · split
    · exact State.wr_chg hw.up hs
    · exact hs

theorem State.ringCtrlWrite_chg {m : Nat} {n : Nat} {v : Word} (hw : Within [.regs, .hif] w) (hs : Chg w s0 s) : Chg w s0 (State.ringCtrlWrite s m n v) := by
  unfold State.ringCtrlWrite
  extract_lets -underBinder -merge +onlyGivenNames was1 s2
  have h3 : Chg w s0 s2 := State.ringStore_chg hw.up hs
  refine Chg.ite ?_ ?_
  · exact h3
  · extract_lets -underBinder -merge +onlyGivenNames off4 s5
    have h6 : Chg w s0 s5 := State.wr_chg hw.up h3
    exact State.setRing_chg hw.up h6

theorem State.ringCfgWrite_chg {m : Nat} {n : Nat} {a : Nat} {v : Word} (hw : Within [.regs] w) (hs : Chg w s0 s) : Chg w s0 (State.ringCfgWrite s m n a v) := by
  unfold State.ringCfgWrite
  exact Chg.ite (State.evt_chg hw.up hs) (State.ringStore_chg hw.up hs)

theorem State.dbErr_chg (hw : Within [.regs, .msix, .out] w) (hs : Chg w s0 s) : Chg w s0 (State.dbErr s) := by
  unfold State.dbErr
  exact State.raise_chg hw.up (State.evt_chg hw.up hs)

theorem State.doorbell_chg {n : Nat} {v : Word} {full : Bool} (hw : Within [.regs, .fences, .msix, .hif, .mgs, .out] w) (hs : Chg w s0 s) : Chg w s0 (State.doorbell s n v full) := by
  unfold State.doorbell
  exact Chg.ite (State.evt_chg hw.up hs) (State.access_chg hw.up hs (fun x1 h2 => Chg.ite (State.setRing_chg hw.up h2) (State.dbErr_chg hw.up h2)))

theorem State.ringStop_chg {n : Nat} {err : Nat} (hw : Within [.regs, .msix, .out] w) (hs : Chg w s0 s) : Chg w s0 (State.ringStop s n err) := by
  unfold State.ringStop
  exact Chg.ite (State.raise_chg hw.up (State.evt_chg hw.up (State.wf_chg hw.up (State.wf_chg hw.up hs)))) (hs)

theorem State.txFinish_chg {s : State} {t : Nat} {ts : Nat} {status : Nat} {a : Nat} (hw : Within [.msix, .hif, .svc, .out] w) (hs : Chg w s0 s) : Chg w s0 (State.txFinish s t ts status a) := by
  unfold State.txFinish
  split
  · exact hs
  · exact State.ringComplete_chg hw.up hs
  · exact State.txFinish_chg hw.up (State.ringComplete_chg hw.up hs)

theorem State.txUnsent_chg {t : Nat} {status : Nat} {k : Nat} (hw : Within [.msix, .hif, .svc, .out, .free] w) (hs : Chg w s0 s) : Chg w s0 (State.txUnsent s t status k) := by
  unfold State.txUnsent
  split
  · rename_i y1 y2 e4
    have h3 := Chg2.of (State.draw_chg hw.up hs) e4
    exact State.txFinish_chg hw.up h3

theorem State.txThrough_chg {t : Nat} {n : Nat} (hw : Within [.bsn] w) (hs : Chg w s0 s) : Chg w s0 (State.txThrough s t n) := by
  unfold State.txThrough
  extract_lets -underBinder -merge +onlyGivenNames f1
  exact State.setTxf_chg hw.up hs

theorem State.txEnter_chg {t : Nat} {p : Nat} {k : Nat} {b : List Byte} {under : Bool} (hw : Within [.regs, .tbl, .msix, .lrn, .bsn, .meters, .egr, .fre, .fgd, .hif, .vlt, .auth, .tim, .pwr, .mgs, .svc, .inj, .out, .free] w) (hs : Chg w s0 s) : Chg w s0 (State.txEnter s t p k b under) := by
  unfold State.txEnter
  extract_lets -underBinder -merge +onlyGivenNames ts1 s2 b4
  have h3 : Chg w s0 s2 := Chg.ite (State.txThrough_chg hw.up (State.stat_chg hw.up hs)) (hs)
  split
  · rename_i y5 y6 e8
    have h7 := Chg2.of (State.ethHead_chg hw.up h3) e8
    extract_lets -underBinder -merge +onlyGivenNames s9 s11
    have h10 : Chg w s0 s9 := State.setArrival_chg hw.up h7
    have h12 : Chg w s0 s11 := Chg.ite (State.abortArrival_chg hw.up h10) (State.verdict_chg hw.up h10)
    exact State.txFinish_chg hw.up h12

theorem State.txServed_chg {t : Nat} (hw : Within [.hif] w) (hs : Chg w s0 s) : Chg w s0 (State.txServed s t) := by
  unfold State.txServed
  exact Chg.upd_hif hw.mem hs _

theorem State.txBus_chg {t : Nat} {target : Nat} {k : Nat} {b : List Byte} {under : Bool} (hw : Within [.regs, .msix, .bsn, .meters, .egr, .fre, .hif, .mgs, .svc, .out] w) (hs : Chg w s0 s) : Chg w s0 (State.txBus s t target k b under) := by
  unfold State.txBus
  extract_lets -underBinder -merge +onlyGivenNames ts1 s2
  have h3 : Chg w s0 s2 := Chg.ite (hs) (State.busEnter_chg hw.up hs)
  exact State.txFinish_chg hw.up h3

theorem State.hifTx_chg {t : Nat} {lens : List Nat} {eop : Bool} {b : List Byte} {under : Bool} {ready : List Nat} {bus : Option Nat} (hw : Within [.regs, .tbl, .msix, .lrn, .bsn, .meters, .egr, .fre, .fgd, .hif, .vlt, .auth, .tim, .pwr, .mgs, .svc, .inj, .out, .free] w) (hs : Chg w s0 s) : Chg w s0 (State.hifTx s t lens eop b under ready bus) := by
  unfold State.hifTx
  extract_lets -underBinder -merge +onlyGivenNames n1 bus2
  refine Chg.ite ?_ ?_
  · exact hs
  · refine Chg.ite ?_ ?_
    · exact State.txUnsent_chg hw.up hs
    · refine Chg.ite ?_ ?_
      · exact hs
      · refine Chg.ite ?_ ?_
        · exact State.txUnsent_chg hw.up hs
        · split
          · exact hs
          · refine Chg.ite ?_ ?_
            · exact hs
            · clear_value bus2
              split
              · exact State.txBus_chg hw.up (State.txServed_chg hw.up hs)
              · exact State.txEnter_chg hw.up (State.txServed_chg hw.up hs)

theorem State.txDropped_chg {t : Nat} {held : List Nat} (hw : Within [.msix, .hif, .svc, .out, .free] w) (hs : Chg w s0 s) : Chg w s0 (State.txDropped s t held) := by
  unfold State.txDropped
  exact Chg.foldl (fun t2 _ h1 => Chg.ite (State.txUnsent_chg hw.up h1) (h1)) (hs)

theorem State.rxComplete_chg {r : Nat} {buf : Nat} {addr : Nat} (hw : Within [.regs, .msix, .bsn, .egr, .hif, .mgs, .svc, .out] w) (hs : Chg w s0 s) : Chg w s0 (State.rxComplete s r buf addr) := by
  unfold State.rxComplete
  extract_lets -underBinder -merge +onlyGivenNames n1
  split
  · exact hs
  · refine Chg.ite ?_ ?_
    · exact hs
    · refine Chg.ite ?_ ?_
      · exact State.ringStop_chg hw.up hs
      · extract_lets -underBinder -merge +onlyGivenNames gap2 long3 s4 s6
        have h5 : Chg w s0 s4 := Chg.ite (hs) (State.stat_chg hw.up hs)
        have h7 : Chg w s0 s6 := Chg.ite (h5) (State.memPut_chg hw.up h5)
        exact State.ringComplete_chg hw.up (State.rxPop_chg hw.up h7)

theorem State.dmaError_chg {tx : Bool} {r : Nat} {err : Nat} {k : Nat} (hw : Within [.regs, .msix, .hif, .svc, .out, .free] w) (hs : Chg w s0 s) : Chg w s0 (State.dmaError s tx r err k) := by
  unfold State.dmaError
  extract_lets -underBinder -merge +onlyGivenNames n1
  refine Chg.ite ?_ ?_
  · exact hs
  · extract_lets -underBinder -merge +onlyGivenNames s2
    have h3 : Chg w s0 s2 := Chg.ite (State.txUnsent_chg hw.up hs) (hs)
    exact State.ringStop_chg hw.up h3

theorem State.rxQuiet_chg {r : Nat} (hw : Within [.bsn] w) (hs : Chg w s0 s) : Chg w s0 (State.rxQuiet s r) := by
  unfold State.rxQuiet
  extract_lets -underBinder -merge +onlyGivenNames f1 n2
  exact State.setRxf_chg hw.up hs

theorem State.hostRingsOff_chg (hw : Within [.hif] w) (hs : Chg w s0 s) : Chg w s0 (State.hostRingsOff s) := by
  unfold State.hostRingsOff
  exact Chg.upd_hif hw.mem hs _

theorem State.ringRegsReset_chg (hw : Within [.regs, .hif] w) (hs : Chg w s0 s) : Chg w s0 (State.ringRegsReset s) := by
  unfold State.ringRegsReset
  extract_lets -underBinder -merge +onlyGivenNames src1
  have h2 : Chg w s0 src1 := State.hostRingsOff_chg hw.up hs
  exact Chg.upd_regs hw.mem h2 (Tab.wf_keep _ _)

theorem State.pcieReset_chg (hw : Within [.regs, .msix, .bsn, .hif, .out] w) (hs : Chg w s0 s) : Chg w s0 (State.pcieReset s) := by
  unfold State.pcieReset
  extract_lets -underBinder -merge +onlyGivenNames s1 src5 s6 src8 s9
  have h2 : Chg w s0 s1 := Chg.foldl (fun t4 _ h3 => State.rxQuiet_chg hw.up h3) (State.ringRegsReset_chg hw.up hs)
  have h7 : Chg w s0 s6 := Chg.upd_bsn hw.mem h2 _
  have h10 : Chg w s0 s9 := Chg.upd_hif hw.mem h7 _
  exact State.raise_chg hw.up h10

theorem State.dmaStatus_chg {was : Bool} (hw : Within [.bud] w) (hs : Chg w s0 s) : Chg w s0 (State.dmaStatus s was) := by
  unfold State.dmaStatus
  split
  · exact hs
  · exact Chg.ite (hs) (Chg.ite (State.budLinkDown_chg hw.up hs) (State.budDue_chg hw.up hs))

theorem State.hifStatus_chg {v : Word} {relax : Bool} (hw : Within [.regs, .msix, .bsn, .egr, .bud, .hif, .out] w) (hs : Chg w s0 s) : Chg w s0 (State.hifStatus s v relax) := by
  unfold State.hifStatus
  extract_lets -underBinder -merge +onlyGivenNames was1 src2 s3 old5 s6 s8 s10 s12 s16
  have h4 : Chg w s0 s3 := Chg.upd_hif hw.mem hs _
  have h7 : Chg w s0 s6 := by
    unfold s6
    split
    · exact State.creditSync_chg hw.up h4
    · exact h4
  have h9 : Chg w s0 s8 := State.wr_chg hw.up h7
  have h11 : Chg w s0 s10 := Chg.ite (State.raise_chg hw.up h9) (h9)
  have h13 : Chg w s0 s12 := Chg.ite (Chg.foldl (fun t15 _ h14 => State.ringStop_chg hw.up h14) (h11)) (h11)
  have h17 : Chg w s0 s16 := Chg.ite (State.pcieReset_chg hw.up h13) (h13)
  exact State.dmaStatus_chg hw.up h17

theorem State.hifCfgWrite_chg {m : Nat} {v : Word} (hw : Within [.regs, .msix, .bsn, .meters, .egr, .bud, .fre, .fgd, .had, .ept, .vlt, .auth, .mgs, .inj, .out, .free] w) (hs : Chg w s0 s) : Chg w s0 (State.hifCfgWrite s m v) := by
  unfold State.hifCfgWrite
  extract_lets -underBinder -merge +onlyGivenNames old1
  refine Chg.ite ?_ ?_
  · exact State.evt_chg hw.up (State.plainWrite_chg hw.up hs)
  · extract_lets -underBinder -merge +onlyGivenNames from2 toPort3
    refine Chg.ite ?_ ?_
    · exact State.plainWrite_chg hw.up hs
    · extract_lets -underBinder -merge +onlyGivenNames s4 s6 s8 s10
      have h5 : Chg w s0 s4 := by
        unfold s4
        clear_value from2
        split
        · exact State.portLost_chg hw.up hs
        · exact hs
      have h7 : Chg w s0 s6 := by
        unfold s6
        clear_value toPort3
        split
        · exact State.linkDrop_chg hw.up h5
        · exact h5
      have h9 : Chg w s0 s8 := State.plainWrite_chg hw.up h7
      have h11 : Chg w s0 s10 := by
        unfold s10
        clear_value from2
        split
        · exact State.train_chg hw.up h9
        · exact h9
      clear_value toPort3
      split
      · exact Chg.ite (State.budDue_chg hw.up h11) (h11)
      · exact h11

theorem State.msixFlush_chg (hw : Within [.msix, .out] w) (hs : Chg w s0 s) : Chg w s0 (State.msixFlush s) := by
  unfold State.msixFlush
  refine Chg.ite ?_ ?_
  · exact hs
  · extract_lets -underBinder -merge +onlyGivenNames due1 src2 s3
    have h4 : Chg w s0 s3 := Chg.upd_msix hw.mem hs _
    exact Chg.foldl (fun t6 _ h5 => State.msixSend_chg hw.up h5) (h4)

theorem State.msixWrite_chg {k : Nat} {v : Word} (hw : Within [.msix] w) (hs : Chg w s0 s) : Chg w s0 (State.msixWrite s k v) := by
  unfold State.msixWrite
  refine Chg.ite ?_ ?_
  · extract_lets -underBinder -merge +onlyGivenNames b1
    exact Chg.upd_msix hw.mem hs _
  · exact Chg.upd_msix hw.mem hs _

theorem State.bar4_chg {x : Bool × Nat × Nat × BitVec 64} (hw : Within [.regs, .fences, .msix, .hif, .mgs, .out] w) (hs : Chg w s0 s) : Chg w s0 (State.bar4 s x) := by
  unfold State.bar4
  split
  · refine Chg.ite ?_ ?_
    · extract_lets -underBinder -merge +onlyGivenNames s1
      have h2 : Chg w s0 s1 := Chg.ite (hs) (State.evt_chg hw.up hs)
      exact Chg.ite (State.emit_chg hw.up h2) (Chg.ite (State.doorbell_chg hw.up h2) (h2))
    · refine Chg.ite ?_ ?_
      · exact hs
      · refine Chg.ite ?_ ?_
        · exact State.emit_chg hw.up hs
        · refine Chg.ite ?_ ?_
          · extract_lets -underBinder -merge +onlyGivenNames k3 s4
            have h5 : Chg w s0 s4 := State.msixWrite_chg hw.up hs
            exact State.msixFlush_chg hw.up (Chg.ite (State.msixWrite_chg hw.up h5) (h5))
          · exact hs

theorem State.msixMask_chg {reqs : List (Bool × Nat × Nat × BitVec 64)} {func : Bool} (hw : Within [.regs, .fences, .msix, .hif, .mgs, .out] w) (hs : Chg w s0 s) : Chg w s0 (State.msixMask s reqs func) := by
  unfold State.msixMask
  extract_lets -underBinder -merge +onlyGivenNames s1
  have h2 : Chg w s0 s1 := Chg.foldl (fun t4 _ h3 => State.bar4_chg hw.up h3) (hs)
  exact State.msixFlush_chg hw.up (Chg.upd_msix hw.mem h2 _)

theorem State.loadStart_chg {m : Nat} {stored : Option Nat} {x : SvcImg} (hw : Within [.svc] w) (hs : Chg w s0 s) : Chg w s0 (State.loadStart s m stored x) := by
  unfold State.loadStart
  extract_lets -underBinder -merge +onlyGivenNames p1 mem2 src3 s4
  have h5 : Chg w s0 s4 := Chg.upd_svc hw.mem hs _
  exact State.setPart_chg hw.up h5

theorem State.svcLog_chg {i : Nat} {n : Nat} {code : Nat} (hw : Within [.mgs] w) (hs : Chg w s0 s) : Chg w s0 (State.svcLog s i n code) := by
  unfold State.svcLog
  exact State.logEvt_chg hw.up hs

theorem State.loadFail_chg {n : Nat} {code : Nat} (hw : Within [.regs, .msix, .mgs, .out] w) (hs : Chg w s0 s) : Chg w s0 (State.loadFail s n code) := by
  unfold State.loadFail
  exact State.svcLog_chg hw.up (State.raise_chg hw.up (State.evt_chg hw.up hs))

theorem State.loadImg_chg {m : Nat} {stored : Option Nat} {x : SvcImg} {refused : State → Nat → State} (hw : Within [.svc] w) (hs : Chg w s0 s) (hrefused : ∀ t0 t1, Chg w s0 t0 → Chg w s0 (refused t0 t1)) : Chg w s0 (State.loadImg s m stored x refused) := by
  unfold State.loadImg
  extract_lets -underBinder -merge +onlyGivenNames c1
  exact Chg.ite (State.loadStart_chg hw.up hs) (hrefused _ _ (hs))

theorem State.loadDone_chg {n : Nat} (hw : Within [.slots, .svc] w) (hs : Chg w s0 s) : Chg w s0 (State.loadDone s n) := by
  unfold State.loadDone
  extract_lets -underBinder -merge +onlyGivenNames p1
  split
  · exact hs
  · extract_lets -underBinder -merge +onlyGivenNames s2 s4
    have h3 : Chg w s0 s2 := State.pmpSet_chg hw.up hs
    have h5 : Chg w s0 s4 := State.setPart_chg hw.up h3
    exact Chg.ite (State.complete_chg hw.up h5) (h5)

theorem State.slotLetGo_chg {i : Nat} (hw : Within [.slots, .svc] w) (hs : Chg w s0 s) : Chg w s0 (State.slotLetGo s i) := by
  unfold State.slotLetGo
  extract_lets -underBinder -merge +onlyGivenNames t1
  exact Chg.ite (State.setSlot_chg hw.up hs) (Chg.ite (Chg.upd_svc hw.mem hs _) (hs))

theorem State.unclaim_chg {r : Nat} (hw : Within [.slots, .svc] w) (hs : Chg w s0 s) : Chg w s0 (State.unclaim s r) := by
  unfold State.unclaim
  exact Chg.foldl (fun t2 _ h1 => State.slotLetGo_chg hw.up h1) (Chg.upd_svc hw.mem hs _)

theorem State.ringsStop_chg {n : Nat} (hw : Within [.regs] w) (hs : Chg w s0 s) : Chg w s0 (State.ringsStop s n) := by
  unfold State.ringsStop
  exact Chg.foldl (fun t2 _ h1 => Chg.ite (State.wf_chg hw.up h1) (h1)) (hs)

theorem State.partStop_chg {n : Nat} {st : Nat} (hw : Within [.regs, .slots, .svc] w) (hs : Chg w s0 s) : Chg w s0 (State.partStop s n st) := by
  unfold State.partStop
  extract_lets -underBinder -merge +onlyGivenNames s1 mine3
  have h2 : Chg w s0 s1 := State.pmpSet_chg hw.up (State.ringsStop_chg hw.up hs)
  exact State.setPart_chg hw.up (Chg.foldl (fun t5 _ h4 => State.unclaim_chg hw.up h4) (h2))

theorem State.reload_chg {m : Nat} {n : Nat} (hw : Within [.regs, .slots, .msix, .mgs, .svc, .out] w) (hs : Chg w s0 s) : Chg w s0 (State.reload s m n) := by
  unfold State.reload
  extract_lets -underBinder -merge +onlyGivenNames done1
  have h2 : ∀ z3 z5, Chg w s0 z3 → Chg w s0 (done1 z3 z5) := by
    intro z3 z5 h4
    unfold done1
    exact Chg.ite (State.complete_chg hw.up h4) (h4)
  split
  · exact h2 _ _ (State.setPart_chg hw.up hs)
  · split
    · exact h2 _ _ (State.loadFail_chg hw.up hs)
    · exact State.loadImg_chg hw.up hs (fun x6 x8 h7 => h2 _ _ (State.loadFail_chg hw.up h7))

theorem State.partRestart_chg {m : Nat} {n : Nat} {cause : Nat} (hw : Within [.regs, .slots, .msix, .mgs, .svc, .out] w) (hs : Chg w s0 s) : Chg w s0 (State.partRestart s m n cause) := by
  unfold State.partRestart
  exact State.reload_chg hw.up (State.svcLog_chg hw.up (State.raise_chg hw.up (State.evt_chg hw.up (State.partStop_chg hw.up hs))))

theorem State.partTrip_chg {n : Nat} {cause : Nat} (hw : Within [.regs, .slots, .msix, .mgs, .svc, .out] w) (hs : Chg w s0 s) : Chg w s0 (State.partTrip s n cause) := by
  unfold State.partTrip
  extract_lets -underBinder -merge +onlyGivenNames p1 near2
  refine Chg.ite ?_ ?_
  · extract_lets -underBinder -merge +onlyGivenNames s3
    have h4 : Chg w s0 s3 := State.svcLog_chg hw.up (State.raise_chg hw.up (State.partStop_chg hw.up hs))
    exact State.setPart_chg hw.up h4
  · exact State.partRestart_chg hw.up (State.setPart_chg hw.up hs)

theorem State.svcTrip_chg {n : Nat} {memory : Bool} (hw : Within [.regs, .slots, .msix, .mgs, .svc, .out] w) (hs : Chg w s0 s) : Chg w s0 (State.svcTrip s n memory) := by
  unfold State.svcTrip
  exact Chg.ite (hs) (Chg.ite (State.partTrip_chg hw.up (State.evt_chg hw.up hs)) (Chg.ite (hs) (State.partTrip_chg hw.up (State.raise_chg hw.up (State.evt_chg hw.up hs)))))

theorem State.wdtService_chg {c : Nat} (hw : Within [.svc] w) (hs : Chg w s0 s) : Chg w s0 (State.wdtService s c) := by
  unfold State.wdtService
  split
  · exact hs
  · exact State.setPart_chg hw.up hs

theorem State.svcRelock_chg (hw : Within [.regs, .slots, .msix, .mgs, .svc, .out] w) (hs : Chg w s0 s) : Chg w s0 (State.svcRelock s) := by
  unfold State.svcRelock
  exact Chg.foldl (fun t2 _ h1 => State.partRestart_chg hw.up h1) (hs)

theorem State.svcOff_chg (hw : Within [.regs, .slots, .hif, .pwr, .svc] w) (hs : Chg w s0 s) : Chg w s0 (State.svcOff s) := by
  unfold State.svcOff
  extract_lets -underBinder -merge +onlyGivenNames s1 src5 src6 src7 s8
  have h2 : Chg w s0 s1 := Chg.foldl (fun t4 _ h3 => Chg.ite (h3) (State.unclaim_chg hw.up h3)) (hs)
  clear_value s1
  have h9 : Chg w s0 s8 := (show ∀ v0 v1 v2 v3, ((Tab.wf regReset s1.regs = true → Tab.wf regReset v0 = true)) → Chg w s0 { s1 with regs := v0, hif := v1, pwr := v2, svc := v3 } from fun v0 v1 v2 v3 c0 => Chg.upd_svc hw.mem (Chg.upd_pwr hw.mem (Chg.upd_hif hw.mem (Chg.upd_regs hw.mem h2 c0) v1) v2) v3) _ _ _ _ (Tab.wf_keep _ _)
  exact State.wr_chg hw.up h9

theorem State.autostart_chg (hw : Within [.regs, .msix, .mgs, .svc, .out] w) (hs : Chg w s0 s) : Chg w s0 (State.autostart s) := by
  unfold State.autostart
  refine Chg.foldl (fun s4 x8 h3 => ?_) (hs)
  split
  · exact Chg.ite (State.loadImg_chg hw.up h3 (fun x5 x7 h6 => State.loadFail_chg hw.up h6)) (h3)
  · exact h3

theorem State.svcCmdOn_chg {m : Nat} {k : State → State} (hw : Within [.regs, .slots, .msix, .svc, .out] w) (hs : Chg w s0 s) (hk : ∀ t0, Chg w s0 t0 → Chg w s0 (k t0)) : Chg w s0 (State.svcCmdOn s m k) := by
  unfold State.svcCmdOn
  exact State.command_chg hw.up hs (fun x1 h2 => Chg.ite (State.complete_chg hw.up h2) (hk _ (h2)))

theorem State.svcWrite_chg {m : Nat} {n : Nat} (hw : Within [.regs, .slots, .msix, .svc, .out] w) (hs : Chg w s0 s) : Chg w s0 (State.svcWrite s m n) := by
  unfold State.svcWrite
  refine State.svcCmdOn_chg hw.up (hs) (fun x5 h6 => ?_)
  · extract_lets -underBinder -merge +onlyGivenNames p7 len8 a9
    refine Chg.ite ?_ ?_
    · exact State.complete_chg hw.up h6
    · refine Chg.ite ?_ ?_
      · exact State.complete_chg hw.up h6
      · extract_lets -underBinder -merge +onlyGivenNames b10
        exact State.complete_chg hw.up (Chg.upd_svc hw.mem h6 _)

theorem State.svcLoad_chg {m : Nat} {n : Nat} {stored : Option Nat} (hw : Within [.regs, .slots, .msix, .svc, .out] w) (hs : Chg w s0 s) : Chg w s0 (State.svcLoad s m n stored) := by
  unfold State.svcLoad
  refine State.svcCmdOn_chg hw.up (hs) (fun x5 h6 => ?_)
  · extract_lets -underBinder -merge +onlyGivenNames refuse7
    have h8 : ∀ z9 z11, Chg w s0 z9 → Chg w s0 (refuse7 z9 z11) := by
      intro z9 z11 h10
      unfold refuse7
      exact State.complete_chg hw.up h10
    split
    · exact State.loadImg_chg hw.up h6 h8
    · split
      · exact h8 _ _ (h6)
      · exact State.loadImg_chg hw.up h6 h8

theorem State.svcStop_chg {m : Nat} {n : Nat} (hw : Within [.regs, .slots, .msix, .svc, .out] w) (hs : Chg w s0 s) : Chg w s0 (State.svcStop s m n) := by
  unfold State.svcStop
  exact State.svcCmdOn_chg hw.up hs (fun x1 h2 => State.complete_chg hw.up (Chg.ite (State.partStop_chg hw.up h2) (h2)))

theorem State.svcRestart_chg {m : Nat} {n : Nat} (hw : Within [.regs, .slots, .msix, .mgs, .svc, .out] w) (hs : Chg w s0 s) : Chg w s0 (State.svcRestart s m n) := by
  unfold State.svcRestart
  exact State.svcCmdOn_chg hw.up hs (fun x1 h2 => Chg.ite (State.partRestart_chg hw.up h2) (Chg.ite (State.reload_chg hw.up (State.setPart_chg hw.up h2)) (State.complete_chg hw.up h2)))

theorem State.svcCmd_chg {m : Nat} {v : Word} (hw : Within [.regs, .slots, .msix, .mgs, .svc, .out] w) (hs : Chg w s0 s) : Chg w s0 (State.svcCmd s m v) := by
  unfold State.svcCmd
  extract_lets -underBinder -merge +onlyGivenNames n1
  split
  · exact State.svcWrite_chg hw.up hs
  · exact State.svcLoad_chg hw.up hs
  · exact State.svcStop_chg hw.up hs
  · exact State.svcRestart_chg hw.up hs
  · exact State.svcCmdOn_chg hw.up hs (fun x2 h3 => State.complete_chg hw.up h3)

theorem State.claimRead_chg {c : Nat} {r : Nat} (hw : Within [.svc] w) (hs : Chg w s0 s) : Chg w s0 (State.claimRead s c r) := by
  unfold State.claimRead
  extract_lets -underBinder -merge +onlyGivenNames src1 s2
  have h3 : Chg w s0 s2 := Chg.upd_svc hw.mem hs _
  split
  · exact h3
  · exact Chg.ite (Chg.upd_svc hw.mem h3 _) (h3)

theorem State.claimRelease_chg {c : Nat} {r : Nat} (hw : Within [.svc] w) (hs : Chg w s0 s) : Chg w s0 (State.claimRelease s c r) := by
  unfold State.claimRelease
  extract_lets -underBinder -merge +onlyGivenNames src1 s2
  have h3 : Chg w s0 s2 := Chg.upd_svc hw.mem hs _
  split
  · exact h3
  · exact Chg.ite (Chg.upd_svc hw.mem h3 _) (h3)

theorem State.ddrReady_chg {ok : Bool} (hw : Within [.regs] w) (hs : Chg w s0 s) : Chg w s0 (State.ddrReady s ok) := by
  unfold State.ddrReady
  exact Chg.ite (State.wr_chg hw.up hs) (hs)

theorem State.ddrCfgWrite_chg {m : Nat} {v : Word} (hw : Within [.regs] w) (hs : Chg w s0 s) : Chg w s0 (State.ddrCfgWrite s m v) := by
  unfold State.ddrCfgWrite
  exact Chg.ite (hs) (State.plainWrite_chg hw.up hs)

theorem State.twinMsg_chg {b : List Byte} (hw : Within [.regs, .msix, .cfl, .vlt, .auth, .twn, .mgs, .inj, .out, .free] w) (hs : Chg w s0 s) : Chg w s0 (State.twinMsg s b) := by
  unfold State.twinMsg
  split
  · exact State.digestRx_chg hw.up hs
  · exact State.divergeRx_chg hw.up hs
  · exact State.selfRx_chg hw.up hs
  · exact Chg.ite (State.roleOfferRx_chg hw.up hs) (State.roleAcceptRx_chg hw.up hs)
  · exact State.syncReqRx_chg hw.up hs
  · exact State.syncDataRx_chg hw.up hs
  · exact State.syncEndRx_chg hw.up hs
  · exact State.attestReqRx_chg hw.up hs
  · exact State.attestRepRx_chg hw.up hs
  · exact State.hbRx_chg hw.up hs

theorem State.hadMsg_chg {p : Nat} {b : List Byte} (hw : Within [.regs, .msix, .had, .vlt, .auth, .mgs, .inj, .out] w) (hs : Chg w s0 s) : Chg w s0 (State.hadMsg s p b) := by
  unfold State.hadMsg
  exact Chg.ite (State.hadRequest_chg hw.up hs) (State.hadProof_chg hw.up hs)

theorem State.deliver_chg {p : Nat} {ts : Nat} {good : Bool} {b : List Byte} (hw : Within [.regs, .msix, .lrn, .egr, .had, .cfl, .vlt, .auth, .twn, .tim, .mgs, .inj, .out, .free] w) (hs : Chg w s0 s) : Chg w s0 (State.deliver s p ts good b) := by
  unfold State.deliver
  extract_lets -underBinder -merge +onlyGivenNames x1 m2
  refine Chg.ite ?_ ?_
  · exact State.macTake_chg hw.up hs
  · refine Chg.ite ?_ ?_
    · exact hs
    · refine Chg.ite ?_ ?_
      · exact State.gptpRx_chg hw.up hs
      · split
        · exact State.hadMsg_chg hw.up hs
        · exact State.twinMsg_chg hw.up hs
        · exact State.anchorMsg_chg hw.up hs
        · exact hs

theorem State.settleOne_chg {a : Inject} (hw : Within [.regs, .tbl, .msix, .lrn, .bsn, .meters, .egr, .fre, .fgd, .had, .cfl, .vlt, .auth, .twn, .tim, .mgs, .inj, .out, .free] w) (hs : Chg w s0 s) : Chg w s0 (State.settleOne s a) := by
  unfold State.settleOne
  split
  · exact State.deliver_chg hw.up hs
  · exact State.injectOne_chg hw.up hs

theorem State.settleFrom_chg {a : Nat} {a1 : State} (hw : Within [.regs, .tbl, .msix, .lrn, .bsn, .meters, .egr, .fre, .fgd, .had, .cfl, .vlt, .auth, .twn, .tim, .mgs, .inj, .out, .free] w) (ha1 : Chg w s0 a1) : Chg w s0 (State.settleFrom a a1) := by
  unfold State.settleFrom
  split
  · exact ha1
  · split
    · exact ha1
    · exact State.settleFrom_chg hw.up (Chg.foldl (fun t2 _ h1 => State.settleOne_chg hw.up h1) (Chg.upd_inj hw.mem ha1 _))

theorem State.settle_chg (hw : Within [.regs, .tbl, .msix, .lrn, .bsn, .meters, .egr, .fre, .fgd, .had, .cfl, .vlt, .auth, .twn, .tim, .mgs, .inj, .out, .free] w) (hs : Chg w s0 s) : Chg w s0 (State.settle s) := by
  unfold State.settle
  exact State.settleFrom_chg hw.up hs

theorem State.idle_chg (hw : Within [.regs, .tbl, .frcNs, .frcFrac, .msix, .lrn, .bsn, .meters, .egr, .fre, .fgd, .had, .cfl, .vlt, .auth, .twn, .tim, .mgs, .inj, .out, .free] w) (hs : Chg w s0 s) : Chg w s0 (State.idle s) := by
  unfold State.idle
  exact State.settle_chg hw.up (State.syncCapture_chg hw.up (State.frcTick_chg hw.up (State.adtNext_chg hw.up hs)))

end Sys2Proof.Machine
end

