-- ==== Sys2Proof/Laws/ChgRegs.lean ====
section
/-! SUPPORT. What the operations of register commands, block resets, configuration writes, the event log and the restore can change: one lemma each. -/

set_option Elab.async false

namespace Sys2Proof.Machine

variable {w : List Area} {s0 s : State}

theorem State.setFence_chg {m : Nat} {f : Fences} (hw : Within [.fences] w) (hs : Chg w s0 s) : Chg w s0 (State.setFence s m f) := by
  unfold State.setFence
  exact Chg.upd_fences hw.mem hs _

theorem State.fenceReq_chg {m : Nat} (hw : Within [.regs, .fences] w) (hs : Chg w s0 s) : Chg w s0 (State.fenceReq s m) := by
  unfold State.fenceReq
  extract_lets -underBinder -merge +onlyGivenNames n1 f2 s3
  have h4 : Chg w s0 s3 := State.wr_chg hw.up hs
  exact State.setFence_chg hw.up h4

theorem State.fenceRetire_chg {m : Nat} (hw : Within [.regs, .fences, .msix, .out] w) (hs : Chg w s0 s) : Chg w s0 (State.fenceRetire s m) := by
  unfold State.fenceRetire
  extract_lets -underBinder -merge +onlyGivenNames f1
  split
  · exact hs
  · refine Chg.ite ?_ ?_
    · exact hs
    · extract_lets -underBinder -merge +onlyGivenNames s2 s4 s6
      have h3 : Chg w s0 s2 := State.setFence_chg hw.up hs
      have h5 : Chg w s0 s4 := State.wr_chg hw.up h3
      have h7 : Chg w s0 s6 := Chg.foldl (fun t9 _ h8 => State.wr_chg hw.up h8) (h5)
      exact Chg.ite (State.raise_chg hw.up h7) (h7)

theorem State.fenceCommitDone_chg {m : Nat} (hw : Within [.fences] w) (hs : Chg w s0 s) : Chg w s0 (State.fenceCommitDone s m) := by
  unfold State.fenceCommitDone
  extract_lets -underBinder -merge +onlyGivenNames f1 done2
  exact State.setFence_chg hw.up hs

theorem State.tapCommitFinish_chg (hw : Within [.regs, .slots, .fences, .tbl, .stage, .commitQ, .commits, .lrn, .bsn, .cfl, .mgs, .svc] w) (hs : Chg w s0 s) : Chg w s0 (State.tapCommitFinish s) := by
  unfold State.tapCommitFinish
  split
  · exact hs
  · exact State.fenceCommitDone_chg hw.up (State.tapCommitDone_chg hw.up hs)

theorem State.setSnap_chg {pg : Nat} {v : Snap} (hw : Within [.snaps] w) (hs : Chg w s0 s) : Chg w s0 (State.setSnap s pg v) := by
  unfold State.setSnap
  exact Chg.upd_snaps hw.mem hs _

theorem State.takeSnap_chg {all : Bool} {pg : Nat} (hw : Within [.snaps] w) (hs : Chg w s0 s) : Chg w s0 (State.takeSnap s all pg) := by
  unfold State.takeSnap
  exact State.setSnap_chg hw.up hs

theorem State.snapTake_chg {m : Nat} {pg : Nat} (hw : Within [.regs, .slots, .snaps, .msix, .out] w) (hs : Chg w s0 s) : Chg w s0 (State.snapTake s m pg) := by
  unfold State.snapTake
  exact State.command_chg hw.up hs (fun x1 h2 => State.holdRes_chg hw.up (State.takeSnap_chg hw.up h2))

theorem State.snapTakeAll_chg {m : Nat} (hw : Within [.regs, .slots, .snaps, .msix, .out] w) (hs : Chg w s0 s) : Chg w s0 (State.snapTakeAll s m) := by
  unfold State.snapTakeAll
  refine Chg.ite ?_ ?_
  · exact State.cmdReject_chg hw.up hs
  · extract_lets -underBinder -merge +onlyGivenNames t1 r2
    have h3 : Chg w s0 r2 := hs
    exact Chg.foldl (fun t5 _ h4 => State.setSlot_chg hw.up (State.setSnap_chg hw.up h4)) (hs)

theorem State.cntSnap_chg {m : Nat} {pg : Nat} {v : Word} (hw : Within [.regs, .slots, .snaps, .msix, .out] w) (hs : Chg w s0 s) : Chg w s0 (State.cntSnap s m pg v) := by
  unfold State.cntSnap
  exact Chg.ite (hs) (Chg.ite (State.snapTakeAll_chg hw.up hs) (State.snapTake_chg hw.up hs))

theorem State.snapDone_chg {pg : Nat} (hw : Within [.regs, .slots, .msix, .svc, .out] w) (hs : Chg w s0 s) : Chg w s0 (State.snapDone s pg) := by
  unfold State.snapDone
  exact Chg.ite (Chg.foldl (fun t2 _ h1 => State.raiseAt_chg hw.up (State.publish_chg hw.up h1)) (hs)) (hs)

theorem State.resAck_chg {i : Nat} {m : Nat} {a : Nat} {v : Word} {k : State → State} (hw : Within [.regs, .slots, .msix, .hif, .mgs, .out] w) (hs : Chg w s0 s) (hk : ∀ t0, Chg w s0 t0 → Chg w s0 (k t0)) : Chg w s0 (State.resAck s i m a v k) := by
  unfold State.resAck
  extract_lets -underBinder -merge +onlyGivenNames t1
  exact Chg.ite (hs) (Chg.ite (State.violate_chg hw.up hs) (Chg.ite (hk _ (State.setSlot_chg hw.up hs)) (hs)))

theorem State.snapAck_chg {m : Nat} {pg : Nat} {v : Word} (hw : Within [.regs, .slots, .snaps, .msix, .hif, .mgs, .out] w) (hs : Chg w s0 s) : Chg w s0 (State.snapAck s m pg v) := by
  unfold State.snapAck
  extract_lets -underBinder -merge +onlyGivenNames a1
  exact Chg.ite (Chg.ite (Chg.ite (hs) (State.violate_chg hw.up hs)) (State.resAck_chg hw.up hs (fun x2 h3 => Chg.foldl (fun t5 _ h4 => State.setSlot_chg hw.up (State.setSnap_chg hw.up h4)) (h3)))) (State.resAck_chg hw.up hs (fun x6 h7 => State.setSnap_chg hw.up h7))

theorem State.evtWrite_chg {m : Nat} {a : Nat} {d : RegDesc} {v : Word} (hw : Within [.regs] w) (hs : Chg w s0 s) : Chg w s0 (State.evtWrite s m a d v) := by
  unfold State.evtWrite
  exact Chg.ite (State.wr_chg hw.up hs) (hs)

theorem State.counterClr_chg {m : Nat} {a : Nat} (hw : Within [.regs] w) (hs : Chg w s0 s) : Chg w s0 (State.counterClr s m a) := by
  unfold State.counterClr
  split
  · exact hs
  · split
    · exact Chg.ite (State.evtWrite_chg hw.up hs) (hs)
    · exact hs

theorem State.levelRaise_chg {pg : Nat} (hw : Within [.regs] w) (hs : Chg w s0 s) : Chg w s0 (State.levelRaise s pg) := by
  unfold State.levelRaise
  split
  · exact Chg.ite (hs) (State.wr_chg hw.up hs)
  · exact Chg.ite (hs) (State.wf_chg hw.up hs)
  · exact hs

theorem State.intClear_chg {pg : Nat} {v : Word} (hw : Within [.regs, .msix, .bsn, .out] w) (hs : Chg w s0 s) : Chg w s0 (State.intClear s pg v) := by
  unfold State.intClear
  extract_lets -underBinder -merge +onlyGivenNames a1 src2 s3
  have h4 : Chg w s0 s3 := Chg.ite (Chg.upd_bsn hw.mem hs _) (hs)
  exact State.msixEval_chg hw.up (State.levelRaise_chg hw.up (State.wr_chg hw.up h4))

theorem State.intForce_chg {pg : Nat} {v : Word} (hw : Within [.regs, .msix, .out] w) (hs : Chg w s0 s) : Chg w s0 (State.intForce s pg v) := by
  unfold State.intForce
  split
  · exact State.msixEval_chg hw.up (State.wr_chg hw.up hs)
  · exact hs

theorem State.blkLock_chg {pg : Nat} {v : Word} (hw : Within [.regs] w) (hs : Chg w s0 s) : Chg w s0 (State.blkLock s pg v) := by
  unfold State.blkLock
  exact Chg.ite (State.wf_chg hw.up hs) (hs)

theorem State.errRearm_chg {pg : Nat} {v : Word} (hw : Within [.regs] w) (hs : Chg w s0 s) : Chg w s0 (State.errRearm s pg v) := by
  unfold State.errRearm
  exact Chg.ite (Chg.foldl (fun t2 _ h1 => State.wr_chg hw.up h1) (hs)) (hs)

theorem State.maskWrite_chg {v : Word} (hw : Within [.regs] w) (hs : Chg w s0 s) : Chg w s0 (State.maskWrite s v) := by
  unfold State.maskWrite
  exact State.wr_chg hw.up hs

theorem State.flushPort_chg {p : Nat} (hw : Within [.regs, .msix, .bsn, .egr, .ept, .mgs, .out] w) (hs : Chg w s0 s) : Chg w s0 (State.flushPort s p) := by
  unfold State.flushPort
  extract_lets -underBinder -merge +onlyGivenNames e1 cut2 s7
  have h3 : ∀ z4 z6, Chg w s0 z4 → Chg w s0 (cut2 z4 z6) := by
    intro z4 z6 h5
    unfold cut2
    split
    · exact h5
    · split
      · exact State.emit_chg hw.up (State.poisonOne_chg hw.up h5)
      · exact State.emit_chg hw.up h5
  have h8 : Chg w s0 s7 := Chg.ite (hs) (h3 _ _ (h3 _ _ (hs)))
  exact State.setEport_chg hw.up (State.setEg_chg hw.up h8)

theorem State.flushFrame_chg {f : Frame} (hw : Within [.regs, .msix, .out] w) (hs : Chg w s0 s) : Chg w s0 (State.flushFrame s f) := by
  unfold State.flushFrame
  exact Chg.foldl (fun t2 _ h1 => Chg.ite (State.anyDrop_chg hw.up h1) (h1)) (hs)

theorem State.flushTxl_chg {c : Nat} (hw : Within [.regs, .can] w) (hs : Chg w s0 s) : Chg w s0 (State.flushTxl s c) := by
  unfold State.flushTxl
  extract_lets -underBinder -merge +onlyGivenNames x1
  exact Chg.foldl (fun t3 _ h2 => State.bsnDrop_chg hw.up h2) (State.setCch_chg hw.up hs)

theorem State.basinDrop_chg (hw : Within [.regs, .msix, .bsn, .egr, .fgd, .ept, .can, .mgs, .out] w) (hs : Chg w s0 s) : Chg w s0 (State.basinDrop s) := by
  unfold State.basinDrop
  extract_lets -underBinder -merge +onlyGivenNames s1 s5 s9 src13
  have h2 : Chg w s0 s1 := Chg.foldl (fun t4 _ h3 => State.flushFrame_chg hw.up h3) (hs)
  have h6 : Chg w s0 s5 := Chg.foldl (fun t8 _ h7 => State.flushTxl_chg hw.up h7) (h2)
  have h10 : Chg w s0 s9 := Chg.foldl (fun t12 _ h11 => State.flushPort_chg hw.up h11) (h6)
  have h14 : Chg w s0 src13 := State.fgdLost_chg hw.up h10
  exact Chg.upd_bsn hw.mem h14 _

theorem State.basinReset_chg (hw : Within [.regs, .msix, .bsn, .egr, .fgd, .ept, .can, .mgs, .out] w) (hs : Chg w s0 s) : Chg w s0 (State.basinReset s) := by
  unfold State.basinReset
  extract_lets -underBinder -merge +onlyGivenNames s1 s3
  have h2 : Chg w s0 s1 := State.basinDrop_chg hw.up hs
  have h4 : Chg w s0 s3 := Chg.foldl (fun t6 _ h5 => Chg.ite (State.setRxf_chg hw.up h5) (State.rxReset_chg hw.up h5)) (h2)
  exact Chg.upd_bsn hw.mem h4 _

theorem State.tapSettle_chg (hw : Within [.regs, .slots, .fences, .tbl, .stage, .commitQ, .commits, .lrn, .bsn, .cfl, .mgs, .svc] w) (hs : Chg w s0 s) : Chg w s0 (State.tapSettle s) := by
  unfold State.tapSettle
  extract_lets -underBinder -merge +onlyGivenNames src1
  have h2 : Chg w s0 src1 := Chg.foldl (fun t4 _ h3 => State.tapCommitFinish_chg hw.up h3) (hs)
  exact (show ∀ v0 v1, Chg w s0 { src1 with stage := v0, commits := v1 } from fun v0 v1 => Chg.upd_commits hw.mem (Chg.upd_stage hw.mem h2 v0) v1) _ _

theorem State.blockReset_chg {b : Blk} {i : Nat} (hw : Within [.regs, .slots, .fences, .holds, .tbl, .stage, .commitQ, .commits, .msix, .lrn, .bsn, .meters, .egr, .slu, .bud, .fre, .fgd, .had, .ept, .hif, .can, .lin, .cfl, .vlt, .auth, .twn, .tim, .pwr, .mgs, .svc, .inj, .out, .free] w) (hs : Chg w s0 s) : Chg w s0 (State.blockReset s b i) := by
  unfold State.blockReset
  split
  · exact State.tapSettle_chg hw.up hs
  · exact (show ∀ v0 v1, Chg w s0 { s with fences := v0, holds := v1 } from fun v0 v1 => Chg.upd_holds hw.mem (Chg.upd_fences hw.mem hs v0) v1) _ _
  · exact Chg.upd_pwr hw.mem hs _
  · exact Chg.upd_bsn hw.mem hs _
  · extract_lets -underBinder -merge +onlyGivenNames src1
    have h2 : Chg w s0 src1 := State.adtFinish_chg hw.up hs
    exact Chg.upd_lrn hw.mem h2 _
  · exact State.basinReset_chg hw.up hs
  · exact Chg.upd_bsn hw.mem hs _
  · extract_lets -underBinder -merge +onlyGivenNames e3
    exact State.budDue_chg hw.up (State.setEg_chg hw.up hs)
  · exact Chg.upd_meters hw.mem hs _
  · exact State.budDue_chg hw.up (State.setSluice_chg hw.up hs)
  · extract_lets -underBinder -merge +onlyGivenNames s4
    have h5 : Chg w s0 s4 := Chg.foldl (fun t7 _ h6 => Chg.ite (h6) (State.resvFree_chg hw.up h6)) (hs)
    exact Chg.upd_bud hw.mem h5 _
  · exact State.vltDrop_chg hw.up (Chg.upd_had hw.mem hs _)
  · exact Chg.upd_fgd hw.mem hs _
  · exact Chg.upd_fre hw.mem hs _
  · exact State.setEport_chg hw.up (State.linkDrop_chg hw.up hs)
  · extract_lets -underBinder -merge +onlyGivenNames x8 s9 s11 src13
    have h10 : Chg w s0 s9 := State.txlFlush_chg hw.up hs
    have h12 : Chg w s0 s11 := by
      unfold s11
      split
      · exact State.copyDone_chg hw.up h10
      · exact h10
    have h14 : Chg w s0 src13 := State.setCch_chg hw.up h12
    exact Chg.upd_auth hw.mem h14 _
  · exact State.setLch_chg hw.up hs
  · exact State.cflReset_chg hw.up hs
  · exact Chg.upd_tim hw.mem hs _
  · exact State.setDom_chg hw.up hs
  · exact State.vltDrop_chg hw.up hs
  · exact Chg.upd_auth hw.mem hs _
  · extract_lets -underBinder -merge +onlyGivenNames src15
    have h16 : Chg w s0 src15 := State.budDue_chg hw.up hs
    exact Chg.upd_auth hw.mem h16 _
  · exact State.vltDrop_chg hw.up (Chg.upd_mgs hw.mem hs ⟨Nat.le_refl _, Nat.le_refl _, Nat.le_refl _, Nat.le_refl _⟩)
  · exact Chg.upd_mgs hw.mem hs ⟨Nat.le_refl _, Nat.le_refl _, Nat.le_refl _, Nat.le_refl _⟩
  · exact Chg.upd_mgs hw.mem hs ⟨Nat.le_refl _, Nat.le_refl _, Nat.le_refl _, Nat.le_refl _⟩
  · extract_lets -underBinder -merge +onlyGivenNames s17
    have h18 : Chg w s0 s17 := Chg.foldl (fun t20 _ h19 => Chg.ite (State.partStop_chg hw.up h19) (h19)) (hs)
    exact Chg.upd_svc hw.mem h18 _
  · extract_lets -underBinder -merge +onlyGivenNames s21 src23
    have h22 : Chg w s0 s21 := by
      unfold s21
      split
      · exact State.portLost_chg hw.up hs
      · exact hs
    have h24 : Chg w s0 src23 := State.hostRingsOff_chg hw.up h22
    exact Chg.upd_hif hw.mem h24 _
  · exact State.setTwn_chg hw.up hs
  · exact hs

theorem State.regsReset_chg {pg : Nat} (hw : Within [.regs] w) (hs : Chg w s0 s) : Chg w s0 (State.regsReset s pg) := by
  unfold State.regsReset
  exact Chg.upd_regs hw.mem hs (Tab.wf_keep _ _)

theorem State.slotsReset_chg {b : Blk} {pg : Nat} (hw : Within [.slots, .snaps, .svc] w) (hs : Chg w s0 s) : Chg w s0 (State.slotsReset s b pg) := by
  unfold State.slotsReset
  extract_lets -underBinder -merge +onlyGivenNames s1
  have h2 : Chg w s0 s1 := State.setSnap_chg hw.up (State.setSlot_chg hw.up hs)
  split
  · extract_lets -underBinder -merge +onlyGivenNames s3
    have h4 : Chg w s0 s3 := Chg.foldl (fun t6 _ h5 => State.setSlot_chg hw.up h5) (h2)
    exact Chg.upd_svc hw.mem h4 _
  · exact h2

theorem State.pageReset_chg {pg : Nat} (hw : Within [.regs, .slots, .fences, .holds, .snaps, .tbl, .stage, .commitQ, .commits, .msix, .lrn, .bsn, .meters, .egr, .slu, .bud, .fre, .fgd, .had, .ept, .hif, .can, .lin, .cfl, .vlt, .auth, .twn, .tim, .pwr, .mgs, .svc, .inj, .out, .free] w) (hs : Chg w s0 s) : Chg w s0 (State.pageReset s pg) := by
  unfold State.pageReset
  split
  · exact hs
  · extract_lets -underBinder -merge +onlyGivenNames t1
    have h2 : Chg w s0 t1 := State.msixEval_chg hw.up (State.regsReset_chg hw.up (State.slotsReset_chg hw.up (State.blockReset_chg hw.up hs)))
    split
    · exact State.train_chg hw.up h2
    · exact h2

theorem State.softRst_chg {pg : Nat} (hw : Within [.regs, .slots, .fences, .holds, .snaps, .tbl, .stage, .commitQ, .commits, .msix, .resets, .lrn, .bsn, .meters, .egr, .slu, .bud, .fre, .fgd, .had, .ept, .hif, .can, .lin, .cfl, .vlt, .auth, .twn, .tim, .pwr, .mgs, .svc, .inj, .out, .free] w) (hs : Chg w s0 s) : Chg w s0 (State.softRst s pg) := by
  unfold State.softRst
  extract_lets -underBinder -merge +onlyGivenNames s1
  have h2 : Chg w s0 s1 := State.wf_chg hw.up (State.pageReset_chg hw.up hs)
  exact Chg.upd_resets hw.mem h2 _

theorem State.softRstDone_chg {pg : Nat} (hw : Within [.regs, .resets] w) (hs : Chg w s0 s) : Chg w s0 (State.softRstDone s pg) := by
  unfold State.softRstDone
  refine Chg.ite ?_ ?_
  · extract_lets -underBinder -merge +onlyGivenNames src1
    have h2 : Chg w s0 src1 := State.wf_chg hw.up hs
    exact Chg.upd_resets hw.mem h2 _
  · exact hs

theorem State.quiesceSet_chg {pg : Nat} {on : Bool} (hw : Within [.regs] w) (hs : Chg w s0 s) : Chg w s0 (State.quiesceSet s pg on) := by
  unfold State.quiesceSet
  extract_lets -underBinder -merge +onlyGivenNames s1
  have h2 : Chg w s0 s1 := State.wf_chg hw.up hs
  exact Chg.ite (h2) (State.wf_chg hw.up h2)

theorem State.quiesced_chg {pg : Nat} (hw : Within [.regs, .pwr] w) (hs : Chg w s0 s) : Chg w s0 (State.quiesced s pg) := by
  unfold State.quiesced
  refine Chg.ite ?_ ?_
  · extract_lets -underBinder -merge +onlyGivenNames s1
    have h2 : Chg w s0 s1 := State.wf_chg hw.up hs
    exact Chg.upd_pwr hw.mem h2 _
  · exact hs

theorem State.enChanged_chg {b : Blk} {i : Nat} {was : Bool} (hw : Within [.regs, .msix, .bsn, .meters, .egr, .bud, .fre, .fgd, .had, .ept, .can, .lin, .cfl, .vlt, .auth, .mgs, .inj, .out, .free] w) (hs : Chg w s0 s) : Chg w s0 (State.enChanged s b i was) := by
  unfold State.enChanged
  refine Chg.ite ?_ ?_
  · exact hs
  · split
    · exact State.eptEnabled_chg hw.up hs
    · exact State.canEnabled_chg hw.up hs
    · exact State.linEnabled_chg hw.up hs
    · exact State.cflEnabled_chg hw.up hs
    · exact hs

theorem State.enWrite_chg {b : Blk} {i : Nat} {on : Bool} (hw : Within [.regs, .msix, .bsn, .meters, .egr, .bud, .fre, .fgd, .had, .ept, .can, .lin, .cfl, .vlt, .auth, .mgs, .inj, .out, .free] w) (hs : Chg w s0 s) : Chg w s0 (State.enWrite s b i on) := by
  unfold State.enWrite
  split
  · exact hs
  · exact hs
  · exact hs
  · exact hs
  · exact hs
  · extract_lets -underBinder -merge +onlyGivenNames s1
    have h2 : Chg w s0 s1 := State.wf_chg hw.up hs
    exact State.linEnabled_chg hw.up h2
  · exact State.enChanged_chg hw.up (State.wf_chg hw.up hs)

theorem State.blkCtrlWrite_chg {pg : Nat} {v : Word} (hw : Within [.regs, .slots, .fences, .holds, .snaps, .tbl, .stage, .commitQ, .commits, .msix, .resets, .lrn, .bsn, .meters, .egr, .slu, .bud, .fre, .fgd, .had, .ept, .hif, .can, .lin, .cfl, .vlt, .auth, .twn, .tim, .pwr, .mgs, .svc, .inj, .out, .free] w) (hs : Chg w s0 s) : Chg w s0 (State.blkCtrlWrite s pg v) := by
  unfold State.blkCtrlWrite
  split
  · exact hs
  · refine Chg.ite ?_ ?_
    · exact State.softRst_chg hw.up hs
    · extract_lets -underBinder -merge +onlyGivenNames s1
      have h2 : Chg w s0 s1 := State.enWrite_chg hw.up hs
      exact Chg.ite (h2) (State.quiesceSet_chg hw.up h2)

theorem State.setGate_chg {pg : Nat} {g : Gate} (hw : Within [.pwr] w) (hs : Chg w s0 s) : Chg w s0 (State.setGate s pg g) := by
  unfold State.setGate
  exact Chg.upd_pwr hw.mem hs _

theorem State.gateRej_chg (hw : Within [.regs, .msix, .out] w) (hs : Chg w s0 s) : Chg w s0 (State.gateRej s) := by
  unfold State.gateRej
  exact State.raise_chg hw.up (State.evt_chg hw.up hs)

theorem State.gateAsk_chg {pg : Nat} (hw : Within [.regs, .msix, .pwr, .out] w) (hs : Chg w s0 s) : Chg w s0 (State.gateAsk s pg) := by
  unfold State.gateAsk
  split
  · exact State.gateRej_chg hw.up hs
  · exact Chg.ite (State.gateRej_chg hw.up hs) (State.quiesceSet_chg hw.up (State.setGate_chg hw.up hs))

theorem State.gateFree_chg {pg : Nat} (hw : Within [.regs, .msix, .bsn, .meters, .egr, .bud, .fre, .fgd, .had, .ept, .can, .lin, .cfl, .vlt, .auth, .pwr, .mgs, .inj, .out, .free] w) (hs : Chg w s0 s) : Chg w s0 (State.gateFree s pg) := by
  unfold State.gateFree
  split
  · exact hs
  · exact State.enChanged_chg hw.up (State.quiesceSet_chg hw.up (State.setGate_chg hw.up hs))

theorem State.gateWrite_chg {v : Word} (hw : Within [.regs, .msix, .bsn, .meters, .egr, .bud, .fre, .fgd, .had, .ept, .can, .lin, .cfl, .vlt, .auth, .pwr, .mgs, .inj, .out, .free] w) (hs : Chg w s0 s) : Chg w s0 (State.gateWrite s v) := by
  unfold State.gateWrite
  extract_lets -underBinder -merge +onlyGivenNames pg1
  exact Chg.ite (hs) (Chg.ite (State.gateAsk_chg hw.up hs) (State.gateFree_chg hw.up hs))

theorem State.gateClose_chg {pg : Nat} (hw : Within [.regs, .msix, .pwr, .mgs, .out] w) (hs : Chg w s0 s) : Chg w s0 (State.gateClose s pg) := by
  unfold State.gateClose
  extract_lets -underBinder -merge +onlyGivenNames g1
  exact Chg.ite (hs) (Chg.ite (State.setGate_chg hw.up hs) (Chg.ite (hs) (State.logEvt_chg hw.up (State.raise_chg hw.up (State.evt_chg hw.up (State.setGate_chg hw.up hs))))))

theorem State.wsrcWrite_chg {m : Nat} {k : Nat} {v : Word} (hw : Within [.regs, .pwr] w) (hs : Chg w s0 s) : Chg w s0 (State.wsrcWrite s m k v) := by
  unfold State.wsrcWrite
  exact State.rearm_chg hw.up (State.plainWrite_chg hw.up hs)

theorem State.clkCfgWrite_chg {m : Nat} {v : Word} (hw : Within [.regs] w) (hs : Chg w s0 s) : Chg w s0 (State.clkCfgWrite s m v) := by
  unfold State.clkCfgWrite
  extract_lets -underBinder -merge +onlyGivenNames s1
  have h2 : Chg w s0 s1 := State.plainWrite_chg hw.up hs
  exact Chg.ite (h2) (State.wf_chg hw.up h2)

theorem State.pfcWrite_chg {i : Nat} {hi : Bool} {v : Word} (hw : Within [.regs] w) (hs : Chg w s0 s) : Chg w s0 (State.pfcWrite s i hi v) := by
  unfold State.pfcWrite
  refine Chg.ite ?_ ?_
  · exact hs
  · refine Chg.ite ?_ ?_
    · extract_lets -underBinder -merge +onlyGivenNames s1
      have h2 : Chg w s0 s1 := State.wf_chg hw.up hs
      exact Chg.ite (State.wf_chg hw.up h2) (h2)
    · exact State.wr_chg hw.up hs

theorem State.gpioWrite_chg {v : Word} (hw : Within [.regs, .msix, .out] w) (hs : Chg w s0 s) : Chg w s0 (State.gpioWrite s v) := by
  unfold State.gpioWrite
  extract_lets -underBinder -merge +onlyGivenNames h1 old2 s3
  have h4 : Chg w s0 s3 := State.wr_chg hw.up hs
  exact Chg.ite (h4) (State.raise_chg hw.up (State.evt_chg hw.up h4))

theorem State.gpioEdge_chg {n : Nat} {level : Bool} (hw : Within [.regs, .msix, .out] w) (hs : Chg w s0 s) : Chg w s0 (State.gpioEdge s n level) := by
  unfold State.gpioEdge
  refine Chg.ite ?_ ?_
  · exact hs
  · extract_lets -underBinder -merge +onlyGivenNames s1
    have h2 : Chg w s0 s1 := State.wf_chg hw.up hs
    exact Chg.ite (State.raise_chg hw.up (State.wf_chg hw.up h2)) (h2)

theorem State.ptpCfgWrite_chg {m : Nat} {p : Nat} {v : Word} (hw : Within [.regs, .msix, .out] w) (hs : Chg w s0 s) : Chg w s0 (State.ptpCfgWrite s m p v) := by
  unfold State.ptpCfgWrite
  exact Chg.ite (State.raise_chg hw.up (State.evt_chg hw.up hs)) (State.plainWrite_chg hw.up hs)

theorem State.srvLevel_chg (hw : Within [.regs, .msix, .out] w) (hs : Chg w s0 s) : Chg w s0 (State.srvLevel s) := by
  unfold State.srvLevel
  extract_lets -underBinder -merge +onlyGivenNames a1
  exact State.msixEval_chg hw.up (State.wf_chg hw.up hs)

theorem State.canWrite_chg {m : Nat} {c : Nat} {a : Nat} {v : Word} (hw : Within [.regs, .msix, .bsn, .can, .mgs, .out] w) (hs : Chg w s0 s) : Chg w s0 (State.canWrite s m c a v) := by
  unfold State.canWrite
  extract_lets -underBinder -merge +onlyGivenNames off1
  exact Chg.ite (State.canModeWrite_chg hw.up hs) (Chg.ite (State.canTimingWrite_chg hw.up hs) (State.plainWrite_chg hw.up hs))

theorem State.egsWrite_chg {m : Nat} {p : Nat} {a : Nat} {v : Word} (hw : Within [.regs, .msix, .egr, .bud, .out] w) (hs : Chg w s0 s) : Chg w s0 (State.egsWrite s m p a v) := by
  unfold State.egsWrite
  extract_lets -underBinder -merge +onlyGivenNames off1
  exact Chg.ite (State.egsPortWrite_chg hw.up hs) (Chg.ite (State.egsTcWrite_chg hw.up hs) (Chg.ite (State.egsSlopeWrite_chg hw.up hs) (State.plainWrite_chg hw.up hs)))

theorem State.sluWrite_chg {m : Nat} {p : Nat} {a : Nat} {v : Word} (hw : Within [.regs, .msix, .egr, .slu, .bud, .out, .free] w) (hs : Chg w s0 s) : Chg w s0 (State.sluWrite s m p a v) := by
  unfold State.sluWrite
  extract_lets -underBinder -merge +onlyGivenNames off1
  exact Chg.ite (State.sluCtrlWrite_chg hw.up hs) (Chg.ite (State.sluAdminWrite_chg hw.up hs) (Chg.ite (State.gclWrite_chg hw.up hs) (Chg.ite (State.gclWrite_chg hw.up hs) (State.plainWrite_chg hw.up hs))))

theorem State.bsnWrite_chg {m : Nat} {a : Nat} {v : Word} (hw : Within [.regs, .msix, .bsn, .bud, .mgs, .out] w) (hs : Chg w s0 s) : Chg w s0 (State.bsnWrite s m a v) := by
  unfold State.bsnWrite
  extract_lets -underBinder -merge +onlyGivenNames off1
  exact Chg.ite (State.bsnCfgWrite_chg hw.up hs) (Chg.ite (State.qcfgWrite_chg hw.up hs) (Chg.ite (State.flowSeedWrite_chg hw.up hs) (State.plainWrite_chg hw.up hs)))

theorem State.hifWrite_chg {m : Nat} {a : Nat} {v : Word} (hw : Within [.regs, .msix, .bsn, .meters, .egr, .bud, .fre, .fgd, .had, .ept, .hif, .vlt, .auth, .mgs, .inj, .out, .free] w) (hs : Chg w s0 s) : Chg w s0 (State.hifWrite s m a v) := by
  unfold State.hifWrite
  extract_lets -underBinder -merge +onlyGivenNames off1
  refine Chg.ite ?_ ?_
  · exact State.hifCfgWrite_chg hw.up hs
  · refine Chg.ite ?_ ?_
    · exact State.ringCtrlWrite_chg hw.up hs
    · split
      · exact State.ringCfgWrite_chg hw.up hs
      · exact State.plainWrite_chg hw.up hs

theorem State.lceCfgWrite_chg {m : Nat} {p : Nat} {v : Word} (hw : Within [.regs, .bud] w) (hs : Chg w s0 s) : Chg w s0 (State.lceCfgWrite s m p v) := by
  unfold State.lceCfgWrite
  extract_lets -underBinder -merge +onlyGivenNames t1
  have h2 : Chg w s0 t1 := State.plainWrite_chg hw.up hs
  exact Chg.ite (h2) (State.budDue_chg hw.up h2)

theorem State.ownWrite_chg {b : Blk} {i : Nat} {m : Nat} {a : Nat} {v : Word} (hw : Within [.regs, .tbl, .msix, .lrn, .bsn, .meters, .egr, .slu, .bud, .fre, .fgd, .had, .ept, .hif, .can, .lin, .cfl, .vlt, .auth, .twn, .tim, .pwr, .mgs, .inj, .out, .free] w) (hs : Chg w s0 s) : Chg w s0 (State.ownWrite s b i m a v) := by
  unfold State.ownWrite
  extract_lets -underBinder -merge +onlyGivenNames off1
  split
  · exact Chg.ite (State.maskWrite_chg hw.up hs) (Chg.ite (State.msixEval_chg hw.up (State.plainWrite_chg hw.up hs)) (State.plainWrite_chg hw.up hs))
  · exact Chg.ite (State.gateWrite_chg hw.up hs) (State.plainWrite_chg hw.up hs)
  · exact Chg.ite (State.wsrcWrite_chg hw.up hs) (Chg.ite (State.clkCfgWrite_chg hw.up hs) (State.plainWrite_chg hw.up hs))
  · exact Chg.ite (State.pfcWrite_chg hw.up hs) (State.plainWrite_chg hw.up hs)
  · exact Chg.ite (State.twinCfgWrite_chg hw.up hs) (State.plainWrite_chg hw.up hs)
  · exact State.hifWrite_chg hw.up hs
  · exact Chg.ite (State.gpioWrite_chg hw.up hs) (State.plainWrite_chg hw.up hs)
  · exact State.seedWrite_chg hw.up hs
  · exact Chg.ite (State.seedWrite_chg hw.up hs) (State.plainWrite_chg hw.up hs)
  · exact Chg.ite (State.lrnAgeWrite_chg hw.up hs) (Chg.ite (State.anchorCtrlWrite_chg hw.up hs) (State.plainWrite_chg hw.up hs))
  · exact State.bsnWrite_chg hw.up hs
  · exact Chg.ite (State.edyRateWrite_chg hw.up hs) (State.plainWrite_chg hw.up hs)
  · exact State.egsWrite_chg hw.up hs
  · exact State.sluWrite_chg hw.up hs
  · exact Chg.ite (State.budCfgWrite_chg hw.up hs) (State.plainWrite_chg hw.up hs)
  · exact Chg.ite (State.hadPortWrite_chg hw.up hs) (State.plainWrite_chg hw.up hs)
  · exact Chg.ite (State.eptCfgWrite_chg hw.up hs) (State.eptWrite_chg hw.up hs)
  · exact State.canWrite_chg hw.up hs
  · exact Chg.ite (State.frcIncWrite_chg hw.up hs) (Chg.ite (State.ptpCfgWrite_chg hw.up hs) (State.plainWrite_chg hw.up hs))
  · exact Chg.ite (State.domCfgWrite_chg hw.up hs) (Chg.ite (State.domRateMaxWrite_chg hw.up hs) (State.plainWrite_chg hw.up hs))
  · exact Chg.ite (State.srvLevel_chg hw.up (State.plainWrite_chg hw.up hs)) (State.plainWrite_chg hw.up hs)
  · exact Chg.ite (State.lceCfgWrite_chg hw.up hs) (State.plainWrite_chg hw.up hs)
  · exact Chg.ite (State.ddrCfgWrite_chg hw.up hs) (State.plainWrite_chg hw.up hs)
  · exact State.plainWrite_chg hw.up hs

theorem State.cfgWrite_chg {m : Nat} {a : Nat} {v : Word} (hw : Within [.regs, .slots, .fences, .holds, .snaps, .tbl, .stage, .commitQ, .commits, .msix, .resets, .lrn, .bsn, .meters, .egr, .slu, .bud, .fre, .fgd, .had, .ept, .hif, .can, .lin, .cfl, .vlt, .auth, .twn, .tim, .pwr, .mgs, .svc, .inj, .out, .free] w) (hs : Chg w s0 s) : Chg w s0 (State.cfgWrite s m a v) := by
  unfold State.cfgWrite
  split
  · exact hs
  · exact Chg.ite (Chg.ite (State.blkCtrlWrite_chg hw.up hs) (Chg.ite (State.msixEval_chg hw.up (State.plainWrite_chg hw.up hs)) (hs))) (State.ownWrite_chg hw.up hs)

theorem State.setMgs_chg {v : MgsSt} (hw : Within [.mgs] w) (hs : Chg w s0 s) (hv : MgsOn s.mgs v) : Chg w s0 (State.setMgs s v) := by
  unfold State.setMgs
  exact Chg.upd_mgs hw.mem hs hv

theorem State.checkpoint_chg (hw : Within [.regs, .msix, .mgs, .out] w) (hs : Chg w s0 s) : Chg w s0 (State.checkpoint s) := by
  unfold State.checkpoint
  extract_lets -underBinder -merge +onlyGivenNames b1 sig2 s3
  have h4 : Chg w s0 s3 := Chg.ite (hs) (State.evt_chg hw.up hs)
  exact State.raise_chg hw.up (State.setMgs_chg hw.up h4 ⟨Nat.le_refl _, Nat.le_refl _, Nat.le_refl _, Nat.le_refl _⟩)

theorem State.genWrite_chg {r : LogRec} (hw : Within [.mgs] w) (hs : Chg w s0 s) : Chg w s0 (State.genWrite s r) := by
  unfold State.genWrite
  extract_lets -underBinder -merge +onlyGivenNames m1
  exact State.setMgs_chg hw.up hs ⟨Nat.le_refl _, Nat.le_succ _, Nat.le_refl _, Nat.le_refl _⟩

theorem State.secWrite_chg {r : LogRec} (hw : Within [.regs, .msix, .mgs, .out] w) (hs : Chg w s0 s) : Chg w s0 (State.secWrite s r) := by
  unfold State.secWrite
  extract_lets -underBinder -merge +onlyGivenNames m1 full2 lost3 s4 s6
  have h5 : Chg w s0 s4 := State.setMgs_chg hw.up hs ⟨Nat.le_refl _, Nat.le_refl _, Nat.le_succ _, Nat.le_refl _⟩
  have h7 : Chg w s0 s6 := Chg.ite (State.raise_chg hw.up (State.evt_chg hw.up h5)) (h5)
  exact Chg.ite (State.raise_chg hw.up h7) (h7)

theorem State.logWrite_chg {r : LogReq} (hw : Within [.regs, .msix, .mgs, .out] w) (hs : Chg w s0 s) : Chg w s0 (State.logWrite s r) := by
  unfold State.logWrite
  extract_lets -underBinder -merge +onlyGivenNames n1 e2 src3 s4 s6
  have h5 : Chg w s0 s4 := State.setMgs_chg hw.up hs ⟨Nat.le_refl _, Nat.le_refl _, Nat.le_refl _, Nat.le_refl _⟩
  have h7 : Chg w s0 s6 := State.stat_chg hw.up (Chg.ite (State.secWrite_chg hw.up h5) (State.genWrite_chg hw.up h5))
  exact Chg.ite (State.checkpoint_chg hw.up h7) (h7)

theorem State.rateNow_chg (hw : Within [.mgs] w) (hs : Chg w s0 s) : Chg w s0 (State.rateNow s) := by
  unfold State.rateNow
  extract_lets -underBinder -merge +onlyGivenNames t1
  exact Chg.ite (hs) (State.setMgs_chg hw.up hs ⟨Nat.le_refl _, Nat.le_refl _, Nat.le_refl _, Nat.le_refl _⟩)

theorem State.logTake_chg {r : LogReq} (hw : Within [.regs, .msix, .mgs, .out] w) (hs : Chg w s0 s) : Chg w s0 (State.logTake s r) := by
  unfold State.logTake
  refine Chg.ite ?_ ?_
  · exact State.logWrite_chg hw.up hs
  · extract_lets -underBinder -merge +onlyGivenNames s1
    have h2 : Chg w s0 s1 := State.rateNow_chg hw.up hs
    exact Chg.ite (State.logWrite_chg hw.up (State.setMgs_chg hw.up h2 ⟨Nat.le_refl _, Nat.le_refl _, Nat.le_refl _, Nat.le_refl _⟩)) (State.raise_chg hw.up (State.evt_chg hw.up (State.setMgs_chg hw.up h2 ⟨Nat.le_refl _, Nat.le_refl _, Nat.le_refl _, Nat.le_refl _⟩)))

theorem State.logFront_chg (hw : Within [.regs, .msix, .mgs, .out] w) (hs : Chg w s0 s) : Chg w s0 (State.logFront s) := by
  unfold State.logFront
  split
  · exact hs
  · exact Chg.ite (State.logTake_chg hw.up (State.setMgs_chg hw.up hs ⟨Nat.le_refl _, Nat.le_refl _, Nat.le_refl _, Nat.le_refl _⟩)) (hs)

theorem State.logFlush_chg (hw : Within [.regs, .msix, .mgs, .out] w) (hs : Chg w s0 s) : Chg w s0 (State.logFlush s) := by
  unfold State.logFlush
  extract_lets -underBinder -merge +onlyGivenNames q1
  exact Chg.foldl (fun t3 _ h2 => State.logTake_chg hw.up h2) (State.setMgs_chg hw.up hs ⟨Nat.le_refl _, Nat.le_refl _, Nat.le_refl _, Nat.le_refl _⟩)

theorem State.suppressed_chg (hw : Within [.regs, .msix, .mgs, .out] w) (hs : Chg w s0 s) : Chg w s0 (State.suppressed s) := by
  unfold State.suppressed
  refine Chg.ite ?_ ?_
  · extract_lets -underBinder -merge +onlyGivenNames r1
    exact State.logTake_chg hw.up (State.setMgs_chg hw.up hs ⟨Nat.le_refl _, Nat.le_refl _, Nat.le_refl _, Nat.le_refl _⟩)
  · exact hs

theorem State.secAck_chg {n : Nat} (hw : Within [.mgs] w) (hs : Chg w s0 s) : Chg w s0 (State.secAck s n) := by
  unfold State.secAck
  extract_lets -underBinder -merge +onlyGivenNames upto1 k2 left3
  exact State.setMgs_chg hw.up hs ⟨Nat.le_refl _, Nat.le_refl _, Nat.le_refl _, Nat.le_refl _⟩

theorem State.snapLog_chg (hw : Within [.mgs] w) (hs : Chg w s0 s) : Chg w s0 (State.snapLog s) := by
  unfold State.snapLog
  exact Chg.foldl (fun t2 _ h1 => State.logReq_chg hw.up h1) (hs)

theorem State.saveAdd_chg {b : JBody} (hw : Within [.regs, .msix, .mgs, .out] w) (hs : Chg w s0 s) : Chg w s0 (State.saveAdd s b) := by
  unfold State.saveAdd
  extract_lets -underBinder -merge +onlyGivenNames t1
  have h2 : Chg w s0 t1 := Chg2.snd (State.journalAdd_chg hw.up hs)
  exact Chg.upd_mgs hw.mem h2 ⟨Nat.le_refl _, Nat.le_refl _, Nat.le_refl _, Nat.le_refl _⟩

theorem State.saveRange_chg {lo : Nat} {hi : Nat} (hw : Within [.regs, .msix, .mgs, .out] w) (hs : Chg w s0 s) : Chg w s0 (State.saveRange s lo hi) := by
  unfold State.saveRange
  extract_lets -underBinder -merge +onlyGivenNames src1 s2 s4
  have h3 : Chg w s0 s2 := Chg.upd_mgs hw.mem hs ⟨Nat.le_refl _, Nat.le_refl _, Nat.le_refl _, Nat.le_refl _⟩
  have h5 : Chg w s0 s4 := Chg.foldl (fun t7 _ h6 => State.saveAdd_chg hw.up h6) (h3)
  exact Chg.ite (State.saveAdd_chg hw.up h5) (h5)

theorem State.commitRecord_chg (hw : Within [.regs, .slots, .msix, .mgs, .svc, .out] w) (hs : Chg w s0 s) : Chg w s0 (State.commitRecord s) := by
  unfold State.commitRecord
  split
  · exact hs
  · refine Chg.ite ?_ ?_
    · exact hs
    · extract_lets -underBinder -merge +onlyGivenNames src1 s2 res4 due5 left6
      have h3 : Chg w s0 s2 := Chg2.snd (State.journalAdd_chg hw.up (State.setMgs_chg hw.up hs ⟨Nat.le_refl _, Nat.le_refl _, Nat.le_refl _, Nat.le_refl _⟩))
      exact Chg.foldl (fun t8 _ h7 => State.complete_chg hw.up h7) (State.setMgs_chg hw.up h3 ⟨Nat.le_refl _, Nat.le_refl _, Nat.le_refl _, Nat.le_refl _⟩)

theorem State.compact_chg (hw : Within [.mgs] w) (hs : Chg w s0 s) : Chg w s0 (State.compact s) := by
  unfold State.compact
  exact Chg.ite (State.setMgs_chg hw.up hs ⟨Nat.le_refl _, Nat.le_refl _, Nat.le_refl _, Nat.le_refl _⟩) (hs)

theorem State.saRestore_chg {n : Nat} {a : Sa} (hw : Within [.vlt, .auth] w) (hs : Chg w s0 s) : Chg w s0 (State.saRestore s n a) := by
  unfold State.saRestore
  extract_lets -underBinder -merge +onlyGivenNames a1
  refine Chg.ite ?_ ?_
  · exact State.setSa_chg hw.up hs
  · extract_lets -underBinder -merge +onlyGivenNames slept2
    split
    · exact Chg.ite (State.setSa_chg hw.up hs) (State.reserve_chg hw.up (State.setSa_chg hw.up hs))

theorem State.cauRestore_chg {n : Nat} {x : CauEnt} (hw : Within [.vlt, .auth] w) (hs : Chg w s0 s) : Chg w s0 (State.cauRestore s n x) := by
  unfold State.cauRestore
  extract_lets -underBinder -merge +onlyGivenNames x1 slept2
  refine Chg.ite ?_ ?_
  · exact State.setCau_chg hw.up hs
  · refine Chg.ite ?_ ?_
    · split
      · extract_lets -underBinder -merge +onlyGivenNames fv3 s4
        have h5 : Chg w s0 s4 := State.setCau_chg hw.up hs
        exact State.reserve_chg hw.up h5
    · extract_lets -underBinder -merge +onlyGivenNames fv6
      exact State.setCau_chg hw.up hs

theorem State.viewStart_chg {v : Nat} (hw : Within [.fgd, .vlt] w) (hs : Chg w s0 s) : Chg w s0 (State.viewStart s v) := by
  unfold State.viewStart
  split
  · exact hs
  · split
    · exact State.setView_chg hw.up hs
    · exact State.reserve_chg hw.up (State.setView_chg hw.up hs)

theorem State.itemRestore_chg {p : Nat} {a : JItem} (hw : Within [.regs, .meters, .slu, .fre, .fgd, .vlt, .auth] w) (hs : Chg w s0 s) : Chg w s0 (State.itemRestore s p a) := by
  unfold State.itemRestore
  split
  · exact State.setMeter_chg hw.up hs
  · exact State.freReset_chg hw.up (State.setFre_chg hw.up hs)
  · extract_lets -underBinder -merge +onlyGivenNames src1 x2
    exact State.setView_chg hw.up hs
  · exact State.saRestore_chg hw.up hs
  · exact State.cauRestore_chg hw.up hs
  · exact State.setSluice_chg hw.up hs

theorem State.pageRestore_chg {pg : Nat} {vals : Tab Word} {items : List JItem} (hw : Within [.regs, .slots, .fences, .holds, .snaps, .tbl, .stage, .commitQ, .commits, .msix, .resets, .lrn, .bsn, .meters, .egr, .slu, .bud, .fre, .fgd, .had, .ept, .hif, .can, .lin, .cfl, .vlt, .auth, .twn, .tim, .pwr, .mgs, .svc, .inj, .out, .free] w) (hs : Chg w s0 s) : Chg w s0 (State.pageRestore s pg vals items) := by
  unfold State.pageRestore
  split
  · exact hs
  · refine Chg.ite ?_ ?_
    · exact hs
    · extract_lets -underBinder -merge +onlyGivenNames s1 ctl5 s6
      have h2 : Chg w s0 s1 := Chg.foldl (fun t4 _ h3 => State.itemRestore_chg hw.up h3) (hs)
      have h7 : Chg w s0 s6 := Chg.foldl (fun t9 _ h8 => State.cfgWrite_chg hw.up h8) (h2)
      split
      · exact State.cfgWrite_chg hw.up h7
      · exact h7

theorem State.pagesRestore_chg {l : List Nat} (hw : Within [.regs, .slots, .fences, .holds, .snaps, .tbl, .stage, .commitQ, .commits, .msix, .resets, .lrn, .bsn, .meters, .egr, .slu, .bud, .fre, .fgd, .had, .ept, .hif, .can, .lin, .cfl, .vlt, .auth, .twn, .tim, .pwr, .mgs, .svc, .inj, .out, .free] w) (hs : Chg w s0 s) : Chg w s0 (State.pagesRestore s l) := by
  unfold State.pagesRestore
  refine Chg.foldl (fun s4 x5 h3 => ?_) (hs)
  split
  · exact State.pageRestore_chg hw.up h3
  · exact Chg.ite (h3) (State.pageRestore_chg hw.up h3)

theorem State.tapRestore_chg {p : Staged → Bool} (hw : Within [.regs, .tbl, .lrn, .bsn, .cfl] w) (hs : Chg w s0 s) : Chg w s0 (State.tapRestore s p) := by
  unfold State.tapRestore
  refine Chg.foldl (fun s4 x13 h3 => ?_) (hs)
  split
  · refine Chg.foldl (fun s8 x12 h7 => ?_) (h3)
    split
    · rename_i y9 e11
      have h10 := State.applyStaged_chg hw.up (h7) _ e11
      exact h10
    · exact h7
  · exact h3

theorem State.resvRestore_chg (hw : Within [.regs, .msix, .meters, .bud, .mgs, .out] w) (hs : Chg w s0 s) : Chg w s0 (State.resvRestore s) := by
  unfold State.resvRestore
  extract_lets -underBinder -merge +onlyGivenNames s1 l10 s11 ports15
  have h2 : Chg w s0 s1 := by
    unfold s1
    refine Chg.foldl (fun s8 x9 h7 => ?_) (hs)
    split
    · exact State.setResv_chg hw.up h7
    · exact h7
  have h12 : Chg w s0 s11 := Chg.foldl (fun t14 _ h13 => State.envelopes_chg hw.up h13) (h2)
  exact Chg.foldl (fun t17 _ h16 => State.recheckPort_chg hw.up h16) (h12)

theorem State.masksRestore_chg (hw : Within [.regs] w) (hs : Chg w s0 s) : Chg w s0 (State.masksRestore s) := by
  unfold State.masksRestore
  split
  · exact Chg.foldl (fun t2 _ h1 => State.wr_chg hw.up h1) (hs)
  · exact hs

theorem State.idsRestore_chg (hw : Within [.hif, .mgs] w) (hs : Chg w s0 s) : Chg w s0 (State.idsRestore s) := by
  unfold State.idsRestore
  split
  · exact (show ∀ v0 v1, (MgsOn s.mgs v1) → Chg w s0 { s with hif := v0, mgs := v1 } from fun v0 v1 c1 => Chg.upd_mgs hw.mem (Chg.upd_hif hw.mem hs v0) c1) _ _ ⟨Nat.le_refl _, Nat.le_refl _, Nat.le_refl _, Nat.le_refl _⟩
  · exact hs

theorem State.mgsRestore_chg {aon : Bool} (hw : Within [.regs, .slots, .fences, .holds, .snaps, .tbl, .stage, .commitQ, .commits, .msix, .resets, .lrn, .bsn, .meters, .egr, .slu, .bud, .fre, .fgd, .had, .ept, .hif, .can, .lin, .cfl, .vlt, .auth, .twn, .tim, .pwr, .mgs, .svc, .inj, .out, .free] w) (hs : Chg w s0 s) : Chg w s0 (State.mgsRestore s aon) := by
  unfold State.mgsRestore
  extract_lets -underBinder -merge +onlyGivenNames l1 s2
  have h3 : Chg w s0 s2 := State.pagesRestore_chg hw.up (State.masksRestore_chg hw.up (State.settingsReset_chg hw.up hs))
  exact State.idsRestore_chg hw.up (State.pagesRestore_chg hw.up h3)

theorem State.canRestore_chg (hw : Within [.regs, .slots, .fences, .holds, .snaps, .tbl, .stage, .commitQ, .commits, .msix, .resets, .lrn, .bsn, .meters, .egr, .slu, .bud, .fre, .fgd, .had, .ept, .hif, .can, .lin, .cfl, .vlt, .auth, .twn, .tim, .pwr, .mgs, .svc, .inj, .out, .free] w) (hs : Chg w s0 s) : Chg w s0 (State.canRestore s) := by
  unfold State.canRestore
  exact State.pagesRestore_chg hw.up (State.tapRestore_chg hw.up hs)

theorem State.restRestore_chg (hw : Within [.regs, .slots, .fences, .holds, .snaps, .tbl, .stage, .commitQ, .commits, .msix, .resets, .lrn, .bsn, .meters, .egr, .slu, .bud, .fre, .fgd, .had, .ept, .hif, .can, .lin, .cfl, .vlt, .auth, .twn, .tim, .pwr, .mgs, .svc, .inj, .out, .free] w) (hs : Chg w s0 s) : Chg w s0 (State.restRestore s) := by
  unfold State.restRestore
  exact State.resvRestore_chg hw.up (State.tapRestore_chg hw.up (State.pagesRestore_chg hw.up hs))

theorem State.fwdRestore_chg (hw : Within [.regs, .slots, .fences, .holds, .snaps, .tbl, .stage, .commitQ, .commits, .msix, .resets, .lrn, .bsn, .meters, .egr, .slu, .bud, .fre, .fgd, .had, .ept, .hif, .can, .lin, .cfl, .vlt, .auth, .twn, .tim, .pwr, .mgs, .svc, .inj, .out, .free] w) (hs : Chg w s0 s) : Chg w s0 (State.fwdRestore s) := by
  unfold State.fwdRestore
  exact State.resvRestore_chg hw.up (State.tapRestore_chg hw.up (State.pagesRestore_chg hw.up hs))

theorem State.coldRestore_chg {aon : Bool} (hw : Within [.regs, .slots, .fences, .holds, .snaps, .tbl, .stage, .commitQ, .commits, .msix, .resets, .lrn, .bsn, .meters, .egr, .slu, .bud, .fre, .fgd, .had, .ept, .hif, .can, .lin, .cfl, .vlt, .auth, .twn, .tim, .pwr, .mgs, .svc, .inj, .out, .free] w) (hs : Chg w s0 s) : Chg w s0 (State.coldRestore s aon) := by
  unfold State.coldRestore
  extract_lets -underBinder -merge +onlyGivenNames l1 s2 s4
  have h3 : Chg w s0 s2 := State.pagesRestore_chg hw.up (State.masksRestore_chg hw.up (State.settingsReset_chg hw.up hs))
  have h5 : Chg w s0 s4 := Chg.ite (State.resvRestore_chg hw.up (State.tapRestore_chg hw.up h3)) (h3)
  exact State.idsRestore_chg hw.up (State.pagesRestore_chg hw.up h5)

end Sys2Proof.Machine
end

