-- ==== Sys2Proof/Laws/ChgMgs.lean ====
section
/-! SUPPORT. What the operations of the management subsystem and power can change: one lemma each. -/

set_option Elab.async false

namespace Sys2Proof.Machine

variable {w : List Area} {s0 s : State}

theorem State.maskBit4_chg {pg : Nat} {on : Bool} (hw : Within [.regs] w) (hs : Chg w s0 s) : Chg w s0 (State.maskBit4 s pg on) := by
  unfold State.maskBit4
  exact State.wf_chg hw.up hs

theorem State.unborClear_chg (hw : Within [.regs, .mgs] w) (hs : Chg w s0 s) : Chg w s0 (State.unborClear s) := by
  unfold State.unborClear
  extract_lets -underBinder -merge +onlyGivenNames s1
  have h2 : Chg w s0 s1 := Chg.foldl (fun t4 _ h3 => State.maskBit4_chg hw.up h3) (hs)
  exact State.setMgs_chg hw.up h2 ⟨Nat.le_refl _, Nat.le_refl _, Nat.le_refl _, Nat.le_refl _⟩

theorem State.unborLock_chg (hw : Within [.regs, .mgs] w) (hs : Chg w s0 s) : Chg w s0 (State.unborLock s) := by
  unfold State.unborLock
  exact Chg.ite (hs) (State.logMgmt_chg hw.up (State.unborClear_chg hw.up hs))

theorem State.unborGrant_chg {level : Nat} {minutes : Nat} (hw : Within [.regs, .msix, .mgs, .out] w) (hs : Chg w s0 s) : Chg w s0 (State.unborGrant s level minutes) := by
  unfold State.unborGrant
  extract_lets -underBinder -merge +onlyGivenNames s1 l3 s4 src8 s9
  have h2 : Chg w s0 s1 := State.unborClear_chg hw.up hs
  have h5 : Chg w s0 s4 := Chg.foldl (fun t7 _ h6 => State.maskBit4_chg hw.up h6) (h2)
  have h10 : Chg w s0 s9 := State.setMgs_chg hw.up h5 ⟨Nat.le_refl _, Nat.le_refl _, Nat.le_refl _, Nat.le_refl _⟩
  exact State.logMgmt_chg hw.up (State.raise_chg hw.up h10)

theorem State.fallback_chg (hw : Within [.regs, .msix, .mgs, .out] w) (hs : Chg w s0 s) : Chg w s0 (State.fallback s) := by
  unfold State.fallback
  split
  · exact hs
  · extract_lets -underBinder -merge +onlyGivenNames bad1 src2 s3
    have h4 : Chg w s0 s3 := State.setMgs_chg hw.up hs ⟨Nat.le_refl _, Nat.le_refl _, Nat.le_refl _, Nat.le_refl _⟩
    exact State.logMgmt_chg hw.up (State.raise_chg hw.up (State.evt_chg hw.up h4))

theorem State.mgsRestart_chg {cause : Nat} (hw : Within [.regs, .slots, .msix, .vlt, .auth, .mgs, .svc, .out] w) (hs : Chg w s0 s) : Chg w s0 (State.mgsRestart s cause) := by
  unfold State.mgsRestart
  extract_lets -underBinder -merge +onlyGivenNames s1 s3 s7 keep9 src10 s11
  have h2 : Chg w s0 s1 := State.logMgmt_chg hw.up (State.raise_chg hw.up (State.evt_chg hw.up hs))
  have h4 : Chg w s0 s3 := Chg.foldl (fun t6 _ h5 => Chg.ite (State.complete_chg hw.up h5) (h5)) (h2)
  clear_value s3
  have h8 : Chg w s0 s7 := State.vltDrop_chg hw.up (State.unborLock_chg hw.up h4)
  clear_value s7
  have h12 : Chg w s0 s11 := State.setMgs_chg hw.up h8 ⟨Nat.le_refl _, Nat.le_refl _, Nat.le_refl _, Nat.le_refl _⟩
  exact Chg.ite (h12) (State.fallback_chg hw.up h12)

theorem State.mgsCrash_chg {cause : Nat} (hw : Within [.regs, .slots, .msix, .vlt, .auth, .mgs, .svc, .out] w) (hs : Chg w s0 s) : Chg w s0 (State.mgsCrash s cause) := by
  unfold State.mgsCrash
  refine Chg.ite ?_ ?_
  · exact hs
  · extract_lets -underBinder -merge +onlyGivenNames s1 l3 src4 s5
    have h2 : Chg w s0 s1 := State.evt_chg hw.up hs
    have h6 : Chg w s0 s5 := State.mgsRestart_chg hw.up (State.setMgs_chg hw.up h2 ⟨Nat.le_refl _, Nat.le_refl _, Nat.le_refl _, Nat.le_refl _⟩)
    exact Chg.ite (State.raise_chg hw.up (State.setMgs_chg hw.up h6 ⟨Nat.le_refl _, Nat.le_refl _, Nat.le_refl _, Nat.le_refl _⟩)) (h6)

theorem State.sensOne_chg {k : Nat} {v : Nat} (hw : Within [.regs, .msix, .mgs, .out] w) (hs : Chg w s0 s) : Chg w s0 (State.sensOne s k v) := by
  unfold State.sensOne
  extract_lets -underBinder -merge +onlyGivenNames v1 s2 was4 put5
  have h3 : Chg w s0 s2 := State.wr_chg hw.up hs
  have h6 : ∀ z7 z9, Chg w s0 z7 → Chg w s0 (put5 z7 z9) := by
    intro z7 z9 h8
    unfold put5
    exact State.setMgs_chg hw.up h8 ⟨Nat.le_refl _, Nat.le_refl _, Nat.le_refl _, Nat.le_refl _⟩
  refine Chg.ite ?_ ?_
  · extract_lets -underBinder -merge +onlyGivenNames s10
    have h11 : Chg w s0 s10 := h6 _ _ (h3)
    exact Chg.ite (h11) (State.logMgmt_chg hw.up (State.raise_chg hw.up (State.evt_chg hw.up h11)))
  · clear_value was4
    split
    · exact Chg.ite (h6 _ _ (h3)) (h3)
    · exact h3

theorem State.sensorSample_chg {vals : List Nat} (hw : Within [.regs, .msix, .mgs, .out] w) (hs : Chg w s0 s) : Chg w s0 (State.sensorSample s vals) := by
  unfold State.sensorSample
  exact Chg.ite (Chg.foldl (fun t2 _ h1 => State.sensOne_chg hw.up h1) (hs)) (hs)

theorem State.planStart_chg (hw : Within [.mgs] w) (hs : Chg w s0 s) : Chg w s0 (State.planStart s) := by
  unfold State.planStart
  exact State.setMgs_chg hw.up hs ⟨Nat.le_refl _, Nat.le_refl _, Nat.le_refl _, Nat.le_refl _⟩

theorem State.mramRemap_chg {sectors : List Nat} (hw : Within [.regs, .msix, .mgs, .out] w) (hs : Chg w s0 s) : Chg w s0 (State.mramRemap s sectors) := by
  unfold State.mramRemap
  refine Chg.ite ?_ ?_
  · exact hs
  · refine Chg.foldl (fun s6 x11 h5 => ?_) (hs)
    extract_lets -underBinder -merge +onlyGivenNames n7 src8 s9
    have h10 : Chg w s0 s9 := State.logMgmt_chg hw.up (State.raise_chg hw.up (State.setMgs_chg hw.up h5 ⟨Nat.le_refl _, Nat.le_refl _, Nat.le_refl _, Nat.le_refl _⟩))
    exact Chg.ite (State.logMgmt_chg hw.up (State.raise_chg hw.up h10)) (h10)

theorem State.marginPeriod_chg (hw : Within [.mgs] w) (hs : Chg w s0 s) : Chg w s0 (State.marginPeriod s) := by
  unfold State.marginPeriod
  exact Chg.ite (State.planStart_chg hw.up hs) (hs)

theorem State.putRegs_chg {a : Nat} {l : List Nat} {n : Nat} {w1 : Nat} (hw : Within [.regs] w) (hs : Chg w s0 s) : Chg w s0 (State.putRegs s a l n w1) := by
  unfold State.putRegs
  exact Chg.foldl (fun t2 _ h1 => State.wr_chg hw.up h1) (hs)

theorem State.planEq_chg {p : Plan} (hw : Within [.ept] w) (hs : Chg w s0 s) : Chg w s0 (State.planEq s p) := by
  unfold State.planEq
  exact Chg.foldl (fun t2 _ h1 => Chg.ite (h1) (State.setEport_chg hw.up h1)) (hs)

theorem State.planDone_chg {p : Plan} (hw : Within [.regs, .slots, .msix, .ept, .mgs, .svc, .out] w) (hs : Chg w s0 s) : Chg w s0 (State.planDone s p) := by
  unfold State.planDone
  refine Chg.ite ?_ ?_
  · exact hs
  · extract_lets -underBinder -merge +onlyGivenNames s1 s3 s5 s7 g9 goal10 months11 s12 s14 s16 s18 s20 l22 src23 s24
    have h2 : Chg w s0 s1 := State.putRegs_chg hw.up (State.emit_chg hw.up hs)
    have h4 : Chg w s0 s3 := State.putRegs_chg hw.up h2
    have h6 : Chg w s0 s5 := State.putRegs_chg hw.up (State.wr_chg hw.up h4)
    have h8 : Chg w s0 s7 := State.putRegs_chg hw.up h6
    have h13 : Chg w s0 s12 := State.wr_chg hw.up (State.wr_chg hw.up h8)
    have h15 : Chg w s0 s14 := State.stat_chg hw.up (State.wr64_chg hw.up (State.wf_chg hw.up h13))
    have h17 : Chg w s0 s16 := State.raise_chg hw.up (State.planEq_chg hw.up h15)
    have h19 : Chg w s0 s18 := Chg.ite (State.logMgmt_chg hw.up (State.raise_chg hw.up h17)) (h17)
    have h21 : Chg w s0 s20 := Chg.ite (State.logMgmt_chg hw.up (State.raise_chg hw.up h19)) (h19)
    have h25 : Chg w s0 s24 := State.setMgs_chg hw.up h21 ⟨Nat.le_refl _, Nat.le_refl _, Nat.le_refl _, Nat.le_refl _⟩
    exact Chg.foldl (fun t27 _ h26 => State.complete_chg hw.up h26) (h25)

theorem State.avsStep_chg (hw : Within [.regs, .out] w) (hs : Chg w s0 s) : Chg w s0 (State.avsStep s) := by
  unfold State.avsStep
  extract_lets -underBinder -merge +onlyGivenNames v1 n2
  exact Chg.ite (hs) (State.emit_chg hw.up (State.wf_chg hw.up hs))

theorem State.updRefuse_chg {m : Nat} {code : Nat} {ver : Nat} (hw : Within [.regs, .msix, .mgs, .out] w) (hs : Chg w s0 s) : Chg2 w s0 (State.updRefuse s m code ver) := by
  unfold State.updRefuse
  extract_lets -underBinder -merge +onlyGivenNames src1 s2
  have h3 : Chg w s0 s2 := State.setMgs_chg hw.up hs ⟨Nat.le_refl _, Nat.le_refl _, Nat.le_refl _, Nat.le_refl _⟩
  exact Chg.pair (State.logMgmt_chg hw.up (State.raise_chg hw.up (State.evt_chg hw.up h3)))

theorem State.setSpareBank_chg {t : Tab Byte} (hw : Within [.mgs] w) (hs : Chg w s0 s) : Chg w s0 (State.setSpareBank s t) := by
  unfold State.setSpareBank
  exact Chg.ite (State.setMgs_chg hw.up hs ⟨Nat.le_refl _, Nat.le_refl _, Nat.le_refl _, Nat.le_refl _⟩) (State.setMgs_chg hw.up hs ⟨Nat.le_refl _, Nat.le_refl _, Nat.le_refl _, Nat.le_refl _⟩)

theorem State.updBegin_chg {m : Nat} {buf : List Byte} (hw : Within [.regs, .msix, .mgs, .out] w) (hs : Chg w s0 s) : Chg2 w s0 (State.updBegin s m buf) := by
  unfold State.updBegin
  extract_lets -underBinder -merge +onlyGivenNames h1 ver2
  refine Chg.ite2 ?_ ?_
  · exact Chg.pair hs
  · extract_lets -underBinder -merge +onlyGivenNames c3
    refine Chg.ite2 ?_ ?_
    · exact State.updRefuse_chg hw.up hs
    · extract_lets -underBinder -merge +onlyGivenNames src4 s5
      have h6 : Chg w s0 s5 := State.setMgs_chg hw.up hs ⟨Nat.le_refl _, Nat.le_refl _, Nat.le_refl _, Nat.le_refl _⟩
      exact Chg.pair (State.logMgmt_chg hw.up h6)

theorem State.updWrite_chg {off : Nat} {len : Nat} {buf : List Byte} (hw : Within [.mgs] w) (hs : Chg w s0 s) : Chg2 w s0 (State.updWrite s off len buf) := by
  unfold State.updWrite
  exact Chg.ite2 (Chg.pair hs) (Chg.pair (State.setSpareBank_chg hw.up hs))

theorem State.updFinish_chg {u : UpdSess} (hw : Within [.regs, .msix, .mgs, .out] w) (hs : Chg w s0 s) : Chg2 w s0 (State.updFinish s u) := by
  unfold State.updFinish
  extract_lets -underBinder -merge +onlyGivenNames c1 ver2
  refine Chg.ite2 ?_ ?_
  · exact State.updRefuse_chg hw.up hs
  · extract_lets -underBinder -merge +onlyGivenNames s3
    have h4 : Chg w s0 s3 := State.setSpareBank_chg hw.up hs
    exact Chg.pair (State.setMgs_chg hw.up h4 ⟨Nat.le_refl _, Nat.le_refl _, Nat.le_refl _, Nat.le_refl _⟩)

theorem State.journalSyncAll_chg (hw : Within [.regs, .slots, .msix, .mgs, .svc, .out] w) (hs : Chg w s0 s) : Chg w s0 (State.journalSyncAll s) := by
  unfold State.journalSyncAll
  exact Chg.foldl (fun t2 _ h1 => State.commitRecord_chg hw.up h1) (hs)

theorem State.updActivate_chg {m : Nat} {ver : Nat} (hw : Within [.regs, .slots, .msix, .vlt, .auth, .mgs, .svc, .out] w) (hs : Chg w s0 s) : Chg w s0 (State.updActivate s m ver) := by
  unfold State.updActivate
  extract_lets -underBinder -merge +onlyGivenNames s1 s3 old5 s6
  have h2 : Chg w s0 s1 := State.logMgmt_chg hw.up (State.raise_chg hw.up hs)
  have h4 : Chg w s0 s3 := State.checkpoint_chg hw.up (State.journalSyncAll_chg hw.up (State.logFlush_chg hw.up h2))
  have h7 : Chg w s0 s6 := State.mgsRestart_chg hw.up h4
  clear_value s6
  exact State.setMgs_chg hw.up h7 ⟨Nat.le_refl _, Nat.le_refl _, Nat.le_refl _, Nat.le_refl _⟩

theorem State.updConfirm_chg {m : Nat} (hw : Within [.regs, .msix, .mgs, .out] w) (hs : Chg w s0 s) : Chg2 w s0 (State.updConfirm s m) := by
  unfold State.updConfirm
  extract_lets -underBinder -merge +onlyGivenNames ver1 src2 s3
  have h4 : Chg w s0 s3 := State.setMgs_chg hw.up hs ⟨Nat.le_max_left _ _, Nat.le_refl _, Nat.le_refl _, Nat.le_refl _⟩
  exact Chg.pair (State.logMgmt_chg hw.up (State.raise_chg hw.up (State.oldFormatsGone_chg hw.up h4)))

theorem State.updOp_chg {m : Nat} {op : Nat} {off : Nat} {len : Nat} {buf : List Byte} (hw : Within [.regs, .msix, .mgs, .out] w) (hs : Chg w s0 s) : Chg w s0 (State.updOp s m op off len buf).2.1 := by
  have keep : ∀ r : Result × State, Chg2 w s0 r → Chg w s0 (r.1, r.2, false).2.1 := fun _ h => h
  unfold State.updOp
  extract_lets no
  split
  · exact hs
  split
  · exact hs
  split
  · exact hs
  split
  · split
    · exact hs
    split
    · split
      · exact keep _ (State.updConfirm_chg hw.up hs)
      · exact hs
    · split
      · exact keep _ (State.updWrite_chg hw.up hs)
      split
      · exact keep _ (State.updFinish_chg hw.up hs)
      split
      · extract_lets c ver
        split
        · exact keep _ (State.updRefuse_chg hw.up hs)
        · exact hs
      split
      · exact State.setMgs_chg hw.up hs ⟨Nat.le_refl _, Nat.le_refl _, Nat.le_refl _, Nat.le_refl _⟩
      · exact hs
  · split
    · exact keep _ (State.updBegin_chg hw.up hs)
    · exact hs

theorem State.updRun_chg {m : Nat} {op : Nat} {off : Nat} {len : Nat} {buf : List Byte} (hw : Within [.regs, .slots, .msix, .vlt, .auth, .mgs, .svc, .out] w) (hs : Chg w s0 s) : Chg w s0 (State.updRun s m op off len buf) := by
  unfold State.updRun
  extract_lets ver1
  split
  rename_i r t act e
  have h : Chg w s0 t := by
    have k := State.updOp_chg (m := m) (op := op) (off := off) (len := len) (buf := buf) hw.up hs
    rw [e] at k; exact k
  extract_lets u
  have h2 : Chg w s0 u := State.complete_chg hw.up h
  exact Chg.ite (State.updActivate_chg hw.up h2) h2

theorem State.updCmd_chg {m : Nat} {op : Nat} (hw : Within [.regs, .slots, .msix, .vlt, .auth, .mgs, .svc, .out] w) (hs : Chg w s0 s) : Chg w s0 (State.updCmd s m op) := by
  unfold State.updCmd
  refine State.command_chg hw.up (hs) (fun x5 h6 => ?_)
  · extract_lets -underBinder -merge +onlyGivenNames off7 len8 buf9
    exact Chg.ite (State.updRun_chg hw.up h6) (State.setMgs_chg hw.up h6 ⟨Nat.le_refl _, Nat.le_refl _, Nat.le_refl _, Nat.le_refl _⟩)

theorem State.trialExpire_chg (hw : Within [.regs, .slots, .msix, .vlt, .auth, .mgs, .svc, .out] w) (hs : Chg w s0 s) : Chg w s0 (State.trialExpire s) := by
  unfold State.trialExpire
  exact Chg.ite (State.mgsRestart_chg hw.up hs) (hs)

theorem State.delegated_chg {a : Nat} {arg : List Byte} (hw : Within [.regs, .msix, .had, .vlt, .auth, .twn, .mgs, .inj, .out] w) (hs : Chg w s0 s) : Chg2 w s0 (State.delegated s a arg) := by
  unfold State.delegated
  extract_lets -underBinder -merge +onlyGivenNames had1 roster4
  have h2 : ∀ z : Result × State, Chg2 w s0 z → Chg2 w s0 (had1 z) := by
    intro z hz
    unfold had1
    split <;> exact hz
  have h5 : ∀ z : Option State, (∀ t, z = some t → Chg w s0 t) → Chg2 w s0 (roster4 z) := by
    intro z hz
    unfold roster4
    split
    · exact hz _ rfl
    · exact hs
  split
  · exact Chg.ite2 hs (State.unborGrant_chg hw.up hs)
  · exact Chg.ite2 hs (h2 _ (State.hadRun_chg hw.up hs))
  · exact Chg.ite2 hs (h2 _ (State.hadRun_chg hw.up hs))
  · exact h5 _ (State.rosterAdd_chg hw.up hs)
  · exact h5 _ (State.rosterRemove_chg hw.up hs)
  · exact h5 _ (State.rosterReplace_chg hw.up hs)
  · exact hs

theorem State.authorise_chg {b : List Byte} {aborted : Bool} (hw : Within [.regs, .msix, .had, .vlt, .auth, .twn, .mgs, .inj, .out] w) (hs : Chg w s0 s) : Chg2 w s0 (State.authorise s b aborted) := by
  unfold State.authorise
  refine Chg.ite2 ?_ ?_
  · exact Chg.pair hs
  · extract_lets -underBinder -merge +onlyGivenNames a1
    split
    · rename_i y2 y3 e5
      have h4 := Chg2.of (State.vAuthorise_chg hw.up hs) e5
      refine Chg.ite2 ?_ ?_
      · exact Chg.pair h4
      · extract_lets -underBinder -merge +onlyGivenNames s6
        have h7 : Chg w s0 s6 := State.logMgmt_chg hw.up h4
        split
        · rename_i y8 e10
          have h9 := Chg2.of (State.delegated_chg hw.up h7) e10
          exact Chg.pair h9
        · rename_i y11 y12 e14
          have h13 := Chg2.of (State.delegated_chg hw.up h7) e14
          exact Chg.pair h13

theorem State.mgsAnswer_chg {op : Nat} {args : List Word} (hw : Within [.regs, .msix, .mgs, .out] w) (hs : Chg w s0 s) : Chg2 w s0 (State.mgsAnswer s op args) := by
  unfold State.mgsAnswer
  extract_lets -underBinder -merge +onlyGivenNames a01 seq2
  split
  · exact Chg.pair hs
  · extract_lets -underBinder -merge +onlyGivenNames lo3 hi4
    refine Chg.ite2 ?_ ?_
    · exact Chg.pair hs
    · extract_lets -underBinder -merge +onlyGivenNames s5
      have h6 : Chg w s0 s5 := State.saveRange_chg hw.up hs
      exact Chg.pair h6
  · exact Chg.pair hs
  · exact Chg.pair hs
  · exact Chg.pair hs
  · extract_lets -underBinder -merge +onlyGivenNames s7
    have h8 : Chg w s0 s7 := State.logFlush_chg hw.up hs
    exact Chg.pair h8
  · exact Chg.pair (State.secAck_chg hw.up hs)
  · split
    · rename_i y9 y10 e12
      have h11 := Chg2.of (State.journalAdd_chg hw.up hs) e12
      exact Chg.ite2 (Chg.pair (State.setMgs_chg hw.up h11 ⟨Nat.le_refl _, Nat.le_refl _, Nat.le_refl _, Nat.le_refl _⟩)) (Chg.pair h11)
  · exact Chg.pair (State.unborLock_chg hw.up hs)
  · exact Chg.pair hs

theorem State.mgsRun_chg {m : Nat} {op : Nat} {args : List Word} {buf : List Byte} (hw : Within [.regs, .slots, .msix, .vlt, .auth, .mgs, .svc, .out] w) (hs : Chg w s0 s) : Chg w s0 (State.mgsRun s m op args buf) := by
  unfold State.mgsRun
  split
  · exact State.complete_chg hw.up hs
  · refine Chg.ite ?_ ?_
    · exact State.complete_chg hw.up hs
    · refine Chg.ite ?_ ?_
      · exact State.mgsRestart_chg hw.up hs
      · refine Chg.ite ?_ ?_
        · exact State.planStart_chg hw.up (State.setMgs_chg hw.up hs ⟨Nat.le_refl _, Nat.le_refl _, Nat.le_refl _, Nat.le_refl _⟩)
        · refine Chg.ite ?_ ?_
          · exact State.vltRequest_chg hw.up hs
          · refine Chg.ite ?_ ?_
            · exact State.setMgs_chg hw.up hs ⟨Nat.le_refl _, Nat.le_refl _, Nat.le_refl _, Nat.le_refl _⟩
            · split
              · rename_i y1 y2 e4
                have h3 := Chg2.of (State.mgsAnswer_chg hw.up hs) e4
                exact State.complete_chg hw.up h3

theorem State.mgsCmd_chg {m : Nat} {op : Nat} (hw : Within [.regs, .slots, .msix, .vlt, .auth, .mgs, .svc, .out] w) (hs : Chg w s0 s) : Chg w s0 (State.mgsCmd s m op) := by
  unfold State.mgsCmd
  refine State.command_chg hw.up (hs) (fun x5 h6 => ?_)
  · extract_lets -underBinder -merge +onlyGivenNames args7 buf8
    exact Chg.ite (State.mgsRun_chg hw.up h6) (State.setMgs_chg hw.up h6 ⟨Nat.le_refl _, Nat.le_refl _, Nat.le_refl _, Nat.le_refl _⟩)

theorem State.mailServe_chg (hw : Within [.regs, .slots, .msix, .vlt, .auth, .mgs, .svc, .out] w) (hs : Chg w s0 s) : Chg w s0 (State.mailServe s) := by
  unfold State.mailServe
  extract_lets -underBinder -merge +onlyGivenNames l1
  refine Chg.foldl (fun t x h => ?_) (State.setMgs_chg hw.up hs ⟨Nat.le_refl _, Nat.le_refl _, Nat.le_refl _, Nat.le_refl _⟩)
  refine Chg.ite ?_ (Chg.ite (State.setMgs_chg hw.up h ⟨Nat.le_refl _, Nat.le_refl _, Nat.le_refl _, Nat.le_refl _⟩) h)
  exact Chg.ite (State.updRun_chg hw.up h) (State.mgsRun_chg hw.up h)

theorem State.fwMeasured_chg (hw : Within [.vlt] w) (hs : Chg w s0 s) : Chg w s0 (State.fwMeasured s) := by
  unfold State.fwMeasured
  exact Chg.upd_vlt hw.mem hs ⟨Nat.le_refl _, fun _ => Nat.le_refl _⟩

theorem State.logHeld_chg (hw : Within [.mgs] w) (hs : Chg w s0 s) : Chg w s0 (State.logHeld s) := by
  unfold State.logHeld
  extract_lets -underBinder -merge +onlyGivenNames put1
  exact State.setMgs_chg hw.up hs ⟨Nat.le_refl _, Nat.le_refl _, Nat.le_refl _, Nat.le_refl _⟩

theorem State.mgsRestarted_chg (hw : Within [.regs, .slots, .msix, .vlt, .auth, .mgs, .svc, .out] w) (hs : Chg w s0 s) : Chg w s0 (State.mgsRestarted s) := by
  unfold State.mgsRestarted
  refine Chg.ite ?_ ?_
  · extract_lets -underBinder -merge +onlyGivenNames s1
    have h2 : Chg w s0 s1 := State.logHeld_chg hw.up hs
    exact State.mailServe_chg hw.up (State.fwMeasured_chg hw.up (State.setMgs_chg hw.up h2 ⟨Nat.le_refl _, Nat.le_refl _, Nat.le_refl _, Nat.le_refl _⟩))
  · exact hs

theorem State.mgsWrite_chg {m : Nat} {op : Nat} (hw : Within [.regs, .slots, .fences, .msix, .hif, .vlt, .auth, .mgs, .svc, .out] w) (hs : Chg w s0 s) : Chg w s0 (State.mgsWrite s m op) := by
  unfold State.mgsWrite
  exact State.access_chg hw.up hs (fun x1 h2 => State.mgsCmd_chg hw.up h2)

theorem State.mgsAuth_chg {m : Nat} {a : Nat} (hw : Within [.regs, .slots, .fences, .msix, .hif, .vlt, .auth, .mgs, .svc, .out] w) (hs : Chg w s0 s) : Chg w s0 (State.mgsAuth s m a) := by
  unfold State.mgsAuth
  exact Chg.ite (State.mgsWrite_chg hw.up hs) (hs)

theorem State.updWriteCmd_chg {m : Nat} {op : Nat} (hw : Within [.regs, .slots, .fences, .msix, .hif, .vlt, .auth, .mgs, .svc, .out] w) (hs : Chg w s0 s) : Chg w s0 (State.updWriteCmd s m op) := by
  unfold State.updWriteCmd
  exact State.access_chg hw.up hs (fun x1 h2 => State.updCmd_chg hw.up h2)

theorem State.queueFlush_chg {p : Nat} (hw : Within [.regs, .msix, .bsn, .mgs, .out] w) (hs : Chg w s0 s) : Chg w s0 (State.queueFlush s p) := by
  unfold State.queueFlush
  refine Chg.foldl (fun s4 x8 h3 => ?_) (hs)
  extract_lets -underBinder -merge +onlyGivenNames l5
  exact Chg.foldl (fun t7 _ h6 => State.copyDrop_chg hw.up h6) (State.setQueue_chg hw.up h3)

theorem State.phyOff_chg {d : Nat} (hw : Within [.regs, .msix, .bsn, .meters, .egr, .bud, .fre, .fgd, .had, .ept, .hif, .vlt, .auth, .pwr, .mgs, .inj, .out, .free] w) (hs : Chg w s0 s) : Chg w s0 (State.phyOff s d) := by
  unfold State.phyOff
  extract_lets -underBinder -merge +onlyGivenNames s1 s3 s7
  have h2 : Chg w s0 s1 := Chg.ite (State.hifStatus_chg hw.up hs) (hs)
  have h4 : Chg w s0 s3 := Chg.foldl (fun t6 _ h5 => Chg.ite (h5) (State.linkDrop_chg hw.up (State.queueFlush_chg hw.up h5))) (h2)
  have h8 : Chg w s0 s7 := Chg.ite (State.wf_chg hw.up h4) (Chg.ite (State.wf_chg hw.up h4) (h4))
  exact State.setPwr_chg hw.up h8

theorem State.fwdReset_chg (hw : Within [.regs, .slots, .fences, .snaps, .tbl, .stage, .commitQ, .commits, .resets, .lrn, .bsn, .meters, .egr, .slu, .bud, .fre, .fgd, .had, .ept, .can, .lin, .cfl, .auth, .twn, .tim, .pwr, .svc, .inj] w) (hs : Chg w s0 s) : Chg w s0 (State.fwdReset s) := by
  unfold State.fwdReset
  extract_lets -underBinder -merge +onlyGivenNames keepSlot1 noCommit2
  exact (show ∀ v0 v1 v2 v3 v4 v5 v6 v7 v8 v9 v10 v11 v12 v13 v14 v15 v16 v17 v18 v19 v20 v21 v22 v23 v24 v25 v26 v27, ((Tab.wf regReset s.regs = true → Tab.wf regReset v0 = true)) → ((Tab.wf (fun _ => 0) s.tbl = true → Tab.wf (fun _ => 0) v4 = true)) → Chg w s0 { s with regs := v0, slots := v1, fences := v2, snaps := v3, tbl := v4, stage := v5, commitQ := v6, commits := v7, resets := v8, lrn := v9, bsn := v10, meters := v11, egr := v12, slu := v13, bud := v14, fre := v15, fgd := v16, had := v17, ept := v18, can := v19, lin := v20, cfl := v21, auth := v22, twn := v23, tim := v24, pwr := v25, svc := v26, inj := v27 } from fun v0 v1 v2 v3 v4 v5 v6 v7 v8 v9 v10 v11 v12 v13 v14 v15 v16 v17 v18 v19 v20 v21 v22 v23 v24 v25 v26 v27 c0 c4 => Chg.upd_inj hw.mem (Chg.upd_svc hw.mem (Chg.upd_pwr hw.mem (Chg.upd_tim hw.mem (Chg.upd_twn hw.mem (Chg.upd_auth hw.mem (Chg.upd_cfl hw.mem (Chg.upd_lin hw.mem (Chg.upd_can hw.mem (Chg.upd_ept hw.mem (Chg.upd_had hw.mem (Chg.upd_fgd hw.mem (Chg.upd_fre hw.mem (Chg.upd_bud hw.mem (Chg.upd_slu hw.mem (Chg.upd_egr hw.mem (Chg.upd_meters hw.mem (Chg.upd_bsn hw.mem (Chg.upd_lrn hw.mem (Chg.upd_resets hw.mem (Chg.upd_commits hw.mem (Chg.upd_commitQ hw.mem (Chg.upd_stage hw.mem (Chg.upd_tbl hw.mem (Chg.upd_snaps hw.mem (Chg.upd_fences hw.mem (Chg.upd_slots hw.mem (Chg.upd_regs hw.mem hs c0) v1) v2) v3) c4) v5) v6) v7) v8) v9) v10) v11) v12) v13) v14) v15) v16) v17) v18) v19) v20) v21) v22) v23) v24) v25) v26) v27) _ _ _ _ _ _ _ _ _ _ _ _ _ _ _ _ _ _ _ _ _ _ _ _ _ _ _ _ (Tab.wf_keep _ _) (fun _ => rfl)

theorem State.fwdOff_chg (hw : Within [.regs, .slots, .fences, .snaps, .tbl, .stage, .commitQ, .commits, .msix, .resets, .lrn, .bsn, .meters, .egr, .slu, .bud, .fre, .fgd, .had, .ept, .can, .lin, .cfl, .vlt, .auth, .twn, .tim, .pwr, .mgs, .svc, .inj, .out, .free] w) (hs : Chg w s0 s) : Chg w s0 (State.fwdOff s) := by
  unfold State.fwdOff
  refine Chg.ite ?_ ?_
  · exact hs
  · extract_lets -underBinder -merge +onlyGivenNames s1 s3 lf7 s8
    have h2 : Chg w s0 s1 := State.basinDrop_chg hw.up hs
    have h4 : Chg w s0 s3 := Chg.foldl (fun t6 _ h5 => State.linkDrop_chg hw.up h5) (h2)
    have h9 : Chg w s0 s8 := State.fwdReset_chg hw.up h4
    exact State.msixEval_chg hw.up (State.setPwr_chg hw.up h9)

theorem State.fwdUp_chg (hw : Within [.regs, .slots, .fences, .snaps, .tbl, .stage, .commitQ, .commits, .msix, .resets, .lrn, .bsn, .meters, .egr, .slu, .bud, .fre, .fgd, .had, .ept, .can, .lin, .cfl, .vlt, .auth, .twn, .tim, .pwr, .svc, .inj, .out] w) (hs : Chg w s0 s) : Chg w s0 (State.fwdUp s) := by
  unfold State.fwdUp
  extract_lets -underBinder -merge +onlyGivenNames s1 src3 s4 s6
  have h2 : Chg w s0 s1 := State.fwdReset_chg hw.up hs
  have h5 : Chg w s0 s4 := State.setPwr_chg hw.up h2
  have h7 : Chg w s0 s6 := Chg.foldl (fun t9 _ h8 => State.viewStart_chg hw.up h8) (h5)
  exact Chg.ite (State.raise_chg hw.up (State.setPwr_chg hw.up h7)) (h7)

theorem State.forwardOn_chg (hw : Within [.pwr] w) (hs : Chg w s0 s) : Chg w s0 (State.forwardOn s) := by
  unfold State.forwardOn
  exact State.setPwr_chg hw.up hs

theorem State.domsDown_chg {t : Nat} (hw : Within [.regs, .slots, .fences, .snaps, .tbl, .stage, .commitQ, .commits, .msix, .resets, .lrn, .bsn, .meters, .egr, .slu, .bud, .fre, .fgd, .had, .ept, .hif, .can, .lin, .cfl, .vlt, .auth, .twn, .tim, .pwr, .mgs, .svc, .inj, .out, .free] w) (hs : Chg w s0 s) : Chg w s0 (State.domsDown s t) := by
  unfold State.domsDown
  extract_lets -underBinder -merge +onlyGivenNames s1 s3
  have h2 : Chg w s0 s1 := Chg.ite (State.wf_chg hw.up (State.svcOff_chg hw.up hs)) (hs)
  have h4 : Chg w s0 s3 := Chg.foldl (fun t6 _ h5 => Chg.ite (State.phyOff_chg hw.up h5) (h5)) (h2)
  exact Chg.ite (h4) (State.fwdOff_chg hw.up h4)

theorem State.domsUp_chg {t : Nat} (hw : Within [.regs, .slots, .fences, .snaps, .tbl, .stage, .commitQ, .commits, .msix, .resets, .lrn, .bsn, .meters, .egr, .slu, .bud, .fre, .fgd, .had, .ept, .can, .lin, .cfl, .vlt, .auth, .twn, .tim, .pwr, .svc, .inj, .out] w) (hs : Chg w s0 s) : Chg w s0 (State.domsUp s t) := by
  unfold State.domsUp
  extract_lets -underBinder -merge +onlyGivenNames was1 p2 s3
  have h4 : Chg w s0 s3 := State.setPwr_chg hw.up hs
  exact Chg.ite (State.fwdUp_chg hw.up h4) (Chg.foldl (fun t6 _ h5 => State.train_chg hw.up h5) (h4))

theorem State.domsSet_chg {t : Nat} (hw : Within [.regs, .slots, .fences, .holds, .snaps, .tbl, .stage, .commitQ, .commits, .msix, .resets, .lrn, .bsn, .meters, .egr, .slu, .bud, .fre, .fgd, .had, .ept, .hif, .can, .lin, .cfl, .vlt, .auth, .twn, .tim, .pwr, .mgs, .svc, .inj, .out, .free] w) (hs : Chg w s0 s) : Chg w s0 (State.domsSet s t) := by
  unfold State.domsSet
  extract_lets -underBinder -merge +onlyGivenNames was1 s2
  have h3 : Chg w s0 s2 := State.domsUp_chg hw.up (State.domsDown_chg hw.up hs)
  exact Chg.ite (State.forwardOn_chg hw.up (State.fwdRestore_chg hw.up h3)) (h3)

theorem State.mgsReset_chg {cause : Nat} (hw : Within [.regs, .slots, .fences, .holds, .snaps, .msix, .resets, .hif, .vlt, .pwr, .mgs, .svc] w) (hs : Chg w s0 s) : Chg w s0 (State.mgsReset s cause) := by
  unfold State.mgsReset
  extract_lets -underBinder -merge +onlyGivenNames s1 src3 src4 s5
  have h2 : Chg w s0 s1 := State.vltPowerDown_chg hw.up hs
  have h6 : Chg w s0 s5 := (show ∀ v0 v1 v2 v3 v4 v5 v6 v7 v8 v9 v10, ((Tab.wf regReset s1.regs = true → Tab.wf regReset v0 = true)) → (MgsOn s1.mgs v9) → Chg w s0 { s1 with regs := v0, slots := v1, fences := v2, holds := v3, snaps := v4, msix := v5, resets := v6, hif := v7, pwr := v8, mgs := v9, svc := v10 } from fun v0 v1 v2 v3 v4 v5 v6 v7 v8 v9 v10 c0 c9 => Chg.upd_svc hw.mem (Chg.upd_mgs hw.mem (Chg.upd_pwr hw.mem (Chg.upd_hif hw.mem (Chg.upd_resets hw.mem (Chg.upd_msix hw.mem (Chg.upd_snaps hw.mem (Chg.upd_holds hw.mem (Chg.upd_fences hw.mem (Chg.upd_slots hw.mem (Chg.upd_regs hw.mem h2 c0) v1) v2) v3) v4) v5) v6) v7) v8) c9) v10) _ _ _ _ _ _ _ _ _ _ _ (Tab.wf_keep _ _) ⟨Nat.le_refl _, Nat.le_refl _, Nat.le_refl _, Nat.le_refl _⟩
  exact State.wr_chg hw.up h6

theorem State.clocksOff_chg (hw : Within [.regs] w) (hs : Chg w s0 s) : Chg w s0 (State.clocksOff s) := by
  unfold State.clocksOff
  exact State.wr_chg hw.up hs

theorem State.aonLog_chg {i : Nat} {payload : List Byte} (hw : Within [.mgs] w) (hs : Chg w s0 s) : Chg w s0 (State.aonLog s i payload) := by
  unfold State.aonLog
  exact State.logReq_chg hw.up hs

theorem State.wakeLog_chg (hw : Within [.mgs] w) (hs : Chg w s0 s) : Chg w s0 (State.wakeLog s) := by
  unfold State.wakeLog
  exact Chg.upd_mgs hw.mem hs ⟨Nat.le_refl _, Nat.le_refl _, Nat.le_refl _, Nat.le_refl _⟩

theorem State.pduOnce_chg {j : Nat} (hw : Within [.regs, .msix, .cfl, .twn, .mgs, .inj, .out] w) (hs : Chg w s0 s) : Chg w s0 (State.pduOnce s j) := by
  unfold State.pduOnce
  refine Chg.ite ?_ ?_
  · exact hs
  · split
    · rename_i y1 y2 y3 e5
      have h4 := Chg2.of (State.pduBuild_chg hw.up hs) e5
      split
      · rename_i y6 y7 e9
        have h8 := Chg2.of (State.pduOut_chg hw.up h4) e9
        exact Chg.foldl (fun t11 _ h10 => State.cflPresent_chg hw.up h10) (h8)

theorem State.sleepStart_chg {target : Nat} (hw : Within [.regs, .msix, .bsn, .meters, .egr, .bud, .fre, .fgd, .had, .ept, .lin, .cfl, .vlt, .auth, .twn, .pwr, .mgs, .inj, .out, .free] w) (hs : Chg w s0 s) : Chg w s0 (State.sleepStart s target) := by
  unfold State.sleepStart
  extract_lets -underBinder -merge +onlyGivenNames s1
  have h2 : Chg w s0 s1 := State.preSleep_chg hw.up hs
  refine Chg.ite ?_ ?_
  · exact h2
  · extract_lets -underBinder -merge +onlyGivenNames s3 s5
    have h4 : Chg w s0 s3 := Chg.ite (State.pduOnce_chg hw.up h2) (h2)
    have h6 : Chg w s0 s5 := Chg.foldl (fun t8 _ h7 => State.linSleep_chg hw.up h7) (h4)
    exact Chg.foldl (fun t10 _ h9 => State.eptCmd_chg hw.up h9) (h6)

theorem State.deferredSleep_chg (hw : Within [.regs, .msix, .bsn, .meters, .egr, .bud, .fre, .fgd, .had, .ept, .lin, .cfl, .vlt, .auth, .twn, .pwr, .mgs, .inj, .out, .free] w) (hs : Chg w s0 s) : Chg w s0 (State.deferredSleep s) := by
  unfold State.deferredSleep
  split
  · exact State.sleepStart_chg hw.up hs
  · exact hs

theorem State.sleepUndo_chg (hw : Within [.regs, .msix, .bsn, .meters, .egr, .bud, .fre, .fgd, .had, .ept, .lin, .cfl, .vlt, .auth, .twn, .pwr, .mgs, .inj, .out, .free] w) (hs : Chg w s0 s) : Chg w s0 (State.sleepUndo s) := by
  unfold State.sleepUndo
  extract_lets -underBinder -merge +onlyGivenNames s1 src3 s4 s6 s8
  have h2 : Chg w s0 s1 := State.freeQuiet_chg hw.up hs
  have h5 : Chg w s0 s4 := State.setPwr_chg hw.up h2
  have h7 : Chg w s0 s6 := Chg.ite (State.pduOnce_chg hw.up h5) (h5)
  have h9 : Chg w s0 s8 := Chg.foldl (fun t11 _ h10 => State.linWake_chg hw.up h10) (h7)
  exact Chg.foldl (fun t13 _ h12 => Chg.ite (State.eptCmd_chg hw.up h12) (h12)) (h9)

theorem State.sleepAbort_chg (hw : Within [.regs, .msix, .bsn, .meters, .egr, .bud, .fre, .fgd, .had, .ept, .lin, .cfl, .vlt, .auth, .twn, .pwr, .mgs, .inj, .out, .free] w) (hs : Chg w s0 s) : Chg w s0 (State.sleepAbort s) := by
  unfold State.sleepAbort
  extract_lets -underBinder -merge +onlyGivenNames n1 s2 s4
  have h3 : Chg w s0 s2 := State.wr64_chg hw.up hs
  have h5 : Chg w s0 s4 := State.sleepUndo_chg hw.up h3
  exact State.aonLog_chg hw.up (State.raise_chg hw.up (State.evt_chg hw.up h5))

theorem State.memberSilent_chg {k : Nat} (hw : Within [.pwr] w) (hs : Chg w s0 s) : Chg w s0 (State.memberSilent s k) := by
  unfold State.memberSilent
  exact Chg.ite (hs) (State.setPwr_chg hw.up hs)

theorem State.sleepSave_chg (hw : Within [.regs, .slots, .snaps, .msix, .mgs, .svc, .out] w) (hs : Chg w s0 s) : Chg w s0 (State.sleepSave s) := by
  unfold State.sleepSave
  extract_lets -underBinder -merge +onlyGivenNames free1 s2
  have h3 : Chg w s0 s2 := State.snapTakeAll_chg hw.up hs
  refine Chg.ite ?_ ?_
  · exact h3
  · extract_lets -underBinder -merge +onlyGivenNames s4
    have h5 : Chg w s0 s4 := Chg.ite (Chg2.snd (State.journalAdd_chg hw.up (State.snapLog_chg hw.up h3))) (h3)
    exact State.checkpoint_chg hw.up (State.logFlush_chg hw.up (State.journalSyncAll_chg hw.up h5))

theorem State.sleepPoint_chg (hw : Within [.regs, .slots, .snaps, .msix, .bsn, .egr, .fgd, .ept, .can, .pwr, .mgs, .svc, .out] w) (hs : Chg w s0 s) : Chg w s0 (State.sleepPoint s) := by
  unfold State.sleepPoint
  refine Chg.ite ?_ ?_
  · exact hs
  · extract_lets -underBinder -merge +onlyGivenNames s1 s3
    have h2 : Chg w s0 s1 := Chg.ite (State.basinDrop_chg hw.up hs) (hs)
    have h4 : Chg w s0 s3 := State.sleepSave_chg hw.up h2
    exact State.setPwr_chg hw.up h4

theorem State.sleepFail_chg (hw : Within [.regs, .msix, .bsn, .meters, .egr, .bud, .fre, .fgd, .had, .ept, .lin, .cfl, .vlt, .auth, .twn, .pwr, .mgs, .inj, .out, .free] w) (hs : Chg w s0 s) : Chg w s0 (State.sleepFail s) := by
  unfold State.sleepFail
  exact Chg.ite (hs) (State.aonLog_chg hw.up (State.raise_chg hw.up (State.evt_chg hw.up (State.sleepUndo_chg hw.up hs))))

theorem State.wakeAdd_chg {k : Nat} (hw : Within [.regs, .pwr] w) (hs : Chg w s0 s) : Chg w s0 (State.wakeAdd s k) := by
  unfold State.wakeAdd
  extract_lets -underBinder -merge +onlyGivenNames s1
  have h2 : Chg w s0 s1 := State.wr64_chg hw.up hs
  exact Chg.ite (State.setPwr_chg hw.up h2) (h2)

theorem State.inhUp_chg (hw : Within [.regs, .pwr, .out] w) (hs : Chg w s0 s) : Chg w s0 (State.inhUp s) := by
  unfold State.inhUp
  extract_lets -underBinder -merge +onlyGivenNames l1 t2 s3 src5 s6
  have h4 : Chg w s0 s3 := State.wr_chg hw.up hs
  have h7 : Chg w s0 s6 := Chg.foldl (fun t9 _ h8 => State.wakeAdd_chg hw.up h8) (State.setPwr_chg hw.up (State.wr64_chg hw.up h4))
  exact State.emit_chg hw.up (State.setPwr_chg hw.up (State.stat_chg hw.up h7))

theorem State.wakeStart_chg (hw : Within [.regs, .pwr, .out] w) (hs : Chg w s0 s) : Chg w s0 (State.wakeStart s) := by
  unfold State.wakeStart
  extract_lets -underBinder -merge +onlyGivenNames src1 s2
  have h3 : Chg w s0 s2 := State.setPwr_chg hw.up hs
  exact Chg.ite (State.inhUp_chg hw.up h3) (h3)

theorem State.latchSet_chg {k : Nat} {n : Nat} {err : Bool} (hw : Within [.regs, .msix, .bsn, .meters, .egr, .bud, .fre, .fgd, .had, .ept, .lin, .cfl, .vlt, .auth, .twn, .pwr, .mgs, .inj, .out, .free] w) (hs : Chg w s0 s) : Chg w s0 (State.latchSet s k n err) := by
  unfold State.latchSet
  extract_lets -underBinder -merge +onlyGivenNames src1 s2 src4 s5 put7
  have h3 : Chg w s0 s2 := Chg.ite (hs) (State.setPwr_chg hw.up (State.wr64_chg hw.up hs))
  have h6 : Chg w s0 s5 := Chg.ite (State.setPwr_chg hw.up h3) (h3)
  have h8 : ∀ z9, Chg w s0 z9 → Chg w s0 (put7 z9) := by
    intro z9 h10
    unfold put7
    exact State.setPwr_chg hw.up h10
  split
  · exact State.sleepAbort_chg hw.up (h8 _ (h6))
  · exact State.setPwr_chg hw.up (h8 _ (h6))
  · exact Chg.ite (State.wakeAdd_chg hw.up (Chg.ite (State.wf_chg hw.up h6) (h6))) (h8 _ (h6))
  · exact State.wakeStart_chg hw.up (h8 _ (h6))
  · exact h6

theorem State.wakeLatch_chg {k : Nat} {n : Nat} (hw : Within [.regs, .msix, .bsn, .meters, .egr, .bud, .fre, .fgd, .had, .ept, .lin, .cfl, .vlt, .auth, .twn, .pwr, .mgs, .inj, .out, .free] w) (hs : Chg w s0 s) : Chg w s0 (State.wakeLatch s k n) := by
  unfold State.wakeLatch
  exact Chg.ite (State.latchSet_chg hw.up hs) (hs)

theorem State.swGood_chg {c : Nat} (hw : Within [.regs] w) (hs : Chg w s0 s) : Chg w s0 (State.swGood s c) := by
  unfold State.swGood
  extract_lets -underBinder -merge +onlyGivenNames n1
  exact State.wf_chg hw.up hs

theorem State.swTrim_chg {corr : Int} (hw : Within [.regs, .msix, .pwr, .mgs, .out] w) (hs : Chg w s0 s) : Chg w s0 (State.swTrim s corr) := by
  unfold State.swTrim
  refine Chg.ite ?_ ?_
  · exact hs
  · extract_lets -underBinder -merge +onlyGivenNames l1 m2 src3 s4
    have h5 : Chg w s0 s4 := State.setPwr_chg hw.up hs
    exact State.trimMove_chg hw.up h5

theorem State.swFrame_chg {c : Nat} {id : Nat} {ide : Bool} {rtr : Bool} {dlc : Nat} {data : List Byte} {n : Nat} {corr : Int} (hw : Within [.regs, .msix, .bsn, .meters, .egr, .bud, .fre, .fgd, .had, .ept, .lin, .cfl, .vlt, .auth, .twn, .pwr, .mgs, .inj, .out, .free] w) (hs : Chg w s0 s) : Chg w s0 (State.swFrame s c id ide rtr dlc data n corr) := by
  unfold State.swFrame
  refine Chg.ite ?_ ?_
  · exact hs
  · extract_lets -underBinder -merge +onlyGivenNames s1
    have h2 : Chg w s0 s1 := State.swTrim_chg hw.up (State.swGood_chg hw.up (State.heard_chg hw.up hs))
    refine Chg.ite ?_ ?_
    · exact h2
    · extract_lets -underBinder -merge +onlyGivenNames s3 s5 src7 s8
      have h4 : Chg w s0 s3 := State.wr_chg hw.up (State.wr_chg hw.up h2)
      have h6 : Chg w s0 s5 := State.wr_chg hw.up (State.wr_chg hw.up h4)
      have h9 : Chg w s0 s8 := Chg.ite (h2) (State.setPwr_chg hw.up h6)
      exact State.latchSet_chg hw.up h9

theorem State.swError_chg {c : Nat} {fd : Bool} {n : Nat} (hw : Within [.regs, .msix, .bsn, .meters, .egr, .bud, .fre, .fgd, .had, .ept, .lin, .cfl, .vlt, .auth, .twn, .pwr, .mgs, .inj, .out, .free] w) (hs : Chg w s0 s) : Chg w s0 (State.swError s c fd n) := by
  unfold State.swError
  refine Chg.ite ?_ ?_
  · exact hs
  · extract_lets -underBinder -merge +onlyGivenNames s1 e3 s4
    have h2 : Chg w s0 s1 := State.heard_chg hw.up hs
    have h5 : Chg w s0 s4 := State.wf_chg hw.up h2
    exact Chg.ite (State.latchSet_chg hw.up h5) (h5)

theorem State.swDecoded_chg {c : Nat} {corr : Int} (hw : Within [.regs, .msix, .pwr, .mgs, .out] w) (hs : Chg w s0 s) : Chg w s0 (State.swDecoded s c corr) := by
  unfold State.swDecoded
  exact Chg.ite (State.swTrim_chg hw.up (State.swGood_chg hw.up (State.heard_chg hw.up hs))) (hs)

theorem State.inhDown_chg (hw : Within [.pwr, .out] w) (hs : Chg w s0 s) : Chg w s0 (State.inhDown s) := by
  unfold State.inhDown
  exact Chg.ite (hs) (State.emit_chg hw.up (State.setPwr_chg hw.up hs))

theorem State.allOff_chg {cause : Nat} (hw : Within [.regs, .slots, .fences, .holds, .snaps, .tbl, .stage, .commitQ, .commits, .msix, .resets, .lrn, .bsn, .meters, .egr, .slu, .bud, .fre, .fgd, .had, .ept, .hif, .can, .lin, .cfl, .vlt, .auth, .twn, .tim, .pwr, .mgs, .svc, .inj, .out, .free] w) (hs : Chg w s0 s) : Chg w s0 (State.allOff s cause) := by
  unfold State.allOff
  extract_lets -underBinder -merge +onlyGivenNames s1 s3 s5
  have h2 : Chg w s0 s1 := Chg.ite (State.svcOff_chg hw.up hs) (hs)
  have h4 : Chg w s0 s3 := State.fwdOff_chg hw.up h2
  have h6 : Chg w s0 s5 := State.clocksOff_chg hw.up (State.mgsReset_chg hw.up h4)
  exact State.setPwr_chg hw.up h6

theorem State.switchesOpen_chg (hw : Within [.regs, .slots, .fences, .holds, .snaps, .tbl, .stage, .commitQ, .commits, .msix, .resets, .lrn, .bsn, .meters, .egr, .slu, .bud, .fre, .fgd, .had, .ept, .hif, .can, .lin, .cfl, .vlt, .auth, .twn, .tim, .pwr, .mgs, .svc, .inj, .out, .free] w) (hs : Chg w s0 s) : Chg w s0 (State.switchesOpen s) := by
  unfold State.switchesOpen
  refine Chg.ite ?_ ?_
  · exact hs
  · extract_lets -underBinder -merge +onlyGivenNames s1 src3 s4
    have h2 : Chg w s0 s1 := State.allOff_chg hw.up hs
    have h5 : Chg w s0 s4 := State.setPwr_chg hw.up h2
    exact Chg.ite (Chg.ite (Chg.foldl (fun t7 _ h6 => State.wr_chg hw.up h6) (h5)) (h5)) (State.wakeStart_chg hw.up h5)

theorem State.minOffEnd_chg (hw : Within [.regs, .pwr, .out] w) (hs : Chg w s0 s) : Chg w s0 (State.minOffEnd s) := by
  unfold State.minOffEnd
  extract_lets -underBinder -merge +onlyGivenNames src1 s2
  have h3 : Chg w s0 s2 := State.setPwr_chg hw.up hs
  exact Chg.ite (State.inhUp_chg hw.up h3) (h3)

theorem State.powerGood_chg {ddr : Bool} (hw : Within [.regs, .msix, .pwr, .mgs, .out] w) (hs : Chg w s0 s) : Chg w s0 (State.powerGood s ddr) := by
  unfold State.powerGood
  refine Chg.ite ?_ ?_
  · exact hs
  · extract_lets -underBinder -merge +onlyGivenNames late1 src2 s3
    have h4 : Chg w s0 s3 := State.setPwr_chg hw.up hs
    exact Chg.ite (State.aonLog_chg hw.up (State.raise_chg hw.up h4)) (h4)

theorem State.pgTimeout_chg (hw : Within [.regs, .pwr] w) (hs : Chg w s0 s) : Chg w s0 (State.pgTimeout s) := by
  unfold State.pgTimeout
  exact Chg.ite (hs) (State.setPwr_chg hw.up (State.evt_chg hw.up hs))

theorem State.xinaGood_chg {n : Nat} (hw : Within [.regs, .slots, .fences, .snaps, .tbl, .stage, .commitQ, .commits, .frcNs, .msix, .resets, .lrn, .bsn, .meters, .egr, .slu, .bud, .fre, .fgd, .had, .ept, .can, .lin, .cfl, .vlt, .auth, .twn, .tim, .pwr, .svc, .inj, .out] w) (hs : Chg w s0 s) : Chg w s0 (State.xinaGood s n) := by
  unfold State.xinaGood
  refine Chg.ite ?_ ?_
  · exact hs
  · extract_lets -underBinder -merge +onlyGivenNames f1 src2 s3 s5
    have h4 : Chg w s0 s3 := Chg.ite (State.setPwr_chg hw.up (Chg.upd_frcNs hw.mem hs _)) (hs)
    have h6 : Chg w s0 s5 := State.wf_chg hw.up (State.wf_chg hw.up h4)
    exact Chg.ite (State.domsUp_chg hw.up h6) (h6)

theorem State.xinaTimeout_chg (hw : Within [.regs, .msix, .mgs, .out] w) (hs : Chg w s0 s) : Chg w s0 (State.xinaTimeout s) := by
  unfold State.xinaTimeout
  exact Chg.ite (hs) (State.logReq_chg hw.up (State.raise_chg hw.up (State.evt_chg hw.up hs)))

theorem State.xinaLost_chg (hw : Within [.regs, .slots, .fences, .snaps, .tbl, .stage, .commitQ, .commits, .msix, .resets, .lrn, .bsn, .meters, .egr, .slu, .bud, .fre, .fgd, .had, .ept, .hif, .can, .lin, .cfl, .vlt, .auth, .twn, .tim, .pwr, .mgs, .svc, .inj, .out, .free] w) (hs : Chg w s0 s) : Chg w s0 (State.xinaLost s) := by
  unfold State.xinaLost
  refine Chg.ite ?_ ?_
  · exact hs
  · extract_lets -underBinder -merge +onlyGivenNames s1 s3 src5 s6
    have h2 : Chg w s0 s1 := State.freeQuiet_chg hw.up hs
    have h4 : Chg w s0 s3 := State.wr_chg hw.up (State.domsDown_chg hw.up h2)
    have h7 : Chg w s0 s6 := State.setPwr_chg hw.up h4
    exact State.logReq_chg hw.up (State.raise_chg hw.up h7)

theorem State.warmReset_chg {cause : Nat} (hw : Within [.regs, .slots, .fences, .holds, .snaps, .tbl, .stage, .commitQ, .commits, .msix, .resets, .lrn, .bsn, .meters, .egr, .slu, .bud, .fre, .fgd, .had, .ept, .hif, .can, .lin, .cfl, .vlt, .auth, .twn, .tim, .pwr, .mgs, .svc, .inj, .out, .free] w) (hs : Chg w s0 s) : Chg w s0 (State.warmReset s cause) := by
  unfold State.warmReset
  refine Chg.ite ?_ ?_
  · exact hs
  · extract_lets -underBinder -merge +onlyGivenNames t1 s2
    have h3 : Chg w s0 s2 := State.mgsReset_chg hw.up (State.domsDown_chg hw.up hs)
    exact State.msixEval_chg hw.up (State.setPwr_chg hw.up h3)

theorem State.xinaRetry_chg {ok : Bool} {n : Nat} (hw : Within [.regs, .slots, .fences, .holds, .snaps, .tbl, .stage, .commitQ, .commits, .frcNs, .msix, .resets, .lrn, .bsn, .meters, .egr, .slu, .bud, .fre, .fgd, .had, .ept, .hif, .can, .lin, .cfl, .vlt, .auth, .twn, .tim, .pwr, .mgs, .svc, .inj, .out, .free] w) (hs : Chg w s0 s) : Chg w s0 (State.xinaRetry s ok n) := by
  unfold State.xinaRetry
  exact Chg.ite (hs) (Chg.ite (State.warmReset_chg hw.up (State.wr_chg hw.up hs)) (State.xinaGood_chg hw.up hs))

theorem State.xinbStable_chg (hw : Within [.regs] w) (hs : Chg w s0 s) : Chg w s0 (State.xinbStable s) := by
  unfold State.xinbStable
  exact Chg.ite (State.wf_chg hw.up hs) (hs)

theorem State.pllUnlock_chg {k : Nat} (hw : Within [.regs, .slots, .fences, .snaps, .tbl, .stage, .commitQ, .commits, .msix, .resets, .lrn, .bsn, .meters, .egr, .slu, .bud, .fre, .fgd, .had, .ept, .hif, .can, .lin, .cfl, .vlt, .auth, .twn, .tim, .pwr, .mgs, .svc, .inj, .out, .free] w) (hs : Chg w s0 s) : Chg w s0 (State.pllUnlock s k) := by
  unfold State.pllUnlock
  refine Chg.ite ?_ ?_
  · exact hs
  · extract_lets -underBinder -merge +onlyGivenNames s1 s3
    have h2 : Chg w s0 s1 := State.raise_chg hw.up (State.evt_chg hw.up (State.wf_chg hw.up hs))
    have h4 : Chg w s0 s3 := State.logEvt_chg hw.up h2
    split
    · exact State.xinaLost_chg hw.up h4
    · exact Chg.foldl (fun t6 _ h5 => State.pcsDown_chg hw.up h5) (h4)
    · exact Chg.foldl (fun t8 _ h7 => State.pcsDown_chg hw.up h7) (h4)
    · exact h4

theorem State.pllLocked_chg {k : Nat} (hw : Within [.regs, .slots, .msix, .mgs, .svc, .out] w) (hs : Chg w s0 s) : Chg w s0 (State.pllLocked s k) := by
  unfold State.pllLocked
  extract_lets -underBinder -merge +onlyGivenNames on1
  refine Chg.ite ?_ ?_
  · exact hs
  · extract_lets -underBinder -merge +onlyGivenNames s2
    have h3 : Chg w s0 s2 := State.wf_chg hw.up hs
    exact Chg.ite (State.svcRelock_chg hw.up h3) (h3)

theorem State.bootDone_chg (hw : Within [.regs, .slots, .fences, .holds, .snaps, .tbl, .stage, .commitQ, .commits, .msix, .resets, .lrn, .bsn, .meters, .egr, .slu, .bud, .fre, .fgd, .had, .ept, .hif, .can, .lin, .cfl, .vlt, .auth, .twn, .tim, .pwr, .mgs, .svc, .inj, .out, .free] w) (hs : Chg w s0 s) : Chg w s0 (State.bootDone s) := by
  unfold State.bootDone
  refine Chg.ite ?_ ?_
  · exact hs
  · extract_lets -underBinder -merge +onlyGivenNames s1 ver3 src4 s5 s7 src9 s10 s12
    have h2 : Chg w s0 s1 := State.fallback_chg hw.up hs
    have h6 : Chg w s0 s5 := State.fwMeasured_chg hw.up (State.setMgs_chg hw.up h2 ⟨Nat.le_refl _, Nat.le_refl _, Nat.le_refl _, Nat.le_refl _⟩)
    have h8 : Chg w s0 s7 := State.logMgmt_chg hw.up h6
    have h11 : Chg w s0 s10 := State.setPwr_chg hw.up h8
    have h13 : Chg w s0 s12 := Chg.ite (h11) (State.mgsRestore_chg hw.up h11)
    exact State.mailServe_chg hw.up h13

theorem State.brownLog_chg (hw : Within [.pwr, .mgs] w) (hs : Chg w s0 s) : Chg w s0 (State.brownLog s) := by
  unfold State.brownLog
  exact Chg.ite (State.wakeLog_chg hw.up (State.setPwr_chg hw.up hs)) (hs)

theorem State.reached_chg {t : Nat} (hw : Within [.regs, .msix, .bsn, .meters, .egr, .bud, .fre, .fgd, .had, .ept, .lin, .cfl, .vlt, .auth, .twn, .pwr, .mgs, .inj, .out, .free] w) (hs : Chg w s0 s) : Chg w s0 (State.reached s t) := by
  unfold State.reached
  extract_lets -underBinder -merge +onlyGivenNames src1 s2
  have h3 : Chg w s0 s2 := State.raise_chg hw.up (State.setPwr_chg hw.up hs)
  exact State.deferredSleep_chg hw.up (State.brownLog_chg hw.up h3)

theorem State.restoreDone_chg {bad : Option Nat} (hw : Within [.regs, .slots, .fences, .holds, .snaps, .tbl, .stage, .commitQ, .commits, .msix, .resets, .lrn, .bsn, .meters, .egr, .slu, .bud, .fre, .fgd, .had, .ept, .hif, .can, .lin, .cfl, .vlt, .auth, .twn, .tim, .pwr, .mgs, .svc, .inj, .out, .free] w) (hs : Chg w s0 s) : Chg w s0 (State.restoreDone s bad) := by
  unfold State.restoreDone
  refine Chg.ite ?_ ?_
  · exact hs
  · extract_lets -underBinder -merge +onlyGivenNames s1 s3 s5 src7 s8
    have h2 : Chg w s0 s1 := State.journalCut_chg hw.up hs
    have h4 : Chg w s0 s3 := State.coldRestore_chg hw.up (State.domsUp_chg hw.up (State.domsDown_chg hw.up h2))
    have h6 : Chg w s0 s5 := Chg.ite (State.forwardOn_chg hw.up h4) (h4)
    have h9 : Chg w s0 s8 := State.setPwr_chg hw.up h6
    exact Chg.ite (State.reached_chg hw.up h9) (h9)

theorem State.ckptRestore_chg {part : Nat} {ok : Bool} (hw : Within [.regs, .slots, .fences, .holds, .snaps, .tbl, .stage, .commitQ, .commits, .msix, .resets, .lrn, .bsn, .meters, .egr, .slu, .bud, .fre, .fgd, .had, .ept, .hif, .can, .lin, .cfl, .vlt, .auth, .twn, .tim, .pwr, .mgs, .svc, .inj, .out, .free] w) (hs : Chg w s0 s) : Chg w s0 (State.ckptRestore s part ok) := by
  unfold State.ckptRestore
  refine Chg.ite ?_ ?_
  · exact hs
  · refine Chg.ite ?_ ?_
    · extract_lets -underBinder -merge +onlyGivenNames s1 s3
      have h2 : Chg w s0 s1 := State.wf_chg hw.up hs
      have h4 : Chg w s0 s3 := State.aonLog_chg hw.up (State.domsDown_chg hw.up h2)
      exact State.setPwr_chg hw.up h4
    · exact Chg.ite (Chg.ite (hs) (State.setPwr_chg hw.up (State.canRestore_chg hw.up hs))) (Chg.ite (State.forwardOn_chg hw.up (State.restRestore_chg hw.up hs)) (hs))

theorem State.wakeComplete_chg (hw : Within [.regs, .msix, .bsn, .meters, .egr, .bud, .fre, .fgd, .had, .ept, .lin, .cfl, .vlt, .auth, .twn, .pwr, .mgs, .inj, .out, .free] w) (hs : Chg w s0 s) : Chg w s0 (State.wakeComplete s) := by
  unfold State.wakeComplete
  refine Chg.ite ?_ ?_
  · exact hs
  · extract_lets -underBinder -merge +onlyGivenNames src1 s2
    have h3 : Chg w s0 s2 := State.raise_chg hw.up (State.setPwr_chg hw.up hs)
    exact State.marginPeriod_chg hw.up (State.reached_chg hw.up (State.wakeLog_chg hw.up h3))

theorem State.falseWake_chg {k : Nat} (hw : Within [.regs, .msix, .pwr, .mgs, .out] w) (hs : Chg w s0 s) : Chg w s0 (State.falseWake s k) := by
  unfold State.falseWake
  refine Chg.ite ?_ ?_
  · exact hs
  · extract_lets -underBinder -merge +onlyGivenNames src1 s2 s4 n6 lim7 src8 s9
    have h3 : Chg w s0 s2 := State.setPwr_chg hw.up hs
    have h5 : Chg w s0 s4 := State.logEvt_chg hw.up (State.raise_chg hw.up (State.evt_chg hw.up h3))
    have h10 : Chg w s0 s9 := State.setPwr_chg hw.up h5
    refine Chg.ite ?_ ?_
    · exact h10
    · extract_lets -underBinder -merge +onlyGivenNames s11 s13
      have h12 : Chg w s0 s11 := State.wf_chg hw.up h10
      have h14 : Chg w s0 s13 := Chg.ite (State.wf_chg hw.up h12) (State.wf_chg hw.up h12)
      exact State.aonLog_chg hw.up (State.raise_chg hw.up h14)

theorem State.transRej_chg (hw : Within [.regs, .msix, .out] w) (hs : Chg w s0 s) : Chg w s0 (State.transRej s) := by
  unfold State.transRej
  exact State.raise_chg hw.up (State.evt_chg hw.up hs)

theorem State.transStart_chg {t : Nat} (hw : Within [.regs, .pwr] w) (hs : Chg w s0 s) : Chg w s0 (State.transStart s t) := by
  unfold State.transStart
  extract_lets -underBinder -merge +onlyGivenNames off1 l2 s3
  have h4 : Chg w s0 s3 := State.askQuiet_chg hw.up hs
  exact State.setPwr_chg hw.up h4

theorem State.transDone_chg (hw : Within [.regs, .slots, .fences, .holds, .snaps, .tbl, .stage, .commitQ, .commits, .msix, .resets, .lrn, .bsn, .meters, .egr, .slu, .bud, .fre, .fgd, .had, .ept, .hif, .can, .lin, .cfl, .vlt, .auth, .twn, .tim, .pwr, .mgs, .svc, .inj, .out, .free] w) (hs : Chg w s0 s) : Chg w s0 (State.transDone s) := by
  unfold State.transDone
  extract_lets -underBinder -merge +onlyGivenNames t1
  exact Chg.ite (hs) (State.reached_chg hw.up (State.domsSet_chg hw.up (State.freeQuiet_chg hw.up hs)))

theorem State.transAbort_chg (hw : Within [.regs, .msix, .bsn, .meters, .egr, .bud, .fre, .fgd, .had, .ept, .lin, .cfl, .vlt, .auth, .twn, .pwr, .mgs, .inj, .out, .free] w) (hs : Chg w s0 s) : Chg w s0 (State.transAbort s) := by
  unfold State.transAbort
  split
  · exact hs
  · refine Chg.ite ?_ ?_
    · exact hs
    · extract_lets -underBinder -merge +onlyGivenNames s1 src3 s4
      have h2 : Chg w s0 s1 := State.freeQuiet_chg hw.up (State.wr_chg hw.up hs)
      have h5 : Chg w s0 s4 := State.setPwr_chg hw.up h2
      exact State.deferredSleep_chg hw.up (State.aonLog_chg hw.up (State.raise_chg hw.up (State.evt_chg hw.up h5)))

theorem State.sleepCmd_chg {t : Nat} (hw : Within [.regs, .msix, .bsn, .meters, .egr, .bud, .fre, .fgd, .had, .ept, .lin, .cfl, .vlt, .auth, .twn, .pwr, .mgs, .inj, .out, .free] w) (hs : Chg w s0 s) : Chg w s0 (State.sleepCmd s t) := by
  unfold State.sleepCmd
  split
  · exact Chg.ite (State.transRej_chg hw.up hs) (State.sleepStart_chg hw.up hs)
  · exact hs
  · exact State.setPwr_chg hw.up hs
  · exact State.transRej_chg hw.up hs

theorem State.pwrCmd_chg {t : Nat} (hw : Within [.regs, .msix, .bsn, .meters, .egr, .bud, .fre, .fgd, .had, .ept, .lin, .cfl, .vlt, .auth, .twn, .pwr, .mgs, .inj, .out, .free] w) (hs : Chg w s0 s) : Chg w s0 (State.pwrCmd s t) := by
  unfold State.pwrCmd
  refine Chg.ite ?_ ?_
  · exact State.sleepCmd_chg hw.up hs
  · refine Chg.ite ?_ ?_
    · exact State.transRej_chg hw.up hs
    · refine Chg.ite ?_ ?_
      · extract_lets -underBinder -merge +onlyGivenNames s1
        have h2 : Chg w s0 s1 := State.sleepAbort_chg hw.up hs
        exact Chg.ite (h2) (State.transStart_chg hw.up h2)
      · exact Chg.ite (State.transRej_chg hw.up hs) (State.transStart_chg hw.up hs)

theorem State.pwrWrite_chg {m : Nat} {t : Nat} (hw : Within [.regs, .fences, .msix, .bsn, .meters, .egr, .bud, .fre, .fgd, .had, .ept, .hif, .lin, .cfl, .vlt, .auth, .twn, .pwr, .mgs, .inj, .out, .free] w) (hs : Chg w s0 s) : Chg w s0 (State.pwrWrite s m t) := by
  unfold State.pwrWrite
  exact State.access_chg hw.up hs (fun x1 h2 => State.pwrCmd_chg hw.up h2)

theorem State.powerOn_chg (hw : Within [.regs, .slots, .fences, .holds, .snaps, .tbl, .stage, .commitQ, .commits, .frcNs, .frcFrac, .msix, .resets, .lrn, .bsn, .meters, .egr, .slu, .bud, .fre, .fgd, .had, .ept, .hif, .can, .lin, .cfl, .vlt, .auth, .twn, .tim, .pwr, .mgs, .svc, .inj, .out, .free] w) (hs : Chg w s0 s) : Chg w s0 (State.powerOn s) := by
  have i : State.reset.Inv := ⟨by decide, by decide⟩
  refine hs.trans ⟨fun a ha => ?_, fun _ => ⟨i.regs, i.tbl⟩, ⟨Nat.le_refl _, Nat.le_refl _, Nat.le_refl _, Nat.le_refl _⟩, ?_, List.prefix_refl _, Nat.le_refl _⟩
  · cases a <;> first | rfl | exact absurd hw.mem ha
  · have k := (State.vltPowerDown_chg (w := [.vlt]) ⟨by rfl⟩ (Chg.refl s)).vlt
    exact ⟨k.epoch, k.gen⟩

theorem State.brownOut_chg {ddr : Bool} (hw : Within [.regs, .slots, .fences, .holds, .snaps, .tbl, .stage, .commitQ, .commits, .msix, .resets, .lrn, .bsn, .meters, .egr, .slu, .bud, .fre, .fgd, .had, .ept, .hif, .can, .lin, .cfl, .vlt, .auth, .twn, .tim, .pwr, .mgs, .svc, .inj, .out, .free] w) (hs : Chg w s0 s) : Chg w s0 (State.brownOut s ddr) := by
  unfold State.brownOut
  refine Chg.ite ?_ ?_
  · exact hs
  · extract_lets -underBinder -merge +onlyGivenNames p1 s2
    have h3 : Chg w s0 s2 := State.allOff_chg hw.up (State.wf_chg hw.up hs)
    exact State.setPwr_chg hw.up h3

theorem State.warmCmd_chg {m : Nat} (hw : Within [.regs, .slots, .fences, .holds, .snaps, .tbl, .stage, .commitQ, .commits, .msix, .resets, .lrn, .bsn, .meters, .egr, .slu, .bud, .fre, .fgd, .had, .ept, .hif, .can, .lin, .cfl, .vlt, .auth, .twn, .tim, .pwr, .mgs, .svc, .inj, .out, .free] w) (hs : Chg w s0 s) : Chg w s0 (State.warmCmd s m) := by
  unfold State.warmCmd
  exact Chg.ite (State.warmReset_chg hw.up hs) (State.violate_chg hw.up hs)

end Sys2Proof.Machine
end

