-- ==== Sys2Proof/Laws/ChgAccess.lean ====
section
/-! SUPPORT. What the operations of register accesses and the management interfaces can change: one lemma each. -/

set_option Elab.async false

namespace Sys2Proof.Machine

variable {w : List Area} {s0 s : State}

theorem State.ackWrite_chg {m : Nat} {a : Nat} {v : Word} (hw : Within [.regs, .slots, .msix, .hif, .mgs, .out] w) (hs : Chg w s0 s) : Chg w s0 (State.ackWrite s m a v) := by
  unfold State.ackWrite
  split
  · exact State.resAck_chg hw.up hs (fun x1 h2 => h2)
  · exact hs

theorem State.cmdWrite_chg {b : Blk} {i : Nat} {m : Nat} {a : Nat} {v : Word} (hw : Within [.regs, .slots, .fences, .holds, .snaps, .tbl, .stage, .commitQ, .commits, .msix, .resets, .lrn, .bsn, .meters, .egr, .slu, .bud, .fre, .fgd, .had, .ept, .hif, .can, .lin, .cfl, .vlt, .auth, .twn, .tim, .pwr, .mgs, .svc, .inj, .out, .free] w) (hs : Chg w s0 s) : Chg w s0 (State.cmdWrite s b i m a v) := by
  unfold State.cmdWrite
  extract_lets -underBinder -merge +onlyGivenNames s1
  have h2 : Chg w s0 s1 := Chg.ite (State.ackWrite_chg hw.up hs) (hs)
  split
  · exact Chg.ite (State.fenceReq_chg hw.up h2) (h2)
  · exact Chg.ite (State.warmCmd_chg hw.up h2) (h2)
  · exact Chg.ite (State.pwrCmd_chg hw.up h2) (h2)
  · exact Chg.ite (State.tapCmd_chg hw.up h2) (h2)
  · exact Chg.ite (State.twinCmd_chg hw.up h2) (h2)
  · exact Chg.ite (State.weiCmd_chg hw.up h2) (h2)
  · exact Chg.ite (State.sluCmd_chg hw.up h2) (h2)
  · exact Chg.ite (State.budCmd_chg hw.up h2) (h2)
  · exact Chg.ite (State.hadCmd_chg hw.up h2) (h2)
  · exact Chg.ite (State.fgdCmd_chg hw.up h2) (h2)
  · exact Chg.ite (State.freCmd_chg hw.up h2) (h2)
  · exact Chg.ite (State.eptCmd_chg hw.up h2) (h2)
  · exact Chg.ite (State.canCmd_chg hw.up h2) (h2)
  · exact Chg.ite (State.linCmd_chg hw.up h2) (h2)
  · exact Chg.ite (State.domCmdWrite_chg hw.up h2) (h2)
  · exact Chg.ite (State.srvOffsetWrite_chg hw.up h2) (h2)
  · exact Chg.ite (State.vltCmd_chg hw.up h2) (h2)
  · exact Chg.ite (State.cauCmd_chg hw.up h2) (h2)
  · exact Chg.ite (State.saCmd_chg hw.up h2) (h2)
  · exact Chg.ite (State.mgsCmd_chg hw.up h2) (h2)
  · exact Chg.ite (State.updCmd_chg hw.up h2) (h2)
  · exact Chg.ite (State.svcCmd_chg hw.up h2) (h2)
  · exact h2

theorem State.w1cWrite_chg {b : Blk} {i : Nat} {a : Nat} {d : RegDesc} {v : Word} (hw : Within [.regs, .msix, .out] w) (hs : Chg w s0 s) : Chg w s0 (State.w1cWrite s b i a d v) := by
  unfold State.w1cWrite
  split
  · exact State.canL0Release_chg hw.up hs
  · exact State.srvLevel_chg hw.up (State.wr_chg hw.up hs)
  · exact State.wr_chg hw.up hs

theorem State.hdrWrite_chg {m : Nat} {a : Nat} {v : Word} (hw : Within [.regs, .slots, .fences, .holds, .snaps, .tbl, .stage, .commitQ, .commits, .msix, .resets, .lrn, .bsn, .meters, .egr, .slu, .bud, .fre, .fgd, .had, .ept, .hif, .can, .lin, .cfl, .vlt, .auth, .twn, .tim, .pwr, .mgs, .svc, .inj, .out, .free] w) (hs : Chg w s0 s) : Chg w s0 (State.hdrWrite s m a v) := by
  unfold State.hdrWrite
  extract_lets -underBinder -merge +onlyGivenNames pg1
  split
  · exact State.cfgWrite_chg hw.up hs
  · exact State.intClear_chg hw.up hs
  · exact State.cfgWrite_chg hw.up hs
  · exact State.intForce_chg hw.up hs
  · exact State.blkLock_chg hw.up hs
  · exact State.errRearm_chg hw.up hs
  · exact State.cntSnap_chg hw.up hs
  · exact State.snapAck_chg hw.up hs
  · exact Chg.ite (State.wr_chg hw.up hs) (hs)
  · exact hs

theorem State.roWrite_chg {b : Blk} {m : Nat} {a : Nat} {v : Word} (hw : Within [.regs, .slots, .fences, .holds, .snaps, .tbl, .stage, .commitQ, .commits, .msix, .resets, .lrn, .bsn, .meters, .egr, .slu, .bud, .fre, .fgd, .had, .ept, .hif, .can, .lin, .cfl, .vlt, .auth, .twn, .tim, .pwr, .mgs, .svc, .inj, .out, .free] w) (hs : Chg w s0 s) : Chg w s0 (State.roWrite s b m a v) := by
  unfold State.roWrite
  split
  · exact State.cfgWrite_chg hw.up hs
  · exact Chg.ite (State.claimRelease_chg hw.up hs) (hs)
  · exact hs

theorem State.storeWrite_chg {m : Nat} {a : Nat} {v : Word} (hw : Within [.regs, .slots, .fences, .holds, .snaps, .tbl, .stage, .commitQ, .commits, .msix, .resets, .lrn, .bsn, .meters, .egr, .slu, .bud, .fre, .fgd, .had, .ept, .hif, .can, .lin, .cfl, .vlt, .auth, .twn, .tim, .pwr, .mgs, .svc, .inj, .out, .free] w) (hs : Chg w s0 s) : Chg w s0 (State.storeWrite s m a v) := by
  unfold State.storeWrite
  split
  · exact hs
  · refine Chg.ite ?_ ?_
    · exact State.hdrWrite_chg hw.up hs
    · split
      · exact hs
      · split
        · exact State.cfgWrite_chg hw.up hs
        · exact State.cfgWrite_chg hw.up hs
        · exact State.cmdWrite_chg hw.up hs
        · exact State.w1cWrite_chg hw.up hs
        · exact State.evtWrite_chg hw.up hs
        · exact State.roWrite_chg hw.up hs
        · exact hs
        · exact hs
        · exact hs

theorem State.asCore_chg {m : Nat} {core : Nat} (hw : Within [.svc] w) (hs : Chg w s0 s) : Chg w s0 (State.asCore s m core) := by
  unfold State.asCore
  exact Chg.ite (Chg.upd_svc hw.mem hs _) (hs)

theorem State.regWrite_chg {m : Nat} {a : Nat} {v : Word} {full : Bool} {core : Nat} (hw : Within [.regs, .slots, .fences, .holds, .snaps, .tbl, .stage, .commitQ, .commits, .msix, .resets, .lrn, .bsn, .meters, .egr, .slu, .bud, .fre, .fgd, .had, .ept, .hif, .can, .lin, .cfl, .vlt, .auth, .twn, .tim, .pwr, .mgs, .svc, .inj, .out, .free] w) (hs : Chg w s0 s) : Chg w s0 (State.regWrite s m a v full core) := by
  unfold State.regWrite
  exact State.access_chg hw.up (State.asCore_chg hw.up hs) (fun x1 h2 => State.storeWrite_chg hw.up h2)

theorem State.setHold_chg {m : Nat} {a : Nat} {h : Hold} (hw : Within [.holds] w) (hs : Chg w s0 s) : Chg w s0 (State.setHold s m a h) := by
  unfold State.setHold
  exact Chg.upd_holds hw.mem hs _

theorem State.heldRead_chg {m : Nat} {a : Nat} (hw : Within [.holds] w) (hs : Chg w s0 s) : Chg2 w s0 (State.heldRead s m a) := by
  unfold State.heldRead
  extract_lets -underBinder -merge +onlyGivenNames h1
  split
  · exact Chg.pair (Chg.ite (State.setHold_chg hw.up hs) (hs))
  · extract_lets -underBinder -merge +onlyGivenNames v2
    split
    · exact Chg.pair hs
    · extract_lets -underBinder -merge +onlyGivenNames l3
      refine Chg.ite2 ?_ ?_
      · exact Chg.pair hs
      · extract_lets -underBinder -merge +onlyGivenNames base4
        exact Chg.pair (State.setHold_chg hw.up hs)

theorem State.claimOnRead_chg {m : Nat} {a : Nat} (hw : Within [.svc] w) (hs : Chg w s0 s) : Chg w s0 (State.claimOnRead s m a) := by
  unfold State.claimOnRead
  exact Chg.ite (State.claimRead_chg hw.up hs) (hs)

theorem State.regRead_chg {m : Nat} {a : Nat} {full : Bool} {core : Nat} (hw : Within [.regs, .holds, .msix, .hif, .mgs, .svc, .out] w) (hs : Chg w s0 s) : Chg2 w s0 (State.regRead s m a full core) := by
  unfold State.regRead
  extract_lets -underBinder -merge +onlyGivenNames s1
  have h2 : Chg w s0 s1 := State.asCore_chg hw.up hs
  split
  · exact Chg.pair (State.perf_chg hw.up (State.violate_chg hw.up h2))
  · exact State.heldRead_chg hw.up (State.perf_chg hw.up (State.claimOnRead_chg hw.up h2))

theorem State.busRead_chg {m : Nat} {a : Nat} {full : Bool} {core : Nat} (hw : Within [.regs, .holds, .msix, .hif, .mgs, .svc, .out] w) (hs : Chg w s0 s) : Chg w s0 (State.busRead s m a full core) := by
  unfold State.busRead
  split
  · rename_i y1 y2 e4
    have h3 := Chg2.of (State.regRead_chg hw.up hs) e4
    exact State.emit_chg hw.up h3

theorem State.ringTouch_chg {c : Nat} {n : Nat} {a : Nat} {k : State → State} (hw : Within [.out] w) (hs : Chg w s0 s) (hk : ∀ t0, Chg w s0 t0 → Chg w s0 (k t0)) : Chg w s0 (State.ringTouch s c n a k) := by
  unfold State.ringTouch
  split
  · exact hs
  · exact Chg.ite (hk _ (hs)) (State.emit_chg hw.up hs)

theorem State.ringRegWrite_chg {n : Nat} {r : Nat} {v : Word} (hw : Within [.regs, .hif] w) (hs : Chg w s0 s) : Chg w s0 (State.ringRegWrite s n r v) := by
  unfold State.ringRegWrite
  exact Chg.ite (State.ringCtrlWrite_chg hw.up hs) (Chg.ite (State.ringCfgWrite_chg hw.up hs) (hs))

theorem State.coreDoorbell_chg {n : Nat} {v : Word} {full : Bool} (hw : Within [.regs, .msix, .hif, .out] w) (hs : Chg w s0 s) : Chg w s0 (State.coreDoorbell s n v full) := by
  unfold State.coreDoorbell
  extract_lets -underBinder -merge +onlyGivenNames a1
  exact State.ringTouch_chg hw.up hs (fun x2 h3 => Chg.ite (State.setRing_chg hw.up h3) (State.dbErr_chg hw.up h3))

theorem State.anyDoorbell_chg {n : Nat} {v : Word} {full : Bool} (hw : Within [.regs, .fences, .msix, .hif, .mgs, .out] w) (hs : Chg w s0 s) : Chg w s0 (State.anyDoorbell s n v full) := by
  unfold State.anyDoorbell
  exact Chg.ite (State.doorbell_chg hw.up hs) (State.coreDoorbell_chg hw.up hs)

theorem State.anyRingCtrl_chg {m : Nat} {n : Nat} {v : Word} (hw : Within [.regs, .fences, .msix, .hif, .mgs, .out] w) (hs : Chg w s0 s) : Chg w s0 (State.anyRingCtrl s m n v) := by
  unfold State.anyRingCtrl
  exact Chg.ite (State.access_chg hw.up hs (fun x1 h2 => State.ringCtrlWrite_chg hw.up h2)) (Chg.ite (State.ringTouch_chg hw.up hs (fun x3 h4 => State.ringCtrlWrite_chg hw.up h4)) (hs))

theorem State.coreStore_chg {c : Nat} {a : Nat} {v : Word} {full : Bool} (hw : Within [.regs, .slots, .fences, .holds, .snaps, .tbl, .stage, .commitQ, .commits, .msix, .resets, .lrn, .bsn, .meters, .egr, .slu, .bud, .fre, .fgd, .had, .ept, .hif, .can, .lin, .cfl, .vlt, .auth, .twn, .tim, .pwr, .mgs, .svc, .inj, .out, .free] w) (hs : Chg w s0 s) : Chg w s0 (State.coreStore s c a v full) := by
  unfold State.coreStore
  extract_lets -underBinder -merge +onlyGivenNames s1
  have h2 : Chg w s0 s1 := State.asCore_chg hw.up hs
  split
  · exact h2
  · exact State.emit_chg hw.up h2
  · refine Chg.ite ?_ ?_
    · exact State.emit_chg hw.up h2
    · split
      · exact State.regWrite_chg hw.up h2
      · exact State.memPut_chg hw.up h2
      · exact Chg.ite (State.wdtService_chg hw.up h2) (h2)
      · split
        · exact State.ringTouch_chg hw.up h2 (fun x3 h4 => State.ringRegWrite_chg hw.up h4)
        · exact h2
      · exact h2
      · exact h2

theorem State.coreLoad_chg {c : Nat} {a : Nat} {user : Bool} {full : Bool} (hw : Within [.regs, .holds, .msix, .hif, .mgs, .svc, .out, .free] w) (hs : Chg w s0 s) : Chg w s0 (State.coreLoad s c a user full) := by
  unfold State.coreLoad
  extract_lets -underBinder -merge +onlyGivenNames s1
  have h2 : Chg w s0 s1 := State.asCore_chg hw.up hs
  split
  · exact h2
  · exact State.emit_chg hw.up h2
  · refine Chg.ite ?_ ?_
    · exact State.emit_chg hw.up h2
    · split
      · exact State.busRead_chg hw.up h2
      · exact State.emit_chg hw.up h2
      · exact State.emit_chg hw.up h2
      · split
        · exact State.ringTouch_chg hw.up h2 (fun x3 h4 => State.emit_chg hw.up h4)
        · exact State.emit_chg hw.up h2
      · split
        · rename_i y5 y6 e8
          have h7 := Chg2.of (State.draw_chg hw.up h2) e8
          exact State.emit_chg hw.up h7
      · split
        · rename_i y9 y10 e12
          have h11 := Chg2.of (State.draw_chg hw.up h2) e12
          exact State.emit_chg hw.up h11

theorem State.anyWrite_chg {m : Nat} {a : Nat} {v : Word} {full : Bool} {core : Nat} (hw : Within [.regs, .slots, .fences, .holds, .snaps, .tbl, .stage, .commitQ, .commits, .msix, .resets, .lrn, .bsn, .meters, .egr, .slu, .bud, .fre, .fgd, .had, .ept, .hif, .can, .lin, .cfl, .vlt, .auth, .twn, .tim, .pwr, .mgs, .svc, .inj, .out, .free] w) (hs : Chg w s0 s) : Chg w s0 (State.anyWrite s m a v full core) := by
  unfold State.anyWrite
  exact Chg.ite (State.coreStore_chg hw.up hs) (State.regWrite_chg hw.up hs)

theorem State.anyRead_chg {m : Nat} {a : Nat} {full : Bool} {core : Nat} {user : Bool} (hw : Within [.regs, .holds, .msix, .hif, .mgs, .svc, .out, .free] w) (hs : Chg w s0 s) : Chg w s0 (State.anyRead s m a full core user) := by
  unfold State.anyRead
  exact Chg.ite (State.coreLoad_chg hw.up hs) (State.busRead_chg hw.up hs)

theorem State.violClear_chg (hw : Within [.hif] w) (hs : Chg w s0 s) : Chg w s0 (State.violClear s) := by
  unfold State.violClear
  exact Chg.upd_hif hw.mem hs _

theorem State.readWords_chg {s : State} {m : Nat} {a : Nat} {a3 : Nat} (hw : Within [.regs, .holds, .msix, .hif, .mgs, .svc, .out] w) (hs : Chg w s0 s) : Chg2 w s0 (State.readWords s m a a3) := by
  unfold State.readWords
  split
  · exact Chg.pair hs
  · split
    · rename_i y1 y2 e4
      have h3 := Chg2.of (State.regRead_chg hw.up hs) e4
      split
      · rename_i y5 y6 e8
        have h7 := Chg2.of (State.readWords_chg hw.up h3) e8
        exact Chg.pair h7

theorem State.writeWords_chg {s : State} {m : Nat} {a : Nat} {a3 : List Word} (hw : Within [.regs, .slots, .fences, .holds, .snaps, .tbl, .stage, .commitQ, .commits, .msix, .resets, .lrn, .bsn, .meters, .egr, .slu, .bud, .fre, .fgd, .had, .ept, .hif, .can, .lin, .cfl, .vlt, .auth, .twn, .tim, .pwr, .mgs, .svc, .inj, .out, .free] w) (hs : Chg w s0 s) : Chg w s0 (State.writeWords s m a a3) := by
  unfold State.writeWords
  split
  · exact hs
  · exact State.writeWords_chg hw.up (State.regWrite_chg hw.up hs)

theorem State.qspiSet_chg {i : Nat} (hw : Within [.hif] w) (hs : Chg w s0 s) : Chg w s0 (State.qspiSet s i) := by
  unfold State.qspiSet
  exact Chg.upd_hif hw.mem hs _

theorem State.qspiErr_chg {i : Nat} (hw : Within [.regs, .msix, .hif, .out] w) (hs : Chg w s0 s) : Chg w s0 (State.qspiErr s i) := by
  unfold State.qspiErr
  exact State.raise_chg hw.up (State.evt_chg hw.up (State.qspiSet_chg hw.up hs))

theorem State.qspiNote_chg (hw : Within [.hif] w) (hs : Chg w s0 s) : Chg w s0 (State.qspiNote s) := by
  unfold State.qspiNote
  exact Chg.ite (State.qspiSet_chg hw.up hs) (hs)

theorem State.qspiWrite_chg {b : List Byte} (hw : Within [.regs, .slots, .fences, .holds, .snaps, .tbl, .stage, .commitQ, .commits, .msix, .resets, .lrn, .bsn, .meters, .egr, .slu, .bud, .fre, .fgd, .had, .ept, .hif, .can, .lin, .cfl, .vlt, .auth, .twn, .tim, .pwr, .mgs, .svc, .inj, .out, .free] w) (hs : Chg w s0 s) : Chg w s0 (State.qspiWrite s b) := by
  unfold State.qspiWrite
  extract_lets -underBinder -merge +onlyGivenNames n1
  exact Chg.ite (hs) (Chg.ite (State.qspiErr_chg hw.up hs) (Chg.ite (State.qspiErr_chg hw.up hs) (State.qspiNote_chg hw.up (State.writeWords_chg hw.up (State.violClear_chg hw.up hs)))))

theorem State.qspiRead_chg {b : List Byte} {abandoned : Bool} (hw : Within [.regs, .holds, .msix, .hif, .mgs, .svc, .out] w) (hs : Chg w s0 s) : Chg w s0 (State.qspiRead s b abandoned) := by
  unfold State.qspiRead
  extract_lets -underBinder -merge +onlyGivenNames n1
  refine Chg.ite ?_ ?_
  · exact hs
  · refine Chg.ite ?_ ?_
    · exact State.qspiSet_chg hw.up hs
    · refine Chg.ite ?_ ?_
      · exact State.qspiErr_chg hw.up hs
      · refine Chg.ite ?_ ?_
        · exact State.emit_chg hw.up (State.qspiErr_chg hw.up hs)
        · split
          · rename_i y2 y3 e5
            have h4 := Chg2.of (State.readWords_chg hw.up (State.violClear_chg hw.up hs)) e5
            extract_lets -underBinder -merge +onlyGivenNames s6 r8
            have h7 : Chg w s0 s6 := State.qspiNote_chg hw.up h4
            exact State.emit_chg hw.up h7

theorem State.qspiStatus_chg (hw : Within [.hif, .out] w) (hs : Chg w s0 s) : Chg w s0 (State.qspiStatus s) := by
  unfold State.qspiStatus
  refine Chg.ite ?_ ?_
  · exact hs
  · extract_lets -underBinder -merge +onlyGivenNames src1
    have h2 : Chg w s0 src1 := State.emit_chg hw.up hs
    exact Chg.upd_hif hw.mem h2 _

theorem State.ibmDrop_chg {replay : Bool} (hw : Within [.regs, .msix, .out] w) (hs : Chg w s0 s) : Chg w s0 (State.ibmDrop s replay) := by
  unfold State.ibmDrop
  exact Chg.ite (State.evt_chg hw.up hs) (State.raise_chg hw.up (State.evt_chg hw.up hs))

theorem State.ibmTag_chg {response : Bool} {node : Nat} {seq : Nat} {msg : List Byte} (hw : Within [.regs] w) (hs : Chg w s0 s) : Chg2 w s0 (State.ibmTag s response node seq msg) := by
  unfold State.ibmTag
  extract_lets -underBinder -merge +onlyGivenNames iv1
  split
  · rename_i y2 y3 e5
    have h4 := Chg2.of (State.vMac_chg hw.up hs) e5
    exact Chg.ite2 (Chg.pair h4) (Chg.pair h4)

theorem State.ibmAnswer_chg {typ : Nat} {smac : Nat} {vid : Nat} {seq : Nat} {addr : Nat} {status : Nat} {data : List Word} (hw : Within [.regs, .inj, .free] w) (hs : Chg w s0 s) : Chg w s0 (State.ibmAnswer s typ smac vid seq addr status data) := by
  unfold State.ibmAnswer
  extract_lets -underBinder -merge +onlyGivenNames msg1
  split
  · rename_i y2 e4
    have h3 := Chg2.of (State.ibmTag_chg hw.up hs) e4
    exact h3
  · rename_i y5 y6 e8
    have h7 := Chg2.of (State.ibmTag_chg hw.up hs) e8
    split
    · rename_i y9 y10 e12
      have h11 := Chg2.of (State.draw_chg hw.up h7) e12
      exact State.present_chg hw.up h11

theorem State.ibmCheck_chg {b : List Byte} (hw : Within [.regs, .msix, .hif, .out] w) (hs : Chg w s0 s) : Chg2 w s0 (State.ibmCheck s b) := by
  unfold State.ibmCheck
  extract_lets -underBinder -merge +onlyGivenNames n1 typ2 seq3 msg4
  refine Chg.ite2 ?_ ?_
  · exact Chg.pair (State.ibmDrop_chg hw.up hs)
  · split
    · rename_i y5 e7
      have h6 := Chg2.of (State.ibmTag_chg hw.up hs) e7
      exact Chg.pair (State.ibmDrop_chg hw.up h6)
    · rename_i y8 y9 e11
      have h10 := Chg2.of (State.ibmTag_chg hw.up hs) e11
      exact Chg.ite2 (Chg.pair (State.ibmDrop_chg hw.up h10)) (Chg.ite2 (Chg.pair (State.ibmDrop_chg hw.up h10)) (Chg.pair (Chg.upd_hif hw.mem h10 _)))

theorem State.ibmPerform_chg {smac : Nat} {vid : Nat} {b : List Byte} (hw : Within [.regs, .slots, .fences, .holds, .snaps, .tbl, .stage, .commitQ, .commits, .msix, .resets, .lrn, .bsn, .meters, .egr, .slu, .bud, .fre, .fgd, .had, .ept, .hif, .can, .lin, .cfl, .vlt, .auth, .twn, .tim, .pwr, .mgs, .svc, .inj, .out, .free] w) (hs : Chg w s0 s) : Chg w s0 (State.ibmPerform s smac vid b) := by
  unfold State.ibmPerform
  extract_lets -underBinder -merge +onlyGivenNames s1 n3 seq4 a5 m6
  have h2 : Chg w s0 s1 := State.violClear_chg hw.up (State.stat_chg hw.up hs)
  split
  · split
    · rename_i y7 y8 e10
      have h9 := Chg2.of (State.readWords_chg hw.up h2) e10
      exact State.ibmAnswer_chg hw.up h9
  · extract_lets -underBinder -merge +onlyGivenNames s11
    have h12 : Chg w s0 s11 := State.writeWords_chg hw.up h2
    exact State.ibmAnswer_chg hw.up h12
  · refine Chg.ite ?_ ?_
    · exact State.ibmAnswer_chg hw.up h2
    · extract_lets -underBinder -merge +onlyGivenNames s13
      have h14 : Chg w s0 s13 := State.regWrite_chg hw.up h2
      refine Chg.ite ?_ ?_
      · exact State.ibmAnswer_chg hw.up h14
      · extract_lets -underBinder -merge +onlyGivenNames f15
        exact Chg.upd_hif hw.mem h14 _

theorem State.ibmRx_chg {typ : Nat} {smac : Nat} {vid : Nat} {b : List Byte} (hw : Within [.regs, .slots, .fences, .holds, .snaps, .tbl, .stage, .commitQ, .commits, .msix, .resets, .lrn, .bsn, .meters, .egr, .slu, .bud, .fre, .fgd, .had, .ept, .hif, .can, .lin, .cfl, .vlt, .auth, .twn, .tim, .pwr, .mgs, .svc, .inj, .out, .free] w) (hs : Chg w s0 s) : Chg w s0 (State.ibmRx s typ smac vid b) := by
  unfold State.ibmRx
  extract_lets -underBinder -merge +onlyGivenNames t1
  refine Chg.ite ?_ ?_
  · exact hs
  · split
    · rename_i y2 e4
      have h3 := Chg2.of (State.ibmCheck_chg hw.up hs) e4
      exact h3
    · rename_i y5 y6 e8
      have h7 := Chg2.of (State.ibmCheck_chg hw.up hs) e8
      exact State.ibmPerform_chg hw.up h7

theorem State.ibmFenced_chg {m : Nat} {n : Nat} (hw : Within [.regs, .hif, .inj, .free] w) (hs : Chg w s0 s) : Chg w s0 (State.ibmFenced s m n) := by
  unfold State.ibmFenced
  extract_lets -underBinder -merge +onlyGivenNames due1 l2 src3 s4
  have h5 : Chg w s0 s4 := Chg.upd_hif hw.mem hs _
  exact Chg.foldl (fun t7 _ h6 => Chg.ite (State.ibmAnswer_chg hw.up h6) (h6)) (h5)

theorem State.unborOk_chg {vals : List Word} {recs : List (List Byte)} (hw : Within [.out] w) (hs : Chg w s0 s) : Chg w s0 (State.unborOk s vals recs) := by
  unfold State.unborOk
  exact State.emit_chg hw.up hs

theorem State.unborErr_chg (hw : Within [.out, .free] w) (hs : Chg w s0 s) : Chg w s0 (State.unborErr s) := by
  unfold State.unborErr
  split
  · rename_i y1 y2 e4
    have h3 := Chg2.of (State.draw_chg hw.up hs) e4
    exact State.emit_chg hw.up h3

theorem State.unborAt_chg {level : Nat} {k : State → State} (hw : Within [.out, .free] w) (hs : Chg w s0 s) (hk : ∀ t0, Chg w s0 t0 → Chg w s0 (k t0)) : Chg w s0 (State.unborAt s level k) := by
  unfold State.unborAt
  exact Chg.ite (hs) (Chg.ite (State.unborErr_chg hw.up hs) (hk _ (hs)))

theorem State.unborHelp_chg (hw : Within [.out] w) (hs : Chg w s0 s) : Chg w s0 (State.unborHelp s) := by
  unfold State.unborHelp
  exact Chg.ite (State.unborOk_chg hw.up hs) (hs)

theorem State.unborInfo_chg (hw : Within [.out] w) (hs : Chg w s0 s) : Chg w s0 (State.unborInfo s) := by
  unfold State.unborInfo
  exact Chg.ite (State.unborOk_chg hw.up hs) (hs)

theorem State.unborUnlock_chg {env : List Byte} (hw : Within [.regs, .msix, .vlt, .auth, .mgs, .out, .free] w) (hs : Chg w s0 s) : Chg w s0 (State.unborUnlock s env) := by
  unfold State.unborUnlock
  exact Chg.ite (hs) (Chg.ite (Chg.ite (State.unborOk_chg hw.up (State.unborGrant_chg hw.up hs)) (State.unborErr_chg hw.up hs)) (Chg.ite (State.unborErr_chg hw.up hs) (Chg.ite (State.vltRequest_chg hw.up hs) (State.emit_chg hw.up hs))))

theorem State.unborUnlocked_chg {env : List Byte} {aborted : Bool} (hw : Within [.regs, .msix, .had, .vlt, .auth, .twn, .mgs, .inj, .out] w) (hs : Chg w s0 s) : Chg w s0 (State.unborUnlocked s env aborted) := by
  unfold State.unborUnlocked
  split
  · rename_i y1 y2 e4
    have h3 := Chg2.of (State.authorise_chg hw.up hs) e4
    exact Chg.ite (State.unborOk_chg hw.up h3) (State.emit_chg hw.up h3)

theorem State.unborCount_chg {n : Option Nat} (hw : Within [.free] w) (hs : Chg w s0 s) : Chg2 w s0 (State.unborCount s n) := by
  unfold State.unborCount
  split
  · exact Chg.pair hs
  · split
    · rename_i y1 y2 e4
      have h3 := Chg2.of (State.draw_chg hw.up hs) e4
      exact Chg.pair h3

theorem State.unborRd_chg {a : Nat} {n : Option Nat} (hw : Within [.regs, .holds, .msix, .hif, .mgs, .svc, .out, .free] w) (hs : Chg w s0 s) : Chg w s0 (State.unborRd s a n) := by
  unfold State.unborRd
  refine State.unborAt_chg hw.up (hs) (fun x5 h6 => ?_)
  · split
    · rename_i y7 y8 e10
      have h9 := Chg2.of (State.unborCount_chg hw.up h6) e10
      refine Chg.ite ?_ ?_
      · exact State.unborErr_chg hw.up h9
      · split
        · rename_i y11 y12 e14
          have h13 := Chg2.of (State.readWords_chg hw.up h9) e14
          exact State.unborOk_chg hw.up h13

theorem State.unborWr_chg {a : Nat} {v : Word} (hw : Within [.regs, .slots, .fences, .holds, .snaps, .tbl, .stage, .commitQ, .commits, .msix, .resets, .lrn, .bsn, .meters, .egr, .slu, .bud, .fre, .fgd, .had, .ept, .hif, .can, .lin, .cfl, .vlt, .auth, .twn, .tim, .pwr, .mgs, .svc, .inj, .out, .free] w) (hs : Chg w s0 s) : Chg w s0 (State.unborWr s a v) := by
  unfold State.unborWr
  refine State.unborAt_chg hw.up (hs) (fun x5 h6 => ?_)
  · extract_lets -underBinder -merge +onlyGivenNames s7
    have h8 : Chg w s0 s7 := State.regWrite_chg hw.up (State.violClear_chg hw.up h6)
    exact Chg.ite (State.unborErr_chg hw.up h8) (State.unborOk_chg hw.up h8)

theorem State.unborLog_chg {n : Option Nat} (hw : Within [.out, .free] w) (hs : Chg w s0 s) : Chg w s0 (State.unborLog s n) := by
  unfold State.unborLog
  refine State.unborAt_chg hw.up (hs) (fun x5 h6 => ?_)
  · split
    · rename_i y7 y8 e10
      have h9 := Chg2.of (State.unborCount_chg hw.up h6) e10
      extract_lets -underBinder -merge +onlyGivenNames all11 newer12
      exact State.unborOk_chg hw.up h9

theorem State.unborSens_chg (hw : Within [.out, .free] w) (hs : Chg w s0 s) : Chg w s0 (State.unborSens s) := by
  unfold State.unborSens
  exact State.unborAt_chg hw.up hs (fun x1 h2 => State.unborOk_chg hw.up h2)

theorem State.unborLockCmd_chg (hw : Within [.regs, .mgs, .out, .free] w) (hs : Chg w s0 s) : Chg w s0 (State.unborLockCmd s) := by
  unfold State.unborLockCmd
  exact State.unborAt_chg hw.up hs (fun x1 h2 => State.unborOk_chg hw.up (State.unborLock_chg hw.up h2))

theorem State.unborFence_chg (hw : Within [.regs, .slots, .fences, .holds, .snaps, .tbl, .stage, .commitQ, .commits, .msix, .resets, .lrn, .bsn, .meters, .egr, .slu, .bud, .fre, .fgd, .had, .ept, .hif, .can, .lin, .cfl, .vlt, .auth, .twn, .tim, .pwr, .mgs, .svc, .inj, .out, .free] w) (hs : Chg w s0 s) : Chg w s0 (State.unborFence s) := by
  unfold State.unborFence
  refine State.unborAt_chg hw.up (hs) (fun x5 h6 => ?_)
  · extract_lets -underBinder -merge +onlyGivenNames s7
    have h8 : Chg w s0 s7 := State.regWrite_chg hw.up (State.violClear_chg hw.up h6)
    exact Chg.ite (State.unborErr_chg hw.up h8) (State.setMgs_chg hw.up h8 ⟨Nat.le_refl _, Nat.le_refl _, Nat.le_refl _, Nat.le_refl _⟩)

theorem State.unborExpire_chg (hw : Within [.regs, .mgs] w) (hs : Chg w s0 s) : Chg w s0 (State.unborExpire s) := by
  unfold State.unborExpire
  exact State.unborLock_chg hw.up hs

theorem State.unborFenced_chg {m : Nat} {n : Nat} (hw : Within [.mgs, .out] w) (hs : Chg w s0 s) : Chg w s0 (State.unborFenced s m n) := by
  unfold State.unborFenced
  exact Chg.ite (State.unborOk_chg hw.up (State.setMgs_chg hw.up hs ⟨Nat.le_refl _, Nat.le_refl _, Nat.le_refl _, Nat.le_refl _⟩)) (hs)

theorem State.fenceRetired_chg {m : Nat} (hw : Within [.regs, .fences, .msix, .hif, .mgs, .inj, .out, .free] w) (hs : Chg w s0 s) : Chg w s0 (State.fenceRetired s m) := by
  unfold State.fenceRetired
  split
  · exact hs
  · exact Chg.ite (hs) (State.unborFenced_chg hw.up (State.ibmFenced_chg hw.up (State.fenceRetire_chg hw.up hs)))

theorem State.hdrAccess_chg {m : Nat} {a : Nat} {k : State → State} (hw : Within [.regs, .fences, .msix, .hif, .mgs, .out] w) (hs : Chg w s0 s) (hk : ∀ t0, Chg w s0 t0 → Chg w s0 (k t0)) : Chg w s0 (State.hdrAccess s m a k) := by
  unfold State.hdrAccess
  exact Chg.ite (hs) (State.access_chg hw.up hs hk)

theorem State.tapWrite_chg {m : Nat} {op : Nat} {t : Nat} (hw : Within [.regs, .slots, .fences, .stage, .commitQ, .msix, .hif, .mgs, .out] w) (hs : Chg w s0 s) : Chg w s0 (State.tapWrite s m op t) := by
  unfold State.tapWrite
  exact State.access_chg hw.up hs (fun x1 h2 => State.tapCmd_chg hw.up h2)

theorem State.vltAuthRow_chg {m : Nat} {p : Nat → Bool} (hw : Within [.regs, .slots, .fences, .msix, .hif, .vlt, .auth, .mgs, .out] w) (hs : Chg w s0 s) : Chg w s0 (State.vltAuthRow s m p) := by
  unfold State.vltAuthRow
  exact Chg.ite (State.vltCmdWrite_chg hw.up hs) (hs)

theorem State.vltComplete_chg {o : VltOp} (hw : Within [.regs, .slots, .msix, .vlt, .auth, .mgs, .svc, .out] w) (hs : Chg w s0 s) : Chg w s0 (State.vltComplete s o) := by
  unfold State.vltComplete
  split
  · rename_i y1 y2 e4
    have h3 := Chg2.of (w := w) (s0 := s0) (h := by
      split
      · exact Chg.pair hs
      · exact State.vltRun_chg hw.up hs
      ) e4
    exact State.complete_chg hw.up h3

theorem State.vaultOpDone_chg (hw : Within [.regs, .slots, .msix, .had, .vlt, .auth, .twn, .mgs, .svc, .inj, .out] w) (hs : Chg w s0 s) : Chg w s0 (State.vaultOpDone s) := by
  unfold State.vaultOpDone
  split
  · exact hs
  · refine Chg.ite ?_ ?_
    · exact hs
    · extract_lets -underBinder -merge +onlyGivenNames src1 s2 s4
      have h3 : Chg w s0 s2 := Chg.upd_vlt hw.mem hs ⟨Nat.le_refl _, fun _ => Nat.le_refl _⟩
      have h5 : Chg w s0 s4 := by
        unfold s4
        refine Chg.ite ?_ ?_
        · split
          · rename_i y6 y7 e9
            have h8 := Chg2.of (State.authorise_chg hw.up h3) e9
            exact State.complete_chg hw.up h8
        · exact Chg.ite (State.unborUnlocked_chg hw.up h3) (State.vltComplete_chg hw.up h3)
      exact State.vltStart_chg hw.up (State.liveRefresh_chg hw.up h5)

theorem State.graceExpire_chg {i : Nat} (hw : Within [.regs, .msix, .vlt, .auth, .mgs, .out] w) (hs : Chg w s0 s) : Chg w s0 (State.graceExpire s i) := by
  unfold State.graceExpire
  refine Chg.ite ?_ ?_
  · extract_lets -underBinder -merge +onlyGivenNames s1 k3
    have h2 : Chg w s0 s1 := State.orphanOf_chg hw.up hs
    exact State.liveRefresh_chg hw.up (State.purgeSnap_chg hw.up (State.setKslot_chg hw.up h2 (Nat.le_refl _)))
  · exact hs

theorem State.sensorLatch_chg {mesh : Bool} (hw : Within [.vlt] w) (hs : Chg w s0 s) : Chg w s0 (State.sensorLatch s mesh) := by
  unfold State.sensorLatch
  exact Chg.upd_vlt hw.mem hs ⟨Nat.le_refl _, fun _ => Nat.le_refl _⟩

end Sys2Proof.Machine
end

