-- ==== Sys2Proof/Laws/ChgCmd.lean ====
section
/-! SUPPORT. What the operations of every command can change: one lemma each. -/

set_option Elab.async false

namespace Sys2Proof.Machine

variable {w : List Area} {s0 s : State}

theorem execSyncRx_chg {p : Nat} {number : Nat} {twoStep : Bool} {seq : Nat} {origin : Nat} {corr : Int} {ingress : Nat} {tlv : List Byte} (hw : Within [.regs, .tbl, .msix, .lrn, .bsn, .meters, .egr, .fre, .fgd, .had, .cfl, .vlt, .auth, .twn, .tim, .mgs, .inj, .out, .free] w) (hs : Chg w s0 s) : ∀ u, execSyncRx p number twoStep seq origin corr ingress s tlv = .next u → Chg w s0 u := by
  unfold execSyncRx
  intro u ht
  rw [← Host.Outcome.next.inj ht]
  exact State.settle_chg hw.up (State.syncRx_chg hw.up hs)

theorem execFollowUpRx_chg {p : Nat} {number : Nat} {seq : Nat} {origin : Nat} {corr : Int} {tlv : List Byte} (hw : Within [.regs, .tbl, .msix, .lrn, .bsn, .meters, .egr, .fre, .fgd, .had, .cfl, .vlt, .auth, .twn, .tim, .mgs, .inj, .out, .free] w) (hs : Chg w s0 s) : ∀ u, execFollowUpRx p number seq origin corr s tlv = .next u → Chg w s0 u := by
  unfold execFollowUpRx
  intro u ht
  rw [← Host.Outcome.next.inj ht]
  exact State.settle_chg hw.up (State.followUpRx_chg hw.up hs)

theorem execFollowUpTimeout_chg {d : Nat} (hw : Within [.regs, .tim] w) (hs : Chg w s0 s) : ∀ u, execFollowUpTimeout d s = .next u → Chg w s0 u := by
  unfold execFollowUpTimeout
  intro u ht
  rw [← Host.Outcome.next.inj ht]
  split
  · exact State.syncDrop_chg hw.up (State.setDom_chg hw.up hs)
  · exact hs

theorem execSyncTimeout_chg {d : Nat} (hw : Within [.regs, .msix, .tim, .out] w) (hs : Chg w s0 s) : ∀ u, execSyncTimeout d s = .next u → Chg w s0 u := by
  unfold execSyncTimeout
  intro u ht
  rw [← Host.Outcome.next.inj ht]
  extract_lets -underBinder -merge +onlyGivenNames goTo1
  have h2 : ∀ z3 z5, Chg w s0 z3 → Chg w s0 (goTo1 z3 z5) := by
    intro z3 z5 h4
    unfold goTo1
    exact State.domEnter_chg hw.up (State.raise_chg hw.up (State.evt_chg hw.up h4))
  refine Chg.ite ?_ ?_
  · exact hs
  · split
    · exact h2 _ _ (hs)
    · exact h2 _ _ (hs)
    · exact hs

theorem execGmSyncTimer_chg {d : Nat} (hw : Within [.regs, .tbl, .msix, .lrn, .bsn, .meters, .egr, .fre, .fgd, .had, .cfl, .vlt, .auth, .twn, .tim, .mgs, .inj, .out, .free] w) (hs : Chg w s0 s) : ∀ u, execGmSyncTimer d s = .next u → Chg w s0 u := by
  unfold execGmSyncTimer
  intro u ht
  rw [← Host.Outcome.next.inj ht]
  refine State.settle_chg hw.up ?_
  · extract_lets -underBinder -merge +onlyGivenNames st1
    exact Chg.ite (State.syncOut_chg hw.up hs) (hs)

theorem execPdelayTimer_chg {p : Nat} (hw : Within [.regs, .tbl, .msix, .lrn, .bsn, .meters, .egr, .fre, .fgd, .had, .cfl, .vlt, .auth, .twn, .tim, .mgs, .inj, .out, .free] w) (hs : Chg w s0 s) : ∀ u, execPdelayTimer p s = .next u → Chg w s0 u := by
  unfold execPdelayTimer
  intro u ht
  rw [← Host.Outcome.next.inj ht]
  refine State.settle_chg hw.up ?_
  · refine Chg.ite ?_ ?_
    · extract_lets -underBinder -merge +onlyGivenNames s1 P3 s4
      have h2 : Chg w s0 s1 := Chg.ite (State.pdelayBad_chg hw.up hs) (hs)
      have h5 : Chg w s0 s4 := State.setPd_chg hw.up h2
      exact State.ptpSend_chg hw.up h5
    · exact hs

theorem execPdelayReqRx_chg {p : Nat} {seq : Nat} {t2 : Nat} {requester : List Byte} (hw : Within [.regs, .tbl, .msix, .lrn, .bsn, .meters, .egr, .fre, .fgd, .had, .cfl, .vlt, .auth, .twn, .tim, .mgs, .inj, .out, .free] w) (hs : Chg w s0 s) : ∀ u, execPdelayReqRx p seq t2 requester s = .next u → Chg w s0 u := by
  unfold execPdelayReqRx
  intro u ht
  rw [← Host.Outcome.next.inj ht]
  exact State.settle_chg hw.up (State.pdelayReqRx_chg hw.up hs)

theorem execPdelayRespRx_chg {p : Nat} {seq : Nat} {t1 : Nat} {t2 : Nat} {t3 : Nat} {t4 : Nat} (hw : Within [.regs, .msix, .tim, .out] w) (hs : Chg w s0 s) : ∀ u, execPdelayRespRx p seq t1 t2 t3 t4 s = .next u → Chg w s0 u := by
  unfold execPdelayRespRx
  intro u ht
  rw [← Host.Outcome.next.inj ht]
  exact State.pdelayRespRx_chg hw.up hs

theorem execGptpOtherRx_chg {number : Nat} (hw : Within [.regs] w) (hs : Chg w s0 s) : ∀ u, execGptpOtherRx number s = .next u → Chg w s0 u := by
  unfold execGptpOtherRx
  intro u ht
  rw [← Host.Outcome.next.inj ht]
  exact State.gptpOther_chg hw.up hs

theorem execDomStep_chg {m : Nat} {d : Nat} (hw : Within [.regs, .fences, .msix, .hif, .tim, .mgs, .out] w) (hs : Chg w s0 s) : ∀ u, execDomStep m d s = .next u → Chg w s0 u := by
  unfold execDomStep
  intro u ht
  rw [← Host.Outcome.next.inj ht]
  exact State.access_chg hw.up hs (fun x1 h2 => State.domCmdWrite_chg hw.up h2)

theorem execDomSlew_chg {m : Nat} {d : Nat} (hw : Within [.regs, .fences, .msix, .hif, .tim, .mgs, .out] w) (hs : Chg w s0 s) : ∀ u, execDomSlew m d s = .next u → Chg w s0 u := by
  unfold execDomSlew
  intro u ht
  rw [← Host.Outcome.next.inj ht]
  exact State.access_chg hw.up hs (fun x1 h2 => State.domCmdWrite_chg hw.up h2)

theorem execDomSetRate_chg {m : Nat} {d : Nat} (hw : Within [.regs, .fences, .msix, .hif, .tim, .mgs, .out] w) (hs : Chg w s0 s) : ∀ u, execDomSetRate m d s = .next u → Chg w s0 u := by
  unfold execDomSetRate
  intro u ht
  rw [← Host.Outcome.next.inj ht]
  exact State.access_chg hw.up hs (fun x1 h2 => State.domCmdWrite_chg hw.up h2)

theorem execDomUnlock_chg {m : Nat} {d : Nat} (hw : Within [.regs, .fences, .msix, .hif, .tim, .mgs, .out] w) (hs : Chg w s0 s) : ∀ u, execDomUnlock m d s = .next u → Chg w s0 u := by
  unfold execDomUnlock
  intro u ht
  rw [← Host.Outcome.next.inj ht]
  exact State.access_chg hw.up hs (fun x1 h2 => State.domCmdWrite_chg hw.up h2)

theorem execSlewDone_chg {d : Nat} (hw : Within [.regs, .msix, .tim, .out] w) (hs : Chg w s0 s) : ∀ u, execSlewDone d s = .next u → Chg w s0 u := by
  unfold execSlewDone
  intro u ht
  rw [← Host.Outcome.next.inj ht]
  exact State.slewSettle_chg hw.up hs

theorem execDomEnable_chg {m : Nat} {d : Nat} {v : Word} (hw : Within [.regs, .fences, .msix, .hif, .tim, .mgs, .out] w) (hs : Chg w s0 s) : ∀ u, execDomEnable m d v s = .next u → Chg w s0 u := by
  unfold execDomEnable
  intro u ht
  rw [← Host.Outcome.next.inj ht]
  exact State.access_chg hw.up hs (fun x1 h2 => State.domCfgWrite_chg hw.up h2)

theorem execDomRateMaxWrite_chg {m : Nat} {d : Nat} {v : Word} (hw : Within [.regs, .fences, .msix, .hif, .tim, .mgs, .out] w) (hs : Chg w s0 s) : ∀ u, execDomRateMaxWrite m d v s = .next u → Chg w s0 u := by
  unfold execDomRateMaxWrite
  intro u ht
  rw [← Host.Outcome.next.inj ht]
  exact State.access_chg hw.up hs (fun x1 h2 => State.domRateMaxWrite_chg hw.up h2)

theorem execTimFrcIncWrite_chg {m : Nat} {v : Word} (hw : Within [.regs, .fences, .msix, .hif, .mgs, .out] w) (hs : Chg w s0 s) : ∀ u, execTimFrcIncWrite m v s = .next u → Chg w s0 u := by
  unfold execTimFrcIncWrite
  intro u ht
  rw [← Host.Outcome.next.inj ht]
  exact State.access_chg hw.up hs (fun x1 h2 => State.frcIncWrite_chg hw.up h2)

theorem execSrvOffset_chg {m : Nat} {v : Word} (hw : Within [.regs, .fences, .msix, .hif, .tim, .mgs, .out] w) (hs : Chg w s0 s) : ∀ u, execSrvOffset m v s = .next u → Chg w s0 u := by
  unfold execSrvOffset
  intro u ht
  rw [← Host.Outcome.next.inj ht]
  exact State.access_chg hw.up hs (fun x1 h2 => State.srvOffsetWrite_chg hw.up h2)

theorem execHfrcMeasure_chg {cycles : Nat} {lf : Word} (hw : Within [.regs, .msix, .mgs, .out] w) (hs : Chg w s0 s) : ∀ u, execHfrcMeasure cycles lf s = .next u → Chg w s0 u := by
  unfold execHfrcMeasure
  intro u ht
  rw [← Host.Outcome.next.inj ht]
  extract_lets -underBinder -merge +onlyGivenNames ppb1 s2
  have h3 : Chg w s0 s2 := State.wr_chg hw.up (State.wr_chg hw.up hs)
  exact Chg.ite (State.trimMove_chg hw.up h3) (h3)

theorem execWriteMaskWrite_chg {m : Nat} {v : Word} (hw : Within [.regs, .fences, .msix, .hif, .mgs, .out] w) (hs : Chg w s0 s) : ∀ u, execWriteMaskWrite m v s = .next u → Chg w s0 u := by
  unfold execWriteMaskWrite
  intro u ht
  rw [← Host.Outcome.next.inj ht]
  exact State.access_chg hw.up hs (fun x1 h2 => State.maskWrite_chg hw.up h2)

theorem execFenceReq_chg {m : Nat} (hw : Within [.regs, .fences, .msix, .hif, .mgs, .out] w) (hs : Chg w s0 s) : ∀ u, execFenceReq m s = .next u → Chg w s0 u := by
  unfold execFenceReq
  intro u ht
  rw [← Host.Outcome.next.inj ht]
  exact State.access_chg hw.up hs (fun x1 h2 => State.fenceReq_chg hw.up h2)

theorem execIntRawClear_chg {m : Nat} {pg : Nat} {v : Word} (hw : Within [.regs, .fences, .msix, .bsn, .hif, .mgs, .out] w) (hs : Chg w s0 s) : ∀ u, execIntRawClear m pg v s = .next u → Chg w s0 u := by
  unfold execIntRawClear
  intro u ht
  rw [← Host.Outcome.next.inj ht]
  exact State.hdrAccess_chg hw.up hs (fun x1 h2 => State.intClear_chg hw.up h2)

theorem execIntForce_chg {m : Nat} {pg : Nat} {v : Word} (hw : Within [.regs, .fences, .msix, .hif, .mgs, .out] w) (hs : Chg w s0 s) : ∀ u, execIntForce m pg v s = .next u → Chg w s0 u := by
  unfold execIntForce
  intro u ht
  rw [← Host.Outcome.next.inj ht]
  exact State.hdrAccess_chg hw.up hs (fun x1 h2 => State.intForce_chg hw.up h2)

theorem execBlkLock_chg {m : Nat} {pg : Nat} (hw : Within [.regs, .fences, .msix, .hif, .mgs, .out] w) (hs : Chg w s0 s) : ∀ u, execBlkLock m pg s = .next u → Chg w s0 u := by
  unfold execBlkLock
  intro u ht
  rw [← Host.Outcome.next.inj ht]
  exact State.hdrAccess_chg hw.up hs (fun x1 h2 => State.blkLock_chg hw.up h2)

theorem execErrCapRearm_chg {m : Nat} {pg : Nat} (hw : Within [.regs, .fences, .msix, .hif, .mgs, .out] w) (hs : Chg w s0 s) : ∀ u, execErrCapRearm m pg s = .next u → Chg w s0 u := by
  unfold execErrCapRearm
  intro u ht
  rw [← Host.Outcome.next.inj ht]
  exact State.hdrAccess_chg hw.up hs (fun x1 h2 => State.errRearm_chg hw.up h2)

theorem execCntSnap_chg {m : Nat} {pg : Nat} (hw : Within [.regs, .slots, .fences, .snaps, .msix, .hif, .mgs, .out] w) (hs : Chg w s0 s) : ∀ u, execCntSnap m pg s = .next u → Chg w s0 u := by
  unfold execCntSnap
  intro u ht
  rw [← Host.Outcome.next.inj ht]
  exact State.hdrAccess_chg hw.up hs (fun x1 h2 => State.cntSnap_chg hw.up h2)

theorem execCntSnapAll_chg {m : Nat} (hw : Within [.regs, .slots, .fences, .snaps, .msix, .hif, .mgs, .out] w) (hs : Chg w s0 s) : ∀ u, execCntSnapAll m s = .next u → Chg w s0 u := by
  unfold execCntSnapAll
  intro u ht
  rw [← Host.Outcome.next.inj ht]
  exact State.access_chg hw.up hs (fun x1 h2 => State.cntSnap_chg hw.up h2)

theorem execSnapDone_chg {pg : Nat} (hw : Within [.regs, .slots, .msix, .svc, .out] w) (hs : Chg w s0 s) : ∀ u, execSnapDone pg s = .next u → Chg w s0 u := by
  unfold execSnapDone
  intro u ht
  rw [← Host.Outcome.next.inj ht]
  exact State.snapDone_chg hw.up hs

theorem execCntSnapAck_chg {m : Nat} {pg : Nat} {seq : Nat} (hw : Within [.regs, .slots, .fences, .snaps, .msix, .hif, .mgs, .out] w) (hs : Chg w s0 s) : ∀ u, execCntSnapAck m pg seq s = .next u → Chg w s0 u := by
  unfold execCntSnapAck
  intro u ht
  rw [← Host.Outcome.next.inj ht]
  exact State.hdrAccess_chg hw.up hs (fun x1 h2 => State.snapAck_chg hw.up h2)

theorem execCounterClr_chg {m : Nat} {a : Nat} (hw : Within [.regs, .fences, .msix, .hif, .mgs, .out] w) (hs : Chg w s0 s) : ∀ u, execCounterClr m a s = .next u → Chg w s0 u := by
  unfold execCounterClr
  intro u ht
  rw [← Host.Outcome.next.inj ht]
  exact State.access_chg hw.up hs (fun x1 h2 => State.counterClr_chg hw.up h2)

theorem execResAck_chg {m : Nat} {a : Nat} {seq : Nat} (hw : Within [.regs, .slots, .fences, .msix, .hif, .mgs, .out] w) (hs : Chg w s0 s) : ∀ u, execResAck m a seq s = .next u → Chg w s0 u := by
  unfold execResAck
  intro u ht
  rw [← Host.Outcome.next.inj ht]
  refine State.access_chg hw.up (hs) (fun x5 h6 => ?_)
  · split
    · exact State.resAck_chg hw.up h6 (fun x7 h8 => h8)
    · exact h6

theorem execTapRead_chg {m : Nat} {t : Nat} (hw : Within [.regs, .slots, .fences, .stage, .commitQ, .msix, .hif, .mgs, .out] w) (hs : Chg w s0 s) : ∀ u, execTapRead m t s = .next u → Chg w s0 u := by
  unfold execTapRead
  intro u ht
  rw [← Host.Outcome.next.inj ht]
  exact State.tapWrite_chg hw.up hs

theorem execTapWrite_chg {m : Nat} {t : Nat} (hw : Within [.regs, .slots, .fences, .stage, .commitQ, .msix, .hif, .mgs, .out] w) (hs : Chg w s0 s) : ∀ u, execTapWrite m t s = .next u → Chg w s0 u := by
  unfold execTapWrite
  intro u ht
  rw [← Host.Outcome.next.inj ht]
  exact State.tapWrite_chg hw.up hs

theorem execTapLookup_chg {m : Nat} {t : Nat} (hw : Within [.regs, .slots, .fences, .stage, .commitQ, .msix, .hif, .mgs, .out] w) (hs : Chg w s0 s) : ∀ u, execTapLookup m t s = .next u → Chg w s0 u := by
  unfold execTapLookup
  intro u ht
  rw [← Host.Outcome.next.inj ht]
  exact State.tapWrite_chg hw.up hs

theorem execTapInsert_chg {m : Nat} {t : Nat} (hw : Within [.regs, .slots, .fences, .stage, .commitQ, .msix, .hif, .mgs, .out] w) (hs : Chg w s0 s) : ∀ u, execTapInsert m t s = .next u → Chg w s0 u := by
  unfold execTapInsert
  intro u ht
  rw [← Host.Outcome.next.inj ht]
  exact State.tapWrite_chg hw.up hs

theorem execTapDelete_chg {m : Nat} {t : Nat} (hw : Within [.regs, .slots, .fences, .stage, .commitQ, .msix, .hif, .mgs, .out] w) (hs : Chg w s0 s) : ∀ u, execTapDelete m t s = .next u → Chg w s0 u := by
  unfold execTapDelete
  intro u ht
  rw [← Host.Outcome.next.inj ht]
  exact State.tapWrite_chg hw.up hs

theorem execTapCommit_chg {m : Nat} (hw : Within [.regs, .slots, .fences, .stage, .commitQ, .msix, .hif, .mgs, .out] w) (hs : Chg w s0 s) : ∀ u, execTapCommit m s = .next u → Chg w s0 u := by
  unfold execTapCommit
  intro u ht
  rw [← Host.Outcome.next.inj ht]
  exact State.tapWrite_chg hw.up hs

theorem execTapDiscard_chg {m : Nat} (hw : Within [.regs, .slots, .fences, .stage, .commitQ, .msix, .hif, .mgs, .out] w) (hs : Chg w s0 s) : ∀ u, execTapDiscard m s = .next u → Chg w s0 u := by
  unfold execTapDiscard
  intro u ht
  rw [← Host.Outcome.next.inj ht]
  exact State.tapWrite_chg hw.up hs

theorem execTapCommitDone_chg (hw : Within [.regs, .slots, .fences, .tbl, .stage, .commitQ, .commits, .lrn, .bsn, .cfl, .mgs, .svc] w) (hs : Chg w s0 s) : ∀ u, execTapCommitDone s = .next u → Chg w s0 u := by
  unfold execTapCommitDone
  intro u ht
  rw [← Host.Outcome.next.inj ht]
  exact State.tapCommitFinish_chg hw.up hs

theorem execTapOpDone_chg {m : Nat} (hw : Within [.slots, .svc] w) (hs : Chg w s0 s) : ∀ u, execTapOpDone m s = .next u → Chg w s0 u := by
  unfold execTapOpDone
  intro u ht
  rw [← Host.Outcome.next.inj ht]
  exact State.publish_chg hw.up hs

theorem execSeedWrite_chg {m : Nat} {a : Nat} {v : Word} (hw : Within [.regs, .fences, .msix, .hif, .mgs, .out] w) (hs : Chg w s0 s) : ∀ u, execSeedWrite m a v s = .next u → Chg w s0 u := by
  unfold execSeedWrite
  intro u ht
  rw [← Host.Outcome.next.inj ht]
  exact State.access_chg hw.up hs (fun x1 h2 => Chg.ite (State.seedWrite_chg hw.up h2) (h2))

theorem execFenceRetired_chg {m : Nat} (hw : Within [.regs, .fences, .tbl, .msix, .lrn, .bsn, .meters, .egr, .fre, .fgd, .had, .hif, .cfl, .vlt, .auth, .twn, .tim, .mgs, .inj, .out, .free] w) (hs : Chg w s0 s) : ∀ u, execFenceRetired m s = .next u → Chg w s0 u := by
  unfold execFenceRetired
  intro u ht
  rw [← Host.Outcome.next.inj ht]
  exact State.settle_chg hw.up (State.fenceRetired_chg hw.up hs)

theorem execMultiwordLowRead_chg {m : Nat} {a : Nat} {full : Bool} {core : Nat} {user : Bool} (hw : Within [.regs, .holds, .msix, .hif, .mgs, .svc, .out, .free] w) (hs : Chg w s0 s) : ∀ u, execMultiwordLowRead m a full core s user = .next u → Chg w s0 u := by
  unfold execMultiwordLowRead
  intro u ht
  rw [← Host.Outcome.next.inj ht]
  exact State.anyRead_chg hw.up hs

theorem execQspiWrite_chg {b : List Byte} (hw : Within [.regs, .slots, .fences, .holds, .snaps, .tbl, .stage, .commitQ, .commits, .msix, .resets, .lrn, .bsn, .meters, .egr, .slu, .bud, .fre, .fgd, .had, .ept, .hif, .can, .lin, .cfl, .vlt, .auth, .twn, .tim, .pwr, .mgs, .svc, .inj, .out, .free] w) (hs : Chg w s0 s) : ∀ u, execQspiWrite b s = .next u → Chg w s0 u := by
  unfold execQspiWrite
  intro u ht
  rw [← Host.Outcome.next.inj ht]
  exact State.settle_chg hw.up (State.qspiWrite_chg hw.up hs)

theorem execQspiRead_chg {b : List Byte} {abandoned : Bool} (hw : Within [.regs, .holds, .msix, .hif, .mgs, .svc, .out] w) (hs : Chg w s0 s) : ∀ u, execQspiRead b abandoned s = .next u → Chg w s0 u := by
  unfold execQspiRead
  intro u ht
  rw [← Host.Outcome.next.inj ht]
  exact State.qspiRead_chg hw.up hs

theorem execQspiStatus_chg (hw : Within [.hif, .out] w) (hs : Chg w s0 s) : ∀ u, execQspiStatus s = .next u → Chg w s0 u := by
  unfold execQspiStatus
  intro u ht
  rw [← Host.Outcome.next.inj ht]
  exact State.qspiStatus_chg hw.up hs

theorem execIbmRead_chg {smac : Nat} {vid : Nat} {b : List Byte} (hw : Within [.regs, .slots, .fences, .holds, .snaps, .tbl, .stage, .commitQ, .commits, .msix, .resets, .lrn, .bsn, .meters, .egr, .slu, .bud, .fre, .fgd, .had, .ept, .hif, .can, .lin, .cfl, .vlt, .auth, .twn, .tim, .pwr, .mgs, .svc, .inj, .out, .free] w) (hs : Chg w s0 s) : ∀ u, execIbmRead smac vid b s = .next u → Chg w s0 u := by
  unfold execIbmRead
  intro u ht
  rw [← Host.Outcome.next.inj ht]
  exact State.settle_chg hw.up (State.ibmRx_chg hw.up hs)

theorem execIbmWrite_chg {smac : Nat} {vid : Nat} {b : List Byte} (hw : Within [.regs, .slots, .fences, .holds, .snaps, .tbl, .stage, .commitQ, .commits, .msix, .resets, .lrn, .bsn, .meters, .egr, .slu, .bud, .fre, .fgd, .had, .ept, .hif, .can, .lin, .cfl, .vlt, .auth, .twn, .tim, .pwr, .mgs, .svc, .inj, .out, .free] w) (hs : Chg w s0 s) : ∀ u, execIbmWrite smac vid b s = .next u → Chg w s0 u := by
  unfold execIbmWrite
  intro u ht
  rw [← Host.Outcome.next.inj ht]
  exact State.settle_chg hw.up (State.ibmRx_chg hw.up hs)

theorem execIbmFence_chg {smac : Nat} {vid : Nat} {b : List Byte} (hw : Within [.regs, .slots, .fences, .holds, .snaps, .tbl, .stage, .commitQ, .commits, .msix, .resets, .lrn, .bsn, .meters, .egr, .slu, .bud, .fre, .fgd, .had, .ept, .hif, .can, .lin, .cfl, .vlt, .auth, .twn, .tim, .pwr, .mgs, .svc, .inj, .out, .free] w) (hs : Chg w s0 s) : ∀ u, execIbmFence smac vid b s = .next u → Chg w s0 u := by
  unfold execIbmFence
  intro u ht
  rw [← Host.Outcome.next.inj ht]
  exact State.settle_chg hw.up (State.ibmRx_chg hw.up hs)

theorem execUnborHelp_chg (hw : Within [.out] w) (hs : Chg w s0 s) : ∀ u, execUnborHelp s = .next u → Chg w s0 u := by
  unfold execUnborHelp
  intro u ht
  rw [← Host.Outcome.next.inj ht]
  exact State.unborHelp_chg hw.up hs

theorem execUnborInfo_chg (hw : Within [.out] w) (hs : Chg w s0 s) : ∀ u, execUnborInfo s = .next u → Chg w s0 u := by
  unfold execUnborInfo
  intro u ht
  rw [← Host.Outcome.next.inj ht]
  exact State.unborInfo_chg hw.up hs

theorem execUnlock_chg {env : List Byte} (hw : Within [.regs, .msix, .vlt, .auth, .mgs, .out, .free] w) (hs : Chg w s0 s) : ∀ u, execUnlock env s = .next u → Chg w s0 u := by
  unfold execUnlock
  intro u ht
  rw [← Host.Outcome.next.inj ht]
  exact State.unborUnlock_chg hw.up hs

theorem execLock_chg (hw : Within [.regs, .mgs, .out, .free] w) (hs : Chg w s0 s) : ∀ u, execLock s = .next u → Chg w s0 u := by
  unfold execLock
  intro u ht
  rw [← Host.Outcome.next.inj ht]
  exact State.unborLockCmd_chg hw.up hs

theorem execRd_chg {a : Nat} {n : Option Nat} (hw : Within [.regs, .holds, .msix, .hif, .mgs, .svc, .out, .free] w) (hs : Chg w s0 s) : ∀ u, execRd a n s = .next u → Chg w s0 u := by
  unfold execRd
  intro u ht
  rw [← Host.Outcome.next.inj ht]
  exact State.unborRd_chg hw.up hs

theorem execWr_chg {a : Nat} {v : Word} (hw : Within [.regs, .slots, .fences, .holds, .snaps, .tbl, .stage, .commitQ, .commits, .msix, .resets, .lrn, .bsn, .meters, .egr, .slu, .bud, .fre, .fgd, .had, .ept, .hif, .can, .lin, .cfl, .vlt, .auth, .twn, .tim, .pwr, .mgs, .svc, .inj, .out, .free] w) (hs : Chg w s0 s) : ∀ u, execWr a v s = .next u → Chg w s0 u := by
  unfold execWr
  intro u ht
  rw [← Host.Outcome.next.inj ht]
  exact State.settle_chg hw.up (State.unborWr_chg hw.up hs)

theorem execLog_chg {n : Option Nat} (hw : Within [.out, .free] w) (hs : Chg w s0 s) : ∀ u, execLog n s = .next u → Chg w s0 u := by
  unfold execLog
  intro u ht
  rw [← Host.Outcome.next.inj ht]
  exact State.unborLog_chg hw.up hs

theorem execSens_chg (hw : Within [.out, .free] w) (hs : Chg w s0 s) : ∀ u, execSens s = .next u → Chg w s0 u := by
  unfold execSens
  intro u ht
  rw [← Host.Outcome.next.inj ht]
  exact State.unborSens_chg hw.up hs

theorem execFence_chg (hw : Within [.regs, .slots, .fences, .holds, .snaps, .tbl, .stage, .commitQ, .commits, .msix, .resets, .lrn, .bsn, .meters, .egr, .slu, .bud, .fre, .fgd, .had, .ept, .hif, .can, .lin, .cfl, .vlt, .auth, .twn, .tim, .pwr, .mgs, .svc, .inj, .out, .free] w) (hs : Chg w s0 s) : ∀ u, execFence s = .next u → Chg w s0 u := by
  unfold execFence
  intro u ht
  rw [← Host.Outcome.next.inj ht]
  exact State.unborFence_chg hw.up hs

theorem execUnborExpire_chg (hw : Within [.regs, .mgs] w) (hs : Chg w s0 s) : ∀ u, execUnborExpire s = .next u → Chg w s0 u := by
  unfold execUnborExpire
  intro u ht
  rw [← Host.Outcome.next.inj ht]
  exact State.unborExpire_chg hw.up hs

theorem execCanFrameRx_chg {c : Nat} {b : List Byte} (hw : Within [.regs, .tbl, .msix, .lrn, .bsn, .meters, .egr, .fre, .fgd, .had, .can, .cfl, .vlt, .auth, .twn, .tim, .pwr, .mgs, .inj, .out, .free] w) (hs : Chg w s0 s) : ∀ u, execCanFrameRx c b s = .next u → Chg w s0 u := by
  unfold execCanFrameRx
  intro u ht
  rw [← Host.Outcome.next.inj ht]
  exact State.settle_chg hw.up (State.canRx_chg hw.up hs)

theorem execCauVerdict_chg (hw : Within [.regs, .tbl, .msix, .lrn, .bsn, .meters, .egr, .fre, .fgd, .had, .can, .cfl, .vlt, .auth, .twn, .tim, .mgs, .inj, .out, .free] w) (hs : Chg w s0 s) : ∀ u, execCauVerdict s = .next u → Chg w s0 u := by
  unfold execCauVerdict
  intro u ht
  rw [← Host.Outcome.next.inj ht]
  exact State.settle_chg hw.up (State.cauVerdict_chg hw.up hs)

theorem execCanCopyLinked_chg {c : Nat} (hw : Within [.regs, .msix, .bsn, .can, .vlt, .auth, .twn, .mgs, .out] w) (hs : Chg w s0 s) : ∀ u, execCanCopyLinked c s = .next u → Chg w s0 u := by
  unfold execCanCopyLinked
  intro u ht
  rw [← Host.Outcome.next.inj ht]
  exact State.canLinked_chg hw.up hs

theorem execCanArbitration_chg {c : Nat} (hw : Within [.regs, .msix, .bsn, .can, .pwr, .mgs, .out] w) (hs : Chg w s0 s) : ∀ u, execCanArbitration c s = .next u → Chg w s0 u := by
  unfold execCanArbitration
  intro u ht
  rw [← Host.Outcome.next.inj ht]
  exact State.canArbitrate_chg hw.up hs

theorem execCanTxSuccess_chg {c : Nat} (hw : Within [.regs, .msix, .bsn, .can, .mgs, .out] w) (hs : Chg w s0 s) : ∀ u, execCanTxSuccess c s = .next u → Chg w s0 u := by
  unfold execCanTxSuccess
  intro u ht
  rw [← Host.Outcome.next.inj ht]
  exact State.canSent_chg hw.up hs

theorem execCanTxError_chg {c : Nat} {t : Nat} {dataPhase : Bool} {arb : Bool} {keep : Bool} (hw : Within [.regs, .msix, .bsn, .can, .mgs, .out] w) (hs : Chg w s0 s) : ∀ u, execCanTxError c t dataPhase arb keep s = .next u → Chg w s0 u := by
  unfold execCanTxError
  intro u ht
  rw [← Host.Outcome.next.inj ht]
  exact State.canTxErr_chg hw.up hs

theorem execCanArbLost_chg {c : Nat} (hw : Within [.regs, .msix, .bsn, .can, .mgs, .out] w) (hs : Chg w s0 s) : ∀ u, execCanArbLost c s = .next u → Chg w s0 u := by
  unfold execCanArbLost
  intro u ht
  rw [← Host.Outcome.next.inj ht]
  exact State.canLost_chg hw.up hs

theorem execCanBusError_chg {c : Nat} {t : Nat} {dataPhase : Bool} {id : Nat} {inc : Nat} (hw : Within [.regs, .msix, .bsn, .can, .pwr, .mgs, .out] w) (hs : Chg w s0 s) : ∀ u, execCanBusError c t dataPhase id inc s = .next u → Chg w s0 u := by
  unfold execCanBusError
  intro u ht
  rw [← Host.Outcome.next.inj ht]
  exact State.canRxErr_chg hw.up hs

theorem execCanIdleDetect_chg {c : Nat} (hw : Within [.regs, .msix, .bsn, .meters, .egr, .fre, .can, .pwr, .mgs, .out] w) (hs : Chg w s0 s) : ∀ u, execCanIdleDetect c s = .next u → Chg w s0 u := by
  unfold execCanIdleDetect
  intro u ht
  rw [← Host.Outcome.next.inj ht]
  exact State.canIdle_chg hw.up hs

theorem execCanPex_chg {c : Nat} {id : Nat} (hw : Within [.regs, .msix, .bsn, .can, .pwr, .mgs, .out] w) (hs : Chg w s0 s) : ∀ u, execCanPex c id s = .next u → Chg w s0 u := by
  unfold execCanPex
  intro u ht
  rw [← Host.Outcome.next.inj ht]
  exact State.canPex_chg hw.up hs

theorem execCanBoffDelay_chg {c : Nat} (hw : Within [.can] w) (hs : Chg w s0 s) : ∀ u, execCanBoffDelay c s = .next u → Chg w s0 u := by
  unfold execCanBoffDelay
  intro u ht
  rw [← Host.Outcome.next.inj ht]
  exact State.canBoffDelay_chg hw.up hs

theorem execTxlAged_chg {c : Nat} (hw : Within [.regs, .msix, .bsn, .can, .mgs, .out] w) (hs : Chg w s0 s) : ∀ u, execTxlAged c s = .next u → Chg w s0 u := by
  unfold execTxlAged
  intro u ht
  rw [← Host.Outcome.next.inj ht]
  exact State.txlAge_chg hw.up hs

theorem execRecover_chg {m : Nat} {c : Nat} (hw : Within [.regs, .fences, .msix, .bsn, .hif, .can, .mgs, .out] w) (hs : Chg w s0 s) : ∀ u, execRecover m c s = .next u → Chg w s0 u := by
  unfold execRecover
  intro u ht
  rw [← Host.Outcome.next.inj ht]
  exact State.access_chg hw.up hs (fun x1 h2 => State.canCmd_chg hw.up h2)

theorem execTxlFlush_chg {m : Nat} {c : Nat} (hw : Within [.regs, .fences, .msix, .bsn, .hif, .can, .mgs, .out] w) (hs : Chg w s0 s) : ∀ u, execTxlFlush m c s = .next u → Chg w s0 u := by
  unfold execTxlFlush
  intro u ht
  rw [← Host.Outcome.next.inj ht]
  exact State.access_chg hw.up hs (fun x1 h2 => State.canCmd_chg hw.up h2)

theorem execRxqPop_chg {m : Nat} {c : Nat} (hw : Within [.regs, .fences, .msix, .bsn, .hif, .can, .mgs, .out] w) (hs : Chg w s0 s) : ∀ u, execRxqPop m c s = .next u → Chg w s0 u := by
  unfold execRxqPop
  intro u ht
  rw [← Host.Outcome.next.inj ht]
  exact State.access_chg hw.up hs (fun x1 h2 => State.canCmd_chg hw.up h2)

theorem execL0Release_chg {m : Nat} {c : Nat} {k : Nat} {v : Word} (hw : Within [.regs, .fences, .msix, .hif, .mgs, .out] w) (hs : Chg w s0 s) : ∀ u, execL0Release m c k v s = .next u → Chg w s0 u := by
  unfold execL0Release
  intro u ht
  rw [← Host.Outcome.next.inj ht]
  exact State.access_chg hw.up hs (fun x1 h2 => State.canL0Release_chg hw.up h2)

theorem execListenWrite_chg {m : Nat} {c : Nat} {v : Word} (hw : Within [.regs, .fences, .msix, .bsn, .hif, .can, .mgs, .out] w) (hs : Chg w s0 s) : ∀ u, execListenWrite m c v s = .next u → Chg w s0 u := by
  unfold execListenWrite
  intro u ht
  rw [← Host.Outcome.next.inj ht]
  exact State.access_chg hw.up hs (fun x1 h2 => State.canModeWrite_chg hw.up h2)

theorem execListenTakeEffect_chg {c : Nat} (hw : Within [.regs, .msix, .bsn, .can, .mgs, .out] w) (hs : Chg w s0 s) : ∀ u, execListenTakeEffect c s = .next u → Chg w s0 u := by
  unfold execListenTakeEffect
  intro u ht
  rw [← Host.Outcome.next.inj ht]
  exact State.canListen_chg hw.up hs

theorem execLinFrameRx_chg {l : Nat} {sof : Nat} {d : List Byte} {st : Nat} (hw : Within [.regs, .tbl, .msix, .lrn, .bsn, .meters, .egr, .fre, .fgd, .had, .lin, .cfl, .vlt, .auth, .twn, .tim, .pwr, .mgs, .inj, .out, .free] w) (hs : Chg w s0 s) : ∀ u, execLinFrameRx l sof d st s = .next u → Chg w s0 u := by
  unfold execLinFrameRx
  intro u ht
  rw [← Host.Outcome.next.inj ht]
  exact State.settle_chg hw.up (State.linRx_chg hw.up hs)

theorem execLinResponseTimeout_chg {l : Nat} (hw : Within [.regs, .msix, .lin, .out] w) (hs : Chg w s0 s) : ∀ u, execLinResponseTimeout l s = .next u → Chg w s0 u := by
  unfold execLinResponseTimeout
  intro u ht
  rw [← Host.Outcome.next.inj ht]
  exact State.linTimeout_chg hw.up hs

theorem execLinCopyLinked_chg {l : Nat} (hw : Within [.regs, .msix, .bsn, .twn, .mgs, .out] w) (hs : Chg w s0 s) : ∀ u, execLinCopyLinked l s = .next u → Chg w s0 u := by
  unfold execLinCopyLinked
  intro u ht
  rw [← Host.Outcome.next.inj ht]
  exact State.linLinked_chg hw.up hs

theorem execLinHeaderRx_chg {l : Nat} {f : Nat} {sync : Bool} {parity : Nat} (hw : Within [.regs, .msix, .lin, .pwr, .out] w) (hs : Chg w s0 s) : ∀ u, execLinHeaderRx l f sync parity s = .next u → Chg w s0 u := by
  unfold execLinHeaderRx
  intro u ht
  rw [← Host.Outcome.next.inj ht]
  exact State.linHeaderRx_chg hw.up hs

theorem execLinSlot_chg {l : Nat} (hw : Within [.regs, .msix, .lin, .pwr, .mgs, .out] w) (hs : Chg w s0 s) : ∀ u, execLinSlot l s = .next u → Chg w s0 u := by
  unfold execLinSlot
  intro u ht
  rw [← Host.Outcome.next.inj ht]
  exact State.linSlot_chg hw.up hs

theorem execLinSwitch_chg {m : Nat} {l : Nat} (hw : Within [.regs, .fences, .msix, .hif, .lin, .mgs, .out] w) (hs : Chg w s0 s) : ∀ u, execLinSwitch m l s = .next u → Chg w s0 u := by
  unfold execLinSwitch
  intro u ht
  rw [← Host.Outcome.next.inj ht]
  exact State.access_chg hw.up hs (fun x1 h2 => State.linCmd_chg hw.up h2)

theorem execLinSleep_chg {m : Nat} {l : Nat} (hw : Within [.regs, .fences, .msix, .hif, .lin, .mgs, .out] w) (hs : Chg w s0 s) : ∀ u, execLinSleep m l s = .next u → Chg w s0 u := by
  unfold execLinSleep
  intro u ht
  rw [← Host.Outcome.next.inj ht]
  exact State.access_chg hw.up hs (fun x1 h2 => State.linCmd_chg hw.up h2)

theorem execLinWake_chg {m : Nat} {l : Nat} (hw : Within [.regs, .fences, .msix, .hif, .lin, .mgs, .out] w) (hs : Chg w s0 s) : ∀ u, execLinWake m l s = .next u → Chg w s0 u := by
  unfold execLinWake
  intro u ht
  rw [← Host.Outcome.next.inj ht]
  exact State.access_chg hw.up hs (fun x1 h2 => State.linCmd_chg hw.up h2)

theorem execLinGotosleepRx_chg {l : Nat} (hw : Within [.regs, .msix, .lin, .out] w) (hs : Chg w s0 s) : ∀ u, execLinGotosleepRx l s = .next u → Chg w s0 u := by
  unfold execLinGotosleepRx
  intro u ht
  rw [← Host.Outcome.next.inj ht]
  exact State.linQuiet_chg hw.up hs

theorem execLinInactivity_chg {l : Nat} (hw : Within [.regs, .msix, .lin, .out] w) (hs : Chg w s0 s) : ∀ u, execLinInactivity l s = .next u → Chg w s0 u := by
  unfold execLinInactivity
  intro u ht
  rw [← Host.Outcome.next.inj ht]
  exact State.linQuiet_chg hw.up hs

theorem execLinWakeRx_chg {l : Nat} (hw : Within [.regs, .msix, .lin, .out] w) (hs : Chg w s0 s) : ∀ u, execLinWakeRx l s = .next u → Chg w s0 u := by
  unfold execLinWakeRx
  intro u ht
  rw [← Host.Outcome.next.inj ht]
  exact State.linWakeRx_chg hw.up hs

theorem execLinWakeRetry_chg {l : Nat} (hw : Within [.lin, .out] w) (hs : Chg w s0 s) : ∀ u, execLinWakeRetry l s = .next u → Chg w s0 u := by
  unfold execLinWakeRetry
  intro u ht
  rw [← Host.Outcome.next.inj ht]
  exact State.linWakeRetry_chg hw.up hs

theorem execSvcWrite_chg {m : Nat} {n : Nat} (hw : Within [.regs, .slots, .fences, .msix, .hif, .mgs, .svc, .out] w) (hs : Chg w s0 s) : ∀ u, execSvcWrite m n s = .next u → Chg w s0 u := by
  unfold execSvcWrite
  intro u ht
  rw [← Host.Outcome.next.inj ht]
  exact State.access_chg hw.up hs (fun x1 h2 => State.svcWrite_chg hw.up h2)

theorem execSvcLoad_chg {m : Nat} {n : Nat} {stored : Bool} {k : Nat} (hw : Within [.regs, .slots, .fences, .msix, .hif, .mgs, .svc, .out] w) (hs : Chg w s0 s) : ∀ u, execSvcLoad m n stored k s = .next u → Chg w s0 u := by
  unfold execSvcLoad
  intro u ht
  rw [← Host.Outcome.next.inj ht]
  exact State.access_chg hw.up hs (fun x1 h2 => State.svcLoad_chg hw.up h2)

theorem execSvcLoadDone_chg {n : Nat} (hw : Within [.slots, .svc] w) (hs : Chg w s0 s) : ∀ u, execSvcLoadDone n s = .next u → Chg w s0 u := by
  unfold execSvcLoadDone
  intro u ht
  rw [← Host.Outcome.next.inj ht]
  exact State.loadDone_chg hw.up hs

theorem execSvcStop_chg {m : Nat} {n : Nat} (hw : Within [.regs, .slots, .fences, .msix, .hif, .mgs, .svc, .out] w) (hs : Chg w s0 s) : ∀ u, execSvcStop m n s = .next u → Chg w s0 u := by
  unfold execSvcStop
  intro u ht
  rw [← Host.Outcome.next.inj ht]
  exact State.access_chg hw.up hs (fun x1 h2 => State.svcStop_chg hw.up h2)

theorem execSvcRestart_chg {m : Nat} {n : Nat} (hw : Within [.regs, .slots, .fences, .msix, .hif, .mgs, .svc, .out] w) (hs : Chg w s0 s) : ∀ u, execSvcRestart m n s = .next u → Chg w s0 u := by
  unfold execSvcRestart
  intro u ht
  rw [← Host.Outcome.next.inj ht]
  exact State.access_chg hw.up hs (fun x1 h2 => State.svcRestart_chg hw.up h2)

theorem execSvcWdtExpire_chg {n : Nat} {memory : Bool} (hw : Within [.regs, .slots, .msix, .mgs, .svc, .out] w) (hs : Chg w s0 s) : ∀ u, execSvcWdtExpire n memory s = .next u → Chg w s0 u := by
  unfold execSvcWdtExpire
  intro u ht
  rw [← Host.Outcome.next.inj ht]
  exact State.svcTrip_chg hw.up hs

theorem execSvcWdtService_chg {c : Nat} (hw : Within [.svc] w) (hs : Chg w s0 s) : ∀ u, execSvcWdtService c s = .next u → Chg w s0 u := by
  unfold execSvcWdtService
  intro u ht
  rw [← Host.Outcome.next.inj ht]
  exact State.wdtService_chg hw.up hs

theorem execSvcAutostart_chg (hw : Within [.regs, .msix, .mgs, .svc, .out] w) (hs : Chg w s0 s) : ∀ u, execSvcAutostart s = .next u → Chg w s0 u := by
  unfold execSvcAutostart
  intro u ht
  rw [← Host.Outcome.next.inj ht]
  exact State.autostart_chg hw.up hs

theorem execSvcClaimRead_chg {c : Nat} {r : Nat} (hw : Within [.svc] w) (hs : Chg w s0 s) : ∀ u, execSvcClaimRead c r s = .next u → Chg w s0 u := by
  unfold execSvcClaimRead
  intro u ht
  rw [← Host.Outcome.next.inj ht]
  exact State.claimRead_chg hw.up hs

theorem execSvcClaimRelease_chg {c : Nat} {r : Nat} (hw : Within [.svc] w) (hs : Chg w s0 s) : ∀ u, execSvcClaimRelease c r s = .next u → Chg w s0 u := by
  unfold execSvcClaimRelease
  intro u ht
  rw [← Host.Outcome.next.inj ht]
  exact State.claimRelease_chg hw.up hs

theorem execDdrReady_chg {ok : Bool} (hw : Within [.regs] w) (hs : Chg w s0 s) : ∀ u, execDdrReady ok s = .next u → Chg w s0 u := by
  unfold execDdrReady
  intro u ht
  rw [← Host.Outcome.next.inj ht]
  exact State.ddrReady_chg hw.up hs

theorem execEthFrameRx_chg {p : Nat} {b : List Byte} {pre : Bool} (hw : Within [.regs, .tbl, .msix, .lrn, .bsn, .meters, .egr, .fre, .fgd, .had, .cfl, .vlt, .auth, .twn, .tim, .pwr, .mgs, .inj, .out, .free] w) (hs : Chg w s0 s) : ∀ u, execEthFrameRx p b pre s = .next u → Chg w s0 u := by
  unfold execEthFrameRx
  intro u ht
  rw [← Host.Outcome.next.inj ht]
  exact State.settle_chg hw.up (State.ethRx_chg hw.up hs)

theorem execFrameVerdict_chg {p : Nat} {pre : Bool} {fcsOk : Bool} {framing : Bool} {ecc : Nat} {sym : Nat} {corr : Nat} {uncorr : Nat} (hw : Within [.regs, .tbl, .msix, .lrn, .bsn, .meters, .egr, .fre, .fgd, .had, .cfl, .vlt, .auth, .twn, .tim, .pwr, .mgs, .inj, .out, .free] w) (hs : Chg w s0 s) : ∀ u, execFrameVerdict p pre fcsOk framing ecc s sym corr uncorr = .next u → Chg w s0 u := by
  unfold execFrameVerdict
  intro u ht
  rw [← Host.Outcome.next.inj ht]
  exact State.settle_chg hw.up (State.verdict_chg hw.up (State.pcsErrors_chg hw.up hs))

theorem execLearnCommit_chg (hw : Within [.regs, .tbl, .msix, .lrn, .mgs, .out] w) (hs : Chg w s0 s) : ∀ u, execLearnCommit s = .next u → Chg w s0 u := by
  unfold execLearnCommit
  intro u ht
  rw [← Host.Outcome.next.inj ht]
  exact State.learnCommit_chg hw.up hs

theorem execFreezeTick_chg (hw : Within [.regs, .tbl, .lrn] w) (hs : Chg w s0 s) : ∀ u, execFreezeTick s = .next u → Chg w s0 u := by
  unfold execFreezeTick
  intro u ht
  rw [← Host.Outcome.next.inj ht]
  exact State.freezeTick_chg hw.up hs

theorem execAgeTick_chg (hw : Within [.regs, .tbl, .lrn] w) (hs : Chg w s0 s) : ∀ u, execAgeTick s = .next u → Chg w s0 u := by
  unfold execAgeTick
  intro u ht
  rw [← Host.Outcome.next.inj ht]
  exact State.ageTick_chg hw.up hs

theorem execLrnAgeWrite_chg {m : Nat} {v : Word} (hw : Within [.regs, .fences, .tbl, .msix, .lrn, .hif, .mgs, .out] w) (hs : Chg w s0 s) : ∀ u, execLrnAgeWrite m v s = .next u → Chg w s0 u := by
  unfold execLrnAgeWrite
  intro u ht
  rw [← Host.Outcome.next.inj ht]
  exact State.access_chg hw.up hs (fun x1 h2 => State.lrnAgeWrite_chg hw.up h2)

theorem execAnchorBatch_chg (hw : Within [.regs, .tbl, .msix, .lrn, .bsn, .meters, .egr, .fre, .fgd, .had, .cfl, .vlt, .auth, .twn, .tim, .mgs, .inj, .out, .free] w) (hs : Chg w s0 s) : ∀ u, execAnchorBatch s = .next u → Chg w s0 u := by
  unfold execAnchorBatch
  intro u ht
  rw [← Host.Outcome.next.inj ht]
  exact State.settle_chg hw.up (State.anchorBatch_chg hw.up hs)

theorem execAnchorAnnounce_chg {p : Nat} {smac : Nat} {b : List Byte} (hw : Within [.regs, .tbl, .msix, .lrn, .bsn, .meters, .egr, .fre, .fgd, .had, .cfl, .vlt, .auth, .twn, .tim, .mgs, .inj, .out, .free] w) (hs : Chg w s0 s) : ∀ u, execAnchorAnnounce p smac b s = .next u → Chg w s0 u := by
  unfold execAnchorAnnounce
  intro u ht
  rw [← Host.Outcome.next.inj ht]
  exact State.settle_chg hw.up (State.anchorRx_chg hw.up hs (fun x1 x2 h3 => State.anchorData_chg hw.up h3))

theorem execAnchorWithdraw_chg {p : Nat} {smac : Nat} {b : List Byte} (hw : Within [.regs, .tbl, .msix, .lrn, .bsn, .meters, .egr, .fre, .fgd, .had, .cfl, .vlt, .auth, .twn, .tim, .mgs, .inj, .out, .free] w) (hs : Chg w s0 s) : ∀ u, execAnchorWithdraw p smac b s = .next u → Chg w s0 u := by
  unfold execAnchorWithdraw
  intro u ht
  rw [← Host.Outcome.next.inj ht]
  exact State.settle_chg hw.up (State.anchorRx_chg hw.up hs (fun x1 x2 h3 => State.anchorData_chg hw.up h3))

theorem execAnchorSyncReq_chg {smac : Nat} {b : List Byte} (hw : Within [.regs, .tbl, .msix, .lrn, .bsn, .meters, .egr, .fre, .fgd, .had, .cfl, .vlt, .auth, .twn, .tim, .mgs, .inj, .out, .free] w) (hs : Chg w s0 s) : ∀ u, execAnchorSyncReq smac b s = .next u → Chg w s0 u := by
  unfold execAnchorSyncReq
  intro u ht
  rw [← Host.Outcome.next.inj ht]
  exact State.settle_chg hw.up (State.anchorRx_chg hw.up hs (fun x1 x2 h3 => State.anchorSyncReq_chg hw.up h3))

theorem execAnchorSyncData_chg {p : Nat} {smac : Nat} {b : List Byte} (hw : Within [.regs, .tbl, .msix, .lrn, .bsn, .meters, .egr, .fre, .fgd, .had, .cfl, .vlt, .auth, .twn, .tim, .mgs, .inj, .out, .free] w) (hs : Chg w s0 s) : ∀ u, execAnchorSyncData p smac b s = .next u → Chg w s0 u := by
  unfold execAnchorSyncData
  intro u ht
  rw [← Host.Outcome.next.inj ht]
  exact State.settle_chg hw.up (State.anchorRx_chg hw.up hs (fun x1 x2 h3 => State.anchorSyncData_chg hw.up h3))

theorem execAnchorSyncEnd_chg {smac : Nat} {b : List Byte} (hw : Within [.regs, .tbl, .msix, .lrn, .bsn, .meters, .egr, .fre, .fgd, .had, .cfl, .vlt, .auth, .twn, .tim, .mgs, .inj, .out, .free] w) (hs : Chg w s0 s) : ∀ u, execAnchorSyncEnd smac b s = .next u → Chg w s0 u := by
  unfold execAnchorSyncEnd
  intro u ht
  rw [← Host.Outcome.next.inj ht]
  exact State.settle_chg hw.up (State.anchorRx_chg hw.up hs (fun x1 x2 h3 => State.anchorSyncEnd_chg hw.up h3))

theorem execAnchorSilenceTimeout_chg {i : Nat} (hw : Within [.regs, .msix, .mgs, .out] w) (hs : Chg w s0 s) : ∀ u, execAnchorSilenceTimeout i s = .next u → Chg w s0 u := by
  unfold execAnchorSilenceTimeout
  intro u ht
  rw [← Host.Outcome.next.inj ht]
  exact State.anchorSilence_chg hw.up hs

theorem execAnchorDisable_chg {m : Nat} {i : Nat} {v : Word} (hw : Within [.regs, .fences, .tbl, .msix, .lrn, .bsn, .meters, .egr, .fre, .fgd, .had, .hif, .cfl, .vlt, .auth, .twn, .tim, .mgs, .inj, .out, .free] w) (hs : Chg w s0 s) : ∀ u, execAnchorDisable m i v s = .next u → Chg w s0 u := by
  unfold execAnchorDisable
  intro u ht
  rw [← Host.Outcome.next.inj ht]
  exact State.settle_chg hw.up (State.access_chg hw.up hs (fun x1 h2 => State.anchorCtrlWrite_chg hw.up h2))

theorem execEgressSelect_chg {p : Nat} {ecc : Nat} (hw : Within [.regs, .tbl, .msix, .lrn, .bsn, .meters, .egr, .fre, .fgd, .had, .cfl, .vlt, .auth, .twn, .tim, .mgs, .inj, .out, .free] w) (hs : Chg w s0 s) : ∀ u, execEgressSelect p s ecc = .next u → Chg w s0 u := by
  unfold execEgressSelect
  intro u ht
  rw [← Host.Outcome.next.inj ht]
  exact State.settle_chg hw.up (State.egressSelect_chg hw.up hs)

theorem execTxComplete_chg {p : Nat} (hw : Within [.regs, .msix, .bsn, .egr, .ept, .mgs, .out] w) (hs : Chg w s0 s) : ∀ u, execTxComplete p s = .next u → Chg w s0 u := by
  unfold execTxComplete
  intro u ht
  rw [← Host.Outcome.next.inj ht]
  exact Chg.ite (hs) (State.txComplete_chg hw.up hs)

theorem execPreempt_chg {p : Nat} {sent : Nat} (hw : Within [.regs, .tbl, .msix, .lrn, .bsn, .meters, .egr, .fre, .fgd, .had, .cfl, .vlt, .auth, .twn, .tim, .mgs, .inj, .out, .free] w) (hs : Chg w s0 s) : ∀ u, execPreempt p sent s = .next u → Chg w s0 u := by
  unfold execPreempt
  intro u ht
  rw [← Host.Outcome.next.inj ht]
  exact State.settle_chg hw.up (State.preempt_chg hw.up hs)

theorem execVerifyTimer_chg {p : Nat} (hw : Within [.regs, .msix, .egr, .out] w) (hs : Chg w s0 s) : ∀ u, execVerifyTimer p s = .next u → Chg w s0 u := by
  unfold execVerifyTimer
  intro u ht
  rw [← Host.Outcome.next.inj ht]
  exact State.verifyTimer_chg hw.up hs

theorem execVerifyRespond_chg {p : Nat} (hw : Within [.regs, .egr, .bud] w) (hs : Chg w s0 s) : ∀ u, execVerifyRespond p s = .next u → Chg w s0 u := by
  unfold execVerifyRespond
  intro u ht
  rw [← Host.Outcome.next.inj ht]
  exact State.verifyRespond_chg hw.up hs

theorem execPauseFrameRx_chg {p : Nat} {b : List Byte} {fcsOk : Bool} (hw : Within [.regs, .msix, .egr, .out] w) (hs : Chg w s0 s) : ∀ u, execPauseFrameRx p b fcsOk s = .next u → Chg w s0 u := by
  unfold execPauseFrameRx
  intro u ht
  rw [← Host.Outcome.next.inj ht]
  exact State.macControl_chg hw.up hs

theorem execPauseExpire_chg {p : Nat} (hw : Within [.regs, .egr] w) (hs : Chg w s0 s) : ∀ u, execPauseExpire p s = .next u → Chg w s0 u := by
  unfold execPauseExpire
  intro u ht
  rw [← Host.Outcome.next.inj ht]
  exact State.pauseEnd_chg hw.up hs

theorem execRakeAuditStart_chg (hw : Within [.regs, .msix, .bsn, .out] w) (hs : Chg w s0 s) : ∀ u, execRakeAuditStart s = .next u → Chg w s0 u := by
  unfold execRakeAuditStart
  intro u ht
  rw [← Host.Outcome.next.inj ht]
  exact State.auditDue_chg hw.up hs

theorem execRakeAuditDone_chg {unmarked : List Nat} {doubled : List Nat} {broken : Bool} {beyond : List Nat} (hw : Within [.regs, .msix, .bsn, .mgs, .out] w) (hs : Chg w s0 s) : ∀ u, execRakeAuditDone unmarked doubled broken beyond s = .next u → Chg w s0 u := by
  unfold execRakeAuditDone
  intro u ht
  rw [← Host.Outcome.next.inj ht]
  exact State.auditDone_chg hw.up hs

theorem execEdyRateWrite_chg {m : Nat} {k : Nat} {v : Word} (hw : Within [.regs, .fences, .msix, .hif, .mgs, .out] w) (hs : Chg w s0 s) : ∀ u, execEdyRateWrite m k v s = .next u → Chg w s0 u := by
  unfold execEdyRateWrite
  intro u ht
  rw [← Host.Outcome.next.inj ht]
  exact State.access_chg hw.up hs (fun x1 h2 => State.edyRateWrite_chg hw.up h2)

theorem execFlowSeedApply_chg (hw : Within [.bsn] w) (hs : Chg w s0 s) : ∀ u, execFlowSeedApply s = .next u → Chg w s0 u := by
  unfold execFlowSeedApply
  intro u ht
  rw [← Host.Outcome.next.inj ht]
  exact State.seedApply_chg hw.up hs

theorem execQcfgWrite_chg {m : Nat} {a : Nat} {v : Word} (hw : Within [.regs, .fences, .msix, .bud, .hif, .mgs, .out] w) (hs : Chg w s0 s) : ∀ u, execQcfgWrite m a v s = .next u → Chg w s0 u := by
  unfold execQcfgWrite
  intro u ht
  rw [← Host.Outcome.next.inj ht]
  exact State.access_chg hw.up hs (fun x1 h2 => State.qcfgWrite_chg hw.up h2)

theorem execGapMarker_chg {r : Nat} (hw : Within [.bsn] w) (hs : Chg w s0 s) : ∀ u, execGapMarker r s = .next u → Chg w s0 u := by
  unfold execGapMarker
  intro u ht
  rw [← Host.Outcome.next.inj ht]
  exact State.gapMark_chg hw.up hs

theorem execFifoReset_chg {tx : Bool} {r : Nat} {held : List Nat} (hw : Within [.regs, .msix, .bsn, .hif, .mgs, .svc, .out, .free] w) (hs : Chg w s0 s) : ∀ u, execFifoReset tx r held s = .next u → Chg w s0 u := by
  unfold execFifoReset
  intro u ht
  rw [← Host.Outcome.next.inj ht]
  exact Chg.ite (State.txDropped_chg hw.up (State.txReset_chg hw.up hs)) (State.rxReset_chg hw.up hs)

theorem execWeiApply_chg {m : Nat} (hw : Within [.regs, .fences, .msix, .meters, .hif, .mgs, .out] w) (hs : Chg w s0 s) : ∀ u, execWeiApply m s = .next u → Chg w s0 u := by
  unfold execWeiApply
  intro u ht
  rw [← Host.Outcome.next.inj ht]
  exact State.access_chg hw.up hs (fun x1 h2 => State.weiCmd_chg hw.up h2)

theorem execWeiLoad_chg {m : Nat} (hw : Within [.regs, .fences, .msix, .meters, .hif, .mgs, .out] w) (hs : Chg w s0 s) : ∀ u, execWeiLoad m s = .next u → Chg w s0 u := by
  unfold execWeiLoad
  intro u ht
  rw [← Host.Outcome.next.inj ht]
  exact State.access_chg hw.up hs (fun x1 h2 => State.weiCmd_chg hw.up h2)

theorem execSluChange_chg {m : Nat} {p : Nat} (hw : Within [.regs, .fences, .msix, .slu, .hif, .mgs, .out] w) (hs : Chg w s0 s) : ∀ u, execSluChange m p s = .next u → Chg w s0 u := by
  unfold execSluChange
  intro u ht
  rw [← Host.Outcome.next.inj ht]
  exact State.access_chg hw.up hs (fun x1 h2 => State.sluCmd_chg hw.up h2)

theorem execSluCancel_chg {m : Nat} {p : Nat} (hw : Within [.regs, .fences, .msix, .slu, .hif, .mgs, .out] w) (hs : Chg w s0 s) : ∀ u, execSluCancel m p s = .next u → Chg w s0 u := by
  unfold execSluCancel
  intro u ht
  rw [← Host.Outcome.next.inj ht]
  exact State.access_chg hw.up hs (fun x1 h2 => State.sluCmd_chg hw.up h2)

theorem execSluConfigChange_chg {p : Nat} {sent : Nat} (hw : Within [.regs, .msix, .egr, .slu, .bud, .out, .free] w) (hs : Chg w s0 s) : ∀ u, execSluConfigChange p sent s = .next u → Chg w s0 u := by
  unfold execSluConfigChange
  intro u ht
  rw [← Host.Outcome.next.inj ht]
  exact State.sluTake_chg hw.up hs

theorem execGateEvent_chg {p : Nat} {sent : Nat} (hw : Within [.regs, .msix, .egr, .slu, .out, .free] w) (hs : Chg w s0 s) : ∀ u, execGateEvent p sent s = .next u → Chg w s0 u := by
  unfold execGateEvent
  intro u ht
  rw [← Host.Outcome.next.inj ht]
  exact State.gateEvent_chg hw.up hs

theorem execSluGateEnWrite_chg {m : Nat} {p : Nat} {v : Word} (hw : Within [.regs, .fences, .msix, .egr, .slu, .bud, .hif, .mgs, .out, .free] w) (hs : Chg w s0 s) : ∀ u, execSluGateEnWrite m p v s = .next u → Chg w s0 u := by
  unfold execSluGateEnWrite
  intro u ht
  rw [← Host.Outcome.next.inj ht]
  exact State.access_chg hw.up hs (fun x1 h2 => State.sluCtrlWrite_chg hw.up h2)

theorem execSluGclWrite_chg {m : Nat} {p : Nat} {v : Word} (hw : Within [.regs, .fences, .msix, .slu, .hif, .mgs, .out] w) (hs : Chg w s0 s) : ∀ u, execSluGclWrite m p v s = .next u → Chg w s0 u := by
  unfold execSluGclWrite
  intro u ht
  rw [← Host.Outcome.next.inj ht]
  exact State.access_chg hw.up hs (fun x1 h2 => State.gclWrite_chg hw.up h2)

theorem execBudRequest_chg {m : Nat} (hw : Within [.regs, .slots, .fences, .msix, .meters, .bud, .hif, .mgs, .out, .free] w) (hs : Chg w s0 s) : ∀ u, execBudRequest m s = .next u → Chg w s0 u := by
  unfold execBudRequest
  intro u ht
  rw [← Host.Outcome.next.inj ht]
  exact State.access_chg hw.up hs (fun x1 h2 => State.budCmd_chg hw.up h2)

theorem execBudQuery_chg {m : Nat} (hw : Within [.regs, .slots, .fences, .msix, .meters, .bud, .hif, .mgs, .out, .free] w) (hs : Chg w s0 s) : ∀ u, execBudQuery m s = .next u → Chg w s0 u := by
  unfold execBudQuery
  intro u ht
  rw [← Host.Outcome.next.inj ht]
  exact State.access_chg hw.up hs (fun x1 h2 => State.budCmd_chg hw.up h2)

theorem execBudRelease_chg {m : Nat} (hw : Within [.regs, .slots, .fences, .msix, .meters, .bud, .hif, .mgs, .out, .free] w) (hs : Chg w s0 s) : ∀ u, execBudRelease m s = .next u → Chg w s0 u := by
  unfold execBudRelease
  intro u ht
  rw [← Host.Outcome.next.inj ht]
  exact State.access_chg hw.up hs (fun x1 h2 => State.budCmd_chg hw.up h2)

theorem execBudRead_chg {m : Nat} (hw : Within [.regs, .slots, .fences, .msix, .meters, .bud, .hif, .mgs, .out, .free] w) (hs : Chg w s0 s) : ∀ u, execBudRead m s = .next u → Chg w s0 u := by
  unfold execBudRead
  intro u ht
  rw [← Host.Outcome.next.inj ht]
  exact State.access_chg hw.up hs (fun x1 h2 => State.budCmd_chg hw.up h2)

theorem execBudRecheck_chg {m : Nat} (hw : Within [.regs, .slots, .fences, .msix, .meters, .bud, .hif, .mgs, .out, .free] w) (hs : Chg w s0 s) : ∀ u, execBudRecheck m s = .next u → Chg w s0 u := by
  unfold execBudRecheck
  intro u ht
  rw [← Host.Outcome.next.inj ht]
  exact State.access_chg hw.up hs (fun x1 h2 => State.budCmd_chg hw.up h2)

theorem execBudCmdDone_chg (hw : Within [.regs, .slots, .msix, .meters, .bud, .mgs, .svc, .out, .free] w) (hs : Chg w s0 s) : ∀ u, execBudCmdDone s = .next u → Chg w s0 u := by
  unfold execBudCmdDone
  intro u ht
  rw [← Host.Outcome.next.inj ht]
  exact State.budDone_chg hw.up hs

theorem execBudAutoRecheck_chg {p : Nat} (hw : Within [.regs, .slots, .msix, .meters, .bud, .mgs, .out, .free] w) (hs : Chg w s0 s) : ∀ u, execBudAutoRecheck p s = .next u → Chg w s0 u := by
  unfold execBudAutoRecheck
  intro u ht
  rw [← Host.Outcome.next.inj ht]
  exact State.budAuto_chg hw.up hs

theorem execBudEnable_chg {m : Nat} {v : Word} (hw : Within [.regs, .fences, .msix, .meters, .hif, .mgs, .out] w) (hs : Chg w s0 s) : ∀ u, execBudEnable m v s = .next u → Chg w s0 u := by
  unfold execBudEnable
  intro u ht
  rw [← Host.Outcome.next.inj ht]
  exact State.access_chg hw.up hs (fun x1 h2 => State.budCfgWrite_chg hw.up h2)

theorem execFreApply_chg {m : Nat} (hw : Within [.regs, .fences, .msix, .fre, .hif, .mgs, .out] w) (hs : Chg w s0 s) : ∀ u, execFreApply m s = .next u → Chg w s0 u := by
  unfold execFreApply
  intro u ht
  rw [← Host.Outcome.next.inj ht]
  exact State.access_chg hw.up hs (fun x1 h2 => State.freCmd_chg hw.up h2)

theorem execFreLoad_chg {m : Nat} (hw : Within [.regs, .fences, .msix, .fre, .hif, .mgs, .out] w) (hs : Chg w s0 s) : ∀ u, execFreLoad m s = .next u → Chg w s0 u := by
  unfold execFreLoad
  intro u ht
  rw [← Host.Outcome.next.inj ht]
  exact State.access_chg hw.up hs (fun x1 h2 => State.freCmd_chg hw.up h2)

theorem execFreReset_chg {m : Nat} (hw : Within [.regs, .fences, .msix, .fre, .hif, .mgs, .out] w) (hs : Chg w s0 s) : ∀ u, execFreReset m s = .next u → Chg w s0 u := by
  unfold execFreReset
  intro u ht
  rw [← Host.Outcome.next.inj ht]
  exact State.access_chg hw.up hs (fun x1 h2 => State.freCmd_chg hw.up h2)

theorem execFreRecoveryTimeout_chg {i : Nat} (hw : Within [.regs, .fre] w) (hs : Chg w s0 s) : ∀ u, execFreRecoveryTimeout i s = .next u → Chg w s0 u := by
  unfold execFreRecoveryTimeout
  intro u ht
  rw [← Host.Outcome.next.inj ht]
  exact State.freTimeout_chg hw.up hs

theorem execFreLatentTest_chg {i : Nat} (hw : Within [.regs, .msix, .mgs, .out] w) (hs : Chg w s0 s) : ∀ u, execFreLatentTest i s = .next u → Chg w s0 u := by
  unfold execFreLatentTest
  intro u ht
  rw [← Host.Outcome.next.inj ht]
  exact State.freLatent_chg hw.up hs

theorem execFreLatentReset_chg {i : Nat} (hw : Within [.fre] w) (hs : Chg w s0 s) : ∀ u, execFreLatentReset i s = .next u → Chg w s0 u := by
  unfold execFreLatentReset
  intro u ht
  rw [← Host.Outcome.next.inj ht]
  exact State.freLatentReset_chg hw.up hs

theorem execFgdDeadline_chg {v : Nat} (hw : Within [.regs, .tbl, .msix, .lrn, .bsn, .meters, .egr, .fre, .fgd, .had, .cfl, .vlt, .auth, .twn, .tim, .mgs, .inj, .out, .free] w) (hs : Chg w s0 s) : ∀ u, execFgdDeadline v s = .next u → Chg w s0 u := by
  unfold execFgdDeadline
  intro u ht
  rw [← Host.Outcome.next.inj ht]
  exact State.settle_chg hw.up (State.fgdDeadline_chg hw.up hs)

theorem execFgdStaleRepeat_chg {v : Nat} (hw : Within [.regs, .tbl, .msix, .lrn, .bsn, .meters, .egr, .fre, .fgd, .had, .cfl, .vlt, .auth, .twn, .tim, .mgs, .inj, .out, .free] w) (hs : Chg w s0 s) : ∀ u, execFgdStaleRepeat v s = .next u → Chg w s0 u := by
  unfold execFgdStaleRepeat
  intro u ht
  rw [← Host.Outcome.next.inj ht]
  exact State.settle_chg hw.up (State.fgdRepeat_chg hw.up hs)

theorem execFgdApply_chg {m : Nat} (hw : Within [.regs, .fences, .msix, .fgd, .hif, .mgs, .out] w) (hs : Chg w s0 s) : ∀ u, execFgdApply m s = .next u → Chg w s0 u := by
  unfold execFgdApply
  intro u ht
  rw [← Host.Outcome.next.inj ht]
  exact State.access_chg hw.up hs (fun x1 h2 => State.fgdCmd_chg hw.up h2)

theorem execFgdLoad_chg {m : Nat} (hw : Within [.regs, .fences, .msix, .fgd, .hif, .mgs, .out] w) (hs : Chg w s0 s) : ∀ u, execFgdLoad m s = .next u → Chg w s0 u := by
  unfold execFgdLoad
  intro u ht
  rw [← Host.Outcome.next.inj ht]
  exact State.access_chg hw.up hs (fun x1 h2 => State.fgdCmd_chg hw.up h2)

theorem execProofRx_chg {p : Nat} {b : List Byte} (hw : Within [.regs, .tbl, .msix, .lrn, .bsn, .meters, .egr, .fre, .fgd, .had, .cfl, .vlt, .auth, .twn, .tim, .mgs, .inj, .out, .free] w) (hs : Chg w s0 s) : ∀ u, execProofRx p b s = .next u → Chg w s0 u := by
  unfold execProofRx
  intro u ht
  rw [← Host.Outcome.next.inj ht]
  exact State.settle_chg hw.up (State.hadProof_chg hw.up hs)

theorem execHeadRequestRx_chg {p : Nat} {b : List Byte} (hw : Within [.regs, .tbl, .msix, .lrn, .bsn, .meters, .egr, .fre, .fgd, .had, .cfl, .vlt, .auth, .twn, .tim, .mgs, .inj, .out, .free] w) (hs : Chg w s0 s) : ∀ u, execHeadRequestRx p b s = .next u → Chg w s0 u := by
  unfold execHeadRequestRx
  intro u ht
  rw [← Host.Outcome.next.inj ht]
  exact State.settle_chg hw.up (State.hadRequest_chg hw.up hs)

theorem execProofVerified_chg {p : Nat} {alarm : Option Nat} (hw : Within [.regs, .tbl, .msix, .lrn, .bsn, .meters, .egr, .fre, .fgd, .had, .cfl, .vlt, .auth, .twn, .tim, .mgs, .inj, .out, .free] w) (hs : Chg w s0 s) : ∀ u, execProofVerified p alarm s = .next u → Chg w s0 u := by
  unfold execProofVerified
  intro u ht
  rw [← Host.Outcome.next.inj ht]
  exact State.settle_chg hw.up (State.hadVerified_chg hw.up hs)

theorem execVerdictSigned_chg {p : Nat} (hw : Within [.regs, .tbl, .msix, .lrn, .bsn, .meters, .egr, .fre, .fgd, .had, .cfl, .vlt, .auth, .twn, .tim, .mgs, .inj, .out, .free] w) (hs : Chg w s0 s) : ∀ u, execVerdictSigned p s = .next u → Chg w s0 u := by
  unfold execVerdictSigned
  intro u ht
  rw [← Host.Outcome.next.inj ht]
  exact State.settle_chg hw.up (State.hadSigned_chg hw.up hs)

theorem execHadRespTimeout_chg {p : Nat} (hw : Within [.regs, .tbl, .msix, .lrn, .bsn, .meters, .egr, .fre, .fgd, .had, .cfl, .vlt, .auth, .twn, .tim, .mgs, .inj, .out, .free] w) (hs : Chg w s0 s) : ∀ u, execHadRespTimeout p s = .next u → Chg w s0 u := by
  unfold execHadRespTimeout
  intro u ht
  rw [← Host.Outcome.next.inj ht]
  exact State.settle_chg hw.up (State.hadExpire_chg hw.up hs)

theorem execHadRetryTimeout_chg {p : Nat} (hw : Within [.regs, .tbl, .msix, .lrn, .bsn, .meters, .egr, .fre, .fgd, .had, .cfl, .vlt, .auth, .twn, .tim, .mgs, .inj, .out, .free] w) (hs : Chg w s0 s) : ∀ u, execHadRetryTimeout p s = .next u → Chg w s0 u := by
  unfold execHadRetryTimeout
  intro u ht
  rw [← Host.Outcome.next.inj ht]
  exact State.settle_chg hw.up (State.hadRetry_chg hw.up hs)

theorem execHadPeriod_chg {p : Nat} (hw : Within [.regs, .tbl, .msix, .lrn, .bsn, .meters, .egr, .fre, .fgd, .had, .cfl, .vlt, .auth, .twn, .tim, .mgs, .inj, .out, .free] w) (hs : Chg w s0 s) : ∀ u, execHadPeriod p s = .next u → Chg w s0 u := by
  unfold execHadPeriod
  intro u ht
  rw [← Host.Outcome.next.inj ht]
  exact State.settle_chg hw.up (State.hadPeriod_chg hw.up hs)

theorem execObservedMinute_chg {p : Nat} (hw : Within [.had] w) (hs : Chg w s0 s) : ∀ u, execObservedMinute p s = .next u → Chg w s0 u := by
  unfold execObservedMinute
  intro u ht
  rw [← Host.Outcome.next.inj ht]
  exact State.hadMinute_chg hw.up hs

theorem execLifeRecordTimer_chg {p : Nat} (hw : Within [.regs, .msix, .had, .mgs, .out] w) (hs : Chg w s0 s) : ∀ u, execLifeRecordTimer p s = .next u → Chg w s0 u := by
  unfold execLifeRecordTimer
  intro u ht
  rw [← Host.Outcome.next.inj ht]
  exact State.hadHour_chg hw.up hs

theorem execHeadEnWrite_chg {m : Nat} {p : Nat} {v : Word} (hw : Within [.regs, .fences, .tbl, .msix, .lrn, .bsn, .meters, .egr, .fre, .fgd, .had, .hif, .cfl, .vlt, .auth, .twn, .tim, .mgs, .inj, .out, .free] w) (hs : Chg w s0 s) : ∀ u, execHeadEnWrite m p v s = .next u → Chg w s0 u := by
  unfold execHeadEnWrite
  intro u ht
  rw [← Host.Outcome.next.inj ht]
  exact State.settle_chg hw.up (State.access_chg hw.up hs (fun x1 h2 => State.hadPortWrite_chg hw.up h2))

theorem execHadEnrol_chg {m : Nat} {i : Nat} {p : Nat} (hw : Within [.regs, .slots, .fences, .tbl, .msix, .lrn, .bsn, .meters, .egr, .fre, .fgd, .had, .hif, .cfl, .vlt, .auth, .twn, .tim, .mgs, .svc, .inj, .out, .free] w) (hs : Chg w s0 s) : ∀ u, execHadEnrol m i p s = .next u → Chg w s0 u := by
  unfold execHadEnrol
  intro u ht
  rw [← Host.Outcome.next.inj ht]
  exact State.settle_chg hw.up (State.access_chg hw.up hs (fun x1 h2 => State.hadCmd_chg hw.up h2))

theorem execHadRetire_chg {m : Nat} {i : Nat} (hw : Within [.regs, .slots, .fences, .tbl, .msix, .lrn, .bsn, .meters, .egr, .fre, .fgd, .had, .hif, .cfl, .vlt, .auth, .twn, .tim, .mgs, .svc, .inj, .out, .free] w) (hs : Chg w s0 s) : ∀ u, execHadRetire m i s = .next u → Chg w s0 u := by
  unfold execHadRetire
  intro u ht
  rw [← Host.Outcome.next.inj ht]
  exact State.settle_chg hw.up (State.access_chg hw.up hs (fun x1 h2 => State.hadCmd_chg hw.up h2))

theorem execHadRead_chg {m : Nat} {i : Nat} (hw : Within [.regs, .slots, .fences, .msix, .had, .hif, .vlt, .auth, .mgs, .svc, .inj, .out] w) (hs : Chg w s0 s) : ∀ u, execHadRead m i s = .next u → Chg w s0 u := by
  unfold execHadRead
  intro u ht
  rw [← Host.Outcome.next.inj ht]
  exact State.access_chg hw.up hs (fun x1 h2 => State.hadCmd_chg hw.up h2)

theorem execHadReadmit_chg {m : Nat} {p : Nat} (hw : Within [.regs, .slots, .fences, .tbl, .msix, .lrn, .bsn, .meters, .egr, .fre, .fgd, .had, .hif, .cfl, .vlt, .auth, .twn, .tim, .mgs, .svc, .inj, .out, .free] w) (hs : Chg w s0 s) : ∀ u, execHadReadmit m p s = .next u → Chg w s0 u := by
  unfold execHadReadmit
  intro u ht
  rw [← Host.Outcome.next.inj ht]
  exact State.settle_chg hw.up (State.access_chg hw.up hs (fun x1 h2 => State.hadCmd_chg hw.up h2))

theorem execHadReadLife_chg {m : Nat} {i : Nat} (hw : Within [.regs, .slots, .fences, .msix, .had, .hif, .vlt, .auth, .mgs, .svc, .inj, .out] w) (hs : Chg w s0 s) : ∀ u, execHadReadLife m i s = .next u → Chg w s0 u := by
  unfold execHadReadLife
  intro u ht
  rw [← Host.Outcome.next.inj ht]
  exact State.access_chg hw.up hs (fun x1 h2 => State.hadCmd_chg hw.up h2)

theorem execLinkPcsUp_chg {p : Nat} (hw : Within [.regs, .tbl, .msix, .lrn, .bsn, .meters, .egr, .bud, .fre, .fgd, .had, .ept, .cfl, .vlt, .auth, .twn, .tim, .pwr, .mgs, .inj, .out, .free] w) (hs : Chg w s0 s) : ∀ u, execLinkPcsUp p s = .next u → Chg w s0 u := by
  unfold execLinkPcsUp
  intro u ht
  rw [← Host.Outcome.next.inj ht]
  exact State.settle_chg hw.up (State.pcsUp_chg hw.up hs)

theorem execLinkHoldExpire_chg {p : Nat} (hw : Within [.regs, .tbl, .msix, .lrn, .bsn, .meters, .egr, .bud, .fre, .fgd, .had, .ept, .cfl, .vlt, .auth, .twn, .tim, .pwr, .mgs, .inj, .out, .free] w) (hs : Chg w s0 s) : ∀ u, execLinkHoldExpire p s = .next u → Chg w s0 u := by
  unfold execLinkHoldExpire
  intro u ht
  rw [← Host.Outcome.next.inj ht]
  exact State.settle_chg hw.up (State.holdExpire_chg hw.up hs)

theorem execLinkPcsDown_chg {p : Nat} (hw : Within [.regs, .tbl, .msix, .lrn, .bsn, .meters, .egr, .bud, .fre, .fgd, .had, .ept, .cfl, .vlt, .auth, .twn, .tim, .mgs, .inj, .out, .free] w) (hs : Chg w s0 s) : ∀ u, execLinkPcsDown p s = .next u → Chg w s0 u := by
  unfold execLinkPcsDown
  intro u ht
  rw [← Host.Outcome.next.inj ht]
  exact State.settle_chg hw.up (State.pcsDown_chg hw.up hs)

theorem execTrainTimeout_chg {p : Nat} (hw : Within [.regs, .msix, .ept, .out] w) (hs : Chg w s0 s) : ∀ u, execTrainTimeout p s = .next u → Chg w s0 u := by
  unfold execTrainTimeout
  intro u ht
  rw [← Host.Outcome.next.inj ht]
  exact State.trainTimeout_chg hw.up hs

theorem execEptCfgWrite_chg {m : Nat} {p : Nat} {v : Word} (hw : Within [.regs, .fences, .tbl, .msix, .lrn, .bsn, .meters, .egr, .bud, .fre, .fgd, .had, .ept, .hif, .cfl, .vlt, .auth, .twn, .tim, .mgs, .inj, .out, .free] w) (hs : Chg w s0 s) : ∀ u, execEptCfgWrite m p v s = .next u → Chg w s0 u := by
  unfold execEptCfgWrite
  intro u ht
  rw [← Host.Outcome.next.inj ht]
  exact State.settle_chg hw.up (State.access_chg hw.up hs (fun x1 h2 => State.eptCfgWrite_chg hw.up h2))

theorem execRetrain_chg {m : Nat} {p : Nat} (hw : Within [.regs, .fences, .tbl, .msix, .lrn, .bsn, .meters, .egr, .bud, .fre, .fgd, .had, .ept, .hif, .cfl, .vlt, .auth, .twn, .tim, .mgs, .inj, .out, .free] w) (hs : Chg w s0 s) : ∀ u, execRetrain m p s = .next u → Chg w s0 u := by
  unfold execRetrain
  intro u ht
  rw [← Host.Outcome.next.inj ht]
  exact State.settle_chg hw.up (State.access_chg hw.up hs (fun x1 h2 => State.eptCmd_chg hw.up h2))

theorem execEptSleep_chg {m : Nat} {p : Nat} (hw : Within [.regs, .fences, .msix, .bsn, .meters, .egr, .bud, .fre, .fgd, .had, .ept, .hif, .vlt, .auth, .mgs, .inj, .out, .free] w) (hs : Chg w s0 s) : ∀ u, execEptSleep m p s = .next u → Chg w s0 u := by
  unfold execEptSleep
  intro u ht
  rw [← Host.Outcome.next.inj ht]
  exact State.access_chg hw.up hs (fun x1 h2 => State.eptCmd_chg hw.up h2)

theorem execEptWake_chg {m : Nat} {p : Nat} (hw : Within [.regs, .fences, .msix, .bsn, .meters, .egr, .bud, .fre, .fgd, .had, .ept, .hif, .vlt, .auth, .mgs, .inj, .out, .free] w) (hs : Chg w s0 s) : ∀ u, execEptWake m p s = .next u → Chg w s0 u := by
  unfold execEptWake
  intro u ht
  rw [← Host.Outcome.next.inj ht]
  exact State.access_chg hw.up hs (fun x1 h2 => State.eptCmd_chg hw.up h2)

theorem execTc10SleepReqRx_chg {p : Nat} (hw : Within [.regs, .msix, .ept, .out] w) (hs : Chg w s0 s) : ∀ u, execTc10SleepReqRx p s = .next u → Chg w s0 u := by
  unfold execTc10SleepReqRx
  intro u ht
  rw [← Host.Outcome.next.inj ht]
  exact State.sleepReq_chg hw.up hs

theorem execTc10SleepAgreed_chg {p : Nat} (hw : Within [.regs, .tbl, .msix, .lrn, .bsn, .meters, .egr, .bud, .fre, .fgd, .had, .ept, .cfl, .vlt, .auth, .twn, .tim, .mgs, .inj, .out, .free] w) (hs : Chg w s0 s) : ∀ u, execTc10SleepAgreed p s = .next u → Chg w s0 u := by
  unfold execTc10SleepAgreed
  intro u ht
  rw [← Host.Outcome.next.inj ht]
  exact State.settle_chg hw.up (State.sleepAgreed_chg hw.up hs)

theorem execTc10SleepTimeout_chg {p : Nat} (hw : Within [.regs, .ept] w) (hs : Chg w s0 s) : ∀ u, execTc10SleepTimeout p s = .next u → Chg w s0 u := by
  unfold execTc10SleepTimeout
  intro u ht
  rw [← Host.Outcome.next.inj ht]
  exact State.sleepTimeout_chg hw.up hs

theorem execTc10WakeDetect_chg {p : Nat} {wur : Bool} (hw : Within [.regs, .msix, .bsn, .meters, .egr, .bud, .fre, .fgd, .had, .ept, .vlt, .auth, .mgs, .inj, .out, .free] w) (hs : Chg w s0 s) : ∀ u, execTc10WakeDetect p wur s = .next u → Chg w s0 u := by
  unfold execTc10WakeDetect
  intro u ht
  rw [← Host.Outcome.next.inj ht]
  exact State.wakeSeen_chg hw.up hs

theorem execSdActivity_chg {p : Nat} (hw : Within [.regs, .pwr] w) (hs : Chg w s0 s) : ∀ u, execSdActivity p s = .next u → Chg w s0 u := by
  unfold execSdActivity
  intro u ht
  rw [← Host.Outcome.next.inj ht]
  exact State.sdActivity_chg hw.up hs

theorem execPlcaBeaconTimeout_chg {p : Nat} (hw : Within [.regs, .msix, .ept, .out] w) (hs : Chg w s0 s) : ∀ u, execPlcaBeaconTimeout p s = .next u → Chg w s0 u := by
  unfold execPlcaBeaconTimeout
  intro u ht
  rw [← Host.Outcome.next.inj ht]
  exact State.beaconLost_chg hw.up hs

theorem execPlcaBeaconRx_chg {p : Nat} (hw : Within [.ept] w) (hs : Chg w s0 s) : ∀ u, execPlcaBeaconRx p s = .next u → Chg w s0 u := by
  unfold execPlcaBeaconRx
  intro u ht
  rw [← Host.Outcome.next.inj ht]
  exact State.beaconSeen_chg hw.up hs

theorem execSdCollision_chg {p : Nat} (hw : Within [.regs, .msix, .bsn, .egr, .ept, .mgs, .out] w) (hs : Chg w s0 s) : ∀ u, execSdCollision p s = .next u → Chg w s0 u := by
  unfold execSdCollision
  intro u ht
  rw [← Host.Outcome.next.inj ht]
  exact State.collision_chg hw.up hs

theorem execHiBer_chg {p : Nat} (hw : Within [.regs, .msix, .out] w) (hs : Chg w s0 s) : ∀ u, execHiBer p s = .next u → Chg w s0 u := by
  unfold execHiBer
  intro u ht
  rw [← Host.Outcome.next.inj ht]
  exact State.hiBer_chg hw.up hs

theorem execHifDmaPortWrite_chg {m : Nat} {v : Word} (hw : Within [.regs, .fences, .tbl, .msix, .lrn, .bsn, .meters, .egr, .bud, .fre, .fgd, .had, .ept, .hif, .cfl, .vlt, .auth, .twn, .tim, .mgs, .inj, .out, .free] w) (hs : Chg w s0 s) : ∀ u, execHifDmaPortWrite m v s = .next u → Chg w s0 u := by
  unfold execHifDmaPortWrite
  intro u ht
  rw [← Host.Outcome.next.inj ht]
  exact State.settle_chg hw.up (State.access_chg hw.up hs (fun x1 h2 => State.hifCfgWrite_chg hw.up h2))

theorem execDmaPortStatus_chg {v : Word} {relax : Bool} (hw : Within [.regs, .msix, .bsn, .egr, .bud, .hif, .out] w) (hs : Chg w s0 s) : ∀ u, execDmaPortStatus v s relax = .next u → Chg w s0 u := by
  unfold execDmaPortStatus
  intro u ht
  rw [← Host.Outcome.next.inj ht]
  exact State.hifStatus_chg hw.up hs

theorem execRingEnable_chg {m : Nat} {tx : Bool} {r : Nat} {v : Word} (hw : Within [.regs, .fences, .msix, .hif, .mgs, .out] w) (hs : Chg w s0 s) : ∀ u, execRingEnable m tx r v s = .next u → Chg w s0 u := by
  unfold execRingEnable
  intro u ht
  rw [← Host.Outcome.next.inj ht]
  exact State.anyRingCtrl_chg hw.up hs

theorem execRingDisable_chg {m : Nat} {tx : Bool} {r : Nat} {v : Word} (hw : Within [.regs, .fences, .msix, .hif, .mgs, .out] w) (hs : Chg w s0 s) : ∀ u, execRingDisable m tx r v s = .next u → Chg w s0 u := by
  unfold execRingDisable
  intro u ht
  rw [← Host.Outcome.next.inj ht]
  exact State.anyRingCtrl_chg hw.up hs

theorem execTxDb_chg {t : Nat} {v : Word} {full : Bool} (hw : Within [.regs, .fences, .msix, .hif, .mgs, .out] w) (hs : Chg w s0 s) : ∀ u, execTxDb t v full s = .next u → Chg w s0 u := by
  unfold execTxDb
  intro u ht
  rw [← Host.Outcome.next.inj ht]
  exact State.anyDoorbell_chg hw.up hs

theorem execRxDb_chg {r : Nat} {v : Word} {full : Bool} (hw : Within [.regs, .fences, .msix, .hif, .mgs, .out] w) (hs : Chg w s0 s) : ∀ u, execRxDb r v full s = .next u → Chg w s0 u := by
  unfold execRxDb
  intro u ht
  rw [← Host.Outcome.next.inj ht]
  exact State.anyDoorbell_chg hw.up hs

theorem execHifTxStart_chg {t : Nat} {lens : List Nat} {eop : Bool} {b : List Byte} {under : Bool} {ready : List Nat} {bus : Option Nat} (hw : Within [.regs, .tbl, .msix, .lrn, .bsn, .meters, .egr, .fre, .fgd, .had, .hif, .cfl, .vlt, .auth, .twn, .tim, .pwr, .mgs, .svc, .inj, .out, .free] w) (hs : Chg w s0 s) : ∀ u, execHifTxStart t lens eop b under s ready bus = .next u → Chg w s0 u := by
  unfold execHifTxStart
  intro u ht
  rw [← Host.Outcome.next.inj ht]
  exact State.settle_chg hw.up (State.hifTx_chg hw.up hs)

theorem execRxDescComplete_chg {r : Nat} {buf : Nat} {addr : Nat} (hw : Within [.regs, .msix, .bsn, .egr, .hif, .mgs, .svc, .out] w) (hs : Chg w s0 s) : ∀ u, execRxDescComplete r buf s addr = .next u → Chg w s0 u := by
  unfold execRxDescComplete
  intro u ht
  rw [← Host.Outcome.next.inj ht]
  exact State.rxComplete_chg hw.up hs

theorem execDmaError_chg {tx : Bool} {r : Nat} {err : Nat} {k : Nat} (hw : Within [.regs, .msix, .hif, .svc, .out, .free] w) (hs : Chg w s0 s) : ∀ u, execDmaError tx r err k s = .next u → Chg w s0 u := by
  unfold execDmaError
  intro u ht
  rw [← Host.Outcome.next.inj ht]
  exact State.dmaError_chg hw.up hs

theorem execMsixCoalTimer_chg {tx : Bool} {r : Nat} (hw : Within [.msix, .hif, .out] w) (hs : Chg w s0 s) : ∀ u, execMsixCoalTimer tx r s = .next u → Chg w s0 u := by
  unfold execMsixCoalTimer
  intro u ht
  rw [← Host.Outcome.next.inj ht]
  exact State.ringSignal_chg hw.up hs

theorem execMsixUnmask_chg {reqs : List (Bool × Nat × Nat × BitVec 64)} {func : Bool} (hw : Within [.regs, .fences, .msix, .hif, .mgs, .out] w) (hs : Chg w s0 s) : ∀ u, execMsixUnmask reqs func s = .next u → Chg w s0 u := by
  unfold execMsixUnmask
  intro u ht
  rw [← Host.Outcome.next.inj ht]
  exact State.msixMask_chg hw.up hs

theorem execPcieReset_chg (hw : Within [.regs, .msix, .bsn, .hif, .out] w) (hs : Chg w s0 s) : ∀ u, execPcieReset s = .next u → Chg w s0 u := by
  unfold execPcieReset
  intro u ht
  rw [← Host.Outcome.next.inj ht]
  exact State.pcieReset_chg hw.up hs

theorem execLockstepMismatch_chg (hw : Within [.regs, .slots, .msix, .vlt, .auth, .mgs, .svc, .out] w) (hs : Chg w s0 s) : ∀ u, execLockstepMismatch s = .next u → Chg w s0 u := by
  unfold execLockstepMismatch
  intro u ht
  rw [← Host.Outcome.next.inj ht]
  exact State.mgsCrash_chg hw.up hs

theorem execWatchdogExpire_chg (hw : Within [.regs, .slots, .msix, .vlt, .auth, .mgs, .svc, .out] w) (hs : Chg w s0 s) : ∀ u, execWatchdogExpire s = .next u → Chg w s0 u := by
  unfold execWatchdogExpire
  intro u ht
  rw [← Host.Outcome.next.inj ht]
  exact State.mgsCrash_chg hw.up hs

theorem execMgsRestartDone_chg (hw : Within [.regs, .slots, .tbl, .msix, .lrn, .bsn, .meters, .egr, .fre, .fgd, .had, .cfl, .vlt, .auth, .twn, .tim, .mgs, .svc, .inj, .out, .free] w) (hs : Chg w s0 s) : ∀ u, execMgsRestartDone s = .next u → Chg w s0 u := by
  unfold execMgsRestartDone
  intro u ht
  rw [← Host.Outcome.next.inj ht]
  exact State.settle_chg hw.up (State.mgsRestarted_chg hw.up hs)

theorem execInfo_chg {m : Nat} (hw : Within [.regs, .slots, .fences, .msix, .hif, .vlt, .auth, .mgs, .svc, .out] w) (hs : Chg w s0 s) : ∀ u, execInfo m s = .next u → Chg w s0 u := by
  unfold execInfo
  intro u ht
  rw [← Host.Outcome.next.inj ht]
  exact State.mgsWrite_chg hw.up hs

theorem execJournalSave_chg {m : Nat} (hw : Within [.regs, .slots, .fences, .msix, .hif, .vlt, .auth, .mgs, .svc, .out] w) (hs : Chg w s0 s) : ∀ u, execJournalSave m s = .next u → Chg w s0 u := by
  unfold execJournalSave
  intro u ht
  rw [← Host.Outcome.next.inj ht]
  exact State.mgsWrite_chg hw.up hs

theorem execJournalSync_chg {m : Nat} (hw : Within [.regs, .slots, .fences, .msix, .hif, .vlt, .auth, .mgs, .svc, .out] w) (hs : Chg w s0 s) : ∀ u, execJournalSync m s = .next u → Chg w s0 u := by
  unfold execJournalSync
  intro u ht
  rw [← Host.Outcome.next.inj ht]
  exact State.mgsWrite_chg hw.up hs

theorem execAuthorise_chg {m : Nat} (hw : Within [.regs, .slots, .fences, .tbl, .msix, .lrn, .bsn, .meters, .egr, .fre, .fgd, .had, .hif, .cfl, .vlt, .auth, .twn, .tim, .mgs, .svc, .inj, .out, .free] w) (hs : Chg w s0 s) : ∀ u, execAuthorise m s = .next u → Chg w s0 u := by
  unfold execAuthorise
  intro u ht
  rw [← Host.Outcome.next.inj ht]
  exact State.settle_chg hw.up (State.mgsWrite_chg hw.up hs)

theorem execUnborUnlock_chg {m : Nat} (hw : Within [.regs, .slots, .fences, .msix, .hif, .vlt, .auth, .mgs, .svc, .out] w) (hs : Chg w s0 s) : ∀ u, execUnborUnlock m s = .next u → Chg w s0 u := by
  unfold execUnborUnlock
  intro u ht
  rw [← Host.Outcome.next.inj ht]
  exact State.mgsAuth_chg hw.up hs

theorem execHeadEnrol_chg {m : Nat} (hw : Within [.regs, .slots, .fences, .tbl, .msix, .lrn, .bsn, .meters, .egr, .fre, .fgd, .had, .hif, .cfl, .vlt, .auth, .twn, .tim, .mgs, .svc, .inj, .out, .free] w) (hs : Chg w s0 s) : ∀ u, execHeadEnrol m s = .next u → Chg w s0 u := by
  unfold execHeadEnrol
  intro u ht
  rw [← Host.Outcome.next.inj ht]
  exact State.settle_chg hw.up (State.mgsAuth_chg hw.up hs)

theorem execHeadRetire_chg {m : Nat} (hw : Within [.regs, .slots, .fences, .tbl, .msix, .lrn, .bsn, .meters, .egr, .fre, .fgd, .had, .hif, .cfl, .vlt, .auth, .twn, .tim, .mgs, .svc, .inj, .out, .free] w) (hs : Chg w s0 s) : ∀ u, execHeadRetire m s = .next u → Chg w s0 u := by
  unfold execHeadRetire
  intro u ht
  rw [← Host.Outcome.next.inj ht]
  exact State.settle_chg hw.up (State.mgsAuth_chg hw.up hs)

theorem execRosterAdd_chg {m : Nat} (hw : Within [.regs, .slots, .fences, .msix, .hif, .vlt, .auth, .mgs, .svc, .out] w) (hs : Chg w s0 s) : ∀ u, execRosterAdd m s = .next u → Chg w s0 u := by
  unfold execRosterAdd
  intro u ht
  rw [← Host.Outcome.next.inj ht]
  exact State.mgsAuth_chg hw.up hs

theorem execRosterRemove_chg {m : Nat} (hw : Within [.regs, .slots, .fences, .msix, .hif, .vlt, .auth, .mgs, .svc, .out] w) (hs : Chg w s0 s) : ∀ u, execRosterRemove m s = .next u → Chg w s0 u := by
  unfold execRosterRemove
  intro u ht
  rw [← Host.Outcome.next.inj ht]
  exact State.mgsAuth_chg hw.up hs

theorem execRosterReplace_chg {m : Nat} (hw : Within [.regs, .slots, .fences, .msix, .hif, .vlt, .auth, .mgs, .svc, .out] w) (hs : Chg w s0 s) : ∀ u, execRosterReplace m s = .next u → Chg w s0 u := by
  unfold execRosterReplace
  intro u ht
  rw [← Host.Outcome.next.inj ht]
  exact State.mgsAuth_chg hw.up hs

theorem execLogCheckpoint_chg {m : Nat} (hw : Within [.regs, .slots, .fences, .msix, .hif, .vlt, .auth, .mgs, .svc, .out] w) (hs : Chg w s0 s) : ∀ u, execLogCheckpoint m s = .next u → Chg w s0 u := by
  unfold execLogCheckpoint
  intro u ht
  rw [← Host.Outcome.next.inj ht]
  exact State.mgsWrite_chg hw.up hs

theorem execLogFlush_chg {m : Nat} (hw : Within [.regs, .slots, .fences, .msix, .hif, .vlt, .auth, .mgs, .svc, .out] w) (hs : Chg w s0 s) : ∀ u, execLogFlush m s = .next u → Chg w s0 u := by
  unfold execLogFlush
  intro u ht
  rw [← Host.Outcome.next.inj ht]
  exact State.mgsWrite_chg hw.up hs

theorem execSecAck_chg {m : Nat} (hw : Within [.regs, .slots, .fences, .msix, .hif, .vlt, .auth, .mgs, .svc, .out] w) (hs : Chg w s0 s) : ∀ u, execSecAck m s = .next u → Chg w s0 u := by
  unfold execSecAck
  intro u ht
  rw [← Host.Outcome.next.inj ht]
  exact State.mgsWrite_chg hw.up hs

theorem execRestart_chg {m : Nat} (hw : Within [.regs, .slots, .fences, .msix, .hif, .vlt, .auth, .mgs, .svc, .out] w) (hs : Chg w s0 s) : ∀ u, execRestart m s = .next u → Chg w s0 u := by
  unfold execRestart
  intro u ht
  rw [← Host.Outcome.next.inj ht]
  exact State.mgsWrite_chg hw.up hs

theorem execMarginRun_chg {m : Nat} (hw : Within [.regs, .slots, .fences, .msix, .hif, .vlt, .auth, .mgs, .svc, .out] w) (hs : Chg w s0 s) : ∀ u, execMarginRun m s = .next u → Chg w s0 u := by
  unfold execMarginRun
  intro u ht
  rw [← Host.Outcome.next.inj ht]
  exact State.mgsWrite_chg hw.up hs

theorem execSetIds_chg {m : Nat} (hw : Within [.regs, .slots, .fences, .msix, .hif, .vlt, .auth, .mgs, .svc, .out] w) (hs : Chg w s0 s) : ∀ u, execSetIds m s = .next u → Chg w s0 u := by
  unfold execSetIds
  intro u ht
  rw [← Host.Outcome.next.inj ht]
  exact State.mgsWrite_chg hw.up hs

theorem execUnborLock_chg {m : Nat} (hw : Within [.regs, .slots, .fences, .msix, .hif, .vlt, .auth, .mgs, .svc, .out] w) (hs : Chg w s0 s) : ∀ u, execUnborLock m s = .next u → Chg w s0 u := by
  unfold execUnborLock
  intro u ht
  rw [← Host.Outcome.next.inj ht]
  exact State.mgsWrite_chg hw.up hs

theorem execJournalCommitRecord_chg {remap : List Nat} (hw : Within [.regs, .slots, .msix, .mgs, .svc, .out] w) (hs : Chg w s0 s) : ∀ u, execJournalCommitRecord s remap = .next u → Chg w s0 u := by
  unfold execJournalCommitRecord
  intro u ht
  rw [← Host.Outcome.next.inj ht]
  exact State.mramRemap_chg hw.up (State.commitRecord_chg hw.up hs)

theorem execJournalCompact_chg (hw : Within [.mgs] w) (hs : Chg w s0 s) : ∀ u, execJournalCompact s = .next u → Chg w s0 u := by
  unfold execJournalCompact
  intro u ht
  rw [← Host.Outcome.next.inj ht]
  exact State.compact_chg hw.up hs

theorem execEventLogWrite_chg {remap : List Nat} (hw : Within [.regs, .msix, .mgs, .out] w) (hs : Chg w s0 s) : ∀ u, execEventLogWrite s remap = .next u → Chg w s0 u := by
  unfold execEventLogWrite
  intro u ht
  rw [← Host.Outcome.next.inj ht]
  exact State.mramRemap_chg hw.up (State.logFront_chg hw.up hs)

theorem execSuppressed_chg (hw : Within [.regs, .msix, .mgs, .out] w) (hs : Chg w s0 s) : ∀ u, execSuppressed s = .next u → Chg w s0 u := by
  unfold execSuppressed
  intro u ht
  rw [← Host.Outcome.next.inj ht]
  exact State.suppressed_chg hw.up hs

theorem execSensorSample_chg {vals : List Nat} (hw : Within [.regs, .msix, .mgs, .out] w) (hs : Chg w s0 s) : ∀ u, execSensorSample vals s = .next u → Chg w s0 u := by
  unfold execSensorSample
  intro u ht
  rw [← Host.Outcome.next.inj ht]
  exact State.sensorSample_chg hw.up hs

theorem execBegin_chg {m : Nat} (hw : Within [.regs, .slots, .fences, .msix, .hif, .vlt, .auth, .mgs, .svc, .out] w) (hs : Chg w s0 s) : ∀ u, execBegin m s = .next u → Chg w s0 u := by
  unfold execBegin
  intro u ht
  rw [← Host.Outcome.next.inj ht]
  exact State.updWriteCmd_chg hw.up hs

theorem execUpdWrite_chg {m : Nat} (hw : Within [.regs, .slots, .fences, .msix, .hif, .vlt, .auth, .mgs, .svc, .out] w) (hs : Chg w s0 s) : ∀ u, execUpdWrite m s = .next u → Chg w s0 u := by
  unfold execUpdWrite
  intro u ht
  rw [← Host.Outcome.next.inj ht]
  exact State.updWriteCmd_chg hw.up hs

theorem execFinish_chg {m : Nat} (hw : Within [.regs, .slots, .fences, .msix, .hif, .vlt, .auth, .mgs, .svc, .out] w) (hs : Chg w s0 s) : ∀ u, execFinish m s = .next u → Chg w s0 u := by
  unfold execFinish
  intro u ht
  rw [← Host.Outcome.next.inj ht]
  exact State.updWriteCmd_chg hw.up hs

theorem execActivate_chg {m : Nat} (hw : Within [.regs, .slots, .fences, .msix, .hif, .vlt, .auth, .mgs, .svc, .out] w) (hs : Chg w s0 s) : ∀ u, execActivate m s = .next u → Chg w s0 u := by
  unfold execActivate
  intro u ht
  rw [← Host.Outcome.next.inj ht]
  exact State.updWriteCmd_chg hw.up hs

theorem execConfirm_chg {m : Nat} (hw : Within [.regs, .slots, .fences, .msix, .hif, .vlt, .auth, .mgs, .svc, .out] w) (hs : Chg w s0 s) : ∀ u, execConfirm m s = .next u → Chg w s0 u := by
  unfold execConfirm
  intro u ht
  rw [← Host.Outcome.next.inj ht]
  exact State.updWriteCmd_chg hw.up hs

theorem execAbort_chg {m : Nat} (hw : Within [.regs, .slots, .fences, .msix, .hif, .vlt, .auth, .mgs, .svc, .out] w) (hs : Chg w s0 s) : ∀ u, execAbort m s = .next u → Chg w s0 u := by
  unfold execAbort
  intro u ht
  rw [← Host.Outcome.next.inj ht]
  exact State.updWriteCmd_chg hw.up hs

theorem execUpdTrialExpire_chg (hw : Within [.regs, .slots, .msix, .vlt, .auth, .mgs, .svc, .out] w) (hs : Chg w s0 s) : ∀ u, execUpdTrialExpire s = .next u → Chg w s0 u := by
  unfold execUpdTrialExpire
  intro u ht
  rw [← Host.Outcome.next.inj ht]
  exact State.trialExpire_chg hw.up hs

theorem execMarginPeriod_chg (hw : Within [.mgs] w) (hs : Chg w s0 s) : ∀ u, execMarginPeriod s = .next u → Chg w s0 u := by
  unfold execMarginPeriod
  intro u ht
  rw [← Host.Outcome.next.inj ht]
  exact State.marginPeriod_chg hw.up hs

theorem execMarginRunDone_chg {taps : List Nat} {rx : List Nat} {age : List Nat} {replica : List Nat} {sram : Nat} {eye : List Nat} {wear : List Nat} {loss : Nat} {vmin : Nat} {short : Bool} {pulse : Nat} {months : Nat} (hw : Within [.regs, .slots, .msix, .ept, .mgs, .svc, .out] w) (hs : Chg w s0 s) : ∀ u, execMarginRunDone taps rx age replica sram eye wear loss vmin short s pulse months = .next u → Chg w s0 u := by
  unfold execMarginRunDone
  intro u ht
  rw [← Host.Outcome.next.inj ht]
  exact State.planDone_chg hw.up hs

theorem execAvsStep_chg (hw : Within [.regs, .out] w) (hs : Chg w s0 s) : ∀ u, execAvsStep s = .next u → Chg w s0 u := by
  unfold execAvsStep
  intro u ht
  rw [← Host.Outcome.next.inj ht]
  exact State.avsStep_chg hw.up hs

theorem execPfcCntWrite_chg {m : Nat} {i : Nat} {hi : Bool} {v : Word} (hw : Within [.regs, .fences, .msix, .hif, .mgs, .out] w) (hs : Chg w s0 s) : ∀ u, execPfcCntWrite m i hi v s = .next u → Chg w s0 u := by
  unfold execPfcCntWrite
  intro u ht
  rw [← Host.Outcome.next.inj ht]
  exact State.access_chg hw.up hs (fun x1 h2 => State.pfcWrite_chg hw.up h2)

theorem execGpioEdge_chg {n : Nat} {level : Bool} (hw : Within [.regs, .msix, .out] w) (hs : Chg w s0 s) : ∀ u, execGpioEdge n level s = .next u → Chg w s0 u := by
  unfold execGpioEdge
  intro u ht
  rw [← Host.Outcome.next.inj ht]
  exact State.gpioEdge_chg hw.up hs

theorem execGpiOutWrite_chg {m : Nat} {v : Word} (hw : Within [.regs, .fences, .msix, .hif, .mgs, .out] w) (hs : Chg w s0 s) : ∀ u, execGpiOutWrite m v s = .next u → Chg w s0 u := by
  unfold execGpiOutWrite
  intro u ht
  rw [← Host.Outcome.next.inj ht]
  exact State.access_chg hw.up hs (fun x1 h2 => State.gpioWrite_chg hw.up h2)

theorem execRegWrite_chg {m : Nat} {a : Nat} {v : Word} {full : Bool} {core : Nat} (hw : Within [.regs, .slots, .fences, .holds, .snaps, .tbl, .stage, .commitQ, .commits, .msix, .resets, .lrn, .bsn, .meters, .egr, .slu, .bud, .fre, .fgd, .had, .ept, .hif, .can, .lin, .cfl, .vlt, .auth, .twn, .tim, .pwr, .mgs, .svc, .inj, .out, .free] w) (hs : Chg w s0 s) : ∀ u, execRegWrite m a v full core s = .next u → Chg w s0 u := by
  unfold execRegWrite
  intro u ht
  rw [← Host.Outcome.next.inj ht]
  exact State.settle_chg hw.up (State.anyWrite_chg hw.up hs)

theorem execSoftRst_chg {m : Nat} {pg : Nat} (hw : Within [.regs, .slots, .fences, .holds, .snaps, .tbl, .stage, .commitQ, .commits, .msix, .resets, .lrn, .bsn, .meters, .egr, .slu, .bud, .fre, .fgd, .had, .ept, .hif, .can, .lin, .cfl, .vlt, .auth, .twn, .tim, .pwr, .mgs, .svc, .inj, .out, .free] w) (hs : Chg w s0 s) : ∀ u, execSoftRst m pg s = .next u → Chg w s0 u := by
  unfold execSoftRst
  intro u ht
  rw [← Host.Outcome.next.inj ht]
  exact State.settle_chg hw.up (State.hdrAccess_chg hw.up hs (fun x1 h2 => State.blkCtrlWrite_chg hw.up h2))

theorem execSoftRstDone_chg {pg : Nat} (hw : Within [.regs, .resets] w) (hs : Chg w s0 s) : ∀ u, execSoftRstDone pg s = .next u → Chg w s0 u := by
  unfold execSoftRstDone
  intro u ht
  rw [← Host.Outcome.next.inj ht]
  exact State.softRstDone_chg hw.up hs

theorem execQuiesceReq_chg {m : Nat} {pg : Nat} {v : Word} (hw : Within [.regs, .slots, .fences, .holds, .snaps, .tbl, .stage, .commitQ, .commits, .msix, .resets, .lrn, .bsn, .meters, .egr, .slu, .bud, .fre, .fgd, .had, .ept, .hif, .can, .lin, .cfl, .vlt, .auth, .twn, .tim, .pwr, .mgs, .svc, .inj, .out, .free] w) (hs : Chg w s0 s) : ∀ u, execQuiesceReq m pg v s = .next u → Chg w s0 u := by
  unfold execQuiesceReq
  intro u ht
  rw [← Host.Outcome.next.inj ht]
  exact State.settle_chg hw.up (State.hdrAccess_chg hw.up hs (fun x1 h2 => State.blkCtrlWrite_chg hw.up h2))

theorem execQuiesced_chg {pg : Nat} (hw : Within [.regs, .pwr] w) (hs : Chg w s0 s) : ∀ u, execQuiesced pg s = .next u → Chg w s0 u := by
  unfold execQuiesced
  intro u ht
  rw [← Host.Outcome.next.inj ht]
  exact State.quiesced_chg hw.up hs

theorem execEptEnable_chg {m : Nat} {p : Nat} {v : Word} (hw : Within [.regs, .slots, .fences, .holds, .snaps, .tbl, .stage, .commitQ, .commits, .msix, .resets, .lrn, .bsn, .meters, .egr, .slu, .bud, .fre, .fgd, .had, .ept, .hif, .can, .lin, .cfl, .vlt, .auth, .twn, .tim, .pwr, .mgs, .svc, .inj, .out, .free] w) (hs : Chg w s0 s) : ∀ u, execEptEnable m p v s = .next u → Chg w s0 u := by
  unfold execEptEnable
  intro u ht
  rw [← Host.Outcome.next.inj ht]
  exact State.settle_chg hw.up (State.access_chg hw.up hs (fun x1 h2 => State.blkCtrlWrite_chg hw.up h2))

theorem execCanEnable_chg {m : Nat} {c : Nat} {v : Word} (hw : Within [.regs, .slots, .fences, .holds, .snaps, .tbl, .stage, .commitQ, .commits, .msix, .resets, .lrn, .bsn, .meters, .egr, .slu, .bud, .fre, .fgd, .had, .ept, .hif, .can, .lin, .cfl, .vlt, .auth, .twn, .tim, .pwr, .mgs, .svc, .inj, .out, .free] w) (hs : Chg w s0 s) : ∀ u, execCanEnable m c v s = .next u → Chg w s0 u := by
  unfold execCanEnable
  intro u ht
  rw [← Host.Outcome.next.inj ht]
  exact State.settle_chg hw.up (State.access_chg hw.up hs (fun x1 h2 => State.blkCtrlWrite_chg hw.up h2))

theorem execLinEnable_chg {m : Nat} {l : Nat} {v : Word} (hw : Within [.regs, .slots, .fences, .holds, .snaps, .tbl, .stage, .commitQ, .commits, .msix, .resets, .lrn, .bsn, .meters, .egr, .slu, .bud, .fre, .fgd, .had, .ept, .hif, .can, .lin, .cfl, .vlt, .auth, .twn, .tim, .pwr, .mgs, .svc, .inj, .out, .free] w) (hs : Chg w s0 s) : ∀ u, execLinEnable m l v s = .next u → Chg w s0 u := by
  unfold execLinEnable
  intro u ht
  rw [← Host.Outcome.next.inj ht]
  exact State.settle_chg hw.up (State.access_chg hw.up hs (fun x1 h2 => State.blkCtrlWrite_chg hw.up h2))

theorem execCflEnable_chg {m : Nat} {v : Word} (hw : Within [.regs, .slots, .fences, .holds, .snaps, .tbl, .stage, .commitQ, .commits, .msix, .resets, .lrn, .bsn, .meters, .egr, .slu, .bud, .fre, .fgd, .had, .ept, .hif, .can, .lin, .cfl, .vlt, .auth, .twn, .tim, .pwr, .mgs, .svc, .inj, .out, .free] w) (hs : Chg w s0 s) : ∀ u, execCflEnable m v s = .next u → Chg w s0 u := by
  unfold execCflEnable
  intro u ht
  rw [← Host.Outcome.next.inj ht]
  exact State.settle_chg hw.up (State.access_chg hw.up hs (fun x1 h2 => State.blkCtrlWrite_chg hw.up h2))

theorem execPwrCmdDormant_chg {m : Nat} (hw : Within [.regs, .fences, .tbl, .msix, .lrn, .bsn, .meters, .egr, .bud, .fre, .fgd, .had, .ept, .hif, .lin, .cfl, .vlt, .auth, .twn, .tim, .pwr, .mgs, .inj, .out, .free] w) (hs : Chg w s0 s) : ∀ u, execPwrCmdDormant m s = .next u → Chg w s0 u := by
  unfold execPwrCmdDormant
  intro u ht
  rw [← Host.Outcome.next.inj ht]
  exact State.settle_chg hw.up (State.pwrWrite_chg hw.up hs)

theorem execPwrCmdSelective_chg {m : Nat} (hw : Within [.regs, .fences, .tbl, .msix, .lrn, .bsn, .meters, .egr, .bud, .fre, .fgd, .had, .ept, .hif, .lin, .cfl, .vlt, .auth, .twn, .tim, .pwr, .mgs, .inj, .out, .free] w) (hs : Chg w s0 s) : ∀ u, execPwrCmdSelective m s = .next u → Chg w s0 u := by
  unfold execPwrCmdSelective
  intro u ht
  rw [← Host.Outcome.next.inj ht]
  exact State.settle_chg hw.up (State.pwrWrite_chg hw.up hs)

theorem execPwrCmdMgsOnly_chg {m : Nat} (hw : Within [.regs, .fences, .tbl, .msix, .lrn, .bsn, .meters, .egr, .bud, .fre, .fgd, .had, .ept, .hif, .lin, .cfl, .vlt, .auth, .twn, .tim, .pwr, .mgs, .inj, .out, .free] w) (hs : Chg w s0 s) : ∀ u, execPwrCmdMgsOnly m s = .next u → Chg w s0 u := by
  unfold execPwrCmdMgsOnly
  intro u ht
  rw [← Host.Outcome.next.inj ht]
  exact State.settle_chg hw.up (State.pwrWrite_chg hw.up hs)

theorem execPwrCmdPartial_chg {m : Nat} (hw : Within [.regs, .fences, .tbl, .msix, .lrn, .bsn, .meters, .egr, .bud, .fre, .fgd, .had, .ept, .hif, .lin, .cfl, .vlt, .auth, .twn, .tim, .pwr, .mgs, .inj, .out, .free] w) (hs : Chg w s0 s) : ∀ u, execPwrCmdPartial m s = .next u → Chg w s0 u := by
  unfold execPwrCmdPartial
  intro u ht
  rw [← Host.Outcome.next.inj ht]
  exact State.settle_chg hw.up (State.pwrWrite_chg hw.up hs)

theorem execPwrCmdFull_chg {m : Nat} (hw : Within [.regs, .fences, .tbl, .msix, .lrn, .bsn, .meters, .egr, .bud, .fre, .fgd, .had, .ept, .hif, .lin, .cfl, .vlt, .auth, .twn, .tim, .pwr, .mgs, .inj, .out, .free] w) (hs : Chg w s0 s) : ∀ u, execPwrCmdFull m s = .next u → Chg w s0 u := by
  unfold execPwrCmdFull
  intro u ht
  rw [← Host.Outcome.next.inj ht]
  exact State.settle_chg hw.up (State.pwrWrite_chg hw.up hs)

theorem execTransDone_chg (hw : Within [.regs, .slots, .fences, .holds, .snaps, .tbl, .stage, .commitQ, .commits, .msix, .resets, .lrn, .bsn, .meters, .egr, .slu, .bud, .fre, .fgd, .had, .ept, .hif, .can, .lin, .cfl, .vlt, .auth, .twn, .tim, .pwr, .mgs, .svc, .inj, .out, .free] w) (hs : Chg w s0 s) : ∀ u, execTransDone s = .next u → Chg w s0 u := by
  unfold execTransDone
  intro u ht
  rw [← Host.Outcome.next.inj ht]
  exact State.settle_chg hw.up (State.transDone_chg hw.up hs)

theorem execTransAbort_chg (hw : Within [.regs, .tbl, .msix, .lrn, .bsn, .meters, .egr, .bud, .fre, .fgd, .had, .ept, .lin, .cfl, .vlt, .auth, .twn, .tim, .pwr, .mgs, .inj, .out, .free] w) (hs : Chg w s0 s) : ∀ u, execTransAbort s = .next u → Chg w s0 u := by
  unfold execTransAbort
  intro u ht
  rw [← Host.Outcome.next.inj ht]
  exact State.settle_chg hw.up (State.transAbort_chg hw.up hs)

theorem execMemberSilent_chg {k : Nat} (hw : Within [.pwr] w) (hs : Chg w s0 s) : ∀ u, execMemberSilent k s = .next u → Chg w s0 u := by
  unfold execMemberSilent
  intro u ht
  rw [← Host.Outcome.next.inj ht]
  exact State.memberSilent_chg hw.up hs

theorem execSleepPoint_chg (hw : Within [.regs, .slots, .snaps, .msix, .bsn, .egr, .fgd, .ept, .can, .pwr, .mgs, .svc, .out] w) (hs : Chg w s0 s) : ∀ u, execSleepPoint s = .next u → Chg w s0 u := by
  unfold execSleepPoint
  intro u ht
  rw [← Host.Outcome.next.inj ht]
  exact State.sleepPoint_chg hw.up hs

theorem execSleepFail_chg (hw : Within [.regs, .tbl, .msix, .lrn, .bsn, .meters, .egr, .bud, .fre, .fgd, .had, .ept, .lin, .cfl, .vlt, .auth, .twn, .tim, .pwr, .mgs, .inj, .out, .free] w) (hs : Chg w s0 s) : ∀ u, execSleepFail s = .next u → Chg w s0 u := by
  unfold execSleepFail
  intro u ht
  rw [← Host.Outcome.next.inj ht]
  exact State.settle_chg hw.up (State.sleepFail_chg hw.up hs)

theorem execInhRelease_chg (hw : Within [.pwr, .out] w) (hs : Chg w s0 s) : ∀ u, execInhRelease s = .next u → Chg w s0 u := by
  unfold execInhRelease
  intro u ht
  rw [← Host.Outcome.next.inj ht]
  exact State.inhDown_chg hw.up hs

theorem execSwitchesOpen_chg (hw : Within [.regs, .slots, .fences, .holds, .snaps, .tbl, .stage, .commitQ, .commits, .msix, .resets, .lrn, .bsn, .meters, .egr, .slu, .bud, .fre, .fgd, .had, .ept, .hif, .can, .lin, .cfl, .vlt, .auth, .twn, .tim, .pwr, .mgs, .svc, .inj, .out, .free] w) (hs : Chg w s0 s) : ∀ u, execSwitchesOpen s = .next u → Chg w s0 u := by
  unfold execSwitchesOpen
  intro u ht
  rw [← Host.Outcome.next.inj ht]
  exact State.switchesOpen_chg hw.up hs

theorem execWakeLatch_chg {k : Nat} {n : Nat} (hw : Within [.regs, .tbl, .msix, .lrn, .bsn, .meters, .egr, .bud, .fre, .fgd, .had, .ept, .lin, .cfl, .vlt, .auth, .twn, .tim, .pwr, .mgs, .inj, .out, .free] w) (hs : Chg w s0 s) : ∀ u, execWakeLatch k n s = .next u → Chg w s0 u := by
  unfold execWakeLatch
  intro u ht
  rw [← Host.Outcome.next.inj ht]
  exact State.settle_chg hw.up (State.wakeLatch_chg hw.up hs)

theorem execSwFrameMatch_chg {c : Nat} {id : Nat} {ide : Bool} {rtr : Bool} {dlc : Nat} {data : List Byte} {n : Nat} {corr : Int} (hw : Within [.regs, .tbl, .msix, .lrn, .bsn, .meters, .egr, .bud, .fre, .fgd, .had, .ept, .lin, .cfl, .vlt, .auth, .twn, .tim, .pwr, .mgs, .inj, .out, .free] w) (hs : Chg w s0 s) : ∀ u, execSwFrameMatch c id ide rtr dlc data n corr s = .next u → Chg w s0 u := by
  unfold execSwFrameMatch
  intro u ht
  rw [← Host.Outcome.next.inj ht]
  exact State.settle_chg hw.up (State.swFrame_chg hw.up hs)

theorem execSwDecodeError_chg {c : Nat} {fd : Bool} {n : Nat} (hw : Within [.regs, .tbl, .msix, .lrn, .bsn, .meters, .egr, .bud, .fre, .fgd, .had, .ept, .lin, .cfl, .vlt, .auth, .twn, .tim, .pwr, .mgs, .inj, .out, .free] w) (hs : Chg w s0 s) : ∀ u, execSwDecodeError c fd n s = .next u → Chg w s0 u := by
  unfold execSwDecodeError
  intro u ht
  rw [← Host.Outcome.next.inj ht]
  exact State.settle_chg hw.up (State.swError_chg hw.up hs)

theorem execSwFrameDecoded_chg {c : Nat} {corr : Int} (hw : Within [.regs, .msix, .pwr, .mgs, .out] w) (hs : Chg w s0 s) : ∀ u, execSwFrameDecoded c corr s = .next u → Chg w s0 u := by
  unfold execSwFrameDecoded
  intro u ht
  rw [← Host.Outcome.next.inj ht]
  exact State.swDecoded_chg hw.up hs

theorem execAonTimerExpire_chg {n : Nat} (hw : Within [.regs, .msix, .bsn, .meters, .egr, .bud, .fre, .fgd, .had, .ept, .lin, .cfl, .vlt, .auth, .twn, .pwr, .mgs, .inj, .out, .free] w) (hs : Chg w s0 s) : ∀ u, execAonTimerExpire n s = .next u → Chg w s0 u := by
  unfold execAonTimerExpire
  intro u ht
  rw [← Host.Outcome.next.inj ht]
  exact State.wakeLatch_chg hw.up hs

theorem execMinOffEnd_chg (hw : Within [.regs, .pwr, .out] w) (hs : Chg w s0 s) : ∀ u, execMinOffEnd s = .next u → Chg w s0 u := by
  unfold execMinOffEnd
  intro u ht
  rw [← Host.Outcome.next.inj ht]
  exact State.minOffEnd_chg hw.up hs

theorem execPowerGood_chg {ddr : Bool} (hw : Within [.regs, .msix, .pwr, .mgs, .out] w) (hs : Chg w s0 s) : ∀ u, execPowerGood s ddr = .next u → Chg w s0 u := by
  unfold execPowerGood
  intro u ht
  rw [← Host.Outcome.next.inj ht]
  exact State.powerGood_chg hw.up hs

theorem execPgTimeout_chg (hw : Within [.regs, .pwr] w) (hs : Chg w s0 s) : ∀ u, execPgTimeout s = .next u → Chg w s0 u := by
  unfold execPgTimeout
  intro u ht
  rw [← Host.Outcome.next.inj ht]
  exact State.pgTimeout_chg hw.up hs

theorem execXinaStable_chg {n : Nat} (hw : Within [.regs, .slots, .fences, .snaps, .tbl, .stage, .commitQ, .commits, .frcNs, .msix, .resets, .lrn, .bsn, .meters, .egr, .slu, .bud, .fre, .fgd, .had, .ept, .can, .lin, .cfl, .vlt, .auth, .twn, .tim, .pwr, .svc, .inj, .out] w) (hs : Chg w s0 s) : ∀ u, execXinaStable n s = .next u → Chg w s0 u := by
  unfold execXinaStable
  intro u ht
  rw [← Host.Outcome.next.inj ht]
  exact State.xinaGood_chg hw.up hs

theorem execXinaStartTimeout_chg (hw : Within [.regs, .msix, .mgs, .out] w) (hs : Chg w s0 s) : ∀ u, execXinaStartTimeout s = .next u → Chg w s0 u := by
  unfold execXinaStartTimeout
  intro u ht
  rw [← Host.Outcome.next.inj ht]
  exact State.xinaTimeout_chg hw.up hs

theorem execXinaLost_chg (hw : Within [.regs, .slots, .fences, .snaps, .tbl, .stage, .commitQ, .commits, .msix, .resets, .lrn, .bsn, .meters, .egr, .slu, .bud, .fre, .fgd, .had, .ept, .hif, .can, .lin, .cfl, .vlt, .auth, .twn, .tim, .pwr, .mgs, .svc, .inj, .out, .free] w) (hs : Chg w s0 s) : ∀ u, execXinaLost s = .next u → Chg w s0 u := by
  unfold execXinaLost
  intro u ht
  rw [← Host.Outcome.next.inj ht]
  exact State.xinaLost_chg hw.up hs

theorem execXinaRetry_chg {ok : Bool} {n : Nat} (hw : Within [.regs, .slots, .fences, .holds, .snaps, .tbl, .stage, .commitQ, .commits, .frcNs, .msix, .resets, .lrn, .bsn, .meters, .egr, .slu, .bud, .fre, .fgd, .had, .ept, .hif, .can, .lin, .cfl, .vlt, .auth, .twn, .tim, .pwr, .mgs, .svc, .inj, .out, .free] w) (hs : Chg w s0 s) : ∀ u, execXinaRetry ok n s = .next u → Chg w s0 u := by
  unfold execXinaRetry
  intro u ht
  rw [← Host.Outcome.next.inj ht]
  exact State.xinaRetry_chg hw.up hs

theorem execXinbStable_chg (hw : Within [.regs] w) (hs : Chg w s0 s) : ∀ u, execXinbStable s = .next u → Chg w s0 u := by
  unfold execXinbStable
  intro u ht
  rw [← Host.Outcome.next.inj ht]
  exact State.xinbStable_chg hw.up hs

theorem execPllUnlock_chg {k : Nat} (hw : Within [.regs, .slots, .fences, .snaps, .tbl, .stage, .commitQ, .commits, .msix, .resets, .lrn, .bsn, .meters, .egr, .slu, .bud, .fre, .fgd, .had, .ept, .hif, .can, .lin, .cfl, .vlt, .auth, .twn, .tim, .pwr, .mgs, .svc, .inj, .out, .free] w) (hs : Chg w s0 s) : ∀ u, execPllUnlock k s = .next u → Chg w s0 u := by
  unfold execPllUnlock
  intro u ht
  rw [← Host.Outcome.next.inj ht]
  exact State.pllUnlock_chg hw.up hs

theorem execPllLocked_chg {k : Nat} (hw : Within [.regs, .slots, .msix, .mgs, .svc, .out] w) (hs : Chg w s0 s) : ∀ u, execPllLocked k s = .next u → Chg w s0 u := by
  unfold execPllLocked
  intro u ht
  rw [← Host.Outcome.next.inj ht]
  exact State.pllLocked_chg hw.up hs

theorem execGate_chg {m : Nat} {v : Word} (hw : Within [.regs, .fences, .tbl, .msix, .lrn, .bsn, .meters, .egr, .bud, .fre, .fgd, .had, .ept, .hif, .can, .lin, .cfl, .vlt, .auth, .twn, .tim, .pwr, .mgs, .inj, .out, .free] w) (hs : Chg w s0 s) : ∀ u, execGate m v s = .next u → Chg w s0 u := by
  unfold execGate
  intro u ht
  rw [← Host.Outcome.next.inj ht]
  exact State.settle_chg hw.up (State.access_chg hw.up hs (fun x1 h2 => State.gateWrite_chg hw.up h2))

theorem execGateClose_chg {pg : Nat} (hw : Within [.regs, .msix, .pwr, .mgs, .out] w) (hs : Chg w s0 s) : ∀ u, execGateClose pg s = .next u → Chg w s0 u := by
  unfold execGateClose
  intro u ht
  rw [← Host.Outcome.next.inj ht]
  exact State.gateClose_chg hw.up hs

theorem execFalseWakeWindow_chg {k : Nat} (hw : Within [.regs, .msix, .pwr, .mgs, .out] w) (hs : Chg w s0 s) : ∀ u, execFalseWakeWindow k s = .next u → Chg w s0 u := by
  unfold execFalseWakeWindow
  intro u ht
  rw [← Host.Outcome.next.inj ht]
  exact State.falseWake_chg hw.up hs

theorem execWakeComplete_chg (hw : Within [.regs, .tbl, .msix, .lrn, .bsn, .meters, .egr, .bud, .fre, .fgd, .had, .ept, .lin, .cfl, .vlt, .auth, .twn, .tim, .pwr, .mgs, .inj, .out, .free] w) (hs : Chg w s0 s) : ∀ u, execWakeComplete s = .next u → Chg w s0 u := by
  unfold execWakeComplete
  intro u ht
  rw [← Host.Outcome.next.inj ht]
  exact State.settle_chg hw.up (State.wakeComplete_chg hw.up hs)

theorem execCheckpointRestore_chg {rest : Bool} {ok : Bool} (hw : Within [.regs, .slots, .fences, .holds, .snaps, .tbl, .stage, .commitQ, .commits, .msix, .resets, .lrn, .bsn, .meters, .egr, .slu, .bud, .fre, .fgd, .had, .ept, .hif, .can, .lin, .cfl, .vlt, .auth, .twn, .tim, .pwr, .mgs, .svc, .inj, .out, .free] w) (hs : Chg w s0 s) : ∀ u, execCheckpointRestore rest ok s = .next u → Chg w s0 u := by
  unfold execCheckpointRestore
  intro u ht
  rw [← Host.Outcome.next.inj ht]
  exact State.settle_chg hw.up (State.ckptRestore_chg hw.up hs)

theorem execPowerOnReset_chg (hw : Within [.regs, .slots, .fences, .holds, .snaps, .tbl, .stage, .commitQ, .commits, .frcNs, .frcFrac, .msix, .resets, .lrn, .bsn, .meters, .egr, .slu, .bud, .fre, .fgd, .had, .ept, .hif, .can, .lin, .cfl, .vlt, .auth, .twn, .tim, .pwr, .mgs, .svc, .inj, .out, .free] w) (hs : Chg w s0 s) : ∀ u, execPowerOnReset s = .next u → Chg w s0 u := by
  unfold execPowerOnReset
  intro u ht
  rw [← Host.Outcome.next.inj ht]
  exact State.powerOn_chg hw.up hs

theorem execBrownout_chg {ddr : Bool} (hw : Within [.regs, .slots, .fences, .holds, .snaps, .tbl, .stage, .commitQ, .commits, .msix, .resets, .lrn, .bsn, .meters, .egr, .slu, .bud, .fre, .fgd, .had, .ept, .hif, .can, .lin, .cfl, .vlt, .auth, .twn, .tim, .pwr, .mgs, .svc, .inj, .out, .free] w) (hs : Chg w s0 s) : ∀ u, execBrownout s ddr = .next u → Chg w s0 u := by
  unfold execBrownout
  intro u ht
  rw [← Host.Outcome.next.inj ht]
  exact State.brownOut_chg hw.up hs

theorem execResetN_chg (hw : Within [.regs, .slots, .fences, .holds, .snaps, .tbl, .stage, .commitQ, .commits, .msix, .resets, .lrn, .bsn, .meters, .egr, .slu, .bud, .fre, .fgd, .had, .ept, .hif, .can, .lin, .cfl, .vlt, .auth, .twn, .tim, .pwr, .mgs, .svc, .inj, .out, .free] w) (hs : Chg w s0 s) : ∀ u, execResetN s = .next u → Chg w s0 u := by
  unfold execResetN
  intro u ht
  rw [← Host.Outcome.next.inj ht]
  exact State.warmReset_chg hw.up hs

theorem execWarm_chg {m : Nat} (hw : Within [.regs, .slots, .fences, .holds, .snaps, .tbl, .stage, .commitQ, .commits, .msix, .resets, .lrn, .bsn, .meters, .egr, .slu, .bud, .fre, .fgd, .had, .ept, .hif, .can, .lin, .cfl, .vlt, .auth, .twn, .tim, .pwr, .mgs, .svc, .inj, .out, .free] w) (hs : Chg w s0 s) : ∀ u, execWarm m s = .next u → Chg w s0 u := by
  unfold execWarm
  intro u ht
  rw [← Host.Outcome.next.inj ht]
  exact State.access_chg hw.up hs (fun x1 h2 => State.warmCmd_chg hw.up h2)

theorem execBootVerifyDone_chg (hw : Within [.regs, .slots, .fences, .holds, .snaps, .tbl, .stage, .commitQ, .commits, .msix, .resets, .lrn, .bsn, .meters, .egr, .slu, .bud, .fre, .fgd, .had, .ept, .hif, .can, .lin, .cfl, .vlt, .auth, .twn, .tim, .pwr, .mgs, .svc, .inj, .out, .free] w) (hs : Chg w s0 s) : ∀ u, execBootVerifyDone s = .next u → Chg w s0 u := by
  unfold execBootVerifyDone
  intro u ht
  rw [← Host.Outcome.next.inj ht]
  exact State.settle_chg hw.up (State.bootDone_chg hw.up hs)

theorem execRestoreComplete_chg {bad : Option Nat} (hw : Within [.regs, .slots, .fences, .holds, .snaps, .tbl, .stage, .commitQ, .commits, .msix, .resets, .lrn, .bsn, .meters, .egr, .slu, .bud, .fre, .fgd, .had, .ept, .hif, .can, .lin, .cfl, .vlt, .auth, .twn, .tim, .pwr, .mgs, .svc, .inj, .out, .free] w) (hs : Chg w s0 s) : ∀ u, execRestoreComplete s bad = .next u → Chg w s0 u := by
  unfold execRestoreComplete
  intro u ht
  rw [← Host.Outcome.next.inj ht]
  exact State.settle_chg hw.up (State.restoreDone_chg hw.up hs)

theorem execCflRxItem_chg (hw : Within [.regs, .msix, .bsn, .egr, .ept, .cfl, .vlt, .auth, .twn, .tim, .pwr, .mgs, .inj, .out] w) (hs : Chg w s0 s) : ∀ u, execCflRxItem s = .next u → Chg w s0 u := by
  unfold execCflRxItem
  intro u ht
  rw [← Host.Outcome.next.inj ht]
  exact State.cflRx_chg hw.up hs

theorem execCflTimeout_chg {i : Nat} (hw : Within [.regs, .msix, .cfl, .twn, .mgs, .out] w) (hs : Chg w s0 s) : ∀ u, execCflTimeout i s = .next u → Chg w s0 u := by
  unfold execCflTimeout
  intro u ht
  rw [← Host.Outcome.next.inj ht]
  exact State.cflTimeout_chg hw.up hs

theorem execCflDeferredTx_chg {j : Nat} (hw : Within [.regs, .msix, .cfl, .twn, .mgs, .out] w) (hs : Chg w s0 s) : ∀ u, execCflDeferredTx j s = .next u → Chg w s0 u := by
  unfold execCflDeferredTx
  intro u ht
  rw [← Host.Outcome.next.inj ht]
  exact State.cflDeferred_chg hw.up hs

theorem execCflCyclicTx_chg {j : Nat} (hw : Within [.regs, .msix, .cfl, .twn, .mgs, .out] w) (hs : Chg w s0 s) : ∀ u, execCflCyclicTx j s = .next u → Chg w s0 u := by
  unfold execCflCyclicTx
  intro u ht
  rw [← Host.Outcome.next.inj ht]
  exact State.cflCyclic_chg hw.up hs

theorem execCflTunHold_chg {j : Nat} (hw : Within [.regs, .tbl, .msix, .lrn, .bsn, .meters, .egr, .fre, .fgd, .had, .cfl, .vlt, .auth, .twn, .tim, .mgs, .inj, .out, .free] w) (hs : Chg w s0 s) : ∀ u, execCflTunHold j s = .next u → Chg w s0 u := by
  unfold execCflTunHold
  intro u ht
  rw [← Host.Outcome.next.inj ht]
  exact State.settle_chg hw.up (State.cflHold_chg hw.up hs)

theorem execCflItemComplete_chg (hw : Within [.regs, .tbl, .msix, .lrn, .bsn, .meters, .egr, .fre, .fgd, .had, .cfl, .vlt, .auth, .twn, .tim, .mgs, .inj, .out, .free] w) (hs : Chg w s0 s) : ∀ u, execCflItemComplete s = .next u → Chg w s0 u := by
  unfold execCflItemComplete
  intro u ht
  rw [← Host.Outcome.next.inj ht]
  exact State.settle_chg hw.up (State.syncCapture_chg hw.up (State.cflDone_chg hw.up hs))

theorem execCounterReserve_chg (hw : Within [.regs, .tbl, .msix, .lrn, .bsn, .meters, .egr, .fre, .fgd, .had, .cfl, .vlt, .auth, .twn, .tim, .mgs, .inj, .out, .free] w) (hs : Chg w s0 s) : ∀ u, execCounterReserve s = .next u → Chg w s0 u := by
  unfold execCounterReserve
  intro u ht
  rw [← Host.Outcome.next.inj ht]
  exact State.settle_chg hw.up (State.counterReserve_chg hw.up hs)

theorem execHeartbeatTimer_chg (hw : Within [.regs, .tbl, .msix, .lrn, .bsn, .meters, .egr, .fre, .fgd, .had, .cfl, .vlt, .auth, .twn, .tim, .mgs, .inj, .out, .free] w) (hs : Chg w s0 s) : ∀ u, execHeartbeatTimer s = .next u → Chg w s0 u := by
  unfold execHeartbeatTimer
  intro u ht
  rw [← Host.Outcome.next.inj ht]
  exact State.settle_chg hw.up (State.hbSend_chg hw.up hs)

theorem execHeartbeatRx_chg {prefer : Bool} {b : List Byte} (hw : Within [.regs, .tbl, .msix, .lrn, .bsn, .meters, .egr, .fre, .fgd, .had, .cfl, .vlt, .auth, .twn, .tim, .mgs, .inj, .out, .free] w) (hs : Chg w s0 s) : ∀ u, execHeartbeatRx prefer b s = .next u → Chg w s0 u := by
  unfold execHeartbeatRx
  intro u ht
  rw [← Host.Outcome.next.inj ht]
  exact State.settle_chg hw.up (State.hbRx_chg hw.up hs)

theorem execHbEdge_chg (hw : Within [.regs, .tbl, .msix, .lrn, .bsn, .meters, .egr, .fre, .fgd, .had, .cfl, .vlt, .auth, .twn, .tim, .mgs, .inj, .out, .free] w) (hs : Chg w s0 s) : ∀ u, execHbEdge s = .next u → Chg w s0 u := by
  unfold execHbEdge
  intro u ht
  rw [← Host.Outcome.next.inj ht]
  exact State.settle_chg hw.up (State.hbEdge_chg hw.up hs)

theorem execHbMissed_chg (hw : Within [.regs, .msix, .twn, .mgs, .out] w) (hs : Chg w s0 s) : ∀ u, execHbMissed s = .next u → Chg w s0 u := by
  unfold execHbMissed
  intro u ht
  rw [← Host.Outcome.next.inj ht]
  exact State.hbMissed_chg hw.up hs

theorem execArbClaimTimer_chg (hw : Within [.out] w) (hs : Chg w s0 s) : ∀ u, execArbClaimTimer s = .next u → Chg w s0 u := by
  unfold execArbClaimTimer
  intro u ht
  rw [← Host.Outcome.next.inj ht]
  exact State.arbClaim_chg hw.up hs

theorem execArbClaimSeen_chg (hw : Within [.regs, .tbl, .msix, .lrn, .bsn, .meters, .egr, .fre, .fgd, .had, .cfl, .vlt, .auth, .twn, .tim, .mgs, .inj, .out, .free] w) (hs : Chg w s0 s) : ∀ u, execArbClaimSeen s = .next u → Chg w s0 u := by
  unfold execArbClaimSeen
  intro u ht
  rw [← Host.Outcome.next.inj ht]
  exact State.settle_chg hw.up (State.arbClaimSeen_chg hw.up hs)

theorem execArbPresencePulse_chg (hw : Within [.twn, .out] w) (hs : Chg w s0 s) : ∀ u, execArbPresencePulse s = .next u → Chg w s0 u := by
  unfold execArbPresencePulse
  intro u ht
  rw [← Host.Outcome.next.inj ht]
  exact State.arbPresence_chg hw.up hs

theorem execArbPresenceSeen_chg (hw : Within [.twn] w) (hs : Chg w s0 s) : ∀ u, execArbPresenceSeen s = .next u → Chg w s0 u := by
  unfold execArbPresenceSeen
  intro u ht
  rw [← Host.Outcome.next.inj ht]
  exact State.arbPresenceSeen_chg hw.up hs

theorem execTakeover_chg (hw : Within [.regs, .msix, .cfl, .twn, .mgs, .out] w) (hs : Chg w s0 s) : ∀ u, execTakeover s = .next u → Chg w s0 u := by
  unfold execTakeover
  intro u ht
  rw [← Host.Outcome.next.inj ht]
  exact State.takeover_chg hw.up hs

theorem execTwinStartWait_chg (hw : Within [.twn] w) (hs : Chg w s0 s) : ∀ u, execTwinStartWait s = .next u → Chg w s0 u := by
  unfold execTwinStartWait
  intro u ht
  rw [← Host.Outcome.next.inj ht]
  exact State.twinStartWait_chg hw.up hs

theorem execTwinStartTimeout_chg (hw : Within [.regs, .msix, .twn, .mgs, .out] w) (hs : Chg w s0 s) : ∀ u, execTwinStartTimeout s = .next u → Chg w s0 u := by
  unfold execTwinStartTimeout
  intro u ht
  rw [← Host.Outcome.next.inj ht]
  exact State.twinStartTimeout_chg hw.up hs

theorem execDigestSend_chg (hw : Within [.regs, .tbl, .msix, .lrn, .bsn, .meters, .egr, .fre, .fgd, .had, .cfl, .vlt, .auth, .twn, .tim, .mgs, .inj, .out, .free] w) (hs : Chg w s0 s) : ∀ u, execDigestSend s = .next u → Chg w s0 u := by
  unfold execDigestSend
  intro u ht
  rw [← Host.Outcome.next.inj ht]
  exact State.settle_chg hw.up (State.digestSend_chg hw.up hs)

theorem execDigestRx_chg {b : List Byte} (hw : Within [.regs, .tbl, .msix, .lrn, .bsn, .meters, .egr, .fre, .fgd, .had, .cfl, .vlt, .auth, .twn, .tim, .mgs, .inj, .out, .free] w) (hs : Chg w s0 s) : ∀ u, execDigestRx b s = .next u → Chg w s0 u := by
  unfold execDigestRx
  intro u ht
  rw [← Host.Outcome.next.inj ht]
  exact State.settle_chg hw.up (State.digestRx_chg hw.up hs)

theorem execDivergeRx_chg {b : List Byte} (hw : Within [.regs, .twn] w) (hs : Chg w s0 s) : ∀ u, execDivergeRx b s = .next u → Chg w s0 u := by
  unfold execDivergeRx
  intro u ht
  rw [← Host.Outcome.next.inj ht]
  exact State.divergeRx_chg hw.up hs

theorem execSelftestDone_chg {vectors : Bool} (hw : Within [.regs, .tbl, .msix, .lrn, .bsn, .meters, .egr, .fre, .fgd, .had, .cfl, .vlt, .auth, .twn, .tim, .mgs, .inj, .out, .free] w) (hs : Chg w s0 s) : ∀ u, execSelftestDone vectors s = .next u → Chg w s0 u := by
  unfold execSelftestDone
  intro u ht
  rw [← Host.Outcome.next.inj ht]
  exact State.settle_chg hw.up (State.selfDone_chg hw.up hs)

theorem execSelftestRx_chg {b : List Byte} (hw : Within [.regs, .tbl, .msix, .lrn, .bsn, .meters, .egr, .fre, .fgd, .had, .cfl, .vlt, .auth, .twn, .tim, .mgs, .inj, .out, .free] w) (hs : Chg w s0 s) : ∀ u, execSelftestRx b s = .next u → Chg w s0 u := by
  unfold execSelftestRx
  intro u ht
  rw [← Host.Outcome.next.inj ht]
  exact State.settle_chg hw.up (State.selfRx_chg hw.up hs)

theorem execSelftestTimeout_chg (hw : Within [.regs, .tbl, .msix, .lrn, .bsn, .meters, .egr, .fre, .fgd, .had, .cfl, .vlt, .auth, .twn, .tim, .mgs, .inj, .out, .free] w) (hs : Chg w s0 s) : ∀ u, execSelftestTimeout s = .next u → Chg w s0 u := by
  unfold execSelftestTimeout
  intro u ht
  rw [← Host.Outcome.next.inj ht]
  exact State.settle_chg hw.up (State.selfTimeout_chg hw.up hs)

theorem execRoleOfferRx_chg {b : List Byte} (hw : Within [.regs, .tbl, .msix, .lrn, .bsn, .meters, .egr, .fre, .fgd, .had, .cfl, .vlt, .auth, .twn, .tim, .mgs, .inj, .out, .free] w) (hs : Chg w s0 s) : ∀ u, execRoleOfferRx b s = .next u → Chg w s0 u := by
  unfold execRoleOfferRx
  intro u ht
  rw [← Host.Outcome.next.inj ht]
  exact State.settle_chg hw.up (State.roleOfferRx_chg hw.up hs)

theorem execRoleAcceptRx_chg {b : List Byte} (hw : Within [.regs, .twn] w) (hs : Chg w s0 s) : ∀ u, execRoleAcceptRx b s = .next u → Chg w s0 u := by
  unfold execRoleAcceptRx
  intro u ht
  rw [← Host.Outcome.next.inj ht]
  exact State.roleAcceptRx_chg hw.up hs

theorem execRoleSwitch_chg (hw : Within [.regs, .msix, .twn, .mgs, .out] w) (hs : Chg w s0 s) : ∀ u, execRoleSwitch s = .next u → Chg w s0 u := by
  unfold execRoleSwitch
  intro u ht
  rw [← Host.Outcome.next.inj ht]
  exact State.roleSwitch_chg hw.up hs

theorem execRotateTimer_chg (hw : Within [.regs, .tbl, .msix, .lrn, .bsn, .meters, .egr, .fre, .fgd, .had, .cfl, .vlt, .auth, .twn, .tim, .mgs, .inj, .out, .free] w) (hs : Chg w s0 s) : ∀ u, execRotateTimer s = .next u → Chg w s0 u := by
  unfold execRotateTimer
  intro u ht
  rw [← Host.Outcome.next.inj ht]
  exact State.settle_chg hw.up (State.rotateTimer_chg hw.up hs)

theorem execTwinSyncReqRx_chg {b : List Byte} (hw : Within [.regs, .tbl, .msix, .lrn, .bsn, .meters, .egr, .fre, .fgd, .had, .cfl, .vlt, .auth, .twn, .tim, .mgs, .inj, .out, .free] w) (hs : Chg w s0 s) : ∀ u, execTwinSyncReqRx b s = .next u → Chg w s0 u := by
  unfold execTwinSyncReqRx
  intro u ht
  rw [← Host.Outcome.next.inj ht]
  exact State.settle_chg hw.up (State.syncReqRx_chg hw.up hs)

theorem execTwinSyncDataRx_chg {b : List Byte} (hw : Within [.regs, .twn] w) (hs : Chg w s0 s) : ∀ u, execTwinSyncDataRx b s = .next u → Chg w s0 u := by
  unfold execTwinSyncDataRx
  intro u ht
  rw [← Host.Outcome.next.inj ht]
  exact State.syncDataRx_chg hw.up hs

theorem execTwinSyncEndRx_chg {b : List Byte} (hw : Within [.regs, .tbl, .msix, .lrn, .bsn, .meters, .egr, .fre, .fgd, .had, .cfl, .vlt, .auth, .twn, .tim, .mgs, .inj, .out, .free] w) (hs : Chg w s0 s) : ∀ u, execTwinSyncEndRx b s = .next u → Chg w s0 u := by
  unfold execTwinSyncEndRx
  intro u ht
  rw [← Host.Outcome.next.inj ht]
  exact State.settle_chg hw.up (State.syncEndRx_chg hw.up hs)

theorem execAttestReqRx_chg {b : List Byte} (hw : Within [.regs, .tbl, .msix, .lrn, .bsn, .meters, .egr, .fre, .fgd, .had, .cfl, .vlt, .auth, .twn, .tim, .mgs, .inj, .out, .free] w) (hs : Chg w s0 s) : ∀ u, execAttestReqRx b s = .next u → Chg w s0 u := by
  unfold execAttestReqRx
  intro u ht
  rw [← Host.Outcome.next.inj ht]
  exact State.settle_chg hw.up (State.attestReqRx_chg hw.up hs)

theorem execAttestRepRx_chg {b : List Byte} (hw : Within [.regs, .tbl, .msix, .lrn, .bsn, .meters, .egr, .fre, .fgd, .had, .cfl, .vlt, .auth, .twn, .tim, .mgs, .inj, .out, .free] w) (hs : Chg w s0 s) : ∀ u, execAttestRepRx b s = .next u → Chg w s0 u := by
  unfold execAttestRepRx
  intro u ht
  rw [← Host.Outcome.next.inj ht]
  exact State.settle_chg hw.up (State.attestRepRx_chg hw.up hs)

theorem execRotate_chg {m : Nat} (hw : Within [.regs, .fences, .tbl, .msix, .lrn, .bsn, .meters, .egr, .fre, .fgd, .had, .hif, .cfl, .vlt, .auth, .twn, .tim, .mgs, .inj, .out, .free] w) (hs : Chg w s0 s) : ∀ u, execRotate m s = .next u → Chg w s0 u := by
  unfold execRotate
  intro u ht
  rw [← Host.Outcome.next.inj ht]
  exact State.settle_chg hw.up (State.access_chg hw.up hs (fun x1 h2 => State.twinCmd_chg hw.up h2))

theorem execForcePrimary_chg {m : Nat} (hw : Within [.regs, .fences, .tbl, .msix, .lrn, .bsn, .meters, .egr, .fre, .fgd, .had, .hif, .cfl, .vlt, .auth, .twn, .tim, .mgs, .inj, .out, .free] w) (hs : Chg w s0 s) : ∀ u, execForcePrimary m s = .next u → Chg w s0 u := by
  unfold execForcePrimary
  intro u ht
  rw [← Host.Outcome.next.inj ht]
  exact State.settle_chg hw.up (State.access_chg hw.up hs (fun x1 h2 => State.twinCmd_chg hw.up h2))

theorem execYield_chg {m : Nat} (hw : Within [.regs, .fences, .tbl, .msix, .lrn, .bsn, .meters, .egr, .fre, .fgd, .had, .hif, .cfl, .vlt, .auth, .twn, .tim, .mgs, .inj, .out, .free] w) (hs : Chg w s0 s) : ∀ u, execYield m s = .next u → Chg w s0 u := by
  unfold execYield
  intro u ht
  rw [← Host.Outcome.next.inj ht]
  exact State.settle_chg hw.up (State.access_chg hw.up hs (fun x1 h2 => State.twinCmd_chg hw.up h2))

theorem execResync_chg {m : Nat} (hw : Within [.regs, .fences, .tbl, .msix, .lrn, .bsn, .meters, .egr, .fre, .fgd, .had, .hif, .cfl, .vlt, .auth, .twn, .tim, .mgs, .inj, .out, .free] w) (hs : Chg w s0 s) : ∀ u, execResync m s = .next u → Chg w s0 u := by
  unfold execResync
  intro u ht
  rw [← Host.Outcome.next.inj ht]
  exact State.settle_chg hw.up (State.access_chg hw.up hs (fun x1 h2 => State.twinCmd_chg hw.up h2))

theorem execTwinEnable_chg {m : Nat} {v : Word} (hw : Within [.regs, .fences, .msix, .hif, .twn, .mgs, .out] w) (hs : Chg w s0 s) : ∀ u, execTwinEnable m v s = .next u → Chg w s0 u := by
  unfold execTwinEnable
  intro u ht
  rw [← Host.Outcome.next.inj ht]
  exact State.access_chg hw.up hs (fun x1 h2 => State.twinCfgWrite_chg hw.up h2)

theorem execShadowAgeExpire_chg {c : Nat} (hw : Within [.regs, .msix, .bsn, .can, .mgs, .out] w) (hs : Chg w s0 s) : ∀ u, execShadowAgeExpire c s = .next u → Chg w s0 u := by
  unfold execShadowAgeExpire
  intro u ht
  rw [← Host.Outcome.next.inj ht]
  exact State.shadowAge_chg hw.up hs

theorem execCfgDigestRecompute_chg (hw : Within [.twn] w) (hs : Chg w s0 s) : ∀ u, execCfgDigestRecompute s = .next u → Chg w s0 u := by
  unfold execCfgDigestRecompute
  intro u ht
  rw [← Host.Outcome.next.inj ht]
  exact State.cfgRecord_chg hw.up hs

theorem execRosterCheck_chg (hw : Within [.vlt, .twn] w) (hs : Chg w s0 s) : ∀ u, execRosterCheck s = .next u → Chg w s0 u := by
  unfold execRosterCheck
  intro u ht
  rw [← Host.Outcome.next.inj ht]
  exact State.rosterCheck_chg hw.up hs

theorem execRosterReport_chg {n : Nat} {rep : List Byte} (hw : Within [.regs, .msix, .twn, .mgs, .out] w) (hs : Chg w s0 s) : ∀ u, execRosterReport n rep s = .next u → Chg w s0 u := by
  unfold execRosterReport
  intro u ht
  rw [← Host.Outcome.next.inj ht]
  exact State.rosterReport_chg hw.up hs

theorem execVltInfo_chg {m : Nat} (hw : Within [.regs, .slots, .fences, .msix, .hif, .vlt, .auth, .mgs, .out] w) (hs : Chg w s0 s) : ∀ u, execVltInfo m s = .next u → Chg w s0 u := by
  unfold execVltInfo
  intro u ht
  rw [← Host.Outcome.next.inj ht]
  exact State.vltCmdWrite_chg hw.up hs

theorem execVltGenerate_chg {m : Nat} (hw : Within [.regs, .slots, .fences, .msix, .hif, .vlt, .auth, .mgs, .out] w) (hs : Chg w s0 s) : ∀ u, execVltGenerate m s = .next u → Chg w s0 u := by
  unfold execVltGenerate
  intro u ht
  rw [← Host.Outcome.next.inj ht]
  exact State.vltCmdWrite_chg hw.up hs

theorem execVltDerive_chg {m : Nat} (hw : Within [.regs, .slots, .fences, .msix, .hif, .vlt, .auth, .mgs, .out] w) (hs : Chg w s0 s) : ∀ u, execVltDerive m s = .next u → Chg w s0 u := by
  unfold execVltDerive
  intro u ht
  rw [← Host.Outcome.next.inj ht]
  exact State.vltCmdWrite_chg hw.up hs

theorem execVltCommit_chg {m : Nat} (hw : Within [.regs, .slots, .fences, .msix, .hif, .vlt, .auth, .mgs, .out] w) (hs : Chg w s0 s) : ∀ u, execVltCommit m s = .next u → Chg w s0 u := by
  unfold execVltCommit
  intro u ht
  rw [← Host.Outcome.next.inj ht]
  exact State.vltCmdWrite_chg hw.up hs

theorem execVltDiscard_chg {m : Nat} (hw : Within [.regs, .slots, .fences, .msix, .hif, .vlt, .auth, .mgs, .out] w) (hs : Chg w s0 s) : ∀ u, execVltDiscard m s = .next u → Chg w s0 u := by
  unfold execVltDiscard
  intro u ht
  rw [← Host.Outcome.next.inj ht]
  exact State.vltCmdWrite_chg hw.up hs

theorem execVltRevoke_chg {m : Nat} (hw : Within [.regs, .slots, .fences, .msix, .hif, .vlt, .auth, .mgs, .out] w) (hs : Chg w s0 s) : ∀ u, execVltRevoke m s = .next u → Chg w s0 u := by
  unfold execVltRevoke
  intro u ht
  rw [← Host.Outcome.next.inj ht]
  exact State.vltCmdWrite_chg hw.up hs

theorem execVltDelete_chg {m : Nat} (hw : Within [.regs, .slots, .fences, .msix, .hif, .vlt, .auth, .mgs, .out] w) (hs : Chg w s0 s) : ∀ u, execVltDelete m s = .next u → Chg w s0 u := by
  unfold execVltDelete
  intro u ht
  rw [← Host.Outcome.next.inj ht]
  exact State.vltCmdWrite_chg hw.up hs

theorem execVltSign_chg {m : Nat} (hw : Within [.regs, .slots, .fences, .msix, .hif, .vlt, .auth, .mgs, .out] w) (hs : Chg w s0 s) : ∀ u, execVltSign m s = .next u → Chg w s0 u := by
  unfold execVltSign
  intro u ht
  rw [← Host.Outcome.next.inj ht]
  exact State.vltCmdWrite_chg hw.up hs

theorem execVltVerify_chg {m : Nat} (hw : Within [.regs, .slots, .fences, .msix, .hif, .vlt, .auth, .mgs, .out] w) (hs : Chg w s0 s) : ∀ u, execVltVerify m s = .next u → Chg w s0 u := by
  unfold execVltVerify
  intro u ht
  rw [← Host.Outcome.next.inj ht]
  exact State.vltCmdWrite_chg hw.up hs

theorem execVltHash_chg {m : Nat} (hw : Within [.regs, .slots, .fences, .msix, .hif, .vlt, .auth, .mgs, .out] w) (hs : Chg w s0 s) : ∀ u, execVltHash m s = .next u → Chg w s0 u := by
  unfold execVltHash
  intro u ht
  rw [← Host.Outcome.next.inj ht]
  exact State.vltCmdWrite_chg hw.up hs

theorem execVltMac_chg {m : Nat} (hw : Within [.regs, .slots, .fences, .msix, .hif, .vlt, .auth, .mgs, .out] w) (hs : Chg w s0 s) : ∀ u, execVltMac m s = .next u → Chg w s0 u := by
  unfold execVltMac
  intro u ht
  rw [← Host.Outcome.next.inj ht]
  exact State.vltCmdWrite_chg hw.up hs

theorem execVltEncrypt_chg {m : Nat} (hw : Within [.regs, .slots, .fences, .msix, .hif, .vlt, .auth, .mgs, .out] w) (hs : Chg w s0 s) : ∀ u, execVltEncrypt m s = .next u → Chg w s0 u := by
  unfold execVltEncrypt
  intro u ht
  rw [← Host.Outcome.next.inj ht]
  exact State.vltCmdWrite_chg hw.up hs

theorem execVltDecrypt_chg {m : Nat} (hw : Within [.regs, .slots, .fences, .msix, .hif, .vlt, .auth, .mgs, .out] w) (hs : Chg w s0 s) : ∀ u, execVltDecrypt m s = .next u → Chg w s0 u := by
  unfold execVltDecrypt
  intro u ht
  rw [← Host.Outcome.next.inj ht]
  exact State.vltCmdWrite_chg hw.up hs

theorem execVltRandom_chg {m : Nat} (hw : Within [.regs, .slots, .fences, .msix, .hif, .vlt, .auth, .mgs, .out] w) (hs : Chg w s0 s) : ∀ u, execVltRandom m s = .next u → Chg w s0 u := by
  unfold execVltRandom
  intro u ht
  rw [← Host.Outcome.next.inj ht]
  exact State.vltCmdWrite_chg hw.up hs

theorem execVltAttest_chg {m : Nat} (hw : Within [.regs, .slots, .fences, .msix, .hif, .vlt, .auth, .mgs, .out] w) (hs : Chg w s0 s) : ∀ u, execVltAttest m s = .next u → Chg w s0 u := by
  unfold execVltAttest
  intro u ht
  rw [← Host.Outcome.next.inj ht]
  exact State.vltCmdWrite_chg hw.up hs

theorem execAuthNonce_chg {m : Nat} (hw : Within [.regs, .slots, .fences, .msix, .hif, .vlt, .auth, .mgs, .out] w) (hs : Chg w s0 s) : ∀ u, execAuthNonce m s = .next u → Chg w s0 u := by
  unfold execAuthNonce
  intro u ht
  rw [← Host.Outcome.next.inj ht]
  exact State.vltCmdWrite_chg hw.up hs

theorem execVltClaim_chg {m : Nat} (hw : Within [.regs, .slots, .fences, .msix, .hif, .vlt, .auth, .mgs, .out] w) (hs : Chg w s0 s) : ∀ u, execVltClaim m s = .next u → Chg w s0 u := by
  unfold execVltClaim
  intro u ht
  rw [← Host.Outcome.next.inj ht]
  exact State.vltCmdWrite_chg hw.up hs

theorem execVltTransfer_chg {m : Nat} (hw : Within [.regs, .slots, .fences, .msix, .hif, .vlt, .auth, .mgs, .out] w) (hs : Chg w s0 s) : ∀ u, execVltTransfer m s = .next u → Chg w s0 u := by
  unfold execVltTransfer
  intro u ht
  rw [← Host.Outcome.next.inj ht]
  exact State.vltCmdWrite_chg hw.up hs

theorem execTamperClear_chg {m : Nat} (hw : Within [.regs, .slots, .fences, .msix, .hif, .vlt, .auth, .mgs, .out] w) (hs : Chg w s0 s) : ∀ u, execTamperClear m s = .next u → Chg w s0 u := by
  unfold execTamperClear
  intro u ht
  rw [← Host.Outcome.next.inj ht]
  exact State.vltAuthRow_chg hw.up hs

theorem execPageUnlock_chg {m : Nat} (hw : Within [.regs, .slots, .fences, .msix, .hif, .vlt, .auth, .mgs, .out] w) (hs : Chg w s0 s) : ∀ u, execPageUnlock m s = .next u → Chg w s0 u := by
  unfold execPageUnlock
  intro u ht
  rw [← Host.Outcome.next.inj ht]
  exact State.vltAuthRow_chg hw.up hs

theorem execSetCosign_chg {m : Nat} (hw : Within [.regs, .slots, .fences, .msix, .hif, .vlt, .auth, .mgs, .out] w) (hs : Chg w s0 s) : ∀ u, execSetCosign m s = .next u → Chg w s0 u := by
  unfold execSetCosign
  intro u ht
  rw [← Host.Outcome.next.inj ht]
  exact State.vltAuthRow_chg hw.up hs

theorem execUpdLock_chg {m : Nat} (hw : Within [.regs, .slots, .fences, .msix, .hif, .vlt, .auth, .mgs, .out] w) (hs : Chg w s0 s) : ∀ u, execUpdLock m s = .next u → Chg w s0 u := by
  unfold execUpdLock
  intro u ht
  rw [← Host.Outcome.next.inj ht]
  exact State.vltAuthRow_chg hw.up hs

theorem execWipe_chg {m : Nat} (hw : Within [.regs, .slots, .fences, .msix, .hif, .vlt, .auth, .mgs, .out] w) (hs : Chg w s0 s) : ∀ u, execWipe m s = .next u → Chg w s0 u := by
  unfold execWipe
  intro u ht
  rw [← Host.Outcome.next.inj ht]
  exact State.vltAuthRow_chg hw.up hs

theorem execReinit_chg {m : Nat} (hw : Within [.regs, .slots, .fences, .msix, .hif, .vlt, .auth, .mgs, .out] w) (hs : Chg w s0 s) : ∀ u, execReinit m s = .next u → Chg w s0 u := by
  unfold execReinit
  intro u ht
  rw [← Host.Outcome.next.inj ht]
  exact State.vltAuthRow_chg hw.up hs

theorem execImport_chg {m : Nat} (hw : Within [.regs, .slots, .fences, .msix, .hif, .vlt, .auth, .mgs, .out] w) (hs : Chg w s0 s) : ∀ u, execImport m s = .next u → Chg w s0 u := by
  unfold execImport
  intro u ht
  rw [← Host.Outcome.next.inj ht]
  exact State.vltAuthRow_chg hw.up hs

theorem execVltAuthoriseDelegated_chg {m : Nat} (hw : Within [.regs, .slots, .fences, .msix, .hif, .vlt, .auth, .mgs, .out] w) (hs : Chg w s0 s) : ∀ u, execVltAuthoriseDelegated m s = .next u → Chg w s0 u := by
  unfold execVltAuthoriseDelegated
  intro u ht
  rw [← Host.Outcome.next.inj ht]
  exact State.vltAuthRow_chg hw.up hs

theorem execNonceExpire_chg {m : Nat} (hw : Within [.vlt] w) (hs : Chg w s0 s) : ∀ u, execNonceExpire m s = .next u → Chg w s0 u := by
  unfold execNonceExpire
  intro u ht
  rw [← Host.Outcome.next.inj ht]
  exact Chg.upd_vlt hw.mem hs ⟨Nat.le_refl _, fun _ => Nat.le_refl _⟩

theorem execVaultOpDone_chg (hw : Within [.regs, .slots, .msix, .had, .vlt, .auth, .twn, .mgs, .svc, .inj, .out] w) (hs : Chg w s0 s) : ∀ u, execVaultOpDone s = .next u → Chg w s0 u := by
  unfold execVaultOpDone
  intro u ht
  rw [← Host.Outcome.next.inj ht]
  exact State.vaultOpDone_chg hw.up hs

theorem execEngineKeyLoad_chg {cau : Bool} {n : Nat} (hw : Within [.regs, .msix, .auth, .mgs, .out] w) (hs : Chg w s0 s) : ∀ u, execEngineKeyLoad cau n s = .next u → Chg w s0 u := by
  unfold execEngineKeyLoad
  intro u ht
  rw [← Host.Outcome.next.inj ht]
  exact Chg.ite (State.cauKeyLoad_chg hw.up hs) (State.saKeyLoad_chg hw.up hs)

theorem execOrphanGraceExpire_chg {slot : Nat} (hw : Within [.regs, .msix, .vlt, .auth, .mgs, .out] w) (hs : Chg w s0 s) : ∀ u, execOrphanGraceExpire slot s = .next u → Chg w s0 u := by
  unfold execOrphanGraceExpire
  intro u ht
  rw [← Host.Outcome.next.inj ht]
  exact State.graceExpire_chg hw.up hs

theorem execTamperClass1_chg {sensor : Nat} (hw : Within [.regs, .msix, .vlt, .auth, .mgs, .out] w) (hs : Chg w s0 s) : ∀ u, execTamperClass1 sensor s = .next u → Chg w s0 u := by
  unfold execTamperClass1
  intro u ht
  rw [← Host.Outcome.next.inj ht]
  exact Chg.ite (hs) (State.tamperClass1_chg hw.up hs)

theorem execTamperClass2_chg (hw : Within [.regs, .msix, .vlt, .auth, .mgs, .out] w) (hs : Chg w s0 s) : ∀ u, execTamperClass2 s = .next u → Chg w s0 u := by
  unfold execTamperClass2
  intro u ht
  rw [← Host.Outcome.next.inj ht]
  exact Chg.ite (State.sensorLatch_chg hw.up hs) (State.tamperClass2_chg hw.up (State.tamperLog_chg hw.up hs))

theorem execTamperMesh_chg (hw : Within [.regs, .msix, .vlt, .auth, .mgs, .out] w) (hs : Chg w s0 s) : ∀ u, execTamperMesh s = .next u → Chg w s0 u := by
  unfold execTamperMesh
  intro u ht
  rw [← Host.Outcome.next.inj ht]
  exact Chg.ite (State.sensorLatch_chg hw.up hs) (State.zeroise_chg hw.up (State.tamperLog_chg hw.up hs))

theorem execSleepLatch_chg {mesh : Bool} (hw : Within [.vlt] w) (hs : Chg w s0 s) : ∀ u, execSleepLatch mesh s = .next u → Chg w s0 u := by
  unfold execSleepLatch
  intro u ht
  rw [← Host.Outcome.next.inj ht]
  exact Chg.ite (State.sensorLatch_chg hw.up hs) (hs)

theorem execVaultStartup_chg {n : Nat} {identOk : Bool} {ownerOk : Bool} {bad : List Nat} (hw : Within [.regs, .msix, .vlt, .auth, .mgs, .out] w) (hs : Chg w s0 s) : ∀ u, execVaultStartup n identOk s ownerOk bad = .next u → Chg w s0 u := by
  unfold execVaultStartup
  intro u ht
  rw [← Host.Outcome.next.inj ht]
  exact State.vltStartup_chg hw.up hs

theorem execVaultS4_chg {bad : List Nat} (hw : Within [.regs, .msix, .vlt, .auth, .mgs, .out] w) (hs : Chg w s0 s) : ∀ u, execVaultS4 s bad = .next u → Chg w s0 u := by
  unfold execVaultS4
  intro u ht
  rw [← Host.Outcome.next.inj ht]
  exact Chg.ite (State.vltS4_chg hw.up hs) (hs)

theorem execLceSaApply_chg {m : Nat} {p : Nat} (hw : Within [.regs, .fences, .msix, .hif, .vlt, .auth, .mgs, .out] w) (hs : Chg w s0 s) : ∀ u, execLceSaApply m p s = .next u → Chg w s0 u := by
  unfold execLceSaApply
  intro u ht
  rw [← Host.Outcome.next.inj ht]
  exact Chg.ite (State.access_chg hw.up hs (fun x1 h2 => State.saCmd_chg hw.up h2)) (hs)

theorem execLceSaRetire_chg {m : Nat} {p : Nat} (hw : Within [.regs, .fences, .msix, .hif, .vlt, .auth, .mgs, .out] w) (hs : Chg w s0 s) : ∀ u, execLceSaRetire m p s = .next u → Chg w s0 u := by
  unfold execLceSaRetire
  intro u ht
  rw [← Host.Outcome.next.inj ht]
  exact Chg.ite (State.access_chg hw.up hs (fun x1 h2 => State.saCmd_chg hw.up h2)) (hs)

theorem execLceSaLoad_chg {m : Nat} {p : Nat} (hw : Within [.regs, .fences, .msix, .hif, .vlt, .auth, .mgs, .out] w) (hs : Chg w s0 s) : ∀ u, execLceSaLoad m p s = .next u → Chg w s0 u := by
  unfold execLceSaLoad
  intro u ht
  rw [← Host.Outcome.next.inj ht]
  exact Chg.ite (State.access_chg hw.up hs (fun x1 h2 => State.saCmd_chg hw.up h2)) (hs)

theorem execLceTxAnWrite_chg {m : Nat} {p : Nat} {v : Word} (hw : Within [.regs, .fences, .msix, .hif, .mgs, .out] w) (hs : Chg w s0 s) : ∀ u, execLceTxAnWrite m p v s = .next u → Chg w s0 u := by
  unfold execLceTxAnWrite
  intro u ht
  rw [← Host.Outcome.next.inj ht]
  exact Chg.ite (State.access_chg hw.up hs (fun x1 h2 => State.plainWrite_chg hw.up h2)) (hs)

theorem execCauApply_chg {m : Nat} (hw : Within [.regs, .fences, .msix, .hif, .vlt, .auth, .mgs, .out] w) (hs : Chg w s0 s) : ∀ u, execCauApply m s = .next u → Chg w s0 u := by
  unfold execCauApply
  intro u ht
  rw [← Host.Outcome.next.inj ht]
  exact State.access_chg hw.up hs (fun x1 h2 => State.cauCmd_chg hw.up h2)

theorem execCauRetire_chg {m : Nat} (hw : Within [.regs, .fences, .msix, .hif, .vlt, .auth, .mgs, .out] w) (hs : Chg w s0 s) : ∀ u, execCauRetire m s = .next u → Chg w s0 u := by
  unfold execCauRetire
  intro u ht
  rw [← Host.Outcome.next.inj ht]
  exact State.access_chg hw.up hs (fun x1 h2 => State.cauCmd_chg hw.up h2)

theorem execCauLoad_chg {m : Nat} (hw : Within [.regs, .fences, .msix, .hif, .vlt, .auth, .mgs, .out] w) (hs : Chg w s0 s) : ∀ u, execCauLoad m s = .next u → Chg w s0 u := by
  unfold execCauLoad
  intro u ht
  rw [← Host.Outcome.next.inj ht]
  exact State.access_chg hw.up hs (fun x1 h2 => State.cauCmd_chg hw.up h2)

theorem execCauFvRecord_chg (hw : Within [.vlt, .auth] w) (hs : Chg w s0 s) : ∀ u, execCauFvRecord s = .next u → Chg w s0 u := by
  unfold execCauFvRecord
  intro u ht
  rw [← Host.Outcome.next.inj ht]
  exact State.cauRecord_chg hw.up hs

end Sys2Proof.Machine
end

