-- ==== Sys2Proof/Laws/Items.lean ====
section
/-! SUPPORT. What an item of each table of the state reads after the table has been written. -/

set_option Elab.async false

namespace Sys2Proof.Machine

@[simp] theorem State.frame_setFrame (s : State) (i j : Nat) (v : Option Frame) : (s.setFrame i v).frame j = if i = j then v else s.frame j :=
  Tab.get_set _ _ _ _ _
theorem State.frame_congr {s t : State} (h : s.bsn = t.bsn) (i : Nat) : s.frame i = t.frame i := by unfold State.frame; rw [h]
@[simp] theorem State.rd_setFrame (s : State) (i : Nat) (v : Option Frame) (a : Nat) : (s.setFrame i v).rd a = s.rd a := rfl
@[simp] theorem State.resv_setResv (s : State) (i j : Nat) (v : Resv) : (s.setResv i v).resv j = if i = j then v else s.resv j :=
  Tab.get_set _ _ _ _ _
theorem State.resv_congr {s t : State} (h : s.bud = t.bud) (i : Nat) : s.resv i = t.resv i := by unfold State.resv; rw [h]
@[simp] theorem State.rd_setResv (s : State) (i : Nat) (v : Resv) (a : Nat) : (s.setResv i v).rd a = s.rd a := rfl
@[simp] theorem State.cch_setCch (s : State) (i j : Nat) (v : CanSt) : (s.setCch i v).cch j = if i = j then v else s.cch j :=
  Tab.get_set _ _ _ _ _
theorem State.cch_congr {s t : State} (h : s.can = t.can) (i : Nat) : s.cch i = t.cch i := by unfold State.cch; rw [h]
@[simp] theorem State.rd_setCch (s : State) (i : Nat) (v : CanSt) (a : Nat) : (s.setCch i v).rd a = s.rd a := rfl
@[simp] theorem State.gate_setGate (s : State) (i j : Nat) (v : Gate) : (s.setGate i v).gate j = if i = j then v else s.gate j :=
  Tab.get_set _ _ _ _ _
theorem State.gate_congr {s t : State} (h : s.pwr = t.pwr) (i : Nat) : s.gate i = t.gate i := by unfold State.gate; rw [h]
@[simp] theorem State.rd_setGate (s : State) (i : Nat) (v : Gate) (a : Nat) : (s.setGate i v).rd a = s.rd a := rfl
@[simp] theorem State.src_setSrc (s : State) (i j : Nat) (v : SrcVal) : (s.setSrc i v).src j = if i = j then v else s.src j :=
  Tab.get_set _ _ _ _ _
theorem State.src_congr {s t : State} (h : s.cfl = t.cfl) (i : Nat) : s.src i = t.src i := by unfold State.src; rw [h]
@[simp] theorem State.rd_setSrc (s : State) (i : Nat) (v : SrcVal) (a : Nat) : (s.setSrc i v).rd a = s.rd a := rfl
@[simp] theorem State.txp_setTxp (s : State) (i j : Nat) (v : TxPdu) : (s.setTxp i v).txp j = if i = j then v else s.txp j :=
  Tab.get_set _ _ _ _ _
theorem State.txp_congr {s t : State} (h : s.cfl = t.cfl) (i : Nat) : s.txp i = t.txp i := by unfold State.txp; rw [h]
@[simp] theorem State.rd_setTxp (s : State) (i : Nat) (v : TxPdu) (a : Nat) : (s.setTxp i v).rd a = s.rd a := rfl
@[simp] theorem State.rxp_setRxp (s : State) (i j : Nat) (v : RxPdu) : (s.setRxp i v).rxp j = if i = j then v else s.rxp j :=
  Tab.get_set _ _ _ _ _
theorem State.rxp_congr {s t : State} (h : s.cfl = t.cfl) (i : Nat) : s.rxp i = t.rxp i := by unfold State.rxp; rw [h]
@[simp] theorem State.rd_setRxp (s : State) (i : Nat) (v : RxPdu) (a : Nat) : (s.setRxp i v).rd a = s.rd a := rfl
@[simp] theorem State.tun_setTun (s : State) (i j : Nat) (v : TunTx) : (s.setTun i v).tun j = if i = j then v else s.tun j :=
  Tab.get_set _ _ _ _ _
theorem State.tun_congr {s t : State} (h : s.cfl = t.cfl) (i : Nat) : s.tun i = t.tun i := by unfold State.tun; rw [h]
@[simp] theorem State.rd_setTun (s : State) (i : Nat) (v : TunTx) (a : Nat) : (s.setTun i v).rd a = s.rd a := rfl
@[simp] theorem State.untun_setUntun (s : State) (i j : Nat) (v : TunRx) : (s.setUntun i v).untun j = if i = j then v else s.untun j :=
  Tab.get_set _ _ _ _ _
theorem State.untun_congr {s t : State} (h : s.cfl = t.cfl) (i : Nat) : s.untun i = t.untun i := by unfold State.untun; rw [h]
@[simp] theorem State.rd_setUntun (s : State) (i : Nat) (v : TunRx) (a : Nat) : (s.setUntun i v).rd a = s.rd a := rfl
@[simp] theorem State.view_setView (s : State) (i j : Nat) (v : View) : (s.setView i v).view j = if i = j then v else s.view j :=
  Tab.get_set _ _ _ _ _
theorem State.view_congr {s t : State} (h : s.fgd = t.fgd) (i : Nat) : s.view i = t.view i := by unfold State.view; rw [h]
@[simp] theorem State.rd_setView (s : State) (i : Nat) (v : View) (a : Nat) : (s.setView i v).rd a = s.rd a := rfl
@[simp] theorem State.freFn_setFre (s : State) (i j : Nat) (v : FreFn) : (s.setFre i v).freFn j = if i = j then v else s.freFn j :=
  Tab.get_set _ _ _ _ _
theorem State.freFn_congr {s t : State} (h : s.fre = t.fre) (i : Nat) : s.freFn i = t.freFn i := by unfold State.freFn; rw [h]
@[simp] theorem State.rd_setFre (s : State) (i : Nat) (v : FreFn) (a : Nat) : (s.setFre i v).rd a = s.rd a := rfl
@[simp] theorem State.head_setHead (s : State) (i j : Nat) (v : Head) : (s.setHead i v).head j = if i = j then v else s.head j :=
  Tab.get_set _ _ _ _ _
theorem State.head_congr {s t : State} (h : s.had = t.had) (i : Nat) : s.head i = t.head i := by unfold State.head; rw [h]
@[simp] theorem State.rd_setHead (s : State) (i : Nat) (v : Head) (a : Nat) : (s.setHead i v).rd a = s.rd a := rfl
@[simp] theorem State.hport_setHport (s : State) (i j : Nat) (v : HeadPort) : (s.setHport i v).hport j = if i = j then v else s.hport j :=
  Tab.get_set _ _ _ _ _
theorem State.hport_congr {s t : State} (h : s.had = t.had) (i : Nat) : s.hport i = t.hport i := by unfold State.hport; rw [h]
@[simp] theorem State.rd_setHport (s : State) (i : Nat) (v : HeadPort) (a : Nat) : (s.setHport i v).rd a = s.rd a := rfl
@[simp] theorem State.ring_setRing (s : State) (i j : Nat) (v : Ring) : (s.setRing i v).ring j = if i = j then v else s.ring j :=
  Tab.get_set _ _ _ _ _
theorem State.ring_congr {s t : State} (h : s.hif = t.hif) (i : Nat) : s.ring i = t.ring i := by unfold State.ring; rw [h]
@[simp] theorem State.rd_setRing (s : State) (i : Nat) (v : Ring) (a : Nat) : (s.setRing i v).rd a = s.rd a := rfl
@[simp] theorem State.lch_setLch (s : State) (i j : Nat) (v : LinSt) : (s.setLch i v).lch j = if i = j then v else s.lch j :=
  Tab.get_set _ _ _ _ _
theorem State.lch_congr {s t : State} (h : s.lin = t.lin) (i : Nat) : s.lch i = t.lch i := by unfold State.lch; rw [h]
@[simp] theorem State.rd_setLch (s : State) (i : Nat) (v : LinSt) (a : Nat) : (s.setLch i v).rd a = s.rd a := rfl
@[simp] theorem State.eport_setEport (s : State) (i j : Nat) (v : Ept) : (s.setEport i v).eport j = if i = j then v else s.eport j :=
  Tab.get_set _ _ _ _ _
theorem State.eport_congr {s t : State} (h : s.ept = t.ept) (i : Nat) : s.eport i = t.eport i := by unfold State.eport; rw [h]
@[simp] theorem State.rd_setEport (s : State) (i : Nat) (v : Ept) (a : Nat) : (s.setEport i v).rd a = s.rd a := rfl
@[simp] theorem State.eg_setEg (s : State) (i j : Nat) (v : Egr) : (s.setEg i v).eg j = if i = j then v else s.eg j :=
  Tab.get_set _ _ _ _ _
theorem State.eg_congr {s t : State} (h : s.egr = t.egr) (i : Nat) : s.eg i = t.eg i := by unfold State.eg; rw [h]
@[simp] theorem State.rd_setEg (s : State) (i : Nat) (v : Egr) (a : Nat) : (s.setEg i v).rd a = s.rd a := rfl
@[simp] theorem State.queue_setQueue (s : State) (i j : Nat) (v : List (Nat × Nat)) : (s.setQueue i v).queue j = if i = j then v else s.queue j :=
  Tab.get_set _ _ _ _ _
theorem State.queue_congr {s t : State} (h : s.bsn = t.bsn) (i : Nat) : s.queue i = t.queue i := by unfold State.queue; rw [h]
@[simp] theorem State.rd_setQueue (s : State) (i : Nat) (v : List (Nat × Nat)) (a : Nat) : (s.setQueue i v).rd a = s.rd a := rfl
@[simp] theorem State.fence_setFence (s : State) (i j : Nat) (v : Fences) : (s.setFence i v).fence j = if i = j then v else s.fence j :=
  Tab.get_set _ _ _ _ _
theorem State.fence_congr {s t : State} (h : s.fences = t.fences) (i : Nat) : s.fence i = t.fence i := by unfold State.fence; rw [h]
@[simp] theorem State.rd_setFence (s : State) (i : Nat) (v : Fences) (a : Nat) : (s.setFence i v).rd a = s.rd a := rfl
@[simp] theorem State.snap_setSnap (s : State) (i j : Nat) (v : Snap) : (s.setSnap i v).snap j = if i = j then v else s.snap j :=
  Tab.get_set _ _ _ _ _
theorem State.snap_congr {s t : State} (h : s.snaps = t.snaps) (i : Nat) : s.snap i = t.snap i := by unfold State.snap; rw [h]
@[simp] theorem State.rd_setSnap (s : State) (i : Nat) (v : Snap) (a : Nat) : (s.setSnap i v).rd a = s.rd a := rfl
@[simp] theorem State.rxf_setRxf (s : State) (i j : Nat) (v : RxFifo) : (s.setRxf i v).rxf j = if i = j then v else s.rxf j :=
  Tab.get_set _ _ _ _ _
theorem State.rxf_congr {s t : State} (h : s.bsn = t.bsn) (i : Nat) : s.rxf i = t.rxf i := by unfold State.rxf; rw [h]
@[simp] theorem State.rd_setRxf (s : State) (i : Nat) (v : RxFifo) (a : Nat) : (s.setRxf i v).rd a = s.rd a := rfl
@[simp] theorem State.txf_setTxf (s : State) (i j : Nat) (v : TxFifo) : (s.setTxf i v).txf j = if i = j then v else s.txf j :=
  Tab.get_set _ _ _ _ _
theorem State.txf_congr {s t : State} (h : s.bsn = t.bsn) (i : Nat) : s.txf i = t.txf i := by unfold State.txf; rw [h]
@[simp] theorem State.rd_setTxf (s : State) (i : Nat) (v : TxFifo) (a : Nat) : (s.setTxf i v).rd a = s.rd a := rfl
@[simp] theorem State.sluice_setSluice (s : State) (i j : Nat) (v : Sluice) : (s.setSluice i v).sluice j = if i = j then v else s.sluice j :=
  Tab.get_set _ _ _ _ _
theorem State.sluice_congr {s t : State} (h : s.slu = t.slu) (i : Nat) : s.sluice i = t.sluice i := by unfold State.sluice; rw [h]
@[simp] theorem State.rd_setSluice (s : State) (i : Nat) (v : Sluice) (a : Nat) : (s.setSluice i v).rd a = s.rd a := rfl
@[simp] theorem State.part_setPart (s : State) (i j : Nat) (v : Part) : (s.setPart i v).part j = if i = j then v else s.part j :=
  Tab.get_set _ _ _ _ _
theorem State.part_congr {s t : State} (h : s.svc = t.svc) (i : Nat) : s.part i = t.part i := by unfold State.part; rw [h]
@[simp] theorem State.rd_setPart (s : State) (i : Nat) (v : Part) (a : Nat) : (s.setPart i v).rd a = s.rd a := rfl
@[simp] theorem State.staging_setStaging (s : State) (i j : Nat) (v : List Staged) : (s.setStaging i v).staging j = if i = j then v else s.staging j :=
  Tab.get_set _ _ _ _ _
theorem State.staging_congr {s t : State} (h : s.stage = t.stage) (i : Nat) : s.staging i = t.staging i := by unfold State.staging; rw [h]
@[simp] theorem State.rd_setStaging (s : State) (i : Nat) (v : List Staged) (a : Nat) : (s.setStaging i v).rd a = s.rd a := rfl
@[simp] theorem State.dom_setDom (s : State) (i j : Nat) (v : Dom) : (s.setDom i v).dom j = if i = j then v else s.dom j :=
  Tab.get_set _ _ _ _ _
theorem State.dom_congr {s t : State} (h : s.tim = t.tim) (i : Nat) : s.dom i = t.dom i := by unfold State.dom; rw [h]
@[simp] theorem State.rd_setDom (s : State) (i : Nat) (v : Dom) (a : Nat) : (s.setDom i v).rd a = s.rd a := rfl
@[simp] theorem State.pd_setPd (s : State) (i j : Nat) (v : PdPort) : (s.setPd i v).pd j = if i = j then v else s.pd j :=
  Tab.get_set _ _ _ _ _
theorem State.pd_congr {s t : State} (h : s.tim = t.tim) (i : Nat) : s.pd i = t.pd i := by unfold State.pd; rw [h]
@[simp] theorem State.rd_setPd (s : State) (i : Nat) (v : PdPort) (a : Nat) : (s.setPd i v).rd a = s.rd a := rfl
@[simp] theorem State.kslot_setKslot (s : State) (i j : Nat) (v : KeySlot) : (s.setKslot i v).kslot j = if i = j then v else s.kslot j :=
  Tab.get_set _ _ _ _ _
theorem State.kslot_congr {s t : State} (h : s.vlt = t.vlt) (i : Nat) : s.kslot i = t.kslot i := by unfold State.kslot; rw [h]
@[simp] theorem State.rd_setKslot (s : State) (i : Nat) (v : KeySlot) (a : Nat) : (s.setKslot i v).rd a = s.rd a := rfl
@[simp] theorem State.sa_setSa (s : State) (i j : Nat) (v : Sa) : (s.setSa i v).sa j = if i = j then v else s.sa j :=
  Tab.get_set _ _ _ _ _
theorem State.sa_congr {s t : State} (h : s.auth = t.auth) (i : Nat) : s.sa i = t.sa i := by unfold State.sa; rw [h]
@[simp] theorem State.rd_setSa (s : State) (i : Nat) (v : Sa) (a : Nat) : (s.setSa i v).rd a = s.rd a := rfl
@[simp] theorem State.cauEnt_setCau (s : State) (i j : Nat) (v : CauEnt) : (s.setCau i v).cauEnt j = if i = j then v else s.cauEnt j :=
  Tab.get_set _ _ _ _ _
theorem State.cauEnt_congr {s t : State} (h : s.auth = t.auth) (i : Nat) : s.cauEnt i = t.cauEnt i := by unfold State.cauEnt; rw [h]
@[simp] theorem State.rd_setCau (s : State) (i : Nat) (v : CauEnt) (a : Nat) : (s.setCau i v).rd a = s.rd a := rfl
@[simp] theorem State.meter_setMeter (s : State) (i j : Nat) (v : Meter) : (s.setMeter i v).meter j = if i = j then v else s.meter j :=
  Tab.get_set _ _ _ _ _
theorem State.meter_congr {s t : State} (h : s.meters = t.meters) (i : Nat) : s.meter i = t.meter i := by unfold State.meter; rw [h]
@[simp] theorem State.rd_setMeter (s : State) (i : Nat) (v : Meter) (a : Nat) : (s.setMeter i v).rd a = s.rd a := rfl
theorem State.tent_setTent (s : State) (t i j : Nat) (e : BitVec 512) : (s.setTent t i e).tent t j = if i = j then e else s.tent t j := by
  unfold State.setTent State.tent
  rw [Tab.get_set]
  by_cases h : i = j
  · rw [if_pos h, if_pos (by rw [h])]
  · rw [if_neg h, if_neg (by omega)]
@[simp] theorem State.rd_setTent (s : State) (t i : Nat) (e : BitVec 512) (a : Nat) : (s.setTent t i e).rd a = s.rd a := rfl
theorem State.arrival_setArrival (s : State) (p q : Nat) (pre : Bool) (v : Option Arrival) :
    (s.setArrival p pre v).arrival q pre = if p = q then v else s.arrival q pre := by
  unfold State.setArrival State.arrival
  rw [Tab.get_set]
  by_cases h : p = q
  · rw [if_pos h, if_pos (by rw [h])]
  · rw [if_neg h, if_neg (by omega)]
@[simp] theorem State.rd_setArrival (s : State) (p : Nat) (pre : Bool) (v : Option Arrival) (a : Nat) :
    (s.setArrival p pre v).rd a = s.rd a := rfl
@[simp] theorem State.rd_setMgs (s : State) (v : MgsSt) (a : Nat) : (s.setMgs v).rd a = s.rd a := rfl
@[simp] theorem State.rd_setPwr (s : State) (v : PwrSt) (a : Nat) : (s.setPwr v).rd a = s.rd a := rfl
@[simp] theorem State.rd_setTwn (s : State) (v : TwnSt) (a : Nat) : (s.setTwn v).rd a = s.rd a := rfl
@[simp] theorem State.rd_setHold (s : State) (m b : Nat) (v : Hold) (a : Nat) : (s.setHold m b v).rd a = s.rd a := rfl
@[simp] theorem State.rd_present (s : State) (i t : Nat) (u : Bool) (l : List Byte) (a : Nat) : (s.present i t u l).rd a = s.rd a := rfl
@[simp] theorem State.rd_sendOwn (s : State) (p t : Nat) (l : List Byte) (y : Option OwnMsg) (a : Nat) :
    (s.sendOwn p t l y).rd a = s.rd a := rfl

end Sys2Proof.Machine
end

