-- ==== Sys2Proof/Laws/Settle.lean ====
section
/-! SUPPORT. What the end of a command leaves alone when it presented only messages of the gateway's own. -/

set_option Elab.async false

namespace Sys2Proof.Machine

/-- Such a message presents nothing further and stays in its areas. -/
theorem State.settleOne_own {x : Inject} {w : List Area} {s0 s : State} (hx : x.isOwn = true) (hw : Within [.regs, .msix, .bsn, .egr, .mgs, .out] w)
    (hs : Chg w s0 s) : Chg w s0 (s.settleOne x) := by
  cases x with
  | own p tc b o =>
    unfold State.settleOne State.injectOne
    exact Chg.ite hs (State.ownEnter_chg hw.up hs)
  | frame => cases hx
  | consumed => cases hx

theorem State.settle_own_foldl {l : List Inject} {w : List Area} {s0 s : State} (hl : l.all Inject.isOwn = true)
    (hw : Within [.regs, .msix, .bsn, .egr, .mgs, .out] w) (hs : Chg w s0 s) : Chg w s0 (l.foldl State.settleOne s) := by
  induction l generalizing s with
  | nil => exact hs
  | cons x l ih =>
    simp only [List.all_cons, Bool.and_eq_true] at hl
    exact ih hl.2 (State.settleOne_own hl.1 hw hs)

theorem State.settleFrom_none (n : Nat) (s : State) (h : s.inj = []) : State.settleFrom n s = s := by
  cases n with
  | zero => rfl
  | succ n => unfold State.settleFrom; rw [h]

/-- What every clause of the form `Presents` asks of the next state. -/
theorem passed_settle (u : State) : passed u u.settle := by
  refine ⟨rfl, fun h => ?_, (State.settle_chg (Within.self _) (Chg.refl u)).same, fun h => ?_⟩
  · unfold State.settle
    exact State.settleFrom_none _ _ h
  unfold State.settle State.settleFrom
  split
  · rename_i e
    exact ⟨e, fun a _ => a.same_refl u⟩
  · rename_i e
    have k := State.settle_own_foldl h (Within.self [.regs, .msix, .bsn, .egr, .mgs, .out]) (Chg.refl { u with inj := [] })
    have hi : (u.inj.foldl State.settleOne { u with inj := [] }).inj = [] := (k.same .inj (by decide)).symm
    rw [State.settleFrom_none _ _ hi]
    have own : ∀ a : Area, a ∈ [.regs, .msix, .bsn, .egr, .mgs, .out] → a ∈ [.regs, .msix, .bsn, .egr, .mgs, .inj, .out] := by
      intro a; cases a <;> decide
    refine ⟨hi, fun a ha => ?_⟩
    have h1 : Area.same a u { u with inj := [] } := by cases a <;> first | rfl | exact absurd (by decide) ha
    exact Area.same_trans h1 (k.same a (fun hm => ha (own a hm)))

end Sys2Proof.Machine
end

