-- ==== Sys2Proof/WellFormed.lean ====
section
/-! DEFINITION. Which commands are well formed: every operand lies where the spec says such an operand can lie. -/

namespace Sys2Proof

/-- Ports with a line cipher engine: 0-15 and 20-22 (R326). -/
def lcePortOk (p : Nat) : Bool := decide (p < 16) || (decide (20 ≤ p) && decide (p < 23))

/-- Page numbers of Table 2-1 whose page has the common header (R25, R26). -/
def headerPage (pg : Nat) : Bool :=
  decide (pg < 0x08) || (decide (0x10 ≤ pg) && decide (pg < 0x15)) || (decide (0x20 ≤ pg) && decide (pg < 0x23)) ||
  (decide (0x30 ≤ pg) && decide (pg < 0x4A)) || (decide (0x50 ≤ pg) && decide (pg < 0x67)) || decide (pg = 0x68) ||
  (decide (0x70 ≤ pg) && decide (pg < 0x73)) || (decide (0x80 ≤ pg) && decide (pg < 0x97)) ||
  (decide (0x98 ≤ pg) && decide (pg < 0xB1)) || (decide (0xB8 ≤ pg) && decide (pg < 0xC1)) ||
  (decide (0xC1 ≤ pg) && decide (pg < 0xC5)) || decide (pg = 0xD0) || decide (pg = 0xD2) ||
  (decide (0xE0 ≤ pg) && decide (pg < 0xF7)) || decide (pg = 0x100)

/-- Every operand in range. -/
def Instr.wf (i : Instr) : Bool :=
  match i with
  | .regWrite m a _ _ core => decide (m < 5) && decide (a < (if m = 2 then 2 ^ 56 else 0x4000000)) && decide (core < 4)
  | .multiwordLowRead m a _ core _ => decide (m < 5) && decide (a < (if m = 2 then 2 ^ 56 else 0x4000000)) && decide (core < 4)
  | .writeMaskWrite m _ => decide (m < 5)
  | .fenceReq m => decide (m < 5)
  | .fenceRetired m => decide (m < 5)
  | .intRawClear m pg _ => decide (m < 5) && headerPage pg
  | .intForce m pg _ => decide (m < 5) && headerPage pg
  | .softRst m pg => decide (m < 5) && headerPage pg
  | .softRstDone pg => headerPage pg
  | .quiesceReq m pg _ => decide (m < 5) && headerPage pg
  | .quiesced pg => headerPage pg
  | .blkLock m pg => decide (m < 5) && headerPage pg
  | .errCapRearm m pg => decide (m < 5) && headerPage pg
  | .cntSnap m pg => decide (m < 5) && headerPage pg
  | .cntSnapAll m => decide (m < 5)
  | .snapDone pg => headerPage pg
  | .cntSnapAck m pg seq => decide (m < 5) && headerPage pg && decide (seq < 0x10000)
  | .counterClr m a => decide (m < 5) && decide (a < 0x4000000)
  | .resAck m a seq => decide (m < 5) && decide (a < 0x4000000) && decide (seq < 0x10000)
  | .tapRead m t => decide (m < 5) && decide (t < 16)
  | .tapWrite m t => decide (m < 5) && decide (t < 16)
  | .tapLookup m t => decide (m < 5) && decide (t < 16)
  | .tapInsert m t => decide (m < 5) && decide (t < 16)
  | .tapDelete m t => decide (m < 5) && decide (t < 16)
  | .tapCommit m => decide (m < 5)
  | .tapCommitDone => true
  | .tapDiscard m => decide (m < 5)
  | .tapOpDone m => decide (m < 5)
  | .ethFrameRx p _ _ => decide (p < 26)
  | .frameVerdict p _ _ _ ecc _ _ _ => decide (p < 26) && decide (ecc < 64)
  | .learnCommit => true
  | .freezeTick => true
  | .ageTick => true
  | .lrnAgeWrite m _ => decide (m < 5)
  | .seedWrite m a _ => decide (m < 5) && decide (a < 0x4000000)
  | .anchorBatch => true
  | .anchorAnnounce p _ _ => decide (p < 26)
  | .anchorWithdraw p _ _ => decide (p < 26)
  | .anchorSyncReq _ _ => true
  | .anchorSyncData p _ _ => decide (p < 26)
  | .anchorSyncEnd _ _ => true
  | .anchorSilenceTimeout k => decide (k < 16)
  | .anchorDisable m k _ => decide (m < 5) && decide (k < 16)
  | .egressSelect p ecc => decide (p < 26) && decide (ecc < 64)
  | .txComplete p => decide (p < 26)
  | .preempt p _ => decide (p < 26)
  | .rakeAuditStart => true
  | .rakeAuditDone _ _ _ _ => true
  | .edyRateWrite m k _ => decide (m < 5) && decide (k < 8)
  | .flowSeedApply => true
  | .qcfgWrite m a _ => decide (m < 5) && decide (a < 0x4000000)
  | .gapMarker r => decide (r < 24)
  | .fifoReset tx r _ => decide (r < (if tx then 16 else 24))
  | .weiApply m => decide (m < 5)
  | .weiLoad m => decide (m < 5)
  | .sluChange m p => decide (m < 5) && decide (p < 22)
  | .sluCancel m p => decide (m < 5) && decide (p < 22)
  | .sluConfigChange p _ => decide (p < 22)
  | .gateEvent p _ => decide (p < 22)
  | .sluGateEnWrite m p _ => decide (m < 5) && decide (p < 22)
  | .sluGclWrite m p _ => decide (m < 5) && decide (p < 22)
  | .verifyTimer p => decide (p < 26)
  | .verifyRespond p => decide (p < 26)
  | .pauseFrameRx p _ _ => decide (p < 23)
  | .pauseExpire p => decide (p < 26)
  | .budRequest m => decide (m < 5)
  | .budQuery m => decide (m < 5)
  | .budRelease m => decide (m < 5)
  | .budRead m => decide (m < 5)
  | .budRecheck m => decide (m < 5)
  | .budCmdDone => true
  | .budAutoRecheck p => decide (p < 26)
  | .budEnable m _ => decide (m < 5)
  | .proofRx p _ => decide (p < 8)
  | .headRequestRx p _ => decide (p < 8)
  | .proofVerified p alarm => decide (p < 8) && decide (alarm.getD 0 < 256)
  | .verdictSigned p => decide (p < 8)
  | .hadRespTimeout p => decide (p < 8)
  | .hadRetryTimeout p => decide (p < 8)
  | .hadPeriod p => decide (p < 8)
  | .observedMinute p => decide (p < 8)
  | .lifeRecordTimer p => decide (p < 8)
  | .headEnWrite m p _ => decide (m < 5) && decide (p < 8)
  | .hadEnrol m k p => decide (m < 5) && decide (k < 64) && decide (p < 8)
  | .hadRetire m k => decide (m < 5) && decide (k < 64)
  | .hadRead m k => decide (m < 5) && decide (k < 64)
  | .hadReadmit m p => decide (m < 5) && decide (p < 8)
  | .hadReadLife m k => decide (m < 5) && decide (k < 64)
  | .freApply m => decide (m < 5)
  | .freLoad m => decide (m < 5)
  | .freReset m => decide (m < 5)
  | .freRecoveryTimeout k => decide (k < 256)
  | .freLatentTest k => decide (k < 256)
  | .freLatentReset k => decide (k < 256)
  | .fgdDeadline v => decide (v < 64)
  | .fgdStaleRepeat v => decide (v < 64)
  | .fgdApply m => decide (m < 5)
  | .fgdLoad m => decide (m < 5)
  | .linkPcsUp p => decide (p < 23)
  | .linkHoldExpire p => decide (p < 23)
  | .linkPcsDown p => decide (p < 23)
  | .trainTimeout p => decide (p < 23)
  | .eptEnable m p _ => decide (m < 5) && decide (p < 23)
  | .eptCfgWrite m p _ => decide (m < 5) && decide (p < 23)
  | .retrain m p => decide (m < 5) && decide (p < 23)
  | .eptSleep m p => decide (m < 5) && decide (p < 23)
  | .eptWake m p => decide (m < 5) && decide (p < 23)
  | .tc10SleepReqRx p => decide (p < 23)
  | .tc10SleepAgreed p => decide (p < 23)
  | .tc10SleepTimeout p => decide (p < 23)
  | .tc10WakeDetect p _ => decide (p < 23)
  | .sdActivity p => decide (p < 23)
  | .plcaBeaconTimeout p => decide (p < 23)
  | .plcaBeaconRx p => decide (p < 23)
  | .hiBer p => decide (p < 23)
  | .hifDmaPortWrite m _ => decide (m < 5)
  | .dmaPortStatus _ _ => true
  | .ringEnable m _ r _ => decide (m < 5) && decide (r < (if m = 2 then 24 else 16))
  | .ringDisable m _ r _ => decide (m < 5) && decide (r < (if m = 2 then 24 else 16))
  | .txDb t _ _ => decide (t < 24)
  | .rxDb r _ _ => decide (r < 24)
  | .hifTxStart t _ _ _ _ ready bus =>
    decide (t < 24) && ready.all (fun u => decide (u < 24)) && (match bus with | some c => decide (16 ≤ t) && decide (26 ≤ c) && decide (c < 58) | none => true)
  | .rxDescComplete r _ _ => decide (r < 24)
  | .dmaError _ r err _ => decide (r < 24) && decide (err < 16)
  | .msixCoalTimer _ r => decide (r < 24)
  | .msixUnmask reqs _ => reqs.all (fun x => decide (x.2.1 < 0x2000))
  | .pcieReset => true
  | .qspiWrite _ => true
  | .qspiRead _ _ => true
  | .qspiStatus => true
  | .ibmRead _ _ _ => true
  | .ibmWrite _ _ _ => true
  | .ibmFence _ _ _ => true
  | .canFrameRx c _ => decide (c < 24)
  | .cauVerdict => true
  | .canCopyLinked c => decide (c < 24)
  | .canArbitration c => decide (c < 24)
  | .canTxSuccess c => decide (c < 24)
  | .canTxError c t _ _ _ => decide (c < 24) && decide (t < 16)
  | .canArbLost c => decide (c < 24)
  | .canBusError c t _ id inc => decide (c < 24) && decide (t < 16) && decide (id < 0x100000000) && decide (inc < 16)
  | .canIdleDetect c => decide (c < 24)
  | .canPex c id => decide (c < 24) && decide (id < 0x100000000)
  | .canBoffDelay c => decide (c < 24)
  | .txlAged c => decide (c < 24)
  | .recover m c => decide (m < 5) && decide (c < 24)
  | .txlFlush m c => decide (m < 5) && decide (c < 24)
  | .rxqPop m c => decide (m < 5) && decide (c < 24)
  | .l0Release m c k _ => decide (m < 5) && decide (c < 24) && decide (k < 4)
  | .canEnable m c _ => decide (m < 5) && decide (c < 24)
  | .listenWrite m c _ => decide (m < 5) && decide (c < 24)
  | .listenTakeEffect c => decide (c < 24)
  | .linFrameRx l sof _ st => decide (l < 8) && decide (sof < 0x100000000) && decide (st < 4)
  | .linResponseTimeout l => decide (l < 8)
  | .linCopyLinked l => decide (l < 8)
  | .linHeaderRx l f _ parity => decide (l < 8) && decide (f < 64) && decide (parity < 4)
  | .linSlot l => decide (l < 8)
  | .linSwitch m l => decide (m < 5) && decide (l < 8)
  | .linSleep m l => decide (m < 5) && decide (l < 8)
  | .linWake m l => decide (m < 5) && decide (l < 8)
  | .linGotosleepRx l => decide (l < 8)
  | .linInactivity l => decide (l < 8)
  | .linWakeRx l => decide (l < 8)
  | .linWakeRetry l => decide (l < 8)
  | .linEnable m l _ => decide (m < 5) && decide (l < 8)
  | .cflRxItem => true
  | .cflTimeout k => decide (k < 8192)
  | .cflDeferredTx j => decide (j < 8192)
  | .cflCyclicTx j => decide (j < 8192)
  | .cflTunHold j => decide (j < 8192)
  | .cflItemComplete => true
  | .cflEnable m _ => decide (m < 5)
  | .syncRx port number _ seq _ _ ingress tlv => decide (tlv.length ≤ 32) && decide (port < 26) && decide (number < 128) && decide (seq < 0x10000) && decide (ingress < 0x10000000000000000)
  | .followUpRx port number seq _ _ tlv => decide (tlv.length ≤ 32) && decide (port < 26) && decide (number < 128) && decide (seq < 0x10000)
  | .syncTimeout d => decide (d < 4)
  | .gmSyncTimer d => decide (d < 4)
  | .pdelayTimer port => decide (port < 26)
  | .pdelayReqRx port seq t2 requester => decide (port < 26) && decide (seq < 0x10000) && decide (t2 < 0x10000000000000000) && decide (requester.length = 10)
  | .pdelayRespRx port seq t1 t2 t3 t4 => decide (port < 26) && decide (seq < 0x10000) && decide (t1 < 0x10000000000000000) && decide (t2 < 0x10000000000000000) && decide (t3 < 0x10000000000000000) && decide (t4 < 0x10000000000000000)
  | .gptpOtherRx number => decide (number < 128)
  | .domStep m d => decide (m < 5) && decide (d < 4)
  | .domSlew m d => decide (m < 5) && decide (d < 4)
  | .domSetRate m d => decide (m < 5) && decide (d < 4)
  | .domUnlock m d => decide (m < 5) && decide (d < 4)
  | .slewDone d => decide (d < 4)
  | .domEnable m d _ => decide (m < 5) && decide (d < 4)
  | .domRateMaxWrite m d _ => decide (m < 5) && decide (d < 4)
  | .timFrcIncWrite m _ => decide (m < 5)
  | .srvOffset m _ => decide (m < 5)
  | .hfrcMeasure _ _ => true
  | .vltInfo m => decide (m < 5)
  | .vltGenerate m => decide (m < 5)
  | .vltDerive m => decide (m < 5)
  | .vltCommit m => decide (m < 5)
  | .vltDiscard m => decide (m < 5)
  | .vltRevoke m => decide (m < 5)
  | .vltDelete m => decide (m < 5)
  | .vltSign m => decide (m < 5)
  | .vltVerify m => decide (m < 5)
  | .vltHash m => decide (m < 5)
  | .vltMac m => decide (m < 5)
  | .vltEncrypt m => decide (m < 5)
  | .vltDecrypt m => decide (m < 5)
  | .vltRandom m => decide (m < 5)
  | .vltAttest m => decide (m < 5)
  | .authNonce m => decide (m < 5)
  | .nonceExpire m => decide (m < 5)
  | .vltClaim m => decide (m < 5)
  | .vltTransfer m => decide (m < 5)
  | .tamperClear m => decide (m < 5)
  | .pageUnlock m => decide (m < 5)
  | .setCosign m => decide (m < 5)
  | .updLock m => decide (m < 5)
  | .wipe m => decide (m < 5)
  | .reinit m => decide (m < 5)
  | .importCmd m => decide (m < 5)
  | .vltAuthoriseDelegated m => decide (m < 5)
  | .vaultOpDone => true
  | .engineKeyLoad _ n => decide (n < 2048)
  | .orphanGraceExpire slot => decide (slot < 256)
  | .tamperClass1 sensor => decide (sensor < 256)
  | .tamperClass2 => true
  | .tamperMesh => true
  | .counterReserve => true
  | .cauFvRecord => true
  | .vaultStartup n _ _ bad => decide (1 ≤ n) && decide (n ≤ 3) && bad.all (fun i => decide (8 ≤ i) && decide (i < 256))
  | .vaultS4 bad => bad.all (fun i => decide (8 ≤ i) && decide (i < 256))
  | .lceSaApply m p => decide (m < 5) && lcePortOk p
  | .lceSaRetire m p => decide (m < 5) && lcePortOk p
  | .lceSaLoad m p => decide (m < 5) && lcePortOk p
  | .lceTxAnWrite m p _ => decide (m < 5) && lcePortOk p
  | .cauApply m => decide (m < 5)
  | .cauRetire m => decide (m < 5)
  | .cauLoad m => decide (m < 5)
  | .heartbeatTimer => true
  | .heartbeatRx _ _ => true
  | .hbEdge => true
  | .hbMissed => true
  | .arbClaimTimer => true
  | .arbClaimSeen => true
  | .arbPresencePulse => true
  | .arbPresenceSeen => true
  | .takeover => true
  | .twinStartWait => true
  | .twinStartTimeout => true
  | .digestSend => true
  | .digestRx _ => true
  | .divergeRx _ => true
  | .selftestDone _ => true
  | .selftestRx _ => true
  | .selftestTimeout => true
  | .roleOfferRx _ => true
  | .roleAcceptRx _ => true
  | .roleSwitch => true
  | .rotateTimer => true
  | .twinSyncReqRx _ => true
  | .twinSyncDataRx _ => true
  | .twinSyncEndRx _ => true
  | .attestReqRx _ => true
  | .attestRepRx _ => true
  | .rotate m => decide (m < 5)
  | .forcePrimary m => decide (m < 5)
  | .yield m => decide (m < 5)
  | .resync m => decide (m < 5)
  | .twinEnable m _ => decide (m < 5)
  | .shadowAgeExpire c => decide (c < 24)
  | .cfgDigestRecompute => true
  | .rosterCheck => true
  | .rosterReport n _ => decide (n < 512)
  | .pwrCmdDormant m => decide (m < 5)
  | .pwrCmdSelective m => decide (m < 5)
  | .pwrCmdMgsOnly m => decide (m < 5)
  | .pwrCmdPartial m => decide (m < 5)
  | .pwrCmdFull m => decide (m < 5)
  | .transDone => true
  | .transAbort => true
  | .memberSilent k => decide (k < 47)
  | .sleepPoint => true
  | .sleepFail => true
  | .inhRelease => true
  | .switchesOpen => true
  | .wakeLatch k _ => decide (k < 47)
  | .swFrameMatch c id _ _ dlc _ _ _ => decide (c < 24) && decide (id < 0x100000000) && decide (dlc < 16)
  | .swDecodeError c _ _ => decide (c < 24)
  | .aonTimerExpire _ => true
  | .minOffEnd => true
  | .powerGood _ => true
  | .pgTimeout => true
  | .xinaStable _ => true
  | .xinaStartTimeout => true
  | .xinaLost => true
  | .xinaRetry _ _ => true
  | .xinbStable => true
  | .pllUnlock _ => true
  | .pllLocked _ => true
  | .gate m _ => decide (m < 5)
  | .gateClose pg => headerPage pg
  | .falseWakeWindow k => decide (k < 47)
  | .wakeComplete => true
  | .checkpointRestore _ _ => true
  | .powerOnReset => true
  | .brownout _ => true
  | .resetN => true
  | .warm m => decide (m < 5)
  | .bootVerifyDone => true
  | .restoreComplete _ => true
  | .lockstepMismatch => true
  | .watchdogExpire => true
  | .mgsRestartDone => true
  | .infoCmd m => decide (m < 5)
  | .journalSave m => decide (m < 5)
  | .journalSync m => decide (m < 5)
  | .authorise m => decide (m < 5)
  | .unborUnlock m => decide (m < 5)
  | .headEnrol m => decide (m < 5)
  | .headRetire m => decide (m < 5)
  | .rosterAdd m => decide (m < 5)
  | .rosterRemove m => decide (m < 5)
  | .rosterReplace m => decide (m < 5)
  | .logCheckpoint m => decide (m < 5)
  | .logFlush m => decide (m < 5)
  | .secAck m => decide (m < 5)
  | .restart m => decide (m < 5)
  | .marginRun m => decide (m < 5)
  | .setIds m => decide (m < 5)
  | .unborLock m => decide (m < 5)
  | .journalCommitRecord remap => remap.all (fun k => decide (k < 4096))
  | .journalCompact => true
  | .eventLogWrite remap => remap.all (fun k => decide (k < 4096))
  | .suppressed => true
  | .sensorSample _ => true
  | .begin m => decide (m < 5)
  | .updWrite m => decide (m < 5)
  | .finish m => decide (m < 5)
  | .activate m => decide (m < 5)
  | .confirm m => decide (m < 5)
  | .abort m => decide (m < 5)
  | .updTrialExpire => true
  | .marginPeriod => true
  | .marginRunDone _ _ _ _ _ _ _ _ _ _ _ _ => true
  | .avsStep => true
  | .unborHelp => true
  | .unborInfo => true
  | .unlock _ => true
  | .lock => true
  | .rd a _ => decide (a < 0x4000000)
  | .wr a _ => decide (a < 0x4000000)
  | .log _ => true
  | .sens => true
  | .fence => true
  | .unborExpire => true
  | .pfcCntWrite m k _ _ => decide (m < 5) && decide (k < 64)
  | .svcWrite m n => decide (m < 5) && decide (n < 4)
  | .svcLoad m n _ k => decide (m < 5) && decide (n < 4) && decide (k < 8)
  | .svcLoadDone n => decide (n < 4)
  | .svcStop m n => decide (m < 5) && decide (n < 4)
  | .svcRestart m n => decide (m < 5) && decide (n < 4)
  | .svcWdtExpire n _ => decide (n < 4)
  | .svcWdtService c => decide (c < 4)
  | .svcAutostart => true
  | .svcClaimRead c r => decide (c < 4) && decide (r < 8)
  | .svcClaimRelease c r => decide (c < 4) && decide (r < 8)
  | .ddrReady _ => true
  | .gpioEdge n _ => decide (n < 32)
  | .gpiOutWrite m _ => decide (m < 5)
  | .sleepLatch _ => true
  | .swFrameDecoded c _ => decide (c < 24)
  | .sdCollision p => decide (p < 23)
  | .followUpTimeout d => decide (d < 4)

/-- A well-formed command. -/
abbrev Instr.WellFormed (i : Instr) : Prop := i.wf = true

end Sys2Proof
end

