-- ==== Sys2Proof/Tests/Slice0.lean ====
section
/-! SUPPORT. The model's own tests: ill-formed commands are refused by the check of well-formedness, a few commands on small states, and for
each statement with hypotheses one theorem that meets them clause by clause. -/

section

set_option Elab.async false

open Sys2Proof Sys2Proof.Machine

namespace Sys2Proof.Tests

/-! ### States of the tests -/

/-- A powered device that forwards. -/
def up : State :=
  { State.reset with
    pwr := { State.reset.pwr with
             state := 5, busy := false, fwdOn := true, lphyOn := true, mphyOn := true, serdesOn := true, svcOn := true,
             forwarding := true, canPath := true, boot := 4 },
    mgs := { State.reset.mgs with running := true } }
/-- An ADT entry of a MAC, VID and port, with further bits. -/
def adtE (mac vid port more : Nat) : BitVec 512 := BitVec.ofNat 512 (1 + mac * 2 ^ 8 + vid * 2 ^ 56 + port * 2 ^ 72 + more)
def linkUp (p : Nat) : State := up.setEport p { Ept.reset with link := 3 }
def opened : State := { up with vlt := { up.vlt with vstate := 1, enrolled := true } }

/-! ### Well-formed commands -/

/-- Each check of `Instr.wf` refuses the first operand past its range. -/
theorem test_illformed_refused_1 : ([.proofVerified 8 none,
    .proofVerified 0 (some 256),
    .regWrite 5 0 0 false 0,
    .regWrite 0 0x4000000 0 false 0,
    .regWrite 2 (2 ^ 56) 0 false 0,
    .regWrite 0 0 0 false 4,
    .multiwordLowRead 5 0 false 0 false,
    .multiwordLowRead 0 0x4000000 false 0 false,
    .multiwordLowRead 0 0 false 4 false,
    .fifoReset false 24 [],
    .fifoReset true 16 [],
    .ringEnable 0 false 16 0,
    .ringEnable 2 false 24 0,
    .ringDisable 0 true 16 0,
    .hifTxStart 24 [] false [] false [] none,
    .hifTxStart 0 [] false [] false [24] none,
    .hifTxStart 0 [] false [] false [] (some 26)] : List Instr).all (fun i => !i.wf) = true := by decide +kernel

/-- Each check of `Instr.wf` refuses the first operand past its range. -/
theorem test_illformed_refused_2 : ([.hifTxStart 16 [] false [] false [] (some 25),
    .hifTxStart 16 [] false [] false [] (some 58),
    .vaultStartup 0 false false [],
    .vaultStartup 4 false false [],
    .vaultStartup 1 false false [7],
    .vaultS4 [256],
    .eventLogWrite [4096],
    .journalCommitRecord [4096],
    .intRawClear 0 8 0,
    .cntSnapAck 0 0 0x10000,
    .counterClr 0 0x4000000,
    .tapRead 0 16,
    .ethFrameRx 26 [] false,
    .frameVerdict 0 false false false 64 0 0 0,
    .anchorSilenceTimeout 16,
    .edyRateWrite 0 8 0,
    .gapMarker 24] : List Instr).all (fun i => !i.wf) = true := by decide +kernel

/-- Each check of `Instr.wf` refuses the first operand past its range. -/
theorem test_illformed_refused_3 : ([.sluChange 0 22,
    .pauseFrameRx 23 [] false,
    .proofRx 8 [],
    .hadEnrol 0 64 0,
    .freRecoveryTimeout 256,
    .fgdDeadline 64,
    .txDb 24 0 false,
    .dmaError false 0 16 0,
    .canFrameRx 24 [],
    .canBusError 0 0 false 0x100000000 0,
    .canBusError 0 0 false 0 16,
    .l0Release 0 0 4 0,
    .linFrameRx 8 0 [] 0,
    .linFrameRx 0 0x100000000 [] 0,
    .linFrameRx 0 0 [] 4,
    .linHeaderRx 0 64 false 0,
    .linHeaderRx 0 0 false 4] : List Instr).all (fun i => !i.wf) = true := by decide +kernel

/-- Each check of `Instr.wf` refuses the first operand past its range. -/
theorem test_illformed_refused_4 : ([.cflTimeout 8192,
    .cflDeferredTx 8192,
    .syncRx 0 0 false 0 0 0 0 (List.replicate 33 0),
    .syncRx 26 0 false 0 0 0 0 [],
    .syncRx 0 128 false 0 0 0 0 [],
    .syncRx 0 0 false 0 0 0 0x10000000000000000 [],
    .syncTimeout 4,
    .pdelayReqRx 0 0 0x10000000000000000 (List.replicate 10 0),
    .pdelayReqRx 0 0 0 (List.replicate 9 0),
    .pdelayRespRx 0 0 0x10000000000000000 0 0 0,
    .pdelayRespRx 0 0 0 0 0x10000000000000000 0,
    .pdelayRespRx 0 0 0 0 0 0x10000000000000000,
    .engineKeyLoad false 2048,
    .orphanGraceExpire 256,
    .tamperClass1 256,
    .lceSaApply 0 16,
    .rosterReport 512 []] : List Instr).all (fun i => !i.wf) = true := by decide +kernel

/-- Each check of `Instr.wf` refuses the first operand past its range. -/
theorem test_illformed_refused_5 : ([.memberSilent 47,
    .swFrameMatch 0 0 false false 16 [] 0 0,
    .svcWrite 0 4,
    .svcWdtService 4,
    .svcClaimRead 0 8,
    .gpioEdge 32 false] : List Instr).all (fun i => !i.wf) = true := by decide +kernel

/-- The same commands with every operand in range are accepted. -/
theorem test_wellformed_accepted_1 : ([.proofVerified 7 (some 255),
    .regWrite 0 0 0 false 0,
    .regWrite 2 0x4000000 0 false 0,
    .multiwordLowRead 0 0 false 0 false,
    .fifoReset false 16 [],
    .ringEnable 2 false 16 0,
    .hifTxStart 16 [] false [] false [] (some 57),
    .msixUnmask [] false,
    .vaultStartup 1 false false [],
    .vaultS4 [],
    .eventLogWrite [],
    .journalCommitRecord [],
    .intRawClear 0 0 0,
    .cntSnapAck 0 0 0,
    .counterClr 0 0,
    .tapRead 0 0,
    .ethFrameRx 0 [] false] : List Instr).all (fun i => i.wf) = true := by decide +kernel

/-- The same commands with every operand in range are accepted. -/
theorem test_wellformed_accepted_2 : ([.frameVerdict 0 false false false 0 0 0 0,
    .anchorSilenceTimeout 0,
    .edyRateWrite 0 0 0,
    .gapMarker 0,
    .sluChange 0 0,
    .pauseFrameRx 0 [] false,
    .proofRx 0 [],
    .hadEnrol 0 0 0,
    .freRecoveryTimeout 0,
    .fgdDeadline 0,
    .txDb 0 0 false,
    .dmaError false 0 0 0,
    .canFrameRx 0 [],
    .canBusError 0 0 false 0 0,
    .l0Release 0 0 0 0,
    .linFrameRx 0 0 [] 0,
    .linHeaderRx 0 0 false 0] : List Instr).all (fun i => i.wf) = true := by decide +kernel

/-- The same commands with every operand in range are accepted. -/
theorem test_wellformed_accepted_3 : ([.cflTimeout 0,
    .cflDeferredTx 0,
    .syncRx 0 0 false 0 0 0 0 [],
    .syncTimeout 0,
    .pdelayReqRx 0 0 0 (List.replicate 10 0),
    .pdelayRespRx 0 0 0 0 0 0,
    .engineKeyLoad false 0,
    .orphanGraceExpire 0,
    .tamperClass1 0,
    .lceSaApply 0 0,
    .rosterReport 0 [],
    .memberSilent 0,
    .swFrameMatch 0 0 false false 0 [] 0 0,
    .svcWrite 0 0,
    .svcWdtService 0,
    .svcClaimRead 0 0,
    .gpioEdge 0 false] : List Instr).all (fun i => i.wf) = true := by decide +kernel

/-! ### Worked examples of the spec -/

/-- The nine ASCII bytes "123456789". -/
def nineDigits : List Byte := [0x31, 0x32, 0x33, 0x34, 0x35, 0x36, 0x37, 0x38, 0x39]

/-- R67's note. -/
theorem test_crc32c_check_value : crc32c 0xFFFFFFFF nineDigits = 0x1CF96D7C := by decide +kernel

/-- R217's check value. -/
theorem test_crc16_check_value : crc16 nineDigits = 0x29B1 := by decide +kernel

/-- R65's example: CAN23 identifier 0x7FF has handle 0xBFFF. -/
theorem test_can_handle : (State.reset.busHandle 49 (busMk 0 0x7FF 0 0 [])).1 = some 0xBFFF := by decide +kernel

/-- R65's example: LIN2 identifier 0x21 has handle 0xC0A1. -/
theorem test_lin_handle : (State.reset.busHandle 52 (busMk 0 0x21 0 0x30000 [])).1 = some 0xC0A1 := by decide +kernel

/-- The life example of R174: 883,333 parts per million at the reset weights. -/
theorem test_life_ppm :
    State.reset.lifePpm { Life.reset with on := 1800000, hot := 240000, cycles := 20000, heater := 600000 } = 883333 := by decide +kernel

/-- The fold example of R277, in units of 2^-16 ns. -/
theorem test_domain_time_fold :
    let D : Dom := { Dom.reset with offset := 5000000 * 65536, rate := 4295, base := 4295, epoch := 9000000000 * 65536 }
    D.offset + D.rateTerm (10000000000 * 65536) = 5001000 * 65536 + 499 ∧
    (D.setRate (10000000000 * 65536) 100000 8590 0).offset = 5001000 * 65536 + 499 ∧
    (D.setRate (10000000000 * 65536) 100000 8590 0).rateTerm (10001000000 * 65536) = 2 * 65536 := by decide +kernel

/-- The data of the Confluence example: speed reads 0x1A40, brake 1 and cruise 0. -/
theorem test_signal_extraction :
    let d : List Byte := [0xFF, 0x40, 0x1A, 0x10, 0xFF, 0xFF, 0xFF, 0xFF]
    payField d 8 16 false = 0x1A40 ∧ payField d 28 2 false = 1 ∧ payField d 24 2 false = 0 := by decide +kernel

/-- The payload of the Confluence example but for its alive counter: entries 2,000 to 2,003 placed over FILL 0xFF. -/
theorem test_signal_placement :
    payPut (payPut (payPut (payPut (List.replicate 8 0xFF) 7 16 true 0x0A41) 23 16 true 0x0708) 32 2 false 1) 34 2 false 0 =
      [0x0A, 0x41, 0x07, 0x08, 0xF1, 0xFF, 0xFF, 0xFF] := by decide +kernel

/-! ### One step on a small state -/

/-- R40: two fence requests of a master get tickets 1 and 2. -/
theorem test_fence_tickets_count :
    (match exec (.fenceReq 3) up with
     | .next s =>
       (match exec (.fenceReq 3) s with
        | .next t => decide (s.wordAt 3 Reg.GLB_FENCE_TICKET = 1 ∧ t.wordAt 3 Reg.GLB_FENCE_TICKET = 2)
        | _ => false)
     | _ => false) = true := by decide +kernel

/-- A device whose FRC runs from the crystal. -/
def ticking : State := let s := up.wr Reg.CRU_CLK_STAT 1; { s with pwr := { s.pwr with mgsOn := true }, frcNs := 7 }

/-- R272: on an empty queue the FRC goes on by TIM_FRC_INC. -/
theorem test_step_idles :
    (match step ticking with
     | .next t => decide (t.pending = [] ∧ t.frc16 = 7 * 65536 + (up.rd Reg.TIM_FRC_INC).toNat)
     | _ => false) = true := by
  decide +kernel

/-! ### Hypotheses of the statements about all commands -/

/-- The hypotheses of `Obligations.StepTakesTheFrontCommand` hold together, clause by clause. -/
theorem hyps_StepTakesTheFrontCommand :
    ({ up with pending := [.tapCommitDone] } : State).pending = .tapCommitDone :: [] ∧
    (ticking.pending = [] ∧ ticking.frcRuns = true ∧ ticking.frc16 + (ticking.rd Reg.TIM_FRC_INC).toNat < 2 ^ 80) ∧
    (up.pending = [] ∧ up.frcRuns = false) := ⟨rfl, by decide +kernel, by decide +kernel⟩

/-- `Obligations.EveryStepKeepsTheCanonicalForm` starts from a state in canonical form. -/
theorem hyps_EveryStepKeepsTheCanonicalForm : State.reset.Inv := ⟨by decide +kernel, by decide +kernel⟩

/-- `Obligations.PersistentCountersNeverFall` starts from a step that answers a next state. -/
theorem hyps_PersistentCountersNeverFall : ∃ t, step State.reset = .next t := ⟨_, rfl⟩


/-! ### Witnesses of 02 -/

namespace W02

def rd0 : RegDesc × Nat := (⟨0, 1, 0, .ro, 0, 0, false, [], none⟩, 0)
def g (pg : Nat) : State := up.wr (itemKey pg Reg.GLB_PERM_DATA) 0x1F
def w02_1 := (up.wr Reg.GLB_PERM_SEL 0x3FFF)
def w02_2 := (up.wr (Reg.INT_RAW 0xB8000) 0x7)
def w02_3 := ((up.wr (Reg.INT_RAW 0x99000) 0xFF))
def w02_4 := ((up.wr (Reg.INT_RAW 0xC0000) 0xFF))
def w02_5 := (up.wr Reg.MGS_RESTART 0x1FFFF)
def w02_6 := ((findReg .mgs (Reg.MGS_RESTART % 0x1000)).getD rd0).1
def w02_7 := ((findReg .mgs (Reg.MGS_RESTART % 0x1000)).getD rd0).2
def fn (m n : Nat) (l : List Ticket) : State := { up.wr (bankKey m Reg.GLB_FENCE_TICKET) (wd n) with fences := [(m, ⟨l, [0, 7]⟩)] }
def w02_8 := (fn 3 0x1FFFFFFF [⟨5, [0], false⟩])
def w02_9 := (fn 4 6 [⟨5, [0, 7, 0x100], false⟩, ⟨6, [0], true⟩])
def w02_10 := ((fn 4 6 [⟨5, [0, 7, 0x100], false⟩]).wr (bankKey 4 Reg.GLB_FENCE_WAIT) 5)
def w02_11 := { up.wr (Reg.BLK_CTRL 0x7000) 5 with resets := [7] }
def w02_12 := (up.wr (Reg.BLK_STAT 0x7000) 1)
def w02_13 := (up.wr (Reg.BLK_CTRL 0x7000) 3)
def w02_14 := (up.wr Reg.MGS_RESTART 5)
def snB (all : Bool) (v : Bool) : State :=
  snapPages.foldl (fun s pg => (s.setSnap pg ⟨true, all, [], 5⟩).setSlot (snapSlot pg) ⟨v, !v, 3, 7, ⟨0, 0, 0, [], []⟩, if v then none else some (codeRes Code.ok)⟩) up
def w02_15 := ((snB true true).wr (itemKey 0xF0 Reg.GLB_PERM_DATA) 0x1F)
def ackS (m v : Nat) : State := (g 0xF0).setSlot (mgsSlot 4) ⟨decide (v = 1), decide (v = 0), m, 7, ⟨0, 0, 0, [], []⟩, none⟩
def w02_16 := (up.setSlot (tapSlot 3) { Slot.reset with busy := true })
def w02_17 := (up.setSlot (budSlot 3) { Slot.reset with valid := true })
def tp (i : Nat) (key : Nat) : State := ((up.wr (bankKey 3 Reg.TAP_INDEX) (wd i)).wr (bankKey 3 (Reg.TAP_KEY 0)) (wd key))
def w02_18 := ((tp 0 0x1234).setTent 2 (up.adtIndex 0x1234 0) (BitVec.ofNat 512 (1 + 0x1234 * 2 ^ 8)))
def w02_19 := ((tp 0 0).setSlot (tapSlot 3) { Slot.reset with busy := true, held := some (codeRes 2) })
def tq (l : List Staged) : State := { (up.setSlot (tapSlot 3) { Slot.reset with busy := true }) with commitQ := [3], stage := [(3, l)] }
def w02_20 := (tq [.write 0 5 1, .delKey 2 77])
def w02_21 := ((findReg .evl (Reg.EVL_CFG % 0x1000)).getD rd0).1
def w02_22 := ((findReg .evl (Reg.EVL_CFG % 0x1000)).getD rd0).2
def w02_23 := (up.wr (Reg.EVL_TOTAL + 4) 9)
def lk : State := up.wr (Reg.BLK_LOCK 0xF1000) 1
def w02_24 := { g 0 with pwr := { up.pwr with mgsOn := true } }
def g2 : State :=
  { ((up.wr (Reg.BLK_LOCK 0xF1000) 1).wr (itemKey 0xF1 Reg.GLB_PERM_DATA) 0x1F) with svc := { up.svc with parts := [(0, { Part.reset with state := 1, cores := 2, pages := [(0xF1, 0xF1)] })] } }

/-- The hypotheses of `Obligations.HeaderWritesTakeEffect` hold together, clause by clause. -/
theorem hyps_HeaderWritesTakeEffect :
    ((w02_1.admits 3 Reg.GLB_PERM_DATA = true)) ∧
    ((256 ≠ 200) ∧ ((g 256).admits 0 (Reg.BLK_LOCK (256 * 4096)) = true)) ∧
    ((241 ≠ 200) ∧ (((g 241).wr 987136 0).admits 4 (Reg.ERR_CAP0 (241 * 4096)) = true)) ∧
    ((32 ≠ 4) ∧ (32 ≠ 200) ∧ (pageOf 32 = some (Blk.bsn, 0)) ∧ (up.admits 3 (Reg.INT_FORCE (32 * 4096)) = true)) ∧
    ((0 ≠ 4) ∧ (0 ≠ 200) ∧ (pageOf 0 = some (Blk.glb, 0)) ∧ (up.admits 3 (Reg.INT_FORCE (0 * 4096)) = true)) ∧
    ((184 ≠ 4) ∧ (184 ≠ 200) ∧ (pageOf 184 = some (Blk.lin, 0)) ∧ (w02_2.admits 3 (Reg.INT_RAW (184 * 4096)) = true)) ∧
    ((153 ≠ 4) ∧ (153 ≠ 200) ∧ (pageOf 153 = some (Blk.can, 1)) ∧ (w02_3.admits 3 (Reg.INT_RAW (153 * 4096)) = true)) ∧
    ((192 ≠ 4) ∧ (192 ≠ 200) ∧ (pageOf 192 = some (Blk.tim, 0)) ∧ (w02_4.admits 3 (Reg.INT_RAW (192 * 4096)) = true)) ∧
    ((pageOf (Reg.MGS_RESTART / 4096) = some (Blk.mgs, 0)) ∧ (findReg Blk.mgs (Reg.MGS_RESTART % 4096) = some (w02_6, w02_7)) ∧ (w02_6.acc =
     Acc.evt) ∧ (Blk.mgs ≠ Blk.pfc) ∧ (w02_5.admits 3 Reg.MGS_RESTART = true)) := by
  and_intros <;> decide +kernel

/-- The hypotheses of `Obligations.FenceRequestIssuesNextTicket` hold together, clause by clause. -/
theorem hyps_FenceRequestIssuesNextTicket :
    ((w02_8.admits 3 Reg.GLB_FENCE_REQ = true)) ∧
    ((up.admits 3 Reg.GLB_FENCE_REQ = true)) ∧
    ((536870910 < 536870911)) ∧
    ((4 < 5)) := by
  and_intros <;> decide +kernel

/-- The hypotheses of `Obligations.FenceTicketRetires` hold together, clause by clause. -/
theorem hyps_FenceTicketRetires :
    (((w02_9.fence 4).waiting = [{ num := 5, pages := [0, 7, 256], commit := false : Ticket },
     { num := 6, pages := [0], commit := true : Ticket }]) ∧ ({ num := 5, pages := [0, 7, 256], commit := false : Ticket }.commit = false) ∧
     (w02_9.inj = []) ∧ (w02_9.hif.ibmWait = []) ∧ (w02_9.mgs.unborTicket = 0) ∧ (4 < 5) ∧ (∀ (pg : Nat), pg ∈
     { num := 5, pages := [0, 7, 256], commit := false : Ticket }.pages → pg < 257)) ∧
    (((w02_10.fence 4).waiting = [{ num := 5, pages := [0, 7, 256], commit := false : Ticket }]) ∧
     ({ num := 5, pages := [0, 7, 256], commit := false : Ticket }.commit = false) ∧ (w02_10.inj = []) ∧ (w02_10.hif.ibmWait = []) ∧
     (w02_10.mgs.unborTicket = 0) ∧ (4 < 5) ∧ (∀ (pg : Nat), pg ∈ { num := 5, pages := [0, 7, 256], commit := false : Ticket }.pages → pg <
     257)) := by
  and_intros <;> decide +kernel

/-- The hypotheses of `Obligations.BlockResetAndQuiesceBits` hold together, clause by clause. -/
theorem hyps_BlockResetAndQuiesceBits :
    ((pageOf 7 = some (Blk.gpi, 0)) ∧ (7 ≠ 200) ∧ ((up.wr Reg.GPI_OE 5).inj = []) ∧ (Blk.gpi ∈ [Blk.gpi, Blk.icl, Blk.ict, Blk.srt, Blk.adt,
     Blk.edy, Blk.wei, Blk.fre, Blk.tim, Blk.cau, Blk.upd, Blk.mgn, Blk.pfc]) ∧ ((up.wr Reg.GPI_OE 5).admits 3 (Reg.BLK_CTRL (7 * 4096)) =
     true)) ∧
    ((7 ∈ w02_11.resets) ∧ (7 ≠ 32)) ∧
    ((pageOf (7 : Nat) = some (Blk.gpi, (0 : Nat))) ∧ (w02_12.inj = []) ∧ (bit (2 : BitVec (32 : Nat)) (2 : Nat) = false) ∧ ((7 : Nat) ≠ (4
     : Nat)) ∧ (Blk.gpi ∈ [Blk.gpi, Blk.icl, Blk.ict, Blk.srt, Blk.adt, Blk.edy, Blk.wei, Blk.fre, Blk.tim, Blk.dom, Blk.cau, Blk.lce,
     Blk.upd, Blk.mgn, Blk.bud, Blk.fgd, Blk.twn, Blk.had, Blk.lrn, Blk.bsn, Blk.rak, Blk.egs, Blk.slu, Blk.tap, Blk.hif, Blk.svc, Blk.vlt])
     ∧ (w02_12.admits (3 : Nat) (Reg.BLK_CTRL ((7 : Nat) * (4096 : Nat))) = true)) ∧
    ((w02_13.rb (Reg.BLK_CTRL (7 * 4096)) 1 = true)) := by
  and_intros <;> decide +kernel

/-- The hypotheses of `Obligations.SnapshotsCaptureAndRelease` hold together, clause by clause. -/
theorem hyps_SnapshotsCaptureAndRelease :
    ((240 ≠ 200) ∧ (240 < 257) ∧ (w02_14.admits 3 (Reg.CNT_SNAP (240 * 4096)) = true) ∧ ((w02_14.slot (snapSlot 240)).idle = true)) ∧
    ((up.admits 3 (Reg.CNT_SNAP 0) = true) ∧ (∀ (pg : Nat), pg ∈ snapPages → (up.slot (snapSlot pg)).idle = true)) ∧
    ((((snB false false).slot (snapSlot 240)).busy = true) ∧ (((snB false false).slot (snapSlot 240)).held = some (codeRes Code.ok)) ∧
     (((snB false false).snap 240).all = false) ∧ ((snB false false).svc.release = [])) ∧
    ((240 ≠ 200) ∧ (240 < 257) ∧ ((snB false true).admits 3 (Reg.CNT_SNAP_ACK (240 * 4096)) = true) ∧ (((snB false true).slot (snapSlot
     240)).valid = true) ∧ (((snB false true).slot (snapSlot 240)).owner = 3) ∧ (((snB false true).slot (snapSlot 240)).seq < 65536) ∧
     (((snB false true).slot (snapSlot 240)).idle = false) ∧ (((snB false true).snap 240).all = false)) ∧
    ((((snB true false).slot (snapSlot 240)).busy = true) ∧ (((snB true false).snap 240).all = true) ∧ ((snB true false).svc.release = []) ∧
     (∀ (pg : Nat), pg ∈ snapPages → ((snB true false).slot (snapSlot pg)).busy = true ∧ ((snB true false).slot (snapSlot pg)).held = some
     (codeRes Code.ok))) ∧
    (((snB true true).admits 3 (Reg.CNT_SNAP_ACK 0) = true) ∧ (((snB true true).slot (snapSlot 0)).valid = true) ∧ (((snB true true).slot
     (snapSlot 0)).owner = 3) ∧ (((snB true true).slot (snapSlot 0)).seq < 65536) ∧ (((snB true true).snap 0).all = true)) ∧
    ((240 ≠ 200) ∧ (240 ≠ 0) ∧ ((snB true true).admits 3 (Reg.CNT_SNAP_ACK (240 * 4096)) = true) ∧ (((snB true true).snap 240).all = true)) ∧
    ((240 ≠ 200) ∧ (240 ≠ 0) ∧ (w02_15.admits 4 (Reg.CNT_SNAP_ACK (240 * 4096)) = true) ∧ ((w02_15.snap 240).all = true)) := by
  and_intros <;> decide +kernel

/-- The hypotheses of `Obligations.ResultAcknowledged` hold together, clause by clause. -/
theorem hyps_ResultAcknowledged :
    ((ackSlot 4 Reg.MGS_RES_ACK = some (mgsSlot 4)) ∧ ((ackS 4 1).admits 4 Reg.MGS_RES_ACK = true)) ∧
    ((ackSlot 4 Reg.MGS_RES_ACK = some (mgsSlot 4)) ∧ ((ackS 4 0).admits 4 Reg.MGS_RES_ACK = true)) ∧
    ((ackSlot 4 Reg.MGS_RES_ACK = some (mgsSlot 4)) ∧ ((ackS 3 1).admits 4 Reg.MGS_RES_ACK = true)) ∧
    ((ackSlot 4 Reg.MGS_RES_ACK = some (mgsSlot 4)) ∧ ((ackS 4 2).admits 4 Reg.MGS_RES_ACK = true)) := by
  and_intros <;> decide +kernel

/-- The hypotheses of `Obligations.CommandToSlotInUseRefused` hold together, clause by clause. -/
theorem hyps_CommandToSlotInUseRefused :
    ((slotCommand (Instr.tapCommit 3) = some (tapSlot 3, 3, pageBase Blk.tap 0, Reg.TAP_CMD)) ∧ (envelopeFits (Instr.tapCommit 3) w02_16 =
     true) ∧ (w02_16.admits 3 Reg.TAP_CMD = true) ∧ (w02_16.inj = []) ∧ ((w02_16.slot (tapSlot 3)).idle = false)) ∧
    ((slotCommand (Instr.budRequest 3) = some (budSlot 3, 3, pageBase Blk.bud 0, Reg.BUD_CMD)) ∧ (envelopeFits (Instr.budRequest 3) w02_17 =
     true) ∧ (w02_17.admits 3 Reg.BUD_CMD = true) ∧ (w02_17.inj = []) ∧ ((w02_17.slot (budSlot 3)).idle = false)) ∧
    ((240 ≠ 200) ∧ ((snB false true).admits 3 (Reg.CNT_SNAP (240 * 4096)) = true) ∧ (((snB false true).slot (snapSlot 240)).idle = false)) := by
  and_intros <;> decide +kernel

/-- The hypotheses of `Obligations.CommandToIdleSlotAccepted` hold together, clause by clause. -/
theorem hyps_CommandToIdleSlotAccepted :
    ((slotCommand (Instr.tapCommit 3) = some (tapSlot 3, 3, pageBase Blk.tap 0, Reg.TAP_CMD)) ∧ (envelopeFits (Instr.tapCommit 3) up = true)
     ∧ (up.admits 3 Reg.TAP_CMD = true) ∧ (up.inj = []) ∧ ((up.slot (tapSlot 3)).idle = true) ∧ (3 < 8) ∧ (tapSlot 3 < 16 ∨ 24 ≤ tapSlot 3 ∧
     tapSlot 3 < 32 ∨ 32 ≤ tapSlot 3 ∧ tapSlot 3 < 48 ∧ up.mgsUp = false)) ∧
    ((slotCommand (Instr.budRequest 3) = some (budSlot 3, 3, pageBase Blk.bud 0, Reg.BUD_CMD)) ∧ (envelopeFits (Instr.budRequest 3) up =
     true) ∧ (up.admits 3 Reg.BUD_CMD = true) ∧ (up.inj = []) ∧ ((up.slot (budSlot 3)).idle = true) ∧ (3 < 8) ∧ (budSlot 3 < 16 ∨ 24 ≤
     budSlot 3 ∧ budSlot 3 < 32 ∨ 32 ≤ budSlot 3 ∧ budSlot 3 < 48 ∧ up.mgsUp = false)) ∧
    ((65534 < 65535)) := by
  and_intros <;> decide +kernel

/-- The hypotheses of `Obligations.TapStagesAndCommits` hold together, clause by clause. -/
theorem hyps_TapStagesAndCommits :
    (((tp 65535 0).admits 3 Reg.TAP_CMD = true) ∧ (((tp 65535 0).slot (tapSlot 3)).idle = true) ∧ (0 < 6) ∧ ((tp 65535 0).rf (bankKey 3
     Reg.TAP_INDEX) 0 16 < tableSize 0)) ∧
    (((tp 3071 0).admits 3 Reg.TAP_CMD = true) ∧ (((tp 3071 0).slot (tapSlot 3)).idle = true) ∧ (5 < 6) ∧ (keyed 5 = false) ∧ ((tp 3071
     0).rf (bankKey 3 Reg.TAP_INDEX) 0 16 < tableSize 5) ∧ (writeOk 5 ((tp 3071 0).tapData 3) = true) ∧ (((tp 3071 0).staging 3).length <
     64)) ∧
    ((w02_18.admits 3 Reg.TAP_CMD = true) ∧ ((w02_18.slot (tapSlot 3)).idle = true) ∧ (keyed 2 = true) ∧ ((if 2 = 1 then w02_18.ictFind
     (w02_18.tapKey 3) else w02_18.adtFind (w02_18.tapKey 3)) = some (up.adtIndex 4660 0))) ∧
    (((tp 0 4660).admits 3 Reg.TAP_CMD = true) ∧ (((tp 0 4660).slot (tapSlot 3)).idle = true) ∧ (keyed 2 = true) ∧ (insertOk 2 ((tp 0
     4660).tapKey 3) ((tp 0 4660).tapData 3) = true) ∧ (((tp 0 4660).staging 3).length < 64)) ∧
    (((tp 65535 4660).admits 3 Reg.TAP_CMD = true) ∧ (((tp 65535 4660).slot (tapSlot 3)).idle = true) ∧ (2 < 6) ∧ (keyed 2 = false → (tp
     65535 4660).rf (bankKey 3 Reg.TAP_INDEX) 0 16 < tableSize 2) ∧ (((tp 65535 4660).staging 3).length < 64)) ∧
    (((tp 8191 0).admits 3 Reg.TAP_CMD = true) ∧ (((tp 8191 0).slot (tapSlot 3)).idle = true) ∧ (4 < 6) ∧ (keyed 4 = false → (tp 8191 0).rf
     (bankKey 3 Reg.TAP_INDEX) 0 16 < tableSize 4) ∧ (((tp 8191 0).staging 3).length < 64)) ∧
    (((tp 0 0).admits 3 Reg.TAP_CMD = true) ∧ (((tp 0 0).slot (tapSlot 3)).idle = true)) ∧
    (((w02_19.slot (tapSlot 3)).busy = true) ∧ ((w02_19.slot (tapSlot 3)).held = some (codeRes 2)) ∧ (w02_19.svc.release = [])) ∧
    (((tp 0 0).admits 3 Reg.TAP_CMD = true) ∧ (((tp 0 0).slot (tapSlot 3)).idle = true)) ∧
    (((tq [Staged.write 0 5 1]).commitQ = [3]) ∧ ((tq [Staged.write 0 5 1]).lrn.moves = []) ∧ (((tq [Staged.write 0 5 1]).slot (tapSlot
     3)).busy = true) ∧ ((tq [Staged.write 0 5 1]).svc.release = [])) ∧
    ((w02_20.commitQ = [3]) ∧ (w02_20.lrn.moves = []) ∧ ((w02_20.slot (tapSlot 3)).busy = true) ∧ (w02_20.svc.release = [])) := by
  and_intros <;> decide +kernel

/-- The hypotheses of `Obligations.RegistersAndSeedsAreWritten` hold together, clause by clause. -/
theorem hyps_RegistersAndSeedsAreWritten :
    ((Reg.ICT_SEED0 ≤ Reg.ADT_SEED3 ∧ Reg.ADT_SEED3 ≤ Reg.ICT_SEED3 ∨ Reg.ADT_SEED0 ≤ Reg.ADT_SEED3 ∧ Reg.ADT_SEED3 ≤ Reg.ADT_SEED3) ∧
     (up.admits 3 Reg.ADT_SEED3 = true)) ∧
    ((Reg.ICT_SEED0 ≤ Reg.ICT_SEED0 ∧ Reg.ICT_SEED0 ≤ Reg.ICT_SEED3 ∨ Reg.ADT_SEED0 ≤ Reg.ICT_SEED0 ∧ Reg.ICT_SEED0 ≤ Reg.ADT_SEED3) ∧
     ((up.setTent 1 3 1).admits 3 Reg.ICT_SEED0 = true)) ∧
    ((pageOf (Reg.EVL_CFG / 4096) = some (Blk.evl, 0)) ∧ (Blk.evl ∈ [Blk.icl, Blk.srt, Blk.rak, Blk.vlt, Blk.cau, Blk.upd, Blk.evl]) ∧ (128
     ≤ Reg.EVL_CFG % 4096) ∧ (findReg Blk.evl (Reg.EVL_CFG % 4096) = some (w02_21, w02_22)) ∧ (w02_21.acc = Acc.rw ∨ w02_21.acc = Acc.rwl) ∧
     (up.inj = []) ∧ ((up.asCore 3 0).admits 3 Reg.EVL_CFG = true)) ∧
    ((w02_23.readViol Reg.EVL_TOTAL true = none) ∧ (inWindow Reg.EVL_TOTAL = false) ∧ (pageOf (Reg.EVL_TOTAL / 4096) = some (Blk.evl, 0)) ∧
     (heldWords Blk.evl (Reg.EVL_TOTAL % 4096) ≠ []) ∧ ((w02_23.hold 3 Reg.EVL_TOTAL).highs = []) ∧ (w02_23.perfList = [])) ∧
    ((w02_23.readViol Reg.EVL_TOTAL true = none) ∧ (inWindow Reg.EVL_TOTAL = false) ∧ (pageOf (Reg.EVL_TOTAL / 4096) = some (Blk.evl, 0)) ∧
     (heldWords Blk.evl (Reg.EVL_TOTAL % 4096) ≠ []) ∧ ((w02_23.hold 2 Reg.EVL_TOTAL).highs = []) ∧ (w02_23.perfList = [])) := by
  and_intros <;> decide +kernel

/-- The hypotheses of `Obligations.StoppedWriteIsOnlyRecorded` hold together, clause by clause. -/
theorem hyps_StoppedWriteIsOnlyRecorded :
    ((3 = 2 → 3 < 67108864) ∧ ((up.asCore 3 0).svcBar 3 3 = 0) ∧ ((up.asCore 3 0).writeViol 3 3 true = some Viol.partialAccess) ∧ (up.inj =
     [])) ∧
    ((0 = 2 → Reg.EVL_CFG < 67108864) ∧ ((up.asCore 0 0).svcBar 0 Reg.EVL_CFG = 0) ∧ ((up.asCore 0 0).writeViol 0 Reg.EVL_CFG true = some
     Viol.denied) ∧ (up.inj = [])) := by
  and_intros <;> decide +kernel

/-- The hypotheses of `Obligations.LockedPagesAndWriteMasksKept` hold together, clause by clause. -/
theorem hyps_LockedPagesAndWriteMasksKept :
    (((lk.asCore 3 0).svcBar 3 Reg.EVL_CFG = 0) ∧ (lk.inj = []) ∧ (Reg.EVL_CFG % 4 = 0) ∧ (inWindow Reg.EVL_CFG = false) ∧ (pageOf
     (Reg.EVL_CFG / 4096) = some (Blk.evl, 0)) ∧ (lk.blkOn Blk.evl = true) ∧ (Reg.EVL_CFG ≠ Reg.GLB_PERM_SEL) ∧ (Reg.EVL_CFG ≠
     Reg.GLB_PERM_DATA) ∧ (bit (lk.writeMask (Reg.EVL_CFG / 4096)) 3 = true) ∧ (findReg Blk.evl (Reg.EVL_CFG % 4096) = some (w02_21,
     w02_22)) ∧ (w02_21.acc = Acc.rwl) ∧ (lk.rb (Reg.BLK_LOCK (Reg.EVL_CFG / 4096 * 4096)) 0 = true)) ∧
    (((g2.asCore 2 1).svcBar 2 Reg.EVL_CFG = 0) ∧ (g2.inj = []) ∧ (Reg.EVL_CFG % 4 = 0) ∧ (inWindow Reg.EVL_CFG = false) ∧ (pageOf
     (Reg.EVL_CFG / 4096) = some (Blk.evl, 0)) ∧ (g2.blkOn Blk.evl = true) ∧ (Reg.EVL_CFG ≠ Reg.GLB_PERM_SEL) ∧ (Reg.EVL_CFG ≠
     Reg.GLB_PERM_DATA) ∧ (bit (g2.writeMask (Reg.EVL_CFG / 4096)) 2 = true) ∧ (findReg Blk.evl (Reg.EVL_CFG % 4096) = some (w02_21,
     w02_22)) ∧ (w02_21.acc = Acc.rwl) ∧ (g2.rb (Reg.BLK_LOCK (Reg.EVL_CFG / 4096 * 4096)) 0 = true)) ∧
    ((4 ≠ 3) ∧ (4 ≠ 2) ∧ (w02_24.inj = []) ∧ (w02_24.pwr.mgsOn = true)) ∧
    ((up.inj = [])) ∧
    ((w02_24.inj = []) ∧ (w02_24.pwr.mgsOn = true)) := by
  and_intros <;> decide +kernel

end W02

/-! ### Witnesses of 03a -/

namespace W03a

def rq : LearnReq := ⟨0x1234, 5, 3, none, false⟩
def rq2 : LearnReq := ⟨7, 7, 7, none, true⟩
def ix : Nat := up.adtIndex (adtKey 0x1234 5) 0
def lrnUp (e : BitVec 512) : State := { up.setTent 2 ix e with lrn := { up.lrn with queue := [rq, rq2] }, frcNs := 1000 }
def w03a_1 := (lrnUp (adtE 0x1234 5 3 0))
def w03a_2 := (lrnUp (adtE 0x1234 5 4 4))
def w03a_3 := (lrnUp (adtE 0x1234 5 4 16))
def w03a_4 := (lrnUp (adtE 0x1234 5 4 (64 + 2 ^ 208 * 9)))
def w03a_5 := (lrnUp (adtE 0x1234 5 4 (2 ^ 208 * 9)))
def lrnNew : State := { up with lrn := { up.lrn with queue := [rq] } }
def lrnEnt : BitVec 512 := BitVec.ofNat 512 (1 + rq.mac * 2 ^ 8 + rq.vid * 2 ^ 56 + rq.port * 2 ^ 72 + lrnNew.tick * 2 ^ 80 + lrnNew.now32 *
  2 ^ 176 + rq.port * 2 ^ 208)
def w03a_6 := (lrnUp (adtE 0x1234 5 3 2))
/-- Every way of the request's address is taken by an address that can move. -/
def lrnFull : State := (List.range 4).foldl (fun s w => s.setTent 2 (up.adtIndex (adtKey 0x1234 5) w) (adtE (0x100 + w) 5 4 0)) lrnNew
def w03a_7 := ((lrnFull.adtPath (adtKey 0x1234 5)).getD [])
def w03a_8 := { up with lrn := { up.lrn with moves := [.mark 7, .drop 7] } }
def frz (n : Nat) : State := up.setTent 2 ix (adtE 0x1234 5 3 (16 + n * 2 ^ 160))
def w03a_9 := ((frz 1).wr Reg.LRN_TICK 0xFFF)
def w03a_10 := ((frz 1).wr Reg.LRN_TICK 299)
def w03a_11 := (up.wr Reg.LRN_AGE 0x100)
def anc (st : Nat) : State :=
  ((((up.wr Reg.LRN_XCH_CFG (up.rd Reg.LRN_XCH_CFG ||| 1)).wr (Reg.LRN_ANCHOR_CTRL 15) (wd (0x10007 + st * 2 ^ 24))).wr (Reg.LRN_ANCHOR_MAC_LO 15) 0x55).wr
    (Reg.LRN_ANCHOR_RX_SEQ 15) 9)
def ancMsg (ty n : Nat) : List Byte := toBE 1 3 ++ toBE 1 1 ++ toBE 1 ty ++ toBE 1 n ++ toBE 2 7 ++ toBE 4 9 ++ toBE 2 0 ++ toBE 6 0x1234 ++
  toBE 2 5
def ancPend : State := { anc 2 with lrn := { up.lrn with annPend := [(0x1234, 5)] } }

/-- The hypotheses of `Obligations.AddressesAreLearnedAndAge` hold together, clause by clause. -/
theorem hyps_AddressesAreLearnedAndAge :
    ((w03a_1.lrn.queue = [rq, rq2]) ∧ (w03a_1.lrn.moves = []) ∧ (rq.withdraw = false) ∧ (rq.origin = none) ∧ (rq.port < 32) ∧
     (w03a_1.adtFind (adtKey rq.mac rq.vid) = some ix) ∧ (adtPort (w03a_1.tent 2 ix) = rq.port) ∧ (adtReloc (w03a_1.tent 2 ix) = false)) ∧
    ((w03a_2.lrn.queue = [rq, rq2]) ∧ (w03a_2.lrn.moves = []) ∧ (rq.withdraw = false) ∧ (rq.origin = none) ∧ (rq.port < 32) ∧
     (w03a_2.adtFind (adtKey rq.mac rq.vid) = some ix) ∧ (adtPort (w03a_2.tent 2 ix) ≠ rq.port) ∧ (adtStatic (w03a_2.tent 2 ix) = true)) ∧
    ((w03a_3.lrn.queue = [rq, rq2]) ∧ (w03a_3.lrn.moves = []) ∧ (rq.withdraw = false) ∧ (rq.origin = none) ∧ (rq.port < 32) ∧
     (w03a_3.adtFind (adtKey rq.mac rq.vid) = some ix) ∧ (adtPort (w03a_3.tent 2 ix) ≠ rq.port) ∧ (adtStatic (w03a_3.tent 2 ix) = false) ∧
     (adtFrozen (w03a_3.tent 2 ix) = true)) ∧
    ((w03a_4.lrn.queue = [rq, rq2]) ∧ (w03a_4.lrn.moves = []) ∧ (rq.withdraw = false) ∧ (rq.origin = none) ∧ (rq.port < 32) ∧
     (w03a_4.adtFind (adtKey rq.mac rq.vid) = some ix) ∧ (adtPort (w03a_4.tent 2 ix) ≠ rq.port) ∧ (adtStatic (w03a_4.tent 2 ix) = false) ∧
     (adtFrozen (w03a_4.tent 2 ix) = false) ∧ (w03a_4.isFlap (w03a_4.tent 2 ix) = true)) ∧
    ((w03a_5.lrn.queue = [rq, rq2]) ∧ (w03a_5.lrn.moves = []) ∧ (rq.withdraw = false) ∧ (rq.origin = none) ∧ (rq.port < 32) ∧
     (w03a_5.adtFind (adtKey rq.mac rq.vid) = some ix) ∧ (adtPort (w03a_5.tent 2 ix) ≠ rq.port) ∧ (adtStatic (w03a_5.tent 2 ix) = false) ∧
     (adtFrozen (w03a_5.tent 2 ix) = false) ∧ (w03a_5.isFlap (w03a_5.tent 2 ix) = false)) ∧
    ((w03a_6.lrn.queue = [rq, rq2]) ∧ (w03a_6.lrn.moves = []) ∧ (rq.withdraw = false) ∧ (rq.origin = none) ∧ (rq.port < 32) ∧
     (w03a_6.adtFind (adtKey rq.mac rq.vid) = some ix) ∧ (adtPort (w03a_6.tent 2 ix) = rq.port) ∧ (adtReloc (w03a_6.tent 2 ix) = true) ∧ (ix
     ∈ List.map (w03a_6.adtIndex (adtKey rq.mac rq.vid)) (List.range 4)) ∧ (adtValid (w03a_6.tent 2 ix) = true) ∧ (adtKeyOf (w03a_6.tent 2
     ix) = adtKey rq.mac rq.vid)) ∧
    ((lrnNew.lrn.queue = [rq]) ∧ (lrnNew.lrn.moves = []) ∧ (rq.withdraw = false) ∧ (rq.origin = none) ∧ (rq.port < 32) ∧ (rq.mac < 2 ^ 48) ∧
     (rq.vid < 4096) ∧ (lrnNew.adtFind (adtKey rq.mac rq.vid) = none) ∧ (lrnNew.adtPath (adtKey rq.mac rq.vid) = some [ix]) ∧ (lrnEnt =
     BitVec.ofNat 512 (1 + rq.mac * 2 ^ 8 + rq.vid * 2 ^ 56 + rq.port * 2 ^ 72 + lrnNew.tick * 2 ^ 80 + lrnNew.now32 * 2 ^ 176 + rq.port * 2
     ^ 208))) ∧
    ((lrnFull.lrn.queue = [rq]) ∧ (lrnFull.lrn.moves = []) ∧ (rq.withdraw = false) ∧ (rq.origin = none) ∧ (rq.port < 32) ∧ (rq.mac < 2 ^ 48)
     ∧ (rq.vid < 4096) ∧ (lrnFull.adtFind (adtKey rq.mac rq.vid) = none) ∧ (lrnFull.adtPath (adtKey rq.mac rq.vid) = some w03a_7) ∧ (lrnEnt
     = BitVec.ofNat 512 (1 + rq.mac * 2 ^ 8 + rq.vid * 2 ^ 56 + rq.port * 2 ^ 72 + lrnFull.tick * 2 ^ 80 + lrnFull.now32 * 2 ^ 176 + rq.port
     * 2 ^ 208))) ∧
    ((w03a_8.pending = []) ∧ (w03a_8.inj = []) ∧ (w03a_8.lrn.moves = [AdtWrite.mark 7, AdtWrite.drop 7]) ∧ (w03a_8.twn.capture = none)) ∧
    ((w03a_11.rf Reg.LRN_AGE 0 8 = 0)) ∧
    ((up.admits (3 : Nat) Reg.LRN_AGE = true) ∧ (fld (512 : BitVec (32 : Nat)) (0 : Nat) (8 : Nat) = (0 : Nat) ∨ fld (512 : BitVec (32 :
     Nat)) (0 : Nat) (8 : Nat) = up.rf Reg.LRN_AGE (0 : Nat) (8 : Nat))) ∧
    ((up.admits (3 : Nat) Reg.LRN_AGE = true) ∧ (fld (1 : BitVec (32 : Nat)) (0 : Nat) (8 : Nat) = (0 : Nat) ∨ fld (1 : BitVec (32 : Nat))
     (0 : Nat) (8 : Nat) = up.rf Reg.LRN_AGE (0 : Nat) (8 : Nat))) ∧
    ((w03a_11.admits (3 : Nat) Reg.LRN_AGE = true) ∧ (fld (131333 : BitVec (32 : Nat)) (0 : Nat) (8 : Nat) ≠ (0 : Nat)) ∧ (w03a_11.rf
     Reg.LRN_AGE (0 : Nat) (8 : Nat) = (0 : Nat))) := by
  and_intros <;> decide +kernel

/-- The hypotheses of a clause of `Obligations.AddressesAreLearnedAndAge` hold together. -/
theorem hyps_AddressesAreLearnedAndAge_1 :
    ((frz (1 : Nat)).Inv) ∧ (ix < (65536 : Nat)) ∧ ((frz (1 : Nat)).lrn.moves = []) :=
  ⟨⟨by decide +kernel, by decide +kernel⟩, by decide +kernel⟩

/-- The hypotheses of a clause of `Obligations.AddressesAreLearnedAndAge` hold together. -/
theorem hyps_AddressesAreLearnedAndAge_2 :
    ((frz (2 : Nat)).Inv) ∧ (ix < (65536 : Nat)) ∧ ((frz (2 : Nat)).lrn.moves = []) :=
  ⟨⟨by decide +kernel, by decide +kernel⟩, by decide +kernel⟩

/-- The hypotheses of a clause of `Obligations.AddressesAreLearnedAndAge` hold together. -/
theorem hyps_AddressesAreLearnedAndAge_3 :
    (w03a_9.Inv) ∧ (w03a_9.rf Reg.LRN_AGE (0 : Nat) (8 : Nat) ≠ (0 : Nat)) ∧ (w03a_9.lrn.moves = []) :=
  ⟨⟨by decide +kernel, by decide +kernel⟩, by decide +kernel⟩

/-- The hypotheses of a clause of `Obligations.AddressesAreLearnedAndAge` hold together. -/
theorem hyps_AddressesAreLearnedAndAge_4 :
    (w03a_10.Inv) ∧ (w03a_10.rf Reg.LRN_AGE (0 : Nat) (8 : Nat) ≠ (0 : Nat)) ∧ (w03a_10.lrn.moves = []) :=
  ⟨⟨by decide +kernel, by decide +kernel⟩, by decide +kernel⟩

/-- The hypotheses of `Obligations.AnchorExchangeFollowsItsTable` hold together, clause by clause. -/
theorem hyps_AnchorExchangeFollowsItsTable :
    ((ancPend.rb Reg.LRN_XCH_CFG 0 = true) ∧ (ancPend.anchors = [15]) ∧ (ancPend.lrn.wdPend = []) ∧ (ancPend.lrn.annPend.length ≤ 64)) ∧
    (((anc 0).anchorOf 85 (ancMsg 1 1) = some 15) ∧ (beAt (ancMsg 1 1) 0 1 = 3) ∧ (beAt (ancMsg 1 1) 1 1 = 1) ∧ (beAt (ancMsg 1 1) 2 1 = if
     false = true then 2 else 1) ∧ (15 < 16) ∧ ((anc 0).anchorState 15 = 0) ∧ ((anc 0).rb (Reg.LRN_ANCHOR_CTRL 15) 16 = true)) ∧
    (((anc 0).anchorOf 85 (ancMsg 2 1) = some 15) ∧ (beAt (ancMsg 2 1) 0 1 = 3) ∧ (beAt (ancMsg 2 1) 1 1 = 1) ∧ (beAt (ancMsg 2 1) 2 1 = if
     true = true then 2 else 1) ∧ (15 < 16) ∧ ((anc 0).anchorState 15 = 0) ∧ ((anc 0).rb (Reg.LRN_ANCHOR_CTRL 15) 16 = true)) ∧
    (((anc 1).anchorOf 85 (ancMsg 1 1) = some 15) ∧ (beAt (ancMsg 1 1) 0 1 = 3) ∧ (beAt (ancMsg 1 1) 1 1 = 1) ∧ (beAt (ancMsg 1 1) 2 1 = if
     false = true then 2 else 1) ∧ (15 < 16) ∧ ((anc 1).anchorState 15 = 1 ∨ 2 ≤ (anc 1).anchorState 15 ∧ beAt (ancMsg 1 1) 6 4 =
     BitVec.toNat ((anc 1).rd (Reg.LRN_ANCHOR_RX_SEQ 15))) ∧ ((anc 1).lrn.queue.length + (anchorRecs (beAt (ancMsg 1 1) 3 1) (List.drop 12
     (ancMsg 1 1))).length ≤ 256)) ∧
    (((anc 2).anchorOf 85 (ancMsg 2 64) = some 15) ∧ (beAt (ancMsg 2 64) 0 1 = 3) ∧ (beAt (ancMsg 2 64) 1 1 = 1) ∧ (beAt (ancMsg 2 64) 2 1 =
     if true = true then 2 else 1) ∧ (15 < 16) ∧ ((anc 2).anchorState 15 = 1 ∨ 2 ≤ (anc 2).anchorState 15 ∧ beAt (ancMsg 2 64) 6 4 =
     BitVec.toNat ((anc 2).rd (Reg.LRN_ANCHOR_RX_SEQ 15))) ∧ ((anc 2).lrn.queue.length + (anchorRecs (beAt (ancMsg 2 64) 3 1) (List.drop 12
     (ancMsg 2 64))).length ≤ 256)) ∧
    (((anc 1).anchorOf 85 (ancMsg 3 0) = some 15) ∧ (beAt (ancMsg 3 0) 0 1 = 3) ∧ (beAt (ancMsg 3 0) 1 1 = 1) ∧ (beAt (ancMsg 3 0) 2 1 = 3)
     ∧ ((anc 1).anchorState 15 ≠ 0)) ∧
    (((anc 1).anchorOf 85 (ancMsg 4 1) = some 15) ∧ (beAt (ancMsg 4 1) 0 1 = 3) ∧ (beAt (ancMsg 4 1) 1 1 = 1) ∧ (beAt (ancMsg 4 1) 2 1 = 4)
     ∧ ((anc 1).anchorState 15 = 1) ∧ ((anc 1).lrn.queue.length + (anchorRecs (beAt (ancMsg 4 1) 3 1) (List.drop 12 (ancMsg 4 1))).length ≤
     256)) ∧
    (((anc 2).anchorOf 85 (ancMsg 4 1) = some 15) ∧ (beAt (ancMsg 4 1) 0 1 = 3) ∧ (beAt (ancMsg 4 1) 1 1 = 1) ∧ (beAt (ancMsg 4 1) 2 1 = 4)
     ∧ (2 ≤ (anc 2).anchorState 15)) ∧
    (((anc 1).anchorOf 85 (ancMsg 5 0) = some 15) ∧ (beAt (ancMsg 5 0) 0 1 = 3) ∧ (beAt (ancMsg 5 0) 1 1 = 1) ∧ (beAt (ancMsg 5 0) 2 1 = 5)
     ∧ (15 < 16) ∧ ((anc 1).anchorState 15 = 1)) ∧
    ((15 < 16) ∧ ((anc 2).anchorState 15 ≠ 0)) ∧
    ((15 < 16) ∧ ((anc 2).inj = []) ∧ ((anc 2).admits 3 (Reg.LRN_ANCHOR_CTRL 15) = true)) := by
  and_intros <;> decide +kernel

end W03a

/-! ### Witnesses of 03b -/

namespace W03b

def tag0 : List Byte := toBE 6 0x1234 ++ toBE 6 0x777 ++ toBE 2 0x9999 ++ List.replicate 50 0
def adtUp (port : Nat) : State := up.setTent 2 (up.adtIndex (adtKey 0x1234 5) 0) (adtE 0x1234 5 port 0)
def w03b_1 := (up.adtIndex (adtKey 0x1234 5) 0)
def w03b_2 := (toBE 6 0x1234 ++ toBE 6 0x10000000777 ++ toBE 2 0x9999)
def w03b_3 := (up.wr (Reg.ADT_FLOOD_UC 2) 15)

def w03b_4 := ((linkUp 3).setArrival 3 false (some ⟨tag0, none, none, true, none, 5⟩))
def w03b_5 := ((linkUp 22).setArrival 22 true (some ⟨tag0, none, none, true, none, 5⟩))
def w03b_6 := ((linkUp 22).setArrival 22 false (some ⟨tag0, none, none, true, some tag0, 5⟩))
def cp1 : Copy := ⟨4, 2, 34, false, .waiting, 0, none⟩
def fr1 : Frame := ⟨3, false, tag0, 7, none, ⟨16, 2, none, none, none, none, false, false, 0, 63, false⟩, 0, 0, [5], 0, [cp1], false, false,
  0, false, none, true,
  none, none, false, none, none⟩
def arr1 : State := ((linkUp 3).setFrame 9 (some fr1)).setArrival 3 false (some ⟨tag0, some 9, none, true, none, 5⟩)
def cp2 : Copy := ⟨4, 2, 34, false, .queued, 0, none⟩
def fr2 : Frame := { fr1 with bus := true, state := 1, copies := [cp2] }
def queued : State := ((linkUp 4).setFrame 9 (some fr2)).setQueue 34 [(9, 0), (11, 0)]
def txq : Tx := ⟨9, 0, true, List.replicate 300 0, 2, 5⟩
def sending (pre hold : Bool) (tx : Tx) (st : Nat) : State :=
  let s := ((linkUp 4).setFrame 9 (some { fr2 with state := st })).wf (Reg.EGS_PORT_STAT 4) 4 1 (b2n pre)
  s.setEg 4 { s.eg 4 with tx := some tx, hold := hold, frag := 64 }
def w03b_7 := (sending true true txq 1)
def w03b_8 := (sending true true txq 0)
def ver (p n : Nat) : State := let s := (linkUp p).wf (Reg.EGS_PORT_STAT p) 2 2 1; s.setEg p { s.eg p with tries := n }
def pzf (op n : Nat) : List Byte := toBE 6 1 ++ toBE 6 2 ++ toBE 2 0x8808 ++ toBE 2 op ++ toBE 2 n ++ List.replicate 42 0
def pz : State := (linkUp 21).wf (Reg.EGS_PORT_CFG 21) 0 1 1
def w03b_9 := (pz.wf (Reg.EGS_PORT_STAT 21) 0 32 0x50001)

/-- The hypotheses of `Obligations.AddressTableForwards` hold together, clause by clause. -/
theorem hyps_AddressTableForwards :
    ((isGroup (parse tag0).smac = false) ∧ ((adtUp 3).adtFind (adtKey (parse tag0).dmac 5) = some w03b_1) ∧ (adtMcast ((adtUp 3).tent 2
     w03b_1) = false) ∧ (adtPort ((adtUp 3).tent 2 w03b_1) ≠ 4)) ∧
    ((isGroup (parse tag0).smac = false) ∧ ((adtUp 4).adtFind (adtKey (parse tag0).dmac 5) = some w03b_1) ∧ (adtMcast ((adtUp 4).tent 2
     w03b_1) = false) ∧ (adtPort ((adtUp 4).tent 2 w03b_1) = 4)) ∧
    ((isGroup (parse w03b_2).smac = true)) ∧
    ((isGroup (parse tag0).smac = false) ∧ (up.adtFind (adtKey (parse tag0).dmac 5) = none) ∧ (25 < 26)) ∧
    ((isGroup (parse tag0).smac = false) ∧ (w03b_3.adtFind (adtKey (parse tag0).dmac 5) = none) ∧ (2 < 26)) := by
  and_intros <;> decide +kernel

/-- The hypotheses of `Obligations.FramesAreReceivedAndJudged` hold together, clause by clause. -/
theorem hyps_FramesAreReceivedAndJudged :
    (((linkUp 3).receives 3 = true) ∧ ((linkUp 3).dmaPort 3 = false) ∧ ((linkUp 3).arrival 3 false = none)) ∧
    (((linkUp 3).receives 25 = true) ∧ ((linkUp 3).dmaPort 25 = false) ∧ ((linkUp 3).arrival 25 true = none)) ∧
    (((linkUp 3).receives 4 = false) ∧ ((linkUp 3).inj = [])) ∧
    ((w03b_4.arrival 3 false = some { wire := tag0, fid := none, sa := none, tagOk := true, taken := none, ts := 5 : Arrival }) ∧
     ({ wire := tag0, fid := none, sa := none, tagOk := true, taken := none, ts := 5 : Arrival }.fid = none) ∧
     ({ wire := tag0, fid := none, sa := none, tagOk := true, taken := none, ts := 5 : Arrival }.taken = none) ∧ (3 < 23) ∧ (w03b_4.dmaPort
     3 = false) ∧ (w03b_4.inj = [])) ∧
    ((w03b_5.arrival 22 true = some { wire := tag0, fid := none, sa := none, tagOk := true, taken := none, ts := 5 : Arrival }) ∧
     ({ wire := tag0, fid := none, sa := none, tagOk := true, taken := none, ts := 5 : Arrival }.fid = none) ∧
     ({ wire := tag0, fid := none, sa := none, tagOk := true, taken := none, ts := 5 : Arrival }.taken = none) ∧ (22 < 23) ∧ (w03b_5.dmaPort
     22 = false) ∧ (w03b_5.inj = [])) ∧
    ((w03b_6.arrival 22 false = some { wire := tag0, fid := none, sa := none, tagOk := true, taken := some tag0, ts := 5 : Arrival }) ∧
     ({ wire := tag0, fid := none, sa := none, tagOk := true, taken := some tag0, ts := 5 : Arrival }.fid = none) ∧
     ({ wire := tag0, fid := none, sa := none, tagOk := true, taken := some tag0, ts := 5 : Arrival }.sa = none) ∧
     ({ wire := tag0, fid := none, sa := none, tagOk := true, taken := some tag0, ts := 5 : Arrival }.taken = some tag0) ∧ (22 < 23)) ∧
    ((arr1.arrival 3 false = some { wire := tag0, fid := some 9, sa := none, tagOk := true, taken := none, ts := 5 : Arrival }) ∧
     ({ wire := tag0, fid := some 9, sa := none, tagOk := true, taken := none, ts := 5 : Arrival }.fid = some 9) ∧
     ({ wire := tag0, fid := some 9, sa := none, tagOk := true, taken := none, ts := 5 : Arrival }.sa = none) ∧ (arr1.frame 9 = some fr1) ∧
     (3 < 16) ∧ (arr1.inj = []) ∧ (fr1.copies = [cp1]) ∧ (cp1.st = CopySt.waiting) ∧ (cp1.ct = false) ∧ (cp1.eddy = none) ∧ (cp1.dest < 26)
     ∧ (fr1.bus = false) ∧ (fr1.sa = none) ∧ (fr1.state = 0) ∧ (fr1.len ≤ arr1.maxLen) ∧ (arr1.metersOf fr1.route.meter (if fr1.route.srt =
     true then fr1.handle else none) = []) ∧ (fr1.route.checked = false) ∧ (fr1.route.view = none) ∧ (fr1.taken = none)) ∧
    ((arr1.arrival 3 false = some { wire := tag0, fid := some 9, sa := none, tagOk := true, taken := none, ts := 5 : Arrival }) ∧
     ({ wire := tag0, fid := some 9, sa := none, tagOk := true, taken := none, ts := 5 : Arrival }.fid = some 9) ∧
     ({ wire := tag0, fid := some 9, sa := none, tagOk := true, taken := none, ts := 5 : Arrival }.sa = none) ∧ (arr1.frame 9 = some fr1) ∧
     (3 < 16) ∧ (arr1.inj = []) ∧ (fr1.copies = [cp1]) ∧ (cp1.st = CopySt.waiting) ∧ (cp1.ct = false) ∧ (cp1.eddy = none) ∧ (cp1.dest < 58)
     ∧ (fr1.bus = false) ∧ (fr1.sa = none) ∧ (fr1.state = 0) ∧ (arr1.metersOf fr1.route.meter (if fr1.route.srt = true then fr1.handle else
     none) = []) ∧ (fr1.route.checked = false) ∧ (fr1.route.view = none) ∧ (fr1.taken = none)) := by
  and_intros <;> decide +kernel

/-- The hypotheses of `Obligations.EgressSelectsSendsAndPreempts` hold together, clause by clause. -/
theorem hyps_EgressSelectsSendsAndPreempts :
    ((4 < 26) ∧ (2 < 8) ∧ ((queued.eg 4).tx = none) ∧ ((queued.eg 4).susp = none) ∧ (queued.portUp 4 = true) ∧ (queued.procRuns 4 = true) ∧
     (queued.paused 4 = false) ∧ (queued.ringed 4 = false) ∧ (queued.inj = []) ∧ (queued.queue (8 * 4 + 2) = [(9, 0), (11, 0)]) ∧ (∀ (j :
     Nat), j < 8 → j ≠ 2 → queued.queue (8 * 4 + j) = []) ∧ (queued.copyAt 9 0 = some (fr2, cp2)) ∧ (fr2.bus = true) ∧ (fr2.own = none) ∧
     (queued.gateOpen 4 2 = true) ∧ (queued.tooBig 4 2 (queued.copyLen fr2 cp2 + 20) = false) ∧ (queued.fits 4 2 (if queued.express 4 2 =
     true then queued.copyLen fr2 cp2 + 20 else queued.minFrag 4 + 20) = true) ∧ (queued.tcShaped 4 2 = false) ∧ (queued.tcDrr 4 2 = false)
     ∧ ((queued.eg 4).hold = false ∨ queued.tcPre 4 2 = false)) ∧
    (((w03b_7.eg 4).tx ≠ none) ∧ (w03b_7.inj = [])) ∧
    ((4 < 26) ∧ (4 ≠ 24) ∧ ((w03b_7.eg 4).tx = some txq) ∧ (w03b_7.copyAt txq.fid txq.idx = some (let __src := fr2;
     { ingress := __src.ingress, bus := __src.bus, bytes := __src.bytes, ts := __src.ts, handle := __src.handle, route := __src.route, state := 1, cause := __src.cause, cells := __src.cells, path := __src.path, copies := __src.copies, provMark := __src.provMark, mark := __src.mark, colour := __src.colour, preemptable := __src.preemptable, sa := __src.sa, tagOk := __src.tagOk, seqNo := __src.seqNo, taken := __src.taken, repeated := __src.repeated, own := __src.own, fcs := __src.fcs : Frame },
     cp2)) ∧ ((let __src := fr2;
     { ingress := __src.ingress, bus := __src.bus, bytes := __src.bytes, ts := __src.ts, handle := __src.handle, route := __src.route, state := 1, cause := __src.cause, cells := __src.cells, path := __src.path, copies := __src.copies, provMark := __src.provMark, mark := __src.mark, colour := __src.colour, preemptable := __src.preemptable, sa := __src.sa, tagOk := __src.tagOk, seqNo := __src.seqNo, taken := __src.taken, repeated := __src.repeated, own := __src.own, fcs := __src.fcs : Frame }).state
     ≠ 0) ∧ (txq.tc < 8)) ∧
    (((w03b_8.eg 4).tx = some txq) ∧ (w03b_8.copyAt txq.fid txq.idx = some (let __src := fr2;
     { ingress := __src.ingress, bus := __src.bus, bytes := __src.bytes, ts := __src.ts, handle := __src.handle, route := __src.route, state := 0, cause := __src.cause, cells := __src.cells, path := __src.path, copies := __src.copies, provMark := __src.provMark, mark := __src.mark, colour := __src.colour, preemptable := __src.preemptable, sa := __src.sa, tagOk := __src.tagOk, seqNo := __src.seqNo, taken := __src.taken, repeated := __src.repeated, own := __src.own, fcs := __src.fcs : Frame },
     cp2)) ∧ ((let __src := fr2;
     { ingress := __src.ingress, bus := __src.bus, bytes := __src.bytes, ts := __src.ts, handle := __src.handle, route := __src.route, state := 0, cause := __src.cause, cells := __src.cells, path := __src.path, copies := __src.copies, provMark := __src.provMark, mark := __src.mark, colour := __src.colour, preemptable := __src.preemptable, sa := __src.sa, tagOk := __src.tagOk, seqNo := __src.seqNo, taken := __src.taken, repeated := __src.repeated, own := __src.own, fcs := __src.fcs : Frame }).state
     = 0)) ∧
    ((4 < 16) ∧ ((w03b_7.eg 4).tx = some txq) ∧ (txq.pre = true) ∧ (w03b_7.preemptActive 4 = true) ∧ (w03b_7.minFrag 4 ≤ 64) ∧ ((w03b_7.eg
     4).frag + 64 + 64 ≤ txq.bytes.length + 4) ∧ ((w03b_7.eg 4).hold = true)) ∧
    (((w03b_7.eg 4).tx = some txq) ∧ (txq.pre = false ∨ 63 < w03b_7.minFrag 4 ∨ txq.bytes.length + 4 < (w03b_7.eg 4).frag + 63 + 64) ∧
     (w03b_7.inj = [])) := by
  and_intros <;> decide +kernel

/-- The hypotheses of `Obligations.VerificationAndPause` hold together, clause by clause. -/
theorem hyps_VerificationAndPause :
    ((15 < 16) ∧ ((ver 15 2).rf (Reg.EGS_PORT_STAT 15) 2 2 = 1) ∧ (((ver 15 2).eg 15).tries < 3)) ∧
    ((15 < 16) ∧ ((ver 15 3).rf (Reg.EGS_PORT_STAT 15) 2 2 = 1) ∧ (3 ≤ ((ver 15 3).eg 15).tries)) ∧
    ((15 < 16) ∧ ((ver 15 3).rf (Reg.EGS_PORT_STAT 15) 2 2 = 1)) ∧
    ((21 < 23) ∧ (pz.receives 21 = true) ∧ (pz.dmaPort 21 = false) ∧ (beAt (pzf 1 65535) 14 2 = 1) ∧ (beAt (pzf 1 65535) 16 2 ≠ 0) ∧ (64 ≤
     (pzf 1 65535).length + 4) ∧ (pz.rb (Reg.EGS_PORT_CFG 21) 0 = true)) ∧
    ((21 < 23) ∧ (pz.receives 21 = true) ∧ (beAt (pzf 257 65535) 14 2 ≠ 1)) ∧
    ((21 < 23) ∧ (w03b_9.paused 21 = true)) := by
  and_intros <;> decide +kernel

end W03b

/-! ### Witnesses of 04 -/

namespace W04

def rak (on : Bool) (sus : List Nat) : State := let s := up.wf Reg.RAK_CFG 0 1 1;
  { s with bsn := { s.bsn with auditOn := on, suspects := sus } }
def w04_1 := { rak true [] with bsn := { (rak true []).bsn with lost := [3] } }
def w04_2 := (up.wr Reg.BSN_FLOW_SEED 7)
def w04_3 := (up.setRxf 15 { RxFifo.reset with pend := 3 })
def w04_4 := (up.setRxf 15 { RxFifo.reset with pend := 3, recs := [gapRec 5 false], wr := 9 })

/-- The hypotheses of `Obligations.BasinIsAuditedAndSet` hold together, clause by clause. -/
theorem hyps_BasinIsAuditedAndSet :
    (((rak false []).rb Reg.RAK_CFG 0 = true) ∧ ((rak false []).bsn.auditOn = false)) ∧
    (((rak true []).rb Reg.RAK_CFG 0 = true) ∧ ((rak true []).bsn.auditOn = true)) ∧
    (([49151] ++ (rak true []).bsn.lost = [49151]) ∧ ((rak true []).bsn.auditOn = true) ∧ ((rak true []).bsn.auditDue = false) ∧ (49151 <
     49152) ∧ (∀ (f : Frame), f ∈ (rak true []).stored → f.cells.contains 49151 = false) ∧ ((rak true []).bsn.moved.contains 49151 = false)) ∧
    (([] ++ w04_1.bsn.lost = [3]) ∧ (w04_1.bsn.auditOn = true) ∧ (w04_1.bsn.auditDue = false) ∧ (3 < 49152) ∧ (∀ (f : Frame), f ∈
     w04_1.stored → f.cells.contains 3 = false) ∧ (w04_1.bsn.moved.contains 3 = false)) ∧
    (([49151] ++ (rak true [49151]).bsn.lost = [49151]) ∧ ((rak true [49151]).bsn.auditOn = true) ∧ ((rak true [49151]).bsn.auditDue =
     false) ∧ (49151 < 49152) ∧ (∀ (f : Frame), f ∈ (rak true [49151]).stored → f.cells.contains 49151 = false) ∧ ((rak true
     [49151]).bsn.moved.contains 49151 = false)) ∧
    (((239 : Nat) < (240 : Nat)) ∧ (up.admits (3 : Nat) (Reg.BSN_QCFG (239 : Nat)) = true) ∧ (fld (1048608 : BitVec (32 : Nat)) (16 : Nat)
     (16 : Nat) ≤ fld (1048608 : BitVec (32 : Nat)) (0 : Nat) (16 : Nat)) ∧ (up.rsvSum - up.reserved (239 : Nat) + fld (1048608 : BitVec (32
     : Nat)) (16 : Nat) (16 : Nat) + up.headroom ≤ (49152 : Nat))) ∧
    (((0 : Nat) < (240 : Nat)) ∧ (up.admits (3 : Nat) (Reg.BSN_QCFG (0 : Nat)) = true) ∧ (fld (1048592 : BitVec (32 : Nat)) (16 : Nat) (16 :
     Nat) ≤ fld (1048592 : BitVec (32 : Nat)) (0 : Nat) (16 : Nat)) ∧ (up.rsvSum - up.reserved (0 : Nat) + fld (1048592 : BitVec (32 : Nat))
     (16 : Nat) (16 : Nat) + up.headroom ≤ (49152 : Nat))) ∧
    (((0 : Nat) < (240 : Nat)) ∧ (up.admits (3 : Nat) (Reg.BSN_QCFG (0 : Nat)) = true) ∧ (fld (1114128 : BitVec (32 : Nat)) (0 : Nat) (16 :
     Nat) < fld (1114128 : BitVec (32 : Nat)) (16 : Nat) (16 : Nat) ∨ (49152 : Nat) < up.rsvSum - up.reserved (0 : Nat) + fld (1114128 :
     BitVec (32 : Nat)) (16 : Nat) (16 : Nat) + up.headroom)) ∧
    (((207 : Nat) < (240 : Nat)) ∧ (up.admits (3 : Nat) (Reg.BSN_QCFG (207 : Nat)) = true) ∧ (fld (3221274624 : BitVec (32 : Nat)) (0 : Nat)
     (16 : Nat) < fld (3221274624 : BitVec (32 : Nat)) (16 : Nat) (16 : Nat) ∨ (49152 : Nat) < up.rsvSum - up.reserved (207 : Nat) + fld
     (3221274624 : BitVec (32 : Nat)) (16 : Nat) (16 : Nat) + up.headroom)) ∧
    ((7 < 8) ∧ (up.admits 3 (Reg.EDY_RATE 7) = true)) ∧
    ((0 < 8) ∧ (up.admits 3 (Reg.EDY_RATE 0) = true)) ∧
    ((15 < 16) ∧ (0 < (w04_3.rxf 15).pend) ∧ (2 ≤ (w04_3.rxf 15).free)) ∧
    ((15 < 16)) ∧
    ((15 < 16) ∧ ((up.setTxf 15 { wr := 5, rd := 4 : TxFifo }).ringOn (16 + 15) = false)) := by
  and_intros <;> decide +kernel

end W04

/-! ### Witnesses of 05 -/

namespace W05

def wei (sel : Nat) (d0 : Word) : State :=
  (((((up.wr (bankKey 3 Reg.WEI_SEL) (wd sel)).wr (bankKey 3 (Reg.WEI_DATA 0)) d0).wr (bankKey 3 (Reg.WEI_DATA 1)) 1000).wr
    (bankKey 3 (Reg.WEI_DATA 2)) 2000).wr (bankKey 3 (Reg.WEI_DATA 3)) 500).wr (bankKey 3 (Reg.WEI_DATA 4)) 600
def w05_1 := ((wei 0 0x00000001).setMeter 0 ⟨1, 2, 3, 4, 5, 6, 7, 8⟩)
def sluS : State := (up.wr (Reg.SLU_ADMIN_BASE_LO 21) 5000).wr (Reg.SLU_ADMIN_CYCLE 21) 100000
def gcfg : GateCfg := ⟨5000, 100000, 0, 2, [(0, (0x0F, 50000)), (1, (0x81, 50000))]⟩
def sluP : State := sluS.setSluice 21 { Sluice.reset with pend := some (gcfg, 7000) }
def sluO (en : Bool) : State := (sluS.wr (Reg.SLU_CTRL 21) (wd (b2n en))).setSluice 21
  { Sluice.reset with oper := some gcfg, started := true }
def w05_2 := { sluS with frcNs := 1000000 }
def w05_3 := { sluO true with frcNs := 160000 }
def w05_4 := (sluS.wr (Reg.SLU_ADMIN_DEF 21) 0x3C)
def w05_5 := (sluS.wr (Reg.SLU_GCL_SEL 21) 0x203FF)
def w05_6 := (sluS.wr (Reg.SLU_GCL_SEL 21) 0x0)
def budR (st : Nat) : Resv := ⟨st, 0x777, 5, 3, 200, 1, 1000000, 250000, 9⟩
/-- Master 3's argument registers name reservation 9, and ask for handle 0x777 on port `p`, class 3. -/
def bud (en : Bool) (p : Nat) (r1 : Word) (l : List (Nat × Resv)) (w : List BudWork) : State :=
  let s := ((((linkUp 6).wr Reg.BUD_CFG (wd (b2n en))).wr (bankKey 3 Reg.BUD_INDEX) 9).wr (bankKey 3 (Reg.BUD_REQ 0))
    (wd (0x777 + p * 65536 + 3 * 2 ^ 21))).wr (bankKey 3 (Reg.BUD_REQ 1)) r1
  let s := s.wr (bankKey 3 (Reg.BUD_REQ 2)) 1000000
  { s with bud := { s.bud with work := w, resv := l } }
def w05_7 := (bud true 5 65736 [] [.recheck 7])
def w05_8 := (bud true 5 65736 [] [.running 2])
def w05_9 := (bud false 5 65736 [] [])
def w05_10 := (bud true 5 65736 [(9, budR 2)] [])
def w05_11 := (bud true 5 65736 [(8, { budR 2 with port := 6 }), (10, { budR 2 with port := 9 }), (11, { budR 3 with port := 9 })] [])
def budOk (w : Nat) : State :=
  let s := (((bud true 5 65736 [] []).setTent 0 0x777 (BitVec.ofNat 512 (1 + 2 ^ (7 + 5) + 3 * 2 ^ 65))).wr (Reg.EGS_TC_CFG 5 3) 4).wr (Reg.BSN_QCFG 43) 0x00401000
  ((List.range w).foldl (fun s k => s.wr (Reg.EGS_TC_CFG 5 k) 4) s).setEport 5 { Ept.reset with link := 3 }
def budRr (p : Nat) : Resv := { budR 2 with bound := 0, port := p }
def w05_12 := (bud true 23 65736 [] [])
def w05_13 := { budOk 8 with ept := [] }
def budRun (q : List BudWork) : State := (bud false 5 65736 [] (.running 3 :: q)).setSlot (budSlot 3) ((Slot.reset.accept 3).hold (codeRes
  2))
def budQ : BudCmd := ⟨2, 3, 9, 0, 0, 0, 0⟩
def w05_14 := (budRun [.cmd budQ, .recheck 5])
def w05_15 := (bud true 5 65736 [(9, budR 2), (1023, budR 3), (8, { budR 2 with port := 6 })] [.recheck 5])
def w05_16 := ({ bud false 5 65736 [] [] with meters := [] }.setMeter 3072 ⟨1, 2, 3, 4, 5, 6, 7, 8⟩)

/-- The hypotheses of `Obligations.WeirMetersRun` hold together, clause by clause. -/
theorem hyps_WeirMetersRun :
    (((wei (4095 : Nat) (33554465 : Word)).admits (3 : Nat) Reg.WEI_CMD = true) ∧ ((33554465 : BitVec (32 : Nat)) = (wei (4095 : Nat)
     (33554465 : Word)).rd (bankKey (3 : Nat) (Reg.WEI_DATA (0 : Nat))) &&& (1073676351 : Word)) ∧ ((1000 : Word) = (wei (4095 : Nat)
     (33554465 : Word)).rd (bankKey (3 : Nat) (Reg.WEI_DATA (1 : Nat))) &&& (33554431 : Word)) ∧ ((2000 : Word) = (wei (4095 : Nat)
     (33554465 : Word)).rd (bankKey (3 : Nat) (Reg.WEI_DATA (2 : Nat))) &&& (33554431 : Word)) ∧ ((500 : Word) = (wei (4095 : Nat) (33554465
     : Word)).rd (bankKey (3 : Nat) (Reg.WEI_DATA (3 : Nat))) &&& (16777215 : Word)) ∧ ((600 : Word) = (wei (4095 : Nat) (33554465 :
     Word)).rd (bankKey (3 : Nat) (Reg.WEI_DATA (4 : Nat))) &&& (16777215 : Word)) ∧ ((wei (4095 : Nat) (33554465 : Word)).meterOwned ((wei
     (4095 : Nat) (33554465 : Word)).rf (bankKey (3 : Nat) Reg.WEI_SEL) (0 : Nat) (12 : Nat)) = false) ∧ (bit (33554465 : BitVec (32 : Nat))
     (0 : Nat) = true) ∧
     ({ d0 := (33554465 : BitVec (32 : Nat)), d1 := (1000 : Word), d2 := (2000 : Word), d3 := (500 : Word), d4 := (600 : Word), tc := (0 : Nat), tp := (0 : Nat), last := (0 : Nat) : Meter }.inRange
     = true) ∧ (((wei (4095 : Nat) (33554465 : Word)).meter ((wei (4095 : Nat) (33554465 : Word)).rf (bankKey (3 : Nat) Reg.WEI_SEL) (0 :
     Nat) (12 : Nat))).en = false)) ∧
    (((wei (4095 : Nat) (33554464 : Word)).admits (3 : Nat) Reg.WEI_CMD = true) ∧ ((33554464 : BitVec (32 : Nat)) = (wei (4095 : Nat)
     (33554464 : Word)).rd (bankKey (3 : Nat) (Reg.WEI_DATA (0 : Nat))) &&& (1073676351 : Word)) ∧ ((1000 : Word) = (wei (4095 : Nat)
     (33554464 : Word)).rd (bankKey (3 : Nat) (Reg.WEI_DATA (1 : Nat))) &&& (33554431 : Word)) ∧ ((2000 : Word) = (wei (4095 : Nat)
     (33554464 : Word)).rd (bankKey (3 : Nat) (Reg.WEI_DATA (2 : Nat))) &&& (33554431 : Word)) ∧ ((500 : Word) = (wei (4095 : Nat) (33554464
     : Word)).rd (bankKey (3 : Nat) (Reg.WEI_DATA (3 : Nat))) &&& (16777215 : Word)) ∧ ((600 : Word) = (wei (4095 : Nat) (33554464 :
     Word)).rd (bankKey (3 : Nat) (Reg.WEI_DATA (4 : Nat))) &&& (16777215 : Word)) ∧ ((wei (4095 : Nat) (33554464 : Word)).meterOwned ((wei
     (4095 : Nat) (33554464 : Word)).rf (bankKey (3 : Nat) Reg.WEI_SEL) (0 : Nat) (12 : Nat)) = false) ∧ (bit (33554464 : BitVec (32 : Nat))
     (0 : Nat) = false)) ∧
    (((wei (0 : Nat) (1 : Word)).admits (3 : Nat) Reg.WEI_CMD = true) ∧ ((1 : BitVec (32 : Nat)) = (wei (0 : Nat) (1 : Word)).rd (bankKey (3
     : Nat) (Reg.WEI_DATA (0 : Nat))) &&& (1073676351 : Word)) ∧ ((1000 : Word) = (wei (0 : Nat) (1 : Word)).rd (bankKey (3 : Nat)
     (Reg.WEI_DATA (1 : Nat))) &&& (33554431 : Word)) ∧ ((2000 : Word) = (wei (0 : Nat) (1 : Word)).rd (bankKey (3 : Nat) (Reg.WEI_DATA (2 :
     Nat))) &&& (33554431 : Word)) ∧ ((500 : Word) = (wei (0 : Nat) (1 : Word)).rd (bankKey (3 : Nat) (Reg.WEI_DATA (3 : Nat))) &&&
     (16777215 : Word)) ∧ ((600 : Word) = (wei (0 : Nat) (1 : Word)).rd (bankKey (3 : Nat) (Reg.WEI_DATA (4 : Nat))) &&& (16777215 : Word))
     ∧ ((wei (0 : Nat) (1 : Word)).meterOwned ((wei (0 : Nat) (1 : Word)).rf (bankKey (3 : Nat) Reg.WEI_SEL) (0 : Nat) (12 : Nat)) = true ∨
     bit (1 : BitVec (32 : Nat)) (0 : Nat) = true ∧
     { d0 := (1 : BitVec (32 : Nat)), d1 := (1000 : Word), d2 := (2000 : Word), d3 := (500 : Word), d4 := (600 : Word), tc := (0 : Nat), tp := (0 : Nat), last := (0 : Nat) : Meter }.inRange
     = false)) ∧
    ((w05_1.admits 3 Reg.WEI_CMD = true) ∧ ({ d0 := 1, d1 := 2, d2 := 3, d3 := 4, d4 := 5, tc := 6, tp := 7, last := 8 : Meter } =
     w05_1.meter (w05_1.rf (bankKey 3 Reg.WEI_SEL) 0 12))) := by
  and_intros <;> decide +kernel

/-- The hypotheses of `Obligations.SluiceListsChangeAndGate` hold together, clause by clause. -/
theorem hyps_SluiceListsChangeAndGate :
    ((21 < 22) ∧ (sluS.admits 3 (Reg.SLU_CMD 21) = true) ∧ (0 < (sluS.sluAdmin 21).cycle)) ∧
    ((21 < 22) ∧ (w05_2.admits 3 (Reg.SLU_CMD 21) = true) ∧ (0 < (w05_2.sluAdmin 21).cycle)) ∧
    ((21 < 22) ∧ (sluP.admits 3 (Reg.SLU_CMD 21) = true)) ∧
    ((21 < 22) ∧ ((sluP.sluice 21).pend = some (gcfg, 7000)) ∧ (sluP.gateEn 21 = false)) ∧
    ((21 < 22) ∧ (w05_3.gateEn 21 = true) ∧ ((w05_3.sluice 21).oper = some gcfg) ∧ ((w05_3.sluice 21).started = true) ∧ ((w05_3.sluice
     21).pend = none) ∧ (gcfg.inRange = true)) ∧
    (((21 : Nat) < (22 : Nat)) ∧ ((sluO true).admits (3 : Nat) (Reg.SLU_CTRL (21 : Nat)) = true) ∧ (bit (4294967288 : BitVec (32 : Nat)) (0
     : Nat) = false)) ∧
    (((21 : Nat) < (22 : Nat)) ∧ (w05_4.admits (3 : Nat) (Reg.SLU_CTRL (21 : Nat)) = true) ∧ (bit (4294967281 : BitVec (32 : Nat)) (0 : Nat)
     = true) ∧ (w05_4.gateEn (21 : Nat) = false) ∧ ((w05_4.sluice (21 : Nat)).oper = none)) ∧
    ((21 < 22) ∧ (w05_5.admits 3 (Reg.SLU_GCL_D1 21) = true) ∧ (w05_5.rb (Reg.SLU_GCL_SEL 21) 16 = false) ∧ ((w05_5.sluice 21).pend = none)) ∧
    ((21 < 22) ∧ (w05_6.admits 3 (Reg.SLU_GCL_D1 21) = true) ∧ (w05_6.rb (Reg.SLU_GCL_SEL 21) 16 = false) ∧ ((w05_6.sluice 21).pend = none)) ∧
    ((21 < 22) ∧ (sluP.admits 3 (Reg.SLU_GCL_D1 21) = true) ∧ (sluP.rb (Reg.SLU_GCL_SEL 21) 16 = true ∨ (sluP.sluice 21).pend.isSome =
     true)) := by
  and_intros <;> decide +kernel

/-- The hypotheses of `Obligations.BudgetCommandsRunInOrder` hold together, clause by clause. -/
theorem hyps_BudgetCommandsRunInOrder :
    ((w05_7.admits 3 Reg.BUD_CMD = true) ∧ ((w05_7.slot (budSlot 3)).idle = true) ∧ (w05_7.bud.work ≠ []) ∧ (Option.any BudWork.isCmd
     w05_7.bud.work.head? = false) ∧ ((Instr.budRelease 3, 2) ∈ [(Instr.budRequest 3, 1), (Instr.budRelease 3, 2), (Instr.budRead 3, 3),
     (Instr.budRecheck 3, 4), (Instr.budQuery 3, 5)])) ∧
    ((w05_8.admits 3 Reg.BUD_CMD = true) ∧ ((w05_8.slot (budSlot 3)).idle = true) ∧ (w05_8.bud.work ≠ []) ∧ (Option.any BudWork.isCmd
     w05_8.bud.work.head? = false) ∧ ((Instr.budQuery 3, 5) ∈ [(Instr.budRequest 3, 1), (Instr.budRelease 3, 2), (Instr.budRead 3, 3),
     (Instr.budRecheck 3, 4), (Instr.budQuery 3, 5)])) ∧
    ((w05_9.budFree 3) ∧ (w05_9.rb Reg.BUD_CFG 0 = false) ∧ ((Instr.budRequest 3, 1) ∈ [(Instr.budRequest 3, 1), (Instr.budRelease 3, 2),
     (Instr.budRead 3, 3), (Instr.budRecheck 3, 4), (Instr.budQuery 3, 5)])) ∧
    ((w05_10.budFree 3) ∧ (w05_10.rb Reg.BUD_CFG 0 = true) ∧ (budR 2 = w05_10.resv (w05_10.rf (bankKey 3 Reg.BUD_INDEX) 0 10)) ∧ ((budR
     2).state ≠ 0)) ∧
    ((w05_11.budFree 3) ∧ (w05_11.rb Reg.BUD_CFG 0 = true) ∧ (9 = w05_11.rf (bankKey 3 Reg.BUD_INDEX) 0 10 % 32) ∧ (w05_11.portUp 9 =
     false)) ∧
    (((bud true 5 0 [] []).budFree 3) ∧ ((bud true 5 0 [] []).rb Reg.BUD_CFG 0 = true) ∧ ((Instr.budRequest 3, 1) ∈ [(Instr.budRequest 3,
     1), (Instr.budQuery 3, 5)]) ∧ (((bud true 5 0 [] []).budWants 3 1).record = none)) ∧
    ((w05_12.budFree 3) ∧ (w05_12.rb Reg.BUD_CFG 0 = true) ∧ ((Instr.budQuery 3, 5) ∈ [(Instr.budRequest 3, 1), (Instr.budQuery 3, 5)]) ∧
     ((w05_12.budWants 3 5).record = some (budRr 23)) ∧ (16 ≤ (budRr 23).port ∧ (budRr 23).port < 20 ∨ 23 ≤ (budRr 23).port)) ∧
    (((budOk (0 : Nat)).budFree (3 : Nat)) ∧ ((budOk (0 : Nat)).rb Reg.BUD_CFG (0 : Nat) = true) ∧ ((Instr.budRequest (3 : Nat), (1 : Nat))
     ∈ [(Instr.budRequest (3 : Nat), (1 : Nat)), (Instr.budQuery (3 : Nat), (5 : Nat))]) ∧ (((budOk (0 : Nat)).budWants (3 : Nat) (1 :
     Nat)).record = some (budRr (5 : Nat))) ∧ ((budRr (5 : Nat)).port < (16 : Nat) ∨ (20 : Nat) ≤ (budRr (5 : Nat)).port ∧ (budRr (5 :
     Nat)).port < (23 : Nat)) ∧ ((((budOk (0 : Nat)).budAt (3 : Nat)).budChecks (budRr (5 : Nat))).fst ≠ (0 : Nat))) ∧
    (((budOk (0 : Nat)).budFree (3 : Nat)) ∧ ((budOk (0 : Nat)).rb Reg.BUD_CFG (0 : Nat) = true) ∧ ((Instr.budQuery (3 : Nat), (5 : Nat)) ∈
     [(Instr.budRequest (3 : Nat), (1 : Nat)), (Instr.budQuery (3 : Nat), (5 : Nat))]) ∧ (((budOk (0 : Nat)).budWants (3 : Nat) (5 :
     Nat)).record = some (budRr (5 : Nat))) ∧ ((budRr (5 : Nat)).port < (16 : Nat) ∨ (20 : Nat) ≤ (budRr (5 : Nat)).port ∧ (budRr (5 :
     Nat)).port < (23 : Nat)) ∧ ((((budOk (0 : Nat)).budAt (3 : Nat)).budChecks (budRr (5 : Nat))).fst ≠ (0 : Nat))) ∧
    (((budOk (8 : Nat)).budFree (3 : Nat)) ∧ ((budOk (8 : Nat)).rb Reg.BUD_CFG (0 : Nat) = true) ∧ ((Instr.budRequest (3 : Nat), (1 : Nat))
     ∈ [(Instr.budRequest (3 : Nat), (1 : Nat)), (Instr.budQuery (3 : Nat), (5 : Nat))]) ∧ (((budOk (8 : Nat)).budWants (3 : Nat) (1 :
     Nat)).record = some (budRr (5 : Nat))) ∧ ((budRr (5 : Nat)).port < (16 : Nat) ∨ (20 : Nat) ≤ (budRr (5 : Nat)).port ∧ (budRr (5 :
     Nat)).port < (23 : Nat)) ∧ ((((budOk (8 : Nat)).budAt (3 : Nat)).budChecks (budRr (5 : Nat))).fst = (0 : Nat)) ∧ ((budOk (8 :
     Nat)).freeResv = some (0 : Nat))) ∧
    ((w05_13.budFree (3 : Nat)) ∧ (w05_13.rb Reg.BUD_CFG (0 : Nat) = true) ∧ ((Instr.budQuery (3 : Nat), (5 : Nat)) ∈ [(Instr.budRequest (3
     : Nat), (1 : Nat)), (Instr.budQuery (3 : Nat), (5 : Nat))]) ∧ ((w05_13.budWants (3 : Nat) (5 : Nat)).record = some (budRr (5 : Nat))) ∧
     ((budRr (5 : Nat)).port < (16 : Nat) ∨ (20 : Nat) ≤ (budRr (5 : Nat)).port ∧ (budRr (5 : Nat)).port < (23 : Nat)) ∧ (((w05_13.budAt (3
     : Nat)).budChecks (budRr (5 : Nat))).fst = (0 : Nat)) ∧ (w05_13.freeResv = some (0 : Nat))) ∧
    (((budRun []).bud.work = [BudWork.running 3]) ∧ (((budRun []).slot (budSlot 3)).busy = true) ∧ (((budRun []).slot (budSlot 3)).held =
     some (codeRes 2)) ∧ ((budRun []).svc.release = []) ∧ (Option.any BudWork.isCmd [].head? = false)) ∧
    ((w05_14.bud.work = [BudWork.running 3, BudWork.cmd budQ, BudWork.recheck 5]) ∧ ((w05_14.slot (budSlot 3)).busy = true) ∧ ((w05_14.slot
     (budSlot 3)).held = some (codeRes 2)) ∧ (w05_14.svc.release = []) ∧ (w05_14.rb Reg.BUD_CFG 0 = false) ∧ (budQ.m ≠ 3)) ∧
    ((w05_15.bud.work = [BudWork.recheck 5]) ∧ (Option.any BudWork.isCmd [].head? = false) ∧ (w05_15.portUp 5 = false)) ∧
    ((w05_16.admits 3 Reg.BUD_CFG = true) ∧ (w05_16.rb Reg.BUD_CFG 0 = false) ∧ (bit (1 : Word) 0 = true)) ∧
    ((w05_10.admits 3 Reg.BUD_CFG = true) ∧ (w05_10.rb Reg.BUD_CFG 0 = true) ∧ (bit (0 : Word) 0 = false) ∧ ((List.any w05_10.bud.resv fun x
     => decide (x.snd.state ≠ 0)) = true)) := by
  and_intros <;> decide +kernel

end W05

/-! ### Witnesses of 06 -/

namespace W06

def freS (d0 : Word) (f : FreFn) : State :=
  (((((up.wr (bankKey 3 Reg.FRE_SEL) 255).wr (bankKey 3 (Reg.FRE_DATA 0)) d0).wr (bankKey 3 (Reg.FRE_DATA 1)) 7).wr
    (bankKey 3 (Reg.FRE_DATA 2)) 0x02050005).wr (bankKey 3 (Reg.FRE_DATA 3)) 9).setFre 255 f
def freF : FreFn := ⟨0x00010113, 0, 0x02010001, 1, 7, false, 5, 300⟩
def freG (d0 : Word) (f : FreFn) : FreFn := { f with d0 := d0, d1 := 7, d2 := 0x02050005, d3 := 9 }
def w06_1 := (freS 0x00010803 FreFn.reset)
def w06_2 := (freG 0x00010803 FreFn.reset)
def w06_3 := (freS 0x00012103 FreFn.reset)
def w06_4 := (freG 0x00012103 FreFn.reset)
def freR : State := freS 0 { freF with d0 := 0x00010803 }
def fgdS (w : List Word) (x : View) : State :=
  (((List.range 8).foldl (fun s k => s.wr (bankKey 3 (Reg.FGD_VCFG0 + 4 * k)) (w.getD k 0)) up).wr (bankKey 3 Reg.FGD_SEL) 63).setView 63 x
def vw (on : Word) : List Word := [0x0A000800 ||| on, 0x411B, 0x9C40, 0, 0x00400410, 0, 0, 0]
def vLive : View := { View.reset with state := 1, w := vw 5, deadline := 1000 }
def vStale : View := { View.reset with state := 2, w := vw 5, next := 1000 }


def had (st att : Nat) (h : HeadPort) : State :=
  ((opened.wr (Reg.HAD_PORT_CFG 7) 1).wr (Reg.HAD_PORT_STAT 7) (wd (st + att * 16 + 9 * 256 + 2 ^ 14))).setHport 7 h
def non : List Byte := List.replicate 16 5
def prf : List Byte := hadHeader 2 0 254 ++ non ++ List.replicate 240 1
def reqB : List Byte := hadHeader 4 0 6
def hpN : HeadPort := { HeadPort.reset with nonce := some non, verdicts := [[1, 2]] }
def vq (op : Nat) (s : State) : State :=
  { s with vlt := { s.vlt with ops := [⟨7, op, [], [], none, 0⟩, ⟨3, 0x08, [], [], some (codeRes 0), 0⟩] } }
def prf1 : Proof := ⟨[1, 2], [], [], 0, 0, 0, 0, 0, [], []⟩
def hd1 : Head := { Head.reset with state := 1, key := [1, 2], lastPort := 3, life := { Life.reset with on := 1000 } }
def hpP : HeadPort := { HeadPort.reset with proofs := [prf1], cand := some prf1 }
def w06_5 := (vq VOp.proof ((had 2 3 hpP).setHead 63 hd1))
def w06_6 := (vq VOp.verdict (had 2 3 hpN))
def w06_7 := (vq VOp.proof ((had 2 3 hpP).wr Reg.VLT_CFG 0x200))
def w06_8 := ((had 3 0 hpP).wr (itemKey 0x70 Reg.GLB_PERM_DATA) 0x1F)
def w06_9 := ((had 3 0 hpP).setHead 9 hd1)

/-- The hypotheses of `Obligations.RecoveryFunctionsRun` hold together, clause by clause. -/
theorem hyps_RecoveryFunctionsRun :
    ((w06_1.admits 3 Reg.FRE_CMD = true) ∧ (w06_2 = have __src := w06_1.freFn (w06_1.rf (bankKey 3 Reg.FRE_SEL) 0 8);
     { d0 := w06_1.rd (bankKey 3 (Reg.FRE_DATA 0)) &&& 4294917919, d1 := w06_1.rd (bankKey 3 (Reg.FRE_DATA 1)) &&& 67108863, d2 := w06_1.rd (bankKey 3 (Reg.FRE_DATA 2)) &&& 134217727, d3 := w06_1.rd (bankKey 3 (Reg.FRE_DATA 3)) &&& 65535, seq := __src.seq, takeAny := __src.takeAny, hist := __src.hist, latBase := __src.latBase : FreFn })
     ∧ (w06_2.en = true) ∧ (w06_2.inRange = true) ∧ ((w06_1.freFn (w06_1.rf (bankKey 3 Reg.FRE_SEL) 0 8)).en = false)) ∧
    ((w06_3.admits 3 Reg.FRE_CMD = true) ∧ (w06_4 = have __src := w06_3.freFn (w06_3.rf (bankKey 3 Reg.FRE_SEL) 0 8);
     { d0 := w06_3.rd (bankKey 3 (Reg.FRE_DATA 0)) &&& 4294917919, d1 := w06_3.rd (bankKey 3 (Reg.FRE_DATA 1)) &&& 67108863, d2 := w06_3.rd (bankKey 3 (Reg.FRE_DATA 2)) &&& 134217727, d3 := w06_3.rd (bankKey 3 (Reg.FRE_DATA 3)) &&& 65535, seq := __src.seq, takeAny := __src.takeAny, hist := __src.hist, latBase := __src.latBase : FreFn })
     ∧ (w06_4.en = true) ∧ (w06_4.inRange = false)) ∧
    (((freS 67587 freF).admits 3 Reg.FRE_CMD = true)) ∧
    (((freS 67587 freF).admits 3 Reg.FRE_CMD = true)) ∧
    ((((freS 67587 freF).freFn 255).en = true) ∧ (((freS 67587 freF).freFn 255).recovery = true) ∧ (((freS 67587 freF).freFn 255).takeAny =
     false)) ∧
    ((((freS 67587 freF).freFn 255).en = true) ∧ (((freS 67587 freF).freFn 255).recovery = true) ∧ (((freS 67587 freF).freFn 255).latentEn =
     true)) ∧
    ((((freS 67587 freF).freFn 255).en = true) ∧ (((freS 67587 freF).freFn 255).recovery = true) ∧ (((freS 67587 freF).freFn 255).latentEn =
     true)) ∧
    ((8 < 65536) ∧ ((freR.freFn 255).en = true) ∧ ((freR.freFn 255).recovery = true) ∧ (2 ≤ (freR.freFn 255).histLen) ∧ ((freR.freRecover
     255 (some 8)).fst = true)) ∧
    ((6 < 65536) ∧ ((freR.freFn 255).en = true) ∧ ((freR.freFn 255).recovery = true) ∧ (2 ≤ (freR.freFn 255).histLen) ∧ ((freR.freRecover
     255 (some 6)).fst = true)) := by
  and_intros <;> decide +kernel

/-- The hypotheses of `Obligations.FreshnessViewsFollowTheirTable` hold together, clause by clause. -/
theorem hyps_FreshnessViewsFollowTheirTable :
    (((fgdS (vw 1) View.reset).admits 3 Reg.FGD_CMD = true) ∧ (vw 1 = List.map (fun k => (fgdS (vw 1) View.reset).rd (bankKey 3
     (Reg.FGD_VCFG0 + 4 * k))) (List.range 8)) ∧ (63 = (fgdS (vw 1) View.reset).rf (bankKey 3 Reg.FGD_SEL) 0 6) ∧ (viewOk (vw 1) = true) ∧
     (bit ((vw 1).getD 0 0) 0 = true) ∧ (((fgdS (vw 1) View.reset).view 63).state = 0)) ∧
    (((fgdS (vw 1) vLive).admits 3 Reg.FGD_CMD = true) ∧ (vw 1 = List.map (fun k => (fgdS (vw 1) vLive).rd (bankKey 3 (Reg.FGD_VCFG0 + 4 *
     k))) (List.range 8)) ∧ (63 = (fgdS (vw 1) vLive).rf (bankKey 3 Reg.FGD_SEL) 0 6) ∧ (viewOk (vw 1) = true) ∧ (bit ((vw 1).getD 0 0) 0 =
     true) ∧ (((fgdS (vw 1) vLive).view 63).state ≠ 0)) ∧
    (((fgdS (vw 0) vLive).admits 3 Reg.FGD_CMD = true) ∧ (vw 0 = List.map (fun k => (fgdS (vw 0) vLive).rd (bankKey 3 (Reg.FGD_VCFG0 + 4 *
     k))) (List.range 8)) ∧ (63 = (fgdS (vw 0) vLive).rf (bankKey 3 Reg.FGD_SEL) 0 6) ∧ (viewOk (vw 0) = true) ∧ (bit ((vw 0).getD 0 0) 0 =
     false)) ∧
    (((fgdS [1] vLive).admits 3 Reg.FGD_CMD = true) ∧ ([1, 0, 0, 0, 0, 0, 0, 0] = List.map (fun k => (fgdS [1] vLive).rd (bankKey 3
     (Reg.FGD_VCFG0 + 4 * k))) (List.range 8)) ∧ (63 = (fgdS [1] vLive).rf (bankKey 3 Reg.FGD_SEL) 0 6) ∧ (viewOk [1, 0, 0, 0, 0, 0, 0, 0] =
     false)) ∧
    (((fgdS (vw 1) vLive).admits 3 Reg.FGD_CMD = true) ∧ (63 = (fgdS (vw 1) vLive).rf (bankKey 3 Reg.FGD_SEL) 0 6) ∧ (((fgdS (vw 1)
     vLive).view 63).pendW = none)) ∧
    ((63 < 64) ∧ (((fgdS (vw 1) vLive).view 63).state = 1) ∧ (((fgdS (vw 1) vLive).view 63).video = none) ∧ (((fgdS (vw 1) vLive).view
     63).pendW = none)) ∧
    ((63 < 64) ∧ (((fgdS (vw 1) vStale).view 63).state ≠ 1) ∧ ((fgdS (vw 1) vStale).inj = [])) ∧
    ((63 < 64) ∧ (((fgdS (vw 1) vStale).view 63).state = 2)) := by
  and_intros <;> decide +kernel

/-- The hypotheses of `Obligations.AdmissionExchangeFollowsItsTable` hold together, clause by clause. -/
theorem hyps_AdmissionExchangeFollowsItsTable :
    ((7 < 8) ∧ ((had 2 1 hpN).inj = []) ∧ (hadBad prf 2 254 = false) ∧ ((had 2 1 hpN).hadState 7 = 2 ∨ (had 2 1 hpN).hadState 7 = 4) ∧
     (((had 2 1 hpN).hport 7).nonce = some (List.take 16 (List.drop 6 prf)))) ∧
    ((7 < 8) ∧ ((had 2 1 HeadPort.reset).inj = []) ∧ (hadBad prf 2 254 = false) ∧ (((had 2 1 HeadPort.reset).hport 7).nonce ≠ some
     (List.take 16 (List.drop 6 prf)))) ∧
    ((7 < 8) ∧ ((had 2 1 hpN).inj = []) ∧ (hadBad reqB 2 254 = true)) ∧
    ((7 < 8) ∧ (hadBad reqB 4 6 = false) ∧ ((had 3 0 hpN).hadState 7 = 3) ∧ (((had 3 0 hpN).hport 7).lastReq = none) ∧ ((had 3 0
     hpN).vltOpen = true)) ∧
    ((7 < 8) ∧ ((had 3 0 hpN).hadState 7 = 3) ∧ ((had 3 0 hpN).vltOpen = true)) ∧
    ((7 < 8) ∧ ((had 5 0 hpN).hadState 7 = 5 ∨ (had 5 0 hpN).hadState 7 = 6) ∧ ((had 5 0 hpN).vltOpen = true)) ∧
    ((7 < 8) ∧ ((had 6 0 hpN).hadState 7 = 5 ∨ (had 6 0 hpN).hadState 7 = 6) ∧ ((had 6 0 hpN).vltOpen = true)) ∧
    ((7 < 8) ∧ ((had 2 1 hpN).hadState 7 = 2 ∨ (had 2 1 hpN).hadState 7 = 4) ∧ ((had 2 1 hpN).vltOpen = true) ∧ ((had 2 1 hpN).rf
     (Reg.HAD_PORT_STAT 7) 4 4 < (had 2 1 hpN).rf Reg.HAD_CFG 24 4)) ∧
    ((7 < 8) ∧ ((had 4 3 hpN).inj = []) ∧ ((had 4 3 hpN).vltCalm = true) ∧ ((had 4 3 hpN).hadState 7 = 2 ∨ (had 4 3 hpN).hadState 7 = 4) ∧
     ((had 4 3 hpN).rf Reg.HAD_CFG 24 4 ≤ (had 4 3 hpN).rf (Reg.HAD_PORT_STAT 7) 4 4)) ∧
    ((7 < 8) ∧ ((had 4 15 hpN).inj = []) ∧ ((had 4 15 hpN).vltCalm = true) ∧ ((had 4 15 hpN).hadState 7 = 2 ∨ (had 4 15 hpN).hadState 7 = 4)
     ∧ ((had 4 15 hpN).rf Reg.HAD_CFG 24 4 ≤ (had 4 15 hpN).rf (Reg.HAD_PORT_STAT 7) 4 4)) ∧
    ((7 < 8) ∧ (w06_5.inj = []) ∧ (w06_5.vltCalm = true) ∧ (w06_5.hadFront VOp.proof 7 = true) ∧ ((w06_5.hport 7).proofs = [prf1]) ∧
     (w06_5.hadState 7 = 2) ∧ (w06_5.vltOpen = true) ∧ (w06_5.hadFind prf1.key = some 63) ∧ (63 < 64) ∧ (w06_5.headPresent 63 = false) ∧
     (w06_5.rf (Reg.HAD_PORT_STAT 7) 4 4 = w06_5.rf Reg.HAD_CFG 24 4)) ∧
    ((w06_5.inj = []) ∧ (w06_5.hadFront VOp.proof 6 = false) ∧ ((Option.map VltOp.aborted w06_5.vlt.ops.head?).getD false = false)) ∧
    (((7 : Nat) < (8 : Nat)) ∧ (w06_6.vltCalm = true) ∧ (w06_6.hadFront VOp.verdict (7 : Nat) = true) ∧ ((w06_6.hport (7 : Nat)).verdicts =
     [[(1 : Byte), (2 : Byte)]]) ∧ (w06_6.vltOpen = true)) ∧
    ((7 < 8) ∧ ((had 3 0 hpN).inj = []) ∧ ((had 3 0 hpN).vltCalm = true) ∧ ((had 3 0 hpN).admits 3 (Reg.HAD_PORT_CFG 7) = true) ∧ ((had 3 0
     hpN).portUp 7 = false) ∧ (bit (0 : Word) 0 ≠ (had 3 0 hpN).rb (Reg.HAD_PORT_CFG 7) 0)) ∧
    ((6 < 8) ∧ ((had 3 0 hpN).inj = []) ∧ ((had 3 0 hpN).vltCalm = true) ∧ ((had 3 0 hpN).admits 3 (Reg.HAD_PORT_CFG 6) = true) ∧ ((had 3 0
     hpN).portUp 6 = false) ∧ (bit (1 : Word) 0 ≠ (had 3 0 hpN).rb (Reg.HAD_PORT_CFG 6) 0)) ∧
    ((7 < 8) ∧ (255 < 256) ∧ (w06_7.inj = []) ∧ (w06_7.vlt.vstate = 1) ∧ (w06_7.vlt.ops =
     [{ m := 7, op := VOp.proof, args := [], buf := [], res := none, alarms := 0 : VltOp },
     { m := 3, op := 8, args := [], buf := [], res := some (codeRes 0), alarms := 0 : VltOp }]) ∧
     ({ m := 7, op := VOp.proof, args := [], buf := [], res := none, alarms := 0 : VltOp }.ofPort VOp.proof 7 = true) ∧
     ({ m := 7, op := VOp.proof, args := [], buf := [], res := none, alarms := 0 : VltOp }.alarms = 0) ∧
     ({ m := 7, op := VOp.proof, args := [], buf := [], res := none, alarms := 0 : VltOp }.res = none) ∧ (w06_7.vlt.glitches = []) ∧ (2 ≤
     w06_7.rf Reg.VLT_CFG 8 4)) := by
  and_intros <;> decide +kernel

/-- The hypotheses of `Obligations.RosterCommandsAndLifeRecords` hold together, clause by clause. -/
theorem hyps_RosterCommandsAndLifeRecords :
    (((had 3 0 hpP).admits 3 Reg.HAD_CMD = true) ∧ (((had 3 0 hpP).slot (hadSlot 3)).idle = true) ∧ ((had 3 0 hpP).svc.release = []) ∧ ((had
     3 0 hpP).inj = []) ∧ (63 < 64) ∧ (7 < 8) ∧ (3 < 8) ∧ (3 = 3) ∧ ((had 3 0 hpP).rb (Reg.HAD_PORT_CFG 7) 0 = true) ∧ (((had 3 0 hpP).head
     63).state ≠ 1) ∧ ((had 3 0 hpP).hadState 7 < 5) ∧ (Option.any (fun r => ((had 3 0 hpP).hadFind r.key).isNone) ((had 3 0 hpP).hport
     7).cand = true)) ∧
    (((had 3 0 hpP).admits 3 Reg.HAD_CMD = true) ∧ (((had 3 0 hpP).slot (hadSlot 3)).idle = true) ∧ ((had 3 0 hpP).svc.release = []) ∧ ((had
     3 0 hpP).inj = []) ∧ (63 < 64) ∧ (7 < 8) ∧ (3 < 8) ∧ (3 = 3) ∧ (((List.range 8).all fun q => !(decide ((had 3 0 hpP).hadIndex q = some
     63) && decide ((had 3 0 hpP).hadState q = 3))) = true)) ∧
    (((had 3 0 hpP).admits 3 Reg.HAD_CMD = true) ∧ (((had 3 0 hpP).slot (hadSlot 3)).idle = true) ∧ ((had 3 0 hpP).svc.release = []) ∧ ((had
     3 0 hpP).inj = []) ∧ (63 < 64) ∧ (7 < 8) ∧ (3 < 8)) ∧
    ((w06_8.admits 4 Reg.HAD_CMD = true) ∧ ((w06_8.slot (hadSlot 4)).idle = true) ∧ (w06_8.svc.release = []) ∧ (w06_8.inj = []) ∧ (63 < 64)
     ∧ (7 < 8) ∧ (4 < 8) ∧ (4 ≠ 3)) ∧
    ((w06_8.admits 4 Reg.HAD_CMD = true) ∧ ((w06_8.slot (hadSlot 4)).idle = true) ∧ (w06_8.svc.release = []) ∧ (w06_8.inj = []) ∧ (63 < 64)
     ∧ (7 < 8) ∧ (4 < 8)) ∧
    (((had 3 0 hpP).admits 3 Reg.HAD_CMD = true) ∧ (((had 3 0 hpP).slot (hadSlot 3)).idle = true) ∧ ((had 3 0 hpP).svc.release = []) ∧ (7 <
     8) ∧ (3 < 8) ∧ ((had 3 0 hpP).rb (Reg.HAD_PORT_CFG 7) 0 = true) ∧ ((had 3 0 hpP).hadState 7 = 3) ∧ ((had 3 0 hpP).vltOpen = true)) ∧
    ((7 < 8) ∧ (w06_9.hadState 7 = 3) ∧ (w06_9.hadIndex 7 = some 9)) ∧
    ((7 < 8) ∧ (w06_9.hadState 7 = 3) ∧ (w06_9.hadIndex 7 = some 9)) := by
  and_intros <;> decide +kernel

end W06

/-! ### Witnesses of 07a -/

namespace W07a

def lk (p l : Nat) (sh : Bool) : State := (up.setEport p { Ept.reset with link := l, shaking := sh, coll := 15 }).wf (Reg.BLK_CTRL (pageBase
  .ept p)) 0 1 1
def w07a_1 := ((lk 22 1 false).wf (Reg.EPT_CFG 22) 8 8 5)
def w07a_2 := ((lk 22 1 false).wf (Reg.EPT_CFG 22) 8 8 0)
def w07a_3 := ((lk 3 3 false).setArrival 3 false (some ⟨[1], none, none, false, none, 0⟩))
def w07a_4 := ((lk 15 3 false).wf (Reg.EPT_TC10 15) 0 1 1)
def w07a_5 := ((lk 15 3 false).wf (Reg.EPT_TC10 15) 0 1 0)
def w07a_6 := ((lk 15 3 false).wf (Reg.EPT_TC10 15) 0 8 7)
def w07a_7 := ((lk 15 4 false).wf (Reg.EPT_TC10 15) 0 8 7)
def w07a_8 := ((lk 19 3 false).wr (Reg.EPT_PLCA 19) 0x0F01)
def collTx : Tx := ⟨9, 0, false, [1, 2], 2, 0⟩
def coll (n : Nat) : State := let s := up.setEport 19 { Ept.reset with link := 3, coll := n }; s.setEg 19 { s.eg 19 with tx := some collTx }

/-- The hypotheses of `Obligations.LinksFollowTheirStateMachine` hold together, clause by clause. -/
theorem hyps_LinksFollowTheirStateMachine :
    ((22 < 23) ∧ (w07a_1.lstate 22 = 1) ∧ (w07a_1.rf (Reg.EPT_CFG 22) 8 8 ≠ 0) ∧ (w07a_1.inj = [])) ∧
    ((22 < 23) ∧ (w07a_2.lstate 22 = 1) ∧ (w07a_2.rf (Reg.EPT_CFG 22) 8 8 = 0)) ∧
    ((22 < 23) ∧ ((lk 22 2 false).lstate 22 = 2)) ∧
    ((0 < 23) ∧ ((lk 0 2 false).lstate 0 = 2)) ∧
    ((22 < 23) ∧ ((lk 22 2 false).lstate 22 = 2) ∧ ((lk 22 2 false).inj = [])) ∧
    ((3 < 23) ∧ (w07a_3.lstate 3 = 3)) ∧
    ((22 < 23) ∧ ((lk 22 1 false).lstate 22 = 1)) ∧
    ((22 < 23) ∧ ((lk 22 1 false).inj = []) ∧ ((lk 22 1 false).admits 3 (Reg.EPT_CFG 22) = true) ∧ ((lk 22 1 false).lstate 22 ≠ 3)) ∧
    ((7 < 23) ∧ ((lk 7 1 false).inj = []) ∧ ((lk 7 1 false).admits 3 (Reg.EPT_CFG 7) = true) ∧ ((lk 7 1 false).lstate 7 ≠ 3)) ∧
    (((7 : Nat) < (23 : Nat)) ∧ ((lk (7 : Nat) (3 : Nat) false).admits (3 : Nat) (Reg.EPT_CFG (7 : Nat)) = true) ∧ ((lk (7 : Nat) (3 : Nat)
     false).lstate (7 : Nat) = (3 : Nat)) ∧ (rateStored (7 : Nat) (fld (1296 : BitVec (32 : Nat)) (0 : Nat) (2 : Nat)) ≠ (lk (7 : Nat) (3 :
     Nat) false).rf (Reg.EPT_CFG (7 : Nat)) (0 : Nat) (2 : Nat))) ∧
    ((16 < 23) ∧ ((lk 16 3 false).admits 3 (Reg.EPT_CMD 16) = true) ∧ ((lk 16 3 false).lstate 16 = 3)) ∧
    ((20 ≤ 22) ∧ (22 < 23) ∧ ((lk 22 3 false).rf (Reg.EPT_CFG 22) 0 2 ≠ 0)) := by
  and_intros <;> decide +kernel

/-- The hypotheses of `Obligations.MultidropAndSleepHandshakes` hold together, clause by clause. -/
theorem hyps_MultidropAndSleepHandshakes :
    ((8 ≤ 15) ∧ (15 < 16) ∧ ((lk 15 3 false).admits 3 (Reg.EPT_CMD 15) = true) ∧ ((lk 15 3 false).lstate 15 = 3) ∧ (((lk 15 3 false).eport
     15).shaking = false)) ∧
    ((8 ≤ 15) ∧ (15 < 16) ∧ (w07a_4.lstate 15 = 3) ∧ (w07a_4.rb (Reg.EPT_TC10 15) 0 = true) ∧ (∀ (k : Nat), k < 8 → w07a_4.queue (8 * 15 +
     k) = []) ∧ (w07a_4.portResv 15 = [])) ∧
    ((8 ≤ 15) ∧ (15 < 16) ∧ (w07a_5.lstate 15 = 3) ∧ (w07a_5.rb (Reg.EPT_TC10 15) 0 = false)) ∧
    ((8 ≤ 15) ∧ (15 < 16) ∧ ((lk 15 3 true).lstate 15 = 3) ∧ (((lk 15 3 true).eport 15).shaking = true)) ∧
    ((8 ≤ 15) ∧ (15 < 16) ∧ ((lk 15 3 true).lstate 15 = 3) ∧ (((lk 15 3 true).eport 15).shaking = true)) ∧
    ((8 ≤ 15) ∧ (15 < 16) ∧ ((lk 15 4 false).admits 3 (Reg.EPT_CMD 15) = true) ∧ ((lk 15 4 false).lstate 15 = 4)) ∧
    ((8 ≤ 15) ∧ (15 < 16) ∧ ((lk 15 3 false).admits 3 (Reg.EPT_CMD 15) = true) ∧ ((lk 15 3 false).lstate 15 = 3)) ∧
    ((8 ≤ 15) ∧ (15 < 16) ∧ (w07a_6.lstate 15 = if true = true then 3 else 4) ∧ (w07a_6.rb (Reg.EPT_TC10 15) (if true = true then 2 else 1)
     = true) ∧ (w07a_6.rb (Reg.EPT_TC10 15) 3 = false)) ∧
    ((8 ≤ 15) ∧ (15 < 16) ∧ (w07a_7.lstate 15 = if false = true then 3 else 4) ∧ (w07a_7.rb (Reg.EPT_TC10 15) (if false = true then 2 else
     1) = true) ∧ (w07a_7.rb (Reg.EPT_TC10 15) 3 = false)) ∧
    ((16 ≤ 19) ∧ (19 < 20)) ∧
    ((16 ≤ 19) ∧ (19 < 20) ∧ (w07a_8.plcaActive 19 = true) ∧ (w07a_8.rf (Reg.EPT_PLCA 19) 8 4 ≠ 0)) ∧
    ((16 ≤ 19) ∧ (19 < 20)) ∧
    ((16 ≤ 19) ∧ (19 < 20) ∧ (((coll 14).eg 19).tx = some collTx) ∧ (((coll 14).eport 19).coll < 15)) ∧
    ((16 ≤ 19) ∧ (19 < 20) ∧ (((coll 15).eg 19).tx = some collTx) ∧ (((coll 15).eport 19).coll = 15)) := by
  and_intros <;> decide +kernel

end W07a

/-! ### Witnesses of 07b -/

namespace W07b

def rg (on : Bool) (n unsig : Nat) : State :=
  (((up.wr (ringCtrl n) (wd (0x10500 + b2n on))).wr (Reg.RXR_BASE_LO 0 + ringOff n) 0x12345).wr (Reg.RXR_SIZE 0 + ringOff n) 6).setRing n
    ⟨0x12340, 64, 5, 3, 60, unsig⟩
def w07b_1 := ((rg true 31 0).wr Reg.HIF_STAT 0x81)
def clu (s : State) : State :=
  { s.wr Reg.SVC_RING_MAP 0xFFFFFFFF with svc := { SvcSt.reset with parts := [(3, { Part.reset with state := 1, cores := 2 })], core := 1 } }
def cr (on : Bool) (n unsig : Nat) : State := (clu (rg on n unsig)).setRing n ⟨0x08001000, 64, 5, 3, 60, unsig⟩
def hm (s : State) : State := s.wr (itemKey 6 Reg.GLB_PERM_DATA) 0x1F
def cr2 : State := (cr true 39 1).setRing 55 ⟨0x08001000, 64, 5, 3, 60, 0⟩
def tx31 : State := ((rg true 31 1).wr Reg.HIF_CFG 0x101).wr Reg.HIF_STAT 0x81
def rec1 : RxRec := ⟨5, 6, List.replicate 70 1, true, 2, 0, 0, 0, 1⟩
def rxr : State := (rg true 15 0).setRxf 15 { RxFifo.reset with recs := [rec1], wr := 11 }
def rxc : State := (cr true 39 0).setRxf 23 { RxFifo.reset with recs := [rec1], wr := 11 }
def mx : State := { up with msix := ⟨0, 1, true, 0x81, [(28, 7), (29, 8), (30, 9)]⟩ }

/-- The hypotheses of `Obligations.HostRingsRun` hold together, clause by clause. -/
theorem hyps_HostRingsRun :
    (((rg true (31 : Nat) (0 : Nat)).inj = []) ∧ ((rg true (31 : Nat) (0 : Nat)).admits (3 : Nat) Reg.HIF_CFG = true) ∧ (fld (274 : BitVec
     (32 : Nat)) (0 : Nat) (2 : Nat) ≠ (rg true (31 : Nat) (0 : Nat)).rf Reg.HIF_CFG (0 : Nat) (2 : Nat)) ∧ ((rg true (31 : Nat) (0 :
     Nat)).anyRing = true)) ∧
    (((linkUp (20 : Nat)).admits (3 : Nat) Reg.HIF_CFG = true) ∧ ((linkUp (20 : Nat)).rf Reg.HIF_CFG (0 : Nat) (2 : Nat) = (0 : Nat)) ∧ (fld
     (273 : BitVec (32 : Nat)) (0 : Nat) (2 : Nat) = (1 : Nat)) ∧ ((linkUp (20 : Nat)).anyRing = false)) ∧
    (((rg true (31 : Nat) (0 : Nat)).rb Reg.HIF_STAT (0 : Nat) = false) ∧ ((rg true (31 : Nat) (0 : Nat)).rb Reg.HIF_STAT (7 : Nat) = false)
     ∧ (bit (4294967039 : BitVec (32 : Nat)) (8 : Nat) = false)) ∧
    ((w07b_1.rb Reg.HIF_STAT (7 : Nat) = true) ∧ (bit (4294966785 : BitVec (32 : Nat)) (7 : Nat) = false) ∧ (bit (4294966785 : BitVec (32 :
     Nat)) (0 : Nat) = w07b_1.rb Reg.HIF_STAT (0 : Nat)) ∧ (bit (4294966785 : BitVec (32 : Nat)) (8 : Nat) = w07b_1.rb Reg.HIF_STAT (8 :
     Nat))) ∧
    ((15 < 16) ∧ ((rg false 31 1).admits 3 (ringCtrl (ringNo true 15)) = true) ∧ ((rg false 31 1).ringOn (ringNo true 15) = false)) ∧
    ((15 < 16) ∧ ((rg false 15 1).admits 3 (ringCtrl (ringNo false 15)) = true) ∧ ((rg false 15 1).ringOn (ringNo false 15) = false)) ∧
    ((15 < 16) ∧ ((rg true 31 1).admits 3 (ringCtrl (ringNo true 15)) = true)) ∧
    ((16 ≤ 23) ∧ (23 < 24) ∧ ((cr false 55 1).ringMine (ringNo true 23) = true) ∧ ((cr false 55 1).ringOn (ringNo true 23) = false)) ∧
    ((16 ≤ 23) ∧ (23 < 24) ∧ ((cr false 39 1).ringMine (ringNo false 23) = true) ∧ ((cr false 39 1).ringOn (ringNo false 23) = false)) ∧
    ((16 ≤ 16) ∧ (16 < 24) ∧ ((cr true 48 1).ringMine (ringNo true 16) = true)) ∧
    ((15 < 24) ∧ (1 < 16) ∧ ((rg true 31 1).ringOn (ringNo true 15) = true)) ∧
    ((15 < 24) ∧ (15 < 16) ∧ ((rg true 15 1).ringOn (ringNo false 15) = true)) ∧
    ((23 < 24) ∧ (15 < 16) ∧ ((cr true 55 1).ringOn (ringNo true 23) = true)) ∧
    (((15 : Nat) < (16 : Nat)) ∧ ((hm (rg true (31 : Nat) (1 : Nat))).admits (0 : Nat) (pageBase Blk.hif (0 : Nat)) = true) ∧ ((hm (rg true
     (31 : Nat) (1 : Nat))).ringOn ((16 : Nat) + (15 : Nat)) = true) ∧ (fld (63 : BitVec (32 : Nat)) (0 : Nat) (16 : Nat) < ((hm (rg true
     (31 : Nat) (1 : Nat))).ring ((16 : Nat) + (15 : Nat))).size)) ∧
    (((15 : Nat) < (16 : Nat)) ∧ ((hm (rg true (15 : Nat) (1 : Nat))).admits (0 : Nat) (pageBase Blk.hif (0 : Nat)) = true) ∧ ((hm (rg true
     (15 : Nat) (1 : Nat))).ringOn (15 : Nat) = true) ∧ (fld (63 : BitVec (32 : Nat)) (0 : Nat) (16 : Nat) < ((hm (rg true (15 : Nat) (1 :
     Nat))).ring (15 : Nat)).size)) ∧
    (((15 : Nat) < (16 : Nat)) ∧ ((hm (rg true (15 : Nat) (1 : Nat))).admits (0 : Nat) (pageBase Blk.hif (0 : Nat)) = true) ∧ (true = false
     ∨ (hm (rg true (15 : Nat) (1 : Nat))).ringOn (15 : Nat) = false ∨ ((hm (rg true (15 : Nat) (1 : Nat))).ring (15 : Nat)).size ≤ fld (64
     : BitVec (32 : Nat)) (0 : Nat) (16 : Nat))) ∧
    (((15 : Nat) < (16 : Nat)) ∧ ((hm (rg true (15 : Nat) (1 : Nat))).admits (0 : Nat) (pageBase Blk.hif (0 : Nat)) = true) ∧ (false = false
     ∨ (hm (rg true (15 : Nat) (1 : Nat))).ringOn (15 : Nat) = false ∨ ((hm (rg true (15 : Nat) (1 : Nat))).ring (15 : Nat)).size ≤ fld (1 :
     BitVec (32 : Nat)) (0 : Nat) (16 : Nat))) ∧
    ((15 < 16) ∧ ((rg true 15 1).admits 0 (pageBase Blk.hif 0) = false)) ∧
    ((16 ≤ 23) ∧ (23 < 24) ∧ (cr2.ringMine (16 + 23) = true) ∧ (cr2.ringMine (32 + 23) = true) ∧ (fld (63 : Word) 0 16 < (cr2.ring (16 +
     23)).size) ∧ (fld (63 : Word) 0 16 < (cr2.ring (32 + 23)).size) ∧ (cr2.ringOn (16 + 23) = true)) ∧
    ((16 ≤ 23) ∧ (23 < 24) ∧ ((cr2.wr (ringCtrl 55) 1).ringMine (16 + 23) = true) ∧ ((cr2.wr (ringCtrl 55) 1).ringMine (32 + 23) = true) ∧
     (fld (63 : Word) 0 16 < ((cr2.wr (ringCtrl 55) 1).ring (16 + 23)).size) ∧ (fld (63 : Word) 0 16 < ((cr2.wr (ringCtrl 55) 1).ring (32 +
     23)).size) ∧ ((cr2.wr (ringCtrl 55) 1).ringOn (16 + 23) = true)) ∧
    ((16 ≤ 23) ∧ (23 < 24) ∧ ((cr2.wr (ringCtrl 55) 1).ringMine (16 + 23) = true) ∧ ((cr2.wr (ringCtrl 55) 1).ringMine (32 + 23) = true) ∧
     (fld (63 : Word) 0 16 < ((cr2.wr (ringCtrl 55) 1).ring (16 + 23)).size) ∧ (fld (63 : Word) 0 16 < ((cr2.wr (ringCtrl 55) 1).ring (32 +
     23)).size) ∧ ((cr2.wr (ringCtrl 55) 1).ringOn (32 + 23) = true)) ∧
    ((15 < 16) ∧ (tx31.txTurn 15 [15, 3] = true) ∧ (tx31.ringOn (16 + 15) = true) ∧ ([9, 20] ≠ []) ∧ ([9, 20].length ≤ 4) ∧ ([9, 20].length
     ≤ (tx31.ring (16 + 15)).owned) ∧ (0 < (tx31.ring (16 + 15)).size) ∧ (([9, 20].all fun l => decide (0 < l) && decide (l ≤ 9216)) = true)
     ∧ (max 60 (sumN [9, 20]) + 4 ≤ tx31.maxLen) ∧ (tx31.ringPort = some 20) ∧ (tx31.receives 20 = true)) ∧
    ((16 ≤ 23) ∧ (23 < 24) ∧ ((cr true 55 1).txTurn 23 [] = true) ∧ ((cr true 55 1).ringOn (32 + 23) = true) ∧ ([9, 20] ≠ []) ∧ ([9,
     20].length ≤ 4) ∧ ([9, 20].length ≤ ((cr true 55 1).ring (32 + 23)).owned) ∧ (0 < ((cr true 55 1).ring (32 + 23)).size) ∧ (([9, 20].all
     fun l => decide (0 < l) && decide (l ≤ 9216)) = true) ∧ (max 60 (sumN [9, 20]) + 4 ≤ (cr true 55 1).maxLen) ∧ ((cr true 55 1).receives
     23 = true)) ∧
    ((16 ≤ 23) ∧ (23 < 24) ∧ ((cr true 55 1).txTurn 23 [16] = true) ∧ ((cr true 55 1).ringOn (32 + 23) = true) ∧ ([9, 20] ≠ []) ∧ ([9,
     20].length ≤ 4) ∧ ([9, 20].length ≤ ((cr true 55 1).ring (32 + 23)).owned) ∧ (0 < ((cr true 55 1).ring (32 + 23)).size) ∧ (([9, 20].all
     fun l => decide (0 < l) && decide (l ≤ 9216)) = true) ∧ (max 60 (sumN [9, 20]) + 4 ≤ (cr true 55 1).maxLen) ∧ ((cr true 55 1).receives
     23 = true)) ∧
    ((15 < 24) ∧ (tx31.ringOn (ringNo true 15) = true) ∧ (5 ≤ [9, 20, 3, 4, 5].length) ∧ ([9, 20, 3, 4, 5].length ≤ (tx31.ring (ringNo true
     15)).owned) ∧ (0 < (tx31.ring (ringNo true 15)).size) ∧ (tx31.inj = [])) ∧
    ((23 < 24) ∧ ((cr true 55 1).ringOn (ringNo true 23) = true) ∧ (5 ≤ [9, 20, 3, 4, 5].length) ∧ ([9, 20, 3, 4, 5].length ≤ ((cr true 55
     1).ring (ringNo true 23)).owned) ∧ (0 < ((cr true 55 1).ring (ringNo true 23)).size) ∧ ((cr true 55 1).inj = [])) ∧
    ((15 < 16) ∧ ((rxr.rxf 15).recs = [rec1]) ∧ (rec1.committed = true) ∧ (rxr.ringOn 15 = true) ∧ ((rxr.ring 15).owned ≠ 0) ∧ (64 ≤ 64) ∧
     (bit rec1.w0 18 = false)) ∧
    ((16 ≤ 23) ∧ (23 < 24) ∧ ((rxc.rxf 23).recs = [rec1]) ∧ (rec1.committed = true) ∧ (rxc.ringOn (16 + 23) = true) ∧ ((rxc.ring (16 +
     23)).owned ≠ 0) ∧ (64 ≤ 64)) ∧
    ((15 < 24) ∧ ((rxr.rxf 15).recs = [rec1]) ∧ (rec1.committed = true) ∧ (rxr.ringOn (ringNo false 15) = true) ∧ ((rxr.ring (ringNo false
     15)).owned ≠ 0) ∧ (63 < 64)) ∧
    ((23 < 24) ∧ ((rxc.rxf 23).recs = [rec1]) ∧ (rec1.committed = true) ∧ (rxc.ringOn (ringNo false 23) = true) ∧ ((rxc.ring (ringNo false
     23)).owned ≠ 0) ∧ (63 < 64)) ∧
    ((15 < 16) ∧ (((rg true 15 1).ring (ringNo false 15)).unsig ≠ 0) ∧ (((rg true 15 1).ring (ringNo false 15)).vector < 64)) ∧
    ((15 < 16) ∧ (((rg true 31 1).ring (ringNo true 15)).unsig ≠ 0) ∧ (((rg true 31 1).ring (ringNo true 15)).vector < 64)) ∧
    ((16 ≤ 23) ∧ (23 < 24) ∧ (((cr true 55 1).ring (ringNo true 23)).unsig ≠ 0)) ∧
    ((16 ≤ 16) ∧ (16 < 24) ∧ (((cr true 32 1).ring (ringNo false 16)).unsig ≠ 0)) ∧
    ((255 < 256)) ∧
    ((254 < 256)) ∧
    ((4096 ≤ 6148) ∧ (6148 < 6152) ∧ (6148 % 4 = 0)) ∧
    ((4096 ≤ 4208) ∧ (4208 < 6152) ∧ (4208 % 4 = 0)) := by
  and_intros <;> decide +kernel

end W07b

/-! ### Witnesses of 07c -/

namespace W07c

def qs : State := up.wr Reg.HIF_CFG 0x100
def icfg : Nat := Reg.ICL_PORT_CFG 3
def qw (l : List Word) : List Byte := [0x02] ++ toBE 4 icfg ++ toBE 1 (l.length - 1) ++ bytesBE l
def mq : State := qs.wr (itemKey (icfg / 0x1000) Reg.GLB_PERM_DATA) 0x1F
def w07c_1 := ([0x02] ++ toBE 4 icfg ++ [0] ++ bytesBE [7])
def w07c_2 := ([0x0B] ++ toBE 4 icfg ++ [0])
def w07c_3 := ([0x5A] ++ toBE 4 (mq.wordAt 1 icfg).toNat ++ toBE 1 mq.hif.qspi.toNat)
def ibmS : State :=
  let s := ((opened.wr Reg.HIF_IBM_CFG 0x0903).wr (itemKey (icfg / 0x1000) Reg.GLB_PERM_DATA) 0x1F).wr (itemKey 0 Reg.GLB_PERM_DATA) 0x1F
  s.setKslot 9 { KeySlot.reset with main := ⟨BitVec.ofNat 64 (2 ^ 28 + 8 + 2 ^ 8 + 2 ^ 12) , [1]⟩ }

def ub (l : Nat) : State :=
  ({ up with mgs := { up.mgs with unborLevel := l, unborMinutes := 5 } }.wr (itemKey (icfg / 0x1000) Reg.GLB_PERM_DATA) 0x1F).wr (itemKey 0 Reg.GLB_PERM_DATA) 0x1F

/-- A request of a type with `n` data words, but for its TAG. -/
def ibmBody (typ n : Nat) : List Byte :=
  [5, 1] ++ toBE 1 typ ++ toBE 1 n ++ toBE 2 (opened.node) ++ toBE 8 9 ++ toBE 4 icfg ++ [0, 0] ++ List.replicate (4 * n) 3

/-- The TAG that the key gives the request. -/
def ibmTagOf (typ n : Nat) : List Byte := ((ibmS.ibmTag false opened.node 9 (ibmBody typ n)).1.getD [])

/-- The request with its TAG. -/
def ibmMsg (typ n : Nat) : List Byte := ibmBody typ n ++ ibmTagOf typ n

theorem ibm_accepted (typ n : Nat)
    (ht : ((ibmBody typ n).length = 20 + 4 * n ∧ (ibmTagOf typ n).length = 16) ∧
      (ibmS.ibmTag false opened.node 9 (ibmBody typ n)).1.isSome = true)
    (hm : beAt (ibmMsg typ n) 4 2 = opened.node ∧ beAt (ibmMsg typ n) 6 8 = 9 ∧ beAt (ibmMsg typ n) 3 1 = n)
    (hh : ibmS.mgsUp = true ∧ ibmS.rb Reg.HIF_IBM_CFG 0 = true ∧ beAt (ibmMsg typ n) 0 1 = 5 ∧ beAt (ibmMsg typ n) 1 1 = 1 ∧
      beAt (ibmMsg typ n) 2 1 = typ ∧ opened.node % 512 = ibmS.node ∧ n ≤ 16 ∧ ibmS.hif.ibmSeq < 9) :
    ibmS.ibmAccepts typ (ibmMsg typ n) := by
  obtain ⟨⟨hb, hl⟩, hs⟩ := ht
  obtain ⟨h1, h2, h3⟩ := hm
  obtain ⟨a1, a2, a3, a4, a5, a6, a7, a8⟩ := hh
  refine ⟨a1, a2, a3, a4, a5, by rw [h1]; exact a6, by rw [h3]; exact a7, ?_, by rw [h2]; exact a8, ?_⟩
  · rw [h3]; simp only [ibmMsg, List.length_append, hb, hl]; omega
  · rw [h1, h2, h3]
    have e1 : (ibmMsg typ n).take (20 + 4 * n) = ibmBody typ n := by rw [ibmMsg, ← hb, List.take_left]
    have e2 : (ibmMsg typ n).drop (20 + 4 * n) = ibmTagOf typ n := by rw [ibmMsg, ← hb, List.drop_left]
    rw [e1, e2, ← hl, List.take_length]
    obtain ⟨x, hx⟩ := Option.isSome_iff_exists.mp hs
    simp only [ibmTagOf, hx, Option.getD_some]

/-- The hypotheses of `Obligations.QspiTransactionsServed` hold together, clause by clause. -/
theorem hyps_QspiTransactionsServed :
    ((mq.qspiOn = true) ∧ (icfg < 2 ^ 32) ∧ (1 ≤ [7, 8].length) ∧ ([7, 8].length ≤ 64) ∧ (qw [7, 8] = [2] ++ toBE 4 icfg ++ toBE 1 ([7,
     8].length - 1) ++ bytesBE [7, 8])) ∧
    ((mq.qspiOn = true) ∧ (mq.inj = []) ∧ (icfg < 2 ^ 32) ∧ (plainReg icfg = true) ∧ (mq.admits 1 icfg = true) ∧ (w07c_1 = [2] ++ toBE 4
     icfg ++ [0] ++ bytesBE [7])) ∧
    ((mq.qspiOn = true) ∧ (mq.inj = []) ∧ (icfg < 2 ^ 32) ∧ (1 ≤ [7, 8].length) ∧ ([7, 8].length ≤ 64) ∧ (qw [7, 8] = [2] ++ toBE 4 icfg ++
     toBE 1 ([7, 8].length - 1) ++ bytesBE [7, 8]) ∧ (5 < 65536) ∧ (5 ≠ crc16 (qw [7, 8]))) ∧
    ((mq.qspiOn = true) ∧ (icfg < 2 ^ 32) ∧ (mq.plainRead 1 icfg) ∧ (w07c_2 = [11] ++ toBE 4 icfg ++ [0]) ∧ (w07c_3 = [90] ++ toBE 4
     (BitVec.toNat (mq.wordAt 1 icfg)) ++ toBE 1 mq.hif.qspi.toNat)) ∧
    ((mq.qspiOn = true)) := by
  and_intros <;> decide +kernel

/-- The hypotheses of `Obligations.InBandRequestsAuthenticated` hold together, clause by clause. -/
theorem hyps_InBandRequestsAuthenticated :
    ((up.mgsUp = true) ∧ (up.inj = []) ∧ (beAt (ibmMsg 1 1) 0 1 = 5) ∧ (beAt (ibmMsg 1 1) 2 1 = 1) ∧ (up.rb Reg.HIF_IBM_CFG 0 = false)) := by
  and_intros <;> decide +kernel

/-- The hypotheses of a clause of `Obligations.InBandRequestsAuthenticated` hold together. -/
theorem hyps_InBandRequestsAuthenticated_1 :
    (ibmS.ibmAccepts (1 : Nat) (ibmMsg (1 : Nat) (1 : Nat))) ∧ (beAt (ibmMsg (1 : Nat) (1 : Nat)) (3 : Nat) (1 : Nat) = (1 : Nat)) ∧
     (ibmS.plainRead ibmS.ibmMaster (beAt (ibmMsg (1 : Nat) (1 : Nat)) (14 : Nat) (4 : Nat))) :=
  ⟨ibm_accepted 1 1 (by decide +kernel) (by decide +kernel) (by decide +kernel), by decide +kernel⟩

/-- The hypotheses of a clause of `Obligations.InBandRequestsAuthenticated` hold together. -/
theorem hyps_InBandRequestsAuthenticated_2 :
    (ibmS.ibmAccepts (2 : Nat) (ibmMsg (2 : Nat) (1 : Nat))) ∧ (beAt (ibmMsg (2 : Nat) (1 : Nat)) (3 : Nat) (1 : Nat) = (1 : Nat)) ∧
     (plainReg (beAt (ibmMsg (2 : Nat) (1 : Nat)) (14 : Nat) (4 : Nat)) = true) ∧ (ibmS.admits ibmS.ibmMaster (beAt (ibmMsg (2 : Nat) (1 :
     Nat)) (14 : Nat) (4 : Nat)) = true) :=
  ⟨ibm_accepted 2 1 (by decide +kernel) (by decide +kernel) (by decide +kernel), by decide +kernel⟩

/-- The hypotheses of a clause of `Obligations.InBandRequestsAuthenticated` hold together. -/
theorem hyps_InBandRequestsAuthenticated_3 :
    (ibmS.ibmAccepts (3 : Nat) (ibmMsg (3 : Nat) (0 : Nat))) ∧ (beAt (ibmMsg (3 : Nat) (0 : Nat)) (3 : Nat) (1 : Nat) = (0 : Nat)) ∧
     (ibmS.admits ibmS.ibmMaster Reg.GLB_FENCE_REQ = true) :=
  ⟨ibm_accepted 3 0 (by decide +kernel) (by decide +kernel) (by decide +kernel), by decide +kernel⟩

/-- The hypotheses of `Obligations.UnborMonitorServesByLevel` hold together, clause by clause. -/
theorem hyps_UnborMonitorServesByLevel :
    ((up.mgsUp = true)) ∧
    ((up.mgsUp = true)) ∧
    ((up.mgsUp = true) ∧ (up.mgs.unborLevel = 0)) ∧
    (((ub 1).mgsUp = true) ∧ (1 ≤ (ub 1).mgs.unborLevel)) ∧
    (((ub 1).mgsUp = true) ∧ (1 ≤ (ub 1).mgs.unborLevel) ∧ ((ub 1).plainRead 4 icfg)) ∧
    (((ub 2).mgsUp = true) ∧ ((ub 2).mgs.unborLevel = 2) ∧ ((ub 2).inj = []) ∧ (plainReg icfg = true) ∧ ((ub 2).admits 4 icfg = true)) ∧
    (((ub 1).mgsUp = true) ∧ (1 ≤ (ub 1).mgs.unborLevel) ∧ (((ub 1).mgs.gen ++ (ub 1).mgs.sec).length < 1)) ∧
    (((ub 1).mgsUp = true) ∧ (1 ≤ (ub 1).mgs.unborLevel)) ∧
    (((ub 2).mgsUp = true) ∧ ((ub 2).mgs.unborLevel = 2) ∧ ((ub 2).admits 4 Reg.GLB_FENCE_REQ = true)) ∧
    (((ub 0).mgsUp = true) ∧ ((ub 0).mgs.unborLevel = 0) ∧ ((ub 0).inj = [])) := by
  and_intros <;> decide +kernel

end W07c

/-! ### Witnesses of 08a -/

namespace W08a

def fr0 : Frame := ⟨3, false, [], 7, none, ⟨16, 2, none, none, none, none, false, false, 0, 63, false⟩, 0, 0, [5], 0, [], false, false, 0,
  false, none, true,
  none, none, false, none, none⟩
def cf (fmt id : Nat) : List Byte := busMk 0x100 (wd id) 0 (wd (fmt * 0x10000 + 2 + 0x2000)) [7, 9]
def cn (x : CanSt) : State := { up with frcNs := 0x900 }.setCch 23 x
def ca : CanSt := { CanSt.reset with estate := 2, rec_ := 5 }
def cnf : State := (((cn ca).wr (Reg.CAN_L1_CFG 23) 0x10000000))
def cce : State := let s := cn { ca with rec_ := 0 };
  { s with auth := { s.auth with cau := [(4, { CauEnt.free with state := 1, w0 := 46, w1 := 0x123 })] } }
def cwt : State := { cnf with auth := { cnf.auth with waiting := [(23, cf 0 0x123, 0x100)] } }
def w08a_1 := (cn { ca with rxq := [[1], [2]] })
def w08a_2 := (cnf.wr (Reg.CAN_L0_STAT 23 3) 1)
def cl0 (cfg : Word) (st : Word) (x : CanSt) : State := ((((cn x).wr (Reg.CAN_L0_CFG 23 3) cfg).wr (Reg.CAN_L0_ID 23 3) 0x123).wr
  (Reg.CAN_L0_STAT 23 3) st).wr (Reg.CAN_L1_CFG 23) 0x10000000
def w08a_3 := (cl0 0 0 { ca with rxq := List.replicate 32 [1] })
def cfr : Frame := { fr0 with bus := true, bytes := cf 0 0x123, copies := [⟨50, 0, 231, false, .queued, 0, none⟩], state := 1 }
def ccl (fmt : Nat) : State := ((cn ca).setFrame 4 (some { cfr with bytes := cf fmt 0x123 })).setQueue 231 [(4, 0), (9, 9)]
def w08a_4 := { cfr with bytes := cf 3 0x123 }
def ti (id since : Nat) : TxlItem := ⟨4, 0, cf 0 id, since, 1⟩
def ctl (w : Option TxlItem) (e : Nat) : State := cn { ca with txl := [ti 3 9, ti 2 8, ti 2 7, ti 5 1], wire := w, estate := e, tec := 9 }
def w08a_5 := ((ctl (some (ti 1 1)) 2).wr (Reg.CAN_MODE 23) 8)
def w08a_6 := ({ctl none 2 with frcNs := 1000008}.wr (Reg.CAN_TXL_CFG 23) 1)
def w08a_7 := (cn { ca with estate := 1, tec := 200 })
def w08a_8 := (cn { ca with estate := 4, counting := true, occ := 126 })
def w08a_9 := (cn { ca with estate := 4, counting := true, occ := 127, tec := 300 })
def w08a_10 := (cn { ca with estate := 4, tec := 300 })
def w08a_11 := ((cn { ca with estate := 4, tec := 300 }).wr (Reg.CAN_MODE 23) 0x10)
def w08a_12 := ((ctl none 2).wr (Reg.CAN_MODE 23) 4)
def w08a_13 := ((cn { ca with wire := some (ti 1 1), estate := 3, tec := 248, txl := [ti 5 1] }).wr (Reg.CAN_MODE 23) 0x24)
def ln (x : LinSt) (cmd : Bool) : State := (((((up.wf (Reg.LIN_CFG 7) 0 1 (b2n cmd)).wr (Reg.LIN_FRAME 7 63) 0x109).wr (Reg.LIN_FRAME 7 62)
  0x30A).wr (Reg.LIN_TABLE 7 3) 0x123F).wr (Reg.LIN_SCHED_LO 7 0) 0x00643F01).setLch 7 x
def lr : LinSt := { LinSt.reset with state := 1, table := 3, next := 1 }
def w08a_14 := (ln { lr with slot := .expect 63 false } true)
def w08a_15 := (ln { lr with slot := .expect 63 true } true)
def w08a_16 := (ln { lr with slot := .send 63 } true)
def lcl : State := (((ln lr true).wr (Reg.LIN_FRAME 7 62) 0x12).setFrame 4 (some { cfr with bytes := cf 3 62 })).setQueue 239 [(4, 0), (9,
  9)]
def w08a_17 := { cfr with bytes := cf 3 62 }
def w08a_18 := (ln { lr with sleepDue := true } true)
def w08a_19 := (ln { lr with state := 2 } false)
def w08a_20 := (ln { lr with pulses := 2 } false)

/-- The hypotheses of `Obligations.CanFramesAreReceivedAndFiltered` hold together, clause by clause. -/
theorem hyps_CanFramesAreReceivedAndFiltered :
    ((23 < 24) ∧ (cnf.pwr.fwdOn = true) ∧ (cnf.pwr.canPath = true) ∧ ((cnf.cch 23).estate = 2) ∧ ((cnf.cch 23).tec ≤ 127) ∧ (1 ≤ (cnf.cch
     23).rec_) ∧ ((cnf.cch 23).rec_ ≤ 127) ∧ (cnf.canHeld 23 = false) ∧ (cnf.cauFind false 23 (cnf.canSeen 23 (cf 0 291)) = none) ∧ (∀ (k :
     Nat), k < 4 → cnf.l0Match 23 k (cnf.canSeen 23 (cf 0 291)) = false) ∧ (cnf.l1Accept 23 (cnf.canSeen 23 (cf 0 291)) = true) ∧ ((cnf.cch
     23).rxq.length < 32)) ∧
    ((23 < 24) ∧ (cce.pwr.fwdOn = true) ∧ (cce.pwr.canPath = true) ∧ ((cce.cch 23).estate = 2) ∧ ((cce.cch 23).rec_ = 0) ∧ ((cce.cauFind
     false 23 (cce.canSeen 23 (cf 0 291))).isSome = true) ∧ (cce.canShadow 23 = false)) ∧
    (((cn CanSt.reset).inj = []) ∧ (((cn CanSt.reset).cch 23).onBus = false)) ∧
    ((cwt.auth.waiting = [(23, cf 0 291, 256)])) ∧
    ((23 < 24) ∧ (w08a_1.admits 3 (Reg.CAN_CMD 23) = true)) ∧
    (((23 : Nat) < (24 : Nat)) ∧ ((3 : Nat) < (4 : Nat)) ∧ (w08a_2.admits (3 : Nat) (Reg.CAN_L0_STAT (23 : Nat) (3 : Nat)) = true) ∧ (bit (1
     : BitVec (32 : Nat)) (0 : Nat) = true)) ∧
    (((23 : Nat) < (24 : Nat)) ∧ ((3 : Nat) < (4 : Nat)) ∧ (w08a_2.admits (3 : Nat) (Reg.CAN_L0_STAT (23 : Nat) (3 : Nat)) = true) ∧ (bit (2
     : BitVec (32 : Nat)) (0 : Nat) = false)) ∧
    ((23 < 24) ∧ (3 < 4) ∧ ((cl0 5 0 ca).l0Match 23 3 (cf 0 291) = true) ∧ (∀ (j : Nat), j < 3 → (cl0 5 0 ca).l0Match 23 j (cf 0 291) =
     false) ∧ ((cl0 5 0 ca).rb (Reg.CAN_L0_CFG 23 3) 6 = false) ∧ ((cl0 5 0 ca).rb (Reg.CAN_L0_STAT 23 3) 0 = false)) ∧
    ((23 < 24) ∧ (3 < 4) ∧ ((cl0 5 1 ca).l0Match 23 3 (cf 0 291) = true) ∧ (∀ (j : Nat), j < 3 → (cl0 5 1 ca).l0Match 23 j (cf 0 291) =
     false) ∧ ((cl0 5 1 ca).rb (Reg.CAN_L0_CFG 23 3) 6 = false) ∧ ((cl0 5 1 ca).rb (Reg.CAN_L0_STAT 23 3) 0 = true)) ∧
    ((23 < 24) ∧ (3 < 4) ∧ ((cl0 69 1 ca).l0Match 23 3 (cf 0 291) = true) ∧ (∀ (j : Nat), j < 3 → (cl0 69 1 ca).l0Match 23 j (cf 0 291) =
     false) ∧ ((cl0 69 1 ca).rb (Reg.CAN_L0_CFG 23 3) 6 = true) ∧ ((cl0 69 1 ca).l1Accept 23 (cf 0 291) = true) ∧ (((cl0 69 1 ca).cch
     23).rxq.length < 32)) ∧
    ((23 < 24) ∧ (∀ (k : Nat), k < 4 → (cn ca).l0Match 23 k (cf 0 291) = false) ∧ ((cn ca).l1Accept 23 (cf 0 291) = false)) ∧
    ((23 < 24) ∧ (∀ (k : Nat), k < 4 → w08a_3.l0Match 23 k (cf 0 291) = false) ∧ (w08a_3.l1Accept 23 (cf 0 291) = true) ∧ (32 ≤ (w08a_3.cch
     23).rxq.length)) := by
  and_intros <;> decide +kernel

/-- The hypotheses of `Obligations.CanTransmitListSends` hold together, clause by clause. -/
theorem hyps_CanTransmitListSends :
    ((23 < 24) ∧ ((ccl 0).queue (208 + 23) = [(4, 0), (9, 9)]) ∧ ((ccl 0).copyAt 4 0 = some (cfr,
     { dest := 50, tc := 0, q := 231, ct := false, st := CopySt.queued, ring := 0, eddy := none : Copy })) ∧ (cfr.bus = true) ∧ (busAuth
     cfr.bytes ≠ 2) ∧ ((ccl 0).cauFind true 23 cfr.bytes = none) ∧ ((ccl 0).rb Reg.TWN_BUS_MASK 23 = false) ∧ ((ccl 0).canTxForm 23
     cfr.bytes = false) ∧ (((ccl 0).cch 23).listen = false) ∧ (((ccl 0).cch 23).level < 64)) ∧
    ((23 < 24) ∧ ((ccl 3).queue (208 + 23) = [(4, 0), (9, 9)]) ∧ ((ccl 3).copyAt 4 0 = some (w08a_4,
     { dest := 50, tc := 0, q := 231, ct := false, st := CopySt.queued, ring := 0, eddy := none : Copy })) ∧ (w08a_4.bus = true) ∧ (busAuth
     w08a_4.bytes ≠ 2) ∧ ((ccl 3).cauFind true 23 w08a_4.bytes = none) ∧ ((ccl 3).rb Reg.TWN_BUS_MASK 23 = false) ∧ ((ccl 3).canTxForm 23
     w08a_4.bytes = true)) ∧
    (((ctl none 2).canSends 23) ∧ (((ctl none 2).cch 23).wire = none) ∧ (∀ (j : TxlItem), j ∈ ((ctl none 2).cch 23).txl → (ctl none
     2).txlOld 23 j = false) ∧ (((ctl none 2).cch 23).txl ≠ [])) ∧
    ((23 < 24) ∧ (((ctl (some (ti 1 1)) 2).cch 23).wire = some (ti 1 1)) ∧ (((ctl (some (ti 1 1)) 2).cch 23).estate = 2) ∧ (((ctl (some (ti
     1 1)) 2).cch 23).tec ≤ 128) ∧ (((ctl (some (ti 1 1)) 2).cch 23).rec_ ≤ 127) ∧ (((ctl (some (ti 1 1)) 2).cch 23).stopping = false)) ∧
    ((23 < 24) ∧ (((ctl (some (ti 1 1)) 2).cch 23).wire = some (ti 1 1)) ∧ (((ctl (some (ti 1 1)) 2).cch 23).estate = 2) ∧ (((ctl (some (ti
     1 1)) 2).cch 23).tec ≤ 119) ∧ (((ctl (some (ti 1 1)) 2).cch 23).rec_ ≤ 127) ∧ (((ctl (some (ti 1 1)) 2).cch 23).stopping = false) ∧ (2
     ≤ 5) ∧ (5 ≤ 5) ∧ ((ctl (some (ti 1 1)) 2).rb (Reg.CAN_MODE 23) 3 = false) ∧ ((ctl (some (ti 1 1)) 2).rf (Reg.CAN_MODE 23) 8 4 = 0)) ∧
    ((23 < 24) ∧ ((w08a_5.cch 23).wire = some (ti 1 1)) ∧ ((w08a_5.cch 23).estate = 2) ∧ ((w08a_5.cch 23).tec ≤ 119) ∧ ((w08a_5.cch 23).rec_
     ≤ 127) ∧ ((w08a_5.cch 23).stopping = false) ∧ (w08a_5.rb (Reg.CAN_MODE 23) 3 = true)) ∧
    ((23 < 24) ∧ (((ctl (some (ti 1 1)) 2).cch 23).wire = some (ti 1 1)) ∧ (((ctl (some (ti 1 1)) 2).cch 23).stopping = false)) ∧
    ((23 < 24)) ∧
    ((23 < 24) ∧ ((ctl (some (ti 1 1)) 4).admits 3 (Reg.CAN_CMD 23) = true)) := by
  and_intros <;> decide +kernel

/-- The hypotheses of `Obligations.CanErrorConfinement` hold together, clause by clause. -/
theorem hyps_CanErrorConfinement :
    ((23 < 24) ∧ (((ctl none 2).cch 23).estate = 2) ∧ (1 ≤ 5) ∧ (5 ≤ 5) ∧ (536870911 < 2 ^ 29) ∧ (((ctl none 2).cch 23).tec ≤ 127) ∧ (((ctl
     none 2).cch 23).rec_ + 8 ≤ 127) ∧ ((ctl none 2).canHeld 23 = false)) ∧
    ((23 < 24) ∧ (((ctl none 2).cch 23).estate = 2) ∧ (127 < ((ctl none 2).cch 23).rec_ + 123) ∧ ((ctl none 2).canHeld 23 = false)) ∧
    ((((ctl none 1).cch 23).estate = 1)) ∧
    (((w08a_7.cch 23).estate = 1)) ∧
    (((w08a_8.cch 23).estate = 4) ∧ ((w08a_8.cch 23).counting = true) ∧ ((w08a_8.cch 23).occ < 127)) ∧
    ((23 < 24) ∧ ((w08a_9.cch 23).estate = 4) ∧ ((w08a_9.cch 23).counting = true) ∧ ((w08a_9.cch 23).occ = 127)) ∧
    ((23 < 24) ∧ (((ctl none 3).cch 23).onBus = true) ∧ ((ctl none 3).rb (Reg.CAN_MODE 23) 4 = true) ∧ (((ctl none 3).cch 23).wire = none)) ∧
    (((w08a_11.cch 23).delay = false)) ∧
    ((23 < 24) ∧ (w08a_10.admits 3 (Reg.CAN_CMD 23) = true) ∧ ((w08a_10.cch 23).estate = 4) ∧ ((w08a_10.cch 23).counting = false)) ∧
    (((23 : Nat) < (24 : Nat)) ∧ ((ctl none (2 : Nat)).admits (3 : Nat) (Reg.CAN_MODE (23 : Nat)) = true) ∧ (((ctl none (2 : Nat)).cch (23 :
     Nat)).estate ≠ (0 : Nat)) ∧ (((ctl none (2 : Nat)).cch (23 : Nat)).estate ≠ (4 : Nat)) ∧ (fld (4294967294 : BitVec (32 : Nat)) (0 :
     Nat) (2 : Nat) ≠ (ctl none (2 : Nat)).rf (Reg.CAN_MODE (23 : Nat)) (0 : Nat) (2 : Nat))) ∧
    (((23 : Nat) < (24 : Nat)) ∧ ((ctl none (2 : Nat)).admits (3 : Nat) (Reg.CAN_MODE (23 : Nat)) = true) ∧ (((ctl none (2 : Nat)).cch (23 :
     Nat)).estate ≠ (0 : Nat)) ∧ (((ctl none (2 : Nat)).cch (23 : Nat)).estate ≠ (4 : Nat)) ∧ (fld (4294967295 : BitVec (32 : Nat)) (0 :
     Nat) (2 : Nat) ≠ (ctl none (2 : Nat)).rf (Reg.CAN_MODE (23 : Nat)) (0 : Nat) (2 : Nat))) ∧
    (((23 : Nat) < (24 : Nat)) ∧ ((ctl none (0 : Nat)).admits (3 : Nat) (Reg.CAN_MODE (23 : Nat)) = true) ∧ (((ctl none (0 : Nat)).cch (23 :
     Nat)).estate = (0 : Nat) ∨ ((ctl none (0 : Nat)).cch (23 : Nat)).estate = (4 : Nat) ∧ fld (4294967295 : BitVec (32 : Nat)) (0 : Nat) (2
     : Nat) = (ctl none (0 : Nat)).rf (Reg.CAN_MODE (23 : Nat)) (0 : Nat) (2 : Nat))) ∧
    (((23 : Nat) < (24 : Nat)) ∧ ((ctl none (4 : Nat)).admits (3 : Nat) (Reg.CAN_MODE (23 : Nat)) = true) ∧ (((ctl none (4 : Nat)).cch (23 :
     Nat)).estate = (0 : Nat) ∨ ((ctl none (4 : Nat)).cch (23 : Nat)).estate = (4 : Nat) ∧ fld (4294967292 : BitVec (32 : Nat)) (0 : Nat) (2
     : Nat) = (ctl none (4 : Nat)).rf (Reg.CAN_MODE (23 : Nat)) (0 : Nat) (2 : Nat))) ∧
    ((23 < 24)) ∧
    ((23 < 24) ∧ ((w08a_13.cch 23).wire = some (ti 1 1)) ∧ ((w08a_13.cch 23).estate = 3) ∧ (247 < (w08a_13.cch 23).tec) ∧ ((w08a_13.cch
     23).stopping = false)) := by
  and_intros <;> decide +kernel

/-- The hypotheses of `Obligations.LinChannelsFollowTheirTables` hold together, clause by clause. -/
theorem hyps_LinChannelsFollowTheirTables :
    ((7 < 8) ∧ ((w08a_14.lch 7).state = 1) ∧ (w08a_14.pwr.fwdOn = true) ∧ ((w08a_14.lch 7).slot = LinSlot.expect 63 false)) ∧
    ((7 < 8) ∧ ((w08a_14.lch 7).state = 1) ∧ (w08a_14.pwr.fwdOn = true) ∧ ((w08a_14.lch 7).slot = LinSlot.expect 63 false) ∧ (1 = 1 ∨ 1 = 2)
     ∧ (w08a_14.inj = [])) ∧
    ((7 < 8) ∧ ((w08a_14.lch 7).state = 1) ∧ (w08a_14.pwr.fwdOn = true) ∧ ((w08a_14.lch 7).slot = LinSlot.expect 63 false) ∧ (2 = 1 ∨ 2 = 2)
     ∧ (w08a_14.inj = [])) ∧
    ((7 < 8) ∧ ((w08a_15.lch 7).state = 1) ∧ (w08a_15.pwr.fwdOn = true) ∧ (w08a_15.linCommander 7 = true) ∧ (w08a_15.linShadow 7 = false) ∧
     ((w08a_15.lch 7).slot ≠ LinSlot.none) ∧ (w08a_15.inj = [])) ∧
    ((7 < 8) ∧ ((w08a_16.lch 7).state = 1) ∧ (w08a_16.pwr.fwdOn = true) ∧ (w08a_16.linCommander 7 = true) ∧ (w08a_16.linShadow 7 = false) ∧
     ((w08a_16.lch 7).slot ≠ LinSlot.none) ∧ (w08a_16.inj = [])) ∧
    ((7 < 8) ∧ ((w08a_15.lch 7).slot = LinSlot.expect 63 true)) ∧
    ((7 < 8) ∧ (lcl.queue (232 + 7) = [(4, 0), (9, 9)]) ∧ (lcl.copyAt 4 0 = some (w08a_17,
     { dest := 50, tc := 0, q := 231, ct := false, st := CopySt.queued, ring := 0, eddy := none : Copy })) ∧ (w08a_17.bus = true) ∧ (busFmt
     w08a_17.bytes = 3) ∧ (busId w08a_17.bytes < 64) ∧ (lcl.linDir 7 (busId w08a_17.bytes) = 2) ∧ (lcl.rb Reg.TWN_LIN_MASK 7 = false)) ∧
    ((7 < 8) ∧ (62 < 64) ∧ (((ln lr false).lch 7).state = 1) ∧ ((ln lr false).linCommander 7 = false) ∧ ((ln lr false).pwr.fwdOn = true) ∧
     ((ln lr false).linDir 7 62 = 2) ∧ ((ln lr false).linValid 7 62 = true) ∧ ((ln lr false).linShadow 7 = false)) ∧
    ((7 < 8) ∧ (62 < 64) ∧ (((ln lr false).lch 7).state = 1) ∧ ((ln lr false).linCommander 7 = false) ∧ ((ln lr false).pwr.fwdOn = true) ∧
     (62 + 0 * 64 ≠ linPid 62)) ∧
    ((7 < 8) ∧ (((ln lr false).lch 7).state = 1) ∧ ((ln lr false).linCommander 7 = false) ∧ ((ln lr false).pwr.fwdOn = true)) ∧
    ((7 < 8) ∧ (((ln lr true).lch 7).state = 1) ∧ ((ln lr true).linCommander 7 = true) ∧ ((ln lr true).pwr.fwdOn = true) ∧ ((ln lr
     true).linShadow 7 = false) ∧ (((ln lr true).lch 7).sleepDue = false) ∧ (((ln lr true).lch 7).collDue = none) ∧ (((ln lr true).lch
     7).inColl = false) ∧ (((ln lr true).lch 7).switch = false) ∧ (((ln lr true).lch 7).next < (ln lr true).linCount 7 ((ln lr true).lch
     7).table) ∧ (0 = ((ln lr true).linStart 7 ((ln lr true).lch 7).table + ((ln lr true).lch 7).next) % 64) ∧ ((ln lr true).rf
     (Reg.LIN_SCHED_LO 7 0) 0 3 = 1) ∧ ((ln lr true).linDir 7 ((ln lr true).rf (Reg.LIN_SCHED_LO 7 0) 8 6) = 1)) ∧
    ((7 < 8) ∧ ((w08a_18.lch 7).state = 1) ∧ (w08a_18.linCommander 7 = true) ∧ (w08a_18.pwr.fwdOn = true) ∧ ((w08a_18.lch 7).sleepDue =
     true)) ∧
    ((7 < 8) ∧ (w08a_18.admits 3 (Reg.LIN_CMD 7) = true) ∧ ((w08a_18.lch 7).state ≠ 0) ∧ (w08a_18.linCommander 7 = true)) ∧
    ((7 < 8) ∧ ((ln lr true).admits 3 (Reg.LIN_CMD 7) = true) ∧ (((ln lr true).lch 7).state = 1) ∧ ((ln lr true).linCommander 7 = true) ∧
     ((ln lr true).linShadow 7 = false)) ∧
    ((7 < 8) ∧ (w08a_19.admits 3 (Reg.LIN_CMD 7) = true) ∧ ((w08a_19.lch 7).state = 2) ∧ (w08a_19.linShadow 7 = false)) ∧
    ((7 < 8) ∧ (((ln lr false).lch 7).state = 1) ∧ ((ln lr false).linCommander 7 = false)) ∧
    ((7 < 8) ∧ (((ln lr false).lch 7).state = 1) ∧ ((ln lr false).linCommander 7 = false)) ∧
    ((7 < 8) ∧ ((w08a_19.lch 7).state = 2)) ∧
    ((7 < 8) ∧ ((w08a_20.lch 7).state = 1) ∧ (w08a_20.linCommander 7 = false) ∧ (1 ≤ (w08a_20.lch 7).pulses) ∧ ((w08a_20.lch 7).pulses < 3)
     ∧ (w08a_20.linShadow 7 = false)) := by
  and_intros <;> decide +kernel

end W08a

/-! ### Witnesses of 09 -/

namespace W09

def fr0 : Frame := ⟨3, false, [], 7, none, ⟨16, 2, none, none, none, none, false, false, 0, 63, false⟩, 0, 0, [5], 0, [], false, false, 0,
  false, none, true,
  none, none, false, none, none⟩
def cfu : State := { up.wr (Reg.BLK_CTRL (pageBase .cfl 0)) 1 with frcNs := 5000000 }
def ccp : Copy := ⟨24, 2, 194, false, .sending, 0, none⟩
def cfTx : Tx := ⟨4, 0, true, [], 2, 0⟩
def crx : Frame := { fr0 with state := 1, copies := [ccp], route := { fr0.route with pdu := some 5 } }
def cfx : State := let s := cfu.setFrame 4 (some crx); s.setEg 24 { s.eg 24 with tx := some cfTx }
def pe (i : Nat) (e : BitVec 512) : State := { cfu with tbl := [(4 * 65536 + i, e)] }
def rxe : BitVec 512 := BitVec.ofNat 512 (3 + 10 * 2 ^ 16)
def w09_1 := { pe 5 rxe with frcNs := 500000000 }
def txe : BitVec 512 := BitVec.ofNat 512 (1 + 4 + 8 * 2 ^ 80 + 2 ^ 112 * 2 + 2 ^ 152)
def w09_2 := ((pe 5 txe).setTxp 5 { TxPdu.reset with deferred := some (7, 9) })
def tune : BitVec 512 := BitVec.ofNat 512 (1 + 6)
def w09_3 := ((pe 5 tune).setTun 5 ⟨255, [[1, 2], [3]], 5⟩)
def itm : State := { cfu with cfl := { cfu.cfl with item := some (5, [⟨true, 7, List.replicate 18 1⟩, ⟨false, 0, [2]⟩]) } }
def sg (act : Nat) : BitVec 512 := BitVec.ofNat 512 (1 + 4 * 4 + 7 * 2 ^ 16 + 2 ^ 22 + act * 2 ^ 23 + 0xFFFFFFF0 * 2 ^ 32 + 0x10 * 2 ^ 64 +
  0x77 * 2 ^ 96)
def w09_4 := (up.wr (Reg.BLK_CTRL (pageBase .ept 15)) 0)
def w09_5 := ((linkUp 15).wr (Reg.BLK_CTRL (pageBase .ept 15)) 1)
def w09_6 := (up.wr (Reg.CAN_NBT 23) 0)
def ti : TxlItem := ⟨4, 0, [], 5, 1⟩
def w09_7 := ((up.wr (Reg.BLK_CTRL (pageBase .can 23)) 1).setCch 23 { CanSt.reset with estate := 2, wire := some ti })
def w09_8 := ((up.wr (Reg.BLK_CTRL (pageBase .can 23)) 1).setCch 23 { CanSt.reset with estate := 4, tec := 9, txl := [ti] })
def w09_9 := ((up.wr (Reg.BLK_CTRL (pageBase .can 23)) 1).setCch 23 { CanSt.reset with estate := 3, tec := 9, txl := [ti] })
def w09_10 := (up.wf (Reg.LIN_CFG 7) 0 1 1)
def w09_11 := (((up.wf (Reg.LIN_CFG 7) 0 1 1).wr (Reg.LIN_TABLE 7 0) 0x123F).wr (Reg.LIN_SCHED_LO 7 0) 0x00013F01)
def w09_12 := (((up.wr (Reg.BLK_CTRL (pageBase .lin 7)) 1).wr (Reg.LIN_FRAME 7 62) 0x30A).setLch 7
  { LinSt.reset with state := 1, table := 3, next := 1 })
def w09_13 := (up.wr (Reg.BLK_CTRL (pageBase .cfl 0)) 0)

/-- The hypotheses of `Obligations.ConfluenceRunsWorkItems` hold together, clause by clause. -/
theorem hyps_ConfluenceRunsWorkItems :
    ((cfx.cflFree = true) ∧ ((cfx.eg 24).tx = some cfTx) ∧ (cfx.copyAt cfTx.fid cfTx.idx = some (crx, ccp)) ∧ (crx.state ≠ 0) ∧ (ccp.eddy =
     none) ∧ (crx.route.pdu = some 5)) ∧
    ((up.cflFree = false)) ∧
    ((w09_1.rxPending 5 = true) ∧ (w09_1.mayServeAt (w09_1.rxDueAt 5) = true)) ∧
    (((w09_2.txp 5).deferred = some (7, 9)) ∧ ((7, 9).fst ≤ w09_2.now) ∧ (w09_2.mayServeAt ↑(7, 9).fst = true) ∧ (isTxSig (w09_2.pduEnt 5) =
     true) ∧ (w09_2.pduStopped 5 = false)) ∧
    (((pe 5 txe).cycDue 5 = some (4, 2)) ∧ ((pe 5 txe).cflFree = true) ∧ ((pe 5 txe).copiesWait = false) ∧ ((pe 5 txe).arisen = []) ∧ ((pe 5
     txe).cycBefore 5 = false) ∧ ((pe 5 txe).pduStopped 5 = false)) ∧
    ((isTxSig ((pe 5 txe).pduEnt 5) = true) ∧ (pduMode ((pe 5 txe).pduEnt 5) ≠ 1) ∧ (fld ((pe 5 txe).pduEnt 5) 112 16 ≠ 0) ∧ ((pe 5
     txe).twn.state = 0) ∧ (fld ((pe 5 txe).pduEnt 5) 128 16 % fld ((pe 5 txe).pduEnt 5) 112 16 ≤ (pe 5 txe).now / 1000000) ∧ (4 = (pe 5
     txe).now / 1000000 - ((pe 5 txe).now / 1000000 + fld ((pe 5 txe).pduEnt 5) 112 16 - fld ((pe 5 txe).pduEnt 5) 128 16 % fld ((pe 5
     txe).pduEnt 5) 112 16) % fld ((pe 5 txe).pduEnt 5) 112 16) ∧ (((pe 5 txe).txp 5).cycle ≤ 4) ∧ ((pe 5 txe).cfl.enabledAt / 1000000 ≤ 4)
     ∧ (Tab.get (fun x => 0) (pe 5 txe).cfl.pduWritten 5 / 1000000 ≤ 4)) ∧
    ((w09_3.enabled Blk.cfl 0 = true) ∧ (w09_3.pwr.fwdOn = true) ∧ ((w09_3.tun 5).msgs ≠ [])) ∧
    ((itm.cfl.item = some (5, [{ bus := true, target := 7, bytes := List.replicate 18 1 : CflOut },
     { bus := false, target := 0, bytes := [2] : CflOut }]))) := by
  and_intros <;> decide +kernel

/-- The hypotheses of `Obligations.SignalsTakeAndPutTheirFields` hold together, clause by clause. -/
theorem hyps_SignalsTakeAndPutTheirFields :
    ((-11 = if sigSigned (sg 1) = true then sext (sigLen (sg 1)) (payField [80, 255] (sigStart (sg 1)) (sigLen (sg 1)) (sigBig (sg 1))) else
     ↑(payField [80, 255] (sigStart (sg 1)) (sigLen (sg 1)) (sigBig (sg 1)))) ∧ (fld (sg 1) 23 2 = 0 ∨ sigValue (sg 1) (fld (sg 1) 32 32) ≤
     -11 ∧ -11 ≤ sigValue (sg 1) (fld (sg 1) 64 32))) ∧
    ((21 = if sigSigned (sg 0) = true then sext (sigLen (sg 0)) (payField [80, 17] (sigStart (sg 0)) (sigLen (sg 0)) (sigBig (sg 0))) else
     ↑(payField [80, 17] (sigStart (sg 0)) (sigLen (sg 0)) (sigBig (sg 0)))) ∧ (fld (sg 0) 23 2 = 0 ∨ sigValue (sg 0) (fld (sg 0) 32 32) ≤
     21 ∧ 21 ≤ sigValue (sg 0) (fld (sg 0) 64 32))) ∧
    ((21 = if sigSigned (sg 1) = true then sext (sigLen (sg 1)) (payField [80, 17] (sigStart (sg 1)) (sigLen (sg 1)) (sigBig (sg 1))) else
     ↑(payField [80, 17] (sigStart (sg 1)) (sigLen (sg 1)) (sigBig (sg 1)))) ∧ (21 < sigValue (sg 1) (fld (sg 1) 32 32) ∨ sigValue (sg 1)
     (fld (sg 1) 64 32) < 21) ∧ (fld (sg 1) 23 2 = 1)) ∧
    ((21 = if sigSigned (sg 1) = true then sext (sigLen (sg 1)) (payField [80, 17] (sigStart (sg 1)) (sigLen (sg 1)) (sigBig (sg 1))) else
     ↑(payField [80, 17] (sigStart (sg 1)) (sigLen (sg 1)) (sigBig (sg 1)))) ∧ (21 < sigValue (sg 1) (fld (sg 1) 32 32) ∨ sigValue (sg 1)
     (fld (sg 1) 64 32) < 21) ∧ (fld (sg 1) 23 2 ≠ 0)) ∧
    ((21 = if sigSigned (sg 2) = true then sext (sigLen (sg 2)) (payField [80, 17] (sigStart (sg 2)) (sigLen (sg 2)) (sigBig (sg 2))) else
     ↑(payField [80, 17] (sigStart (sg 2)) (sigLen (sg 2)) (sigBig (sg 2)))) ∧ (21 < sigValue (sg 2) (fld (sg 2) 32 32) ∨ sigValue (sg 2)
     (fld (sg 2) 64 32) < 21) ∧ (fld (sg 2) 23 2 = 2)) ∧
    ((21 = if sigSigned (sg 2) = true then sext (sigLen (sg 2)) (payField [80, 17] (sigStart (sg 2)) (sigLen (sg 2)) (sigBig (sg 2))) else
     ↑(payField [80, 17] (sigStart (sg 2)) (sigLen (sg 2)) (sigBig (sg 2)))) ∧ (21 < sigValue (sg 2) (fld (sg 2) 32 32) ∨ sigValue (sg 2)
     (fld (sg 2) 64 32) < 21) ∧ (fld (sg 2) 23 2 ≠ 0)) ∧
    ((117 = if sigSigned (sg 2) = true then sext (sigLen (sg 2)) (payField [80, 247] (sigStart (sg 2)) (sigLen (sg 2)) (sigBig (sg 2))) else
     ↑(payField [80, 247] (sigStart (sg 2)) (sigLen (sg 2)) (sigBig (sg 2)))) ∧ (117 < sigValue (sg 2) (fld (sg 2) 32 32) ∨ sigValue (sg 2)
     (fld (sg 2) 64 32) < 117) ∧ (fld (sg 2) 23 2 = 2)) ∧
    ((117 = if sigSigned (sg 2) = true then sext (sigLen (sg 2)) (payField [80, 247] (sigStart (sg 2)) (sigLen (sg 2)) (sigBig (sg 2))) else
     ↑(payField [80, 247] (sigStart (sg 2)) (sigLen (sg 2)) (sigBig (sg 2)))) ∧ (117 < sigValue (sg 2) (fld (sg 2) 32 32) ∨ sigValue (sg 2)
     (fld (sg 2) 64 32) < 117) ∧ (fld (sg 2) 23 2 ≠ 0)) ∧
    ((21 = if sigSigned (sg 3) = true then sext (sigLen (sg 3)) (payField [80, 17] (sigStart (sg 3)) (sigLen (sg 3)) (sigBig (sg 3))) else
     ↑(payField [80, 17] (sigStart (sg 3)) (sigLen (sg 3)) (sigBig (sg 3)))) ∧ (21 < sigValue (sg 3) (fld (sg 3) 32 32) ∨ sigValue (sg 3)
     (fld (sg 3) 64 32) < 21) ∧ (fld (sg 3) 23 2 = 3)) ∧
    ((21 = if sigSigned (sg 3) = true then sext (sigLen (sg 3)) (payField [80, 17] (sigStart (sg 3)) (sigLen (sg 3)) (sigBig (sg 3))) else
     ↑(payField [80, 17] (sigStart (sg 3)) (sigLen (sg 3)) (sigBig (sg 3)))) ∧ (21 < sigValue (sg 3) (fld (sg 3) 32 32) ∨ sigValue (sg 3)
     (fld (sg 3) 64 32) < 21) ∧ (fld (sg 3) 23 2 ≠ 0)) ∧
    ((∀ (q : Nat × Nat), q ∈ bitWalk 5 19 false → q.snd / 8 < [1, 2, 3].length)) ∧
    ((∀ (q : Nat × Nat), q ∈ bitWalk 5 14 true → q.snd / 8 < [1, 2, 3].length)) := by
  and_intros <;> decide +kernel

/-- The hypotheses of `Obligations.BlocksStartAndStopAtTheirEnable` hold together, clause by clause. -/
theorem hyps_BlocksStartAndStopAtTheirEnable :
    (((15 : Nat) < (23 : Nat)) ∧ (w09_4.admits (3 : Nat) (Reg.BLK_CTRL (pageBase Blk.ept (15 : Nat))) = true) ∧ (bit (1 : BitVec (32 : Nat))
     (2 : Nat) = false) ∧ (bit (1 : BitVec (32 : Nat)) (0 : Nat) = true) ∧ (w09_4.rb (Reg.BLK_CTRL (pageBase Blk.ept (15 : Nat))) (0 : Nat)
     = false) ∧ ((w09_4.gate (pageBase Blk.ept (15 : Nat) / (4096 : Nat))).clkOn = true) ∧ (w09_4.dmaPort (15 : Nat) = false) ∧
     (w09_4.pwr.fwdOn = true) ∧ (w09_4.phyOn (15 : Nat) = true) ∧ (w09_4.lstate (15 : Nat) = (0 : Nat))) ∧
    (((15 : Nat) < (23 : Nat)) ∧ (w09_5.admits (3 : Nat) (Reg.BLK_CTRL (pageBase Blk.ept (15 : Nat))) = true) ∧ (bit (0 : BitVec (32 : Nat))
     (2 : Nat) = false) ∧ (bit (0 : BitVec (32 : Nat)) (0 : Nat) = false) ∧ (w09_5.enabled Blk.ept (15 : Nat) = true) ∧ (w09_5.lstate (15 :
     Nat) = (3 : Nat))) ∧
    (((23 : Nat) < (24 : Nat)) ∧ (up.admits (3 : Nat) (Reg.BLK_CTRL (pageBase Blk.can (23 : Nat))) = true) ∧ (bit (1 : BitVec (32 : Nat)) (2
     : Nat) = false) ∧ (bit (1 : BitVec (32 : Nat)) (0 : Nat) = true) ∧ ((up.gate (pageBase Blk.can (23 : Nat) / (4096 : Nat))).clkOn =
     true) ∧ (up.rb (Reg.BLK_CTRL (pageBase Blk.can (23 : Nat))) (0 : Nat) = false) ∧ ((up.cch (23 : Nat)).estate = (0 : Nat)) ∧ (up.canOk
     (23 : Nat) = true)) ∧
    (((23 : Nat) < (24 : Nat)) ∧ (w09_6.admits (3 : Nat) (Reg.BLK_CTRL (pageBase Blk.can (23 : Nat))) = true) ∧ (bit (1 : BitVec (32 : Nat))
     (2 : Nat) = false) ∧ (bit (1 : BitVec (32 : Nat)) (0 : Nat) = true) ∧ ((w09_6.gate (pageBase Blk.can (23 : Nat) / (4096 : Nat))).clkOn
     = true) ∧ (w09_6.rb (Reg.BLK_CTRL (pageBase Blk.can (23 : Nat))) (0 : Nat) = false) ∧ ((w09_6.cch (23 : Nat)).estate = (0 : Nat)) ∧
     (w09_6.canOk (23 : Nat) = false)) ∧
    (((23 : Nat) < (24 : Nat)) ∧ (w09_7.admits (3 : Nat) (Reg.BLK_CTRL (pageBase Blk.can (23 : Nat))) = true) ∧ (bit (0 : BitVec (32 : Nat))
     (2 : Nat) = false) ∧ (bit (0 : BitVec (32 : Nat)) (0 : Nat) = false) ∧ (w09_7.enabled Blk.can (23 : Nat) = true) ∧ ((w09_7.cch (23 :
     Nat)).estate ≠ (0 : Nat)) ∧ ((w09_7.cch (23 : Nat)).wire.isSome = true)) ∧
    (((23 : Nat) < (24 : Nat)) ∧ (w09_8.admits (3 : Nat) (Reg.BLK_CTRL (pageBase Blk.can (23 : Nat))) = true) ∧ (bit (0 : BitVec (32 : Nat))
     (2 : Nat) = false) ∧ (bit (0 : BitVec (32 : Nat)) (0 : Nat) = false) ∧ (w09_8.enabled Blk.can (23 : Nat) = true) ∧ ((w09_8.cch (23 :
     Nat)).estate ≠ (0 : Nat)) ∧ ((w09_8.cch (23 : Nat)).wire = none)) ∧
    (((23 : Nat) < (24 : Nat)) ∧ (w09_9.admits (3 : Nat) (Reg.BLK_CTRL (pageBase Blk.can (23 : Nat))) = true) ∧ (bit (0 : BitVec (32 : Nat))
     (2 : Nat) = false) ∧ (bit (0 : BitVec (32 : Nat)) (0 : Nat) = false) ∧ (w09_9.enabled Blk.can (23 : Nat) = true) ∧ ((w09_9.cch (23 :
     Nat)).estate ≠ (0 : Nat)) ∧ ((w09_9.cch (23 : Nat)).wire = none)) ∧
    (((7 : Nat) < (8 : Nat)) ∧ (w09_10.admits (3 : Nat) (Reg.BLK_CTRL (pageBase Blk.lin (7 : Nat))) = true) ∧ (bit (1 : BitVec (32 : Nat))
     (2 : Nat) = false) ∧ (bit (1 : BitVec (32 : Nat)) (0 : Nat) = true) ∧ ((w09_10.gate (pageBase Blk.lin (7 : Nat) / (4096 : Nat))).clkOn
     = true) ∧ (w09_10.rb (Reg.BLK_CTRL (pageBase Blk.lin (7 : Nat))) (0 : Nat) = false) ∧ ((w09_10.lch (7 : Nat)).state = (0 : Nat)) ∧
     (w09_10.linCommander (7 : Nat) = true)) ∧
    (((7 : Nat) < (8 : Nat)) ∧ (w09_11.admits (3 : Nat) (Reg.BLK_CTRL (pageBase Blk.lin (7 : Nat))) = true) ∧ (bit (1 : BitVec (32 : Nat))
     (2 : Nat) = false) ∧ (bit (1 : BitVec (32 : Nat)) (0 : Nat) = true) ∧ ((w09_11.gate (pageBase Blk.lin (7 : Nat) / (4096 : Nat))).clkOn
     = true) ∧ (w09_11.rb (Reg.BLK_CTRL (pageBase Blk.lin (7 : Nat))) (0 : Nat) = false) ∧ ((w09_11.lch (7 : Nat)).state = (0 : Nat)) ∧
     (w09_11.linCommander (7 : Nat) = true)) ∧
    (((7 : Nat) < (8 : Nat)) ∧ (w09_12.admits (3 : Nat) (Reg.BLK_CTRL (pageBase Blk.lin (7 : Nat))) = true) ∧ (bit (0 : BitVec (32 : Nat))
     (2 : Nat) = false) ∧ (bit (0 : BitVec (32 : Nat)) (0 : Nat) = false) ∧ (w09_12.enabled Blk.lin (7 : Nat) = true) ∧ ((w09_12.lch (7 :
     Nat)).state ≠ (0 : Nat))) ∧
    ((w09_13.admits (3 : Nat) (Reg.BLK_CTRL (pageBase Blk.cfl (0 : Nat))) = true) ∧ (bit (1 : BitVec (32 : Nat)) (2 : Nat) = false) ∧ (bit
     (1 : BitVec (32 : Nat)) (0 : Nat) = true) ∧ ((w09_13.gate (pageBase Blk.cfl (0 : Nat) / (4096 : Nat))).clkOn = true) ∧ (w09_13.rb
     (Reg.BLK_CTRL (pageBase Blk.cfl (0 : Nat))) (0 : Nat) = false)) ∧
    ((cfu.admits 3 (Reg.BLK_CTRL (pageBase Blk.cfl 0)) = true) ∧ (bit (0 : Word) 2 = false) ∧ (bit (0 : Word) 0 = false) ∧ (cfu.enabled
     Blk.cfl 0 = true)) := by
  and_intros <;> decide +kernel

end W09

/-! ### Witnesses of 10 -/

namespace W10

def dm : Dom := { Dom.reset with state := 2, offset := 7, rate := 5000, base := 4000, slew := 1000, epoch := 100 }
def tm (st : Nat) (cfg : Word) : State :=
  (({ up with frcNs := 0x123456789 }.setDom 3 { dm with state := st }).wr (Reg.DOM_CFG 3) cfg).wr (Reg.DOM_ADJ_LO 3) 0x00000005
def w10_1 := ((tm 3 1).wr (Reg.DOM_ADJ_HI 3) 0xFFFFFFFF)
def w10_2 := ((tm 3 1).setDom 3 { dm with slewing := true, delta := 1, acc := 3 })
def w10_3 := ((tm 3 1).setDom 3 { dm with slewing := true, delta := 500000000, acc := 3 })
def w10_4 := ((tm 3 1).wr (Reg.DOM_JUMP_LIMIT 3) 4)
def w10_5 := (((tm 2 1).wr Reg.SRV_CTRL 1).wr Reg.SRV_KP 0x1000)
def w10_6 := ((tm 2 1).wr Reg.SRV_CTRL 0)
def w10_7 := (up.wr Reg.CRU_CLK_STAT 1)
def ms (st : Nat) (cfg : Word) : State := ((tm st (cfg ||| 0x500)).wr (Reg.TIM_PORT_CFG 15) 0x00800001).wr (Reg.TIM_PDELAY 15) 0x80000005
def mww : SyncWait := ⟨15, 7, 8, 9, 0⟩
def mw : State := let s := ms 3 1; s.setDom 3 { s.dom 3 with wait := some mww }
def w10_8 := ((ms 3 3).wr (Reg.TIM_PORT_CFG 15) 0x00400001)
def w10_9 := (up.wr (Reg.TIM_PORT_CFG 22) 1)
def w10_10 := ((ms 2 1).setPd 15 { PdPort.reset with req := some (7, 8) })

/-- The hypotheses of `Obligations.DomainCommandsSteerTime` hold together, clause by clause. -/
theorem hyps_DomainCommandsSteerTime :
    ((3 < 4) ∧ ((tm 1 1).admits 3 (Reg.DOM_CMD 3) = true) ∧ (((tm 1 1).dom 3).state = 1)) ∧
    ((3 < 4) ∧ ((tm 1 3).admits 3 (Reg.DOM_CMD 3) = true) ∧ (((tm 1 3).dom 3).state = 1)) ∧
    ((3 < 4) ∧ ((tm 4 1).admits 3 (Reg.DOM_CMD 3) = true) ∧ (((tm 4 1).dom 3).state = 2 ∨ ((tm 4 1).dom 3).state = 4)) ∧
    ((3 < 4) ∧ ((tm 3 1).admits 3 (Reg.DOM_CMD 3) = true) ∧ (((tm 3 1).dom 3).state = 3) ∧ (absI ((tm 3 1).domAdj 3) ≤ (tm 3 1).jumpLimit
     3)) ∧
    ((3 < 4) ∧ (w10_1.admits 3 (Reg.DOM_CMD 3) = true) ∧ (2 ≤ (w10_1.dom 3).state)) ∧
    ((3 < 4) ∧ ((tm 3 1).admits 3 (Reg.DOM_CMD 3) = true) ∧ (2 ≤ ((tm 3 1).dom 3).state)) ∧
    ((3 < 4) ∧ ((tm 3 3).admits 3 (Reg.DOM_CMD 3) = true) ∧ ((tm 3 3).domGm 3 = true)) ∧
    ((3 < 4) ∧ ((tm 3 1).admits 3 (Reg.DOM_CMD 3) = true) ∧ (((tm 3 1).dom 3).state ≠ 0)) ∧
    (((w10_2.dom 3).slewed w10_2.frc16 = true)) ∧
    (((w10_3.dom (3 : Nat)).slewed w10_3.frc16 = false)) ∧
    (((3 : Nat) < (4 : Nat)) ∧ (w10_4.admits (3 : Nat) (Reg.DOM_CMD (3 : Nat)) = true) ∧ ((w10_4.dom (3 : Nat)).state = (3 : Nat)) ∧
     (w10_4.jumpLimit (3 : Nat) < absI (w10_4.domAdj (3 : Nat)))) ∧
    ((3 < 4) ∧ ((tm 0 0).admits 3 (Reg.DOM_CFG 3) = true) ∧ ((tm 0 0).rb (Reg.DOM_CFG 3) 0 = false) ∧ (bit (4359 : Word) 0 = true)) ∧
    ((3 < 4) ∧ ((tm 0 0).admits 3 (Reg.DOM_CFG 3) = true) ∧ ((tm 0 0).rb (Reg.DOM_CFG 3) 0 = false) ∧ (bit (4353 : Word) 0 = true)) ∧
    ((3 < 4) ∧ ((tm 2 1).admits 3 (Reg.DOM_CFG 3) = true) ∧ ((tm 2 1).rb (Reg.DOM_CFG 3) 0 = true) ∧ (bit (4352 : Word) 0 = false)) ∧
    ((3 < 4) ∧ ((tm 2 1).admits 3 (Reg.DOM_RATE_MAX 3) = true)) ∧
    ((up.admits 3 Reg.TIM_FRC_INC = true)) ∧
    ((w10_5.admits 3 Reg.SRV_OFFSET = true) ∧ (w10_5.rb Reg.SRV_CTRL 0 = true) ∧ (w10_5.rb Reg.SRV_CTRL 1 = false)) ∧
    ((w10_6.admits 3 Reg.SRV_OFFSET = true) ∧ (w10_6.rb Reg.SRV_CTRL 0 = false)) ∧
    ((up.rb Reg.CRU_CLK_STAT 0 = false)) ∧
    ((w10_7.rb Reg.CRU_CLK_STAT 0 = true) ∧ (w10_7.rf Reg.CRU_HFRC_TRIM 12 2 ≠ 2) ∧ (w10_7.rf Reg.CRU_HFRC_TRIM 0 10 < 1022) ∧ (↑100000 *
     1000000000000 / (1048576 * 96) - 1000000000 < -100000)) := by
  and_intros <;> decide +kernel

/-- The hypotheses of `Obligations.TimeMessagesAreServed` hold together, clause by clause. -/
theorem hyps_TimeMessagesAreServed :
    (((ms 2 1).domOf 5 = some 3) ∧ ((ms 2 1).slavePort 3 = some 15) ∧ ((ms 2 1).asCapable 15 = true) ∧ (((ms 2 1).dom 3).wait = none) ∧ ((ms
     2 1).inj = [])) ∧
    ((3 < 4) ∧ ((ms 2 1).domOf 5 = some 3) ∧ (¬((ms 2 1).slavePort 3 = some 14 ∧ (ms 2 1).asCapable 14 = true)) ∧ ((ms 2 1).inj = [])) ∧
    (((ms 2 1).domOf 6 = none) ∧ ((ms 2 1).inj = [])) ∧
    ((3 < 4) ∧ ((ms 1 1).domOf 5 = some 3) ∧ ((ms 1 1).slavePort 3 = some 15) ∧ ((ms 1 1).asCapable 15 = true) ∧ ((ms 1 1).domGm 3 = false)
     ∧ ((ms 1 1).rb (Reg.DOM_CFG 3) 2 = false) ∧ (((ms 1 1).dom 3).state = 1)) ∧
    ((mw.domOf 5 = some 3) ∧ (mw.slavePort 3 = some 15) ∧ (mw.asCapable 15 = true) ∧ ((mw.dom 3).wait = some mww) ∧ (mw.inj = [])) ∧
    ((3 < 4) ∧ (mw.domOf 5 = some 3) ∧ ((mw.dom 3).wait = some mww) ∧ (mww.port = 15) ∧ (mww.seq = 7) ∧ (mw.slavePort 3 = some 15) ∧
     (mw.asCapable 15 = true)) ∧
    (((mw.dom 3).wait = some mww)) ∧
    ((3 < 4) ∧ ((ms 2 1).domGm 3 = false) ∧ (((ms 2 1).dom 3).state = 2 ∨ ((ms 2 1).dom 3).state = 3)) ∧
    ((3 < 4) ∧ ((ms 3 1).domGm 3 = false) ∧ (((ms 3 1).dom 3).state = 2 ∨ ((ms 3 1).dom 3).state = 3)) ∧
    ((w10_8.domGm 3 = true) ∧ ((w10_8.dom 3).state ≠ 0) ∧ (List.filter (fun q => decide (w10_8.ptpRole q 3 = 1) && w10_8.asCapable q)
     ptpPorts = [15])) ∧
    ((22 ∈ ptpPorts) ∧ (w10_9.rb (Reg.TIM_PORT_CFG 22) 0 = true) ∧ ((w10_9.pd 22).req = none)) ∧
    ((22 ∈ ptpPorts) ∧ (w10_9.rb (Reg.TIM_PORT_CFG 22) 0 = true)) ∧
    ((15 < 24) ∧ ((w10_10.pd 15).req = some (7, 8)) ∧ ((w10_10.pd 15).last = none) ∧ (150 ≤ 160)) ∧
    (((ms 2 1).domOf 6 = none)) ∧
    ((((ms 2 1).domOf 5).isSome = true)) := by
  and_intros <;> decide +kernel

end W10

/-! ### Witnesses of 11 -/

namespace W11

def vop (op : Nat) (args : List Word) (b : List Byte) : State :=
  let s := opened.setSlot (vltSlot 3) ⟨false, true, 3, 5, Result.empty, none⟩
  { s with vlt := { s.vlt with ops := [⟨3, op, args, b, none, 0⟩] } }
def vop2 (c : Nat) : State := ({ opened with vlt := { opened.vlt with ops := [⟨2, 4, [], [], none, 0⟩] } }.wr (bankKey 3 (Reg.VLT_ARG 0))
  0x9).wr (bankKey 3 (Reg.VLT_BUF 0)) (wd (c * 256))
def vop0 (c : Nat) : State := { vop2 c with vlt := { (vop2 c).vlt with ops := [] } }
def o1 : VltOp := ⟨3, 8, [], [], some (codeRes 0x82), 0⟩
def vopd : State := let s := vop 2 [] []; { s with vlt := { s.vlt with ops := [o1, ⟨2, 2, [], [], none, 0⟩] } }
def w11_1 := (vop 2 [255, 0x200, 0] [])
def ks (st cst : Nat) : KeySlot := ⟨⟨BitVec.ofNat 64 (0x200 + st * 0x1000 + 2 ^ 32 * 5), [1, 2]⟩, ⟨BitVec.ofNat 64 (0x200 + cst * 0x1000 + 2
  ^ 32 * 6), [3]⟩, 6, 9, 9, none⟩
def w11_2 := ((vop 4 [9, 0] []).setKslot 9 (ks 1 2))
def w11_3 := ((vop 4 [9, 5] []).setKslot 9 (ks 1 2))
def w11_4 := ((vop 6 [9] []).setKslot 9 (ks 3 2))
def w11_5 := ((vop 7 [9] []).setKslot 9 (ks 5 2))
def w11_6 := ((vop 7 [9] []).setKslot 9 (ks 1 2))
def w11_7 := (vop 8 [0x409] (ascii "AUV-xyz"))
def vno (s : State) (n : List Byte) : State :=
  { s with vlt := { s.vlt with nonces := Tab.set (fun _ => none) s.vlt.nonces 3 (some (n, 5)) } }
def w11_8 := (vno (vop 0x12 [] (List.replicate 197 1)) (List.replicate 16 1))
def env3 : List Byte := [1, 3] ++ List.replicate 34 7 ++ [0, 1, 1] ++ List.replicate 114 9
def w11_9 := (vno (vop 0x11 [] env3) (List.replicate 16 7))
def w11_10 := (vno (vop 0x13 [] (List.replicate 197 1)) (List.replicate 16 1))
def w11_11 := (opened.setKslot 9 (ks 1 2))
def w11_12 := (opened.setKslot 9 { ks 3 2 with grace := some 9 })
def w11_13 := (opened.setKslot 9 { ks 1 2 with grace := some 9 })
def w11_14 := (opened.wr Reg.VLT_CFG 0x3C0305)
def w11_15 := (opened.wr Reg.VLT_CFG 0x3C0105)
def w11_16 := (opened.setKslot 9 (ks 3 2))
def asleep : State := { opened with pwr := { opened.pwr with state := 1 } }
def vst (latch : Bool) (id : Option (List Byte × List Byte × List Byte × List Byte)) (stage : Nat) : State :=
  { up with pwr := { up.pwr with mgsOn := true, cold := true }, vlt := { up.vlt with sleepLatch := latch, ident := id, stage := stage } }
def idn : Option (List Byte × List Byte × List Byte × List Byte) := some ([], [], [], [])
def vbw : State := let s := vst false idn 0; { s with vlt := { s.vlt with boot := 0xFFFFFFFE } }
def vbt : State := let s := vst false idn 2; { s with vlt := { s.vlt with boot := 0xFFFFFFFF } }
def w11_17 := ((vst false idn 3).setKslot 9 (ks 1 2))
def sau : State := ((opened.wr (bankKey 3 (Reg.LCE_SA_SEL 22)) 511).wr (bankKey 3 (Reg.LCE_SA_DATA 22 0)) 0x90010).wr (bankKey 3
  (Reg.LCE_SA_DATA 22 5)) 1
def sa1 : Sa := { Sa.free with state := 1, port := 22, d0 := 0x90041, pn := 5 }
def cau : State := (((opened.wr (bankKey 3 Reg.CAU_SEL) 2047).wr (bankKey 3 (Reg.CAU_DATA 0)) 0x0918_0001).wr (bankKey 3 (Reg.CAU_DATA 2))
  0x10000).wr (bankKey 3 (Reg.CAU_DATA 3)) 8
def ce1 : CauEnt := { CauEnt.free with state := 2, w0 := 0x09180000, fv := 7 }
def ks2 : KeySlot := { ks 1 0 with main := ⟨BitVec.ofNat 64 (0x1220 + 2 ^ 48), [7]⟩ }
def w11_18 := ((sau.setSa 511 sa1).setKslot 9 ks2)
def w11_19 := ((cau.setCau 2047 ce1).setKslot 9 { ks2 with main := ⟨BitVec.ofNat 64 (0x1208 + 2 ^ 49), [7]⟩ })
def rsv (k i v : Nat) (s : State) : State := { s with vlt := { s.vlt with rsvq := [⟨k, i, v, 9⟩, ⟨1, 2, 3, 9⟩] } }
def w11_20 := (rsv 2 511 0x200000 (sau.setSa 511 sa1))
def w11_21 := (rsv 3 2047 0x20000 (cau.setCau 2047 ce1))

/-- The hypotheses of `Obligations.VaultOperationsRunInOrder` hold together, clause by clause. -/
theorem hyps_VaultOperationsRunInOrder :
    ((vaultOp (Instr.vltGenerate 3) = some (3, 2)) ∧ (envelopeFits (Instr.vltGenerate 3) (vop2 1) = true) ∧ ((vop2 1).admits 3 Reg.VLT_CMD =
     true) ∧ (((vop2 1).slot (vltSlot 3)).idle = true) ∧ ((vop2 1).vlt.ops ≠ []) ∧ ((vop2 1).inj = [])) ∧
    ((vaultOp (Instr.vltTransfer 3) = some (3, 19)) ∧ (envelopeFits (Instr.vltTransfer 3) (vop2 1) = true) ∧ ((vop2 1).admits 3 Reg.VLT_CMD
     = true) ∧ (((vop2 1).slot (vltSlot 3)).idle = true) ∧ ((vop2 1).vlt.ops ≠ []) ∧ ((vop2 1).inj = [])) ∧
    ((vaultOp (Instr.wipe 3) = some (3, 17)) ∧ (envelopeFits (Instr.wipe 3) (vop2 5) = true) ∧ ((vop2 5).admits 3 Reg.VLT_CMD = true) ∧
     (((vop2 5).slot (vltSlot 3)).idle = true) ∧ ((vop2 5).vlt.ops ≠ []) ∧ ((vop2 5).inj = [])) ∧
    ((vaultOp (Instr.vltAuthoriseDelegated 3) = some (3, 17)) ∧ (envelopeFits (Instr.vltAuthoriseDelegated 3) (vop2 32) = true) ∧ ((vop2
     32).admits 3 Reg.VLT_CMD = true) ∧ (((vop2 32).slot (vltSlot 3)).idle = true) ∧ ((vop2 32).vlt.ops ≠ []) ∧ ((vop2 32).inj = [])) ∧
    ((vaultOp (Instr.vltGenerate 3) = some (3, 2)) ∧ (envelopeFits (Instr.vltGenerate 3) (vop0 1) = true) ∧ ((vop0 1).admits 3 Reg.VLT_CMD =
     true) ∧ (((vop0 1).slot (vltSlot 3)).idle = true) ∧ ((vop0 1).vlt.ops = []) ∧ ((vop0 1).inj = [])) ∧
    ((vaultOp (Instr.vltSign 3) = some (3, 8)) ∧ (envelopeFits (Instr.vltSign 3) (vop0 1) = true) ∧ ((vop0 1).admits 3 Reg.VLT_CMD = true) ∧
     (((vop0 1).slot (vltSlot 3)).idle = true) ∧ ((vop0 1).vlt.ops = []) ∧ ((vop0 1).inj = [])) ∧
    ((vaultOp (Instr.tamperClear 3) = some (3, 17)) ∧ (envelopeFits (Instr.tamperClear 3) (vop0 1) = true) ∧ ((vop0 1).admits 3 Reg.VLT_CMD
     = true) ∧ (((vop0 1).slot (vltSlot 3)).idle = true) ∧ ((vop0 1).vlt.ops = []) ∧ ((vop0 1).inj = [])) ∧
    ((vopd.vlt.ops = [o1, { m := (2 : Nat), op := (2 : Nat), args := [], buf := [], res := none, alarms := (0 : Nat) : VltOp }]) ∧ (o1.res =
     some (codeRes (130 : Nat))) ∧ (o1.op < (256 : Nat)) ∧ ((vopd.slot (vltSlot o1.m)).busy = true) ∧ (vopd.svc.release = [])) ∧
    (((vop (2 : Nat) [(8 : Word), (512 : Word), (0 : Word)] []).vaultAtOp (3 : Nat) (2 : Nat) [(8 : BitVec (32 : Nat)), (512 : BitVec (32 :
     Nat)), (0 : Word)] []) ∧ ((8 : Nat) = fld (8 : BitVec (32 : Nat)) (0 : Nat) (8 : Nat)) ∧ ((8 : Nat) ≤ (8 : Nat)) ∧ ((vop (2 : Nat) [(8
     : Word), (512 : Word), (0 : Word)] []).vltOpen = true) ∧ (fld (512 : BitVec (32 : Nat)) (8 : Nat) (4 : Nat) = (2 : Nat)) ∧ (((vop (2 :
     Nat) [(8 : Word), (512 : Word), (0 : Word)] []).kslot (8 : Nat)).lastGen < (65535 : Nat))) ∧
    ((w11_1.vaultAtOp (3 : Nat) (2 : Nat) [(255 : BitVec (32 : Nat)), (512 : BitVec (32 : Nat)), (0 : Word)] []) ∧ ((255 : Nat) = fld (255 :
     BitVec (32 : Nat)) (0 : Nat) (8 : Nat)) ∧ ((8 : Nat) ≤ (255 : Nat)) ∧ (w11_1.vltOpen = true) ∧ (fld (512 : BitVec (32 : Nat)) (8 : Nat)
     (4 : Nat) = (2 : Nat)) ∧ ((w11_1.kslot (255 : Nat)).lastGen < (65535 : Nat))) ∧
    (((vop (2 : Nat) [(7 : Word), (512 : Word), (0 : Word)] []).vaultAtOp (3 : Nat) (2 : Nat) [(7 : BitVec (32 : Nat)), (512 : Word), (0 :
     Word)] []) ∧ ((7 : Nat) = fld (7 : BitVec (32 : Nat)) (0 : Nat) (8 : Nat)) ∧ ((7 : Nat) < (8 : Nat))) ∧
    ((w11_2.vaultAtOp (3 : Nat) (4 : Nat) [(9 : BitVec (32 : Nat)), (0 : Word)] []) ∧ ((9 : Nat) = fld (9 : BitVec (32 : Nat)) (0 : Nat) (8
     : Nat)) ∧ ((8 : Nat) ≤ (9 : Nat)) ∧ (w11_2.vltOpen = true) ∧ ((w11_2.kslot (9 : Nat)).comp.state = (2 : Nat))) ∧
    ((w11_3.vaultAtOp (3 : Nat) (4 : Nat) [(9 : BitVec (32 : Nat)), (5 : Word)] []) ∧ ((9 : Nat) = fld (9 : BitVec (32 : Nat)) (0 : Nat) (8
     : Nat)) ∧ ((8 : Nat) ≤ (9 : Nat)) ∧ (w11_3.vltOpen = true) ∧ ((w11_3.kslot (9 : Nat)).comp.state = (2 : Nat))) ∧
    ((w11_4.vaultAtOp (3 : Nat) (6 : Nat) [(9 : BitVec (32 : Nat))] []) ∧ ((9 : Nat) = fld (9 : BitVec (32 : Nat)) (0 : Nat) (8 : Nat)) ∧
     ((8 : Nat) ≤ (9 : Nat)) ∧ (w11_4.vltOpen = true) ∧ ((w11_4.kslot (9 : Nat)).main.state = (1 : Nat) ∨ (w11_4.kslot (9 : Nat)).main.state
     = (3 : Nat))) ∧
    ((w11_5.vaultAtOp (3 : Nat) (7 : Nat) [(9 : BitVec (32 : Nat))] []) ∧ ((9 : Nat) = fld (9 : BitVec (32 : Nat)) (0 : Nat) (8 : Nat)) ∧
     ((8 : Nat) ≤ (9 : Nat))) ∧
    ((w11_6.vaultAtOp (3 : Nat) (7 : Nat) [(9 : BitVec (32 : Nat))] []) ∧ ((9 : Nat) = fld (9 : BitVec (32 : Nat)) (0 : Nat) (8 : Nat)) ∧
     ((8 : Nat) ≤ (9 : Nat))) ∧
    ((w11_7.vaultAtOp 3 8 [1033] (ascii "AUV-xyz")) ∧ (9 = fld (1033 : Word) 0 8) ∧ (fld (1033 : Word) 8 8 ≤ (ascii "AUV-xyz").length) ∧
     (reservedCtx (List.take (fld (1033 : Word) 8 8) (ascii "AUV-xyz")) = true)) ∧
    ((w11_8.vaultAtOp 3 18 [] (List.replicate 197 1)) ∧ (w11_8.vlt.claimed = false) ∧ (w11_8.vlt.epoch < 65535)) ∧
    ((w11_9.vaultAtOp 3 17 [] env3) ∧ (beAt env3 1 1 = 3) ∧ (w11_9.vlt.vstate = 1 ∨ w11_9.vlt.vstate = 2)) ∧
    ((w11_8.vaultAtOp 3 18 [] (List.replicate 197 1)) ∧ (w11_8.authNonce 3 = some (List.take 16 (List.drop 10 (List.replicate 197 1))))) ∧
    ((w11_10.vaultAtOp 3 19 [] (List.replicate 197 1)) ∧ (w11_10.authNonce 3 = some (List.take 16 (List.drop 12 (List.replicate 197 1))))) ∧
    ((w11_9.vaultAtOp 3 17 [] env3) ∧ (w11_9.authNonce 3 = some (List.take 16 (List.drop 20 env3)))) := by
  and_intros <;> decide +kernel

/-- The hypotheses of `Obligations.VaultGuardsItself` hold together, clause by clause. -/
theorem hyps_VaultGuardsItself :
    (((w11_12.kslot 9).main.state = 3) ∧ ((w11_12.kslot 9).grace.isSome = true)) ∧
    (((w11_13.kslot 9).main.state ≠ 3)) ∧
    ((w11_14.asleep = false) ∧ (w11_14.vlt.vstate = 1) ∧ (w11_14.vlt.ops = []) ∧ (w11_14.vlt.glitches = []) ∧ (2 ≤ w11_14.rf Reg.VLT_CFG 8
     4)) ∧
    ((w11_15.asleep = false) ∧ (w11_15.vlt.vstate = 1) ∧ (w11_15.rf Reg.VLT_CFG 8 4 ≤ 1)) ∧
    ((w11_16.asleep = false) ∧ (w11_16.vlt.vstate = 1)) ∧
    ((w11_16.asleep = false)) ∧
    ((asleep.asleep = true)) ∧
    ((asleep.asleep = true)) ∧
    ((asleep.asleep = true)) ∧
    (((vst true none 0).vlt.vstate = 0) ∧ ((vst true none 0).vlt.stage < 3) ∧ ((vst true none 0).pwr.mgsOn = true) ∧ (2 ≤ (vst true none
     0).pwr.boot) ∧ ((vst true none 0).vlt.sleepLatch = true)) ∧
    (((vst false none 0).vlt.vstate = 0) ∧ ((vst false none 0).vlt.stage = 0) ∧ ((vst false none 0).pwr.mgsOn = true) ∧ (2 ≤ (vst false none
     0).pwr.boot) ∧ ((vst false none 0).vlt.sleepLatch = false)) ∧
    (((vst false idn 0).vlt.vstate = 0) ∧ ((vst false idn 0).vlt.stage = 0) ∧ ((vst false idn 0).pwr.mgsOn = true) ∧ (2 ≤ (vst false idn
     0).pwr.boot) ∧ ((vst false idn 0).vlt.sleepLatch = false) ∧ ((vst false idn 0).vlt.ident.isSome = true) ∧ ((vst false idn 0).vlt.boot <
     4294967295)) ∧
    ((vbw.vlt.vstate = 0) ∧ (vbw.vlt.stage = 0) ∧ (vbw.pwr.mgsOn = true) ∧ (2 ≤ vbw.pwr.boot) ∧ (vbw.vlt.sleepLatch = false) ∧
     (vbw.vlt.ident.isSome = true) ∧ (vbw.vlt.boot < 4294967295)) ∧
    (((vst false idn 0).vlt.vstate = 0) ∧ ((vst false idn 0).vlt.stage = 0) ∧ ((vst false idn 0).pwr.mgsOn = true) ∧ (2 ≤ (vst false idn
     0).pwr.boot) ∧ ((vst false idn 0).vlt.sleepLatch = false) ∧ ((vst false idn 0).vlt.ident.isSome = true)) ∧
    ((vbt.vlt.vstate = 0) ∧ (vbt.vlt.stage = 2) ∧ (vbt.pwr.mgsOn = true) ∧ (2 ≤ vbt.pwr.boot) ∧ (vbt.vlt.sleepLatch = false) ∧ (vbt.vlt.boot
     = 4294967295)) ∧
    ((w11_17.vlt.vstate = 0) ∧ (w11_17.vlt.stage = 3)) := by
  and_intros <;> decide +kernel

/-- The hypotheses of `Obligations.LineKeysAndCountersAreManaged` hold together, clause by clause. -/
theorem hyps_LineKeysAndCountersAreManaged :
    ((hasLce 22 = true) ∧ (sau.admits 3 (Reg.LCE_SA_CMD 22) = true) ∧ (511 = sau.rf (bankKey 3 (Reg.LCE_SA_SEL 22)) 0 9) ∧ ((sau.sa
     511).state = 0) ∧ (sau.auth.sas = []) ∧ (sau.rd (bankKey 3 (Reg.LCE_SA_DATA 22 5)) ≠ 0) ∧ (sau.rd (bankKey 3 (Reg.LCE_SA_DATA 22 6)) =
     0)) ∧
    ((hasLce 22 = true) ∧ ((sau.setSa 511 sa1).admits 3 (Reg.LCE_SA_CMD 22) = true) ∧ (511 = (sau.setSa 511 sa1).rf (bankKey 3
     (Reg.LCE_SA_SEL 22)) 0 9) ∧ (((sau.setSa 511 sa1).sa 511).state ≠ 0)) ∧
    ((hasLce 22 = true) ∧ ((sau.setSa 511 sa1).admits 3 (Reg.LCE_SA_CMD 22) = true) ∧ (511 = (sau.setSa 511 sa1).rf (bankKey 3
     (Reg.LCE_SA_SEL 22)) 0 9)) ∧
    ((3 < 8) ∧ (hasLce 22 = true) ∧ ((sau.setSa 511 sa1).admits 3 (Reg.LCE_SA_CMD 22) = true) ∧ (511 = (sau.setSa 511 sa1).rf (bankKey 3
     (Reg.LCE_SA_SEL 22)) 0 9)) ∧
    ((hasLce 22 = true) ∧ (sau.admits 3 (Reg.LCE_TX_AN 22) = true)) ∧
    ((cau.admits 3 Reg.CAU_CMD = true) ∧ (2047 = cau.rf (bankKey 3 Reg.CAU_SEL) 0 11) ∧ ((cau.cauEnt 2047).state = 0) ∧ (cau.auth.cau = [])
     ∧
     ({ state := 2, w0 := cau.rd (bankKey 3 (Reg.CAU_DATA 0)), w1 := cau.rd (bankKey 3 (Reg.CAU_DATA 1)), w2 := cau.rd (bankKey 3 (Reg.CAU_DATA 2)), w3 := cau.rd (bankKey 3 (Reg.CAU_DATA 3)), w4 := cau.rd (bankKey 3 (Reg.CAU_DATA 4)), fv := 0, rsvEnd := 0, recorded := 0, warn := false : CauEnt }.ok
     = true)) ∧
    (((cau.setCau 2047 ce1).admits 3 Reg.CAU_CMD = true) ∧ (2047 = (cau.setCau 2047 ce1).rf (bankKey 3 Reg.CAU_SEL) 0 11) ∧ (((cau.setCau
     2047 ce1).cauEnt 2047).state ≠ 0)) ∧
    (((cau.setCau 2047 ce1).admits 3 Reg.CAU_CMD = true) ∧ (2047 = (cau.setCau 2047 ce1).rf (bankKey 3 Reg.CAU_SEL) 0 11)) ∧
    ((3 < 8) ∧ ((cau.setCau 2047 ce1).admits 3 Reg.CAU_CMD = true) ∧ (2047 = (cau.setCau 2047 ce1).rf (bankKey 3 Reg.CAU_SEL) 0 11)) ∧
    ((((sau.setSa 511 sa1).sa 511).state = 1)) ∧
    (((w11_18.sa 511).state = 1)) ∧
    ((((cau.setCau 2047 ce1).cauEnt 2047).state = 2)) ∧
    (((w11_19.cauEnt 2047).state = 2)) ∧
    ((w11_20.vlt.rsvq = [{ kind := 2, index := 511, value := 2097152, crc := 9 : CtrRec },
     { kind := 1, index := 2, value := 3, crc := 9 : CtrRec }]) ∧ ((w11_20.sa 511).state ≠ 0)) ∧
    ((w11_21.vlt.rsvq = [{ kind := 3, index := 2047, value := 131072, crc := 9 : CtrRec },
     { kind := 1, index := 2, value := 3, crc := 9 : CtrRec }]) ∧ ((w11_21.cauEnt 2047).state ≠ 0)) ∧
    (((cau.setCau 2047 ce1).auth.cau = [(2047, ce1)]) ∧ (ce1.state ≠ 0) ∧ (ce1.tx = false) ∧ (ce1.fv ≠ ce1.recorded)) := by
  and_intros <;> decide +kernel

end W11

/-! ### Witnesses of 13 -/

namespace W13

def tw (t : TwnSt) : State := { opened with frcNs := 0x900000, twn := { t with digest := List.replicate 8 0 } }
def tp : TwnSt := { TwnSt.reset with state := 4, arrival := some 77, missed := 2 }
def w13_1 := (tw { tp with missed := 3 })
def w13_2 := ({ tw tp with frcNs := 77 })
def w13_3 := (tw { tp with claiming := true })
def w13_4 := (tw { tp with state := 3 })
def w13_5 := ((tw { tp with lost := true, partnerPrefer := true }))
def w13_6 := (tw { tp with presenceDue := true })
def w13_7 := (tw { tp with state := 3, lost := true, arbOk := true, ready := true })
def w13_8 := (tw { tp with state := 3, lost := true, ready := true })
def w13_9 := ((tw { tp with state := 1, arrival := none }).wr Reg.TWN_CFG 3)
def w13_10 := ((tw { tp with state := 1, arrival := none }).wr Reg.TWN_CFG 1)
def w13_11 := (tw { tp with accepted := some 10 })
def w13_12 := (tw { tp with accepted := some 9 })
def w13_13 := (tw { tp with accepted := some 9, state := 3 })
def w13_14 := (tw { tp with state := 6 })
def w13_15 := (tw { tp with state := 5 })
def w13_16 := (tw { tp with state := 0, offset := 7 })
def tsh : State := ((tw { tp with state := 3 }).wr Reg.TWN_BUS_MASK 0x800000).setCch 23
  { CanSt.reset with txl := [⟨4, 0, [], 5, 1⟩, ⟨5, 0, [], 0x8FFFFF, 1⟩] }
def tmsg (s : State) (typ : Nat) (body : List Byte) : List Byte := [2, 1] ++ toBE 1 typ ++ [1] ++ toBE 2 s.partner ++ toBE 6 0 ++ body
def ts3 : State := (tw { tp with state := 3, stepped := true, ready := true }).wr Reg.TWN_GPIO_MASK 0xFF
def w13_17 := (tmsg ts3 1 ([4, 0, 0, 0] ++ List.replicate 32 0x55))
def td : State := tw { tp with state := 3, ready := true, partner := [(7, some (1, 5))], win := [(7, (1, 5))] }
def w13_18 := (tw { tp with sent := some 8 })
def w13_19 := (tmsg td 2 (toBE 8 8 ++ toBE 4 3 ++ toBE 8 9))
def td2 : State := tw { tp with state := 3, ready := true, partner := [(7, some (1, 6))], win := [(7, (1, 5))] }
def w13_20 := (tw { tp with cfgMatch := true })
def w13_21 := (tw { tp with div := some 5 })
def w13_22 := (tmsg td 4 (toBE 8 8 ++ toBE 12 0))
def w13_23 := (tw { tp with div := some 8 })
def w13_24 := (tw { tp with div := some 8, state := 3, selfOwn := some false })
def w13_25 := (tw { tp with div := some 5, selfPartner := some true })
def w13_26 := (tmsg td 5 ([1, 0, 0, 0] ++ toBE 8 9))
def w13_27 := (tmsg td 5 ([2, 0, 0, 0] ++ toBE 8 9))
def w13_28 := (tw { tp with offer := some 9 })
def w13_29 := ((tw { tp with partnerReady := true, primaryMin := 14400000 }).wr Reg.TWN_CFG 0x101)
def tsy : State := { tw tp with tbl := [(3 * 65536 + 7, sg0)] } where sg0 : BitVec 512 := 1
def w13_30 := { tsy with twn := { tsy.twn with capture := some 9 } }
def tj : State := tw { tp with state := 2, attested := true }
def w13_31 := (tmsg td 7 ([2, 0, 0, 1] ++ toBE 4 5 ++ [0, 9, 0, 0]))
def w13_32 := (tmsg td 8 (toBE 12 0 ++ List.replicate 8 0))
def w13_33 := (tmsg td 8 (toBE 12 0 ++ List.replicate 8 1))
def w13_34 := (tmsg td 9 (List.replicate 16 3))
def w13_35 := (tmsg td 10 (List.replicate 346 3))
def w13_36 := (tw { tp with state := 2, nonce := some [4] })

/-- The hypotheses of `Obligations.TwinStatesFollowTheirTable` hold together, clause by clause. -/
theorem hyps_TwinStatesFollowTheirTable :
    (((tw tp).twn.state = 4)) ∧
    (((tw tp).twn.state = 4) ∧ ((tw tp).twn.arrival = some 77) ∧ (77 + 250000 + (tw tp).rf Reg.TWN_CFG 16 8 * 1000 ≤ (tw tp).now) ∧ ((tw
     tp).twn.lost = false) ∧ ((tw tp).twn.missed < 3)) ∧
    ((w13_1.twn.state = 4) ∧ (w13_1.twn.arrival = some 77) ∧ (77 + 250000 + w13_1.rf Reg.TWN_CFG 16 8 * 1000 ≤ w13_1.now) ∧ (w13_1.twn.lost
     = false) ∧ (w13_1.twn.missed = 3)) ∧
    ((w13_2.twn.arrival = some 77) ∧ (w13_2.now < 77 + 250000 + w13_2.rf Reg.TWN_CFG 16 8 * 1000)) ∧
    ((w13_4.twn.state = 3) ∧ (w13_4.twn.lost = false) ∧ (w13_4.inj = [])) ∧
    ((w13_5.twn.state = 4) ∧ (w13_5.twn.lost = true) ∧ (w13_5.twinWins = false) ∧ (w13_5.inj = [])) ∧
    ((w13_6.twn.presenceDue = true)) ∧
    (((tw tp).twn.state ≠ 0)) ∧
    ((w13_7.twn.state = 3) ∧ (w13_7.twn.lost = true) ∧ (w13_7.twn.linkLost = false) ∧ (w13_7.lossAged = true) ∧ (w13_7.twn.arbOk = true) ∧
     (w13_7.twn.ready = true ∨ w13_7.rb Reg.TWN_CFG 2 = true)) ∧
    ((w13_8.twn.state = 3) ∧ (w13_8.twn.lost = false ∨ w13_8.twn.linkLost = true ∨ w13_8.lossAged = false ∨ w13_8.twn.arbOk = false)) ∧
    ((w13_9.twn.state = 1) ∧ (w13_9.prefer = true) ∧ (w13_9.twn.arrival = none)) ∧
    ((w13_10.twn.state = 1) ∧ (w13_10.prefer = false)) ∧
    ((w13_11.twn.accepted = some 10) ∧ (windowOf w13_11.twinNow < 10)) ∧
    ((w13_12.twn.accepted = some 9) ∧ (9 ≤ windowOf w13_12.twinNow) ∧ (w13_12.twn.state = 4) ∧ (w13_12.twn.toFault = false)) ∧
    ((w13_13.twn.accepted = some 9) ∧ (9 ≤ windowOf w13_13.twinNow) ∧ (w13_13.twn.state = 3)) ∧
    ((w13_14.admits (3 : Nat) Reg.TWN_CMD = true) ∧ (w13_14.twn.state = (1 : Nat) ∨ w13_14.twn.state = (6 : Nat))) ∧
    ((w13_15.admits (3 : Nat) Reg.TWN_CMD = true) ∧ (w13_15.twn.state = (5 : Nat))) ∧
    ((w13_16.admits 3 Reg.TWN_CFG = true) ∧ (w13_16.twn.state = 0) ∧ (bit (840440065 : Word) 0 = true)) ∧
    (((tw tp).admits 3 Reg.TWN_CFG = true) ∧ ((tw tp).twn.state ≠ 0) ∧ (bit (840440064 : Word) 0 = false)) ∧
    (((tsh.wr Reg.TWN_CFG 8).canShadow 23 = true)) := by
  and_intros <;> decide +kernel

/-- The hypotheses of `Obligations.TwinMessagesAreExchanged` hold together, clause by clause. -/
theorem hyps_TwinMessagesAreExchanged :
    (((tw tp).twn.state ≠ 0)) ∧
    ((ts3.twinTakes 1 48 w13_17) ∧ (ts3.twn.state = 3) ∧ (ts3.twn.linkLost = false) ∧ (ts3.twn.stepped = true) ∧ (beAt w13_17 3 1 = 1)) ∧
    ((ts3.twn.state ≠ 0) ∧ (ts3.inj = []) ∧ (beAt [2, 2] 1 1 ≠ 1 ∨ beAt [2, 2] 4 2 % 512 ≠ ts3.partner ∨ [2, 2].length < 12)) ∧
    (((tw tp).twn.state ≠ 0) ∧ (8 + 1 = windowOf ((tw tp).twinNow - 200000)) ∧ ((tw tp).twn.sent ≠ some 8)) ∧
    ((8 + 1 = windowOf (w13_18.twinNow - 200000)) ∧ (w13_18.twn.sent = some 8) ∧ (w13_18.inj = [])) ∧
    ((td.twinTakes 2 32 w13_19) ∧ (beAt w13_19 12 8 = 8) ∧ (beAt w13_19 20 4 = 3) ∧ (beAt w13_19 24 8 = 9) ∧ (td.twn.state = 3) ∧ (0 < 8) ∧
     (td.twn.done = none) ∧ (td.partnerWin (8 - 1) = some (1, 5)) ∧ ((1, 5) = td.ownWin (8 - 1)) ∧ (td.twn.ready = true)) ∧
    ((td2.twinTakes 2 32 w13_19) ∧ (beAt w13_19 12 8 = 8) ∧ ((3, 9) = (beAt w13_19 20 4, beAt w13_19 24 8)) ∧ (td2.twn.state = 3) ∧ (0 < 8)
     ∧ (td2.twn.done = none) ∧ (td2.partnerWin (8 - 1) = some (1, 6)) ∧ ((1, 6) ≠ td2.ownWin (8 - 1)) ∧ (winAdd (1, 6) (3, 9) ≠ winAdd
     (td2.ownWin (8 - 1)) (td2.ownWin 8))) ∧
    ((w13_20.twinTakes 3 20 (tmsg td 3 (toBE 8 8))) ∧ (w13_20.twn.cfgMatch = true) ∧ (w13_20.twn.div = none)) ∧
    ((w13_21.twn.div = some 5) ∧ (w13_21.twn.selfOwn = none) ∧ (w13_21.twn.selfPartner = none)) ∧
    ((w13_23.twinTakes 4 32 w13_22) ∧ (w13_23.twn.div = some (beAt w13_22 12 8)) ∧ (w13_23.twn.selfOwn = none)) ∧
    ((w13_24.twinTakes 4 32 w13_22) ∧ (w13_24.twn.state = 3) ∧ (w13_24.twn.div = some (beAt w13_22 12 8)) ∧ (w13_24.twn.selfOwn = some
     false)) ∧
    ((w13_25.twn.div = some 5) ∧ (w13_25.twn.state = 4) ∧ (w13_25.twn.selfOwn = none) ∧ (w13_25.twn.selfPartner = some true)) ∧
    ((td.twinTakes 5 24 w13_26) ∧ (beAt w13_26 12 1 = 1) ∧ (td.twn.state = 3) ∧ (td.twn.ready = true)) ∧
    ((w13_28.twinTakes 5 24 w13_27) ∧ (beAt w13_27 12 1 = 2) ∧ (w13_28.twn.state = 4) ∧ (w13_28.twn.offer = some (beAt w13_27 16 8))) ∧
    ((w13_29.twn.partnerReady = true) ∧ (w13_29.rotateDue = true) ∧ (w13_29.twn.state = 4)) ∧
    (((tw tp).admits 3 Reg.TWN_CMD = true) ∧ ((tw tp).twn.state = 4)) ∧
    (((tw tp).admits 3 Reg.TWN_CMD = true) ∧ ((tw tp).twn.state = 4)) ∧
    ((tsy.twinTakes 6 12 (tmsg td 6 [])) ∧ (tsy.twn.state = 4) ∧ (tsy.twn.capture = none)) ∧
    ((w13_30.twn.capture = some 9) ∧ (w13_30.twn.state = 4) ∧ (9 ≤ windowOf w13_30.twinNow) ∧ (w13_30.cfl.item = none)) ∧
    ((tj.twinTakes 7 20 w13_31) ∧ (tj.twn.state = 2) ∧ (syncWhole w13_31 = true)) ∧
    ((tj.twinTakes 8 32 w13_32) ∧ (tj.twn.state = 2) ∧ (tj.twn.attested = true)) ∧
    ((tj.twinTakes 8 32 w13_33) ∧ (tj.twn.state = 2) ∧ (tj.twn.attested = true)) ∧
    (((tw tp).twinTakes 9 28 w13_34) ∧ ((tw tp).vltOpen = true)) ∧
    ((w13_36.twinTakes 10 358 w13_35) ∧ (w13_36.twn.state = 2) ∧ (w13_36.twn.nonce = some [4])) := by
  and_intros <;> decide +kernel

end W13

/-! ### Witnesses of 14 -/

namespace W14

def pw (p : PwrSt) : State := { opened with pwr := p, frcNs := 0x900000 }
def p0 : PwrSt := { up.pwr with mgsOn := true, busy := false, cold := false }
def w14_1 := (pw { p0 with busy := true })
def w14_2 := (pw { p0 with state := 4 })
def w14_3 := ((pw { p0 with busy := true, target := 3 }).wr Reg.CRU_CLK_STAT 1)
def w14_4 := ((pw { p0 with busy := true, target := 5, state := 4, mphyOn := false, svcOn := false }).wr Reg.CRU_CLK_STAT 1)
def w14_5 := (pw { p0 with waiting := [7, 9], asked := [7, 9], busy := true, target := 3 })
def ss (p : PwrSt) : State := ((pw p).wr Reg.AON_SLEEP_SET0 0x800001).wr Reg.AON_SLEEP_SET1 0x80
def w14_6 := (ss { p0 with seq := 1 })
def w14_7 := (ss { p0 with seq := 1, silent := [0, 23, 31], quiet := [0, 23, 31], sleepTarget := 2 })
def w14_8 := (ss { p0 with seq := 1, silent := [0, 31], quiet := [0, 31], sleepTarget := 2 })
def w14_9 := (ss { p0 with seq := 1, silent := [0, 31], quiet := [0, 31], sleepTarget := 2, asked := [7] })
def w14_10 := (ss { p0 with seq := 2, sleepTarget := 2, inhMin := false })
def w14_11 := (ss { p0 with seq := 2, sleepTarget := 2, inhMin := true })
def w14_12 := (ss { p0 with seq := 2, sleepTarget := 2, inh := false })
def w14_13 := (ss { p0 with seq := 2, sleepTarget := 2, inh := false, latch := [3] })
def w14_14 := (ss { p0 with seq := 4, sleepTarget := 2, inh := false, inhMin := false })
def w14_15 := ((ss { p0 with seq := 3, sleepTarget := 2, inh := false, inhMin := false, latch := [23] }).wr (Reg.AON_WSRC_CFG 23) 0xD)
def sl : State := ((ss { p0 with seq := 4, state := 1, sleepTarget := 1, inh := false, inhMin := false }).wr (Reg.AON_WSRC_CFG 23) 0xD).wr
  (Reg.AON_WSRC_CFG 45) 1
def w14_16 := { sl with pwr := { sl.pwr with seq := 1, state := 5, silent := [23], quiet := [23] } }
def dec : State := ({ sl with pwr := { sl.pwr with sleepTarget := 2 } }.wr (Reg.AON_WSRC_CFG 23) 0xE).wr (Reg.AON_SW_ERR 23) 3
def w14_17 := (dec.wr (Reg.AON_SW_MASK 23) 0)
def w14_18 := (dec.wr (Reg.AON_SW_CFG 23) 0x40000)
def w14_19 := (dec.wr (Reg.AON_SW_CFG 23) 0x30000)
def w14_20 := ((pw { p0 with confirm := [43] }).wr Reg.AON_FW_CFG 0x10005)
def w14_21 := ((pw { p0 with seq := 3, busy := true, target := 4 }).wr Reg.CRU_CLK_STAT 1)
def w14_22 := (pw { p0 with seq := 3, forwarding := false, canPath := false, cold := false })
def w14_23 := (pw { p0 with seq := 3, forwarding := false, canPath := true, cold := false })
def w14_24 := (pw { p0 with seq := 3, boot := 1 })
def w14_25 := (pw { p0 with carry := true })
def w14_26 := ((pw p0).wr Reg.CRU_CLK_STAT 0xF1)
def w14_27 := ((pw p0).wr Reg.CRU_CLK_STAT 0x100)
def w14_28 := ((pw p0).wr Reg.AON_CLK_CFG 1)
def w14_29 := ((pw p0).wr Reg.CRU_CLK_STAT 0x1)
def w14_30 := ((pw p0).wr Reg.CRU_GATE_SEL 0x98)
def gt (st : Nat) : State := ((pw p0).setGate 0x98 ⟨true, false, true⟩).wr (Reg.BLK_STAT 0x98000) (wd st)
def w14_31 := (pw { p0 with ddr := false })
def w14_32 := ((pw p0).wr (itemKey 1 Reg.GLB_PERM_DATA) 0x1F)
def bt : State := { State.reset with pwr := { State.reset.pwr with boot := 2 } }.wr Reg.CRU_CLK_STAT 1
def w14_33 := ((pw { p0 with boot := 3, cold := true, por := true }).wr Reg.CRU_CLK_STAT 1)

/-- The hypotheses of `Obligations.PowerSequencerSleepsAndWakes` hold together, clause by clause. -/
theorem hyps_PowerSequencerSleepsAndWakes :
    (((pw p0).admits 3 Reg.AON_PWR_CMD = true) ∧ ((pw p0).pwr.seq = 0) ∧ ((pw p0).pwr.busy = false) ∧ ((pw p0).rb Reg.AON_NM_CFG 0 = false)) ∧
    (((pw p0).admits 3 Reg.AON_PWR_CMD = true) ∧ ((pw p0).pwr.seq = 0) ∧ ((pw p0).pwr.busy = false) ∧ ((pw p0).rb Reg.AON_NM_CFG 0 = false)) ∧
    ((w14_1.admits 3 Reg.AON_PWR_CMD = true) ∧ (w14_1.pwr.seq = 0) ∧ (w14_1.pwr.busy = true) ∧ (w14_1.inj = [])) ∧
    (((pw p0).admits 3 Reg.AON_PWR_CMD = true) ∧ ((pw p0).pwr.seq = 0) ∧ ((pw p0).pwr.busy = false) ∧ ((pw p0).pwr.state ≠ 3)) ∧
    (((pw p0).admits 3 Reg.AON_PWR_CMD = true) ∧ ((pw p0).pwr.seq = 0) ∧ ((pw p0).pwr.busy = false) ∧ ((pw p0).pwr.state ≠ 4)) ∧
    ((w14_2.admits 3 Reg.AON_PWR_CMD = true) ∧ (w14_2.pwr.seq = 0) ∧ (w14_2.pwr.busy = false) ∧ (w14_2.pwr.state ≠ 5)) ∧
    ((w14_3.pwr.busy = true) ∧ (w14_3.pwr.seq = 0) ∧ (w14_3.pwr.cold = false) ∧ (w14_3.pwr.waiting = []) ∧ (w14_3.rb Reg.CRU_CLK_STAT 0 =
     true)) ∧
    ((w14_4.pwr.busy = true) ∧ (w14_4.pwr.seq = 0) ∧ (w14_4.pwr.cold = false) ∧ (w14_4.pwr.waiting = []) ∧ (w14_4.rb Reg.CRU_CLK_STAT 0 =
     true)) ∧
    ((w14_5.pwr.waiting = [7, 9]) ∧ (w14_5.pwr.busy = true) ∧ (w14_5.pwr.seq = 0) ∧ (w14_5.pwr.deferred = none)) ∧
    ((w14_6.pwr.seq = 1) ∧ (w14_6.inSleepSet 31 = true) ∧ (gtSource 31 = false ∨ w14_6.gtSilent 31 = true)) ∧
    ((w14_7.pwr.seq = 1) ∧ (w14_7.allSilent = true) ∧ (w14_7.pwr.latch = [])) ∧
    ((w14_8.pwr.seq = 1) ∧ (w14_8.allSilent = false)) ∧
    ((w14_9.pwr.seq = 1) ∧ (w14_9.allSilent = false)) ∧
    ((w14_10.pwr.seq = 2) ∧ (w14_10.pwr.inh = true) ∧ (w14_10.pwr.inhMin = false)) ∧
    ((w14_11.pwr.seq = 2) ∧ (w14_11.pwr.inh = true) ∧ (w14_11.pwr.inhMin = true)) ∧
    ((w14_12.pwr.seq = 2) ∧ (w14_12.pwr.inh = false)) ∧
    ((w14_13.pwr.seq = 2) ∧ (w14_13.pwr.inh = false)) ∧
    ((w14_14.pwr.inh = false) ∧ (w14_14.pwr.seq = 4)) ∧
    ((w14_15.pwr.inh = false) ∧ (w14_15.pwr.seq = 3)) ∧
    ((sl.armed 23 = true) ∧ (sl.pwr.seq = 4) ∧ (sl.pwr.inhMin = false) ∧ (¬23 ∈ sl.pwr.latch)) ∧
    ((w14_16.armed 23 = true) ∧ (w14_16.pwr.seq = 1)) ∧
    ((sl.armed 22 = false) ∧ (sl.inj = [])) ∧
    (((sl.wr Reg.AON_TIMER 5).armed 45 = true) ∧ ((sl.wr Reg.AON_TIMER 5).pwr.seq = 4) ∧ ((sl.wr Reg.AON_TIMER 5).pwr.inhMin = false)) ∧
    ((w14_17.decoderOn 23 = true) ∧ (w14_17.swMatch 23 0 false 8 [1] = true) ∧ (w14_17.pwr.seq = 4) ∧ (w14_17.pwr.inhMin = false) ∧
     (w14_17.pwr.state = 1) ∧ (w14_17.rb Reg.AON_WAKE_CAP0 5 = false)) ∧
    ((dec.decoderOn 23 = true) ∧ (dec.swMatch 23 5 true 8 [1] = false)) ∧
    ((w14_18.decoderOn 23 = true) ∧ (false = false) ∧ (w14_18.rf (Reg.AON_SW_ERR 23) 0 6 + 1 ≤ w14_18.rf (Reg.AON_SW_CFG 23) 16 6) ∧
     (w14_18.inj = [])) ∧
    ((w14_19.decoderOn 23 = true) ∧ (false = false) ∧ (w14_19.rf (Reg.AON_SW_CFG 23) 16 6 < w14_19.rf (Reg.AON_SW_ERR 23) 0 6 + 1) ∧
     (w14_19.pwr.seq = 4) ∧ (w14_19.pwr.inhMin = false)) ∧
    ((dec.decoderOn 23 = true)) ∧
    ((43 < 44) ∧ (w14_20.pwr.seq ≠ 3) ∧ (43 ∈ w14_20.pwr.confirm) ∧ (w14_20.rf Reg.AON_FW_CFG 16 4 = 1)) ∧
    ((w14_21.pwr.seq = 3) ∧ (w14_21.pwr.mgsOn = true) ∧ (w14_21.rb Reg.CRU_CLK_STAT 0 = true) ∧ (w14_21.pwr.target = 3 ∨
     w14_21.pwr.forwarding = true)) ∧
    ((w14_22.pwr.seq = 3) ∧ (w14_22.pwr.fwdOn = true) ∧ (w14_22.pwr.cold = false) ∧ (w14_22.pwr.forwarding = false) ∧ (w14_22.pwr.canPath =
     false)) ∧
    ((w14_23.pwr.seq = 3) ∧ (w14_23.pwr.fwdOn = true) ∧ (w14_23.pwr.cold = false) ∧ (w14_23.pwr.forwarding = false) ∧ (w14_23.pwr.canPath =
     true)) ∧
    ((w14_23.pwr.seq = 3) ∧ (w14_23.pwr.fwdOn = true) ∧ (w14_23.pwr.cold = false) ∧ (w14_23.pwr.forwarding = false)) := by
  and_intros <;> decide +kernel

/-- The hypotheses of `Obligations.ClocksResetsAndStartUp` hold together, clause by clause. -/
theorem hyps_ClocksResetsAndStartUp :
    ((State.reset.pwr.inh = true) ∧ (State.reset.pwr.boot = 1)) ∧
    ((w14_24.pwr.seq = 3) ∧ (w14_24.pwr.inh = true) ∧ (w14_24.pwr.boot = 1) ∧ (w14_24.pwr.pgFail = false)) ∧
    ((w14_25.pwr.mgsOn = true) ∧ (2 ≤ w14_25.pwr.boot) ∧ (w14_25.rb Reg.CRU_CLK_STAT 0 = false) ∧ (w14_25.rb Reg.CRU_CLK_STAT 8 = false) ∧
     (w14_25.pwr.seq ≠ 3)) ∧
    (((pw p0).pwr.mgsOn = true) ∧ (2 ≤ (pw p0).pwr.boot) ∧ ((pw p0).frcRuns = false)) ∧
    ((w14_26.pwr.mgsOn = true) ∧ (w14_26.rb Reg.CRU_CLK_STAT 0 = true)) ∧
    ((w14_27.pwr.mgsOn = true) ∧ (w14_27.rb Reg.CRU_CLK_STAT 8 = true)) ∧
    ((w14_28.rb Reg.AON_CLK_CFG 0 = true)) ∧
    ((w14_26.rb Reg.CRU_CLK_STAT 5 = true)) ∧
    ((w14_29.pwr.mgsOn = true) ∧ (w14_29.rb Reg.CRU_CLK_STAT 0 = true) ∧ (w14_29.pwr.serdesOn = true) ∧ (w14_29.rb Reg.CRU_CLK_STAT 6 =
     false)) ∧
    ((w14_30.admits (3 : Nat) Reg.CRU_GATE_CTRL = true) ∧ ((152 : Nat) = w14_30.rf Reg.CRU_GATE_SEL (0 : Nat) (14 : Nat)) ∧ (pageOf (152 :
     Nat) = some (Blk.can, (0 : Nat))) ∧ (gateFixed Blk.can = false) ∧ (w14_30.enabled Blk.can (0 : Nat) = false) ∧ (w14_30.blkOn Blk.can =
     true) ∧ ((w14_30.gate (152 : Nat)).gate = false) ∧ (bit (1 : BitVec (32 : Nat)) (0 : Nat) = true)) ∧
    (((pw p0).admits (3 : Nat) Reg.CRU_GATE_CTRL = true) ∧ ((0 : Nat) = (pw p0).rf Reg.CRU_GATE_SEL (0 : Nat) (14 : Nat)) ∧ (pageOf (0 :
     Nat) = some (Blk.glb, (0 : Nat))) ∧ (gateFixed Blk.glb = true ∨ (pw p0).enabled Blk.glb (0 : Nat) = true) ∧ (((pw p0).gate (0 :
     Nat)).gate = false) ∧ (bit (1 : BitVec (32 : Nat)) (0 : Nat) = true) ∧ ((pw p0).inj = [])) ∧
    ((((gt 2).gate 152).gate = true) ∧ (((gt 2).gate 152).clkOn = true) ∧ ((gt 2).rb (Reg.BLK_STAT (152 * 4096)) 1 = true)) ∧
    ((((gt 0).gate 152).gate = true) ∧ (((gt 0).gate 152).clkOn = true) ∧ (((gt 0).gate 152).deferred = false) ∧ ((gt 0).rb (Reg.BLK_STAT
     (152 * 4096)) 1 = false)) ∧
    ((w14_31.pwr.ddr = false)) ∧
    ((false = false ∨ (pw p0).pwr.ddr = true) ∧ ((pw p0).pwr.inh = true) ∧ ((pw p0).pwr.mgsOn = true) ∧ (2 ≤ (pw p0).pwr.boot)) ∧
    ((true = false ∨ (pw p0).pwr.ddr = true) ∧ ((pw p0).pwr.inh = true) ∧ ((pw p0).pwr.mgsOn = true) ∧ (2 ≤ (pw p0).pwr.boot)) ∧
    (((pw p0).pwr.mgsOn = true)) ∧
    (((pw p0).admits 3 Reg.CRU_RST_CMD = true) ∧ ((pw p0).pwr.mgsOn = true)) ∧
    ((1 ≠ 3) ∧ (w14_32.admits 1 Reg.CRU_RST_CMD = true)) ∧
    ((bt.pwr.boot = 2) ∧ (bt.pwr.mgsOn = true) ∧ (bt.rb Reg.CRU_CLK_STAT 0 = true) ∧ (bt.mgs.running = false) ∧ (bt.pwr.cold = true) ∧
     (bt.mgs.mail = [])) ∧
    ((w14_33.pwr.boot = 3) ∧ (w14_33.mgsUp = true) ∧ (w14_33.rb Reg.CRU_CLK_STAT 0 = true)) := by
  and_intros <;> decide +kernel

end W14

/-! ### Witnesses of 15a -/

namespace W15a

def mg (v : MgsSt) : State := ({ opened with mgs := { v with running := true }, frcNs := 0x1234567890 }.wr (itemKey 0xF0 Reg.GLB_PERM_DATA)
  0x1F)
def mg0 : State := mg MgsSt.reset
def args (s : State) (l : List Nat) : State := (l.zipIdx).foldl (fun s p => s.wr (bankKey 3 (Reg.MGS_ARG p.2)) (wd p.1)) s
def rc (n : Nat) : LogRec := ⟨n, [7]⟩
def mgL : State := mg
  { MgsSt.reset with ckpts := [[1], [2]], logQ := [⟨5, 0x2001, 3, [1]⟩, ⟨5, 0xA001, 3, [1]⟩], sec := [rc 1, rc 2], lastSeq := 2, unacked := 2 }
def mgC : State := mg { MgsSt.reset with commits := [[.write 0 5 (BitVec.ofNat 512 1)], []], syncs := [(1, 1)], jseq := 5 }
def w15a_1 := (mg { MgsSt.reset with unborLevel := 2, unborMinutes := 5, unborMasks := [0xC0, 0xC1] })
def w15a_2 := (mg { MgsSt.reset with down := true })
def envW (m a : Nat) (arg : List Byte) : List Byte :=
  [1, BitVec.ofNat 8 a] ++ List.replicate 34 0 ++ toBE 2 arg.length ++ arg ++ List.replicate 114 0
def envS (s : State) (a : Nat) (arg : List Byte) : State :=
  let b := envW 3 a arg
  ((List.range ((b.length + 3) / 4)).foldl (fun s k => s.wr (bankKey 3 (Reg.MGS_BUF k))
    (wd (beAt ((b.drop (4 * k)).take 4).reverse 0 4))) s).wr (bankKey 3 (Reg.MGS_ARG 0)) (wd b.length)
def e0 : State := envS mg0 0x20 [2, 0, 60]
def w15a_3 := (mg0.wr (bankKey 0 (Reg.MGS_BUF 0)) 0x3200 |>.wr (bankKey 0 (Reg.MGS_ARG 0)) 40)
def atM (s : State) (m : Nat) (b : List Byte) : State :=
  { s.setSlot (mgsSlot m) ((s.slot (mgsSlot m)).accept m) with
    vlt := { s.vlt with ops := [⟨m, VOp.mail, [], b, none, 0⟩] } }
def e1 : State := atM mg0 3 (envW 3 0x20 [2, 0, 60])
def prf15 : Proof := ⟨[1, 2], [], [], 0, 0, 0, 0, 0, [], []⟩
def hp15 (s : State) : State :=
  ((s.wr (Reg.HAD_PORT_CFG 7) 1).wr (Reg.HAD_PORT_STAT 7) (wd 3)).setHport 7 { HeadPort.reset with proofs := [prf15], cand := some prf15 }
def e2 : State := atM (hp15 mg0) 3 (envW 3 0x21 [63, 7])
def e3 : State := atM (mg0.wr (Reg.HAD_PORT_CFG 7) 1) 3 (envW 3 0x21 [63, 7])
def e4 : State := atM mg0 3 (envW 3 0x22 [63])
def e5 : State := atM mg0 3 (envW 3 0x30 ([1, 255, 15] ++ List.replicate 32 9))
def w15a_4 := (envW 3 0x30 ([1, 255, 15] ++ List.replicate 32 9))
def e6 : State := atM mg0 3 (envW 3 0x31 [1, 255])
def e7 : State := atM (mg0.setRst 511 { RstEnt.empty with valid := true, fails := 3 }) 3 (envW 3 0x32 ([1, 255] ++ List.replicate 32 9))
def w15a_5 := (envW 3 0x32 ([1, 255] ++ List.replicate 32 9))

/-- The hypotheses of `Obligations.ManagementMailboxServes` hold together, clause by clause. -/
theorem hyps_ManagementMailboxServes :
    ((mg0.mailReady 4) ∧ (4 ≤ 4)) ∧
    ((mgL.mailReady 3) ∧ (3 ≤ 4)) ∧
    (((args mg0 [192, 196]).mailReady 3) ∧ (3 ≤ 3) ∧ (192 = fld ((args mg0 [192, 196]).rd (bankKey 3 (Reg.MGS_ARG 0))) 0 14) ∧ (196 = fld
     ((args mg0 [192, 196]).rd (bankKey 3 (Reg.MGS_ARG 1))) 0 14) ∧ (0 < 192) ∧ (192 ≤ 196) ∧ ((args mg0 [192, 196]).perfList = [])) ∧
    (((args mg0 [7, 7]).mailReady 3) ∧ (3 ≤ 3) ∧ (7 = fld ((args mg0 [7, 7]).rd (bankKey 3 (Reg.MGS_ARG 0))) 0 14) ∧ (7 = fld ((args mg0 [7,
     7]).rd (bankKey 3 (Reg.MGS_ARG 1))) 0 14) ∧ (0 < 7) ∧ (7 ≤ 7) ∧ ((args mg0 [7, 7]).perfList = [])) ∧
    ((mg0.mailReady 3) ∧ (3 ≤ 3) ∧ (mg0.mgs.jfull = false)) ∧
    ((mgC.mailReady 3) ∧ (3 ≤ 3) ∧ (mgC.mgs.jfull = false)) ∧
    ((mg0.mailReady 3) ∧ (3 ≤ 3) ∧ (delegable (beAt (mg0.mailEnvelope 3) 1 1) = false)) ∧
    (((args mgL [1]).mailReady 3) ∧ (3 ≤ 4) ∧ (1 = fld ((args mgL [1]).rd (bankKey 3 (Reg.MGS_ARG 0))) 0 9)) ∧
    (((args mgL [2]).mailReady 3) ∧ (3 ≤ 4) ∧ (2 = fld ((args mgL [2]).rd (bankKey 3 (Reg.MGS_ARG 0))) 0 9)) ∧
    ((mgL.mailReady 3) ∧ (3 ≤ 3)) ∧
    (((args mgL [1]).mailReady 3) ∧ (3 ≤ 3)) ∧
    (((args mgL [2]).mailReady 3) ∧ (3 ≤ 3)) ∧
    ((mgL.mailReady 3) ∧ (3 ≤ 3) ∧ (mgL.mgs.trial = none)) ∧
    ((mg0.mailReady 3) ∧ (3 ≤ 3)) ∧
    (((args mg0 [305419896]).mailReady 3) ∧ (3 ≤ 3) ∧ (305419896 = BitVec.toNat ((args mg0 [305419896]).rd (bankKey 3 (Reg.MGS_ARG 0)))) ∧
     (journalBytes (journalLive ((args mg0 [305419896]).mgs.journal ++
     [{ kind := 8, format := (args mg0 [305419896]).formatOf 8, jseq := (args mg0 [305419896]).mgs.jseq + 1, bytes := 24, body := JBody.settings 305419896 : JRec }]))
     ≤ journalLimit)) ∧
    ((w15a_1.mailReady 4) ∧ (4 ≤ 4)) ∧
    ((mg0.mailReady 4)) ∧
    ((w15a_2.serves 3 Reg.MGS_CMD (mgsSlot 3)) ∧ (w15a_2.mgsUp = false)) := by
  and_intros <;> decide +kernel

/-- The hypotheses of `Obligations.DelegatedActionsNeedTheirEnvelope` hold together, clause by clause. -/
theorem hyps_DelegatedActionsNeedTheirEnvelope :
    ((e0.mailReady 3) ∧ (3 ≤ 3) ∧ (e0.rf (bankKey 3 (Reg.MGS_BUF 0)) 8 8 = 32) ∧ (authTakes (e0.mailEnvelope 3) = true)) ∧
    ((e0.mailReady 3) ∧ (3 ≤ 3) ∧ (e0.rf (bankKey 3 (Reg.MGS_BUF 0)) 8 8 = 32) ∧ (authTakes (e0.mailEnvelope 3) = true) ∧ (32 = 32)) ∧
    (((envS mg0 33 [63, 7]).mailReady 3) ∧ (3 ≤ 3) ∧ ((envS mg0 33 [63, 7]).rf (bankKey 3 (Reg.MGS_BUF 0)) 8 8 = 33) ∧ (authTakes ((envS mg0
     33 [63, 7]).mailEnvelope 3) = true)) ∧
    (((envS mg0 33 [63, 7]).mailReady 3) ∧ (3 ≤ 3) ∧ ((envS mg0 33 [63, 7]).rf (bankKey 3 (Reg.MGS_BUF 0)) 8 8 = 33) ∧ (authTakes ((envS mg0
     33 [63, 7]).mailEnvelope 3) = true) ∧ (33 = 33)) ∧
    (((envS mg0 34 [63]).mailReady 3) ∧ (3 ≤ 3) ∧ ((envS mg0 34 [63]).rf (bankKey 3 (Reg.MGS_BUF 0)) 8 8 = 34) ∧ (authTakes ((envS mg0 34
     [63]).mailEnvelope 3) = true)) ∧
    (((envS mg0 34 [63]).mailReady 3) ∧ (3 ≤ 3) ∧ ((envS mg0 34 [63]).rf (bankKey 3 (Reg.MGS_BUF 0)) 8 8 = 34) ∧ (authTakes ((envS mg0 34
     [63]).mailEnvelope 3) = true) ∧ (34 = 34)) ∧
    (((envS mg0 48 []).mailReady 3) ∧ (3 ≤ 3) ∧ ((envS mg0 48 []).rf (bankKey 3 (Reg.MGS_BUF 0)) 8 8 = 48) ∧ (authTakes ((envS mg0 48
     []).mailEnvelope 3) = true)) ∧
    (((envS mg0 48 []).mailReady 3) ∧ (3 ≤ 3) ∧ ((envS mg0 48 []).rf (bankKey 3 (Reg.MGS_BUF 0)) 8 8 = 48) ∧ (authTakes ((envS mg0 48
     []).mailEnvelope 3) = true) ∧ (48 = 48)) ∧
    (((envS mg0 49 []).mailReady 3) ∧ (3 ≤ 3) ∧ ((envS mg0 49 []).rf (bankKey 3 (Reg.MGS_BUF 0)) 8 8 = 49) ∧ (authTakes ((envS mg0 49
     []).mailEnvelope 3) = true)) ∧
    (((envS mg0 49 []).mailReady 3) ∧ (3 ≤ 3) ∧ ((envS mg0 49 []).rf (bankKey 3 (Reg.MGS_BUF 0)) 8 8 = 49) ∧ (authTakes ((envS mg0 49
     []).mailEnvelope 3) = true) ∧ (49 = 49)) ∧
    ((w15a_3.mailReady 0) ∧ (0 ≤ 3) ∧ (w15a_3.rf (bankKey 0 (Reg.MGS_BUF 0)) 8 8 = 50) ∧ (authTakes (w15a_3.mailEnvelope 0) = true)) ∧
    ((w15a_3.mailReady 0) ∧ (0 ≤ 3) ∧ (w15a_3.rf (bankKey 0 (Reg.MGS_BUF 0)) 8 8 = 50) ∧ (authTakes (w15a_3.mailEnvelope 0) = true) ∧ (50 =
     50)) ∧
    ((e1.mailAt 3 32 3 (envW 3 32 [2, 0, 60])) ∧ (2 = beAt (envelopeArg (envW 3 32 [2, 0, 60])) 0 1) ∧ (60 = beAt (envelopeArg (envW 3 32
     [2, 0, 60])) 1 2) ∧ (1 ≤ 2) ∧ (2 ≤ 2) ∧ (1 ≤ 60) ∧ (60 ≤ 1440) ∧ (e1.mgs.unborMasks = [])) ∧
    ((e2.mailAt 3 33 2 (envW 3 33 [63, 7])) ∧ (63 = beAt (envelopeArg (envW 3 33 [63, 7])) 0 1) ∧ (7 = beAt (envelopeArg (envW 3 33 [63,
     7])) 1 1) ∧ (63 < 64) ∧ (7 < 8) ∧ (e2.pwr.fwdOn = true) ∧ (e2.rb (Reg.HAD_PORT_CFG 7) 0 = true) ∧ ((e2.head 63).state ≠ 1) ∧
     (e2.hadState 7 < 5) ∧ (Option.any (fun r => (e2.hadFind r.key).isNone) (e2.hport 7).cand = true)) ∧
    ((e3.mailAt 3 33 2 (envW 3 33 [63, 7])) ∧ (63 = beAt (envelopeArg (envW 3 33 [63, 7])) 0 1) ∧ (7 = beAt (envelopeArg (envW 3 33 [63,
     7])) 1 1) ∧ (63 < 64) ∧ (7 < 8) ∧ (e3.pwr.fwdOn = true) ∧ (e3.rb (Reg.HAD_PORT_CFG 7) 0 = true) ∧ ((e3.hport 7).cand = none)) ∧
    ((e4.mailAt 3 34 1 (envW 3 34 [63])) ∧ (63 = beAt (envelopeArg (envW 3 34 [63])) 0 1) ∧ (63 < 64) ∧ (e4.pwr.fwdOn = true) ∧
     (((List.range 8).all fun q => !(decide (e4.hadIndex q = some 63) && decide (e4.hadState q = 3))) = true)) ∧
    ((e5.mailAt 3 48 35 w15a_4) ∧ (511 = beAt (envelopeArg w15a_4) 0 2) ∧ (15 = beAt (envelopeArg w15a_4) 2 1) ∧ (511 < 512) ∧ (15 < 16) ∧
     ((e5.rst 511).valid = false)) ∧
    ((e6.mailAt 3 49 2 (envW 3 49 [1, 255])) ∧ (511 = beAt (envelopeArg (envW 3 49 [1, 255])) 0 2) ∧ (511 < 512)) ∧
    ((e7.mailAt 3 50 34 w15a_5) ∧ (511 = beAt (envelopeArg w15a_5) 0 2) ∧ (511 < 512) ∧ ((e7.rst 511).valid = true)) := by
  and_intros <;> decide +kernel

end W15a

/-! ### Witnesses of 15b -/

namespace W15b

def mg (v : MgsSt) : State := ({ opened with mgs := { v with running := true }, frcNs := 0x1234567890 }.wr (itemKey 0xF0 Reg.GLB_PERM_DATA)
  0x1F)
def mg0 : State := mg MgsSt.reset
def busySlot : Slot := { Slot.reset with busy := true, owner := 3 }
def now15 : Nat := 0x1234567890
def w15b_1 := ((mg { MgsSt.reset with unborLevel := 1, upd := some ⟨3, 1, []⟩ }).setSlot (mgsSlot 3) busySlot)
def w15b_2 := (mg { MgsSt.reset with crashes := [now15 - 50000000000, now15 - 1] })
def w15b_3 := (mg { MgsSt.reset with crashes := [now15 - 60000000000, now15 - 1] })
def w15b_4 := (mg { MgsSt.reset with trial := some (5, 2), bank := 1, confirmed := false })
def w15b_5 := (mg { MgsSt.reset with down := true, bankA := putBytes [] 12 [0, 0, 1, 2] })
def w15b_6 := ((mg
  { MgsSt.reset with down := true, downAt := 5, logQ := [⟨4, 3, 9, []⟩, ⟨5, 0x2002, 15, [1]⟩, ⟨6, 3, 9, [1]⟩, ⟨6, 4, 9, [1]⟩, ⟨6, 3, 9, [2]⟩] }).wr
  (Reg.INT_RAW 0x9000) 8)
def w15b_7 := (mg { MgsSt.reset with down := true, halted := true })
def mgC : State := mg { MgsSt.reset with commits := [[.write 0 5 (BitVec.ofNat 512 1)], []], syncs := [(3, 1)], jseq := 5 }
def bigRec (k : Nat) : JRec := ⟨1, 0, k, 20 + 960000, .tap (List.replicate 1 (.write 0 k 1))⟩
def mgF : State := mg { MgsSt.reset with
  commits := [(List.range 1000).map (fun i => .write 3 i 1)], journal := (List.range 15).map (fun k => ⟨1, 0, k, 0, .tap ((List.range 1000).map (fun i => .write 3 (1000 * (k + 1) + i) 1))⟩) }
def w15b_8 := (mgC.setSlot (mgsSlot 3) busySlot)
def w15b_9 := (mg { MgsSt.reset with commits := [[], []], syncs := [(3, 2)] })
def w15b_10 := (mg { MgsSt.reset with spares := 17 })
def w15b_11 := (mg { MgsSt.reset with journal := [⟨8, 0, 1, 24, .settings 1⟩, ⟨8, 0, 2, 24, .settings 2⟩] })
def reqG : LogReq := ⟨5, 0x2001, 3, [1]⟩
def reqS : LogReq := ⟨5, 0xA001, 3, [1]⟩
def evl (q : LogReq) (v : MgsSt) : State := mg { v with logQ := [q], rateSec := 78 }
def w15b_12 := (evl reqS { MgsSt.reset with lastSeq := 2 ^ 32 - 1 })
def fullRing : List LogRec := (List.range secSize).map (fun k => ⟨k, []⟩)
def w15b_13 := (evl reqS { MgsSt.reset with sec := fullRing, unacked := secSize })
def w15b_14 := (evl reqG { MgsSt.reset with rateCount := 999 })
def w15b_15 := (evl reqG { MgsSt.reset with rateCount := 1000 })
def w15b_16 := (evl reqS { MgsSt.reset with countSec := 4095 })
def w15b_17 := (let s := evl reqS { MgsSt.reset with countSec := 4095 }; { s with vlt := { s.vlt with vstate := 2 } })
def w15b_18 := (mg { MgsSt.reset with supp := 3, suppAt := 77 })

/-- The hypotheses of `Obligations.ManagementRestarts` hold together, clause by clause. -/
theorem hyps_ManagementRestarts :
    ((w15b_1.mgsUp = true) ∧ (w15b_1.mgs.crashes = []) ∧ (w15b_1.mgs.trial = none) ∧ (w15b_1.svc.release = [])) ∧
    ((w15b_2.mgsUp = true) ∧ (w15b_2.mgs.crashes = [now15 - 50000000000, now15 - 1]) ∧ (w15b_2.now < now15 - 50000000000 + 60000000000) ∧
     (w15b_2.now < now15 - 1 + 60000000000)) ∧
    ((w15b_3.mgsUp = true) ∧ (w15b_3.mgs.crashes = [now15 - 60000000000, now15 - 1]) ∧ (now15 - 60000000000 + 60000000000 ≤ w15b_3.now)) ∧
    ((w15b_4.mgsUp = true) ∧ (w15b_4.mgs.trial = some (5, 2)) ∧ (w15b_4.mgs.bank < 2)) ∧
    ((w15b_5.mgs.down = true) ∧ (w15b_5.mgs.halted = false) ∧ (w15b_5.mgs.running = true) ∧ (w15b_5.mgs.mail = []) ∧ (w15b_5.inj = [])) ∧
    ((w15b_6.mgs.down = true) ∧ (w15b_6.mgs.halted = false) ∧ (w15b_6.mgs.running = true) ∧ (w15b_6.mgs.mail = []) ∧ (w15b_6.inj = [])) ∧
    ((w15b_7.mgs.halted = true) ∧ (w15b_7.inj = [])) := by
  and_intros <;> decide +kernel

/-- The hypotheses of `Obligations.JournalAndEventLogRecord` hold together, clause by clause. -/
theorem hyps_JournalAndEventLogRecord :
    ((mgC.mgs.commits = [[Staged.write 0 5 1#512], []]) ∧ (mgC.mgsUp = true)) ∧
    ((w15b_8.mgs.commits = [[Staged.write 0 5 1#512], []]) ∧ (w15b_8.mgsUp = true) ∧ (w15b_8.mgs.syncs = [(3, 1)]) ∧ ((w15b_8.slot (mgsSlot
     3)).busy = true) ∧ (w15b_8.svc.release = [])) ∧
    ((w15b_9.mgs.commits = [[], []]) ∧ (w15b_9.mgsUp = true) ∧ (w15b_9.mgs.syncs = [(3, 2)]) ∧ (2 ≤ 2)) ∧
    ((w15b_10.mgsUp = true) ∧ ([7, 4095] ≠ [])) ∧
    ((w15b_11.mgsUp = true)) ∧
    (((evl reqS MgsSt.reset).mgs.logQ = [reqS]) ∧ ((evl reqS MgsSt.reset).mgsUp = true) ∧ (reqS.sec = true) ∧ ((evl reqS
     MgsSt.reset).mgs.sec.length < secSize) ∧ (1 = ((evl reqS MgsSt.reset).mgs.lastSeq + 1) % 2 ^ 32) ∧ ((evl reqS MgsSt.reset).mgs.unacked
     ≤ (evl reqS MgsSt.reset).mgs.sec.length)) ∧
    ((w15b_12.mgs.logQ = [reqS]) ∧ (w15b_12.mgsUp = true) ∧ (reqS.sec = true) ∧ (w15b_12.mgs.sec.length < secSize) ∧ (0 =
     (w15b_12.mgs.lastSeq + 1) % 2 ^ 32) ∧ (w15b_12.mgs.unacked ≤ w15b_12.mgs.sec.length)) ∧
    ((w15b_13.mgs.logQ = [reqS]) ∧ (w15b_13.mgsUp = true) ∧ (reqS.sec = true) ∧ (w15b_13.mgs.sec.length = secSize) ∧ (1 =
     (w15b_13.mgs.lastSeq + 1) % 2 ^ 32) ∧ (w15b_13.mgs.unacked = secSize)) ∧
    ((w15b_14.mgs.logQ = [reqG]) ∧ (w15b_14.mgsUp = true) ∧ (reqG.sec = false) ∧ (reqG.snapshot = false) ∧ (w15b_14.mgs.gen.length <
     genSize) ∧ (w15b_14.mgs.rateSec = w15b_14.now / 1000000000) ∧ (w15b_14.mgs.rateCount < w15b_14.rf Reg.EVL_CFG 0 16) ∧ (1 =
     (w15b_14.mgs.lastSeq + 1) % 2 ^ 32)) ∧
    ((w15b_15.mgs.logQ = [reqG]) ∧ (w15b_15.mgsUp = true) ∧ (reqG.sec = false) ∧ (reqG.snapshot = false) ∧ (w15b_15.mgs.rateSec =
     w15b_15.now / 1000000000) ∧ (w15b_15.rf Reg.EVL_CFG 0 16 ≤ w15b_15.mgs.rateCount)) ∧
    ((w15b_16.mgs.logQ = [reqS]) ∧ (w15b_16.mgsUp = true) ∧ (reqS.sec = true) ∧ ((w15b_16.mgs.countGen + w15b_16.mgs.countSec + 1) % 4096 =
     0)) ∧
    ((w15b_17.mgs.logQ = [reqS]) ∧ (w15b_17.mgsUp = true) ∧ (reqS.sec = true) ∧ ((w15b_17.mgs.countGen + w15b_17.mgs.countSec + 1) % 4096 =
     0)) ∧
    ((w15b_18.mgsUp = true) ∧ (0 < w15b_18.mgs.supp) ∧ (w15b_18.mgs.suppAt < w15b_18.now / 1000000000) ∧ (w15b_18.mgs.rateSec ≠ w15b_18.now
     / 1000000000) ∧ (0 < w15b_18.rf Reg.EVL_CFG 0 16) ∧ (w15b_18.mgs.gen.length < genSize)) ∧
    ((mg0.mgs.supp = 0 ∨ mg0.now / 1000000000 ≤ mg0.mgs.suppAt)) := by
  and_intros <;> decide +kernel

end W15b

/-! ### Witnesses of 15c -/

namespace W15c

def mg (v : MgsSt) : State := ({ opened with mgs := { v with running := true }, frcNs := 0x1234567890 }.wr (itemKey 0xF2 Reg.GLB_PERM_DATA)
  0x1F)
def mg0 : State := mg MgsSt.reset
def imgHdr (ver flr len : Nat) : List Byte :=
  toBE 4 0x53494C37 ++ toBE 2 1 ++ toBE 2 0 ++ toBE 4 ((State.reset.rd Reg.GLB_CHIP_ID).toNat / 256 * 256) ++ toBE 4 ver ++ toBE 4 0 ++ toBE 4 flr ++
  toBE 4 len ++ toBE 4 0 ++ List.replicate 224 0
def putBuf (s : State) (m : Nat) (b : List Byte) : State :=
  (List.range ((b.length + 3) / 4)).foldl (fun s k => s.wr (bankKey m (Reg.UPD_BUF k)) (wd (beAt ((b.drop (4 * k)).take 4).reverse 0 4))) s
def updB : State := putBuf (((mg { MgsSt.reset with fwVer := 4, floor := 3 }).wr (Reg.MGS_SENS 18) 24000).wr Reg.UPD_CFG 0x1E02) 2 (imgHdr 7
  5 400)
def updF (v : Nat) : State := putBuf (((mg { MgsSt.reset with fwVer := 4, floor := 3 }).wr (Reg.MGS_SENS 18) 24000).wr Reg.UPD_CFG 0x1E02) 2
  (imgHdr v 1 400)
def w15c_1 := (updB.bankBytes 2 (Reg.UPD_BUF 0) 256)
def w15c_2 := ((updF 2).bankBytes 2 (Reg.UPD_BUF 0) 256)
def w15c_3 := ((updB.wr Reg.UPD_CFG 0x1E03))
def ses (st : Nat) : State := (((putBuf (mg
  { MgsSt.reset with fwVer := 4, upd := some ⟨2, st, imgHdr 7 5 4⟩, logQ := [⟨5, 0xA001, 3, [1]⟩] }) 2 [1, 2, 3, 4, 5]).wr Reg.UPD_CFG 0).wr
  (bankKey 2 Reg.UPD_OFFSET) 0x3FFFFC).wr (bankKey 2 Reg.UPD_LEN) 4
def w15c_4 := ((ses 2).wr Reg.UPD_CFG 2)
def tri : State := mg
  { MgsSt.reset with fwVer := 7, trial := some (4, 2), confirmed := false, bank := 1, bankB := putBytes [] 20 [0, 0, 0, 5], floor := 3 }

/-- The hypotheses of `Obligations.UpdateSessionRuns` hold together, clause by clause. -/
theorem hyps_UpdateSessionRuns :
    ((updB.serves 2 Reg.UPD_CMD (updSlot 2)) ∧ (updB.mgsUp = true) ∧ (2 ≤ 3) ∧ (updB.mgs.upd = none) ∧ (updB.mgs.trial = none) ∧ (w15c_1 =
     updB.bankBytes 2 (Reg.UPD_BUF 0) 256)) ∧
    (((updF 2).serves 2 Reg.UPD_CMD (updSlot 2)) ∧ ((updF 2).mgsUp = true) ∧ (2 ≤ 3) ∧ ((updF 2).mgs.upd = none) ∧ ((updF 2).mgs.trial =
     none) ∧ (w15c_2 = (updF 2).bankBytes 2 (Reg.UPD_BUF 0) 256)) ∧
    ((updB.rb Reg.UPD_CFG 0 = false)) ∧
    (((ses 1).serves 2 Reg.UPD_CMD (updSlot 2)) ∧ ((ses 1).mgsUp = true) ∧ (2 ≤ 3) ∧ ((ses 1).mgs.upd = some
     { m := 2, state := 1, header := imgHdr 7 5 4 : UpdSess }) ∧ ((ses 1).mgs.trial = none) ∧ (4194300 = BitVec.toNat ((ses 1).rd (bankKey 2
     Reg.UPD_OFFSET))) ∧ (4 = BitVec.toNat ((ses 1).rd (bankKey 2 Reg.UPD_LEN))) ∧ (4194300 % 4 = 0) ∧ (4 % 4 = 0) ∧ (4 ≤ 4) ∧ (4 ≤ 2048) ∧
     (4194300 + 4 ≤ 4194304) ∧ ((ses 1).mgs.bank < 2)) ∧
    (((ses 1).serves 2 Reg.UPD_CMD (updSlot 2)) ∧ ((ses 1).mgsUp = true) ∧ (2 ≤ 3) ∧ ((ses 1).mgs.upd = some
     { m := 2, state := 1, header := imgHdr 7 5 4 : UpdSess }) ∧ ((ses 1).mgs.trial = none)) ∧
    (((ses 2).serves 2 Reg.UPD_CMD (updSlot 2)) ∧ ((ses 2).mgsUp = true) ∧ (2 ≤ 3) ∧ ((ses 2).mgs.upd = some
     { m := 2, state := 2, header := imgHdr 7 5 4 : UpdSess }) ∧ ((ses 2).mgs.trial = none) ∧ ((ses 2).updGuards = 0) ∧ ((ses 2).mgs.commits
     = []) ∧ ((ses 2).mgs.bank < 2)) ∧
    ((w15c_4.serves 2 Reg.UPD_CMD (updSlot 2)) ∧ (w15c_4.mgsUp = true) ∧ (2 ≤ 3) ∧ (w15c_4.mgs.upd = some
     { m := 2, state := 2, header := imgHdr 7 5 4 : UpdSess }) ∧ (w15c_4.mgs.trial = none) ∧ (w15c_4.updGuards ≠ 0)) ∧
    ((tri.serves 2 Reg.UPD_CMD (updSlot 2)) ∧ (tri.mgsUp = true) ∧ (2 ≤ 3) ∧ (tri.mgs.trial = some (4, 2))) ∧
    ((tri.serves 2 Reg.UPD_CMD (updSlot 2)) ∧ (tri.mgsUp = true) ∧ (2 ≤ 3) ∧ (tri.mgs.upd = none) ∧ (tri.mgs.trial = some (4, 2))) ∧
    (((ses 1).serves 2 Reg.UPD_CMD (updSlot 2)) ∧ ((ses 1).mgsUp = true) ∧ (2 ≤ 3) ∧ ((ses 1).mgs.upd = some
     { m := 2, state := 1, header := imgHdr 7 5 4 : UpdSess }) ∧ ({ m := 2, state := 1, header := imgHdr 7 5 4 : UpdSess }.m = 2)) ∧
    (((ses 1).serves 1 Reg.UPD_CMD (updSlot 1)) ∧ ((ses 1).mgsUp = true) ∧ (1 ≤ 3) ∧ ((ses 1).mgs.upd = some
     { m := 2, state := 1, header := imgHdr 7 5 4 : UpdSess }) ∧ ({ m := 2, state := 1, header := imgHdr 7 5 4 : UpdSess }.m ≠ 1) ∧ ((ses
     1).mgs.trial = none)) ∧
    ((mg0.serves 1 Reg.UPD_CMD (updSlot 1)) ∧ (mg0.mgsUp = true) ∧ (1 ≤ 3) ∧ (mg0.mgs.upd = none) ∧ (mg0.mgs.trial = none)) ∧
    ((tri.mgs.trial = some (4, 2)) ∧ (tri.mgs.bank < 2)) ∧
    ((mg0.mgs.trial = none)) := by
  and_intros <;> decide +kernel

end W15c

/-! ### Witnesses of 15d -/

namespace W15d

def mg (v : MgsSt) : State := ({ opened with mgs := { v with running := true }, frcNs := 0x1234567890 }.wr (itemKey 0xF3 Reg.GLB_PERM_DATA)
  0x1F)
def mg0 : State := mg MgsSt.reset
def goodV : List Nat := [0, 0, 0, 0, 0, 0, 0, 0, 750, 800, 900, 1800, 850, 1100, 600, 1800, 3300, 3300, 1500]
def w15d_1 := (goodV.take 17 ++ [3466, 0])
def w15d_2 := (mg { MgsSt.reset with alarms := [(0, some (0x1234567890 - 100000000))] })
def w15d_3 := (mg { MgsSt.reset with alarms := [(0, some (0x1234567890 - 99999999))] })
def w15d_4 := { mg0 with pwr := { mg0.pwr with serdesOn := false } }
def w15d_5 := (mg0.wr Reg.MGN_CFG 0x14180400)
def w15d_6 := (mg { MgsSt.reset with planRun := true })
def w15d_7 := ((mg { MgsSt.reset with planRun := true, planning := [3] }).setSlot (mgsSlot 3) { Slot.reset with busy := true, owner := 3 })
def w15d_8 := (mg { MgsSt.reset with avsGoal := 860 })
def w15d_9 := (mg { MgsSt.reset with avsGoal := 680 })
def w15d_10 := ((mg { MgsSt.reset with avsGoal := 680 }).wr (Reg.MGS_SENS 7) 461)
def w15d_11 := (mg0.wr (Reg.PFC_CNT_HI 63) 0x80000001)
def w15d_12 := (mg0.wr Reg.GPI_RISE_EN 0x80000000)
def w15d_13 := ((mg0.wr Reg.GPI_FALL_EN 1).wr Reg.GPI_IN 1)
def twS : State := { (mg0.wr Reg.TWN_CFG 0x32181901).wr Reg.TWN_GPIO_MASK 3 with twn := { TwnSt.reset with state := 3 } }
def ros : State := mg0.setRst 511 { RstEnt.empty with valid := true, check := true, fails := 2, result := 1 }
def rosC : State := { ros with twn := { ros.twn with checks := [(511, some [1])] } }

/-- The hypotheses of `Obligations.SensorsMarginsCountersAndLines` hold together, clause by clause. -/
theorem hyps_SensorsMarginsCountersAndLines :
    ((mg0.mgsUp = true) ∧ (0 < 18) ∧ (mg0.sensOn 0 = true) ∧ (goodV[0]? = some 0)) ∧
    ((mg0.mgsUp = true) ∧ (0 < 18) ∧ (mg0.sensOn 0 = true) ∧ ((501 :: List.drop 1 goodV)[0]? = some 501)) ∧
    ((mg0.mgsUp = true) ∧ (17 < 18) ∧ (mg0.sensOn 17 = true) ∧ (w15d_1[17]? = some 3466)) ∧
    ((w15d_2.mgsUp = true) ∧ (0 < 18) ∧ (w15d_2.sensOn 0 = true) ∧ (goodV[0]? = some 0)) ∧
    ((w15d_3.mgsUp = true) ∧ (0 < 18) ∧ (w15d_3.sensOn 0 = true) ∧ (goodV[0]? = some 0)) ∧
    ((w15d_4.mgsUp = true) ∧ (12 < 19) ∧ (w15d_4.sensOn 12 = false)) ∧
    ((mg0.mgsUp = true) ∧ (goodV[18]? = some 1500)) ∧
    ((mg0.mgsUp = true) ∧ (mg0.rb Reg.MGN_CFG 0 = true)) ∧
    ((w15d_5.rb Reg.MGN_CFG 0 = false)) ∧
    ((w15d_6.mgs.planRun = true) ∧ (w15d_6.mgs.planning = []) ∧ (26 = min (w15d_6.rf Reg.MGN_CFG 24 8 + 6) 255)) ∧
    ((w15d_7.mgs.planRun = true) ∧ (w15d_7.mgs.planning = [3]) ∧ ((w15d_7.slot (mgsSlot 3)).busy = true) ∧ (w15d_7.svc.release = []) ∧ (30 ≤
     65535)) ∧
    ((w15d_8.rf Reg.MGN_AVS 0 10 < w15d_8.mgs.avsGoal) ∧ (w15d_8.mgs.avsGoal ≤ 860)) ∧
    ((w15d_9.mgs.avsGoal < w15d_9.rf Reg.MGN_AVS 0 10)) ∧
    ((w15d_10.mgs.avsGoal < w15d_10.rf Reg.MGN_AVS 0 10)) ∧
    ((mg0.mgs.avsGoal = mg0.rf Reg.MGN_AVS 0 10)) ∧
    ((mg0.admits 3 (Reg.PFC_CNT_LO 63) = true) ∧ (63 < 64) ∧ (mg0.rb (Reg.PFC_SEL 63) 16 = false) ∧ (mg0.perfList = [])) ∧
    ((w15d_11.admits 3 (Reg.PFC_CNT_HI 63) = true) ∧ (63 < 64) ∧ (w15d_11.rb (Reg.PFC_SEL 63) 16 = false) ∧ (w15d_11.perfList = [])) ∧
    ((31 < 32) ∧ (w15d_12.pwr.mgsOn = true) ∧ (w15d_12.rb Reg.GPI_IN 31 = false)) ∧
    ((31 < 32) ∧ (mg0.pwr.mgsOn = true) ∧ (mg0.rb Reg.GPI_IN 31 = false)) ∧
    ((0 < 32) ∧ (w15d_13.pwr.mgsOn = true) ∧ (w15d_13.rb Reg.GPI_IN 0 = true)) ∧
    ((mg0.admits 3 Reg.GPI_OUT = true) ∧ (mg0.gpioHeld = 0)) ∧
    ((twS.admits 3 Reg.GPI_OUT = true) ∧ ((twS.rd Reg.GPI_OUT ^^^ 241) &&& twS.gpioHeld ≠ 0)) ∧
    ((ros.mgsUp = true) ∧ (List.map Prod.fst ros.twn.roster = [511]) ∧ ((ros.rst 511).valid = true) ∧ ((ros.rst 511).check = true)) ∧
    ((rosC.mgsUp = true) ∧ (Tab.get (fun x => none) rosC.twn.checks 511 = some [1])) ∧
    ((rosC.mgsUp = true) ∧ (Tab.get (fun x => none) rosC.twn.checks 511 = some [1]) ∧ ([1, 2] ≠ [])) := by
  and_intros <;> decide +kernel

end W15d

/-! ### Witnesses of 16 -/

namespace W16

def mg (v : SvcSt) : State := ({ opened with svc := v, frcNs := 0x1234567890 }.wr (itemKey 0x100 Reg.GLB_PERM_DATA) 0x1F)
def mg0 : State := mg SvcSt.reset
def run (p : Part) : State := mg { SvcSt.reset with parts := [(1, { p with cores := 6 })] }
def pr : Part := { Part.reset with state := 1, wdt := 5, version := 9, base := 0x08001000, len := 0x1000 }
def wrS (s : State) (len off : Nat) : State :=
  ((s.wr (bankKey 3 Reg.SVC_LEN) (wd len)).wr (bankKey 3 Reg.SVC_OFFSET) (wd off)).wr (bankKey 3 (Reg.SVC_BUF 0)) 0x04030201
def w16_1 := (wrS (run { pr with state := 2 }) 4 8)
def imgH (magic base len blen fl : Nat) (dig : List Byte) : List Byte :=
  toBE 4 magic ++ toBE 2 1 ++ toBE 2 fl ++ toBE 4 ((State.reset.rd Reg.GLB_CHIP_ID).toNat / 256 * 256) ++ toBE 4 7 ++ toBE 1 2 ++ [0] ++ toBE 2 0xF ++
  toBE 4 100 ++ toBE 8 base ++ toBE 8 len ++ toBE 4 blen ++ toBE 4 0 ++ (List.replicate 8 [0, 1, 0, 0]).flatten ++ dig
def stg : State := mg { SvcSt.reset with mem := putBytes [] 0x08000000 (imgH 0x53564331 0x08010000 0x1000 4 0 []) }
def bnk (fl : Nat) : State :=
  let body := imgH 0x53564331 0x08010000 0x1000 4 fl [] ++ List.replicate 250 0 ++ toBE 4 0x53564344 ++ toBE 4 1 ++ toBE 4 0 ++ toBE 4 0
  { mg0 with mgs := { mg0.mgs with bankA := putBytes [] 24 (toBE 4 body.length ++ List.replicate 228 0 ++ body) } }
def img0 (fl : Nat) : SvcImg := ((bnk fl).storedImg 0).getD ⟨[], [], []⟩
def ld (m : Nat) : State := (run { pr with state := 2, loading := some m }).setSlot (svcSlot 3) { Slot.reset with busy := true, owner := 3 }
def clm (r : Nat) : State := mg { SvcSt.reset with parts := [(1, { pr with cores := 6 })], claims := [(r, 2)] }
def w16_2 := ((clm 0).setSlot (tapSlot 2) { Slot.reset with valid := true, owner := 2 })
def w16_3 := ((clm 0).setSlot (tapSlot 2) { Slot.reset with busy := true, owner := 2 })
def hal : State := { bnk 0 with svc := { SvcSt.reset with parts := [(1, { pr with cores := 2, state := 3, stored := some 0 })] } }
def w16_4 := (run { pr with restarts := [0x1234567890 - 5, 0x1234567890 - 4] })
def w16_5 := (run { pr with state := 3 })
def w16_6 := (mg { SvcSt.reset with parts := [(1, { pr with cores := 6 })], claims := [(7, 4)] })
def w16_7 := (mg0.wr Reg.SVC_DDR_CFG 0x15)
def prP (l : List Pmp) : State :=
  { run pr with svc := { (run pr).svc with pmp := [(1, l), (2, l)], mem := putBytes [] 0x08001000 [1, 2, 3, 4] } }
def w16_8 := (prP [⟨0x08001000, 0x1000, true⟩, ⟨0x08002000, 0x1000, false⟩])
def w16_9 := (prP [⟨0x08001000, 0x1000, true⟩])
def w16_10 := (prP [⟨0x18010000, 0x200, true⟩])
def w16_11 := ((prP []).wr Reg.PFC_UREAD 0x80)
def w16_12 := { run pr with svc := { (run pr).svc with core := 1 } }

/-- The bank of `bnk 1` holds one image. -/
theorem bnk_one_image : ∀ k : Nat, k ≠ 0 → (bnk 1).storedImg k = none := by
  intro k hk
  have h : ((bnk 1).imgDir.map (·.2)) = some 1 := by decide +kernel
  unfold State.storedImg
  cases hd : (bnk 1).imgDir with
  | none => rfl
  | some p =>
    rw [hd] at h
    have h2 : p.2 = 1 := by simpa using h
    simp only [h2]
    rw [if_neg (by omega)]

/-- The hypotheses of `Obligations.ServiceClusterRunsPartitions` hold together, clause by clause. -/
theorem hyps_ServiceClusterRunsPartitions :
    (((wrS mg0 4 4194300).serves 3 Reg.SVC_CMD (svcSlot 3)) ∧ (3 ≤ 3) ∧ (0 < 4) ∧ (4 = (wrS mg0 4 4194300).rf (bankKey 3 Reg.SVC_LEN) 0 12)
     ∧ (4 ≤ 4) ∧ (4 ≤ 2048) ∧ (4 % 4 = 0) ∧ (138412028 = ((wrS mg0 4 4194300).part 0).window + BitVec.toNat ((wrS mg0 4 4194300).rd (bankKey
     3 Reg.SVC_OFFSET)) / 4 * 4) ∧ (((wrS mg0 4 4194300).part 0).state = 0 ∨ ((wrS mg0 4 4194300).part 0).state = 2) ∧ (((wrS mg0 4
     4194300).part 0).loading = none) ∧ ((wrS mg0 4 4194300).memIn 138412028 4 = true)) ∧
    ((w16_1.serves 3 Reg.SVC_CMD (svcSlot 3)) ∧ (3 ≤ 3) ∧ (1 < 4) ∧ (4 = w16_1.rf (bankKey 3 Reg.SVC_LEN) 0 12) ∧ (4 ≤ 4) ∧ (4 ≤ 2048) ∧ (4
     % 4 = 0) ∧ (134221832 = (w16_1.part 1).window + BitVec.toNat (w16_1.rd (bankKey 3 Reg.SVC_OFFSET)) / 4 * 4) ∧ ((w16_1.part 1).state = 0
     ∨ (w16_1.part 1).state = 2) ∧ ((w16_1.part 1).loading = none) ∧ (w16_1.memIn 134221832 4 = true)) ∧
    (((wrS (run pr) 4 8).serves 3 Reg.SVC_CMD (svcSlot 3)) ∧ (3 ≤ 3) ∧ (1 < 4) ∧ (4 ≤ (wrS (run pr) 4 8).rf (bankKey 3 Reg.SVC_LEN) 0 12) ∧
     ((wrS (run pr) 4 8).rf (bankKey 3 Reg.SVC_LEN) 0 12 ≤ 2048) ∧ ((wrS (run pr) 4 8).rf (bankKey 3 Reg.SVC_LEN) 0 12 % 4 = 0) ∧ (((wrS
     (run pr) 4 8).part 1).state = 1 ∨ ((wrS (run pr) 4 8).part 1).state = 3)) ∧
    ((stg.serves 3 Reg.SVC_CMD (svcSlot 3)) ∧ (3 ≤ 3) ∧ (1 < 4) ∧ ((if false = true then stg.storedImg 0 else some (stg.stagedImg 1)) = some
     (stg.stagedImg 1)) ∧ ((stg.stagedImg 1).part < 4)) ∧
    (((bnk 0).serves 3 Reg.SVC_CMD (svcSlot 3)) ∧ (3 ≤ 3) ∧ (1 < 4) ∧ ((if true = true then (bnk 0).storedImg 0 else some ((bnk 0).stagedImg
     1)) = some (img0 0)) ∧ ((img0 0).part < 4)) ∧
    (((bnk 0).serves 3 Reg.SVC_CMD (svcSlot 3)) ∧ (3 ≤ 3) ∧ ((bnk 0).storedImg 1 = none)) ∧
    ((((ld 3).part 1).loading = some 3) ∧ (((ld 3).part 1).state ≠ 1) ∧ ((ld 3).svc.release = []) ∧ (3 < 5 → ((ld 3).slot (svcSlot 3)).busy
     = true)) ∧
    ((((ld 8).part 1).loading = some 8) ∧ (((ld 8).part 1).state ≠ 1) ∧ ((ld 8).svc.release = []) ∧ (8 < 5 → ((ld 8).slot (svcSlot 8)).busy
     = true)) ∧
    ((((run pr).part 1).loading = none)) ∧
    (((run pr).serves 3 Reg.SVC_CMD (svcSlot 3)) ∧ (3 ≤ 3) ∧ (((run pr).part 1).state = 1) ∧ ((run pr).svc.claims = [])) ∧
    ((w16_2.serves 3 Reg.SVC_CMD (svcSlot 3)) ∧ (3 ≤ 3) ∧ (3 ≠ 2) ∧ ((w16_2.part 1).state = 1) ∧ (w16_2.svc.claims = [(0, 1 + 1)]) ∧ (0 =
     0)) ∧
    ((w16_3.serves 3 Reg.SVC_CMD (svcSlot 3)) ∧ (3 ≤ 3) ∧ (3 ≠ 2) ∧ ((w16_3.part 1).state = 1) ∧ (w16_3.svc.claims = [(0, 1 + 1)]) ∧ (0 =
     0)) ∧
    (((run pr).serves 3 Reg.SVC_CMD (svcSlot 3)) ∧ (3 ≤ 3) ∧ (((run pr).part 1).state = 1) ∧ (((run pr).part 1).stored = none) ∧ ((run
     pr).svc.claims = [])) ∧
    ((hal.serves 3 Reg.SVC_CMD (svcSlot 3)) ∧ (3 ≤ 3) ∧ ((hal.part 1).state = 3) ∧ ((hal.part 1).stored = some 0) ∧ (hal.storedImg 0 = some
     (img0 0)) ∧ ((img0 0).part = 1)) ∧
    ((((run pr).part 1).state = 1) ∧ (((run pr).part 1).wdt ≠ 0) ∧ (((run pr).part 1).restarts = []) ∧ (((run pr).part 1).stored = none) ∧
     ((run pr).svc.claims = [])) ∧
    (((w16_4.part 1).state = 1) ∧ ((w16_4.part 1).wdt ≠ 0) ∧ ((w16_4.part 1).restarts = [78187493520 - 5, 78187493520 - 4]) ∧ (w16_4.now <
     78187493520 - 5 + 60000000000) ∧ (w16_4.now < 78187493520 - 4 + 60000000000) ∧ (w16_4.svc.claims = [])) ∧
    ((((run pr).part 1).state = 1) ∧ (((run pr).part 1).restarts = []) ∧ (((run pr).part 1).stored = none) ∧ ((run pr).svc.claims = [])) ∧
    (((w16_5.part 1).state ≠ 1)) ∧
    (((run pr).partOf 2 = some (1, let __src := pr;
     { state := __src.state, cores := 6, stored := __src.stored, version := __src.version, base := __src.base, len := __src.len, pages := __src.pages, ways := __src.ways, wdt := __src.wdt, entry := __src.entry, restarts := __src.restarts, loading := __src.loading, serviced := __src.serviced : Part }))) ∧
    ((∀ (k : Nat), k < 8 → mg0.storedImg k = none)) ∧
    (((run pr).partOf 2 = some (1, let __src := pr;
     { state := __src.state, cores := 6, stored := __src.stored, version := __src.version, base := __src.base, len := __src.len, pages := __src.pages, ways := __src.ways, wdt := __src.wdt, entry := __src.entry, restarts := __src.restarts, loading := __src.loading, serviced := __src.serviced : Part }))) ∧
    ((w16_6.partOf 2 = some (1, let __src := pr;
     { state := __src.state, cores := 6, stored := __src.stored, version := __src.version, base := __src.base, len := __src.len, pages := __src.pages, ways := __src.ways, wdt := __src.wdt, entry := __src.entry, restarts := __src.restarts, loading := __src.loading, serviced := __src.serviced : Part }))) ∧
    (((clm 0).partOf 2 = some (1, let __src := pr;
     { state := __src.state, cores := 6, stored := __src.stored, version := __src.version, base := __src.base, len := __src.len, pages := __src.pages, ways := __src.ways, wdt := __src.wdt, entry := __src.entry, restarts := __src.restarts, loading := __src.loading, serviced := __src.serviced : Part }))) ∧
    ((w16_7.pwr.svcOn = true) ∧ (w16_7.rb Reg.SVC_DDR_CFG 0 = true)) ∧
    ((mg0.pwr.svcOn = false ∨ mg0.rb Reg.SVC_DDR_CFG 0 = false)) ∧
    ((mg0.serves 4 Reg.SVC_CMD (svcSlot 4))) ∧
    (((run pr).partOf 1 = some (1, let __src := pr;
     { state := __src.state, cores := 6, stored := __src.stored, version := __src.version, base := __src.base, len := __src.len, pages := __src.pages, ways := __src.ways, wdt := __src.wdt, entry := __src.entry, restarts := __src.restarts, loading := __src.loading, serviced := __src.serviced : Part }))
     ∧ (67108864 ≤ 536870912) ∧ ((run pr).regionOf 536870912 = none ∨ (run pr).pmpLets 1 536870912 = false)) ∧
    (((run pr).partOf 1 = some (1, let __src := pr;
     { state := __src.state, cores := 6, stored := __src.stored, version := __src.version, base := __src.base, len := __src.len, pages := __src.pages, ways := __src.ways, wdt := __src.wdt, entry := __src.entry, restarts := __src.restarts, loading := __src.loading, serviced := __src.serviced : Part }))
     ∧ (67108864 ≤ 536870912) ∧ ((run pr).regionOf 536870912 = none ∨ (run pr).pmpLets 1 536870912 = false) ∧ ((run pr).inj = [])) ∧
    ((w16_8.partOf 1 = some (1, let __src := pr;
     { state := __src.state, cores := 6, stored := __src.stored, version := __src.version, base := __src.base, len := __src.len, pages := __src.pages, ways := __src.ways, wdt := __src.wdt, entry := __src.entry, restarts := __src.restarts, loading := __src.loading, serviced := __src.serviced : Part }))
     ∧ (67108864 ≤ 134225920) ∧ (w16_8.regionOf 134225920 = none ∨ w16_8.pmpLets 1 134225920 = false)) ∧
    ((w16_8.partOf 1 = some (1, let __src := pr;
     { state := __src.state, cores := 6, stored := __src.stored, version := __src.version, base := __src.base, len := __src.len, pages := __src.pages, ways := __src.ways, wdt := __src.wdt, entry := __src.entry, restarts := __src.restarts, loading := __src.loading, serviced := __src.serviced : Part }))
     ∧ (67108864 ≤ 134225920) ∧ (w16_8.regionOf 134225920 = none ∨ w16_8.pmpLets 1 134225920 = false) ∧ (w16_8.inj = [])) ∧
    ((w16_9.partOf 1 = some (1, let __src := pr;
     { state := __src.state, cores := 6, stored := __src.stored, version := __src.version, base := __src.base, len := __src.len, pages := __src.pages, ways := __src.ways, wdt := __src.wdt, entry := __src.entry, restarts := __src.restarts, loading := __src.loading, serviced := __src.serviced : Part }))
     ∧ (67108864 ≤ 134221824) ∧ (w16_9.regionOf 134221824 = some Region.memory) ∧ (w16_9.pmpLets 1 134221824 = true)) ∧
    ((w16_9.partOf 1 = some (1, let __src := pr;
     { state := __src.state, cores := 6, stored := __src.stored, version := __src.version, base := __src.base, len := __src.len, pages := __src.pages, ways := __src.ways, wdt := __src.wdt, entry := __src.entry, restarts := __src.restarts, loading := __src.loading, serviced := __src.serviced : Part }))
     ∧ (67108864 ≤ 134221824) ∧ (w16_9.regionOf 134221824 = some Region.memory) ∧ (w16_9.pmpLets 1 134221824 = true) ∧ (w16_9.inj = [])) ∧
    ((w16_10.partOf 1 = some (1, let __src := pr;
     { state := __src.state, cores := 6, stored := __src.stored, version := __src.version, base := __src.base, len := __src.len, pages := __src.pages, ways := __src.ways, wdt := __src.wdt, entry := __src.entry, restarts := __src.restarts, loading := __src.loading, serviced := __src.serviced : Part }))
     ∧ (63 < 64) ∧ (402719224 = 402718720 + 8 * 63) ∧ (w16_10.pmpLets 1 402719224 = true)) ∧
    ((w16_11.partOf 1 = some (1, let __src := pr;
     { state := __src.state, cores := 6, stored := __src.stored, version := __src.version, base := __src.base, len := __src.len, pages := __src.pages, ways := __src.ways, wdt := __src.wdt, entry := __src.entry, restarts := __src.restarts, loading := __src.loading, serviced := __src.serviced : Part }))
     ∧ (63 < 64) ∧ (402719224 = 402718720 + 8 * 63) ∧ (w16_11.pmpLets 1 402719224 = true)) ∧
    ((16 ≤ 16) ∧ (16 < 24) ∧ (w16_12.partOf w16_12.svc.core = some (1, let __src := pr;
     { state := __src.state, cores := 6, stored := __src.stored, version := __src.version, base := __src.base, len := __src.len, pages := __src.pages, ways := __src.ways, wdt := __src.wdt, entry := __src.entry, restarts := __src.restarts, loading := __src.loading, serviced := __src.serviced : Part }))
     ∧ (w16_12.ringPart (16 + 16) ≠ 1)) := by
  and_intros <;> decide +kernel

/-- The hypotheses of a clause of `Obligations.ServiceClusterRunsPartitions` hold together. -/
theorem hyps_ServiceClusterRunsPartitions_1 :
    ((bnk (1 : Nat)).storedImg (0 : Nat) = some (img0 (1 : Nat))) ∧ ((img0 (1 : Nat)).autostart = true) ∧ ((img0 (1 : Nat)).part < (4 :
     Nat)) ∧ (∀ (k : Nat), k ≠ (0 : Nat) → (bnk (1 : Nat)).storedImg k = none) :=
  ⟨by decide +kernel, by decide +kernel, by decide +kernel, bnk_one_image⟩

end W16

end Sys2Proof.Tests

end
end

section
/-! Every command completes, and what its operation can change lies in its footprint. -/

namespace Sys2Proof.Machine

/-- A command answers a next state from every state. -/
theorem exec_completes (c : Instr) (s : State) : ∃ t, exec c s = .next t := by
  cases c <;> exact ⟨_, rfl⟩

theorem footprint_keeps_pending (c : Instr) : Area.pending ∉ footprint c := by
  have h : (footprint c).contains .pending = false := by cases c <;> rfl
  intro hm
  rw [List.contains_iff_mem.mpr hm] at h
  cases h

/-- What a command changes lies in its footprint: each arm is its operation's change lemma (Laws/ChgCmd), stated for that list of areas. -/
theorem exec_chg {c : Instr} {s t : State} (h : exec c s = .next t) : Chg (footprint c) s t := by
  cases c with
  | regWrite => exact execRegWrite_chg (.self _) (.refl s) t h
  | multiwordLowRead => exact execMultiwordLowRead_chg (.self _) (.refl s) t h
  | writeMaskWrite => exact execWriteMaskWrite_chg (.self _) (.refl s) t h
  | fenceReq => exact execFenceReq_chg (.self _) (.refl s) t h
  | fenceRetired => exact execFenceRetired_chg (.self _) (.refl s) t h
  | intRawClear => exact execIntRawClear_chg (.self _) (.refl s) t h
  | intForce => exact execIntForce_chg (.self _) (.refl s) t h
  | softRst => exact execSoftRst_chg (.self _) (.refl s) t h
  | softRstDone => exact execSoftRstDone_chg (.self _) (.refl s) t h
  | quiesceReq => exact execQuiesceReq_chg (.self _) (.refl s) t h
  | quiesced => exact execQuiesced_chg (.self _) (.refl s) t h
  | blkLock => exact execBlkLock_chg (.self _) (.refl s) t h
  | errCapRearm => exact execErrCapRearm_chg (.self _) (.refl s) t h
  | cntSnap => exact execCntSnap_chg (.self _) (.refl s) t h
  | cntSnapAll => exact execCntSnapAll_chg (.self _) (.refl s) t h
  | snapDone => exact execSnapDone_chg (.self _) (.refl s) t h
  | cntSnapAck => exact execCntSnapAck_chg (.self _) (.refl s) t h
  | counterClr => exact execCounterClr_chg (.self _) (.refl s) t h
  | resAck => exact execResAck_chg (.self _) (.refl s) t h
  | tapRead => exact execTapRead_chg (.self _) (.refl s) t h
  | tapWrite => exact execTapWrite_chg (.self _) (.refl s) t h
  | tapLookup => exact execTapLookup_chg (.self _) (.refl s) t h
  | tapInsert => exact execTapInsert_chg (.self _) (.refl s) t h
  | tapDelete => exact execTapDelete_chg (.self _) (.refl s) t h
  | tapCommit => exact execTapCommit_chg (.self _) (.refl s) t h
  | tapCommitDone => exact execTapCommitDone_chg (.self _) (.refl s) t h
  | tapDiscard => exact execTapDiscard_chg (.self _) (.refl s) t h
  | tapOpDone => exact execTapOpDone_chg (.self _) (.refl s) t h
  | ethFrameRx => exact execEthFrameRx_chg (.self _) (.refl s) t h
  | frameVerdict => exact execFrameVerdict_chg (.self _) (.refl s) t h
  | learnCommit => exact execLearnCommit_chg (.self _) (.refl s) t h
  | freezeTick => exact execFreezeTick_chg (.self _) (.refl s) t h
  | ageTick => exact execAgeTick_chg (.self _) (.refl s) t h
  | lrnAgeWrite => exact execLrnAgeWrite_chg (.self _) (.refl s) t h
  | seedWrite => exact execSeedWrite_chg (.self _) (.refl s) t h
  | anchorBatch => exact execAnchorBatch_chg (.self _) (.refl s) t h
  | anchorAnnounce => exact execAnchorAnnounce_chg (.self _) (.refl s) t h
  | anchorWithdraw => exact execAnchorWithdraw_chg (.self _) (.refl s) t h
  | anchorSyncReq => exact execAnchorSyncReq_chg (.self _) (.refl s) t h
  | anchorSyncData => exact execAnchorSyncData_chg (.self _) (.refl s) t h
  | anchorSyncEnd => exact execAnchorSyncEnd_chg (.self _) (.refl s) t h
  | anchorSilenceTimeout => exact execAnchorSilenceTimeout_chg (.self _) (.refl s) t h
  | anchorDisable => exact execAnchorDisable_chg (.self _) (.refl s) t h
  | egressSelect => exact execEgressSelect_chg (.self _) (.refl s) t h
  | txComplete => exact execTxComplete_chg (.self _) (.refl s) t h
  | preempt => exact execPreempt_chg (.self _) (.refl s) t h
  | rakeAuditStart => exact execRakeAuditStart_chg (.self _) (.refl s) t h
  | rakeAuditDone => exact execRakeAuditDone_chg (.self _) (.refl s) t h
  | edyRateWrite => exact execEdyRateWrite_chg (.self _) (.refl s) t h
  | flowSeedApply => exact execFlowSeedApply_chg (.self _) (.refl s) t h
  | qcfgWrite => exact execQcfgWrite_chg (.self _) (.refl s) t h
  | gapMarker => exact execGapMarker_chg (.self _) (.refl s) t h
  | fifoReset => exact execFifoReset_chg (.self _) (.refl s) t h
  | weiApply => exact execWeiApply_chg (.self _) (.refl s) t h
  | weiLoad => exact execWeiLoad_chg (.self _) (.refl s) t h
  | sluChange => exact execSluChange_chg (.self _) (.refl s) t h
  | sluCancel => exact execSluCancel_chg (.self _) (.refl s) t h
  | sluConfigChange => exact execSluConfigChange_chg (.self _) (.refl s) t h
  | gateEvent => exact execGateEvent_chg (.self _) (.refl s) t h
  | sluGateEnWrite => exact execSluGateEnWrite_chg (.self _) (.refl s) t h
  | sluGclWrite => exact execSluGclWrite_chg (.self _) (.refl s) t h
  | verifyTimer => exact execVerifyTimer_chg (.self _) (.refl s) t h
  | verifyRespond => exact execVerifyRespond_chg (.self _) (.refl s) t h
  | pauseFrameRx => exact execPauseFrameRx_chg (.self _) (.refl s) t h
  | pauseExpire => exact execPauseExpire_chg (.self _) (.refl s) t h
  | budRequest => exact execBudRequest_chg (.self _) (.refl s) t h
  | budQuery => exact execBudQuery_chg (.self _) (.refl s) t h
  | budRelease => exact execBudRelease_chg (.self _) (.refl s) t h
  | budRead => exact execBudRead_chg (.self _) (.refl s) t h
  | budRecheck => exact execBudRecheck_chg (.self _) (.refl s) t h
  | budCmdDone => exact execBudCmdDone_chg (.self _) (.refl s) t h
  | budAutoRecheck => exact execBudAutoRecheck_chg (.self _) (.refl s) t h
  | budEnable => exact execBudEnable_chg (.self _) (.refl s) t h
  | proofRx => exact execProofRx_chg (.self _) (.refl s) t h
  | headRequestRx => exact execHeadRequestRx_chg (.self _) (.refl s) t h
  | proofVerified => exact execProofVerified_chg (.self _) (.refl s) t h
  | verdictSigned => exact execVerdictSigned_chg (.self _) (.refl s) t h
  | hadRespTimeout => exact execHadRespTimeout_chg (.self _) (.refl s) t h
  | hadRetryTimeout => exact execHadRetryTimeout_chg (.self _) (.refl s) t h
  | hadPeriod => exact execHadPeriod_chg (.self _) (.refl s) t h
  | observedMinute => exact execObservedMinute_chg (.self _) (.refl s) t h
  | lifeRecordTimer => exact execLifeRecordTimer_chg (.self _) (.refl s) t h
  | headEnWrite => exact execHeadEnWrite_chg (.self _) (.refl s) t h
  | hadEnrol => exact execHadEnrol_chg (.self _) (.refl s) t h
  | hadRetire => exact execHadRetire_chg (.self _) (.refl s) t h
  | hadRead => exact execHadRead_chg (.self _) (.refl s) t h
  | hadReadmit => exact execHadReadmit_chg (.self _) (.refl s) t h
  | hadReadLife => exact execHadReadLife_chg (.self _) (.refl s) t h
  | freApply => exact execFreApply_chg (.self _) (.refl s) t h
  | freLoad => exact execFreLoad_chg (.self _) (.refl s) t h
  | freReset => exact execFreReset_chg (.self _) (.refl s) t h
  | freRecoveryTimeout => exact execFreRecoveryTimeout_chg (.self _) (.refl s) t h
  | freLatentTest => exact execFreLatentTest_chg (.self _) (.refl s) t h
  | freLatentReset => exact execFreLatentReset_chg (.self _) (.refl s) t h
  | fgdDeadline => exact execFgdDeadline_chg (.self _) (.refl s) t h
  | fgdStaleRepeat => exact execFgdStaleRepeat_chg (.self _) (.refl s) t h
  | fgdApply => exact execFgdApply_chg (.self _) (.refl s) t h
  | fgdLoad => exact execFgdLoad_chg (.self _) (.refl s) t h
  | linkPcsUp => exact execLinkPcsUp_chg (.self _) (.refl s) t h
  | linkHoldExpire => exact execLinkHoldExpire_chg (.self _) (.refl s) t h
  | linkPcsDown => exact execLinkPcsDown_chg (.self _) (.refl s) t h
  | trainTimeout => exact execTrainTimeout_chg (.self _) (.refl s) t h
  | eptEnable => exact execEptEnable_chg (.self _) (.refl s) t h
  | eptCfgWrite => exact execEptCfgWrite_chg (.self _) (.refl s) t h
  | retrain => exact execRetrain_chg (.self _) (.refl s) t h
  | eptSleep => exact execEptSleep_chg (.self _) (.refl s) t h
  | eptWake => exact execEptWake_chg (.self _) (.refl s) t h
  | tc10SleepReqRx => exact execTc10SleepReqRx_chg (.self _) (.refl s) t h
  | tc10SleepAgreed => exact execTc10SleepAgreed_chg (.self _) (.refl s) t h
  | tc10SleepTimeout => exact execTc10SleepTimeout_chg (.self _) (.refl s) t h
  | tc10WakeDetect => exact execTc10WakeDetect_chg (.self _) (.refl s) t h
  | sdActivity => exact execSdActivity_chg (.self _) (.refl s) t h
  | plcaBeaconTimeout => exact execPlcaBeaconTimeout_chg (.self _) (.refl s) t h
  | plcaBeaconRx => exact execPlcaBeaconRx_chg (.self _) (.refl s) t h
  | hiBer => exact execHiBer_chg (.self _) (.refl s) t h
  | hifDmaPortWrite => exact execHifDmaPortWrite_chg (.self _) (.refl s) t h
  | dmaPortStatus => exact execDmaPortStatus_chg (.self _) (.refl s) t h
  | ringEnable => exact execRingEnable_chg (.self _) (.refl s) t h
  | ringDisable => exact execRingDisable_chg (.self _) (.refl s) t h
  | txDb => exact execTxDb_chg (.self _) (.refl s) t h
  | rxDb => exact execRxDb_chg (.self _) (.refl s) t h
  | hifTxStart => exact execHifTxStart_chg (.self _) (.refl s) t h
  | rxDescComplete => exact execRxDescComplete_chg (.self _) (.refl s) t h
  | dmaError => exact execDmaError_chg (.self _) (.refl s) t h
  | msixCoalTimer => exact execMsixCoalTimer_chg (.self _) (.refl s) t h
  | msixUnmask => exact execMsixUnmask_chg (.self _) (.refl s) t h
  | pcieReset => exact execPcieReset_chg (.self _) (.refl s) t h
  | qspiWrite => exact execQspiWrite_chg (.self _) (.refl s) t h
  | qspiRead => exact execQspiRead_chg (.self _) (.refl s) t h
  | qspiStatus => exact execQspiStatus_chg (.self _) (.refl s) t h
  | ibmRead => exact execIbmRead_chg (.self _) (.refl s) t h
  | ibmWrite => exact execIbmWrite_chg (.self _) (.refl s) t h
  | ibmFence => exact execIbmFence_chg (.self _) (.refl s) t h
  | canFrameRx => exact execCanFrameRx_chg (.self _) (.refl s) t h
  | cauVerdict => exact execCauVerdict_chg (.self _) (.refl s) t h
  | canCopyLinked => exact execCanCopyLinked_chg (.self _) (.refl s) t h
  | canArbitration => exact execCanArbitration_chg (.self _) (.refl s) t h
  | canTxSuccess => exact execCanTxSuccess_chg (.self _) (.refl s) t h
  | canTxError => exact execCanTxError_chg (.self _) (.refl s) t h
  | canArbLost => exact execCanArbLost_chg (.self _) (.refl s) t h
  | canBusError => exact execCanBusError_chg (.self _) (.refl s) t h
  | canIdleDetect => exact execCanIdleDetect_chg (.self _) (.refl s) t h
  | canPex => exact execCanPex_chg (.self _) (.refl s) t h
  | canBoffDelay => exact execCanBoffDelay_chg (.self _) (.refl s) t h
  | txlAged => exact execTxlAged_chg (.self _) (.refl s) t h
  | recover => exact execRecover_chg (.self _) (.refl s) t h
  | txlFlush => exact execTxlFlush_chg (.self _) (.refl s) t h
  | rxqPop => exact execRxqPop_chg (.self _) (.refl s) t h
  | l0Release => exact execL0Release_chg (.self _) (.refl s) t h
  | canEnable => exact execCanEnable_chg (.self _) (.refl s) t h
  | listenWrite => exact execListenWrite_chg (.self _) (.refl s) t h
  | listenTakeEffect => exact execListenTakeEffect_chg (.self _) (.refl s) t h
  | linFrameRx => exact execLinFrameRx_chg (.self _) (.refl s) t h
  | linResponseTimeout => exact execLinResponseTimeout_chg (.self _) (.refl s) t h
  | linCopyLinked => exact execLinCopyLinked_chg (.self _) (.refl s) t h
  | linHeaderRx => exact execLinHeaderRx_chg (.self _) (.refl s) t h
  | linSlot => exact execLinSlot_chg (.self _) (.refl s) t h
  | linSwitch => exact execLinSwitch_chg (.self _) (.refl s) t h
  | linSleep => exact execLinSleep_chg (.self _) (.refl s) t h
  | linWake => exact execLinWake_chg (.self _) (.refl s) t h
  | linGotosleepRx => exact execLinGotosleepRx_chg (.self _) (.refl s) t h
  | linInactivity => exact execLinInactivity_chg (.self _) (.refl s) t h
  | linWakeRx => exact execLinWakeRx_chg (.self _) (.refl s) t h
  | linWakeRetry => exact execLinWakeRetry_chg (.self _) (.refl s) t h
  | linEnable => exact execLinEnable_chg (.self _) (.refl s) t h
  | cflRxItem => exact execCflRxItem_chg (.self _) (.refl s) t h
  | cflTimeout => exact execCflTimeout_chg (.self _) (.refl s) t h
  | cflDeferredTx => exact execCflDeferredTx_chg (.self _) (.refl s) t h
  | cflCyclicTx => exact execCflCyclicTx_chg (.self _) (.refl s) t h
  | cflTunHold => exact execCflTunHold_chg (.self _) (.refl s) t h
  | cflItemComplete => exact execCflItemComplete_chg (.self _) (.refl s) t h
  | cflEnable => exact execCflEnable_chg (.self _) (.refl s) t h
  | syncRx => exact execSyncRx_chg (.self _) (.refl s) t h
  | followUpRx => exact execFollowUpRx_chg (.self _) (.refl s) t h
  | syncTimeout => exact execSyncTimeout_chg (.self _) (.refl s) t h
  | gmSyncTimer => exact execGmSyncTimer_chg (.self _) (.refl s) t h
  | pdelayTimer => exact execPdelayTimer_chg (.self _) (.refl s) t h
  | pdelayReqRx => exact execPdelayReqRx_chg (.self _) (.refl s) t h
  | pdelayRespRx => exact execPdelayRespRx_chg (.self _) (.refl s) t h
  | gptpOtherRx => exact execGptpOtherRx_chg (.self _) (.refl s) t h
  | domStep => exact execDomStep_chg (.self _) (.refl s) t h
  | domSlew => exact execDomSlew_chg (.self _) (.refl s) t h
  | domSetRate => exact execDomSetRate_chg (.self _) (.refl s) t h
  | domUnlock => exact execDomUnlock_chg (.self _) (.refl s) t h
  | slewDone => exact execSlewDone_chg (.self _) (.refl s) t h
  | domEnable => exact execDomEnable_chg (.self _) (.refl s) t h
  | domRateMaxWrite => exact execDomRateMaxWrite_chg (.self _) (.refl s) t h
  | timFrcIncWrite => exact execTimFrcIncWrite_chg (.self _) (.refl s) t h
  | srvOffset => exact execSrvOffset_chg (.self _) (.refl s) t h
  | hfrcMeasure => exact execHfrcMeasure_chg (.self _) (.refl s) t h
  | vltInfo => exact execVltInfo_chg (.self _) (.refl s) t h
  | vltGenerate => exact execVltGenerate_chg (.self _) (.refl s) t h
  | vltDerive => exact execVltDerive_chg (.self _) (.refl s) t h
  | vltCommit => exact execVltCommit_chg (.self _) (.refl s) t h
  | vltDiscard => exact execVltDiscard_chg (.self _) (.refl s) t h
  | vltRevoke => exact execVltRevoke_chg (.self _) (.refl s) t h
  | vltDelete => exact execVltDelete_chg (.self _) (.refl s) t h
  | vltSign => exact execVltSign_chg (.self _) (.refl s) t h
  | vltVerify => exact execVltVerify_chg (.self _) (.refl s) t h
  | vltHash => exact execVltHash_chg (.self _) (.refl s) t h
  | vltMac => exact execVltMac_chg (.self _) (.refl s) t h
  | vltEncrypt => exact execVltEncrypt_chg (.self _) (.refl s) t h
  | vltDecrypt => exact execVltDecrypt_chg (.self _) (.refl s) t h
  | vltRandom => exact execVltRandom_chg (.self _) (.refl s) t h
  | vltAttest => exact execVltAttest_chg (.self _) (.refl s) t h
  | authNonce => exact execAuthNonce_chg (.self _) (.refl s) t h
  | nonceExpire => exact execNonceExpire_chg (.self _) (.refl s) t h
  | vltClaim => exact execVltClaim_chg (.self _) (.refl s) t h
  | vltTransfer => exact execVltTransfer_chg (.self _) (.refl s) t h
  | tamperClear => exact execTamperClear_chg (.self _) (.refl s) t h
  | pageUnlock => exact execPageUnlock_chg (.self _) (.refl s) t h
  | setCosign => exact execSetCosign_chg (.self _) (.refl s) t h
  | updLock => exact execUpdLock_chg (.self _) (.refl s) t h
  | wipe => exact execWipe_chg (.self _) (.refl s) t h
  | reinit => exact execReinit_chg (.self _) (.refl s) t h
  | importCmd => exact execImport_chg (.self _) (.refl s) t h
  | vltAuthoriseDelegated => exact execVltAuthoriseDelegated_chg (.self _) (.refl s) t h
  | vaultOpDone => exact execVaultOpDone_chg (.self _) (.refl s) t h
  | engineKeyLoad => exact execEngineKeyLoad_chg (.self _) (.refl s) t h
  | orphanGraceExpire => exact execOrphanGraceExpire_chg (.self _) (.refl s) t h
  | tamperClass1 => exact execTamperClass1_chg (.self _) (.refl s) t h
  | tamperClass2 => exact execTamperClass2_chg (.self _) (.refl s) t h
  | tamperMesh => exact execTamperMesh_chg (.self _) (.refl s) t h
  | counterReserve => exact execCounterReserve_chg (.self _) (.refl s) t h
  | cauFvRecord => exact execCauFvRecord_chg (.self _) (.refl s) t h
  | vaultStartup => exact execVaultStartup_chg (.self _) (.refl s) t h
  | vaultS4 => exact execVaultS4_chg (.self _) (.refl s) t h
  | lceSaApply => exact execLceSaApply_chg (.self _) (.refl s) t h
  | lceSaRetire => exact execLceSaRetire_chg (.self _) (.refl s) t h
  | lceSaLoad => exact execLceSaLoad_chg (.self _) (.refl s) t h
  | lceTxAnWrite => exact execLceTxAnWrite_chg (.self _) (.refl s) t h
  | cauApply => exact execCauApply_chg (.self _) (.refl s) t h
  | cauRetire => exact execCauRetire_chg (.self _) (.refl s) t h
  | cauLoad => exact execCauLoad_chg (.self _) (.refl s) t h
  | heartbeatTimer => exact execHeartbeatTimer_chg (.self _) (.refl s) t h
  | heartbeatRx => exact execHeartbeatRx_chg (.self _) (.refl s) t h
  | hbEdge => exact execHbEdge_chg (.self _) (.refl s) t h
  | hbMissed => exact execHbMissed_chg (.self _) (.refl s) t h
  | arbClaimTimer => exact execArbClaimTimer_chg (.self _) (.refl s) t h
  | arbClaimSeen => exact execArbClaimSeen_chg (.self _) (.refl s) t h
  | arbPresencePulse => exact execArbPresencePulse_chg (.self _) (.refl s) t h
  | arbPresenceSeen => exact execArbPresenceSeen_chg (.self _) (.refl s) t h
  | takeover => exact execTakeover_chg (.self _) (.refl s) t h
  | twinStartWait => exact execTwinStartWait_chg (.self _) (.refl s) t h
  | twinStartTimeout => exact execTwinStartTimeout_chg (.self _) (.refl s) t h
  | digestSend => exact execDigestSend_chg (.self _) (.refl s) t h
  | digestRx => exact execDigestRx_chg (.self _) (.refl s) t h
  | divergeRx => exact execDivergeRx_chg (.self _) (.refl s) t h
  | selftestDone => exact execSelftestDone_chg (.self _) (.refl s) t h
  | selftestRx => exact execSelftestRx_chg (.self _) (.refl s) t h
  | selftestTimeout => exact execSelftestTimeout_chg (.self _) (.refl s) t h
  | roleOfferRx => exact execRoleOfferRx_chg (.self _) (.refl s) t h
  | roleAcceptRx => exact execRoleAcceptRx_chg (.self _) (.refl s) t h
  | roleSwitch => exact execRoleSwitch_chg (.self _) (.refl s) t h
  | rotateTimer => exact execRotateTimer_chg (.self _) (.refl s) t h
  | twinSyncReqRx => exact execTwinSyncReqRx_chg (.self _) (.refl s) t h
  | twinSyncDataRx => exact execTwinSyncDataRx_chg (.self _) (.refl s) t h
  | twinSyncEndRx => exact execTwinSyncEndRx_chg (.self _) (.refl s) t h
  | attestReqRx => exact execAttestReqRx_chg (.self _) (.refl s) t h
  | attestRepRx => exact execAttestRepRx_chg (.self _) (.refl s) t h
  | rotate => exact execRotate_chg (.self _) (.refl s) t h
  | forcePrimary => exact execForcePrimary_chg (.self _) (.refl s) t h
  | yield => exact execYield_chg (.self _) (.refl s) t h
  | resync => exact execResync_chg (.self _) (.refl s) t h
  | twinEnable => exact execTwinEnable_chg (.self _) (.refl s) t h
  | shadowAgeExpire => exact execShadowAgeExpire_chg (.self _) (.refl s) t h
  | cfgDigestRecompute => exact execCfgDigestRecompute_chg (.self _) (.refl s) t h
  | rosterCheck => exact execRosterCheck_chg (.self _) (.refl s) t h
  | rosterReport => exact execRosterReport_chg (.self _) (.refl s) t h
  | pwrCmdDormant => exact execPwrCmdDormant_chg (.self _) (.refl s) t h
  | pwrCmdSelective => exact execPwrCmdSelective_chg (.self _) (.refl s) t h
  | pwrCmdMgsOnly => exact execPwrCmdMgsOnly_chg (.self _) (.refl s) t h
  | pwrCmdPartial => exact execPwrCmdPartial_chg (.self _) (.refl s) t h
  | pwrCmdFull => exact execPwrCmdFull_chg (.self _) (.refl s) t h
  | transDone => exact execTransDone_chg (.self _) (.refl s) t h
  | transAbort => exact execTransAbort_chg (.self _) (.refl s) t h
  | memberSilent => exact execMemberSilent_chg (.self _) (.refl s) t h
  | sleepPoint => exact execSleepPoint_chg (.self _) (.refl s) t h
  | sleepFail => exact execSleepFail_chg (.self _) (.refl s) t h
  | inhRelease => exact execInhRelease_chg (.self _) (.refl s) t h
  | switchesOpen => exact execSwitchesOpen_chg (.self _) (.refl s) t h
  | wakeLatch => exact execWakeLatch_chg (.self _) (.refl s) t h
  | swFrameMatch => exact execSwFrameMatch_chg (.self _) (.refl s) t h
  | swDecodeError => exact execSwDecodeError_chg (.self _) (.refl s) t h
  | aonTimerExpire => exact execAonTimerExpire_chg (.self _) (.refl s) t h
  | minOffEnd => exact execMinOffEnd_chg (.self _) (.refl s) t h
  | powerGood => exact execPowerGood_chg (.self _) (.refl s) t h
  | pgTimeout => exact execPgTimeout_chg (.self _) (.refl s) t h
  | xinaStable => exact execXinaStable_chg (.self _) (.refl s) t h
  | xinaStartTimeout => exact execXinaStartTimeout_chg (.self _) (.refl s) t h
  | xinaLost => exact execXinaLost_chg (.self _) (.refl s) t h
  | xinaRetry => exact execXinaRetry_chg (.self _) (.refl s) t h
  | xinbStable => exact execXinbStable_chg (.self _) (.refl s) t h
  | pllUnlock => exact execPllUnlock_chg (.self _) (.refl s) t h
  | pllLocked => exact execPllLocked_chg (.self _) (.refl s) t h
  | gate => exact execGate_chg (.self _) (.refl s) t h
  | gateClose => exact execGateClose_chg (.self _) (.refl s) t h
  | falseWakeWindow => exact execFalseWakeWindow_chg (.self _) (.refl s) t h
  | wakeComplete => exact execWakeComplete_chg (.self _) (.refl s) t h
  | checkpointRestore => exact execCheckpointRestore_chg (.self _) (.refl s) t h
  | powerOnReset => exact execPowerOnReset_chg (.self _) (.refl s) t h
  | brownout => exact execBrownout_chg (.self _) (.refl s) t h
  | resetN => exact execResetN_chg (.self _) (.refl s) t h
  | warm => exact execWarm_chg (.self _) (.refl s) t h
  | bootVerifyDone => exact execBootVerifyDone_chg (.self _) (.refl s) t h
  | restoreComplete => exact execRestoreComplete_chg (.self _) (.refl s) t h
  | lockstepMismatch => exact execLockstepMismatch_chg (.self _) (.refl s) t h
  | watchdogExpire => exact execWatchdogExpire_chg (.self _) (.refl s) t h
  | mgsRestartDone => exact execMgsRestartDone_chg (.self _) (.refl s) t h
  | infoCmd => exact execInfo_chg (.self _) (.refl s) t h
  | journalSave => exact execJournalSave_chg (.self _) (.refl s) t h
  | journalSync => exact execJournalSync_chg (.self _) (.refl s) t h
  | authorise => exact execAuthorise_chg (.self _) (.refl s) t h
  | unborUnlock => exact execUnborUnlock_chg (.self _) (.refl s) t h
  | headEnrol => exact execHeadEnrol_chg (.self _) (.refl s) t h
  | headRetire => exact execHeadRetire_chg (.self _) (.refl s) t h
  | rosterAdd => exact execRosterAdd_chg (.self _) (.refl s) t h
  | rosterRemove => exact execRosterRemove_chg (.self _) (.refl s) t h
  | rosterReplace => exact execRosterReplace_chg (.self _) (.refl s) t h
  | logCheckpoint => exact execLogCheckpoint_chg (.self _) (.refl s) t h
  | logFlush => exact execLogFlush_chg (.self _) (.refl s) t h
  | secAck => exact execSecAck_chg (.self _) (.refl s) t h
  | restart => exact execRestart_chg (.self _) (.refl s) t h
  | marginRun => exact execMarginRun_chg (.self _) (.refl s) t h
  | setIds => exact execSetIds_chg (.self _) (.refl s) t h
  | unborLock => exact execUnborLock_chg (.self _) (.refl s) t h
  | journalCommitRecord => exact execJournalCommitRecord_chg (.self _) (.refl s) t h
  | journalCompact => exact execJournalCompact_chg (.self _) (.refl s) t h
  | eventLogWrite => exact execEventLogWrite_chg (.self _) (.refl s) t h
  | suppressed => exact execSuppressed_chg (.self _) (.refl s) t h
  | sensorSample => exact execSensorSample_chg (.self _) (.refl s) t h
  | begin => exact execBegin_chg (.self _) (.refl s) t h
  | updWrite => exact execUpdWrite_chg (.self _) (.refl s) t h
  | finish => exact execFinish_chg (.self _) (.refl s) t h
  | activate => exact execActivate_chg (.self _) (.refl s) t h
  | confirm => exact execConfirm_chg (.self _) (.refl s) t h
  | abort => exact execAbort_chg (.self _) (.refl s) t h
  | updTrialExpire => exact execUpdTrialExpire_chg (.self _) (.refl s) t h
  | marginPeriod => exact execMarginPeriod_chg (.self _) (.refl s) t h
  | marginRunDone => exact execMarginRunDone_chg (.self _) (.refl s) t h
  | avsStep => exact execAvsStep_chg (.self _) (.refl s) t h
  | unborHelp => exact execUnborHelp_chg (.self _) (.refl s) t h
  | unborInfo => exact execUnborInfo_chg (.self _) (.refl s) t h
  | unlock => exact execUnlock_chg (.self _) (.refl s) t h
  | lock => exact execLock_chg (.self _) (.refl s) t h
  | rd => exact execRd_chg (.self _) (.refl s) t h
  | wr => exact execWr_chg (.self _) (.refl s) t h
  | log => exact execLog_chg (.self _) (.refl s) t h
  | sens => exact execSens_chg (.self _) (.refl s) t h
  | fence => exact execFence_chg (.self _) (.refl s) t h
  | unborExpire => exact execUnborExpire_chg (.self _) (.refl s) t h
  | pfcCntWrite => exact execPfcCntWrite_chg (.self _) (.refl s) t h
  | svcWrite => exact execSvcWrite_chg (.self _) (.refl s) t h
  | svcLoad => exact execSvcLoad_chg (.self _) (.refl s) t h
  | svcLoadDone => exact execSvcLoadDone_chg (.self _) (.refl s) t h
  | svcStop => exact execSvcStop_chg (.self _) (.refl s) t h
  | svcRestart => exact execSvcRestart_chg (.self _) (.refl s) t h
  | svcWdtExpire => exact execSvcWdtExpire_chg (.self _) (.refl s) t h
  | svcWdtService => exact execSvcWdtService_chg (.self _) (.refl s) t h
  | svcAutostart => exact execSvcAutostart_chg (.self _) (.refl s) t h
  | svcClaimRead => exact execSvcClaimRead_chg (.self _) (.refl s) t h
  | svcClaimRelease => exact execSvcClaimRelease_chg (.self _) (.refl s) t h
  | ddrReady => exact execDdrReady_chg (.self _) (.refl s) t h
  | gpioEdge => exact execGpioEdge_chg (.self _) (.refl s) t h
  | gpiOutWrite => exact execGpiOutWrite_chg (.self _) (.refl s) t h
  | sleepLatch => exact execSleepLatch_chg (.self _) (.refl s) t h
  | swFrameDecoded => exact execSwFrameDecoded_chg (.self _) (.refl s) t h
  | sdCollision => exact execSdCollision_chg (.self _) (.refl s) t h
  | followUpTimeout => exact execFollowUpTimeout_chg (.self _) (.refl s) t h

/-- A tick without a command keeps the canonical form too. -/
theorem State.Inv.idle {s : State} (h : s.Inv) : s.idle.Inv :=
  (State.idle_chg (.self _) (.refl s)).inv h

/-- The queue is no part of the canonical form. -/
theorem State.Inv.withPending {s : State} (h : s.Inv) (q : List Instr) : { s with pending := q }.Inv := ⟨h.regs, h.tbl⟩

end Sys2Proof.Machine

open Sys2Proof Sys2Proof.Machine

/-- Settles O3: each command's change is within its footprint, by the change lemma of its operation. -/
theorem everyCommandCompletesInItsFootprint : Obligations.EveryCommandCompletesInItsFootprint := by
  unfold Obligations.EveryCommandCompletesInItsFootprint
  intro c s
  obtain ⟨t, ht⟩ := exec_completes c s
  have hc : Chg (footprint c) s t := exec_chg ht
  exact ⟨footprint_keeps_pending c, t, ht, hc.same, hc.out⟩

/-- Settles O4: a step is a tick or a command of the queue, and the change lemma of either keeps the canonical form. -/
theorem everyStepKeepsTheCanonicalForm : Obligations.EveryStepKeepsTheCanonicalForm := by
  unfold Obligations.EveryStepKeepsTheCanonicalForm
  intro s hs
  unfold step
  split
  · exact ⟨s.idle, rfl, hs.idle⟩
  · next c q _ =>
    obtain ⟨t, ht⟩ := exec_completes c { s with pending := q }
    exact ⟨t, ht, (exec_chg ht).inv (hs.withPending q)⟩

end

section
/-! The state after reset. -/

namespace Sys2Proof.Machine

/-- Only the two causes of the power-on reset are listed (log entries 2, 20): every other register reads its map's reset value. -/
theorem State.reset_rd {a : Nat} (hc : a ≠ Reg.CRU_RST_CAUSE) (hw : a ≠ Reg.AON_WAKE_CAUSE) : State.reset.rd a = regReset a := by
  simp only [State.rd, State.reset, Tab.get, hc.symm, hw.symm, if_false]

theorem regReset_pfcFilt : ∀ i, i < 64 → regReset (Reg.PFC_FILT i) = 0x1F07 := by decide

theorem State.reset_inv : State.reset.Inv := ⟨by decide, rfl⟩

end Sys2Proof.Machine

open Sys2Proof Sys2Proof.Machine

/-- Settles O2: the state after reset has no item listed but the two causes, so everything reads as unlisted. -/
theorem resetHoldsTheTabledValues : Obligations.ResetHoldsTheTabledValues := by
  unfold Obligations.ResetHoldsTheTabledValues
  refine ⟨State.reset_inv, rfl, rfl, fun _ _ => rfl, fun _ => ⟨rfl, rfl, rfl⟩, ?_, ?_, ?_, ?_, ?_, ?_, ?_, ?_, ?_, ?_⟩
  case refine_10 =>
    intro i hi
    rw [State.reset_rd (by unfold Reg.PFC_FILT Reg.CRU_RST_CAUSE; omega) (by unfold Reg.PFC_FILT Reg.AON_WAKE_CAUSE; omega)]
    exact regReset_pfcFilt i hi
  all_goals
    rw [State.reset_rd (by decide) (by decide)]
    rfl

end

section
/-! Writes of ordinary registers, reads of multi-word values and writes of hash seeds (R12, R54, R69). -/

namespace Sys2Proof.Machine

/-! ### Pages and the registers on them -/

/-- No page lies beyond the Service Cluster's (Table 2-1). -/
theorem pageOf_beyond {pg : Nat} (h : 0x100 < pg) : pageOf pg = none := by
  unfold pageOf
  repeat rw [if_neg (by omega)]

theorem pageOf_le {pg : Nat} {x : Blk × Nat} (h : pageOf pg = some x) : pg ≤ 0x100 := by
  rcases Nat.lt_or_ge 0x100 pg with hlt | hle
  · rw [pageOf_beyond hlt] at h
    cases h
  · exact hle

/-- A page number is that of its block's page (Table 2-1, read row by row). -/
theorem pageOf_base {pg i : Nat} {b : Blk} (h : pageOf pg = some (b, i)) : pageBase b i = pg * 0x1000 := by
  have rows : ∀ pg, pg < 0x101 → (pageOf pg).all (fun x => decide (pageBase x.1 x.2 = pg * 0x1000)) = true := by decide +kernel
  have row := rows pg (Nat.lt_succ_of_le (pageOf_le h))
  rw [h] at row
  exact of_decide_eq_true row

/-- A page has one block. -/
theorem pageOf_ne {pg pg' i i' : Nat} {b b' : Blk} (h : pageOf pg = some (b, i)) (h' : pageOf pg' = some (b', i')) (hb : b ≠ b') :
    pg ≠ pg' := by
  rintro rfl
  rw [h] at h'
  exact hb (Prod.mk.inj (Option.some.inj h')).1

theorem findDesc_mem {off k : Nat} {d : RegDesc} : ∀ {l : List RegDesc}, findDesc l off = some (d, k) → d ∈ l
  | [], h => by cases h
  | e :: l, h => by
    unfold findDesc at h
    extract_lets w at h
    split at h
    · cases h; exact List.mem_cons_self
    · split at h
      · cases h; exact List.mem_cons_self
      · exact List.mem_cons_of_mem _ (findDesc_mem h)

/-- The key of a register outside the performance counters' page lies outside it too: a bank is above every page. -/
theorem RegDesc.key_ne_pfc (d : RegDesc) (m : Nat) {a : Nat} (ha : a / 0x1000 ≠ 4) : d.key m a < 0x4000 ∨ 0x5000 ≤ d.key m a := by
  unfold RegDesc.key bankKey
  split
  · rcases Nat.eq_zero_or_pos m with rfl | hm
    · omega
    · exact .inr (by omega)
  · omega

/-! ### Ordinary writes -/

theorem State.plainWrite_eq {a i k : Nat} {b : Blk} {d : RegDesc} (hp : pageOf (a / 0x1000) = some (b, i))
    (hr : findReg b (a % 0x1000) = some (d, k)) (s : State) (m : Nat) (v : Word) :
    s.plainWrite m a v = s.wr (d.key m a) (d.store (s.rd (d.key m a)) v) := by
  unfold State.plainWrite
  rw [hp]
  simp only [hr]

/-- The blocks none of whose registers has a rule of its own for a write. -/
theorem State.ownWrite_plain {b : Blk} (hb : b ∈ [Blk.icl, .srt, .rak, .vlt, .cau, .upd, .evl]) (s : State) (i m a : Nat) (v : Word) :
    s.ownWrite b i m a v = s.plainWrite m a v := by
  simp only [List.mem_cons, List.not_mem_nil, or_false] at hb
  rcases hb with rfl | rfl | rfl | rfl | rfl | rfl | rfl <;> rfl

theorem State.cfgWrite_own {a i : Nat} {b : Blk} (hp : pageOf (a / 0x1000) = some (b, i)) (ho : 0x80 ≤ a % 0x1000) (s : State) (m : Nat)
    (v : Word) : s.cfgWrite m a v = s.ownWrite b i m a v := by
  unfold State.cfgWrite
  rw [hp]
  exact if_neg (by omega)

/-- An RW or RWL register beyond the common header is written by its configuration rule. -/
theorem State.storeWrite_cfg {a i k : Nat} {b : Blk} {d : RegDesc} (hp : pageOf (a / 0x1000) = some (b, i)) (ho : 0x80 ≤ a % 0x1000)
    (hr : findReg b (a % 0x1000) = some (d, k)) (hd : d.acc = .rw ∨ d.acc = .rwl) (s : State) (m : Nat) (v : Word) :
    s.storeWrite m a v = s.cfgWrite m a v := by
  unfold State.storeWrite
  rw [hp]
  simp only [hr]
  rw [if_neg (by omega)]
  rcases hd with hd | hd <;> rw [hd]

theorem State.regWrite_ok {s : State} {m a core : Nat} (h : (s.asCore m core).admits m a = true) (v : Word) :
    s.regWrite m a v true core = ((s.asCore m core).noted m a).storeWrite m a v :=
  State.access_ok h _

/-- An address on a page is no core's own (log entry 96). -/
theorem State.anyWrite_page {a : Nat} {x : Blk × Nat} (hp : pageOf (a / 0x1000) = some x) (s : State) (m : Nat) (v : Word) (full : Bool)
    (core : Nat) : s.anyWrite m a v full core = s.regWrite m a v full core := by
  have := pageOf_le hp
  exact if_neg (by omega)

theorem State.anyRead_page {a : Nat} {x : Blk × Nat} (hp : pageOf (a / 0x1000) = some x) (s : State) (m : Nat) (full : Bool)
    (core : Nat) (user : Bool) : s.anyRead m a full core user = s.busRead m a full core := by
  have := pageOf_le hp
  exact if_neg (by omega)

/-! ### The core that master 2 presents -/

theorem State.asCore_regs (s : State) (m core : Nat) : (s.asCore m core).regs = s.regs := by unfold State.asCore; split <;> rfl
theorem State.asCore_inj (s : State) (m core : Nat) : (s.asCore m core).inj = s.inj := by unfold State.asCore; split <;> rfl
theorem State.asCore_out (s : State) (m core : Nat) : (s.asCore m core).out = s.out := by unfold State.asCore; split <;> rfl
theorem State.asCore_hold (s : State) (m core n a : Nat) : (s.asCore m core).hold n a = s.hold n a := by unfold State.asCore; split <;> rfl
theorem State.asCore_readViol (s : State) (m core a : Nat) (full : Bool) : (s.asCore m core).readViol a full = s.readViol a full := by
  unfold State.asCore; split <;> rfl

theorem State.rd_asCore (s : State) (m core a : Nat) : (s.asCore m core).rd a = s.rd a := State.rd_congr (s.asCore_regs m core) a

theorem State.asCore_slot (s : State) (m core i : Nat) : (s.asCore m core).slot i = s.slot i := by unfold State.asCore; split <;> rfl
theorem State.asCore_snap (s : State) (m core i : Nat) : (s.asCore m core).snap i = s.snap i := by unfold State.asCore; split <;> rfl

/-- Of the live fields of all registers only SVC_CLAIM's GRANTED depends on the core that reads. -/
theorem State.asCore_liveView (s : State) (m core : Nat) {b : Blk} (i n : Nat) {off : Nat} (h : b = .svc → off < 0xC0) :
    (s.asCore m core).liveView b i n off = s.liveView b i n off := by
  unfold State.asCore
  split
  · cases b with
    | svc =>
      have hc : ¬(0xC0 ≤ off ∧ off < 0xE0) := by have := h rfl; omega
      show State.svcView _ n off = State.svcView _ n off
      unfold State.svcView
      rw [if_neg hc, if_neg hc]
      rfl
    | _ => rfl
  · rfl

theorem State.asCore_ownRead (s : State) (m core : Nat) {b : Blk} (i n : Nat) {a : Nat} (d : RegDesc) (h : b = .svc → a % 0x1000 < 0xC0) :
    (s.asCore m core).ownRead b i n a d = s.ownRead b i n a d := by
  have hv : (s.asCore m core).slotView b n (a % 0x1000) = s.slotView b n (a % 0x1000) := by unfold State.asCore; split <;> rfl
  have hk : (s.asCore m core).regKey n a d = s.regKey n a d := by unfold State.asCore; split <;> rfl
  unfold State.ownRead
  simp only [State.asCore_liveView s m core i n h, hv, hk, State.asCore_slot, State.asCore_snap, State.rd_asCore, State.rf, State.writeMask]

theorem State.asCore_hdrView (s : State) (m core : Nat) (b : Blk) (i off : Nat) :
    (s.asCore m core).hdrView b i off = s.hdrView b i off := by unfold State.asCore; split <;> rfl

/-- Below SVC_CLAIM no word depends on the core that reads. -/
theorem State.asCore_wordAt (s : State) (m core n : Nat) {a : Nat} (h : a < Reg.SVC_CLAIM 0) :
    (s.asCore m core).wordAt n a = s.wordAt n a := by
  have hw : (s.asCore m core).windowRead a = s.windowRead a := by unfold State.asCore; split <;> rfl
  unfold State.wordAt
  rw [hw]
  split
  · rfl
  · split
    · rfl
    · next b i hp =>
      have hb : b = .svc → a % 0x1000 < 0xC0 := by
        rintro rfl
        have hs : 0x100000 + 0x1000 * i = a / 0x1000 * 0x1000 := pageOf_base hp
        have h : a < 0x1000C0 + 4 * 0 := h
        omega
      simp only [State.asCore_hdrView, State.asCore_ownRead s m core i n _ hb, State.asCore_slot, State.asCore_snap]

/-! ### Multi-word values -/

theorem statTwo_le (b : Blk) (off : Nat) : ∀ o ∈ statTwo b off, o ≤ off + 8 := by
  intro o ho
  unfold statTwo at ho
  split at ho
  · split at ho
    · rw [List.mem_singleton.mp ho]; omega
    · cases ho
  · cases ho

/-- The other words of a multi-word value lie right above its low word. -/
theorem heldWords_le (b : Blk) (off : Nat) : ∀ o ∈ heldWords b off, o ≤ off + 8 := by
  have two : ∀ o ∈ [off + 4], o ≤ off + 8 := fun o h => by rw [List.mem_singleton.mp h]; omega
  have three : ∀ o ∈ [off + 4, off + 8], o ≤ off + 8 := fun o h => by
    simp only [List.mem_cons, List.not_mem_nil, or_false] at h
    omega
  have none : ∀ o ∈ ([] : List Nat), o ≤ off + 8 := fun o h => by cases h
  have stat := statTwo_le b off
  have pick : ∀ {c : Prop} [Decidable c] {l : List Nat}, (∀ o ∈ l, o ≤ off + 8) → ∀ o ∈ if c then [off + 4] else l, o ≤ off + 8 := by
    intro c _ l hl
    split <;> assumption
  unfold heldWords
  extract_lets l3 l2
  split
  · split
    · next h => exact fun o ho => by rw [h, List.mem_singleton.mp ho]; omega
    · exact none
  · split
    · exact three
    · exact three
    · exact three
    · exact two
    · exact two
    · exact two
    · exact two
    · exact two
    · exact two
    · exact two
    · exact two
    · exact two
    · exact two
    · exact pick stat
    · exact pick stat
    · exact pick stat
    · exact pick none
    · exact pick none
    · exact pick stat
    · exact stat

theorem svcRegs_single : ∀ d ∈ svcRegs, ¬(d.acc = .stat ∨ d.acc = .pair) := by decide

/-- On the Service Cluster's page only the capture time of the header has several words. -/
theorem heldWords_svc {off : Nat} (h : heldWords .svc off ≠ []) : off = 0x50 := by
  refine Decidable.byContradiction fun hoff => h ?_
  unfold heldWords
  by_cases ho : Blk.svc ≠ .srv ∧ off < 0x80
  · rw [if_pos ho, if_neg hoff]
  · rw [if_neg ho]
    show statTwo .svc off = []
    unfold statTwo
    split
    · next d k hr =>
      have hd : d ∈ svcRegs := findDesc_mem ((if_neg ho).symm.trans hr)
      exact if_neg fun hc => svcRegs_single d hd hc.1
    · rfl

/-- A multi-word value is no SVC_CLAIM word, and neither are the words that it holds. -/
theorem heldWords_below_claim {a i : Nat} {b : Blk} (hp : pageOf (a / 0x1000) = some (b, i)) (hl : heldWords b (a % 0x1000) ≠ []) :
    a < Reg.SVC_CLAIM 0 ∧ ∀ o ∈ heldWords b (a % 0x1000), a / 0x1000 * 0x1000 + o < Reg.SVC_CLAIM 0 := by
  have hlast := pageOf_le hp
  have hoff : a / 0x1000 = 0x100 → a % 0x1000 = 0x50 := by
    intro h
    rw [h] at hp
    cases hp
    exact heldWords_svc hl
  have hb : a / 0x1000 * 0x1000 + a % 0x1000 + 8 < 0x1000C0 + 4 * 0 := by omega
  refine ⟨Nat.lt_of_le_of_lt (by omega) hb, fun o ho => Nat.lt_of_le_of_lt ?_ hb⟩
  have := heldWords_le b _ o ho
  omega

/-- With no counter selected an event is counted nowhere. -/
theorem State.perf_none {s : State} (h : s.perfList = []) (code n : Nat) (m a : Option Nat) : s.perf code n m a = s := by
  unfold State.perf
  rw [h]
  exact ite_self s

/-- A read of a multi-word value's low word, while its master holds nothing on the page, holds the other words (R54). -/
theorem State.heldRead_low {s : State} {m a i : Nat} {b : Blk} (hp : pageOf (a / 0x1000) = some (b, i))
    (hl : heldWords b (a % 0x1000) ≠ []) (hh : (s.hold m a).highs = []) :
    s.heldRead m a = (s.wordAt m a, s.setHold m a
      ⟨(heldWords b (a % 0x1000)).map fun o => (a / 0x1000 * 0x1000 + o, s.wordAt m (a / 0x1000 * 0x1000 + o))⟩) := by
  unfold State.heldRead
  simp only [hh, List.find?_nil, hp]
  exact if_neg fun he => hl (List.isEmpty_iff.mp he)

theorem State.hold_setHold (s : State) (m a : Nat) (h : Hold) : (s.setHold m a h).hold m a = h := Tab.get_set_same _ _ _ _

/-- A read that nothing stops, of an address below SVC_CLAIM while no performance counter is selected. -/
theorem State.regRead_ok {s : State} {m a core : Nat} (hv : s.readViol a true = none) (ha : a < Reg.SVC_CLAIM 0) (hf : s.perfList = []) :
    s.regRead m a true core = (s.asCore m core).heldRead m a := by
  have hc : (s.asCore m core).claimOnRead m a = s.asCore m core := if_neg fun h => by omega
  have hf : (s.asCore m core).perfList = [] := by
    unfold State.perfList at hf ⊢
    rw [State.asCore_regs, hf]
  unfold State.regRead
  simp only [State.asCore_readViol, hv, hc, State.perf_none hf]

/-! ### Hash seeds -/

/-- The eight seeds are whole-word registers without a bank or limits. -/
theorem seed_reg {a : Nat} (ha : (Reg.ICT_SEED0 ≤ a ∧ a ≤ Reg.ICT_SEED3) ∨ (Reg.ADT_SEED0 ≤ a ∧ a ≤ Reg.ADT_SEED3)) (h4 : a % 4 = 0) :
    ∃ b d, pageOf (a / 0x1000) = some (b, 0) ∧ findReg b (a % 0x1000) = some (d, 0) ∧ d.banked = false ∧ d.limits = [] ∧
      d.wmask = 0xFFFFFFFF := by
  have ha : (0x11080 ≤ a ∧ a ≤ 0x1108C) ∨ (0x13080 ≤ a ∧ a ≤ 0x1308C) := ha
  have h8 : a = 0x11080 ∨ a = 0x11084 ∨ a = 0x11088 ∨ a = 0x1108C ∨ a = 0x13080 ∨ a = 0x13084 ∨ a = 0x13088 ∨ a = 0x1308C := by omega
  rcases h8 with rfl | rfl | rfl | rfl | rfl | rfl | rfl | rfl <;> exact ⟨_, _, rfl, rfl, rfl, rfl, rfl⟩

/-- A register whose bits are all writable, without limits, takes the word written. -/
theorem RegDesc.store_all {d : RegDesc} (hl : d.limits = []) (hm : d.wmask = 0xFFFFFFFF) (old v : Word) : d.store old v = v := by
  have ones : wd 0xFFFFFFFF = BitVec.allOnes 32 := by decide
  unfold RegDesc.store
  rw [hl, hm, ones, BitVec.not_allOnes, BitVec.and_zero, BitVec.and_allOnes, BitVec.zero_or]
  rfl

theorem State.admits_aligned {s : State} {m a : Nat} (h : s.admits m a = true) : a % 4 = 0 := by
  simp only [State.admits, Bool.and_eq_true, Option.isNone_iff_eq_none] at h
  refine Decidable.byContradiction fun h4 => ?_
  have hv := h.2
  unfold State.writeViol at hv
  rw [if_pos (.inr h4)] at hv
  cases hv

/-- R69: a seed of an empty table takes the word written. -/
theorem State.seedWrite_empty {s : State} {a : Nat}
    (ha : (Reg.ICT_SEED0 ≤ a ∧ a ≤ Reg.ICT_SEED3) ∨ (Reg.ADT_SEED0 ≤ a ∧ a ≤ Reg.ADT_SEED3)) (h4 : a % 4 = 0)
    (he : (s.tentries (if a < pageBase .srt 0 then 1 else 2)).isEmpty = true) (m : Nat) (v : Word) : s.seedWrite m a v = s.wr a v := by
  obtain ⟨b, d, hp, hr, hb, hl, hm⟩ := seed_reg ha h4
  have hk : d.key m a = a := by unfold RegDesc.key; rw [hb]; rfl
  unfold State.seedWrite
  simp only [if_pos he]
  rw [State.plainWrite_eq hp hr, hk, RegDesc.store_all hl hm]

/-- R69: a seed of a table in use is refused and counted on its page. -/
theorem State.seedWrite_used {s : State} {a : Nat} (he : (s.tentries (if a < pageBase .srt 0 then 1 else 2)).isEmpty = false) (m : Nat)
    (v : Word) :
    s.seedWrite m a v = if a < pageBase .srt 0 then (s.evt Reg.ICT_SEED_REJ).raise .ict 0 Irq.ICT_SEED_REJ
      else (s.evt Reg.ADT_SEED_REJ).raise .adt 0 Irq.ADT_SEED_REJ := by
  have two : ¬(2 : Nat) = 1 := by decide
  unfold State.seedWrite
  by_cases h : a < pageBase .srt 0
  · simp only [if_pos h] at he ⊢
    simp only [he, Bool.false_eq_true, if_false, if_true]
  · simp only [if_neg h] at he ⊢
    simp only [he, two, Bool.false_eq_true, if_false]

theorem State.tentries_noted (s : State) (m a t : Nat) : (s.noted m a).tentries t = s.tentries t := by
  unfold State.tentries
  rw [State.noted_tbl]

/-- A write that is noted, counted and raised on a page changes the counter and the page's INT_RAW, and no other register. -/
theorem State.rd_noted_evt_raise (s : State) (m a c : Nat) (b : Blk) (inst i : Nat) (hc : 0x5000 ≤ c)
    (hraw : Reg.INT_RAW (pageBase b inst) ≠ c) :
    (((s.noted m a).evt c).raise b inst i).rd c = evtNext (s.rd c) ∧
    regsBut [c, Reg.INT_RAW (pageBase b inst)] s (((s.noted m a).evt c).raise b inst i) := by
  constructor
  · rw [State.rd_raise, if_neg hraw, State.rd_evt, if_pos rfl, State.rd_noted _ _ _ (.inr hc)]
  · intro k hk hout
    simp only [List.mem_cons, List.not_mem_nil, or_false, not_or] at hk
    rw [State.rd_raise, if_neg (Ne.symm hk.2), State.rd_evt, if_neg (Ne.symm hk.1), State.rd_noted _ _ _ hout]

theorem exec_seedWrite {m a : Nat} {s : State}
    (ha : (Reg.ICT_SEED0 ≤ a ∧ a ≤ Reg.ICT_SEED3) ∨ (Reg.ADT_SEED0 ≤ a ∧ a ≤ Reg.ADT_SEED3)) (hadm : s.admits m a = true) (v : Word) :
    exec (.seedWrite m a v) s = .next ((s.noted m a).seedWrite m a v) := by
  show execSeedWrite m a v s = _
  unfold execSeedWrite
  rw [State.access_ok hadm]
  simp only [if_pos ha]

/-! ### The statement's three clauses -/

/-- R12: an ordinary register keeps its writable bits of the word written. -/
theorem regWrite_stores {m a core i k : Nat} {v : Word} {s : State} {b : Blk} {d : RegDesc} (hp : pageOf (a / 0x1000) = some (b, i))
    (hb : b ∈ [Blk.icl, .srt, .rak, .vlt, .cau, .upd, .evl]) (ho : 0x80 ≤ a % 0x1000) (hr : findReg b (a % 0x1000) = some (d, k))
    (hd : d.acc = .rw ∨ d.acc = .rwl) (hi : s.inj = []) (hadm : (s.asCore m core).admits m a = true) :
    Completes (.regWrite m a v true core) s fun t =>
      t.rd (d.key m a) = d.store (s.rd (d.key m a)) v ∧ regsBut [d.key m a] s t := by
  have hpfc : a / 0x1000 ≠ 4 := pageOf_ne hp (show pageOf 4 = some (.pfc, 0) from rfl) (by rintro rfl; exact absurd hb (by decide))
  have hnoted : ∀ j, (j < 0x4000 ∨ 0x5000 ≤ j) → ((s.asCore m core).noted m a).rd j = s.rd j := fun j hj => by
    rw [State.rd_noted _ _ _ hj, State.rd_asCore]
  have hw : s.anyWrite m a v true core = ((s.asCore m core).noted m a).wr (d.key m a) (d.store (s.rd (d.key m a)) v) := by
    rw [State.anyWrite_page hp, State.regWrite_ok hadm, State.storeWrite_cfg hp ho hr hd, State.cfgWrite_own hp ho,
      State.ownWrite_plain hb, State.plainWrite_eq hp hr, hnoted _ (d.key_ne_pfc m hpfc)]
  refine ⟨(s.anyWrite m a v true core).settle, rfl, ?_⟩
  rw [hw, State.settle_nil (by rw [State.wr_inj, State.noted_inj, State.asCore_inj, hi])]
  refine ⟨State.rd_wr_same .., fun j hj hout => ?_⟩
  rw [State.rd_wr_ne _ _ (fun e => hj (List.mem_singleton.mpr e.symm)), hnoted j hout]

/-- R54: the low word is answered, and its other words are held as they are. -/
theorem multiwordLowRead_holds {m a core i : Nat} {user : Bool} {s : State} {b : Blk} (hv : s.readViol a true = none)
    (hp : pageOf (a / 0x1000) = some (b, i)) (hl : heldWords b (a % 0x1000) ≠ []) (hh : (s.hold m a).highs = []) (hf : s.perfList = []) :
    Completes (.multiwordLowRead m a true core user) s fun t =>
      t.out = s.out ++ [.busRead m a (s.wordAt m a)] ∧
      (t.hold m a).highs = (heldWords b (a % 0x1000)).map (fun o => (a / 0x1000 * 0x1000 + o, s.wordAt m (a / 0x1000 * 0x1000 + o))) ∧
      t.regs = s.regs := by
  obtain ⟨ha, hwords⟩ := heldWords_below_claim hp hl
  have hread : s.anyRead m a true core user = s.busRead m a true core := State.anyRead_page hp ..
  refine ⟨s.anyRead m a true core user, rfl, ?_⟩
  rw [hread]
  unfold State.busRead
  rw [State.regRead_ok hv ha hf, State.heldRead_low hp hl (by rw [State.asCore_hold, hh])]
  refine ⟨?_, ?_, State.asCore_regs ..⟩
  · show (s.asCore m core).out ++ _ = _
    rw [State.asCore_out, State.asCore_wordAt _ _ _ _ ha]
  · show ((State.setHold _ m a _).hold m a).highs = _
    rw [State.hold_setHold]
    exact List.map_congr_left fun o h => by rw [State.asCore_wordAt _ _ _ _ (hwords o h)]

/-- R69: a seed is written while its table is empty; else the write is counted and changes nothing. -/
theorem seedWrite_takes {m a : Nat} {v : Word} {s : State}
    (ha : (Reg.ICT_SEED0 ≤ a ∧ a ≤ Reg.ICT_SEED3) ∨ (Reg.ADT_SEED0 ≤ a ∧ a ≤ Reg.ADT_SEED3)) (hadm : s.admits m a = true) :
    Completes (.seedWrite m a v) s fun t =>
      if (s.tentries (if a < pageBase .srt 0 then 1 else 2)).isEmpty then t.rd a = v ∧ regsBut [a] s t
      else t.rd a = s.rd a ∧
        (a < pageBase .srt 0 → t.rd Reg.ICT_SEED_REJ = evtNext (s.rd Reg.ICT_SEED_REJ) ∧
          regsBut [Reg.ICT_SEED_REJ, Reg.INT_RAW (pageBase .ict 0)] s t) ∧
        (pageBase .srt 0 ≤ a → t.rd Reg.ADT_SEED_REJ = evtNext (s.rd Reg.ADT_SEED_REJ) ∧
          regsBut [Reg.ADT_SEED_REJ, Reg.INT_RAW (pageBase .adt 0)] s t) := by
  have hrange : (0x11080 ≤ a ∧ a ≤ 0x1108C) ∨ (0x13080 ≤ a ∧ a ≤ 0x1308C) := ha
  have hsrt : pageBase .srt 0 = 0x12000 := rfl
  refine ⟨_, exec_seedWrite ha hadm v, ?_⟩
  dsimp only
  by_cases he : (s.tentries (if a < pageBase .srt 0 then 1 else 2)).isEmpty = true
  · rw [if_pos he, State.seedWrite_empty ha (State.admits_aligned hadm) (by rw [State.tentries_noted]; exact he)]
    refine ⟨State.rd_wr_same .., fun k hk hout => ?_⟩
    rw [State.rd_wr_ne _ _ (fun e => hk (List.mem_singleton.mpr e.symm)), State.rd_noted _ _ _ hout]
  · rw [if_neg he, State.seedWrite_used (by rw [State.tentries_noted]; exact Bool.eq_false_iff.mpr he)]
    by_cases hpage : a < pageBase .srt 0
    · rw [if_pos hpage]
      obtain ⟨hcount, hrest⟩ := s.rd_noted_evt_raise m a Reg.ICT_SEED_REJ .ict 0 Irq.ICT_SEED_REJ (by decide) (by decide)
      refine ⟨hrest a ?_ (.inr (by omega)), fun _ => ⟨hcount, hrest⟩, fun h => absurd hpage (by omega)⟩
      show a ∉ [0x11094, 0x11018]
      simp only [List.mem_cons, List.not_mem_nil, or_false]
      omega
    · rw [if_neg hpage]
      obtain ⟨hcount, hrest⟩ := s.rd_noted_evt_raise m a Reg.ADT_SEED_REJ .adt 0 Irq.ADT_SEED_REJ (by decide) (by decide)
      refine ⟨hrest a ?_ (.inr (by omega)), fun h => absurd h hpage, fun _ => ⟨hcount, hrest⟩⟩
      show a ∉ [0x13098, 0x13018]
      simp only [List.mem_cons, List.not_mem_nil, or_false]
      omega

end Sys2Proof.Machine

open Sys2Proof Sys2Proof.Machine

/-- Settles O15: its clauses are the stored write, the held read and the seed's write. -/
theorem registersAndSeedsAreWritten : Obligations.RegistersAndSeedsAreWritten := by
  unfold Obligations.RegistersAndSeedsAreWritten
  refine ⟨⟨?_, ?_⟩, ?_⟩
  · intro m a v core s b i d k hp hb ho hr hd hi hadm
    exact regWrite_stores hp hb ho hr hd hi hadm
  · intro m a core user s b i hv _ hp hl hh hf
    exact multiwordLowRead_holds hv hp hl hh hf
  · intro m a v s ha hadm
    exact seedWrite_takes ha hadm

end

section
/-! Reception and verdicts (R19, R22, R109-R112): a copy whose queue number is none of the Basin's 240 (R95). BSN_QSTAT[q] of queue 256
would lie at the address of BSN_DROP[0], so the OVER_QUOTA scan that follows the drop of such a copy writes into its destination's drop
counter. -/

namespace Sys2Proof.Machine.StrayQueue

/-- A waiting copy for port 0 whose queue number is 256. -/
def copy : Copy := ⟨0, 0, 256, false, .waiting, noRing, none⟩

/-- A frame of port 3 in one cell, still arriving, with that copy alone. -/
def frame (cell : Nat) : Frame :=
  ⟨3, false, [], 0, none, ⟨1, 0, none, none, none, none, false, false, 0, 63, false⟩, 0, 0, [cell], 0, [copy], false, false, 0, false, none,
    true, none, none, false, none, none⟩

/-- The reception of frame 9 on port 3's express MAC. -/
def arriving : Arrival := ⟨[], some 9, none, true, none, 0⟩

/-- After reset, frames 8 and 9 stored and frame 9 arriving: frame 8 keeps the queue above its quota 0 when frame 9 leaves. -/
def before : State := ((State.reset.setFrame 8 (some (frame 0))).setFrame 9 (some (frame 1))).setArrival 3 false (some arriving)

/-- What the verdict "bad FCS" makes of it. -/
def after : State := ((before.pcsErrors 3 0 0 0).verdict 3 false false false 0).settle

theorem exec_before : exec (.frameVerdict 3 false false false 0 0 0 0) before = .next after := rfl

/-- One drop from 0 counts 1. -/
theorem drop_counted : (before.stat (Reg.BSN_DROP copy.dest) 1).rd64 (Reg.BSN_DROP copy.dest) = 1 := by decide +kernel

/-- OVER_QUOTA of queue 256 has been set in bit 16 of the counter, beside the one drop. -/
theorem drop_overwritten : after.rd64 (Reg.BSN_DROP copy.dest) = 2 ^ 16 + 1 := by decide +kernel

end Sys2Proof.Machine.StrayQueue

open Sys2Proof Sys2Proof.Machine

/-- Refutes O21: its last clause leaves the copy's queue number free. For a copy in queue 256 with destination 0 the scan of the queue's
quota writes OVER_QUOTA into BSN_DROP[0], which then reads 65537 instead of 1. -/
theorem not_framesAreReceivedAndJudged : ¬ Obligations.FramesAreReceivedAndJudged := by
  unfold Obligations.FramesAreReceivedAndJudged
  rintro ⟨-, -, -, -, -, badFcs⟩
  have hmeters : StrayQueue.before.metersOf (StrayQueue.frame 1).route.meter
      (if (StrayQueue.frame 1).route.srt then (StrayQueue.frame 1).handle else none) = [] := rfl
  obtain ⟨t, hexec, -, -, -, -, hdrop⟩ := badFcs 3 StrayQueue.before StrayQueue.arriving 9 (StrayQueue.frame 1) StrayQueue.copy
    rfl rfl rfl rfl (by decide) rfl rfl rfl rfl rfl (by decide) rfl rfl rfl hmeters rfl rfl rfl
  rw [StrayQueue.exec_before, Host.Outcome.next.injEq] at hexec
  rw [← hexec, StrayQueue.drop_counted, StrayQueue.drop_overwritten] at hdrop
  exact absurd hdrop (by decide)

end
section
/-! Rules that the statements of the register pages share: which registers an operation leaves alone, accesses to the words of the common
header, and what a stopped write records (R32-R37). -/

namespace Sys2Proof.Machine

/-! ### The registers that a run of operations leaves alone -/

section

variable {ks : List Nat} {s t u : State}

theorem regsBut.trans (h : regsBut ks s t) (h' : regsBut ks t u) : regsBut ks s u := fun k hk ho => (h' k hk ho).trans (h k hk ho)

theorem regsBut.of_regs (h : t.regs = s.regs) : regsBut ks s t := fun k _ _ => State.rd_congr h k

theorem regsBut.mono {ks' : List Nat} (h : regsBut ks s t) (hsub : ∀ k ∈ ks, k ∈ ks') : regsBut ks' s t :=
  fun k hk ho => h k (fun hm => hk (hsub k hm)) ho

theorem regsBut_noted (ks : List Nat) (s : State) (m a : Nat) : regsBut ks s (s.noted m a) := fun _ _ ho => State.rd_noted _ _ _ ho

theorem regsBut_perf (ks : List Nat) (s : State) (code n : Nat) (m a : Option Nat) : regsBut ks s (s.perf code n m a) :=
  fun _ _ ho => State.rd_perf _ _ _ _ _ ho

theorem regsBut_wr (s : State) {a : Nat} (ha : a ∈ ks) (v : Word) : regsBut ks s (s.wr a v) :=
  fun _ hk _ => State.rd_wr_ne _ _ fun e => hk (e ▸ ha)

theorem regsBut_wf (s : State) {a : Nat} (ha : a ∈ ks) (lo len v : Nat) : regsBut ks s (s.wf a lo len v) := regsBut_wr s ha _

theorem regsBut_evt (s : State) {a : Nat} (ha : a ∈ ks) : regsBut ks s (s.evt a) := regsBut_wr s ha _

theorem regsBut_raiseAt (s : State) {base : Nat} (ha : Reg.INT_RAW base ∈ ks) (i : Nat) : regsBut ks s (s.raiseAt base i) :=
  (regsBut_wr s ha _).trans (.of_regs (State.msixEval_regs _ _))

end

/-! ### Words of the common header -/

/-- A header word of a page other than the compatibility servo's is accessed as any register. -/
theorem State.hdrAccess_page {s : State} {m pg o : Nat} (ho : o < 0x1000) (hp : pg ≠ 0xC8) (h : s.admits m (pg * 0x1000 + o) = true)
    (k : State → State) : s.hdrAccess m (pg * 0x1000 + o) k = k (s.noted m (pg * 0x1000 + o)) :=
  State.hdrAccess_ok (by omega) h k

/-- The compatibility servo's page has no header (R26). -/
theorem State.hdrAccess_servo {o : Nat} (ho : o < 0x1000) (s : State) (m : Nat) (k : State → State) : s.hdrAccess m (0xC8 * 0x1000 + o) k = s :=
  if_pos (by show (0xC8 * 0x1000 + o) / 0x1000 = 0xC8; omega)

/-- A word of a page other than the performance counters' is none of theirs. -/
theorem pageWord_ne_pfc {pg o : Nat} (ho : o < 0x1000) (hp : pg ≠ 4) : pg * 0x1000 + o < 0x4000 ∨ 0x5000 ≤ pg * 0x1000 + o := by omega

/-- A master's own copy of a register outside the performance counters' page lies outside it too. -/
theorem bankKey_ne_pfc (m : Nat) {a : Nat} (ha : a < 0x4000 ∨ 0x5000 ≤ a) (hm : a < 0x4000000) :
    bankKey m a < 0x4000 ∨ 0x5000 ≤ bankKey m a := by
  unfold bankKey
  omega

/-- The keys of a selected item lie above every address. -/
theorem itemKey_high (n a : Nat) : 0x100000000 ≤ itemKey n a := by unfold itemKey; omega

/-- A raised interrupt bit of a page reads 1. -/
theorem State.rb_raiseAt (s : State) (base : Nat) {i : Nat} (h : i < 32) : (s.raiseAt base i).rb (Reg.INT_RAW base) i = true := by
  unfold State.rb
  rw [State.rd_raiseAt, if_pos rfl, bit_or_pow _ h]

/-- No bit of a register falls when an interrupt is raised. -/
theorem State.rb_raiseAt_mono {s : State} {a j : Nat} (h : s.rb a j = true) (base i : Nat) : (s.raiseAt base i).rb a j = true := by
  unfold State.rb at h ⊢
  rw [State.rd_raiseAt]
  split
  · show (s.rd a ||| wd (2 ^ i)).getLsbD j = true
    rw [BitVec.getLsbD_or]
    exact Bool.or_eq_true_iff.mpr (.inl h)
  · exact h

/-! ### Recorded violations (R37) -/

/-- From `s` to `t` a write of master `m` to address `a` has been recorded with its kind: counted, captured and raised; no other register has
changed. -/
structure Recorded (k : Viol) (m a : Nat) (s t : State) : Prop where
  count : t.rd Reg.GLB_ACC_VIOL_CNT = evtNext (s.rd Reg.GLB_ACC_VIOL_CNT)
  page : t.rd Reg.GLB_ACC_CAP0 = wd (m * 2 ^ 29 + a / 0x1000 % 0x4000 * 4)
  offset : t.rd Reg.GLB_ACC_CAP1 = wd (a % 0x1000 / 4 * 4 + k.kind * 0x1000 + 0x10000)
  raised : t.rb (Reg.INT_RAW 0) Irq.GLB_ACC_VIOL = true
  rest : regsBut [Reg.GLB_ACC_VIOL_CNT, Reg.GLB_ACC_CAP0, Reg.GLB_ACC_CAP1, Reg.INT_RAW 0] s t

/-- The registers of a recorded violation: the log's request is none of them. -/
theorem State.violate_regs (s : State) (k : Viol) (m a : Nat) (write : Bool) :
    (s.violate k m a write).regs = ((((s.violSet.evt Reg.GLB_ACC_VIOL_CNT).wr Reg.GLB_ACC_CAP0 (wd (m * 2 ^ 29 + a / 0x1000 % 0x4000 * 4))).wr
      Reg.GLB_ACC_CAP1 (wd (a % 0x1000 / 4 * 4 + k.kind * 0x1000 + b2n write * 0x10000))).raiseAt 0 Irq.GLB_ACC_VIOL).regs := by
  unfold State.violate
  extract_lets pg s1 s2 s3 s4 key last
  split <;> rfl

theorem State.violate_recorded (s : State) (k : Viol) (m a : Nat) : Recorded k m a s (s.violate k m a true) := by
  have hreg := fun b => State.rd_congr (s.violate_regs k m a true) b
  constructor
  · rw [hreg, State.rd_raiseAt, if_neg (by decide), State.rd_wr_ne _ _ (by decide), State.rd_wr_ne _ _ (by decide), State.rd_evt, if_pos rfl,
      State.rd_violSet]
  · rw [hreg, State.rd_raiseAt, if_neg (by decide), State.rd_wr_ne _ _ (by decide), State.rd_wr_same]
  · rw [hreg, State.rd_raiseAt, if_neg (by decide), State.rd_wr_same]
    rfl
  · unfold State.rb
    rw [hreg]
    exact State.rb_raiseAt _ 0 (by decide)
  · exact ((((regsBut_evt s.violSet (by decide)).trans (regsBut_wr _ (by decide) _)).trans (regsBut_wr _ (by decide) _)).trans
      (regsBut_raiseAt _ (by decide) Irq.GLB_ACC_VIOL)).trans (.of_regs (s.violate_regs k m a true))

/-- Counting the violation on the performance counters leaves its record. -/
theorem Recorded.perf {k : Viol} {m a : Nat} {s t : State} (h : Recorded k m a s t) (code n : Nat) (x y : Option Nat) :
    Recorded k m a s (t.perf code n x y) := by
  have hreg : ∀ b, b < 0x4000 → (t.perf code n x y).rd b = t.rd b := fun b hb => State.rd_perf _ _ _ _ _ (.inl hb)
  exact ⟨(hreg _ (by decide)).trans h.count, (hreg _ (by decide)).trans h.page, (hreg _ (by decide)).trans h.offset,
    (congrArg (bit · _) (hreg _ (by decide))).trans h.raised, h.rest.trans (regsBut_perf _ _ _ _ _ _)⟩

/-- What is recorded does not depend on the rest of the state before. -/
theorem Recorded.of_regs {k : Viol} {m a : Nat} {s s' t : State} (h : Recorded k m a s t) (e : s.regs = s'.regs) : Recorded k m a s' t :=
  ⟨by rw [h.count, State.rd_congr e], h.page, h.offset, h.raised, fun b hb ho => by rw [h.rest b hb ho, State.rd_congr e]⟩

/-- A write, whole or not, that a rule of access stops is recorded, and has no other effect (R37). -/
theorem State.access_viol {s : State} {m a : Nat} {full : Bool} {v : Viol} (h0 : s.svcBar m a = 0) (h : s.writeViol m a full = some v)
    (k : State → State) : s.access m a k full = (s.violate v m a true).perf 0x02 1 (some m) (some a) := by
  unfold State.access
  rw [if_neg (by omega), if_neg (by omega), h]

/-- A word's low half is the low half of the number it was made from. -/
theorem fld_wd_low {lo len : Nat} (n : Nat) (h : lo + len ≤ 32) : fld (wd n) lo len = fldN n lo len := by
  apply Nat.eq_of_testBit_eq
  intro j
  unfold fld fldN wd
  rw [Nat.testBit_mod_two_pow, Nat.testBit_mod_two_pow, Nat.testBit_shiftRight, Nat.testBit_shiftRight, BitVec.toNat_ofNat,
    Nat.testBit_mod_two_pow]
  by_cases hj : j < len
  · rw [decide_eq_true (show lo + j < 32 by omega), Bool.true_and]
  · rw [decide_eq_false hj, Bool.false_and, Bool.false_and]

end Sys2Proof.Machine

end
section
/-! The writes of the page headers and of the write masks (R26, R29, R30, R34, R36, R53, R58). -/

namespace Sys2Proof.Machine

/-! ### Clearing an error capture, and the item of a counter -/

/-- The four words of an error capture read 0 after it is freed (R29); no other register changes. -/
theorem State.errRearm_clears (s : State) (pg : Nat) :
    (∀ k, k < 4 → (s.errRearm pg 0x80000000).rd (Reg.ERR_CAP0 (pg * 0x1000) + 4 * k) = 0) ∧
    regsBut [Reg.ERR_CAP0 (pg * 0x1000), Reg.ERR_CAP0 (pg * 0x1000) + 4, Reg.ERR_CAP0 (pg * 0x1000) + 8,
      Reg.ERR_CAP0 (pg * 0x1000) + 12] s (s.errRearm pg 0x80000000) := by
  have hfour : s.errRearm pg 0x80000000 = (((s.wr (Reg.ERR_CAP0 (pg * 0x1000) + 4 * 0) 0).wr (Reg.ERR_CAP0 (pg * 0x1000) + 4 * 1) 0).wr
      (Reg.ERR_CAP0 (pg * 0x1000) + 4 * 2) 0).wr (Reg.ERR_CAP0 (pg * 0x1000) + 4 * 3) 0 := rfl
  rw [hfour]
  constructor
  · intro k hk
    rw [State.rd_wr, State.rd_wr, State.rd_wr, State.rd_wr]
    have : k = 0 ∨ k = 1 ∨ k = 2 ∨ k = 3 := by omega
    rcases this with rfl | rfl | rfl | rfl <;> simp
  · exact (((regsBut_wr s (by simp) _).trans (regsBut_wr _ (by simp) _)).trans (regsBut_wr _ (by simp) _)).trans (regsBut_wr _ (by simp) _)

/-- No item selector lies beyond its page. -/
theorem selector_on_page (b : Blk) : ∀ d ∈ blkRegs b, ∀ x ∈ d.sel, x.1 < 0x1000 := by cases b <;> decide

theorem header_has_no_selector : ∀ d ∈ hdrRegs, d.sel = none := by decide

theorem findReg_mem {b : Blk} {off k : Nat} {d : RegDesc} (h : findReg b off = some (d, k)) : d ∈ hdrRegs ∨ d ∈ blkRegs b := by
  unfold findReg at h
  split at h
  · exact .inl (findDesc_mem h)
  · exact .inr (findDesc_mem h)

theorem findReg_selector {b : Blk} {off k : Nat} {d : RegDesc} (h : findReg b off = some (d, k)) : ∀ x ∈ d.sel, x.1 < 0x1000 := by
  rcases findReg_mem h with hmem | hmem
  · intro x hx
    rw [header_has_no_selector d hmem] at hx
    cases hx
  · exact selector_on_page b d hmem

/-- Noting a write selects no other item: the selectors are no performance counter's registers. -/
theorem State.regKey_noted {b : Blk} {k n a : Nat} {d : RegDesc} (hr : findReg b (a % 0x1000) = some (d, k)) (hp : a / 0x1000 ≠ 4)
    (ha : a < 0x4000000) (s : State) (m a' : Nat) : (s.noted m a').regKey n a d = s.regKey n a d := by
  have hsel : (s.noted m a').selItem n (a / 0x1000 * 0x1000) d = s.selItem n (a / 0x1000 * 0x1000) d := by
    unfold State.selItem
    refine Option.map_congr fun x hx => ?_
    have hx := findReg_selector hr x hx
    exact State.rf_noted _ _ _ _ _ (bankKey_ne_pfc _ (pageWord_ne_pfc hx hp) (by omega))
  unfold State.regKey
  rw [hsel]

/-- A register's clear bit writes 0 to its own copy, to its selected item or to itself (R476). -/
theorem State.counterClr_eq {a i k : Nat} {b : Blk} {d : RegDesc} (hp : pageOf (a / 0x1000) = some (b, i))
    (hr : findReg b (a % 0x1000) = some (d, k)) (hd : d.acc = .evt) (s : State) (m : Nat) : s.counterClr m a = s.wr (s.regKey m a d) 0 := by
  unfold State.counterClr
  rw [hp]
  simp only [hr]
  rw [if_pos hd]
  exact if_pos (by decide)

/-! ### Interrupts that stay while their cause holds -/

theorem State.levelRaise_plain {pg i : Nat} {b : Blk} (hp : pageOf pg = some (b, i)) (hcan : b ≠ .can) (htim : b ≠ .tim) (s : State) :
    s.levelRaise pg = s := by
  unfold State.levelRaise
  rw [hp]
  split
  · next h => cases h; exact absurd rfl hcan
  · next h => cases h; exact absurd rfl htim
  · rfl

theorem State.levelRaise_can {pg i : Nat} (hp : pageOf pg = some (.can, i)) (s : State) :
    (s.levelRaise pg).rd (Reg.INT_RAW (pg * 0x1000)) =
      s.rd (Reg.INT_RAW (pg * 0x1000)) ||| (if (s.cch i).rxq.isEmpty then 0 else wd (2 ^ Irq.CAN_RXQ)) := by
  unfold State.levelRaise
  rw [hp]
  show (if (s.cch i).rxq.isEmpty = true then s else _ : State).rd _ = _
  split
  · exact BitVec.or_zero.symm
  · exact State.rd_wr_same ..

theorem State.levelRaise_tim {pg i : Nat} (hp : pageOf pg = some (.tim, i)) {j : Nat} (hj : j ≠ Irq.TIM_SRV_INT) (s : State) :
    (s.levelRaise pg).rb (Reg.INT_RAW (pg * 0x1000)) j = s.rb (Reg.INT_RAW (pg * 0x1000)) j := by
  have hj : j < 3 ∨ 3 + 1 ≤ j := by
    have : j ≠ 3 := hj
    omega
  unfold State.levelRaise
  rw [hp]
  simp only
  split
  · rfl
  · exact State.rb_wf_other _ _ _ (by decide) hj

theorem regsBut_levelRaise (s : State) (pg : Nat) : regsBut [Reg.INT_RAW (pg * 0x1000)] s (s.levelRaise pg) := by
  unfold State.levelRaise
  split
  · split
    · exact .of_regs rfl
    · exact regsBut_wr _ (by simp) _
  · split
    · exact .of_regs rfl
    · exact regsBut_wf _ (by simp) _ _ _
  · exact .of_regs rfl

/-- The state of a W1C write to a page's INT_RAW before the levels are looked at. -/
def State.rawCleared (s : State) (pg : Nat) (v : Word) : State :=
  (if pg = 0x20 ∧ bit v Irq.BSN_POISON then { s with bsn := { s.bsn with poisoned := false } } else s).wr (Reg.INT_RAW (pg * 0x1000))
    (s.rd (Reg.INT_RAW (pg * 0x1000)) &&& ~~~v)

theorem State.intClear_eq (s : State) (pg : Nat) (v : Word) : s.intClear pg v = ((s.rawCleared pg v).levelRaise pg).msixEval true := by
  unfold State.intClear State.rawCleared
  split <;> rfl

theorem State.rd_rawCleared (s : State) (pg : Nat) (v : Word) :
    (s.rawCleared pg v).rd (Reg.INT_RAW (pg * 0x1000)) = s.rd (Reg.INT_RAW (pg * 0x1000)) &&& ~~~v := State.rd_wr_same ..

theorem State.rawCleared_can (s : State) (pg : Nat) (v : Word) : (s.rawCleared pg v).can = s.can := by
  unfold State.rawCleared
  split <;> rfl

theorem regsBut_rawCleared (s : State) (pg : Nat) (v : Word) : regsBut [Reg.INT_RAW (pg * 0x1000)] s (s.rawCleared pg v) := by
  have hbsn : ∀ c : Bool, (if c then { s with bsn := { s.bsn with poisoned := false } } else s : State).regs = s.regs := by
    intro c
    cases c <;> rfl
  unfold State.rawCleared
  split
  · exact (regsBut.of_regs (hbsn true)).trans (regsBut_wr _ (by simp) _)
  · exact regsBut_wr _ (by simp) _

theorem bit_and_not (w v : Word) {j : Nat} (hj : j < 32) : bit (w &&& ~~~v) j = (bit w j && !bit v j) := by
  unfold bit
  rw [BitVec.getLsbD_and, BitVec.getLsbD_not, decide_eq_true hj, Bool.true_and]

/-! ### The statement's clauses -/

theorem writeMaskWrite_sets {m : Nat} {v : Word} {s : State} (h : s.admits m Reg.GLB_PERM_DATA = true) :
    Completes (.writeMaskWrite m v) s fun t =>
      t.writeMask (s.rf Reg.GLB_PERM_SEL 0 14) = v &&& 0x1F ∧ regsBut [itemKey (s.rf Reg.GLB_PERM_SEL 0 14) Reg.GLB_PERM_DATA] s t := by
  refine ⟨s.access m Reg.GLB_PERM_DATA fun u => u.maskWrite v, rfl, ?_⟩
  rw [State.access_ok h]
  have hsel : (s.noted m Reg.GLB_PERM_DATA).rf Reg.GLB_PERM_SEL 0 14 = s.rf Reg.GLB_PERM_SEL 0 14 := State.rf_noted _ _ _ _ _ (.inl (by decide))
  unfold State.maskWrite
  rw [hsel]
  exact ⟨State.rd_wr_same .., (regsBut_noted _ s m _).trans (regsBut_wr _ (by simp) _)⟩

theorem blkLock_sets {m pg : Nat} {s : State} (hp : pg ≠ 0xC8) (h : s.admits m (Reg.BLK_LOCK (pg * 0x1000)) = true) :
    Completes (.blkLock m pg) s fun t =>
      t.rb (Reg.BLK_LOCK (pg * 0x1000)) 0 = true ∧ regsBut [Reg.BLK_LOCK (pg * 0x1000)] s t := by
  refine ⟨s.hdrAccess m (Reg.BLK_LOCK (pg * 0x1000)) fun u => u.blkLock pg 1, rfl, ?_⟩
  rw [State.hdrAccess_page (by decide) hp h]
  exact ⟨State.rb_wf_same _ _ _ (by decide), (regsBut_noted _ s m _).trans (regsBut_wf _ (by simp) _ _ _)⟩

theorem errCapRearm_frees {m pg : Nat} {s : State} (hp : pg ≠ 0xC8) (h : s.admits m (Reg.ERR_CAP0 (pg * 0x1000)) = true) :
    Completes (.errCapRearm m pg) s fun t =>
      (∀ k, k < 4 → t.rd (Reg.ERR_CAP0 (pg * 0x1000) + 4 * k) = 0) ∧
      regsBut [Reg.ERR_CAP0 (pg * 0x1000), Reg.ERR_CAP0 (pg * 0x1000) + 4, Reg.ERR_CAP0 (pg * 0x1000) + 8,
        Reg.ERR_CAP0 (pg * 0x1000) + 12] s t := by
  refine ⟨s.hdrAccess m (Reg.ERR_CAP0 (pg * 0x1000)) fun u => u.errRearm pg 0x80000000, rfl, ?_⟩
  rw [State.hdrAccess_page (by decide) hp h]
  obtain ⟨hzero, hrest⟩ := (s.noted m (Reg.ERR_CAP0 (pg * 0x1000))).errRearm_clears pg
  exact ⟨hzero, (regsBut_noted _ s m _).trans hrest⟩

theorem intForce_sets {m pg i : Nat} {v : Word} {s : State} {b : Blk} (h4 : pg ≠ 4) (hp : pg ≠ 0xC8) (hb : pageOf pg = some (b, i))
    (h : s.admits m (Reg.INT_FORCE (pg * 0x1000)) = true) :
    Completes (.intForce m pg v) s fun t =>
      t.rd (Reg.INT_RAW (pg * 0x1000)) = s.rd (Reg.INT_RAW (pg * 0x1000)) ||| (v &&& wd (intMask b)) ∧
      regsBut [Reg.INT_RAW (pg * 0x1000)] s t := by
  refine ⟨s.hdrAccess m (Reg.INT_FORCE (pg * 0x1000)) fun u => u.intForce pg v, rfl, ?_⟩
  rw [State.hdrAccess_page (by decide) hp h]
  unfold State.intForce
  simp only [hb]
  refine ⟨?_, ((regsBut_noted _ s m _).trans (regsBut_wr _ (by simp) _)).trans (.of_regs (State.msixEval_regs _ _))⟩
  rw [State.rd_msixEval, State.rd_wr_same, State.rd_noted _ _ _ (pageWord_ne_pfc (by decide) h4)]

theorem intRawClear_clears {m pg i : Nat} {v : Word} {s : State} {b : Blk} (h4 : pg ≠ 4) (hp : pg ≠ 0xC8) (hb : pageOf pg = some (b, i))
    (h : s.admits m (Reg.INT_RAW (pg * 0x1000)) = true) :
    Completes (.intRawClear m pg v) s fun t =>
      (b ≠ .can → b ≠ .tim → t.rd (Reg.INT_RAW (pg * 0x1000)) = s.rd (Reg.INT_RAW (pg * 0x1000)) &&& ~~~v) ∧
      (b = .can → t.rd (Reg.INT_RAW (pg * 0x1000)) =
        (s.rd (Reg.INT_RAW (pg * 0x1000)) &&& ~~~v) ||| (if (s.cch i).rxq.isEmpty then 0 else wd (2 ^ Irq.CAN_RXQ))) ∧
      (b = .tim → ∀ j, j < 32 → j ≠ Irq.TIM_SRV_INT →
        t.rb (Reg.INT_RAW (pg * 0x1000)) j = (s.rb (Reg.INT_RAW (pg * 0x1000)) j && !bit v j)) ∧
      regsBut [Reg.INT_RAW (pg * 0x1000)] s t := by
  refine ⟨s.hdrAccess m (Reg.INT_RAW (pg * 0x1000)) fun u => u.intClear pg v, rfl, ?_⟩
  rw [State.hdrAccess_page (by decide) hp h, State.intClear_eq]
  have hraw : ((s.noted m (Reg.INT_RAW (pg * 0x1000))).rawCleared pg v).rd (Reg.INT_RAW (pg * 0x1000)) =
      s.rd (Reg.INT_RAW (pg * 0x1000)) &&& ~~~v := by
    rw [State.rd_rawCleared, State.rd_noted _ _ _ (pageWord_ne_pfc (by decide) h4)]
  refine ⟨fun hcan htim => ?_, ?_, ?_, ?_⟩
  · rw [State.rd_msixEval, State.levelRaise_plain hb hcan htim, hraw]
  · rintro rfl
    rw [State.rd_msixEval, State.levelRaise_can hb, hraw, State.cch_congr ((State.rawCleared_can ..).trans (State.noted_can ..))]
  · rintro rfl j hj hne
    unfold State.rb
    rw [State.rd_msixEval]
    refine (State.levelRaise_tim hb hne _).trans ?_
    unfold State.rb
    rw [hraw, bit_and_not _ _ hj]
  · exact (((regsBut_noted _ s m _).trans (regsBut_rawCleared _ pg v)).trans (regsBut_levelRaise _ pg)).trans
      (.of_regs (State.msixEval_regs _ _))

theorem counterClr_clears {m a i k : Nat} {s : State} {b : Blk} {d : RegDesc} (hp : pageOf (a / 0x1000) = some (b, i))
    (hr : findReg b (a % 0x1000) = some (d, k)) (hd : d.acc = .evt) (hb : b ≠ .pfc) (h : s.admits m a = true) :
    Completes (.counterClr m a) s fun t => t.rd (s.regKey m a d) = 0 ∧ regsBut [s.regKey m a d] s t := by
  have h4 : a / 0x1000 ≠ 4 := pageOf_ne hp (show pageOf 4 = some (.pfc, 0) from rfl) hb
  have hle := pageOf_le hp
  refine ⟨s.access m a fun u => u.counterClr m a, rfl, ?_⟩
  rw [State.access_ok h, State.counterClr_eq hp hr hd, State.regKey_noted hr h4 (by omega)]
  exact ⟨State.rd_wr_same .., (regsBut_noted _ s m _).trans (regsBut_wr _ (by simp) _)⟩

end Sys2Proof.Machine

open Sys2Proof Sys2Proof.Machine

/-- Settles O6: each clause is the rule of one header write; on the servo's page a header access does nothing. -/
theorem headerWritesTakeEffect : Obligations.HeaderWritesTakeEffect := by
  unfold Obligations.HeaderWritesTakeEffect
  refine ⟨fun m v s h => writeMaskWrite_sets h, fun m pg s hp h => blkLock_sets hp h, fun m pg s hp h => errCapRearm_frees hp h,
    fun m pg v s b i h4 hp hb h => intForce_sets h4 hp hb h, fun m pg v s b i h4 hp hb h => intRawClear_clears h4 hp hb h, ?_,
    fun m a s b i d k hp hr hd hb h => counterClr_clears hp hr hd hb h⟩
  intro m v s
  have servo : ∀ o, o < 0x1000 → ∀ k : State → State, s.hdrAccess m (0xC8 * 0x1000 + o) k = s := fun o ho k =>
    State.hdrAccess_servo ho s m k
  exact ⟨⟨_, rfl, servo 0x28 (by decide) _⟩, ⟨_, rfl, servo 0x30 (by decide) _⟩, ⟨_, rfl, servo 0x24 (by decide) _⟩,
    ⟨_, rfl, servo 0x18 (by decide) _⟩⟩

end
section
/-! Fences: a ticket is issued (R40) and retires (R41). -/

namespace Sys2Proof.Machine

/-! ### What waits on a fence does not move with a noted write -/

theorem State.waiting_touch (s : State) (m pg n : Nat) : ((s.touch m pg).fence n).waiting = (s.fence n).waiting := by
  unfold State.touch
  extract_lets f
  split
  · rfl
  · show ((s.setFence m { f with touched := f.touched ++ [pg] }).fence n).waiting = _
    rw [State.fence_setFence]
    split
    · next h => subst h; rfl
    · rfl

theorem State.waiting_noted (s : State) (m a n : Nat) : ((s.noted m a).fence n).waiting = (s.fence n).waiting := by
  unfold State.noted
  rw [State.fence_congr (State.perf_fences _ _ _ _ _), State.waiting_touch]

/-! ### A ticket is issued -/

theorem State.rd_fenceReq (s : State) (m a : Nat) :
    (s.fenceReq m).rd a = if bankKey m Reg.GLB_FENCE_TICKET = a then wd (nextTicket (s.rf (bankKey m Reg.GLB_FENCE_TICKET) 0 29)) else s.rd a :=
  State.rd_wr ..

theorem State.fence_fenceReq (s : State) (m : Nat) : (s.fenceReq m).fence m =
    ⟨(s.fence m).waiting ++ [⟨nextTicket (s.rf (bankKey m Reg.GLB_FENCE_TICKET) 0 29), (s.fence m).touched, s.commitQ.contains m⟩], []⟩ :=
  Tab.get_set_same _ _ _ _

/-- GLB_FENCE_TICKET reads the reading master's copy of it. -/
theorem State.wordAt_fenceTicket (s : State) (m : Nat) : s.wordAt m Reg.GLB_FENCE_TICKET = s.rd (bankKey m Reg.GLB_FENCE_TICKET) := rfl

theorem fenceReq_issues {m : Nat} {s : State} (h : s.admits m Reg.GLB_FENCE_REQ = true) :
    Completes (.fenceReq m) s fun t =>
      t.rd (bankKey m Reg.GLB_FENCE_TICKET) = wd (nextTicket (s.rf (bankKey m Reg.GLB_FENCE_TICKET) 0 29)) ∧
      t.wordAt m Reg.GLB_FENCE_TICKET = t.rd (bankKey m Reg.GLB_FENCE_TICKET) ∧
      (t.fence m).waiting = (s.fence m).waiting ++
        [⟨nextTicket (s.rf (bankKey m Reg.GLB_FENCE_TICKET) 0 29), ((s.noted m Reg.GLB_FENCE_REQ).fence m).touched, s.commitQ.contains m⟩] ∧
      regsBut [bankKey m Reg.GLB_FENCE_TICKET] s t := by
  refine ⟨s.access m Reg.GLB_FENCE_REQ fun u => u.fenceReq m, rfl, ?_⟩
  rw [State.access_ok h]
  have htic : (s.noted m Reg.GLB_FENCE_REQ).rf (bankKey m Reg.GLB_FENCE_TICKET) 0 29 = s.rf (bankKey m Reg.GLB_FENCE_TICKET) 0 29 :=
    State.rf_noted _ _ _ _ _ (by unfold bankKey Reg.GLB_FENCE_TICKET; omega)
  refine ⟨?_, State.wordAt_fenceTicket _ _, ?_, fun k hk ho => ?_⟩
  · rw [State.rd_fenceReq, if_pos rfl, htic]
  · rw [State.fence_fenceReq, htic, State.waiting_noted, State.noted_commitQ]
  · rw [State.rd_fenceReq, if_neg fun e => hk (by simp [e]), State.rd_noted _ _ _ ho]

theorem nextTicket_succ {n : Nat} (h : n < 0x1FFFFFFF) : nextTicket n = n + 1 := if_neg (by omega)

/-! ### A ticket retires -/

/-- The fences of pages, written with one ticket each. -/
def State.fencesSeen (s : State) (pages : List Nat) (w : Word) : State := pages.foldl (fun s pg => s.wr (Reg.FENCE_SEEN (pg * 0x1000)) w) s

theorem State.rd_fencesSeen_page {pages : List Nat} {w : Word} {pg : Nat} :
    ∀ {s : State}, pg ∈ pages ∨ s.rd (Reg.FENCE_SEEN (pg * 0x1000)) = w → (s.fencesSeen pages w).rd (Reg.FENCE_SEEN (pg * 0x1000)) = w := by
  induction pages with
  | nil => intro s h; exact h.resolve_left List.not_mem_nil
  | cons p ps ih =>
    intro s h
    refine ih (s := s.wr (Reg.FENCE_SEEN (p * 0x1000)) w) ?_
    rw [State.rd_wr]
    rcases h with h | h
    · rcases List.mem_cons.mp h with rfl | h
      · exact .inr (if_pos rfl)
      · exact .inl h
    · right
      split
      · rfl
      · exact h

theorem regsBut_fencesSeen (pages : List Nat) (w : Word) :
    ∀ s : State, regsBut (pages.map fun pg => Reg.FENCE_SEEN (pg * 0x1000)) s (s.fencesSeen pages w) := by
  induction pages with
  | nil => exact fun s => .of_regs rfl
  | cons p ps ih => exact fun s => (regsBut_wr s (by simp) w).trans ((ih _).mono fun k hk => List.mem_cons_of_mem _ hk)

theorem State.fencesSeen_chg {w : List Area} {s0 s : State} {pages : List Nat} {v : Word} (hw : Within [.regs] w) (hs : Chg w s0 s) :
    Chg w s0 (s.fencesSeen pages v) :=
  Chg.foldl (fun _ _ h => State.wr_chg hw.up h) hs

/-- The state after a ticket's writes: it has left the queue, and GLB_FENCE_DONE and its pages hold it. -/
def State.ticketDone (s : State) (m : Nat) (k : Ticket) (q : List Ticket) : State :=
  ((s.setFence m ⟨q, (s.fence m).touched⟩).wr (bankKey m Reg.GLB_FENCE_DONE) (wd k.num)).fencesSeen k.pages (wd (m * 2 ^ 29 + k.num))

/-- A master's oldest ticket, which waits for no COMMIT, is written; a ticket awaited raises its interrupt. -/
theorem State.fenceRetire_eq {s : State} {m : Nat} {k : Ticket} {q : List Ticket} (h : (s.fence m).waiting = k :: q) (hc : k.commit = false) :
    s.fenceRetire m = if (s.ticketDone m k q).rf (bankKey m Reg.GLB_FENCE_WAIT) 0 29 = k.num then (s.ticketDone m k q).raise .glb 0 m
      else s.ticketDone m k q := by
  unfold State.fenceRetire
  extract_lets f
  rw [h]
  exact if_neg (by simp [hc])

theorem fenceSeen_ne {m o pg : Nat} (hlt : o < 0x1000) (ho : o ≠ 0x2C) : Reg.FENCE_SEEN (pg * 0x1000) ≠ bankKey m o := by
  unfold Reg.FENCE_SEEN bankKey
  omega

section

variable {s : State} {m : Nat} {k : Ticket} {q : List Ticket}

/-- The tickets behind keep their order. -/
theorem State.ticketDone_waiting : ((s.ticketDone m k q).fence m).waiting = q := by
  have hf : (s.ticketDone m k q).fence m = ⟨q, (s.fence m).touched⟩ :=
    (State.fence_congr ((State.fencesSeen_chg (Within.self _) (Chg.refl _)).same .fences (by decide)).symm m).trans
      ((State.fence_congr rfl m).trans ((s.fence_setFence m m _).trans (if_pos rfl)))
  rw [hf]

/-- A register of the master that is not a page's FENCE_SEEN is as before the pages were written. -/
theorem State.rd_ticketDone_bank {o : Nat} (ho : o < 0x1000) (hne : o ≠ 0x2C) :
    (s.ticketDone m k q).rd (bankKey m o) = if o = Reg.GLB_FENCE_DONE then wd k.num else s.rd (bankKey m o) := by
  refine (regsBut_fencesSeen k.pages _ _ _ ?_ (bankKey_ne_pfc m (.inl (by omega)) (by omega))).trans ?_
  · intro hmem
    obtain ⟨pg, -, e⟩ := List.mem_map.mp hmem
    exact fenceSeen_ne ho hne e
  · by_cases hdone : o = Reg.GLB_FENCE_DONE
    · subst hdone
      rw [if_pos rfl, State.rd_wr_same]
    · rw [if_neg hdone, State.rd_wr_ne _ _ (by unfold bankKey; omega), State.rd_setFence]

theorem State.rd_ticketDone_page {pg : Nat} (hp : pg ∈ k.pages) :
    (s.ticketDone m k q).rd (Reg.FENCE_SEEN (pg * 0x1000)) = wd (m * 2 ^ 29 + k.num) :=
  State.rd_fencesSeen_page (.inl hp)

theorem regsBut_ticketDone :
    regsBut ([bankKey m Reg.GLB_FENCE_DONE, Reg.INT_RAW 0] ++ k.pages.map (fun pg => Reg.FENCE_SEEN (pg * 0x1000))) s (s.ticketDone m k q) :=
  ((regsBut.of_regs (State.setFence_regs s m ⟨q, (s.fence m).touched⟩)).trans (regsBut_wr _ List.mem_cons_self _)).trans
    ((regsBut_fencesSeen k.pages _ _).mono fun _ hx => List.mem_append_right [bankKey m Reg.GLB_FENCE_DONE, Reg.INT_RAW 0] hx)

end

/-- With no in-band request waiting, nothing is answered. -/
theorem State.ibmFenced_none {s : State} (h : s.hif.ibmWait = []) (m n : Nat) : s.ibmFenced m n = s := by
  have keep : { s with hif := { s.hif with ibmWait := [] } } = s := by rw [← h]
  unfold State.ibmFenced
  rw [h]
  exact keep

/-- With no fence of the monitor waiting, nothing is answered. -/
theorem State.unborFenced_none {s : State} (h : s.mgs.unborTicket = 0) (m n : Nat) : s.unborFenced m n = s :=
  if_neg (by omega)

/-- The retired state when nothing waits for the ticket. -/
theorem State.fenceRetired_eq {s : State} {m : Nat} {k : Ticket} {q : List Ticket} (h : (s.fence m).waiting = k :: q) (hc : k.commit = false)
    (hi : s.hif.ibmWait = []) (hu : s.mgs.unborTicket = 0) : s.fenceRetired m = s.fenceRetire m := by
  have chg := State.fenceRetire_chg (m := m) (Within.self _) (Chg.refl s)
  have hhif : (s.fenceRetire m).hif = s.hif := (chg.same .hif (by decide)).symm
  have hmgs : (s.fenceRetire m).mgs = s.mgs := (chg.same .mgs (by decide)).symm
  unfold State.fenceRetired
  rw [h]
  simp only [hc]
  rw [State.ibmFenced_none (by rw [hhif, hi]), State.unborFenced_none (by rw [hmgs, hu])]
  exact if_neg (by decide)

theorem fenceRetired_retires {m : Nat} {s : State} {k : Ticket} {q : List Ticket} (h : (s.fence m).waiting = k :: q) (hc : k.commit = false)
    (hi : s.inj = []) (hw : s.hif.ibmWait = []) (hu : s.mgs.unborTicket = 0) (hm : m < 5) :
    Completes (.fenceRetired m) s fun t =>
      t.rd (bankKey m Reg.GLB_FENCE_DONE) = wd k.num ∧
      (∀ pg, pg ∈ k.pages → t.rd (Reg.FENCE_SEEN (pg * 0x1000)) = wd (m * 2 ^ 29 + k.num)) ∧
      (t.fence m).waiting = q ∧
      (s.rf (bankKey m Reg.GLB_FENCE_WAIT) 0 29 = k.num → t.rb (Reg.INT_RAW 0) m = true) ∧
      regsBut ([bankKey m Reg.GLB_FENCE_DONE, Reg.INT_RAW 0] ++ k.pages.map (fun pg => Reg.FENCE_SEEN (pg * 0x1000))) s t := by
  have hinj : (s.fenceRetire m).inj = [] :=
    ((State.fenceRetire_chg (m := m) (Within.self _) (Chg.refl s)).same .inj (by decide)).symm.trans hi
  have hwait : (s.ticketDone m k q).rf (bankKey m Reg.GLB_FENCE_WAIT) 0 29 = s.rf (bankKey m Reg.GLB_FENCE_WAIT) 0 29 := by
    unfold State.rf
    rw [State.rd_ticketDone_bank (by decide) (by decide), if_neg (by decide)]
  have hdone : (s.ticketDone m k q).rd (bankKey m Reg.GLB_FENCE_DONE) = wd k.num :=
    (State.rd_ticketDone_bank (by decide) (by decide)).trans (if_pos rfl)
  refine ⟨s.fenceRetire m, ?_, ?_⟩
  · show settled (s.fenceRetired m) = _
    rw [settled, State.fenceRetired_eq h hc hw hu, State.settle_nil hinj]
  rw [State.fenceRetire_eq h hc]
  split
  · refine ⟨?_, fun pg hp => ?_, ?_, fun _ => State.rb_raiseAt _ 0 (by omega),
      regsBut_ticketDone.trans (regsBut_raiseAt _ (List.mem_cons_of_mem _ List.mem_cons_self) m)⟩
    · rw [State.rd_raise, if_neg (by unfold bankKey; show ¬ (0x18 = m * 0x4000000 + 0xC8); omega), hdone]
    · rw [State.rd_raise, if_neg (by show ¬ (0x18 = pg * 0x1000 + 0x2C); omega), State.rd_ticketDone_page hp]
    · rw [State.fence_congr (State.raise_fences _ _ _ _), State.ticketDone_waiting]
  · next hne =>
    exact ⟨hdone, fun pg hp => State.rd_ticketDone_page hp, State.ticketDone_waiting, fun e => absurd (hwait.trans e) hne, regsBut_ticketDone⟩

end Sys2Proof.Machine

open Sys2Proof Sys2Proof.Machine

/-- Settles O7: the noted write changes no ticket, and the ticket register is the master's own. -/
theorem fenceRequestIssuesNextTicket : Obligations.FenceRequestIssuesNextTicket := by
  unfold Obligations.FenceRequestIssuesNextTicket
  refine ⟨fun m s h => fenceReq_issues h, fun n h => nextTicket_succ h, rfl, ?_⟩
  decide

/-- Settles O8: the writes of the retired ticket go to different words, and nothing waits for its answer. -/
theorem fenceTicketRetires : Obligations.FenceTicketRetires := by
  unfold Obligations.FenceTicketRetires
  exact fun m s k q h hc hi hw hu hm _ => fenceRetired_retires h hc hi hw hu hm

end
section
/-! The release of a result (R51). -/

namespace Sys2Proof.Machine

theorem State.resAck_idle {s : State} {i : Nat} (h : (s.slot i).idle = true) (m a : Nat) (v : Word) (k : State → State) :
    s.resAck i m a v k = s := by
  unfold State.resAck
  exact if_pos h

theorem State.resAck_denied {s : State} {i m : Nat} (h : (s.slot i).idle = false) (ho : (s.slot i).owner ≠ m) (a : Nat) (v : Word)
    (k : State → State) : s.resAck i m a v k = s.violate .denied m a true := by
  unfold State.resAck
  rw [if_neg (by simp [h]), if_pos ho]

/-- An acknowledgement by the owner of a result that is not VALID, or of another SEQ, does nothing. -/
theorem State.resAck_other {s : State} {i m : Nat} (ho : (s.slot i).owner = m) {v : Word}
    (hv : (s.slot i).valid = false ∨ fld v 0 16 ≠ (s.slot i).seq) (a : Nat) (k : State → State) : s.resAck i m a v k = s := by
  unfold State.resAck
  extract_lets t
  split
  · rfl
  · rw [if_neg (by exact fun h => h ho), if_neg]
    rintro ⟨hval, hseq⟩
    rcases hv with h | h
    · rw [h] at hval
      cases hval
    · exact h hseq

theorem State.resAck_release {s : State} {i m : Nat} (ho : (s.slot i).owner = m) (hval : (s.slot i).valid = true) {v : Word}
    (hseq : fld v 0 16 = (s.slot i).seq) (a : Nat) (k : State → State) : s.resAck i m a v k = k (s.setSlot i (s.slot i).release) := by
  have hidle : (s.slot i).idle = false := by unfold Slot.idle; rw [hval]; rfl
  unfold State.resAck
  rw [if_neg (by simp [hidle]), if_neg (fun h => h ho), if_pos ⟨hval, hseq⟩]

/-- A SEQ is the low half of the word that acknowledges it. -/
theorem fld_seq (n : Nat) : fld (wd n) 0 16 = n % 0x10000 := by
  rw [fld_wd_low n (by decide)]
  rfl

theorem resAck_releases {m a seq i : Nat} {s : State} (hi : ackSlot m a = some i) (h : s.admits m a = true) :
    Completes (.resAck m a seq) s fun t =>
      ((s.slot i).owner = m → (s.slot i).valid = true → seq % 0x10000 = (s.slot i).seq →
        t.slot i = ⟨false, false, m, (s.slot i).seq, ⟨Code.idle, 0, 0, [], []⟩, none⟩ ∧ (∀ j, j ≠ i → t.slot j = s.slot j) ∧ regsBut [] s t) ∧
      ((s.slot i).owner = m → ((s.slot i).valid = false ∨ seq % 0x10000 ≠ (s.slot i).seq) → t.slots = s.slots ∧ regsBut [] s t) ∧
      ((s.slot i).owner ≠ m → (s.slot i).idle = false → t.slots = s.slots ∧
        t.rd Reg.GLB_ACC_VIOL_CNT = evtNext (s.rd Reg.GLB_ACC_VIOL_CNT) ∧
        t.rd Reg.GLB_ACC_CAP0 = wd (m * 2 ^ 29 + a / 0x1000 % 0x4000 * 4) ∧
        t.rd Reg.GLB_ACC_CAP1 = wd (a % 0x1000 / 4 * 4 + 0x1000 + 0x10000)) ∧
      ((s.slot i).idle = true → t.slots = s.slots ∧ regsBut [] s t) := by
  refine ⟨s.access m a fun u => match ackSlot m a with | some i => u.resAck i m a (wd seq) | none => u, rfl, ?_⟩
  rw [State.access_ok h]
  simp only [hi]
  have hslot : (s.noted m a).slot i = s.slot i := State.slot_noted ..
  have hkeep : (s.noted m a).slots = s.slots ∧ regsBut [] s (s.noted m a) := ⟨State.noted_slots .., regsBut_noted _ s m a⟩
  refine ⟨fun ho hv hs => ?_, fun ho hv => ?_, fun ho hidle => ?_, fun hidle => ?_⟩
  · rw [State.resAck_release (by rw [hslot, ho]) (by rw [hslot, hv]) (by rw [hslot, fld_seq, hs]), hslot]
    refine ⟨?_, fun j hj => ?_, hkeep.2⟩
    · show ((s.noted m a).setSlot i (s.slot i).release).slot i = _
      rw [State.slot_setSlot, if_pos rfl, ← ho]
      rfl
    · show ((s.noted m a).setSlot i (s.slot i).release).slot j = _
      rw [State.slot_setSlot, if_neg (Ne.symm hj), State.slot_noted]
  · rwa [State.resAck_other (by rw [hslot, ho]) (by rw [hslot, fld_seq]; exact hv)]
  · rw [State.resAck_denied (by rw [hslot, hidle]) (by rwa [hslot])]
    have hrec := (s.noted m a).violate_recorded .denied m a
    have hcnt : (s.noted m a).rd Reg.GLB_ACC_VIOL_CNT = s.rd Reg.GLB_ACC_VIOL_CNT := State.rd_noted _ _ _ (.inl (by decide))
    exact ⟨(State.violate_slots ..).trans hkeep.1, hcnt ▸ hrec.count, hrec.page, hrec.offset⟩
  · rwa [State.resAck_idle (by rw [hslot, hidle])]

end Sys2Proof.Machine

open Sys2Proof Sys2Proof.Machine

/-- Settles O11: an acknowledgement is idle, denied, ignored or a release, by the slot's state and its owner. -/
theorem resultAcknowledged : Obligations.ResultAcknowledged := by
  unfold Obligations.ResultAcknowledged
  exact ⟨fun i => ⟨rfl, rfl, rfl⟩, fun m a seq i s hi h => resAck_releases hi h⟩

end
section
/-! Writes that a rule of access stops (R25, R27, R32-R37). -/

namespace Sys2Proof.Machine

/-- An address below the cores' own is written on the bus. -/
theorem State.anyWrite_bus {m a : Nat} (h : m = 2 → a < 0x4000000) (s : State) (v : Word) (full : Bool) (core : Nat) :
    s.anyWrite m a v full core = s.regWrite m a v full core :=
  if_neg fun ⟨hm, ha⟩ => absurd (h hm) (by omega)

/-- The state of a write that a rule stops. -/
theorem State.regWrite_viol {m a core : Nat} {full : Bool} {s : State} {k : Viol} (h0 : (s.asCore m core).svcBar m a = 0)
    (h : (s.asCore m core).writeViol m a full = some k) (v : Word) :
    s.regWrite m a v full core = ((s.asCore m core).violate k m a true).perf 0x02 1 (some m) (some a) :=
  State.access_viol h0 h _

/-- Until the queue of frames is looked at, a register write leaves it alone when its access does. -/
theorem State.exec_regWrite {m a core : Nat} {full : Bool} {v : Word} {s : State} (hb : m = 2 → a < 0x4000000)
    (hi : (s.regWrite m a v full core).inj = []) : exec (.regWrite m a v full core) s = .next (s.regWrite m a v full core) := by
  show settled (s.anyWrite m a v full core) = _
  rw [settled, State.anyWrite_bus hb, State.settle_nil hi]

/-- What a stopped write records is read against the state before the core presented its access. -/
theorem regWrite_recorded {m a core : Nat} {full : Bool} {s : State} {k : Viol} (h0 : (s.asCore m core).svcBar m a = 0)
    (h : (s.asCore m core).writeViol m a full = some k) (v : Word) : Recorded k m a s (s.regWrite m a v full core) := by
  rw [State.regWrite_viol h0 h]
  exact (((s.asCore m core).violate_recorded k m a).perf _ _ _ _).of_regs (State.asCore_regs ..)

/-- The areas a stopped write may change: the record's registers, its interrupt, its log request, and the core that presented it. -/
theorem regWrite_stopped_sameBut {m a core : Nat} {full : Bool} {s : State} {k : Viol} (h0 : (s.asCore m core).svcBar m a = 0)
    (h : (s.asCore m core).writeViol m a full = some k) (v : Word) :
    sameBut [.regs, .msix, .hif, .mgs, .svc, .out] s (s.regWrite m a v full core) := by
  rw [State.regWrite_viol h0 h]
  have chg : Chg [.regs, .msix, .hif, .mgs, .svc, .out] s (((s.asCore m core).violate k m a true).perf 0x02 1 (some m) (some a)) :=
    State.perf_chg (Within.self _).up (State.violate_chg (Within.self _).up (State.asCore_chg (Within.self _).up (Chg.refl s)))
  exact fun x hx => chg.same x hx

theorem regWrite_stopped {m a core : Nat} {full : Bool} {v : Word} {s : State} {k : Viol} (hb : m = 2 → a < 0x4000000)
    (h0 : (s.asCore m core).svcBar m a = 0) (h : (s.asCore m core).writeViol m a full = some k) (hi : s.inj = []) :
    exec (.regWrite m a v full core) s = .next (s.regWrite m a v full core) :=
  State.exec_regWrite hb ((regWrite_stopped_sameBut h0 h v .inj (by decide)).symm.trans hi)

end Sys2Proof.Machine

open Sys2Proof Sys2Proof.Machine

/-- Settles O16: a stopped write is its record, in the registers, and nothing else, in the other areas. -/
theorem stoppedWriteIsOnlyRecorded : Obligations.StoppedWriteIsOnlyRecorded := by
  unfold Obligations.StoppedWriteIsOnlyRecorded
  intro m a v full core s k hb h0 h hi
  have hrec := regWrite_recorded h0 h v
  exact ⟨_, regWrite_stopped hb h0 h hi, hrec.count, hrec.page, hrec.offset, hrec.raised, hrec.rest, regWrite_stopped_sameBut h0 h v⟩

end
section
/-! Locked registers and the write masks (R34, R36). -/

namespace Sys2Proof.Machine

/-! ### Locked registers -/

theorem State.asCore_writeViol (s : State) (m core n a : Nat) (full : Bool) : (s.asCore m core).writeViol n a full = s.writeViol n a full := by
  unfold State.asCore
  split <;> rfl

/-- Neither the global page nor the performance counters' has a register that BLK_LOCK protects. -/
theorem lockable_block {b : Blk} {off k : Nat} {d : RegDesc} (h : findReg b off = some (d, k)) (hd : d.acc = .rwl) : b ≠ .glb ∧ b ≠ .pfc := by
  have none_in_header : ∀ d ∈ hdrRegs, d.acc ≠ .rwl := by decide
  have none_in_glb : ∀ d ∈ blkRegs .glb, d.acc ≠ .rwl := by decide
  have none_in_pfc : ∀ d ∈ blkRegs .pfc, d.acc ≠ .rwl := by decide
  have hmem := (findReg_mem h).resolve_left fun hm => none_in_header d hm hd
  constructor
  · rintro rfl
    exact none_in_glb d hmem hd
  · rintro rfl
    exact none_in_pfc d hmem hd

theorem State.writeViol_locked {s : State} {m a i k : Nat} {b : Blk} {d : RegDesc} (h4 : a % 4 = 0) (hw : inWindow a = false)
    (hp : pageOf (a / 0x1000) = some (b, i)) (hon : s.blkOn b = true) (hsel : a ≠ Reg.GLB_PERM_SEL) (hdata : a ≠ Reg.GLB_PERM_DATA)
    (hm : bit (s.writeMask (a / 0x1000)) m = true) (hr : findReg b (a % 0x1000) = some (d, k)) (hd : d.acc = .rwl)
    (hlock : s.rb (Reg.BLK_LOCK (a / 0x1000 * 0x1000)) 0 = true) : s.writeViol m a true = some .locked := by
  unfold State.writeViol
  rw [if_neg (by simp [h4]), if_neg (by simp [hw]), hp]
  simp only
  rw [if_neg (by simp [hon]), if_neg (by simp [hsel, hdata]), if_neg (by simp [hm]), hr]
  exact if_pos ⟨hd, hlock⟩

theorem locked_kept {m a i k core : Nat} {v : Word} {s : State} {b : Blk} {d : RegDesc} (h0 : (s.asCore m core).svcBar m a = 0)
    (hi : s.inj = []) (hp : pageOf (a / 0x1000) = some (b, i)) (hr : findReg b (a % 0x1000) = some (d, k)) (hd : d.acc = .rwl)
    (h : s.writeViol m a true = some .locked) :
    Completes (.regWrite m a v true core) s fun t =>
      t.rd (d.key m a) = s.rd (d.key m a) ∧ t.rd Reg.GLB_ACC_CAP0 = wd (m * 2 ^ 29 + a / 0x1000 % 0x4000 * 4) ∧
      t.rd Reg.GLB_ACC_CAP1 = wd (a % 0x1000 / 4 * 4 + 0x2000 + 0x10000) := by
  have hviol : (s.asCore m core).writeViol m a true = some .locked := (State.asCore_writeViol ..).trans h
  obtain ⟨hglb, hpfc⟩ := lockable_block hr hd
  have hnot0 : a / 0x1000 ≠ 0 := pageOf_ne hp (show pageOf 0 = some (.glb, 0) from rfl) hglb
  have hnot4 : a / 0x1000 ≠ 4 := pageOf_ne hp (show pageOf 4 = some (.pfc, 0) from rfl) hpfc
  have hle := pageOf_le hp
  have hkey : 0x1000 ≤ d.key m a := by
    unfold RegDesc.key bankKey
    split <;> omega
  have hrec := regWrite_recorded h0 hviol v
  refine ⟨_, regWrite_stopped (fun _ => by omega) h0 hviol hi, hrec.rest _ (fun hmem => ?_) (d.key_ne_pfc m hnot4), hrec.page,
    hrec.offset⟩
  have hlow : ∀ x ∈ [Reg.GLB_ACC_VIOL_CNT, Reg.GLB_ACC_CAP0, Reg.GLB_ACC_CAP1, Reg.INT_RAW 0], x < 0x1000 := by decide
  exact absurd (hlow _ hmem) (by omega)

/-! ### The write masks -/

/-- GLB_PERM_SEL and GLB_PERM_DATA are denied to a master other than 3. -/
theorem State.writeViol_perm {s : State} {a : Nat} (ha : a = Reg.GLB_PERM_SEL ∨ a = Reg.GLB_PERM_DATA) (m : Nat) :
    s.writeViol m a true = if s.pwr.mgsOn then (if m = 3 then none else some .denied) else some .domainOff := by
  have hpage : pageOf (a / 0x1000) = some (.glb, 0) := by rcases ha with rfl | rfl <;> rfl
  have h4 : a % 4 = 0 := by rcases ha with rfl | rfl <;> rfl
  have hw : inWindow a = false := by rcases ha with rfl | rfl <;> rfl
  unfold State.writeViol
  rw [if_neg (by simp [h4]), if_neg (by simp [hw]), hpage]
  simp only
  rw [if_pos ha]
  show (if !s.pwr.mgsOn then _ else _) = _
  cases s.pwr.mgsOn <;> rfl

theorem State.svcBar_bus {m : Nat} (h : m ≠ 2) (s : State) (a : Nat) : s.svcBar m a = 0 := if_pos h

/-- The registers a stopped access of the Service Cluster may change: the violation's and the firewall's. -/
def stopRegs : List Nat :=
  [Reg.GLB_ACC_VIOL_CNT, Reg.GLB_ACC_CAP0, Reg.GLB_ACC_CAP1, Reg.INT_RAW 0, Reg.SVC_FW_VIOL, Reg.INT_RAW (pageBase .svc 0)]

theorem regsBut_fwViol (s : State) : regsBut stopRegs s s.fwViol :=
  ((regsBut_evt s (by decide)).trans (regsBut_raiseAt _ (by decide) _)).trans (.of_regs (State.logEvt_regs ..))

theorem regsBut_violate_perf (s : State) (k : Viol) (m a code n : Nat) (x y : Option Nat) :
    regsBut stopRegs s ((s.violate k m a true).perf code n x y) :=
  ((s.violate_recorded k m a).perf code n x y).rest.mono (by decide)

/-- Whatever stops an access, it changes no register but those of the record. -/
theorem regsBut_access_stopped {s : State} {m a : Nat} {full : Bool} {k : Viol} (h : s.writeViol m a full = some k) (f : State → State) :
    regsBut stopRegs s (s.access m a f full) := by
  unfold State.access
  split
  · exact (regsBut_fwViol s).trans (regsBut_violate_perf _ _ _ _ _ _ _ _)
  · split
    · exact regsBut_fwViol s
    · rw [h]
      exact regsBut_violate_perf _ _ _ _ _ _ _ _

/-- No write mask is one of the record's registers, nor a performance counter's. -/
theorem writeMask_kept {s t : State} (h : regsBut stopRegs s t) (pg : Nat) : t.writeMask pg = s.writeMask pg := by
  have hhigh := itemKey_high pg Reg.GLB_PERM_DATA
  refine h _ ?_ (.inr (by omega))
  have hlow : ∀ k ∈ stopRegs, k < 0x100000000 := by decide
  exact fun hm => absurd (hlow _ hm) (by omega)

theorem permSel_kept {s t : State} (h : regsBut stopRegs s t) : t.rd Reg.GLB_PERM_SEL = s.rd Reg.GLB_PERM_SEL :=
  h _ (by decide) (.inl (by decide))

theorem State.writeViol_perm_stopped {s : State} {a m : Nat} (ha : a = Reg.GLB_PERM_SEL ∨ a = Reg.GLB_PERM_DATA) (hm : m ≠ 3) :
    ∃ k, s.writeViol m a true = some k := by
  rw [State.writeViol_perm ha, if_neg hm]
  split
  · exact ⟨_, rfl⟩
  · exact ⟨_, rfl⟩

theorem access_inj {s : State} {m a : Nat} {full : Bool} {k : Viol} (h : s.writeViol m a full = some k) (f : State → State) :
    (s.access m a f full).inj = s.inj := by
  unfold State.access
  rw [h]
  split
  · rw [State.perf_inj, State.violate_inj]
    exact ((State.fwViol_chg (Within.self _) (Chg.refl s)).same .inj (by decide)).symm
  · split
    · exact ((State.fwViol_chg (Within.self _) (Chg.refl s)).same .inj (by decide)).symm
    · rw [State.perf_inj, State.violate_inj]

/-- A master other than 3 leaves GLB_PERM_SEL and the write masks as they are. -/
theorem perm_kept {m core : Nat} {v : Word} {s : State} (hm : m ≠ 3) (hi : s.inj = []) :
    (Completes (.regWrite m Reg.GLB_PERM_SEL v true core) s fun t => t.rd Reg.GLB_PERM_SEL = s.rd Reg.GLB_PERM_SEL) ∧
    (Completes (.writeMaskWrite m v) s fun t => ∀ pg, t.writeMask pg = s.writeMask pg) := by
  constructor
  · obtain ⟨k, hk⟩ := State.writeViol_perm_stopped (s := s.asCore m core) (.inl rfl) hm
    have hinj : (s.regWrite m Reg.GLB_PERM_SEL v true core).inj = [] := (access_inj hk _).trans ((State.asCore_inj ..).trans hi)
    refine ⟨_, State.exec_regWrite (fun _ => by decide) hinj, ?_⟩
    exact permSel_kept ((regsBut.of_regs (State.asCore_regs ..)).trans (regsBut_access_stopped hk _))
  · obtain ⟨k, hk⟩ := State.writeViol_perm_stopped (s := s) (.inr rfl) hm
    exact ⟨s.access m Reg.GLB_PERM_DATA fun u => u.maskWrite v, rfl, fun pg => writeMask_kept (regsBut_access_stopped hk _) pg⟩

/-- With the domain powered, a master on the bus is recorded as DENIED. -/
theorem perm_denied {m core : Nat} {v : Word} {s : State} (h3 : m ≠ 3) (h2 : m ≠ 2) (hi : s.inj = []) (hon : s.pwr.mgsOn = true) :
    (Completes (.regWrite m Reg.GLB_PERM_SEL v true core) s fun t =>
      t.rd Reg.GLB_PERM_SEL = s.rd Reg.GLB_PERM_SEL ∧ t.rd Reg.GLB_ACC_CAP1 = wd (Reg.GLB_PERM_SEL + 0x1000 + 0x10000)) ∧
    (Completes (.writeMaskWrite m v) s fun t =>
      (∀ pg, t.writeMask pg = s.writeMask pg) ∧ t.rd Reg.GLB_ACC_CAP1 = wd (Reg.GLB_PERM_DATA + 0x1000 + 0x10000)) := by
  have hviol : ∀ a, a = Reg.GLB_PERM_SEL ∨ a = Reg.GLB_PERM_DATA → s.writeViol m a true = some .denied := by
    intro a ha
    rw [State.writeViol_perm ha, if_pos hon, if_neg h3]
  constructor
  · have hcore : (s.asCore m core).writeViol m Reg.GLB_PERM_SEL true = some .denied := (State.asCore_writeViol ..).trans (hviol _ (.inl rfl))
    have hrec := regWrite_recorded (State.svcBar_bus h2 _ _) hcore v
    exact ⟨_, regWrite_stopped (fun h => absurd h h2) (State.svcBar_bus h2 _ _) hcore hi, permSel_kept (hrec.rest.mono (by decide)),
      hrec.offset⟩
  · have hdata := hviol Reg.GLB_PERM_DATA (.inr rfl)
    refine ⟨s.access m Reg.GLB_PERM_DATA fun u => u.maskWrite v, rfl, ?_⟩
    rw [State.access_viol (State.svcBar_bus h2 _ _) hdata]
    have hrec := (s.violate_recorded .denied m Reg.GLB_PERM_DATA).perf 0x02 1 (some m) (some Reg.GLB_PERM_DATA)
    exact ⟨fun pg => writeMask_kept (hrec.rest.mono (by decide)) pg, hrec.offset⟩

/-- Nothing stops master 3's writes of GLB_PERM_SEL and GLB_PERM_DATA, whatever the masks say. -/
theorem State.admits_perm {s : State} {a : Nat} (ha : a = Reg.GLB_PERM_SEL ∨ a = Reg.GLB_PERM_DATA) (hon : s.pwr.mgsOn = true) :
    s.admits 3 a = true := by
  unfold State.admits
  rw [State.svcBar_bus (by decide), State.writeViol_perm ha, if_pos hon]
  rfl

/-- The bits that a register's mask covers are read as they were written. -/
theorem fld_stored (old v : Word) : fld ((old &&& ~~~(wd 0x3FFF)) ||| (v &&& wd 0x3FFF)) 0 14 = fld v 0 14 := by
  apply Nat.eq_of_testBit_eq
  intro j
  unfold fld wd
  rw [Nat.shiftRight_zero, Nat.shiftRight_zero, Nat.testBit_mod_two_pow, Nat.testBit_mod_two_pow, BitVec.testBit_toNat, BitVec.testBit_toNat]
  by_cases hj : j < 14
  · have hmask : (BitVec.ofNat 32 0x3FFF).getLsbD j = true := by
      rw [BitVec.getLsbD_ofNat, show 0x3FFF = 2 ^ 14 - 1 from rfl, Nat.testBit_two_pow_sub_one, decide_eq_true hj,
        decide_eq_true (show j < 32 by omega)]
      rfl
    rw [BitVec.getLsbD_or, BitVec.getLsbD_and, BitVec.getLsbD_and, BitVec.getLsbD_not, hmask]
    simp
  · rw [decide_eq_false hj, Bool.false_and, Bool.false_and]

/-- GLB_PERM_SEL keeps the 14 bits of the page selected. -/
theorem State.rf_permSel_written (s : State) (m : Nat) (v : Word) : (s.storeWrite m Reg.GLB_PERM_SEL v).rf Reg.GLB_PERM_SEL 0 14 = fld v 0 14 := by
  have hreg : findReg .glb (Reg.GLB_PERM_SEL % 0x1000) = some (⟨0x100, 1, 0x0, .rw, 0x0, 0x3FFF, false, [], none⟩, 0) := rfl
  have hstore : s.storeWrite m Reg.GLB_PERM_SEL v = s.wr Reg.GLB_PERM_SEL ((s.rd Reg.GLB_PERM_SEL &&& ~~~(wd 0x3FFF)) ||| (v &&& wd 0x3FFF)) := by
    rw [State.storeWrite_cfg (show pageOf (Reg.GLB_PERM_SEL / 0x1000) = some (.glb, 0) from rfl) (by decide) hreg (.inl rfl),
      State.cfgWrite_own (show pageOf (Reg.GLB_PERM_SEL / 0x1000) = some (.glb, 0) from rfl) (by decide)]
    exact State.plainWrite_eq (show pageOf (Reg.GLB_PERM_SEL / 0x1000) = some (.glb, 0) from rfl) hreg s m v
  unfold State.rf
  rw [hstore, State.rd_wr_same]
  exact fld_stored _ v

theorem perm_written {core : Nat} {v : Word} {s : State} (hi : s.inj = []) (hon : s.pwr.mgsOn = true) :
    (Completes (.regWrite 3 Reg.GLB_PERM_SEL v true core) s fun t => t.rf Reg.GLB_PERM_SEL 0 14 = fld v 0 14) ∧
    (Completes (.writeMaskWrite 3 v) s fun t => t.writeMask (s.rf Reg.GLB_PERM_SEL 0 14) = v &&& 0x1F) := by
  constructor
  · have hwrite : s.regWrite 3 Reg.GLB_PERM_SEL v true core = (s.noted 3 Reg.GLB_PERM_SEL).storeWrite 3 Reg.GLB_PERM_SEL v :=
      State.regWrite_ok (s := s) (m := 3) (core := core) (State.admits_perm (.inl rfl) hon) v
    have hinj : (s.regWrite 3 Reg.GLB_PERM_SEL v true core).inj = [] := by
      rw [hwrite]
      exact (State.noted_inj s 3 Reg.GLB_PERM_SEL).trans hi
    refine ⟨_, State.exec_regWrite (fun h => absurd h (by decide)) hinj, ?_⟩
    rw [hwrite]
    exact State.rf_permSel_written ..
  · obtain ⟨t, he, hmask, -⟩ := writeMaskWrite_sets (v := v) (State.admits_perm (s := s) (.inr rfl) hon)
    exact ⟨t, he, hmask⟩

end Sys2Proof.Machine

open Sys2Proof Sys2Proof.Machine

/-- Settles O17: a locked register's write is only recorded, and only master 3 passes the rule of the write masks. -/
theorem lockedPagesAndWriteMasksKept : Obligations.LockedPagesAndWriteMasksKept := by
  unfold Obligations.LockedPagesAndWriteMasksKept
  refine ⟨?_, fun m v core s h3 h2 hi hon => perm_denied h3 h2 hi hon, fun v core s hi => perm_kept (by decide) hi,
    fun v core s hi hon => perm_written hi hon⟩
  intro m a v core s b i d k h0 hi h4 hw hp hon hsel hdata hm hr hd hlock
  exact locked_kept h0 hi hp hr hd (State.writeViol_locked h4 hw hp hon hsel hdata hm hr hd hlock)

end
section
/-! Commands offered to a result slot (R49, R52). -/

namespace Sys2Proof.Machine

/-! ### A refused command -/

/-- A refused command is counted and raises CMD_REJECT on the slot's page; the slots stay as they are (R52). -/
theorem State.cmdReject_counts (s : State) (base : Nat) :
    (s.cmdReject base).slots = s.slots ∧ (s.cmdReject base).rd (Reg.CMD_REJ_CNT base) = evtNext (s.rd (Reg.CMD_REJ_CNT base)) ∧
    (s.cmdReject base).rb (Reg.INT_RAW base) Irq.CMD_REJECT = true ∧
    regsBut [Reg.CMD_REJ_CNT base, Reg.INT_RAW base] s (s.cmdReject base) := by
  refine ⟨State.cmdReject_slots s base, ?_, State.rb_raiseAt _ base (by decide),
    (regsBut_evt s List.mem_cons_self).trans (regsBut_raiseAt _ (List.mem_cons_of_mem _ List.mem_cons_self) _)⟩
  unfold State.cmdReject
  rw [State.rd_raiseAt, if_neg (by show ¬ (base + 0x18 = base + 0x58); omega), State.rd_evt, if_pos rfl]

/-! ### What an accepted command leaves of its slot -/

/-- From `s` to `t` slot `i` has at most been given the result it will publish, and no frame waits anew. -/
def HeldOnly (i : Nat) (s t : State) : Prop := (∃ h, t.slot i = { s.slot i with held := h }) ∧ t.inj = s.inj

theorem HeldOnly.of_slots {s t : State} (i : Nat) (hs : t.slots = s.slots) (hi : t.inj = s.inj) : HeldOnly i s t :=
  ⟨⟨(s.slot i).held, State.slot_congr hs i⟩, hi⟩

theorem HeldOnly.trans {i : Nat} {s t u : State} (h : HeldOnly i s t) (h' : HeldOnly i t u) : HeldOnly i s u := by
  obtain ⟨⟨x, hx⟩, hi⟩ := h
  obtain ⟨⟨y, hy⟩, hi'⟩ := h'
  exact ⟨⟨y, by rw [hy, hx]⟩, hi'.trans hi⟩

theorem heldOnly_holdRes (i j : Nat) (r : Result) (s : State) : HeldOnly i s (s.holdRes j r) := by
  refine ⟨?_, rfl⟩
  unfold State.holdRes
  rw [State.slot_setSlot]
  split
  · next h => subst h; exact ⟨some r, rfl⟩
  · exact ⟨(s.slot i).held, rfl⟩

/-- A TAP command's answer reads the tables and changes none. -/
theorem heldOnly_tapRun (i m op t : Nat) (s : State) : HeldOnly i s (s.tapRun m op t).2 := by
  have chg : Chg _ s (s.tapRun m op t).2 := State.tapRun_chg (Within.self _) (Chg.refl s)
  exact .of_slots i (chg.same .slots (by decide)).symm (chg.same .inj (by decide)).symm

theorem heldOnly_budStart (i : Nat) (s : State) : HeldOnly i s s.budStart := by
  unfold State.budStart
  split
  · next c q hq =>
    have chg : Chg _ s (State.budRun { s with bud := { s.bud with work := .running c.m :: q } } c).2 :=
      State.budRun_chg (Within.self _) (Chg.upd_bud (by decide) (Chg.refl s) _)
    exact (HeldOnly.of_slots i (chg.same .slots (by decide)).symm (chg.same .inj (by decide)).symm).trans (heldOnly_holdRes i _ _ _)
  · exact .of_slots i rfl rfl

theorem heldOnly_vltStart (i : Nat) (s : State) : HeldOnly i s s.vltStart := by
  have chg : Chg _ s s.vltStart := State.vltStart_chg (Within.self _) (Chg.refl s)
  exact .of_slots i (chg.same .slots (by decide)).symm (chg.same .inj (by decide)).symm

/-! ### The commands of each page -/

/-- A slot whose command completes by an input of its own: the TAP's, the Budgeteer's and the Vault's, and, while firmware does not serve,
the mailbox's and the update page's. -/
def State.waits (s : State) (i : Nat) : Prop := i < 16 ∨ (24 ≤ i ∧ i < 32) ∨ (32 ≤ i ∧ i < 48 ∧ s.mgsUp = false)

/-- A mailbox or update slot that waits does so because firmware does not serve. -/
theorem State.waits.mail {s : State} {i : Nat} (h : s.waits i) (hi : 32 ≤ i) : s.mgsUp = false := by
  rcases h with h | ⟨-, h⟩ | ⟨-, -, h⟩
  · exact absurd hi (by omega)
  · exact absurd hi (by omega)
  · exact h

/-- The effect `f` of a command register offers a command of master `m` to slot `i` of the page at `base`; an accepted command that
waits for its completion leaves its slot as accepted. -/
def Offers (i m base : Nat) (f : State → State) : Prop :=
  ∃ k : State → State, (∀ u : State, f u = u.command i m base k) ∧ ∀ u : State, m < 8 → u.waits i → HeldOnly i u (k u)

theorem tapCmd_offers (m : Nat) (v : Word) : Offers (tapSlot m) m (pageBase .tap 0) fun u => u.tapCmd m v := by
  refine ⟨_, fun u => rfl, fun u _ _ => ?_⟩
  simp only
  split
  · exact .of_slots _ rfl rfl
  · exact (heldOnly_tapRun _ m _ _ u).trans (heldOnly_holdRes _ _ _ _)

theorem budCmd_offers (m : Nat) (v : Word) : Offers (budSlot m) m (pageBase .bud 0) fun u => u.budCmd m v :=
  ⟨_, fun _ => rfl, fun _ _ _ => (HeldOnly.of_slots _ rfl rfl).trans (heldOnly_budStart _ _)⟩

theorem vltCmd_offers (m op : Nat) : Offers (vltSlot m) m (pageBase .vlt 0) fun u => u.vltCmd m op := by
  refine ⟨_, fun u => rfl, fun u _ _ => ?_⟩
  extract_lets o idle vlt u1 u2
  have hu2 : HeldOnly (vltSlot m) u u2 := .of_slots _ (State.perf_slots ..) (State.perf_inj ..)
  split
  · exact hu2.trans (heldOnly_vltStart _ _)
  · exact hu2

/-- While firmware does not serve, a mailbox command only joins the mail. -/
theorem mgsCmd_offers (m op : Nat) : Offers (mgsSlot m) m (pageBase .mgs 0) fun u => u.mgsCmd m op := by
  refine ⟨_, fun u => rfl, fun u _ hw => ?_⟩
  have hup : u.mgsUp = false := hw.mail (Nat.le_trans (by decide) (Nat.le_add_right _ m))
  extract_lets args buf
  rw [if_neg (by simp [hup])]
  exact .of_slots _ rfl rfl

theorem updCmd_offers (m op : Nat) : Offers (updSlot m) m (pageBase .upd 0) fun u => u.updCmd m op := by
  refine ⟨_, fun u => rfl, fun u _ hw => ?_⟩
  have hup : u.mgsUp = false := hw.mail (Nat.le_trans (by decide) (Nat.le_add_right _ m))
  extract_lets off len buf
  rw [if_neg (by simp [hup])]
  exact .of_slots _ rfl rfl

theorem hadCmd_offers (m : Nat) (v : Word) : Offers (hadSlot m) m (pageBase .had 0) fun u => u.hadCmd m v := by
  refine ⟨_, fun u => rfl, fun u hm hw => ?_⟩
  unfold State.waits hadSlot at hw
  omega

theorem svcCmdOn_offers (m : Nat) (k : State → State) : Offers (svcSlot m) m (pageBase .svc 0) fun u => u.svcCmdOn m k := by
  refine ⟨_, fun u => rfl, fun u hm hw => ?_⟩
  unfold State.waits svcSlot at hw
  omega

/-! ### Every command with a slot -/

/-- Executing `c` is a write of the command register `a`, which offers the command to its slot. -/
def Offered (c : Instr) (s : State) (i m base a : Nat) : Prop :=
  ∃ f, Offers i m base f ∧ (base < 0x3800 ∨ 0x5000 ≤ base) ∧
    ∃ t, exec c s = .next t ∧ (t = s.access m a f ∨ t = (s.access m a f).settle)

section

variable {c : Instr} {s : State} {i m base a : Nat} {f : State → State}

theorem Offered.of_next (h : Offers i m base f) (e : exec c s = .next (s.access m a f)) (hb : base < 0x3800 ∨ 0x5000 ≤ base := by decide) :
    Offered c s i m base a := ⟨f, h, hb, _, e, .inl rfl⟩

theorem Offered.of_settled (h : Offers i m base f) (e : exec c s = settled (s.access m a f))
    (hb : base < 0x3800 ∨ 0x5000 ≤ base := by decide) : Offered c s i m base a := ⟨f, h, hb, _, e, .inr rfl⟩

theorem offered_tap {op t : Nat} (e : exec c s = .next (s.tapWrite m op t)) : Offered c s (tapSlot m) m (pageBase .tap 0) Reg.TAP_CMD :=
  .of_next (tapCmd_offers m _) e

theorem offered_bud {v : Word} (e : exec c s = .next (s.access m Reg.BUD_CMD fun u => u.budCmd m v)) :
    Offered c s (budSlot m) m (pageBase .bud 0) Reg.BUD_CMD := .of_next (budCmd_offers m v) e

theorem offered_vlt {op : Nat} (e : exec c s = .next (s.vltCmdWrite m op)) : Offered c s (vltSlot m) m (pageBase .vlt 0) Reg.VLT_CMD :=
  .of_next (vltCmd_offers m op) e

/-- The row of an envelope's action is offered when the envelope asks for that action. -/
theorem offered_vltAuth {p : Nat → Bool} (h : p (s.bufAction m) = true) (e : exec c s = .next (s.vltAuthRow m p)) :
    Offered c s (vltSlot m) m (pageBase .vlt 0) Reg.VLT_CMD := offered_vlt (e.trans (congrArg _ (if_pos h)))

theorem offered_mgs {op : Nat} (e : exec c s = .next (s.mgsWrite m op)) : Offered c s (mgsSlot m) m (pageBase .mgs 0) Reg.MGS_CMD :=
  .of_next (mgsCmd_offers m op) e

theorem offered_mgsAuth {n : Nat} (h : decide (s.rf (bankKey m (Reg.MGS_BUF 0)) 8 8 = n) = true) (e : exec c s = .next (s.mgsAuth m n)) :
    Offered c s (mgsSlot m) m (pageBase .mgs 0) Reg.MGS_CMD := offered_mgs (e.trans (congrArg _ (if_pos (of_decide_eq_true h))))

theorem offered_mgsAuth_settled {n : Nat} (h : decide (s.rf (bankKey m (Reg.MGS_BUF 0)) 8 8 = n) = true)
    (e : exec c s = settled (s.mgsAuth m n)) : Offered c s (mgsSlot m) m (pageBase .mgs 0) Reg.MGS_CMD :=
  .of_settled (mgsCmd_offers m 4) (e.trans (congrArg settled (if_pos (of_decide_eq_true h))))

theorem offered_upd {op : Nat} (e : exec c s = .next (s.updWriteCmd m op)) : Offered c s (updSlot m) m (pageBase .upd 0) Reg.UPD_CMD :=
  .of_next (updCmd_offers m op) e

theorem offered_had {v : Word} (e : exec c s = .next (s.access m Reg.HAD_CMD fun u => u.hadCmd m v)) :
    Offered c s (hadSlot m) m (pageBase .had 0) Reg.HAD_CMD := .of_next (hadCmd_offers m v) e

theorem offered_had_settled {v : Word} (e : exec c s = settled (s.access m Reg.HAD_CMD fun u => u.hadCmd m v)) :
    Offered c s (hadSlot m) m (pageBase .had 0) Reg.HAD_CMD := .of_settled (hadCmd_offers m v) e

theorem offered_svc {k : State → State} (e : exec c s = .next (s.access m Reg.SVC_CMD fun u => u.svcCmdOn m k)) :
    Offered c s (svcSlot m) m (pageBase .svc 0) Reg.SVC_CMD := .of_next (svcCmdOn_offers m k) e

end

/-- A command's slot, if it has one, is the one it is offered to. -/
def OfferedAs (c : Instr) (s : State) : Option (Nat × Nat × Nat × Nat) → Prop
  | none => True
  | some (i, m, base, a) => Offered c s i m base a

/-- Each command with a slot is offered to it, once the envelope it needs is the master's. -/
theorem slotCommand_offered (c : Instr) (s : State) (h : envelopeFits c s = true) : OfferedAs c s (slotCommand c) := by
  cases c with
  | tapRead | tapWrite | tapLookup | tapInsert | tapDelete | tapCommit | tapDiscard => exact offered_tap rfl
  | budRequest | budQuery | budRelease | budRead | budRecheck => exact offered_bud rfl
  | hadRead | hadReadLife => exact offered_had rfl
  | hadEnrol | hadRetire | hadReadmit => exact offered_had_settled rfl
  | vltInfo | vltGenerate | vltDerive | vltCommit | vltDiscard | vltRevoke | vltDelete | vltSign | vltVerify | vltHash | vltMac
  | vltEncrypt | vltDecrypt | vltRandom | vltAttest | authNonce | vltClaim | vltTransfer => exact offered_vlt rfl
  | tamperClear | pageUnlock | setCosign | updLock | wipe | reinit | importCmd | vltAuthoriseDelegated => exact offered_vltAuth h rfl
  | infoCmd | journalSave | journalSync | logCheckpoint | logFlush | secAck | restart | marginRun | setIds | unborLock =>
    exact offered_mgs rfl
  | authorise m => exact Offered.of_settled (mgsCmd_offers m 4) rfl
  | unborUnlock | rosterAdd | rosterRemove | rosterReplace => exact offered_mgsAuth h rfl
  | headEnrol | headRetire => exact offered_mgsAuth_settled h rfl
  | begin | updWrite | finish | activate | confirm | abort => exact offered_upd rfl
  | svcWrite | svcLoad | svcStop | svcRestart => exact offered_svc rfl
  | _ => exact trivial

/-! ### Refusal and acceptance -/

section

variable {c : Instr} {s : State} {i m base a : Nat} (hc : slotCommand c = some (i, m, base, a)) (he : envelopeFits c s = true)
  (ha : s.admits m a = true) (hi : s.inj = [])

include hc he ha hi

theorem slotCommand_refused (hidle : (s.slot i).idle = false) :
    Completes c s fun t =>
      t.slots = s.slots ∧ t.rd (Reg.CMD_REJ_CNT base) = evtNext (s.rd (Reg.CMD_REJ_CNT base)) ∧
      t.rb (Reg.INT_RAW base) Irq.CMD_REJECT = true ∧ regsBut [Reg.CMD_REJ_CNT base, Reg.INT_RAW base] s t := by
  have hoff := slotCommand_offered c s he
  rw [hc] at hoff
  obtain ⟨f, ⟨k, hf, -⟩, hbase, t, hexec, ht⟩ := hoff
  have hacc : s.access m a f = (s.noted m a).cmdReject base := by
    rw [State.access_ok ha, hf, State.command_busy (by rw [State.slot_noted, hidle])]
  have hinj : ((s.noted m a).cmdReject base).inj = [] := by rw [State.cmdReject_inj, State.noted_inj, hi]
  have hset : t = (s.noted m a).cmdReject base := by
    rcases ht with rfl | rfl
    · exact hacc
    · rw [hacc, State.settle_nil hinj]
  have hcnt : (s.noted m a).rd (Reg.CMD_REJ_CNT base) = s.rd (Reg.CMD_REJ_CNT base) :=
    State.rd_noted _ _ _ (by unfold Reg.CMD_REJ_CNT; omega)
  obtain ⟨hslots, hcount, hraised, hrest⟩ := (s.noted m a).cmdReject_counts base
  refine ⟨t, hexec, ?_⟩
  rw [hset]
  exact ⟨hslots.trans (State.noted_slots ..), hcnt ▸ hcount, hraised, (regsBut_noted _ s m a).trans hrest⟩

theorem slotCommand_accepted (hidle : (s.slot i).idle = true) (hm : m < 8) (hw : s.waits i) :
    Completes c s fun t =>
      (t.slot i).valid = false ∧ (t.slot i).busy = true ∧ (t.slot i).owner = m ∧ (t.slot i).seq = seqNext (s.slot i).seq ∧
      (t.slot i).res = ⟨Code.busy, 0, 0, [], []⟩ := by
  have hoff := slotCommand_offered c s he
  rw [hc] at hoff
  obtain ⟨f, ⟨k, hf, hk⟩, -, t, hexec, ht⟩ := hoff
  have hacc : s.access m a f = k ((s.noted m a).setSlot i ((s.slot i).accept m)) := by
    rw [State.access_ok ha, hf, State.command_idle (by rw [State.slot_noted, hidle]), State.slot_noted]
  have hmgs : ((s.noted m a).setSlot i ((s.slot i).accept m)).mgs = s.mgs := State.noted_mgs s m a
  obtain ⟨⟨held, hslot⟩, hkinj⟩ := hk ((s.noted m a).setSlot i ((s.slot i).accept m)) hm (by
    unfold State.waits State.mgsUp
    rw [hmgs]
    exact hw)
  have hinj : (s.access m a f).inj = [] := by
    rw [hacc, hkinj]
    exact (State.noted_inj s m a).trans hi
  have hset : t = s.access m a f := by
    rcases ht with rfl | rfl
    · rfl
    · exact State.settle_nil hinj
  refine ⟨t, hexec, ?_⟩
  rw [State.slot_setSlot, if_pos rfl] at hslot
  rw [hset, hacc, hslot]
  exact ⟨rfl, rfl, rfl, rfl, rfl⟩

end

/-- TAKE on a page takes that page's snapshot alone. -/
theorem State.cntSnap_take (s : State) (m pg : Nat) : s.cntSnap m pg 1 = s.snapTake m pg := by
  unfold State.cntSnap
  rw [if_neg (by decide), if_neg (fun h => absurd h.2 (by decide))]

theorem cntSnap_refused {m pg : Nat} {s : State} (hp : pg ≠ 0xC8) (h : s.admits m (Reg.CNT_SNAP (pg * 0x1000)) = true)
    (hidle : (s.slot (snapSlot pg)).idle = false) :
    Completes (.cntSnap m pg) s fun t =>
      t.slots = s.slots ∧ t.rd (Reg.CMD_REJ_CNT (pg * 0x1000)) =
        evtNext ((s.noted m (Reg.CNT_SNAP (pg * 0x1000))).rd (Reg.CMD_REJ_CNT (pg * 0x1000))) ∧
      t.rb (Reg.INT_RAW (pg * 0x1000)) Irq.CMD_REJECT = true ∧ regsBut [Reg.CMD_REJ_CNT (pg * 0x1000), Reg.INT_RAW (pg * 0x1000)] s t := by
  refine ⟨s.hdrAccess m (Reg.CNT_SNAP (pg * 0x1000)) fun u => u.cntSnap m pg 1, rfl, ?_⟩
  rw [State.hdrAccess_page (by decide) hp h, State.cntSnap_take, State.snapTake,
    State.command_busy (by rw [State.slot_noted, hidle])]
  obtain ⟨hslots, hcount, hraised, hrest⟩ := (s.noted m (Reg.CNT_SNAP (pg * 0x1000))).cmdReject_counts (pg * 0x1000)
  exact ⟨hslots.trans (State.noted_slots ..), hcount, hraised, (regsBut_noted _ s m _).trans hrest⟩

theorem seqNext_succ {n : Nat} (h : n < 0xFFFF) : seqNext n = n + 1 := if_neg (by omega)

end Sys2Proof.Machine

open Sys2Proof Sys2Proof.Machine

/-- Settles O12: every command with a slot is offered to it, and an offer to a slot in use is refused. -/
theorem commandToSlotInUseRefused : Obligations.CommandToSlotInUseRefused := by
  unfold Obligations.CommandToSlotInUseRefused
  exact ⟨fun c s i m base a hc he ha hi hidle => slotCommand_refused hc he ha hi hidle, fun m pg s hp h hidle => cntSnap_refused hp h hidle⟩

/-- Settles O13: an accepted command that waits for its completion changes nothing of its slot but the result held. -/
theorem commandToIdleSlotAccepted : Obligations.CommandToIdleSlotAccepted := by
  unfold Obligations.CommandToIdleSlotAccepted
  exact ⟨fun c s i m base a hc he ha hi hidle hm hw => slotCommand_accepted hc he ha hi hidle hm hw, fun n h => seqNext_succ h, rfl⟩

end
section
/-! TAP commands: reads and lookups, staging, and the COMMIT (R45-R48, R475). -/

namespace Sys2Proof.Machine

/-! ### A word of TAP_CMD -/

/-- The OP and the TABLE of a TAP command are read from its word as they were put there. -/
theorem fld_tapCmd {op t : Nat} (hop : op < 16) (ht : t < 16) : fld (wd (op + t * 0x100)) 0 4 = op ∧ fld (wd (op + t * 0x100)) 8 4 = t := by
  rw [fld_wd_low _ (by decide), fld_wd_low _ (by decide)]
  unfold fldN
  rw [Nat.shiftRight_eq_div_pow, Nat.shiftRight_eq_div_pow]
  omega

theorem keyed_lt {t : Nat} (h : keyed t = true) : t < 6 := by
  unfold keyed at h
  rw [Bool.or_eq_true, decide_eq_true_eq, decide_eq_true_eq] at h
  omega

/-! ### The state in which an accepted TAP command runs -/

/-- A TAP command of master `m` has been admitted and accepted. -/
def State.tapAccepted (s : State) (m : Nat) : State := (s.noted m Reg.TAP_CMD).setSlot (tapSlot m) ((s.slot (tapSlot m)).accept m)

section

variable (s : State) (m : Nat)

theorem State.tapAccepted_slot : (s.tapAccepted m).slot (tapSlot m) = (s.slot (tapSlot m)).accept m := by
  unfold State.tapAccepted
  rw [State.slot_setSlot, if_pos rfl]

theorem State.tapAccepted_tbl : (s.tapAccepted m).tbl = s.tbl := State.noted_tbl s m Reg.TAP_CMD
theorem State.tapAccepted_stage : (s.tapAccepted m).stage = s.stage := State.noted_stage s m Reg.TAP_CMD
theorem State.tapAccepted_commitQ : (s.tapAccepted m).commitQ = s.commitQ := State.noted_commitQ s m Reg.TAP_CMD
theorem State.tapAccepted_staging : (s.tapAccepted m).staging m = s.staging m := State.staging_congr (s.tapAccepted_stage m) m

theorem regsBut_tapAccepted : regsBut [] s (s.tapAccepted m) := regsBut_noted [] s m Reg.TAP_CMD

theorem State.rd_tapAccepted {a : Nat} (h : a < 0x4000 ∨ 0x5000 ≤ a) : (s.tapAccepted m).rd a = s.rd a :=
  regsBut_tapAccepted s m a List.not_mem_nil h

/-- A word of the TAP's page is no performance counter's, nor is a master's copy of it. -/
theorem State.rd_tapAccepted_bank {a : Nat} (h : a < 0x4000) : (s.tapAccepted m).rd (bankKey m a) = s.rd (bankKey m a) :=
  s.rd_tapAccepted m (bankKey_ne_pfc m (.inl h) (by omega))

theorem State.tapAccepted_index : (s.tapAccepted m).rf (bankKey m Reg.TAP_INDEX) 0 16 = s.rf (bankKey m Reg.TAP_INDEX) 0 16 :=
  congrArg (fld · 0 16) (s.rd_tapAccepted_bank m (by decide))

theorem State.tapAccepted_key : (s.tapAccepted m).tapKey m = s.tapKey m := by
  unfold State.tapKey
  refine congrArg sumN (List.map_congr_left fun k hk => ?_)
  have := List.mem_range.mp hk
  rw [State.rd_tapAccepted_bank _ _ (by unfold Reg.TAP_KEY; omega)]

theorem State.tapAccepted_data : (s.tapAccepted m).tapData m = s.tapData m := by
  unfold State.tapData
  refine congrArg (BitVec.ofNat 512 ∘ sumN) (List.map_congr_left fun k hk => ?_)
  have := List.mem_range.mp hk
  rw [State.rd_tapAccepted_bank _ _ (by unfold Reg.TAP_DATA; omega)]

theorem State.tapAccepted_tent (t i : Nat) : (s.tapAccepted m).tent t i = s.tent t i := by
  unfold State.tent
  rw [State.tapAccepted_tbl]

theorem State.tapAccepted_ictFind (key : Nat) : (s.tapAccepted m).ictFind key = s.ictFind key := by
  have hidx : (List.range 4).map ((s.tapAccepted m).ictIndex key) = (List.range 4).map (s.ictIndex key) := by
    refine List.map_congr_left fun w _ => ?_
    unfold State.ictIndex
    rw [State.rd_tapAccepted _ _ (by unfold Reg.ICT_SEED0; omega)]
  unfold State.ictFind
  rw [hidx]
  simp only [State.tapAccepted_tent]

theorem State.tapAccepted_adtFind (key : Nat) : (s.tapAccepted m).adtFind key = s.adtFind key := by
  have hidx : (List.range 4).map ((s.tapAccepted m).adtIndex key) = (List.range 4).map (s.adtIndex key) := by
    refine List.map_congr_left fun w _ => ?_
    unfold State.adtIndex
    rw [State.rd_tapAccepted _ _ (by unfold Reg.ADT_SEED0; omega)]
  unfold State.adtFind
  rw [hidx]
  simp only [State.tapAccepted_tent]

end

/-! ### What each operation answers -/

section

variable {s : State} {m t : Nat}

theorem State.tapRun_read (ht : t < 6) (hi : s.rf (bankKey m Reg.TAP_INDEX) 0 16 < tableSize t) : s.tapRun m 1 t =
    (⟨Code.ok, s.rf (bankKey m Reg.TAP_INDEX) 0 16, 0, entryWords (s.tent t (s.rf (bankKey m Reg.TAP_INDEX) 0 16)), []⟩, s) := by
  unfold State.tapRun
  extract_lets i key d bad
  rw [if_neg (by decide), if_neg (by decide), if_neg (by omega)]
  exact if_neg (Nat.not_le.mpr hi)

theorem State.tapStage_room (x : Staged) (h : (s.staging m).length < 64) :
    s.tapStage m x = (dataRes Code.ok [wd ((s.staging m).length + 1)], s.setStaging m (s.staging m ++ [x])) :=
  if_neg (Nat.not_le.mpr h)

theorem State.tapRun_write (ht : t < 6) (hk : keyed t = false) (hi : s.rf (bankKey m Reg.TAP_INDEX) 0 16 < tableSize t)
    (hw : writeOk t (s.tapData m) = true) : s.tapRun m 2 t = s.tapStage m (.write t (s.rf (bankKey m Reg.TAP_INDEX) 0 16) (s.tapData m)) := by
  unfold State.tapRun
  extract_lets i key d bad
  rw [if_neg (by decide), if_neg (by decide), if_neg (by omega)]
  show (if keyed t = true then _ else _) = _
  rw [if_neg (by simp [hk]), if_neg (Nat.not_le.mpr hi), if_neg (by simp [d, hw])]

theorem State.tapRun_lookup {j : Nat} (hk : keyed t = true) (hj : (if t = 1 then s.ictFind (s.tapKey m) else s.adtFind (s.tapKey m)) = some j) :
    s.tapRun m 3 t = (⟨Code.ok, j, 0, entryWords (s.tent t j), []⟩, s) := by
  have ht := keyed_lt hk
  unfold State.tapRun
  extract_lets i key d bad
  rw [if_neg (by decide), if_neg (by decide), if_neg (by omega)]
  show (if (!keyed t) = true then _ else match (if t = 1 then s.ictFind key else s.adtFind key) with | some j => _ | none => _) = _
  rw [if_neg (by simp [hk]), hj]

theorem State.tapRun_insert (hk : keyed t = true) (hok : insertOk t (s.tapKey m) (s.tapData m) = true) :
    s.tapRun m 4 t = s.tapStage m (.insert t (BitVec.ofNat 128 (s.tapKey m)) (s.tapData m)) := by
  have ht := keyed_lt hk
  unfold State.tapRun
  extract_lets i key d bad
  rw [if_neg (by decide), if_neg (by decide), if_neg (by omega)]
  show (if (!keyed t) = true then _ else _) = _
  rw [if_neg (by simp [hk]), if_neg (by simp [d, key, hok])]

theorem State.tapRun_delete (ht : t < 6) (hi : keyed t = false → s.rf (bankKey m Reg.TAP_INDEX) 0 16 < tableSize t) :
    s.tapRun m 5 t =
      s.tapStage m (if keyed t then .delKey t (BitVec.ofNat 128 (s.tapKey m)) else .delIndex t (s.rf (bankKey m Reg.TAP_INDEX) 0 16)) := by
  unfold State.tapRun
  extract_lets i key d bad
  rw [if_neg (by decide), if_neg (by decide), if_neg (by omega)]
  show (if keyed t = true then _ else _) = _
  cases hk : keyed t with
  | true => rfl
  | false => exact if_neg (Nat.not_le.mpr (hi hk))

theorem State.tapRun_discard : s.tapRun m 7 t = (dataRes Code.ok [0], s.setStaging m []) := by
  unfold State.tapRun
  exact if_pos rfl

end

/-! ### From the answer to the command -/

section

variable {s : State} {m op t : Nat} {c : Instr}

/-- An accepted TAP command other than COMMIT runs and holds its answer. -/
theorem State.tapWrite_run (ha : s.admits m Reg.TAP_CMD = true) (hidle : (s.slot (tapSlot m)).idle = true) (hop : op < 16) (h6 : op ≠ 6)
    (ht : t < 16) : s.tapWrite m op t = ((s.tapAccepted m).tapRun m op t).2.holdRes (tapSlot m) ((s.tapAccepted m).tapRun m op t).1 := by
  obtain ⟨hfop, hft⟩ := fld_tapCmd hop ht
  unfold State.tapWrite
  rw [State.access_ok ha]
  unfold State.tapCmd
  rw [State.command_idle (by rw [State.slot_noted, hidle]), State.slot_noted, hfop, hft]
  exact if_neg h6

/-- The slot holds the answer of a command that kept the slots. -/
theorem State.slot_holdRes {u w : State} {i : Nat} (h : w.slots = u.slots) (r : Result) : (w.holdRes i r).slot i = (u.slot i).hold r := by
  unfold State.holdRes
  rw [State.slot_setSlot, if_pos rfl, State.slot_congr h]

theorem tap_answers {r : Result} (e : exec c s = .next (s.tapWrite m op t)) (ha : s.admits m Reg.TAP_CMD = true)
    (hidle : (s.slot (tapSlot m)).idle = true) (hop : op < 16) (h6 : op ≠ 6) (ht : t < 16)
    (hrun : (s.tapAccepted m).tapRun m op t = (r, s.tapAccepted m)) :
    Completes c s fun u => u.slot (tapSlot m) = ((s.slot (tapSlot m)).accept m).hold r ∧ u.tbl = s.tbl ∧ u.stage = s.stage ∧ regsBut [] s u := by
  refine ⟨_, e, ?_⟩
  rw [State.tapWrite_run ha hidle hop h6 ht, hrun]
  exact ⟨by rw [State.slot_holdRes rfl, State.tapAccepted_slot], s.tapAccepted_tbl m, s.tapAccepted_stage m, regsBut_tapAccepted s m⟩

theorem tap_stages {r : Result} {l : List Staged} (e : exec c s = .next (s.tapWrite m op t)) (ha : s.admits m Reg.TAP_CMD = true)
    (hidle : (s.slot (tapSlot m)).idle = true) (hop : op < 16) (h6 : op ≠ 6) (ht : t < 16)
    (hrun : (s.tapAccepted m).tapRun m op t = (r, (s.tapAccepted m).setStaging m l)) :
    Completes c s fun u => u.staging m = l ∧ u.slot (tapSlot m) = ((s.slot (tapSlot m)).accept m).hold r ∧ u.tbl = s.tbl ∧ regsBut [] s u := by
  refine ⟨_, e, ?_⟩
  rw [State.tapWrite_run ha hidle hop h6 ht, hrun]
  have hstaged := (State.staging_setStaging (s.tapAccepted m) m m l).trans (if_pos rfl)
  have hslot := State.slot_holdRes (i := tapSlot m) (State.setStaging_slots (s.tapAccepted m) m l) r
  exact ⟨hstaged, by rw [hslot, State.tapAccepted_slot], s.tapAccepted_tbl m, regsBut_tapAccepted s m⟩

/-- A command whose answer is one more staged entry. -/
theorem tap_stages_one {x : Staged} (e : exec c s = .next (s.tapWrite m op t)) (ha : s.admits m Reg.TAP_CMD = true)
    (hidle : (s.slot (tapSlot m)).idle = true) (hop : op < 16) (h6 : op ≠ 6) (ht : t < 16) (hroom : (s.staging m).length < 64)
    (hrun : (s.tapAccepted m).tapRun m op t = (s.tapAccepted m).tapStage m x) :
    Completes c s fun u => u.staging m = s.staging m ++ [x] ∧
      u.slot (tapSlot m) = ((s.slot (tapSlot m)).accept m).hold (dataRes Code.ok [wd ((s.staging m).length + 1)]) ∧ u.tbl = s.tbl ∧
      regsBut [] s u := by
  rw [State.tapStage_room x (by rwa [State.tapAccepted_staging]), State.tapAccepted_staging] at hrun
  exact tap_stages e ha hidle hop h6 ht hrun

end

/-! ### The statement's commands -/

section

variable {s : State} {m t : Nat} (ha : s.admits m Reg.TAP_CMD = true) (hidle : (s.slot (tapSlot m)).idle = true)

include ha hidle

theorem tapRead_answers (ht : t < 6) (hi : s.rf (bankKey m Reg.TAP_INDEX) 0 16 < tableSize t) :
    Completes (.tapRead m t) s fun u =>
      u.slot (tapSlot m) = ((s.slot (tapSlot m)).accept m).hold ⟨Code.ok, s.rf (bankKey m Reg.TAP_INDEX) 0 16, 0,
        entryWords (s.tent t (s.rf (bankKey m Reg.TAP_INDEX) 0 16)), []⟩ ∧ u.tbl = s.tbl ∧ u.stage = s.stage ∧ regsBut [] s u := by
  refine tap_answers (op := 1) rfl ha hidle (by decide) (by decide) (by omega) ?_
  rw [State.tapRun_read ht (by rwa [State.tapAccepted_index]), State.tapAccepted_index, State.tapAccepted_tent]

theorem tapWrite_stages (ht : t < 6) (hk : keyed t = false) (hi : s.rf (bankKey m Reg.TAP_INDEX) 0 16 < tableSize t)
    (hw : writeOk t (s.tapData m) = true) (hroom : (s.staging m).length < 64) :
    Completes (.tapWrite m t) s fun u =>
      u.staging m = s.staging m ++ [.write t (s.rf (bankKey m Reg.TAP_INDEX) 0 16) (s.tapData m)] ∧
      u.slot (tapSlot m) = ((s.slot (tapSlot m)).accept m).hold (dataRes Code.ok [wd ((s.staging m).length + 1)]) ∧ u.tbl = s.tbl ∧
      regsBut [] s u := by
  refine tap_stages_one (op := 2) rfl ha hidle (by decide) (by decide) (by omega) hroom ?_
  rw [State.tapRun_write ht hk (by rwa [State.tapAccepted_index]) (by rwa [State.tapAccepted_data]), State.tapAccepted_index,
    State.tapAccepted_data]

theorem tapLookup_answers {j : Nat} (hk : keyed t = true) (hj : (if t = 1 then s.ictFind (s.tapKey m) else s.adtFind (s.tapKey m)) = some j) :
    Completes (.tapLookup m t) s fun u =>
      u.slot (tapSlot m) = ((s.slot (tapSlot m)).accept m).hold ⟨Code.ok, j, 0, entryWords (s.tent t j), []⟩ ∧ u.tbl = s.tbl ∧
      u.stage = s.stage ∧ regsBut [] s u := by
  have ht := keyed_lt hk
  refine tap_answers (op := 3) rfl ha hidle (by decide) (by decide) (by omega) ?_
  rw [State.tapRun_lookup hk (by rwa [State.tapAccepted_key, State.tapAccepted_ictFind, State.tapAccepted_adtFind]), State.tapAccepted_tent]

theorem tapInsert_stages (hk : keyed t = true) (hok : insertOk t (s.tapKey m) (s.tapData m) = true) (hroom : (s.staging m).length < 64) :
    Completes (.tapInsert m t) s fun u =>
      u.staging m = s.staging m ++ [.insert t (BitVec.ofNat 128 (s.tapKey m)) (s.tapData m)] ∧
      u.slot (tapSlot m) = ((s.slot (tapSlot m)).accept m).hold (dataRes Code.ok [wd ((s.staging m).length + 1)]) ∧ u.tbl = s.tbl ∧
      regsBut [] s u := by
  have ht := keyed_lt hk
  refine tap_stages_one (op := 4) rfl ha hidle (by decide) (by decide) (by omega) hroom ?_
  rw [State.tapRun_insert hk (by rwa [State.tapAccepted_key, State.tapAccepted_data]), State.tapAccepted_key, State.tapAccepted_data]

theorem tapDelete_stages (ht : t < 6) (hi : keyed t = false → s.rf (bankKey m Reg.TAP_INDEX) 0 16 < tableSize t)
    (hroom : (s.staging m).length < 64) :
    Completes (.tapDelete m t) s fun u =>
      u.staging m = s.staging m ++
        [if keyed t then .delKey t (BitVec.ofNat 128 (s.tapKey m)) else .delIndex t (s.rf (bankKey m Reg.TAP_INDEX) 0 16)] ∧
      u.slot (tapSlot m) = ((s.slot (tapSlot m)).accept m).hold (dataRes Code.ok [wd ((s.staging m).length + 1)]) ∧ u.tbl = s.tbl ∧
      regsBut [] s u := by
  refine tap_stages_one (op := 5) rfl ha hidle (by decide) (by decide) (by omega) hroom ?_
  rw [State.tapRun_delete ht (by rwa [State.tapAccepted_index]), State.tapAccepted_key, State.tapAccepted_index]

theorem tapDiscard_stages :
    Completes (.tapDiscard m) s fun u =>
      u.staging m = [] ∧ u.slot (tapSlot m) = ((s.slot (tapSlot m)).accept m).hold (dataRes Code.ok [0]) ∧ u.tbl = s.tbl ∧ regsBut [] s u :=
  tap_stages (op := 7) rfl ha hidle (by decide) (by decide) (by decide) State.tapRun_discard

/-- A COMMIT joins the queue of commits; its slot waits. -/
theorem tapCommit_waits :
    Completes (.tapCommit m) s fun u =>
      u.commitQ = s.commitQ ++ [m] ∧ u.slot (tapSlot m) = (s.slot (tapSlot m)).accept m ∧ u.tbl = s.tbl ∧ u.stage = s.stage ∧
      regsBut [] s u := by
  refine ⟨s.tapWrite m 6 0, rfl, ?_⟩
  have hrun : s.tapWrite m 6 0 = { s.tapAccepted m with commitQ := (s.tapAccepted m).commitQ ++ [m] } := by
    unfold State.tapWrite
    rw [State.access_ok ha]
    unfold State.tapCmd
    rw [State.command_idle (by rw [State.slot_noted, hidle]), State.slot_noted]
    exact if_pos (fld_tapCmd (op := 6) (t := 0) (by decide) (by decide)).1
  rw [hrun]
  exact ⟨congrArg (· ++ [m]) (s.tapAccepted_commitQ m), s.tapAccepted_slot m, s.tapAccepted_tbl m, s.tapAccepted_stage m,
    regsBut_tapAccepted s m⟩

end

/-! ### Completion -/

/-- A BUSY slot that no stopped partition released becomes VALID with its result (R50). -/
theorem State.complete_busy {s : State} {i : Nat} (hb : (s.slot i).busy = true) (hr : s.svc.release = []) (r : Result) :
    s.complete i r = s.setSlot i ((s.slot i).complete r) := by
  unfold State.complete
  rw [if_pos hb, hr]
  exact if_neg (by simp)

theorem State.publish_held {s : State} {i : Nat} {r : Result} (hb : (s.slot i).busy = true) (hh : (s.slot i).held = some r)
    (hr : s.svc.release = []) : s.publish i = s.setSlot i ((s.slot i).complete r) := by
  unfold State.publish
  rw [hh]
  exact State.complete_busy hb hr r

theorem tapOpDone_publishes {s : State} {m : Nat} {r : Result} (hb : (s.slot (tapSlot m)).busy = true)
    (hh : (s.slot (tapSlot m)).held = some r) (hr : s.svc.release = []) :
    Completes (.tapOpDone m) s fun u => u.slot (tapSlot m) = (s.slot (tapSlot m)).complete r ∧ u.tbl = s.tbl ∧ regsBut [] s u := by
  refine ⟨s.publish (tapSlot m), rfl, ?_⟩
  rw [State.publish_held hb hh hr]
  exact ⟨(State.slot_setSlot ..).trans (if_pos rfl), rfl, .of_regs rfl⟩

/-- With no relocation in flight the update engine has nothing to finish. -/
theorem State.adtFinish_none {s : State} (h : s.lrn.moves = []) : s.adtFinish = s := by
  have keep : { s with lrn := { s.lrn with moves := [] } } = s := by rw [← h]
  unfold State.adtFinish
  rw [h]
  exact keep

theorem State.tapCommitFinish_eq {s : State} {m : Nat} {q : List Nat} (hq : s.commitQ = m :: q) :
    s.tapCommitFinish = s.tapCommitDone.fenceCommitDone m := by
  unfold State.tapCommitFinish
  rw [hq]

/-- The fences of the master change no table, register, slot or staging area. -/
theorem State.fenceCommitDone_slot (s : State) (m i : Nat) : (s.fenceCommitDone m).slot i = s.slot i := rfl

/-- The COMMIT at the front of the queue takes effect: the entries applied, the count, the request for the journal, and the result. -/
def State.committed (t : State) (m : Nat) (l : List Staged) : State :=
  { t.setStaging m [] with commits := t.commits + 1, mgs := { t.mgs with commits := t.mgs.commits ++ [l] } }

theorem State.tapCommitDone_eq {s : State} {m : Nat} {q : List Nat} (hq : s.commitQ = m :: q) (hmoves : s.lrn.moves = []) :
    s.tapCommitDone = match State.applyAll { s with commitQ := q } 0 (s.staging m) with
      | .ok t => (t.committed m (s.staging m)).complete (tapSlot m) ((t.committed m (s.staging m)).commitRes Code.ok 0 (s.staging m).length)
      | .error (pos, c) => (({ s with commitQ := q } : State).setStaging m []).complete (tapSlot m)
          (State.commitRes { s with commitQ := q } c pos 0) := by
  unfold State.tapCommitDone
  rw [hq]
  simp only
  rw [State.adtFinish_none (s := { s with commitQ := q }) hmoves]
  rfl

/-- What a completed COMMIT leaves: no entry staged, and its slot VALID with the code and the position reported. -/
theorem State.commit_completes {s : State} {m : Nat} {r : Result} (hstage : s.staging m = []) (hb : (s.slot (tapSlot m)).busy = true)
    (hr : s.svc.release = []) :
    ((s.complete (tapSlot m) r).fenceCommitDone m).staging m = [] ∧ (((s.complete (tapSlot m) r).fenceCommitDone m).slot (tapSlot m)).res = r := by
  rw [State.fenceCommitDone_slot, State.complete_busy hb hr, State.slot_setSlot, if_pos rfl]
  exact ⟨hstage, rfl⟩

theorem tapCommitDone_all_or_none {s : State} {m : Nat} {q : List Nat} (hq : s.commitQ = m :: q) (hmoves : s.lrn.moves = [])
    (hb : (s.slot (tapSlot m)).busy = true) (hr : s.svc.release = []) :
    Completes .tapCommitDone s fun u =>
      u.commitQ = q ∧ u.staging m = [] ∧
      (∀ r ∈ (State.applyAll { s with commitQ := q } 0 (s.staging m)).toOption,
        u.tbl = r.tbl ∧ u.commits = s.commits + 1 ∧ (u.slot (tapSlot m)).res.code = Code.ok) ∧
      (∀ k c, State.applyAll { s with commitQ := q } 0 (s.staging m) = .error (k, c) →
        u.tbl = s.tbl ∧ u.regs = s.regs ∧ u.commits = s.commits ∧ (u.slot (tapSlot m)).res.code = c ∧ (u.slot (tapSlot m)).res.index = k) := by
  refine ⟨s.tapCommitFinish, rfl, ?_⟩
  rw [State.tapCommitFinish_eq hq, State.tapCommitDone_eq hq hmoves]
  have cleared : ∀ t : State, (t.setStaging m []).staging m = [] := fun t => (State.staging_setStaging t m m []).trans (if_pos rfl)
  cases happ : State.applyAll { s with commitQ := q } 0 (s.staging m) with
  | error e =>
    obtain ⟨pos, code⟩ := e
    obtain ⟨hstage, hres⟩ := State.commit_completes (s := ({ s with commitQ := q } : State).setStaging m [])
      (r := State.commitRes { s with commitQ := q } code pos 0) (cleared _) hb hr
    refine ⟨State.complete_commitQ .., hstage, fun r hm => absurd hm (by simp [Except.toOption]), fun k c hkc => ?_⟩
    cases hkc
    exact ⟨State.complete_tbl .., State.complete_regs .., State.complete_commits .., congrArg Result.code hres, congrArg Result.index hres⟩
  | ok t =>
    have chg : Chg _ { s with commitQ := q } t := State.applyAll_chg (Within.self _) (Chg.refl _) t happ
    have hslot : (t.committed m (s.staging m)).slot (tapSlot m) = s.slot (tapSlot m) :=
      State.slot_congr (chg.same .slots (by decide)).symm _
    have hsvc : t.svc = s.svc := (chg.same .svc (by decide)).symm
    have hcommits : t.commits = s.commits := (chg.same .commits (by decide)).symm
    obtain ⟨hstage, hres⟩ := State.commit_completes (s := t.committed m (s.staging m))
      (r := (t.committed m (s.staging m)).commitRes Code.ok 0 (s.staging m).length) (cleared t) (by rw [hslot, hb])
      (by show t.svc.release = []; rw [hsvc, hr])
    refine ⟨(State.complete_commitQ ..).trans (chg.same .commitQ (by decide)).symm, hstage, fun r hm => ?_,
      fun k c hkc => by cases hkc⟩
    cases hm
    exact ⟨State.complete_tbl .., (State.complete_commits ..).trans (congrArg (· + 1) hcommits), congrArg Result.code hres⟩

end Sys2Proof.Machine

open Sys2Proof Sys2Proof.Machine

/-- Settles O14: an accepted command runs on the state it was written in, and a COMMIT applies its entries to the state it completes in. -/
theorem tapStagesAndCommits : Obligations.TapStagesAndCommits := by
  unfold Obligations.TapStagesAndCommits
  refine ⟨⟨fun m t s ha hidle ht hi => tapRead_answers ha hidle ht hi,
    fun m t s ha hidle ht hk hi hw hroom => tapWrite_stages ha hidle ht hk hi hw hroom,
    fun m t s j ha hidle hk hj => tapLookup_answers ha hidle hk hj,
    fun m t s ha hidle hk hok hroom => tapInsert_stages ha hidle hk hok hroom,
    fun m t s ha hidle ht hi hroom => tapDelete_stages ha hidle ht hi hroom,
    fun m s ha hidle => tapDiscard_stages ha hidle, fun m s r hb hh hr => tapOpDone_publishes hb hh hr⟩,
    fun m s ha hidle => tapCommit_waits ha hidle, fun m q s hq hmoves hb hr => tapCommitDone_all_or_none hq hmoves hb hr⟩

end
section
/-! Counter snapshots: taken, shown and released, on one page and with ALL (R55, R56). -/

namespace Sys2Proof.Machine

theorem snapSlot_inj {p q : Nat} (h : snapSlot p = snapSlot q) : p = q := by
  unfold snapSlot at h
  omega

/-- Every page with a snapshot lies on the register map. -/
theorem snapPages_nodup : snapPages.Nodup := List.nodup_range.filter _

theorem State.noted_now (s : State) (m a : Nat) : (s.noted m a).now = s.now := by
  unfold State.now
  rw [State.noted_frcNs]

/-! ### One page -/

/-- TAKE on an idle page captures its counters and the FRC; the slot holds its result. -/
theorem State.snapTake_idle {s : State} {pg : Nat} (h : (s.slot (snapSlot pg)).idle = true) (m : Nat) :
    s.snapTake m pg = ((s.setSlot (snapSlot pg) ((s.slot (snapSlot pg)).accept m)).setSnap pg ⟨true, false, s.capture pg, s.now⟩).holdRes
      (snapSlot pg) (codeRes Code.ok) := by
  unfold State.snapTake
  rw [State.command_idle h]
  rfl

theorem cntSnap_captures {m pg : Nat} {s : State} (hp : pg ≠ 0xC8) (h : s.admits m (Reg.CNT_SNAP (pg * 0x1000)) = true)
    (hidle : (s.slot (snapSlot pg)).idle = true) :
    Completes (.cntSnap m pg) s fun t =>
      t.snap pg = ⟨true, false, (s.noted m (Reg.CNT_SNAP (pg * 0x1000))).capture pg, s.now⟩ ∧
      t.slot (snapSlot pg) = ((s.slot (snapSlot pg)).accept m).hold (codeRes Code.ok) ∧ regsBut [] s t := by
  refine ⟨s.hdrAccess m (Reg.CNT_SNAP (pg * 0x1000)) fun u => u.cntSnap m pg 1, rfl, ?_⟩
  rw [State.hdrAccess_page (by decide) hp h, State.cntSnap_take, State.snapTake_idle (by rw [State.slot_noted, hidle]), State.slot_noted,
    State.noted_now]
  refine ⟨?_, ?_, regsBut_noted [] s m _⟩
  · exact (State.snap_setSnap ..).trans (if_pos rfl)
  · rw [State.slot_holdRes rfl]
    exact congrArg (Slot.hold · _) ((State.slot_setSlot ..).trans (if_pos rfl))

/-- SNAP_DONE of a page publishes its result and raises its interrupt. -/
theorem snapDone_publishes {pg : Nat} {s : State} (hb : (s.slot (snapSlot pg)).busy = true)
    (hh : (s.slot (snapSlot pg)).held = some (codeRes Code.ok)) (hall : (s.snap pg).all = false) (hr : s.svc.release = []) :
    Completes (.snapDone pg) s fun t =>
      t.slot (snapSlot pg) = (s.slot (snapSlot pg)).complete (codeRes Code.ok) ∧ t.snap pg = s.snap pg ∧
      t.rb (Reg.INT_RAW (pg * 0x1000)) Irq.SNAP_DONE = true ∧ regsBut [Reg.INT_RAW (pg * 0x1000)] s t := by
  refine ⟨s.snapDone pg, rfl, ?_⟩
  have hone : s.snapDone pg = (s.publish (snapSlot pg)).raiseAt (pg * 0x1000) Irq.SNAP_DONE := by
    unfold State.snapDone
    rw [if_pos hb, hall]
    rfl
  rw [hone]
  refine ⟨?_, State.snap_congr ((State.raiseAt_snaps ..).trans (State.publish_snaps ..)) pg, State.rb_raiseAt _ _ (by decide),
    (regsBut.of_regs (State.publish_regs ..)).trans (regsBut_raiseAt _ List.mem_cons_self _)⟩
  rw [State.slot_congr (State.raiseAt_slots ..), State.publish_held hb hh hr, State.slot_setSlot, if_pos rfl]

/-- A write of CNT_SNAP_ACK, on every page alike. -/
theorem exec_cntSnapAck (m pg seq : Nat) (s : State) :
    exec (.cntSnapAck m pg seq) s = .next (s.hdrAccess m (Reg.CNT_SNAP_ACK (pg * 0x1000)) fun u => u.snapAck m pg (wd seq)) := rfl

theorem cntSnapAck_releases {m pg : Nat} {s : State} (hp : pg ≠ 0xC8) (h : s.admits m (Reg.CNT_SNAP_ACK (pg * 0x1000)) = true)
    (hv : (s.slot (snapSlot pg)).valid = true) (ho : (s.slot (snapSlot pg)).owner = m) (hseq : (s.slot (snapSlot pg)).seq < 0x10000)
    (hall : (s.snap pg).all = false) :
    Completes (.cntSnapAck m pg (s.slot (snapSlot pg)).seq) s fun t =>
      t.snap pg = Snap.reset ∧ t.slot (snapSlot pg) = (s.slot (snapSlot pg)).release ∧ regsBut [] s t := by
  refine ⟨_, exec_cntSnapAck .., ?_⟩
  rw [State.hdrAccess_page (by decide) hp h]
  have hslot : (s.noted m (Reg.CNT_SNAP_ACK (pg * 0x1000))).slot (snapSlot pg) = s.slot (snapSlot pg) := State.slot_noted ..
  have hsnap : ((s.noted m (Reg.CNT_SNAP_ACK (pg * 0x1000))).snap pg).all = false :=
    (congrArg Snap.all (State.snap_congr (State.noted_snaps ..) pg)).trans hall
  unfold State.snapAck
  rw [if_neg (by simp [hsnap]), State.resAck_release (by rw [hslot, ho]) (by rw [hslot, hv])
    (by rw [hslot, fld_seq, Nat.mod_eq_of_lt hseq]), hslot]
  exact ⟨(State.snap_setSnap ..).trans (if_pos rfl), (State.slot_setSlot ..).trans (if_pos rfl), regsBut_noted [] s m _⟩

/-! ### All pages at once -/

/-- Pages `l` take snapshot `x` of the page and the slot that `g` makes of theirs. -/
def State.eachSnap (s : State) (l : List Nat) (x : Nat → Snap) (g : Slot → Slot) : State :=
  l.foldl (fun s pg => (s.setSnap pg (x pg)).setSlot (snapSlot pg) (g (s.slot (snapSlot pg)))) s

theorem State.eachSnap_regs (x : Nat → Snap) (g : Slot → Slot) : ∀ (l : List Nat) (s : State), (s.eachSnap l x g).regs = s.regs
  | [], _ => rfl
  | _ :: l, _ => State.eachSnap_regs x g l _

theorem State.snap_eachSnap {x : Nat → Snap} {g : Slot → Slot} {p : Nat} :
    ∀ {l : List Nat} {s : State}, p ∈ l ∨ s.snap p = x p → (s.eachSnap l x g).snap p = x p
  | [], _, h => h.resolve_left List.not_mem_nil
  | q :: l, s, h => by
    refine State.snap_eachSnap (l := l) (s := (s.setSnap q (x q)).setSlot (snapSlot q) (g (s.slot (snapSlot q)))) ?_
    have hset : ((s.setSnap q (x q)).setSlot (snapSlot q) (g (s.slot (snapSlot q)))).snap p = if q = p then x q else s.snap p :=
      State.snap_setSnap ..
    rw [hset]
    by_cases hq : q = p
    · exact .inr (by rw [if_pos hq, hq])
    · rw [if_neg hq]
      exact h.imp_left fun hm => (List.mem_cons.mp hm).resolve_left (Ne.symm hq)

/-- A property that `g` gives any slot holds of the slots of the pages. -/
theorem State.slot_eachSnap {x : Nat → Snap} {g : Slot → Slot} {P : Slot → Prop} (hg : ∀ v, P (g v)) {p : Nat} :
    ∀ {l : List Nat} {s : State}, p ∈ l ∨ P (s.slot (snapSlot p)) → P ((s.eachSnap l x g).slot (snapSlot p))
  | [], _, h => h.resolve_left List.not_mem_nil
  | q :: l, s, h => by
    refine State.slot_eachSnap hg (l := l) (s := (s.setSnap q (x q)).setSlot (snapSlot q) (g (s.slot (snapSlot q)))) ?_
    rw [State.slot_setSlot]
    by_cases hq : snapSlot q = snapSlot p
    · rw [if_pos hq]
      exact .inr (hg _)
    · rw [if_neg hq]
      exact h.imp_left fun hm => (List.mem_cons.mp hm).resolve_left fun e => hq (by rw [e])

/-- TAKE with ALL while every page is idle. -/
theorem State.snapTakeAll_idle {s : State} (h : ∀ pg, pg ∈ snapPages → (s.slot (snapSlot pg)).idle = true) (m : Nat) :
    s.snapTakeAll m = s.eachSnap snapPages (fun pg => ⟨true, true, s.capture pg, s.now⟩)
      fun _ => ((s.slot (snapSlot 0)).accept m).hold (codeRes Code.ok) := by
  unfold State.snapTakeAll
  refine if_neg ?_
  rw [List.any_eq_true]
  rintro ⟨pg, hm, hbusy⟩
  rw [h pg hm] at hbusy
  cases hbusy

theorem cntSnapAll_captures {m : Nat} {s : State} (h : s.admits m (Reg.CNT_SNAP 0) = true)
    (hidle : ∀ pg, pg ∈ snapPages → (s.slot (snapSlot pg)).idle = true) :
    Completes (.cntSnapAll m) s fun t =>
      (∀ pg, pg ∈ snapPages → t.snap pg = ⟨true, true, (s.noted m (Reg.CNT_SNAP 0)).capture pg, s.now⟩ ∧ (t.slot (snapSlot pg)).busy = true) ∧
      regsBut [] s t := by
  refine ⟨s.access m (Reg.CNT_SNAP 0) fun u => u.cntSnap m 0 3, rfl, ?_⟩
  have htake : (s.noted m (Reg.CNT_SNAP 0)).cntSnap m 0 3 = (s.noted m (Reg.CNT_SNAP 0)).snapTakeAll m := by
    unfold State.cntSnap
    rw [if_neg (by decide), if_pos ⟨rfl, by decide⟩]
  rw [State.access_ok h, htake, State.snapTakeAll_idle (fun pg hm => by rw [State.slot_noted, hidle pg hm]), State.noted_now]
  refine ⟨fun pg hm => ⟨State.snap_eachSnap (.inl hm), State.slot_eachSnap (P := fun v => v.busy = true) (fun _ => rfl) (.inl hm)⟩, ?_⟩
  exact (regsBut_noted [] s m _).trans (.of_regs (State.eachSnap_regs ..))

/-- The acknowledgement of an ALL snapshot on the global page releases every page's. -/
theorem State.snapAck_all {s : State} {m : Nat} {v : Word} (hall : (s.snap 0).all = true) (ho : (s.slot (snapSlot 0)).owner = m)
    (hv : (s.slot (snapSlot 0)).valid = true) (hseq : fld v 0 16 = (s.slot (snapSlot 0)).seq) :
    s.snapAck m 0 v = (s.setSlot (snapSlot 0) (s.slot (snapSlot 0)).release).eachSnap snapPages (fun _ => Snap.reset) Slot.release := by
  unfold State.snapAck
  rw [if_pos hall, if_neg (by decide), State.resAck_release ho hv hseq]
  unfold State.eachSnap
  rfl

theorem cntSnapAck_releases_all {m : Nat} {s : State} (h : s.admits m (Reg.CNT_SNAP_ACK 0) = true) (hv : (s.slot (snapSlot 0)).valid = true)
    (ho : (s.slot (snapSlot 0)).owner = m) (hseq : (s.slot (snapSlot 0)).seq < 0x10000) (hall : (s.snap 0).all = true) :
    Completes (.cntSnapAck m 0 (s.slot (snapSlot 0)).seq) s fun t =>
      ∀ pg ∈ snapPages, t.snap pg = Snap.reset ∧ (t.slot (snapSlot pg)).idle = true := by
  refine ⟨_, exec_cntSnapAck .., ?_⟩
  have hglb : s.admits m (Reg.CNT_SNAP_ACK (0 * 0x1000)) = true := h
  rw [State.hdrAccess_page (by decide) (by decide) hglb]
  have hslot : (s.noted m (Reg.CNT_SNAP_ACK (0 * 0x1000))).slot (snapSlot 0) = s.slot (snapSlot 0) := State.slot_noted ..
  have hsnap : ((s.noted m (Reg.CNT_SNAP_ACK (0 * 0x1000))).snap 0).all = true :=
    (congrArg Snap.all (State.snap_congr (State.noted_snaps ..) 0)).trans hall
  rw [State.snapAck_all hsnap (by rw [hslot, ho]) (by rw [hslot, hv]) (by rw [hslot, fld_seq, Nat.mod_eq_of_lt hseq])]
  exact fun pg hm => ⟨State.snap_eachSnap (.inl hm), State.slot_eachSnap (P := fun v => v.idle = true) (fun _ => rfl) (.inl hm)⟩

/-- A page's own acknowledgement of an ALL snapshot releases nothing; one by another master is denied. -/
theorem cntSnapAck_of_all {m pg seq : Nat} {s : State} (hp : pg ≠ 0xC8) (h0 : pg ≠ 0)
    (h : s.admits m (Reg.CNT_SNAP_ACK (pg * 0x1000)) = true) (hall : (s.snap pg).all = true) :
    Completes (.cntSnapAck m pg seq) s fun t => t.snaps = s.snaps ∧ t.slots = s.slots ∧
      ((s.slot (snapSlot pg)).owner = m → regsBut [] s t) ∧
      ((s.slot (snapSlot pg)).owner ≠ m → (s.slot (snapSlot pg)).idle = false →
        t.rd Reg.GLB_ACC_VIOL_CNT = evtNext (s.rd Reg.GLB_ACC_VIOL_CNT) ∧
        t.rd Reg.GLB_ACC_CAP0 = wd (m * 2 ^ 29 + pg % 0x4000 * 4)) := by
  refine ⟨_, exec_cntSnapAck .., ?_⟩
  rw [State.hdrAccess_page (by decide) hp h]
  have hslot : (s.noted m (Reg.CNT_SNAP_ACK (pg * 0x1000))).slot (snapSlot pg) = s.slot (snapSlot pg) := State.slot_noted ..
  have hsnap : ((s.noted m (Reg.CNT_SNAP_ACK (pg * 0x1000))).snap pg).all = true :=
    (congrArg Snap.all (State.snap_congr (State.noted_snaps ..) pg)).trans hall
  have hpage : Reg.CNT_SNAP_ACK (pg * 0x1000) / 0x1000 = pg := by unfold Reg.CNT_SNAP_ACK; omega
  unfold State.snapAck
  rw [if_pos hsnap, if_pos h0, hslot]
  split
  · next hkeep =>
    refine ⟨State.noted_snaps .., State.noted_slots .., fun _ => regsBut_noted [] s m _, fun ho hidle => ?_⟩
    rcases hkeep with hi | hi
    · rw [hi] at hidle
      cases hidle
    · exact absurd hi ho
  · next hother =>
    have hrec := (s.noted m (Reg.CNT_SNAP_ACK (pg * 0x1000))).violate_recorded .denied m (Reg.CNT_SNAP_ACK (pg * 0x1000))
    have hcnt : (s.noted m (Reg.CNT_SNAP_ACK (pg * 0x1000))).rd Reg.GLB_ACC_VIOL_CNT = s.rd Reg.GLB_ACC_VIOL_CNT :=
      State.rd_noted _ _ _ (.inl (by decide))
    refine ⟨(State.violate_snaps ..).trans (State.noted_snaps ..), (State.violate_slots ..).trans (State.noted_slots ..),
      fun ho => absurd (.inr ho) hother, fun _ _ => ⟨hcnt ▸ hrec.count, ?_⟩⟩
    rw [hrec.page, hpage]

/-! ### An ALL snapshot completes -/

/-- SNAP_DONE on pages `l`, one after the other. -/
def State.snapsDone (s : State) (l : List Nat) : State :=
  l.foldl (fun s pg => (s.publish (snapSlot pg)).raiseAt (pg * 0x1000) Irq.SNAP_DONE) s

theorem State.slot_complete_other {s : State} {i j : Nat} (h : i ≠ j) (r : Result) : (s.complete i r).slot j = s.slot j := by
  have hne : ∀ v, (s.setSlot i v).slot j = s.slot j := fun v => (State.slot_setSlot ..).trans (if_neg h)
  unfold State.complete
  split
  · split
    · exact hne _
    · exact hne _
  · rfl

theorem State.slot_publish_other {s : State} {i j : Nat} (h : i ≠ j) : (s.publish i).slot j = s.slot j := by
  unfold State.publish
  split
  · exact State.slot_complete_other h _
  · rfl

theorem State.slot_snapsDone_other {p : Nat} : ∀ {l : List Nat} {s : State}, p ∉ l → (s.snapsDone l).slot (snapSlot p) = s.slot (snapSlot p)
  | [], _, _ => rfl
  | q :: l, s, h => by
    have hq : snapSlot q ≠ snapSlot p := fun e => h (snapSlot_inj e ▸ List.mem_cons_self)
    refine (State.slot_snapsDone_other (l := l) fun hm => h (List.mem_cons_of_mem _ hm)).trans ?_
    rw [State.slot_congr (State.raiseAt_slots ..), State.slot_publish_other hq]

theorem State.rb_snapsDone_mono {a j : Nat} : ∀ {l : List Nat} {s : State}, s.rb a j = true → (s.snapsDone l).rb a j = true
  | [], _, h => h
  | q :: l, s, h => State.rb_snapsDone_mono (l := l) (State.rb_raiseAt_mono
      ((congrArg (bit · j) (State.rd_congr (State.publish_regs s (snapSlot q)) a)).trans h) (q * 0x1000) Irq.SNAP_DONE)

/-- Each page whose slot waits with its result reads VALID, with its interrupt raised. -/
theorem State.snapsDone_valid : ∀ {l : List Nat} {s : State}, l.Nodup → s.svc.release = [] →
    (∀ pg ∈ l, (s.slot (snapSlot pg)).busy = true ∧ (s.slot (snapSlot pg)).held = some (codeRes Code.ok)) →
    ∀ pg ∈ l, ((s.snapsDone l).slot (snapSlot pg)).valid = true ∧ (s.snapsDone l).rb (Reg.INT_RAW (pg * 0x1000)) Irq.SNAP_DONE = true
  | [], _, _, _, _, _, hm => absurd hm List.not_mem_nil
  | q :: l, s, hnd, hr, hready, pg, hm => by
    obtain ⟨hnot, hnd⟩ := List.nodup_cons.mp hnd
    obtain ⟨hb, hh⟩ := hready q List.mem_cons_self
    have hpub := State.publish_held hb hh hr
    have hslots : ∀ p, ((s.publish (snapSlot q)).raiseAt (q * 0x1000) Irq.SNAP_DONE).slot (snapSlot p) =
        if snapSlot q = snapSlot p then (s.slot (snapSlot q)).complete (codeRes Code.ok) else s.slot (snapSlot p) := by
      intro p
      rw [State.slot_congr (State.raiseAt_slots ..), hpub, State.slot_setSlot]
    have hsvc : ((s.publish (snapSlot q)).raiseAt (q * 0x1000) Irq.SNAP_DONE).svc.release = [] := by
      rw [State.raiseAt_svc, hpub]
      exact hr
    rcases List.mem_cons.mp hm with rfl | hm
    · refine ⟨?_, State.rb_snapsDone_mono (l := l) (State.rb_raiseAt _ _ (by decide))⟩
      have hlast := State.slot_snapsDone_other (s := (s.publish (snapSlot pg)).raiseAt (pg * 0x1000) Irq.SNAP_DONE) hnot
      exact (congrArg Slot.valid (hlast.trans ((hslots pg).trans (if_pos rfl)))).trans rfl
    · refine State.snapsDone_valid hnd hsvc (fun p hp => ?_) pg hm
      rw [hslots, if_neg fun e => hnot (by rwa [snapSlot_inj e])]
      exact hready p (List.mem_cons_of_mem _ hp)

theorem snapDone_publishes_all {p : Nat} {s : State} (hb : (s.slot (snapSlot p)).busy = true) (hall : (s.snap p).all = true)
    (hr : s.svc.release = [])
    (hready : ∀ pg ∈ snapPages, (s.slot (snapSlot pg)).busy = true ∧ (s.slot (snapSlot pg)).held = some (codeRes Code.ok)) :
    Completes (.snapDone p) s fun t =>
      ∀ pg ∈ snapPages, (t.slot (snapSlot pg)).valid = true ∧ t.rb (Reg.INT_RAW (pg * 0x1000)) Irq.SNAP_DONE = true := by
  refine ⟨s.snapDone p, rfl, ?_⟩
  have hdone : s.snapDone p = s.snapsDone snapPages := by
    unfold State.snapDone
    rw [if_pos hb, hall]
    rfl
  rw [hdone]
  exact State.snapsDone_valid snapPages_nodup hr hready

end Sys2Proof.Machine

open Sys2Proof Sys2Proof.Machine

/-- Settles O10: TAKE, SNAP_DONE and ACK on one page, and, with ALL, the same for each page of the fold over all of them. -/
theorem snapshotsCaptureAndRelease : Obligations.SnapshotsCaptureAndRelease := by
  unfold Obligations.SnapshotsCaptureAndRelease
  exact ⟨fun m pg s hp _ h hidle => cntSnap_captures hp h hidle, fun m s h hidle => cntSnapAll_captures h hidle,
    fun pg s hb hh hall hr => snapDone_publishes hb hh hall hr,
    fun m pg s hp _ h hv ho hseq _ hall => cntSnapAck_releases hp h hv ho hseq hall,
    fun p s hb hall hr hready => snapDone_publishes_all hb hall hr hready,
    fun m s h hv ho hseq hall => cntSnapAck_releases_all h hv ho hseq hall,
    fun m pg seq s hp h0 h hall => cntSnapAck_of_all hp h0 h hall⟩

end
section
/-! A block reset, and the QUIESCE bits of a page (R31, R385). -/

namespace Sys2Proof.Machine

theorem Tab.get_keep {V : Type} (d : Nat → V) (p : Nat → Bool) (k : Nat) :
    ∀ t : Tab V, Tab.get d (Tab.keep p t) k = if p k then Tab.get d t k else d k
  | [] => by
    unfold Tab.keep Tab.get
    exact (ite_self _).symm
  | (a, v) :: t => by
    have ih := Tab.get_keep d p k t
    unfold Tab.keep at ih ⊢
    rw [List.filter_cons]
    by_cases hak : a = k
    · subst hak
      cases hp : p a with
      | true => simp [Tab.get]
      | false => rw [if_neg (by decide), ih, hp, if_neg (by decide), if_neg (by decide)]
    · have hget : Tab.get d ((a, v) :: t) k = Tab.get d t k := if_neg hak
      split
      · rw [hget, ← ih]
        exact if_neg hak
      · rw [hget, ih]

/-! ### The reset of a block with nothing in flight -/

/-- The blocks that have nothing in flight which a reset would count or send. -/
def quietBlocks : List Blk := [Blk.gpi, .icl, .ict, .srt, .adt, .edy, .wei, .fre, .tim, .cau, .upd, .mgn, .pfc]

/-- The reset of such a block's own state leaves the registers, the tables and the queue of frames as they are. -/
theorem State.blockReset_quiet {b : Blk} (hb : b ∈ quietBlocks) (s : State) (i : Nat) :
    (s.blockReset b i).regs = s.regs ∧ (s.blockReset b i).tbl = s.tbl ∧ (s.blockReset b i).inj = s.inj ∧
    (s.blockReset b i).resets = s.resets := by
  simp only [quietBlocks, List.mem_cons, List.not_mem_nil, or_false] at hb
  rcases hb with rfl | rfl | rfl | rfl | rfl | rfl | rfl | rfl | rfl | rfl | rfl | rfl | rfl <;> exact ⟨rfl, rfl, rfl, rfl⟩

/-- A page's reset but for the host interface's: its block's state, its slots, its registers. -/
theorem State.pageReset_eq {pg i : Nat} {b : Blk} (hp : pageOf pg = some (b, i)) (hb : b ≠ .hif) (s : State) :
    s.pageReset pg = (((s.blockReset b i).slotsReset b pg).regsReset pg).msixEval false := by
  unfold State.pageReset
  rw [hp]
  simp only
  split
  · next h => exact absurd rfl hb
  · rfl

/-- BLK_CTRL returns to its reset value with its page. -/
theorem resetKey_blkCtrl {pg : Nat} (h : pg ≤ 0x100) : resetKey pg (Reg.BLK_CTRL (pg * 0x1000)) = true := by
  have hkept : ∀ x ∈ keptRegs, x % 0x1000 ≠ 0x10 := by decide
  have hoff : Reg.BLK_CTRL (pg * 0x1000) % 0x4000000 = pg * 0x1000 + 0x10 := by unfold Reg.BLK_CTRL; omega
  have hcluster : clusterKey (Reg.BLK_CTRL (pg * 0x1000)) = false := decide_eq_false (by unfold Reg.BLK_CTRL; omega)
  have hnot : keptRegs.contains (pg * 0x1000 + 0x10) = false := by
    rw [Bool.eq_false_iff]
    intro hc
    exact hkept _ (List.contains_iff_mem.mp hc) (by omega)
  unfold resetKey
  rw [hoff, hcluster, hnot, decide_eq_true (by omega)]
  rfl

section

variable {pg i : Nat} {b : Blk} (hp : pageOf pg = some (b, i)) (hb : b ∈ quietBlocks) (s : State)

include hp hb

theorem State.pageReset_quiet : s.pageReset pg = (((s.blockReset b i).slotsReset b pg).regsReset pg).msixEval false :=
  State.pageReset_eq hp (fun e => absurd (e ▸ hb) (by decide)) s

/-- The registers of the page return to their reset values but for those kept; the others keep theirs. -/
theorem State.rd_pageReset (k : Nat) : (s.pageReset pg).rd k = if resetKey pg k then regReset k else s.rd k := by
  obtain ⟨hregs, -, -, -⟩ := State.blockReset_quiet hb s i
  have hslots : ((s.blockReset b i).slotsReset b pg).regs = s.regs :=
    ((State.slotsReset_chg (b := b) (pg := pg) (Within.self _) (Chg.refl (s.blockReset b i))).same .regs (by decide)).symm.trans hregs
  rw [State.pageReset_quiet hp hb, State.rd_msixEval]
  show Tab.get regReset (Tab.keep (fun k => !resetKey pg k) ((s.blockReset b i).slotsReset b pg).regs) k = _
  rw [Tab.get_keep, hslots]
  cases resetKey pg k <;> rfl

/-- Of the rest of the state the reset changes the block's own, its slots and the interrupts sent. -/
theorem State.pageReset_keeps : (s.pageReset pg).tbl = s.tbl ∧ (s.pageReset pg).inj = s.inj ∧ (s.pageReset pg).resets = s.resets ∧
    (s.pageReset pg).meters = (s.blockReset b i).meters ∧ (s.pageReset pg).fre = (s.blockReset b i).fre := by
  obtain ⟨-, htbl, hinj, hresets⟩ := State.blockReset_quiet hb s i
  have chg := State.slotsReset_chg (b := b) (pg := pg) (Within.self _) (Chg.refl (s.blockReset b i))
  rw [State.pageReset_quiet hp hb, State.msixEval_tbl, State.msixEval_inj, State.msixEval_resets, State.msixEval_meters, State.msixEval_fre]
  exact ⟨(chg.same .tbl (by decide)).symm.trans htbl, (chg.same .inj (by decide)).symm.trans hinj,
    (chg.same .resets (by decide)).symm.trans hresets, (chg.same .meters (by decide)).symm, (chg.same .fre (by decide)).symm⟩

end

/-- A write of SOFT_RST to a page's BLK_CTRL. -/
theorem State.blkCtrlWrite_softRst {pg : Nat} {x : Blk × Nat} (hp : pageOf pg = some x) (s : State) : s.blkCtrlWrite pg 4 = s.softRst pg := by
  unfold State.blkCtrlWrite
  rw [hp]
  exact if_pos (by decide)

theorem softRst_resets {m pg i : Nat} {s : State} {b : Blk} (hp : pageOf pg = some (b, i)) (hsrv : pg ≠ 0xC8) (hi : s.inj = [])
    (hb : b ∈ quietBlocks) (h : s.admits m (Reg.BLK_CTRL (pg * 0x1000)) = true) :
    Completes (.softRst m pg) s fun t =>
      (∀ k, resetKey pg k = true → k ≠ Reg.BLK_CTRL (pg * 0x1000) → t.rd k = regReset k) ∧
      (∀ k, resetKey pg k = false → (k < 0x4000 ∨ 0x5000 ≤ k) → t.rd k = s.rd k) ∧
      t.rb (Reg.BLK_CTRL (pg * 0x1000)) 2 = true ∧ pg ∈ t.resets ∧
      (b = .wei → t.meters = Tab.keep (fun k => decide (3072 ≤ k)) s.meters) ∧ (b = .fre → t.fre = []) ∧ t.tbl = s.tbl := by
  have hacc : (s.hdrAccess m (Reg.BLK_CTRL (pg * 0x1000)) fun u => u.blkCtrlWrite pg 4) =
      (s.noted m (Reg.BLK_CTRL (pg * 0x1000))).softRst pg := by
    rw [State.hdrAccess_page (by decide) hsrv h, State.blkCtrlWrite_softRst hp]
  obtain ⟨htbl, hinj, -, hmeters, hfre⟩ := State.pageReset_keeps hp hb (s.noted m (Reg.BLK_CTRL (pg * 0x1000)))
  have hsettle : ((s.noted m (Reg.BLK_CTRL (pg * 0x1000))).softRst pg).settle = (s.noted m (Reg.BLK_CTRL (pg * 0x1000))).softRst pg :=
    State.settle_nil (hinj.trans ((State.noted_inj ..).trans hi))
  refine ⟨(s.noted m (Reg.BLK_CTRL (pg * 0x1000))).softRst pg, ?_, fun k hk hne => ?_, fun k hk ho => ?_, State.rb_wf_same _ _ _ (by decide), ?_,
    ?_, ?_, htbl.trans (State.noted_tbl ..)⟩
  · show settled (s.hdrAccess m (Reg.BLK_CTRL (pg * 0x1000)) fun u => u.blkCtrlWrite pg 4) = _
    rw [hacc, settled, hsettle]
  · refine (State.rd_wr_ne _ _ (Ne.symm hne)).trans ?_
    rw [State.rd_pageReset hp hb, if_pos hk]
  · have hne : Reg.BLK_CTRL (pg * 0x1000) ≠ k := by
      rintro rfl
      rw [resetKey_blkCtrl (pageOf_le hp)] at hk
      cases hk
    refine (State.rd_wr_ne _ _ hne).trans ?_
    rw [State.rd_pageReset hp hb, if_neg (by simp [hk]), State.rd_noted _ _ _ ho]
  · show pg ∈ if _ then _ else _
    split
    · next hc => exact List.contains_iff_mem.mp hc
    · exact List.mem_append_right _ List.mem_cons_self
  · rintro rfl
    refine hmeters.trans ?_
    rw [← State.noted_meters s m (Reg.BLK_CTRL (pg * 0x1000))]
    rfl
  · rintro rfl
    exact hfre

/-- The reset of a page is settled: SOFT_RST reads 0 again. -/
theorem softRstDone_clears {pg : Nat} {s : State} (h : pg ∈ s.resets) :
    Completes (.softRstDone pg) s fun t =>
      t.rb (Reg.BLK_CTRL (pg * 0x1000)) 2 = false ∧ pg ∉ t.resets ∧ regsBut [Reg.BLK_CTRL (pg * 0x1000)] s t := by
  refine ⟨s.softRstDone pg, rfl, ?_⟩
  unfold State.softRstDone
  rw [if_pos (List.contains_iff_mem.mpr h)]
  refine ⟨State.rb_wf_same _ _ _ (by decide), fun hm => ?_, regsBut_wf s List.mem_cons_self 2 1 0⟩
  exact of_decide_eq_true (List.mem_filter.mp hm).2 rfl

/-! ### QUIESCE_REQ and QUIESCED -/

/-- The blocks for which a change of EN has no further effect. -/
def plainEnBlocks : List Blk :=
  [Blk.gpi, .icl, .ict, .srt, .adt, .edy, .wei, .fre, .tim, .dom, .cau, .lce, .upd, .mgn, .bud, .fgd, .twn, .had, .lrn, .bsn, .rak, .egs,
    .slu, .tap, .hif, .svc, .vlt]

theorem State.enChanged_plain {b : Blk} (hb : b ∈ plainEnBlocks) (s : State) (i : Nat) (was : Bool) : s.enChanged b i was = s := by
  unfold State.enChanged
  split
  · rfl
  · split
    · exact absurd hb (by decide)
    · exact absurd hb (by decide)
    · exact absurd hb (by decide)
    · exact absurd hb (by decide)
    · rfl

/-- Writing EN of such a block sets the bit alone. -/
theorem State.enWrite_plain {b : Blk} (hb : b ∈ plainEnBlocks) (s : State) (i : Nat) (on : Bool) :
    s.enWrite b i on = s.wf (Reg.BLK_CTRL (pageBase b i)) 0 1 (b2n on) := by
  unfold State.enWrite
  split
  · exact absurd hb (by decide)
  · exact absurd hb (by decide)
  · exact absurd hb (by decide)
  · exact absurd hb (by decide)
  · exact absurd hb (by decide)
  · exact absurd hb (by decide)
  · exact State.enChanged_plain hb _ i _

theorem b2n_odd (b : Bool) : decide (b2n b % 2 = 1) = b := by cases b <;> rfl

/-- A page's BLK_CTRL and BLK_STAT are two words. -/
theorem blkCtrl_ne_blkStat (base : Nat) : Reg.BLK_STAT base ≠ Reg.BLK_CTRL base := by
  unfold Reg.BLK_STAT Reg.BLK_CTRL
  omega

theorem State.rd_quiesceSet_ctrl (s : State) (pg : Nat) (on : Bool) : (s.quiesceSet pg on).rd (Reg.BLK_CTRL (pg * 0x1000)) =
    (s.wf (Reg.BLK_CTRL (pg * 0x1000)) 1 1 (b2n on)).rd (Reg.BLK_CTRL (pg * 0x1000)) := by
  unfold State.quiesceSet
  cases on with
  | true => rfl
  | false => exact State.rd_wr_ne _ _ (blkCtrl_ne_blkStat _)

theorem State.quiesceSet_bits (s : State) (pg : Nat) (on : Bool) :
    (s.quiesceSet pg on).rb (Reg.BLK_CTRL (pg * 0x1000)) 0 = s.rb (Reg.BLK_CTRL (pg * 0x1000)) 0 ∧
    (s.quiesceSet pg on).rb (Reg.BLK_CTRL (pg * 0x1000)) 1 = on ∧
    (on = false → (s.quiesceSet pg on).rb (Reg.BLK_STAT (pg * 0x1000)) 1 = false) ∧
    regsBut [Reg.BLK_CTRL (pg * 0x1000), Reg.BLK_STAT (pg * 0x1000)] s (s.quiesceSet pg on) ∧ (s.quiesceSet pg on).inj = s.inj := by
  have hctrl := fun j => congrArg (bit · j) (s.rd_quiesceSet_ctrl pg on)
  refine ⟨(hctrl 0).trans (State.rb_wf_other _ _ _ (by decide) (.inl (by decide))),
    (hctrl 1).trans ((State.rb_wf_same _ _ _ (by decide)).trans (b2n_odd on)), ?_, ?_, ?_⟩
  · rintro rfl
    exact State.rb_wf_same _ _ _ (by decide)
  · have hon : regsBut [Reg.BLK_CTRL (pg * 0x1000), Reg.BLK_STAT (pg * 0x1000)] s (s.wf (Reg.BLK_CTRL (pg * 0x1000)) 1 1 (b2n on)) :=
      regsBut_wf s List.mem_cons_self _ _ _
    unfold State.quiesceSet
    cases on with
    | true => exact hon
    | false => exact hon.trans (regsBut_wf _ (List.mem_cons_of_mem _ List.mem_cons_self) _ _ _)
  · unfold State.quiesceSet
    cases on <;> rfl

/-- A write of BLK_CTRL without SOFT_RST to such a page: EN takes its bit, and QUIESCE_REQ when it differs. -/
theorem State.blkCtrlWrite_plain {pg i : Nat} {b : Blk} {v : Word} (hp : pageOf pg = some (b, i)) (hb : b ∈ plainEnBlocks)
    (h2 : bit v 2 = false) (s : State) : s.blkCtrlWrite pg v =
      if (s.wf (Reg.BLK_CTRL (pg * 0x1000)) 0 1 (b2n (bit v 0))).rb (Reg.BLK_CTRL (pg * 0x1000)) 1 = bit v 1 then
        s.wf (Reg.BLK_CTRL (pg * 0x1000)) 0 1 (b2n (bit v 0))
      else (s.wf (Reg.BLK_CTRL (pg * 0x1000)) 0 1 (b2n (bit v 0))).quiesceSet pg (bit v 1) := by
  unfold State.blkCtrlWrite
  rw [hp]
  simp only
  rw [if_neg (by simp [h2]), State.enWrite_plain hb, pageOf_base hp]

theorem State.blkCtrlWrite_bits {pg i : Nat} {b : Blk} {v : Word} (hp : pageOf pg = some (b, i)) (hb : b ∈ plainEnBlocks)
    (h2 : bit v 2 = false) (s : State) :
    (s.blkCtrlWrite pg v).rb (Reg.BLK_CTRL (pg * 0x1000)) 0 = bit v 0 ∧ (s.blkCtrlWrite pg v).rb (Reg.BLK_CTRL (pg * 0x1000)) 1 = bit v 1 ∧
    (bit v 1 = false → s.rb (Reg.BLK_CTRL (pg * 0x1000)) 1 = true → (s.blkCtrlWrite pg v).rb (Reg.BLK_STAT (pg * 0x1000)) 1 = false) ∧
    regsBut [Reg.BLK_CTRL (pg * 0x1000), Reg.BLK_STAT (pg * 0x1000)] s (s.blkCtrlWrite pg v) ∧ (s.blkCtrlWrite pg v).inj = s.inj := by
  rw [State.blkCtrlWrite_plain hp hb h2]
  have hen : (s.wf (Reg.BLK_CTRL (pg * 0x1000)) 0 1 (b2n (bit v 0))).rb (Reg.BLK_CTRL (pg * 0x1000)) 0 = bit v 0 :=
    (State.rb_wf_same _ _ _ (by decide)).trans (b2n_odd _)
  have hreq : (s.wf (Reg.BLK_CTRL (pg * 0x1000)) 0 1 (b2n (bit v 0))).rb (Reg.BLK_CTRL (pg * 0x1000)) 1 =
      s.rb (Reg.BLK_CTRL (pg * 0x1000)) 1 := State.rb_wf_other _ _ _ (by decide) (.inr (by decide))
  have hrest : regsBut [Reg.BLK_CTRL (pg * 0x1000), Reg.BLK_STAT (pg * 0x1000)] s
      (s.wf (Reg.BLK_CTRL (pg * 0x1000)) 0 1 (b2n (bit v 0))) := regsBut_wf s List.mem_cons_self _ _ _
  split
  · next hsame =>
    refine ⟨hen, hsame, fun hoff hon => ?_, hrest, rfl⟩
    rw [hreq, hon, hoff] at hsame
    cases hsame
  · obtain ⟨h0, h1, hstat, hbut, hinj⟩ := (s.wf (Reg.BLK_CTRL (pg * 0x1000)) 0 1 (b2n (bit v 0))).quiesceSet_bits pg (bit v 1)
    exact ⟨h0.trans hen, h1, fun hoff _ => hstat hoff, hrest.trans hbut, hinj⟩

theorem quiesceReq_sets {m pg i : Nat} {v : Word} {s : State} {b : Blk} (hp : pageOf pg = some (b, i)) (hi : s.inj = [])
    (h2 : bit v 2 = false) (h4 : pg ≠ 4) (hb : b ∈ plainEnBlocks) (h : s.admits m (Reg.BLK_CTRL (pg * 0x1000)) = true) :
    Completes (.quiesceReq m pg v) s fun t =>
      t.rb (Reg.BLK_CTRL (pg * 0x1000)) 0 = bit v 0 ∧ t.rb (Reg.BLK_CTRL (pg * 0x1000)) 1 = bit v 1 ∧
      (bit v 1 = false → s.rb (Reg.BLK_CTRL (pg * 0x1000)) 1 = true → t.rb (Reg.BLK_STAT (pg * 0x1000)) 1 = false) ∧
      regsBut [Reg.BLK_CTRL (pg * 0x1000), Reg.BLK_STAT (pg * 0x1000)] s t := by
  have hsrv : pg ≠ 0xC8 :=
    pageOf_ne hp (show pageOf 0xC8 = some (.srv, 0) from rfl) (fun e => absurd (e ▸ hb) (by decide))
  obtain ⟨h0, h1, hstat, hbut, hinj⟩ := State.blkCtrlWrite_bits hp hb h2 (s.noted m (Reg.BLK_CTRL (pg * 0x1000)))
  have hctrl : (s.noted m (Reg.BLK_CTRL (pg * 0x1000))).rb (Reg.BLK_CTRL (pg * 0x1000)) 1 = s.rb (Reg.BLK_CTRL (pg * 0x1000)) 1 :=
    State.rb_noted _ _ _ _ (pageWord_ne_pfc (by decide) h4)
  refine ⟨(s.noted m (Reg.BLK_CTRL (pg * 0x1000))).blkCtrlWrite pg v, ?_, h0, h1, fun hoff hon => hstat hoff (hctrl.trans hon),
    (regsBut_noted _ s m _).trans hbut⟩
  show settled (s.hdrAccess m (Reg.BLK_CTRL (pg * 0x1000)) fun u => u.blkCtrlWrite pg v) = _
  rw [State.hdrAccess_page (by decide) hsrv h, settled, State.settle_nil (hinj.trans ((State.noted_inj ..).trans hi))]

theorem quiesced_sets {pg : Nat} {s : State} (h : s.rb (Reg.BLK_CTRL (pg * 0x1000)) 1 = true) :
    Completes (.quiesced pg) s fun t =>
      t.rb (Reg.BLK_STAT (pg * 0x1000)) 1 = true ∧ pg ∉ t.pwr.waiting ∧ regsBut [Reg.BLK_STAT (pg * 0x1000)] s t := by
  refine ⟨s.quiesced pg, rfl, ?_⟩
  unfold State.quiesced
  rw [if_pos h]
  refine ⟨State.rb_wf_same _ _ _ (by decide), fun hm => ?_, regsBut_wf s List.mem_cons_self 1 1 1⟩
  exact of_decide_eq_true (List.mem_filter.mp hm).2 rfl

end Sys2Proof.Machine

open Sys2Proof Sys2Proof.Machine

/-- Settles O9: a quiet block's reset keeps the registers that are not its page's, and EN and QUIESCE_REQ are bits of one word. -/
theorem blockResetAndQuiesceBits : Obligations.BlockResetAndQuiesceBits := by
  unfold Obligations.BlockResetAndQuiesceBits
  exact ⟨fun m pg s b i hp hsrv hi hb h => softRst_resets hp hsrv hi hb h, fun pg s h _ => softRstDone_clears h,
    fun m pg v s b i hp hi h2 h4 hb h => quiesceReq_sets hp hi h2 h4 hb h, fun pg s h => quiesced_sets h⟩

end
section
/-! The address table's route of a frame (R76), and what its lookup reads: the table and the four hash seeds. -/

namespace Sys2Proof.Machine

/-! ### Lookups of the address table -/

theorem State.tent_congr {s t : State} (h : s.tbl = t.tbl) (n i : Nat) : s.tent n i = t.tent n i := by
  unfold State.tent
  rw [h]

/-- A lookup reads the table and the four seeds, which lie above the page of the performance counters. -/
theorem State.adtFind_congr {s t : State} (htbl : s.tbl = t.tbl) (hrd : ∀ k, 0x5000 ≤ k → s.rd k = t.rd k) (key : Nat) :
    s.adtFind key = t.adtFind key := by
  have hidx : (List.range 4).map (s.adtIndex key) = (List.range 4).map (t.adtIndex key) := by
    refine List.map_congr_left fun w _ => ?_
    unfold State.adtIndex
    rw [hrd _ (by unfold Reg.ADT_SEED0; omega)]
  unfold State.adtFind
  rw [hidx]
  simp only [State.tent_congr htbl]

theorem State.adtFind_perf (s : State) (code n key : Nat) (m a : Option Nat) : (s.perf code n m a).adtFind key = s.adtFind key :=
  State.adtFind_congr (State.perf_tbl s code n m a) (fun _ hk => State.rd_perf _ _ _ _ _ (.inr hk)) key

theorem State.tent_perf (s : State) (code n t i : Nat) (m a : Option Nat) : (s.perf code n m a).tent t i = s.tent t i :=
  State.tent_congr (State.perf_tbl s code n m a) t i

/-! ### Counters of 64 bits -/

theorem State.rd64_congr {s t : State} {a : Nat} (h : s.rd a = t.rd a) (h' : s.rd (a + 4) = t.rd (a + 4)) : s.rd64 a = t.rd64 a := by
  unfold State.rd64
  rw [h, h']

/-- What a statistics counter reads after it counts depends on nothing but what it read before. -/
theorem State.rd64_stat_congr {s t : State} {a : Nat} (h : s.rd64 a = t.rd64 a) (n : Nat) : (s.stat a n).rd64 a = (t.stat a n).rd64 a := by
  rw [State.rd64_stat, State.rd64_stat, h]

theorem State.rd64_perf (s : State) (code n : Nat) (m a : Option Nat) {k : Nat} (hk : 0x5000 ≤ k) :
    (s.perf code n m a).rd64 k = s.rd64 k :=
  State.rd64_congr (State.rd_perf _ _ _ _ _ (.inr hk)) (State.rd_perf _ _ _ _ _ (.inr (by omega)))

/-! ### Destination sets -/

/-- Taking away a bit that is set clears it, and no other. -/
theorem testBit_sub_two_pow {n p : Nat} (h : n.testBit p = true) (q : Nat) : (n - 2 ^ p).testBit q = (decide (q ≠ p) && n.testBit q) := by
  rw [Nat.testBit_eq_decide_div_mod_eq, decide_eq_true_eq] at h
  have hr : n % 2 ^ p < 2 ^ p := Nat.mod_lt _ (Nat.two_pow_pos p)
  have hn : n = 2 ^ p * (2 * (n / 2 ^ p / 2) + 1) + n % 2 ^ p := by
    rw [show 2 * (n / 2 ^ p / 2) + 1 = n / 2 ^ p by omega, Nat.div_add_mod]
  generalize n / 2 ^ p / 2 = high at hn
  have hsub : n - 2 ^ p = 2 ^ p * (2 * high) + n % 2 ^ p := by
    rw [Nat.mul_add, Nat.mul_one] at hn
    omega
  generalize n % 2 ^ p = low at hr hn hsub
  rw [hsub, hn, Nat.testBit_two_pow_mul_add _ hr, Nat.testBit_two_pow_mul_add _ hr]
  rcases Nat.lt_trichotomy q p with hq | rfl | hq
  · rw [if_pos hq, if_pos hq, decide_eq_true (by omega), Bool.true_and]
  · simp
  · obtain ⟨k, hk⟩ : ∃ k, q - p = k + 1 := ⟨q - p - 1, by omega⟩
    rw [if_neg (by omega), if_neg (by omega), decide_eq_true (by omega), Bool.true_and, hk, Nat.testBit_succ, Nat.testBit_succ]
    congr 1
    omega

/-- A destination set without the ingress keeps every other destination (R71). -/
theorem testBit_without (dest p q : Nat) : (without dest p).testBit q = (decide (q ≠ p) && dest.testBit q) := by
  unfold without
  split
  · next h => exact testBit_sub_two_pow h q
  · next h =>
    by_cases hq : q = p
    · rw [hq, Bool.eq_false_iff.mpr h, Bool.and_false]
    · rw [decide_eq_true hq, Bool.true_and]

theorem without_two_pow {port p : Nat} (h : port ≠ p) : without (2 ^ port) p = 2 ^ port := by
  unfold without
  rw [Nat.testBit_two_pow_of_ne h]
  rfl

/-! ### The four outcomes of the route -/

section

variable {s : State} {p vid i : Nat} {x : Parsed}

theorem State.adtRoute_group (hs : isGroup x.smac = true) :
    s.adtRoute p x vid = (none, (s.evt Reg.ADT_BAD_SMAC).raise .adt 0 Irq.ADT_BAD_SMAC) := if_pos hs

theorem State.adtRoute_found (hs : isGroup x.smac = false) (hi : s.adtFind (adtKey x.dmac vid) = some i) (hm : adtMcast (s.tent 2 i) = false) :
    s.adtRoute p x vid =
      if adtPort (s.tent 2 i) = p then (none, (s.perf 0x31 1).stat Reg.ADT_LOCAL_FILTER 1)
      else (some ((s.perf 0x31 1).adtTo p x (2 ^ adtPort (s.tent 2 i))), s.perf 0x31 1) := by
  unfold State.adtRoute
  simp only [hs, State.adtFind_perf, hi, State.tent_perf, hm, Bool.false_eq_true, if_false]

theorem State.adtRoute_unknown (hs : isGroup x.smac = false) (hi : s.adtFind (adtKey x.dmac vid) = none) :
    s.adtRoute p x vid =
      (some ((s.perf 0x31 1).adtTo p x ((s.perf 0x31 1).rf (if isGroup x.dmac then Reg.ADT_FLOOD_MC p else Reg.ADT_FLOOD_UC p) 0 26)),
        (s.perf 0x31 1).stat Reg.ADT_FLOOD 1) := by
  unfold State.adtRoute
  simp only [hs, State.adtFind_perf, hi, Bool.false_eq_true, if_false]

/-- The flood mask of a port is no performance counter's register. -/
theorem State.floodMask_perf :
    (s.perf 0x31 1).rf (if isGroup x.dmac then Reg.ADT_FLOOD_MC p else Reg.ADT_FLOOD_UC p) 0 26 =
      s.rf (if isGroup x.dmac then Reg.ADT_FLOOD_MC p else Reg.ADT_FLOOD_UC p) 0 26 := by
  unfold State.rf
  rw [State.rd_perf _ _ _ _ _ (.inr (by split <;> exact Nat.le_add_right_of_le (by decide)))]

/-! ### The statement's clauses -/

theorem adtRoute_forwards (hs : isGroup x.smac = false) (hi : s.adtFind (adtKey x.dmac vid) = some i) (hm : adtMcast (s.tent 2 i) = false)
    (hp : adtPort (s.tent 2 i) ≠ p) : (s.adtRoute p x vid).1.map Route.dest = some (2 ^ adtPort (s.tent 2 i)) := by
  rw [State.adtRoute_found hs hi hm, if_neg hp]
  exact congrArg some (without_two_pow hp)

theorem adtRoute_filters (hs : isGroup x.smac = false) (hi : s.adtFind (adtKey x.dmac vid) = some i) (hm : adtMcast (s.tent 2 i) = false)
    (hp : adtPort (s.tent 2 i) = p) :
    (s.adtRoute p x vid).1 = none ∧
    (s.adtRoute p x vid).2.rd64 Reg.ADT_LOCAL_FILTER = (s.stat Reg.ADT_LOCAL_FILTER 1).rd64 Reg.ADT_LOCAL_FILTER := by
  rw [State.adtRoute_found hs hi hm, if_pos hp]
  exact ⟨rfl, State.rd64_stat_congr (State.rd64_perf _ _ _ _ _ (by decide)) 1⟩

theorem adtRoute_floods (hs : isGroup x.smac = false) (hi : s.adtFind (adtKey x.dmac vid) = none) (q : Nat) :
    (s.adtRoute p x vid).1.map (fun r => r.dest.testBit q) =
      some (decide (q ≠ p) && (s.rf (if isGroup x.dmac then Reg.ADT_FLOOD_MC p else Reg.ADT_FLOOD_UC p) 0 26).testBit q) := by
  rw [State.adtRoute_unknown hs hi, State.floodMask_perf]
  exact congrArg some (testBit_without _ p q)

theorem adtRoute_drops (hs : isGroup x.smac = true) :
    (s.adtRoute p x vid).1 = none ∧ (s.adtRoute p x vid).2.rd Reg.ADT_BAD_SMAC = evtNext (s.rd Reg.ADT_BAD_SMAC) ∧
    (s.adtRoute p x vid).2.rb (Reg.INT_RAW (pageBase .adt 0)) Irq.ADT_BAD_SMAC = true := by
  rw [State.adtRoute_group hs]
  refine ⟨rfl, ?_, State.rb_raise _ .adt 0 (by decide)⟩
  rw [State.rd_raise, if_neg (by decide), State.rd_evt, if_pos rfl]

end

end Sys2Proof.Machine

open Sys2Proof Sys2Proof.Machine

/-- Settles O20: a lookup reads nothing that the performance counters change, and the route is one of four outcomes. -/
theorem addressTableForwards : Obligations.AddressTableForwards := by
  unfold Obligations.AddressTableForwards
  refine ⟨fun s p b vid i hs hi hm => ⟨fun hp => adtRoute_forwards hs hi hm hp, fun hp => adtRoute_filters hs hi hm hp⟩, ?_,
    fun s p b vid hs => adtRoute_drops hs⟩
  intro s p b vid q hs hi _
  exact adtRoute_floods hs hi q

end
section
/-! Passes over the entries of the address table: an operation on one entry after another changes each of them once. -/

namespace Sys2Proof.Machine

/-! ### One entry of one table -/

/-- Tables are 65536 keys apart. -/
theorem State.tent_setTent_other (s : State) {t u i j : Nat} (e : BitVec 512) (h : t ≠ u) (hi : i < 65536) (hj : j < 65536) :
    (s.setTent t i e).tent u j = s.tent u j := by
  unfold State.setTent State.tent
  exact Tab.get_set_ne _ _ _ (by omega)

/-- At `u`, of which `P` holds and still does afterwards, `f` changes entry `i` of the address table by `g`, and no other. -/
def ChangesEntry (P : State → Prop) (f : State → Nat → State) (g : BitVec 512 → BitVec 512) (i : Nat) : Prop :=
  ∀ u, P u → P (f u i) ∧ ∀ j, (f u i).tent 2 j = if i = j then g (u.tent 2 j) else u.tent 2 j

/-- A pass over distinct entries changes each of them once. -/
theorem tent_foldl {P : State → Prop} {f : State → Nat → State} {g : BitVec 512 → BitVec 512} :
    ∀ {l : List Nat} {s : State}, P s → (∀ i ∈ l, ChangesEntry P f g i) → l.Nodup →
      P (l.foldl f s) ∧ ∀ j, (l.foldl f s).tent 2 j = if j ∈ l then g (s.tent 2 j) else s.tent 2 j
  | [], s, hs, _, _ => ⟨hs, fun j => (if_neg List.not_mem_nil).symm⟩
  | i :: l, s, hs, h, hd => by
    obtain ⟨hfirst, hent⟩ := h i List.mem_cons_self s hs
    obtain ⟨hi, hl⟩ := List.nodup_cons.mp hd
    obtain ⟨hP, hrest⟩ := tent_foldl hfirst (fun k hk => h k (List.mem_cons_of_mem _ hk)) hl
    refine ⟨hP, fun j => ?_⟩
    rw [List.foldl_cons, hrest, hent]
    by_cases hij : i = j
    · rw [if_neg (hij ▸ hi), if_pos hij, if_pos (hij ▸ List.mem_cons_self)]
    · rw [if_neg hij]
      simp only [List.mem_cons, Ne.symm hij, false_or]

/-! ### All the entries that are listed -/

theorem Tab.rising_pairwise {V : Type} : ∀ {t : Tab V} {lo : Nat}, Tab.rising lo t = true → (∀ x ∈ t, lo ≤ x.1) ∧ t.Pairwise fun x y => x.1 < y.1
  | [], _, _ => ⟨List.forall_mem_nil _, List.Pairwise.nil⟩
  | (a, v) :: t, lo, h => by
    simp only [Tab.rising, Bool.and_eq_true, decide_eq_true_eq] at h
    obtain ⟨hlo, hlt⟩ := Tab.rising_pairwise h.2
    refine ⟨fun x hx => ?_, List.pairwise_cons.mpr ⟨hlo, hlt⟩⟩
    rcases List.mem_cons.mp hx with rfl | hx
    · exact h.1
    · exact Nat.le_trans h.1 (Nat.le_of_succ_le (hlo x hx))

theorem Tab.get_unlisted {V : Type} (d : Nat → V) {k : Nat} : ∀ {t : Tab V}, (∀ x ∈ t, x.1 ≠ k) → Tab.get d t k = d k
  | [], _ => rfl
  | (a, v) :: _, h => (if_neg (h (a, v) List.mem_cons_self)).trans (Tab.get_unlisted d fun x hx => h x (List.mem_cons_of_mem _ hx))

/-- The entries of a table have the keys between two multiples of 65536. -/
theorem State.tentries_keys (s : State) (t : Nat) :
    (s.tentries t).map (fun x => x.1) = (s.tbl.filter fun x => decide (x.1 / 65536 = t)).map fun x => x.1 % 65536 := by
  unfold State.tentries
  induction s.tbl with
  | nil => rfl
  | cons x l ih =>
    rw [List.filterMap_cons, List.filter_cons]
    by_cases h : x.1 / 65536 = t
    · simp only [h, if_true, decide_true, List.map_cons, ih]
    · simp only [h, if_false, decide_false, Bool.false_eq_true, ih]

/-- A table lists no entry twice. -/
theorem State.tentries_nodup {s : State} (h : Tab.rising 0 s.tbl = true) (t : Nat) : ((s.tentries t).map (fun x => x.1)).Nodup := by
  rw [State.tentries_keys, List.Nodup, List.pairwise_map, List.pairwise_filter]
  refine (Tab.rising_pairwise h).2.imp fun hlt hx hy => ?_
  have := of_decide_eq_true hx
  have := of_decide_eq_true hy
  omega

theorem State.tentries_lt {s : State} {t i : Nat} (h : i ∈ (s.tentries t).map (fun x => x.1)) : i < 65536 := by
  rw [State.tentries_keys] at h
  obtain ⟨x, -, rfl⟩ := List.mem_map.mp h
  exact Nat.mod_lt _ (by decide)

/-- An entry that its table does not list is zero. -/
theorem State.tent_unlisted {s : State} {t i : Nat} (hi : i < 65536) (h : i ∉ (s.tentries t).map (fun x => x.1)) : s.tent t i = 0 := by
  rw [State.tentries_keys] at h
  refine Tab.get_unlisted _ fun x hx hk => h (List.mem_map.mpr ⟨x, List.mem_filter.mpr ⟨hx, ?_⟩, ?_⟩)
  · exact decide_eq_true (by omega)
  · omega

/-- A pass over the listed entries changes every entry, where an entry of zeros stays one. -/
theorem tent_pass {P : State → Prop} {f : State → Nat → State} {g : BitVec 512 → BitVec 512} {s : State} (h : Tab.rising 0 s.tbl = true)
    (hP : P s) (hg : g 0 = 0) (hf : ∀ i, i < 65536 → ChangesEntry P f g i) :
    P (((s.tentries 2).map (fun x => x.1)).foldl f s) ∧
    ∀ i, i < 65536 → (((s.tentries 2).map (fun x => x.1)).foldl f s).tent 2 i = g (s.tent 2 i) := by
  obtain ⟨hP, hent⟩ := tent_foldl hP (fun i hi => hf i (State.tentries_lt hi)) (State.tentries_nodup h 2)
  refine ⟨hP, fun i hi => (hent i).trans ?_⟩
  split
  · rfl
  · next hout => rw [State.tent_unlisted hi hout, hg]

end Sys2Proof.Machine

end
section
/-! LEARN_COMMIT (R84, R85): the oldest request, of a frame of this device, against the entry that holds its address, or without one. -/

namespace Sys2Proof.Machine

/-! ### What the operations of learning leave alone -/

theorem State.rf_congr {s t : State} (h : s.regs = t.regs) (a lo len : Nat) : s.rf a lo len = t.rf a lo len := by
  unfold State.rf
  rw [State.rd_congr h]

theorem State.tick_congr {s t : State} (h : s.regs = t.regs) : s.tick = t.tick := State.rf_congr h _ _ _

theorem regsBut_stat {ks : List Nat} (s : State) {a : Nat} (ha : a ∈ ks) (ha4 : a + 4 ∈ ks) (n : Nat) : regsBut ks s (s.stat a n) :=
  (regsBut_wr s ha _).trans (regsBut_wr _ ha4 _)

/-- An announcement changes only what the anchors are still to be sent. -/
theorem State.announce_keeps (s : State) (key : Nat) : (s.announce key).regs = s.regs ∧ (s.announce key).tbl = s.tbl ∧
    (s.announce key).lrn.queue = s.lrn.queue ∧ (s.announce key).lrn.moves = s.lrn.moves := by
  unfold State.announce
  extract_lets x
  split <;> exact ⟨rfl, rfl, rfl, rfl⟩

theorem State.announceAgain_keeps (s : State) (key : Nat) : (s.announceAgain key).regs = s.regs ∧ (s.announceAgain key).tbl = s.tbl ∧
    (s.announceAgain key).lrn.queue = s.lrn.queue ∧ (s.announceAgain key).lrn.moves = s.lrn.moves := by
  unfold State.announceAgain
  split
  · exact s.announce_keeps key
  · split
    · exact s.announce_keeps key
    · exact ⟨rfl, rfl, rfl, rfl⟩

/-! ### The request taken off the queue -/

/-- The oldest request has left the queue, and `q` is left of it. -/
def State.took (s : State) (q : List LearnReq) : State := { s with lrn := { s.lrn with queue := q } }

/-- The search for a path goes by the table and the seeds: its levels are those before the request was taken
(the two functions differ in the state alone, and their equations are costly to derive). -/
theorem State.adtLevel_took (s : State) (q : List LearnReq) : (s.took q).adtLevel = s.adtLevel := by
  delta State.adtLevel
  rfl

theorem State.adtSearch_took (s : State) (q : List LearnReq) : ∀ n level seen, (s.took q).adtSearch n level seen = s.adtSearch n level seen
  | 0, _, _ => rfl
  | n + 1, level, seen => by
    unfold State.adtSearch
    simp only [State.adtLevel_took, State.adtSearch_took s q n]

theorem State.adtPath_took (s : State) (q : List LearnReq) (key : Nat) : (s.took q).adtPath key = s.adtPath key := by
  unfold State.adtPath
  simp only [State.adtSearch_took]
  rfl

/-- At `s` the oldest request is `r`, which a frame of this device made, `q` follows it, and no relocation is under way. -/
structure Requested (s : State) (r : LearnReq) (q : List LearnReq) : Prop where
  queue : s.lrn.queue = r :: q
  moves : s.lrn.moves = []
  learns : r.withdraw = false
  here : r.origin = none

section

variable {s : State} {r : LearnReq} {q : List LearnReq} {i : Nat}

/-- A request that is no withdrawal goes by the entry of its address. -/
theorem Requested.exec_eq (h : Requested s r q) :
    exec .learnCommit s = .next ((s.adtFind (adtKey r.mac r.vid)).elim ((s.took q).learnCreate r) ((s.took q).learnOn r)) := by
  show Host.Outcome.next s.learnCommit = _
  unfold State.learnCommit
  simp only [h.queue]
  rw [State.adtFinish_none (s := { s with lrn := { s.lrn with queue := q } }) h.moves, h.learns]
  show Host.Outcome.next (match s.adtFind (adtKey r.mac r.vid) with | some i => _ | none => _) = _
  cases s.adtFind (adtKey r.mac r.vid) <;> rfl

theorem State.remoteDone_local (s : State) (h : r.origin = none) : s.remoteDone r = s := by
  unfold State.remoteDone
  rw [h]
  rfl

/-- An entry on the request's own port is refreshed. -/
theorem Requested.exec_same (h : Requested s r q) (hi : s.adtFind (adtKey r.mac r.vid) = some i) (hp : adtPort (s.tent 2 i) = r.port) :
    exec .learnCommit s = .next ((s.took q).adtRefresh i) := by
  have hon : (s.took q).learnOn r i = (s.took q).adtRefresh i := by
    unfold State.learnOn
    simp only [State.remoteDone_local _ h.here]
    rw [if_neg (by simp [h.here])]
    exact if_pos hp
  rw [h.exec_eq, hi]
  exact congrArg Host.Outcome.next hon

/-- A request from another port than the entry's is refused while the entry is static or frozen; else it is a flap or a move. -/
theorem Requested.exec_elsewhere (h : Requested s r q) (hi : s.adtFind (adtKey r.mac r.vid) = some i) (hp : adtPort (s.tent 2 i) ≠ r.port) :
    exec .learnCommit s = .next (if adtStatic (s.tent 2 i) then (s.took q).evt Reg.LRN_STATIC_MOVE
      else if adtFrozen (s.tent 2 i) then (s.took q).evt Reg.LRN_FROZEN_DROP
      else if s.isFlap (s.tent 2 i) then (s.took q).learnFlap i r.port else (s.took q).learnMove i r) := by
  rw [h.exec_eq, hi]
  show Host.Outcome.next ((s.took q).learnOn r i) = _
  unfold State.learnOn
  simp only [State.remoteDone_local _ h.here]
  rw [if_neg (by simp [h.here])]
  exact congrArg Host.Outcome.next (if_neg hp)

end

/-! ### Refresh (R81) -/

/-- Four ways of 4096 entries each: an address has four different candidates. -/
theorem State.adtIndex_injective (s : State) (key : Nat) {w w' : Nat} (h : s.adtIndex key w = s.adtIndex key w') : w = w' := by
  unfold State.adtIndex at h
  omega

theorem State.adtCopies_nodup (s : State) (i : Nat) : (s.adtCopies i).Nodup := by
  unfold State.adtCopies
  extract_lets e
  split
  · exact (List.Pairwise.map _ (fun _ _ hne he => hne (s.adtIndex_injective _ he)) List.nodup_range).filter _
  · exact List.pairwise_singleton _ i

theorem adtRefresh_entry (s0 : State) (tick i : Nat) :
    ChangesEntry (Chg [.tbl] s0) (fun u j => u.setTent 2 j (setFld (u.tent 2 j) 80 12 tick)) (fun e => setFld e 80 12 tick) i := by
  refine fun u hu => ⟨State.setTent_chg (.self _) hu, fun j => ?_⟩
  rw [State.tent_setTent]
  split
  · next h => rw [h]
  · rfl

/-- A refresh writes the AGE of the entry's copies, and changes no other entry. -/
theorem State.adtRefresh_refreshes (s : State) (i : Nat) : (s.adtRefresh i).lrn.queue = s.lrn.queue ∧ (s.adtRefresh i).regs = s.regs ∧
    ∀ j, (s.adtRefresh i).tent 2 j = if j ∈ s.adtCopies i then setFld (s.tent 2 j) 80 12 s.tick else s.tent 2 j := by
  unfold State.adtRefresh
  extract_lets e tick u
  obtain ⟨hchg, hent⟩ := tent_foldl (Chg.refl s) (fun k _ => adtRefresh_entry s tick k) (s.adtCopies_nodup i)
  have hregs : s.regs = u.regs := hchg.same .regs (by decide)
  have hlrn : s.lrn = u.lrn := hchg.same .lrn (by decide)
  split
  · exact ⟨by rw [hlrn], hregs.symm, hent⟩
  · obtain ⟨hregs', htbl, hqueue, -⟩ := u.announceAgain_keeps (adtKeyOf e)
    exact ⟨by rw [hqueue, hlrn], hregs'.trans hregs.symm, fun j => (State.tent_congr htbl 2 j).trans (hent j)⟩

/-! ### Flaps and moves (R85) -/

/-- The entry that a flap leaves: frozen on PREV_PORT. -/
def State.flapEntry (s : State) (e : BitVec 512) : BitVec 512 :=
  setFld (setFld (setFld (setFld (setFld e 72 5 (adtPrevPort e)) 4 1 1) 160 16 (s.rf Reg.LRN_FLAP 8 16)) 6 1 0) 80 12 s.tick

/-- The entry that a move to port `p` of this device leaves. -/
def State.moveEntry (s : State) (e : BitVec 512) (p : Nat) : BitVec 512 :=
  setFld (setFld (setFld (setFld (setFld (setFld e 208 5 (adtPort e)) 72 5 p) 80 12 s.tick) 176 32 s.now32) 6 1 1) 3 1 0

theorem fld_lt {n : Nat} (w : BitVec n) (lo len : Nat) : fld w lo len < 2 ^ len := Nat.mod_lt _ (Nat.two_pow_pos _)

theorem State.flapEntry_fields (s : State) (e : BitVec 512) :
    adtPort (s.flapEntry e) = adtPrevPort e ∧ adtFrozen (s.flapEntry e) = true ∧
    adtFreezeLeft (s.flapEntry e) = s.rf Reg.LRN_FLAP 8 16 ∧ adtLmValid (s.flapEntry e) = false := by
  unfold State.flapEntry adtPort adtFrozen adtFreezeLeft adtLmValid
  simp (disch := decide) only [fld_setFld_ne, fld_setFld_same, bit_setFld_ne, bit_setFld_same]
  exact ⟨Nat.mod_eq_of_lt (fld_lt e 208 5), rfl, Nat.mod_eq_of_lt (fld_lt _ 8 16), rfl⟩

theorem State.moveEntry_fields (s : State) (e : BitVec 512) {p : Nat} (hp : p < 32) :
    adtPort (s.moveEntry e p) = p ∧ adtPrevPort (s.moveEntry e p) = adtPort e ∧ adtAge (s.moveEntry e p) = s.tick ∧
    adtLastMove (s.moveEntry e p) = s.now32 ∧ adtLmValid (s.moveEntry e p) = true ∧ adtRemote (s.moveEntry e p) = false := by
  unfold State.moveEntry adtPort adtPrevPort adtAge adtLastMove adtLmValid adtRemote
  simp (disch := decide) only [fld_setFld_ne, fld_setFld_same, bit_setFld_ne, bit_setFld_same]
  exact ⟨Nat.mod_eq_of_lt hp, Nat.mod_eq_of_lt (fld_lt e 72 5), Nat.mod_eq_of_lt (fld_lt _ 0 12), Nat.mod_mod _ _, rfl, rfl⟩

/-- A flap is counted and raised, and its entry freezes; the captures of the flap are other registers. -/
theorem State.learnFlap_freezes (s : State) (i p : Nat) : (s.learnFlap i p).lrn = s.lrn ∧
    (∀ j, (s.learnFlap i p).tent 2 j = if i = j then s.flapEntry (s.tent 2 i) else s.tent 2 j) ∧
    (s.learnFlap i p).rd Reg.LRN_FLAP_CNT = evtNext (s.rd Reg.LRN_FLAP_CNT) ∧
    (s.learnFlap i p).rb (Reg.INT_RAW (pageBase .lrn 0)) Irq.LRN_FLAP = true := by
  unfold State.learnFlap
  extract_lets e prev e' u0 u1 u2 u3
  have hcaps : regsBut [Reg.LRN_FLAP_CAP0, Reg.LRN_FLAP_CAP1, Reg.LRN_FLAP_CAP2] u0 u3 :=
    ((regsBut_wr u0 (by decide) _).trans (regsBut_wr u1 (by decide) _)).trans (regsBut_wr u2 (by decide) _)
  have htbl : u3.tbl = (s.setTent 2 i e').tbl := by simp only [u3, u2, u1, u0, State.wr_tbl, State.raise_tbl, State.evt_tbl]
  refine ⟨by simp only [u3, u2, u1, u0, State.logEvt_lrn, State.wr_lrn, State.raise_lrn, State.evt_lrn, State.setTent_lrn], fun j => ?_, ?_, ?_⟩
  · exact (State.tent_congr ((State.logEvt_tbl ..).trans htbl) 2 j).trans (State.tent_setTent s 2 i j _)
  · rw [State.rd_logEvt, hcaps _ (by decide) (.inr (by decide)), State.rd_raise, if_neg (by decide), State.rd_evt, if_pos rfl,
      State.rd_setTent]
  · unfold State.rb
    rw [State.rd_logEvt, hcaps _ (by decide) (.inr (by decide))]
    exact State.rb_raise _ .lrn 0 (by decide)

/-- A move is counted, and announced to the anchors. -/
theorem State.learnMove_moves (s : State) (i : Nat) {r : LearnReq} (h : r.origin = none) : (s.learnMove i r).lrn.queue = s.lrn.queue ∧
    (∀ j, (s.learnMove i r).tent 2 j = if i = j then s.moveEntry (s.tent 2 i) r.port else s.tent 2 j) ∧
    (s.learnMove i r).regs = (s.stat Reg.LRN_MOVED 1).regs := by
  unfold State.learnMove
  simp only [h]
  rw [if_neg (by decide)]
  obtain ⟨hregs, htbl, hqueue, -⟩ := ((s.setTent 2 i (s.moveEntry (s.tent 2 i) r.port)).stat Reg.LRN_MOVED 1).announce_keeps (adtKeyOf (s.tent 2 i))
  refine ⟨hqueue.trans (by rw [State.stat_lrn, State.setTent_lrn]), fun j => ?_, hregs⟩
  exact (State.tent_congr (htbl.trans (State.stat_tbl ..)) 2 j).trans (State.tent_setTent s 2 i j _)

/-! ### A new entry (R84) -/

/-- The entry that a request of this device creates. -/
def State.newEntry (s : State) (r : LearnReq) : BitVec 512 :=
  BitVec.ofNat 512 (1 + r.mac * 2 ^ 8 + r.vid * 2 ^ 56 + r.port * 2 ^ 72 + s.tick * 2 ^ 80 + s.now32 * 2 ^ 176 + r.port * 2 ^ 208)

theorem State.adtPlaceSlow_free {s : State} {key i : Nat} (h : s.adtPath key = some [i]) (e : BitVec 512) :
    s.adtPlaceSlow key e = some (s.setTent 2 i e) := by
  unfold State.adtPlaceSlow
  rw [h]
  rfl

/-- A placement that relocates others leaves its writes to the update engine (log entry 87). -/
theorem State.adtPlaceSlow_moves {s : State} {key : Nat} {p : List Nat} (h : s.adtPath key = some p) (hp : p.length ≠ 1) (e : BitVec 512) :
    s.adtPlaceSlow key e = some { s with lrn := { s.lrn with moves := placeWrites e p } } := by
  unfold State.adtPlaceSlow
  rw [h]
  match p with
  | [] => rfl
  | [_] => exact absurd rfl hp
  | _ :: _ :: _ => rfl

/-- A request of this device that has been placed is counted, and announced to the anchors. -/
theorem State.learnCreate_placed {s u : State} {r : LearnReq} (h : r.origin = none) (hmac : r.mac < 2 ^ 48) (hvid : r.vid < 4096)
    (hu : s.adtPlaceSlow (adtKey r.mac r.vid) (s.newEntry r) = some u) :
    (s.learnCreate r).regs = (u.stat Reg.LRN_LEARNED 1).regs ∧ (s.learnCreate r).tbl = u.tbl ∧
    (s.learnCreate r).lrn.queue = u.lrn.queue ∧ (s.learnCreate r).lrn.moves = u.lrn.moves := by
  have hcreate : s.learnCreate r = (u.stat Reg.LRN_LEARNED 1).announce (adtKey r.mac r.vid) := by
    unfold State.newEntry at hu
    unfold State.learnCreate
    simp only [h, Nat.add_zero, Nat.mod_eq_of_lt hmac, Nat.mod_eq_of_lt hvid, hu, State.remoteDone_local _ h]
    rfl
  obtain ⟨hregs, htbl, hqueue, hmoves⟩ := (u.stat Reg.LRN_LEARNED 1).announce_keeps (adtKey r.mac r.vid)
  rw [hcreate]
  exact ⟨hregs, htbl.trans (State.stat_tbl ..), hqueue.trans (by rw [State.stat_lrn]), hmoves.trans (by rw [State.stat_lrn])⟩

/-! ### The statement's clauses on LEARN_COMMIT -/

section

variable {s : State} {r : LearnReq} {q : List LearnReq} {i : Nat}

/-- An entry that no move is relocating has one copy. -/
theorem State.adtCopies_one (h : adtReloc (s.tent 2 i) = false) : s.adtCopies i = [i] := if_neg (Bool.eq_false_iff.mp h)

/-- While an entry is being relocated its copies are the candidates that hold its key (R79). -/
theorem State.mem_adtCopies {j key : Nat} (h : adtReloc (s.tent 2 i) = true) (hkey : adtKeyOf (s.tent 2 i) = key)
    (hj : j ∈ (List.range 4).map (s.adtIndex key)) (hv : adtValid (s.tent 2 j) = true) (hk : adtKeyOf (s.tent 2 j) = key) :
    j ∈ s.adtCopies i := by
  subst hkey
  unfold State.adtCopies
  extract_lets e
  rw [if_pos h]
  exact List.mem_filter.mpr ⟨hj, by rw [hv, decide_eq_true hk]; rfl⟩

/-- An entry that a lookup finds holds the key looked up. -/
theorem State.adtFind_key {key : Nat} (h : s.adtFind key = some i) : adtKeyOf (s.tent 2 i) = key := by
  have hfound := List.find?_some h
  rw [Bool.and_eq_true, decide_eq_true_eq] at hfound
  exact hfound.2

section

variable (h : Requested s r q) (hi : s.adtFind (adtKey r.mac r.vid) = some i)

include h hi

theorem learnCommit_refreshes (hp : adtPort (s.tent 2 i) = r.port) :
    Completes .learnCommit s fun t => t.lrn.queue = q ∧ t.regs = s.regs ∧
      ∀ j, t.tent 2 j = if j ∈ s.adtCopies i then setFld (s.tent 2 j) 80 12 s.tick else s.tent 2 j :=
  ⟨_, h.exec_same hi hp, (s.took q).adtRefresh_refreshes i⟩

theorem learnCommit_refreshes_one (hp : adtPort (s.tent 2 i) = r.port) (hr : adtReloc (s.tent 2 i) = false) :
    Completes .learnCommit s fun t =>
      t.lrn.queue = q ∧ t.tent 2 i = setFld (s.tent 2 i) 80 12 s.tick ∧ (∀ j, j ≠ i → t.tent 2 j = s.tent 2 j) ∧ t.regs = s.regs := by
  obtain ⟨t, ht, hqueue, hregs, hent⟩ := learnCommit_refreshes h hi hp
  rw [State.adtCopies_one hr] at hent
  exact ⟨t, ht, hqueue, (hent i).trans (if_pos (List.mem_singleton_self i)),
    fun j hj => (hent j).trans (if_neg fun hm => hj (List.mem_singleton.mp hm)), hregs⟩

theorem learnCommit_refreshes_both {j : Nat} (hp : adtPort (s.tent 2 i) = r.port) (hr : adtReloc (s.tent 2 i) = true)
    (hj : j ∈ (List.range 4).map (s.adtIndex (adtKey r.mac r.vid))) (hv : adtValid (s.tent 2 j) = true)
    (hk : adtKeyOf (s.tent 2 j) = adtKey r.mac r.vid) :
    Completes .learnCommit s fun t => t.lrn.queue = q ∧ t.tent 2 j = setFld (s.tent 2 j) 80 12 s.tick ∧ t.regs = s.regs := by
  obtain ⟨t, ht, hqueue, hregs, hent⟩ := learnCommit_refreshes h hi hp
  exact ⟨t, ht, hqueue, (hent j).trans (if_pos (State.mem_adtCopies hr (State.adtFind_key hi) hj hv hk)), hregs⟩

theorem learnCommit_static (hp : adtPort (s.tent 2 i) ≠ r.port) (hst : adtStatic (s.tent 2 i) = true) :
    Completes .learnCommit s fun t =>
      t.lrn.queue = q ∧ t.tbl = s.tbl ∧ t.rd Reg.LRN_STATIC_MOVE = evtNext (s.rd Reg.LRN_STATIC_MOVE) ∧ regsBut [Reg.LRN_STATIC_MOVE] s t := by
  refine ⟨_, h.exec_elsewhere hi hp, ?_⟩
  rw [if_pos hst]
  exact ⟨rfl, rfl, State.rd_wr_same .., regsBut_evt (s.took q) (by decide)⟩

theorem learnCommit_frozen (hp : adtPort (s.tent 2 i) ≠ r.port) (hst : adtStatic (s.tent 2 i) = false)
    (hf : adtFrozen (s.tent 2 i) = true) :
    Completes .learnCommit s fun t =>
      t.lrn.queue = q ∧ t.tbl = s.tbl ∧ t.rd Reg.LRN_FROZEN_DROP = evtNext (s.rd Reg.LRN_FROZEN_DROP) ∧ regsBut [Reg.LRN_FROZEN_DROP] s t := by
  refine ⟨_, h.exec_elsewhere hi hp, ?_⟩
  rw [if_neg (Bool.eq_false_iff.mp hst), if_pos hf]
  exact ⟨rfl, rfl, State.rd_wr_same .., regsBut_evt (s.took q) (by decide)⟩

theorem learnCommit_flap (hp : adtPort (s.tent 2 i) ≠ r.port) (hst : adtStatic (s.tent 2 i) = false) (hf : adtFrozen (s.tent 2 i) = false)
    (hflap : s.isFlap (s.tent 2 i) = true) :
    Completes .learnCommit s fun t =>
      t.lrn.queue = q ∧ adtPort (t.tent 2 i) = adtPrevPort (s.tent 2 i) ∧ adtFrozen (t.tent 2 i) = true ∧
      adtFreezeLeft (t.tent 2 i) = s.rf Reg.LRN_FLAP 8 16 ∧ adtLmValid (t.tent 2 i) = false ∧ (∀ j, j ≠ i → t.tent 2 j = s.tent 2 j) ∧
      t.rd Reg.LRN_FLAP_CNT = evtNext (s.rd Reg.LRN_FLAP_CNT) ∧ t.rb (Reg.INT_RAW (pageBase .lrn 0)) Irq.LRN_FLAP = true := by
  refine ⟨_, h.exec_elsewhere hi hp, ?_⟩
  rw [if_neg (Bool.eq_false_iff.mp hst), if_neg (Bool.eq_false_iff.mp hf), if_pos hflap]
  obtain ⟨hlrn, hent, hcnt, hraw⟩ := (s.took q).learnFlap_freezes i r.port
  obtain ⟨hport, hfrozen, hleft, hlm⟩ := (s.took q).flapEntry_fields (s.tent 2 i)
  have hown := (hent i).trans (if_pos rfl)
  exact ⟨congrArg LrnSt.queue hlrn, hown ▸ hport, hown ▸ hfrozen, hown ▸ hleft, hown ▸ hlm,
    fun j hj => (hent j).trans (if_neg (Ne.symm hj)), hcnt, hraw⟩

theorem learnCommit_moves (hport : r.port < 32) (hp : adtPort (s.tent 2 i) ≠ r.port) (hst : adtStatic (s.tent 2 i) = false)
    (hf : adtFrozen (s.tent 2 i) = false) (hflap : s.isFlap (s.tent 2 i) = false) :
    Completes .learnCommit s fun t =>
      t.lrn.queue = q ∧ adtPort (t.tent 2 i) = r.port ∧ adtPrevPort (t.tent 2 i) = adtPort (s.tent 2 i) ∧ adtAge (t.tent 2 i) = s.tick ∧
      adtLastMove (t.tent 2 i) = s.now32 ∧ adtLmValid (t.tent 2 i) = true ∧ adtRemote (t.tent 2 i) = false ∧
      (∀ j, j ≠ i → t.tent 2 j = s.tent 2 j) ∧
      t.rd64 Reg.LRN_MOVED = (s.stat Reg.LRN_MOVED 1).rd64 Reg.LRN_MOVED ∧ regsBut [Reg.LRN_MOVED, Reg.LRN_MOVED + 4] s t := by
  refine ⟨_, h.exec_elsewhere hi hp, ?_⟩
  rw [if_neg (Bool.eq_false_iff.mp hst), if_neg (Bool.eq_false_iff.mp hf), if_neg (Bool.eq_false_iff.mp hflap)]
  obtain ⟨hqueue, hent, hregs⟩ := (s.took q).learnMove_moves i h.here
  obtain ⟨hto, hprev, hage, hmove, hlm, hremote⟩ := (s.took q).moveEntry_fields (s.tent 2 i) hport
  have hown := (hent i).trans (if_pos rfl)
  exact ⟨hqueue, hown ▸ hto, hown ▸ hprev, hown ▸ hage, hown ▸ hmove, hown ▸ hlm, hown ▸ hremote,
    fun j hj => (hent j).trans (if_neg (Ne.symm hj)), State.rd64_congr (State.rd_congr hregs _) (State.rd_congr hregs _),
    (regsBut_stat (s.took q) (by decide) (by decide) 1).trans (.of_regs hregs)⟩

end

theorem learnCommit_creates {p : List Nat} {e : BitVec 512} (h : Requested s r q) (hmac : r.mac < 2 ^ 48) (hvid : r.vid < 4096)
    (hi : s.adtFind (adtKey r.mac r.vid) = none) (hpath : s.adtPath (adtKey r.mac r.vid) = some p) (he : e = s.newEntry r) :
    Completes .learnCommit s fun t =>
      t.lrn.queue = q ∧ t.rd64 Reg.LRN_LEARNED = (s.stat Reg.LRN_LEARNED 1).rd64 Reg.LRN_LEARNED ∧
      (p.length = 1 → t.tent 2 (p.headD 0) = e ∧ (∀ j, j ≠ p.headD 0 → t.tent 2 j = s.tent 2 j) ∧ t.lrn.moves = []) ∧
      (2 ≤ p.length → t.tbl = s.tbl ∧ t.lrn.moves = placeWrites e p) := by
  subst he
  rw [← State.adtPath_took s q] at hpath
  refine ⟨(s.took q).learnCreate r, by rw [h.exec_eq, hi]; rfl, ?_⟩
  by_cases hp : p.length = 1
  · obtain ⟨i, rfl⟩ := List.length_eq_one_iff.mp hp
    obtain ⟨hregs, htbl, hqueue, hmoves⟩ := State.learnCreate_placed h.here hmac hvid (State.adtPlaceSlow_free hpath _)
    have hent := fun j => (State.tent_congr htbl 2 j).trans (State.tent_setTent (s.took q) 2 i j _)
    exact ⟨hqueue, State.rd64_congr (State.rd_congr hregs _) (State.rd_congr hregs _),
      fun _ => ⟨(hent i).trans (if_pos rfl), fun j hj => (hent j).trans (if_neg (Ne.symm hj)), hmoves.trans h.moves⟩,
      fun h2 => absurd h2 (by omega)⟩
  · obtain ⟨hregs, htbl, hqueue, hmoves⟩ := State.learnCreate_placed h.here hmac hvid (State.adtPlaceSlow_moves hpath hp _)
    exact ⟨hqueue, State.rd64_congr (State.rd_congr hregs _) (State.rd_congr hregs _), fun h1 => absurd h1 hp, fun _ => ⟨htbl, hmoves⟩⟩

end

/-! ### The relocation's writes -/

/-- What a write of the update engine makes of the table depends on the table alone. -/
theorem State.adtWrite_tbl {s t : State} (h : s.tbl = t.tbl) (w : AdtWrite) : (s.adtWrite w).tbl = (t.adtWrite w).tbl := by
  cases w <;> simp only [State.adtWrite, State.stat_tbl, State.setTent, State.tent, h]

theorem State.syncCapture_none {s : State} (h : s.twn.capture = none) : s.syncCapture = s := by
  unfold State.syncCapture
  rw [h]

/-- An idle tick makes the relocation's next write: no frame waits, and no transfer to a secondary is due. -/
theorem idle_relocates {s : State} {w : AdtWrite} {l : List AdtWrite} (hpend : s.pending = []) (hinj : s.inj = [])
    (hm : s.lrn.moves = w :: l) (hcap : s.twn.capture = none) :
    ∃ t, step s = .next t ∧ t.lrn.moves = l ∧ t.tbl = (s.adtWrite w).tbl := by
  have hnext : s.adtNext = { s with lrn := { s.lrn with moves := l } }.adtWrite w := by
    unfold State.adtNext
    rw [hm]
  have hwrite : Chg [.regs, .tbl] { s with lrn := { s.lrn with moves := l } } s.adtNext := hnext ▸ State.adtWrite_chg (.self _) (.refl _)
  have htick : Chg [.frcNs, .frcFrac] s.adtNext s.adtNext.frcTick := State.frcTick_chg (.self _) (.refl _)
  have hlrn : { s.lrn with moves := l } = s.adtNext.frcTick.lrn := (hwrite.same .lrn (by decide)).trans (htick.same .lrn (by decide))
  have htbl : s.adtNext.tbl = s.adtNext.frcTick.tbl := htick.same .tbl (by decide)
  have htwn : s.twn = s.adtNext.frcTick.twn := (hwrite.same .twn (by decide)).trans (htick.same .twn (by decide))
  have hinj' : s.inj = s.adtNext.frcTick.inj := (hwrite.same .inj (by decide)).trans (htick.same .inj (by decide))
  have hidle : s.idle = s.adtNext.frcTick := by
    unfold State.idle
    rw [State.syncCapture_none (htwn ▸ hcap), State.settle_nil (hinj'.symm.trans hinj)]
  refine ⟨s.idle, ?_, ?_, ?_⟩
  · unfold step
    rw [hpend]
  · rw [hidle, ← hlrn]
  · rw [hidle, ← htbl, hnext]
    refine State.adtWrite_tbl ?_ w
    rfl

end Sys2Proof.Machine
end
section
/-! The 10 ms pass over frozen entries (R86), the sweep of aged ones (R87), and the write of LRN_AGE. -/

namespace Sys2Proof.Machine

/-! ### FREEZE_TICK -/

/-- What the 10 ms pass leaves of an entry's freeze: a frozen entry counts down and is freed at 0. -/
def thawed (e : BitVec 512) : BitVec 512 :=
  if adtFrozen e then (if adtFreezeLeft e - 1 = 0 then setFld (setFld e 160 16 0) 4 1 0 else setFld e 160 16 (adtFreezeLeft e - 1)) else e

/-- What the 10 ms pass makes of an entry at time `now`: LM_VALID falls too, once the last move is 25.5 s old. -/
def freezeEntry (now : Nat) (e : BitVec 512) : BitVec 512 :=
  if adtLmValid (thawed e) ∧ 25500000 ≤ sext 32 (now + 2 ^ 32 - adtLastMove (thawed e)) then setFld (thawed e) 6 1 0 else thawed e

theorem State.freezeOne_eq (s : State) (i : Nat) : s.freezeOne i = s.setTent 2 i (freezeEntry s.now32 (s.tent 2 i)) := rfl

theorem thawed_free {e : BitVec 512} (h : adtFrozen e = false) : thawed e = e := if_neg (Bool.eq_false_iff.mp h)

theorem bit_zero {n : Nat} (i : Nat) : bit (0 : BitVec n) i = false := by simp [bit]

theorem freezeEntry_zero (now : Nat) : freezeEntry now 0 = 0 := by
  have hthawed : thawed 0 = 0 := thawed_free (bit_zero 4)
  have hlm : adtLmValid 0 = false := bit_zero 6
  unfold freezeEntry
  rw [hthawed, hlm, if_neg (by simp)]

theorem freezeEntry_keeps (now : Nat) (e : BitVec 512) : adtFrozen (freezeEntry now e) = adtFrozen (thawed e) ∧
    adtFreezeLeft (freezeEntry now e) = adtFreezeLeft (thawed e) ∧
    adtPort (freezeEntry now e) = adtPort (thawed e) ∧ adtAge (freezeEntry now e) = adtAge (thawed e) := by
  unfold freezeEntry
  split
  · unfold adtFrozen adtFreezeLeft adtPort adtAge
    simp (disch := decide) only [fld_setFld_ne, bit_setFld_ne, and_self]
  · exact ⟨rfl, rfl, rfl, rfl⟩

theorem thawed_keeps (e : BitVec 512) : adtPort (thawed e) = adtPort e ∧ adtAge (thawed e) = adtAge e := by
  unfold thawed
  split
  · unfold adtPort adtAge
    split <;> simp (disch := decide) only [fld_setFld_ne, and_self]
  · exact ⟨rfl, rfl⟩

theorem thawed_freed {e : BitVec 512} (h : adtFrozen e = true) (hn : adtFreezeLeft e ≤ 1) :
    adtFrozen (thawed e) = false ∧ adtFreezeLeft (thawed e) = 0 := by
  unfold thawed
  rw [if_pos h, if_pos (by omega)]
  unfold adtFrozen adtFreezeLeft
  simp (disch := decide) only [fld_setFld_ne, fld_setFld_same, bit_setFld_same]
  decide

theorem thawed_counts {e : BitVec 512} (h : adtFrozen e = true) (hn : 1 < adtFreezeLeft e) :
    adtFrozen (thawed e) = true ∧ adtFreezeLeft (thawed e) = adtFreezeLeft e - 1 := by
  have hlt : adtFreezeLeft e < 2 ^ 16 := fld_lt e 160 16
  unfold thawed
  rw [if_pos h, if_neg (by omega)]
  exact ⟨(bit_setFld_ne e _ (by decide) (by decide)).trans h, (fld_setFld_same e _ (by decide)).trans (Nat.mod_eq_of_lt (by omega))⟩

/-- What the 10 ms pass keeps of the state: every area but the tables, and of these the SRT and the ICT. -/
structure FreezeKeeps (s u : State) : Prop where
  areas : Chg [.tbl] s u
  srt : ∀ i, i < 65536 → u.tent 0 i = s.tent 0 i
  ict : ∀ i, i < 65536 → u.tent 1 i = s.tent 1 i

theorem FreezeKeeps.now {s u : State} (h : FreezeKeeps s u) : u.now32 = s.now32 := by
  unfold State.now32 State.now
  rw [show s.frcNs = u.frcNs from h.areas.same .frcNs (by decide)]

theorem freezeOne_entry (s : State) {i : Nat} (hi : i < 65536) : ChangesEntry (FreezeKeeps s) State.freezeOne (freezeEntry s.now32) i := by
  intro u hu
  rw [State.freezeOne_eq, hu.now]
  refine ⟨⟨State.setTent_chg (.self _) hu.areas, fun j hj => ?_, fun j hj => ?_⟩, fun j => ?_⟩
  · rw [State.tent_setTent_other u _ (by decide) hi hj, hu.srt j hj]
  · rw [State.tent_setTent_other u _ (by decide) hi hj, hu.ict j hj]
  · rw [State.tent_setTent]
    split
    · next h => rw [h]
    · rfl

theorem State.Inv.tbl_rising {s : State} (h : s.Inv) : Tab.rising 0 s.tbl = true := ((Tab.wf_iff _ _).mp h.tbl).1

theorem freezeTick_thaws {s : State} {i : Nat} (h : s.Inv) (hi : i < 65536) (hm : s.lrn.moves = []) :
    Completes .freezeTick s fun t =>
      (adtFrozen (s.tent 2 i) = true → adtFreezeLeft (s.tent 2 i) ≤ 1 → adtFrozen (t.tent 2 i) = false ∧ adtFreezeLeft (t.tent 2 i) = 0) ∧
      (adtFrozen (s.tent 2 i) = true → 1 < adtFreezeLeft (s.tent 2 i) →
        adtFrozen (t.tent 2 i) = true ∧ adtFreezeLeft (t.tent 2 i) = adtFreezeLeft (s.tent 2 i) - 1) ∧
      (adtFrozen (s.tent 2 i) = false → adtFrozen (t.tent 2 i) = false ∧ adtFreezeLeft (t.tent 2 i) = adtFreezeLeft (s.tent 2 i)) ∧
      adtPort (t.tent 2 i) = adtPort (s.tent 2 i) ∧ adtAge (t.tent 2 i) = adtAge (s.tent 2 i) ∧ t.tent 0 i = s.tent 0 i ∧
      t.tent 1 i = s.tent 1 i := by
  obtain ⟨hpass, hent⟩ := tent_pass h.tbl_rising ⟨.refl s, fun _ _ => rfl, fun _ _ => rfl⟩ (freezeEntry_zero s.now32)
    fun _ hi => freezeOne_entry s hi
  have hexec : exec .freezeTick s = .next (((s.tentries 2).map (fun x => x.1)).foldl State.freezeOne s) := by
    show Host.Outcome.next s.freezeTick = _
    unfold State.freezeTick
    rw [State.adtFinish_none hm]
  refine ⟨_, hexec, ?_⟩
  obtain ⟨hfrozen, hleft, hport, hage⟩ := freezeEntry_keeps s.now32 (s.tent 2 i)
  obtain ⟨hport', hage'⟩ := thawed_keeps (s.tent 2 i)
  rw [hent i hi, hfrozen, hleft]
  exact ⟨thawed_freed, thawed_counts, fun hf => by rw [thawed_free hf]; exact ⟨hf, rfl⟩, hport.trans hport', hage.trans hage',
    hpass.srt i hi, hpass.ict i hi⟩

/-! ### AGE_TICK -/

/-- What the sweep at LRN_TICK = `tick` leaves of an entry: nothing of a dynamic one whose age has reached `limit`. -/
def sweptEntry (tick limit : Nat) (e : BitVec 512) : BitVec 512 :=
  if adtValid e && !adtStatic e && decide (limit ≤ (tick + 4096 - adtAge e) % 4096) then 0 else e

theorem sweptEntry_zero (tick limit : Nat) : sweptEntry tick limit 0 = 0 := ite_self 0

theorem State.noteWithdraw_regs (s : State) (e : BitVec 512) : (s.noteWithdraw e).regs = s.regs :=
  ((State.noteWithdraw_chg (.self [.lrn]) (.refl s)).same .regs (by decide)).symm

theorem State.noteWithdraw_tbl (s : State) (e : BitVec 512) : (s.noteWithdraw e).tbl = s.tbl :=
  ((State.noteWithdraw_chg (.self [.lrn]) (.refl s)).same .tbl (by decide)).symm

theorem regsBut.rf {ks : List Nat} {s t : State} (h : regsBut ks s t) {k : Nat} (hk : k ∉ ks) (ho : k < 0x4000 ∨ 0x5000 ≤ k) (lo len : Nat) :
    t.rf k lo len = s.rf k lo len := by
  unfold State.rf
  rw [h k hk ho]

/-- The sweep counts what it prunes, and changes no other register: LRN_TICK and LRN_AGE stay as they are. -/
theorem pruneOne_entry (s : State) (i : Nat) :
    ChangesEntry (regsBut [Reg.LRN_PRUNED, Reg.LRN_PRUNED + 4] s) State.pruneOne (sweptEntry s.tick (s.rf Reg.LRN_AGE 8 12)) i := by
  intro u hu
  have htick : u.tick = s.tick := hu.rf (by decide) (.inr (by decide)) 0 12
  have hage : u.rf Reg.LRN_AGE 8 12 = s.rf Reg.LRN_AGE 8 12 := hu.rf (by decide) (.inr (by decide)) 8 12
  unfold State.pruneOne sweptEntry
  extract_lets e
  rw [htick, hage]
  split
  · next hold =>
    refine ⟨?_, fun j => ?_⟩
    · exact (hu.trans (.of_regs (u.noteWithdraw_regs e))).trans (regsBut_stat ((u.noteWithdraw e).setTent 2 i 0) (by decide) (by decide) 1)
    · rw [State.tent_congr (State.stat_tbl ..), State.tent_setTent, State.tent_congr (u.noteWithdraw_tbl e)]
      split
      · next hij => rw [← hij, if_pos hold]
      · rfl
  · next hold =>
    refine ⟨hu, fun j => ?_⟩
    split
    · next hij => rw [← hij, if_neg hold]
    · rfl

/-- LRN_TICK has advanced, and the next advance is due a period later. -/
def State.advanced (s : State) : State :=
  let u := s.wf Reg.LRN_TICK 0 12 (s.tick + 1)
  { u with lrn := { u.lrn with lastAdv := u.now, nextAdv := u.now + u.rf Reg.LRN_AGE 0 8 * 1000000000 } }

theorem State.ageAdvance_eq {s : State} (h : s.lrn.moves = []) :
    s.ageAdvance = ((s.advanced.tentries 2).map (fun x => x.1)).foldl State.pruneOne s.advanced := by
  unfold State.ageAdvance
  rw [State.adtFinish_none h]
  rfl

theorem ageTick_sweeps {s : State} (h : s.Inv) (hon : s.rf Reg.LRN_AGE 0 8 ≠ 0) (hm : s.lrn.moves = []) :
    Completes .ageTick s fun t =>
      t.tick = (s.tick + 1) % 4096 ∧
      (∀ i, i < 65536 → t.tent 2 i =
        if adtValid (s.tent 2 i) && !adtStatic (s.tent 2 i) && decide (s.rf Reg.LRN_AGE 8 12 ≤ (t.tick + 4096 - adtAge (s.tent 2 i)) % 4096)
        then 0 else s.tent 2 i) ∧
      regsBut [Reg.LRN_TICK, Reg.LRN_PRUNED, Reg.LRN_PRUNED + 4] s t := by
  have hexec : exec .ageTick s = .next (((s.advanced.tentries 2).map (fun x => x.1)).foldl State.pruneOne s.advanced) := by
    show Host.Outcome.next s.ageTick = _
    unfold State.ageTick
    rw [if_neg hon, State.ageAdvance_eq hm]
  have hadv : regsBut [Reg.LRN_TICK] s s.advanced := regsBut_wf s (by decide) 0 12 _
  have htick : s.advanced.tick = (s.tick + 1) % 4096 := State.rf_wf_same s Reg.LRN_TICK (s.tick + 1) (by decide)
  have hlimit : s.advanced.rf Reg.LRN_AGE 8 12 = s.rf Reg.LRN_AGE 8 12 :=
    hadv.rf (by decide) (.inr (by decide)) 8 12
  obtain ⟨hregs, hent⟩ := tent_pass (s := s.advanced) h.tbl_rising (.of_regs rfl) (sweptEntry_zero _ _)
    fun i _ => pruneOne_entry s.advanced i
  have hkept : State.tick _ = s.advanced.tick := hregs.rf (by decide) (.inr (by decide)) 0 12
  refine ⟨_, hexec, hkept.trans htick, fun i hi => ?_, (hadv.mono ?_).trans (hregs.mono ?_)⟩
  · show _ = sweptEntry (State.tick _) (s.rf Reg.LRN_AGE 8 12) (s.tent 2 i)
    rw [hent i hi, hkept, hlimit]
    rfl
  · exact fun k hk => List.mem_of_mem_take (i := 1) hk
  · exact fun k hk => List.mem_cons_of_mem _ hk

/-! ### The write of LRN_AGE -/

/-- A field under a mask of low ones is stored as it was written. -/
theorem fld_masked (old v : Word) {n lo len : Nat} (h : lo + len ≤ n) (hn : n ≤ 32) :
    fld ((old &&& ~~~(wd (2 ^ n - 1))) ||| (v &&& wd (2 ^ n - 1))) lo len = fld v lo len := by
  apply Nat.eq_of_testBit_eq
  intro j
  unfold fld wd
  rw [Nat.testBit_mod_two_pow, Nat.testBit_mod_two_pow, Nat.testBit_shiftRight, Nat.testBit_shiftRight, BitVec.testBit_toNat,
    BitVec.testBit_toNat]
  by_cases hj : j < len
  · have hmask : (BitVec.ofNat 32 (2 ^ n - 1)).getLsbD (lo + j) = true := by
      rw [BitVec.getLsbD_ofNat, Nat.testBit_two_pow_sub_one, decide_eq_true (show lo + j < n by omega),
        decide_eq_true (show lo + j < 32 by omega)]
      rfl
    rw [BitVec.getLsbD_or, BitVec.getLsbD_and, BitVec.getLsbD_and, BitVec.getLsbD_not, hmask]
    simp
  · rw [decide_eq_false hj, Bool.false_and, Bool.false_and]

/-- The word that a write of `v` leaves in LRN_AGE: 20 writable bits, LIMIT at least 1. -/
def ageWord (old v : Word) : Word :=
  Limit.apply ⟨8, 12, 1, 4095, false⟩ ((old &&& ~~~(wd (2 ^ 20 - 1))) ||| (v &&& wd (2 ^ 20 - 1)))

theorem ageWord_fields (old v : Word) : fld (ageWord old v) 0 8 = fld v 0 8 ∧ fld (ageWord old v) 8 12 = max 1 (fld v 8 12) := by
  have hlt : fld v 8 12 < 2 ^ 12 := fld_lt v 8 12
  have hclamp : clampN 1 4095 (fld v 8 12) % 2 ^ 12 = max 1 (fld v 8 12) := by
    unfold clampN
    rw [if_neg (show ¬4095 < fld v 8 12 by omega)]
    split <;> omega
  unfold ageWord Limit.apply
  rw [if_neg (by decide), fld_setFld_ne _ _ (by decide) (by decide), fld_setFld_same _ _ (by decide), fld_masked _ _ (by decide) (by decide),
    fld_masked _ _ (by decide) (by decide)]
  exact ⟨rfl, hclamp⟩

theorem State.plainWrite_age (s : State) (m : Nat) (v : Word) :
    s.plainWrite m Reg.LRN_AGE v = s.wr Reg.LRN_AGE (ageWord (s.rd Reg.LRN_AGE) v) := by
  have hreg : findReg .lrn (Reg.LRN_AGE % 0x1000) =
      some (⟨0x80, 1, 0x0, .rwl, 0x12C01, 0xFFFFF, false, [⟨8, 12, 1, 4095, false⟩], none⟩, 0) := rfl
  exact State.plainWrite_eq (show pageOf (Reg.LRN_AGE / 0x1000) = some (.lrn, 0) from rfl) hreg s m v

/-- The state once a write of LRN_AGE has stored its value. -/
def State.ageStored (s : State) (m : Nat) (v : Word) : State := (s.noted m Reg.LRN_AGE).plainWrite m Reg.LRN_AGE v

theorem State.ageStored_stores (s : State) (m : Nat) (v : Word) :
    (s.ageStored m v).rf Reg.LRN_AGE 0 8 = fld v 0 8 ∧ (s.ageStored m v).rf Reg.LRN_AGE 8 12 = max 1 (fld v 8 12) ∧
    (s.ageStored m v).tbl = s.tbl ∧ (s.ageStored m v).lrn = s.lrn ∧ regsBut [Reg.LRN_AGE] s (s.ageStored m v) := by
  obtain ⟨htick, hlimit⟩ := ageWord_fields ((s.noted m Reg.LRN_AGE).rd Reg.LRN_AGE) v
  unfold State.ageStored
  rw [State.plainWrite_age, State.rf_wr, if_pos rfl, State.rf_wr, if_pos rfl]
  exact ⟨htick, hlimit, State.noted_tbl .., State.noted_lrn .., (regsBut_noted _ s m _).trans (regsBut_wr _ (by decide) _)⟩

theorem exec_lrnAgeWrite {m : Nat} {v : Word} {s : State} (h : s.admits m Reg.LRN_AGE = true) :
    exec (.lrnAgeWrite m v) s = .next ((s.noted m Reg.LRN_AGE).lrnAgeWrite m v) :=
  congrArg Host.Outcome.next (State.access_ok h fun u => u.lrnAgeWrite m v)

/-- The noted write does not change the period. -/
theorem State.agePeriod_noted (s : State) (m : Nat) : (s.noted m Reg.LRN_AGE).rf Reg.LRN_AGE 0 8 = s.rf Reg.LRN_AGE 0 8 :=
  State.rf_noted _ _ _ _ _ (.inr (by decide))

/-- Without a period, or with the one it had, the write only stores. -/
theorem lrnAgeWrite_stores {m : Nat} {v : Word} {s : State} (h : s.admits m Reg.LRN_AGE = true)
    (hv : fld v 0 8 = 0 ∨ fld v 0 8 = s.rf Reg.LRN_AGE 0 8) :
    Completes (.lrnAgeWrite m v) s fun t =>
      t.rf Reg.LRN_AGE 0 8 = fld v 0 8 ∧ t.rf Reg.LRN_AGE 8 12 = max 1 (fld v 8 12) ∧ t.tbl = s.tbl ∧ t.lrn = s.lrn ∧
      regsBut [Reg.LRN_AGE] s t := by
  have hstored := s.ageStored_stores m v
  rw [← hstored.1, ← s.agePeriod_noted m] at hv
  have hwrite : (s.noted m Reg.LRN_AGE).lrnAgeWrite m v = s.ageStored m v := if_pos hv
  exact ⟨s.ageStored m v, hwrite ▸ exec_lrnAgeWrite h, hstored⟩

/-- From TICK = 0 on, the write starts the period anew. -/
theorem lrnAgeWrite_starts {m : Nat} {v : Word} {s : State} (h : s.admits m Reg.LRN_AGE = true) (hv : fld v 0 8 ≠ 0)
    (hoff : s.rf Reg.LRN_AGE 0 8 = 0) :
    Completes (.lrnAgeWrite m v) s fun t =>
      t.rf Reg.LRN_AGE 0 8 = fld v 0 8 ∧ t.rf Reg.LRN_AGE 8 12 = max 1 (fld v 8 12) ∧ t.tbl = s.tbl ∧ t.lrn.lastAdv = s.now ∧
      t.lrn.nextAdv = s.now + fld v 0 8 * 1000000000 ∧ regsBut [Reg.LRN_AGE] s t := by
  obtain ⟨htick, hlimit, htbl, hlrn, hbut⟩ := s.ageStored_stores m v
  have hnow : (s.ageStored m v).now = s.now := by
    unfold State.ageStored State.now
    rw [State.plainWrite_age, State.wr_frcNs, State.noted_frcNs]
  refine ⟨_, exec_lrnAgeWrite h, ?_⟩
  unfold State.lrnAgeWrite
  extract_lets was u n
  have hn : n = fld v 0 8 := htick
  have hwas : was = 0 := (s.agePeriod_noted m).trans hoff
  rw [if_neg (by omega), if_pos hwas]
  refine ⟨htick, hlimit, htbl, hnow, ?_, hbut⟩
  show (s.ageStored m v).now + n * 1000000000 = _
  rw [hnow, hn]

end Sys2Proof.Machine

open Sys2Proof Sys2Proof.Machine

/-- Settles O18: LEARN_COMMIT by the entry of the request's address, and the two passes, each of which changes every entry once. -/
theorem addressesAreLearnedAndAge : Obligations.AddressesAreLearnedAndAge := by
  unfold Obligations.AddressesAreLearnedAndAge
  refine ⟨⟨?_, ?_, ?_, ?_⟩, fun s i h hi hm => freezeTick_thaws h hi hm, fun s h hon hm => ageTick_sweeps h hon hm, ?_,
    fun m v s h hv => lrnAgeWrite_stores h hv, fun m v s h hv hoff => lrnAgeWrite_starts h hv hoff⟩
  · intro s r q i hq hm hw ho hport hi
    have h : Requested s r q := ⟨hq, hm, hw, ho⟩
    exact ⟨fun hp hr => learnCommit_refreshes_one h hi hp hr, fun hp hst => learnCommit_static h hi hp hst,
      fun hp hst hf => learnCommit_frozen h hi hp hst hf, fun hp hst hf =>
        ⟨fun hflap => learnCommit_flap h hi hp hst hf hflap, fun hflap => learnCommit_moves h hi hport hp hst hf hflap⟩⟩
  · intro s r q i j hq hm hw ho _ hi hp hr hj hv hk
    exact learnCommit_refreshes_both ⟨hq, hm, hw, ho⟩ hi hp hr hj hv hk
  · intro s r q p e hq hm hw ho _ hmac hvid hi hpath he
    exact learnCommit_creates ⟨hq, hm, hw, ho⟩ hmac hvid hi hpath he
  · intro s w l hpend hinj hm hcap
    exact idle_relocates hpend hinj hm hcap
  · intro s hoff
    exact ⟨s.ageTick, rfl, if_pos hoff⟩

end
section
/-! EGRESS_SELECT (R138, R150): a queue whose head copy is of another class than the queue's. Whether the frame sent is preemptable follows
from the copy's own class, not from that of the queue it is taken from. -/

namespace Sys2Proof.Machine.StrayClass

/-- A copy of class 0 for port 4 that stands in the queue of the port's class 2. -/
def copy : Copy := ⟨4, 0, 34, false, .queued, noRing, none⟩

/-- A good bus frame with that copy alone. -/
def frame : Frame :=
  ⟨3, true, [], 0, none, ⟨16, 0, none, none, none, none, false, false, 0, 63, false⟩, 1, 0, [0], 0, [copy], false, false, 0, false, none,
    true, none, none, false, none, none⟩

/-- After reset, port 4 up with preemption active, its class 2 alone preemptable. -/
def linkUp : State :=
  ((State.reset.setEport 4 { Ept.reset with link := 3 }).wf (Reg.EGS_PORT_STAT 4) 4 1 1).wf (Reg.EGS_TC_CFG 4 2) 3 1 1

/-- Frame 9's copy stands alone in the port's queues. -/
def before : State := (linkUp.setFrame 9 (some frame)).setQueue 34 [(9, 0)]

/-- What EGRESS_SELECT makes of it. -/
def after : State := (before.egressSelect 4 0).settle

theorem exec_before : exec (.egressSelect 4 0) before = .next after := rfl

/-- The copy leaves as an express frame, as its class 0 is. -/
theorem sent_express : (after.eg 4).tx.map Tx.pre = some false := by decide +kernel

/-- Class 2, from whose queue it was taken, is preemptable. -/
theorem queue_preemptable : before.express 4 2 = false := by decide +kernel

end Sys2Proof.Machine.StrayClass

open Sys2Proof Sys2Proof.Machine

/-- Refutes O22: its first clause leaves the head copy's class free. A copy of the express class 0 at the head of the queue of the
preemptable class 2 is sent as an express frame, where the clause says preemptable. -/
theorem not_egressSelectsSendsAndPreempts : ¬ Obligations.EgressSelectsSendsAndPreempts := by
  unfold Obligations.EgressSelectsSendsAndPreempts
  rintro ⟨select, -⟩
  have hothers : ∀ j, j < 8 → j ≠ 2 → StrayClass.before.queue (8 * 4 + j) = [] := by decide +kernel
  have hfits : StrayClass.before.fits 4 2 (if StrayClass.before.express 4 2
      then StrayClass.before.copyLen StrayClass.frame StrayClass.copy + 20 else StrayClass.before.minFrag 4 + 20) = true := by decide +kernel
  obtain ⟨t, hexec, -, htx, -⟩ := select 4 2 StrayClass.before 9 0 StrayClass.frame StrayClass.copy [] (by decide) (by decide) rfl rfl rfl rfl
    rfl rfl rfl rfl hothers rfl rfl rfl rfl rfl hfits rfl rfl (.inl rfl)
  rw [StrayClass.exec_before, Host.Outcome.next.injEq] at hexec
  have hpre := StrayClass.sent_express
  rw [hexec, htx, StrayClass.queue_preemptable] at hpre
  cases hpre

end
section
/-! The Rake's audits (R113-R118). -/

namespace Sys2Proof.Machine

/-- A counter of 64 bits that a run of operations leaves alone. -/
theorem regsBut.rd64 {ks : List Nat} {s t : State} (h : regsBut ks s t) {a : Nat} (ha : a ∉ ks) (ha4 : a + 4 ∉ ks) (ho : 0x5000 ≤ a) :
    t.rd64 a = s.rd64 a :=
  State.rd64_congr (h _ ha (.inr ho)) (h _ ha4 (.inr (by omega)))

/-! ### An audit is due -/

theorem rakeAuditStart_begins {s : State} (hen : s.rb Reg.RAK_CFG 0 = true) (hoff : s.bsn.auditOn = false) :
    Completes .rakeAuditStart s fun t =>
      t.bsn = { s.bsn with auditOn := true, auditDue := false, auditStart := s.now, moved := [] } ∧ t.regs = s.regs := by
  refine ⟨s.auditDue, rfl, ?_⟩
  unfold State.auditDue
  rw [if_neg (by simp [hen]), if_neg (by simp [hoff])]
  exact ⟨rfl, rfl⟩

theorem rakeAuditStart_overruns {s : State} (hen : s.rb Reg.RAK_CFG 0 = true) (hon : s.bsn.auditOn = true) :
    Completes .rakeAuditStart s fun t =>
      t.bsn = { s.bsn with auditDue := true } ∧ t.rb (Reg.INT_RAW (pageBase .rak 0)) Irq.RAK_OVERRUN = true ∧
      regsBut [Reg.INT_RAW (pageBase .rak 0)] s t := by
  refine ⟨s.auditDue, rfl, ?_⟩
  unfold State.auditDue
  rw [if_neg (by simp [hen]), if_pos hon]
  exact ⟨State.raise_bsn .., State.rb_raise _ _ _ (by decide),
    (regsBut.of_regs rfl).trans (regsBut_raiseAt { s with bsn := { s.bsn with auditDue := true } } List.mem_cons_self _)⟩

/-! ### A suspect is reclaimed -/

/-- The registers that reclaiming a cell writes. -/
def reclaimRegs : List Nat := [Reg.RAK_RECLAIMED, Reg.RAK_RECLAIMED + 4, Reg.INT_RAW (pageBase .rak 0), Reg.RAK_LAST_CELL]

/-- The state of a reclaimed cell before the log's request, which writes no register. -/
def State.reclaimNoted (s : State) (c : Nat) : State :=
  ((s.stat Reg.RAK_RECLAIMED 1).raise .rak 0 Irq.RAK_RECLAIM).wr Reg.RAK_LAST_CELL (wd c)

theorem State.rakeReclaim_regs (s : State) (c : Nat) : (s.rakeReclaim c).regs = (s.reclaimNoted c).regs := State.logEvt_regs ..

theorem State.rakeReclaim_bsn (s : State) (c : Nat) : (s.rakeReclaim c).bsn = s.bsn := by
  unfold State.rakeReclaim
  rw [State.logEvt_bsn, State.wr_bsn, State.raise_bsn, State.stat_bsn]

theorem State.rakeReclaim_records (s : State) (c : Nat) :
    (s.rakeReclaim c).rd Reg.RAK_LAST_CELL = wd c ∧
    (s.rakeReclaim c).rd64 Reg.RAK_RECLAIMED = (s.stat Reg.RAK_RECLAIMED 1).rd64 Reg.RAK_RECLAIMED ∧
    (s.rakeReclaim c).rb (Reg.INT_RAW (pageBase .rak 0)) Irq.RAK_RECLAIM = true ∧ regsBut reclaimRegs s (s.rakeReclaim c) := by
  have hregs := s.rakeReclaim_regs c
  have hraise : regsBut [Reg.INT_RAW (pageBase .rak 0)] (s.stat Reg.RAK_RECLAIMED 1)
    ((s.stat Reg.RAK_RECLAIMED 1).raise .rak 0 Irq.RAK_RECLAIM) := regsBut_raiseAt _ List.mem_cons_self _
  have hcell : regsBut [Reg.RAK_LAST_CELL] ((s.stat Reg.RAK_RECLAIMED 1).raise .rak 0 Irq.RAK_RECLAIM) (s.rakeReclaim c) :=
    (regsBut_wr _ List.mem_cons_self (wd c)).trans (.of_regs hregs)
  refine ⟨?_, ?_, ?_, ?_⟩
  · rw [State.rd_congr hregs]
    exact State.rd_wr_same ..
  · rw [hcell.rd64 (by decide) (by decide) (by decide), hraise.rd64 (by decide) (by decide) (by decide)]
  · unfold State.rb
    rw [hcell _ (by decide) (.inr (by decide))]
    exact State.rb_raise _ _ _ (by decide)
  · exact ((regsBut_stat s (by decide) (by decide) 1).trans (hraise.mono (by decide))).trans (hcell.mono (by decide))

/-! ### The end of an audit -/

/-- The end of an audit that leaves no cell unreachable: it is counted, and `left` are the suspects. -/
def State.audited (s : State) (left : List Nat) : State :=
  { s.stat Reg.RAK_AUDITS 1 with bsn := { s.bsn with
    auditOn := false
    auditDue := false
    moved := []
    suspects := left
    lost := []
    lastDur := min ((s.now - s.bsn.auditStart) / 1000) 0xFFFF } }

theorem State.audited_counts (s : State) (left : List Nat) :
    (s.audited left).rd64 Reg.RAK_AUDITS = (s.stat Reg.RAK_AUDITS 1).rd64 Reg.RAK_AUDITS ∧
    regsBut [Reg.RAK_AUDITS, Reg.RAK_AUDITS + 4] s (s.audited left) := by
  have hregs : (s.audited left).regs = (s.stat Reg.RAK_AUDITS 1).regs := rfl
  exact ⟨State.rd64_congr (State.rd_congr hregs _) (State.rd_congr hregs _),
    (regsBut_stat s (by decide) (by decide) 1).trans (.of_regs hregs)⟩

/-- The cell that an audit has found alone is a suspect when no frame holds it and it has not moved. -/
theorem found_one {l used moved : List Nat} {c : Nat} (h : l = [c]) (hc : c < 49152) (hused : used.contains c = false)
    (hmoved : moved.contains c = false) :
    (l ++ []).eraseDups.filter (fun c => decide (c < 49152) && !used.contains c && !moved.contains c) = [c] := by
  subst h
  refine List.filter_cons_of_pos ?_
  rw [decide_eq_true hc, hused, hmoved]
  rfl

section

variable {s : State} {c : Nat} {u b : List Nat}

/-- The one cell that an audit has found, which no frame holds and which has not moved, is a suspect, or reclaimed if it was one. -/
theorem State.auditDone_one (h : u ++ s.bsn.lost = [c]) (hon : s.bsn.auditOn = true) (hdue : s.bsn.auditDue = false) (hc : c < 49152)
    (hfree : ∀ f, f ∈ s.stored → f.cells.contains c = false) (hmoved : s.bsn.moved.contains c = false) :
    s.auditDone u [] false b = if s.bsn.suspects.contains c then (s.rakeReclaim c).audited [] else s.audited [c] := by
  have hlost : s.bsn.lost.filter (fun x => !([c].contains x)) = [] := by
    rw [List.filter_eq_nil_iff]
    intro x hx
    have hx : x ∈ [c] := h ▸ List.mem_append_right u hx
    simp [List.mem_singleton.mp hx]
  have hused : (s.stored.flatMap fun f => f.cells).contains c = false := by
    rw [List.contains_eq_mem, decide_eq_false_iff_not, List.mem_flatMap]
    rintro ⟨f, hf, hmem⟩
    rw [← List.contains_iff_mem, hfree f hf] at hmem
    cases hmem
  have hfound := found_one h hc hused hmoved
  unfold State.auditDone
  rw [if_neg (by simp [hon])]
  simp only [List.foldl_nil, Bool.false_eq_true, if_false, hfound]
  by_cases hs : s.bsn.suspects.contains c = true
  · have hback : [c].filter (fun c => s.bsn.suspects.contains c) = [c] := List.filter_cons_of_pos hs
    have hleft : [c].filter (fun x => !([c].contains x)) = [] := by simp
    rw [if_pos hs]
    simp only [hback, List.foldl_cons, List.foldl_nil, State.stat_bsn, State.rakeReclaim_bsn, hdue, hlost, hleft, Bool.false_eq_true, if_false,
      State.audited]
    rfl
  · have hback : [c].filter (fun c => s.bsn.suspects.contains c) = [] := List.filter_cons_of_neg hs
    rw [if_neg hs]
    simp only [hback, List.foldl_nil, State.stat_bsn, hdue, hlost, Bool.false_eq_true, if_false]
    rfl

theorem rakeAuditDone_finds (h : u ++ s.bsn.lost = [c]) (hon : s.bsn.auditOn = true) (hdue : s.bsn.auditDue = false) (hc : c < 49152)
    (hfree : ∀ f, f ∈ s.stored → f.cells.contains c = false) (hmoved : s.bsn.moved.contains c = false) :
    Completes (.rakeAuditDone u [] false b) s fun t =>
      t.bsn.auditOn = false ∧ t.bsn.moved = [] ∧ t.bsn.lost = [] ∧ t.bsn.frames = s.bsn.frames ∧
      t.rd64 Reg.RAK_AUDITS = (s.stat Reg.RAK_AUDITS 1).rd64 Reg.RAK_AUDITS ∧
      (s.bsn.suspects.contains c = false → t.bsn.suspects = [c] ∧ t.rd64 Reg.RAK_RECLAIMED = s.rd64 Reg.RAK_RECLAIMED) ∧
      (s.bsn.suspects.contains c = true → t.bsn.suspects = [] ∧ t.rd Reg.RAK_LAST_CELL = wd c ∧
        t.rd64 Reg.RAK_RECLAIMED = (s.stat Reg.RAK_RECLAIMED 1).rd64 Reg.RAK_RECLAIMED ∧
        t.rb (Reg.INT_RAW (pageBase .rak 0)) Irq.RAK_RECLAIM = true) := by
  refine ⟨s.auditDone u [] false b, rfl, ?_⟩
  rw [State.auditDone_one h hon hdue hc hfree hmoved]
  by_cases hs : s.bsn.suspects.contains c = true
  · obtain ⟨hcell, hreclaimed, hraised, hrest⟩ := s.rakeReclaim_records c
    obtain ⟨hcount, hkept⟩ := (s.rakeReclaim c).audited_counts []
    rw [if_pos hs]
    refine ⟨rfl, rfl, rfl, (congrArg BasinSt.frames (s.rakeReclaim_bsn c) :), ?_, fun hn => ?_, fun _ => ⟨rfl, ?_, ?_, ?_⟩⟩
    · rw [hcount, State.rd64_stat_congr (hrest.rd64 (by decide) (by decide) (by decide))]
    · rw [hs] at hn
      cases hn
    · rw [hkept _ (by decide) (.inr (by decide)), hcell]
    · rw [hkept.rd64 (by decide) (by decide) (by decide), hreclaimed]
    · unfold State.rb at hraised ⊢
      rw [hkept _ (by decide) (.inr (by decide)), hraised]
  · obtain ⟨hcount, hkept⟩ := s.audited_counts [c]
    rw [if_neg hs]
    exact ⟨rfl, rfl, rfl, rfl, hcount, fun _ => ⟨rfl, hkept.rd64 (by decide) (by decide) (by decide)⟩, fun h => absurd h hs⟩

end

end Sys2Proof.Machine
end
section
/-! The settings of the Basin and the Eddy (R105, R119): the queues' reservations, which a noted write does not change, and the words that
the two writes store. -/

namespace Sys2Proof.Machine

/-! ### What a table's other keys list -/

section

variable {V W : Type} {f : Nat × V → Option W} {k : Nat}

theorem Tab.filterMap_put (hk : ∀ v, f (k, v) = none) (x : V) : ∀ t : Tab V, (Tab.put t k x).filterMap f = t.filterMap f
  | [] => by
    unfold Tab.put
    rw [List.filterMap_cons_none (hk x)]
  | (a, v) :: t => by
    unfold Tab.put
    split
    · next h => rw [List.filterMap_cons_none (hk x), List.filterMap_cons_none (h ▸ hk v)]
    · split
      · rw [List.filterMap_cons_none (hk x)]
      · rw [List.filterMap_cons, List.filterMap_cons, Tab.filterMap_put hk x t]

theorem Tab.filterMap_erase (hk : ∀ v, f (k, v) = none) : ∀ t : Tab V, (Tab.erase t k).filterMap f = t.filterMap f
  | [] => rfl
  | (a, v) :: t => by
    unfold Tab.erase
    split
    · next h => rw [List.filterMap_cons_none (h ▸ hk v), Tab.filterMap_erase hk t]
    · rw [List.filterMap_cons, List.filterMap_cons, Tab.filterMap_erase hk t]

/-- A list of the pairs of some keys does not change with a write of another key. -/
theorem Tab.filterMap_set [DecidableEq V] (hk : ∀ v, f (k, v) = none) (d : Nat → V) (t : Tab V) (x : V) :
    (Tab.set d t k x).filterMap f = t.filterMap f := by
  rw [Tab.set_eq]
  split
  · exact Tab.filterMap_erase hk t
  · exact Tab.filterMap_put hk x t

end

/-! ### Reservations -/

theorem State.setQueues_congr {s t : State} (h : s.regs = t.regs) : s.setQueues = t.setQueues := by
  unfold State.setQueues
  rw [h]

theorem State.setQueues_wr (s : State) {a : Nat} (ha : a < 0x20100 ∨ 0x204C0 ≤ a) (v : Word) : (s.wr a v).setQueues = s.setQueues :=
  Tab.filterMap_set (fun _ => if_neg (by omega)) _ _ _

theorem State.setQueues_raiseAt (s : State) {base : Nat} (hb : Reg.INT_RAW base < 0x20100) (i : Nat) :
    (s.raiseAt base i).setQueues = s.setQueues :=
  (State.setQueues_congr (State.msixEval_regs _ _)).trans (s.setQueues_wr (.inl hb) _)

/-- The performance counters' registers lie below the queues'. -/
theorem State.setQueues_perfAdd (s : State) (n : Nat) {i : Nat} (hi : i < 64) : (s.perfAdd n i).setQueues = s.setQueues := by
  have hlo : Reg.PFC_CNT_LO i < 0x20100 := by unfold Reg.PFC_CNT_LO; omega
  have hhi : Reg.PFC_CNT_HI i < 0x20100 := by unfold Reg.PFC_CNT_HI; omega
  unfold State.perfAdd
  extract_lets v s1 s2 s3
  have h2 : s2.setQueues = s.setQueues := (s1.setQueues_wr (.inl hhi) _).trans (s.setQueues_wr (.inl hlo) _)
  have h3 : s3.setQueues = s.setQueues := (s2.setQueues_wr (.inl hhi) _).trans h2
  split
  · exact h2
  · split
    · exact (s3.setQueues_raiseAt (by decide) _).trans h3
    · exact h3

theorem State.setQueues_perf (s : State) (code n : Nat) (m a : Option Nat) : (s.perf code n m a).setQueues = s.setQueues := by
  have hfold : ∀ (l : List Nat) (t : State), (∀ i ∈ l, i < 64) → (l.foldl (fun s i => s.perfAdd n i) t).setQueues = t.setQueues := by
    intro l
    induction l with
    | nil => exact fun t _ => rfl
    | cons i l ih =>
      intro t hl
      rw [List.foldl_cons, ih _ fun j hj => hl j (List.mem_cons_of_mem _ hj), State.setQueues_perfAdd _ _ (hl i List.mem_cons_self)]
  unfold State.perf
  split
  · rfl
  · exact hfold _ s fun i hi => s.perfList_lt i (List.mem_filter.mp hi).1

theorem State.setQueues_noted (s : State) (m a : Nat) : (s.noted m a).setQueues = s.setQueues := by
  unfold State.noted
  rw [State.setQueues_perf, State.setQueues_congr (State.touch_regs _ _ _)]

theorem State.reserved_noted (s : State) (m a q : Nat) : (s.noted m a).reserved q = s.reserved q :=
  State.rf_noted _ _ _ _ _ (.inr (by unfold Reg.BSN_QCFG; omega))

theorem State.rsvSum_noted (s : State) (m a : Nat) : (s.noted m a).rsvSum = s.rsvSum := by
  unfold State.rsvSum
  rw [State.setQueues_noted]
  exact congrArg sumN (List.map_congr_left fun q _ => s.reserved_noted m a q)

theorem State.headroom_noted (s : State) (m a : Nat) : (s.noted m a).headroom = s.headroom := State.rf_noted _ _ _ _ _ (.inr (by decide))

/-! ### The write of BSN_QCFG -/

/-- BSN_QCFG is a whole word for each of 240 queues. -/
theorem qcfg_reg : ∀ q, q < 240 → findReg .bsn (Reg.BSN_QCFG q % 0x1000) = some (⟨0x100, 240, 0x4, .rwl, 0x1000, 0xFFFFFFFF, false, [], none⟩, q) := by
  decide +kernel

theorem State.plainWrite_qcfg {q : Nat} (hq : q < 240) (s : State) (m : Nat) (v : Word) :
    s.plainWrite m (Reg.BSN_QCFG q) v = s.wr (Reg.BSN_QCFG q) v := by
  have hpage : Reg.BSN_QCFG q / 0x1000 = 0x20 := by unfold Reg.BSN_QCFG; omega
  rw [State.plainWrite_eq (b := .bsn) (i := 0) (hpage ▸ rfl) (qcfg_reg q hq), RegDesc.store_all rfl rfl]
  rfl

theorem exec_qcfgWrite {m q : Nat} {v : Word} {s : State} (hq : q < 240) (h : s.admits m (Reg.BSN_QCFG q) = true) :
    exec (.qcfgWrite m (Reg.BSN_QCFG q) v) s = .next ((s.noted m (Reg.BSN_QCFG q)).qcfgSet m q v) := by
  have hqueue : (Reg.BSN_QCFG q - Reg.BSN_QCFG 0) / 4 = q := by unfold Reg.BSN_QCFG; omega
  have hset : ∀ u : State, u.qcfgWrite m (Reg.BSN_QCFG q) v = u.qcfgSet m q v := fun u => by
    unfold State.qcfgWrite
    rw [if_neg (by unfold Reg.BSN_QCFG Reg.BSN_HEADROOM; omega), hqueue]
  exact congrArg Host.Outcome.next ((State.access_ok h fun u => u.qcfgWrite m (Reg.BSN_QCFG q) v).trans (hset _))

/-- OVER_QUOTA is all that the scan of a queue writes, beside its interrupt (R106). -/
theorem regsBut_quotaScan (s : State) (q : Nat) : regsBut [Reg.BSN_QSTAT q, Reg.INT_RAW (pageBase .bsn 0)] s (s.quotaScan q) := by
  have hstat : Reg.BSN_QSTAT q ∈ [Reg.BSN_QSTAT q, Reg.INT_RAW (pageBase .bsn 0)] := List.mem_cons_self
  have hraw : Reg.INT_RAW (pageBase .bsn 0) ∈ [Reg.BSN_QSTAT q, Reg.INT_RAW (pageBase .bsn 0)] := List.mem_cons_of_mem _ List.mem_cons_self
  unfold State.quotaScan
  split
  · split
    · exact .of_regs rfl
    · exact ((regsBut_wf s hstat 16 1 1).trans (regsBut_raiseAt _ hraw _)).trans (.of_regs (State.logEvt_regs ..))
  · split
    · exact regsBut_wf s hstat 16 1 0
    · exact .of_regs rfl

theorem State.budDue_regs (s : State) (p : Nat) : (s.budDue p).regs = s.regs :=
  ((State.budDue_chg (.self _) (.refl s)).same .regs (by decide)).symm

theorem qcfgWrite_stores {m q : Nat} {v : Word} {s : State} (hq : q < 240) (h : s.admits m (Reg.BSN_QCFG q) = true)
    (hres : fld v 16 16 ≤ fld v 0 16) (hsum : s.rsvSum - s.reserved q + fld v 16 16 + s.headroom ≤ 49152) :
    Completes (.qcfgWrite m (Reg.BSN_QCFG q) v) s fun t =>
      t.rd (Reg.BSN_QCFG q) = v ∧ regsBut [Reg.BSN_QCFG q, Reg.BSN_QSTAT q, Reg.INT_RAW (pageBase .bsn 0)] s t := by
  refine ⟨_, exec_qcfgWrite hq h, ?_⟩
  unfold State.qcfgSet
  rw [if_neg (by rw [State.rsvSum_noted, State.reserved_noted, State.headroom_noted]; omega), State.plainWrite_qcfg hq]
  extract_lets scanned
  have hregs : (if q < 208 then scanned.budDue (q / 8) else scanned).regs = scanned.regs := by
    split
    · exact State.budDue_regs ..
    · rfl
  have hscan := regsBut_quotaScan ((s.noted m (Reg.BSN_QCFG q)).wr (Reg.BSN_QCFG q) v) q
  have hkey : Reg.BSN_QCFG q ∉ [Reg.BSN_QSTAT q, Reg.INT_RAW (pageBase .bsn 0)] := by
    show 0x20100 + 4 * q ∉ [0x20500 + 4 * q, 0x20018]
    simp only [List.mem_cons, List.not_mem_nil, or_false]
    omega
  constructor
  · rw [State.rd_congr hregs, hscan _ hkey (.inr (by unfold Reg.BSN_QCFG; omega)), State.rd_wr_same]
  · exact (((regsBut_noted _ s m _).trans (regsBut_wr _ List.mem_cons_self v)).trans
      (hscan.mono fun k hk => List.mem_cons_of_mem _ hk)).trans (.of_regs hregs)

theorem qcfgWrite_rejected {m q : Nat} {v : Word} {s : State} (hq : q < 240) (h : s.admits m (Reg.BSN_QCFG q) = true)
    (hrej : fld v 0 16 < fld v 16 16 ∨ 49152 < s.rsvSum - s.reserved q + fld v 16 16 + s.headroom) :
    Completes (.qcfgWrite m (Reg.BSN_QCFG q) v) s fun t =>
      t.rd Reg.BSN_RSV_REJ = evtNext (s.rd Reg.BSN_RSV_REJ) ∧ t.rb (Reg.INT_RAW (pageBase .bsn 0)) Irq.BSN_RSV_REJ = true ∧
      regsBut [Reg.BSN_RSV_REJ, Reg.INT_RAW (pageBase .bsn 0)] s t := by
  refine ⟨_, exec_qcfgWrite hq h, ?_⟩
  unfold State.qcfgSet
  rw [if_pos (by rwa [State.rsvSum_noted, State.reserved_noted, State.headroom_noted])]
  obtain ⟨hcount, hrest⟩ := s.rd_noted_evt_raise m (Reg.BSN_QCFG q) Reg.BSN_RSV_REJ .bsn 0 Irq.BSN_RSV_REJ (by decide) (by decide)
  exact ⟨hcount, State.rb_raise _ _ _ (by decide), hrest⟩

/-! ### The write of EDY_RATE -/

/-- The word that a write of `v` leaves in EDY_RATE before its count is restarted: N at least 1. -/
def rateWord (old v : Word) : Word :=
  Limit.apply ⟨0, 16, 1, 65535, false⟩ ((old &&& ~~~(wd (2 ^ 16 - 1))) ||| (v &&& wd (2 ^ 16 - 1)))

theorem rateWord_n (old v : Word) : fld (rateWord old v) 0 16 = max 1 (fld v 0 16) := by
  have hlt : fld v 0 16 < 2 ^ 16 := fld_lt v 0 16
  unfold rateWord Limit.apply
  rw [if_neg (by decide), fld_setFld_same _ _ (by decide), fld_masked _ _ (by decide) (by decide)]
  show clampN 1 65535 (fld v 0 16) % 2 ^ 16 = _
  unfold clampN
  rw [if_neg (show ¬65535 < fld v 0 16 by omega)]
  split <;> omega

theorem State.plainWrite_rate {k : Nat} (hk : k < 8) (s : State) (m : Nat) (v : Word) :
    s.plainWrite m (Reg.EDY_RATE k) v = s.wr (Reg.EDY_RATE k) (rateWord (s.rd (Reg.EDY_RATE k)) v) := by
  have hpage : Reg.EDY_RATE k / 0x1000 = 0x22 := by unfold Reg.EDY_RATE; omega
  have hreg : ∀ k, k < 8 → findReg .edy (Reg.EDY_RATE k % 0x1000) =
      some (⟨0x10C, 8, 0x20, .rwl, 0x1, 0xFFFF, false, [⟨0, 16, 1, 65535, false⟩], none⟩, k) := by decide +kernel
  exact State.plainWrite_eq (b := .edy) (i := 0) (hpage ▸ rfl) (hreg k hk) s m v

theorem edyRateWrite_stores {m k : Nat} {v : Word} {s : State} (hk : k < 8) (h : s.admits m (Reg.EDY_RATE k) = true) :
    Completes (.edyRateWrite m k v) s fun t =>
      t.rf (Reg.EDY_RATE k) 0 16 = max 1 (fld v 0 16) ∧ t.rf (Reg.EDY_RATE k) 16 16 = 0 ∧ regsBut [Reg.EDY_RATE k] s t := by
  refine ⟨_, congrArg Host.Outcome.next (State.access_ok h fun u => u.edyRateWrite m k v), ?_⟩
  unfold State.edyRateWrite
  rw [State.plainWrite_rate hk]
  dsimp only
  rw [State.rf_wf_other _ _ _ (by decide) (by decide), State.rf_wr, if_pos rfl, rateWord_n,
    State.rf_wf_same _ _ _ (by decide)]
  exact ⟨rfl, rfl, ((regsBut_noted _ s m _).trans (regsBut_wr _ List.mem_cons_self _)).trans (regsBut_wf _ List.mem_cons_self 16 16 0)⟩

end Sys2Proof.Machine
end
section
/-! The seed of the flow hash and the ring FIFOs (R99, R126, R127). -/

namespace Sys2Proof.Machine

/-! ### The flow seed -/

theorem flowSeedApply_waits (s : State) :
    Completes .flowSeedApply s fun t =>
      t.bsn.seed = (if s.bsnFree = 49152 then s.rd Reg.BSN_FLOW_SEED else s.bsn.seed) ∧ t.bsn.frames = s.bsn.frames ∧
      t.bsn.queues = s.bsn.queues ∧ t.regs = s.regs := by
  refine ⟨s.seedApply, rfl, ?_⟩
  unfold State.seedApply
  split
  · exact ⟨rfl, rfl, rfl, rfl⟩
  · exact ⟨rfl, rfl, rfl, rfl⟩

/-! ### Gap markers -/

theorem State.rxf_setRxf_same (s : State) (r : Nat) (f : RxFifo) : (s.setRxf r f).rxf r = f := Tab.get_set_same ..

theorem State.rxf_setRxf_ne (s : State) {r j : Nat} (f : RxFifo) (h : j ≠ r) : (s.setRxf r f).rxf j = s.rxf j := Tab.get_set_ne _ _ _ h.symm

theorem gapMarker_joins {r : Nat} {s : State} (hpend : 0 < (s.rxf r).pend) (hfree : 2 ≤ (s.rxf r).free) :
    Completes (.gapMarker r) s fun t =>
      (t.rxf r).recs = (s.rxf r).recs ++ [gapRec (s.rxf r).pend false] ∧ (t.rxf r).pend = 0 ∧
      (t.rxf r).wr = ((s.rxf r).wr + 2) % 4096 ∧ (t.rxf r).rd = (s.rxf r).rd ∧ (∀ j, j ≠ r → t.rxf j = s.rxf j) ∧ t.regs = s.regs := by
  refine ⟨s.gapMark r, rfl, ?_⟩
  unfold State.gapMark
  extract_lets f
  rw [if_pos ⟨hpend, hfree⟩]
  dsimp only
  rw [State.rxf_setRxf_same]
  exact ⟨rfl, rfl, rfl, rfl, fun j hj => s.rxf_setRxf_ne _ hj, rfl⟩

/-! ### A FIFO is emptied -/

/-- What the reset of a ring FIFO adds to its emptying: counted at `a`, raised and logged (R127). -/
def State.fifoCounted (s : State) (a : Nat) (payload : List Byte) : State :=
  ((s.evt a).raise .bsn 0 Irq.BSN_RING_ERR).logEvt .bsn 0 Irq.BSN_RING_ERR 10000000 false payload

theorem State.fifoCounted_counts (s : State) {a : Nat} (hraw : Reg.INT_RAW (pageBase .bsn 0) ≠ a) (payload : List Byte) :
    (s.fifoCounted a payload).rd a = evtNext (s.rd a) ∧
    (s.fifoCounted a payload).rb (Reg.INT_RAW (pageBase .bsn 0)) Irq.BSN_RING_ERR = true ∧
    regsBut [a, Reg.INT_RAW (pageBase .bsn 0)] s (s.fifoCounted a payload) := by
  unfold State.fifoCounted
  refine ⟨?_, ?_, ?_⟩
  · rw [State.rd_logEvt, State.rd_raise, if_neg hraw, State.rd_evt, if_pos rfl]
  · unfold State.rb
    rw [State.rd_logEvt]
    exact State.rb_raise _ _ _ (by decide)
  · exact ((regsBut_evt s List.mem_cons_self).trans (regsBut_raiseAt _ (List.mem_cons_of_mem _ List.mem_cons_self) _)).trans
      (.of_regs (State.logEvt_regs ..))

theorem State.fifoCounted_bsn (s : State) (a : Nat) (payload : List Byte) : (s.fifoCounted a payload).bsn = s.bsn := by
  unfold State.fifoCounted
  rw [State.logEvt_bsn, State.raise_bsn, State.evt_bsn]

/-- The marker of a receive FIFO that has been reset stands for the packets it held and the drops pending. -/
theorem State.rxReset_eq {r : Nat} (hr : r < 16) (s : State) :
    s.rxReset r = (s.setRxf r (RxFifo.reset.append (gapRec (sumN ((s.rxf r).recs.map RxRec.packets) + (s.rxf r).pend) true))).fifoCounted
      (Reg.BSN_RXF_RESET r) (toBE 1 r) := by
  unfold State.rxReset
  simp only [if_pos hr]
  rfl

theorem State.txReset_one (s : State) (r : Nat) :
    s.txReset r 1 = (s.setTxf r TxFifo.reset).fifoCounted (Reg.BSN_TXF_RESET r) (toBE 1 (16 + r)) := rfl

theorem fifoReset_rx {r : Nat} {l : List Nat} {s : State} (hr : r < 16) :
    Completes (.fifoReset false r l) s fun t =>
      (t.rxf r).recs = [gapRec (sumN ((s.rxf r).recs.map RxRec.packets) + (s.rxf r).pend) true] ∧ (t.rxf r).wr = 2 ∧ (t.rxf r).rd = 0 ∧
      (t.rxf r).pend = 0 ∧ (∀ j, j ≠ r → t.rxf j = s.rxf j) ∧
      t.rd (Reg.BSN_RXF_RESET r) = evtNext (s.rd (Reg.BSN_RXF_RESET r)) ∧
      t.rb (Reg.INT_RAW (pageBase .bsn 0)) Irq.BSN_RING_ERR = true ∧
      regsBut [Reg.BSN_RXF_RESET r, Reg.INT_RAW (pageBase .bsn 0)] s t := by
  refine ⟨s.rxReset r, rfl, ?_⟩
  rw [State.rxReset_eq hr]
  have hrxf := State.rxf_congr (State.fifoCounted_bsn
    (s.setRxf r (RxFifo.reset.append (gapRec (sumN ((s.rxf r).recs.map RxRec.packets) + (s.rxf r).pend) true)))
    (Reg.BSN_RXF_RESET r) (toBE 1 r))
  dsimp only
  rw [hrxf r, State.rxf_setRxf_same]
  exact ⟨rfl, rfl, rfl, rfl, fun j hj => (hrxf j).trans (s.rxf_setRxf_ne _ hj),
    State.fifoCounted_counts _ (by show 0x20018 ≠ 0x20D8C + 0x10 * r; omega) _⟩

/-- The control word of transmit ring r is not among the registers that the reset of its FIFO writes. -/
theorem State.ringOn_txReset {r : Nat} (hr : r < 16) (s : State) : (s.txReset r 1).ringOn (16 + r) = s.ringOn (16 + r) := by
  have hctrl : ringCtrl (16 + r) = 0x630C + 0x20 * r := by
    unfold ringCtrl ringOff
    show 0x610C + 0x20 * 0 + _ = _
    omega
  have hother : ringCtrl (16 + r) ∉ [Reg.BSN_TXF_RESET r, Reg.INT_RAW (pageBase .bsn 0)] := by
    show ringCtrl (16 + r) ∉ [0x20E84 + 8 * r, 0x20018]
    simp only [hctrl, List.mem_cons, List.not_mem_nil, or_false]
    omega
  obtain ⟨-, -, hrest⟩ := (s.setTxf r TxFifo.reset).fifoCounted_counts (a := Reg.BSN_TXF_RESET r)
    (by show 0x20018 ≠ 0x20E84 + 8 * r; omega) (toBE 1 (16 + r))
  exact congrArg (bit · 0) (hrest _ hother (.inr (by omega)))

theorem fifoReset_tx {r k : Nat} {s : State} (hr : r < 16) (hoff : s.ringOn (16 + r) = false) :
    Completes (.fifoReset true r [k]) s fun t =>
      t.txf r = TxFifo.reset ∧ (∀ j, j ≠ r → t.txf j = s.txf j) ∧
      t.rd (Reg.BSN_TXF_RESET r) = evtNext (s.rd (Reg.BSN_TXF_RESET r)) ∧
      t.rb (Reg.INT_RAW (pageBase .bsn 0)) Irq.BSN_RING_ERR = true ∧
      regsBut [Reg.BSN_TXF_RESET r, Reg.INT_RAW (pageBase .bsn 0)] s t := by
  have hring : ringNo true r = 16 + r := if_pos hr
  have hdropped : (s.txReset r 1).txDropped r [k] = s.txReset r 1 := if_neg (by simp [hring, s.ringOn_txReset hr, hoff])
  refine ⟨s.txReset r 1, congrArg Host.Outcome.next hdropped, ?_⟩
  rw [State.txReset_one]
  have htxf := State.txf_congr (State.fifoCounted_bsn (s.setTxf r TxFifo.reset) (Reg.BSN_TXF_RESET r) (toBE 1 (16 + r)))
  exact ⟨(htxf r).trans (Tab.get_set_same ..), fun j hj => (htxf j).trans (Tab.get_set_ne _ _ _ hj.symm),
    State.fifoCounted_counts _ (by show 0x20018 ≠ 0x20E84 + 8 * r; omega) _⟩

end Sys2Proof.Machine

open Sys2Proof Sys2Proof.Machine

/-- Settles O24: an audit begins, is noted or ends with its one cell found; a setting is stored or counted; a FIFO takes its marker. -/
theorem basinIsAuditedAndSet : Obligations.BasinIsAuditedAndSet := by
  unfold Obligations.BasinIsAuditedAndSet
  exact ⟨⟨fun s hen hoff => rakeAuditStart_begins hen hoff, fun s hen hon => rakeAuditStart_overruns hen hon,
      fun s c u b h hon hdue hc hfree hmoved => rakeAuditDone_finds h hon hdue hc hfree hmoved⟩,
    fun m q v s hq h hres hsum => qcfgWrite_stores hq h hres hsum,
    fun m q v s hq h hrej => qcfgWrite_rejected hq h hrej,
    fun m k v s hk h => edyRateWrite_stores hk h,
    fun s => flowSeedApply_waits s,
    fun r s _ hpend hfree => gapMarker_joins hpend hfree,
    fun r l s hr => fifoReset_rx hr,
    fun r k s hr hoff => fifoReset_tx hr hoff⟩

end
section
/-! The write of SLU_CTRL (R142): a register word that holds a bit outside the register's writable ones keeps it. -/

namespace Sys2Proof.Machine.ReservedBit

/-- After reset with the fabric powered, bit 3 of port 0's SLU_CTRL set, beyond its three writable bits. -/
def before : State := { State.reset with pwr := { State.reset.pwr with fwdOn := true } }.wr (Reg.SLU_CTRL 0) 8

/-- What master 3's write of GATE_EN = 0 makes of it. -/
def after : State := (before.noted 3 (Reg.SLU_CTRL 0)).sluCtrlWrite 3 0 0

theorem admitted : before.admits 3 (Reg.SLU_CTRL 0) = true := by decide +kernel

theorem exec_before : exec (.sluGateEnWrite 3 0 0) before = .next after :=
  congrArg Host.Outcome.next (State.access_ok admitted fun s => s.sluCtrlWrite 3 0 0)

/-- The write stores the three writable bits and keeps the others (R12). -/
theorem bit_kept : after.rd (Reg.SLU_CTRL 0) = 8 := by decide +kernel

end Sys2Proof.Machine.ReservedBit

open Sys2Proof Sys2Proof.Machine

/-- Refutes O26: its clause on GATE_EN = 0 leaves the word that SLU_CTRL held free. Where a bit beyond the three writable ones is set, the
write keeps it: the register reads 8 after a write of 0, where the clause says 0. -/
theorem not_sluiceListsChangeAndGate : ¬ Obligations.SluiceListsChangeAndGate := by
  unfold Obligations.SluiceListsChangeAndGate
  rintro ⟨-, -, -, -, gateEnOff, -⟩
  obtain ⟨t, hexec, hctrl, -⟩ := gateEnOff 3 0 0 ReservedBit.before (by decide) ReservedBit.admitted rfl
  rw [ReservedBit.exec_before, Host.Outcome.next.injEq] at hexec
  rw [← hexec, ReservedBit.bit_kept] at hctrl
  exact absurd hctrl (by decide)

end
section
/-! A re-check of a port (R160) in a state whose list of reservations names one index twice, as no canonical table does: the reservation read
at that index is not the one that belongs to the port. -/

namespace Sys2Proof.Machine.TwiceListed

/-- An ACTIVE reservation of a port. -/
def active (port : Nat) : Resv := ⟨2, 0x777, port, 3, 200, 1, 1000000, 250000, 9⟩

/-- After reset, with every link down, index 9 is listed for port 6 and again for port 5, whose re-check is due. -/
def before : State :=
  { State.reset with bud := { State.reset.bud with resv := [(9, active 6), (9, active 5)], work := [.recheck 5] } }

/-- What the re-check of port 5 makes of it. -/
def after : State := before.budAuto 5

theorem exec_before : exec (.budAutoRecheck 5) before = .next after := rfl

/-- Reservation 9 reads as port 6's, and becomes PROVISIONAL with port 5's link down. -/
theorem other_port_provisional : (after.resv 9).state = 1 := by decide +kernel

end Sys2Proof.Machine.TwiceListed

open Sys2Proof Sys2Proof.Machine

/-- Refutes O27: its clause on a re-check that is due leaves the list of reservations free. Where index 9 is listed for port 6 and again for
port 5, the re-check of port 5 makes the reservation of port 6 PROVISIONAL, where the clause says that it stays as it was. -/
theorem not_budgetCommandsRunInOrder : ¬ Obligations.BudgetCommandsRunInOrder := by
  unfold Obligations.BudgetCommandsRunInOrder
  rintro ⟨-, -, -, -, -, -, -, -, -, -, recheck, -⟩
  obtain ⟨t, hexec, -, -, hothers⟩ := recheck 5 TwiceListed.before [] rfl rfl rfl
  rw [TwiceListed.exec_before, Host.Outcome.next.injEq] at hexec
  have hkept : t.resv 9 = TwiceListed.before.resv 9 := hothers 9 (by decide)
  have hstate : (TwiceListed.after.resv 9).state = 2 := congrArg Resv.state (hexec ▸ hkept)
  rw [TwiceListed.other_port_provisional] at hstate
  exact absurd hstate (by decide)

end
section
/-! Weir meters (R130-R136): WEI_APPLY and WEI_LOAD, and the levels that a charged colour leaves. -/

namespace Sys2Proof.Machine

/-! ### What the meters' words read after a noted write -/

section

variable (s : State) (m a : Nat)

theorem State.rd_weiData_noted (k : Nat) : (s.noted m a).rd (bankKey m (Reg.WEI_DATA k)) = s.rd (bankKey m (Reg.WEI_DATA k)) :=
  State.rd_noted _ _ _ (.inr (by unfold bankKey Reg.WEI_DATA; omega))

theorem State.weiSel_noted (lo len : Nat) : (s.noted m a).rf (bankKey m Reg.WEI_SEL) lo len = s.rf (bankKey m Reg.WEI_SEL) lo len :=
  State.rf_noted _ _ _ _ _ (.inr (by unfold bankKey Reg.WEI_SEL; omega))

theorem State.meterOwned_noted (i : Nat) : (s.noted m a).meterOwned i = s.meterOwned i := by
  unfold State.meterOwned
  rw [State.rb_noted _ _ _ _ (.inr (by decide))]

theorem State.meter_noted (i : Nat) : (s.noted m a).meter i = s.meter i := State.meter_congr (State.noted_meters ..) i

end

/-! ### WEI_APPLY -/

/-- Word k of the meter that master m's data registers describe. -/
def State.weiWord (s : State) (m k : Nat) : Word := s.rd (bankKey m (Reg.WEI_DATA k)) &&& meterMask.getD k 0

/-- The meter that master m selects. -/
def State.weiSel (s : State) (m : Nat) : Nat := s.rf (bankKey m Reg.WEI_SEL) 0 12

/-- What APPLY refuses: a meter of the Budget Engine, or an enabled one out of range. -/
def State.weiRefuses (s : State) (m : Nat) : Prop :=
  s.meterOwned (s.weiSel m) = true ∨ (bit (s.weiWord m 0) 0 = true ∧
    (⟨s.weiWord m 0, s.weiWord m 1, s.weiWord m 2, s.weiWord m 3, s.weiWord m 4, 0, 0, 0⟩ : Meter).inRange = false)

theorem State.weiRefuses_not {s : State} {m : Nat} (howned : s.meterOwned (s.weiSel m) = false) (hrange : bit (s.weiWord m 0) 0 = true →
    (⟨s.weiWord m 0, s.weiWord m 1, s.weiWord m 2, s.weiWord m 3, s.weiWord m 4, 0, 0, 0⟩ : Meter).inRange = true) : ¬s.weiRefuses m := by
  unfold State.weiRefuses
  rw [howned]
  rintro (h | ⟨hen, hout⟩)
  · cases h
  · rw [hrange hen] at hout
    cases hout

section

variable {m : Nat} {s : State} (h : s.admits m Reg.WEI_CMD = true)
include h

theorem exec_weiApply : exec (.weiApply m) s = .next ((s.noted m Reg.WEI_CMD).weiApply m) := congrArg Host.Outcome.next (State.access_ok h _)

theorem exec_weiLoad : exec (.weiLoad m) s = .next ((s.noted m Reg.WEI_CMD).weiLoad m) := congrArg Host.Outcome.next (State.access_ok h _)

end

theorem State.weiApply_noted (s : State) (m a : Nat) [Decidable (s.weiRefuses m)] :
    (s.noted m a).weiApply m = if s.weiRefuses m then (s.noted m a).weiRej
      else (s.noted m a).meterSet (s.weiSel m) (s.weiWord m 0) (s.weiWord m 1) (s.weiWord m 2) (s.weiWord m 3) (s.weiWord m 4) := by
  have hword : ∀ k, (s.noted m a).rd (bankKey m (Reg.WEI_DATA k)) &&& meterMask.getD k 0 = s.weiWord m k := fun k => by
    rw [State.rd_weiData_noted]
    rfl
  have hsel : (s.noted m a).rf (bankKey m Reg.WEI_SEL) 0 12 = s.weiSel m := s.weiSel_noted ..
  unfold State.weiApply
  simp only [hword, hsel, State.meterOwned_noted]
  exact ite_congr (propext (or_congr_right (and_congr_right' (iff_of_eq (Bool.not_eq_true' _))))) (fun _ => rfl) fun _ => rfl

/-- A meter that is set leaves the other meters as they were. -/
theorem State.meterSet_other (s : State) {i j : Nat} (hj : j ≠ i) (d0 d1 d2 d3 d4 : Word) : (s.meterSet i d0 d1 d2 d3 d4).meter j = s.meter j := by
  unfold State.meterSet
  rw [State.meter_setMeter, if_neg (Ne.symm hj)]

/-- A meter that is enabled starts with its levels full (R136). -/
theorem State.meterSet_enabled (s : State) {i : Nat} {d0 : Word} (d1 d2 d3 d4 : Word) (hen : bit d0 0 = true) (hold : (s.meter i).en = false) :
    (s.meterSet i d0 d1 d2 d3 d4).meter i = ⟨d0, d1, d2, d3, d4, fld d3 0 24 * 65536, fld d4 0 24 * 65536, s.now⟩ := by
  have hfresh : ∀ tc tp last, ((⟨d0, d1, d2, d3, d4, tc, tp, last⟩ : Meter).en && !(s.meter i).en) = true := fun tc tp last => by
    rw [hold]
    exact congrArg (· && true) hen
  unfold State.meterSet
  simp only [hfresh, if_true, State.meter_setMeter]
  rfl

/-- A meter that is not enabled keeps its levels, within its new sizes (R136). -/
theorem State.meterSet_disabled (s : State) {i : Nat} {d0 : Word} (d1 d2 d3 d4 : Word) (hen : bit d0 0 = false) :
    (s.meterSet i d0 d1 d2 d3 d4).meter i =
      ⟨d0, d1, d2, d3, d4, min (s.meter i).tc (fld d3 0 24 * 65536), min (s.meter i).tp (fld d4 0 24 * 65536), (s.meter i).last⟩ := by
  have hfresh : ∀ tc tp last, ((⟨d0, d1, d2, d3, d4, tc, tp, last⟩ : Meter).en && !(s.meter i).en) = false := fun tc tp last =>
    congrArg (· && !(s.meter i).en) hen
  unfold State.meterSet
  simp only [hfresh, Bool.false_eq_true, if_false, State.meter_setMeter, if_true]
  rfl

theorem weiApply_sets {m : Nat} {s : State} (h : s.admits m Reg.WEI_CMD = true) (hok : ¬s.weiRefuses m) :
    Completes (.weiApply m) s fun t =>
      t = (s.noted m Reg.WEI_CMD).meterSet (s.weiSel m) (s.weiWord m 0) (s.weiWord m 1) (s.weiWord m 2) (s.weiWord m 3) (s.weiWord m 4) ∧
      (∀ i, i ≠ s.weiSel m → t.meter i = s.meter i) ∧ regsBut [] s t := by
  classical
  refine ⟨_, exec_weiApply h, ?_⟩
  rw [State.weiApply_noted, if_neg hok]
  exact ⟨rfl, fun i hi => (State.meterSet_other _ hi ..).trans (State.meter_noted ..), (regsBut_noted [] s m _).trans (.of_regs rfl)⟩

theorem weiApply_refused {m : Nat} {s : State} (h : s.admits m Reg.WEI_CMD = true) (hno : s.weiRefuses m) :
    Completes (.weiApply m) s fun t =>
      t.meters = s.meters ∧ t.rd Reg.WEI_REJ = evtNext (s.rd Reg.WEI_REJ) ∧ t.rb (Reg.INT_RAW (pageBase .wei 0)) Irq.WEI_REJ = true ∧
      regsBut [Reg.WEI_REJ, Reg.INT_RAW (pageBase .wei 0)] s t := by
  classical
  refine ⟨_, exec_weiApply h, ?_⟩
  rw [State.weiApply_noted, if_pos hno]
  obtain ⟨hcount, hrest⟩ := s.rd_noted_evt_raise m Reg.WEI_CMD Reg.WEI_REJ .wei 0 Irq.WEI_REJ (by decide) (by decide)
  refine ⟨?_, hcount, State.rb_raise _ _ _ (by decide), hrest⟩
  unfold State.weiRej
  rw [State.raise_meters, State.evt_meters, State.noted_meters]

/-! ### WEI_LOAD -/

/-- Five words written to master m's data registers. -/
def State.putWei (s : State) (m : Nat) (v0 v1 v2 v3 v4 : Word) : State :=
  ((((s.wr (bankKey m (Reg.WEI_DATA 0)) v0).wr (bankKey m (Reg.WEI_DATA 1)) v1).wr (bankKey m (Reg.WEI_DATA 2)) v2).wr
    (bankKey m (Reg.WEI_DATA 3)) v3).wr (bankKey m (Reg.WEI_DATA 4)) v4

theorem weiData_ne (m : Nat) {j k : Nat} (h : j ≠ k) : bankKey m (Reg.WEI_DATA j) ≠ bankKey m (Reg.WEI_DATA k) := by
  unfold bankKey Reg.WEI_DATA
  omega

theorem State.rd_putWei (s : State) (m : Nat) (v0 v1 v2 v3 v4 : Word) :
    (s.putWei m v0 v1 v2 v3 v4).rd (bankKey m (Reg.WEI_DATA 0)) = v0 ∧ (s.putWei m v0 v1 v2 v3 v4).rd (bankKey m (Reg.WEI_DATA 1)) = v1 ∧
    (s.putWei m v0 v1 v2 v3 v4).rd (bankKey m (Reg.WEI_DATA 2)) = v2 ∧ (s.putWei m v0 v1 v2 v3 v4).rd (bankKey m (Reg.WEI_DATA 3)) = v3 ∧
    (s.putWei m v0 v1 v2 v3 v4).rd (bankKey m (Reg.WEI_DATA 4)) = v4 := by
  have hne : ∀ {j k : Nat}, j ≠ k → ∀ (u : State) (v : Word), (u.wr (bankKey m (Reg.WEI_DATA j)) v).rd (bankKey m (Reg.WEI_DATA k)) =
      u.rd (bankKey m (Reg.WEI_DATA k)) := fun h u v => u.rd_wr_ne v (weiData_ne m h)
  unfold State.putWei
  refine ⟨?_, ?_, ?_, ?_, State.rd_wr_same ..⟩
  · rw [hne (by decide), hne (by decide), hne (by decide), hne (by decide), State.rd_wr_same]
  · rw [hne (by decide), hne (by decide), hne (by decide), State.rd_wr_same]
  · rw [hne (by decide), hne (by decide), State.rd_wr_same]
  · rw [hne (by decide), State.rd_wr_same]

theorem regsBut_putWei (s : State) (m : Nat) (v0 v1 v2 v3 v4 : Word) :
    regsBut ((List.range 5).map (fun k => bankKey m (Reg.WEI_DATA k))) s (s.putWei m v0 v1 v2 v3 v4) := by
  have hmem : ∀ k, k < 5 → bankKey m (Reg.WEI_DATA k) ∈ (List.range 5).map (fun k => bankKey m (Reg.WEI_DATA k)) :=
    fun k hk => List.mem_map_of_mem (List.mem_range.mpr hk)
  exact ((((regsBut_wr s (hmem 0 (by decide)) v0).trans (regsBut_wr _ (hmem 1 (by decide)) v1)).trans
    (regsBut_wr _ (hmem 2 (by decide)) v2)).trans (regsBut_wr _ (hmem 3 (by decide)) v3)).trans (regsBut_wr _ (hmem 4 (by decide)) v4)

theorem weiLoad_reads {m : Nat} {s : State} {e : Meter} (h : s.admits m Reg.WEI_CMD = true) (he : e = s.meter (s.rf (bankKey m Reg.WEI_SEL) 0 12)) :
    Completes (.weiLoad m) s fun t =>
      t.rd (bankKey m (Reg.WEI_DATA 0)) = setFld e.d0 6 1 (b2n (s.meterOwned (s.rf (bankKey m Reg.WEI_SEL) 0 12))) ∧
      t.rd (bankKey m (Reg.WEI_DATA 1)) = e.d1 ∧ t.rd (bankKey m (Reg.WEI_DATA 2)) = e.d2 ∧ t.rd (bankKey m (Reg.WEI_DATA 3)) = e.d3 ∧
      t.rd (bankKey m (Reg.WEI_DATA 4)) = e.d4 ∧ t.meters = s.meters ∧
      regsBut ((List.range 5).map (fun k => bankKey m (Reg.WEI_DATA k))) s t := by
  have hput : (s.noted m Reg.WEI_CMD).weiLoad m = (s.noted m Reg.WEI_CMD).putWei m
      (setFld e.d0 6 1 (b2n (s.meterOwned (s.rf (bankKey m Reg.WEI_SEL) 0 12)))) e.d1 e.d2 e.d3 e.d4 := by
    unfold State.weiLoad
    simp only [State.weiSel_noted, State.meter_noted, State.meterOwned_noted, ← he]
    rfl
  refine ⟨_, (exec_weiLoad h).trans (congrArg Host.Outcome.next hput), ?_⟩
  obtain ⟨h0, h1, h2, h3, h4⟩ := (s.noted m Reg.WEI_CMD).rd_putWei m
    (setFld e.d0 6 1 (b2n (s.meterOwned (s.rf (bankKey m Reg.WEI_SEL) 0 12)))) e.d1 e.d2 e.d3 e.d4
  exact ⟨h0, h1, h2, h3, h4, State.noted_meters .., (regsBut_noted _ s m _).trans (regsBut_putWei _ _ _ _ _ _ _)⟩

/-! ### Colours and levels (R132) -/

/-- The four ways in which a frame is coloured and charged: too long or beyond the peak level, within the peak level alone, within both. -/
theorem Meter.colour_cases (x : Meter) (b : Nat) (y : Bool) :
    (x.colour b y true = (2, x) ∧ ((x.lenEn = true ∧ x.maxFrame < b) ∨ x.tp < b * 65536)) ∨
    (x.colour b y true = (1, { x with tp := x.tp - b * 65536 }) ∧ b * 65536 ≤ x.tp ∧ ¬(x.lenEn = true ∧ x.maxFrame < b)) ∨
    (x.colour b y true = (0, { x with tp := x.tp - b * 65536, tc := x.tc - b * 65536 }) ∧ b * 65536 ≤ x.tp ∧ b * 65536 ≤ x.tc ∧
      ¬(x.lenEn = true ∧ x.maxFrame < b) ∧ ¬(x.caware = true ∧ y = true)) := by
  unfold Meter.colour
  extract_lets n
  split
  · next hlong => exact .inl ⟨rfl, .inl hlong⟩
  next hlong =>
  split
  · next hpeak => exact .inl ⟨rfl, .inr hpeak⟩
  next hpeak =>
  split
  · exact .inr (.inl ⟨rfl, Nat.le_of_not_lt hpeak, hlong⟩)
  next hcommitted =>
  rw [not_or] at hcommitted
  exact .inr (.inr ⟨rfl, Nat.le_of_not_lt hpeak, Nat.le_of_not_lt hcommitted.2, hlong, hcommitted.1⟩)

theorem Meter.colour_charges (x : Meter) (b : Nat) (y : Bool) :
    ((x.colour b y true).1 = 0 →
      (x.colour b y true).2.tc + b * 65536 = x.tc ∧ (x.colour b y true).2.tp + b * 65536 = x.tp ∧ (x.caware = true → y = false)) ∧
    ((x.colour b y true).1 = 1 → (x.colour b y true).2.tc = x.tc ∧ (x.colour b y true).2.tp + b * 65536 = x.tp) ∧
    ((x.colour b y true).1 = 2 → (x.colour b y true).2 = x) ∧ (x.colour b y true).1 ≤ 2 ∧
    (x.lenEn = true → x.maxFrame < b → (x.colour b y true).1 = 2) := by
  obtain ⟨hred, -⟩ | ⟨hyellow, hpeak, hlong⟩ | ⟨hgreen, hpeak, hcommitted, hlong, haware⟩ := x.colour_cases b y
  · rw [hred]
    exact ⟨nofun, nofun, fun _ => rfl, Nat.le_refl 2, fun _ _ => rfl⟩
  · rw [hyellow]
    exact ⟨nofun, fun _ => ⟨rfl, Nat.sub_add_cancel hpeak⟩, nofun, Nat.le_succ 1, fun hen hb => absurd ⟨hen, hb⟩ hlong⟩
  · rw [hgreen]
    exact ⟨fun _ => ⟨Nat.sub_add_cancel hcommitted, Nat.sub_add_cancel hpeak, fun ha => Bool.eq_false_iff.mpr fun hy => haware ⟨ha, hy⟩⟩,
      nofun, nofun, Nat.zero_le 2, fun hen hb => absurd ⟨hen, hb⟩ hlong⟩

theorem Meter.refill_within (x : Meter) (now : Nat) : (x.refill now).tc ≤ x.cbs * 65536 ∧ (x.refill now).tp ≤ x.pbs * 65536 :=
  ⟨Nat.min_le_left .., Nat.min_le_left ..⟩

end Sys2Proof.Machine

open Sys2Proof Sys2Proof.Machine

/-- Settles O25: APPLY refuses or sets the selected meter, LOAD writes its words back, and a colour is one of three charges. -/
theorem weirMetersRun : Obligations.WeirMetersRun := by
  unfold Obligations.WeirMetersRun
  refine ⟨⟨?_, fun m s e h he => weiLoad_reads h he⟩, Meter.colour_charges, Meter.refill_within⟩
  rintro m s d0 d1 d2 d3 d4 h rfl rfl rfl rfl rfl
  refine ⟨fun howned hen hrange hold => ?_, fun howned hen => ?_, fun hno => weiApply_refused h hno⟩
  · obtain ⟨t, hexec, rfl, hothers, hregs⟩ := weiApply_sets h (State.weiRefuses_not howned fun _ => hrange)
    have hfull := (s.noted m Reg.WEI_CMD).meterSet_enabled (i := s.weiSel m) (s.weiWord m 1) (s.weiWord m 2) (s.weiWord m 3) (s.weiWord m 4) hen
      ((congrArg Meter.en (s.meter_noted ..)).trans hold)
    rw [State.now, State.noted_frcNs] at hfull
    exact ⟨_, hexec, hfull, hothers, hregs⟩
  · obtain ⟨t, hexec, rfl, hothers, hregs⟩ := weiApply_sets h
      (State.weiRefuses_not howned fun hon => absurd (hen.symm.trans hon) Bool.false_ne_true)
    have hkept := (s.noted m Reg.WEI_CMD).meterSet_disabled (i := s.weiSel m) (s.weiWord m 1) (s.weiWord m 2) (s.weiWord m 3) (s.weiWord m 4) hen
    rw [s.meter_noted] at hkept
    exact ⟨_, hexec, (congrArg Meter.en hkept).trans hen, congrArg Meter.d1 hkept, congrArg Meter.tc hkept, hothers, hregs⟩

end
section
/-! Verification of preemption (R149) and PAUSE (R151, R152) at an egress port. -/

namespace Sys2Proof.Machine

theorem regsBut.rb {ks : List Nat} {s t : State} (h : regsBut ks s t) {a : Nat} (ha : a ∉ ks) (ho : 0x5000 ≤ a) (i : Nat) : t.rb a i = s.rb a i :=
  congrArg (bit · i) (h a ha (.inr ho))

/-! ### The registers of an egress port -/

theorem egsStat_other (p : Nat) :
    Reg.EGS_PORT_STAT p ∉ [Reg.EGS_VERIFY_FAIL p, Reg.INT_RAW (pageBase .egs p)] ∧ 0x5000 ≤ Reg.EGS_PORT_STAT p := by
  show 0x30084 + 0x1000 * p ∉ [0x301A4 + 0x1000 * p, 0x30000 + 0x1000 * p + 0x18] ∧ 0x5000 ≤ 0x30084 + 0x1000 * p
  simp only [List.mem_cons, List.not_mem_nil, or_false]
  omega

theorem egsRaw_other (p : Nat) : Reg.INT_RAW (pageBase .egs p) ≠ Reg.EGS_VERIFY_FAIL p ∧ Reg.INT_RAW (pageBase .egs p) ∉ [Reg.EGS_PORT_STAT p] ∧
    0x5000 ≤ Reg.INT_RAW (pageBase .egs p) := by
  show 0x30000 + 0x1000 * p + 0x18 ≠ 0x301A4 + 0x1000 * p ∧ 0x30000 + 0x1000 * p + 0x18 ∉ [0x30084 + 0x1000 * p] ∧
    0x5000 ≤ 0x30000 + 0x1000 * p + 0x18
  simp only [List.mem_cons, List.not_mem_nil, or_false]
  omega

/-! ### The verify timer -/

theorem verifyTimer_repeats {p : Nat} {s : State} (h : s.rf (Reg.EGS_PORT_STAT p) 2 2 = 1) (htries : (s.eg p).tries < 3) :
    Completes (.verifyTimer p) s fun t =>
      (t.eg p).tries = (s.eg p).tries + 1 ∧ t.out = s.out ++ [.verify p] ∧ t.regs = s.regs := by
  refine ⟨s.verifyTimer p, rfl, ?_⟩
  unfold State.verifyTimer
  rw [if_neg (not_not_intro h), if_pos htries]
  exact ⟨congrArg Egr.tries ((State.eg_setEg ..).trans (if_pos rfl)), rfl, rfl⟩

theorem verifyTimer_fails {p : Nat} {s : State} (h : s.rf (Reg.EGS_PORT_STAT p) 2 2 = 1) (htries : 3 ≤ (s.eg p).tries) :
    Completes (.verifyTimer p) s fun t =>
      t.rf (Reg.EGS_PORT_STAT p) 2 2 = 3 ∧ t.rd (Reg.EGS_VERIFY_FAIL p) = evtNext (s.rd (Reg.EGS_VERIFY_FAIL p)) ∧
      t.rb (Reg.INT_RAW (pageBase .egs p)) Irq.EGS_VERIFY_FAIL = true ∧ t.preemptActive p = s.preemptActive p ∧
      regsBut [Reg.EGS_PORT_STAT p, Reg.EGS_VERIFY_FAIL p, Reg.INT_RAW (pageBase .egs p)] s t := by
  refine ⟨s.verifyTimer p, rfl, ?_⟩
  unfold State.verifyTimer
  rw [if_neg (not_not_intro h), if_neg (Nat.not_lt.mpr htries)]
  obtain ⟨hstat, hout⟩ := egsStat_other p
  obtain ⟨hraw, -, -⟩ := egsRaw_other p
  have hfail : Reg.EGS_PORT_STAT p ≠ Reg.EGS_VERIFY_FAIL p := fun e => hstat (e ▸ List.mem_cons_self)
  have hlost := (regsBut_evt (ks := [Reg.EGS_VERIFY_FAIL p, Reg.INT_RAW (pageBase .egs p)]) (s.wf (Reg.EGS_PORT_STAT p) 2 2 3)
    List.mem_cons_self).trans (regsBut_raiseAt _ (List.mem_cons_of_mem _ List.mem_cons_self) Irq.EGS_VERIFY_FAIL)
  refine ⟨?_, ?_, State.rb_raise _ _ _ (by decide), ?_, ?_⟩
  · exact (hlost.rf hstat (.inr hout) 2 2).trans (State.rf_wf_same _ _ _ (by decide))
  · rw [State.rd_raise, if_neg hraw, State.rd_evt, if_pos rfl, State.rd_wf_ne _ _ _ _ hfail]
  · exact (hlost.rb hstat hout 4).trans (State.rb_wf_other _ _ _ (by decide) (.inr (by decide)))
  · exact (regsBut_wf s List.mem_cons_self 2 2 3).trans (hlost.mono fun _ => List.mem_cons_of_mem _)

/-! ### A respond frame -/

/-- Preemption becomes active with its bit of EGS_PORT_STAT alone. -/
theorem State.preemptSet_on (s : State) (p : Nat) :
    (s.preemptSet p true).preemptActive p = true ∧ (s.preemptSet p true).rf (Reg.EGS_PORT_STAT p) 2 2 = s.rf (Reg.EGS_PORT_STAT p) 2 2 ∧
    regsBut [Reg.EGS_PORT_STAT p] s (s.preemptSet p true) := by
  unfold State.preemptSet
  split
  · next hon => exact ⟨hon, rfl, .of_regs rfl⟩
  · extract_lets u
    have hregs : u.regs = ((s.creditSync p).wf (Reg.EGS_PORT_STAT p) 4 1 1).regs := State.budDue_regs ..
    rw [if_pos rfl]
    refine ⟨?_, ?_, ?_⟩
    · unfold State.preemptActive State.rb
      rw [State.rd_congr hregs]
      exact State.rb_wf_same _ _ _ (by decide)
    · rw [State.rf_congr hregs, State.rf_wf_other _ _ _ (by decide) (.inl (by decide))]
      rfl
    · exact (regsBut_wf (s.creditSync p) List.mem_cons_self 4 1 1).trans (.of_regs hregs)

theorem verifyRespond_activates {p : Nat} {s : State} (h : s.rf (Reg.EGS_PORT_STAT p) 2 2 = 1) :
    Completes (.verifyRespond p) s fun t =>
      t.rf (Reg.EGS_PORT_STAT p) 2 2 = 2 ∧ t.preemptActive p = true ∧ regsBut [Reg.EGS_PORT_STAT p] s t := by
  refine ⟨s.verifyRespond p, rfl, ?_⟩
  unfold State.verifyRespond
  rw [if_pos h]
  obtain ⟨hactive, hverify, hrest⟩ := (s.wf (Reg.EGS_PORT_STAT p) 2 2 2).preemptSet_on p
  exact ⟨hverify.trans (State.rf_wf_same _ _ _ (by decide)), hactive, (regsBut_wf s List.mem_cons_self 2 2 2).trans hrest⟩

/-! ### What the counters of a received frame leave alone -/

theorem State.rd_stat_ne (s : State) {a k : Nat} (n : Nat) (h : a ≠ k) (h4 : a + 4 ≠ k) : (s.stat a n).rd k = s.rd k :=
  (State.rd_wr_ne _ _ h4).trans (State.rd_wr_ne _ _ h)

/-- The counters of a received frame are registers of the ports' own pages, from 0x80000 on. -/
theorem State.rd_countRx (s : State) (p : Nat) (b : List Byte) (ok : Bool) {k : Nat} (hk : k < 0x80000) : (s.countRx p b ok).rd k = s.rd k := by
  have hstat : ∀ (u : State) (a n : Nat), 0x80000 ≤ a → (u.stat a n).rd k = u.rd k := fun u a n ha =>
    u.rd_stat_ne n (by omega) (by omega)
  have hport : ∀ o, 0x80000 ≤ 0x80000 + o + 0x1000 * p := fun o => by omega
  unfold State.countRx
  split
  · rfl
  extract_lets n s1 d s2 s3
  have h1 : s1.rd k = s.rd k := (hstat _ _ _ (hport 0x108)).trans (hstat _ _ _ (hport 0x100))
  have h2 : s2.rd k = s.rd k := by
    refine (hstat _ _ _ ?_).trans h1
    split
    · exact hport 0x120
    · split
      · exact hport 0x118
      · exact hport 0x110
  have h3 : s3.rd k = s.rd k := by
    show (if ok = true then s2 else _ : State).rd k = _
    split
    · exact h2
    · exact (hstat _ _ _ (hport 0x128)).trans h2
  split
  · exact (hstat _ _ _ (hport 0x130)).trans h3
  · exact h3

theorem State.countRx_same (s : State) (p : Nat) (b : List Byte) (ok : Bool) :
    (s.countRx p b ok).egr = s.egr ∧ (s.countRx p b ok).frcNs = s.frcNs := by
  have hchg := State.countRx_chg (p := p) (b := b) (fcsOk := ok) (.self _) (.refl s)
  exact ⟨(hchg.same .egr (by decide)).symm, (hchg.same .frcNs (by decide)).symm⟩

/-! ### PAUSE -/

/-- The start of a pause, where none runs: the credits are brought up to date and PAUSE_START is raised. -/
def State.pauseBegun (s : State) (p : Nat) : State :=
  if s.paused p then s else (s.creditSync p).raise .egs p Irq.EGS_PAUSE_START

theorem State.pauseBegun_raises (s : State) (p : Nat) :
    (s.paused p = false → (s.pauseBegun p).rb (Reg.INT_RAW (pageBase .egs p)) Irq.EGS_PAUSE_START = true) ∧
    (s.pauseBegun p).frcNs = s.frcNs ∧ regsBut [Reg.INT_RAW (pageBase .egs p)] s (s.pauseBegun p) := by
  unfold State.pauseBegun
  split
  · next hon => exact ⟨fun hoff => absurd (hon.symm.trans hoff) (by decide), rfl, .of_regs rfl⟩
  · exact ⟨fun _ => State.rb_raise _ _ _ (by decide), State.raise_frcNs .., regsBut_raiseAt (s.creditSync p) List.mem_cons_self _⟩

/-- The registers of a pause of n quanta. -/
def State.pauseMarked (s : State) (p n : Nat) : State :=
  ((s.pauseBegun p).wf (Reg.EGS_PORT_STAT p) 0 1 1).wf (Reg.EGS_PORT_STAT p) 16 16 n

theorem State.pauseSet_quanta (s : State) (p : Nat) {n : Nat} (h0 : n ≠ 0) :
    s.pauseSet p n = (s.pauseMarked p n).setEg p { (s.pauseMarked p n).eg p with pauseAt := (s.pauseMarked p n).now } := if_neg h0

/-- A PAUSE of n quanta (R152). -/
theorem State.pauseSet_starts (s : State) (p : Nat) {n : Nat} (h0 : n ≠ 0) (hn : n < 2 ^ 16) :
    (s.pauseSet p n).paused p = true ∧ (s.pauseSet p n).rf (Reg.EGS_PORT_STAT p) 16 16 = n ∧ ((s.pauseSet p n).eg p).pauseAt = s.now ∧
    (s.paused p = false → (s.pauseSet p n).rb (Reg.INT_RAW (pageBase .egs p)) Irq.EGS_PAUSE_START = true) ∧
    regsBut [Reg.EGS_PORT_STAT p, Reg.INT_RAW (pageBase .egs p)] s (s.pauseSet p n) := by
  obtain ⟨hraised, hnow, hrest⟩ := s.pauseBegun_raises p
  obtain ⟨-, hraw, hout⟩ := egsRaw_other p
  have hstat : regsBut [Reg.EGS_PORT_STAT p] (s.pauseBegun p) (s.pauseMarked p n) :=
    (regsBut_wf _ List.mem_cons_self 0 1 1).trans (regsBut_wf _ List.mem_cons_self 16 16 n)
  rw [s.pauseSet_quanta p h0]
  refine ⟨?_, ?_, ?_, fun hoff => (hstat.rb hraw hout _).trans (hraised hoff), ?_⟩
  · exact (State.rb_wf_other _ _ _ (by decide) (.inl (by decide))).trans (State.rb_wf_same _ _ _ (by decide))
  · exact (State.rf_wf_same _ _ _ (by decide)).trans (Nat.mod_eq_of_lt hn)
  · rw [State.eg_setEg, if_pos rfl]
    exact congrArg BitVec.toNat hnow
  · exact ((hrest.mono fun _ => List.mem_cons_of_mem _).trans (hstat.mono fun k hk => List.mem_cons.mpr (.inl (List.mem_singleton.mp hk)))).trans
      (.of_regs rfl)

theorem quanta_lt (b : List Byte) (off : Nat) : beAt b off 2 < 2 ^ 16 := by
  unfold beAt ofBE
  rcases hl : (b.drop off).take 2 with _ | ⟨x, _ | ⟨y, _ | ⟨z, l⟩⟩⟩
  · decide
  · simp only [List.foldl_cons, List.foldl_nil]
    omega
  · simp only [List.foldl_cons, List.foldl_nil]
    omega
  · have := congrArg List.length hl
    simp only [List.length_take, List.length_cons] at this
    omega

/-- A received PAUSE frame has been counted on the port's two pages, and sets no pause yet. -/
def State.pauseCounted (s : State) (p : Nat) (b : List Byte) : State := (s.countRx p b true).stat (Reg.EGS_PAUSE_RX p) 1

section

variable (s : State) (p : Nat) (b : List Byte)

/-- The configuration and the state of the egress port lie before its counters. -/
theorem State.rd_pauseCounted {o : Nat} (ho : o < 0x180) (hp : p < 23) :
    (s.pauseCounted p b).rd (0x30000 + o + 0x1000 * p) = s.rd (0x30000 + o + 0x1000 * p) :=
  (State.rd_stat_ne _ 1 (by show 0x30180 + 0x1000 * p ≠ _; omega) (by show 0x30180 + 0x1000 * p + 4 ≠ _; omega)).trans
    (s.rd_countRx p b true (by omega))

theorem State.rd64_pauseCounted (hp : p < 23) :
    (s.pauseCounted p b).rd64 (Reg.EGS_PAUSE_RX p) = (s.stat (Reg.EGS_PAUSE_RX p) 1).rd64 (Reg.EGS_PAUSE_RX p) :=
  State.rd64_stat_congr (State.rd64_congr (s.rd_countRx p b true (by show 0x30180 + 0x1000 * p < 0x80000; omega))
    (s.rd_countRx p b true (by show 0x30180 + 0x1000 * p + 4 < 0x80000; omega))) 1

theorem State.pauseCounted_now : (s.pauseCounted p b).now = s.now :=
  congrArg BitVec.toNat ((State.stat_frcNs ..).trans (s.countRx_same p b true).2)

end

theorem pauseRx_other (p : Nat) : Reg.EGS_PAUSE_RX p ∉ [Reg.EGS_PORT_STAT p, Reg.INT_RAW (pageBase .egs p)] ∧
    Reg.EGS_PAUSE_RX p + 4 ∉ [Reg.EGS_PORT_STAT p, Reg.INT_RAW (pageBase .egs p)] ∧ 0x5000 ≤ Reg.EGS_PAUSE_RX p := by
  show 0x30180 + 0x1000 * p ∉ [0x30084 + 0x1000 * p, 0x30000 + 0x1000 * p + 0x18] ∧
    0x30180 + 0x1000 * p + 4 ∉ [0x30084 + 0x1000 * p, 0x30000 + 0x1000 * p + 0x18] ∧ 0x5000 ≤ 0x30180 + 0x1000 * p
  simp only [List.mem_cons, List.not_mem_nil, or_false]
  omega

theorem pauseFrameRx_pauses {p : Nat} {b : List Byte} {s : State} (hp : p < 23) (h : s.receives p = true) (hop : beAt b 14 2 = 1)
    (hquanta : beAt b 16 2 ≠ 0) (hlen : 64 ≤ b.length + 4) (hen : s.rb (Reg.EGS_PORT_CFG p) 0 = true) :
    Completes (.pauseFrameRx p b true) s fun t =>
      t.paused p = true ∧ t.rf (Reg.EGS_PORT_STAT p) 16 16 = beAt b 16 2 ∧ (t.eg p).pauseAt = s.now ∧
      t.rd64 (Reg.EGS_PAUSE_RX p) = (s.stat (Reg.EGS_PAUSE_RX p) 1).rd64 (Reg.EGS_PAUSE_RX p) ∧
      (s.paused p = false → t.rb (Reg.INT_RAW (pageBase .egs p)) Irq.EGS_PAUSE_START = true) := by
  have hcfg : (s.pauseCounted p b).rb (Reg.EGS_PORT_CFG p) 0 = true :=
    (congrArg (bit · 0) (s.rd_pauseCounted p b (o := 0x80) (by decide) hp)).trans hen
  have hpaused : (s.pauseCounted p b).paused p = s.paused p := congrArg (bit · 0) (s.rd_pauseCounted p b (o := 0x84) (by decide) hp)
  have htake : s.macControl p b true = (s.pauseCounted p b).pauseSet p (beAt b 16 2) := by
    unfold State.macControl State.macTake
    rw [if_pos h, if_pos hop]
    exact if_pos ⟨rfl, hlen, hcfg⟩
  obtain ⟨hon, hn, hsince, hstart, hrest⟩ := (s.pauseCounted p b).pauseSet_starts p hquanta (quanta_lt b 16)
  obtain ⟨hlow, hhigh, hout⟩ := pauseRx_other p
  exact ⟨_, congrArg Host.Outcome.next htake, hon, hn, hsince.trans (s.pauseCounted_now p b),
    (hrest.rd64 hlow hhigh hout).trans (s.rd64_pauseCounted p b hp), fun hoff => hstart (hpaused.trans hoff)⟩

/-- A MAC Control frame of another opcode is counted and has no other effect at the egress (R151). -/
theorem pauseFrameRx_other {p : Nat} {b : List Byte} {ok : Bool} {s : State} (hp : p < 23) (h : s.receives p = true) (hop : beAt b 14 2 ≠ 1) :
    Completes (.pauseFrameRx p b ok) s fun t =>
      t.rd (Reg.EGS_PFC_RX p) = evtNext (s.rd (Reg.EGS_PFC_RX p)) ∧ t.rd (Reg.EGS_PORT_STAT p) = s.rd (Reg.EGS_PORT_STAT p) ∧ t.egr = s.egr := by
  obtain ⟨hegr, -⟩ := s.countRx_same p b ok
  have htake : s.macControl p b ok = (s.countRx p b ok).evt (Reg.EGS_PFC_RX p) := by
    unfold State.macControl State.macTake
    rw [if_pos h, if_neg hop]
  refine ⟨_, congrArg Host.Outcome.next htake, ?_, ?_, (State.evt_egr ..).trans hegr⟩
  · rw [State.rd_evt, if_pos rfl, State.rd_countRx _ _ _ _ (by show 0x301A0 + 0x1000 * p < 0x80000; omega)]
  · rw [State.rd_evt, if_neg (by show 0x301A0 + 0x1000 * p ≠ 0x30084 + 0x1000 * p; omega),
      State.rd_countRx _ _ _ _ (by show 0x30084 + 0x1000 * p < 0x80000; omega)]

theorem pauseExpire_ends {p : Nat} {s : State} (h : s.paused p = true) :
    Completes (.pauseExpire p) s fun t =>
      t.paused p = false ∧ t.rf (Reg.EGS_PORT_STAT p) 16 16 = 0 ∧ t.preemptActive p = s.preemptActive p ∧
      regsBut [Reg.EGS_PORT_STAT p] s t := by
  refine ⟨s.pauseEnd p, rfl, ?_⟩
  unfold State.pauseEnd
  rw [if_pos h]
  refine ⟨?_, State.rf_wf_same _ _ _ (by decide), ?_, ?_⟩
  · exact (State.rb_wf_other _ _ _ (by decide) (.inl (by decide))).trans (State.rb_wf_same _ _ _ (by decide))
  · exact (State.rb_wf_other _ _ _ (by decide) (.inl (by decide))).trans (State.rb_wf_other _ _ _ (by decide) (.inr (by decide)))
  · exact (regsBut_wf (s.creditSync p) List.mem_cons_self 0 1 0).trans (regsBut_wf _ List.mem_cons_self 16 16 0)

end Sys2Proof.Machine

open Sys2Proof Sys2Proof.Machine

/-- Settles O23: the verify timer repeats or gives up, a respond frame activates preemption, and a pause begins and ends. -/
theorem verificationAndPause : Obligations.VerificationAndPause := by
  unfold Obligations.VerificationAndPause
  exact ⟨fun p s _ h htries => verifyTimer_repeats h htries,
    fun p s _ h htries => verifyTimer_fails h htries,
    fun p s _ h => verifyRespond_activates h,
    fun p b s hp h _ hop hquanta hlen hen => pauseFrameRx_pauses hp h hop hquanta hlen hen,
    fun p b ok s hp h hop => pauseFrameRx_other hp h hop,
    fun p s _ h => pauseExpire_ends h⟩

end
section
/-! A CAN channel whose EN was written 0 while it receives (R240): at the end of the frame it stops, and is then in CONFIG with TEC and REC 0.
Reception and a receiver's error are such ends. -/

namespace Sys2Proof.Machine.StoppingChannel

/-- An ACTIVE channel with REC 1 that receives its last frame. -/
def channel : CanSt := { CanSt.reset with estate := 2, rec_ := 1, stopping := true }

/-- After reset, with the forwarding domain and the CAN path on: channel 0, whose level 1 accepts what no entry matches, is about to stop. -/
def before : State :=
  ((State.reset.setPwr { State.reset.pwr with fwdOn := true, canPath := true }).wr (Reg.CAN_L1_CFG 0) 0x10000000).setCch 0 channel

/-- A classical frame of two bytes. -/
def frame : List Byte := busMk 0 0x123 0 0x2002 [7, 9]

/-- What the end of the frame makes of it. -/
def received : State := (before.canRx 0 frame).settle

/-- What a stuff error in the frame makes of it. -/
def disturbed : State := before.canRxErr 0 2 false 0x123 1

theorem exec_canFrameRx : exec (.canFrameRx 0 frame) before = .next received := rfl

theorem exec_canBusError : exec (.canBusError 0 2 false 0x123 1) before = .next disturbed := rfl

theorem no_l0Match : ∀ k, k < 4 → before.l0Match 0 k (before.canSeen 0 frame) = false := by decide +kernel

theorem l1Accept_frame : before.l1Accept 0 (before.canSeen 0 frame) = true := by decide +kernel

theorem received_config : (received.cch 0).estate = 0 := by decide +kernel

theorem disturbed_config : (disturbed.cch 0).estate = 0 := by decide +kernel

end Sys2Proof.Machine.StoppingChannel

open Sys2Proof Sys2Proof.Machine

/-- Refutes O38: its first clause does not ask that the channel goes on. One whose EN was written 0 while it received the frame is in CONFIG
after it, where the clause says ACTIVE. -/
theorem not_canFramesAreReceivedAndFiltered : ¬ Obligations.CanFramesAreReceivedAndFiltered := by
  unfold Obligations.CanFramesAreReceivedAndFiltered
  rintro ⟨⟨receives, -⟩, -⟩
  obtain ⟨t, hexec, u, ⟨hchannel, -⟩, -, -, hsame, -⟩ := receives 0 StoppingChannel.frame StoppingChannel.before (by decide) rfl rfl rfl
    (by decide) (by decide) (by decide) rfl rfl StoppingChannel.no_l0Match StoppingChannel.l1Accept_frame (by decide)
  rw [StoppingChannel.exec_canFrameRx, Host.Outcome.next.injEq] at hexec
  have hcan : u.can = t.can := hsame .can (by decide)
  have hestate : (t.cch 0).estate = 2 := by
    unfold State.cch at hchannel ⊢
    rw [← hcan, hchannel]
    rfl
  rw [← hexec, StoppingChannel.received_config] at hestate
  cases hestate

/-- Refutes O40: its first clause does not ask that the channel goes on. One whose EN was written 0 while it received the disturbed frame is
in CONFIG after the error, where the clause says ACTIVE. -/
theorem not_canErrorConfinement : ¬ Obligations.CanErrorConfinement := by
  unfold Obligations.CanErrorConfinement
  rintro ⟨busError, -⟩
  obtain ⟨t, hexec, hchannel, -⟩ := busError 0 2 false 0x123 1 StoppingChannel.before (by decide) rfl (by decide) (by decide) (by decide)
    (by decide) (by decide) rfl
  rw [StoppingChannel.exec_canBusError, Host.Outcome.next.injEq] at hexec
  have hestate : (t.cch 0).estate = 2 := congrArg CanSt.estate hchannel
  rw [← hexec, StoppingChannel.disturbed_config] at hestate
  cases hestate

end
section
/-! CAN_ARBITRATION while PRE_SLEEP waits for the buses to be silent (R237, R395 step 4): the channel's own frame is activity, so the bus is
no longer among the silent ones. -/

namespace Sys2Proof.Machine.SilenceBroken

/-- A linked copy of a classical frame of two bytes. -/
def copy : TxlItem := ⟨4, 0, busMk 0 0x123 0 0x2002 [7, 9], 0, 0⟩

/-- After reset, with the forwarding domain on and the sequencer in PRE_SLEEP: CAN bus 0 counts as silent, and channel 0 is ACTIVE with one
copy to send. -/
def before : State :=
  (State.reset.setPwr { State.reset.pwr with fwdOn := true, seq := 1, quiet := [0] }).setCch 0 { CanSt.reset with estate := 2, txl := [copy] }

/-- What the arbitration makes of it. -/
def after : State := before.canArbitrate 0

theorem exec_before : exec (.canArbitration 0) before = .next after := rfl

/-- The bus is silent no more. -/
theorem after_quiet : after.pwr.quiet = [] := by decide +kernel

end Sys2Proof.Machine.SilenceBroken

open Sys2Proof Sys2Proof.Machine

/-- Refutes O39: its clause on an arbitration says that only the channel changes. In PRE_SLEEP a channel that offers a copy also ends the
silence of its bus, which the sequencer has noted. -/
theorem not_canTransmitListSends : ¬ Obligations.CanTransmitListSends := by
  unfold Obligations.CanTransmitListSends
  rintro ⟨-, -, arbitrates, -⟩
  have hyoung : ∀ j ∈ (SilenceBroken.before.cch 0).txl, SilenceBroken.before.txlOld 0 j = false := by decide +kernel
  obtain ⟨t, hexec, i, -, -, ht⟩ := arbitrates 0 SilenceBroken.before (by decide) rfl hyoung (by decide)
  rw [SilenceBroken.exec_before, Host.Outcome.next.injEq] at hexec
  have hquiet : t.pwr.quiet = [0] := by rw [ht]; rfl
  rw [← hexec, SilenceBroken.after_quiet] at hquiet
  cases hquiet

end
section
/-! CFL_ITEM_COMPLETE while a transfer to a joining partner waits for the work item (R364): it is made as soon as no item is in progress. -/

namespace Sys2Proof.Machine.TransferAtItemEnd

/-- After reset, with the forwarding domain on, the unit PRIMARY in a twin and the FRC in window 5: the transfer of that window is due, and an
item of PDU 7 that sends nothing is in progress. -/
def before : State :=
  { State.reset with
    frcNs := 5000000
    pwr := { State.reset.pwr with fwdOn := true }
    twn := { TwnSt.reset with state := 4, capture := some 5 }
    cfl := { CflSt.reset with item := some (7, []) } }

/-- What the item's completion makes of it. -/
def after : State := before.cflDone.syncCapture.settle

theorem exec_before : exec .cflItemComplete before = .next after := rfl

/-- The transfer has been made. -/
theorem after_capture : after.twn.capture = none := by decide +kernel

end Sys2Proof.Machine.TransferAtItemEnd

open Sys2Proof Sys2Proof.Machine

/-- Refutes O42: its clause on an item's completion says that only the item and what it presents change. In a PRIMARY whose transfer to a
joining partner was due and waited for the item, the completion also makes that transfer. -/
theorem not_confluenceRunsWorkItems : ¬ Obligations.ConfluenceRunsWorkItems := by
  unfold Obligations.ConfluenceRunsWorkItems
  rintro ⟨-, -, -, -, -, -, -, completes⟩
  obtain ⟨t, hexec, u, ⟨-, hinj, hsame⟩, -, hidle, -⟩ := completes 7 [] TransferAtItemEnd.before rfl
  rw [TransferAtItemEnd.exec_before, Host.Outcome.next.injEq] at hexec
  have htwn : TransferAtItemEnd.before.twn = u.twn := hsame .twn (by decide)
  have hcapture : t.twn.capture = some 5 := by
    rw [hidle hinj, ← htwn]
    rfl
  rw [← hexec, TransferAtItemEnd.after_capture] at hcapture
  cases hcapture

end
section
/-! Fields of a payload (R252): the positions a field's walk visits differ, so what is put by it reads back. -/

namespace Sys2Proof.Machine

/-! ### One bit -/

theorem paySet_length (b : List Byte) (p v : Nat) : (paySet b p v).length = b.length := by
  unfold paySet
  split
  · rfl
  · exact List.length_set

/-- A payload's bit after one of its bits was written. -/
theorem payBit_paySet {b : List Byte} {p : Nat} (hp : p / 8 < b.length) (v q : Nat) :
    payBit (paySet b p v) q = if q = p then v % 2 else payBit b q := by
  have hset : paySet b p v = b.set (p / 8) (setFld b[p / 8] (p % 8) 1 v) := by
    unfold paySet
    rw [List.getElem?_eq_getElem hp]
  rw [hset]
  by_cases hbyte : q / 8 = p / 8
  · have hread (x : Byte) : payBit (b.set (p / 8) x) q = fld x (q % 8) 1 := by
      show fld ((b.set (p / 8) x).getD (q / 8) 0) (q % 8) 1 = _
      rw [hbyte, List.getD_eq_getElem?_getD, List.getElem?_set_self hp, Option.getD_some]
    have hold : payBit b q = fld b[p / 8] (q % 8) 1 := by
      show fld (b.getD (q / 8) 0) (q % 8) 1 = _
      rw [hbyte, List.getD_eq_getElem?_getD, List.getElem?_eq_getElem hp, Option.getD_some]
    rw [hread, hold]
    split
    · next h => rw [h, fld_setFld_same _ _ (by omega), Nat.pow_one]
    · exact fld_setFld_ne _ _ (by omega) (by omega)
  · rw [if_neg (fun h => hbyte (by rw [h]))]
    show fld ((b.set (p / 8) _).getD (q / 8) 0) (q % 8) 1 = fld (b.getD (q / 8) 0) (q % 8) 1
    rw [List.getD_eq_getElem?_getD, List.getD_eq_getElem?_getD, List.getElem?_set_ne (Ne.symm hbyte)]

/-! ### A walk -/

/-- The writes of a field's bits along a walk. -/
def walkPut (b : List Byte) (l : List (Nat × Nat)) (v : Nat) : List Byte := l.foldl (fun b x => paySet b x.2 (fldN v x.1 1)) b

theorem payPut_eq (b : List Byte) (start len : Nat) (big : Bool) (v : Nat) : payPut b start len big v = walkPut b (bitWalk start len big) v := rfl

/-- A position that the walk does not visit keeps its bit. -/
theorem payBit_walkPut_ne {b : List Byte} {l : List (Nat × Nat)} (hfits : ∀ x ∈ l, x.2 / 8 < b.length) (v : Nat) {q : Nat}
    (hq : ∀ x ∈ l, q ≠ x.2) : payBit (walkPut b l v) q = payBit b q := by
  induction l generalizing b with
  | nil => rfl
  | cons x l ih =>
    obtain ⟨hx, hl⟩ := List.forall_mem_cons.mp hfits
    obtain ⟨hqx, hql⟩ := List.forall_mem_cons.mp hq
    calc payBit (walkPut (paySet b x.2 (fldN v x.1 1)) l v) q
        = payBit (paySet b x.2 (fldN v x.1 1)) q := ih (by rwa [paySet_length]) hql
      _ = payBit b q := by rw [payBit_paySet hx, if_neg hqx]

/-- A position that the walk visits once holds its bit of the value. -/
theorem payBit_walkPut_mem {b : List Byte} {l : List (Nat × Nat)} (hfits : ∀ x ∈ l, x.2 / 8 < b.length) (hdiff : (l.map Prod.snd).Nodup)
    (v : Nat) {x : Nat × Nat} (hx : x ∈ l) : payBit (walkPut b l v) x.2 = fldN v x.1 1 := by
  induction l generalizing b with
  | nil => cases hx
  | cons y l ih =>
    obtain ⟨hy, hl⟩ := List.forall_mem_cons.mp hfits
    rw [List.map_cons, List.nodup_cons] at hdiff
    obtain ⟨hnew, hdiff⟩ := hdiff
    have hl' : ∀ z ∈ l, z.2 / 8 < (paySet b y.2 (fldN v y.1 1)).length := by rwa [paySet_length]
    rcases List.mem_cons.mp hx with rfl | hx
    · have hkept := payBit_walkPut_ne hl' v (q := x.2) fun z hz h => hnew (h ▸ List.mem_map_of_mem hz)
      rw [show walkPut b (x :: l) v = walkPut (paySet b x.2 (fldN v x.1 1)) l v from rfl, hkept, payBit_paySet hy, if_pos rfl]
      exact Nat.mod_mod ..
    · exact ih hl' hdiff hx

/-! ### The positions of a walk -/

/-- The place of a payload bit in the order of a big-endian walk: byte after byte, from bit 7 down. -/
def bePlace (p : Nat) : Nat := p / 8 * 8 + (7 - p % 8)

theorem bePlace_next (p : Nat) : bePlace (if p % 8 = 0 then p + 15 else p - 1) = bePlace p + 1 := by
  unfold bePlace
  split <;> omega

theorem bePlace_le_of_mem {n p : Nat} {x : Nat × Nat} (hx : x ∈ bitWalkBE n p) : bePlace p ≤ bePlace x.2 := by
  induction n generalizing p with
  | zero => cases hx
  | succ n ih =>
    rcases List.mem_cons.mp hx with rfl | hx
    · exact Nat.le_refl _
    · have hrest := ih hx
      rw [bePlace_next] at hrest
      omega

theorem bitWalkBE_nodup (n p : Nat) : ((bitWalkBE n p).map Prod.snd).Nodup := by
  induction n generalizing p with
  | zero => exact List.nodup_nil
  | succ n ih =>
    refine List.nodup_cons.mpr ⟨fun hmem => ?_, ih _⟩
    obtain ⟨x, hx, hpos⟩ := List.mem_map.mp hmem
    have hafter := bePlace_le_of_mem hx
    rw [bePlace_next, hpos] at hafter
    exact Nat.not_succ_le_self _ hafter

theorem bitWalk_nodup (start len : Nat) (big : Bool) : ((bitWalk start len big).map Prod.snd).Nodup := by
  cases big with
  | true => exact bitWalkBE_nodup len start
  | false =>
    show (((List.range len).map fun i => (i, start + i)).map Prod.snd).Nodup
    rw [List.map_map]
    exact List.pairwise_map.mpr (List.nodup_range.imp fun hne h => hne (Nat.add_left_cancel h))

/-! ### The value a walk collects -/

/-- The sum of the bits of a value that a walk names. -/
def walkSum (v : Nat) (l : List (Nat × Nat)) : Nat := (l.map fun x => fldN v x.1 1 * 2 ^ x.1).sum

theorem sumN_eq_sum (l : List Nat) : sumN l = l.sum := List.sum_eq_foldl.symm

/-- The bit above the low n is what n + 1 bits have more. -/
theorem mod_two_pow_add_bit (v n : Nat) : fldN v n 1 * 2 ^ n + v % 2 ^ n = v % 2 ^ (n + 1) := by
  unfold fldN
  rw [Nat.shiftRight_eq_div_pow, Nat.pow_one, Nat.pow_succ, Nat.mod_mul (a := 2 ^ n), Nat.mul_comm, Nat.add_comm]

theorem walkSum_bitWalkBE (v n p : Nat) : walkSum v (bitWalkBE n p) = v % 2 ^ n := by
  induction n generalizing p with
  | zero => exact (Nat.mod_one v).symm
  | succ n ih => rw [← mod_two_pow_add_bit, ← ih]; rfl

theorem walkSum_bitWalk (v start len : Nat) (big : Bool) : walkSum v (bitWalk start len big) = v % 2 ^ len := by
  cases big with
  | true => exact walkSum_bitWalkBE v len start
  | false =>
    induction len with
    | zero => exact (Nat.mod_one v).symm
    | succ n ih =>
      have hlast : walkSum v (bitWalk start (n + 1) false) = walkSum v (bitWalk start n false) + fldN v n 1 * 2 ^ n := by
        simp [walkSum, bitWalk, List.range_succ]
      rw [hlast, ih, Nat.add_comm, mod_two_pow_add_bit]

/-- A field that is put into a payload reads back (R252). -/
theorem payField_payPut {b : List Byte} {start len : Nat} {big : Bool} (hfits : ∀ x ∈ bitWalk start len big, x.2 / 8 < b.length) (v : Nat) :
    payField (payPut b start len big v) start len big = v % 2 ^ len := by
  calc payField (payPut b start len big v) start len big
      = ((bitWalk start len big).map fun x => payBit (walkPut b (bitWalk start len big) v) x.2 * 2 ^ x.1).sum := sumN_eq_sum _
    _ = walkSum v (bitWalk start len big) := congrArg List.sum (List.map_congr_left fun x hx => by
        rw [payBit_walkPut_mem hfits (bitWalk_nodup start len big) v hx])
    _ = v % 2 ^ len := walkSum_bitWalk v start len big

end Sys2Proof.Machine
end
section
/-! SOURCEs (R253): a value in range is stored, one out of range is counted and handled by the entry's action. -/

namespace Sys2Proof.Machine

/-! ### What the consumption of a signal and its event leave alone -/

theorem State.sleepSignal_cfl (s : State) (i v : Nat) : (s.sleepSignal i v).cfl = s.cfl :=
  ((State.sleepSignal_chg (Within.self _) (Chg.refl s)).same .cfl (by decide)).symm

theorem State.cflEvent_cfl (s : State) (kind i : Nat) (isSignal : Bool) : (s.cflEvent kind i isSignal).cfl = s.cfl :=
  ((State.cflEvent_chg (Within.self _) (Chg.refl s)).same .cfl (by decide)).symm

/-- The modes of the wake sources are registers of the AON page. -/
theorem State.rd_wupModes (s : State) {k : Nat} (hk : 0x3000 ≤ k) : s.wupModes.rd k = s.rd k := by
  unfold State.wupModes
  split
  · rfl
  · refine List.foldlRecOn (motive := fun t : State => t.rd k = s.rd k) _ _ rfl fun t ht i hi => ?_
    have hlast : i < 8 := List.mem_range.mp hi
    have hmode : Reg.AON_WSRC_CFG (32 + i) ≠ k := by
      show 0x2100 + 0x4 * (32 + i) ≠ k
      omega
    unfold State.rearm
    rw [if_neg (by omega : ¬ 32 + i < 32), State.rd_setPwr, State.rd_wf_ne _ _ _ _ (by show 0x20DC ≠ k; omega), State.rd_wf_ne _ _ _ _ hmode, ht]

/-- QUIESCE_REQ is a bit of BLK_CTRL, a word of the page header. -/
theorem State.rd_askQuiet (s : State) (l : List Nat) {k : Nat} (hk : k % 0x1000 ≠ 0x10) : (s.askQuiet l).rd k = s.rd k := by
  unfold State.askQuiet
  refine List.foldlRecOn (motive := fun t : State => t.rd k = s.rd k) _ _ rfl fun t ht pg _ => ?_
  rw [State.rd_wf_ne _ _ _ _ (by show pg * 0x1000 + 0x10 ≠ k; omega), ht]

/-- A sleep that a signal requests changes registers of the AON page and page headers only. -/
theorem State.rd_sleepSignal (s : State) (i v : Nat) {k : Nat} (hk : 0x3000 ≤ k) (hhead : k % 0x1000 ≠ 0x10) :
    (s.sleepSignal i v).rd k = s.rd k := by
  have hpre : (s.preSleep 2).rd k = s.rd k := by
    unfold State.preSleep
    rw [State.rd_setPwr, State.rd_wr_ne _ _ (by show 0x20C8 ≠ k; omega), State.rd_askQuiet _ _ hhead, State.rd_wupModes _ hk]
  unfold State.sleepSignal State.signalSleep
  dsimp only
  split
  · split
    · exact hpre
    · split <;> rfl
  · rfl

theorem State.rd_cflEvent (s : State) (kind i : Nat) (isSignal : Bool) {k : Nat} (hcap : Reg.CFL_EVT_CAP ≠ k)
    (hraw : Reg.INT_RAW (pageBase .cfl 0) ≠ k) : (s.cflEvent kind i isSignal).rd k = s.rd k := by
  have hraised (w : Word) : ((s.wr Reg.CFL_EVT_CAP w).raise .cfl 0 kind).rd k = s.rd k := by
    rw [State.rd_raise, if_neg hraw, State.rd_wr_ne _ _ hcap]
  unfold State.cflEvent
  dsimp only
  split
  · rw [State.rd_logEvt, hraised]
  · exact hraised _

/-! ### An extraction -/

/-- The value that a SOURCE reads from a payload. -/
def sigRead (e : BitVec 512) (pay : List Byte) : Int :=
  if sigSigned e then sext (sigLen e) (payField pay (sigStart e) (sigLen e) (sigBig e))
  else (payField pay (sigStart e) (sigLen e) (sigBig e) : Int)

/-- A value is out of range for a SOURCE that checks its range. -/
def sigOut (e : BitVec 512) (r : Int) : Bool :=
  decide (fld e 23 2 ≠ 0) && (decide (r < sigValue e (fld e 32 32)) || decide (sigValue e (fld e 64 32) < r))

theorem sigOut_iff {e : BitVec 512} {r : Int} :
    sigOut e r = true ↔ fld e 23 2 ≠ 0 ∧ (r < sigValue e (fld e 32 32) ∨ sigValue e (fld e 64 32) < r) := by
  simp only [sigOut, Bool.and_eq_true, Bool.or_eq_true, decide_eq_true_eq]

/-- What a SOURCE holds after a value out of range, by its action. -/
def State.srcOut (s : State) (i : Nat) (e : BitVec 512) (r : Int) : SrcVal :=
  ⟨if fld e 23 2 = 1 then s.srcStored i e
    else if fld e 23 2 = 2 then unsext 32 (if r < sigValue e (fld e 32 32) then sigValue e (fld e 32 32) else sigValue e (fld e 64 32))
    else fld e 96 32,
    false, false, decide (fld e 23 2 = 3) || (decide (fld e 23 2 = 1) && (s.src i).subst), true, s.now⟩

theorem State.srcTake_of_in {i : Nat} {e : BitVec 512} {pay : List Byte} (s : State) (h : sigOut e (sigRead e pay) = false) :
    s.srcTake i e pay =
      (s.setSrc i ⟨unsext 32 (sigRead e pay), false, false, false, false, s.now⟩).sleepSignal i (unsext 32 (sigRead e pay)) := by
  unfold sigOut sigRead at h
  unfold State.srcTake sigRead
  simp only [h]
  rfl

theorem State.srcTake_of_out {i : Nat} {e : BitVec 512} {pay : List Byte} (s : State) (h : sigOut e (sigRead e pay) = true) :
    s.srcTake i e pay =
      (((s.setSrc i (s.srcOut i e (sigRead e pay))).sleepSignal i (s.srcOut i e (sigRead e pay)).value).evt Reg.CFL_RANGE).cflEvent
        Irq.CFL_RANGE i true := by
  unfold sigOut sigRead at h
  unfold State.srcTake State.srcOut sigRead
  simp only [h]
  rfl

theorem State.src_srcTake_of_in {i : Nat} {e : BitVec 512} {pay : List Byte} (s : State) (h : sigOut e (sigRead e pay) = false) (j : Nat) :
    (s.srcTake i e pay).src j = if i = j then ⟨unsext 32 (sigRead e pay), false, false, false, false, s.now⟩ else s.src j := by
  rw [s.srcTake_of_in h, State.src_congr (State.sleepSignal_cfl ..), State.src_setSrc]

theorem State.src_srcTake_of_out {i : Nat} {e : BitVec 512} {pay : List Byte} (s : State) (h : sigOut e (sigRead e pay) = true) :
    (s.srcTake i e pay).src i = s.srcOut i e (sigRead e pay) := by
  rw [s.srcTake_of_out h, State.src_congr (State.cflEvent_cfl ..), State.src_congr (State.evt_cfl ..),
    State.src_congr (State.sleepSignal_cfl ..), State.src_setSrc, if_pos rfl]

/-- A value out of range is counted. -/
theorem State.rd_srcTake_of_out {i : Nat} {e : BitVec 512} {pay : List Byte} (s : State) (h : sigOut e (sigRead e pay) = true) :
    (s.srcTake i e pay).rd Reg.CFL_RANGE = evtNext (s.rd Reg.CFL_RANGE) := by
  rw [s.srcTake_of_out h, State.rd_cflEvent _ _ _ _ (by decide) (by decide), State.rd_evt, if_pos rfl,
    State.rd_sleepSignal _ _ _ (by decide) (by decide), State.rd_setSrc]

/-! ### The actions on a value out of range -/

theorem State.srcOut_keeps {i : Nat} {e : BitVec 512} (s : State) (r : Int) (hact : fld e 23 2 = 1) :
    s.srcOut i e r = ⟨s.srcStored i e, false, false, (s.src i).subst, true, s.now⟩ := by
  simp [State.srcOut, hact]

theorem State.srcOut_clamps {i : Nat} {e : BitVec 512} (s : State) (r : Int) (hact : fld e 23 2 = 2) :
    s.srcOut i e r = ⟨unsext 32 (if r < sigValue e (fld e 32 32) then sigValue e (fld e 32 32) else sigValue e (fld e 64 32)),
      false, false, false, true, s.now⟩ := by
  simp [State.srcOut, hact]

theorem State.srcOut_substitutes {i : Nat} {e : BitVec 512} (s : State) (r : Int) (hact : fld e 23 2 = 3) :
    s.srcOut i e r = ⟨fld e 96 32, false, false, true, true, s.now⟩ := by
  simp [State.srcOut, hact]

end Sys2Proof.Machine

open Sys2Proof Sys2Proof.Machine

/-- Settles O43: a SOURCE takes its field by its entry's action, and a field reads back as it was put. -/
theorem signalsTakeAndPutTheirFields : Obligations.SignalsTakeAndPutTheirFields := by
  unfold Obligations.SignalsTakeAndPutTheirFields
  refine ⟨fun i e pay s r hr hin => ?_, fun i e pay s r hr hrange => ?_, fun b start len big v hfits => payField_payPut hfits v⟩
  · obtain rfl : r = sigRead e pay := hr
    have hgood : sigOut e (sigRead e pay) = false := by
      rw [Bool.eq_false_iff, Ne, sigOut_iff]
      omega
    exact ⟨(s.src_srcTake_of_in hgood i).trans (if_pos rfl), fun j hj => (s.src_srcTake_of_in hgood j).trans (if_neg (Ne.symm hj))⟩
  · obtain rfl : r = sigRead e pay := hr
    have hout (hact : fld e 23 2 ≠ 0) : sigOut e (sigRead e pay) = true := sigOut_iff.mpr ⟨hact, hrange⟩
    have hsrc (hact : fld e 23 2 ≠ 0) := s.src_srcTake_of_out (i := i) (hout hact)
    exact ⟨fun hact => (hsrc (by omega)).trans (s.srcOut_keeps _ hact),
      fun hact => (hsrc (by omega)).trans (s.srcOut_clamps _ hact),
      fun hact => (hsrc (by omega)).trans (s.srcOut_substitutes _ hact),
      fun hact => s.rd_srcTake_of_out (hout hact)⟩

end
section
/-! What the time unit's operations leave alone: the domains and the registers (R276-R282, R287). -/

namespace Sys2Proof.Machine

/-! ### The records that a register's operation leaves alone -/

@[simp] theorem State.dom_evt (s : State) (a e : Nat) : (s.evt a).dom e = s.dom e := State.dom_congr (State.evt_tim s a) e

@[simp] theorem State.dom_wr (s : State) (a : Nat) (v : Word) (e : Nat) : (s.wr a v).dom e = s.dom e := rfl

@[simp] theorem State.dom_stat (s : State) (a n e : Nat) : (s.stat a n).dom e = s.dom e := State.dom_congr (State.stat_tim s a n) e

@[simp] theorem State.dom_raise (s : State) (b : Blk) (inst i e : Nat) : (s.raise b inst i).dom e = s.dom e :=
  State.dom_congr (State.raise_tim s b inst i) e

@[simp] theorem State.pd_stat (s : State) (a n p : Nat) : (s.stat a n).pd p = s.pd p := State.pd_congr (State.stat_tim s a n) p

theorem regsBut_raise {ks : List Nat} (s : State) {b : Blk} {inst : Nat} (ha : Reg.INT_RAW (pageBase b inst) ∈ ks) (i : Nat) :
    regsBut ks s (s.raise b inst i) := regsBut_raiseAt s ha i

/-! ### Transitions and steps of a domain -/

/-- A state entered replaces the state, I on UNSYNC and LOCK_RUN on SETTLING (Table 10-1). -/
theorem State.dom_domEnter (s : State) (d new : Nat) :
    (s.domEnter d new).dom d = { s.dom d with
      state := new, integ := if new = 1 then 0 else (s.dom d).integ, lockRun := if new = 2 then 0 else (s.dom d).lockRun } := by
  have hdom (c : Prop) [Decidable c] (u : State) (i : Nat) : (if c then u.raise .dom d i else u).dom d = u.dom d := by split <;> simp
  unfold State.domEnter
  simp only [hdom, State.dom_setDom, if_true]

/-- No bit of a register falls on a transition. -/
theorem State.rb_domEnter_mono {s : State} {a j : Nat} (h : s.rb a j = true) (d new : Nat) : (s.domEnter d new).rb a j = true := by
  have hif (c : Prop) [Decidable c] {u : State} (i : Nat) (hu : u.rb a j = true) : (if c then u.raise .dom d i else u).rb a j = true := by
    split
    · exact State.rb_raiseAt_mono hu _ i
    · exact hu
  unfold State.domEnter
  exact hif _ _ (hif _ _ h)

theorem State.dom_domStep (s : State) (d : Nat) (delta : Int) :
    (s.domStep d delta).dom d =
      { s.dom d with offset := (s.dom d).offset + delta * 65536, stepped := (s.dom d).stepped + 1 } := by
  unfold State.domStep
  rw [State.dom_raise, State.dom_evt, State.dom_setDom, if_pos rfl]

/-! ### The registers that the judgement of an error changes -/

/-- The counters and interrupts of a domain that an error can change (Table 10-1). -/
def errRegs (d : Nat) : List Nat := [Reg.DOM_STEP_CNT d, Reg.DOM_MASTER_JUMP d, Reg.INT_RAW (pageBase .dom d)]

theorem domRaw_mem (d : Nat) : Reg.INT_RAW (pageBase .dom d) ∈ errRegs d := .tail _ (.tail _ (.head _))

section

variable (s : State) (d : Nat)

theorem regsBut_domEnter {ks : List Nat} (ha : Reg.INT_RAW (pageBase .dom d) ∈ ks) (new : Nat) : regsBut ks s (s.domEnter d new) := by
  have hif (c : Prop) [Decidable c] (u : State) (i : Nat) : regsBut ks u (if c then u.raise .dom d i else u) := by
    split
    · exact regsBut_raise _ ha _
    · exact .of_regs rfl
  unfold State.domEnter
  exact ((hif _ s _).trans (.of_regs rfl)).trans (hif _ _ _)

theorem regsBut_domStep (delta : Int) : regsBut (errRegs d) s (s.domStep d delta) :=
  ((regsBut.of_regs rfl).trans (regsBut_evt _ (.head _))).trans (regsBut_raise _ (domRaw_mem d) _)

theorem regsBut_domJump : regsBut (errRegs d) s (s.domJump d) :=
  (regsBut_evt s (.tail _ (.head _))).trans (regsBut_raise _ (domRaw_mem d) _)

theorem regsBut_setRate2 (base slew : Int) : regsBut (errRegs d) s (s.setRate2 d base slew) := by
  unfold State.setRate2
  extract_lets D t
  split
  · exact .of_regs rfl
  · exact (regsBut.of_regs rfl).trans (regsBut_raise t (domRaw_mem d) _)

theorem regsBut_setRate (base : Int) : regsBut (errRegs d) s (s.setRate d base) := by
  have hsettle : regsBut (errRegs d) s (s.slewSettle d) := by
    unfold State.slewSettle
    split
    · exact (regsBut_setRate2 s d _ _).trans (.of_regs rfl)
    · exact .of_regs rfl
  exact hsettle.trans (regsBut_setRate2 _ d _ _)

theorem regsBut_domUpdate (native : Bool) (e : Int) : regsBut (errRegs d) s (s.domUpdate d native e) := by
  cases native
  · exact .of_regs rfl
  · exact (regsBut.of_regs rfl).trans (regsBut_setRate _ d _)

theorem regsBut_lockJudge (e : Int) : regsBut (errRegs d) s (s.lockJudge d e) := by
  unfold State.lockJudge
  extract_lets thr run D
  split
  · exact (regsBut.of_regs rfl).trans (regsBut_domEnter _ d (domRaw_mem d) 3)
  · exact .of_regs rfl

theorem regsBut_domErr (native : Bool) (e : Int) (here : Int × Nat) : regsBut (errRegs d) s (s.domErr d native e here) := by
  have henter (u : State) (new : Nat) : regsBut (errRegs d) u (u.domEnter d new) := regsBut_domEnter u d (domRaw_mem d) new
  unfold State.domErr
  split
  · split
    · exact .of_regs rfl
    · exact ((regsBut_domStep s d e).trans (henter _ 2)).trans (.of_regs rfl)
  · split
    · exact (regsBut_domUpdate s d true e).trans (regsBut_lockJudge _ d e)
    · exact .of_regs rfl
  · split
    · exact regsBut_domUpdate s d native e
    · exact regsBut_domJump s d
  · split
    · exact (regsBut_domUpdate s d native e).trans (henter _ 3)
    · exact regsBut_domJump s d
  · exact .of_regs rfl

end

/-! ### Messages sent -/

theorem State.syncOut_regs (s : State) (d : Nat) (o : OwnSync) (tlv : List Byte) : (s.syncOut d o tlv).regs = s.regs :=
  ((State.syncOut_chg (.self [.tim, .inj]) (.refl s)).same .regs (by decide)).symm

/-- The Syncs sent advance the sequenceIds; the domains stay as they are. -/
theorem State.dom_syncOut (s : State) (d : Nat) (o : OwnSync) (tlv : List Byte) (e : Nat) : (s.syncOut d o tlv).dom e = s.dom e := by
  unfold State.syncOut
  exact List.foldlRecOn (motive := fun t : State => t.dom e = s.dom e) _ _ rfl fun _ ht _ _ => ht

/-- One asCapable master port sends one Sync, in the class of the gPTP messages. -/
theorem State.syncOut_one {d p : Nat} (s : State) (h : (ptpPorts.filter fun q => decide (s.ptpRole q d = 1) && s.asCapable q) = [p]) (o : OwnSync)
    (tlv : List Byte) : ∃ b, (s.syncOut d o tlv).inj = s.inj ++ [.own p (s.rf Reg.TIM_CFG 4 3) b (some (.sync o))] := by
  unfold State.syncOut
  rw [h]
  exact ⟨_, rfl⟩

end Sys2Proof.Machine

end
section
/-! SET_RATE of a grandmaster domain whose slew has applied its Δ while no SLEW_DONE has been given yet (R277, R282, R283): SR returned to 0
at the instant of equality, so the rate that SET_RATE makes has none. -/

namespace Sys2Proof.Machine

theorem State.dom_setRate2 (s : State) (d : Nat) (base slew : Int) :
    (s.setRate2 d base slew).dom d = (s.dom d).setRate s.frc16 (s.rateMax d) base slew := by
  unfold State.setRate2
  extract_lets D t
  have hdom : t.dom d = D := (State.dom_setDom ..).trans (if_pos rfl)
  split
  · exact hdom
  · exact (State.dom_raise ..).trans hdom

/-- The slew rate of a slew that has applied its Δ is 0 (R282). -/
theorem State.slew_slewSettle {s : State} {d : Nat} (h : (s.dom d).slewed s.frc16 = true) : ((s.slewSettle d).dom d).slew = 0 := by
  unfold State.slewSettle
  rw [if_pos h]
  extract_lets t D
  rw [State.dom_setDom, if_pos rfl]
  exact congrArg Dom.slew (s.dom_setRate2 d (s.dom d).base 0)

theorem State.slew_setRate {s : State} {d : Nat} (h : (s.dom d).slewed s.frc16 = true) (base : Int) : ((s.setRate d base).dom d).slew = 0 :=
  (congrArg Dom.slew (State.dom_setRate2 ..)).trans (State.slew_slewSettle h)

/-- SET_RATE of a grandmaster domain changes the base rate (R283). -/
theorem exec_domSetRate {m d : Nat} {s : State} (h : s.admits m (Reg.DOM_CMD d) = true) (hgm : s.domGm d = true) :
    ∃ base, exec (.domSetRate m d) s = .next ((s.noted m (Reg.DOM_CMD d)).setRate d base) := by
  have hgm' : (s.noted m (Reg.DOM_CMD d)).domGm d = true :=
    (State.rb_noted _ _ _ 1 (.inr (by show 0x5000 ≤ 0xC1080 + 0x1000 * d; omega))).trans hgm
  have hcmd (u : State) : u.domCmdWrite d 4 = u.domSetRateCmd d := rfl
  refine ⟨sext 32 ((s.noted m (Reg.DOM_CMD d)).rd (Reg.DOM_ADJ_LO d)).toNat, congrArg Host.Outcome.next ?_⟩
  rw [State.access_ok h, hcmd, State.domSetRateCmd, hgm']
  rfl

end Sys2Proof.Machine

namespace Sys2Proof.Machine.SlewApplied

/-- A LOCKED domain that slews by 1 ns, at 1000 × 2^-32 since FRC 0. -/
def slewing : Dom := { Dom.reset with state := 3, rate := 1000, slew := 1000, slewing := true, delta := 1 }

/-- After reset, with the forwarding domain on and the FRC at 1 s: domain 3 is a grandmaster. -/
def before : State :=
  ({ State.reset with frcNs := 1000000000, pwr := { State.reset.pwr with fwdOn := true } }.setDom 3 slewing).wr (Reg.DOM_CFG 3) 3

theorem admitted : before.admits 3 (Reg.DOM_CMD 3) = true := by decide +kernel

theorem before_gm : before.domGm 3 = true := by decide +kernel

/-- 1000 × 2^-32 of 1 s is more than 1 ns. -/
theorem before_slewed : (before.dom 3).slewed before.frc16 = true := by decide +kernel

theorem before_slew : (before.dom 3).slew = 1000 := by decide +kernel

/-- What the FRC and the domains hold is the same once the write has been noted. -/
theorem noted_slewed : ((before.noted 3 (Reg.DOM_CMD 3)).dom 3).slewed (before.noted 3 (Reg.DOM_CMD 3)).frc16 = true := by
  unfold State.frc16
  rw [State.dom_congr (State.noted_tim ..), State.noted_frcNs, State.noted_frcFrac]
  exact before_slewed

end Sys2Proof.Machine.SlewApplied

open Sys2Proof Sys2Proof.Machine

/-- Refutes O45: its clause on SET_RATE says that the slew rate is kept, and does not ask that a slew in progress has not applied its Δ yet.
Once it has, SR is 0 (R282), and SET_RATE leaves it 0. -/
theorem not_domainCommandsSteerTime : ¬ Obligations.DomainCommandsSteerTime := by
  unfold Obligations.DomainCommandsSteerTime
  rintro ⟨-, -, -, -, -, setRate, -⟩
  obtain ⟨t, hexec, -, hslew, -⟩ := setRate 3 3 SlewApplied.before (by decide) SlewApplied.admitted SlewApplied.before_gm
  obtain ⟨base, hnext⟩ := exec_domSetRate SlewApplied.admitted SlewApplied.before_gm
  rw [hnext, Host.Outcome.next.injEq] at hexec
  rw [← hexec, State.slew_setRate SlewApplied.noted_slewed, SlewApplied.before_slew] at hslew
  exact absurd hslew (by decide)

end
section
/-! The gPTP messages received and sent (R279, R281, R285-R288). -/

namespace Sys2Proof.Machine

/-! ### What a received message's count leaves to be read -/

theorem ptpPorts_lt : ∀ p ∈ ptpPorts, p < 23 := by decide

theorem State.slavePort_mem {s : State} {d p : Nat} (h : s.slavePort d = some p) : p ∈ ptpPorts := List.mem_of_find?_eq_some h

/-- The state in which a received message has been counted (R285). -/
def State.msgCounted (s : State) : State := s.stat Reg.TIM_RX_MSG 1

section

variable (s : State)

theorem regsBut_msgCounted : regsBut [Reg.TIM_RX_MSG, Reg.TIM_RX_MSG + 4] s s.msgCounted := regsBut_stat s (by decide) (by decide) 1

theorem State.rd_msgCounted {k : Nat} (h : k ≠ Reg.TIM_RX_MSG) (h4 : k ≠ Reg.TIM_RX_MSG + 4) : s.msgCounted.rd k = s.rd k :=
  s.rd_stat_ne 1 h.symm h4.symm

@[simp] theorem State.msgCounted_tim : s.msgCounted.tim = s.tim := State.stat_tim ..

@[simp] theorem State.msgCounted_inj : s.msgCounted.inj = s.inj := State.stat_inj ..

@[simp] theorem State.dom_msgCounted (d : Nat) : s.msgCounted.dom d = s.dom d := State.dom_stat ..

@[simp] theorem State.pd_msgCounted (p : Nat) : s.msgCounted.pd p = s.pd p := State.pd_stat ..

theorem State.rd_msgCounted_domCfg (d : Nat) : s.msgCounted.rd (Reg.DOM_CFG d) = s.rd (Reg.DOM_CFG d) :=
  s.rd_msgCounted (by show 0xC1080 + 0x1000 * d ≠ 0xC0290; omega) (by show 0xC1080 + 0x1000 * d ≠ 0xC0290 + 4; omega)

theorem State.rd_msgCounted_portCfg {p : Nat} (hp : p ∈ ptpPorts) : s.msgCounted.rd (Reg.TIM_PORT_CFG p) = s.rd (Reg.TIM_PORT_CFG p) := by
  have := ptpPorts_lt p hp
  exact s.rd_msgCounted (by show 0xC0100 + 0x10 * p ≠ 0xC0290; omega) (by show 0xC0100 + 0x10 * p ≠ 0xC0290 + 4; omega)

theorem State.rd_msgCounted_pdelay (p : Nat) : s.msgCounted.rd (Reg.TIM_PDELAY p) = s.rd (Reg.TIM_PDELAY p) :=
  s.rd_msgCounted (by show 0xC0108 + 0x10 * p ≠ 0xC0290; omega) (by show 0xC0108 + 0x10 * p ≠ 0xC0290 + 4; omega)

@[simp] theorem State.domOf_msgCounted (n : Nat) : s.msgCounted.domOf n = s.domOf n := by
  unfold State.domOf State.rb State.rf
  simp only [State.rd_msgCounted_domCfg, State.dom_msgCounted]

@[simp] theorem State.slavePort_msgCounted (d : Nat) : s.msgCounted.slavePort d = s.slavePort d := by
  unfold State.slavePort State.ptpRole State.rf
  rw [← List.head?_filter, ← List.head?_filter, List.filter_congr fun p hp => ?_]
  rw [s.rd_msgCounted_portCfg hp]

@[simp] theorem State.asCapable_msgCounted (p : Nat) : s.msgCounted.asCapable p = s.asCapable p := congrArg (bit · 31) (s.rd_msgCounted_pdelay p)

end

/-! ### A Sync that is accepted -/

/-- The master's time at an accepted Sync's arrival: origin, correction and link delay (R279), in 2^-16 ns. -/
def State.masterTime (s : State) (p origin : Nat) (corr : Int) : Int := (origin : Int) * 65536 + corr + (s.linkDelay p : Int) * 65536

/-- The error of an accepted Sync, ns. -/
def State.syncError (s : State) (d p origin : Nat) (corr : Int) (ingress : Nat) : Int :=
  (s.masterTime p origin corr - s.domTimeAt d (ingress * 65536)) / 65536

/-- An accepted Sync has been counted and its error captured. -/
def State.syncMeasured (s : State) (d p origin : Nat) (corr : Int) (ingress : Nat) : State :=
  (s.stat (Reg.DOM_SYNC_RX d) 1).wr (Reg.DOM_LAST_ERR d)
    (wd (unsext 32 (clampI (-2147483648) 2147483647 ((s.stat (Reg.DOM_SYNC_RX d) 1).syncError d p origin corr ingress))))

/-- ERR_READY has been raised where the compatibility servo is to read the error. -/
def State.syncNotified (s : State) (d p origin : Nat) (corr : Int) (ingress : Nat) : State :=
  let u := s.syncMeasured d p origin corr ingress
  if u.domCompat d then u.raise .dom d Irq.DOM_ERR_READY else u

/-- The error of an accepted Sync has been judged, which a grandmaster does not do. -/
def State.syncJudged (s : State) (d p origin : Nat) (corr : Int) (ingress : Nat) : State :=
  let u := s.syncMeasured d p origin corr ingress
  let t := s.stat (Reg.DOM_SYNC_RX d) 1
  if u.domGm d then u
  else (s.syncNotified d p origin corr ingress).domErr d (!u.rb (Reg.DOM_CFG d) 2) (t.syncError d p origin corr ingress)
    (t.masterTime p origin corr, ingress * 65536)

/-- An accepted Sync leaves its error's judgement, itself as the latest Sync and none that waits. -/
theorem State.syncAccept_keeps (s : State) (d p origin : Nat) (corr : Int) (ingress steps : Nat) (tlv : List Byte) :
    (s.syncAccept d p origin corr ingress steps tlv).regs = (s.syncJudged d p origin corr ingress).regs ∧
    (s.syncAccept d p origin corr ingress steps tlv).dom d = { (s.syncJudged d p origin corr ingress).dom d with
      last2 := some ((s.stat (Reg.DOM_SYNC_RX d) 1).masterTime p origin corr, ingress * 65536), wait := none } := by
  unfold State.syncAccept
  extract_lets t master there rate e u here v D w
  have hw : w.dom d = { v.dom d with last2 := some here, wait := none } := (State.dom_setDom ..).trans (if_pos rfl)
  split
  · exact ⟨rfl, hw⟩
  · exact ⟨State.syncOut_regs .., (State.dom_syncOut ..).trans hw⟩

section

variable (s : State) (d p origin : Nat) (corr : Int) (ingress : Nat)

/-- Counting an accepted Sync leaves the master's time and the error. -/
theorem State.masterTime_stat : (s.stat (Reg.DOM_SYNC_RX d) 1).masterTime p origin corr = s.masterTime p origin corr := by
  have hreg : (s.stat (Reg.DOM_SYNC_RX d) 1).rd (Reg.TIM_PDELAY p) = s.rd (Reg.TIM_PDELAY p) :=
    s.rd_stat_ne 1 (by show 0xC10E0 + 0x1000 * d ≠ 0xC0108 + 0x10 * p; omega) (by show 0xC10E0 + 0x1000 * d + 4 ≠ 0xC0108 + 0x10 * p; omega)
  unfold State.masterTime State.linkDelay State.rf
  rw [hreg]

theorem State.syncError_stat : (s.stat (Reg.DOM_SYNC_RX d) 1).syncError d p origin corr ingress = s.syncError d p origin corr ingress := by
  unfold State.syncError State.domTimeAt
  rw [State.masterTime_stat, State.dom_stat]

/-- The registers of a domain that an accepted Sync changes beside its own count. -/
def syncRegs (d : Nat) : List Nat := Reg.DOM_LAST_ERR d :: errRegs d

theorem syncRx_not_mem : Reg.DOM_SYNC_RX d ∉ syncRegs d ∧ Reg.DOM_SYNC_RX d + 4 ∉ syncRegs d ∧ 0x5000 ≤ Reg.DOM_SYNC_RX d := by
  show 0xC10E0 + 0x1000 * d ∉ [0xC10D8 + 0x1000 * d, 0xC10FC + 0x1000 * d, 0xC10F0 + 0x1000 * d, 0xC1000 + 0x1000 * d + 0x18] ∧
    0xC10E0 + 0x1000 * d + 4 ∉ [0xC10D8 + 0x1000 * d, 0xC10FC + 0x1000 * d, 0xC10F0 + 0x1000 * d, 0xC1000 + 0x1000 * d + 0x18] ∧
    0x5000 ≤ 0xC10E0 + 0x1000 * d
  simp only [List.mem_cons, List.not_mem_nil, or_false]
  omega

theorem regsBut_syncJudged : regsBut (syncRegs d) (s.stat (Reg.DOM_SYNC_RX d) 1) (s.syncJudged d p origin corr ingress) := by
  have hmeasured : regsBut (syncRegs d) (s.stat (Reg.DOM_SYNC_RX d) 1) (s.syncMeasured d p origin corr ingress) := regsBut_wr _ (.head _) _
  have hnotified : regsBut (syncRegs d) (s.syncMeasured d p origin corr ingress) (s.syncNotified d p origin corr ingress) := by
    unfold State.syncNotified
    extract_lets u
    split
    · exact regsBut_raise u (.tail _ (domRaw_mem d)) _
    · exact .of_regs rfl
  unfold State.syncJudged
  extract_lets u t
  split
  · exact hmeasured
  · exact (hmeasured.trans hnotified).trans ((regsBut_domErr _ d _ _ _).mono fun _ => .tail _)

/-- An accepted Sync is counted (R281). -/
theorem State.rd64_syncAccept (steps : Nat) (tlv : List Byte) :
    (s.syncAccept d p origin corr ingress steps tlv).rd64 (Reg.DOM_SYNC_RX d) = (s.stat (Reg.DOM_SYNC_RX d) 1).rd64 (Reg.DOM_SYNC_RX d) := by
  obtain ⟨hregs, -⟩ := s.syncAccept_keeps d p origin corr ingress steps tlv
  obtain ⟨hlow, hhigh, hpage⟩ := syncRx_not_mem d
  rw [State.rd64_congr (State.rd_congr hregs _) (State.rd_congr hregs _)]
  exact (regsBut_syncJudged s d p origin corr ingress).rd64 hlow hhigh hpage

/-- An accepted Sync becomes the latest one, and none waits. -/
theorem State.dom_syncAccept (steps : Nat) (tlv : List Byte) :
    (s.syncAccept d p origin corr ingress steps tlv).dom d =
      { (s.syncJudged d p origin corr ingress).dom d with last2 := some (s.masterTime p origin corr, ingress * 65536), wait := none } := by
  obtain ⟨-, hdom⟩ := s.syncAccept_keeps d p origin corr ingress steps tlv
  rw [hdom, State.masterTime_stat]

end

/-- An error that the native servo judges in UNSYNC steps the domain, which then settles (Table 10-1). -/
theorem State.domErr_unsync {s : State} {d : Nat} (h : (s.dom d).state = 1) (e : Int) (here : Int × Nat) :
    ((s.domErr d true e here).dom d).state = 2 ∧ ((s.domErr d true e here).dom d).offset = (s.dom d).offset + e * 65536 := by
  unfold State.domErr
  simp only [h, Bool.not_true, Bool.false_eq_true, if_false, State.dom_setDom, if_true, State.dom_domEnter, State.dom_domStep, and_self]

/-- A Sync accepted by a native domain in UNSYNC steps the domain by its error, and it settles. -/
theorem State.syncJudged_unsync {s : State} {d : Nat} (hgm : s.domGm d = false) (hnative : s.rb (Reg.DOM_CFG d) 2 = false)
    (h : (s.dom d).state = 1) (p origin : Nat) (corr : Int) (ingress : Nat) :
    ((s.syncJudged d p origin corr ingress).dom d).state = 2 ∧
    ((s.syncJudged d p origin corr ingress).dom d).offset = (s.dom d).offset + s.syncError d p origin corr ingress * 65536 := by
  have hcfg : (s.syncMeasured d p origin corr ingress).rd (Reg.DOM_CFG d) = s.rd (Reg.DOM_CFG d) :=
    (State.rd_wr_ne _ _ (by show 0xC10D8 + 0x1000 * d ≠ 0xC1080 + 0x1000 * d; omega)).trans
      (s.rd_stat_ne 1 (by show 0xC10E0 + 0x1000 * d ≠ 0xC1080 + 0x1000 * d; omega) (by show 0xC10E0 + 0x1000 * d + 4 ≠ 0xC1080 + 0x1000 * d; omega))
  have hmeasured : (s.syncMeasured d p origin corr ingress).dom d = s.dom d := by
    unfold State.syncMeasured
    rw [State.dom_wr, State.dom_stat]
  have hdom : (s.syncNotified d p origin corr ingress).dom d = s.dom d := by
    unfold State.syncNotified
    extract_lets u
    split
    · rw [State.dom_raise, hmeasured]
    · exact hmeasured
  have hslave : ¬ (s.syncMeasured d p origin corr ingress).domGm d = true := by
    unfold State.domGm State.rb at hgm ⊢
    rw [hcfg, hgm]
    exact Bool.false_ne_true
  have hservo : (s.syncMeasured d p origin corr ingress).rb (Reg.DOM_CFG d) 2 = false := (congrArg (bit · 2) hcfg).trans hnative
  unfold State.syncJudged
  extract_lets u t
  rw [if_neg hslave, hservo, State.syncError_stat]
  have := State.domErr_unsync (hdom ▸ h : ((s.syncNotified d p origin corr ingress).dom d).state = 1) (s.syncError d p origin corr ingress)
    (t.masterTime p origin corr, ingress * 65536)
  rwa [hdom] at this

/-! ### Syncs received -/

/-- A Sync that still waited for its Follow_Up has been dropped (R286). -/
def State.syncForgotten (s : State) (d : Nat) : State :=
  if (s.dom d).wait.isSome then (s.setDom d { s.dom d with wait := none }).syncDrop else s

theorem State.syncForgotten_none {s : State} {d : Nat} (h : (s.dom d).wait = none) : s.syncForgotten d = s := by
  unfold State.syncForgotten
  rw [h]
  rfl

theorem State.syncForgotten_some {s : State} {d : Nat} {w : SyncWait} (h : (s.dom d).wait = some w) :
    s.syncForgotten d = (s.setDom d { s.dom d with wait := none }).syncDrop := by
  unfold State.syncForgotten
  rw [h]
  rfl

theorem State.dom_syncForgotten (s : State) (d : Nat) : (s.syncForgotten d).dom d = { s.dom d with wait := none } := by
  cases h : (s.dom d).wait with
  | none =>
    rw [State.syncForgotten_none h, ← h]
  | some w =>
    rw [State.syncForgotten_some h]
    exact (State.dom_evt ..).trans ((State.dom_setDom ..).trans (if_pos rfl))

theorem regsBut_syncForgotten (s : State) (d : Nat) : regsBut [Reg.TIM_SYNC_DROP] s (s.syncForgotten d) := by
  unfold State.syncForgotten
  split
  · exact (regsBut.of_regs rfl).trans (regsBut_evt _ (.head _))
  · exact .of_regs rfl

theorem State.syncForgotten_inj (s : State) (d : Nat) : (s.syncForgotten d).inj = s.inj := by
  unfold State.syncForgotten
  split <;> simp [State.syncDrop]

section

variable {s : State} {p n d : Nat} {two : Bool} {seq origin : Nat} {corr : Int} {ingress : Nat} {tlv : List Byte}

/-- A Sync on the domain's asCapable slave port waits for its Follow_Up or is accepted (R286). -/
theorem State.syncRx_slave (hdom : s.domOf n = some d) (hport : s.slavePort d = some p) (hcap : s.asCapable p = true) :
    s.syncRx p n two seq origin corr ingress tlv =
      let u := s.msgCounted.syncForgotten d
      if two then u.setDom d { u.dom d with wait := some ⟨p, seq, corr, ingress, (u.dom d).stepped⟩ }
      else u.syncAccept d p origin corr ingress (u.dom d).stepped tlv := by
  have hdom' : s.msgCounted.domOf n = some d := (State.domOf_msgCounted ..).trans hdom
  have hhere : s.msgCounted.slavePort d = some p ∧ s.msgCounted.asCapable p = true := by simp [hport, hcap]
  unfold State.syncRx State.msgCounted at *
  simp only [hdom', if_pos hhere]
  rfl

theorem State.syncRx_other (hdom : s.domOf n = some d) (hport : ¬(s.slavePort d = some p ∧ s.asCapable p = true)) :
    s.syncRx p n two seq origin corr ingress tlv = s.msgCounted.syncDrop := by
  have hdom' : s.msgCounted.domOf n = some d := (State.domOf_msgCounted ..).trans hdom
  have hhere : ¬(s.msgCounted.slavePort d = some p ∧ s.msgCounted.asCapable p = true) := by simpa using hport
  unfold State.syncRx State.msgCounted at *
  simp only [hdom', if_neg hhere]

theorem State.syncRx_foreign (hdom : s.domOf n = none) : s.syncRx p n two seq origin corr ingress tlv = s.msgCounted.evt Reg.TIM_FOREIGN := by
  have hdom' : s.msgCounted.domOf n = none := (State.domOf_msgCounted ..).trans hdom
  unfold State.syncRx State.msgCounted at *
  simp only [hdom']

end

/-! ### The statement's clauses on Syncs -/

/-- A state that presents nothing is the next state (R21). -/
theorem settled_nil {s : State} (h : s.inj = []) : settled s = .next s := congrArg Host.Outcome.next (State.settle_nil h)

section

variable {p n d seq origin : Nat} {corr : Int} {ing : Nat} {tlv : List Byte} {s : State}

theorem syncRx_waits (hdom : s.domOf n = some d) (hport : s.slavePort d = some p) (hcap : s.asCapable p = true) (hinj : s.inj = []) :
    exec (.syncRx p n true seq origin corr ing tlv) s = .next ((s.msgCounted.syncForgotten d).setDom d
      { s.dom d with wait := some ⟨p, seq, corr, ing, (s.dom d).stepped⟩ }) := by
  have hwaits : s.syncRx p n true seq origin corr ing tlv = (s.msgCounted.syncForgotten d).setDom d
      { s.dom d with wait := some ⟨p, seq, corr, ing, (s.dom d).stepped⟩ } := by
    rw [State.syncRx_slave hdom hport hcap]
    simp only [State.dom_syncForgotten, State.dom_msgCounted, if_true]
  show settled (s.syncRx p n true seq origin corr ing tlv) = _
  rw [hwaits]
  exact settled_nil ((State.syncForgotten_inj ..).trans ((State.msgCounted_inj s).trans hinj))

theorem syncRx_first_waits (hdom : s.domOf n = some d) (hport : s.slavePort d = some p) (hcap : s.asCapable p = true)
    (hwait : (s.dom d).wait = none) (hinj : s.inj = []) :
    Completes (.syncRx p n true seq origin corr ing tlv) s fun t =>
      t.dom d = { s.dom d with wait := some ⟨p, seq, corr, ing, (s.dom d).stepped⟩ } ∧ (∀ e, e ≠ d → t.dom e = s.dom e) ∧
      t.rd64 Reg.TIM_RX_MSG = (s.stat Reg.TIM_RX_MSG 1).rd64 Reg.TIM_RX_MSG ∧ regsBut [Reg.TIM_RX_MSG, Reg.TIM_RX_MSG + 4] s t := by
  refine ⟨_, syncRx_waits hdom hport hcap hinj, ?_⟩
  rw [State.syncForgotten_none ((congrArg Dom.wait (s.dom_msgCounted d)).trans hwait)]
  exact ⟨(State.dom_setDom ..).trans (if_pos rfl), fun e he => ((State.dom_setDom ..).trans (if_neg he.symm)).trans (s.dom_msgCounted e),
    State.rd64_congr (State.rd_setDom ..) (State.rd_setDom ..), (regsBut_msgCounted s).trans (.of_regs rfl)⟩

theorem syncRx_next_waits {w : SyncWait} (hdom : s.domOf n = some d) (hport : s.slavePort d = some p) (hcap : s.asCapable p = true)
    (hwait : (s.dom d).wait = some w) (hinj : s.inj = []) :
    Completes (.syncRx p n true seq origin corr ing tlv) s fun t =>
      t.dom d = { s.dom d with wait := some ⟨p, seq, corr, ing, (s.dom d).stepped⟩ } ∧
      t.rd Reg.TIM_SYNC_DROP = evtNext (s.rd Reg.TIM_SYNC_DROP) := by
  refine ⟨_, syncRx_waits hdom hport hcap hinj, (State.dom_setDom ..).trans (if_pos rfl), ?_⟩
  rw [State.syncForgotten_some ((congrArg Dom.wait (s.dom_msgCounted d)).trans hwait), State.rd_setDom, State.syncDrop, State.rd_evt, if_pos rfl,
    State.rd_setDom, s.rd_msgCounted (by decide) (by decide)]

theorem syncRx_drops {two : Bool} (hdom : s.domOf n = some d) (hport : ¬(s.slavePort d = some p ∧ s.asCapable p = true)) (hinj : s.inj = []) :
    Completes (.syncRx p n two seq origin corr ing tlv) s fun t =>
      t.tim = s.tim ∧ t.rd Reg.TIM_SYNC_DROP = evtNext (s.rd Reg.TIM_SYNC_DROP) := by
  refine ⟨s.msgCounted.syncDrop, ?_, (State.evt_tim ..).trans s.msgCounted_tim, ?_⟩
  · show settled (s.syncRx p n two seq origin corr ing tlv) = _
    rw [State.syncRx_other hdom hport]
    exact settled_nil ((State.evt_inj ..).trans (s.msgCounted_inj.trans hinj))
  · rw [State.syncDrop, State.rd_evt, if_pos rfl, s.rd_msgCounted (by decide) (by decide)]

theorem syncRx_counts_foreign {two : Bool} (hdom : s.domOf n = none) (hinj : s.inj = []) :
    Completes (.syncRx p n two seq origin corr ing tlv) s fun t =>
      t.tim = s.tim ∧ t.rd Reg.TIM_FOREIGN = evtNext (s.rd Reg.TIM_FOREIGN) := by
  refine ⟨s.msgCounted.evt Reg.TIM_FOREIGN, ?_, (State.evt_tim ..).trans s.msgCounted_tim, ?_⟩
  · show settled (s.syncRx p n two seq origin corr ing tlv) = _
    rw [State.syncRx_foreign hdom]
    exact settled_nil ((State.evt_inj ..).trans (s.msgCounted_inj.trans hinj))
  · rw [State.rd_evt, if_pos rfl, s.rd_msgCounted (by decide) (by decide)]

end

/-- What has been done to a Sync received before it is accepted: counters alone have changed, and no Sync waits. -/
structure Heard (d : Nat) (s u : State) : Prop where
  dom : ∃ w, u.dom d = { s.dom d with wait := w }
  rest : regsBut [Reg.TIM_RX_MSG, Reg.TIM_RX_MSG + 4, Reg.TIM_SYNC_DROP] s u

theorem heard_msgCounted (s : State) (d : Nat) : Heard d s s.msgCounted :=
  ⟨⟨(s.dom d).wait, s.dom_msgCounted d⟩, (regsBut_msgCounted s).mono (by decide)⟩

theorem heard_syncForgotten (s : State) (d : Nat) : Heard d s (s.msgCounted.syncForgotten d) :=
  ⟨⟨none, by rw [State.dom_syncForgotten, State.dom_msgCounted]⟩,
    ((regsBut_msgCounted s).mono (by decide)).trans ((regsBut_syncForgotten _ d).mono (by decide))⟩

section

variable {s u : State} {d : Nat} (h : Heard d s u)

include h

theorem Heard.masterTime {p : Nat} (hp : p ∈ ptpPorts) (origin : Nat) (corr : Int) : u.masterTime p origin corr = s.masterTime p origin corr := by
  have := ptpPorts_lt p hp
  have hkey : Reg.TIM_PDELAY p ∉ [Reg.TIM_RX_MSG, Reg.TIM_RX_MSG + 4, Reg.TIM_SYNC_DROP] ∧ 0x5000 ≤ Reg.TIM_PDELAY p := by
    show 0xC0108 + 0x10 * p ∉ [0xC0290, 0xC0290 + 4, 0xC028C] ∧ 0x5000 ≤ 0xC0108 + 0x10 * p
    simp only [List.mem_cons, List.not_mem_nil, or_false]
    omega
  obtain ⟨hmem, hpage⟩ := hkey
  unfold State.masterTime State.linkDelay
  rw [h.rest.rf hmem (.inr hpage)]

theorem Heard.syncError {p : Nat} (hp : p ∈ ptpPorts) (origin : Nat) (corr : Int) (ingress : Nat) :
    u.syncError d p origin corr ingress = s.syncError d p origin corr ingress := by
  obtain ⟨w, hdom⟩ := h.dom
  unfold State.syncError State.domTimeAt
  rw [h.masterTime hp, hdom]
  rfl

theorem Heard.rb_domCfg (i : Nat) : u.rb (Reg.DOM_CFG d) i = s.rb (Reg.DOM_CFG d) i := by
  refine h.rest.rb ?_ ?_ i
  · show 0xC1080 + 0x1000 * d ∉ [0xC0290, 0xC0290 + 4, 0xC028C]
    simp only [List.mem_cons, List.not_mem_nil, or_false]
    omega
  · show 0x5000 ≤ 0xC1080 + 0x1000 * d
    omega

theorem Heard.rd64_syncRx : (u.stat (Reg.DOM_SYNC_RX d) 1).rd64 (Reg.DOM_SYNC_RX d) = (s.stat (Reg.DOM_SYNC_RX d) 1).rd64 (Reg.DOM_SYNC_RX d) := by
  have hkey : Reg.DOM_SYNC_RX d ∉ [Reg.TIM_RX_MSG, Reg.TIM_RX_MSG + 4, Reg.TIM_SYNC_DROP] ∧
      Reg.DOM_SYNC_RX d + 4 ∉ [Reg.TIM_RX_MSG, Reg.TIM_RX_MSG + 4, Reg.TIM_SYNC_DROP] ∧ 0x5000 ≤ Reg.DOM_SYNC_RX d := by
    show 0xC10E0 + 0x1000 * d ∉ [0xC0290, 0xC0290 + 4, 0xC028C] ∧ 0xC10E0 + 0x1000 * d + 4 ∉ [0xC0290, 0xC0290 + 4, 0xC028C] ∧
      0x5000 ≤ 0xC10E0 + 0x1000 * d
    simp only [List.mem_cons, List.not_mem_nil, or_false]
    omega
  obtain ⟨hlow, hhigh, hpage⟩ := hkey
  exact State.rd64_stat_congr (h.rest.rd64 hlow hhigh hpage) 1

/-- An accepted Sync is the latest one, none waits, and it is counted. -/
theorem Heard.accepted {p : Nat} (hp : p ∈ ptpPorts) (origin : Nat) (corr : Int) (ingress steps : Nat) (tlv : List Byte) :
    ((u.syncAccept d p origin corr ingress steps tlv).dom d).wait = none ∧
    ((u.syncAccept d p origin corr ingress steps tlv).dom d).last2 = some (s.masterTime p origin corr, ingress * 65536) ∧
    (u.syncAccept d p origin corr ingress steps tlv).rd64 (Reg.DOM_SYNC_RX d) =
      (s.stat (Reg.DOM_SYNC_RX d) 1).rd64 (Reg.DOM_SYNC_RX d) := by
  rw [State.dom_syncAccept, State.rd64_syncAccept, h.rd64_syncRx, h.masterTime hp]
  exact ⟨rfl, rfl, rfl⟩

/-- A Sync accepted by a native domain in UNSYNC steps the domain by its error, and it settles (Table 10-1). -/
theorem Heard.settles (hgm : s.domGm d = false) (hnative : s.rb (Reg.DOM_CFG d) 2 = false) (hstate : (s.dom d).state = 1) {p : Nat}
    (hp : p ∈ ptpPorts) (origin : Nat) (corr : Int) (ingress steps : Nat) (tlv : List Byte) :
    ((u.syncAccept d p origin corr ingress steps tlv).dom d).state = 2 ∧
    ((u.syncAccept d p origin corr ingress steps tlv).dom d).offset = (s.dom d).offset + s.syncError d p origin corr ingress * 65536 := by
  obtain ⟨w, hdom⟩ := h.dom
  have hunsync : (u.dom d).state = 1 := by rw [hdom]; exact hstate
  have hjudged := State.syncJudged_unsync ((h.rb_domCfg 1).trans hgm) ((h.rb_domCfg 2).trans hnative) hunsync p origin corr ingress
  rw [State.dom_syncAccept, ← h.syncError hp, ← show (u.dom d).offset = (s.dom d).offset by rw [hdom]]
  exact hjudged

end

section

variable {p n d seq origin : Nat} {corr : Int} {tlv : List Byte} {s : State}

theorem syncRx_accepts {ing : Nat} (hdom : s.domOf n = some d) (hport : s.slavePort d = some p) (hcap : s.asCapable p = true)
    (hgm : s.domGm d = false) (hnative : s.rb (Reg.DOM_CFG d) 2 = false) (hstate : (s.dom d).state = 1) :
    Presents (.syncRx p n false seq origin corr ing tlv) s fun u =>
      (u.dom d).state = 2 ∧ (u.dom d).offset = (s.dom d).offset + s.syncError d p origin corr ing * 65536 ∧
      (u.dom d).last2 = some (s.masterTime p origin corr, ing * 65536) ∧
      u.rd64 (Reg.DOM_SYNC_RX d) = (s.stat (Reg.DOM_SYNC_RX d) 1).rd64 (Reg.DOM_SYNC_RX d) := by
  refine ⟨_, rfl, _, ?_, passed_settle _⟩
  have hheard := heard_syncForgotten s d
  have hp := State.slavePort_mem hport
  rw [State.syncRx_slave hdom hport hcap]
  obtain ⟨-, hlast, hcount⟩ := hheard.accepted hp origin corr ing ((s.msgCounted.syncForgotten d).dom d).stepped tlv
  obtain ⟨hsettling, hoffset⟩ := hheard.settles hgm hnative hstate hp origin corr ing ((s.msgCounted.syncForgotten d).dom d).stepped tlv
  exact ⟨hsettling, hoffset, hlast, hcount⟩

theorem State.followUpRx_waited {w : SyncWait} (hdom : s.domOf n = some d) (hwait : (s.dom d).wait = some w) (hfrom : w.port = p)
    (hseq : w.seq = seq) (hport : s.slavePort d = some p) (hcap : s.asCapable p = true) :
    s.followUpRx p n seq origin corr tlv = s.msgCounted.syncAccept d p origin (w.corr + corr) w.ingress w.steps tlv := by
  have hdom' : s.msgCounted.domOf n = some d := (State.domOf_msgCounted ..).trans hdom
  have hwait' : (s.msgCounted.dom d).wait = some w := (congrArg Dom.wait (s.dom_msgCounted d)).trans hwait
  have hhere : s.msgCounted.slavePort d = some p ∧ s.msgCounted.asCapable p = true := by simp [hport, hcap]
  unfold State.followUpRx State.msgCounted at *
  simp only [hdom', hwait', hfrom, hseq, and_self, if_true, if_pos hhere]

theorem followUpRx_accepts {w : SyncWait} (hdom : s.domOf n = some d) (hwait : (s.dom d).wait = some w) (hfrom : w.port = p)
    (hseq : w.seq = seq) (hport : s.slavePort d = some p) (hcap : s.asCapable p = true) :
    Presents (.followUpRx p n seq origin corr tlv) s fun u =>
      (u.dom d).wait = none ∧ (u.dom d).last2 = some (s.masterTime p origin (w.corr + corr), w.ingress * 65536) ∧
      u.rd64 (Reg.DOM_SYNC_RX d) = (s.stat (Reg.DOM_SYNC_RX d) 1).rd64 (Reg.DOM_SYNC_RX d) := by
  refine ⟨_, rfl, _, ?_, passed_settle _⟩
  rw [State.followUpRx_waited hdom hwait hfrom hseq hport hcap]
  exact (heard_msgCounted s d).accepted (State.slavePort_mem hport) origin (w.corr + corr) w.ingress w.steps tlv

end

theorem followUpTimeout_drops {d : Nat} {w : SyncWait} {s : State} (hwait : (s.dom d).wait = some w) :
    Completes (.followUpTimeout d) s fun t =>
      t.dom d = { s.dom d with wait := none } ∧ t.rd Reg.TIM_SYNC_DROP = evtNext (s.rd Reg.TIM_SYNC_DROP) ∧
      (∀ e, e ≠ d → t.dom e = s.dom e) ∧ regsBut [Reg.TIM_SYNC_DROP] s t := by
  have hdom (e : Nat) := ((s.setDom d { s.dom d with wait := none }).dom_evt Reg.TIM_SYNC_DROP e).trans (State.dom_setDom ..)
  refine ⟨(s.setDom d { s.dom d with wait := none }).syncDrop, ?_, (hdom d).trans (if_pos rfl), ?_, fun e he => (hdom e).trans (if_neg he.symm),
    (regsBut.of_regs rfl).trans (regsBut_evt _ (.head _))⟩
  · show execFollowUpTimeout d s = _
    unfold execFollowUpTimeout
    rw [hwait]
  · rw [State.syncDrop, State.rd_evt, if_pos rfl, State.rd_setDom]

/-- The loss of Syncs is counted and raised, and the domain leaves its state (Table 10-1). -/
def State.syncLost (s : State) (d new : Nat) : State := ((s.evt (Reg.DOM_SYNC_TO d)).raise .dom d Irq.DOM_SYNC_TIMEOUT).domEnter d new

theorem exec_syncTimeout {d : Nat} {s : State} (hgm : s.domGm d = false) (hstate : (s.dom d).state = 2 ∨ (s.dom d).state = 3) :
    exec (.syncTimeout d) s = .next (s.syncLost d (if (s.dom d).state = 2 then 1 else 4)) := by
  show execSyncTimeout d s = _
  unfold execSyncTimeout
  rcases hstate with h | h <;> simp [hgm, h, State.syncLost]

theorem syncTimeout_leaves {d : Nat} {s : State} (hgm : s.domGm d = false) (hstate : (s.dom d).state = 2 ∨ (s.dom d).state = 3) :
    Completes (.syncTimeout d) s fun t =>
      (t.dom d).state = (if (s.dom d).state = 2 then 1 else 4) ∧ t.rd (Reg.DOM_SYNC_TO d) = evtNext (s.rd (Reg.DOM_SYNC_TO d)) ∧
      t.rb (Reg.INT_RAW (pageBase .dom d)) Irq.DOM_SYNC_TIMEOUT = true ∧ (t.dom d).offset = (s.dom d).offset ∧
      regsBut [Reg.DOM_SYNC_TO d, Reg.INT_RAW (pageBase .dom d)] s t := by
  refine ⟨_, exec_syncTimeout hgm hstate, ?_⟩
  generalize (if (s.dom d).state = 2 then 1 else 4) = new
  have hdom := (s.evt (Reg.DOM_SYNC_TO d)).raise .dom d Irq.DOM_SYNC_TIMEOUT |>.dom_domEnter d new
  have hraw : Reg.INT_RAW (pageBase .dom d) ≠ Reg.DOM_SYNC_TO d := by
    show 0xC1000 + 0x1000 * d + 0x18 ≠ 0xC10F4 + 0x1000 * d
    omega
  have hpage : 0x5000 ≤ Reg.DOM_SYNC_TO d := by
    show 0x5000 ≤ 0xC10F4 + 0x1000 * d
    omega
  have hcount : (s.syncLost d new).rd (Reg.DOM_SYNC_TO d) = evtNext (s.rd (Reg.DOM_SYNC_TO d)) := by
    rw [State.syncLost, regsBut_domEnter (ks := [Reg.INT_RAW (pageBase .dom d)]) _ d (.head _) new _
      (fun hmem => hraw (List.mem_singleton.mp hmem).symm) (.inr hpage), State.rd_raise, if_neg hraw, State.rd_evt, if_pos rfl]
  refine ⟨congrArg Dom.state hdom, hcount, State.rb_domEnter_mono (State.rb_raise _ .dom d (by decide)) d new, ?_, ?_⟩
  · refine (congrArg Dom.offset hdom).trans ?_
    rw [State.dom_raise, State.dom_evt]
  · exact ((regsBut_evt s (.head _)).trans (regsBut_raise _ (.tail _ (.head _)) _)).trans (regsBut_domEnter _ d (.tail _ (.head _)) new)

/-! ### Messages that the time unit sends -/

theorem Presents.imp {c : Instr} {s : State} {P Q : State → Prop} (h : Presents c s P) (himp : ∀ u, P u → Q u) : Presents c s Q := by
  obtain ⟨t, hexec, u, hu, hpassed⟩ := h
  exact ⟨t, hexec, u, himp u hu, hpassed⟩

/-- From `s` to `u` one message of the time unit's own has been presented to port `p`, and is last of those that wait. -/
def Sends (p : Nat) (m : OwnMsg) (s u : State) : Prop := ∃ b, u.inj = s.inj ++ [.own p (s.rf Reg.TIM_CFG 4 3) b (some m)]

theorem Sends.length {p : Nat} {m : OwnMsg} {s u : State} (h : Sends p m s u) : u.inj.length = s.inj.length + 1 := by
  obtain ⟨b, hinj⟩ := h
  rw [hinj, List.length_append, List.length_singleton]

theorem Sends.last {p : Nat} {m : OwnMsg} {s u : State} (h : Sends p m s u) :
    ∃ b, u.inj.getLast? = some (.own p (s.rf Reg.TIM_CFG 4 3) b (some m)) := by
  obtain ⟨b, hinj⟩ := h
  exact ⟨b, by rw [hinj, List.getLast?_concat]⟩

theorem sends_ptpSend {s u : State} (hinj : u.inj = s.inj) (hclass : u.rf Reg.TIM_CFG 4 3 = s.rf Reg.TIM_CFG 4 3) (p : Nat) (b : List Byte)
    (m : OwnMsg) : Sends p m s (u.ptpSend p b m) :=
  ⟨b, by rw [State.ptpSend, hclass, State.sendOwn, hinj]⟩

theorem gmSyncTimer_sends {d p : Nat} {s : State} (hgm : s.domGm d = true) (hstate : (s.dom d).state ≠ 0)
    (hports : (ptpPorts.filter fun q => decide (s.ptpRole q d = 1) && s.asCapable q) = [p]) :
    Presents (.gmSyncTimer d) s fun u => u.regs = s.regs ∧
      Sends p (.sync { dom := d, relay := false, origin := 0, corr := 0, steps := (s.dom d).stepped }) s u := by
  refine ⟨_, rfl, _, ?_, passed_settle _⟩
  rw [if_pos (Or.inr ⟨hgm, hstate⟩)]
  exact ⟨s.syncOut_regs d _ _, s.syncOut_one hports _ _⟩

theorem pdelayTimer_sends {p : Nat} {s : State} (hp : p ∈ ptpPorts) (hen : s.rb (Reg.TIM_PORT_CFG p) 0 = true) (hreq : (s.pd p).req = none) :
    Presents (.pdelayTimer p) s fun u =>
      u.pd p = { s.pd p with req := some ((s.pd p).seq, s.egressStamp p), resp := none, seq := ((s.pd p).seq + 1) % 65536 } ∧
      u.regs = s.regs ∧ Sends p (.delayReq (s.pd p).seq) s u := by
  refine ⟨_, rfl, _, ?_, passed_settle _⟩
  rw [if_pos ⟨hen, hp⟩, hreq]
  exact ⟨(State.pd_setPd ..).trans (if_pos rfl), rfl, sends_ptpSend rfl rfl p _ _⟩

theorem State.pdelayReqRx_enabled {p : Nat} {s : State} (hp : p ∈ ptpPorts) (hen : s.rb (Reg.TIM_PORT_CFG p) 0 = true) (seq t2 : Nat)
    (r : List Byte) : ∃ b, s.pdelayReqRx p seq t2 r = s.msgCounted.ptpSend p b (.delayResp seq r) := by
  have hen' : s.msgCounted.rb (Reg.TIM_PORT_CFG p) 0 = true := (congrArg (bit · 0) (s.rd_msgCounted_portCfg hp)).trans hen
  exact ⟨_, if_pos ⟨hen', hp⟩⟩

theorem pdelayReqRx_answers {p seq t2 : Nat} {r : List Byte} {s : State} (hp : p ∈ ptpPorts) (hen : s.rb (Reg.TIM_PORT_CFG p) 0 = true) :
    Presents (.pdelayReqRx p seq t2 r) s fun u => u.tim = s.tim ∧ Sends p (.delayResp seq r) s u := by
  obtain ⟨b, hsent⟩ := State.pdelayReqRx_enabled hp hen seq t2 r
  have hclass : s.msgCounted.rf Reg.TIM_CFG 4 3 = s.rf Reg.TIM_CFG 4 3 := congrArg (fld · 4 3) (s.rd_msgCounted (by decide) (by decide))
  refine ⟨_, rfl, _, ?_, passed_settle _⟩
  rw [hsent]
  exact ⟨(State.sendOwn_tim ..).trans s.msgCounted_tim, sends_ptpSend s.msgCounted_inj hclass p b _⟩

/-! ### The peer delay's measurement (R286) -/

theorem clampI_between {lo hi : Int} (h : lo ≤ hi) (i : Int) : lo ≤ clampI lo hi i ∧ clampI lo hi i ≤ hi := by
  unfold clampI
  split
  · omega
  · split <;> omega

theorem State.linkDelay_wf (s : State) (p : Nat) (i : Int) :
    (s.wf (Reg.TIM_PDELAY p) 0 24 (clampI 0 0xFFFFFF i).toNat).linkDelay p = (clampI 0 0xFFFFFF i).toNat := by
  obtain ⟨hlow, hhigh⟩ := clampI_between (lo := 0) (hi := 0xFFFFFF) (by decide) i
  unfold State.linkDelay
  rw [State.rf_wf_same _ _ _ (by decide)]
  omega

/-- The verdict on an exchange leaves the link delay, and notes the exchange in the port's record. -/
theorem State.pdelayGood_keeps (s : State) (p : Nat) :
    (s.pdelayGood p).linkDelay p = s.linkDelay p ∧
    (s.pdelayGood p).pd p = { s.pd p with req := none, good := (s.pd p).good + 1, bad := 0 } := by
  unfold State.pdelayGood
  extract_lets P t
  have hpd : t.pd p = { s.pd p with req := none, good := (s.pd p).good + 1, bad := 0 } := (State.pd_setPd ..).trans (if_pos rfl)
  split
  · exact ⟨State.rf_wf_other t _ _ (by decide) (by decide), hpd⟩
  · exact ⟨rfl, hpd⟩

theorem State.pdelayBad_keeps {p : Nat} (hp : p < 24) (s : State) :
    (s.pdelayBad p).linkDelay p = s.linkDelay p ∧
    (s.pdelayBad p).pd p = { s.pd p with req := none, good := 0, bad := (s.pd p).bad + 1 } := by
  unfold State.pdelayBad
  extract_lets P t
  have hpd : t.pd p = { s.pd p with req := none, good := 0, bad := (s.pd p).bad + 1 } := (State.pd_setPd ..).trans (if_pos rfl)
  split
  · refine ⟨?_, (State.pd_congr (by simp) p).trans hpd⟩
    have hraw : Reg.INT_RAW (pageBase .tim 0) ≠ Reg.TIM_PDELAY p := by
      show 0xC0018 ≠ 0xC0108 + 0x10 * p
      omega
    have hfail : Reg.TIM_PDELAY_FAIL ≠ Reg.TIM_PDELAY p := by
      show 0xC0288 ≠ 0xC0108 + 0x10 * p
      omega
    have hlast : (((t.wf (Reg.TIM_PDELAY p) 31 1 0).evt Reg.TIM_PDELAY_FAIL).raise .tim 0 Irq.TIM_PDELAY_FAIL).linkDelay p =
        (t.wf (Reg.TIM_PDELAY p) 31 1 0).linkDelay p := by
      unfold State.linkDelay State.rf
      rw [State.rd_raise, if_neg hraw, State.rd_evt, if_neg hfail]
    exact hlast.trans (State.rf_wf_other t _ _ (by decide) (by decide))
  · exact ⟨rfl, hpd⟩

/-- The mean link delay of an exchange with the neighbour's rate ratio `nrr`, ns (R286). -/
def meanDelay (nrr : Int) (t1 t2 t3 t4 : Nat) : Int :=
  clampI 0 0xFFFFFF (((t4 : Int) - t1 + (((t4 : Int) - t1) * nrr) / (2 ^ 32 : Int) - ((t3 : Int) - t2)) / 2)

/-- The neighbour's rate ratio of port `p` as it stands. -/
def State.nrr (s : State) (p : Nat) : Int := sext 32 (s.rd (Reg.TIM_NRR p)).toNat

/-- An exchange that leaves the neighbour's rate ratio as it stands has been measured. -/
def State.pdelayMeasured (s : State) (p t1 t2 t3 t4 : Nat) : State :=
  let u := s.msgCounted.wr (Reg.TIM_NRR p) (wd (unsext 32 (s.nrr p)))
  (u.wf (Reg.TIM_PDELAY p) 0 24 (meanDelay (s.nrr p) t1 t2 t3 t4).toNat).setPd p { s.pd p with last := some (t3, t4) }

section

variable {p seq t0 t1 t2 t3 t4 : Nat} {s : State}

theorem State.pdelayRespRx_first (hreq : (s.pd p).req = some (seq, t0)) (hlast : (s.pd p).last = none) :
    s.pdelayRespRx p seq t1 t2 t3 t4 =
      let u := s.pdelayMeasured p t1 t2 t3 t4
      if (meanDelay (s.nrr p) t1 t2 t3 t4).toNat ≤ u.rf Reg.TIM_PDELAY_THRESH 0 16 then u.pdelayGood p else u.pdelayBad p := by
  have hpd : s.msgCounted.pd p = s.pd p := s.pd_msgCounted p
  have hnrr : s.msgCounted.nrr p = s.nrr p := by
    unfold State.nrr
    rw [s.rd_msgCounted (by show 0xC010C + 0x10 * p ≠ 0xC0290; omega) (by show 0xC010C + 0x10 * p ≠ 0xC0290 + 4; omega)]
  unfold State.pdelayMeasured
  rw [← hnrr]
  unfold State.pdelayRespRx State.msgCounted at *
  simp only [hpd, hreq, hlast, ne_eq, not_true_eq_false, if_false]
  rfl

theorem State.thresh_pdelayMeasured : (s.pdelayMeasured p t1 t2 t3 t4).rf Reg.TIM_PDELAY_THRESH 0 16 = s.rf Reg.TIM_PDELAY_THRESH 0 16 := by
  unfold State.rf State.pdelayMeasured
  rw [State.rd_setPd, State.rd_wf_ne _ _ _ _ (by show 0xC0108 + 0x10 * p ≠ 0xC00A8; omega),
    State.rd_wr_ne _ _ (by show 0xC010C + 0x10 * p ≠ 0xC00A8; omega), s.rd_msgCounted (by decide) (by decide)]

theorem State.linkDelay_pdelayMeasured : (s.pdelayMeasured p t1 t2 t3 t4).linkDelay p = (meanDelay (s.nrr p) t1 t2 t3 t4).toNat := by
  unfold State.pdelayMeasured meanDelay
  exact (State.rf_congr (State.setPd_regs ..) _ _ _).trans (State.linkDelay_wf ..)

theorem State.pd_pdelayMeasured : (s.pdelayMeasured p t1 t2 t3 t4).pd p = { s.pd p with last := some (t3, t4) } :=
  (State.pd_setPd ..).trans (if_pos rfl)

theorem pdelayRespRx_measures (hp : p < 24) (hreq : (s.pd p).req = some (seq, t0)) (hlast : (s.pd p).last = none) :
    Completes (.pdelayRespRx p seq t1 t2 t3 t4) s fun t =>
      t.linkDelay p = (meanDelay (s.nrr p) t1 t2 t3 t4).toNat ∧ (t.pd p).req = none ∧ (t.pd p).last = some (t3, t4) ∧
      (t.pd p).good = (if t.linkDelay p ≤ s.rf Reg.TIM_PDELAY_THRESH 0 16 then (s.pd p).good + 1 else 0) := by
  refine ⟨_, rfl, ?_⟩
  rw [State.pdelayRespRx_first hreq hlast]
  extract_lets u
  rw [State.thresh_pdelayMeasured]
  have hdelay : u.linkDelay p = _ := State.linkDelay_pdelayMeasured
  have hpd : u.pd p = _ := State.pd_pdelayMeasured
  split
  next hle =>
    obtain ⟨hkeep, hrec⟩ := u.pdelayGood_keeps p
    refine ⟨hkeep.trans hdelay, ?_⟩
    rw [hkeep, hrec, hdelay, hpd, if_pos hle]
    exact ⟨rfl, rfl, rfl⟩
  next hgt =>
    obtain ⟨hkeep, hrec⟩ := u.pdelayBad_keeps hp
    refine ⟨hkeep.trans hdelay, ?_⟩
    rw [hkeep, hrec, hdelay, hpd, if_neg hgt]
    exact ⟨rfl, rfl, rfl⟩

end

/-! ### Announce and Signaling (R285) -/

theorem gptpOtherRx_counts_foreign {n : Nat} {s : State} (hdom : s.domOf n = none) :
    Completes (.gptpOtherRx n) s fun t =>
      t.rd Reg.TIM_FOREIGN = evtNext (s.rd Reg.TIM_FOREIGN) ∧ t.rd64 Reg.TIM_RX_MSG = (s.stat Reg.TIM_RX_MSG 1).rd64 Reg.TIM_RX_MSG ∧
      t.tim = s.tim := by
  refine ⟨s.msgCounted.evt Reg.TIM_FOREIGN, ?_, ?_, ?_, (State.evt_tim ..).trans s.msgCounted_tim⟩
  · have hnone : (s.msgCounted.domOf n).isNone = true := by rw [State.domOf_msgCounted, hdom]; rfl
    exact congrArg Host.Outcome.next (if_pos hnone)
  · rw [State.rd_evt, if_pos rfl, s.rd_msgCounted (by decide) (by decide)]
  · exact (regsBut_evt s.msgCounted (.head [])).rd64 (by decide) (by decide) (by decide)

theorem gptpOtherRx_counts {n : Nat} {s : State} (hdom : (s.domOf n).isSome = true) :
    Completes (.gptpOtherRx n) s fun t =>
      t.rd64 Reg.TIM_RX_MSG = (s.stat Reg.TIM_RX_MSG 1).rd64 Reg.TIM_RX_MSG ∧ regsBut [Reg.TIM_RX_MSG, Reg.TIM_RX_MSG + 4] s t := by
  refine ⟨s.msgCounted, ?_, rfl, regsBut_msgCounted s⟩
  have hsome : ¬(s.msgCounted.domOf n).isNone = true := by
    rw [State.domOf_msgCounted, Option.isNone_iff_eq_none]
    exact Option.isSome_iff_ne_none.mp hdom
  exact congrArg Host.Outcome.next (if_neg hsome)

end Sys2Proof.Machine

open Sys2Proof Sys2Proof.Machine

/-- Settles O46: each clause is the rule of one message or timer; a message presented is the last of those that wait. -/
theorem timeMessagesAreServed : Obligations.TimeMessagesAreServed := by
  unfold Obligations.TimeMessagesAreServed
  refine ⟨fun p n d seq origin corr ing tlv s => syncRx_first_waits, fun p n d w seq origin corr ing tlv s => syncRx_next_waits,
    fun p n d two seq origin corr ing tlv s _ => syncRx_drops, fun p n two seq origin corr ing tlv s => syncRx_counts_foreign,
    fun p n d seq origin corr ing tlv s _ => syncRx_accepts,
    fun p n d seq origin corr tlv w s _ => followUpRx_accepts,
    fun d w s => followUpTimeout_drops, fun d s _ => syncTimeout_leaves, fun d p s hgm hstate hports => ?_, fun p s hp hen hreq => ?_,
    fun p seq t2 r s hp hen => ?_, fun p seq t0 t1 t2 t3 t4 s hp hreq hlast _ => pdelayRespRx_measures hp hreq hlast,
    fun n s => gptpOtherRx_counts_foreign, fun n s => gptpOtherRx_counts⟩
  · refine (gmSyncTimer_sends hgm hstate hports).imp fun u ⟨hregs, hsends⟩ => ⟨hsends.length, hregs, ?_⟩
    obtain ⟨b, hlast⟩ := hsends.last
    rw [hlast]
    rfl
  · exact (pdelayTimer_sends hp hen hreq).imp fun u ⟨hpd, hregs, hsends⟩ => ⟨hpd, hsends.length, hregs⟩
  · refine (pdelayReqRx_answers hp hen).imp fun u ⟨htim, hsends⟩ => ⟨hsends.length, htim, ?_⟩
    obtain ⟨b, hlast⟩ := hsends.last
    rw [hlast]
    rfl

end
